-- ==== Sys2Proof/Word.lean ====
section
/-! DEFINITION. The word types of the SLP-T72 and the type of its sparse tables. -/
namespace Sys2Proof

/-- A register: 32 bits, little-endian (R16). -/
abbrev Word := BitVec 32
/-- The 64-bit data part of a table word (R17), a descriptor word or a raw tick count. -/
abbrev DWord := BitVec 64
/-- An octet. -/
abbrev Byte := BitVec 8

/-- A table held sparsely: key and value pairs, keys strictly rising, no entry equal to what an
unlisted key reads as. -/
abbrev Store (α : Type) := List (Nat × α)

/-- The canonical form of a table whose unlisted key `k` reads as `d k`. -/
def Store.wf {α : Type} [DecidableEq α] (d : Nat → α) : Store α → Bool
  | [] => true
  | [(k, v)] => decide (v ≠ d k)
  | (k, v) :: (k', v') :: r => decide (v ≠ d k) && decide (k < k') && Store.wf d ((k', v') :: r)

end Sys2Proof
end

