-- ==== Sys2Proof/Syntax.lean ====
section
/-! DEFINITION. The commands of the block: one constructor per row of the opcode table, and the operand types
they carry. A command is something that happens to the device at one instant: an access, a command of a CMD ring,
an event on a pin, a wire or a bus, or the expiry of one of the device's own timers. -/
namespace Sys2Proof

/-- The agent of an access: its origin code (R533) and whether it was made in steward context (R535). -/
structure Acc where
  origin : Fin 11
  steward : Bool
  deriving DecidableEq, Repr

/-- A command descriptor of a CMD ring (R66) as the device meets it: the ring it stands in, the word at offset 0 (TAG, NOTIFY,
OP, UNIT, CLUSTER and reserved bits), the 40 PARAM octets as five little-endian words, and whether the device's read of the
descriptor, or its write of the completion, ends with an error status (R57). -/
structure CmdDesc where
  host : Fin 2
  ring : Fin 128
  w0 : DWord
  p8 : DWord
  p16 : DWord
  p24 : DWord
  p32 : DWord
  p40 : DWord
  readErr : Bool
  writeErr : Bool
  deriving DecidableEq, Repr

/-- What a device read of host memory answers: the octets, or an error status (R57, R69 DMA_ERR). -/
structure HostData where
  octets : List Byte
  err : Bool
  deriving DecidableEq, Repr

/-- How far a row takes a cipher job (R370 to R372): it starts, and runs on until another row of its command ends it; or it ends, whole, with
a host access that fails once `n` octets of output are written, or with the tamper line, which source `src` asserts once `n` octets are
written. -/
inductive JobEnd where
  | starts
  | whole
  | cut (n : Nat)
  | tamper (src : Fin 5) (n : Nat)
  deriving DecidableEq, Repr

/-- A ring that carries frames into the device: a host TX ring (R59) or a Canopy slow-path ring (R474). -/
inductive TxSource where
  | host (h : Fin 2) (r : Fin 128)
  | canopy (r : Fin 4)
  deriving DecidableEq, Repr

/-- The four words of a transmit descriptor (R59). -/
structure TxDesc where
  w0 : DWord
  w8 : DWord
  w16 : DWord
  w24 : DWord
  deriving DecidableEq, Repr

/-- A posted receive buffer (R62): its address and its BUF_LEN. -/
structure RxBuf where
  addr : DWord
  len : BitVec 16
  deriving DecidableEq, Repr

/-- A place event records go to: an EVT ring or a pop queue (R72). -/
inductive EvtQueue where
  | ring (r : Fin 128)
  | pop (n : Fin 4)
  deriving DecidableEq, Repr

/-- The faults of a SerDes lane (R86). -/
inductive SerdesKind where
  | pllUnlock
  | signalLoss
  | elastic
  deriving DecidableEq, Repr

/-- The start mPacket delimiter of a received mPacket (IEEE 802.3br, R98). -/
inductive Smd where
  | start (n : Fin 4)
  | cont (n : Fin 4)
  | verify
  deriving DecidableEq, Repr

/-- A received mPacket of a preemptable frame (R98): `final` marks the last fragment, `crcOk` its mCRC or FCS. -/
structure Fragment where
  smd : Smd
  fragCount : Fin 4
  octets : List Byte
  frac : Byte
  final : Bool
  crcOk : Bool
  deriving DecidableEq, Repr

/-- What a PHY answers on MDIO (R104): the data, and whether it drove the turnaround low. -/
structure PhyReply where
  data : BitVec 16
  ack : Bool
  deriving DecidableEq, Repr

/-- A register that sets the rate, the burst or the scheduling of a Crown queue (R232). -/
inductive ShaperReg where
  | qsched
  | cir
  | cbs
  | pir
  | pbs
  deriving DecidableEq, Repr

/-- The CAN frame formats of R317. -/
inductive CanFmt where
  | classical
  | fd
  | xl
  deriving DecidableEq, Repr

/-- A CAN frame. `id` holds 11 or 29 bits by `ide`; a CAN XL frame carries its priority ID in `id`, and VCID, SDT,
SEC and the acceptance field. -/
structure CanFrame where
  fmt : CanFmt
  ide : Bool
  rtr : Bool
  brs : Bool
  esi : Bool
  id : BitVec 29
  sdt : Byte
  vcid : Byte
  sec : Bool
  af : BitVec 32
  data : List Byte
  deriving DecidableEq, Repr

/-- The outcome of a CAN bus error: TEC and REC as ISO 11898-1 leaves them (TEC over 255 is bus-off), whether it
ended a frame in reception, and, of a frame the channel was sending, the loop delay measured at its FDF-to-res or XLF edge where that was
sent before (R319). -/
structure CanError where
  txCount : BitVec 9
  rxCount : BitVec 8
  inRx : Bool
  edge : Option (BitVec 7)
  deriving DecidableEq, Repr

/-- How far a row takes PROOF_TEST (R532): it starts, or the port now in loopback has been tested. -/
inductive ProofStep where
  | starts
  | port (failed : Bool)
  deriving DecidableEq, Repr

/-- The LIN errors a channel can meet beside no response and a checksum error (R328). -/
inductive LinErr where
  | framing
  | bit
  | parity
  deriving DecidableEq, Repr

/-- How a mailbox request of Heartwood is made: an agent writes the request words and GO, or the request that stands
in MB_REQ with BUSY set is served (R407). -/
inductive MbCall where
  | issue (a : Acc) (req : List Word)
  | serve
  deriving DecidableEq, Repr

/-- What a checkpoint meets (R461, R462, R467): a full match; a mismatch during the save, with the configuration address of the
suppressed transaction, or 0 (R475); or a comparator self-test that is not flagged. -/
inductive CkptOutcome where
  | matched
  | mismatch (addr : BitVec 32)
  | latent
  deriving DecidableEq, Repr

/-- What a wake from STANDBY finds: the save region good, altered or unreadable (R487), or an uncorrectable error in retention SRAM
(R522). -/
inductive RestoreCheck where
  | good
  | badMac
  | readFail
  | retention
  deriving DecidableEq, Repr

/-- What a boot meets outside the device's own state: whether the key reconstruction succeeds (R384), whether the
entropy source passes its start-up tests (R392), whether the SPARE pair passes its built-in self-test (R457), and how many rows of
SVN_FS and of SVN_BURL fail their program-verify where the boot raises them (R548). -/
structure BootResult where
  pufOk : Bool
  entropyOk : Bool
  pairOk : Bool
  /-- WARM_N only: the Canopy firmware held in shared SRAM matches its BODY_DIGEST (R551). -/
  sramOk : Bool
  svnFails : Nat × Nat
  deriving DecidableEq, Repr

/-- Where a reset or a loss of power cuts a manifest activation off (R561): nowhere, in VERIFY, while the PREP row is
programmed, after it, or while the COMMIT row is programmed. -/
inductive ActCut where
  | none
  | verify
  | prep
  | between
  | commit
  deriving DecidableEq, Repr

/-- A part whose errors RAS counts (R522, R525). -/
inductive EccPart where
  | trunkBank (bank : Fin 18)
  | walkEngine (g : Fin 4) (e : Fin 9)
  | boughRow (g : Fin 4) (row : Fin 16384)
  | cipherPipe (p : Fin 7)
  | keyBank (b : Fin 9) (pos : Fin 64)
  | canopySram
  | checkpointBuffer (k : Fin 3)
  | retentionSram
  | connCache (bucket : Fin 4194304) (slot : Fin 8)
  | other (cluster unit : BitVec 8)
  deriving DecidableEq, Repr

/-- One error a scrub pass meets (R523). -/
structure ScrubFind where
  part : EccPart
  uncorrectable : Bool
  deriving DecidableEq, Repr

/-- The three registers of the origin access matrix of one origin (R534). -/
inductive MatrixReg where
  | wr
  | rd
  | cmd
  deriving DecidableEq, Repr

/-- The variants of R1. -/
inductive Variant where
  | m
  | s
  | c
  deriving DecidableEq, Repr

/-- The commands, in the order of the opcode table, those without operands last. -/
inductive Instr where
  /-- REGISTER_WRITE (R504): A write to a register field that has no behaviour of its own is accepted in CFG and reaches its unit by handshake. -/
  | registerWrite (a : Acc) (addr : BitVec 32) (data : Option (BitVec 32))
  /-- HELD_ACCESS_RELEASE (R505): An access held because its unit's clock is stopped completes once the clock runs. -/
  | heldAccessRelease (cluster unit : BitVec 8)
  /-- BAR0_UNSUPPORTED_ACCESS (R45): A BAR0 access of a wrong size or alignment completes with Unsupported Request and has no other effect. -/
  | bar0UnsupportedAccess (h : Fin 2) (off : BitVec 26) (size : Nat)
  /-- TABLE_WORD_LOWER_WRITE (R17): A write to the lower half of a table word is held for the writing origin. -/
  | tableWordLowerWrite (a : Acc) (addr value : BitVec 32)
  /-- TABLE_WORD_UPPER_WRITE (R17): A write to the upper half writes the whole table word with the origin's held lower half, or with zero. -/
  | tableWordUpperWrite (a : Acc) (addr value : BitVec 32)
  /-- DOORBELL_WRITE (R52): A doorbell sets the ring's host index when it is within the ring's limits. -/
  | doorbellWrite (h : Fin 2) (r : Fin 128) (value : BitVec 32) (posted : List RxBuf)
  /-- RING_ENABLE (R56): ENABLE rising zeroes the ring's indices and sequence number, or is refused with CFG_ERR. -/
  | ringEnable (a : Acc) (h : Fin 2) (r : Fin 128)
  /-- RING_DISABLE (R56): ENABLE falling stops the ring after its current frame or command. -/
  | ringDisable (a : Acc) (h : Fin 2) (r : Fin 128)
  /-- RING_STOPPED (R56): A draining ring finishes its current work and ACTIVE falls. -/
  | ringStopped (h : Fin 2) (r : Fin 128)
  /-- TX_DESCRIPTOR_READ (R594): The device issues the read of the next outstanding TX descriptor at its ring's turn. -/
  | txDescriptorRead (src : TxSource) (desc : TxDesc) (err wbErr : Bool)
  /-- TX_FRAME_READ_DONE (R61): When a host frame has been read whole or rejected, its descriptors are written back and the device index advances. -/
  | txFrameReadDone (src : TxSource) (octets : List (BitVec 8)) (err wbErr : Bool)
  /-- RX_FRAME_WRITE (R63): Basjo writes a frame selected from a host queue into posted RX buffers and writes the descriptors back. -/
  | rxFrameWrite (h : Fin 2) (descErr dataErr wbErr : Bool)
  /-- EVENT_OVERFLOW (R77): When an entry of a full EVT ring or pop queue next frees, an EVENT_OVERFLOW record is written first. -/
  | eventOverflow (h : Fin 2) (q : EvtQueue)
  /-- VEC_COAL_TIMER_EXPIRY (R75): A vector's hold-off timer expires and its MSI-X message is sent. -/
  | vecCoalTimerExpiry (h : Fin 2) (v : Fin 64)
  /-- MSIX_UNMASK (R74): Unmasking a vector with its pending bit set sends the pending message. -/
  | msixUnmask (h : Fin 2) (v : Fin 64) (addr : BitVec 64) (data : BitVec 32) (enable fnMask : Bool)
  /-- EVT_POP (R78): A read of EVT_POP removes the head record of the pop queue into the latch. -/
  | evtPop (a : Acc) (h : Fin 2) (n : Fin 4)
  /-- HOST_LINK_UP (R73): A host port's PCIe link comes up and PCIE_LINK cause 0x001 is raised. -/
  | hostLinkUp (h : Fin 2) (gen : Fin 5) (width : Fin 5)
  /-- HOST_LINK_DOWN (R79): A host port's link loss stops its rings, drops its queued frames and is reported on the other port. -/
  | hostLinkDown (h : Fin 2)
  /-- FUNCTION_LEVEL_RESET (R79): A Function Level Reset stops the port's rings and returns its Basjo registers to reset values. -/
  | functionLevelReset (h : Fin 2)
  /-- AER_UNCORRECTABLE (R73): An uncorrectable error reported by AER raises PCIE_LINK cause 0x005. -/
  | aerUncorrectable (h : Fin 2) (evt : Option (Fin 128)) (aer : Bool)
  /-- PORT_ENABLE (R87): PORT_CTL.EN rises, or is refused with CFG_ERR, and the link enters DOWN. -/
  | portEnable (a : Acc) (n : Fin 36)
  /-- PORT_DISABLE (R89): PORT_CTL.EN falls; the transmitter drains its frame and reception is aborted. -/
  | portDisable (a : Acc) (n : Fin 36)
  /-- PORT_DRAIN_DONE (R89): The last frame of a disabled port is sent, DRAINING falls and the link enters DISABLED. -/
  | portDrainDone (n : Fin 36)
  /-- CNT_CLR (R106): CNT_CLR clears every counter of the port. -/
  | cntClr (a : Acc) (n : Fin 36)
  /-- LOCK_GAINED (R88): A port's lane gains lock and its UP debounce starts. -/
  | lockGained (n : Fin 36)
  /-- LOCK_LOST (R88): A port's lane loses lock, aborting any frame in reception. -/
  | lockLost (n : Fin 36)
  /-- LINK_UP_DEBOUNCE_EXPIRY (R88): Lock held for UP_DEB ms moves the link from DOWN to UP. -/
  | linkUpDebounceExpiry (n : Fin 36)
  /-- LINK_DOWN_DEBOUNCE_EXPIRY (R88): Lock absent for DOWN_DEB µs moves the link from UP to DOWN. -/
  | linkDownDebounceExpiry (n : Fin 36)
  /-- SERDES_FAULT (R86): A lane PLL unlock, signal loss or elastic buffer fault aborts reception and raises SERDES_FAULT. -/
  | serdesFault (n : Fin 36) (kind : SerdesKind)
  /-- FRAME_RX_START (R93): The start-of-frame delimiter of a received frame is stamped in raw time and cells begin to fill. -/
  | frameRxStart (n : Fin 36) (octets : List (BitVec 8)) (frac : BitVec 8) (ownTo : Bool)
  /-- PARSER_START (R33): The parser starts at 256 octets or frame end and stages 2 to 5 run: parse, walk, firewall, policing and lookup. -/
  | parserStart (p : Fin 40) (ue : List (BitVec 20)) (bad : List (Fin 131136)) (lost : List (Fin 8))
  /-- FRAME_RX_END (R32): A received frame ends and stage 6 validates it, applying or discarding its held state changes. -/
  | frameRxEnd (p : Fin 40) (fcsOk pcsErr : Bool)
  /-- CROWN_SELECT (R226): When a port can start a transmission, Crown selects an eligible queue's frame and applies the checks of R213. -/
  | crownSelect (p : Fin 38) (ue : Option (Fin 18))
  /-- TRANSMISSION_COMPLETE (R35): A frame's transmission ends, its descriptor is freed and REFCNT and in-flight counts fall. -/
  | transmissionComplete (p : Fin 36) (coll : Nat)
  /-- PREEMPT_VERIFY_TIMER (R97): The verify interval expires and another verify mPacket is sent, or verification fails after three. -/
  | preemptVerifyTimer (n : Fin 36)
  /-- PREEMPT_VERIFY_RESPONSE (R97): A verify response arrives and preemption becomes active. -/
  | preemptVerifyResponse (n : Fin 36)
  /-- PREEMPT_FRAGMENT_RX (R98): A preemptable fragment is received and reassembled, or a reassembly error discards the frame. -/
  | preemptFragmentRx (n : Fin 36) (frag : Fragment)
  /-- BEACON_RX (R101): A received PLCA BEACON sets BEACON_OK, or on a coordinator raises PLCA_FAULT. -/
  | beaconRx (n : Fin 36)
  /-- BEACON_TIMEOUT (R101): No BEACON for BEACON_TO makes a follower's BEACON_OK fall. -/
  | beaconTimeout (n : Fin 36)
  /-- C22_READ (R104): MDIO Clause 22 read command. -/
  | c22Read (d : CmdDesc) (phy : PhyReply)
  /-- C22_WRITE (R104): MDIO Clause 22 write command. -/
  | c22Write (d : CmdDesc)
  /-- C45_READ (R104): MDIO Clause 45 address and read command. -/
  | c45Read (d : CmdDesc) (phy : PhyReply)
  /-- C45_WRITE (R104): MDIO Clause 45 address and write command. -/
  | c45Write (d : CmdDesc)
  /-- MDIO_POLL (R105): Each POLL_PERIOD the master reads its enabled poll slots. -/
  | mdioPoll (m : Fin 4) (k : Fin 8) (phy : PhyReply)
  /-- LQ_SECOND_END (R108): A link-quality second ends and is classified; settled seconds are counted. -/
  | lqSecondEnd (n : Fin 36)
  /-- BOUGH_LOAD (R143): Command loading words from host memory into every Bough copy. -/
  | boughLoad (d : CmdDesc) (mem : HostData)
  /-- COMMIT (R144): Command checking a version extent and committing it to a free slot. -/
  | commit (d : CmdDesc)
  /-- VERSION_RETIRE (R141): A DRAINING slot whose in-flight count is zero becomes FREE. -/
  | versionRetire (v : Fin 4)
  /-- FDB_SEED_WRITE (R149): A write to FDB_SEED takes effect only while every replica is empty. -/
  | fdbSeedWrite (a : Acc) (value : BitVec 32)
  /-- LEARNING_MESSAGE_RX (R164): A Grove receives a LEARN message from the ring, applies it by precedence and passes it on. -/
  | learningMessageRx (g : Fin 4)
  /-- HOLD_MESSAGE_RX (R170): A Grove receives a HOLD message and sets the entry held on its port. -/
  | holdMessageRx (g : Fin 4)
  /-- STASH_RELOCATE (R159): At the next idle cycle a stash entry moves into a freed bucket slot. -/
  | stashRelocate (g : Fin 4)
  /-- AGEING_TICK (R173): At each ageing tick every replica scans and ages or removes entries. -/
  | ageingTick (bad : List (Fin 4 × Fin 131136))
  /-- DAMPENING_SWEEP (R171): The dampening sweep clears expired holds and ended move windows. -/
  | dampeningSweep (g : Fin 4)
  /-- HOLD_END_REACHED (R171): A hold's HOLD_END passes and the entry is treated as not held. -/
  | holdEndReached (g : Fin 4) (vid : BitVec 12) (mac : BitVec 48)
  /-- FDB_ADD (R178): Command writing an entry into every replica. -/
  | fdbAdd (d : CmdDesc)
  /-- FDB_DEL (R178): Command removing a key from every replica. -/
  | fdbDel (d : CmdDesc)
  /-- FDB_FLUSH (R178): Command removing matching entries from every replica. -/
  | fdbFlush (d : CmdDesc)
  /-- FDB_READ (R178): Command reading one entry of a replica. -/
  | fdbRead (d : CmdDesc)
  /-- FDB_DUMP (R178): Command writing a replica's entries to host memory. -/
  | fdbDump (d : CmdDesc) (err : Bool)
  /-- METER_SET (R224): Command writing a flow meter and filling its buckets. -/
  | meterSet (d : CmdDesc)
  /-- METER_READ (R224): Command reading a meter's counts or buckets in one Grove. -/
  | meterRead (d : CmdDesc)
  /-- RSV_WRITE (R187): A write of RSV is ignored with RSV_ERR if reservations would exceed 49,152. -/
  | rsvWrite (a : Acc) (p : Fin 40) (value : BitVec 32)
  /-- XMEM_ENABLE (R199): XMEM_CTL.EN rises and initialisation and training start, or is refused. -/
  | xmemEnable (a : Acc) (en : Bool)
  /-- XMEM_INIT_DONE (R199): External memory initialisation completes with READY, or fails and raises BUFFER_PRESSURE 0x007. -/
  | xmemInitDone (ok : Bool)
  /-- OVF_ENABLE (R201): OVF_CTL.EN rises if the region is valid, otherwise CFG_ERR is set. -/
  | ovfEnable (a : Acc) (en : Bool)
  /-- SPILL_COMPLETE (R205): A spill copy completes and the frame's on-chip cells and descriptor are freed. -/
  | spillComplete (q : Fin 352) (ue : Option (Fin 18))
  /-- FILL_READ_ISSUE (R207): The fill engine issues a read for a queue's next spilled frame. -/
  | fillReadIssue (q : Fin 352)
  /-- FILL_READ_COMPLETE (R207): A fill read completes and the frame returns on chip or to the resequencer. -/
  | fillReadComplete (q : Fin 352) (seq : BitVec 16) (ue : Bool)
  /-- RESEQ_TIMEOUT (R211): The resequence timer reaches RESEQ_TO and NEXT_SEQ skips to the lowest on-chip number. -/
  | reseqTimeout (q : Fin 352)
  /-- GATE_ENTRY_BOUNDARY (R233): A gate control list entry's interval ends and the next entry's gate states apply. -/
  | gateEntryBoundary (n : Fin 36)
  /-- GATE_COMMIT (R238): Setting GATE_CTL.COMMIT accepts or refuses the administrative list and sets the change time. -/
  | gateCommit (a : Acc) (n : Fin 36)
  /-- GATE_CANCEL (R242): CANCEL clears a pending commit. -/
  | gateCancel (a : Acc) (n : Fin 36)
  /-- GATE_LIST_SWAP (R242): At the change time the banks exchange roles and GATE_LIST_SWAP is raised. -/
  | gateListSwap (n : Fin 36)
  /-- GATE_DISABLE (R242): A fall of GATE_CTL.EN stops the list and opens every gate. -/
  | gateDisable (a : Acc) (n : Fin 36)
  /-- LAUNCH_TIME_REACHED (R244): A launch-time frame's start instant arrives and its queue becomes eligible. -/
  | launchTimeReached (n : Fin 36) (t : Fin 8)
  /-- SHAPER_PARAM_WRITE (R232): A write of CIR, CBS, PIR, PBS or SHAPER_MODE resets the queue's buckets. -/
  | shaperParamWrite (a : Acc) (p : Fin 38) (t : Fin 32) (reg : ShaperReg) (value : BitVec 32)
  /-- QUEUE_SAMPLE_TICK (R247): At each SAMPLE_PERIOD every queue of the port is sampled; window ends update statistics. -/
  | queueSampleTick (p : Fin 38)
  /-- SAMPLE_ENABLE (R247): A rise of SAMPLE_CTL.EN clears the history and starts a window. -/
  | sampleEnable (a : Acc) (p : Fin 38)
  /-- QSAMPLE_READ (R248): Command writing a queue's stored samples to host memory. -/
  | qsampleRead (d : CmdDesc) (err : Bool)
  /-- DOM_ENABLE (R262): DOM_CTL.EN rising or falling moves the domain to UNLOCKED or DISABLED. -/
  | domEnable (a : Acc) (d : Fin 2) (en : Bool)
  /-- DOM_COMMIT (R260): DOM_CTL.COMMIT copies the shadow triple into the operational triple, or is refused. -/
  | domCommit (a : Acc) (d : Fin 2)
  /-- DOM_LOCK (R262): A LOCK write moves the domain to LOCKED. -/
  | domLock (a : Acc) (d : Fin 2) (unlock : Bool)
  /-- DOM_UNLOCK (R262): An UNLOCK write moves the domain to UNLOCKED. -/
  | domUnlock (a : Acc) (d : Fin 2)
  /-- SYNC_TIMER_EXPIRY (R263): The sync receipt timer expires and a LOCKED domain enters HOLDOVER, possibly with a hardware switch. -/
  | syncTimerExpiry (d : Fin 2)
  /-- WT_SWITCH (R265): A SWITCH write selects the other domain with an offset, or is refused. -/
  | wtSwitch (a : Acc)
  /-- SNAP (R283): A SNAP write captures raw, working and domain times and increments SNAP_SEQ. -/
  | snap (a : Acc)
  /-- TXTS_RD_WRITE (R275): A write of TXTS_RD consumes timestamp entries, ignored if it passes TXTS_WR. -/
  | txtsRdWrite (a : Acc) (value : BitVec 32)
  /-- CAP_IN_EDGE (R276): A selected edge on a capture input is stamped and counted, or counted as missed. -/
  | capInEdge (k : Fin 4) (rising : Bool)
  /-- PPS_ENABLE (R278): PPS_CTL.EN rises and the output's first edge is scheduled, or is refused. -/
  | ppsEnable (a : Acc) (k : Fin 4) (en : Bool)
  /-- PPS_EDGE (R278): A pulse output's working-time edge instant arrives and the pin changes. -/
  | ppsEdge (k : Fin 4)
  /-- CT_ENABLE (R305): CT_CTL.EN rises and Bark initialises the table buckets, or the change is refused. -/
  | ctEnable (a : Acc) (en : Bool)
  /-- CT_SEED_WRITE (R296): A CT_SEED write takes effect only while CT_USED is 0. -/
  | ctSeedWrite (a : Acc) (value : BitVec 32)
  /-- BUCKET_READ_COMPLETE (R306): A cache-miss bucket read returns and the frame's connection lookup completes. -/
  | bucketReadComplete (p : Fin 40) (ue : List (Fin 8)) (bad : List (Fin 131136))
  /-- RL_WRITE (R290): A write of a rate limiter sets its bucket to BURST. -/
  | rlWrite (a : Acc) (n : Fin 4096) (value : BitVec 32)
  /-- CONN_FLUSH (R314): Command removing connection entries by generation, pair or rule. -/
  | connFlush (d : CmdDesc)
  /-- CONN_DUMP (R314): Command writing valid connection entries to host memory. -/
  | connDump (d : CmdDesc) (err : Bool)
  /-- CAN_ENABLE (R318): CAN_CTL.EN rises if bit timing is valid, otherwise CFG_ERR is set; its fall drops the queue. -/
  | canEnable (a : Acc) (n : Fin 24) (en : Bool)
  /-- CAN_FRAME_RX (R321): A CAN frame becomes valid at end-of-frame and passes the gateway checks of R329. -/
  | canFrameRx (n : Fin 24) (frame : CanFrame) (sinceSof : BitVec 32)
  /-- CAN_FRAME_TX_DONE (R322): A CAN channel completes transmission of its queued frame. -/
  | canFrameTxDone (n : Fin 24) (loopDelay : BitVec 7)
  /-- CAN_BUS_ERROR (R320): A bus error changes TEC or REC and may change the error state. -/
  | canBusError (n : Fin 24) (err : CanError)
  /-- BO_RECOVER (R320): A BO_RECOVER write starts bus-off recovery. -/
  | boRecover (a : Acc) (n : Fin 24)
  /-- BUS_OFF_RECOVERED (R320): After 128 occurrences of 11 recessive bits the channel leaves bus-off. -/
  | busOffRecovered (n : Fin 24)
  /-- LIN_ENABLE (R350): LIN_CTL.EN rises if BAUD and schedule tables are valid, otherwise CFG_ERR is set. -/
  | linEnable (a : Acc) (l : Fin 16) (en : Bool)
  /-- LIN_SCHED_RUN (R327): SCHED_CTL.RUN rising starts the commander at entry 0 of the selected table. -/
  | linSchedRun (a : Acc) (l : Fin 16) (run : Bool)
  /-- LIN_SLOT_START (R327): A schedule slot starts and the commander sends its header or skips it. -/
  | linSlotStart (l : Fin 16)
  /-- LIN_SCHED_SWITCH (R327): A SWITCH write selects the other table at the next slot. -/
  | linSchedSwitch (a : Acc) (l : Fin 16)
  /-- LIN_HEADER_RX (R326): A responder receives a header and answers from its frame buffer or listens. -/
  | linHeaderRx (l : Fin 16) (id : BitVec 6) (err : Option LinErr)
  /-- LIN_RESPONSE_RX (R326): A valid LIN response is written to its buffer and routed. -/
  | linResponseRx (l : Fin 16) (id : BitVec 6) (data : List (BitVec 8)) (cksum : BitVec 8) (err : Option LinErr) (sinceBreak : BitVec 32)
  /-- LIN_RESPONSE_TIMEOUT (R327): A subscribe slot with no complete response in time records a no-response error. -/
  | linResponseTimeout (l : Fin 16)
  /-- ROUTE_ADD (R334): Command adding or rewriting a routing entry. -/
  | routeAdd (d : CmdDesc)
  /-- ROUTE_DEL (R334): Command deleting a routing entry. -/
  | routeDel (d : CmdDesc)
  /-- ROUTE_READ (R334): Command reading a routing entry. -/
  | routeRead (d : CmdDesc)
  /-- ROUTE_FLUSH (R334): Command removing routing entries. -/
  | routeFlush (d : CmdDesc)
  /-- ENC_BATCH_HOLD_EXPIRY (R338): A stream's hold timer reaches HOLD_US and its batch closes and is offered to P39. -/
  | encBatchHoldExpiry (st : Fin 256)
  /-- ENC_DISABLE (R338): A fall of ENC_CTL.EN closes the open batch; a rise restarts sequence_num. -/
  | encDisable (a : Acc) (st : Fin 256) (en : Bool)
  /-- DECAP_FRAME (R340): A frame queued to P39 is decapsulated into CAN and LIN messages that pass R329. -/
  | decapFrame (ue : Option (Fin 18))
  /-- AUTH_SET (R347): Command writing an authenticated-CAN entry. -/
  | authSet (d : CmdDesc)
  /-- AUTH_READ (R347): Command reading an entry's freshness value and failure count. -/
  | authRead (d : CmdDesc)
  /-- AUTH_CLEAR (R347): Command clearing an authenticated-CAN entry. -/
  | authClear (d : CmdDesc)
  /-- SC_SET (R366): Command writing a MACsec secure channel. -/
  | scSet (d : CmdDesc)
  /-- SC_CLEAR (R366): Command clearing a secure channel and its SAs. -/
  | scClear (d : CmdDesc)
  /-- SA_INSTALL (R366): Command installing and mapping a secure association. -/
  | saInstall (d : CmdDesc)
  /-- SA_SELECT (R366): Command selecting the encoding SA of a transmit SC. -/
  | saSelect (d : CmdDesc)
  /-- SA_CLEAR (R366): Command unmapping and clearing an SA once its frames leave the pipes. -/
  | saClear (d : CmdDesc)
  /-- SA_READ (R366): Command reading an SA's frame count and PN. -/
  | saRead (d : CmdDesc)
  /-- GCM_ENCRYPT (R367): Host job encrypting with GCM under a generated nonce. -/
  | gcmEncrypt (d : CmdDesc) (mem : HostData) (e : JobEnd)
  /-- GCM_DECRYPT (R370): Host job decrypting with GCM and releasing plaintext only after the tag verifies. -/
  | gcmDecrypt (d : CmdDesc) (mem : HostData) (e : JobEnd)
  /-- CTR_ENCRYPT (R367): Host job encrypting in CTR mode under a generated nonce. -/
  | ctrEncrypt (d : CmdDesc) (mem : HostData) (e : JobEnd)
  /-- CTR_DECRYPT (R371): Host job decrypting in CTR mode. -/
  | ctrDecrypt (d : CmdDesc) (mem : HostData) (e : JobEnd)
  /-- CMAC_GENERATE (R367): Host job computing a CMAC tag. -/
  | cmacGenerate (d : CmdDesc) (mem : HostData) (e : JobEnd)
  /-- CMAC_VERIFY (R370): Host job verifying a CMAC tag. -/
  | cmacVerify (d : CmdDesc) (mem : HostData) (e : JobEnd)
  /-- KEY_LOAD (R389): Command loading a key into a slot. -/
  | keyLoad (d : CmdDesc)
  /-- KEY_DERIVE (R387): Command deriving a key from a root or DERIVE_ONLY slot. -/
  | keyDerive (d : CmdDesc)
  /-- KEY_UNWRAP (R388): Command unwrapping a key under a WRAP_ONLY slot. -/
  | keyUnwrap (d : CmdDesc) (mem : HostData)
  /-- KEY_ERASE (R390): Command erasing a slot. -/
  | keyErase (d : CmdDesc)
  /-- KEY_INVALIDATE (R390): Command incrementing a slot's GEN to orphan its descendants. -/
  | keyInvalidate (d : CmdDesc)
  /-- KEY_RETIRE (R380): Command retiring a slot permanently. -/
  | keyRetire (d : CmdDesc)
  /-- KEY_INFO (R390): Command returning a slot's public fields. -/
  | keyInfo (d : CmdDesc)
  /-- KEY_OLD_USES_ENDED (R381): Once earlier uses of a changed slot end, old key material is overwritten and the command completes. -/
  | keyOldUsesEnded (slot : Fin 576)
  /-- LC_ADVANCE (R386): Command writing the fuse of the next life-cycle state and erasing the live root. -/
  | lcAdvance (d : CmdDesc) (target : Fin 5)
  /-- RNG_READ (R392): Command writing random octets to host memory. -/
  | rngRead (d : CmdDesc) (err : Bool)
  /-- ID_PUBKEY (R394): Command writing the device identity public keys. -/
  | idPubkey (d : CmdDesc) (err : Bool)
  /-- ATTEST (R394): Command writing a signed attestation structure. -/
  | attest (d : CmdDesc) (err : Bool)
  /-- SIG_VERIFY (R394): Command verifying a dual-signed message. -/
  | sigVerify (d : CmdDesc) (mem : HostData)
  /-- TAMPER_LINE (R396): The tamper line asserts: keys are zeroised, uses aborted, the fuse blown and SAFE entered. -/
  | tamperLine (src : Fin 5)
  /-- GET_STATUS (R408): Mailbox request returning Heartwood status. -/
  | getStatus (m : MbCall)
  /-- READ_BATCH (R408): Mailbox request returning part of a batch. -/
  | readBatch (m : MbCall)
  /-- ACK_BATCH (R408): Mailbox request acknowledging stored batches. -/
  | ackBatch (m : MbCall)
  /-- GET_PUBKEY (R408): Mailbox request returning Heartwood's public keys. -/
  | getPubkey (m : MbCall)
  /-- TIME_MSG (R418): Mailbox request offering working time for the next time wire edge. -/
  | timeMsg (m : MbCall) (hwTime : BitVec 64)
  /-- READ_EVLOG (R425): Mailbox request returning an event log entry. -/
  | readEvlog (m : MbCall)
  /-- STAGE_WRITE (R408): Mailbox request writing the staging buffer. -/
  | stageWrite (m : MbCall)
  /-- CALIBRATE (R409): Mailbox request verifying and applying a calibration message. -/
  | calibrate (m : MbCall)
  /-- IMAGE_WRITE (R408): Mailbox request copying staged octets into the inactive firmware slot. -/
  | imageWrite (m : MbCall)
  /-- IMAGE_CHECK (R424): Mailbox request verifying the inactive Heartwood image. -/
  | imageCheck (m : MbCall)
  /-- HW_ATTEST (R408): Mailbox ATTEST request returning a structure signed by Heartwood. -/
  | hwAttest (m : MbCall)
  /-- GET_LINK (R441): Mailbox request returning sensor link statistics. -/
  | getLink (m : MbCall)
  /-- HW_PREPARE (R562): Mailbox request recording a pending activation under a manifest digest. -/
  | hwPrepare (m : MbCall)
  /-- HW_COMMIT (R562): Mailbox request activating the pending Heartwood image and restarting its cores. -/
  | hwCommit (m : MbCall)
  /-- PULSE_ACCEPTED (R411): A pulse with valid phases is counted, or a short phase is counted as a glitch. -/
  | pulseAccepted (pinB : Bool) (shortPhase : Bool) (hwTime : BitVec 64)
  /-- VDD_HW_RISE (R417): VDD_HW rises and Heartwood writes a START record. -/
  | vddHwRise (vaonLost : Bool) (hwTime : BitVec 64)
  /-- HW_TIME_EDGE (R418): A time wire edge reaches Heartwood and working time becomes, stays or ceases to be valid. -/
  | hwTimeEdge (hwTime : BitVec 64)
  /-- HSL_FRAME (R436): A sensor link frame period ends and alignment, justification and words are processed. -/
  | hslFrame (link : Fin 2) (bits : BitVec 512) (hwTime : BitVec 64)
  /-- SAPWOOD_TRANSFER (R447): A main-side transfer crosses Sapwood, or is backed off when crossed. -/
  | sapwoodTransfer (a : Acc) (addr : BitVec 32) (data : Option (BitVec 32)) (size : Nat) (atomic crossed : Bool)
  /-- RETRY (R450): SAP_CTL.RETRY clears LINK_DOWN once its conditions hold. -/
  | retry (a : Acc)
  /-- SEM_READ (R451): A read of a semaphore takes it if free and reports its owner. -/
  | semRead (a : Acc) (n : Fin 16)
  /-- SEM_WRITE (R451): A write of 0 by the owner frees a semaphore; other writes are denied. -/
  | semWrite (a : Acc) (n : Fin 16) (value : BitVec 32)
  /-- IRQ_H2M_EDGE (R453): A rising edge of a Heartwood interrupt wire sets SAP_IRQ_IN and interrupts Canopy. -/
  | irqH2mEdge (n : Fin 8)
  /-- HW_RST_CHANGE (R450): HW_RST going high declares LINK_DOWN. -/
  | hwRstChange (high : Bool)
  /-- CHECKPOINT (R461): A CHECKPOINT write saves and compares the pair's state and runs the comparator self-test. -/
  | checkpoint (a : Acc) (k : Fin 3) (outcome : CkptOutcome)
  /-- LOCKSTEP_MISMATCH (R464): A comparator mismatch resets the pair and restores it from its checkpoint or reset entry. -/
  | lockstepMismatch (k : Fin 3) (addr : BitVec 32) (latent : Bool)
  /-- PAIR_RESUMED (R464): The recovering pair resumes execution. -/
  | pairResumed (k : Fin 3)
  /-- WDT_KICK (R470): A write to WDT_KICK by the watched origin restarts its watchdog. -/
  | wdtKick (a : Acc) (w : Fin 7)
  /-- WATCHDOG_EXPIRY (R470): A watchdog expires and resets its pair or core to the reset entry. -/
  | watchdogExpiry (w : Fin 7)
  /-- CKPT_OVERDUE (R463): CKPT_AGE reaching CKPT_MAX raises LOCKSTEP_MISMATCH cause 0x006. -/
  | ckptOverdue (k : Fin 3)
  /-- SPQ_DELIVER (R473): A slow-path queue delivers a frame into its SRAM ring and interrupts its target. -/
  | spqDeliver (c : Fin 16) (bufs : List RxBuf) (fail : Bool) (ue : Option (Fin 18))
  /-- SPQ_HOST_IDX_WRITE (R473): A write of SPQ_HOST_IDX posts buffers to a slow-path ring. -/
  | spqHostIdxWrite (a : Acc) (c : Fin 16) (value : BitVec 32)
  /-- SPT_HOST_IDX_WRITE (R474): A write of SPT_HOST_IDX makes Canopy TX descriptors outstanding for P38. -/
  | sptHostIdxWrite (a : Acc) (r : Fin 4) (value : BitVec 32)
  /-- MODE_SET (R478): Command changing the operating mode. -/
  | modeSet (d : CmdDesc)
  /-- GROVE_COPY_DONE (R481): A powered-up Grove finishes copying Grove 0's tables. -/
  | groveCopyDone (g : Fin 4)
  /-- WAKE_PIN_REQUEST (R483): A wake pin active for FILT edges has its request taken. -/
  | wakePinRequest (k : Fin 8) (high : Bool) (edges : Nat)
  /-- T1S_CARRIER_WAKE (R482): Carrier on a T1S segment for 2 µs is taken as a wake request. -/
  | t1sCarrierWake (n : Fin 8)
  /-- BALLOT_VOTE_CHANGE (R491): A vote changes; all READY starts COUNTING, an AWAKE vote aborts it or is latched. -/
  | ballotVoteChange (a : Acc) (k : Fin 64) (ready : Bool)
  /-- NM_TIMER_EXPIRY (R490): A network-management source's timer expires and its vote turns READY. -/
  | nmTimerExpiry (k : Fin 64)
  /-- SLEEP_ACK (R494): SLEEP_ACK starts sleep entry: save, hold transceivers, drop PWR_REQ. -/
  | sleepAck (a : Acc)
  /-- PWR_GOOD_RISE (R488): PWR_GOOD rises and the wake sequence restores PLLs, memory, configuration and mode. -/
  | pwrGoodRise (restore : RestoreCheck) (boot : BootResult)
  /-- SAVE_ENABLE (R487): SAVE_CTL.EN rises if the save region is valid, otherwise CFG_ERR is set. -/
  | saveEnable (a : Acc) (en : Bool)
  /-- T_VALID_EXPIRY (R497): A wake's validation window ends; an unvalidated wake counts as false. -/
  | tValidExpiry (k : Fin 16)
  /-- FW_MASKED_CLEAR (R498): A W1C write clears FW_MASKED bits. -/
  | fwMaskedClear (a : Acc) (value : BitVec 32)
  /-- FW_CLR (R501): FW_CLR clears every FALSE_CNT. -/
  | fwClr (a : Acc)
  /-- CLK_HOLD (R508): A CLK_HOLD write holds or releases the selected unit's clock for the origin. -/
  | clkHold (a : Acc) (hold : Bool)
  /-- CLK_IDLE_EXPIRY (R503): A unit idle for CLK_IDLE stops its clock branch. -/
  | clkIdleExpiry (cluster unit : BitVec 8)
  /-- PORST_N (R513): PORST_N rises and the device runs its cold reset and full boot. -/
  | porstN (splitStrap : Bool) (boot : BootResult)
  /-- WARM_N (R513): WARM_N rises and the device runs its warm reset and short boot. -/
  | warmN (boot : BootResult)
  /-- BROWNOUT (R572): A long core supply excursion holds the main die in reset as PORST_N. -/
  | brownout (boot : BootResult)
  /-- SOFT_RESET (R515): Command resetting a cluster or unit and discarding its frames. -/
  | softReset (d : CmdDesc)
  /-- SAFE_REQ (R517): A SAFE_REQ write enters SAFE with cause 0x006. -/
  | safeReq (a : Acc)
  /-- TEMP_SHUTDOWN (R517): TEMP_NOW at or above TEMP_SHUT for 100 µs enters SAFE. -/
  | tempShutdown (temp : BitVec 16)
  /-- UNCORRECTABLE_CONTROL_ERROR (R522): An uncorrectable error in control state enters SAFE. -/
  | uncorrectableControlError (cluster unit : BitVec 8)
  /-- SCRUB_PASS (R523): RAS scrubs every SECDED memory once per SCRUB_PERIOD. -/
  | scrubPass (found : List ScrubFind)
  /-- CORRECTED_ERROR (R524): A corrected error counts against its unit and may warn or retire it. -/
  | correctedError (part : EccPart)
  /-- ROLE_SET (R527): ROLE_SET writes the redundancy role. -/
  | roleSet (a : Acc) (active : Bool)
  /-- HEARTBEAT_FRAME_RX (R528): A partner heartbeat frame is taken by RAS, possibly returning an ACTIVE device to STANDBY. -/
  | heartbeatFrameRx (octets : List (BitVec 8))
  /-- HB_PATH_SILENT (R529): A heartbeat path silent for 2 ms raises SAFE_STATE cause 0x020. -/
  | hbPathSilent (framePath : Bool)
  /-- PROOF_TEST (R532): Command testing a STANDBY device's ports in loopback. -/
  | proofTest (d : CmdDesc) (x : ProofStep)
  /-- MATRIX_WRITE (R535): A write of the origin access matrix applies or is denied. -/
  | matrixWrite (a : Acc) (which : MatrixReg) (o : Fin 16) (value : BitVec 32)
  /-- AUDIT_DUMP (R540): Command writing change-log entries to host memory. -/
  | auditDump (d : CmdDesc) (err : Bool)
  /-- AUDIT_SEAL (R540): Command writing a signed seal of the change log. -/
  | auditSeal (d : CmdDesc) (err : Bool)
  /-- AUDIT_VERIFY (R540): Command verifying a chain of change-log entries. -/
  | auditVerify (d : CmdDesc) (mem : HostData)
  /-- IMG_WRITE (R554): Command programming blocks into an inactive image slot. -/
  | imgWrite (d : CmdDesc) (mem : HostData)
  /-- IMG_VERIFY (R554): Command checking the inactive slot under R547. -/
  | imgVerify (d : CmdDesc)
  /-- IMG_ACTIVATE (R556): Command activating a one-by-one image after the interface check. -/
  | imgActivate (d : CmdDesc)
  /-- MANIFEST_ACTIVATE (R560): Command verifying a manifest and programming its journal PREP and COMMIT rows. -/
  | manifestActivate (d : CmdDesc) (cut : ActCut) (rowFails : Nat)
  /-- UPD_HW_DONE (R563): A write of UPD_HW_DONE clears HW_PENDING and sets PHASE to IDLE. -/
  | updHwDone (a : Acc)
  /-- REFERENCE_CLOCK_STOP (R572): A main reference clock that stops or runs slow holds the main die in reset as PORST_N with VAON held, until the crystal has run for 100 µs. -/
  | referenceClockStop (boot : BootResult)
  /-- FRAME_ENQUEUE (R192): After stages 5 and 6 the Trunk offers one descriptor per target queue and admits or drops each. -/
  | frameEnqueue
  /-- COMMIT_TIMEOUT (R144): A COMMIT waiting for a free slot reaches TIMEOUT and completes with TIMEOUT. -/
  | commitTimeout
  /-- COMMIT_TOKEN (R140): In cycle T every Grove makes the new slot CURRENT and the old one DRAINING. -/
  | commitToken
  /-- XMEM_PERIODIC_TRAINING (R199): The interface repeats its periodic training and counts it. -/
  | xmemPeriodicTraining
  /-- AVG_UPDATE (R196): Every 1 µs each queue's average depth is updated. -/
  | avgUpdate
  /-- STALE_SCAN (R214): Every 1 µs the head frame of each ready queue is checked and dropped if stale. -/
  | staleScan
  /-- BANK_RETIRE_COPY_DONE (R184): A retiring bank's copy to a spare ends and the spare takes its place. -/
  | bankRetireCopyDone
  /-- TIME_PLL_LOCK_LOSS (R254): The TIME PLL loses lock and Cambium enters coarse mode. -/
  | timePllLockLoss
  /-- TIME_PLL_RELOCK (R254): The TIME PLL relocks and 400 MHz counting resumes at the next coarse edge. -/
  | timePllRelock
  /-- RAW_RESEED (R255): After the TIME domain was off, the counter loads its continuation from the anchor. -/
  | rawReseed
  /-- SLEW_COMPLETE (R267): OFF reaches zero by slewing and TIME_SWITCHOVER cause 0x003 is raised. -/
  | slewComplete
  /-- BOTH_LOST_RISE (R271): Both domains out of LOCKED for HOLDOVER_MAX sets BOTH_LOST. -/
  | bothLostRise
  /-- TIME_WIRE_EDGE (R279): At working-time second boundaries and half seconds the Sapwood time wire changes level. -/
  | timeWireEdge
  /-- CT_INIT_DONE (R305): Table initialisation ends and Bark leaves cache-only mode. -/
  | ctInitDone
  /-- CONN_SWEEP (R303): The sweeper visits buckets and removes expired entries. -/
  | connSweep
  /-- ANOMALY_WINDOW_START (R312): Each ANOM_WINDOW start clears the per-zone deny and insertion counts. -/
  | anomalyWindowStart
  /-- ORPHAN_SWEEP (R382): The background sweep reclaims slots failing the chain test. -/
  | orphanSweep
  /-- RNG_HEALTH_FAILURE (R392): An entropy health test fails, setting RNG_STATUS.FAIL and raising KEY_OP_DONE 0x020. -/
  | rngHealthFailure
  /-- HW_SECOND_END (R419): At each Heartwood second Heartwood writes the INTERVAL and EVENT records and closes batches. -/
  | hwSecondEnd
  /-- BATCH_SIGNED (R422): A closed batch's trailer is signed and RECORD_BATCH raised. -/
  | batchSigned
  /-- MAIN_TAMPER (R426): The main-die tamper wire is seen and Heartwood records it. -/
  | mainTamper
  /-- HW_TAMPERED (R426): Heartwood's own detectors zeroise its keys and blow its tamper fuse. -/
  | hwTampered
  /-- HW_LOCKSTEP_MISMATCH (R404): A Heartwood core mismatch resets the pair, which restarts from its MRAM checkpoint. -/
  | hwLockstepMismatch
  /-- SOURCE_START_TIMEOUT (R445): Link 0 not in frame within 2 s makes the pulse source or link 1 authoritative. -/
  | sourceStartTimeout
  /-- SAPWOOD_TRANSFER_DONE (R447): Heartwood's response completes a main-side transfer. -/
  | sapwoodTransferDone
  /-- SAP_TIMEOUT (R447): A transfer without response for SAP_TO completes with a bus error; three make LINK_DOWN. -/
  | sapTimeout
  /-- HEARTBEAT_TIMEOUT (R453): No heartbeat toggle for 5 ms raises SAPWOOD_FAULT cause 0x004. -/
  | heartbeatTimeout
  /-- HEARTBEAT_RESUME (R453): The next heartbeat toggle raises SAPWOOD_FAULT cause 0x005. -/
  | heartbeatResume
  /-- NOTICE_GO (R454): Heartwood's write of NOTICE_GO raises the notice's event record. -/
  | noticeGo
  /-- PULSE_FIRST_EDGE_WAKE (R482): The first rising edge on PULSE_A is taken as a wake request. -/
  | pulseFirstEdgeWake
  /-- TIMER_WAKE_EXPIRY (R482): TIMER_WAKE periods after the commit point expire and wake the device. -/
  | timerWakeExpiry
  /-- BALLOT_DELAY_EXPIRY (R491): All votes READY for BALLOT_DELAY with Bark CLEAN reaches the commit point. -/
  | ballotDelayExpiry
  /-- SLEEP_ACK_TIMEOUT (R495): No SLEEP_ACK within 250 ms takes the fail-safe path. -/
  | sleepAckTimeout
  /-- SAVE_DONE (R494): The save engine finishes and PWR_REQ is driven low. -/
  | saveDone
  /-- PWR_OFF_MIN_EXPIRY (R494): PWR_OFF_MIN ends and a latched wake raises PWR_REQ. -/
  | pwrOffMinExpiry
  /-- KEEPER_THRESHOLD (R496): A single AWAKE source held for KEEPER_TH raises WAKE_SLEEP cause 0x006. -/
  | keeperThreshold
  /-- RAS_WINDOW_END (R524): A RAS window ends and corrected-error counts restart. -/
  | rasWindowEnd
  /-- HEARTBEAT_SEND (R528): Every 1 ms the device sends its heartbeat frame. -/
  | heartbeatSend
  /-- HB_IN_EDGE (R529): An edge on HB_IN restores the pin path. -/
  | hbInEdge
  /-- PARTNER_FAILED (R530): Both paths silent for T_HB: a STANDBY device takes over as ACTIVE. -/
  | partnerFailed
  /-- VAON_LOSS (R257): Loss of VAON loses Taproot's anchor and always-on state and puts the device in OFF, so raw time restarts from zero at the next start. -/
  | vaonLoss
  /-- COARSE_EDGE (R255): At each rising edge of the 32.768 kHz clock Cambium hands Taproot the raw value as the new anchor, and in coarse mode advances raw time by one coarse period. -/
  | coarseEdge
  /-- VDD_HW_LOSS (R417): VDD_HW falls and Heartwood stops its cores and records while its VAON_HW counter continues HW_TIME and counts PULSE_A pulses. -/
  | vddHwLoss
  /-- BARK_CLEAN (R492): Bark finishes writing back every dirty connection-cache entry during COUNTING and reports CLEAN, which the ballot needs to reach the commit point. -/
  | barkClean
  deriving DecidableEq, Repr

end Sys2Proof
end

