-- ==== Sys2Proof/WellFormed.lean ====
section
/-! DEFINITION. What a command's operands must meet to spell something that can happen to the device, each reason by
name. The meanings are total and do not rest on it: it says which terms of the syntax stand for a real event. -/
namespace Sys2Proof

/-- Why a term stands for no event. -/
inductive IllFormed where
  /-- A configuration address is not a multiple of 4 (R12, R45). -/
  | unalignedRegister
  /-- The lower half of a table word has an address that is a multiple of 8, the upper half one past it by 4 (R17). -/
  | wrongHalf
  /-- A BAR0 access of 4 or 8 octets at its own alignment is supported (R45). -/
  | supportedAccess
  /-- A frame or a fragment has no octet. -/
  | emptyFrame
  /-- A CAN identifier, a remote frame or a data length that its frame format does not have (R317). -/
  | badCan
  /-- A LIN response longer than 8 octets (R327). -/
  | longLin
  /-- A Sapwood transfer is of 1, 2, 4 or 8 octets (R447). -/
  | badSize
  /-- A mailbox request of no word, or of more than MB_REQ holds (R406). -/
  | badRequest
  /-- An error in a part of no cluster of R24. -/
  | unknownPart
  deriving DecidableEq, Repr

/-- The data lengths of a CAN frame of a format (ISO 11898-1): classical to 8, FD to 64 in steps, XL 1 to 2,048. -/
def CanFmt.dataOk : CanFmt → Nat → Bool
  | .classical, n => n ≤ 8
  | .fd, n => n ≤ 8 || [12, 16, 20, 24, 32, 48, 64].contains n
  | .xl, n => 1 ≤ n && n ≤ 2048

/-- Whether a CAN frame is one its format can carry. -/
def CanFrame.ok (f : CanFrame) : Bool :=
  (f.ide || f.id.toNat < 2048) && f.fmt.dataOk f.data.length &&
    (f.fmt ≠ .xl || !f.ide) && (!f.rtr || (f.fmt = .classical && f.data.isEmpty))

/-- The clusters of R24, as a scrub or an error names them. -/
def EccPart.ok : EccPart → Bool
  | .other c _ => [0, 1, 2, 0x10, 0x11, 0x12, 0x13, 0x20, 0x21, 0x22, 0x30, 0x31, 0x40, 0x50, 0x51, 0x60, 0x61, 0x70, 0x71, 0x72].contains c.toNat
  | _ => true

/-- Refuse with a reason unless a test holds. -/
def refuseUnless (ok : Bool) (why : IllFormed) : Option IllFormed := if ok then none else some why

/-- The reason a term stands for no event, or none. -/
def Instr.illFormed : Instr → Option IllFormed
  | .registerWrite _ addr _ => refuseUnless (addr.toNat % 4 = 0) .unalignedRegister
  | .tableWordLowerWrite _ addr _ => refuseUnless (addr.toNat % 8 = 0) .wrongHalf
  | .tableWordUpperWrite _ addr _ => refuseUnless (addr.toNat % 8 = 4) .wrongHalf
  | .bar0UnsupportedAccess _ off size => refuseUnless (!((size = 4 || size = 8) && off.toNat % size = 0)) .supportedAccess
  | .frameRxStart _ octets _ _ => refuseUnless (!octets.isEmpty) .emptyFrame
  | .preemptFragmentRx _ frag => refuseUnless (!frag.octets.isEmpty) .emptyFrame
  | .heartbeatFrameRx octets => refuseUnless (!octets.isEmpty) .emptyFrame
  | .canFrameRx _ frame _ => refuseUnless frame.ok .badCan
  | .linResponseRx _ _ data _ _ _ => refuseUnless (data.length ≤ 8) .longLin
  | .sapwoodTransfer _ _ _ size _ _ => refuseUnless ([1, 2, 4, 8].contains size) .badSize
  | .getStatus m | .readBatch m | .ackBatch m | .getPubkey m | .timeMsg m _ | .readEvlog m | .stageWrite m | .calibrate m
  | .imageWrite m | .imageCheck m | .hwAttest m | .getLink m | .hwPrepare m | .hwCommit m =>
    match m with
    | .issue _ req => refuseUnless (1 ≤ req.length && req.length ≤ 64) .badRequest
    | .serve => none
  | .correctedError part => refuseUnless part.ok .unknownPart
  | .scrubPass found => refuseUnless (found.all (fun f => f.part.ok)) .unknownPart
  | _ => none

/-- Whether a term stands for an event. -/
def Instr.wellFormed (i : Instr) : Bool := i.illFormed = none

end Sys2Proof
end

