-- ==== Sys2Proof/Decode.lean ====
section
/-! DEFINITION. The decoder of the table's words. The table gives no row any bits: a command of this block is an access
or an event, not a word, so no word spells one. -/
namespace Sys2Proof

/-- The command a word of the opcode table spells: none, for the table gives no row a bit. -/
def decodeTableWord (_nbits _w : Nat) : Option Instr := none

end Sys2Proof
end

