-- ==== Sys2Proof/Config.lean ====
section
/-! DEFINITION. What the manual leaves to the part or to a standard outside it: constants with no body, so that no
proof can see what they are. -/
namespace Sys2Proof

/-- The `n`-th output of the random number generator (R392): 64 octets, drawn afresh. -/
opaque Config.draw (n : Nat) : BitVec 512
/-- The roots drawn at the first start (R384): 0 development, 1 production, 2 field-return. -/
opaque Config.root (n : Nat) : BitVec 256
/-- The cell that holds part `k` of the chain numbered `n`, [15:12] its bank's place among the 16 in service: the Trunk places a
cell in any free bank (R183), so which is not stated. -/
opaque Config.cellAt (n k : Nat) : BitVec 16
/-- The first external cell of the run numbered `n` (R203); where a run is placed is not stated. -/
opaque Config.extAt (n : Nat) : BitVec 22
/-- A value the manual leaves open: the value numbered `n`, for whatever `tag` names. -/
opaque Config.freeValue (n : Nat) : BitVec 64
/-- What CMD_DONE and CMD_ERR show of a descriptor whose CLUSTER, or UNIT, is none of R24 and R25, which emit no other: the place of the
value shown in the list of those that are; which is not stated. -/
opaque Config.shownCluster (c : Nat) : Nat
opaque Config.shownUnit (c u : Nat) : Nat
/-- Selond's PCI vendor identifier (R41), which is not stated. -/
opaque Config.pciVendor : BitVec 16
/-- DEVICE_UID, from fuses (R400). -/
opaque Config.deviceUid : BitVec 64
/-- HW_UID of the Heartwood die, from fuses (R406). -/
opaque Config.hwUid : BitVec 64
/-- The public keys of the maker held in the boot ROM and of a legal image's signer (19, 13): by number. -/
opaque Config.vendorKey (n : Nat) : BitVec 256
/-- The seeds of Heartwood's device key pairs, derived from its root (R404): 0 Ed25519, 1 ML-DSA-65. -/
opaque Config.hwSeed (n : Nat) : BitVec 256
/-- The first metrology authority public keys, Ed25519 then ML-DSA-65, and the authority transport key (R410). -/
opaque Config.authorityKeys : List Byte
opaque Config.transportKey : List Byte
/-- Whether the metrology authority's two signatures over an image verify (R424); where the image carries them is not
stated. -/
opaque Config.authorityVerify (keys image : List Byte) : Bool
/-- The octets that stand for an old or a new value of a kind in the digest of an event log entry (R425); how the values are
written as octets is not stated. -/
opaque Config.evlogForm (kind : Nat) (value : List Byte) : List Byte
/-- What a Roots boot record loads (R489), whose layout is not stated: values by configuration address, and routes as their three
words. -/
opaque Config.rootsRecord (body : List Byte) : List (BitVec 32 × BitVec 64)
opaque Config.rootsRoutes (body : List Byte) : List (BitVec 64 × BitVec 64 × BitVec 64)
/-- A word of a notice (R454), whose layout is not stated: word `k` of the notice of a record. -/
opaque Config.noticeWord (k cls cause unit a b : Nat) : BitVec 32
/-- What a block of the flash holds that no command has written, by the number of the block: what a part is delivered with is not
stated. -/
opaque Config.flashBlock (n : Nat) : List Byte
/-- Slot sizes in blocks of the flash directory (R543), by kind, beyond the three blocks of the shortest image. -/
opaque Config.slotRest (kind : Nat) : Nat
/-- Slot sizes in blocks: a slot holds at least a header, a body and a signature block (R545). -/
def Config.slotBlocks (kind : Nat) : Nat := Config.slotRest kind + 3
/-- An image's own data at a slot the manual does not give (R406 "Image"): word `k` of field `n`. -/
opaque Config.imageWord (n k : Nat) : BitVec 32

end Sys2Proof
end

