-- ==== Sys2Proof/Machine/Bits.lean ====
section
/-! DEFINITION. Bit fields, octet orders and the counters that saturate. -/
namespace Sys2Proof.Machine

/-- The field [hi:lo] of a word, as a number. -/
def fld {n : Nat} (w : BitVec n) (hi lo : Nat) : Nat := (w.toNat / 2 ^ lo) % 2 ^ (hi + 1 - lo)

/-- Bit `i` of a word. -/
def bit {n : Nat} (w : BitVec n) (i : Nat) : Bool := w.getLsbD i

/-- The mask of the field [hi:lo]. -/
def fldMask (n hi lo : Nat) : BitVec n := BitVec.ofNat n ((2 ^ (hi + 1 - lo) - 1) * 2 ^ lo)

/-- A word with its field [hi:lo] set to `v`. -/
def setFld {n : Nat} (w : BitVec n) (hi lo v : Nat) : BitVec n :=
  (w &&& ~~~ fldMask n hi lo) ||| (BitVec.ofNat n (v * 2 ^ lo) &&& fldMask n hi lo)

/-- A word with bit `i` set to `b`. -/
def setBit {n : Nat} (w : BitVec n) (i : Nat) (b : Bool) : BitVec n := setFld w i i b.toNat

/-- Counters that saturate (R49, R106): one more, or `k` more. -/
def satAdd (w : Word) (k : Nat) : Word := BitVec.ofNat 32 (min (w.toNat + k) (2 ^ 32 - 1))

/-- The octets of a number, lowest first: little-endian (R16). -/
def leBytes : Nat → Nat → List Byte
  | 0, _ => []
  | k + 1, v => BitVec.ofNat 8 v :: leBytes k (v / 256)

/-- The octets of a number, highest first: network order (R16). -/
def beBytes (k v : Nat) : List Byte := (leBytes k v).reverse

/-- The number a little-endian string of octets holds. -/
def leNat : List Byte → Nat
  | [] => 0
  | b :: r => b.toNat + 256 * leNat r

/-- The number a big-endian string of octets holds. -/
def beNat (l : List Byte) : Nat := l.foldl (fun a b => a * 256 + b.toNat) 0

/-- The octets [at, at + n) of a string, as a big-endian number; octets past its end read zero. -/
def beAt (l : List Byte) (at_ n : Nat) : Nat := (List.range n).foldl (fun a i => a * 256 + (l.getD (at_ + i) 0).toNat) 0

/-- `n` zero octets. -/
def zeros (n : Nat) : List Byte := List.replicate n 0

/-- The octets of an ASCII string. -/
def ascii (s : String) : List Byte := s.toList.map (fun c => BitVec.ofNat 8 c.toNat)

/-- The exclusive or of two strings, as long as the shorter. -/
def xorBytes (a b : List Byte) : List Byte := List.zipWith (· ^^^ ·) a b

/-- Serial-number order (RFC 1982) in 32 bits: the distance from `a` forward to `b`. -/
def dist32 (a b : Word) : Nat := (b - a).toNat

/-- The number of bits set. -/
def popCount {n : Nat} (w : BitVec n) : Nat := (List.range n).countP (fun i => w.getLsbD i)

/-- The lowest set bit's number, if any bit is set. -/
def lowBit {n : Nat} (w : BitVec n) : Option Nat := (List.range n).find? (fun i => w.getLsbD i)

/-- The numbers of the set bits below `k` of a number, lowest first. -/
def bitsOf (k m : Nat) : List Nat := (List.range k).filter (fun i => m.testBit i)

/-- A signed value of a field `n` bits wide. -/
def signed (n v : Nat) : Int := if v < 2 ^ (n - 1) then (v : Int) else (v : Int) - 2 ^ n

end Sys2Proof.Machine
end

