-- ==== Sys2Proof/Machine/Crypto.lean ====
section
/-! DEFINITION. The algorithms the manual names: SHA-512, AES with its modes (CTR, GCM, CMAC, key wrap), the KDF of
R387, CRC-16 and CRC-32C, and the SECDED code of R593. -/
namespace Sys2Proof.Machine

/-! ## SHA-512 (FIPS 180-4) -/

/-- The round constants: 64 bits of the fractional part of the cube roots of the first 80 primes. -/
def shaK : List (BitVec 64) :=
  [0x428a2f98d728ae22, 0x7137449123ef65cd, 0xb5c0fbcfec4d3b2f, 0xe9b5dba58189dbbc] ++
  [0x3956c25bf348b538, 0x59f111f1b605d019, 0x923f82a4af194f9b, 0xab1c5ed5da6d8118] ++
  [0xd807aa98a3030242, 0x12835b0145706fbe, 0x243185be4ee4b28c, 0x550c7dc3d5ffb4e2] ++
  [0x72be5d74f27b896f, 0x80deb1fe3b1696b1, 0x9bdc06a725c71235, 0xc19bf174cf692694] ++
  [0xe49b69c19ef14ad2, 0xefbe4786384f25e3, 0x0fc19dc68b8cd5b5, 0x240ca1cc77ac9c65] ++
  [0x2de92c6f592b0275, 0x4a7484aa6ea6e483, 0x5cb0a9dcbd41fbd4, 0x76f988da831153b5] ++
  [0x983e5152ee66dfab, 0xa831c66d2db43210, 0xb00327c898fb213f, 0xbf597fc7beef0ee4] ++
  [0xc6e00bf33da88fc2, 0xd5a79147930aa725, 0x06ca6351e003826f, 0x142929670a0e6e70] ++
  [0x27b70a8546d22ffc, 0x2e1b21385c26c926, 0x4d2c6dfc5ac42aed, 0x53380d139d95b3df] ++
  [0x650a73548baf63de, 0x766a0abb3c77b2a8, 0x81c2c92e47edaee6, 0x92722c851482353b] ++
  [0xa2bfe8a14cf10364, 0xa81a664bbc423001, 0xc24b8b70d0f89791, 0xc76c51a30654be30] ++
  [0xd192e819d6ef5218, 0xd69906245565a910, 0xf40e35855771202a, 0x106aa07032bbd1b8] ++
  [0x19a4c116b8d2d0c8, 0x1e376c085141ab53, 0x2748774cdf8eeb99, 0x34b0bcb5e19b48a8] ++
  [0x391c0cb3c5c95a63, 0x4ed8aa4ae3418acb, 0x5b9cca4f7763e373, 0x682e6ff3d6b2b8a3] ++
  [0x748f82ee5defb2fc, 0x78a5636f43172f60, 0x84c87814a1f0ab72, 0x8cc702081a6439ec] ++
  [0x90befffa23631e28, 0xa4506cebde82bde9, 0xbef9a3f7b2c67915, 0xc67178f2e372532b] ++
  [0xca273eceea26619c, 0xd186b8c721c0c207, 0xeada7dd6cde0eb1e, 0xf57d4f7fee6ed178] ++
  [0x06f067aa72176fba, 0x0a637dc5a2c898a6, 0x113f9804bef90dae, 0x1b710b35131c471b] ++
  [0x28db77f523047d84, 0x32caab7b40c72493, 0x3c9ebe0a15c9bebc, 0x431d67c49c100d4c] ++
  [0x4cc5d4becb3e42b6, 0x597f299cfc657e2a, 0x5fcb6fab3ad6faec, 0x6c44198c4a475817]

/-- The initial hash value: 64 bits of the fractional part of the square roots of the first 8 primes. -/
def shaH0 : List (BitVec 64) :=
  [0x6a09e667f3bcc908, 0xbb67ae8584caa73b, 0x3c6ef372fe94f82b, 0xa54ff53a5f1d36f1, 0x510e527fade682d1, 0x9b05688c2b3e6c1f, 0x1f83d9abfb41bd6b, 0x5be0cd19137e2179]

/-- The next word of the message schedule from the last sixteen, newest first. -/
def shaNext (w : List (BitVec 64)) : BitVec 64 :=
  let a := w.getD 1 0
  let b := w.getD 14 0
  (a.rotateRight 19 ^^^ a.rotateRight 61 ^^^ (a >>> 6)) + w.getD 6 0 +
    (b.rotateRight 1 ^^^ b.rotateRight 8 ^^^ (b >>> 7)) + w.getD 15 0

/-- The message schedule after `n` further words, newest first. -/
def shaSchedule : Nat → List (BitVec 64) → List (BitVec 64)
  | 0, w => w
  | n + 1, w => shaSchedule n (shaNext w :: w)

/-- One round on the working variables. -/
def shaRound (v : List (BitVec 64)) (kw : BitVec 64 × BitVec 64) : List (BitVec 64) :=
  match v with
  | [a, b, c, d, e, f, g, h] =>
    let t1 := h + (e.rotateRight 14 ^^^ e.rotateRight 18 ^^^ e.rotateRight 41) + ((e &&& f) ^^^ (~~~e &&& g)) + kw.1 + kw.2
    let t2 := (a.rotateRight 28 ^^^ a.rotateRight 34 ^^^ a.rotateRight 39) + ((a &&& b) ^^^ (a &&& c) ^^^ (b &&& c))
    [t1 + t2, a, b, c, d + t1, e, f, g]
  | _ => v

/-- One block of 128 octets. -/
def shaBlock (h : List (BitVec 64)) (block : List Byte) : List (BitVec 64) :=
  let w := (List.range 16).map (fun i => BitVec.ofNat 64 (beAt block (8 * i) 8))
  let sched := (shaSchedule 64 w.reverse).reverse
  List.zipWith (· + ·) h ((shaK.zip sched).foldl shaRound h)

/-- A string cut into blocks of `n` octets; `fuel` bounds their number. -/
def chunks (n : Nat) : Nat → List Byte → List (List Byte)
  | 0, _ => []
  | _, [] => []
  | fuel + 1, l => l.take n :: chunks n fuel (l.drop n)

/-- A string cut into blocks of `n` octets, the last one perhaps shorter. -/
def blocks (n : Nat) (l : List Byte) : List (List Byte) := chunks n l.length l

/-- SHA-512 of a string. -/
def sha512 (m : List Byte) : List Byte :=
  let padded := m ++ [0x80] ++ zeros ((239 - m.length % 128) % 128) ++ beBytes 16 (8 * m.length)
  ((blocks 128 padded).foldl shaBlock shaH0).flatMap (fun w => beBytes 8 w.toNat)

/-! ## AES (FIPS 197) -/

/-- The substitution box: entry `b` is octet `b`, the lowest first. -/
def aesSbox : Nat :=
  0x16bb54b00f2d99416842e6bf0d89a18cdf2855cee9871e9b948ed9691198f8e19e1dc186b95735610ef6034866b53e708a8bbd4b1f74dde8c6b4a61c2e2578ba08ae7a65eaf4566ca94ed58d6d37c8e779e4959162acd3c25c2406490a3a32e0db0b5ede14b8ee4688902a22dc4f816073195d643d7ea7c41744975fec130ccdd2f3ff1021dab6bcf5389d928f40a351a89f3c507f02f94585334d43fbaaefd0cf584c4a39becb6a5bb1fc20ed00d153842fe329b3d63b52a05a6e1b1a2c830975b227ebe28012079a059618c323c7041531d871f1e5a534ccf73f362693fdb7c072a49cafa2d4adf04759fa7dc982ca76abd7fe2b670130c56f6bf27b777c63

/-- Its inverse, in the same form. -/
def aesInvSbox : Nat :=
  0x7d0c2155631469e126d677ba7e042b17619953833cbbebc8b0f52aae4d3be0a0ef9cc9939f7ae52d0d4ab519a97f51605fec8027591012b131c7078833a8dd1ff45acd78fec0db9a2079d2c64b3e56fc1bbe18aa0e62b76f89c5291d711af1476edf751ce837f9e28535ade72274ac9673e6b4f0cecff297eadc674f4111913a6b8a130103bdafc1020f3fca8f1e2cd00645b3b80558e4f70ad3bc8c00abd890849d8da75746155edab9edfd5048706c92b6655dcc5ca4d41698688664f6f87225d18b6d49a25b76b224d92866a12e084ec3fa420b954cee3d23c2a632947b54cbe9dec444438e3487ff2f9b8239e37cfbd7f3819ea340bf38a53630d56a0952

/-- Substitute an octet. -/
def subByte (b : Byte) : Byte := BitVec.ofNat 8 (aesSbox >>> (8 * b.toNat))

/-- Substitute an octet back. -/
def invSubByte (b : Byte) : Byte := BitVec.ofNat 8 (aesInvSbox >>> (8 * b.toNat))

/-- Multiply by x in GF(2^8). -/
def xtime (b : Byte) : Byte := (b <<< 1) ^^^ (if b.getLsbD 7 then 0x1b else 0)

/-- Multiply an octet by a coefficient below 16 in GF(2^8). -/
def gmul (a b : Byte) : Byte :=
  (if a.getLsbD 0 then b else 0) ^^^ (if a.getLsbD 1 then xtime b else 0) ^^^ (if a.getLsbD 2 then xtime (xtime b) else 0)
    ^^^ (if a.getLsbD 3 then xtime (xtime (xtime b)) else 0)

/-- The next word of the key schedule; `w` holds the words so far, newest first, `i` its number, `nk` 4 or 8. -/
def aesKeyWord (nk i : Nat) (w : List (List Byte)) : List Byte :=
  let prev := w.getD 0 []
  let t :=
    if i % nk = 0 then
      let s := (prev.drop 1 ++ prev.take 1).map subByte
      xorBytes s [(List.range (i / nk - 1)).foldl (fun r _ => xtime r) 1, 0, 0, 0]
    else if nk = 8 ∧ i % nk = 4 then prev.map subByte
    else prev
  xorBytes (w.getD (nk - 1) []) t

/-- The key schedule's words, newest first, after `n` more words from number `i` on. -/
def aesExpand (nk : Nat) : Nat → Nat → List (List Byte) → List (List Byte)
  | 0, _, w => w
  | n + 1, i, w => aesExpand nk n (i + 1) (aesKeyWord nk i w :: w)

/-- The round keys of a key of 16 or 32 octets. -/
def aesRoundKeys (key : List Byte) : List (List Byte) :=
  let nk := key.length / 4
  let words := (aesExpand nk (4 * (nk + 7) - nk) nk (blocks 4 key).reverse).reverse
  blocks 16 words.flatten

/-- Rotate the rows of the state, column-major, by `k` times the row number. -/
def shiftRows (k : Nat) (s : List Byte) : List Byte :=
  (List.range 16).map (fun i => s.getD ((i + 4 * k * (i % 4)) % 16) 0)

/-- Multiply every column by the circulant matrix whose first row is `m`. -/
def mixColumns (m : List Byte) (s : List Byte) : List Byte :=
  (List.range 16).map (fun i => (List.range 4).foldl
    (fun acc j => acc ^^^ gmul (m.getD ((4 + j - i % 4) % 4) 0) (s.getD (4 * (i / 4) + j) 0)) 0)

/-- AES of one block under round keys. -/
def aesRounds (rk : List (List Byte)) (b : List Byte) : List Byte :=
  let n := rk.length - 1
  let s := (List.range (n - 1)).foldl
    (fun s i => xorBytes (mixColumns [2, 3, 1, 1] (shiftRows 1 (s.map subByte))) (rk.getD (i + 1) []))
    (xorBytes b (rk.getD 0 []))
  xorBytes (shiftRows 1 (s.map subByte)) (rk.getD n [])

/-- The inverse of AES on one block. -/
def aesRoundsInv (rk : List (List Byte)) (b : List Byte) : List Byte :=
  let n := rk.length - 1
  let s := (List.range (n - 1)).foldl
    (fun s i => mixColumns [14, 11, 13, 9] (xorBytes ((shiftRows 3 s).map invSubByte) (rk.getD (n - 1 - i) [])))
    (xorBytes b (rk.getD n []))
  xorBytes ((shiftRows 3 s).map invSubByte) (rk.getD 0 [])

/-- AES of one block of 16 octets. -/
def aes (key b : List Byte) : List Byte := aesRounds (aesRoundKeys key) b

/-! ## Modes -/

/-- The 16-octet counter block plus one in its last 32 bits (GCM), or in all 128 (CTR). -/
def incBlock (width : Nat) (b : List Byte) : List Byte :=
  let n := beNat b
  beBytes 16 (n - n % 2 ^ width + (n + 1) % 2 ^ width)

/-- The key stream applied to a string from counter block `ctr` on. -/
def ctrMode (width : Nat) (rk : List (List Byte)) (ctr : List Byte) : List (List Byte) → List Byte
  | [] => []
  | b :: r => xorBytes b (aesRounds rk ctr) ++ ctrMode width rk (incBlock width ctr) r

/-- AES-CTR (SP 800-38A) with a 128-bit counter block. -/
def aesCtr (key ctr text : List Byte) : List Byte := ctrMode 128 (aesRoundKeys key) ctr (blocks 16 text)

/-- Multiply in GF(2^128) as GCM numbers it: the first bit is the highest of the number. -/
def ghashMul (x y : BitVec 128) : BitVec 128 :=
  ((List.range 128).foldl (fun (p : BitVec 128 × BitVec 128) i =>
    (if p.1.getLsbD 0 then (p.1 >>> 1) ^^^ (0xe1 <<< 120) else p.1 >>> 1,
     if x.getLsbD (127 - i) then p.2 ^^^ p.1 else p.2)) (y, 0)).2

/-- Pad with zeros to a multiple of 16 octets. -/
def pad16 (l : List Byte) : List Byte := l ++ zeros ((16 - l.length % 16) % 16)

/-- GHASH of a string of whole blocks. -/
def ghash (h : BitVec 128) (l : List Byte) : BitVec 128 :=
  (blocks 16 l).foldl (fun y b => ghashMul (y ^^^ BitVec.ofNat 128 (beNat b)) h) 0

/-- The GCM tag (SP 800-38D) of a ciphertext and its additional data under a 96-bit nonce. -/
def gcmTag (key nonce aad ct : List Byte) : List Byte :=
  let rk := aesRoundKeys key
  let h := BitVec.ofNat 128 (beNat (aesRounds rk (zeros 16)))
  let s := ghash h (pad16 aad ++ pad16 ct ++ beBytes 8 (8 * aad.length) ++ beBytes 8 (8 * ct.length))
  xorBytes (beBytes 16 s.toNat) (aesRounds rk (nonce ++ [0, 0, 0, 1]))

/-- GCM's encryption, which is its own inverse. -/
def gcmCrypt (key nonce text : List Byte) : List Byte :=
  ctrMode 32 (aesRoundKeys key) (nonce ++ [0, 0, 0, 2]) (blocks 16 text)

/-- Double in GF(2^128) (SP 800-38B). -/
def cmacDouble (b : List Byte) : List Byte :=
  let n := beNat b
  beBytes 16 (if n < 2 ^ 127 then 2 * n else (2 * n % 2 ^ 128) ^^^ 0x87)

/-- AES-CMAC (SP 800-38B). -/
def cmac (key m : List Byte) : List Byte :=
  let rk := aesRoundKeys key
  let k1 := cmacDouble (aesRounds rk (zeros 16))
  let n := if m.length = 0 then 0 else (m.length - 1) / 16
  let last := m.drop (16 * n)
  let lastBlock := if last.length = 16 then xorBytes last k1
    else xorBytes (pad16 (last ++ [0x80])) (cmacDouble k1)
  aesRounds rk (xorBytes ((blocks 16 (m.take (16 * n))).foldl (fun x b => aesRounds rk (xorBytes x b)) (zeros 16)) lastBlock)

/-- One step of the key unwrapping of RFC 3394: `(A, R)` with R the registers, at step `t` on register `i`. -/
def unwrapStep (rk : List (List Byte)) (n : Nat) (p : List Byte × List (List Byte)) (t : Nat) : List Byte × List (List Byte) :=
  let i := (t - 1) % n
  let b := aesRoundsInv rk (xorBytes p.1 (beBytes 8 t) ++ p.2.getD i [])
  (b.take 8, p.2.set i (b.drop 8))

/-- AES key unwrap (RFC 3394) with the default initial value: the key, or none where the integrity check fails. -/
def keyUnwrap (kek c : List Byte) : Option (List Byte) :=
  let rk := aesRoundKeys kek
  let n := c.length / 8 - 1
  let r := (List.range (6 * n)).foldl (fun p j => unwrapStep rk n p (6 * n - j)) (c.take 8, blocks 8 (c.drop 8))
  if r.1 = List.replicate 8 0xa6 then some r.2.flatten else none

/-- The KDF in counter mode of R387 with AES-256-CMAC as PRF: `len` octets, 16 or 32. -/
def kdf (parent label context : List Byte) (len : Nat) : List Byte :=
  (List.range (len / 16)).flatMap (fun i =>
    cmac parent (beBytes 4 (i + 1) ++ label ++ [0x00] ++ context ++ beBytes 4 (8 * len)))

/-! ## Check codes -/

/-- A CRC that shifts right: the polynomial reflected, the start value and the final exclusive or all ones. -/
def crcReflected (width poly : Nat) (l : List Byte) : Nat :=
  (l.foldl (fun c b => (List.range 8).foldl
    (fun c _ => if c % 2 = 1 then (c / 2) ^^^ poly else c / 2) (c ^^^ b.toNat)) (2 ^ width - 1)) ^^^ (2 ^ width - 1)

/-- CRC-32C (Castagnoli). -/
def crc32c (l : List Byte) : Nat := crcReflected 32 0x82f63b78 l

/-- The CRC of IEEE 802.3. -/
def crc32 (l : List Byte) : Nat := crcReflected 32 0xedb88320 l

/-- A CRC that shifts left, `width` bits wide, from a start value, over octets highest bit first. -/
def crcForward (width poly start : Nat) (l : List Byte) : Nat :=
  l.foldl (fun c b => (List.range 8).foldl
    (fun c i => let top := (c / 2 ^ (width - 1)) % 2
                let c' := (2 * c) % 2 ^ width
                if (top + (b.getLsbD (7 - i)).toNat) % 2 = 1 then c' ^^^ poly else c') c) start

/-- The code position of data bit `i` (R593): the (i + 1)-th smallest number that is no power of two. -/
def secdedPos (i : Nat) : Nat :=
  ((List.range 72).filter (fun p => p ≠ 0 && !([1, 2, 4, 8, 16, 32, 64].contains p))).getD i 0

/-- The check bits of a 64-bit word (R593). -/
def secded (d : DWord) : Byte :=
  let c := (List.range 7).map (fun j => (List.range 64).foldl
    (fun p i => p != (d.getLsbD i && (secdedPos i).testBit j)) false)
  let low := (List.range 7).foldl (fun (v : Nat) j => v + (c.getD j false).toNat * 2 ^ j) 0
  let par := ((popCount d) + c.countP id) % 2
  BitVec.ofNat 8 (low + 128 * par)

end Sys2Proof.Machine
end

