-- ==== Sys2Proof/Machine/RegMap.lean ====
section
/-! DEFINITION. The configuration address map: the block an address lies in (R590), the addresses of the registers the
meanings name, and for every register its writable bits, its write-1-to-clear bits, its reset value and the ranges
its fields accept. A bit in neither mask is read-only, reserved, or a field whose own command changes it. -/
namespace Sys2Proof.Machine

/-- A family of registers: `n1` instances `s1` apart, each of `n2` instances `s2` apart. `rw` holds the bits
REGISTER_WRITE stores, `w1c` those it clears, `ranges` the fields (high, low, least, greatest) that keep their value
when the written one lies outside. -/
structure RegRow where
  name : String
  base : Nat
  n1 : Nat
  s1 : Nat
  n2 : Nat
  s2 : Nat
  rw : Nat
  w1c : Nat
  reset : Nat
  ranges : List (Nat × Nat × Nat × Nat)
  deriving DecidableEq, Repr

/-- A row of single registers. -/
def row1 (name : String) (base rw : Nat) (reset : Nat := 0) (ranges : List (Nat × Nat × Nat × Nat) := []) (w1c : Nat := 0) : RegRow :=
  ⟨name, base, 1, 1, 1, 1, rw, w1c, reset, ranges⟩

/-- A row of `n` registers `s` apart. -/
def rowN (name : String) (base n s rw : Nat) (reset : Nat := 0) (ranges : List (Nat × Nat × Nat × Nat) := []) (w1c : Nat := 0) : RegRow :=
  ⟨name, base, n, s, 1, 1, rw, w1c, reset, ranges⟩

/-- A row of `n` groups `s` apart of `m` registers `t` apart. -/
def rowNM (name : String) (base n s m t rw : Nat) (reset : Nat := 0) (ranges : List (Nat × Nat × Nat × Nat) := []) (w1c : Nat := 0) : RegRow :=
  ⟨name, base, n, s, m, t, rw, w1c, reset, ranges⟩

/-- All ones. -/
abbrev full32 : Nat := 0xFFFFFFFF

/-! ## Addresses -/

/-- Register `off` of host port `h` (R48). -/
abbrev hostReg (h off : Nat) : Nat := 0x10000 + h * 0x10000 + off
/-- Register `off` of ring `r` of host port `h` (R58). -/
abbrev ringReg (h r off : Nat) : Nat := hostReg h (0x1000 + 0x40 * r + off)
/-- Register `off` of Ethernet port `n` (R92, R106). -/
abbrev portReg (n off : Nat) : Nat := 0x100000 + n * 0x1000 + off
/-- Register `off` of MDIO master `m` (R105). -/
abbrev mdioReg (m off : Nat) : Nat := 0x140000 + m * 0x100 + off
/-- Register `off` of Grove `g` (R147, R180). -/
abbrev groveReg (g off : Nat) : Nat := 0x200000 + g * 0x40000 + off
/-- Register `off` of the Trunk (R218). -/
abbrev trunkReg (off : Nat) : Nat := 0x300000 + off
/-- Register `off` of Trunk queue `q`. -/
abbrev queueReg (q off : Nat) : Nat := 0x310000 + 0x40 * q + off
/-- Register `off` of Crown port `n` (R250). -/
abbrev crownReg (n off : Nat) : Nat := 0x340000 + n * 0x1000 + off
/-- Register `off` of queue `t` of Crown port `n`. -/
abbrev crownQ (n t off : Nat) : Nat := crownReg n (0x100 + 0x40 * t + off)
/-- Entry `k` of the administrative gate list of port `n`. -/
abbrev gclAddr (n k : Nat) : Nat := 0x368000 + 0x800 * n + 8 * k
/-- Register `off` of Cambium (R282). -/
abbrev camReg (off : Nat) : Nat := 0x380000 + off
/-- Register `off` of domain `d`. -/
abbrev domReg (d off : Nat) : Nat := camReg (0x100 + 0x80 * d + off)
/-- Register `off` of capture input `k`. -/
abbrev capReg (k off : Nat) : Nat := camReg (0x300 + 0x20 * k + off)
/-- Register `off` of pulse output `k`. -/
abbrev ppsReg (k off : Nat) : Nat := camReg (0x400 + 0x20 * k + off)
/-- Register `off` of Bark (R315). -/
abbrev barkReg (off : Nat) : Nat := 0x400000 + off
/-- ZP[s][d] of R315. -/
abbrev zpReg (s d : Nat) : Nat := barkReg (0x8000 + 4 * (64 * s + d))
/-- ZP_USED[s][d] of R315. -/
abbrev zpUsed (s d : Nat) : Nat := barkReg (0xC000 + 4 * (64 * s + d))
/-- Register `off` of CAN channel `n` (R349). -/
abbrev canReg (n off : Nat) : Nat := 0x480000 + n * 0x800 + off
/-- Register `off` of LIN channel `l` (R350). -/
abbrev linReg (l off : Nat) : Nat := 0x490000 + l * 0x400 + off
/-- Global Roots register `off` (R351). -/
abbrev rootsReg (off : Nat) : Nat := 0x4A0000 + off
/-- Register `off` of encapsulation stream `s`. -/
abbrev encReg (s off : Nat) : Nat := rootsReg (0x4000 + 0x20 * s + off)
/-- Register `off` of LIN frame buffer `id` of channel `l`. -/
abbrev fbufReg (l id off : Nat) : Nat := rootsReg (0x8000 + 0x400 * l + 0x10 * id + off)
/-- Register `off` of Burl (R374, R400). -/
abbrev burlReg (off : Nat) : Nat := 0x500000 + off
/-- MACsec register `off` of port `n` (R374). -/
abbrev macsecReg (n off : Nat) : Nat := burlReg (0x1000 + 0x40 * n + off)
/-- Register `off` of the Sapwood bridge (R456). -/
abbrev sapReg (off : Nat) : Nat := 0x5F0000 + off
/-- Register `off` of Canopy (R476). -/
abbrev canopyReg (off : Nat) : Nat := 0x600000 + off
/-- Register `off` of Canopy pair `k`. -/
abbrev pairReg (k off : Nat) : Nat := canopyReg (0x100 + 0x40 * k + off)
/-- Watchdog register `off` of core `n` in split mode. -/
abbrev coreWdt (n off : Nat) : Nat := canopyReg (0x200 + 0x20 * n + off)
/-- Register `off` of slow-path receive queue `c`. -/
abbrev spqReg (c off : Nat) : Nat := canopyReg (0x1000 + 0x40 * c + off)
/-- Register `off` of slow-path transmit ring `r`. -/
abbrev sptReg (r off : Nat) : Nat := canopyReg (0x2000 + 0x40 * r + off)
/-- Register `off` of Taproot (R501). -/
abbrev tapReg (off : Nat) : Nat := 0x680000 + off
/-- Ballot source register `off` of source `k`. -/
abbrev srcReg (k off : Nat) : Nat := tapReg (0x400 + 0x10 * k + off)
/-- Register `off` of RAS (R541). -/
abbrev rasReg (off : Nat) : Nat := 0x700000 + off
/-- Register `off` of Update (R565). -/
abbrev updReg (off : Nat) : Nat := 0x800000 + off
/-- VLAN[v] word `w` (R179). -/
abbrev vlanAddr (v w : Nat) : Nat := 0x230000 + 16 * v + 8 * w
/-- MCG[m] (R179). -/
abbrev mcgAddr (m : Nat) : Nat := 0x210000 + 8 * m
/-- STREAM[s] (R218). -/
abbrev streamAddr (s : Nat) : Nat := 0x320000 + 8 * s
/-- RL[i] (R315). -/
abbrev rlAddr (i : Nat) : Nat := barkReg (0x10000 + 8 * i)
/-- CAN_FILTER[i] word `w` (R315). -/
abbrev canFilterAddr (i w : Nat) : Nat := barkReg (0x20000 + 16 * i + 8 * w)
/-- DIAG_PAIR[j] word `w` (R315). -/
abbrev diagPairAddr (j w : Nat) : Nat := barkReg (0x40000 + 16 * j + 8 * w)
/-- Bough word `w` of the copies (R123). -/
abbrev boughAddr (w : Nat) : Nat := 0x1000000 + 8 * w
/-- TXTS[i] word `w` (R282). -/
abbrev txtsAddr (i w : Nat) : Nat := camReg (0x1000 + 16 * i + 8 * w)

/-! ## The rows, block by block -/

/-- DEV, RAS, AUDIT and TAPROOT. -/
def devRows : List RegRow := [
  row1 "DEV_ID" 0x0 0, row1 "DEV_CAP0" 0x10 0, row1 "DEV_CAP1" 0x14 0, row1 "DEV_CAP2" 0x18 0, row1 "DEV_CAP3" 0x1C 0,
  row1 "DEV_MODE" 0x20 0 0x004,
  row1 "CLK_IDLE" 0x50 0xFFFFF 0x2710, row1 "CLK_UNPOWERED_ACC" 0x54 0]

/-- BASJO. -/
def basjoRows : List RegRow := [
  rowN "HOST_CTL" 0x10000 2 0x10000 0x1,
  rowN "HOST_STATUS" 0x10004 2 0x10000 0,
  rowNM "DB_OVERRUN_CNT to EVT_UNROUTED_CNT" 0x10010 2 0x10000 5 4 0,
  rowNM "EVT_ROUTE" 0x10100 2 0x10000 64 4 0xC000037F,
  rowNM "VEC_COAL" 0x10200 2 0x10000 64 4 0x00FFFFFF 1,
  rowNM "RXQ_MAP" 0x10300 2 0x10000 32 4 0x80000F7F,
  rowNM "EVT_LATCH" 0x10440 2 0x10000 32 4 0,
  rowNM "RING.BASE_LO" 0x11000 2 0x10000 128 0x40 0xFFFFFFC0,
  rowNM "RING.BASE_HI" 0x11004 2 0x10000 128 0x40 full32,
  rowNM "RING.WB_LO" 0x11008 2 0x10000 128 0x40 0xFFFFFFFC,
  rowNM "RING.WB_HI" 0x1100C 2 0x10000 128 0x40 full32,
  rowNM "RING.CTL" 0x11010 2 0x10000 128 0x40 0x0F1F0007 0x00060000,
  rowNM "RING.HOST_IDX" 0x11014 2 0x10000 128 0x40 0,
  rowNM "RING.DEV_IDX" 0x11018 2 0x10000 128 0x40 0,
  rowNM "RING.STATUS" 0x1101C 2 0x10000 128 0x40 0 0 [] 0xF,
  rowNM "RING.LOST" 0x11020 2 0x10000 128 0x40 0,
  rowNM "RING.GROUP" 0x11024 2 0x10000 128 0x40 0xF]

/-- PORTS and the MDIO masters. VERIFY_TIME written above 128 keeps its value: R97 gives the range alone (DESIGN CHOICE, log entry
9). -/
def portRows : List RegRow := [
  rowN "PORT_CTL" 0x100000 36 0x1000 0x000FFFFF 0x800 [(15, 0, 64, 16384)],
  rowN "PORT_STATUS" 0x100004 36 0x1000 0 0x40 [] 0x80,
  rowN "LANE_CTL" 0x100008 28 0x1000 0x7FF3 0xC0,
  rowN "LINK_DEB" 0x10000C 36 0x1000 0x00FF0FFF 0x000A0000,
  rowNM "TS_ADJ_RX, TS_ADJ_TX" 0x100010 36 0x1000 2 4 0xFFFFFF,
  rowN "PREEMPT_CTL" 0x100020 20 0x1000 0xE3FF00FF 0x000A0000 [(23, 16, 0, 128)],
  rowN "PREEMPT_STATUS" 0x100024 20 0x1000 0,
  rowN "PLCA_CTL" 0x11C030 8 0x1000 0x80FF070F 0x8,
  rowN "PLCA_TIMER" 0x11C034 8 0x1000 full32 0x00C88020,
  rowN "PLCA_STATUS" 0x11C038 8 0x1000 0,
  rowN "T1S_FW_VER" 0x11C03C 8 0x1000 0,
  rowN "LQ_CTL" 0x100040 36 0x1000 0x3,
  rowN "LQ_STATUS" 0x100044 36 0x1000 0,
  rowNM "RX_FRAMES to LQ_UAS" 0x100100 36 0x1000 48 4 0,
  rowN "MDIO_CTL" 0x140000 4 0x100 0x800100FF 0x13,
  rowN "POLL_PERIOD" 0x140004 4 0x100 0x3FF 0x64,
  rowNM "POLL_SEL" 0x140010 4 0x100 8 0x10 0xC3FFFFFF,
  rowNM "POLL_MASK" 0x140014 4 0x100 8 0x10 0xFFFF 0xFFFF,
  rowNM "POLL_VAL" 0x140018 4 0x100 8 0x10 0]

/-- GROVE0 to GROVE3. -/
def groveRows : List RegRow := [
  rowN "ENG_STATUS" 0x200000 4 0x40000 0 0xFF,
  rowNM "NO_VER_DROP to BOUGH_UE" 0x200100 4 0x40000 4 4 0,
  rowNM "FDB_ENTRIES to AGED_OUT" 0x200200 4 0x40000 17 4 0,
  rowNM "SLOW_RATE" 0x201000 4 0x40000 16 0x10 0xFFFFFF 0x2710,
  rowNM "SLOW_BURST" 0x201004 4 0x40000 16 0x10 0xFFFF 0x40,
  rowNM "PASS_CNT" 0x201008 4 0x40000 16 0x10 0,
  rowNM "DROP_CNT" 0x20100C 4 0x40000 16 0x10 0,
  row1 "PARSE_GLOBAL" 0x220000 0xFF03 0x100,
  row1 "BOUGH_WR_DENIED" 0x220004 0,
  rowN "ETYPE_SLOW" 0x220010 8 4 0x8000FFFF,
  rowN "OPT_WL" 0x220030 8 4 0x800000FF,
  row1 "SOMEIP_PORT[0]" 0x220050 0x8000FFFF 0x8000771A,
  rowN "SOMEIP_PORT" 0x220054 7 4 0x8000FFFF,
  rowN "PARSE_PORT" 0x220100 40 4 0x3FF00FFF 0x30000001,
  rowNM "VER_STATE to VER_INFLIGHT" 0x220200 4 0x20 6 4 0,
  row1 "FDB_CTL" 0x221000 0x7 1,
  row1 "FDB_SEED" 0x221004 0,
  row1 "AGE_PERIOD" 0x221008 0xFFFF 0x12C,
  row1 "DAMP_CTL" 0x22100C 0x7FFF000F 0x03E80004 [(30, 16, 1, 30000), (3, 0, 1, 14)],
  row1 "DAMP_HOLD" 0x221010 0x7FFF 0x2710 [(14, 0, 1, 30000)],
  row1 "LEARN_PORT_EN_LO" 0x221014 full32 full32, row1 "LEARN_PORT_EN_HI" 0x221018 0x3F 0x3F,
  row1 "UUC_FLOOD_LO" 0x22101C full32 full32, row1 "UUC_FLOOD_HI" 0x221020 0xFF 0x3F,
  row1 "UMC_FLOOD_LO" 0x221024 full32 full32, row1 "UMC_FLOOD_HI" 0x221028 0xFF 0x3F]

/-- TRUNK. -/
def trunkRows : List RegRow := [
  row1 "FREE_CELLS" 0x300000 0 0x10000, row1 "FREE_DESC" 0x300004 0 0x20000, row1 "CELL_CAP" 0x300008 0 0x10000,
  row1 "TRUNK_STATUS" 0x30000C 0 0 [] 1,
  row1 "PRESS_ENTER" 0x300010 0x1FFFF 0x2000, row1 "PRESS_EXIT" 0x300014 0x1FFFF 0x4000,
  row1 "DESC_PRESS" 0x300018 0x3FFFF 0x4000, row1 "SPILL_FREE" 0x30001C 0x1FFFF 0x6000,
  row1 "RESEQ_TO" 0x300020 0x3FF 0x14 [(9, 0, 1, 1000)],
  row1 "OVF_CTL" 0x300030 0x7FF 0x400 [(10, 0, 1, 1024)] 0x40000000,
  row1 "OVF_BASE_LO" 0x300034 0xFFF00000, row1 "OVF_BASE_HI" 0x300038 0x7,
  row1 "OVF_USED" 0x30003C 0, row1 "SPILL_DEFER" 0x300040 0, row1 "OVF_FULL" 0x300044 0, row1 "CELL_UE_TX" 0x300048 0,
  row1 "XMEM_CTL" 0x308000 0x771 0x520 [(10, 8, 0, 5), (6, 4, 0, 4)] 0x40000000,
  row1 "XMEM_STATUS" 0x308004 0 0 [] 0x40000000,
  row1 "XMEM_SIZE" 0x308008 0, row1 "XMEM_TRAIN_CNT" 0x30800C 0,
  rowN "RSV" 0x301000 40 0x20 0 0x100,
  rowN "SHARED_MAX" 0x301004 40 0x20 0x1FFFF 0x10000,
  rowN "USED" 0x301008 40 0x20 0, rowN "RX_NOBUF" 0x30100C 40 0x20 0, rowN "RESEQ_OCC" 0x301010 38 0x20 0,
  rowN "G_TH" 0x302000 16 0x10 full32 full32, rowN "Y_TH" 0x302004 16 0x10 full32 full32, rowN "MAXP" 0x302008 16 0x10 0xFFFF,
  rowN "QCTL" 0x310000 352 0x40 0x8F0FFFFF 0x00090200,
  rowN "QMAX" 0x310004 352 0x40 0x7FFFFFFF 0x7FFF0400 [(30, 16, 1, 32767), (15, 0, 1, 65535)],
  rowNM "DEPTH_CELLS to FILL_ERR" 0x310008 352 0x40 14 4 0]

/-- CROWN. -/
def crownRows : List RegRow := [
  rowN "PORT_CFG, ports 0 to 35" 0x340000 36 0x1000 0xFF 0x14,
  rowN "PORT_CFG, ports 36 and 37" 0x364000 2 0x1000 0xFF,
  rowN "LAUNCH_TOL" 0x340004 36 0x1000 0xFFFFFF 0x3E8,
  rowN "GATE_CTL" 0x340010 36 0x1000 0xE0000004,
  rowN "GATE_STATUS" 0x340014 36 0x1000 0 0xFF000000 [] 0xC,
  rowN "ADMIN_LEN" 0x340018 36 0x1000 0x1FF 1, rowN "ADMIN_CYCLE" 0x34001C 36 0x1000 full32 0x9C40,
  rowN "ADMIN_BASE_NS" 0x340020 36 0x1000 0x3FFFFFFF, rowN "ADMIN_BASE_SEC_LO" 0x340024 36 0x1000 full32,
  rowN "ADMIN_BASE_SEC_HI" 0x340028 36 0x1000 0xFFFF, rowN "ADMIN_EXT" 0x34002C 36 0x1000 full32,
  rowNM "OPER_LEN to CCT_SEC_HI" 0x340030 36 0x1000 8 4 0,
  rowN "SAMPLE_CTL" 0x340050 38 0x1000 0xC000FFFF 0x400,
  rowN "SAMPLE_PERIOD" 0x340054 38 0x1000 0xFFFFF 0x3E8 [(19, 0, 1, 1000000)],
  rowNM "GATE_OVERSIZE_DROP to LAUNCH_SENT" 0x340060 36 0x1000 3 4 0,
  rowNM "HQMAP" 0x364080 2 0x1000 8 4 0x31F,
  rowNM "QSCHED" 0x340100 36 0x1000 8 0x40 0 0x40000001,
  rowNM "CIR" 0x340104 36 0x1000 8 0x40 0, rowNM "CBS" 0x340108 36 0x1000 8 0x40 0 0x4000,
  rowNM "PIR" 0x34010C 36 0x1000 8 0x40 0, rowNM "PBS" 0x340110 36 0x1000 8 0x40 0 0x4000,
  rowNM "QSCHED, host" 0x364100 2 0x1000 32 0x40 0 0x40000001,
  rowNM "CIR, host" 0x364104 2 0x1000 32 0x40 0, rowNM "CBS, host" 0x364108 2 0x1000 32 0x40 0 0x4000,
  rowNM "PIR, host" 0x36410C 2 0x1000 32 0x40 0, rowNM "PBS, host" 0x364110 2 0x1000 32 0x40 0 0x4000,
  rowN "PRIO_MAP" 0x37C000 40 4 0x07FFFFFF 0x00FAC681]

/-- CAMBIUM. -/
def camRows : List RegRow := [
  row1 "TIME_STATUS" 0x380000 0 1, row1 "RAW_EPOCH" 0x380004 0 1, row1 "EPOCH_ROWS" 0x380008 0 1023,
  row1 "SNAP_CTL" 0x380010 0, rowN "SNAP registers" 0x380020 16 4 0,
  row1 "DOM_A.DOM_CTL" 0x380100 0x403FFF00 0 [(21, 16, 0, 35)], row1 "DOM_B.DOM_CTL" 0x380180 0x403FFF00 0x100 [(21, 16, 0, 35)],
  rowN "DOM_STATUS" 0x380104 2 0x80 0 0 [] 0x4,
  rowN "SYNC_TO" 0x380108 2 0x80 0xFFFF 0x177 [(15, 0, 1, 65535)],
  rowN "SH_BRAW_FRAC" 0x380110 2 0x80 0xFF, rowNM "SH_BRAW_LO, SH_BRAW_HI" 0x380114 2 0x80 2 4 full32,
  rowNM "SH_BSEC_LO, SH_BSEC_HI" 0x38011C 2 0x80 2 4 full32, rowN "SH_BNS" 0x380124 2 0x80 0x3FFFFFFF,
  rowN "SH_BFNS" 0x380128 2 0x80 0xFFFF, rowN "SH_RATE_LO" 0x38012C 2 0x80 full32, rowN "SH_RATE_HI" 0x380130 2 0x80 0xFFFF,
  rowNM "operational triple" 0x380140 2 0x80 9 4 0,
  row1 "WT_CTL" 0x380200 0x2, row1 "WT_STATUS" 0x380204 0,
  row1 "SLEW_MAX" 0x380208 0x3FF 0x32 [(9, 0, 1, 1000)], row1 "SW_MAX_DIFF" 0x38020C full32 0xF4240 [(31, 0, 1, 4294967295)],
  row1 "HOLDOVER_MAX" 0x380210 0xFFFF 0x3E8 [(15, 0, 1, 65535)],
  rowN "OFF" 0x380214 3 4 0,
  rowN "CAP_CTL" 0x380300 4 0x20 0xC0000003, rowNM "CAP_FRAC to CAP_MISSED" 0x380304 4 0x20 5 4 0,
  rowN "PPS_CTL" 0x380400 4 0x20 0 0 [] 0x40000000,
  rowN "PPS_PERIOD" 0x380404 4 0x20 full32 1000000000, rowN "PPS_WIDTH" 0x380408 4 0x20 full32 100000000,
  rowN "PPS_START_NS" 0x38040C 4 0x20 0x3FFFFFFF, rowN "PPS_START_SEC_LO" 0x380410 4 0x20 full32,
  rowN "PPS_START_SEC_HI" 0x380414 4 0x20 0xFFFF,
  row1 "TXTS_PORT_LO" 0x380500 full32, row1 "TXTS_PORT_HI" 0x380504 0xF, row1 "TXTS_WR" 0x380508 0,
  row1 "TXTS_RD" 0x38050C 0, row1 "TXTS_LOST" 0x380510 0]

/-- BARK. -/
def barkRows : List RegRow := [
  row1 "CT_CTL" 0x400000 0x001F0000 0x160000 [(20, 16, 10, 22)] 0x40000000,
  row1 "CT_STATUS" 0x400004 0, row1 "CT_BASE_LO" 0x400008 0xFFF00000, row1 "CT_BASE_HI" 0x40000C 7,
  row1 "CT_SEED" 0x400010 0, row1 "CT_USED" 0x400014 0, row1 "CT_CAP" 0x400018 0 524288,
  row1 "TO[0]" 0x400020 0x7FFFFFF 5000 [(26, 0, 1, 86400000)], row1 "TO[1]" 0x400024 0x7FFFFFF 600000 [(26, 0, 1, 86400000)],
  row1 "TO[2]" 0x400028 0x7FFFFFF 60000 [(26, 0, 1, 86400000)], row1 "TO[3]" 0x40002C 0x7FFFFFF 10000 [(26, 0, 1, 86400000)],
  row1 "TO[4]" 0x400030 0x7FFFFFF 10000 [(26, 0, 1, 86400000)], row1 "TO[5]" 0x400034 0x7FFFFFF 120000 [(26, 0, 1, 86400000)],
  row1 "TO[6]" 0x400038 0x7FFFFFF 5000 [(26, 0, 1, 86400000)], row1 "TO[7]" 0x40003C 0x7FFFFFF 5000 [(26, 0, 1, 86400000)],
  rowN "LOG_INTERVAL" 0x400040 4 4 0xFFFFF 0x3E8 [(19, 0, 1, 1000000)],
  row1 "ANOM_WINDOW" 0x400050 0xFFFF 0x3E8 [(15, 0, 1, 65535)], row1 "ANOM_TH" 0x400054 full32,
  rowN "DENY_RULE to UDS_NOSESSION" 0x400100 17 4 0,
  rowN "PORT_ZONE" 0x401000 36 4 0x3F, row1 "PORT_ZONE[38]" 0x401098 0x3F,
  rowNM "HOST_ZONE" 0x401100 2 0x40 16 4 0x3F, rowN "CAN_ZONE" 0x401200 24 4 0x3F, rowN "LIN_ZONE" 0x401280 16 4 0x3F,
  rowN "CF_CH" 0x401400 25 4 0xC0000000 0x80000000,
  rowN "ZP, s = d" 0x408000 64 260 0xF000FFFF 0x80000000,
  rowNM "ZP" 0x408000 64 256 64 4 0xF000FFFF,
  rowN "ZP_USED" 0x40C000 4096 4 0]

/-- ROOTS. -/
def rootsRows : List RegRow := [
  rowN "CAN_CTL" 0x480000 24 0x800 0x7A800000 0x0A800000,
  rowN "CAN_STATUS" 0x480004 24 0x800 0 0 [] 0x8, rowN "CAN_ERRCNT" 0x480008 24 0x800 0,
  rowN "NBT" 0x480010 24 0x800 0xFFFF7F7F 0x03400F0F [(23, 16, 1, 255), (14, 8, 1, 127), (6, 0, 1, 127)],
  rowN "DBT" 0x480014 24 0x800 0xFF3F1F1F 0x003F1010 [(21, 16, 1, 63), (12, 8, 1, 31), (4, 0, 1, 31)],
  rowN "XBT" 0x480018 24 0x800 0xFF3F1F1F 0x00050202 [(21, 16, 1, 63), (12, 8, 1, 31), (4, 0, 1, 31)],
  rowN "TDC" 0x48001C 24 0x800 0x807F0000, rowN "XL_CTL" 0x480020 24 0x800 0x803F3F3F, rowN "TX_AGE_MAX" 0x480024 24 0x800 0xFFFF,
  rowN "TX_OCC" 0x480028 24 0x800 0, rowNM "RX_FRAMES to BUSOFF_CNT" 0x480100 24 0x800 8 4 0,
  rowN "LIN_CTL" 0x490000 16 0x400 0x6800FFFF 0x4B00,
  rowN "LIN_STATUS" 0x490004 16 0x400 0 0 [] 0x10000,
  rowN "SCHED_CTL" 0x490008 16 0x400 0x007F7F00 0x00010100 [(22, 16, 1, 64), (14, 8, 1, 64)],
  rowNM "SCHED" 0x490100 16 0x400 128 4 0xFCBFFFFF,
  rowNM "RX_FRAMES to OTHER_ERR" 0x490300 16 0x400 6 4 0,
  row1 "RT_SEED" 0x4A0000 full32, row1 "RT_USED" 0x4A0004 0, row1 "GW_SA_LO" 0x4A0008 full32, row1 "GW_SA_HI" 0x4A000C 0xFFFF,
  rowN "ROUTE_MISS_CNT to AUTH_BUSY_DROP" 0x4A0010 7 4 0,
  rowNM "MPROF" 0x4A1000 48 0x40 16 4 0xBFFFFFFF,
  rowN "ENC_CTL" 0x4A4000 256 0x20 0x78000FFF, rowN "ENC_HOLD" 0x4A4004 256 0x20 0x3FF 0 [(9, 0, 0, 1000)],
  rowN "ENC_MAXLEN" 0x4A4008 256 0x20 0x7FF 0x5EE [(10, 0, 64, 1518)],
  rowN "DA_LO" 0x4A400C 256 0x20 full32, rowN "DA_HI" 0x4A4010 256 0x20 0xFFFF,
  rowNM "SID_LO, SID_HI" 0x4A4014 256 0x20 2 4 full32, rowN "ENC_STATUS" 0x4A401C 256 0x20 0,
  rowNM "FBUF.DATA_LO" 0x4A8000 16 0x400 64 0x10 full32, rowNM "FBUF.DATA_HI" 0x4A8004 16 0x400 64 0x10 full32,
  rowNM "FBUF.FCTL" 0x4A8008 16 0x400 64 0x10 0xE00F0000 0 [(19, 16, 1, 8)] 0x1]

/-- BURL. -/
def burlRows : List RegRow := [
  row1 "PIPE_STATUS" 0x500000 0 0x3F, row1 "PN_WARN_GAP" 0x500004 full32 0x01000000, row1 "JOB_STATUS" 0x500008 0,
  rowN "JOB_OK, JOB_AUTH_FAIL, JOB_TAMPERED" 0x500010 3 4 0,
  rowN "MACSEC_CTL" 0x501000 36 0x40 0xC0000000, rowN "MACSEC_STATUS" 0x501004 36 0x40 0 0 [] 1,
  rowN "REPLAY_WIN" 0x501008 36 0x40 full32, rowN "UNCTRL" 0x50100C 36 0x40 full32 0x888E,
  rowNM "RX_UNTAGGED to TAMPER_DROP" 0x501010 36 0x40 11 4 0,
  row1 "LC_STATUS" 0x504000 0 0x0002A002, row1 "TAMPER_STATUS" 0x504004 0, row1 "DEVICE_UID_LO" 0x504008 0, row1 "DEVICE_UID_HI" 0x50400C 0,
  row1 "KS_BANKS" 0x504010 0 0xFF, row1 "KS_LIVE" 0x504014 0, row1 "RNG_STATUS" 0x504018 0,
  rowN "ORPHAN_RECLAIM to SIG_VERIFY_FAIL" 0x504020 4 4 0]

/-- SAPWOOD and CANOPY. -/
def canopyRows : List RegRow := [
  row1 "SAP_CTL" 0x5F0000 0, row1 "SAP_STATUS" 0x5F0004 0, row1 "SAP_TO" 0x5F0008 0x3FF 0x64 [(9, 0, 10, 1000)],
  rowN "SAP_BACKOFF_CNT to SEM_DENIED" 0x5F0010 4 4 0, row1 "SAP_IRQ_OUT" 0x5F0020 0x7F,
  row1 "SAP_IRQ_IN" 0x5F0024 0 0 [] 0xFF, row1 "SAP_IRQ_EN" 0x5F0028 0xFF, row1 "SAP_WIRES" 0x5F002C 0,
  rowN "NOTICE" 0x5F0040 4 4 0, row1 "NOTICE_GO" 0x5F0050 0, rowN "SEM" 0x5F0100 16 4 0,
  row1 "CANOPY_MODE" 0x600000 0, row1 "MM_WINDOW" 0x600004 0xFFFFFF 0x36EE80 [(23, 0, 1, 16777215)], row1 "CKPT_MAX" 0x600008 0xFFFFFF,
  row1 "PAIR_STATUS[0]" 0x600100 0 0x3010, row1 "PAIR_STATUS[1]" 0x600140 0 0x5110, row1 "PAIR_STATUS[2]" 0x600180 0 0x0330,
  row1 "WDT_CTL[0]" 0x600108 0x800FFFFF 0x800186A0 [(19, 0, 10, 1000000)], row1 "WDT_CTL[1]" 0x600148 0x800FFFFF 0x800186A0 [(19, 0, 10, 1000000)],
  row1 "WDT_CTL[2]" 0x600188 0x800FFFFF 0x000186A0 [(19, 0, 10, 1000000)],
  rowN "CKPT_AGE" 0x600110 3 0x40 0, rowNM "MISMATCH_CNT to SELFTEST_FAIL" 0x600114 3 0x40 5 4 0,
  rowN "CORE_WDT_CTL" 0x600200 4 0x20 0x800FFFFF 0x800186A0 [(19, 0, 10, 1000000)], rowN "CORE_WDT_RESET_CNT" 0x600208 4 0x20 0,
  rowN "SPQ_CTL" 0x601000 16 0x40 0x831F03FF 0x00040040 [(20, 16, 4, 10), (9, 0, 1, 1023)],
  rowN "SPQ_BASE" 0x601004 16 0x40 0x003FFFC0, rowN "SPQ_WB" 0x601008 16 0x40 0x003FFFFC,
  rowN "SPQ_HOST_IDX" 0x60100C 16 0x40 0, rowN "SPQ_DEV_IDX" 0x601010 16 0x40 0,
  rowN "SPQ_MAXCELLS" 0x601014 16 0x40 0x1FFFF 0x400 [(16, 0, 64, 65536)], rowNM "SPQ_PASS, SPQ_DROP" 0x601018 16 0x40 2 4 0,
  rowN "SPT_CTL" 0x602000 4 0x40 0x801F0000 0x00040000 [(20, 16, 4, 10)],
  rowN "SPT_BASE" 0x602004 4 0x40 0x003FFFC0, rowN "SPT_WB" 0x602008 4 0x40 0x003FFFFC,
  rowN "SPT_HOST_IDX" 0x60200C 4 0x40 0, rowN "SPT_DEV_IDX" 0x602010 4 0x40 0]

/-- TAPROOT. -/
def tapRows : List RegRow := [
  row1 "TP_STATUS" 0x680000 0, row1 "BALLOT_CTL" 0x680004 0x8003FFFF 0x000203E8 [(17, 16, 1, 2), (15, 0, 1, 65535)],
  row1 "PWR_OFF_MIN" 0x68000C 0x3FFF 0xC8 [(13, 0, 100, 10000)], rowN "VOTES" 0x680010 2 4 0, rowN "COMMIT_STAMP" 0x680018 2 4 0,
  row1 "KEEPER" 0x680020 0, row1 "KEEPER_MS" 0x680024 0, row1 "KEEPER_TH" 0x680028 0xFFFF,
  row1 "WAKE_EN" 0x680030 0x3FFFF 0xFF, row1 "WAKE_REASON" 0x680034 0, row1 "TIMER_WAKE" 0x680038 full32,
  row1 "T_VALID" 0x68003C 0xFFFF 0x1F4 [(15, 0, 1, 65535)], row1 "FW_MASK_CTL" 0x680040 0xFFFF000F 0x0E100000 [(31, 16, 1, 65535)],
  row1 "FW_MASKED" 0x680044 0, row1 "FAST_UP_LO" 0x680050 full32, row1 "FAST_UP_HI" 0x680054 0xF,
  row1 "PART_GROVE" 0x680060 0xE 0xF, row1 "PART_PORT_LO" 0x680064 full32 full32, row1 "PART_PORT_HI" 0x680068 0x3F 0x3F,
  row1 "PART_CAN" 0x68006C 0xFFFFFF 0xFFFFFF, row1 "PART_LIN" 0x680070 0xFFFF 0xFFFF, row1 "PART_OWNER" 0x680074 0 0xE4,
  row1 "SAVE_CTL" 0x680080 0 0 [] 0x40000000, row1 "SAVE_BASE_LO" 0x680084 0xFFF00000, row1 "SAVE_BASE_HI" 0x680088 7,
  rowN "WAKE_CFG" 0x680100 8 0x20 0xFF000701 0x02000400 [(31, 24, 1, 255), (10, 8, 0, 4)],
  rowN "VAL_CAN" 0x680104 8 0x20 0xFFFFFF, rowN "VAL_LIN" 0x680108 8 0x20 0xFFFF,
  rowN "VAL_PORT_LO" 0x68010C 8 0x20 full32, rowN "VAL_PORT_HI" 0x680110 8 0x20 0x3F,
  rowN "FALSE_CNT" 0x680200 16 4 0,
  rowN "SRC_CFG" 0x680400 64 0x10 0xF03FFFFF 0x04000000 [(30, 28, 0, 5)],
  rowN "SRC_P0" 0x680404 64 0x10 0x9FFFFFFF, rowN "SRC_P1" 0x680408 64 0x10 0x1FFFFFFF]

/-- RAS, AUDIT and UPDATE. -/
def rasRows : List RegRow := [
  row1 "SAFE_STATUS" 0x700000 0, row1 "SAFE_CTL" 0x700004 0x8000003F 0 [(5, 0, 0, 35)], row1 "SAFE_DROP" 0x70000C 0,
  row1 "TEMP_NOW" 0x700010 0, row1 "TEMP_SHUT" 0x700014 0xFF 0x87 [(7, 0, 110, 140)],
  row1 "SCRUB_PERIOD" 0x700020 0xFFF 0xA [(11, 0, 1, 3600)], row1 "RAS_WINDOW" 0x700024 0xFFFF 0xE10 [(15, 0, 1, 65535)],
  row1 "TH[0]" 0x700030 full32 0x00100040, row1 "TH[1]" 0x700034 full32 0x00010004, row1 "TH[2]" 0x700038 full32 0x00010002,
  row1 "TH[3]" 0x70003C full32 0x00020008, row1 "TH[4]" 0x700040 full32 0x00040010,
  row1 "RAS_SEL" 0x700100 0xFFFF, row1 "RAS_UNIT" 0x700104 0, rowN "RAS_CE_WIN to RAS_UE_TOTAL" 0x700108 3 4 0,
  row1 "RED_CTL" 0x700200 0xA03FFFFF 0x1388 [(21, 16, 0, 35), (15, 0, 1000, 65535)], row1 "RED_STATUS" 0x700204 0,
  row1 "RED_QUIET_LO" 0x700208 full32, row1 "RED_QUIET_HI" 0x70020C 0xF, row1 "RED_QUIET_CAN" 0x700210 0xFFFFFF,
  row1 "RED_GM" 0x700214 3, row1 "RED_PRIO" 0x700218 0xFF,
  row1 "HB_DA_LO" 0x700220 full32, row1 "HB_DA_HI" 0x700224 0xFFFF, row1 "HB_SA_LO" 0x700228 full32, row1 "HB_SA_HI" 0x70022C 0xFFFF,
  rowNM "WR, RD, CMD, o = 0 to 6" 0x701000 7 0x10 3 4 0 0x1FFFFF, rowNM "WR, RD, CMD, o = 7 to 15" 0x701070 9 0x10 3 4 0,
  row1 "MATRIX_DENIED" 0x701400 0,
  row1 "LOG_NEXT_SEQ" 0x780000 0, row1 "LOG_OLDEST_SEQ" 0x780004 0, rowN "CHAIN_START" 0x780010 4 4 0, rowN "LAST_MAC" 0x780020 4 4 0,
  row1 "UPD_STATUS" 0x800000 0, row1 "BOOT_STATUS" 0x800004 0, row1 "JOURNAL_NEXT" 0x800008 0, row1 "SVN" 0x80000C 0,
  row1 "ACTIVE" 0x800010 0, rowN "RUN_VERSION" 0x800040 20 4 0, rowN "MEASUREMENT" 0x8000C0 16 4 0,
  row1 "SVC_PORTS_LO" 0x800100 full32, row1 "SVC_PORTS_HI" 0x800104 0xF, row1 "SVC_DROP" 0x800108 0,
  row1 "XSPI_CTL" 0x800200 3 0 [(1, 0, 0, 2)]]

/-- The block of an address (R590), where it has one. -/
def blockOf (a : Nat) : Option Nat :=
  if a < 0x10000 then some 0
  else if a < 0x100000 then some 1
  else if a < 0x200000 then some 2
  else if a < 0x300000 then some (3 + (a - 0x200000) / 0x40000)
  else if a < 0x340000 then some 7
  else if a < 0x380000 then some 8
  else if a < 0x400000 then some 9
  else if a < 0x480000 then some 10
  else if a < 0x500000 then some 11
  else if a < 0x580000 then some 12
  else if a < 0x5F0000 then some 13
  else if a < 0x600000 then some 14
  else if a < 0x680000 then some 15
  else if a < 0x700000 then some 16
  else if a < 0x780000 then some 17
  else if a < 0x800000 then some 18
  else if a < 0x1000000 then some 19
  else if a < 0x2000000 then some 20
  else none

/-- The rows that may hold an address. -/
def rowsAt (a : Nat) : List RegRow :=
  match blockOf a with
  | some 0 => devRows
  | some 1 => basjoRows
  | some 2 => portRows
  | some 3 | some 4 | some 5 | some 6 => groveRows
  | some 7 => trunkRows
  | some 8 => crownRows
  | some 9 => camRows
  | some 10 => barkRows
  | some 11 => rootsRows
  | some 12 => burlRows
  | some 14 | some 15 => canopyRows
  | some 16 => tapRows
  | some 17 | some 18 | some 19 => rasRows
  | _ => []

/-- Whether a row holds an address. -/
def RegRow.holds (r : RegRow) (a : Nat) : Bool :=
  r.base ≤ a && (
    let o := a - r.base
    o / r.s1 < r.n1 && o % r.s1 % r.s2 == 0 && o % r.s1 / r.s2 < r.n2
    || (r.n2 == 1 && o % r.s1 == 0 && o / r.s1 < r.n1))

/-- The row of a register, where a chapter assigns the address (R589). -/
def regRow (a : Nat) : Option RegRow := (rowsAt a).find? (fun r => r.holds a)

/-- The registers whose reset value is not one number for the whole row: fuse words by variant (R9), PIPE_STATUS
(R374), the overflow-eligible queues (R218) and HQMAP (R250). -/
def regResetSpecial (v : Variant) (a : Nat) : Option Nat :=
  if a = 0x0 then some (match v with | .m => 0x00721010 | .s => 0x00722010 | .c => 0x00723010)
  else if a = 0x10 then some (match v with | .m => 0x0EFF0C1F | .s => 0x0EFF001F | .c => 0x04D00003)
  else if a = 0x14 then some (match v with | .c => 0x00000FFF | _ => 0x00FFFFFF)
  else if a = 0x18 then some (match v with | .c => 0x004700FF | _ => 0x007FFFFF)
  else if a = 0x1C then some (match v with | .c => 0xF0F00FF3 | _ => 0xFFFFFFFF)
  else if a = burlReg 0 then some (match v with | .c => 0x07 | _ => 0x3F)
  else if 0x310000 ≤ a ∧ a < 0x310000 + 352 * 0x40 ∧ (a - 0x310000) % 0x40 = 0 then
    let q := (a - 0x310000) / 0x40
    some (if 288 ≤ q ∨ q % 8 < 4 then 0x80090200 else 0x00090200)
  else if (0x364080 ≤ a ∧ a < 0x3640A0) ∨ (0x365080 ≤ a ∧ a < 0x3650A0) then some (a % 0x20)
  else if a = tapReg 0x64 then some (match v with | .c => 0xF0F00FF3 | _ => 0xFFFFFFFF)
  else if a = tapReg 0x68 then some (match v with | .c => 0x10 | _ => 0x3F)
  else if a = tapReg 0x6C then some (match v with | .c => 0xFFF | _ => 0xFFFFFF)
  else if a = tapReg 0x70 then some (match v with | .c => 0xFF | _ => 0xFFFF)
  else if a = tapReg 0x74 then some (match v with | .c => 0x44 | _ => 0xE4)
  else if v = .c ∧ (a = 0x300030 ∨ a = 0x308000) then some 0
  else if v = .c ∧ (a = 0x221014 ∨ a = 0x22101C ∨ a = 0x221024) then some 0xF0F00FF3
  else if v = .c ∧ (a = 0x221018 ∨ a = 0x221020 ∨ a = 0x221028) then some 0x10
  else none

/-- What a register reads after reset: the spec's value (R592 and the register tables), or zero. -/
def regReset (v : Variant) (a : Nat) : Word :=
  BitVec.ofNat 32 (match regResetSpecial v a with
    | some r => r
    | none => match regRow a with
      | some r => r.reset
      | none => 0)

/-- The table word whose lower register is at an address, with the bits that may be written (R17). -/
def wordMask (a : Nat) : Option Nat :=
  if 0x210000 ≤ a ∧ a < 0x220000 ∧ a % 8 = 0 then some 0x800000FFFFFFFFFF
  else if 0x230000 ≤ a ∧ a < 0x240000 ∧ a % 8 = 0 then some 0xC00000FFFFFFFFFF
  else if 0x320000 ≤ a ∧ a < 0x340000 ∧ a % 8 = 0 then some 0xC0000000FFFFFFFF
  else if 0x368000 ≤ a ∧ a < 0x37A000 ∧ a % 8 = 0 then some 0x3FFFFFFFFFF
  else if 0x410000 ≤ a ∧ a < 0x418000 ∧ a % 8 = 0 then some 0x003FFFFF00FFFFFF
  else if 0x420000 ≤ a ∧ a < 0x440000 ∧ a % 8 = 0 then some (if a % 16 = 0 then 0xC3FFFFFFFFFFFFFF else 0xFFFFFFFFFFFFFFFC)
  else if 0x440000 ≤ a ∧ a < 0x441000 ∧ a % 8 = 0 then some (if a % 16 = 0 then 0xDFFFFFFF1FFFFFFF else 0xFFC0000000000000)
  else if 0x1000000 ≤ a ∧ a < 0x1800000 ∧ a % 8 = 0 then some 0xFFFFFFFFFFFFFFFF
  else if 0x381000 ≤ a ∧ a < 0x382000 ∧ a % 8 = 0 then some 0
  else none

/-- The fields of a register that a command of its own writes, by the name of its row; REGISTER_WRITE's are in the row. -/
def ownBits (name : String) : Nat :=
  if ["RING.CTL", "PORT_CTL", "OVF_CTL", "XMEM_CTL", "SAMPLE_CTL", "DOM_A.DOM_CTL", "DOM_B.DOM_CTL", "PPS_CTL", "CT_CTL", "CAN_CTL",
      "LIN_CTL", "SCHED_CTL", "SAVE_CTL"].contains name then 0x80000000
  else if name = "SRC_CFG" then 0x08000000
  else if ["QSCHED", "QSCHED, host"].contains name then 0xC30000FF
  else if ["CIR", "CBS", "PIR", "PBS", "CIR, host", "CBS, host", "PIR, host", "PBS, host", "RSV", "FDB_SEED", "CT_SEED",
      "WR, RD, CMD, o = 0 to 6", "WR, RD, CMD, o = 7 to 15"].contains name then full32
  else 0

/-- The configuration bits of a register: its RW fields (R504). -/
def cfgBits (a : Nat) : Word := match regRow a with | some r => BitVec.ofNat 32 (r.rw ||| ownBits r.name) | none => 0

/-- A register with its configuration kept and the rest at reset. -/
def cfgOnly (v : Variant) (a : Nat) (x : Word) : Word := (regReset v a &&& ~~~cfgBits a) ||| (x &&& cfgBits a)

end Sys2Proof.Machine
end

