-- ==== Sys2Proof/Machine/AuditCore.lean ====
section
/-! DEFINITION. The change log as data (R536 to R539): its entries, their MAC, the key that makes it, and the log as a boot starts it. -/
namespace Sys2Proof.Machine

/-- An entry of the change log: words 0 to 5 and its MAC (R537). -/
structure AuditEntry where
  w0 : DWord
  w1 : DWord
  w2 : DWord
  w3 : DWord
  w4 : DWord
  w5 : DWord
  mac : BitVec 128
  deriving DecidableEq, Repr

/-- The change log: its entries, newest first, the next SEQ, the MAC the chain starts from and that of the last entry. -/
structure Audit where
  entries : List AuditEntry
  next : Word
  chainStart : BitVec 128
  lastMac : BitVec 128
  deriving DecidableEq, Repr

/-- A log with nothing in it. -/
def Audit.empty : Audit := ⟨[], 0, 0, 0⟩

/-- The octets of a root (R384), 32 of them, high octet first. -/
def rootBytes (n : Nat) : List Byte := beBytes 32 (Config.root n).toNat

/-- DEVICE_UID, 8 octets, high octet first. -/
def uidBytes : List Byte := beBytes 8 Config.deviceUid.toNat

/-- The CONTEXT of R387: life cycle, USAGE, OWNER, KEY256, the bound identity, the host octets. -/
def kdfContext (life usage owner : Nat) (key256 bind : Bool) (host : List Byte) : List Byte :=
  [BitVec.ofNat 8 life, BitVec.ofNat 8 usage] ++ beBytes 2 owner ++ [BitVec.ofNat 8 key256.toNat] ++ zeros 3 ++
    (if bind then uidBytes else zeros 8) ++ host

/-- A secret derived from a live root with BIND = 1, KEY256 = 1, OWNER 0 and a zero host context (R387, R393, R538). -/
def rootSecret (live : Option Nat) (life : Nat) (label : String) (usage : Nat) : Option (List Byte) :=
  live.map (fun n => kdf (rootBytes n) (ascii label) (kdfContext life usage 0 true true (zeros 8)) 32)

/-- K_AUDIT (R538), while a root is live. The USAGE its context carries is not stated: a free value. -/
def auditKeyOf (live : Option Nat) (life : Nat) : Option (List Byte) := rootSecret live life "TLTR AUDIT KEY01" ((Config.freeValue 1).toNat % 4)

/-- The octets of words 0 to 5 of an entry. -/
def AuditEntry.body (e : AuditEntry) : List Byte :=
  [e.w0, e.w1, e.w2, e.w3, e.w4, e.w5].flatMap (fun w => leBytes 8 w.toNat)

/-- An entry without its MAC (R537), at a tick count and a working time in s and ns. -/
def auditEntry (seq : Word) (tick sec ns origin kind cluster unit op target : Nat) (old new : DWord) : AuditEntry := {
  w0 := BitVec.ofNat 64 (seq.toNat * 2 ^ 32 + (origin % 16) * 2 ^ 28 + (kind % 16) * 2 ^ 24 + (cluster % 256) * 2 ^ 16 + (unit % 256) * 2 ^ 8 + op % 256)
  w1 := BitVec.ofNat 64 tick
  w2 := BitVec.ofNat 64 sec
  w3 := BitVec.ofNat 64 (ns * 2 ^ 32 + target % 2 ^ 32)
  w4 := old
  w5 := new
  mac := 0 }

/-- An entry joins the log: its MAC chains on the last one (R538), and the newest overwrites the oldest of 16,384 (R539). -/
def Audit.append (a : Audit) (key : Option (List Byte)) (e : AuditEntry) : Audit :=
  let mac : BitVec 128 := key.elim 0 (fun k => BitVec.ofNat 128 (beNat (cmac k (e.body ++ beBytes 16 a.lastMac.toNat))))
  { a with entries := ({ e with mac := mac } :: a.entries).take 16384, next := a.next + 1, lastMac := mac }

/-- The MAC the chain starts from (R538), zero without a live root. -/
def chainStartOf (key : Option (List Byte)) (epoch tick : Nat) : BitVec 128 :=
  key.elim 0 (fun k => BitVec.ofNat 128 (beNat (cmac k (ascii "TLTRAUD1" ++ uidBytes ++ beBytes 8 epoch ++ beBytes 8 tick))))

/-- LOG_START, SEQ 0 (R538): NEW_HASH holds RAW_EPOCH itself, and no value stands before it. -/
def logStart (epoch tick sec ns : Nat) : AuditEntry := auditEntry 0 tick sec ns 10 8 0x71 0 0 0 0 (BitVec.ofNat 64 epoch)

/-- The log as a boot starts it. -/
def Audit.started (key : Option (List Byte)) (epoch tick sec ns : Nat) : Audit :=
  let start := chainStartOf key epoch tick
  (⟨[], 0, start, start⟩ : Audit).append key (logStart epoch tick sec ns)

end Sys2Proof.Machine
end

