-- ==== Sys2Proof/Machine/State.lean ====
section
/-! DEFINITION. The state of the device as plain data: the main die, cluster by cluster, the Heartwood die, and the
queue of commands that wait. -/
namespace Sys2Proof.Machine

/-! ## Stops -/

/-- The machine stops with a fault. No rule of the spec leaves the block without an effect on a well-formed command,
so no meaning raises one. -/
inductive Fault where
  /-- Raised by no meaning: the type has one name so that the interface has a fault to speak of. Safe. -/
  | none
  deriving DecidableEq, Repr

/-- A command has no meaning. -/
inductive Refusal where
  /-- Raised by the dispatch for a command whose meaning is not written yet. Safe: nothing can be proved of it. -/
  | notModelled (mnemonic : String)
  deriving DecidableEq, Repr

/-! ## Basjo: rings, event queues, vectors (R48 to R79) -/

/-- A command of a CMD ring that runs on after its start (R67): its descriptor and OP. -/
structure Running where
  desc : CmdDesc
  op : Nat
  /-- The moment it started, raw time in 1/256 ticks. -/
  since : Nat
  deriving DecidableEq, Repr

/-- A command at the head of its ring that waits for its unit (R67): its descriptor, and the raw time and the number of its arrival. -/
structure CmdWait where
  desc : CmdDesc
  at_ : Nat
  arrival : Nat
  deriving DecidableEq, Repr

/-- What a ring holds beside its registers. -/
structure RingRun where
  /-- EVT: the next SEQ (R76). -/
  seq : Word
  /-- EVT: records discarded since the last EVENT_OVERFLOW (R77). -/
  lostSince : Word
  /-- The ring stopped at an entry (R57) and waits for ENABLE to fall and rise. -/
  stopped : Bool
  /-- TX: the descriptors of the frame being read, oldest first, and its ingress stamp (R58, R61). -/
  descs : List TxDesc
  stamp : Nat
  /-- TX: the rest of an overlong frame is being rejected (R61). -/
  rejecting : Bool
  /-- TX: turns the ring has had in this round (R58). -/
  turns : Nat
  /-- CMD: the command that runs (R67), and the one that waits for its unit. -/
  running : Option Running
  waiting : Option CmdWait
  /-- TX: the place of the frame being read in the port's ingress order (R58), and its launch time (R60). -/
  order : Nat
  launch : Option Int
  /-- RX: the buffers posted and not filled yet, oldest first (R62). -/
  posted : List RxBuf
  deriving DecidableEq, Repr

/-- A ring just enabled (R56). -/
def RingRun.idle : RingRun := ⟨0, 0, false, [], 0, false, 0, none, none, 0, none, []⟩

/-- A pop queue (R78): its records, oldest first, its next SEQ and the records lost since EVENT_OVERFLOW. -/
structure PopQueue where
  recs : List (BitVec 256)
  seq : Word
  lostSince : Word
  deriving DecidableEq, Repr

/-- An empty pop queue. -/
def PopQueue.idle : PopQueue := ⟨[], 0, 0⟩

/-- An MSI-X vector (R74, R75): its table entry, its mask and pending bits, the records counted since its last message
and the raw time of the first of them. -/
structure Vector where
  addr : DWord
  data : Word
  masked : Bool
  pending : Bool
  count : Nat
  since : Nat
  deriving DecidableEq, Repr

/-- A vector after the function's reset: masked, nothing counted. -/
def Vector.idle : Vector := ⟨0, 0, true, false, 0, 0⟩

/-- The MSI-X capability of a host port: its Enable bit and its function mask (R74). -/
structure MsixFn where
  enable : Bool
  mask : Bool
  deriving DecidableEq, Repr

/-- A record that is raised at most once per interval: the raw time of the last one and the occurrences since. -/
structure RateRec where
  last : Option Nat
  count : Nat
  deriving DecidableEq, Repr

/-- Nothing raised yet. -/
def RateRec.idle : RateRec := ⟨none, 0⟩

/-- The host interface. -/
structure Basjo where
  /-- The registers of the BASJO block (R48). -/
  regs : Store Word
  /-- Rings, by 128 h + r; the transmit rings of Canopy are 256 + r and its receive rings 264 + c (R473, R474). -/
  rings : Store RingRun
  /-- Pop queues, by 4 h + n. -/
  pops : Store PopQueue
  /-- Vectors, by 64 h + v. -/
  vecs : Store Vector
  /-- MSI-X capability, by h. -/
  msix : Store MsixFn
  /-- Host memory as far as the device has written it, by 2^64 h + address, with the shared SRAM of Canopy as h = 2
  (R473); an octet it has not written reads zero. -/
  mem : Store Byte
  /-- The messages sent, newest first: host port and vector. -/
  msgs : List (Nat × Nat)
  /-- Records under an interval, by a key of class, cause, unit and the rest. -/
  rate : Store RateRec
  /-- Host port h drops the frames selected from its queues: its link went down or its function was reset, and no ring
  has been enabled since (R79). -/
  dead : Store Bool
  /-- The link of host port h is up, whatever HOST_STATUS reads (R79). -/
  up : Store Bool
  /-- The next place in the ingress order of frames read from the hosts (R58), and the number the next command that waits for its
  unit takes (R67). -/
  order : Nat
  arrivals : Nat
  deriving DecidableEq, Repr

/-! ## Cambium (R252 to R283) -/

/-- Raw time and working time beside the Cambium registers. -/
structure Cambium where
  /-- RAW72: raw time in 1/256 ticks. -/
  raw : Nat
  /-- The anchor Taproot holds (R255): the raw value and coarse count of the last edge; none after a loss of VAON. -/
  anchor : Option (Nat × Nat)
  /-- Taproot's coarse count, rising edges of 32.768 kHz. -/
  coarse : Nat
  /-- The TIME PLL has relocked and counting resumes at the next coarse edge (R254). -/
  relocked : Bool
  /-- OFF in 2^-16 ns (R264), and the raw time at which it had that value. -/
  off : Int
  offAt : Nat
  /-- The raw time the sync receipt timer of domain d last started, while it runs (R263). -/
  sync : Store (Option Nat)
  /-- The raw time domain d counts as out of LOCKED from (R271). -/
  outSince : Store Nat
  /-- The raw time of the last edge recorded on capture input k (R276). -/
  capLast : Store (Option Nat)
  /-- Pulse output k: the working time of its next edge in 2^-16 ns, and whether the output is high. -/
  pps : Store (Option (Int × Bool))
  /-- The Sapwood time wire is high (R279). -/
  wireHigh : Bool
  /-- Rows written of the epoch area (R257). -/
  epochRows : Nat
  /-- The TIME domain has been off and the counter has not loaded its continuation yet (R255). -/
  timeOff : Bool
  deriving DecidableEq, Repr


/-! ## Burl (R352 to R400) -/

/-- The words of a key slot (R376), unpacked: STATE 0 EMPTY, 1 LIVE, 3 RETIRED. -/
structure KeySlot where
  state : Nat
  usage : Nat
  key256 : Bool
  depth : Nat
  owner : Nat
  parent : Nat
  gen : Word
  parentGen : Word
  nonceFixed : Word
  invocation : Nat
  key : BitVec 256
  creator : Nat
  source : Nat
  tag : Word
  deriving DecidableEq, Repr

/-- An empty slot. -/
def KeySlot.empty : KeySlot := ⟨0, 0, false, 0, 0, 0, 0, 0, 0, 0, 0, 0, 0, 0⟩

/-- The frame or operation a use of a key belongs to: a frame received, by its number; the transmission of a stored frame on a port; an
operation of the authenticated-CAN engine; the running cipher job. -/
inductive UseOwner where
  | rx (n : Nat)
  | tx (port frame : Nat)
  | can
  | job
  deriving DecidableEq, Repr

/-- A use of a key that has begun and not ended (R379): the slot, the slots of its chain, and when it began, as a
number that rises with every use and change. -/
structure KeyUse where
  owner : UseOwner
  serial : Nat
  slot : Nat
  chain : List Nat
  /-- The SA a MACsec frame was issued under. -/
  sa : Option Nat
  /-- The raw time at which it ends, where it does not end with a frame. -/
  ends : Option Nat
  deriving DecidableEq, Repr

/-- A change of a slot that has taken effect, whose command completes when the uses that began before it have ended
(R381). -/
structure KeyChange where
  slot : Nat
  /-- Uses numbered below this began before the change. -/
  serial : Nat
  /-- The command that completes with it, its OP and the cause of its KEY_OP_DONE. -/
  desc : CmdDesc
  op : Nat
  cause : Nat
  deriving DecidableEq, Repr

/-- A slot that an uncorrectable error has emptied while uses of it run (R383): it is reclaimed when those numbered below `serial` have
ended. -/
structure KeyReclaim where
  slot : Nat
  serial : Nat
  deriving DecidableEq, Repr

/-- The cipher job that runs (R367): its command and OP, the slot, the key and the nonce it began with, and what its completion
returns (R369). -/
structure JobRun where
  desc : CmdDesc
  op : Nat
  slot : Nat
  key : List Byte
  nonce : List Byte
  ra : Nat
  rb : Nat
  deriving DecidableEq, Repr

/-- SAs unmapped by SA_CLEAR or SC_CLEAR that frames in a pipe still use, and the command that completes with the last (R366). -/
structure SaClear where
  sas : List Nat
  desc : CmdDesc
  op : Nat
  deriving DecidableEq, Repr

/-- A MACsec secure channel (R358): `sas` the SA of AN 0 to 3. -/
structure SecChannel where
  tx : Bool
  xpn : Bool
  conf : Bool
  enc : Option Nat
  port : Nat
  sas : Store (Option Nat)
  sci : DWord
  deriving DecidableEq, Repr

/-- A MACsec secure association (R358). -/
structure SecAssoc where
  slot : Nat
  sc : Nat
  an : Nat
  exhausted : Bool
  ssci : Word
  pn : Nat
  salt : BitVec 96
  frames : Word
  deriving DecidableEq, Repr

/-- The key store, the MACsec tables and the roots. -/
structure Burl where
  /-- Slots 0 to 575 (R375). -/
  slots : Store KeySlot
  /-- The live root register: the root it holds (R384), by number. -/
  liveRoot : Option Nat
  /-- Uses in progress, oldest first, and the next use's number. -/
  uses : List KeyUse
  serial : Nat
  changes : List KeyChange
  reclaims : List KeyReclaim
  job : Option JobRun
  scs : Store (Option SecChannel)
  sas : Store (Option SecAssoc)
  clears : List SaClear
  /-- Generate requests since the last reseed (R392). -/
  generates : Nat
  /-- Attempts at creating the roots (R384). -/
  rootTries : Nat
  /-- The fuses: life cycle (R385), tamper (R396), ROOTS_DONE, UNAVAILABLE sources latched in always-on flops. -/
  fuseLife : Nat
  fuseTamper : Bool
  fuseRoots : Bool
  tamperLatch : BitVec 5
  /-- The tick count of the assertion latched last (R399). -/
  tamperAt : Nat
  deriving DecidableEq, Repr

/-! ## The path of a frame (R31): reception, verdict, stored frames -/

/-- How the connection table answers a frame (R295, R300): no part in it, an entry's slot with the side the frame came
from, or an entry to be made when the frame passes stage 6. -/
inductive ConnPlan where
  | none
  | hit (slot : Nat) (fromA : Bool)
  | create (state : Nat)
  deriving DecidableEq, Repr

/-- What the source lookup of stage 5 leads to (R163): nothing, a learn, or a conflict with an entry that stands on `old`. -/
inductive Learn where
  | none
  | new
  | conflict (old : Nat)
  deriving DecidableEq, Repr

/-- What stages 2 to 5 decided about a frame. -/
structure Verdict where
  /-- The 128 octets of the key (R114). -/
  key : List Byte
  /-- The slow-path cause (R117). -/
  divert : Option Nat
  /-- The version tag (R140). -/
  tag : Option Nat
  /-- The word address of the matched rule, or of the version header for the default actions; and the RULE_ID. -/
  rule : Option Nat
  ruleId : Option Nat
  actA : DWord
  actB : DWord
  vid : Nat
  tc : Nat
  /-- 0 green, 1 yellow, 2 red. -/
  colour : Nat
  meter : Option Nat
  /-- The meter made the frame red under DROP_YELLOW (R225). -/
  yellowDrop : Bool
  /-- The egress bitmap, and the REASON of R62. -/
  bitmap : Nat
  reason : Nat
  mirror : Option Nat
  /-- The counter of the stage that dropped the frame, by its address. -/
  drop : Option Nat
  /-- The DENY_LOG cause of a drop by Bark (R293), or 0. -/
  deny : Nat
  /-- Targets Bark removed (R287). -/
  zoneBlocked : Nat
  walkErr : Bool
  daMiss : Bool
  learn : Learn
  conn : ConnPlan
  /-- No lookup in the connection table (0), a hit (1) or a miss (2). -/
  lookup : Nat
  deriving DecidableEq, Repr

/-- What MACsec reception decides when a frame's SecTAG and first block arrive (R359, R360): the frame is not protected, it will be discarded
and counted at this offset of the port's registers (with the SA, and the slot whose use was refused), or it has a key context under an SA:
PN and AN, the SCI its SecTAG carried (0 where it carried none), the key and the nonce (R354). -/
inductive SecOpen where
  | plain
  | discard (off : Nat) (sa refused : Option Nat)
  | keyed (sa pn an sci : Nat) (key nonce : List Byte)
  deriving DecidableEq, Repr

/-- What MACsec made of a whole frame (R359): it is not protected, it will be discarded and counted at this offset of the port's registers, or it was decrypted under an SA with this PN and AN,
with the SCI its SecTAG carried (0 where it carried none), and its ICV verifies or not. -/
inductive SecIn where
  | plain
  | discard (off : Nat) (sa refused : Option Nat)
  | pass (sa pn an sci : Nat) (icvOk : Bool)
  deriving DecidableEq, Repr

/-- Cells of a frame taken at one time (R182): the number of the run, how many, and the places of the banks lost by then, in which none
is taken (R184). -/
structure CellRun where
  no : Nat
  n : Nat
  lost : List Nat
  deriving DecidableEq, Repr

/-- A frame between its first octet and its enqueue. -/
structure RxFrame where
  inPort : Nat
  /-- From the destination address to the end of the data, without FCS; decrypted where reception decrypted it. -/
  octets : List Byte
  /-- L of R222: the octets from destination address to FCS; no FCS on P36 to P39. -/
  len : Nat
  /-- The ingress stamp, raw time in 1/256 ticks. -/
  stamp : Nat
  /-- The ring group of a host frame, or the channel of a Roots frame (R284). -/
  group : Nat
  launch : Option Int
  /-- On-chip cells it holds (R186), and the chain they form (R182). -/
  cells : Nat
  chain : List CellRun
  /-- Its number, and the Grove that runs its stages 2 to 5 (R27, R480). -/
  no : Nat
  grove : Nat
  /-- Past MAX_LEN (R84). -/
  oversize : Bool
  sec : SecIn
  verdict : Option Verdict
  /-- A bucket read of the connection table is outstanding (R306). -/
  waiting : Bool
  deriving DecidableEq, Repr

/-- A frame stored in the Trunk (R182, R191), and how its descriptors describe it. -/
structure Stored where
  inPort : Nat
  octets : List Byte
  len : Nat
  stamp : Nat
  tag : Option Nat
  colour : Nat
  stream : Option Nat
  rule : Option Nat
  vid : Nat
  /-- The frame was classified to a VLAN: it was not diverted by the parser. -/
  vidValid : Bool
  tc : Nat
  /-- The source zone (R284), for the test of R287 where Roots delivers the frame. -/
  zone : Nat
  launch : Option Int
  refs : Nat
  /-- On-chip cells it holds, and the chain they form (R182). -/
  cells : Nat
  chain : List CellRun
  /-- A word of it was read with an uncorrectable error as it was spilled (R185). -/
  spoiled : Bool
  deriving DecidableEq, Repr

/-! ## Trunk (R181 to R218) -/

/-- Where a queued frame is: on chip, being spilled, in the overflow region, in a fill read, or filled (R205, R207). -/
inductive Loc where
  | chip
  | spilling
  | ovf
  | filling
  deriving DecidableEq, Repr

/-- A descriptor of a queue. -/
structure Desc where
  seq : BitVec 16
  frame : Nat
  reason : Nat
  loc : Loc
  /-- The frame came back from the overflow region: it is held in its port's resequencer until its turn. -/
  filled : Bool
  /-- The number of the run of external cells its spilled frame occupies (R203): the first is Config.extAt of it. -/
  ext : Nat
  deriving DecidableEq, Repr

/-- A queue: its descriptors in SEQ order, the raw time its resequence timer started, and the frame Crown last
chose from it. -/
structure TrunkQueue where
  descs : List Desc
  timer : Option Nat
  deriving DecidableEq, Repr

/-- A bank of cell memory that retires (R184): whether a spare takes over, its place among the 16 in service, and the bank. -/
structure Retire where
  spare : Bool
  place : Nat
  bank : Nat
  deriving DecidableEq, Repr

/-- The shared buffer. -/
structure Trunk where
  frames : Store (Option Stored)
  /-- The number the next stored frame takes. -/
  nextId : Nat
  queues : Store TrunkQueue
  /-- BUFFER_PRESSURE causes 1, 3 and 5 raised and not yet left (R215). -/
  press : Bool
  descPress : Bool
  ovfPress : Bool
  /-- Frames spilled and filled, with their raw times and octets, for the limit of R206. -/
  spills : List (Nat × Nat)
  fills : List (Nat × Nat)
  /-- Spare banks left, and the banks that retire, oldest first (R184). -/
  spareBanks : Nat
  retiring : List Retire
  /-- The banks lost whose cells frames still hold: a bank leaves the free list when the last of them is gone. The places of all
  banks lost. -/
  leaving : List Retire
  lost : List Nat
  /-- The place a spare bank, 16 or 17, has taken. -/
  spareAt : Store (Option Nat)
  /-- The number the next run of cells, run of external cells or received frame takes. -/
  nextChain : Nat
  /-- The microseconds of raw time from which AVG moves again (R196) and the scan of stale frames runs again (R214). -/
  avgUs : Nat
  staleUs : Nat
  deriving DecidableEq, Repr

/-- A frame Crown chose, being transmitted: its queue, descriptor and frame, the octets on the wire, whether its FCS is
to be inverted, whether the frame is preemptable, and when it started. -/
structure TxRun where
  queue : Nat
  seq : BitVec 16
  frame : Nat
  reason : Nat
  octets : List Byte
  len : Nat
  badFcs : Bool
  preemptable : Bool
  preempted : Bool
  start : Nat
  /-- The octets sent in the fragments before, and the raw time the present one began (R96). -/
  sent : Nat
  since : Nat
  deriving DecidableEq, Repr

/-! ## Crown (R219 to R251) -/

/-- A queue's shaper and start tag: committed bucket (or credit) and peak bucket in 1/102,400,000 octet as they stood
at raw time `upd`, and the tag S. -/
structure CrownQueue where
  c : Int
  p : Int
  upd : Nat
  tag : Nat
  /-- The queue was eligible at the last choice (R228). -/
  was : Bool
  deriving DecidableEq, Repr

/-- A pending list change (R238): the change time in 2^-16 ns, length, cycle and cause of GATE_LIST_SWAP, and, where
the cycle before it is extended (R241), the time from which the states in force hold. -/
structure GatePending where
  cct : Int
  len : Nat
  cycle : Nat
  cause : Nat
  hold : Option Int
  deriving DecidableEq, Repr

/-- A port's gate list machine: the operational bank, the base of the running list and the pending change. -/
structure GateRun where
  bank : List DWord
  base : Int
  pending : Option GatePending
  /-- A hold on the preemptable MAC (R237). -/
  held : Bool
  deriving DecidableEq, Repr

/-- One sample of a queue (R247). -/
structure QSample where
  tick : Nat
  octets : Nat
  frames : Nat
  age : Nat
  deriving DecidableEq, Repr

/-- A queue's samples: the last 64, newest first, and the samples of the window in progress. -/
structure QHist where
  last : List QSample
  win : List QSample
  deriving DecidableEq, Repr

/-- Crown. -/
structure Crown where
  /-- Queues by q. A queue not listed has full buckets since raw time 0. -/
  queues : Store (Option CrownQueue)
  /-- The virtual time of a port (R228). The 48-bit wrap of V and the tags has no effect, so they are kept unbounded. -/
  vtime : Store Nat
  /-- The frames in transmission, by port; a frame preempted in favour of the one in transmission. -/
  tx : Store (Option TxRun)
  paused : Store (Option TxRun)
  gates : Store GateRun
  hist : Store QHist
  /-- By port, the tick of the last sample, or of the last one before SAMPLE_CTL.EN rose (R247). -/
  sampleAt : Store Nat
  deriving DecidableEq, Repr

/-! ## Ports (R80 to R112) -/

/-- A second not yet counted (R110): its number, its errored frames, and how it qualifies. -/
structure LqSecond where
  k : Nat
  errored : Nat
  es : Bool
  ses : Bool
  uas : Bool
  deriving DecidableEq, Repr

/-- A preemptable frame in reassembly (R98): its octets, frame count, next fragment count, the stamp of its first fragment, the
cells it holds, its number, and its key context once its SecTAG and first block have arrived (R354). -/
structure Reasm where
  octets : List Byte
  count : Nat
  next : Nat
  stamp : Nat
  cells : Nat
  chain : List CellRun
  no : Nat
  sec : Option SecOpen
  /-- There were too few cells: the frame is counted in RX_NOBUF, and followed to its end only. -/
  dropped : Bool
  deriving DecidableEq, Repr

/-- What a port holds beside its registers. -/
structure PortRun where
  /-- The raw time at which LOCK last changed. -/
  lockAt : Nat
  /-- The verify mPackets sent since the link entered UP (R97), and the raw time of the last. -/
  attempts : Nat
  verifyAt : Nat
  /-- The frame in reassembly (R98). -/
  reasm : Option Reasm
  /-- The raw time of the last BEACON (R101). -/
  beaconAt : Nat
  /-- The second in progress: errored frames, frames, a loss of lock, an instant without lock; EN since its start. -/
  errs : Nat
  good : Nat
  lost : Bool
  noLock : Bool
  whole : Bool
  seconds : List LqSecond
  /-- The number of the second in progress (R107). -/
  second : Nat
  deriving DecidableEq, Repr

/-- A port not in service. -/
def PortRun.idle : PortRun := ⟨0, 0, 0, none, 0, 0, 0, false, true, false, [], 0⟩

/-! ## Groves (R113 to R180) -/

/-- A forwarding entry (R150). -/
structure FdbEntry where
  isStatic : Bool
  group : Bool
  vid : Nat
  mac : Nat
  holdEnd : Nat
  winStart : Nat
  moves : Nat
  hold : Bool
  age : Nat
  origin : Nat
  dest : Nat
  stamp : Nat
  /-- Grove 0: a refusal under the present hold has been reported (R172). -/
  refused : Bool
  deriving DecidableEq, Repr

/-- A message of the learning ring (R168). -/
structure LearnMsg where
  hold : Bool
  vid : Nat
  mac : Nat
  stamp : Nat
  origin : Nat
  port : Nat
  holdEnd : Nat
  deriving DecidableEq, Repr

/-- A COMMIT whose checks have passed (R144): its descriptor, extent, header and label, when it started waiting and for how
long, and the slot and cycle T once the token is issued. -/
structure CommitRun where
  desc : CmdDesc
  base : Nat
  len : Nat
  hdr : Nat
  label : Word
  since : Nat
  timeout : Nat
  token : Option (Nat × Nat)
  deriving DecidableEq, Repr

/-- A flow meter's parameters (R224). -/
structure Meter where
  en : Bool
  cm : Bool
  dropYellow : Bool
  cir : Nat
  pir : Nat
  cbs : Nat
  pbs : Nat
  deriving DecidableEq, Repr

/-- A meter that no METER_SET has written. -/
def Meter.idle : Meter := ⟨false, false, false, 0, 0, 0, 0⟩

/-- A Grove's buckets of a meter, in 1/102,400,000 octet as they stood at raw time `upd`, and its counts. -/
structure MeterRun where
  c : Int
  p : Int
  upd : Nat
  green : Word
  yellow : Word
  red : Word
  deriving DecidableEq, Repr

/-- The buckets of a meter that no METER_SET has written. -/
def MeterRun.idle : MeterRun := ⟨0, 0, 0, 0, 0, 0⟩

/-- The four Groves. -/
structure Groves where
  /-- The replicas: entry at 262144 g + slot; way 0 at 0, way 1 at 65536, the stash at 131072. -/
  fdb : Store (Option FdbEntry)
  victim : Store Nat
  /-- The messages each Grove has to send, those it forwards first. -/
  out : Store (List LearnMsg)
  /-- The tick count of the last ageing tick, plus one. -/
  aged : Nat
  commit : Option CommitRun
  meters : Store Meter
  meterRuns : Store MeterRun
  /-- Slow-path policers, by 16 g + cause: tokens in 1/102,400,000,000 frame, and the raw time they stood so. -/
  slow : Store (Option (Int × Nat))
  deriving DecidableEq, Repr

/-! ## Bark (R284 to R315) -/

/-- A connection entry (R298); `v6` entries hold the slot after theirs. -/
structure Conn where
  kind : Nat
  v6 : Bool
  doip : Bool
  state : Nat
  zoneA : Nat
  zoneB : Nat
  vid : Nat
  portA : Nat
  portB : Nat
  addrA : Nat
  addrB : Nat
  lastMs : Nat
  gen : Nat
  ruleId : Nat
  framesA : Word
  framesB : Word
  deriving DecidableEq, Repr

/-- Deny and insertion counts of a zone in its present window (R312). -/
structure Anomaly where
  window : Nat
  deny : Nat
  inserts : Nat
  denyRaised : Bool
  newRaised : Bool
  deriving DecidableEq, Repr

/-- A line of the connection cache (R297): the first slot of an entry, the ways it takes, and whether it differs from what its
bucket in external memory holds. -/
structure CacheLine where
  slot : Nat
  ways : Nat
  dirty : Bool
  deriving DecidableEq, Repr

/-- The firewall. -/
structure Bark where
  /-- Entries by 8 bucket + slot; the second slot of an IPv6 pair holds none of its own. -/
  conns : Store (Option Conn)
  /-- The lines each cache set holds, most recent first (R297). -/
  cache : Store (List CacheLine)
  /-- The raw times at which the insertions queued end, oldest first (R301). -/
  inserts : List Nat
  /-- The last record and the suppressed count of each RULE_ID; 65536 for the default actions (R292). -/
  logs : Store (Option Nat × Nat)
  /-- Rate limiters in 1/102,400,000 octet, and the raw time they stood so. -/
  limits : Store (Option (Int × Nat))
  /-- The window and the accepted frames of each CAN_FILTER entry (R310). -/
  canWin : Store (Nat × Nat)
  anomaly : Store Anomaly
  pressed : Bool
  /-- The bucket the sweeper visits next (R303), and the buckets swept since the last GEN increment, or a full pass where there was
  none (R304). -/
  sweepAt : Nat
  sweeps : Nat
  /-- The flush that waits for a full pass (R304). -/
  flushing : Option CmdDesc
  /-- Whether the GEN increment of a long sleep waits for a full pass (R304). -/
  genDue : Bool
  deriving DecidableEq, Repr

/-! ## Outputs -/

/-- What leaves the device on its pins and wires, beside register-visible state. -/
inductive Output where
  /-- A frame sent on an Ethernet port, from destination address to the end of its data; whether its FCS is right, and
  the raw time of its timestamp point. -/
  | frame (port : Nat) (octets : List Byte) (fcsOk : Bool) (at_ : Nat)
  /-- A verify mPacket, or the response to one (R97, R98). -/
  | mpacket (port : Nat) (response : Bool)
  /-- A BEACON of a PLCA coordinator, with the nodes its cycle serves (R100). -/
  | beacon (port nodes : Nat)
  /-- A frame on a CAN channel; the secondary sample point of its data phase, in LEGACY periods after the edge measured, and the pulse
  widths PWMS, PWML and PWMO that code its data phase, where the channel uses them (R319). -/
  | can (channel : Nat) (frame : CanFrame) (sample : Option Nat) (pulse : Option (Nat × Nat × Nat))
  /-- A header on a LIN channel, alone or with the octets and the checksum of its response. -/
  | lin (channel id : Nat) (response : Option (List Byte × Nat))
  /-- An MDIO write. -/
  | mdio (master phy dev reg data : Nat)
  /-- A wire or pin by name, and its level. -/
  | pin (name : String) (level : Nat)
  /-- A message from Basjo's event path that leaves on another bus: an interrupt of a Canopy target or of Heartwood. -/
  | irq (name : String) (n : Nat)
  deriving DecidableEq, Repr

/-! ## Roots (R316 to R351) -/

/-- A frame in a CAN transmit queue, and the raw time it entered (R322). -/
structure CanWait where
  frame : CanFrame
  since : Nat
  deriving DecidableEq, Repr

/-- The error counters of a CAN channel as ISO 11898-1 keeps them (R320), and whether it recovers from bus-off. -/
structure CanErrs where
  tx : Nat
  rx : Nat
  recovering : Bool
  deriving DecidableEq, Repr

/-- A response that a commander awaits: its identifier, its deadline, and the checksum kind of its slot (R325, R327). -/
structure LinWait where
  id : Nat
  till : Nat
  enh : Bool
  deriving DecidableEq, Repr

/-- What a LIN channel holds beside its registers (R327): the entry of the next slot, a switch that waits, when the slot in
progress started and how long it lasts, and the responses awaited, oldest first. -/
structure LinRun where
  next : Nat
  switching : Bool
  slotAt : Option (Nat × Nat)
  waiting : List LinWait
  deriving DecidableEq, Repr

/-- A LIN channel not in a schedule. -/
def LinRun.idle : LinRun := ⟨0, false, none, []⟩

/-- An open batch of an encapsulation stream (R338): its messages, the channel of the first one and the raw time it opened. -/
structure Batch where
  octets : List Byte
  group : Nat
  since : Nat
  deriving DecidableEq, Repr

/-- An authenticated-CAN entry (R341), and whether its exhaustion has been raised (R344). -/
structure AuthEntry where
  generate : Bool
  slot : Nat
  authLen : Nat
  macLen : Nat
  fvTx : Nat
  fvWidth : Nat
  fv : Nat
  window : Nat
  fails : Word
  raised : Bool
  deriving DecidableEq, Repr

/-- The legacy gateway. -/
structure Roots where
  /-- The transmit queues, oldest frame first. -/
  canq : Store (List CanWait)
  errs : Store CanErrs
  /-- By channel, the frame that one held in listen-only still sends (R520, R527). -/
  ending : Store (Option CanWait)
  lin : Store LinRun
  /-- The routing table (R331), by 8 bucket + slot: words 0, 1 and 2. -/
  routes : Store (Option (DWord × DWord × DWord))
  auth : Store (Option AuthEntry)
  /-- The operations queued in the authenticated-CAN engine (R345): the raw times at which they end, oldest first. -/
  authq : List Nat
  batches : Store (Option Batch)
  /-- Closed batches that wait for P39, oldest first: channel and octets. -/
  closed : List (Nat × List Byte)
  deriving DecidableEq, Repr

/-! ## Taproot (R477 to R501) -/

/-- A record held in always-on flops until the device is awake (R500): class, cause, payloads. -/
structure HeldRec where
  cls : Nat
  cause : Nat
  a : Nat
  b : Nat
  deriving DecidableEq, Repr

/-- Taproot beside its registers. -/
structure Tap where
  /-- The raw time the timer of an NM source last restarted, while it runs (R490). -/
  nm : Store (Option Nat)
  /-- When the present COUNTING, or the commit, began, and the coarse count of the commit point. -/
  since : Nat
  commitCoarse : Nat
  /-- Bark has reported CLEAN (R492). -/
  clean : Bool
  /-- The only AWAKE vote and the raw time since it is (R496), and whether its episode has raised cause 0x006. -/
  sole : Option (Nat × Nat)
  soleRaised : Bool
  /-- The core is off between sleep entry and the next PWR_GOOD; raw time PWR_REQ fell; whether it is low. -/
  asleep : Bool
  offAt : Nat
  powerLow : Bool
  /-- PWR_REQ has risen again for a latched request. -/
  waking : Bool
  /-- The mode held at the commit point. -/
  heldMode : Nat
  /-- The save region holds what the last STANDBY entry wrote (R487). -/
  saved : Bool
  /-- The wake sources under validation and the end of their windows (R497). -/
  validating : List (Nat × Nat)
  /-- The start and the count of a source's window of false wakes (R498). -/
  fwWin : Store (Option (Nat × Nat))
  held : List HeldRec
  /-- MODE_SET waits for a Grove to copy (R481): the Groves that copy, and the command with its target. -/
  copying : List Nat
  modeCmd : Option (CmdDesc × Nat)
  /-- The tick count and the coarse count at which PWR_REQ last rose from sleep (R484). -/
  rise : Nat × Nat
  /-- Ports in FAST_UP that have not locked since the wake (R488). -/
  fastUp : List Nat
  deriving DecidableEq, Repr

/-! ## Canopy (R457 to R476) -/

/-- A pair beside its registers: the raw times of its recent mismatches, of its last checkpoint, and whether cause 0x006 has
been raised since. -/
structure PairRun where
  mismatches : List Nat
  ckptAt : Nat
  overdue : Bool
  deriving DecidableEq, Repr

/-- A pair at the start. -/
def PairRun.idle : PairRun := ⟨[], 0, false⟩

/-- Canopy beside its registers: the pairs, the raw time each watchdog (pairs 0 to 2, cores 3 to 6) last restarted, and the interrupts held
pending while a pair recovers, oldest first (R464). -/
structure Canopy where
  pairs : Store PairRun
  kicks : Store Nat
  irqs : List (String × Nat)
  deriving DecidableEq, Repr

/-! ## RAS (R522 to R532) -/

/-- What RAS counts of a unit: corrected errors in the window and in all, uncorrectable errors, whether the window has warned,
whether the unit is retired, and the unit it replaced or was replaced by. -/
structure RasUnit where
  win : Nat
  total : Nat
  ue : Nat
  warned : Bool
  retired : Bool
  other : Option Nat
  deriving DecidableEq, Repr

/-- A unit with nothing counted. -/
def RasUnit.idle : RasUnit := ⟨0, 0, 0, false, false, none⟩

/-- The proof test that runs (R532): its command, the ports of its mask still to test, the one in loopback first, and those that failed. -/
structure ProofRun where
  desc : CmdDesc
  left : List Nat
  failed : Nat
  deriving DecidableEq, Repr

/-- RAS and the redundant pair of devices beside their registers. -/
structure Ras where
  /-- Units, by 256 cluster + unit. -/
  units : Store RasUnit
  /-- Corrected errors of the window by Trunk bank, and the banks retired as a bitmap. -/
  banks : Store Nat
  banksOut : Nat
  /-- Corrected errors of the window by Bough row, 16384 Grove + row, and the rows retired of each Grove. -/
  rows : Store Nat
  rowsOut : Store Nat
  /-- The number of the window counted in (R524). -/
  window : Nat
  /-- The raw times of the last edge on HB_IN and of the last valid partner frame, and the next HB_SEQ (R528, R529). -/
  edgeAt : Nat
  frameAt : Nat
  seq : Word
  /-- The raw times of the last heartbeat sent and of the last scrub pass (R523, R528). -/
  beatAt : Option Nat
  scrubAt : Option Nat
  proof : Option ProofRun
  deriving DecidableEq, Repr

/-! ## Sapwood and Heartwood (R401 to R456) -/

/-- A main-side transfer accepted by the bridge (R447): a write's value, or none for a read; the raw time it was accepted at; and whether
its initiator still waits for it, for a core that is reset abandons its reads (R464, R470). -/
structure SapXfer where
  acc : Acc
  addr : Nat
  data : Option Word
  since : Nat
  live : Bool
  deriving DecidableEq, Repr

/-- How a main-side transfer ended: without error or not, backed off or not, and the data of a read. -/
structure SapEnd where
  ok : Bool
  backoff : Bool
  data : Word
  deriving DecidableEq, Repr

/-- The bridge beside its registers: the transfers accepted, in order of arrival, the timeouts in a row, how the last
transfer ended, and the configuration address of the last that failed. -/
structure Sap where
  queue : List SapXfer
  timeouts : Nat
  last : Option SapEnd
  failed : Nat
  /-- Cause 0x004 has been raised and the heartbeat has not toggled since; and the raw time of its last toggle (R453). -/
  silent : Bool
  beat : Nat
  /-- The level of the wire HW_RST, which Heartwood drives and no reset of the main die changes (R450, R452). -/
  rst : Bool
  deriving DecidableEq, Repr

/-- A notice of Heartwood (R427, R442): class, unit, cause and payloads. -/
structure HwNotice where
  cls : Nat
  unit : Nat
  cause : Nat
  a : Nat
  b : Nat
  deriving DecidableEq, Repr

/-- A sensor link (R428 to R444). -/
structure HwLink where
  /-- 0 HUNT, 1 PRESYNC, 2 IN_FRAME. -/
  state : Nat
  /-- The 512 bits received last, the first received highest. -/
  prev : BitVec 512
  /-- The positions that have scored, with their scores. -/
  scores : Store Nat
  pos : Nat
  badFaw : Nat
  fseq : Nat
  wptr : Nat
  dataBits : Nat
  /-- The bits of the word in progress, as a count and a value, once the words are aligned. -/
  word : Option (Nat × Nat)
  /-- No word has come since the link entered IN_FRAME. -/
  fresh : Bool
  /-- The last accepted WSEQ, kept in MRAM, and the COUNT of the last accepted word. -/
  wseq : Option Nat
  count : Option Nat
  /-- The switching pair received last and how often in a row. -/
  req : Option (Nat × Nat × Nat)
  /-- The second in progress: frames by CRC, out-of-frame periods, errored frames, out of frame at any instant, and the
  counts of each 100 ms. -/
  good : Nat
  crcFail : Nat
  oof : Nat
  errored : Nat
  out : Bool
  sub : List Nat
  /-- GET_LINK's counters and the seconds not yet counted (R439, R441). -/
  elapsed : Word
  es : Word
  ses : Word
  uas : Word
  unavail : Bool
  run : Nat
  seconds : List LqSecond
  oofDecl : Word
  wordRej : Word
  reqRej : Word
  /-- SSTAT of the word accepted last (R434). -/
  sstat : BitVec 16
  /-- Out of frame: the Heartwood time up to which its periods of 500 µs have been counted (R437). -/
  outAt : Nat
  deriving DecidableEq, Repr

/-- A link at a start of Heartwood. -/
def HwLink.reset : HwLink :=
  ⟨0, 0, [], 0, 0, 0, 0, 0, none, true, none, none, none, 0, 0, 0, 0, true, List.replicate 10 0, 0, 0, 0, 0, false, 0, [], 0, 0, 0, 0, 0⟩

/-- The calibration in force (R409). -/
structure HwCal where
  kPulse : Nat
  kHsl : Nat
  tolPm : Nat
  minMm : Nat
  mode : Nat
  deriving DecidableEq, Repr

/-- A batch of records (R422): the open one, or a stored one with its trailer's octets once it is written. -/
structure HwBatch where
  number : Nat
  firstSeq : Nat
  recs : List (BitVec 512)
  opened : Nat
  closed : Bool
  /-- The chain value after its last record, and the trailer's fields at the close. -/
  hLast : List Byte
  time : Nat
  counts : Word × Word × Word
  trailer : Option (List Byte)
  acked : Bool
  deriving DecidableEq, Repr

/-- Working time as Heartwood follows it (R418): the message that waits for an edge, with its time; the last edge's seconds
and time. -/
structure HwTime where
  msg : Option (Nat × Nat)
  edge : Option (Nat × Nat)
  valid : Bool
  deriving DecidableEq, Repr

/-- The Heartwood die. -/
structure Heart where
  /-- Its registers, by offset in the mailbox window (R406). -/
  regs : Store Word
  /-- VDD_HW is present. -/
  on : Bool
  /-- HW_TIME (R405), the value last stored in MRAM, and the start this running began at. -/
  time : Nat
  stored : Nat
  started : Nat
  wt : HwTime
  link0 : HwLink
  link1 : HwLink
  /-- Link 0 has been IN_FRAME since the start; the 2 s of R445 have passed without it. -/
  link0Seen : Bool
  startDue : Bool
  /-- The source an accepted request selects from the next second on, with its link. -/
  nextSource : Option (Nat × Nat)
  cal : HwCal
  /-- Accepted calibration messages that take effect at the next second. -/
  calNext : List (List Byte)
  /-- The authority keys that replaced the provisioned ones, and the pairing key. -/
  authority : Option (List Byte)
  pairing : Option (List Byte)
  /-- Root, device keys and transport key are present: the die's own tamper response has not run. -/
  keys : Bool
  /-- Heartwood's life-cycle code. -/
  life : Nat
  remPulse : Nat
  remLink0 : Nat
  remLink1 : Nat
  /-- Cumulative distance in mm. -/
  cum : Nat
  /-- Pulses of the second in progress: PULSE_A by 100 ms, PULSE_B, glitches. -/
  subA : List Nat
  pulsesB : Nat
  glitches : Nat
  /-- PULSE_A pulses counted while VDD_HW was off, and the source in force before. -/
  asleep : Nat
  heldSource : Nat
  /-- MAIN_SAFE was high at an instant of the second. -/
  mainSafe : Bool
  /-- Events of the second in progress, in order: code and parameter. -/
  events : List (Nat × Nat)
  /-- Alarms of causes 1 to 7 active. -/
  alarms : BitVec 8
  nextSeq : Nat
  /-- The chain value; none before the first record. -/
  chain : Option (List Byte)
  /-- The batches stored, oldest first, the open one last; the next BATCH_SEQ. -/
  batches : List HwBatch
  nextBatch : Nat
  notices : List HwNotice
  evlog : List (List Byte)
  staging : Store Byte
  /-- The firmware slots, by 2^20 slot + offset; the length whose check passed in the inactive slot. -/
  image : Store Byte
  checked : Option Nat
  /-- The pending activation's digest, and the digest last committed. -/
  prepared : Option (List Byte)
  committed : Option (List Byte)
  deriving DecidableEq, Repr

/-- Heartwood before its supplies have risen. -/
def Heart.reset : Heart :=
  ⟨[], false, 0, 0, 0, ⟨none, none, false⟩, .reset, .reset, false, false, none, ⟨0, 0, 0, 0, 0⟩, [], none, none, true, 2, 0, 0, 0, 0,
    List.replicate 10 0, 0, 0, 0, 3, false, [], 0, 0, none, [], 0, [], [], [], [], none, none, none⟩

/-! ## Update (R542 to R565) -/

/-- A row of the journal: 0 unprogrammed, 1 invalid, 2 valid; with its 256 bits. -/
structure JRow where
  st : Nat
  bits : BitVec 256
  deriving DecidableEq, Repr

/-- A row nothing has programmed. -/
def JRow.blank : JRow := ⟨0, 0⟩

/-- A copy of the flash directory (R543): whether its block check passes and its MAGIC reads, DIR_SEQ, and ACTIVE of kinds 0x10 to
0x13. The offsets and sizes it gives no command changes; they are the configuration's. -/
structure DirCopy where
  sound : Bool
  magic : Bool
  seq : Word
  active : BitVec 4
  deriving DecidableEq, Repr

/-- The flash and the one-time-programmable rows of the Update cluster, and what runs. -/
structure Upd where
  /-- Blocks of 4,096 octets that have been written, by 2^20 (2 kind + slot) + block; an erased one is empty. -/
  flash : Store (Option (List Byte))
  /-- The two copies of the directory. -/
  dirs : DirCopy × DirCopy
  /-- The header blocks of the running images, by kind. -/
  running : Store (List Byte)
  /-- The journal: PREP and COMMIT rows by entry, and how many entries a boot has examined. -/
  journal : Store (JRow × JRow)
  seen : Nat
  /-- The counters of R548, and the fuse KEYSET0_REVOKED. -/
  svnFs : Nat
  svnBurl : Nat
  /-- The spare rows each counter has used, of 2, and the journal, of 32 (R548, R559). -/
  spares : Nat × Nat
  journalSpares : Nat
  keyset0Revoked : Bool
  /-- The last committed manifest has not been started; its Heartwood member is not confirmed. -/
  unstarted : Bool
  hwOpen : Bool
  deriving DecidableEq, Repr

/-! ## The device -/

/-- An access into a unit whose clock is stopped (R505): it waits until the clock runs. -/
structure HeldAccess where
  acc : Acc
  addr : Nat
  /-- The value of a write, with the held lower half a table word's upper half combines with (R17); none for a read. -/
  value : Option Word
  lower : Word
  isWord : Bool
  cluster : Nat
  unit : Nat
  deriving DecidableEq, Repr

/-- Clock gating (R503 to R508). -/
structure Clocks where
  /-- CLK_SEL of each origin (R507). -/
  sel : Store (BitVec 16)
  /-- The holds, by 256 cluster + unit: bit o set when origin o holds. -/
  holders : Store (BitVec 11)
  /-- The branches stopped for idleness, 256 cluster + unit, rising. -/
  stopped : List Nat
  /-- Accesses that wait, oldest first. -/
  held : List HeldAccess
  deriving DecidableEq, Repr

/-- The main die. Registers read through `Dev.reg`, which gives an unlisted register its reset value. -/
structure Dev where
  variant : Variant
  /-- Every register but the BASJO block's, by CFG address (R590). -/
  regs : Store Word
  /-- Table words by the address of their lower register (R17); the copies of Bough memory as one. -/
  words : Store DWord
  /-- The lower half each origin holds (R17): word address and value. -/
  lower : Store (Option (Nat × Word))
  clocks : Clocks
  basjo : Basjo
  cam : Cambium
  audit : Audit
  burl : Burl
  ports : Store PortRun
  /-- The raw time of the last read of poll slot k of MDIO master m, by 8 m + k (R105). -/
  polls : Store (Option Nat)
  /-- The frame in reception on each port, and those before it whose reception has ended and whose verdict is due, oldest first (R360). -/
  rx : Store (Option RxFrame)
  ended : Store (List RxFrame)
  /-- Frames that passed stage 6, or wait for a bucket read after it, in order of entry, for their enqueue. -/
  passed : List RxFrame
  groves : Groves
  trunk : Trunk
  crown : Crown
  bark : Bark
  /-- Frames waiting in the slow-path queues, by cause, oldest first (R472): numbers of stored frames. -/
  slowq : Store (List Nat)
  /-- Frames queued to P39, oldest first (R340). -/
  decap : List Nat
  /-- What left the device, newest first. -/
  out : List Output
  roots : Roots
  tap : Tap
  canopy : Canopy
  ras : Ras
  sap : Sap
  upd : Upd
  /-- What the last read of each origin returned (R20, R46); the model's own field, for a bus has no register. -/
  reads : Store Word
  /-- The number of free values drawn so far; the model's own field. -/
  draws : Nat
  deriving DecidableEq, Repr

/-- The whole machine: the main die, the Heartwood die, and the commands that wait, first in, first out. -/
structure State where
  dev : Dev
  heart : Heart
  pending : List Instr
  deriving DecidableEq, Repr

/-- The main die right after reset and its boot, on a variant: RNG_STATUS shows a source that passes and a seed, and the change log has
started (log entry 3). -/
def Dev.resetOf (v : Variant) : Dev where
  variant := v
  regs := [(0x504018, 3)]
  words := []
  lower := []
  clocks := ⟨[], [], [], []⟩
  basjo := ⟨[], [], [], [], [], [], [], [], [], [], 0, 0⟩
  cam := ⟨0, none, 0, false, 0, 0, [], [], [], [], false, 1, false⟩
  audit := Audit.started (auditKeyOf (some 1) 2) 0 0 0 0
  burl := ⟨[], some 1, [], 0, [], [], none, [], [], [], 0, 1, 2, false, true, 0, 0⟩
  ports := []
  polls := []
  rx := []
  ended := []
  passed := []
  groves := ⟨[], [], [], 0, none, [], [], []⟩
  trunk := ⟨[], 0, [], false, false, false, [], [], 2, [], [], [], [], 0, 0, 0⟩
  crown := ⟨[], [], [], [], [], [], []⟩
  bark := ⟨[], [], [], [], [], [], [], false, 0, 4194304, none, false⟩
  slowq := []
  decap := []
  out := []
  roots := ⟨[], [], [], [], [], [], [], [], []⟩
  tap := ⟨[], 0, 0, false, none, false, false, 0, false, false, 4, false, [], [], [], [], none, (0, 0), []⟩
  canopy := ⟨[], [], []⟩
  ras := ⟨[], [], 0, [], [], 0, 0, 0, 0, none, none, none⟩
  sap := ⟨[], 0, none, 0, false, 0, false⟩
  upd := ⟨[], (⟨true, true, 0, 0⟩, ⟨false, false, 0, 0⟩), [], [], 0, 0, 0, (0, 0), 0, false, false, false⟩
  reads := []
  draws := 0

/-- The machine after reset on a variant: nothing waits. -/
def State.resetOf (v : Variant) : State where
  dev := Dev.resetOf v
  heart := Heart.reset
  pending := []

/-- The machine right after reset: an SLP-T72-M, as the spec's reset values leave it. -/
def State.reset : State := State.resetOf .m

end Sys2Proof.Machine
end

