-- ==== Sys2Proof/Machine/Store.lean ====
section
/-! DEFINITION. Reading and writing a sparse table in its one canonical form. -/
namespace Sys2Proof

/-- What key `k` reads as; `d` is what an unlisted `k` reads as. -/
def Store.get {α : Type} (d : α) : Store α → Nat → α
  | [], _ => d
  | (k', v) :: r, k => if k = k' then v else Store.get d r k

/-- Remove key `k`. -/
def Store.drop {α : Type} (m : Store α) (k : Nat) : Store α := m.filter (fun e => e.1 != k)

/-- Insert an entry before the first larger key. -/
def Store.ins {α : Type} : Store α → Nat → α → Store α
  | [], k, v => [(k, v)]
  | (k', v') :: r, k, v => if k < k' then (k, v) :: (k', v') :: r else (k', v') :: Store.ins r k v

/-- Write `v` at key `k`; `d` is what an unlisted `k` reads as, so writing it removes the entry. -/
def Store.put {α : Type} [DecidableEq α] (d : α) (m : Store α) (k : Nat) (v : α) : Store α :=
  if v = d then m.drop k else (m.drop k).ins k v

/-- Update the value at key `k`. -/
def Store.upd {α : Type} [DecidableEq α] (d : α) (m : Store α) (k : Nat) (f : α → α) : Store α :=
  Store.put d m k (f (Store.get d m k))

/-- Keep only the entries that satisfy a test. -/
def Store.keep {α : Type} (p : Nat → α → Bool) (m : Store α) : Store α := m.filter (fun e => p e.1 e.2)

end Sys2Proof
end

