-- ==== Sys2Proof/Machine/Ops.lean ====
section
/-! DEFINITION. The named operations over registers, table words, host memory and time. -/
namespace Sys2Proof.Machine

/-! ## Registers and table words -/

/-- What a register outside the BASJO block reads. -/
def Dev.reg (s : Dev) (a : Nat) : Word := s.regs.get (regReset s.variant a) a

/-- Store a register outside the BASJO block. -/
def Dev.setReg (s : Dev) (a : Nat) (v : Word) : Dev := { s with regs := s.regs.put (regReset s.variant a) a v }

/-- A field of a register. -/
def Dev.rf (s : Dev) (a hi lo : Nat) : Nat := fld (s.reg a) hi lo

/-- A bit of a register. -/
def Dev.rb (s : Dev) (a i : Nat) : Bool := bit (s.reg a) i

/-- Set a field of a register. -/
def Dev.setRf (s : Dev) (a hi lo v : Nat) : Dev := s.setReg a (setFld (s.reg a) hi lo v)

/-- Set a bit of a register. -/
def Dev.setRb (s : Dev) (a i : Nat) (v : Bool) : Dev := s.setReg a (setBit (s.reg a) i v)

/-- Add to a saturating counter. -/
def Dev.count (s : Dev) (a : Nat) (k : Nat := 1) : Dev := s.setReg a (satAdd (s.reg a) k)

/-- Add to a 64-bit saturating counter in two registers (R106). -/
def Dev.count64 (s : Dev) (a : Nat) (k : Nat) : Dev :=
  let v := min ((s.reg a).toNat + 2 ^ 32 * (s.reg (a + 4)).toNat + k) (2 ^ 64 - 1)
  (s.setReg a (BitVec.ofNat 32 v)).setReg (a + 4) (BitVec.ofNat 32 (v / 2 ^ 32))

/-- Return a run of registers to their reset values. -/
def Dev.resetRegs (s : Dev) (lo hi : Nat) : Dev := { s with regs := s.regs.keep (fun k _ => !(lo ≤ k && k < hi)) }

/-- What a table word reads as while nothing has written it: VLAN 1's member word by R176, zero otherwise. -/
def wordReset (v : Variant) (a : Nat) : DWord :=
  if a = vlanAddr 1 0 then (match v with | .m | .s => 0xC000003FFFFFFFFF | .c => 0xC0000010F0F00FF3)
  else if a = vlanAddr 1 1 then (match v with | .m | .s => 0xC000003FFFFFFFFF | .c => 0xC0000010F0F00FF3)
  else 0

/-- A table word (R17). -/
def Dev.word (s : Dev) (a : Nat) : DWord := s.words.get (wordReset s.variant a) a

/-- Store a table word. -/
def Dev.setWord (s : Dev) (a : Nat) (v : DWord) : Dev := { s with words := s.words.put (wordReset s.variant a) a v }

/-- A BASJO register. -/
def Basjo.reg (b : Basjo) (a : Nat) : Word := b.regs.get (regReset .m a) a

/-- Store a BASJO register. -/
def Basjo.setReg (b : Basjo) (a : Nat) (v : Word) : Basjo := { b with regs := b.regs.put (regReset .m a) a v }

/-- A field of a BASJO register. -/
def Basjo.rf (b : Basjo) (a hi lo : Nat) : Nat := fld (b.reg a) hi lo

/-- A bit of a BASJO register. -/
def Basjo.rb (b : Basjo) (a i : Nat) : Bool := bit (b.reg a) i

/-- Set a field of a BASJO register. -/
def Basjo.setRf (b : Basjo) (a hi lo v : Nat) : Basjo := b.setReg a (setFld (b.reg a) hi lo v)

/-- Add to a saturating BASJO counter. -/
def Basjo.count (b : Basjo) (a : Nat) (k : Nat := 1) : Basjo := b.setReg a (satAdd (b.reg a) k)

/-- Update the host interface. -/
def Dev.onBasjo (s : Dev) (f : Basjo → Basjo) : Dev := { s with basjo := f s.basjo }

/-! ## Presence and mode -/

/-- Whether a Grove is present (DEV_CAP0.GROVE_PRESENT, R9). -/
def grovePresent (v : Variant) (g : Nat) : Bool := match v with | .c => g < 2 | _ => g < 4

/-- Whether a port is present (R3, R9). -/
def portPresent (v : Variant) (p : Nat) : Bool :=
  match v with
  | .c => (0xF0F00FF3 ||| 0xD0 <<< 32 : Nat).testBit p
  | _ => p < 40

/-- The present ports as a bitmap. -/
def presentPorts (v : Variant) : Nat := match v with | .c => 0xD0F0F00FF3 | _ => 0xFFFFFFFFFF

/-- Whether a CAN channel is present. -/
def canPresent (v : Variant) (n : Nat) : Bool := match v with | .c => n < 12 | _ => n < 24

/-- Whether a LIN channel is present. -/
def linPresent (v : Variant) (l : Nat) : Bool := match v with | .c => l < 8 | _ => l < 16

/-- Whether a cipher pipe is present; pipe 6 is the spare. -/
def pipePresent (v : Variant) (p : Nat) : Bool := match v with | .c => p < 3 || p = 6 | _ => p < 7

/-- Whether Heartwood and Sapwood are present (R1). -/
def heartPresent (v : Variant) : Bool := match v with | .m => true | _ => false

/-- Whether external memory is present (R1). -/
def extmemPresent (v : Variant) : Bool := match v with | .c => false | _ => true

/-- The present host ports. -/
def hostPorts (v : Variant) : List Nat := match v with | .c => [0] | _ => [0, 1]

/-- The cluster identifiers of R24. -/
def clusterList : List Nat := [0, 1, 2, 0x10, 0x11, 0x12, 0x13, 0x20, 0x21, 0x22, 0x30, 0x31, 0x40, 0x50, 0x51, 0x60, 0x61, 0x70, 0x71, 0x72]

/-- Whether a cluster identifier is one of R24. -/
def knownCluster (c : Nat) : Bool :=
  clusterList.contains c

/-- Whether a cluster is present on a variant (R24). -/
def clusterPresent (v : Variant) (c : Nat) : Bool :=
  knownCluster c && !(v = .c && (c = 0x12 || c = 0x13)) && !((c = 0x50 || c = 0x51) && !heartPresent v)

/-- Whether the unit of a cluster is present (R25); 0xFF is the cluster as a whole. `split` is the split mode of
Canopy (R595). -/
def unitPresent (v : Variant) (split : Bool) (c u : Nat) : Bool :=
  clusterPresent v c && (u = 0xFF || (
    if c = 0x00 then u = 0
    else if c = 0x01 then u = 0 || u = 1 && v ≠ .c
    else if c = 0x02 then u < 36 && portPresent v u || 40 ≤ u && u < 44
    else if 0x10 ≤ c ∧ c < 0x14 then u < 9 || 16 ≤ u && u < 21
    else if c = 0x20 then u < 2 || u = 3 || u = 2 && extmemPresent v
    else if c = 0x21 then u < 38 && portPresent v u
    else if c = 0x22 then u < 12
    else if c = 0x30 then u < 4
    else if c = 0x31 then canPresent v u || 32 ≤ u && linPresent v (u - 32) || 64 ≤ u && u < 67
    else if c = 0x40 then pipePresent v u || 16 ≤ u && u < 25 || 32 ≤ u && u < 35
    else if c = 0x50 then u < 4
    else if c = 0x51 then u = 0
    else if c = 0x60 then if split then 8 ≤ u && u < 12 else u < 3
    else if c = 0x61 then u < 3
    else if c = 0x72 then u < 2
    else u = 0))

/-- The matrix block of a cluster (R534, R590). -/
def clusterBlock (c : Nat) : Nat :=
  if c < 3 then c
  else if c < 0x20 then c - 0x10 + 3
  else if c < 0x30 then c - 0x20 + 7
  else if c < 0x40 then c - 0x30 + 10
  else if c < 0x50 then 12
  else if c < 0x60 then c - 0x50 + 13
  else if c < 0x70 then c - 0x60 + 15
  else c - 0x70 + 17

/-- The Grove that owns a port (R27, R4). -/
def portGrove (v : Variant) (p : Nat) : Nat :=
  if p < 4 then p
  else if p < 20 then (p - 4) / 4
  else if p < 28 then (p - 20) / 2
  else if p < 36 then (p - 28) / 2
  else match v with
    | .c => if p = 39 then 1 else 0
    | _ => p - 36

/-- The operating mode, by the codes of R477. -/
def Dev.mode (s : Dev) : Nat := s.rf 0x20 2 0

/-- Whether Canopy runs in split mode (R595). -/
def Dev.split (s : Dev) : Bool := s.rb (canopyReg 0) 0

/-- Whether the device is in SAFE (R517). -/
def Dev.safe (s : Dev) : Bool := s.rb (rasReg 0) 31

/-- The life-cycle code of R385. -/
def Dev.lifeCycle (s : Dev) : Nat := s.rf (burlReg 0x4000) 2 0

/-! ## Time (R258 to R272) -/

/-- Units of 1/256 tick in a microsecond and a millisecond of raw time. -/
abbrev usRaw : Nat := 102400
abbrev msRaw : Nat := 102400000

/-- Raw time now, in 1/256 ticks. -/
def Dev.now (s : Dev) : Nat := s.cam.raw

/-- The tick count RAW72[71:8]. -/
def Dev.tick (s : Dev) : Nat := s.cam.raw / 256

/-- One second in 2^-16 ns. -/
abbrev secUnits : Int := 65536000000000

/-- A time of seconds, nanoseconds and fractional nanoseconds, in 2^-16 ns. -/
def timeUnits (sec ns fns : Nat) : Int := (sec : Int) * secUnits + (ns : Int) * 65536 + fns

/-- A triple of R258: base raw value, base time in 2^-16 ns, RATE. -/
structure Triple where
  br : Nat
  bt : Int
  rate : Int
  deriving DecidableEq, Repr

/-- The triple held in nine registers from `at_` on (R282). -/
def Dev.triple (s : Dev) (at_ : Nat) : Triple where
  br := s.rf at_ 7 0 + 256 * ((s.reg (at_ + 4)).toNat + 2 ^ 32 * (s.reg (at_ + 8)).toNat)
  bt := timeUnits ((s.reg (at_ + 12)).toNat + 2 ^ 32 * (s.reg (at_ + 16)).toNat) (s.reg (at_ + 20)).toNat (s.rf (at_ + 24) 15 0)
  rate := signed 48 ((s.reg (at_ + 28)).toNat + 2 ^ 32 * s.rf (at_ + 32) 15 0)

/-- The time a triple gives raw value `r` (R259). -/
def Triple.time (t : Triple) (r : Nat) : Int := t.bt + (((r : Int) - t.br) * 640 * (2 ^ 56 + t.rate)) / 2 ^ 56

/-- The time of domain `d` at raw value `r`. -/
def Dev.domTime (s : Dev) (d r : Nat) : Int := (s.triple (domReg d 0x40)).time r

/-- The selected domain (R264). -/
def Dev.sel (s : Dev) : Nat := s.rf (camReg 0x204) 0 0

/-- OFF at raw value `r`: it moves toward 0 by SLEW_MAX ppm of the raw time elapsed (R264). -/
def Dev.offAt (s : Dev) (r : Nat) : Int :=
  let moved : Int := (((r : Int) - s.cam.offAt) * 640 * s.rf (camReg 0x208) 9 0) / 1000000
  if s.cam.off ≥ 0 then max 0 (s.cam.off - moved) else min 0 (s.cam.off + moved)

/-- Raw value `r` as working time, in 2^-16 ns, under the selection, triple and OFF now in force (R272). -/
def Dev.wtOf (s : Dev) (r : Nat) : Int := s.domTime s.sel r + s.offAt s.now

/-- Working time now. -/
def Dev.wt (s : Dev) : Int := s.wtOf s.now

/-- The seconds of a time, modulo 2^64. -/
def secOf (t : Int) : Nat := ((t / secUnits) % 2 ^ 64).toNat

/-- The nanoseconds of a time. -/
def nsOf (t : Int) : Nat := ((t % secUnits) / 65536).toNat

/-- The fractional nanoseconds of a time, in 2^-16 ns. -/
def fnsOf (t : Int) : Nat := (t % 65536).toNat

/-- A `w`-bit seconds value extended to 64 bits from a relevant time (R60, R273): the candidate nearest to it, the later
of two equally near. Both values in 2^-16 ns but for the seconds. -/
def extendSec (w : Nat) (sec : Nat) (sub : Int) (present : Int) : Int :=
  let base := ((secOf present / 2 ^ w) * 2 ^ w + sec : Int)
  let cand (k : Int) : Int := (base + k * 2 ^ w) * secUnits + sub
  let best (a b : Int) : Int := if (b - present).natAbs ≤ (a - present).natAbs then b else a
  best (if cand (-1) < 0 then cand 0 else best (cand (-1)) (cand 0)) (cand 1)

/-! ## Free values -/

/-- Draw the next 64 octets of the random number generator (R392). -/
def Dev.draw (s : Dev) : BitVec 512 × Dev := (Config.draw s.draws, { s with draws := s.draws + 1 })

/-- Draw `n` octets, in generate requests of 64. -/
def Dev.drawBytes (s : Dev) (n : Nat) : List Byte × Dev :=
  ((List.range ((n + 63) / 64)).flatMap (fun i => leBytes 64 (Config.draw (s.draws + i)).toNat) |>.take n,
   { s with draws := s.draws + (n + 63) / 64 })

/-! ## Whole-machine meanings -/

/-- The main die runs: it is not asleep (R477), and no boot has halted (R550). -/
def Dev.runs (s : Dev) : Bool := !s.tap.asleep && !s.rb (updReg 4) 30

/-- Whether an interrupt to Canopy waits (R464): the pair of the slot it goes to recovers or is being brought in. An interrupt whose slot
the spec does not name waits while any pair does (DESIGN CHOICE, log entry 70). -/
def Dev.irqWaits (s : Dev) (name : String) (n : Nat) : Bool :=
  (List.range 3).any (fun k =>
    let w := s.reg (pairReg k 0)
    (fld w 6 4 = 0 || fld w 6 4 = 2) && (name ≠ "CANOPY_SPQ" || fld w 9 8 = n / 16))

/-- An interrupt to Canopy: delivered, or held pending until the pair it goes to runs (R464). -/
def Dev.canopyIrq (s : Dev) (name : String) (n : Nat) : Dev :=
  if s.irqWaits name n then { s with canopy := { s.canopy with irqs := s.canopy.irqs ++ [(name, n)] } }
  else { s with out := .irq name n :: s.out }

/-- The interrupts held whose pair runs again are delivered, oldest first. -/
def Dev.irqsDue (s : Dev) : Dev :=
  let l := s.canopy.irqs
  l.foldl (fun (s : Dev) e => s.canopyIrq e.1 e.2) { s with canopy := { s.canopy with irqs := [] } }

/-- A meaning that acts on the main die, where it runs. -/
def State.onDev (s : State) (f : Dev → Dev) : Host.Outcome State Fault Refusal :=
  .next { s with dev := if s.dev.runs then f s.dev else s.dev }

/-- A meaning that acts on Taproot, asleep or awake. -/
def State.onTap (s : State) (f : Dev → Dev) : Host.Outcome State Fault Refusal := .next { s with dev := f s.dev }

/-- A meaning that acts on Heartwood, seeing the main die. -/
def State.onHeart (s : State) (f : Dev → Heart → Heart) : Host.Outcome State Fault Refusal :=
  .next { s with heart := f s.dev s.heart }

/-- A meaning that acts on both dies. -/
def State.onBoth (s : State) (f : Dev → Heart → Dev × Heart) : Host.Outcome State Fault Refusal :=
  .next { s with dev := (f s.dev s.heart).1, heart := (f s.dev s.heart).2 }

end Sys2Proof.Machine
end

