-- ==== Sys2Proof/Machine/Events.lean ====
section
/-! DEFINITION. Event records, event rings, pop queues and MSI-X vectors (R70 to R78), host memory writes and index
write-back (R55). -/
namespace Sys2Proof.Machine

/-- The width in bits of an address of memory `h`: host memory of port 0 or 1, or the shared SRAM, 2 (R473). -/
def memWidth (h : Nat) : Nat := if h = 2 then 22 else 64

/-- Whether an address of memory `h` lies in the checkpoint buffers, the top 24 KiB of the shared SRAM (R461). -/
def inCheckpoints (h addr : Nat) : Bool := h = 2 && 0x3FA000 ≤ addr % 2 ^ 22

/-- Write octets into host memory of port `h`, or into the shared SRAM for 2, whose checkpoint buffers ignore them. -/
def Basjo.store (b : Basjo) (h addr : Nat) (l : List Byte) : Basjo :=
  { b with mem := (l.zipIdx).foldl (fun m e =>
      if inCheckpoints h (addr + e.2) then m else m.put 0 (h * 2 ^ 64 + (addr + e.2) % 2 ^ memWidth h) e.1) b.mem }

/-- The octet host memory of port `h` holds, as far as the device wrote it. -/
def Basjo.octet (b : Basjo) (h addr : Nat) : Byte := b.mem.get 0 (h * 2 ^ 64 + addr)

/-- What ring `r` of port `h` holds beside its registers. -/
def Basjo.ring (b : Basjo) (h r : Nat) : RingRun := b.rings.get .idle (128 * h + r)

/-- Store what a ring holds. -/
def Basjo.setRing (b : Basjo) (h r : Nat) (v : RingRun) : Basjo := { b with rings := b.rings.put .idle (128 * h + r) v }

/-- The entries of a ring (R50). -/
def Basjo.ringSize (b : Basjo) (h r : Nat) : Nat := 2 ^ b.rf (ringReg h r 0x10) 20 16

/-- The ring's host index and device index. -/
def Basjo.hostIdx (b : Basjo) (h r : Nat) : Word := b.reg (ringReg h r 0x14)
def Basjo.devIdx (b : Basjo) (h r : Nat) : Word := b.reg (ringReg h r 0x18)

/-- A ring's TYPE, ENABLE and ACTIVE (R58). -/
def Basjo.ringType (b : Basjo) (h r : Nat) : Nat := b.rf (ringReg h r 0x10) 2 0
def Basjo.ringEnabled (b : Basjo) (h r : Nat) : Bool := b.rb (ringReg h r 0x10) 31
def Basjo.ringActive (b : Basjo) (h r : Nat) : Bool := b.rb (ringReg h r 0x1C) 4

/-- Whether a ring runs: enabled, active, its port's rings running and not stopped at a fault. -/
def Basjo.ringRuns (b : Basjo) (h r ty : Nat) : Bool :=
  b.ringEnabled h r && b.ringActive h r && b.ringType h r = ty && b.rb (hostReg h 0) 0 && !(b.ring h r).stopped

/-- The base address of a ring. -/
def Basjo.ringBase (b : Basjo) (h r : Nat) : Nat := (b.reg (ringReg h r 0)).toNat + 2 ^ 32 * (b.reg (ringReg h r 4)).toNat

/-- The host address of the entry an index names, for entries of `sz` octets. -/
def Basjo.entryAddr (b : Basjo) (h r sz : Nat) (idx : Word) : Nat := b.ringBase h r + sz * (idx.toNat % b.ringSize h r)

/-- Advance the device index by `k` and write it back (R55). -/
def Basjo.advance (b : Basjo) (h r k : Nat) : Basjo :=
  let i := b.devIdx h r + BitVec.ofNat 32 k
  (b.setReg (ringReg h r 0x18) i).store h ((b.reg (ringReg h r 8)).toNat + 2 ^ 32 * (b.reg (ringReg h r 0xC)).toNat) (leBytes 4 i.toNat)

/-! ## Vectors -/

/-- A vector of a host port. -/
def Basjo.vec (b : Basjo) (h v : Nat) : Vector := b.vecs.get .idle (64 * h + v)

/-- Store a vector. -/
def Basjo.setVec (b : Basjo) (h v : Nat) (x : Vector) : Basjo := { b with vecs := b.vecs.put .idle (64 * h + v) x }

/-- The MSI-X capability of a host port; disabled at reset. -/
def Basjo.msixFn (b : Basjo) (h : Nat) : MsixFn := b.msix.get ⟨false, false⟩ h

/-- Whether the link of a host port is up. -/
def Basjo.linkUp (b : Basjo) (h : Nat) : Bool := b.up.get false h

/-- A vector sends (R74, R75): its count clears; a masked vector sets its pending bit; with MSI-X disabled there is no
message and no pending bit, and no message goes to a port whose link is down (R79). -/
def Basjo.fire (b : Basjo) (h v : Nat) : Basjo :=
  let x := { b.vec h v with count := 0, since := 0 }
  let f := b.msixFn h
  if !f.enable || !b.linkUp h then b.setVec h v x
  else if x.masked || f.mask then b.setVec h v { x with pending := true }
  else { b.setVec h v { x with pending := false } with msgs := (h, v) :: b.msgs }

/-- A record signals its vector (R75): class 7 at once, any other when its count reaches COUNT. -/
def Basjo.signal (b : Basjo) (now h v : Nat) : Basjo :=
  let x := b.vec h v
  let n := min (x.count + 1) 65535
  if v = 7 ∨ n ≥ max 1 (b.rf (hostReg h (0x200 + 4 * v)) 7 0) then b.fire h v
  else b.setVec h v { x with count := n, since := if x.count = 0 then now else x.since }

/-! ## Records -/

/-- An event record before it takes its sequence number (R70). -/
structure Rec where
  cls : Nat
  cause : Nat
  cluster : Nat
  unit : Nat
  sec : Nat
  ns : Nat
  a : Nat
  b : Nat
  deriving DecidableEq, Repr

/-- The 32 octets of a record, as a number, octet 0 lowest. -/
def Rec.pack (r : Rec) (seq : Word) : BitVec 256 :=
  BitVec.ofNat 256 (seq.toNat + 2 ^ 32 * (r.cls % 64) + 2 ^ 38 * (r.cause % 1024) + 2 ^ 48 * (r.cluster % 256) + 2 ^ 56 * (r.unit % 256)
    + 2 ^ 64 * (r.sec % 2 ^ 64) + 2 ^ 128 * (r.ns % 2 ^ 32) + 2 ^ 160 * (r.a % 2 ^ 32) + 2 ^ 192 * (r.b % 2 ^ 64))

/-- Whether an event queue is full. -/
def Basjo.evtFull (b : Basjo) (h : Nat) : EvtQueue → Bool
  | .ring r => dist32 (b.hostIdx h r) (b.devIdx h r) ≥ b.ringSize h r
  | .pop n => (b.pops.get .idle (4 * h + n)).recs.length ≥ 64

/-- The records an event queue has lost since its last EVENT_OVERFLOW. -/
def Basjo.evtLost (b : Basjo) (h : Nat) : EvtQueue → Word
  | .ring r => (b.ring h r).lostSince
  | .pop n => (b.pops.get .idle (4 * h + n)).lostSince

/-- Write a record into an event queue that has room: it takes the next SEQ (R76), the index is written back and the
vector of its class signals (R74). -/
def Basjo.putRec (b : Basjo) (now h : Nat) (q : EvtQueue) (r : Rec) : Basjo :=
  match q with
  | .ring n =>
    let x := b.ring h n
    (((b.store h (b.entryAddr h n 32 (b.devIdx h n)) (leBytes 32 (r.pack x.seq).toNat)).advance h n 1).setRing h n
      { x with seq := x.seq + 1 }).signal now h r.cls
  | .pop n =>
    let p := b.pops.get .idle (4 * h + n)
    ({ b with pops := b.pops.put .idle (4 * h + n) { p with recs := p.recs ++ [r.pack p.seq], seq := p.seq + 1 } } : Basjo).signal now h r.cls

/-- Lose a record (R77): it takes its SEQ, and the losses count. -/
def Basjo.loseRec (b : Basjo) (h : Nat) : EvtQueue → Basjo
  | .ring n =>
    let x := b.ring h n
    (b.setRing h n { x with seq := x.seq + 1, lostSince := satAdd x.lostSince 1 }).count (ringReg h n 0x20)
  | .pop n =>
    let p := b.pops.get .idle (4 * h + n)
    { b with pops := b.pops.put .idle (4 * h + n) { p with seq := p.seq + 1, lostSince := satAdd p.lostSince 1 } }

/-- Clear the losses of an event queue. -/
def Basjo.clearLost (b : Basjo) (h : Nat) : EvtQueue → Basjo
  | .ring n => b.setRing h n { b.ring h n with lostSince := 0 }
  | .pop n =>
    let p := b.pops.get .idle (4 * h + n)
    { b with pops := b.pops.put .idle (4 * h + n) { p with lostSince := 0 } }

/-- Write EVENT_OVERFLOW into an event queue that lost records and has room again (R77). -/
def Basjo.overflow (b : Basjo) (now h : Nat) (q : EvtQueue) (sec ns : Nat) : Basjo :=
  if b.evtLost h q = 0 ∨ b.evtFull h q then b
  else (b.putRec now h q ⟨7, 1, 1, h, sec, ns, (b.evtLost h q).toNat, match q with | .ring r => r | .pop n => 0x80 + n⟩).clearLost h q

/-- Deliver a record to one host port through its route (R72). -/
def Basjo.deliver (b : Basjo) (now h : Nat) (r : Rec) : Basjo :=
  let route := b.reg (hostReg h (0x100 + 4 * r.cls))
  if !bit route 31 then b
  else
    let q : EvtQueue := if bit route 30 then .pop (BitVec.toFin (route.extractLsb' 8 2)) else .ring (BitVec.toFin (route.extractLsb' 0 7))
    let n := fld route 6 0
    if !bit route 30 && !b.ringRuns h n 4 then
      -- the record takes its SEQ all the same (R76)
      let x := b.ring h n
      (if b.ringEnabled h n && b.ringType h n = 4 then b.setRing h n { x with seq := x.seq + 1 } else b).count (hostReg h 0x20)
    else
      let b := b.overflow now h q r.sec r.ns
      if b.evtFull h q then b.loseRec h q else b.putRec now h q r

/-- A record stamped with the working time of a raw value. -/
def Dev.mkRec (s : Dev) (cls cause cluster unit a b : Nat) (raw : Nat) : Rec :=
  ⟨cls, cause, cluster, unit, secOf (s.wtOf raw), nsOf (s.wtOf raw), a, b⟩

/-- Raise a record of classes 0 to 6 on the host port it concerns. -/
def Dev.raiseAt (s : Dev) (h cls cause cluster unit a b : Nat) : Dev :=
  s.onBasjo (fun x => x.deliver s.now h (s.mkRec cls cause cluster unit a b s.now))

/-- Raise a record, stamped with the working time of a raw value, on every host port that routes its class. -/
def Dev.raiseStamped (s : Dev) (cls cause cluster unit a b raw : Nat) : Dev :=
  s.onBasjo (fun x => (hostPorts s.variant).foldl (fun x h => x.deliver s.now h (s.mkRec cls cause cluster unit a b raw)) x)

/-- Raise a record of classes 8 to 63 on every host port that routes its class (R72). -/
def Dev.raise (s : Dev) (cls cause cluster unit a b : Nat) : Dev := s.raiseStamped cls cause cluster unit a b s.now

/-- Raise a record about a host port on the other one, where it is present with its link up (R72). -/
def Dev.raiseOther (s : Dev) (h cls cause a b : Nat) : Dev :=
  if (hostPorts s.variant).contains (1 - h) && h < 2 && s.basjo.linkUp (1 - h) then s.raiseAt (1 - h) cls cause 1 h a b else s

/-- The key a record under an interval is counted by. -/
def rateKey (cls cause cluster unit sub : Nat) : Nat := (((cls * 1024 + cause) * 256 + cluster) * 256 + unit) * 2 ^ 32 + sub

/-- A record raised at most once per `interval` of raw time (R73 and its like): the occurrence is counted, and when the
interval since the last record has passed, the record is raised with the occurrences since then. -/
def Dev.rated (s : Dev) (key interval : Nat) (f : Nat → Dev → Dev) : Dev :=
  let r := s.basjo.rate.get .idle key
  let due := match r.last with | none => true | some t => s.now ≥ t + interval
  if due then f (r.count + 1) (s.onBasjo (fun b => { b with rate := b.rate.put .idle key ⟨some s.now, 0⟩ }))
  else s.onBasjo (fun b => { b with rate := b.rate.put .idle key ⟨r.last, r.count + 1⟩ })

/-- A record under an interval whose payloads are functions of the occurrences. -/
def Dev.raiseRated (s : Dev) (cls cause cluster unit sub interval : Nat) (pa pb : Nat → Nat) : Dev :=
  s.rated (rateKey cls cause cluster unit sub) interval (fun n s => s.raise cls cause cluster unit (pa n) (pb n))

/-- Whether a host port drops what is selected for it (R79). -/
def Dev.hostDead (s : Dev) (h : Nat) : Bool := s.basjo.dead.get false h

/-- A frame of host queue `t` is dropped (R73): cause 1 the link is down, counted and told to the other host port; cause 2
its write failed. -/
def Dev.rxDrop (s : Dev) (h t cause : Nat) : Dev :=
  let s := if cause = 1 then s.onBasjo (fun b => b.count (hostReg h 0x18)) else s
  s.rated (rateKey 3 cause 1 h t) msRaw (fun n s => if cause = 1 then s.raiseOther h 3 1 t n else s.raiseAt h 3 2 1 h t n)

end Sys2Proof.Machine
end

