-- ==== Sys2Proof/Machine/Access.lean ====
section
/-! DEFINITION. The change log (R536 to R539), the origin access matrix (R534) and what an access meets before it
reaches a register: absence (R10), an unpowered unit (R506), a stopped clock (R505). -/
namespace Sys2Proof.Machine

/-! ## The change log -/

/-- The kinds of R537. -/
abbrev kRegister : Nat := 0
abbrev kCommand : Nat := 1
abbrev kMode : Nat := 2
abbrev kRuleVersion : Nat := 3
abbrev kKey : Nat := 4
abbrev kProtection : Nat := 5
abbrev kFirmware : Nat := 6
abbrev kHardware : Nat := 7
abbrev kLogStart : Nat := 8
abbrev kDenied : Nat := 9

/-- The hash of R537: the first 8 octets of SHA-512, little-endian. -/
def hash8 (l : List Byte) : DWord := BitVec.ofNat 64 (leNat ((sha512 l).take 8))

/-- A secret derived from the live root with BIND = 1, KEY256 = 1, OWNER 0 and a zero host context (R387, R393, R538). -/
def Dev.rootDerived (s : Dev) (label : String) (usage : Nat) : Option (List Byte) := rootSecret s.burl.liveRoot s.lifeCycle label usage

/-- K_AUDIT (R538), while a root is live. -/
def Dev.auditKey (s : Dev) : Option (List Byte) := auditKeyOf s.burl.liveRoot s.lifeCycle

/-- AUDIT is raised for an entry (R536). -/
def Dev.auditEvent (s : Dev) (kind target : Nat) (e : AuditEntry) : Dev :=
  s.raise 63 kind 0x71 0 (e.w0.toNat / 2 ^ 32) ((e.w0.toNat % 2 ^ 32) * 2 ^ 32 + target % 2 ^ 32)

/-- Log an entry (R536 to R539): it takes the next SEQ, and AUDIT is raised. -/
def Dev.logRaw (s : Dev) (origin kind cluster unit op target : Nat) (old new : DWord) : Dev :=
  let e := auditEntry s.audit.next s.tick (secOf s.wt) (nsOf s.wt) origin kind cluster unit op target old new
  ({ s with audit := s.audit.append s.auditKey e } : Dev).auditEvent kind target e

/-- Log a change with the hashes of an old and a new value. -/
def Dev.log (s : Dev) (origin kind cluster unit op target : Nat) (old new : List Byte) : Dev :=
  s.logRaw origin kind cluster unit op target (hash8 old) (hash8 new)

/-- Log an action of the hardware (origin 10): no register changes, so both hashes are those of the values given. -/
def Dev.logHw (s : Dev) (kind cluster unit : Nat) (old new : Nat := 0) : Dev :=
  s.log 10 kind cluster unit 0 0 (leBytes 4 old) (leBytes 4 new)

/-! ## Where an address lies -/

/-- The cluster and unit a configuration address belongs to; 0xFF for the cluster's logic outside its units. -/
def unitOf (a : Nat) : Nat × Nat :=
  match blockOf a with
  | some 0 => (0, 0)
  | some 1 => (1, if a < 0x20000 then 0 else if a < 0x30000 then 1 else 0xFF)
  | some 2 => if a < 0x100000 + 36 * 0x1000 then (2, (a - 0x100000) / 0x1000)
      else if 0x140000 ≤ a ∧ a < 0x140400 then (2, 40 + (a - 0x140000) / 0x100) else (2, 0xFF)
  | some 7 => (0x20, if (0x300030 ≤ a ∧ a < 0x300048) ∨ (0x308000 ≤ a ∧ a < 0x308010) then 2 else 0xFF)
  | some 8 => (0x21, if a < 0x340000 + 38 * 0x1000 then (a - 0x340000) / 0x1000
      else if 0x368000 ≤ a ∧ a < 0x37A000 then (a - 0x368000) / 0x800 else 0xFF)
  | some 9 => (0x22, if 0x380100 ≤ a ∧ a < 0x380200 then 1 + (a - 0x380100) / 0x80
      else if 0x380200 ≤ a ∧ a < 0x380220 then 3
      else if 0x380300 ≤ a ∧ a < 0x380380 then 4 + (a - 0x380300) / 0x20
      else if 0x380400 ≤ a ∧ a < 0x380480 then 8 + (a - 0x380400) / 0x20 else 0)
  | some 10 => (0x30, if a < 0x400020 then 2 else if (0x401400 ≤ a ∧ a < 0x401468) ∨ (0x420000 ≤ a ∧ a < 0x441000) then 3 else 0)
  | some 11 => (0x31, if a < 0x480000 + 24 * 0x800 then (a - 0x480000) / 0x800
      else if 0x490000 ≤ a ∧ a < 0x494000 then 32 + (a - 0x490000) / 0x400
      else if 0x4A8000 ≤ a ∧ a < 0x4AC000 then 32 + (a - 0x4A8000) / 0x400
      else if 0x4A4000 ≤ a ∧ a < 0x4A6000 then 65 else 64)
  | some 12 => (0x40, if 0x501000 ≤ a ∧ a < 0x501900 then 34 else if a = 0x504018 ∨ a = 0x504028 then 33 else if a = 0x50402C then 32 else 0xFF)
  | some 13 => (0x50, 0xFF)
  | some 14 => (0x51, 0)
  | some 15 => (0x60, if 0x600200 ≤ a ∧ a < 0x600280 then 8 + (a - 0x600200) / 0x20 else 0xFF)
  | some 16 => (0x61, 0)
  | some 17 => (0x70, 0)
  | some 18 => (0x71, 0)
  | some 19 => (0x72, if a = 0x800200 then 1 else 0)
  | some 20 => (0x10, 0xFF)
  | some b => (0x10 + b - 3, 0xFF)
  | none => (0, 0xFF)

/-- The port whose queue is at a queue window of the Trunk (R181). -/
def windowPort (a : Nat) : Nat :=
  let q := (a - 0x310000) / 0x40
  if q < 288 then q / 8 else if q < 320 then 36 else 37

/-- Whether the window an address lies in belongs to something the variant has and the mode runs (R10, R595). A Crown set, a
Trunk queue, a MACsec port and a frame buffer are absent with their port or channel (R181). -/
def addrPresent (v : Variant) (split : Bool) (a : Nat) : Bool :=
  let cu := unitOf a
  clusterPresent v cu.1 && (cu.2 = 0xFF || unitPresent v split cu.1 cu.2)
    && !(0x501000 ≤ a && a < 0x501900 && !portPresent v ((a - 0x501000) / 0x40))
    && !(0x310000 ≤ a && a < 0x315800 && !portPresent v (windowPort a))

/-- The per-pair registers of Canopy but PAIR_STATUS: in split mode they read zero and ignore writes (R595). -/
def pairWindow (a : Nat) : Bool := 0x600100 ≤ a && a < 0x6001C0

/-- Whether a port is powered in the present mode (R479). -/
def Dev.portPowered (s : Dev) (p : Nat) : Bool :=
  let groveOn (g : Nat) := g = 0 || s.rb (tapReg 0x60) g
  s.mode ≠ 3 || p = 38 || p = 39 ||
    (s.rb (if p < 32 then tapReg 0x64 else tapReg 0x68) (p % 32) && (36 ≤ p || groveOn (portGrove s.variant p)))

/-- Whether a Grove is powered. -/
def Dev.grovePowered (s : Dev) (g : Nat) : Bool := grovePresent s.variant g && (s.mode ≠ 3 || g = 0 || s.rb (tapReg 0x60) g)

/-- Whether a CAN or LIN channel is powered. -/
def Dev.canPowered (s : Dev) (n : Nat) : Bool := s.mode ≠ 3 || s.rb (tapReg 0x6C) n
def Dev.linPowered (s : Dev) (l : Nat) : Bool := s.mode ≠ 3 || s.rb (tapReg 0x70) l

/-- Whether a unit is powered in the present mode (R477, R479). -/
def Dev.unitPowered (s : Dev) (c u : Nat) : Bool :=
  if c = 1 then u = 0xFF || s.portPowered (36 + u)
  else if c = 2 then u ≥ 36 || s.portPowered u
  else if 0x10 ≤ c ∧ c < 0x14 then s.grovePowered (c - 0x10)
  else if c = 0x31 then if u < 24 then s.canPowered u else if 32 ≤ u ∧ u < 48 then s.linPowered (u - 32) else true
  else true

/-- Whether a unit is subject to idle gating (R502). -/
def Dev.gateable (s : Dev) (c u : Nat) : Bool :=
  if 0x10 ≤ c ∧ c < 0x14 then u < 9
  else if c = 0x20 then u = 2
  else if c = 0x21 then u < 38
  else if c = 0x30 then u < 4
  else if c = 0x40 then u < 7 || u = 32 || u = 33
  else if c = 0x60 then u < 3 && ([3, 4, 5].contains (s.rf (pairReg u 0) 6 4))
  else false

/-- The origins that hold a unit, directly or through its cluster (R508). -/
def Dev.holders (s : Dev) (c u : Nat) : BitVec 11 :=
  s.clocks.holders.get 0 (256 * c + u) ||| s.clocks.holders.get 0 (256 * c + 0xFF)

/-- Whether a unit's clock branch has stopped for idleness: it is one that R502 gates, and nothing holds it. -/
def Dev.clockStopped (s : Dev) (c u : Nat) : Bool := s.clocks.stopped.contains (256 * c + u) && s.gateable c u && s.holders c u = 0

/-- Whether a unit's branch is one that R502 stops by an enable bit, and is stopped: that of a host port whose link is down, of a
port that is disabled and has drained, of a CAN or LIN channel that is off. -/
def Dev.disabledBranch (s : Dev) (c u : Nat) : Bool :=
  if c = 1 then u < 2 && !s.basjo.linkUp u
  else if c = 2 then u < 36 && !s.rb (portReg u 0) 31 && !s.rb (portReg u 4) 5
  else if c = 0x31 then (u < 24 && !s.rb (canReg u 0) 31) || (32 ≤ u && u < 48 && !s.rb (linReg (u - 32) 0) 31)
  else false

/-- Whether a unit's clock does not run, for want of demand or of its enable bit. -/
def Dev.clockOff (s : Dev) (c u : Nat) : Bool := s.clockStopped c u || s.disabledBranch c u

/-- What an origin's read returns is kept. -/
def Dev.readGives (s : Dev) (o : Nat) (v : Word) : Dev := { s with reads := s.reads.put 0 o v }

/-- An access waits for a stopped clock (R505). -/
def Dev.hold (s : Dev) (x : HeldAccess) : Dev := { s with clocks := { s.clocks with held := s.clocks.held ++ [x] } }

/-- Origin `o` holds no unit any more (R508). -/
def Dev.dropHolds (s : Dev) (o : Nat) : Dev :=
  { s with clocks := { s.clocks with
    holders := s.clocks.holders.filterMap (fun (e : Nat × BitVec 11) =>
      let m := e.2 &&& ~~~ ((1 : BitVec 11) <<< o)
      if m = 0 then none else some (e.1, m)) } }

/-- Demand for a unit (R503): its branch runs again. -/
def Dev.demand (s : Dev) (c u : Nat) : Dev :=
  { s with clocks := { s.clocks with stopped := s.clocks.stopped.filter (· ≠ 256 * c + u) } }

/-- Demand for every unit of a cluster. -/
def Dev.demandCluster (s : Dev) (c : Nat) : Dev :=
  { s with clocks := { s.clocks with stopped := s.clocks.stopped.filter (fun k => k / 256 ≠ c) } }

/-! ## The origin access matrix -/

/-- The origins the matrix governs (R534). -/
def governed (o : Nat) : Bool := (1 ≤ o && o ≤ 6) || o = 9

/-- Whether the matrix lets an origin write (0), read (1) or command (2) a block. -/
def Dev.permitted (s : Dev) (which o block : Nat) : Bool :=
  !governed o || (which = 1 && block = 0) || s.rb (rasReg (0x1000 + 0x10 * o + 4 * which)) block

/-- A denial is counted for a host (R46, R534). -/
def Dev.countDenied (s : Dev) (o : Nat) : Dev := if o = 1 ∨ o = 2 then s.onBasjo (fun b => b.count (hostReg (o - 1) 0x14)) else s

/-- A denied access: counted, and logged with the value found and the value offered. -/
def Dev.denied (s : Dev) (o cluster unit op target : Nat) (old new : List Byte) : Dev :=
  (s.countDenied o).log o kDenied cluster unit op target old new

/-- Whether an origin can reach a block at all: Heartwood and its bridge answer origins 3 to 6 only (R406), and origin 7
reaches nothing but the bridge's notices (R446). -/
def reaches (o block : Nat) : Bool := if block = 13 ∨ block = 14 then 3 ≤ o && o ≤ 6 else o ≠ 7

/-- What a write meets before the register it names: the state after it, and whether the write goes on. One to an absent
unit makes no change-log entry whatever the matrix says (R10), and neither does one the origin does not reach (R406). A
forbidden write is a denial (R534), at an address no chapter assigns as well (R589); else such an address ignores it, and so
does a pair register in split mode (R595). One to an unpowered unit is counted, and goes on only in the CFG domain (R506). -/
def Dev.passAccess (s : Dev) (a : Acc) (addr : Nat) (assigned cfg : Bool) (old new : List Byte) : Dev × Bool :=
  match blockOf addr with
  | none => (s, false)
  | some b =>
    let cu := unitOf addr
    if !reaches a.origin b || !addrPresent s.variant s.split addr then (s, false)
    else if !s.permitted 0 a.origin b then (s.denied a.origin cu.1 cu.2 0 addr old new, false)
    else if !assigned || (s.split && pairWindow addr) then (s, false)
    else if !s.unitPowered cu.1 cu.2 then (s.count 0x54, cfg)
    else (s, true)

/-- An accepted write to a field with an effect of its own, and its change-log entry; the access is demand for its unit (R503). `f` is the
effect; the register is logged as it stood and as it stands after. -/
def Dev.writeField (s : Dev) (a : Acc) (addr : Nat) (new : Word) (f : Dev → Dev) : Dev :=
  let read (s : Dev) := if blockOf addr = some 1 then s.basjo.reg addr else s.reg addr
  let old := read s
  let p := s.passAccess a addr true true (leBytes 4 old.toNat) (leBytes 4 new.toNat)
  if !p.2 then p.1
  else
    let cu := unitOf addr
    f ((p.1.log a.origin kRegister cu.1 cu.2 0 addr (leBytes 4 old.toNat) (leBytes 4 new.toNat)).demand cu.1 cu.2)

/-- An accepted write of W1S bits, `new` among them, which act in the domain of their unit (R504): one without power ignores them
(R506), and one whose clock is stopped holds the access (R505). -/
def Dev.writeOwn (s : Dev) (a : Acc) (addr : Nat) (new : Word) (f : Dev → Dev) : Dev :=
  let old := s.reg addr
  let p := s.passAccess a addr true false (leBytes 4 old.toNat) (leBytes 4 new.toNat)
  if !p.2 then p.1
  else
    let cu := unitOf addr
    let s := p.1.log a.origin kRegister cu.1 cu.2 0 addr (leBytes 4 old.toNat) (leBytes 4 new.toNat)
    if s.clockOff cu.1 cu.2 then s.hold ⟨a, addr, some new, 0, false, cu.1, cu.2⟩ else f s

end Sys2Proof.Machine
end

