-- ==== Sys2Proof/Machine/RasCore.lean ====
section
/-! DEFINITION. What RAS counts of a unit and of a row, and the retirement of a row (R161, R524 to R526). -/
namespace Sys2Proof.Machine

/-- A retirement is told and logged (R526): with `spare` the unit brought in, or without. -/
def Dev.spareEvent (s : Dev) (cause cl un a : Nat) : Dev := (s.raise 57 cause cl un a s.tick).logHw kHardware cl un

/-- What RAS counts of a unit. -/
def Dev.rasUnit (s : Dev) (c u : Nat) : RasUnit := s.ras.units.get .idle (256 * c + u)
def Dev.setRasUnit (s : Dev) (c u : Nat) (x : RasUnit) : Dev :=
  { s with ras := { s.ras with units := s.ras.units.put .idle (256 * c + u) x } }

/-- A unit is retired, with none to replace it. -/
def Dev.dropUnit (s : Dev) (c u : Nat) : Dev := s.setRasUnit c u { s.rasUnit c u with retired := true }

/-- A unit is retired and its spare takes its place (R26). -/
def Dev.swapUnits (s : Dev) (c u sp : Nat) : Dev :=
  (s.setRasUnit c u { s.rasUnit c u with retired := true, other := some sp }).setRasUnit c sp { s.rasUnit c sp with other := some u }

/-- The kind k of R525 a unit belongs to. -/
def rasKind (c u : Nat) : Option Nat :=
  if c = 0x20 ∧ u = 0 then some 0
  else if 0x10 ≤ c ∧ c < 0x14 then (if u < 9 then some 1 else if u = 0xFF then some 2 else none)
  else if c = 0x40 then (if u < 7 then some 3 else if 16 ≤ u ∧ u < 25 then some 4 else none)
  else none

/-- RETIRE and WARN of a kind. -/
def Dev.retireAt (s : Dev) (k : Nat) : Nat := s.rf (rasReg (0x30 + 4 * k)) 15 0
def Dev.warnAt (s : Dev) (k : Nat) : Nat := s.rf (rasReg (0x30 + 4 * k)) 31 16

/-- ECC_TREND (R524). -/
def Dev.eccTrend (s : Dev) (cause c u : Nat) : Dev := s.raise 58 cause 0x70 0 (c * 256 + u) (s.rasUnit c u).win

/-- A corrected error counts against its unit, and warns once per window (R524). -/
def Dev.countCe (s : Dev) (c u : Nat) : Dev :=
  let x := s.rasUnit c u
  let s := s.setRasUnit c u { x with win := x.win + 1, total := x.total + 1 }
  match rasKind c u with
  | none => s
  | some k => if x.warned || x.win + 1 < s.warnAt k then s
      else (s.setRasUnit c u { s.rasUnit c u with warned := true }).eccTrend 1 c u

/-- An uncorrectable error counts against its unit. -/
def Dev.countUe (s : Dev) (c u : Nat) : Dev :=
  let x := s.rasUnit c u
  s.setRasUnit c u { x with ue := x.ue + 1 }

/-- A row of a Grove's copy, by its key in the counts of the window, is retired to a spare row; with none left it stays in use. -/
def Dev.retireRow (s : Dev) (g key : Nat) : Dev :=
  let n := s.ras.rowsOut.get 0 g
  if n < 128 then
    ({ s with ras := { s.ras with rows := s.ras.rows.put 0 key 0, rowsOut := s.ras.rowsOut.put 0 g (n + 1) } } : Dev).spareEvent 2
      (0x10 + g) 0xFF (n + 1)
  else s.spareEvent 3 (0x10 + g) 0xFF n

/-- An error met in a row of a Grove's memory counts against the row and the Grove, and retires the row at RETIRE (R161, R524, R525). -/
def Dev.countRow (s : Dev) (g key : Nat) : Dev :=
  let n := s.ras.rows.get 0 key + 1
  let s := ({ s with ras := { s.ras with rows := s.ras.rows.put 0 key n } } : Dev).countCe (0x10 + g) 0xFF
  if n ≥ s.retireAt 2 then s.retireRow g key else s

/-- The row of a Grove's Bough memory, and the row of its forwarding database a slot lies in: a bucket of eight slots (DESIGN CHOICE, log
entry 67). -/
def boughRowKey (g row : Nat) : Nat := 16384 * g + row
def fdbRowKey (g slot : Nat) : Nat := 65536 + 32768 * g + slot / 8

end Sys2Proof.Machine
end

