-- ==== Sys2Proof/Machine/Operands.lean ====
section
/-! DEFINITION. Command descriptors: how a command of a CMD ring starts, what is checked, and how it completes
(R66 to R69), and how a ring stops at an entry (R57). -/
namespace Sys2Proof

/-- The five PARAM words of a descriptor. -/
def CmdDesc.params (d : CmdDesc) : List DWord := [d.p8, d.p16, d.p24, d.p32, d.p40]

/-- The 40 PARAM octets. -/
def CmdDesc.octets (d : CmdDesc) : List Byte := d.params.flatMap (fun w => Machine.leBytes 8 w.toNat)

/-- CLUSTER, UNIT, OP, NOTIFY and TAG of the word at offset 0 (R66). -/
def CmdDesc.cl (d : CmdDesc) : Nat := Machine.fld d.w0 7 0
def CmdDesc.un (d : CmdDesc) : Nat := Machine.fld d.w0 15 8
def CmdDesc.op (d : CmdDesc) : Nat := Machine.fld d.w0 23 16
def CmdDesc.notify (d : CmdDesc) : Bool := Machine.bit d.w0 24
def CmdDesc.tag (d : CmdDesc) : Nat := Machine.fld d.w0 47 32

/-- The PARAM octets as the change log hashes them: KEY_LOAD's key octets are zero (R537). -/
def CmdDesc.logOctets (d : CmdDesc) : List Byte :=
  if d.cl = 0x40 ∧ d.op = 0x20 then Machine.leBytes 8 d.p8.toNat ++ Machine.zeros 32 else d.octets

/-- Whether a reserved bit at offset 0 is set. -/
def CmdDesc.reserved (d : CmdDesc) : Bool := decide (d.w0 &&& 0xFFFF0000FE000000 ≠ 0)

/-- The origin of a ring's commands (R43). -/
def CmdDesc.origin (d : CmdDesc) : Nat := d.host.val + 1

/-- Whether a PARAM bit outside `mask`, five words, is set (R68). -/
def CmdDesc.strayBits (d : CmdDesc) (mask : List Nat) : Bool :=
  (d.params.zip mask).any (fun p => decide (p.1 &&& ~~~ BitVec.ofNat 64 p.2 ≠ 0))

end Sys2Proof

namespace Sys2Proof.Machine

/-! ## Completion codes (R69) -/
abbrev stOk : Nat := 0x00
abbrev stNotPresent : Nat := 0x01
abbrev stBadOpcode : Nat := 0x02
abbrev stBadParam : Nat := 0x03
abbrev stDenied : Nat := 0x04
abbrev stTimeout : Nat := 0x05
abbrev stNotFound : Nat := 0x06
abbrev stFull : Nat := 0x07
abbrev stExhausted : Nat := 0x08
abbrev stAuthFail : Nat := 0x09
abbrev stTooLong : Nat := 0x0A
abbrev stTampered : Nat := 0x0B
abbrev stDmaErr : Nat := 0x0C
abbrev stAborted : Nat := 0x0D
abbrev stWrongMode : Nat := 0x0E
abbrev stIncompatible : Nat := 0x0F

/-- How a command's own part ends: completed with a status and its results, or running on. -/
inductive CmdRes where
  | done (s : Dev) (status a b : Nat)
  | wait (s : Dev)

/-- A command that changes nothing and completes with a code. -/
def CmdRes.fail (s : Dev) (status : Nat) : CmdRes := .done s status 0 0

/-- Set or clear ACTIVE. -/
def Basjo.setActive (b : Basjo) (h r : Nat) (v : Bool) : Basjo := b.setRf (ringReg h r 0x1C) 4 4 v.toNat

/-- A ring stops at an entry (R57): cause 1 a malformed descriptor, cause 2 a failed access. A transmit ring gives up the frame it was
reading, so that the port's other rings go on (R58). -/
def Dev.ringFault (s : Dev) (h r : Nat) (dma : Bool) : Dev :=
  let s := s.onBasjo (fun b =>
    let b := if dma then b.count (hostReg h 0x1C) else b
    ((b.setRf (ringReg h r 0x1C) dma.toNat dma.toNat 1).setRing h r
      { b.ring h r with stopped := true, running := none, waiting := none, descs := [], rejecting := false }).setActive h r false)
  s.raiseAt h 2 (1 + dma.toNat) 1 h r (s.basjo.devIdx h r).toNat

/-- The units R25 lists for a cluster, on any variant and in either mode of Canopy. -/
def unitListed (c u : Nat) : Bool := unitPresent .m false c u || unitPresent .m true c u
def unitList (c : Nat) : List Nat := (List.range 256).filter (unitListed c)

/-- The CLUSTER and UNIT that CMD_DONE and CMD_ERR show: the descriptor's, where R24 and R25 list them. Of a descriptor that names
none of theirs the spec says only that no other is emitted: which is shown is free among the listed ones (DESIGN CHOICE, log entry 13). -/
def CmdDesc.shown (d : CmdDesc) : Nat × Nat :=
  let c := if knownCluster d.cl then d.cl else clusterList.getD (Config.shownCluster d.cl % clusterList.length) 0
  (c, if unitListed c d.un then d.un else (unitList c).getD (Config.shownUnit c d.un % (unitList c).length) 0xFF)

/-- What the driver of a command is told: offsets 48 to 63 are written, DONE among them, the device index advances, and
CMD_DONE or CMD_ERR is raised (R68).
Where the ring no longer runs or drains, nothing is written (R79); a write that ends with an error stops the ring at the
entry (R57). -/
def Dev.finish (s : Dev) (d : CmdDesc) (status a b : Nat) : Dev :=
  let h := d.host.val
  let r := d.ring.val
  if !s.basjo.ringActive h r then s.onBasjo (fun x => x.setRing h r { x.ring h r with running := none, waiting := none })
  else if d.writeErr then s.ringFault h r true
  else
    let s := s.onBasjo (fun x =>
      let e := x.entryAddr h r 64 (x.devIdx h r)
      ((x.store h (e + 48) (leBytes 8 (a % 2 ^ 32 * 2 ^ 32 + 256 + status) ++ leBytes 8 b)).advance h r 1).setRing h r
        { x.ring h r with running := none, waiting := none })
    if status = stOk ∧ !d.notify then s
    else s.raiseAt h (if status = stOk then 0 else 1) status (CmdDesc.shown d).1 (CmdDesc.shown d).2 (d.tag + r * 2 ^ 16) (a % 2 ^ 32)

/-- The change-log entry of a command that changed state, with its PARAM octets (R536, R537). -/
def Dev.logCommand (s : Dev) (d : CmdDesc) (op kind status : Nat) : Dev :=
  s.logRaw d.origin kind d.cl d.un op (d.tag * 2 ^ 16 + status) 0 (hash8 d.logOctets)

/-- Complete a command (R68, R536): one that changes state and ends with OK is logged, then its driver is told. A command that
changes state and ends with another code makes its entry itself. -/
def Dev.complete (s : Dev) (d : CmdDesc) (op : Nat) (kind : Option Nat) (status a b : Nat) : Dev :=
  let s := match kind with
    | some k => if status = stOk then s.logCommand d op k status else s
    | none => s
  s.finish d status a b

/-- A write that origin `o` made before has not taken effect: its unit's clock is stopped (R505). -/
def Dev.heldWrite (s : Dev) (o : Nat) : Bool := s.clocks.held.any (fun x => x.acc.origin.val = o && x.value.isSome)

/-- Whether the device may read the command descriptor at the head of a ring: the ring is an active CMD ring with an entry
outstanding, no command of it runs (R67), and the port's writes before have taken effect (R54). -/
def Dev.cmdReady (s : Dev) (d : CmdDesc) : Bool :=
  let b := s.basjo
  let h := d.host.val
  let r := d.ring.val
  b.ringType h r = 3 && b.ringActive h r && !(b.ring h r).stopped && decide (b.hostIdx h r ≠ b.devIdx h r)
    && decide ((b.ring h r).running = none) && !s.heldWrite d.origin

/-- The commands that run on, with their rings, lowest ring first. -/
def Dev.runningCmds (s : Dev) : List (Nat × Nat × Running) :=
  s.basjo.rings.filterMap (fun e => e.2.running.map (fun r => (e.1 / 128, e.1 % 128, r)))

/-- Whether a unit executes a command (R67), on a ring that still runs it or no longer does (R79). -/
def Dev.unitBusy (s : Dev) (c u : Nat) : Bool :=
  s.runningCmds.any (fun e => e.2.2.desc.cl = c && e.2.2.desc.un = u)
    || (c = 0 && s.tap.modeCmd.isSome) || (c = 0x10 && u = 0xFF && s.groves.commit.isSome)
    || (c = 0x30 && u = 2 && s.bark.flushing.isSome) || (c = 0x40 && (s.burl.changes.any (fun x => x.desc.un = u) || (u = 34 && !s.burl.clears.isEmpty)))

/-- Whether two descriptors hold the same words, however their accesses end. -/
def CmdDesc.sameWords (d e : CmdDesc) : Bool := { e with readErr := d.readErr, writeErr := d.writeErr } = d

/-- Whether one waiting command comes before another at their unit (R67): in order of arrival, and of arrivals in one CORE cycle in order
of origin code. -/
def CmdWait.before (x y : CmdWait) : Bool :=
  if x.at_ / 256 = y.at_ / 256 ∧ x.desc.origin ≠ y.desc.origin then x.desc.origin < y.desc.origin else x.arrival < y.arrival

/-- The command at the head of a ring as it waits for its unit: since before, or from now on. -/
def Dev.waitOf (s : Dev) (d : CmdDesc) : CmdWait :=
  ((s.basjo.ring d.host.val d.ring.val).waiting).getD ⟨d, s.now, s.basjo.arrivals⟩

/-- Whether a command of another ring that runs waits for the same unit, and comes first (R67). -/
def Dev.waitsBehind (s : Dev) (d : CmdDesc) : Bool :=
  s.basjo.rings.any (fun e => e.1 ≠ 128 * d.host.val + d.ring.val && s.basjo.ringRuns (e.1 / 128) (e.1 % 128) 3
    && match e.2.waiting with
      | some w => w.desc.cl = d.cl && w.desc.un = d.un && w.before (s.waitOf d)
      | none => false)

/-- A command waits for its unit (R67). -/
def Dev.waitUnit (s : Dev) (d : CmdDesc) : Dev :=
  if ((s.basjo.ring d.host.val d.ring.val).waiting).isSome then s
  else s.onBasjo (fun b => { b.setRing d.host.val d.ring.val { b.ring d.host.val d.ring.val with waiting := some (s.waitOf d) } with
    arrivals := b.arrivals + 1 })

/-- The operation codes of the commands of a unit, from the chapters of the clusters. LC_ADVANCE's is not given (R386). -/
def unitOps (c u : Nat) : List Nat :=
  if c = 0 then (if u = 0 then [1, 3] else [])
  else if c = 2 then (if 40 ≤ u ∧ u < 44 then [1, 2, 3, 4] else [])
  else if 0x10 ≤ c ∧ c < 0x14 then
    (if c = 0x10 ∧ u = 0xFF then [1, 2] else if u = 17 then (if c = 0x10 then [0x10, 0x11, 0x12, 0x13, 0x14] else [0x13, 0x14])
      else if u = 18 then (if c = 0x10 then [0x20, 0x21] else [0x21]) else [])
  else if c = 0x21 then (if u < 38 then [1] else [])
  else if c = 0x30 then (if u = 2 then [1, 2] else [])
  else if c = 0x31 then (if u = 64 then [1, 2, 3, 4] else if u = 66 then [1, 2, 3] else [])
  else if c = 0x40 then
    (if u = 0xFF then [1, 2, 3, 4, 5, 6] else if u = 34 then [0x10, 0x11, 0x12, 0x13, 0x14, 0x15]
      else if u = 32 then [0x30, 0x31, 0x32] else if u = 33 then [0x38] else []) ++ [0x20, 0x21, 0x22, 0x23, 0x24, 0x25, 0x26]
  else if c = 0x70 then (if u = 0 then [1] else [])
  else if c = 0x71 then (if u = 0 then [1, 2, 3] else [])
  else if c = 0x72 then (if u = 0 then [1, 2, 3, 4] else [])
  else []

/-- The checks of R68 before a command's own: the first that applies, or none. `known`: OP is one of the target's. -/
def Dev.cmdCheck (s : Dev) (d : CmdDesc) (known : Bool) (mask : List Nat) : Option Nat :=
  if !knownCluster d.cl then some stBadOpcode
  else if !unitPresent s.variant s.split d.cl d.un then some stNotPresent
  else if !s.permitted 2 d.origin (clusterBlock d.cl) then some stDenied
  else if !known then some stBadOpcode
  else if d.reserved then some stBadParam
  else if d.strayBits mask then some stBadParam
  else none

/-- Run a command (R67, R68) whose row is that of cluster, unit and `op`. A descriptor that spells another row's command is not
this row's, nor is one other than the command the ring waits with. One that cannot be read stops the ring (R57). A ring that drains
completes it with ABORTED (R56). It waits, in its place, while its unit executes another or others came first (R67). A denied one is
logged (R534). -/
def Dev.command (s : Dev) (d : CmdDesc) (clusterOk unitOk : Nat → Bool) (op : Nat) (mask : List Nat) (kind : Option Nat)
    (body : Dev → CmdRes) : Dev :=
  let mine := clusterOk d.cl && unitOk d.un && d.op = op
  if !s.cmdReady d || !CmdDesc.sameWords d (s.waitOf d).desc then s
  else if d.readErr && ((s.basjo.ring d.host.val d.ring.val).waiting).isNone then s.ringFault d.host.val d.ring.val true
  else if (unitOps d.cl d.un).contains d.op && !mine then s
  else if !s.basjo.ringEnabled d.host.val d.ring.val || !s.basjo.rb (hostReg d.host.val 0) 0 then s.finish d stAborted 0 0
  else if s.unitBusy d.cl d.un || s.waitsBehind d then s.waitUnit d
  else match s.cmdCheck d mine mask with
    | some c =>
      let s := if c = stDenied
        then (s.countDenied d.origin).logCommand d d.op kDenied c else s
      s.finish d c 0 0
    | none => match body (s.demand d.cl d.un) with
      | .done s' st a b => s'.complete d op kind st a b
      | .wait s' => s'.onBasjo (fun x => x.setRing d.host.val d.ring.val
          { x.ring d.host.val d.ring.val with running := some ⟨d, op, s.now⟩, waiting := none })

/-- Complete a command that ran on: it is logged, and its driver is told while its ring still runs it. -/
def Dev.completeLate (s : Dev) (d : CmdDesc) (op : Nat) (kind : Option Nat) (status a b : Nat) : Dev :=
  let mine (s : Dev) : Bool := match (s.basjo.ring d.host.val d.ring.val).running with | some r => r.desc = d && r.op = op | none => false
  if mine s then s.complete d op kind status a b
  else match kind with
    | some k => if status = stOk then s.logCommand d op k status else s
    | none => s

/-- Exactly one cluster or unit. -/
def isOne (n : Nat) : Nat → Bool := fun k => k = n

/-- Any unit. -/
def anyUnit : Nat → Bool := fun _ => true

/-- No PARAM at all. -/
abbrev noParams : List Nat := [0, 0, 0, 0, 0]

/-- All 64 bits of a PARAM word. -/
abbrev all64 : Nat := 0xFFFFFFFFFFFFFFFF

/-- The host memory address a PARAM word holds. -/
def hostAddr (w : DWord) : Nat := w.toNat

/-- Count a failed device access (R57). -/
def Dev.dmaFail (s : Dev) (h : Nat) : Dev := s.onBasjo (fun b => b.count (hostReg h 0x1C))

/-! ## Posted buffers (R62, R473) -/

/-- How posted buffers meet a frame: too few, one malformed, or the buffers used with the octets of each. -/
inductive Fill where
  | short
  | bad
  | fits (l : List (RxBuf × Nat))
  deriving DecidableEq, Repr

/-- Fill posted buffers in ring order with `n` octets; a BUF_LEN is a multiple of 64 from `least` to 16,384. -/
def fillBufs (least : Nat) : Nat → List RxBuf → Fill
  | n, [] => if n = 0 then .fits [] else .short
  | n, b :: r =>
    if n = 0 then .fits []
    else if b.addr.toNat % 64 ≠ 0 ∨ b.len.toNat % 64 ≠ 0 ∨ b.len.toNat < least ∨ b.len.toNat > 16384 then .bad
    else match fillBufs least (n - b.len.toNat) r with
      | .fits l => .fits ((b, min n b.len.toNat) :: l)
      | x => x

end Sys2Proof.Machine
end

