-- ==== Sys2Proof/Machine/GateList.lean ====
section
/-! DEFINITION. Reading a port's gate control lists: the states in force at a working time, the next close, the longest open
run (R233 to R236, R241), and the credit-based shaper, which a closed gate freezes (R231). -/
namespace Sys2Proof.Machine

/-- The service port of SAFE, where there is one (R521); an absent port is none (R13). -/
def Dev.servicePort (s : Dev) : Option Nat := if s.rb (rasReg 4) 31 && portPresent s.variant (s.rf (rasReg 4) 5 0) then some (s.rf (rasReg 4) 5 0) else none

/-- One tick of working time, in 2^-16 ns. -/
abbrev tickUnits : Int := 163840

/-- A gate list machine before its first commit. -/
def GateRun.idle : GateRun := ⟨[], 0, none, false⟩

/-- A port's gate list machine. -/
def Dev.gate (s : Dev) (n : Nat) : GateRun := s.crown.gates.get .idle n
def Dev.setGate (s : Dev) (n : Nat) (g : GateRun) : Dev := { s with crown := { s.crown with gates := s.crown.gates.put .idle n g } }

/-- An entry's OP, gates and interval (R233). -/
def gateOp (e : DWord) : Nat := fld e 41 40
def gateSet (e : DWord) : Nat := fld e 39 32
def gateTicks (e : DWord) : Nat := fld e 31 0

/-- The administrative bank of a port. -/
def Dev.adminBank (s : Dev) (n k : Nat) : List DWord := (List.range k).map (fun i => s.word (gclAddr n i))

/-- A list in force: its entries, base and cycle in ticks. -/
structure GateList where
  entries : List DWord
  base : Int
  cycle : Nat
  deriving DecidableEq, Repr

/-- The entry in force `p` ticks into a cycle: its number, the entry, and where it ends in the cycle. The last entry holds
until the cycle ends, and the cycle's end cuts an entry short. -/
def entryAt (cycle p : Nat) : Nat → Nat → List DWord → Nat × DWord × Nat
  | i, _, [] => (i, 0, cycle)
  | i, _, [e] => (i, e, cycle)
  | i, acc, e :: r => if p < acc + gateTicks e || cycle ≤ acc + gateTicks e then (i, e, min cycle (acc + gateTicks e))
      else entryAt cycle p (i + 1) (acc + gateTicks e) r

/-- The entry a list has in force at a working time, and the time it ends. -/
def GateList.at_ (l : GateList) (t : Int) : Nat × DWord × Int :=
  let tick := (t - l.base) / tickUnits
  let x := entryAt l.cycle (tick % l.cycle).toNat 0 0 l.entries
  (x.1, x.2.1, l.base + (tick / l.cycle * l.cycle + x.2.2) * tickUnits)

/-- The operational list of a port, and the list of its pending change. -/
def Dev.operList (s : Dev) (n : Nat) : Option GateList :=
  if s.rb (crownReg n 0x14) 0 then some ⟨(s.gate n).bank.take (s.rf (crownReg n 0x30) 8 0), (s.gate n).base, (s.reg (crownReg n 0x34)).toNat⟩
  else none
def Dev.nextList (s : Dev) (n : Nat) (p : GatePending) : GateList := ⟨s.adminBank n p.len, p.cct, p.cycle⟩

/-- The entry in force on a port at a working time, where a list runs then, and the time it ends; a pending change is
read forward (R235), and a cycle it extends holds the states before it (R241). -/
def Dev.gateEntry (s : Dev) (n : Nat) (t : Int) : Option (Nat × DWord) × Option Int :=
  if !s.rb (crownReg n 0x10) 31 then (none, none)
  else
    let cut (e : Int) (l : Option GateList) (t : Int) : Option (Nat × DWord) × Option Int :=
      match l with
      | some l => let x := l.at_ t; (some (x.1, x.2.1), some (min e x.2.2))
      | none => (none, some e)
    match (s.gate n).pending with
    | none => (match s.operList n with
      | some l => let x := l.at_ t; (some (x.1, x.2.1), some x.2.2)
      | none => (none, none))
    | some p =>
      if t ≥ p.cct then (let x := (s.nextList n p).at_ t; (some (x.1, x.2.1), some x.2.2))
      else match p.hold with
        | some h => if t ≥ h then ((cut p.cct (s.operList n) (h - 1)).1, some p.cct) else cut h (s.operList n) t
        | none => cut p.cct (s.operList n) t

/-- The gate states of a port at a working time; in SAFE every gate is closed but the service port's (R520). -/
def Dev.gates (s : Dev) (n : Nat) (t : Int) : Nat :=
  if s.safe then (if s.servicePort = some n then 0xFF else 0)
  else match (s.gateEntry n t).1 with
    | some e => gateSet e.2
    | none => 0xFF

/-- Whether the gate of class `c` is open now. -/
def Dev.gateOpen (s : Dev) (n c : Nat) : Bool := (s.gates n s.wt).testBit c

/-- The next working time at which the gate of class `c`, open at `t`, closes; `k` bounds the search. -/
def Dev.nextClose (s : Dev) (n c : Nat) : Nat → Int → Option Int
  | 0, _ => none
  | k + 1, t => if s.safe then none else match (s.gateEntry n t).2 with
    | none => none
    | some e => if !(s.gates n e).testBit c then some e else s.nextClose n c k e

/-- The close instant of class `c`, open now (R235): a list that does not close the gate in all its entries does not close it
before a pending change, from which the search goes on. -/
def Dev.closeOf (s : Dev) (n c : Nat) : Option Int :=
  match s.nextClose n c 600 s.wt, (s.gate n).pending with
  | none, some p =>
    if s.wt ≥ p.cct || s.safe || !s.rb (crownReg n 0x10) 31 then none
    else if !(s.gates n p.cct).testBit c then some p.cct else s.nextClose n c 600 p.cct
  | x, _ => x

/-- The ticks each entry of a list lasts in a cycle. -/
def entrySpans (cycle : Nat) : Nat → List DWord → List (Nat × Nat)
  | _, [] => []
  | acc, [e] => [(gateSet e, cycle - acc)]
  | acc, e :: r => (gateSet e, min (gateTicks e) (cycle - acc)) :: entrySpans cycle (acc + gateTicks e) r

/-- The longest run of open spans of class `c`, over a list read twice around. -/
def longestRun (c : Nat) : Nat → Nat → List (Nat × Nat) → Nat
  | best, _, [] => best
  | best, run, e :: r => if e.2 = 0 then longestRun c best run r
      else if e.1.testBit c then longestRun c (max best (run + e.2)) (run + e.2) r else longestRun c best 0 r

/-- The longest open time of class `c` in the list in force, in ticks of working time: none where no list runs, or the
gate never closes, or never opens (R236). -/
def Dev.openRun (s : Dev) (n c : Nat) : Option Nat :=
  if s.safe || !s.rb (crownReg n 0x10) 31 then none
  else match s.operList n with
    | none => none
    | some l =>
      let spans := (entrySpans l.cycle 0 l.entries).filter (fun e => e.2 ≠ 0)
      if spans.all (fun e => e.1.testBit c) || !spans.any (fun e => e.1.testBit c) then none
      else some (longestRun c 0 0 (spans ++ spans))

/-- A span of working time in 1/256 ticks of raw time, at the selected domain's present rate. -/
def Dev.rawOf (s : Dev) (span : Int) : Int := span * 2 ^ 56 / (640 * (2 ^ 56 + (s.triple (domReg s.sel 0x40)).rate))

/-! ## The credit-based shaper (R231) -/

/-- The data rate of a PCS type in Mb/s (R80), and of a port. -/
def pcsRate (t : Nat) : Nat := match t with | 1 => 25000 | 2 | 3 => 10000 | 4 => 2500 | 5 => 1000 | 6 => 10 | _ => 0
def Dev.portRate (s : Dev) (n : Nat) : Nat := pcsRate (s.rf (portReg n 0) 19 16)

/-- The port, number, and register block of a queue (R181, R250). -/
def queuePort (q : Nat) : Nat := if q < 288 then q / 8 else if q < 320 then 36 else 37
def queueNo (q : Nat) : Nat := if q < 288 then q % 8 else (q - 288) % 32
abbrev cq (q off : Nat) : Nat := crownQ (queuePort q) (queueNo q) off

/-- A queue's state, where one is held: else both buckets stand at their bursts, or the credit at 0 (R232). -/
def Dev.cqState (s : Dev) (q : Nat) : CrownQueue :=
  (s.crown.queues.get none q).getD ⟨if s.rf (cq q 0) 25 24 = 2 then 0 else s.rf (cq q 8) 23 0 * 102400000, s.rf (cq q 0x10) 23 0 * 102400000, 0, 0, false⟩
def Dev.setCq (s : Dev) (q : Nat) (v : CrownQueue) : Dev :=
  { s with crown := { s.crown with queues := s.crown.queues.put none q (some v) } }

/-- SHAPER_MODE. -/
def Dev.shaperMode (s : Dev) (q : Nat) : Nat := s.rf (cq q 0) 25 24

/-- A queue's state. -/
def Dev.tq (s : Dev) (q : Nat) : TrunkQueue := s.trunk.queues.get ⟨[], none⟩ q

/-- NEXT_SEQ and TAIL_SEQ. -/
def Dev.nextSeq (s : Dev) (q : Nat) : BitVec 16 := (s.reg (queueReg q 0x14)).extractLsb' 16 16
def Dev.tailSeq (s : Dev) (q : Nat) : BitVec 16 := (s.reg (queueReg q 0x14)).extractLsb' 0 16

/-- Whether a descriptor's frame is on chip. -/
def Desc.onChip (d : Desc) : Bool := d.loc = .chip || d.loc = .spilling

/-- The descriptor numbered NEXT_SEQ, if it is on chip: the queue is ready (R209). -/
def Dev.head (s : Dev) (q : Nat) : Option Desc := (s.tq q).descs.find? (fun d => d.seq = s.nextSeq q && d.onChip)

/-- The credit of a credit-based queue now: its queue, its transmitter and the gate states in force (GATE_STATUS) have been as they are
since it last stood. A closed gate freezes it, whatever is being sent; a queue that is not ready is empty to Crown (R209). -/
def Dev.creditNow (s : Dev) (q : Nat) : Int :=
  let x := s.cqState q
  let dt : Int := (s.now : Int) - x.upd
  let cir : Int := s.rf (cq q 4) 21 0
  let sends : Bool := match s.crown.tx.get none (queuePort q) with | some t => t.queue == q | none => false
  let cap : Int := s.rf (cq q 8) 23 0 * 102400000
  if !s.rb (crownReg (queuePort q) 0x14) (24 + queueNo q) then x.c
  else if sends then min cap (x.c + (cir - s.portRate (queuePort q) * 125) * dt)
  else if (s.head q).isNone then (if x.c > 0 then 0 else min 0 (x.c + cir * dt))
  else min cap (x.c + cir * dt)

/-- Bring the credit of a credit-based queue to the present, before what drives it changes. -/
def Dev.creditTouch (s : Dev) (q : Nat) : Dev :=
  if s.shaperMode q = 2 then s.setCq q { s.cqState q with c := s.creditNow q, upd := s.now } else s

/-- Bring every credit-based queue of a port to the present. -/
def Dev.creditPort (s : Dev) (n : Nat) : Dev := if n < 36 then (List.range 8).foldl (fun s t => s.creditTouch (8 * n + t)) s else s

end Sys2Proof.Machine
end

