-- ==== Sys2Proof/Machine/Trunk.lean ====
section
/-! DEFINITION. The Trunk: cells, stored frames, descriptors, admission to queues, overflow, resequencing, residence
deadlines and external memory (R181 to R218). -/
namespace Sys2Proof.Machine

/-! ## Cells (R182 to R190) -/

/-- The cells of `n` octets. -/
def cellsOf (n : Nat) : Nat := (n + 255) / 256

/-- FREE_CELLS, USED, RSV. -/
def Dev.freeCells (s : Dev) : Nat := s.rf (trunkReg 0) 16 0
def Dev.usedCells (s : Dev) (p : Nat) : Nat := s.rf (trunkReg (0x1008 + 0x20 * p)) 16 0
def Dev.rsv (s : Dev) (p : Nat) : Nat := s.rf (trunkReg (0x1000 + 0x20 * p)) 16 0

/-- The ingress ports of R186: all 40. Their registers are the Trunk's, not those of the ports: they stand for an absent port too, and its
RSV counts as it reads (DESIGN CHOICE, log entry 10). -/
def rsvPorts : List Nat := List.range 40

/-- The number of cell `k` of a run: a cell of a bank that is not lost (R184); which one is not stated. -/
def CellRun.cell (r : CellRun) (k : Nat) : Nat :=
  let x := (Config.cellAt r.no k).toNat
  let places := (List.range 16).filter (fun p => !r.lost.contains p)
  places.getD (x / 4096 % places.length) 0 * 4096 + x % 4096

/-- The cells of a chain, in order. -/
def chainCells (l : List CellRun) : List Nat := l.flatMap (fun r => (List.range r.n).map r.cell)

/-- The cells of the first `n` of a chain in the bank at a place (R182). -/
def chainIn (place : Nat) (l : List CellRun) (n : Nat) : Nat := ((chainCells l).take n).countP (fun c => c / 4096 = place)

/-- The chains of cells that frames hold, with the cells held of each. -/
def Dev.chains (s : Dev) : List (List CellRun × Nat) :=
  s.trunk.frames.filterMap (fun e => e.2.map (fun f => (f.chain, f.cells)))
    ++ s.rx.filterMap (fun e => e.2.map (fun f => (f.chain, f.cells))) ++ s.passed.map (fun f => (f.chain, f.cells))
    ++ s.ended.flatMap (fun e => e.2.map (fun f => (f.chain, f.cells)))
    ++ s.ports.filterMap (fun e => e.2.reasm.map (fun f => (f.chain, f.cells)))

/-- The cells that frames hold in the bank at a place. -/
def Dev.liveIn (s : Dev) (place : Nat) : Nat := s.chains.foldl (fun a c => a + chainIn place c.1 c.2) 0

/-- The free cells of banks lost that still hold frames: they count in FREE_CELLS and are not taken again (R184). -/
def Dev.idleLost (s : Dev) : Nat := s.trunk.leaving.foldl (fun a b => a + (4096 - s.liveIn b.place)) 0

/-- A bank lost leaves the free list when no frame holds a cell of it any more (R184). -/
def Dev.banksGo (s : Dev) : Dev :=
  match s.trunk.leaving with
  | [] => s
  | l =>
    let gone := l.filter (fun b => s.liveIn b.place = 0)
    ({ s with trunk := { s.trunk with leaving := l.filter (fun b => s.liveIn b.place ≠ 0) } } : Dev).setRf (trunkReg 0) 16 0 (s.freeCells - 4096 * gone.length)

/-- The shared pool's free cells (R186). -/
def Dev.sharedFree (s : Dev) : Nat :=
  s.freeCells - rsvPorts.foldl (fun a p => a + (s.rsv p - s.usedCells p)) 0

/-- Whether ingress port `p` may take `n` more cells (R186). -/
def Dev.canTake (s : Dev) (p n : Nat) : Bool :=
  let used := s.usedCells p
  let rsv := s.rsv p
  let shared := (used + n) - max used rsv
  n + s.idleLost ≤ s.freeCells && (shared = 0 || (used + n - rsv ≤ s.rf (trunkReg (0x1004 + 0x20 * p)) 16 0 && shared ≤ s.sharedFree))

/-- The port with the largest USED − RSV, the lowest of equals. -/
def Dev.fullestPort (s : Dev) : Nat :=
  let ex (p : Nat) : Int := (s.usedCells p : Int) - s.rsv p
  rsvPorts.foldl (fun a p => if ex p > ex a then p else a) 0

/-- The on-chip descriptors of a queue. -/
def TrunkQueue.chipDescs (q : TrunkQueue) : Nat := q.descs.countP (fun d => d.loc = .chip || d.loc = .spilling)

/-- The queue with the most on-chip descriptors. -/
def Dev.fullestQueue (s : Dev) : Nat :=
  (s.trunk.queues.foldl (fun (a : Nat × Nat) e => if e.2.chipDescs > a.2 then (e.1, e.2.chipDescs) else a) (0, 0)).1

/-- BUFFER_PRESSURE causes 0x001 to 0x004 (R215), after any change of the gauges. -/
def Dev.pressure (s : Dev) : Dev :=
  let free := s.freeCells
  let s := if !s.trunk.press && free < s.rf (trunkReg 0x10) 16 0
    then ({ s with trunk := { s.trunk with press := true } } : Dev).raise 22 1 0x20 0 free s.fullestPort
    else if s.trunk.press && free ≥ s.rf (trunkReg 0x14) 16 0
    then ({ s with trunk := { s.trunk with press := false } } : Dev).raise 22 2 0x20 0 free 0 else s
  let desc := s.rf (trunkReg 4) 17 0
  let th := s.rf (trunkReg 0x18) 17 0
  if !s.trunk.descPress && desc < th
  then ({ s with trunk := { s.trunk with descPress := true } } : Dev).raise 22 3 0x20 1 desc s.fullestQueue
  else if s.trunk.descPress && (desc ≥ 2 * th || desc ≥ 131072)
  then ({ s with trunk := { s.trunk with descPress := false } } : Dev).raise 22 4 0x20 1 desc 0 else s

/-- The capacity of the overflow region, in external cells (R201). -/
def Dev.ovfCap (s : Dev) : Nat := s.rf (trunkReg 0x30) 10 0 * 2 ^ 20 / 288

/-- BUFFER_PRESSURE cause 0x005 and its exit (R215). -/
def Dev.ovfPressure (s : Dev) : Dev :=
  let used := s.rf (trunkReg 0x3C) 22 0
  if !s.trunk.ovfPress && used * 8 > s.ovfCap * 7
  then ({ s with trunk := { s.trunk with ovfPress := true } } : Dev).raise 22 5 0x20 2 used s.ovfCap
  else if s.trunk.ovfPress && used * 4 < s.ovfCap * 3
  then { s with trunk := { s.trunk with ovfPress := false } } else s

/-- Take cells for ingress port `p`. -/
def Dev.takeCells (s : Dev) (p n : Nat) : Dev :=
  ((s.setRf (trunkReg 0) 16 0 (s.freeCells - n)).setRf (trunkReg (0x1008 + 0x20 * p)) 16 0 (s.usedCells p + n)).pressure

/-- Give cells of ingress port `p` back (R190); the frame that held them is gone already. -/
def Dev.giveCells (s : Dev) (p n : Nat) : Dev :=
  (((s.setRf (trunkReg 0) 16 0 (s.freeCells + n)).setRf (trunkReg (0x1008 + 0x20 * p)) 16 0 (s.usedCells p - n)).banksGo).pressure

/-- The next number of a run of cells, a run of external cells or a received frame. -/
def Dev.newChain (s : Dev) : Nat × Dev := (s.trunk.nextChain, { s with trunk := { s.trunk with nextChain := s.trunk.nextChain + 1 } })

/-- A new run of `n` cells, in banks that are not lost. -/
def Dev.newRun (s : Dev) (n : Nat) : CellRun × Dev := let c := s.newChain; (⟨c.1, n, s.trunk.lost⟩, c.2)

/-- Take or give back on-chip descriptors. -/
def Dev.takeDesc (s : Dev) : Dev := (s.setRf (trunkReg 4) 17 0 (s.rf (trunkReg 4) 17 0 - 1)).pressure
def Dev.giveDesc (s : Dev) : Dev := (s.setRf (trunkReg 4) 17 0 (s.rf (trunkReg 4) 17 0 + 1)).pressure

/-- Take or free external cells. -/
def Dev.takeExt (s : Dev) (n : Nat) : Dev := (s.setRf (trunkReg 0x3C) 22 0 (s.rf (trunkReg 0x3C) 22 0 + n)).ovfPressure
def Dev.giveExt (s : Dev) (n : Nat) : Dev := (s.setRf (trunkReg 0x3C) 22 0 (s.rf (trunkReg 0x3C) 22 0 - n)).ovfPressure

/-! ## Versions in flight (R35) -/

/-- VER_INFLIGHT[v]. -/
abbrev verReg (v off : Nat) : Nat := 0x220200 + 0x20 * v + off

/-- A frame is tagged with a version. -/
def Dev.enterVersion (s : Dev) (v : Nat) : Dev := s.setRf (verReg v 0x14) 23 0 (s.rf (verReg v 0x14) 23 0 + 1)

/-- A tagged frame is gone. -/
def Dev.leaveVersion (s : Dev) (tag : Option Nat) : Dev :=
  match tag with
  | some v => s.setRf (verReg v 0x14) 23 0 (s.rf (verReg v 0x14) 23 0 - 1)
  | none => s

/-! ## Stored frames -/

/-- A stored frame. -/
def Dev.stored (s : Dev) (id : Nat) : Option Stored := s.trunk.frames.get none id

/-- Change a stored frame, or remove it. -/
def Dev.setStored (s : Dev) (id : Nat) (f : Option Stored) : Dev :=
  { s with trunk := { s.trunk with frames := s.trunk.frames.put none id f } }

/-- A descriptor of a stored frame is transmitted or dropped (R192): at reference count 0 its cells return and its
version's count falls. -/
def Dev.release (s : Dev) (id : Nat) : Dev :=
  match s.stored id with
  | none => s
  | some f =>
    if f.refs ≤ 1 then ((s.setStored id none).giveCells f.inPort f.cells).leaveVersion f.tag
    else s.setStored id (some { f with refs := f.refs - 1 })

/-! ## Queues -/

/-- The queue of an egress port. -/
def queueOf (p t : Nat) : Nat := if p < 36 then 8 * p + t else 288 + 32 * (p - 36) + t

/-- Store a queue's state. -/
def Dev.setTq (s : Dev) (q : Nat) (v : TrunkQueue) : Dev :=
  { s with trunk := { s.trunk with queues := s.trunk.queues.put ⟨[], none⟩ q v } }

/-- Serial-number order (RFC 1982): `a` is later than `b`. -/
def seqAfter (a b : BitVec 16) : Bool := 0 < (a - b).toNat && (a - b).toNat < 32768

/-- The length of a descriptor's frame. -/
def Dev.descLen (s : Dev) (d : Desc) : Nat := match s.stored d.frame with | some f => f.len | none => 0

/-- The on-chip cells of a queue. -/
def Dev.chipCells (s : Dev) (q : Nat) : Nat :=
  (s.tq q).descs.foldl (fun a d => if d.onChip then a + cellsOf (s.descLen d) else a) 0

/-- The queues of a port. -/
def portQueues (p : Nat) : List Nat := if p < 36 then (List.range 8).map (8 * p + ·) else (List.range 32).map (288 + 32 * (p - 36) + ·)

/-- RESEQ_OCC of a queue's port: filled descriptors whose number is not NEXT_SEQ (R210). -/
def Dev.reseqOcc (s : Dev) (p : Nat) : Nat :=
  (portQueues p).foldl (fun a q => a + (s.tq q).descs.countP (fun d => d.filled && d.loc = .chip && d.seq ≠ s.nextSeq q)) 0

/-- The gauges and the resequence timer of a queue after any change (R209 to R211); a queue that is not ready is not eligible (R228), and a frame that
became NEXT_SEQ while it was being spilled stays on chip (R205). The resequence timer runs on, and does not start again, when NEXT_SEQ
moves to another number that is not on chip either (DESIGN CHOICE, log entry 26). -/
def Dev.settle (s : Dev) (q : Nat) : Dev :=
  let x := s.tq q
  let n := s.nextSeq q
  let back := x.descs.find? (fun d => d.seq = n && d.loc = .spilling)
  let s := match back with
    | some d => (s.setTq q { x with descs := x.descs.map (fun (e : Desc) => if e.seq = n then { e with loc := .chip } else e) }).giveExt
        (1 + cellsOf (s.descLen d))
    | none => s
  let x := s.tq q
  let y := s.cqState q
  let s := if y.was && (s.head q).isNone then s.setCq q { y with was := false } else s
  let blocked := x.descs.any (fun d => d.onChip && seqAfter d.seq n) && (s.head q).isNone
  let s := s.setTq q { x with timer := if blocked then some (x.timer.getD s.now) else none }
  let s := s.setRf (queueReg q 0xC) 15 0 x.descs.length
  let s := s.setRf (queueReg q 8) 22 0 (x.descs.foldl (fun a d => a + cellsOf (s.descLen d)) 0)
  s.setRf (trunkReg (0x1010 + 0x20 * queuePort q)) 8 0 (s.reseqOcc (queuePort q))

/-- NEXT_SEQ after the frame before `n` is gone: the first number from `n` on that is still in the queue, or TAIL_SEQ. -/
def nextHeld (ds : List Desc) (tail n : BitVec 16) : BitVec 16 :=
  ds.foldl (fun a d => if (d.seq - n).toNat < (a - n).toNat then d.seq else a) tail

/-- Set NEXT_SEQ. -/
def Dev.setNext (s : Dev) (q : Nat) (n : BitVec 16) : Dev := s.setRf (queueReg q 0x14) 31 16 n.toNat

/-- Remove a descriptor from its queue; a number that has passed is skipped (R208, R209). -/
def Dev.unqueue (s : Dev) (q : Nat) (seq : BitVec 16) : Dev :=
  let s := s.creditTouch q
  let x := s.tq q
  let ds := x.descs.filter (fun d => d.seq ≠ seq)
  let s := s.setTq q { x with descs := ds }
  let s := if seq = s.nextSeq q then s.setNext q (nextHeld ds (s.tailSeq q) (seq + 1)) else s
  s.settle q

/-- Take the frame numbered NEXT_SEQ out of its queue and free its descriptor. -/
def Dev.takeHead (s : Dev) (q : Nat) (d : Desc) : Dev := (s.unqueue q d.seq).giveDesc

/-- Drop the frame numbered NEXT_SEQ, counted where `count` says. -/
def Dev.dropHead (s : Dev) (q : Nat) (d : Desc) (counter : Nat) : Dev := ((s.takeHead q d).release d.frame).count counter

/-! ## Congestion profiles (R195 to R197) -/

/-- The admission decision of a colour's profile, with the random value drawn for it (R197). -/
def Dev.redAdmits (s : Dev) (q colour : Nat) : Bool × Dev :=
  let k := s.rf (queueReg q 0) 27 24
  let th := trunkReg (0x2000 + 0x10 * k + 4 * colour)
  let mn := s.rf th 15 0
  let mx := s.rf th 31 16
  let avg := (s.reg (queueReg q 0x10)).toNat
  let d := s.draw
  let s := d.2
  if mn = 0xFFFF ∨ avg < mn * 256 then (true, s)
  else if avg ≥ mx * 256 ∨ mx ≤ mn then (false, s)
  else
    let maxp := if colour = 0 then s.rf (trunkReg (0x2008 + 0x10 * k)) 15 8 else s.rf (trunkReg (0x2008 + 0x10 * k)) 7 0
    (decide (¬ (fld d.1 7 0 < maxp * (avg - mn * 256) / ((mx - mn) * 256))), s)

/-- Every queue's average depth moves, once in every microsecond of raw time (R196). -/
def Dev.avgUpdate (s : Dev) : Dev :=
  if s.now / usRaw < s.trunk.avgUs then s
  else (List.range 352).foldl (fun s q =>
    let avg : Int := (s.reg (queueReg q 0x10)).toNat
    let depth : Int := s.rf (queueReg q 8) 22 0
    s.setReg (queueReg q 0x10) (BitVec.ofInt 32 (avg + Int.tdiv (depth * 256 - avg) (2 ^ s.rf (queueReg q 0) 19 16))))
    { s with trunk := { s.trunk with avgUs := s.now / usRaw + 1 } }

/-! ## Admission (R192 to R194) -/

/-- Admit a descriptor of a stored frame to a queue, or drop it and count it (R192). -/
def Dev.admitTarget (s : Dev) (id : Nat) (f : Stored) (q reason : Nat) : Dev :=
  let cells := cellsOf f.len
  if ¬ (s.rf (queueReg q 0xC) 15 0 < s.rf (queueReg q 4) 30 16 ∧ s.rf (queueReg q 8) 22 0 + cells ≤ s.rf (queueReg q 4) 15 0 * 64)
  then s.count (queueReg q 0x18)
  else
    let r := s.redAdmits q f.colour
    let s := r.2
    if !r.1 then s.count (queueReg q (0x1C + 4 * f.colour))
    else if s.rf (trunkReg 4) 17 0 = 0 then s.count (queueReg q 0x24)
    else
      let seq := s.tailSeq q
      let s := (s.demand 0x21 (queuePort q)).creditTouch q
      let x := s.tq q
      let s := s.setTq q { x with descs := x.descs ++ [⟨seq, id, reason, .chip, false, 0⟩] }
      let s := s.setRf (queueReg q 0x14) 15 0 (seq + 1).toNat
      let s := s.setStored id (match s.stored id with | some g => some { g with refs := g.refs + 1 } | none => none)
      (s.takeDesc).settle q

/-- A stream's word of R212. -/
def Dev.streamWord (s : Dev) (stream : Nat) : DWord := s.word (streamAddr stream)

/-- The octets within the last 10 µs of raw time (R206). -/
def recent (now : Nat) (l : List (Nat × Nat)) : List (Nat × Nat) := l.filter (fun e => now < e.1 + 10 * usRaw)
def octetsIn (l : List (Nat × Nat)) : Nat := l.foldl (fun a e => a + e.2) 0

/-- A descriptor just admitted starts to spill where R204 and R205 say so. The queue's on-chip cells that R205 compares with SPILL_DEPTH
include those of the frame just admitted (DESIGN CHOICE, log entry 26). -/
def Dev.maybeSpill (s : Dev) (id q : Nat) : Dev :=
  match s.stored id with
  | none => s
  | some f =>
    let w := match f.stream with | some i => s.streamWord i | none => 0
    let eligible := extmemPresent s.variant && s.rb (trunkReg 0x30) 31 && s.rb (queueReg q 0) 31 && f.refs = 1 && f.launch.isNone
      && !bit w 63 && !bit w 62 && (s.tq q).descs.length ≥ 2
    let depth := s.rf (queueReg q 0) 15 0
    let wanted := s.freeCells < s.rf (trunkReg 0x1C) 16 0 || (depth ≠ 0 && s.chipCells q ≥ depth)
    if !(eligible && wanted) then s
    else
      let done := recent s.now s.trunk.spills
      let need := 1 + cellsOf f.len
      if octetsIn done + f.len > 150000 then s.count (trunkReg 0x40)
      else if s.ovfCap < s.rf (trunkReg 0x3C) 22 0 + need then s.count (trunkReg 0x44)
      else
        let s := s.creditTouch q
        let x := s.tq q
        let e := s.newChain
        let s := e.2.setTq q { x with descs := x.descs.map (fun (d : Desc) => if d.frame = id ∧ d.loc = .chip then { d with loc := .spilling, ext := e.1 } else d) }
        (({ s with trunk := { s.trunk with spills := (s.now, f.len) :: done } } : Dev).takeExt need).settle q

/-- Insert a target behind those of its queue number and below. -/
def insertTarget (t : Nat × Nat) : List (Nat × Nat) → List (Nat × Nat)
  | [] => [t]
  | u :: r => if t.1 < u.1 then t :: u :: r else u :: insertTarget t r

/-- Offer a stored frame to its targets in ascending queue number, then free it if none admitted it (R192, R194). The
frame enters with a reference of its own, which this gives up. -/
def Dev.admitTargets (s : Dev) (id : Nat) (targets : List (Nat × Nat)) : Dev :=
  match s.stored id with
  | none => s
  | some f =>
    let targets := targets.foldl (fun l t => insertTarget t l) []
    let s := targets.foldl (fun s t => s.admitTarget id f t.1 t.2) s
    let s := s.release id
    (targets.map (·.1)).eraseDups.foldl (fun s q => if (s.tq q).descs.any (fun d => d.frame = id) then s.maybeSpill id q else s) s

/-! ## Spill and fill (R203 to R208) -/

/-- The copy of the oldest frame a queue is spilling ends (R205): its on-chip cells and descriptor are free. With `bad` a word of it was
read with an uncorrectable error: what its transmission then does is as if that word were read for it (R185; DESIGN CHOICE, log entry 26). -/
def Dev.spillComplete (s : Dev) (q : Nat) (bad : Bool := false) : Dev :=
  match (s.tq q).descs.find? (fun d => d.loc = .spilling) with
  | none => s
  | some d =>
    let x := s.tq q
    let s := s.setTq q { x with descs := x.descs.map (fun (e : Desc) => if e.seq = d.seq then { e with loc := .ovf } else e) }
    let s := match s.stored d.frame with
      | some f => (s.setStored d.frame (some { f with cells := 0, spoiled := f.spoiled || bad })).giveCells f.inPort f.cells
      | none => s
    (((s.giveDesc).count (queueReg q 0x34)).setRf (queueReg q 0x38) 15 0 (s.rf (queueReg q 0x38) 15 0 + 1)).settle q

/-- The fill engine issues a read for the oldest frame of a queue in the overflow region, where R206 and R207 let it. -/
def Dev.fillIssue (s : Dev) (q : Nat) : Dev :=
  let x := s.tq q
  match x.descs.find? (fun d => d.loc = .ovf) with
  | none => s
  | some d =>
    let out (x : TrunkQueue) := x.descs.countP (fun d => d.loc = .filling)
    let depth := s.rf (queueReg q 0) 15 0
    let done := recent s.now s.trunk.fills
    let ok := s.freeCells ≥ s.rf (trunkReg 0x1C) 16 0 && (depth = 0 || s.chipCells q < depth) && out x < 8
      && (s.trunk.queues.foldl (fun a e => a + out e.2) 0) < 256 && s.reseqOcc (queuePort q) < 256
      && octetsIn done + s.descLen d ≤ 150000
    if !ok then s
    else
      let s := s.setTq q { x with descs := x.descs.map (fun (e : Desc) => if e.seq = d.seq then { e with loc := .filling } else e) }
      { s with trunk := { s.trunk with fills := (s.now, s.descLen d) :: done } }

/-- Whether a filled frame finds its cells, a descriptor, and a place in its port's resequencer unless it is NEXT_SEQ. -/
def Dev.fillRoom (s : Dev) (q : Nat) (d : Desc) : Bool :=
  cellsOf (s.descLen d) + s.idleLost ≤ s.freeCells && s.rf (trunkReg 4) 17 0 ≠ 0
    && (d.seq = s.nextSeq q || s.reseqOcc (queuePort q) < 256)

/-- A fill read completes (R207, R208, R211): with an uncorrectable error the frame is dropped, a frame earlier than
NEXT_SEQ is stale, and any other is on chip again. One that finds no room stays in its read (log entry 26). -/
def Dev.fillComplete (s : Dev) (q : Nat) (seq : BitVec 16) (ue : Bool) : Dev :=
  match (s.tq q).descs.find? (fun d => d.seq = seq && d.loc = .filling) with
  | none => s
  | some d =>
    let len := s.descLen d
    if !ue && !seqAfter (s.nextSeq q) seq && !s.fillRoom q d then s
    else
    let s := (s.giveExt (1 + cellsOf len)).setRf (queueReg q 0x38) 15 0 (s.rf (queueReg q 0x38) 15 0 - 1)
    if ue then
      (((s.unqueue q seq).release d.frame).count (queueReg q 0x3C)).raiseRated 22 6 0x20 2 0 msRaw (fun _ => q) (fun n => n)
    else if seqAfter (s.nextSeq q) seq then
      (((s.unqueue q seq).release d.frame).count (queueReg q 0x30)).raiseRated 23 2 0x20 3 q msRaw
        (fun n => q + 2 ^ 16 * min n 0xFFFF) (fun _ => seq.toNat)
    else
      let c := s.newRun (cellsOf len)
      let s := c.2.creditTouch q
      let x := s.tq q
      let s := s.setTq q { x with descs := x.descs.map (fun (e : Desc) => if e.seq = seq then { e with loc := .chip, filled := true } else e) }
      let s := match s.stored d.frame with
        | some f => (s.setStored d.frame (some { f with cells := cellsOf f.len, chain := [c.1] })).takeCells f.inPort (cellsOf f.len)
        | none => s
      (s.takeDesc).settle q

/-- A queue's resequence timer reaches RESEQ_TO (R211): NEXT_SEQ passes to the lowest number on chip. -/
def Dev.reseqTimeout (s : Dev) (q : Nat) : Dev :=
  match (s.tq q).timer with
  | none => s
  | some t =>
    if s.now < t + s.rf (trunkReg 0x20) 9 0 * usRaw then s
    else
      let s := s.creditTouch q
      let n := s.nextSeq q
      let k := ((s.tq q).descs.filter (fun d => d.onChip && seqAfter d.seq n)).foldl (fun a d => min a (d.seq - n).toNat) 65535
      let s := ((s.setNext q (n + BitVec.ofNat 16 k)).count (queueReg q 0x2C) k).settle q
      -- the skips since the previous record are numbers, not occurrences
      let key := rateKey 23 1 0x20 3 q
      let r := s.basjo.rate.get .idle key
      let due := match r.last with | none => true | some u => s.now ≥ u + msRaw
      let total := r.count + k
      if due then (s.onBasjo (fun b => { b with rate := b.rate.put .idle key ⟨some s.now, 0⟩ })).raise 23 1 0x20 3
        (q + 2 ^ 16 * min total 0xFFFF) (n + BitVec.ofNat 16 k).toNat
      else s.onBasjo (fun b => { b with rate := b.rate.put .idle key ⟨r.last, total⟩ })

/-! ## Residence deadlines (R212 to R214, R217) -/

/-- Whether a frame is stale (R213). -/
def Dev.stale (s : Dev) (f : Stored) : Bool :=
  match f.stream with
  | none => false
  | some i =>
    let w := s.streamWord i
    bit w 63 && s.tick > f.stamp / 256 + max 1 (fld w 31 0)

/-- Drop a stale head frame: cause 0x001 at selection, 0x002 by the scan. -/
def Dev.dropStale (s : Dev) (q : Nat) (d : Desc) (f : Stored) (cause : Nat) : Dev :=
  (s.dropHead q d (queueReg q 0x28)).raiseRated 24 cause 0x21 (queuePort q) 0 msRaw
    (fun _ => f.stream.getD 0 + 2 ^ 16 * queueNo q) (fun n => n)

/-- The stale-frame scan: at most one frame of every ready queue, once in every microsecond of raw time (R214). -/
def Dev.staleScan (s : Dev) : Dev :=
  if s.now / usRaw < s.trunk.staleUs then s
  else (s.trunk.queues.map (·.1)).foldl (fun s q =>
    match s.head q with
    | some d => (match s.stored d.frame with
      | some f => if s.stale f then s.dropStale q d f 2 else s
      | none => s)
    | none => s) { s with trunk := { s.trunk with staleUs := s.now / usRaw + 1 } }

/-! ## Descriptors as words (R191, R203) -/

/-- The three words of a queued frame's descriptor. -/
def Desc.words (d : Desc) (f : Stored) : DWord × DWord × DWord :=
  let inOvf := d.loc = .ovf || d.loc = .filling
  let ptr : Nat := if inOvf then (Config.extAt d.ext).toNat else (chainCells f.chain).headD 0
  (BitVec.ofNat 64 (d.seq.toNat * 2 ^ 48 + f.tag.getD 0 % 4 * 2 ^ 46 + f.colour % 4 * 2 ^ 44 + d.reason % 4 * 2 ^ 42 + inOvf.toNat * 2 ^ 41
      + f.launch.isSome.toNat * 2 ^ 40 + f.inPort % 64 * 2 ^ 34 + ptr),
   BitVec.ofNat 64 (f.stamp / 256),
   BitVec.ofNat 64 (f.stream.isSome.toNat * 2 ^ 63 + f.stream.getD 0 % 16384 * 2 ^ 49 + f.len % 32768 * 2 ^ 34 + f.rule.getD 0 % 2 ^ 20))

/-- The link word of cell `k` of a stored frame: the cell that follows it, if one does (R182). -/
def Stored.link (f : Stored) (k : Nat) : Option (BitVec 16) :=
  if k + 1 < f.cells then (chainCells f.chain)[k + 1]?.map (BitVec.ofNat 16) else none

/-- Word 3 of the first external cell of a spilled frame: the first external cell of the next one of its queue (R203). -/
def Dev.nextExt (s : Dev) (q : Nat) (d : Desc) : Option (BitVec 22) :=
  (((s.tq q).descs.dropWhile (fun e => e.seq ≠ d.seq)).drop 1).findSome? (fun e => if e.loc = .ovf then some (Config.extAt e.ext) else none)

/-! ## External memory (R198 to R202) -/

/-- The capacity of XMEM_CTL, in MiB. -/
def Dev.xmemCapacity (s : Dev) : Nat :=
  2 * (1 + s.rf (trunkReg 0x8000) 0 0) * (match s.rf (trunkReg 0x8000) 6 4 with
    | 0 => 1024 | 1 => 1536 | 2 => 2048 | 3 => 3072 | _ => 4096)

/-- XMEM_SIZE, in octets. -/
def Dev.xmemSize (s : Dev) : Nat := s.rf (trunkReg 0x8008) 13 0 * 2 ^ 20

/-- XMEM_STATUS.READY. -/
def Dev.xmemReady (s : Dev) : Bool := extmemPresent s.variant && s.rb (trunkReg 0x8004) 31

/-- The three regions of external memory: base and length, where each is in use. -/
def Dev.base (s : Dev) (lo hi : Nat) : Nat := s.rf lo 31 20 * 2 ^ 20 + 2 ^ 32 * s.rf hi 2 0
def Dev.ovfRegion (s : Dev) : Nat × Nat := (s.base (trunkReg 0x34) (trunkReg 0x38), s.rf (trunkReg 0x30) 10 0 * 2 ^ 20)
def Dev.ctRegion (s : Dev) : Nat × Nat := (s.base (barkReg 8) (barkReg 0xC), 2 ^ s.rf (barkReg 0) 20 16 * 256)
def Dev.saveBase (s : Dev) : Nat := s.base (tapReg 0x84) (tapReg 0x88)
def Dev.saveRegion (s : Dev) : Nat × Nat := (s.saveBase, 16 * 2 ^ 20)

/-- Whether two regions overlap. -/
def overlaps (a b : Nat × Nat) : Bool := a.1 < b.1 + b.2 && b.1 < a.1 + a.2

/-- XMEM_CTL.EN is written (R199). A rise powers the memory up; a fall needs the three users off. -/
def Dev.xmemEnable (s : Dev) (en : Bool) : Dev :=
  let on := s.rb (trunkReg 0x8000) 31
  if en = on then s
  else if en then
    if 2048 ≤ s.xmemCapacity ∧ s.xmemCapacity ≤ 8192
    then (s.setRb (trunkReg 0x8000) 31 true).setRf (trunkReg 0x8004) 1 0 1
    else s.setRb (trunkReg 0x8000) 30 true
  else if s.rb (trunkReg 0x30) 31 || s.rb (barkReg 0) 31 || s.rb (tapReg 0x80) 31 then s.setRb (trunkReg 0x8000) 30 true
  else ((s.setRb (trunkReg 0x8000) 31 false).setReg (trunkReg 0x8004) (s.reg (trunkReg 0x8004) &&& 0x40000000)).setReg (trunkReg 0x8008) 0

/-- Initialisation and training end (R199). -/
def Dev.xmemInitDone (s : Dev) (ok : Bool) : Dev :=
  if !(s.rb (trunkReg 0x8000) 31 && s.rf (trunkReg 0x8004) 1 0 = 1) then s
  else if ok then
    (((s.setRb (trunkReg 0x8004) 31 true).setRf (trunkReg 0x8004) 1 0 2).setRf (trunkReg 0x8008) 13 0 s.xmemCapacity).count (trunkReg 0x800C)
  else
    let s := ((s.setRb (trunkReg 0x8004) 30 true).setRf (trunkReg 0x8004) 1 0 0).setRb (trunkReg 0x8000) 31 false
    s.raise 22 7 0x20 2 (s.reg (trunkReg 0x8000)).toNat 0

/-- OVF_CTL.EN is written (R201, R202). -/
def Dev.ovfEnable (s : Dev) (en : Bool) : Dev :=
  if !en then s.setRb (trunkReg 0x30) 31 false
  else if s.rb (trunkReg 0x30) 31 then s
  else
    let r := s.ovfRegion
    if s.xmemReady && 1 ≤ s.rf (trunkReg 0x30) 10 0 && s.rf (trunkReg 0x30) 10 0 ≤ 1024 && r.1 + r.2 ≤ s.xmemSize
      && !(overlaps r s.ctRegion) && !(s.rb (tapReg 0x80) 31 && overlaps r s.saveRegion)
    then s.setRb (trunkReg 0x30) 31 true
    else s.setRb (trunkReg 0x30) 30 true

/-- RSV[p] is written (R187). -/
def Dev.rsvWrite (s : Dev) (p v : Nat) : Dev :=
  let others := rsvPorts.foldl (fun a k => if k = p then a else a + s.rsv k) 0
  if others + v > 49152 then s.setRb (trunkReg 0xC) 0 true else s.setRf (trunkReg (0x1000 + 0x20 * p)) 16 0 v

/-! ## The commands -/

/-- RSV_WRITE. RSV[p] is the Trunk's register, of an absent port too (DESIGN CHOICE, log entry 10). -/
def execRsvWrite (a : Acc) (p : Fin 40) (value : BitVec 32) (s : State) :=
  s.onDev (fun d =>
    let at_ := trunkReg (0x1000 + 0x20 * p.val)
    d.writeField a at_ (value &&& 0x1FFFF) (fun d => d.rsvWrite p.val (fld value 16 0)))

/-- A write of an enable bit, bit 31 of a register. -/
def Dev.writeEn (d : Dev) (a : Acc) (addr : Nat) (en : Bool) (f : Dev → Dev) : Dev :=
  d.writeField a addr (setBit (d.reg addr) 31 en) f

/-- XMEM_ENABLE. -/
def execXmemEnable (a : Acc) (en : Bool) (s : State) := s.onDev (fun d => d.writeEn a (trunkReg 0x8000) en (·.xmemEnable en))

/-- XMEM_INIT_DONE. -/
def execXmemInitDone (ok : Bool) (s : State) := s.onDev (·.xmemInitDone ok)

/-- XMEM_PERIODIC_TRAINING (R199). -/
def execXmemPeriodicTraining (s : State) :=
  s.onDev (fun d => if d.xmemReady && d.rf (trunkReg 0x8004) 1 0 = 2 then d.count (trunkReg 0x800C) else d)

/-- OVF_ENABLE. -/
def execOvfEnable (a : Acc) (en : Bool) (s : State) := s.onDev (fun d => d.writeEn a (trunkReg 0x30) en (·.ovfEnable en))

/-- FILL_READ_ISSUE. -/
def execFillReadIssue (q : Fin 352) (s : State) := s.onDev (·.fillIssue q.val)

/-- FILL_READ_COMPLETE. -/
def execFillReadComplete (q : Fin 352) (seq : BitVec 16) (ue : Bool) (s : State) := s.onDev (·.fillComplete q.val seq ue)

/-- RESEQ_TIMEOUT. -/
def execReseqTimeout (q : Fin 352) (s : State) := s.onDev (·.reseqTimeout q.val)

/-- AVG_UPDATE. -/
def execAvgUpdate (s : State) := s.onDev (·.avgUpdate)

/-- STALE_SCAN. -/
def execStaleScan (s : State) := s.onDev (·.staleScan)

end Sys2Proof.Machine
end

