-- ==== Sys2Proof/Machine/Parser.lean ====
section
/-! DEFINITION. The parser: the key of a frame and the slow-path causes it finds (R113 to R118). -/
namespace Sys2Proof.Machine

/-- The first octets of a frame the parser reads. -/
abbrev parseLimit : Nat := 256

/-- The parser at work: the key fields found, as (octet, width, value), the causes, and the anchors of R116. -/
structure Parse where
  fields : List (Nat × Nat × Nat)
  flagsA : List Nat
  flagsB : List Nat
  causes : List Nat
  l3 : Option Nat
  l4 : Option Nat
  deriving DecidableEq, Repr

/-- Add fields, flags (as bit numbers of FLAGS_A and FLAGS_B, most significant first) and causes. -/
def Parse.put (p : Parse) (fields : List (Nat × Nat × Nat)) (a b : List Nat := []) : Parse :=
  { p with fields := p.fields ++ fields, flagsA := p.flagsA ++ a, flagsB := p.flagsB ++ b }
def Parse.why (p : Parse) (c : List Nat) : Parse := { p with causes := p.causes ++ c }

/-- The cause of a header ending at octet `e` of a frame of `n` octets: past the frame's end (6), beyond octet 256 (4). -/
def roomCause (n e : Nat) : List Nat := if e > n then [6] else if e > parseLimit then [4] else []

/-- The IPv4 options of a header, walked from octet `i` to `e` (R117 causes 2 and 6). -/
def walkOptions (octs : List Byte) (allowed : Nat → Bool) (e : Nat) : Nat → Nat → List Nat
  | 0, _ => []
  | k + 1, i =>
    if i ≥ e then []
    else
      let t := beAt octs i 1
      if t = 0 then []
      else if t = 1 then walkOptions octs allowed e k (i + 1)
      else
        let c := if allowed t then [] else [2]
        let len := beAt octs (i + 1) 1
        if i + 1 ≥ e ∨ len < 2 ∨ i + len > e then c ++ [6] else c ++ walkOptions octs allowed e k (i + len)

/-- The IPv6 extension headers. -/
def isExt (nh : Nat) : Bool := [0, 43, 60, 44].contains nh

/-- The causes a next-header value alone tells, `c` extension headers before it: 44 is a fragment header, a fifth header is
one too many. -/
def extCause (nh c : Nat) : List Nat := (if nh = 44 then [1] else []) ++ if isExt nh && c = 4 then [4] else []

/-- The IPv6 extension headers from octet `i` on, next header `nh`: the causes, the last next-header value, the octet
after them, whether one was a fragment header, how many there were, and whether parsing stopped (R113, R117). A header
that runs past the frame's end or octet 256 still names the next one where its first octet can be read. -/
def walkExt (octs : List Byte) (n : Nat) : Nat → Nat → Nat → Nat → List Nat × Nat × Nat × Bool × Nat × Bool
  | 0, nh, i, c => ([], nh, i, false, c, false)
  | k + 1, nh, i, c =>
    if !isExt nh then ([], nh, i, false, c, false)
    else if c = 4 then (extCause nh c, nh, i, nh = 44, c, true)
    else
      let len := if nh = 44 then 8 else (beAt octs (i + 1) 1 + 1) * 8
      let why := extCause nh c ++ roomCause n (i + len)
      if i + len > n ∨ i + len > parseLimit then
        -- its own next header is the last value there is, where it can be read
        let read : Bool := i < min n parseLimit
        let nx := if read then beAt octs i 1 else nh
        (why ++ (if read then extCause nx (c + 1) else []), nx, i + len, nh = 44 || (read && nx = 44), c + 1, !read || isExt nx)
      else
        let r := walkExt octs n k (beAt octs i 1) (i + len) (c + 1)
        (why ++ r.1, r.2.1, r.2.2.1, nh = 44 || r.2.2.2.1, r.2.2.2.2.1, r.2.2.2.2.2)

/-- TCP and UDP, DoIP and SOME/IP, from octet `i` on (R113): recognised by the IP protocol and by the ports, so the flags stand where a
header is cut off or malformed too. A header has the length it declares (R117); one whose data offset cannot be read has 20 octets at
least. -/
def Dev.parseL4 (s : Dev) (octs : List Byte) (n i proto : Nat) (p : Parse) : Parse :=
  let doff := beAt octs (i + 12) 1 / 16
  let known := i + 13 ≤ min n parseLimit
  let hl := if proto ≠ 6 then 8 else if known then doff * 4 else 20
  let bad := proto = 6 && known && doff < 5
  let src := beAt octs i 2
  let dst := beAt octs (i + 2) 2
  let p := (p.put ([(60, 2, src), (62, 2, dst)] ++ if proto = 6 then [(64, 1, beAt octs (i + 13) 1)] else [])
    [if proto = 6 then 4 else 5]).why (roomCause n (i + hl) ++ (if bad then [6] else []))
  let a := i + hl
  let listed (x : Nat) : Bool := (List.range 8).any (fun k => s.rb (0x220050 + 4 * k) 31 && s.rf (0x220050 + 4 * k) 15 0 = x)
  if src = 13400 ∨ dst = 13400 then
    (p.put [(92, 2, beAt octs (a + 2) 2)] [] [0]).why (roomCause n (a + 8))
  else if listed src || listed dst then
    (p.put [(86, 4, beAt octs a 4), (90, 1, beAt octs (a + 14) 1)] [7]).why (roomCause n (a + 16))
  else p

/-- IPv4 from octet `i` on. -/
def Dev.parseIp4 (s : Dev) (octs : List Byte) (n i : Nat) (p : Parse) : Parse :=
  let ihl := beAt octs i 1 % 16
  let total := beAt octs (i + 2) 2
  let frag := beAt octs (i + 6) 2 % 2 ^ 14 ≠ 0
  let allowed (t : Nat) : Bool := (List.range 8).any (fun k => s.rb (0x220030 + 4 * k) 31 && s.rf (0x220030 + 4 * k) 7 0 = t)
  let hl := max 20 (ihl * 4)
  let room := roomCause n (i + hl)
  let bad := beAt octs i 1 / 16 ≠ 4 || ihl < 5 || total < ihl * 4 || i + total > n
  let proto := beAt octs (i + 9) 1
  -- a field that lies in the frame is tested though the header is cut off
  let why := room ++ (if i + 7 ≤ n && frag then [0] else []) ++ (if i + 9 ≤ n && beAt octs (i + 8) 1 < s.rf 0x220000 15 8 then [3] else [])
    ++ (if i + 20 > n then [] else walkOptions octs allowed (min (i + ihl * 4) n) 64 (i + 20) ++ (if bad then [6] else []))
  let p := (p.put [(22, 1, proto), (23, 1, beAt octs (i + 1) 1), (24, 1, beAt octs (i + 8) 1), (28, 16, beAt octs (i + 12) 4),
    (44, 16, beAt octs (i + 16) 4)] [2]).why why
  let p := { p with l4 := some (i + ihl * 4) }
  if !frag && (proto = 6 || proto = 17) then s.parseL4 octs n (i + ihl * 4) proto p else p

/-- IPv6 from octet `i` on. -/
def Dev.parseIp6 (s : Dev) (octs : List Byte) (n i : Nat) (p : Parse) : Parse :=
  let room := roomCause n (i + 40)
  let w := beAt octs i 4
  let p := (p.put [(23, 1, w / 2 ^ 20 % 256), (24, 1, beAt octs (i + 7) 1), (25, 3, w % 2 ^ 20), (28, 16, beAt octs (i + 8) 16),
    (44, 16, beAt octs (i + 24) 16)] [3]).why (room ++ (if i + 7 ≤ n then extCause (beAt octs (i + 6) 1) 0 else [])
      ++ (if i + 8 ≤ n && beAt octs (i + 7) 1 < s.rf 0x220000 15 8 then [3] else [])
      ++ if i + 40 + beAt octs (i + 4) 2 > n then [6] else [])
  -- a next header that cannot be read names nothing
  if i + 7 > min n parseLimit then { p with l4 := some (i + 40) }
  else
    let r := walkExt octs n 6 (beAt octs (i + 6) 1) (i + 40) 0
    let p := { (p.put [(22, 1, r.2.1)] [] (if r.2.2.2.2.1 > 0 then [3] else [])).why r.1 with l4 := some r.2.2.1 }
    if r.2.2.2.2.2 then p
    else
      if !r.2.2.2.1 && (r.2.1 = 6 || r.2.1 = 17) then s.parseL4 octs n r.2.2.1 r.2.1 p else p

/-- The VLAN tags at octet 12 on: how many (0 to 2) and whether a third follows. -/
def vlanTags (octs : List Byte) : Nat × Bool :=
  let tag (i : Nat) : Bool := beAt octs i 2 = 0x8100 || beAt octs i 2 = 0x88A8
  if !tag 12 then (0, false) else if !tag 16 then (1, false) else (2, tag 20)

/-- The outer tag control information of a frame, where it has a tag. -/
def outerTci (octs : List Byte) : Option Nat :=
  if beAt octs 12 2 = 0x8100 ∨ beAt octs 12 2 = 0x88A8 then some (beAt octs 14 2) else none

/-- Everything after the tags (R113). `n` is the frame's length up to the FCS. -/
def Dev.parseBody (s : Dev) (octs : List Byte) (n : Nat) (p : Parse) : Parse :=
  let t := vlanTags octs
  let at_ := 12 + 4 * t.1
  let et := beAt octs at_ 2
  let i := at_ + 2
  let p := (p.put ([(16, 2, et)] ++ (if t.1 ≥ 1 then [(18, 2, beAt octs 14 2)] else []) ++
      if t.1 = 2 then [(20, 2, beAt octs 18 2)] else [])
    ((if t.1 ≥ 1 then [0] else []) ++ if t.1 = 2 then [1] else []) (if t.2 then [5] else [])).why (roomCause n i)
  let slow := (List.range 8).any (fun k => s.rb (0x220010 + 4 * k) 31 && s.rf (0x220010 + 4 * k) 15 0 = et)
  if i > n then p
  else if t.2 then p.why (if slow then [5] else [])
  else
    let p := { p with l3 := some i }
    if et = 0x88E5 then
      let sc := (beAt octs i 1).testBit 5
      (p.put ([(77, 1, beAt octs i 1 % 4)] ++ if sc then [(78, 8, beAt octs (i + 6) 8)] else []) [] [2]).why
        (roomCause n (i + if sc then 14 else 6))
    else if et = 0x0800 then s.parseIp4 octs n i p
    else if et = 0x86DD then s.parseIp6 octs n i p
    else if et = 0x22F0 then
      let acf := beAt octs i 1 = 0x82 || beAt octs i 1 = 0x05
      (p.put ([(65, 1, beAt octs i 1), (66, 8, beAt octs (i + 4) 8)] ++ if acf then [(74, 1, beAt octs (i + 12) 1 / 2)] else []) [6]).why
        (roomCause n (i + if acf then 14 else 12))
    else if et = 0x88F7 then
      (p.put [(75, 1, beAt octs i 1 % 16), (76, 1, beAt octs (i + 4) 1)] [] [1]).why (roomCause n (i + 34))
    else p.why (if slow then [5] else [])

/-- The octets of a key whose fields are given; a later field of the list wins nothing, for none overlap. -/
def keyOf (fields : List (Nat × Nat × Nat)) : List Byte :=
  beBytes 128 (fields.foldl (fun a f => a + f.2.2 % 2 ^ (8 * f.2.1) * 2 ^ (8 * (128 - f.1 - f.2.1))) 0)

/-- A flags octet from bit numbers, 0 most significant. -/
def flagsOf (l : List Nat) : Nat := l.foldl (fun a i => a ||| 2 ^ (7 - i)) 0

/-- The key of a frame and its slow-path cause, if any. `sec` is the AN and SCI of a SecTAG removed by decryption. -/
def Dev.parse (s : Dev) (inPort zone : Nat) (all : List Byte) (sec : Option (Nat × Nat)) : List Byte × Option Nat :=
  let n := all.length
  let octs := all.take parseLimit
  let p := s.parseBody octs n ⟨[], [], [], [], none, none⟩
  let cfg := 0x220100 + 4 * inPort
  let vid := match outerTci octs with
    | some t => if t % 4096 ≠ 0 then t % 4096 else s.rf cfg 11 0
    | none => s.rf cfg 11 0
  let anchor := match s.rf cfg 29 28 with
    | 0 => some 0
    | 1 => if p.flagsB.contains 5 then none else p.l3
    | 2 => p.l4
    | _ => none
  let user := match anchor with
    | some a => beAt octs (a + s.rf cfg 27 20) 32
    | none => 0
  let flagsB := p.flagsB ++ (if inPort = 36 ∨ inPort = 37 then [4] else []) ++ if sec.isSome then [2] else []
  let secFields := match sec with | some x => [(77, 1, x.1), (78, 8, x.2)] | none => []
  (keyOf (p.fields.filter (fun f => sec.isNone || (f.1 ≠ 77 && f.1 ≠ 78)) ++ secFields ++ [(0, 1, inPort), (1, 1, flagsOf p.flagsA), (2, 1, flagsOf flagsB.eraseDups), (3, 1, zone),
      (4, 6, beAt octs 0 6), (10, 6, beAt octs 6 6), (94, 2, vid), (96, 32, user)]),
    p.causes.foldl (fun m c => match m with | none => some c | some x => some (min x c)) none)

/-- The value a field selector picks from a key (R115): key bits OFFSET to OFFSET + W − 1. -/
def keyBits (key : List Byte) (off w : Nat) : Nat := beNat key / 2 ^ (1024 - off - w) % 2 ^ w

/-- Fields of a key. -/
def keyAt (key : List Byte) (at_ n : Nat) : Nat := beAt key at_ n
def keyFlag (key : List Byte) (octet i : Nat) : Bool := (beAt key octet 1).testBit (7 - i)

end Sys2Proof.Machine
end

