-- ==== Sys2Proof/Machine/Rules.lean ====
section
/-! DEFINITION. Bough memory, the decision trees, and rule versions (R122 to R147). -/
namespace Sys2Proof.Machine

/-! ## Bough memory -/

/-- A word of Bough memory; every present Grove holds the same copy (R122). -/
def Dev.bough (s : Dev) (w : Nat) : DWord := s.word (boughAddr w)

/-- An extent: first word and length. -/
abbrev Extent := Nat × Nat

/-- Whether `n` words from `a` lie inside an extent. -/
def Extent.has (e : Extent) (a n : Nat) : Bool := e.1 ≤ a && a + n ≤ e.1 + e.2

/-- VER_STATE, VER_BASE, VER_LEN, VER_HDR of a slot. -/
def Dev.verState (s : Dev) (v : Nat) : Nat := s.rf (verReg v 0) 1 0
def Dev.verExtent (s : Dev) (v : Nat) : Extent := (s.rf (verReg v 4) 19 0, s.rf (verReg v 8) 20 0)
def Dev.verHdr (s : Dev) (v : Nat) : Nat := s.rf (verReg v 0xC) 19 0

/-- The CURRENT slot, if any. -/
def Dev.current (s : Dev) : Option Nat := (List.range 4).find? (fun v => s.verState v = 1)

/-- The extents of resident versions, and of a COMMIT whose checks have passed (R124). -/
def Dev.protectedExtents (s : Dev) : List Extent :=
  ((List.range 4).filter (fun v => s.verState v ≠ 0)).map s.verExtent
    ++ (match s.groves.commit with | some c => [(c.base, c.len)] | none => [])

/-- Whether a run of words meets one of the extents. -/
def meets (l : List Extent) (a n : Nat) : Bool := l.any (fun e => overlaps e (a, n))

/-! ## Action words (R133, R289) -/

/-- BARK_ACT, FWD_ACT, BARK_PARAM of ACTION_B. -/
def barkAct (b : DWord) : Nat := fld b 63 61
def fwdAct (b : DWord) : Nat := fld b 40 38
def barkParam (b : DWord) : Nat := fld b 52 41

/-- Whether an ACTION_A and an ACTION_B are well formed. -/
def actionAOk (a : DWord) : Bool := fld a 10 0 = 0
def actionBOk (b : DWord) : Bool :=
  barkAct b ≤ 4 && fwdAct b ≤ 3 && fld b 17 0 = 0
    && !(bit b 59 && 37 < fld b 58 53) && !(fwdAct b = 2 && 37 < fld b 37 32)
    && (barkAct b = 3 || fld b 52 43 = 0)

/-! ## Walking (R126 to R135) -/

/-- What a node sends the walk to. -/
inductive NodeStep where
  | bad
  | child (a : Nat)
  | leaf (rules : List Nat)
  deriving DecidableEq, Repr

/-- The `i`-th of the pointers held three to a word from word `a` on. -/
def Dev.ptr3 (s : Dev) (a i : Nat) : Nat := fld (s.bough (a + i / 3)) (59 - 20 * (i % 3)) (40 - 20 * (i % 3))

/-- Whether the pointer words from `a` on have their unused slots and bits [63:60] zero after `n` pointers. Of the words of a LEAF
the spec names bits [63:60] nowhere: a nonzero value makes the node malformed (DESIGN CHOICE, log entry 22). -/
def Dev.ptrPad (s : Dev) (a n words : Nat) : Bool :=
  (List.range words).all (fun k => fld (s.bough (a + k)) 63 60 = 0)
    && (List.range (3 * words)).all (fun i => i < n || s.ptr3 a i = 0)

/-- Visit the node at word `a` (R126 to R130). -/
def Dev.visit (s : Dev) (e : Extent) (key : List Byte) (a : Nat) : NodeStep :=
  let w := s.bough a
  let ty := fld w 63 60
  let len := fld w 59 57
  let off := fld w 56 47
  let wid := fld w 46 41 + 1
  let v := keyBits key off wid
  if !e.has a 1 || len = 0 || !e.has a (len + 1) then .bad
  else if ty = 4 then
    let n := fld w 23 20
    if n > 8 || off ≠ 0 || wid ≠ 1 || fld w 40 24 ≠ 0 || fld w 19 0 ≠ 0 || len ≠ max 1 ((n + 2) / 3) || !s.ptrPad (a + 1) n len
    then .bad else .leaf ((List.range n).map (s.ptr3 (a + 1)))
  else if off + wid > 1024 then .bad
  else if ty = 1 then
    let m := (s.bough (a + 1)).toNat
    if len ≠ 1 || bit w 40 || m ≥ 2 ^ wid then .bad
    else .child (if v &&& m ≠ 0 then fld w 39 20 else fld w 19 0)
  else if ty = 2 then
    let k := fld w 22 20
    let t (i : Nat) : Nat := (s.bough (a + 1 + i)).toNat
    if k = 0 || k > 5 || fld w 40 23 ≠ 0 || len ≠ k + (k + 2) / 3 || !(List.range (k - 1)).all (fun i => t i < t (i + 1))
      || !s.ptrPad (a + 1 + k) k ((k + 2) / 3) then .bad
    else
      let i := (List.range k).countP (fun i => t i ≤ v)
      .child (if i = 0 then fld w 19 0 else s.ptr3 (a + 1 + k) (i - 1))
  else if ty = 3 then
    if wid > 44 || fld w 40 20 ≠ 0 then .bad
    else match (List.range len).find? (fun i => fld (s.bough (a + 1 + i)) 63 20 = v) with
      | some i => .child (fld (s.bough (a + 1 + i)) 19 0)
      | none => .child (fld w 19 0)
  else .bad

/-- How a walk ends. -/
inductive WalkEnd where
  | error
  /-- This word was read with an uncorrectable error (R125). -/
  | ue (w : Nat)
  /-- The rule at this address decides, with its RULE_ID, or the default actions. -/
  | rule (a id : Nat)
  | default
  deriving DecidableEq, Repr

/-- Whether the rule entry at `a` is well formed (R131, R133). The RANGE bits of terms it does not have are not looked at (DESIGN
CHOICE, log entry 22). -/
def Dev.ruleOk (s : Dev) (e : Extent) (a : Nat) : Bool :=
  let w := s.bough a
  let n := fld w 59 57
  e.has a 1 && fld w 63 60 = 8 && n ≤ 4 && e.has a (4 + 2 * n) && fld w 52 48 = 0 && fld w 31 0 = 0
    && actionAOk (s.bough (a + 1)) && actionBOk (s.bough (a + 2))
    && (List.range 4).all (fun i =>
      let sel := fld (s.bough (a + 3)) (63 - 16 * i) (48 - 16 * i)
      if i < n then sel / 64 + (sel % 64 + 1) ≤ 1024 else sel = 0)

/-- Whether the rule entry at `a` matches a key (R132). -/
def Dev.ruleMatches (s : Dev) (key : List Byte) (a : Nat) : Bool :=
  let w := s.bough a
  (List.range (fld w 59 57)).all (fun i =>
    let sel := fld (s.bough (a + 3)) (63 - 16 * i) (48 - 16 * i)
    let v := keyBits key (sel / 64) (sel % 64 + 1)
    let val := (s.bough (a + 4 + 2 * i)).toNat
    let mask := (s.bough (a + 5 + 2 * i)).toNat
    if bit w (53 + i) then val ≤ v && v ≤ mask else v &&& mask = val &&& mask)

/-- The first of the words of `ue` that reading the object at `a` meets: its header, then the `n` words it declares where they
lie in the extent. -/
def Extent.meetsUe (e : Extent) (ue : List Nat) (a n : Nat) : Option Nat :=
  if !e.has a 1 then none
  else if ue.contains a then some a
  else if e.has a n then ((List.range n).map (a + ·)).find? ue.contains else none

/-- The words of a node and of a rule entry, as their headers declare them (R126, R131). -/
def Dev.nodeLen (s : Dev) (a : Nat) : Nat := fld (s.bough a) 59 57 + 1
def Dev.ruleLen (s : Dev) (a : Nat) : Nat := 4 + 2 * fld (s.bough a) 59 57

/-- Check the rules of a LEAF in order, up to the first match (R132, R135). `ue` holds the words this Grove's copy has in
uncorrectable error. -/
def Dev.checkRules (s : Dev) (e : Extent) (key : List Byte) (ue : List Nat) : List Nat → WalkEnd
  | [] => .default
  | a :: r =>
    if a = 0 then .error
    else match e.meetsUe ue a (s.ruleLen a) with
      | some w => .ue w
      | none =>
        if !s.ruleOk e a then .error
        else if s.ruleMatches key a then .rule a (fld (s.bough a) 47 32)
        else s.checkRules e key ue r

/-- Walk from node `a`, with `k` nodes left to visit (R135). -/
def Dev.walk (s : Dev) (e : Extent) (key : List Byte) (ue : List Nat) : Nat → Nat → WalkEnd
  | 0, _ => .error
  | k + 1, a =>
    if a = 0 then .error
    else match e.meetsUe ue a (s.nodeLen a) with
      | some w => .ue w
      | none => match s.visit e key a with
        | .bad => .error
        | .leaf l => s.checkRules e key ue l
        | .child b => s.walk e key ue k b

/-- The walk of a key under a version, from ROOT[IN_PORT] (R134, R135). The words of the header it reads are that of the ROOT and,
where the default actions apply, theirs. -/
def Dev.classify (s : Dev) (v : Nat) (key : List Byte) (ue : List Nat) : WalkEnd :=
  let hdr := s.verHdr v
  let at_ := hdr + 3 + keyAt key 0 1 / 3
  let root := s.ptr3 (hdr + 3) (keyAt key 0 1)
  if ue.contains at_ then .ue at_
  else match if root = 0 then .default else s.walk (s.verExtent v) key ue 24 root with
    | .default => (match [hdr + 1, hdr + 2].find? ue.contains with | some w => .ue w | none => .default)
    | r => r

/-! ## Commands (R142 to R145) -/

/-- A word written to every copy. -/
def Dev.writeBough (s : Dev) (w : Nat) (v : DWord) : Dev := s.setWord (boughAddr w) v

/-- Words written in order from `a` on. -/
def Dev.loadWords (s : Dev) (a : Nat) : List Byte → Nat → Dev
  | _, 0 => s
  | l, k + 1 => (s.writeBough a (BitVec.ofNat 64 (leNat (l.take 8)))).loadWords (a + 1) (l.drop 8) k

/-- BOUGH_LOAD (R143, R124). -/
def Dev.boughLoad (s : Dev) (d : CmdDesc) (mem : HostData) : CmdRes :=
  let count := fld d.p16 52 32
  let dst := fld d.p16 19 0
  if fld d.p8 2 0 ≠ 0 ∨ count = 0 ∨ count > 1048576 ∨ dst + count > 1048576 then .fail s stBadParam
  else if meets s.protectedExtents dst count then .fail (s.count 0x220004) 0x40
  else
    let n := min count (mem.octets.length / 8)
    if mem.err ∨ n < count then
      let s := (s.loadWords dst mem.octets n).dmaFail d.host.val
      .fail (if n = 0 then s else s.logCommand d 1 kCommand stDmaErr) stDmaErr
    else .done (s.loadWords dst mem.octets count) stOk 0 0

/-- The first offending word of a version header (R134, R144 check 3), if any. -/
def Dev.badHeader (s : Dev) (hdr : Nat) (e : Extent) : Option Nat :=
  let w := s.bough hdr
  if fld w 63 60 ≠ 15 ∨ fld w 59 57 ≠ 0 ∨ fld w 39 0 ≠ 0 ∨ fld w 56 40 > 65536 then some hdr
  else if !actionAOk (s.bough (hdr + 1)) then some (hdr + 1)
  else if !actionBOk (s.bough (hdr + 2)) then some (hdr + 2)
  else ((List.range 14).map (hdr + 3 + ·)).find? (fun a =>
    fld (s.bough a) 63 60 ≠ 0 || (List.range 3).any (fun i =>
      let r := fld (s.bough a) (59 - 20 * i) (40 - 20 * i)
      r ≠ 0 && (!e.has r 1 || 3 * (a - hdr - 3) + i > 39)))

/-- The lowest FREE slot. -/
def Dev.freeSlot (s : Dev) : Option Nat := (List.range 4).find? (fun v => s.verState v = 0)

/-- The cycle T of a token issued now: 64 CORE cycles of one tick each later (R140). -/
def Dev.tokenCycle (s : Dev) : Nat := s.tick + 64

/-- COMMIT (R144): the checks, then the token for the lowest FREE slot, or a wait for one. -/
def Dev.commitCmd (s : Dev) (d : CmdDesc) : CmdRes :=
  let hdr := fld d.p8 19 0
  let e : Extent := (fld d.p16 19 0, fld d.p16 52 32)
  if e.1 + e.2 > 1048576 ∨ e.2 < 17 ∨ !e.has hdr 17 then .fail s stBadParam
  else if meets s.protectedExtents e.1 e.2 then .fail s 0x40
  else match s.badHeader hdr e with
    | some a => .done s 0x41 a 0
    | none =>
      let run (token : Option (Nat × Nat)) : CommitRun :=
        ⟨d, e.1, e.2, hdr, d.p32.truncate 32, s.now, fld d.p24 31 0, token⟩
      match s.freeSlot with
      | some v => .wait { s with groves := { s.groves with commit := some (run (some (v, s.tokenCycle))) } }
      | none => if fld d.p24 31 0 = 0 then .fail s stTimeout
        else .wait { s with groves := { s.groves with commit := some (run none) } }

/-- A waiting COMMIT reaches its TIMEOUT (R144). -/
def Dev.commitTimeout (s : Dev) : Dev :=
  match s.groves.commit with
  | some c => if c.token.isNone && s.now ≥ c.since + c.timeout * usRaw
    then ({ s with groves := { s.groves with commit := none } } : Dev).completeLate c.desc 2 (some kRuleVersion) stTimeout 0 0 else s
  | none => s

/-- Cycle T, once it has come (R140, R144, R145): the new slot is CURRENT, the former one DRAINING, and the command completes. -/
def Dev.commitToken (s : Dev) : Dev :=
  match s.groves.commit with
  | some c => (match c.token with
    | some (v, t) =>
      if s.tick < t then s else
      let old := s.current
      let s := { s with groves := { s.groves with commit := none } }
      let s := match old with | some o => s.setRf (verReg o 0) 1 0 2 | none => s
      let s := ((((s.setReg (verReg v 0) 1).setReg (verReg v 4) (BitVec.ofNat 32 c.base)).setReg (verReg v 8) (BitVec.ofNat 32 c.len)).setReg
        (verReg v 0xC) (BitVec.ofNat 32 c.hdr)).setReg (verReg v 0x10) c.label
      let a := v + 4 * old.getD 0
      (s.completeLate c.desc 2 (some kRuleVersion) stOk a t).raise 21 1 0x10 0xFF c.label.toNat a
    | none => s)
  | none => s

/-- A DRAINING slot with nothing in flight is FREE (R141); a COMMIT that waits takes it, up to its TIMEOUT (R144). -/
def Dev.versionRetire (s : Dev) (v : Nat) : Dev :=
  if s.verState v ≠ 2 ∨ s.rf (verReg v 0x14) 23 0 ≠ 0 then s
  else
    let label := (s.reg (verReg v 0x10)).toNat
    let s := ((s.setReg (verReg v 0) 0).logHw kRuleVersion 0x10 0xFF 2 0).raise 38 1 0x10 0xFF label v
    match s.groves.commit with
    | some c => if c.token.isNone && s.now ≤ c.since + c.timeout * usRaw
      then { s with groves := { s.groves with commit := some { c with token := some (v, s.tokenCycle) } } } else s
    | none => s

/-! ## The commands -/

/-- Whether a unit of the version commands is named: 0xFF of cluster 0x10 (R142). -/
def Dev.groveCommand (s : Dev) (d : CmdDesc) (unit op : Nat) (mask : List Nat) (body : Dev → CmdRes) (kind : Option Nat) : Dev :=
  s.command d (isOne 0x10) (isOne unit) op mask kind body

/-- BOUGH_LOAD. -/
def execBoughLoad (d : CmdDesc) (mem : HostData) (s : State) :=
  s.onDev (fun x => x.groveCommand d 0xFF 1 [all64, 0x1FFFFF000FFFFF, 0, 0, 0] (·.boughLoad d mem) (some kCommand))

/-- COMMIT. -/
def execCommit (d : CmdDesc) (s : State) :=
  s.onDev (fun x => x.groveCommand d 0xFF 2 [0xFFFFF, 0x1FFFFF000FFFFF, 0xFFFFFFFF, 0xFFFFFFFF, 0] (·.commitCmd d) (some kRuleVersion))

/-- COMMIT_TIMEOUT. -/
def execCommitTimeout (s : State) := s.onDev (·.commitTimeout)

/-- COMMIT_TOKEN. -/
def execCommitToken (s : State) := s.onDev (·.commitToken)

/-- VERSION_RETIRE. -/
def execVersionRetire (v : Fin 4) (s : State) := s.onDev (·.versionRetire v.val)

end Sys2Proof.Machine
end

