-- ==== Sys2Proof/Machine/Fdb.lean ====
section
/-! DEFINITION. The forwarding database: hashing, lookup, insertion and relocation, learning and the learning ring, station
moves and dampening, ageing, and its commands (R148 to R180). -/
namespace Sys2Proof.Machine

/-! ## The replicas (R148 to R151) -/

/-- Slots of a replica; the stash lies behind the two ways. -/
abbrev fdbSlots : Nat := 131136
abbrev fdbStash : Nat := 131072

/-- Raw time in ms. -/
def Dev.ms (s : Dev) : Nat := s.now / msRaw
/-- Raw time in ms modulo 2^16. -/
def Dev.ms16 (s : Dev) : Nat := s.ms % 65536

/-- A slot of a replica. -/
def Dev.fdbAt (s : Dev) (g i : Nat) : Option FdbEntry := s.groves.fdb.get none (262144 * g + i)

/-- Write a slot; the gauges follow (R180). -/
def Dev.setFdb (s : Dev) (g i : Nat) (e : Option FdbEntry) : Dev :=
  let was := (s.fdbAt g i).isSome.toNat
  let is := e.isSome.toNat
  let s := { s with groves := { s.groves with fdb := s.groves.fdb.put none (262144 * g + i) e } }
  let s := s.setRf (groveReg g 0x200) 17 0 (s.rf (groveReg g 0x200) 17 0 + is - was)
  if i ≥ fdbStash then s.setRf (groveReg g 0x204) 6 0 (s.rf (groveReg g 0x204) 6 0 + is - was) else s

/-- The first slots of a key's way-0 and way-1 buckets (R148). -/
def Dev.fdbBuckets (s : Dev) (vid mac : Nat) : Nat × Nat :=
  let c := crc32c (leBytes 4 (s.reg 0x221004).toNat ++ beBytes 2 vid ++ beBytes 6 mac)
  (8 * (c % 8192), 65536 + 8 * (c / 65536 % 8192))

/-- The slots a lookup reads, in its order (R151). -/
def Dev.fdbReads (s : Dev) (vid mac : Nat) : List Nat :=
  let b := s.fdbBuckets vid mac
  (List.range 8).map (b.1 + ·) ++ (List.range 8).map (b.2 + ·) ++ (List.range 64).map (fdbStash + ·)

/-- The slot that holds a key, if any. -/
def Dev.fdbFind (s : Dev) (g vid mac : Nat) : Option Nat :=
  (s.fdbReads vid mac).find? (fun i => match s.fdbAt g i with | some e => e.vid = vid && e.mac = mac | none => false)

/-- The entry of a key. -/
def Dev.fdbLookup (s : Dev) (g vid mac : Nat) : Option FdbEntry := (s.fdbFind g vid mac).bind (s.fdbAt g)

/-- Whether a hold is over: the present ms is at least HOLD_END, by serial comparison (R171). -/
def Dev.holdOver (s : Dev) (e : FdbEntry) : Bool := e.hold && (s.ms16 + 65536 - e.holdEnd) % 65536 < 32768
/-- Whether an entry is held now. -/
def Dev.held (s : Dev) (e : FdbEntry) : Bool := e.hold && !s.holdOver e

/-- Payload A of STATION_MOVE and payload B of an address. -/
def movePayload (old new : Nat) : Nat := old % 64 * 256 + new % 64
def keyPayload (vid mac : Nat) : Nat := vid * 2 ^ 48 + mac

/-- An expired hold is met (R171, R172): the bit clears; in Grove 0's replica the move count does too, and STATION_MOVE
cause 0x003 is raised. -/
def Dev.meetHold (s : Dev) (g i : Nat) : Dev :=
  match s.fdbAt g i with
  | some e =>
    if !s.holdOver e then s
    else if g = 0 then
      (s.setFdb 0 i (some { e with hold := false, moves := 0, refused := false })).raise 17 3 0x10 17
        (movePayload e.dest e.dest) (keyPayload e.vid e.mac)
    else s.setFdb g i (some { e with hold := false })
  | none => s

/-! ## Parity errors (R161) -/

/-- Slots of a replica found in error are invalidated and counted; TABLE_PARITY, cause 1 for a lookup, 2 for the ageing scan. -/
def Dev.parityFound (s : Dev) (g cause : Nat) (l : List Nat) : Dev :=
  if l.isEmpty then s
  else
    let s := (l.foldl (fun s i => (s.setFdb g i none).countRow g (fdbRowKey g i)) s).count (groveReg g 0x224) l.length
    let key := rateKey 19 cause (0x10 + g) 17 0
    let r := s.basjo.rate.get .idle key
    (s.onBasjo (fun b => { b with rate := b.rate.put .idle key ⟨r.last, r.count + (l.length - 1)⟩ })).raiseRated 19 cause (0x10 + g) 17 0 msRaw
      (fun n => n) (fun _ => 0)

/-- A lookup of stage 5 (R151): a miss where it reads a slot of `bad`, in parity error. Grove 0 meets an expired hold by it (R171). -/
def Dev.fdbMeet (s : Dev) (g vid mac : Nat) (bad : List Nat) : Option FdbEntry × Dev :=
  if (s.fdbReads vid mac).any bad.contains then (none, s)
  else match s.fdbFind g vid mac with
    | some i => let s := if g = 0 then s.meetHold 0 i else s; (s.fdbAt g i, s)
    | none => (none, s)

/-! ## Insertion and relocation (R156 to R159) -/

/-- A free slot of the bucket at slot `b`, lowest first. -/
def Dev.freeIn (s : Dev) (g b : Nat) : Option Nat := ((List.range 8).map (b + ·)).find? (fun i => (s.fdbAt g i).isNone)

/-- The bucket of an entry in the other way than slot `i` lies in. -/
def Dev.otherBucket (s : Dev) (i : Nat) (e : FdbEntry) : Nat :=
  let b := s.fdbBuckets e.vid e.mac
  if i < 65536 then b.2 else b.1

/-- The relocation path (R156 step 2): victims found so far, last first; the next victim; the step. The answer is the
victims, last first, and the free slot the last one moves to. -/
def Dev.relocPath (s : Dev) (g c : Nat) : Nat → List Nat → Nat → Nat → Option (List Nat × Nat)
  | 0, _, _, _ => none
  | k + 1, path, v, i =>
    if path.contains v then none
    else match s.fdbAt g v with
      | none => none
      | some e =>
        let b := s.otherBucket v e
        match s.freeIn g b with
        | some f => some (v :: path, f)
        | none => s.relocPath g c k (v :: path) (b + (c + i) % 8) (i + 1)

/-- Execute a path from its last move to its first: each victim's entry is written into the free slot, then its own slot
is erased (R157). The slot left free is the first victim's. -/
def Dev.relocate (s : Dev) (g : Nat) : List Nat → Nat → Dev × Nat
  | [], f => (s, f)
  | v :: r, f => (((s.setFdb g f (s.fdbAt g v)).setFdb g v none).count (groveReg g 0x23C)).relocate g r v

/-- The place an insertion finds for a new key, after any relocation (R156). -/
def Dev.makeRoom (s : Dev) (g vid mac : Nat) : Dev × Option Nat :=
  let b := s.fdbBuckets vid mac
  match s.freeIn g b.1 with
  | some i => (s, some i)
  | none => match s.freeIn g b.2 with
    | some i => (s, some i)
    | none =>
      let c := s.groves.victim.get 0 g
      let s := { s with groves := { s.groves with victim := s.groves.victim.put 0 g ((c + 1) % 8) } }
      match s.relocPath g c 16 [] (b.1 + c) 1 with
      | some p => let r := s.relocate g p.1 p.2; (r.1, some r.2)
      | none => (s, ((List.range 64).map (fdbStash + ·)).find? (fun i => (s.fdbAt g i).isNone))

/-- LEARN records of Grove 0 (R175). -/
def Dev.learnEvent (s : Dev) (g cause : Nat) (e : FdbEntry) : Dev :=
  if g = 0 ∧ s.rb 0x221000 2 then s.raise 16 cause 0x10 17 (e.dest + 8192 * e.group.toNat) (keyPayload e.vid e.mac) else s

/-- Insert a new key (R156), or fail (R158): `local_` tells a local learn from a message or a command. -/
def Dev.insert (s : Dev) (g : Nat) (e : FdbEntry) (local_ : Bool) : Dev × Bool :=
  let r := s.makeRoom g e.vid e.mac
  match r.2 with
  | some i => ((r.1.setFdb g i (some e)).learnEvent g 1 e, true)
  | none => ((r.1.count (groveReg g 0x220)).raiseRated 18 (if local_ then 1 else 2) (0x10 + g) 17 0 msRaw (fun n => n) (fun _ => 0), false)

/-- A stash entry moves to a free slot of one of its buckets (R159). -/
def Dev.stashRelocate (s : Dev) (g : Nat) : Dev :=
  let target (i : Nat) : Option Nat := match s.fdbAt g i with
    | some e => let b := s.fdbBuckets e.vid e.mac
      match s.freeIn g b.1 with | some j => some j | none => s.freeIn g b.2
    | none => none
  match ((List.range 64).map (fdbStash + ·)).find? (fun i => (target i).isSome) with
  | some i => (match target i with | some j => (s.setFdb g j (s.fdbAt g i)).setFdb g i none | none => s)
  | none => s

/-! ## Learning (R162 to R172) -/

/-- The present Groves. -/
def groveList (v : Variant) : List Nat := (List.range 4).filter (grovePresent v)

/-- A Grove's messages to send. -/
def Dev.outgoing (s : Dev) (g : Nat) : List LearnMsg := s.groves.out.get [] g
def Dev.setOutgoing (s : Dev) (g : Nat) (l : List LearnMsg) : Dev := { s with groves := { s.groves with out := s.groves.out.put [] g l } }

/-- The Grove after `g` on the learning ring, which runs through the powered Groves (R166, R479). -/
def Dev.nextGrove (s : Dev) (g : Nat) : Nat := ([(g + 1) % 4, (g + 2) % 4, (g + 3) % 4].find? s.grovePowered).getD g

/-- The Grove whose messages come to `g` next: the one before it on the ring, or, before that, one that has lost its power with messages
it still has to send (DESIGN CHOICE, log entry 28). -/
def Dev.prevGrove (s : Dev) (g : Nat) : Nat :=
  ([(g + 3) % 4, (g + 2) % 4, (g + 1) % 4].find? (fun p => s.grovePowered p || !(s.outgoing p).isEmpty)).getD g

/-- Whether a message of Grove `o` is at its end at `g`: the hop onward would reach or pass its originator (R166). -/
def Dev.lastHop (s : Dev) (g o : Nat) : Bool := let far (n : Nat) : Nat := (n + 3 - g) % 4; far o ≤ far (s.nextGrove g)

/-- Queue a Grove's own message; with no other Grove powered there is no ring to carry it. -/
def Dev.sendOwn (s : Dev) (g : Nat) (m : LearnMsg) : Dev := if s.nextGrove g = g then s else s.setOutgoing g (s.outgoing g ++ [m])

/-- Grove 0 counts a move for dampening (R169): the window, and the hold where it is exceeded. -/
def Dev.dampen (s : Dev) (i old : Nat) : Dev :=
  match s.fdbAt 0 i with
  | some e =>
    if !s.rb 0x221000 1 then s
    else
      let fresh := e.moves = 0 || (s.ms16 + 65536 - e.winStart) % 65536 ≥ s.rf 0x22100C 30 16
      let e := if fresh then { e with winStart := s.ms16, moves := 1 } else { e with moves := min 15 (e.moves + 1) }
      if e.moves ≤ s.rf 0x22100C 3 0 then s.setFdb 0 i (some e)
      else
        let e := { e with hold := true, holdEnd := (s.ms16 + s.rf 0x221010 14 0) % 65536, refused := false }
        ((s.setFdb 0 i (some e)).sendOwn 0 ⟨true, e.vid, e.mac, e.stamp, 0, e.dest, e.holdEnd⟩).raise 17 2 0x10 17
          (movePayload old e.dest) (keyPayload e.vid e.mac)
  | none => s

/-- What a replica made of a learn. -/
inductive Learned where
  | refused
  | applied
  | failed
  deriving DecidableEq, Repr

/-- Apply a learn to a replica (R164). -/
def Dev.applyLearn (s : Dev) (g : Nat) (m : LearnMsg) (local_ : Bool) : Dev × Learned :=
  match s.fdbFind g m.vid m.mac with
  | none =>
    let r := s.insert g ⟨false, false, m.vid, m.mac, 0, 0, 0, false, 0, m.origin, m.port, m.stamp, false⟩ local_
    (r.1, if r.2 then .applied else .failed)
  | some i =>
    let s := s.meetHold g i
    match s.fdbAt g i with
    | none => (s, .refused)
    | some e =>
      if e.isStatic ∨ e.group then (s, .refused)
      else if e.hold ∧ m.port ≠ e.dest then
        let s := s.count (groveReg g 0x22C)
        if g = 0 ∧ !e.refused then
          ((s.setFdb 0 i (some { e with refused := true })).raise 17 5 0x10 17 (movePayload e.dest e.dest) (keyPayload e.vid e.mac), .refused)
        else (s, .refused)
      else if m.stamp > e.stamp ∨ (m.stamp = e.stamp ∧ (m.origin < e.origin ∨ (m.origin = e.origin ∧ m.port < e.dest))) then
        let s := s.setFdb g i (some { e with dest := m.port, stamp := m.stamp, origin := m.origin, age := 0 })
        if m.port = e.dest then (s, .applied)
        else
          let s := s.count (groveReg g 0x234)
          if g = 0 then ((s.raise 17 1 0x10 17 (movePayload e.dest m.port) (keyPayload e.vid e.mac)).dampen i e.dest, .applied)
          else (s, .applied)
      else (s.count (groveReg g 0x230), .refused)

/-- What the source lookup's answer leads to (R163). -/
def learnOf (port : Nat) : Option FdbEntry → Learn
  | none => .new
  | some e =>
    if e.group ∨ (e.isStatic ∧ e.dest ≠ port) then .conflict e.dest
    else if !e.isStatic && (e.dest ≠ port || e.age ≠ 0) then .new else .none

/-- A Grove's own messages in its FIFO of 256 (R167). -/
def Dev.ownQueued (s : Dev) (g : Nat) : Nat := (s.outgoing g).countP (fun x => x.origin = g)

/-- A frame that passes stage 6 carries out what its source lookup led to, in its own Grove (R162, R163): a learn whose message
finds the FIFO full is dropped whole (R167). DESIGN CHOICE (log entry 71): where one learn of Grove 0 makes both messages, HOLD goes before
LEARN (R169), and STATION_MOVE's old port of an entry of DEST_TYPE 1 is its group number modulo 64 (R172). -/
def Dev.sourceLearn (s : Dev) (g vid mac port stamp : Nat) (l : Learn) : Dev :=
  let m : LearnMsg := ⟨false, vid, mac, stamp, g, port, 0⟩
  match l with
  | .none => s
  | .conflict old =>
    (s.count (groveReg g 0x228)).raiseRated 17 4 (0x10 + g) 17 0 msRaw (fun _ => movePayload old port) (fun _ => keyPayload vid mac)
  | .new =>
    let r := s.applyLearn g m true
    if r.2 = .refused then r.1 else if r.1.ownQueued g ≥ 256 then s.count (groveReg g 0x238) else r.1.sendOwn g m

/-- Pass a received message on ahead of the Grove's own; the Grove before the originator removes it (R166). -/
def Dev.forwardMsg (s : Dev) (g : Nat) (m : LearnMsg) : Dev :=
  if s.lastHop g m.origin then s
  else
    let l := s.outgoing g
    s.setOutgoing g (l.takeWhile (fun x => x.origin ≠ g) ++ [m] ++ l.dropWhile (fun x => x.origin ≠ g))

/-- A Grove takes the message that heads the hop into it, if it is of the kind asked. -/
def Dev.takeMsg (s : Dev) (g : Nat) (hold : Bool) : Option (LearnMsg × Dev) :=
  let p := s.prevGrove g
  match s.outgoing p with
  | m :: r => if m.hold = hold then some (m, s.setOutgoing p r) else none
  | [] => none

/-- A HOLD message is applied unconditionally (R170). -/
def Dev.applyHold (s : Dev) (g : Nat) (m : LearnMsg) : Dev :=
  match s.fdbFind g m.vid m.mac with
  | some i => (match s.fdbAt g i with
    | some e => s.setFdb g i (some { e with dest := m.port, stamp := m.stamp, origin := 0, age := 0, hold := true, holdEnd := m.holdEnd })
    | none => s)
  | none => (s.insert g ⟨false, false, m.vid, m.mac, m.holdEnd, 0, 0, true, 0, 0, m.port, m.stamp, false⟩ false).1

/-! ## Ageing and the dampening sweep (R171, R173) -/

/-- The slots of a replica in use. -/
def Dev.fdbUsed (s : Dev) (g : Nat) : List Nat :=
  (s.groves.fdb.filter (fun e => 262144 * g ≤ e.1 && e.1 < 262144 * g + fdbSlots)).map (fun e => e.1 - 262144 * g)

/-- The ageing scan of a replica: the slots of `bad`, found in parity error, are invalidated (R161), the others aged. -/
def Dev.ageScan (s : Dev) (g : Nat) (bad : List Nat) : Dev :=
  let s := s.parityFound g 2 bad.eraseDups
  (s.fdbUsed g).foldl (fun s i =>
    let s := s.meetHold g i
    match s.fdbAt g i with
    | some e =>
      if e.isStatic then s
      else if e.age = 3 then ((s.setFdb g i none).count (groveReg g 0x240)).learnEvent g 2 e
      else s.setFdb g i (some { e with age := e.age + 1 })
    | none => s) s

/-- An ageing tick: raw time is a whole multiple of AGE_PERIOD × 250 ms (R173). -/
def Dev.ageingTick (s : Dev) (bad : List (Nat × Nat)) : Dev :=
  let p := s.rf 0x221008 15 0 * 250 * msRaw
  if p = 0 ∨ s.now % p ≥ 256 ∨ s.groves.aged = s.tick + 1 then s
  else (groveList s.variant).foldl (fun s g => s.ageScan g ((bad.filter (fun e => e.1 = g)).map (·.2))) { s with groves := { s.groves with aged := s.tick + 1 } }

/-- The dampening sweep of a replica (R171). -/
def Dev.dampSweep (s : Dev) (g : Nat) : Dev :=
  (s.fdbUsed g).foldl (fun s i =>
    let s := s.meetHold g i
    match s.fdbAt g i with
    | some e => if g = 0 ∧ e.moves ≠ 0 ∧ (s.ms16 + 65536 - e.winStart) % 65536 ≥ s.rf 0x22100C 30 16
      then s.setFdb g i (some { e with moves := 0 }) else s
    | none => s) s

/-! ## The commands (R177, R178) -/

/-- Remove a key from a replica. -/
def Dev.fdbRemove (s : Dev) (g vid mac : Nat) : Dev :=
  match s.fdbFind g vid mac with
  | some i => s.setFdb g i none
  | none => s

/-- Install an entry in a replica, over whatever stands there. -/
def Dev.fdbInstall (s : Dev) (g : Nat) (e : FdbEntry) : Dev × Bool :=
  match s.fdbFind g e.vid e.mac with
  | some i => (s.setFdb g i (some e), true)
  | none => s.insert g e false

/-- FDB_ADD (R178). -/
def Dev.fdbAdd (s : Dev) (d : CmdDesc) : CmdRes :=
  let vid := fld d.p8 59 48
  let mac := fld d.p8 47 0
  let group := bit d.p16 13
  let dest := fld d.p16 12 0
  if !group && (bit d.p8 40 || dest > 39 || !portPresent s.variant dest) then .fail s stBadParam
  else
    let e : FdbEntry := ⟨bit d.p16 32, group, vid, mac, 0, 0, 0, false, 0, 0, dest, s.tick, false⟩
    let r := (groveList s.variant).foldl (fun (a : Dev × Bool) g => let x := a.1.fdbInstall g e; (x.1, a.2 && x.2)) (s, true)
    if r.2 then .done r.1 stOk 0 0
    else
      let had := (groveList s.variant).any (fun g => (s.fdbFind g vid mac).isSome)
      let s := (groveList s.variant).foldl (fun s g => s.fdbRemove g vid mac) r.1
      .fail (if had then s.logCommand d 0x10 kCommand stFull else s) stFull

/-- FDB_DEL. -/
def Dev.fdbDel (s : Dev) (d : CmdDesc) : CmdRes :=
  let vid := fld d.p8 59 48
  let mac := fld d.p8 47 0
  if (groveList s.variant).all (fun g => (s.fdbFind g vid mac).isNone) then .fail s stNotFound
  else .done ((groveList s.variant).foldl (fun s g => s.fdbRemove g vid mac) s) stOk 0 0

/-- FDB_FLUSH. -/
def Dev.fdbFlush (s : Dev) (d : CmdDesc) : CmdRes :=
  let hits (e : FdbEntry) : Bool := (!e.isStatic || bit d.p8 48) && (!bit d.p8 40 || (!e.group && e.dest = fld d.p8 37 32))
    && (!bit d.p8 28 || e.vid = fld d.p8 11 0)
  let r := (groveList s.variant).foldl (fun (a : Dev × Nat) g =>
    (a.1.fdbUsed g).foldl (fun a i => match a.1.fdbAt g i with
      | some e => if hits e then (a.1.setFdb g i none, if g = 0 then a.2 + 1 else a.2) else a
      | none => a) a) (s, 0)
  .done r.1 stOk r.2 0

/-- FDB_READ. DESIGN CHOICE (log entry 71): it is no lookup, so a hold of Grove 0 that has run out reads as 0 while MOVE_CNT stays and
nothing is raised (R171). -/
def Dev.fdbRead (s : Dev) (d : CmdDesc) : CmdRes :=
  match s.fdbLookup (d.cl - 0x10) (fld d.p8 59 48) (fld d.p8 47 0) with
  | none => .fail s stNotFound
  | some e => .done s stOk (e.dest + 2 ^ 13 * e.group.toNat + 2 ^ 14 * e.isStatic.toNat + 2 ^ 15 * (s.held e).toNat + 2 ^ 16 * e.age
      + 2 ^ 18 * e.moves + 2 ^ 22 * e.origin) e.stamp

/-- A word of the forwarding database with its check bits: even parity over the 64 data bits in [64], and [71:65] zero (R150). -/
def parityWord (w : DWord) : BitVec 72 := w.setWidth 72 ||| BitVec.ofNat 72 (((List.range 64).countP w.getLsbD) % 2 * 2 ^ 64)

/-- The three words of an entry as the replica stores them (R150). -/
def FdbEntry.words (e : FdbEntry) : List (BitVec 72) :=
  [2 ^ 63 + e.isStatic.toNat * 2 ^ 62 + e.group.toNat * 2 ^ 61 + e.vid * 2 ^ 48 + e.mac,
   e.holdEnd * 2 ^ 48 + e.winStart * 2 ^ 32 + e.moves * 2 ^ 28 + e.hold.toNat * 2 ^ 27 + e.age * 2 ^ 25 + e.origin * 2 ^ 23 + e.dest,
   e.stamp].map (fun n => parityWord (BitVec.ofNat 64 n))

/-- The data parts of an entry's words. -/
def FdbEntry.octets (e : FdbEntry) : List Byte := e.words.flatMap (fun w => leBytes 8 (w.toNat % 2 ^ 64))

/-- Write host memory for a command (R57 counts a failed write). -/
def Dev.hostWrite (s : Dev) (h addr : Nat) (l : List Byte) : Dev := s.onBasjo (fun b => b.store h addr l)

/-- FDB_DUMP. -/
def Dev.fdbDump (s : Dev) (d : CmdDesc) (err : Bool) : CmdRes :=
  let n := fld d.p16 17 0
  if fld d.p8 2 0 ≠ 0 ∨ n = 0 ∨ n > 131136 then .fail s stBadParam
  else if err then .fail (s.dmaFail d.host.val) stDmaErr
  else
    let g := d.cl - 0x10
    let es := ((s.fdbUsed g).filterMap (s.fdbAt g)).take n
    .done (s.hostWrite d.host.val d.p8.toNat (es.flatMap FdbEntry.octets)) stOk es.length 0

/-- Any Grove cluster. -/
def isGrove : Nat → Bool := fun c => 0x10 ≤ c && c < 0x14

/-! ## The meanings -/

/-- FDB_SEED_WRITE (R149). -/
def execFdbSeedWrite (a : Acc) (value : BitVec 32) (s : State) :=
  s.onDev (fun d => if (groveList d.variant).all (fun g => d.rf (groveReg g 0x200) 17 0 = 0)
    then d.writeField a 0x221004 value (·.setReg 0x221004 value)
    else (d.passAccess a 0x221004 true true (leBytes 4 (d.reg 0x221004).toNat) (leBytes 4 value.toNat)).1)

/-- LEARNING_MESSAGE_RX. -/
def execLearningMessageRx (g : Fin 4) (s : State) :=
  s.onDev (fun d => if !d.grovePowered g.val then d else match d.takeMsg g.val false with
    -- a HOLD message that Grove 0's FIFO has no place for stalls the hop (R167)
    | some r => let x := (r.2.applyLearn g.val r.1 false).1
      if x.ownQueued g.val > max 256 (d.ownQueued g.val) then d else x.forwardMsg g.val r.1
    | none => d)

/-- HOLD_MESSAGE_RX. -/
def execHoldMessageRx (g : Fin 4) (s : State) :=
  s.onDev (fun d => if !d.grovePowered g.val then d else match d.takeMsg g.val true with
    | some r => (r.2.applyHold g.val r.1).forwardMsg g.val r.1
    | none => d)

/-- STASH_RELOCATE. -/
def execStashRelocate (g : Fin 4) (s : State) := s.onDev (·.stashRelocate g.val)

/-- AGEING_TICK. The slots, by Grove, that the scan finds in parity error. -/
def execAgeingTick (bad : List (Fin 4 × Fin 131136)) (s : State) := s.onDev (·.ageingTick (bad.map (fun e => (e.1.val, e.2.val))))

/-- DAMPENING_SWEEP. -/
def execDampeningSweep (g : Fin 4) (s : State) := s.onDev (·.dampSweep g.val)

/-- HOLD_END_REACHED: from the first ms at HOLD_END on the replica treats the hold as over. -/
def execHoldEndReached (g : Fin 4) (vid : BitVec 12) (mac : BitVec 48) (s : State) :=
  s.onDev (fun d => match d.fdbFind g.val vid.toNat mac.toNat with | some i => d.meetHold g.val i | none => d)

/-- FDB_ADD. -/
def execFdbAdd (d : CmdDesc) (s : State) :=
  s.onDev (·.groveCommand d 17 0x10 [0x0FFFFFFFFFFFFFFF, 0x100003FFF, 0, 0, 0] (·.fdbAdd d) (some kCommand))

/-- FDB_DEL. -/
def execFdbDel (d : CmdDesc) (s : State) :=
  s.onDev (·.groveCommand d 17 0x11 [0x0FFFFFFFFFFFFFFF, 0, 0, 0, 0] (·.fdbDel d) (some kCommand))

/-- FDB_FLUSH. -/
def execFdbFlush (d : CmdDesc) (s : State) :=
  s.onDev (·.groveCommand d 17 0x12 [0x0001013F10000FFF, 0, 0, 0, 0] (·.fdbFlush d) (some kCommand))

/-- FDB_READ. -/
def execFdbRead (d : CmdDesc) (s : State) :=
  s.onDev (·.command d isGrove (isOne 17) 0x13 [0x0FFFFFFFFFFFFFFF, 0, 0, 0, 0] none (·.fdbRead d))

/-- FDB_DUMP. -/
def execFdbDump (d : CmdDesc) (err : Bool) (s : State) :=
  s.onDev (·.command d isGrove (isOne 17) 0x14 [all64, 0x3FFFF, 0, 0, 0] none (·.fdbDump d err))

end Sys2Proof.Machine
end

