-- ==== Sys2Proof/Machine/Buckets.lean ====
section
/-! DEFINITION. Token buckets and flow meters (R120, R221 to R225, R290). -/
namespace Sys2Proof.Machine

/-- One octet in the unit buckets are kept in: at 8 kb/s a bucket gains one unit in each 1/256 tick. -/
abbrev octetUnits : Int := 102400000

/-- A bucket that stood at `v` at raw time `t`, filled at `rate` units of 8 kb/s up to `burst` octets: exactly, where the spec gives a
resolution of 2^-32 octet and 1 ppm (R221, R230; DESIGN CHOICE, log entry 28). -/
def filled (v : Int) (t now rate burst : Nat) : Int :=
  if v ≥ burst * octetUnits then min v (burst * octetUnits) else min (burst * octetUnits) (v + (rate : Int) * ((now : Int) - t))

/-- Whole octets of a bucket, signed and saturating in 32 bits; a fraction is rounded down, of a bucket below zero too (DESIGN CHOICE, log
entry 28). -/
def wholeOctets (v : Int) : Word := BitVec.ofInt 32 (max (-2147483648) (min 2147483647 (v / octetUnits)))

/-! ## Flow meters -/

/-- A meter, and a Grove's buckets of it. -/
def Dev.meter (s : Dev) (m : Nat) : Meter := s.groves.meters.get .idle m
def Dev.meterRun (s : Dev) (g m : Nat) : MeterRun := s.groves.meterRuns.get .idle (16384 * g + m)
def Dev.setMeterRun (s : Dev) (g m : Nat) (r : MeterRun) : Dev :=
  { s with groves := { s.groves with meterRuns := s.groves.meterRuns.put .idle (16384 * g + m) r } }

/-- The buckets of a meter now. -/
def Dev.meterNow (s : Dev) (g m : Nat) : MeterRun :=
  let x := s.meter m
  let r := s.meterRun g m
  { r with c := filled r.c r.upd s.now x.cir x.cbs, p := filled r.p r.upd s.now x.pir x.pbs, upd := s.now }

/-- The colour a meter gives a frame of `len` octets (R222): 0 green, 1 yellow, 2 red. -/
def Dev.meterColour (s : Dev) (g m len : Nat) (dei : Bool) : Nat :=
  let x := s.meter m
  let r := s.meterNow g m
  if !x.en then 0
  else if r.p < len * octetUnits then 2
  else if r.c < len * octetUnits || (x.cm && dei) then if x.dropYellow then 2 else 1
  else 0

/-- Whether a red frame was made red by DROP_YELLOW. -/
def Dev.meterYellowDrop (s : Dev) (g m len : Nat) : Bool := (s.meter m).dropYellow && (s.meterNow g m).p ≥ len * octetUnits

/-- The debit and the count of a frame that passes stage 6 (R223), coloured by the meter while its EN was 1, whatever METER_SET has made
of it since (R224). -/
def Dev.meterDebit (s : Dev) (g m colour len : Nat) : Dev :=
  let r := s.meterNow g m
  s.setMeterRun g m (match colour with
    | 0 => { r with c := r.c - len * octetUnits, p := r.p - len * octetUnits, green := satAdd r.green 1 }
    | 1 => { r with p := r.p - len * octetUnits, yellow := satAdd r.yellow 1 }
    | _ => { r with red := satAdd r.red 1 })

/-- METER_SET (R224). -/
def Dev.meterSet (s : Dev) (d : CmdDesc) : CmdRes :=
  let x : Meter := ⟨bit d.p32 0, bit d.p32 1, bit d.p32 2, fld d.p16 21 0, fld d.p16 53 32, fld d.p24 23 0, fld d.p24 55 32⟩
  let rate (r : Nat) : Bool := 1 ≤ r && r ≤ 3125000
  if x.en && !(rate x.cir && rate x.pir && 1 ≤ x.cbs && 1 ≤ x.pbs && x.cir ≤ x.pir) then .fail s stBadParam
  else
    let m := fld d.p8 13 0
    let s := { s with groves := { s.groves with meters := s.groves.meters.put .idle m x } }
    .done ((groveList s.variant).foldl (fun s g => s.setMeterRun g m ⟨x.cbs * octetUnits, x.pbs * octetUnits, s.now, 0, 0, 0⟩) s) stOk 0 0

/-- METER_READ (R224). -/
def Dev.meterRead (s : Dev) (d : CmdDesc) : CmdRes :=
  let r := s.meterNow (d.cl - 0x10) (fld d.p8 13 0)
  if bit d.p8 16 then .done s stOk 0 ((wholeOctets r.c).toNat * 2 ^ 32 + (wholeOctets r.p).toNat)
  else .done s stOk r.red.toNat (r.yellow.toNat * 2 ^ 32 + r.green.toNat)

/-- METER_SET. -/
def execMeterSet (d : CmdDesc) (s : State) :=
  s.onDev (·.groveCommand d 18 0x20 [0x3FFF, 0x003FFFFF003FFFFF, 0x00FFFFFF00FFFFFF, 7, 0] (·.meterSet d) (some kCommand))

/-- METER_READ. -/
def execMeterRead (d : CmdDesc) (s : State) :=
  s.onDev (·.command d isGrove (isOne 18) 0x21 [0x13FFF, 0, 0, 0, 0] none (·.meterRead d))

/-! ## Slow-path policers (R120, R121) -/

/-- The slow-path policer's registers. -/
abbrev slowReg (g c off : Nat) : Nat := groveReg g (0x1000 + 0x10 * c + off)

/-- Tokens of one frame: at one frame per second a policer gains one in each 1/256 tick. -/
abbrev frameUnits : Int := 102400000000

/-- BURST, where 0 acts as 1. -/
def Dev.slowBurst (s : Dev) (g c : Nat) : Int := (max 1 (s.rf (slowReg g c 4) 15 0) : Nat) * frameUnits

/-- A policer's tokens now; one never debited since it was filled holds BURST. -/
def Dev.slowTokens (s : Dev) (g c : Nat) : Int :=
  match s.groves.slow.get none (16 * g + c) with
  | none => s.slowBurst g c
  | some v => min (s.slowBurst g c) (v.1 + (s.rf (slowReg g c 0) 23 0 : Int) * ((s.now : Int) - v.2))

/-- A write of SLOW_RATE or SLOW_BURST, or a reset, fills the bucket. -/
def Dev.slowFill (s : Dev) (g c : Nat) : Dev :=
  { s with groves := { s.groves with slow := s.groves.slow.put none (16 * g + c) none } }

/-- SLOW_PATH_DROP (R121) after a drop of a frame that entered on port `p`. -/
def Dev.slowDrop (s : Dev) (g c p : Nat) : Dev :=
  (s.count (slowReg g c 0xC)).raiseRated 20 c (0x10 + g) 19 0 msRaw (fun n => n) (fun _ => p)

/-- The policer decides a frame that passes stage 6. -/
def Dev.slowPolice (s : Dev) (g c p : Nat) : Dev × Bool :=
  let t := s.slowTokens g c
  if s.rf (slowReg g c 0) 23 0 ≠ 0 ∧ t ≥ frameUnits then
    (({ s with groves := { s.groves with slow := s.groves.slow.put none (16 * g + c) (some (t - frameUnits, s.now)) } } : Dev).count (slowReg g c 8), true)
  else (s.slowDrop g c p, false)

end Sys2Proof.Machine
end

