-- ==== Sys2Proof/Machine/KeyCore.lean ====
section
/-! DEFINITION. Key slots: the tests every use meets, uses in progress, and the reclamation of orphans (R375 to R382). -/
namespace Sys2Proof.Machine

/-- USAGE (R376). -/
abbrev uEncrypt : Nat := 0
abbrev uDecrypt : Nat := 1
abbrev uWrap : Nat := 2
abbrev uDerive : Nat := 3

/-- A slot. -/
def Dev.slot (s : Dev) (n : Nat) : KeySlot := s.burl.slots.get .empty n

/-- Store a slot; KS_LIVE follows (R400). -/
def Dev.setSlot (s : Dev) (n : Nat) (k : KeySlot) : Dev :=
  let live (k : KeySlot) : Nat := if k.state = 1 then 1 else 0
  let was := live (s.slot n)
  let s := { s with burl := { s.burl with slots := s.burl.slots.put .empty n k } }
  s.setReg (burlReg 0x4014) (BitVec.ofNat 32 ((s.reg (burlReg 0x4014)).toNat + live k - was))

/-- Whether the chain from a key upward is valid (R378): `k` links are left to follow. -/
def Dev.chainOk (s : Dev) : Nat → KeySlot → Bool
  | 0, _ => false
  | k + 1, x =>
    if x.parent = 0x3FC then true
    else if x.parent ≥ 0x3FD then s.burl.liveRoot = some (x.parent - 0x3FD)
    else
      let p := s.slot x.parent
      p.state = 1 && p.gen = x.parentGen && s.chainOk k p

/-- Whether a LIVE slot is orphaned. -/
def Dev.orphaned (s : Dev) (n : Nat) : Bool := !s.chainOk 9 (s.slot n)

/-- The slots of a slot's chain, itself first. -/
def Dev.chain (s : Dev) : Nat → Nat → List Nat
  | 0, _ => []
  | k + 1, n => n :: (if (s.slot n).parent < 576 then s.chain k (s.slot n).parent else [])

/-- Whether a use is permitted (R378): LIVE, the usage, the origin's OWNER bit, a valid chain. -/
def Dev.mayUse (s : Dev) (n usage origin : Nat) : Bool :=
  let k := s.slot n
  n < 576 && k.state = 1 && k.usage = usage && k.owner.testBit origin && !s.orphaned n

/-- The bank unit of a slot (R375). -/
def bankUnit (n : Nat) : Nat := 16 + n / 64

/-- The unit events about a slot carry: its bank's, or the spare bank's once that holds the slot's words (R26, R383). -/
def Dev.eventBank (s : Dev) (n : Nat) : Nat :=
  if n < 512 then (s.ras.units.get .idle (256 * 0x40 + bankUnit n)).other.getD (bankUnit n) else bankUnit n

/-- KEY_OP_DONE for a slot (R398). -/
def Dev.keyEvent (s : Dev) (cause n : Nat) : Dev := s.raise 48 cause 0x40 (s.eventBank n) n (s.slot n).gen.toNat

/-- An emptied slot with the next generation; one that cannot count further is retired (R380, R382). -/
def KeySlot.cleared (k : KeySlot) : KeySlot :=
  if k.gen = 0xFFFFFFFF then { KeySlot.empty with state := 3, gen := k.gen } else { KeySlot.empty with gen := k.gen + 1 }

/-- Word 0 of a slot (R376), ORPHANED filled in. -/
def Dev.slotWord0 (s : Dev) (n : Nat) : Nat :=
  let k := s.slot n
  k.state * 2 ^ 62 + k.usage * 2 ^ 60 + k.key256.toNat * 2 ^ 59 + k.depth * 2 ^ 56 + k.owner * 2 ^ 45 + k.parent * 2 ^ 35
    + (k.state = 1 && s.orphaned n).toNat * 2 ^ 32 + k.gen.toNat

/-- The device itself changes a slot: a key change, logged with word 0 as it stood and as it stands after (R536; which value the entry
hashes is a DESIGN CHOICE, log entry 69). -/
def Dev.hwSlot (s : Dev) (n : Nat) (k : KeySlot) : Dev :=
  (s.log 10 kKey 0x40 (s.eventBank n) 0 0 (leBytes 8 (s.slotWord0 n)) (leBytes 8 ((s.setSlot n k).slotWord0 n))).setSlot n k

/-- Reclaim an orphan (R382). -/
def Dev.reclaim (s : Dev) (n : Nat) : Dev :=
  ((s.hwSlot n (s.slot n).cleared).count (burlReg 0x4020)).raiseRated 48 4 0x40 (s.eventBank n) 0 msRaw (fun _ => n) (fun c => c)

/-- The uses in progress. -/
def Dev.usesNow (s : Dev) : List KeyUse := s.burl.uses.filter (fun u => match u.ends with | some t => s.now < t | none => true)

/-- Whether a use of a slot, or of a descendant of it, is in progress (R381). -/
def Dev.inUse (s : Dev) (n : Nat) : Bool := s.usesNow.any (fun u => u.chain.contains n)

/-- Whether a slot is a LIVE orphan that nothing keeps from reclamation (R382). -/
def Dev.reclaimable (s : Dev) (n : Nat) : Bool := n < 576 && (s.slot n).state = 1 && s.orphaned n && !s.inUse n

/-- A use that finds a LIVE slot orphaned reclaims it at once (R382), or when the uses in progress have ended. -/
def Dev.reclaimIfOrphan (s : Dev) (n : Nat) : Dev := if s.reclaimable n then s.reclaim n else s

/-- A use refused under R378: counted, and an orphan it found is reclaimed. -/
def Dev.refuseUse (s : Dev) (n : Nat) : Dev := (s.count (burlReg 0x4024)).reclaimIfOrphan n

/-- A use begins: the key is copied (R379). -/
def Dev.beginUse (s : Dev) (owner : UseOwner) (n : Nat) (sa ends : Option Nat := none) : Dev :=
  { s with burl := { s.burl with uses := s.usesNow ++ [⟨owner, s.burl.serial, n, s.chain 9 n, sa, ends⟩], serial := s.burl.serial + 1 } }

/-- Whether no frame issued under an SA remains in a pipe. -/
def Dev.saIdle (s : Dev) (i : Nat) : Bool := !s.burl.uses.any (fun u => u.sa = some i)

/-- The SAs that no frame uses any longer are cleared, and their commands complete (R366). -/
def Dev.saCleared (s : Dev) : Dev :=
  s.burl.clears.foldl (fun (s : Dev) c =>
    if c.sas.all s.saIdle then
      ({ s with burl := { s.burl with sas := c.sas.foldl (fun m i => m.put none i none) s.burl.sas,
                                      clears := s.burl.clears.filter (· ≠ c) } } : Dev).completeLate c.desc c.op (some kCommand) stOk 0 0
    else s) s

/-- The uses of a frame or operation end. -/
def Dev.endUse (s : Dev) (owner : UseOwner) : Dev :=
  ({ s with burl := { s.burl with uses := s.burl.uses.filter (fun u => u.owner ≠ owner) } } : Dev).saCleared

/-- Whether a use of a slot that is numbered below `k` is in progress (R381). -/
def Dev.usedBefore (s : Dev) (n k : Nat) : Bool := s.usesNow.any (fun u => u.serial < k && u.chain.contains n)

/-- The octets of a slot's key. -/
def KeySlot.octets (k : KeySlot) : List Byte := if k.key256 then beBytes 32 k.key.toNat else (beBytes 32 k.key.toNat).take 16

end Sys2Proof.Machine
end

