-- ==== Sys2Proof/Machine/Bark.lean ====
section
/-! DEFINITION. Bark: zones, connection tracking, rate limiters, logging, and the connection table's commands
(R284 to R307, R312 to R315). -/
namespace Sys2Proof.Machine

/-! ## Zones (R284 to R287) -/

/-- The zone of a source. -/
def Dev.sourceZone (s : Dev) (p group : Nat) : Nat :=
  if p = 36 ∨ p = 37 then s.rf (barkReg (0x1100 + 0x40 * (p - 36) + 4 * group)) 5 0
  else if p = 39 then (if group < 32 then s.rf (barkReg (0x1200 + 4 * group)) 5 0 else s.rf (barkReg (0x1280 + 4 * (group - 32))) 5 0)
  else s.rf (barkReg (0x1000 + 4 * p)) 5 0

/-- The host queue of a frame of class `t` (R220). -/
def Dev.hostQueue (s : Dev) (p t : Nat) (stream : Option Nat) : Nat :=
  let m := crownReg p (0x80 + 4 * t)
  let k := match stream with | some i => i % 2 ^ min 2 (s.rf m 9 8) | none => 0
  (s.rf m 4 0 + k) % 32

/-- The zone of a target port other than P39. -/
def Dev.targetZone (s : Dev) (p t : Nat) (stream : Option Nat) : Nat :=
  if p = 36 ∨ p = 37 then
    let h := p - 36
    s.rf (barkReg (0x1100 + 0x40 * h + 4 * s.basjo.rf (hostReg h (0x300 + 4 * s.hostQueue p t stream)) 11 8)) 5 0
  else s.rf (barkReg (0x1000 + 4 * p)) 5 0

/-- ZP[s][d].ALLOW. -/
def Dev.allow (s : Dev) (a b : Nat) : Bool := s.rb (zpReg a b) 31

/-! ## Anomaly rates (R312) -/

/-- The window now. -/
def Dev.anomWindow (s : Dev) : Nat := s.ms / s.rf (barkReg 0x50) 15 0

/-- A zone's counts in the present window. -/
def Dev.anomaly (s : Dev) (z : Nat) : Anomaly :=
  let a := s.bark.anomaly.get ⟨0, 0, 0, false, false⟩ z
  if a.window = s.anomWindow then a else ⟨s.anomWindow, 0, 0, false, false⟩

/-- Store a zone's counts, raising ANOMALY_RATE at a threshold. -/
def Dev.setAnomaly (s : Dev) (z : Nat) (a : Anomaly) : Dev :=
  let th := barkReg 0x54
  let deny := s.rf th 31 16
  let new := s.rf th 15 0
  let up1 := deny ≠ 0 && a.deny ≥ deny && !a.denyRaised
  let up2 := new ≠ 0 && a.inserts ≥ new && !a.newRaised
  let start := a.window * s.rf (barkReg 0x50) 15 0
  let a := { a with denyRaised := a.denyRaised || up1, newRaised := a.newRaised || up2 }
  let s := { s with bark := { s.bark with anomaly := s.bark.anomaly.put ⟨0, 0, 0, false, false⟩ z a } }
  let s := if up1 then s.raise 35 1 0x30 0 z start else s
  if up2 then s.raise 35 2 0x30 0 z start else s

/-- Count a denial, or an insertion, against a zone. -/
def Dev.countDeny (s : Dev) (z : Nat) : Dev := let a := s.anomaly z; s.setAnomaly z { a with deny := a.deny + 1 }
def Dev.countInsert (s : Dev) (z : Nat) : Dev := let a := s.anomaly z; s.setAnomaly z { a with inserts := a.inserts + 1 }

/-! ## The connection table (R296 to R302) -/

/-- Table mode: the table is in external memory. While INIT lasts Bark works in cache-only mode (R305). -/
def Dev.tableMode (s : Dev) : Bool := s.rb (barkReg 0) 31 && !s.rb (barkReg 4) 2

/-- N of R296, 16 in cache-only mode. -/
def Dev.bucketBits (s : Dev) : Nat := if s.tableMode then s.rf (barkReg 0) 20 16 else 16

/-- GEN. -/
def Dev.tableGen (s : Dev) : Nat := s.rf (barkReg 4) 31 24

/-- An endpoint's 18 octets as a number: address and port. -/
def endpoint (addr port : Nat) : Nat := addr * 65536 + port

/-- The bucket of a key (R296), from the endpoints' octets as numbers of `w` octets. -/
def Dev.bucketOf (s : Dev) (kind vid e1 e2 w : Nat) : Nat :=
  crc32c (leBytes 4 (s.reg (barkReg 0x10)).toNat ++ [BitVec.ofNat 8 kind] ++ beBytes 2 vid ++ beBytes w (min e1 e2) ++ beBytes w (max e1 e2))
    % 2 ^ s.bucketBits

/-- The slot `i` of the table. -/
def Dev.conn (s : Dev) (i : Nat) : Option Conn := s.bark.conns.get none i

/-- The timeout of an entry's state (R302). -/
def Dev.connTimeout (s : Dev) (c : Conn) : Nat :=
  let k := match c.kind, c.state with
    | 0, 0 => 0 | 0, 1 => 1 | 0, 2 => 2 | 0, 3 => 2 | 0, _ => 3
    | 1, 5 => 4 | 1, _ => 5
    | _, 0 => 6 | _, _ => 7
  s.rf (barkReg (0x20 + 4 * k)) 26 0

/-- Whether an entry is expired (R302). -/
def Dev.connExpired (s : Dev) (c : Conn) : Bool :=
  (s.ms % 2 ^ 32 + 2 ^ 32 - c.lastMs) % 2 ^ 32 ≥ s.connTimeout c || c.gen ≠ s.tableGen

/-- Write a slot of the table. -/
def Dev.setConn (s : Dev) (i : Nat) (c : Option Conn) : Dev := { s with bark := { s.bark with conns := s.bark.conns.put none i c } }

/-- Add to CT_USED and ZP_USED; CONN_TABLE_PRESSURE (R313). -/
def Dev.connPressure (s : Dev) : Dev :=
  let used := s.rf (barkReg 0x14) 25 0
  let cap := s.rf (barkReg 0x18) 25 0
  if !s.bark.pressed && used * 8 > cap * 7 then ({ s with bark := { s.bark with pressed := true } } : Dev).raise 33 1 0x30 2 used cap
  else if s.bark.pressed && used * 4 < cap * 3 then ({ s with bark := { s.bark with pressed := false } } : Dev).raise 33 2 0x30 2 used cap
  else s
def Dev.connGauge (s : Dev) (c : Conn) (up : Bool) : Dev :=
  let n := if c.v6 then 2 else 1
  let z := zpUsed c.zoneA c.zoneB
  let add (v k : Nat) := if up then v + k else v - k
  ((s.setRf (barkReg 0x14) 25 0 (add (s.rf (barkReg 0x14) 25 0) n)).setRf z 25 0 (add (s.rf z 25 0) 1)).connPressure

/-- The payloads of DIAG_SESSION (R309). -/
def Dev.diagEvent (s : Dev) (cause : Nat) (c : Conn) : Dev :=
  if c.kind = 2 then s.raise 37 cause 0x30 3 (c.portA * 65536 + c.portB) (c.addrA * 2 ^ 32 + c.addrB)
  else s.raise 37 cause 0x30 3 (c.zoneA * 64 + c.zoneB) (c.portA * 65536 + c.portB)

/-! ### The cache (R297) -/

/-- The lines of slot `i`'s set. -/
def Dev.cacheSet (s : Dev) (i : Nat) : List CacheLine := s.bark.cache.get [] (i / 8 % 65536)
def Dev.setCacheSet (s : Dev) (i : Nat) (l : List CacheLine) : Dev :=
  { s with bark := { s.bark with cache := s.bark.cache.put [] (i / 8 % 65536) l } }

/-- Whether a line covers a slot: an IPv6 pair stands in the line of its first slot. -/
def CacheLine.has (c : CacheLine) (i : Nat) : Bool := c.slot ≤ i && i < c.slot + c.ways

/-- Whether a slot is in the cache. -/
def Dev.cached (s : Dev) (i : Nat) : Bool := (s.cacheSet i).any (·.has i)

/-- The lines that 8 ways hold, least recently used out. -/
def fitWays : Nat → List CacheLine → List CacheLine
  | _, [] => []
  | k, c :: r => if c.ways ≤ k then c :: fitWays (k - c.ways) r else []

/-- The line of a slot leaves the cache. -/
def Dev.uncache (s : Dev) (i : Nat) : Dev := s.setCacheSet i ((s.cacheSet i).filter (fun c => !c.has i))

/-- Whether Bark writes every change through to its bucket (R492): from the start of COUNTING toward STANDBY until the ballot
leaves COMMITTED. -/
def Dev.writesThrough (s : Dev) : Bool :=
  [1, 2].contains (s.rf (tapReg 0) 18 16) && s.rf (tapReg 4) 17 16 = 2 && s.rb (barkReg 0) 31

/-- The entry at slot `i` is used in the cache: read into it, or, with `dirty`, changed there. A dirty line that is evicted is
written to its bucket; entries stand here wherever they lie, so that write changes nothing else. -/
def Dev.touchCache (s : Dev) (i : Nat) (dirty : Bool) : Dev :=
  match s.conn i with
  | none => s
  | some c =>
    let was := (s.cacheSet i).any (fun l => l.has i && l.dirty)
    s.setCacheSet i (fitWays 8 (⟨i, if c.v6 then 2 else 1, (dirty && !s.writesThrough) || was⟩ :: (s.cacheSet i).filter (fun l => !l.has i)))

/-- Remove an entry (R302), from the cache as well. -/
def Dev.removeConn (s : Dev) (i : Nat) : Dev :=
  match s.conn i with
  | none => s
  | some c =>
    let s := ((s.uncache i).setConn i none).connGauge c false
    if c.kind = 2 then s.diagEvent 2 c else if c.doip then s.diagEvent 4 c else s

/-- An uncorrectable error in an entry of the connection cache, in either slot of an IPv6 pair (R307): its line is lost, and with a
dirty one, or in cache-only mode, the entry. -/
def Dev.cacheError (s : Dev) (bucket slot : Nat) : Dev :=
  match (s.cacheSet (8 * bucket + slot)).find? (fun l => l.has (8 * bucket + slot)) with
  | none => s
  | some l =>
    let s := if l.dirty || !s.tableMode then s.removeConn l.slot else s.uncache l.slot
    ((((s.count (barkReg 0x12C)).raiseRated 39 2 0x30 1 0 msRaw (fun _ => bucket) (fun n => n)).countUe 0x30 1).eccTrend 2 0x30 1)

/-- An uncorrectable error in a bucket read (R307): the entries of the affected slots are lost, those of the cache apart. -/
def Dev.tableError (s : Dev) (bucket : Nat) (slots : List Nat) : Dev :=
  let hit (i : Nat) : Bool := match s.conn i with
    | some c => slots.any (fun k => 8 * bucket + k = i || (c.v6 && 8 * bucket + k = i + 1)) && !s.cached i
    | none => false
  let s := (((List.range 8).map (8 * bucket + ·)).filter hit).foldl (fun s i => s.removeConn i) s
  ((((s.count (barkReg 0x12C)).raiseRated 39 1 0x30 2 0 msRaw (fun _ => bucket) (fun n => n)).countUe 0x30 2).eccTrend 2 0x30 2)

/-- The slots of a bucket that stand in the cache. -/
def Dev.cachedOf (s : Dev) (bucket : Nat) (slots : List Nat) : List Nat := slots.filter (fun k => s.cached (8 * bucket + k))

/-- Whether an entry matches a frame, and from which side (R294). -/
def Conn.side (c : Conn) (kind vid zone src dst : Nat) : Option Bool :=
  if c.kind ≠ kind ∨ c.vid ≠ vid then none
  else if endpoint c.addrA c.portA = src ∧ endpoint c.addrB c.portB = dst ∧ c.zoneA = zone then some true
  else if endpoint c.addrB c.portB = src ∧ endpoint c.addrA c.portA = dst ∧ c.zoneB = zone then some false
  else none

/-- The unexpired entry of a bucket that matches a frame. -/
def Dev.findConn (s : Dev) (bucket kind vid zone src dst : Nat) : Option (Nat × Bool) :=
  (List.range 8).findSome? (fun k => match s.conn (8 * bucket + k) with
    | some c => if s.connExpired c then none else (c.side kind vid zone src dst).map (fun a => (8 * bucket + k, a))
    | none => none)

/-- Whether a slot is free: invalid, expired or of a stale GEN, and not the second half of an IPv6 pair (R301). -/
def Dev.connFree (s : Dev) (i : Nat) : Bool :=
  (match s.conn i with | none => true | some c => s.connExpired c)
    && (i % 2 = 0 || (match s.conn (i - 1) with | some c => !c.v6 || s.connExpired c | none => true))

/-- The slot an insertion takes. -/
def Dev.connSlot (s : Dev) (bucket : Nat) (v6 : Bool) : Option Nat :=
  if v6 then ((List.range 4).map (8 * bucket + 2 * ·)).find? (fun i => s.connFree i && s.connFree (i + 1))
  else ((List.range 8).map (8 * bucket + ·)).find? s.connFree

/-- CONN_INSERT_FAIL (R313). -/
def Dev.insertFailed (s : Dev) (cause zs zd : Nat) : Dev :=
  (s.count (barkReg 0x128)).raiseRated 34 cause 0x30 2 0 msRaw (fun n => min n 0xFFFF * 65536 + zs * 64 + zd) (fun _ => s.rf (barkReg 0x14) 25 0)

/-- The raw time an insertion takes at 20 M per second: 50 ns, 20 ticks (R301). -/
abbrev insertRaw : Nat := 20 * 256

/-- The insertions queued that have not ended. -/
def Dev.insertsDue (s : Dev) : List Nat := s.bark.inserts.filter (s.now < ·)

/-- Insert an entry into its bucket (R301), or fail with the first cause that applies. The insertion takes a place in the queue of
256, which empties at 20 M per second; its effect is here at once (DESIGN CHOICE, log entry 31). -/
def Dev.insertConn (s : Dev) (bucket : Nat) (c : Conn) : Dev × Bool :=
  let quota := s.rf (zpReg c.zoneA c.zoneB) 15 0
  let queue := s.insertsDue
  if queue.length ≥ 256 then (s.insertFailed 3 c.zoneA c.zoneB, false)
  else
  let s := { s with bark := { s.bark with inserts := queue ++ [max s.now (queue.getLastD 0) + insertRaw] } }
  match s.connSlot bucket c.v6 with
  | none => (s.insertFailed 1 c.zoneA c.zoneB, false)
  | some i =>
    if quota ≠ 0 ∧ s.rf (zpUsed c.zoneA c.zoneB) 25 0 ≥ quota * 512 then (s.insertFailed 2 c.zoneA c.zoneB, false)
    else
      let s := s.removeConn i
      let s := if c.v6 then s.removeConn (i + 1) else if i % 2 = 1 then (match s.conn (i - 1) with
        | some x => if x.v6 then s.removeConn (i - 1) else s
        | none => s) else s
      let s := (((s.setConn i (some c)).touchCache i true).connGauge c true).count (barkReg 0x124)
      let s := s.countInsert c.zoneA
      (if c.doip && c.state = 1 && c.kind = 0 then s.diagEvent 3 c else s, true)

/-! ## State rules (R299) -/

/-- SYN, ACK, RST and FIN of a key's TCP flags. -/
def tcpFlag (key : List Byte) (i : Nat) : Bool := (keyAt key 64 1).testBit i
def tcpSyn (key : List Byte) : Bool := tcpFlag key 1
def tcpAck (key : List Byte) : Bool := tcpFlag key 4
def tcpRst (key : List Byte) : Bool := tcpFlag key 2
def tcpFin (key : List Byte) : Bool := tcpFlag key 0

/-- Whether a state accepts a frame. -/
def connAccepts (kind state : Nat) (fromA : Bool) (key : List Byte) : Bool :=
  if kind ≠ 0 then true
  else if state = 0 then (if fromA then tcpSyn key && !tcpAck key else tcpSyn key && tcpAck key) || tcpRst key
  else !tcpSyn key || (state = 4 && fromA && !tcpAck key)

/-- The state after an accepted frame. -/
def connNext (kind state : Nat) (fromA : Bool) (key : List Byte) : Nat :=
  if kind = 1 then (if state = 5 ∧ !fromA then 6 else state)
  else if state = 4 then (if tcpSyn key && !tcpAck key && fromA then 0 else 4)
  else if tcpRst key then 4
  else if state = 0 then (if !fromA && tcpSyn key && tcpAck key then 1 else 0)
  else if tcpFin key then
    if state = 1 then (if fromA then 2 else 3)
    else if state = 2 then (if fromA then 2 else 4)
    else (if fromA then 4 else 3)
  else state

/-- The lookup key of a TCP or UDP frame: kind, source and destination endpoints (R294). -/
def connKey (key : List Byte) : Nat × Nat × Nat :=
  (if keyFlag key 1 4 then 0 else 1, endpoint (keyAt key 28 16) (keyAt key 60 2), endpoint (keyAt key 44 16) (keyAt key 62 2))

/-- Whether an entry is the one a frame of this key matches, from this side (R294). -/
def Conn.isOf (c : Conn) (key : List Byte) (vid : Nat) (fromA : Bool) : Bool :=
  c.side (connKey key).1 vid (keyAt key 3 1) (connKey key).2.1 (connKey key).2.2 = some fromA

/-- The update an accepted frame makes when it passes stage 6, if the slot still holds the entry it matched. -/
def Dev.connUpdate (s : Dev) (i : Nat) (fromA : Bool) (key : List Byte) (vid : Nat) : Dev :=
  match s.conn i with
  | none => s
  | some c =>
    if !c.isOf key vid fromA then s else
    let n := connNext c.kind c.state fromA key
    let c' := { c with
      state := n, lastMs := s.ms % 2 ^ 32
      framesA := if fromA then satAdd c.framesA 1 else c.framesA
      framesB := if fromA then c.framesB else satAdd c.framesB 1 }
    let s := (s.setConn i (some c')).touchCache i true
    if c.doip && c.kind = 0 && c.state ≠ 1 && n = 1 then s.diagEvent 3 c' else s

/-- Whether a frame is of a tracked kind. -/
def tracked (key : List Byte) : Bool := keyFlag key 1 4 || keyFlag key 1 5

/-- A frame's bucket. -/
def Dev.frameBucket (s : Dev) (key : List Byte) (vid : Nat) : Nat :=
  let k := connKey key
  s.bucketOf k.1 vid k.2.1 k.2.2 18

/-- The entry a frame creates (R300). -/
def Dev.newConn (s : Dev) (key : List Byte) (vid zoneB rule state : Nat) : Conn where
  kind := (connKey key).1
  v6 := keyFlag key 1 3
  doip := keyAt key 60 2 = 13400 || keyAt key 62 2 = 13400
  state := state
  zoneA := keyAt key 3 1
  zoneB := zoneB
  vid := vid
  portA := keyAt key 60 2
  portB := keyAt key 62 2
  addrA := keyAt key 28 16
  addrB := keyAt key 44 16
  lastMs := s.ms % 2 ^ 32
  gen := s.tableGen
  ruleId := rule
  framesA := 1
  framesB := 0

/-! ## Rate limiters (R290) -/

/-- A limiter's bucket now; one not debited since it was filled holds BURST. -/
def Dev.limiter (s : Dev) (i : Nat) : Int :=
  let w := s.word (rlAddr i)
  match s.bark.limits.get none i with
  | none => fld w 23 0 * octetUnits
  | some v => filled v.1 v.2 s.now (fld w 53 32) (fld w 23 0)

/-- Whether a limiter lets a frame pass. -/
def Dev.limiterHas (s : Dev) (i len : Nat) : Bool := fld (s.word (rlAddr i)) 53 32 ≠ 0 && s.limiter i ≥ len * octetUnits

/-- The debit at stage 6. -/
def Dev.limiterDebit (s : Dev) (i len : Nat) : Dev :=
  { s with bark := { s.bark with limits := s.bark.limits.put none i (some (s.limiter i - len * octetUnits, s.now)) } }

/-! ## Logging (R292, R293) -/

/-- A log candidate (R292): the record of its RULE_ID, 65,536 for the default actions, or a suppressed count. `b` is payload B. -/
def Dev.logCandidate (s : Dev) (id cls cause b : Nat) : Dev :=
  let r := s.bark.logs.get (none, 0) id
  let due := match r.1 with | none => true | some t => s.now ≥ t + s.rf (barkReg (0x40 + 4 * cls)) 19 0 * msRaw
  if !due then { s with bark := { s.bark with logs := s.bark.logs.put (none, 0) id (r.1, min 0x7FFF (r.2 + 1)) } }
  else
    let a := (if id = 65536 then 2 ^ 31 else id) + r.2 * 65536
    ({ s with bark := { s.bark with logs := s.bark.logs.put (none, 0) id (some s.now, 0) } } : Dev).raise 32 cause 0x30 0 a b

/-- A frame is a log candidate (R293). RATE_LIMIT gives no LOG_CLASS: class 0 (log entry 31). -/
def Dev.barkLog (s : Dev) (cause : Nat) (v : Verdict) : Dev :=
  s.logCandidate (v.ruleId.getD 65536)
    (match v.ruleId with | some _ => (if barkAct v.actB = 3 then 0 else barkParam v.actB % 4) | none => 0) cause
    (keyAt v.key 0 1 * 2 ^ 58 + keyAt v.key 3 1 * 2 ^ 50 + fld v.actA 16 11 * 2 ^ 44 + keyAt v.key 22 1 * 2 ^ 32
      + keyAt v.key 60 2 * 65536 + keyAt v.key 62 2)

/-! ## The table's registers and commands (R304 to R307, R313, R314) -/

/-- CT_CTL.EN is written (R305). A rise empties every bucket, with INIT; while it lasts the table is the cache, and CT_CAP says so. -/
def Dev.ctEnable (s : Dev) (en : Bool) : Dev :=
  let on := s.rb (barkReg 0) 31
  let used := s.rf (barkReg 0x14) 25 0
  let r := s.ctRegion
  if en = on then s
  else if en then
    let n := s.rf (barkReg 0) 20 16
    if s.xmemReady && 10 ≤ n && n ≤ 22 && r.1 + r.2 ≤ s.xmemSize && !overlaps r s.ovfRegion
      && !(s.rb (tapReg 0x80) 31 && overlaps r s.saveRegion) && used = 0
    then
      let s := { s with bark := { s.bark with conns := [], cache := [] }, tap := { s.tap with clean := false } }
      (s.setRb (barkReg 0) 31 true).setRb (barkReg 4) 2 true
    else s.setRb (barkReg 0) 30 true
  else if used = 0 then ((s.setRb (barkReg 0) 31 false).setRb (barkReg 4) 2 false).setReg (barkReg 0x18) 524288
  else s.setRb (barkReg 0) 30 true

/-- The entries of the table, slot by slot. -/
def Dev.connSlots (s : Dev) : List Nat := s.bark.conns.map (·.1)

/-- Whether the sweeper has completed a full pass since the last GEN increment (R304). -/
def Dev.passDone (s : Dev) : Bool := s.bark.sweeps ≥ 2 ^ s.bucketBits

/-- Entries that GEN now expires. -/
def Dev.liveConns (s : Dev) : Nat := s.bark.conns.countP (fun e => match e.2 with | some c => !s.connExpired c | none => false)

/-- Increment GEN. -/
def Dev.bumpGen (s : Dev) : Dev :=
  let s := s.setRf (barkReg 4) 31 24 ((s.tableGen + 1) % 256)
  { s with bark := { s.bark with sweeps := 0 } }

/-- A sleep of 2^30 ms or more expires every entry: GEN increments at the wake, or after the full pass it waits for (R304). -/
def Dev.genWake (s : Dev) (slept : Nat) : Dev :=
  if slept < 2 ^ 30 * msRaw then s else if s.passDone then s.bumpGen else { s with bark := { s.bark with genDue := true } }

/-- CONN_FLUSH (R314). -/
def Dev.connFlush (s : Dev) (d : CmdDesc) : CmdRes :=
  let all := bit d.p8 48
  let pair := bit d.p8 40
  let rule := bit d.p8 16
  if all.toNat + pair.toNat + rule.toNat ≠ 1 then .fail s stBadParam
  else if all then
    if s.passDone then .done s.bumpGen stOk s.liveConns 0
    else .wait (({ s with bark := { s.bark with flushing := some d } } : Dev).setRb (barkReg 4) 1 true)
  else
    let hits (c : Conn) : Bool := if pair then c.zoneA = fld d.p8 37 32 && c.zoneB = fld d.p8 29 24 else c.ruleId = fld d.p8 15 0
    let gone := s.connSlots.filter (fun i => match s.conn i with | some c => hits c | none => false)
    .done (gone.foldl (fun s i => s.removeConn i) s) stOk gone.length 0

/-- INIT ends: every bucket is empty (R305). The entries made in cache-only mode since it began end with it (DESIGN CHOICE, log
entry 31). -/
def Dev.ctInitDone (s : Dev) : Dev :=
  if !s.rb (barkReg 4) 2 then s
  else
    let s := s.connSlots.foldl (fun s i => s.removeConn i) s
    ((s.setRb (barkReg 4) 2 false).setReg (barkReg 0x18) (BitVec.ofNat 32 (8 * 2 ^ s.rf (barkReg 0) 20 16))).connPressure

/-- The sweeper visits the next bucket and its cached entries (R303); what waits for a full pass proceeds after it (R304). -/
def Dev.connSweep (s : Dev) : Dev :=
    let bucket := s.bark.sweepAt % 2 ^ s.bucketBits
    let s := (List.range 8).foldl (fun s k => match s.conn (8 * bucket + k) with
      | some c => if s.connExpired c then s.removeConn (8 * bucket + k) else s
      | none => s) s
    let s := { s with bark := { s.bark with sweeps := s.bark.sweeps + 1, sweepAt := (bucket + 1) % 2 ^ s.bucketBits } }
    if !s.passDone then s
    else if s.bark.genDue then { s.bumpGen with bark := { s.bumpGen.bark with genDue := false } }
    else match s.bark.flushing with
    | some d => (({ s.bumpGen with bark := { s.bumpGen.bark with flushing := none } } : Dev).setRb (barkReg 4) 1 false).completeLate d 1
        (some kCommand) stOk s.liveConns 0
    | none => s

/-- The octets of an entry (R298): four words, or eight for IPv6. -/
def Conn.octets (c : Conn) : List Byte :=
  let w0 := 2 ^ 63 + c.kind * 2 ^ 61 + c.v6.toNat * 2 ^ 60 + c.doip.toNat * 2 ^ 59 + c.state * 2 ^ 56 + c.zoneA * 2 ^ 50 + c.zoneB * 2 ^ 44
    + c.vid * 2 ^ 32 + c.portA * 65536 + c.portB
  let w1 := c.addrA % 2 ^ 32 * 2 ^ 32 + c.addrB % 2 ^ 32
  let w2 := c.lastMs * 2 ^ 32 + c.gen * 2 ^ 24 + c.ruleId
  let w3 := c.framesA.toNat * 2 ^ 32 + c.framesB.toNat
  let hi := [c.addrA / 2 ^ 64, c.addrA / 2 ^ 32 % 2 ^ 32 * 2 ^ 32 + c.addrB / 2 ^ 96, c.addrB / 2 ^ 32 % 2 ^ 64, 0]
  ([w0, w1, w2, w3] ++ if c.v6 then hi else []).flatMap (leBytes 8)

/-- CONN_DUMP (R314). -/
def Dev.connDump (s : Dev) (d : CmdDesc) (err : Bool) : CmdRes :=
  let n := fld d.p16 25 0
  if fld d.p8 2 0 ≠ 0 ∨ n = 0 ∨ n > 33554432 then .fail s stBadParam
  else if err then .fail (s.dmaFail d.host.val) stDmaErr
  else
    let l := ((s.connSlots.filterMap s.conn).filter (fun c => !s.connExpired c)).take n
    .done (s.hostWrite d.host.val d.p8.toNat (l.flatMap Conn.octets)) stOk l.length 0

/-! ## The meanings -/

/-- CT_ENABLE. -/
def execCtEnable (a : Acc) (en : Bool) (s : State) := s.onDev (fun d => d.writeEn a (barkReg 0) en (·.ctEnable en))

/-- CT_INIT_DONE. -/
def execCtInitDone (s : State) := s.onDev (·.ctInitDone)

/-- CT_SEED_WRITE (R296). -/
def execCtSeedWrite (a : Acc) (value : BitVec 32) (s : State) :=
  s.onDev (fun d => if d.rf (barkReg 0x14) 25 0 = 0 then d.writeField a (barkReg 0x10) value (·.setReg (barkReg 0x10) value)
    else (d.passAccess a (barkReg 0x10) true true (leBytes 4 (d.reg (barkReg 0x10)).toNat) (leBytes 4 value.toNat)).1)

/-- CONN_SWEEP. -/
def execConnSweep (s : State) := s.onDev (·.connSweep)

/-- ANOMALY_WINDOW_START: the counts of every zone clear at a window's start (R312). -/
def execAnomalyWindowStart (s : State) :=
  s.onDev (fun d => { d with bark := { d.bark with anomaly := d.bark.anomaly.keep (fun _ a => a.window = d.anomWindow) } })

/-- CONN_FLUSH. -/
def execConnFlush (d : CmdDesc) (s : State) :=
  s.onDev (fun x => x.command d (isOne 0x30) (isOne 2) 1 [0x0001013F3F01FFFF, 0, 0, 0, 0] (some kCommand) (·.connFlush d))

/-- CONN_DUMP. -/
def execConnDump (d : CmdDesc) (err : Bool) (s : State) :=
  s.onDev (·.command d (isOne 0x30) (isOne 2) 2 [all64, 0x3FFFFFF, 0, 0, 0] none (·.connDump d err))


end Sys2Proof.Machine
end

