-- ==== Sys2Proof/Machine/Ballot.lean ====
section
/-! DEFINITION. The votes and the states of the sleep ballot, and the frames that keep its network sources awake or confirm a
wake (R490 to R493, R496, R497). -/
namespace Sys2Proof.Machine

/-- Update Taproot. -/
def Dev.onTapState (s : Dev) (f : Tap → Tap) : Dev := { s with tap := f s.tap }

/-- BSTATE, by the codes of R491. -/
def Dev.bstate (s : Dev) : Nat := s.rf (tapReg 0) 18 16
def Dev.setBstate (s : Dev) (b : Nat) : Dev := s.setRf (tapReg 0) 18 16 b

/-- BALLOT_CTL.TARGET. -/
def Dev.ballotTarget (s : Dev) : Nat := s.rf (tapReg 4) 17 16

/-- The tick count of a record's payload. -/
def Dev.wakeSleep (s : Dev) (cause a b : Nat) : Dev := s.raise 60 cause 0x61 0 a b

/-- The mode changes (R478): logged, and told with WAKE_SLEEP cause 0x007. -/
def Dev.changeMode (s : Dev) (origin new : Nat) : Dev :=
  let old := s.mode
  let s := s.setReg 0x20 (BitVec.ofNat 32 (old * 256 + new))
  (s.log origin kMode 0 0 0 0x20 (leBytes 4 old) (leBytes 4 new)).wakeSleep 7 (old * 256 + new) 0

/-- Whether source `k` votes AWAKE (R490). -/
def Dev.srcAwake (s : Dev) (k : Nat) : Bool :=
  let c := s.reg (srcReg k 0)
  let sel := fld c 21 16
  let runs : Bool := (s.tap.nm.get none k).isSome
  bit c 31 && match fld c 30 28 with
  | 0 => !bit c 27 && s.basjo.linkUp (sel / 16 % 2)
  | 1 => !bit c 27
  | 2 => runs && canPresent s.variant sel && s.canPowered sel
  | 3 => runs && linPresent s.variant sel && s.linPowered sel
  | 4 => runs && portPresent s.variant sel && s.portPowered sel
  | 5 =>
    let v := s.reg (mdioReg (sel % 4) (0x18 + 0x10 * (sel / 4 % 8)))
    !bit v 16 || bit v (fld c 3 0) != bit c 4
  | _ => false

/-- The sources that vote AWAKE, as a bitmap. -/
def Dev.votes (s : Dev) : Nat := (List.range 64).foldl (fun a k => if s.srcAwake k then a + 2 ^ k else a) 0

/-- The votes as the registers hold them. -/
def Dev.votesHeld (s : Dev) : Nat := (s.reg (tapReg 0x10)).toNat + 2 ^ 32 * (s.reg (tapReg 0x14)).toNat

/-- Store the votes: VOTES, the count, and CUR_VOTE of every source that turned. -/
def Dev.storeVotes (s : Dev) (old new : Nat) : Dev :=
  let s := (bitsOf 64 (old ^^^ new)).foldl (fun (s : Dev) k => s.setRb (srcReg k 0) 26 (!new.testBit k)) s
  ((s.setReg (tapReg 0x10) (BitVec.ofNat 32 new)).setReg (tapReg 0x14) (BitVec.ofNat 32 (new / 2 ^ 32))).setRf (tapReg 0) 6 0 (bitsOf 64 new).length

/-- The ballot leaves COUNTING for IDLE (R493). -/
def Dev.ballotAbort (s : Dev) (a : Nat) : Dev := (s.setBstate 0).wakeSleep 2 a s.tick

/-- Whether a sleep waits for Bark to report CLEAN (R492). -/
def Dev.needsClean (s : Dev) : Bool := s.ballotTarget = 2 && s.rb (barkReg 0) 31

/-- COUNTING is entered (R491, R496): `turned` are the sources that have just turned READY. -/
def Dev.startCounting (s : Dev) (turned : Nat) (sole : Option (Nat × Nat)) : Dev :=
  let src := (bitsOf 64 turned).headD 0
  let ms := match sole with | some (k, t) => if turned ≠ 0 ∧ k = src then min ((s.now - t) / msRaw) 0xFFFFFFFF else 0 | none => 0
  let s := (s.setReg (tapReg 0x20) (BitVec.ofNat 32 (if turned = 0 then 0 else 2 ^ 31 + src))).setReg (tapReg 0x24) (BitVec.ofNat 32 ms)
  let s := s.onTapState (fun t => { t with since := s.now, clean := false })
  (s.setBstate 1).wakeSleep 1 (s.ballotTarget * 65536 + src) ms

/-- The only AWAKE vote and since when. -/
def Dev.trackSole (s : Dev) (new : Nat) : Dev :=
  match bitsOf 64 new with
  | [k] => if (s.tap.sole.map (·.1)) = some k then s else s.onTapState (fun t => { t with sole := some (k, s.now), soleRaised := false })
  | _ => if s.tap.sole.isNone then s else s.onTapState (fun t => { t with sole := none, soleRaised := false })

/-- The ballot after anything that may turn a vote or its enable (R491, R493). -/
def Dev.ballot (s : Dev) : Dev :=
  let old := s.votesHeld
  let new := s.votes
  let sole := s.tap.sole
  let s := (if old = new then s else s.storeVotes old new).trackSole new
  let rose := bitsOf 64 (new &&& (old ^^^ new))
  let runs : Bool := s.rb (tapReg 4) 31 && (s.mode = 3 || s.mode = 4)
  match s.bstate with
  | 0 => if runs && new = 0 then s.startCounting (old &&& (old ^^^ new)) sole else s
  | 1 => if !runs then s.setBstate 0 else if new ≠ 0 then s.ballotAbort (rose.headD 0) else s
  | _ => if rose.isEmpty then s else s.setRb (tapReg 0x34) 18 true

/-- The NM timers that a test names restart, those of disabled sources as well (R490). -/
def Dev.nmRestart (s : Dev) (hit : Nat → Bool) : Dev :=
  let l := (List.range 64).filter hit
  if l.isEmpty then s
  else (s.onTapState (fun t => { t with nm := l.foldl (fun m k => m.put none k (some s.now)) t.nm })).ballot

/-- The sources of a type for a channel or port. -/
def Dev.srcIs (s : Dev) (ty sel k : Nat) : Bool := s.rf (srcReg k 0) 30 28 = ty && s.rf (srcReg k 0) 21 16 = sel

/-- A wake source under validation whose map holds what was received is valid (R497). -/
def Dev.confirmWake (s : Dev) (inMap : Nat → Bool) : Dev :=
  if s.tap.validating.any (fun e => inMap e.1) then
    s.onTapState (fun t => { t with validating := t.validating.filter (fun e => !inMap e.1 || s.now ≥ e.2) })
  else s

/-- Register `off` of wake pin `k`. -/
def wakeReg (k off : Nat) : Nat := tapReg (0x100 + 0x20 * k + off)

/-- A frame passes stage 6 on a port; `udp` is the destination port of a UDP frame. -/
def Dev.wakeFrame (s : Dev) (p : Nat) (udp : Option Nat) : Dev :=
  let s := s.confirmWake (fun k => if k ≥ 8 then p = 28 + (k - 8) else p < 38 && s.rb (wakeReg k (if p < 32 then 0xC else 0x10)) (p % 32))
  match udp with
  | some u => s.nmRestart (fun k => s.srcIs 4 p k && s.rf (srcReg k 4) 15 0 = u)
  | none => s

/-- A CAN frame is received without error. -/
def Dev.wakeCan (s : Dev) (c : Nat) (ide : Bool) (id : Nat) : Dev :=
  let s := s.confirmWake (fun k => k < 8 && s.rb (wakeReg k 4) c)
  s.nmRestart (fun k => s.srcIs 2 c k && s.rb (srcReg k 4) 31 = ide
    && id &&& s.rf (srcReg k 8) 28 0 = s.rf (srcReg k 4) 28 0 &&& s.rf (srcReg k 8) 28 0)

/-- A LIN response is received without error. -/
def Dev.wakeLin (s : Dev) (l id : Nat) : Dev :=
  let s := s.confirmWake (fun k => k < 8 && s.rb (wakeReg k 8) l)
  s.nmRestart (fun k => s.srcIs 3 l k && s.rf (srcReg k 4) 5 0 = id)

end Sys2Proof.Machine
end

