-- ==== Sys2Proof/Machine/Cambium.lean ====
section
/-! DEFINITION. Cambium: raw time, the two domains, working time, captures, pulse outputs, egress timestamps and the time
wire (R252 to R283). -/
namespace Sys2Proof.Machine

/-- Update the state Cambium holds beside its registers. -/
def Dev.onCam (s : Dev) (f : Cambium → Cambium) : Dev := { s with cam := f s.cam }

/-- A write of one self-clearing bit of a register. -/
def Dev.writeBit (s : Dev) (a : Acc) (addr i : Nat) (f : Dev → Dev) : Dev := s.writeOwn a addr (setBit (s.reg addr) i true) f

/-- Drive a pin. -/
def Dev.pin (s : Dev) (name : String) (level : Nat) : Dev := { s with out := .pin name level :: s.out }

/-! ## Registers by name -/

/-- TIME_STATUS.PLL_LOCK and COARSE, WT_LIVE, BOTH_LOST. -/
def Dev.pllLock (s : Dev) : Bool := s.rb (camReg 0) 0
def Dev.coarseMode (s : Dev) : Bool := s.rb (camReg 0) 1
def Dev.wtLive (s : Dev) : Bool := s.rb (camReg 0x204) 2
def Dev.bothLost (s : Dev) : Bool := s.rb (camReg 0x204) 3

/-- A domain's state (R262). -/
def Dev.domState (s : Dev) (d : Nat) : Nat := s.rf (domReg d 4) 1 0

/-- TIME_DOMAIN_STATE (R281). -/
def Dev.timeEvent (s : Dev) (unit cause a b : Nat) : Dev := s.raise 28 cause 0x22 unit a b

/-- OFF in whole nanoseconds, as OFF_NS shows it. -/
def Dev.offNs (s : Dev) : Int := s.offAt s.now / 65536

/-- TIME_SWITCHOVER (R281). -/
def Dev.switchEvent (s : Dev) (cause : Nat) : Dev := s.raise 29 cause 0x22 3 s.sel (s.offNs % 2 ^ 64).toNat

/-! ## Raw time (R252 to R257) -/

/-- One coarse period of raw time: 12,207 ticks plus 8/256. -/
abbrev coarseUnits : Nat := 12207 * 256 + 8

/-- One cycle of the TIME domain (R252): the count advances by one tick unless it stands still. -/
def Dev.timeCycle (s : Dev) : Dev :=
  if s.pllLock && !s.coarseMode && !s.cam.timeOff then s.onCam (fun c => { c with raw := c.raw + 256 }) else s

/-- Whether raw time counts by itself. -/
def Dev.counting (s : Dev) : Bool := s.pllLock && !s.coarseMode && !s.cam.timeOff

/-- A rising edge of Taproot's 32.768 kHz clock (R254, R255). -/
def Dev.coarseEdge (s : Dev) : Dev :=
  let c := s.cam
  let n := c.coarse + 1
  if c.timeOff then
    let r := match c.anchor with | some a => max c.raw (a.1 + (n - a.2) * coarseUnits) | none => c.raw
    s.onCam (fun c => { c with coarse := n, raw := r })
  else
    let r := if s.coarseMode then c.raw + coarseUnits else c.raw
    let s := if s.coarseMode && c.relocked then s.setRb (camReg 0) 1 false else s
    s.onCam (fun c => { c with coarse := n, raw := r, anchor := some (r, n), relocked := c.relocked && s.coarseMode })

/-- The TIME PLL loses lock, or relocks. -/
def Dev.pllLoss (s : Dev) : Dev :=
  if !s.pllLock || s.cam.timeOff then s
  else ((((s.setRb (camReg 0) 0 false).setRb (camReg 0) 1 true).onCam (fun c => { c with relocked := false }))).timeEvent 0 0x10 0 0
def Dev.pllRelock (s : Dev) : Dev :=
  if s.pllLock then s
  else ((s.setRb (camReg 0) 0 true).onCam (fun c => { c with relocked := true })).timeEvent 0 0x11 0 0

/-- The counter loads its continuation from the anchor, two coarse periods past it at least (R255). -/
def Dev.rawReseed (s : Dev) : Dev :=
  match s.cam.anchor with
  | none => s
  | some a =>
    if !s.cam.timeOff || s.mode < 3 || !s.pllLock || s.cam.coarse < a.2 + 2 then s
    else (s.onCam (fun c => { c with raw := a.1 + (c.coarse - a.2) * coarseUnits, timeOff := false })).timeEvent 0 0x12 0 0

/-! ## Pulse outputs (R278) -/

/-- A pulse output's next edge, with the level of the output. -/
def Dev.pps (s : Dev) (k : Nat) : Option (Int × Bool) := s.cam.pps.get none k
def Dev.setPps (s : Dev) (k : Nat) (v : Option (Int × Bool)) : Dev := s.onCam (fun c => { c with pps := c.pps.put none k v })

/-- Drive a pulse output; in SAFE it is held low. -/
def Dev.ppsPin (s : Dev) (k : Nat) (level : Bool) : Dev := if s.safe then s else s.pin "PPS_OUT" (2 * k + level.toNat)

/-- The first time START + N × PERIOD at or after `t`. -/
def gridTime (start period t : Int) : Int := if t ≤ start then start else start + ((t - start + period - 1) / period) * period

/-- The next rising edge of a pulse output, at least 1 µs away. -/
def Dev.ppsFirst (s : Dev) (k : Nat) : Int :=
  let wt := s.wt
  let start := extendSec 48 ((s.reg (ppsReg k 0x10)).toNat + 2 ^ 32 * s.rf (ppsReg k 0x14) 15 0) ((s.reg (ppsReg k 0xC)).toNat * 65536) wt
  gridTime start ((s.reg (ppsReg k 4)).toNat * 65536) (wt + 1000 * 65536)

/-- The pulse outputs go low; their grids stay (log entry 65). -/
def Dev.ppsLow (s : Dev) : Dev :=
  (List.range 4).foldl (fun (s : Dev) k => match s.pps k with
    | some (t, true) => (s.ppsPin k false).setPps k (some (t, false))
    | _ => s) s

/-- The next rising edge of each pulse output on its grid, from now on (R278, log entry 65). -/
def Dev.ppsResume (s : Dev) : Dev :=
  (List.range 4).foldl (fun (s : Dev) k => match s.pps k with
    | some (_, high) => if high then s else s.setPps k (some (s.ppsFirst k, false))
    | none => s) s

/-- The TIME domain stops: OFF keeps the value it has reached (R264), and the pulse outputs stop low. -/
def Dev.timeStop (s : Dev) : Dev := (s.ppsLow).onCam (fun c => { c with timeOff := true })

/-- The TIME domain runs again, and the pulses with it. -/
def Dev.timeResume (s : Dev) : Dev := let x := s.rawReseed; if s.cam.timeOff && !x.cam.timeOff then x.ppsResume else x

/-- PPS_CTL.EN is written. -/
def Dev.ppsEnable (s : Dev) (k : Nat) (en : Bool) : Dev :=
  if en = s.rb (ppsReg k 0) 31 then s
  else if !en then
    let s := match s.pps k with | some (_, true) => s.ppsPin k false | _ => s
    (s.setRb (ppsReg k 0) 31 false).setPps k none
  else
    let p := (s.reg (ppsReg k 4)).toNat
    let w := (s.reg (ppsReg k 8)).toNat
    if 100 ≤ p ∧ p ≤ 4000000000 ∧ 10 ≤ w ∧ w + 10 ≤ p ∧ s.rf (ppsReg k 0xC) 29 0 ≤ 999999999
    then (s.setRb (ppsReg k 0) 31 true).setPps k (some (s.ppsFirst k, false))
    else s.setRb (ppsReg k 0) 30 true

/-- A pulse output's edge instant arrives. -/
def Dev.ppsEdge (s : Dev) (k : Nat) : Dev :=
  match s.pps k with
  | none => s
  | some (t, high) =>
    if s.wt < t || s.cam.timeOff then s
    else
      let p : Int := (s.reg (ppsReg k 4)).toNat * 65536
      let w : Int := (s.reg (ppsReg k 8)).toNat * 65536
      (s.setPps k (some (if high then (t - w + p, false) else (t + w, true)))).ppsPin k (!high)

/-- While WT_LIVE is 0, a change of working time recomputes the next edges from START. -/
def Dev.ppsRecompute (s : Dev) : Dev :=
  if s.wtLive then s
  else (List.range 4).foldl (fun s k => match s.pps k with
    | some (_, high) => (if high then s.ppsPin k false else s).setPps k (some (s.ppsFirst k, false))
    | none => s) s

/-! ## Working time (R264 to R271) -/

/-- Take OFF as it stands now as the value it slews from. -/
def Dev.setOff (s : Dev) (off : Int) : Dev :=
  (s.onCam (fun c => { c with off := off, offAt := s.now })).setRb (camReg 0x204) 1 (decide (off ≠ 0))

/-- Whether an OFF is within SW_MAX_DIFF. -/
def Dev.offOk (s : Dev) (off : Int) : Bool := off.natAbs ≤ (s.reg (camReg 0x20C)).toNat * 65536

/-- WT_LIVE rises when the selected domain is LOCKED (R268); both domains count as out of LOCKED from then at the
earliest (R271). -/
def Dev.liveCheck (s : Dev) : Dev :=
  if s.wtLive || s.domState s.sel ≠ 2 then s
  else ((s.setRb (camReg 0x204) 2 true).onCam (fun c => { c with outSince := (c.outSince.put 0 0 c.raw).put 0 1 c.raw })).setOff 0

/-- The condition of BOTH_LOST (R271). -/
def Dev.bothLostNow (s : Dev) : Bool :=
  s.wtLive && [0, 1].all (fun d => s.domState d ≠ 2 && s.now ≥ s.cam.outSince.get 0 d + s.rf (camReg 0x210) 15 0 * msRaw)

/-- BOTH_LOST falls where its condition no longer holds. -/
def Dev.bothLostFall (s : Dev) : Dev :=
  if s.bothLost && !s.bothLostNow then (s.setRb (camReg 0x204) 3 false).timeEvent 3 0x21 0 0 else s

/-- BOTH_LOST rises where its condition holds; SAFE follows in the meaning of the row. -/
def Dev.bothLostRise (s : Dev) : Dev :=
  if !s.bothLost && s.bothLostNow then (s.setRb (camReg 0x204) 3 true).timeEvent 3 0x20 0 0 else s

/-- The selection changes to the other domain, by software (cause 1) or hardware (cause 2) (R265). -/
def Dev.wtSwitch (s : Dev) (cause : Nat) : Dev :=
  let n := 1 - s.sel
  if !s.wtLive then (((s.setRf (camReg 0x204) 0 0 n).ppsRecompute).switchEvent cause).liveCheck
  else
    let off := s.wt - s.domTime n s.now
    if !s.offOk off then s.switchEvent 4
    else ((s.setRf (camReg 0x204) 0 0 n).setOff off).switchEvent cause

/-- OFF reaches 0 by slewing (R267). -/
def Dev.slewComplete (s : Dev) : Dev :=
  if s.rb (camReg 0x204) 1 && s.offAt s.now = 0 then (s.setOff 0).switchEvent 3 else s

/-! ## Domains (R258 to R263) -/

/-- A domain changes state, by hardware or not. -/
def Dev.setDom (s : Dev) (d st : Nat) (hw : Bool) : Dev :=
  let old := s.domState d
  if st = old then s
  else
    let s := s.setRf (domReg d 4) 1 0 st
    let s := if old = 2 then s.onCam (fun c => { c with outSince := c.outSince.put 0 d c.raw }) else s
    let s := s.timeEvent (1 + d) (if st = 0 then 4 else st) (old + 256 * hw.toNat) s.tick
    s.bothLostFall

/-- The sync receipt timer starts, or stops. -/
def Dev.syncTimer (s : Dev) (d : Nat) (on : Bool) : Dev :=
  (s.onCam (fun c => { c with sync := c.sync.put none d (if on then some c.raw else none) })).setRb (domReg d 4) 3 on

/-- A frame passes stage 6 (R263): a Sync of a domain restarts its timer. -/
def Dev.syncReceipt (s : Dev) (p : Nat) (etype : Nat) (ptp : List Byte) : Dev :=
  if etype ≠ 0x88F7 || beAt ptp 0 1 % 16 ≠ 0 then s
  else [0, 1].foldl (fun s d =>
    if s.rb (domReg d 0) 31 && !s.rb (domReg d 0) 30 && s.rf (domReg d 0) 21 16 = p && s.rf (domReg d 0) 15 8 = beAt ptp 4 1
    then s.syncTimer d true else s) s

/-- DOM_CTL.EN is written (R262). -/
def Dev.domEnable (s : Dev) (d : Nat) (en : Bool) : Dev :=
  if en = s.rb (domReg d 0) 31 then s
  else if en then (s.setRb (domReg d 0) 31 true).setDom d 1 false
  else ((s.setRb (domReg d 0) 31 false).syncTimer d false).setDom d 0 false

/-- DOM_CTL.COMMIT (R260, R261, R266). -/
def Dev.domCommit (s : Dev) (d : Nat) : Dev :=
  let t := s.triple (domReg d 0x10)
  let refuse (s : Dev) := s.setRb (domReg d 4) 2 true
  let live := s.wtLive && s.sel = d
  let off := s.offAt s.now + s.domTime d s.now - t.time s.now
  if t.br > s.now ∨ s.rf (domReg d 0x24) 29 0 > 999999999 ∨ s.domState d = 0 then refuse s
  else if live && !s.offOk off then (refuse s).switchEvent 4
  else
    let s := (List.range 9).foldl (fun s k => s.setReg (domReg d (0x40 + 4 * k)) (s.reg (domReg d (0x10 + 4 * k)))) s
    if live then (s.setOff off).switchEvent 5 else if s.sel = d then s.ppsRecompute else s

/-- DOM_CTL.LOCK is written (R262). -/
def Dev.domLock (s : Dev) (d : Nat) : Dev :=
  if (s.domState d = 1 || s.domState d = 3) && (s.rb (domReg d 0) 30 || s.rb (domReg d 4) 3) then (s.setDom d 2 false).liveCheck else s

/-- DOM_CTL.UNLOCK is written. -/
def Dev.domUnlock (s : Dev) (d : Nat) : Dev := if s.domState d ≥ 2 then s.setDom d 1 false else s

/-- The sync receipt timer expires (R263, R265). -/
def Dev.syncExpiry (s : Dev) (d : Nat) : Dev :=
  match s.cam.sync.get none d with
  | none => s
  | some t =>
    if s.now < t + s.rf (domReg d 8) 15 0 * msRaw then s
    else
      let s := s.syncTimer d false
      if s.domState d ≠ 2 || s.rb (domReg d 0) 30 then s
      else
        let s := s.setDom d 3 true
        if d = s.sel && s.rb (camReg 0x200) 1 && s.domState (1 - d) = 2 then s.wtSwitch 2 else s

/-! ## Snapshots, egress timestamps, captures, the time wire -/

/-- Store a time in the four registers of a snapshot. -/
def Dev.putTime (s : Dev) (at_ : Nat) (t : Int) : Dev :=
  (((s.setReg at_ (BitVec.ofNat 32 (secOf t))).setReg (at_ + 4) (BitVec.ofNat 32 (secOf t / 2 ^ 32))).setReg (at_ + 8)
    (BitVec.ofNat 32 (nsOf t))).setReg (at_ + 12) (BitVec.ofNat 32 (fnsOf t))

/-- SNAP (R283). -/
def Dev.snap (s : Dev) : Dev :=
  let s := ((s.setReg (camReg 0x20) (BitVec.ofNat 32 (s.now % 256))).setReg (camReg 0x24) (BitVec.ofNat 32 s.tick)).setReg (camReg 0x28)
    (BitVec.ofNat 32 (s.tick / 2 ^ 32))
  let s := ((s.putTime (camReg 0x30) s.wt).putTime (camReg 0x40) (s.domTime 0 s.now)).putTime (camReg 0x50) (s.domTime 1 s.now)
  s.setRf (camReg 0x10) 31 16 (s.rf (camReg 0x10) 31 16 + 1)

/-- Entries outstanding in the egress timestamp table. -/
def Dev.txtsHeld (s : Dev) : Nat := (s.reg (camReg 0x508) - s.reg (camReg 0x50C)).toNat

/-- An egress stamp is recorded (R275). -/
def Dev.txts (s : Dev) (p etype : Nat) (ptp : List Byte) (stamp : Nat) : Dev :=
  let ty := beAt ptp 0 1 % 16
  if !s.rb (if p < 32 then camReg 0x500 else camReg 0x504) (p % 32) || etype ≠ 0x88F7 || ty > 3 then s
  else if s.txtsHeld ≥ 256 then (s.count (camReg 0x510)).raiseRated 30 2 0x22 0 0 msRaw (fun _ => 0) (fun _ => 0)
  else
    let wr := s.reg (camReg 0x508)
    let i := wr.toNat % 256
    let s := s.setWord (txtsAddr i 0) (BitVec.ofNat 64 (stamp / 256))
    let s := s.setWord (txtsAddr i 1) (BitVec.ofNat 64 (stamp % 256 * 2 ^ 56 + p * 2 ^ 40 + beAt ptp 4 1 * 2 ^ 32 + ty * 2 ^ 24 + beAt ptp 30 2))
    s.setReg (camReg 0x508) (wr + 1)

/-- An edge on a capture input (R276, R277). -/
def Dev.capEdge (s : Dev) (k : Nat) (rising : Bool) : Dev :=
  if !s.rb (capReg k 0) 31 || !s.rb (capReg k 0) (if rising then 0 else 1) then s
  else
    let recent : Bool := match s.cam.capLast.get none k with | some t => decide (s.now < t + usRaw) | none => false
    if recent then s.count (capReg k 0x14)
    else
      let s := s.onCam (fun c => { c with capLast := c.capLast.put none k (some c.raw) })
      let s := ((s.setReg (capReg k 4) (BitVec.ofNat 32 (s.now % 256))).setReg (capReg k 8) (BitVec.ofNat 32 s.tick)).setReg (capReg k 0xC)
        (BitVec.ofNat 32 (s.tick / 2 ^ 32))
      let s := s.count (capReg k 0x10)
      if !s.rb (capReg k 0) 30 then s
      else s.raiseRated 30 1 0x22 (4 + k) 0 (10 * usRaw) (fun _ => s.now % 256 + s.rf (capReg k 0x10) 15 0 * 65536) (fun _ => s.tick)

/-- The Sapwood time wire follows the half seconds of working time (R279). -/
def Dev.timeWire (s : Dev) : Dev :=
  let high : Bool := decide (nsOf s.wt < 500000000)
  if high = s.cam.wireHigh then s
  else (s.onCam (fun c => { c with wireHigh := high })).pin "TIME_WIRE" high.toNat

/-- A write of TXTS_RD. -/
def Dev.txtsRd (s : Dev) (v : Word) : Dev :=
  if (v - s.reg (camReg 0x50C)).toNat ≤ s.txtsHeld then s.setReg (camReg 0x50C) v else s

/-! ## The meanings -/

/-- TIME_PLL_LOCK_LOSS. -/
def execTimePllLockLoss (s : State) := s.onDev (·.pllLoss)
/-- TIME_PLL_RELOCK. -/
def execTimePllRelock (s : State) := s.onDev (·.pllRelock)
/-- RAW_RESEED. -/
def execRawReseed (s : State) := s.onDev (·.timeResume)
/-- COARSE_EDGE. -/
def execCoarseEdge (s : State) := s.onTap (·.coarseEdge)
/-- DOM_ENABLE. -/
def execDomEnable (a : Acc) (d : Fin 2) (en : Bool) (s : State) := s.onDev (fun x => x.writeEn a (domReg d.val 0) en (·.domEnable d.val en))
/-- DOM_COMMIT. -/
def execDomCommit (a : Acc) (d : Fin 2) (s : State) := s.onDev (fun x => x.writeBit a (domReg d.val 0) 0 (·.domCommit d.val))
/-- DOM_LOCK: `unlock` where the same write has UNLOCK 1 too, which prevails (R262). -/
def execDomLock (a : Acc) (d : Fin 2) (unlock : Bool) (s : State) := s.onDev (fun x =>
  x.writeOwn a (domReg d.val 0) (setBit (setBit (x.reg (domReg d.val 0)) 1 true) 2 unlock)
    (fun x => if unlock then x.domUnlock d.val else x.domLock d.val))
/-- DOM_UNLOCK. -/
def execDomUnlock (a : Acc) (d : Fin 2) (s : State) := s.onDev (fun x => x.writeBit a (domReg d.val 0) 2 (·.domUnlock d.val))
/-- SYNC_TIMER_EXPIRY. -/
def execSyncTimerExpiry (d : Fin 2) (s : State) := s.onDev (·.syncExpiry d.val)
/-- WT_SWITCH. -/
def execWtSwitch (a : Acc) (s : State) := s.onDev (fun x => x.writeBit a (camReg 0x200) 0 (·.wtSwitch 1))
/-- SLEW_COMPLETE. -/
def execSlewComplete (s : State) := s.onDev (·.slewComplete)
/-- SNAP. -/
def execSnap (a : Acc) (s : State) := s.onDev (fun x => x.writeBit a (camReg 0x10) 0 (·.snap))
/-- TXTS_RD_WRITE. -/
def execTxtsRdWrite (a : Acc) (value : BitVec 32) (s : State) := s.onDev (fun x => x.writeField a (camReg 0x50C) value (·.txtsRd value))
/-- CAP_IN_EDGE. -/
def execCapInEdge (k : Fin 4) (rising : Bool) (s : State) := s.onDev (·.capEdge k.val rising)
/-- PPS_ENABLE. -/
def execPpsEnable (a : Acc) (k : Fin 4) (en : Bool) (s : State) := s.onDev (fun x => x.writeEn a (ppsReg k.val 0) en (·.ppsEnable k.val en))
/-- PPS_EDGE. -/
def execPpsEdge (k : Fin 4) (s : State) := s.onDev (·.ppsEdge k.val)
/-- TIME_WIRE_EDGE. -/
def execTimeWireEdge (s : State) := s.onDev (·.timeWire)

end Sys2Proof.Machine
end

