-- ==== Sys2Proof/Machine/Macsec.lean ====
section
/-! DEFINITION. MACsec reception and transmission, and its commands (R357 to R366, R373). -/
namespace Sys2Proof.Machine

/-- An SC and an SA. -/
def Dev.sc (s : Dev) (c : Nat) : Option SecChannel := s.burl.scs.get none c
def Dev.sa (s : Dev) (a : Nat) : Option SecAssoc := s.burl.sas.get none a
def Dev.setSc (s : Dev) (c : Nat) (v : Option SecChannel) : Dev := { s with burl := { s.burl with scs := s.burl.scs.put none c v } }
def Dev.setSa (s : Dev) (a : Nat) (v : Option SecAssoc) : Dev := { s with burl := { s.burl with sas := s.burl.sas.put none a v } }

/-- PN_MAX (R358). -/
def pnMax (xpn : Bool) : Nat := if xpn then 2 ^ 64 - 1 else 2 ^ 32 - 1

/-- The receive SCs of a port, and its transmit SC. -/
def Dev.rxScs (s : Dev) (p : Nat) : List (Nat × SecChannel) :=
  s.burl.scs.filterMap (fun e => match e.2 with | some c => if !c.tx && c.port = p then some (e.1, c) else none | none => none)
def Dev.txSc (s : Dev) (p : Nat) : Option (Nat × SecChannel) :=
  s.burl.scs.findSome? (fun e => match e.2 with | some c => if c.tx && c.port = p then some (e.1, c) else none | none => none)

/-- Whether an EtherType is one of a port's uncontrolled ones. -/
def Dev.uncontrolled (s : Dev) (p et : Nat) : Bool :=
  et ≠ 0 && (s.rf (macsecReg p 0xC) 31 16 = et || s.rf (macsecReg p 0xC) 15 0 = et)

/-- The nonce of a frame (IEEE 802.1AE): SCI and PN, or with XPN the salt masked by SSCI and PN. -/
def frameNonce (c : SecChannel) (a : SecAssoc) (pn : Nat) : List Byte :=
  if c.xpn then xorBytes (beBytes 12 (a.ssci.toNat * 2 ^ 64 + pn)) (beBytes 12 a.salt.toNat)
  else beBytes 8 c.sci.toNat ++ beBytes 4 pn

/-! ## Reception (R359) -/

/-- Where the frame's SecTAG ends, its PN, AN and explicit SCI. -/
def secTagEnd (o : List Byte) : Nat := if (beAt o 14 1).testBit 5 then 28 else 20

/-- Decide a received frame when its SecTAG and first block arrive (R359, R360): its key context, and the state with the key in use. `n` is
the frame's number. A refused use of the key takes effect when the frame has passed its other checks (R33). -/
def Dev.secOpen (s : Dev) (p n : Nat) (o : List Byte) : SecOpen × Dev :=
  let et := beAt o 12 2
  if !s.rb (macsecReg p 0) 30 then (.plain, s)
  else if et ≠ 0x88E5 then (if s.uncontrolled p et then .plain else .discard 0x10 none none, s)
  else
    let tci := beAt o 14 1
    let pnLow := beAt o 16 4
    if tci.testBit 7 || tci.testBit 4 || (tci.testBit 6 && tci.testBit 5) || pnLow = 0 then (.discard 0x14 none none, s)
    else
      let rx := s.rxScs p
      let c := if tci.testBit 5 then rx.find? (fun e => e.2.sci.toNat = beAt o 20 8)
        else if tci.testBit 6 then rx.find? (fun e => e.2.sci.toNat = beAt o 6 6 * 65536 + 1)
        else match rx with | [e] => some e | _ => none
      match c with
      | none => (.discard 0x18 none none, s)
      | some (_, c) => match (c.sas.get none (tci % 4)) with
        | none => (.discard 0x18 none none, s)
        | some i => match s.sa i with
          | none => (.discard 0x18 none none, s)
          | some a =>
            let hi := a.pn / 2 ^ 32
            let pn := if c.xpn then (if pnLow < 2 ^ 31 ∧ a.pn % 2 ^ 32 ≥ 2 ^ 31 then hi + 1 else hi) % 2 ^ 32 * 2 ^ 32 + pnLow else pnLow
            if pn < max 1 (a.pn - (s.reg (macsecReg p 8)).toNat) then (.discard 0x1C (some i) none, s)
            else if !s.mayUse a.slot uDecrypt 10 then (.discard 0x20 (some i) (some a.slot), s)
            else (.keyed i pn (tci % 4) (if tci.testBit 5 then c.sci.toNat else 0) (s.slot a.slot).octets (frameNonce c a pn),
              s.beginUse (.rx n) a.slot (some i))

/-- Whether the short length of a whole frame's SecTAG is inconsistent with the frame. -/
def badShortLength (o : List Byte) : Bool :=
  let sl := beAt o 15 1
  let start := secTagEnd o
  let len := if sl = 0 then o.length - start - 16 else sl
  sl > 47 || (sl = 0 && (len < 48 || o.length < start + len + 16))
    || (sl ≠ 0 && o.length ≠ max 60 (start + len + 16) && o.length ≠ start + len + 16)

/-- What MACsec makes of a whole frame under its key context, and the octets the pipeline sees. -/
def SecOpen.close (x : SecOpen) (o : List Byte) : SecIn × List Byte :=
  match x with
  | .plain => (.plain, o)
  | .discard 0x10 a r => (.discard 0x10 a r, o)
  | .discard off a r => if badShortLength o then (.discard 0x14 none none, o) else (.discard off a r, o)
  | .keyed i pn an sci key nonce =>
    if badShortLength o then (.discard 0x14 none none, o)
    else
      let sl := beAt o 15 1
      let start := secTagEnd o
      let len := if sl = 0 then o.length - start - 16 else sl
      let body := (o.drop start).take len
      let icv := (o.drop (start + len)).take 16
      let enc := (beAt o 14 1).testBit 3
      let tag := if enc then gcmTag key nonce (o.take start) body else gcmTag key nonce (o.take start ++ body) []
      (.pass i pn an sci (tag = icv), o.take 12 ++ (if enc then gcmCrypt key nonce body else body))

/-- MACsec's part in the reception of a whole frame. -/
def Dev.secRx (s : Dev) (p n : Nat) (o : List Byte) : SecIn × List Byte × Dev :=
  let x := s.secOpen p n o
  let y := x.1.close o
  (y.1, y.2, x.2)

/-- AUTH_FAIL of a port (R373). -/
def Dev.authFail (s : Dev) (cause p : Nat) (sa : Option Nat) : Dev :=
  s.raiseRated 49 cause 0x40 34 p msRaw (fun _ => (match sa with | some a => a * 65536 | none => 0) + p) (fun n => n)

/-- The verdict of stage 6 on frame `n` (R359): the state after it, and whether the frame proceeds. A refused use of its key is counted,
and an orphaned slot reclaimed (R382). -/
def Dev.secEnd (s : Dev) (p n : Nat) (x : SecIn) : Dev × Bool :=
  match x with
  | .plain => (s, true)
  | .discard off a refused =>
    let s := ((match refused with | some k => s.refuseUse k | none => s).endUse (.rx n)).count (macsecReg p off)
    (s.authFail (if off ≤ 0x14 then 4 else if off = 0x18 then 3 else if off = 0x1C then 2 else 5) p a, false)
  | .pass i pn _ _ ok =>
    let s := s.endUse (.rx n)
    if !ok then ((s.count (macsecReg p 0x24)).authFail 1 p (some i), false)
    else
      let s := s.count (macsecReg p 0x28)
      (match s.sa i with
        | some a => s.setSa i (some { a with frames := satAdd a.frames 1, pn := max a.pn (pn + 1) })
        | none => s, true)

/-! ## Transmission (R362 to R364) -/

/-- What MACsec makes of a frame to be transmitted. -/
inductive SecOut where
  | plain
  | drop
  | secured (octets : List Byte)
  deriving DecidableEq, Repr

/-- The EtherType of a frame, behind its tags. -/
def innerType (o : List Byte) : Nat := beAt o (12 + 4 * (vlanTags o).1) 2

/-- PN_EXHAUSTED (R364). -/
def Dev.pnEvent (s : Dev) (cause sa p pn : Nat) : Dev := s.raise 50 cause 0x40 34 (p * 65536 + sa) pn

/-- The key use of a frame in transmission. -/
abbrev txUse (p frame : Nat) : UseOwner := .tx p frame

/-- Protect a frame selected for port `p`, whose key use is numbered `use`. -/
def Dev.secTx (s : Dev) (p inPort : Nat) (use : UseOwner) (o : List Byte) : SecOut × Dev :=
  if !s.rb (macsecReg p 0) 31 then (.plain, s)
  else if inPort = 38 && s.uncontrolled p (innerType o) then (.plain, s.count (macsecReg p 0x30))
  else
    let drop (s : Dev) : SecOut × Dev := (.drop, s)
    match s.txSc p with
    | none => drop s
    | some (_, c) => match c.enc with
      | none => drop s
      | some an => match c.sas.get none an with
        | none => drop s
        | some i => match s.sa i with
          | none => drop s
          | some a =>
            if a.exhausted then drop s
            else if !s.mayUse a.slot uEncrypt 10 then drop (s.refuseUse a.slot)
            else
              let key := (s.slot a.slot).octets
              let body := o.drop 12
              let tci := 0x20 + (if c.conf then 0x0C else 0) + an
              let head := o.take 12 ++ beBytes 2 0x88E5 ++ beBytes 1 tci ++ beBytes 1 (if body.length < 48 then body.length else 0)
                ++ beBytes 4 (a.pn % 2 ^ 32) ++ beBytes 8 c.sci.toNat
              let nonce := frameNonce c a a.pn
              let out := if c.conf then
                  let ct := gcmCrypt key nonce body
                  head ++ ct ++ gcmTag key nonce head ct
                else head ++ body ++ gcmTag key nonce (head ++ body) []
              let pn := a.pn + 1
              let top := pnMax c.xpn
              let gap := (s.reg (burlReg 4)).toNat
              let s := ((s.beginUse use a.slot (some i)).setSa i (some { a with pn := pn, frames := satAdd a.frames 1, exhausted := decide (pn = top) })).count (macsecReg p 0x2C)
              let s := if gap ≠ 0 ∧ pn = top - gap then s.pnEvent 1 i p pn else s
              (.secured out, if pn = top then s.pnEvent 2 i p pn else s)

/-! ## Commands (R365, R366) -/

/-- Clear an SA (SA_CLEAR): it is unmapped, and deselected if it was selected; its entry goes with the last frame issued under it. -/
def Dev.saDrop (s : Dev) (i : Nat) : Dev :=
  match s.sa i with
  | none => s
  | some a =>
    let s := match s.sc a.sc with
      | some c => s.setSc a.sc (some { c with sas := c.sas.put none a.an none, enc := if c.enc = some a.an then none else c.enc })
      | none => s
    if s.saIdle i then s.setSa i none else s

/-- A command that has unmapped SAs completes, or waits until no frame issued under them remains in a pipe (R366). -/
def Dev.saDropped (s : Dev) (d : CmdDesc) (op : Nat) (l : List Nat) : CmdRes :=
  if l.all s.saIdle then .done s stOk 0 0
  else .wait { s with burl := { s.burl with clears := s.burl.clears ++ [⟨l, d, op⟩] } }

/-- SC_SET. -/
def Dev.scSet (s : Dev) (d : CmdDesc) : CmdRes :=
  let p := fld d.p8 37 32
  let c := fld d.p8 8 0
  let tx := bit d.p8 16
  if p > 35 ∨ !portPresent s.variant p then .fail s stBadParam
  else
    let mapped := match s.sc c with | some x => !x.sas.isEmpty | none => false
    let second := tx && (match s.txSc p with | some e => e.1 ≠ c | none => false)
    if mapped || second then .fail s 0x41
    else if !tx && (s.rxScs p).any (fun e => e.1 ≠ c && e.2.sci = d.p16) then .fail s 0x42
    else .done (s.setSc c (some ⟨tx, bit d.p8 17, bit d.p8 12, none, p, [], d.p16⟩)) stOk 0 0

/-- SC_CLEAR. -/
def Dev.scClear (s : Dev) (d : CmdDesc) : CmdRes :=
  let c := fld d.p8 8 0
  match s.sc c with
  | none => .fail s stNotFound
  | some x =>
    if x.tx && s.rb (macsecReg x.port 0) 31 then .fail s 0x41
    else
      let l := x.sas.filterMap (·.2)
      ((l.foldl (fun s i => s.saDrop i) s).setSc c none).saDropped d 0x11 l

/-- SA_INSTALL. -/
def Dev.saInstall (s : Dev) (d : CmdDesc) : CmdRes :=
  let slot := fld d.p8 49 40
  let an := fld d.p8 33 32
  let c := fld d.p8 24 16
  let i := fld d.p8 9 0
  let pn := d.p16.toNat
  match s.sc c with
  | none => .fail s stNotFound
  | some x =>
    if pn = 0 ∨ pn ≥ pnMax x.xpn ∨ (!x.xpn ∧ (d.p24 ≠ 0 ∨ d.p32 ≠ 0)) ∨ slot > 575 then .fail s stBadParam
    else if (s.sa i).isSome ∨ (x.sas.get none an).isSome then .fail s 0x41
    else if !s.mayUse slot (if x.tx then uEncrypt else uDecrypt) 10 then .fail (s.refuseUse slot) 0x40
    else
      let a : SecAssoc := ⟨slot, c, an, false, d.p32.truncate 32, pn, BitVec.ofNat 96 (d.p24.toNat * 2 ^ 32 + fld d.p32 63 32), 0⟩
      .done ((s.setSa i (some a)).setSc c (some { x with sas := x.sas.put none an (some i) })) stOk 0 0

/-- SA_SELECT. -/
def Dev.saSelect (s : Dev) (d : CmdDesc) : CmdRes :=
  let an := fld d.p8 33 32
  let c := fld d.p8 8 0
  match s.sc c with
  | none => .fail s stNotFound
  | some x => if x.tx && (x.sas.get none an).isSome then .done (s.setSc c (some { x with enc := some an })) stOk 0 0
    else .fail s stNotFound

/-- SA_CLEAR. -/
def Dev.saClear (s : Dev) (d : CmdDesc) : CmdRes :=
  let i := fld d.p8 9 0
  if (s.sa i).isNone then .fail s stNotFound else (s.saDrop i).saDropped d 0x14 [i]

/-- SA_READ. -/
def Dev.saRead (s : Dev) (d : CmdDesc) : CmdRes :=
  match s.sa (fld d.p8 9 0) with
  | none => .fail s stNotFound
  | some a => .done s stOk a.frames.toNat a.pn

/-- A command of MACsec unit 34. -/
def Dev.secCommand (s : Dev) (d : CmdDesc) (op : Nat) (mask : List Nat) (kind : Option Nat) (body : Dev → CmdRes) : Dev :=
  s.command d (isOne 0x40) (isOne 34) op mask kind body

/-- SC_SET. -/
def execScSet (d : CmdDesc) (s : State) := s.onDev (fun x => x.secCommand d 0x10 [0x3F000311FF, all64, 0, 0, 0] (some kCommand) (·.scSet d))
/-- SC_CLEAR. -/
def execScClear (d : CmdDesc) (s : State) := s.onDev (fun x => x.secCommand d 0x11 [0x1FF, 0, 0, 0, 0] (some kCommand) (·.scClear d))
/-- SA_INSTALL. -/
def execSaInstall (d : CmdDesc) (s : State) :=
  s.onDev (fun x => x.secCommand d 0x12 [0x3FF0301FF03FF, all64, all64, all64, 0] (some kCommand) (·.saInstall d))
/-- SA_SELECT. -/
def execSaSelect (d : CmdDesc) (s : State) := s.onDev (fun x => x.secCommand d 0x13 [0x3000001FF, 0, 0, 0, 0] (some kCommand) (·.saSelect d))
/-- SA_CLEAR. -/
def execSaClear (d : CmdDesc) (s : State) := s.onDev (fun x => x.secCommand d 0x14 [0x3FF, 0, 0, 0, 0] (some kCommand) (·.saClear d))
/-- SA_READ. -/
def execSaRead (d : CmdDesc) (s : State) := s.onDev (fun x => x.secCommand d 0x15 [0x3FF, 0, 0, 0, 0] none (·.saRead d))

end Sys2Proof.Machine
end

