-- ==== Sys2Proof/Machine/Pipeline.lean ====
section
/-! DEFINITION. Stages 1 to 7 of the path of a frame (R31): reception, the verdict of stages 2 to 5, validation, and enqueue. -/
namespace Sys2Proof.Machine

/-! ## Ports -/

/-- A port's state beside its registers. -/
def Dev.port (s : Dev) (p : Nat) : PortRun := s.ports.get .idle p
def Dev.setPort (s : Dev) (p : Nat) (r : PortRun) : Dev := { s with ports := s.ports.put .idle p r }

/-- The frame in reception on a port. -/
def Dev.rxOf (s : Dev) (p : Nat) : Option RxFrame := s.rx.get none p
def Dev.setRx (s : Dev) (p : Nat) (f : Option RxFrame) : Dev := { s with rx := s.rx.put none p f }

/-- Whether a Grove holds a frame in its stages 2 to 5: one that waits for its bucket read (R306). -/
def Dev.groveBusy (s : Dev) (g : Nat) : Bool :=
  let here (f : RxFrame) : Bool := f.waiting && f.grove = g
  s.rx.any (fun e => e.2.any here) || s.ended.any (fun e => e.2.any here) || s.passed.any here

/-- The Grove that runs the ingress stages of a port (R27). For P36 to P39, Grove 0 does while the owner has no power, or still copies
(R481), once the frames in the owner's stages 2 to 5 have left them (R480). -/
def Dev.owner (s : Dev) (p : Nat) : Nat :=
  let g := portGrove s.variant p
  if p < 36 || (s.grovePowered g && !s.tap.copying.contains g) || (!s.grovePowered g && s.groveBusy g) then g else 0

/-- Whether every unit of the present mode has its copy, and those without power have drained: no frame is being sent, and none is in a
Grove's stages (R478). -/
def Dev.modeSettled (s : Dev) : Bool :=
  let sent (n : Nat) : Bool := (s.crown.tx.get none n).isNone && (s.crown.paused.get none n).isNone
  s.tap.copying.isEmpty && (List.range 38).all (fun n => s.portPowered n || sent n)
    && (List.range 4).all (fun g => s.grovePowered g || !s.groveBusy g) && (List.range 24).all (fun n => s.canPowered n || (s.roots.ending.get none n).isNone)

/-- MODE_SET completes where it waits for nothing any more. -/
def Dev.modeDone (s : Dev) : Dev :=
  match s.tap.modeCmd with
  | none => s
  | some (d, _) =>
    if !s.modeSettled then s
    else (s.onTapState (fun x => { x with modeCmd := none })).completeLate d 1 (some kCommand) stOk 0 0

/-- A meaning of the main die after which a unit may have drained, and MODE_SET with it. -/
def State.onSettling (s : State) (f : Dev → Dev) : Host.Outcome State Fault Refusal := s.onDev (fun x => (f x).modeDone)

/-- Whether a port is enabled with its link UP. -/
def Dev.portUp (s : Dev) (p : Nat) : Bool := s.rb (portReg p 0) 31 && s.rf (portReg p 4) 1 0 = 2

/-! ## Stages 2 and 3 -/

/-- The received outer tag's DEI. -/
def outerDei (o : List Byte) : Bool := match outerTci o with | some t => t.testBit 12 | none => false

/-- The class of a frame (R219). -/
def Dev.classOf (s : Dev) (p : Nat) (o : List Byte) (a : DWord) : Nat :=
  if bit a 33 then fld a 32 30
  else
    let m := 0x37C000 + 4 * p
    let pcp := match outerTci o with | some t => t / 8192 | none => s.rf m 26 24
    s.rf m (3 * pcp + 2) (3 * pcp)

/-- A verdict with nothing decided. -/
def Verdict.start (key : List Byte) : Verdict where
  key := key
  divert := none
  tag := none
  rule := none
  ruleId := none
  actA := 0
  actB := 0
  vid := keyAt key 94 2
  tc := 0
  colour := 0
  meter := none
  yellowDrop := false
  bitmap := 0
  reason := 0
  mirror := none
  drop := none
  deny := 0
  zoneBlocked := 0
  walkErr := false
  daMiss := false
  learn := .none
  conn := .none
  lookup := 0

/-- The stream a verdict assigns. -/
def Verdict.stream (v : Verdict) : Option Nat := if bit v.actA 63 then some (fld v.actA 62 49) else none

/-- Stages 2 and 3: the key, the parser's causes, and the walk under the CURRENT version; and the word of `ue`, those of the
Grove's copy in uncorrectable error, that the walk met (R125). -/
def Dev.stage23 (s : Dev) (f : RxFrame) (ue : List Nat) : Verdict × Option Nat :=
  let sec := match f.sec with | .pass _ _ an sci _ => some (an, sci) | _ => none
  let k := s.parse f.inPort (s.sourceZone f.inPort f.group) f.octets sec
  let v := { Verdict.start k.1 with tc := s.classOf f.inPort f.octets 0 }
  match k.2 with
  | some c => ({ v with divert := some c }, none)
  | none => match s.current with
    | none => ({ v with drop := some (groveReg f.grove 0x100) }, none)
    | some ver =>
      let acts (at_ : Nat) (id : Option Nat) : Verdict :=
        let a := s.bough (at_ + 1)
        { v with tag := some ver, rule := some at_, ruleId := id, actA := a, actB := s.bough (at_ + 2), tc := s.classOf f.inPort f.octets a,
                 vid := if bit a 29 then fld a 28 17 else v.vid }
      let err := { v with tag := some ver, divert := some 7, walkErr := true }
      match s.classify ver k.1 ue with
      | .error => (err, none)
      | .ue w => (err, some w)
      | .rule a id => (acts a (some id), none)
      | .default => (acts (s.verHdr ver) none, none)

/-! ## Stage 4: Bark (R288 to R291, R295, R300) -/

/-- The zone pair of a verdict. -/
def Verdict.zoneS (v : Verdict) : Nat := keyAt v.key 3 1
def Verdict.zoneD (v : Verdict) : Nat := fld v.actA 16 11

/-- Whether the frame is looked up in the connection table (R294). -/
def Dev.looksUp (s : Dev) (v : Verdict) : Bool :=
  v.divert.isNone && v.drop.isNone && tracked v.key && s.rb (zpReg v.zoneS v.zoneD) 30

/-- The entry a frame matches. -/
def Dev.connMatch (s : Dev) (v : Verdict) : Option (Nat × Bool) :=
  let k := connKey v.key
  s.findConn (s.frameBucket v.key v.vid) k.1 v.vid v.zoneS k.2.1 k.2.2

/-- A drop by Bark, with its DENY_LOG cause. -/
def Verdict.denied (v : Verdict) (counter cause : Nat) : Verdict := { v with drop := some counter, deny := cause }

/-- Bark's counters (R315). -/
abbrev cDenyRule : Nat := barkReg 0x100
abbrev cDenyState : Nat := barkReg 0x104
abbrev cDenyFull : Nat := barkReg 0x108
abbrev cRlDrop : Nat := barkReg 0x10C
abbrev cMissDrop : Nat := barkReg 0x110
abbrev cZoneBlock : Nat := barkReg 0x114
abbrev cMirror : Nat := barkReg 0x118
abbrev cHit : Nat := barkReg 0x11C
abbrev cMiss : Nat := barkReg 0x120

/-- The mirror copy of a frame (R291): not to its ingress port, nor to an absent port. -/
def Dev.mirrorOf (s : Dev) (f : RxFrame) (v : Verdict) : Option Nat :=
  let m := fld v.actB 58 53
  if bit v.actB 59 && m ≠ f.inPort && portPresent s.variant m then some m else none

/-- BARK_ACT on a frame with no matching entry (R288). -/
def Dev.barkAction (s : Dev) (f : RxFrame) (v : Verdict) (lookup : Bool) : Verdict :=
  match barkAct v.actB with
  | 1 => v.denied cDenyRule 1
  | 2 =>
    if !lookup then v
    else if keyFlag v.key 1 4 then
      if tcpSyn v.key && !tcpAck v.key then { v with conn := .create 0 }
      else if s.rb (zpReg v.zoneS v.zoneD) 29 then { v with conn := .create 1 }
      else v.denied cDenyState 3
    else { v with conn := .create 5 }
  | 3 => if s.limiterHas (barkParam v.actB) f.len then v else v.denied cRlDrop 5
  | 4 => { v with divert := some (8 + fld v.actB 20 18) }
  | _ => v

/-- Stage 4, given what the lookup found. -/
def Dev.stage4 (s : Dev) (f : RxFrame) (v : Verdict) (lookup : Bool) (hit : Option (Nat × Bool)) : Verdict :=
  let v := { v with mirror := s.mirrorOf f v }
  match hit with
  | some (i, fromA) => (match s.conn i with
    | some c => if connAccepts c.kind c.state fromA v.key then { v with conn := .hit i fromA } else v.denied cDenyState 3
    | none => v)
  | none => s.barkAction f v lookup

/-! ## Stage 5: policing and forwarding (R152 to R154, R222, R287) -/

/-- A VLAN's words. -/
def Dev.vlan (s : Dev) (v w : Nat) : DWord := s.word (vlanAddr v w)

/-- Whether stage 5 looks the destination up (R153). -/
def Verdict.looksDa (v : Verdict) : Bool := fwdAct v.actB = 0 && keyAt v.key 4 6 ≠ 0xFFFFFFFFFFFF

/-- The bitmap, the REASON, whether the lookup missed, and whether the drop is counted in VLAN_OUT_DROP (R153), from what the
lookup found. -/
def Dev.forward (s : Dev) (v : Verdict) (found : Option FdbEntry) : Nat × Nat × Bool × Bool :=
  let m := fld (s.vlan v.vid 0) 39 0
  let w1 := s.vlan v.vid 1
  let da := keyAt v.key 4 6
  let mc := (keyAt v.key 4 1).testBit 0
  if da = 0xFFFFFFFFFFFF then (m, 0, false, false)
  else match found with
    | some e =>
      if !e.group then (if m.testBit e.dest then (2 ^ e.dest, 0, false, false) else (0, 0, false, true))
      else
        let w := s.word (mcgAddr e.dest)
        (if bit w 63 then fld w 39 0 &&& m else 0, 0, false, false)
    | none =>
      let flood (en : Bool) (lo hi : Nat) : Nat := if en then m &&& ((s.reg lo).toNat + 2 ^ 32 * s.rf hi 7 0) else 0
      (if mc then flood (bit w1 62) 0x221024 0x221028 else flood (bit w1 63) 0x22101C 0x221020, 2, true, false)

/-- The targets Bark lets stand (R287); P39 is tested channel by channel when Roots delivers. -/
def Dev.zoneAllowed (s : Dev) (v : Verdict) (bm : Nat) : Nat :=
  (bitsOf 40 bm).foldl (fun a t => if t = 39 || s.allow v.zoneS (s.targetZone t v.tc v.stream) then a + 2 ^ t else a) 0

/-- The Grove's counters of stage 5 (R180). -/
abbrev cVlanIn (g : Nat) : Nat := groveReg g 0x214
abbrev cVlanOut (g : Nat) : Nat := groveReg g 0x218
abbrev cNoDest (g : Nat) : Nat := groveReg g 0x21C

/-- Stage 5 on a frame neither diverted nor dropped so far, with what its destination lookup found. -/
def Dev.stage5 (s : Dev) (f : RxFrame) (v : Verdict) (found : Option FdbEntry) : Verdict :=
  if v.divert.isSome ∨ v.drop.isSome then v
  else
    let g := f.grove
    let m := if bit v.actA 48 && (s.meter (fld v.actA 47 34)).en then some (fld v.actA 47 34) else none
    let colour := match m with | some k => s.meterColour g k f.len (outerDei f.octets) | none => 0
    let v := { v with meter := m, colour := colour,
                      yellowDrop := colour = 2 && (match m with | some k => s.meterYellowDrop g k f.len | none => false) }
    let act := fwdAct v.actB
    if colour = 2 then { v with mirror := none }
    else if act ≠ 2 ∧ (!bit (s.vlan v.vid 0) 63 ∨ !(s.vlan v.vid 0).getLsbD f.inPort) then { v with drop := some (cVlanIn g) }
    else if act = 3 then { v with divert := some (8 + fld v.actB 20 18) }
    else if act = 1 then { v with drop := some (cNoDest g) }
    else
      let r := if act = 2 then (2 ^ fld v.actB 37 32, 0, false, false) else s.forward v found
      let kept := s.zoneAllowed v r.1
      let here := kept &&& presentPorts s.variant
      let final := if here.testBit f.inPort then here - 2 ^ f.inPort else here
      let v := { v with bitmap := final, reason := r.2.1, daMiss := r.2.2.1, zoneBlocked := (bitsOf 40 r.1).length - (bitsOf 40 kept).length }
      if final ≠ 0 then v
      else { v with drop := some (if r.2.2.2 then cVlanOut g else cNoDest g), deny := if r.1 ≠ 0 ∧ kept = 0 then 2 else 0 }

/-! ## The parser starts (stages 2 to 5) -/

/-- Bucket reads outstanding (R306). -/
def Dev.bucketReads (s : Dev) : Nat :=
  s.rx.countP (fun e => match e.2 with | some f => f.waiting | none => false) + s.passed.countP (fun f => f.waiting)
    + (s.ended.flatMap (·.2)).countP (fun f => f.waiting)

/-- Whether a frame's passing leads to a source learn, as far as stages 2 to 5 tell (R162): then they look its source up. -/
def Dev.mayLearn (s : Dev) (f : RxFrame) (v : Verdict) : Bool :=
  let sa := keyAt v.key 10 6
  s.rb 0x221000 0 && f.inPort < 38 && s.rb (if f.inPort < 32 then 0x221014 else 0x221018) (f.inPort % 32)
    && bit (s.vlan v.vid 0) 62 && sa ≠ 0 && !(keyAt v.key 10 1).testBit 0
    && v.divert.isNone && v.tag.isSome && v.drop ≠ some (cVlanIn f.grove) && fwdAct v.actB ≠ 1
    && (v.deny = 0 || v.deny = 2) && v.colour ≠ 2

/-- Stages 4 and 5 with a lookup already answered; `bad` holds the slots of the Grove's replica in parity error, of which those
the frame's lookups read are invalidated (R161). -/
def Dev.stage45 (s : Dev) (f : RxFrame) (v : Verdict) (lookup : Bool) (hit : Option (Nat × Bool)) (bad : List Nat) : RxFrame × Dev :=
  let g := f.grove
  let v := if v.divert.isSome ∨ v.drop.isSome then v else s.stage4 f v lookup hit
  let da := keyAt v.key 4 6
  let sa := keyAt v.key 10 6
  -- the destination is looked up only where stage 5 gets as far as R153
  let looks := v.looksDa && v.divert.isNone && v.drop.isNone && (s.stage5 f v none).daMiss
  let d := if looks then s.fdbMeet g v.vid da bad else (none, s)
  let v := s.stage5 f v d.1
  let learns := s.mayLearn f v
  let a := if learns then d.2.fdbMeet g v.vid sa bad else (none, d.2)
  let read := (if looks then s.fdbReads v.vid da else []) ++ if learns then s.fdbReads v.vid sa else []
  ({ f with verdict := some { v with learn := if learns then learnOf f.inPort a.1 else .none }, waiting := false },
    a.2.parityFound g 1 ((read.filter bad.contains).eraseDups))

/-- Stages 2 to 5 of a frame, as far as they get: a miss of the connection cache in table mode waits for its bucket read,
or meets MISS_DROP. A frame taken in SAFE skips them (R521). `ue` and `bad` are the words and slots of the Grove's memories in error, `lost`
the slots of the frame's bucket whose cache entries are, which makes it a miss (R307); the answer tells the word the walk met. -/
def Dev.stages (s : Dev) (f : RxFrame) (ue bad lost : List Nat) : RxFrame × Dev × Option Nat :=
  let f := { f with grove := s.owner f.inPort }
  if s.safe then ({ f with verdict := some (Verdict.start (keyOf [])) }, s, none)
  else
    let r := s.stage23 f ue
    let v := r.1
    let s := match v.tag with | some t => s.enterVersion t | none => s
    let go (x : RxFrame × Dev) : RxFrame × Dev × Option Nat := (x.1, x.2, r.2)
    let b := s.frameBucket v.key v.vid
    let lost := s.cachedOf b lost
    if !s.looksUp v then go (s.stage45 f v false none bad)
    else if !lost.isEmpty then
      go ((lost.foldl (fun s k => s.cacheError b k) s).stage45 f { v with lookup := 2 } true none bad)
    else
      let m := s.connMatch v
      let inCache := match m with | some (i, _) => !s.tableMode || s.cached i | none => !s.tableMode
      if inCache then go (s.stage45 f { v with lookup := if m.isSome then 1 else 2 } true m bad)
      else if s.bucketReads ≥ 96 then
        go ({ f with verdict := some (({ v with lookup := 2, mirror := s.mirrorOf f v } : Verdict).denied cMissDrop 6) }, s)
      else go ({ f with verdict := some { v with lookup := 2 }, waiting := true }, s)

/-- The frames of a port whose reception has ended and whose verdict is due, oldest first. -/
def Dev.endedOf (s : Dev) (p : Nat) : List RxFrame := s.ended.get [] p
def Dev.setEnded (s : Dev) (p : Nat) (l : List RxFrame) : Dev := { s with ended := s.ended.put [] p l }

/-- Another frame starts on a port: the one in reception has ended, and its verdict is still due (R360). -/
def Dev.endRx (s : Dev) (p : Nat) : Dev :=
  match s.rxOf p with
  | some f => (s.setRx p none).setEnded p (s.endedOf p ++ [f])
  | none => s

/-- The parser starts on the first frame of a port that has not met it (R33): the state after it, and the Bough word in uncorrectable
error that the walk met. -/
def Dev.parserRun (s : Dev) (p : Nat) (ue bad lost : List Nat) : Dev × Option Nat :=
  match (s.endedOf p).findIdx? (fun f => f.verdict.isNone) with
  | some i => (match (s.endedOf p)[i]? with
    | some f =>
      let r := s.stages f ue bad lost
      (r.2.1.setEnded p ((r.2.1.endedOf p).set i r.1), r.2.2)
    | none => (s, none))
  | none => match s.rxOf p with
    | some f => if f.verdict.isSome then (s, none) else
        let r := s.stages f ue bad lost
        (r.2.1.setRx p (some r.1), r.2.2)
    | none => (s, none)

/-- The oldest frame of a port whose verdict is due leaves reception. -/
def Dev.takeRx (s : Dev) (p : Nat) : Option RxFrame × Dev :=
  match s.endedOf p with
  | f :: r => (some f, s.setEnded p r)
  | [] => (s.rxOf p, s.setRx p none)

/-- The parser starts, and meets no error. -/
def Dev.parserStart (s : Dev) (p : Nat) : Dev := (s.parserRun p [] [] []).1

/-! ## Stage 6 -/

/-- A frame that ends before enqueue gives up what it holds. -/
def Dev.discard (s : Dev) (f : RxFrame) : Dev :=
  let s := s.giveCells f.inPort f.cells
  s.leaveVersion (match f.verdict with | some v => v.tag | none => none)

/-- A frame in reception is cut short (R84, R86, R89): counted in RX_ABORT. -/
def Dev.abortRx (s : Dev) (p : Nat) : Dev :=
  match s.rxOf p with
  | some f => (((s.setRx p none).discard f).endUse (.rx f.no)).count (portReg p 0x130)
  | none => s

/-- A matched entry. -/
def ConnPlan.isHit : ConnPlan → Bool | .hit .. => true | _ => false

/-- The state changes that wait for stage 6 (R33): counts, debits, the connection entry, the log, learning. The answer is
the frame as it goes on to enqueue. -/
def Dev.passEffects (s : Dev) (f : RxFrame) (v : Verdict) : Dev × Verdict :=
  let g := f.grove
  let s := if v.walkErr then s.count (groveReg g 0x104) else s
  let s := if v.lookup = 1 then s.count cHit else if v.lookup = 2 then s.count cMiss else s
  let s := if v.daMiss then s.count (groveReg g 0x210) else s
  let s := s.count cZoneBlock v.zoneBlocked
  -- the entry a match updates or a permitted frame creates; a failed insertion meets FULL_ACTION (R301)
  let r : Dev × Verdict := match v.conn with
    | .none => (s, v)
    | .hit i fromA => (s.connUpdate i fromA v.key v.vid, v)
    | .create st =>
      let c := s.newConn v.key v.vid v.zoneD (v.ruleId.getD 0xFFFF) st
      let b := s.frameBucket v.key v.vid
      match s.findConn b c.kind c.vid c.zoneA (endpoint c.addrA c.portA) (endpoint c.addrB c.portB) with
      | some (i, fromA) => (s.connUpdate i fromA v.key v.vid, v)
      | none =>
        let r := s.insertConn b c
        -- a frame that stage 5 dropped is counted there, and only there (R36)
        if r.2 || s.rb (zpReg v.zoneS v.zoneD) 28 || v.drop.isSome || v.colour = 2 then (r.1, v)
        else (r.1, { v.denied cDenyFull 4 with bitmap := 0, divert := none })
  let s := r.1
  let v := r.2
  let s := match v.meter with | some m => s.meterDebit g m v.colour f.len | none => s
  let s := if v.colour = 2 then
      match v.meter with
      | some m => s.raiseRated 31 (if v.yellowDrop then 2 else 1) (0x10 + g) 18 0 msRaw (fun _ => m) (fun n => n)
      | none => s
    else s
  let s := if barkAct v.actB = 3 && v.tag.isSome && (v.deny = 0 || v.deny = 2) && !v.conn.isHit && !v.walkErr
    then s.limiterDebit (barkParam v.actB) f.len else s
  let s := match v.drop with | some c => s.count c | none => s
  let s := if v.deny = 6 then s.raiseRated 33 3 0x30 2 0 msRaw (fun _ => s.rf (barkReg 0x14) 25 0) (fun n => n) else s
  let s := if v.deny ≠ 0 then (s.barkLog v.deny v).countDeny v.zoneS
    else if bit v.actB 60 && v.tag.isSome && !v.walkErr then s.barkLog 0x10 v else s
  let s := if v.deny = 4 then s else s.sourceLearn g v.vid (keyAt v.key 10 6) f.inPort (f.stamp / 256) v.learn
  let s := if v.mirror.isSome then s.count cMirror else s
  match v.divert with
  | none => (s, if v.drop.isSome || v.colour = 2 then { v with bitmap := 0 } else v)
  | some c =>
    if f.inPort = 38 then (s.slowDrop g c f.inPort, { v with divert := none, bitmap := 0 })
    else
      let r := s.slowPolice g c f.inPort
      (r.1, if r.2 then { v with bitmap := 0 } else { v with divert := none, bitmap := 0 })

/-- Whether a verdict leads anywhere. -/
def Verdict.goesOn (v : Verdict) : Bool := v.bitmap ≠ 0 || v.mirror.isSome || v.divert.isSome

/-- A frame that has passed stage 6 with its verdict complete: its effects, and its place in the order of enqueue. -/
def Dev.pass (s : Dev) (f : RxFrame) : Dev × Option RxFrame :=
  match f.verdict with
  | none => (s, none)
  | some v =>
    let r := s.passEffects f v
    if r.2.goesOn then (r.1, some { f with verdict := some r.2 }) else (r.1.discard f, none)

/-- The verdict of a frame that entered in SAFE (R520, R521), or none where it is dropped. -/
def Dev.safeVerdict (s : Dev) (f : RxFrame) : Option Verdict :=
  let v := Verdict.start (keyOf [(0, 1, f.inPort)])
  match s.servicePort with
  | none => none
  | some p =>
    if f.inPort = p then some { v with divert := some 7 }
    else if f.inPort = 36 ∨ f.inPort = 37 ∨ f.inPort = 38 then some { v with bitmap := 2 ^ p, tc := 7 }
    else none

/-- A MAC control frame (R83). -/
def RxFrame.isControl (f : RxFrame) : Bool := beAt f.octets 12 2 = 0x8808

/-- The counter of R84 a frame fails under, if any, with its place in the port's registers; and RX_PAUSE of a MAC control frame (R83), which
a decrypted one meets behind its authentication (R359). -/
def RxFrame.faultAt (f : RxFrame) (fcsOk pcsErr : Bool) : Option Nat :=
  if pcsErr then some 0x124 else if f.oversize then some 0x12C else if f.len < 64 then some 0x128 else if !fcsOk then some 0x120
  else if f.isControl && (match f.sec with | .pass .. => false | _ => true) then some 0x134 else none

/-- Count a frame of a second (R108): errored, or passed. -/
def Dev.lqFrame (s : Dev) (p : Nat) (bad : Bool) : Dev :=
  let r := s.port p
  s.setPort p (if bad then { r with errs := r.errs + 1 } else { r with good := r.good + 1 })

/-- Whether RAS takes the frame as a heartbeat (R528). -/
def Dev.isHeartbeat (s : Dev) (f : RxFrame) : Bool :=
  s.rb (rasReg 0x200) 31 && s.rf (rasReg 0x200) 21 16 = f.inPort && beAt f.octets 12 2 = 0x88B5 && (f.octets.drop 14).take 4 = ascii "TLHB"

/-- The frame in reception on a port ends (stage 6, R31). -/
def Dev.frameEnd (s : Dev) (p : Nat) (fcsOk pcsErr : Bool) : Dev :=
  match (s.parserStart p).takeRx p with
  | (none, _) => s
  | (some f, s) =>
    let eth := p < 36
    match if eth then f.faultAt fcsOk pcsErr else none with
    | some off =>
      let s := ((s.discard f).endUse (.rx f.no)).count (portReg p off)
      if off = 0x120 ∨ off = 0x124 then s.lqFrame p true else s
    | none =>
      let r := s.secEnd p f.no f.sec
      if eth && !r.2 then r.1.discard f
      -- no MAC control frame enters a queue (R83): one that no Ethernet port received has no target left, and its Grove counts it (R36,
      -- R154; DESIGN CHOICE, log entry 19)
      else if f.isControl then (r.1.discard f).count (if eth then portReg p 0x134 else
        match f.verdict.bind (·.drop) with | some c => c | none => cNoDest f.grove)
      else
        let s := r.1
        let s := if eth then ((s.count64 (portReg p 0x100) 1).count64 (portReg p 0x108) f.len).lqFrame p false else s
        let s := s.wakeFrame p (f.verdict.bind (fun v => if keyFlag v.key 1 5 then some (keyAt v.key 62 2) else none))
        let s := s.syncReceipt p (innerType f.octets) (f.octets.drop (14 + 4 * (vlanTags f.octets).1))
        if s.isHeartbeat f then s.discard f
        else if s.safe then
          match s.safeVerdict f with
          | none => (s.discard f).count (rasReg 0xC)
          | some v =>
            let v := { v with tag := match f.verdict with | some x => x.tag | none => none }
            if v.divert.isSome then
              let q := s.slowPolice f.grove 7 p
              if q.2 then { q.1 with passed := q.1.passed ++ [{ f with verdict := some v, waiting := false }] } else q.1.discard f
            else { s with passed := s.passed ++ [{ f with verdict := some v, waiting := false }] }
        else if f.waiting then { s with passed := s.passed ++ [f] }
        else match s.pass f with
          | (s, some f) => { s with passed := s.passed ++ [f] }
          | (s, none) => s

/-- The bucket read of a frame's miss completes (R306, R307): an uncorrectable error invalidates the slots read. -/
def Dev.bucketDone (s : Dev) (p : Nat) (ue bad : List Nat) : Dev :=
  let done (s : Dev) (f : RxFrame) : Dev × RxFrame :=
    match f.verdict with
    | none => (s, f)
    | some v =>
      let b := s.frameBucket v.key v.vid
      let s := if ue.isEmpty then s else s.tableError b ue
      let m := if ue.isEmpty then s.connMatch v else none
      let r := (match m with | some (i, _) => s.touchCache i false | none => s).stage45 f v true m bad
      (r.2, r.1)
  match s.passed.findIdx? (fun f => f.waiting && f.inPort = p) with
  | some i => (match s.passed[i]? with
    | some f =>
      let r := done s f
      match r.1.pass r.2 with
      | (s, some f) => { s with passed := s.passed.set i f }
      | (s, none) => ({ s with passed := s.passed.eraseIdx i } : Dev).banksGo
    | none => s)
  | none => match (s.endedOf p).findIdx? (·.waiting) with
    | some i => (match (s.endedOf p)[i]? with
      | some f => let r := done s f; r.1.setEnded p ((r.1.endedOf p).set i r.2)
      | none => s)
    | none => match s.rxOf p with
      | some f => if f.waiting then let r := done s f; r.1.setRx p (some r.2) else s
      | none => s

/-! ## Stage 7 -/

/-- SPQ_PASS, SPQ_DROP and the limits of a slow-path queue (R472). -/
def Dev.slowHeld (s : Dev) (c : Nat) : List Nat := s.slowq.get [] c

/-- Queue a stored frame to P38, under its cause (R472); its own reference is the caller's. -/
def Dev.toSlow (s : Dev) (id : Nat) (f : Stored) (c : Nat) : Dev :=
  let q := s.slowHeld c
  let cells := q.foldl (fun a i => a + match s.stored i with | some x => cellsOf x.len | none => 0) 0
  if !s.rb (spqReg c 0) 31 || q.length ≥ s.rf (spqReg c 0) 9 0 || cells + cellsOf f.len > s.rf (spqReg c 0x14) 16 0 || s.rf (trunkReg 4) 17 0 = 0
  then (s.count (spqReg c 0x1C)).raiseRated 20 c 0x60 0xFF 0 msRaw (fun n => n) (fun _ => 0)
  else
    let s := s.setStored id ((s.stored id).map (fun x => { x with refs := x.refs + 1 }))
    ({ s.takeDesc with slowq := s.slowq.put [] c (q ++ [id]) } : Dev).count (spqReg c 0x18)

/-- DECAP_ERR (R340). -/
abbrev cDecapErr : Nat := rootsReg 0x20

/-- Queue a stored frame to P39 (R340). One that finds no free descriptor is dropped; the spec names no counter for it, and the counter
of frames for P39 dropped, DECAP_ERR, counts it (R36; DESIGN CHOICE, log entry 63). -/
def Dev.toRoots (s : Dev) (id : Nat) : Dev :=
  if s.rf (trunkReg 4) 17 0 = 0 then s.count cDecapErr
  else
    let s := s.setStored id ((s.stored id).map (fun x => { x with refs := x.refs + 1 }))
    { s.takeDesc with decap := s.decap ++ [id] }

/-- The slow-path queue of a frame whose bitmap names P38 without a cause; not stated, and free for
every frame. -/
def p38Queue (id : Nat) : Nat := (Config.freeValue (2 ^ 64 * 2 + id)).toNat % 16

/-- The queue of a target port (R219, R220). -/
def Dev.targetQueue (s : Dev) (p tc : Nat) (stream : Option Nat) : Nat :=
  if p < 36 then 8 * p + tc else queueOf p (s.hostQueue p tc stream)

/-- Enqueue a frame that has passed stage 6 (R192 to R194). Its descriptors for P38 and P39 are taken before those for the 352 queues: the
spec gives no order between them (DESIGN CHOICE, log entry 26). -/
def Dev.enqueue (s : Dev) (f : RxFrame) : Dev :=
  match f.verdict with
  | none => s
  | some v =>
    let id := s.trunk.nextId
    let x : Stored := {
      inPort := f.inPort, octets := f.octets, len := match f.sec with | .pass .. => f.octets.length + 4 | _ => f.len
      stamp := f.stamp, tag := v.tag, colour := v.colour
      stream := if v.divert.isSome then none else v.stream
      rule := v.rule
      vid := v.vid, vidValid := v.tag.isSome, tc := v.tc, zone := v.zoneS, launch := f.launch, refs := 1, cells := f.cells, chain := f.chain, spoiled := false }
    let s := { s with trunk := { s.trunk with frames := s.trunk.frames.put none id (some x), nextId := id + 1 } }
    let ports := bitsOf 38 v.bitmap
    let s := match v.divert with | some c => s.toSlow id x c | none => s
    let s := if v.bitmap.testBit 38 then s.toSlow id x (p38Queue id) else s
    let s := if v.bitmap.testBit 39 then s.toRoots id else s
    s.admitTargets id (ports.map (fun p => (s.targetQueue p v.tc v.stream, v.reason))
      ++ match v.mirror with | some m => [(s.targetQueue m v.tc v.stream, 1)] | none => [])

/-- The next frame to enqueue: the first that waits for nothing, nor for an earlier frame of its port (R37). -/
def nextPassed : List Nat → List RxFrame → Option Nat
  | _, [] => none
  | held, f :: r =>
    if f.waiting || held.contains f.inPort then (nextPassed (f.inPort :: held) r).map (· + 1) else some 0

/-- Enqueue the next frame. -/
def Dev.enqueueNext (s : Dev) : Dev :=
  match nextPassed [] s.passed with
  | some i => (match s.passed[i]? with
    | some f => ({ s with passed := s.passed.eraseIdx i } : Dev).enqueue f
    | none => s)
  | none => s

/-! ## Stage 1 -/

/-- A frame enters the pipeline on a port: MACsec's decision, and its cells where there are enough (R186, R188): those of the octets
stored, the plaintext's on a MACsec port; of an overlong frame those up to MAX_LEN, which are free again when the next octet comes (R84). `len`
is L of R222, `held` a frame reassembled, with the cells and the key context it holds. -/
def Dev.tryReceive (s : Dev) (p : Nat) (octets : List Byte) (len stamp group : Nat) (launch : Option Int) (oversize : Bool)
    (held : Option Reasm := none) : Option Dev :=
  let first := match held with | some r => (r.no, s) | none => s.newChain
  let sec := if p ≥ 36 then (.plain, octets, first.2)
    else match held.bind (·.sec) with
      | some x => ((x.close octets).1, (x.close octets).2, first.2)
      | none => first.2.secRx p first.1 octets
  let had := match held with | some r => r.cells | none => 0
  let cells := if oversize then cellsOf (s.rf (portReg p 0) 15 0) else cellsOf (match sec.1 with | .pass .. => sec.2.1.length + 4 | _ => len)
  if !s.canTake p (cells - had) then none
  else
    let x := ((sec.2.2.demandCluster (0x10 + s.owner p)).demandCluster 0x30).demandCluster 0x40
    let run := x.newRun (cells - had)
    let frame (n : Nat) : RxFrame :=
      ⟨p, sec.2.1, len, stamp, group, launch, n, (match held with | some r => r.chain | none => []) ++ [run.1], first.1, s.owner p, oversize,
        sec.1, none, false⟩
    let x := run.2.setRx p (some (frame cells))
    let x := if cells < had then x.giveCells p (had - cells) else x.takeCells p (cells - had)
    some (if oversize then (x.setRx p (some (frame 0))).giveCells p cells else x)

/-- A source on P36 to P39 offers a frame: it waits while there are too few cells (R188). -/
def Dev.receive (s : Dev) (p : Nat) (octets : List Byte) (len stamp group : Nat) (launch : Option Int) : Dev :=
  (s.tryReceive p octets len stamp group launch false).getD s

/-- A signed field of 24 bits. -/
def Dev.adj (s : Dev) (a : Nat) : Int := signed 24 (s.rf a 23 0)

/-- A start-of-frame delimiter arrives on an Ethernet port (R88, R93, R94). -/
def Dev.frameStart (s : Dev) (n : Nat) (octets : List Byte) (frac : Nat) (ownTo : Bool) : Dev :=
  if !portPresent s.variant n || !s.portPowered n || !s.portUp n then s
  else
    let s := s.endRx n
    let s := if ownTo && 28 ≤ n && s.rb (portReg n 0x30) 31
      then s.raiseRated 11 3 2 n 0 msRaw (fun c => c) (fun _ => 0) else s
    let len := octets.length + 4
    let tooLong := len > s.rf (portReg n 0) 15 0
    let stamp := ((s.tick * 256 + frac : Int) + s.adj (portReg n 0x10)).toNat
    match s.tryReceive n octets len stamp 0 none tooLong with
    | some s => s
    | none => s.count (trunkReg (0x100C + 0x20 * n))

/-- The next closed batch of Roots enters at P39, where reception is free and there are cells (R188, R338). -/
def Dev.offerRoots (s : Dev) : Dev :=
  match s.roots.closed with
  | [] => s
  | (g, o) :: r =>
    if (s.rxOf 39).isSome || !s.canTake 39 (cellsOf o.length) then s
    else ({ s with roots := { s.roots with closed := r } } : Dev).receive 39 o o.length s.now g none

/-! ## The meanings -/

/-- FRAME_RX_START. -/
def execFrameRxStart (n : Fin 36) (octets : List (BitVec 8)) (frac : BitVec 8) (ownTo : Bool) (s : State) :=
  s.onDev (·.frameStart n.val octets frac.toNat ownTo)

/-- FRAME_RX_END. -/
def execFrameRxEnd (p : Fin 40) (fcsOk pcsErr : Bool) (s : State) :=
  s.onSettling (fun x =>
    let x := (if p.val = 39 then x.offerRoots else x).frameEnd p.val fcsOk pcsErr
    if p.val = 39 then x.offerRoots else x)

/-- FRAME_ENQUEUE. -/
def execFrameEnqueue (s : State) := s.onDev (·.enqueueNext)

/-- BUCKET_READ_COMPLETE. `bad`: the slots of the Grove's replica in parity error when stage 5 follows. -/
def execBucketReadComplete (p : Fin 40) (ue : List (Fin 8)) (bad : List (Fin 131136)) (s : State) :=
  s.onSettling (·.bucketDone p.val (ue.map (·.val)) (bad.map (·.val)))

end Sys2Proof.Machine
end

