-- ==== Sys2Proof/Machine/Ports.lean ====
section
/-! DEFINITION. Ethernet ports: enable, link state, preemption, 10BASE-T1S, MDIO and link-quality seconds (R80 to R112). -/
namespace Sys2Proof.Machine

/-! ## Fields -/

/-- PORT_CTL.EN, PORT_STATUS.LOCK, LINK and DRAINING, PCS_TYPE. -/
def Dev.portEn (s : Dev) (n : Nat) : Bool := s.rb (portReg n 0) 31
def Dev.portLock (s : Dev) (n : Nat) : Bool := s.rb (portReg n 4) 4
def Dev.portLink (s : Dev) (n : Nat) : Nat := s.rf (portReg n 4) 1 0
def Dev.draining (s : Dev) (n : Nat) : Bool := s.rb (portReg n 4) 5
def Dev.pcsType (s : Dev) (n : Nat) : Nat := s.rf (portReg n 0) 19 16

/-- Whether a port accepts a PCS type (R80). -/
def pcsOk (n t : Nat) : Bool :=
  match t with | 1 => n < 4 | 2 => n < 20 | 3 => 4 ≤ n && n < 20 | 4 | 5 => 20 ≤ n && n < 28 | 6 => 28 ≤ n && n < 36 | _ => false

/-- PLCA: enabled, coordinator, follower (R100). -/
def Dev.plcaEn (s : Dev) (n : Nat) : Bool := 28 ≤ n && n < 36 && s.rb (portReg n 0x30) 31
def Dev.plcaCoord (s : Dev) (n : Nat) : Bool := s.plcaEn n && s.rf (portReg n 0x30) 10 8 = 0
def Dev.plcaFollower (s : Dev) (n : Nat) : Bool := s.plcaEn n && s.rf (portReg n 0x30) 10 8 ≠ 0

/-- Whether PLCA_CTL is valid (R101). -/
def Dev.plcaOk (s : Dev) (n : Nat) : Bool :=
  let c := s.rf (portReg n 0x30) 3 0
  !s.plcaEn n || (1 ≤ c && c ≤ 8)

/-- Whether the role of a STANDBY device holds a port's transmitter quiet (R527). -/
def Dev.redQuiet (s : Dev) (n : Nat) : Bool :=
  s.rb (rasReg 0x200) 31 && !s.rb (rasReg 0x204) 31 && s.rb (if n < 32 then rasReg 0x208 else rasReg 0x20C) (n % 32) && s.rf (rasReg 0x200) 21 16 ≠ n

/-- The port in near-end loopback for the proof test (R532). -/
def Dev.proofPort (s : Dev) : Option Nat := match s.ras.proof with | some r => r.left.head? | none => none

/-- Whether a port's transmitter is held quiet, in SAFE (R520), in STANDBY or in loopback. -/
def Dev.txQuiet (s : Dev) (n : Nat) : Bool := (s.safe && s.servicePort ≠ some n) || s.redQuiet n || s.proofPort = some n

/-- Whether a frame of a port is being sent. -/
def Dev.sending (s : Dev) (n : Nat) : Bool := (s.crown.tx.get none n).isSome || (s.crown.paused.get none n).isSome

/-- The frame in transmission is preempted, with `sent` octets of it sent: it waits until the MAC resumes it. -/
def Dev.preempt (s : Dev) (p sent : Nat) : Dev :=
  match s.crown.tx.get none p with
  | none => s
  | some x =>
    let s := s.creditPort p
    let s := if x.preempted then s else s.count (portReg p 0x14C)
    { s with crown := { s.crown with
      tx := s.crown.tx.put none p none, paused := s.crown.paused.put none p (some { x with preempted := true, sent := sent }) } }

/-- The MAC resumes a preempted frame. -/
def Dev.resume (s : Dev) (p : Nat) : Dev :=
  match s.crown.paused.get none p with
  | none => s
  | some x =>
    let s := (s.creditPort p).count (portReg p 0x148)
    { s with crown := { s.crown with tx := s.crown.tx.put none p (some { x with since := s.now }), paused := s.crown.paused.put none p none } }

/-- A port that is to go quiet, or drains, completes the frame it is sending: one that is preempted goes on where nothing else is
being sent (R89). -/
def Dev.finishPaused (s : Dev) (n : Nat) : Dev :=
  if (s.crown.tx.get none n).isNone && (s.draining n || s.txQuiet n) then s.resume n else s

/-- PORT_STATUS.TX_QUIET follows what holds the transmitter. -/
def Dev.quietBit (s : Dev) (n : Nat) : Dev :=
  let s := s.finishPaused n
  s.setRb (portReg n 4) 6 ((!s.portEn n && !s.draining n) || (s.txQuiet n && !s.sending n))

/-- PORT_SAFE for an enabled port (R91). -/
def Dev.portSafe (s : Dev) (n : Nat) : Dev := s.raise 15 (if s.servicePort = some n then 2 else 1) 2 n 0 0

/-! ## Preemption (R96, R97) -/

/-- Whether a port has preemption. -/
def hasPreempt (n : Nat) : Bool := n < 20

/-- PREEMPT_STATUS.TX_ACTIVE follows R96. -/
def Dev.preemptUpdate (s : Dev) (n : Nat) : Dev :=
  if !hasPreempt n then s
  else s.setRb (portReg n 0x24) 3 (s.rb (portReg n 0x20) 31 && s.portLink n = 2 && (!s.rb (portReg n 0x20) 29 || s.rf (portReg n 0x24) 2 0 = 3))

/-- A verify mPacket is sent. -/
def Dev.sendVerify (s : Dev) (n k : Nat) : Dev :=
  { s.setPort n { s.port n with attempts := k, verifyAt := s.now } with out := .mpacket n false :: s.out }

/-- What the verify protocol does when the link enters or leaves UP. -/
def Dev.verifyLink (s : Dev) (n : Nat) : Dev :=
  if !hasPreempt n then s
  else
    let s := if !s.rb (portReg n 0x20) 29 then s.setRf (portReg n 0x24) 2 0 0
      else if s.portLink n = 2 then (s.setRf (portReg n 0x24) 2 0 2).sendVerify n 1
      else s.setRf (portReg n 0x24) 2 0 1
    s.preemptUpdate n

/-- The verify interval ends (R97). -/
def Dev.verifyTimer (s : Dev) (n : Nat) : Dev :=
  let r := s.port n
  if !hasPreempt n || s.rf (portReg n 0x24) 2 0 ≠ 2 || s.now < r.verifyAt + max 1 (s.rf (portReg n 0x20) 23 16) * msRaw then s
  else if r.attempts < 3 then s.sendVerify n (r.attempts + 1)
  else ((s.setRf (portReg n 0x24) 2 0 4).preemptUpdate n).raiseRated 14 4 2 n 0 msRaw (fun c => c) (fun _ => 0)

/-- A verify response arrives: with RX_EN = 0 its delimiter has it discarded (R98). -/
def Dev.verifyResponse (s : Dev) (n : Nat) : Dev :=
  if !portPresent s.variant n || !s.portPowered n || !s.portUp n then s
  else
    let s := s.endRx n
    if !(hasPreempt n && s.rb (portReg n 0x20) 30) then s.count (portReg n 0x144)
    else if s.rf (portReg n 0x24) 2 0 = 2 then (s.setRf (portReg n 0x24) 2 0 3).preemptUpdate n else s

/-! ## Link state (R88, R89, R91) -/

/-- LINK changes: LINK_STATE is raised. -/
def Dev.setLink (s : Dev) (n v : Nat) : Dev :=
  let old := s.portLink n
  if v = old then s
  else
    let s := (s.setRf (portReg n 4) 1 0 v).raise 8 (match v with | 2 => 1 | 1 => 2 | _ => 3) 2 n old (s.reg (portReg n 0x13C)).toNat
    s.verifyLink n

/-- A frame in reassembly is gone, and gives its cells back. -/
def Dev.dropReasm (s : Dev) (n : Nat) : Dev :=
  match (s.port n).reasm with
  | some f => ((s.setPort n { s.port n with reasm := none }).endUse (.rx f.no)).giveCells n f.cells
  | none => s

/-- A frame in reassembly is aborted with reception, whether or not one of its fragments is on the lane (DESIGN CHOICE, log
entry 20). -/
def Dev.abortReasm (s : Dev) (n : Nat) : Dev :=
  if (s.port n).reasm.isSome then (s.dropReasm n).count (portReg n 0x130) else s

/-- Reception on a port is aborted: a frame in reception or reassembly is discarded. -/
def Dev.abortAll (s : Dev) (n : Nat) : Dev := (s.abortRx n).abortReasm n

/-- Lock is gained. -/
def Dev.lockUp (s : Dev) (n : Nat) : Dev :=
  if !s.portEn n || s.portLock n then s
  else
    let r := s.port n
    -- no instant of the second passes without lock where it is gained as the port starts, or as the second does (R108)
    let atOnce : Bool := (r.lockAt = s.now || s.now % (256 * 400000000) = 0) && !r.lost
    let s := (s.setRb (portReg n 4) 4 true).setPort n { r with lockAt := s.now, noLock := r.noLock && !atOnce }
    let fast := s.tap.fastUp.contains n
    let s := { s with tap := { s.tap with fastUp := s.tap.fastUp.filter (· ≠ n) } }
    if s.portLink n = 1 && (fast || s.rf (portReg n 0xC) 23 16 = 0) then s.setLink n 2 else s

/-- LOCK falls, which counts (R106, R108). -/
def Dev.lockFalls (s : Dev) (n : Nat) : Dev :=
  if !s.portLock n then s
  else ((s.setRb (portReg n 4) 4 false).setPort n { s.port n with lockAt := s.now, lost := true, noLock := true }).count (portReg n 0x13C)

/-- Lock is lost. -/
def Dev.lockDown (s : Dev) (n : Nat) : Dev :=
  if !s.portLock n then s
  else
    let s := (s.lockFalls n).abortAll n
    if s.portLink n = 2 && s.rf (portReg n 0xC) 11 0 = 0 then s.setLink n 1 else s

/-- Lock has held for UP_DEB. -/
def Dev.linkUpExpiry (s : Dev) (n : Nat) : Dev :=
  if s.portLink n = 1 && s.portLock n && s.now ≥ (s.port n).lockAt + s.rf (portReg n 0xC) 23 16 * msRaw then s.setLink n 2 else s

/-- Lock has been absent for DOWN_DEB. -/
def Dev.linkDownExpiry (s : Dev) (n : Nat) : Dev :=
  if s.portLink n = 2 && !s.portLock n && s.now ≥ (s.port n).lockAt + s.rf (portReg n 0xC) 11 0 * usRaw then s.setLink n 1 else s

/-! ## Link-quality seconds (R107 to R112) -/

/-- Count a settled second. -/
def Dev.lqCount (s : Dev) (n : Nat) (x : LqSecond) : Dev :=
  let s := s.count (portReg n 0x180)
  if x.uas then s.count (portReg n 0x18C)
  else
    let s := if !x.es then s else
      let s := s.count (portReg n 0x184)
      if s.rb (portReg n 0x40) 1 then s.raise 9 1 2 n x.errored x.k else s
    if !x.ses then s else
      let s := s.count (portReg n 0x188)
      if s.rb (portReg n 0x40) 0 then s.raise 9 2 2 n x.errored x.k else s

/-- Settle every second not yet counted (R111). -/
def Dev.lqSettle (s : Dev) (n : Nat) : Dev :=
  let r := s.port n
  (r.seconds.foldl (fun s x => s.lqCount n x) s).setPort n { r with seconds := [], whole := false }

/-- Mark the last `k` seconds of a list. -/
def markLast (k : Nat) (uas : Bool) (l : List LqSecond) : List LqSecond :=
  l.take (l.length - k) ++ (l.drop (l.length - k)).map (fun (x : LqSecond) => { x with uas := uas })

/-- The second of raw time now. -/
def Dev.lqNow (s : Dev) : Nat := s.tick / 400000000

/-- The second in progress has ended (R107): it is classified where the port spent it in service and powered. -/
def Dev.lqEnd (s : Dev) (n : Nat) : Dev :=
  let r := s.port n
  let next : PortRun := { r with errs := 0, good := 0, lost := false, noLock := !s.portLock n, whole := true, second := r.second + 1 }
  if !s.portEn n || !s.portPowered n || s.lqNow ≤ r.second then s
  else if !r.whole then s.setPort n next
  else
    let k := r.second
    let ses : Bool := r.noLock || (r.errs > 0 && r.errs * 100 ≥ r.errs + r.good)
    let unavail := s.rb (portReg n 0x44) 0
    let x : LqSecond := ⟨k, r.errs, ses || r.errs > 0 || r.lost, ses, unavail⟩
    let l := r.seconds ++ [x]
    let run := if ses ≠ unavail then s.rf (portReg n 0x44) 7 4 + 1 else 0
    let declared := decide (run ≥ 10)
    let l := if declared then markLast 10 (!unavail) l else l
    let st := BitVec.ofNat 32 ((if declared then 0 else run) * 16 + ses.toNat * 2 + (unavail ^^ declared).toNat)
    let s := s.setReg (portReg n 0x44) st
    let s := if declared then s.raise 10 (if unavail then 2 else 1) 2 n 0 (k - 9) else s
    match l with
    | x :: rest => if l.length ≥ 10 then (s.lqCount n x).setPort n { next with seconds := rest } else s.setPort n { next with seconds := l }
    | [] => s

/-! ## Enable and disable (R87, R89) -/

/-- PLCA_FAULT (R102). -/
def Dev.plcaFault (s : Dev) (n cause : Nat) : Dev := s.raiseRated 11 cause 2 n 0 msRaw (fun c => c) (fun _ => 0)

/-- A follower's BEACON_OK falls (R101). -/
def Dev.beaconLost (s : Dev) (n : Nat) : Dev :=
  if s.rb (portReg n 0x38) 1 then ((s.setRb (portReg n 0x38) 1 false).count (portReg n 0x150)).plcaFault n 1 else s

/-- The PHY of a 10BASE-T1S port starts (R100): a coordinator shows COORD and sends its first BEACON; lock is a follower's BEACON_OK,
and always held otherwise (R88). -/
def Dev.plcaStart (s : Dev) (n : Nat) : Dev :=
  if n < 28 then s
  else
    let s := s.setReg (portReg n 0x38) (if s.plcaCoord n then 1 else 0)
    let s := if s.plcaCoord n then { s with out := .beacon n (s.rf (portReg n 0x30) 3 0) :: s.out } else s
    if s.plcaFollower n then s else s.lockUp n

/-- An enabled port with power starts under R88 and R111: its link enters DOWN, and its seconds start again. -/
def Dev.portUpFrom (s : Dev) (n : Nat) : Dev :=
  let s := s.setPort n { PortRun.idle with lockAt := s.now, second := s.lqNow, whole := s.now % (256 * 400000000) = 0 }
  (((s.setReg (portReg n 0x44) 0).setLink n 1).quietBit n).plcaStart n

/-- Whether a port's Grove is still copying (R481). -/
def Dev.portWaits (s : Dev) (p : Nat) : Bool := s.tap.copying.contains (portGrove s.variant p)

/-- EN rises, or is refused: a port without power, or whose Grove still copies, starts later (R479, R481). -/
def Dev.portEnable (s : Dev) (n : Nat) : Dev :=
  if s.portEn n then s
  else if !pcsOk n (s.pcsType n) || s.draining n || !s.plcaOk n then s.setRb (portReg n 4) 7 true
  else
    let s := s.setRb (portReg n 0) 31 true
    let s := if s.portPowered n && !s.portWaits n then s.portUpFrom n else s
    if s.safe then s.portSafe n else s

/-- What a port without EN or without power gives up: reception, the seconds not yet counted, its lock, and its part in PLCA. -/
def Dev.portStop (s : Dev) (n : Nat) : Dev :=
  let s := (((s.abortAll n).lqSettle n).lockFalls n).beaconLost n
  if 28 ≤ n then s.setReg (portReg n 0x38) 0 else s

/-- The drain of a port is done: the link enters DISABLED. -/
def Dev.drained (s : Dev) (n : Nat) : Dev := ((s.setRb (portReg n 4) 5 false).setLink n 0).quietBit n

/-- EN falls. LOCK then reads 0, which is a fall of LOCK: while the port drains, its link leaves UP under R88. -/
def Dev.portDisable (s : Dev) (n : Nat) : Dev :=
  if !s.portEn n then s
  else
    let s := (s.portStop n).setRb (portReg n 0) 31 false
    if !s.sending n then s.drained n
    else
      let s := (s.setRb (portReg n 4) 5 true).finishPaused n
      if s.portLink n = 2 && s.rf (portReg n 0xC) 11 0 = 0 then s.setLink n 1 else s

/-- The last frame of a disabled port has been sent. -/
def Dev.drainDone (s : Dev) (n : Nat) : Dev := if s.draining n && !s.sending n then s.drained n else s

/-- CNT_CLR. -/
def Dev.cntClr (s : Dev) (n : Nat) : Dev := s.resetRegs (portReg n 0x100) (portReg n 0x1C0)

/-- A SerDes fault (R86): the elastic buffer's aborts reception, the lane's act through the loss of lock. The model raises none on a
lane that does not run, of a port with EN = 0 or without power (DESIGN CHOICE, log entry
20). -/
def Dev.serdesFault (s : Dev) (n : Nat) (k : SerdesKind) : Dev :=
  if n ≥ 28 || !portPresent s.variant n || !s.portEn n || !s.portPowered n then s
  else (match k with | .elastic => s.abortAll n | _ => s).raiseRated 13 (match k with | .pllUnlock => 1 | .signalLoss => 2 | .elastic => 3) 2 n 0 msRaw (fun c => c) (fun _ => 0)

/-! ## Preemptable frames received (R98, R99) -/

/-- A reassembly error. -/
def Dev.asmErr (s : Dev) (n cause : Nat) : Dev :=
  ((s.dropReasm n).count (portReg n 0x144)).raiseRated 14 cause 2 n 0 msRaw (fun c => c) (fun _ => 0)

/-- RX_NOBUF of a port (R188). -/
abbrev cNoBuf (n : Nat) : Nat := trunkReg (0x100C + 0x20 * n)

/-- A preemptable frame is whole: it enters now, with the stamp of its first fragment and the cells it holds (R99). -/
def Dev.reassembled (s : Dev) (n : Nat) (r : Reasm) : Dev :=
  let s := s.setPort n { s.port n with reasm := none }
  let len := r.octets.length + 4
  let gone (s : Dev) : Dev := (s.endUse (.rx r.no)).giveCells n r.cells
  if r.dropped then s
  else if len > s.rf (portReg n 0) 15 0 then (gone s).count (portReg n 0x12C)
  else match s.tryReceive n r.octets len r.stamp 0 none false (some r) with
    | some s => if (s.endedOf n).isEmpty then s.frameEnd n true false else s.endRx n
    | none => (gone s).count (cNoBuf n)

/-- The cells of a frame in reassembly follow its octets (R186): past MAX_LEN it holds none (R84), and where there are too few it is
dropped and counted (R188), while the MAC follows it to its final fragment. -/
def Dev.growReasm (s : Dev) (n : Nat) (r : Reasm) : Dev :=
  let put (s : Dev) (r : Reasm) : Dev := s.setPort n { s.port n with reasm := some r }
  if r.dropped then put s r
  else if r.octets.length > s.rf (portReg n 0) 15 0 then (put s { r with cells := 0, chain := [] }).giveCells n r.cells
  else
    let more := cellsOf r.octets.length - r.cells
    if s.canTake n more then
      let run := s.newRun more
      (put run.2 { r with cells := r.cells + more, chain := r.chain ++ [run.1] }).takeCells n more
    else (((put s { r with cells := 0, chain := [], dropped := true }).endUse (.rx r.no)).giveCells n r.cells).count (cNoBuf n)

/-- A fragment brings the SecTAG and first block of a frame in reassembly: it has its key context from then on (R354, R359). -/
def Dev.openReasm (s : Dev) (n : Nat) (r : Reasm) : Reasm × Dev :=
  if r.sec.isSome || r.dropped || r.octets.length < 44 then (r, s)
  else let x := s.secOpen n r.no r.octets; ({ r with sec := some x.1 }, x.2)

/-- A fragment joins the frame in reassembly, `r` so far. -/
def Dev.addFragment (s : Dev) (n : Nat) (r : Reasm) (f : Fragment) : Dev :=
  let all := { r with octets := r.octets ++ f.octets }
  if !f.crcOk then s.asmErr n 2
  else
    let x := s.openReasm n all
    if f.final then x.2.reassembled n x.1 else x.2.growReasm n x.1

/-- An mPacket of a preemptable frame, or a verify mPacket, is received. -/
def Dev.fragment (s : Dev) (n : Nat) (f : Fragment) : Dev :=
  if !portPresent s.variant n || !s.portPowered n || !s.portUp n then s
  else if !(hasPreempt n && s.rb (portReg n 0x20) 30) then (s.endRx n).count (portReg n 0x144)
  else
    let s := s.endRx n
    match f.smd with
    | .verify => { s with out := .mpacket n true :: s.out }
    | .start k =>
      let s := s.count (portReg n 0x140)
      let s := if (s.port n).reasm.isSome then s.asmErr n 3 else s
      let c := s.newChain
      c.2.addFragment n ⟨[], k.val, 0, ((s.tick * 256 + f.frac.toNat : Int) + s.adj (portReg n 0x10)).toNat, 0, [], c.1, none, false⟩ f
    | .cont k =>
      let s := s.count (portReg n 0x140)
      match (s.port n).reasm with
      | none => s.asmErr n 1
      | some r =>
        if k.val ≠ r.count ∨ f.fragCount.val ≠ r.next then s.asmErr n 1
        else s.addFragment n { r with next := (r.next + 1) % 4 } f

/-! ## 10BASE-T1S (R100 to R102) -/

/-- A BEACON is received. -/
def Dev.beaconRx (s : Dev) (n : Nat) : Dev :=
  if !portPresent s.variant n || !s.portEn n || !s.portPowered n then s
  else if s.plcaCoord n then s.plcaFault n 2
  else if s.plcaFollower n then
    ((s.setPort n { s.port n with beaconAt := s.now }).setRb (portReg n 0x38) 1 true).lockUp n
  else s

/-- BEACON_TO has passed without a BEACON. -/
def Dev.beaconTimeout (s : Dev) (n : Nat) : Dev :=
  if !(s.plcaFollower n && s.rb (portReg n 0x38) 1) || s.now < (s.port n).beaconAt + max 1 (s.rf (portReg n 0x34) 31 16) * 100 * usRaw then s
  else (s.beaconLost n).lockDown n

/-! ## MDIO (R103 to R105) -/

/-- An MDIO read (R104). -/
def Dev.mdioRead (s : Dev) (d : CmdDesc) (phy : PhyReply) : CmdRes :=
  if !s.rb (mdioReg (d.un - 40) 0) 31 then .fail s stWrongMode
  else if phy.ack then .done s stOk phy.data.toNat 0 else .done s 0x40 0xFFFF 0

/-- An MDIO write: the frame leaves on the bus. -/
def Dev.mdioWrite (s : Dev) (d : CmdDesc) (reg : Nat) : CmdRes :=
  if !s.rb (mdioReg (d.un - 40) 0) 31 then .fail s stWrongMode
  else .done { s with out := .mdio (d.un - 40) (fld d.p8 4 0) (fld d.p8 12 8) reg (fld d.p8 47 32) :: s.out } stOk 0 0

/-- The units of the MDIO masters. -/
def isMdio : Nat → Bool := fun u => 40 ≤ u && u < 44

/-- An MDIO command. -/
def Dev.mdioCommand (s : Dev) (d : CmdDesc) (op mask : Nat) (kind : Option Nat) (body : Dev → CmdRes) : Dev :=
  s.command d (isOne 2) isMdio op [mask, 0, 0, 0, 0] kind body

/-- Whether a poll slot is due: POLL_PERIOD ms of raw time since its last read; 0 acts as 1, and above 1,000 as 1,000. -/
def Dev.pollDue (s : Dev) (m k : Nat) : Bool :=
  match s.polls.get none (8 * m + k) with
  | some t => s.now ≥ t + min 1000 (max 1 (s.rf (mdioReg m 4) 9 0)) * msRaw
  | none => true

/-- A poll slot is read (R105). -/
def Dev.mdioPoll (s : Dev) (m k : Nat) (phy : PhyReply) : Dev :=
  let val := mdioReg m (0x18 + 0x10 * k)
  if !s.rb (mdioReg m 0) 31 || !s.rb (mdioReg m (0x10 + 0x10 * k)) 31 || !s.pollDue m k then s
  else
  let s := { s with polls := s.polls.put none (8 * m + k) (some s.now) }
  if !phy.ack then ((s.setRb val 16 false).raise 12 2 2 (40 + m) (k * 65536 + 0xFFFF) 0).ballot
  else
    let put (s : Dev) : Dev := s.setReg val (BitVec.ofNat 32 (65536 + phy.data.toNat))
    if (s.reg val ^^^ BitVec.ofNat 32 phy.data.toNat) &&& (s.reg (mdioReg m (0x14 + 0x10 * k)) &&& 0xFFFF) ≠ 0 then
      ((put s).raise 12 1 2 (40 + m) (k * 65536 + phy.data.toNat) 0).ballot
    else if s.rb val 16 then s else (put s).ballot

/-! ## The meanings -/

/-- PORT_ENABLE. -/
def execPortEnable (a : Acc) (n : Fin 36) (s : State) := s.onDev (fun x => x.writeEn a (portReg n.val 0) true (·.portEnable n.val))
/-- PORT_DISABLE. -/
def execPortDisable (a : Acc) (n : Fin 36) (s : State) := s.onDev (fun x => x.writeEn a (portReg n.val 0) false (·.portDisable n.val))
/-- PORT_DRAIN_DONE. -/
def execPortDrainDone (n : Fin 36) (s : State) := s.onDev (·.drainDone n.val)
/-- CNT_CLR. -/
def execCntClr (a : Acc) (n : Fin 36) (s : State) := s.onDev (fun x => x.writeBit a (portReg n.val 0) 30 (·.cntClr n.val))
/-- LOCK_GAINED. The lock of a 10BASE-T1S port is not a lane's. -/
def execLockGained (n : Fin 36) (s : State) := s.onDev (fun x => if n.val < 28 then x.lockUp n.val else x)
/-- LOCK_LOST. -/
def execLockLost (n : Fin 36) (s : State) := s.onDev (fun x => if n.val < 28 then x.lockDown n.val else x)
/-- LINK_UP_DEBOUNCE_EXPIRY. -/
def execLinkUpDebounceExpiry (n : Fin 36) (s : State) := s.onDev (·.linkUpExpiry n.val)
/-- LINK_DOWN_DEBOUNCE_EXPIRY. -/
def execLinkDownDebounceExpiry (n : Fin 36) (s : State) := s.onDev (·.linkDownExpiry n.val)
/-- SERDES_FAULT. -/
def execSerdesFault (n : Fin 36) (kind : SerdesKind) (s : State) := s.onDev (·.serdesFault n.val kind)
/-- PREEMPT_VERIFY_TIMER. -/
def execPreemptVerifyTimer (n : Fin 36) (s : State) := s.onDev (·.verifyTimer n.val)
/-- PREEMPT_VERIFY_RESPONSE. -/
def execPreemptVerifyResponse (n : Fin 36) (s : State) := s.onDev (·.verifyResponse n.val)
/-- PREEMPT_FRAGMENT_RX. -/
def execPreemptFragmentRx (n : Fin 36) (frag : Fragment) (s : State) := s.onDev (·.fragment n.val frag)
/-- BEACON_RX. -/
def execBeaconRx (n : Fin 36) (s : State) := s.onDev (·.beaconRx n.val)
/-- BEACON_TIMEOUT. -/
def execBeaconTimeout (n : Fin 36) (s : State) := s.onDev (·.beaconTimeout n.val)
/-- C22_READ. -/
def execC22Read (d : CmdDesc) (phy : PhyReply) (s : State) := s.onDev (fun x => x.mdioCommand d 1 0x1F1F none (·.mdioRead d phy))
/-- C22_WRITE. -/
def execC22Write (d : CmdDesc) (s : State) := s.onDev (fun x => x.mdioCommand d 2 0xFFFF00001F1F (some kCommand) (·.mdioWrite d 0))
/-- C45_READ. -/
def execC45Read (d : CmdDesc) (phy : PhyReply) (s : State) := s.onDev (fun x => x.mdioCommand d 3 0xFFFF1F1F none (·.mdioRead d phy))
/-- C45_WRITE. -/
def execC45Write (d : CmdDesc) (s : State) :=
  s.onDev (fun x => x.mdioCommand d 4 0xFFFFFFFF1F1F (some kCommand) (·.mdioWrite d (fld d.p8 31 16)))
/-- LQ_SECOND_END. -/
def execLqSecondEnd (n : Fin 36) (s : State) := s.onDev (·.lqEnd n.val)

/-- MDIO_POLL. -/
def execMdioPoll (m : Fin 4) (k : Fin 8) (phy : PhyReply) (s : State) := s.onDev (·.mdioPoll m.val k.val phy)

end Sys2Proof.Machine
end

