-- ==== Sys2Proof/Machine/Crown.lean ====
section
/-! DEFINITION. Crown: the edits of a frame at transmission, eligibility, weighted fair queueing, shapers, selection and its
checks, launch time, and queue observation (R155, R213, R219 to R232, R244 to R250). -/
namespace Sys2Proof.Machine

/-! ## The frame as transmitted (R155, R133) -/

/-- One's complement addition of 16-bit words. -/
def add1s (a b : Nat) : Nat := if a + b > 0xFFFF then a + b - 0xFFFF else a + b

/-- Replace octets [at, at + n) by a number. -/
def putAt (o : List Byte) (at_ n v : Nat) : List Byte := if at_ + n ≤ o.length then o.take at_ ++ beBytes n v ++ o.drop (at_ + n) else o

/-- Rewrite the DSCP of an IP packet; the IPv4 header checksum follows. -/
def setDscp (o : List Byte) (dscp : Nat) : List Byte :=
  let i := 14 + 4 * (vlanTags o).1
  let et := beAt o (i - 2) 2
  if et = 0x0800 then
    let old := beAt o i 2
    let new := old / 256 * 256 + dscp * 4 + old % 4
    let sum := 0xFFFF - add1s (add1s (0xFFFF - beAt o (i + 10) 2) (0xFFFF - old)) new
    if i + 20 ≤ o.length then putAt (putAt o i 2 new) (i + 10) 2 sum else o
  else if et = 0x86DD then
    let old := beAt o i 2
    putAt o i 2 (old / 4096 * 4096 + dscp * 64 + old % 64)
  else o

/-- The tags and DSCP of a stored frame as port `p` sends it. A frame classified to no VLAN keeps its tags. -/
def Dev.edit (s : Dev) (p : Nat) (f : Stored) : List Byte :=
  let act := match f.rule with | some r => s.bough (r + 2) | none => 0
  let tci := outerTci f.octets
  let rest := f.octets.drop (if tci.isSome then 16 else 12)
  let pcp := if bit act 31 then fld act 30 28 else tci.getD 0 / 8192
  let dei := tci.getD 0 / 4096 % 2
  let tagged := if !f.vidValid then f.octets
    else if (s.vlan f.vid 1).getLsbD p then f.octets.take 12 ++ rest
    else f.octets.take 12 ++ beBytes 2 0x8100 ++ beBytes 2 (pcp * 8192 + dei * 4096 + f.vid) ++ rest
  if bit act 27 then setDscp tagged (fld act 26 21) else tagged

/-- Whether MACsec protects a frame on its port (R362). -/
def Dev.secures (s : Dev) (p inPort : Nat) (o : List Byte) : Bool :=
  p < 36 && s.rb (macsecReg p 0) 31 && !(inPort = 38 && s.uncontrolled p (innerType o))

/-- L of R230: the length on the wire, or as delivered to a host. -/
def Dev.wireLen (s : Dev) (p inPort : Nat) (o : List Byte) : Nat :=
  if p ≥ 36 then o.length else max 60 (o.length + if s.secures p inPort o then 32 else 0) + 4

/-- The time of `n` octets at a port's rate, in 1/256 ticks and in ticks, rounded up. -/
def Dev.octetRaw (s : Dev) (p n : Nat) : Nat := (n * 8 * 102400 + s.portRate p - 1) / s.portRate p
def Dev.octetTicks (s : Dev) (p n : Nat) : Nat := (n * 8 * 400 + s.portRate p - 1) / s.portRate p

/-! ## Heads and eligibility (R226) -/

/-- A frame at the head of a ready queue. -/
structure Head where
  q : Nat
  t : Nat
  d : Desc
  f : Stored
  octets : List Byte
  len : Nat
  deriving DecidableEq, Repr

/-- The heads of a port's ready queues, by queue number. -/
def Dev.heads (s : Dev) (p : Nat) : List Head :=
  (portQueues p).filterMap (fun q => match s.head q with
    | none => none
    | some d => match s.stored d.frame with
      | none => none
      | some f => let o := s.edit p f; some ⟨q, queueNo q, d, f, o, s.wireLen p f.inPort o⟩)

/-- Whether preemption is active on a port, and whether a class is then preemptable (R96). -/
def Dev.preemptOn (s : Dev) (p : Nat) : Bool := hasPreempt p && s.rb (portReg p 0x24) 3
def Dev.preemptable (s : Dev) (p t : Nat) : Bool := s.preemptOn p && s.rb (portReg p 0x20) t

/-- The egress stamp of a frame that starts now (R93, R94). -/
def Dev.startStamp (s : Dev) (p : Nat) : Nat := ((s.now + s.octetRaw p 7 : Int) + s.adj (portReg p 0x14)).toNat

/-- How late a launch-time frame would be if it started now, in 2^-16 ns of working time; negative before its launch. -/
def Dev.lateness (s : Dev) (p : Nat) (lt : Int) : Int := s.wtOf (s.startStamp p) - lt

/-- The ticks of the shortest non-final fragment of a frame of `len` octets, where it can be preempted (R235). -/
def Dev.fragTicks (s : Dev) (p len : Nat) : Option Nat :=
  let frag := 64 * (1 + s.rf (portReg p 0x20) 25 24)
  if len ≥ frag + 60 then some (s.octetTicks p (8 + frag)) else none

/-- Whether a frame that starts now ends, or can be preempted, within a raw span (R235). -/
def Dev.fitsIn (s : Dev) (p t len : Nat) (span : Int) : Bool :=
  let ok (d : Nat) : Bool := (d * 256 : Int) ≤ span
  ok (s.octetTicks p (8 + len)) || (s.preemptable p t && match s.fragTicks p len with | some d => ok d | none => false)

/-- The gate condition of R235. -/
def Dev.gateAllows (s : Dev) (p t len : Nat) : Bool :=
  s.gateOpen p t && match s.closeOf p t with
    | none => true
    | some c => s.fitsIn p t len (s.rawOf (c - s.wt))

/-- Whether a head frame can never start under its gate (R236). -/
def Dev.oversize (s : Dev) (p : Nat) (h : Head) : Bool :=
  p < 36 && s.portRate p ≠ 0 && match s.openRun p h.t with
    | none => false
    | some r => !s.fitsIn p h.t h.len (s.rawOf (r * tickUnits))

/-- Buckets of a dual-bucket queue now. -/
def Dev.committed (s : Dev) (q : Nat) : Int := let x := s.cqState q; filled x.c x.upd s.now (s.rf (cq q 4) 21 0) (s.rf (cq q 8) 23 0)
def Dev.peak (s : Dev) (q : Nat) : Int := let x := s.cqState q; filled x.p x.upd s.now (s.rf (cq q 0xC) 21 0) (s.rf (cq q 0x10) 23 0)

/-- CREDIT_C, the committed bucket or the credit, and CREDIT_P, in whole octets (R250). -/
def Dev.creditReg (s : Dev) (q : Nat) (c : Bool) : Nat :=
  (wholeOctets (if !c then s.peak q else if s.shaperMode q = 2 then s.creditNow q else s.committed q)).toNat

/-- The shaper's part of eligibility (R230, R231); none in SAFE (R521). -/
def Dev.shaperAllows (s : Dev) (q : Nat) : Bool :=
  s.safe || match s.shaperMode q with
    | 1 => s.rf (cq q 0xC) 21 0 = 0 || s.peak q ≥ 0
    | 2 => s.creditNow q ≥ 0
    | _ => true

/-- How the ring of a host queue meets its head frame: with too few posted buffers, or a malformed one, or enough of them; none
where its map is off or its ring does not run (R65), or a BAR0 write of the port has not taken effect, before which no descriptor
is read (R54). -/
def Dev.ringFill (s : Dev) (k : Nat) (h : Head) : Option (Nat × Fill) :=
  let m := s.basjo.reg (hostReg k (0x300 + 4 * h.t))
  let r := fld m 6 0
  if bit m 31 && s.basjo.ringRuns k r 2 && !s.heldWrite (k + 1) then some (r, fillBufs 256 h.octets.length (s.basjo.ring k r).posted) else none

/-- Whether the ring of a host queue has buffers posted for its whole head frame (R226, R65), or the frame would be dropped (R79). -/
def Dev.hostTakes (s : Dev) (k : Nat) (h : Head) : Bool :=
  s.hostDead k || match s.ringFill k h with | some (_, .fits _) => true | _ => false

/-- The rings of a host port whose posted buffers for a head frame are malformed stop (R57). -/
def Dev.probeRings (s : Dev) (p : Nat) : Dev :=
  if p < 36 || s.hostDead (p - 36) then s
  else (s.heads p).foldl (fun s h => match s.ringFill (p - 36) h with
    | some (r, .bad) => s.ringFault (p - 36) r false
    | _ => s) s

/-- The launch conditions of R244: not before its own S_L, in launch-time order, and not across another queue's fence. -/
def Dev.launchAllows (s : Dev) (p : Nat) (hs : List Head) (h : Head) : Bool :=
  let own := match h.f.launch with | some lt => s.lateness p lt ≥ 0 | none => true
  own && hs.all (fun x => x.q = h.q || match x.f.launch with
    | none => true
    | some lt =>
      (match h.f.launch with | some mine => decide (mine ≤ lt) | none => true)
        && (s.lateness p lt ≥ 0 || decide ((s.octetRaw p (20 + h.len) : Int) ≤ s.rawOf (- s.lateness p lt))))

/-- Whether a head is eligible (R226), and may start beside what the transmitter holds (R229, R237). -/
def Dev.eligible (s : Dev) (p : Nat) (hs : List Head) (h : Head) : Bool :=
  s.shaperAllows h.q && (if p ≥ 36 then s.hostTakes (p - 36) h else s.launchAllows p hs h && s.gateAllows p h.t h.len)

/-- A preemptable head may not start under a hold, nor while another preemptable frame is unfinished. -/
def Dev.mayStart (s : Dev) (p : Nat) (h : Head) : Bool :=
  !s.preemptable p h.t || (!(s.gate p).held && (s.crown.tx.get none p).isNone && (s.crown.paused.get none p).isNone)

/-! ## Weighted fair queueing (R227, R228) -/

/-- The virtual time of a port. -/
def Dev.vtime (s : Dev) (p : Nat) : Nat := s.crown.vtime.get 0 p

/-- Note which queues of a port are eligible under R226: one that has become so takes the larger of S and V. What the MAC holds
back is no part of it. -/
def Dev.noteEligible (s : Dev) (p : Nat) : Dev :=
  let hs := s.heads p
  let el := (hs.filter (fun h => s.eligible p hs h)).map (·.q)
  (portQueues p).foldl (fun s q =>
    let x := s.cqState q
    let e := el.contains q
    if e = x.was then s else s.setCq q (if e then { x with was := true, tag := max x.tag (s.vtime p) } else { x with was := false })) s

/-- Whether a queue's committed tier is open. -/
def Dev.tierOpen (s : Dev) (q : Nat) : Bool :=
  s.shaperMode q ≠ 1 || (s.rf (cq q 4) 21 0 ≠ 0 && s.committed q ≥ 0)

/-- The head with the lowest S, and of equals the lowest t. -/
def Dev.lowestTag (s : Dev) (l : List Head) : Option Head :=
  l.foldl (fun (a : Option Head) h => match a with
    | none => some h
    | some b => if (s.cqState h.q).tag < (s.cqState b.q).tag then some h else a) none

/-- The choice of R227 among eligible heads. -/
def Dev.choose (s : Dev) (l : List Head) : Option Head :=
  let strict (h : Head) : Bool := s.rb (cq h.q 0) 31
  match (l.filter strict).getLast? with
  | some h => some h
  | none =>
    let open_ := l.filter (fun h => s.tierOpen h.q)
    s.lowestTag (if open_.isEmpty then l else open_)

/-- What choosing a head does: both buckets are debited, and V and S move (R228, R230). -/
def Dev.charge (s : Dev) (p : Nat) (h : Head) : Dev :=
  let x := s.cqState h.q
  let cost : Int := (h.len + s.rf (crownReg p 0) 7 0 : Nat) * octetUnits
  let x := if s.shaperMode h.q = 1 ∧ !s.safe then { x with c := s.committed h.q - cost, p := s.peak h.q - cost, upd := s.now } else x
  if s.rb (cq h.q 0) 31 then s.setCq h.q x
  else
    let s := { s with crown := { s.crown with vtime := s.crown.vtime.put 0 p x.tag } }
    s.setCq h.q { x with tag := x.tag + h.len * 256 / max 1 (s.rf (cq h.q 0) 7 0) }

/-! ## Selection (R213, R229, R244, R245, R557) -/

/-- GATE_ERR (R243). -/
def Dev.gateErr (s : Dev) (p cause : Nat) : Dev := s.raise 26 cause 0x21 p 0 0

/-- Drop an oversize head (R236). -/
def Dev.dropOversize (s : Dev) (p : Nat) (h : Head) : Dev :=
  (s.dropHead h.q h.d (crownReg p 0x60)).raiseRated 26 2 0x21 p 0 msRaw (fun n => h.t * 65536 + min n 0xFFFF) (fun _ => 0)

/-- TX_LAUNCH_LATE, to the host port of the frame's IN_PORT (R245). -/
def Dev.launchLate (s : Dev) (p : Nat) (h : Head) (late : Int) : Dev :=
  if h.f.inPort ≠ 36 ∧ h.f.inPort ≠ 37 then s
  else s.rated (rateKey 4 1 0x21 p 0) msRaw (fun n s =>
    s.raiseAt (h.f.inPort - 36) 4 1 0x21 p (h.t * 65536 + min n 0xFFFF) (min (late / 65536).toNat (2 ^ 64 - 1)))

/-- The first check a chosen frame fails, as the state after its drop. -/
def Dev.dropChecked (s : Dev) (p : Nat) (h : Head) : Option Dev :=
  let late : Int := match h.f.launch with | some lt => if p < 36 then s.lateness p lt else 0 | none => 0
  if p < 36 && !(s.portUp p && s.portPowered p) then some (s.dropHead h.q h.d (portReg p 0x138))
  else if 36 ≤ p && s.hostDead (p - 36) then some (((s.takeHead h.q h.d).release h.d.frame).rxDrop (p - 36) h.t 1)
  else if s.stale h.f then some (s.dropStale h.q h.d h.f 1)
  else if late > s.rf (crownReg p 4) 23 0 * 65536 then some ((s.dropHead h.q h.d (crownReg p 0x64)).launchLate p h late)
  else if p < 36 && s.mode = 5 && !s.rb (if p < 32 then updReg 0x100 else updReg 0x104) (p % 32) then
    some (s.dropHead h.q h.d (updReg 0x108))
  else none

/-- The octets of a frame sent where its fragment ends now, or, with `last`, at the last such point before: the fragment, its check
included, has at least 64 × (1 + ADD_FRAG) octets, and at least 64 follow (R96, R235). -/
def Dev.cutAt (s : Dev) (p : Nat) (x : TxRun) (last : Bool) : Option Nat :=
  let e := (s.now - x.since) * s.portRate p / 819200
  let m := if last then min (e - 12) (x.len - x.sent - 64) else e - 12
  if 12 ≤ e ∧ 64 * (1 + s.rf (portReg p 0x20) 25 24) ≤ m + 4 ∧ x.sent + m + 64 ≤ x.len then some (x.sent + m) else none

/-- A preemptable frame whose gate has closed is preempted at its last valid point before, one under a hold at its next (R235,
R237); SAFE lets it end (R89). -/
def Dev.preemptDue (s : Dev) (p : Nat) : Dev :=
  match s.crown.tx.get none p with
  | none => s
  | some x =>
    let closed := !s.gateOpen p (queueNo x.queue)
    if s.safe || !x.preemptable || !s.preemptOn p || !(closed || (s.gate p).held) then s
    else match s.cutAt p x closed with | some k => s.preempt p k | none => s

/-- A frame that has met every check starts; the MAC pads it with zeros to 60 octets (R59). -/
def Dev.startTx (s : Dev) (p : Nat) (h : Head) (wire : List Byte) : Dev :=
  let s := s.creditPort p
  let pre := s.preemptable p h.t
  let stamp := s.startStamp p
  let s := match s.crown.tx.get none p with | some x => s.preempt p ((s.cutAt p x false).getD x.sent) | none => s
  let s := s.takeHead h.q h.d
  let s := if p < 36 then s.count (cq h.q 0x1C) else s
  let wire := if p < 36 then wire ++ zeros (60 - wire.length) else wire
  let s := if p < 36 && h.f.launch.isSome then s.count (crownReg p 0x68) else s
  let s := if pre then s.count (portReg p 0x148) else s
  let s := if h.f.spoiled then s.count (trunkReg 0x48) else s
  let s := { s with crown := { s.crown with tx := s.crown.tx.put none p (some ⟨h.q, h.d.seq, h.d.frame, h.d.reason, wire, h.len, h.f.spoiled, pre, false, stamp, 0, s.now⟩) } }
  if p < 36 then s.txts p (innerType h.octets) (h.octets.drop (14 + 4 * (vlanTags h.octets).1)) stamp else s

/-- Whether the pipes in service can carry a protected frame of port `p` at its full data rate beside every port that validates
what it receives and every protected frame being sent (R354, R356; DEDUCED, log entry 66). -/
def Dev.pipesFree (s : Dev) (p : Nat) : Bool :=
  let sends (n : Nat) : Bool := [s.crown.tx.get none n, s.crown.paused.get none n].any (fun r => match r with
    | some x => s.burl.uses.any (fun u => u.owner = txUse n x.frame) | none => false)
  let load := (List.range 36).foldl (fun a n =>
    a + (if s.portUp n && s.rb (macsecReg n 0) 30 then s.portRate n else 0) + (if n ≠ p && sends n then s.portRate n else 0)) 0
  load + s.portRate p ≤ 102400 * popCount (BitVec.ofNat 7 (s.rf (burlReg 0) 6 0))

/-- One selection: heads are dropped and the next chosen until one starts or none is eligible. `k` bounds the drops. -/
def Dev.select (s : Dev) (p : Nat) : Nat → Dev
  | 0 => s
  | k + 1 =>
    match (s.heads p).find? (s.oversize p) with
    | some h => (s.dropOversize p h).select p k
    | none =>
      let s := s.noteEligible p
      let hs := s.heads p
      let el := hs.filter (fun h => s.eligible p hs h && s.mayStart p h)
      let express := el.filter (fun h => !s.preemptable p h.t)
      let busy := (s.crown.tx.get none p).isSome
      match (match s.choose express with | some h => some h | none => if busy then none else s.choose el) with
      | none => if !busy && !(s.gate p).held && (match s.crown.paused.get none p with
            | some x => s.gateOpen p (queueNo x.queue) || s.draining p | none => false) then s.resume p else s
      | some h =>
        if s.secures p h.f.inPort h.octets && !s.pipesFree p then s
        else
        let s := s.charge p h
        match s.dropChecked p h with
        | some s => s.select p k
        | none =>
          match (if p < 36 then s.secTx p h.f.inPort (txUse p h.d.frame) h.octets else (.plain, s)) with
          | (.drop, s) => (s.dropHead h.q h.d (macsecReg p 0x34)).select p k
          | (.plain, s) => (s.startTx p h h.octets).noteEligible p
          | (.secured o, s) => (s.startTx p h o).noteEligible p

/-- The host queue whose chosen frame Basjo is to write, and the ring it goes to. -/
def Dev.chosenRing (s : Dev) (h : Nat) : Option (TxRun × Nat × Nat) :=
  (s.crown.tx.get none (36 + h)).map (fun x => (x, queueNo x.queue, s.basjo.rf (hostReg h (0x300 + 4 * queueNo x.queue)) 6 0))

/-- A chosen frame whose ring has stopped, or whose queue no longer delivers to it, is held in Crown again (R65): it stands at the head
of its queue as before; what its choice moved in Crown stays moved (DESIGN CHOICE, log entry 15). -/
def Dev.unchoose (s : Dev) (h : Nat) : Dev :=
  match s.chosenRing h with
  | none => s
  | some (x, t, r) =>
    let b := s.basjo
    if b.rb (hostReg h (0x300 + 4 * t)) 31 && b.ringActive h r && b.ringType h r = 2 && !(b.ring h r).stopped then s
    else
      let s : Dev := { s with crown := { s.crown with tx := s.crown.tx.put none (36 + h) none } }
      let q := s.tq x.queue
      let s := (s.setTq x.queue { q with descs := ⟨x.seq, x.frame, x.reason, .chip, false, 0⟩ :: q.descs }).setNext x.queue x.seq
      ((s.takeDesc).settle x.queue).noteEligible (36 + h)

/-- CROWN_SELECT: the port can start a new transmission, or offers an express frame at a point where the preemptable frame being sent
can be preempted (R229). A port without power selects too, and drops (R479). -/
def Dev.crownSelect (s : Dev) (p : Nat) : Dev :=
  if !portPresent s.variant p || (p < 36 && s.txQuiet p) then s
  else
    let s := (s.preemptDue p).probeRings p
    let s := if p < 36 then s else s.unchoose (p - 36)
    let busy := match s.crown.tx.get none p with
      | some x => !(x.preemptable && s.preemptOn p && (s.cutAt p x false).isSome)
      | none => false
    if busy then s else s.select p (((portQueues p).foldl (fun a q => a + (s.tq q).descs.length) 0) + 1)

/-- A frame's transmission on an Ethernet port ends (R35, R192), with the collisions it met in CSMA/CD mode (R106). -/
def Dev.txComplete (s : Dev) (p coll : Nat) : Dev :=
  match s.crown.tx.get none p with
  | none => s
  | some x =>
    let s := s.creditPort p
    let s := { s with crown := { s.crown with tx := s.crown.tx.put none p none }, out := .frame p x.octets (!x.badFcs) x.start :: s.out }
    let s := (((s.release x.frame).endUse (txUse p x.frame)).count64 (portReg p 0x110) 1).count64 (portReg p 0x118) x.len
    let s := if 28 ≤ p && !s.plcaEn p then s.count (portReg p 0x154) coll else s
    (s.quietBit p).noteEligible p

/-! ## Shaper parameters (R232) -/

/-- Reset a queue's buckets. -/
def Dev.resetBuckets (s : Dev) (q : Nat) : Dev :=
  let x := s.cqState q
  let full := s.rb (cq q 0) 30
  let b (r : Nat) : Int := if full then s.rf (cq q r) 23 0 * octetUnits else 0
  s.setCq q { x with c := if s.shaperMode q = 2 then 0 else b 8, p := b 0x10, upd := s.now }

/-- The offset of a shaper register. -/
def shaperOff : ShaperReg → Nat | .qsched => 0 | .cir => 4 | .cbs => 8 | .pir => 0xC | .pbs => 0x10

/-- A write of a shaper register of queue `q`. -/
def Dev.shaperWrite (s : Dev) (q : Nat) (r : ShaperReg) (v : Word) : Dev :=
  let s := s.creditTouch q
  match r with
  | .qsched =>
    let old := s.shaperMode q
    let want := fld v 25 24
    let mode := if want = 3 || (want = 2 && (queuePort q ≥ 36 || s.rf (cq q 4) 21 0 = 0)) then old else want
    let s := s.setReg (cq q 0) (setFld (v &&& 0xC00000FF) 25 24 mode)
    if mode = old then s else s.resetBuckets q
  | .cir | .pir => if fld v 21 0 > 3125000 then s else (s.setReg (cq q (shaperOff r)) (v &&& 0x3FFFFF)).resetBuckets q
  | .cbs | .pbs => if fld v 23 0 = 0 then s else (s.setReg (cq q (shaperOff r)) (v &&& 0xFFFFFF)).resetBuckets q

/-! ## Queue observation (R247 to R249) -/

/-- A queue's samples. -/
def Dev.qhist (s : Dev) (q : Nat) : QHist := s.crown.hist.get ⟨[], []⟩ q
def Dev.setHist (s : Dev) (q : Nat) (h : QHist) : Dev := { s with crown := { s.crown with hist := s.crown.hist.put ⟨[], []⟩ q h } }

/-- A sample of a queue now. -/
def Dev.sampleOf (s : Dev) (q : Nat) : QSample where
  tick := s.tick
  octets := min ((s.tq q).descs.foldl (fun a d => a + s.descLen d) 0) 0xFFFFFFFF
  frames := min (s.tq q).descs.length 0xFFFF
  age := match (s.tq q).descs.find? (fun d => d.seq = s.nextSeq q) with
    | some d => (match s.stored d.frame with | some f => min ((s.tick - f.stamp / 256) / 4) 0xFFFFFFFF | none => 0)
    | none => 0

/-- The minimum, maximum and mean of a list. -/
def stats (l : List Nat) : Nat × Nat × Nat := (l.foldl min (l.headD 0), l.foldl max 0, l.foldl (· + ·) 0 / max 1 l.length)

/-- Sample one queue; a full window updates its S_ registers. -/
def Dev.sampleQueue (s : Dev) (p q : Nat) : Dev :=
  let h := s.qhist q
  let x := s.sampleOf q
  let win := h.win ++ [x]
  let last := (x :: h.last).take 64
  if win.length < max 1 (s.rf (crownReg p 0x50) 15 0) then s.setHist q ⟨last, win⟩
  else
    let put (s : Dev) (a v : Nat) : Dev := s.setReg a (BitVec.ofNat 32 v)
    let o := stats (win.map (fun (y : QSample) => y.octets))
    let f := stats (win.map (fun (y : QSample) => y.frames))
    let a := stats (win.map (fun (y : QSample) => y.age))
    let s := put (put (put (s.setHist q ⟨last, []⟩) (cq q 0x20) o.1) (cq q 0x24) o.2.1) (cq q 0x28) o.2.2
    let s := put (put (put s (cq q 0x2C) f.1) (cq q 0x30) f.2.1) (cq q 0x34) f.2.2
    put (put (put s (cq q 0x38) a.2.1) (cq q 0x3C) a.2.2) (crownReg p (0xA00 + 4 * queueNo q)) a.1

/-- The length of a sampling period in ticks. -/
def Dev.samplePeriod (s : Dev) (p : Nat) : Nat := 400 * s.rf (crownReg p 0x54) 19 0

/-- QUEUE_SAMPLE_TICK: a whole multiple of SAMPLE_PERIOD has come since the last sample, or since EN rose. -/
def Dev.sampleTick (s : Dev) (p : Nat) : Dev :=
  if !portPresent s.variant p || !s.rb (crownReg p 0x50) 31 || s.tick / s.samplePeriod p ≤ s.crown.sampleAt.get 0 p / s.samplePeriod p then s
  else
    let s := { s with crown := { s.crown with sampleAt := s.crown.sampleAt.put 0 p s.tick } }
    let ends : Bool := match portQueues p with
      | q :: _ => decide ((s.qhist q).win.length + 1 ≥ max 1 (s.rf (crownReg p 0x50) 15 0))
      | [] => false
    let s := (portQueues p).foldl (fun s q => s.sampleQueue p q) s
    if !ends || !s.rb (crownReg p 0x50) 30 then s
    else
      let oct (q : Nat) : Nat := (s.reg (cq q 0x24)).toNat
      let best := (portQueues p).foldl (fun a q => if oct q > oct a then q else a) ((portQueues p).headD 0)
      s.raise 27 1 0x21 p (queueNo best) ((s.reg (cq best 0x38)).toNat * 2 ^ 32 + oct best)

/-- The history and the window of every queue of a port clear (R247). -/
def Dev.clearSamples (s : Dev) (p : Nat) : Dev :=
  (portQueues p).foldl (fun s q => s.setHist q ⟨[], []⟩)
    { s with crown := { s.crown with sampleAt := s.crown.sampleAt.put 0 p (s.tick - 1) } }

/-- SAMPLE_CTL.EN rises. -/
def Dev.sampleEnable (s : Dev) (p : Nat) : Dev :=
  if s.rb (crownReg p 0x50) 31 then s else (s.setRb (crownReg p 0x50) 31 true).clearSamples p

/-- QSAMPLE_READ (R248). -/
def Dev.qsampleRead (s : Dev) (d : CmdDesc) (err : Bool) : CmdRes :=
  let t := fld d.p16 4 0
  if d.p8.toNat % 8 ≠ 0 ∨ (d.un < 36 ∧ t > 7) then .fail s stBadParam
  else
    let l := (s.qhist (queueOf d.un t)).last.reverse
    let o := l.flatMap (fun (x : QSample) => leBytes 8 x.tick ++ leBytes 4 x.octets ++ leBytes 4 x.frames ++ leBytes 4 x.age ++ zeros 4)
    if err && !l.isEmpty then .done (s.dmaFail d.host.val) stDmaErr 0 0
    else .done (s.hostWrite d.host.val (hostAddr d.p8) o) stOk l.length 0

/-! ## The meanings -/

/-- TRANSMISSION_COMPLETE. -/
def execTransmissionComplete (p : Fin 36) (coll : Nat) (s : State) := s.onSettling (·.txComplete p.val coll)
/-- LAUNCH_TIME_REACHED. -/
def execLaunchTimeReached (n : Fin 36) (t : Fin 8) (s : State) :=
  s.onDev (fun x => if portPresent x.variant n.val && (match x.head (queueOf n.val t.val) with
    | some d => (match x.stored d.frame with | some f => f.launch.isSome | none => false) | none => false)
    then x.noteEligible n.val else x)
/-- SHAPER_PARAM_WRITE. -/
def execShaperParamWrite (a : Acc) (p : Fin 38) (t : Fin 32) (reg : ShaperReg) (value : BitVec 32) (s : State) :=
  s.onDev (fun x => if p.val < 36 && t.val ≥ 8 then x
    else x.writeField a (crownQ p.val t.val (shaperOff reg)) value (·.shaperWrite (queueOf p.val t.val) reg value))
/-- QUEUE_SAMPLE_TICK. -/
def execQueueSampleTick (p : Fin 38) (s : State) := s.onDev (·.sampleTick p.val)
/-- SAMPLE_ENABLE. -/
def execSampleEnable (a : Acc) (p : Fin 38) (s : State) := s.onDev (fun x => x.writeEn a (crownReg p.val 0x50) true (·.sampleEnable p.val))
/-- QSAMPLE_READ. -/
def execQsampleRead (d : CmdDesc) (err : Bool) (s : State) :=
  s.onDev (fun x => x.command d (isOne 0x21) (fun u => u < 38) 1 [all64, 0x1F, 0, 0, 0] none (·.qsampleRead d err))

end Sys2Proof.Machine
end

