-- ==== Sys2Proof/Machine/Basjo.lean ====
section
/-! DEFINITION. The host interface: doorbells, rings, transmit and receive descriptors, vectors, pop queues, and the loss and
reset of a host port (R45 to R79). -/
namespace Sys2Proof.Machine

/-! ## The endpoint (R41) -/

/-- What a host port is on its link: sizes in octets, the link as generation and lanes, the Max Payload and Max Read Request sizes. -/
structure Endpoint where
  vendor : BitVec 16
  device : Nat
  classCode : Nat
  functions : Nat
  bar0 : Nat
  bar2 : Nat
  linkGen : Nat
  linkWidths : List Nat
  vectors : Nat
  maxPayload : List Nat
  maxRead : Nat
  tags : Nat
  aspmL1 : Bool
  aspmL0s : Bool
  deriving DecidableEq, Repr

/-- The endpoint of host port `h`. -/
def pcieEndpoint (h : Nat) : Endpoint where
  vendor := Config.pciVendor
  device := 0x72 + h
  classCode := 0x028000
  functions := 1
  bar0 := 64 * 2 ^ 20
  bar2 := 2 ^ 20
  linkGen := 4
  linkWidths := [4, 2, 1]
  vectors := 64
  maxPayload := [128, 256, 512]
  maxRead := 4096
  tags := 256
  aspmL1 := true
  aspmL0s := false

/-! ## Ring control (R50 to R57) -/

/-- The outstanding entries of a TX, RX or CMD ring. -/
def Basjo.outstanding (b : Basjo) (h r : Nat) : Nat := dist32 (b.devIdx h r) (b.hostIdx h r)

/-- The EVT rings of a port that are enabled. -/
def Basjo.evtCount (b : Basjo) (h : Nat) : Nat := (List.range 128).countP (fun r => b.ringEnabled h r && b.ringType h r = 4)

/-- Whether a ring's settings let ENABLE rise (R50). -/
def Basjo.ringValid (b : Basjo) (h r : Nat) : Bool :=
  let t := b.ringType h r
  let l := b.rf (ringReg h r 0x10) 20 16
  1 ≤ t && t ≤ 4 && 6 ≤ l && l ≤ 16 && !(t = 4 && b.evtCount h ≥ 16)

/-- ENABLE rises (R56): indices, sequence number and LOST start at zero. -/
def Dev.ringOn (s : Dev) (h r : Nat) : Dev :=
  let b := s.basjo
  if b.ringEnabled h r then s
  else if !b.ringValid h r then s.onBasjo (fun b => b.setRf (ringReg h r 0x1C) 3 3 1)
  else s.onBasjo (fun b =>
    let b := (((b.setRf (ringReg h r 0x10) 31 31 1).setReg (ringReg h r 0x14) 0).setReg (ringReg h r 0x18) 0).setReg (ringReg h r 0x20) 0
    let b := (b.setRing h r .idle).setActive h r (b.rb (hostReg h 0) 0)
    { b with dead := b.dead.put false h false }) |>.noteEligible (36 + h)

/-- Whether a draining ring has finished its work (R56). -/
def Dev.ringDone (s : Dev) (h r : Nat) : Bool :=
  let b := s.basjo
  let x := b.ring h r
  match b.ringType h r with
  | 1 => match x.descs.getLast? with
    | none => !x.rejecting || b.outstanding h r = 0
    | some d => !bit d.w8 16 && b.outstanding h r ≤ x.descs.length
  | 2 => (match s.chosenRing h with | some (_, _, r') => r' ≠ r | none => true) || x.posted.isEmpty
  | 3 => x.running.isNone && (x.stopped || b.outstanding h r = 0)
  | _ => true

/-- A draining ring stops (R56): ACTIVE falls, and a frame not read to its EOP is discarded. -/
def Dev.ringStop (s : Dev) (h r : Nat) : Dev :=
  let b := s.basjo
  if !b.ringActive h r || (b.ringEnabled h r && b.rb (hostReg h 0) 0) || !s.ringDone h r then s
  else ((s.onBasjo (fun b => (b.setRing h r { b.ring h r with descs := [], rejecting := false, waiting := none, posted := [] }).setActive
    h r false)).unchoose h).noteEligible (36 + h)

/-! ## Doorbells (R52, R53) -/

/-- Whether a doorbell's value keeps the limits of R52. -/
def Basjo.doorbellOk (b : Basjo) (h r : Nat) (v : Word) : Bool :=
  if b.ringType h r = 4 then dist32 (b.hostIdx h r) v ≤ dist32 (b.hostIdx h r) (b.devIdx h r)
  else dist32 (b.hostIdx h r) v ≤ b.ringSize h r && dist32 (b.devIdx h r) v ≤ b.ringSize h r

/-- The buffers a doorbell of a receive ring posts: as many as it moves the host index on (R62); one the driver has not described
breaks the rules of R62. -/
def postedBufs (k : Nat) (l : List RxBuf) : List RxBuf := (l ++ List.replicate k (⟨0, 0⟩ : RxBuf)).take k

/-- A doorbell of a host port, with what the driver has written into the receive descriptors it posts (R54). It is taken while
RINGS_EN is 0 as well: R53 asks for ENABLE alone (DESIGN CHOICE, log entry 15). -/
def Dev.doorbell (s : Dev) (h r : Nat) (v : Word) (posted : List RxBuf) : Dev :=
  let b := s.basjo
  if !(hostPorts s.variant).contains h then s
  else if !s.permitted 0 (h + 1) 1 then s.denied (h + 1) 1 h 0 0 (leBytes 4 (b.hostIdx h r).toNat) (leBytes 4 v.toNat)
  else if !b.ringEnabled h r || v = b.hostIdx h r then s
  else if b.doorbellOk h r v then s.onBasjo (fun b =>
    let x := b.ring h r
    (if b.ringType h r = 2 then b.setRing h r { x with posted := x.posted ++ postedBufs (dist32 (b.hostIdx h r) v) posted } else b).setReg
      (ringReg h r 0x14) v) |>.noteEligible (36 + h)
  else
    let s := s.onBasjo (fun b => (b.setRf (ringReg h r 0x1C) 2 2 1).count (hostReg h 0x10))
    s.raiseAt h 5 1 1 h r v.toNat

/-! ## Transmit rings (R58 to R61, R474) -/

/-- The number a ring's state is kept under; Canopy's shared SRAM stands as port 2. -/
def TxSource.key : TxSource → Nat × Nat | .host h r => (h.val, r.val) | .canopy r => (2, r.val)

/-- A transmit ring's indices, size and base. -/
def Dev.txHost (s : Dev) : TxSource → Word | .host h r => s.basjo.hostIdx h.val r.val | .canopy r => s.reg (sptReg r.val 0xC)
def Dev.txDev (s : Dev) : TxSource → Word | .host h r => s.basjo.devIdx h.val r.val | .canopy r => s.reg (sptReg r.val 0x10)
def Dev.txSize (s : Dev) : TxSource → Nat
  | .host h r => s.basjo.ringSize h.val r.val
  | .canopy r => 2 ^ s.rf (sptReg r.val 0) 20 16
def Dev.txBase (s : Dev) : TxSource → Nat
  | .host h r => s.basjo.ringBase h.val r.val
  | .canopy r => s.rf (sptReg r.val 4) 21 6 * 64

/-- A transmit ring beside its registers. -/
def Dev.txRing (s : Dev) (src : TxSource) : RingRun := s.basjo.ring (TxSource.key src).1 (TxSource.key src).2
def Dev.setTxRing (s : Dev) (src : TxSource) (x : RingRun) : Dev := s.onBasjo (fun b => b.setRing (TxSource.key src).1 (TxSource.key src).2 x)

/-- Whether a transmit ring starts frames, and whether it goes on with the frame it is in. -/
def Dev.txRuns (s : Dev) : TxSource → Bool
  | .host h r => s.basjo.ringRuns h.val r.val 1
  | .canopy r => s.rb (sptReg r.val 0) 31 && (s.split || r.val < 2) && !(s.basjo.ring 2 r.val).stopped
def Dev.txDrains (s : Dev) : TxSource → Bool
  | .host h r => s.basjo.ringActive h.val r.val && s.basjo.ringType h.val r.val = 1 && !(s.basjo.ring h.val r.val).stopped
  | .canopy r => s.txRuns (.canopy r)

/-- A transmit ring stops at an entry; Canopy's rings have no status and no event. -/
def Dev.txFault (s : Dev) (src : TxSource) (dma : Bool) : Dev :=
  match src with
  | .host h r => s.ringFault h.val r.val dma
  | .canopy r => s.onBasjo (fun b => b.setRing 2 r.val { b.ring 2 r.val with stopped := true })

/-- Write STATUS and DONE into the next `n` descriptors and advance the device index past them (R61, R55). -/
def Dev.txWriteBack (s : Dev) (src : TxSource) (n st : Nat) : Dev :=
  let dev := s.txDev src
  let at_ (i : Nat) : Nat := s.txBase src + 32 * ((dev.toNat + i) % s.txSize src) + 24
  let mem := (List.range n).foldl (fun (b : Basjo) i => b.store (TxSource.key src).1 (at_ i) (leBytes 8 (256 + st))) s.basjo
  let s := { s with basjo := mem }
  match src with
  | .host h r => s.onBasjo (fun b => b.advance h.val r.val n)
  | .canopy r =>
    let i := dev + BitVec.ofNat 32 n
    (s.setReg (sptReg r.val 0x10) i).onBasjo (fun b => b.store 2 (s.rf (sptReg r.val 8) 21 2 * 4) (leBytes 4 i.toNat))

/-- Whether a TX ring waits for a turn (R58). -/
def Dev.txWaits (s : Dev) (h r : Nat) : Bool :=
  let x := s.basjo.ring h r
  s.basjo.ringRuns h r 1 && x.descs.isEmpty && !x.rejecting && s.basjo.outstanding h r > 0

/-- Turns left in this round. -/
def Dev.turnsLeft (s : Dev) (h r : Nat) : Bool := (s.basjo.ring h r).turns ≤ s.basjo.rf (ringReg h r 0x10) 27 24

/-- Ring `r` takes a turn, where the weighted round robin of R58 gives it one; a new round starts when no ring that waits
has a turn left. The order of the turns within a round is not stated: any ring with a turn left may take it. -/
def Dev.takeTurn (s : Dev) (h r : Nat) : Option Dev :=
  let use (s : Dev) : Dev := s.onBasjo (fun b => b.setRing h r { b.ring h r with turns := (b.ring h r).turns + 1 })
  if s.turnsLeft h r then some (use s)
  else if (List.range 128).any (fun k => s.txWaits h k && s.turnsLeft h k) then none
  else some (use (s.onBasjo (fun b => (List.range 128).foldl (fun b k =>
    if (b.ring h k).turns = 0 then b else b.setRing h k { b.ring h k with turns := 0 }) b)))

/-- Fields of a transmit descriptor (R59). -/
def TxDesc.eop (d : TxDesc) : Bool := bit d.w8 16
def TxDesc.length (d : TxDesc) : Nat := fld d.w8 15 0
def TxDesc.malformed (d : TxDesc) : Bool := fld d.w8 63 18 ≠ 0 || fld d.w24 63 9 ≠ 0

/-- The device has read a descriptor of a frame, or of a frame it rejects (R61). With the first one the frame takes its place in
ingress order and its stamp (R58), and its launch time from the working time now (R60). A write-back of a rejected frame that fails
stops the ring (R57). -/
def Dev.txAccept (s : Dev) (src : TxSource) (d : TxDesc) (wbErr : Bool) : Dev :=
  let x := s.txRing src
  let rejected (n : Nat) : Dev :=
    if wbErr then s.txFault src true
    else (s.txWriteBack src n stBadParam).setTxRing src { x with descs := [], rejecting := !TxDesc.eop d }
  if x.rejecting then rejected 1
  else
    let ds := x.descs ++ [d]
    let x := if !x.descs.isEmpty then x else { x with
      stamp := s.now, order := s.basjo.order
      launch := if bit d.w8 17 then some (extendSec 32 (fld d.w16 63 32) (fld d.w16 31 0 * 65536) s.wt) else none }
    let full : Bool := ds.length = 64 && s.txSize src = 64 || ds.length = s.txSize src && s.txSize src < 64
    if ds.length > 64 || full && !TxDesc.eop d
    then rejected ds.length
    else (if ds.length = 1 then s.onBasjo (fun b => { b with order := b.order + 1 }) else s).setTxRing src { x with descs := ds }

/-- The origin whose writes come before what a ring's descriptors say (R54). -/
def TxSource.origin : TxSource → Nat | .host h _ => h.val + 1 | .canopy _ => 11

/-- The next descriptor of a transmit ring is read. -/
def Dev.txDescRead (s : Dev) (src : TxSource) (d : TxDesc) (err wbErr : Bool) : Dev :=
  let x := s.txRing src
  let first := x.descs.isEmpty && !x.rejecting
  let whole : Bool := match x.descs.getLast? with | some l => TxDesc.eop l | none => false
  if whole || s.heldWrite (TxSource.origin src) || dist32 (s.txDev src) (s.txHost src) ≤ x.descs.length || !(if first then s.txRuns src else s.txDrains src) then s
  else match (if first then (match src with | .host h r => s.takeTurn h.val r.val | .canopy _ => some s) else some s) with
    | none => s
    | some s => if err then s.txFault src true else if TxDesc.malformed d then s.txFault src false else s.txAccept src d wbErr

/-- Why a frame read to its EOP is rejected (R59, R61, R474). Where both codes apply the model gives BAD_PARAM
(DESIGN CHOICE, log entry 15). -/
def txReject (src : TxSource) (ds : List TxDesc) : Option Nat :=
  let total := ds.foldl (fun a d => a + TxDesc.length d) 0
  let first := ds.headD ⟨0, 0, 0, 0⟩
  let launch := bit first.w8 17
  let canopy : Bool := match src with | .canopy _ => true | .host .. => false
  if ds.any (fun d => TxDesc.length d = 0 || TxDesc.length d > 16384) || total < 14
    || launch && (canopy || fld first.w16 31 0 > 999999999) then some stBadParam
  else if total > 16380 then some stTooLong
  else none

/-- Whether a frame of the same host port took its place before the one of a ring, and is still being read (R37, R58): one that a ring
in drain will discard is not (R56). -/
def Dev.txBehind (s : Dev) (src : TxSource) : Bool :=
  let h := (TxSource.key src).1
  let mine := s.txRing src
  s.basjo.rings.any (fun e => e.1 / 128 = h && !e.2.descs.isEmpty && !e.2.rejecting && decide (e.2.order < mine.order)
    && (h = 2 || (s.basjo.ringEnabled h (e.1 % 128) && s.basjo.rb (hostReg h 0) 0) || !s.ringDone h (e.1 % 128)))

/-- A frame of a transmit ring has been read whole, or is rejected (R61); a frame waits for those before it at its port (R37), for
its port's reception and for cells (R188). Data that is not as long as the descriptors say has not been read whole (R34). A failed
write-back stops the ring (R57). -/
def Dev.txFrameDone (s : Dev) (src : TxSource) (octets : List Byte) (err wbErr : Bool) : Dev :=
  let x := s.txRing src
  let whole : Bool := match x.descs.getLast? with | some l => TxDesc.eop l | none => false
  if !whole || !s.txDrains src then s
  else
    let total := x.descs.foldl (fun a d => a + TxDesc.length d) 0
    let end_ (s : Dev) (st : Nat) : Dev :=
      if wbErr then (s.setTxRing src { x with descs := [] }).txFault src true
      else (s.txWriteBack src x.descs.length st).setTxRing src { x with descs := [] }
    match txReject src x.descs with
    | some st => end_ s st
    | none =>
      let h := (TxSource.key src).1
      if err || octets.length ≠ total then end_ (match src with | .host .. => s.onBasjo (fun b => b.count (hostReg h 0x1C)) | .canopy _ => s) stDmaErr
      else
        let p := 36 + h
        if (s.rxOf p).isSome || !s.canTake p (cellsOf total) || s.txBehind src then s
        else
          let group := match src with | .host h r => s.basjo.rf (ringReg h.val r.val 0x24) 3 0 | .canopy _ => 0
          end_ (s.receive p octets total x.stamp group x.launch) stOk

/-! ## Receive rings (R62 to R64, R473) -/

/-- Offsets 8 to 31 of a receive descriptor written back (R62): `meta_` holds the SOP fields above bit 35 of offset 8,
`ts` offset 16, `last` offset 24. TS_VALID is 1 on every SOP buffer, whatever WT_LIVE reads, and 0 on the others; when it is
0 the manual does not say (DESIGN CHOICE, log entry 15). -/
def rxWords (sop eop : Bool) (b : RxBuf) (frag meta_ ts last : Nat) : List Byte :=
  let base := b.len.toNat + 2 ^ 16 * frag + 2 ^ 32 + (if sop then 2 ^ 33 else 0) + (if eop then 2 ^ 34 else 0)
  if sop then leBytes 8 (base + 2 ^ 35 * (1 + 2 * meta_)) ++ leBytes 8 ts ++ leBytes 8 last
  else leBytes 8 base ++ zeros 16

/-- The SOP fields of a stored frame, from VER up: VER, REASON, IN_PORT, COLOUR, QUEUE. -/
def Stored.rxMeta (f : Stored) (reason queue : Nat) : Nat :=
  f.tag.getD 0 + 4 * reason + 16 * f.inPort + 1024 * f.colour + 4096 * queue

/-- Offset 24 but for its low word: stream and VLAN. -/
def Stored.rxLast (f : Stored) : Nat :=
  (match f.stream with | some n => 2 ^ 32 * n + 2 ^ 46 | none => 0) + (if f.vidValid then 2 ^ 48 * (f.vid % 4096) + 2 ^ 60 else 0)

/-- Write a frame into buffers of memory `h` and their descriptors back: `at_ i` is the address of the i-th entry. -/
def Basjo.writeFrame (b : Basjo) (h : Nat) (at_ : Nat → Nat) (meta_ ts last n : Nat) : Nat → List (RxBuf × Nat) → List Byte → Basjo
  | _, [], _ => b
  | i, (x, k) :: r, o =>
    ((b.store h x.addr.toNat (o.take k)).store h (at_ i + 8) (rxWords (i = 0) (i + 1 = n) x k meta_ ts last)).writeFrame
      h at_ meta_ ts last n (i + 1) r (o.drop k)

/-- Basjo writes the frame chosen for a host port into posted buffers (R63). It waits while the ring does not run or no longer holds
enough of them. A failed write of data drops the frame; a descriptor that is malformed or cannot be read holds it; a failed
write-back leaves the ring at the entry, and the frame counts as written (R57). -/
def Dev.rxFrameWrite (s : Dev) (h : Nat) (descErr dataErr wbErr : Bool) : Dev :=
  match s.chosenRing h with
  | none => s
  | some (x, t, r) =>
    let b := s.basjo
    let bufs := (b.ring h r).posted
    if !b.rb (hostReg h (0x300 + 4 * t)) 31 || !b.ringActive h r || b.ringType h r ≠ 2 || (b.ring h r).stopped || bufs.isEmpty
      || s.heldWrite (h + 1) then s
    else if descErr then (s.ringFault h r true).unchoose h
    else match fillBufs 256 x.octets.length bufs, s.stored x.frame with
      | .short, _ => s
      | .bad, _ => (s.ringFault h r false).unchoose h
      | .fits _, none => s
      | .fits l, some f =>
        let done (s : Dev) : Dev :=
          (({ s with crown := { s.crown with tx := s.crown.tx.put none (36 + h) none } } : Dev).release x.frame).noteEligible (36 + h)
        if dataErr then (done (s.ringFault h r true)).rxDrop h t 2
        else if wbErr then done ((s.ringFault h r true).count (cq x.queue 0x1C))
        else
          let wt := s.wtOf f.stamp
          let dev := b.devIdx h r
          let at_ (i : Nat) : Nat := b.entryAddr h r 32 (dev + BitVec.ofNat 32 i)
          done ((s.count (cq x.queue 0x1C)).onBasjo (fun b =>
            ((b.writeFrame h at_ (f.rxMeta x.reason t) (secOf wt) (f.rxLast + nsOf wt) l.length 0 l x.octets).advance h r l.length).setRing
              h r { b.ring h r with posted := bufs.drop l.length }))

/-! ## Vectors and pop queues (R74, R75, R78) -/

/-- A vector's hold-off timer expires. -/
def Dev.vecTimer (s : Dev) (h v : Nat) : Dev :=
  let t := s.basjo.rf (hostReg h (0x200 + 4 * v)) 23 8
  let x := s.basjo.vec h v
  if t = 0 ∨ x.count = 0 ∨ s.now < x.since + t * usRaw then s else s.onBasjo (fun b => b.fire h v)

/-- A pending vector that nothing masks sends (R74); nothing is sent while the link is down (R79). -/
def Basjo.sendPending (b : Basjo) (h v : Nat) : Basjo :=
  let x := b.vec h v
  let f := b.msixFn h
  if x.pending && !x.masked && f.enable && !f.mask && b.linkUp h
  then { b.setVec h v { x with pending := false } with msgs := (h, v) :: b.msgs } else b

/-- The driver writes table entry `v` unmasked, with the capability's Enable and function mask as they stand: every vector
that is pending and masked by nothing sends. -/
def Dev.unmask (s : Dev) (h v : Nat) (addr : DWord) (data : Word) (enable fnMask : Bool) : Dev :=
  if !(hostPorts s.variant).contains h then s
  else s.onBasjo (fun b =>
    let b := b.setVec h v { b.vec h v with addr := addr, data := data, masked := false }
    let b := { b with msix := b.msix.put ⟨false, false⟩ h ⟨enable, fnMask⟩ }
    (List.range 64).foldl (fun b k => b.sendPending h k) b)

/-- The head record of a pop queue moves to the latch, and the read returns VALID and DEPTH (R78). -/
def Dev.popRec (s : Dev) (o h n : Nat) : Dev :=
  let q := s.basjo.pops.get .idle (4 * h + n)
  match q.recs with
  | [] => s.readGives o 0
  | x :: r => (s.onBasjo (fun b =>
      (List.range 8).foldl (fun (b : Basjo) k => b.setReg (hostReg h (0x440 + 0x20 * n + 4 * k)) (x.extractLsb' (32 * k) 32))
        { b with pops := b.pops.put .idle (4 * h + n) { q with recs := r } })).readGives o (BitVec.ofNat 32 (2 ^ 31 + r.length))

/-- A read of EVT_POP[n] by an agent (R78, R20): a forbidden one returns zero and is counted (R46), and one into a host port whose
clock is stopped is held (R47, R505). -/
def Dev.evtPop (s : Dev) (acc : Acc) (h n : Nat) : Dev :=
  let o := acc.origin.val
  let r := hostReg h (0x400 + 4 * n)
  if !(hostPorts s.variant).contains h || !reaches o 1 then s.readGives o 0
  else if !s.permitted 1 o 1 then (s.denied o 1 h 0 r [] []).readGives o 0
  else if s.clockOff 1 h && s.unitPowered 1 h then s.hold ⟨acc, r, none, 0, false, 1, h⟩
  else if !s.unitPowered 1 h then (s.count 0x54).readGives o 0
  else s.popRec o h n

/-- An entry of a full event queue is free again (R77). -/
def Dev.evtOverflow (s : Dev) (h : Nat) (q : EvtQueue) : Dev :=
  let open_ : Bool := match q with | .ring r => s.basjo.ringRuns h r.val 4 | .pop _ => true
  if open_ then s.onBasjo (fun b => b.overflow s.now h q (secOf s.wt) (nsOf s.wt)) else s

/-! ## Link loss and reset of a host port (R79) -/

/-- Step 1 and the frame being written: every ring of a port stops at once. -/
def Dev.stopHost (s : Dev) (h : Nat) : Dev :=
  let s := s.onBasjo (fun b =>
    let b := (List.range 128).foldl (fun (b : Basjo) r =>
      let b := if b.ringEnabled h r then b.setRf (ringReg h r 0x10) 31 31 0 else b
      (if b.ringActive h r then b.setActive h r false else b).setRing h r .idle) b
    let b := (List.range 64).foldl (fun (b : Basjo) v =>
      if (b.vec h v).count = 0 then b else b.setVec h v { b.vec h v with count := 0, since := 0 }) b
    { b with dead := b.dead.put false h true })
  match s.chosenRing h with
  | none => s
  | some (x, t, _) =>
    (({ s with crown := { s.crown with tx := s.crown.tx.put none (36 + h) none } } : Dev).release x.frame).rxDrop h t 1

/-- A host port's link goes down. -/
def Dev.hostDown (s : Dev) (h : Nat) : Dev :=
  if !s.basjo.linkUp h then s
  else
    let s := (s.onBasjo (fun b => { b.setReg (hostReg h 4) 0 with up := b.up.put false h false })).stopHost h
    ((s.raiseOther h 6 2 0 0).logHw kHardware 1 h).ballot

/-- A host port's link comes up, where the port has power (R479), at a rate and width it can train to (R41, R73): cause 1, and cause 3 below 16 GT/s x4. -/
def Dev.hostUp (s : Dev) (h gen width : Nat) : Dev :=
  if !(hostPorts s.variant).contains h || !s.portPowered (36 + h) || s.basjo.linkUp h || !(1 ≤ gen && gen ≤ (pcieEndpoint h).linkGen && (pcieEndpoint h).linkWidths.contains width) then s
  else
    let s := (s.onBasjo (fun b => { b.setReg (hostReg h 4) (BitVec.ofNat 32 (1 + 2 * gen + 16 * width)) with up := b.up.put false h true })).raiseOther h 6 1 0 0
    (if gen < 4 ∨ width < 4 then s.raiseOther h 6 3 0 0 else s).ballot

/-- A Function Level Reset: the port's registers return to their reset values but for RX_DROP_CNT (HOST_STATUS as well, though the
link stays as it is: DESIGN CHOICE, log entry 15), its queues empty, its vectors and holds clear (R508). -/
def Dev.hostReset (s : Dev) (h : Nat) : Dev :=
  if !(hostPorts s.variant).contains h then s
  else
    let s := (s.stopHost h).onBasjo (fun b => { b with
      regs := b.regs.keep (fun k _ => !(hostReg h 0 ≤ k && k < hostReg h 0x10000) || k = hostReg h 0x18)
      pops := b.pops.keep (fun k _ => k / 4 ≠ h)
      vecs := b.vecs.keep (fun k _ => k / 64 ≠ h)
      msix := b.msix.put ⟨false, false⟩ h ⟨false, false⟩ })
    ((s.dropHolds (h + 1)).raiseOther h 6 4 0 0).logHw kHardware 1 h

/-! ## The meanings -/

/-- BAR0_UNSUPPORTED_ACCESS (R45): the access has no effect on the device. -/
def execBar0UnsupportedAccess (_h : Fin 2) (_off : BitVec 26) (_size : Nat) (s : State) : Host.Outcome State Fault Refusal := .next s
/-- DOORBELL_WRITE. -/
def execDoorbellWrite (h : Fin 2) (r : Fin 128) (value : BitVec 32) (posted : List RxBuf) (s : State) :=
  s.onDev (·.doorbell h.val r.val value posted)
/-- RING_ENABLE. -/
def execRingEnable (a : Acc) (h : Fin 2) (r : Fin 128) (s : State) :=
  s.onDev (fun x => let at_ := ringReg h.val r.val 0x10; x.writeField a at_ (setBit (x.basjo.reg at_) 31 true) (·.ringOn h.val r.val))
/-- RING_DISABLE. -/
def execRingDisable (a : Acc) (h : Fin 2) (r : Fin 128) (s : State) :=
  s.onDev (fun x => let at_ := ringReg h.val r.val 0x10
    x.writeField a at_ (setBit (x.basjo.reg at_) 31 false) (fun x => (x.onBasjo (fun b => b.setRf at_ 31 31 0)).noteEligible (36 + h.val)))
/-- RING_STOPPED. -/
def execRingStopped (h : Fin 2) (r : Fin 128) (s : State) := s.onDev (·.ringStop h.val r.val)
/-- TX_DESCRIPTOR_READ. -/
def execTxDescriptorRead (src : TxSource) (desc : TxDesc) (err wbErr : Bool) (s : State) := s.onDev (·.txDescRead src desc err wbErr)
/-- TX_FRAME_READ_DONE. -/
def execTxFrameReadDone (src : TxSource) (octets : List (BitVec 8)) (err wbErr : Bool) (s : State) :=
  s.onDev (·.txFrameDone src octets err wbErr)
/-- RX_FRAME_WRITE. -/
def execRxFrameWrite (h : Fin 2) (descErr dataErr wbErr : Bool) (s : State) := s.onSettling (·.rxFrameWrite h.val descErr dataErr wbErr)
/-- EVENT_OVERFLOW. -/
def execEventOverflow (h : Fin 2) (q : EvtQueue) (s : State) := s.onDev (·.evtOverflow h.val q)
/-- VEC_COAL_TIMER_EXPIRY. -/
def execVecCoalTimerExpiry (h : Fin 2) (v : Fin 64) (s : State) := s.onDev (·.vecTimer h.val v.val)
/-- MSIX_UNMASK. -/
def execMsixUnmask (h : Fin 2) (v : Fin 64) (addr : BitVec 64) (data : BitVec 32) (enable fnMask : Bool) (s : State) :=
  s.onDev (·.unmask h.val v.val addr data enable fnMask)
/-- EVT_POP. -/
def execEvtPop (a : Acc) (h : Fin 2) (n : Fin 4) (s : State) := s.onDev (·.evtPop a h.val n.val)
/-- HOST_LINK_UP. -/
def execHostLinkUp (h : Fin 2) (gen width : Fin 5) (s : State) := s.onDev (·.hostUp h.val gen.val width.val)
/-- HOST_LINK_DOWN. -/
def execHostLinkDown (h : Fin 2) (s : State) := s.onSettling (·.hostDown h.val)
/-- FUNCTION_LEVEL_RESET. -/
def execFunctionLevelReset (h : Fin 2) (s : State) := s.onSettling (·.hostReset h.val)
/-- The write of the record an EVT ring took last, or of its index, has ended with an error (R57): the entry is not consumed, and the
ring stops at it. What the write left in host memory is not stated, and stays (DESIGN CHOICE, log entry 15). -/
def Dev.evtFault (s : Dev) (h r : Nat) : Dev :=
  if !s.basjo.ringRuns h r 4 || dist32 (s.basjo.hostIdx h r) (s.basjo.devIdx h r) = 0 then s
  else (s.onBasjo (fun b => b.setReg (ringReg h r 0x18) (b.devIdx h r - 1))).ringFault h r true

/-- AER_UNCORRECTABLE. `evt` names an EVT ring for which a write of the device ended with an error, whether or not AER reports it. -/
def execAerUncorrectable (h : Fin 2) (evt : Option (Fin 128)) (aer : Bool) (s : State) :=
  s.onDev (fun x => if !(hostPorts x.variant).contains h.val then x else
    let x := match evt with | some r => x.evtFault h.val r.val | none => x
    if aer then x.raiseOther h.val 6 5 0 0 else x)

end Sys2Proof.Machine
end

