-- ==== Sys2Proof/Machine/CanBus.lean ====
section
/-! DEFINITION. CAN channels: enabling, the transmit queue, error states and bus-off (R316 to R324). -/
namespace Sys2Proof.Machine

/-- Update the gateway. -/
def Dev.onRoots (s : Dev) (f : Roots → Roots) : Dev := { s with roots := f s.roots }

/-- A channel's transmit queue and error counters. -/
def Dev.canQueue (s : Dev) (n : Nat) : List CanWait := s.roots.canq.get [] n
def Dev.setCanQueue (s : Dev) (n : Nat) (l : List CanWait) : Dev :=
  (s.onRoots (fun r => { r with canq := r.canq.put [] n l })).setRf (canReg n 0x28) 6 0 l.length
def Dev.canErrs (s : Dev) (n : Nat) : CanErrs := s.roots.errs.get ⟨0, 0, false⟩ n

/-- Whether a channel is on the bus. -/
def Dev.canOn (s : Dev) (n : Nat) : Bool :=
  canPresent s.variant n && s.canPowered n && s.rb (canReg n 0) 31 && s.rf (canReg n 4) 1 0 ≠ 2

/-- A record of a channel, at most one per cause per millisecond (R324). -/
def Dev.canEvent (s : Dev) (n cls cause : Nat) : Dev :=
  let e := s.canErrs n
  s.raiseRated cls cause 0x31 n 0 msRaw (fun _ => min e.tx 255 * 256 + min e.rx 127) (fun c => c)

/-- Store the error counters, with the error state they give and its records; bus-off keeps its own state. -/
def Dev.setCanErrs (s : Dev) (n : Nat) (e : CanErrs) : Dev :=
  let s := (s.onRoots (fun r => { r with errs := r.errs.put ⟨0, 0, false⟩ n e })).setReg (canReg n 8)
    (BitVec.ofNat 32 (min e.tx 255 * 65536 + min e.rx 127))
  let old := s.rf (canReg n 4) 1 0
  if old = 2 then s
  else
    let new := if e.tx > 127 ∨ e.rx > 127 then 1 else 0
    let s := s.setRf (canReg n 4) 1 0 new
    if new = old then s else s.canEvent n 41 (if new = 1 then 1 else 2)

/-- The frame that a channel held in listen-only still sends (R520). -/
def Dev.canEnding (s : Dev) (n : Nat) : Option CanWait := s.roots.ending.get none n

/-- A channel that is held has finished its frame: it listens, with its transceiver out of standby. SAFE sets the bits themselves. -/
def Dev.canQuiet (s : Dev) (n : Nat) : Dev :=
  let s := s.onRoots (fun r => { r with ending := r.ending.put none n none })
  let s := if s.rb (canReg n 0) 25 then s.pin "CAN_STB" (2 * n) else s
  if s.safe then (s.setRb (canReg n 0) 28 true).setRb (canReg n 0) 25 false else s

/-- A frame in transmission that will not be sent again has ended. -/
def Dev.canEnded (s : Dev) (n : Nat) : Dev := if (s.canEnding n).isSome then s.canQuiet n else s

/-- Drop every queued frame (R323). -/
def Dev.canFlush (s : Dev) (n : Nat) : Dev :=
  ((s.count (canReg n 0x114) (s.canQueue n).length).setCanQueue n []).canEnded n

/-- The bits of a phase: (BRP + 1)(1 + TSEG1 + TSEG2) periods of 160 MHz (R318). -/
def phasePeriods (w : Word) (hi1 hi2 : Nat) : Nat := (fld w 31 24 + 1) * (1 + fld w hi1 16 + fld w hi2 8)

/-- Whether the enabled phases keep their greatest rates (R318). -/
def Dev.canTimingOk (s : Dev) (n : Nat) : Bool :=
  160 ≤ phasePeriods (s.reg (canReg n 0x10)) 23 14
    && (!s.rb (canReg n 0) 30 || 20 ≤ phasePeriods (s.reg (canReg n 0x14)) 21 12)
    && (!(s.rb (canReg n 0) 29 && s.rb (canReg n 0) 30) || 8 ≤ phasePeriods (s.reg (canReg n 0x18)) 21 12)

/-- CAN_CTL.EN is written (R318, R323). A channel starts error-active with its counters at zero. -/
def Dev.canEnable (s : Dev) (n : Nat) (en : Bool) : Dev :=
  if en = s.rb (canReg n 0) 31 then s
  else if en then
    if s.canTimingOk n then ((s.setRb (canReg n 0) 31 true).setRf (canReg n 4) 1 0 0).setCanErrs n ⟨0, 0, false⟩
    else s.setRb (canReg n 4) 3 true
  else (s.setRb (canReg n 0) 31 false).canFlush n

/-- Whether a format is enabled on a channel (R317). -/
def Dev.canFmtOn (s : Dev) (n : Nat) : CanFmt → Bool
  | .classical => true
  | .fd => s.rb (canReg n 0) 30
  | .xl => s.rb (canReg n 0) 29 && s.rb (canReg n 0) 30

/-- The data lengths of a format. -/
def fdLengths : List Nat := [0, 1, 2, 3, 4, 5, 6, 7, 8, 12, 16, 20, 24, 32, 48, 64]
def canLengthOk : CanFmt → Nat → Bool
  | .classical, l => l ≤ 8
  | .fd, l => fdLengths.contains l
  | .xl, l => 1 ≤ l && l ≤ 2048

/-- A frame's identifier in the arbitration sense, as a number: the lower wins (R322). Frames of one identifier are equal, remote
ones too. -/
def canPriority (f : CanFrame) : Nat :=
  if f.ide then (f.id.toNat / 2 ^ 18) * 2 ^ 19 + 2 ^ 18 + f.id.toNat % 2 ^ 18 else f.id.toNat % 2 ^ 11 * 2 ^ 19

/-- Frames that have waited longer than TX_AGE_MAX are dropped (R322). -/
def Dev.canAge (s : Dev) (n : Nat) : Dev :=
  let age := s.rf (canReg n 0x24) 15 0
  let q := s.canQueue n
  let kept := q.filter (fun w => s.now ≤ w.since + age * msRaw)
  if age = 0 ∨ kept.length = q.length then s else (s.count (canReg n 0x110) (q.length - kept.length)).setCanQueue n kept

/-- Offer a frame to a channel's transmit queue (R322, R323, R479). -/
def Dev.canOffer (s : Dev) (n : Nat) (f : CanFrame) : Dev :=
  if !s.canOn n then s.count (canReg n 0x114)
  else if !s.canFmtOn n f.fmt || !canLengthOk f.fmt f.data.length then s.count (canReg n 0x118)
  else
    let s := s.canAge n
    if (s.canQueue n).length ≥ 64 then s.count (canReg n 0x10C)
    else s.setCanQueue n (s.canQueue n ++ [⟨f, s.now⟩])

/-- The frame a queue offers the bus: the lowest priority number, the first of equals, with its place. -/
def canBest (l : List CanWait) : Option (Nat × CanFrame) :=
  (l.zipIdx).foldl (fun (a : Option (Nat × CanFrame)) (w : CanWait × Nat) => match a with
    | none => some (w.2, w.1.frame)
    | some b => if canPriority w.1.frame < canPriority b.2 then some (w.2, w.1.frame) else a) none

/-- Whether the role of a STANDBY device holds a channel in listen-only (R527). -/
def Dev.redListen (s : Dev) (n : Nat) : Bool :=
  s.rb (rasReg 0x200) 31 && !s.rb (rasReg 0x204) 31 && s.rb (rasReg 0x210) n

/-- A channel is to be held in listen-only (R520, R527): it finishes the frame in transmission first. `quiet`: it sends nothing already. The
bus shows which frame is in transmission; the one of highest priority queued stands for it (DESIGN CHOICE, log entry 42). -/
def Dev.canHold (s : Dev) (n : Nat) (quiet : Bool) : Dev :=
  match canBest (s.canQueue n) with
  | some (i, _) =>
    if quiet || !s.canOn n || s.rb (canReg n 0) 28 || (s.canEnding n).isSome then (if (s.canEnding n).isSome then s else s.canQuiet n)
    else s.onRoots (fun r => { r with ending := r.ending.put none n (s.canQueue n)[i]? })
  | none => s.canQuiet n

/-- The role holds, or no longer holds, the channels of RED_QUIET_CAN; `was` is the device before. -/
def Dev.redCan (s was : Dev) : Dev :=
  ((List.range 24).filter (canPresent s.variant)).foldl (fun (s : Dev) n =>
    if s.redListen n = was.redListen n then s
    else if s.redListen n then s.canHold n false
    else
      let s := s.onRoots (fun r => { r with ending := r.ending.put none n none })
      if s.rb (canReg n 0) 25 then s.pin "CAN_STB" (2 * n + 1) else s) s

/-- How a channel codes the data phase of a frame it sends (R319): the secondary sample point TDCO periods after the loop delay just
measured, and the pulse widths of an XL frame. -/
def Dev.canSample (s : Dev) (n : Nat) (f : CanFrame) (delay : Nat) : Option Nat :=
  if f.fmt ≠ .classical && s.rb (canReg n 0x1C) 31 then some (delay + s.rf (canReg n 0x1C) 22 16) else none
def Dev.canPulse (s : Dev) (n : Nat) (f : CanFrame) : Option (Nat × Nat × Nat) :=
  let x := canReg n 0x20
  if f.fmt = .xl && s.rb x 31 then some (s.rf x 5 0, s.rf x 13 8, s.rf x 21 16) else none

/-- The loop delay measured at a frame's FDF-to-res or XLF edge shows in TDCV with TDC_EN (R319). -/
def Dev.canEdge (s : Dev) (n : Nat) (f : CanFrame) (delay : Nat) : Dev :=
  if (s.canSample n f delay).isSome then s.setRf (canReg n 0x1C) 6 0 delay else s

/-- Frame `f`, at place `i` of a channel's queue, has been sent. -/
def Dev.canSent (s : Dev) (n i : Nat) (f : CanFrame) (delay : Nat) : Dev :=
  let e := s.canErrs n
  let s := ((s.setCanQueue n ((s.canQueue n).eraseIdx i)).count (canReg n 0x104)).setCanErrs n { e with tx := e.tx - 1 }
  let s := s.canEdge n f delay
  { s with out := .can n f (s.canSample n f delay) (s.canPulse n f) :: s.out }

/-- A channel has sent its frame; `delay` is the transmitter loop delay at its FDF-to-res or XLF edge, which TDCV shows with TDC_EN
(R319). -/
def Dev.canTxDone (s : Dev) (n delay : Nat) : Dev :=
  if !s.canOn n then s
  else match s.canEnding n with
    | some w => (s.canSent n ((s.canQueue n).idxOf w) w.frame delay).canQuiet n
    | none =>
      if s.rb (canReg n 0) 28 || s.redListen n then s
      else
        let s := s.canAge n
        match canBest (s.canQueue n) with
        | none => s
        | some (i, f) => s.canSent n i f delay

/-- A valid reception lowers REC (ISO 11898-1): one over 127 takes a value from 119 to 127 that is not stated, free for
every channel and raw time. -/
def CanErrs.received (e : CanErrs) (n now : Nat) : CanErrs :=
  { e with rx := if e.rx > 127 then 119 + (Config.freeValue (2 ^ 64 * 3 + 64 * now + n)).toNat % 9 else e.rx - 1 }

/-- An error on the bus leaves the counters as given (R320). -/
def Dev.canError (s : Dev) (n : Nat) (x : CanError) : Dev :=
  if !s.canOn n then s
  else
    let s := if x.inRx then s.count (canReg n 0x108) else (match x.edge, canBest (s.canQueue n) with
      | some k, some (_, f) => s.canEdge n (match s.canEnding n with | some w => w.frame | none => f) k.toNat
      | _, _ => s).canEnded n
    let s := s.setCanErrs n ⟨x.txCount.toNat, x.rxCount.toNat, false⟩
    if x.txCount.toNat ≤ 255 then s
    else
      let s := (((s.setRf (canReg n 4) 1 0 2).count (canReg n 0x11C)).canFlush n).canEvent n 40 1
      s.onRoots (fun r => { r with errs := r.errs.put ⟨0, 0, false⟩ n { r.errs.get ⟨0, 0, false⟩ n with recovering := s.rb (canReg n 0) 27 } })

/-- BO_RECOVER is written, or BO_AUTO is written 1, in bus-off: recovery starts. -/
def Dev.boRecover (s : Dev) (n : Nat) : Dev :=
  if s.rf (canReg n 4) 1 0 ≠ 2 then s
  else s.onRoots (fun r => { r with errs := r.errs.put ⟨0, 0, false⟩ n { r.errs.get ⟨0, 0, false⟩ n with recovering := true } })

/-- 128 occurrences of 11 recessive bits have passed since recovery started. -/
def Dev.canRecovered (s : Dev) (n : Nat) : Dev :=
  if s.rf (canReg n 4) 1 0 ≠ 2 || !(s.canErrs n).recovering || !s.rb (canReg n 0) 31 then s
  else
    let s := (s.setRf (canReg n 4) 1 0 1).setCanErrs n ⟨0, 0, false⟩
    s.canEvent n 40 2

/-- CAN_ENABLE. -/
def execCanEnable (a : Acc) (n : Fin 24) (en : Bool) (s : State) := s.onSettling (fun x => x.writeEn a (canReg n.val 0) en (·.canEnable n.val en))
/-- CAN_FRAME_TX_DONE. -/
def execCanFrameTxDone (n : Fin 24) (loopDelay : BitVec 7) (s : State) := s.onSettling (·.canTxDone n.val loopDelay.toNat)
/-- CAN_BUS_ERROR. -/
def execCanBusError (n : Fin 24) (err : CanError) (s : State) := s.onSettling (·.canError n.val err)
/-- BO_RECOVER. -/
def execBoRecover (a : Acc) (n : Fin 24) (s : State) := s.onDev (fun x => x.writeBit a (canReg n.val 0) 26 (·.boRecover n.val))
/-- BUS_OFF_RECOVERED. -/
def execBusOffRecovered (n : Fin 24) (s : State) := s.onDev (·.canRecovered n.val)

end Sys2Proof.Machine
end

