-- ==== Sys2Proof/Machine/Gates.lean ====
section
/-! DEFINITION. Gate control lists: entry boundaries, commits and their change times, cancels, swaps and the fall of EN
(R233 to R243). -/
namespace Sys2Proof.Machine

/-- The gate states in force show in GATE_STATUS, once credit has been brought to the present under those before; a hold starts or ends, and the preemptable frame of a closed gate is
preempted (R233, R235, R237). -/
def Dev.gateApply (s : Dev) (n : Nat) : Dev :=
  let s := s.creditPort n
  let e := (s.gateEntry n s.wt).1
  let s := s.setRf (crownReg n 0x14) 31 24 (s.gates n s.wt)
  let s := s.setRf (crownReg n 0x14) 16 8 (match e with | some e => e.1 | none => 0)
  let active := s.rb (crownReg n 0x10) 29 && s.preemptOn n
  let held := match e with
    | some e => if !active then false else if gateOp e.2 = 1 then true else if gateOp e.2 = 2 then false else (s.gate n).held
    | none => false
  ((s.setGate n { s.gate n with held := held }).preemptDue n).noteEligible n

/-- GATE_ENTRY_BOUNDARY. -/
def Dev.gateBoundary (s : Dev) (n : Nat) : Dev :=
  if !portPresent s.variant n then s else s.gateApply n

/-- Whether the administrative bank can be committed (R238). -/
def Dev.adminOk (s : Dev) (n : Nat) : Bool :=
  let len := s.rf (crownReg n 0x18) 8 0
  let cyc := (s.reg (crownReg n 0x1C)).toNat
  s.rb (crownReg n 0x10) 31 && 1 ≤ len && len ≤ 256 && 400 ≤ cyc && cyc ≤ 1600000000 && s.rf (crownReg n 0x20) 29 0 ≤ 999999999
    && (s.adminBank n len).all (fun e => gateTicks e ≠ 0 && gateOp e ≠ 3 && (gateOp e = 0 || s.rb (crownReg n 0x10) 29))

/-- The change time of a commit made now, and the cause its swap is raised with (R239 to R241). -/
def Dev.changeTime (s : Dev) (n : Nat) : Int × Nat × Option Int :=
  let c := s.wt + 1000 * 65536
  let cyc : Int := (s.reg (crownReg n 0x1C)).toNat * tickUnits
  let base := extendSec 48 ((s.reg (crownReg n 0x24)).toNat + 2 ^ 32 * s.rf (crownReg n 0x28) 15 0) (s.rf (crownReg n 0x20) 29 0 * 65536) s.wt
  let first := gridTime base cyc c
  match s.operList n with
  | none => (first, 3, none)
  | some l =>
    let run : Int := l.cycle * tickUnits
    if !s.rb (crownReg n 0x10) 30 then (gridTime l.base run c, 1, none)
    else
      let cs := l.base + (first - l.base) / run * run
      (first, 2, if first ≠ cs ∧ first - cs < (s.reg (crownReg n 0x2C)).toNat * tickUnits ∧ cs ≥ c then some cs else none)

/-- GATE_CTL.COMMIT (R238, R242). -/
def Dev.gateCommit (s : Dev) (n : Nat) : Dev :=
  if (s.gate n).pending.isSome then (s.setRb (crownReg n 0x14) 3 true).gateErr n 3
  else if !s.adminOk n then (s.setRb (crownReg n 0x14) 2 true).gateErr n 1
  else
    let x := s.changeTime n
    let p : GatePending := ⟨x.1, s.rf (crownReg n 0x18) 8 0, (s.reg (crownReg n 0x1C)).toNat, x.2.1, x.2.2⟩
    let s := (s.setGate n { s.gate n with pending := some p }).setRb (crownReg n 0x14) 1 true
    let s := s.setReg (crownReg n 0x44) (BitVec.ofNat 32 (nsOf x.1))
    (s.setReg (crownReg n 0x48) (BitVec.ofNat 32 (secOf x.1))).setReg (crownReg n 0x4C) (BitVec.ofNat 32 (secOf x.1 / 2 ^ 32 % 65536))

/-- GATE_CTL.CANCEL (R242): without effect from the change time on. -/
def Dev.gateCancel (s : Dev) (n : Nat) : Dev :=
  match (s.gate n).pending with
  | some p => if s.wt ≥ p.cct then s else (s.setGate n { s.gate n with pending := none }).setRb (crownReg n 0x14) 1 false
  | none => s

/-- The change time arrives: the banks exchange roles (R242). DESIGN CHOICE (log entry 71): with no commit pending, the CCT registers keep
the last change time (R250). -/
def Dev.gateSwap (s : Dev) (n : Nat) : Dev :=
  match (s.gate n).pending with
  | none => s
  | some p =>
    if s.wt < p.cct then s
    else
      let s := s.creditPort n
      let g := s.gate n
      let new := s.adminBank n 256
      let s := (List.range 256).foldl (fun s k => s.setWord (gclAddr n k) (g.bank.getD k 0)) s
      let s := s.setGate n { g with bank := new, base := p.cct, pending := none }
      let s := (s.setRb (crownReg n 0x14) 1 false).setRb (crownReg n 0x14) 0 true
      let s := (s.setReg (crownReg n 0x30) (BitVec.ofNat 32 p.len)).setReg (crownReg n 0x34) (BitVec.ofNat 32 p.cycle)
      let s := (s.setReg (crownReg n 0x38) (BitVec.ofNat 32 (nsOf p.cct))).setReg (crownReg n 0x3C) (BitVec.ofNat 32 (secOf p.cct))
      let s := s.setReg (crownReg n 0x40) (BitVec.ofNat 32 (secOf p.cct / 2 ^ 32 % 65536))
      (s.gateApply n).raise 25 p.cause 0x21 n p.len p.cycle

/-- A fall of GATE_CTL.EN (R242). -/
def Dev.gateDisable (s : Dev) (n : Nat) : Dev :=
  if !s.rb (crownReg n 0x10) 31 then s
  else
    let s := (s.creditPort n).setRb (crownReg n 0x10) 31 false
    let s := (s.setGate n { s.gate n with pending := none }).setRf (crownReg n 0x14) 1 0 0
    s.gateApply n

/-! ## The meanings -/

/-- GATE_ENTRY_BOUNDARY. -/
def execGateEntryBoundary (n : Fin 36) (s : State) := s.onDev (·.gateBoundary n.val)
/-- GATE_COMMIT. -/
def execGateCommit (a : Acc) (n : Fin 36) (s : State) := s.onDev (fun x => x.writeBit a (crownReg n.val 0x10) 0 (·.gateCommit n.val))
/-- GATE_CANCEL. -/
def execGateCancel (a : Acc) (n : Fin 36) (s : State) := s.onDev (fun x => x.writeBit a (crownReg n.val 0x10) 1 (·.gateCancel n.val))
/-- GATE_LIST_SWAP. -/
def execGateListSwap (n : Fin 36) (s : State) := s.onDev (·.gateSwap n.val)
/-- GATE_DISABLE. -/
def execGateDisable (a : Acc) (n : Fin 36) (s : State) := s.onDev (fun x => x.writeEn a (crownReg n.val 0x10) false (·.gateDisable n.val))

end Sys2Proof.Machine
end

