-- ==== Sys2Proof/Machine/Gateway.lean ====
section
/-! DEFINITION. The gateway checks of R329: Bark's CAN filter and UDS sessions (R308 to R311), the routing table, authenticated
CAN, delivery to channels, and encapsulation to Ethernet (R331 to R346). -/
namespace Sys2Proof.Machine

/-- A message on its way through the gateway: its source and BUS (R331: zero for a channel's own frame), zone, raw stamp, and whether
it is a LIN message. -/
structure Msg where
  src : Nat
  bus : Nat
  zone : Nat
  stamp : Nat
  lin : Bool
  frame : CanFrame
  deriving DecidableEq, Repr

/-- A LIN frame as a message's frame. -/
def linFrame (id : Nat) (data : List Byte) : CanFrame :=
  ⟨.classical, false, false, false, false, BitVec.ofNat 29 id, 0, 0, false, 0, data⟩

/-- The channel a message came from, or the bus_id it was decapsulated with. -/
def Msg.channel (m : Msg) : Nat := if m.src = 24 then m.bus else m.src % 32

/-- The identifier. -/
def Msg.id (m : Msg) : Nat := m.frame.id.toNat

/-- Payload B of the records that name a frame: IDE, identifier and a count. -/
def Msg.payload (m : Msg) (n : Nat) : Nat := m.frame.ide.toNat * 2 ^ 63 + m.id * 2 ^ 32 + n

/-! ## The CAN filter (R310, R311) -/

/-- The lowest-numbered valid entry that a frame matches. -/
def Dev.filterEntry (s : Dev) (ch : Nat) (f : CanFrame) : Option Nat :=
  (s.words.find? (fun e => 0x420000 ≤ e.1 && e.1 < 0x440000 && e.1 % 16 = 0 && bit e.2 63 && bit e.2 62 == f.ide
    && f.id.toNat &&& fld e.2 28 0 = fld e.2 57 29 &&& fld e.2 28 0 && fld (s.word (e.1 + 8)) 63 59 = ch)).map (fun e => (e.1 - 0x420000) / 16)

/-- A denial: its counter, CAN_FILTER_HIT and the zone's deny count. -/
def Dev.canDeny (s : Dev) (m : Msg) (counter cause ch entry : Nat) : Dev :=
  ((s.count counter).raiseRated 36 cause 0x30 3 ch msRaw (fun _ => ch * 2 ^ 24 + entry) (fun n => m.payload n)).countDeny m.zone

/-- Step 1 of R329; an accepted frame counts in its entry's window. -/
def Dev.canFilter (s : Dev) (m : Msg) : Dev × Bool :=
  let ch := m.src
  let cf := barkReg (0x1400 + 4 * ch)
  if ch > 24 || !s.rb cf 31 then (s, true)
  else match s.filterEntry ch m.frame with
    | none => if s.rb cf 30 then (s, true) else (s.canDeny m (barkReg 0x130) 1 ch 0x1FFF, false)
    | some i =>
      let w := s.word (canFilterAddr i 1)
      let l := m.frame.data.length
      if !bit w 58 then (s.canDeny m (barkReg 0x13C) 5 ch i, false)
      else if l < fld w 57 46 ∨ l > fld w 45 34 then (s.canDeny m (barkReg 0x134) 2 ch i, false)
      else
        let k := s.now / msRaw / max 1 (fld w 17 2)
        let r := s.bark.canWin.get (0, 0) i
        let n := if r.1 = k then r.2 else 0
        if fld w 33 18 ≠ 0 ∧ n ≥ fld w 33 18 then (s.canDeny m (barkReg 0x138) 3 ch i, false)
        else ({ s with bark := { s.bark with canWin := s.bark.canWin.put (0, 0) i (k, n + 1) } }, true)

/-! ## UDS sessions (R308, R309) -/

/-- A diagnostic pair: IDE, request and response identifiers, tester and ECU channels. -/
structure DiagPair where
  ide : Bool
  req : Nat
  resp : Nat
  tester : Nat
  ecu : Nat
  deriving DecidableEq, Repr

/-- The pairs in use, lowest number first. -/
def Dev.diagPairs (s : Dev) : List DiagPair :=
  (s.words.filter (fun e => 0x440000 ≤ e.1 && e.1 < 0x441000 && e.1 % 16 = 0 && bit e.2 63)).map (fun (e : Nat × DWord) =>
    let w := s.word (e.1 + 8)
    ⟨bit e.2 62, fld e.2 60 32, fld e.2 28 0, fld w 63 59, fld w 58 54⟩)

/-- CAN_ZONE and LIN_ZONE. -/
def Dev.canZone (s : Dev) (c : Nat) : Nat := s.rf (barkReg (0x1200 + 4 * c)) 5 0
def Dev.linZone (s : Dev) (l : Nat) : Nat := s.rf (barkReg (0x1280 + 4 * l)) 5 0

/-- An identifier as an entry's address. -/
def DiagPair.addr (p : DiagPair) (id : Nat) : Nat := p.ide.toNat * 2 ^ 31 + id

/-- The bucket of a pair (R296). -/
def Dev.diagBucket (s : Dev) (p : DiagPair) : Nat :=
  s.bucketOf 2 0 (p.tester * 2 ^ 32 + p.addr p.req) (p.ecu * 2 ^ 32 + p.addr p.resp) 5

/-- The unexpired entry of a pair. -/
def Dev.diagEntry (s : Dev) (p : DiagPair) : Option Nat :=
  (s.findConn (s.diagBucket p) 2 0 (s.canZone p.tester) (endpoint (p.addr p.req) p.tester) (endpoint (p.addr p.resp) p.ecu)).map (·.1)

/-- A request or a response of a session: LAST_MS, counts, and REQ_PENDING to OPEN with the first response. -/
def Dev.diagTouch (s : Dev) (i : Nat) (request : Bool) : Dev :=
  match s.conn i with
  | none => s
  | some c =>
    let c' := { c with
      lastMs := s.ms % 2 ^ 32, state := if request then c.state else 1
      framesA := if request then satAdd c.framesA 1 else c.framesA
      framesB := if request then c.framesB else satAdd c.framesB 1 }
    let s := (s.setConn i (some c')).touchCache i true
    if !request && c.state = 0 then s.diagEvent 1 c' else s

/-- A request under one pair: it refreshes the pair's entry, or creates one. An insertion that fails meets the FULL_ACTION of the
pair's zones (R301); denied, the frame is counted and logged with cause 4, as one that no rule decided. -/
def Dev.udsRequest (s : Dev) (p : DiagPair) : Dev × Bool :=
  match s.diagEntry p with
  | some i => (s.diagTouch i true, true)
  | none =>
    let a := s.canZone p.tester
    let b := s.canZone p.ecu
    let r := s.insertConn (s.diagBucket p)
      ⟨2, false, false, 0, a, b, 0, p.tester, p.ecu, p.addr p.req, p.addr p.resp, s.ms % 2 ^ 32, s.tableGen, 0xFFFF, 1, 0⟩
    if r.2 ∨ s.rb (zpReg a b) 28 then (r.1, true)
    else (((r.1.count cDenyFull).logCandidate 65536 0 4 (a * 2 ^ 50 + b * 2 ^ 44)).countDeny a, false)

/-- Step 2 of R329. A frame that is a request under several pairs is tracked under each, and goes on where none denies it; a response
belongs to every session whose pair names it (DESIGN CHOICE, log entry 31). -/
def Dev.udsCheck (s : Dev) (m : Msg) : Dev × Bool :=
  if m.src ≥ 24 then (s, true)
  else
    let ps := s.diagPairs.filter (fun p => p.ide = m.frame.ide)
    let qs := ps.filter (fun p => p.tester = m.src && p.req = m.id)
    let rs := ps.filter (fun p => p.ecu = m.src && p.resp = m.id)
    if !qs.isEmpty then qs.foldl (fun (r : Dev × Bool) p => let x := r.1.udsRequest p; (x.1, r.2 && x.2)) (s, true)
    else if rs.isEmpty then (s, true)
    else match rs.filterMap s.diagEntry with
      | [] => (s.canDeny m (barkReg 0x140) 4 m.src ((s.filterEntry m.src m.frame).getD 0x1FFF), false)
      | l => (l.foldl (fun s i => s.diagTouch i false) s, true)

/-! ## Routing (R331 to R334) -/

/-- Word 0 of an entry for a key. -/
def routeKey (src bus prof : Nat) (ide : Bool) (id : Nat) : DWord :=
  BitVec.ofNat 64 (2 ^ 63 + src * 2 ^ 57 + bus * 2 ^ 52 + prof * 2 ^ 48 + ide.toNat * 2 ^ 47 + id)

/-- The bucket of word 0 of an entry. -/
def Dev.routeBucket (s : Dev) (w : DWord) : Nat :=
  crc32c (leBytes 4 (s.reg (rootsReg 0)).toNat ++ [BitVec.ofNat 8 (fld w 62 57), BitVec.ofNat 8 (fld w 56 52), BitVec.ofNat 8 (fld w 51 48)]
    ++ beBytes 4 (fld w 47 47 * 2 ^ 31 + fld w 28 0) ++ [0]) % 8192

/-- A slot of the routing table. -/
def Dev.route (s : Dev) (i : Nat) : Option (DWord × DWord × DWord) := s.roots.routes.get none i
def Dev.setRoute (s : Dev) (i : Nat) (v : Option (DWord × DWord × DWord)) : Dev :=
  let s := s.onRoots (fun r => { r with routes := r.routes.put none i v })
  s.setReg (rootsReg 4) (BitVec.ofNat 32 s.roots.routes.length)

/-- The slot that holds the key of a word 0, whatever its VALID says: SRC, BUS, PROF, IDE and ID. -/
def Dev.findRoute (s : Dev) (w : DWord) : Option Nat :=
  ((List.range 8).map (8 * s.routeBucket w + ·)).find? (fun i => match s.route i with | some r => r.1 = setBit w 63 true | none => false)

/-- The lookup of R332: the first profile, in ascending order, with a matching entry. -/
def Dev.lookupRoute (s : Dev) (m : Msg) : Option (DWord × DWord × DWord) :=
  (List.range 16).findSome? (fun k =>
    let p := s.reg (rootsReg (0x1000 + 0x40 * m.src + 4 * k))
    if bit p 31 && bit p 29 == m.frame.ide then
      (s.findRoute (routeKey m.src m.bus k m.frame.ide (m.id &&& fld p 28 0))).bind s.route
    else none)

/-- A frame that no entry matches (R333). -/
def Dev.routeMiss (s : Dev) (m : Msg) : Dev :=
  (s.count (rootsReg 0x10)).raiseRated 44 1 0x31 64 m.src msRaw (fun _ => m.src + m.bus * 256) (fun n => m.payload n)

/-! ## Authenticated CAN (R341 to R346) -/

/-- An entry of the engine. -/
def Dev.auth (s : Dev) (i : Nat) : Option AuthEntry := s.roots.auth.get none i
def Dev.setAuth (s : Dev) (i : Nat) (e : Option AuthEntry) : Dev := s.onRoots (fun r => { r with auth := r.auth.put none i e })

/-- FVmax. -/
def AuthEntry.fvMax (e : AuthEntry) : Nat := 2 ^ e.fvWidth - 1

/-- The MAC of an identifier, authentic octets and a freshness value (R341). -/
def authMac (key : List Byte) (f : CanFrame) (auth : List Byte) (fv n : Nat) : List Byte :=
  (cmac key (beBytes 4 (f.ide.toNat * 2 ^ 31 + f.id.toNat) ++ auth ++ beBytes 8 fv)).take n

/-- The candidate of R342: the smallest value above FV with the received low octets. -/
def AuthEntry.candidate (e : AuthEntry) (low : Nat) : Nat :=
  let m := 2 ^ (8 * e.fvTx)
  let c := e.fv / m * m + low
  if e.fvTx = 0 then e.fv + 1 else if c > e.fv then c else c + m

/-- SECURE_CAN_FAIL (R346). -/
def Dev.authRecord (s : Dev) (m : Msg) (i cause : Nat) : Dev :=
  s.raiseRated 45 cause 0x31 66 i msRaw (fun _ => i) (fun n => m.payload n)

/-- A verification that fails is counted in AUTH_FAIL_CNT, and in the entry's FAILS where there is one (R342). -/
def Dev.authCount (s : Dev) (i : Nat) : Dev :=
  (match s.auth i with | some e => s.setAuth i (some { e with fails := satAdd e.fails 1 }) | none => s).count (rootsReg 0x24)

/-- A verification fails with a cause of SECURE_CAN_FAIL. -/
def Dev.authFailed (s : Dev) (m : Msg) (i cause : Nat) : Dev := (s.authCount i).authRecord m i cause

/-- A frame refused by an exhausted entry (R344). -/
def Dev.authExhausted (s : Dev) (i : Nat) (e : AuthEntry) : Dev :=
  if e.raised then s else (s.setAuth i (some { e with raised := true })).raise 46 (if e.generate then 1 else 2) 0x31 66 i 0

/-- The entry a route names, where its direction is right; any other is unusable. -/
def Dev.authFor (s : Dev) (i : Nat) (generate : Bool) : Option AuthEntry :=
  (s.auth i).bind (fun e => if e.generate = generate then some e else none)

/-- Whether the entry's key may be used (R345). -/
def Dev.authKeyOk (s : Dev) (e : AuthEntry) : Bool := s.mayUse e.slot (if e.generate then uEncrypt else uDecrypt) 10

/-- The operations queued in the engine that have not ended. -/
def Dev.authBusy (s : Dev) : List Nat := s.roots.authq.filter (s.now < ·)

/-- A verification or generation enters the engine's queue of 64, which empties at 1 M operations per second (R345): none where it is
full. The use of its key lasts until then; its effect is here at once (DESIGN CHOICE, log entry 38). -/
def Dev.authEnter (s : Dev) (slot : Nat) : Option Dev :=
  let l := s.authBusy
  let till := max s.now (l.getLastD 0) + usRaw
  if l.length ≥ 64 then none else some ((s.onRoots (fun r => { r with authq := l ++ [till] })).beginUse .can slot none (some till))

/-- A frame that finds the queue full is not gatewayed (R346). -/
def Dev.authDrop (s : Dev) (m : Msg) (i : Nat) : Dev := (s.count (rootsReg 0x28)).authRecord m i 5

/-- Step 4 of R329: verification. -/
def Dev.verify (s : Dev) (m : Msg) (i : Nat) : Dev × Bool :=
  match s.authFor i false with
  | none => (s.authFailed m i 3, false)
  | some e =>
    if e.fv ≥ e.fvMax then ((s.authExhausted i e).authCount i, false)
    else if !s.authKeyOk e then ((s.refuseUse e.slot).authFailed m i 3, false)
    else match s.authEnter e.slot with
    | none => (s.authDrop m i, false)
    | some s =>
      let d := m.frame.data
      if d.length < e.authLen + e.fvTx + e.macLen then (s.authFailed m i 4, false)
      else
        let c := e.candidate (beNat ((d.drop e.authLen).take e.fvTx))
        if c > e.fv + e.window ∨ c > e.fvMax then (s.authFailed m i 2, false)
        else if authMac (s.slot e.slot).octets m.frame (d.take e.authLen) c e.macLen ≠ (d.drop (e.authLen + e.fvTx)).take e.macLen
        then (s.authFailed m i 1, false)
        else (s.setAuth i (some { e with fv := c }), true)

/-- The next data length a format allows. -/
def padLength : CanFmt → Nat → Nat
  | .fd, l => (fdLengths.find? (l ≤ ·)).getD l
  | _, l => l

/-- What generation makes of a frame: the frame every CAN destination receives, none for them, or none at all, for the engine's
queue is full. -/
inductive Generated where
  | frame (f : CanFrame)
  | nothing
  | busy
  deriving DecidableEq, Repr

/-- Generation (R343). -/
def Dev.generate (s : Dev) (m : Msg) (i : Nat) : Dev × Generated :=
  match s.authFor i true with
  | none => (s.authRecord m i 3, .nothing)
  | some e =>
    if e.fv ≥ e.fvMax then (s.authExhausted i e, .nothing)
    else if !s.authKeyOk e then ((s.refuseUse e.slot).authRecord m i 3, .nothing)
    else match s.authEnter e.slot with
    | none => (s.authDrop m i, .busy)
    | some s =>
    if m.frame.data.length < e.authLen then (s.authRecord m i 4, .nothing)
    else
      let fv := e.fv + 1
      let a := m.frame.data.take e.authLen
      let o := a ++ (beBytes 8 fv).drop (8 - e.fvTx) ++ authMac (s.slot e.slot).octets m.frame a fv e.macLen
      (s.setAuth i (some { e with fv := fv }),
        .frame { m.frame with data := o ++ List.replicate (padLength m.frame.fmt o.length - o.length) 0xCC })

/-! ## Delivery to channels (R329 step 5) -/

/-- The CAN or LIN destinations of a route that Bark lets stand; a removed one counts in ZONE_BLOCK (R287). -/
def Dev.allowedDests (s : Dev) (m : Msg) (n mask own : Nat) (zone : Nat → Nat) : Dev × List Nat :=
  let all := (bitsOf n mask).filter (fun k => m.src ≠ own + k)
  let kept := all.filter (fun k => s.allow m.zone (zone k))
  (s.count cZoneBlock (all.length - kept.length), kept)

/-- A frame delivered to a LIN channel is written into its identifier's buffer (R326). -/
def Dev.linDeliver (s : Dev) (l : Nat) (f : CanFrame) : Dev :=
  let id := f.id.toNat % 64
  let d := f.data.take 8
  let o := d ++ zeros (8 - d.length)
  ((s.setReg (fbufReg l id 0) (BitVec.ofNat 32 (leNat (o.take 4)))).setReg (fbufReg l id 4) (BitVec.ofNat 32 (leNat (o.drop 4)))).setRf
    (fbufReg l id 8) 19 16 d.length

/-! ## Encapsulation (R335 to R339) -/

/-- ACF_ERR (R340). -/
def Dev.acfErr (s : Dev) (cause : Nat) : Dev := s.raiseRated 47 cause 0x31 65 0 msRaw (fun n => n) (fun _ => 0)

/-- The octets of an ACF message (R336). -/
def Dev.acfMessage (s : Dev) (m : Msg) (brief : Bool) : List Byte :=
  let f := m.frame
  let pad := (4 - f.data.length % 4) % 4
  let live := s.rb (camReg 0x204) 2
  let ts := if live then beBytes 8 ((s.wtOf m.stamp / 65536) % 2 ^ 64).toNat else zeros 8
  let head (ty len : Nat) : List Byte := beBytes 2 (ty * 512 + len / 4)
  let body := f.data ++ zeros pad
  if m.lin then
    head 3 (12 + body.length) ++ [BitVec.ofNat 8 (pad * 64 + live.toNat * 32 + m.channel % 32), BitVec.ofNat 8 m.id] ++ ts ++ body
  else
    let fd : Bool := decide (f.fmt = .fd)
    let o2 := pad * 64 + live.toNat * 32 + f.rtr.toNat * 16 + f.ide.toNat * 8 + (f.brs && fd).toNat * 4 + fd.toNat * 2 + (f.esi && fd).toNat
    head (if brief then 2 else 1) ((if brief then 8 else 16) + body.length) ++ [BitVec.ofNat 8 o2, BitVec.ofNat 8 (m.channel % 32)]
      ++ (if brief then [] else ts) ++ beBytes 4 m.id ++ body

/-- The octets before a stream's messages (R335). -/
def Dev.encHeader (s : Dev) (st len seq : Nat) : List Byte :=
  let mac (a : Nat) : List Byte := beBytes 2 (s.rf (a + 4) 15 0) ++ beBytes 4 (s.reg a).toNat
  let c := s.reg (encReg st 0)
  mac (encReg st 0xC) ++ mac (rootsReg 8)
    ++ (if bit c 30 then beBytes 2 0x8100 ++ beBytes 2 (fld c 29 27 * 8192 + fld c 11 0) else [])
    ++ beBytes 2 0x22F0 ++ [0x82, BitVec.ofNat 8 (128 + len / 256 % 8), BitVec.ofNat 8 len, BitVec.ofNat 8 seq]
    ++ beBytes 4 (s.reg (encReg st 0x18)).toNat ++ beBytes 4 (s.reg (encReg st 0x14)).toNat

/-- A stream's open batch. -/
def Dev.batch (s : Dev) (st : Nat) : Option Batch := s.roots.batches.get none st
def Dev.setBatch (s : Dev) (st : Nat) (b : Option Batch) : Dev := s.onRoots (fun r => { r with batches := r.batches.put none st b })

/-- An open batch closes and is offered to P39 (R338). -/
def Dev.closeBatch (s : Dev) (st : Nat) : Dev :=
  match s.batch st with
  | none => s
  | some b =>
    let s := s.setBatch st none
    if s.roots.closed.length ≥ 64 then (s.count (rootsReg 0x18)).acfErr 5
    else
      let seq := s.rf (encReg st 0x1C) 7 0
      let o := s.encHeader st b.octets.length seq ++ b.octets
      let o := o ++ zeros (60 - o.length)
      let s := (s.setRf (encReg st 0x1C) 7 0 (seq + 1)).onRoots (fun r => { r with closed := r.closed ++ [(b.group, o)] })
      s.offerRoots

/-- Step 6 of R329: the encapsulation copy. -/
def Dev.encapsulate (s : Dev) (m : Msg) (st : Nat) (brief : Bool) : Dev :=
  if m.frame.fmt = .xl then (s.count (rootsReg 0x1C)).acfErr 3
  else if !s.rb (encReg st 0) 31 then s
  else
    let o := s.acfMessage m brief
    let hdr := (s.encHeader st 0 0).length
    let most := s.rf (encReg st 8) 10 0
    if hdr + o.length > most then (s.count (rootsReg 0x14)).acfErr 4
    else
      let full : Bool := match s.batch st with | some b => decide (hdr + b.octets.length + o.length > most) | none => false
      let s := if full then s.closeBatch st else s
      let s := match s.batch st with
        | some b => s.setBatch st (some { b with octets := b.octets ++ o })
        | none => s.setBatch st (some ⟨o, if m.src ≠ 24 then m.src else if m.lin then 32 + m.bus else m.bus, s.now⟩)
      if s.rf (encReg st 4) 9 0 = 0 then s.closeBatch st else s

/-! ## The whole road (R329) -/

/-- Steps 5 and 6 under a route. -/
def Dev.deliver (s : Dev) (m : Msg) (r : DWord × DWord × DWord) : Dev :=
  let cans := s.allowedDests m 24 (fld r.2.1 63 40) 0 s.canZone
  let s := cans.1
  let g : Dev × Generated := if bit r.2.2 47 && !cans.2.isEmpty then s.generate m (fld r.2.2 42 32) else (s, .frame m.frame)
  let s := match g.2 with
    | .frame f => cans.2.foldl (fun (s : Dev) n => s.canOffer n f) g.1
    | _ => g.1
  if g.2 = .busy then s
  else
    -- an XL frame of a route with ENC_EN goes to CAN destinations only (R337)
    let lins := s.allowedDests m 16 (if m.frame.fmt = .xl && bit r.2.1 23 then 0 else fld r.2.1 39 24) 32 s.linZone
    let s := lins.2.foldl (fun (s : Dev) l => s.linDeliver l m.frame) lins.1
    if bit r.2.1 23 then s.encapsulate m (fld r.2.1 21 14) (bit r.2.1 22) else s

/-- A frame received on a channel, or a message decapsulated, passes the gateway. -/
def Dev.gateway (s : Dev) (m : Msg) : Dev :=
  match s.canFilter m with
  | (s, false) => s
  | (s, true) => match s.udsCheck m with
    | (s, false) => s
    | (s, true) => match s.lookupRoute m with
      | none => s.routeMiss m
      | some r =>
        if !bit r.2.2 63 then s.deliver m r
        else match s.verify m (fld r.2.2 58 48) with
          | (s, false) => s
          | (s, true) => s.deliver m r

/-- A frame ends on a CAN channel (R317, R321). -/
def Dev.canRx (s : Dev) (n : Nat) (f : CanFrame) (sinceSof : Nat) : Dev :=
  if !s.canOn n then s
  else if !s.canFmtOn n f.fmt then
    if s.rb (canReg n 0) 23 then s.canEvent n 40 3
    else (s.count (canReg n 0x108)).setCanErrs n { s.canErrs n with rx := (s.canErrs n).rx + 1 }
  else
    let s := (s.count (canReg n 0x100)).setCanErrs n ((s.canErrs n).received n s.now)
    let s := s.wakeCan n f.ide f.id.toNat
    if s.safe then s else s.gateway ⟨n, 0, s.canZone n, s.now - sinceSof, false, f⟩

/-! ## Decapsulation (R340) -/

/-- A fault of decapsulation. -/
def Dev.decapErr (s : Dev) (cause : Nat) : Dev := (s.count cDecapErr).acfErr cause

/-- The frame of an ACF message's octets, with its bus and whether it is a LIN message; none for another type. -/
def acfFrame (o : List Byte) : Option (Nat × Bool × CanFrame) :=
  let ty := beAt o 0 1 / 2
  let b2 := o.getD 2 0
  let pad := b2.toNat / 64
  let body (n : Nat) : List Byte := (o.drop n).take (o.length - n - pad)
  let can (n : Nat) : CanFrame :=
    ⟨if b2.getLsbD 1 then .fd else .classical, b2.getLsbD 3, b2.getLsbD 4, b2.getLsbD 2, b2.getLsbD 0,
     BitVec.ofNat 29 (beAt o (n - 4) 4), 0, 0, false, 0, body n⟩
  match ty with
  | 1 => some (beAt o 3 1 % 32, false, can 16)
  | 2 => some (beAt o 3 1 % 32, false, can 8)
  | 3 => some (b2.toNat % 32, true, linFrame (beAt o 3 1 % 64) (body 12))
  | _ => none

/-- The messages of a frame in order; `k` bounds their number. -/
def Dev.decapMessages (s : Dev) (zone : Nat) : Nat → List Byte → Dev
  | 0, _ => s
  | _, [] => s
  | k + 1, o =>
    let len := beAt o 0 2 % 512 * 4
    if len = 0 ∨ len > o.length then s.decapErr 1
    else
      let s := match acfFrame (o.take len) with
        | some (bus, lin, f) => s.gateway ⟨24, bus, zone, s.now, lin, f⟩
        | none => s.decapErr 2
      s.decapMessages zone k (o.drop len)

/-- The decapsulator takes the next frame queued to P39, with the tags of R155. -/
def Dev.decapNext (s : Dev) : Dev :=
  match s.decap with
  | [] => s
  | id :: r =>
    let s := { s with decap := r }
    match s.stored id with
    | none => s
    | some f =>
      let all := s.edit 39 f
      let at_ := 14 + 4 * (vlanTags all).1
      let o := all.drop at_
      let len := beAt o 1 2 % 2048
      let s := if beAt all (at_ - 2) 2 ≠ 0x22F0 ∨ o.getD 0 0 ≠ 0x82 ∨ 12 + len > o.length then s.decapErr 1
        else s.decapMessages f.zone len ((o.drop 12).take len)
      s.giveDesc.release id

/-! ## Commands (R334, R347) -/

/-- Whether a source is a listed value of a present channel. -/
def Dev.srcListed (s : Dev) (src : Nat) : Bool := canPresent s.variant src && src < 24 || src = 24 || (32 ≤ src && linPresent s.variant (src - 32))

/-- Destination bits of absent channels cleared. -/
def Dev.presentDests (s : Dev) (w : DWord) : DWord :=
  let can := (bitsOf 24 (fld w 63 40)).foldl (fun a n => if canPresent s.variant n then a + 2 ^ n else a) 0
  let lin := (bitsOf 16 (fld w 39 24)).foldl (fun a n => if linPresent s.variant n then a + 2 ^ n else a) 0
  setFld (setFld w 63 40 can) 39 24 lin

/-- ROUTE_ADD. -/
def Dev.routeAdd (s : Dev) (d : CmdDesc) : CmdRes :=
  let src := fld d.p8 62 57
  let mask := s.rf (rootsReg (0x1000 + 0x40 * src + 4 * fld d.p8 51 48)) 28 0
  if !bit d.p8 63 || !s.srcListed src || (src ≠ 24 && fld d.p8 56 52 ≠ 0) || fld d.p8 28 0 &&& mask ≠ fld d.p8 28 0 then .fail s stBadParam
  else
    let r := (d.p8, s.presentDests d.p16, d.p24)
    match s.findRoute d.p8 with
    | some i => .done (s.setRoute i (some r)) stOk 0 0
    | none => match ((List.range 8).map (8 * s.routeBucket d.p8 + ·)).find? (fun i => (s.route i).isNone) with
      | some i => .done (s.setRoute i (some r)) stOk 0 0
      | none => .fail s stFull

/-- ROUTE_DEL and ROUTE_READ. -/
def Dev.routeDel (s : Dev) (d : CmdDesc) : CmdRes :=
  match s.findRoute d.p8 with
  | some i => .done (s.setRoute i none) stOk 0 0
  | none => .fail s stNotFound
def Dev.routeRead (s : Dev) (d : CmdDesc) : CmdRes :=
  match (s.findRoute d.p8).bind s.route with
  | some r => .done s stOk (fld r.2.2 63 32) r.2.1.toNat
  | none => .fail s stNotFound

/-- ROUTE_FLUSH. -/
def Dev.routeFlush (s : Dev) (d : CmdDesc) : CmdRes :=
  let goes (r : Option (DWord × DWord × DWord)) : Bool := !bit d.p8 6 || match r with | some r => fld r.1 62 57 = fld d.p8 5 0 | none => false
  let n := s.roots.routes.countP (fun e => goes e.2)
  let s := s.onRoots (fun r => { r with routes := r.routes.keep (fun _ r => !goes r) })
  .done (s.setReg (rootsReg 4) (BitVec.ofNat 32 s.roots.routes.length)) stOk n 0

/-- AUTH_SET. -/
def Dev.authSet (s : Dev) (d : CmdDesc) : CmdRes :=
  let w := d.p16
  let e : AuthEntry := ⟨bit w 62, fld w 61 52, fld w 51 41, fld w 40 37 + 1, fld w 36 33, fld w 32 26, d.p24.toNat, fld d.p32 63 32, 0, false⟩
  if e.slot > 575 ∨ e.authLen > 2043 ∨ e.fvTx > 8 ∨ e.fvWidth < 8 ∨ e.fvWidth > 64 ∨ e.fv > e.fvMax then .fail s stBadParam
  else
    let i := fld d.p8 10 0
    let lower : Bool := match s.auth i with | some x => x.slot = e.slot && decide (e.fv < x.fv) | none => false
    if lower then .fail s 0x40 else .done (s.setAuth i (if bit w 63 then some e else none)) stOk 0 0

/-- AUTH_READ. -/
def Dev.authRead (s : Dev) (d : CmdDesc) : CmdRes :=
  match s.auth (fld d.p8 10 0) with
  | some e => .done s stOk e.fails.toNat e.fv
  | none => .fail s stNotFound

/-! ## The meanings -/

/-- CAN_FRAME_RX. -/
def execCanFrameRx (n : Fin 24) (frame : CanFrame) (sinceSof : BitVec 32) (s : State) := s.onDev (·.canRx n.val frame sinceSof.toNat)
/-- ENC_BATCH_HOLD_EXPIRY. -/
def execEncBatchHoldExpiry (st : Fin 256) (s : State) :=
  s.onDev (fun x => match x.batch st.val with
    | some b => if x.now ≥ b.since + x.rf (encReg st.val 4) 9 0 * usRaw then x.closeBatch st.val else x
    | none => x)
/-- ENC_DISABLE (R335, R338): a fall closes the open batch; a rise starts the sequence at zero. -/
def execEncDisable (a : Acc) (st : Fin 256) (en : Bool) (s : State) :=
  s.onDev (fun x => x.writeEn a (encReg st.val 0) en (fun x =>
    if en = x.rb (encReg st.val 0) 31 then x
    else if en then (x.setRb (encReg st.val 0) 31 true).setRf (encReg st.val 0x1C) 7 0 0
    else (x.closeBatch st.val).setRb (encReg st.val 0) 31 false))
/-- ROUTE_ADD. -/
def execRouteAdd (d : CmdDesc) (s : State) :=
  s.onDev (fun x => x.command d (isOne 0x31) (isOne 64) 1 [0xFFFF80001FFFFFFF, 0xFFFFFFFFFFFFC000, 0x87FF87FF00000000, 0, 0] (some kCommand) (·.routeAdd d))
/-- ROUTE_DEL. -/
def execRouteDel (d : CmdDesc) (s : State) :=
  s.onDev (fun x => x.command d (isOne 0x31) (isOne 64) 2 [0xFFFF80001FFFFFFF, 0, 0, 0, 0] (some kCommand) (·.routeDel d))
/-- ROUTE_READ. -/
def execRouteRead (d : CmdDesc) (s : State) :=
  s.onDev (fun x => x.command d (isOne 0x31) (isOne 64) 3 [0xFFFF80001FFFFFFF, 0, 0, 0, 0] none (·.routeRead d))
/-- ROUTE_FLUSH. -/
def execRouteFlush (d : CmdDesc) (s : State) :=
  s.onDev (fun x => x.command d (isOne 0x31) (isOne 64) 4 [0x7F, 0, 0, 0, 0] (some kCommand) (·.routeFlush d))
/-- AUTH_SET. -/
def execAuthSet (d : CmdDesc) (s : State) :=
  s.onDev (fun x => x.command d (isOne 0x31) (isOne 66) 1 [0x7FF, 0xFFFFFFFFFC000000, all64, 0xFFFFFFFF00000000, 0] (some kCommand) (·.authSet d))
/-- AUTH_READ. -/
def execAuthRead (d : CmdDesc) (s : State) :=
  s.onDev (fun x => x.command d (isOne 0x31) (isOne 66) 2 [0x7FF, 0, 0, 0, 0] none (·.authRead d))
/-- AUTH_CLEAR. -/
def execAuthClear (d : CmdDesc) (s : State) :=
  s.onDev (fun x => x.command d (isOne 0x31) (isOne 66) 3 [0x7FF, 0, 0, 0, 0] (some kCommand)
    (fun x => .done (x.setAuth (fld d.p8 10 0) none) stOk 0 0))

end Sys2Proof.Machine
end

