-- ==== Sys2Proof/Machine/LinBus.lean ====
section
/-! DEFINITION. LIN channels: enabling, schedules, headers, responses and errors (R325 to R328, R350). -/
namespace Sys2Proof.Machine

/-- What a channel holds beside its registers. -/
def Dev.linRun (s : Dev) (l : Nat) : LinRun := s.roots.lin.get .idle l
def Dev.setLinRun (s : Dev) (l : Nat) (r : LinRun) : Dev := s.onRoots (fun x => { x with lin := x.lin.put .idle l r })

/-- Whether a channel is on its bus, and whether it commands it. -/
def Dev.linOn (s : Dev) (l : Nat) : Bool := linPresent s.variant l && s.linPowered l && s.rb (linReg l 0) 31
def Dev.linCommands (s : Dev) (l : Nat) : Bool := s.linOn l && s.rb (linReg l 0) 30

/-- A schedule entry, and the length of a table. -/
def schedReg (l t k : Nat) : Nat := linReg l (0x100 + 0x100 * t + 4 * k)
def Dev.schedLen (s : Dev) (l t : Nat) : Nat := if t = 0 then s.rf (linReg l 8) 14 8 else s.rf (linReg l 8) 22 16

/-- Whether an entry has a valid TYPE, LEN and SLOT. -/
def schedOk (w : Word) : Bool := fld w 31 30 < 2 && 1 ≤ fld w 29 26 && fld w 29 26 ≤ 8 && 10 ≤ fld w 15 0

/-- LIN_CTL.EN is written (R350). -/
def Dev.linEnable (s : Dev) (l : Nat) (en : Bool) : Dev :=
  if en = s.rb (linReg l 0) 31 then s
  else if !en then (s.setRb (linReg l 0) 31 false).setLinRun l .idle
  else
    let baud := s.rf (linReg l 0) 15 0
    let table (t : Nat) : Bool := (List.range (s.schedLen l t)).all (fun k => schedOk (s.reg (schedReg l t k)))
    if 1000 ≤ baud && baud ≤ 20000 && (!s.rb (linReg l 0) 30 || (table 0 && table 1)) then s.setRb (linReg l 0) 31 true
    else s.setRb (linReg l 4) 16 true

/-- LIN_ERROR (R328): 1 no response, 2 checksum, 3 framing, 4 bit, 5 parity; counted in NO_RESP, CKSUM_ERR or OTHER_ERR. -/
def Dev.linError (s : Dev) (l id cause : Nat) : Dev :=
  (s.count (linReg l (if cause = 1 then 0x30C else if cause = 2 then 0x310 else 0x314))).raiseRated 43 cause 0x31 (32 + l) 0 msRaw
    (fun _ => id) (fun n => n)

/-- The cause of an error. -/
def linCause : LinErr → Nat | .framing => 3 | .bit => 4 | .parity => 5

/-- The protected identifier of ISO 17987: the identifier with its two parity bits. -/
def linPid (id : Nat) : Nat :=
  let b (i : Nat) : Nat := id / 2 ^ i % 2
  id % 64 + 64 * ((b 0 + b 1 + b 2 + b 4) % 2) + 128 * ((b 1 + b 3 + b 4 + b 5 + 1) % 2)

/-- The checksum of a response under ISO 17987: the inverted sum with carry of its octets, and of the protected identifier where it is
enhanced; 0x3C and 0x3D are always classic (R325). -/
def linChecksum (enh : Bool) (id : Nat) (data : List Byte) : Nat :=
  let seed := if enh && id ≠ 0x3C && id ≠ 0x3D then linPid id else 0
  255 - data.foldl (fun a b => if a + b.toNat > 255 then a + b.toNat - 255 else a + b.toNat) seed

/-- Octets of a frame buffer. -/
def Dev.fbuf (s : Dev) (l id n : Nat) : List Byte :=
  (leBytes 4 (s.reg (fbufReg l id 0)).toNat ++ leBytes 4 (s.reg (fbufReg l id 4)).toNat).take n

/-- A header leaves on a LIN channel, alone or with its response and the response's checksum. -/
def Dev.linHead (s : Dev) (l id : Nat) : Dev := { s with out := .lin l id none :: s.out }
def Dev.linSend (s : Dev) (l id n : Nat) (enh : Bool) : Dev :=
  let d := s.fbuf l id n
  ({ s with out := .lin l id (some (d, linChecksum enh id d)) :: s.out } : Dev).count (linReg l 0x304)

/-- LIN_SCHED (R327). -/
def Dev.linSched (s : Dev) (l cause : Nat) : Dev := s.raise 42 cause 0x31 (32 + l) 0 0

/-- The raw time of `n` bits on a channel. -/
def Dev.linBits (s : Dev) (l n : Nat) : Nat := n * 102400 * 1000000 / max 1 (s.rf (linReg l 0) 15 0)

/-- 1.4 times the nominal response of `n` octets after the nominal header of ISO 17987, in raw time. -/
def Dev.linResponseTime (s : Dev) (l n : Nat) : Nat := s.linBits l 34 + s.linBits l (14 * (n + 1))

/-- SCHED_CTL.RUN is written (R327): a rise starts at entry 0 of the table that SEL names. The responses awaited stay awaited. -/
def Dev.linRunWrite (s : Dev) (l : Nat) (run : Bool) : Dev :=
  if run = s.rb (linReg l 8) 31 then s else (s.setRb (linReg l 8) 31 run).setLinRun l { LinRun.idle with waiting := (s.linRun l).waiting }

/-- SWITCH is written: one that waits already ignores it. -/
def Dev.linSwitch (s : Dev) (l : Nat) : Dev := s.setLinRun l { s.linRun l with switching := true }

/-- A slot of the schedule starts (R326, R327). -/
def Dev.linSlot (s : Dev) (l : Nat) : Dev :=
  let r := s.linRun l
  let due : Bool := match r.slotAt with | some (t, d) => decide (s.now ≥ t + d) | none => true
  if !s.linCommands l || !s.rb (linReg l 8) 31 || s.safe || !due then s
  else
    let sel := s.rf (linReg l 4) 0 0
    let wraps : Bool := !r.switching && r.next ≥ s.schedLen l sel
    let t := if r.switching then 1 - sel else sel
    let k := if r.switching || wraps then 0 else r.next
    let s := if r.switching then (s.setRf (linReg l 4) 0 0 t).linSched l 1 else s
    let s := if wraps && s.rb (linReg l 0) 27 then s.linSched l 2 else s
    let w := s.reg (schedReg l t k)
    let id := fld w 21 16
    let n := fld w 29 26
    let s := s.setRf (linReg l 4) 13 8 k
    let go (s : Dev) (more : List LinWait) : Dev := s.setLinRun l ⟨k + 1, false, some (s.now, fld w 15 0 * 100 * usRaw), r.waiting ++ more⟩
    if fld w 31 30 = 0 then
      if s.rb (fbufReg l id 8) 31 then go (s.linSend l id n (bit w 23)) [] else go (s.count (linReg l 0x308)) []
    else go (s.linHead l id) [⟨id, s.now + s.linResponseTime l n, bit w 23⟩]

/-- A header arrives on a channel (R326): a responder answers from its buffer. -/
def Dev.linHeader (s : Dev) (l id : Nat) (err : Option LinErr) : Dev :=
  if !s.linOn l then s
  else match err with
    | some e => s.linError l id (linCause e)
    | none =>
      let f := s.reg (fbufReg l id 8)
      if !s.linCommands l && bit f 31 && bit f 30 && !s.safe then s.linSend l id (fld f 19 16) (bit f 29) else s

/-- A response arrives on a channel (R326): a valid one is written to its buffer and routed. Its checksum is of the kind its slot
asks for where the channel awaits it, and else of the kind its buffer says. -/
def Dev.linResponse (s : Dev) (l id : Nat) (data : List Byte) (cksum : Nat) (err : Option LinErr) (sinceBreak : Nat) : Dev :=
  if !s.linOn l then s
  else
    let r := s.linRun l
    let mine := r.waiting.find? (·.id = id)
    let enh := match mine with | some w => w.enh | none => s.rb (fbufReg l id 8) 29
    let s := match mine with | some w => s.setLinRun l { r with waiting := r.waiting.erase w } | none => s
    match err with
    | some e => s.linError l id (linCause e)
    | none => if cksum ≠ linChecksum enh id (data.take 8) then s.linError l id 2 else
      let f := linFrame id (data.take 8)
      let s := (s.count (linReg l 0x300)).wakeLin l id
      let s := (s.linDeliver l f).setRb (fbufReg l id 8) 0 true
      if s.safe then s else s.gateway ⟨32 + l, 0, s.linZone l, s.now - sinceBreak, true, f⟩

/-- A response awaited did not come in time. -/
def Dev.linNoResponse (s : Dev) (l : Nat) : Dev :=
  let r := s.linRun l
  match r.waiting.find? (fun w => s.now ≥ w.till) with
  | some w => (s.setLinRun l { r with waiting := r.waiting.erase w }).linError l w.id 1
  | none => s

/-- LIN_ENABLE. -/
def execLinEnable (a : Acc) (l : Fin 16) (en : Bool) (s : State) := s.onDev (fun x => x.writeEn a (linReg l.val 0) en (·.linEnable l.val en))
/-- LIN_SCHED_RUN. -/
def execLinSchedRun (a : Acc) (l : Fin 16) (run : Bool) (s : State) :=
  s.onDev (fun x => x.writeEn a (linReg l.val 8) run (·.linRunWrite l.val run))
/-- LIN_SLOT_START. -/
def execLinSlotStart (l : Fin 16) (s : State) := s.onDev (·.linSlot l.val)
/-- LIN_SCHED_SWITCH. -/
def execLinSchedSwitch (a : Acc) (l : Fin 16) (s : State) := s.onDev (fun x => x.writeBit a (linReg l.val 8) 30 (·.linSwitch l.val))
/-- LIN_HEADER_RX. -/
def execLinHeaderRx (l : Fin 16) (id : BitVec 6) (err : Option LinErr) (s : State) := s.onDev (·.linHeader l.val id.toNat err)
/-- LIN_RESPONSE_RX. -/
def execLinResponseRx (l : Fin 16) (id : BitVec 6) (data : List (BitVec 8)) (cksum : BitVec 8) (err : Option LinErr)
    (sinceBreak : BitVec 32) (s : State) :=
  s.onDev (·.linResponse l.val id.toNat data cksum.toNat err sinceBreak.toNat)
/-- LIN_RESPONSE_TIMEOUT. -/
def execLinResponseTimeout (l : Fin 16) (s : State) := s.onDev (·.linNoResponse l.val)

end Sys2Proof.Machine
end

