-- ==== Sys2Proof/Machine/Power.lean ====
section
/-! DEFINITION. The units powered in a mode and what a change of them does to the ports (R479 to R481). -/
namespace Sys2Proof.Machine

/-- A port that has just been powered: an enabled one starts under R88. -/
def Dev.portStart (s : Dev) (n : Nat) : Dev := if s.portEn n then s.portUpFrom n else s

/-- The RW fields of a channel reach it as it is powered (R506): its standby pin follows. -/
def Dev.canPin (s : Dev) (n : Nat) : Dev :=
  if s.redListen n && (s.canEnding n).isNone then s else s.pin "CAN_STB" (2 * n + (s.rb (canReg n 0) 25).toNat)

/-- A port loses its power: reception is aborted, and its link is DISABLED (R479). -/
def Dev.portPowerOff (s : Dev) (n : Nat) : Dev := if s.portEn n then (s.portStop n).setLink n 0 else s

/-- The units powered have changed from those of `old` (R479 to R481): Groves that come up start to copy, ports that go down stop,
ports that come up start once their Grove holds its copy, and a channel that goes down drops what it has queued. -/
def Dev.powerDiff (s old : Dev) : Dev :=
  let up := (List.range 4).filter (fun g => s.grovePowered g && !old.grovePowered g)
  let s := s.onTapState (fun t => { t with copying := (t.copying.filter s.grovePowered) ++ up })
  let s := (List.range 36).foldl (fun (s : Dev) n =>
    if !portPresent s.variant n then s
    else if old.portPowered n && !s.portPowered n then s.portPowerOff n
    else if !old.portPowered n && s.portPowered n && !s.portWaits n then s.portStart n
    else s) s
  let s := (hostPorts s.variant).foldl (fun (s : Dev) h => if old.portPowered (36 + h) && !s.portPowered (36 + h) then s.hostDown h else s) s
  let s := ((List.range 24).filter (canPresent s.variant)).foldl (fun (s : Dev) n =>
    if old.canPowered n && !s.canPowered n then s.canFlush n else if !old.canPowered n && s.canPowered n then s.canPin n else s) s
  let s := ((List.range 16).filter (linPresent s.variant)).foldl (fun (s : Dev) l =>
    if !old.linPowered l && s.linPowered l then s.pin "LIN_EN" (2 * l + (s.rb (linReg l 0) 29).toNat) else s) s
  s.ballot

end Sys2Proof.Machine
end

