-- ==== Sys2Proof/Machine/Safe.lean ====
section
/-! DEFINITION. The entry into SAFE and the outputs it holds (R517 to R521). -/
namespace Sys2Proof.Machine

/-- SAFE_STATE (R518). -/
def Dev.safeEvent (s : Dev) (cause a : Nat) : Dev := s.raise 59 cause 0x70 0 a s.tick

/-- Discard a frame of a queue, wherever it is held now. -/
def Dev.dropDesc (s : Dev) (q : Nat) (x : Desc) : Dev :=
  let d := ((s.tq q).descs.find? (fun e => e.seq = x.seq)).getD x
  let s := if d.loc = .chip then s else s.giveExt (1 + cellsOf (s.descLen d))
  let s := if d.loc = .ovf ∨ d.loc = .filling then s.setRf (queueReg q 0x38) 15 0 (s.rf (queueReg q 0x38) 15 0 - 1) else s.giveDesc
  (s.unqueue q d.seq).release d.frame

/-- Discard every frame queued to a port, counted in SAFE_DROP (R520). -/
def Dev.flushQueue (s : Dev) (q : Nat) : Dev :=
  (s.tq q).descs.foldl (fun (s : Dev) (d : Desc) => (s.dropDesc q d).count (rasReg 0xC)) s

/-- Discard the frames queued to P39. -/
def Dev.flushDecap (s : Dev) : Dev :=
  s.decap.foldl (fun (s : Dev) id => ((s.giveDesc).release id).count (rasReg 0xC)) { s with decap := [] }

/-- Frames on their way to enqueue go on to host ports and P38 only. -/
def Dev.flushPassed (s : Dev) : Dev :=
  let l := s.passed
  l.foldl (fun (s : Dev) f =>
    match f.verdict with
    | none => (s.discard f).count (rasReg 0xC)
    | some v =>
      let v := { v with bitmap := (List.range 3).foldl (fun a i => if v.bitmap.testBit (36 + i) then a + 2 ^ (36 + i) else a) 0
                        mirror := match v.mirror with | some m => if m < 36 then none else some m | none => none }
      if f.waiting || !v.goesOn then (s.discard f).count (rasReg 0xC) else { s with passed := s.passed ++ [{ f with verdict := some v }] })
    { s with passed := [] }

/-- The outputs of the clusters in SAFE (R520). -/
def Dev.safeOutputs (s : Dev) : Dev :=
  let ports := (List.range 36).filter (portPresent s.variant)
  let s := ports.foldl (fun (s : Dev) n => let s := s.quietBit n; if s.portEn n then s.portSafe n else s) s
  let s := ports.foldl (fun (s : Dev) n => s.gateApply n) s
  let s := (((List.range 288).foldl (fun (s : Dev) q => s.flushQueue q) s).flushDecap).flushPassed
  let s := ((List.range 24).filter (canPresent s.variant)).foldl
    (fun (s : Dev) n => s.canHold n (s.redListen n)) s
  let s := ((List.range 16).filter (linPresent s.variant)).foldl
    (fun (s : Dev) l =>
      let s := if s.rb (linReg l 0) 29 then s else s.pin "LIN_EN" (2 * l + 1)
      (s.linRunWrite l false).setRb (linReg l 0) 29 true) s
  (((List.range 4).foldl (fun (s : Dev) k => s.pin "PPS_OUT" (2 * k)) s).pin "SAFE_N" 0).pin "HB_OUT" 0

/-- A condition of R517 is met. A sleep under way ends: PWR_REQ stays high and the ballot IDLE (R520). In SAFE already, it leaves its own record and nothing else (R518); otherwise the device
enters SAFE. -/
def Dev.enterSafe (s : Dev) (cause cl un : Nat) : Dev :=
  if s.safe then s.safeEvent cause (cl * 256 + un)
  else
    let s := s.setReg (rasReg 0) (BitVec.ofNat 32 (2 ^ 31 + cl * 65536 + un * 256 + cause))
    let s := ((s.changeMode 10 6).logHw kHardware 0x70 0 0 cause).powerDiff s
    let s := (s.safeOutputs).safeEvent cause (cl * 256 + un)
    let s := s.canopyIrq "CANOPY" cause
    (if s.bstate ≥ 2 then s.setBstate 0 else s).ballot

/-- BOTH_LOST_RISE (R271, R517): the rise enters SAFE while a gate list is enabled on a port. -/
def execBothLostRise (s : State) :=
  s.onDev (fun x =>
    let y := x.bothLostRise
    if y.bothLost && !x.bothLost && (List.range 36).any (fun n => y.rb (crownReg n 0x10) 31) then y.enterSafe 3 0x22 3 else y)

/-- SAFE_REQ (R517). -/
def execSafeReq (a : Acc) (s : State) := s.onDev (fun x => x.writeBit a (rasReg 8) 0 (·.enterSafe 6 0x70 0))

/-- TEMP_SHUTDOWN (R517): the junction has been at or above TEMP_SHUT for 100 µs. -/
def execTempShutdown (temp : BitVec 16) (s : State) :=
  s.onDev (fun x =>
    let y := x.setRf (rasReg 0x10) 15 0 temp.toNat
    if temp.toInt ≥ 8 * (y.rf (rasReg 0x14) 7 0 : Int) then y.enterSafe 4 0x70 0 else y)

end Sys2Proof.Machine
end

