-- ==== Sys2Proof/Machine/Signatures.lean ====
section
/-! DEFINITION. The algorithms of the signature engine (R393): Ed25519 of RFC 8032, SHAKE of FIPS 202 and ML-DSA-65 of FIPS 204, pure and
with an empty context string. The spec names the standards; their text is theirs (PRESUMED, log entry 72). -/
namespace Sys2Proof.Machine

/-- `b ^ e` modulo `m`, for an exponent of at most `k` bits. -/
def powMod (m b : Nat) : Nat → Nat → Nat
  | 0, _ => 1
  | k + 1, e =>
    let r := powMod m b k (e / 2)
    let r := r * r % m
    if e % 2 = 1 then r * b % m else r

/-! ## Ed25519 (RFC 8032) -/

/-- The field's prime, the group's order and the curve's constant. -/
def edP : Nat := 2 ^ 255 - 19
def edL : Nat := 2 ^ 252 + 27742317777372353535851937790883648493
def edInv (x : Nat) : Nat := powMod edP x 255 (edP - 2)
def edD : Nat := (edP - 121665) * edInv 121666 % edP

/-- A point in extended coordinates: X, Y, Z and T. -/
structure EdPoint where
  x : Nat
  y : Nat
  z : Nat
  t : Nat

/-- The neutral element. -/
def EdPoint.zero : EdPoint := ⟨0, 1, 1, 0⟩

/-- The sum of two points. -/
def EdPoint.add (p q : EdPoint) : EdPoint :=
  let a := (p.y + edP - p.x) * (q.y + edP - q.x) % edP
  let b := (p.y + p.x) * (q.y + q.x) % edP
  let c := 2 * p.t * q.t % edP * edD % edP
  let d := 2 * p.z * q.z % edP
  let e := (b + edP - a) % edP
  let f := (d + edP - c) % edP
  let g := (d + c) % edP
  let h := (b + a) % edP
  ⟨e * f % edP, g * h % edP, f * g % edP, e * h % edP⟩

/-- A multiple of a point, for a factor of at most `k` bits. -/
def EdPoint.mul (p : EdPoint) : Nat → Nat → EdPoint
  | 0, _ => .zero
  | k + 1, n =>
    let h := p.mul k (n / 2)
    let h := h.add h
    if n % 2 = 1 then h.add p else h

/-- Whether two triples of coordinates name one point. -/
def EdPoint.same (p q : EdPoint) : Bool := p.x * q.z % edP = q.x * p.z % edP && p.y * q.z % edP = q.y * p.z % edP

/-- The x of a point with this y and sign of x. -/
def edRecoverX (y sign : Nat) : Option Nat :=
  if y ≥ edP then none
  else
    let x2 := (y * y + edP - 1) % edP * edInv ((edD * y % edP * y + 1) % edP) % edP
    if x2 = 0 then (if sign = 1 then none else some 0)
    else
      let r := powMod edP x2 253 ((edP + 3) / 8)
      let r := if r * r % edP = x2 then r else r * powMod edP 2 254 ((edP - 1) / 4) % edP
      if r * r % edP ≠ x2 then none else some (if r % 2 = sign then r else edP - r)

/-- The base point. -/
def edBase : EdPoint :=
  let x := 15112221349535400772501151409588531511454012693041857206046113283949847762202
  let y := 46316835694926478169428394003475163141307993866256225615783033603165251855960
  ⟨x, y, 1, x * y % edP⟩

/-- A point as 32 octets, and 32 octets as a point. -/
def EdPoint.octets (p : EdPoint) : List Byte :=
  let i := edInv p.z
  leBytes 32 (p.y * i % edP + p.x * i % edP % 2 * 2 ^ 255)
def edDecode (o : List Byte) : Option EdPoint :=
  let n := leNat o
  let y := n % 2 ^ 255
  (edRecoverX y (n / 2 ^ 255)).map (fun x => ⟨x, y, 1, x * y % edP⟩)

/-- The secret scalar of a seed, and the prefix of its nonces. -/
def edScalar (seed : List Byte) : Nat := (leNat ((sha512 seed).take 32) % 2 ^ 254) / 8 * 8 + 2 ^ 254
def edPrefix (seed : List Byte) : List Byte := (sha512 seed).drop 32

/-- The public key of a seed. -/
@[irreducible] def edPublic (seed : List Byte) : List Byte := (edBase.mul 255 (edScalar seed)).octets

/-- A signature. -/
@[irreducible] def edSign (seed msg : List Byte) : List Byte :=
  let a := edPublic seed
  let r := leNat (sha512 (edPrefix seed ++ msg)) % edL
  let rp := (edBase.mul 253 r).octets
  let k := leNat (sha512 (rp ++ a ++ msg)) % edL
  rp ++ leBytes 32 ((r + k * edScalar seed) % edL)

/-- Whether a signature verifies: the cofactored equation of RFC 8032, 5.1.7. -/
@[irreducible] def edVerify (pub sig msg : List Byte) : Bool :=
  let s := leNat (sig.drop 32)
  match edDecode pub, edDecode (sig.take 32) with
  | some a, some r =>
    let k := leNat (sha512 (sig.take 32 ++ pub ++ msg)) % edL
    pub.length = 32 && sig.length = 64 && s < edL
      && ((edBase.mul 253 s).mul 4 8).same ((r.add (a.mul 253 k)).mul 4 8)
  | _, _ => false

/-! ## SHAKE (FIPS 202) -/

/-- The lanes of Keccak's state, lane (x, y) at 5 y + x. -/
abbrev Keccak := List (BitVec 64)

/-- The rotation of each lane, and the constant of each round. -/
def keccakRot : List Nat := [0, 1, 62, 28, 27, 36, 44, 6, 55, 20, 3, 10, 43, 25, 39, 41, 45, 15, 21, 8, 18, 2, 61, 56, 14]
def keccakRc : List (BitVec 64) :=
  [0x0000000000000001, 0x0000000000008082, 0x800000000000808A, 0x8000000080008000, 0x000000000000808B, 0x0000000080000001,
   0x8000000080008081, 0x8000000000008009, 0x000000000000008A, 0x0000000000000088, 0x0000000080008009, 0x000000008000000A] ++
  [0x000000008000808B, 0x800000000000008B, 0x8000000000008089, 0x8000000000008003, 0x8000000000008002, 0x8000000000000080,
   0x000000000000800A, 0x800000008000000A, 0x8000000080008081, 0x8000000000008080, 0x0000000080000001, 0x8000000080008008]

/-- One round: theta, rho and pi, chi, iota. -/
def keccakRound (s : Keccak) (rc : BitVec 64) : Keccak :=
  let at_ (l : Keccak) (x y : Nat) : BitVec 64 := l.getD (5 * (y % 5) + x % 5) 0
  let c := (List.range 5).map (fun x => at_ s x 0 ^^^ at_ s x 1 ^^^ at_ s x 2 ^^^ at_ s x 3 ^^^ at_ s x 4)
  let d := (List.range 5).map (fun x => c.getD ((x + 4) % 5) 0 ^^^ (c.getD ((x + 1) % 5) 0).rotateLeft 1)
  let a := s.zipIdx.map (fun (e : BitVec 64 × Nat) => (e.1 ^^^ d.getD (e.2 % 5) 0).rotateLeft (keccakRot.getD e.2 0))
  -- pi: lane (x, y) takes lane (x + 3 y, x)
  let b := (List.range 25).map (fun i => at_ a (i % 5 + 3 * (i / 5)) (i % 5))
  let e := (List.range 25).map (fun i => at_ b (i % 5) (i / 5) ^^^ (~~~(at_ b (i % 5 + 1) (i / 5)) &&& at_ b (i % 5 + 2) (i / 5)))
  e.modify 0 (· ^^^ rc)

/-- Keccak-f[1600]. -/
def keccakF (s : Keccak) : Keccak := keccakRc.foldl keccakRound s

/-- A block of octets enters the state. -/
def keccakAbsorb (s : Keccak) (b : List Byte) : Keccak :=
  let l := blocks 8 b
  keccakF (s.zipIdx.map (fun (e : BitVec 64 × Nat) => e.1 ^^^ BitVec.ofNat 64 (leNat (l.getD e.2 []))))

/-- `k` blocks of output of a rate. -/
def keccakSqueeze (rate : Nat) : Nat → Keccak → List Byte
  | 0, _ => []
  | k + 1, s => (s.flatMap (fun w => leBytes 8 w.toNat)).take rate ++ keccakSqueeze rate k (keccakF s)

/-- SHAKE of a rate: `n` octets. -/
def shake (rate : Nat) (m : List Byte) (n : Nat) : List Byte :=
  let z := rate - 1 - m.length % rate
  let padded := m ++ (if z = 0 then [0x9F] else [0x1F] ++ zeros (z - 1) ++ [0x80])
  (keccakSqueeze rate ((n + rate - 1) / rate) ((blocks rate padded).foldl keccakAbsorb (List.replicate 25 0))).take n

/-- SHAKE128 and SHAKE256. -/
def shake128 (m : List Byte) (n : Nat) : List Byte := shake 168 m n
def shake256 (m : List Byte) (n : Nat) : List Byte := shake 136 m n

/-! ## ML-DSA-65 (FIPS 204) -/

/-- The modulus, and a polynomial: 256 coefficients below it. -/
abbrev mlQ : Nat := 8380417
abbrev Poly := List Nat

/-- A power of the 512th root of unity. -/
def mlZeta (e : Nat) : Nat := powMod mlQ 1753 9 (e % 512)

/-- An index of 8 bits reversed. -/
def brv8 (i : Nat) : Nat := (List.range 8).foldl (fun a k => 2 * a + i / 2 ^ k % 2) 0

/-- A polynomial at a point. -/
def polyAt (w : Poly) (x : Nat) : Nat := w.foldr (fun c a => (c + x * a) % mlQ) 0

/-- The number-theoretic transform and its inverse. -/
def ntt (w : Poly) : Poly := (List.range 256).map (fun i => polyAt w (mlZeta (2 * brv8 i + 1)))
def nttInv (v : Poly) : Poly :=
  let u := (List.range 256).map (fun m => v.getD (brv8 m) 0)
  (List.range 256).map (fun j => 8347681 * mlZeta (512 - j) % mlQ * polyAt u (mlZeta (1024 - 2 * j)) % mlQ)

/-- Sums, differences and products by coefficient. -/
def polyAdd (a b : Poly) : Poly := List.zipWith (fun x y => (x + y) % mlQ) a b
def polySub (a b : Poly) : Poly := List.zipWith (fun x y => (x + mlQ - y) % mlQ) a b
def polyMul (a b : Poly) : Poly := List.zipWith (fun x y => x * y % mlQ) a b

/-- A row of a transformed matrix times a transformed vector. -/
def rowMul (a b : List Poly) : Poly := (List.zipWith polyMul a b).foldl polyAdd (List.replicate 256 0)

/-- A coefficient as the integer nearest zero, modulo `m`. -/
def modPm (m r : Nat) : Int := if r % m ≤ m / 2 then (r % m : Nat) else (r % m : Nat) - (m : Int)

/-- The largest coefficient of polynomials, in absolute value. -/
def normOf (l : List Poly) : Nat := l.foldl (fun a p => p.foldl (fun a c => max a (modPm mlQ c).natAbs) a) 0

/-- Power2Round: the high part; the low part is `t` less 2^13 of it. -/
def power2High (r : Nat) : Nat := (((r : Int) - modPm 8192 r) / 8192).toNat

/-- Decompose, with 2 γ2 = 523,776. -/
def decompose (r : Nat) : Nat × Int :=
  let r0 := modPm 523776 r
  if (r : Int) - r0 = 8380416 then (0, r0 - 1) else ((((r : Int) - r0) / 523776).toNat, r0)

/-- An integer as a coefficient. -/
def coeffOf (n : Int) : Nat := (n % (mlQ : Int)).toNat

/-- UseHint. -/
def useHint (h : Bool) (r : Nat) : Nat :=
  let x := decompose r
  if !h then x.1 else if x.2 > 0 then (x.1 + 1) % 16 else (x.1 + 15) % 16

/-- Numbers of `w` bits packed into octets, the first lowest, and unpacked. -/
def packBits (w : Nat) (l : List Nat) : List Byte := leBytes ((w * l.length + 7) / 8) (l.foldr (fun x a => x % 2 ^ w + 2 ^ w * a) 0)
def unpackBits (w n : Nat) (o : List Byte) : List Nat := let x := leNat o; (List.range n).map (fun i => x / 2 ^ (w * i) % 2 ^ w)

/-- RejNTTPoly: the coefficients below q among groups of three octets. -/
def rejNtt (seed : List Byte) : Poly :=
  (((blocks 3 (shake128 seed 1176)).map (fun (b : List Byte) => leNat b % 2 ^ 23)).filter (· < mlQ)).take 256

/-- RejBoundedPoly, η = 4. -/
def rejBounded (seed : List Byte) : Poly :=
  (((shake256 seed 544).flatMap (fun b => [b.toNat % 16, b.toNat / 16])).filter (· < 9)).take 256 |>.map (fun z => (4 + mlQ - z) % mlQ)

/-- ExpandA: six rows of five polynomials, transformed. -/
def expandA (rho : List Byte) : List (List Poly) :=
  (List.range 6).map (fun r => (List.range 5).map (fun s => rejNtt (rho ++ leBytes 1 s ++ leBytes 1 r)))

/-- SampleInBall: places taken one by one from the octets that are left. -/
def ballSteps (signs : Nat) : Nat → List Byte → Poly → Poly
  | 0, _, c => c
  | k + 1, l, c =>
    let i := 255 - k
    let l := l.dropWhile (fun b => b.toNat > i)
    let j := (l.headD 0).toNat
    let c := c.set i (c.getD j 0)
    ballSteps signs k l.tail (c.set j (if signs.testBit (48 - k) then mlQ - 1 else 1))
def sampleInBall (seed : List Byte) : Poly :=
  let o := shake256 seed 544
  ballSteps (leNat (o.take 8)) 49 (o.drop 8) (List.replicate 256 0)

/-- ExpandMask. -/
def expandMask (rho : List Byte) (kappa : Nat) : List Poly :=
  (List.range 5).map (fun r => (unpackBits 20 256 (shake256 (rho ++ leBytes 2 (kappa + r)) 640)).map (fun v => (524288 + mlQ - v) % mlQ))

/-- The keys of a seed: ρ, K, s1, s2 and t. -/
structure MlKey where
  rho : List Byte
  k : List Byte
  s1 : List Poly
  s2 : List Poly
  t : List Poly

/-- Key generation from a seed. -/
def mlKeyOf (seed : List Byte) : MlKey :=
  let h := shake256 (seed ++ [6, 5]) 128
  let rho' := (h.drop 32).take 64
  let s1 := (List.range 5).map (fun r => rejBounded (rho' ++ leBytes 2 r))
  let s2 := (List.range 6).map (fun r => rejBounded (rho' ++ leBytes 2 (r + 5)))
  let n1 := s1.map ntt
  ⟨h.take 32, h.drop 96, s1, s2, List.zipWith (fun row s => polyAdd (nttInv (rowMul row n1)) s) (expandA (h.take 32)) s2⟩

/-- The public key. -/
def MlKey.public (k : MlKey) : List Byte := k.rho ++ k.t.flatMap (fun p => packBits 10 (p.map power2High))

/-- The message representative μ of a pure message with an empty context. -/
def mlMu (pub msg : List Byte) : List Byte := shake256 (shake256 pub 64 ++ [0, 0] ++ msg) 64

/-- HintBitPack. -/
def packHint (h : List (List Bool)) : List Byte :=
  let ix := h.map (fun p => (List.range 256).filter (fun j => p.getD j false))
  let all := ix.flatten
  let ends := (List.range 6).map (fun i => (ix.take (i + 1)).flatten.length)
  (all ++ List.replicate (55 - all.length) 0 ++ ends).map (fun n => BitVec.ofNat 8 n)

/-- Whether a list rises strictly. -/
def risesStrictly : List Nat → Bool
  | a :: b :: l => a < b && risesStrictly (b :: l)
  | _ => true

/-- HintBitUnpack: the indices of each polynomial, where the octets are a hint. -/
def unpackHint (o : List Byte) : Option (List (List Nat)) :=
  let n (i : Nat) : Nat := (o.getD i 0).toNat
  let ends := (List.range 7).map (fun i => if i = 0 then 0 else n (54 + i))
  let parts := (List.range 6).map (fun i => (List.range (ends.getD (i + 1) 0 - ends.getD i 0)).map (fun j => n (ends.getD i 0 + j)))
  let ok : Bool := (List.range 6).all (fun i => ends.getD i 0 ≤ ends.getD (i + 1) 0 && ends.getD (i + 1) 0 ≤ 55)
    && parts.all risesStrictly && (List.range 55).all (fun i => i < n 60 || n i = 0)
  if ok then some parts else none

/-- One attempt of the signing loop: the signature, where it is not rejected. -/
def mlAttempt (k : MlKey) (a : List (List Poly)) (mu rho : List Byte) (kappa : Nat) : Option (List Byte) :=
  let y := expandMask rho kappa
  let ny := y.map ntt
  let w := a.map (fun row => nttInv (rowMul row ny))
  let ct := shake256 (mu ++ w.flatMap (fun p => packBits 4 (p.map (fun c => (decompose c).1)))) 48
  let c := ntt (sampleInBall ct)
  let z := List.zipWith (fun y s => polyAdd y (nttInv (polyMul c (ntt s)))) y k.s1
  let r := List.zipWith (fun w s => polySub w (nttInv (polyMul c (ntt s)))) w k.s2
  let low := r.map (fun p => p.map (fun x => coeffOf (decompose x).2))
  let ct0 := k.t.map (fun t => nttInv (polyMul c (ntt (t.map (fun x => coeffOf (modPm 8192 x))))))
  let h := List.zipWith (fun r t => List.zipWith (fun x v => decide ((decompose x).1 ≠ (decompose ((x + v) % mlQ)).1)) r t) r ct0
  let ones := h.foldl (fun (n : Nat) (p : List Bool) => n + p.countP id) 0
  if normOf z ≥ 524288 - 196 || normOf low ≥ 261888 - 196 || normOf ct0 ≥ 261888 || ones > 55 then none
  else some (ct ++ z.flatMap (fun p => packBits 20 (p.map (fun x => (524288 - modPm mlQ x).toNat))) ++ packHint h)

/-- The signing loop, at most `n` attempts. -/
def mlLoop (k : MlKey) (a : List (List Poly)) (mu rho : List Byte) : Nat → Nat → List Byte
  | 0, _ => zeros 3309
  | n + 1, kappa => match mlAttempt k a mu rho kappa with
    | some s => s
    | none => mlLoop k a mu rho n (kappa + 5)

/-- The public key of a seed; a hedged signature with the random octets `rnd`, within the 814 attempts FIPS 204 asks for. -/
@[irreducible] def mldsaPublic (seed : List Byte) : List Byte := (mlKeyOf seed).public
@[irreducible] def mldsaSign (seed msg rnd : List Byte) : List Byte :=
  let k := mlKeyOf seed
  let mu := mlMu k.public msg
  mlLoop k (expandA k.rho) mu (shake256 (k.k ++ rnd ++ mu) 64) 814 0

/-- Whether a signature verifies. -/
@[irreducible] def mldsaVerify (pub sig msg : List Byte) : Bool :=
  let ct := sig.take 48
  let z := (blocks 640 ((sig.drop 48).take 3200)).map (fun (b : List Byte) => (unpackBits 20 256 b).map (fun v => (524288 + mlQ - v) % mlQ))
  match unpackHint (sig.drop 3248) with
  | none => false
  | some h =>
    let t1 := (blocks 320 (pub.drop 32)).map (fun (b : List Byte) => (unpackBits 10 256 b).map (8192 * ·))
    let c := ntt (sampleInBall ct)
    let nz := z.map ntt
    let w := List.zipWith (fun row t => nttInv (polySub (rowMul row nz) (polyMul c (ntt t)))) (expandA (pub.take 32)) t1
    let w1 := List.zipWith (fun p (ix : List Nat) => p.zipIdx.map (fun (e : Nat × Nat) => useHint (ix.contains e.2) e.1)) w h
    pub.length = 1952 && sig.length = 3309 && normOf z < 524288 - 196
      && shake256 (mlMu pub msg ++ w1.flatMap (packBits 4)) 48 = ct

end Sys2Proof.Machine
end

