-- ==== Sys2Proof/Machine/Keys.lean ====
section
/-! DEFINITION. The key store's commands, the life cycle, random numbers, signatures and the tamper response (R375 to
R400). -/
namespace Sys2Proof.Machine

/-! ## Changes of a slot (R380, R381) -/

/-- A change of slot `n` takes effect: it completes at once, or waits for the uses in progress. -/
def Dev.keyChange (s : Dev) (d : CmdDesc) (op cause n : Nat) (k : KeySlot) : CmdRes :=
  let busy := s.inUse n
  let s := s.setSlot n k
  if busy then .wait { s with burl := { s.burl with changes := s.burl.changes ++ [⟨n, s.burl.serial, d, op, cause⟩] } }
  else .done (s.keyEvent cause n) stOk k.gen.toNat 0

/-- A slot emptied by an uncorrectable error is reclaimed: counted and told (R383). -/
def Dev.slotLost (s : Dev) (n : Nat) : Dev := (s.count (burlReg 0x4020)).keyEvent 6 n

/-- An uncorrectable error in a slot's words (R383): the slot is emptied at once, and reclaimed when the uses of it have ended. -/
def Dev.slotError (s : Dev) (n : Nat) : Dev :=
  if (s.slot n).state ≠ 1 then s
  else
    let busy := s.inUse n
    let s := s.hwSlot n (s.slot n).cleared
    if busy then { s with burl := { s.burl with reclaims := s.burl.reclaims ++ [⟨n, s.burl.serial⟩] } } else s.slotLost n

/-- The earlier uses of a changed slot have ended: its command completes, or its reclamation is told. -/
def Dev.usesEnded (s : Dev) (n : Nat) : Dev :=
  let due := s.burl.reclaims.filter (fun x => x.slot = n && !s.usedBefore n x.serial)
  let s := due.foldl (fun (s : Dev) _ => s.slotLost n) { s with burl := { s.burl with reclaims := s.burl.reclaims.filter (fun x => !due.contains x) } }
  match s.burl.changes.find? (fun c => c.slot = n) with
  | none => s
  | some c =>
    if s.usedBefore n c.serial then s
    else
      let s := { s with burl := { s.burl with changes := s.burl.changes.filter (fun x => x.slot ≠ n) } }
      (s.keyEvent c.cause n).completeLate c.desc c.op (some kKey) stOk (s.slot n).gen.toNat 0

/-- The checks every key-store command meets after those of R68 and R386 (R389, R391, R390), then its own part. -/
def Dev.keyBody (s : Dev) (d : CmdDesc) (f : Nat → KeySlot → CmdRes) : CmdRes :=
  let n := fld d.p8 19 10
  let k := s.slot n
  if n > 575 ∨ d.un ≠ bankUnit n then .fail s stBadParam
  else if k.state = 1 ∧ !k.owner.testBit d.origin then .fail s stDenied
  else if k.state = 3 then .fail s 0x41
  else f n k

/-- A key is written into slot `n` (R376, R380). -/
def Dev.keyWrite (s : Dev) (d : CmdDesc) (op n : Nat) (k new : KeySlot) : CmdRes :=
  if n ≥ 512 then .fail s 0x41
  else if k.state = 1 ∧ k.gen = 0xFFFFFFFF then .fail s stExhausted
  else s.keyChange d op 1 n { new with gen := if k.state = 1 then k.gen + 1 else k.gen }

/-- A new key as a descriptor describes it. -/
def newKey (d : CmdDesc) (usage : Nat) (key256 : Bool) (octets : List Byte) : KeySlot where
  state := 1
  usage := usage
  key256 := key256
  depth := 0
  owner := fld d.p8 30 20
  parent := 0x3FC
  gen := 0
  parentGen := 0
  nonceFixed := BitVec.ofNat 32 (fld d.p8 63 32)
  invocation := 0
  key := BitVec.ofNat 256 (beNat octets * (if key256 then 1 else 2 ^ 128))
  creator := d.origin
  source := 0
  tag := 0

/-- KEY_LOAD. -/
def Dev.keyLoad (s : Dev) (d : CmdDesc) : CmdRes :=
  let key256 := bit d.p8 0
  if !key256 && (d.p32 ≠ 0 || d.p40 ≠ 0) then .fail s stBadParam
  else s.keyBody d (fun n k => s.keyWrite d 0x20 n k (newKey d (fld d.p8 5 4) key256 ((d.octets.drop 8).take (if key256 then 32 else 16))))

/-- Whether a root is the selected one and live (R378, R385). -/
def Dev.rootOk (s : Dev) (n : Nat) : Bool := s.burl.liveRoot = some n && s.lifeCycle = n + 1

/-- KEY_DERIVE (R387). -/
def Dev.keyDerive (s : Dev) (d : CmdDesc) : CmdRes :=
  let p := fld d.p8 9 0
  let key256 := bit d.p40 0
  let usage := fld d.p40 9 8
  if 575 < p ∧ p < 0x3FD then .fail s stBadParam
  else s.keyBody d (fun n k =>
    let make (parent : List Byte) (depth : Nat) (gen : Word) : CmdRes :=
      let ctx := kdfContext s.lifeCycle usage (fld d.p8 30 20) key256 (bit d.p40 4) ((d.octets.drop 24).take 8)
      let o := kdf parent ((d.octets.drop 8).take 16) ctx (if key256 then 32 else 16)
      s.keyWrite d 0x21 n k { newKey d usage key256 o with
        depth := depth, parent := p, parentGen := gen, source := 1, tag := BitVec.ofNat 32 (fld d.p40 63 32) }
    if n ≥ 512 then .fail s 0x41
    else if p ≥ 0x3FD then
      if s.rootOk (p - 0x3FD) then make (rootBytes (p - 0x3FD)) 0 0 else .fail (s.refuseUse p) 0x40
    else
      let x := s.slot p
      if !s.mayUse p uDerive 10 || !x.key256 then .fail (if s.mayUse p uDerive 10 then s else s.refuseUse p) 0x40
      else if x.depth ≥ 7 then .fail s 0x42
      else make x.octets (x.depth + 1) x.gen)

/-- KEY_UNWRAP (R388). -/
def Dev.keyUnwrapCmd (s : Dev) (d : CmdDesc) (mem : HostData) : CmdRes :=
  let p := fld d.p8 9 0
  let key256 := bit d.p24 0
  let len := if key256 then 40 else 24
  if 575 < p ∧ p < 0x3FD then .fail s stBadParam
  else s.keyBody d (fun n k =>
    if n ≥ 512 then .fail s 0x41
    else if !s.mayUse p uWrap 10 then .fail (s.refuseUse p) 0x40
    else
      let x := s.slot p
      if x.depth ≥ 7 then .fail s 0x42
      else if k.state = 1 ∧ k.gen = 0xFFFFFFFF then .fail s stExhausted
      else if mem.err ∨ mem.octets.length < len then .fail (s.dmaFail d.host.val) stDmaErr
      else match keyUnwrap x.octets (mem.octets.take len) with
        | none => .fail s stAuthFail
        | some o => s.keyWrite d 0x22 n k { newKey d (fld d.p24 5 4) key256 o with
            depth := x.depth + 1, parent := p, parentGen := x.gen, source := 2, tag := BitVec.ofNat 32 (fld d.p24 63 32) })

/-- KEY_ERASE. -/
def Dev.keyErase (s : Dev) (d : CmdDesc) : CmdRes :=
  s.keyBody d (fun n k =>
    if k.state = 0 then .fail s stNotFound
    else if k.gen = 0xFFFFFFFF then .fail s stExhausted
    else s.keyChange d 0x23 2 n { KeySlot.empty with gen := k.gen + 1 })

/-- KEY_INVALIDATE: the slot keeps its key. -/
def Dev.keyInvalidate (s : Dev) (d : CmdDesc) : CmdRes :=
  s.keyBody d (fun n k =>
    if k.state = 0 then .fail s stNotFound
    else if k.gen = 0xFFFFFFFF then .fail s stExhausted
    else s.keyChange d 0x24 3 n { k with gen := k.gen + 1 })

/-- KEY_RETIRE. -/
def Dev.keyRetire (s : Dev) (d : CmdDesc) : CmdRes :=
  s.keyBody d (fun n k => s.keyChange d 0x25 5 n { KeySlot.empty with state := 3, gen := k.gen })

/-- KEY_INFO. -/
def Dev.keyInfo (s : Dev) (d : CmdDesc) : CmdRes := s.keyBody d (fun n k => .done s stOk k.parentGen.toNat (s.slotWord0 n))

/-- A command of the key banks; one on a bank whose last change has not completed waits behind it (R67, R381). A unit that is no bank is
a mismatch with SLOT (R389), and after decommissioning none runs (R386). -/
def Dev.keyCommand (s : Dev) (d : CmdDesc) (op : Nat) (mask : List Nat) (kind : Option Nat) (body : Dev → CmdRes) : Dev :=
  s.command d (isOne 0x40) anyUnit op mask kind (fun x => if x.lifeCycle = 4 then .fail x stWrongMode else body x)

/-- The sweep (R382): every orphan that nothing keeps is reclaimed, and each bank reports what it reclaimed. -/
def Dev.orphanSweep (s : Dev) : Dev :=
  let l := (s.burl.slots.map (·.1)).filter s.reclaimable
  let s := l.foldl (fun (s : Dev) n => (s.hwSlot n (s.slot n).cleared).count (burlReg 0x4020)) s
  (List.range 9).foldl (fun (s : Dev) b =>
    match (l.filter (fun n => n / 64 = b)).getLast? with
    | none => s
    | some n =>
      let key := rateKey 48 4 0x40 (s.eventBank n) 0
      let more := (l.filter (fun n => n / 64 = b)).length - 1
      let s := s.onBasjo (fun x => { x with rate := x.rate.upd .idle key (fun r => { r with count := r.count + more }) })
      s.raiseRated 48 4 0x40 (s.eventBank n) 0 msRaw (fun _ => n) (fun c => c)) s

/-- KEY_LOAD. -/
def execKeyLoad (d : CmdDesc) (s : State) :=
  s.onDev (fun x => x.keyCommand d 0x20 [0xFFFFFFFF7FFFFC31, all64, all64, all64, all64] (some kKey) (·.keyLoad d))
/-- KEY_DERIVE. -/
def execKeyDerive (d : CmdDesc) (s : State) :=
  s.onDev (fun x => x.keyCommand d 0x21 [0xFFFFFFFF7FFFFFFF, all64, all64, all64, 0xFFFFFFFF00000311] (some kKey) (·.keyDerive d))
/-- KEY_UNWRAP. -/
def execKeyUnwrap (d : CmdDesc) (mem : HostData) (s : State) :=
  s.onDev (fun x => x.keyCommand d 0x22 [0xFFFFFFFF7FFFFFFF, all64, 0xFFFFFFFF00000031, 0, 0] (some kKey) (·.keyUnwrapCmd d mem))
/-- KEY_ERASE. -/
def execKeyErase (d : CmdDesc) (s : State) := s.onDev (fun x => x.keyCommand d 0x23 [0xFFC00, 0, 0, 0, 0] (some kKey) (·.keyErase d))
/-- KEY_INVALIDATE. -/
def execKeyInvalidate (d : CmdDesc) (s : State) := s.onDev (fun x => x.keyCommand d 0x24 [0xFFC00, 0, 0, 0, 0] (some kKey) (·.keyInvalidate d))
/-- KEY_RETIRE. -/
def execKeyRetire (d : CmdDesc) (s : State) := s.onDev (fun x => x.keyCommand d 0x25 [0xFFC00, 0, 0, 0, 0] (some kKey) (·.keyRetire d))
/-- KEY_INFO. -/
def execKeyInfo (d : CmdDesc) (s : State) := s.onDev (fun x => x.keyCommand d 0x26 [0xFFC00, 0, 0, 0, 0] none (·.keyInfo d))
/-- KEY_OLD_USES_ENDED. -/
def execKeyOldUsesEnded (slot : Fin 576) (s : State) := s.onDev (·.usesEnded slot.val)
/-- ORPHAN_SWEEP. -/
def execOrphanSweep (s : State) := s.onDev (·.orphanSweep)

/-! ## The life cycle (R385, R386) -/

/-- Whether a state may move to another. -/
def lcMay : Nat → Nat → Bool
  | 0, t => t = 1 || t = 2 || t = 4
  | 1, t => t = 2 || t = 4
  | 2, t => t = 3 || t = 4
  | 3, t => t = 4
  | _, _ => false

/-- No root is live. -/
def Dev.dropRoot (s : Dev) : Dev := ({ s with burl := { s.burl with liveRoot := none } } : Dev).setRf (burlReg 0x4000) 18 16 0

/-- Every slot is zeroised and EMPTY. -/
def Dev.zeroise (s : Dev) : Dev := ({ s with burl := { s.burl with slots := [] } } : Dev).setReg (burlReg 0x4014) 0

/-- The fuse of a life-cycle state is written. -/
def Dev.setLife (s : Dev) (n : Nat) : Dev :=
  ({ s with burl := { s.burl with fuseLife := n } } : Dev).setRf (burlReg 0x4000) 2 0 n

/-- LC_ADVANCE's own part. -/
def Dev.lcAdvance (s : Dev) (target : Nat) : CmdRes :=
  if !lcMay s.lifeCycle target then .fail s stWrongMode
  else
    let s := (s.setLife target).dropRoot
    let s := if target = 4 then s.zeroise else s
    .done (s.raise 48 0x11 0x40 0xFF target 0) stOk 0 0

/-- LC_ADVANCE. Its encoding is not stated: the target is an operand, and any unit of Burl, any PARAM and any OP that no other command
of the unit has are taken (log entry 45). -/
def execLcAdvance (d : CmdDesc) (target : Fin 5) (s : State) :=
  s.onDev (fun x => if (unitOps d.cl d.un).contains d.op then x
    else x.command d (isOne 0x40) anyUnit d.op [all64, all64, all64, all64, all64] (some kKey) (·.lcAdvance target.val))

/-! ## Random numbers (R392) -/

/-- The generator has failed. -/
def Dev.rngFailed (s : Dev) : Bool := s.rb (burlReg 0x4018) 2

/-- One generate request is counted; the generator reseeds after every 65,536. -/
def Dev.generate1 (s : Dev) : Dev := { s with burl := { s.burl with generates := (s.burl.generates + 1) % 65536 } }

/-- RNG_READ's own part. -/
def Dev.rngRead (s : Dev) (d : CmdDesc) (err : Bool) : CmdRes :=
  let n := fld d.p16 12 0
  if n = 0 ∨ n > 4096 then .fail s stBadParam
  else if s.rngFailed then .fail s 0x43
  else
    let r := (s.generate1).drawBytes n
    if err then .fail (r.2.dmaFail d.host.val) stDmaErr
    else .done (r.2.hostWrite d.host.val d.p8.toNat r.1) stOk 0 0

/-- RNG_READ. -/
def execRngRead (d : CmdDesc) (err : Bool) (s : State) :=
  s.onDev (fun x => x.command d (isOne 0x40) (isOne 33) 0x38 [all64, 0x1FFF, 0, 0, 0] none (·.rngRead d err))

/-- RNG_STATUS, with FAIL set, and what a failure raises (R392, R400). -/
def Dev.rngFails (s : Dev) (status : Word) : Dev :=
  ((s.setReg (burlReg 0x4018) status).count (burlReg 0x4028)).raise 48 0x20 0x40 33 0 0

/-- The start-up tests of the entropy source, and the generator's first seed where they pass. When ES_OK and SEEDED fall is not stated:
ES_OK with every failure, SEEDED where the generator starts without a source that passes (DESIGN CHOICE, log entry 3). -/
def Dev.rngStart (s : Dev) (ok : Bool) : Dev :=
  let s := { s with burl := { s.burl with generates := 0 } }
  if ok then s.setReg (burlReg 0x4018) 3 else s.rngFails 4

/-- RNG_HEALTH_FAILURE. -/
def execRngHealthFailure (s : State) := s.onDev (fun x => x.rngFails ((x.reg (burlReg 0x4018) &&& 2) ||| 4))

/-! ## Signatures (R393, R394) -/

/-- The seeds of the identity key pairs, while a root is live. -/
def Dev.idSeeds (s : Dev) : Option (List Byte × List Byte) :=
  match s.rootDerived "TLTR ID EDDSA 01" 3, s.rootDerived "TLTR ID MLDSA 01" 3 with
  | some a, some b => some (a, b)
  | _, _ => none

/-- The octets of the public keys and the signatures; ML-DSA-65 is hedged with draw `n` (R393). -/
def edPubOctets (seed : List Byte) : List Byte := edPublic seed
def mldsaPubOctets (seed : List Byte) : List Byte := mldsaPublic seed
def signBoth (ed ml : List Byte) (n : Nat) (msg : List Byte) : List Byte :=
  edSign ed msg ++ mldsaSign ml msg ((leBytes 64 (Config.draw n).toNat).take 32)

/-- A signed structure is written to host memory: both signatures cover its first 128 octets. -/
def Dev.signTo (s : Dev) (d : CmdDesc) (err : Bool) (head : List Byte) : CmdRes :=
  match s.idSeeds with
  | none => .fail s 0x40
  | some (ed, ml) =>
    if s.rngFailed then .fail s 0x43
    else
      let out := head ++ signBoth ed ml s.draws head
      let s := { s.generate1 with draws := s.draws + 1 }
      if err then .fail (s.dmaFail d.host.val) stDmaErr else .done (s.hostWrite d.host.val d.p8.toNat out) stOk 0 0

/-- ID_PUBKEY's own part. -/
def Dev.idPubkey (s : Dev) (d : CmdDesc) (err : Bool) : CmdRes :=
  match s.idSeeds with
  | none => .fail s 0x40
  | some (ed, ml) => if err then .fail (s.dmaFail d.host.val) stDmaErr
      else .done (s.hostWrite d.host.val d.p8.toNat (edPubOctets ed ++ mldsaPubOctets ml)) stOk 0 0

/-- The measurement of the running images, 64 octets (R551). -/
def Dev.measurement (s : Dev) : List Byte := (List.range 16).flatMap (fun k => leBytes 4 (s.reg (updReg (0xC0 + 4 * k))).toNat)

/-- The first 32 octets of an ATTEST structure, whose magic is given. -/
def Dev.attestHead (s : Dev) (magic : String) : List Byte :=
  ascii magic ++ leBytes 4 (s.reg 0).toNat ++ [BitVec.ofNat 8 s.lifeCycle] ++ zeros 3 ++ leBytes 8 Config.deviceUid.toNat ++ leBytes 8 s.tick

/-- SIG_VERIFY's own part. -/
def Dev.sigVerify (s : Dev) (d : CmdDesc) (mem : HostData) : CmdRes :=
  let n := fld d.p16 16 0
  if n > 65536 then .fail s stTooLong
  else if mem.err ∨ mem.octets.length < 5357 + n then .fail (s.dmaFail d.host.val) stDmaErr
  else
    let o := mem.octets
    let at_ (i k : Nat) : List Byte := (o.drop i).take k
    let msg := at_ 5357 n
    if edVerify (at_ 0 32) (at_ 1984 64) msg && mldsaVerify (at_ 32 1952) (at_ 2048 3309) msg then .done s stOk 0 0
    else .fail (s.count (burlReg 0x402C)) stAuthFail

/-- A command of the signature engine. -/
def Dev.sigCommand (s : Dev) (d : CmdDesc) (op : Nat) (mask : List Nat) (body : Dev → CmdRes) : Dev :=
  s.command d (isOne 0x40) (isOne 32) op mask none body

/-- ID_PUBKEY. -/
def execIdPubkey (d : CmdDesc) (err : Bool) (s : State) := s.onDev (fun x => x.sigCommand d 0x30 [all64, 0, 0, 0, 0] (·.idPubkey d err))
/-- ATTEST. -/
def execAttest (d : CmdDesc) (err : Bool) (s : State) :=
  s.onDev (fun x => x.sigCommand d 0x31 [all64, all64, all64, all64, all64]
    (fun y => y.signTo d err (y.attestHead "TLTRATT1" ++ d.octets.drop 8 ++ y.measurement)))
/-- SIG_VERIFY. -/
def execSigVerify (d : CmdDesc) (mem : HostData) (s : State) := s.onDev (fun x => x.sigCommand d 0x32 [all64, 0x1FFFF, 0, 0, 0] (·.sigVerify d mem))

/-! ## The tamper response (R372, R395, R396) -/

/-- A frame under a MACsec key context. -/
def RxFrame.inPipe (f : RxFrame) : Bool := match f.sec with | .pass .. => true | _ => false

/-- The frames of a port that are being received under a key context are discarded, and counted where `off` says: in reception, ended with
their verdict due, and in reassembly, which the MAC then follows to its end only. -/
def Dev.dropSecured (s : Dev) (p : Nat) (off : Option Nat) : Dev :=
  let tell (s : Dev) (n : Nat) : Dev := match off with | some o => s.count (macsecReg p o) n | none => s
  let s := match s.rxOf p with
    | some f => if f.inPipe then tell (((s.setRx p none).discard f).endUse (.rx f.no)) 1 else s
    | none => s
  let gone := (s.endedOf p).filter RxFrame.inPipe
  let s := gone.foldl (fun (s : Dev) f => (s.discard f).endUse (.rx f.no)) (s.setEnded p ((s.endedOf p).filter (fun f => !f.inPipe)))
  let s := tell s gone.length
  match (s.port p).reasm with
  | some r => (match r.sec with
    | some (.keyed ..) => if r.dropped then s else
        tell (((s.setPort p { s.port p with reasm := some { r with cells := 0, chain := [], dropped := true } }).endUse (.rx r.no)).giveCells p r.cells) 1
    | _ => s)
  | none => s

/-- MACsec frames in a pipe when the line acts (R372). -/
def Dev.tamperFrames (s : Dev) : Dev :=
  let s := (List.range 36).foldl (fun (s : Dev) p => s.dropSecured p (some 0x38)) s
  (List.range 36).foldl (fun (s : Dev) p =>
      let hit (x : TxRun) : Bool := s.burl.uses.any (fun u => u.owner = txUse p x.frame)
      let spoil (r : Option TxRun) : Option TxRun := r.map (fun x => if hit x then { x with badFcs := true } else x)
      let n := [s.crown.tx.get none p, s.crown.paused.get none p].countP (fun r => match r with | some x => hit x | none => false)
      ({ s with crown := { s.crown with tx := s.crown.tx.upd none p spoil, paused := s.crown.paused.upd none p spoil } } : Dev).count
        (macsecReg p 0x38) n) s

/-- A source of the tamper line is latched. -/
def Dev.tamperLatch (s : Dev) (src : Nat) : Dev :=
  let m := s.burl.tamperLatch ||| ((1 : BitVec 5) <<< src)
  ({ s with burl := { s.burl with tamperLatch := m, tamperAt := s.tick } } : Dev).setReg (burlReg 0x4004) (BitVec.ofNat 32 m.toNat)

/-- The fuse is blown and the life cycle moves to DECOMMISSIONED. -/
def Dev.decommission (s : Dev) : Dev :=
  (({ s with burl := { s.burl with fuseTamper := true } } : Dev).setRb (burlReg 0x4000) 14 true).setLife 4

/-- The running job ends with TAMPERED, and writes nothing further (R372). -/
def Dev.jobTampered (s : Dev) : Dev :=
  match s.burl.job with
  | some r => ((({ s with burl := { s.burl with job := none } } : Dev).setRb (burlReg 8) 0 false).count (burlReg 0x18)).completeLate
      r.desc r.op none stTampered r.ra r.rb
  | none => s

/-- Every slot is zeroised by the tamper line: one entry of the change log stands for all of them, with KS_LIVE before and after (R536;
DESIGN CHOICE, log entry 69). -/
def Dev.tamperZeroise (s : Dev) : Dev := (s.log 10 kKey 0x40 0xFF 0 0 (leBytes 4 (s.reg (burlReg 0x4014)).toNat) (leBytes 4 0)).zeroise

/-- The line asserts with the core rails powered. A change of a slot that its command waited to complete is logged as it completes. -/
def Dev.tamper (s : Dev) (src : Nat) : Dev :=
  let s := (s.tamperFrames.dropRoot).tamperZeroise
  let waiting := s.burl.changes
  let s := (({ s with burl := { s.burl with uses := [], changes := [], reclaims := [] } } : Dev).saCleared).jobTampered
  let s := waiting.foldl (fun (s : Dev) c => (s.logCommand c.desc c.op kKey stTampered).completeLate c.desc c.op none stTampered 0 0) s
  let s := ((s.tamperLatch src).decommission)
  (s.raise 51 (src + 1) 0x40 0xFF s.burl.tamperLatch.toNat s.tick).enterSafe 5 0x40 0xFF

end Sys2Proof.Machine
end

