-- ==== Sys2Proof/Machine/Heartwood.lean ====
section
/-! DEFINITION. Heartwood: its registers, time, records, batches, alarms, seconds, calibration in force and tamper (R401 to
R427, R439, R440, R445). -/
namespace Sys2Proof.Machine

/-! ## Registers (R406) -/

/-- The reset value of a mailbox register: HW_STATUS shows UNCALIBRATED and SOURCE none. -/
def heartReset (off : Nat) : Word := if off = 0x80 then 0x1300 else 0

/-- A register of Heartwood by its offset, and its fields. -/
def Heart.reg (h : Heart) (off : Nat) : Word := h.regs.get (heartReset off) off
def Heart.setReg (h : Heart) (off : Nat) (v : Word) : Heart := { h with regs := h.regs.put (heartReset off) off v }
def Heart.rf (h : Heart) (off hi lo : Nat) : Nat := fld (h.reg off) hi lo
def Heart.rb (h : Heart) (off i : Nat) : Bool := bit (h.reg off) i
def Heart.setRf (h : Heart) (off hi lo v : Nat) : Heart := h.setReg off (setFld (h.reg off) hi lo v)
def Heart.setRb (h : Heart) (off i : Nat) (v : Bool) : Heart := h.setReg off (setBit (h.reg off) i v)
def Heart.count (h : Heart) (off : Nat) : Heart := h.setReg off (satAdd (h.reg off) 1)

/-- HW_STATUS.SOURCE and UNCALIBRATED. -/
def Heart.source (h : Heart) : Nat := h.rf 0x80 9 8
def Heart.setSource (h : Heart) (n : Nat) : Heart := h.setRf 0x80 9 8 n
def Heart.uncal (h : Heart) : Bool := h.rb 0x80 12

/-- One second of Heartwood time, and the end of the second in progress (R405). -/
abbrev hwSecond : Nat := 1000000
def Heart.secondEndAt (h : Heart) : Nat := (h.time / hwSecond + 1) * hwSecond

/-- Something happens at Heartwood time `t`: the time held moves to it within the second in progress, whose end is HW_SECOND_END's. -/
def Heart.at_ (h : Heart) (t : Nat) : Heart := if h.time ≤ t ∧ t < h.secondEndAt then { h with time := t } else h

/-- The 100 ms of the second a time falls in. -/
def subOf (t : Nat) : Nat := t % hwSecond / 100000

/-- Add to one of the ten counts of a second. -/
def addSub (l : List Nat) (i n : Nat) : List Nat := l.set i (l.getD i 0 + n)

/-- A notice is kept; beyond 64 the oldest is discarded (R427). -/
def Heart.notice (h : Heart) (n : HwNotice) : Heart :=
  let l := h.notices ++ [n]
  { h with notices := l.drop (l.length - 64) }

/-- Something that makes EVENT records at the end of the second. -/
def Heart.event (h : Heart) (code param : Nat) : Heart := { h with events := h.events ++ [(code, param)] }

/-- An alarm that begins and ends in the second (causes 5, 6, 8): active, and shown in HW_STATUS, to the second's end. -/
def Heart.pulseAlarm (h : Heart) (cause : Nat) : Heart := ((h.event 1 cause).event 2 cause).setRb 0x80 6 true

/-! ## Working time (R418) -/

/-- Working time ceases to be valid. -/
def Heart.wtLost (h : Heart) : Heart :=
  let h := { h with wt := { h.wt with edge := none, valid := false } }
  if h.rb 0x80 5 then (h.setRb 0x80 5 false).event 7 0 else h

/-- A TIME_MSG arrives. -/
def Heart.timeMsg (h : Heart) (sec : Nat) (live : Bool) : Heart :=
  if live then { h with wt := { h.wt with msg := some (sec, h.time) } }
  else ({ h with wt := { h.wt with msg := none } } : Heart).wtLost

/-- Whether an edge follows another within 1 s ± 2 ms. -/
def edgeOk (last t : Nat) : Bool := last + 998000 ≤ t && t ≤ last + 1002000

/-- An edge starts a new run of edges where a message names its seconds. -/
def Heart.wtFirst (h : Heart) : Heart :=
  match h.wt.msg with
  | some (sec, at_) => if h.time ≤ at_ + 1100000 then { h with wt := ⟨none, some (sec, h.time), false⟩ } else { h with wt := ⟨none, none, false⟩ }
  | none => { h with wt := ⟨none, none, false⟩ }

/-- A rising edge of the time wire at the present time. -/
def Heart.timeEdge (h : Heart) : Heart :=
  match h.wt.edge with
  | none => h.wtFirst
  | some (sec, t) =>
    if edgeOk t h.time then
      let h := { h with wt := ⟨none, some (sec + 1, h.time), true⟩ }
      if h.rb 0x80 5 then h else (h.setRb 0x80 5 true).event 6 0
    else
      let msg := h.wt.msg
      let h := h.wtLost
      ({ h with wt := { h.wt with msg := msg } } : Heart).wtFirst

/-- An edge is missing by the present time. -/
def Heart.wtCheck (h : Heart) : Heart :=
  match h.wt.edge with
  | some (_, t) => if h.time > t + 1002000 then h.wtLost else h
  | none => h

/-- The working-time fields of a record: seconds and nanoseconds, while valid. -/
def Heart.wtNow (h : Heart) : Nat × Nat :=
  match h.wt.edge with
  | some (sec, t) => if h.wt.valid then (sec + (h.time - t) / hwSecond, (h.time - t) % hwSecond * 1000) else (0, 0)
  | none => (0, 0)

/-! ## Records, chain and batches (R419 to R423) -/

/-- HW_UID, little-endian. -/
def hwUidBytes : List Byte := leBytes 8 Config.hwUid.toNat

/-- The chain value (R421). -/
def Heart.chainNow (h : Heart) : List Byte := h.chain.getD (sha512 (ascii "TLTRHWC1" ++ hwUidBytes))

/-- What a record says about its second, beside what Heartwood holds. -/
structure HwSecondRec where
  dist : Nat
  spdMin : Nat
  spdMax : Nat
  spdMean : Nat
  flags : Nat
  good : Nat
  crcFail : Nat
  oof : Nat
  pulsesA : Nat
  pulsesB : Nat
  glitches : Nat
  deriving DecidableEq, Repr

/-- The 64 octets of a record as a number, octet 0 lowest (R419). -/
def Heart.recordOf (h : Heart) (ty event param : Nat) (r : HwSecondRec) : BitVec 512 :=
  let w := h.wtNow
  let cap (n : Nat) : Nat := min n 0xFFFF
  let words := [h.nextSeq % 2 ^ 64, h.time, w.1 % 2 ^ 64, w.2 * 2 ^ 32 + r.dist % 2 ^ 32,
    h.cum / 1000 % 2 ^ 48 * 65536 + ty * 256 + event,
    r.spdMin * 2 ^ 48 + r.spdMax * 2 ^ 32 + r.spdMean * 65536 + r.flags,
    cap r.good * 2 ^ 48 + cap r.crcFail * 2 ^ 32 + cap r.oof * 65536 + cap r.pulsesA,
    cap r.pulsesB * 2 ^ 48 + cap r.glitches * 2 ^ 32 + param % 2 ^ 32]
  BitVec.ofNat 512 (words.foldr (fun x a => x + 2 ^ 64 * a) 0)

/-- The slots the record store uses: one for each record, 55 for each trailer written. -/
def Heart.slotsUsed (h : Heart) : Nat :=
  h.batches.foldl (fun a b => a + b.recs.length + (if b.trailer.isSome then 55 else 0)) 0

/-- Free the oldest stored batch whole (R423). -/
def Heart.freeOldest (h : Heart) : Heart :=
  match h.batches with
  | b :: r =>
    if !b.closed then h
    else
      let h := { h with batches := r }
      if b.acked then h else ((h.count 0x90).event 9 (b.number % 2 ^ 32)).pulseAlarm 8
  | [] => h

/-- Make room for `n` slots; `k` bounds the batches freed. -/
def Heart.makeRoom (h : Heart) (n : Nat) : Nat → Heart
  | 0 => h
  | k + 1 => if h.slotsUsed + n ≤ 32768 then h else h.freeOldest.makeRoom n k

/-- Write a record: it enters the chain and the open batch, or opens one. -/
def Heart.putRecord (h : Heart) (ty event param : Nat) (r : HwSecondRec) : Heart :=
  let rec_ := h.recordOf ty event param r
  let h := h.makeRoom 1 2
  let chain := sha512 (h.chainNow ++ leBytes 64 rec_.toNat)
  let fresh : HwBatch := ⟨h.nextBatch, h.nextSeq, [rec_], (h.time - 1) / hwSecond * hwSecond, false, [], 0, (0, 0, 0), none, false⟩
  let isOpen : Bool := match h.batches.getLast? with | some b => !b.closed | none => false
  let batches := if isOpen
    then h.batches.map (fun (b : HwBatch) => if b.closed then b else { b with recs := b.recs ++ [rec_] })
    else h.batches ++ [fresh]
  { h with batches := batches, chain := some chain, nextSeq := h.nextSeq + 1, stored := h.time,
           nextBatch := if isOpen then h.nextBatch else h.nextBatch + 1 }

/-- The type of a record. -/
def recType (r : BitVec 512) : Nat := fld r 271 264

/-- Whether the open batch closes at the end of this second (R422). -/
def Heart.closes (h : Heart) (b : HwBatch) : Bool :=
  !b.closed && (h.time ≥ b.opened + 60000000 || b.recs.any (fun r => recType r ≠ 1) || b.recs.length ≥ 64)

/-- Close the open batch where it is due. -/
def Heart.closeBatch (h : Heart) : Heart :=
  { h with batches := h.batches.map (fun (b : HwBatch) =>
      if h.closes b then { b with closed := true, hLast := h.chainNow, time := h.time, counts := (h.reg 0x84, h.reg 0x88, h.reg 0x90) } else b) }

/-- The last SEQ of a batch. -/
def HwBatch.lastSeq (b : HwBatch) : Nat := b.firstSeq + b.recs.length - 1

/-- Octets 0 to 127 of a trailer. -/
def HwBatch.head (b : HwBatch) : List Byte :=
  ascii "TLTRBAT1" ++ hwUidBytes ++ leBytes 8 b.number ++ leBytes 8 b.firstSeq ++ leBytes 8 b.lastSeq ++ b.hLast ++ leBytes 8 b.time
    ++ leBytes 4 b.counts.1.toNat ++ leBytes 4 b.counts.2.1.toNat ++ leBytes 4 b.counts.2.2.toNat ++ zeros 4

/-- The seeds of the device keys. -/
def hwSeed (n : Nat) : List Byte := beBytes 32 (Config.hwSeed n).toNat

/-- A draw of Heartwood's own generator. -/
def Heart.drawNo (h : Heart) : Nat := 2 ^ 64 + h.nextSeq

/-- Sign the oldest closed batch without a trailer (R422). -/
def Heart.signBatch (h : Heart) : Heart :=
  match h.batches.find? (fun b => b.closed && b.trailer.isNone) with
  | none => h
  | some b =>
    let h := h.makeRoom 55 64
    let sigs := if h.keys then signBoth (hwSeed 0) (hwSeed 1) h.drawNo b.head else zeros 3373
    let h := { h with batches := h.batches.map (fun (x : HwBatch) =>
      if x.number = b.number then { x with trailer := some (b.head ++ sigs) } else x) }
    let h := if h.keys then (h.setReg 0x98 (BitVec.ofNat 32 b.number)).setReg 0x9C (BitVec.ofNat 32 (b.number / 2 ^ 32)) else h
    h.notice ⟨52, 1, if h.keys then 1 else 2, b.number % 2 ^ 32, b.lastSeq⟩

/-- The unit METRO_ALARM names for a cause (R427). -/
def alarmUnit (cause : Nat) : Nat := if cause ≥ 5 then 0 else if cause = 4 then 3 else 2

/-- Write the EVENT records of the second in order; an alarm's begin or end is also a notice. -/
def Heart.putEvents (h : Heart) (r : HwSecondRec) : List (Nat × Nat) → Heart
  | [] => h
  | (code, param) :: l =>
    let seq := h.nextSeq
    let h := h.putRecord 2 code param { r with dist := 0, spdMin := 0, spdMax := 0, spdMean := 0 }
    let h := if code = 1 ∨ code = 2 then h.notice ⟨54, alarmUnit param, param, if code = 2 then 2 ^ 31 else 0, seq⟩ else h
    h.putEvents r l

/-! ## Links over a second (R435, R439, R440) -/

/-- The periods of 500 µs that a link out of frame has completed by Heartwood time `t` are counted (R437). -/
def HwLink.outTo (l : HwLink) (t : Nat) : HwLink :=
  if l.state = 2 then l else { l with oof := l.oof + (t - l.outAt) / 500, outAt := l.outAt + (t - l.outAt) / 500 * 500 }

/-- A link that starts out of frame at Heartwood time `t`: what MRAM holds of it stays (R434, R435). -/
def HwLink.restart (l : HwLink) (t : Nat) : HwLink := { HwLink.reset with wseq := l.wseq, count := l.count, sstat := l.sstat, outAt := t }

/-- Whether the second is severely errored. -/
def HwLink.sesNow (l : HwLink) : Bool :=
  let bad := l.errored + l.oof
  l.out || (bad > 0 && bad * 100 ≥ l.good + l.crcFail + l.oof)

/-- Count a settled second. -/
def HwLink.settle (l : HwLink) (x : LqSecond) : HwLink :=
  let l := { l with elapsed := satAdd l.elapsed 1 }
  if x.uas then { l with uas := satAdd l.uas 1 }
  else { l with es := satAdd l.es x.es.toNat, ses := satAdd l.ses x.ses.toNat }

/-- Second `k` of a link ends: its classification, whether a change of availability is declared, and a clean second. -/
def HwLink.secondEnd (l : HwLink) (k : Nat) : HwLink × Bool :=
  let ses := l.sesNow
  let x : LqSecond := ⟨k, l.errored, ses || l.errored > 0, ses, l.unavail⟩
  let seconds := l.seconds ++ [x]
  let run := if ses ≠ l.unavail then l.run + 1 else 0
  let declared : Bool := decide (run ≥ 10)
  let seconds := if declared then seconds.zipIdx.map (fun (e : LqSecond × Nat) =>
    if e.2 + 10 ≥ seconds.length then { e.1 with uas := !l.unavail } else e.1) else seconds
  let l := { l with run := if declared then 0 else run, unavail := l.unavail ^^ declared }
  let l := match seconds with
    | x :: r => if seconds.length ≥ 10 then { (l.settle x) with seconds := r } else { l with seconds := seconds }
    | [] => l
  ({ l with good := 0, crcFail := 0, oof := 0, errored := 0, out := decide (l.state ≠ 2), sub := List.replicate 10 0 }, declared)

/-- SENSOR_LINK (R442). -/
def Heart.linkNotice (h : Heart) (cause a : Nat) : Heart := h.notice ⟨53, 3, cause, a, h.time⟩

/-! ## Distance (R411 to R416) -/

/-- Convert counts with an exact remainder (R413): millimetres and the new remainder. -/
def toMm (k rem_ n : Nat) : Nat × Nat := if k = 0 then (0, rem_) else ((n * 1000000 + rem_) / k, (n * 1000000 + rem_) % k)

/-- The millimetres of each of ten counts. -/
def subMm (k : Nat) : Nat → List Nat → List Nat
  | _, [] => []
  | rem_, n :: r => (toMm k rem_ n).1 :: subMm k (toMm k rem_ n).2 r

/-- A speed that saturates. -/
def capSpeed (n : Nat) : Nat := min n 0xFFFE

/-- The flags a record takes from HW_STATUS: MAIN_TAMPER, UNCALIBRATED, SOURCE, HW_TAMPER; and WT_INVALID. -/
def Heart.baseFlags (h : Heart) : Nat :=
  (if h.wt.valid then 0 else 2) + (h.rb 0x80 13).toNat * 128 + h.uncal.toNat * 256 + h.source * 512 + (h.rb 0x80 14).toNat * 2048

/-- Calibration messages take effect at the start of a second (R409, R425). -/
def msgNat (m : List Byte) (at_ n : Nat) : Nat := leNat ((m.drop at_).take n)

/-- An event log entry (R425). The octets that stand for the old and the new value in its digest are a free layout. -/
def Heart.logEntry (h : Heart) (kind val : Nat) (old new : List Byte) : Heart :=
  let n := h.rf 0x8C 10 0
  if n ≥ 1024 then h
  else
    let head := leBytes 4 n ++ leBytes 2 kind ++ zeros 2 ++ leBytes 8 h.time ++ leBytes 4 val
    let digest := (sha512 (Config.evlogForm kind old ++ Config.evlogForm kind new ++ head)).take 44
    let h := { h with evlog := h.evlog ++ [head ++ digest] }
    (h.setReg 0x8C (BitVec.ofNat 32 (n + 1))).setRb 0x80 15 (n + 1 = 1024)

/-- The parameters in force as octets 20 to 32 of a message would carry them. -/
def HwCal.octets (c : HwCal) : List Byte := leBytes 4 c.kPulse ++ leBytes 4 c.kHsl ++ leBytes 2 c.tolPm ++ leBytes 2 c.minMm ++ leBytes 1 c.mode

/-- One accepted message is applied. -/
def Heart.applyCal (h : Heart) (m : List Byte) : Heart :=
  let seq := msgNat m 16 4
  let opts := msgNat m 33 1
  let cal : HwCal := ⟨msgNat m 20 4, msgNat m 24 4, msgNat m 28 2, msgNat m 30 2, msgNat m 32 1⟩
  let old := h.cal.octets
  let h := { h with cal := cal, remPulse := 0, remLink0 := 0, remLink1 := 0, link1 := if cal.mode = h.cal.mode then h.link1 else h.link1.restart h.time }
  let h := (h.setReg 0x88 (BitVec.ofNat 32 seq)).setRb 0x80 12 false
  let h := (h.event 4 seq).logEntry 1 seq old cal.octets
  let h := if opts.testBit 1 then
      let new := (m.drop 80).take 1984
      let was := h.authority.getD Config.authorityKeys
      (({ h with authority := some new } : Heart).event 10 seq).logEntry 2 seq was new
    else h
  if opts.testBit 0 && h.keys then
    match keyUnwrap Config.transportKey ((m.drop 40).take 40) with
    | some k =>
      let was := h.pairing.getD []
      let h := { h with pairing := some k, link0 := { h.link0 with wseq := none }, link1 := { h.link1 with wseq := none } }
      h.logEntry 4 seq was k
    | none => h
  else h

/-- The end of a second (R411 to R422). -/
def Heart.secondEnd (h : Heart) (mainSafe : Bool) : Heart :=
  let h := ({ h with time := h.secondEndAt } : Heart).wtCheck
  let h := { h with link0 := h.link0.outTo h.time, link1 := h.link1.outTo h.time }
  let c := h.cal
  let nA := h.subA.foldl (· + ·) 0
  let pulses : Bool := decide (c.mode ≠ 2)
  let implausible := pulses && (nA > 25000 || h.pulsesB > 25000 || h.glitches > 100)
  let disagree := c.mode = 1 && (nA > h.pulsesB + 1 || h.pulsesB > nA + 1)
  let pDoubt := implausible || disagree || h.uncal
  let lDoubt (l : HwLink) : Bool := l.sesNow || h.uncal
  let n0 := h.link0.sub.foldl (· + ·) 0 % 2 ^ 40
  let n1 := h.link1.sub.foldl (· + ·) 0 % 2 ^ 40
  let p := toMm c.kPulse h.remPulse nA
  let l0 := toMm c.kHsl h.remLink0 n0
  let l1 := toMm c.kHsl h.remLink1 n1
  let src := h.source
  let doubt := if src = 0 then lDoubt h.link0 else if src = 1 then pDoubt else if src = 2 then lDoubt h.link1 else false
  let invalid : Bool := doubt || src = 3
  let mm := if src = 0 then l0.1 else if src = 1 then p.1 else l1.1
  let subs := if src = 0 then subMm c.kHsl h.remLink0 h.link0.sub else if src = 1 then subMm c.kPulse h.remPulse h.subA
    else subMm c.kHsl h.remLink1 h.link1.sub
  let compared := pulses && !pDoubt && !lDoubt h.link0
  let gap := if p.1 > l0.1 then p.1 - l0.1 else l0.1 - p.1
  let fail := compared && gap > max c.minMm (max p.1 l0.1 * c.tolPm / 1000)
  let was (i : Nat) : Bool := h.alarms.getLsbD i
  let now (i : Nat) : Bool := match i with | 1 => if compared then fail else was 1 | 2 => implausible | 3 => disagree | 4 => doubt | _ => was i
  let turned := (List.range 5).flatMap (fun i => if i = 0 ∨ now i = was i then [] else [(if now i then 1 else 2, i)])
  let alarms : BitVec 8 := (List.range 8).foldl (fun (a : BitVec 8) i => if now i then a ||| ((1 : BitVec 8) <<< i) else a) 0
  let events := h.events ++ turned
  let shown := if src = 2 then h.link1 else h.link0
  let alarmFlag : Bool := alarms ≠ 0 || events.any (fun e => e.1 = 1)
  let flags := h.baseFlags + invalid.toNat + fail.toNat * 4 + alarmFlag.toNat * 8 + (mainSafe || h.mainSafe).toNat * 64
  let spd (n : Nat) : Nat := if invalid then 0xFFFF else capSpeed (n * 36 / 10)
  let r : HwSecondRec := {
    dist := if invalid then 0xFFFFFFFF else mm
    spdMin := spd (subs.foldl min (subs.headD 0)), spdMax := spd (subs.foldl max 0)
    spdMean := if invalid then 0xFFFF else capSpeed (mm * 36 / 100)
    flags := flags, good := shown.good, crcFail := shown.crcFail, oof := shown.oof
    pulsesA := nA, pulsesB := h.pulsesB, glitches := h.glitches }
  let h := { h with cum := if invalid then h.cum else h.cum + mm, alarms := alarms, events := [], remPulse := p.2, remLink0 := l0.2, remLink1 := l1.2 }
  let h := (h.setRb 0x80 6 (decide (alarms ≠ 0))).setRb 0x80 7 doubt
  let h := ((h.putRecord 1 0 0 r).putEvents r events).closeBatch
  -- the links' seconds, and the start of the next second
  let k := h.time / hwSecond - 1
  let e0 := h.link0.secondEnd k
  let h := { h with link0 := e0.1 }
  let h := if e0.2 then h.linkNotice (if e0.1.unavail then 3 else 4) 0 else h
  let e1 := h.link1.secondEnd k
  let h := if c.mode ≠ 2 then h else
    let h := { h with link1 := e1.1 }
    if e1.2 then h.linkNotice (if e1.1.unavail then 3 else 4) 1 else h
  let h := match h.nextSource with
    | some (_, x) => if x = h.source then h else (h.setSource x).event 3 x
    | none => h
  let h := { h with nextSource := none, subA := List.replicate 10 0, pulsesB := 0, glitches := 0, mainSafe := false }
  let l := h.calNext
  l.foldl (fun (h : Heart) m => h.applyCal m) { h with calNext := [] }

/-! ## Supplies (R405, R417) -/

/-- VDD_HW falls: what the SRAM and the cores hold is gone, working time is lost, and the always-on counter takes over. -/
def Heart.powerLoss (h : Heart) : Heart :=
  if !h.on then h
  else
    let h := h.wtLost
    let h := { h with on := false, heldSource := h.source, asleep := 0, wt := ⟨none, none, false⟩, staging := [], mainSafe := false
                      link0 := h.link0.restart 0, link1 := h.link1.restart 0
                      nextSource := none, calNext := [], subA := List.replicate 10 0, pulsesB := 0, glitches := 0 }
    let h := { h with regs := h.regs.keep (fun off _ => !(0xA0 ≤ off)) }
    (h.setRb 0x80 0 false).setRb 0x80 7 false

/-- VDD_HW rises (R417): a START record, with the distance of the pulses counted meanwhile where they are what counts. -/
def Heart.powerRise (h : Heart) (safe vaonLost : Bool) (t : Nat) : Heart :=
  if h.on then h
  else
    let time := if vaonLost then h.stored + 1 else max h.time t
    let h := { h with on := true, time := time, started := time, link0Seen := false, startDue := false
                      link0 := h.link0.restart time, link1 := h.link1.restart time }
    let h := (h.setSource 3).setRb 0x80 0 true
    let n := if vaonLost then 0 else h.asleep
    let p := toMm h.cal.kPulse h.remPulse n
    let valid := !vaonLost && !h.uncal && h.heldSource ≠ 0 && h.heldSource ≠ 2
    let h := if vaonLost then (h.count 0x94).pulseAlarm 5 else h
    let h := if valid then { h with cum := h.cum + p.1, remPulse := p.2 } else h
    let flags := h.baseFlags + (!valid).toNat + (h.rb 0x80 6).toNat * 8 + valid.toNat * 16 + vaonLost.toNat * 32
      + (safe || h.mainSafe).toNat * 64
    let r : HwSecondRec := ⟨if valid then p.1 else 0xFFFFFFFF, 0xFFFF, 0xFFFF, 0xFFFF, flags, 0, 0, 0, n, 0, 0⟩
    ({ h with asleep := 0 } : Heart).putRecord 3 0 0 r

/-- A pulse, or a short phase, on an input (R411, R412, R417). -/
def Heart.pulse (h : Heart) (pinB short : Bool) (t : Nat) : Heart :=
  if !h.on then (if pinB || short || h.cal.mode = 2 then h else { h with asleep := min (h.asleep + 1) (2 ^ 32 - 1) })
  else
    let h := h.at_ t
    if h.cal.mode = 2 || (pinB && h.cal.mode = 0) then h
    else if short then { h with glitches := h.glitches + 1 }
    else if pinB then { h with pulsesB := h.pulsesB + 1 }
    else { h with subA := addSub h.subA (subOf h.time) 1 }

/-- The die's own tamper response (R426). -/
def Heart.tampered (h : Heart) : Heart :=
  if h.rb 0x80 14 then h
  else
    let h := { h with keys := false, pairing := none, alarms := h.alarms ||| 0x80 }
    ((h.setRb 0x80 14 true).setRb 0x80 6 true).event 1 7

/-- The main-die tamper line is seen (R426). -/
def Heart.mainTamper (h : Heart) : Heart :=
  if h.rb 0x80 13 then h else ((h.setRb 0x80 13 true).event 8 0).pulseAlarm 6

/-- 2 s have passed since the start without link 0 in frame (R445). -/
def Heart.startTimeout (h : Heart) : Heart :=
  let due := h.started + 2000000
  if h.link0Seen || h.startDue || h.secondEndAt ≤ due then h
  else
    let h : Heart := { h.at_ due with startDue := true }
    if h.source ≠ 3 then h
    else if h.cal.mode ≠ 2 then h.setSource 1
    else if h.link1.state = 2 then h.setSource 2 else h

/-! ## The meanings -/

/-- A meaning that acts on Heartwood where it is present and powered. -/
def State.onHw (s : State) (f : Heart → Heart) : Host.Outcome State Fault Refusal :=
  s.onHeart (fun d h => if heartPresent d.variant && h.on then f h else h)

/-- A meaning that acts on Heartwood's always-on part too. -/
def State.onHwAlways (s : State) (f : Heart → Heart) : Host.Outcome State Fault Refusal :=
  s.onHeart (fun d h => if heartPresent d.variant then f h else h)

/-- HW_SECOND_END. -/
def execHwSecondEnd (s : State) := s.onHw (·.secondEnd s.dev.safe)
/-- BATCH_SIGNED. -/
def execBatchSigned (s : State) := s.onHw (·.signBatch)
/-- PULSE_ACCEPTED. -/
def execPulseAccepted (pinB shortPhase : Bool) (hwTime : BitVec 64) (s : State) := s.onHwAlways (·.pulse pinB shortPhase hwTime.toNat)
/-- VDD_HW_RISE. -/
def execVddHwRise (vaonLost : Bool) (hwTime : BitVec 64) (s : State) := s.onHwAlways (·.powerRise s.dev.safe vaonLost hwTime.toNat)
/-- VDD_HW_LOSS. -/
def execVddHwLoss (s : State) := s.onHwAlways (·.powerLoss)
/-- HW_TIME_EDGE. -/
def execHwTimeEdge (hwTime : BitVec 64) (s : State) := s.onHw (fun h => (h.at_ hwTime.toNat).timeEdge)
/-- MAIN_TAMPER. -/
def execMainTamper (s : State) := s.onHw (·.mainTamper)
/-- HW_TAMPERED. -/
def execHwTampered (s : State) := s.onHwAlways (·.tampered)
/-- HW_LOCKSTEP_MISMATCH (R404): the pair restarts its firmware from its last MRAM checkpoint, and counting continues; the
state of this model is what the restart resumes with. -/
def execHwLockstepMismatch (s : State) := s.onHw (fun h => h.setRb 0x80 0 true)
/-- SOURCE_START_TIMEOUT. -/
def execSourceStartTimeout (s : State) := s.onHw (·.startTimeout)

end Sys2Proof.Machine
end

