-- ==== Sys2Proof/Machine/HeartBox.lean ====
section
/-! DEFINITION. Heartwood's mailbox: its registers as the main side reaches them, and its requests (R406 to R410, R422 to R425,
R441, R562). -/
namespace Sys2Proof.Machine

/-! ## The mailbox registers (R406, R407) -/

/-- MB_STATUS.BUSY. -/
def Heart.busy (h : Heart) : Bool := h.rb 0xA4 0

/-- The 256 octets of MB_REQ. -/
def Heart.request (h : Heart) : List Byte := (List.range 64).flatMap (fun k => leBytes 4 (h.reg (0x100 + 4 * k)).toNat)

/-- Write words, the first at offset `off`. -/
def Heart.putWords (h : Heart) (off : Nat) (l : List Word) : Heart :=
  (l.zipIdx.foldl (fun (h : Heart) (e : Word × Nat) => h.setReg (off + 4 * e.2) e.1) h)

/-- Octets as words, the last padded with zeros. -/
def asWords (l : List Byte) : List Word := (blocks 4 l).map (fun (b : List Byte) => BitVec.ofNat 32 (leNat b))

/-- A request completes: MB_RSP and MB_STATUS are written, BUSY cleared and DONE set (R407). -/
def Heart.complete (h : Heart) (code : Nat) (octets : List Byte) : Heart :=
  (h.putWords 0x1000 (asWords octets)).setReg 0xA4
    (BitVec.ofNat 32 (code % 256 * 2 ^ 24 + octets.length * 256 + (h.rb 0xA4 2).toNat * 4 + 2))

/-- The OPs that R408 lists. -/
def knownRequest (op : Nat) : Bool := 1 ≤ op && op ≤ 14

/-- A write that Heartwood performs. A GO whose OP is unknown completes at once (R408). -/
def Heart.mbWrite (h : Heart) (off : Nat) (v : Word) : Heart :=
  if 0x100 ≤ off ∧ off < 0x200 then (if h.busy then h else h.setReg off v)
  else if off = 0xA0 then
    if !bit v 0 then h
    else if h.busy then h.setRb 0xA4 2 true
    else if knownRequest (fld (h.reg 0x100) 7 0) then h.setRb 0xA4 0 true
    else h.complete stBadOpcode []
  else if off = 0xA4 then h.setReg 0xA4 (h.reg 0xA4 &&& ~~~(v &&& 6))
  else h

/-- A read that Heartwood answers. -/
def Heart.mbRead (h : Heart) (off : Nat) : Word :=
  if off = 0x20 then Config.hwUid.setWidth 32
  else if off = 0x24 then BitVec.ofNat 32 (Config.hwUid.toNat / 2 ^ 32)
  else if off = 0xA0 then 0
  else h.reg off

/-! ## Requests (R408) -/

/-- A field of the parameters. -/
def prm (p : List Byte) (at_ n : Nat) : Nat := leNat ((p.drop at_).take n)

/-- What a request answers: the die after it, the code and the response. -/
abbrev MbRes := Heart × Nat × List Byte

/-- GET_STATUS. -/
def Heart.getStatus (h : Heart) (_ : List Byte) : MbRes :=
  let openSeq := match h.batches.getLast? with | some b => if b.closed then h.nextSeq else b.firstSeq | none => h.nextSeq
  (h, stOk, leBytes 4 (h.reg 0x80).toNat ++ leBytes 8 h.nextSeq ++ leBytes 8 h.cum ++ leBytes 8 openSeq ++ leBytes 4 (h.reg 0x88).toNat)

/-- The serialised form of a stored batch: its records, then its trailer. -/
def HwBatch.octets (b : HwBatch) : List Byte := b.recs.flatMap (fun r => leBytes 64 r.toNat) ++ b.trailer.getD []

/-- READ_BATCH. -/
def Heart.readBatch (h : Heart) (p : List Byte) : MbRes :=
  let n := prm p 0 8
  match h.batches.find? (fun b => b.number = n) with
  | none => (h, if n < h.nextBatch then 0x40 else stNotFound, [])
  | some b =>
    if !b.closed then (h, stNotFound, [])
    else if b.trailer.isNone then (h, 0x41, [])
    else
      let part := (b.octets.drop (4096 * prm p 8 1)).take 4096
      if part.isEmpty then (h, stBadParam, []) else (h, stOk, part)

/-- ACK_BATCH. -/
def Heart.ackBatch (h : Heart) (p : List Byte) : MbRes :=
  let n := prm p 0 8
  let notClosed : Bool := n ≥ h.nextBatch || h.batches.any (fun b => b.number = n && !b.closed)
  if notClosed then (h, stNotFound, [])
  else ({ h with batches := h.batches.map (fun (b : HwBatch) => if b.number ≤ n then { b with acked := true } else b) }, stOk, [])

/-- GET_PUBKEY: with the keys gone, zeros. -/
def Heart.getPubkey (h : Heart) (_ : List Byte) : MbRes :=
  (h, stOk, if h.keys then edPubOctets (hwSeed 0) ++ mldsaPubOctets (hwSeed 1) else zeros 1984)

/-- TIME_MSG (R418). -/
def Heart.timeMsgReq (h : Heart) (p : List Byte) : MbRes := (h.timeMsg (prm p 0 8) ((prm p 8 1).testBit 0), stOk, [])

/-- READ_EVLOG. -/
def Heart.readEvlog (h : Heart) (p : List Byte) : MbRes :=
  match h.evlog[prm p 0 2]? with
  | some e => (h, stOk, e)
  | none => (h, stNotFound, [])

/-- Octets stored in a buffer from an offset. -/
def putOctets (st : Store Byte) (off : Nat) (l : List Byte) : Store Byte :=
  l.zipIdx.foldl (fun (st : Store Byte) (e : Byte × Nat) => st.put 0 (off + e.2) e.1) st

/-- Octets read from a buffer. -/
def getOctets (st : Store Byte) (off n : Nat) : List Byte := (List.range n).map (fun i => st.get 0 (off + i))

/-- STAGE_WRITE. -/
def Heart.stageWrite (h : Heart) (p : List Byte) : MbRes :=
  let off := prm p 0 4
  let l := p.drop 4
  if off + l.length > 65536 then (h, stBadParam, [])
  else ({ h with staging := putOctets h.staging off l }, stOk, [])

/-- Whether every field of a calibration message lies in its range (R409). -/
def calInRange (m : List Byte) : Bool :=
  let opts := msgNat m 33 1
  m.take 8 = ascii "TLTRCAL1" && 1000 ≤ msgNat m 20 4 && msgNat m 20 4 ≤ 100000 && 1000 ≤ msgNat m 24 4 && msgNat m 24 4 ≤ 1000000
    && 1 ≤ msgNat m 28 2 && msgNat m 28 2 ≤ 500 && msgNat m 32 1 ≤ 2 && opts < 4 && msgNat m 34 6 = 0
    && (opts.testBit 0 || msgNat m 40 40 = 0)
    && m.length = 80 + (if opts.testBit 1 then 1984 else 0) + 3373

/-- Event log entries a message writes. -/
def calEntries (m : List Byte) : Nat :=
  let opts := msgNat m 33 1
  1 + (opts.testBit 1).toNat + (opts.testBit 0).toNat

/-- Both signatures of a message under the authority keys in force. -/
def Heart.calVerified (h : Heart) (m : List Byte) : Bool :=
  let keys := (h.calNext.filter (fun x => (msgNat x 33 1).testBit 1)).getLast?.elim (h.authority.getD Config.authorityKeys)
    (fun x => (x.drop 80).take 1984)
  let n := m.length - 3373
  let body := m.take n
  edVerify (keys.take 32) ((m.drop n).take 64) body && mldsaVerify (keys.drop 32) (m.drop (n + 64)) body

/-- CALIBRATE (R409, R410). Messages accepted in this second count as applied. -/
def Heart.calibrate (h : Heart) (p : List Byte) : MbRes :=
  let len := prm p 0 4
  let m := getOctets h.staging 0 (min len 65536)
  let seq := (h.reg 0x88).toNat + h.calNext.length
  let room := h.rf 0x8C 10 0 + (h.calNext.foldl (fun n x => n + calEntries x) 0) + calEntries m ≤ 1024
  if h.rb 0x80 15 || !room || seq ≥ 0xFFFFFFFF then (h, stExhausted, [])
  else if (m.drop 8).take 8 ≠ hwUidBytes || msgNat m 16 4 ≠ seq + 1 then (h, stIncompatible, [])
  else if !calInRange m then (h, stBadParam, [])
  else if !h.calVerified m then (h, stAuthFail, [])
  else if (msgNat m 33 1).testBit 0 && (keyUnwrap Config.transportKey ((m.drop 40).take 40)).isNone then (h, stAuthFail, [])
  else ({ h with calNext := h.calNext ++ [m] }, stOk, [])

/-! ## Images (R424, R545, R562) -/

/-- The running slot and the octets of a slot. -/
def Heart.slot (h : Heart) : Nat := h.rf 0x18 0 0
abbrev hwSlotSize : Nat := 917504
def Heart.inactive (h : Heart) (n : Nat) : List Byte := getOctets h.image ((1 - h.slot) * 2 ^ 20) n

/-- IMAGE_WRITE. SLOT_OFFSET counts within the inactive slot, of 896 KiB, so no value of it names the running slot's range and
WRONG_MODE of R408 has no case here (log entry 57). -/
def Heart.imageWrite (h : Heart) (p : List Byte) : MbRes :=
  let off := prm p 0 4
  let len := prm p 4 4
  if off + len > hwSlotSize || len > 65536 then (h, stBadParam, [])
  else ({ h with image := putOctets h.image ((1 - h.slot) * 2 ^ 20 + off) (getOctets h.staging 0 len), checked := none }, stOk, [])

/-- The key set of an image as the boot ROM numbers its keys. -/
def vendorKeys (keyset : Nat) : List Byte :=
  leBytes 32 (Config.vendorKey (4 * keyset)).toNat ++ (List.range 61).flatMap (fun k => leBytes 32 (Config.vendorKey (8 + 64 * keyset + k)).toNat)

/-- Both of Selond's signatures of a signature block over a header block (R546). -/
def vendorSigned (header sig : List Byte) : Bool :=
  let keys := vendorKeys (msgNat header 17 1)
  let body := header.take 4092
  msgNat header 17 1 < 2 && edVerify (keys.take 32) (sig.take 64) body
    && mldsaVerify (keys.drop 32 |>.take 1952) ((sig.drop 64).take 3309) body

/-- The data octets of the body blocks of an image, and whether its length and BODY_DIGEST agree with them (R545). -/
def imageBody (img : List Byte) : List Byte := (blocks 4096 ((img.drop 4096).take (4096 * msgNat img 12 2))).flatMap (fun (b : List Byte) => b.take 4092)
def imageWhole (img : List Byte) : Bool :=
  img.length = 4096 * (msgNat img 12 2 + 2) && sha512 (imageBody img) = (img.drop 128).take 64

/-- IMAGE_CHECK. -/
def Heart.imageCheck (h : Heart) (p : List Byte) : MbRes :=
  let len := prm p 0 4
  if len > hwSlotSize then (h, stBadParam, [])
  else
    let img := h.inactive len
    let unitOk : Bool := !(msgNat img 9 1).testBit 0 || (img.drop 24).take 8 = hwUidBytes
    if !(img.take 8 = ascii "TLTRIMG1" && msgNat img 8 1 = 3 && msgNat img 12 2 ≠ 0 && unitOk) then (h, stIncompatible, [])
    else if !(imageWhole img && vendorSigned (img.take 4096) (img.drop (len - 4096)) && Config.authorityVerify (h.authority.getD Config.authorityKeys) img)
      then (h, stAuthFail, [])
    else if msgNat img 11 1 < (h.reg 0x14).toNat then (h, 0x42, [])
    else if h.rb 0x80 15 || (h.reg 0x84).toNat = 0xFFFFFFFF then (h, stExhausted, [])
    else ({ h with checked := some len }, stOk, [])

/-- LR_CHECKSUM. -/
def Heart.lrChecksum (h : Heart) : List Byte := (List.range 16).flatMap (fun k => leBytes 4 (h.reg (0x40 + 4 * k)).toNat)

/-- ATTEST. -/
def Heart.attest (h : Heart) (p : List Byte) : MbRes :=
  let head := ascii "TLTRATT1" ++ leBytes 4 (regReset .m 0).toNat ++ [BitVec.ofNat 8 h.life] ++ zeros 3 ++ hwUidBytes ++ leBytes 8 h.time ++ p.take 32 ++ h.lrChecksum
  (h, stOk, head ++ signBoth (hwSeed 0) (hwSeed 1) h.drawNo head)

/-- One link's 32 octets of GET_LINK (R441). -/
def HwLink.octets (l : HwLink) : List Byte :=
  [BitVec.ofNat 8 l.state, BitVec.ofNat 8 l.unavail.toNat, BitVec.ofNat 8 l.run, 0] ++
    [l.elapsed, l.es, l.ses, l.uas, l.oofDecl, l.wordRej, l.reqRej].flatMap (fun (w : Word) => leBytes 4 w.toNat)

/-- GET_LINK. -/
def Heart.getLink (h : Heart) (_ : List Byte) : MbRes :=
  (h, stOk, h.link0.octets ++ (if h.cal.mode = 2 then h.link1.octets else zeros 32))

/-- HW_PREPARE. -/
def Heart.prepare (h : Heart) (p : List Byte) : MbRes :=
  match h.checked with
  | none => (h, stNotFound, [])
  | some _ => ({ h with prepared := some (p.take 64) }, stOk, [])

/-- The activation of R424: the inactive slot's image, `len` octets long, becomes the running one. -/
def Heart.activate (h : Heart) (len : Nat) : Heart :=
  let img := h.inactive len
  let n := (h.reg 0x84).toNat + 1
  let old := h.lrChecksum
  let sum := sha512 img
  let h := ((h.setReg 0x84 (BitVec.ofNat 32 n)).logEntry 3 n old sum).event 5 n
  let h := (h.putWords 0x40 (asWords sum)).putWords 0 ((List.range 4).map (fun k => Config.imageWord (leNat sum) k))
  let h := (h.setReg 0x10 (BitVec.ofNat 32 (msgNat img 20 4))).setReg 0x14 (BitVec.ofNat 32 (msgNat img 11 1))
  (({ h with prepared := none, checked := none } : Heart).setReg 0x18 (BitVec.ofNat 32 (1 - h.slot)))

/-- HW_COMMIT. The pending record stays until it is replaced or committed (R562), but the slot's contents run only where IMAGE_CHECK has
accepted them since they were written (R403): before that the answer is NOT_FOUND (DESIGN CHOICE, log entry 57). -/
def Heart.commit (h : Heart) (p : List Byte) : MbRes :=
  let d := p.take 64
  if h.prepared ≠ some d then (h, if h.committed = some d then stOk else stNotFound, [])
  else match h.checked with
    | none => (h, stNotFound, [])
    | some len =>
      if h.rb 0x80 15 || (h.reg 0x84).toNat = 0xFFFFFFFF then (h, stExhausted, [])
      else ({ (h.activate len) with committed := some d }, stOk, [])

/-! ## The bridge's transfers (R447 to R450) -/

/-- Update the bridge. -/
def Dev.onSap (s : Dev) (f : Sap → Sap) : Dev := { s with sap := f s.sap }

/-- SAP_STATUS.LINK_DOWN. -/
def Dev.linkDown (s : Dev) : Bool := s.rb (sapReg 4) 0

/-- A transfer completes with a bus error. -/
def Dev.sapError (s : Dev) (addr : Nat) (backoff : Bool) : Dev :=
  s.onSap (fun x => { x with last := some ⟨false, backoff, 0⟩, failed := addr })

/-- A transfer completes without error: BACKOFF_RUN and the timeouts in a row start again (R449, R450). -/
def Dev.sapOk (s : Dev) (v : Word) : Dev :=
  (s.onSap (fun x => { x with timeouts := 0, last := some ⟨true, false, v⟩ })).setRf (sapReg 4) 8 4 0

/-! ## A request from its issue to its completion -/

/-- Heartwood runs the request in MB_REQ (R407, R408). -/
def Heart.runRequest (h : Heart) (op : Nat) (lenOk : Nat → Bool) (body : Heart → List Byte → MbRes) : Heart :=
  let r := h.request
  let plen := leNat ((r.drop 2).take 2)
  let x : MbRes :=
    if h.rb 0x80 14 && !([1, 2, 3, 6].contains op) then (h, stWrongMode, [])
    else if !lenOk plen then (h, stBadParam, [])
    else body h ((r.drop 4).take plen)
  x.1.complete x.2.1 x.2.2

/-- Logged writes of a request word, or of GO, across Sapwood (R536). -/
def Dev.logMail (s : Dev) (o addr : Nat) (old new : Word) : Dev :=
  s.log o kRegister 0x50 0 0 addr (leBytes 4 old.toNat) (leBytes 4 new.toNat)

/-- A mailbox request: `issue` writes MB_REQ and GO and is served; `serve` is the completion of the request that MB_REQ holds
and GO started. -/
def State.mailbox (s : State) (m : MbCall) (op : Nat) (lenOk : Nat → Bool) (body : Heart → List Byte → MbRes) : Host.Outcome State Fault Refusal :=
  s.onBoth (fun d h =>
    if !heartPresent d.variant || !h.on then (d, h)
    else match m with
    | .serve =>
      if h.busy && fld (h.reg 0x100) 7 0 = op then
        ({ d with out := .irq "IRQ_H2M" 0 :: d.out }, h.runRequest op lenOk body)
      else (d, h)
    | .issue a req =>
      if !d.runs then (d, h)
      else
        let p := d.passAccess a 0x5800A0 true true [] []
        if !p.2 then (p.1, h)
        else if d.linkDown then (p.1.sapError 0x5800A0 false, h)
        else if h.busy then ((p.1.logMail a.origin 0x5800A0 0 1).sapOk 0, h.setRb 0xA4 2 true)
        else
          let words := match req.take 64 with
            | w :: r => setFld w 7 0 op :: r
            | [] => [BitVec.ofNat 32 op]
          let d := words.zipIdx.foldl (fun (d : Dev) (e : Word × Nat) =>
            d.logMail a.origin (0x580100 + 4 * e.2) (h.reg (0x100 + 4 * e.2)) e.1) p.1
          let d := (d.logMail a.origin 0x5800A0 0 1).sapOk 0
          ({ d with out := .irq "IRQ_H2M" 0 :: d.out }, (h.putWords 0x100 words).runRequest op lenOk body))

/-- GET_STATUS. -/
def execGetStatus (m : MbCall) (s : State) := s.mailbox m 1 (· == 0) Heart.getStatus
/-- READ_BATCH. -/
def execReadBatch (m : MbCall) (s : State) := s.mailbox m 2 (· == 9) Heart.readBatch
/-- ACK_BATCH. -/
def execAckBatch (m : MbCall) (s : State) := s.mailbox m 3 (· == 8) Heart.ackBatch
/-- GET_PUBKEY. -/
def execGetPubkey (m : MbCall) (s : State) := s.mailbox m 4 (· == 0) Heart.getPubkey
/-- TIME_MSG. -/
def execTimeMsg (m : MbCall) (hwTime : BitVec 64) (s : State) :=
  s.mailbox m 5 (· == 9) (fun h p => (h.at_ hwTime.toNat).timeMsgReq p)
/-- READ_EVLOG. -/
def execReadEvlog (m : MbCall) (s : State) := s.mailbox m 6 (· == 2) Heart.readEvlog
/-- STAGE_WRITE. -/
def execStageWrite (m : MbCall) (s : State) := s.mailbox m 7 (fun n => 4 ≤ n && n ≤ 252) Heart.stageWrite
/-- CALIBRATE. -/
def execCalibrate (m : MbCall) (s : State) := s.mailbox m 8 (· == 4) Heart.calibrate
/-- IMAGE_WRITE. -/
def execImageWrite (m : MbCall) (s : State) := s.mailbox m 9 (· == 8) Heart.imageWrite
/-- IMAGE_CHECK. -/
def execImageCheck (m : MbCall) (s : State) := s.mailbox m 10 (· == 4) Heart.imageCheck
/-- ATTEST of the mailbox. -/
def execHwAttest (m : MbCall) (s : State) := s.mailbox m 11 (· == 32) Heart.attest
/-- GET_LINK. -/
def execGetLink (m : MbCall) (s : State) := s.mailbox m 12 (· == 0) Heart.getLink
/-- HW_PREPARE. -/
def execHwPrepare (m : MbCall) (s : State) := s.mailbox m 13 (· == 64) Heart.prepare
/-- HW_COMMIT. -/
def execHwCommit (m : MbCall) (s : State) := s.mailbox m 14 (· == 64) Heart.commit

end Sys2Proof.Machine
end

