-- ==== Sys2Proof/Machine/Sapwood.lean ====
section
/-! DEFINITION. Sapwood: transfers, timeouts and backoffs, semaphores, side-band wires and notices (R446 to R456). -/
namespace Sys2Proof.Machine

/-- SAPWOOD_FAULT (R455). -/
def Dev.sapFault (s : Dev) (cause : Nat) : Dev := s.raiseRated 55 cause 0x51 0 0 msRaw id (fun _ => s.sap.failed)

/-- LINK_DOWN is declared (R450): the transfers that wait complete at once. -/
def Dev.declareDown (s : Dev) : Dev :=
  let failed := (s.sap.queue.getLast?).elim s.sap.failed (·.addr)
  let last := if s.sap.queue.isEmpty then s.sap.last else some ⟨false, false, 0⟩
  let s := (s.setRb (sapReg 4) 0 true).onSap (fun x => { x with queue := [], timeouts := 0, failed := failed, last := last })
  s.sapFault 3

/-- The bridge starts again: the heartbeat's 5 ms run from now (R453), and with HW_RST high it declares LINK_DOWN (R450). -/
def Dev.bridgeUp (s : Dev) : Dev :=
  let s := s.onSap (fun x => { x with beat := s.now })
  if heartPresent s.variant && s.sap.rst && !s.linkDown then s.declareDown else s

/-- Free the semaphores an origin owns (R451). -/
def Dev.freeSems (s : Dev) (o : Nat) : Dev :=
  (List.range 16).foldl (fun (s : Dev) i =>
    if s.rb (sapReg (0x100 + 4 * i)) 0 && s.rf (sapReg (0x100 + 4 * i)) 7 4 = o then s.setReg (sapReg (0x100 + 4 * i)) 0 else s) s

/-- The bridge accepts a transfer, or ends it at once (R446 to R450). -/
def Dev.sapTransfer (s : Dev) (h : Heart) (a : Acc) (addr : Nat) (data : Option Word) (size : Nat) (atomic crossed : Bool) : Dev :=
  if !heartPresent s.variant || blockOf addr ≠ some 13 || !reaches a.origin 13 then s
  else
    let off := addr - 0x580000
    let old := leBytes 4 (h.mbRead off).toNat
    let which := if data.isSome then 0 else 1
    if !s.permitted which a.origin 13 then s.denied a.origin 0x50 0 0 addr old (data.elim [] (fun v => leBytes 4 v.toNat))
    else if size ≠ 4 ∨ addr % 4 ≠ 0 ∨ atomic = true then (s.count (sapReg 0x18)).sapError addr false
    else if s.linkDown then s.sapError addr false
    else if crossed then
      let run := min (s.rf (sapReg 4) 8 4 + 1) 31
      let s := ((s.count (sapReg 0x10)).setRf (sapReg 4) 8 4 run).sapError addr true
      if run = 16 then s.sapFault 1 else s
    else
      let s := match data with
        | some v => if (0x100 ≤ off ∧ off < 0x200 ∧ !h.busy) ∨ off = 0xA0 then s.logMail a.origin addr (h.mbRead off) v else s
        | none => s
      s.onSap (fun x => { x with queue := x.queue ++ [⟨a, addr, data, s.now, true⟩] })

/-- SAPWOOD_TRANSFER. -/
def execSapwoodTransfer (a : Acc) (addr : BitVec 32) (data : Option (BitVec 32)) (size : Nat) (atomic crossed : Bool) (s : State) :=
  s.onDev (fun d => d.sapTransfer s.heart a addr.toNat data size atomic crossed)

/-- Whether a transfer is a GO whose request completes at once (R407, R408). -/
def SapXfer.completes (x : SapXfer) (h : Heart) : Bool :=
  x.addr = 0x5800A0 && x.data.any (fun v => bit v 0) && !h.busy && !knownRequest (fld (h.reg 0x100) 7 0)

/-- Heartwood performs a transfer. -/
def SapXfer.perform (x : SapXfer) (h : Heart) : Heart × Word :=
  let off := x.addr - 0x580000
  match x.data with
  | some v => (h.mbWrite off v, 0)
  | none => (h, h.mbRead off)

/-- SAPWOOD_TRANSFER_DONE: the oldest transfer completes without error. -/
def execSapwoodTransferDone (s : State) := s.onBoth (fun d h =>
  if !d.runs || !h.on then (d, h)
  else match d.sap.queue with
    | [] => (d, h)
    | x :: r =>
      let p := x.perform h
      let d := (d.onSap (fun y => { y with queue := r })).sapOk p.2
      let d := if x.completes h then { d with out := .irq "IRQ_H2M" 0 :: d.out } else d
      (if x.data.isNone && x.live then d.readGives x.acc.origin.val p.2 else d, p.1))

/-- SAP_TIMEOUT: the oldest transfer ends without a response within SAP_TO µs of raw time; a read returns zero, and whether a write was
performed is open (R447). -/
def execSapTimeout (s : State) := s.onBoth (fun d h =>
  if !d.runs then (d, h)
  else match d.sap.queue with
    | [] => (d, h)
    | x :: r =>
      if d.now < x.since + d.rf (sapReg 8) 9 0 * usRaw then (d, h)
      else
      let done : Bool := h.on && (Config.freeValue (1000 + d.draws)).getLsbD 0
      let n := d.sap.timeouts + 1
      let d := (({ d with draws := d.draws + 1 } : Dev).count (sapReg 0x14)).sapError x.addr false
      let d := if done && x.completes h then { d with out := .irq "IRQ_H2M" 0 :: d.out } else d
      let d := if x.data.isNone && x.live then d.readGives x.acc.origin.val 0 else d
      let h := if done then (x.perform h).1 else h
      let d := d.onSap (fun y => { y with queue := r, timeouts := n })
      (if n ≥ 3 then d.declareDown else d, h))

/-- RETRY. -/
def execRetry (a : Acc) (s : State) := s.onDev (fun d => d.writeBit a (sapReg 0) 0 (fun d =>
  if !d.sap.rst && d.rb (sapReg 4) 1 then d.setRb (sapReg 4) 0 false else d))

/-- A read of a semaphore (R451). -/
def Dev.semRead (d : Dev) (a : Acc) (i : Nat) : Dev :=
  let r := sapReg (0x100 + 4 * i)
  if !heartPresent d.variant || !reaches a.origin 14 then d.readGives a.origin.val 0
  else if !d.permitted 1 a.origin 14 then (d.denied a.origin 0x51 0 0 r [] []).readGives a.origin.val 0
  else
    let v := d.reg r
    (if bit v 0 then d else d.setReg r (BitVec.ofNat 32 (a.origin.val * 16 + 1))).readGives a.origin.val v

/-- SEM_READ: its result is left where a read's data goes. -/
def execSemRead (a : Acc) (i : Fin 16) (s : State) := s.onDev (·.semRead a i.val)

/-- SEM_WRITE. -/
def execSemWrite (a : Acc) (i : Fin 16) (value : BitVec 32) (s : State) := s.onDev (fun d =>
  let r := sapReg (0x100 + 4 * i.val)
  let p := d.passAccess a r true true (leBytes 4 (d.reg r).toNat) (leBytes 4 value.toNat)
  if !p.2 then p.1
  else
    let d := p.1
    if d.rb r 0 && d.rf r 7 4 = a.origin then (if value = 0 then d.setReg r 0 else d)
    else (d.count (sapReg 0x1C)).sapFault 6)

/-- HEARTBEAT_TIMEOUT: 5 ms of raw time without a toggle. -/
def execHeartbeatTimeout (s : State) := s.onDev (fun d =>
  if !heartPresent d.variant || d.sap.silent || d.now < d.sap.beat + 5 * msRaw then d
  else ((d.setRb (sapReg 4) 1 false).onSap (fun x => { x with silent := true })).sapFault 4)

/-- HEARTBEAT_RESUME: a toggle of the heartbeat. -/
def execHeartbeatResume (s : State) := s.onDev (fun d =>
  if !heartPresent d.variant then d
  else
    let was := d.sap.silent
    let d := (d.setRb (sapReg 4) 1 true).onSap (fun x => { x with silent := false, beat := d.now })
    if was then d.sapFault 5 else d)

/-- IRQ_H2M_EDGE: wires 3 to 7 stay low (R452). -/
def execIrqH2mEdge (n : Fin 8) (s : State) := s.onDev (fun d =>
  if !heartPresent d.variant || n.val ≥ 3 then d
  else
    let d := d.setRb (sapReg 0x24) n.val true
    if d.rb (sapReg 0x28) n.val then d.canopyIrq "CANOPY_SAPWOOD" n.val else d)

/-- NOTICE_GO: Heartwood's oldest notice (R454). -/
def execNoticeGo (s : State) := s.onBoth (fun d h =>
  if !d.runs || !heartPresent d.variant || !h.on then (d, h)
  else match h.notices with
    | [] => (d, h)
    | n :: r =>
      let d := (List.range 4).foldl (fun (d : Dev) k => d.setReg (sapReg (0x40 + 4 * k)) (Config.noticeWord k n.cls n.cause n.unit n.a n.b)) d
      (d.raise n.cls n.cause 0x50 n.unit n.a n.b, { h with notices := r }))

/-- HW_RST_CHANGE. The wire keeps its level whatever the main die does; the bridge acts on it where it runs. -/
def execHwRstChange (high : Bool) (s : State) := s.onTap (fun d =>
  if !heartPresent d.variant then d
  else
    let d := d.onSap (fun x => { x with rst := high })
    if !d.runs || !high then d
    else
      let d := d.freeSems 7
      if d.linkDown then d else d.declareDown)

end Sys2Proof.Machine
end

