-- ==== Sys2Proof/Machine/Canopy.lean ====
section
/-! DEFINITION. Canopy: checkpoints, mismatches, retirement, watchdogs and the slow-path rings (R457 to R476). -/
namespace Sys2Proof.Machine

/-! ## Pairs -/

/-- PAIR_STATUS fields. -/
def Dev.pairState (s : Dev) (k : Nat) : Nat := s.rf (pairReg k 0) 6 4
def Dev.setPairState (s : Dev) (k v : Nat) : Dev := s.setRf (pairReg k 0) 6 4 v
def Dev.pairOrigin (s : Dev) (k : Nat) : Nat := s.rf (pairReg k 0) 15 12
def Dev.ckptValid (s : Dev) (k : Nat) : Bool := s.rb (pairReg k 0) 0
def Dev.pair (s : Dev) (k : Nat) : PairRun := s.canopy.pairs.get .idle k
def Dev.setPair (s : Dev) (k : Nat) (p : PairRun) : Dev := { s with canopy := { s.canopy with pairs := s.canopy.pairs.put .idle k p } }

/-- LOCKSTEP_MISMATCH (R475). -/
def Dev.mismatchEvent (s : Dev) (cause unit addr : Nat) : Dev := s.raise 56 cause 0x60 unit addr s.tick

/-- An origin's outstanding accesses are abandoned (R464, R470): a write is still performed, when its clock runs or Heartwood serves it,
and a read's data goes nowhere (R505). -/
def Dev.abandon (s : Dev) (o : Nat) : Dev :=
  { s with clocks := { s.clocks with held := s.clocks.held.filter (fun x => x.acc.origin.val ≠ o || x.value.isSome) }
           sap := { s.sap with queue := s.sap.queue.map (fun x => if x.acc.origin.val = o then { x with live := false } else x) } }

/-- The cores of an origin are reset: its semaphores are freed, its accesses abandoned and its clock holds dropped (R451, R464,
R508). -/
def Dev.coreReset (s : Dev) (o : Nat) : Dev := ((s.freeSems o).abandon o).dropHolds o

/-- A serving pair is retired (R468): pair C takes the slot where it is spare; otherwise the device enters SAFE. -/
def Dev.retirePair (s : Dev) (k : Nat) : Dev :=
  let w := s.reg (pairReg k 0)
  let s := s.coreReset (s.pairOrigin k)
  let s := s.setReg (pairReg k 0) (setFld (setFld (setFld (setFld w 15 12 0) 9 8 3) 6 4 4) 0 0 0)
  -- the pair brought in is demanded (R503)
  let s := s.demand 0x60 2
  if k ≠ 2 ∧ s.pairState 2 = 3 then
    let s := s.setReg (pairReg 2 0) (BitVec.ofNat 32 (fld w 15 12 * 4096 + fld w 9 8 * 256 + fld w 0 0))
    (((s.setPair 2 ⟨[], s.now, false⟩).swapUnits 0x60 k 2).spareEvent 1 0x60 2 k).irqsDue
  else (((s.dropUnit 0x60 k).spareEvent 3 0x60 k k).irqsDue).enterSafe 2 0x60 k

/-- The window of R466 after a mismatch now: the raw times still in it. -/
def Dev.inWindow (s : Dev) (k : Nat) : List Nat :=
  (s.pair k).mismatches.filter (fun t => s.now < t + s.rf (canopyReg 4) 23 0 * msRaw) ++ [s.now]

/-- A mismatch (R464, R466): `cause` is what is raised where the pair is recovered. -/
def Dev.recoverPair (s : Dev) (k addr : Nat) (cause : Option Nat) : Dev :=
  let l := s.inWindow k
  let s := (s.count (pairReg k 0x14)).setPair k { s.pair k with mismatches := l }
  let s := s.setRf (pairReg k 0) 3 2 (min l.length 3)
  let s := match cause with
    | some c => s.mismatchEvent c k addr
    | none => s
  if l.length ≥ 3 then (s.mismatchEvent 3 k addr).retirePair k
  else
    let s := if cause.isNone then s.mismatchEvent (if s.ckptValid k then 1 else 2) k addr else s
    (s.coreReset (s.pairOrigin k)).setPairState k 2

/-- A latent fault (R467). -/
def Dev.latentFault (s : Dev) (k : Nat) : Dev :=
  (((s.count (pairReg k 0x24)).setRb (pairReg k 0) 1 true).mismatchEvent 4 k 0).retirePair k

/-- A checkpoint (R461, R462, R467). -/
def Dev.checkpoint (s : Dev) (k : Nat) : CkptOutcome → Dev
  | .matched => ((s.setRb (pairReg k 0) 0 true).count (pairReg k 0x20)).setPair k { s.pair k with ckptAt := s.now, overdue := false }
  | .mismatch addr => s.recoverPair k addr.toNat (some 7)
  | .latent => s.latentFault k

/-- CHECKPOINT: a write of another pair's register is ignored, and so is every one in split mode. -/
def execCheckpoint (a : Acc) (k : Fin 3) (outcome : CkptOutcome) (s : State) := s.onDev (fun d =>
  if d.split || d.pairState k.val ≠ 1 || d.pairOrigin k.val ≠ a.origin.val then (d.passAccess a (pairReg k.val 4) true true [] []).1
  else d.writeBit a (pairReg k.val 4) 0 (·.checkpoint k.val outcome))

/-- LOCKSTEP_MISMATCH; `latent` where what is found is a delay register whose copies disagree or fail their parity (R467). -/
def execLockstepMismatch (k : Fin 3) (addr : BitVec 32) (latent : Bool) (s : State) := s.onDev (fun d =>
  if d.split || d.pairState k.val ≠ 1 then d else if latent then d.latentFault k.val else d.recoverPair k.val addr.toNat none)

/-- PAIR_RESUMED: a recovering pair resumes, or a pair brought in runs. -/
def execPairResumed (k : Fin 3) (s : State) := s.onDev (fun d =>
  match d.pairState k.val with
  | 2 => ((d.setPairState k.val 1).count (pairReg k.val 0x18)).irqsDue
  | 0 => (d.setPairState k.val 1).irqsDue
  | _ => d)

/-! ## Watchdogs (R470) -/

/-- The registers of watchdog `w`: pairs 0 to 2, then cores 0 to 3. -/
def wdtCtl (w : Nat) : Nat := if w < 3 then pairReg w 8 else coreWdt (w - 3) 0
def wdtKickReg (w : Nat) : Nat := if w < 3 then pairReg w 0xC else coreWdt (w - 3) 4
def wdtCount (w : Nat) : Nat := if w < 3 then pairReg w 0x1C else coreWdt (w - 3) 8

/-- The origin a watchdog watches: 0 where it watches nothing. -/
def Dev.wdtOrigin (s : Dev) (w : Nat) : Nat := if w < 3 then (if s.split then 0 else s.pairOrigin w) else if s.split then w else 0

/-- A watchdog restarts. -/
def Dev.kick (s : Dev) (w : Nat) : Dev := { s with canopy := { s.canopy with kicks := s.canopy.kicks.put 0 w s.now } }

/-- WDT_KICK. -/
def execWdtKick (a : Acc) (w : Fin 7) (s : State) := s.onDev (fun d =>
  let p := d.passAccess a (wdtKickReg w.val) true true [] []
  if p.2 && a.origin.val ≠ 0 && a.origin.val = d.wdtOrigin w.val then p.1.kick w.val else p.1)

/-- WATCHDOG_EXPIRY. -/
def execWatchdogExpiry (w : Fin 7) (s : State) := s.onDev (fun d =>
  let o := d.wdtOrigin w.val
  if o = 0 || !d.rb (wdtCtl w.val) 31 || d.now < d.canopy.kicks.get 0 w.val + d.rf (wdtCtl w.val) 19 0 * usRaw then d
  else
    let d := if w.val < 3 then d.setRb (pairReg w.val 0) 0 false else d
    let d := ((d.coreReset o).count (wdtCount w.val)).kick w.val
    d.mismatchEvent 5 (if w.val < 3 then w.val else w.val + 5) 0)

/-- CKPT_OVERDUE (R463). -/
def execCkptOverdue (k : Fin 3) (s : State) := s.onDev (fun d =>
  let m := d.rf (canopyReg 8) 23 0
  let p := d.pair k.val
  if d.split || m = 0 || d.pairOrigin k.val = 0 || p.overdue || d.now < p.ckptAt + m * msRaw then d
  else (d.setPair k.val { p with overdue := true }).mismatchEvent 6 k.val 0)

/-! ## Slow-path rings (R472 to R474) -/

/-- Whether a slow-path queue's ring is on, has not stopped and has posted buffers. -/
def Dev.spqServes (s : Dev) (c : Nat) : Bool :=
  s.rb (spqReg c 0) 31 && !(s.basjo.ring 2 (8 + c)).stopped && dist32 (s.reg (spqReg c 0x10)) (s.reg (spqReg c 0xC)) ≠ 0

/-- A slow-path queue delivers its first frame, with the tags of R155 for P38, into its ring in shared SRAM. Where a device read or write
for the ring fails (`fail`) the ring stops at that entry, and the frame waits in its queue (R57, R473). -/
def Dev.spqDeliver (s : Dev) (c : Nat) (bufs : List RxBuf) (fail : Bool) : Dev :=
  match s.slowHeld c with
  | [] => s
  | id :: rest =>
    let x := s.basjo.ring 2 (8 + c)
    let dev := s.reg (spqReg c 0x10)
    let left := dist32 dev (s.reg (spqReg c 0xC))
    if !s.spqServes c then s
    else if fail then s.onBasjo (fun b => b.setRing 2 (8 + c) { x with stopped := true })
    else match s.stored id with
      | none => s
      | some f =>
        let o := s.edit 38 f
        match fillBufs 1024 o.length (bufs.take left) with
        | .short => s
        | .bad => s.onBasjo (fun b => b.setRing 2 (8 + c) { x with stopped := true })
        | .fits l =>
          let size := 2 ^ s.rf (spqReg c 0) 20 16
          let base := s.rf (spqReg c 4) 21 6 * 64
          let at_ (i : Nat) : Nat := base + 32 * ((dev.toNat + i) % size)
          let next := dev + BitVec.ofNat 32 l.length
          let l := l.map (fun (e : RxBuf × Nat) => ({ e.1 with addr := BitVec.ofNat 64 (e.1.addr.toNat % 2 ^ 22) }, e.2))
          let s := s.onBasjo (fun b => (b.writeFrame 2 at_ (f.rxMeta 0 c) (f.stamp / 256) (f.rxLast + f.stamp % 256) l.length 0 l o).store
            2 (s.rf (spqReg c 8) 21 2 * 4) (leBytes 4 next.toNat))
          let s := ({ (s.setReg (spqReg c 0x10) next) with slowq := s.slowq.put [] c rest } : Dev).giveDesc.release id
          s.canopyIrq "CANOPY_SPQ" (16 * s.rf (spqReg c 0) 25 24 + c)

/-- A write of an index that posts entries, within the limits of R52; one past them is ignored. -/
def Dev.postIdx (s : Dev) (ctl host dev : Nat) (v : Word) : Dev :=
  let size := 2 ^ s.rf ctl 20 16
  if s.rb ctl 31 && dist32 (s.reg host) v ≤ size && dist32 (s.reg dev) v ≤ size then s.setReg host v else s

/-- SPQ_HOST_IDX_WRITE. -/
def execSpqHostIdxWrite (a : Acc) (c : Fin 16) (value : BitVec 32) (s : State) := s.onDev (fun d =>
  d.writeField a (spqReg c.val 0xC) value (·.postIdx (spqReg c.val 0) (spqReg c.val 0xC) (spqReg c.val 0x10) value))
/-- SPT_HOST_IDX_WRITE. -/
def execSptHostIdxWrite (a : Acc) (r : Fin 4) (value : BitVec 32) (s : State) := s.onDev (fun d =>
  d.writeField a (sptReg r.val 0xC) value (·.postIdx (sptReg r.val 0) (sptReg r.val 0xC) (sptReg r.val 0x10) value))

end Sys2Proof.Machine
end

