-- ==== Sys2Proof/Machine/Jobs.lean ====
section
/-! DEFINITION. The host cipher jobs (R367 to R372). -/
namespace Sys2Proof.Machine

/-- The kinds of job. -/
inductive Job where
  | gcmEnc
  | gcmDec
  | ctrEnc
  | ctrDec
  | cmacGen
  | cmacVer
  deriving DecidableEq, Repr

/-- Whether a job generates its nonce, or takes it from PARAM; whether it reads a tag; the usage it needs. -/
def Job.generates : Job → Bool | .gcmEnc | .ctrEnc => true | _ => false
def Job.takesNonce : Job → Bool | .gcmDec | .ctrDec => true | _ => false
def Job.readsTag : Job → Bool | .gcmDec | .cmacVer => true | _ => false
def Job.usage : Job → Nat | .gcmEnc | .ctrEnc | .cmacGen => uEncrypt | _ => uDecrypt
/-- Whether the tag length and AAD length of a job are in range (R367). -/
def Job.lengthsOk (j : Job) (aad tagM1 : Nat) : Bool :=
  match j with
  | .gcmEnc | .gcmDec => 11 ≤ tagM1
  | .ctrEnc | .ctrDec => tagM1 = 0 && aad = 0
  | .cmacGen | .cmacVer => 3 ≤ tagM1 && aad = 0

/-- What a job writes to OUT_ADDR, or none where its tag does not verify. -/
def Job.output (j : Job) (key nonce aad text tag : List Byte) (tagLen : Nat) : Option (List Byte) :=
  match j with
  | .gcmEnc => let ct := gcmCrypt key nonce text; some (ct ++ (gcmTag key nonce aad ct).take tagLen)
  | .gcmDec => if (gcmTag key nonce aad text).take tagLen = tag then some (gcmCrypt key nonce text) else none
  | .ctrEnc | .ctrDec => some (aesCtr key (nonce ++ beBytes 4 1) text)
  | .cmacGen => some ((cmac key text).take tagLen)
  | .cmacVer => if (cmac key text).take tagLen = tag then some [] else none

/-- A job that has read its input whole ends: its output is written, or its tag has not verified (R370, R373). -/
def Dev.jobEnds (s : Dev) (d : CmdDesc) (out : Option (List Byte)) (n ra rb : Nat) : CmdRes :=
  match out with
  | some o => .done ((s.hostWrite d.host.val d.p16.toNat o).count (burlReg 0x10)) stOk ra rb
  | none => .done ((s.count (burlReg 0x14)).raiseRated 49 0x10 0x40 0xFF 0 msRaw (fun _ => n) (fun c => c)) stAuthFail ra rb

/-- The octets of input a job reads, and what it makes of what was read of them: none where it has read too few and writes nothing of
a part, or where its tag does not verify. -/
def Job.result (j : Job) (key nonce : List Byte) (mem : HostData) (aad text tagLen : Nat) : Option (List Byte) :=
  let need := aad + text + if j.readsTag then tagLen else 0
  let o := mem.octets
  if mem.err || o.length < need then
    (match j with
      | .gcmEnc => some (gcmCrypt key nonce ((o.drop aad).take text))
      | .ctrEnc | .ctrDec => some (aesCtr key (nonce ++ beBytes 4 1) (o.take text))
      | _ => none)
  else j.output key nonce (o.take aad) ((o.drop aad).take text) ((o.drop (aad + text)).take tagLen) tagLen

/-- A job that has begun under `key` and `nonce` ends (R370 to R372). A host access that fails, or the tamper line, ends it with what it has
written by then; one that runs on has not ended. -/
def Dev.jobOut (s : Dev) (d : CmdDesc) (mem : HostData) (e : JobEnd) (j : Job) (key nonce : List Byte) (ra rb : Nat) : CmdRes :=
  let text := fld d.p24 63 40
  let aad := fld d.p24 39 24
  let tagLen := fld d.p24 19 16 + 1
  let n := fld d.p24 9 0
  let short : Bool := mem.err || mem.octets.length < aad + text + if j.readsTag then tagLen else 0
  let out := j.result key nonce mem aad text tagLen
  let write (s : Dev) (m : Nat) : Dev := match out with | some o => s.hostWrite d.host.val d.p16.toNat (o.take m) | none => s
  match e with
  | .starts => .wait s
  | .tamper src m => .done (((write s m).count (burlReg 0x18)).tamper src.val) stTampered ra rb
  | .cut m =>
    if short || (out.isSome && j ≠ .cmacVer) then .done ((write s m).dmaFail d.host.val) stDmaErr ra rb
    else s.jobEnds d out n ra rb
  | .whole => if short then .done (s.dmaFail d.host.val) stDmaErr ra rb else s.jobEnds d out n ra rb

/-- Run a job (R368 to R372). The job copies its key as it begins (R379). -/
def Dev.job (s : Dev) (d : CmdDesc) (mem : HostData) (e : JobEnd) (j : Job) : CmdRes :=
  let text := fld d.p24 63 40
  let aad := fld d.p24 39 24
  let tagM1 := fld d.p24 19 16
  let n := fld d.p24 9 0
  if n > 575 || !j.lengthsOk aad tagM1 || (!j.takesNonce && (d.p32 ≠ 0 || d.p40 ≠ 0)) then .fail s stBadParam
  else if j = .gcmDec ∧ text > 65536 then .fail s stTooLong
  else if !s.mayUse n j.usage d.origin then .fail (s.refuseUse n) 0x40
  else if j.generates ∧ (s.slot n).invocation = 2 ^ 64 - 1 then .fail s stExhausted
  else
    let k := s.slot n
    let nonce := if j.generates then beBytes 4 k.nonceFixed.toNat ++ beBytes 8 k.invocation else beBytes 4 (fld d.p40 31 0) ++ beBytes 8 d.p32.toNat
    let s := if j.generates then s.setSlot n { k with invocation := k.invocation + 1 } else s
    let ra := if j.generates then k.nonceFixed.toNat else 0
    let rb := if j.generates then k.invocation else 0
    match e with
    | .starts =>
      let s := (s.beginUse .job n).setRb (burlReg 8) 0 true
      .wait { s with burl := { s.burl with job := some ⟨d, d.op, n, k.octets, nonce, ra, rb⟩ } }
    | _ => s.jobOut d mem e j k.octets nonce ra rb

/-- The job that runs ends, and its command completes. -/
def Dev.jobFinish (s : Dev) (r : JobRun) (mem : HostData) (e : JobEnd) (j : Job) : Dev :=
  let s := (({ s with burl := { s.burl with job := none } } : Dev).setRb (burlReg 8) 0 false).endUse .job
  match s.jobOut r.desc mem e j r.key r.nonce r.ra r.rb with
  | .done s st a b => s.completeLate r.desc r.op none st a b
  | .wait s => s

/-- A job command: it starts the job, or ends the one that it started before. -/
def Dev.jobCommand (s : Dev) (d : CmdDesc) (mem : HostData) (e : JobEnd) (op : Nat) (j : Job) : Dev :=
  match s.burl.job.filter (fun r => r.op = op && CmdDesc.sameWords r.desc d && e ≠ .starts) with
  | some r => s.jobFinish r mem e j
  | none => s.command d (isOne 0x40) (isOne 0xFF) op [all64, all64, 0xFFFFFFFFFF0F03FF, all64, 0xFFFFFFFF] none (·.job d mem e j)

/-- GCM_ENCRYPT. -/
def execGcmEncrypt (d : CmdDesc) (mem : HostData) (e : JobEnd) (s : State) := s.onDev (·.jobCommand d mem e 1 .gcmEnc)
/-- GCM_DECRYPT. -/
def execGcmDecrypt (d : CmdDesc) (mem : HostData) (e : JobEnd) (s : State) := s.onDev (·.jobCommand d mem e 2 .gcmDec)
/-- CTR_ENCRYPT. -/
def execCtrEncrypt (d : CmdDesc) (mem : HostData) (e : JobEnd) (s : State) := s.onDev (·.jobCommand d mem e 3 .ctrEnc)
/-- CTR_DECRYPT. -/
def execCtrDecrypt (d : CmdDesc) (mem : HostData) (e : JobEnd) (s : State) := s.onDev (·.jobCommand d mem e 4 .ctrDec)
/-- CMAC_GENERATE. -/
def execCmacGenerate (d : CmdDesc) (mem : HostData) (e : JobEnd) (s : State) := s.onDev (·.jobCommand d mem e 5 .cmacGen)
/-- CMAC_VERIFY. -/
def execCmacVerify (d : CmdDesc) (mem : HostData) (e : JobEnd) (s : State) := s.onDev (·.jobCommand d mem e 6 .cmacVer)

end Sys2Proof.Machine
end

