-- ==== Sys2Proof/Machine/Ras.lean ====
section
/-! DEFINITION. Error correction, scrubbing and spares: what RAS counts, what it retires, and what an uncorrectable error does
(R184, R185, R383, R522 to R526). -/
namespace Sys2Proof.Machine

/-! ## Units and kinds -/

/-- The spare unit of a kind that has one. -/
def spareOf : Nat → Nat | 1 => 8 | 3 => 6 | _ => 24

/-! ## Retirement (R525, R526) -/

/-- The register and bit that show whether a unit of kinds 1, 3 and 4 serves. -/
def serveBit (c u : Nat) : Nat × Nat :=
  if c = 0x40 then (if u < 7 then (burlReg 0, u) else (burlReg 0x4010, u - 16)) else (groveReg (c - 0x10) 0, u)

/-- The slots whose words a key bank holds (R383). -/
def Dev.bankSlots (s : Dev) (u : Nat) : Nat := if u = 24 then (match (s.rasUnit 0x40 24).other with | some v => v - 16 | none => 8) else u - 16

/-- A bank is lost with no spare: its slots become RETIRED. -/
def Dev.retireSlots (s : Dev) (bank : Nat) : Dev :=
  (List.range 64).foldl (fun (s : Dev) i =>
    s.hwSlot (64 * bank + i) { KeySlot.empty with state := 3, gen := (s.slot (64 * bank + i)).gen }) s

/-- A walk engine, pipe or key bank is retired: the spare takes its place, or none is left. -/
def Dev.retireUnit (s : Dev) (c u k : Nat) : Dev :=
  let x := s.rasUnit c u
  let sp := spareOf k
  let spare := s.rasUnit c sp
  let b := serveBit c u
  if x.retired || (u = sp && x.other.isNone) then s
  else if u ≠ sp && spare.other.isNone && !spare.retired then
    let s := s.swapUnits c u sp
    ((s.setRb b.1 b.2 false).setRb (serveBit c sp).1 (serveBit c sp).2 true).spareEvent 1 c sp u
  else
    let s := ((s.dropUnit c u).setRb b.1 b.2 false).spareEvent 3 c u u
    if k = 4 then s.retireSlots (s.bankSlots u) else s

/-- A Trunk bank goes with no spare (R184): CELL_CAP falls by 4,096, no frame takes cells in it, and it leaves the free list when its
frames have left. -/
def Dev.bankLost (s : Dev) (x : Retire) : Dev :=
  let s := s.setRf (trunkReg 8) 16 0 (s.rf (trunkReg 8) 16 0 - 4096)
  (({ s with trunk := { s.trunk with leaving := s.trunk.leaving ++ [x], lost := s.trunk.lost ++ [x.place] } } : Dev).banksGo.pressure).spareEvent
    3 0x20 0 0

/-- Whether a Trunk bank serves: banks 16 and 17 are the spares, taken in order. -/
def Dev.bankServes (s : Dev) (b : Nat) : Bool :=
  !s.ras.banksOut.testBit b && (b < 16 || b - 16 < 2 - s.trunk.spareBanks - s.trunk.retiring.countP (·.spare))

/-- The place of a bank among the 16 in service: its own number, or that of the bank a spare replaced. -/
def Dev.bankPlace (s : Dev) (b : Nat) : Nat := if b < 16 then b else (s.trunk.spareAt.get none b).getD 0

/-- Whether frames can hold cells in a bank: it serves, its copy runs or waits, or it was lost and its frames have not all left (R184). -/
def Dev.bankHolds (s : Dev) (b : Nat) : Bool := s.bankServes b || (s.trunk.retiring ++ s.trunk.leaving).any (fun x => x.bank = b)

/-- A Trunk bank retires, behind the banks that are being copied (R526). -/
def Dev.retireBank (s : Dev) (b : Nat) : Dev :=
  if !s.bankServes b then s
  else
    let s := { s with ras := { s.ras with banksOut := s.ras.banksOut + 2 ^ b } }
    let t := s.trunk
    let x : Retire := ⟨decide (t.spareBanks > 0), s.bankPlace b, b⟩
    if x.spare then { s with trunk := { t with spareBanks := t.spareBanks - 1, retiring := t.retiring ++ [x] } }
    else if t.retiring.isEmpty then s.bankLost x
    else { s with trunk := { t with retiring := t.retiring ++ [x] } }

/-- Retirements that wait with no spare left apply once no copy runs before them. -/
def Dev.bankNext (s : Dev) : List Retire → Dev
  | x :: r => if x.spare then { s with trunk := { s.trunk with retiring := x :: r } } else (s.bankLost x).bankNext r
  | [] => { s with trunk := { s.trunk with retiring := [] } }

/-- A retiring bank's copy ends and the spare takes its place. -/
def Dev.bankCopied (s : Dev) : Dev :=
  match s.trunk.retiring with
  | x :: r =>
    let t := s.trunk
    let b := 16 + (2 - t.spareBanks - t.retiring.countP (·.spare))
    (({ s with trunk := { t with spareAt := t.spareAt.put none b (some x.place) } } : Dev).spareEvent 1 0x20 0 0).bankNext r
  | [] => s

/-- BANK_RETIRE_COPY_DONE. -/
def execBankRetireCopyDone (s : State) := s.onDev (·.bankCopied)

/-! ## Errors -/

/-- The unit a part belongs to; 0xFF for memory without a unit. -/
def EccPart.unitOf : EccPart → Nat × Nat
  | .trunkBank _ => (0x20, 0)
  | .walkEngine g e => (0x10 + g.val, e.val)
  | .boughRow g _ => (0x10 + g.val, 0xFF)
  | .cipherPipe p => (0x40, p.val)
  | .keyBank b _ => (0x40, 16 + b.val)
  | .canopySram => (0x60, 0xFF)
  | .checkpointBuffer k => (0x60, k.val)
  | .retentionSram => (0x61, 0xFF)
  | .connCache .. => (0x30, 1)
  | .other c u => (c.toNat, u.toNat)

/-- Whether the part exists on the variant and in the mode (R12): no event names a Canopy pair in split mode (R595). -/
def Dev.hasPart (s : Dev) (x : EccPart) : Bool :=
  match x with
  | .checkpointBuffer _ => !s.split
  | _ => unitPresent s.variant s.split (EccPart.unitOf x).1 (EccPart.unitOf x).2

/-- A unit of kinds 1, 3 and 4 whose window count has reached RETIRE. -/
def Dev.retireIfDue (s : Dev) (c u k : Nat) : Dev := if (s.rasUnit c u).win ≥ s.retireAt k then s.retireUnit c u k else s

/-- A corrected error of a part (R522, R524, R525). -/
def Dev.corrected (s : Dev) (x : EccPart) : Dev :=
  let cu := EccPart.unitOf x
  if !s.hasPart x then s
  else match x with
    | .trunkBank b =>
      let n := s.ras.banks.get 0 b.val + 1
      let s := ({ s with ras := { s.ras with banks := s.ras.banks.put 0 b.val n } } : Dev).countCe cu.1 cu.2
      if n ≥ s.retireAt 0 then s.retireBank b.val else s
    | .boughRow g row =>
      (s.count (groveReg g.val 0x108)).countRow g.val (boughRowKey g.val row.val)
    | .walkEngine .. => (s.countCe cu.1 cu.2).retireIfDue cu.1 cu.2 1
    | .cipherPipe _ => (s.countCe cu.1 cu.2).retireIfDue cu.1 cu.2 3
    | .keyBank .. => (s.countCe cu.1 cu.2).retireIfDue cu.1 cu.2 4
    | _ => s.countCe cu.1 cu.2

/-- Whether control state is held at a cluster and unit (R522): the connection cache and table are not. -/
def controlState (c u : Nat) : Bool := ((0x10 ≤ c && c < 0x14) || [0x20, 0x21, 0x22, 0x30, 0x31, 0x60].contains c) && !(c = 0x30 && (u = 1 || u = 2))

/-- An uncorrectable error in control state (R522, R524). -/
def Dev.controlError (s : Dev) (c u : Nat) : Dev :=
  if !(controlState c u && unitPresent s.variant s.split c u) then s
  else ((s.countUe c u).eccTrend 3 c u).enterSafe 1 c u

/-- A Bough word read with an uncorrectable error (R125, R525): counted, rewritten from a sound copy, its row of 64 words retired. -/
def Dev.boughError (s : Dev) (g row : Nat) : Dev :=
  (((s.count (groveReg g 0x10C)).countUe (0x10 + g) 0xFF).eccTrend 2 (0x10 + g) 0xFF).retireRow g (boughRowKey g row)

/-- An uncorrectable error a scrub pass meets (R522): Trunk cell data is not scrubbed; a pipe fails its known-answer test. -/
def Dev.uncorrected (s : Dev) (x : EccPart) : Dev :=
  let cu := EccPart.unitOf x
  if !s.hasPart x then s
  else match x with
    | .trunkBank _ => s
    | .walkEngine .. => s.corrected x
    | .boughRow g row => s.boughError g.val row.val
    | .cipherPipe _ => (s.countUe cu.1 cu.2).retireUnit cu.1 cu.2 3
    | .keyBank _ pos =>
      let n := 64 * s.bankSlots cu.2 + pos.val
      (((s.countUe cu.1 cu.2).eccTrend 2 cu.1 cu.2).slotError n).retireUnit cu.1 cu.2 4
    | .checkpointBuffer k => ((s.setRb (pairReg k.val 0) 0 false).countUe cu.1 cu.2).eccTrend 2 cu.1 cu.2
    | .retentionSram => (s.countUe cu.1 cu.2).eccTrend 2 cu.1 cu.2
    | .connCache b i => s.cacheError b.val i.val
    | .canopySram => s.controlError cu.1 cu.2
    | .other c u => s.controlError c.toNat u.toNat

/-- PARSER_START (R33). `ue`: the Bough words that the copy of the port's Grove holds in uncorrectable error; `bad`: the slots of its
replica of the forwarding database in parity error; `lost`: the slots of the frame's bucket whose cache entries are in uncorrectable error
(R307). Those that the frame's walk and lookups do not read stay unnoticed. -/
def execParserStart (p : Fin 40) (ue : List (BitVec 20)) (bad : List (Fin 131136)) (lost : List (Fin 8)) (s : State) :=
  s.onDev (fun x =>
    let x := if p.val = 39 then x.offerRoots else x
    let r := x.parserRun p.val (ue.map (·.toNat)) (bad.map (·.val)) (lost.map (·.val))
    match r.2 with
    | some w => r.1.boughError (x.owner p.val) (w / 64)
    | none => r.1)

/-- CORRECTED_ERROR. -/
def execCorrectedError (part : EccPart) (s : State) := s.onDev (·.corrected part)

/-- UNCORRECTABLE_CONTROL_ERROR. -/
def execUncorrectableControlError (cluster unit : BitVec 8) (s : State) := s.onDev (·.controlError cluster.toNat unit.toNat)

/-- SCRUB_PERIOD in raw time. -/
def Dev.scrubPeriod (s : Dev) : Nat := s.rf (rasReg 0x20) 11 0 * 1000 * msRaw

/-- A scrub pass (R523), one in every SCRUB_PERIOD of raw time: what it meets, in order; it leaves Trunk cell data out. -/
def Dev.scrub (s : Dev) (found : List ScrubFind) : Dev :=
  if s.ras.scrubAt.any (fun t => s.now / s.scrubPeriod ≤ t / s.scrubPeriod) then s
  else found.foldl (fun (d : Dev) (f : ScrubFind) =>
    match f.part with
    | .trunkBank _ => d
    | p => if f.uncorrectable then d.uncorrected p else d.corrected p) { s with ras := { s.ras with scrubAt := some s.now } }

/-- SCRUB_PASS. -/
def execScrubPass (found : List ScrubFind) (s : State) := s.onDev (·.scrub found)

/-- The number of the window raw time is in. -/
def Dev.windowNow (s : Dev) : Nat := s.now / (s.rf (rasReg 0x24) 15 0 * 1000 * msRaw)

/-- RAS_WINDOW_END: the counts of a window that has ended start again. -/
def execRasWindowEnd (s : State) := s.onDev (fun d =>
  if d.windowNow = d.ras.window then d
  else { d with ras := { d.ras with
    units := d.ras.units.filterMap (fun (e : Nat × RasUnit) =>
      let x := { e.2 with win := 0, warned := false }
      if x = .idle then none else some (e.1, x))
    banks := [], rows := [], window := d.windowNow } })

/-! ## Uncorrectable errors in cell data (R185, R522, R525) -/

/-- An uncorrectable error in cell data counts against the Trunk, raises ECC_TREND cause 2, and retires the bank. -/
def Dev.cellError (s : Dev) (b : Nat) : Dev := ((s.countUe 0x20 0).eccTrend 2 0x20 0).retireBank b

/-- A word of a chosen frame read in error: its transmission ends with the ones' complement of its FCS, and is counted. -/
def Dev.spoil (s : Dev) (p b : Nat) (x : TxRun) : Dev :=
  (({ s with crown := { s.crown with tx := s.crown.tx.put none p (some { x with badFcs := true }) } } : Dev).count (trunkReg 0x48)).cellError b

/-- A frame for a host read in error leaves with no FCS: it is dropped, as R185's receivers drop it (DESIGN CHOICE, log entry 68). -/
def Dev.dropSpoiled (s : Dev) (p : Nat) : Dev :=
  match s.crown.tx.get none p with
  | some x => if 36 ≤ p && x.badFcs then (({ s with crown := { s.crown with tx := s.crown.tx.put none p none } } : Dev).release x.frame).noteEligible p
      else s
  | none => s

/-- CROWN_SELECT, with the bank of a word of the frame now chosen that is read with an uncorrectable error (R185). -/
def execCrownSelect (p : Fin 38) (ue : Option (Fin 18)) (s : State) := s.onSettling (fun d =>
  let x := d.crownSelect p.val
  (match ue, x.crown.tx.get none p.val with
    | some b, some r => if d.crown.tx.get none p.val = some r || !x.bankHolds b.val then x else x.spoil p.val b.val r
    | _, _ => x).dropSpoiled p.val)

/-- SPILL_COMPLETE, with the bank of a word of the frame that was read with an uncorrectable error. -/
def execSpillComplete (q : Fin 352) (ue : Option (Fin 18)) (s : State) := s.onDev (fun d =>
  match ue with
  | some b => if (d.tq q.val).descs.any (fun e => e.loc = .spilling) && d.bankHolds b.val then (d.spillComplete q.val true).cellError b.val
      else d.spillComplete q.val
  | none => d.spillComplete q.val)

/-- A frame for P38 or P39 read in error is dropped as a host's is, and counted in CELL_UE_TX (DESIGN CHOICE, log entry 68). -/
def Dev.dropRead (s : Dev) (id b : Nat) : Dev := ((s.giveDesc.release id).count (trunkReg 0x48)).cellError b

/-- SPQ_DELIVER, with the bank of a word of the frame that is read with an uncorrectable error. -/
def execSpqDeliver (c : Fin 16) (bufs : List RxBuf) (fail : Bool) (ue : Option (Fin 18)) (s : State) := s.onDev (fun d =>
  match ue, d.slowHeld c.val with
  | some b, id :: rest =>
    if d.spqServes c.val && !fail && d.bankHolds b.val then ({ d with slowq := d.slowq.put [] c.val rest } : Dev).dropRead id b.val
    else d.spqDeliver c.val bufs fail
  | _, _ => d.spqDeliver c.val bufs fail)

/-- DECAP_FRAME, with the bank of a word of the frame that is read with an uncorrectable error. -/
def execDecapFrame (ue : Option (Fin 18)) (s : State) := s.onDev (fun d =>
  match ue, d.decap with
  | some b, id :: rest => if d.bankHolds b.val then ({ d with decap := rest } : Dev).dropRead id b.val else d.decapNext
  | _, _ => d.decapNext)

end Sys2Proof.Machine
end

