-- ==== Sys2Proof/Machine/Redundancy.lean ====
section
/-! DEFINITION. The ACTIVE and STANDBY pair, its heartbeats and proof test (R527 to R532), the origin access matrix (R534, R535) and
the change-log commands (R540). -/
namespace Sys2Proof.Machine

/-! ## Role and heartbeat -/

/-- RED_CTL.EN, HB_PORT and the role. -/
def Dev.redOn (s : Dev) : Bool := s.rb (rasReg 0x200) 31
def Dev.hbPort (s : Dev) : Nat := s.rf (rasReg 0x200) 21 16
def Dev.active (s : Dev) : Bool := s.rb (rasReg 0x204) 31

/-- Every transmitter follows what holds it quiet. -/
def Dev.quietPorts (s : Dev) : Dev := ((List.range 36).filter (portPresent s.variant)).foldl (fun (s : Dev) n => s.quietBit n) s

/-- The role changes (R527). -/
def Dev.setRole (s : Dev) (on : Bool) : Dev := ((s.setRb (rasReg 0x204) 31 on).quietPorts).redCan s

/-- DOM_CTL.GM of each domain in RED_GM; a set GM stops the sync receipt timer (R263). -/
def Dev.setGm (s : Dev) (on : Bool) : Dev :=
  [0, 1].foldl (fun (s : Dev) d =>
    if !s.rb (rasReg 0x214) d then s
    else
      let s := s.setRb (domReg d 0) 30 on
      if on then s.syncTimer d false else s) s

/-- ROLE_SET: a write of RED_CTL with ROLE_SET 1. -/
def execRoleSet (a : Acc) (active : Bool) (s : State) := s.onDev (fun d =>
  d.writeField a (rasReg 0x200) (setBit (setBit (d.reg (rasReg 0x200)) 30 true) 29 active) (fun x => (x.setRb (rasReg 0x200) 29 active).setRole active))

/-- The heartbeat frame (R528), without its FCS. -/
def Dev.heartbeat (s : Dev) : List Byte :=
  let mac (a : Nat) : List Byte := beBytes 2 (s.rf (rasReg (a + 4)) 15 0) ++ beBytes 4 (s.reg (rasReg a)).toNat
  mac 0x220 ++ mac 0x228 ++ beBytes 2 0x88B5 ++ ascii "TLHB" ++ [BitVec.ofNat 8 s.active.toNat, BitVec.ofNat 8 (s.rf (rasReg 0x218) 7 0)]
    ++ uidBytes ++ beBytes 4 s.ras.seq.toNat ++ zeros 28

/-- A heartbeat is sent, a millisecond or more after the last (R528): both edges of HB_OUT of the millisecond, and the frame where its port is up,
protected like every frame of a TX_EN port (R362). -/
def Dev.sendHeartbeat (s : Dev) : Dev :=
  if !s.redOn || s.safe || s.ras.beatAt.any (fun t => s.now < t + msRaw) then s
  else
    let s := { s with ras := { s.ras with beatAt := some s.now } }
    let s := (s.pin "HB_OUT" 1).pin "HB_OUT" 0
    let p := s.hbPort
    if !portPresent s.variant p || !s.portPowered p || !s.portUp p then s
    else
      let f := s.heartbeat
      let sent (s : Dev) (f : List Byte) : Dev :=
        let s := { s with ras := { s.ras with seq := s.ras.seq + 1 }, out := .frame p f true s.now :: s.out }
        (s.count64 (portReg p 0x110) 1).count64 (portReg p 0x118) (f.length + 4)
      match s.secTx p 40 (txUse p s.trunk.nextId) f with
      | (.plain, s) => sent s f
      | (.secured o, s) => (sent s o).endUse (txUse p s.trunk.nextId)
      | (.drop, s) => s.count (macsecReg p 0x34)

/-- HEARTBEAT_SEND. -/
def execHeartbeatSend (s : State) := s.onDev (·.sendHeartbeat)

/-- A path returns: 0 the pin, 1 the frame (R529). -/
def Dev.pathUp (s : Dev) (path : Nat) : Dev :=
  if s.rb (rasReg 0x204) path then s else (s.setRb (rasReg 0x204) path true).safeEvent 0x21 path

/-- An ACTIVE device meets an ACTIVE partner (R531). -/
def Dev.meetPartner (s : Dev) (f : List Byte) : Dev :=
  let prio := beAt f 19 1
  let uid := beAt f 20 8
  let mine := s.rf (rasReg 0x218) 7 0
  if s.active && beAt f 18 1 = 1 && (prio > mine || (prio = mine && uid < Config.deviceUid.toNat)) then
    (((s.setRole false).setGm false).safeEvent 0x23 0).logHw kHardware 0x70 0
  else s

/-- HEARTBEAT_FRAME_RX. -/
def execHeartbeatFrameRx (octets : List (BitVec 8)) (s : State) := s.onDev (fun d =>
  if !d.redOn || beAt octets 12 2 ≠ 0x88B5 || (octets.drop 14).take 4 ≠ ascii "TLHB" then d
  else (({ d with ras := { d.ras with frameAt := d.now } } : Dev).pathUp 1).meetPartner octets)

/-- HB_IN_EDGE. -/
def execHbInEdge (s : State) := s.onDev (fun d =>
  if !d.redOn then d else ({ d with ras := { d.ras with edgeAt := d.now } } : Dev).pathUp 0)

/-- HB_PATH_SILENT: 2 ms have passed. -/
def execHbPathSilent (framePath : Bool) (s : State) := s.onDev (fun d =>
  let k := framePath.toNat
  if !d.redOn || !d.rb (rasReg 0x204) k || d.now < (if framePath then d.ras.frameAt else d.ras.edgeAt) + 2 * msRaw then d
  else (d.setRb (rasReg 0x204) k false).safeEvent 0x20 k)

/-! ## The proof test (R532) -/

/-- The frames RAS injects for a port, 16 of each length, where the port is protected: their packet numbers and counts. What they hold is not
stated; of zeros, which no UNCTRL names (DESIGN CHOICE, log entry 50). -/
def Dev.proofFrames (s : Dev) (p : Nat) : Dev :=
  [64, 1518, 9000].foldl (fun (s : Dev) l => (List.range 16).foldl (fun (s : Dev) _ =>
    let sent (s : Dev) (n : Nat) : Dev := (s.count64 (portReg p 0x110) 1).count64 (portReg p 0x118) n
    match s.secTx p 38 (txUse p s.trunk.nextId) (zeros (l - 4)) with
    | (.plain, s) => sent s l
    | (.secured o, s) => (sent s (o.length + 4)).endUse (txUse p s.trunk.nextId)
    | (.drop, s) => s.count (macsecReg p 0x34)) s) s

/-- The test ends: no port is in loopback, and its command completes with the ports that failed. -/
def Dev.proofEnds (s : Dev) (st : Nat) : Dev :=
  match s.ras.proof with
  | none => s
  | some r =>
    let s := ({ s with ras := { s.ras with proof := none } } : Dev).setRb (rasReg 0x204) 8 false
    (s.quietPorts).completeLate r.desc 1 none st (r.failed % 2 ^ 32) (r.failed / 2 ^ 32)

/-- The port in loopback has been tested; after the last the test ends. -/
def Dev.proofNext (s : Dev) (failed : Bool) : Dev :=
  match s.ras.proof with
  | some r => (match r.left with
    | p :: rest =>
      let s := s.proofFrames p
      let s := ({ s with ras := { s.ras with proof := some ⟨r.desc, rest, if failed then r.failed + 2 ^ p else r.failed⟩ } } : Dev).quietPorts
      if rest.isEmpty then s.proofEnds stOk else s
    | [] => s.proofEnds stOk)
  | none => s

/-- PROOF_TEST's own part: its start. A test with no port to test is over at once. -/
def Dev.proofTest (s : Dev) (d : CmdDesc) : CmdRes :=
  let mask := fld d.p8 35 0 &&& presentPorts s.variant
  if !s.redOn || s.active then .fail s stWrongMode
  else if mask = 0 then .done s stOk 0 0
  else .wait ((({ s with ras := { s.ras with proof := some ⟨d, bitsOf 36 mask, 0⟩ } } : Dev).setRb (rasReg 0x204) 8 true).quietPorts)

/-- PROOF_TEST. -/
def execProofTest (d : CmdDesc) (x : ProofStep) (s : State) := s.onDev (fun y =>
  match x with
  | .port failed => if (y.ras.proof.filter (fun r => CmdDesc.sameWords r.desc d)).isSome then y.proofNext failed else y
  | .starts => y.command d (isOne 0x70) (isOne 0) 1 [0xFFFFFFFFF, 0, 0, 0, 0] none (·.proofTest d))

/-- The partner has failed (R529, R530): a STANDBY device takes over, and a proof test that runs is interrupted first (R532). -/
def Dev.takeOver (s : Dev) : Dev :=
  if !s.redOn || s.active || s.rb (rasReg 0x204) 0 || s.rb (rasReg 0x204) 1
      || s.now < max s.ras.edgeAt s.ras.frameAt + s.rf (rasReg 0x200) 15 0 * usRaw then s
  else ((((s.proofEnds 0x41).setRole true).setGm true).safeEvent 0x22 0).logHw kHardware 0x70 0

/-- PARTNER_FAILED. -/
def execPartnerFailed (s : State) := s.onDev (·.takeOver)

/-! ## The origin access matrix -/

/-- The register of the matrix. -/
def matrixReg (which : MatrixReg) (o : Nat) : Nat := rasReg (0x1000 + 0x10 * o + match which with | .wr => 0 | .rd => 4 | .cmd => 8)

/-- Whether a write of the matrix is made in its own right (R535). -/
def matrixWriter (a : Acc) : Bool := a.origin.val = 0 || (3 ≤ a.origin.val && a.origin.val ≤ 6 && a.steward)

/-- A write of the matrix. One that R535 refuses counts in MATRIX_DENIED; where R534 forbids it too, its one DENIED entry is also that
of R534. -/
def Dev.matrixWrite (s : Dev) (a : Acc) (addr : Nat) (value : Word) : Dev :=
  let old := leBytes 4 (s.reg addr).toNat
  let new := leBytes 4 value.toNat
  if !reaches a.origin 17 then s
  else if !matrixWriter a then
    let s := s.count (rasReg 0x1400)
    if s.permitted 0 a.origin 17 then s.log a.origin kDenied 0x70 0 0 addr old new else s.denied a.origin 0x70 0 0 addr old new
  else if !s.permitted 0 a.origin 17 then s.denied a.origin 0x70 0 0 addr old new
  else (s.log a.origin kProtection 0x70 0 0 addr old new).setReg addr (value &&& 0x1FFFFF)

/-- MATRIX_WRITE. -/
def execMatrixWrite (a : Acc) (which : MatrixReg) (o : Fin 16) (value : BitVec 32) (s : State) :=
  s.onDev (·.matrixWrite a (matrixReg which o.val) value)

/-! ## The change-log commands -/

/-- The 64 octets of an entry. -/
def AuditEntry.octets (e : AuditEntry) : List Byte := e.body ++ leBytes 8 (e.mac.toNat / 2 ^ 64) ++ leBytes 8 (e.mac.toNat % 2 ^ 64)

/-- The SEQ of the oldest entry held. -/
def Audit.oldest (x : Audit) : Word := x.next - BitVec.ofNat 32 x.entries.length

/-- AUDIT_DUMP's own part. -/
def Dev.auditDump (s : Dev) (d : CmdDesc) (err : Bool) : CmdRes :=
  let n := fld d.p24 14 0
  let k := (BitVec.ofNat 32 (fld d.p16 31 0) - s.audit.oldest).toNat
  if n = 0 ∨ n > 16384 then .fail s stBadParam
  else if k ≥ s.audit.entries.length then .fail s stNotFound
  else if err then .fail (s.dmaFail d.host.val) stDmaErr
  else
    let l := (s.audit.entries.reverse.drop k).take n
    .done (s.hostWrite d.host.val d.p8.toNat (l.flatMap AuditEntry.octets)) stOk l.length 0

/-- AUDIT_SEAL's structure: the first 128 octets of ATTEST's layout. -/
def Dev.sealHead (s : Dev) (d : CmdDesc) : List Byte :=
  s.attestHead "TLTRAUD1" ++ d.octets.drop 8 ++ leBytes 4 (s.audit.next - 1).toNat ++ leBytes 16 s.audit.lastMac.toNat
    ++ leBytes 16 s.audit.chainStart.toNat ++ zeros 28

/-- The SEQ of the first of `n` entries whose MAC does not follow from the one before it. -/
def badEntry (key : List Byte) (o : List Byte) : Nat → BitVec 128 → Option Nat
  | 0, _ => none
  | n + 1, prev =>
    let mac := BitVec.ofNat 128 (leNat ((o.drop 48).take 8) * 2 ^ 64 + leNat ((o.drop 56).take 8))
    if BitVec.ofNat 128 (beNat (cmac key (o.take 48 ++ beBytes 16 prev.toNat))) = mac then badEntry key (o.drop 64) n mac
    else some (leNat ((o.drop 4).take 4))

/-- AUDIT_VERIFY's own part. -/
def Dev.auditVerify (s : Dev) (d : CmdDesc) (mem : HostData) : CmdRes :=
  let n := fld d.p16 14 0
  match s.auditKey with
  | none => .fail s 0x40
  | some key =>
    if mem.err ∨ mem.octets.length < 64 * n then .fail (s.dmaFail d.host.val) stDmaErr
    else match badEntry key mem.octets n (BitVec.ofNat 128 (d.p24.toNat * 2 ^ 64 + d.p32.toNat)) with
      | none => .done s stOk 0 0
      | some seq => .done s stAuthFail seq 0

/-- A command of the Audit unit. -/
def Dev.auditCommand (s : Dev) (d : CmdDesc) (op : Nat) (mask : List Nat) (body : Dev → CmdRes) : Dev :=
  s.command d (isOne 0x71) (isOne 0) op mask none body

/-- AUDIT_DUMP. -/
def execAuditDump (d : CmdDesc) (err : Bool) (s : State) := s.onDev (fun x => x.auditCommand d 1 [all64, 0xFFFFFFFF, 0x7FFF, 0, 0] (·.auditDump d err))
/-- AUDIT_SEAL. -/
def execAuditSeal (d : CmdDesc) (err : Bool) (s : State) := s.onDev (fun x =>
  x.auditCommand d 2 [all64, all64, all64, all64, all64] (fun y => y.signTo d err (y.sealHead d)))
/-- AUDIT_VERIFY. -/
def execAuditVerify (d : CmdDesc) (mem : HostData) (s : State) := s.onDev (fun x =>
  x.auditCommand d 3 [all64, 0x7FFF, all64, all64, 0] (·.auditVerify d mem))

end Sys2Proof.Machine
end

