-- ==== Sys2Proof/Machine/Update.lean ====
section
/-! DEFINITION. Images, their checks, activations and the journal (R542 to R565). -/
namespace Sys2Proof.Machine

/-! ## Flash and images (R543 to R546) -/

/-- Update the Update cluster's state. -/
def Dev.onUpd (s : Dev) (f : Upd → Upd) : Dev := { s with upd := f s.upd }

/-- The first block of a slot, as `Upd.flash` numbers blocks. -/
def slotBase (kind slot : Nat) : Nat := (2 * kind + slot) * 2 ^ 20

/-- A block: what was written there, or what the flash was delivered with. -/
def Dev.block (s : Dev) (n : Nat) : List Byte := (s.upd.flash.get none n).getD (Config.flashBlock n)

/-- The block check (R544). -/
def blockOk (b : List Byte) : Bool := b.length = 4096 && crc32c (b.take 4092) = leNat (b.drop 4092)

/-- Fields of a header block (R545). -/
def hdrKind (h : List Byte) : Nat := msgNat h 8 1
def hdrSvn (h : List Byte) : Nat := msgNat h 11 1
def hdrBlocks (h : List Byte) : Nat := msgNat h 12 2
def hdrVersion (h : List Byte) : Nat := msgNat h 20 4

/-- One-by-one kinds (R542). -/
def partKind (k : Nat) : Bool := 0x10 ≤ k && k ≤ 0x13
def writableKind (k : Nat) : Bool := k = 0 || partKind k

/-- The body blocks of an image whose header is block `base`. -/
def Dev.body (s : Dev) (base : Nat) : List (List Byte) := (List.range (hdrBlocks (s.block base))).map (fun i => s.block (base + 1 + i))

/-! ## The checks of an image (R547) -/

/-- The code of the first check that fails, or 0. The image lies at block `base` with `limit` blocks for it. -/
def Dev.imgCheck (s : Dev) (kind base limit : Nat) : Nat :=
  let h := s.block base
  let n := hdrBlocks h
  let sig := s.block (base + 1 + n)
  let body := s.body base
  let keyset := msgNat h 17 1
  let unitOk : Bool := !(msgNat h 9 1).testBit 0 || (h.drop 24).take 8 = leBytes 8 Config.deviceUid.toNat
  if h.take 8 ≠ ascii "TLTRIMG1" || hdrKind h ≠ kind || n = 0 || n + 2 > limit then stBadParam
  else if !(blockOk h && body.all blockOk && blockOk sig) then 0x40
  else if sha512 (body.flatMap (fun (b : List Byte) => b.take 4092)) ≠ (h.drop 128).take 64 then stAuthFail
  else if (keyset = 0 && s.upd.keyset0Revoked) || !vendorSigned h sig then stAuthFail
  else if msgNat h 14 2 ≠ 0x72 || msgNat h 16 1 > s.rf 0 7 4 || !(msgNat h 10 1).testBit s.lifeCycle || s.lifeCycle > 3 || !unitOk then stIncompatible
  else if (kind = 1 && hdrSvn h < s.upd.svnFs) || (kind = 2 && hdrSvn h < s.upd.svnBurl) then 0x43
  else 0

/-! ## The directory (R543) -/

/-- A copy that may be used. -/
def DirCopy.usable (d : DirCopy) : Bool := d.sound && d.magic

/-- Whether DIR_SEQ `a` is the later, by serial-number arithmetic (RFC 1982). -/
def seqLater (a b : Word) : Bool := let d := (a - b).toNat; 0 < d && d < 2 ^ 31

/-- The copy in force: 0 or 1. -/
def Upd.dirNow (u : Upd) : Option Nat :=
  match u.dirs.1.usable, u.dirs.2.usable with
  | true, true => some (if seqLater u.dirs.2.seq u.dirs.1.seq then 1 else 0)
  | true, false => some 0
  | false, true => some 1
  | false, false => none

/-- A copy of the directory. -/
def Upd.dir (u : Upd) (n : Nat) : DirCopy := if n = 0 then u.dirs.1 else u.dirs.2

/-- The active slot of a one-by-one kind changes: the directory is written into the other copy with DIR_SEQ + 1, and read back. -/
def Dev.switchSlot (s : Dev) (kind slot : Nat) : Dev :=
  let s := s.setRf (updReg 0x10) (kind - 0x10) (kind - 0x10) slot
  let n := s.upd.dirNow.getD 0
  let d : DirCopy := ⟨true, true, (s.upd.dir n).seq + 1, BitVec.ofNat 4 (s.rf (updReg 0x10) 3 0)⟩
  s.onUpd (fun u => { u with dirs := if n = 0 then (u.dirs.1, d) else (d, u.dirs.2) })

/-! ## Manifests (R558) -/

/-- An entry of a manifest: kind, first block, blocks and digest. -/
structure Member where
  kind : Nat
  first : Nat
  blocks : Nat
  digest : List Byte

/-- The octets of a body, and a manifest's entries. -/
def Dev.bodyOctets (s : Dev) (base : Nat) : List Byte := (s.body base).flatMap (fun (b : List Byte) => b.take 4092)
def membersOf (o : List Byte) : List Member :=
  (List.range (min (msgNat o 0 4) (o.length / 80))).map (fun i =>
    let e := (o.drop (4 + 80 * i)).take 80
    ⟨msgNat e 0 1, msgNat e 4 4, msgNat e 8 4, e.drop 16⟩)

/-- Whether a manifest lists what R558 asks for, within its slot. -/
def membersOk (v : Variant) (o : List Byte) : Bool :=
  let l := membersOf o
  let n (k : Nat) : Nat := l.countP (fun m => m.kind = k)
  4 + 80 * msgNat o 0 4 ≤ o.length && n 1 = 1 && n 2 = 1 && n 4 = 1 && n 3 ≤ (heartPresent v).toNat
    && l.all (fun m => [1, 2, 3, 4].contains m.kind && m.first + m.blocks ≤ Config.slotBlocks 0)

/-- The first failure of a manifest slot: the kind of the image that fails, and the code. -/
def Dev.manifestFault (s : Dev) (slot : Nat) : Option (Nat × Nat) :=
  let base := slotBase 0 slot
  let c := s.imgCheck 0 base (Config.slotBlocks 0)
  if c ≠ 0 then some (0, c)
  else
    let o := s.bodyOctets base
    if !membersOk s.variant o then some (0, stBadParam)
    else
      let l := membersOf o
      match (l.map (fun m => (m.kind, s.imgCheck m.kind (base + m.first) m.blocks))).find? (fun e => e.2 ≠ 0) with
      | some e => some e
      | none => if l.all (fun m => sha512 (s.block (base + m.first)) = m.digest) then none else some (0, stBadParam)

/-- The check of a manifest slot: its first failure's code or 0. -/
def Dev.manifestCheck (s : Dev) (slot : Nat) : Nat := (s.manifestFault slot).elim 0 (·.2)

/-- The check of a slot of a one-by-one kind. -/
def Dev.slotCheck (s : Dev) (kind slot : Nat) : Nat := s.imgCheck kind (slotBase kind slot) (Config.slotBlocks kind)

/-- The header blocks of a manifest slot: the manifest and its members. -/
def Dev.manifestHeaders (s : Dev) (slot : Nat) : List (Nat × List Byte) :=
  let base := slotBase 0 slot
  (0, s.block base) :: (membersOf (s.bodyOctets base)).map (fun m => (m.kind, s.block (base + m.first)))

/-! ## Interfaces (R555) -/

/-- The set of images that would run: the running ones with these in their place. -/
def Dev.runSet (s : Dev) (l : List (Nat × List Byte)) : Store (List Byte) := l.foldl (fun st e => st.put [] e.1 e.2) s.upd.running

/-- The first unmet ACCEPTS entry of a set: kind and interface. -/
def unmet (st : Store (List Byte)) : Option (Nat × Nat) :=
  let provides (i lo hi : Nat) : Bool := st.any (fun (e : Nat × List Byte) => (List.range 4).any (fun k =>
    msgNat e.2 (32 + 4 * k) 2 = i && lo ≤ msgNat e.2 (34 + 4 * k) 2 && msgNat e.2 (34 + 4 * k) 2 ≤ hi))
  st.findSome? (fun (e : Nat × List Byte) => (List.range 8).findSome? (fun k =>
    let at_ := 48 + 8 * k
    let i := msgNat e.2 at_ 2
    if i ≠ 0 && !provides i (msgNat e.2 (at_ + 2) 2) (msgNat e.2 (at_ + 4) 2) then some (e.1, i) else none))

/-! ## What runs (R552, R565) -/

/-- Write octets into consecutive registers. -/
def Dev.putOctets (s : Dev) (at_ : Nat) (o : List Byte) : Dev :=
  (asWords o).zipIdx.foldl (fun (s : Dev) (e : Word × Nat) => s.setReg (at_ + 4 * e.2) e.1) s

/-- The images `st` run: RUN_VERSION and MEASUREMENT follow. -/
def Dev.setRunning (s : Dev) (st : Store (List Byte)) : Dev :=
  let s := s.onUpd (fun u => { u with running := st })
  let s := (List.range 20).foldl (fun (s : Dev) k => s.setReg (updReg (0x40 + 4 * k)) (BitVec.ofNat 32 (hdrVersion (st.get [] k)))) s
  s.putOctets (updReg 0xC0) (sha512 ((st.filter (fun e => e.1 ≠ 3)).flatMap (fun (e : Nat × List Byte) => sha512 e.2)))

/-- UPD_STATUS fields. -/
def Dev.updPhase (s : Dev) : Nat := s.rf (updReg 0) 26 24
def Dev.setPhase (s : Dev) (n : Nat) : Dev := s.setRf (updReg 0) 26 24 n

/-- The engine is cut off in a phase: it stays busy there until the next boot. -/
def Dev.cutIn (s : Dev) (n : Nat) : Dev := (s.setPhase n).setRb (updReg 0) 31 true
def Dev.runSlot (s : Dev) : Nat := s.rf (updReg 0) 8 8

/-- UPDATE_STATE (R564). -/
def Dev.updEvent (s : Dev) (cause a b : Nat) : Dev := s.raise 62 cause 0x72 0 a b

/-- A firmware step in the change log. -/
def Dev.logFirmware (s : Dev) (origin new : Nat) : Dev := s.log origin kFirmware 0x72 0 0 0 (leBytes 4 0) (leBytes 4 new)

/-! ## The journal (R559) -/

/-- Entry `j`. -/
def Dev.entry (s : Dev) (j : Nat) : JRow × JRow := s.upd.journal.get (.blank, .blank) j
def Dev.setEntry (s : Dev) (j : Nat) (e : JRow × JRow) : Dev :=
  let s := s.onUpd (fun u => { u with journal := u.journal.put (.blank, .blank) j e })
  s.setReg (updReg 8) (BitVec.ofNat 32 (((List.range 256).find? (fun k => (s.entry k).1.st = 0)).getD 256))

/-- JOURNAL_NEXT. -/
def Dev.journalNext (s : Dev) : Nat := ((List.range 256).find? (fun k => (s.entry k).1.st = 0)).getD 256

/-- Whether an entry is committed: both rows valid and agreeing. -/
def entryCommitted (j : Nat) (e : JRow × JRow) : Bool :=
  e.1.st = 2 && e.2.st = 2 && fld e.1.bits 255 192 = fld e.2.bits 255 192 && fld e.2.bits 39 32 = j && fld e.2.bits 31 0 = 0x5A3CC3A5

/-- The highest committed entry. -/
def Dev.lastCommit (s : Dev) : Option (Nat × (JRow × JRow)) :=
  (((List.range 256).reverse.map (fun j => (j, s.entry j))).find? (fun e => entryCommitted e.1 e.2))

/-- The active manifest slot. -/
def Dev.manifestSlot (s : Dev) : Nat := match s.lastCommit with | some e => fld e.2.1.bits 32 32 | none => 0

/-- The PREP row of an activation, and its COMMIT row. -/
def prepRow (digest : List Byte) (fs burl : Nat) (hw : Bool) (slot : Nat) : BitVec 256 :=
  BitVec.ofNat 256 (beNat (digest.take 24) * 2 ^ 64 + fs * 2 ^ 56 + burl * 2 ^ 48 + hw.toNat * 2 ^ 40 + slot * 2 ^ 32)
def commitRow (digest : List Byte) (j : Nat) : BitVec 256 :=
  BitVec.ofNat 256 (beNat (digest.take 8) * 2 ^ 192 + j * 2 ^ 32 + 0x5A3CC3A5)

/-! ## Commands (R553 to R560) -/

/-- The inactive slot of a kind (R554). -/
def Dev.inactiveSlot (s : Dev) (kind : Nat) : Nat := if kind = 0 then 1 - s.manifestSlot else 1 - s.rf (updReg 0x10) (kind - 0x10) (kind - 0x10)

/-- While PHASE is COMPLETING the manifest's slots stay as they are; nor is a running slot ever written (R554). -/
def Dev.slotLocked (s : Dev) (kind : Nat) : Bool := kind = 0 && (s.updPhase = 4 || s.inactiveSlot 0 = s.runSlot)

/-- Program blocks one after the other, until one fails its check: the device after it and the index of that one. -/
def Dev.program (s : Dev) (base : Nat) : Nat → List (List Byte) → Dev × Option Nat
  | _, [] => (s, none)
  | i, b :: r =>
    let s := s.onUpd (fun u => { u with flash := u.flash.put none (base + i) (some b) })
    if blockOk b then s.program base (i + 1) r else (s, some i)

/-- IMG_WRITE's own part. -/
def Dev.imgWrite (s : Dev) (d : CmdDesc) (mem : HostData) : CmdRes :=
  let kind := fld d.p16 63 56
  let first := fld d.p16 47 32
  let n := fld d.p16 12 0
  if !writableKind kind || n = 0 || n > 4096 || d.p8.toNat % 8 ≠ 0 then .fail s stBadParam
  else if s.slotLocked kind then .fail s stWrongMode
  else if first + n > Config.slotBlocks kind then .fail s stBadParam
  else if mem.err || mem.octets.length < 4096 * n then .fail (s.dmaFail d.host.val) stDmaErr
  else
    match s.program (slotBase kind (s.inactiveSlot kind)) first (blocks 4096 (mem.octets.take (4096 * n))) with
    | (s, none) => .done s stOk 0 0
    | (s, some i) => .done (s.logCommand d 1 kCommand 0x40) 0x40 i 0

/-- IMG_VERIFY's own part. -/
def Dev.imgVerify (s : Dev) (d : CmdDesc) : CmdRes :=
  let kind := fld d.p8 7 0
  let slot := s.inactiveSlot kind
  let h := s.block (slotBase kind slot)
  if !writableKind kind then .fail s stBadParam
  else if s.slotLocked kind then .fail s stWrongMode
  else if h.isEmpty then .fail s 0x42
  else
    let c := if kind = 0 then s.manifestCheck slot else s.slotCheck kind slot
    if c ≠ 0 then .fail s c else .done s stOk (hdrVersion h) (hdrSvn h)

/-- What a new image of a kind does when it starts (R556). -/
def Dev.startImage (s : Dev) (kind : Nat) : Dev :=
  if kind = 0x10 then
    (List.range 7).foldl (fun (s : Dev) w =>
      let o := s.wdtOrigin w
      if o = 0 then s
      else ((if w < 3 then s.setRb (pairReg w 0) 0 false else s).coreReset o).kick w) s
  else if kind = 0x11 then
    (List.range 16).foldl (fun (s : Dev) l => if s.rb (linReg l 8) 31 then (s.linRunWrite l false).linRunWrite l true else s) s
  else if kind = 0x12 then
    (List.range 8).foldl (fun (s : Dev) i =>
      let n := 28 + i
      let s := if portPresent s.variant n then s.setReg (portReg n 0x3C) (s.reg (updReg 0x88)) else s
      if s.portLink n = 2 then
        let s := (s.abortAll n).setLink n 1
        let s := s.setPort n { s.port n with lockAt := s.now }
        if s.portLock n && s.rf (portReg n 0xC) 23 16 = 0 then s.setLink n 2 else s
      else s) s
  else s

/-- IMG_ACTIVATE's own part (R555, R556). -/
def Dev.imgActivate (s : Dev) (d : CmdDesc) : CmdRes :=
  let kind := fld d.p8 7 0
  let slot := s.inactiveSlot kind
  let base := slotBase kind slot
  let h := s.block base
  let refuse (code a : Nat) : CmdRes := .done (s.updEvent 3 (kind * 65536) (hdrVersion h)) code a 0
  if !partKind kind then .fail s stBadParam
  else if s.updPhase = 4 then .fail s stWrongMode
  else if kind ≠ 0x10 ∧ s.mode ≠ 5 then .fail s stWrongMode
  else if h.isEmpty then refuse 0x42 0
  else
    let c := s.slotCheck kind slot
    if c ≠ 0 then refuse c 0
    else
      let st := s.runSet [(kind, h)]
      match unmet st with
      | some (k, i) => refuse stIncompatible (k * 65536 + i)
      | none =>
        let s := ((s.switchSlot kind slot).setRunning st).startImage kind
        .done (s.updEvent 1 (kind * 65536) (hdrVersion h)) stOk (hdrVersion h) 0

/-- Rows of the journal that fail their program-verify are replaced by spare ones (R559); the answer is whether the spares sufficed. -/
def Dev.journalRows (s : Dev) (fails : Nat) : Dev × Bool :=
  let n := s.upd.journalSpares + fails
  (s.onUpd (fun u => { u with journalSpares := min n 32 }), n ≤ 32)

/-- MANIFEST_ACTIVATE's own part (R560); a cut leaves the phase it falls in, for the next boot to find (R561). `rowFails` rows fail their
program-verify; where no spare is left for one, the entry is spent, and the command ends with EXHAUSTED and cause 0x00A (DESIGN CHOICE,
log entry 54). -/
def Dev.manifestActivate (s : Dev) (d : CmdDesc) (cut : ActCut) (rowFails : Nat) : CmdRes :=
  let slot := s.inactiveSlot 0
  let h := s.block (slotBase 0 slot)
  let j := s.journalNext
  let refuse (code a : Nat) : CmdRes := .done (s.updEvent 3 j (hdrVersion h)) code a 0
  if s.updPhase = 4 || s.inactiveSlot 0 = s.runSlot then .fail s stWrongMode
  else if j = 256 then .fail s stExhausted
  else
    let s := s.logFirmware d.origin 1
    match cut with
    | .verify => .wait (s.cutIn 1)
    | _ =>
      let c := if h.isEmpty then 0x42 else s.manifestCheck slot
      if c ≠ 0 then refuse c 0
      else
        let l := s.manifestHeaders slot
        match unmet (s.runSet l) with
        | some (k, i) => refuse stIncompatible (k * 65536 + i)
        | none =>
          let svn (k : Nat) : Nat := (l.find? (fun e => e.1 = k)).elim 0 (fun e => hdrSvn e.2)
          let hw : Bool := l.any (fun e => e.1 = 3)
          let digest := sha512 h
          let prep : JRow := ⟨2, prepRow digest (svn 1) (svn 2) hw slot⟩
          let s := s.logFirmware d.origin 2
          match cut with
          | .prep => .wait ((s.setEntry j (⟨1, 0⟩, .blank)).cutIn 2)
          | .between => .wait ((s.setEntry j (prep, .blank)).cutIn 2)
          | .commit => .wait (((s.setEntry j (prep, ⟨1, 0⟩)).logFirmware d.origin 3).cutIn 3)
          | _ =>
            let r := s.journalRows rowFails
            if !r.2 then .done ((r.1.setEntry j (⟨1, 0⟩, .blank)).updEvent 10 j 0) stExhausted 0 0
            else
            let s := (r.1.setEntry j (prep, ⟨2, commitRow digest j⟩)).logFirmware d.origin 3
            let s := ((s.onUpd (fun u => { u with unstarted := true, hwOpen := hw })).setPhase 4).logFirmware d.origin 4
            .done (s.updEvent 2 j (hdrVersion h)) stOk j 0

/-- A command of the Update engine, which runs one at a time. -/
def Dev.updCommand (s : Dev) (d : CmdDesc) (op : Nat) (mask : List Nat) (kind : Option Nat) (body : Dev → CmdRes) : Dev :=
  s.command d (isOne 0x72) (isOne 0) op mask kind body

/-- IMG_WRITE. -/
def execImgWrite (d : CmdDesc) (mem : HostData) (s : State) :=
  s.onDev (fun x => x.updCommand d 1 [all64, 0xFF00FFFF00001FFF, 0, 0, 0] (some kCommand) (·.imgWrite d mem))
/-- IMG_VERIFY. -/
def execImgVerify (d : CmdDesc) (s : State) := s.onDev (fun x => x.updCommand d 2 [0xFF, 0, 0, 0, 0] none (·.imgVerify d))
/-- IMG_ACTIVATE. -/
def execImgActivate (d : CmdDesc) (s : State) := s.onDev (fun x => x.updCommand d 3 [0xFF, 0, 0, 0, 0] (some kFirmware) (·.imgActivate d))
/-- MANIFEST_ACTIVATE. -/
def execManifestActivate (d : CmdDesc) (cut : ActCut) (rowFails : Nat) (s : State) :=
  s.onDev (fun x => x.updCommand d 4 noParams (some kCommand) (·.manifestActivate d cut rowFails))

/-- UPD_HW_DONE (R563): ignored while HW_PENDING is 0. -/
def Dev.hwDone (s : Dev) : Dev :=
  if !s.rb (updReg 0) 16 then s
  else
    let j := s.lastCommit.elim 0 (·.1)
    (((s.onUpd (fun u => { u with hwOpen := false })).setRb (updReg 0) 16 false).setPhase 0).updEvent 6 (3 * 65536 + j) s.tick

/-- UPD_HW_DONE. -/
def execUpdHwDone (a : Acc) (s : State) := s.onDev (fun x => x.writeBit a (updReg 0x14) 0 (·.hwDone))

/-! ## The boot's part (R548 to R551) -/

/-- A counter is raised to `goal` where it is below, `fails` of its rows failing their program-verify: its value and the spare rows it has
used after that, and whether the two spares sufficed. -/
def svnRise (now goal spares fails : Nat) : Nat × Nat × Bool :=
  if goal ≤ now then (now, spares, true) else if spares + fails ≤ 2 then (goal, spares + fails, true) else (now, 2, false)

/-- Raise the counters (R548). A rise that would need more rows than there are is not made and raises cause 0x00A, for the image's kind and
the committed entry, with payload B 0. -/
def Dev.raiseSvn (s : Dev) (j fs burl : Nat) (fails : Nat × Nat) : Dev :=
  let x := svnRise s.upd.svnFs fs s.upd.spares.1 fails.1
  let y := svnRise s.upd.svnBurl burl s.upd.spares.2 fails.2
  let s := s.onUpd (fun u => { u with svnFs := x.1, svnBurl := y.1, spares := (x.2.1, y.2.1) })
  let s := if x.2.2 then s else s.updEvent 10 (65536 + j) 0
  let s := if y.2.2 then s else s.updEvent 10 (2 * 65536 + j) 0
  s.setReg (updReg 0xC) (BitVec.ofNat 32 (s.upd.svnBurl * 256 + s.upd.svnFs))

/-- The journal entries no boot has examined: each is completed or rolled back (R561). -/
def Dev.bootJournal (s : Dev) (r : BootResult) : Dev :=
  let n := s.journalNext
  let s := ((List.range n).drop s.upd.seen).foldl (fun (s : Dev) j => s.updEvent (if entryCommitted j (s.entry j) then 5 else 4) j s.tick) s
  let s := (s.onUpd (fun u => { u with seen := n })).setReg (updReg 8) (BitVec.ofNat 32 n)
  match s.lastCommit with
  | some e => s.raiseSvn e.1 (fld e.2.1.bits 63 56) (fld e.2.1.bits 55 48) r.svnFails
  | none => s.raiseSvn 0 0 0 (0, 0)

/-- The short boot of R551: the journal is read, and an activation that was cut off has ended. -/
def Dev.bootShort (s : Dev) (r : BootResult) : Dev :=
  let s := s.bootJournal r
  let s := s.setRb (updReg 0) 31 false
  if s.updPhase = 4 then s else s.setPhase 0

/-- A boot halts (R550). -/
def Dev.halt (s : Dev) (kind code : Nat) : Dev :=
  (s.setReg (updReg 4) (BitVec.ofNat 32 (2 ^ 30 + kind * 65536 + code))).pin "SAFE_N" 0

/-- One slot of a kind is chosen by the codes of both: the active one, or the other where that fails (R550). -/
def chooseSlot (active c0 c1 : Nat) : Option (Nat × Bool) :=
  let code (n : Nat) : Nat := if n = 0 then c0 else c1
  if code active = 0 then some (active, false) else if code (1 - active) = 0 then some (1 - active, true) else none

/-- A one-by-one part is checked under R547 and starts, from its other slot where the active one fails. -/
def Dev.bootPart (s : Dev) (k : Nat) : Dev :=
  if s.rb (updReg 4) 30 then s
  else
    let active := s.rf (updReg 0x10) (k - 0x10) (k - 0x10)
    match chooseSlot active (s.slotCheck k 0) (s.slotCheck k 1) with
    | none => s.halt k (s.slotCheck k active)
    | some (slot, fell) =>
      let s := if fell then (s.setRb (updReg 4) 31 true).updEvent 7 (k * 65536) (hdrVersion (s.block (slotBase k slot))) else s
      let s := if k = 0x12 then (List.range 8).foldl (fun (s : Dev) i =>
        if portPresent s.variant (28 + i) then s.setReg (portReg (28 + i) 0x3C) (BitVec.ofNat 32 (hdrVersion (s.block (slotBase k slot)))) else s) s else s
      s.setRunning (s.runSet [(k, s.block (slotBase k slot))])

/-! ### The minimal Roots stage (R489) -/

/-- The addresses a Roots boot record may load: CAN and LIN channel registers, CAN_FILTER and CF_CH, CAN_ZONE and LIN_ZONE, and ZP. -/
def bootRecordHolds (a : Nat) : Bool :=
  (0x480000 ≤ a && a < 0x48C000) || (0x490000 ≤ a && a < 0x494000) || (0x420000 ≤ a && a < 0x440000) || (0x401400 ≤ a && a < 0x401468)
    || (0x401200 ≤ a && a < 0x401260) || (0x401280 ≤ a && a < 0x4012C0) || (0x408000 ≤ a && a < 0x40C000)

/-- The enable bit of a channel or of a LIN schedule, which acts where the rest is loaded. -/
def bootEnableBit (a : Nat) : Word :=
  if (a < 0x48C000 && a % 0x800 = 0) || (0x490000 ≤ a && (a % 0x400 = 0 || a % 0x400 = 8)) then 0x80000000 else 0

/-- One value of the record is loaded: a table word, or the RW fields of a register. -/
def Dev.loadRecord (s : Dev) (e : BitVec 32 × BitVec 64) : Dev :=
  let a := e.1.toNat
  if !bootRecordHolds a || !addrPresent s.variant s.split a then s
  else match wordMask a with
    | some m => s.setWord a (e.2 &&& BitVec.ofNat 64 m)
    | none =>
      let c := cfgBits a &&& ~~~bootEnableBit a
      s.setReg a ((s.reg a &&& ~~~c) ||| (e.2.setWidth 32 &&& c))

/-- A channel the record enables is enabled, and its transceiver leaves standby. -/
def Dev.startRecord (s : Dev) (e : BitVec 32 × BitVec 64) : Dev :=
  let a := e.1.toNat
  if !bit e.2 31 || !addrPresent s.variant s.split a then s
  else if 0x480000 ≤ a ∧ a < 0x48C000 ∧ a % 0x800 = 0 then
    let n := (a - 0x480000) / 0x800
    let s := s.canEnable n true
    if s.rb (canReg n 0) 31 then (s.setRb (canReg n 0) 25 false).pin "CAN_STB" (2 * n) else s
  else if 0x490000 ≤ a ∧ a < 0x494000 ∧ a % 0x400 = 0 then
    let l := (a - 0x490000) / 0x400
    let s := s.linEnable l true
    if s.rb (linReg l 0) 29 then s.pin "LIN_EN" (2 * l + 1) else s
  else s

/-- The LIN schedules the record runs. -/
def Dev.runRecord (s : Dev) (e : BitVec 32 × BitVec 64) : Dev :=
  let a := e.1.toNat
  if bit e.2 31 && 0x490000 ≤ a && a < 0x494000 && a % 0x400 = 8 && addrPresent s.variant s.split a
  then s.linRunWrite ((a - 0x490000) / 0x400) true else s

/-- A route of the record, unless it verifies or generates: those wait for software. -/
def Dev.loadRoute (s : Dev) (r : DWord × DWord × DWord) : Dev :=
  if !bit r.1 63 || bit r.2.2 63 || bit r.2.2 47 then s
  else match (s.findRoute r.1).orElse (fun _ => ((List.range 8).map (8 * s.routeBucket r.1 + ·)).find? (fun i => (s.route i).isNone)) with
    | some i => s.setRoute i (some (r.1, s.presentDests r.2.1, r.2.2))
    | none => s

/-- The minimal Roots stage, from the body of the Roots boot record. -/
def Dev.minimalRoots (s : Dev) (body : List Byte) : Dev :=
  let l := Config.rootsRecord body
  (Config.rootsRoutes body).foldl Dev.loadRoute (l.foldl Dev.runRecord (l.foldl Dev.startRecord (l.foldl Dev.loadRecord s)))

/-- The minimal stage of a manifest slot, where it holds a Roots boot record. -/
def Dev.bootRecord (s : Dev) (slot : Nat) : Dev :=
  let base := slotBase 0 slot
  match (membersOf (s.bodyOctets base)).find? (fun m => m.kind = 4) with
  | some m => s.minimalRoots (s.bodyOctets (base + m.first))
  | none => s

/-- The directory in force gives the active slots (R543). -/
def Dev.bootDir (s : Dev) (n : Nat) : Dev := s.setReg (updReg 0x10) ((s.upd.dir n).active.setWidth 32)

/-- The images of the manifest are checked and started, those of its other slot where one fails (R549, R550). -/
def Dev.bootManifest (s : Dev) : Dev :=
  let active := s.manifestSlot
  match chooseSlot active (s.manifestCheck 0) (s.manifestCheck 1) with
  | none => let e := (s.manifestFault active).getD (0, 0); s.halt e.1 e.2
  | some (slot, fell) =>
    let s := if fell then (s.setRb (updReg 4) 31 true).updEvent 7 (s.lastCommit.elim 0 (·.1)) (hdrVersion (s.block (slotBase 0 slot)))
      else s.onUpd (fun u => { u with unstarted := false })
    let phase := if s.upd.unstarted || s.upd.hwOpen then 4 else 0
    let pending := !s.upd.unstarted && s.upd.hwOpen
    let s := s.setReg (updReg 0) (BitVec.ofNat 32 (phase * 2 ^ 24 + pending.toNat * 2 ^ 16 + slot * 256))
    let s := (s.setRunning (s.runSet (s.manifestHeaders slot))).bootRecord slot
    [0x10, 0x11, 0x12, 0x13].foldl (fun (s : Dev) k => s.bootPart k) s

/-- Steps 2 to 4 of a full boot (R549). Without a usable copy of the directory no slot can be found, and the boot halts (DESIGN CHOICE,
log entry 54). -/
def Dev.bootImages (s : Dev) (r : BootResult) : Dev :=
  let s := s.bootJournal r
  let s := (s.setReg (updReg 4) 0).setRunning []
  match s.upd.dirNow with
  | none => s.halt 0 0x40
  | some n => (s.bootDir n).bootManifest

end Sys2Proof.Machine
end

