-- ==== Sys2Proof/Machine/Boot.lean ====
section
/-! DEFINITION. What resets and boots leave: the state each kind of reset keeps (R256, R501, R514), the roots and the change log
at a boot (R384, R397, R538), and the boots of R549 and R551. -/
namespace Sys2Proof.Machine

/-! ## Registers across a reset -/

/-- Every register a store lists, changed by `f`. -/
def mapRegs (v : Variant) (f : Nat → Word → Word) (m : Store Word) : Store Word :=
  m.filterMap (fun e => if f e.1 e.2 = regReset v e.1 then none else some (e.1, f e.1 e.2))

/-- Registers in always-on flops (R501), and the temperature, which is measured (R541). -/
def alwaysOn (a : Nat) : Bool :=
  (0x680200 ≤ a && a < 0x680240) || a = 0x680044 || a = 0x680034 || a = 0x680018 || a = 0x68001C || a = 0x700010

/-- The registers of raw time, the domains and working time; those of the key store; those of the Update cluster. -/
def timeRegs (a : Nat) : Bool := 0x380000 ≤ a && a < 0x380300
def keyRegs (a : Nat) : Bool := 0x504000 ≤ a && a < 0x50401C
def imageRegs (a : Nat) : Bool := 0x800000 ≤ a && a < 0x800100

/-- What RAS keeps with the key store and with Canopy: which banks and which pairs serve; the counts return to zero. -/
def rasKept (l : Store RasUnit) : Store RasUnit :=
  l.filterMap (fun (e : Nat × RasUnit) =>
    let x := { RasUnit.idle with retired := e.2.retired, other := e.2.other }
    if ((0x4010 ≤ e.1 && e.1 < 0x4019) || (0x6000 ≤ e.1 && e.1 < 0x6003)) && x ≠ .idle then some (e.1, x) else none)

/-- Canopy's registers that only PORST_N clears (R476). -/
def canopyKept (a : Nat) : Bool :=
  a = 0x600000 || (0x600100 ≤ a && a < 0x6001C0 && (a % 0x40 = 0 || (0x14 ≤ a % 0x40 && a % 0x40 < 0x28)))
    || (0x600208 ≤ a && a < 0x600280 && a % 0x20 = 8) || (0x601000 ≤ a && a < 0x601400 && (a % 0x40 = 0x18 || a % 0x40 = 0x1C))

/-- The shared SRAM loses its content (R486). -/
def Basjo.dropSram (b : Basjo) : Basjo := { b with mem := b.mem.keep (fun k _ => k < 2 ^ 65) }

/-- The slots that are RETIRED: they stay so until the device is decommissioned (R380). -/
def retiredSlots (l : Store KeySlot) : Store KeySlot := l.filter (fun e => e.2.state = 3)

/-- The device with nothing left but what no reset touches, its registers changed by `f`: fuses and one-time-programmable
rows, flash, the always-on flops, host memory and what has left the device. -/
def Dev.cleared (s : Dev) (f : Nat → Word → Word) : Dev :=
  let z := Dev.resetOf s.variant
  { z with
    regs := mapRegs s.variant f s.regs
    basjo := { z.basjo with regs := mapRegs .m f s.basjo.regs, mem := s.basjo.mem, msgs := s.basjo.msgs }
    audit := .empty
    cam := { s.cam with capLast := [], pps := [] }
    burl := { z.burl with slots := retiredSlots s.burl.slots, liveRoot := none, rootTries := s.burl.rootTries, fuseLife := s.burl.fuseLife, fuseTamper := s.burl.fuseTamper,
                          fuseRoots := s.burl.fuseRoots, tamperLatch := s.burl.tamperLatch, tamperAt := s.burl.tamperAt }
    tap := { z.tap with fwWin := s.tap.fwWin, held := s.tap.held }
    sap := { z.sap with rst := s.sap.rst }
    upd := s.upd
    out := s.out
    draws := s.draws }

/-! ## The boot ROM's part -/

/-- RAW_EPOCH and EPOCH_ROWS as the rows of the epoch area give them. -/
def Dev.epochRegs (s : Dev) : Dev :=
  ((s.setReg (camReg 4) (BitVec.ofNat 32 s.cam.epochRows)).setReg (camReg 8) (BitVec.ofNat 32 (1024 - s.cam.epochRows))).setRb (camReg 0) 2
    (decide (s.cam.epochRows ≥ 1024))

/-- The tamper check and the roots (R384, R385, R397): what is latched or blown ends in DECOMMISSIONED; otherwise the root of
the life cycle becomes live where the reconstruction succeeds. -/
def Dev.bootRoots (s : Dev) (r : BootResult) : Dev :=
  let b := s.burl
  let tampered := b.fuseTamper || b.tamperLatch ≠ 0
  let life := if tampered then 4 else b.fuseLife
  let create := !tampered && life = 0 && !b.fuseRoots && b.rootTries < 4
  let made := b.fuseRoots || (create && r.pufOk && r.entropyOk)
  let live : Option Nat := if !tampered && 1 ≤ life && life ≤ 3 && made && r.pufOk then some (life - 1) else none
  let s := { s with burl := { b with fuseTamper := tampered, fuseLife := life, fuseRoots := made, liveRoot := live,
                                     slots := if life = 4 then [] else b.slots,
                                     rootTries := if create then b.rootTries + 1 else b.rootTries } }
  let s := s.setReg (burlReg 0x4000) (BitVec.ofNat 32
    ((live.elim 0 (2 ^ ·)) * 65536 + (r.pufOk && !tampered).toNat * 32768 + tampered.toNat * 16384 + made.toNat * 8192 + life))
  s.setReg (burlReg 0x4004) (BitVec.ofNat 32 b.tamperLatch.toNat)

/-- The change log starts (R538): NEW_HASH of LOG_START holds RAW_EPOCH itself, and no value stands before it. -/
def Dev.bootLog (s : Dev) : Dev :=
  let epoch := (s.reg (camReg 4)).toNat
  ({ s with audit := Audit.started s.auditKey epoch s.tick (secOf s.wt) (nsOf s.wt) } : Dev).auditEvent kLogStart 0 (logStart epoch s.tick (secOf s.wt) (nsOf s.wt))

/-- What the roots and the generator's start-up tests leave to report (R384, R392, R397). -/
def Dev.bootReports (s : Dev) (r : BootResult) : Dev :=
  let s := if s.burl.fuseTamper then s.raise 51 0x10 0x40 0xFF s.burl.tamperLatch.toNat s.burl.tamperAt
    else if r.pufOk then s else s.raise 48 0x10 0x40 0xFF 0 0
  s.rngStart r.entropyOk

/-- The records held in always-on flops are raised (R500). -/
def Dev.raiseHeld (s : Dev) : Dev :=
  let l := s.tap.held
  l.foldl (fun (s : Dev) e => s.raise e.cls e.cause 0x61 0 e.a e.b) { s with tap := { s.tap with held := [] } }

/-- The mode after a reset or a wake; a mode that stays makes no change. -/
def Dev.enterMode (s : Dev) (old new : Nat) : Dev :=
  if old = new then s.setReg 0x20 (BitVec.ofNat 32 (old * 256 + new))
  else (s.setReg 0x20 (BitVec.ofNat 32 old)).changeMode 0 new

/-- Causes 4 and 5 are evaluated again after a boot (R519). -/
def Dev.bootSafe (s : Dev) : Dev :=
  let temp := ((s.reg (rasReg 0x10)).setWidth 16).toInt
  let s := if temp > 8 * ((s.rf (rasReg 0x14) 7 0 : Int) - 10) then s.enterSafe 4 0x70 0 else s
  if s.lifeCycle = 4 then s.enterSafe 5 0x40 0xFF else s

/-- The end of every boot: the mode, unless the boot has halted, and SAFE where its causes hold. -/
def Dev.bootEnd (s : Dev) (old new : Nat) : Dev :=
  if s.rb (updReg 4) 30 then s.setReg 0x20 (BitVec.ofNat 32 (old * 256 + new))
  else (((s.bridgeUp).enterMode old new).bootSafe).raiseHeld

/-- The built-in self-test of the SPARE pairs: one that fails starts in RETIRED (R457). -/
def Dev.pairTest (s : Dev) (ok : Bool) : Dev :=
  if ok then s
  else (List.range 3).foldl (fun (s : Dev) k =>
    if s.split || s.pairState k ≠ 3 then s else (s.setRf (pairReg k 0) 6 4 4).dropUnit 0x60 k) s

/-- Split mode as the strap and the fuse give it (R471, R595). -/
def Dev.bootSplit (s : Dev) (fuse strap : Bool) : Dev :=
  if fuse && strap then
    (List.range 3).foldl (fun (s : Dev) k => (s.setReg (pairReg k 0) 0x350).setReg (pairReg k 8) 0) (s.setReg (canopyReg 0) 3)
  else s.setReg (canopyReg 0) (if fuse then 2 else 0)

/-- Every watchdog and every checkpoint's age starts now. -/
def Dev.startCanopy (s : Dev) : Dev :=
  let s := (List.range 3).foldl (fun (s : Dev) k => s.setPair k { s.pair k with ckptAt := s.now, overdue := false }) s
  (List.range 7).foldl (fun (s : Dev) w => s.kick w) s

/-- A full boot (R549). `old` is the mode before it. -/
def Dev.bootFull (s : Dev) (r : BootResult) (old : Nat) (strap fuse : Bool) : Dev :=
  let s := ((((s.bootSplit fuse strap).pairTest r.pairOk).startCanopy.epochRegs).bootRoots r).bootLog
  let s := s.bootReports r
  let s := if s.lifeCycle = 4 then s else s.bootImages r
  s.bootEnd old (if s.lifeCycle = 0 then 7 else 4)

/-! ## The resets (R513, R514) -/

/-- The pins that follow a field a reset has changed, and a pulse output that was high (R316, R278). A core without power has let go
of them before. -/
def Dev.pinsFollow (x s : Dev) : Dev :=
  if s.tap.asleep then x
  else
    let x := ((List.range 24).filter (fun n => canPresent s.variant n && s.rb (canReg n 0) 25 != x.rb (canReg n 0) 25)).foldl
      (fun (x : Dev) n => x.pin "CAN_STB" (2 * n + (x.rb (canReg n 0) 25).toNat)) x
    let x := ((List.range 16).filter (fun l => linPresent s.variant l && s.rb (linReg l 0) 29 != x.rb (linReg l 0) 29)).foldl
      (fun (x : Dev) l => x.pin "LIN_EN" (2 * l + (x.rb (linReg l 0) 29).toNat)) x
    if s.safe then x
    else (List.range 4).foldl (fun (x : Dev) k => match s.pps k with | some (_, true) => x.pin "PPS_OUT" (2 * k) | _ => x) x

/-- A cold reset with VAON held and the boot after it. -/
def Dev.cold (s : Dev) (r : BootResult) (strap : Bool) : Dev :=
  let old := s.mode
  let fuse := s.rb (canopyReg 0) 1
  let safe := s.safe
  let x := s.cleared (fun a v => if alwaysOn a then v else regReset s.variant a)
  let x := { x with cam := { x.cam with off := 0, offAt := x.cam.raw, sync := [], outSince := [], wireHigh := false, relocked := false,
                                        timeOff := x.cam.anchor.isSome } }
  let x := (if safe || s.rb (updReg 4) 30 then x.pin "SAFE_N" 1 else x).pinsFollow s
  let x := x.onBasjo Basjo.dropSram
  x.bootFull r old strap fuse

/-- The boot after a loss of VAON (R257): a new epoch. DESIGN CHOICE (log entry 71): where the epoch area is spent and no row is written,
the change-log entry and cause 0x013 are made all the same. -/
def Dev.coldEpoch (s : Dev) (r : BootResult) (strap : Bool) : Dev :=
  let old := s.mode
  let fuse := s.rb (canopyReg 0) 1
  let frozen : Bool := decide (s.cam.epochRows ≥ 1024)
  let x := s.cleared (fun a _ => regReset s.variant a)
  let x := { x with cam := { x.cam with raw := 0, off := 0, offAt := 0, sync := [], outSince := [], wireHigh := false, relocked := false,
                                        timeOff := false, epochRows := if frozen then 1024 else x.cam.epochRows + 1 }
                    burl := { x.burl with tamperLatch := 0, tamperAt := 0 }, tap := (Dev.resetOf s.variant).tap }
  let x := ((((((x.onBasjo Basjo.dropSram).pinsFollow s).bootSplit fuse strap).pairTest r.pairOk).startCanopy.epochRegs).bootRoots r).bootLog
  let x := (x.logHw kHardware 0x22 0 0 (x.reg (camReg 4)).toNat).timeEvent 0 0x13 (x.reg (camReg 4)).toNat 0
  let x := x.bootReports r
  let x := if x.lifeCycle = 4 then x else x.bootImages r
  x.bootEnd old (if x.lifeCycle = 0 then 7 else 4)

/-- A pair after a restart at its reset entry: no checkpoint, and running where it recovers. -/
def pairRestart (w : Word) : Word :=
  let w := setFld w 0 0 0
  if fld w 6 4 = 2 || fld w 6 4 = 0 then setFld w 6 4 1 else w

/-- What Cambium keeps of a register across WARM_N (R256): raw time's own, EN and the state of a domain, its operational triple, and working
time. The rest of its configuration returns to reset (R514). -/
def timeWarm (v : Variant) (a : Nat) (x : Word) : Word :=
  if a = 0x380100 ∨ a = 0x380180 then (regReset v a &&& 0x7FFFFFFF) ||| (x &&& 0x80000000)
  else if a = 0x380104 ∨ a = 0x380184 then x &&& 0xFFFFFFFB
  else if a < 0x38000C || (0x380140 ≤ a && a < 0x380180) || 0x3801C0 ≤ a && a < 0x380200 || a = 0x380204 || (0x380214 ≤ a && a < 0x380220) then x
  else regReset v a

/-- The registers of the pulse outputs. -/
def ppsRegs (a : Nat) : Bool := 0x380400 ≤ a && a < 0x380480

/-- What a register keeps across WARM_N; from SAFE, the pulse outputs as well, which resume on their grid (R278, log entry 65). -/
def warmReg (v : Variant) (safe : Bool) (a : Nat) (x : Word) : Word :=
  if 0x600100 ≤ a ∧ a < 0x6001C0 ∧ a % 0x40 = 0 then pairRestart x
  else if timeRegs a then timeWarm v a x
  else if alwaysOn a || keyRegs a || canopyKept a || imageRegs a || (safe && ppsRegs a) then x
  else regReset v a

/-- A warm reset and the short boot after it (R514, R551). -/
def Dev.warm (s : Dev) (r : BootResult) : Dev :=
  let old := s.mode
  let safe := s.safe
  let halted := s.rb (updReg 4) 30
  let x := s.cleared (warmReg s.variant safe)
  let x := { x with
    burl := { s.burl with uses := [], changes := [], reclaims := [], job := none, clears := [], scs := [], sas := [] }
    roots := { x.roots with auth := s.roots.auth }
    ras := { x.ras with units := rasKept s.ras.units }
    audit := s.audit
    cam := { x.cam with pps := if safe then s.cam.pps.map (fun (e : Nat × Option (Int × Bool)) => (e.1, e.2.map (fun (p : Int × Bool) => (p.1, false)))) else [] }
    canopy := { s.canopy with irqs := [] } }
  let x := ((x.ppsResume).startCanopy).pairTest r.pairOk
  let x := (if safe || halted then x.pin "SAFE_N" 1 else x).pinsFollow s
  let short := !halted && !x.upd.unstarted && x.manifestSlot = x.runSlot && r.sramOk
  let x := if x.lifeCycle = 4 then x else if short then x.bootShort r else x.bootImages r
  x.bootEnd old 4

end Sys2Proof.Machine
end

