-- ==== Sys2Proof/Machine/Taproot.lean ====
section
/-! DEFINITION. Taproot: modes and partial sets, wake sources, the sleep ballot, sleep and wake, and false wakes (R477 to
R501). -/
namespace Sys2Proof.Machine

/-! ## Modes (R478) -/

/-- A mode change by command takes effect on the units powered; it ends a COUNTING ballot, and where the ballot does not run it stays
IDLE (R491). -/
def Dev.moveMode (s : Dev) (origin target : Nat) : Dev :=
  let x := s.changeMode origin target
  (if x.bstate = 1 || target = 5 then x.setBstate 0 else x).powerDiff s

/-- Whether MODE_SET may go from a mode to another (R478). -/
def modeMay : Nat → Nat → Bool
  | 4, t => t = 3 || t = 5
  | 3, t => t = 4 || t = 5
  | 5, t => t = 4
  | _, _ => false

/-- MODE_SET's own part: it completes at once, or when the units powered up have copied and those that go down have drained. -/
def Dev.modeSet (s : Dev) (d : CmdDesc) : CmdRes :=
  let t := fld d.p8 2 0
  if !modeMay s.mode t then .fail s stWrongMode
  else
    let s := s.moveMode d.origin t
    if s.modeSettled then .done s stOk 0 0 else .wait (s.onTapState (fun x => { x with modeCmd := some (d, t) }))

/-- MODE_SET. -/
def execModeSet (d : CmdDesc) (s : State) := s.onDev (fun x =>
  x.command d (isOne 0) (isOne 0) 1 [7, 0, 0, 0, 0] (some kCommand) (·.modeSet d))

/-- GROVE_COPY_DONE: the replica of Grove 0 is copied, and the Grove's ports start (R150). DESIGN CHOICE (log entry 71): the copy takes
whole entries, MOVE_CNT and WIN_START with them. -/
def execGroveCopyDone (g : Fin 4) (s : State) := s.onDev (fun x =>
  if !x.tap.copying.contains g.val then x
  else
    let own := x.groves.fdb.filter (fun e => e.1 / 262144 ≠ g.val)
    let copy := (x.groves.fdb.filter (fun e => e.1 / 262144 = 0)).map (fun (e : Nat × Option FdbEntry) => (e.1 + 262144 * g.val, e.2))
    let below := own.filter (fun e => e.1 / 262144 < g.val)
    let above := own.filter (fun e => e.1 / 262144 > g.val)
    let x := { x with groves := { x.groves with fdb := below ++ copy ++ above } }
    let x := (x.setReg (groveReg g.val 0x200) (x.reg (groveReg 0 0x200))).setReg (groveReg g.val 0x204) (x.reg (groveReg 0 0x204))
    let x := x.onTapState (fun t => { t with copying := t.copying.filter (· ≠ g.val) })
    let x := (List.range 36).foldl (fun (x : Dev) n =>
      if portPresent x.variant n && portGrove x.variant n = g.val && x.portPowered n then x.portStart n else x) x
    x.modeDone)

/-! ## Sleep (R491 to R495) -/

/-- Latch a wake source in WAKE_REASON. -/
def Dev.latchWake (s : Dev) (k : Nat) : Dev := s.setRb (tapReg 0x34) k true

/-- A record held until the device is awake. -/
def Dev.holdRec (s : Dev) (cls cause a b : Nat) : Dev := s.onTapState (fun t => { t with held := t.held ++ [⟨cls, cause, a, b⟩] })

/-- BALLOT_DELAY_EXPIRY: the commit point (R491), at an edge of the 32.768 kHz clock. -/
def Dev.commitPoint (s : Dev) : Dev :=
  if s.bstate ≠ 1 || s.votesHeld ≠ 0 || (s.needsClean && !s.tap.clean) || s.now < s.tap.since + s.rf (tapReg 4) 15 0 * msRaw then s
  else
    let s := (s.setBstate 2).setReg (tapReg 0x34) 0
    let s := (s.setReg (tapReg 0x18) (BitVec.ofNat 32 s.tick)).setReg (tapReg 0x1C) (BitVec.ofNat 32 (s.tick / 2 ^ 32))
    let s := s.onTapState (fun t => { t with since := s.now, commitCoarse := s.cam.coarse, heldMode := s.mode })
    let s := s.holdRec 60 3 s.ballotTarget s.tick
    s.canopyIrq "CANOPY_COMMIT" 0

/-- SLEEP_ACK. -/
def Dev.sleepAck (s : Dev) : Dev := if s.bstate = 2 then s.setBstate 3 else s

/-- Every transceiver is put into standby from the always-on bank (R494, R495). -/
def Dev.standbyPins (s : Dev) : Dev :=
  let s := ((List.range 24).filter (canPresent s.variant)).foldl (fun (s : Dev) n => s.pin "CAN_STB" (2 * n + 1)) s
  ((List.range 16).filter (linPresent s.variant)).foldl (fun (s : Dev) l => s.pin "LIN_EN" (2 * l)) s

/-- 250 ms have passed since the commit point without SLEEP_ACK (R495). -/
def Dev.ackTimeout (s : Dev) : Dev :=
  if s.bstate ≠ 2 || s.now < s.tap.since + 250 * msRaw then s
  else
    let s := ((List.range 36).filter (fun p => 28 ≤ p && portPresent s.variant p)).foldl (fun (s : Dev) p => s.pin "T1S_SLEEP" p) s.standbyPins
    ((s.setRb (tapReg 0) 30 true).holdRec 60 5 0 s.tick).setBstate 3

/-- The save engine is done and PWR_REQ falls (R494). The key and the nonce of the save region are two requests to the generator, which
fail with it (R392): nothing is saved there then. -/
def Dev.fallAsleep (s : Dev) : Dev :=
  if s.bstate ≠ 3 || !(s.mode = 3 || s.mode = 4) then s
  else
    let standby := s.ballotTarget = 2
    let saved := standby && s.rb (tapReg 0x80) 31 && s.xmemReady && !s.rngFailed
    let s := if standby && s.rb (tapReg 0x80) 31 && !s.rngFailed then { s.generate1.generate1 with draws := s.draws + 2 } else s
    let s := (List.range 36).foldl (fun (s : Dev) n => if s.portEn n then s.lqSettle n else s) s
    let s := if standby && s.xmemReady then (s.setRf (trunkReg 0x8004) 1 0 3).setRb (trunkReg 0x8004) 31 false else s
    let s := (s.standbyPins.changeMode 8 s.ballotTarget).timeStop
    let s := s.onTapState (fun t => { t with asleep := true, offAt := s.now, powerLow := true, waking := false, saved := saved })
    let s := s.pin "PWR_REQ" 0
    if standby then s else s.pin "RET_REQ" 0

/-! ## Wake (R482 to R485) -/

/-- PWR_REQ rises from sleep. -/
def Dev.powerRises (s : Dev) : Dev :=
  let s := s.onTapState (fun t => { t with powerLow := false, waking := true, rise := (s.tick, s.cam.coarse) })
  (s.pin "PWR_REQ" 1).pin "RET_REQ" 1

/-- Whether PWR_OFF_MIN has passed. -/
def Dev.offLong (s : Dev) : Bool := s.now ≥ s.tap.offAt + s.rf (tapReg 0xC) 13 0 * usRaw

/-- Whether a source may wake the device (R482, R498). -/
def Dev.mayWake (s : Dev) (k : Nat) : Bool :=
  s.rb (tapReg 0x30) k && !(k < 16 && s.rb (tapReg 0x44) k)
    && (if 8 ≤ k ∧ k < 16 then portPresent s.variant (20 + k) else if k = 16 then heartPresent s.variant else true)

/-- A wake request is taken. -/
def Dev.wakeRequest (s : Dev) (k : Nat) : Dev :=
  if !s.mayWake k then s
  else if s.tap.asleep then
    if 8 ≤ k && k < 16 && s.mode = 1 || s.mode = 0 then s
    else if s.tap.powerLow then
      let s := s.latchWake k
      if s.offLong then s.powerRises else s
    else if s.cam.coarse = s.tap.rise.2 then s.latchWake k
    else s
  else
    let s := s.wakeSleep 8 k s.tick
    if s.bstate = 2 ∨ s.bstate = 3 then s.latchWake k
    else if s.bstate = 1 then (s.ballotAbort (64 + k)).ballot else s

/-- A meaning of Taproot, awake or asleep; nothing of it runs where a boot has halted. -/
def State.onAwakeTap (s : State) (f : Dev → Dev) : Host.Outcome State Fault Refusal := s.onTap (fun d => if d.rb (updReg 4) 30 then d else f d)

/-- Whether the request of a wake pin is taken: the level it has held for so many rising edges of the 32.768 kHz clock is the active one of
POL, and the edges are FILT (R483). -/
def Dev.pinTaken (s : Dev) (k : Nat) (high : Bool) (edges : Nat) : Bool :=
  high != s.rb (tapReg (0x100 + 0x20 * k)) 0 && edges ≥ s.rf (tapReg (0x100 + 0x20 * k)) 31 24

/-- WAKE_PIN_REQUEST. -/
def execWakePinRequest (k : Fin 8) (high : Bool) (edges : Nat) (s : State) :=
  s.onAwakeTap (fun d => if d.pinTaken k.val high edges then d.wakeRequest k.val else d)
/-- T1S_CARRIER_WAKE. -/
def execT1sCarrierWake (i : Fin 8) (s : State) := s.onAwakeTap (·.wakeRequest (8 + i.val))
/-- PULSE_FIRST_EDGE_WAKE. -/
def execPulseFirstEdgeWake (s : State) := s.onAwakeTap (·.wakeRequest 16)
/-- TIMER_WAKE_EXPIRY: TIMER_WAKE periods after the commit point. -/
def execTimerWakeExpiry (s : State) := s.onAwakeTap (fun d =>
  let n := (d.reg (tapReg 0x38)).toNat
  if n = 0 || !(d.tap.asleep || d.bstate ≥ 2) || d.cam.coarse < d.tap.commitCoarse + n then d else d.wakeRequest 17)

/-- PWR_OFF_MIN_EXPIRY: a wake latched during entry raises PWR_REQ, and so does a source of the tamper line (R397). -/
def execPwrOffMinExpiry (s : State) := s.onAwakeTap (fun d =>
  if d.tap.asleep && d.tap.powerLow && d.offLong && (d.reg (tapReg 0x34) ≠ 0 || d.burl.tamperLatch ≠ 0) then d.powerRises else d)

/-! ## Waking (R486 to R489) -/

/-- The registers the save region holds as tables (R486): zones, zone pairs, mask profiles and LIN frame buffers. -/
def savedTable (a : Nat) : Bool :=
  (0x401000 ≤ a && a < 0x4012C0) || (0x401400 ≤ a && a < 0x401468) || (0x408000 ≤ a && a < 0x40C000) || (0x4A1000 ≤ a && a < 0x4A1C00)
    || (0x4A8000 ≤ a && a < 0x4AC000)

/-- The registers that tell of the connection table: CT_STATUS, CT_USED, CT_CAP and ZP_USED (R305). -/
def connRegs (a : Nat) : Bool := a = 0x400004 || a = 0x400014 || a = 0x400018 || (0x40C000 ≤ a && a < 0x410000)

/-- What a register keeps across STANDBY: its configuration, the Cambium triples and the key store's state; saved tables only
with the save region, and what tells of the connection table where it stays. -/
def standbyReg (v : Variant) (saved table : Bool) (a : Nat) (x : Word) : Word :=
  if 0x600100 ≤ a ∧ a < 0x6001C0 ∧ a % 0x40 = 0 then pairRestart x
  else if alwaysOn a || timeRegs a || keyRegs a || canopyKept a || imageRegs a || (0x680000 ≤ a && a < 0x700000) || (0x308000 ≤ a && a < 0x309000)
  then x
  else if (table && connRegs a) || (saved && a = 0x4A0004) then (if a = 0x400004 then x &&& 0xFFFFFFFD else x)
  else if (0x11000 ≤ a && a < 0x13000 || 0x21000 ≤ a && a < 0x23000) && a % 0x40 = 0x10 then cfgOnly v a (x &&& 0x7FFFFFFF)
  else if savedTable a && !saved then regReset v a
  else cfgOnly v a x

/-- Whether a table word is saved: VLAN, group, stream, gate, rate-limiter, filter and pair tables, and the extent and header of
the CURRENT version. -/
def Dev.savedWord (s : Dev) (a : Nat) : Bool :=
  (0x210000 ≤ a && a < 0x240000) || (0x320000 ≤ a && a < 0x340000) || (0x368000 ≤ a && a < 0x37A000) || (0x410000 ≤ a && a < 0x441000)
    || (0x1000000 ≤ a && (List.range 4).any (fun n =>
      let w := (a - 0x1000000) / 8
      let base := (s.reg (0x220204 + 0x20 * n)).toNat
      s.rf (0x220200 + 0x20 * n) 1 0 = 1
        && ((base ≤ w && w < base + (s.reg (0x220208 + 0x20 * n)).toNat) || ((s.reg (0x22020C + 0x20 * n)).toNat ≤ w && w < (s.reg (0x22020C + 0x20 * n)).toNat + 16))))

/-- The registers of a version slot: those of the CURRENT version are kept with its extent, with nothing in flight. -/
def Dev.keepVersions (x s : Dev) : Dev :=
  (List.range 4).foldl (fun (x : Dev) n =>
    if s.rf (0x220200 + 0x20 * n) 1 0 = 1 then
      (List.range 5).foldl (fun (x : Dev) k => x.setReg (0x220200 + 0x20 * n + 4 * k) (s.reg (0x220200 + 0x20 * n + 4 * k))) x
    else x) x

/-- The wakes under validation and the record of the wake itself. -/
def Dev.wakeRecords (s : Dev) (rise : Nat) : Dev :=
  let why := s.reg (tapReg 0x34)
  let l := ((List.range 16).filter (fun k => bit why k)).map (fun k => (k, s.now + s.rf (tapReg 0x3C) 15 0 * msRaw))
  let old := s.tap.validating.filter (fun e => e.1 ≥ 16 || !bit why e.1)
  (s.onTapState (fun t => { t with validating := old ++ l })).wakeSleep 4 why.toNat rise

/-- The transceiver pins resume the levels their registers retain (R499). -/
def Dev.wakePins (s : Dev) : Dev :=
  let s := ((List.range 24).filter (canPresent s.variant)).foldl (fun (s : Dev) n =>
    if s.rb (canReg n 0) 25 then s else s.pin "CAN_STB" (2 * n)) s
  ((List.range 16).filter (linPresent s.variant)).foldl (fun (s : Dev) l => if s.rb (linReg l 0) 29 then s.pin "LIN_EN" (2 * l + 1) else s) s

/-- A wake from STANDBY with its retention intact (R486, R488). -/
def Dev.standbyWake (s : Dev) (boot : BootResult) (saved : Bool) : Dev :=
  let z := Dev.resetOf s.variant
  let table := s.rb (barkReg 0) 31
  let x := s.cleared (standbyReg s.variant saved table)
  let x := { x with
    basjo := x.basjo.dropSram
    words := if saved then s.words.filter (fun e => s.savedWord e.1) else []
    clocks := { z.clocks with sel := s.clocks.sel }
    burl := { s.burl with uses := [], changes := [], reclaims := [], job := none, clears := [], scs := [], sas := [] }
    audit := s.audit
    canopy := { s.canopy with irqs := [] }
    cam := { s.cam with capLast := [] }
    crown := { z.crown with gates := if saved then s.crown.gates.map (fun (e : Nat × GateRun) => (e.1, { e.2 with pending := none })) else [] }
    bark := if table then { z.bark with conns := s.bark.conns, pressed := s.bark.pressed, sweepAt := s.bark.sweepAt, sweeps := s.bark.sweeps, genDue := s.bark.genDue } else z.bark
    roots := { z.roots with auth := s.roots.auth, routes := if saved then s.roots.routes else [] }
    ras := { z.ras with units := rasKept s.ras.units }
    sap := { z.sap with failed := s.sap.failed, rst := s.sap.rst }
    tap := { s.tap with asleep := false, waking := false, powerLow := false, saved := false, modeCmd := none, copying := [], sole := none,
                        fastUp := (List.range 36).filter (fun n => s.rb (if n < 32 then tapReg 0x50 else tapReg 0x54) (n % 32)) } }
  let x := if table then x.genWake (s.now - s.tap.offAt) else x
  let x := if saved then x.keepVersions s else x
  let x := if saved then
      (s.groves.fdb.filter (fun e => match e.2 with | some f => f.isStatic | none => false)).foldl
        (fun (x : Dev) e => x.setFdb (e.1 / 262144) (e.1 % 262144) e.2) x
    else x
  let x := ((x.setReg (tapReg 0) (setBit (x.reg (tapReg 0) &&& 0x4000007F) 31 true)).startCanopy).enterMode s.mode s.tap.heldMode
  let x := if x.rf (trunkReg 0x8004) 1 0 = 3 then (x.setRf (trunkReg 0x8004) 1 0 2).setRb (trunkReg 0x8004) 31 true else x
  let x := (List.range 36).foldl (fun (x : Dev) n => if portPresent x.variant n && x.portPowered n then x.portStart n else x) x
  (((((x.wakePins).raiseHeld).wakeRecords s.tap.rise.1).rngStart boot.entropyOk).bridgeUp).ballot

/-- A wake from HIBERNATE, or the power-up after OFF: a full boot (R489). -/
def Dev.coldWake (s : Dev) (boot : BootResult) : Dev :=
  let rise := s.tap.rise.1
  if s.mode = 0 then s.coldEpoch boot s.split
  else
    let x := (s.cold boot s.split).onTapState (fun t => { t with validating := s.tap.validating })
    if x.rb (updReg 4) 30 then x else x.wakeRecords rise

/-- PWR_GOOD rises after a wake. What the save region holds concerns a wake that has one. -/
def Dev.powerGood (s : Dev) (restore : RestoreCheck) (boot : BootResult) : Dev :=
  if !s.tap.asleep || !s.tap.waking then s
  else if s.mode ≠ 2 || s.burl.tamperLatch ≠ 0 then s.coldWake boot
  else match restore, s.tap.saved with
    | .good, saved => s.standbyWake boot saved
    | .badMac, false | .readFail, false => s.standbyWake boot false
    | _, _ => (s.coldWake boot).raise 58 2 0x70 0 0x61FF 0

/-- PWR_GOOD_RISE. -/
def execPwrGoodRise (restore : RestoreCheck) (boot : BootResult) (s : State) := s.onTap (·.powerGood restore boot)

/-! ## The ballot's other events -/

/-- BALLOT_VOTE_CHANGE: a write of SRC_CFG.VOTE, taken from the owning origin (R490, R501). -/
def execBallotVoteChange (a : Acc) (k : Fin 64) (ready : Bool) (s : State) := s.onDev (fun d =>
  let r := srcReg k.val 0
  let owner : Bool := match d.rf r 30 28 with
    | 0 => a.origin.val = 1 + d.rf r 20 20
    | 1 => 3 ≤ a.origin.val && a.origin.val ≤ 6
    | _ => true
  if !owner then (d.passAccess a r true true [] []).1
  else d.writeField a r (setBit (d.reg r) 27 ready) (fun d => (d.setRb r 27 ready).ballot))

/-- NM_TIMER_EXPIRY (R490). -/
def execNmTimerExpiry (k : Fin 64) (s : State) := s.onDev (fun d =>
  match d.tap.nm.get none k.val with
  | none => d
  | some t => if d.now < t + d.rf (srcReg k.val 0) 15 0 * msRaw then d
    else (d.onTapState (fun t => { t with nm := t.nm.put none k.val none })).ballot)

/-- BALLOT_DELAY_EXPIRY. -/
def execBallotDelayExpiry (s : State) := s.onDev (·.commitPoint)
/-- SLEEP_ACK. -/
def execSleepAck (a : Acc) (s : State) := s.onDev (fun d => d.writeBit a (tapReg 8) 0 (·.sleepAck))
/-- SLEEP_ACK_TIMEOUT. -/
def execSleepAckTimeout (s : State) := s.onDev (·.ackTimeout)
/-- SAVE_DONE. -/
def execSaveDone (s : State) := s.onDev (·.fallAsleep)

/-- BARK_CLEAN (R297, R492): every dirty entry of the connection cache has been written back to its bucket. -/
def execBarkClean (s : State) := s.onDev (fun d => if d.bstate = 1 && d.needsClean then
    { d with bark := { d.bark with cache := d.bark.cache.map (fun e => (e.1, e.2.map (fun l => { l with dirty := false }))) },
             tap := { d.tap with clean := true } } else d)

/-- SAVE_CTL.EN is written (R487). -/
def Dev.saveEnable (s : Dev) (en : Bool) : Dev :=
  let r := s.saveRegion
  if en = s.rb (tapReg 0x80) 31 then s
  else if !en then s.setRb (tapReg 0x80) 31 false
  else if s.xmemReady && r.1 + r.2 ≤ s.xmemSize && !overlaps r s.ovfRegion && !overlaps r s.ctRegion
  then s.setRb (tapReg 0x80) 31 true
  else s.setRb (tapReg 0x80) 30 true

/-- SAVE_ENABLE. -/
def execSaveEnable (a : Acc) (en : Bool) (s : State) := s.onDev (fun d => d.writeEn a (tapReg 0x80) en (·.saveEnable en))

/-- KEEPER_THRESHOLD (R496). -/
def execKeeperThreshold (s : State) := s.onDev (fun d =>
  let th := d.rf (tapReg 0x28) 15 0
  match d.tap.sole with
  | none => d
  | some (k, t) =>
    if th = 0 || d.tap.soleRaised || d.now < t + th * (1000 * msRaw) then d
    else (d.onTapState (fun x => { x with soleRaised := true })).wakeSleep 6 k ((d.now - t) / (1000 * msRaw)))

/-! ## False wakes (R497, R498) -/

/-- FALSE_WAKE, held until the device is awake (R500). -/
def Dev.falseWake (s : Dev) (cause k b : Nat) : Dev := if s.tap.asleep then s.holdRec 61 cause k b else s.raise 61 cause 0x61 0 k b

/-- A false wake of a source counts toward its mask. -/
def Dev.falseWindow (s : Dev) (k : Nat) : Dev :=
  let n := s.rf (tapReg 0x40) 3 0
  if n = 0 then s
  else
    let w := s.rf (tapReg 0x40) 31 16 * (1000 * msRaw)
    let e : Nat × Nat := match s.tap.fwWin.get none k with
      | some (t, c) => if s.now < t + w then (t, c + 1) else (s.now, 1)
      | none => (s.now, 1)
    let s := s.onTapState (fun t => { t with fwWin := t.fwWin.put none k (some e) })
    if e.2 ≥ n && !s.rb (tapReg 0x44) k then (s.setRb (tapReg 0x44) k true).falseWake 2 k s.tick else s

/-- T_VALID_EXPIRY: a wake not confirmed in its window is false, and counts where the device sleeps again as well. -/
def execTValidExpiry (k : Fin 16) (s : State) := s.onAwakeTap (fun d =>
  match d.tap.validating.find? (fun e => e.1 = k.val) with
  | none => d
  | some e =>
    if d.now < e.2 then d
    else
      let r := tapReg (0x200 + 4 * k.val)
      let n := min (d.rf r 15 0 + 1) 0xFFFF
      let d := (d.onTapState (fun t => { t with validating := t.validating.filter (fun x => x.1 ≠ k.val) })).setReg r (BitVec.ofNat 32 n)
      (d.falseWake 1 k.val n).falseWindow k.val)

/-- FW_MASKED_CLEAR: a W1C write. -/
def execFwMaskedClear (a : Acc) (value : BitVec 32) (s : State) := s.onDev (fun d =>
  let p := d.passAccess a (tapReg 0x44) true true [] []
  if p.2 then p.1.setReg (tapReg 0x44) (p.1.reg (tapReg 0x44) &&& ~~~value) else p.1)

/-- FW_CLR: every FALSE_CNT is cleared. -/
def execFwClr (a : Acc) (s : State) := s.onDev (fun d => d.writeBit a (tapReg 0x48) 0 (·.resetRegs (tapReg 0x200) (tapReg 0x240)))

/-! ## The tamper line (R396, R397) -/

/-- TAMPER_LINE: awake, the response of R396; asleep, where the mesh and the temperature are watched, retained slots are zeroised, the
source is latched and PWR_REQ rises, at the end of PWR_OFF_MIN (R494), and the rest is the next boot's (R397). -/
def execTamperLine (src : Fin 5) (s : State) := s.onTap (fun d =>
  if !d.tap.asleep then d.tamper src.val
  else if d.mode = 0 || src.val = 1 || src.val = 2 then d
  else
    let d := (d.zeroise).tamperLatch src.val
    if d.tap.powerLow && d.offLong then d.powerRises else d)

end Sys2Proof.Machine
end

