-- ==== Sys2Proof/Machine/Resets.lean ====
section
/-! DEFINITION. Clock holds and idle stops (R503, R507, R508), the reset pins, supply and clock losses (R257, R513, R514, R572),
and soft resets (R514 to R516). -/
namespace Sys2Proof.Machine

/-! ## Clock holds -/

/-- CLK_HOLD is written: HOLD for the unit the origin's CLK_SEL names. -/
def Dev.clkHold (s : Dev) (a : Acc) (hold : Bool) : Dev :=
  let sel := s.clocks.sel.get 0 a.origin.val
  let c := fld sel 15 8
  let u := fld sel 7 0
  let m := s.clocks.holders.get 0 (256 * c + u)
  let old := leBytes 4 (m.getLsbD a.origin.val).toNat
  let new := leBytes 4 hold.toNat
  let p := s.passAccess a 0x4C true true old new
  if !p.2 then p.1
  else
    let s := p.1.log a.origin kRegister 0 0 0 0x4C old new
    if !unitPresent s.variant s.split c u then s
    else
      let m := if hold then m ||| ((1 : BitVec 11) <<< a.origin.val) else m &&& ~~~((1 : BitVec 11) <<< a.origin.val)
      let s := { s with clocks := { s.clocks with holders := s.clocks.holders.put 0 (256 * c + u) m } }
      if !hold then s else if u = 0xFF then s.demandCluster c else s.demand c u

/-- CLK_HOLD. -/
def execClkHold (a : Acc) (hold : Bool) (s : State) := s.onDev (·.clkHold a hold)

/-- A number put into a rising list. -/
def insertUp (n : Nat) : List Nat → List Nat
  | [] => [n]
  | k :: r => if n < k then n :: k :: r else if n = k then k :: r else k :: insertUp n r

/-- A unit without demand for CLK_IDLE stops its branch. -/
def Dev.clkIdle (s : Dev) (c u : Nat) : Dev :=
  if u = 0xFF || !unitPresent s.variant s.split c u || !s.unitPowered c u || !s.gateable c u || s.holders c u ≠ 0 || s.rf 0x50 19 0 = 0 then s
  else { s with clocks := { s.clocks with stopped := insertUp (256 * c + u) s.clocks.stopped } }

/-- CLK_IDLE_EXPIRY. -/
def execClkIdleExpiry (cluster unit : BitVec 8) (s : State) := s.onDev (·.clkIdle cluster.toNat unit.toNat)

/-! ## Reset pins, supplies and the reference clock -/

/-- A reset of the main die in SAFE lowers the line that tells Heartwood; the second it happens in has seen the line high (R419). -/
def State.onReset (s : State) (f : Dev → Dev) : Host.Outcome State Fault Refusal :=
  s.onBoth (fun d h => (f d, { h with mainSafe := h.mainSafe || (h.on && d.safe) }))

/-- The cold reset (R513); after a loss of VAON it starts a new epoch (R257). -/
def Dev.porst (s : Dev) (boot : BootResult) (strap : Bool) : Dev :=
  if s.tap.asleep && s.mode = 0 then s.coldEpoch boot strap else s.cold boot strap

/-- The wire MAIN_RST to Heartwood, high while a reset pin is low (R452, R513). -/
def Dev.mainRst (s : Dev) : Dev := (s.pin "MAIN_RST" 1).pin "MAIN_RST" 0

/-- What PORST_N, or what resets as it does, drives while it holds: MAIN_RST high and SAFE_N low (R513, R572, R574). -/
def Dev.porstPins (s : Dev) : Dev := (s.mainRst.pin "SAFE_N" 0).pin "SAFE_N" 1

/-- PORST_N: the strap SPLIT_EN is sampled as the pin rises (R471). -/
def execPorstN (splitStrap : Bool) (boot : BootResult) (s : State) := s.onReset (fun d => d.porstPins.porst boot splitStrap)

/-- WARM_N; while the core is off there is nothing for it to reset. -/
def execWarmN (boot : BootResult) (s : State) := s.onReset (fun d => if d.tap.asleep then d else d.mainRst.warm boot)

/-- BROWNOUT: as PORST_N, with the split mode sampled before. -/
def execBrownout (boot : BootResult) (s : State) := s.onReset (fun d => if d.tap.asleep then d else d.porstPins.cold boot d.split)

/-- REFERENCE_CLOCK_STOP: as PORST_N with VAON held (R572). -/
def execReferenceClockStop (boot : BootResult) (s : State) := s.onReset (fun d => if d.tap.asleep then d else d.porstPins.cold boot d.split)

/-- VAON is lost (R257): the anchor and the always-on flops are gone, and the device is in OFF until it is powered again. -/
def Dev.vaonLost (s : Dev) : Dev :=
  let z := Dev.resetOf s.variant
  let x := s.cleared (fun a _ => regReset s.variant a)
  let x := { x with
    basjo := x.basjo.dropSram
    cam := { z.cam with epochRows := s.cam.epochRows, timeOff := true }
    burl := { x.burl with tamperLatch := 0, tamperAt := 0 }
    tap := { z.tap with asleep := true, waking := true } }
  (((if s.safe || s.rb (updReg 4) 30 then x.pin "SAFE_N" 1 else x).pinsFollow s).setReg (canopyReg 0) (s.reg (canopyReg 0) &&& 3)).setReg 0x20 (BitVec.ofNat 32 (s.mode * 256))

/-- VAON_LOSS. -/
def execVaonLoss (s : State) := s.onReset (·.vaonLost)

/-! ## What a soft reset discards (R516) -/

/-- Discard a frame in reception, and those whose verdict is due. -/
def Dev.dropRx (s : Dev) (p : Nat) : Dev :=
  let gone (s : Dev) (f : RxFrame) : Dev :=
    let s := (s.discard f).endUse (.rx f.no)
    if p < 36 then s.count (portReg p 0x130) else s
  let l := s.endedOf p ++ (s.rxOf p).toList
  l.foldl gone ((s.setRx p none).setEnded p [])

/-- Discard the frames on their way to enqueue that a test names. -/
def Dev.dropPassed (s : Dev) (test : RxFrame → Bool) : Dev :=
  let l := s.passed
  l.foldl (fun (s : Dev) f => if test f then s.discard f else s) { s with passed := l.filter (fun f => !test f) }

/-- Discard the descriptors of a queue that a test names. -/
def Dev.dropQueued (s : Dev) (q : Nat) (test : Desc → Bool) : Dev :=
  ((s.tq q).descs.filter test).foldl (fun (s : Dev) d => s.dropDesc q d) s

/-- Discard every frame queued to Canopy and to P39. -/
def Dev.dropSlow (s : Dev) : Dev :=
  let l := s.slowq.flatMap (fun e => e.2) ++ s.decap
  l.foldl (fun (s : Dev) id => (s.giveDesc).release id) { s with slowq := [], decap := [] }

/-- A record that a soft reset drops takes the SEQ it would have had on each queue its class goes to, and leaves a gap there (R76, R516). -/
def Basjo.skipRec (b : Basjo) (h cls : Nat) : Basjo :=
  let route := b.reg (hostReg h (0x100 + 4 * cls))
  let n := fld route 6 0
  if !bit route 31 then b
  else if bit route 30 then
    let k := 4 * h + fld route 9 8
    { b with pops := b.pops.put .idle k { b.pops.get .idle k with seq := (b.pops.get .idle k).seq + 1 } }
  else if b.ringEnabled h n && b.ringType h n = 4 then b.setRing h n { b.ring h n with seq := (b.ring h n).seq + 1 } else b

/-- The class, the cluster and the unit a key of R73 counts. -/
def rateClass (key : Nat) : Nat := key / 2 ^ 58
def rateUnit (key : Nat) : Nat × Nat := (key / 2 ^ 40 % 256, key / 2 ^ 32 % 256)

/-- Events counted and not yet raised are dropped; those of classes 0 to 7 concern the host port of their unit alone. -/
def Dev.dropEvents (s : Dev) (c u : Nat) : Dev :=
  let hit (e : Nat × RateRec) : Bool := (rateUnit e.1).1 = c && (u = 0xFF || (rateUnit e.1).2 = u)
  s.onBasjo (fun b =>
    let gone := b.rate.filter (fun e => hit e && e.2.count ≠ 0)
    let b := gone.foldl (fun (b : Basjo) e =>
      ((hostPorts s.variant).filter (fun h => 8 ≤ rateClass e.1 || h = (rateUnit e.1).2)).foldl (fun b h => b.skipRec h (rateClass e.1)) b) b
    { b with rate := b.rate.filterMap (fun (e : Nat × RateRec) =>
      let x := if hit e then { e.2 with count := 0 } else e.2
      if x = .idle then none else some (e.1, x)) })

/-! ## The registers in the scope of a soft reset -/

/-- The unit a counter of a Grove or of the Trunk belongs to, where its address alone does not tell (DESIGN CHOICE, log entry 39). -/
def counterUnit (a : Nat) : Option Nat :=
  match blockOf a with
  | some 3 | some 4 | some 5 | some 6 =>
    let o := a % 0x40000
    if 0x100 ≤ o ∧ o < 0x110 then some 16 else if o = 0x238 then some 20 else if 0x210 ≤ o ∧ o < 0x244 then some 17
    else if 0x1008 ≤ o ∧ o < 0x1100 ∧ 8 ≤ o % 0x10 then some 19 else none
  | some 7 =>
    let o := a % 0x40
    if a = 0x300048 ∨ (0x30100C ≤ a ∧ a < 0x301500 ∧ a % 0x20 = 0xC) then some 0
    else if 0x310000 ≤ a ∧ a < 0x315800 then (if o = 0x2C ∨ o = 0x30 then some 3 else if o = 0x34 ∨ o = 0x3C then some 2
      else if 0x18 ≤ o ∧ o < 0x2C then some 1 else none)
    else none
  | _ => none

/-- Whether an address belongs to the target. -/
def inScope (c u a : Nat) : Bool := let x := unitOf a; x.1 = c && (u = 0xFF || (counterUnit a).getD x.2 = u)

/-- Registers that show what a soft reset keeps: gauges and live levels, the state of the port's link, the version slots, serving
units, the connection table, time, keys, images, semaphores and the temperature. -/
def softKeeps (a : Nat) : Bool :=
  match blockOf a with
  | some 1 => a % 0x10000 = 4
  | some 2 => a < 0x124000 && a % 0x1000 = 4
  | some 3 | some 4 | some 5 | some 6 => [0, 0x200, 0x204].contains (a % 0x40000) || (0x220200 ≤ a && a < 0x220280)
  | some 7 => a < 0x30000C || a = 0x30003C || (0x308000 ≤ a && a < 0x30800C)
      || (0x301000 ≤ a && a < 0x301500 && [8, 0x10].contains (a % 0x20)) || (0x310000 ≤ a && [8, 0xC, 0x10, 0x14, 0x38].contains (a % 0x40))
  | some 9 => timeRegs a
  | some 10 => [4, 0x14, 0x18].contains (a - 0x400000) || 0x40C000 ≤ a && a < 0x410000
  | some 12 => keyRegs a || a = 0x500000
  | some 14 => [4, 0x2C].contains (a - 0x5F0000) || (0x5F0100 ≤ a && a < 0x5F0140)
  | some 17 => a = 0x700010
  | some 18 => true
  | some 19 => imageRegs a
  | _ => false

/-- The settings a soft reset of Cambium resets with the rest: captures, pulses and egress timestamps (R256). -/
def softWhole (a : Nat) : Bool := 0x380300 ≤ a && a < 0x380520

/-- The registers of the target after its reset (R514). -/
def Dev.softRegs (s : Dev) (c u : Nat) : Dev :=
  let f (v : Variant) (a : Nat) (x : Word) : Word :=
    if !inScope c u a || softKeeps a then x else if softWhole a then regReset v a else cfgOnly v a x
  { s with regs := mapRegs s.variant (f s.variant) s.regs }

/-! ## Cluster by cluster -/

/-- A host port: its rings, queues and counts return to reset; rings that stay enabled are active again. The ring that carries the
command keeps its indices. -/
def Dev.softHost (s : Dev) (h : Nat) (d : CmdDesc) : Dev :=
  let s := match s.chosenRing h with
    | some (x, _, _) => ({ s with crown := { s.crown with tx := s.crown.tx.put none (36 + h) none } } : Dev).release x.frame
    | none => s
  let own := if d.host.val = h then some d.ring.val else none
  s.onBasjo (fun b =>
    let mine (a : Nat) : Bool := match own with | some r => a = ringReg h r 0x14 || a = ringReg h r 0x18 || a = ringReg h r 0x1C | none => false
    let regs := mapRegs .m (fun a x => if !(hostReg h 0 ≤ a && a < hostReg h 0x10000) || softKeeps a || mine a then x else cfgOnly .m a x) b.regs
    let b := { b with
      regs := regs
      rings := b.rings.keep (fun k _ => k / 128 ≠ h || own = some (k % 128))
      pops := b.pops.keep (fun k _ => k / 4 ≠ h)
      vecs := b.vecs.filterMap (fun (e : Nat × Vector) =>
        let x := if e.1 / 64 = h then { e.2 with pending := false, count := 0, since := 0 } else e.2
        if x = .idle then none else some (e.1, x))
      dead := b.dead.put false h false }
    (List.range 128).foldl (fun (b : Basjo) r => if b.ringEnabled h r && b.rb (hostReg h 0) 0 then b.setActive h r true else b) b)

/-- A port: reception is aborted, its counters clear, and an enabled port starts again under R88; a frame being sent goes on. -/
def Dev.softPort (s : Dev) (n : Nat) : Dev :=
  if !portPresent s.variant n then s
  else
    let s := ((s.abortAll n).setRb (portReg n 4) 4 false).setRb (portReg n 4) 7 false
    let s := (s.softRegs 2 n).setPort n { PortRun.idle with lockAt := s.now }
    if s.portEn n && s.portPowered n then s.portUpFrom n else s

/-- A Grove: the frames it holds, its policers, its meters' counts and its learning messages. -/
def Dev.softGrove (s : Dev) (g u : Nat) : Dev :=
  let all : Bool := u = 0xFF
  -- a walk is one step of the model: an engine holds no frame between two commands (log entry 39)
  let s := if all || u = 16 then
      ((List.range 40).foldl (fun (s : Dev) p => if s.owner p = g then s.dropRx p else s) s).dropPassed (fun f => f.grove = g) else s
  let s := if all || u = 18 then
      { s with groves := { s.groves with meterRuns := s.groves.meterRuns.filterMap (fun (e : Nat × MeterRun) =>
        if e.1 / 16384 ≠ g then some e
        else
          let m := s.meter (e.1 % 16384)
          some (e.1, ⟨m.cbs * octetUnits, m.pbs * octetUnits, s.now, 0, 0, 0⟩)) } } else s
  let s := if all || u = 19 then (List.range 16).foldl (fun (s : Dev) c => s.slowFill g c) s else s
  let s := if all || u = 20 then s.setOutgoing g [] else s
  s.softRegs (0x10 + g) u

/-- The Trunk: every frame it stores, or those of the overflow path, or those held in the resequencers. -/
def Dev.softTrunk (s : Dev) (u : Nat) : Dev :=
  let test (s : Dev) (q : Nat) (d : Desc) : Bool :=
    if u = 2 then d.loc ≠ .chip else if u = 3 then d.filled && d.loc = .chip && d.seq ≠ s.nextSeq q else true
  let s := (List.range 352).foldl (fun (s : Dev) q => s.dropQueued q (test s q)) s
  let s := if u = 2 || u = 3 then s
    else (((List.range 40).foldl (fun (s : Dev) p => s.dropRx p) s).dropPassed (fun _ => true)).dropSlow
  s.softRegs 0x20 u

/-- A queue set of Crown: the frames queued to the port, its shapers, gate lists and samples. -/
def Dev.softCrown (s : Dev) (n : Nat) : Dev :=
  if !portPresent s.variant n then s
  else
    let s := (portQueues n).foldl (fun (s : Dev) q => s.dropQueued q (fun _ => true)) s
    let mine (q : Nat) : Bool := (portQueues n).contains q
    let s := { s with crown := { s.crown with
      queues := s.crown.queues.keep (fun q _ => !mine q), vtime := s.crown.vtime.put 0 n 0,
      gates := s.crown.gates.put .idle n .idle, hist := s.crown.hist.keep (fun q _ => !mine q) } }
    let s := s.softRegs 0x21 n
    let s := (portQueues n).foldl (fun (s : Dev) q => if s.shaperMode q = 2 then s.setCq q { s.cqState q with upd := s.now } else s) s
    if n < 36 then s.gateApply n else s

/-- Cambium: captures, pulses, egress timestamps. -/
def Dev.softCambium (s : Dev) (u : Nat) : Dev :=
  let all : Bool := u = 0xFF
  let s := (List.range 4).foldl (fun (s : Dev) k =>
    if !(all || u = 8 + k) then s
    else
      let s := match s.pps k with | some (_, true) => s.ppsPin k false | _ => s
      s.setPps k none) s
  let s := (List.range 4).foldl (fun (s : Dev) k =>
    if all || u = 4 + k then s.onCam (fun c => { c with capLast := c.capLast.put none k none }) else s) s
  s.softRegs 0x22 u

/-- The connection cache is reset: the entries that stand in it alone are lost, those of external memory stay (R514; DESIGN CHOICE, log
entry 39). -/
def Dev.loseCache (s : Dev) : Dev :=
  (s.connSlots.filter (fun i => !s.tableMode || (s.cacheSet i).any (fun l => l.has i && l.dirty))).foldl (fun (s : Dev) i => match s.conn i with
    | some c => (s.setConn i none).connGauge c false
    | none => s) s

/-- Bark: limiters at their BURST, windows and logs empty, frames that wait for a bucket. -/
def Dev.softBark (s : Dev) (u : Nat) : Dev :=
  let all : Bool := u = 0xFF
  let s := if all || u = 0 then { s with bark := { s.bark with limits := [], logs := [], anomaly := [] } } else s
  let s := if all || u = 1 then
      (({ s.loseCache with bark := { s.loseCache.bark with cache := [] } } : Dev).dropPassed (fun f => f.waiting)) else s
  let s := if all || u = 1 then (List.range 40).foldl (fun (s : Dev) p =>
      match s.rxOf p with | some f => if f.waiting then s.dropRx p else s | none => s) s else s
  let s := if all || u = 3 then { s with bark := { s.bark with canWin := [] } } else s
  s.softRegs 0x30 u

/-- Roots: a CAN or LIN channel, the routing table, the encapsulator; authenticated entries stay (R348). -/
def Dev.softRoots (s : Dev) (u : Nat) : Dev :=
  let all : Bool := u = 0xFF
  let can (k : Nat) : Bool := all || u = k
  let lin (k : Nat) : Bool := all || u = 32 + k
  let s := s.onRoots (fun r => { r with
    canq := r.canq.keep (fun k _ => !can k), errs := r.errs.keep (fun k _ => !can k), lin := r.lin.keep (fun k _ => !lin k),
    routes := if all || u = 64 then [] else r.routes,
    batches := if all || u = 65 then [] else r.batches, closed := if all || u = 65 then [] else r.closed })
  s.softRegs 0x31 u

/-- The frames in reception that a cipher pipe holds are aborted (R516); SOFT_RESET has waited for a job (R515). -/
def Dev.softPipes (s : Dev) : Dev :=
  (List.range 36).foldl (fun (s : Dev) p =>
    match s.rxOf p with | some f => (match f.sec with | .pass .. => s.dropRx p | _ => s) | none => s) s

/-- Burl: frames and jobs in its pipes, the MACsec tables; the key store stays. The generator's start-up tests run again: whether
they pass is not the model's to say. -/
def Dev.softBurl (s : Dev) (u : Nat) : Dev :=
  let all : Bool := u = 0xFF
  let s := if all || u < 7 || u = 34 then s.softPipes else s
  let s := if all || u = 34 then
      { s with burl := { s.burl with scs := [], sas := [], clears := [] } } else s
  let s := if all || u = 33 then
      let ok := (Config.freeValue (1000 + s.draws)).getLsbD 0
      ({ s with draws := s.draws + 1 } : Dev).rngStart ok else s
  s.softRegs 0x40 u

/-- RAS: every unit's counts return to zero; what is retired stays so. -/
def softUnits (l : Store RasUnit) : Store RasUnit :=
  l.filterMap (fun (e : Nat × RasUnit) =>
    let x := { RasUnit.idle with retired := e.2.retired, other := e.2.other }
    if x = .idle then none else some (e.1, x))
def Dev.onRas (s : Dev) (f : Ras → Ras) : Dev := { s with ras := f s.ras }

/-- The target is reset (R514 to R516). -/
def Dev.softTarget (s : Dev) (d : CmdDesc) (c u : Nat) : Dev :=
  let all : Bool := u = 0xFF
  let s := if all then s.demandCluster c else s.demand c u
  let s :=
    if c = 1 then (hostPorts s.variant).foldl (fun (s : Dev) h => if all || u = h then s.softHost h d else s) s
    else if c = 2 then
      (List.range 36).foldl (fun (s : Dev) n => if all || u = n then s.softPort n else s)
        ((List.range 4).foldl (fun (s : Dev) m => if all || u = 40 + m then s.softRegs 2 (40 + m) else s) s)
    else if 0x10 ≤ c ∧ c < 0x14 then s.softGrove (c - 0x10) u
    else if c = 0x20 then s.softTrunk u
    else if c = 0x21 then (List.range 38).foldl (fun (s : Dev) n => if all || u = n then s.softCrown n else s) s
    else if c = 0x22 then s.softCambium u
    else if c = 0x30 then s.softBark u
    else if c = 0x31 then s.softRoots u
    else if c = 0x40 then s.softBurl u
    else if c = 0x51 then ((s.onSap (fun x => { x with queue := [], timeouts := 0, last := none, failed := 0 })).softRegs c u).bridgeUp
    else if c = 0x70 then ((s.onRas (fun r => { r with units := softUnits r.units, banks := [], rows := [] })).softRegs c u).quietPorts
    else s.softRegs c u
  s.dropEvents c u

/-- A command runs on the target (R515): SOFT_RESET waits behind it. -/
def Dev.softBusy (s : Dev) (d : CmdDesc) : Bool :=
  let c := fld d.p8 15 8
  let u := fld d.p8 7 0
  s.runningCmds.any (fun e => e.2.2.desc.cl = c && (u = 0xFF || e.2.2.desc.un = u || e.2.2.desc.un = 0xFF))

/-- The first check of its own that SOFT_RESET fails. -/
def Dev.softFault (s : Dev) (d : CmdDesc) : Option Nat :=
  let c := fld d.p8 15 8
  let u := fld d.p8 7 0
  if !unitPresent s.variant s.split c u then some stNotPresent
  else if [0, 0x61, 0x50, 0x60].contains c || (c = 0x22 && u = 0) then some stBadParam
  else if s.safe then some stWrongMode
  else none

/-- SOFT_RESET's own part. -/
def Dev.softReset (s : Dev) (d : CmdDesc) : CmdRes :=
  match s.softFault d with
  | some c => .fail s c
  | none => .done (s.softTarget d (fld d.p8 15 8) (fld d.p8 7 0)) stOk 0 0

/-- Whether SOFT_RESET waits: it meets no check, and its target is busy (R515). -/
def Dev.softWaits (s : Dev) (d : CmdDesc) : Bool :=
  s.softBusy d && (s.softFault d).isNone && (s.cmdCheck d (d.op = 3) [0xFFFF, 0, 0, 0, 0]).isNone
    && s.basjo.ringEnabled d.host.val d.ring.val && s.basjo.rb (hostReg d.host.val 0) 0

/-- SOFT_RESET. -/
def execSoftReset (d : CmdDesc) (s : State) := s.onDev (fun x =>
  if x.softWaits d then x else x.command d (isOne 0) (isOne 0) 3 [0xFFFF, 0, 0, 0, 0] (some kCommand) (·.softReset d))

end Sys2Proof.Machine
end

