-- ==== Sys2Proof/Machine/RegWrite.lean ====
section
/-! DEFINITION. Writes of registers whose fields have no command of their own (R504), and of table words (R17). -/
namespace Sys2Proof.Machine

/-! ## Register stores -/

/-- A register of any block. -/
def Dev.anyReg (s : Dev) (a : Nat) : Word := if blockOf a = some 1 then s.basjo.reg a else s.reg a

/-- Store a register of any block. -/
def Dev.setAnyReg (s : Dev) (a : Nat) (v : Word) : Dev := if blockOf a = some 1 then s.onBasjo (·.setReg a v) else s.setReg a v

/-! ## The value a write leaves -/

/-- The registers that hold a port bitmap: its low word, and its high word (R13). -/
def portMapLow (a : Nat) : Bool :=
  [0x221014, 0x22101C, 0x221024, 0x380500, 0x680050, 0x680064, 0x700208, 0x800100].contains a
    || (0x680100 ≤ a && a < 0x680200 && a % 0x20 = 0xC)
def portMapHigh (a : Nat) : Bool := 4 ≤ a && portMapLow (a - 4)

/-- The wake sources the variant has (R482): the T1S receivers of absent ports and, without Heartwood, its edge detector are absent. -/
def wakeSources (v : Variant) : Nat :=
  (List.range 18).foldl (fun n k =>
    if (8 ≤ k && k < 16 && !portPresent v (20 + k)) || (k = 16 && !heartPresent v) then n else n + 2 ^ k) 0

/-- The bits a register of a bitmap may hold. -/
def presentBits (v : Variant) (a : Nat) : Word :=
  if a = tapReg 0x30 then BitVec.ofNat 32 (wakeSources v)
  else if portMapLow a then BitVec.ofNat 32 (presentPorts v) else if portMapHigh a then BitVec.ofNat 32 (presentPorts v / 2 ^ 32) else 0xFFFFFFFF

/-- The bits of a port's registers that are locked while it is enabled or drains (R87). -/
def Dev.lockedPort (s : Dev) (n off : Nat) : Nat :=
  if n ≥ 36 || !(s.portEn n || s.draining n) then 0
  else if off = 0 then 0x000F0000 else if [8, 0x30, 0x34].contains off then full32 else 0

/-- The bits of a ring's registers that are locked while ENABLE or ACTIVE is 1 (R56). -/
def Dev.lockedRing (s : Dev) (h r off : Nat) : Nat :=
  if !(s.basjo.ringEnabled h r || s.basjo.ringActive h r) then 0
  else if off < 0x10 then full32 else if off = 0x10 then 0x001F0007 else 0

/-- The bits of a CAN channel's registers that are locked while EN is 1 (R318), and those SAFE holds (R520). -/
def Dev.lockedCan (s : Dev) (n off : Nat) : Nat :=
  (if !s.rb (canReg n 0) 31 then 0
    else if off = 0 then 0x60000000 else if [0x10, 0x14, 0x18, 0x1C, 0x20].contains off then full32 else 0)
    ||| (if s.safe && off = 0 then 0x12000000 else 0)

/-- The bits of a LIN channel's registers that are locked: the table in use and its length (R327), and XCVR_EN in SAFE. -/
def Dev.lockedLin (s : Dev) (l off : Nat) : Nat :=
  let t := s.rf (linReg l 4) 0 0
  let used := s.rb (linReg l 8) 31
  if off = 0 then (if s.safe then 0x20000000 else 0)
  else if off = 8 then (if used then (if t = 0 then 0x00007F00 else 0x007F0000) else 0)
  else if 0x100 + 0x100 * t ≤ off ∧ off < 0x200 + 0x100 * t ∧ used then full32 else 0

/-- Whether a write meets a gate list's administrative registers while a change is pending (R242). -/
def Dev.adminHeld (s : Dev) (a : Nat) : Bool :=
  let n := (a - 0x340000) / 0x1000
  0x340000 ≤ a && n < 36 && 0x18 ≤ a % 0x1000 && a % 0x1000 < 0x30 && (s.gate n).pending.isSome

/-- The bits of a register whose writes are ignored at present. -/
def Dev.locked (s : Dev) (a : Nat) : Nat :=
  match blockOf a with
  | some 1 =>
    let h := (a - 0x10000) / 0x10000
    let o := a % 0x10000
    if 0x1000 ≤ o ∧ o < 0x3000 then s.lockedRing h ((o - 0x1000) / 0x40) (o % 0x40) else 0
  | some 2 => s.lockedPort ((a - 0x100000) / 0x1000) (a % 0x1000)
  | some 7 =>
    let ovf := s.rb (trunkReg 0x30) 31 || s.rf (trunkReg 0x3C) 22 0 ≠ 0
    if ovf && a = trunkReg 0x30 then 0x7FF else if ovf && (a = trunkReg 0x34 || a = trunkReg 0x38) then full32
    else if s.rb (trunkReg 0x8000) 31 && a = trunkReg 0x8000 then 0x771 else 0
  | some 9 => if 0x380404 ≤ a ∧ a < 0x380480 ∧ 4 ≤ a % 0x20 ∧ s.rb (a - a % 0x20) 31 = true then full32 else 0
  | some 10 => if !s.rb (barkReg 0) 31 then 0 else if a = barkReg 0 then 0x001F0000 else if a = barkReg 8 || a = barkReg 0xC then full32 else 0
  | some 11 =>
    if a < 0x48C000 then s.lockedCan ((a - 0x480000) / 0x800) (a % 0x800)
    else if 0x490000 ≤ a ∧ a < 0x494000 then s.lockedLin ((a - 0x490000) / 0x400) (a % 0x400)
    else if a = rootsReg 0 ∧ s.reg (rootsReg 4) ≠ 0 then full32 else 0
  | some 15 =>
    let base := a - a % 0x40
    if (0x601000 ≤ a ∧ a < 0x601400 ∨ 0x602000 ≤ a ∧ a < 0x602100) ∧ s.rb base 31 = true then
      (if a % 0x40 = 0 then 0x001F0000 else if a % 0x40 < 0xC then full32 else 0) else 0
  | some 16 => if (a = tapReg 0x84 ∨ a = tapReg 0x88) ∧ s.rb (tapReg 0x80) 31 = true then full32 else 0
  | _ => 0

/-- The value REGISTER_WRITE leaves in the RW fields: a field written outside its range keeps its value, and so does a locked one;
absent ports' bits clear. -/
def Dev.writtenValue (s : Dev) (r : RegRow) (a : Nat) (v : Word) : Word :=
  let old := s.anyReg a
  let rw := BitVec.ofNat 32 (r.rw &&& (full32 - s.locked a))
  let new := (old &&& ~~~rw) ||| (v &&& rw &&& presentBits s.variant a)
  let new := r.ranges.foldl (fun (w : Word) (f : Nat × Nat × Nat × Nat) =>
    if fld w f.1 f.2.1 < f.2.2.1 ∨ f.2.2.2 < fld w f.1 f.2.1 then setFld w f.1 f.2.1 (fld old f.1 f.2.1) else w) new
  if r.name = "MDIO_CTL" then (if fld new 7 0 < 3 then setFld new 7 0 3 else new)
  else if r.name = "SRC_CFG" then
    (if [2, 3, 4].contains (fld new 30 28) && fld new 15 0 = 0 then setFld new 15 0 (fld old 15 0) else new)
  else if a = 0x50 then (if fld new 19 0 = 0 ∨ (100 ≤ fld new 19 0 ∧ fld new 19 0 ≤ 1000000) then new else old)
  else if r.name = "CAN_CTL" then (if bit new 29 && !bit new 30 && !bit old 29 then setBit new 29 false else new)
  else if r.name = "MACSEC_CTL" then
    (if bit new 31 && !bit old 31 && (s.txSc ((a - 0x501000) / 0x40)).isNone then setBit new 31 false else new)
  else new

/-! ## What a write does beside its store -/

/-- What happens before the store: OFF is taken as it stands before its slew changes, and a gate list machine that is switched off
stops (R242). -/
def Dev.beforeWrite (s : Dev) (a : Nat) (new : Word) : Dev :=
  if a = camReg 0x208 then s.setOff (s.offAt s.now)
  else if 0x340000 ≤ a ∧ a < 0x364000 ∧ a % 0x1000 = 0x10 ∧ bit new 31 = false then s.gateDisable ((a - 0x340000) / 0x1000)
  else s

/-- A host port's rings run, or drain, with RINGS_EN (R49, R56). -/
def Dev.ringsEnabled (s : Dev) (h : Nat) : Dev :=
  s.onBasjo (fun b => (List.range 128).foldl (fun (b : Basjo) r =>
    if b.ringEnabled h r && !(b.ring h r).stopped then b.setActive h r true else b) b)

/-- A Canopy ring starts: its indices and its state start at zero (R473, R474). -/
def Dev.sramRing (s : Dev) (base r : Nat) : Dev :=
  ((s.setReg (base + 0xC) 0).setReg (base + 0x10) 0).onBasjo (fun b => b.setRing 2 r .idle)

/-- The effects of a stored value: `old` and `new` are the register before and after, `v` the value written. -/
def Dev.afterWrite (s : Dev) (was : Dev) (a : Nat) (old new v : Word) : Dev :=
  let rises (i : Nat) : Bool := bit new i && !bit old i
  match blockOf a with
  | some 1 =>
    let h := (a - 0x10000) / 0x10000
    if a % 0x10000 = 0 then (if rises 0 then s.ringsEnabled h else s).noteEligible (36 + h)
    else if 0x300 ≤ a % 0x10000 ∧ a % 0x10000 < 0x380 then (s.unchoose h).noteEligible (36 + h)
    else s
  | some 2 =>
    let n := (a - 0x100000) / 0x1000
    if n < 36 ∧ a % 0x1000 = 0x20 then
      (if bit new 29 = bit old 29 then s else s.setRf (portReg n 0x24) 2 0 (bit new 29).toNat).preemptUpdate n
    else s
  | some 3 | some 4 | some 5 | some 6 =>
    let o := a % 0x40000
    if 0x1000 ≤ o ∧ o < 0x1100 then s.slowFill ((a - 0x200000) / 0x40000) ((o - 0x1000) / 0x10) else s
  | some 7 => if a = trunkReg 0x10 || a = trunkReg 0x14 || a = trunkReg 0x18 then s.pressure else s
  | some 8 =>
    if a < 0x364000 ∧ a % 0x1000 = 0x10 then s.gateApply ((a - 0x340000) / 0x1000)
    else if a < 0x366000 ∧ a % 0x1000 = 0x50 ∧ rises 31 then s.clearSamples ((a - 0x340000) / 0x1000)
    else s
  | some 9 =>
    if a = camReg 0x210 then s.bothLostFall
    else if a = domReg 0 0 && rises 30 then s.syncTimer 0 false
    else if a = domReg 1 0 && rises 30 then s.syncTimer 1 false
    else s
  | some 11 =>
    if a < 0x48C000 ∧ a % 0x800 = 0 then
      let n := (a - 0x480000) / 0x800
      let s := if bit new 27 then s.boRecover n else s
      if !s.canPowered n || bit new 25 = bit old 25 || (s.redListen n && (s.canEnding n).isNone) then s else s.pin "CAN_STB" (2 * n + (bit new 25).toNat)
    else if 0x490000 ≤ a ∧ a < 0x494000 ∧ a % 0x400 = 0 then
      let l := (a - 0x490000) / 0x400
      if !s.linPowered l || bit new 29 = bit old 29 then s else s.pin "LIN_EN" (2 * l + (bit new 29).toNat)
    else s
  | some 12 =>
    if 0x501000 ≤ a ∧ a < 0x501900 ∧ a % 0x40 = 0 ∧ bit v 31 = true ∧ bit new 31 = false then s.setRb (a + 4) 0 true else s
  | some 14 =>
    if a = sapReg 0x20 then s.pin "IRQ_M2H" (new.toNat % 128)
    else if a = sapReg 0x28 then -- a bit that rises over a pending edge interrupts (R453)
      (List.range 8).foldl (fun (s : Dev) n => if rises n && bit (s.reg (sapReg 0x24)) n then s.canopyIrq "CANOPY_SAPWOOD" n else s) s
    else s
  | some 15 =>
    if !rises 31 then s
    else if 0x600100 ≤ a ∧ a < 0x6001C0 ∧ a % 0x40 = 8 then s.kick ((a - 0x600100) / 0x40)
    else if 0x600200 ≤ a ∧ a < 0x600280 ∧ a % 0x20 = 0 then s.kick (3 + (a - 0x600200) / 0x20)
    else if 0x601000 ≤ a ∧ a < 0x601400 ∧ a % 0x40 = 0 then s.sramRing a (8 + (a - 0x601000) / 0x40)
    else if 0x602000 ≤ a ∧ a < 0x602100 ∧ a % 0x40 = 0 then s.sramRing a ((a - 0x602000) / 0x40)
    else s
  | some 16 =>
    if a = tapReg 4 then
      (if fld new 17 16 = fld old 17 16 then s else { s with tap := { s.tap with clean := false } }).ballot
    else if (0x680400 ≤ a && a < 0x680800) then s.ballot
    else if 0x680060 ≤ a ∧ a < 0x680074 ∧ s.mode = 3 then s.powerDiff was
    else s
  | some 17 =>
    if a = rasReg 0x200 then
      ((if rises 31 then ({ s with ras := { s.ras with edgeAt := s.now, frameAt := s.now } } : Dev) else s).quietPorts).redCan was
    else if a = rasReg 0x210 then s.redCan was
    else if a = rasReg 4 || a = rasReg 0x208 || a = rasReg 0x20C then s.quietPorts
    else s
  | _ => s

/-! ## Register writes -/

/-- The W1S bits a register has beside those with a command of their own: CNT_CLR of a CAN or a LIN channel. -/
def RegRow.strobes (r : RegRow) : Nat := if r.name = "CAN_CTL" then 0x01000000 else if r.name = "LIN_CTL" then 0x10000000 else 0

/-- The write-1-to-clear bits of a register clear, and CNT_CLR clears a channel's counters. -/
def Dev.clearBits (s : Dev) (r : RegRow) (a : Nat) (v : Word) : Dev :=
  let s := s.setAnyReg a (s.anyReg a &&& ~~~(v &&& BitVec.ofNat 32 r.w1c))
  if r.name = "CAN_CTL" && bit v 24 then s.resetRegs (a + 0x100) (a + 0x120)
  else if r.name = "LIN_CTL" && bit v 28 then s.resetRegs (a + 0x300) (a + 0x318)
  else s

/-- The part of a write that acts in the domain of its unit (R504): it waits where the clock is stopped, and is lost on an unpowered
unit. -/
def Dev.clearPart (s : Dev) (acc : Acc) (r : RegRow) (a : Nat) (v : Word) : Dev :=
  let cu := unitOf a
  if v &&& BitVec.ofNat 32 (r.w1c ||| r.strobes) = 0 || !s.unitPowered cu.1 cu.2 then s
  else if s.clockOff cu.1 cu.2 then s.hold ⟨acc, a, some v, 0, false, cu.1, cu.2⟩
  else s.clearBits r a v

/-- The RW part of an accepted write, logged before it takes effect. -/
def Dev.storePart (s : Dev) (acc : Acc) (r : RegRow) (a : Nat) (v : Word) : Dev :=
  if r.rw = 0 then s
  else
    let cu := unitOf a
    let old := s.anyReg a
    let new := s.writtenValue r a v
    let x := s.log acc.origin kRegister cu.1 cu.2 0 a (leBytes 4 old.toNat) (leBytes 4 new.toNat)
    ((x.beforeWrite a new).setAnyReg a new).afterWrite s a old new v

/-- An access that does not wait is demand for its unit (R503); one that waits is, as it completes. -/
def Dev.demandAccess (s was : Dev) (a : Nat) : Dev :=
  let cu := unitOf a
  if s.clocks.held = was.clocks.held then s.demand cu.1 cu.2 else s

/-- CLK_SEL, of which each origin has its own copy (R507). -/
def Dev.writeClkSel (s : Dev) (acc : Acc) (v : Word) : Dev :=
  let o := acc.origin.val
  let old := leBytes 4 (s.clocks.sel.get 0 o).toNat
  let new := leBytes 4 (fld v 15 0)
  let p := s.passAccess acc 0x44 true true old new
  if !p.2 then p.1
  else
    let s := p.1.log acc.origin kRegister 0 0 0 0x44 old new
    { s with clocks := { s.clocks with sel := s.clocks.sel.put 0 o (BitVec.ofNat 16 (fld v 15 0)) } }

/-- A write of a register. -/
def Dev.writeReg (s : Dev) (acc : Acc) (a : Nat) (v : Word) : Dev :=
  if a = 0x44 then s.writeClkSel acc v
  else
    let old := leBytes 4 (s.anyReg a).toNat
    let p := s.passAccess acc a (regRow a).isSome true old (leBytes 4 v.toNat)
    match p.2, regRow a with
    | true, some r =>
      if p.1.adminHeld a then (p.1.setRb (a - a % 0x1000 + 0x14) 3 true).gateErr ((a - 0x340000) / 0x1000) 3
      else ((p.1.storePart acc r a v).clearPart acc r a v).demandAccess p.1 a
    | _, _ => p.1

/-! ## Table words -/

/-- The bits a table word may hold: the writable ones, without absent ports in a bitmap (R13). -/
def wordBits (v : Variant) (w mask : Nat) : DWord :=
  if (0x210000 ≤ w ∧ w < 0x220000) ∨ (0x230000 ≤ w ∧ w < 0x240000)
  then BitVec.ofNat 64 (mask - mask % 2 ^ 40 + (mask % 2 ^ 40 &&& presentPorts v)) else BitVec.ofNat 64 mask

/-- The fields of a table word with a stated range, as high bit, low bit and greatest value (R315). -/
def wordRanges (w : Nat) : List (Nat × Nat × Nat) :=
  if 0x410000 ≤ w ∧ w < 0x418000 then [(53, 32, 3125000)]
  else if 0x420000 ≤ w ∧ w < 0x440000 ∧ w % 16 = 8 then [(63, 59, 24), (57, 46, 2048), (45, 34, 2048)]
  else if 0x440000 ≤ w ∧ w < 0x441000 ∧ w % 16 = 8 then [(63, 59, 23), (58, 54, 23)]
  else []

/-- A new table word in which each field outside its range keeps its old value. -/
def inRanges (l : List (Nat × Nat × Nat)) (old new : DWord) : DWord :=
  l.foldl (fun x r => if fld new r.1 r.2.1 ≤ r.2.2 then x else setFld x r.1 r.2.1 (fld old r.1 r.2.1)) new

/-- A table word is written whole, fields outside their ranges apart: ignored in the extent of a resident version (R124) and in a bank that waits to be changed
(R242); a rate limiter's bucket then stands at BURST (R290). -/
def Dev.storeWord (s : Dev) (acc : Acc) (w : Nat) (v : DWord) : Dev :=
  match wordMask w with
  | none => s
  | some 0 => s
  | some mask =>
    let cu := unitOf w
    let n := (w - 0x368000) / 0x800
    if 0x1000000 ≤ w ∧ meets s.protectedExtents ((w - 0x1000000) / 8) 1 = true then s.count 0x220004
    else if 0x368000 ≤ w ∧ w < 0x37A000 ∧ (s.gate n).pending.isSome = true then (s.setRb (crownReg n 0x14) 3 true).gateErr n 3
    else
      let old := s.word w
      let new := inRanges (wordRanges w) old (v &&& wordBits s.variant w mask)
      let s := (s.log acc.origin kRegister cu.1 cu.2 0 w (leBytes 8 old.toNat) (leBytes 8 new.toNat)).setWord w new
      if 0x410000 ≤ w ∧ w < 0x418000 then { s with bark := { s.bark with limits := s.bark.limits.put none ((w - 0x410000) / 8) none } } else s

/-- The walk engine whose stopped clock an access to Bough memory waits for (R504): the memory lies in the domain of the engines that walk
it, a write reaching every copy and a read the one PARSE_GLOBAL names (DESIGN CHOICE, log entry 49). -/
def Dev.engineStopped (s : Dev) (l : List Nat) : Option (Nat × Nat) :=
  (l.filter s.grovePowered).findSome? (fun g => ((List.range 9).find? (fun e => s.clockStopped (0x10 + g) e)).map (fun e => (0x10 + g, e)))
def Dev.boughStopped (s : Dev) (w : Nat) : Option (Nat × Nat) := if 0x1000000 ≤ w then s.engineStopped [0, 1, 2, 3] else none

/-- A write of the lower half: held for the origin, and nothing else changes (R17). -/
def Dev.writeLower (s : Dev) (acc : Acc) (w : Nat) (v : Word) : Dev :=
  let p := s.passAccess acc w (wordMask w).isSome false (leBytes 8 (s.word w).toNat) (leBytes 4 v.toNat)
  if !p.2 then p.1 else { p.1 with lower := p.1.lower.put none acc.origin.val (some (w, v)) }

/-- A write of the upper half: the whole word is written, with the lower half the origin holds for it, which is consumed (R17). -/
def Dev.writeUpper (s : Dev) (acc : Acc) (w : Nat) (v : Word) : Dev :=
  let o := acc.origin.val
  let low : Word := match s.lower.get none o with | some (x, l) => if x = w then l else 0 | none => 0
  let all := BitVec.ofNat 64 (v.toNat * 2 ^ 32 + low.toNat)
  let p := s.passAccess acc w (wordMask w).isSome false (leBytes 8 (s.word w).toNat) (leBytes 8 all.toNat)
  if !p.2 then p.1
  else
    let s := { p.1 with lower := p.1.lower.put none o none }
    let cu := unitOf w
    match s.boughStopped w with
    | some (c, u) => s.hold ⟨acc, w, some v, low, true, c, u⟩
    | none => if s.clockOff cu.1 cu.2 then s.hold ⟨acc, w, some v, low, true, cu.1, cu.2⟩ else s.storeWord acc w all

/-- A write of four octets at any configuration address: a half of a table word, or a register. -/
def Dev.write (s : Dev) (acc : Acc) (a : Nat) (v : Word) : Dev :=
  if (wordMask a).isSome then s.writeLower acc a v
  else if 4 ≤ a && (wordMask (a - 4)).isSome then s.writeUpper acc (a - 4) v
  else s.writeReg acc a v

/-! ## The meanings -/

/-- TABLE_WORD_LOWER_WRITE. -/
def execTableWordLowerWrite (a : Acc) (addr value : BitVec 32) (s : State) := s.onDev (·.writeLower a addr.toNat value)

/-- TABLE_WORD_UPPER_WRITE: the address is that of the upper half. -/
def execTableWordUpperWrite (a : Acc) (addr value : BitVec 32) (s : State) := s.onDev (fun d =>
  if addr.toNat < 4 then d else d.writeUpper a (addr.toNat - 4) value)

/-- RL_WRITE: a write of RL[i], through its upper half. -/
def execRlWrite (a : Acc) (i : Fin 4096) (value : BitVec 32) (s : State) := s.onDev (·.writeUpper a (rlAddr i.val) value)

end Sys2Proof.Machine
end

