-- ==== Sys2Proof/Machine/SensorLink.lean ====
section
/-! DEFINITION. The sensor link: alignment, justification, words and switching requests (R428 to R444). -/
namespace Sys2Proof.Machine

/-! ## Frames -/

/-- The frame word [a, b] of a frame of 512 bits, numbered as transmitted (R430). -/
def frameBits (f a b : Nat) : Nat := f / 2 ^ (511 - b) % 2 ^ (b + 1 - a)

/-- The scrambler's output over bits 16 to 511 (R431), the first highest. -/
def scrambleBits : Nat → Nat → Nat → Nat
  | 0, _, acc => acc
  | k + 1, r, acc =>
    let b := (r / 64 + r / 32) % 2
    scrambleBits k ((2 * r + b) % 128) (2 * acc + b)

/-- A frame descrambled. -/
def descramble (f : Nat) : Nat := f ^^^ scrambleBits 496 0x7F 0

/-- Whether a descrambled frame's CRC checks. -/
def hslCrcOk (f : Nat) : Bool := crcForward 16 0x1021 0xFFFF (beBytes 60 (frameBits f 16 495)) = frameBits f 496 511

/-- The frame that ends `p` bits into the 512 received last, of the 1,024 received last. -/
def frameAt (prev cur p : Nat) : Nat := (prev * 2 ^ 512 + cur) / 2 ^ (512 - p) % 2 ^ 512

/-- JC by majority (R432), and the data bits it gives. -/
def jcOf (f : Nat) : Nat :=
  let maj (i : Nat) : Nat := if frameBits f (48 + i) (48 + i) + frameBits f (50 + i) (50 + i) + frameBits f (52 + i) (52 + i) ≥ 2 then 1 else 0
  2 * maj 0 + maj 1
def dataCount (jc : Nat) : Nat := match jc with | 1 => 400 | 2 => 402 | _ => 401

/-- The data bits of a frame, in order. -/
def dataOf (f : Nat) : List Nat :=
  let jc := jcOf f
  (if jc = 2 then [frameBits f 54 54] else []) ++ (if jc = 1 then [] else [frameBits f 55 55])
    ++ (List.range 400).map (fun k => frameBits f (96 + k) (96 + k))

/-! ## Words (R434, R435) -/

/-- A word is complete: it is accepted or rejected. The answer is whether it was accepted. -/
def Heart.word (h : Heart) (l : HwLink) (w : Nat) : HwLink × Bool :=
  let plain : Option Nat := if h.keys then h.pairing.map (fun k => beNat (aesRoundsInv (aesRoundKeys k) (beBytes 16 w))) else none
  let reject : HwLink × Bool := ({ l with wordRej := satAdd l.wordRej 1, fresh := false }, false)
  match plain with
  | none => reject
  | some x =>
    let wseq := x / 2 ^ 64
    let n := x / 2 ^ 24 % 2 ^ 40
    let order := match l.wseq with
      | none => l.fresh
      | some v => if l.fresh then decide (wseq > v) else decide (wseq = v + 1)
    if x % 256 = 0xA5 && order then
      let was := l.count.getD ((Config.freeValue (2 ^ 64 * 5 + h.time)).toNat % 2 ^ 40)
      ({ l with wseq := some wseq, count := some n, sstat := BitVec.ofNat 16 (x / 256), fresh := false, sub := addSub l.sub (subOf h.time) ((n + 2 ^ 40 - was) % 2 ^ 40) }, true)
    else reject

/-- The data bits of a frame enter the word in progress; `skip` bits come before a word begins where none is aligned. The
answer counts the words rejected. -/
def Heart.dataBits (h : Heart) (skip : Nat) : HwLink × Nat → List Nat → HwLink × Nat
  | x, [] => x
  | (l, bad), b :: r =>
    match l.word with
    | none => if skip > 1 then h.dataBits (skip - 1) (l, bad) r
      else if skip = 1 then h.dataBits 0 ({ l with word := some (0, 0) }, bad) r
      else h.dataBits 0 ({ l with word := some (1, b) }, bad) r
    | some (n, v) =>
      if n < 127 then h.dataBits 0 ({ l with word := some (n + 1, 2 * v + b) }, bad) r
      else
        let w := h.word { l with word := some (0, 0) } (2 * v + b)
        h.dataBits 0 (w.1, bad + (!w.2).toNat) r

/-! ## Alignment (R436, R437) -/

/-- Whether a position scores. -/
def posScores (prev cur p : Nat) : Bool :=
  let f := frameAt prev cur p
  frameBits f 0 15 = 0xF628 && hslCrcOk (descramble f)

/-- A period out of frame, over at Heartwood time `t`: every position is tested. -/
def HwLink.hunt (l : HwLink) (cur : BitVec 512) (t : Nat) : HwLink :=
  let l := l.outTo t
  let prev := l.prev.toNat
  let hits := ((List.range 512).map (· + 1)).filter (fun p => posScores prev cur.toNat p)
  let sc : Store Nat := hits.map (fun p => (p, l.scores.get 0 p + 1))
  let l := { l with prev := cur, scores := sc, out := true }
  match sc.find? (fun e => e.2 ≥ 3) with
  | some (p, _) =>
    let f := descramble (frameAt prev cur.toNat p)
    { l with state := 2, pos := p, scores := [], badFaw := 0, fseq := frameBits f 16 23, wptr := frameBits f 56 62,
             dataBits := dataCount (jcOf f), word := none, fresh := true }
  | none => { l with state := if sc.isEmpty then 0 else 1 }

/-- What a frame received in frame makes of its link: the link, and what becomes of the switching request the frame is or completes
(R443, R444): accepted or rejected, and its source. -/
def Heart.inFrame (h : Heart) (l : HwLink) (cur : BitVec 512) : HwLink × Option (Bool × Nat) :=
  let raw := frameAt l.prev.toNat cur.toNat l.pos
  let f := descramble raw
  let crc := hslCrcOk f
  let faw : Bool := frameBits raw 0 15 = 0xF628
  let wantF := (l.fseq + 1) % 256
  let wantW := (l.wptr + 4 * 128 - l.dataBits) % 128
  let gotF := frameBits f 16 23
  let gotW := frameBits f 56 62
  let sq1 := frameBits f 32 39
  let sq2 := frameBits f 40 47
  let badW : Bool := crc && gotW ≠ wantW
  let badReq : Bool := crc && ((sq1 ≠ 0 && sq1 ≠ 0x5A) || sq2 > 2)
  let l := { l with prev := cur, fseq := if crc then gotF else wantF, wptr := if crc then gotW else wantW,
                    dataBits := dataCount (jcOf f), word := if badW then none else l.word, badFaw := if faw then 0 else l.badFaw + 1 }
  let d := h.dataBits l.wptr (l, 0) (dataOf f)
  let l := d.1
  let errored : Bool := !crc || jcOf f = 3 || !faw || (crc && gotF ≠ wantF) || badW || bit (BitVec.ofNat 8 (frameBits f 24 31)) 7 || d.2 > 0 || badReq
  let l := { l with good := l.good + crc.toNat, crcFail := l.crcFail + (!crc).toNat, errored := l.errored + errored.toNat }
  let run : Nat := match l.req with | some (a, b, n) => if a = sq1 ∧ b = sq2 then n + 1 else 1 | none => 1
  let l : HwLink := if crc then { l with req := some (sq1, sq2, run) } else l
  let wrong : Bool := sq2 = 1 && h.cal.mode = 2 || sq2 = 2 && h.cal.mode ≠ 2
  let ask : Option (Bool × Nat) := if crc && sq1 = 0x5A && sq2 ≤ 2 && (wrong || run = 3) then some (!wrong, sq2) else none
  let l : HwLink := match ask with | some (false, _) => { l with reqRej := satAdd l.reqRej 1 } | _ => l
  if l.badFaw ≥ 4 then ({ l with state := 0, scores := [], out := true, outAt := h.time, oofDecl := satAdd l.oofDecl 1 }, ask) else (l, ask)

/-- A frame period of link `n` ends (R429, R436 to R445). -/
def Heart.hslFrame (h : Heart) (n : Nat) (bits : BitVec 512) (t : Nat) : Heart :=
  if n = 1 ∧ h.cal.mode ≠ 2 then h
  else
    let h := h.at_ t
    let l := if n = 0 then h.link0 else h.link1
    let store (l : HwLink) (h : Heart) : Heart := if n = 0 then { h with link0 := l } else { h with link1 := l }
    if l.state ≠ 2 then
      let l := l.hunt bits h.time
      let h := store l h
      if l.state ≠ 2 then h
      else
        let h := h.linkNotice 1 n
        if n = 0 then
          let h := if h.source = 3 && !h.link0Seen then h.setSource 0 else h
          { h with link0Seen := true }
        else if h.startDue && h.source = 3 then h.setSource 2 else h
    else
      let r := h.inFrame l bits
      let h := store r.1 h
      let h := if r.1.state = 2 then h else h.linkNotice 2 n
      match r.2 with
      | none => h
      | some (false, _) => h.linkNotice 6 n
      | some (true, x) =>
        let blocked : Bool := match h.nextSource with | some (0, _) => n ≠ 0 | _ => false
        if x = h.source then h
        else (if blocked then h else { h with nextSource := some (n, x) }).linkNotice 5 (n + 256 * x)

/-- HSL_FRAME. -/
def execHslFrame (link : Fin 2) (bits : BitVec 512) (hwTime : BitVec 64) (s : State) := s.onHw (·.hslFrame link.val bits hwTime.toNat)

end Sys2Proof.Machine
end

