-- ==== Sys2Proof/Machine/View.lean ====
section
/-! DEFINITION. What a read returns: registers that show state held elsewhere, table words, the check bits of R593, the effect of
the origin access matrix on a read (R46, R534); BAR2 (R47); and the accesses a stopped clock holds (R505). -/
namespace Sys2Proof.Machine

/-! ## The check bits of R593 -/

/-- Whether a code position is that of a check bit. -/
def isPow2 (n : Nat) : Bool := [1, 2, 4, 8, 16, 32, 64].contains n

/-- The code positions of the data bits, p(0) to p(63). -/
def codePositions : List Nat := ((List.range 72).drop 1).filter (fun n => !isPow2 n)

/-- c[j] for j from 0 to 6. -/
def checkBit (w : DWord) (j : Nat) : Bool :=
  (codePositions.zipIdx.filter (fun e => e.1.testBit j && bit w e.2)).length % 2 = 1

/-- The check bits of a word, c[7] highest. -/
def checkBits (w : DWord) : Nat :=
  let low := (List.range 7).foldl (fun a j => a + (checkBit w j).toNat * 2 ^ j) 0
  low + (popCount w + popCount (BitVec.ofNat 7 low)) % 2 * 128

/-! ## Registers that show state held elsewhere -/

/-- CLK_STATUS (R507); whether Heartwood's own clocks run is `heart`. -/
def Dev.clkStatus (s : Dev) (heart : Bool) : Nat :=
  let any (l : List Nat) (p : Nat → Bool) : Bool := l.any p
  let port (lo hi : Nat) : Bool := any (List.range 36) (fun n => lo ≤ n && n < hi && s.portEn n && s.portPowered n)
  let legacy : Bool := any (List.range 24) (fun n => s.rb (canReg n 0) 31 && s.canPowered n) || any (List.range 16) (fun l => s.rb (linReg l 0) 31 && s.linPowered l)
  let bits : List Bool := [true, true, true, port 0 28, port 0 28, port 28 36, legacy, s.rb (trunkReg 0x8000) 31,
    any (hostPorts s.variant) (fun h => s.basjo.linkUp h), [32, 33].any (fun u => !s.clockStopped 0x40 u), true, true, heart, heart]
  (bits.zipIdx).foldl (fun a e => a + e.1.toNat * 2 ^ e.2) 0

/-- Whether a unit's clock runs (R508). -/
def Dev.unitRuns (s : Dev) (c u : Nat) : Bool := s.unitPowered c u && !s.clockOff c u

/-- CLK_UNIT for an origin (R507, R508). -/
def Dev.clkUnit (s : Dev) (o : Nat) : Nat :=
  let sel := s.clocks.sel.get 0 o
  let c := fld sel 15 8
  let u := fld sel 7 0
  if !unitPresent s.variant s.split c u then 0
  else
    let units := (List.range 255).filter (unitPresent s.variant s.split c)
    let powered : Bool := if u = 0xFF then units.all (s.unitPowered c) else s.unitPowered c u
    let gate : Bool := if u = 0xFF then units.any (s.gateable c) else s.gateable c u
    let runs : Bool := if u = 0xFF then units.all (fun u => !s.unitPowered c u || s.disabledBranch c u || s.unitRuns c u) else s.unitRuns c u
    2 ^ 31 + (s.clocks.holders.get 0 (256 * c + u)).toNat * 2 ^ 16 + powered.toNat * 4 + gate.toNat * 2 + runs.toNat

/-- RAS_UNIT (R541). -/
def Dev.rasUnitReg (s : Dev) : Nat :=
  let c := s.rf (rasReg 0x100) 15 8
  let u := s.rf (rasReg 0x100) 7 0
  let x := s.rasUnit c u
  if !unitPresent s.variant s.split c u then 0
  else if c = 0x60 ∧ u < 3 then
    let waits := s.pairState 2 = 3
    2 ^ 31 + (if x.retired then (if x.other.isSome && u ≠ 2 then 3 else 2) else if u = 2 && waits then 1 else 0) * 2 ^ 28
      + x.other.getD 0 * 2 ^ 16 + (decide waits).toNat
  else match rasKind c u with
    | none => 2 ^ 31
    | some k =>
      let isSpare : Bool := (k = 1 || k = 3 || k = 4) && u = spareOf k
      let st := if x.retired then (if x.other.isSome && !isSpare then 3 else 2) else if isSpare && x.other.isNone then 1 else 0
      let left := if k = 0 then s.trunk.spareBanks else if k = 2 then 128 - s.ras.rowsOut.get 0 (c - 0x10)
        else let y := s.rasUnit c (spareOf k); if y.other.isNone && !y.retired then 1 else 0
      2 ^ 31 + st * 2 ^ 28 + x.other.getD 0 * 2 ^ 16 + left

/-- What a register reads, for an origin, before the matrix. -/
def Dev.view (s : Dev) (o a : Nat) : Word :=
  let n (k : Nat) : Word := BitVec.ofNat 32 k
  let x := s.rasUnit (s.rf (rasReg 0x100) 15 8) (s.rf (rasReg 0x100) 7 0)
  if a = 0x40 then n (s.clkStatus (s.rb 0x40 12))
  else if a = 0x44 then n (s.clocks.sel.get 0 o).toNat
  else if a = 0x48 then n (s.clkUnit o)
  else if a = 0x4C then
    let sel := (s.clocks.sel.get 0 o).toNat
    n ((s.clocks.holders.get 0 sel).getLsbD o).toNat
  else if 0x11C000 ≤ a ∧ a < 0x124000 ∧ a % 0x1000 = 0x3C then (if portPresent s.variant ((a - 0x100000) / 0x1000) then s.reg (updReg 0x88) else 0)
  else if a = tapReg 0x74 then n ((List.range 4).foldl (fun a i => a + s.owner (36 + i) * 4 ^ i) 0)
  else if a = camReg 0x214 then n ((s.offNs % 2 ^ 64).toNat)
  else if a = camReg 0x218 then n ((s.offNs % 2 ^ 64).toNat / 2 ^ 32)
  else if a = camReg 0x21C then n ((s.offAt s.now % 65536).toNat)
  else if a = burlReg 0x4008 then n Config.deviceUid.toNat
  else if a = burlReg 0x400C then n (Config.deviceUid.toNat / 2 ^ 32)
  else if s.split = true ∧ pairWindow a = true then (if a % 0x40 = 0 then 0x350 else 0)
  else if 0x600110 ≤ a ∧ a < 0x6001C0 ∧ a % 0x40 = 0x10 then n (min ((s.now - (s.pair ((a - 0x600100) / 0x40)).ckptAt) / msRaw) 0xFFFFFFFF)
  else if 0x600100 ≤ a ∧ a < 0x6001C0 ∧ a % 0x40 = 0 then
    let k := (a - 0x600100) / 0x40
    setFld (s.reg a) 3 2 (min 3 ((s.pair k).mismatches.filter (fun t => s.now < t + s.rf (canopyReg 4) 23 0 * msRaw)).length)
  else if 0x340100 ≤ a ∧ a < 0x366000 ∧ 0x100 ≤ a % 0x1000 ∧ a % 0x1000 < 0x900 ∧ [0x14, 0x18].contains (a % 0x40) = true then
    let p := (a - 0x340000) / 0x1000
    let t := (a % 0x1000 - 0x100) / 0x40
    if portPresent s.variant p && t < (if p < 36 then 8 else 32) then s.creditReg (queueOf p t) (a % 0x40 = 0x14) else 0
  else if 0x480000 ≤ a ∧ a < 0x48C000 ∧ a % 0x800 = 0 then
    let k := (a - 0x480000) / 0x800
    if s.redListen k && (s.canEnding k).isNone then setBit (setBit (s.reg a) 28 true) 25 false else s.reg a
  else if a = rasReg 0x104 then n s.rasUnitReg
  else if a = rasReg 0x108 then n (min x.win 0xFFFFFFFF)
  else if a = rasReg 0x10C then n (min x.total 0xFFFFFFFF)
  else if a = rasReg 0x110 then n (min x.ue 0xFFFFFFFF)
  else if a = 0x780000 then s.audit.next
  else if a = 0x780004 then s.audit.oldest
  else if 0x780010 ≤ a ∧ a < 0x780020 ∧ a % 4 = 0 then n (s.audit.chainStart.toNat / 2 ^ (8 * (a - 0x780010)))
  else if 0x780020 ≤ a ∧ a < 0x780030 ∧ a % 4 = 0 then n (s.audit.lastMac.toNat / 2 ^ (8 * (a - 0x780020)))
  else s.anyReg a

/-- The table word a read through a window returns: the copy of the Grove PARSE_GLOBAL names, and the operational gate list while
RD_OPER is 1. -/
def Dev.viewWord (s : Dev) (w : Nat) : DWord :=
  let g := s.rf 0x220000 1 0
  let n := (w - 0x368000) / 0x800
  if 0x1000000 ≤ w ∧ grovePresent s.variant g = false then 0
  else if 0x368000 ≤ w ∧ w < 0x37A000 ∧ s.rb (crownReg n 0x10) 2 = true then (s.gate n).bank.getD ((w - 0x368000) % 0x800 / 8) 0
  else s.word w

/-- A read of a table word, or of its check bits: one of a unit without power reads zero, and counts (R506). -/
def Dev.readWord (s : Dev) (a : Nat) (v : Word) : Word × Dev :=
  let cu := if 0x1000000 ≤ a then (0x10 + s.rf 0x220000 1 0, 0xFF) else unitOf a
  if s.unitPowered cu.1 cu.2 || !unitPresent s.variant s.split cu.1 cu.2 then (v, s) else (0, s.count 0x54)

/-- A read of four octets (R10, R20, R46, R506, R534, R589): its value, and the denial it may leave. -/
def Dev.readReg (s : Dev) (acc : Acc) (a : Nat) : Word × Dev :=
  match blockOf a with
  | none => (0, s)
  | some b =>
    let cu := unitOf a
    if !reaches acc.origin b || !addrPresent s.variant s.split a then (0, s)
    else if !s.permitted 1 acc.origin b then (0, s.denied acc.origin cu.1 cu.2 0 a [] [])
    else if 0x1800000 ≤ a ∧ a < 0x1C00000 then s.readWord a (BitVec.ofNat 32 (checkBits (s.viewWord (0x1000000 + 2 * (a - 0x1800000)))))
    else if (wordMask a).isSome then s.readWord a (BitVec.ofNat 32 (s.viewWord a).toNat)
    else if 4 ≤ a ∧ (wordMask (a - 4)).isSome = true then s.readWord a (BitVec.ofNat 32 ((s.viewWord (a - 4)).toNat / 2 ^ 32))
    else if s.unitPowered cu.1 cu.2 then (s.view acc.origin a, s)
    else (s.view acc.origin a &&& cfgBits a, s.count 0x54)

/-! ## Accesses that wait for a clock (R504, R505) -/

/-- Whether what an address holds lies, in part, in the domain of its unit (R504): a table word, a field that is read-only or
cleared by writing 1, outside the blocks kept in CFG. A reserved bit does not count. -/
def unitPart (a : Nat) : Bool :=
  !(match blockOf a with | some 0 | some 16 | some 17 | some 18 => true | _ => false) &&
  ((wordMask a).isSome || (4 ≤ a && (wordMask (a - 4)).isSome) || (0x1800000 ≤ a && a < 0x1C00000) ||
    match regRow a with
    | some r => r.w1c ≠ 0 || (r.rw ||| ownBits r.name) = 0 || r.name = "TDC"
    | none => false)

/-- Whether a read of an origin is held. -/
def Dev.readHeld (s : Dev) (acc : Acc) (a : Nat) : Bool :=
  let cu := unitOf a
  (match blockOf a with | some b => reaches acc.origin b && s.permitted 1 acc.origin b | none => false)
    && addrPresent s.variant s.split a && s.unitPowered cu.1 cu.2 && s.clockOff cu.1 cu.2 && unitPart a

/-- What a read that reaches a unit waits for: its own clock, or that of a walk engine. -/
def Dev.readWaits (s : Dev) (acc : Acc) (a : Nat) : Option (Nat × Nat) :=
  if 0x1000000 ≤ a then
    (if blockOf a = some 20 && reaches acc.origin 20 && s.permitted 1 acc.origin 20 then s.engineStopped [s.rf 0x220000 1 0] else none)
  else if s.readHeld acc a then some (unitOf a) else none

/-- A read that reaches a unit with power is demand for it (R503). -/
def Dev.demandRead (s : Dev) (acc : Acc) (a : Nat) : Dev :=
  let cu := unitOf a
  match blockOf a with
  | some b => if reaches acc.origin b && s.permitted 1 acc.origin b && addrPresent s.variant s.split a then s.demand cu.1 cu.2 else s
  | none => s

/-- A read at a configuration address: one of EVT_POP or of a semaphore has its effect (R20), one into a stopped unit is held, and
any other returns what stands there. -/
def Dev.read (s : Dev) (acc : Acc) (a : Nat) : Dev :=
  let h := (a - 0x10000) / 0x10000
  if 0x10000 ≤ a ∧ h < 2 ∧ 0x400 ≤ a % 0x10000 ∧ a % 0x10000 < 0x410 ∧ a % 4 = 0 then s.evtPop acc h ((a % 0x10000 - 0x400) / 4)
  else if sapReg 0x100 ≤ a ∧ a < sapReg 0x140 ∧ a % 4 = 0 then s.semRead acc ((a - sapReg 0x100) / 4)
  else match s.readWaits acc a with
  | some (c, u) => s.hold ⟨acc, a, none, 0, false, c, u⟩
  | none =>
    let p := s.readReg acc a
    (p.2.readGives acc.origin.val p.1).demandRead acc a

/-- The effect of W1S bits held with a write: CNT_CLR of a port, COMMIT and CANCEL of a gate list, BO_RECOVER, SWITCH of a LIN
schedule. -/
def Dev.strobe (s : Dev) (a : Nat) (v : Word) : Dev :=
  match blockOf a with
  | some 2 => if a % 0x1000 = 0 && bit v 30 then s.cntClr ((a - 0x100000) / 0x1000) else s
  | some 8 =>
    let n := (a - 0x340000) / 0x1000
    if a % 0x1000 ≠ 0x10 then s
    else
      let s := if bit v 0 then s.gateCommit n else s
      if bit v 1 then s.gateCancel n else s
  | some 11 =>
    if a < 0x48C000 ∧ a % 0x800 = 0 ∧ bit v 26 = true then s.boRecover ((a - 0x480000) / 0x800)
    else if 0x490000 ≤ a ∧ a < 0x494000 ∧ a % 0x400 = 8 ∧ bit v 30 = true then s.linSwitch ((a - 0x490000) / 0x400)
    else s
  | _ => s

/-- A held access is performed once the clock runs; on a unit that has lost its power in the meantime it ends at once (R506). -/
def Dev.performHeld (s : Dev) (x : HeldAccess) : Dev :=
  let on := s.unitPowered x.cluster x.unit
  match x.value with
  | none =>
    let h := (x.addr - 0x10000) / 0x10000
    if on && 0x10000 ≤ x.addr && h < 2 && 0x400 ≤ x.addr % 0x10000 && x.addr % 0x10000 < 0x410
    then s.popRec x.acc.origin.val h ((x.addr % 0x10000 - 0x400) / 4)
    else let p := s.readReg x.acc x.addr; p.2.readGives x.acc.origin.val p.1
  | some v =>
    if !on then s.count 0x54
    else if x.isWord then s.storeWord x.acc x.addr (BitVec.ofNat 64 (v.toNat * 2 ^ 32 + x.lower.toNat))
    else match regRow x.addr with
      | some r => (s.clearBits r x.addr v).strobe x.addr v
      | none => s

/-- A unit's clock runs: the accesses it held complete in order. A branch that its enable bit stops does not run. -/
def Dev.release_ (s : Dev) (c u : Nat) : Dev :=
  if s.unitPowered c u && s.disabledBranch c u then s
  else
    let mine (x : HeldAccess) : Bool := x.cluster = c && x.unit = u
    let l := s.clocks.held.filter mine
    let s := { s with clocks := { s.clocks with held := s.clocks.held.filter (fun x => !mine x) } }
    l.foldl (fun (s : Dev) x => s.performHeld x) (s.demand c u)

/-! ## BAR2 (R47) -/

/-- An address from 2^31 on stands for an access through BAR2 of the host port whose origin makes it, at the offset above 2^31 (log
entry 16). -/
abbrev bar2 : Nat := 0x80000000

/-- The register at offset `off` of a vector's table entry: address, data, and the mask bit. -/
def Vector.word (x : Vector) (off : Nat) : Word :=
  match off / 4 with
  | 0 => x.addr.extractLsb' 0 32
  | 1 => x.addr.extractLsb' 32 32
  | 2 => x.data
  | _ => BitVec.ofNat 32 x.masked.toNat

/-- A vector with one register of its table entry written. -/
def Vector.setWord (x : Vector) (off : Nat) (v : Word) : Vector :=
  match off / 4 with
  | 0 => { x with addr := BitVec.ofNat 64 (x.addr.toNat / 2 ^ 32 * 2 ^ 32 + v.toNat) }
  | 1 => { x with addr := BitVec.ofNat 64 (x.addr.toNat % 2 ^ 32 + v.toNat * 2 ^ 32) }
  | 2 => { x with data := v }
  | _ => { x with masked := bit v 0 }

/-- A write of four octets through BAR2: a doorbell, or the MSI-X table; a reserved offset ignores it. -/
def Dev.bar2Write (s : Dev) (h off : Nat) (v : Word) : Dev :=
  if off < 0x400 then (if off % 8 = 0 then s.doorbell h (off / 8) v [] else s)
  else if 0x80000 ≤ off ∧ off < 0x80400 ∧ off % 4 = 0 then
    let k := (off - 0x80000) / 16
    s.onBasjo (fun b => (b.setVec h k ((b.vec h k).setWord (off % 16) v)).sendPending h k)
  else s

/-- A read of four octets through BAR2: the MSI-X table and the pending bit array. What a doorbell reads is not stated: a free value;
a reserved offset reads zero. -/
def Dev.bar2Read (s : Dev) (h off : Nat) : Word × Dev :=
  let b := s.basjo
  if off < 0x400 then ((Config.freeValue (1000 + s.draws)).setWidth 32, { s with draws := s.draws + 1 })
  else if 0x80000 ≤ off ∧ off < 0x80400 then ((b.vec h ((off - 0x80000) / 16)).word (off % 16), s)
  else if off = 0x81000 ∨ off = 0x81004 then
    (BitVec.ofNat 32 ((List.range 32).foldl (fun a k => a + (b.vec h (k + 8 * (off - 0x81000))).pending.toNat * 2 ^ k) 0), s)
  else (0, s)

/-! ## The endpoint's configuration header (R41) -/

/-- An address from C000_0000h on stands for an access to the configuration space of the host port whose origin makes it, at the
offset above (log entry 16). -/
abbrev pciSpace : Nat := 0xC0000000

/-- The identity a configuration read returns: device and vendor at offset 0, the class code above the revision, which is not stated,
at offset 8. The rest of the space is the bus standard's, and reads as a free value. -/
def Dev.pciRead (s : Dev) (h off : Nat) : Word × Dev :=
  let e := pcieEndpoint h
  if off = 0 then (BitVec.ofNat 32 (e.device * 2 ^ 16 + e.vendor.toNat), s)
  else if off = 8 then (BitVec.ofNat 32 (e.classCode * 256 + (Config.freeValue 5).toNat % 256), s)
  else ((Config.freeValue (1000 + s.draws)).setWidth 32, { s with draws := s.draws + 1 })

/-! ## The meanings -/

/-- An access of a host through its own port beside BAR0: to BAR2, or to its configuration space, which the model takes no write
of. -/
def Dev.portAccess (s : Dev) (acc : Acc) (a : Nat) (data : Option Word) : Dev :=
  let o := acc.origin.val
  if o = 0 || !(hostPorts s.variant).contains (o - 1) then s
  else match data with
    | some v => if pciSpace ≤ a then s else s.bar2Write (o - 1) (a - bar2) v
    | none =>
      let p := if pciSpace ≤ a then s.pciRead (o - 1) (a - pciSpace) else s.bar2Read (o - 1) (a - bar2)
      p.2.readGives o p.1

/-- Whether an access goes over the bridge into Heartwood's window: the die is present, the origin reaches it (R406) and the matrix
lets it (R534). -/
def Dev.overBridge (s : Dev) (acc : Acc) (a : Nat) (data : Option Word) : Bool :=
  blockOf a = some 13 && heartPresent s.variant && reaches acc.origin 13 && s.permitted (if data.isSome then 0 else 1) acc.origin 13

/-- SAP_WIRES as a read finds it (R452, R456): the levels of IRQ_H2M[0] to [2] are those of MB_STATUS.DONE, HW_STATUS.ALARM and
HW_STATUS.RUN, HW_RST is that of the wire, and MAIN_RST is low wherever an access is served. -/
def Dev.sapWires (s : Dev) (h : Heart) : Dev :=
  (s.setRb (sapReg 0x2C) 8 s.sap.rst).setRf (sapReg 0x2C) 7 0 ((h.rb 0xA4 1).toNat + (h.rb 0x80 6).toNat * 2 + (h.rb 0x80 0).toNat * 4)

/-- What Heartwood shows the main die: its wires, and whether its clock domains run (R507). -/
def Dev.seesHeart (s : Dev) (h : Heart) (a : Nat) : Dev :=
  if a = sapReg 0x2C then s.sapWires h else if a = 0x40 then s.setRb 0x40 12 (heartPresent s.variant && h.on) else s

/-- An access of four octets: through the host's own port, over the bridge, or on the configuration fabric; without data it is a
read. -/
def Dev.access (s : Dev) (heart : Heart) (acc : Acc) (a : Nat) (data : Option Word) : Dev :=
  if bar2 ≤ a then s.portAccess acc a data
  else if s.overBridge acc a data then s.sapTransfer heart acc a data 4 false false
  else match data with
    | some v => s.write acc a v
    | none => (s.seesHeart heart a).read acc a

/-- Where a boot has halted, H0 answers BAR0 reads of the DEV and UPDATE blocks only (R550). -/
def Dev.haltedRead (s : Dev) (acc : Acc) (a : Nat) : Dev :=
  if s.rb (updReg 4) 30 && !s.tap.asleep && acc.origin.val = 1 && (blockOf a = some 0 || blockOf a = some 19) then s.read acc a else s

/-- REGISTER_WRITE: an access of four octets, a read where it carries no data. -/
def execRegisterWrite (a : Acc) (addr : BitVec 32) (data : Option (BitVec 32)) (s : State) :=
  s.onTap (fun d => if d.runs then d.access s.heart a addr.toNat data else if data.isNone then (d.seesHeart s.heart addr.toNat).haltedRead a addr.toNat else d)

/-- HELD_ACCESS_RELEASE. -/
def execHeldAccessRelease (cluster unit : BitVec 8) (s : State) := s.onDev (·.release_ cluster.toNat unit.toNat)

end Sys2Proof.Machine
end

