-- ==== Sys2Proof/Machine/Dispatch.lean ====
section
/-! DEFINITION. The dispatch of every command to its meaning. -/
namespace Sys2Proof.Machine

/-- What a command does to everything but the queue. -/
def exec (i : Instr) (s : State) : Host.Outcome State Fault Refusal :=
  match i with
  | .registerWrite a addr data => Sys2Proof.Machine.execRegisterWrite a addr data s
  | .heldAccessRelease cluster unit => Sys2Proof.Machine.execHeldAccessRelease cluster unit s
  | .bar0UnsupportedAccess h off size => Sys2Proof.Machine.execBar0UnsupportedAccess h off size s
  | .tableWordLowerWrite a addr value => Sys2Proof.Machine.execTableWordLowerWrite a addr value s
  | .tableWordUpperWrite a addr value => Sys2Proof.Machine.execTableWordUpperWrite a addr value s
  | .doorbellWrite h r value posted => Sys2Proof.Machine.execDoorbellWrite h r value posted s
  | .ringEnable a h r => Sys2Proof.Machine.execRingEnable a h r s
  | .ringDisable a h r => Sys2Proof.Machine.execRingDisable a h r s
  | .ringStopped h r => Sys2Proof.Machine.execRingStopped h r s
  | .txDescriptorRead src desc err wbErr => Sys2Proof.Machine.execTxDescriptorRead src desc err wbErr s
  | .txFrameReadDone src octets err wbErr => Sys2Proof.Machine.execTxFrameReadDone src octets err wbErr s
  | .rxFrameWrite h descErr dataErr wbErr => Sys2Proof.Machine.execRxFrameWrite h descErr dataErr wbErr s
  | .eventOverflow h q => Sys2Proof.Machine.execEventOverflow h q s
  | .vecCoalTimerExpiry h v => Sys2Proof.Machine.execVecCoalTimerExpiry h v s
  | .msixUnmask h v addr data enable fnMask => Sys2Proof.Machine.execMsixUnmask h v addr data enable fnMask s
  | .evtPop a h n => Sys2Proof.Machine.execEvtPop a h n s
  | .hostLinkUp h gen width => Sys2Proof.Machine.execHostLinkUp h gen width s
  | .hostLinkDown h => Sys2Proof.Machine.execHostLinkDown h s
  | .functionLevelReset h => Sys2Proof.Machine.execFunctionLevelReset h s
  | .aerUncorrectable h evt aer => Sys2Proof.Machine.execAerUncorrectable h evt aer s
  | .portEnable a n => Sys2Proof.Machine.execPortEnable a n s
  | .portDisable a n => Sys2Proof.Machine.execPortDisable a n s
  | .portDrainDone n => Sys2Proof.Machine.execPortDrainDone n s
  | .cntClr a n => Sys2Proof.Machine.execCntClr a n s
  | .lockGained n => Sys2Proof.Machine.execLockGained n s
  | .lockLost n => Sys2Proof.Machine.execLockLost n s
  | .linkUpDebounceExpiry n => Sys2Proof.Machine.execLinkUpDebounceExpiry n s
  | .linkDownDebounceExpiry n => Sys2Proof.Machine.execLinkDownDebounceExpiry n s
  | .serdesFault n kind => Sys2Proof.Machine.execSerdesFault n kind s
  | .frameRxStart n octets frac ownTo => Sys2Proof.Machine.execFrameRxStart n octets frac ownTo s
  | .parserStart p ue bad lost => Sys2Proof.Machine.execParserStart p ue bad lost s
  | .frameRxEnd p fcsOk pcsErr => Sys2Proof.Machine.execFrameRxEnd p fcsOk pcsErr s
  | .crownSelect p ue => Sys2Proof.Machine.execCrownSelect p ue s
  | .transmissionComplete p coll => Sys2Proof.Machine.execTransmissionComplete p coll s
  | .preemptVerifyTimer n => Sys2Proof.Machine.execPreemptVerifyTimer n s
  | .preemptVerifyResponse n => Sys2Proof.Machine.execPreemptVerifyResponse n s
  | .preemptFragmentRx n frag => Sys2Proof.Machine.execPreemptFragmentRx n frag s
  | .beaconRx n => Sys2Proof.Machine.execBeaconRx n s
  | .beaconTimeout n => Sys2Proof.Machine.execBeaconTimeout n s
  | .c22Read d phy => Sys2Proof.Machine.execC22Read d phy s
  | .c22Write d => Sys2Proof.Machine.execC22Write d s
  | .c45Read d phy => Sys2Proof.Machine.execC45Read d phy s
  | .c45Write d => Sys2Proof.Machine.execC45Write d s
  | .mdioPoll m k phy => Sys2Proof.Machine.execMdioPoll m k phy s
  | .lqSecondEnd n => Sys2Proof.Machine.execLqSecondEnd n s
  | .boughLoad d mem => Sys2Proof.Machine.execBoughLoad d mem s
  | .commit d => Sys2Proof.Machine.execCommit d s
  | .versionRetire v => Sys2Proof.Machine.execVersionRetire v s
  | .fdbSeedWrite a value => Sys2Proof.Machine.execFdbSeedWrite a value s
  | .learningMessageRx g => Sys2Proof.Machine.execLearningMessageRx g s
  | .holdMessageRx g => Sys2Proof.Machine.execHoldMessageRx g s
  | .stashRelocate g => Sys2Proof.Machine.execStashRelocate g s
  | .ageingTick bad => Sys2Proof.Machine.execAgeingTick bad s
  | .dampeningSweep g => Sys2Proof.Machine.execDampeningSweep g s
  | .holdEndReached g vid mac => Sys2Proof.Machine.execHoldEndReached g vid mac s
  | .fdbAdd d => Sys2Proof.Machine.execFdbAdd d s
  | .fdbDel d => Sys2Proof.Machine.execFdbDel d s
  | .fdbFlush d => Sys2Proof.Machine.execFdbFlush d s
  | .fdbRead d => Sys2Proof.Machine.execFdbRead d s
  | .fdbDump d err => Sys2Proof.Machine.execFdbDump d err s
  | .meterSet d => Sys2Proof.Machine.execMeterSet d s
  | .meterRead d => Sys2Proof.Machine.execMeterRead d s
  | .rsvWrite a p value => Sys2Proof.Machine.execRsvWrite a p value s
  | .xmemEnable a en => Sys2Proof.Machine.execXmemEnable a en s
  | .xmemInitDone ok => Sys2Proof.Machine.execXmemInitDone ok s
  | .ovfEnable a en => Sys2Proof.Machine.execOvfEnable a en s
  | .spillComplete q ue => Sys2Proof.Machine.execSpillComplete q ue s
  | .fillReadIssue q => Sys2Proof.Machine.execFillReadIssue q s
  | .fillReadComplete q seq ue => Sys2Proof.Machine.execFillReadComplete q seq ue s
  | .reseqTimeout q => Sys2Proof.Machine.execReseqTimeout q s
  | .gateEntryBoundary n => Sys2Proof.Machine.execGateEntryBoundary n s
  | .gateCommit a n => Sys2Proof.Machine.execGateCommit a n s
  | .gateCancel a n => Sys2Proof.Machine.execGateCancel a n s
  | .gateListSwap n => Sys2Proof.Machine.execGateListSwap n s
  | .gateDisable a n => Sys2Proof.Machine.execGateDisable a n s
  | .launchTimeReached n t => Sys2Proof.Machine.execLaunchTimeReached n t s
  | .shaperParamWrite a p t reg value => Sys2Proof.Machine.execShaperParamWrite a p t reg value s
  | .queueSampleTick p => Sys2Proof.Machine.execQueueSampleTick p s
  | .sampleEnable a p => Sys2Proof.Machine.execSampleEnable a p s
  | .qsampleRead d err => Sys2Proof.Machine.execQsampleRead d err s
  | .domEnable a d en => Sys2Proof.Machine.execDomEnable a d en s
  | .domCommit a d => Sys2Proof.Machine.execDomCommit a d s
  | .domLock a d unlock => Sys2Proof.Machine.execDomLock a d unlock s
  | .domUnlock a d => Sys2Proof.Machine.execDomUnlock a d s
  | .syncTimerExpiry d => Sys2Proof.Machine.execSyncTimerExpiry d s
  | .wtSwitch a => Sys2Proof.Machine.execWtSwitch a s
  | .snap a => Sys2Proof.Machine.execSnap a s
  | .txtsRdWrite a value => Sys2Proof.Machine.execTxtsRdWrite a value s
  | .capInEdge k rising => Sys2Proof.Machine.execCapInEdge k rising s
  | .ppsEnable a k en => Sys2Proof.Machine.execPpsEnable a k en s
  | .ppsEdge k => Sys2Proof.Machine.execPpsEdge k s
  | .ctEnable a en => Sys2Proof.Machine.execCtEnable a en s
  | .ctSeedWrite a value => Sys2Proof.Machine.execCtSeedWrite a value s
  | .bucketReadComplete p ue bad => Sys2Proof.Machine.execBucketReadComplete p ue bad s
  | .rlWrite a n value => Sys2Proof.Machine.execRlWrite a n value s
  | .connFlush d => Sys2Proof.Machine.execConnFlush d s
  | .connDump d err => Sys2Proof.Machine.execConnDump d err s
  | .canEnable a n en => Sys2Proof.Machine.execCanEnable a n en s
  | .canFrameRx n frame sinceSof => Sys2Proof.Machine.execCanFrameRx n frame sinceSof s
  | .canFrameTxDone n loopDelay => Sys2Proof.Machine.execCanFrameTxDone n loopDelay s
  | .canBusError n err => Sys2Proof.Machine.execCanBusError n err s
  | .boRecover a n => Sys2Proof.Machine.execBoRecover a n s
  | .busOffRecovered n => Sys2Proof.Machine.execBusOffRecovered n s
  | .linEnable a l en => Sys2Proof.Machine.execLinEnable a l en s
  | .linSchedRun a l run => Sys2Proof.Machine.execLinSchedRun a l run s
  | .linSlotStart l => Sys2Proof.Machine.execLinSlotStart l s
  | .linSchedSwitch a l => Sys2Proof.Machine.execLinSchedSwitch a l s
  | .linHeaderRx l id err => Sys2Proof.Machine.execLinHeaderRx l id err s
  | .linResponseRx l id data cksum err sinceBreak => Sys2Proof.Machine.execLinResponseRx l id data cksum err sinceBreak s
  | .linResponseTimeout l => Sys2Proof.Machine.execLinResponseTimeout l s
  | .routeAdd d => Sys2Proof.Machine.execRouteAdd d s
  | .routeDel d => Sys2Proof.Machine.execRouteDel d s
  | .routeRead d => Sys2Proof.Machine.execRouteRead d s
  | .routeFlush d => Sys2Proof.Machine.execRouteFlush d s
  | .encBatchHoldExpiry st => Sys2Proof.Machine.execEncBatchHoldExpiry st s
  | .encDisable a st en => Sys2Proof.Machine.execEncDisable a st en s
  | .decapFrame ue => Sys2Proof.Machine.execDecapFrame ue s
  | .authSet d => Sys2Proof.Machine.execAuthSet d s
  | .authRead d => Sys2Proof.Machine.execAuthRead d s
  | .authClear d => Sys2Proof.Machine.execAuthClear d s
  | .scSet d => Sys2Proof.Machine.execScSet d s
  | .scClear d => Sys2Proof.Machine.execScClear d s
  | .saInstall d => Sys2Proof.Machine.execSaInstall d s
  | .saSelect d => Sys2Proof.Machine.execSaSelect d s
  | .saClear d => Sys2Proof.Machine.execSaClear d s
  | .saRead d => Sys2Proof.Machine.execSaRead d s
  | .gcmEncrypt d mem e => Sys2Proof.Machine.execGcmEncrypt d mem e s
  | .gcmDecrypt d mem e => Sys2Proof.Machine.execGcmDecrypt d mem e s
  | .ctrEncrypt d mem e => Sys2Proof.Machine.execCtrEncrypt d mem e s
  | .ctrDecrypt d mem e => Sys2Proof.Machine.execCtrDecrypt d mem e s
  | .cmacGenerate d mem e => Sys2Proof.Machine.execCmacGenerate d mem e s
  | .cmacVerify d mem e => Sys2Proof.Machine.execCmacVerify d mem e s
  | .keyLoad d => Sys2Proof.Machine.execKeyLoad d s
  | .keyDerive d => Sys2Proof.Machine.execKeyDerive d s
  | .keyUnwrap d mem => Sys2Proof.Machine.execKeyUnwrap d mem s
  | .keyErase d => Sys2Proof.Machine.execKeyErase d s
  | .keyInvalidate d => Sys2Proof.Machine.execKeyInvalidate d s
  | .keyRetire d => Sys2Proof.Machine.execKeyRetire d s
  | .keyInfo d => Sys2Proof.Machine.execKeyInfo d s
  | .keyOldUsesEnded slot => Sys2Proof.Machine.execKeyOldUsesEnded slot s
  | .lcAdvance d target => Sys2Proof.Machine.execLcAdvance d target s
  | .rngRead d err => Sys2Proof.Machine.execRngRead d err s
  | .idPubkey d err => Sys2Proof.Machine.execIdPubkey d err s
  | .attest d err => Sys2Proof.Machine.execAttest d err s
  | .sigVerify d mem => Sys2Proof.Machine.execSigVerify d mem s
  | .tamperLine src => Sys2Proof.Machine.execTamperLine src s
  | .getStatus m => Sys2Proof.Machine.execGetStatus m s
  | .readBatch m => Sys2Proof.Machine.execReadBatch m s
  | .ackBatch m => Sys2Proof.Machine.execAckBatch m s
  | .getPubkey m => Sys2Proof.Machine.execGetPubkey m s
  | .timeMsg m hwTime => Sys2Proof.Machine.execTimeMsg m hwTime s
  | .readEvlog m => Sys2Proof.Machine.execReadEvlog m s
  | .stageWrite m => Sys2Proof.Machine.execStageWrite m s
  | .calibrate m => Sys2Proof.Machine.execCalibrate m s
  | .imageWrite m => Sys2Proof.Machine.execImageWrite m s
  | .imageCheck m => Sys2Proof.Machine.execImageCheck m s
  | .hwAttest m => Sys2Proof.Machine.execHwAttest m s
  | .getLink m => Sys2Proof.Machine.execGetLink m s
  | .hwPrepare m => Sys2Proof.Machine.execHwPrepare m s
  | .hwCommit m => Sys2Proof.Machine.execHwCommit m s
  | .pulseAccepted pinB shortPhase hwTime => Sys2Proof.Machine.execPulseAccepted pinB shortPhase hwTime s
  | .vddHwRise vaonLost hwTime => Sys2Proof.Machine.execVddHwRise vaonLost hwTime s
  | .hwTimeEdge hwTime => Sys2Proof.Machine.execHwTimeEdge hwTime s
  | .hslFrame link bits hwTime => Sys2Proof.Machine.execHslFrame link bits hwTime s
  | .sapwoodTransfer a addr data size atomic crossed => Sys2Proof.Machine.execSapwoodTransfer a addr data size atomic crossed s
  | .retry a => Sys2Proof.Machine.execRetry a s
  | .semRead a n => Sys2Proof.Machine.execSemRead a n s
  | .semWrite a n value => Sys2Proof.Machine.execSemWrite a n value s
  | .irqH2mEdge n => Sys2Proof.Machine.execIrqH2mEdge n s
  | .hwRstChange high => Sys2Proof.Machine.execHwRstChange high s
  | .checkpoint a k outcome => Sys2Proof.Machine.execCheckpoint a k outcome s
  | .lockstepMismatch k addr latent => Sys2Proof.Machine.execLockstepMismatch k addr latent s
  | .pairResumed k => Sys2Proof.Machine.execPairResumed k s
  | .wdtKick a w => Sys2Proof.Machine.execWdtKick a w s
  | .watchdogExpiry w => Sys2Proof.Machine.execWatchdogExpiry w s
  | .ckptOverdue k => Sys2Proof.Machine.execCkptOverdue k s
  | .spqDeliver c bufs fail ue => Sys2Proof.Machine.execSpqDeliver c bufs fail ue s
  | .spqHostIdxWrite a c value => Sys2Proof.Machine.execSpqHostIdxWrite a c value s
  | .sptHostIdxWrite a r value => Sys2Proof.Machine.execSptHostIdxWrite a r value s
  | .modeSet d => Sys2Proof.Machine.execModeSet d s
  | .groveCopyDone g => Sys2Proof.Machine.execGroveCopyDone g s
  | .wakePinRequest k high edges => Sys2Proof.Machine.execWakePinRequest k high edges s
  | .t1sCarrierWake n => Sys2Proof.Machine.execT1sCarrierWake n s
  | .ballotVoteChange a k ready => Sys2Proof.Machine.execBallotVoteChange a k ready s
  | .nmTimerExpiry k => Sys2Proof.Machine.execNmTimerExpiry k s
  | .sleepAck a => Sys2Proof.Machine.execSleepAck a s
  | .pwrGoodRise restore boot => Sys2Proof.Machine.execPwrGoodRise restore boot s
  | .saveEnable a en => Sys2Proof.Machine.execSaveEnable a en s
  | .tValidExpiry k => Sys2Proof.Machine.execTValidExpiry k s
  | .fwMaskedClear a value => Sys2Proof.Machine.execFwMaskedClear a value s
  | .fwClr a => Sys2Proof.Machine.execFwClr a s
  | .clkHold a hold => Sys2Proof.Machine.execClkHold a hold s
  | .clkIdleExpiry cluster unit => Sys2Proof.Machine.execClkIdleExpiry cluster unit s
  | .porstN splitStrap boot => Sys2Proof.Machine.execPorstN splitStrap boot s
  | .warmN boot => Sys2Proof.Machine.execWarmN boot s
  | .brownout boot => Sys2Proof.Machine.execBrownout boot s
  | .softReset d => Sys2Proof.Machine.execSoftReset d s
  | .safeReq a => Sys2Proof.Machine.execSafeReq a s
  | .tempShutdown temp => Sys2Proof.Machine.execTempShutdown temp s
  | .uncorrectableControlError cluster unit => Sys2Proof.Machine.execUncorrectableControlError cluster unit s
  | .scrubPass found => Sys2Proof.Machine.execScrubPass found s
  | .correctedError part => Sys2Proof.Machine.execCorrectedError part s
  | .roleSet a active => Sys2Proof.Machine.execRoleSet a active s
  | .heartbeatFrameRx octets => Sys2Proof.Machine.execHeartbeatFrameRx octets s
  | .hbPathSilent framePath => Sys2Proof.Machine.execHbPathSilent framePath s
  | .proofTest d x => Sys2Proof.Machine.execProofTest d x s
  | .matrixWrite a which o value => Sys2Proof.Machine.execMatrixWrite a which o value s
  | .auditDump d err => Sys2Proof.Machine.execAuditDump d err s
  | .auditSeal d err => Sys2Proof.Machine.execAuditSeal d err s
  | .auditVerify d mem => Sys2Proof.Machine.execAuditVerify d mem s
  | .imgWrite d mem => Sys2Proof.Machine.execImgWrite d mem s
  | .imgVerify d => Sys2Proof.Machine.execImgVerify d s
  | .imgActivate d => Sys2Proof.Machine.execImgActivate d s
  | .manifestActivate d cut rowFails => Sys2Proof.Machine.execManifestActivate d cut rowFails s
  | .updHwDone a => Sys2Proof.Machine.execUpdHwDone a s
  | .referenceClockStop boot => Sys2Proof.Machine.execReferenceClockStop boot s
  | .frameEnqueue => Sys2Proof.Machine.execFrameEnqueue s
  | .commitTimeout => Sys2Proof.Machine.execCommitTimeout s
  | .commitToken => Sys2Proof.Machine.execCommitToken s
  | .xmemPeriodicTraining => Sys2Proof.Machine.execXmemPeriodicTraining s
  | .avgUpdate => Sys2Proof.Machine.execAvgUpdate s
  | .staleScan => Sys2Proof.Machine.execStaleScan s
  | .bankRetireCopyDone => Sys2Proof.Machine.execBankRetireCopyDone s
  | .timePllLockLoss => Sys2Proof.Machine.execTimePllLockLoss s
  | .timePllRelock => Sys2Proof.Machine.execTimePllRelock s
  | .rawReseed => Sys2Proof.Machine.execRawReseed s
  | .slewComplete => Sys2Proof.Machine.execSlewComplete s
  | .bothLostRise => Sys2Proof.Machine.execBothLostRise s
  | .timeWireEdge => Sys2Proof.Machine.execTimeWireEdge s
  | .ctInitDone => Sys2Proof.Machine.execCtInitDone s
  | .connSweep => Sys2Proof.Machine.execConnSweep s
  | .anomalyWindowStart => Sys2Proof.Machine.execAnomalyWindowStart s
  | .orphanSweep => Sys2Proof.Machine.execOrphanSweep s
  | .rngHealthFailure => Sys2Proof.Machine.execRngHealthFailure s
  | .hwSecondEnd => Sys2Proof.Machine.execHwSecondEnd s
  | .batchSigned => Sys2Proof.Machine.execBatchSigned s
  | .mainTamper => Sys2Proof.Machine.execMainTamper s
  | .hwTampered => Sys2Proof.Machine.execHwTampered s
  | .hwLockstepMismatch => Sys2Proof.Machine.execHwLockstepMismatch s
  | .sourceStartTimeout => Sys2Proof.Machine.execSourceStartTimeout s
  | .sapwoodTransferDone => Sys2Proof.Machine.execSapwoodTransferDone s
  | .sapTimeout => Sys2Proof.Machine.execSapTimeout s
  | .heartbeatTimeout => Sys2Proof.Machine.execHeartbeatTimeout s
  | .heartbeatResume => Sys2Proof.Machine.execHeartbeatResume s
  | .noticeGo => Sys2Proof.Machine.execNoticeGo s
  | .pulseFirstEdgeWake => Sys2Proof.Machine.execPulseFirstEdgeWake s
  | .timerWakeExpiry => Sys2Proof.Machine.execTimerWakeExpiry s
  | .ballotDelayExpiry => Sys2Proof.Machine.execBallotDelayExpiry s
  | .sleepAckTimeout => Sys2Proof.Machine.execSleepAckTimeout s
  | .saveDone => Sys2Proof.Machine.execSaveDone s
  | .pwrOffMinExpiry => Sys2Proof.Machine.execPwrOffMinExpiry s
  | .keeperThreshold => Sys2Proof.Machine.execKeeperThreshold s
  | .rasWindowEnd => Sys2Proof.Machine.execRasWindowEnd s
  | .heartbeatSend => Sys2Proof.Machine.execHeartbeatSend s
  | .hbInEdge => Sys2Proof.Machine.execHbInEdge s
  | .partnerFailed => Sys2Proof.Machine.execPartnerFailed s
  | .vaonLoss => Sys2Proof.Machine.execVaonLoss s
  | .coarseEdge => Sys2Proof.Machine.execCoarseEdge s
  | .vddHwLoss => Sys2Proof.Machine.execVddHwLoss s
  | .barkClean => Sys2Proof.Machine.execBarkClean s

end Sys2Proof.Machine
end

