-- ==== Sys2Proof/Machine/Step.lean ====
section
/-! DEFINITION. One step of the block: the command at the front of the queue, or one cycle of the TIME domain. -/
namespace Sys2Proof.Machine

/-- What the block does while no command waits: one cycle of the TIME domain (R252), which counts raw time unless it
stands still (DESIGN CHOICE, notes/assumptions/2). -/
def State.idle (s : State) : State := { s with dev := s.dev.timeCycle }

/-- One step. -/
def step (s : State) : Host.Outcome State Fault Refusal :=
  match s.pending with
  | [] => .next s.idle
  | c :: rest => exec c { s with pending := rest }

/-- The state with the command a word spells put at the front of its queue; unchanged where the word spells none. -/
def State.withFetchWord (s : State) (nbits w : Nat) : State :=
  match decodeTableWord nbits w with
  | some c => { s with pending := c :: s.pending }
  | none => s

end Sys2Proof.Machine
end

