-- ==== Sys2Proof/Safety.lean ====
section
/-! DEFINITION. The terms the statements are written in: when a command answers a next state, when an access or a ring's
command goes through, and what a command leaves alone. -/
namespace Sys2Proof.Machine

/-! ## Completion -/

/-- A command answers a next state, and that state satisfies `P`. -/
def Completes (i : Instr) (s : State) (P : State → Prop) : Prop := ∃ t, exec i s = .next t ∧ P t

/-! ## What a command leaves alone -/

/-- The parts of the main die, one name for each field of its state. -/
inductive Part where
  | variant
  | regs
  | words
  | lower
  | clocks
  | basjo
  | cam
  | audit
  | burl
  | ports
  | polls
  | rx
  | ended
  | passed
  | groves
  | trunk
  | crown
  | bark
  | slowq
  | decap
  | out
  | roots
  | tap
  | canopy
  | ras
  | sap
  | upd
  | reads
  | draws
  deriving DecidableEq, Repr

/-- Two states of the main die agree on a part. -/
def Part.same (s t : Dev) : Part → Prop
  | .variant => t.variant = s.variant
  | .regs => t.regs = s.regs
  | .words => t.words = s.words
  | .lower => t.lower = s.lower
  | .clocks => t.clocks = s.clocks
  | .basjo => t.basjo = s.basjo
  | .cam => t.cam = s.cam
  | .audit => t.audit = s.audit
  | .burl => t.burl = s.burl
  | .ports => t.ports = s.ports
  | .polls => t.polls = s.polls
  | .rx => t.rx = s.rx
  | .ended => t.ended = s.ended
  | .passed => t.passed = s.passed
  | .groves => t.groves = s.groves
  | .trunk => t.trunk = s.trunk
  | .crown => t.crown = s.crown
  | .bark => t.bark = s.bark
  | .slowq => t.slowq = s.slowq
  | .decap => t.decap = s.decap
  | .out => t.out = s.out
  | .roots => t.roots = s.roots
  | .tap => t.tap = s.tap
  | .canopy => t.canopy = s.canopy
  | .ras => t.ras = s.ras
  | .sap => t.sap = s.sap
  | .upd => t.upd = s.upd
  | .reads => t.reads = s.reads
  | .draws => t.draws = s.draws

/-- Every part of the main die but those named is as it was. -/
def Dev.keeps (s : Dev) (changed : List Part) (t : Dev) : Prop := ∀ p : Part, p ∉ changed → p.same s t

/-- Every part of the main die but those named, the Heartwood die and the queue are as they were. -/
def State.keeps (s : State) (changed : List Part) (t : State) : Prop :=
  s.dev.keeps changed t.dev ∧ t.heart = s.heart ∧ t.pending = s.pending

/-- Every register of the main die but those named reads as it did. -/
def Dev.regsKeep (s : Dev) (written : List Nat) (t : Dev) : Prop := ∀ a, a ∉ written → t.reg a = s.reg a

/-- Every register of the main die outside a run of addresses reads as it did. -/
def Dev.regsKeepOut (s : Dev) (lo hi : Nat) (t : Dev) : Prop := ∀ a, ¬ (lo ≤ a ∧ a < hi) → t.reg a = s.reg a

/-! ## What event records change in the host interface -/

/-- A register of a host port that an event record may change: EVT_UNROUTED_CNT, and the device index and LOST of an
EVT ring (R49, R55, R77). -/
def Basjo.eventReg (b : Basjo) (a : Nat) : Prop :=
  ∃ h r, r < 128 ∧ (a = hostReg h 0x20 ∨ (b.ringType h r = 4 ∧ (a = ringReg h r 0x18 ∨ a = ringReg h r 0x20)))

/-- An octet of host memory that an event record may change: an entry of an EVT ring, or the ring's written-back index. -/
def Basjo.eventByte (b : Basjo) (h addr : Nat) : Prop :=
  ∃ r, r < 128 ∧ b.ringType h r = 4 ∧
    ((∃ idx k, k < 32 ∧ addr = (b.entryAddr h r 32 idx + k) % 2 ^ memWidth h) ∨
     (∃ k, k < 4 ∧ addr = ((b.reg (ringReg h r 8)).toNat + 2 ^ 32 * (b.reg (ringReg h r 0xC)).toNat + k) % 2 ^ memWidth h))

/-- The host interface changed by event records and nothing else: every other register, the MSI-X capability, every ring of
another type and every other octet of host memory are as they were. -/
structure Basjo.eventsOnly (b b' : Basjo) : Prop where
  regs : ∀ a, ¬ b.eventReg a → b'.reg a = b.reg a
  msix : b'.msix = b.msix
  dead : b'.dead = b.dead
  up : b'.up = b.up
  order : b'.order = b.order
  rings : ∀ h r, r < 128 → b.ringType h r ≠ 4 → b'.ring h r = b.ring h r
  mem : ∀ h addr, addr < 2 ^ 64 → ¬ b.eventByte h addr → b'.octet h addr = b.octet h addr

/-- The frame of a command that tells of itself: beside event records and the change log only the named parts and the named
registers of the main die change. -/
structure State.changes (s : State) (parts : List Part) (regs : List Nat) (t : State) : Prop where
  parts : s.keeps (.regs :: .basjo :: .audit :: parts) t
  regs : s.dev.regsKeep regs t.dev
  events : s.dev.basjo.eventsOnly t.dev.basjo

/-- The frame of a write that goes through to a register at `addr`: it is demand for that register's unit (R503), and beside that,
event records and the change log only the named parts and registers of the main die change. -/
structure State.writes (s : State) (addr : Nat) (parts : List Part) (regs : List Nat) (t : State) : Prop where
  frame : s.changes (.clocks :: parts) regs t
  clocks : t.dev.clocks = (s.dev.demand (unitOf addr).1 (unitOf addr).2).clocks

/-- The host interface changed at one ring, at named registers, and by event records, and nowhere else. -/
structure Basjo.ringOnly (b : Basjo) (h r : Nat) (written : List Nat) (b' : Basjo) : Prop where
  regs : ∀ a, ¬ b.eventReg a → a ∉ written → b'.reg a = b.reg a
  rings : ∀ h' r', r' < 128 → b.ringType h' r' ≠ 4 → ¬ (h' = h ∧ r' = r) → b'.ring h' r' = b.ring h' r'
  msix : b'.msix = b.msix
  up : b'.up = b.up
  mem : ∀ h' addr, addr < 2 ^ 64 → ¬ b.eventByte h' addr → b'.octet h' addr = b.octet h' addr

/-- The next `n` descriptors of a host's transmit ring tell the driver DONE and a code (R61): offsets 24 to 31 of each, but where
the ring's written-back index overlies them. -/
def Basjo.told (b : Basjo) (h r n st : Nat) (b' : Basjo) : Prop :=
  ∀ i < n, ∀ k < 8,
    (∀ j < 4, (b.entryAddr h r 32 (b.devIdx h r + BitVec.ofNat 32 i) + 24 + k) % 2 ^ 64 ≠
      ((b.reg (ringReg h r 8)).toNat + 2 ^ 32 * (b.reg (ringReg h r 0xC)).toNat + j) % 2 ^ 64) →
    b'.octet h ((b.entryAddr h r 32 (b.devIdx h r + BitVec.ofNat 32 i) + 24 + k) % 2 ^ 64) = (leBytes 8 (256 + st)).getD k 0

/-- The registers the sleep ballot writes after anything that may turn a vote: its state and votes, the source that turned last and
its time, and CUR_VOTE of every source (R490, R491, R493, R496). -/
def ballotReg (a : Nat) : Bool :=
  [tapReg 0, tapReg 0x10, tapReg 0x14, tapReg 0x20, tapReg 0x24, tapReg 0x34].contains a || (List.range 64).any (fun k => a = srcReg k 0)

/-- The frame of a command that tells of itself and may write the registers a test names. -/
structure State.changesOn (s : State) (parts : List Part) (free : Nat → Bool) (t : State) : Prop where
  parts : s.keeps (.regs :: .basjo :: .audit :: parts) t
  regs : ∀ a, free a = false → t.dev.reg a = s.dev.reg a
  events : s.dev.basjo.eventsOnly t.dev.basjo

/-- The frame of a command that changes no register but those in a run of addresses. -/
structure State.changesIn (s : State) (parts : List Part) (lo hi : Nat) (t : State) : Prop where
  parts : s.keeps (.regs :: .basjo :: .audit :: parts) t
  regs : s.dev.regsKeepOut lo hi t.dev
  events : s.dev.basjo.eventsOnly t.dev.basjo

/-- An octet of a ring's host memory that the completion of its command does not write: it is not among offsets 48 to 63 of the
entry, nor in the written-back index (R55, R68). -/
def Basjo.clear (b : Basjo) (d : CmdDesc) (addr : Nat) : Prop :=
  ∀ k, (k < 16 → addr ≠ (b.entryAddr d.host.val d.ring.val 64 (b.devIdx d.host.val d.ring.val) + 48 + k) % 2 ^ 64) ∧
    (k < 4 → addr ≠ ((b.reg (ringReg d.host.val d.ring.val 8)).toNat + 2 ^ 32 * (b.reg (ringReg d.host.val d.ring.val 0xC)).toNat + k) % 2 ^ 64)

/-- The host interface changed by the completion of a ring's command, and by event records, and nothing else: the ring's
device index has advanced by one and its command has ended (R55, R68). -/
structure Basjo.doneOnly (b : Basjo) (d : CmdDesc) (b' : Basjo) : Prop where
  regs : ∀ a, ¬ b.eventReg a → a ≠ ringReg d.host.val d.ring.val 0x18 → b'.reg a = b.reg a
  idx : b'.devIdx d.host.val d.ring.val = b.devIdx d.host.val d.ring.val + 1
  ended : (b'.ring d.host.val d.ring.val).running = none
  msix : b'.msix = b.msix
  dead : b'.dead = b.dead
  up : b'.up = b.up
  order : b'.order = b.order
  rings : ∀ h r, r < 128 → b.ringType h r ≠ 4 → ¬ (h = d.host.val ∧ r = d.ring.val) → b'.ring h r = b.ring h r
  mem : ∀ h addr, addr < 2 ^ 64 → ¬ b.eventByte h addr → (h = d.host.val → b.clear d addr) → b'.octet h addr = b.octet h addr

/-- A command has written a string of octets to its host's memory: they stand there but where its completion, an event record or
a written-back index overlies them; and no other octet has changed. -/
structure Basjo.wrote (b : Basjo) (d : CmdDesc) (at_ : Nat) (l : List Byte) (b' : Basjo) : Prop where
  regs : ∀ a, ¬ b.eventReg a → a ≠ ringReg d.host.val d.ring.val 0x18 → b'.reg a = b.reg a
  msix : b'.msix = b.msix
  dead : b'.dead = b.dead
  up : b'.up = b.up
  idx : b'.devIdx d.host.val d.ring.val = b.devIdx d.host.val d.ring.val + 1
  ended : (b'.ring d.host.val d.ring.val).running = none
  data : ∀ k, k < l.length → ¬ b.eventByte d.host.val ((at_ + k) % 2 ^ 64) → b.clear d ((at_ + k) % 2 ^ 64) →
    b'.octet d.host.val ((at_ + k) % 2 ^ 64) = l.getD k 0
  rest : ∀ h addr, addr < 2 ^ 64 → ¬ b.eventByte h addr → (h = d.host.val → b.clear d addr ∧ ∀ k, k < l.length → addr ≠ (at_ + k) % 2 ^ 64) →
    b'.octet h addr = b.octet h addr

/-- The driver is answered with a status and two results (R68): they stand at offsets 48 to 63 of the command's entry, but where an
event record or the written-back index overlies them. -/
def Basjo.answers (b : Basjo) (d : CmdDesc) (st x y : Nat) (b' : Basjo) : Prop :=
  ∀ k, k < 16 → ¬ b.eventByte d.host.val ((b.entryAddr d.host.val d.ring.val 64 (b.devIdx d.host.val d.ring.val) + 48 + k) % 2 ^ 64) →
    (∀ j, j < 4 → (b.entryAddr d.host.val d.ring.val 64 (b.devIdx d.host.val d.ring.val) + 48 + k) % 2 ^ 64 ≠
      ((b.reg (ringReg d.host.val d.ring.val 8)).toNat + 2 ^ 32 * (b.reg (ringReg d.host.val d.ring.val 0xC)).toNat + j) % 2 ^ 64) →
    b'.octet d.host.val ((b.entryAddr d.host.val d.ring.val 64 (b.devIdx d.host.val d.ring.val) + 48 + k) % 2 ^ 64) =
      (leBytes 8 (x % 2 ^ 32 * 2 ^ 32 + 256 + st) ++ leBytes 8 y).getD k 0

/-- The frame of a ring's command that completes: beside its completion, event records, the change log and the clock of the
unit it names, only the named parts and the named registers of the main die change. -/
structure State.completes (s : State) (d : CmdDesc) (parts : List Part) (regs : List Nat) (t : State) : Prop where
  parts : s.keeps (.regs :: .basjo :: .audit :: .clocks :: parts) t
  regs : s.dev.regsKeep regs t.dev
  host : s.dev.basjo.doneOnly d t.dev.basjo

/-- The same, for a command that may write the registers a test names. -/
structure State.completesOn (s : State) (d : CmdDesc) (parts : List Part) (free : Nat → Bool) (t : State) : Prop where
  parts : s.keeps (.regs :: .basjo :: .audit :: .clocks :: parts) t
  regs : ∀ a, free a = false → t.dev.reg a = s.dev.reg a
  host : s.dev.basjo.doneOnly d t.dev.basjo

/-! ## Heartwood -/

/-- An octet of MB_RSP (R406). -/
def Heart.rspOctet (h : Heart) (k : Nat) : Byte := (h.reg (0x1000 + 4 * (k / 4)) >>> (8 * (k % 4))).setWidth 8

/-- The octets of MB_REQ from octet 4 on, as many as its length field says (R407). -/
def Heart.params (h : Heart) : List Byte := (h.request.drop 4).take (leNat ((h.request.drop 2).take 2))

/-- A request has completed with a code and a response (R407): BUSY is clear and DONE set, MB_RSP begins with the response, and
every register but MB_STATUS, the words of the response and those named reads as it did. -/
structure Heart.answers (h : Heart) (written : List Nat) (code : Nat) (l : List Byte) (h' : Heart) : Prop where
  status : h'.reg 0xA4 = BitVec.ofNat 32 (code * 2 ^ 24 + l.length * 256 + (h.rb 0xA4 2).toNat * 4 + 2)
  octets : ∀ k, k < l.length → h'.rspOctet k = l.getD k 0
  regs : ∀ off, off ≠ 0xA4 → ¬ (0x1000 ≤ off ∧ off < 0x1000 + (l.length + 3) / 4 * 4) → off ∉ written → h'.reg off = h.reg off

/-- Heartwood is present and powered, and its mailbox holds a request with a length of parameters that it may run (R407,
R408). -/
def State.asks (s : State) (op plen : Nat) : Bool :=
  heartPresent s.dev.variant && s.heart.on && s.heart.busy && decide (fld (s.heart.reg 0x100) 7 0 = op)
    && decide (leNat ((s.heart.request.drop 2).take 2) = plen) && (!s.heart.rb 0x80 14 || [1, 2, 3, 6].contains op)

/-- The main die after a request has completed: interrupt wire 0 has told it (R407). -/
def State.served (s t : State) : Prop := t.dev = { s.dev with out := .irq "IRQ_H2M" 0 :: s.dev.out } ∧ t.pending = s.pending

/-- Heartwood is present and powered. -/
def State.hwOn (s : State) : Bool := heartPresent s.dev.variant && s.heart.on

/-- A record that the store holds. -/
def Heart.holds (h : Heart) (r : BitVec 512) : Prop := ∃ b ∈ h.batches, r ∈ b.recs

/-- Only Heartwood has changed. -/
def State.heartOnly (s t : State) : Prop := t.dev = s.dev ∧ t.pending = s.pending

/-! ## Accesses and commands that go through -/

/-- A write of an agent reaches the register it names: it is in a block the agent reaches (R406, R446) and may write
(R534), of something the variant has (R10) and that is powered (R506). -/
def Dev.opens (s : Dev) (a : Acc) (addr : Nat) : Bool :=
  match blockOf addr with
  | none => false
  | some b => reaches a.origin b && s.permitted 0 a.origin b && addrPresent s.variant s.split addr
      && !(s.split && pairWindow addr) && s.unitPowered (unitOf addr).1 (unitOf addr).2

/-- A write of an agent that the main die performs: it runs and the access goes through. -/
def State.opens (s : State) (a : Acc) (addr : Nat) : Bool := s.dev.runs && s.dev.opens a addr

/-- The clock of the unit an address belongs to runs (R502), so that an access to it is not held (R505). -/
def State.clocked (s : State) (addr : Nat) : Bool := !s.dev.clockOff (unitOf addr).1 (unitOf addr).2

/-- A command of a ring runs: the ring is ready for it (R67) and neither drains nor is stopped, its descriptor is read and its
completion written without an error (R57), it is the command the ring waits with, no other command runs on the unit or comes first
there (R67), and it passes every check of R68: the cluster, the unit and the operation are `cl`, `un` and `op`, present and known, the
origin may command them, and every bit that must be 0 is. -/
def State.starts (s : State) (d : CmdDesc) (cl un op : Nat) (mask : List Nat) : Bool :=
  s.dev.runs && s.dev.cmdReady d && !d.readErr && !d.writeErr && s.dev.basjo.ringEnabled d.host.val d.ring.val
    && s.dev.basjo.rb (hostReg d.host.val 0) 0 && decide (d.cl = cl) && decide (d.un = un) && decide (d.op = op)
    && CmdDesc.sameWords d (s.dev.waitOf d).desc && !s.dev.unitBusy cl un && !s.dev.waitsBehind d && knownCluster cl && unitPresent s.dev.variant s.dev.split cl un
    && s.dev.permitted 2 d.origin (clusterBlock cl) && !d.reserved && !d.strayBits mask

/-- The head that R227 and R229 choose for a port that sends nothing, among those that are eligible and may start: an express one
before a preemptable one. -/
def Dev.nextHead (s : Dev) (p : Nat) : Option Head :=
  let hs := s.heads p
  let el := hs.filter (fun h => s.eligible p hs h && s.mayStart p h)
  match (s.noteEligible p).choose (el.filter (fun h => !s.preemptable p h.t)) with
  | some h => some h
  | none => (s.noteEligible p).choose el

/-! ## The two dies -/

/-- The rows that act on the Heartwood die alone. -/
def heartwoodRow : Instr → Bool
  | .hwSecondEnd | .batchSigned | .pulseAccepted .. | .vddHwRise .. | .vddHwLoss | .hwTimeEdge .. | .mainTamper | .hwTampered
  | .hwLockstepMismatch | .sourceStartTimeout | .hslFrame .. => true
  | _ => false

/-- The rows that pass between the dies: mailbox requests, what the bridge carries, and the resets, which lower the line that
tells Heartwood of SAFE. -/
def crossingRow : Instr → Bool
  | .getStatus .. | .readBatch .. | .ackBatch .. | .getPubkey .. | .timeMsg .. | .readEvlog .. | .stageWrite .. | .calibrate ..
  | .imageWrite .. | .imageCheck .. | .hwAttest .. | .getLink .. | .hwPrepare .. | .hwCommit ..
  | .sapwoodTransferDone | .sapTimeout | .noticeGo | .porstN .. | .warmN .. | .brownout .. | .referenceClockStop .. | .vaonLoss => true
  | _ => false

/-- The rows of the main die that act while its core is off: supplies, the tamper line, the always-on domain and
the wake requests with the windows that validate them, and the line HW_RST. -/
def offRow : Instr → Bool
  | .tamperLine .. | .coarseEdge | .vaonLoss | .pwrGoodRise .. | .wakePinRequest .. | .t1sCarrierWake .. | .pulseFirstEdgeWake | .timerWakeExpiry | .pwrOffMinExpiry | .tValidExpiry .. | .hwRstChange .. => true
  | _ => false

/-- The rows that reset the main die or power it. -/
def resetRow : Instr → Bool
  | .porstN .. | .warmN .. | .brownout .. | .referenceClockStop .. | .vaonLoss | .pwrGoodRise .. => true
  | _ => false

/-! ## Invariants -/

/-- Every store of registers, table words, host memory, forwarding entries and keys is in its one canonical form. -/
def Dev.canonical (s : Dev) : Bool :=
  s.regs.wf (regReset s.variant) && s.words.wf (wordReset s.variant) && s.basjo.regs.wf (regReset .m)
    && s.basjo.mem.wf (fun _ => 0) && s.groves.fdb.wf (fun _ => none) && s.burl.slots.wf (fun _ => KeySlot.empty)

/-- A commit that has its token goes to one of the four version slots. -/
def Dev.tokenInRange (s : Dev) : Prop :=
  ∀ c, s.groves.commit = some c → ∀ v cycle, c.token = some (v, cycle) → v < 4

/-- A batch holds records whose SEQ fields count on from its first. -/
def HwBatch.runsOn (b : HwBatch) : Prop :=
  b.recs ≠ [] ∧ ∀ k (h : k < b.recs.length), (b.recs[k]).toNat % 2 ^ 64 = (b.firstSeq + k) % 2 ^ 64

/-- Batches, oldest first, up to a next SEQ and a next BATCH_SEQ: SEQ and BATCH_SEQ run on without a gap from each to the next,
and only the last may be open (R419, R422). -/
def inSequence : List HwBatch → Nat → Nat → Prop
  | [], _, _ => True
  | [b], seq, num => b.runsOn ∧ b.firstSeq + b.recs.length = seq ∧ b.number + 1 = num
  | b :: c :: r, seq, num =>
    b.runsOn ∧ b.closed = true ∧ b.firstSeq + b.recs.length = c.firstSeq ∧ b.number + 1 = c.number ∧ inSequence (c :: r) seq num

/-- What Heartwood keeps at every moment: canonical registers, staging buffer and slots, the batches in sequence, at most 64
notices, and ten counts of 100 ms in every second in progress. -/
structure Heart.Sound (h : Heart) : Prop where
  regs : h.regs.wf heartReset = true
  staging : h.staging.wf (fun _ => 0) = true
  image : h.image.wf (fun _ => 0) = true
  batches : inSequence h.batches h.nextSeq h.nextBatch
  notices : h.notices.length ≤ 64
  subA : h.subA.length = 10
  sub0 : h.link0.sub.length = 10
  sub1 : h.link1.sub.length = 10

/-- The chain value after a run of records (R421). -/
def chained (chain : List Byte) (l : List (BitVec 512)) : List Byte := l.foldl (fun c r => sha512 (c ++ leBytes 64 r.toNat)) chain

/-- Heartwood has written a run of records and no other: SEQ has moved by their number, the chain has taken each of them in
order, and whatever the store holds it held before or is one of them. -/
structure Heart.wroteRecords (h : Heart) (l : List (BitVec 512)) (h' : Heart) : Prop where
  seq : h'.nextSeq = h.nextSeq + l.length
  chain : h'.chain = if l.isEmpty then h.chain else some (chained h.chainNow l)
  store : ∀ r, h'.holds r → h.holds r ∨ r ∈ l

end Sys2Proof.Machine
end

