-- ==== Sys2Proof/Certificates/Slice0/Obligations.lean ====
section
/-! DEFINITION. The statements for the provers. A command's statement says, for every state and operands that meet its hypotheses,
that the command answers a next state, what that state holds, and what it leaves as it was. -/

open Sys2Proof Sys2Proof.Machine

/-- A step runs the command at the front of the queue; every command answers a next state; an empty queue counts time (the model's
choice). Rests on 00_scope.md, R252. -/
def Obligations.StepTakesFront : Prop :=
    (∀ (c : Instr) (rest : List Instr) (s : State),
      s.pending = c :: rest → step s = exec c { s with pending := rest })
    ∧ (∀ (c : Instr) (s : State), ∃ t, exec c s = .next t ∧ t.pending = s.pending)
    ∧ (∀ s : State, s.pending = [] →
      step s = .next { s with dev := if s.dev.pllLock = true ∧ s.dev.coarseMode = false ∧ s.dev.cam.timeOff = false
        then { s.dev with cam := { s.dev.cam with raw := s.dev.cam.raw + 256 } } else s.dev })

/-- After reset the registers of R592 read the values it lists on every present instance, and the invariants of the model hold.
Formalises R592. -/
def Obligations.ResetHoldsTheListedValues : Prop :=
    (∀ v : Variant, let d := (State.resetOf v).dev
      (d.reg 0).toNat / 65536 = 0x72 ∧ d.reg 0x50 = 0x2710
      ∧ d.reg 0x10 = (match v with | .m => 0x0EFF0C1F | .s => 0x0EFF001F | .c => 0x04D00003)
      ∧ d.reg 0x14 = (match v with | .m | .s => 0x00FFFFFF | .c => 0xFFF)
      ∧ d.reg 0x18 = (match v with | .m | .s => 0x007FFFFF | .c => 0x004700FF)
      ∧ d.reg 0x1C = (match v with | .m | .s => 0xFFFFFFFF | .c => 0xF0F00FF3)
      ∧ (∀ n : Fin 36, portPresent v n.val = true → d.reg (portReg n.val 0) = 0x800 ∧ d.reg (portReg n.val 4) = 0x40
          ∧ d.reg (portReg n.val 0xC) = 0xA0000)
      ∧ (∀ g : Fin 4, grovePresent v g.val = true → d.reg (groveReg g.val 0) = 0xFF) ∧ d.reg 0x221000 = 1
      ∧ d.reg (trunkReg 0) = 0x10000 ∧ d.reg (trunkReg 8) = 0x10000 ∧ d.reg (trunkReg 4) = 0x20000
      ∧ (∀ n : Fin 36, ∀ c : Fin 8, portPresent v n.val = true →
          d.reg (queueReg (8 * n.val + c.val) 0) = if c.val < 4 then 0x80090200 else 0x90200)
      ∧ (∀ h : Fin 2, ∀ c : Fin 32, portPresent v (36 + h.val) = true → d.reg (queueReg (288 + 32 * h.val + c.val) 0) = 0x80090200)
      ∧ (extmemPresent v = true → d.reg (trunkReg 0x30) = 0x400)
      ∧ (∀ n : Fin 36, portPresent v n.val = true → d.reg (crownReg n.val 0x14) = 0xFF000000
          ∧ ∀ c : Fin 8, d.reg (crownQ n.val c.val 0) = 0x40000001)
      ∧ (∀ n : Fin 40, portPresent v n.val = true → d.reg (0x37C000 + 4 * n.val) = 0xFAC681)
      ∧ d.reg (barkReg 0) = 0x160000 ∧ (∀ n : Fin 24, canPresent v n.val = true → d.reg (canReg n.val 0) = 0x0A800000)
      ∧ d.reg (burlReg 0) = (match v with | .m | .s => 0x3F | .c => 7) ∧ d.reg (burlReg 0x4010) = 0xFF
      ∧ d.reg (pairReg 0 0) = 0x3010 ∧ d.reg (pairReg 1 0) = 0x5110 ∧ d.reg (pairReg 2 0) = 0x330
      ∧ d.reg (tapReg 0x30) = 0xFF ∧ d.reg (tapReg 4) = 0x203E8 ∧ d.reg (rasReg 0x14) = 0x87 ∧ d.reg (rasReg 0x200) = 0x1388
      ∧ (∀ o : Fin 7, ∀ w : Fin 3, d.reg (rasReg (0x1000 + 16 * o.val + 4 * w.val)) = 0x1FFFFF))
    ∧ (∀ (v : Variant) (a : Nat), (State.resetOf v).dev.reg a = (if a = burlReg 0x4018 then 3 else regReset v a) ∧ (State.resetOf
        v).dev.basjo.reg a = regReset .m a
      ∧ (State.resetOf v).dev.word a = wordReset v a ∧ (State.resetOf v).dev.slot a = KeySlot.empty ∧ (State.resetOf v).dev.stored a
        = none)
    ∧ (∀ v : Variant, (State.resetOf v).dev.canonical = true ∧ (State.resetOf v).heart.Sound ∧ (State.resetOf v).dev.tokenInRange
      ∧ (State.resetOf v).pending = [] ∧ (State.resetOf v).dev.variant = v ∧ (State.resetOf v).heart.on = false)
    ∧ (State.reset = State.resetOf .m)

/-- Rows of Heartwood leave the main die alone, rows of the main die leave Heartwood alone, and a die that is off takes no command.
Rests on R401, R402, R477, R550. -/
def Obligations.DiesActApart : Prop :=
    (∀ (c : Instr) (s t : State), heartwoodRow c = true → exec c s = .next t → t.dev = s.dev)
    ∧ (∀ (c : Instr) (s t : State), heartwoodRow c = false → crossingRow c = false → exec c s = .next t → t.heart = s.heart)
    ∧ (∀ (c : Instr) (s t : State), resetRow c = true → exec c s = .next t → t.heart =
        { s.heart with mainSafe := t.heart.mainSafe })
    ∧ (∀ (c : Instr) (s t : State), s.dev.runs = false → offRow c = false → heartwoodRow c = false → crossingRow c = false → exec c
        s = .next t → t = s)

/-- Every step keeps the stores of registers, table words, host memory, forwarding entries and keys canonical. Rests on
05_grove_forwarding_and_learning.md, 12_burl_keys_and_lifecycle.md, 21_register_block_index.md. -/
def Obligations.StoresStayCanonical : Prop :=
    (∀ s t : State, s.dev.canonical = true → step s = .next t → t.dev.canonical = true)

/-- No command takes the device out of SAFE but a reset or a loss of supply. Rests on R517, R518, R519. -/
def Obligations.SafeEndsOnlyByReset : Prop :=
    (∀ (c : Instr) (s t : State), resetRow c = false → s.dev.safe = true → s.dev.tokenInRange → exec c s = .next t →
      t.dev.safe = true ∧ t.dev.tokenInRange)

/-- Every step keeps the batches in sequence, the notices within 64 and the stores of Heartwood canonical. Rests on R419, R422,
R423, R427. -/
def Obligations.HeartwoodKeepsItsRecords : Prop :=
    (∀ s t : State, s.heart.Sound → step s = .next t → t.heart.Sound)

/-- Every record enters the SHA-512 chain, and the chain changes with records alone. Formalises R421. -/
def Obligations.RecordsEnterTheChain : Prop :=
    (State.reset.heart.chain = none ∧ State.reset.heart.nextSeq = 0 ∧ ∀ h : Heart, h.chain = none → h.chainNow = sha512 (ascii
        "TLTRHWC1" ++ leBytes 8 Config.hwUid.toNat))
    ∧ (∀ s t : State, step s = .next t → ∃ l, s.heart.wroteRecords l t.heart)
    ∧ (∀ (s : State),
      heartPresent s.dev.variant = true →
      s.heart.on = true →
      s.heart.calNext = [] →
      Completes (.hwSecondEnd) s (fun t =>
        s.heart.nextSeq < t.heart.nextSeq ∧ t.heart.chain.isSome = true ∧ t.dev = s.dev))

/-- What a write of a register or of a table word stores, and what a read returns. Rests on R12, R17, R45, R46, R124, R290, R505. -/
def Obligations.AccessesLand : Prop :=
    (∀ (s : State) (a : Acc) (addr value : BitVec 32) (r : RegRow),
      s.opens a addr.toNat = true →
      regRow addr.toNat = some r →
      blockOf addr.toNat = some 10 →
      wordMask addr.toNat = none →
      wordMask (addr.toNat - 4) = none →
      r.rw ≠ 0 →
      r.w1c = 0 →
      Completes (.registerWrite a addr (some value)) s (fun t =>
        t.dev.reg addr.toNat = s.dev.writtenValue r addr.toNat value ∧ s.writes addr.toNat [] [addr.toNat] t))
    ∧ (∀ (s : State) (a : Acc) (addr : BitVec 32),
      s.dev.runs = true →
      blockOf addr.toNat = some 10 →
      wordMask addr.toNat = none →
      wordMask (addr.toNat - 4) = none →
      reaches a.origin.val 10 = true →
      s.dev.permitted 1 a.origin.val 10 = true →
      s.clocked addr.toNat = true →
      Completes (.registerWrite a addr none) s (fun t =>
        t.dev.reads.get 0 a.origin.val = s.dev.reg addr.toNat ∧ (∀ x, x ≠ a.origin.val → t.dev.reads.get 0 x = s.dev.reads.get 0 x)
          ∧ s.keeps [.reads] t))
    ∧ (∀ (s : State) (a : Acc) (addr : BitVec 32),
      s.dev.runs = true →
      blockOf addr.toNat = some 10 →
      wordMask addr.toNat = none →
      wordMask (addr.toNat - 4) = none →
      reaches a.origin.val 10 = true →
      s.dev.permitted 1 a.origin.val 10 = false →
      3 ≤ a.origin.val →
      Completes (.registerWrite a addr none) s (fun t =>
        t.dev.reads.get 0 a.origin.val = 0 ∧ s.changes [.reads] [] t))
    ∧ (∀ (s : State) (a : Acc) (h : Fin 2) (addr : BitVec 32),
      s.dev.runs = true →
      blockOf addr.toNat = some 10 →
      wordMask addr.toNat = none →
      wordMask (addr.toNat - 4) = none →
      reaches a.origin.val 10 = true →
      a.origin.val = h.val + 1 →
      s.dev.permitted 1 a.origin.val 10 = false →
      Completes (.registerWrite a addr none) s (fun t =>
        t.dev.reads.get 0 a.origin.val = 0 ∧ t.dev.basjo.reg (hostReg h.val 0x14) = satAdd (s.dev.basjo.reg (hostReg h.val 0x14)) 1
          ∧ s.keeps [.reads, .basjo, .audit] t))
    ∧ (∀ (s : State) (a : Acc) (addr value : BitVec 32),
      s.opens a addr.toNat = true →
      (wordMask addr.toNat).isSome = true →
      Completes (.tableWordLowerWrite a addr value) s (fun t =>
        t.dev.lower.get none a.origin.val = some (addr.toNat, value) ∧ (∀ o : Fin 11, o ≠ a.origin → t.dev.lower.get none o.val =
          s.dev.lower.get none o.val) ∧ s.keeps [.clocks, .lower] t ∧ t.dev.clocks = (s.dev.demand (unitOf addr.toNat).1 (unitOf
          addr.toNat).2).clocks))
    ∧ (∀ (s : State) (a : Acc) (addr value : BitVec 32) (w mask : Nat) (low : BitVec 32),
      addr.toNat = w + 4 →
      s.opens a w = true →
      wordMask w = some mask →
      mask ≠ 0 →
      w < 0x1000000 ∨ meets s.dev.protectedExtents ((w - 0x1000000) / 8) 1 = false →
      w < 0x368000 ∨ 0x37A000 ≤ w ∨ (s.dev.gate ((w - 0x368000) / 0x800)).pending = none →
      s.clocked w = true →
      s.dev.lower.get none a.origin.val = some (w, low) →
      Completes (.tableWordUpperWrite a addr value) s (fun t =>
        t.dev.word w = inRanges (wordRanges w) (s.dev.word w) ((value ++ low : BitVec 64) &&& wordBits s.dev.variant w mask) ∧
          t.dev.lower.get none a.origin.val = none ∧ (∀ x, x ≠ w → t.dev.word x = s.dev.word x) ∧ t.dev.bark =
          { s.dev.bark with limits := t.dev.bark.limits } ∧ s.changes [.words, .lower, .bark] [] t))
    ∧ (∀ (s : State) (a : Acc) (addr value : BitVec 32) (w : Nat) (low : BitVec 32),
      addr.toNat = w + 4 →
      s.opens a w = true →
      0x1000000 ≤ w →
      wordMask w = some 0xFFFFFFFFFFFFFFFF →
      meets s.dev.protectedExtents ((w - 0x1000000) / 8) 1 = true →
      s.clocked w = true →
      s.dev.lower.get none a.origin.val = some (w, low) →
      Completes (.tableWordUpperWrite a addr value) s (fun t =>
        t.dev.lower.get none a.origin.val = none ∧ t.dev.reg 0x220004 = satAdd (s.dev.reg 0x220004) 1 ∧ s.keeps [.regs, .lower] t ∧
          s.dev.regsKeep [0x220004] t.dev))
    ∧ (∀ (s : State) (a : Acc) (n : Fin 4096) (value : BitVec 32),
      s.opens a (rlAddr n.val) = true →
      s.clocked (rlAddr n.val) = true →
      s.dev.lower.get none a.origin.val = none →
      Completes (.rlWrite a n value) s (fun t =>
        t.dev.word (rlAddr n.val) = inRanges [(53, 32, 3125000)] (s.dev.word (rlAddr n.val)) ((value ++ (0 : BitVec 32) : BitVec 64)
          &&& 0x003FFFFF00FFFFFF) ∧ t.dev.bark.limits.get none n.val = none ∧ (∀ x, x ≠ rlAddr n.val → t.dev.word x = s.dev.word x)
          ∧ t.dev.bark = { s.dev.bark with limits := t.dev.bark.limits } ∧ (∀ k, k ≠ n.val → t.dev.bark.limits.get none k =
          s.dev.bark.limits.get none k) ∧ s.changes [.words, .lower, .bark] [] t))
    ∧ (∀ (s : State) (cluster unit : BitVec 8),
      s.dev.runs = true →
      s.dev.disabledBranch cluster.toNat unit.toNat = false →
      s.dev.unitPowered cluster.toNat unit.toNat = true →
      Completes (.heldAccessRelease cluster unit) s (fun t =>
        t.dev.clocks.held = s.dev.clocks.held.filter (fun x => !(x.cluster = cluster.toNat && x.unit = unit.toNat)) ∧ (256 *
          cluster.toNat + unit.toNat) ∉ t.dev.clocks.stopped ∧ t.heart = s.heart ∧ t.pending = s.pending))
    ∧ (∀ (s : State) (unit : BitVec 8) (x : HeldAccess) (v : Word) (r : RegRow),
      s.dev.runs = true →
      s.dev.clocks.held = [x] →
      x.cluster = 0x30 →
      x.unit = unit.toNat →
      x.isWord = false →
      x.value = some v →
      regRow x.addr = some r →
      blockOf x.addr = some 10 →
      Completes (.heldAccessRelease 0x30 unit) s (fun t =>
        t.dev.reg x.addr = s.dev.reg x.addr &&& ~~~(v &&& BitVec.ofNat 32 r.w1c) ∧ t.dev.clocks.held = [] ∧ s.keeps [.regs, .clocks]
          t ∧ s.dev.regsKeep [x.addr] t.dev))
    ∧ (∀ (s : State) (h : Fin 2) (off : BitVec 26) (size : Nat),
      ¬ ((size = 4 ∨ size = 8) ∧ off.toNat % size = 0) →
      Completes (.bar0UnsupportedAccess h off size) s (fun t =>
        t = s))

/-- Enabling, draining and stopping a ring. Rests on R50, R56, R79. -/
def Obligations.RingsRise : Prop :=
    (∀ (s : State) (a : Acc) (h : Fin 2) (r : Fin 128),
      s.opens a (ringReg h.val r.val 0x10) = true →
      s.dev.basjo.ringEnabled h.val r.val = false →
      s.dev.basjo.ringValid h.val r.val = true →
      Completes (.ringEnable a h r) s (fun t =>
        t.dev.basjo.ringEnabled h.val r.val = true ∧ t.dev.basjo.reg (ringReg h.val r.val 0x10) = setFld (s.dev.basjo.reg (ringReg
          h.val r.val 0x10)) 31 31 1 ∧ t.dev.basjo.hostIdx h.val r.val = 0 ∧ t.dev.basjo.devIdx h.val r.val = 0 ∧ t.dev.basjo.reg
          (ringReg h.val r.val 0x20) = 0 ∧ t.dev.basjo.ringActive h.val r.val = s.dev.basjo.rb (hostReg h.val 0) 0 ∧
          t.dev.basjo.ring h.val r.val = .idle ∧ t.dev.hostDead h.val = false ∧ s.keeps [.clocks, .basjo, .audit] t ∧
          s.dev.basjo.ringOnly h.val r.val [ringReg h.val r.val 0x10, ringReg h.val r.val 0x14, ringReg h.val r.val 0x18, ringReg
          h.val r.val 0x1C, ringReg h.val r.val 0x20] t.dev.basjo ∧ t.dev.clocks = (s.dev.demand (unitOf (ringReg h.val r.val
          0x10)).1 (unitOf (ringReg h.val r.val 0x10)).2).clocks))
    ∧ (∀ (s : State) (a : Acc) (h : Fin 2) (r : Fin 128),
      s.opens a (ringReg h.val r.val 0x10) = true →
      s.dev.basjo.ringEnabled h.val r.val = false →
      s.dev.basjo.ringValid h.val r.val = false →
      Completes (.ringEnable a h r) s (fun t =>
        t.dev.basjo.ringEnabled h.val r.val = false ∧ t.dev.basjo.reg (ringReg h.val r.val 0x1C) = setFld (s.dev.basjo.reg (ringReg
          h.val r.val 0x1C)) 3 3 1 ∧ s.keeps [.clocks, .basjo, .audit] t ∧ s.dev.basjo.ringOnly h.val r.val [ringReg h.val r.val
          0x1C] t.dev.basjo ∧ t.dev.clocks = (s.dev.demand (unitOf (ringReg h.val r.val 0x10)).1 (unitOf (ringReg h.val r.val
          0x10)).2).clocks))
    ∧ (∀ (s : State) (a : Acc) (h : Fin 2) (r : Fin 128),
      s.opens a (ringReg h.val r.val 0x10) = true →
      s.dev.basjo.ringEnabled h.val r.val = true →
      Completes (.ringEnable a h r) s (fun t =>
        t.dev.basjo.reg (ringReg h.val r.val 0x10) = s.dev.basjo.reg (ringReg h.val r.val 0x10) ∧ s.writes (ringReg h.val r.val
          0x10) [] [] t))
    ∧ (∀ (s : State) (a : Acc) (h : Fin 2) (r : Fin 128),
      s.opens a (ringReg h.val r.val 0x10) = true →
      Completes (.ringDisable a h r) s (fun t =>
        t.dev.basjo.reg (ringReg h.val r.val 0x10) = setFld (s.dev.basjo.reg (ringReg h.val r.val 0x10)) 31 31 0 ∧
          t.dev.basjo.ringEnabled h.val r.val = false ∧ t.dev.basjo.hostIdx h.val r.val = s.dev.basjo.hostIdx h.val r.val ∧
          t.dev.basjo.ringActive h.val r.val = s.dev.basjo.ringActive h.val r.val ∧ s.keeps [.clocks, .basjo, .audit] t ∧
          s.dev.basjo.ringOnly h.val r.val [ringReg h.val r.val 0x10] t.dev.basjo ∧ t.dev.clocks = (s.dev.demand (unitOf (ringReg
          h.val r.val 0x10)).1 (unitOf (ringReg h.val r.val 0x10)).2).clocks))
    ∧ (∀ (s : State) (h : Fin 2) (r : Fin 128),
      s.dev.runs = true →
      s.dev.basjo.ringActive h.val r.val = true →
      s.dev.basjo.ringEnabled h.val r.val = false →
      s.dev.ringDone h.val r.val = true →
      Completes (.ringStopped h r) s (fun t =>
        t.dev.basjo.ringActive h.val r.val = false ∧ t.dev.basjo.ring h.val r.val =
          { s.dev.basjo.ring h.val r.val with descs := [], rejecting := false, posted := [] } ∧ t.dev.basjo =
          { s.dev.basjo with regs := t.dev.basjo.regs, rings := t.dev.basjo.rings } ∧ (∀ x, x ≠ ringReg h.val r.val 0x1C →
          t.dev.basjo.reg x = s.dev.basjo.reg x) ∧ t.dev.crown = { s.dev.crown with queues := t.dev.crown.queues } ∧ s.keeps
          [.basjo, .crown] t))

/-- A doorbell within its limits becomes the host index, and any other is refused or has no effect. Formalises R52, R53. -/
def Obligations.DoorbellMovesIndex : Prop :=
    (∀ (s : State) (h : Fin 2) (r : Fin 128) (value : BitVec 32) (posted : List RxBuf),
      s.dev.runs = true →
      (hostPorts s.dev.variant).contains h.val = true →
      s.dev.permitted 0 (h.val + 1) 1 = true →
      s.dev.basjo.ringEnabled h.val r.val = true →
      s.dev.basjo.ringType h.val r.val ≠ 2 →
      s.dev.basjo.ringType h.val r.val ≠ 4 →
      dist32 (s.dev.basjo.hostIdx h.val r.val) value ≤ s.dev.basjo.ringSize h.val r.val →
      dist32 (s.dev.basjo.devIdx h.val r.val) value ≤ s.dev.basjo.ringSize h.val r.val →
      Completes (.doorbellWrite h r value posted) s (fun t =>
        t.dev.basjo.hostIdx h.val r.val = value ∧ s.keeps [.basjo] t ∧ t.dev.basjo = { s.dev.basjo with regs := t.dev.basjo.regs } ∧
          (∀ x, x ≠ ringReg h.val r.val 0x14 → t.dev.basjo.reg x = s.dev.basjo.reg x)))
    ∧ (∀ (s : State) (h : Fin 2) (r : Fin 128) (value : BitVec 32) (posted : List RxBuf),
      s.dev.runs = true →
      (hostPorts s.dev.variant).contains h.val = true →
      s.dev.permitted 0 (h.val + 1) 1 = true →
      s.dev.basjo.ringEnabled h.val r.val = true →
      s.dev.basjo.ringType h.val r.val = 2 →
      value ≠ s.dev.basjo.hostIdx h.val r.val →
      dist32 (s.dev.basjo.hostIdx h.val r.val) value ≤ s.dev.basjo.ringSize h.val r.val →
      dist32 (s.dev.basjo.devIdx h.val r.val) value ≤ s.dev.basjo.ringSize h.val r.val →
      Completes (.doorbellWrite h r value posted) s (fun t =>
        t.dev.basjo.hostIdx h.val r.val = value ∧ t.dev.basjo.ring h.val r.val =
          { s.dev.basjo.ring h.val r.val with posted := (s.dev.basjo.ring h.val r.val).posted ++ postedBufs (dist32 (s.dev.basjo.hostIdx h.val r.val) value) posted }
          ∧ t.dev.basjo = { s.dev.basjo with regs := t.dev.basjo.regs, rings := t.dev.basjo.rings } ∧ (∀ x, x ≠ ringReg h.val r.val
          0x14 → t.dev.basjo.reg x = s.dev.basjo.reg x) ∧ s.keeps [.basjo] t ∧ s.dev.basjo.ringOnly h.val r.val [ringReg h.val r.val
          0x14] t.dev.basjo))
    ∧ (∀ (s : State) (h : Fin 2) (r : Fin 128) (value : BitVec 32) (posted : List RxBuf),
      s.dev.runs = true →
      (hostPorts s.dev.variant).contains h.val = true →
      s.dev.permitted 0 (h.val + 1) 1 = true →
      s.dev.basjo.ringEnabled h.val r.val = true →
      s.dev.basjo.ringType h.val r.val = 4 →
      dist32 (s.dev.basjo.hostIdx h.val r.val) value ≤ dist32 (s.dev.basjo.hostIdx h.val r.val) (s.dev.basjo.devIdx h.val r.val) →
      Completes (.doorbellWrite h r value posted) s (fun t =>
        t.dev.basjo.hostIdx h.val r.val = value ∧ s.keeps [.basjo] t ∧ t.dev.basjo = { s.dev.basjo with regs := t.dev.basjo.regs } ∧
          (∀ x, x ≠ ringReg h.val r.val 0x14 → t.dev.basjo.reg x = s.dev.basjo.reg x)))
    ∧ (∀ (s : State) (h : Fin 2) (r : Fin 128) (value : BitVec 32) (posted : List RxBuf),
      s.dev.runs = true →
      (hostPorts s.dev.variant).contains h.val = true →
      s.dev.permitted 0 (h.val + 1) 1 = true →
      s.dev.basjo.ringEnabled h.val r.val = true →
      value ≠ s.dev.basjo.hostIdx h.val r.val →
      ((s.dev.basjo.ringType h.val r.val ≠ 4 ∧ (s.dev.basjo.ringSize h.val r.val < dist32 (s.dev.basjo.hostIdx h.val r.val) value ∨
        s.dev.basjo.ringSize h.val r.val < dist32 (s.dev.basjo.devIdx h.val r.val) value)) ∨ (s.dev.basjo.ringType h.val r.val = 4 ∧
        dist32 (s.dev.basjo.hostIdx h.val r.val) (s.dev.basjo.devIdx h.val r.val) < dist32 (s.dev.basjo.hostIdx h.val r.val) value))
        →
      Completes (.doorbellWrite h r value posted) s (fun t =>
        t.dev = (s.dev.onBasjo (fun x => (x.setRf (ringReg h.val r.val 0x1C) 2 2 1).count (hostReg h.val 0x10))).raiseAt h.val 5 1 1
          h.val r.val value.toNat ∧ t.dev.basjo.hostIdx h.val r.val = s.dev.basjo.hostIdx h.val r.val ∧ t.heart = s.heart ∧
          t.pending = s.pending))
    ∧ (∀ (s : State) (h : Fin 2) (r : Fin 128) (value : BitVec 32) (posted : List RxBuf),
      s.dev.runs = true →
      (hostPorts s.dev.variant).contains h.val = true →
      s.dev.permitted 0 (h.val + 1) 1 = true →
      value = s.dev.basjo.hostIdx h.val r.val →
      Completes (.doorbellWrite h r value posted) s (fun t =>
        t = s))
    ∧ (∀ (s : State) (h : Fin 2) (r : Fin 128) (value : BitVec 32) (posted : List RxBuf),
      s.dev.runs = true →
      (hostPorts s.dev.variant).contains h.val = true →
      s.dev.permitted 0 (h.val + 1) 1 = true →
      s.dev.basjo.ringEnabled h.val r.val = false →
      Completes (.doorbellWrite h r value posted) s (fun t =>
        t = s))
    ∧ (∀ (s : State) (h : Fin 2) (r : Fin 128) (value : BitVec 32) (posted : List RxBuf),
      s.dev.runs = true →
      (hostPorts s.dev.variant).contains h.val = true →
      s.dev.permitted 0 (h.val + 1) 1 = false →
      Completes (.doorbellWrite h r value posted) s (fun t =>
        t.dev.basjo.reg (hostReg h.val 0x14) = satAdd (s.dev.basjo.reg (hostReg h.val 0x14)) 1 ∧ t.dev.basjo.hostIdx h.val r.val =
          s.dev.basjo.hostIdx h.val r.val ∧ s.keeps [.basjo, .audit] t ∧ s.dev.basjo.ringOnly h.val r.val [hostReg h.val 0x14]
          t.dev.basjo))
    ∧ (∀ (s u : State) (h : Fin 2) (r : Fin 128) (first value : BitVec 32),
      s.dev.runs = true →
      s.dev.basjo.ringEnabled h.val r.val = true →
      s.dev.basjo.ringType h.val r.val ≠ 2 →
      value ≠ s.dev.basjo.hostIdx h.val r.val →
      value ≠ first →
      exec (.doorbellWrite h r first []) s = .next u →
      s.dev.basjo.doorbellOk h.val r.val first = true →
      s.dev.basjo.doorbellOk h.val r.val value = true →
      u.dev.basjo.doorbellOk h.val r.val value = true →
      exec (.doorbellWrite h r value []) u = exec (.doorbellWrite h r value []) s)

/-- Descriptors and frames a transmit ring gives the device. Rests on R34, R37, R54, R57, R58, R59, R60, R61, R474. -/
def Obligations.TransmitRingsRead : Prop :=
    (∀ (s : State) (h : Fin 2) (r : Fin 128) (desc : TxDesc) (wb : Bool),
      s.dev.runs = true →
      s.dev.basjo.ringRuns h.val r.val 1 = true →
      (s.dev.basjo.ring h.val r.val).descs = [] →
      (s.dev.basjo.ring h.val r.val).rejecting = false →
      dist32 (s.dev.basjo.devIdx h.val r.val) (s.dev.basjo.hostIdx h.val r.val) ≠ 0 →
      s.dev.turnsLeft h.val r.val = true →
      s.dev.heldWrite (h.val + 1) = false →
      TxDesc.malformed desc = false →
      s.dev.basjo.ringSize h.val r.val ≥ 2 →
      Completes (.txDescriptorRead (.host h r) desc false wb) s (fun t =>
        (t.dev.basjo.ring h.val r.val) =
          { (s.dev.basjo.ring h.val r.val) with descs := [desc], stamp := s.dev.now, order := s.dev.basjo.order, launch := (if bit desc.w8 17 then some (extendSec 32 (fld desc.w16 63 32) (fld desc.w16 31 0 * 65536) s.dev.wt) else none), turns := (s.dev.basjo.ring h.val r.val).turns + 1 }
          ∧ t.dev.basjo = { s.dev.basjo with rings := t.dev.basjo.rings, order := s.dev.basjo.order + 1 } ∧ (∀ h' r', r' < 128 → ¬
          (h' = h.val ∧ r' = r.val) → t.dev.basjo.ring h' r' = s.dev.basjo.ring h' r') ∧ s.keeps [.basjo] t))
    ∧ (∀ (s : State) (r : Fin 4) (desc : TxDesc) (wb : Bool),
      s.dev.runs = true →
      s.dev.txRuns (.canopy r) = true →
      (s.dev.basjo.ring 2 r.val).descs = [] →
      (s.dev.basjo.ring 2 r.val).rejecting = false →
      dist32 (s.dev.reg (sptReg r.val 0x10)) (s.dev.reg (sptReg r.val 0xC)) ≠ 0 →
      s.dev.heldWrite 11 = false →
      TxDesc.malformed desc = false →
      s.dev.rf (sptReg r.val 0) 20 16 ≥ 1 →
      Completes (.txDescriptorRead (.canopy r) desc false wb) s (fun t =>
        t.dev.basjo.ring 2 r.val =
          { (s.dev.basjo.ring 2 r.val) with descs := [desc], stamp := s.dev.now, order := s.dev.basjo.order, launch := (if bit desc.w8 17 then some (extendSec 32 (fld desc.w16 63 32) (fld desc.w16 31 0 * 65536) s.dev.wt) else none) }
          ∧ t.dev.basjo = { s.dev.basjo with rings := t.dev.basjo.rings, order := s.dev.basjo.order + 1 } ∧ (∀ h' r', r' < 128 → ¬
          (h' = 2 ∧ r' = r.val) → t.dev.basjo.ring h' r' = s.dev.basjo.ring h' r') ∧ s.keeps [.basjo] t))
    ∧ (∀ (s : State) (h : Fin 2) (r : Fin 128) (l : List TxDesc) (desc : TxDesc) (wb : Bool),
      s.dev.runs = true →
      s.dev.txDrains (.host h r) = true →
      (s.dev.basjo.ring h.val r.val).descs = l →
      l ≠ [] →
      l.all (fun x => !TxDesc.eop x) = true →
      (s.dev.basjo.ring h.val r.val).rejecting = false →
      l.length < dist32 (s.dev.basjo.devIdx h.val r.val) (s.dev.basjo.hostIdx h.val r.val) →
      s.dev.heldWrite (h.val + 1) = false →
      TxDesc.malformed desc = false →
      l.length < 63 →
      l.length + 1 < s.dev.basjo.ringSize h.val r.val →
      Completes (.txDescriptorRead (.host h r) desc false wb) s (fun t =>
        (t.dev.basjo.ring h.val r.val) = { (s.dev.basjo.ring h.val r.val) with descs := l ++ [desc] } ∧ t.dev.basjo =
          { s.dev.basjo with rings := t.dev.basjo.rings } ∧ (∀ h' r', r' < 128 → ¬ (h' = h.val ∧ r' = r.val) → t.dev.basjo.ring h'
          r' = s.dev.basjo.ring h' r') ∧ s.keeps [.basjo] t))
    ∧ (∀ (s : State) (h : Fin 2) (r : Fin 128) (desc : TxDesc) (wb : Bool),
      s.dev.runs = true →
      s.dev.basjo.ringRuns h.val r.val 1 = true →
      (s.dev.basjo.ring h.val r.val).descs = [] →
      (s.dev.basjo.ring h.val r.val).rejecting = false →
      dist32 (s.dev.basjo.devIdx h.val r.val) (s.dev.basjo.hostIdx h.val r.val) ≠ 0 →
      s.dev.turnsLeft h.val r.val = true →
      s.dev.heldWrite (h.val + 1) = false →
      Completes (.txDescriptorRead (.host h r) desc true wb) s (fun t =>
        (t.dev.basjo.ring h.val r.val).stopped = true ∧ t.dev.basjo.ringActive h.val r.val = false ∧ t.dev.basjo.rb (ringReg h.val
          r.val 0x1C) 1 = true ∧ t.dev.basjo.devIdx h.val r.val = s.dev.basjo.devIdx h.val r.val ∧ t.dev.basjo.reg (hostReg h.val
          0x1C) = satAdd (s.dev.basjo.reg (hostReg h.val 0x1C)) 1 ∧ s.keeps [.basjo] t ∧ s.dev.basjo.ringOnly h.val r.val [ringReg
          h.val r.val 0x1C, hostReg h.val 0x1C] t.dev.basjo))
    ∧ (∀ (s : State) (h : Fin 2) (r : Fin 128) (desc : TxDesc) (wb : Bool),
      s.dev.runs = true →
      s.dev.basjo.ringRuns h.val r.val 1 = true →
      (s.dev.basjo.ring h.val r.val).descs = [] →
      (s.dev.basjo.ring h.val r.val).rejecting = false →
      dist32 (s.dev.basjo.devIdx h.val r.val) (s.dev.basjo.hostIdx h.val r.val) ≠ 0 →
      s.dev.turnsLeft h.val r.val = true →
      s.dev.heldWrite (h.val + 1) = false →
      TxDesc.malformed desc = true →
      Completes (.txDescriptorRead (.host h r) desc false wb) s (fun t =>
        (t.dev.basjo.ring h.val r.val).stopped = true ∧ t.dev.basjo.ringActive h.val r.val = false ∧ t.dev.basjo.rb (ringReg h.val
          r.val 0x1C) 0 = true ∧ t.dev.basjo.devIdx h.val r.val = s.dev.basjo.devIdx h.val r.val ∧ s.keeps [.basjo] t ∧
          s.dev.basjo.ringOnly h.val r.val [ringReg h.val r.val 0x1C] t.dev.basjo))
    ∧ (∀ (s : State) (h : Fin 2) (r : Fin 128) (desc : TxDesc),
      s.dev.runs = true →
      s.dev.txDrains (.host h r) = true →
      (s.dev.basjo.ring h.val r.val).descs = [] →
      (s.dev.basjo.ring h.val r.val).rejecting = true →
      dist32 (s.dev.basjo.devIdx h.val r.val) (s.dev.basjo.hostIdx h.val r.val) ≠ 0 →
      s.dev.heldWrite (h.val + 1) = false →
      TxDesc.malformed desc = false →
      Completes (.txDescriptorRead (.host h r) desc false false) s (fun t =>
        t.dev.basjo.devIdx h.val r.val = s.dev.basjo.devIdx h.val r.val + 1 ∧ (t.dev.basjo.ring h.val r.val) =
          { (s.dev.basjo.ring h.val r.val) with descs := [], rejecting := !TxDesc.eop desc } ∧ s.dev.basjo.told h.val r.val 1
          stBadParam t.dev.basjo ∧ s.keeps [.basjo] t))
    ∧ (∀ (s : State) (h : Fin 2) (r : Fin 128) (l : List TxDesc) (desc : TxDesc) (octets : List (BitVec 8)) (err : Bool) (st : Nat),
      s.dev.runs = true →
      s.dev.txDrains (.host h r) = true →
      (s.dev.basjo.ring h.val r.val).descs = l ++ [desc] →
      TxDesc.eop desc = true →
      txReject (.host h r) (l ++ [desc]) = some st →
      st < 256 →
      l.length + 1 ≤ s.dev.basjo.ringSize h.val r.val →
      Completes (.txFrameReadDone (.host h r) octets err false) s (fun t =>
        t.dev.basjo.devIdx h.val r.val = s.dev.basjo.devIdx h.val r.val + BitVec.ofNat 32 (l.length + 1) ∧ (t.dev.basjo.ring h.val
          r.val).descs = [] ∧ s.dev.basjo.told h.val r.val (l.length + 1) (st) t.dev.basjo ∧ s.keeps [.basjo] t))
    ∧ (∀ (s : State) (h : Fin 2) (r : Fin 128) (l : List TxDesc) (desc : TxDesc) (octets : List (BitVec 8)),
      s.dev.runs = true →
      s.dev.txDrains (.host h r) = true →
      (s.dev.basjo.ring h.val r.val).descs = l ++ [desc] →
      TxDesc.eop desc = true →
      txReject (.host h r) (l ++ [desc]) = none →
      octets.length ≠ ((l ++ [desc]).foldl (fun n x => n + TxDesc.length x) 0) →
      l.length + 1 ≤ s.dev.basjo.ringSize h.val r.val →
      Completes (.txFrameReadDone (.host h r) octets false false) s (fun t =>
        t.dev.basjo.devIdx h.val r.val = s.dev.basjo.devIdx h.val r.val + BitVec.ofNat 32 (l.length + 1) ∧ (t.dev.basjo.ring h.val
          r.val).descs = [] ∧ t.dev.basjo.reg (hostReg h.val 0x1C) = satAdd (s.dev.basjo.reg (hostReg h.val 0x1C)) 1 ∧
          s.dev.basjo.told h.val r.val (l.length + 1) (stDmaErr) t.dev.basjo ∧ s.keeps [.basjo] t))
    ∧ (∀ (s : State) (h : Fin 2) (r : Fin 128) (l : List TxDesc) (desc : TxDesc) (octets : List (BitVec 8)),
      s.dev.runs = true →
      s.dev.txDrains (.host h r) = true →
      (s.dev.basjo.ring h.val r.val).descs = l ++ [desc] →
      TxDesc.eop desc = true →
      txReject (.host h r) (l ++ [desc]) = none →
      s.dev.rxOf (36 + h.val) = none →
      s.dev.canTake (36 + h.val) (cellsOf ((l ++ [desc]).foldl (fun n x => n + TxDesc.length x) 0)) = true →
      s.dev.txBehind (.host h r) = false →
      octets.length = ((l ++ [desc]).foldl (fun n x => n + TxDesc.length x) 0) →
      l.length + 1 ≤ s.dev.basjo.ringSize h.val r.val →
      Completes (.txFrameReadDone (.host h r) octets false false) s (fun t =>
        (t.dev.rxOf (36 + h.val)).map (·.octets) = some octets ∧ (t.dev.rxOf (36 + h.val)).map (·.len) = some octets.length ∧
          (t.dev.rxOf (36 + h.val)).map (·.inPort) = some (36 + h.val) ∧ (t.dev.rxOf (36 + h.val)).map (·.stamp) = some
          (s.dev.basjo.ring h.val r.val).stamp ∧ (t.dev.rxOf (36 + h.val)).map (·.group) = some (s.dev.basjo.rf (ringReg h.val r.val
          0x24) 3 0) ∧ (t.dev.rxOf (36 + h.val)).map (·.launch) = some (s.dev.basjo.ring h.val r.val).launch ∧ t.dev.basjo.devIdx
          h.val r.val = s.dev.basjo.devIdx h.val r.val + BitVec.ofNat 32 (l.length + 1) ∧ (t.dev.basjo.ring h.val r.val).descs = []
          ∧ s.dev.basjo.told h.val r.val (l.length + 1) (stOk) t.dev.basjo ∧ s.keeps [.rx, .trunk, .regs, .clocks, .basjo] t))
    ∧ (∀ (s : State) (h : Fin 2) (r : Fin 128) (l : List TxDesc) (desc : TxDesc) (octets : List (BitVec 8)) (err : Bool) (st : Nat),
      s.dev.runs = true →
      s.dev.txDrains (.host h r) = true →
      (s.dev.basjo.ring h.val r.val).descs = l ++ [desc] →
      TxDesc.eop desc = true →
      txReject (.host h r) (l ++ [desc]) = some st →
      Completes (.txFrameReadDone (.host h r) octets err true) s (fun t =>
        (t.dev.basjo.ring h.val r.val).stopped = true ∧ (t.dev.basjo.ring h.val r.val).descs = [] ∧ t.dev.basjo.ringActive h.val
          r.val = false ∧ t.dev.basjo.devIdx h.val r.val = s.dev.basjo.devIdx h.val r.val ∧ t.dev.basjo.reg (hostReg h.val 0x1C) =
          satAdd (s.dev.basjo.reg (hostReg h.val 0x1C)) 1 ∧ s.keeps [.basjo] t ∧ s.dev.basjo.ringOnly h.val r.val [ringReg h.val
          r.val 0x1C, hostReg h.val 0x1C] t.dev.basjo))

/-- A frame chosen for a host is written into posted buffers, waits, or meets an error. Rests on R57, R62, R63, R65. -/
def Obligations.ReceiveRingsFill : Prop :=
    (∀ (s : State) (h : Fin 2) (x : TxRun) (q r : Nat) (l : List (RxBuf × Nat)) (f : Stored),
      s.dev.runs = true →
      s.dev.chosenRing h.val = some (x, q, r) →
      s.dev.basjo.rb (hostReg h.val (0x300 + 4 * q)) 31 = true →
      s.dev.basjo.ringActive h.val r = true →
      s.dev.basjo.ringType h.val r = 2 →
      (s.dev.basjo.ring h.val r).stopped = false →
      (s.dev.basjo.ring h.val r).posted ≠ [] →
      s.dev.heldWrite (h.val + 1) = false →
      s.dev.stored x.frame = some f →
      fillBufs 256 x.octets.length (s.dev.basjo.ring h.val r).posted = .fits l →
      Completes (.rxFrameWrite h false false false) s (fun t =>
        t.dev.crown.tx.get none (36 + h.val) = none ∧ (∀ p, p ≠ 36 + h.val → t.dev.crown.tx.get none p = s.dev.crown.tx.get none p)
          ∧ t.dev.basjo = ((s.dev.basjo.writeFrame h.val (fun i => s.dev.basjo.entryAddr h.val r 32 (s.dev.basjo.devIdx h.val r +
          BitVec.ofNat 32 i)) (f.rxMeta x.reason q) (secOf (s.dev.wtOf f.stamp)) (f.rxLast + nsOf (s.dev.wtOf f.stamp)) l.length 0 l
          x.octets).advance h.val r l.length).setRing h.val r
          { s.dev.basjo.ring h.val r with posted := (s.dev.basjo.ring h.val r).posted.drop l.length } ∧ t.dev.basjo.devIdx h.val r =
          s.dev.basjo.devIdx h.val r + BitVec.ofNat 32 l.length ∧ (s.dev.tap.modeCmd = none → s.keeps [.crown, .trunk, .regs,
          .basjo] t)))
    ∧ (∀ (s : State) (h : Fin 2) (x : TxRun) (q r : Nat) (b : RxBuf) (rest : List RxBuf) (f : Stored) (k : Nat),
      s.dev.runs = true →
      s.dev.chosenRing h.val = some (x, q, r) →
      s.dev.basjo.rb (hostReg h.val (0x300 + 4 * q)) 31 = true →
      s.dev.basjo.ringActive h.val r = true →
      s.dev.basjo.ringType h.val r = 2 →
      (s.dev.basjo.ring h.val r).stopped = false →
      (s.dev.basjo.ring h.val r).posted ≠ [] →
      s.dev.heldWrite (h.val + 1) = false →
      s.dev.stored x.frame = some f →
      (s.dev.basjo.ring h.val r).posted = b :: rest →
      b.addr.toNat % 64 = 0 →
      b.len.toNat % 64 = 0 →
      256 ≤ b.len.toNat →
      b.len.toNat ≤ 16384 →
      x.octets.length ≤ b.len.toNat →
      x.octets ≠ [] →
      k < x.octets.length →
      b.addr.toNat + 16384 ≤ s.dev.basjo.entryAddr h.val r 32 (s.dev.basjo.devIdx h.val r) →
      s.dev.basjo.entryAddr h.val r 32 (s.dev.basjo.devIdx h.val r) + 32 < 2 ^ 64 →
      s.dev.basjo.entryAddr h.val r 32 (s.dev.basjo.devIdx h.val r) + 32 ≤ (s.dev.basjo.reg (ringReg h.val r 8)).toNat + 2 ^ 32 *
        (s.dev.basjo.reg (ringReg h.val r 0xC)).toNat →
      (s.dev.basjo.reg (ringReg h.val r 8)).toNat + 2 ^ 32 * (s.dev.basjo.reg (ringReg h.val r 0xC)).toNat + 4 < 2 ^ 64 →
      Completes (.rxFrameWrite h false false false) s (fun t =>
        t.dev.basjo.octet h.val (b.addr.toNat + k) = x.octets.getD k 0 ∧ (∀ j < 24, t.dev.basjo.octet h.val (s.dev.basjo.entryAddr
          h.val r 32 (s.dev.basjo.devIdx h.val r) + 8 + j) = (leBytes 8 (b.len.toNat + 2 ^ 16 * x.octets.length + 2 ^ 32 + 2 ^ 33 +
          2 ^ 34 + 2 ^ 35 + 2 ^ 36 * f.rxMeta x.reason q) ++ leBytes 8 (secOf (s.dev.wtOf f.stamp)) ++ leBytes 8 (f.rxLast + nsOf
          (s.dev.wtOf f.stamp))).getD j 0) ∧ (s.dev.tap.modeCmd = none → s.keeps [.crown, .trunk, .regs, .basjo] t)))
    ∧ (∀ (s : State) (h : Fin 2) (x : TxRun) (q r : Nat),
      s.dev.runs = true →
      s.dev.chosenRing h.val = some (x, q, r) →
      s.dev.basjo.rb (hostReg h.val (0x300 + 4 * q)) 31 = true →
      s.dev.basjo.ringActive h.val r = true →
      s.dev.basjo.ringType h.val r = 2 →
      (s.dev.basjo.ring h.val r).stopped = false →
      (s.dev.basjo.ring h.val r).posted = [] →
      s.dev.tap.modeCmd = none →
      Completes (.rxFrameWrite h false false false) s (fun t =>
        t = s))
    ∧ (∀ (s : State) (h : Fin 2) (x : TxRun) (q r : Nat),
      s.dev.runs = true →
      s.dev.chosenRing h.val = some (x, q, r) →
      s.dev.basjo.rb (hostReg h.val (0x300 + 4 * q)) 31 = true →
      s.dev.basjo.ringActive h.val r = true →
      s.dev.basjo.ringType h.val r = 2 →
      (s.dev.basjo.ring h.val r).stopped = false →
      (s.dev.basjo.ring h.val r).posted ≠ [] →
      s.dev.heldWrite (h.val + 1) = false →
      Completes (.rxFrameWrite h true false false) s (fun t =>
        (t.dev.basjo.ring h.val r).stopped = true ∧ t.dev.basjo.ringActive h.val r = false ∧ t.dev.basjo.devIdx h.val r =
          s.dev.basjo.devIdx h.val r ∧ t.dev.basjo.reg (hostReg h.val 0x1C) = satAdd (s.dev.basjo.reg (hostReg h.val 0x1C)) 1 ∧
          t.dev.crown.tx.get none (36 + h.val) = none ∧ t.dev.stored x.frame = s.dev.stored x.frame ∧ (t.dev.tq
          x.queue).descs.head?.map (fun (e : Desc) => (e.seq, e.frame)) = some (x.seq, x.frame) ∧ (s.dev.tap.modeCmd = none →
          s.keeps [.basjo, .crown, .trunk, .regs] t)))
    ∧ (∀ (s : State) (h : Fin 2) (x : TxRun) (q r : Nat),
      s.dev.runs = true →
      s.dev.chosenRing h.val = some (x, q, r) →
      s.dev.basjo.rb (hostReg h.val (0x300 + 4 * q)) 31 = true →
      s.dev.basjo.ringActive h.val r = true →
      s.dev.basjo.ringType h.val r = 2 →
      (s.dev.basjo.ring h.val r).stopped = false →
      (s.dev.basjo.ring h.val r).posted ≠ [] →
      s.dev.heldWrite (h.val + 1) = false →
      fillBufs 256 x.octets.length (s.dev.basjo.ring h.val r).posted = .bad →
      r < 128 →
      Completes (.rxFrameWrite h false false false) s (fun t =>
        (t.dev.basjo.ring h.val r).stopped = true ∧ t.dev.basjo.ringActive h.val r = false ∧ t.dev.basjo.devIdx h.val r =
          s.dev.basjo.devIdx h.val r ∧ t.dev.basjo.rb (ringReg h.val r 0x1C) 0 = true ∧ t.dev.crown.tx.get none (36 + h.val) = none
          ∧ (s.dev.tap.modeCmd = none → s.keeps [.basjo, .crown, .trunk, .regs] t)))
    ∧ (∀ (s : State) (h : Fin 2) (x : TxRun) (q r : Nat) (l : List (RxBuf × Nat)) (f : Stored),
      s.dev.runs = true →
      s.dev.chosenRing h.val = some (x, q, r) →
      s.dev.basjo.rb (hostReg h.val (0x300 + 4 * q)) 31 = true →
      s.dev.basjo.ringActive h.val r = true →
      s.dev.basjo.ringType h.val r = 2 →
      (s.dev.basjo.ring h.val r).stopped = false →
      (s.dev.basjo.ring h.val r).posted ≠ [] →
      s.dev.heldWrite (h.val + 1) = false →
      s.dev.stored x.frame = some f →
      fillBufs 256 x.octets.length (s.dev.basjo.ring h.val r).posted = .fits l →
      r < 128 →
      Completes (.rxFrameWrite h false true false) s (fun t =>
        t.dev.crown.tx.get none (36 + h.val) = none ∧ (∀ p, p ≠ 36 + h.val → t.dev.crown.tx.get none p = s.dev.crown.tx.get none p)
          ∧ (t.dev.basjo.ring h.val r).stopped = true ∧ t.dev.basjo.ringActive h.val r = false ∧ t.dev.basjo.devIdx h.val r =
          s.dev.basjo.devIdx h.val r ∧ (s.dev.tap.modeCmd = none → s.keeps [.crown, .trunk, .regs, .basjo] t)))
    ∧ (∀ (s : State) (h : Fin 2) (x : TxRun) (q r : Nat) (l : List (RxBuf × Nat)) (f : Stored),
      s.dev.runs = true →
      s.dev.chosenRing h.val = some (x, q, r) →
      s.dev.basjo.rb (hostReg h.val (0x300 + 4 * q)) 31 = true →
      s.dev.basjo.ringActive h.val r = true →
      s.dev.basjo.ringType h.val r = 2 →
      (s.dev.basjo.ring h.val r).stopped = false →
      (s.dev.basjo.ring h.val r).posted ≠ [] →
      s.dev.heldWrite (h.val + 1) = false →
      s.dev.stored x.frame = some f →
      fillBufs 256 x.octets.length (s.dev.basjo.ring h.val r).posted = .fits l →
      r < 128 →
      Completes (.rxFrameWrite h false false true) s (fun t =>
        t.dev.crown.tx.get none (36 + h.val) = none ∧ (∀ p, p ≠ 36 + h.val → t.dev.crown.tx.get none p = s.dev.crown.tx.get none p)
          ∧ (t.dev.basjo.ring h.val r).stopped = true ∧ t.dev.basjo.ringActive h.val r = false ∧ t.dev.basjo.devIdx h.val r =
          s.dev.basjo.devIdx h.val r ∧ (s.dev.tap.modeCmd = none → s.keeps [.crown, .trunk, .regs, .basjo] t)))

/-- Lost records are told, hold-off timers send, vectors unmask and pop queues are read. Rests on R20, R46, R47, R72, R74, R75, R76,
R77, R78, R79, R505. -/
def Obligations.EventsSignal : Prop :=
    (∀ (s : State) (h : Fin 2) (n : Fin 4),
      s.dev.runs = true →
      s.dev.basjo.evtLost h.val (.pop n) ≠ 0 →
      s.dev.basjo.evtFull h.val (.pop n) = false →
      Completes (.eventOverflow h (.pop n)) s (fun t =>
        (t.dev.basjo.pops.get .idle (4 * h.val + n.val)) = ⟨(s.dev.basjo.pops.get .idle (4 * h.val + n.val)).recs ++ [Rec.pack ⟨7,
          1, 1, h.val, secOf s.dev.wt, nsOf s.dev.wt, (s.dev.basjo.pops.get .idle (4 * h.val + n.val)).lostSince.toNat, 0x80 +
          n.val⟩ (s.dev.basjo.pops.get .idle (4 * h.val + n.val)).seq], (s.dev.basjo.pops.get .idle (4 * h.val + n.val)).seq + 1, 0⟩
          ∧ (∀ k, k ≠ 4 * h.val + n.val → t.dev.basjo.pops.get .idle k = s.dev.basjo.pops.get .idle k) ∧ t.dev.basjo =
          { s.dev.basjo with pops := t.dev.basjo.pops, vecs := t.dev.basjo.vecs, msgs := t.dev.basjo.msgs } ∧ s.keeps [.basjo] t))
    ∧ (∀ (s : State) (h : Fin 2) (r : Fin 128),
      s.dev.runs = true →
      s.dev.basjo.evtLost h.val (.ring r) ≠ 0 →
      s.dev.basjo.evtFull h.val (.ring r) = false →
      s.dev.basjo.ringRuns h.val r.val 4 = true →
      Completes (.eventOverflow h (.ring r)) s (fun t =>
        (t.dev.basjo.ring h.val r.val) =
          { (s.dev.basjo.ring h.val r.val) with lostSince := 0, seq := (s.dev.basjo.ring h.val r.val).seq + 1 } ∧ t.dev.basjo.devIdx
          h.val r.val = s.dev.basjo.devIdx h.val r.val + 1 ∧ (∀ k < 32, (∀ j < 4, (s.dev.basjo.entryAddr h.val r.val 32
          (s.dev.basjo.devIdx h.val r.val) + k) % 2 ^ 64 ≠ ((s.dev.basjo.reg (ringReg h.val r.val 8)).toNat + 2 ^ 32 *
          (s.dev.basjo.reg (ringReg h.val r.val 0xC)).toNat + j) % 2 ^ 64) → t.dev.basjo.octet h.val ((s.dev.basjo.entryAddr h.val
          r.val 32 (s.dev.basjo.devIdx h.val r.val) + k) % 2 ^ 64) = (leBytes 32 (Rec.pack ⟨7, 1, 1, h.val, secOf s.dev.wt, nsOf
          s.dev.wt, (s.dev.basjo.evtLost h.val (.ring r)).toNat, r.val⟩ (s.dev.basjo.ring h.val r.val).seq).toNat).getD k 0) ∧
          s.changes [] [] t))
    ∧ (∀ (s : State) (h : Fin 2) (q : EvtQueue),
      s.dev.runs = true →
      (s.dev.basjo.evtLost h.val q = 0 ∨ s.dev.basjo.evtFull h.val q = true) →
      Completes (.eventOverflow h q) s (fun t =>
        t = s))
    ∧ (∀ (s : State) (h : Fin 2) (v : Fin 64),
      s.dev.runs = true →
      s.dev.basjo.rf (hostReg h.val (0x200 + 4 * v.val)) 23 8 ≠ 0 →
      (s.dev.basjo.vec h.val v.val).count ≠ 0 →
      (s.dev.basjo.vec h.val v.val).since + s.dev.basjo.rf (hostReg h.val (0x200 + 4 * v.val)) 23 8 * usRaw ≤ s.dev.now →
      Completes (.vecCoalTimerExpiry h v) s (fun t =>
        (t.dev.basjo.vec h.val v.val) =
          { (s.dev.basjo.vec h.val v.val) with count := 0, since := 0, pending := if ((s.dev.basjo.msixFn h.val).enable && s.dev.basjo.linkUp h.val) then ((s.dev.basjo.vec h.val v.val).masked || (s.dev.basjo.msixFn h.val).mask) else (s.dev.basjo.vec h.val v.val).pending }
          ∧ t.dev.basjo.msgs = (if ((s.dev.basjo.msixFn h.val).enable && s.dev.basjo.linkUp h.val) && !((s.dev.basjo.vec h.val
          v.val).masked || (s.dev.basjo.msixFn h.val).mask) then (h.val, v.val) :: s.dev.basjo.msgs else s.dev.basjo.msgs) ∧ (∀ k, k
          ≠ 64 * h.val + v.val → t.dev.basjo.vecs.get .idle k = s.dev.basjo.vecs.get .idle k) ∧ t.dev.basjo =
          { s.dev.basjo with vecs := t.dev.basjo.vecs, msgs := t.dev.basjo.msgs } ∧ s.keeps [.basjo] t))
    ∧ (∀ (s : State) (h : Fin 2) (v : Fin 64),
      s.dev.runs = true →
      (s.dev.basjo.rf (hostReg h.val (0x200 + 4 * v.val)) 23 8 = 0 ∨ (s.dev.basjo.vec h.val v.val).count = 0 ∨ s.dev.now <
        (s.dev.basjo.vec h.val v.val).since + s.dev.basjo.rf (hostReg h.val (0x200 + 4 * v.val)) 23 8 * usRaw) →
      Completes (.vecCoalTimerExpiry h v) s (fun t =>
        t = s))
    ∧ (∀ (s : State) (h : Fin 2) (v : Fin 64) (addr : BitVec 64) (data : BitVec 32) (en fm : Bool),
      s.dev.runs = true →
      (hostPorts s.dev.variant).contains h.val = true →
      (en && !fm && s.dev.basjo.linkUp h.val) = true →
      Completes (.msixUnmask h v addr data en fm) s (fun t =>
        (t.dev.basjo.vec h.val v.val) =
          { (s.dev.basjo.vec h.val v.val) with addr := addr, data := data, masked := false, pending := false } ∧ (∀ k : Fin 64, k ≠
          v → t.dev.basjo.vec h.val k.val = if (s.dev.basjo.vec h.val k.val).masked then s.dev.basjo.vec h.val k.val else
          { s.dev.basjo.vec h.val k.val with pending := false }) ∧ ((s.dev.basjo.vec h.val v.val).pending = true → (h.val, v.val) ∈
          t.dev.basjo.msgs) ∧ (∀ k : Fin 64, k ≠ v → (s.dev.basjo.vec h.val k.val).pending = true → (s.dev.basjo.vec h.val
          k.val).masked = false → (h.val, k.val) ∈ t.dev.basjo.msgs) ∧ t.dev.basjo.msixFn h.val = ⟨true, false⟩ ∧ t.dev.basjo =
          { s.dev.basjo with vecs := t.dev.basjo.vecs, msix := t.dev.basjo.msix, msgs := t.dev.basjo.msgs } ∧ s.keeps [.basjo] t))
    ∧ (∀ (s : State) (h : Fin 2) (v : Fin 64) (addr : BitVec 64) (data : BitVec 32) (en fm : Bool),
      s.dev.runs = true →
      (hostPorts s.dev.variant).contains h.val = true →
      (en && !fm && s.dev.basjo.linkUp h.val) = false →
      Completes (.msixUnmask h v addr data en fm) s (fun t =>
        (t.dev.basjo.vec h.val v.val) =
          { (s.dev.basjo.vec h.val v.val) with addr := addr, data := data, masked := false, pending := (s.dev.basjo.vec h.val v.val).pending }
          ∧ t.dev.basjo.msixFn h.val = ⟨en, fm⟩ ∧ (∀ k, k ≠ 64 * h.val + v.val → t.dev.basjo.vecs.get .idle k = s.dev.basjo.vecs.get
          .idle k) ∧ t.dev.basjo = { s.dev.basjo with vecs := t.dev.basjo.vecs, msix := t.dev.basjo.msix } ∧ s.keeps [.basjo] t))
    ∧ (∀ (s : State) (h : Fin 2) (v : Fin 64) (addr : BitVec 64) (data : BitVec 32) (en fm : Bool),
      s.dev.runs = true →
      (hostPorts s.dev.variant).contains h.val = false →
      Completes (.msixUnmask h v addr data en fm) s (fun t =>
        t = s))
    ∧ (∀ (s : State) (a : Acc) (h : Fin 2) (n : Fin 4) (x : BitVec 256) (r : List (BitVec 256)),
      s.dev.runs = true →
      (hostPorts s.dev.variant).contains h.val = true →
      reaches a.origin.val 1 = true →
      s.dev.permitted 1 a.origin.val 1 = true →
      s.dev.unitPowered 1 h.val = true →
      s.dev.clockOff 1 h.val = false →
      (s.dev.basjo.pops.get .idle (4 * h.val + n.val)).recs = x :: r →
      Completes (.evtPop a h n) s (fun t =>
        (t.dev.basjo.pops.get .idle (4 * h.val + n.val)) = { (s.dev.basjo.pops.get .idle (4 * h.val + n.val)) with recs := r } ∧
          t.dev.reads.get 0 a.origin.val = BitVec.ofNat 32 (2 ^ 31 + r.length) ∧ (∀ k : Fin 8, t.dev.basjo.reg (hostReg h.val (0x440
          + 0x20 * n.val + 4 * k.val)) = x.extractLsb' (32 * k.val) 32) ∧ (∀ y, y ≠ 4 * h.val + n.val → t.dev.basjo.pops.get .idle y
          = s.dev.basjo.pops.get .idle y) ∧ (∀ y, ¬ (hostReg h.val (0x440 + 0x20 * n.val) ≤ y ∧ y < hostReg h.val (0x460 + 0x20 *
          n.val)) → t.dev.basjo.reg y = s.dev.basjo.reg y) ∧ t.dev.basjo =
          { s.dev.basjo with regs := t.dev.basjo.regs, pops := t.dev.basjo.pops } ∧ s.keeps [.basjo, .reads] t))
    ∧ (∀ (s : State) (a : Acc) (h : Fin 2) (n : Fin 4),
      s.dev.runs = true →
      (hostPorts s.dev.variant).contains h.val = true →
      reaches a.origin.val 1 = true →
      s.dev.permitted 1 a.origin.val 1 = true →
      s.dev.unitPowered 1 h.val = true →
      s.dev.clockOff 1 h.val = false →
      (s.dev.basjo.pops.get .idle (4 * h.val + n.val)).recs = [] →
      Completes (.evtPop a h n) s (fun t =>
        t.dev.reads.get 0 a.origin.val = 0 ∧ s.keeps [.reads] t))
    ∧ (∀ (s : State) (a : Acc) (h : Fin 2) (n : Fin 4),
      s.dev.runs = true →
      (hostPorts s.dev.variant).contains h.val = true →
      reaches a.origin.val 1 = true →
      s.dev.permitted 1 a.origin.val 1 = true →
      s.dev.unitPowered 1 h.val = true →
      s.dev.clockOff 1 h.val = true →
      Completes (.evtPop a h n) s (fun t =>
        t.dev = s.dev.hold ⟨a, hostReg h.val (0x400 + 4 * n.val), none, 0, false, 1, h.val⟩ ∧ s.keeps [.clocks] t))
    ∧ (∀ (s : State) (a : Acc) (h : Fin 2) (n : Fin 4),
      s.dev.runs = true →
      (hostPorts s.dev.variant).contains h.val = true →
      reaches a.origin.val 1 = true →
      s.dev.permitted 1 a.origin.val 1 = false →
      3 ≤ a.origin.val →
      Completes (.evtPop a h n) s (fun t =>
        t.dev.reads.get 0 a.origin.val = 0 ∧ (s.dev.basjo.pops.get .idle (4 * h.val + n.val)).recs.isPrefixOf (t.dev.basjo.pops.get
          .idle (4 * h.val + n.val)).recs = true ∧ (∀ k : Fin 8, t.dev.basjo.reg (hostReg h.val (0x440 + 0x20 * n.val + 4 * k.val))
          = s.dev.basjo.reg (hostReg h.val (0x440 + 0x20 * n.val + 4 * k.val))) ∧ s.changes [.reads] [] t))

/-- A host port rises, falls and is reset. Rests on R41, R57, R72, R73, R79. -/
def Obligations.HostLinksMove : Prop :=
    (∀ (s : State) (h : Fin 2) (gen width : Fin 5),
      s.dev.runs = true →
      (hostPorts s.dev.variant).contains h.val = true →
      s.dev.portPowered (36 + h.val) = true →
      s.dev.basjo.linkUp h.val = false →
      1 ≤ gen.val →
      gen.val ≤ (pcieEndpoint h.val).linkGen →
      (pcieEndpoint h.val).linkWidths.contains width.val = true →
      Completes (.hostLinkUp h gen width) s (fun t =>
        t.dev.basjo.reg (hostReg h.val 4) = BitVec.ofNat 32 (1 + 2 * gen.val + 16 * width.val) ∧ t.dev.basjo.linkUp h.val = true ∧
          t.dev.basjo.linkUp (1 - h.val) = s.dev.basjo.linkUp (1 - h.val) ∧ t.dev.basjo.dead = s.dev.basjo.dead ∧ (∀ a, ballotReg a
          = false → t.dev.reg a = s.dev.reg a) ∧ s.keeps [.regs, .basjo, .tap] t ∧ s.dev.basjo.ringOnly 2 0 [hostReg h.val 4]
          { t.dev.basjo with up := s.dev.basjo.up }))
    ∧ (∀ (s : State) (h : Fin 2),
      s.dev.runs = true →
      s.dev.basjo.linkUp h.val = true →
      Completes (.hostLinkDown h) s (fun t =>
        t.dev.basjo.reg (hostReg h.val 4) = 0 ∧ t.dev.basjo.linkUp h.val = false ∧ t.dev.hostDead h.val = true ∧ t.dev.crown.tx.get
          none (36 + h.val) = none ∧ (∀ r : Fin 128, t.dev.basjo.ringEnabled h.val r.val = false ∧ t.dev.basjo.ringActive h.val
          r.val = false) ∧ (s.dev.tap.modeCmd = none → s.keeps [.regs, .basjo, .audit, .crown, .trunk, .tap] t)))
    ∧ (∀ (s : State) (h : Fin 2),
      s.dev.runs = true →
      s.dev.basjo.linkUp h.val = false →
      s.dev.tap.modeCmd = none →
      Completes (.hostLinkDown h) s (fun t =>
        t = s))
    ∧ (∀ (s : State) (h : Fin 2),
      s.dev.runs = true →
      (hostPorts s.dev.variant).contains h.val = true →
      Completes (.functionLevelReset h) s (fun t =>
        (∀ r : Fin 128, t.dev.basjo.ringEnabled h.val r.val = false ∧ t.dev.basjo.ringActive h.val r.val = false) ∧ t.dev.hostDead
          h.val = true ∧ (s.dev.crown.tx.get none (36 + h.val) = none → t.dev.basjo.reg (hostReg h.val 0x18) = s.dev.basjo.reg
          (hostReg h.val 0x18)) ∧ t.dev.basjo.msixFn h.val = ⟨false, false⟩ ∧ (∀ v : Fin 64, t.dev.basjo.vec h.val v.val = .idle) ∧
          (∀ n : Fin 4, t.dev.basjo.pops.get .idle (4 * h.val + n.val) = .idle) ∧ t.dev.basjo.linkUp h.val = s.dev.basjo.linkUp
          h.val ∧ (s.dev.tap.modeCmd = none → s.keeps [.regs, .basjo, .audit, .crown, .trunk, .clocks] t)))
    ∧ (∀ (s : State) (h : Fin 2),
      s.dev.runs = true →
      (hostPorts s.dev.variant).contains h.val = true →
      (hostPorts s.dev.variant).contains (1 - h.val) = true →
      s.dev.basjo.linkUp (1 - h.val) = true →
      Completes (.aerUncorrectable h none true) s (fun t =>
        t.dev = s.dev.raiseAt (1 - h.val) 6 5 1 h.val 0 0 ∧ s.changes [] [] t))
    ∧ (∀ (s : State) (h : Fin 2) (r : Fin 128),
      s.dev.runs = true →
      (hostPorts s.dev.variant).contains h.val = true →
      s.dev.basjo.ringRuns h.val r.val 4 = true →
      dist32 (s.dev.basjo.hostIdx h.val r.val) (s.dev.basjo.devIdx h.val r.val) ≠ 0 →
      Completes (.aerUncorrectable h (some r) false) s (fun t =>
        (t.dev.basjo.ring h.val r.val).stopped = true ∧ t.dev.basjo.ringActive h.val r.val = false ∧ t.dev.basjo.devIdx h.val r.val
          = s.dev.basjo.devIdx h.val r.val - 1 ∧ t.dev.basjo.rb (ringReg h.val r.val 0x1C) 1 = true ∧ t.dev.basjo.reg (hostReg h.val
          0x1C) = satAdd (s.dev.basjo.reg (hostReg h.val 0x1C)) 1 ∧ s.keeps [.basjo] t))
    ∧ (∀ (s : State) (h : Fin 2),
      s.dev.runs = true →
      Completes (.aerUncorrectable h none false) s (fun t =>
        t = s))

/-- A port is enabled, refused, disabled and drained, and its counters are cleared. Rests on R87, R88, R89, R100, R106, R111. -/
def Obligations.PortsEnableAndDrain : Prop :=
    (∀ (s : State) (a : Acc) (n : Fin 36),
      s.opens a (portReg n.val 0) = true →
      n.val < 28 →
      s.dev.portEn n.val = false →
      s.dev.sending n.val = false →
      pcsOk n.val (s.dev.pcsType n.val) = true →
      s.dev.draining n.val = false →
      s.dev.plcaOk n.val = true →
      (s.dev.portPowered n.val && !s.dev.portWaits n.val) = true →
      Completes (.portEnable a n) s (fun t =>
        t.dev.portEn n.val = true ∧ t.dev.portLink n.val = 1 ∧ t.dev.rf (portReg n.val 4) 31 7 = s.dev.rf (portReg n.val 4) 31 7 ∧
          t.dev.rb (portReg n.val 4) 6 = s.dev.txQuiet n.val ∧ t.dev.rf (portReg n.val 4) 5 2 = s.dev.rf (portReg n.val 4) 5 2 ∧
          t.dev.rf (portReg n.val 0) 30 0 = s.dev.rf (portReg n.val 0) 30 0 ∧ t.dev.reg (portReg n.val 0x44) = 0 ∧ t.dev.port n.val
          = { PortRun.idle with lockAt := s.dev.now, second := s.dev.lqNow, whole := decide (s.dev.now % (256 * 400000000) = 0) } ∧
          s.writes (portReg n.val 0) [.ports] [portReg n.val 0, portReg n.val 4, portReg n.val 0x24, portReg n.val 0x44] t))
    ∧ (∀ (s : State) (a : Acc) (n : Fin 36),
      s.opens a (portReg n.val 0) = true →
      28 ≤ n.val →
      s.dev.portEn n.val = false →
      s.dev.portLock n.val = false →
      s.dev.sending n.val = false →
      pcsOk n.val (s.dev.pcsType n.val) = true →
      s.dev.draining n.val = false →
      s.dev.plcaOk n.val = true →
      (s.dev.portPowered n.val && !s.dev.portWaits n.val) = true →
      Completes (.portEnable a n) s (fun t =>
        t.dev.portEn n.val = true ∧ t.dev.reg (portReg n.val 0x38) = (if s.dev.plcaCoord n.val then 1 else 0) ∧ t.dev.portLock n.val
          = !s.dev.plcaFollower n.val ∧ t.dev.portLink n.val = (if !s.dev.plcaFollower n.val && (s.dev.rf (portReg n.val 0xC) 23 16
          = 0 || s.dev.tap.fastUp.contains n.val) then 2 else 1) ∧ t.dev.out = (if s.dev.plcaCoord n.val then .beacon n.val
          (s.dev.rf (portReg n.val 0x30) 3 0) :: s.dev.out else s.dev.out) ∧ t.dev.reg (portReg n.val 0x44) = 0 ∧ t.dev.port n.val =
          { PortRun.idle with lockAt := s.dev.now, noLock := s.dev.plcaFollower n.val, second := s.dev.lqNow, whole := decide (s.dev.now % (256 * 400000000) = 0) }
          ∧ s.writes (portReg n.val 0) [.ports, .tap, .out] [portReg n.val 0, portReg n.val 4, portReg n.val 0x38, portReg n.val
          0x44] t))
    ∧ (∀ (s : State) (a : Acc) (n : Fin 36),
      s.opens a (portReg n.val 0) = true →
      s.dev.portEn n.val = false →
      pcsOk n.val (s.dev.pcsType n.val) = true →
      s.dev.draining n.val = false →
      s.dev.plcaOk n.val = true →
      s.dev.portWaits n.val = true →
      Completes (.portEnable a n) s (fun t =>
        t.dev.reg (portReg n.val 0) = setBit (s.dev.reg (portReg n.val 0)) 31 true ∧ s.writes (portReg n.val 0) [] [portReg n.val 0]
          t))
    ∧ (∀ (s : State) (a : Acc) (n : Fin 36),
      s.dev.runs = true →
      s.dev.permitted 0 a.origin.val 2 = true →
      reaches a.origin.val 2 = true →
      addrPresent s.dev.variant s.dev.split (portReg n.val 0) = true →
      s.dev.portEn n.val = false →
      pcsOk n.val (s.dev.pcsType n.val) = true →
      s.dev.draining n.val = false →
      s.dev.plcaOk n.val = true →
      s.dev.portPowered n.val = false →
      Completes (.portEnable a n) s (fun t =>
        t.dev.reg (portReg n.val 0) = setBit (s.dev.reg (portReg n.val 0)) 31 true ∧ t.dev.reg 0x54 = satAdd (s.dev.reg 0x54) 1 ∧
          s.changes [] [portReg n.val 0, 0x54] t))
    ∧ (∀ (s : State) (a : Acc) (n : Fin 36),
      s.opens a (portReg n.val 0) = true →
      s.dev.portEn n.val = false →
      pcsOk n.val (s.dev.pcsType n.val) = false ∨ s.dev.draining n.val = true ∨ s.dev.plcaOk n.val = false →
      Completes (.portEnable a n) s (fun t =>
        t.dev.reg (portReg n.val 4) = setBit (s.dev.reg (portReg n.val 4)) 7 true ∧ s.writes (portReg n.val 0) [] [portReg n.val 4]
          t))
    ∧ (∀ (s : State) (a : Acc) (n : Fin 36),
      s.opens a (portReg n.val 0) = true →
      s.dev.portEn n.val = true →
      Completes (.portEnable a n) s (fun t =>
        t.dev.reg (portReg n.val 0) = s.dev.reg (portReg n.val 0) ∧ s.writes (portReg n.val 0) [] [] t))
    ∧ (∀ (s : State) (a : Acc) (n : Fin 36),
      s.opens a (portReg n.val 0) = true →
      s.dev.portEn n.val = true →
      (s.dev.crown.tx.get none n.val).isSome = true →
      Completes (.portDisable a n) s (fun t =>
        t.dev.portEn n.val = false ∧ t.dev.draining n.val = true ∧ t.dev.portLock n.val = false ∧ t.dev.rxOf n.val = none ∧
          (t.dev.port n.val).reasm = none ∧ (t.dev.port n.val).seconds = [] ∧ t.dev.portLink n.val = (if s.dev.portLink n.val = 2 ∧
          s.dev.rf (portReg n.val 0xC) 11 0 = 0 then 1 else s.dev.portLink n.val) ∧ t.dev.reg (portReg n.val 0x13C) = satAdd
          (s.dev.reg (portReg n.val 0x13C)) (s.dev.portLock n.val).toNat ∧ t.dev.crown = s.dev.crown ∧ s.keeps [.clocks, .regs,
          .basjo, .ports, .rx, .passed, .trunk, .burl, .audit, .out] t ∧ t.dev.clocks = (s.dev.demand (unitOf (portReg n.val 0)).1
          (unitOf (portReg n.val 0)).2).clocks))
    ∧ (∀ (s : State) (a : Acc) (n : Fin 36),
      s.opens a (portReg n.val 0) = true →
      s.dev.portEn n.val = true →
      s.dev.sending n.val = false →
      Completes (.portDisable a n) s (fun t =>
        t.dev.portEn n.val = false ∧ t.dev.draining n.val = false ∧ t.dev.portLink n.val = 0 ∧ t.dev.portLock n.val = false ∧
          t.dev.rb (portReg n.val 4) 6 = true ∧ t.dev.rxOf n.val = none ∧ (t.dev.port n.val).reasm = none ∧ (t.dev.port
          n.val).seconds = [] ∧ t.dev.reg (portReg n.val 0x13C) = satAdd (s.dev.reg (portReg n.val 0x13C)) (s.dev.portLock
          n.val).toNat ∧ s.keeps [.clocks, .regs, .basjo, .ports, .rx, .passed, .trunk, .burl, .audit] t ∧ t.dev.clocks =
          (s.dev.demand (unitOf (portReg n.val 0)).1 (unitOf (portReg n.val 0)).2).clocks))
    ∧ (∀ (s : State) (a : Acc) (n : Fin 36),
      s.opens a (portReg n.val 0) = true →
      s.dev.portEn n.val = false →
      Completes (.portDisable a n) s (fun t =>
        t.dev.reg (portReg n.val 0) = s.dev.reg (portReg n.val 0) ∧ s.writes (portReg n.val 0) [] [] t))
    ∧ (∀ (s : State) (n : Fin 36),
      s.dev.runs = true →
      s.dev.draining n.val = true →
      s.dev.sending n.val = false →
      s.dev.portEn n.val = false →
      Completes (.portDrainDone n) s (fun t =>
        t.dev.draining n.val = false ∧ t.dev.portLink n.val = 0 ∧ t.dev.rb (portReg n.val 4) 6 = true ∧ s.changes [] [portReg n.val
          4, portReg n.val 0x24] t))
    ∧ (∀ (s : State) (a : Acc) (n : Fin 36),
      s.opens a (portReg n.val 0) = true →
      s.clocked (portReg n.val 0) = true →
      Completes (.cntClr a n) s (fun t =>
        (∀ k : Fin 48, t.dev.reg (portReg n.val 0x100 + 4 * k.val) = 0) ∧ s.changesIn [] (portReg n.val 0x100) (portReg n.val 0x1C0)
          t))

/-- Lock, BEACONs and the debounce of a link. Rests on R84, R86, R88, R89, R100, R101, R102, R108. -/
def Obligations.LinksFollowLock : Prop :=
    (∀ (s : State) (n : Fin 36),
      s.dev.runs = true →
      n.val < 28 →
      s.dev.portEn n.val = true →
      s.dev.portLock n.val = false →
      Completes (.lockGained n) s (fun t =>
        t.dev.portLock n.val = true ∧ t.dev.port n.val =
          { s.dev.port n.val with lockAt := s.dev.now, attempts := (t.dev.port n.val).attempts, verifyAt := (t.dev.port n.val).verifyAt, noLock := (s.dev.port n.val).noLock && !(((s.dev.port n.val).lockAt = s.dev.now || s.dev.now % (256 * 400000000) = 0) && !(s.dev.port n.val).lost) }
          ∧ t.dev.portLink n.val = (if s.dev.portLink n.val = 1 ∧ (n.val ∈ s.dev.tap.fastUp ∨ s.dev.rf (portReg n.val 0xC) 23 16 =
          0) then 2 else s.dev.portLink n.val) ∧ t.dev.tap = { s.dev.tap with fastUp := s.dev.tap.fastUp.filter (· ≠ n.val) } ∧
          s.changes [.ports, .tap, .out] [portReg n.val 4, portReg n.val 0x24] t))
    ∧ (∀ (s : State) (n : Fin 36),
      s.dev.runs = true →
      n.val < 28 →
      s.dev.portLock n.val = true →
      Completes (.lockLost n) s (fun t =>
        t.dev.portLock n.val = false ∧ (t.dev.port n.val).lockAt = s.dev.now ∧ (t.dev.port n.val).lost = true ∧ (t.dev.port
          n.val).noLock = true ∧ (t.dev.port n.val).reasm = none ∧ t.dev.reg (portReg n.val 0x13C) = satAdd (s.dev.reg (portReg
          n.val 0x13C)) 1 ∧ t.dev.rxOf n.val = none ∧ t.dev.portLink n.val = (if s.dev.portLink n.val = 2 ∧ s.dev.rf (portReg n.val
          0xC) 11 0 = 0 then 1 else s.dev.portLink n.val) ∧ t.dev.reg (portReg n.val 0x130) = satAdd (s.dev.reg (portReg n.val
          0x130)) ((s.dev.rxOf n.val).isSome.toNat + (s.dev.port n.val).reasm.isSome.toNat) ∧ s.keeps [.regs, .basjo, .ports, .rx,
          .passed, .trunk, .burl] t))
    ∧ (∀ (s : State) (n : Fin 36),
      s.dev.runs = true →
      s.dev.portLink n.val = 1 →
      s.dev.portLock n.val = true →
      (s.dev.port n.val).lockAt + s.dev.rf (portReg n.val 0xC) 23 16 * msRaw ≤ s.dev.now →
      Completes (.linkUpDebounceExpiry n) s (fun t =>
        t.dev.portLink n.val = 2 ∧ t.dev.portLock n.val = true ∧ (t.dev.port n.val).lockAt = (s.dev.port n.val).lockAt ∧ s.changes
          [.ports, .out] [portReg n.val 4, portReg n.val 0x24] t))
    ∧ (∀ (s : State) (n : Fin 36),
      s.dev.runs = true →
      s.dev.portLink n.val = 1 →
      s.dev.portLock n.val = false ∨ s.dev.now < (s.dev.port n.val).lockAt + s.dev.rf (portReg n.val 0xC) 23 16 * msRaw →
      Completes (.linkUpDebounceExpiry n) s (fun t =>
        t = s))
    ∧ (∀ (s : State) (n : Fin 36),
      s.dev.runs = true →
      s.dev.portLink n.val = 2 →
      s.dev.portLock n.val = false →
      (s.dev.port n.val).lockAt + s.dev.rf (portReg n.val 0xC) 11 0 * usRaw ≤ s.dev.now →
      Completes (.linkDownDebounceExpiry n) s (fun t =>
        t.dev.portLink n.val = 1 ∧ t.dev.portLock n.val = false ∧ s.changes [] [portReg n.val 4, portReg n.val 0x24] t))
    ∧ (∀ (s : State) (n : Fin 36) (kind : SerdesKind),
      s.dev.runs = true →
      n.val < 28 →
      portPresent s.dev.variant n.val = true →
      s.dev.portEn n.val = true →
      s.dev.portPowered n.val = true →
      kind ≠ .elastic →
      Completes (.serdesFault n kind) s (fun t =>
        t.dev.reg (portReg n.val 0x130) = s.dev.reg (portReg n.val 0x130) ∧ s.changes [] [] t))
    ∧ (∀ (s : State) (n : Fin 36),
      s.dev.runs = true →
      n.val < 28 →
      portPresent s.dev.variant n.val = true →
      s.dev.portEn n.val = true →
      s.dev.portPowered n.val = true →
      Completes (.serdesFault n .elastic) s (fun t =>
        t.dev.rxOf n.val = none ∧ (t.dev.port n.val).reasm = none ∧ t.dev.reg (portReg n.val 0x130) = satAdd (s.dev.reg (portReg
          n.val 0x130)) ((s.dev.rxOf n.val).isSome.toNat + (s.dev.port n.val).reasm.isSome.toNat) ∧ s.keeps [.regs, .basjo, .ports,
          .rx, .passed, .trunk, .burl] t))
    ∧ (∀ (s : State) (n : Fin 36),
      s.dev.runs = true →
      portPresent s.dev.variant n.val = true →
      s.dev.portEn n.val = true →
      s.dev.portPowered n.val = true →
      s.dev.plcaFollower n.val = true →
      Completes (.beaconRx n) s (fun t =>
        t.dev.rb (portReg n.val 0x38) 1 = true ∧ (t.dev.port n.val).beaconAt = s.dev.now ∧ t.dev.portLock n.val = true ∧ s.changes
          [.ports, .tap] [portReg n.val 4, portReg n.val 0x38] t))
    ∧ (∀ (s : State) (n : Fin 36),
      s.dev.runs = true →
      portPresent s.dev.variant n.val = true →
      s.dev.portEn n.val = true →
      s.dev.portPowered n.val = true →
      s.dev.plcaCoord n.val = true →
      Completes (.beaconRx n) s (fun t =>
        t.dev.reg (portReg n.val 0x38) = s.dev.reg (portReg n.val 0x38) ∧ s.changes [] [] t))
    ∧ (∀ (s : State) (n : Fin 36),
      s.dev.runs = true →
      s.dev.plcaFollower n.val = true →
      s.dev.rb (portReg n.val 0x38) 1 = true →
      (s.dev.port n.val).beaconAt + max 1 (s.dev.rf (portReg n.val 0x34) 31 16) * 100 * usRaw ≤ s.dev.now →
      Completes (.beaconTimeout n) s (fun t =>
        t.dev.rb (portReg n.val 0x38) 1 = false ∧ t.dev.portLock n.val = false ∧ t.dev.reg (portReg n.val 0x150) = satAdd (s.dev.reg
          (portReg n.val 0x150)) 1 ∧ t.dev.reg (portReg n.val 0x13C) = satAdd (s.dev.reg (portReg n.val 0x13C)) (s.dev.portLock
          n.val).toNat ∧ s.keeps [.regs, .basjo, .ports, .rx, .passed, .trunk, .burl, .out] t))
    ∧ (∀ (s : State) (n : Fin 36),
      s.dev.runs = true →
      s.dev.plcaFollower n.val = true →
      s.dev.rb (portReg n.val 0x38) 1 = true →
      s.dev.now < (s.dev.port n.val).beaconAt + max 1 (s.dev.rf (portReg n.val 0x34) 31 16) * 100 * usRaw →
      Completes (.beaconTimeout n) s (fun t =>
        t = s))

/-- The verify protocol and the reassembly of preempted frames. Rests on R96, R97, R98, R99, R186. -/
def Obligations.PreemptionVerifies : Prop :=
    (∀ (s : State) (n : Fin 36),
      s.dev.runs = true →
      n.val < 20 →
      s.dev.rf (portReg n.val 0x24) 2 0 = 2 →
      (s.dev.port n.val).verifyAt + max 1 (s.dev.rf (portReg n.val 0x20) 23 16) * msRaw ≤ s.dev.now →
      (s.dev.port n.val).attempts < 3 →
      Completes (.preemptVerifyTimer n) s (fun t =>
        t.dev.out = .mpacket n.val false :: s.dev.out ∧ t.dev.port n.val =
          { s.dev.port n.val with attempts := (s.dev.port n.val).attempts + 1, verifyAt := s.dev.now } ∧ s.keeps [.ports, .out] t))
    ∧ (∀ (s : State) (n : Fin 36),
      s.dev.runs = true →
      n.val < 20 →
      s.dev.rf (portReg n.val 0x24) 2 0 = 2 →
      (s.dev.port n.val).verifyAt + max 1 (s.dev.rf (portReg n.val 0x20) 23 16) * msRaw ≤ s.dev.now →
      3 ≤ (s.dev.port n.val).attempts →
      Completes (.preemptVerifyTimer n) s (fun t =>
        t.dev.rf (portReg n.val 0x24) 2 0 = 4 ∧ t.dev.rb (portReg n.val 0x24) 3 = (s.dev.rb (portReg n.val 0x20) 31 && decide
          (s.dev.portLink n.val = 2) && !s.dev.rb (portReg n.val 0x20) 29) ∧ s.changes [] [portReg n.val 0x24] t))
    ∧ (∀ (s : State) (n : Fin 36),
      s.dev.runs = true →
      n.val < 20 →
      s.dev.rf (portReg n.val 0x24) 2 0 = 2 →
      s.dev.now < (s.dev.port n.val).verifyAt + max 1 (s.dev.rf (portReg n.val 0x20) 23 16) * msRaw →
      Completes (.preemptVerifyTimer n) s (fun t =>
        t = s))
    ∧ (∀ (s : State) (n : Fin 36),
      s.dev.runs = true →
      portPresent s.dev.variant n.val = true →
      s.dev.portPowered n.val = true →
      s.dev.portUp n.val = true →
      s.dev.rxOf n.val = none →
      n.val < 20 →
      s.dev.rb (portReg n.val 0x20) 30 = true →
      s.dev.rf (portReg n.val 0x24) 2 0 = 2 →
      Completes (.preemptVerifyResponse n) s (fun t =>
        t.dev.rf (portReg n.val 0x24) 2 0 = 3 ∧ t.dev.rb (portReg n.val 0x24) 3 = s.dev.rb (portReg n.val 0x20) 31 ∧ s.keeps [.regs]
          t ∧ s.dev.regsKeep [portReg n.val 0x24] t.dev))
    ∧ (∀ (s : State) (n : Fin 36),
      s.dev.runs = true →
      portPresent s.dev.variant n.val = true →
      s.dev.portPowered n.val = true →
      s.dev.portUp n.val = true →
      s.dev.rxOf n.val = none →
      n.val < 20 →
      s.dev.rb (portReg n.val 0x20) 30 = false →
      Completes (.preemptVerifyResponse n) s (fun t =>
        t.dev.reg (portReg n.val 0x144) = satAdd (s.dev.reg (portReg n.val 0x144)) 1 ∧ s.keeps [.regs] t ∧ s.dev.regsKeep [portReg
          n.val 0x144] t.dev))
    ∧ (∀ (s : State) (n : Fin 36) (frag : Fragment),
      s.dev.runs = true →
      portPresent s.dev.variant n.val = true →
      s.dev.portPowered n.val = true →
      s.dev.portUp n.val = true →
      s.dev.rxOf n.val = none →
      n.val < 20 →
      s.dev.rb (portReg n.val 0x20) 30 = true →
      frag.smd = .verify →
      Completes (.preemptFragmentRx n frag) s (fun t =>
        t.dev.out = .mpacket n.val true :: s.dev.out ∧ s.keeps [.out] t))
    ∧ (∀ (s : State) (n : Fin 36) (frag : Fragment),
      s.dev.runs = true →
      portPresent s.dev.variant n.val = true →
      s.dev.portPowered n.val = true →
      s.dev.portUp n.val = true →
      s.dev.rxOf n.val = none →
      n.val < 20 →
      s.dev.rb (portReg n.val 0x20) 30 = false →
      Completes (.preemptFragmentRx n frag) s (fun t =>
        t.dev.reg (portReg n.val 0x144) = satAdd (s.dev.reg (portReg n.val 0x144)) 1 ∧ s.keeps [.regs] t ∧ s.dev.regsKeep [portReg
          n.val 0x144] t.dev))
    ∧ (∀ (s : State) (n : Fin 36) (frag : Fragment) (k : Fin 4),
      s.dev.runs = true →
      portPresent s.dev.variant n.val = true →
      s.dev.portPowered n.val = true →
      s.dev.portUp n.val = true →
      s.dev.rxOf n.val = none →
      n.val < 20 →
      s.dev.rb (portReg n.val 0x20) 30 = true →
      frag.smd = .start k →
      frag.final = false →
      frag.crcOk = true →
      (s.dev.port n.val).reasm = none →
      frag.octets.length ≤ s.dev.rf (portReg n.val 0) 15 0 →
      s.dev.canTake n.val (cellsOf frag.octets.length) = true →
      Completes (.preemptFragmentRx n frag) s (fun t =>
        (t.dev.port n.val).reasm.map (fun (x : Reasm) => (x.octets, x.count, x.next, x.stamp, x.cells, x.dropped)) = some
          (frag.octets, k.val, 0, ((s.dev.tick * 256 + frag.frac.toNat : Int) + s.dev.adj (portReg n.val 0x10)).toNat, cellsOf
          frag.octets.length, false) ∧ t.dev.reg (portReg n.val 0x140) = satAdd (s.dev.reg (portReg n.val 0x140)) 1 ∧ s.changes
          [.ports, .trunk, .burl] [portReg n.val 0x140, trunkReg 0, trunkReg (0x1008 + 0x20 * n.val)] t ∧ t.dev.trunk =
          { s.dev.trunk with press := t.dev.trunk.press, descPress := t.dev.trunk.descPress, nextChain := t.dev.trunk.nextChain } ∧
          t.dev.burl = { s.dev.burl with uses := t.dev.burl.uses, serial := t.dev.burl.serial }))
    ∧ (∀ (s : State) (n : Fin 36) (frag : Fragment) (k : Fin 4) (r : Reasm),
      s.dev.runs = true →
      portPresent s.dev.variant n.val = true →
      s.dev.portPowered n.val = true →
      s.dev.portUp n.val = true →
      s.dev.rxOf n.val = none →
      n.val < 20 →
      s.dev.rb (portReg n.val 0x20) 30 = true →
      frag.smd = .cont k →
      (s.dev.port n.val).reasm = some r →
      r.count = k.val →
      r.next = frag.fragCount.val →
      r.dropped = false →
      frag.final = false →
      frag.crcOk = true →
      r.octets.length + frag.octets.length ≤ s.dev.rf (portReg n.val 0) 15 0 →
      s.dev.canTake n.val (cellsOf (r.octets.length + frag.octets.length) - r.cells) = true →
      Completes (.preemptFragmentRx n frag) s (fun t =>
        (t.dev.port n.val).reasm.map (fun (x : Reasm) => (x.octets, x.count, x.next, x.stamp, x.cells, x.dropped)) = some (r.octets
          ++ frag.octets, r.count, (r.next + 1) % 4, r.stamp, r.cells + (cellsOf (r.octets.length + frag.octets.length) - r.cells),
          false) ∧ t.dev.reg (portReg n.val 0x140) = satAdd (s.dev.reg (portReg n.val 0x140)) 1 ∧ s.changes [.ports, .trunk, .burl]
          [portReg n.val 0x140, trunkReg 0, trunkReg (0x1008 + 0x20 * n.val)] t ∧ t.dev.trunk =
          { s.dev.trunk with press := t.dev.trunk.press, descPress := t.dev.trunk.descPress, nextChain := t.dev.trunk.nextChain } ∧
          t.dev.burl = { s.dev.burl with uses := t.dev.burl.uses, serial := t.dev.burl.serial }))
    ∧ (∀ (s : State) (n : Fin 36) (frag : Fragment) (k : Fin 4),
      s.dev.runs = true →
      portPresent s.dev.variant n.val = true →
      s.dev.portPowered n.val = true →
      s.dev.portUp n.val = true →
      s.dev.rxOf n.val = none →
      n.val < 20 →
      s.dev.rb (portReg n.val 0x20) 30 = true →
      frag.smd = .cont k →
      (s.dev.port n.val).reasm = none →
      Completes (.preemptFragmentRx n frag) s (fun t =>
        t.dev.reg (portReg n.val 0x140) = satAdd (s.dev.reg (portReg n.val 0x140)) 1 ∧ t.dev.reg (portReg n.val 0x144) = satAdd
          (s.dev.reg (portReg n.val 0x144)) 1 ∧ s.changes [] [portReg n.val 0x140, portReg n.val 0x144] t))

/-- MDIO reads, writes and polls, and the end of a link-quality second. Rests on R103, R104, R105, R107, R108, R110, R111. -/
def Obligations.MdioAndLinkQuality : Prop :=
    (∀ (s : State) (d : CmdDesc) (m : Fin 4) (phy : PhyReply),
      s.starts d 2 (40 + m.val) 1 [0x1F1F, 0, 0, 0, 0] = true →
      s.dev.rb (mdioReg m.val 0) 31 = true →
      Completes (.c22Read d phy) s (fun t =>
        s.completes d [] [] t ∧ s.dev.basjo.answers d (if phy.ack then stOk else 0x40) (if phy.ack then phy.data.toNat else 0xFFFF)
          0 t.dev.basjo))
    ∧ (∀ (s : State) (d : CmdDesc) (m : Fin 4),
      s.starts d 2 (40 + m.val) 2 [0xFFFF00001F1F, 0, 0, 0, 0] = true →
      s.dev.rb (mdioReg m.val 0) 31 = true →
      Completes (.c22Write d) s (fun t =>
        t.dev.out = .mdio m.val (fld d.p8 4 0) (fld d.p8 12 8) 0 (fld d.p8 47 32) :: s.dev.out ∧ s.completes d [.out] [] t ∧
          s.dev.basjo.answers d stOk 0 0 t.dev.basjo))
    ∧ (∀ (s : State) (d : CmdDesc) (m : Fin 4) (phy : PhyReply),
      s.starts d 2 (40 + m.val) 3 [0xFFFF1F1F, 0, 0, 0, 0] = true →
      s.dev.rb (mdioReg m.val 0) 31 = true →
      Completes (.c45Read d phy) s (fun t =>
        s.completes d [] [] t ∧ s.dev.basjo.answers d (if phy.ack then stOk else 0x40) (if phy.ack then phy.data.toNat else 0xFFFF)
          0 t.dev.basjo))
    ∧ (∀ (s : State) (d : CmdDesc) (m : Fin 4),
      s.starts d 2 (40 + m.val) 4 [0xFFFFFFFF1F1F, 0, 0, 0, 0] = true →
      s.dev.rb (mdioReg m.val 0) 31 = true →
      Completes (.c45Write d) s (fun t =>
        t.dev.out = .mdio m.val (fld d.p8 4 0) (fld d.p8 12 8) (fld d.p8 31 16) (fld d.p8 47 32) :: s.dev.out ∧ s.completes d [.out]
          [] t ∧ s.dev.basjo.answers d stOk 0 0 t.dev.basjo))
    ∧ (∀ (s : State) (d : CmdDesc) (m : Fin 4) (phy : PhyReply),
      s.starts d 2 (40 + m.val) 1 [0x1F1F, 0, 0, 0, 0] = true →
      s.dev.rb (mdioReg m.val 0) 31 = false →
      Completes (.c22Read d phy) s (fun t =>
        s.completes d [] [] t ∧ s.dev.basjo.answers d stWrongMode 0 0 t.dev.basjo))
    ∧ (∀ (s : State) (m : Fin 4) (k : Fin 8) (phy : PhyReply),
      s.dev.runs = true →
      s.dev.rb (mdioReg m.val 0) 31 = true →
      s.dev.rb (mdioReg m.val (0x10 + 0x10 * k.val)) 31 = true →
      s.dev.pollDue m.val k.val = true →
      phy.ack = true →
      ((s.dev.reg (mdioReg m.val (0x18 + 0x10 * k.val)) ^^^ BitVec.ofNat 32 phy.data.toNat) &&& (s.dev.reg (mdioReg m.val (0x14 +
        0x10 * k.val)) &&& 0xFFFF)) ≠ 0 ∨ s.dev.rb (mdioReg m.val (0x18 + 0x10 * k.val)) 16 = false →
      Completes (.mdioPoll m k phy) s (fun t =>
        t.dev.reg (mdioReg m.val (0x18 + 0x10 * k.val)) = BitVec.ofNat 32 (65536 + phy.data.toNat) ∧ t.dev.polls = s.dev.polls.put
          none (8 * m.val + k.val) (some s.dev.now) ∧ s.changesOn [.polls, .tap] (fun a => a = mdioReg m.val (0x18 + 0x10 * k.val)
          || ballotReg a) t))
    ∧ (∀ (s : State) (m : Fin 4) (k : Fin 8) (phy : PhyReply),
      s.dev.runs = true →
      s.dev.rb (mdioReg m.val 0) 31 = true →
      s.dev.rb (mdioReg m.val (0x10 + 0x10 * k.val)) 31 = true →
      s.dev.pollDue m.val k.val = true →
      phy.ack = true →
      ((s.dev.reg (mdioReg m.val (0x18 + 0x10 * k.val)) ^^^ BitVec.ofNat 32 phy.data.toNat) &&& (s.dev.reg (mdioReg m.val (0x14 +
        0x10 * k.val)) &&& 0xFFFF)) = 0 →
      s.dev.rb (mdioReg m.val (0x18 + 0x10 * k.val)) 16 = true →
      Completes (.mdioPoll m k phy) s (fun t =>
        t.dev.polls = s.dev.polls.put none (8 * m.val + k.val) (some s.dev.now) ∧ s.keeps [.polls] t))
    ∧ (∀ (s : State) (m : Fin 4) (k : Fin 8) (phy : PhyReply),
      s.dev.runs = true →
      s.dev.rb (mdioReg m.val 0) 31 = true →
      s.dev.rb (mdioReg m.val (0x10 + 0x10 * k.val)) 31 = true →
      s.dev.pollDue m.val k.val = true →
      phy.ack = false →
      Completes (.mdioPoll m k phy) s (fun t =>
        t.dev.reg (mdioReg m.val (0x18 + 0x10 * k.val)) = setBit (s.dev.reg (mdioReg m.val (0x18 + 0x10 * k.val))) 16 false ∧
          t.dev.polls = s.dev.polls.put none (8 * m.val + k.val) (some s.dev.now) ∧ s.changesOn [.polls, .tap] (fun a => a = mdioReg
          m.val (0x18 + 0x10 * k.val) || ballotReg a) t))
    ∧ (∀ (s : State) (n : Fin 36),
      s.dev.runs = true →
      s.dev.portEn n.val = true →
      s.dev.portPowered n.val = true →
      (s.dev.port n.val).second < s.dev.lqNow →
      (s.dev.port n.val).whole = false →
      Completes (.lqSecondEnd n) s (fun t =>
        t.dev.port n.val =
          { (s.dev.port n.val) with errs := 0, good := 0, lost := false, noLock := !s.dev.portLock n.val, whole := true, second := (s.dev.port n.val).second + 1 }
          ∧ s.keeps [.ports] t))
    ∧ (∀ (s : State) (n : Fin 36),
      s.dev.runs = true →
      s.dev.portEn n.val = true →
      s.dev.portPowered n.val = true →
      (s.dev.port n.val).second < s.dev.lqNow →
      (s.dev.port n.val).whole = true →
      (s.dev.port n.val).seconds.length < 9 →
      s.dev.rf (portReg n.val 0x44) 7 4 < 9 →
      Completes (.lqSecondEnd n) s (fun t =>
        t.dev.port n.val =
          { (s.dev.port n.val) with errs := 0, good := 0, lost := false, noLock := !s.dev.portLock n.val, whole := true, second := (s.dev.port n.val).second + 1, seconds := (s.dev.port n.val).seconds ++ [⟨(s.dev.port n.val).second, (s.dev.port n.val).errs, ((s.dev.port n.val).noLock || ((s.dev.port n.val).errs > 0 && (s.dev.port n.val).errs * 100 ≥ (s.dev.port n.val).errs + (s.dev.port n.val).good)) || (s.dev.port n.val).errs > 0 || (s.dev.port n.val).lost, ((s.dev.port n.val).noLock || ((s.dev.port n.val).errs > 0 && (s.dev.port n.val).errs * 100 ≥ (s.dev.port n.val).errs + (s.dev.port n.val).good)), s.dev.rb (portReg n.val 0x44) 0⟩] }
          ∧ t.dev.reg (portReg n.val 0x44) = BitVec.ofNat 32 ((if ((s.dev.port n.val).noLock || ((s.dev.port n.val).errs > 0 &&
          (s.dev.port n.val).errs * 100 ≥ (s.dev.port n.val).errs + (s.dev.port n.val).good)) ≠ s.dev.rb (portReg n.val 0x44) 0 then
          s.dev.rf (portReg n.val 0x44) 7 4 + 1 else 0) * 16 + (((s.dev.port n.val).noLock || ((s.dev.port n.val).errs > 0 &&
          (s.dev.port n.val).errs * 100 ≥ (s.dev.port n.val).errs + (s.dev.port n.val).good)) : Bool).toNat * 2 + (s.dev.rb (portReg
          n.val 0x44) 0).toNat) ∧ s.keeps [.ports, .regs] t ∧ s.dev.regsKeep [portReg n.val 0x44] t.dev))
    ∧ (∀ (s : State) (n : Fin 36),
      s.dev.runs = true →
      s.dev.portEn n.val = true →
      s.dev.portPowered n.val = true →
      s.dev.lqNow ≤ (s.dev.port n.val).second →
      Completes (.lqSecondEnd n) s (fun t =>
        t = s))

/-- A received frame from its first octet to its place in a queue. Rests on R31, R33, R37, R84, R93, R186, R188, R192, R306. -/
def Obligations.FramesEnterAndEnd : Prop :=
    (∀ (s : State) (n : Fin 36) (octets : List (BitVec 8)) (frac : BitVec 8) (ownTo : Bool),
      s.dev.runs = true →
      portPresent s.dev.variant n.val = true →
      s.dev.portPowered n.val = true →
      s.dev.portUp n.val = true →
      s.dev.rxOf n.val = none →
      octets.length + 4 ≤ s.dev.rf (portReg n.val 0) 15 0 →
      s.dev.canTake n.val (cellsOf (octets.length + 4)) = true →
      s.dev.rb (macsecReg n.val 0) 30 = false →
      Completes (.frameRxStart n octets frac ownTo) s (fun t =>
        t.dev.rxOf n.val = some ⟨n.val, octets, octets.length + 4, ((s.dev.tick * 256 + frac.toNat : Int) + s.dev.adj (portReg n.val
          0x10)).toNat, 0, none, cellsOf (octets.length + 4), [⟨s.dev.trunk.nextChain + 1, cellsOf (octets.length + 4),
          s.dev.trunk.lost⟩], s.dev.trunk.nextChain, s.dev.owner n.val, false, .plain, none, false⟩ ∧ t.dev.usedCells n.val =
          (s.dev.usedCells n.val + cellsOf (octets.length + 4)) % 2 ^ 17 ∧ (∀ q < 40, q ≠ n.val → t.dev.rxOf q = s.dev.rxOf q) ∧
          s.changes [.rx, .trunk, .clocks] [trunkReg 0, trunkReg (0x1008 + 0x20 * n.val)] t ∧ t.dev.trunk =
          { s.dev.trunk with press := t.dev.trunk.press, descPress := t.dev.trunk.descPress, nextChain := s.dev.trunk.nextChain + 2 }))
    ∧ (∀ (s : State) (n : Fin 36) (octets : List (BitVec 8)) (frac : BitVec 8) (ownTo : Bool),
      s.dev.runs = true →
      portPresent s.dev.variant n.val = true →
      s.dev.portPowered n.val = true →
      s.dev.portUp n.val = true →
      s.dev.rxOf n.val = none →
      s.dev.rf (portReg n.val 0) 15 0 < octets.length + 4 →
      s.dev.canTake n.val (cellsOf (s.dev.rf (portReg n.val 0) 15 0)) = true →
      s.dev.rb (macsecReg n.val 0) 30 = false →
      Completes (.frameRxStart n octets frac ownTo) s (fun t =>
        t.dev.rxOf n.val = some ⟨n.val, octets, octets.length + 4, ((s.dev.tick * 256 + frac.toNat : Int) + s.dev.adj (portReg n.val
          0x10)).toNat, 0, none, 0, [⟨s.dev.trunk.nextChain + 1, cellsOf (s.dev.rf (portReg n.val 0) 15 0), s.dev.trunk.lost⟩],
          s.dev.trunk.nextChain, s.dev.owner n.val, true, .plain, none, false⟩ ∧ t.dev.usedCells n.val = s.dev.usedCells n.val ∧ (∀
          q < 40, q ≠ n.val → t.dev.rxOf q = s.dev.rxOf q) ∧ s.changes [.rx, .trunk, .clocks] [trunkReg 0, trunkReg (0x1008 + 0x20 *
          n.val)] t ∧ t.dev.trunk =
          { s.dev.trunk with press := t.dev.trunk.press, descPress := t.dev.trunk.descPress, nextChain := s.dev.trunk.nextChain + 2 }))
    ∧ (∀ (s : State) (n : Fin 36) (octets : List (BitVec 8)) (frac : BitVec 8) (ownTo : Bool),
      s.dev.runs = true →
      portPresent s.dev.variant n.val = true →
      s.dev.portPowered n.val = true →
      s.dev.portUp n.val = true →
      s.dev.rxOf n.val = none →
      s.dev.rb (macsecReg n.val 0) 30 = false →
      s.dev.canTake n.val (cellsOf (if s.dev.rf (portReg n.val 0) 15 0 < octets.length + 4 then s.dev.rf (portReg n.val 0) 15 0 else
        octets.length + 4)) = false →
      Completes (.frameRxStart n octets frac ownTo) s (fun t =>
        t.dev.rxOf n.val = none ∧ t.dev.reg (trunkReg (0x100C + 0x20 * n.val)) = satAdd (s.dev.reg (trunkReg (0x100C + 0x20 *
          n.val))) 1 ∧ s.changes [] [trunkReg (0x100C + 0x20 * n.val)] t))
    ∧ (∀ (s : State) (n : Fin 36) (octets : List (BitVec 8)) (frac : BitVec 8) (ownTo : Bool),
      s.dev.runs = true →
      s.dev.portUp n.val = false →
      Completes (.frameRxStart n octets frac ownTo) s (fun t =>
        t = s))
    ∧ (∀ (s : State) (p : Fin 40) (ue : List (BitVec 20)) (bad : List (Fin 131136)) (lost : List (Fin 8)) (f : RxFrame),
      s.dev.runs = true →
      p.val ≠ 39 →
      s.dev.endedOf p.val = [] →
      s.dev.rxOf p.val = some f →
      f.verdict = none →
      Completes (.parserStart p ue bad lost) s (fun t =>
        t.dev.rxOf p.val = some (s.dev.stages f (ue.map (·.toNat)) (bad.map (·.val)) (lost.map (·.val))).1 ∧ ((s.dev.stages f
          (ue.map (·.toNat)) (bad.map (·.val)) (lost.map (·.val))).1.verdict).isSome = true ∧ (∀ q < 40, q ≠ p.val → t.dev.rxOf q =
          s.dev.rxOf q) ∧ s.keeps [.rx, .regs, .basjo, .groves, .ras, .audit, .trunk, .out, .tap] t))
    ∧ (∀ (s : State) (p : Fin 40) (f : RxFrame),
      s.dev.runs = true →
      p.val < 36 →
      s.dev.endedOf p.val = [] →
      s.dev.rxOf p.val = some f →
      f.verdict.isSome = true →
      f.oversize = false →
      64 ≤ f.len →
      Completes (.frameRxEnd p false false) s (fun t =>
        t.dev.rxOf p.val = none ∧ t.dev.passed = s.dev.passed ∧ t.dev.reg (portReg p.val 0x120) = satAdd (s.dev.reg (portReg p.val
          0x120)) 1 ∧ t.dev.port p.val = { s.dev.port p.val with errs := (s.dev.port p.val).errs + 1 } ∧ (∀ q < 40, q ≠ p.val →
          t.dev.rxOf q = s.dev.rxOf q) ∧ (s.dev.tap.modeCmd = none → s.keeps [.rx, .regs, .trunk, .basjo, .burl, .ports] t)))
    ∧ (∀ (s : State) (p : Fin 40) (f : RxFrame),
      s.dev.runs = true →
      p.val < 36 →
      s.dev.endedOf p.val = [] →
      s.dev.rxOf p.val = some f →
      f.verdict.isSome = true →
      f.sec = .plain →
      f.faultAt true false = none →
      s.dev.isHeartbeat f = false →
      s.dev.safe = false →
      f.waiting = true →
      Completes (.frameRxEnd p true false) s (fun t =>
        t.dev.rxOf p.val = none ∧ t.dev.passed = s.dev.passed ++ [f] ∧ t.dev.reg (portReg p.val 0x120) = s.dev.reg (portReg p.val
          0x120) ∧ t.dev.port p.val = { s.dev.port p.val with good := (s.dev.port p.val).good + 1 } ∧ (∀ q < 40, q ≠ p.val →
          t.dev.rxOf q = s.dev.rxOf q) ∧ (s.dev.tap.modeCmd = none → s.keeps [.rx, .regs, .passed, .basjo, .ports, .tap, .cam] t)))
    ∧ (∀ (s : State) (p : Fin 40) (f : RxFrame) (ue : List (Fin 8)) (bad : List (Fin 131136)),
      s.dev.runs = true →
      s.dev.passed.findIdx? (fun y => y.waiting && y.inPort = p.val) = none →
      s.dev.endedOf p.val = [] →
      s.dev.rxOf p.val = some f →
      f.waiting = true →
      f.verdict.isSome = true →
      Completes (.bucketReadComplete p ue bad) s (fun t =>
        (t.dev.rxOf p.val).map (·.waiting) = some false ∧ (t.dev.rxOf p.val).map (·.octets) = some f.octets ∧ ((t.dev.rxOf
          p.val).bind (·.verdict)).isSome = true ∧ t.dev.passed = s.dev.passed ∧ (∀ q < 40, q ≠ p.val → t.dev.rxOf q = s.dev.rxOf q)
          ∧ (s.dev.tap.modeCmd = none → s.keeps [.rx, .regs, .basjo, .bark, .groves, .trunk] t)))
    ∧ (∀ (s : State) (i : Nat) (f : RxFrame) (v : Verdict),
      s.dev.runs = true →
      nextPassed [] s.dev.passed = some i →
      s.dev.passed[i]? = some f →
      f.verdict = some v →
      Completes (.frameEnqueue) s (fun t =>
        t.dev.passed = s.dev.passed.eraseIdx i ∧ t.dev.trunk.nextId = s.dev.trunk.nextId + 1 ∧ s.keeps [.passed, .trunk, .slowq,
          .decap, .crown, .clocks, .draws, .regs, .basjo] t))
    ∧ (∀ (s : State) (p : Fin 36) (i : Nat) (f : RxFrame) (v : Verdict),
      s.dev.runs = true →
      nextPassed [] s.dev.passed = some i →
      s.dev.passed[i]? = some f →
      f.verdict = some v →
      f.sec = .plain →
      v.bitmap = 2 ^ p.val →
      v.tc < 8 →
      v.mirror = none →
      v.divert = none →
      v.colour < 3 →
      s.dev.rb (trunkReg 0x30) 31 = false →
      s.dev.rf (queueReg (queueOf p.val v.tc) 0xC) 15 0 < s.dev.rf (queueReg (queueOf p.val v.tc) 4) 30 16 →
      s.dev.rf (queueReg (queueOf p.val v.tc) 8) 22 0 + cellsOf f.len ≤ s.dev.rf (queueReg (queueOf p.val v.tc) 4) 15 0 * 64 →
      s.dev.rf (trunkReg (0x2000 + 0x10 * s.dev.rf (queueReg (queueOf p.val v.tc) 0) 27 24 + 4 * v.colour)) 15 0 = 0xFFFF →
      s.dev.rf (trunkReg 4) 17 0 ≠ 0 →
      (s.dev.tq (queueOf p.val v.tc)).descs.all (fun x => x.loc = .chip) = true →
      Completes (.frameEnqueue) s (fun t =>
        (t.dev.tq (queueOf p.val v.tc)).descs = (s.dev.tq (queueOf p.val v.tc)).descs ++ [⟨s.dev.tailSeq (queueOf p.val v.tc),
          s.dev.trunk.nextId, v.reason, .chip, false, 0⟩] ∧ (t.dev.stored s.dev.trunk.nextId).map (·.octets) = some f.octets ∧
          (t.dev.stored s.dev.trunk.nextId).map (·.refs) = some 1 ∧ (t.dev.stored s.dev.trunk.nextId).map (·.stamp) = some f.stamp ∧
          (∀ q, q ≠ (queueOf p.val v.tc) → t.dev.tq q = s.dev.tq q) ∧ s.changesOn [.passed, .trunk, .crown, .clocks, .draws] (fun a
          => [trunkReg 4, trunkReg (0x1010 + 0x20 * p.val), queueReg (queueOf p.val v.tc) 8, queueReg (queueOf p.val v.tc) 0xC,
          queueReg (queueOf p.val v.tc) 0x14].contains a) t))

/-- Crown chooses a frame and starts it, drops one it cannot send, ends a transmission and meets a launch time. Rests on R35, R90,
R106, R185, R192, R226, R227, R228, R229, R244. -/
def Obligations.CrownSends : Prop :=
    (∀ (s : State) (p : Fin 38) (h : Head),
      s.dev.runs = true →
      portPresent s.dev.variant p.val = true →
      s.dev.crown.tx.get none p.val = none →
      p.val < 36 →
      s.dev.txQuiet p.val = false →
      (s.dev.heads p.val).find? (s.dev.oversize p.val) = none →
      s.dev.nextHead p.val = some h →
      (s.dev.dropChecked p.val h).isNone = true →
      s.dev.rb (macsecReg p.val 0) 31 = false →
      Completes (.crownSelect p none) s (fun t =>
        t.dev.crown.tx.get none p.val = some ⟨h.q, h.d.seq, h.d.frame, h.d.reason, h.octets ++ zeros (60 - h.octets.length), h.len,
          h.f.spoiled, s.dev.preemptable p.val h.t, false, s.dev.startStamp p.val, 0, s.dev.now⟩ ∧ (t.dev.tq h.q).descs.map (·.seq)
          = ((s.dev.tq h.q).descs.filter (fun x => x.seq ≠ h.d.seq)).map (·.seq) ∧ t.dev.trunk.frames = s.dev.trunk.frames ∧ (∀ q, q
          ≠ h.q → t.dev.tq q = s.dev.tq q) ∧ (∀ n, n ≠ p.val → t.dev.crown.tx.get none n = s.dev.crown.tx.get none n) ∧ t.dev.reg
          (cq h.q 0x1C) = satAdd (s.dev.reg (cq h.q 0x1C)) 1 ∧ (s.dev.tap.modeCmd = none → s.keeps [.crown, .trunk, .regs, .basjo,
          .words, .cam] t)))
    ∧ (∀ (s : State) (p : Fin 38) (h : Head),
      s.dev.runs = true →
      portPresent s.dev.variant p.val = true →
      s.dev.crown.tx.get none p.val = none →
      36 ≤ p.val →
      h.f.spoiled = false →
      ((s.dev.heads p.val).all (fun x => match s.dev.ringFill (p.val - 36) x with | some (_, .bad) => false | _ => true)) = true →
      (s.dev.heads p.val).find? (s.dev.oversize p.val) = none →
      s.dev.nextHead p.val = some h →
      (s.dev.dropChecked p.val h).isNone = true →
      Completes (.crownSelect p none) s (fun t =>
        t.dev.crown.tx.get none p.val = some ⟨h.q, h.d.seq, h.d.frame, h.d.reason, h.octets, h.len, h.f.spoiled, s.dev.preemptable
          p.val h.t, false, s.dev.startStamp p.val, 0, s.dev.now⟩ ∧ (t.dev.tq h.q).descs.map (·.seq) = ((s.dev.tq h.q).descs.filter
          (fun x => x.seq ≠ h.d.seq)).map (·.seq) ∧ t.dev.trunk.frames = s.dev.trunk.frames ∧ (∀ q, q ≠ h.q → t.dev.tq q = s.dev.tq
          q) ∧ (∀ n, n ≠ p.val → t.dev.crown.tx.get none n = s.dev.crown.tx.get none n) ∧ (s.dev.tap.modeCmd = none → s.keeps
          [.crown, .trunk, .regs, .basjo] t)))
    ∧ (∀ (s : State) (p : Fin 38) (h : Head) (b : Fin 18),
      s.dev.runs = true →
      portPresent s.dev.variant p.val = true →
      s.dev.crown.tx.get none p.val = none →
      p.val < 36 →
      s.dev.txQuiet p.val = false →
      (s.dev.heads p.val).find? (s.dev.oversize p.val) = none →
      s.dev.nextHead p.val = some h →
      (s.dev.dropChecked p.val h).isNone = true →
      s.dev.rb (macsecReg p.val 0) 31 = false →
      s.dev.bankHolds b.val = true →
      Completes (.crownSelect p (some b)) s (fun t =>
        t.dev.crown.tx.get none p.val = some ⟨h.q, h.d.seq, h.d.frame, h.d.reason, h.octets ++ zeros (60 - h.octets.length), h.len,
          true, s.dev.preemptable p.val h.t, false, s.dev.startStamp p.val, 0, s.dev.now⟩ ∧ t.dev.reg (trunkReg 0x48) = satAdd
          (s.dev.reg (trunkReg 0x48)) (1 + h.f.spoiled.toNat) ∧ (s.dev.tap.modeCmd = none → s.keeps [.crown, .trunk, .regs, .basjo,
          .words, .cam, .ras, .audit, .rx, .ended, .passed, .burl, .ports] t)))
    ∧ (∀ (s : State) (p : Fin 38) (h : Head),
      s.dev.runs = true →
      p.val < 36 →
      portPresent s.dev.variant p.val = true →
      s.dev.txQuiet p.val = false →
      s.dev.crown.tx.get none p.val = none →
      s.dev.crown.paused.get none p.val = none →
      s.dev.heads p.val = [h] →
      s.dev.oversize p.val h = false →
      s.dev.eligible p.val [h] h = true →
      s.dev.mayStart p.val h = true →
      (s.dev.tq h.q).descs = [h.d] →
      s.dev.portUp p.val = false →
      s.dev.rb (macsecReg p.val 0) 31 = false →
      Completes (.crownSelect p none) s (fun t =>
        (t.dev.tq h.q).descs = [] ∧ t.dev.crown.tx = s.dev.crown.tx ∧ t.dev.reg (portReg p.val 0x138) = satAdd (s.dev.reg (portReg
          p.val 0x138)) 1 ∧ (s.dev.tap.modeCmd = none → s.keeps [.crown, .trunk, .regs, .basjo] t)))
    ∧ (∀ (s : State) (p : Fin 38),
      s.dev.runs = true →
      s.dev.heads p.val = [] →
      s.dev.crown.tx.get none p.val = none →
      s.dev.crown.paused.get none p.val = none →
      Completes (.crownSelect p none) s (fun t =>
        t.dev.crown = { s.dev.crown with queues := t.dev.crown.queues } ∧ (s.dev.tap.modeCmd = none → s.keeps [.crown] t)))
    ∧ (∀ (s : State) (p : Fin 36) (coll : Nat) (x : TxRun),
      s.dev.runs = true →
      s.dev.crown.tx.get none p.val = some x →
      p.val < 28 →
      Completes (.transmissionComplete p coll) s (fun t =>
        t.dev.out = .frame p.val x.octets (!x.badFcs) x.start :: s.dev.out ∧ t.dev.crown.tx.get none p.val = none ∧ (∀ n, n ≠ p.val
          → t.dev.crown.tx.get none n = s.dev.crown.tx.get none n) ∧ (s.dev.tap.modeCmd = none → s.keeps [.crown, .trunk, .regs,
          .basjo, .burl, .out] t)))
    ∧ (∀ (s : State) (p : Fin 36) (coll : Nat) (x : TxRun),
      s.dev.runs = true →
      s.dev.crown.tx.get none p.val = some x →
      28 ≤ p.val →
      Completes (.transmissionComplete p coll) s (fun t =>
        t.dev.out = .frame p.val x.octets (!x.badFcs) x.start :: s.dev.out ∧ t.dev.crown.tx.get none p.val = none ∧ t.dev.reg
          (portReg p.val 0x154) = (if s.dev.plcaEn p.val then s.dev.reg (portReg p.val 0x154) else satAdd (s.dev.reg (portReg p.val
          0x154)) coll) ∧ (s.dev.tap.modeCmd = none → s.keeps [.crown, .trunk, .regs, .basjo, .burl, .out] t)))
    ∧ (∀ (s : State) (p : Fin 36) (coll : Nat),
      s.dev.runs = true →
      s.dev.crown.tx.get none p.val = none →
      s.dev.tap.modeCmd = none →
      Completes (.transmissionComplete p coll) s (fun t =>
        t = s))
    ∧ (∀ (s : State) (n : Fin 36) (k : Fin 8) (dd : Desc) (f : Stored),
      s.dev.runs = true →
      portPresent s.dev.variant n.val = true →
      s.dev.head (queueOf n.val k.val) = some dd →
      s.dev.stored dd.frame = some f →
      f.launch.isSome = true →
      Completes (.launchTimeReached n k) s (fun t =>
        (∀ j : Fin 8, t.dev.cqState (queueOf n.val j.val) = if (((s.dev.heads n.val).filter (fun h => s.dev.eligible n.val
          (s.dev.heads n.val) h)).map (·.q)).contains (queueOf n.val j.val) = (s.dev.cqState (queueOf n.val j.val)).was then
          s.dev.cqState (queueOf n.val j.val) else if (((s.dev.heads n.val).filter (fun h => s.dev.eligible n.val (s.dev.heads
          n.val) h)).map (·.q)).contains (queueOf n.val j.val) then
          { s.dev.cqState (queueOf n.val j.val) with was := true, tag := max (s.dev.cqState (queueOf n.val j.val)).tag (s.dev.vtime n.val) }
          else { s.dev.cqState (queueOf n.val j.val) with was := false }) ∧ t.dev.crown =
          { s.dev.crown with queues := t.dev.crown.queues } ∧ s.keeps [.crown] t))
    ∧ (∀ (s : State) (n : Fin 36) (k : Fin 8),
      s.dev.runs = true →
      s.dev.head (queueOf n.val k.val) = none →
      Completes (.launchTimeReached n k) s (fun t =>
        t = s))

/-- Shaper parameters are taken or refused, and queues are sampled and read. Rests on R219, R230, R232, R247, R248, R249. -/
def Obligations.ShapersAndSamples : Prop :=
    (∀ (s : State) (a : Acc) (p : Fin 38) (k : Fin 32) (reg : ShaperReg) (value : BitVec 32),
      s.opens a (crownQ p.val k.val (shaperOff reg)) = true →
      36 ≤ p.val ∨ k.val < 8 →
      reg = .cir ∨ reg = .pir →
      fld value 21 0 ≤ 3125000 →
      Completes (.shaperParamWrite a p k reg value) s (fun t =>
        t.dev.reg (cq (queueOf p.val k.val) (shaperOff reg)) = value &&& 0x3FFFFF ∧ (t.dev.cqState (queueOf p.val k.val)).c = (if
          s.dev.shaperMode (queueOf p.val k.val) = 2 then 0 else if s.dev.rb (cq (queueOf p.val k.val) 0) 30 then s.dev.rf (cq
          (queueOf p.val k.val) 8) 23 0 * octetUnits else 0) ∧ (t.dev.cqState (queueOf p.val k.val)).p = (if s.dev.rb (cq (queueOf
          p.val k.val) 0) 30 then s.dev.rf (cq (queueOf p.val k.val) 0x10) 23 0 * octetUnits else 0) ∧ (t.dev.cqState (queueOf p.val
          k.val)).upd = s.dev.now ∧ s.writes (crownQ p.val k.val (shaperOff reg)) [.crown] [cq (queueOf p.val k.val) (shaperOff
          reg)] t ∧ t.dev.crown = { s.dev.crown with queues := t.dev.crown.queues }))
    ∧ (∀ (s : State) (a : Acc) (p : Fin 38) (k : Fin 32) (reg : ShaperReg) (value : BitVec 32),
      s.opens a (crownQ p.val k.val (shaperOff reg)) = true →
      36 ≤ p.val ∨ k.val < 8 →
      reg = .cir ∨ reg = .pir →
      3125000 < fld value 21 0 →
      Completes (.shaperParamWrite a p k reg value) s (fun t =>
        t.dev.reg (cq (queueOf p.val k.val) (shaperOff reg)) = s.dev.reg (cq (queueOf p.val k.val) (shaperOff reg)) ∧ s.writes
          (crownQ p.val k.val (shaperOff reg)) [.crown] [] t ∧ t.dev.crown = { s.dev.crown with queues := t.dev.crown.queues }))
    ∧ (∀ (s : State) (a : Acc) (p : Fin 38) (k : Fin 32) (reg : ShaperReg) (value : BitVec 32),
      s.opens a (crownQ p.val k.val (shaperOff reg)) = true →
      36 ≤ p.val ∨ k.val < 8 →
      reg = .cbs ∨ reg = .pbs →
      fld value 23 0 ≠ 0 →
      Completes (.shaperParamWrite a p k reg value) s (fun t =>
        t.dev.reg (cq (queueOf p.val k.val) (shaperOff reg)) = value &&& 0xFFFFFF ∧ s.writes (crownQ p.val k.val (shaperOff reg))
          [.crown] [cq (queueOf p.val k.val) (shaperOff reg)] t ∧ t.dev.crown = { s.dev.crown with queues := t.dev.crown.queues }))
    ∧ (∀ (s : State) (a : Acc) (p : Fin 38) (k : Fin 32) (value : BitVec 32),
      s.opens a (crownQ p.val k.val 0) = true →
      36 ≤ p.val ∨ k.val < 8 →
      Completes (.shaperParamWrite a p k .qsched value) s (fun t =>
        t.dev.reg (cq (queueOf p.val k.val) 0) = setFld (value &&& 0xC00000FF) 25 24 (if fld value 25 24 = 3 ∨ (fld value 25 24 = 2
          ∧ (36 ≤ p.val ∨ s.dev.rf (cq (queueOf p.val k.val) 4) 21 0 = 0)) then s.dev.shaperMode (queueOf p.val k.val) else fld
          value 25 24) ∧ s.writes (crownQ p.val k.val 0) [.crown] [cq (queueOf p.val k.val) 0] t ∧ t.dev.crown =
          { s.dev.crown with queues := t.dev.crown.queues }))
    ∧ (∀ (s : State) (p : Fin 38),
      s.dev.runs = true →
      portPresent s.dev.variant p.val = true →
      s.dev.rb (crownReg p.val 0x50) 31 = true →
      s.dev.crown.sampleAt.get 0 p.val / s.dev.samplePeriod p.val < s.dev.tick / s.dev.samplePeriod p.val →
      Completes (.queueSampleTick p) s (fun t =>
        (∀ q ∈ portQueues p.val, (t.dev.qhist q).last = (s.dev.sampleOf q :: (s.dev.qhist q).last).take 64) ∧
          t.dev.crown.sampleAt.get 0 p.val = s.dev.tick ∧ t.dev.crown =
          { s.dev.crown with hist := t.dev.crown.hist, sampleAt := t.dev.crown.sampleAt } ∧ s.changesIn [.crown] (crownReg p.val 0)
          (crownReg p.val 0x1000) t))
    ∧ (∀ (s : State) (p : Fin 38),
      s.dev.runs = true →
      s.dev.rb (crownReg p.val 0x50) 31 = false ∨ s.dev.tick / s.dev.samplePeriod p.val ≤ s.dev.crown.sampleAt.get 0 p.val /
        s.dev.samplePeriod p.val →
      Completes (.queueSampleTick p) s (fun t =>
        t = s))
    ∧ (∀ (s : State) (a : Acc) (p : Fin 38),
      s.opens a (crownReg p.val 0x50) = true →
      s.dev.rb (crownReg p.val 0x50) 31 = false →
      Completes (.sampleEnable a p) s (fun t =>
        t.dev.reg (crownReg p.val 0x50) = setBit (s.dev.reg (crownReg p.val 0x50)) 31 true ∧ (∀ q ∈ portQueues p.val, t.dev.qhist q
          = ⟨[], []⟩) ∧ s.writes (crownReg p.val 0x50) [.crown] [crownReg p.val 0x50] t ∧ t.dev.crown =
          { s.dev.crown with hist := t.dev.crown.hist, sampleAt := t.dev.crown.sampleAt }))
    ∧ (∀ (s : State) (d : CmdDesc) (p : Fin 38),
      s.starts d 0x21 p.val 1 [all64, 0x1F, 0, 0, 0] = true →
      d.p8.toNat % 8 = 0 →
      36 ≤ p.val ∨ fld d.p16 4 0 ≤ 7 →
      Completes (.qsampleRead d false) s (fun t =>
        s.dev.basjo.wrote d d.p8.toNat ((s.dev.qhist (queueOf p.val (fld d.p16 4 0))).last.reverse.flatMap (fun x => leBytes 8
          x.tick ++ leBytes 4 x.octets ++ leBytes 4 x.frames ++ leBytes 4 x.age ++ zeros 4)) t.dev.basjo ∧ s.dev.basjo.answers d
          stOk (s.dev.qhist (queueOf p.val (fld d.p16 4 0))).last.length 0 t.dev.basjo ∧ s.keeps [.basjo, .clocks] t))
    ∧ (∀ (s : State) (d : CmdDesc) (p : Fin 38) (err : Bool),
      s.starts d 0x21 p.val 1 [all64, 0x1F, 0, 0, 0] = true →
      d.p8.toNat % 8 ≠ 0 ∨ (p.val < 36 ∧ 7 < fld d.p16 4 0) →
      Completes (.qsampleRead d err) s (fun t =>
        s.completes d [] [] t ∧ s.dev.basjo.answers d stBadParam 0 0 t.dev.basjo))

/-- Rule words are loaded, a version is committed, and an old one retires. Rests on R122, R124, R134, R140, R141, R142, R143, R144,
R145. -/
def Obligations.RuleVersionsCommit : Prop :=
    (∀ (s : State) (d : CmdDesc) (mem : HostData),
      s.starts d 0x10 0xFF 1 [all64, 0x1FFFFF000FFFFF, 0, 0, 0] = true →
      fld d.p8 2 0 = 0 →
      fld d.p16 52 32 ≠ 0 →
      fld d.p16 19 0 + fld d.p16 52 32 ≤ 1048576 →
      meets s.dev.protectedExtents (fld d.p16 19 0) (fld d.p16 52 32) = false →
      mem.err = false →
      mem.octets.length = 8 * fld d.p16 52 32 →
      Completes (.boughLoad d mem) s (fun t =>
        (∀ k < fld d.p16 52 32, t.dev.bough (fld d.p16 19 0 + k) = BitVec.ofNat 64 (leNat ((mem.octets.drop (8 * k)).take 8))) ∧ (∀
          x, ¬ (boughAddr (fld d.p16 19 0) ≤ x ∧ x < boughAddr (fld d.p16 19 0 + fld d.p16 52 32)) → t.dev.word x = s.dev.word x) ∧
          s.completes d [.words] [] t ∧ s.dev.basjo.answers d stOk 0 0 t.dev.basjo))
    ∧ (∀ (s : State) (d : CmdDesc) (mem : HostData),
      s.starts d 0x10 0xFF 1 [all64, 0x1FFFFF000FFFFF, 0, 0, 0] = true →
      fld d.p8 2 0 = 0 →
      fld d.p16 52 32 ≠ 0 →
      fld d.p16 19 0 + fld d.p16 52 32 ≤ 1048576 →
      meets s.dev.protectedExtents (fld d.p16 19 0) (fld d.p16 52 32) = true →
      Completes (.boughLoad d mem) s (fun t =>
        t.dev.reg 0x220004 = satAdd (s.dev.reg 0x220004) 1 ∧ s.completes d [] [0x220004] t ∧ s.dev.basjo.answers d 0x40 0 0
          t.dev.basjo))
    ∧ (∀ (s : State) (d : CmdDesc) (v : Nat),
      s.starts d 0x10 0xFF 2 [0xFFFFF, 0x1FFFFF000FFFFF, 0xFFFFFFFF, 0xFFFFFFFF, 0] = true →
      fld d.p16 19 0 + fld d.p16 52 32 ≤ 1048576 →
      17 ≤ fld d.p16 52 32 →
      Extent.has (fld d.p16 19 0, fld d.p16 52 32) (fld d.p8 19 0) 17 = true →
      meets s.dev.protectedExtents (fld d.p16 19 0) (fld d.p16 52 32) = false →
      s.dev.badHeader (fld d.p8 19 0) (fld d.p16 19 0, fld d.p16 52 32) = none →
      s.dev.freeSlot = some v →
      Completes (.commit d) s (fun t =>
        t.dev.groves =
          { s.dev.groves with commit := some ⟨d, fld d.p16 19 0, fld d.p16 52 32, fld d.p8 19 0, d.p32.truncate 32, s.dev.now, fld d.p24 31 0, some (v, s.dev.tick + 64)⟩ }
          ∧ t.dev.basjo = s.dev.basjo.setRing d.host.val d.ring.val
          { s.dev.basjo.ring d.host.val d.ring.val with running := some ⟨d, 2, s.dev.now⟩ } ∧ s.keeps [.groves, .clocks, .basjo] t))
    ∧ (∀ (s : State) (d : CmdDesc),
      s.starts d 0x10 0xFF 2 [0xFFFFF, 0x1FFFFF000FFFFF, 0xFFFFFFFF, 0xFFFFFFFF, 0] = true →
      fld d.p16 19 0 + fld d.p16 52 32 ≤ 1048576 →
      17 ≤ fld d.p16 52 32 →
      Extent.has (fld d.p16 19 0, fld d.p16 52 32) (fld d.p8 19 0) 17 = true →
      meets s.dev.protectedExtents (fld d.p16 19 0) (fld d.p16 52 32) = true →
      Completes (.commit d) s (fun t =>
        s.completes d [] [] t ∧ s.dev.basjo.answers d 0x40 0 0 t.dev.basjo))
    ∧ (∀ (s : State) (d : CmdDesc) (x : Nat),
      s.starts d 0x10 0xFF 2 [0xFFFFF, 0x1FFFFF000FFFFF, 0xFFFFFFFF, 0xFFFFFFFF, 0] = true →
      fld d.p16 19 0 + fld d.p16 52 32 ≤ 1048576 →
      17 ≤ fld d.p16 52 32 →
      Extent.has (fld d.p16 19 0, fld d.p16 52 32) (fld d.p8 19 0) 17 = true →
      meets s.dev.protectedExtents (fld d.p16 19 0) (fld d.p16 52 32) = false →
      s.dev.badHeader (fld d.p8 19 0) (fld d.p16 19 0, fld d.p16 52 32) = some x →
      Completes (.commit d) s (fun t =>
        s.completes d [] [] t ∧ s.dev.basjo.answers d 0x41 x 0 t.dev.basjo))
    ∧ (∀ (s : State) (c : CommitRun) (n : Nat),
      s.dev.runs = true →
      s.dev.groves.commit = some c →
      c.token = none →
      c.since + c.timeout * usRaw ≤ s.dev.now →
      s.dev.basjo.ringType c.desc.host.val c.desc.ring.val = 3 →
      s.dev.basjo.ringActive c.desc.host.val c.desc.ring.val = true →
      (s.dev.basjo.ring c.desc.host.val c.desc.ring.val).running = some ⟨c.desc, 2, n⟩ →
      c.desc.writeErr = false →
      Completes (.commitTimeout) s (fun t =>
        t.dev.groves.commit = none ∧ t.dev.groves = { s.dev.groves with commit := t.dev.groves.commit } ∧ s.completes c.desc
          [.groves] [] t ∧ s.dev.basjo.answers c.desc stTimeout 0 0 t.dev.basjo))
    ∧ (∀ (s : State) (c : CommitRun),
      s.dev.runs = true →
      s.dev.groves.commit = some c →
      s.dev.now < c.since + c.timeout * usRaw ∨ c.token.isSome = true →
      Completes (.commitTimeout) s (fun t =>
        t = s))
    ∧ (∀ (s : State) (c : CommitRun) (n v x : Nat),
      s.dev.runs = true →
      s.dev.groves.commit = some c →
      c.token = some (v, x) →
      x ≤ s.dev.tick →
      v < 4 →
      s.dev.basjo.ringType c.desc.host.val c.desc.ring.val = 3 →
      s.dev.basjo.ringActive c.desc.host.val c.desc.ring.val = true →
      (s.dev.basjo.ring c.desc.host.val c.desc.ring.val).running = some ⟨c.desc, 2, n⟩ →
      c.desc.writeErr = false →
      Completes (.commitToken) s (fun t =>
        t.dev.groves.commit = none ∧ t.dev.groves = { s.dev.groves with commit := t.dev.groves.commit } ∧ t.dev.reg (verReg v 0) = 1
          ∧ t.dev.reg (verReg v 4) = BitVec.ofNat 32 c.base ∧ t.dev.reg (verReg v 8) = BitVec.ofNat 32 c.len ∧ t.dev.reg (verReg v
          0xC) = BitVec.ofNat 32 c.hdr ∧ t.dev.reg (verReg v 0x10) = c.label ∧ (∀ o : Fin 4, o.val ≠ v → s.dev.current = some o.val
          → t.dev.verState o.val = 2) ∧ (∀ o : Fin 4, o.val ≠ v → s.dev.current ≠ some o.val → t.dev.verState o.val = s.dev.verState
          o.val) ∧ s.completes c.desc [.groves] [verReg v 4, verReg v 8, verReg v 0xC, verReg v 0x10, verReg 0 0, verReg 1 0, verReg
          2 0, verReg 3 0] t ∧ s.dev.basjo.answers c.desc stOk (v + 4 * s.dev.current.getD 0) x t.dev.basjo))
    ∧ (∀ (s : State) (c : CommitRun) (v x : Nat),
      s.dev.runs = true →
      s.dev.groves.commit = some c →
      c.token = some (v, x) →
      s.dev.tick < x →
      Completes (.commitToken) s (fun t =>
        t = s))
    ∧ (∀ (s : State) (v : Fin 4),
      s.dev.runs = true →
      s.dev.verState v.val = 2 →
      s.dev.rf (verReg v.val 0x14) 23 0 = 0 →
      Completes (.versionRetire v) s (fun t =>
        t.dev.reg (verReg v.val 0) = 0 ∧ t.dev.groves =
          { s.dev.groves with commit := s.dev.groves.commit.map (fun c => if c.token.isNone && decide (s.dev.now ≤ c.since + c.timeout * usRaw) then { c with token := some (v.val, s.dev.tick + 64) } else c) }
          ∧ s.changes [.groves] [verReg v.val 0] t))
    ∧ (∀ (s : State) (v : Fin 4),
      s.dev.runs = true →
      s.dev.verState v.val ≠ 2 ∨ s.dev.rf (verReg v.val 0x14) 23 0 ≠ 0 →
      Completes (.versionRetire v) s (fun t =>
        t = s))

/-- The seed, learning messages, holds, relocation out of the stash, ageing and the dampening sweep. Rests on R156, R159, R161,
R164, R165, R166, R170, R171, R173. -/
def Obligations.ReplicasLearn : Prop :=
    (∀ (s : State) (g : Fin 4) (m : LearnMsg) (r : List LearnMsg),
      s.dev.runs = true →
      s.dev.grovePowered g.val = true →
      s.dev.outgoing (s.dev.prevGrove g.val) = m :: r →
      m.hold = false →
      s.dev.fdbFind g.val m.vid m.mac = none →
      (s.dev.freeIn g.val (s.dev.fdbBuckets m.vid m.mac).1).isSome = true →
      Completes (.learningMessageRx g) s (fun t =>
        t.dev.fdbLookup g.val m.vid m.mac = some ⟨false, false, m.vid, m.mac, 0, 0, 0, false, 0, m.origin, m.port, m.stamp, false⟩ ∧
          t.dev.outgoing (s.dev.prevGrove g.val) = r ∧ ((s.dev.prevGrove g.val) ≠ g.val → t.dev.outgoing g.val = (if s.dev.lastHop
          g.val m.origin then s.dev.outgoing g.val else (s.dev.outgoing g.val).takeWhile (fun x => x.origin ≠ g.val) ++ [m] ++
          (s.dev.outgoing g.val).dropWhile (fun x => x.origin ≠ g.val))) ∧ s.changes [.groves] [groveReg g.val 0x200, groveReg g.val
          0x204] t ∧ (∀ k i, k ≠ g.val → i < fdbSlots → t.dev.fdbAt k i = s.dev.fdbAt k i)))
    ∧ (∀ (s : State) (g : Fin 4) (m : LearnMsg) (r : List LearnMsg) (i : Nat) (e : FdbEntry),
      s.dev.runs = true →
      s.dev.grovePowered g.val = true →
      s.dev.outgoing (s.dev.prevGrove g.val) = m :: r →
      m.hold = false →
      s.dev.fdbFind g.val m.vid m.mac = some i →
      s.dev.fdbAt g.val i = some e →
      e.isStatic = false →
      e.group = false →
      e.hold = false →
      m.stamp < e.stamp →
      Completes (.learningMessageRx g) s (fun t =>
        t.dev.groves.fdb = s.dev.groves.fdb ∧ t.dev.reg (groveReg g.val 0x230) = satAdd (s.dev.reg (groveReg g.val 0x230)) 1 ∧
          t.dev.outgoing (s.dev.prevGrove g.val) = r ∧ ((s.dev.prevGrove g.val) ≠ g.val → t.dev.outgoing g.val = (if s.dev.lastHop
          g.val m.origin then s.dev.outgoing g.val else (s.dev.outgoing g.val).takeWhile (fun x => x.origin ≠ g.val) ++ [m] ++
          (s.dev.outgoing g.val).dropWhile (fun x => x.origin ≠ g.val))) ∧ s.keeps [.groves, .regs] t ∧ s.dev.regsKeep [groveReg
          g.val 0x230] t.dev))
    ∧ (∀ (s : State) (g : Fin 4) (m : LearnMsg) (r : List LearnMsg) (i : Nat) (e : FdbEntry),
      s.dev.runs = true →
      s.dev.grovePowered g.val = true →
      s.dev.outgoing (s.dev.prevGrove g.val) = m :: r →
      g ≠ 0 →
      m.hold = false →
      s.dev.fdbFind g.val m.vid m.mac = some i →
      s.dev.fdbAt g.val i = some e →
      e.isStatic = false →
      e.group = false →
      e.hold = false →
      e.stamp < m.stamp →
      Completes (.learningMessageRx g) s (fun t =>
        t.dev.fdbAt g.val i = some { e with dest := m.port, stamp := m.stamp, origin := m.origin, age := 0 } ∧ t.dev.outgoing
          (s.dev.prevGrove g.val) = r ∧ ((s.dev.prevGrove g.val) ≠ g.val → t.dev.outgoing g.val = (if s.dev.lastHop g.val m.origin
          then s.dev.outgoing g.val else (s.dev.outgoing g.val).takeWhile (fun x => x.origin ≠ g.val) ++ [m] ++ (s.dev.outgoing
          g.val).dropWhile (fun x => x.origin ≠ g.val))) ∧ s.keeps [.groves, .regs] t ∧ s.dev.regsKeep [groveReg g.val 0x234,
          groveReg g.val 0x200, groveReg g.val 0x204] t.dev ∧ (∀ k j, ¬ (k = g.val ∧ j = i) → j < fdbSlots → t.dev.fdbAt k j =
          s.dev.fdbAt k j)))
    ∧ (∀ (s : State) (g : Fin 4) (m : LearnMsg) (r : List LearnMsg) (i : Nat) (e : FdbEntry),
      s.dev.runs = true →
      s.dev.grovePowered g.val = true →
      s.dev.outgoing (s.dev.prevGrove g.val) = m :: r →
      m.hold = true →
      s.dev.fdbFind g.val m.vid m.mac = some i →
      s.dev.fdbAt g.val i = some e →
      Completes (.holdMessageRx g) s (fun t =>
        t.dev.fdbAt g.val i = some
          { e with dest := m.port, stamp := m.stamp, origin := 0, age := 0, hold := true, holdEnd := m.holdEnd } ∧ t.dev.outgoing
          (s.dev.prevGrove g.val) = r ∧ ((s.dev.prevGrove g.val) ≠ g.val → t.dev.outgoing g.val = (if s.dev.lastHop g.val m.origin
          then s.dev.outgoing g.val else (s.dev.outgoing g.val).takeWhile (fun x => x.origin ≠ g.val) ++ [m] ++ (s.dev.outgoing
          g.val).dropWhile (fun x => x.origin ≠ g.val))) ∧ s.keeps [.groves, .regs] t ∧ s.dev.regsKeep [groveReg g.val 0x200,
          groveReg g.val 0x204] t.dev ∧ (∀ k j, ¬ (k = g.val ∧ j = i) → j < fdbSlots → t.dev.fdbAt k j = s.dev.fdbAt k j)))
    ∧ (∀ (s : State) (g : Fin 4) (k : Fin 64) (e : FdbEntry) (j : Nat),
      s.dev.runs = true →
      s.dev.fdbAt g.val (fdbStash + k.val) = some e →
      (∀ i : Fin 64, i < k → s.dev.fdbAt g.val (fdbStash + i.val) = none) →
      s.dev.freeIn g.val (s.dev.fdbBuckets e.vid e.mac).1 = some j →
      Completes (.stashRelocate g) s (fun t =>
        t.dev.fdbAt g.val j = some e ∧ t.dev.fdbAt g.val (fdbStash + k.val) = none ∧ s.keeps [.groves, .regs] t ∧ s.dev.regsKeep
          [groveReg g.val 0x200, groveReg g.val 0x204] t.dev ∧ (∀ x y, ¬ (x = g.val ∧ (y = j ∨ y = fdbStash + k.val)) → y < fdbSlots
          → t.dev.fdbAt x y = s.dev.fdbAt x y)))
    ∧ (∀ (s : State) (g : Fin 4) (i : Nat) (e : FdbEntry) (bad : List (Fin 4 × Fin 131136)),
      s.dev.runs = true →
      s.dev.groves.fdb.wf (fun _ => none) = true →
      (s.dev.rf 0x221008 15 0 * 250 * msRaw) ≠ 0 →
      s.dev.now % (s.dev.rf 0x221008 15 0 * 250 * msRaw) < 256 →
      s.dev.groves.aged ≠ s.dev.tick + 1 →
      grovePresent s.dev.variant g.val = true →
      i < fdbSlots →
      i ∉ ((bad.filter (fun x => x.1.val = g.val)).map (fun x => x.2.val)) →
      s.dev.fdbAt g.val i = some e →
      e.hold = false →
      e.isStatic = false →
      Completes (.ageingTick bad) s (fun t =>
        t.dev.fdbAt g.val i = (if e.age = 3 then none else some { e with age := e.age + 1 }) ∧ s.keeps [.groves, .regs, .basjo,
          .ras, .audit] t))
    ∧ (∀ (s : State) (g : Fin 4) (i : Nat) (bad : List (Fin 4 × Fin 131136)),
      s.dev.runs = true →
      s.dev.groves.fdb.wf (fun _ => none) = true →
      (s.dev.rf 0x221008 15 0 * 250 * msRaw) ≠ 0 →
      s.dev.now % (s.dev.rf 0x221008 15 0 * 250 * msRaw) < 256 →
      s.dev.groves.aged ≠ s.dev.tick + 1 →
      grovePresent s.dev.variant g.val = true →
      i ∈ ((bad.filter (fun x => x.1.val = g.val)).map (fun x => x.2.val)) →
      Completes (.ageingTick bad) s (fun t =>
        t.dev.fdbAt g.val i = none ∧ t.dev.reg (groveReg g.val 0x224) = satAdd (s.dev.reg (groveReg g.val 0x224)) ((bad.filter (fun
          x => x.1.val = g.val)).map (fun x => x.2.val)).eraseDups.length ∧ s.keeps [.groves, .regs, .basjo, .ras, .audit] t))
    ∧ (∀ (s : State) (bad : List (Fin 4 × Fin 131136)),
      s.dev.runs = true →
      (s.dev.rf 0x221008 15 0 * 250 * msRaw) = 0 ∨ 256 ≤ s.dev.now % (s.dev.rf 0x221008 15 0 * 250 * msRaw) ∨ s.dev.groves.aged =
        s.dev.tick + 1 →
      Completes (.ageingTick bad) s (fun t =>
        t = s))
    ∧ (∀ (s : State) (i : Nat) (e : FdbEntry),
      s.dev.runs = true →
      i < fdbSlots →
      s.dev.fdbAt 0 i = some e →
      e.hold = false →
      e.moves ≠ 0 →
      s.dev.rf 0x22100C 30 16 ≤ (s.dev.ms16 + 65536 - e.winStart) % 65536 →
      Completes (.dampeningSweep 0) s (fun t =>
        t.dev.fdbAt 0 i = some { e with moves := 0 } ∧ s.keeps [.groves, .regs, .basjo] t ∧ (∀ x y, x ≠ 0 → y < fdbSlots →
          t.dev.fdbAt x y = s.dev.fdbAt x y)))
    ∧ (∀ (s : State) (g : Fin 4) (i : Nat) (e : FdbEntry),
      s.dev.runs = true →
      g ≠ 0 →
      i < fdbSlots →
      s.dev.fdbAt g.val i = some e →
      s.dev.holdOver e = true →
      Completes (.dampeningSweep g) s (fun t =>
        t.dev.fdbAt g.val i = some { e with hold := false } ∧ s.keeps [.groves, .regs] t ∧ (∀ x y, x ≠ g.val → y < fdbSlots →
          t.dev.fdbAt x y = s.dev.fdbAt x y)))
    ∧ (∀ (s : State) (g : Fin 4) (vid : BitVec 12) (mac : BitVec 48) (i : Nat) (e : FdbEntry),
      s.dev.runs = true →
      s.dev.fdbFind g.val vid.toNat mac.toNat = some i →
      s.dev.fdbAt g.val i = some e →
      s.dev.holdOver e = true →
      Completes (.holdEndReached g vid mac) s (fun t =>
        t.dev.fdbAt g.val i = some (if g = 0 then { e with hold := false, moves := 0, refused := false } else
          { e with hold := false }) ∧ s.changes [.groves] [groveReg g.val 0x200, groveReg g.val 0x204] t ∧ (∀ x y, ¬ (x = g.val ∧ y
          = i) → y < fdbSlots → t.dev.fdbAt x y = s.dev.fdbAt x y)))
    ∧ (∀ (s : State) (g : Fin 4) (vid : BitVec 12) (mac : BitVec 48) (i : Nat) (e : FdbEntry),
      s.dev.runs = true →
      s.dev.fdbFind g.val vid.toNat mac.toNat = some i →
      s.dev.fdbAt g.val i = some e →
      s.dev.holdOver e = false →
      Completes (.holdEndReached g vid mac) s (fun t =>
        t = s))

/-- The forwarding and meter commands. Rests on R150, R177, R178, R221, R224. -/
def Obligations.ForwardingCommands : Prop :=
    (∀ (s : State) (d : CmdDesc),
      s.starts d 0x10 17 0x10 [0x0FFFFFFFFFFFFFFF, 0x100003FFF, 0, 0, 0] = true →
      (bit d.p16 13 = true ∨ (bit d.p8 40 = false ∧ fld d.p16 12 0 ≤ 39 ∧ portPresent s.dev.variant (fld d.p16 12 0) = true)) →
      (∀ g ∈ groveList s.dev.variant, (s.dev.fdbFind g (fld d.p8 59 48) (fld d.p8 47 0)).isSome = true ∨ (s.dev.freeIn g
        (s.dev.fdbBuckets (fld d.p8 59 48) (fld d.p8 47 0)).1).isSome = true) →
      Completes (.fdbAdd d) s (fun t =>
        (∀ g ∈ groveList s.dev.variant, t.dev.fdbLookup g (fld d.p8 59 48) (fld d.p8 47 0) = some ⟨bit d.p16 32, bit d.p16 13, fld
          d.p8 59 48, fld d.p8 47 0, 0, 0, 0, false, 0, 0, fld d.p16 12 0, s.dev.tick, false⟩) ∧ t.dev.groves =
          { s.dev.groves with fdb := t.dev.groves.fdb } ∧ s.completes d [.groves] [groveReg 0 0x200, groveReg 0 0x204, groveReg 1
          0x200, groveReg 1 0x204, groveReg 2 0x200, groveReg 2 0x204, groveReg 3 0x200, groveReg 3 0x204] t ∧ s.dev.basjo.answers d
          stOk 0 0 t.dev.basjo))
    ∧ (∀ (s : State) (d : CmdDesc),
      s.starts d 0x10 17 0x10 [0x0FFFFFFFFFFFFFFF, 0x100003FFF, 0, 0, 0] = true →
      bit d.p16 13 = false →
      bit d.p8 40 = true ∨ 39 < fld d.p16 12 0 ∨ portPresent s.dev.variant (fld d.p16 12 0) = false →
      Completes (.fdbAdd d) s (fun t =>
        s.completes d [] [] t ∧ s.dev.basjo.answers d stBadParam 0 0 t.dev.basjo))
    ∧ (∀ (s : State) (d : CmdDesc),
      s.starts d 0x10 17 0x11 [0x0FFFFFFFFFFFFFFF, 0, 0, 0, 0] = true →
      (groveList s.dev.variant).any (fun g => (s.dev.fdbFind g (fld d.p8 59 48) (fld d.p8 47 0)).isSome) = true →
      Completes (.fdbDel d) s (fun t =>
        (∀ g ∈ groveList s.dev.variant, ((s.dev.fdbFind g (fld d.p8 59 48) (fld d.p8 47 0)).all (fun i => (t.dev.fdbAt g i).isNone))
          = true) ∧ t.dev.groves = { s.dev.groves with fdb := t.dev.groves.fdb } ∧ s.completes d [.groves] [groveReg 0 0x200,
          groveReg 0 0x204, groveReg 1 0x200, groveReg 1 0x204, groveReg 2 0x200, groveReg 2 0x204, groveReg 3 0x200, groveReg 3
          0x204] t ∧ s.dev.basjo.answers d stOk 0 0 t.dev.basjo))
    ∧ (∀ (s : State) (d : CmdDesc),
      s.starts d 0x10 17 0x11 [0x0FFFFFFFFFFFFFFF, 0, 0, 0, 0] = true →
      (groveList s.dev.variant).any (fun g => (s.dev.fdbFind g (fld d.p8 59 48) (fld d.p8 47 0)).isSome) = false →
      Completes (.fdbDel d) s (fun t =>
        s.completes d [] [] t ∧ s.dev.basjo.answers d stNotFound 0 0 t.dev.basjo))
    ∧ (∀ (s : State) (d : CmdDesc),
      s.starts d 0x10 17 0x12 [0x0001013F10000FFF, 0, 0, 0, 0] = true →
      s.dev.groves.fdb.wf (fun _ => none) = true →
      Completes (.fdbFlush d) s (fun t =>
        (∀ g ∈ groveList s.dev.variant, ∀ i, i < fdbSlots → t.dev.fdbAt g i = (s.dev.fdbAt g i).filter (fun e => !(fun e =>
          (!e.isStatic || bit d.p8 48) && (!bit d.p8 40 || (!e.group && decide (e.dest = fld d.p8 37 32))) && (!bit d.p8 28 ||
          decide (e.vid = fld d.p8 11 0))) e)) ∧ t.dev.groves = { s.dev.groves with fdb := t.dev.groves.fdb } ∧ s.completes d
          [.groves] [groveReg 0 0x200, groveReg 0 0x204, groveReg 1 0x200, groveReg 1 0x204, groveReg 2 0x200, groveReg 2 0x204,
          groveReg 3 0x200, groveReg 3 0x204] t ∧ s.dev.basjo.answers d stOk (((s.dev.fdbUsed 0).filterMap (s.dev.fdbAt 0)).countP
          (fun e => (!e.isStatic || bit d.p8 48) && (!bit d.p8 40 || (!e.group && decide (e.dest = fld d.p8 37 32))) && (!bit d.p8
          28 || decide (e.vid = fld d.p8 11 0)))) 0 t.dev.basjo))
    ∧ (∀ (s : State) (d : CmdDesc) (g : Fin 4) (e : FdbEntry),
      s.starts d (0x10 + g.val) 17 0x13 [0x0FFFFFFFFFFFFFFF, 0, 0, 0, 0] = true →
      s.dev.fdbLookup g.val (fld d.p8 59 48) (fld d.p8 47 0) = some e →
      Completes (.fdbRead d) s (fun t =>
        s.completes d [] [] t ∧ s.dev.basjo.answers d stOk (e.dest + 2 ^ 13 * e.group.toNat + 2 ^ 14 * e.isStatic.toNat + 2 ^ 15 *
          (s.dev.held e).toNat + 2 ^ 16 * e.age + 2 ^ 18 * e.moves + 2 ^ 22 * e.origin) e.stamp t.dev.basjo))
    ∧ (∀ (s : State) (d : CmdDesc) (g : Fin 4),
      s.starts d (0x10 + g.val) 17 0x13 [0x0FFFFFFFFFFFFFFF, 0, 0, 0, 0] = true →
      s.dev.fdbLookup g.val (fld d.p8 59 48) (fld d.p8 47 0) = none →
      Completes (.fdbRead d) s (fun t =>
        s.completes d [] [] t ∧ s.dev.basjo.answers d stNotFound 0 0 t.dev.basjo))
    ∧ (∀ (s : State) (d : CmdDesc) (g : Fin 4),
      s.starts d (0x10 + g.val) 17 0x14 [all64, 0x3FFFF, 0, 0, 0] = true →
      fld d.p8 2 0 = 0 →
      fld d.p16 17 0 ≠ 0 →
      fld d.p16 17 0 ≤ 131136 →
      Completes (.fdbDump d false) s (fun t =>
        s.dev.basjo.wrote d d.p8.toNat ((((s.dev.fdbUsed g.val).filterMap (s.dev.fdbAt g.val)).take (fld d.p16 17 0)).flatMap
          FdbEntry.octets) t.dev.basjo ∧ s.dev.basjo.answers d stOk (((s.dev.fdbUsed g.val).filterMap (s.dev.fdbAt g.val)).take (fld
          d.p16 17 0)).length 0 t.dev.basjo ∧ s.keeps [.basjo, .clocks] t))
    ∧ (∀ (s : State) (d : CmdDesc),
      s.starts d 0x10 18 0x20 [0x3FFF, 0x003FFFFF003FFFFF, 0x00FFFFFF00FFFFFF, 7, 0] = true →
      (bit d.p32 0 = false ∨ (1 ≤ fld d.p16 21 0 ∧ fld d.p16 53 32 ≤ 3125000 ∧ fld d.p16 21 0 ≤ fld d.p16 53 32 ∧ 1 ≤ fld d.p24 23 0
        ∧ 1 ≤ fld d.p24 55 32)) →
      Completes (.meterSet d) s (fun t =>
        t.dev.meter (fld d.p8 13 0) = ⟨bit d.p32 0, bit d.p32 1, bit d.p32 2, fld d.p16 21 0, fld d.p16 53 32, fld d.p24 23 0, fld
          d.p24 55 32⟩ ∧ (∀ g ∈ groveList s.dev.variant, t.dev.meterRun g (fld d.p8 13 0) = ⟨fld d.p24 23 0 * octetUnits, fld d.p24
          55 32 * octetUnits, s.dev.now, 0, 0, 0⟩) ∧ s.completes d [.groves] [] t ∧ s.dev.basjo.answers d stOk 0 0 t.dev.basjo ∧ (∀
          m, m ≠ fld d.p8 13 0 → t.dev.meter m = s.dev.meter m) ∧ t.dev.groves =
          { s.dev.groves with meters := t.dev.groves.meters, meterRuns := t.dev.groves.meterRuns }))
    ∧ (∀ (s : State) (d : CmdDesc),
      s.starts d 0x10 18 0x20 [0x3FFF, 0x003FFFFF003FFFFF, 0x00FFFFFF00FFFFFF, 7, 0] = true →
      bit d.p32 0 = true →
      ¬ (1 ≤ fld d.p16 21 0 ∧ fld d.p16 53 32 ≤ 3125000 ∧ fld d.p16 21 0 ≤ fld d.p16 53 32 ∧ 1 ≤ fld d.p24 23 0 ∧ 1 ≤ fld d.p24 55
        32) →
      Completes (.meterSet d) s (fun t =>
        s.completes d [] [] t ∧ s.dev.basjo.answers d stBadParam 0 0 t.dev.basjo))
    ∧ (∀ (s : State) (d : CmdDesc) (g : Fin 4),
      s.starts d (0x10 + g.val) 18 0x21 [0x13FFF, 0, 0, 0, 0] = true →
      bit d.p8 16 = false →
      Completes (.meterRead d) s (fun t =>
        s.completes d [] [] t ∧ s.dev.basjo.answers d stOk (s.dev.meterRun g.val (fld d.p8 13 0)).red.toNat ((s.dev.meterRun g.val
          (fld d.p8 13 0)).yellow.toNat * 2 ^ 32 + (s.dev.meterRun g.val (fld d.p8 13 0)).green.toNat) t.dev.basjo))
    ∧ (∀ (s : State) (d : CmdDesc) (g : Fin 4),
      s.starts d (0x10 + g.val) 18 0x21 [0x13FFF, 0, 0, 0, 0] = true →
      bit d.p8 16 = true →
      Completes (.meterRead d) s (fun t =>
        s.completes d [] [] t ∧ s.dev.basjo.answers d stOk 0 ((wholeOctets (s.dev.meterNow g.val (fld d.p8 13 0)).c).toNat * 2 ^ 32
          + (wholeOctets (s.dev.meterNow g.val (fld d.p8 13 0)).p).toNat) t.dev.basjo))

/-- External memory and the overflow region are turned on and off. Rests on R198, R199, R201, R202. -/
def Obligations.BuffersAndMemories : Prop :=
    (∀ (s : State) (a : Acc),
      s.opens a (trunkReg 0x8000) = true →
      s.dev.rb (trunkReg 0x8000) 31 = false →
      2048 ≤ s.dev.xmemCapacity →
      s.dev.xmemCapacity ≤ 8192 →
      Completes (.xmemEnable a true) s (fun t =>
        t.dev.reg (trunkReg 0x8000) = setBit (s.dev.reg (trunkReg 0x8000)) 31 true ∧ t.dev.reg (trunkReg 0x8004) = setFld (s.dev.reg
          (trunkReg 0x8004)) 1 0 1 ∧ s.writes (trunkReg 0x8000) [] [trunkReg 0x8000, trunkReg 0x8004] t))
    ∧ (∀ (s : State) (a : Acc),
      s.opens a (trunkReg 0x8000) = true →
      s.dev.rb (trunkReg 0x8000) 31 = false →
      s.dev.xmemCapacity < 2048 ∨ 8192 < s.dev.xmemCapacity →
      Completes (.xmemEnable a true) s (fun t =>
        t.dev.reg (trunkReg 0x8000) = setBit (s.dev.reg (trunkReg 0x8000)) 30 true ∧ s.writes (trunkReg 0x8000) [] [trunkReg 0x8000]
          t))
    ∧ (∀ (s : State) (a : Acc),
      s.opens a (trunkReg 0x8000) = true →
      s.dev.rb (trunkReg 0x8000) 31 = true →
      s.dev.rb (trunkReg 0x30) 31 = false →
      s.dev.rb (barkReg 0) 31 = false →
      s.dev.rb (tapReg 0x80) 31 = false →
      Completes (.xmemEnable a false) s (fun t =>
        t.dev.reg (trunkReg 0x8000) = setBit (s.dev.reg (trunkReg 0x8000)) 31 false ∧ t.dev.reg (trunkReg 0x8004) = s.dev.reg
          (trunkReg 0x8004) &&& 0x40000000 ∧ t.dev.reg (trunkReg 0x8008) = 0 ∧ s.writes (trunkReg 0x8000) [] [trunkReg 0x8000,
          trunkReg 0x8004, trunkReg 0x8008] t))
    ∧ (∀ (s : State) (a : Acc),
      s.opens a (trunkReg 0x8000) = true →
      s.dev.rb (trunkReg 0x8000) 31 = true →
      s.dev.rb (trunkReg 0x30) 31 = true ∨ s.dev.rb (barkReg 0) 31 = true ∨ s.dev.rb (tapReg 0x80) 31 = true →
      Completes (.xmemEnable a false) s (fun t =>
        t.dev.reg (trunkReg 0x8000) = setBit (s.dev.reg (trunkReg 0x8000)) 30 true ∧ s.writes (trunkReg 0x8000) [] [trunkReg 0x8000]
          t))
    ∧ (∀ (s : State),
      s.dev.runs = true →
      s.dev.rb (trunkReg 0x8000) 31 = true →
      s.dev.rf (trunkReg 0x8004) 1 0 = 1 →
      Completes (.xmemInitDone true) s (fun t =>
        t.dev.rb (trunkReg 0x8004) 31 = true ∧ t.dev.rf (trunkReg 0x8004) 1 0 = 2 ∧ t.dev.rf (trunkReg 0x8008) 13 0 =
          s.dev.xmemCapacity ∧ t.dev.reg (trunkReg 0x800C) = satAdd (s.dev.reg (trunkReg 0x800C)) 1 ∧ s.keeps [.regs] t ∧
          s.dev.regsKeep [trunkReg 0x8004, trunkReg 0x8008, trunkReg 0x800C] t.dev))
    ∧ (∀ (s : State),
      s.dev.runs = true →
      s.dev.rb (trunkReg 0x8000) 31 = true →
      s.dev.rf (trunkReg 0x8004) 1 0 = 1 →
      Completes (.xmemInitDone false) s (fun t =>
        t.dev.rb (trunkReg 0x8004) 30 = true ∧ t.dev.rb (trunkReg 0x8000) 31 = false ∧ t.dev.rf (trunkReg 0x8004) 1 0 = 0 ∧
          s.changes [] [trunkReg 0x8000, trunkReg 0x8004] t))
    ∧ (∀ (s : State),
      s.dev.runs = true →
      s.dev.xmemReady = true →
      s.dev.rf (trunkReg 0x8004) 1 0 = 2 →
      Completes (.xmemPeriodicTraining) s (fun t =>
        t.dev.reg (trunkReg 0x800C) = satAdd (s.dev.reg (trunkReg 0x800C)) 1 ∧ s.keeps [.regs] t ∧ s.dev.regsKeep [trunkReg 0x800C]
          t.dev))
    ∧ (∀ (s : State) (a : Acc),
      s.opens a (trunkReg 0x30) = true →
      s.dev.rb (trunkReg 0x30) 31 = false →
      s.dev.xmemReady = true →
      1 ≤ s.dev.rf (trunkReg 0x30) 10 0 →
      s.dev.rf (trunkReg 0x30) 10 0 ≤ 1024 →
      s.dev.ovfRegion.1 + s.dev.ovfRegion.2 ≤ s.dev.xmemSize →
      overlaps s.dev.ovfRegion s.dev.ctRegion = false →
      s.dev.rb (tapReg 0x80) 31 = false ∨ overlaps s.dev.ovfRegion s.dev.saveRegion = false →
      Completes (.ovfEnable a true) s (fun t =>
        t.dev.reg (trunkReg 0x30) = setBit (s.dev.reg (trunkReg 0x30)) 31 true ∧ s.writes (trunkReg 0x30) [] [trunkReg 0x30] t))
    ∧ (∀ (s : State) (a : Acc),
      s.opens a (trunkReg 0x30) = true →
      s.dev.rb (trunkReg 0x30) 31 = false →
      s.dev.xmemReady = false →
      Completes (.ovfEnable a true) s (fun t =>
        t.dev.reg (trunkReg 0x30) = setBit (s.dev.reg (trunkReg 0x30)) 30 true ∧ s.writes (trunkReg 0x30) [] [trunkReg 0x30] t))
    ∧ (∀ (s : State) (a : Acc),
      s.opens a (trunkReg 0x30) = true →
      Completes (.ovfEnable a false) s (fun t =>
        t.dev.reg (trunkReg 0x30) = setBit (s.dev.reg (trunkReg 0x30)) 31 false ∧ s.writes (trunkReg 0x30) [] [trunkReg 0x30] t))

/-- Frames leave for the overflow region and come back; averages move and stale frames go. Rests on R196, R205, R206, R207, R208,
R209, R211, R212, R213, R214. -/
def Obligations.FramesSpillAndFill : Prop :=
    (∀ (s : State) (q : Fin 352) (x : Desc) (ue : Option (Fin 18)),
      s.dev.runs = true →
      (s.dev.tq q.val).descs.find? (fun y => decide (y.loc = .spilling)) = some x →
      ue.all (fun b => !s.dev.bankHolds b.val) = true →
      Completes (.spillComplete q ue) s (fun t =>
        ((t.dev.tq q.val).descs.find? (fun y => decide (y.seq = x.seq))).map (·.loc) = some .ovf ∧ t.dev.reg (queueReg q.val 0x34) =
          satAdd (s.dev.reg (queueReg q.val 0x34)) 1 ∧ t.dev.rf (trunkReg 4) 17 0 = (s.dev.rf (trunkReg 4) 17 0 + 1) % 2 ^ 18 ∧
          s.keeps [.regs, .basjo, .trunk, .crown] t ∧ (∀ k : Fin 352, k ≠ q → t.dev.tq k.val = s.dev.tq k.val)))
    ∧ (∀ (s : State) (q : Fin 352) (x : Desc) (b : Fin 18),
      s.dev.runs = true →
      (s.dev.tq q.val).descs.find? (fun y => decide (y.loc = .spilling)) = some x →
      (s.dev.stored x.frame).isSome = true →
      s.dev.bankHolds b.val = true →
      Completes (.spillComplete q (some b)) s (fun t =>
        ((t.dev.tq q.val).descs.find? (fun y => decide (y.seq = x.seq))).map (·.loc) = some .ovf ∧ (t.dev.stored x.frame).map
          (·.spoiled) = some true ∧ s.keeps [.regs, .basjo, .trunk, .crown, .words, .ras, .audit, .rx, .ended, .passed, .burl,
          .ports] t ∧ (∀ k : Fin 352, k ≠ q → t.dev.tq k.val = s.dev.tq k.val)))
    ∧ (∀ (s : State) (q : Fin 352) (x : Desc),
      s.dev.runs = true →
      (s.dev.tq q.val).descs.find? (fun y => decide (y.loc = .ovf)) = some x →
      s.dev.rf (trunkReg 0x1C) 16 0 ≤ s.dev.freeCells →
      s.dev.rf (queueReg q.val 0) 15 0 = 0 ∨ s.dev.chipCells q.val < s.dev.rf (queueReg q.val 0) 15 0 →
      (s.dev.tq q.val).descs.countP (fun y => decide (y.loc = .filling)) < 8 →
      s.dev.trunk.queues.foldl (fun n e => n + e.2.descs.countP (fun y => decide (y.loc = .filling))) 0 < 256 →
      s.dev.reseqOcc (queuePort q.val) < 256 →
      octetsIn (recent s.dev.now s.dev.trunk.fills) + s.dev.descLen x ≤ 150000 →
      Completes (.fillReadIssue q) s (fun t =>
        ((t.dev.tq q.val).descs.find? (fun y => decide (y.seq = x.seq))).map (·.loc) = some .filling ∧ t.dev.trunk =
          { s.dev.trunk with queues := t.dev.trunk.queues, fills := (s.dev.now, s.dev.descLen x) :: recent s.dev.now s.dev.trunk.fills }
          ∧ s.keeps [.trunk] t ∧ (∀ k : Fin 352, k ≠ q → t.dev.tq k.val = s.dev.tq k.val)))
    ∧ (∀ (s : State) (q : Fin 352) (seq : BitVec 16) (x : Desc),
      s.dev.runs = true →
      (s.dev.tq q.val).descs.find? (fun y => decide (y.seq = seq) && decide (y.loc = .filling)) = some x →
      seqAfter (s.dev.nextSeq q.val) seq = false →
      s.dev.fillRoom q.val x = true →
      Completes (.fillReadComplete q seq false) s (fun t =>
        ((t.dev.tq q.val).descs.find? (fun y => decide (y.seq = seq))).map (fun y => (y.loc, y.filled)) = some (.chip, true) ∧
          t.dev.nextSeq q.val = s.dev.nextSeq q.val ∧ s.keeps [.regs, .basjo, .trunk, .crown] t ∧ (∀ k : Fin 352, k ≠ q → t.dev.tq
          k.val = s.dev.tq k.val)))
    ∧ (∀ (s : State) (q : Fin 352) (seq : BitVec 16) (x : Desc),
      s.dev.runs = true →
      (s.dev.tq q.val).descs.find? (fun y => decide (y.seq = seq) && decide (y.loc = .filling)) = some x →
      seqAfter (s.dev.nextSeq q.val) seq = false →
      s.dev.fillRoom q.val x = false →
      Completes (.fillReadComplete q seq false) s (fun t =>
        t = s))
    ∧ (∀ (s : State) (q : Fin 352) (seq : BitVec 16) (x : Desc),
      s.dev.runs = true →
      (s.dev.tq q.val).descs.find? (fun y => decide (y.seq = seq) && decide (y.loc = .filling)) = some x →
      Completes (.fillReadComplete q seq true) s (fun t =>
        (t.dev.tq q.val).descs.any (fun y => decide (y.seq = seq)) = false ∧ t.dev.reg (queueReg q.val 0x3C) = satAdd (s.dev.reg
          (queueReg q.val 0x3C)) 1 ∧ s.keeps [.regs, .basjo, .trunk, .crown] t ∧ (∀ k : Fin 352, k ≠ q → t.dev.tq k.val = s.dev.tq
          k.val)))
    ∧ (∀ (s : State) (q : Fin 352) (at_ : Nat),
      s.dev.runs = true →
      (s.dev.tq q.val).timer = some at_ →
      at_ + s.dev.rf (trunkReg 0x20) 9 0 * usRaw ≤ s.dev.now →
      Completes (.reseqTimeout q) s (fun t =>
        t.dev.nextSeq q.val = s.dev.nextSeq q.val + BitVec.ofNat 16 (((s.dev.tq q.val).descs.filter (fun y => y.onChip && seqAfter
          y.seq (s.dev.nextSeq q.val))).foldl (fun n y => min n (y.seq - s.dev.nextSeq q.val).toNat) 65535) ∧ t.dev.reg (queueReg
          q.val 0x2C) = satAdd (s.dev.reg (queueReg q.val 0x2C)) (((s.dev.tq q.val).descs.filter (fun y => y.onChip && seqAfter
          y.seq (s.dev.nextSeq q.val))).foldl (fun n y => min n (y.seq - s.dev.nextSeq q.val).toNat) 65535) ∧ t.dev.trunk.frames =
          s.dev.trunk.frames ∧ s.keeps [.regs, .basjo, .trunk, .crown] t ∧ (∀ k : Fin 352, k ≠ q → t.dev.tq k.val = s.dev.tq
          k.val)))
    ∧ (∀ (s : State) (q : Fin 352),
      s.dev.runs = true →
      (s.dev.tq q.val).timer = none →
      Completes (.reseqTimeout q) s (fun t =>
        t = s))
    ∧ (∀ (s : State),
      s.dev.runs = true →
      s.dev.trunk.avgUs ≤ s.dev.now / usRaw →
      Completes (.avgUpdate) s (fun t =>
        (∀ q : Fin 352, t.dev.reg (queueReg q.val 0x10) = BitVec.ofInt 32 ((s.dev.reg (queueReg q.val 0x10)).toNat + Int.tdiv
          ((s.dev.rf (queueReg q.val 8) 22 0 : Int) * 256 - (s.dev.reg (queueReg q.val 0x10)).toNat) (2 ^ s.dev.rf (queueReg q.val
          0) 19 16))) ∧ t.dev.trunk = { s.dev.trunk with avgUs := s.dev.now / usRaw + 1 } ∧ s.keeps [.regs, .trunk] t ∧ (∀ x, (∀ q :
          Fin 352, x ≠ queueReg q.val 0x10) → t.dev.reg x = s.dev.reg x)))
    ∧ (∀ (s : State),
      s.dev.runs = true →
      s.dev.now / usRaw < s.dev.trunk.avgUs →
      Completes (.avgUpdate) s (fun t =>
        t = s))
    ∧ (∀ (s : State) (q : Fin 352) (x : Desc) (f : Stored),
      s.dev.runs = true →
      s.dev.trunk.staleUs ≤ s.dev.now / usRaw →
      s.dev.trunk.queues.map (·.1) = [q.val] →
      s.dev.head q.val = some x →
      s.dev.stored x.frame = some f →
      s.dev.stale f = true →
      Completes (.staleScan) s (fun t =>
        (t.dev.tq q.val).descs.any (fun y => decide (y.seq = x.seq)) = false ∧ t.dev.reg (queueReg q.val 0x28) = satAdd (s.dev.reg
          (queueReg q.val 0x28)) 1 ∧ s.keeps [.regs, .basjo, .trunk, .crown] t))
    ∧ (∀ (s : State),
      s.dev.runs = true →
      s.dev.trunk.staleUs ≤ s.dev.now / usRaw →
      (∀ e ∈ s.dev.trunk.queues, ∀ x ∈ s.dev.head e.1, ∀ f ∈ s.dev.stored x.frame, s.dev.stale f = false) →
      Completes (.staleScan) s (fun t =>
        t.dev.trunk = { s.dev.trunk with staleUs := s.dev.now / usRaw + 1 } ∧ s.keeps [.trunk] t))

/-- Gate lists are committed, cancelled, swapped and disabled. Rests on R233, R235, R238, R239, R241, R242, R243. -/
def Obligations.GateListsCommitAndSwap : Prop :=
    (∀ (s : State) (a : Acc) (n : Fin 36),
      s.opens a (crownReg n.val 0x10) = true →
      s.clocked (crownReg n.val 0x10) = true →
      (s.dev.gate n.val).pending = none →
      s.dev.adminOk n.val = true →
      Completes (.gateCommit a n) s (fun t =>
        t.dev.gate n.val =
          { s.dev.gate n.val with pending := some ⟨(s.dev.changeTime n.val).1, s.dev.rf (crownReg n.val 0x18) 8 0, (s.dev.reg (crownReg n.val 0x1C)).toNat, (s.dev.changeTime n.val).2.1, (s.dev.changeTime n.val).2.2⟩ }
          ∧ t.dev.reg (crownReg n.val 0x14) = setBit (s.dev.reg (crownReg n.val 0x14)) 1 true ∧ t.dev.reg (crownReg n.val 0x44) =
          BitVec.ofNat 32 (nsOf (s.dev.changeTime n.val).1) ∧ t.dev.reg (crownReg n.val 0x48) = BitVec.ofNat 32 (secOf
          (s.dev.changeTime n.val).1) ∧ t.dev.reg (crownReg n.val 0x4C) = BitVec.ofNat 32 (secOf (s.dev.changeTime n.val).1 / 2 ^ 32
          % 65536) ∧ s.changes [.crown] [crownReg n.val 0x14, crownReg n.val 0x44, crownReg n.val 0x48, crownReg n.val 0x4C] t ∧
          t.dev.crown = { s.dev.crown with gates := t.dev.crown.gates }))
    ∧ (∀ (s : State) (a : Acc) (n : Fin 36),
      s.opens a (crownReg n.val 0x10) = true →
      s.clocked (crownReg n.val 0x10) = true →
      (s.dev.gate n.val).pending = none →
      s.dev.adminOk n.val = false →
      Completes (.gateCommit a n) s (fun t =>
        t.dev.reg (crownReg n.val 0x14) = setBit (s.dev.reg (crownReg n.val 0x14)) 2 true ∧ s.changes [] [crownReg n.val 0x14] t))
    ∧ (∀ (s : State) (a : Acc) (n : Fin 36) (p : GatePending),
      s.opens a (crownReg n.val 0x10) = true →
      s.clocked (crownReg n.val 0x10) = true →
      (s.dev.gate n.val).pending = some p →
      Completes (.gateCommit a n) s (fun t =>
        t.dev.reg (crownReg n.val 0x14) = setBit (s.dev.reg (crownReg n.val 0x14)) 3 true ∧ s.changes [] [crownReg n.val 0x14] t))
    ∧ (∀ (s : State) (a : Acc) (n : Fin 36) (p : GatePending),
      s.opens a (crownReg n.val 0x10) = true →
      s.clocked (crownReg n.val 0x10) = true →
      (s.dev.gate n.val).pending = some p →
      s.dev.wt < p.cct →
      Completes (.gateCancel a n) s (fun t =>
        t.dev.gate n.val = { s.dev.gate n.val with pending := none } ∧ t.dev.reg (crownReg n.val 0x14) = setBit (s.dev.reg (crownReg
          n.val 0x14)) 1 false ∧ s.changes [.crown] [crownReg n.val 0x14] t ∧ t.dev.crown =
          { s.dev.crown with gates := t.dev.crown.gates }))
    ∧ (∀ (s : State) (a : Acc) (n : Fin 36) (p : GatePending),
      s.opens a (crownReg n.val 0x10) = true →
      s.clocked (crownReg n.val 0x10) = true →
      (s.dev.gate n.val).pending = some p →
      p.cct ≤ s.dev.wt →
      Completes (.gateCancel a n) s (fun t =>
        t.dev.gate n.val = s.dev.gate n.val ∧ s.changes [] [] t))
    ∧ (∀ (s : State) (n : Fin 36) (p : GatePending),
      s.dev.runs = true →
      (s.dev.gate n.val).pending = some p →
      p.cct ≤ s.dev.wt →
      Completes (.gateListSwap n) s (fun t =>
        (t.dev.gate n.val).bank = s.dev.adminBank n.val 256 ∧ (t.dev.gate n.val).base = p.cct ∧ (t.dev.gate n.val).pending = none ∧
          (∀ k : Fin 256, t.dev.word (gclAddr n.val k.val) = (s.dev.gate n.val).bank.getD k.val 0) ∧ (∀ x, ¬ (gclAddr n.val 0 ≤ x ∧
          x < gclAddr n.val 256) → t.dev.word x = s.dev.word x) ∧ t.dev.rb (crownReg n.val 0x14) 0 = true ∧ t.dev.rb (crownReg n.val
          0x14) 1 = false ∧ t.dev.reg (crownReg n.val 0x30) = BitVec.ofNat 32 p.len ∧ t.dev.reg (crownReg n.val 0x34) = BitVec.ofNat
          32 p.cycle ∧ t.dev.reg (crownReg n.val 0x38) = BitVec.ofNat 32 (nsOf p.cct) ∧ t.dev.reg (crownReg n.val 0x3C) =
          BitVec.ofNat 32 (secOf p.cct) ∧ s.changes [.crown, .words] [portReg n.val 0x14C, crownReg n.val 0x14, crownReg n.val 0x30,
          crownReg n.val 0x34, crownReg n.val 0x38, crownReg n.val 0x3C, crownReg n.val 0x40] t ∧ t.dev.crown =
          { s.dev.crown with gates := t.dev.crown.gates, queues := t.dev.crown.queues, tx := t.dev.crown.tx, paused := t.dev.crown.paused }))
    ∧ (∀ (s : State) (n : Fin 36) (p : GatePending),
      s.dev.runs = true →
      (s.dev.gate n.val).pending = some p →
      s.dev.wt < p.cct →
      Completes (.gateListSwap n) s (fun t =>
        t = s))
    ∧ (∀ (s : State) (a : Acc) (n : Fin 36),
      s.opens a (crownReg n.val 0x10) = true →
      s.dev.rb (crownReg n.val 0x10) 31 = true →
      Completes (.gateDisable a n) s (fun t =>
        t.dev.reg (crownReg n.val 0x10) = setBit (s.dev.reg (crownReg n.val 0x10)) 31 false ∧ (t.dev.gate n.val).pending = none ∧
          t.dev.rf (crownReg n.val 0x14) 1 0 = 0 ∧ (s.dev.safe = false → t.dev.rf (crownReg n.val 0x14) 31 24 = 0xFF) ∧ s.writes
          (crownReg n.val 0x10) [.crown] [crownReg n.val 0x10, portReg n.val 0x14C, crownReg n.val 0x14] t ∧ t.dev.crown =
          { s.dev.crown with gates := t.dev.crown.gates, queues := t.dev.crown.queues, tx := t.dev.crown.tx, paused := t.dev.crown.paused }))
    ∧ (∀ (s : State) (n : Fin 36),
      s.dev.runs = true →
      portPresent s.dev.variant n.val = true →
      Completes (.gateEntryBoundary n) s (fun t =>
        t.dev.rf (crownReg n.val 0x14) 31 24 = s.dev.gates n.val s.dev.wt % 256 ∧ t.dev.rf (crownReg n.val 0x14) 16 8 =
          ((s.dev.gateEntry n.val s.dev.wt).1.elim 0 (fun e => e.1)) % 512 ∧ (t.dev.gate n.val).bank = (s.dev.gate n.val).bank ∧
          (t.dev.gate n.val).pending = (s.dev.gate n.val).pending ∧ s.keeps [.crown, .regs] t ∧ s.dev.regsKeep [portReg n.val 0x14C,
          crownReg n.val 0x14] t.dev ∧ t.dev.crown =
          { s.dev.crown with gates := t.dev.crown.gates, queues := t.dev.crown.queues, tx := t.dev.crown.tx, paused := t.dev.crown.paused }))

/-- The TIME PLL, the coarse edge and the restart of raw time; the selection of working time and its offset. Rests on R252, R254,
R255, R264, R265, R267, R268. -/
def Obligations.TimeAdvances : Prop :=
    (∀ (s : State),
      s.dev.runs = true →
      s.dev.pllLock = true →
      s.dev.cam.timeOff = false →
      Completes (.timePllLockLoss) s (fun t =>
        t.dev.pllLock = false ∧ t.dev.coarseMode = true ∧ t.dev.cam = { s.dev.cam with relocked := false } ∧ s.changes [.cam]
          [camReg 0] t))
    ∧ (∀ (s : State),
      s.dev.runs = true →
      s.dev.pllLock = false →
      Completes (.timePllRelock) s (fun t =>
        t.dev.pllLock = true ∧ t.dev.coarseMode = s.dev.coarseMode ∧ t.dev.cam = { s.dev.cam with relocked := true } ∧ s.changes
          [.cam] [camReg 0] t))
    ∧ (∀ (s : State),
      s.dev.cam.timeOff = false →
      Completes (.coarseEdge) s (fun t =>
        t.dev.cam =
          { s.dev.cam with coarse := s.dev.cam.coarse + 1, raw := if s.dev.coarseMode then s.dev.cam.raw + (12207 * 256 + 8) else s.dev.cam.raw, anchor := some (if s.dev.coarseMode then s.dev.cam.raw + (12207 * 256 + 8) else s.dev.cam.raw, s.dev.cam.coarse + 1), relocked := t.dev.cam.relocked }
          ∧ t.dev.coarseMode = (s.dev.coarseMode && !s.dev.cam.relocked) ∧ t.dev.cam.relocked = (s.dev.cam.relocked &&
          t.dev.coarseMode) ∧ s.keeps [.cam, .regs] t ∧ s.dev.regsKeep [camReg 0] t.dev))
    ∧ (∀ (s : State) (x : Nat × Nat),
      s.dev.cam.timeOff = true →
      s.dev.cam.anchor = some x →
      Completes (.coarseEdge) s (fun t =>
        t.dev.cam =
          { s.dev.cam with coarse := s.dev.cam.coarse + 1, raw := max s.dev.cam.raw (x.1 + (s.dev.cam.coarse + 1 - x.2) * (12207 * 256 + 8)) }
          ∧ s.keeps [.cam] t))
    ∧ (∀ (s : State) (x : Nat × Nat),
      s.dev.runs = true →
      s.dev.cam.timeOff = true →
      s.dev.cam.anchor = some x →
      3 ≤ s.dev.mode →
      s.dev.pllLock = true →
      x.2 + 2 ≤ s.dev.cam.coarse →
      Completes (.rawReseed) s (fun t =>
        t.dev.cam =
          { s.dev.cam with raw := x.1 + (s.dev.cam.coarse - x.2) * (12207 * 256 + 8), timeOff := false, pps := t.dev.cam.pps } ∧
          s.changes [.cam] [] t))
    ∧ (∀ (s : State),
      s.dev.runs = true →
      s.dev.cam.timeOff = false →
      Completes (.rawReseed) s (fun t =>
        t = s))
    ∧ (∀ (s : State) (a : Acc),
      s.opens a (camReg 0x200) = true →
      s.clocked (camReg 0x200) = true →
      s.dev.wtLive = true →
      s.dev.offOk (s.dev.wt - s.dev.domTime (1 - s.dev.sel) s.dev.now) = true →
      Completes (.wtSwitch a) s (fun t =>
        t.dev.sel = 1 - s.dev.sel ∧ t.dev.wt = s.dev.wt ∧ t.dev.wtLive = true ∧ t.dev.cam =
          { s.dev.cam with off := s.dev.wt - s.dev.domTime (1 - s.dev.sel) s.dev.now, offAt := s.dev.now } ∧ s.changes [.cam]
          [camReg 0x204] t))
    ∧ (∀ (s : State) (a : Acc),
      s.opens a (camReg 0x200) = true →
      s.clocked (camReg 0x200) = true →
      s.dev.wtLive = true →
      s.dev.offOk (s.dev.wt - s.dev.domTime (1 - s.dev.sel) s.dev.now) = false →
      Completes (.wtSwitch a) s (fun t =>
        t.dev.sel = s.dev.sel ∧ s.changes [] [] t))
    ∧ (∀ (s : State) (a : Acc),
      s.opens a (camReg 0x200) = true →
      s.clocked (camReg 0x200) = true →
      s.dev.wtLive = false →
      Completes (.wtSwitch a) s (fun t =>
        t.dev.sel = 1 - s.dev.sel ∧ t.dev.wtLive = decide (s.dev.domState (1 - s.dev.sel) = 2) ∧ s.changes [.cam, .out] [camReg
          0x204] t))
    ∧ (∀ (s : State),
      s.dev.runs = true →
      s.dev.rb (camReg 0x204) 1 = true →
      s.dev.offAt s.dev.now = 0 →
      Completes (.slewComplete) s (fun t =>
        t.dev.reg (camReg 0x204) = setBit (s.dev.reg (camReg 0x204)) 1 false ∧ t.dev.cam =
          { s.dev.cam with off := 0, offAt := s.dev.now } ∧ s.changes [.cam] [camReg 0x204] t))
    ∧ (∀ (s : State),
      s.dev.runs = true →
      s.dev.offAt s.dev.now ≠ 0 →
      Completes (.slewComplete) s (fun t =>
        t = s))

/-- A time domain is enabled, committed, locked, lost and disabled. Rests on R258, R260, R261, R262, R263, R266, R268. -/
def Obligations.DomainsLockAndCommit : Prop :=
    (∀ (s : State) (a : Acc) (d : Fin 2),
      s.opens a (domReg d.val 0) = true →
      s.dev.rb (domReg d.val 0) 31 = false →
      s.dev.domState d.val = 0 →
      Completes (.domEnable a d true) s (fun t =>
        t.dev.reg (domReg d.val 0) = setBit (s.dev.reg (domReg d.val 0)) 31 true ∧ t.dev.domState d.val = 1 ∧ s.writes (domReg d.val
          0) [] [domReg d.val 0, domReg d.val 4, camReg 0x204] t))
    ∧ (∀ (s : State) (a : Acc) (d : Fin 2),
      s.opens a (domReg d.val 0) = true →
      s.dev.rb (domReg d.val 0) 31 = true →
      s.dev.domState d.val ≠ 0 →
      Completes (.domEnable a d false) s (fun t =>
        t.dev.reg (domReg d.val 0) = setBit (s.dev.reg (domReg d.val 0)) 31 false ∧ t.dev.domState d.val = 0 ∧ t.dev.rb (domReg
          d.val 4) 3 = false ∧ t.dev.cam.sync.get none d.val = none ∧ s.writes (domReg d.val 0) [.cam] [domReg d.val 0, domReg d.val
          4, camReg 0x204] t))
    ∧ (∀ (s : State) (a : Acc) (d : Fin 2),
      s.opens a (domReg d.val 0) = true →
      s.clocked (domReg d.val 0) = true →
      (s.dev.triple (domReg d.val 0x10)).br ≤ s.dev.now →
      s.dev.rf (domReg d.val 0x24) 29 0 ≤ 999999999 →
      s.dev.domState d.val ≠ 0 →
      (s.dev.wtLive && decide (s.dev.sel = d.val)) = false →
      Completes (.domCommit a d) s (fun t =>
        (∀ k : Fin 9, t.dev.reg (domReg d.val (0x40 + 4 * k.val)) = s.dev.reg (domReg d.val (0x10 + 4 * k.val))) ∧ s.changesIn
          [.cam, .out] (domReg d.val 0x40) (domReg d.val 0x64) t))
    ∧ (∀ (s : State) (a : Acc) (d : Fin 2),
      s.opens a (domReg d.val 0) = true →
      s.clocked (domReg d.val 0) = true →
      s.dev.rf (domReg d.val 0x24) 29 0 ≤ 999999999 →
      (s.dev.triple (domReg d.val 0x10)).br ≤ s.dev.now →
      s.dev.domState d.val ≠ 0 →
      s.dev.wtLive = true →
      s.dev.sel = d.val →
      s.dev.offOk (s.dev.offAt s.dev.now + s.dev.domTime d.val s.dev.now - (s.dev.triple (domReg d.val 0x10)).time s.dev.now) = true
        →
      Completes (.domCommit a d) s (fun t =>
        (∀ k : Fin 9, t.dev.reg (domReg d.val (0x40 + 4 * k.val)) = s.dev.reg (domReg d.val (0x10 + 4 * k.val))) ∧ t.dev.wt =
          s.dev.wt ∧ t.dev.cam.off = s.dev.offAt s.dev.now + s.dev.domTime d.val s.dev.now - (s.dev.triple (domReg d.val 0x10)).time
          s.dev.now ∧ s.changesOn [.cam] (fun x => x = camReg 0x204 || (List.range 9).any (fun k => x = domReg d.val (0x40 + 4 *
          k))) t))
    ∧ (∀ (s : State) (a : Acc) (d : Fin 2),
      s.opens a (domReg d.val 0) = true →
      s.clocked (domReg d.val 0) = true →
      (s.dev.now < (s.dev.triple (domReg d.val 0x10)).br ∨ 999999999 < s.dev.rf (domReg d.val 0x24) 29 0 ∨ s.dev.domState d.val = 0)
        →
      Completes (.domCommit a d) s (fun t =>
        t.dev.reg (domReg d.val 4) = setBit (s.dev.reg (domReg d.val 4)) 2 true ∧ s.changes [] [domReg d.val 4] t))
    ∧ (∀ (s : State) (a : Acc) (d : Fin 2),
      s.opens a (domReg d.val 0) = true →
      s.clocked (domReg d.val 0) = true →
      (s.dev.domState d.val = 1 ∨ s.dev.domState d.val = 3) →
      (s.dev.rb (domReg d.val 0) 30 = true ∨ s.dev.rb (domReg d.val 4) 3 = true) →
      Completes (.domLock a d false) s (fun t =>
        t.dev.domState d.val = 2 ∧ (s.dev.sel = d.val → t.dev.wtLive = true) ∧ s.changes [.cam] [domReg d.val 4, camReg 0x204] t))
    ∧ (∀ (s : State) (a : Acc) (d : Fin 2),
      s.opens a (domReg d.val 0) = true →
      s.clocked (domReg d.val 0) = true →
      (s.dev.domState d.val ≠ 1 ∧ s.dev.domState d.val ≠ 3) ∨ (s.dev.rb (domReg d.val 0) 30 = false ∧ s.dev.rb (domReg d.val 4) 3 =
        false) →
      Completes (.domLock a d false) s (fun t =>
        t.dev.domState d.val = s.dev.domState d.val ∧ s.changes [] [] t))
    ∧ (∀ (s : State) (a : Acc) (d : Fin 2),
      s.opens a (domReg d.val 0) = true →
      s.clocked (domReg d.val 0) = true →
      2 ≤ s.dev.domState d.val →
      Completes (.domLock a d true) s (fun t =>
        t.dev.domState d.val = 1 ∧ s.changes [.cam] [domReg d.val 4, camReg 0x204] t ∧ t.dev.cam =
          { s.dev.cam with outSince := t.dev.cam.outSince }))
    ∧ (∀ (s : State) (a : Acc) (d : Fin 2),
      s.opens a (domReg d.val 0) = true →
      s.clocked (domReg d.val 0) = true →
      2 ≤ s.dev.domState d.val →
      Completes (.domUnlock a d) s (fun t =>
        t.dev.domState d.val = 1 ∧ s.changes [.cam] [domReg d.val 4, camReg 0x204] t ∧ t.dev.cam =
          { s.dev.cam with outSince := t.dev.cam.outSince }))
    ∧ (∀ (s : State) (d : Fin 2) (x : Nat),
      s.dev.runs = true →
      s.dev.cam.sync.get none d.val = some x →
      x + s.dev.rf (domReg d.val 8) 15 0 * msRaw ≤ s.dev.now →
      s.dev.domState d.val = 2 →
      s.dev.rb (domReg d.val 0) 30 = false →
      (s.dev.sel ≠ d.val ∨ s.dev.rb (camReg 0x200) 1 = false) →
      Completes (.syncTimerExpiry d) s (fun t =>
        t.dev.domState d.val = 3 ∧ t.dev.rb (domReg d.val 4) 3 = false ∧ t.dev.cam.sync.get none d.val = none ∧
          t.dev.cam.outSince.get 0 d.val = s.dev.now ∧ s.changes [.cam] [domReg d.val 4, camReg 0x204] t))
    ∧ (∀ (s : State) (d : Fin 2),
      s.dev.runs = true →
      s.dev.cam.sync.get none d.val = none →
      Completes (.syncTimerExpiry d) s (fun t =>
        t = s))

/-- Snapshots, egress stamps, captures, pulses and the time wire. Rests on R274, R276, R277, R278, R279, R283. -/
def Obligations.SnapshotsAndEdges : Prop :=
    (∀ (s : State) (a : Acc),
      s.opens a (camReg 0x10) = true →
      s.clocked (camReg 0x10) = true →
      Completes (.snap a) s (fun t =>
        t.dev.reg (camReg 0x20) = BitVec.ofNat 32 (s.dev.now % 256) ∧ t.dev.reg (camReg 0x24) = BitVec.ofNat 32 s.dev.tick ∧
          t.dev.reg (camReg 0x28) = BitVec.ofNat 32 (s.dev.tick / 2 ^ 32) ∧ t.dev.reg (camReg 48) = BitVec.ofNat 32 (secOf s.dev.wt)
          ∧ t.dev.reg (camReg 52) = BitVec.ofNat 32 (secOf s.dev.wt / 2 ^ 32) ∧ t.dev.reg (camReg 56) = BitVec.ofNat 32 (nsOf
          s.dev.wt) ∧ t.dev.reg (camReg 60) = BitVec.ofNat 32 (fnsOf s.dev.wt) ∧ t.dev.reg (camReg 64) = BitVec.ofNat 32 (secOf
          (s.dev.domTime 0 s.dev.now)) ∧ t.dev.reg (camReg 68) = BitVec.ofNat 32 (secOf (s.dev.domTime 0 s.dev.now) / 2 ^ 32) ∧
          t.dev.reg (camReg 72) = BitVec.ofNat 32 (nsOf (s.dev.domTime 0 s.dev.now)) ∧ t.dev.reg (camReg 76) = BitVec.ofNat 32
          (fnsOf (s.dev.domTime 0 s.dev.now)) ∧ t.dev.reg (camReg 80) = BitVec.ofNat 32 (secOf (s.dev.domTime 1 s.dev.now)) ∧
          t.dev.reg (camReg 84) = BitVec.ofNat 32 (secOf (s.dev.domTime 1 s.dev.now) / 2 ^ 32) ∧ t.dev.reg (camReg 88) =
          BitVec.ofNat 32 (nsOf (s.dev.domTime 1 s.dev.now)) ∧ t.dev.reg (camReg 92) = BitVec.ofNat 32 (fnsOf (s.dev.domTime 1
          s.dev.now)) ∧ t.dev.rf (camReg 0x10) 31 16 = (s.dev.rf (camReg 0x10) 31 16 + 1) % 65536 ∧ s.changesIn [] (camReg 0x10)
          (camReg 0x60) t))
    ∧ (∀ (s : State) (a : Acc) (value : BitVec 32),
      s.opens a (camReg 0x50C) = true →
      (value - s.dev.reg (camReg 0x50C)).toNat ≤ s.dev.txtsHeld →
      Completes (.txtsRdWrite a value) s (fun t =>
        t.dev.reg (camReg 0x50C) = value ∧ s.writes (camReg 0x50C) [] [camReg 0x50C] t))
    ∧ (∀ (s : State) (a : Acc) (value : BitVec 32),
      s.opens a (camReg 0x50C) = true →
      s.dev.txtsHeld < (value - s.dev.reg (camReg 0x50C)).toNat →
      Completes (.txtsRdWrite a value) s (fun t =>
        t.dev.reg (camReg 0x50C) = s.dev.reg (camReg 0x50C) ∧ s.writes (camReg 0x50C) [] [] t))
    ∧ (∀ (s : State) (k : Fin 4) (rising : Bool),
      s.dev.runs = true →
      s.dev.rb (capReg k.val 0) 31 = true →
      s.dev.rb (capReg k.val 0) (if rising then 0 else 1) = true →
      (s.dev.cam.capLast.get none k.val).all (fun x => decide (x + usRaw ≤ s.dev.now)) = true →
      Completes (.capInEdge k rising) s (fun t =>
        t.dev.reg (capReg k.val 4) = BitVec.ofNat 32 (s.dev.now % 256) ∧ t.dev.reg (capReg k.val 8) = BitVec.ofNat 32 s.dev.tick ∧
          t.dev.reg (capReg k.val 0xC) = BitVec.ofNat 32 (s.dev.tick / 2 ^ 32) ∧ t.dev.reg (capReg k.val 0x10) = satAdd (s.dev.reg
          (capReg k.val 0x10)) 1 ∧ t.dev.cam = { s.dev.cam with capLast := s.dev.cam.capLast.put none k.val (some s.dev.now) } ∧
          s.changes [.cam] [capReg k.val 4, capReg k.val 8, capReg k.val 0xC, capReg k.val 0x10] t))
    ∧ (∀ (s : State) (k : Fin 4) (rising : Bool) (x : Nat),
      s.dev.runs = true →
      s.dev.rb (capReg k.val 0) 31 = true →
      s.dev.rb (capReg k.val 0) (if rising then 0 else 1) = true →
      s.dev.cam.capLast.get none k.val = some x →
      s.dev.now < x + usRaw →
      Completes (.capInEdge k rising) s (fun t =>
        t.dev.reg (capReg k.val 0x14) = satAdd (s.dev.reg (capReg k.val 0x14)) 1 ∧ s.keeps [.regs] t ∧ s.dev.regsKeep [capReg k.val
          0x14] t.dev))
    ∧ (∀ (s : State) (k : Fin 4) (rising : Bool),
      s.dev.runs = true →
      s.dev.rb (capReg k.val 0) 31 = false ∨ s.dev.rb (capReg k.val 0) (if rising then 0 else 1) = false →
      Completes (.capInEdge k rising) s (fun t =>
        t = s))
    ∧ (∀ (s : State) (a : Acc) (k : Fin 4),
      s.opens a (ppsReg k.val 0) = true →
      s.dev.rb (ppsReg k.val 0) 31 = false →
      (100 ≤ (s.dev.reg (ppsReg k.val 4)).toNat ∧ (s.dev.reg (ppsReg k.val 4)).toNat ≤ 4000000000 ∧ 10 ≤ (s.dev.reg (ppsReg k.val
        8)).toNat ∧ (s.dev.reg (ppsReg k.val 8)).toNat + 10 ≤ (s.dev.reg (ppsReg k.val 4)).toNat ∧ s.dev.rf (ppsReg k.val 0xC) 29 0
        ≤ 999999999) →
      Completes (.ppsEnable a k true) s (fun t =>
        t.dev.reg (ppsReg k.val 0) = setBit (s.dev.reg (ppsReg k.val 0)) 31 true ∧ t.dev.pps k.val = some (s.dev.ppsFirst k.val,
          false) ∧ s.writes (ppsReg k.val 0) [.cam] [ppsReg k.val 0] t ∧ t.dev.cam = { s.dev.cam with pps := t.dev.cam.pps }))
    ∧ (∀ (s : State) (a : Acc) (k : Fin 4),
      s.opens a (ppsReg k.val 0) = true →
      s.dev.rb (ppsReg k.val 0) 31 = false →
      ¬ (100 ≤ (s.dev.reg (ppsReg k.val 4)).toNat ∧ (s.dev.reg (ppsReg k.val 4)).toNat ≤ 4000000000 ∧ 10 ≤ (s.dev.reg (ppsReg k.val
        8)).toNat ∧ (s.dev.reg (ppsReg k.val 8)).toNat + 10 ≤ (s.dev.reg (ppsReg k.val 4)).toNat ∧ s.dev.rf (ppsReg k.val 0xC) 29 0
        ≤ 999999999) →
      Completes (.ppsEnable a k true) s (fun t =>
        t.dev.reg (ppsReg k.val 0) = setBit (s.dev.reg (ppsReg k.val 0)) 30 true ∧ s.writes (ppsReg k.val 0) [] [ppsReg k.val 0] t))
    ∧ (∀ (s : State) (a : Acc) (k : Fin 4),
      s.opens a (ppsReg k.val 0) = true →
      s.dev.rb (ppsReg k.val 0) 31 = true →
      Completes (.ppsEnable a k false) s (fun t =>
        t.dev.reg (ppsReg k.val 0) = setBit (s.dev.reg (ppsReg k.val 0)) 31 false ∧ t.dev.pps k.val = none ∧ s.writes (ppsReg k.val
          0) [.cam, .out] [ppsReg k.val 0] t ∧ t.dev.cam = { s.dev.cam with pps := t.dev.cam.pps }))
    ∧ (∀ (s : State) (k : Fin 4) (x : Int) (high : Bool),
      s.dev.runs = true →
      s.dev.pps k.val = some (x, high) →
      x ≤ s.dev.wt →
      s.dev.cam.timeOff = false →
      Completes (.ppsEdge k) s (fun t =>
        t.dev.pps k.val = some (if high then (x - (s.dev.reg (ppsReg k.val 8)).toNat * 65536 + (s.dev.reg (ppsReg k.val 4)).toNat *
          65536, false) else (x + (s.dev.reg (ppsReg k.val 8)).toNat * 65536, true)) ∧ t.dev.out = (if s.dev.safe then s.dev.out
          else .pin "PPS_OUT" (2 * k.val + (!high).toNat) :: s.dev.out) ∧ s.keeps [.cam, .out] t ∧ t.dev.cam =
          { s.dev.cam with pps := t.dev.cam.pps }))
    ∧ (∀ (s : State) (k : Fin 4) (x : Int) (high : Bool),
      s.dev.runs = true →
      s.dev.pps k.val = some (x, high) →
      s.dev.wt < x →
      Completes (.ppsEdge k) s (fun t =>
        t = s))
    ∧ (∀ (s : State),
      s.dev.runs = true →
      s.dev.cam.wireHigh ≠ decide (nsOf s.dev.wt < 500000000) →
      Completes (.timeWireEdge) s (fun t =>
        t.dev.cam = { s.dev.cam with wireHigh := !s.dev.cam.wireHigh } ∧ t.dev.out = .pin "TIME_WIRE" (!s.dev.cam.wireHigh).toNat ::
          s.dev.out ∧ s.keeps [.cam, .out] t))
    ∧ (∀ (s : State),
      s.dev.runs = true →
      s.dev.cam.wireHigh = decide (nsOf s.dev.wt < 500000000) →
      Completes (.timeWireEdge) s (fun t =>
        t = s))

/-- The connection table is enabled, swept, flushed and dumped. Rests on R296, R297, R302, R303, R304, R305, R312, R314. -/
def Obligations.ConnectionTableRuns : Prop :=
    (∀ (s : State) (a : Acc),
      s.opens a (barkReg 0) = true →
      s.dev.rb (barkReg 0) 31 = false →
      s.dev.xmemReady = true →
      10 ≤ s.dev.rf (barkReg 0) 20 16 →
      s.dev.rf (barkReg 0) 20 16 ≤ 22 →
      s.dev.ctRegion.1 + s.dev.ctRegion.2 ≤ s.dev.xmemSize →
      overlaps s.dev.ctRegion s.dev.ovfRegion = false →
      (s.dev.rb (tapReg 0x80) 31 && overlaps s.dev.ctRegion s.dev.saveRegion) = false →
      s.dev.rf (barkReg 0x14) 25 0 = 0 →
      Completes (.ctEnable a true) s (fun t =>
        t.dev.rb (barkReg 0) 31 = true ∧ t.dev.rb (barkReg 4) 2 = true ∧ t.dev.bark = { s.dev.bark with conns := [], cache := [] } ∧
          s.writes (barkReg 0) [.bark] [barkReg 0, barkReg 4] t))
    ∧ (∀ (s : State) (a : Acc),
      s.opens a (barkReg 0) = true →
      s.dev.rb (barkReg 0) 31 = false →
      (s.dev.xmemReady = false ∨ s.dev.rf (barkReg 0) 20 16 < 10 ∨ 22 < s.dev.rf (barkReg 0) 20 16 ∨ s.dev.xmemSize <
        s.dev.ctRegion.1 + s.dev.ctRegion.2 ∨ overlaps s.dev.ctRegion s.dev.ovfRegion = true ∨ (s.dev.rb (tapReg 0x80) 31 &&
        overlaps s.dev.ctRegion s.dev.saveRegion) = true ∨ s.dev.rf (barkReg 0x14) 25 0 ≠ 0) →
      Completes (.ctEnable a true) s (fun t =>
        t.dev.reg (barkReg 0) = setBit (s.dev.reg (barkReg 0)) 30 true ∧ s.writes (barkReg 0) [] [barkReg 0] t))
    ∧ (∀ (s : State) (a : Acc),
      s.opens a (barkReg 0) = true →
      s.dev.rb (barkReg 0) 31 = true →
      s.dev.rf (barkReg 0x14) 25 0 = 0 →
      Completes (.ctEnable a false) s (fun t =>
        t.dev.rb (barkReg 0) 31 = false ∧ t.dev.rb (barkReg 4) 2 = false ∧ t.dev.reg (barkReg 0x18) = 524288 ∧ s.writes (barkReg 0)
          [] [barkReg 0, barkReg 4, barkReg 0x18] t))
    ∧ (∀ (s : State) (a : Acc),
      s.opens a (barkReg 0) = true →
      s.dev.rb (barkReg 0) 31 = true →
      s.dev.rf (barkReg 0x14) 25 0 ≠ 0 →
      Completes (.ctEnable a false) s (fun t =>
        t.dev.reg (barkReg 0) = setBit (s.dev.reg (barkReg 0)) 30 true ∧ s.writes (barkReg 0) [] [barkReg 0] t))
    ∧ (∀ (s : State),
      s.dev.runs = true →
      s.dev.rb (barkReg 4) 2 = true →
      s.dev.bark.conns = [] →
      Completes (.ctInitDone) s (fun t =>
        t.dev.rb (barkReg 4) 2 = false ∧ t.dev.tableGen = s.dev.tableGen ∧ t.dev.reg (barkReg 0x18) = BitVec.ofNat 32 (8 * 2 ^
          s.dev.rf (barkReg 0) 20 16) ∧ s.changes [.bark] [barkReg 4, barkReg 0x18] t ∧ t.dev.bark =
          { s.dev.bark with pressed := t.dev.bark.pressed }))
    ∧ (∀ (s : State),
      s.dev.runs = true →
      s.dev.rb (barkReg 4) 2 = false →
      Completes (.ctInitDone) s (fun t =>
        t = s))
    ∧ (∀ (s : State) (a : Acc) (value : BitVec 32),
      s.opens a (barkReg 0x10) = true →
      s.dev.rf (barkReg 0x14) 25 0 = 0 →
      Completes (.ctSeedWrite a value) s (fun t =>
        t.dev.reg (barkReg 0x10) = value ∧ s.writes (barkReg 0x10) [] [barkReg 0x10] t))
    ∧ (∀ (s : State) (a : Acc) (value : BitVec 32),
      s.opens a (barkReg 0x10) = true →
      s.dev.rf (barkReg 0x14) 25 0 ≠ 0 →
      Completes (.ctSeedWrite a value) s (fun t =>
        t = s))
    ∧ (∀ (s : State),
      s.dev.runs = true →
      s.dev.bark.conns.wf (fun _ => none) = true →
      s.dev.bark.flushing = none →
      s.dev.bark.genDue = false →
      Completes (.connSweep) s (fun t =>
        (∀ k < 8, t.dev.conn (8 * (s.dev.bark.sweepAt % 2 ^ s.dev.bucketBits) + k) = (s.dev.conn (8 * (s.dev.bark.sweepAt % 2 ^
          s.dev.bucketBits) + k)).filter (fun c => !s.dev.connExpired c)) ∧ (∀ i, i / 8 ≠ (s.dev.bark.sweepAt % 2 ^
          s.dev.bucketBits) → t.dev.conn i = s.dev.conn i) ∧ t.dev.bark.sweeps = s.dev.bark.sweeps + 1 ∧ t.dev.bark.sweepAt =
          ((s.dev.bark.sweepAt % 2 ^ s.dev.bucketBits) + 1) % 2 ^ s.dev.bucketBits ∧ t.dev.tableGen = s.dev.tableGen ∧ s.changesOn
          [.bark] (fun a => a = barkReg 0x14 || (List.range 64).any (fun x => (List.range 64).any (fun y => a = zpUsed x y))) t))
    ∧ (∀ (s : State),
      s.dev.runs = true →
      s.dev.bark.conns.wf (fun _ => none) = true →
      s.dev.bark.genDue = true →
      2 ^ s.dev.bucketBits ≤ s.dev.bark.sweeps + 1 →
      Completes (.connSweep) s (fun t =>
        (∀ k < 8, t.dev.conn (8 * (s.dev.bark.sweepAt % 2 ^ s.dev.bucketBits) + k) = (s.dev.conn (8 * (s.dev.bark.sweepAt % 2 ^
          s.dev.bucketBits) + k)).filter (fun c => !s.dev.connExpired c)) ∧ (∀ i, i / 8 ≠ (s.dev.bark.sweepAt % 2 ^
          s.dev.bucketBits) → t.dev.conn i = s.dev.conn i) ∧ t.dev.tableGen = (s.dev.tableGen + 1) % 256 ∧ t.dev.bark.genDue = false
          ∧ t.dev.bark.sweeps = 0 ∧ s.changesOn [.bark] (fun b => (fun a => a = barkReg 0x14 || (List.range 64).any (fun x =>
          (List.range 64).any (fun y => a = zpUsed x y))) b || b = barkReg 4) t))
    ∧ (∀ (s : State) (d : CmdDesc) (n : Nat),
      s.dev.runs = true →
      s.dev.bark.conns.wf (fun _ => none) = true →
      s.dev.bark.genDue = false →
      s.dev.bark.flushing = some d →
      2 ^ s.dev.bucketBits ≤ s.dev.bark.sweeps + 1 →
      s.dev.basjo.ringType d.host.val d.ring.val = 3 →
      s.dev.basjo.ringActive d.host.val d.ring.val = true →
      (s.dev.basjo.ring d.host.val d.ring.val).running = some ⟨d, 1, n⟩ →
      d.writeErr = false →
      Completes (.connSweep) s (fun t =>
        (∀ k < 8, t.dev.conn (8 * (s.dev.bark.sweepAt % 2 ^ s.dev.bucketBits) + k) = (s.dev.conn (8 * (s.dev.bark.sweepAt % 2 ^
          s.dev.bucketBits) + k)).filter (fun c => !s.dev.connExpired c)) ∧ (∀ i, i / 8 ≠ (s.dev.bark.sweepAt % 2 ^
          s.dev.bucketBits) → t.dev.conn i = s.dev.conn i) ∧ t.dev.tableGen = (s.dev.tableGen + 1) % 256 ∧ t.dev.bark.flushing =
          none ∧ t.dev.rb (barkReg 4) 1 = false ∧ (t.dev.basjo.ring d.host.val d.ring.val).running = none ∧ t.dev.basjo.devIdx
          d.host.val d.ring.val = s.dev.basjo.devIdx d.host.val d.ring.val + 1 ∧ s.dev.basjo.answers d stOk (s.dev.bark.conns.countP
          (fun e => e.2.any (fun c => !s.dev.connExpired c))) 0 t.dev.basjo ∧ s.keeps [.regs, .basjo, .bark, .audit] t))
    ∧ (∀ (s : State) (d : CmdDesc),
      s.starts d 0x30 2 1 [0x0001013F3F01FFFF, 0, 0, 0, 0] = true →
      bit d.p8 48 = true →
      bit d.p8 40 = false →
      bit d.p8 16 = false →
      s.dev.passDone = true →
      Completes (.connFlush d) s (fun t =>
        t.dev.tableGen = (s.dev.tableGen + 1) % 256 ∧ t.dev.bark = { s.dev.bark with sweeps := 0 } ∧ s.completes d [.bark] [barkReg
          4] t ∧ s.dev.basjo.answers d stOk s.dev.liveConns 0 t.dev.basjo))
    ∧ (∀ (s : State) (d : CmdDesc),
      s.starts d 0x30 2 1 [0x0001013F3F01FFFF, 0, 0, 0, 0] = true →
      bit d.p8 48 = true →
      bit d.p8 40 = false →
      bit d.p8 16 = false →
      s.dev.passDone = false →
      Completes (.connFlush d) s (fun t =>
        t.dev.bark = { s.dev.bark with flushing := some d } ∧ t.dev.rb (barkReg 4) 1 = true ∧ t.dev.tableGen = s.dev.tableGen ∧
          t.dev.basjo = s.dev.basjo.setRing d.host.val d.ring.val
          { s.dev.basjo.ring d.host.val d.ring.val with running := some ⟨d, 1, s.dev.now⟩ } ∧ s.keeps [.bark, .regs, .basjo,
          .clocks] t ∧ s.dev.regsKeep [barkReg 4] t.dev))
    ∧ (∀ (s : State) (d : CmdDesc),
      s.starts d 0x30 2 1 [0x0001013F3F01FFFF, 0, 0, 0, 0] = true →
      s.dev.bark.conns.wf (fun _ => none) = true →
      bit d.p8 48 = false →
      bit d.p8 40 = true →
      bit d.p8 16 = false →
      Completes (.connFlush d) s (fun t =>
        (∀ i, t.dev.conn i = (s.dev.conn i).filter (fun c => !(decide (c.zoneA = fld d.p8 37 32) && decide (c.zoneB = fld d.p8 29
          24)))) ∧ t.dev.tableGen = s.dev.tableGen ∧ s.completesOn d [.bark] (fun a => a = barkReg 0x14 || (List.range 64).any (fun
          x => (List.range 64).any (fun y => a = zpUsed x y))) t ∧ s.dev.basjo.answers d stOk (s.dev.bark.conns.countP (fun e =>
          e.2.any (fun c => (decide (c.zoneA = fld d.p8 37 32) && decide (c.zoneB = fld d.p8 29 24))))) 0 t.dev.basjo))
    ∧ (∀ (s : State) (d : CmdDesc),
      s.starts d 0x30 2 1 [0x0001013F3F01FFFF, 0, 0, 0, 0] = true →
      s.dev.bark.conns.wf (fun _ => none) = true →
      bit d.p8 48 = false →
      bit d.p8 40 = false →
      bit d.p8 16 = true →
      Completes (.connFlush d) s (fun t =>
        (∀ i, t.dev.conn i = (s.dev.conn i).filter (fun c => !decide (c.ruleId = fld d.p8 15 0))) ∧ t.dev.tableGen = s.dev.tableGen
          ∧ s.completesOn d [.bark] (fun a => a = barkReg 0x14 || (List.range 64).any (fun x => (List.range 64).any (fun y => a =
          zpUsed x y))) t ∧ s.dev.basjo.answers d stOk (s.dev.bark.conns.countP (fun e => e.2.any (fun c => decide (c.ruleId = fld
          d.p8 15 0)))) 0 t.dev.basjo))
    ∧ (∀ (s : State) (d : CmdDesc),
      s.starts d 0x30 2 1 [0x0001013F3F01FFFF, 0, 0, 0, 0] = true →
      (bit d.p8 48).toNat + (bit d.p8 40).toNat + (bit d.p8 16).toNat ≠ 1 →
      Completes (.connFlush d) s (fun t =>
        s.completes d [] [] t ∧ s.dev.basjo.answers d stBadParam 0 0 t.dev.basjo))
    ∧ (∀ (s : State) (d : CmdDesc),
      s.starts d 0x30 2 2 [all64, 0x3FFFFFF, 0, 0, 0] = true →
      fld d.p8 2 0 = 0 →
      fld d.p16 25 0 ≠ 0 →
      fld d.p16 25 0 ≤ 33554432 →
      Completes (.connDump d false) s (fun t =>
        s.dev.basjo.wrote d d.p8.toNat ((((s.dev.connSlots.filterMap s.dev.conn).filter (fun c => !s.dev.connExpired c)).take (fld
          d.p16 25 0)).flatMap Conn.octets) t.dev.basjo ∧ s.dev.basjo.answers d stOk (((s.dev.connSlots.filterMap s.dev.conn).filter
          (fun c => !s.dev.connExpired c)).take (fld d.p16 25 0)).length 0 t.dev.basjo ∧ s.keeps [.basjo, .clocks] t))
    ∧ (∀ (s : State),
      s.dev.runs = true →
      s.dev.bark.anomaly.wf (fun _ => ⟨0, 0, 0, false, false⟩) = true →
      Completes (.anomalyWindowStart) s (fun t =>
        (∀ m, (t.dev.anomaly m).deny = (s.dev.anomaly m).deny ∧ (t.dev.anomaly m).inserts = (s.dev.anomaly m).inserts) ∧
          (t.dev.bark.anomaly.all (fun e => e.2.window = s.dev.anomWindow)) = true ∧ t.dev.bark =
          { s.dev.bark with anomaly := t.dev.bark.anomaly } ∧ s.keeps [.bark] t))

/-- CAN channels: enabling, reception, transmission, errors and bus-off. Rests on R317, R318, R319, R320, R321, R322, R323, R324,
R332, R333. -/
def Obligations.CanChannelsRun : Prop :=
    (∀ (s : State) (a : Acc) (n : Fin 24),
      s.opens a (canReg n.val 0) = true →
      s.dev.rb (canReg n.val 0) 31 = false →
      s.dev.canTimingOk n.val = true →
      Completes (.canEnable a n true) s (fun t =>
        t.dev.rb (canReg n.val 0) 31 = true ∧ t.dev.rf (canReg n.val 4) 1 0 = 0 ∧ t.dev.canErrs n.val = ⟨0, 0, false⟩ ∧ t.dev.reg
          (canReg n.val 8) = 0 ∧ (s.dev.tap.modeCmd = none → s.writes (canReg n.val 0) [.roots] [canReg n.val 0, canReg n.val 4,
          canReg n.val 8] t ∧ t.dev.roots = { s.dev.roots with errs := t.dev.roots.errs })))
    ∧ (∀ (s : State) (a : Acc) (n : Fin 24),
      s.opens a (canReg n.val 0) = true →
      s.dev.rb (canReg n.val 0) 31 = false →
      s.dev.canTimingOk n.val = false →
      Completes (.canEnable a n true) s (fun t =>
        t.dev.reg (canReg n.val 4) = setBit (s.dev.reg (canReg n.val 4)) 3 true ∧ (s.dev.tap.modeCmd = none → s.writes (canReg n.val
          0) [] [canReg n.val 4] t)))
    ∧ (∀ (s : State) (a : Acc) (n : Fin 24),
      s.opens a (canReg n.val 0) = true →
      s.dev.rb (canReg n.val 0) 31 = true →
      s.dev.canEnding n.val = none →
      Completes (.canEnable a n false) s (fun t =>
        t.dev.rb (canReg n.val 0) 31 = false ∧ t.dev.canQueue n.val = [] ∧ t.dev.reg (canReg n.val 0x114) = satAdd (s.dev.reg
          (canReg n.val 0x114)) (s.dev.canQueue n.val).length ∧ (s.dev.tap.modeCmd = none → s.writes (canReg n.val 0) [.roots]
          [canReg n.val 0, canReg n.val 0x28, canReg n.val 0x114] t ∧ t.dev.roots = { s.dev.roots with canq := t.dev.roots.canq } ∧
          (∀ k < 24, k ≠ n.val → t.dev.canQueue k = s.dev.canQueue k))))
    ∧ (∀ (s : State) (n : Fin 24) (f : CanFrame) (since : BitVec 32),
      s.dev.runs = true →
      s.dev.canOn n.val = true →
      s.dev.canFmtOn n.val f.fmt = true →
      s.dev.safe = false →
      (∀ k : Fin 64, (s.dev.rb (srcReg k.val 0) 31 && s.dev.srcIs 2 n.val k.val) = false) →
      s.dev.rb (barkReg (0x1400 + 4 * n.val)) 31 = false →
      s.dev.diagPairs = [] →
      s.dev.lookupRoute ⟨n.val, 0, s.dev.canZone n.val, s.dev.now - since.toNat, false, f⟩ = none →
      Completes (.canFrameRx n f since) s (fun t =>
        t.dev.reg (canReg n.val 0x100) = satAdd (s.dev.reg (canReg n.val 0x100)) 1 ∧ t.dev.reg (rootsReg 0x10) = satAdd (s.dev.reg
          (rootsReg 0x10)) 1 ∧ t.dev.canErrs n.val = ((s.dev.canErrs n.val).received n.val s.dev.now) ∧ s.changes [.roots, .tap]
          [canReg n.val 4, canReg n.val 8, canReg n.val 0x100, rootsReg 0x10] t ∧ t.dev.tap =
          { s.dev.tap with validating := t.dev.tap.validating } ∧ t.dev.roots = { s.dev.roots with errs := t.dev.roots.errs }))
    ∧ (∀ (s : State) (n m : Fin 24) (f : CanFrame) (since : BitVec 32) (r : DWord × DWord × DWord),
      s.dev.runs = true →
      s.dev.canOn n.val = true →
      s.dev.canFmtOn n.val f.fmt = true →
      s.dev.safe = false →
      (∀ k : Fin 64, (s.dev.rb (srcReg k.val 0) 31 && s.dev.srcIs 2 n.val k.val) = false) →
      s.dev.rb (barkReg (0x1400 + 4 * n.val)) 31 = false →
      s.dev.diagPairs = [] →
      s.dev.lookupRoute ⟨n.val, 0, s.dev.canZone n.val, s.dev.now - since.toNat, false, f⟩ = some r →
      bit r.2.2 63 = false →
      bit r.2.2 47 = false →
      bit r.2.1 23 = false →
      bitsOf 24 (fld r.2.1 63 40) = [m.val] →
      fld r.2.1 39 24 = 0 →
      m ≠ n →
      s.dev.allow (s.dev.canZone n.val) (s.dev.canZone m.val) = true →
      s.dev.canOn m.val = true →
      s.dev.canFmtOn m.val f.fmt = true →
      canLengthOk f.fmt f.data.length = true →
      s.dev.rf (canReg m.val 0x24) 15 0 = 0 →
      (s.dev.canQueue m.val).length < 64 →
      Completes (.canFrameRx n f since) s (fun t =>
        t.dev.canQueue m.val = s.dev.canQueue m.val ++ [⟨f, s.dev.now⟩] ∧ t.dev.reg (canReg n.val 0x100) = satAdd (s.dev.reg (canReg
          n.val 0x100)) 1 ∧ s.changes [.roots, .tap] [canReg n.val 4, canReg n.val 8, canReg n.val 0x100, canReg m.val 0x28] t ∧
          t.dev.tap = { s.dev.tap with validating := t.dev.tap.validating } ∧ t.dev.roots =
          { s.dev.roots with errs := t.dev.roots.errs, canq := t.dev.roots.canq } ∧ (∀ k < 24, k ≠ m.val → t.dev.canQueue k =
          s.dev.canQueue k)))
    ∧ (∀ (s : State) (n : Fin 24) (f : CanFrame) (since : BitVec 32),
      s.dev.runs = true →
      s.dev.canOn n.val = false →
      Completes (.canFrameRx n f since) s (fun t =>
        t = s))
    ∧ (∀ (s : State) (n : Fin 24) (loopDelay : BitVec 7) (i : Nat) (f : CanFrame),
      s.dev.runs = true →
      s.dev.canOn n.val = true →
      s.dev.canEnding n.val = none →
      s.dev.rb (canReg n.val 0) 28 = false →
      s.dev.redListen n.val = false →
      s.dev.rf (canReg n.val 0x24) 15 0 = 0 →
      canBest (s.dev.canQueue n.val) = some (i, f) →
      Completes (.canFrameTxDone n loopDelay) s (fun t =>
        t.dev.out = .can n.val f (s.dev.canSample n.val f loopDelay.toNat) (s.dev.canPulse n.val f) :: s.dev.out ∧ t.dev.canQueue
          n.val = (s.dev.canQueue n.val).eraseIdx i ∧ t.dev.reg (canReg n.val 0x104) = satAdd (s.dev.reg (canReg n.val 0x104)) 1 ∧
          (t.dev.canErrs n.val).tx = (s.dev.canErrs n.val).tx - 1 ∧ t.dev.rf (canReg n.val 0x1C) 6 0 = (if (s.dev.canSample n.val f
          loopDelay.toNat).isSome then loopDelay.toNat else s.dev.rf (canReg n.val 0x1C) 6 0) ∧ (s.dev.tap.modeCmd = none →
          s.changes [.roots, .out] [canReg n.val 4, canReg n.val 8, canReg n.val 0x1C, canReg n.val 0x28, canReg n.val 0x104] t ∧
          t.dev.roots = { s.dev.roots with errs := t.dev.roots.errs, canq := t.dev.roots.canq } ∧ (∀ k < 24, k ≠ n.val →
          t.dev.canQueue k = s.dev.canQueue k))))
    ∧ (∀ (s : State) (n : Fin 24) (loopDelay : BitVec 7),
      s.dev.runs = true →
      s.dev.canOn n.val = false ∨ s.dev.canEnding n.val = none ∧ (s.dev.rb (canReg n.val 0) 28 = true ∨ s.dev.redListen n.val =
        true) →
      s.dev.tap.modeCmd = none →
      Completes (.canFrameTxDone n loopDelay) s (fun t =>
        t = s))
    ∧ (∀ (s : State) (n : Fin 24) (loopDelay : BitVec 7) (w : CanWait),
      s.dev.runs = true →
      s.dev.canOn n.val = true →
      s.dev.canEnding n.val = some w →
      Completes (.canFrameTxDone n loopDelay) s (fun t =>
        t.dev.out.tail = .can n.val w.frame (s.dev.canSample n.val w.frame loopDelay.toNat) (s.dev.canPulse n.val w.frame) ::
          s.dev.out ∨ t.dev.out = .can n.val w.frame (s.dev.canSample n.val w.frame loopDelay.toNat) (s.dev.canPulse n.val w.frame)
          :: s.dev.out ∧ (s.dev.tap.modeCmd = none → t.dev.canEnding n.val = none ∧ t.dev.canQueue n.val = (s.dev.canQueue
          n.val).eraseIdx ((s.dev.canQueue n.val).idxOf w) ∧ (s.dev.safe = true → t.dev.rb (canReg n.val 0) 28 = true ∧ t.dev.rb
          (canReg n.val 0) 25 = false) ∧ s.changes [.roots, .out] [canReg n.val 0, canReg n.val 4, canReg n.val 8, canReg n.val
          0x1C, canReg n.val 0x104, canReg n.val 0x28] t ∧ (∀ k < 24, k ≠ n.val → t.dev.canQueue k = s.dev.canQueue k))))
    ∧ (∀ (s : State) (n : Fin 24) (err : CanError),
      s.dev.runs = true →
      s.dev.canOn n.val = true →
      err.txCount.toNat ≤ 255 →
      err.inRx = true ∨ err.edge = none ∧ s.dev.canEnding n.val = none →
      Completes (.canBusError n err) s (fun t =>
        t.dev.canErrs n.val = ⟨err.txCount.toNat, err.rxCount.toNat, false⟩ ∧ t.dev.rf (canReg n.val 4) 1 0 = (if 127 <
          err.txCount.toNat ∨ 127 < err.rxCount.toNat then 1 else 0) ∧ t.dev.reg (canReg n.val 0x108) = (if err.inRx then satAdd
          (s.dev.reg (canReg n.val 0x108)) 1 else s.dev.reg (canReg n.val 0x108)) ∧ (s.dev.tap.modeCmd = none → s.changes [.roots]
          [canReg n.val 4, canReg n.val 8, canReg n.val 0x108] t ∧ t.dev.roots = { s.dev.roots with errs := t.dev.roots.errs })))
    ∧ (∀ (s : State) (n : Fin 24) (err : CanError),
      s.dev.runs = true →
      s.dev.canOn n.val = true →
      err.inRx = false →
      err.edge = none →
      s.dev.canEnding n.val = none →
      255 < err.txCount.toNat →
      Completes (.canBusError n err) s (fun t =>
        t.dev.rf (canReg n.val 4) 1 0 = 2 ∧ t.dev.canQueue n.val = [] ∧ t.dev.reg (canReg n.val 0x11C) = satAdd (s.dev.reg (canReg
          n.val 0x11C)) 1 ∧ t.dev.reg (canReg n.val 0x114) = satAdd (s.dev.reg (canReg n.val 0x114)) (s.dev.canQueue n.val).length ∧
          (t.dev.canErrs n.val).recovering = s.dev.rb (canReg n.val 0) 27 ∧ (s.dev.tap.modeCmd = none → s.changes [.roots] [canReg
          n.val 4, canReg n.val 8, canReg n.val 0x28, canReg n.val 0x114, canReg n.val 0x11C] t ∧ t.dev.roots =
          { s.dev.roots with errs := t.dev.roots.errs, canq := t.dev.roots.canq })))
    ∧ (∀ (s : State) (n : Fin 24) (err : CanError) (k : BitVec 7) (i : Nat) (f : CanFrame),
      s.dev.runs = true →
      s.dev.canOn n.val = true →
      err.inRx = false →
      err.edge = some k →
      s.dev.canEnding n.val = none →
      canBest (s.dev.canQueue n.val) = some (i, f) →
      (s.dev.canSample n.val f k.toNat).isSome = true →
      err.txCount.toNat ≤ 255 →
      Completes (.canBusError n err) s (fun t =>
        t.dev.rf (canReg n.val 0x1C) 6 0 = k.toNat ∧ t.dev.canErrs n.val = ⟨err.txCount.toNat, err.rxCount.toNat, false⟩ ∧
          (s.dev.tap.modeCmd = none → s.changes [.roots] [canReg n.val 4, canReg n.val 8, canReg n.val 0x1C] t ∧ t.dev.roots =
          { s.dev.roots with errs := t.dev.roots.errs })))
    ∧ (∀ (s : State) (a : Acc) (n : Fin 24),
      s.opens a (canReg n.val 0) = true →
      s.clocked (canReg n.val 0) = true →
      s.dev.rf (canReg n.val 4) 1 0 = 2 →
      Completes (.boRecover a n) s (fun t =>
        (t.dev.canErrs n.val).recovering = true ∧ (t.dev.canErrs n.val).tx = (s.dev.canErrs n.val).tx ∧ s.changes [.roots] [] t ∧
          t.dev.roots = { s.dev.roots with errs := t.dev.roots.errs }))
    ∧ (∀ (s : State) (a : Acc) (n : Fin 24),
      s.opens a (canReg n.val 0) = true →
      s.clocked (canReg n.val 0) = true →
      s.dev.rf (canReg n.val 4) 1 0 ≠ 2 →
      Completes (.boRecover a n) s (fun t =>
        s.changes [] [] t))
    ∧ (∀ (s : State) (n : Fin 24),
      s.dev.runs = true →
      s.dev.rf (canReg n.val 4) 1 0 = 2 →
      (s.dev.canErrs n.val).recovering = true →
      s.dev.rb (canReg n.val 0) 31 = true →
      Completes (.busOffRecovered n) s (fun t =>
        t.dev.rf (canReg n.val 4) 1 0 = 0 ∧ t.dev.canErrs n.val = ⟨0, 0, false⟩ ∧ s.changes [.roots] [canReg n.val 4, canReg n.val
          8] t ∧ t.dev.roots = { s.dev.roots with errs := t.dev.roots.errs }))
    ∧ (∀ (s : State) (n : Fin 24),
      s.dev.runs = true →
      s.dev.rf (canReg n.val 4) 1 0 ≠ 2 ∨ (s.dev.canErrs n.val).recovering = false →
      Completes (.busOffRecovered n) s (fun t =>
        t = s))

/-- LIN channels: enabling, schedules, headers, responses and errors. Rests on R325, R326, R327, R328, R350. -/
def Obligations.LinChannelsRun : Prop :=
    (∀ (s : State) (a : Acc) (l : Fin 16),
      s.opens a (linReg l.val 0) = true →
      s.dev.rb (linReg l.val 0) 31 = false →
      1000 ≤ s.dev.rf (linReg l.val 0) 15 0 →
      s.dev.rf (linReg l.val 0) 15 0 ≤ 20000 →
      s.dev.rb (linReg l.val 0) 30 = false ∨ ((∀ k < s.dev.schedLen l.val 0, schedOk (s.dev.reg (schedReg l.val 0 k)) = true) ∧ (∀ k
        < s.dev.schedLen l.val 1, schedOk (s.dev.reg (schedReg l.val 1 k)) = true)) →
      Completes (.linEnable a l true) s (fun t =>
        t.dev.reg (linReg l.val 0) = setBit (s.dev.reg (linReg l.val 0)) 31 true ∧ s.writes (linReg l.val 0) [] [linReg l.val 0] t))
    ∧ (∀ (s : State) (a : Acc) (l : Fin 16),
      s.opens a (linReg l.val 0) = true →
      s.dev.rb (linReg l.val 0) 31 = false →
      (s.dev.rf (linReg l.val 0) 15 0 < 1000 ∨ 20000 < s.dev.rf (linReg l.val 0) 15 0) →
      Completes (.linEnable a l true) s (fun t =>
        t.dev.reg (linReg l.val 4) = setBit (s.dev.reg (linReg l.val 4)) 16 true ∧ s.writes (linReg l.val 0) [] [linReg l.val 4] t))
    ∧ (∀ (s : State) (a : Acc) (l : Fin 16),
      s.opens a (linReg l.val 0) = true →
      s.dev.rb (linReg l.val 0) 31 = true →
      Completes (.linEnable a l false) s (fun t =>
        t.dev.reg (linReg l.val 0) = setBit (s.dev.reg (linReg l.val 0)) 31 false ∧ t.dev.linRun l.val = LinRun.idle ∧ s.writes
          (linReg l.val 0) [.roots] [linReg l.val 0] t ∧ (∀ k < 16, k ≠ l.val → t.dev.linRun k = s.dev.linRun k) ∧ t.dev.roots =
          { s.dev.roots with lin := t.dev.roots.lin }))
    ∧ (∀ (s : State) (a : Acc) (l : Fin 16) (run : Bool),
      s.opens a (linReg l.val 8) = true →
      s.dev.rb (linReg l.val 8) 31 = !run →
      Completes (.linSchedRun a l run) s (fun t =>
        t.dev.reg (linReg l.val 8) = setBit (s.dev.reg (linReg l.val 8)) 31 run ∧ t.dev.linRun l.val =
          { LinRun.idle with waiting := (s.dev.linRun l.val).waiting } ∧ s.writes (linReg l.val 8) [.roots] [linReg l.val 8] t ∧ (∀
          k < 16, k ≠ l.val → t.dev.linRun k = s.dev.linRun k) ∧ t.dev.roots = { s.dev.roots with lin := t.dev.roots.lin }))
    ∧ (∀ (s : State) (l : Fin 16),
      s.dev.runs = true →
      s.dev.linCommands l.val = true →
      s.dev.rb (linReg l.val 8) 31 = true →
      s.dev.safe = false →
      s.dev.linRun l.val = LinRun.idle →
      0 < s.dev.schedLen l.val (s.dev.rf (linReg l.val 4) 0 0) →
      fld (s.dev.reg (schedReg l.val (s.dev.rf (linReg l.val 4) 0 0) 0)) 31 30 = 0 →
      s.dev.rb (fbufReg l.val (fld (s.dev.reg (schedReg l.val (s.dev.rf (linReg l.val 4) 0 0) 0)) 21 16) 8) 31 = true →
      Completes (.linSlotStart l) s (fun t =>
        t.dev.out = .lin l.val (fld (s.dev.reg (schedReg l.val (s.dev.rf (linReg l.val 4) 0 0) 0)) 21 16) (some (s.dev.fbuf l.val
          (fld (s.dev.reg (schedReg l.val (s.dev.rf (linReg l.val 4) 0 0) 0)) 21 16) (fld (s.dev.reg (schedReg l.val (s.dev.rf
          (linReg l.val 4) 0 0) 0)) 29 26), linChecksum (bit (s.dev.reg (schedReg l.val (s.dev.rf (linReg l.val 4) 0 0) 0)) 23) (fld
          (s.dev.reg (schedReg l.val (s.dev.rf (linReg l.val 4) 0 0) 0)) 21 16) (s.dev.fbuf l.val (fld (s.dev.reg (schedReg l.val
          (s.dev.rf (linReg l.val 4) 0 0) 0)) 21 16) (fld (s.dev.reg (schedReg l.val (s.dev.rf (linReg l.val 4) 0 0) 0)) 29 26))))
          :: s.dev.out ∧ t.dev.linRun l.val = ⟨1, false, some (s.dev.now, fld (s.dev.reg (schedReg l.val (s.dev.rf (linReg l.val 4)
          0 0) 0)) 15 0 * 100 * usRaw), []⟩ ∧ t.dev.reg (linReg l.val 0x304) = satAdd (s.dev.reg (linReg l.val 0x304)) 1 ∧ s.changes
          [.roots, .out] [linReg l.val 4, linReg l.val 0x304] t ∧ (∀ k < 16, k ≠ l.val → t.dev.linRun k = s.dev.linRun k) ∧
          t.dev.roots = { s.dev.roots with lin := t.dev.roots.lin }))
    ∧ (∀ (s : State) (l : Fin 16),
      s.dev.runs = true →
      s.dev.linCommands l.val = true →
      s.dev.rb (linReg l.val 8) 31 = true →
      s.dev.safe = false →
      s.dev.linRun l.val = LinRun.idle →
      0 < s.dev.schedLen l.val (s.dev.rf (linReg l.val 4) 0 0) →
      fld (s.dev.reg (schedReg l.val (s.dev.rf (linReg l.val 4) 0 0) 0)) 31 30 = 0 →
      s.dev.rb (fbufReg l.val (fld (s.dev.reg (schedReg l.val (s.dev.rf (linReg l.val 4) 0 0) 0)) 21 16) 8) 31 = false →
      Completes (.linSlotStart l) s (fun t =>
        t.dev.linRun l.val = ⟨1, false, some (s.dev.now, fld (s.dev.reg (schedReg l.val (s.dev.rf (linReg l.val 4) 0 0) 0)) 15 0 *
          100 * usRaw), []⟩ ∧ t.dev.reg (linReg l.val 0x308) = satAdd (s.dev.reg (linReg l.val 0x308)) 1 ∧ s.changes [.roots]
          [linReg l.val 4, linReg l.val 0x308] t ∧ (∀ k < 16, k ≠ l.val → t.dev.linRun k = s.dev.linRun k) ∧ t.dev.roots =
          { s.dev.roots with lin := t.dev.roots.lin }))
    ∧ (∀ (s : State) (l : Fin 16),
      s.dev.runs = true →
      s.dev.linCommands l.val = true →
      s.dev.rb (linReg l.val 8) 31 = true →
      s.dev.safe = false →
      s.dev.linRun l.val = LinRun.idle →
      0 < s.dev.schedLen l.val (s.dev.rf (linReg l.val 4) 0 0) →
      fld (s.dev.reg (schedReg l.val (s.dev.rf (linReg l.val 4) 0 0) 0)) 31 30 ≠ 0 →
      Completes (.linSlotStart l) s (fun t =>
        t.dev.out = .lin l.val (fld (s.dev.reg (schedReg l.val (s.dev.rf (linReg l.val 4) 0 0) 0)) 21 16) none :: s.dev.out ∧
          t.dev.linRun l.val = ⟨1, false, some (s.dev.now, fld (s.dev.reg (schedReg l.val (s.dev.rf (linReg l.val 4) 0 0) 0)) 15 0 *
          100 * usRaw), [⟨(fld (s.dev.reg (schedReg l.val (s.dev.rf (linReg l.val 4) 0 0) 0)) 21 16), s.dev.now +
          s.dev.linResponseTime l.val (fld (s.dev.reg (schedReg l.val (s.dev.rf (linReg l.val 4) 0 0) 0)) 29 26), bit (s.dev.reg
          (schedReg l.val (s.dev.rf (linReg l.val 4) 0 0) 0)) 23⟩]⟩ ∧ s.changes [.roots, .out] [linReg l.val 4] t ∧ (∀ k < 16, k ≠
          l.val → t.dev.linRun k = s.dev.linRun k) ∧ t.dev.roots = { s.dev.roots with lin := t.dev.roots.lin }))
    ∧ (∀ (s : State) (l : Fin 16),
      s.dev.runs = true →
      s.dev.linCommands l.val = false ∨ s.dev.rb (linReg l.val 8) 31 = false ∨ s.dev.safe = true →
      Completes (.linSlotStart l) s (fun t =>
        t = s))
    ∧ (∀ (s : State) (a : Acc) (l : Fin 16),
      s.opens a (linReg l.val 8) = true →
      s.clocked (linReg l.val 8) = true →
      Completes (.linSchedSwitch a l) s (fun t =>
        t.dev.linRun l.val = { s.dev.linRun l.val with switching := true } ∧ s.changes [.roots] [] t ∧ (∀ k < 16, k ≠ l.val →
          t.dev.linRun k = s.dev.linRun k) ∧ t.dev.roots = { s.dev.roots with lin := t.dev.roots.lin }))
    ∧ (∀ (s : State) (l : Fin 16) (id : BitVec 6),
      s.dev.runs = true →
      s.dev.linOn l.val = true →
      s.dev.linCommands l.val = false →
      s.dev.rb (fbufReg l.val id.toNat 8) 31 = true →
      s.dev.rb (fbufReg l.val id.toNat 8) 30 = true →
      s.dev.safe = false →
      Completes (.linHeaderRx l id none) s (fun t =>
        t.dev.out = .lin l.val id.toNat (some (s.dev.fbuf l.val id.toNat (s.dev.rf (fbufReg l.val id.toNat 8) 19 16), linChecksum
          (s.dev.rb (fbufReg l.val id.toNat 8) 29) id.toNat (s.dev.fbuf l.val id.toNat (s.dev.rf (fbufReg l.val id.toNat 8) 19
          16)))) :: s.dev.out ∧ t.dev.reg (linReg l.val 0x304) = satAdd (s.dev.reg (linReg l.val 0x304)) 1 ∧ s.changes [.out]
          [linReg l.val 0x304] t))
    ∧ (∀ (s : State) (l : Fin 16) (id : BitVec 6),
      s.dev.runs = true →
      s.dev.linOn l.val = true →
      s.dev.linCommands l.val = true ∨ s.dev.rb (fbufReg l.val id.toNat 8) 31 = false ∨ s.dev.rb (fbufReg l.val id.toNat 8) 30 =
        false ∨ s.dev.safe = true →
      Completes (.linHeaderRx l id none) s (fun t =>
        t = s))
    ∧ (∀ (s : State) (l : Fin 16) (id : BitVec 6) (e : LinErr),
      s.dev.runs = true →
      s.dev.linOn l.val = true →
      Completes (.linHeaderRx l id (some e)) s (fun t =>
        t.dev.reg (linReg l.val 0x314) = satAdd (s.dev.reg (linReg l.val 0x314)) 1 ∧ s.changes [] [linReg l.val 0x314] t))
    ∧ (∀ (s : State) (l : Fin 16) (id : BitVec 6) (data : List (BitVec 8)) (cksum : BitVec 8) (since : BitVec 32),
      s.dev.runs = true →
      s.dev.linOn l.val = true →
      s.dev.safe = false →
      data.length ≤ 8 →
      (s.dev.linRun l.val).waiting = [] →
      cksum.toNat = linChecksum (s.dev.rb (fbufReg l.val id.toNat 8) 29) id.toNat data →
      (∀ k : Fin 64, (s.dev.rb (srcReg k.val 0) 31 && s.dev.srcIs 3 l.val k.val) = false) →
      s.dev.lookupRoute ⟨32 + l.val, 0, s.dev.linZone l.val, s.dev.now - since.toNat, true, linFrame id.toNat (data.take 8)⟩ = none
        →
      Completes (.linResponseRx l id data cksum none since) s (fun t =>
        t.dev.fbuf l.val id.toNat data.length = data ∧ t.dev.rf (fbufReg l.val id.toNat 8) 19 16 = data.length ∧ t.dev.rb (fbufReg
          l.val id.toNat 8) 0 = true ∧ t.dev.reg (linReg l.val 0x300) = satAdd (s.dev.reg (linReg l.val 0x300)) 1 ∧ t.dev.reg
          (rootsReg 0x10) = satAdd (s.dev.reg (rootsReg 0x10)) 1 ∧ s.changes [.tap] [linReg l.val 0x300, rootsReg 0x10, fbufReg
          l.val id.toNat 0, fbufReg l.val id.toNat 4, fbufReg l.val id.toNat 8] t ∧ t.dev.tap =
          { s.dev.tap with validating := t.dev.tap.validating }))
    ∧ (∀ (s : State) (l : Fin 16) (id : BitVec 6) (data : List (BitVec 8)) (cksum : BitVec 8) (since : BitVec 32),
      s.dev.runs = true →
      s.dev.linOn l.val = true →
      (s.dev.linRun l.val).waiting = [] →
      cksum.toNat ≠ linChecksum (s.dev.rb (fbufReg l.val id.toNat 8) 29) id.toNat (data.take 8) →
      Completes (.linResponseRx l id data cksum none since) s (fun t =>
        t.dev.reg (linReg l.val 0x310) = satAdd (s.dev.reg (linReg l.val 0x310)) 1 ∧ s.changes [] [linReg l.val 0x310] t))
    ∧ (∀ (s : State) (l : Fin 16) (w : LinWait) (r : List LinWait),
      s.dev.runs = true →
      (s.dev.linRun l.val).waiting = w :: r →
      w.till ≤ s.dev.now →
      Completes (.linResponseTimeout l) s (fun t =>
        t.dev.linRun l.val = { s.dev.linRun l.val with waiting := r } ∧ t.dev.reg (linReg l.val 0x30C) = satAdd (s.dev.reg (linReg
          l.val 0x30C)) 1 ∧ s.changes [.roots] [linReg l.val 0x30C] t ∧ (∀ k < 16, k ≠ l.val → t.dev.linRun k = s.dev.linRun k) ∧
          t.dev.roots = { s.dev.roots with lin := t.dev.roots.lin }))
    ∧ (∀ (s : State) (l : Fin 16),
      s.dev.runs = true →
      (s.dev.linRun l.val).waiting = [] →
      Completes (.linResponseTimeout l) s (fun t =>
        t = s))

/-- The routing table, the authentication entries, batches and the decapsulator. Rests on R332, R333, R334, R335, R338, R340, R341,
R342, R347. -/
def Obligations.GatewayTablesFollowCommands : Prop :=
    (∀ (s : State) (d : CmdDesc) (i : Nat),
      s.starts d 0x31 64 1 [0xFFFF80001FFFFFFF, 0xFFFFFFFFFFFFC000, 0x87FF87FF00000000, 0, 0] = true →
      bit d.p8 63 = true →
      s.dev.srcListed (fld d.p8 62 57) = true →
      (fld d.p8 62 57 = 24 ∨ fld d.p8 56 52 = 0) →
      fld d.p8 28 0 &&& s.dev.rf (rootsReg (0x1000 + 0x40 * fld d.p8 62 57 + 4 * fld d.p8 51 48)) 28 0 = fld d.p8 28 0 →
      (s.dev.findRoute d.p8 = some i ∨ (s.dev.findRoute d.p8 = none ∧ ((List.range 8).map (8 * s.dev.routeBucket d.p8 + ·)).find?
        (fun j => (s.dev.route j).isNone) = some i)) →
      Completes (.routeAdd d) s (fun t =>
        t.dev.route i = some (d.p8, s.dev.presentDests d.p16, d.p24) ∧ s.completes d [.roots] [rootsReg 4] t ∧ s.dev.basjo.answers d
          stOk 0 0 t.dev.basjo ∧ (∀ k, k ≠ i → t.dev.route k = s.dev.route k) ∧ t.dev.roots =
          { s.dev.roots with routes := t.dev.roots.routes }))
    ∧ (∀ (s : State) (d : CmdDesc),
      s.starts d 0x31 64 1 [0xFFFF80001FFFFFFF, 0xFFFFFFFFFFFFC000, 0x87FF87FF00000000, 0, 0] = true →
      bit d.p8 63 = true →
      s.dev.srcListed (fld d.p8 62 57) = true →
      (fld d.p8 62 57 = 24 ∨ fld d.p8 56 52 = 0) →
      fld d.p8 28 0 &&& s.dev.rf (rootsReg (0x1000 + 0x40 * fld d.p8 62 57 + 4 * fld d.p8 51 48)) 28 0 = fld d.p8 28 0 →
      s.dev.findRoute d.p8 = none →
      ((List.range 8).map (8 * s.dev.routeBucket d.p8 + ·)).find? (fun j => (s.dev.route j).isNone) = none →
      Completes (.routeAdd d) s (fun t =>
        s.completes d [] [] t ∧ s.dev.basjo.answers d stFull 0 0 t.dev.basjo))
    ∧ (∀ (s : State) (d : CmdDesc),
      s.starts d 0x31 64 1 [0xFFFF80001FFFFFFF, 0xFFFFFFFFFFFFC000, 0x87FF87FF00000000, 0, 0] = true →
      bit d.p8 63 = false ∨ s.dev.srcListed (fld d.p8 62 57) = false ∨ (fld d.p8 62 57 ≠ 24 ∧ fld d.p8 56 52 ≠ 0) →
      Completes (.routeAdd d) s (fun t =>
        s.completes d [] [] t ∧ s.dev.basjo.answers d stBadParam 0 0 t.dev.basjo))
    ∧ (∀ (s : State) (d : CmdDesc) (i : Nat),
      s.starts d 0x31 64 2 [0xFFFF80001FFFFFFF, 0, 0, 0, 0] = true →
      s.dev.findRoute d.p8 = some i →
      Completes (.routeDel d) s (fun t =>
        t.dev.route i = none ∧ s.completes d [.roots] [rootsReg 4] t ∧ s.dev.basjo.answers d stOk 0 0 t.dev.basjo ∧ (∀ k, k ≠ i →
          t.dev.route k = s.dev.route k) ∧ t.dev.roots = { s.dev.roots with routes := t.dev.roots.routes }))
    ∧ (∀ (s : State) (d : CmdDesc),
      s.starts d 0x31 64 2 [0xFFFF80001FFFFFFF, 0, 0, 0, 0] = true →
      s.dev.findRoute d.p8 = none →
      Completes (.routeDel d) s (fun t =>
        s.completes d [] [] t ∧ s.dev.basjo.answers d stNotFound 0 0 t.dev.basjo))
    ∧ (∀ (s : State) (d : CmdDesc) (r : DWord × DWord × DWord),
      s.starts d 0x31 64 3 [0xFFFF80001FFFFFFF, 0, 0, 0, 0] = true →
      (s.dev.findRoute d.p8).bind s.dev.route = some r →
      Completes (.routeRead d) s (fun t =>
        s.completes d [] [] t ∧ s.dev.basjo.answers d stOk (fld r.2.2 63 32) r.2.1.toNat t.dev.basjo))
    ∧ (∀ (s : State) (d : CmdDesc),
      s.starts d 0x31 64 3 [0xFFFF80001FFFFFFF, 0, 0, 0, 0] = true →
      s.dev.findRoute d.p8 = none →
      Completes (.routeRead d) s (fun t =>
        s.completes d [] [] t ∧ s.dev.basjo.answers d stNotFound 0 0 t.dev.basjo))
    ∧ (∀ (s : State) (d : CmdDesc),
      s.starts d 0x31 64 4 [0x7F, 0, 0, 0, 0] = true →
      s.dev.roots.routes.wf (fun _ => none) = true →
      Completes (.routeFlush d) s (fun t =>
        (∀ k, t.dev.route k = (s.dev.route k).filter (fun r => bit d.p8 6 && decide (fld r.1 62 57 ≠ fld d.p8 5 0))) ∧ s.completes d
          [.roots] [rootsReg 4] t ∧ t.dev.roots = { s.dev.roots with routes := t.dev.roots.routes } ∧ s.dev.basjo.answers d stOk
          (s.dev.roots.routes.countP (fun e => e.2.any (fun r => !bit d.p8 6 || decide (fld r.1 62 57 = fld d.p8 5 0)))) 0
          t.dev.basjo))
    ∧ (∀ (s : State) (d : CmdDesc) (e : AuthEntry),
      s.starts d 0x31 66 1 [0x7FF, 0xFFFFFFFFFC000000, all64, 0xFFFFFFFF00000000, 0] = true →
      e = ⟨bit d.p16 62, fld d.p16 61 52, fld d.p16 51 41, fld d.p16 40 37 + 1, fld d.p16 36 33, fld d.p16 32 26, d.p24.toNat, fld
        d.p32 63 32, 0, false⟩ →
      e.slot ≤ 575 →
      e.authLen ≤ 2043 →
      e.fvTx ≤ 8 →
      8 ≤ e.fvWidth →
      e.fvWidth ≤ 64 →
      e.fv ≤ 2 ^ e.fvWidth - 1 →
      (s.dev.auth (fld d.p8 10 0)).all (fun x => !(decide (x.slot = e.slot) && decide (e.fv < x.fv))) = true →
      Completes (.authSet d) s (fun t =>
        t.dev.auth (fld d.p8 10 0) = (if bit d.p16 63 then some e else none) ∧ s.completes d [.roots] [] t ∧ s.dev.basjo.answers d
          stOk 0 0 t.dev.basjo ∧ (∀ k, k ≠ fld d.p8 10 0 → t.dev.auth k = s.dev.auth k) ∧ t.dev.roots =
          { s.dev.roots with auth := t.dev.roots.auth }))
    ∧ (∀ (s : State) (d : CmdDesc) (e x : AuthEntry),
      s.starts d 0x31 66 1 [0x7FF, 0xFFFFFFFFFC000000, all64, 0xFFFFFFFF00000000, 0] = true →
      e = ⟨bit d.p16 62, fld d.p16 61 52, fld d.p16 51 41, fld d.p16 40 37 + 1, fld d.p16 36 33, fld d.p16 32 26, d.p24.toNat, fld
        d.p32 63 32, 0, false⟩ →
      e.slot ≤ 575 →
      e.authLen ≤ 2043 →
      e.fvTx ≤ 8 →
      8 ≤ e.fvWidth →
      e.fvWidth ≤ 64 →
      e.fv ≤ 2 ^ e.fvWidth - 1 →
      s.dev.auth (fld d.p8 10 0) = some x →
      x.slot = e.slot →
      e.fv < x.fv →
      Completes (.authSet d) s (fun t =>
        s.completes d [] [] t ∧ s.dev.basjo.answers d 0x40 0 0 t.dev.basjo))
    ∧ (∀ (s : State) (d : CmdDesc) (e : AuthEntry),
      s.starts d 0x31 66 1 [0x7FF, 0xFFFFFFFFFC000000, all64, 0xFFFFFFFF00000000, 0] = true →
      e = ⟨bit d.p16 62, fld d.p16 61 52, fld d.p16 51 41, fld d.p16 40 37 + 1, fld d.p16 36 33, fld d.p16 32 26, d.p24.toNat, fld
        d.p32 63 32, 0, false⟩ →
      575 < e.slot ∨ 2043 < e.authLen ∨ 8 < e.fvTx ∨ e.fvWidth < 8 ∨ 64 < e.fvWidth ∨ 2 ^ e.fvWidth - 1 < e.fv →
      Completes (.authSet d) s (fun t =>
        s.completes d [] [] t ∧ s.dev.basjo.answers d stBadParam 0 0 t.dev.basjo))
    ∧ (∀ (s : State) (d : CmdDesc) (e : AuthEntry),
      s.starts d 0x31 66 2 [0x7FF, 0, 0, 0, 0] = true →
      s.dev.auth (fld d.p8 10 0) = some e →
      Completes (.authRead d) s (fun t =>
        s.completes d [] [] t ∧ s.dev.basjo.answers d stOk e.fails.toNat e.fv t.dev.basjo))
    ∧ (∀ (s : State) (d : CmdDesc),
      s.starts d 0x31 66 2 [0x7FF, 0, 0, 0, 0] = true →
      s.dev.auth (fld d.p8 10 0) = none →
      Completes (.authRead d) s (fun t =>
        s.completes d [] [] t ∧ s.dev.basjo.answers d stNotFound 0 0 t.dev.basjo))
    ∧ (∀ (s : State) (d : CmdDesc),
      s.starts d 0x31 66 3 [0x7FF, 0, 0, 0, 0] = true →
      Completes (.authClear d) s (fun t =>
        t.dev.auth (fld d.p8 10 0) = none ∧ s.completes d [.roots] [] t ∧ s.dev.basjo.answers d stOk 0 0 t.dev.basjo ∧ (∀ k, k ≠ fld
          d.p8 10 0 → t.dev.auth k = s.dev.auth k) ∧ t.dev.roots = { s.dev.roots with auth := t.dev.roots.auth }))
    ∧ (∀ (s : State) (st : Fin 256) (b : Batch),
      s.dev.runs = true →
      s.dev.batch st.val = some b →
      b.since + s.dev.rf (encReg st.val 4) 9 0 * usRaw ≤ s.dev.now →
      s.dev.roots.closed.length < 64 →
      (s.dev.rxOf 39).isSome = true →
      Completes (.encBatchHoldExpiry st) s (fun t =>
        t.dev.batch st.val = none ∧ t.dev.rf (encReg st.val 0x1C) 7 0 = (s.dev.rf (encReg st.val 0x1C) 7 0 + 1) % 256 ∧
          t.dev.roots.closed = s.dev.roots.closed ++ [(b.group, s.dev.encHeader st.val b.octets.length (s.dev.rf (encReg st.val
          0x1C) 7 0) ++ b.octets ++ zeros (60 - (s.dev.encHeader st.val b.octets.length (s.dev.rf (encReg st.val 0x1C) 7 0) ++
          b.octets).length))] ∧ s.changes [.roots] [encReg st.val 0x1C] t ∧ t.dev.roots =
          { s.dev.roots with batches := t.dev.roots.batches, closed := t.dev.roots.closed } ∧ (∀ k < 256, k ≠ st.val → t.dev.batch k
          = s.dev.batch k)))
    ∧ (∀ (s : State) (st : Fin 256) (b : Batch),
      s.dev.runs = true →
      s.dev.batch st.val = some b →
      s.dev.now < b.since + s.dev.rf (encReg st.val 4) 9 0 * usRaw →
      Completes (.encBatchHoldExpiry st) s (fun t =>
        t = s))
    ∧ (∀ (s : State) (a : Acc) (st : Fin 256),
      s.opens a (encReg st.val 0) = true →
      s.dev.rb (encReg st.val 0) 31 = false →
      Completes (.encDisable a st true) s (fun t =>
        t.dev.reg (encReg st.val 0) = setBit (s.dev.reg (encReg st.val 0)) 31 true ∧ t.dev.rf (encReg st.val 0x1C) 7 0 = 0 ∧
          s.writes (encReg st.val 0) [] [encReg st.val 0, encReg st.val 0x1C] t))
    ∧ (∀ (s : State) (a : Acc) (st : Fin 256),
      s.opens a (encReg st.val 0) = true →
      s.dev.rb (encReg st.val 0) 31 = true →
      s.dev.roots.closed.length < 64 →
      (s.dev.rxOf 39).isSome = true →
      Completes (.encDisable a st false) s (fun t =>
        t.dev.reg (encReg st.val 0) = setBit (s.dev.reg (encReg st.val 0)) 31 false ∧ t.dev.batch st.val = none ∧
          t.dev.roots.closed.map (·.1) = s.dev.roots.closed.map (·.1) ++ (s.dev.batch st.val).toList.map (·.group) ∧ s.writes
          (encReg st.val 0) [.roots] [encReg st.val 0, encReg st.val 0x1C] t ∧ t.dev.roots =
          { s.dev.roots with batches := t.dev.roots.batches, closed := t.dev.roots.closed }))
    ∧ (∀ (s : State) (id : Nat) (r : List Nat) (f : Stored) (o : List (BitVec 8)) (ue : Option (Fin 18)),
      s.dev.runs = true →
      ue.all (fun b => !s.dev.bankHolds b.val) = true →
      s.dev.decap = id :: r →
      s.dev.stored id = some f →
      o = s.dev.edit 39 f →
      beAt o (14 + 4 * (vlanTags o).1 - 2) 2 ≠ 0x22F0 →
      Completes (.decapFrame ue) s (fun t =>
        t.dev.decap = r ∧ t.dev.reg (rootsReg 0x20) = satAdd (s.dev.reg (rootsReg 0x20)) 1 ∧ t.dev.trunk.queues = s.dev.trunk.queues
          ∧ t.dev.stored id = (if f.refs ≤ 1 then none else some { f with refs := f.refs - 1 }) ∧ s.keeps [.regs, .basjo, .audit,
          .decap, .trunk] t ∧ s.dev.basjo.eventsOnly t.dev.basjo))
    ∧ (∀ (s : State) (id : Nat) (r : List Nat) (f : Stored) (o : List (BitVec 8)) (at_ bus : Nat) (lin : Bool) (msg : List (BitVec
        8)) (c : CanFrame) (ue : Option (Fin 18)),
      s.dev.runs = true →
      ue.all (fun b => !s.dev.bankHolds b.val) = true →
      s.dev.decap = id :: r →
      s.dev.stored id = some f →
      o = s.dev.edit 39 f →
      at_ = 14 + 4 * (vlanTags o).1 →
      beAt o (at_ - 2) 2 = 0x22F0 →
      (o.drop at_).getD 0 0 = (0x82 : BitVec 8) →
      12 + beAt (o.drop at_) 1 2 % 2048 ≤ (o.drop at_).length →
      msg = ((o.drop at_).drop 12).take (beAt (o.drop at_) 1 2 % 2048) →
      msg ≠ [] →
      beAt msg 0 2 % 512 * 4 = msg.length →
      acfFrame msg = some (bus, lin, c) →
      s.dev.rb (barkReg (0x1400 + 4 * 24)) 31 = false →
      s.dev.lookupRoute ⟨24, bus, f.zone, s.dev.now, lin, c⟩ = none →
      Completes (.decapFrame ue) s (fun t =>
        t.dev.decap = r ∧ t.dev.reg (rootsReg 0x10) = satAdd (s.dev.reg (rootsReg 0x10)) 1 ∧ t.dev.reg (rootsReg 0x20) = s.dev.reg
          (rootsReg 0x20) ∧ t.dev.trunk.queues = s.dev.trunk.queues ∧ s.keeps [.regs, .basjo, .audit, .decap, .trunk] t ∧
          s.dev.basjo.eventsOnly t.dev.basjo))
    ∧ (∀ (s : State) (id : Nat) (r : List Nat) (f : Stored) (b : Fin 18),
      s.dev.runs = true →
      s.dev.decap = id :: r →
      s.dev.stored id = some f →
      s.dev.bankHolds b.val = true →
      Completes (.decapFrame (some b)) s (fun t =>
        t.dev.decap = r ∧ t.dev.reg (trunkReg 0x48) = satAdd (s.dev.reg (trunkReg 0x48)) 1 ∧ t.dev.stored id = (if f.refs ≤ 1 then
          none else some { f with refs := f.refs - 1 }) ∧ t.dev.roots = s.dev.roots ∧ s.keeps [.regs, .basjo, .audit, .decap,
          .trunk, .words, .ras, .crown, .rx, .ended, .passed, .burl, .ports] t))
    ∧ (∀ (s : State) (ue : Option (Fin 18)),
      s.dev.runs = true →
      s.dev.decap = [] →
      Completes (.decapFrame ue) s (fun t =>
        t = s))

/-- Keys are loaded, derived and unwrapped into slots. Rests on R376, R378, R380, R387, R388, R389. -/
def Obligations.KeysEnterSlots : Prop :=
    (∀ (s : State) (d : CmdDesc),
      s.starts d 0x40 (bankUnit (fld d.p8 19 10)) 0x20 [0xFFFFFFFF7FFFFC31, all64, all64, all64, all64] = true →
      s.dev.lifeCycle ≠ 4 →
      fld d.p8 19 10 ≤ 575 →
      (s.dev.slot (fld d.p8 19 10)).state ≠ 3 →
      ((s.dev.slot (fld d.p8 19 10)).state = 1 → (s.dev.slot (fld d.p8 19 10)).owner.testBit d.origin = true) →
      s.dev.inUse (fld d.p8 19 10) = false →
      fld d.p8 19 10 < 512 →
      ((s.dev.slot (fld d.p8 19 10)).state = 1 → (s.dev.slot (fld d.p8 19 10)).gen ≠ 0xFFFFFFFF) →
      (bit d.p8 0 = true ∨ (d.p32 = 0 ∧ d.p40 = 0)) →
      Completes (.keyLoad d) s (fun t =>
        t.dev.slot (fld d.p8 19 10) =
          { newKey d (fld d.p8 5 4) (bit d.p8 0) ((d.octets.drop 8).take (if bit d.p8 0 then 32 else 16)) with gen := (if (s.dev.slot (fld d.p8 19 10)).state = 1 then (s.dev.slot (fld d.p8 19 10)).gen + 1 else (s.dev.slot (fld d.p8 19 10)).gen) }
          ∧ s.completes d [.burl] [burlReg 0x4014] t ∧ s.dev.basjo.answers d stOk (t.dev.slot (fld d.p8 19 10)).gen.toNat 0
          t.dev.basjo ∧ (∀ m, m ≠ fld d.p8 19 10 → t.dev.slot m = s.dev.slot m) ∧ t.dev.burl =
          { s.dev.burl with slots := t.dev.burl.slots }))
    ∧ (∀ (s : State) (d : CmdDesc) (n : Nat),
      s.starts d 0x40 (bankUnit (fld d.p8 19 10)) 0x21 [0xFFFFFFFF7FFFFFFF, all64, all64, all64, 0xFFFFFFFF00000311] = true →
      s.dev.lifeCycle ≠ 4 →
      fld d.p8 19 10 ≤ 575 →
      (s.dev.slot (fld d.p8 19 10)).state ≠ 3 →
      ((s.dev.slot (fld d.p8 19 10)).state = 1 → (s.dev.slot (fld d.p8 19 10)).owner.testBit d.origin = true) →
      s.dev.inUse (fld d.p8 19 10) = false →
      fld d.p8 19 10 < 512 →
      ((s.dev.slot (fld d.p8 19 10)).state = 1 → (s.dev.slot (fld d.p8 19 10)).gen ≠ 0xFFFFFFFF) →
      fld d.p8 9 0 = 0x3FD + n →
      s.dev.rootOk n = true →
      Completes (.keyDerive d) s (fun t =>
        t.dev.slot (fld d.p8 19 10) =
          { newKey d (fld d.p40 9 8) (bit d.p40 0) (kdf (rootBytes n) ((d.octets.drop 8).take 16) (kdfContext s.dev.lifeCycle (fld d.p40 9 8) (fld d.p8 30 20) (bit d.p40 0) (bit d.p40 4) ((d.octets.drop 24).take 8)) (if bit d.p40 0 then 32 else 16)) with depth := 0, parent := fld d.p8 9 0, parentGen := 0, source := 1, tag := BitVec.ofNat 32 (fld d.p40 63 32), gen := (if (s.dev.slot (fld d.p8 19 10)).state = 1 then (s.dev.slot (fld d.p8 19 10)).gen + 1 else (s.dev.slot (fld d.p8 19 10)).gen) }
          ∧ s.completes d [.burl] [burlReg 0x4014] t ∧ s.dev.basjo.answers d stOk (t.dev.slot (fld d.p8 19 10)).gen.toNat 0
          t.dev.basjo ∧ (∀ m, m ≠ fld d.p8 19 10 → t.dev.slot m = s.dev.slot m) ∧ t.dev.burl =
          { s.dev.burl with slots := t.dev.burl.slots }))
    ∧ (∀ (s : State) (d : CmdDesc),
      s.starts d 0x40 (bankUnit (fld d.p8 19 10)) 0x21 [0xFFFFFFFF7FFFFFFF, all64, all64, all64, 0xFFFFFFFF00000311] = true →
      s.dev.lifeCycle ≠ 4 →
      fld d.p8 19 10 ≤ 575 →
      (s.dev.slot (fld d.p8 19 10)).state ≠ 3 →
      ((s.dev.slot (fld d.p8 19 10)).state = 1 → (s.dev.slot (fld d.p8 19 10)).owner.testBit d.origin = true) →
      s.dev.inUse (fld d.p8 19 10) = false →
      fld d.p8 19 10 < 512 →
      ((s.dev.slot (fld d.p8 19 10)).state = 1 → (s.dev.slot (fld d.p8 19 10)).gen ≠ 0xFFFFFFFF) →
      fld d.p8 9 0 ≤ 575 →
      s.dev.mayUse (fld d.p8 9 0) uDerive 10 = true →
      (s.dev.slot (fld d.p8 9 0)).key256 = true →
      (s.dev.slot (fld d.p8 9 0)).depth < 7 →
      Completes (.keyDerive d) s (fun t =>
        t.dev.slot (fld d.p8 19 10) =
          { newKey d (fld d.p40 9 8) (bit d.p40 0) (kdf (s.dev.slot (fld d.p8 9 0)).octets ((d.octets.drop 8).take 16) (kdfContext s.dev.lifeCycle (fld d.p40 9 8) (fld d.p8 30 20) (bit d.p40 0) (bit d.p40 4) ((d.octets.drop 24).take 8)) (if bit d.p40 0 then 32 else 16)) with depth := (s.dev.slot (fld d.p8 9 0)).depth + 1, parent := fld d.p8 9 0, parentGen := (s.dev.slot (fld d.p8 9 0)).gen, source := 1, tag := BitVec.ofNat 32 (fld d.p40 63 32), gen := (if (s.dev.slot (fld d.p8 19 10)).state = 1 then (s.dev.slot (fld d.p8 19 10)).gen + 1 else (s.dev.slot (fld d.p8 19 10)).gen) }
          ∧ s.completes d [.burl] [burlReg 0x4014] t ∧ s.dev.basjo.answers d stOk (t.dev.slot (fld d.p8 19 10)).gen.toNat 0
          t.dev.basjo ∧ (∀ m, m ≠ fld d.p8 19 10 → t.dev.slot m = s.dev.slot m) ∧ t.dev.burl =
          { s.dev.burl with slots := t.dev.burl.slots }))
    ∧ (∀ (s : State) (d : CmdDesc) (mem : HostData) (o : List (BitVec 8)),
      s.starts d 0x40 (bankUnit (fld d.p8 19 10)) 0x22 [0xFFFFFFFF7FFFFFFF, all64, 0xFFFFFFFF00000031, 0, 0] = true →
      s.dev.lifeCycle ≠ 4 →
      fld d.p8 19 10 ≤ 575 →
      (s.dev.slot (fld d.p8 19 10)).state ≠ 3 →
      ((s.dev.slot (fld d.p8 19 10)).state = 1 → (s.dev.slot (fld d.p8 19 10)).owner.testBit d.origin = true) →
      s.dev.inUse (fld d.p8 19 10) = false →
      fld d.p8 19 10 < 512 →
      ((s.dev.slot (fld d.p8 19 10)).state = 1 → (s.dev.slot (fld d.p8 19 10)).gen ≠ 0xFFFFFFFF) →
      fld d.p8 9 0 ≤ 575 →
      s.dev.mayUse (fld d.p8 9 0) uWrap 10 = true →
      (s.dev.slot (fld d.p8 9 0)).depth < 7 →
      mem.err = false →
      (if bit d.p24 0 then 40 else 24) ≤ mem.octets.length →
      Sys2Proof.Machine.keyUnwrap (s.dev.slot (fld d.p8 9 0)).octets (mem.octets.take (if bit d.p24 0 then 40 else 24)) = some o →
      Completes (.keyUnwrap d mem) s (fun t =>
        t.dev.slot (fld d.p8 19 10) =
          { newKey d (fld d.p24 5 4) (bit d.p24 0) o with depth := (s.dev.slot (fld d.p8 9 0)).depth + 1, parent := fld d.p8 9 0, parentGen := (s.dev.slot (fld d.p8 9 0)).gen, source := 2, tag := BitVec.ofNat 32 (fld d.p24 63 32), gen := (if (s.dev.slot (fld d.p8 19 10)).state = 1 then (s.dev.slot (fld d.p8 19 10)).gen + 1 else (s.dev.slot (fld d.p8 19 10)).gen) }
          ∧ s.completes d [.burl] [burlReg 0x4014] t ∧ s.dev.basjo.answers d stOk (t.dev.slot (fld d.p8 19 10)).gen.toNat 0
          t.dev.basjo ∧ (∀ m, m ≠ fld d.p8 19 10 → t.dev.slot m = s.dev.slot m) ∧ t.dev.burl =
          { s.dev.burl with slots := t.dev.burl.slots }))
    ∧ (∀ (s : State) (d : CmdDesc),
      s.starts d 0x40 (bankUnit (fld d.p8 19 10)) 0x20 [0xFFFFFFFF7FFFFC31, all64, all64, all64, all64] = true →
      s.dev.lifeCycle ≠ 4 →
      (bit d.p8 0 = false ∧ (d.p32 ≠ 0 ∨ d.p40 ≠ 0)) →
      Completes (.keyLoad d) s (fun t =>
        s.completes d [] [] t ∧ s.dev.basjo.answers d stBadParam 0 0 t.dev.basjo))
    ∧ (∀ (s : State) (d : CmdDesc),
      s.starts d 0x40 (bankUnit (fld d.p8 19 10)) 0x20 [0xFFFFFFFF7FFFFC31, all64, all64, all64, all64] = true →
      s.dev.lifeCycle ≠ 4 →
      fld d.p8 19 10 ≤ 575 →
      (s.dev.slot (fld d.p8 19 10)).state ≠ 3 →
      ((s.dev.slot (fld d.p8 19 10)).state = 1 → (s.dev.slot (fld d.p8 19 10)).owner.testBit d.origin = true) →
      s.dev.inUse (fld d.p8 19 10) = false →
      512 ≤ fld d.p8 19 10 →
      (bit d.p8 0 = true ∨ (d.p32 = 0 ∧ d.p40 = 0)) →
      Completes (.keyLoad d) s (fun t =>
        s.completes d [] [] t ∧ s.dev.basjo.answers d 0x41 0 0 t.dev.basjo))
    ∧ (∀ (s : State) (d : CmdDesc) (mem : HostData),
      s.starts d 0x40 (bankUnit (fld d.p8 19 10)) 0x22 [0xFFFFFFFF7FFFFFFF, all64, 0xFFFFFFFF00000031, 0, 0] = true →
      s.dev.lifeCycle ≠ 4 →
      fld d.p8 19 10 ≤ 575 →
      (s.dev.slot (fld d.p8 19 10)).state ≠ 3 →
      ((s.dev.slot (fld d.p8 19 10)).state = 1 → (s.dev.slot (fld d.p8 19 10)).owner.testBit d.origin = true) →
      s.dev.inUse (fld d.p8 19 10) = false →
      fld d.p8 19 10 < 512 →
      ((s.dev.slot (fld d.p8 19 10)).state = 1 → (s.dev.slot (fld d.p8 19 10)).gen ≠ 0xFFFFFFFF) →
      fld d.p8 9 0 ≤ 575 →
      s.dev.mayUse (fld d.p8 9 0) uWrap 10 = true →
      (s.dev.slot (fld d.p8 9 0)).depth < 7 →
      mem.err = false →
      (if bit d.p24 0 then 40 else 24) ≤ mem.octets.length →
      Sys2Proof.Machine.keyUnwrap (s.dev.slot (fld d.p8 9 0)).octets (mem.octets.take (if bit d.p24 0 then 40 else 24)) = none →
      Completes (.keyUnwrap d mem) s (fun t =>
        s.completes d [] [] t ∧ s.dev.basjo.answers d stAuthFail 0 0 t.dev.basjo))

/-- Keys are erased, invalidated, retired, told and reclaimed. Rests on R376, R378, R380, R381, R382, R390. -/
def Obligations.KeysLeaveSlots : Prop :=
    (∀ (s : State) (d : CmdDesc),
      s.starts d 0x40 (bankUnit (fld d.p8 19 10)) 0x23 [0xFFC00, 0, 0, 0, 0] = true →
      s.dev.lifeCycle ≠ 4 →
      fld d.p8 19 10 ≤ 575 →
      (s.dev.slot (fld d.p8 19 10)).state ≠ 3 →
      ((s.dev.slot (fld d.p8 19 10)).state = 1 → (s.dev.slot (fld d.p8 19 10)).owner.testBit d.origin = true) →
      s.dev.inUse (fld d.p8 19 10) = false →
      (s.dev.slot (fld d.p8 19 10)).state ≠ 0 →
      (s.dev.slot (fld d.p8 19 10)).gen ≠ 0xFFFFFFFF →
      Completes (.keyErase d) s (fun t =>
        t.dev.slot (fld d.p8 19 10) = { KeySlot.empty with gen := (s.dev.slot (fld d.p8 19 10)).gen + 1 } ∧ s.completes d [.burl]
          [burlReg 0x4014] t ∧ s.dev.basjo.answers d stOk (t.dev.slot (fld d.p8 19 10)).gen.toNat 0 t.dev.basjo ∧ (∀ m, m ≠ fld d.p8
          19 10 → t.dev.slot m = s.dev.slot m) ∧ t.dev.burl = { s.dev.burl with slots := t.dev.burl.slots }))
    ∧ (∀ (s : State) (d : CmdDesc),
      s.starts d 0x40 (bankUnit (fld d.p8 19 10)) 0x23 [0xFFC00, 0, 0, 0, 0] = true →
      s.dev.lifeCycle ≠ 4 →
      fld d.p8 19 10 ≤ 575 →
      (s.dev.slot (fld d.p8 19 10)).state ≠ 3 →
      ((s.dev.slot (fld d.p8 19 10)).state = 1 → (s.dev.slot (fld d.p8 19 10)).owner.testBit d.origin = true) →
      s.dev.inUse (fld d.p8 19 10) = true →
      (s.dev.slot (fld d.p8 19 10)).state ≠ 0 →
      (s.dev.slot (fld d.p8 19 10)).gen ≠ 0xFFFFFFFF →
      Completes (.keyErase d) s (fun t =>
        t.dev.slot (fld d.p8 19 10) = { KeySlot.empty with gen := (s.dev.slot (fld d.p8 19 10)).gen + 1 } ∧ t.dev.burl =
          { s.dev.burl with slots := t.dev.burl.slots, changes := s.dev.burl.changes ++ [⟨fld d.p8 19 10, s.dev.burl.serial, d, 0x23, 2⟩] }
          ∧ t.dev.basjo = s.dev.basjo.setRing d.host.val d.ring.val
          { s.dev.basjo.ring d.host.val d.ring.val with running := some ⟨d, 0x23, s.dev.now⟩ } ∧ s.keeps [.regs, .burl, .basjo,
          .clocks] t ∧ s.dev.regsKeep [burlReg 0x4014] t.dev ∧ (∀ m, m ≠ fld d.p8 19 10 → t.dev.slot m = s.dev.slot m)))
    ∧ (∀ (s : State) (d : CmdDesc),
      s.starts d 0x40 (bankUnit (fld d.p8 19 10)) 0x24 [0xFFC00, 0, 0, 0, 0] = true →
      s.dev.lifeCycle ≠ 4 →
      fld d.p8 19 10 ≤ 575 →
      (s.dev.slot (fld d.p8 19 10)).state ≠ 3 →
      ((s.dev.slot (fld d.p8 19 10)).state = 1 → (s.dev.slot (fld d.p8 19 10)).owner.testBit d.origin = true) →
      s.dev.inUse (fld d.p8 19 10) = false →
      (s.dev.slot (fld d.p8 19 10)).state ≠ 0 →
      (s.dev.slot (fld d.p8 19 10)).gen ≠ 0xFFFFFFFF →
      Completes (.keyInvalidate d) s (fun t =>
        t.dev.slot (fld d.p8 19 10) = { s.dev.slot (fld d.p8 19 10) with gen := (s.dev.slot (fld d.p8 19 10)).gen + 1 } ∧
          s.completes d [.burl] [burlReg 0x4014] t ∧ s.dev.basjo.answers d stOk (t.dev.slot (fld d.p8 19 10)).gen.toNat 0
          t.dev.basjo ∧ (∀ m, m ≠ fld d.p8 19 10 → t.dev.slot m = s.dev.slot m) ∧ t.dev.burl =
          { s.dev.burl with slots := t.dev.burl.slots }))
    ∧ (∀ (s : State) (d : CmdDesc),
      s.starts d 0x40 (bankUnit (fld d.p8 19 10)) 0x25 [0xFFC00, 0, 0, 0, 0] = true →
      s.dev.lifeCycle ≠ 4 →
      fld d.p8 19 10 ≤ 575 →
      (s.dev.slot (fld d.p8 19 10)).state ≠ 3 →
      ((s.dev.slot (fld d.p8 19 10)).state = 1 → (s.dev.slot (fld d.p8 19 10)).owner.testBit d.origin = true) →
      s.dev.inUse (fld d.p8 19 10) = false →
      Completes (.keyRetire d) s (fun t =>
        t.dev.slot (fld d.p8 19 10) = { KeySlot.empty with state := 3, gen := (s.dev.slot (fld d.p8 19 10)).gen } ∧ s.completes d
          [.burl] [burlReg 0x4014] t ∧ s.dev.basjo.answers d stOk (t.dev.slot (fld d.p8 19 10)).gen.toNat 0 t.dev.basjo ∧ (∀ m, m ≠
          fld d.p8 19 10 → t.dev.slot m = s.dev.slot m) ∧ t.dev.burl = { s.dev.burl with slots := t.dev.burl.slots }))
    ∧ (∀ (s : State) (d : CmdDesc),
      s.starts d 0x40 (bankUnit (fld d.p8 19 10)) 0x26 [0xFFC00, 0, 0, 0, 0] = true →
      s.dev.lifeCycle ≠ 4 →
      fld d.p8 19 10 ≤ 575 →
      (s.dev.slot (fld d.p8 19 10)).state ≠ 3 →
      ((s.dev.slot (fld d.p8 19 10)).state = 1 → (s.dev.slot (fld d.p8 19 10)).owner.testBit d.origin = true) →
      Completes (.keyInfo d) s (fun t =>
        s.completes d [] [] t ∧ s.dev.basjo.answers d stOk (s.dev.slot (fld d.p8 19 10)).parentGen.toNat (s.dev.slotWord0 (fld d.p8
          19 10)) t.dev.basjo))
    ∧ (∀ (s : State) (n : Fin 576) (c : KeyChange) (x : Nat),
      s.dev.runs = true →
      s.dev.burl.changes.find? (fun y => decide (y.slot = n.val)) = some c →
      s.dev.usesNow.any (fun u => decide (u.serial < c.serial) && u.chain.contains n.val) = false →
      c.desc.writeErr = false →
      s.dev.basjo.ringType c.desc.host.val c.desc.ring.val = 3 →
      s.dev.basjo.ringActive c.desc.host.val c.desc.ring.val = true →
      (s.dev.basjo.ring c.desc.host.val c.desc.ring.val).running = some ⟨c.desc, c.op, x⟩ →
      Completes (.keyOldUsesEnded n) s (fun t =>
        t.dev.burl = { s.dev.burl with changes := s.dev.burl.changes.filter (fun y => decide (y.slot ≠ n.val)) } ∧ s.completes
          c.desc [.burl] [] t ∧ s.dev.basjo.answers c.desc stOk (s.dev.slot n.val).gen.toNat 0 t.dev.basjo))
    ∧ (∀ (s : State),
      s.dev.runs = true →
      s.dev.burl.slots.wf (fun _ => .empty) = true →
      Completes (.orphanSweep) s (fun t =>
        (∀ n : Fin 576, t.dev.slot n.val = if s.dev.reclaimable n.val then (s.dev.slot n.val).cleared else s.dev.slot n.val) ∧
          s.changes [.burl] [burlReg 0x4014, burlReg 0x4020] t ∧ t.dev.burl = { s.dev.burl with slots := t.dev.burl.slots }))
    ∧ (∀ (s : State) (d : CmdDesc),
      s.starts d 0x40 (bankUnit (fld d.p8 19 10)) 0x23 [0xFFC00, 0, 0, 0, 0] = true →
      s.dev.lifeCycle ≠ 4 →
      fld d.p8 19 10 ≤ 575 →
      (s.dev.slot (fld d.p8 19 10)).state ≠ 3 →
      (s.dev.slot (fld d.p8 19 10)).state = 0 →
      Completes (.keyErase d) s (fun t =>
        s.completes d [] [] t ∧ s.dev.basjo.answers d stNotFound 0 0 t.dev.basjo))
    ∧ (∀ (s : State) (d : CmdDesc),
      s.starts d 0x40 (bankUnit (fld d.p8 19 10)) 0x25 [0xFFC00, 0, 0, 0, 0] = true →
      s.dev.lifeCycle ≠ 4 →
      fld d.p8 19 10 ≤ 575 →
      (s.dev.slot (fld d.p8 19 10)).state = 1 →
      (s.dev.slot (fld d.p8 19 10)).owner.testBit d.origin = false →
      Completes (.keyRetire d) s (fun t =>
        s.completes d [] [] t ∧ s.dev.basjo.answers d stDenied 0 0 t.dev.basjo))
    ∧ (∀ (s : State) (d : CmdDesc),
      s.starts d 0x40 d.un 0x26 [0xFFC00, 0, 0, 0, 0] = true →
      16 ≤ d.un →
      d.un < 25 →
      s.dev.lifeCycle = 4 →
      Completes (.keyInfo d) s (fun t =>
        s.completes d [] [] t ∧ s.dev.basjo.answers d stWrongMode 0 0 t.dev.basjo))
    ∧ (∀ (s : State) (n : Fin 576),
      s.dev.runs = true →
      s.dev.burl.changes.find? (fun y => decide (y.slot = n.val)) = none →
      Completes (.keyOldUsesEnded n) s (fun t =>
        t = s))

/-- The life cycle, random numbers, identities, signatures and tamper. Rests on R385, R386, R392, R393, R394, R395, R396. -/
def Obligations.BurlServices : Prop :=
    (∀ (s : State) (d : CmdDesc) (target : Fin 5),
      s.starts d 0x40 d.un d.op [all64, all64, all64, all64, all64] = true →
      (unitOps d.cl d.un).contains d.op = false →
      lcMay s.dev.lifeCycle target.val = true →
      Completes (.lcAdvance d target) s (fun t =>
        t.dev.lifeCycle = target.val ∧ t.dev.burl.liveRoot = none ∧ t.dev.burl =
          { s.dev.burl with fuseLife := target.val, liveRoot := none, slots := if target = 4 then [] else s.dev.burl.slots } ∧
          s.completes d [.burl] [burlReg 0x4000, burlReg 0x4014] t ∧ s.dev.basjo.answers d stOk 0 0 t.dev.basjo))
    ∧ (∀ (s : State) (d : CmdDesc),
      s.starts d 0x40 33 0x38 [all64, 0x1FFF, 0, 0, 0] = true →
      fld d.p16 12 0 ≠ 0 →
      fld d.p16 12 0 ≤ 4096 →
      s.dev.rngFailed = false →
      Completes (.rngRead d false) s (fun t =>
        s.dev.basjo.wrote d d.p8.toNat (s.dev.drawBytes (fld d.p16 12 0)).1 t.dev.basjo ∧ t.dev.draws = s.dev.draws + (fld d.p16 12
          0 + 63) / 64 ∧ s.keeps [.basjo, .clocks, .burl, .draws] t ∧ t.dev.burl =
          { s.dev.burl with generates := (s.dev.burl.generates + 1) % 65536 } ∧ s.dev.basjo.answers d stOk 0 0 t.dev.basjo))
    ∧ (∀ (s : State),
      s.dev.runs = true →
      Completes (.rngHealthFailure) s (fun t =>
        t.dev.rngFailed = true ∧ t.dev.reg (burlReg 0x4028) = satAdd (s.dev.reg (burlReg 0x4028)) 1 ∧ s.changes [] [burlReg 0x4018,
          burlReg 0x4028] t))
    ∧ (∀ (s : State) (d : CmdDesc) (x : List Byte × List Byte),
      s.starts d 0x40 32 0x30 [all64, 0, 0, 0, 0] = true →
      s.dev.idSeeds = some x →
      Completes (.idPubkey d false) s (fun t =>
        s.dev.basjo.wrote d d.p8.toNat (edPubOctets x.1 ++ mldsaPubOctets x.2) t.dev.basjo ∧ s.keeps [.basjo, .clocks] t ∧
          s.dev.basjo.answers d stOk 0 0 t.dev.basjo))
    ∧ (∀ (s : State) (d : CmdDesc) (x : List Byte × List Byte),
      s.starts d 0x40 32 0x31 [all64, all64, all64, all64, all64] = true →
      s.dev.idSeeds = some x →
      s.dev.rngFailed = false →
      Completes (.attest d false) s (fun t =>
        s.dev.basjo.wrote d d.p8.toNat ((s.dev.attestHead "TLTRATT1" ++ d.octets.drop 8 ++ s.dev.measurement) ++ signBoth x.1 x.2
          s.dev.draws (s.dev.attestHead "TLTRATT1" ++ d.octets.drop 8 ++ s.dev.measurement)) t.dev.basjo ∧ s.keeps [.basjo, .clocks,
          .burl, .draws] t ∧ t.dev.burl = { s.dev.burl with generates := (s.dev.burl.generates + 1) % 65536 } ∧ s.dev.basjo.answers
          d stOk 0 0 t.dev.basjo))
    ∧ (∀ (s : State) (d : CmdDesc) (mem : HostData) (ok : Bool),
      s.starts d 0x40 32 0x32 [all64, 0x1FFFF, 0, 0, 0] = true →
      fld d.p16 16 0 ≤ 65536 →
      mem.err = false →
      5357 + fld d.p16 16 0 ≤ mem.octets.length →
      ok = (edVerify (mem.octets.take 32) ((mem.octets.drop 1984).take 64) ((mem.octets.drop 5357).take (fld d.p16 16 0)) &&
        mldsaVerify ((mem.octets.drop 32).take 1952) ((mem.octets.drop 2048).take 3309) ((mem.octets.drop 5357).take (fld d.p16 16
        0))) →
      Completes (.sigVerify d mem) s (fun t =>
        t.dev.reg (burlReg 0x402C) = (if ok then s.dev.reg (burlReg 0x402C) else satAdd (s.dev.reg (burlReg 0x402C)) 1) ∧
          s.completes d [] [burlReg 0x402C] t ∧ s.dev.basjo.answers d (if ok then stOk else stAuthFail) 0 0 t.dev.basjo))
    ∧ (∀ (s : State) (src : Fin 5),
      s.dev.runs = true →
      Completes (.tamperLine src) s (fun t =>
        t.dev.burl.slots = [] ∧ t.dev.burl.liveRoot = none ∧ t.dev.burl.fuseTamper = true ∧ t.dev.lifeCycle = 4 ∧ t.dev.burl.uses =
          [] ∧ t.dev.burl.tamperLatch.getLsbD src.val = true ∧ t.dev.safe = true ∧ s.keeps [.regs, .basjo, .audit, .burl, .rx,
          .passed, .trunk, .crown, .slowq, .decap, .out, .ports, .roots, .tap, .clocks] t))
    ∧ (∀ (s : State) (d : CmdDesc) (target : Fin 5),
      s.starts d 0x40 d.un d.op [all64, all64, all64, all64, all64] = true →
      (unitOps d.cl d.un).contains d.op = false →
      lcMay s.dev.lifeCycle target.val = false →
      Completes (.lcAdvance d target) s (fun t =>
        s.completes d [] [] t ∧ s.dev.basjo.answers d stWrongMode 0 0 t.dev.basjo))
    ∧ (∀ (s : State) (d : CmdDesc),
      s.starts d 0x40 33 0x38 [all64, 0x1FFF, 0, 0, 0] = true →
      fld d.p16 12 0 = 0 ∨ 4096 < fld d.p16 12 0 →
      Completes (.rngRead d false) s (fun t =>
        s.completes d [] [] t ∧ s.dev.basjo.answers d stBadParam 0 0 t.dev.basjo))
    ∧ (∀ (s : State) (d : CmdDesc),
      s.starts d 0x40 33 0x38 [all64, 0x1FFF, 0, 0, 0] = true →
      fld d.p16 12 0 ≠ 0 →
      fld d.p16 12 0 ≤ 4096 →
      s.dev.rngFailed = true →
      Completes (.rngRead d false) s (fun t =>
        s.completes d [] [] t ∧ s.dev.basjo.answers d 0x43 0 0 t.dev.basjo))
    ∧ (∀ (s : State) (d : CmdDesc),
      s.starts d 0x40 32 0x30 [all64, 0, 0, 0, 0] = true →
      s.dev.idSeeds = none →
      Completes (.idPubkey d false) s (fun t =>
        s.completes d [] [] t ∧ s.dev.basjo.answers d 0x40 0 0 t.dev.basjo))
    ∧ (∀ (s : State) (src : Fin 5),
      s.dev.tap.asleep = true →
      s.dev.mode ≠ 0 →
      s.dev.tap.powerLow = false →
      src ≠ 1 →
      src ≠ 2 →
      Completes (.tamperLine src) s (fun t =>
        t.dev.burl =
          { s.dev.burl with slots := [], tamperLatch := s.dev.burl.tamperLatch ||| ((1 : BitVec 5) <<< src.val), tamperAt := s.dev.tick }
          ∧ s.changes [.burl] [burlReg 0x4014, burlReg 0x4004] t))
    ∧ (∀ (s : State) (src : Fin 5),
      s.dev.tap.asleep = true →
      s.dev.mode = 0 ∨ src = 1 ∨ src = 2 →
      Completes (.tamperLine src) s (fun t =>
        t = s))

/-- Secure channels and associations are set, selected, read and cleared. Rests on R358, R365, R366. -/
def Obligations.MacsecTablesFollowCommands : Prop :=
    (∀ (s : State) (d : CmdDesc),
      s.starts d 0x40 34 0x10 [0x3F000311FF, all64, 0, 0, 0] = true →
      fld d.p8 37 32 ≤ 35 →
      portPresent s.dev.variant (fld d.p8 37 32) = true →
      s.dev.sc (fld d.p8 8 0) = none →
      (bit d.p8 16 = true → s.dev.txSc (fld d.p8 37 32) = none) →
      (bit d.p8 16 = false → (s.dev.rxScs (fld d.p8 37 32)).any (fun e => decide (e.2.sci = d.p16)) = false) →
      Completes (.scSet d) s (fun t =>
        t.dev.sc (fld d.p8 8 0) = some ⟨bit d.p8 16, bit d.p8 17, bit d.p8 12, none, fld d.p8 37 32, [], d.p16⟩ ∧ s.completes d
          [.burl] [] t ∧ s.dev.basjo.answers d stOk 0 0 t.dev.basjo ∧ (∀ x, x ≠ fld d.p8 8 0 → t.dev.sc x = s.dev.sc x) ∧ t.dev.burl
          = { s.dev.burl with scs := t.dev.burl.scs }))
    ∧ (∀ (s : State) (d : CmdDesc) (c : SecChannel),
      s.starts d 0x40 34 0x11 [0x1FF, 0, 0, 0, 0] = true →
      s.dev.sc (fld d.p8 8 0) = some c →
      c.sas = [] →
      (c.tx = false ∨ s.dev.rb (macsecReg c.port 0) 31 = false) →
      Completes (.scClear d) s (fun t =>
        t.dev.sc (fld d.p8 8 0) = none ∧ s.completes d [.burl] [] t ∧ s.dev.basjo.answers d stOk 0 0 t.dev.basjo ∧ (∀ x, x ≠ fld
          d.p8 8 0 → t.dev.sc x = s.dev.sc x) ∧ t.dev.burl = { s.dev.burl with scs := t.dev.burl.scs }))
    ∧ (∀ (s : State) (d : CmdDesc) (c : SecChannel),
      s.starts d 0x40 34 0x12 [0x3FF0301FF03FF, all64, all64, all64, 0] = true →
      s.dev.sc (fld d.p8 24 16) = some c →
      d.p16.toNat ≠ 0 →
      d.p16.toNat < pnMax c.xpn →
      (c.xpn = true ∨ (d.p24 = 0 ∧ d.p32 = 0)) →
      fld d.p8 49 40 ≤ 575 →
      s.dev.sa (fld d.p8 9 0) = none →
      c.sas.get none (fld d.p8 33 32) = none →
      s.dev.mayUse (fld d.p8 49 40) (if c.tx then uEncrypt else uDecrypt) 10 = true →
      Completes (.saInstall d) s (fun t =>
        t.dev.sa (fld d.p8 9 0) = some ⟨fld d.p8 49 40, fld d.p8 24 16, fld d.p8 33 32, false, d.p32.truncate 32, d.p16.toNat,
          BitVec.ofNat 96 (d.p24.toNat * 2 ^ 32 + fld d.p32 63 32), 0⟩ ∧ t.dev.sc (fld d.p8 24 16) = some
          { c with sas := c.sas.put none (fld d.p8 33 32) (some (fld d.p8 9 0)) } ∧ s.completes d [.burl] [] t ∧ s.dev.basjo.answers
          d stOk 0 0 t.dev.basjo ∧ (∀ x, x ≠ fld d.p8 9 0 → t.dev.sa x = s.dev.sa x) ∧ (∀ x, x ≠ fld d.p8 24 16 → t.dev.sc x =
          s.dev.sc x) ∧ t.dev.burl = { s.dev.burl with scs := t.dev.burl.scs, sas := t.dev.burl.sas }))
    ∧ (∀ (s : State) (d : CmdDesc) (c : SecChannel),
      s.starts d 0x40 34 0x13 [0x3000001FF, 0, 0, 0, 0] = true →
      s.dev.sc (fld d.p8 8 0) = some c →
      c.tx = true →
      (c.sas.get none (fld d.p8 33 32)).isSome = true →
      Completes (.saSelect d) s (fun t =>
        t.dev.sc (fld d.p8 8 0) = some { c with enc := some (fld d.p8 33 32) } ∧ s.completes d [.burl] [] t ∧ s.dev.basjo.answers d
          stOk 0 0 t.dev.basjo ∧ (∀ x, x ≠ fld d.p8 8 0 → t.dev.sc x = s.dev.sc x) ∧ t.dev.burl =
          { s.dev.burl with scs := t.dev.burl.scs }))
    ∧ (∀ (s : State) (d : CmdDesc) (x : SecAssoc) (c : SecChannel),
      s.starts d 0x40 34 0x14 [0x3FF, 0, 0, 0, 0] = true →
      s.dev.sa (fld d.p8 9 0) = some x →
      s.dev.sc x.sc = some c →
      s.dev.saIdle (fld d.p8 9 0) = true →
      Completes (.saClear d) s (fun t =>
        t.dev.sa (fld d.p8 9 0) = none ∧ t.dev.sc x.sc = some
          { c with sas := c.sas.put none x.an none, enc := if c.enc = some x.an then none else c.enc } ∧ s.completes d [.burl] [] t
          ∧ s.dev.basjo.answers d stOk 0 0 t.dev.basjo ∧ (∀ y, y ≠ fld d.p8 9 0 → t.dev.sa y = s.dev.sa y) ∧ t.dev.burl =
          { s.dev.burl with scs := t.dev.burl.scs, sas := t.dev.burl.sas }))
    ∧ (∀ (s : State) (d : CmdDesc) (x : SecAssoc),
      s.starts d 0x40 34 0x15 [0x3FF, 0, 0, 0, 0] = true →
      s.dev.sa (fld d.p8 9 0) = some x →
      Completes (.saRead d) s (fun t =>
        s.completes d [] [] t ∧ s.dev.basjo.answers d stOk x.frames.toNat x.pn t.dev.basjo))
    ∧ (∀ (s : State) (d : CmdDesc) (x : SecAssoc) (c : SecChannel),
      s.starts d 0x40 34 0x14 [0x3FF, 0, 0, 0, 0] = true →
      s.dev.sa (fld d.p8 9 0) = some x →
      s.dev.sc x.sc = some c →
      s.dev.saIdle (fld d.p8 9 0) = false →
      Completes (.saClear d) s (fun t =>
        t.dev.sa (fld d.p8 9 0) = some x ∧ t.dev.sc x.sc = some
          { c with sas := c.sas.put none x.an none, enc := if c.enc = some x.an then none else c.enc } ∧ t.dev.burl.clears =
          s.dev.burl.clears ++ [⟨[fld d.p8 9 0], d, 0x14⟩] ∧ t.dev.basjo = s.dev.basjo.setRing d.host.val d.ring.val
          { s.dev.basjo.ring d.host.val d.ring.val with running := some ⟨d, 0x14, s.dev.now⟩ } ∧ s.keeps [.burl, .basjo, .clocks] t
          ∧ t.dev.burl = { s.dev.burl with scs := t.dev.burl.scs, clears := t.dev.burl.clears }))
    ∧ (∀ (s : State) (d : CmdDesc),
      s.starts d 0x40 34 0x14 [0x3FF, 0, 0, 0, 0] = true →
      s.dev.sa (fld d.p8 9 0) = none →
      Completes (.saClear d) s (fun t =>
        s.completes d [] [] t ∧ s.dev.basjo.answers d stNotFound 0 0 t.dev.basjo))
    ∧ (∀ (s : State) (d : CmdDesc),
      s.starts d 0x40 34 0x10 [0x3F000311FF, all64, 0, 0, 0] = true →
      35 < fld d.p8 37 32 ∨ portPresent s.dev.variant (fld d.p8 37 32) = false →
      Completes (.scSet d) s (fun t =>
        s.completes d [] [] t ∧ s.dev.basjo.answers d stBadParam 0 0 t.dev.basjo))
    ∧ (∀ (s : State) (d : CmdDesc) (c : SecChannel),
      s.starts d 0x40 34 0x12 [0x3FF0301FF03FF, all64, all64, all64, 0] = true →
      s.dev.sc (fld d.p8 24 16) = some c →
      d.p16.toNat = 0 ∨ pnMax c.xpn ≤ d.p16.toNat →
      Completes (.saInstall d) s (fun t =>
        s.completes d [] [] t ∧ s.dev.basjo.answers d stBadParam 0 0 t.dev.basjo))

/-- Host cipher jobs write what their algorithm gives. Rests on R367, R368, R369, R370, R371. -/
def Obligations.CipherJobsRun : Prop :=
    (∀ (s : State) (d : CmdDesc) (mem : HostData) (out : List (BitVec 8)),
      s.starts d 0x40 0xFF 1 [all64, all64, 0xFFFFFFFFFF0F03FF, all64, 0xFFFFFFFF] = true →
      fld d.p24 9 0 ≤ 575 →
      Job.lengthsOk .gcmEnc (fld d.p24 39 24) (fld d.p24 19 16) = true →
      s.dev.mayUse (fld d.p24 9 0) uEncrypt d.origin = true →
      mem.err = false →
      d.p32 = 0 →
      d.p40 = 0 →
      (s.dev.slot (fld d.p24 9 0)).invocation ≠ 2 ^ 64 - 1 →
      fld d.p24 39 24 + fld d.p24 63 40 + 0 ≤ mem.octets.length →
      Job.output .gcmEnc (s.dev.slot (fld d.p24 9 0)).octets (beBytes 4 (s.dev.slot (fld d.p24 9 0)).nonceFixed.toNat ++ beBytes 8
        (s.dev.slot (fld d.p24 9 0)).invocation) (mem.octets.take (fld d.p24 39 24)) ((mem.octets.drop (fld d.p24 39 24)).take (fld
        d.p24 63 40)) ((mem.octets.drop (fld d.p24 39 24 + fld d.p24 63 40)).take (fld d.p24 19 16 + 1)) (fld d.p24 19 16 + 1) =
        some out →
      Completes (.gcmEncrypt d mem .whole) s (fun t =>
        s.dev.basjo.wrote d d.p16.toNat out t.dev.basjo ∧ t.dev.reg (burlReg 0x10) = satAdd (s.dev.reg (burlReg 0x10)) 1 ∧
          t.dev.slot (fld d.p24 9 0) =
          { (s.dev.slot (fld d.p24 9 0)) with invocation := (s.dev.slot (fld d.p24 9 0)).invocation + 1 } ∧ s.keeps [.regs, .basjo,
          .clocks, .burl] t ∧ s.dev.regsKeep [burlReg 0x10, burlReg 0x4014] t.dev ∧ (∀ m, m ≠ fld d.p24 9 0 → t.dev.slot m =
          s.dev.slot m) ∧ s.dev.basjo.answers d stOk (s.dev.slot (fld d.p24 9 0)).nonceFixed.toNat (s.dev.slot (fld d.p24 9
          0)).invocation t.dev.basjo))
    ∧ (∀ (s : State) (d : CmdDesc) (mem : HostData) (out : List (BitVec 8)),
      s.starts d 0x40 0xFF 2 [all64, all64, 0xFFFFFFFFFF0F03FF, all64, 0xFFFFFFFF] = true →
      fld d.p24 9 0 ≤ 575 →
      Job.lengthsOk .gcmDec (fld d.p24 39 24) (fld d.p24 19 16) = true →
      s.dev.mayUse (fld d.p24 9 0) uDecrypt d.origin = true →
      mem.err = false →
      fld d.p24 63 40 ≤ 65536 →
      fld d.p24 39 24 + fld d.p24 63 40 + fld d.p24 19 16 + 1 ≤ mem.octets.length →
      Job.output .gcmDec (s.dev.slot (fld d.p24 9 0)).octets (beBytes 4 (fld d.p40 31 0) ++ beBytes 8 d.p32.toNat) (mem.octets.take
        (fld d.p24 39 24)) ((mem.octets.drop (fld d.p24 39 24)).take (fld d.p24 63 40)) ((mem.octets.drop (fld d.p24 39 24 + fld
        d.p24 63 40)).take (fld d.p24 19 16 + 1)) (fld d.p24 19 16 + 1) = some out →
      Completes (.gcmDecrypt d mem .whole) s (fun t =>
        s.dev.basjo.wrote d d.p16.toNat out t.dev.basjo ∧ t.dev.reg (burlReg 0x10) = satAdd (s.dev.reg (burlReg 0x10)) 1 ∧ s.keeps
          [.regs, .basjo, .clocks, .burl] t ∧ s.dev.regsKeep [burlReg 0x10, burlReg 0x4014] t.dev ∧ (∀ m, m ≠ fld d.p24 9 0 →
          t.dev.slot m = s.dev.slot m) ∧ s.dev.basjo.answers d stOk 0 0 t.dev.basjo))
    ∧ (∀ (s : State) (d : CmdDesc) (mem : HostData) (out : List (BitVec 8)),
      s.starts d 0x40 0xFF 3 [all64, all64, 0xFFFFFFFFFF0F03FF, all64, 0xFFFFFFFF] = true →
      fld d.p24 9 0 ≤ 575 →
      Job.lengthsOk .ctrEnc (fld d.p24 39 24) (fld d.p24 19 16) = true →
      s.dev.mayUse (fld d.p24 9 0) uEncrypt d.origin = true →
      mem.err = false →
      d.p32 = 0 →
      d.p40 = 0 →
      (s.dev.slot (fld d.p24 9 0)).invocation ≠ 2 ^ 64 - 1 →
      fld d.p24 39 24 + fld d.p24 63 40 + 0 ≤ mem.octets.length →
      Job.output .ctrEnc (s.dev.slot (fld d.p24 9 0)).octets (beBytes 4 (s.dev.slot (fld d.p24 9 0)).nonceFixed.toNat ++ beBytes 8
        (s.dev.slot (fld d.p24 9 0)).invocation) (mem.octets.take (fld d.p24 39 24)) ((mem.octets.drop (fld d.p24 39 24)).take (fld
        d.p24 63 40)) ((mem.octets.drop (fld d.p24 39 24 + fld d.p24 63 40)).take (fld d.p24 19 16 + 1)) (fld d.p24 19 16 + 1) =
        some out →
      Completes (.ctrEncrypt d mem .whole) s (fun t =>
        s.dev.basjo.wrote d d.p16.toNat out t.dev.basjo ∧ t.dev.reg (burlReg 0x10) = satAdd (s.dev.reg (burlReg 0x10)) 1 ∧
          t.dev.slot (fld d.p24 9 0) =
          { (s.dev.slot (fld d.p24 9 0)) with invocation := (s.dev.slot (fld d.p24 9 0)).invocation + 1 } ∧ s.keeps [.regs, .basjo,
          .clocks, .burl] t ∧ s.dev.regsKeep [burlReg 0x10, burlReg 0x4014] t.dev ∧ (∀ m, m ≠ fld d.p24 9 0 → t.dev.slot m =
          s.dev.slot m) ∧ s.dev.basjo.answers d stOk (s.dev.slot (fld d.p24 9 0)).nonceFixed.toNat (s.dev.slot (fld d.p24 9
          0)).invocation t.dev.basjo))
    ∧ (∀ (s : State) (d : CmdDesc) (mem : HostData) (out : List (BitVec 8)),
      s.starts d 0x40 0xFF 4 [all64, all64, 0xFFFFFFFFFF0F03FF, all64, 0xFFFFFFFF] = true →
      fld d.p24 9 0 ≤ 575 →
      Job.lengthsOk .ctrDec (fld d.p24 39 24) (fld d.p24 19 16) = true →
      s.dev.mayUse (fld d.p24 9 0) uDecrypt d.origin = true →
      mem.err = false →
      fld d.p24 39 24 + fld d.p24 63 40 + 0 ≤ mem.octets.length →
      Job.output .ctrDec (s.dev.slot (fld d.p24 9 0)).octets (beBytes 4 (fld d.p40 31 0) ++ beBytes 8 d.p32.toNat) (mem.octets.take
        (fld d.p24 39 24)) ((mem.octets.drop (fld d.p24 39 24)).take (fld d.p24 63 40)) ((mem.octets.drop (fld d.p24 39 24 + fld
        d.p24 63 40)).take (fld d.p24 19 16 + 1)) (fld d.p24 19 16 + 1) = some out →
      Completes (.ctrDecrypt d mem .whole) s (fun t =>
        s.dev.basjo.wrote d d.p16.toNat out t.dev.basjo ∧ t.dev.reg (burlReg 0x10) = satAdd (s.dev.reg (burlReg 0x10)) 1 ∧ s.keeps
          [.regs, .basjo, .clocks, .burl] t ∧ s.dev.regsKeep [burlReg 0x10, burlReg 0x4014] t.dev ∧ (∀ m, m ≠ fld d.p24 9 0 →
          t.dev.slot m = s.dev.slot m) ∧ s.dev.basjo.answers d stOk 0 0 t.dev.basjo))
    ∧ (∀ (s : State) (d : CmdDesc) (mem : HostData) (out : List (BitVec 8)),
      s.starts d 0x40 0xFF 5 [all64, all64, 0xFFFFFFFFFF0F03FF, all64, 0xFFFFFFFF] = true →
      fld d.p24 9 0 ≤ 575 →
      Job.lengthsOk .cmacGen (fld d.p24 39 24) (fld d.p24 19 16) = true →
      s.dev.mayUse (fld d.p24 9 0) uEncrypt d.origin = true →
      mem.err = false →
      d.p32 = 0 →
      d.p40 = 0 →
      fld d.p24 39 24 + fld d.p24 63 40 + 0 ≤ mem.octets.length →
      Job.output .cmacGen (s.dev.slot (fld d.p24 9 0)).octets (beBytes 4 (fld d.p40 31 0) ++ beBytes 8 d.p32.toNat) (mem.octets.take
        (fld d.p24 39 24)) ((mem.octets.drop (fld d.p24 39 24)).take (fld d.p24 63 40)) ((mem.octets.drop (fld d.p24 39 24 + fld
        d.p24 63 40)).take (fld d.p24 19 16 + 1)) (fld d.p24 19 16 + 1) = some out →
      Completes (.cmacGenerate d mem .whole) s (fun t =>
        s.dev.basjo.wrote d d.p16.toNat out t.dev.basjo ∧ t.dev.reg (burlReg 0x10) = satAdd (s.dev.reg (burlReg 0x10)) 1 ∧ s.keeps
          [.regs, .basjo, .clocks, .burl] t ∧ s.dev.regsKeep [burlReg 0x10, burlReg 0x4014] t.dev ∧ (∀ m, m ≠ fld d.p24 9 0 →
          t.dev.slot m = s.dev.slot m) ∧ s.dev.basjo.answers d stOk 0 0 t.dev.basjo))
    ∧ (∀ (s : State) (d : CmdDesc) (mem : HostData) (out : List (BitVec 8)),
      s.starts d 0x40 0xFF 6 [all64, all64, 0xFFFFFFFFFF0F03FF, all64, 0xFFFFFFFF] = true →
      fld d.p24 9 0 ≤ 575 →
      Job.lengthsOk .cmacVer (fld d.p24 39 24) (fld d.p24 19 16) = true →
      s.dev.mayUse (fld d.p24 9 0) uDecrypt d.origin = true →
      mem.err = false →
      d.p32 = 0 →
      d.p40 = 0 →
      fld d.p24 39 24 + fld d.p24 63 40 + fld d.p24 19 16 + 1 ≤ mem.octets.length →
      Job.output .cmacVer (s.dev.slot (fld d.p24 9 0)).octets (beBytes 4 (fld d.p40 31 0) ++ beBytes 8 d.p32.toNat) (mem.octets.take
        (fld d.p24 39 24)) ((mem.octets.drop (fld d.p24 39 24)).take (fld d.p24 63 40)) ((mem.octets.drop (fld d.p24 39 24 + fld
        d.p24 63 40)).take (fld d.p24 19 16 + 1)) (fld d.p24 19 16 + 1) = some out →
      Completes (.cmacVerify d mem .whole) s (fun t =>
        s.dev.basjo.wrote d d.p16.toNat out t.dev.basjo ∧ t.dev.reg (burlReg 0x10) = satAdd (s.dev.reg (burlReg 0x10)) 1 ∧ s.keeps
          [.regs, .basjo, .clocks, .burl] t ∧ s.dev.regsKeep [burlReg 0x10, burlReg 0x4014] t.dev ∧ (∀ m, m ≠ fld d.p24 9 0 →
          t.dev.slot m = s.dev.slot m) ∧ s.dev.basjo.answers d stOk 0 0 t.dev.basjo))
    ∧ (∀ (s : State) (d : CmdDesc) (mem : HostData),
      s.starts d 0x40 0xFF 2 [all64, all64, 0xFFFFFFFFFF0F03FF, all64, 0xFFFFFFFF] = true →
      fld d.p24 9 0 ≤ 575 →
      Job.lengthsOk .gcmDec (fld d.p24 39 24) (fld d.p24 19 16) = true →
      fld d.p24 63 40 ≤ 65536 →
      s.dev.mayUse (fld d.p24 9 0) uDecrypt d.origin = true →
      mem.err = false →
      fld d.p24 39 24 + fld d.p24 63 40 + fld d.p24 19 16 + 1 ≤ mem.octets.length →
      Job.output .gcmDec (s.dev.slot (fld d.p24 9 0)).octets (beBytes 4 (fld d.p40 31 0) ++ beBytes 8 d.p32.toNat) (mem.octets.take
        (fld d.p24 39 24)) ((mem.octets.drop (fld d.p24 39 24)).take (fld d.p24 63 40)) ((mem.octets.drop (fld d.p24 39 24 + fld
        d.p24 63 40)).take (fld d.p24 19 16 + 1)) (fld d.p24 19 16 + 1) = none →
      Completes (.gcmDecrypt d mem .whole) s (fun t =>
        t.dev.reg (burlReg 0x14) = satAdd (s.dev.reg (burlReg 0x14)) 1 ∧ s.completes d [] [burlReg 0x14] t ∧ s.dev.basjo.answers d
          stAuthFail 0 0 t.dev.basjo))
    ∧ (∀ (s : State) (d : CmdDesc) (mem : HostData) (e : JobEnd),
      s.starts d 0x40 0xFF 4 [all64, all64, 0xFFFFFFFFFF0F03FF, all64, 0xFFFFFFFF] = true →
      575 < fld d.p24 9 0 ∨ Job.lengthsOk .ctrDec (fld d.p24 39 24) (fld d.p24 19 16) = false →
      Completes (.ctrDecrypt d mem e) s (fun t =>
        s.completes d [] [] t ∧ s.dev.basjo.answers d stBadParam 0 0 t.dev.basjo))
    ∧ (∀ (s : State) (d : CmdDesc) (mem : HostData) (e : JobEnd),
      s.starts d 0x40 0xFF 4 [all64, all64, 0xFFFFFFFFFF0F03FF, all64, 0xFFFFFFFF] = true →
      fld d.p24 9 0 ≤ 575 →
      Job.lengthsOk .ctrDec (fld d.p24 39 24) (fld d.p24 19 16) = true →
      (s.dev.slot (fld d.p24 9 0)).state ≠ 1 →
      Completes (.ctrDecrypt d mem e) s (fun t =>
        t.dev.reg (burlReg 0x4024) = satAdd (s.dev.reg (burlReg 0x4024)) 1 ∧ s.completes d [] [burlReg 0x4024] t ∧
          s.dev.basjo.answers d 0x40 0 0 t.dev.basjo))
    ∧ (∀ (s : State) (d : CmdDesc) (mem : HostData) (n : Nat),
      s.starts d 0x40 0xFF 4 [all64, all64, 0xFFFFFFFFFF0F03FF, all64, 0xFFFFFFFF] = true →
      fld d.p24 9 0 ≤ 575 →
      Job.lengthsOk .ctrDec (fld d.p24 39 24) (fld d.p24 19 16) = true →
      s.dev.mayUse (fld d.p24 9 0) uDecrypt d.origin = true →
      Completes (.ctrDecrypt d mem (.cut n)) s (fun t =>
        s.keeps [.regs, .basjo, .audit, .clocks] t ∧ s.dev.basjo.answers d stDmaErr 0 0 t.dev.basjo))

/-- GET_STATUS to READ_EVLOG answer as R408 says. Rests on R406, R407, R408, R418, R425, R441. -/
def Obligations.MailboxAnswersStatusAndRecords : Prop :=
    (∀ (s : State) (b : HwBatch),
      s.asks 1 0 = true →
      s.heart.batches.getLast? = some b →
      b.closed = false →
      Completes (.getStatus .serve) s (fun t =>
        s.heart.answers [] stOk (leBytes 4 (s.heart.reg 0x80).toNat ++ leBytes 8 s.heart.nextSeq ++ leBytes 8 s.heart.cum ++ leBytes
          8 b.firstSeq ++ leBytes 4 (s.heart.reg 0x88).toNat) t.heart ∧ t.heart = { s.heart with regs := t.heart.regs } ∧ s.served
          t))
    ∧ (∀ (s : State),
      s.asks 1 0 = true →
      s.heart.batches = [] →
      Completes (.getStatus .serve) s (fun t =>
        s.heart.answers [] stOk (leBytes 4 (s.heart.reg 0x80).toNat ++ leBytes 8 s.heart.nextSeq ++ leBytes 8 s.heart.cum ++ leBytes
          8 s.heart.nextSeq ++ leBytes 4 (s.heart.reg 0x88).toNat) t.heart ∧ t.heart = { s.heart with regs := t.heart.regs } ∧
          s.served t))
    ∧ (∀ (s : State) (a : Acc) (w : BitVec 32) (ws : List (BitVec 32)),
      s.hwOn = true →
      s.dev.rb (sapReg 4) 0 = false →
      s.opens a 0x5800A0 = true →
      s.heart.busy = false →
      ws.length ≤ 63 →
      fld w 31 16 = 0 →
      Completes (.getStatus (.issue a (w :: ws))) s (fun t =>
        t.heart.busy = false ∧ t.heart.rb 0xA4 1 = true ∧ t.heart.reg 0x100 = setFld w 7 0 1 ∧ (∀ k, k < ws.length → t.heart.reg
          (0x104 + 4 * k) = ws.getD k 0) ∧ fld (t.heart.reg 0xA4) 31 24 = stOk ∧ fld (t.heart.reg 0xA4) 23 8 = 32 ∧ t.heart.rspOctet
          4 = BitVec.ofNat 8 s.heart.nextSeq ∧ s.dev.keeps [.audit, .out, .basjo, .sap, .regs] t.dev ∧ s.dev.regsKeep [sapReg 4]
          t.dev ∧ s.dev.basjo.eventsOnly t.dev.basjo ∧ t.pending = s.pending ∧ t.dev.sap =
          { s.dev.sap with timeouts := 0, last := some ⟨true, false, 0⟩ } ∧ t.dev.out = .irq "IRQ_H2M" 0 :: s.dev.out ∧ t.heart =
          { s.heart with regs := t.heart.regs }))
    ∧ (∀ (s : State) (b : HwBatch) (tr : List (BitVec 8)),
      s.asks 2 9 = true →
      s.heart.batches.find? (fun x => x.number = (prm s.heart.params 0 8)) = some b →
      b.closed = true →
      b.trailer = some tr →
      4096 * (prm s.heart.params 8 1) < 64 * b.recs.length + tr.length →
      Completes (.readBatch .serve) s (fun t =>
        s.heart.answers [] stOk (((b.recs.flatMap (fun r => leBytes 64 r.toNat) ++ tr).drop (4096 * (prm s.heart.params 8 1))).take
          4096) t.heart ∧ t.heart = { s.heart with regs := t.heart.regs } ∧ s.served t))
    ∧ (∀ (s : State),
      s.asks 3 8 = true →
      (prm s.heart.params 0 8) < s.heart.nextBatch →
      s.heart.batches.all (fun b => b.closed || decide (b.number ≠ (prm s.heart.params 0 8))) = true →
      Completes (.ackBatch .serve) s (fun t =>
        s.heart.answers [] stOk [] t.heart ∧ t.heart =
          { s.heart with regs := t.heart.regs, batches := s.heart.batches.map (fun b => if b.number ≤ (prm s.heart.params 0 8) then { b with acked := true } else b) }
          ∧ s.served t))
    ∧ (∀ (s : State),
      s.asks 4 0 = true →
      s.heart.keys = true →
      Completes (.getPubkey .serve) s (fun t =>
        s.heart.answers [] stOk (edPubOctets (hwSeed 0) ++ mldsaPubOctets (hwSeed 1)) t.heart ∧ t.heart =
          { s.heart with regs := t.heart.regs } ∧ s.served t))
    ∧ (∀ (s : State) (w : BitVec 64),
      s.asks 5 9 = true →
      ((prm s.heart.params 8 1)).testBit 0 = true →
      s.heart.time ≤ w.toNat →
      w.toNat < s.heart.secondEndAt →
      Completes (.timeMsg .serve w) s (fun t =>
        s.heart.answers [] stOk [] t.heart ∧ t.heart =
          { s.heart with regs := t.heart.regs, time := w.toNat, wt := { s.heart.wt with msg := some ((prm s.heart.params 0 8), w.toNat) } }
          ∧ s.served t))
    ∧ (∀ (s : State) (w : BitVec 64),
      s.asks 5 9 = true →
      ((prm s.heart.params 8 1)).testBit 0 = false →
      s.heart.time ≤ w.toNat →
      w.toNat < s.heart.secondEndAt →
      s.heart.rb 0x80 5 = true →
      Completes (.timeMsg .serve w) s (fun t =>
        s.heart.answers [0x80] stOk [] t.heart ∧ t.heart.reg 0x80 = setBit (s.heart.reg 0x80) 5 false ∧ t.heart =
          { s.heart with regs := t.heart.regs, time := w.toNat, wt := ⟨none, none, false⟩, events := s.heart.events ++ [(7, 0)] } ∧
          s.served t))
    ∧ (∀ (s : State) (e : List (BitVec 8)),
      s.asks 6 2 = true →
      s.heart.evlog[(prm s.heart.params 0 2)]? = some e →
      Completes (.readEvlog .serve) s (fun t =>
        s.heart.answers [] stOk e t.heart ∧ t.heart = { s.heart with regs := t.heart.regs } ∧ s.served t))
    ∧ (∀ (s : State),
      s.asks 12 0 = true →
      s.heart.cal.mode = 2 →
      Completes (.getLink .serve) s (fun t =>
        s.heart.answers [] stOk (s.heart.link0.octets ++ s.heart.link1.octets) t.heart ∧ t.heart =
          { s.heart with regs := t.heart.regs } ∧ s.served t))
    ∧ (∀ (s : State),
      s.asks 12 0 = true →
      s.heart.cal.mode ≠ 2 →
      Completes (.getLink .serve) s (fun t =>
        s.heart.answers [] stOk (s.heart.link0.octets ++ List.replicate 32 0) t.heart ∧ t.heart =
          { s.heart with regs := t.heart.regs } ∧ s.served t))
    ∧ (∀ (s : State) (b : HwBatch),
      s.asks 1 0 = true →
      s.heart.batches.getLast? = some b →
      b.closed = true →
      Completes (.getStatus .serve) s (fun t =>
        s.heart.answers [] stOk (leBytes 4 (s.heart.reg 0x80).toNat ++ leBytes 8 s.heart.nextSeq ++ leBytes 8 s.heart.cum ++ leBytes
          8 s.heart.nextSeq ++ leBytes 4 (s.heart.reg 0x88).toNat) t.heart ∧ t.heart = { s.heart with regs := t.heart.regs } ∧
          s.served t))
    ∧ (∀ (s : State),
      s.heart.busy = false →
      Completes (.getStatus .serve) s (fun t =>
        t = s))
    ∧ (∀ (s : State) (a : Acc) (ws : List (BitVec 32)),
      s.hwOn = true →
      s.dev.rb (sapReg 4) 0 = false →
      s.opens a 0x5800A0 = true →
      s.heart.busy = true →
      Completes (.getStatus (.issue a ws)) s (fun t =>
        t.heart.reg 0xA4 = setBit (s.heart.reg 0xA4) 2 true ∧ s.dev.keeps [.audit, .basjo, .sap, .regs] t.dev ∧ s.dev.regsKeep
          [sapReg 4] t.dev ∧ s.dev.basjo.eventsOnly t.dev.basjo ∧ t.pending = s.pending ∧ t.dev.sap =
          { s.dev.sap with timeouts := 0, last := some ⟨true, false, 0⟩ } ∧ t.heart = { s.heart with regs := t.heart.regs }))
    ∧ (∀ (s : State) (a : Acc) (ws : List (BitVec 32)),
      s.hwOn = true →
      s.dev.rb (sapReg 4) 0 = true →
      s.opens a 0x5800A0 = true →
      Completes (.getStatus (.issue a ws)) s (fun t =>
        t.dev.sap = { s.dev.sap with last := some ⟨false, false, 0⟩, failed := 0x5800A0 } ∧ t.heart = s.heart ∧ s.keeps [.audit,
          .basjo, .sap] t ∧ s.dev.basjo.eventsOnly t.dev.basjo))
    ∧ (∀ (s : State),
      s.asks 2 9 = true →
      s.heart.batches.find? (fun x => x.number = (prm s.heart.params 0 8)) = none →
      (prm s.heart.params 0 8) < s.heart.nextBatch →
      Completes (.readBatch .serve) s (fun t =>
        s.heart.answers [] 0x40 [] t.heart ∧ t.heart = { s.heart with regs := t.heart.regs } ∧ s.served t))
    ∧ (∀ (s : State) (b : HwBatch),
      s.asks 2 9 = true →
      s.heart.batches.find? (fun x => x.number = (prm s.heart.params 0 8)) = some b →
      b.closed = true →
      b.trailer = none →
      Completes (.readBatch .serve) s (fun t =>
        s.heart.answers [] 0x41 [] t.heart ∧ t.heart = { s.heart with regs := t.heart.regs } ∧ s.served t))
    ∧ (∀ (s : State),
      s.asks 3 8 = true →
      s.heart.nextBatch ≤ (prm s.heart.params 0 8) →
      Completes (.ackBatch .serve) s (fun t =>
        s.heart.answers [] stNotFound [] t.heart ∧ t.heart = { s.heart with regs := t.heart.regs } ∧ s.served t))
    ∧ (∀ (s : State),
      s.asks 6 2 = true →
      s.heart.evlog.length ≤ (prm s.heart.params 0 2) →
      Completes (.readEvlog .serve) s (fun t =>
        s.heart.answers [] stNotFound [] t.heart ∧ t.heart = { s.heart with regs := t.heart.regs } ∧ s.served t))

/-- STAGE_WRITE to HW_COMMIT act as R408, R409, R424 and R562 say. Rests on R408, R409, R424, R425, R545, R562. -/
def Obligations.MailboxStagesCalibratesAndActivates : Prop :=
    (∀ (s : State) (n : Nat),
      s.asks 7 n = true →
      4 ≤ n →
      n ≤ 252 →
      (prm s.heart.params 0 4) + (n - 4) ≤ 65536 →
      Completes (.stageWrite .serve) s (fun t =>
        s.heart.answers [] stOk [] t.heart ∧ (∀ k, t.heart.staging.get 0 k = if (prm s.heart.params 0 4) ≤ k ∧ k < (prm
          s.heart.params 0 4) + (n - 4) then s.heart.params.getD (4 + (k - (prm s.heart.params 0 4))) 0 else s.heart.staging.get 0
          k) ∧ t.heart = { s.heart with regs := t.heart.regs, staging := t.heart.staging } ∧ s.served t))
    ∧ (∀ (s : State) (ok : Bool),
      s.asks 8 4 = true →
      (prm s.heart.params 0 4) ≤ 65536 →
      s.heart.rb 0x80 15 = false →
      s.heart.calNext = [] →
      s.heart.rf 0x8C 10 0 + calEntries (getOctets s.heart.staging 0 (prm s.heart.params 0 4)) ≤ 1024 →
      (s.heart.reg 0x88).toNat < 0xFFFFFFFF →
      ((getOctets s.heart.staging 0 (prm s.heart.params 0 4)).drop 8).take 8 = hwUidBytes →
      msgNat (getOctets s.heart.staging 0 (prm s.heart.params 0 4)) 16 4 = (s.heart.reg 0x88).toNat + 1 →
      calInRange (getOctets s.heart.staging 0 (prm s.heart.params 0 4)) = true →
      ((msgNat (getOctets s.heart.staging 0 (prm s.heart.params 0 4)) 33 1).testBit 0 = false ∨ (keyUnwrap Config.transportKey
        (((getOctets s.heart.staging 0 (prm s.heart.params 0 4)).drop 40).take 40)).isSome = true) →
      ok = s.heart.calVerified (getOctets s.heart.staging 0 (prm s.heart.params 0 4)) →
      Completes (.calibrate .serve) s (fun t =>
        s.heart.answers [] (if ok then stOk else stAuthFail) [] t.heart ∧ t.heart =
          { s.heart with regs := t.heart.regs, calNext := if ok then [(getOctets s.heart.staging 0 (prm s.heart.params 0 4))] else [] }
          ∧ s.served t))
    ∧ (∀ (s : State),
      s.asks 9 8 = true →
      (prm s.heart.params 0 4) + (prm s.heart.params 4 4) ≤ 917504 →
      (prm s.heart.params 4 4) ≤ 65536 →
      Completes (.imageWrite .serve) s (fun t =>
        s.heart.answers [] stOk [] t.heart ∧ (∀ k, t.heart.image.get 0 k = if (1 - s.heart.slot) * 2 ^ 20 + (prm s.heart.params 0 4)
          ≤ k ∧ k < (1 - s.heart.slot) * 2 ^ 20 + (prm s.heart.params 0 4) + (prm s.heart.params 4 4) then s.heart.staging.get 0 (k
          - ((1 - s.heart.slot) * 2 ^ 20 + (prm s.heart.params 0 4))) else s.heart.image.get 0 k) ∧ t.heart =
          { s.heart with regs := t.heart.regs, image := t.heart.image, checked := none } ∧ s.served t))
    ∧ (∀ (s : State) (img : List (BitVec 8)) (ok : Bool),
      s.asks 10 4 = true →
      (prm s.heart.params 0 4) ≤ 917504 →
      img = s.heart.inactive (prm s.heart.params 0 4) →
      img.take 8 = ascii "TLTRIMG1" →
      msgNat img 8 1 = 3 →
      msgNat img 12 2 ≠ 0 →
      ((msgNat img 9 1).testBit 0 = false ∨ (img.drop 24).take 8 = hwUidBytes) →
      imageWhole img = true →
      (s.heart.reg 0x14).toNat ≤ msgNat img 11 1 →
      s.heart.rb 0x80 15 = false →
      (s.heart.reg 0x84).toNat < 0xFFFFFFFF →
      ok = (vendorSigned (img.take 4096) (img.drop ((prm s.heart.params 0 4) - 4096)) && Config.authorityVerify
        (s.heart.authority.getD Config.authorityKeys) img) →
      Completes (.imageCheck .serve) s (fun t =>
        s.heart.answers [] (if ok then stOk else stAuthFail) [] t.heart ∧ t.heart =
          { s.heart with regs := t.heart.regs, checked := if ok then some (prm s.heart.params 0 4) else s.heart.checked } ∧ s.served
          t))
    ∧ (∀ (s : State),
      s.asks 11 32 = true →
      Completes (.hwAttest .serve) s (fun t =>
        s.heart.answers [] stOk ((ascii "TLTRATT1" ++ leBytes 4 (regReset .m 0).toNat ++ [BitVec.ofNat 8 s.heart.life] ++ zeros 3 ++
          hwUidBytes ++ leBytes 8 s.heart.time ++ s.heart.params.take 32 ++ s.heart.lrChecksum) ++ signBoth (hwSeed 0) (hwSeed 1)
          s.heart.drawNo (ascii "TLTRATT1" ++ leBytes 4 (regReset .m 0).toNat ++ [BitVec.ofNat 8 s.heart.life] ++ zeros 3 ++
          hwUidBytes ++ leBytes 8 s.heart.time ++ s.heart.params.take 32 ++ s.heart.lrChecksum)) t.heart ∧ t.heart =
          { s.heart with regs := t.heart.regs } ∧ s.served t))
    ∧ (∀ (s : State) (len : Nat),
      s.asks 13 64 = true →
      s.heart.checked = some len →
      Completes (.hwPrepare .serve) s (fun t =>
        s.heart.answers [] stOk [] t.heart ∧ t.heart =
          { s.heart with regs := t.heart.regs, prepared := some (s.heart.params.take 64) } ∧ s.served t))
    ∧ (∀ (s : State) (len : Nat) (img : List (BitVec 8)),
      s.asks 14 64 = true →
      s.heart.prepared = some (s.heart.params.take 64) →
      s.heart.checked = some len →
      s.heart.rb 0x80 15 = false →
      (s.heart.reg 0x84).toNat < 0xFFFFFFFF →
      s.heart.rf 0x8C 10 0 < 1024 →
      img = s.heart.inactive len →
      Completes (.hwCommit .serve) s (fun t =>
        s.heart.answers ([0, 4, 8, 12, 0x10, 0x14, 0x18, 0x80, 0x84, 0x8C] ++ (List.range 16).map (fun k => 0x40 + 4 * k)) stOk []
          t.heart ∧ t.heart.reg 0x84 = s.heart.reg 0x84 + 1 ∧ t.heart.reg 0x18 = BitVec.ofNat 32 (1 - s.heart.slot) ∧
          t.heart.lrChecksum = sha512 img ∧ t.heart.reg 0x10 = BitVec.ofNat 32 (msgNat img 20 4) ∧ t.heart.reg 0x14 = BitVec.ofNat
          32 (msgNat img 11 1) ∧ t.heart.rf 0x8C 10 0 = s.heart.rf 0x8C 10 0 + 1 ∧ t.heart.evlog.length = s.heart.evlog.length + 1 ∧
          t.heart =
          { s.heart with regs := t.heart.regs, prepared := none, checked := none, committed := some (s.heart.params.take 64), events := s.heart.events ++ [(5, (s.heart.reg 0x84).toNat + 1)], evlog := t.heart.evlog }
          ∧ s.served t))
    ∧ (∀ (s : State) (n : Nat),
      s.asks 7 n = true →
      n < 4 ∨ 252 < n →
      Completes (.stageWrite .serve) s (fun t =>
        s.heart.answers [] stBadParam [] t.heart ∧ t.heart = { s.heart with regs := t.heart.regs } ∧ s.served t))
    ∧ (∀ (s : State),
      s.asks 8 4 = true →
      s.heart.rb 0x80 15 = true →
      Completes (.calibrate .serve) s (fun t =>
        s.heart.answers [] stExhausted [] t.heart ∧ t.heart = { s.heart with regs := t.heart.regs } ∧ s.served t))
    ∧ (∀ (s : State),
      s.asks 9 8 = true →
      917504 < (prm s.heart.params 0 4) + (prm s.heart.params 4 4) ∨ 65536 < (prm s.heart.params 4 4) →
      Completes (.imageWrite .serve) s (fun t =>
        s.heart.answers [] stBadParam [] t.heart ∧ t.heart = { s.heart with regs := t.heart.regs } ∧ s.served t))
    ∧ (∀ (s : State),
      s.asks 13 64 = true →
      s.heart.checked = none →
      Completes (.hwPrepare .serve) s (fun t =>
        s.heart.answers [] stNotFound [] t.heart ∧ t.heart = { s.heart with regs := t.heart.regs } ∧ s.served t))
    ∧ (∀ (s : State),
      s.asks 14 64 = true →
      s.heart.prepared = some (s.heart.params.take 64) →
      s.heart.checked = none →
      Completes (.hwCommit .serve) s (fun t =>
        s.heart.answers [] stNotFound [] t.heart ∧ t.heart = { s.heart with regs := t.heart.regs } ∧ s.served t))
    ∧ (∀ (s : State),
      s.asks 14 64 = true →
      s.heart.prepared = none →
      s.heart.committed ≠ some (s.heart.params.take 64) →
      Completes (.hwCommit .serve) s (fun t =>
        s.heart.answers [] stNotFound [] t.heart ∧ t.heart = { s.heart with regs := t.heart.regs } ∧ s.served t))

/-- The end of a Heartwood second writes its INTERVAL record. Rests on R405, R411, R412, R413, R414, R419. -/
def Obligations.HeartwoodMeasuresEverySecond : Prop :=
    (∀ (s : State),
      s.hwOn = true →
      s.heart.source = 1 →
      s.heart.cal.kPulse ≠ 0 →
      s.heart.calNext = [] →
      s.heart.subA.length = 10 →
      s.heart.uncal = false →
      s.heart.cal.mode ≠ 2 →
      (s.heart.subA.foldl (· + ·) 0) ≤ 25000 →
      s.heart.pulsesB ≤ 25000 →
      s.heart.glitches ≤ 100 →
      (s.heart.cal.mode = 1 → (s.heart.subA.foldl (· + ·) 0) ≤ s.heart.pulsesB + 1 ∧ s.heart.pulsesB ≤ (s.heart.subA.foldl (· + ·)
        0) + 1) →
      Completes (.hwSecondEnd) s (fun t =>
        (∃ r, t.heart.holds r ∧ fld r 63 0 = s.heart.nextSeq % 2 ^ 64 ∧ fld r 127 64 = s.heart.secondEndAt % 2 ^ 64 ∧ fld r 271 264
          = 1 ∧ fld r 263 256 = 0 ∧ fld r 399 384 = min (s.heart.subA.foldl (· + ·) 0) 0xFFFF ∧ fld r 511 496 = min s.heart.pulsesB
          0xFFFF ∧ fld r 495 480 = min s.heart.glitches 0xFFFF ∧ fld r 223 192 = ((s.heart.subA.foldl (· + ·) 0) * 1000000 +
          s.heart.remPulse) / s.heart.cal.kPulse % 2 ^ 32 ∧ bit r 320 = false) ∧ t.heart.cum = s.heart.cum + ((s.heart.subA.foldl (·
          + ·) 0) * 1000000 + s.heart.remPulse) / s.heart.cal.kPulse ∧ t.heart.remPulse = ((s.heart.subA.foldl (· + ·) 0) * 1000000
          + s.heart.remPulse) % s.heart.cal.kPulse ∧ t.heart.time = s.heart.secondEndAt ∧ t.heart.subA = List.replicate 10 0 ∧
          t.heart.pulsesB = 0 ∧ t.heart.glitches = 0 ∧ t.heart.nextSource = none ∧ t.heart.calNext = [] ∧ s.heart.nextSeq <
          t.heart.nextSeq ∧ t.heart =
          { t.heart with on := s.heart.on, started := s.heart.started, link0Seen := s.heart.link0Seen, startDue := s.heart.startDue, keys := s.heart.keys, life := s.heart.life, asleep := s.heart.asleep, heldSource := s.heart.heldSource, staging := s.heart.staging, image := s.heart.image, checked := s.heart.checked, prepared := s.heart.prepared, committed := s.heart.committed }
          ∧ s.heartOnly t))
    ∧ (∀ (s : State),
      s.hwOn = true →
      (s.heart.source = 3 ∨ s.heart.uncal = true) →
      Completes (.hwSecondEnd) s (fun t =>
        (∃ r, t.heart.holds r ∧ fld r 63 0 = s.heart.nextSeq % 2 ^ 64 ∧ fld r 127 64 = s.heart.secondEndAt % 2 ^ 64 ∧ fld r 271 264
          = 1 ∧ fld r 263 256 = 0 ∧ fld r 399 384 = min (s.heart.subA.foldl (· + ·) 0) 0xFFFF ∧ fld r 511 496 = min s.heart.pulsesB
          0xFFFF ∧ fld r 495 480 = min s.heart.glitches 0xFFFF ∧ fld r 223 192 = 0xFFFFFFFF ∧ fld r 383 368 = 0xFFFF ∧ fld r 367 352
          = 0xFFFF ∧ fld r 351 336 = 0xFFFF ∧ bit r 320 = true) ∧ t.heart.cum = s.heart.cum ∧ t.heart.time = s.heart.secondEndAt ∧
          t.heart.subA = List.replicate 10 0 ∧ t.heart.pulsesB = 0 ∧ t.heart.glitches = 0 ∧ t.heart.nextSource = none ∧
          t.heart.calNext = [] ∧ s.heart.nextSeq < t.heart.nextSeq ∧ t.heart =
          { t.heart with on := s.heart.on, started := s.heart.started, link0Seen := s.heart.link0Seen, startDue := s.heart.startDue, keys := s.heart.keys, life := s.heart.life, asleep := s.heart.asleep, heldSource := s.heart.heldSource, staging := s.heart.staging, image := s.heart.image, checked := s.heart.checked, prepared := s.heart.prepared, committed := s.heart.committed }
          ∧ s.heartOnly t))
    ∧ (∀ (s : State),
      s.hwOn = true →
      s.heart.source = 0 →
      s.heart.cal.kHsl ≠ 0 →
      s.heart.calNext = [] →
      s.heart.uncal = false →
      (s.heart.link0.outTo s.heart.secondEndAt).sesNow = false →
      Completes (.hwSecondEnd) s (fun t =>
        (∃ r, t.heart.holds r ∧ fld r 63 0 = s.heart.nextSeq % 2 ^ 64 ∧ fld r 127 64 = s.heart.secondEndAt % 2 ^ 64 ∧ fld r 271 264
          = 1 ∧ fld r 263 256 = 0 ∧ fld r 399 384 = min (s.heart.subA.foldl (· + ·) 0) 0xFFFF ∧ fld r 511 496 = min s.heart.pulsesB
          0xFFFF ∧ fld r 495 480 = min s.heart.glitches 0xFFFF ∧ fld r 223 192 = ((s.heart.link0.sub.foldl (· + ·) 0 % 2 ^ 40) *
          1000000 + s.heart.remLink0) / s.heart.cal.kHsl % 2 ^ 32 ∧ bit r 320 = false) ∧ t.heart.cum = s.heart.cum +
          ((s.heart.link0.sub.foldl (· + ·) 0 % 2 ^ 40) * 1000000 + s.heart.remLink0) / s.heart.cal.kHsl ∧ t.heart.remLink0 =
          ((s.heart.link0.sub.foldl (· + ·) 0 % 2 ^ 40) * 1000000 + s.heart.remLink0) % s.heart.cal.kHsl ∧ t.heart.time =
          s.heart.secondEndAt ∧ t.heart.subA = List.replicate 10 0 ∧ t.heart.pulsesB = 0 ∧ t.heart.glitches = 0 ∧ t.heart.nextSource
          = none ∧ t.heart.calNext = [] ∧ s.heart.nextSeq < t.heart.nextSeq ∧ t.heart =
          { t.heart with on := s.heart.on, started := s.heart.started, link0Seen := s.heart.link0Seen, startDue := s.heart.startDue, keys := s.heart.keys, life := s.heart.life, asleep := s.heart.asleep, heldSource := s.heart.heldSource, staging := s.heart.staging, image := s.heart.image, checked := s.heart.checked, prepared := s.heart.prepared, committed := s.heart.committed }
          ∧ s.heartOnly t))

/-- Pulses, supplies, time edges, tamper and the start timeout act on Heartwood alone. Rests on R404, R405, R411, R412, R417, R418,
R422, R426, R427, R445. -/
def Obligations.HeartwoodInputsAndSupplies : Prop :=
    (∀ (s : State) (w : BitVec 64),
      s.hwOn = true →
      s.heart.cal.mode ≠ 2 →
      s.heart.time ≤ w.toNat →
      w.toNat < s.heart.secondEndAt →
      Completes (.pulseAccepted false false w) s (fun t =>
        t.heart =
          { s.heart with time := w.toNat, subA := s.heart.subA.set (w.toNat % 1000000 / 100000) (s.heart.subA.getD (w.toNat % 1000000 / 100000) 0 + 1) }
          ∧ s.heartOnly t))
    ∧ (∀ (s : State) (w : BitVec 64),
      s.hwOn = true →
      s.heart.cal.mode = 1 →
      s.heart.time ≤ w.toNat →
      w.toNat < s.heart.secondEndAt →
      Completes (.pulseAccepted true false w) s (fun t =>
        t.heart = { s.heart with time := w.toNat, pulsesB := s.heart.pulsesB + 1 } ∧ s.heartOnly t))
    ∧ (∀ (s : State) (b : Bool) (w : BitVec 64),
      s.hwOn = true →
      s.heart.cal.mode ≠ 2 →
      (b = true → s.heart.cal.mode = 1) →
      s.heart.time ≤ w.toNat →
      w.toNat < s.heart.secondEndAt →
      Completes (.pulseAccepted b true w) s (fun t =>
        t.heart = { s.heart with time := w.toNat, glitches := s.heart.glitches + 1 } ∧ s.heartOnly t))
    ∧ (∀ (s : State) (w : BitVec 64),
      heartPresent s.dev.variant = true →
      s.heart.on = false →
      Completes (.pulseAccepted false false w) s (fun t =>
        t.heart = { s.heart with asleep := min (s.heart.asleep + 1) (2 ^ 32 - 1) } ∧ s.heartOnly t))
    ∧ (∀ (s : State) (w : BitVec 64),
      heartPresent s.dev.variant = true →
      s.heart.on = false →
      s.heart.uncal = false →
      s.heart.heldSource = 1 →
      s.heart.cal.kPulse ≠ 0 →
      Completes (.vddHwRise false w) s (fun t =>
        (∃ r, t.heart.holds r ∧ fld r 271 264 = 3 ∧ fld r 63 0 = s.heart.nextSeq % 2 ^ 64 ∧ fld r 223 192 = (s.heart.asleep *
          1000000 + s.heart.remPulse) / s.heart.cal.kPulse % 2 ^ 32 ∧ bit r 324 = true ∧ bit r 320 = false) ∧ t.heart.cum =
          s.heart.cum + (s.heart.asleep * 1000000 + s.heart.remPulse) / s.heart.cal.kPulse ∧ t.heart.on = true ∧ t.heart.source = 3
          ∧ t.heart.asleep = 0 ∧ t.heart.time = max s.heart.time w.toNat ∧ s.heartOnly t))
    ∧ (∀ (s : State) (w : BitVec 64),
      heartPresent s.dev.variant = true →
      s.heart.on = false →
      Completes (.vddHwRise true w) s (fun t =>
        (∃ r, t.heart.holds r ∧ fld r 271 264 = 3 ∧ fld r 223 192 = 0xFFFFFFFF ∧ bit r 325 = true ∧ bit r 320 = true) ∧ t.heart.reg
          0x94 = satAdd (s.heart.reg 0x94) 1 ∧ t.heart.cum = s.heart.cum ∧ t.heart.on = true ∧ t.heart.source = 3 ∧ t.heart.time =
          s.heart.stored + 1 ∧ t.heart.events = s.heart.events ++ [(1, 5), (2, 5)] ∧ s.heartOnly t))
    ∧ (∀ (s : State),
      heartPresent s.dev.variant = true →
      s.heart.on = true →
      Completes (.vddHwLoss) s (fun t =>
        t.heart.on = false ∧ t.heart.heldSource = s.heart.source ∧ t.heart.asleep = 0 ∧ t.heart.wt = ⟨none, none, false⟩ ∧
          t.heart.events = (if s.heart.rb 0x80 5 then s.heart.events ++ [(7, 0)] else s.heart.events) ∧ t.heart.mainSafe = false ∧
          t.heart.link0.wseq = s.heart.link0.wseq ∧ t.heart.link0.count = s.heart.link0.count ∧ t.heart.link1.wseq =
          s.heart.link1.wseq ∧ t.heart.link1.count = s.heart.link1.count ∧ t.heart.staging = [] ∧ t.heart.subA = List.replicate 10 0
          ∧ t.heart.pulsesB = 0 ∧ t.heart.glitches = 0 ∧ t.heart.rb 0x80 0 = false ∧ (∀ off, off ≥ 0xA0 → t.heart.reg off = 0) ∧ (∀
          off, off < 0xA0 → off ≠ 0x80 → t.heart.reg off = s.heart.reg off) ∧ t.heart =
          { t.heart with time := s.heart.time, stored := s.heart.stored, cal := s.heart.cal, authority := s.heart.authority, pairing := s.heart.pairing, keys := s.heart.keys, life := s.heart.life, remPulse := s.heart.remPulse, remLink0 := s.heart.remLink0, remLink1 := s.heart.remLink1, cum := s.heart.cum, alarms := s.heart.alarms, nextSeq := s.heart.nextSeq, chain := s.heart.chain, batches := s.heart.batches, nextBatch := s.heart.nextBatch, notices := s.heart.notices, evlog := s.heart.evlog, image := s.heart.image, checked := s.heart.checked, prepared := s.heart.prepared, committed := s.heart.committed }
          ∧ s.heartOnly t))
    ∧ (∀ (s : State) (w : BitVec 64) (sec at_ : Nat),
      s.hwOn = true →
      s.heart.time ≤ w.toNat →
      w.toNat < s.heart.secondEndAt →
      s.heart.wt.edge = none →
      s.heart.wt.msg = some (sec, at_) →
      w.toNat ≤ at_ + 1100000 →
      Completes (.hwTimeEdge w) s (fun t =>
        t.heart = { s.heart with time := w.toNat, wt := ⟨none, some (sec, w.toNat), false⟩ } ∧ s.heartOnly t))
    ∧ (∀ (s : State) (w : BitVec 64) (sec last : Nat),
      s.hwOn = true →
      s.heart.time ≤ w.toNat →
      w.toNat < s.heart.secondEndAt →
      s.heart.wt.edge = some (sec, last) →
      last + 998000 ≤ w.toNat →
      w.toNat ≤ last + 1002000 →
      s.heart.rb 0x80 5 = false →
      Completes (.hwTimeEdge w) s (fun t =>
        t.heart.reg 0x80 = setBit (s.heart.reg 0x80) 5 true ∧ t.heart =
          { s.heart with regs := t.heart.regs, time := w.toNat, wt := ⟨none, some (sec + 1, w.toNat), true⟩, events := s.heart.events ++ [(6, 0)] }
          ∧ (∀ off, off ≠ 0x80 → t.heart.reg off = s.heart.reg off) ∧ s.heartOnly t))
    ∧ (∀ (s : State) (w : BitVec 64) (sec last : Nat),
      s.hwOn = true →
      s.heart.time ≤ w.toNat →
      w.toNat < s.heart.secondEndAt →
      s.heart.wt.edge = some (sec, last) →
      (w.toNat < last + 998000 ∨ last + 1002000 < w.toNat) →
      s.heart.wt.msg = none →
      s.heart.rb 0x80 5 = true →
      Completes (.hwTimeEdge w) s (fun t =>
        t.heart.reg 0x80 = setBit (s.heart.reg 0x80) 5 false ∧ t.heart =
          { s.heart with regs := t.heart.regs, time := w.toNat, wt := ⟨none, none, false⟩, events := s.heart.events ++ [(7, 0)] } ∧
          (∀ off, off ≠ 0x80 → t.heart.reg off = s.heart.reg off) ∧ s.heartOnly t))
    ∧ (∀ (s : State),
      s.hwOn = true →
      s.heart.rb 0x80 13 = false →
      Completes (.mainTamper) s (fun t =>
        t.heart.reg 0x80 = setBit (setBit (s.heart.reg 0x80) 13 true) 6 true ∧ t.heart =
          { s.heart with regs := t.heart.regs, events := s.heart.events ++ [(8, 0), (1, 6), (2, 6)] } ∧ (∀ off, off ≠ 0x80 →
          t.heart.reg off = s.heart.reg off) ∧ s.heartOnly t))
    ∧ (∀ (s : State),
      heartPresent s.dev.variant = true →
      s.heart.rb 0x80 14 = false →
      Completes (.hwTampered) s (fun t =>
        t.heart.rb 0x80 14 = true ∧ t.heart.keys = false ∧ t.heart.pairing = none ∧ t.heart.alarms.getLsbD 7 = true ∧ t.heart =
          { s.heart with regs := t.heart.regs, keys := false, pairing := none, alarms := s.heart.alarms ||| 0x80, events := s.heart.events ++ [(1, 7)] }
          ∧ (∀ off, off ≠ 0x80 → t.heart.reg off = s.heart.reg off) ∧ s.heartOnly t))
    ∧ (∀ (s : State),
      s.hwOn = true →
      Completes (.hwLockstepMismatch) s (fun t =>
        t.heart.reg 0x80 = setBit (s.heart.reg 0x80) 0 true ∧ t.heart = { s.heart with regs := t.heart.regs } ∧ (∀ off, off ≠ 0x80 →
          t.heart.reg off = s.heart.reg off) ∧ s.heartOnly t))
    ∧ (∀ (s : State),
      s.hwOn = true →
      s.heart.link0Seen = false →
      s.heart.startDue = false →
      s.heart.time ≤ s.heart.started + 2000000 →
      s.heart.started + 2000000 < s.heart.secondEndAt →
      s.heart.source = 3 →
      s.heart.cal.mode ≠ 2 →
      Completes (.sourceStartTimeout) s (fun t =>
        t.heart.source = 1 ∧ t.heart = { s.heart with regs := t.heart.regs, time := s.heart.started + 2000000, startDue := true } ∧
          (∀ off, off ≠ 0x80 → t.heart.reg off = s.heart.reg off) ∧ s.heartOnly t))
    ∧ (∀ (s : State) (b : HwBatch),
      s.hwOn = true →
      s.heart.batches.find? (fun x => x.closed && x.trailer.isNone) = some b →
      s.heart.slotsUsed + 55 ≤ 32768 →
      s.heart.keys = true →
      Completes (.batchSigned) s (fun t =>
        t.heart.batches = s.heart.batches.map (fun x => if x.number = b.number then
          { x with trailer := some (b.head ++ signBoth (hwSeed 0) (hwSeed 1) s.heart.drawNo b.head) } else x) ∧ t.heart.reg 0x98 =
          BitVec.ofNat 32 b.number ∧ t.heart.reg 0x9C = BitVec.ofNat 32 (b.number / 2 ^ 32) ∧ t.heart.notices = (s.heart.notices ++
          [(⟨52, 1, 1, b.number % 2 ^ 32, b.lastSeq⟩ : HwNotice)]).drop (s.heart.notices.length + 1 - 64) ∧ t.heart =
          { s.heart with regs := t.heart.regs, batches := t.heart.batches, notices := t.heart.notices } ∧ (∀ off, off ≠ 0x98 → off ≠
          0x9C → t.heart.reg off = s.heart.reg off) ∧ s.heartOnly t))
    ∧ (∀ (s : State),
      s.hwOn = true →
      s.heart.batches.find? (fun x => x.closed && x.trailer.isNone) = none →
      Completes (.batchSigned) s (fun t =>
        t = s))
    ∧ (∀ (s : State) (safe : Bool) (w : BitVec 64),
      heartPresent s.dev.variant = false →
      Completes (.vddHwRise safe w) s (fun t =>
        t = s))
    ∧ (∀ (s : State),
      heartPresent s.dev.variant = true →
      s.heart.on = false →
      Completes (.vddHwLoss) s (fun t =>
        t = s))

/-- A frame period of the sensor link hunts, locks, loses frame, takes words and requests. Rests on R429, R430, R431, R434, R436,
R437, R443, R444, R445. -/
def Obligations.SensorLinkAlignsAndDelivers : Prop :=
    (∀ (s : State) (bits : BitVec 512) (w : BitVec 64),
      s.hwOn = true →
      s.heart.link0.state ≠ 2 →
      (List.range 512).all (fun p => !posScores s.heart.link0.prev.toNat bits.toNat (p + 1) || decide (s.heart.link0.scores.get 0 (p
        + 1) < 2)) = true →
      s.heart.time ≤ w.toNat →
      w.toNat < s.heart.secondEndAt →
      Completes (.hslFrame 0 bits w) s (fun t =>
        t.heart.link0.state ≠ 2 ∧ t.heart.link0.prev = bits ∧ t.heart.link0.oof = s.heart.link0.oof + (w.toNat -
          s.heart.link0.outAt) / 500 ∧ t.heart.link0.outAt = s.heart.link0.outAt + (w.toNat - s.heart.link0.outAt) / 500 * 500 ∧
          t.heart.link0.out = true ∧ (∀ p, 1 ≤ p → p ≤ 512 → t.heart.link0.scores.get 0 p = if posScores s.heart.link0.prev.toNat
          bits.toNat p then s.heart.link0.scores.get 0 p + 1 else 0) ∧ t.heart =
          { s.heart with regs := t.heart.regs, time := w.toNat, link0 := t.heart.link0, notices := t.heart.notices, link0Seen := t.heart.link0Seen, nextSource := t.heart.nextSource }
          ∧ (∀ off, off ≠ 0x80 → t.heart.reg off = s.heart.reg off) ∧ s.heartOnly t ∧ t.heart.link0 =
          { s.heart.link0 with state := t.heart.link0.state, prev := bits, oof := t.heart.link0.oof, outAt := t.heart.link0.outAt, out := true, scores := t.heart.link0.scores }
          ∧ t.heart.notices = s.heart.notices ∧ t.heart.nextSource = s.heart.nextSource ∧ t.heart.reg 0x80 = s.heart.reg 0x80))
    ∧ (∀ (s : State) (bits : BitVec 512) (w : BitVec 64) (p : Nat),
      s.hwOn = true →
      s.heart.link0.state ≠ 2 →
      1 ≤ p →
      p ≤ 512 →
      posScores s.heart.link0.prev.toNat bits.toNat p = true →
      2 ≤ s.heart.link0.scores.get 0 p →
      (List.range (p - 1)).all (fun q => !posScores s.heart.link0.prev.toNat bits.toNat (q + 1) || decide (s.heart.link0.scores.get
        0 (q + 1) < 2)) = true →
      s.heart.time ≤ w.toNat →
      w.toNat < s.heart.secondEndAt →
      Completes (.hslFrame 0 bits w) s (fun t =>
        t.heart.link0.state = 2 ∧ t.heart.link0.pos = p ∧ t.heart.link0.badFaw = 0 ∧ t.heart.link0.fseq = frameBits (descramble
          (frameAt s.heart.link0.prev.toNat bits.toNat p)) 16 23 ∧ t.heart.link0.fresh = true ∧ t.heart.link0Seen = true ∧
          t.heart.notices = (s.heart.notices ++ [(⟨53, 3, 1, 0, w.toNat⟩ : HwNotice)]).drop (s.heart.notices.length + 1 - 64) ∧
          t.heart.source = (if s.heart.source = 3 ∧ s.heart.link0Seen = false then 0 else s.heart.source) ∧ t.heart =
          { s.heart with regs := t.heart.regs, time := w.toNat, link0 := t.heart.link0, notices := t.heart.notices, link0Seen := t.heart.link0Seen, nextSource := t.heart.nextSource }
          ∧ (∀ off, off ≠ 0x80 → t.heart.reg off = s.heart.reg off) ∧ s.heartOnly t ∧ t.heart.nextSource = s.heart.nextSource))
    ∧ (∀ (s : State) (bits : BitVec 512) (w : BitVec 64),
      s.hwOn = true →
      s.heart.link0.state = 2 →
      frameBits (frameAt s.heart.link0.prev.toNat bits.toNat s.heart.link0.pos) 0 15 = 0xF628 →
      hslCrcOk (descramble (frameAt s.heart.link0.prev.toNat bits.toNat s.heart.link0.pos)) = true →
      s.heart.time ≤ w.toNat →
      w.toNat < s.heart.secondEndAt →
      Completes (.hslFrame 0 bits w) s (fun t =>
        t.heart.link0.state = 2 ∧ t.heart.link0.good = s.heart.link0.good + 1 ∧ t.heart.link0.crcFail = s.heart.link0.crcFail ∧
          t.heart.link0.fseq = frameBits (descramble (frameAt s.heart.link0.prev.toNat bits.toNat s.heart.link0.pos)) 16 23 ∧
          t.heart.link0.wptr = frameBits (descramble (frameAt s.heart.link0.prev.toNat bits.toNat s.heart.link0.pos)) 56 62 ∧
          t.heart.link0.badFaw = 0 ∧ t.heart.link0.pos = s.heart.link0.pos ∧ t.heart.link0.prev = bits ∧ t.heart.source =
          s.heart.source ∧ t.heart =
          { s.heart with regs := t.heart.regs, time := w.toNat, link0 := t.heart.link0, notices := t.heart.notices, link0Seen := t.heart.link0Seen, nextSource := t.heart.nextSource }
          ∧ (∀ off, off ≠ 0x80 → t.heart.reg off = s.heart.reg off) ∧ s.heartOnly t))
    ∧ (∀ (s : State) (bits : BitVec 512) (w : BitVec 64),
      s.hwOn = true →
      s.heart.link0.state = 2 →
      frameBits (frameAt s.heart.link0.prev.toNat bits.toNat s.heart.link0.pos) 0 15 ≠ 0xF628 →
      hslCrcOk (descramble (frameAt s.heart.link0.prev.toNat bits.toNat s.heart.link0.pos)) = false →
      s.heart.link0.badFaw = 3 →
      s.heart.time ≤ w.toNat →
      w.toNat < s.heart.secondEndAt →
      Completes (.hslFrame 0 bits w) s (fun t =>
        t.heart.link0.state = 0 ∧ t.heart.link0.crcFail = s.heart.link0.crcFail + 1 ∧ t.heart.link0.errored = s.heart.link0.errored
          + 1 ∧ t.heart.link0.oofDecl = satAdd s.heart.link0.oofDecl 1 ∧ t.heart.link0.out = true ∧ t.heart.notices =
          (s.heart.notices ++ [(⟨53, 3, 2, 0, w.toNat⟩ : HwNotice)]).drop (s.heart.notices.length + 1 - 64) ∧ t.heart.source =
          s.heart.source ∧ t.heart =
          { s.heart with regs := t.heart.regs, time := w.toNat, link0 := t.heart.link0, notices := t.heart.notices, link0Seen := t.heart.link0Seen, nextSource := t.heart.nextSource }
          ∧ (∀ off, off ≠ 0x80 → t.heart.reg off = s.heart.reg off) ∧ s.heartOnly t ∧ t.heart.nextSource = s.heart.nextSource))
    ∧ (∀ (s : State) (bits : BitVec 512) (w : BitVec 64) (x : Nat),
      s.hwOn = true →
      s.heart.link0.state = 2 →
      frameBits (frameAt s.heart.link0.prev.toNat bits.toNat s.heart.link0.pos) 0 15 = 0xF628 →
      hslCrcOk (descramble (frameAt s.heart.link0.prev.toNat bits.toNat s.heart.link0.pos)) = true →
      frameBits (descramble (frameAt s.heart.link0.prev.toNat bits.toNat s.heart.link0.pos)) 32 39 = 0x5A →
      frameBits (descramble (frameAt s.heart.link0.prev.toNat bits.toNat s.heart.link0.pos)) 40 47 = x →
      x ≤ 2 →
      (x = 1 → s.heart.cal.mode ≠ 2) →
      (x = 2 → s.heart.cal.mode = 2) →
      s.heart.link0.req = some (0x5A, x, 2) →
      x ≠ s.heart.source →
      s.heart.time ≤ w.toNat →
      w.toNat < s.heart.secondEndAt →
      Completes (.hslFrame 0 bits w) s (fun t =>
        t.heart.nextSource = some (0, x) ∧ t.heart.notices = (s.heart.notices ++ [(⟨53, 3, 5, 256 * x, w.toNat⟩ : HwNotice)]).drop
          (s.heart.notices.length + 1 - 64) ∧ t.heart.source = s.heart.source ∧ t.heart.link0.reqRej = s.heart.link0.reqRej ∧
          t.heart =
          { s.heart with regs := t.heart.regs, time := w.toNat, link0 := t.heart.link0, notices := t.heart.notices, link0Seen := t.heart.link0Seen, nextSource := t.heart.nextSource }
          ∧ (∀ off, off ≠ 0x80 → t.heart.reg off = s.heart.reg off) ∧ s.heartOnly t))
    ∧ (∀ (h : Heart) (l : HwLink) (w v : Nat) (k : List (BitVec 8)), h.keys = true → h.pairing = some k → l.wseq = some v → l.fresh
        = false →
      let x := beNat (aesRoundsInv (aesRoundKeys k) (beBytes 16 w))
      (x % 256 = 0xA5 ∧ x / 2 ^ 64 = v + 1 → (h.word l w).2 = true ∧ (h.word l w).1.wseq = some (v + 1) ∧ (h.word l w).1.count =
        some (x / 2 ^ 24 % 2 ^ 40) ∧ (h.word l w).1.sstat = BitVec.ofNat 16 (x / 256)) ∧
      (¬ (x % 256 = 0xA5 ∧ x / 2 ^ 64 = v + 1) → (h.word l w).2 = false ∧ (h.word l w).1 =
        { l with wordRej := satAdd l.wordRej 1, fresh := false }))

/-- A transfer across Sapwood is accepted, backed off, refused, answered or timed out. Rests on R446, R447, R448, R449, R450. -/
def Obligations.SapwoodTransfersRun : Prop :=
    (∀ (s : State) (a : Acc) (addr : BitVec 32) (data : Option (BitVec 32)) (size : Nat),
      s.dev.runs = true →
      heartPresent s.dev.variant = true →
      blockOf addr.toNat = some 13 →
      reaches a.origin 13 = true →
      s.dev.permitted (if data.isSome then 0 else 1) a.origin 13 = true →
      size = 4 →
      addr.toNat % 4 = 0 →
      s.dev.linkDown = false →
      Completes (.sapwoodTransfer a addr data size false false) s (fun t =>
        t.dev.sap = { s.dev.sap with queue := s.dev.sap.queue ++ [⟨a, addr.toNat, data, s.dev.now, true⟩] } ∧ s.changes [.sap] []
          t))
    ∧ (∀ (s : State) (a : Acc) (addr : BitVec 32) (data : Option (BitVec 32)) (size : Nat),
      s.dev.runs = true →
      heartPresent s.dev.variant = true →
      blockOf addr.toNat = some 13 →
      reaches a.origin 13 = true →
      s.dev.permitted (if data.isSome then 0 else 1) a.origin 13 = true →
      size = 4 →
      addr.toNat % 4 = 0 →
      s.dev.linkDown = false →
      Completes (.sapwoodTransfer a addr data size false true) s (fun t =>
        t.dev.sap = { s.dev.sap with last := some ⟨false, true, 0⟩, failed := addr.toNat } ∧ t.dev.reg (sapReg 0x10) = satAdd
          (s.dev.reg (sapReg 0x10)) 1 ∧ t.dev.rf (sapReg 4) 8 4 = min (s.dev.rf (sapReg 4) 8 4 + 1) 31 ∧ s.changes [.sap] [sapReg 4,
          sapReg 0x10] t))
    ∧ (∀ (s : State) (a : Acc) (addr : BitVec 32) (data : Option (BitVec 32)) (size : Nat) (atomic crossed : Bool),
      s.dev.runs = true →
      heartPresent s.dev.variant = true →
      blockOf addr.toNat = some 13 →
      reaches a.origin 13 = true →
      s.dev.permitted (if data.isSome then 0 else 1) a.origin 13 = true →
      (size ≠ 4 ∨ addr.toNat % 4 ≠ 0 ∨ atomic = true) →
      Completes (.sapwoodTransfer a addr data size atomic crossed) s (fun t =>
        t.dev.sap = { s.dev.sap with last := some ⟨false, false, 0⟩, failed := addr.toNat } ∧ t.dev.reg (sapReg 0x18) = satAdd
          (s.dev.reg (sapReg 0x18)) 1 ∧ s.changes [.sap] [sapReg 0x18] t))
    ∧ (∀ (s : State) (a : Acc) (addr : BitVec 32) (data : Option (BitVec 32)) (size : Nat) (crossed : Bool),
      s.dev.runs = true →
      heartPresent s.dev.variant = true →
      blockOf addr.toNat = some 13 →
      reaches a.origin 13 = true →
      s.dev.permitted (if data.isSome then 0 else 1) a.origin 13 = true →
      size = 4 →
      addr.toNat % 4 = 0 →
      s.dev.linkDown = true →
      Completes (.sapwoodTransfer a addr data size false crossed) s (fun t =>
        t.dev.sap = { s.dev.sap with last := some ⟨false, false, 0⟩, failed := addr.toNat } ∧ s.changes [.sap] [] t))
    ∧ (∀ (s : State) (a : Acc) (addr c : Nat) (v : BitVec 32) (live : Bool) (r : List SapXfer),
      s.dev.runs = true →
      s.heart.on = true →
      s.dev.sap.queue = ⟨a, addr, some v, c, live⟩ :: r →
      0x580100 ≤ addr →
      addr < 0x580200 →
      s.heart.busy = false →
      Completes (.sapwoodTransferDone) s (fun t =>
        t.heart.reg (addr - 0x580000) = v ∧ t.dev.sap = { s.dev.sap with queue := r, timeouts := 0, last := some ⟨true, false, 0⟩ }
          ∧ t.dev.rf (sapReg 4) 8 4 = 0 ∧ t.heart = { s.heart with regs := t.heart.regs } ∧ (∀ off, off ≠ addr - 0x580000 →
          t.heart.reg off = s.heart.reg off) ∧ s.dev.keeps [.regs, .sap] t.dev ∧ t.pending = s.pending ∧ s.dev.regsKeep [sapReg 4]
          t.dev))
    ∧ (∀ (s : State) (a : Acc) (addr c : Nat) (live : Bool) (r : List SapXfer),
      s.dev.runs = true →
      s.heart.on = true →
      s.dev.sap.queue = ⟨a, addr, none, c, live⟩ :: r →
      0x580000 ≤ addr →
      Completes (.sapwoodTransferDone) s (fun t =>
        t.dev.sap = { s.dev.sap with queue := r, timeouts := 0, last := some ⟨true, false, s.heart.mbRead (addr - 0x580000)⟩ } ∧
          t.dev.rf (sapReg 4) 8 4 = 0 ∧ t.dev.reads = (if live = true then s.dev.reads.put 0 a.origin.val (s.heart.mbRead (addr -
          0x580000)) else s.dev.reads) ∧ s.keeps [.regs, .sap, .reads] t ∧ s.dev.regsKeep [sapReg 4] t.dev))
    ∧ (∀ (s : State) (x : SapXfer) (r : List SapXfer),
      s.dev.runs = true →
      s.dev.sap.queue = x :: r →
      s.dev.now ≥ x.since + s.dev.rf (sapReg 8) 9 0 * usRaw →
      s.dev.sap.timeouts < 2 →
      Completes (.sapTimeout) s (fun t =>
        t.dev.sap =
          { s.dev.sap with queue := r, timeouts := s.dev.sap.timeouts + 1, last := some ⟨false, false, 0⟩, failed := x.addr } ∧
          t.dev.reg (sapReg 0x14) = satAdd (s.dev.reg (sapReg 0x14)) 1 ∧ (x.data.isNone = true ∧ x.live = true → t.dev.reads =
          s.dev.reads.put 0 x.acc.origin.val 0) ∧ (¬ (x.data.isNone = true ∧ x.live = true) → t.dev.reads = s.dev.reads) ∧
          (t.dev.out = s.dev.out ∨ t.dev.out = .irq "IRQ_H2M" 0 :: s.dev.out ∧ x.completes s.heart = true) ∧ (t.heart = s.heart ∨
          t.heart = (x.perform s.heart).1) ∧ s.dev.keeps [.regs, .sap, .draws, .reads, .out] t.dev ∧ t.pending = s.pending ∧
          s.dev.regsKeep [sapReg 0x14] t.dev))
    ∧ (∀ (s : State) (x : SapXfer) (r : List SapXfer),
      s.dev.runs = true →
      s.dev.sap.queue = x :: r →
      s.dev.now ≥ x.since + s.dev.rf (sapReg 8) 9 0 * usRaw →
      s.dev.sap.timeouts = 2 →
      Completes (.sapTimeout) s (fun t =>
        t.dev.linkDown = true ∧ t.dev.sap =
          { s.dev.sap with queue := [], timeouts := 0, last := some ⟨false, false, 0⟩, failed := t.dev.sap.failed } ∧ t.dev.reg
          (sapReg 0x14) = satAdd (s.dev.reg (sapReg 0x14)) 1 ∧ (x.data.isNone = true ∧ x.live = true → t.dev.reads = s.dev.reads.put
          0 x.acc.origin.val 0) ∧ (¬ (x.data.isNone = true ∧ x.live = true) → t.dev.reads = s.dev.reads) ∧ (t.dev.out = s.dev.out ∨
          t.dev.out = .irq "IRQ_H2M" 0 :: s.dev.out ∧ x.completes s.heart = true) ∧ (t.heart = s.heart ∨ t.heart = (x.perform
          s.heart).1) ∧ s.dev.keeps [.regs, .basjo, .audit, .sap, .draws, .reads, .out] t.dev ∧ t.pending = s.pending ∧
          s.dev.regsKeep [sapReg 4, sapReg 0x14] t.dev ∧ s.dev.basjo.eventsOnly t.dev.basjo))
    ∧ (∀ (s : State) (a : Acc),
      s.opens a (sapReg 0) = true →
      s.dev.sap.rst = false →
      s.dev.rb (sapReg 4) 1 = true →
      s.clocked (sapReg 0) = true →
      Completes (.retry a) s (fun t =>
        t.dev.linkDown = false ∧ t.dev.rf (sapReg 4) 31 1 = s.dev.rf (sapReg 4) 31 1 ∧ s.changes [] [sapReg 4] t))
    ∧ (∀ (s : State) (a : Acc),
      s.opens a (sapReg 0) = true →
      s.dev.sap.rst = true ∨ s.dev.rb (sapReg 4) 1 = false →
      s.clocked (sapReg 0) = true →
      Completes (.retry a) s (fun t =>
        s.changes [] [] t))
    ∧ (∀ (s : State),
      s.dev.runs = true →
      s.dev.sap.queue = [] →
      Completes (.sapTimeout) s (fun t =>
        t = s))
    ∧ (∀ (s : State) (x : SapXfer) (r : List SapXfer),
      s.dev.runs = true →
      s.dev.sap.queue = x :: r →
      s.dev.now < x.since + s.dev.rf (sapReg 8) 9 0 * usRaw →
      Completes (.sapTimeout) s (fun t =>
        t = s))
    ∧ (∀ (s : State),
      s.dev.runs = true →
      s.dev.sap.queue = [] →
      Completes (.sapwoodTransferDone) s (fun t =>
        t = s))

/-- Semaphores, heartbeat, wires, notices and the Heartwood reset line act on the bridge. Rests on R450, R451, R452, R453, R454,
R455. -/
def Obligations.SapwoodSemaphoresWiresAndNotices : Prop :=
    (∀ (s : State) (a : Acc) (n : Fin 16),
      s.dev.runs = true →
      heartPresent s.dev.variant = true →
      reaches a.origin 14 = true →
      s.dev.permitted 1 a.origin 14 = true →
      s.dev.rb (sapReg (0x100 + 4 * n.val)) 0 = false →
      Completes (.semRead a n) s (fun t =>
        t.dev.reg (sapReg (0x100 + 4 * n.val)) = BitVec.ofNat 32 (a.origin.val * 16 + 1) ∧ t.dev.reads = s.dev.reads.put 0
          a.origin.val (s.dev.reg (sapReg (0x100 + 4 * n.val))) ∧ s.keeps [.regs, .reads] t ∧ s.dev.regsKeep [(sapReg (0x100 + 4 *
          n.val))] t.dev))
    ∧ (∀ (s : State) (a : Acc) (n : Fin 16),
      s.dev.runs = true →
      heartPresent s.dev.variant = true →
      reaches a.origin 14 = true →
      s.dev.permitted 1 a.origin 14 = true →
      s.dev.rb (sapReg (0x100 + 4 * n.val)) 0 = true →
      Completes (.semRead a n) s (fun t =>
        t.dev.reads = s.dev.reads.put 0 a.origin.val (s.dev.reg (sapReg (0x100 + 4 * n.val))) ∧ s.keeps [.reads] t))
    ∧ (∀ (s : State) (a : Acc) (n : Fin 16),
      s.opens a (sapReg (0x100 + 4 * n.val)) = true →
      s.dev.rb (sapReg (0x100 + 4 * n.val)) 0 = true →
      s.dev.rf (sapReg (0x100 + 4 * n.val)) 7 4 = a.origin →
      Completes (.semWrite a n 0) s (fun t =>
        t.dev.reg (sapReg (0x100 + 4 * n.val)) = 0 ∧ s.keeps [.regs] t ∧ s.dev.regsKeep [(sapReg (0x100 + 4 * n.val))] t.dev))
    ∧ (∀ (s : State) (a : Acc) (n : Fin 16) (value : BitVec 32),
      s.opens a (sapReg (0x100 + 4 * n.val)) = true →
      ¬ (s.dev.rb (sapReg (0x100 + 4 * n.val)) 0 = true ∧ s.dev.rf (sapReg (0x100 + 4 * n.val)) 7 4 = a.origin) →
      Completes (.semWrite a n value) s (fun t =>
        t.dev.reg (sapReg 0x1C) = satAdd (s.dev.reg (sapReg 0x1C)) 1 ∧ s.changes [] [sapReg 0x1C] t))
    ∧ (∀ (s : State),
      s.dev.runs = true →
      heartPresent s.dev.variant = true →
      s.dev.sap.silent = false →
      s.dev.sap.beat + 5 * msRaw ≤ s.dev.now →
      Completes (.heartbeatTimeout) s (fun t =>
        t.dev.reg (sapReg 4) = setBit (s.dev.reg (sapReg 4)) 1 false ∧ t.dev.sap = { s.dev.sap with silent := true } ∧ s.changes
          [.sap] [sapReg 4] t))
    ∧ (∀ (s : State),
      s.dev.runs = true →
      heartPresent s.dev.variant = true →
      Completes (.heartbeatResume) s (fun t =>
        t.dev.reg (sapReg 4) = setBit (s.dev.reg (sapReg 4)) 1 true ∧ t.dev.sap =
          { s.dev.sap with silent := false, beat := s.dev.now } ∧ s.changes [.sap] [sapReg 4] t))
    ∧ (∀ (s : State) (n : Fin 8),
      s.dev.runs = true →
      heartPresent s.dev.variant = true →
      n.val < 3 →
      Completes (.irqH2mEdge n) s (fun t =>
        t.dev.reg (sapReg 0x24) = setBit (s.dev.reg (sapReg 0x24)) n.val true ∧ (s.dev.rb (sapReg 0x28) n.val = true ∧
          s.dev.irqWaits "CANOPY_SAPWOOD" n.val = false → t.dev.out = .irq "CANOPY_SAPWOOD" n.val :: s.dev.out ∧ t.dev.canopy =
          s.dev.canopy) ∧ (s.dev.rb (sapReg 0x28) n.val = true ∧ s.dev.irqWaits "CANOPY_SAPWOOD" n.val = true → t.dev.out =
          s.dev.out ∧ t.dev.canopy = { s.dev.canopy with irqs := s.dev.canopy.irqs ++ [("CANOPY_SAPWOOD", n.val)] }) ∧ (s.dev.rb
          (sapReg 0x28) n.val = false → t.dev.out = s.dev.out ∧ t.dev.canopy = s.dev.canopy) ∧ s.keeps [.regs, .out, .canopy] t ∧
          s.dev.regsKeep [sapReg 0x24] t.dev))
    ∧ (∀ (s : State) (x : HwNotice) (r : List HwNotice),
      s.dev.runs = true →
      heartPresent s.dev.variant = true →
      s.heart.on = true →
      s.heart.notices = x :: r →
      Completes (.noticeGo) s (fun t =>
        t.heart = { s.heart with notices := r } ∧ (∀ k, k < 4 → t.dev.reg (sapReg (0x40 + 4 * k)) = Config.noticeWord k x.cls
          x.cause x.unit x.a x.b) ∧ s.dev.keeps [.regs, .basjo] t.dev ∧ t.pending = s.pending ∧ s.dev.regsKeep [sapReg 0x40, sapReg
          0x44, sapReg 0x48, sapReg 0x4C] t.dev ∧ s.dev.basjo.eventsOnly t.dev.basjo))
    ∧ (∀ (s : State),
      s.dev.runs = true →
      heartPresent s.dev.variant = true →
      s.dev.linkDown = false →
      Completes (.hwRstChange true) s (fun t =>
        t.dev.linkDown = true ∧ t.dev.sap =
          { s.dev.sap with rst := true, queue := [], timeouts := 0, failed := t.dev.sap.failed, last := t.dev.sap.last } ∧ (∀ n :
          Fin 16, (s.dev.rb (sapReg (0x100 + 4 * n.val)) 0 = true ∧ s.dev.rf (sapReg (0x100 + 4 * n.val)) 7 4 = 7 → t.dev.reg
          (sapReg (0x100 + 4 * n.val)) = 0) ∧ (¬ (s.dev.rb (sapReg (0x100 + 4 * n.val)) 0 = true ∧ s.dev.rf (sapReg (0x100 + 4 *
          n.val)) 7 4 = 7) → t.dev.reg (sapReg (0x100 + 4 * n.val)) = s.dev.reg (sapReg (0x100 + 4 * n.val)))) ∧ s.changes [.sap]
          (sapReg 4 :: (List.range 16).map (fun k => sapReg (0x100 + 4 * k))) t))
    ∧ (∀ (s : State) (high : Bool),
      heartPresent s.dev.variant = true →
      (high = false ∨ s.dev.runs = false) →
      Completes (.hwRstChange high) s (fun t =>
        t.dev.sap = { s.dev.sap with rst := high } ∧ s.keeps [.sap] t))
    ∧ (∀ (s : State),
      s.dev.runs = true →
      heartPresent s.dev.variant = true →
      s.dev.sap.silent = true ∨ s.dev.now < s.dev.sap.beat + 5 * msRaw →
      Completes (.heartbeatTimeout) s (fun t =>
        t = s))
    ∧ (∀ (s : State) (n : Fin 8),
      s.dev.runs = true →
      3 ≤ n.val →
      Completes (.irqH2mEdge n) s (fun t =>
        t = s))
    ∧ (∀ (s : State),
      s.dev.runs = true →
      s.heart.notices = [] →
      Completes (.noticeGo) s (fun t =>
        t = s))

/-- Checkpoints, mismatches, resumption and watchdogs of the pairs; the slow-path rings. Rests on R461, R462, R463, R464, R466,
R467, R468, R470, R472, R473, R474. -/
def Obligations.CanopyPairsAndRings : Prop :=
    (∀ (s : State) (a : Acc) (k : Fin 3),
      s.opens a (pairReg k.val 4) = true →
      s.clocked (pairReg k.val 4) = true →
      s.dev.split = false →
      s.dev.pairState k.val = 1 →
      s.dev.pairOrigin k.val = a.origin →
      Completes (.checkpoint a k .matched) s (fun t =>
        t.dev.reg (pairReg k.val 0) = setBit (s.dev.reg (pairReg k.val 0)) 0 true ∧ t.dev.reg (pairReg k.val 0x20) = satAdd
          (s.dev.reg (pairReg k.val 0x20)) 1 ∧ t.dev.pair k.val = { s.dev.pair k.val with ckptAt := s.dev.now, overdue := false } ∧
          s.changes [.canopy] [(pairReg k.val 0), pairReg k.val 0x20] t ∧ t.dev.canopy.kicks = s.dev.canopy.kicks))
    ∧ (∀ (s : State) (a : Acc) (k : Fin 3),
      s.opens a (pairReg k.val 4) = true →
      s.clocked (pairReg k.val 4) = true →
      s.dev.split = false →
      s.dev.pairState k.val = 1 →
      s.dev.pairOrigin k.val = a.origin →
      k ≠ 2 →
      s.dev.pairState 2 = 3 →
      Completes (.checkpoint a k .latent) s (fun t =>
        t.dev.reg (pairReg k.val 0x24) = satAdd (s.dev.reg (pairReg k.val 0x24)) 1 ∧ t.dev.pairState k.val = 4 ∧ t.dev.rb (pairReg
          k.val 0) 1 = true ∧ t.dev.pairOrigin k.val = 0 ∧ t.dev.pairOrigin 2 = a.origin ∧ t.dev.pairState 2 = 0 ∧ (t.dev.rasUnit
          0x60 k.val).retired = true ∧ (t.dev.rasUnit 0x60 k.val).other = some 2 ∧ s.changes [.canopy, .clocks, .ras, .sap, .out]
          ([(pairReg k.val 0), pairReg k.val 0x24, pairReg 2 0] ++ (List.range 16).map (fun n => sapReg (0x100 + 4 * n))) t))
    ∧ (∀ (s : State) (k : Fin 3) (addr : BitVec 32),
      s.dev.runs = true →
      s.dev.split = false →
      s.dev.pairState k.val = 1 →
      (s.dev.inWindow k.val).length < 3 →
      Completes (.lockstepMismatch k addr false) s (fun t =>
        t.dev.pairState k.val = 2 ∧ t.dev.rf (pairReg k.val 0) 3 2 = (s.dev.inWindow k.val).length ∧ t.dev.reg (pairReg k.val 0x14)
          = satAdd (s.dev.reg (pairReg k.val 0x14)) 1 ∧ (t.dev.pair k.val).mismatches = s.dev.inWindow k.val ∧ t.dev.pairOrigin
          k.val = s.dev.pairOrigin k.val ∧ t.dev.ckptValid k.val = s.dev.ckptValid k.val ∧ s.changes [.canopy, .clocks, .sap]
          ([(pairReg k.val 0), pairReg k.val 0x14] ++ (List.range 16).map (fun n => sapReg (0x100 + 4 * n))) t))
    ∧ (∀ (s : State) (k : Fin 3) (addr : BitVec 32),
      s.dev.runs = true →
      s.dev.split = false →
      s.dev.pairState k.val = 1 →
      (s.dev.inWindow k.val).length ≥ 3 →
      k ≠ 2 →
      s.dev.pairState 2 = 3 →
      Completes (.lockstepMismatch k addr false) s (fun t =>
        t.dev.pairState k.val = 4 ∧ t.dev.rf (pairReg k.val 0) 3 2 = 3 ∧ t.dev.pairOrigin k.val = 0 ∧ t.dev.pairOrigin 2 =
          s.dev.pairOrigin k.val ∧ t.dev.pairState 2 = 0 ∧ t.dev.safe = s.dev.safe ∧ s.changes [.canopy, .clocks, .ras, .sap, .out]
          ([(pairReg k.val 0), pairReg k.val 0x14, pairReg 2 0] ++ (List.range 16).map (fun n => sapReg (0x100 + 4 * n))) t))
    ∧ (∀ (s : State) (k : Fin 3) (addr : BitVec 32),
      s.dev.runs = true →
      s.dev.split = false →
      s.dev.pairState k.val = 1 →
      (s.dev.inWindow k.val).length ≥ 3 →
      (k = 2 ∨ s.dev.pairState 2 ≠ 3) →
      Completes (.lockstepMismatch k addr false) s (fun t =>
        t.dev.pairState k.val = 4 ∧ t.dev.pairOrigin k.val = 0 ∧ t.dev.safe = true ∧ s.keeps [.regs, .basjo, .audit, .rx, .passed,
          .trunk, .crown, .slowq, .decap, .out, .ports, .roots, .tap, .clocks, .canopy, .ras, .polls, .sap] t))
    ∧ (∀ (s : State) (k : Fin 3),
      s.dev.runs = true →
      s.dev.pairState k.val = 2 →
      Completes (.pairResumed k) s (fun t =>
        t.dev.pairState k.val = 1 ∧ t.dev.reg (pairReg k.val 0x18) = satAdd (s.dev.reg (pairReg k.val 0x18)) 1 ∧ (s.dev.canopy.irqs
          = [] → t.dev.out = s.dev.out) ∧ s.keeps [.regs, .out, .canopy] t ∧ s.dev.regsKeep [(pairReg k.val 0), pairReg k.val 0x18]
          t.dev ∧ t.dev.canopy = { s.dev.canopy with irqs := t.dev.canopy.irqs }))
    ∧ (∀ (s : State) (a : Acc) (w : Fin 7),
      s.opens a (wdtKickReg w.val) = true →
      a.origin ≠ 0 →
      s.dev.wdtOrigin w.val = a.origin →
      Completes (.wdtKick a w) s (fun t =>
        t.dev.canopy.kicks.get 0 w.val = s.dev.now ∧ t.dev.canopy = { s.dev.canopy with kicks := t.dev.canopy.kicks } ∧ (∀ v : Fin
          7, v ≠ w → t.dev.canopy.kicks.get 0 v.val = s.dev.canopy.kicks.get 0 v.val) ∧ s.keeps [.canopy] t))
    ∧ (∀ (s : State) (w : Fin 7),
      s.dev.runs = true →
      s.dev.wdtOrigin w.val ≠ 0 →
      s.dev.rb (wdtCtl w.val) 31 = true →
      s.dev.canopy.kicks.get 0 w.val + s.dev.rf (wdtCtl w.val) 19 0 * usRaw ≤ s.dev.now →
      Completes (.watchdogExpiry w) s (fun t =>
        t.dev.reg (wdtCount w.val) = satAdd (s.dev.reg (wdtCount w.val)) 1 ∧ (w.val < 3 → t.dev.ckptValid w.val = false) ∧
          t.dev.canopy.kicks.get 0 w.val = s.dev.now ∧ t.dev.clocks.held = s.dev.clocks.held.filter (fun x => x.acc.origin.val ≠
          s.dev.wdtOrigin w.val || x.value.isSome) ∧ s.changes [.canopy, .clocks, .sap] (wdtCount w.val :: pairReg w.val 0 ::
          (List.range 16).map (fun n => sapReg (0x100 + 4 * n))) t))
    ∧ (∀ (s : State) (k : Fin 3),
      s.dev.runs = true →
      s.dev.split = false →
      s.dev.rf (canopyReg 8) 23 0 ≠ 0 →
      s.dev.pairOrigin k.val ≠ 0 →
      (s.dev.pair k.val).overdue = false →
      (s.dev.pair k.val).ckptAt + s.dev.rf (canopyReg 8) 23 0 * msRaw ≤ s.dev.now →
      Completes (.ckptOverdue k) s (fun t =>
        t.dev.pair k.val = { s.dev.pair k.val with overdue := true } ∧ s.changes [.canopy] [] t ∧ t.dev.canopy.kicks =
          s.dev.canopy.kicks))
    ∧ (∀ (s : State) (a : Acc) (k : Fin 3) (o : CkptOutcome),
      s.opens a (pairReg k.val 4) = true →
      s.dev.split = true ∨ s.dev.pairState k.val ≠ 1 ∨ s.dev.pairOrigin k.val ≠ a.origin →
      Completes (.checkpoint a k o) s (fun t =>
        s.changes [] [] t))
    ∧ (∀ (s : State) (k : Fin 3),
      s.dev.runs = true →
      s.dev.pairState k.val = 0 →
      Completes (.pairResumed k) s (fun t =>
        t.dev.pairState k.val = 1 ∧ (s.dev.canopy.irqs = [] → t.dev.out = s.dev.out) ∧ s.keeps [.regs, .out, .canopy] t ∧
          s.dev.regsKeep [(pairReg k.val 0)] t.dev ∧ t.dev.canopy = { s.dev.canopy with irqs := t.dev.canopy.irqs }))
    ∧ (∀ (s : State) (k : Fin 3) (name : String) (n : Nat),
      s.dev.runs = true →
      s.dev.pairState k.val = 0 ∨ s.dev.pairState k.val = 2 →
      ∀ j : Fin 3, j ≠ k → s.dev.pairState j.val ≠ 0 ∧ s.dev.pairState j.val ≠ 2 →
      s.dev.canopy.irqs = [(name, n)] →
      Completes (.pairResumed k) s (fun t =>
        t.dev.out = .irq name n :: s.dev.out ∧ t.dev.canopy = { s.dev.canopy with irqs := [] } ∧ s.keeps [.regs, .out, .canopy] t ∧
          s.dev.regsKeep [(pairReg k.val 0), pairReg k.val 0x18] t.dev))
    ∧ (∀ (s : State) (k : Fin 3) (addr : BitVec 32) (latent : Bool),
      s.dev.runs = true →
      s.dev.split = true ∨ s.dev.pairState k.val ≠ 1 →
      Completes (.lockstepMismatch k addr latent) s (fun t =>
        t = s))
    ∧ (∀ (s : State) (k : Fin 3) (addr : BitVec 32),
      s.dev.runs = true →
      s.dev.split = false →
      s.dev.pairState k.val = 1 →
      k ≠ 2 →
      s.dev.pairState 2 = 3 →
      Completes (.lockstepMismatch k addr true) s (fun t =>
        t.dev.reg (pairReg k.val 0x24) = satAdd (s.dev.reg (pairReg k.val 0x24)) 1 ∧ t.dev.pairState k.val = 4 ∧ t.dev.rb (pairReg
          k.val 0) 1 = true ∧ t.dev.pairOrigin 2 = s.dev.pairOrigin k.val ∧ t.dev.pairState 2 = 0 ∧ s.changes [.canopy, .clocks,
          .ras, .sap, .out] ([(pairReg k.val 0), pairReg k.val 0x24, pairReg 2 0] ++ (List.range 16).map (fun n => sapReg (0x100 + 4
          * n))) t))
    ∧ (∀ (s : State) (a : Acc) (k : Fin 3) (addr : BitVec 32),
      s.opens a (pairReg k.val 4) = true →
      s.clocked (pairReg k.val 4) = true →
      s.dev.split = false →
      s.dev.pairState k.val = 1 →
      s.dev.pairOrigin k.val = a.origin →
      (s.dev.inWindow k.val).length < 3 →
      Completes (.checkpoint a k (.mismatch addr)) s (fun t =>
        t.dev.pairState k.val = 2 ∧ t.dev.rf (pairReg k.val 0) 3 2 = (s.dev.inWindow k.val).length ∧ t.dev.reg (pairReg k.val 0x14)
          = satAdd (s.dev.reg (pairReg k.val 0x14)) 1 ∧ (t.dev.pair k.val).mismatches = s.dev.inWindow k.val ∧ t.dev.ckptValid k.val
          = s.dev.ckptValid k.val ∧ s.changes [.canopy, .clocks, .sap] ([(pairReg k.val 0), pairReg k.val 0x14] ++ (List.range
          16).map (fun n => sapReg (0x100 + 4 * n))) t))
    ∧ (∀ (s : State) (a : Acc) (w : Fin 7),
      s.opens a (wdtKickReg w.val) = true →
      s.dev.wdtOrigin w.val ≠ a.origin →
      Completes (.wdtKick a w) s (fun t =>
        t.dev.canopy = s.dev.canopy ∧ s.changes [] [] t))
    ∧ (∀ (s : State) (w : Fin 7),
      s.dev.runs = true →
      s.dev.wdtOrigin w.val = 0 ∨ s.dev.rb (wdtCtl w.val) 31 = false ∨ s.dev.now < s.dev.canopy.kicks.get 0 w.val + s.dev.rf (wdtCtl
        w.val) 19 0 * usRaw →
      Completes (.watchdogExpiry w) s (fun t =>
        t = s))
    ∧ (∀ (s : State) (a : Acc) (c : Fin 16) (value : BitVec 32),
      s.opens a (spqReg c.val 0xC) = true →
      s.dev.rb (spqReg c.val 0) 31 = true →
      dist32 (s.dev.reg (spqReg c.val 0xC)) value ≤ 2 ^ s.dev.rf (spqReg c.val 0) 20 16 →
      dist32 (s.dev.reg (spqReg c.val 0x10)) value ≤ 2 ^ s.dev.rf (spqReg c.val 0) 20 16 →
      Completes (.spqHostIdxWrite a c value) s (fun t =>
        t.dev.reg (spqReg c.val 0xC) = value ∧ s.writes (spqReg c.val 0xC) [] [spqReg c.val 0xC] t))
    ∧ (∀ (s : State) (a : Acc) (c : Fin 16) (value : BitVec 32),
      s.opens a (spqReg c.val 0xC) = true →
      ¬ (s.dev.rb (spqReg c.val 0) 31 = true ∧ dist32 (s.dev.reg (spqReg c.val 0xC)) value ≤ 2 ^ s.dev.rf (spqReg c.val 0) 20 16 ∧
        dist32 (s.dev.reg (spqReg c.val 0x10)) value ≤ 2 ^ s.dev.rf (spqReg c.val 0) 20 16) →
      Completes (.spqHostIdxWrite a c value) s (fun t =>
        t.dev.reg (spqReg c.val 0xC) = s.dev.reg (spqReg c.val 0xC) ∧ s.writes (spqReg c.val 0xC) [] [] t))
    ∧ (∀ (s : State) (a : Acc) (r : Fin 4) (value : BitVec 32),
      s.opens a (sptReg r.val 0xC) = true →
      s.dev.rb (sptReg r.val 0) 31 = true →
      dist32 (s.dev.reg (sptReg r.val 0xC)) value ≤ 2 ^ s.dev.rf (sptReg r.val 0) 20 16 →
      dist32 (s.dev.reg (sptReg r.val 0x10)) value ≤ 2 ^ s.dev.rf (sptReg r.val 0) 20 16 →
      Completes (.sptHostIdxWrite a r value) s (fun t =>
        t.dev.reg (sptReg r.val 0xC) = value ∧ s.writes (sptReg r.val 0xC) [] [sptReg r.val 0xC] t))
    ∧ (∀ (s : State) (c : Fin 16) (bufs : List RxBuf) (ue : Option (Fin 18)) (id : Nat) (f : Stored) (l : List (RxBuf × Nat)) (rest
        : List Nat),
      s.dev.runs = true →
      s.dev.slowHeld c.val = id :: rest →
      s.dev.rb (spqReg c.val 0) 31 = true →
      (s.dev.basjo.ring 2 (8 + c.val)).stopped = false →
      dist32 (s.dev.reg (spqReg c.val 0x10)) (s.dev.reg (spqReg c.val 0xC)) ≠ 0 →
      s.dev.stored id = some f →
      ue.all (fun b => !s.dev.bankHolds b.val) = true →
      fillBufs 1024 (s.dev.edit 38 f).length (bufs.take (dist32 (s.dev.reg (spqReg c.val 0x10)) (s.dev.reg (spqReg c.val 0xC)))) =
        .fits l →
      Completes (.spqDeliver c bufs false ue) s (fun t =>
        t.dev.reg (spqReg c.val 0x10) = s.dev.reg (spqReg c.val 0x10) + BitVec.ofNat 32 l.length ∧ t.dev.slowq = s.dev.slowq.put []
          c.val rest ∧ t.dev.trunk.queues = s.dev.trunk.queues ∧ (s.dev.irqWaits "CANOPY_SPQ" (16 * s.dev.rf (spqReg c.val 0) 25 24
          + c.val) = false → t.dev.out = .irq "CANOPY_SPQ" (16 * s.dev.rf (spqReg c.val 0) 25 24 + c.val) :: s.dev.out ∧
          t.dev.canopy = s.dev.canopy) ∧ (s.dev.irqWaits "CANOPY_SPQ" (16 * s.dev.rf (spqReg c.val 0) 25 24 + c.val) = true →
          t.dev.out = s.dev.out ∧ t.dev.canopy =
          { s.dev.canopy with irqs := s.dev.canopy.irqs ++ [("CANOPY_SPQ", 16 * s.dev.rf (spqReg c.val 0) 25 24 + c.val)] }) ∧
          s.keeps [.regs, .basjo, .slowq, .trunk, .out, .canopy] t))
    ∧ (∀ (s : State) (c : Fin 16) (bufs : List RxBuf) (b : Fin 18) (id : Nat) (f : Stored) (rest : List Nat),
      s.dev.runs = true →
      s.dev.slowHeld c.val = id :: rest →
      s.dev.rb (spqReg c.val 0) 31 = true →
      (s.dev.basjo.ring 2 (8 + c.val)).stopped = false →
      dist32 (s.dev.reg (spqReg c.val 0x10)) (s.dev.reg (spqReg c.val 0xC)) ≠ 0 →
      s.dev.stored id = some f →
      s.dev.bankHolds b.val = true →
      Completes (.spqDeliver c bufs false (some b)) s (fun t =>
        t.dev.slowq = s.dev.slowq.put [] c.val rest ∧ t.dev.reg (trunkReg 0x48) = satAdd (s.dev.reg (trunkReg 0x48)) 1 ∧ t.dev.reg
          (spqReg c.val 0x10) = s.dev.reg (spqReg c.val 0x10) ∧ t.dev.stored id = (if f.refs ≤ 1 then none else some
          { f with refs := f.refs - 1 }) ∧ s.keeps [.regs, .basjo, .audit, .slowq, .trunk, .words, .ras, .crown, .rx, .ended,
          .passed, .burl, .ports] t))
    ∧ (∀ (s : State) (a : Acc) (r : Fin 4) (value : BitVec 32),
      s.opens a (sptReg r.val 0xC) = true →
      ¬ (s.dev.rb (sptReg r.val 0) 31 = true ∧ dist32 (s.dev.reg (sptReg r.val 0xC)) value ≤ 2 ^ s.dev.rf (sptReg r.val 0) 20 16 ∧
        dist32 (s.dev.reg (sptReg r.val 0x10)) value ≤ 2 ^ s.dev.rf (sptReg r.val 0) 20 16) →
      Completes (.sptHostIdxWrite a r value) s (fun t =>
        s.writes (sptReg r.val 0xC) [] [] t))
    ∧ (∀ (s : State) (c : Fin 16) (bufs : List RxBuf) (ue : Option (Fin 18)) (id : Nat) (f : Stored) (rest : List Nat),
      s.dev.runs = true →
      s.dev.slowHeld c.val = id :: rest →
      s.dev.rb (spqReg c.val 0) 31 = true →
      (s.dev.basjo.ring 2 (8 + c.val)).stopped = false →
      dist32 (s.dev.reg (spqReg c.val 0x10)) (s.dev.reg (spqReg c.val 0xC)) ≠ 0 →
      s.dev.stored id = some f →
      ue.all (fun b => !s.dev.bankHolds b.val) = true →
      fillBufs 1024 (s.dev.edit 38 f).length (bufs.take (dist32 (s.dev.reg (spqReg c.val 0x10)) (s.dev.reg (spqReg c.val 0xC)))) =
        .bad →
      Completes (.spqDeliver c bufs false ue) s (fun t =>
        t.dev.basjo = s.dev.basjo.setRing 2 (8 + c.val) { s.dev.basjo.ring 2 (8 + c.val) with stopped := true } ∧ s.keeps [.basjo]
          t))
    ∧ (∀ (s : State) (c : Fin 16) (bufs : List RxBuf) (ue : Option (Fin 18)) (id : Nat) (f : Stored) (rest : List Nat),
      s.dev.runs = true →
      s.dev.slowHeld c.val = id :: rest →
      s.dev.rb (spqReg c.val 0) 31 = true →
      (s.dev.basjo.ring 2 (8 + c.val)).stopped = false →
      dist32 (s.dev.reg (spqReg c.val 0x10)) (s.dev.reg (spqReg c.val 0xC)) ≠ 0 →
      s.dev.stored id = some f →
      ue.all (fun b => !s.dev.bankHolds b.val) = true →
      fillBufs 1024 (s.dev.edit 38 f).length (bufs.take (dist32 (s.dev.reg (spqReg c.val 0x10)) (s.dev.reg (spqReg c.val 0xC)))) =
        .short →
      Completes (.spqDeliver c bufs false ue) s (fun t =>
        t = s))
    ∧ (∀ (s : State) (c : Fin 16) (bufs : List RxBuf) (ue : Option (Fin 18)) (id : Nat) (f : Stored) (rest : List Nat),
      s.dev.runs = true →
      s.dev.slowHeld c.val = id :: rest →
      s.dev.rb (spqReg c.val 0) 31 = true →
      (s.dev.basjo.ring 2 (8 + c.val)).stopped = false →
      dist32 (s.dev.reg (spqReg c.val 0x10)) (s.dev.reg (spqReg c.val 0xC)) ≠ 0 →
      s.dev.stored id = some f →
      ue.all (fun b => !s.dev.bankHolds b.val) = true →
      Completes (.spqDeliver c bufs true ue) s (fun t =>
        t.dev.basjo = s.dev.basjo.setRing 2 (8 + c.val) { s.dev.basjo.ring 2 (8 + c.val) with stopped := true } ∧ s.keeps [.basjo]
          t))

/-- MODE_SET moves between PARTIAL, FULL and SERVICE, and a powered Grove copies Grove 0. Rests on R478, R480, R481. -/
def Obligations.ModesChangeByCommand : Prop :=
    (∀ (s : State) (d : CmdDesc),
      s.starts d 0 0 1 [7, 0, 0, 0, 0] = true →
      modeMay s.dev.mode (fld d.p8 2 0) = true →
      (s.dev.moveMode d.origin (fld d.p8 2 0)).tap.copying = [] →
      Completes (.modeSet d) s (fun t =>
        t.dev.mode = fld d.p8 2 0 ∧ t.dev.reg 0x20 = BitVec.ofNat 32 (s.dev.mode * 256 + fld d.p8 2 0) ∧ t.dev.tap.modeCmd = none ∧
          s.keeps [.regs, .basjo, .audit, .tap, .clocks, .rx, .ports, .trunk, .crown, .burl, .out] t ∧ s.dev.basjo.answers d stOk 0
          0 t.dev.basjo))
    ∧ (∀ (s : State) (d : CmdDesc),
      s.starts d 0 0 1 [7, 0, 0, 0, 0] = true →
      modeMay s.dev.mode (fld d.p8 2 0) = false →
      Completes (.modeSet d) s (fun t =>
        t.dev.mode = s.dev.mode ∧ s.dev.basjo.answers d stWrongMode 0 0 t.dev.basjo ∧ s.completes d [] [] t))
    ∧ (∀ (s : State) (g : Fin 4),
      s.dev.runs = true →
      s.dev.tap.copying = [g.val] →
      g ≠ 0 →
      s.dev.tap.modeCmd = none →
      s.dev.groves.fdb.wf (fun _ => none) →
      Completes (.groveCopyDone g) s (fun t =>
        (∀ n, n < 262144 → t.dev.groves.fdb.get none (262144 * g.val + n) = s.dev.groves.fdb.get none n) ∧ (∀ k, k / 262144 ≠ g.val
          → t.dev.groves.fdb.get none k = s.dev.groves.fdb.get none k) ∧ t.dev.reg (groveReg g.val 0x200) = s.dev.reg (groveReg 0
          0x200) ∧ t.dev.reg (groveReg g.val 0x204) = s.dev.reg (groveReg 0 0x204) ∧ t.dev.tap.copying = [] ∧ s.keeps [.regs,
          .basjo, .audit, .tap, .groves, .ports, .out] t))
    ∧ (∀ (s : State) (d : CmdDesc),
      s.starts d 0 0 1 [7, 0, 0, 0, 0] = true →
      modeMay s.dev.mode (fld d.p8 2 0) = true →
      (s.dev.moveMode d.origin (fld d.p8 2 0)).tap.copying ≠ [] →
      Completes (.modeSet d) s (fun t =>
        t.dev.mode = fld d.p8 2 0 ∧ (t.dev.tap.modeCmd.map (·.1)) = some d ∧ s.keeps [.regs, .basjo, .audit, .tap, .clocks, .rx,
          .ports, .trunk, .crown, .burl, .out] t))
    ∧ (∀ (s : State) (g : Fin 4) (c : CmdDesc) (m : Nat),
      s.dev.runs = true →
      s.dev.tap.copying = [g.val] →
      s.dev.tap.modeCmd = some (c, m) →
      ((List.range 38).all (fun n => s.dev.portPowered n || ((s.dev.crown.tx.get none n).isNone && (s.dev.crown.paused.get none
        n).isNone))) = true →
      ((List.range 4).all (fun j => s.dev.grovePowered j || !s.dev.groveBusy j)) = true →
      ((List.range 24).all (fun n => s.dev.canPowered n || (s.dev.roots.ending.get none n).isNone)) = true →
      Completes (.groveCopyDone g) s (fun t =>
        t.dev.tap.modeCmd = none ∧ t.dev.tap.copying = [] ∧ s.keeps [.regs, .basjo, .audit, .tap, .groves, .ports, .out, .clocks]
          t))
    ∧ (∀ (s : State) (p : Fin 36) (coll : Nat) (x : TxRun) (c : CmdDesc) (m : Nat),
      s.dev.runs = true →
      s.dev.tap.copying = [] →
      s.dev.tap.modeCmd = some (c, m) →
      s.dev.crown.tx.get none p.val = some x →
      s.dev.crown.paused.get none p.val = none →
      ((List.range 38).all (fun n => n = p.val || s.dev.portPowered n || ((s.dev.crown.tx.get none n).isNone &&
        (s.dev.crown.paused.get none n).isNone))) = true →
      ((List.range 4).all (fun j => s.dev.grovePowered j || !s.dev.groveBusy j)) = true →
      ((List.range 24).all (fun n => s.dev.canPowered n || (s.dev.roots.ending.get none n).isNone)) = true →
      Completes (.transmissionComplete p coll) s (fun t =>
        t.dev.tap.modeCmd = none ∧ t.dev.crown.tx.get none p.val = none ∧ t.dev.out = .frame p.val x.octets (!x.badFcs) x.start ::
          s.dev.out ∧ s.keeps [.regs, .basjo, .audit, .tap, .crown, .trunk, .burl, .out, .clocks] t))
    ∧ (∀ (s : State) (g : Fin 4),
      s.dev.runs = true →
      s.dev.tap.copying.contains g.val = false →
      Completes (.groveCopyDone g) s (fun t =>
        t = s))

/-- Wake sources latch, raise PWR_REQ or are only told; unconfirmed wakes count and mask. Rests on R482, R483, R484, R485, R497,
R498. -/
def Obligations.WakeSourcesLatchAndWake : Prop :=
    (∀ (s : State) (k : Fin 8) (high : Bool) (edges : Nat),
      s.dev.rb (updReg 4) 30 = false →
      s.dev.mayWake k.val = true →
      s.dev.tap.asleep = true →
      s.dev.tap.powerLow = true →
      s.dev.mode ≠ 0 →
      s.dev.offLong = true →
      high = !s.dev.rb (tapReg (0x100 + 0x20 * k.val)) 0 →
      s.dev.rf (tapReg (0x100 + 0x20 * k.val)) 31 24 ≤ edges →
      Completes (.wakePinRequest k high edges) s (fun t =>
        t.dev.reg (tapReg 0x34) = setBit (s.dev.reg (tapReg 0x34)) k.val true ∧ t.dev.tap =
          { s.dev.tap with powerLow := false, waking := true, rise := (s.dev.tick, s.dev.cam.coarse) } ∧ t.dev.out = .pin "RET_REQ"
          1 :: .pin "PWR_REQ" 1 :: s.dev.out ∧ s.keeps [.regs, .tap, .out] t ∧ s.dev.regsKeep [tapReg 0x34] t.dev))
    ∧ (∀ (s : State) (k : Fin 8),
      s.dev.rb (updReg 4) 30 = false →
      s.dev.mayWake (8 + k.val) = true →
      s.dev.tap.asleep = true →
      s.dev.tap.powerLow = true →
      s.dev.mode = 2 →
      s.dev.offLong = true →
      Completes (.t1sCarrierWake k) s (fun t =>
        t.dev.reg (tapReg 0x34) = setBit (s.dev.reg (tapReg 0x34)) (8 + k.val) true ∧ t.dev.tap =
          { s.dev.tap with powerLow := false, waking := true, rise := (s.dev.tick, s.dev.cam.coarse) } ∧ t.dev.out = .pin "RET_REQ"
          1 :: .pin "PWR_REQ" 1 :: s.dev.out ∧ s.keeps [.regs, .tap, .out] t ∧ s.dev.regsKeep [tapReg 0x34] t.dev))
    ∧ (∀ (s : State),
      s.dev.rb (updReg 4) 30 = false →
      s.dev.mayWake 16 = true →
      s.dev.tap.asleep = true →
      s.dev.tap.powerLow = true →
      s.dev.mode ≠ 0 →
      s.dev.offLong = true →
      Completes (.pulseFirstEdgeWake) s (fun t =>
        t.dev.reg (tapReg 0x34) = setBit (s.dev.reg (tapReg 0x34)) 16 true ∧ t.dev.tap =
          { s.dev.tap with powerLow := false, waking := true, rise := (s.dev.tick, s.dev.cam.coarse) } ∧ t.dev.out = .pin "RET_REQ"
          1 :: .pin "PWR_REQ" 1 :: s.dev.out ∧ s.keeps [.regs, .tap, .out] t ∧ s.dev.regsKeep [tapReg 0x34] t.dev))
    ∧ (∀ (s : State),
      s.dev.rb (updReg 4) 30 = false →
      s.dev.mayWake 17 = true →
      s.dev.tap.asleep = true →
      s.dev.tap.powerLow = true →
      s.dev.mode ≠ 0 →
      s.dev.offLong = true →
      s.dev.reg (tapReg 0x38) ≠ 0 →
      s.dev.tap.commitCoarse + (s.dev.reg (tapReg 0x38)).toNat ≤ s.dev.cam.coarse →
      Completes (.timerWakeExpiry) s (fun t =>
        t.dev.reg (tapReg 0x34) = setBit (s.dev.reg (tapReg 0x34)) 17 true ∧ t.dev.tap =
          { s.dev.tap with powerLow := false, waking := true, rise := (s.dev.tick, s.dev.cam.coarse) } ∧ t.dev.out = .pin "RET_REQ"
          1 :: .pin "PWR_REQ" 1 :: s.dev.out ∧ s.keeps [.regs, .tap, .out] t ∧ s.dev.regsKeep [tapReg 0x34] t.dev))
    ∧ (∀ (s : State) (k : Fin 8) (high : Bool) (edges : Nat),
      high = !s.dev.rb (tapReg (0x100 + 0x20 * k.val)) 0 →
      s.dev.rf (tapReg (0x100 + 0x20 * k.val)) 31 24 ≤ edges →
      s.dev.rb (updReg 4) 30 = false →
      s.dev.mayWake k.val = true →
      s.dev.tap.asleep = false →
      s.dev.bstate = 0 →
      Completes (.wakePinRequest k high edges) s (fun t =>
        t.dev.reg (tapReg 0x34) = s.dev.reg (tapReg 0x34) ∧ t.dev.tap = s.dev.tap ∧ s.changes [] [] t))
    ∧ (∀ (s : State) (k : Fin 8) (high : Bool) (edges : Nat),
      high = !s.dev.rb (tapReg (0x100 + 0x20 * k.val)) 0 →
      s.dev.rf (tapReg (0x100 + 0x20 * k.val)) 31 24 ≤ edges →
      s.dev.rb (updReg 4) 30 = false →
      s.dev.mayWake k.val = true →
      s.dev.tap.asleep = false →
      s.dev.bstate = 2 →
      Completes (.wakePinRequest k high edges) s (fun t =>
        t.dev.reg (tapReg 0x34) = setBit (s.dev.reg (tapReg 0x34)) k.val true ∧ s.changes [] [tapReg 0x34] t))
    ∧ (∀ (s : State),
      s.dev.rb (updReg 4) 30 = false →
      s.dev.tap.asleep = true →
      s.dev.tap.powerLow = true →
      s.dev.offLong = true →
      s.dev.reg (tapReg 0x34) ≠ 0 →
      Completes (.pwrOffMinExpiry) s (fun t =>
        t.dev.tap = { s.dev.tap with powerLow := false, waking := true, rise := (s.dev.tick, s.dev.cam.coarse) } ∧ t.dev.out = .pin
          "RET_REQ" 1 :: .pin "PWR_REQ" 1 :: s.dev.out ∧ s.keeps [.tap, .out] t))
    ∧ (∀ (s : State) (k : Fin 8) (high : Bool) (edges : Nat),
      high = !s.dev.rb (tapReg (0x100 + 0x20 * k.val)) 0 →
      s.dev.rf (tapReg (0x100 + 0x20 * k.val)) 31 24 ≤ edges →
      s.dev.rb (updReg 4) 30 = false →
      s.dev.mayWake k.val = true →
      s.dev.mode ≠ 0 →
      s.dev.tap.asleep = true →
      s.dev.tap.powerLow = true →
      s.dev.offLong = false →
      Completes (.wakePinRequest k high edges) s (fun t =>
        t.dev.reg (tapReg 0x34) = setBit (s.dev.reg (tapReg 0x34)) k.val true ∧ s.keeps [.regs] t ∧ s.dev.regsKeep [tapReg 0x34]
          t.dev))
    ∧ (∀ (s : State) (k : Fin 8) (high : Bool) (edges : Nat),
      high = !s.dev.rb (tapReg (0x100 + 0x20 * k.val)) 0 →
      s.dev.rf (tapReg (0x100 + 0x20 * k.val)) 31 24 ≤ edges →
      s.dev.rb (updReg 4) 30 = false →
      s.dev.mayWake k.val = true →
      s.dev.tap.asleep = false →
      s.dev.bstate = 1 →
      s.dev.votesHeld = s.dev.votes →
      ¬ (s.dev.rb (tapReg 4) 31 = true ∧ (s.dev.mode = 3 ∨ s.dev.mode = 4) ∧ s.dev.votes = 0) →
      Completes (.wakePinRequest k high edges) s (fun t =>
        t.dev.bstate = 0 ∧ t.dev.reg (tapReg 0x34) = s.dev.reg (tapReg 0x34) ∧ t.dev.tap =
          { s.dev.tap with sole := t.dev.tap.sole, soleRaised := t.dev.tap.soleRaised } ∧ s.changes [.tap] [tapReg 0] t))
    ∧ (∀ (s : State) (k : Fin 8) (high : Bool) (edges : Nat),
      high = !s.dev.rb (tapReg (0x100 + 0x20 * k.val)) 0 →
      s.dev.rf (tapReg (0x100 + 0x20 * k.val)) 31 24 ≤ edges →
      s.dev.rb (updReg 4) 30 = false →
      s.dev.mayWake k.val = true →
      s.dev.tap.asleep = false →
      s.dev.bstate = 1 →
      s.dev.votesHeld = 0 →
      s.dev.votes = 0 →
      s.dev.rb (tapReg 4) 31 = true →
      s.dev.mode = 3 ∨ s.dev.mode = 4 →
      Completes (.wakePinRequest k high edges) s (fun t =>
        t.dev.bstate = 1 ∧ t.dev.reg (tapReg 0x34) = s.dev.reg (tapReg 0x34) ∧ t.dev.tap.since = s.dev.now ∧ t.dev.tap.clean = false
          ∧ s.changes [.tap] [tapReg 0, tapReg 0x20, tapReg 0x24] t))
    ∧ (∀ (s : State) (k : Fin 8) (high : Bool) (edges : Nat),
      s.dev.rb (updReg 4) 30 = false →
      high = s.dev.rb (tapReg (0x100 + 0x20 * k.val)) 0 ∨ edges < s.dev.rf (tapReg (0x100 + 0x20 * k.val)) 31 24 →
      Completes (.wakePinRequest k high edges) s (fun t =>
        t = s))
    ∧ (∀ (s : State) (k : Fin 8) (high : Bool) (edges : Nat),
      high = !s.dev.rb (tapReg (0x100 + 0x20 * k.val)) 0 →
      s.dev.rf (tapReg (0x100 + 0x20 * k.val)) 31 24 ≤ edges →
      s.dev.rb (updReg 4) 30 = false →
      s.dev.mayWake k.val = false →
      Completes (.wakePinRequest k high edges) s (fun t =>
        t = s))
    ∧ (∀ (s : State) (k : Fin 8),
      s.dev.rb (updReg 4) 30 = false →
      s.dev.tap.asleep = true →
      s.dev.mode = 1 →
      Completes (.t1sCarrierWake k) s (fun t =>
        t = s))
    ∧ (∀ (s : State),
      s.dev.rb (updReg 4) 30 = false →
      s.dev.reg (tapReg 0x38) = 0 ∨ s.dev.cam.coarse < s.dev.tap.commitCoarse + (s.dev.reg (tapReg 0x38)).toNat →
      Completes (.timerWakeExpiry) s (fun t =>
        t = s))
    ∧ (∀ (s : State),
      s.dev.rb (updReg 4) 30 = false →
      s.dev.reg (tapReg 0x34) = 0 →
      Completes (.pwrOffMinExpiry) s (fun t =>
        t = s))
    ∧ (∀ (s : State) (k : Fin 16) (due : Nat),
      s.dev.runs = true →
      s.dev.tap.validating.find? (fun e => e.1 = k.val) = some (k.val, due) →
      due ≤ s.dev.now →
      s.dev.rf (tapReg 0x40) 3 0 = 0 →
      Completes (.tValidExpiry k) s (fun t =>
        t.dev.rf (tapReg (0x200 + 4 * k.val)) 15 0 = min (s.dev.rf (tapReg (0x200 + 4 * k.val)) 15 0 + 1) 0xFFFF ∧ t.dev.tap =
          { s.dev.tap with validating := s.dev.tap.validating.filter (fun e => e.1 ≠ k.val) } ∧ s.changes [.tap] [tapReg (0x200 + 4
          * k.val)] t))
    ∧ (∀ (s : State) (k : Fin 16) (due : Nat),
      s.dev.runs = true →
      s.dev.tap.validating.find? (fun e => e.1 = k.val) = some (k.val, due) →
      due ≤ s.dev.now →
      s.dev.rf (tapReg 0x40) 3 0 = 1 →
      Completes (.tValidExpiry k) s (fun t =>
        t.dev.rb (tapReg 0x44) k.val = true ∧ s.changes [.tap] [tapReg (0x200 + 4 * k.val), tapReg 0x44] t))
    ∧ (∀ (s : State) (a : Acc) (value : BitVec 32),
      s.opens a (tapReg 0x44) = true →
      s.clocked (tapReg 0x44) = true →
      Completes (.fwMaskedClear a value) s (fun t =>
        t.dev.reg (tapReg 0x44) = s.dev.reg (tapReg 0x44) &&& ~~~value ∧ s.keeps [.regs] t ∧ s.dev.regsKeep [tapReg 0x44] t.dev))
    ∧ (∀ (s : State) (a : Acc),
      s.opens a (tapReg 0x48) = true →
      s.clocked (tapReg 0x48) = true →
      Completes (.fwClr a) s (fun t =>
        ∀ k : Fin 16, t.dev.reg (tapReg (0x200 + 4 * k.val)) = 0 ∧ s.changesIn [] (tapReg 0x200) (tapReg 0x240) t))
    ∧ (∀ (s : State) (k : Fin 16),
      s.dev.runs = true →
      (s.dev.tap.validating.find? (fun e => e.1 = k.val)).all (fun e => decide (s.dev.now < e.2)) = true →
      Completes (.tValidExpiry k) s (fun t =>
        t = s))

/-- Votes turn, and the ballot goes from IDLE over COUNTING and COMMITTED to sleep. Rests on R490, R491, R492, R493, R494, R495,
R496, R487. -/
def Obligations.BallotRunsTowardSleep : Prop :=
    (∀ (s : State) (a : Acc) (k : Fin 64),
      s.opens a (srcReg k.val 0) = true →
      s.dev.rf (srcReg k.val 0) 30 28 = 1 →
      3 ≤ a.origin →
      a.origin ≤ 6 →
      s.dev.rb (srcReg k.val 0) 31 = true →
      s.dev.bstate = 1 →
      s.dev.rb (tapReg 4) 31 = true →
      (s.dev.mode = 3 ∨ s.dev.mode = 4) →
      s.dev.votesHeld = 0 →
      s.dev.rb (srcReg k.val 0) 27 = true →
      s.dev.votes = 0 →
      Completes (.ballotVoteChange a k false) s (fun t =>
        t.dev.rb (srcReg k.val 0) 27 = false ∧ t.dev.rb (srcReg k.val 0) 26 = false ∧ t.dev.bstate = 0 ∧ t.dev.votesHeld = 2 ^ k.val
          ∧ t.dev.tap.sole.map (·.1) = some k.val ∧ s.writes (srcReg k.val 0) [.tap] [srcReg k.val 0, tapReg 0, tapReg 0x10, tapReg
          0x14] t))
    ∧ (∀ (s : State) (a : Acc) (k : Fin 64),
      s.opens a (srcReg k.val 0) = true →
      s.dev.rf (srcReg k.val 0) 30 28 = 1 →
      3 ≤ a.origin →
      a.origin ≤ 6 →
      s.dev.rb (srcReg k.val 0) 31 = true →
      s.dev.bstate = 0 →
      s.dev.rb (tapReg 4) 31 = true →
      (s.dev.mode = 3 ∨ s.dev.mode = 4) →
      s.dev.votesHeld = 2 ^ k.val →
      s.dev.rb (srcReg k.val 0) 27 = false →
      s.dev.votes = 2 ^ k.val →
      Completes (.ballotVoteChange a k true) s (fun t =>
        t.dev.rb (srcReg k.val 0) 27 = true ∧ t.dev.rb (srcReg k.val 0) 26 = true ∧ t.dev.bstate = 1 ∧ t.dev.votesHeld = 0 ∧
          t.dev.reg (tapReg 0x20) = BitVec.ofNat 32 (2 ^ 31 + k.val) ∧ t.dev.tap.since = s.dev.now ∧ t.dev.tap.sole = none ∧
          s.writes (srcReg k.val 0) [.tap] [srcReg k.val 0, tapReg 0, tapReg 0x10, tapReg 0x14, tapReg 0x20, tapReg 0x24] t))
    ∧ (∀ (s : State) (k : Fin 64) (at_ : Nat),
      s.dev.runs = true →
      s.dev.tap.nm.get none k.val = some at_ →
      at_ + s.dev.rf (srcReg k.val 0) 15 0 * msRaw ≤ s.dev.now →
      Completes (.nmTimerExpiry k) s (fun t =>
        t.dev.tap.nm.get none k.val = none ∧ (∀ j : Fin 64, j ≠ k → t.dev.tap.nm.get none j.val = s.dev.tap.nm.get none j.val) ∧
          s.changes [.tap] ((List.range 64).map (fun j => srcReg j 0) ++ [tapReg 0, tapReg 0x10, tapReg 0x14, tapReg 0x20, tapReg
          0x24, tapReg 0x34]) t))
    ∧ (∀ (s : State),
      s.dev.runs = true →
      s.dev.bstate = 1 →
      s.dev.votesHeld = 0 →
      s.dev.needsClean = true → s.dev.tap.clean = true →
      s.dev.tap.since + s.dev.rf (tapReg 4) 15 0 * msRaw ≤ s.dev.now →
      Completes (.ballotDelayExpiry) s (fun t =>
        t.dev.bstate = 2 ∧ t.dev.reg (tapReg 0x34) = 0 ∧ t.dev.reg (tapReg 0x18) = BitVec.ofNat 32 s.dev.tick ∧ t.dev.tap.heldMode =
          s.dev.mode ∧ t.dev.tap.commitCoarse = s.dev.cam.coarse ∧ t.dev.tap.since = s.dev.now ∧ t.dev.tap.held = s.dev.tap.held ++
          [⟨60, 3, s.dev.ballotTarget, s.dev.tick⟩] ∧ t.dev.out = .irq "CANOPY_COMMIT" 0 :: s.dev.out ∧ s.keeps [.regs, .tap, .out]
          t ∧ s.dev.regsKeep [tapReg 0, tapReg 0x34, tapReg 0x18, tapReg 0x1C] t.dev))
    ∧ (∀ (s : State) (a : Acc),
      s.opens a (tapReg 8) = true →
      s.dev.bstate = 2 →
      s.clocked (tapReg 8) = true →
      Completes (.sleepAck a) s (fun t =>
        t.dev.bstate = 3 ∧ s.changes [] [tapReg 0] t))
    ∧ (∀ (s : State),
      s.dev.runs = true →
      s.dev.bstate = 2 →
      s.dev.tap.since + 250 * msRaw ≤ s.dev.now →
      Completes (.sleepAckTimeout) s (fun t =>
        t.dev.bstate = 3 ∧ t.dev.rb (tapReg 0) 30 = true ∧ t.dev.tap =
          { s.dev.tap with held := s.dev.tap.held ++ [⟨60, 5, 0, s.dev.tick⟩] } ∧ s.keeps [.regs, .tap, .out] t ∧ s.dev.regsKeep
          [tapReg 0] t.dev))
    ∧ (∀ (s : State),
      s.dev.runs = true →
      s.dev.bstate = 3 →
      s.dev.mode = 3 ∨ s.dev.mode = 4 →
      s.dev.ballotTarget = 1 →
      Completes (.saveDone) s (fun t =>
        t.dev.tap.asleep = true ∧ t.dev.tap.powerLow = true ∧ t.dev.tap.waking = false ∧ t.dev.tap.saved = false ∧ t.dev.mode = 1 ∧
          t.dev.runs = false ∧ t.dev.out.head? = some (.pin "RET_REQ" 0) ∧ s.keeps [.regs, .basjo, .audit, .cam, .tap, .out] t))
    ∧ (∀ (s : State),
      s.dev.runs = true →
      s.dev.bstate = 3 →
      s.dev.mode = 3 ∨ s.dev.mode = 4 →
      s.dev.ballotTarget = 2 →
      Completes (.saveDone) s (fun t =>
        t.dev.tap.asleep = true ∧ t.dev.tap.powerLow = true ∧ t.dev.tap.saved = (s.dev.rb (tapReg 0x80) 31 && s.dev.xmemReady &&
          !s.dev.rngFailed) ∧ t.dev.mode = 2 ∧ t.dev.runs = false ∧ t.dev.out.head? = some (.pin "PWR_REQ" 0) ∧ s.keeps [.regs,
          .basjo, .audit, .cam, .tap, .out, .draws] t))
    ∧ (∀ (s : State),
      s.dev.runs = true →
      s.dev.bstate = 1 →
      s.dev.needsClean = true →
      Completes (.barkClean) s (fun t =>
        t.dev.tap = { s.dev.tap with clean := true } ∧ t.dev.bark = { s.dev.bark with cache := t.dev.bark.cache } ∧ (∀ n,
          t.dev.bark.cache.get [] n = (s.dev.bark.cache.get [] n).map (fun l => { l with dirty := false })) ∧ s.keeps [.tap, .bark]
          t))
    ∧ (∀ (s : State) (a : Acc),
      s.opens a (tapReg 0x80) = true →
      s.dev.rb (tapReg 0x80) 31 = false →
      s.clocked (tapReg 0x80) = true →
      s.dev.xmemReady = true →
      s.dev.saveRegion.1 + s.dev.saveRegion.2 ≤ s.dev.xmemSize →
      overlaps s.dev.saveRegion s.dev.ovfRegion = false →
      overlaps s.dev.saveRegion s.dev.ctRegion = false →
      Completes (.saveEnable a true) s (fun t =>
        t.dev.reg (tapReg 0x80) = setBit (s.dev.reg (tapReg 0x80)) 31 true ∧ s.changes [] [tapReg 0x80] t))
    ∧ (∀ (s : State) (k at_ : Nat),
      s.dev.runs = true →
      s.dev.tap.sole = some (k, at_) →
      s.dev.tap.soleRaised = false →
      s.dev.rf (tapReg 0x28) 15 0 ≠ 0 →
      at_ + s.dev.rf (tapReg 0x28) 15 0 * (1000 * msRaw) ≤ s.dev.now →
      Completes (.keeperThreshold) s (fun t =>
        t.dev.tap = { s.dev.tap with soleRaised := true } ∧ s.changes [.tap] [] t))
    ∧ (∀ (s : State) (a : Acc) (k : Fin 64) (ready : Bool),
      s.opens a (srcReg k.val 0) = true →
      s.dev.rf (srcReg k.val 0) 30 28 = 1 →
      a.origin ≤ 2 →
      Completes (.ballotVoteChange a k ready) s (fun t =>
        t.dev.reg (srcReg k.val 0) = s.dev.reg (srcReg k.val 0) ∧ s.keeps [.clocks, .clocks] t ∧ t.dev.clocks = (s.dev.demand
          (unitOf (srcReg k.val 0)).1 (unitOf (srcReg k.val 0)).2).clocks))
    ∧ (∀ (s : State) (k : Fin 64),
      s.dev.runs = true →
      s.dev.tap.nm.get none k.val = none →
      Completes (.nmTimerExpiry k) s (fun t =>
        t = s))
    ∧ (∀ (s : State),
      s.dev.runs = true →
      s.dev.bstate ≠ 1 ∨ s.dev.votesHeld ≠ 0 ∨ s.dev.needsClean = true ∧ s.dev.tap.clean = false ∨ s.dev.now < s.dev.tap.since +
        s.dev.rf (tapReg 4) 15 0 * msRaw →
      Completes (.ballotDelayExpiry) s (fun t =>
        t = s))
    ∧ (∀ (s : State) (a : Acc),
      s.opens a (tapReg 8) = true →
      s.dev.bstate ≠ 2 →
      s.clocked (tapReg 8) = true →
      Completes (.sleepAck a) s (fun t =>
        t.dev.reg (tapReg 0) = s.dev.reg (tapReg 0) ∧ s.changes [] [] t))
    ∧ (∀ (s : State),
      s.dev.runs = true →
      s.dev.bstate ≠ 2 ∨ s.dev.now < s.dev.tap.since + 250 * msRaw →
      Completes (.sleepAckTimeout) s (fun t =>
        t = s))
    ∧ (∀ (s : State),
      s.dev.runs = true →
      s.dev.bstate ≠ 3 ∨ s.dev.mode ≠ 3 ∧ s.dev.mode ≠ 4 →
      Completes (.saveDone) s (fun t =>
        t = s))
    ∧ (∀ (s : State),
      s.dev.runs = true →
      s.dev.bstate ≠ 1 ∨ s.dev.needsClean = false →
      Completes (.barkClean) s (fun t =>
        t = s))
    ∧ (∀ (s : State) (a : Acc),
      s.opens a (tapReg 0x80) = true →
      s.dev.rb (tapReg 0x80) 31 = false →
      s.dev.xmemReady = false ∨ s.dev.xmemSize < s.dev.saveRegion.1 + s.dev.saveRegion.2 ∨ overlaps s.dev.saveRegion s.dev.ovfRegion
        = true ∨ overlaps s.dev.saveRegion s.dev.ctRegion = true →
      Completes (.saveEnable a true) s (fun t =>
        t.dev.reg (tapReg 0x80) = setBit (s.dev.reg (tapReg 0x80)) 30 true ∧ s.writes (tapReg 0x80) [] [tapReg 0x80] t))
    ∧ (∀ (s : State) (a : Acc),
      s.opens a (tapReg 0x80) = true →
      s.dev.rb (tapReg 0x80) 31 = true →
      s.clocked (tapReg 0x80) = true →
      Completes (.saveEnable a false) s (fun t =>
        t.dev.reg (tapReg 0x80) = setBit (s.dev.reg (tapReg 0x80)) 31 false ∧ s.changes [] [tapReg 0x80] t))
    ∧ (∀ (s : State),
      s.dev.runs = true →
      s.dev.tap.sole = none ∨ s.dev.rf (tapReg 0x28) 15 0 = 0 ∨ s.dev.tap.soleRaised = true →
      Completes (.keeperThreshold) s (fun t =>
        t = s))

/-- PORST_N, BROWNOUT and REFERENCE_CLOCK_STOP leave the state after reset; VAON_LOSS leaves OFF. Rests on R513, R514, R549, R572,
R257, R402. -/
def Obligations.ColdResetsAndLosses : Prop :=
    (∀ (s : State) (boot : BootResult) (strap : Bool),
      s.dev.tap.asleep = false →
      boot.pufOk = true →
      boot.entropyOk = true →
      s.dev.burl.fuseTamper = false →
      s.dev.burl.tamperLatch = 0 →
      1 ≤ s.dev.burl.fuseLife →
      s.dev.burl.fuseLife ≤ 3 →
      s.dev.burl.fuseRoots = true →
      ((s.dev.reg (rasReg 0x10)).setWidth 16 : BitVec 16).toInt ≤ 8 * ((fld (regReset s.dev.variant (rasReg 0x14)) 7 0 : Int) - 10)
        →
      Completes (.porstN strap boot) s (fun t =>
        t.dev.mode = 4 ∧ t.dev.tap.asleep = false ∧ (∀ a, 0x200000 ≤ a → a < 0x380000 → t.dev.reg a = regReset s.dev.variant a) ∧
          t.dev.words = [] ∧ t.dev.groves = (Dev.resetOf s.dev.variant).groves ∧ t.dev.trunk = (Dev.resetOf s.dev.variant).trunk ∧
          t.dev.crown = (Dev.resetOf s.dev.variant).crown ∧ t.dev.bark = (Dev.resetOf s.dev.variant).bark ∧ t.dev.rx = [] ∧
          t.dev.burl.slots = retiredSlots s.dev.burl.slots ∧ t.dev.burl.liveRoot = some (s.dev.burl.fuseLife - 1) ∧ t.dev.lifeCycle
          = s.dev.burl.fuseLife ∧ t.dev.variant = s.dev.variant ∧ t.dev.cam.raw = s.dev.cam.raw ∧ t.dev.cam.epochRows =
          s.dev.cam.epochRows ∧ t.dev.upd.flash = s.dev.upd.flash ∧ t.dev.upd.journal = s.dev.upd.journal ∧ t.dev.burl.fuseLife =
          s.dev.burl.fuseLife ∧ t.dev.burl.fuseRoots = s.dev.burl.fuseRoots ∧ t.dev.basjo.mem = s.dev.basjo.mem ∧ t.dev.draws =
          s.dev.draws ∧ t.heart = { s.heart with mainSafe := s.heart.mainSafe || (s.heart.on && s.dev.safe) } ∧ t.pending =
          s.pending))
    ∧ (∀ (s : State) (boot : BootResult),
      s.dev.tap.asleep = false →
      boot.pufOk = true →
      boot.entropyOk = true →
      s.dev.burl.fuseTamper = false →
      s.dev.burl.tamperLatch = 0 →
      1 ≤ s.dev.burl.fuseLife →
      s.dev.burl.fuseLife ≤ 3 →
      s.dev.burl.fuseRoots = true →
      ((s.dev.reg (rasReg 0x10)).setWidth 16 : BitVec 16).toInt ≤ 8 * ((fld (regReset s.dev.variant (rasReg 0x14)) 7 0 : Int) - 10)
        →
      Completes (.brownout boot) s (fun t =>
        t.dev.mode = 4 ∧ t.dev.tap.asleep = false ∧ (∀ a, 0x200000 ≤ a → a < 0x380000 → t.dev.reg a = regReset s.dev.variant a) ∧
          t.dev.words = [] ∧ t.dev.groves = (Dev.resetOf s.dev.variant).groves ∧ t.dev.trunk = (Dev.resetOf s.dev.variant).trunk ∧
          t.dev.crown = (Dev.resetOf s.dev.variant).crown ∧ t.dev.bark = (Dev.resetOf s.dev.variant).bark ∧ t.dev.rx = [] ∧
          t.dev.burl.slots = retiredSlots s.dev.burl.slots ∧ t.dev.burl.liveRoot = some (s.dev.burl.fuseLife - 1) ∧ t.dev.lifeCycle
          = s.dev.burl.fuseLife ∧ t.dev.variant = s.dev.variant ∧ t.dev.cam.raw = s.dev.cam.raw ∧ t.dev.cam.epochRows =
          s.dev.cam.epochRows ∧ t.dev.upd.flash = s.dev.upd.flash ∧ t.dev.upd.journal = s.dev.upd.journal ∧ t.dev.burl.fuseLife =
          s.dev.burl.fuseLife ∧ t.dev.burl.fuseRoots = s.dev.burl.fuseRoots ∧ t.dev.basjo.mem = s.dev.basjo.mem ∧ t.dev.draws =
          s.dev.draws ∧ t.heart = { s.heart with mainSafe := s.heart.mainSafe || (s.heart.on && s.dev.safe) } ∧ t.pending =
          s.pending))
    ∧ (∀ (s : State) (boot : BootResult),
      s.dev.tap.asleep = false →
      boot.pufOk = true →
      boot.entropyOk = true →
      s.dev.burl.fuseTamper = false →
      s.dev.burl.tamperLatch = 0 →
      1 ≤ s.dev.burl.fuseLife →
      s.dev.burl.fuseLife ≤ 3 →
      s.dev.burl.fuseRoots = true →
      ((s.dev.reg (rasReg 0x10)).setWidth 16 : BitVec 16).toInt ≤ 8 * ((fld (regReset s.dev.variant (rasReg 0x14)) 7 0 : Int) - 10)
        →
      Completes (.referenceClockStop boot) s (fun t =>
        t.dev.mode = 4 ∧ t.dev.tap.asleep = false ∧ (∀ a, 0x200000 ≤ a → a < 0x380000 → t.dev.reg a = regReset s.dev.variant a) ∧
          t.dev.words = [] ∧ t.dev.groves = (Dev.resetOf s.dev.variant).groves ∧ t.dev.trunk = (Dev.resetOf s.dev.variant).trunk ∧
          t.dev.crown = (Dev.resetOf s.dev.variant).crown ∧ t.dev.bark = (Dev.resetOf s.dev.variant).bark ∧ t.dev.rx = [] ∧
          t.dev.burl.slots = retiredSlots s.dev.burl.slots ∧ t.dev.burl.liveRoot = some (s.dev.burl.fuseLife - 1) ∧ t.dev.lifeCycle
          = s.dev.burl.fuseLife ∧ t.dev.variant = s.dev.variant ∧ t.dev.cam.raw = s.dev.cam.raw ∧ t.dev.cam.epochRows =
          s.dev.cam.epochRows ∧ t.dev.upd.flash = s.dev.upd.flash ∧ t.dev.upd.journal = s.dev.upd.journal ∧ t.dev.burl.fuseLife =
          s.dev.burl.fuseLife ∧ t.dev.burl.fuseRoots = s.dev.burl.fuseRoots ∧ t.dev.basjo.mem = s.dev.basjo.mem ∧ t.dev.draws =
          s.dev.draws ∧ t.heart = { s.heart with mainSafe := s.heart.mainSafe || (s.heart.on && s.dev.safe) } ∧ t.pending =
          s.pending))
    ∧ (∀ (s : State),
      Completes (.vaonLoss) s (fun t =>
        t.dev.tap.asleep = true ∧ t.dev.tap.waking = true ∧ t.dev.mode = 0 ∧ t.dev.runs = false ∧ (∀ a, a ≠ canopyReg 0 → a ≠ 0x20 →
          t.dev.reg a = regReset s.dev.variant a) ∧ t.dev.words = [] ∧ t.dev.groves = (Dev.resetOf s.dev.variant).groves ∧
          t.dev.trunk = (Dev.resetOf s.dev.variant).trunk ∧ t.dev.burl.slots = retiredSlots s.dev.burl.slots ∧
          t.dev.burl.tamperLatch = 0 ∧ t.dev.variant = s.dev.variant ∧ t.dev.cam.epochRows = s.dev.cam.epochRows ∧ t.dev.upd =
          s.dev.upd ∧ t.dev.burl.fuseLife = s.dev.burl.fuseLife ∧ t.dev.burl.fuseRoots = s.dev.burl.fuseRoots ∧ t.dev.basjo.mem =
          s.dev.basjo.mem ∧ t.dev.draws = s.dev.draws ∧ t.heart =
          { s.heart with mainSafe := s.heart.mainSafe || (s.heart.on && s.dev.safe) } ∧ t.pending = s.pending))
    ∧ (∀ (s : State) (restore : RestoreCheck) (boot : BootResult),
      s.dev.tap.asleep = true →
      s.dev.tap.waking = true →
      s.dev.mode = 0 →
      s.dev.cam.anchor.isNone = true →
      s.dev.cam.epochRows < 1024 →
      boot.pufOk = true →
      boot.entropyOk = true →
      Completes (.pwrGoodRise restore boot) s (fun t =>
        t.dev.cam.raw = 0 ∧ t.dev.cam.epochRows = s.dev.cam.epochRows + 1 ∧ t.dev.reg (camReg 4) = BitVec.ofNat 32
          (s.dev.cam.epochRows + 1) ∧ t.dev.tap.asleep = false ∧ t.dev.words = [] ∧ t.dev.burl.slots = retiredSlots s.dev.burl.slots
          ∧ t.dev.variant = s.dev.variant ∧ t.dev.upd.flash = s.dev.upd.flash ∧ t.dev.draws = s.dev.draws ∧ t.heart = s.heart ∧
          t.pending = s.pending))
    ∧ (∀ (s : State) (boot : BootResult),
      s.dev.tap.asleep = true →
      Completes (.brownout boot) s (fun t =>
        t.dev = s.dev ∧ t.pending = s.pending))
    ∧ (∀ (s : State) (boot : BootResult),
      s.dev.tap.asleep = true →
      Completes (.referenceClockStop boot) s (fun t =>
        t.dev = s.dev ∧ t.pending = s.pending))

/-- WARM_N keeps keys, time and the change log; a wake from HIBERNATE boots in full. Rests on R486, R488, R489, R513, R514, R551. -/
def Obligations.WarmResetAndWake : Prop :=
    (∀ (s : State) (boot : BootResult),
      s.dev.tap.asleep = false →
      s.dev.rb (updReg 4) 30 = false →
      s.dev.upd.unstarted = false →
      s.dev.manifestSlot = s.dev.runSlot →
      boot.sramOk = true →
      s.dev.lifeCycle ≠ 4 →
      ((s.dev.reg (rasReg 0x10)).setWidth 16 : BitVec 16).toInt ≤ 8 * ((fld (regReset s.dev.variant (rasReg 0x14)) 7 0 : Int) - 10)
        →
      Completes (.warmN boot) s (fun t =>
        t.dev.mode = 4 ∧ t.dev.tap.asleep = false ∧ (∀ a, 0x200000 ≤ a → a < 0x380000 → t.dev.reg a = regReset s.dev.variant a) ∧
          t.dev.words = [] ∧ t.dev.groves = (Dev.resetOf s.dev.variant).groves ∧ t.dev.trunk = (Dev.resetOf s.dev.variant).trunk ∧
          t.dev.crown = (Dev.resetOf s.dev.variant).crown ∧ t.dev.rx = [] ∧ t.dev.burl.slots = s.dev.burl.slots ∧ t.dev.burl.scs =
          [] ∧ t.dev.lifeCycle = s.dev.lifeCycle ∧ t.dev.variant = s.dev.variant ∧ t.dev.cam.raw = s.dev.cam.raw ∧
          t.dev.burl.liveRoot = s.dev.burl.liveRoot ∧ t.dev.upd = s.dev.upd ∧ t.dev.basjo.mem = s.dev.basjo.mem ∧ (∀ x ∈
          s.dev.audit.entries, s.dev.audit.entries.length < 16000 → x ∈ t.dev.audit.entries) ∧ t.heart =
          { s.heart with mainSafe := s.heart.mainSafe || (s.heart.on && s.dev.safe) } ∧ t.pending = s.pending))
    ∧ (∀ (s : State) (restore : RestoreCheck) (boot : BootResult),
      s.dev.tap.asleep = true →
      s.dev.tap.waking = true →
      s.dev.mode = 1 →
      s.dev.cam.anchor.isSome = true →
      boot.pufOk = true →
      boot.entropyOk = true →
      s.dev.burl.fuseTamper = false →
      s.dev.burl.tamperLatch = 0 →
      1 ≤ s.dev.burl.fuseLife →
      s.dev.burl.fuseLife ≤ 3 →
      s.dev.burl.fuseRoots = true →
      ((s.dev.reg (rasReg 0x10)).setWidth 16 : BitVec 16).toInt ≤ 8 * ((fld (regReset s.dev.variant (rasReg 0x14)) 7 0 : Int) - 10)
        →
      Completes (.pwrGoodRise restore boot) s (fun t =>
        t.dev.mode = 4 ∧ t.dev.tap.asleep = false ∧ (∀ a, 0x200000 ≤ a → a < 0x380000 → t.dev.reg a = regReset s.dev.variant a) ∧
          t.dev.words = [] ∧ t.dev.groves = (Dev.resetOf s.dev.variant).groves ∧ t.dev.trunk = (Dev.resetOf s.dev.variant).trunk ∧
          t.dev.crown = (Dev.resetOf s.dev.variant).crown ∧ t.dev.bark = (Dev.resetOf s.dev.variant).bark ∧ t.dev.rx = [] ∧
          t.dev.burl.slots = retiredSlots s.dev.burl.slots ∧ t.dev.burl.liveRoot = some (s.dev.burl.fuseLife - 1) ∧ t.dev.lifeCycle
          = s.dev.burl.fuseLife ∧ t.dev.variant = s.dev.variant ∧ t.dev.cam.raw = s.dev.cam.raw ∧ t.dev.cam.epochRows =
          s.dev.cam.epochRows ∧ t.dev.upd.flash = s.dev.upd.flash ∧ t.dev.upd.journal = s.dev.upd.journal ∧ t.dev.burl.fuseLife =
          s.dev.burl.fuseLife ∧ t.dev.burl.fuseRoots = s.dev.burl.fuseRoots ∧ t.dev.basjo.mem = s.dev.basjo.mem ∧ t.dev.draws =
          s.dev.draws ∧ t.heart = s.heart ∧ t.pending = s.pending))
    ∧ (∀ (s : State) (restore : RestoreCheck) (boot : BootResult),
      s.dev.tap.asleep = true →
      s.dev.tap.waking = true →
      s.dev.mode = 2 →
      s.dev.tap.saved = false →
      s.dev.burl.tamperLatch = 0 →
      s.dev.tap.heldMode ≠ 2 →
      Completes (.pwrGoodRise restore boot) s (fun t =>
        t.dev.mode = s.dev.tap.heldMode ∧ t.dev.tap.asleep = false ∧ t.dev.tap.waking = false ∧ t.dev.words = [] ∧ t.dev.groves =
          (Dev.resetOf s.dev.variant).groves ∧ t.dev.burl.slots = s.dev.burl.slots ∧ t.dev.variant = s.dev.variant ∧ t.dev.cam.raw =
          s.dev.cam.raw ∧ t.dev.upd = s.dev.upd ∧ t.dev.basjo.mem = s.dev.basjo.mem ∧ t.heart = s.heart ∧ t.pending = s.pending))
    ∧ (∀ (s : State) (restore : RestoreCheck) (boot : BootResult),
      s.dev.tap.asleep = true →
      s.dev.tap.waking = true →
      s.dev.mode = 2 →
      restore ≠ .good →
      s.dev.tap.saved = true ∨ restore = .retention →
      s.dev.cam.anchor.isSome = true →
      boot.pufOk = true →
      boot.entropyOk = true →
      s.dev.burl.fuseTamper = false →
      s.dev.burl.tamperLatch = 0 →
      1 ≤ s.dev.burl.fuseLife →
      s.dev.burl.fuseLife ≤ 3 →
      s.dev.burl.fuseRoots = true →
      ((s.dev.reg (rasReg 0x10)).setWidth 16 : BitVec 16).toInt ≤ 8 * ((fld (regReset s.dev.variant (rasReg 0x14)) 7 0 : Int) - 10)
        →
      Completes (.pwrGoodRise restore boot) s (fun t =>
        t.dev.mode = 4 ∧ t.dev.tap.asleep = false ∧ (∀ a, 0x200000 ≤ a → a < 0x380000 → t.dev.reg a = regReset s.dev.variant a) ∧
          t.dev.words = [] ∧ t.dev.groves = (Dev.resetOf s.dev.variant).groves ∧ t.dev.trunk = (Dev.resetOf s.dev.variant).trunk ∧
          t.dev.crown = (Dev.resetOf s.dev.variant).crown ∧ t.dev.bark = (Dev.resetOf s.dev.variant).bark ∧ t.dev.rx = [] ∧
          t.dev.burl.slots = retiredSlots s.dev.burl.slots ∧ t.dev.burl.liveRoot = some (s.dev.burl.fuseLife - 1) ∧ t.dev.lifeCycle
          = s.dev.burl.fuseLife ∧ t.dev.variant = s.dev.variant ∧ t.dev.cam.raw = s.dev.cam.raw ∧ t.dev.cam.epochRows =
          s.dev.cam.epochRows ∧ t.dev.upd.flash = s.dev.upd.flash ∧ t.dev.upd.journal = s.dev.upd.journal ∧ t.dev.burl.fuseLife =
          s.dev.burl.fuseLife ∧ t.dev.burl.fuseRoots = s.dev.burl.fuseRoots ∧ t.dev.basjo.mem = s.dev.basjo.mem ∧ t.dev.draws =
          s.dev.draws ∧ t.heart = s.heart ∧ t.pending = s.pending))
    ∧ (∀ (s : State) (boot : BootResult) (k : Nat) (e : FdbEntry),
      s.dev.tap.asleep = true →
      s.dev.tap.waking = true →
      s.dev.mode = 2 →
      s.dev.tap.saved = true →
      s.dev.burl.tamperLatch = 0 →
      s.dev.tap.heldMode ≠ 2 →
      s.dev.groves.fdb.wf (fun _ => none) = true →
      s.dev.groves.fdb.get none k = some e →
      e.isStatic = true →
      Completes (.pwrGoodRise .good boot) s (fun t =>
        t.dev.groves.fdb.get none k = some e ∧ t.dev.mode = s.dev.tap.heldMode ∧ t.dev.burl.slots = s.dev.burl.slots ∧
          t.dev.roots.routes = s.dev.roots.routes ∧ t.dev.variant = s.dev.variant ∧ t.dev.cam.raw = s.dev.cam.raw ∧ t.dev.upd =
          s.dev.upd ∧ t.heart = s.heart ∧ t.pending = s.pending))
    ∧ (∀ (s : State) (restore : RestoreCheck) (boot : BootResult),
      s.dev.tap.asleep = false ∨ s.dev.tap.waking = false →
      Completes (.pwrGoodRise restore boot) s (fun t =>
        t = s))
    ∧ (∀ (s : State) (boot : BootResult),
      s.dev.tap.asleep = true →
      Completes (.warmN boot) s (fun t =>
        t.dev = s.dev ∧ t.pending = s.pending))

/-- SOFT_RESET of a unit, CLK_HOLD and CLK_IDLE_EXPIRY. Rests on R503, R507, R508, R514, R515, R516. -/
def Obligations.SoftResetsAndClockHolds : Prop :=
    (∀ (s : State) (d : CmdDesc),
      s.starts d 0 0 3 [0xFFFF, 0, 0, 0, 0] = true →
      (fld d.p8 15 8) = 0x30 →
      (fld d.p8 7 0) = 0 →
      s.dev.softBusy d = false →
      s.dev.safe = false →
      Completes (.softReset d) s (fun t =>
        t.dev.bark = { s.dev.bark with limits := [], logs := [], anomaly := [] } ∧ (∀ a, inScope 0x30 0 a = true → softKeeps a =
          false → t.dev.reg a = cfgOnly s.dev.variant a (s.dev.reg a)) ∧ (∀ a, (inScope 0x30 0 a = false ∨ softKeeps a = true) →
          t.dev.reg a = s.dev.reg a) ∧ s.keeps [.regs, .basjo, .audit, .clocks, .bark] t ∧ s.dev.basjo.answers d stOk 0 0
          t.dev.basjo))
    ∧ (∀ (s : State) (d : CmdDesc),
      s.starts d 0 0 3 [0xFFFF, 0, 0, 0, 0] = true →
      (fld d.p8 15 8) = 0x31 →
      (fld d.p8 7 0) < 24 →
      canPresent s.dev.variant (fld d.p8 7 0) = true →
      s.dev.softBusy d = false →
      s.dev.safe = false →
      Completes (.softReset d) s (fun t =>
        t.dev.roots =
          { s.dev.roots with canq := s.dev.roots.canq.keep (fun k _ => decide (k ≠ (fld d.p8 7 0))), errs := s.dev.roots.errs.keep (fun k _ => decide (k ≠ (fld d.p8 7 0))), lin := t.dev.roots.lin }
          ∧ (∀ a, inScope 0x31 (fld d.p8 7 0) a = true → t.dev.reg a = if softKeeps a then s.dev.reg a else cfgOnly s.dev.variant a
          (s.dev.reg a)) ∧ (∀ a, inScope 0x31 (fld d.p8 7 0) a = false → t.dev.reg a = s.dev.reg a) ∧ s.keeps [.regs, .basjo,
          .audit, .clocks, .roots] t ∧ s.dev.basjo.answers d stOk 0 0 t.dev.basjo))
    ∧ (∀ (s : State) (d : CmdDesc),
      s.starts d 0 0 3 [0xFFFF, 0, 0, 0, 0] = true →
      unitPresent s.dev.variant s.dev.split (fld d.p8 15 8) (fld d.p8 7 0) = true →
      [0, 0x61, 0x50, 0x60].contains (fld d.p8 15 8) = false →
      (fld d.p8 15 8) ≠ 0x22 →
      s.dev.safe = true →
      Completes (.softReset d) s (fun t =>
        s.dev.basjo.answers d stWrongMode 0 0 t.dev.basjo ∧ s.completes d [] [] t))
    ∧ (∀ (s : State) (a : Acc) (c u : Nat),
      s.opens a 0x4C = true →
      s.dev.clocks.sel.get 0 a.origin.val = BitVec.ofNat 16 (256 * c + u) →
      c < 256 →
      u < 255 →
      unitPresent s.dev.variant s.dev.split c u = true →
      Completes (.clkHold a true) s (fun t =>
        (t.dev.clocks.holders.get 0 (256 * c + u)).getLsbD a.origin.val = true ∧ (∀ o : Fin 11, o ≠ a.origin →
          (t.dev.clocks.holders.get 0 (256 * c + u)).getLsbD o.val = (s.dev.clocks.holders.get 0 (256 * c + u)).getLsbD o.val) ∧
          (256 * c + u) ∉ t.dev.clocks.stopped ∧ s.keeps [.regs, .basjo, .audit, .clocks, .words] t))
    ∧ (∀ (s : State) (a : Acc) (c u : Nat),
      s.opens a 0x4C = true →
      s.dev.clocks.sel.get 0 a.origin.val = BitVec.ofNat 16 (256 * c + u) →
      c < 256 →
      u < 255 →
      unitPresent s.dev.variant s.dev.split c u = true →
      Completes (.clkHold a false) s (fun t =>
        (t.dev.clocks.holders.get 0 (256 * c + u)).getLsbD a.origin.val = false ∧ (∀ o : Fin 11, o ≠ a.origin →
          (t.dev.clocks.holders.get 0 (256 * c + u)).getLsbD o.val = (s.dev.clocks.holders.get 0 (256 * c + u)).getLsbD o.val) ∧
          t.dev.clocks.stopped = s.dev.clocks.stopped ∧ s.keeps [.audit, .clocks, .basjo] t ∧ s.dev.basjo.eventsOnly t.dev.basjo))
    ∧ (∀ (s : State) (cluster unit : BitVec 8),
      s.dev.runs = true →
      unit ≠ 0xFF →
      unitPresent s.dev.variant s.dev.split cluster.toNat unit.toNat = true →
      s.dev.unitPowered cluster.toNat unit.toNat = true →
      s.dev.gateable cluster.toNat unit.toNat = true →
      s.dev.holders cluster.toNat unit.toNat = 0 →
      s.dev.rf 0x50 19 0 ≠ 0 →
      Completes (.clkIdleExpiry cluster unit) s (fun t =>
        (256 * cluster.toNat + unit.toNat) ∈ t.dev.clocks.stopped ∧ (∀ x, x ≠ 256 * cluster.toNat + unit.toNat → (x ∈
          t.dev.clocks.stopped ↔ x ∈ s.dev.clocks.stopped)) ∧ s.keeps [.clocks] t ∧ t.dev.clocks.holders = s.dev.clocks.holders ∧
          t.dev.clocks.held = s.dev.clocks.held))
    ∧ (∀ (s : State) (d : CmdDesc),
      s.starts d 0 0 3 [0xFFFF, 0, 0, 0, 0] = true →
      s.dev.softBusy d = true →
      unitPresent s.dev.variant s.dev.split (fld d.p8 15 8) (fld d.p8 7 0) = true →
      [0, 0x61, 0x50, 0x60].contains (fld d.p8 15 8) = false →
      ¬ ((fld d.p8 15 8) = 0x22 ∧ (fld d.p8 7 0) = 0) →
      s.dev.safe = false →
      Completes (.softReset d) s (fun t =>
        t = s))
    ∧ (∀ (s : State) (d : CmdDesc),
      s.starts d 0 0 3 [0xFFFF, 0, 0, 0, 0] = true →
      unitPresent s.dev.variant s.dev.split (fld d.p8 15 8) (fld d.p8 7 0) = false →
      Completes (.softReset d) s (fun t =>
        s.dev.basjo.answers d stNotPresent 0 0 t.dev.basjo ∧ s.completes d [] [] t))
    ∧ (∀ (s : State) (d : CmdDesc),
      s.starts d 0 0 3 [0xFFFF, 0, 0, 0, 0] = true →
      unitPresent s.dev.variant s.dev.split (fld d.p8 15 8) (fld d.p8 7 0) = true →
      [0, 0x61, 0x50, 0x60].contains (fld d.p8 15 8) = true →
      Completes (.softReset d) s (fun t =>
        s.dev.basjo.answers d stBadParam 0 0 t.dev.basjo ∧ s.completes d [] [] t))
    ∧ (∀ (s : State) (cluster unit : BitVec 8),
      s.dev.runs = true →
      s.dev.holders cluster.toNat unit.toNat ≠ 0 ∨ s.dev.gateable cluster.toNat unit.toNat = false ∨ s.dev.rf 0x50 19 0 = 0 →
      Completes (.clkIdleExpiry cluster unit) s (fun t =>
        t = s))

/-- SAFE_REQ, a temperature at TEMP_SHUT, a control error and lost time enter SAFE. Rests on R271, R517, R518, R519, R520, R522. -/
def Obligations.SafeIsEntered : Prop :=
    (∀ (s : State) (a : Acc),
      s.opens a (rasReg 8) = true →
      s.clocked (rasReg 8) = true →
      s.dev.safe = false →
      Completes (.safeReq a) s (fun t =>
        t.dev.safe = true ∧ t.dev.mode = 6 ∧ t.dev.reg (rasReg 0) = 0x80700006 ∧ t.dev.decap = [] ∧ (∀ n, n < 24 → canPresent
          s.dev.variant n = true → s.dev.canQueue n = [] → t.dev.rb (canReg n 0) 28 = true ∧ t.dev.rb (canReg n 0) 25 = false) ∧
          t.dev.out.head?.isSome = true ∧ s.keeps [.regs, .basjo, .audit, .rx, .passed, .trunk, .crown, .slowq, .decap, .out,
          .ports, .roots, .tap, .clocks] t))
    ∧ (∀ (s : State) (temp : BitVec 16),
      s.dev.runs = true →
      s.dev.safe = false →
      8 * (s.dev.rf (rasReg 0x14) 7 0 : Int) ≤ temp.toInt →
      Completes (.tempShutdown temp) s (fun t =>
        t.dev.safe = true ∧ t.dev.mode = 6 ∧ t.dev.reg (rasReg 0) = 0x80700004 ∧ t.dev.decap = [] ∧ (∀ n, n < 24 → canPresent
          s.dev.variant n = true → s.dev.canQueue n = [] → t.dev.rb (canReg n 0) 28 = true ∧ t.dev.rb (canReg n 0) 25 = false) ∧
          t.dev.out.head?.isSome = true ∧ t.dev.rf (rasReg 0x10) 15 0 = temp.toNat ∧ s.keeps [.regs, .basjo, .audit, .rx, .passed,
          .trunk, .crown, .slowq, .decap, .out, .ports, .roots, .tap, .clocks] t))
    ∧ (∀ (s : State) (temp : BitVec 16),
      s.dev.runs = true →
      temp.toInt < 8 * (s.dev.rf (rasReg 0x14) 7 0 : Int) →
      Completes (.tempShutdown temp) s (fun t =>
        t.dev.rf (rasReg 0x10) 15 0 = temp.toNat ∧ t.dev.safe = s.dev.safe ∧ s.keeps [.regs] t ∧ s.dev.regsKeep [rasReg 0x10]
          t.dev))
    ∧ (∀ (s : State) (cluster unit : BitVec 8),
      s.dev.runs = true →
      s.dev.safe = false →
      controlState cluster.toNat unit.toNat = true →
      unitPresent s.dev.variant s.dev.split cluster.toNat unit.toNat = true →
      Completes (.uncorrectableControlError cluster unit) s (fun t =>
        t.dev.safe = true ∧ t.dev.mode = 6 ∧ t.dev.reg (rasReg 0) = BitVec.ofNat 32 (2 ^ 31 + cluster.toNat * 65536 + unit.toNat *
          256 + 1) ∧ t.dev.decap = [] ∧ (∀ n, n < 24 → canPresent s.dev.variant n = true → s.dev.canQueue n = [] → t.dev.rb (canReg
          n 0) 28 = true ∧ t.dev.rb (canReg n 0) 25 = false) ∧ t.dev.out.head?.isSome = true ∧ (t.dev.rasUnit cluster.toNat
          unit.toNat).ue = (s.dev.rasUnit cluster.toNat unit.toNat).ue + 1 ∧ s.keeps [.regs, .basjo, .audit, .rx, .passed, .trunk,
          .crown, .slowq, .decap, .out, .ports, .roots, .tap, .clocks, .ras] t))
    ∧ (∀ (s : State),
      s.dev.runs = true →
      s.dev.bothLost = false →
      s.dev.bothLostNow = true →
      s.dev.safe = false →
      (List.range 36).any (fun n => s.dev.rb (crownReg n 0x10) 31) = true →
      Completes (.bothLostRise) s (fun t =>
        t.dev.safe = true ∧ t.dev.mode = 6 ∧ t.dev.reg (rasReg 0) = 0x80220303 ∧ t.dev.decap = [] ∧ (∀ n, n < 24 → canPresent
          s.dev.variant n = true → s.dev.canQueue n = [] → t.dev.rb (canReg n 0) 28 = true ∧ t.dev.rb (canReg n 0) 25 = false) ∧
          t.dev.out.head?.isSome = true ∧ t.dev.bothLost = true ∧ s.keeps [.regs, .basjo, .audit, .rx, .passed, .trunk, .crown,
          .slowq, .decap, .out, .ports, .roots, .tap, .clocks] t))
    ∧ (∀ (s : State),
      s.dev.runs = true →
      s.dev.bothLost = false →
      s.dev.bothLostNow = true →
      (List.range 36).any (fun n => s.dev.rb (crownReg n 0x10) 31) = false →
      Completes (.bothLostRise) s (fun t =>
        t.dev.bothLost = true ∧ t.dev.safe = s.dev.safe ∧ s.changes [] [camReg 0x204] t))
    ∧ (∀ (s : State) (a : Acc),
      s.opens a (rasReg 8) = true →
      s.clocked (rasReg 8) = true →
      s.dev.safe = true →
      Completes (.safeReq a) s (fun t =>
        t.dev.safe = true ∧ s.changes [] [] t))
    ∧ (∀ (s : State) (cluster unit : BitVec 8),
      s.dev.runs = true →
      controlState cluster.toNat unit.toNat = false ∨ unitPresent s.dev.variant s.dev.split cluster.toNat unit.toNat = false →
      Completes (.uncorrectableControlError cluster unit) s (fun t =>
        t = s))
    ∧ (∀ (s : State),
      s.dev.runs = true →
      s.dev.bothLost = true ∨ s.dev.bothLostNow = false →
      Completes (.bothLostRise) s (fun t =>
        t = s))

/-- Corrected errors count and warn, spares are brought in, and windows end. Rests on R523, R524, R525, R526. -/
def Obligations.ErrorsAreCountedAndSparesServe : Prop :=
    (∀ (s : State) (g : Fin 4) (e : Fin 9),
      s.dev.runs = true →
      unitPresent s.dev.variant s.dev.split (0x10 + g.val) e.val = true →
      (s.dev.rasUnit (0x10 + g.val) e.val).win + 1 < s.dev.retireAt 1 →
      ((s.dev.rasUnit (0x10 + g.val) e.val).warned = true ∨ (s.dev.rasUnit (0x10 + g.val) e.val).win + 1 < s.dev.warnAt 1) →
      Completes (.correctedError (.walkEngine g e)) s (fun t =>
        t.dev.rasUnit (0x10 + g.val) e.val =
          { (s.dev.rasUnit (0x10 + g.val) e.val) with win := (s.dev.rasUnit (0x10 + g.val) e.val).win + 1, total := (s.dev.rasUnit (0x10 + g.val) e.val).total + 1 }
          ∧ (∀ c < 256, ∀ u < 256, ¬ (c = 0x10 + g.val ∧ u = e.val) → t.dev.rasUnit c u = s.dev.rasUnit c u) ∧ s.keeps [.ras] t))
    ∧ (∀ (s : State) (g : Fin 4) (e : Fin 9),
      s.dev.runs = true →
      unitPresent s.dev.variant s.dev.split (0x10 + g.val) e.val = true →
      e ≠ 8 →
      (s.dev.rasUnit (0x10 + g.val) e.val).win + 1 ≥ s.dev.retireAt 1 →
      ((s.dev.rasUnit (0x10 + g.val) e.val).warned = true ∨ (s.dev.rasUnit (0x10 + g.val) e.val).win + 1 < s.dev.warnAt 1) →
      (s.dev.rasUnit (0x10 + g.val) e.val).retired = false →
      (s.dev.rasUnit (0x10 + g.val) 8).other = none →
      (s.dev.rasUnit (0x10 + g.val) 8).retired = false →
      Completes (.correctedError (.walkEngine g e)) s (fun t =>
        t.dev.rasUnit (0x10 + g.val) e.val =
          { (s.dev.rasUnit (0x10 + g.val) e.val) with win := (s.dev.rasUnit (0x10 + g.val) e.val).win + 1, total := (s.dev.rasUnit (0x10 + g.val) e.val).total + 1, retired := true, other := some 8 }
          ∧ (t.dev.rasUnit (0x10 + g.val) 8).other = some e.val ∧ t.dev.rb (groveReg g.val 0) e.val = false ∧ t.dev.rb (groveReg
          g.val 0) 8 = true ∧ s.changes [.ras] [groveReg g.val 0] t))
    ∧ (∀ (s : State) (k : Fin 3),
      s.dev.runs = true →
      s.dev.split = false →
      s.dev.ras.scrubAt.all (fun t => decide (t / s.dev.scrubPeriod < s.dev.now / s.dev.scrubPeriod)) = true →
      Completes (.scrubPass [⟨.checkpointBuffer k, true⟩]) s (fun t =>
        t.dev.ckptValid k.val = false ∧ t.dev.rasUnit 0x60 k.val =
          { s.dev.rasUnit 0x60 k.val with ue := (s.dev.rasUnit 0x60 k.val).ue + 1 } ∧ s.changes [.ras] [pairReg k.val 0] t))
    ∧ (∀ (s : State) (k : Fin 3),
      s.dev.runs = true →
      s.dev.split = false →
      s.dev.ras.scrubAt.all (fun t => decide (t / s.dev.scrubPeriod < s.dev.now / s.dev.scrubPeriod)) = true →
      Completes (.scrubPass [⟨.checkpointBuffer k, false⟩]) s (fun t =>
        t.dev.rasUnit 0x60 k.val =
          { s.dev.rasUnit 0x60 k.val with win := (s.dev.rasUnit 0x60 k.val).win + 1, total := (s.dev.rasUnit 0x60 k.val).total + 1 }
          ∧ s.keeps [.ras] t))
    ∧ (∀ (s : State) (p : Nat) (b : Nat) (r : List Retire),
      s.dev.runs = true →
      s.dev.trunk.retiring = ⟨true, p, b⟩ :: r →
      (r = [] ∨ (r.head?.map (·.spare)) = some true) →
      Completes (.bankRetireCopyDone) s (fun t =>
        t.dev.trunk = { s.dev.trunk with retiring := r, spareAt := t.dev.trunk.spareAt } ∧ t.dev.trunk.spareAt.get none (16 + (2 -
          s.dev.trunk.spareBanks - s.dev.trunk.retiring.countP (·.spare))) = some p ∧ s.changes [.trunk] [] t))
    ∧ (∀ (s : State),
      s.dev.runs = true →
      s.dev.windowNow ≠ s.dev.ras.window →
      Completes (.rasWindowEnd) s (fun t =>
        t.dev.ras.window = s.dev.windowNow ∧ t.dev.ras.banks = [] ∧ t.dev.ras.rows = [] ∧ t.dev.ras.banksOut = s.dev.ras.banksOut ∧
          t.dev.ras.rowsOut = s.dev.ras.rowsOut ∧ (∀ c < 256, ∀ u < 256, t.dev.rasUnit c u =
          { s.dev.rasUnit c u with win := 0, warned := false }) ∧ s.keeps [.ras] t))
    ∧ (∀ (s : State) (b : Fin 8) (pos : Fin 64),
      s.dev.runs = true →
      s.dev.ras.scrubAt.all (fun t => decide (t / s.dev.scrubPeriod < s.dev.now / s.dev.scrubPeriod)) = true →
      s.dev.rasUnit 0x40 (16 + b.val) = .idle →
      s.dev.rasUnit 0x40 24 = .idle →
      (s.dev.slot (64 * b.val + pos.val)).state = 1 →
      Completes (.scrubPass [⟨.keyBank (b.castLE (by decide)) pos, true⟩]) s (fun t =>
        t.dev.slot (64 * b.val + pos.val) = (s.dev.slot (64 * b.val + pos.val)).cleared ∧ (t.dev.rasUnit 0x40 (16 + b.val)).retired
          = true ∧ (t.dev.rasUnit 0x40 24).other = some (16 + b.val) ∧ t.dev.rb (burlReg 0x4010) 8 = true ∧ s.changes [.burl, .ras]
          [burlReg 0x4010, burlReg 0x4020] t))
    ∧ (∀ (s : State) (b : Fin 18),
      s.dev.runs = true →
      s.dev.ras.banks.get 0 b.val + 1 ≥ s.dev.retireAt 0 →
      s.dev.bankServes b.val = true →
      s.dev.trunk.spareBanks ≠ 0 →
      Completes (.correctedError (.trunkBank b)) s (fun t =>
        t.dev.trunk =
          { s.dev.trunk with spareBanks := s.dev.trunk.spareBanks - 1, retiring := s.dev.trunk.retiring ++ [⟨true, s.dev.bankPlace b.val, b.val⟩] }
          ∧ t.dev.bankServes b.val = false ∧ s.changes [.trunk, .ras] [] t))
    ∧ (∀ (s : State) (x : EccPart),
      s.dev.runs = true →
      s.dev.hasPart x = false →
      Completes (.correctedError x) s (fun t =>
        t = s))
    ∧ (∀ (s : State) (l : List ScrubFind),
      s.dev.runs = true →
      s.dev.ras.scrubAt = some s.dev.now →
      Completes (.scrubPass l) s (fun t =>
        t = s))
    ∧ (∀ (s : State),
      s.dev.runs = true →
      s.dev.trunk.retiring = [] →
      Completes (.bankRetireCopyDone) s (fun t =>
        t = s))
    ∧ (∀ (s : State),
      s.dev.runs = true →
      s.dev.windowNow = s.dev.ras.window →
      Completes (.rasWindowEnd) s (fun t =>
        t = s))

/-- ROLE_SET, heartbeats, silence, takeover and the proof test. Rests on R527, R528, R529, R530, R531, R532. -/
def Obligations.PairRolesAndHeartbeats : Prop :=
    (∀ (s : State) (a : Acc) (active : Bool),
      s.opens a (rasReg 0x200) = true →
      Completes (.roleSet a active) s (fun t =>
        t.dev.active = active ∧ t.dev.reg (rasReg 0x200) = setBit (s.dev.reg (rasReg 0x200)) 29 active ∧ t.dev.rf (rasReg 0x204) 30
          0 = s.dev.rf (rasReg 0x204) 30 0 ∧ s.changesOn [.clocks, .crown, .out, .roots] (fun a => a = rasReg 0x200 || a = rasReg
          0x204 || (List.range 36).any (fun n => a = portReg n 4 || a = portReg n 0x148) || (List.range 24).any (fun n => a = canReg
          n 0)) t ∧ t.dev.clocks = (s.dev.demand (unitOf (rasReg 0x200)).1 (unitOf (rasReg 0x200)).2).clocks))
    ∧ (∀ (s : State),
      s.dev.runs = true →
      s.dev.redOn = true →
      s.dev.safe = false →
      s.dev.ras.beatAt.all (fun t => decide (t + msRaw ≤ s.dev.now)) = true →
      portPresent s.dev.variant s.dev.hbPort = true →
      s.dev.portPowered s.dev.hbPort = true →
      s.dev.portUp s.dev.hbPort = true →
      Completes (.heartbeatSend) s (fun t =>
        t.dev.out = .frame s.dev.hbPort s.dev.heartbeat true s.dev.now :: .pin "HB_OUT" 0 :: .pin "HB_OUT" 1 :: s.dev.out ∧
          t.dev.ras = { s.dev.ras with seq := s.dev.ras.seq + 1, beatAt := some s.dev.now } ∧ s.dev.heartbeat.length = 60 ∧ s.keeps
          [.regs, .ras, .out] t ∧ s.dev.regsKeep [portReg s.dev.hbPort 0x110, portReg s.dev.hbPort 0x114, portReg s.dev.hbPort
          0x118, portReg s.dev.hbPort 0x11C] t.dev))
    ∧ (∀ (s : State),
      s.dev.runs = true →
      s.dev.redOn = true →
      s.dev.rb (rasReg 0x204) 0 = false →
      Completes (.hbInEdge) s (fun t =>
        t.dev.rb (rasReg 0x204) 0 = true ∧ t.dev.ras = { s.dev.ras with edgeAt := s.dev.now } ∧ s.changes [.ras] [rasReg 0x204] t))
    ∧ (∀ (s : State) (octets : List (BitVec 8)),
      s.dev.runs = true →
      s.dev.redOn = true →
      beAt octets 12 2 = 0x88B5 →
      (octets.drop 14).take 4 = ascii "TLHB" →
      s.dev.rb (rasReg 0x204) 1 = false →
      s.dev.active = false →
      Completes (.heartbeatFrameRx octets) s (fun t =>
        t.dev.rb (rasReg 0x204) 1 = true ∧ t.dev.ras = { s.dev.ras with frameAt := s.dev.now } ∧ t.dev.active = false ∧ s.changes
          [.ras] [rasReg 0x204] t))
    ∧ (∀ (s : State) (octets : List (BitVec 8)),
      s.dev.runs = true →
      s.dev.redOn = true →
      beAt octets 12 2 = 0x88B5 →
      (octets.drop 14).take 4 = ascii "TLHB" →
      s.dev.rb (rasReg 0x204) 1 = true →
      s.dev.active = true →
      beAt octets 18 1 = 1 →
      beAt octets 19 1 > s.dev.rf (rasReg 0x218) 7 0 →
      Completes (.heartbeatFrameRx octets) s (fun t =>
        t.dev.active = false ∧ t.dev.ras = { s.dev.ras with frameAt := s.dev.now } ∧ (∀ k, k < 2 → s.dev.rb (rasReg 0x214) k = true
          → t.dev.rb (domReg k 0) 30 = false) ∧ s.changesOn [.crown, .out, .roots, .ras] (fun a => a = rasReg 0x204 || a = domReg 0
          0 || a = domReg 1 0 || (List.range 36).any (fun n => a = portReg n 4 || a = portReg n 0x148) || (List.range 24).any (fun n
          => a = canReg n 0)) t))
    ∧ (∀ (s : State) (f : Bool),
      s.dev.runs = true →
      s.dev.redOn = true →
      s.dev.rb (rasReg 0x204) f.toNat = true →
      (if f then s.dev.ras.frameAt else s.dev.ras.edgeAt) + 2 * msRaw ≤ s.dev.now →
      Completes (.hbPathSilent f) s (fun t =>
        t.dev.rb (rasReg 0x204) f.toNat = false ∧ s.changes [] [rasReg 0x204] t))
    ∧ (∀ (s : State),
      s.dev.runs = true →
      s.dev.ras.proof = none →
      s.dev.redOn = true →
      s.dev.active = false →
      s.dev.rb (rasReg 0x204) 0 = false →
      s.dev.rb (rasReg 0x204) 1 = false →
      max s.dev.ras.edgeAt s.dev.ras.frameAt + s.dev.rf (rasReg 0x200) 15 0 * usRaw ≤ s.dev.now →
      Completes (.partnerFailed) s (fun t =>
        t.dev.active = true ∧ (∀ k, k < 2 → s.dev.rb (rasReg 0x214) k = true → t.dev.rb (domReg k 0) 30 = true) ∧ s.changesOn
          [.crown, .out, .roots, .cam, .ras] (fun a => a = rasReg 0x204 || a = domReg 0 0 || a = domReg 1 0 || (List.range 36).any
          (fun n => a = portReg n 4 || a = portReg n 0x148) || (List.range 24).any (fun n => a = canReg n 0)) t))
    ∧ (∀ (s : State) (d : CmdDesc),
      s.starts d 0x70 0 1 [0xFFFFFFFFF, 0, 0, 0, 0] = true →
      s.dev.redOn = true →
      s.dev.active = false →
      s.dev.ras.proof = none →
      (fld d.p8 35 0 &&& presentPorts s.dev.variant) ≠ 0 →
      Completes (.proofTest d .starts) s (fun t =>
        t.dev.ras = { s.dev.ras with proof := some ⟨d, bitsOf 36 (fld d.p8 35 0 &&& presentPorts s.dev.variant), 0⟩ } ∧ t.dev.rb
          (rasReg 0x204) 8 = true ∧ (t.dev.basjo.ring d.host.val d.ring.val).running = some ⟨d, 1, s.dev.now⟩ ∧ s.keeps [.regs,
          .basjo, .ras, .crown, .clocks] t))
    ∧ (∀ (s : State) (a : Acc) (n : Fin 24) (o : Nat),
      s.opens a (rasReg 0x200) = true →
      s.dev.redOn = true →
      s.dev.active = true →
      canPresent s.dev.variant n.val = true →
      s.dev.rb (rasReg 0x210) n.val = true →
      s.dev.canQueue n.val = [] →
      Completes (.roleSet a false) s (fun t =>
        bit (t.dev.view o (canReg n.val 0)) 28 = true ∧ bit (t.dev.view o (canReg n.val 0)) 25 = false ∧ t.dev.canEnding n.val =
          none ∧ s.changesOn [.clocks, .crown, .out, .roots] (fun a => a = rasReg 0x200 || a = rasReg 0x204 || (List.range 36).any
          (fun n => a = portReg n 4 || a = portReg n 0x148) || (List.range 24).any (fun n => a = canReg n 0)) t ∧ t.dev.clocks =
          (s.dev.demand (unitOf (rasReg 0x200)).1 (unitOf (rasReg 0x200)).2).clocks))
    ∧ (∀ (s : State),
      s.dev.runs = true →
      s.dev.redOn = true →
      s.dev.safe = false →
      s.dev.ras.beatAt.all (fun t => decide (t + msRaw ≤ s.dev.now)) = true →
      s.dev.portUp s.dev.hbPort = false →
      Completes (.heartbeatSend) s (fun t =>
        t.dev.out = .pin "HB_OUT" 0 :: .pin "HB_OUT" 1 :: s.dev.out ∧ t.dev.ras = { s.dev.ras with beatAt := some s.dev.now } ∧
          s.keeps [.ras, .out] t))
    ∧ (∀ (s : State),
      s.dev.runs = true →
      s.dev.redOn = false ∨ s.dev.ras.beatAt = some s.dev.now →
      Completes (.heartbeatSend) s (fun t =>
        t = s))
    ∧ (∀ (s : State) (octets : List (BitVec 8)),
      s.dev.runs = true →
      s.dev.redOn = false →
      Completes (.heartbeatFrameRx octets) s (fun t =>
        t = s))
    ∧ (∀ (s : State),
      s.dev.runs = true →
      s.dev.redOn = false →
      Completes (.hbInEdge) s (fun t =>
        t = s))
    ∧ (∀ (s : State) (f : Bool),
      s.dev.runs = true →
      s.dev.rb (rasReg 0x204) f.toNat = false ∨ s.dev.now < (if f then s.dev.ras.frameAt else s.dev.ras.edgeAt) + 2 * msRaw →
      Completes (.hbPathSilent f) s (fun t =>
        t = s))
    ∧ (∀ (s : State),
      s.dev.runs = true →
      s.dev.active = true ∨ s.dev.rb (rasReg 0x204) 0 = true ∨ s.dev.rb (rasReg 0x204) 1 = true →
      Completes (.partnerFailed) s (fun t =>
        t = s))
    ∧ (∀ (s : State) (d : CmdDesc) (x : ProofStep),
      s.starts d 0x70 0 1 [0xFFFFFFFFF, 0, 0, 0, 0] = true →
      s.dev.ras.proof = none →
      x = .starts →
      s.dev.redOn = false ∨ s.dev.active = true →
      Completes (.proofTest d x) s (fun t =>
        s.completes d [] [] t ∧ s.dev.basjo.answers d stWrongMode 0 0 t.dev.basjo))
    ∧ (∀ (s : State) (d : CmdDesc),
      s.starts d 0x70 0 1 [0xFFFFFFFFF, 0, 0, 0, 0] = true →
      s.dev.redOn = true →
      s.dev.active = false →
      s.dev.ras.proof = none →
      (fld d.p8 35 0 &&& presentPorts s.dev.variant) = 0 →
      Completes (.proofTest d .starts) s (fun t =>
        s.completes d [] [] t ∧ s.dev.basjo.answers d stOk 0 0 t.dev.basjo))
    ∧ (∀ (s : State) (d : CmdDesc) (r : ProofRun) (p q : Nat) (rest : List Nat) (failed : Bool),
      s.dev.runs = true →
      s.dev.ras.proof = some r →
      CmdDesc.sameWords r.desc d = true →
      r.left = p :: q :: rest →
      p < 36 →
      s.dev.rb (macsecReg p 0) 31 = false →
      Completes (.proofTest d (.port failed)) s (fun t =>
        t.dev.ras = { s.dev.ras with proof := some ⟨r.desc, q :: rest, if failed then r.failed + 2 ^ p else r.failed⟩ } ∧ t.dev.reg
          (portReg p 0x110) = (s.dev.count64 (portReg p 0x110) 48).reg (portReg p 0x110) ∧ t.dev.reg (portReg p 0x118) =
          (s.dev.count64 (portReg p 0x118) 169312).reg (portReg p 0x118) ∧ s.keeps [.regs, .ras, .crown] t))
    ∧ (∀ (s : State) (d : CmdDesc) (r : ProofRun) (p x : Nat) (failed : Bool),
      s.dev.runs = true →
      s.dev.ras.proof = some r →
      CmdDesc.sameWords r.desc d = true →
      r.left = [p] →
      p < 36 →
      s.dev.rb (macsecReg p 0) 31 = false →
      s.dev.basjo.ringType r.desc.host.val r.desc.ring.val = 3 →
      s.dev.basjo.ringActive r.desc.host.val r.desc.ring.val = true →
      (s.dev.basjo.ring r.desc.host.val r.desc.ring.val).running = some ⟨r.desc, 1, x⟩ →
      r.desc.writeErr = false →
      Completes (.proofTest d (.port failed)) s (fun t =>
        t.dev.ras.proof = none ∧ t.dev.rb (rasReg 0x204) 8 = false ∧ s.dev.basjo.answers r.desc stOk ((if failed then r.failed + 2 ^
          p else r.failed) % 2 ^ 32) ((if failed then r.failed + 2 ^ p else r.failed) / 2 ^ 32) t.dev.basjo ∧ t.dev.reg (portReg p
          0x110) = (s.dev.count64 (portReg p 0x110) 48).reg (portReg p 0x110) ∧ t.dev.reg (portReg p 0x118) = (s.dev.count64
          (portReg p 0x118) 169312).reg (portReg p 0x118) ∧ s.keeps [.regs, .basjo, .ras, .crown] t))
    ∧ (∀ (s : State) (r : ProofRun) (x : Nat),
      s.dev.runs = true →
      s.dev.ras.proof = some r →
      s.dev.redOn = true →
      s.dev.active = false →
      s.dev.rb (rasReg 0x204) 0 = false →
      s.dev.rb (rasReg 0x204) 1 = false →
      max s.dev.ras.edgeAt s.dev.ras.frameAt + s.dev.rf (rasReg 0x200) 15 0 * usRaw ≤ s.dev.now →
      s.dev.basjo.ringType r.desc.host.val r.desc.ring.val = 3 →
      s.dev.basjo.ringActive r.desc.host.val r.desc.ring.val = true →
      (s.dev.basjo.ring r.desc.host.val r.desc.ring.val).running = some ⟨r.desc, 1, x⟩ →
      r.desc.writeErr = false →
      Completes (.partnerFailed) s (fun t =>
        t.dev.active = true ∧ t.dev.ras.proof = none ∧ t.dev.rb (rasReg 0x204) 8 = false ∧ s.dev.basjo.answers r.desc 0x41 (r.failed
          % 2 ^ 32) (r.failed / 2 ^ 32) t.dev.basjo ∧ s.keeps [.regs, .basjo, .audit, .ras, .crown, .out, .roots, .cam] t))

/-- The origin access matrix takes its writers' values, and the change log dumps, seals and verifies. Rests on R534, R535, R538,
R540. -/
def Obligations.MatrixAndAuditCommands : Prop :=
    (∀ (s : State) (a : Acc) (which : MatrixReg) (o : Fin 16) (value : BitVec 32),
      s.dev.runs = true →
      reaches a.origin 17 = true →
      s.dev.permitted 0 a.origin 17 = true →
      matrixWriter a = true →
      Completes (.matrixWrite a which o value) s (fun t =>
        t.dev.reg (matrixReg which o.val) = value &&& 0x1FFFFF ∧ t.dev.audit.next = s.dev.audit.next + 1 ∧ s.keeps [.regs, .audit,
          .basjo] t ∧ s.dev.regsKeep [(matrixReg which o.val)] t.dev ∧ s.dev.basjo.eventsOnly t.dev.basjo))
    ∧ (∀ (s : State) (a : Acc) (which : MatrixReg) (o : Fin 16) (value : BitVec 32),
      s.dev.runs = true →
      reaches a.origin 17 = true →
      s.dev.permitted 0 a.origin 17 = true →
      matrixWriter a = false →
      Completes (.matrixWrite a which o value) s (fun t =>
        t.dev.reg (matrixReg which o.val) = s.dev.reg (matrixReg which o.val) ∧ t.dev.reg (rasReg 0x1400) = satAdd (s.dev.reg
          (rasReg 0x1400)) 1 ∧ t.dev.audit.next = s.dev.audit.next + 1 ∧ s.keeps [.regs, .audit, .basjo] t ∧ s.dev.regsKeep [rasReg
          0x1400] t.dev ∧ s.dev.basjo.eventsOnly t.dev.basjo))
    ∧ (∀ (s : State) (d : CmdDesc) (k : Nat),
      s.starts d 0x71 0 1 [all64, 0xFFFFFFFF, 0x7FFF, 0, 0] = true →
      1 ≤ fld d.p24 14 0 →
      fld d.p24 14 0 ≤ 16384 →
      k = (BitVec.ofNat 32 (fld d.p16 31 0) - s.dev.audit.oldest).toNat →
      k < s.dev.audit.entries.length →
      Completes (.auditDump d false) s (fun t =>
        s.dev.basjo.wrote d d.p8.toNat (((s.dev.audit.entries.reverse.drop k).take (fld d.p24 14 0)).flatMap AuditEntry.octets)
          t.dev.basjo ∧ s.keeps [.basjo, .clocks] t ∧ s.dev.basjo.answers d stOk ((s.dev.audit.entries.reverse.drop k).take (fld
          d.p24 14 0)).length 0 t.dev.basjo))
    ∧ (∀ (s : State) (d : CmdDesc) (x : List Byte × List Byte),
      s.starts d 0x71 0 2 [all64, all64, all64, all64, all64] = true →
      s.dev.idSeeds = some x →
      s.dev.rngFailed = false →
      Completes (.auditSeal d false) s (fun t =>
        s.dev.basjo.wrote d d.p8.toNat (s.dev.sealHead d ++ signBoth x.1 x.2 s.dev.draws (s.dev.sealHead d)) t.dev.basjo ∧ s.keeps
          [.basjo, .clocks, .burl, .draws] t ∧ t.dev.burl.slots = s.dev.burl.slots ∧ s.dev.basjo.answers d stOk 0 0 t.dev.basjo))
    ∧ (∀ (s : State) (d : CmdDesc) (mem : HostData) (key : List (BitVec 8)) (r : Option Nat),
      s.starts d 0x71 0 3 [all64, 0x7FFF, all64, all64, 0] = true →
      s.dev.auditKey = some key →
      mem.err = false →
      64 * fld d.p16 14 0 ≤ mem.octets.length →
      r = badEntry key mem.octets (fld d.p16 14 0) (BitVec.ofNat 128 (d.p24.toNat * 2 ^ 64 + d.p32.toNat)) →
      Completes (.auditVerify d mem) s (fun t =>
        s.completes d [] [] t ∧ s.dev.basjo.answers d (if r.isSome then stAuthFail else stOk) (r.getD 0) 0 t.dev.basjo))
    ∧ (∀ (s : State) (a : Acc) (which : MatrixReg) (o : Fin 16) (value : BitVec 32),
      s.dev.runs = true →
      reaches a.origin 17 = false →
      Completes (.matrixWrite a which o value) s (fun t =>
        t = s))
    ∧ (∀ (s : State) (d : CmdDesc),
      s.starts d 0x71 0 1 [all64, 0xFFFFFFFF, 0x7FFF, 0, 0] = true →
      fld d.p24 14 0 = 0 ∨ 16384 < fld d.p24 14 0 →
      Completes (.auditDump d false) s (fun t =>
        s.dev.basjo.answers d stBadParam 0 0 t.dev.basjo ∧ s.completes d [] [] t))
    ∧ (∀ (s : State) (d : CmdDesc),
      s.starts d 0x71 0 1 [all64, 0xFFFFFFFF, 0x7FFF, 0, 0] = true →
      1 ≤ fld d.p24 14 0 →
      fld d.p24 14 0 ≤ 16384 →
      s.dev.audit.entries.length ≤ (BitVec.ofNat 32 (fld d.p16 31 0) - s.dev.audit.oldest).toNat →
      Completes (.auditDump d false) s (fun t =>
        s.dev.basjo.answers d stNotFound 0 0 t.dev.basjo ∧ s.completes d [] [] t))
    ∧ (∀ (s : State) (d : CmdDesc),
      s.starts d 0x71 0 2 [all64, all64, all64, all64, all64] = true →
      s.dev.idSeeds = none →
      Completes (.auditSeal d false) s (fun t =>
        s.dev.basjo.answers d 0x40 0 0 t.dev.basjo ∧ s.completes d [] [] t))

/-- IMG_WRITE, IMG_VERIFY, IMG_ACTIVATE, MANIFEST_ACTIVATE and UPD_HW_DONE. Rests on R544, R547, R554, R555, R556, R559, R560, R563.
-/
def Obligations.UpdateCommandsRun : Prop :=
    (∀ (s : State) (d : CmdDesc) (mem : HostData) (i : Nat),
      s.starts d 0x72 0 1 [all64, 0xFF00FFFF00001FFF, 0, 0, 0] = true →
      writableKind (fld d.p16 63 56) = true →
      1 ≤ fld d.p16 12 0 →
      fld d.p16 12 0 ≤ 4096 →
      d.p8.toNat % 8 = 0 →
      s.dev.slotLocked (fld d.p16 63 56) = false →
      mem.err = false →
      4096 * fld d.p16 12 0 ≤ mem.octets.length →
      fld d.p16 47 32 + fld d.p16 12 0 ≤ Config.slotBlocks (fld d.p16 63 56) →
      i < fld d.p16 12 0 →
      Completes (.imgWrite d mem) s (fun t =>
        (((blocks 4096 (mem.octets.take (4096 * fld d.p16 12 0))).take i).all blockOk = true → t.dev.block ((slotBase (fld d.p16 63
          56) (s.dev.inactiveSlot (fld d.p16 63 56))) + fld d.p16 47 32 + i) = (blocks 4096 (mem.octets.take (4096 * fld d.p16 12
          0))).getD i []) ∧ (∀ n, ¬ ((slotBase (fld d.p16 63 56) (s.dev.inactiveSlot (fld d.p16 63 56))) + fld d.p16 47 32 ≤ n ∧ n <
          (slotBase (fld d.p16 63 56) (s.dev.inactiveSlot (fld d.p16 63 56))) + fld d.p16 47 32 + fld d.p16 12 0) → t.dev.block n =
          s.dev.block n) ∧ ((blocks 4096 (mem.octets.take (4096 * fld d.p16 12 0))).all blockOk = true → s.dev.basjo.answers d stOk
          0 0 t.dev.basjo) ∧ (((blocks 4096 (mem.octets.take (4096 * fld d.p16 12 0))).take i).all blockOk = true ∧ blockOk ((blocks
          4096 (mem.octets.take (4096 * fld d.p16 12 0))).getD i []) = false → s.dev.basjo.answers d 0x40 (fld d.p16 47 32 + i) 0
          t.dev.basjo) ∧ s.completes d [.upd] [] t ∧ t.dev.upd = { s.dev.upd with flash := t.dev.upd.flash }))
    ∧ (∀ (s : State) (d : CmdDesc),
      s.starts d 0x72 0 2 [0xFF, 0, 0, 0, 0] = true →
      partKind (fld d.p8 7 0) = true →
      (s.dev.block (slotBase (fld d.p8 7 0) (s.dev.inactiveSlot (fld d.p8 7 0)))).isEmpty = false →
      Completes (.imgVerify d) s (fun t =>
        s.completes d [] [] t ∧ s.dev.basjo.answers d (if (s.dev.imgCheck (fld d.p8 7 0) (slotBase (fld d.p8 7 0)
          (s.dev.inactiveSlot (fld d.p8 7 0))) (Config.slotBlocks (fld d.p8 7 0))) = 0 then stOk else (s.dev.imgCheck (fld d.p8 7 0)
          (slotBase (fld d.p8 7 0) (s.dev.inactiveSlot (fld d.p8 7 0))) (Config.slotBlocks (fld d.p8 7 0)))) (if (s.dev.imgCheck
          (fld d.p8 7 0) (slotBase (fld d.p8 7 0) (s.dev.inactiveSlot (fld d.p8 7 0))) (Config.slotBlocks (fld d.p8 7 0))) = 0 then
          hdrVersion (s.dev.block (slotBase (fld d.p8 7 0) (s.dev.inactiveSlot (fld d.p8 7 0)))) else 0) (if (s.dev.imgCheck (fld
          d.p8 7 0) (slotBase (fld d.p8 7 0) (s.dev.inactiveSlot (fld d.p8 7 0))) (Config.slotBlocks (fld d.p8 7 0))) = 0 then
          hdrSvn (s.dev.block (slotBase (fld d.p8 7 0) (s.dev.inactiveSlot (fld d.p8 7 0)))) else 0) t.dev.basjo))
    ∧ (∀ (s : State) (d : CmdDesc),
      s.starts d 0x72 0 2 [0xFF, 0, 0, 0, 0] = true →
      (fld d.p8 7 0) = 0 →
      s.dev.slotLocked 0 = false →
      (s.dev.block (slotBase 0 (s.dev.inactiveSlot 0))).isEmpty = false →
      Completes (.imgVerify d) s (fun t =>
        s.completes d [] [] t ∧ s.dev.basjo.answers d (if (s.dev.manifestCheck (s.dev.inactiveSlot 0)) = 0 then stOk else
          (s.dev.manifestCheck (s.dev.inactiveSlot 0))) (if (s.dev.manifestCheck (s.dev.inactiveSlot 0)) = 0 then hdrVersion
          (s.dev.block (slotBase 0 (s.dev.inactiveSlot 0))) else 0) (if (s.dev.manifestCheck (s.dev.inactiveSlot 0)) = 0 then hdrSvn
          (s.dev.block (slotBase 0 (s.dev.inactiveSlot 0))) else 0) t.dev.basjo))
    ∧ (∀ (s : State) (d : CmdDesc),
      s.starts d 0x72 0 3 [0xFF, 0, 0, 0, 0] = true →
      partKind (fld d.p8 7 0) = true →
      s.dev.updPhase ≠ 4 →
      ((fld d.p8 7 0) ≠ 0x10 → s.dev.mode = 5) →
      (s.dev.block (slotBase (fld d.p8 7 0) (s.dev.inactiveSlot (fld d.p8 7 0)))).isEmpty = false →
      Completes (.imgActivate d) s (fun t =>
        ((s.dev.imgCheck (fld d.p8 7 0) (slotBase (fld d.p8 7 0) (s.dev.inactiveSlot (fld d.p8 7 0))) (Config.slotBlocks (fld d.p8 7
          0)) = 0 ∧ unmet (s.dev.runSet [((fld d.p8 7 0), s.dev.block (slotBase (fld d.p8 7 0) (s.dev.inactiveSlot (fld d.p8 7
          0))))]) = none) → t.dev.rf (updReg 0x10) ((fld d.p8 7 0) - 0x10) ((fld d.p8 7 0) - 0x10) = s.dev.inactiveSlot (fld d.p8 7
          0) ∧ t.dev.upd.running = s.dev.runSet [((fld d.p8 7 0), s.dev.block (slotBase (fld d.p8 7 0) (s.dev.inactiveSlot (fld d.p8
          7 0))))] ∧ (let n := s.dev.upd.dirNow.getD 0; t.dev.upd.dir n = s.dev.upd.dir n ∧ t.dev.upd.dir (1 - n) = ⟨true, true,
          (s.dev.upd.dir n).seq + 1, BitVec.ofNat 4 (t.dev.rf (updReg 0x10) 3 0)⟩) ∧ s.dev.basjo.answers d stOk (hdrVersion
          (s.dev.block (slotBase (fld d.p8 7 0) (s.dev.inactiveSlot (fld d.p8 7 0))))) 0 t.dev.basjo) ∧ (¬ (s.dev.imgCheck (fld d.p8
          7 0) (slotBase (fld d.p8 7 0) (s.dev.inactiveSlot (fld d.p8 7 0))) (Config.slotBlocks (fld d.p8 7 0)) = 0 ∧ unmet
          (s.dev.runSet [((fld d.p8 7 0), s.dev.block (slotBase (fld d.p8 7 0) (s.dev.inactiveSlot (fld d.p8 7 0))))]) = none) →
          t.dev.reg (updReg 0x10) = s.dev.reg (updReg 0x10) ∧ t.dev.upd = s.dev.upd) ∧ t.dev.upd.flash = s.dev.upd.flash ∧
          t.dev.upd.journal = s.dev.upd.journal ∧ s.keeps [.regs, .basjo, .audit, .clocks, .upd, .canopy, .rx, .ports, .trunk,
          .burl, .roots, .tap, .out, .crown] t))
    ∧ (∀ (s : State) (d : CmdDesc) (n : Nat),
      s.starts d 0x72 0 4 noParams = true →
      s.dev.updPhase ≠ 4 →
      s.dev.inactiveSlot 0 ≠ s.dev.runSlot →
      s.dev.journalNext < 256 →
      (s.dev.block (slotBase 0 (s.dev.inactiveSlot 0))).isEmpty = false →
      s.dev.upd.journalSpares + n ≤ 32 →
      Completes (.manifestActivate d .none n) s (fun t =>
        ((s.dev.manifestCheck (s.dev.inactiveSlot 0) = 0 ∧ unmet (s.dev.runSet (s.dev.manifestHeaders (s.dev.inactiveSlot 0))) =
          none) → entryCommitted s.dev.journalNext (t.dev.entry s.dev.journalNext) = true ∧ (∀ j, j ≠ s.dev.journalNext →
          t.dev.entry j = s.dev.entry j) ∧ t.dev.updPhase = 4 ∧ t.dev.upd.unstarted = true ∧ t.dev.upd.journalSpares =
          s.dev.upd.journalSpares + n ∧ s.dev.basjo.answers d stOk s.dev.journalNext 0 t.dev.basjo) ∧ (¬ (s.dev.manifestCheck
          (s.dev.inactiveSlot 0) = 0 ∧ unmet (s.dev.runSet (s.dev.manifestHeaders (s.dev.inactiveSlot 0))) = none) → t.dev.upd =
          s.dev.upd ∧ t.dev.updPhase = s.dev.updPhase) ∧ s.completes d [.upd] [updReg 0, updReg 8] t ∧ t.dev.upd.flash =
          s.dev.upd.flash ∧ t.dev.upd.running = s.dev.upd.running))
    ∧ (∀ (s : State) (a : Acc),
      s.opens a (updReg 0x14) = true →
      s.clocked (updReg 0x14) = true →
      s.dev.rb (updReg 0) 16 = true →
      Completes (.updHwDone a) s (fun t =>
        t.dev.rb (updReg 0) 16 = false ∧ t.dev.updPhase = 0 ∧ t.dev.upd = { s.dev.upd with hwOpen := false } ∧ t.dev.runSlot =
          s.dev.runSlot ∧ s.changes [.upd] [updReg 0] t))
    ∧ (∀ (s : State) (d : CmdDesc) (mem : HostData),
      s.starts d 0x72 0 1 [all64, 0xFF00FFFF00001FFF, 0, 0, 0] = true →
      writableKind (fld d.p16 63 56) = false ∨ fld d.p16 12 0 = 0 ∨ 4096 < fld d.p16 12 0 ∨ d.p8.toNat % 8 ≠ 0 →
      Completes (.imgWrite d mem) s (fun t =>
        s.dev.basjo.answers d stBadParam 0 0 t.dev.basjo ∧ s.completes d [] [] t))
    ∧ (∀ (s : State) (d : CmdDesc) (mem : HostData),
      s.starts d 0x72 0 1 [all64, 0xFF00FFFF00001FFF, 0, 0, 0] = true →
      writableKind (fld d.p16 63 56) = true →
      1 ≤ fld d.p16 12 0 →
      fld d.p16 12 0 ≤ 4096 →
      d.p8.toNat % 8 = 0 →
      s.dev.slotLocked (fld d.p16 63 56) = true →
      Completes (.imgWrite d mem) s (fun t =>
        s.dev.basjo.answers d stWrongMode 0 0 t.dev.basjo ∧ s.completes d [] [] t))
    ∧ (∀ (s : State) (d : CmdDesc),
      s.starts d 0x72 0 2 [0xFF, 0, 0, 0, 0] = true →
      writableKind (fld d.p8 7 0) = false →
      Completes (.imgVerify d) s (fun t =>
        s.dev.basjo.answers d stBadParam 0 0 t.dev.basjo ∧ s.completes d [] [] t))
    ∧ (∀ (s : State) (d : CmdDesc),
      s.starts d 0x72 0 2 [0xFF, 0, 0, 0, 0] = true →
      partKind (fld d.p8 7 0) = true →
      (s.dev.block (slotBase (fld d.p8 7 0) (s.dev.inactiveSlot (fld d.p8 7 0)))).isEmpty = true →
      Completes (.imgVerify d) s (fun t =>
        s.dev.basjo.answers d 0x42 0 0 t.dev.basjo ∧ s.completes d [] [] t))
    ∧ (∀ (s : State) (d : CmdDesc),
      s.starts d 0x72 0 3 [0xFF, 0, 0, 0, 0] = true →
      partKind (fld d.p8 7 0) = true →
      s.dev.updPhase = 4 ∨ ((fld d.p8 7 0) ≠ 0x10 ∧ s.dev.mode ≠ 5) →
      Completes (.imgActivate d) s (fun t =>
        s.dev.basjo.answers d stWrongMode 0 0 t.dev.basjo ∧ s.completes d [] [] t))
    ∧ (∀ (s : State) (d : CmdDesc) (cut : ActCut) (n : Nat),
      s.starts d 0x72 0 4 noParams = true →
      s.dev.updPhase = 4 →
      Completes (.manifestActivate d cut n) s (fun t =>
        s.dev.basjo.answers d stWrongMode 0 0 t.dev.basjo ∧ s.completes d [] [] t))
    ∧ (∀ (s : State) (d : CmdDesc) (cut : ActCut) (n : Nat),
      s.starts d 0x72 0 4 noParams = true →
      s.dev.updPhase ≠ 4 →
      s.dev.inactiveSlot 0 ≠ s.dev.runSlot →
      s.dev.journalNext = 256 →
      Completes (.manifestActivate d cut n) s (fun t =>
        s.dev.basjo.answers d stExhausted 0 0 t.dev.basjo ∧ s.completes d [] [] t))
    ∧ (∀ (s : State) (d : CmdDesc) (n : Nat),
      s.starts d 0x72 0 4 noParams = true →
      s.dev.updPhase ≠ 4 →
      s.dev.inactiveSlot 0 ≠ s.dev.runSlot →
      s.dev.journalNext < 256 →
      Completes (.manifestActivate d .verify n) s (fun t =>
        t.dev.updPhase = 1 ∧ t.dev.rb (updReg 0) 31 = true ∧ t.dev.upd = s.dev.upd ∧ s.keeps [.regs, .basjo, .audit, .clocks] t ∧
          s.dev.regsKeep [updReg 0] t.dev))
    ∧ (∀ (s : State) (d : CmdDesc) (n : Nat),
      s.starts d 0x72 0 4 noParams = true →
      s.dev.updPhase ≠ 4 →
      s.dev.inactiveSlot 0 ≠ s.dev.runSlot →
      s.dev.journalNext < 256 →
      (s.dev.block (slotBase 0 (s.dev.inactiveSlot 0))).isEmpty = false →
      32 < s.dev.upd.journalSpares + n →
      Completes (.manifestActivate d .none n) s (fun t =>
        ((s.dev.manifestCheck (s.dev.inactiveSlot 0) = 0 ∧ unmet (s.dev.runSet (s.dev.manifestHeaders (s.dev.inactiveSlot 0))) =
          none) → t.dev.entry s.dev.journalNext = (⟨1, 0⟩, .blank) ∧ (∀ j, j ≠ s.dev.journalNext → t.dev.entry j = s.dev.entry j) ∧
          t.dev.upd.journalSpares = 32 ∧ t.dev.updPhase = s.dev.updPhase ∧ s.dev.basjo.answers d stExhausted 0 0 t.dev.basjo) ∧ (¬
          (s.dev.manifestCheck (s.dev.inactiveSlot 0) = 0 ∧ unmet (s.dev.runSet (s.dev.manifestHeaders (s.dev.inactiveSlot 0))) =
          none) → t.dev.upd = s.dev.upd) ∧ s.completes d [.upd] [updReg 8] t ∧ t.dev.upd.flash = s.dev.upd.flash ∧ t.dev.upd.running
          = s.dev.upd.running))
    ∧ (∀ (s : State) (a : Acc),
      s.opens a (updReg 0x14) = true →
      s.clocked (updReg 0x14) = true →
      s.dev.rb (updReg 0) 16 = false →
      Completes (.updHwDone a) s (fun t =>
        t.dev.updPhase = s.dev.updPhase ∧ s.changes [] [] t))

/-- A reservation within the sum of 49,152 is stored, and any other is ignored and sets RSV_ERR. Formalises R187. -/
def Obligations.ReservationsStayWithinTheBuffer : Prop :=
    (∀ (s : State) (a : Acc) (p : Fin 40) (value : BitVec 32),
      s.opens a (trunkReg (0x1000 + 0x20 * p.val)) = true →
      rsvPorts.foldl (fun x k => if k = p.val then x else x + s.dev.rsv k) 0 + fld value 16 0 ≤ 49152 →
      Completes (.rsvWrite a p value) s (fun t =>
        t.dev.rsv p.val = fld value 16 0 ∧ s.writes (trunkReg (0x1000 + 0x20 * p.val)) [] [trunkReg (0x1000 + 0x20 * p.val)] t))
    ∧ (∀ (s : State) (a : Acc) (p : Fin 40) (value : BitVec 32),
      s.opens a (trunkReg (0x1000 + 0x20 * p.val)) = true →
      49152 < rsvPorts.foldl (fun x k => if k = p.val then x else x + s.dev.rsv k) 0 + fld value 16 0 →
      Completes (.rsvWrite a p value) s (fun t =>
        t.dev.rsv p.val = s.dev.rsv p.val ∧ t.dev.rb (trunkReg 0xC) 0 = true ∧ s.writes (trunkReg (0x1000 + 0x20 * p.val)) []
          [trunkReg 0xC] t))
    ∧ (∀ (s t : State) (a : Acc) (p : Fin 40) (value : BitVec 32),
      rsvPorts.foldl (fun x k => x + s.dev.rsv k) 0 ≤ 49152 →
      exec (.rsvWrite a p value) s = .next t →
      rsvPorts.foldl (fun x k => x + t.dev.rsv k) 0 ≤ 49152)

/-- A write to FDB_SEED takes effect while every replica is empty and is ignored otherwise. Formalises R149. -/
def Obligations.SeedWaitsForEmptyReplicas : Prop :=
    (∀ (s : State) (a : Acc) (value : BitVec 32),
      s.opens a 0x221004 = true →
      (groveList s.dev.variant).all (fun k => decide (s.dev.rf (groveReg k 0x200) 17 0 = 0)) = true →
      Completes (.fdbSeedWrite a value) s (fun t =>
        t.dev.reg 0x221004 = value ∧ s.writes 0x221004 [] [0x221004] t))
    ∧ (∀ (s : State) (a : Acc) (value : BitVec 32),
      s.opens a 0x221004 = true →
      (groveList s.dev.variant).all (fun k => decide (s.dev.rf (groveReg k 0x200) 17 0 = 0)) = false →
      Completes (.fdbSeedWrite a value) s (fun t =>
        t = s))
end

