-- ==== Sys2Proof/Laws/State.lean ====
section
/-! SUPPORT. What each shared operation leaves alone: one lemma for every field it does not write, so that no later proof
unfolds a record update. -/
namespace Sys2Proof.Machine

/-! ## One lemma per field per update -/

@[simp] theorem Dev.setReg_variant (s : Dev) (a : Nat) (v : Word) : (s.setReg a v).variant = s.variant := rfl
@[simp] theorem Dev.setReg_words (s : Dev) (a : Nat) (v : Word) : (s.setReg a v).words = s.words := rfl
@[simp] theorem Dev.setReg_lower (s : Dev) (a : Nat) (v : Word) : (s.setReg a v).lower = s.lower := rfl
@[simp] theorem Dev.setReg_clocks (s : Dev) (a : Nat) (v : Word) : (s.setReg a v).clocks = s.clocks := rfl
@[simp] theorem Dev.setReg_basjo (s : Dev) (a : Nat) (v : Word) : (s.setReg a v).basjo = s.basjo := rfl
@[simp] theorem Dev.setReg_cam (s : Dev) (a : Nat) (v : Word) : (s.setReg a v).cam = s.cam := rfl
@[simp] theorem Dev.setReg_audit (s : Dev) (a : Nat) (v : Word) : (s.setReg a v).audit = s.audit := rfl
@[simp] theorem Dev.setReg_burl (s : Dev) (a : Nat) (v : Word) : (s.setReg a v).burl = s.burl := rfl
@[simp] theorem Dev.setReg_ports (s : Dev) (a : Nat) (v : Word) : (s.setReg a v).ports = s.ports := rfl
@[simp] theorem Dev.setReg_polls (s : Dev) (a : Nat) (v : Word) : (s.setReg a v).polls = s.polls := rfl
@[simp] theorem Dev.setReg_rx (s : Dev) (a : Nat) (v : Word) : (s.setReg a v).rx = s.rx := rfl
@[simp] theorem Dev.setReg_passed (s : Dev) (a : Nat) (v : Word) : (s.setReg a v).passed = s.passed := rfl
@[simp] theorem Dev.setReg_groves (s : Dev) (a : Nat) (v : Word) : (s.setReg a v).groves = s.groves := rfl
@[simp] theorem Dev.setReg_trunk (s : Dev) (a : Nat) (v : Word) : (s.setReg a v).trunk = s.trunk := rfl
@[simp] theorem Dev.setReg_crown (s : Dev) (a : Nat) (v : Word) : (s.setReg a v).crown = s.crown := rfl
@[simp] theorem Dev.setReg_bark (s : Dev) (a : Nat) (v : Word) : (s.setReg a v).bark = s.bark := rfl
@[simp] theorem Dev.setReg_slowq (s : Dev) (a : Nat) (v : Word) : (s.setReg a v).slowq = s.slowq := rfl
@[simp] theorem Dev.setReg_decap (s : Dev) (a : Nat) (v : Word) : (s.setReg a v).decap = s.decap := rfl
@[simp] theorem Dev.setReg_out (s : Dev) (a : Nat) (v : Word) : (s.setReg a v).out = s.out := rfl
@[simp] theorem Dev.setReg_roots (s : Dev) (a : Nat) (v : Word) : (s.setReg a v).roots = s.roots := rfl
@[simp] theorem Dev.setReg_tap (s : Dev) (a : Nat) (v : Word) : (s.setReg a v).tap = s.tap := rfl
@[simp] theorem Dev.setReg_canopy (s : Dev) (a : Nat) (v : Word) : (s.setReg a v).canopy = s.canopy := rfl
@[simp] theorem Dev.setReg_ras (s : Dev) (a : Nat) (v : Word) : (s.setReg a v).ras = s.ras := rfl
@[simp] theorem Dev.setReg_sap (s : Dev) (a : Nat) (v : Word) : (s.setReg a v).sap = s.sap := rfl
@[simp] theorem Dev.setReg_upd (s : Dev) (a : Nat) (v : Word) : (s.setReg a v).upd = s.upd := rfl
@[simp] theorem Dev.setReg_reads (s : Dev) (a : Nat) (v : Word) : (s.setReg a v).reads = s.reads := rfl
@[simp] theorem Dev.setReg_draws (s : Dev) (a : Nat) (v : Word) : (s.setReg a v).draws = s.draws := rfl
@[simp] theorem Dev.setReg_word (s : Dev) (a : Nat) (v : Word) (at_ : Nat) : (s.setReg a v).word at_ = s.word at_ := rfl

@[simp] theorem Dev.setRf_variant (s : Dev) (a hi lo v : Nat) : (s.setRf a hi lo v).variant = s.variant := rfl
@[simp] theorem Dev.setRf_words (s : Dev) (a hi lo v : Nat) : (s.setRf a hi lo v).words = s.words := rfl
@[simp] theorem Dev.setRf_lower (s : Dev) (a hi lo v : Nat) : (s.setRf a hi lo v).lower = s.lower := rfl
@[simp] theorem Dev.setRf_clocks (s : Dev) (a hi lo v : Nat) : (s.setRf a hi lo v).clocks = s.clocks := rfl
@[simp] theorem Dev.setRf_basjo (s : Dev) (a hi lo v : Nat) : (s.setRf a hi lo v).basjo = s.basjo := rfl
@[simp] theorem Dev.setRf_cam (s : Dev) (a hi lo v : Nat) : (s.setRf a hi lo v).cam = s.cam := rfl
@[simp] theorem Dev.setRf_audit (s : Dev) (a hi lo v : Nat) : (s.setRf a hi lo v).audit = s.audit := rfl
@[simp] theorem Dev.setRf_burl (s : Dev) (a hi lo v : Nat) : (s.setRf a hi lo v).burl = s.burl := rfl
@[simp] theorem Dev.setRf_ports (s : Dev) (a hi lo v : Nat) : (s.setRf a hi lo v).ports = s.ports := rfl
@[simp] theorem Dev.setRf_polls (s : Dev) (a hi lo v : Nat) : (s.setRf a hi lo v).polls = s.polls := rfl
@[simp] theorem Dev.setRf_rx (s : Dev) (a hi lo v : Nat) : (s.setRf a hi lo v).rx = s.rx := rfl
@[simp] theorem Dev.setRf_passed (s : Dev) (a hi lo v : Nat) : (s.setRf a hi lo v).passed = s.passed := rfl
@[simp] theorem Dev.setRf_groves (s : Dev) (a hi lo v : Nat) : (s.setRf a hi lo v).groves = s.groves := rfl
@[simp] theorem Dev.setRf_trunk (s : Dev) (a hi lo v : Nat) : (s.setRf a hi lo v).trunk = s.trunk := rfl
@[simp] theorem Dev.setRf_crown (s : Dev) (a hi lo v : Nat) : (s.setRf a hi lo v).crown = s.crown := rfl
@[simp] theorem Dev.setRf_bark (s : Dev) (a hi lo v : Nat) : (s.setRf a hi lo v).bark = s.bark := rfl
@[simp] theorem Dev.setRf_slowq (s : Dev) (a hi lo v : Nat) : (s.setRf a hi lo v).slowq = s.slowq := rfl
@[simp] theorem Dev.setRf_decap (s : Dev) (a hi lo v : Nat) : (s.setRf a hi lo v).decap = s.decap := rfl
@[simp] theorem Dev.setRf_out (s : Dev) (a hi lo v : Nat) : (s.setRf a hi lo v).out = s.out := rfl
@[simp] theorem Dev.setRf_roots (s : Dev) (a hi lo v : Nat) : (s.setRf a hi lo v).roots = s.roots := rfl
@[simp] theorem Dev.setRf_tap (s : Dev) (a hi lo v : Nat) : (s.setRf a hi lo v).tap = s.tap := rfl
@[simp] theorem Dev.setRf_canopy (s : Dev) (a hi lo v : Nat) : (s.setRf a hi lo v).canopy = s.canopy := rfl
@[simp] theorem Dev.setRf_ras (s : Dev) (a hi lo v : Nat) : (s.setRf a hi lo v).ras = s.ras := rfl
@[simp] theorem Dev.setRf_sap (s : Dev) (a hi lo v : Nat) : (s.setRf a hi lo v).sap = s.sap := rfl
@[simp] theorem Dev.setRf_upd (s : Dev) (a hi lo v : Nat) : (s.setRf a hi lo v).upd = s.upd := rfl
@[simp] theorem Dev.setRf_reads (s : Dev) (a hi lo v : Nat) : (s.setRf a hi lo v).reads = s.reads := rfl
@[simp] theorem Dev.setRf_draws (s : Dev) (a hi lo v : Nat) : (s.setRf a hi lo v).draws = s.draws := rfl
@[simp] theorem Dev.setRf_word (s : Dev) (a hi lo v : Nat) (at_ : Nat) : (s.setRf a hi lo v).word at_ = s.word at_ := rfl

@[simp] theorem Dev.setRb_variant (s : Dev) (a i : Nat) (v : Bool) : (s.setRb a i v).variant = s.variant := rfl
@[simp] theorem Dev.setRb_words (s : Dev) (a i : Nat) (v : Bool) : (s.setRb a i v).words = s.words := rfl
@[simp] theorem Dev.setRb_lower (s : Dev) (a i : Nat) (v : Bool) : (s.setRb a i v).lower = s.lower := rfl
@[simp] theorem Dev.setRb_clocks (s : Dev) (a i : Nat) (v : Bool) : (s.setRb a i v).clocks = s.clocks := rfl
@[simp] theorem Dev.setRb_basjo (s : Dev) (a i : Nat) (v : Bool) : (s.setRb a i v).basjo = s.basjo := rfl
@[simp] theorem Dev.setRb_cam (s : Dev) (a i : Nat) (v : Bool) : (s.setRb a i v).cam = s.cam := rfl
@[simp] theorem Dev.setRb_audit (s : Dev) (a i : Nat) (v : Bool) : (s.setRb a i v).audit = s.audit := rfl
@[simp] theorem Dev.setRb_burl (s : Dev) (a i : Nat) (v : Bool) : (s.setRb a i v).burl = s.burl := rfl
@[simp] theorem Dev.setRb_ports (s : Dev) (a i : Nat) (v : Bool) : (s.setRb a i v).ports = s.ports := rfl
@[simp] theorem Dev.setRb_polls (s : Dev) (a i : Nat) (v : Bool) : (s.setRb a i v).polls = s.polls := rfl
@[simp] theorem Dev.setRb_rx (s : Dev) (a i : Nat) (v : Bool) : (s.setRb a i v).rx = s.rx := rfl
@[simp] theorem Dev.setRb_passed (s : Dev) (a i : Nat) (v : Bool) : (s.setRb a i v).passed = s.passed := rfl
@[simp] theorem Dev.setRb_groves (s : Dev) (a i : Nat) (v : Bool) : (s.setRb a i v).groves = s.groves := rfl
@[simp] theorem Dev.setRb_trunk (s : Dev) (a i : Nat) (v : Bool) : (s.setRb a i v).trunk = s.trunk := rfl
@[simp] theorem Dev.setRb_crown (s : Dev) (a i : Nat) (v : Bool) : (s.setRb a i v).crown = s.crown := rfl
@[simp] theorem Dev.setRb_bark (s : Dev) (a i : Nat) (v : Bool) : (s.setRb a i v).bark = s.bark := rfl
@[simp] theorem Dev.setRb_slowq (s : Dev) (a i : Nat) (v : Bool) : (s.setRb a i v).slowq = s.slowq := rfl
@[simp] theorem Dev.setRb_decap (s : Dev) (a i : Nat) (v : Bool) : (s.setRb a i v).decap = s.decap := rfl
@[simp] theorem Dev.setRb_out (s : Dev) (a i : Nat) (v : Bool) : (s.setRb a i v).out = s.out := rfl
@[simp] theorem Dev.setRb_roots (s : Dev) (a i : Nat) (v : Bool) : (s.setRb a i v).roots = s.roots := rfl
@[simp] theorem Dev.setRb_tap (s : Dev) (a i : Nat) (v : Bool) : (s.setRb a i v).tap = s.tap := rfl
@[simp] theorem Dev.setRb_canopy (s : Dev) (a i : Nat) (v : Bool) : (s.setRb a i v).canopy = s.canopy := rfl
@[simp] theorem Dev.setRb_ras (s : Dev) (a i : Nat) (v : Bool) : (s.setRb a i v).ras = s.ras := rfl
@[simp] theorem Dev.setRb_sap (s : Dev) (a i : Nat) (v : Bool) : (s.setRb a i v).sap = s.sap := rfl
@[simp] theorem Dev.setRb_upd (s : Dev) (a i : Nat) (v : Bool) : (s.setRb a i v).upd = s.upd := rfl
@[simp] theorem Dev.setRb_reads (s : Dev) (a i : Nat) (v : Bool) : (s.setRb a i v).reads = s.reads := rfl
@[simp] theorem Dev.setRb_draws (s : Dev) (a i : Nat) (v : Bool) : (s.setRb a i v).draws = s.draws := rfl
@[simp] theorem Dev.setRb_word (s : Dev) (a i : Nat) (v : Bool) (at_ : Nat) : (s.setRb a i v).word at_ = s.word at_ := rfl

@[simp] theorem Dev.count_variant (s : Dev) (a k : Nat) : (s.count a k).variant = s.variant := rfl
@[simp] theorem Dev.count_words (s : Dev) (a k : Nat) : (s.count a k).words = s.words := rfl
@[simp] theorem Dev.count_lower (s : Dev) (a k : Nat) : (s.count a k).lower = s.lower := rfl
@[simp] theorem Dev.count_clocks (s : Dev) (a k : Nat) : (s.count a k).clocks = s.clocks := rfl
@[simp] theorem Dev.count_basjo (s : Dev) (a k : Nat) : (s.count a k).basjo = s.basjo := rfl
@[simp] theorem Dev.count_cam (s : Dev) (a k : Nat) : (s.count a k).cam = s.cam := rfl
@[simp] theorem Dev.count_audit (s : Dev) (a k : Nat) : (s.count a k).audit = s.audit := rfl
@[simp] theorem Dev.count_burl (s : Dev) (a k : Nat) : (s.count a k).burl = s.burl := rfl
@[simp] theorem Dev.count_ports (s : Dev) (a k : Nat) : (s.count a k).ports = s.ports := rfl
@[simp] theorem Dev.count_polls (s : Dev) (a k : Nat) : (s.count a k).polls = s.polls := rfl
@[simp] theorem Dev.count_rx (s : Dev) (a k : Nat) : (s.count a k).rx = s.rx := rfl
@[simp] theorem Dev.count_passed (s : Dev) (a k : Nat) : (s.count a k).passed = s.passed := rfl
@[simp] theorem Dev.count_groves (s : Dev) (a k : Nat) : (s.count a k).groves = s.groves := rfl
@[simp] theorem Dev.count_trunk (s : Dev) (a k : Nat) : (s.count a k).trunk = s.trunk := rfl
@[simp] theorem Dev.count_crown (s : Dev) (a k : Nat) : (s.count a k).crown = s.crown := rfl
@[simp] theorem Dev.count_bark (s : Dev) (a k : Nat) : (s.count a k).bark = s.bark := rfl
@[simp] theorem Dev.count_slowq (s : Dev) (a k : Nat) : (s.count a k).slowq = s.slowq := rfl
@[simp] theorem Dev.count_decap (s : Dev) (a k : Nat) : (s.count a k).decap = s.decap := rfl
@[simp] theorem Dev.count_out (s : Dev) (a k : Nat) : (s.count a k).out = s.out := rfl
@[simp] theorem Dev.count_roots (s : Dev) (a k : Nat) : (s.count a k).roots = s.roots := rfl
@[simp] theorem Dev.count_tap (s : Dev) (a k : Nat) : (s.count a k).tap = s.tap := rfl
@[simp] theorem Dev.count_canopy (s : Dev) (a k : Nat) : (s.count a k).canopy = s.canopy := rfl
@[simp] theorem Dev.count_ras (s : Dev) (a k : Nat) : (s.count a k).ras = s.ras := rfl
@[simp] theorem Dev.count_sap (s : Dev) (a k : Nat) : (s.count a k).sap = s.sap := rfl
@[simp] theorem Dev.count_upd (s : Dev) (a k : Nat) : (s.count a k).upd = s.upd := rfl
@[simp] theorem Dev.count_reads (s : Dev) (a k : Nat) : (s.count a k).reads = s.reads := rfl
@[simp] theorem Dev.count_draws (s : Dev) (a k : Nat) : (s.count a k).draws = s.draws := rfl
@[simp] theorem Dev.count_word (s : Dev) (a k : Nat) (at_ : Nat) : (s.count a k).word at_ = s.word at_ := rfl

@[simp] theorem Dev.count64_variant (s : Dev) (a k : Nat) : (s.count64 a k).variant = s.variant := rfl
@[simp] theorem Dev.count64_words (s : Dev) (a k : Nat) : (s.count64 a k).words = s.words := rfl
@[simp] theorem Dev.count64_lower (s : Dev) (a k : Nat) : (s.count64 a k).lower = s.lower := rfl
@[simp] theorem Dev.count64_clocks (s : Dev) (a k : Nat) : (s.count64 a k).clocks = s.clocks := rfl
@[simp] theorem Dev.count64_basjo (s : Dev) (a k : Nat) : (s.count64 a k).basjo = s.basjo := rfl
@[simp] theorem Dev.count64_cam (s : Dev) (a k : Nat) : (s.count64 a k).cam = s.cam := rfl
@[simp] theorem Dev.count64_audit (s : Dev) (a k : Nat) : (s.count64 a k).audit = s.audit := rfl
@[simp] theorem Dev.count64_burl (s : Dev) (a k : Nat) : (s.count64 a k).burl = s.burl := rfl
@[simp] theorem Dev.count64_ports (s : Dev) (a k : Nat) : (s.count64 a k).ports = s.ports := rfl
@[simp] theorem Dev.count64_polls (s : Dev) (a k : Nat) : (s.count64 a k).polls = s.polls := rfl
@[simp] theorem Dev.count64_rx (s : Dev) (a k : Nat) : (s.count64 a k).rx = s.rx := rfl
@[simp] theorem Dev.count64_passed (s : Dev) (a k : Nat) : (s.count64 a k).passed = s.passed := rfl
@[simp] theorem Dev.count64_groves (s : Dev) (a k : Nat) : (s.count64 a k).groves = s.groves := rfl
@[simp] theorem Dev.count64_trunk (s : Dev) (a k : Nat) : (s.count64 a k).trunk = s.trunk := rfl
@[simp] theorem Dev.count64_crown (s : Dev) (a k : Nat) : (s.count64 a k).crown = s.crown := rfl
@[simp] theorem Dev.count64_bark (s : Dev) (a k : Nat) : (s.count64 a k).bark = s.bark := rfl
@[simp] theorem Dev.count64_slowq (s : Dev) (a k : Nat) : (s.count64 a k).slowq = s.slowq := rfl
@[simp] theorem Dev.count64_decap (s : Dev) (a k : Nat) : (s.count64 a k).decap = s.decap := rfl
@[simp] theorem Dev.count64_out (s : Dev) (a k : Nat) : (s.count64 a k).out = s.out := rfl
@[simp] theorem Dev.count64_roots (s : Dev) (a k : Nat) : (s.count64 a k).roots = s.roots := rfl
@[simp] theorem Dev.count64_tap (s : Dev) (a k : Nat) : (s.count64 a k).tap = s.tap := rfl
@[simp] theorem Dev.count64_canopy (s : Dev) (a k : Nat) : (s.count64 a k).canopy = s.canopy := rfl
@[simp] theorem Dev.count64_ras (s : Dev) (a k : Nat) : (s.count64 a k).ras = s.ras := rfl
@[simp] theorem Dev.count64_sap (s : Dev) (a k : Nat) : (s.count64 a k).sap = s.sap := rfl
@[simp] theorem Dev.count64_upd (s : Dev) (a k : Nat) : (s.count64 a k).upd = s.upd := rfl
@[simp] theorem Dev.count64_reads (s : Dev) (a k : Nat) : (s.count64 a k).reads = s.reads := rfl
@[simp] theorem Dev.count64_draws (s : Dev) (a k : Nat) : (s.count64 a k).draws = s.draws := rfl
@[simp] theorem Dev.count64_word (s : Dev) (a k : Nat) (at_ : Nat) : (s.count64 a k).word at_ = s.word at_ := rfl

@[simp] theorem Dev.resetRegs_variant (s : Dev) (lo hi : Nat) : (s.resetRegs lo hi).variant = s.variant := rfl
@[simp] theorem Dev.resetRegs_words (s : Dev) (lo hi : Nat) : (s.resetRegs lo hi).words = s.words := rfl
@[simp] theorem Dev.resetRegs_lower (s : Dev) (lo hi : Nat) : (s.resetRegs lo hi).lower = s.lower := rfl
@[simp] theorem Dev.resetRegs_clocks (s : Dev) (lo hi : Nat) : (s.resetRegs lo hi).clocks = s.clocks := rfl
@[simp] theorem Dev.resetRegs_basjo (s : Dev) (lo hi : Nat) : (s.resetRegs lo hi).basjo = s.basjo := rfl
@[simp] theorem Dev.resetRegs_cam (s : Dev) (lo hi : Nat) : (s.resetRegs lo hi).cam = s.cam := rfl
@[simp] theorem Dev.resetRegs_audit (s : Dev) (lo hi : Nat) : (s.resetRegs lo hi).audit = s.audit := rfl
@[simp] theorem Dev.resetRegs_burl (s : Dev) (lo hi : Nat) : (s.resetRegs lo hi).burl = s.burl := rfl
@[simp] theorem Dev.resetRegs_ports (s : Dev) (lo hi : Nat) : (s.resetRegs lo hi).ports = s.ports := rfl
@[simp] theorem Dev.resetRegs_polls (s : Dev) (lo hi : Nat) : (s.resetRegs lo hi).polls = s.polls := rfl
@[simp] theorem Dev.resetRegs_rx (s : Dev) (lo hi : Nat) : (s.resetRegs lo hi).rx = s.rx := rfl
@[simp] theorem Dev.resetRegs_passed (s : Dev) (lo hi : Nat) : (s.resetRegs lo hi).passed = s.passed := rfl
@[simp] theorem Dev.resetRegs_groves (s : Dev) (lo hi : Nat) : (s.resetRegs lo hi).groves = s.groves := rfl
@[simp] theorem Dev.resetRegs_trunk (s : Dev) (lo hi : Nat) : (s.resetRegs lo hi).trunk = s.trunk := rfl
@[simp] theorem Dev.resetRegs_crown (s : Dev) (lo hi : Nat) : (s.resetRegs lo hi).crown = s.crown := rfl
@[simp] theorem Dev.resetRegs_bark (s : Dev) (lo hi : Nat) : (s.resetRegs lo hi).bark = s.bark := rfl
@[simp] theorem Dev.resetRegs_slowq (s : Dev) (lo hi : Nat) : (s.resetRegs lo hi).slowq = s.slowq := rfl
@[simp] theorem Dev.resetRegs_decap (s : Dev) (lo hi : Nat) : (s.resetRegs lo hi).decap = s.decap := rfl
@[simp] theorem Dev.resetRegs_out (s : Dev) (lo hi : Nat) : (s.resetRegs lo hi).out = s.out := rfl
@[simp] theorem Dev.resetRegs_roots (s : Dev) (lo hi : Nat) : (s.resetRegs lo hi).roots = s.roots := rfl
@[simp] theorem Dev.resetRegs_tap (s : Dev) (lo hi : Nat) : (s.resetRegs lo hi).tap = s.tap := rfl
@[simp] theorem Dev.resetRegs_canopy (s : Dev) (lo hi : Nat) : (s.resetRegs lo hi).canopy = s.canopy := rfl
@[simp] theorem Dev.resetRegs_ras (s : Dev) (lo hi : Nat) : (s.resetRegs lo hi).ras = s.ras := rfl
@[simp] theorem Dev.resetRegs_sap (s : Dev) (lo hi : Nat) : (s.resetRegs lo hi).sap = s.sap := rfl
@[simp] theorem Dev.resetRegs_upd (s : Dev) (lo hi : Nat) : (s.resetRegs lo hi).upd = s.upd := rfl
@[simp] theorem Dev.resetRegs_reads (s : Dev) (lo hi : Nat) : (s.resetRegs lo hi).reads = s.reads := rfl
@[simp] theorem Dev.resetRegs_draws (s : Dev) (lo hi : Nat) : (s.resetRegs lo hi).draws = s.draws := rfl
@[simp] theorem Dev.resetRegs_word (s : Dev) (lo hi : Nat) (at_ : Nat) : (s.resetRegs lo hi).word at_ = s.word at_ := rfl

@[simp] theorem Dev.setWord_variant (s : Dev) (a : Nat) (v : DWord) : (s.setWord a v).variant = s.variant := rfl
@[simp] theorem Dev.setWord_regs (s : Dev) (a : Nat) (v : DWord) : (s.setWord a v).regs = s.regs := rfl
@[simp] theorem Dev.setWord_lower (s : Dev) (a : Nat) (v : DWord) : (s.setWord a v).lower = s.lower := rfl
@[simp] theorem Dev.setWord_clocks (s : Dev) (a : Nat) (v : DWord) : (s.setWord a v).clocks = s.clocks := rfl
@[simp] theorem Dev.setWord_basjo (s : Dev) (a : Nat) (v : DWord) : (s.setWord a v).basjo = s.basjo := rfl
@[simp] theorem Dev.setWord_cam (s : Dev) (a : Nat) (v : DWord) : (s.setWord a v).cam = s.cam := rfl
@[simp] theorem Dev.setWord_audit (s : Dev) (a : Nat) (v : DWord) : (s.setWord a v).audit = s.audit := rfl
@[simp] theorem Dev.setWord_burl (s : Dev) (a : Nat) (v : DWord) : (s.setWord a v).burl = s.burl := rfl
@[simp] theorem Dev.setWord_ports (s : Dev) (a : Nat) (v : DWord) : (s.setWord a v).ports = s.ports := rfl
@[simp] theorem Dev.setWord_polls (s : Dev) (a : Nat) (v : DWord) : (s.setWord a v).polls = s.polls := rfl
@[simp] theorem Dev.setWord_rx (s : Dev) (a : Nat) (v : DWord) : (s.setWord a v).rx = s.rx := rfl
@[simp] theorem Dev.setWord_passed (s : Dev) (a : Nat) (v : DWord) : (s.setWord a v).passed = s.passed := rfl
@[simp] theorem Dev.setWord_groves (s : Dev) (a : Nat) (v : DWord) : (s.setWord a v).groves = s.groves := rfl
@[simp] theorem Dev.setWord_trunk (s : Dev) (a : Nat) (v : DWord) : (s.setWord a v).trunk = s.trunk := rfl
@[simp] theorem Dev.setWord_crown (s : Dev) (a : Nat) (v : DWord) : (s.setWord a v).crown = s.crown := rfl
@[simp] theorem Dev.setWord_bark (s : Dev) (a : Nat) (v : DWord) : (s.setWord a v).bark = s.bark := rfl
@[simp] theorem Dev.setWord_slowq (s : Dev) (a : Nat) (v : DWord) : (s.setWord a v).slowq = s.slowq := rfl
@[simp] theorem Dev.setWord_decap (s : Dev) (a : Nat) (v : DWord) : (s.setWord a v).decap = s.decap := rfl
@[simp] theorem Dev.setWord_out (s : Dev) (a : Nat) (v : DWord) : (s.setWord a v).out = s.out := rfl
@[simp] theorem Dev.setWord_roots (s : Dev) (a : Nat) (v : DWord) : (s.setWord a v).roots = s.roots := rfl
@[simp] theorem Dev.setWord_tap (s : Dev) (a : Nat) (v : DWord) : (s.setWord a v).tap = s.tap := rfl
@[simp] theorem Dev.setWord_canopy (s : Dev) (a : Nat) (v : DWord) : (s.setWord a v).canopy = s.canopy := rfl
@[simp] theorem Dev.setWord_ras (s : Dev) (a : Nat) (v : DWord) : (s.setWord a v).ras = s.ras := rfl
@[simp] theorem Dev.setWord_sap (s : Dev) (a : Nat) (v : DWord) : (s.setWord a v).sap = s.sap := rfl
@[simp] theorem Dev.setWord_upd (s : Dev) (a : Nat) (v : DWord) : (s.setWord a v).upd = s.upd := rfl
@[simp] theorem Dev.setWord_reads (s : Dev) (a : Nat) (v : DWord) : (s.setWord a v).reads = s.reads := rfl
@[simp] theorem Dev.setWord_draws (s : Dev) (a : Nat) (v : DWord) : (s.setWord a v).draws = s.draws := rfl
@[simp] theorem Dev.setWord_reg (s : Dev) (a : Nat) (v : DWord) (at_ : Nat) : (s.setWord a v).reg at_ = s.reg at_ := rfl
@[simp] theorem Dev.setWord_rb (s : Dev) (a : Nat) (v : DWord) (at_ j : Nat) : (s.setWord a v).rb at_ j = s.rb at_ j := rfl
@[simp] theorem Dev.setWord_rf (s : Dev) (a : Nat) (v : DWord) (at_ p q : Nat) : (s.setWord a v).rf at_ p q = s.rf at_ p q := rfl

@[simp] theorem Dev.onBasjo_variant (s : Dev) (f : Basjo → Basjo) : (s.onBasjo f).variant = s.variant := rfl
@[simp] theorem Dev.onBasjo_regs (s : Dev) (f : Basjo → Basjo) : (s.onBasjo f).regs = s.regs := rfl
@[simp] theorem Dev.onBasjo_words (s : Dev) (f : Basjo → Basjo) : (s.onBasjo f).words = s.words := rfl
@[simp] theorem Dev.onBasjo_lower (s : Dev) (f : Basjo → Basjo) : (s.onBasjo f).lower = s.lower := rfl
@[simp] theorem Dev.onBasjo_clocks (s : Dev) (f : Basjo → Basjo) : (s.onBasjo f).clocks = s.clocks := rfl
@[simp] theorem Dev.onBasjo_cam (s : Dev) (f : Basjo → Basjo) : (s.onBasjo f).cam = s.cam := rfl
@[simp] theorem Dev.onBasjo_audit (s : Dev) (f : Basjo → Basjo) : (s.onBasjo f).audit = s.audit := rfl
@[simp] theorem Dev.onBasjo_burl (s : Dev) (f : Basjo → Basjo) : (s.onBasjo f).burl = s.burl := rfl
@[simp] theorem Dev.onBasjo_ports (s : Dev) (f : Basjo → Basjo) : (s.onBasjo f).ports = s.ports := rfl
@[simp] theorem Dev.onBasjo_polls (s : Dev) (f : Basjo → Basjo) : (s.onBasjo f).polls = s.polls := rfl
@[simp] theorem Dev.onBasjo_rx (s : Dev) (f : Basjo → Basjo) : (s.onBasjo f).rx = s.rx := rfl
@[simp] theorem Dev.onBasjo_passed (s : Dev) (f : Basjo → Basjo) : (s.onBasjo f).passed = s.passed := rfl
@[simp] theorem Dev.onBasjo_groves (s : Dev) (f : Basjo → Basjo) : (s.onBasjo f).groves = s.groves := rfl
@[simp] theorem Dev.onBasjo_trunk (s : Dev) (f : Basjo → Basjo) : (s.onBasjo f).trunk = s.trunk := rfl
@[simp] theorem Dev.onBasjo_crown (s : Dev) (f : Basjo → Basjo) : (s.onBasjo f).crown = s.crown := rfl
@[simp] theorem Dev.onBasjo_bark (s : Dev) (f : Basjo → Basjo) : (s.onBasjo f).bark = s.bark := rfl
@[simp] theorem Dev.onBasjo_slowq (s : Dev) (f : Basjo → Basjo) : (s.onBasjo f).slowq = s.slowq := rfl
@[simp] theorem Dev.onBasjo_decap (s : Dev) (f : Basjo → Basjo) : (s.onBasjo f).decap = s.decap := rfl
@[simp] theorem Dev.onBasjo_out (s : Dev) (f : Basjo → Basjo) : (s.onBasjo f).out = s.out := rfl
@[simp] theorem Dev.onBasjo_roots (s : Dev) (f : Basjo → Basjo) : (s.onBasjo f).roots = s.roots := rfl
@[simp] theorem Dev.onBasjo_tap (s : Dev) (f : Basjo → Basjo) : (s.onBasjo f).tap = s.tap := rfl
@[simp] theorem Dev.onBasjo_canopy (s : Dev) (f : Basjo → Basjo) : (s.onBasjo f).canopy = s.canopy := rfl
@[simp] theorem Dev.onBasjo_ras (s : Dev) (f : Basjo → Basjo) : (s.onBasjo f).ras = s.ras := rfl
@[simp] theorem Dev.onBasjo_sap (s : Dev) (f : Basjo → Basjo) : (s.onBasjo f).sap = s.sap := rfl
@[simp] theorem Dev.onBasjo_upd (s : Dev) (f : Basjo → Basjo) : (s.onBasjo f).upd = s.upd := rfl
@[simp] theorem Dev.onBasjo_reads (s : Dev) (f : Basjo → Basjo) : (s.onBasjo f).reads = s.reads := rfl
@[simp] theorem Dev.onBasjo_draws (s : Dev) (f : Basjo → Basjo) : (s.onBasjo f).draws = s.draws := rfl
@[simp] theorem Dev.onBasjo_reg (s : Dev) (f : Basjo → Basjo) (at_ : Nat) : (s.onBasjo f).reg at_ = s.reg at_ := rfl
@[simp] theorem Dev.onBasjo_rb (s : Dev) (f : Basjo → Basjo) (at_ j : Nat) : (s.onBasjo f).rb at_ j = s.rb at_ j := rfl
@[simp] theorem Dev.onBasjo_rf (s : Dev) (f : Basjo → Basjo) (at_ p q : Nat) : (s.onBasjo f).rf at_ p q = s.rf at_ p q := rfl
@[simp] theorem Dev.onBasjo_word (s : Dev) (f : Basjo → Basjo) (at_ : Nat) : (s.onBasjo f).word at_ = s.word at_ := rfl

@[simp] theorem Dev.raiseAt_variant (s : Dev) (h cls cause cl u x y : Nat) : (s.raiseAt h cls cause cl u x y).variant = s.variant := rfl
@[simp] theorem Dev.raiseAt_regs (s : Dev) (h cls cause cl u x y : Nat) : (s.raiseAt h cls cause cl u x y).regs = s.regs := rfl
@[simp] theorem Dev.raiseAt_words (s : Dev) (h cls cause cl u x y : Nat) : (s.raiseAt h cls cause cl u x y).words = s.words := rfl
@[simp] theorem Dev.raiseAt_lower (s : Dev) (h cls cause cl u x y : Nat) : (s.raiseAt h cls cause cl u x y).lower = s.lower := rfl
@[simp] theorem Dev.raiseAt_clocks (s : Dev) (h cls cause cl u x y : Nat) : (s.raiseAt h cls cause cl u x y).clocks = s.clocks := rfl
@[simp] theorem Dev.raiseAt_cam (s : Dev) (h cls cause cl u x y : Nat) : (s.raiseAt h cls cause cl u x y).cam = s.cam := rfl
@[simp] theorem Dev.raiseAt_audit (s : Dev) (h cls cause cl u x y : Nat) : (s.raiseAt h cls cause cl u x y).audit = s.audit := rfl
@[simp] theorem Dev.raiseAt_burl (s : Dev) (h cls cause cl u x y : Nat) : (s.raiseAt h cls cause cl u x y).burl = s.burl := rfl
@[simp] theorem Dev.raiseAt_ports (s : Dev) (h cls cause cl u x y : Nat) : (s.raiseAt h cls cause cl u x y).ports = s.ports := rfl
@[simp] theorem Dev.raiseAt_polls (s : Dev) (h cls cause cl u x y : Nat) : (s.raiseAt h cls cause cl u x y).polls = s.polls := rfl
@[simp] theorem Dev.raiseAt_rx (s : Dev) (h cls cause cl u x y : Nat) : (s.raiseAt h cls cause cl u x y).rx = s.rx := rfl
@[simp] theorem Dev.raiseAt_passed (s : Dev) (h cls cause cl u x y : Nat) : (s.raiseAt h cls cause cl u x y).passed = s.passed := rfl
@[simp] theorem Dev.raiseAt_groves (s : Dev) (h cls cause cl u x y : Nat) : (s.raiseAt h cls cause cl u x y).groves = s.groves := rfl
@[simp] theorem Dev.raiseAt_trunk (s : Dev) (h cls cause cl u x y : Nat) : (s.raiseAt h cls cause cl u x y).trunk = s.trunk := rfl
@[simp] theorem Dev.raiseAt_crown (s : Dev) (h cls cause cl u x y : Nat) : (s.raiseAt h cls cause cl u x y).crown = s.crown := rfl
@[simp] theorem Dev.raiseAt_bark (s : Dev) (h cls cause cl u x y : Nat) : (s.raiseAt h cls cause cl u x y).bark = s.bark := rfl
@[simp] theorem Dev.raiseAt_slowq (s : Dev) (h cls cause cl u x y : Nat) : (s.raiseAt h cls cause cl u x y).slowq = s.slowq := rfl
@[simp] theorem Dev.raiseAt_decap (s : Dev) (h cls cause cl u x y : Nat) : (s.raiseAt h cls cause cl u x y).decap = s.decap := rfl
@[simp] theorem Dev.raiseAt_out (s : Dev) (h cls cause cl u x y : Nat) : (s.raiseAt h cls cause cl u x y).out = s.out := rfl
@[simp] theorem Dev.raiseAt_roots (s : Dev) (h cls cause cl u x y : Nat) : (s.raiseAt h cls cause cl u x y).roots = s.roots := rfl
@[simp] theorem Dev.raiseAt_tap (s : Dev) (h cls cause cl u x y : Nat) : (s.raiseAt h cls cause cl u x y).tap = s.tap := rfl
@[simp] theorem Dev.raiseAt_canopy (s : Dev) (h cls cause cl u x y : Nat) : (s.raiseAt h cls cause cl u x y).canopy = s.canopy := rfl
@[simp] theorem Dev.raiseAt_ras (s : Dev) (h cls cause cl u x y : Nat) : (s.raiseAt h cls cause cl u x y).ras = s.ras := rfl
@[simp] theorem Dev.raiseAt_sap (s : Dev) (h cls cause cl u x y : Nat) : (s.raiseAt h cls cause cl u x y).sap = s.sap := rfl
@[simp] theorem Dev.raiseAt_upd (s : Dev) (h cls cause cl u x y : Nat) : (s.raiseAt h cls cause cl u x y).upd = s.upd := rfl
@[simp] theorem Dev.raiseAt_reads (s : Dev) (h cls cause cl u x y : Nat) : (s.raiseAt h cls cause cl u x y).reads = s.reads := rfl
@[simp] theorem Dev.raiseAt_draws (s : Dev) (h cls cause cl u x y : Nat) : (s.raiseAt h cls cause cl u x y).draws = s.draws := rfl
@[simp] theorem Dev.raiseAt_reg (s : Dev) (h cls cause cl u x y : Nat) (at_ : Nat) : (s.raiseAt h cls cause cl u x y).reg at_ = s.reg at_ := rfl
@[simp] theorem Dev.raiseAt_rb (s : Dev) (h cls cause cl u x y : Nat) (at_ j : Nat) : (s.raiseAt h cls cause cl u x y).rb at_ j = s.rb at_ j := rfl
@[simp] theorem Dev.raiseAt_rf (s : Dev) (h cls cause cl u x y : Nat) (at_ p q : Nat) : (s.raiseAt h cls cause cl u x y).rf at_ p q = s.rf at_ p q := rfl
@[simp] theorem Dev.raiseAt_word (s : Dev) (h cls cause cl u x y : Nat) (at_ : Nat) : (s.raiseAt h cls cause cl u x y).word at_ = s.word at_ := rfl

@[simp] theorem Dev.raiseStamped_variant (s : Dev) (cls cause cl u x y raw : Nat) : (s.raiseStamped cls cause cl u x y raw).variant = s.variant := rfl
@[simp] theorem Dev.raiseStamped_regs (s : Dev) (cls cause cl u x y raw : Nat) : (s.raiseStamped cls cause cl u x y raw).regs = s.regs := rfl
@[simp] theorem Dev.raiseStamped_words (s : Dev) (cls cause cl u x y raw : Nat) : (s.raiseStamped cls cause cl u x y raw).words = s.words := rfl
@[simp] theorem Dev.raiseStamped_lower (s : Dev) (cls cause cl u x y raw : Nat) : (s.raiseStamped cls cause cl u x y raw).lower = s.lower := rfl
@[simp] theorem Dev.raiseStamped_clocks (s : Dev) (cls cause cl u x y raw : Nat) : (s.raiseStamped cls cause cl u x y raw).clocks = s.clocks := rfl
@[simp] theorem Dev.raiseStamped_cam (s : Dev) (cls cause cl u x y raw : Nat) : (s.raiseStamped cls cause cl u x y raw).cam = s.cam := rfl
@[simp] theorem Dev.raiseStamped_audit (s : Dev) (cls cause cl u x y raw : Nat) : (s.raiseStamped cls cause cl u x y raw).audit = s.audit := rfl
@[simp] theorem Dev.raiseStamped_burl (s : Dev) (cls cause cl u x y raw : Nat) : (s.raiseStamped cls cause cl u x y raw).burl = s.burl := rfl
@[simp] theorem Dev.raiseStamped_ports (s : Dev) (cls cause cl u x y raw : Nat) : (s.raiseStamped cls cause cl u x y raw).ports = s.ports := rfl
@[simp] theorem Dev.raiseStamped_polls (s : Dev) (cls cause cl u x y raw : Nat) : (s.raiseStamped cls cause cl u x y raw).polls = s.polls := rfl
@[simp] theorem Dev.raiseStamped_rx (s : Dev) (cls cause cl u x y raw : Nat) : (s.raiseStamped cls cause cl u x y raw).rx = s.rx := rfl
@[simp] theorem Dev.raiseStamped_passed (s : Dev) (cls cause cl u x y raw : Nat) : (s.raiseStamped cls cause cl u x y raw).passed = s.passed := rfl
@[simp] theorem Dev.raiseStamped_groves (s : Dev) (cls cause cl u x y raw : Nat) : (s.raiseStamped cls cause cl u x y raw).groves = s.groves := rfl
@[simp] theorem Dev.raiseStamped_trunk (s : Dev) (cls cause cl u x y raw : Nat) : (s.raiseStamped cls cause cl u x y raw).trunk = s.trunk := rfl
@[simp] theorem Dev.raiseStamped_crown (s : Dev) (cls cause cl u x y raw : Nat) : (s.raiseStamped cls cause cl u x y raw).crown = s.crown := rfl
@[simp] theorem Dev.raiseStamped_bark (s : Dev) (cls cause cl u x y raw : Nat) : (s.raiseStamped cls cause cl u x y raw).bark = s.bark := rfl
@[simp] theorem Dev.raiseStamped_slowq (s : Dev) (cls cause cl u x y raw : Nat) : (s.raiseStamped cls cause cl u x y raw).slowq = s.slowq := rfl
@[simp] theorem Dev.raiseStamped_decap (s : Dev) (cls cause cl u x y raw : Nat) : (s.raiseStamped cls cause cl u x y raw).decap = s.decap := rfl
@[simp] theorem Dev.raiseStamped_out (s : Dev) (cls cause cl u x y raw : Nat) : (s.raiseStamped cls cause cl u x y raw).out = s.out := rfl
@[simp] theorem Dev.raiseStamped_roots (s : Dev) (cls cause cl u x y raw : Nat) : (s.raiseStamped cls cause cl u x y raw).roots = s.roots := rfl
@[simp] theorem Dev.raiseStamped_tap (s : Dev) (cls cause cl u x y raw : Nat) : (s.raiseStamped cls cause cl u x y raw).tap = s.tap := rfl
@[simp] theorem Dev.raiseStamped_canopy (s : Dev) (cls cause cl u x y raw : Nat) : (s.raiseStamped cls cause cl u x y raw).canopy = s.canopy := rfl
@[simp] theorem Dev.raiseStamped_ras (s : Dev) (cls cause cl u x y raw : Nat) : (s.raiseStamped cls cause cl u x y raw).ras = s.ras := rfl
@[simp] theorem Dev.raiseStamped_sap (s : Dev) (cls cause cl u x y raw : Nat) : (s.raiseStamped cls cause cl u x y raw).sap = s.sap := rfl
@[simp] theorem Dev.raiseStamped_upd (s : Dev) (cls cause cl u x y raw : Nat) : (s.raiseStamped cls cause cl u x y raw).upd = s.upd := rfl
@[simp] theorem Dev.raiseStamped_reads (s : Dev) (cls cause cl u x y raw : Nat) : (s.raiseStamped cls cause cl u x y raw).reads = s.reads := rfl
@[simp] theorem Dev.raiseStamped_draws (s : Dev) (cls cause cl u x y raw : Nat) : (s.raiseStamped cls cause cl u x y raw).draws = s.draws := rfl
@[simp] theorem Dev.raiseStamped_reg (s : Dev) (cls cause cl u x y raw : Nat) (at_ : Nat) : (s.raiseStamped cls cause cl u x y raw).reg at_ = s.reg at_ := rfl
@[simp] theorem Dev.raiseStamped_rb (s : Dev) (cls cause cl u x y raw : Nat) (at_ j : Nat) : (s.raiseStamped cls cause cl u x y raw).rb at_ j = s.rb at_ j := rfl
@[simp] theorem Dev.raiseStamped_rf (s : Dev) (cls cause cl u x y raw : Nat) (at_ p q : Nat) : (s.raiseStamped cls cause cl u x y raw).rf at_ p q = s.rf at_ p q := rfl
@[simp] theorem Dev.raiseStamped_word (s : Dev) (cls cause cl u x y raw : Nat) (at_ : Nat) : (s.raiseStamped cls cause cl u x y raw).word at_ = s.word at_ := rfl

@[simp] theorem Dev.raise_variant (s : Dev) (cls cause cl u x y : Nat) : (s.raise cls cause cl u x y).variant = s.variant := rfl
@[simp] theorem Dev.raise_regs (s : Dev) (cls cause cl u x y : Nat) : (s.raise cls cause cl u x y).regs = s.regs := rfl
@[simp] theorem Dev.raise_words (s : Dev) (cls cause cl u x y : Nat) : (s.raise cls cause cl u x y).words = s.words := rfl
@[simp] theorem Dev.raise_lower (s : Dev) (cls cause cl u x y : Nat) : (s.raise cls cause cl u x y).lower = s.lower := rfl
@[simp] theorem Dev.raise_clocks (s : Dev) (cls cause cl u x y : Nat) : (s.raise cls cause cl u x y).clocks = s.clocks := rfl
@[simp] theorem Dev.raise_cam (s : Dev) (cls cause cl u x y : Nat) : (s.raise cls cause cl u x y).cam = s.cam := rfl
@[simp] theorem Dev.raise_audit (s : Dev) (cls cause cl u x y : Nat) : (s.raise cls cause cl u x y).audit = s.audit := rfl
@[simp] theorem Dev.raise_burl (s : Dev) (cls cause cl u x y : Nat) : (s.raise cls cause cl u x y).burl = s.burl := rfl
@[simp] theorem Dev.raise_ports (s : Dev) (cls cause cl u x y : Nat) : (s.raise cls cause cl u x y).ports = s.ports := rfl
@[simp] theorem Dev.raise_polls (s : Dev) (cls cause cl u x y : Nat) : (s.raise cls cause cl u x y).polls = s.polls := rfl
@[simp] theorem Dev.raise_rx (s : Dev) (cls cause cl u x y : Nat) : (s.raise cls cause cl u x y).rx = s.rx := rfl
@[simp] theorem Dev.raise_passed (s : Dev) (cls cause cl u x y : Nat) : (s.raise cls cause cl u x y).passed = s.passed := rfl
@[simp] theorem Dev.raise_groves (s : Dev) (cls cause cl u x y : Nat) : (s.raise cls cause cl u x y).groves = s.groves := rfl
@[simp] theorem Dev.raise_trunk (s : Dev) (cls cause cl u x y : Nat) : (s.raise cls cause cl u x y).trunk = s.trunk := rfl
@[simp] theorem Dev.raise_crown (s : Dev) (cls cause cl u x y : Nat) : (s.raise cls cause cl u x y).crown = s.crown := rfl
@[simp] theorem Dev.raise_bark (s : Dev) (cls cause cl u x y : Nat) : (s.raise cls cause cl u x y).bark = s.bark := rfl
@[simp] theorem Dev.raise_slowq (s : Dev) (cls cause cl u x y : Nat) : (s.raise cls cause cl u x y).slowq = s.slowq := rfl
@[simp] theorem Dev.raise_decap (s : Dev) (cls cause cl u x y : Nat) : (s.raise cls cause cl u x y).decap = s.decap := rfl
@[simp] theorem Dev.raise_out (s : Dev) (cls cause cl u x y : Nat) : (s.raise cls cause cl u x y).out = s.out := rfl
@[simp] theorem Dev.raise_roots (s : Dev) (cls cause cl u x y : Nat) : (s.raise cls cause cl u x y).roots = s.roots := rfl
@[simp] theorem Dev.raise_tap (s : Dev) (cls cause cl u x y : Nat) : (s.raise cls cause cl u x y).tap = s.tap := rfl
@[simp] theorem Dev.raise_canopy (s : Dev) (cls cause cl u x y : Nat) : (s.raise cls cause cl u x y).canopy = s.canopy := rfl
@[simp] theorem Dev.raise_ras (s : Dev) (cls cause cl u x y : Nat) : (s.raise cls cause cl u x y).ras = s.ras := rfl
@[simp] theorem Dev.raise_sap (s : Dev) (cls cause cl u x y : Nat) : (s.raise cls cause cl u x y).sap = s.sap := rfl
@[simp] theorem Dev.raise_upd (s : Dev) (cls cause cl u x y : Nat) : (s.raise cls cause cl u x y).upd = s.upd := rfl
@[simp] theorem Dev.raise_reads (s : Dev) (cls cause cl u x y : Nat) : (s.raise cls cause cl u x y).reads = s.reads := rfl
@[simp] theorem Dev.raise_draws (s : Dev) (cls cause cl u x y : Nat) : (s.raise cls cause cl u x y).draws = s.draws := rfl
@[simp] theorem Dev.raise_reg (s : Dev) (cls cause cl u x y : Nat) (at_ : Nat) : (s.raise cls cause cl u x y).reg at_ = s.reg at_ := rfl
@[simp] theorem Dev.raise_rb (s : Dev) (cls cause cl u x y : Nat) (at_ j : Nat) : (s.raise cls cause cl u x y).rb at_ j = s.rb at_ j := rfl
@[simp] theorem Dev.raise_rf (s : Dev) (cls cause cl u x y : Nat) (at_ p q : Nat) : (s.raise cls cause cl u x y).rf at_ p q = s.rf at_ p q := rfl
@[simp] theorem Dev.raise_word (s : Dev) (cls cause cl u x y : Nat) (at_ : Nat) : (s.raise cls cause cl u x y).word at_ = s.word at_ := rfl

@[simp] theorem Dev.logRaw_variant (s : Dev) (o k cl u op tg : Nat) (x y : DWord) : (s.logRaw o k cl u op tg x y).variant = s.variant := rfl
@[simp] theorem Dev.logRaw_regs (s : Dev) (o k cl u op tg : Nat) (x y : DWord) : (s.logRaw o k cl u op tg x y).regs = s.regs := rfl
@[simp] theorem Dev.logRaw_words (s : Dev) (o k cl u op tg : Nat) (x y : DWord) : (s.logRaw o k cl u op tg x y).words = s.words := rfl
@[simp] theorem Dev.logRaw_lower (s : Dev) (o k cl u op tg : Nat) (x y : DWord) : (s.logRaw o k cl u op tg x y).lower = s.lower := rfl
@[simp] theorem Dev.logRaw_clocks (s : Dev) (o k cl u op tg : Nat) (x y : DWord) : (s.logRaw o k cl u op tg x y).clocks = s.clocks := rfl
@[simp] theorem Dev.logRaw_cam (s : Dev) (o k cl u op tg : Nat) (x y : DWord) : (s.logRaw o k cl u op tg x y).cam = s.cam := rfl
@[simp] theorem Dev.logRaw_burl (s : Dev) (o k cl u op tg : Nat) (x y : DWord) : (s.logRaw o k cl u op tg x y).burl = s.burl := rfl
@[simp] theorem Dev.logRaw_ports (s : Dev) (o k cl u op tg : Nat) (x y : DWord) : (s.logRaw o k cl u op tg x y).ports = s.ports := rfl
@[simp] theorem Dev.logRaw_polls (s : Dev) (o k cl u op tg : Nat) (x y : DWord) : (s.logRaw o k cl u op tg x y).polls = s.polls := rfl
@[simp] theorem Dev.logRaw_rx (s : Dev) (o k cl u op tg : Nat) (x y : DWord) : (s.logRaw o k cl u op tg x y).rx = s.rx := rfl
@[simp] theorem Dev.logRaw_passed (s : Dev) (o k cl u op tg : Nat) (x y : DWord) : (s.logRaw o k cl u op tg x y).passed = s.passed := rfl
@[simp] theorem Dev.logRaw_groves (s : Dev) (o k cl u op tg : Nat) (x y : DWord) : (s.logRaw o k cl u op tg x y).groves = s.groves := rfl
@[simp] theorem Dev.logRaw_trunk (s : Dev) (o k cl u op tg : Nat) (x y : DWord) : (s.logRaw o k cl u op tg x y).trunk = s.trunk := rfl
@[simp] theorem Dev.logRaw_crown (s : Dev) (o k cl u op tg : Nat) (x y : DWord) : (s.logRaw o k cl u op tg x y).crown = s.crown := rfl
@[simp] theorem Dev.logRaw_bark (s : Dev) (o k cl u op tg : Nat) (x y : DWord) : (s.logRaw o k cl u op tg x y).bark = s.bark := rfl
@[simp] theorem Dev.logRaw_slowq (s : Dev) (o k cl u op tg : Nat) (x y : DWord) : (s.logRaw o k cl u op tg x y).slowq = s.slowq := rfl
@[simp] theorem Dev.logRaw_decap (s : Dev) (o k cl u op tg : Nat) (x y : DWord) : (s.logRaw o k cl u op tg x y).decap = s.decap := rfl
@[simp] theorem Dev.logRaw_out (s : Dev) (o k cl u op tg : Nat) (x y : DWord) : (s.logRaw o k cl u op tg x y).out = s.out := rfl
@[simp] theorem Dev.logRaw_roots (s : Dev) (o k cl u op tg : Nat) (x y : DWord) : (s.logRaw o k cl u op tg x y).roots = s.roots := rfl
@[simp] theorem Dev.logRaw_tap (s : Dev) (o k cl u op tg : Nat) (x y : DWord) : (s.logRaw o k cl u op tg x y).tap = s.tap := rfl
@[simp] theorem Dev.logRaw_canopy (s : Dev) (o k cl u op tg : Nat) (x y : DWord) : (s.logRaw o k cl u op tg x y).canopy = s.canopy := rfl
@[simp] theorem Dev.logRaw_ras (s : Dev) (o k cl u op tg : Nat) (x y : DWord) : (s.logRaw o k cl u op tg x y).ras = s.ras := rfl
@[simp] theorem Dev.logRaw_sap (s : Dev) (o k cl u op tg : Nat) (x y : DWord) : (s.logRaw o k cl u op tg x y).sap = s.sap := rfl
@[simp] theorem Dev.logRaw_upd (s : Dev) (o k cl u op tg : Nat) (x y : DWord) : (s.logRaw o k cl u op tg x y).upd = s.upd := rfl
@[simp] theorem Dev.logRaw_reads (s : Dev) (o k cl u op tg : Nat) (x y : DWord) : (s.logRaw o k cl u op tg x y).reads = s.reads := rfl
@[simp] theorem Dev.logRaw_draws (s : Dev) (o k cl u op tg : Nat) (x y : DWord) : (s.logRaw o k cl u op tg x y).draws = s.draws := rfl
@[simp] theorem Dev.logRaw_reg (s : Dev) (o k cl u op tg : Nat) (x y : DWord) (at_ : Nat) : (s.logRaw o k cl u op tg x y).reg at_ = s.reg at_ := rfl
@[simp] theorem Dev.logRaw_rb (s : Dev) (o k cl u op tg : Nat) (x y : DWord) (at_ j : Nat) : (s.logRaw o k cl u op tg x y).rb at_ j = s.rb at_ j := rfl
@[simp] theorem Dev.logRaw_rf (s : Dev) (o k cl u op tg : Nat) (x y : DWord) (at_ p q : Nat) : (s.logRaw o k cl u op tg x y).rf at_ p q = s.rf at_ p q := rfl
@[simp] theorem Dev.logRaw_word (s : Dev) (o k cl u op tg : Nat) (x y : DWord) (at_ : Nat) : (s.logRaw o k cl u op tg x y).word at_ = s.word at_ := rfl

@[simp] theorem Dev.log_variant (s : Dev) (o k cl u op tg : Nat) (x y : List Byte) : (s.log o k cl u op tg x y).variant = s.variant := rfl
@[simp] theorem Dev.log_regs (s : Dev) (o k cl u op tg : Nat) (x y : List Byte) : (s.log o k cl u op tg x y).regs = s.regs := rfl
@[simp] theorem Dev.log_words (s : Dev) (o k cl u op tg : Nat) (x y : List Byte) : (s.log o k cl u op tg x y).words = s.words := rfl
@[simp] theorem Dev.log_lower (s : Dev) (o k cl u op tg : Nat) (x y : List Byte) : (s.log o k cl u op tg x y).lower = s.lower := rfl
@[simp] theorem Dev.log_clocks (s : Dev) (o k cl u op tg : Nat) (x y : List Byte) : (s.log o k cl u op tg x y).clocks = s.clocks := rfl
@[simp] theorem Dev.log_cam (s : Dev) (o k cl u op tg : Nat) (x y : List Byte) : (s.log o k cl u op tg x y).cam = s.cam := rfl
@[simp] theorem Dev.log_burl (s : Dev) (o k cl u op tg : Nat) (x y : List Byte) : (s.log o k cl u op tg x y).burl = s.burl := rfl
@[simp] theorem Dev.log_ports (s : Dev) (o k cl u op tg : Nat) (x y : List Byte) : (s.log o k cl u op tg x y).ports = s.ports := rfl
@[simp] theorem Dev.log_polls (s : Dev) (o k cl u op tg : Nat) (x y : List Byte) : (s.log o k cl u op tg x y).polls = s.polls := rfl
@[simp] theorem Dev.log_rx (s : Dev) (o k cl u op tg : Nat) (x y : List Byte) : (s.log o k cl u op tg x y).rx = s.rx := rfl
@[simp] theorem Dev.log_passed (s : Dev) (o k cl u op tg : Nat) (x y : List Byte) : (s.log o k cl u op tg x y).passed = s.passed := rfl
@[simp] theorem Dev.log_groves (s : Dev) (o k cl u op tg : Nat) (x y : List Byte) : (s.log o k cl u op tg x y).groves = s.groves := rfl
@[simp] theorem Dev.log_trunk (s : Dev) (o k cl u op tg : Nat) (x y : List Byte) : (s.log o k cl u op tg x y).trunk = s.trunk := rfl
@[simp] theorem Dev.log_crown (s : Dev) (o k cl u op tg : Nat) (x y : List Byte) : (s.log o k cl u op tg x y).crown = s.crown := rfl
@[simp] theorem Dev.log_bark (s : Dev) (o k cl u op tg : Nat) (x y : List Byte) : (s.log o k cl u op tg x y).bark = s.bark := rfl
@[simp] theorem Dev.log_slowq (s : Dev) (o k cl u op tg : Nat) (x y : List Byte) : (s.log o k cl u op tg x y).slowq = s.slowq := rfl
@[simp] theorem Dev.log_decap (s : Dev) (o k cl u op tg : Nat) (x y : List Byte) : (s.log o k cl u op tg x y).decap = s.decap := rfl
@[simp] theorem Dev.log_out (s : Dev) (o k cl u op tg : Nat) (x y : List Byte) : (s.log o k cl u op tg x y).out = s.out := rfl
@[simp] theorem Dev.log_roots (s : Dev) (o k cl u op tg : Nat) (x y : List Byte) : (s.log o k cl u op tg x y).roots = s.roots := rfl
@[simp] theorem Dev.log_tap (s : Dev) (o k cl u op tg : Nat) (x y : List Byte) : (s.log o k cl u op tg x y).tap = s.tap := rfl
@[simp] theorem Dev.log_canopy (s : Dev) (o k cl u op tg : Nat) (x y : List Byte) : (s.log o k cl u op tg x y).canopy = s.canopy := rfl
@[simp] theorem Dev.log_ras (s : Dev) (o k cl u op tg : Nat) (x y : List Byte) : (s.log o k cl u op tg x y).ras = s.ras := rfl
@[simp] theorem Dev.log_sap (s : Dev) (o k cl u op tg : Nat) (x y : List Byte) : (s.log o k cl u op tg x y).sap = s.sap := rfl
@[simp] theorem Dev.log_upd (s : Dev) (o k cl u op tg : Nat) (x y : List Byte) : (s.log o k cl u op tg x y).upd = s.upd := rfl
@[simp] theorem Dev.log_reads (s : Dev) (o k cl u op tg : Nat) (x y : List Byte) : (s.log o k cl u op tg x y).reads = s.reads := rfl
@[simp] theorem Dev.log_draws (s : Dev) (o k cl u op tg : Nat) (x y : List Byte) : (s.log o k cl u op tg x y).draws = s.draws := rfl
@[simp] theorem Dev.log_reg (s : Dev) (o k cl u op tg : Nat) (x y : List Byte) (at_ : Nat) : (s.log o k cl u op tg x y).reg at_ = s.reg at_ := rfl
@[simp] theorem Dev.log_rb (s : Dev) (o k cl u op tg : Nat) (x y : List Byte) (at_ j : Nat) : (s.log o k cl u op tg x y).rb at_ j = s.rb at_ j := rfl
@[simp] theorem Dev.log_rf (s : Dev) (o k cl u op tg : Nat) (x y : List Byte) (at_ p q : Nat) : (s.log o k cl u op tg x y).rf at_ p q = s.rf at_ p q := rfl
@[simp] theorem Dev.log_word (s : Dev) (o k cl u op tg : Nat) (x y : List Byte) (at_ : Nat) : (s.log o k cl u op tg x y).word at_ = s.word at_ := rfl

@[simp] theorem Dev.logHw_variant (s : Dev) (k cl u x y : Nat) : (s.logHw k cl u x y).variant = s.variant := rfl
@[simp] theorem Dev.logHw_regs (s : Dev) (k cl u x y : Nat) : (s.logHw k cl u x y).regs = s.regs := rfl
@[simp] theorem Dev.logHw_words (s : Dev) (k cl u x y : Nat) : (s.logHw k cl u x y).words = s.words := rfl
@[simp] theorem Dev.logHw_lower (s : Dev) (k cl u x y : Nat) : (s.logHw k cl u x y).lower = s.lower := rfl
@[simp] theorem Dev.logHw_clocks (s : Dev) (k cl u x y : Nat) : (s.logHw k cl u x y).clocks = s.clocks := rfl
@[simp] theorem Dev.logHw_cam (s : Dev) (k cl u x y : Nat) : (s.logHw k cl u x y).cam = s.cam := rfl
@[simp] theorem Dev.logHw_burl (s : Dev) (k cl u x y : Nat) : (s.logHw k cl u x y).burl = s.burl := rfl
@[simp] theorem Dev.logHw_ports (s : Dev) (k cl u x y : Nat) : (s.logHw k cl u x y).ports = s.ports := rfl
@[simp] theorem Dev.logHw_polls (s : Dev) (k cl u x y : Nat) : (s.logHw k cl u x y).polls = s.polls := rfl
@[simp] theorem Dev.logHw_rx (s : Dev) (k cl u x y : Nat) : (s.logHw k cl u x y).rx = s.rx := rfl
@[simp] theorem Dev.logHw_passed (s : Dev) (k cl u x y : Nat) : (s.logHw k cl u x y).passed = s.passed := rfl
@[simp] theorem Dev.logHw_groves (s : Dev) (k cl u x y : Nat) : (s.logHw k cl u x y).groves = s.groves := rfl
@[simp] theorem Dev.logHw_trunk (s : Dev) (k cl u x y : Nat) : (s.logHw k cl u x y).trunk = s.trunk := rfl
@[simp] theorem Dev.logHw_crown (s : Dev) (k cl u x y : Nat) : (s.logHw k cl u x y).crown = s.crown := rfl
@[simp] theorem Dev.logHw_bark (s : Dev) (k cl u x y : Nat) : (s.logHw k cl u x y).bark = s.bark := rfl
@[simp] theorem Dev.logHw_slowq (s : Dev) (k cl u x y : Nat) : (s.logHw k cl u x y).slowq = s.slowq := rfl
@[simp] theorem Dev.logHw_decap (s : Dev) (k cl u x y : Nat) : (s.logHw k cl u x y).decap = s.decap := rfl
@[simp] theorem Dev.logHw_out (s : Dev) (k cl u x y : Nat) : (s.logHw k cl u x y).out = s.out := rfl
@[simp] theorem Dev.logHw_roots (s : Dev) (k cl u x y : Nat) : (s.logHw k cl u x y).roots = s.roots := rfl
@[simp] theorem Dev.logHw_tap (s : Dev) (k cl u x y : Nat) : (s.logHw k cl u x y).tap = s.tap := rfl
@[simp] theorem Dev.logHw_canopy (s : Dev) (k cl u x y : Nat) : (s.logHw k cl u x y).canopy = s.canopy := rfl
@[simp] theorem Dev.logHw_ras (s : Dev) (k cl u x y : Nat) : (s.logHw k cl u x y).ras = s.ras := rfl
@[simp] theorem Dev.logHw_sap (s : Dev) (k cl u x y : Nat) : (s.logHw k cl u x y).sap = s.sap := rfl
@[simp] theorem Dev.logHw_upd (s : Dev) (k cl u x y : Nat) : (s.logHw k cl u x y).upd = s.upd := rfl
@[simp] theorem Dev.logHw_reads (s : Dev) (k cl u x y : Nat) : (s.logHw k cl u x y).reads = s.reads := rfl
@[simp] theorem Dev.logHw_draws (s : Dev) (k cl u x y : Nat) : (s.logHw k cl u x y).draws = s.draws := rfl
@[simp] theorem Dev.logHw_reg (s : Dev) (k cl u x y : Nat) (at_ : Nat) : (s.logHw k cl u x y).reg at_ = s.reg at_ := rfl
@[simp] theorem Dev.logHw_rb (s : Dev) (k cl u x y : Nat) (at_ j : Nat) : (s.logHw k cl u x y).rb at_ j = s.rb at_ j := rfl
@[simp] theorem Dev.logHw_rf (s : Dev) (k cl u x y : Nat) (at_ p q : Nat) : (s.logHw k cl u x y).rf at_ p q = s.rf at_ p q := rfl
@[simp] theorem Dev.logHw_word (s : Dev) (k cl u x y : Nat) (at_ : Nat) : (s.logHw k cl u x y).word at_ = s.word at_ := rfl

@[simp] theorem Dev.demand_variant (s : Dev) (c u : Nat) : (s.demand c u).variant = s.variant := rfl
@[simp] theorem Dev.demand_regs (s : Dev) (c u : Nat) : (s.demand c u).regs = s.regs := rfl
@[simp] theorem Dev.demand_words (s : Dev) (c u : Nat) : (s.demand c u).words = s.words := rfl
@[simp] theorem Dev.demand_lower (s : Dev) (c u : Nat) : (s.demand c u).lower = s.lower := rfl
@[simp] theorem Dev.demand_basjo (s : Dev) (c u : Nat) : (s.demand c u).basjo = s.basjo := rfl
@[simp] theorem Dev.demand_cam (s : Dev) (c u : Nat) : (s.demand c u).cam = s.cam := rfl
@[simp] theorem Dev.demand_audit (s : Dev) (c u : Nat) : (s.demand c u).audit = s.audit := rfl
@[simp] theorem Dev.demand_burl (s : Dev) (c u : Nat) : (s.demand c u).burl = s.burl := rfl
@[simp] theorem Dev.demand_ports (s : Dev) (c u : Nat) : (s.demand c u).ports = s.ports := rfl
@[simp] theorem Dev.demand_polls (s : Dev) (c u : Nat) : (s.demand c u).polls = s.polls := rfl
@[simp] theorem Dev.demand_rx (s : Dev) (c u : Nat) : (s.demand c u).rx = s.rx := rfl
@[simp] theorem Dev.demand_passed (s : Dev) (c u : Nat) : (s.demand c u).passed = s.passed := rfl
@[simp] theorem Dev.demand_groves (s : Dev) (c u : Nat) : (s.demand c u).groves = s.groves := rfl
@[simp] theorem Dev.demand_trunk (s : Dev) (c u : Nat) : (s.demand c u).trunk = s.trunk := rfl
@[simp] theorem Dev.demand_crown (s : Dev) (c u : Nat) : (s.demand c u).crown = s.crown := rfl
@[simp] theorem Dev.demand_bark (s : Dev) (c u : Nat) : (s.demand c u).bark = s.bark := rfl
@[simp] theorem Dev.demand_slowq (s : Dev) (c u : Nat) : (s.demand c u).slowq = s.slowq := rfl
@[simp] theorem Dev.demand_decap (s : Dev) (c u : Nat) : (s.demand c u).decap = s.decap := rfl
@[simp] theorem Dev.demand_out (s : Dev) (c u : Nat) : (s.demand c u).out = s.out := rfl
@[simp] theorem Dev.demand_roots (s : Dev) (c u : Nat) : (s.demand c u).roots = s.roots := rfl
@[simp] theorem Dev.demand_tap (s : Dev) (c u : Nat) : (s.demand c u).tap = s.tap := rfl
@[simp] theorem Dev.demand_canopy (s : Dev) (c u : Nat) : (s.demand c u).canopy = s.canopy := rfl
@[simp] theorem Dev.demand_ras (s : Dev) (c u : Nat) : (s.demand c u).ras = s.ras := rfl
@[simp] theorem Dev.demand_sap (s : Dev) (c u : Nat) : (s.demand c u).sap = s.sap := rfl
@[simp] theorem Dev.demand_upd (s : Dev) (c u : Nat) : (s.demand c u).upd = s.upd := rfl
@[simp] theorem Dev.demand_reads (s : Dev) (c u : Nat) : (s.demand c u).reads = s.reads := rfl
@[simp] theorem Dev.demand_draws (s : Dev) (c u : Nat) : (s.demand c u).draws = s.draws := rfl
@[simp] theorem Dev.demand_reg (s : Dev) (c u : Nat) (at_ : Nat) : (s.demand c u).reg at_ = s.reg at_ := rfl
@[simp] theorem Dev.demand_rb (s : Dev) (c u : Nat) (at_ j : Nat) : (s.demand c u).rb at_ j = s.rb at_ j := rfl
@[simp] theorem Dev.demand_rf (s : Dev) (c u : Nat) (at_ p q : Nat) : (s.demand c u).rf at_ p q = s.rf at_ p q := rfl
@[simp] theorem Dev.demand_word (s : Dev) (c u : Nat) (at_ : Nat) : (s.demand c u).word at_ = s.word at_ := rfl

@[simp] theorem Dev.demandCluster_variant (s : Dev) (c : Nat) : (s.demandCluster c).variant = s.variant := rfl
@[simp] theorem Dev.demandCluster_regs (s : Dev) (c : Nat) : (s.demandCluster c).regs = s.regs := rfl
@[simp] theorem Dev.demandCluster_words (s : Dev) (c : Nat) : (s.demandCluster c).words = s.words := rfl
@[simp] theorem Dev.demandCluster_lower (s : Dev) (c : Nat) : (s.demandCluster c).lower = s.lower := rfl
@[simp] theorem Dev.demandCluster_basjo (s : Dev) (c : Nat) : (s.demandCluster c).basjo = s.basjo := rfl
@[simp] theorem Dev.demandCluster_cam (s : Dev) (c : Nat) : (s.demandCluster c).cam = s.cam := rfl
@[simp] theorem Dev.demandCluster_audit (s : Dev) (c : Nat) : (s.demandCluster c).audit = s.audit := rfl
@[simp] theorem Dev.demandCluster_burl (s : Dev) (c : Nat) : (s.demandCluster c).burl = s.burl := rfl
@[simp] theorem Dev.demandCluster_ports (s : Dev) (c : Nat) : (s.demandCluster c).ports = s.ports := rfl
@[simp] theorem Dev.demandCluster_polls (s : Dev) (c : Nat) : (s.demandCluster c).polls = s.polls := rfl
@[simp] theorem Dev.demandCluster_rx (s : Dev) (c : Nat) : (s.demandCluster c).rx = s.rx := rfl
@[simp] theorem Dev.demandCluster_passed (s : Dev) (c : Nat) : (s.demandCluster c).passed = s.passed := rfl
@[simp] theorem Dev.demandCluster_groves (s : Dev) (c : Nat) : (s.demandCluster c).groves = s.groves := rfl
@[simp] theorem Dev.demandCluster_trunk (s : Dev) (c : Nat) : (s.demandCluster c).trunk = s.trunk := rfl
@[simp] theorem Dev.demandCluster_crown (s : Dev) (c : Nat) : (s.demandCluster c).crown = s.crown := rfl
@[simp] theorem Dev.demandCluster_bark (s : Dev) (c : Nat) : (s.demandCluster c).bark = s.bark := rfl
@[simp] theorem Dev.demandCluster_slowq (s : Dev) (c : Nat) : (s.demandCluster c).slowq = s.slowq := rfl
@[simp] theorem Dev.demandCluster_decap (s : Dev) (c : Nat) : (s.demandCluster c).decap = s.decap := rfl
@[simp] theorem Dev.demandCluster_out (s : Dev) (c : Nat) : (s.demandCluster c).out = s.out := rfl
@[simp] theorem Dev.demandCluster_roots (s : Dev) (c : Nat) : (s.demandCluster c).roots = s.roots := rfl
@[simp] theorem Dev.demandCluster_tap (s : Dev) (c : Nat) : (s.demandCluster c).tap = s.tap := rfl
@[simp] theorem Dev.demandCluster_canopy (s : Dev) (c : Nat) : (s.demandCluster c).canopy = s.canopy := rfl
@[simp] theorem Dev.demandCluster_ras (s : Dev) (c : Nat) : (s.demandCluster c).ras = s.ras := rfl
@[simp] theorem Dev.demandCluster_sap (s : Dev) (c : Nat) : (s.demandCluster c).sap = s.sap := rfl
@[simp] theorem Dev.demandCluster_upd (s : Dev) (c : Nat) : (s.demandCluster c).upd = s.upd := rfl
@[simp] theorem Dev.demandCluster_reads (s : Dev) (c : Nat) : (s.demandCluster c).reads = s.reads := rfl
@[simp] theorem Dev.demandCluster_draws (s : Dev) (c : Nat) : (s.demandCluster c).draws = s.draws := rfl
@[simp] theorem Dev.demandCluster_reg (s : Dev) (c : Nat) (at_ : Nat) : (s.demandCluster c).reg at_ = s.reg at_ := rfl
@[simp] theorem Dev.demandCluster_rb (s : Dev) (c : Nat) (at_ j : Nat) : (s.demandCluster c).rb at_ j = s.rb at_ j := rfl
@[simp] theorem Dev.demandCluster_rf (s : Dev) (c : Nat) (at_ p q : Nat) : (s.demandCluster c).rf at_ p q = s.rf at_ p q := rfl
@[simp] theorem Dev.demandCluster_word (s : Dev) (c : Nat) (at_ : Nat) : (s.demandCluster c).word at_ = s.word at_ := rfl

@[simp] theorem Dev.dropHolds_variant (s : Dev) (o : Nat) : (s.dropHolds o).variant = s.variant := rfl
@[simp] theorem Dev.dropHolds_regs (s : Dev) (o : Nat) : (s.dropHolds o).regs = s.regs := rfl
@[simp] theorem Dev.dropHolds_words (s : Dev) (o : Nat) : (s.dropHolds o).words = s.words := rfl
@[simp] theorem Dev.dropHolds_lower (s : Dev) (o : Nat) : (s.dropHolds o).lower = s.lower := rfl
@[simp] theorem Dev.dropHolds_basjo (s : Dev) (o : Nat) : (s.dropHolds o).basjo = s.basjo := rfl
@[simp] theorem Dev.dropHolds_cam (s : Dev) (o : Nat) : (s.dropHolds o).cam = s.cam := rfl
@[simp] theorem Dev.dropHolds_audit (s : Dev) (o : Nat) : (s.dropHolds o).audit = s.audit := rfl
@[simp] theorem Dev.dropHolds_burl (s : Dev) (o : Nat) : (s.dropHolds o).burl = s.burl := rfl
@[simp] theorem Dev.dropHolds_ports (s : Dev) (o : Nat) : (s.dropHolds o).ports = s.ports := rfl
@[simp] theorem Dev.dropHolds_polls (s : Dev) (o : Nat) : (s.dropHolds o).polls = s.polls := rfl
@[simp] theorem Dev.dropHolds_rx (s : Dev) (o : Nat) : (s.dropHolds o).rx = s.rx := rfl
@[simp] theorem Dev.dropHolds_passed (s : Dev) (o : Nat) : (s.dropHolds o).passed = s.passed := rfl
@[simp] theorem Dev.dropHolds_groves (s : Dev) (o : Nat) : (s.dropHolds o).groves = s.groves := rfl
@[simp] theorem Dev.dropHolds_trunk (s : Dev) (o : Nat) : (s.dropHolds o).trunk = s.trunk := rfl
@[simp] theorem Dev.dropHolds_crown (s : Dev) (o : Nat) : (s.dropHolds o).crown = s.crown := rfl
@[simp] theorem Dev.dropHolds_bark (s : Dev) (o : Nat) : (s.dropHolds o).bark = s.bark := rfl
@[simp] theorem Dev.dropHolds_slowq (s : Dev) (o : Nat) : (s.dropHolds o).slowq = s.slowq := rfl
@[simp] theorem Dev.dropHolds_decap (s : Dev) (o : Nat) : (s.dropHolds o).decap = s.decap := rfl
@[simp] theorem Dev.dropHolds_out (s : Dev) (o : Nat) : (s.dropHolds o).out = s.out := rfl
@[simp] theorem Dev.dropHolds_roots (s : Dev) (o : Nat) : (s.dropHolds o).roots = s.roots := rfl
@[simp] theorem Dev.dropHolds_tap (s : Dev) (o : Nat) : (s.dropHolds o).tap = s.tap := rfl
@[simp] theorem Dev.dropHolds_canopy (s : Dev) (o : Nat) : (s.dropHolds o).canopy = s.canopy := rfl
@[simp] theorem Dev.dropHolds_ras (s : Dev) (o : Nat) : (s.dropHolds o).ras = s.ras := rfl
@[simp] theorem Dev.dropHolds_sap (s : Dev) (o : Nat) : (s.dropHolds o).sap = s.sap := rfl
@[simp] theorem Dev.dropHolds_upd (s : Dev) (o : Nat) : (s.dropHolds o).upd = s.upd := rfl
@[simp] theorem Dev.dropHolds_reads (s : Dev) (o : Nat) : (s.dropHolds o).reads = s.reads := rfl
@[simp] theorem Dev.dropHolds_draws (s : Dev) (o : Nat) : (s.dropHolds o).draws = s.draws := rfl
@[simp] theorem Dev.dropHolds_reg (s : Dev) (o : Nat) (at_ : Nat) : (s.dropHolds o).reg at_ = s.reg at_ := rfl
@[simp] theorem Dev.dropHolds_rb (s : Dev) (o : Nat) (at_ j : Nat) : (s.dropHolds o).rb at_ j = s.rb at_ j := rfl
@[simp] theorem Dev.dropHolds_rf (s : Dev) (o : Nat) (at_ p q : Nat) : (s.dropHolds o).rf at_ p q = s.rf at_ p q := rfl
@[simp] theorem Dev.dropHolds_word (s : Dev) (o : Nat) (at_ : Nat) : (s.dropHolds o).word at_ = s.word at_ := rfl

@[simp] theorem Dev.onCam_variant (s : Dev) (f : Cambium → Cambium) : (s.onCam f).variant = s.variant := rfl
@[simp] theorem Dev.onCam_regs (s : Dev) (f : Cambium → Cambium) : (s.onCam f).regs = s.regs := rfl
@[simp] theorem Dev.onCam_words (s : Dev) (f : Cambium → Cambium) : (s.onCam f).words = s.words := rfl
@[simp] theorem Dev.onCam_lower (s : Dev) (f : Cambium → Cambium) : (s.onCam f).lower = s.lower := rfl
@[simp] theorem Dev.onCam_clocks (s : Dev) (f : Cambium → Cambium) : (s.onCam f).clocks = s.clocks := rfl
@[simp] theorem Dev.onCam_basjo (s : Dev) (f : Cambium → Cambium) : (s.onCam f).basjo = s.basjo := rfl
@[simp] theorem Dev.onCam_audit (s : Dev) (f : Cambium → Cambium) : (s.onCam f).audit = s.audit := rfl
@[simp] theorem Dev.onCam_burl (s : Dev) (f : Cambium → Cambium) : (s.onCam f).burl = s.burl := rfl
@[simp] theorem Dev.onCam_ports (s : Dev) (f : Cambium → Cambium) : (s.onCam f).ports = s.ports := rfl
@[simp] theorem Dev.onCam_polls (s : Dev) (f : Cambium → Cambium) : (s.onCam f).polls = s.polls := rfl
@[simp] theorem Dev.onCam_rx (s : Dev) (f : Cambium → Cambium) : (s.onCam f).rx = s.rx := rfl
@[simp] theorem Dev.onCam_passed (s : Dev) (f : Cambium → Cambium) : (s.onCam f).passed = s.passed := rfl
@[simp] theorem Dev.onCam_groves (s : Dev) (f : Cambium → Cambium) : (s.onCam f).groves = s.groves := rfl
@[simp] theorem Dev.onCam_trunk (s : Dev) (f : Cambium → Cambium) : (s.onCam f).trunk = s.trunk := rfl
@[simp] theorem Dev.onCam_crown (s : Dev) (f : Cambium → Cambium) : (s.onCam f).crown = s.crown := rfl
@[simp] theorem Dev.onCam_bark (s : Dev) (f : Cambium → Cambium) : (s.onCam f).bark = s.bark := rfl
@[simp] theorem Dev.onCam_slowq (s : Dev) (f : Cambium → Cambium) : (s.onCam f).slowq = s.slowq := rfl
@[simp] theorem Dev.onCam_decap (s : Dev) (f : Cambium → Cambium) : (s.onCam f).decap = s.decap := rfl
@[simp] theorem Dev.onCam_out (s : Dev) (f : Cambium → Cambium) : (s.onCam f).out = s.out := rfl
@[simp] theorem Dev.onCam_roots (s : Dev) (f : Cambium → Cambium) : (s.onCam f).roots = s.roots := rfl
@[simp] theorem Dev.onCam_tap (s : Dev) (f : Cambium → Cambium) : (s.onCam f).tap = s.tap := rfl
@[simp] theorem Dev.onCam_canopy (s : Dev) (f : Cambium → Cambium) : (s.onCam f).canopy = s.canopy := rfl
@[simp] theorem Dev.onCam_ras (s : Dev) (f : Cambium → Cambium) : (s.onCam f).ras = s.ras := rfl
@[simp] theorem Dev.onCam_sap (s : Dev) (f : Cambium → Cambium) : (s.onCam f).sap = s.sap := rfl
@[simp] theorem Dev.onCam_upd (s : Dev) (f : Cambium → Cambium) : (s.onCam f).upd = s.upd := rfl
@[simp] theorem Dev.onCam_reads (s : Dev) (f : Cambium → Cambium) : (s.onCam f).reads = s.reads := rfl
@[simp] theorem Dev.onCam_draws (s : Dev) (f : Cambium → Cambium) : (s.onCam f).draws = s.draws := rfl
@[simp] theorem Dev.onCam_reg (s : Dev) (f : Cambium → Cambium) (at_ : Nat) : (s.onCam f).reg at_ = s.reg at_ := rfl
@[simp] theorem Dev.onCam_rb (s : Dev) (f : Cambium → Cambium) (at_ j : Nat) : (s.onCam f).rb at_ j = s.rb at_ j := rfl
@[simp] theorem Dev.onCam_rf (s : Dev) (f : Cambium → Cambium) (at_ p q : Nat) : (s.onCam f).rf at_ p q = s.rf at_ p q := rfl
@[simp] theorem Dev.onCam_word (s : Dev) (f : Cambium → Cambium) (at_ : Nat) : (s.onCam f).word at_ = s.word at_ := rfl

@[simp] theorem Dev.onTapState_variant (s : Dev) (f : Tap → Tap) : (s.onTapState f).variant = s.variant := rfl
@[simp] theorem Dev.onTapState_regs (s : Dev) (f : Tap → Tap) : (s.onTapState f).regs = s.regs := rfl
@[simp] theorem Dev.onTapState_words (s : Dev) (f : Tap → Tap) : (s.onTapState f).words = s.words := rfl
@[simp] theorem Dev.onTapState_lower (s : Dev) (f : Tap → Tap) : (s.onTapState f).lower = s.lower := rfl
@[simp] theorem Dev.onTapState_clocks (s : Dev) (f : Tap → Tap) : (s.onTapState f).clocks = s.clocks := rfl
@[simp] theorem Dev.onTapState_basjo (s : Dev) (f : Tap → Tap) : (s.onTapState f).basjo = s.basjo := rfl
@[simp] theorem Dev.onTapState_cam (s : Dev) (f : Tap → Tap) : (s.onTapState f).cam = s.cam := rfl
@[simp] theorem Dev.onTapState_audit (s : Dev) (f : Tap → Tap) : (s.onTapState f).audit = s.audit := rfl
@[simp] theorem Dev.onTapState_burl (s : Dev) (f : Tap → Tap) : (s.onTapState f).burl = s.burl := rfl
@[simp] theorem Dev.onTapState_ports (s : Dev) (f : Tap → Tap) : (s.onTapState f).ports = s.ports := rfl
@[simp] theorem Dev.onTapState_polls (s : Dev) (f : Tap → Tap) : (s.onTapState f).polls = s.polls := rfl
@[simp] theorem Dev.onTapState_rx (s : Dev) (f : Tap → Tap) : (s.onTapState f).rx = s.rx := rfl
@[simp] theorem Dev.onTapState_passed (s : Dev) (f : Tap → Tap) : (s.onTapState f).passed = s.passed := rfl
@[simp] theorem Dev.onTapState_groves (s : Dev) (f : Tap → Tap) : (s.onTapState f).groves = s.groves := rfl
@[simp] theorem Dev.onTapState_trunk (s : Dev) (f : Tap → Tap) : (s.onTapState f).trunk = s.trunk := rfl
@[simp] theorem Dev.onTapState_crown (s : Dev) (f : Tap → Tap) : (s.onTapState f).crown = s.crown := rfl
@[simp] theorem Dev.onTapState_bark (s : Dev) (f : Tap → Tap) : (s.onTapState f).bark = s.bark := rfl
@[simp] theorem Dev.onTapState_slowq (s : Dev) (f : Tap → Tap) : (s.onTapState f).slowq = s.slowq := rfl
@[simp] theorem Dev.onTapState_decap (s : Dev) (f : Tap → Tap) : (s.onTapState f).decap = s.decap := rfl
@[simp] theorem Dev.onTapState_out (s : Dev) (f : Tap → Tap) : (s.onTapState f).out = s.out := rfl
@[simp] theorem Dev.onTapState_roots (s : Dev) (f : Tap → Tap) : (s.onTapState f).roots = s.roots := rfl
@[simp] theorem Dev.onTapState_canopy (s : Dev) (f : Tap → Tap) : (s.onTapState f).canopy = s.canopy := rfl
@[simp] theorem Dev.onTapState_ras (s : Dev) (f : Tap → Tap) : (s.onTapState f).ras = s.ras := rfl
@[simp] theorem Dev.onTapState_sap (s : Dev) (f : Tap → Tap) : (s.onTapState f).sap = s.sap := rfl
@[simp] theorem Dev.onTapState_upd (s : Dev) (f : Tap → Tap) : (s.onTapState f).upd = s.upd := rfl
@[simp] theorem Dev.onTapState_reads (s : Dev) (f : Tap → Tap) : (s.onTapState f).reads = s.reads := rfl
@[simp] theorem Dev.onTapState_draws (s : Dev) (f : Tap → Tap) : (s.onTapState f).draws = s.draws := rfl
@[simp] theorem Dev.onTapState_reg (s : Dev) (f : Tap → Tap) (at_ : Nat) : (s.onTapState f).reg at_ = s.reg at_ := rfl
@[simp] theorem Dev.onTapState_rb (s : Dev) (f : Tap → Tap) (at_ j : Nat) : (s.onTapState f).rb at_ j = s.rb at_ j := rfl
@[simp] theorem Dev.onTapState_rf (s : Dev) (f : Tap → Tap) (at_ p q : Nat) : (s.onTapState f).rf at_ p q = s.rf at_ p q := rfl
@[simp] theorem Dev.onTapState_word (s : Dev) (f : Tap → Tap) (at_ : Nat) : (s.onTapState f).word at_ = s.word at_ := rfl

@[simp] theorem Dev.onRoots_variant (s : Dev) (f : Roots → Roots) : (s.onRoots f).variant = s.variant := rfl
@[simp] theorem Dev.onRoots_regs (s : Dev) (f : Roots → Roots) : (s.onRoots f).regs = s.regs := rfl
@[simp] theorem Dev.onRoots_words (s : Dev) (f : Roots → Roots) : (s.onRoots f).words = s.words := rfl
@[simp] theorem Dev.onRoots_lower (s : Dev) (f : Roots → Roots) : (s.onRoots f).lower = s.lower := rfl
@[simp] theorem Dev.onRoots_clocks (s : Dev) (f : Roots → Roots) : (s.onRoots f).clocks = s.clocks := rfl
@[simp] theorem Dev.onRoots_basjo (s : Dev) (f : Roots → Roots) : (s.onRoots f).basjo = s.basjo := rfl
@[simp] theorem Dev.onRoots_cam (s : Dev) (f : Roots → Roots) : (s.onRoots f).cam = s.cam := rfl
@[simp] theorem Dev.onRoots_audit (s : Dev) (f : Roots → Roots) : (s.onRoots f).audit = s.audit := rfl
@[simp] theorem Dev.onRoots_burl (s : Dev) (f : Roots → Roots) : (s.onRoots f).burl = s.burl := rfl
@[simp] theorem Dev.onRoots_ports (s : Dev) (f : Roots → Roots) : (s.onRoots f).ports = s.ports := rfl
@[simp] theorem Dev.onRoots_polls (s : Dev) (f : Roots → Roots) : (s.onRoots f).polls = s.polls := rfl
@[simp] theorem Dev.onRoots_rx (s : Dev) (f : Roots → Roots) : (s.onRoots f).rx = s.rx := rfl
@[simp] theorem Dev.onRoots_passed (s : Dev) (f : Roots → Roots) : (s.onRoots f).passed = s.passed := rfl
@[simp] theorem Dev.onRoots_groves (s : Dev) (f : Roots → Roots) : (s.onRoots f).groves = s.groves := rfl
@[simp] theorem Dev.onRoots_trunk (s : Dev) (f : Roots → Roots) : (s.onRoots f).trunk = s.trunk := rfl
@[simp] theorem Dev.onRoots_crown (s : Dev) (f : Roots → Roots) : (s.onRoots f).crown = s.crown := rfl
@[simp] theorem Dev.onRoots_bark (s : Dev) (f : Roots → Roots) : (s.onRoots f).bark = s.bark := rfl
@[simp] theorem Dev.onRoots_slowq (s : Dev) (f : Roots → Roots) : (s.onRoots f).slowq = s.slowq := rfl
@[simp] theorem Dev.onRoots_decap (s : Dev) (f : Roots → Roots) : (s.onRoots f).decap = s.decap := rfl
@[simp] theorem Dev.onRoots_out (s : Dev) (f : Roots → Roots) : (s.onRoots f).out = s.out := rfl
@[simp] theorem Dev.onRoots_tap (s : Dev) (f : Roots → Roots) : (s.onRoots f).tap = s.tap := rfl
@[simp] theorem Dev.onRoots_canopy (s : Dev) (f : Roots → Roots) : (s.onRoots f).canopy = s.canopy := rfl
@[simp] theorem Dev.onRoots_ras (s : Dev) (f : Roots → Roots) : (s.onRoots f).ras = s.ras := rfl
@[simp] theorem Dev.onRoots_sap (s : Dev) (f : Roots → Roots) : (s.onRoots f).sap = s.sap := rfl
@[simp] theorem Dev.onRoots_upd (s : Dev) (f : Roots → Roots) : (s.onRoots f).upd = s.upd := rfl
@[simp] theorem Dev.onRoots_reads (s : Dev) (f : Roots → Roots) : (s.onRoots f).reads = s.reads := rfl
@[simp] theorem Dev.onRoots_draws (s : Dev) (f : Roots → Roots) : (s.onRoots f).draws = s.draws := rfl
@[simp] theorem Dev.onRoots_reg (s : Dev) (f : Roots → Roots) (at_ : Nat) : (s.onRoots f).reg at_ = s.reg at_ := rfl
@[simp] theorem Dev.onRoots_rb (s : Dev) (f : Roots → Roots) (at_ j : Nat) : (s.onRoots f).rb at_ j = s.rb at_ j := rfl
@[simp] theorem Dev.onRoots_rf (s : Dev) (f : Roots → Roots) (at_ p q : Nat) : (s.onRoots f).rf at_ p q = s.rf at_ p q := rfl
@[simp] theorem Dev.onRoots_word (s : Dev) (f : Roots → Roots) (at_ : Nat) : (s.onRoots f).word at_ = s.word at_ := rfl

@[simp] theorem Dev.onSap_variant (s : Dev) (f : Sap → Sap) : (s.onSap f).variant = s.variant := rfl
@[simp] theorem Dev.onSap_regs (s : Dev) (f : Sap → Sap) : (s.onSap f).regs = s.regs := rfl
@[simp] theorem Dev.onSap_words (s : Dev) (f : Sap → Sap) : (s.onSap f).words = s.words := rfl
@[simp] theorem Dev.onSap_lower (s : Dev) (f : Sap → Sap) : (s.onSap f).lower = s.lower := rfl
@[simp] theorem Dev.onSap_clocks (s : Dev) (f : Sap → Sap) : (s.onSap f).clocks = s.clocks := rfl
@[simp] theorem Dev.onSap_basjo (s : Dev) (f : Sap → Sap) : (s.onSap f).basjo = s.basjo := rfl
@[simp] theorem Dev.onSap_cam (s : Dev) (f : Sap → Sap) : (s.onSap f).cam = s.cam := rfl
@[simp] theorem Dev.onSap_audit (s : Dev) (f : Sap → Sap) : (s.onSap f).audit = s.audit := rfl
@[simp] theorem Dev.onSap_burl (s : Dev) (f : Sap → Sap) : (s.onSap f).burl = s.burl := rfl
@[simp] theorem Dev.onSap_ports (s : Dev) (f : Sap → Sap) : (s.onSap f).ports = s.ports := rfl
@[simp] theorem Dev.onSap_polls (s : Dev) (f : Sap → Sap) : (s.onSap f).polls = s.polls := rfl
@[simp] theorem Dev.onSap_rx (s : Dev) (f : Sap → Sap) : (s.onSap f).rx = s.rx := rfl
@[simp] theorem Dev.onSap_passed (s : Dev) (f : Sap → Sap) : (s.onSap f).passed = s.passed := rfl
@[simp] theorem Dev.onSap_groves (s : Dev) (f : Sap → Sap) : (s.onSap f).groves = s.groves := rfl
@[simp] theorem Dev.onSap_trunk (s : Dev) (f : Sap → Sap) : (s.onSap f).trunk = s.trunk := rfl
@[simp] theorem Dev.onSap_crown (s : Dev) (f : Sap → Sap) : (s.onSap f).crown = s.crown := rfl
@[simp] theorem Dev.onSap_bark (s : Dev) (f : Sap → Sap) : (s.onSap f).bark = s.bark := rfl
@[simp] theorem Dev.onSap_slowq (s : Dev) (f : Sap → Sap) : (s.onSap f).slowq = s.slowq := rfl
@[simp] theorem Dev.onSap_decap (s : Dev) (f : Sap → Sap) : (s.onSap f).decap = s.decap := rfl
@[simp] theorem Dev.onSap_out (s : Dev) (f : Sap → Sap) : (s.onSap f).out = s.out := rfl
@[simp] theorem Dev.onSap_roots (s : Dev) (f : Sap → Sap) : (s.onSap f).roots = s.roots := rfl
@[simp] theorem Dev.onSap_tap (s : Dev) (f : Sap → Sap) : (s.onSap f).tap = s.tap := rfl
@[simp] theorem Dev.onSap_canopy (s : Dev) (f : Sap → Sap) : (s.onSap f).canopy = s.canopy := rfl
@[simp] theorem Dev.onSap_ras (s : Dev) (f : Sap → Sap) : (s.onSap f).ras = s.ras := rfl
@[simp] theorem Dev.onSap_upd (s : Dev) (f : Sap → Sap) : (s.onSap f).upd = s.upd := rfl
@[simp] theorem Dev.onSap_reads (s : Dev) (f : Sap → Sap) : (s.onSap f).reads = s.reads := rfl
@[simp] theorem Dev.onSap_draws (s : Dev) (f : Sap → Sap) : (s.onSap f).draws = s.draws := rfl
@[simp] theorem Dev.onSap_reg (s : Dev) (f : Sap → Sap) (at_ : Nat) : (s.onSap f).reg at_ = s.reg at_ := rfl
@[simp] theorem Dev.onSap_rb (s : Dev) (f : Sap → Sap) (at_ j : Nat) : (s.onSap f).rb at_ j = s.rb at_ j := rfl
@[simp] theorem Dev.onSap_rf (s : Dev) (f : Sap → Sap) (at_ p q : Nat) : (s.onSap f).rf at_ p q = s.rf at_ p q := rfl
@[simp] theorem Dev.onSap_word (s : Dev) (f : Sap → Sap) (at_ : Nat) : (s.onSap f).word at_ = s.word at_ := rfl

@[simp] theorem Dev.onUpd_variant (s : Dev) (f : Upd → Upd) : (s.onUpd f).variant = s.variant := rfl
@[simp] theorem Dev.onUpd_regs (s : Dev) (f : Upd → Upd) : (s.onUpd f).regs = s.regs := rfl
@[simp] theorem Dev.onUpd_words (s : Dev) (f : Upd → Upd) : (s.onUpd f).words = s.words := rfl
@[simp] theorem Dev.onUpd_lower (s : Dev) (f : Upd → Upd) : (s.onUpd f).lower = s.lower := rfl
@[simp] theorem Dev.onUpd_clocks (s : Dev) (f : Upd → Upd) : (s.onUpd f).clocks = s.clocks := rfl
@[simp] theorem Dev.onUpd_basjo (s : Dev) (f : Upd → Upd) : (s.onUpd f).basjo = s.basjo := rfl
@[simp] theorem Dev.onUpd_cam (s : Dev) (f : Upd → Upd) : (s.onUpd f).cam = s.cam := rfl
@[simp] theorem Dev.onUpd_audit (s : Dev) (f : Upd → Upd) : (s.onUpd f).audit = s.audit := rfl
@[simp] theorem Dev.onUpd_burl (s : Dev) (f : Upd → Upd) : (s.onUpd f).burl = s.burl := rfl
@[simp] theorem Dev.onUpd_ports (s : Dev) (f : Upd → Upd) : (s.onUpd f).ports = s.ports := rfl
@[simp] theorem Dev.onUpd_polls (s : Dev) (f : Upd → Upd) : (s.onUpd f).polls = s.polls := rfl
@[simp] theorem Dev.onUpd_rx (s : Dev) (f : Upd → Upd) : (s.onUpd f).rx = s.rx := rfl
@[simp] theorem Dev.onUpd_passed (s : Dev) (f : Upd → Upd) : (s.onUpd f).passed = s.passed := rfl
@[simp] theorem Dev.onUpd_groves (s : Dev) (f : Upd → Upd) : (s.onUpd f).groves = s.groves := rfl
@[simp] theorem Dev.onUpd_trunk (s : Dev) (f : Upd → Upd) : (s.onUpd f).trunk = s.trunk := rfl
@[simp] theorem Dev.onUpd_crown (s : Dev) (f : Upd → Upd) : (s.onUpd f).crown = s.crown := rfl
@[simp] theorem Dev.onUpd_bark (s : Dev) (f : Upd → Upd) : (s.onUpd f).bark = s.bark := rfl
@[simp] theorem Dev.onUpd_slowq (s : Dev) (f : Upd → Upd) : (s.onUpd f).slowq = s.slowq := rfl
@[simp] theorem Dev.onUpd_decap (s : Dev) (f : Upd → Upd) : (s.onUpd f).decap = s.decap := rfl
@[simp] theorem Dev.onUpd_out (s : Dev) (f : Upd → Upd) : (s.onUpd f).out = s.out := rfl
@[simp] theorem Dev.onUpd_roots (s : Dev) (f : Upd → Upd) : (s.onUpd f).roots = s.roots := rfl
@[simp] theorem Dev.onUpd_tap (s : Dev) (f : Upd → Upd) : (s.onUpd f).tap = s.tap := rfl
@[simp] theorem Dev.onUpd_canopy (s : Dev) (f : Upd → Upd) : (s.onUpd f).canopy = s.canopy := rfl
@[simp] theorem Dev.onUpd_ras (s : Dev) (f : Upd → Upd) : (s.onUpd f).ras = s.ras := rfl
@[simp] theorem Dev.onUpd_sap (s : Dev) (f : Upd → Upd) : (s.onUpd f).sap = s.sap := rfl
@[simp] theorem Dev.onUpd_reads (s : Dev) (f : Upd → Upd) : (s.onUpd f).reads = s.reads := rfl
@[simp] theorem Dev.onUpd_draws (s : Dev) (f : Upd → Upd) : (s.onUpd f).draws = s.draws := rfl
@[simp] theorem Dev.onUpd_reg (s : Dev) (f : Upd → Upd) (at_ : Nat) : (s.onUpd f).reg at_ = s.reg at_ := rfl
@[simp] theorem Dev.onUpd_rb (s : Dev) (f : Upd → Upd) (at_ j : Nat) : (s.onUpd f).rb at_ j = s.rb at_ j := rfl
@[simp] theorem Dev.onUpd_rf (s : Dev) (f : Upd → Upd) (at_ p q : Nat) : (s.onUpd f).rf at_ p q = s.rf at_ p q := rfl
@[simp] theorem Dev.onUpd_word (s : Dev) (f : Upd → Upd) (at_ : Nat) : (s.onUpd f).word at_ = s.word at_ := rfl

@[simp] theorem Dev.pin_variant (s : Dev) (n : String) (l : Nat) : (s.pin n l).variant = s.variant := rfl
@[simp] theorem Dev.pin_regs (s : Dev) (n : String) (l : Nat) : (s.pin n l).regs = s.regs := rfl
@[simp] theorem Dev.pin_words (s : Dev) (n : String) (l : Nat) : (s.pin n l).words = s.words := rfl
@[simp] theorem Dev.pin_lower (s : Dev) (n : String) (l : Nat) : (s.pin n l).lower = s.lower := rfl
@[simp] theorem Dev.pin_clocks (s : Dev) (n : String) (l : Nat) : (s.pin n l).clocks = s.clocks := rfl
@[simp] theorem Dev.pin_basjo (s : Dev) (n : String) (l : Nat) : (s.pin n l).basjo = s.basjo := rfl
@[simp] theorem Dev.pin_cam (s : Dev) (n : String) (l : Nat) : (s.pin n l).cam = s.cam := rfl
@[simp] theorem Dev.pin_audit (s : Dev) (n : String) (l : Nat) : (s.pin n l).audit = s.audit := rfl
@[simp] theorem Dev.pin_burl (s : Dev) (n : String) (l : Nat) : (s.pin n l).burl = s.burl := rfl
@[simp] theorem Dev.pin_ports (s : Dev) (n : String) (l : Nat) : (s.pin n l).ports = s.ports := rfl
@[simp] theorem Dev.pin_polls (s : Dev) (n : String) (l : Nat) : (s.pin n l).polls = s.polls := rfl
@[simp] theorem Dev.pin_rx (s : Dev) (n : String) (l : Nat) : (s.pin n l).rx = s.rx := rfl
@[simp] theorem Dev.pin_passed (s : Dev) (n : String) (l : Nat) : (s.pin n l).passed = s.passed := rfl
@[simp] theorem Dev.pin_groves (s : Dev) (n : String) (l : Nat) : (s.pin n l).groves = s.groves := rfl
@[simp] theorem Dev.pin_trunk (s : Dev) (n : String) (l : Nat) : (s.pin n l).trunk = s.trunk := rfl
@[simp] theorem Dev.pin_crown (s : Dev) (n : String) (l : Nat) : (s.pin n l).crown = s.crown := rfl
@[simp] theorem Dev.pin_bark (s : Dev) (n : String) (l : Nat) : (s.pin n l).bark = s.bark := rfl
@[simp] theorem Dev.pin_slowq (s : Dev) (n : String) (l : Nat) : (s.pin n l).slowq = s.slowq := rfl
@[simp] theorem Dev.pin_decap (s : Dev) (n : String) (l : Nat) : (s.pin n l).decap = s.decap := rfl
@[simp] theorem Dev.pin_roots (s : Dev) (n : String) (l : Nat) : (s.pin n l).roots = s.roots := rfl
@[simp] theorem Dev.pin_tap (s : Dev) (n : String) (l : Nat) : (s.pin n l).tap = s.tap := rfl
@[simp] theorem Dev.pin_canopy (s : Dev) (n : String) (l : Nat) : (s.pin n l).canopy = s.canopy := rfl
@[simp] theorem Dev.pin_ras (s : Dev) (n : String) (l : Nat) : (s.pin n l).ras = s.ras := rfl
@[simp] theorem Dev.pin_sap (s : Dev) (n : String) (l : Nat) : (s.pin n l).sap = s.sap := rfl
@[simp] theorem Dev.pin_upd (s : Dev) (n : String) (l : Nat) : (s.pin n l).upd = s.upd := rfl
@[simp] theorem Dev.pin_reads (s : Dev) (n : String) (l : Nat) : (s.pin n l).reads = s.reads := rfl
@[simp] theorem Dev.pin_draws (s : Dev) (n : String) (l : Nat) : (s.pin n l).draws = s.draws := rfl
@[simp] theorem Dev.pin_reg (s : Dev) (n : String) (l : Nat) (at_ : Nat) : (s.pin n l).reg at_ = s.reg at_ := rfl
@[simp] theorem Dev.pin_rb (s : Dev) (n : String) (l : Nat) (at_ j : Nat) : (s.pin n l).rb at_ j = s.rb at_ j := rfl
@[simp] theorem Dev.pin_rf (s : Dev) (n : String) (l : Nat) (at_ p q : Nat) : (s.pin n l).rf at_ p q = s.rf at_ p q := rfl
@[simp] theorem Dev.pin_word (s : Dev) (n : String) (l : Nat) (at_ : Nat) : (s.pin n l).word at_ = s.word at_ := rfl

@[simp] theorem Dev.setPort_variant (s : Dev) (k : Nat) (x : PortRun) : (s.setPort k x).variant = s.variant := rfl
@[simp] theorem Dev.setPort_regs (s : Dev) (k : Nat) (x : PortRun) : (s.setPort k x).regs = s.regs := rfl
@[simp] theorem Dev.setPort_words (s : Dev) (k : Nat) (x : PortRun) : (s.setPort k x).words = s.words := rfl
@[simp] theorem Dev.setPort_lower (s : Dev) (k : Nat) (x : PortRun) : (s.setPort k x).lower = s.lower := rfl
@[simp] theorem Dev.setPort_clocks (s : Dev) (k : Nat) (x : PortRun) : (s.setPort k x).clocks = s.clocks := rfl
@[simp] theorem Dev.setPort_basjo (s : Dev) (k : Nat) (x : PortRun) : (s.setPort k x).basjo = s.basjo := rfl
@[simp] theorem Dev.setPort_cam (s : Dev) (k : Nat) (x : PortRun) : (s.setPort k x).cam = s.cam := rfl
@[simp] theorem Dev.setPort_audit (s : Dev) (k : Nat) (x : PortRun) : (s.setPort k x).audit = s.audit := rfl
@[simp] theorem Dev.setPort_burl (s : Dev) (k : Nat) (x : PortRun) : (s.setPort k x).burl = s.burl := rfl
@[simp] theorem Dev.setPort_polls (s : Dev) (k : Nat) (x : PortRun) : (s.setPort k x).polls = s.polls := rfl
@[simp] theorem Dev.setPort_rx (s : Dev) (k : Nat) (x : PortRun) : (s.setPort k x).rx = s.rx := rfl
@[simp] theorem Dev.setPort_passed (s : Dev) (k : Nat) (x : PortRun) : (s.setPort k x).passed = s.passed := rfl
@[simp] theorem Dev.setPort_groves (s : Dev) (k : Nat) (x : PortRun) : (s.setPort k x).groves = s.groves := rfl
@[simp] theorem Dev.setPort_trunk (s : Dev) (k : Nat) (x : PortRun) : (s.setPort k x).trunk = s.trunk := rfl
@[simp] theorem Dev.setPort_crown (s : Dev) (k : Nat) (x : PortRun) : (s.setPort k x).crown = s.crown := rfl
@[simp] theorem Dev.setPort_bark (s : Dev) (k : Nat) (x : PortRun) : (s.setPort k x).bark = s.bark := rfl
@[simp] theorem Dev.setPort_slowq (s : Dev) (k : Nat) (x : PortRun) : (s.setPort k x).slowq = s.slowq := rfl
@[simp] theorem Dev.setPort_decap (s : Dev) (k : Nat) (x : PortRun) : (s.setPort k x).decap = s.decap := rfl
@[simp] theorem Dev.setPort_out (s : Dev) (k : Nat) (x : PortRun) : (s.setPort k x).out = s.out := rfl
@[simp] theorem Dev.setPort_roots (s : Dev) (k : Nat) (x : PortRun) : (s.setPort k x).roots = s.roots := rfl
@[simp] theorem Dev.setPort_tap (s : Dev) (k : Nat) (x : PortRun) : (s.setPort k x).tap = s.tap := rfl
@[simp] theorem Dev.setPort_canopy (s : Dev) (k : Nat) (x : PortRun) : (s.setPort k x).canopy = s.canopy := rfl
@[simp] theorem Dev.setPort_ras (s : Dev) (k : Nat) (x : PortRun) : (s.setPort k x).ras = s.ras := rfl
@[simp] theorem Dev.setPort_sap (s : Dev) (k : Nat) (x : PortRun) : (s.setPort k x).sap = s.sap := rfl
@[simp] theorem Dev.setPort_upd (s : Dev) (k : Nat) (x : PortRun) : (s.setPort k x).upd = s.upd := rfl
@[simp] theorem Dev.setPort_reads (s : Dev) (k : Nat) (x : PortRun) : (s.setPort k x).reads = s.reads := rfl
@[simp] theorem Dev.setPort_draws (s : Dev) (k : Nat) (x : PortRun) : (s.setPort k x).draws = s.draws := rfl
@[simp] theorem Dev.setPort_reg (s : Dev) (k : Nat) (x : PortRun) (at_ : Nat) : (s.setPort k x).reg at_ = s.reg at_ := rfl
@[simp] theorem Dev.setPort_rb (s : Dev) (k : Nat) (x : PortRun) (at_ j : Nat) : (s.setPort k x).rb at_ j = s.rb at_ j := rfl
@[simp] theorem Dev.setPort_rf (s : Dev) (k : Nat) (x : PortRun) (at_ p q : Nat) : (s.setPort k x).rf at_ p q = s.rf at_ p q := rfl
@[simp] theorem Dev.setPort_word (s : Dev) (k : Nat) (x : PortRun) (at_ : Nat) : (s.setPort k x).word at_ = s.word at_ := rfl

@[simp] theorem Dev.setRx_variant (s : Dev) (k : Nat) (x : Option RxFrame) : (s.setRx k x).variant = s.variant := rfl
@[simp] theorem Dev.setRx_regs (s : Dev) (k : Nat) (x : Option RxFrame) : (s.setRx k x).regs = s.regs := rfl
@[simp] theorem Dev.setRx_words (s : Dev) (k : Nat) (x : Option RxFrame) : (s.setRx k x).words = s.words := rfl
@[simp] theorem Dev.setRx_lower (s : Dev) (k : Nat) (x : Option RxFrame) : (s.setRx k x).lower = s.lower := rfl
@[simp] theorem Dev.setRx_clocks (s : Dev) (k : Nat) (x : Option RxFrame) : (s.setRx k x).clocks = s.clocks := rfl
@[simp] theorem Dev.setRx_basjo (s : Dev) (k : Nat) (x : Option RxFrame) : (s.setRx k x).basjo = s.basjo := rfl
@[simp] theorem Dev.setRx_cam (s : Dev) (k : Nat) (x : Option RxFrame) : (s.setRx k x).cam = s.cam := rfl
@[simp] theorem Dev.setRx_audit (s : Dev) (k : Nat) (x : Option RxFrame) : (s.setRx k x).audit = s.audit := rfl
@[simp] theorem Dev.setRx_burl (s : Dev) (k : Nat) (x : Option RxFrame) : (s.setRx k x).burl = s.burl := rfl
@[simp] theorem Dev.setRx_ports (s : Dev) (k : Nat) (x : Option RxFrame) : (s.setRx k x).ports = s.ports := rfl
@[simp] theorem Dev.setRx_polls (s : Dev) (k : Nat) (x : Option RxFrame) : (s.setRx k x).polls = s.polls := rfl
@[simp] theorem Dev.setRx_passed (s : Dev) (k : Nat) (x : Option RxFrame) : (s.setRx k x).passed = s.passed := rfl
@[simp] theorem Dev.setRx_groves (s : Dev) (k : Nat) (x : Option RxFrame) : (s.setRx k x).groves = s.groves := rfl
@[simp] theorem Dev.setRx_trunk (s : Dev) (k : Nat) (x : Option RxFrame) : (s.setRx k x).trunk = s.trunk := rfl
@[simp] theorem Dev.setRx_crown (s : Dev) (k : Nat) (x : Option RxFrame) : (s.setRx k x).crown = s.crown := rfl
@[simp] theorem Dev.setRx_bark (s : Dev) (k : Nat) (x : Option RxFrame) : (s.setRx k x).bark = s.bark := rfl
@[simp] theorem Dev.setRx_slowq (s : Dev) (k : Nat) (x : Option RxFrame) : (s.setRx k x).slowq = s.slowq := rfl
@[simp] theorem Dev.setRx_decap (s : Dev) (k : Nat) (x : Option RxFrame) : (s.setRx k x).decap = s.decap := rfl
@[simp] theorem Dev.setRx_out (s : Dev) (k : Nat) (x : Option RxFrame) : (s.setRx k x).out = s.out := rfl
@[simp] theorem Dev.setRx_roots (s : Dev) (k : Nat) (x : Option RxFrame) : (s.setRx k x).roots = s.roots := rfl
@[simp] theorem Dev.setRx_tap (s : Dev) (k : Nat) (x : Option RxFrame) : (s.setRx k x).tap = s.tap := rfl
@[simp] theorem Dev.setRx_canopy (s : Dev) (k : Nat) (x : Option RxFrame) : (s.setRx k x).canopy = s.canopy := rfl
@[simp] theorem Dev.setRx_ras (s : Dev) (k : Nat) (x : Option RxFrame) : (s.setRx k x).ras = s.ras := rfl
@[simp] theorem Dev.setRx_sap (s : Dev) (k : Nat) (x : Option RxFrame) : (s.setRx k x).sap = s.sap := rfl
@[simp] theorem Dev.setRx_upd (s : Dev) (k : Nat) (x : Option RxFrame) : (s.setRx k x).upd = s.upd := rfl
@[simp] theorem Dev.setRx_reads (s : Dev) (k : Nat) (x : Option RxFrame) : (s.setRx k x).reads = s.reads := rfl
@[simp] theorem Dev.setRx_draws (s : Dev) (k : Nat) (x : Option RxFrame) : (s.setRx k x).draws = s.draws := rfl
@[simp] theorem Dev.setRx_reg (s : Dev) (k : Nat) (x : Option RxFrame) (at_ : Nat) : (s.setRx k x).reg at_ = s.reg at_ := rfl
@[simp] theorem Dev.setRx_rb (s : Dev) (k : Nat) (x : Option RxFrame) (at_ j : Nat) : (s.setRx k x).rb at_ j = s.rb at_ j := rfl
@[simp] theorem Dev.setRx_rf (s : Dev) (k : Nat) (x : Option RxFrame) (at_ p q : Nat) : (s.setRx k x).rf at_ p q = s.rf at_ p q := rfl
@[simp] theorem Dev.setRx_word (s : Dev) (k : Nat) (x : Option RxFrame) (at_ : Nat) : (s.setRx k x).word at_ = s.word at_ := rfl

@[simp] theorem Dev.setConn_variant (s : Dev) (k : Nat) (c : Option Conn) : (s.setConn k c).variant = s.variant := rfl
@[simp] theorem Dev.setConn_regs (s : Dev) (k : Nat) (c : Option Conn) : (s.setConn k c).regs = s.regs := rfl
@[simp] theorem Dev.setConn_words (s : Dev) (k : Nat) (c : Option Conn) : (s.setConn k c).words = s.words := rfl
@[simp] theorem Dev.setConn_lower (s : Dev) (k : Nat) (c : Option Conn) : (s.setConn k c).lower = s.lower := rfl
@[simp] theorem Dev.setConn_clocks (s : Dev) (k : Nat) (c : Option Conn) : (s.setConn k c).clocks = s.clocks := rfl
@[simp] theorem Dev.setConn_basjo (s : Dev) (k : Nat) (c : Option Conn) : (s.setConn k c).basjo = s.basjo := rfl
@[simp] theorem Dev.setConn_cam (s : Dev) (k : Nat) (c : Option Conn) : (s.setConn k c).cam = s.cam := rfl
@[simp] theorem Dev.setConn_audit (s : Dev) (k : Nat) (c : Option Conn) : (s.setConn k c).audit = s.audit := rfl
@[simp] theorem Dev.setConn_burl (s : Dev) (k : Nat) (c : Option Conn) : (s.setConn k c).burl = s.burl := rfl
@[simp] theorem Dev.setConn_ports (s : Dev) (k : Nat) (c : Option Conn) : (s.setConn k c).ports = s.ports := rfl
@[simp] theorem Dev.setConn_polls (s : Dev) (k : Nat) (c : Option Conn) : (s.setConn k c).polls = s.polls := rfl
@[simp] theorem Dev.setConn_rx (s : Dev) (k : Nat) (c : Option Conn) : (s.setConn k c).rx = s.rx := rfl
@[simp] theorem Dev.setConn_passed (s : Dev) (k : Nat) (c : Option Conn) : (s.setConn k c).passed = s.passed := rfl
@[simp] theorem Dev.setConn_groves (s : Dev) (k : Nat) (c : Option Conn) : (s.setConn k c).groves = s.groves := rfl
@[simp] theorem Dev.setConn_trunk (s : Dev) (k : Nat) (c : Option Conn) : (s.setConn k c).trunk = s.trunk := rfl
@[simp] theorem Dev.setConn_crown (s : Dev) (k : Nat) (c : Option Conn) : (s.setConn k c).crown = s.crown := rfl
@[simp] theorem Dev.setConn_slowq (s : Dev) (k : Nat) (c : Option Conn) : (s.setConn k c).slowq = s.slowq := rfl
@[simp] theorem Dev.setConn_decap (s : Dev) (k : Nat) (c : Option Conn) : (s.setConn k c).decap = s.decap := rfl
@[simp] theorem Dev.setConn_out (s : Dev) (k : Nat) (c : Option Conn) : (s.setConn k c).out = s.out := rfl
@[simp] theorem Dev.setConn_roots (s : Dev) (k : Nat) (c : Option Conn) : (s.setConn k c).roots = s.roots := rfl
@[simp] theorem Dev.setConn_tap (s : Dev) (k : Nat) (c : Option Conn) : (s.setConn k c).tap = s.tap := rfl
@[simp] theorem Dev.setConn_canopy (s : Dev) (k : Nat) (c : Option Conn) : (s.setConn k c).canopy = s.canopy := rfl
@[simp] theorem Dev.setConn_ras (s : Dev) (k : Nat) (c : Option Conn) : (s.setConn k c).ras = s.ras := rfl
@[simp] theorem Dev.setConn_sap (s : Dev) (k : Nat) (c : Option Conn) : (s.setConn k c).sap = s.sap := rfl
@[simp] theorem Dev.setConn_upd (s : Dev) (k : Nat) (c : Option Conn) : (s.setConn k c).upd = s.upd := rfl
@[simp] theorem Dev.setConn_reads (s : Dev) (k : Nat) (c : Option Conn) : (s.setConn k c).reads = s.reads := rfl
@[simp] theorem Dev.setConn_draws (s : Dev) (k : Nat) (c : Option Conn) : (s.setConn k c).draws = s.draws := rfl
@[simp] theorem Dev.setConn_reg (s : Dev) (k : Nat) (c : Option Conn) (at_ : Nat) : (s.setConn k c).reg at_ = s.reg at_ := rfl
@[simp] theorem Dev.setConn_rb (s : Dev) (k : Nat) (c : Option Conn) (at_ j : Nat) : (s.setConn k c).rb at_ j = s.rb at_ j := rfl
@[simp] theorem Dev.setConn_rf (s : Dev) (k : Nat) (c : Option Conn) (at_ p q : Nat) : (s.setConn k c).rf at_ p q = s.rf at_ p q := rfl
@[simp] theorem Dev.setConn_word (s : Dev) (k : Nat) (c : Option Conn) (at_ : Nat) : (s.setConn k c).word at_ = s.word at_ := rfl

@[simp] theorem Dev.setGate_variant (s : Dev) (n : Nat) (g : GateRun) : (s.setGate n g).variant = s.variant := rfl
@[simp] theorem Dev.setGate_regs (s : Dev) (n : Nat) (g : GateRun) : (s.setGate n g).regs = s.regs := rfl
@[simp] theorem Dev.setGate_words (s : Dev) (n : Nat) (g : GateRun) : (s.setGate n g).words = s.words := rfl
@[simp] theorem Dev.setGate_lower (s : Dev) (n : Nat) (g : GateRun) : (s.setGate n g).lower = s.lower := rfl
@[simp] theorem Dev.setGate_clocks (s : Dev) (n : Nat) (g : GateRun) : (s.setGate n g).clocks = s.clocks := rfl
@[simp] theorem Dev.setGate_basjo (s : Dev) (n : Nat) (g : GateRun) : (s.setGate n g).basjo = s.basjo := rfl
@[simp] theorem Dev.setGate_cam (s : Dev) (n : Nat) (g : GateRun) : (s.setGate n g).cam = s.cam := rfl
@[simp] theorem Dev.setGate_audit (s : Dev) (n : Nat) (g : GateRun) : (s.setGate n g).audit = s.audit := rfl
@[simp] theorem Dev.setGate_burl (s : Dev) (n : Nat) (g : GateRun) : (s.setGate n g).burl = s.burl := rfl
@[simp] theorem Dev.setGate_ports (s : Dev) (n : Nat) (g : GateRun) : (s.setGate n g).ports = s.ports := rfl
@[simp] theorem Dev.setGate_polls (s : Dev) (n : Nat) (g : GateRun) : (s.setGate n g).polls = s.polls := rfl
@[simp] theorem Dev.setGate_rx (s : Dev) (n : Nat) (g : GateRun) : (s.setGate n g).rx = s.rx := rfl
@[simp] theorem Dev.setGate_passed (s : Dev) (n : Nat) (g : GateRun) : (s.setGate n g).passed = s.passed := rfl
@[simp] theorem Dev.setGate_groves (s : Dev) (n : Nat) (g : GateRun) : (s.setGate n g).groves = s.groves := rfl
@[simp] theorem Dev.setGate_trunk (s : Dev) (n : Nat) (g : GateRun) : (s.setGate n g).trunk = s.trunk := rfl
@[simp] theorem Dev.setGate_bark (s : Dev) (n : Nat) (g : GateRun) : (s.setGate n g).bark = s.bark := rfl
@[simp] theorem Dev.setGate_slowq (s : Dev) (n : Nat) (g : GateRun) : (s.setGate n g).slowq = s.slowq := rfl
@[simp] theorem Dev.setGate_decap (s : Dev) (n : Nat) (g : GateRun) : (s.setGate n g).decap = s.decap := rfl
@[simp] theorem Dev.setGate_out (s : Dev) (n : Nat) (g : GateRun) : (s.setGate n g).out = s.out := rfl
@[simp] theorem Dev.setGate_roots (s : Dev) (n : Nat) (g : GateRun) : (s.setGate n g).roots = s.roots := rfl
@[simp] theorem Dev.setGate_tap (s : Dev) (n : Nat) (g : GateRun) : (s.setGate n g).tap = s.tap := rfl
@[simp] theorem Dev.setGate_canopy (s : Dev) (n : Nat) (g : GateRun) : (s.setGate n g).canopy = s.canopy := rfl
@[simp] theorem Dev.setGate_ras (s : Dev) (n : Nat) (g : GateRun) : (s.setGate n g).ras = s.ras := rfl
@[simp] theorem Dev.setGate_sap (s : Dev) (n : Nat) (g : GateRun) : (s.setGate n g).sap = s.sap := rfl
@[simp] theorem Dev.setGate_upd (s : Dev) (n : Nat) (g : GateRun) : (s.setGate n g).upd = s.upd := rfl
@[simp] theorem Dev.setGate_reads (s : Dev) (n : Nat) (g : GateRun) : (s.setGate n g).reads = s.reads := rfl
@[simp] theorem Dev.setGate_draws (s : Dev) (n : Nat) (g : GateRun) : (s.setGate n g).draws = s.draws := rfl
@[simp] theorem Dev.setGate_reg (s : Dev) (n : Nat) (g : GateRun) (at_ : Nat) : (s.setGate n g).reg at_ = s.reg at_ := rfl
@[simp] theorem Dev.setGate_rb (s : Dev) (n : Nat) (g : GateRun) (at_ j : Nat) : (s.setGate n g).rb at_ j = s.rb at_ j := rfl
@[simp] theorem Dev.setGate_rf (s : Dev) (n : Nat) (g : GateRun) (at_ p q : Nat) : (s.setGate n g).rf at_ p q = s.rf at_ p q := rfl
@[simp] theorem Dev.setGate_word (s : Dev) (n : Nat) (g : GateRun) (at_ : Nat) : (s.setGate n g).word at_ = s.word at_ := rfl

@[simp] theorem Dev.setSc_variant (s : Dev) (c : Nat) (v : Option SecChannel) : (s.setSc c v).variant = s.variant := rfl
@[simp] theorem Dev.setSc_regs (s : Dev) (c : Nat) (v : Option SecChannel) : (s.setSc c v).regs = s.regs := rfl
@[simp] theorem Dev.setSc_words (s : Dev) (c : Nat) (v : Option SecChannel) : (s.setSc c v).words = s.words := rfl
@[simp] theorem Dev.setSc_lower (s : Dev) (c : Nat) (v : Option SecChannel) : (s.setSc c v).lower = s.lower := rfl
@[simp] theorem Dev.setSc_clocks (s : Dev) (c : Nat) (v : Option SecChannel) : (s.setSc c v).clocks = s.clocks := rfl
@[simp] theorem Dev.setSc_basjo (s : Dev) (c : Nat) (v : Option SecChannel) : (s.setSc c v).basjo = s.basjo := rfl
@[simp] theorem Dev.setSc_cam (s : Dev) (c : Nat) (v : Option SecChannel) : (s.setSc c v).cam = s.cam := rfl
@[simp] theorem Dev.setSc_audit (s : Dev) (c : Nat) (v : Option SecChannel) : (s.setSc c v).audit = s.audit := rfl
@[simp] theorem Dev.setSc_ports (s : Dev) (c : Nat) (v : Option SecChannel) : (s.setSc c v).ports = s.ports := rfl
@[simp] theorem Dev.setSc_polls (s : Dev) (c : Nat) (v : Option SecChannel) : (s.setSc c v).polls = s.polls := rfl
@[simp] theorem Dev.setSc_rx (s : Dev) (c : Nat) (v : Option SecChannel) : (s.setSc c v).rx = s.rx := rfl
@[simp] theorem Dev.setSc_passed (s : Dev) (c : Nat) (v : Option SecChannel) : (s.setSc c v).passed = s.passed := rfl
@[simp] theorem Dev.setSc_groves (s : Dev) (c : Nat) (v : Option SecChannel) : (s.setSc c v).groves = s.groves := rfl
@[simp] theorem Dev.setSc_trunk (s : Dev) (c : Nat) (v : Option SecChannel) : (s.setSc c v).trunk = s.trunk := rfl
@[simp] theorem Dev.setSc_crown (s : Dev) (c : Nat) (v : Option SecChannel) : (s.setSc c v).crown = s.crown := rfl
@[simp] theorem Dev.setSc_bark (s : Dev) (c : Nat) (v : Option SecChannel) : (s.setSc c v).bark = s.bark := rfl
@[simp] theorem Dev.setSc_slowq (s : Dev) (c : Nat) (v : Option SecChannel) : (s.setSc c v).slowq = s.slowq := rfl
@[simp] theorem Dev.setSc_decap (s : Dev) (c : Nat) (v : Option SecChannel) : (s.setSc c v).decap = s.decap := rfl
@[simp] theorem Dev.setSc_out (s : Dev) (c : Nat) (v : Option SecChannel) : (s.setSc c v).out = s.out := rfl
@[simp] theorem Dev.setSc_roots (s : Dev) (c : Nat) (v : Option SecChannel) : (s.setSc c v).roots = s.roots := rfl
@[simp] theorem Dev.setSc_tap (s : Dev) (c : Nat) (v : Option SecChannel) : (s.setSc c v).tap = s.tap := rfl
@[simp] theorem Dev.setSc_canopy (s : Dev) (c : Nat) (v : Option SecChannel) : (s.setSc c v).canopy = s.canopy := rfl
@[simp] theorem Dev.setSc_ras (s : Dev) (c : Nat) (v : Option SecChannel) : (s.setSc c v).ras = s.ras := rfl
@[simp] theorem Dev.setSc_sap (s : Dev) (c : Nat) (v : Option SecChannel) : (s.setSc c v).sap = s.sap := rfl
@[simp] theorem Dev.setSc_upd (s : Dev) (c : Nat) (v : Option SecChannel) : (s.setSc c v).upd = s.upd := rfl
@[simp] theorem Dev.setSc_reads (s : Dev) (c : Nat) (v : Option SecChannel) : (s.setSc c v).reads = s.reads := rfl
@[simp] theorem Dev.setSc_draws (s : Dev) (c : Nat) (v : Option SecChannel) : (s.setSc c v).draws = s.draws := rfl
@[simp] theorem Dev.setSc_reg (s : Dev) (c : Nat) (v : Option SecChannel) (at_ : Nat) : (s.setSc c v).reg at_ = s.reg at_ := rfl
@[simp] theorem Dev.setSc_rb (s : Dev) (c : Nat) (v : Option SecChannel) (at_ j : Nat) : (s.setSc c v).rb at_ j = s.rb at_ j := rfl
@[simp] theorem Dev.setSc_rf (s : Dev) (c : Nat) (v : Option SecChannel) (at_ p q : Nat) : (s.setSc c v).rf at_ p q = s.rf at_ p q := rfl
@[simp] theorem Dev.setSc_word (s : Dev) (c : Nat) (v : Option SecChannel) (at_ : Nat) : (s.setSc c v).word at_ = s.word at_ := rfl

@[simp] theorem Dev.setSa_variant (s : Dev) (c : Nat) (v : Option SecAssoc) : (s.setSa c v).variant = s.variant := rfl
@[simp] theorem Dev.setSa_regs (s : Dev) (c : Nat) (v : Option SecAssoc) : (s.setSa c v).regs = s.regs := rfl
@[simp] theorem Dev.setSa_words (s : Dev) (c : Nat) (v : Option SecAssoc) : (s.setSa c v).words = s.words := rfl
@[simp] theorem Dev.setSa_lower (s : Dev) (c : Nat) (v : Option SecAssoc) : (s.setSa c v).lower = s.lower := rfl
@[simp] theorem Dev.setSa_clocks (s : Dev) (c : Nat) (v : Option SecAssoc) : (s.setSa c v).clocks = s.clocks := rfl
@[simp] theorem Dev.setSa_basjo (s : Dev) (c : Nat) (v : Option SecAssoc) : (s.setSa c v).basjo = s.basjo := rfl
@[simp] theorem Dev.setSa_cam (s : Dev) (c : Nat) (v : Option SecAssoc) : (s.setSa c v).cam = s.cam := rfl
@[simp] theorem Dev.setSa_audit (s : Dev) (c : Nat) (v : Option SecAssoc) : (s.setSa c v).audit = s.audit := rfl
@[simp] theorem Dev.setSa_ports (s : Dev) (c : Nat) (v : Option SecAssoc) : (s.setSa c v).ports = s.ports := rfl
@[simp] theorem Dev.setSa_polls (s : Dev) (c : Nat) (v : Option SecAssoc) : (s.setSa c v).polls = s.polls := rfl
@[simp] theorem Dev.setSa_rx (s : Dev) (c : Nat) (v : Option SecAssoc) : (s.setSa c v).rx = s.rx := rfl
@[simp] theorem Dev.setSa_passed (s : Dev) (c : Nat) (v : Option SecAssoc) : (s.setSa c v).passed = s.passed := rfl
@[simp] theorem Dev.setSa_groves (s : Dev) (c : Nat) (v : Option SecAssoc) : (s.setSa c v).groves = s.groves := rfl
@[simp] theorem Dev.setSa_trunk (s : Dev) (c : Nat) (v : Option SecAssoc) : (s.setSa c v).trunk = s.trunk := rfl
@[simp] theorem Dev.setSa_crown (s : Dev) (c : Nat) (v : Option SecAssoc) : (s.setSa c v).crown = s.crown := rfl
@[simp] theorem Dev.setSa_bark (s : Dev) (c : Nat) (v : Option SecAssoc) : (s.setSa c v).bark = s.bark := rfl
@[simp] theorem Dev.setSa_slowq (s : Dev) (c : Nat) (v : Option SecAssoc) : (s.setSa c v).slowq = s.slowq := rfl
@[simp] theorem Dev.setSa_decap (s : Dev) (c : Nat) (v : Option SecAssoc) : (s.setSa c v).decap = s.decap := rfl
@[simp] theorem Dev.setSa_out (s : Dev) (c : Nat) (v : Option SecAssoc) : (s.setSa c v).out = s.out := rfl
@[simp] theorem Dev.setSa_roots (s : Dev) (c : Nat) (v : Option SecAssoc) : (s.setSa c v).roots = s.roots := rfl
@[simp] theorem Dev.setSa_tap (s : Dev) (c : Nat) (v : Option SecAssoc) : (s.setSa c v).tap = s.tap := rfl
@[simp] theorem Dev.setSa_canopy (s : Dev) (c : Nat) (v : Option SecAssoc) : (s.setSa c v).canopy = s.canopy := rfl
@[simp] theorem Dev.setSa_ras (s : Dev) (c : Nat) (v : Option SecAssoc) : (s.setSa c v).ras = s.ras := rfl
@[simp] theorem Dev.setSa_sap (s : Dev) (c : Nat) (v : Option SecAssoc) : (s.setSa c v).sap = s.sap := rfl
@[simp] theorem Dev.setSa_upd (s : Dev) (c : Nat) (v : Option SecAssoc) : (s.setSa c v).upd = s.upd := rfl
@[simp] theorem Dev.setSa_reads (s : Dev) (c : Nat) (v : Option SecAssoc) : (s.setSa c v).reads = s.reads := rfl
@[simp] theorem Dev.setSa_draws (s : Dev) (c : Nat) (v : Option SecAssoc) : (s.setSa c v).draws = s.draws := rfl
@[simp] theorem Dev.setSa_reg (s : Dev) (c : Nat) (v : Option SecAssoc) (at_ : Nat) : (s.setSa c v).reg at_ = s.reg at_ := rfl
@[simp] theorem Dev.setSa_rb (s : Dev) (c : Nat) (v : Option SecAssoc) (at_ j : Nat) : (s.setSa c v).rb at_ j = s.rb at_ j := rfl
@[simp] theorem Dev.setSa_rf (s : Dev) (c : Nat) (v : Option SecAssoc) (at_ p q : Nat) : (s.setSa c v).rf at_ p q = s.rf at_ p q := rfl
@[simp] theorem Dev.setSa_word (s : Dev) (c : Nat) (v : Option SecAssoc) (at_ : Nat) : (s.setSa c v).word at_ = s.word at_ := rfl

@[simp] theorem Dev.setPair_variant (s : Dev) (k : Nat) (x : PairRun) : (s.setPair k x).variant = s.variant := rfl
@[simp] theorem Dev.setPair_regs (s : Dev) (k : Nat) (x : PairRun) : (s.setPair k x).regs = s.regs := rfl
@[simp] theorem Dev.setPair_words (s : Dev) (k : Nat) (x : PairRun) : (s.setPair k x).words = s.words := rfl
@[simp] theorem Dev.setPair_lower (s : Dev) (k : Nat) (x : PairRun) : (s.setPair k x).lower = s.lower := rfl
@[simp] theorem Dev.setPair_clocks (s : Dev) (k : Nat) (x : PairRun) : (s.setPair k x).clocks = s.clocks := rfl
@[simp] theorem Dev.setPair_basjo (s : Dev) (k : Nat) (x : PairRun) : (s.setPair k x).basjo = s.basjo := rfl
@[simp] theorem Dev.setPair_cam (s : Dev) (k : Nat) (x : PairRun) : (s.setPair k x).cam = s.cam := rfl
@[simp] theorem Dev.setPair_audit (s : Dev) (k : Nat) (x : PairRun) : (s.setPair k x).audit = s.audit := rfl
@[simp] theorem Dev.setPair_burl (s : Dev) (k : Nat) (x : PairRun) : (s.setPair k x).burl = s.burl := rfl
@[simp] theorem Dev.setPair_ports (s : Dev) (k : Nat) (x : PairRun) : (s.setPair k x).ports = s.ports := rfl
@[simp] theorem Dev.setPair_polls (s : Dev) (k : Nat) (x : PairRun) : (s.setPair k x).polls = s.polls := rfl
@[simp] theorem Dev.setPair_rx (s : Dev) (k : Nat) (x : PairRun) : (s.setPair k x).rx = s.rx := rfl
@[simp] theorem Dev.setPair_passed (s : Dev) (k : Nat) (x : PairRun) : (s.setPair k x).passed = s.passed := rfl
@[simp] theorem Dev.setPair_groves (s : Dev) (k : Nat) (x : PairRun) : (s.setPair k x).groves = s.groves := rfl
@[simp] theorem Dev.setPair_trunk (s : Dev) (k : Nat) (x : PairRun) : (s.setPair k x).trunk = s.trunk := rfl
@[simp] theorem Dev.setPair_crown (s : Dev) (k : Nat) (x : PairRun) : (s.setPair k x).crown = s.crown := rfl
@[simp] theorem Dev.setPair_bark (s : Dev) (k : Nat) (x : PairRun) : (s.setPair k x).bark = s.bark := rfl
@[simp] theorem Dev.setPair_slowq (s : Dev) (k : Nat) (x : PairRun) : (s.setPair k x).slowq = s.slowq := rfl
@[simp] theorem Dev.setPair_decap (s : Dev) (k : Nat) (x : PairRun) : (s.setPair k x).decap = s.decap := rfl
@[simp] theorem Dev.setPair_out (s : Dev) (k : Nat) (x : PairRun) : (s.setPair k x).out = s.out := rfl
@[simp] theorem Dev.setPair_roots (s : Dev) (k : Nat) (x : PairRun) : (s.setPair k x).roots = s.roots := rfl
@[simp] theorem Dev.setPair_tap (s : Dev) (k : Nat) (x : PairRun) : (s.setPair k x).tap = s.tap := rfl
@[simp] theorem Dev.setPair_ras (s : Dev) (k : Nat) (x : PairRun) : (s.setPair k x).ras = s.ras := rfl
@[simp] theorem Dev.setPair_sap (s : Dev) (k : Nat) (x : PairRun) : (s.setPair k x).sap = s.sap := rfl
@[simp] theorem Dev.setPair_upd (s : Dev) (k : Nat) (x : PairRun) : (s.setPair k x).upd = s.upd := rfl
@[simp] theorem Dev.setPair_reads (s : Dev) (k : Nat) (x : PairRun) : (s.setPair k x).reads = s.reads := rfl
@[simp] theorem Dev.setPair_draws (s : Dev) (k : Nat) (x : PairRun) : (s.setPair k x).draws = s.draws := rfl
@[simp] theorem Dev.setPair_reg (s : Dev) (k : Nat) (x : PairRun) (at_ : Nat) : (s.setPair k x).reg at_ = s.reg at_ := rfl
@[simp] theorem Dev.setPair_rb (s : Dev) (k : Nat) (x : PairRun) (at_ j : Nat) : (s.setPair k x).rb at_ j = s.rb at_ j := rfl
@[simp] theorem Dev.setPair_rf (s : Dev) (k : Nat) (x : PairRun) (at_ p q : Nat) : (s.setPair k x).rf at_ p q = s.rf at_ p q := rfl
@[simp] theorem Dev.setPair_word (s : Dev) (k : Nat) (x : PairRun) (at_ : Nat) : (s.setPair k x).word at_ = s.word at_ := rfl

@[simp] theorem Dev.setMeterRun_variant (s : Dev) (g m : Nat) (r : MeterRun) : (s.setMeterRun g m r).variant = s.variant := rfl
@[simp] theorem Dev.setMeterRun_regs (s : Dev) (g m : Nat) (r : MeterRun) : (s.setMeterRun g m r).regs = s.regs := rfl
@[simp] theorem Dev.setMeterRun_words (s : Dev) (g m : Nat) (r : MeterRun) : (s.setMeterRun g m r).words = s.words := rfl
@[simp] theorem Dev.setMeterRun_lower (s : Dev) (g m : Nat) (r : MeterRun) : (s.setMeterRun g m r).lower = s.lower := rfl
@[simp] theorem Dev.setMeterRun_clocks (s : Dev) (g m : Nat) (r : MeterRun) : (s.setMeterRun g m r).clocks = s.clocks := rfl
@[simp] theorem Dev.setMeterRun_basjo (s : Dev) (g m : Nat) (r : MeterRun) : (s.setMeterRun g m r).basjo = s.basjo := rfl
@[simp] theorem Dev.setMeterRun_cam (s : Dev) (g m : Nat) (r : MeterRun) : (s.setMeterRun g m r).cam = s.cam := rfl
@[simp] theorem Dev.setMeterRun_audit (s : Dev) (g m : Nat) (r : MeterRun) : (s.setMeterRun g m r).audit = s.audit := rfl
@[simp] theorem Dev.setMeterRun_burl (s : Dev) (g m : Nat) (r : MeterRun) : (s.setMeterRun g m r).burl = s.burl := rfl
@[simp] theorem Dev.setMeterRun_ports (s : Dev) (g m : Nat) (r : MeterRun) : (s.setMeterRun g m r).ports = s.ports := rfl
@[simp] theorem Dev.setMeterRun_polls (s : Dev) (g m : Nat) (r : MeterRun) : (s.setMeterRun g m r).polls = s.polls := rfl
@[simp] theorem Dev.setMeterRun_rx (s : Dev) (g m : Nat) (r : MeterRun) : (s.setMeterRun g m r).rx = s.rx := rfl
@[simp] theorem Dev.setMeterRun_passed (s : Dev) (g m : Nat) (r : MeterRun) : (s.setMeterRun g m r).passed = s.passed := rfl
@[simp] theorem Dev.setMeterRun_trunk (s : Dev) (g m : Nat) (r : MeterRun) : (s.setMeterRun g m r).trunk = s.trunk := rfl
@[simp] theorem Dev.setMeterRun_crown (s : Dev) (g m : Nat) (r : MeterRun) : (s.setMeterRun g m r).crown = s.crown := rfl
@[simp] theorem Dev.setMeterRun_bark (s : Dev) (g m : Nat) (r : MeterRun) : (s.setMeterRun g m r).bark = s.bark := rfl
@[simp] theorem Dev.setMeterRun_slowq (s : Dev) (g m : Nat) (r : MeterRun) : (s.setMeterRun g m r).slowq = s.slowq := rfl
@[simp] theorem Dev.setMeterRun_decap (s : Dev) (g m : Nat) (r : MeterRun) : (s.setMeterRun g m r).decap = s.decap := rfl
@[simp] theorem Dev.setMeterRun_out (s : Dev) (g m : Nat) (r : MeterRun) : (s.setMeterRun g m r).out = s.out := rfl
@[simp] theorem Dev.setMeterRun_roots (s : Dev) (g m : Nat) (r : MeterRun) : (s.setMeterRun g m r).roots = s.roots := rfl
@[simp] theorem Dev.setMeterRun_tap (s : Dev) (g m : Nat) (r : MeterRun) : (s.setMeterRun g m r).tap = s.tap := rfl
@[simp] theorem Dev.setMeterRun_canopy (s : Dev) (g m : Nat) (r : MeterRun) : (s.setMeterRun g m r).canopy = s.canopy := rfl
@[simp] theorem Dev.setMeterRun_ras (s : Dev) (g m : Nat) (r : MeterRun) : (s.setMeterRun g m r).ras = s.ras := rfl
@[simp] theorem Dev.setMeterRun_sap (s : Dev) (g m : Nat) (r : MeterRun) : (s.setMeterRun g m r).sap = s.sap := rfl
@[simp] theorem Dev.setMeterRun_upd (s : Dev) (g m : Nat) (r : MeterRun) : (s.setMeterRun g m r).upd = s.upd := rfl
@[simp] theorem Dev.setMeterRun_reads (s : Dev) (g m : Nat) (r : MeterRun) : (s.setMeterRun g m r).reads = s.reads := rfl
@[simp] theorem Dev.setMeterRun_draws (s : Dev) (g m : Nat) (r : MeterRun) : (s.setMeterRun g m r).draws = s.draws := rfl
@[simp] theorem Dev.setMeterRun_reg (s : Dev) (g m : Nat) (r : MeterRun) (at_ : Nat) : (s.setMeterRun g m r).reg at_ = s.reg at_ := rfl
@[simp] theorem Dev.setMeterRun_rb (s : Dev) (g m : Nat) (r : MeterRun) (at_ j : Nat) : (s.setMeterRun g m r).rb at_ j = s.rb at_ j := rfl
@[simp] theorem Dev.setMeterRun_rf (s : Dev) (g m : Nat) (r : MeterRun) (at_ p q : Nat) : (s.setMeterRun g m r).rf at_ p q = s.rf at_ p q := rfl
@[simp] theorem Dev.setMeterRun_word (s : Dev) (g m : Nat) (r : MeterRun) (at_ : Nat) : (s.setMeterRun g m r).word at_ = s.word at_ := rfl

@[simp] theorem Dev.setOutgoing_variant (s : Dev) (g : Nat) (l : List LearnMsg) : (s.setOutgoing g l).variant = s.variant := rfl
@[simp] theorem Dev.setOutgoing_regs (s : Dev) (g : Nat) (l : List LearnMsg) : (s.setOutgoing g l).regs = s.regs := rfl
@[simp] theorem Dev.setOutgoing_words (s : Dev) (g : Nat) (l : List LearnMsg) : (s.setOutgoing g l).words = s.words := rfl
@[simp] theorem Dev.setOutgoing_lower (s : Dev) (g : Nat) (l : List LearnMsg) : (s.setOutgoing g l).lower = s.lower := rfl
@[simp] theorem Dev.setOutgoing_clocks (s : Dev) (g : Nat) (l : List LearnMsg) : (s.setOutgoing g l).clocks = s.clocks := rfl
@[simp] theorem Dev.setOutgoing_basjo (s : Dev) (g : Nat) (l : List LearnMsg) : (s.setOutgoing g l).basjo = s.basjo := rfl
@[simp] theorem Dev.setOutgoing_cam (s : Dev) (g : Nat) (l : List LearnMsg) : (s.setOutgoing g l).cam = s.cam := rfl
@[simp] theorem Dev.setOutgoing_audit (s : Dev) (g : Nat) (l : List LearnMsg) : (s.setOutgoing g l).audit = s.audit := rfl
@[simp] theorem Dev.setOutgoing_burl (s : Dev) (g : Nat) (l : List LearnMsg) : (s.setOutgoing g l).burl = s.burl := rfl
@[simp] theorem Dev.setOutgoing_ports (s : Dev) (g : Nat) (l : List LearnMsg) : (s.setOutgoing g l).ports = s.ports := rfl
@[simp] theorem Dev.setOutgoing_polls (s : Dev) (g : Nat) (l : List LearnMsg) : (s.setOutgoing g l).polls = s.polls := rfl
@[simp] theorem Dev.setOutgoing_rx (s : Dev) (g : Nat) (l : List LearnMsg) : (s.setOutgoing g l).rx = s.rx := rfl
@[simp] theorem Dev.setOutgoing_passed (s : Dev) (g : Nat) (l : List LearnMsg) : (s.setOutgoing g l).passed = s.passed := rfl
@[simp] theorem Dev.setOutgoing_trunk (s : Dev) (g : Nat) (l : List LearnMsg) : (s.setOutgoing g l).trunk = s.trunk := rfl
@[simp] theorem Dev.setOutgoing_crown (s : Dev) (g : Nat) (l : List LearnMsg) : (s.setOutgoing g l).crown = s.crown := rfl
@[simp] theorem Dev.setOutgoing_bark (s : Dev) (g : Nat) (l : List LearnMsg) : (s.setOutgoing g l).bark = s.bark := rfl
@[simp] theorem Dev.setOutgoing_slowq (s : Dev) (g : Nat) (l : List LearnMsg) : (s.setOutgoing g l).slowq = s.slowq := rfl
@[simp] theorem Dev.setOutgoing_decap (s : Dev) (g : Nat) (l : List LearnMsg) : (s.setOutgoing g l).decap = s.decap := rfl
@[simp] theorem Dev.setOutgoing_out (s : Dev) (g : Nat) (l : List LearnMsg) : (s.setOutgoing g l).out = s.out := rfl
@[simp] theorem Dev.setOutgoing_roots (s : Dev) (g : Nat) (l : List LearnMsg) : (s.setOutgoing g l).roots = s.roots := rfl
@[simp] theorem Dev.setOutgoing_tap (s : Dev) (g : Nat) (l : List LearnMsg) : (s.setOutgoing g l).tap = s.tap := rfl
@[simp] theorem Dev.setOutgoing_canopy (s : Dev) (g : Nat) (l : List LearnMsg) : (s.setOutgoing g l).canopy = s.canopy := rfl
@[simp] theorem Dev.setOutgoing_ras (s : Dev) (g : Nat) (l : List LearnMsg) : (s.setOutgoing g l).ras = s.ras := rfl
@[simp] theorem Dev.setOutgoing_sap (s : Dev) (g : Nat) (l : List LearnMsg) : (s.setOutgoing g l).sap = s.sap := rfl
@[simp] theorem Dev.setOutgoing_upd (s : Dev) (g : Nat) (l : List LearnMsg) : (s.setOutgoing g l).upd = s.upd := rfl
@[simp] theorem Dev.setOutgoing_reads (s : Dev) (g : Nat) (l : List LearnMsg) : (s.setOutgoing g l).reads = s.reads := rfl
@[simp] theorem Dev.setOutgoing_draws (s : Dev) (g : Nat) (l : List LearnMsg) : (s.setOutgoing g l).draws = s.draws := rfl
@[simp] theorem Dev.setOutgoing_reg (s : Dev) (g : Nat) (l : List LearnMsg) (at_ : Nat) : (s.setOutgoing g l).reg at_ = s.reg at_ := rfl
@[simp] theorem Dev.setOutgoing_rb (s : Dev) (g : Nat) (l : List LearnMsg) (at_ j : Nat) : (s.setOutgoing g l).rb at_ j = s.rb at_ j := rfl
@[simp] theorem Dev.setOutgoing_rf (s : Dev) (g : Nat) (l : List LearnMsg) (at_ p q : Nat) : (s.setOutgoing g l).rf at_ p q = s.rf at_ p q := rfl
@[simp] theorem Dev.setOutgoing_word (s : Dev) (g : Nat) (l : List LearnMsg) (at_ : Nat) : (s.setOutgoing g l).word at_ = s.word at_ := rfl

@[simp] theorem Dev.setStored_variant (s : Dev) (n : Nat) (f : Option Stored) : (s.setStored n f).variant = s.variant := rfl
@[simp] theorem Dev.setStored_regs (s : Dev) (n : Nat) (f : Option Stored) : (s.setStored n f).regs = s.regs := rfl
@[simp] theorem Dev.setStored_words (s : Dev) (n : Nat) (f : Option Stored) : (s.setStored n f).words = s.words := rfl
@[simp] theorem Dev.setStored_lower (s : Dev) (n : Nat) (f : Option Stored) : (s.setStored n f).lower = s.lower := rfl
@[simp] theorem Dev.setStored_clocks (s : Dev) (n : Nat) (f : Option Stored) : (s.setStored n f).clocks = s.clocks := rfl
@[simp] theorem Dev.setStored_basjo (s : Dev) (n : Nat) (f : Option Stored) : (s.setStored n f).basjo = s.basjo := rfl
@[simp] theorem Dev.setStored_cam (s : Dev) (n : Nat) (f : Option Stored) : (s.setStored n f).cam = s.cam := rfl
@[simp] theorem Dev.setStored_audit (s : Dev) (n : Nat) (f : Option Stored) : (s.setStored n f).audit = s.audit := rfl
@[simp] theorem Dev.setStored_burl (s : Dev) (n : Nat) (f : Option Stored) : (s.setStored n f).burl = s.burl := rfl
@[simp] theorem Dev.setStored_ports (s : Dev) (n : Nat) (f : Option Stored) : (s.setStored n f).ports = s.ports := rfl
@[simp] theorem Dev.setStored_polls (s : Dev) (n : Nat) (f : Option Stored) : (s.setStored n f).polls = s.polls := rfl
@[simp] theorem Dev.setStored_rx (s : Dev) (n : Nat) (f : Option Stored) : (s.setStored n f).rx = s.rx := rfl
@[simp] theorem Dev.setStored_passed (s : Dev) (n : Nat) (f : Option Stored) : (s.setStored n f).passed = s.passed := rfl
@[simp] theorem Dev.setStored_groves (s : Dev) (n : Nat) (f : Option Stored) : (s.setStored n f).groves = s.groves := rfl
@[simp] theorem Dev.setStored_crown (s : Dev) (n : Nat) (f : Option Stored) : (s.setStored n f).crown = s.crown := rfl
@[simp] theorem Dev.setStored_bark (s : Dev) (n : Nat) (f : Option Stored) : (s.setStored n f).bark = s.bark := rfl
@[simp] theorem Dev.setStored_slowq (s : Dev) (n : Nat) (f : Option Stored) : (s.setStored n f).slowq = s.slowq := rfl
@[simp] theorem Dev.setStored_decap (s : Dev) (n : Nat) (f : Option Stored) : (s.setStored n f).decap = s.decap := rfl
@[simp] theorem Dev.setStored_out (s : Dev) (n : Nat) (f : Option Stored) : (s.setStored n f).out = s.out := rfl
@[simp] theorem Dev.setStored_roots (s : Dev) (n : Nat) (f : Option Stored) : (s.setStored n f).roots = s.roots := rfl
@[simp] theorem Dev.setStored_tap (s : Dev) (n : Nat) (f : Option Stored) : (s.setStored n f).tap = s.tap := rfl
@[simp] theorem Dev.setStored_canopy (s : Dev) (n : Nat) (f : Option Stored) : (s.setStored n f).canopy = s.canopy := rfl
@[simp] theorem Dev.setStored_ras (s : Dev) (n : Nat) (f : Option Stored) : (s.setStored n f).ras = s.ras := rfl
@[simp] theorem Dev.setStored_sap (s : Dev) (n : Nat) (f : Option Stored) : (s.setStored n f).sap = s.sap := rfl
@[simp] theorem Dev.setStored_upd (s : Dev) (n : Nat) (f : Option Stored) : (s.setStored n f).upd = s.upd := rfl
@[simp] theorem Dev.setStored_reads (s : Dev) (n : Nat) (f : Option Stored) : (s.setStored n f).reads = s.reads := rfl
@[simp] theorem Dev.setStored_draws (s : Dev) (n : Nat) (f : Option Stored) : (s.setStored n f).draws = s.draws := rfl
@[simp] theorem Dev.setStored_reg (s : Dev) (n : Nat) (f : Option Stored) (at_ : Nat) : (s.setStored n f).reg at_ = s.reg at_ := rfl
@[simp] theorem Dev.setStored_rb (s : Dev) (n : Nat) (f : Option Stored) (at_ j : Nat) : (s.setStored n f).rb at_ j = s.rb at_ j := rfl
@[simp] theorem Dev.setStored_rf (s : Dev) (n : Nat) (f : Option Stored) (at_ p q : Nat) : (s.setStored n f).rf at_ p q = s.rf at_ p q := rfl
@[simp] theorem Dev.setStored_word (s : Dev) (n : Nat) (f : Option Stored) (at_ : Nat) : (s.setStored n f).word at_ = s.word at_ := rfl

@[simp] theorem Dev.setTq_variant (s : Dev) (q : Nat) (v : TrunkQueue) : (s.setTq q v).variant = s.variant := rfl
@[simp] theorem Dev.setTq_regs (s : Dev) (q : Nat) (v : TrunkQueue) : (s.setTq q v).regs = s.regs := rfl
@[simp] theorem Dev.setTq_words (s : Dev) (q : Nat) (v : TrunkQueue) : (s.setTq q v).words = s.words := rfl
@[simp] theorem Dev.setTq_lower (s : Dev) (q : Nat) (v : TrunkQueue) : (s.setTq q v).lower = s.lower := rfl
@[simp] theorem Dev.setTq_clocks (s : Dev) (q : Nat) (v : TrunkQueue) : (s.setTq q v).clocks = s.clocks := rfl
@[simp] theorem Dev.setTq_basjo (s : Dev) (q : Nat) (v : TrunkQueue) : (s.setTq q v).basjo = s.basjo := rfl
@[simp] theorem Dev.setTq_cam (s : Dev) (q : Nat) (v : TrunkQueue) : (s.setTq q v).cam = s.cam := rfl
@[simp] theorem Dev.setTq_audit (s : Dev) (q : Nat) (v : TrunkQueue) : (s.setTq q v).audit = s.audit := rfl
@[simp] theorem Dev.setTq_burl (s : Dev) (q : Nat) (v : TrunkQueue) : (s.setTq q v).burl = s.burl := rfl
@[simp] theorem Dev.setTq_ports (s : Dev) (q : Nat) (v : TrunkQueue) : (s.setTq q v).ports = s.ports := rfl
@[simp] theorem Dev.setTq_polls (s : Dev) (q : Nat) (v : TrunkQueue) : (s.setTq q v).polls = s.polls := rfl
@[simp] theorem Dev.setTq_rx (s : Dev) (q : Nat) (v : TrunkQueue) : (s.setTq q v).rx = s.rx := rfl
@[simp] theorem Dev.setTq_passed (s : Dev) (q : Nat) (v : TrunkQueue) : (s.setTq q v).passed = s.passed := rfl
@[simp] theorem Dev.setTq_groves (s : Dev) (q : Nat) (v : TrunkQueue) : (s.setTq q v).groves = s.groves := rfl
@[simp] theorem Dev.setTq_crown (s : Dev) (q : Nat) (v : TrunkQueue) : (s.setTq q v).crown = s.crown := rfl
@[simp] theorem Dev.setTq_bark (s : Dev) (q : Nat) (v : TrunkQueue) : (s.setTq q v).bark = s.bark := rfl
@[simp] theorem Dev.setTq_slowq (s : Dev) (q : Nat) (v : TrunkQueue) : (s.setTq q v).slowq = s.slowq := rfl
@[simp] theorem Dev.setTq_decap (s : Dev) (q : Nat) (v : TrunkQueue) : (s.setTq q v).decap = s.decap := rfl
@[simp] theorem Dev.setTq_out (s : Dev) (q : Nat) (v : TrunkQueue) : (s.setTq q v).out = s.out := rfl
@[simp] theorem Dev.setTq_roots (s : Dev) (q : Nat) (v : TrunkQueue) : (s.setTq q v).roots = s.roots := rfl
@[simp] theorem Dev.setTq_tap (s : Dev) (q : Nat) (v : TrunkQueue) : (s.setTq q v).tap = s.tap := rfl
@[simp] theorem Dev.setTq_canopy (s : Dev) (q : Nat) (v : TrunkQueue) : (s.setTq q v).canopy = s.canopy := rfl
@[simp] theorem Dev.setTq_ras (s : Dev) (q : Nat) (v : TrunkQueue) : (s.setTq q v).ras = s.ras := rfl
@[simp] theorem Dev.setTq_sap (s : Dev) (q : Nat) (v : TrunkQueue) : (s.setTq q v).sap = s.sap := rfl
@[simp] theorem Dev.setTq_upd (s : Dev) (q : Nat) (v : TrunkQueue) : (s.setTq q v).upd = s.upd := rfl
@[simp] theorem Dev.setTq_reads (s : Dev) (q : Nat) (v : TrunkQueue) : (s.setTq q v).reads = s.reads := rfl
@[simp] theorem Dev.setTq_draws (s : Dev) (q : Nat) (v : TrunkQueue) : (s.setTq q v).draws = s.draws := rfl
@[simp] theorem Dev.setTq_reg (s : Dev) (q : Nat) (v : TrunkQueue) (at_ : Nat) : (s.setTq q v).reg at_ = s.reg at_ := rfl
@[simp] theorem Dev.setTq_rb (s : Dev) (q : Nat) (v : TrunkQueue) (at_ j : Nat) : (s.setTq q v).rb at_ j = s.rb at_ j := rfl
@[simp] theorem Dev.setTq_rf (s : Dev) (q : Nat) (v : TrunkQueue) (at_ p q : Nat) : (s.setTq q v).rf at_ p q = s.rf at_ p q := rfl
@[simp] theorem Dev.setTq_word (s : Dev) (q : Nat) (v : TrunkQueue) (at_ : Nat) : (s.setTq q v).word at_ = s.word at_ := rfl

@[simp] theorem Dev.setNext_variant (s : Dev) (q : Nat) (n : BitVec 16) : (s.setNext q n).variant = s.variant := rfl
@[simp] theorem Dev.setNext_words (s : Dev) (q : Nat) (n : BitVec 16) : (s.setNext q n).words = s.words := rfl
@[simp] theorem Dev.setNext_lower (s : Dev) (q : Nat) (n : BitVec 16) : (s.setNext q n).lower = s.lower := rfl
@[simp] theorem Dev.setNext_clocks (s : Dev) (q : Nat) (n : BitVec 16) : (s.setNext q n).clocks = s.clocks := rfl
@[simp] theorem Dev.setNext_basjo (s : Dev) (q : Nat) (n : BitVec 16) : (s.setNext q n).basjo = s.basjo := rfl
@[simp] theorem Dev.setNext_cam (s : Dev) (q : Nat) (n : BitVec 16) : (s.setNext q n).cam = s.cam := rfl
@[simp] theorem Dev.setNext_audit (s : Dev) (q : Nat) (n : BitVec 16) : (s.setNext q n).audit = s.audit := rfl
@[simp] theorem Dev.setNext_burl (s : Dev) (q : Nat) (n : BitVec 16) : (s.setNext q n).burl = s.burl := rfl
@[simp] theorem Dev.setNext_ports (s : Dev) (q : Nat) (n : BitVec 16) : (s.setNext q n).ports = s.ports := rfl
@[simp] theorem Dev.setNext_polls (s : Dev) (q : Nat) (n : BitVec 16) : (s.setNext q n).polls = s.polls := rfl
@[simp] theorem Dev.setNext_rx (s : Dev) (q : Nat) (n : BitVec 16) : (s.setNext q n).rx = s.rx := rfl
@[simp] theorem Dev.setNext_passed (s : Dev) (q : Nat) (n : BitVec 16) : (s.setNext q n).passed = s.passed := rfl
@[simp] theorem Dev.setNext_groves (s : Dev) (q : Nat) (n : BitVec 16) : (s.setNext q n).groves = s.groves := rfl
@[simp] theorem Dev.setNext_trunk (s : Dev) (q : Nat) (n : BitVec 16) : (s.setNext q n).trunk = s.trunk := rfl
@[simp] theorem Dev.setNext_crown (s : Dev) (q : Nat) (n : BitVec 16) : (s.setNext q n).crown = s.crown := rfl
@[simp] theorem Dev.setNext_bark (s : Dev) (q : Nat) (n : BitVec 16) : (s.setNext q n).bark = s.bark := rfl
@[simp] theorem Dev.setNext_slowq (s : Dev) (q : Nat) (n : BitVec 16) : (s.setNext q n).slowq = s.slowq := rfl
@[simp] theorem Dev.setNext_decap (s : Dev) (q : Nat) (n : BitVec 16) : (s.setNext q n).decap = s.decap := rfl
@[simp] theorem Dev.setNext_out (s : Dev) (q : Nat) (n : BitVec 16) : (s.setNext q n).out = s.out := rfl
@[simp] theorem Dev.setNext_roots (s : Dev) (q : Nat) (n : BitVec 16) : (s.setNext q n).roots = s.roots := rfl
@[simp] theorem Dev.setNext_tap (s : Dev) (q : Nat) (n : BitVec 16) : (s.setNext q n).tap = s.tap := rfl
@[simp] theorem Dev.setNext_canopy (s : Dev) (q : Nat) (n : BitVec 16) : (s.setNext q n).canopy = s.canopy := rfl
@[simp] theorem Dev.setNext_ras (s : Dev) (q : Nat) (n : BitVec 16) : (s.setNext q n).ras = s.ras := rfl
@[simp] theorem Dev.setNext_sap (s : Dev) (q : Nat) (n : BitVec 16) : (s.setNext q n).sap = s.sap := rfl
@[simp] theorem Dev.setNext_upd (s : Dev) (q : Nat) (n : BitVec 16) : (s.setNext q n).upd = s.upd := rfl
@[simp] theorem Dev.setNext_reads (s : Dev) (q : Nat) (n : BitVec 16) : (s.setNext q n).reads = s.reads := rfl
@[simp] theorem Dev.setNext_draws (s : Dev) (q : Nat) (n : BitVec 16) : (s.setNext q n).draws = s.draws := rfl
@[simp] theorem Dev.setNext_word (s : Dev) (q : Nat) (n : BitVec 16) (at_ : Nat) : (s.setNext q n).word at_ = s.word at_ := rfl

@[simp] theorem Dev.setHist_variant (s : Dev) (q : Nat) (h : QHist) : (s.setHist q h).variant = s.variant := rfl
@[simp] theorem Dev.setHist_regs (s : Dev) (q : Nat) (h : QHist) : (s.setHist q h).regs = s.regs := rfl
@[simp] theorem Dev.setHist_words (s : Dev) (q : Nat) (h : QHist) : (s.setHist q h).words = s.words := rfl
@[simp] theorem Dev.setHist_lower (s : Dev) (q : Nat) (h : QHist) : (s.setHist q h).lower = s.lower := rfl
@[simp] theorem Dev.setHist_clocks (s : Dev) (q : Nat) (h : QHist) : (s.setHist q h).clocks = s.clocks := rfl
@[simp] theorem Dev.setHist_basjo (s : Dev) (q : Nat) (h : QHist) : (s.setHist q h).basjo = s.basjo := rfl
@[simp] theorem Dev.setHist_cam (s : Dev) (q : Nat) (h : QHist) : (s.setHist q h).cam = s.cam := rfl
@[simp] theorem Dev.setHist_audit (s : Dev) (q : Nat) (h : QHist) : (s.setHist q h).audit = s.audit := rfl
@[simp] theorem Dev.setHist_burl (s : Dev) (q : Nat) (h : QHist) : (s.setHist q h).burl = s.burl := rfl
@[simp] theorem Dev.setHist_ports (s : Dev) (q : Nat) (h : QHist) : (s.setHist q h).ports = s.ports := rfl
@[simp] theorem Dev.setHist_polls (s : Dev) (q : Nat) (h : QHist) : (s.setHist q h).polls = s.polls := rfl
@[simp] theorem Dev.setHist_rx (s : Dev) (q : Nat) (h : QHist) : (s.setHist q h).rx = s.rx := rfl
@[simp] theorem Dev.setHist_passed (s : Dev) (q : Nat) (h : QHist) : (s.setHist q h).passed = s.passed := rfl
@[simp] theorem Dev.setHist_groves (s : Dev) (q : Nat) (h : QHist) : (s.setHist q h).groves = s.groves := rfl
@[simp] theorem Dev.setHist_trunk (s : Dev) (q : Nat) (h : QHist) : (s.setHist q h).trunk = s.trunk := rfl
@[simp] theorem Dev.setHist_bark (s : Dev) (q : Nat) (h : QHist) : (s.setHist q h).bark = s.bark := rfl
@[simp] theorem Dev.setHist_slowq (s : Dev) (q : Nat) (h : QHist) : (s.setHist q h).slowq = s.slowq := rfl
@[simp] theorem Dev.setHist_decap (s : Dev) (q : Nat) (h : QHist) : (s.setHist q h).decap = s.decap := rfl
@[simp] theorem Dev.setHist_out (s : Dev) (q : Nat) (h : QHist) : (s.setHist q h).out = s.out := rfl
@[simp] theorem Dev.setHist_roots (s : Dev) (q : Nat) (h : QHist) : (s.setHist q h).roots = s.roots := rfl
@[simp] theorem Dev.setHist_tap (s : Dev) (q : Nat) (h : QHist) : (s.setHist q h).tap = s.tap := rfl
@[simp] theorem Dev.setHist_canopy (s : Dev) (q : Nat) (h : QHist) : (s.setHist q h).canopy = s.canopy := rfl
@[simp] theorem Dev.setHist_ras (s : Dev) (q : Nat) (h : QHist) : (s.setHist q h).ras = s.ras := rfl
@[simp] theorem Dev.setHist_sap (s : Dev) (q : Nat) (h : QHist) : (s.setHist q h).sap = s.sap := rfl
@[simp] theorem Dev.setHist_upd (s : Dev) (q : Nat) (h : QHist) : (s.setHist q h).upd = s.upd := rfl
@[simp] theorem Dev.setHist_reads (s : Dev) (q : Nat) (h : QHist) : (s.setHist q h).reads = s.reads := rfl
@[simp] theorem Dev.setHist_draws (s : Dev) (q : Nat) (h : QHist) : (s.setHist q h).draws = s.draws := rfl
@[simp] theorem Dev.setHist_reg (s : Dev) (q : Nat) (h : QHist) (at_ : Nat) : (s.setHist q h).reg at_ = s.reg at_ := rfl
@[simp] theorem Dev.setHist_rb (s : Dev) (q : Nat) (h : QHist) (at_ j : Nat) : (s.setHist q h).rb at_ j = s.rb at_ j := rfl
@[simp] theorem Dev.setHist_rf (s : Dev) (q : Nat) (h : QHist) (at_ p q : Nat) : (s.setHist q h).rf at_ p q = s.rf at_ p q := rfl
@[simp] theorem Dev.setHist_word (s : Dev) (q : Nat) (h : QHist) (at_ : Nat) : (s.setHist q h).word at_ = s.word at_ := rfl

@[simp] theorem Dev.setCq_variant (s : Dev) (q : Nat) (v : CrownQueue) : (s.setCq q v).variant = s.variant := rfl
@[simp] theorem Dev.setCq_regs (s : Dev) (q : Nat) (v : CrownQueue) : (s.setCq q v).regs = s.regs := rfl
@[simp] theorem Dev.setCq_words (s : Dev) (q : Nat) (v : CrownQueue) : (s.setCq q v).words = s.words := rfl
@[simp] theorem Dev.setCq_lower (s : Dev) (q : Nat) (v : CrownQueue) : (s.setCq q v).lower = s.lower := rfl
@[simp] theorem Dev.setCq_clocks (s : Dev) (q : Nat) (v : CrownQueue) : (s.setCq q v).clocks = s.clocks := rfl
@[simp] theorem Dev.setCq_basjo (s : Dev) (q : Nat) (v : CrownQueue) : (s.setCq q v).basjo = s.basjo := rfl
@[simp] theorem Dev.setCq_cam (s : Dev) (q : Nat) (v : CrownQueue) : (s.setCq q v).cam = s.cam := rfl
@[simp] theorem Dev.setCq_audit (s : Dev) (q : Nat) (v : CrownQueue) : (s.setCq q v).audit = s.audit := rfl
@[simp] theorem Dev.setCq_burl (s : Dev) (q : Nat) (v : CrownQueue) : (s.setCq q v).burl = s.burl := rfl
@[simp] theorem Dev.setCq_ports (s : Dev) (q : Nat) (v : CrownQueue) : (s.setCq q v).ports = s.ports := rfl
@[simp] theorem Dev.setCq_polls (s : Dev) (q : Nat) (v : CrownQueue) : (s.setCq q v).polls = s.polls := rfl
@[simp] theorem Dev.setCq_rx (s : Dev) (q : Nat) (v : CrownQueue) : (s.setCq q v).rx = s.rx := rfl
@[simp] theorem Dev.setCq_passed (s : Dev) (q : Nat) (v : CrownQueue) : (s.setCq q v).passed = s.passed := rfl
@[simp] theorem Dev.setCq_groves (s : Dev) (q : Nat) (v : CrownQueue) : (s.setCq q v).groves = s.groves := rfl
@[simp] theorem Dev.setCq_trunk (s : Dev) (q : Nat) (v : CrownQueue) : (s.setCq q v).trunk = s.trunk := rfl
@[simp] theorem Dev.setCq_bark (s : Dev) (q : Nat) (v : CrownQueue) : (s.setCq q v).bark = s.bark := rfl
@[simp] theorem Dev.setCq_slowq (s : Dev) (q : Nat) (v : CrownQueue) : (s.setCq q v).slowq = s.slowq := rfl
@[simp] theorem Dev.setCq_decap (s : Dev) (q : Nat) (v : CrownQueue) : (s.setCq q v).decap = s.decap := rfl
@[simp] theorem Dev.setCq_out (s : Dev) (q : Nat) (v : CrownQueue) : (s.setCq q v).out = s.out := rfl
@[simp] theorem Dev.setCq_roots (s : Dev) (q : Nat) (v : CrownQueue) : (s.setCq q v).roots = s.roots := rfl
@[simp] theorem Dev.setCq_tap (s : Dev) (q : Nat) (v : CrownQueue) : (s.setCq q v).tap = s.tap := rfl
@[simp] theorem Dev.setCq_canopy (s : Dev) (q : Nat) (v : CrownQueue) : (s.setCq q v).canopy = s.canopy := rfl
@[simp] theorem Dev.setCq_ras (s : Dev) (q : Nat) (v : CrownQueue) : (s.setCq q v).ras = s.ras := rfl
@[simp] theorem Dev.setCq_sap (s : Dev) (q : Nat) (v : CrownQueue) : (s.setCq q v).sap = s.sap := rfl
@[simp] theorem Dev.setCq_upd (s : Dev) (q : Nat) (v : CrownQueue) : (s.setCq q v).upd = s.upd := rfl
@[simp] theorem Dev.setCq_reads (s : Dev) (q : Nat) (v : CrownQueue) : (s.setCq q v).reads = s.reads := rfl
@[simp] theorem Dev.setCq_draws (s : Dev) (q : Nat) (v : CrownQueue) : (s.setCq q v).draws = s.draws := rfl
@[simp] theorem Dev.setCq_reg (s : Dev) (q : Nat) (v : CrownQueue) (at_ : Nat) : (s.setCq q v).reg at_ = s.reg at_ := rfl
@[simp] theorem Dev.setCq_rb (s : Dev) (q : Nat) (v : CrownQueue) (at_ j : Nat) : (s.setCq q v).rb at_ j = s.rb at_ j := rfl
@[simp] theorem Dev.setCq_rf (s : Dev) (q : Nat) (v : CrownQueue) (at_ p q : Nat) : (s.setCq q v).rf at_ p q = s.rf at_ p q := rfl
@[simp] theorem Dev.setCq_word (s : Dev) (q : Nat) (v : CrownQueue) (at_ : Nat) : (s.setCq q v).word at_ = s.word at_ := rfl

@[simp] theorem Dev.setPps_variant (s : Dev) (k : Nat) (v : Option (Int × Bool)) : (s.setPps k v).variant = s.variant := rfl
@[simp] theorem Dev.setPps_regs (s : Dev) (k : Nat) (v : Option (Int × Bool)) : (s.setPps k v).regs = s.regs := rfl
@[simp] theorem Dev.setPps_words (s : Dev) (k : Nat) (v : Option (Int × Bool)) : (s.setPps k v).words = s.words := rfl
@[simp] theorem Dev.setPps_lower (s : Dev) (k : Nat) (v : Option (Int × Bool)) : (s.setPps k v).lower = s.lower := rfl
@[simp] theorem Dev.setPps_clocks (s : Dev) (k : Nat) (v : Option (Int × Bool)) : (s.setPps k v).clocks = s.clocks := rfl
@[simp] theorem Dev.setPps_basjo (s : Dev) (k : Nat) (v : Option (Int × Bool)) : (s.setPps k v).basjo = s.basjo := rfl
@[simp] theorem Dev.setPps_audit (s : Dev) (k : Nat) (v : Option (Int × Bool)) : (s.setPps k v).audit = s.audit := rfl
@[simp] theorem Dev.setPps_burl (s : Dev) (k : Nat) (v : Option (Int × Bool)) : (s.setPps k v).burl = s.burl := rfl
@[simp] theorem Dev.setPps_ports (s : Dev) (k : Nat) (v : Option (Int × Bool)) : (s.setPps k v).ports = s.ports := rfl
@[simp] theorem Dev.setPps_polls (s : Dev) (k : Nat) (v : Option (Int × Bool)) : (s.setPps k v).polls = s.polls := rfl
@[simp] theorem Dev.setPps_rx (s : Dev) (k : Nat) (v : Option (Int × Bool)) : (s.setPps k v).rx = s.rx := rfl
@[simp] theorem Dev.setPps_passed (s : Dev) (k : Nat) (v : Option (Int × Bool)) : (s.setPps k v).passed = s.passed := rfl
@[simp] theorem Dev.setPps_groves (s : Dev) (k : Nat) (v : Option (Int × Bool)) : (s.setPps k v).groves = s.groves := rfl
@[simp] theorem Dev.setPps_trunk (s : Dev) (k : Nat) (v : Option (Int × Bool)) : (s.setPps k v).trunk = s.trunk := rfl
@[simp] theorem Dev.setPps_crown (s : Dev) (k : Nat) (v : Option (Int × Bool)) : (s.setPps k v).crown = s.crown := rfl
@[simp] theorem Dev.setPps_bark (s : Dev) (k : Nat) (v : Option (Int × Bool)) : (s.setPps k v).bark = s.bark := rfl
@[simp] theorem Dev.setPps_slowq (s : Dev) (k : Nat) (v : Option (Int × Bool)) : (s.setPps k v).slowq = s.slowq := rfl
@[simp] theorem Dev.setPps_decap (s : Dev) (k : Nat) (v : Option (Int × Bool)) : (s.setPps k v).decap = s.decap := rfl
@[simp] theorem Dev.setPps_out (s : Dev) (k : Nat) (v : Option (Int × Bool)) : (s.setPps k v).out = s.out := rfl
@[simp] theorem Dev.setPps_roots (s : Dev) (k : Nat) (v : Option (Int × Bool)) : (s.setPps k v).roots = s.roots := rfl
@[simp] theorem Dev.setPps_tap (s : Dev) (k : Nat) (v : Option (Int × Bool)) : (s.setPps k v).tap = s.tap := rfl
@[simp] theorem Dev.setPps_canopy (s : Dev) (k : Nat) (v : Option (Int × Bool)) : (s.setPps k v).canopy = s.canopy := rfl
@[simp] theorem Dev.setPps_ras (s : Dev) (k : Nat) (v : Option (Int × Bool)) : (s.setPps k v).ras = s.ras := rfl
@[simp] theorem Dev.setPps_sap (s : Dev) (k : Nat) (v : Option (Int × Bool)) : (s.setPps k v).sap = s.sap := rfl
@[simp] theorem Dev.setPps_upd (s : Dev) (k : Nat) (v : Option (Int × Bool)) : (s.setPps k v).upd = s.upd := rfl
@[simp] theorem Dev.setPps_reads (s : Dev) (k : Nat) (v : Option (Int × Bool)) : (s.setPps k v).reads = s.reads := rfl
@[simp] theorem Dev.setPps_draws (s : Dev) (k : Nat) (v : Option (Int × Bool)) : (s.setPps k v).draws = s.draws := rfl
@[simp] theorem Dev.setPps_reg (s : Dev) (k : Nat) (v : Option (Int × Bool)) (at_ : Nat) : (s.setPps k v).reg at_ = s.reg at_ := rfl
@[simp] theorem Dev.setPps_rb (s : Dev) (k : Nat) (v : Option (Int × Bool)) (at_ j : Nat) : (s.setPps k v).rb at_ j = s.rb at_ j := rfl
@[simp] theorem Dev.setPps_rf (s : Dev) (k : Nat) (v : Option (Int × Bool)) (at_ p q : Nat) : (s.setPps k v).rf at_ p q = s.rf at_ p q := rfl
@[simp] theorem Dev.setPps_word (s : Dev) (k : Nat) (v : Option (Int × Bool)) (at_ : Nat) : (s.setPps k v).word at_ = s.word at_ := rfl

@[simp] theorem Dev.setLinRun_variant (s : Dev) (l : Nat) (r : LinRun) : (s.setLinRun l r).variant = s.variant := rfl
@[simp] theorem Dev.setLinRun_regs (s : Dev) (l : Nat) (r : LinRun) : (s.setLinRun l r).regs = s.regs := rfl
@[simp] theorem Dev.setLinRun_words (s : Dev) (l : Nat) (r : LinRun) : (s.setLinRun l r).words = s.words := rfl
@[simp] theorem Dev.setLinRun_lower (s : Dev) (l : Nat) (r : LinRun) : (s.setLinRun l r).lower = s.lower := rfl
@[simp] theorem Dev.setLinRun_clocks (s : Dev) (l : Nat) (r : LinRun) : (s.setLinRun l r).clocks = s.clocks := rfl
@[simp] theorem Dev.setLinRun_basjo (s : Dev) (l : Nat) (r : LinRun) : (s.setLinRun l r).basjo = s.basjo := rfl
@[simp] theorem Dev.setLinRun_cam (s : Dev) (l : Nat) (r : LinRun) : (s.setLinRun l r).cam = s.cam := rfl
@[simp] theorem Dev.setLinRun_audit (s : Dev) (l : Nat) (r : LinRun) : (s.setLinRun l r).audit = s.audit := rfl
@[simp] theorem Dev.setLinRun_burl (s : Dev) (l : Nat) (r : LinRun) : (s.setLinRun l r).burl = s.burl := rfl
@[simp] theorem Dev.setLinRun_ports (s : Dev) (l : Nat) (r : LinRun) : (s.setLinRun l r).ports = s.ports := rfl
@[simp] theorem Dev.setLinRun_polls (s : Dev) (l : Nat) (r : LinRun) : (s.setLinRun l r).polls = s.polls := rfl
@[simp] theorem Dev.setLinRun_rx (s : Dev) (l : Nat) (r : LinRun) : (s.setLinRun l r).rx = s.rx := rfl
@[simp] theorem Dev.setLinRun_passed (s : Dev) (l : Nat) (r : LinRun) : (s.setLinRun l r).passed = s.passed := rfl
@[simp] theorem Dev.setLinRun_groves (s : Dev) (l : Nat) (r : LinRun) : (s.setLinRun l r).groves = s.groves := rfl
@[simp] theorem Dev.setLinRun_trunk (s : Dev) (l : Nat) (r : LinRun) : (s.setLinRun l r).trunk = s.trunk := rfl
@[simp] theorem Dev.setLinRun_crown (s : Dev) (l : Nat) (r : LinRun) : (s.setLinRun l r).crown = s.crown := rfl
@[simp] theorem Dev.setLinRun_bark (s : Dev) (l : Nat) (r : LinRun) : (s.setLinRun l r).bark = s.bark := rfl
@[simp] theorem Dev.setLinRun_slowq (s : Dev) (l : Nat) (r : LinRun) : (s.setLinRun l r).slowq = s.slowq := rfl
@[simp] theorem Dev.setLinRun_decap (s : Dev) (l : Nat) (r : LinRun) : (s.setLinRun l r).decap = s.decap := rfl
@[simp] theorem Dev.setLinRun_out (s : Dev) (l : Nat) (r : LinRun) : (s.setLinRun l r).out = s.out := rfl
@[simp] theorem Dev.setLinRun_tap (s : Dev) (l : Nat) (r : LinRun) : (s.setLinRun l r).tap = s.tap := rfl
@[simp] theorem Dev.setLinRun_canopy (s : Dev) (l : Nat) (r : LinRun) : (s.setLinRun l r).canopy = s.canopy := rfl
@[simp] theorem Dev.setLinRun_ras (s : Dev) (l : Nat) (r : LinRun) : (s.setLinRun l r).ras = s.ras := rfl
@[simp] theorem Dev.setLinRun_sap (s : Dev) (l : Nat) (r : LinRun) : (s.setLinRun l r).sap = s.sap := rfl
@[simp] theorem Dev.setLinRun_upd (s : Dev) (l : Nat) (r : LinRun) : (s.setLinRun l r).upd = s.upd := rfl
@[simp] theorem Dev.setLinRun_reads (s : Dev) (l : Nat) (r : LinRun) : (s.setLinRun l r).reads = s.reads := rfl
@[simp] theorem Dev.setLinRun_draws (s : Dev) (l : Nat) (r : LinRun) : (s.setLinRun l r).draws = s.draws := rfl
@[simp] theorem Dev.setLinRun_reg (s : Dev) (l : Nat) (r : LinRun) (at_ : Nat) : (s.setLinRun l r).reg at_ = s.reg at_ := rfl
@[simp] theorem Dev.setLinRun_rb (s : Dev) (l : Nat) (r : LinRun) (at_ j : Nat) : (s.setLinRun l r).rb at_ j = s.rb at_ j := rfl
@[simp] theorem Dev.setLinRun_rf (s : Dev) (l : Nat) (r : LinRun) (at_ p q : Nat) : (s.setLinRun l r).rf at_ p q = s.rf at_ p q := rfl
@[simp] theorem Dev.setLinRun_word (s : Dev) (l : Nat) (r : LinRun) (at_ : Nat) : (s.setLinRun l r).word at_ = s.word at_ := rfl

@[simp] theorem Dev.setAuth_variant (s : Dev) (i : Nat) (e : Option AuthEntry) : (s.setAuth i e).variant = s.variant := rfl
@[simp] theorem Dev.setAuth_regs (s : Dev) (i : Nat) (e : Option AuthEntry) : (s.setAuth i e).regs = s.regs := rfl
@[simp] theorem Dev.setAuth_words (s : Dev) (i : Nat) (e : Option AuthEntry) : (s.setAuth i e).words = s.words := rfl
@[simp] theorem Dev.setAuth_lower (s : Dev) (i : Nat) (e : Option AuthEntry) : (s.setAuth i e).lower = s.lower := rfl
@[simp] theorem Dev.setAuth_clocks (s : Dev) (i : Nat) (e : Option AuthEntry) : (s.setAuth i e).clocks = s.clocks := rfl
@[simp] theorem Dev.setAuth_basjo (s : Dev) (i : Nat) (e : Option AuthEntry) : (s.setAuth i e).basjo = s.basjo := rfl
@[simp] theorem Dev.setAuth_cam (s : Dev) (i : Nat) (e : Option AuthEntry) : (s.setAuth i e).cam = s.cam := rfl
@[simp] theorem Dev.setAuth_audit (s : Dev) (i : Nat) (e : Option AuthEntry) : (s.setAuth i e).audit = s.audit := rfl
@[simp] theorem Dev.setAuth_burl (s : Dev) (i : Nat) (e : Option AuthEntry) : (s.setAuth i e).burl = s.burl := rfl
@[simp] theorem Dev.setAuth_ports (s : Dev) (i : Nat) (e : Option AuthEntry) : (s.setAuth i e).ports = s.ports := rfl
@[simp] theorem Dev.setAuth_polls (s : Dev) (i : Nat) (e : Option AuthEntry) : (s.setAuth i e).polls = s.polls := rfl
@[simp] theorem Dev.setAuth_rx (s : Dev) (i : Nat) (e : Option AuthEntry) : (s.setAuth i e).rx = s.rx := rfl
@[simp] theorem Dev.setAuth_passed (s : Dev) (i : Nat) (e : Option AuthEntry) : (s.setAuth i e).passed = s.passed := rfl
@[simp] theorem Dev.setAuth_groves (s : Dev) (i : Nat) (e : Option AuthEntry) : (s.setAuth i e).groves = s.groves := rfl
@[simp] theorem Dev.setAuth_trunk (s : Dev) (i : Nat) (e : Option AuthEntry) : (s.setAuth i e).trunk = s.trunk := rfl
@[simp] theorem Dev.setAuth_crown (s : Dev) (i : Nat) (e : Option AuthEntry) : (s.setAuth i e).crown = s.crown := rfl
@[simp] theorem Dev.setAuth_bark (s : Dev) (i : Nat) (e : Option AuthEntry) : (s.setAuth i e).bark = s.bark := rfl
@[simp] theorem Dev.setAuth_slowq (s : Dev) (i : Nat) (e : Option AuthEntry) : (s.setAuth i e).slowq = s.slowq := rfl
@[simp] theorem Dev.setAuth_decap (s : Dev) (i : Nat) (e : Option AuthEntry) : (s.setAuth i e).decap = s.decap := rfl
@[simp] theorem Dev.setAuth_out (s : Dev) (i : Nat) (e : Option AuthEntry) : (s.setAuth i e).out = s.out := rfl
@[simp] theorem Dev.setAuth_tap (s : Dev) (i : Nat) (e : Option AuthEntry) : (s.setAuth i e).tap = s.tap := rfl
@[simp] theorem Dev.setAuth_canopy (s : Dev) (i : Nat) (e : Option AuthEntry) : (s.setAuth i e).canopy = s.canopy := rfl
@[simp] theorem Dev.setAuth_ras (s : Dev) (i : Nat) (e : Option AuthEntry) : (s.setAuth i e).ras = s.ras := rfl
@[simp] theorem Dev.setAuth_sap (s : Dev) (i : Nat) (e : Option AuthEntry) : (s.setAuth i e).sap = s.sap := rfl
@[simp] theorem Dev.setAuth_upd (s : Dev) (i : Nat) (e : Option AuthEntry) : (s.setAuth i e).upd = s.upd := rfl
@[simp] theorem Dev.setAuth_reads (s : Dev) (i : Nat) (e : Option AuthEntry) : (s.setAuth i e).reads = s.reads := rfl
@[simp] theorem Dev.setAuth_draws (s : Dev) (i : Nat) (e : Option AuthEntry) : (s.setAuth i e).draws = s.draws := rfl
@[simp] theorem Dev.setAuth_reg (s : Dev) (i : Nat) (e : Option AuthEntry) (at_ : Nat) : (s.setAuth i e).reg at_ = s.reg at_ := rfl
@[simp] theorem Dev.setAuth_rb (s : Dev) (i : Nat) (e : Option AuthEntry) (at_ j : Nat) : (s.setAuth i e).rb at_ j = s.rb at_ j := rfl
@[simp] theorem Dev.setAuth_rf (s : Dev) (i : Nat) (e : Option AuthEntry) (at_ p q : Nat) : (s.setAuth i e).rf at_ p q = s.rf at_ p q := rfl
@[simp] theorem Dev.setAuth_word (s : Dev) (i : Nat) (e : Option AuthEntry) (at_ : Nat) : (s.setAuth i e).word at_ = s.word at_ := rfl

@[simp] theorem Dev.setBatch_variant (s : Dev) (n : Nat) (b : Option Batch) : (s.setBatch n b).variant = s.variant := rfl
@[simp] theorem Dev.setBatch_regs (s : Dev) (n : Nat) (b : Option Batch) : (s.setBatch n b).regs = s.regs := rfl
@[simp] theorem Dev.setBatch_words (s : Dev) (n : Nat) (b : Option Batch) : (s.setBatch n b).words = s.words := rfl
@[simp] theorem Dev.setBatch_lower (s : Dev) (n : Nat) (b : Option Batch) : (s.setBatch n b).lower = s.lower := rfl
@[simp] theorem Dev.setBatch_clocks (s : Dev) (n : Nat) (b : Option Batch) : (s.setBatch n b).clocks = s.clocks := rfl
@[simp] theorem Dev.setBatch_basjo (s : Dev) (n : Nat) (b : Option Batch) : (s.setBatch n b).basjo = s.basjo := rfl
@[simp] theorem Dev.setBatch_cam (s : Dev) (n : Nat) (b : Option Batch) : (s.setBatch n b).cam = s.cam := rfl
@[simp] theorem Dev.setBatch_audit (s : Dev) (n : Nat) (b : Option Batch) : (s.setBatch n b).audit = s.audit := rfl
@[simp] theorem Dev.setBatch_burl (s : Dev) (n : Nat) (b : Option Batch) : (s.setBatch n b).burl = s.burl := rfl
@[simp] theorem Dev.setBatch_ports (s : Dev) (n : Nat) (b : Option Batch) : (s.setBatch n b).ports = s.ports := rfl
@[simp] theorem Dev.setBatch_polls (s : Dev) (n : Nat) (b : Option Batch) : (s.setBatch n b).polls = s.polls := rfl
@[simp] theorem Dev.setBatch_rx (s : Dev) (n : Nat) (b : Option Batch) : (s.setBatch n b).rx = s.rx := rfl
@[simp] theorem Dev.setBatch_passed (s : Dev) (n : Nat) (b : Option Batch) : (s.setBatch n b).passed = s.passed := rfl
@[simp] theorem Dev.setBatch_groves (s : Dev) (n : Nat) (b : Option Batch) : (s.setBatch n b).groves = s.groves := rfl
@[simp] theorem Dev.setBatch_trunk (s : Dev) (n : Nat) (b : Option Batch) : (s.setBatch n b).trunk = s.trunk := rfl
@[simp] theorem Dev.setBatch_crown (s : Dev) (n : Nat) (b : Option Batch) : (s.setBatch n b).crown = s.crown := rfl
@[simp] theorem Dev.setBatch_bark (s : Dev) (n : Nat) (b : Option Batch) : (s.setBatch n b).bark = s.bark := rfl
@[simp] theorem Dev.setBatch_slowq (s : Dev) (n : Nat) (b : Option Batch) : (s.setBatch n b).slowq = s.slowq := rfl
@[simp] theorem Dev.setBatch_decap (s : Dev) (n : Nat) (b : Option Batch) : (s.setBatch n b).decap = s.decap := rfl
@[simp] theorem Dev.setBatch_out (s : Dev) (n : Nat) (b : Option Batch) : (s.setBatch n b).out = s.out := rfl
@[simp] theorem Dev.setBatch_tap (s : Dev) (n : Nat) (b : Option Batch) : (s.setBatch n b).tap = s.tap := rfl
@[simp] theorem Dev.setBatch_canopy (s : Dev) (n : Nat) (b : Option Batch) : (s.setBatch n b).canopy = s.canopy := rfl
@[simp] theorem Dev.setBatch_ras (s : Dev) (n : Nat) (b : Option Batch) : (s.setBatch n b).ras = s.ras := rfl
@[simp] theorem Dev.setBatch_sap (s : Dev) (n : Nat) (b : Option Batch) : (s.setBatch n b).sap = s.sap := rfl
@[simp] theorem Dev.setBatch_upd (s : Dev) (n : Nat) (b : Option Batch) : (s.setBatch n b).upd = s.upd := rfl
@[simp] theorem Dev.setBatch_reads (s : Dev) (n : Nat) (b : Option Batch) : (s.setBatch n b).reads = s.reads := rfl
@[simp] theorem Dev.setBatch_draws (s : Dev) (n : Nat) (b : Option Batch) : (s.setBatch n b).draws = s.draws := rfl
@[simp] theorem Dev.setBatch_reg (s : Dev) (n : Nat) (b : Option Batch) (at_ : Nat) : (s.setBatch n b).reg at_ = s.reg at_ := rfl
@[simp] theorem Dev.setBatch_rb (s : Dev) (n : Nat) (b : Option Batch) (at_ j : Nat) : (s.setBatch n b).rb at_ j = s.rb at_ j := rfl
@[simp] theorem Dev.setBatch_rf (s : Dev) (n : Nat) (b : Option Batch) (at_ p q : Nat) : (s.setBatch n b).rf at_ p q = s.rf at_ p q := rfl
@[simp] theorem Dev.setBatch_word (s : Dev) (n : Nat) (b : Option Batch) (at_ : Nat) : (s.setBatch n b).word at_ = s.word at_ := rfl

@[simp] theorem Dev.setRasUnit_variant (s : Dev) (c u : Nat) (x : RasUnit) : (s.setRasUnit c u x).variant = s.variant := rfl
@[simp] theorem Dev.setRasUnit_regs (s : Dev) (c u : Nat) (x : RasUnit) : (s.setRasUnit c u x).regs = s.regs := rfl
@[simp] theorem Dev.setRasUnit_words (s : Dev) (c u : Nat) (x : RasUnit) : (s.setRasUnit c u x).words = s.words := rfl
@[simp] theorem Dev.setRasUnit_lower (s : Dev) (c u : Nat) (x : RasUnit) : (s.setRasUnit c u x).lower = s.lower := rfl
@[simp] theorem Dev.setRasUnit_clocks (s : Dev) (c u : Nat) (x : RasUnit) : (s.setRasUnit c u x).clocks = s.clocks := rfl
@[simp] theorem Dev.setRasUnit_basjo (s : Dev) (c u : Nat) (x : RasUnit) : (s.setRasUnit c u x).basjo = s.basjo := rfl
@[simp] theorem Dev.setRasUnit_cam (s : Dev) (c u : Nat) (x : RasUnit) : (s.setRasUnit c u x).cam = s.cam := rfl
@[simp] theorem Dev.setRasUnit_audit (s : Dev) (c u : Nat) (x : RasUnit) : (s.setRasUnit c u x).audit = s.audit := rfl
@[simp] theorem Dev.setRasUnit_burl (s : Dev) (c u : Nat) (x : RasUnit) : (s.setRasUnit c u x).burl = s.burl := rfl
@[simp] theorem Dev.setRasUnit_ports (s : Dev) (c u : Nat) (x : RasUnit) : (s.setRasUnit c u x).ports = s.ports := rfl
@[simp] theorem Dev.setRasUnit_polls (s : Dev) (c u : Nat) (x : RasUnit) : (s.setRasUnit c u x).polls = s.polls := rfl
@[simp] theorem Dev.setRasUnit_rx (s : Dev) (c u : Nat) (x : RasUnit) : (s.setRasUnit c u x).rx = s.rx := rfl
@[simp] theorem Dev.setRasUnit_passed (s : Dev) (c u : Nat) (x : RasUnit) : (s.setRasUnit c u x).passed = s.passed := rfl
@[simp] theorem Dev.setRasUnit_groves (s : Dev) (c u : Nat) (x : RasUnit) : (s.setRasUnit c u x).groves = s.groves := rfl
@[simp] theorem Dev.setRasUnit_trunk (s : Dev) (c u : Nat) (x : RasUnit) : (s.setRasUnit c u x).trunk = s.trunk := rfl
@[simp] theorem Dev.setRasUnit_crown (s : Dev) (c u : Nat) (x : RasUnit) : (s.setRasUnit c u x).crown = s.crown := rfl
@[simp] theorem Dev.setRasUnit_bark (s : Dev) (c u : Nat) (x : RasUnit) : (s.setRasUnit c u x).bark = s.bark := rfl
@[simp] theorem Dev.setRasUnit_slowq (s : Dev) (c u : Nat) (x : RasUnit) : (s.setRasUnit c u x).slowq = s.slowq := rfl
@[simp] theorem Dev.setRasUnit_decap (s : Dev) (c u : Nat) (x : RasUnit) : (s.setRasUnit c u x).decap = s.decap := rfl
@[simp] theorem Dev.setRasUnit_out (s : Dev) (c u : Nat) (x : RasUnit) : (s.setRasUnit c u x).out = s.out := rfl
@[simp] theorem Dev.setRasUnit_roots (s : Dev) (c u : Nat) (x : RasUnit) : (s.setRasUnit c u x).roots = s.roots := rfl
@[simp] theorem Dev.setRasUnit_tap (s : Dev) (c u : Nat) (x : RasUnit) : (s.setRasUnit c u x).tap = s.tap := rfl
@[simp] theorem Dev.setRasUnit_canopy (s : Dev) (c u : Nat) (x : RasUnit) : (s.setRasUnit c u x).canopy = s.canopy := rfl
@[simp] theorem Dev.setRasUnit_sap (s : Dev) (c u : Nat) (x : RasUnit) : (s.setRasUnit c u x).sap = s.sap := rfl
@[simp] theorem Dev.setRasUnit_upd (s : Dev) (c u : Nat) (x : RasUnit) : (s.setRasUnit c u x).upd = s.upd := rfl
@[simp] theorem Dev.setRasUnit_reads (s : Dev) (c u : Nat) (x : RasUnit) : (s.setRasUnit c u x).reads = s.reads := rfl
@[simp] theorem Dev.setRasUnit_draws (s : Dev) (c u : Nat) (x : RasUnit) : (s.setRasUnit c u x).draws = s.draws := rfl
@[simp] theorem Dev.setRasUnit_reg (s : Dev) (c u : Nat) (x : RasUnit) (at_ : Nat) : (s.setRasUnit c u x).reg at_ = s.reg at_ := rfl
@[simp] theorem Dev.setRasUnit_rb (s : Dev) (c u : Nat) (x : RasUnit) (at_ j : Nat) : (s.setRasUnit c u x).rb at_ j = s.rb at_ j := rfl
@[simp] theorem Dev.setRasUnit_rf (s : Dev) (c u : Nat) (x : RasUnit) (at_ p q : Nat) : (s.setRasUnit c u x).rf at_ p q = s.rf at_ p q := rfl
@[simp] theorem Dev.setRasUnit_word (s : Dev) (c u : Nat) (x : RasUnit) (at_ : Nat) : (s.setRasUnit c u x).word at_ = s.word at_ := rfl

@[simp] theorem Dev.onRas_variant (s : Dev) (f : Ras → Ras) : (s.onRas f).variant = s.variant := rfl
@[simp] theorem Dev.onRas_regs (s : Dev) (f : Ras → Ras) : (s.onRas f).regs = s.regs := rfl
@[simp] theorem Dev.onRas_words (s : Dev) (f : Ras → Ras) : (s.onRas f).words = s.words := rfl
@[simp] theorem Dev.onRas_lower (s : Dev) (f : Ras → Ras) : (s.onRas f).lower = s.lower := rfl
@[simp] theorem Dev.onRas_clocks (s : Dev) (f : Ras → Ras) : (s.onRas f).clocks = s.clocks := rfl
@[simp] theorem Dev.onRas_basjo (s : Dev) (f : Ras → Ras) : (s.onRas f).basjo = s.basjo := rfl
@[simp] theorem Dev.onRas_cam (s : Dev) (f : Ras → Ras) : (s.onRas f).cam = s.cam := rfl
@[simp] theorem Dev.onRas_audit (s : Dev) (f : Ras → Ras) : (s.onRas f).audit = s.audit := rfl
@[simp] theorem Dev.onRas_burl (s : Dev) (f : Ras → Ras) : (s.onRas f).burl = s.burl := rfl
@[simp] theorem Dev.onRas_ports (s : Dev) (f : Ras → Ras) : (s.onRas f).ports = s.ports := rfl
@[simp] theorem Dev.onRas_polls (s : Dev) (f : Ras → Ras) : (s.onRas f).polls = s.polls := rfl
@[simp] theorem Dev.onRas_rx (s : Dev) (f : Ras → Ras) : (s.onRas f).rx = s.rx := rfl
@[simp] theorem Dev.onRas_passed (s : Dev) (f : Ras → Ras) : (s.onRas f).passed = s.passed := rfl
@[simp] theorem Dev.onRas_groves (s : Dev) (f : Ras → Ras) : (s.onRas f).groves = s.groves := rfl
@[simp] theorem Dev.onRas_trunk (s : Dev) (f : Ras → Ras) : (s.onRas f).trunk = s.trunk := rfl
@[simp] theorem Dev.onRas_crown (s : Dev) (f : Ras → Ras) : (s.onRas f).crown = s.crown := rfl
@[simp] theorem Dev.onRas_bark (s : Dev) (f : Ras → Ras) : (s.onRas f).bark = s.bark := rfl
@[simp] theorem Dev.onRas_slowq (s : Dev) (f : Ras → Ras) : (s.onRas f).slowq = s.slowq := rfl
@[simp] theorem Dev.onRas_decap (s : Dev) (f : Ras → Ras) : (s.onRas f).decap = s.decap := rfl
@[simp] theorem Dev.onRas_out (s : Dev) (f : Ras → Ras) : (s.onRas f).out = s.out := rfl
@[simp] theorem Dev.onRas_roots (s : Dev) (f : Ras → Ras) : (s.onRas f).roots = s.roots := rfl
@[simp] theorem Dev.onRas_tap (s : Dev) (f : Ras → Ras) : (s.onRas f).tap = s.tap := rfl
@[simp] theorem Dev.onRas_canopy (s : Dev) (f : Ras → Ras) : (s.onRas f).canopy = s.canopy := rfl
@[simp] theorem Dev.onRas_sap (s : Dev) (f : Ras → Ras) : (s.onRas f).sap = s.sap := rfl
@[simp] theorem Dev.onRas_upd (s : Dev) (f : Ras → Ras) : (s.onRas f).upd = s.upd := rfl
@[simp] theorem Dev.onRas_reads (s : Dev) (f : Ras → Ras) : (s.onRas f).reads = s.reads := rfl
@[simp] theorem Dev.onRas_draws (s : Dev) (f : Ras → Ras) : (s.onRas f).draws = s.draws := rfl
@[simp] theorem Dev.onRas_reg (s : Dev) (f : Ras → Ras) (at_ : Nat) : (s.onRas f).reg at_ = s.reg at_ := rfl
@[simp] theorem Dev.onRas_rb (s : Dev) (f : Ras → Ras) (at_ j : Nat) : (s.onRas f).rb at_ j = s.rb at_ j := rfl
@[simp] theorem Dev.onRas_rf (s : Dev) (f : Ras → Ras) (at_ p q : Nat) : (s.onRas f).rf at_ p q = s.rf at_ p q := rfl
@[simp] theorem Dev.onRas_word (s : Dev) (f : Ras → Ras) (at_ : Nat) : (s.onRas f).word at_ = s.word at_ := rfl

@[simp] theorem Dev.logCommand_variant (s : Dev) (d : CmdDesc) (op k st : Nat) : (s.logCommand d op k st).variant = s.variant := rfl
@[simp] theorem Dev.logCommand_regs (s : Dev) (d : CmdDesc) (op k st : Nat) : (s.logCommand d op k st).regs = s.regs := rfl
@[simp] theorem Dev.logCommand_words (s : Dev) (d : CmdDesc) (op k st : Nat) : (s.logCommand d op k st).words = s.words := rfl
@[simp] theorem Dev.logCommand_lower (s : Dev) (d : CmdDesc) (op k st : Nat) : (s.logCommand d op k st).lower = s.lower := rfl
@[simp] theorem Dev.logCommand_clocks (s : Dev) (d : CmdDesc) (op k st : Nat) : (s.logCommand d op k st).clocks = s.clocks := rfl
@[simp] theorem Dev.logCommand_cam (s : Dev) (d : CmdDesc) (op k st : Nat) : (s.logCommand d op k st).cam = s.cam := rfl
@[simp] theorem Dev.logCommand_burl (s : Dev) (d : CmdDesc) (op k st : Nat) : (s.logCommand d op k st).burl = s.burl := rfl
@[simp] theorem Dev.logCommand_ports (s : Dev) (d : CmdDesc) (op k st : Nat) : (s.logCommand d op k st).ports = s.ports := rfl
@[simp] theorem Dev.logCommand_polls (s : Dev) (d : CmdDesc) (op k st : Nat) : (s.logCommand d op k st).polls = s.polls := rfl
@[simp] theorem Dev.logCommand_rx (s : Dev) (d : CmdDesc) (op k st : Nat) : (s.logCommand d op k st).rx = s.rx := rfl
@[simp] theorem Dev.logCommand_passed (s : Dev) (d : CmdDesc) (op k st : Nat) : (s.logCommand d op k st).passed = s.passed := rfl
@[simp] theorem Dev.logCommand_groves (s : Dev) (d : CmdDesc) (op k st : Nat) : (s.logCommand d op k st).groves = s.groves := rfl
@[simp] theorem Dev.logCommand_trunk (s : Dev) (d : CmdDesc) (op k st : Nat) : (s.logCommand d op k st).trunk = s.trunk := rfl
@[simp] theorem Dev.logCommand_crown (s : Dev) (d : CmdDesc) (op k st : Nat) : (s.logCommand d op k st).crown = s.crown := rfl
@[simp] theorem Dev.logCommand_bark (s : Dev) (d : CmdDesc) (op k st : Nat) : (s.logCommand d op k st).bark = s.bark := rfl
@[simp] theorem Dev.logCommand_slowq (s : Dev) (d : CmdDesc) (op k st : Nat) : (s.logCommand d op k st).slowq = s.slowq := rfl
@[simp] theorem Dev.logCommand_decap (s : Dev) (d : CmdDesc) (op k st : Nat) : (s.logCommand d op k st).decap = s.decap := rfl
@[simp] theorem Dev.logCommand_out (s : Dev) (d : CmdDesc) (op k st : Nat) : (s.logCommand d op k st).out = s.out := rfl
@[simp] theorem Dev.logCommand_roots (s : Dev) (d : CmdDesc) (op k st : Nat) : (s.logCommand d op k st).roots = s.roots := rfl
@[simp] theorem Dev.logCommand_tap (s : Dev) (d : CmdDesc) (op k st : Nat) : (s.logCommand d op k st).tap = s.tap := rfl
@[simp] theorem Dev.logCommand_canopy (s : Dev) (d : CmdDesc) (op k st : Nat) : (s.logCommand d op k st).canopy = s.canopy := rfl
@[simp] theorem Dev.logCommand_ras (s : Dev) (d : CmdDesc) (op k st : Nat) : (s.logCommand d op k st).ras = s.ras := rfl
@[simp] theorem Dev.logCommand_sap (s : Dev) (d : CmdDesc) (op k st : Nat) : (s.logCommand d op k st).sap = s.sap := rfl
@[simp] theorem Dev.logCommand_upd (s : Dev) (d : CmdDesc) (op k st : Nat) : (s.logCommand d op k st).upd = s.upd := rfl
@[simp] theorem Dev.logCommand_reads (s : Dev) (d : CmdDesc) (op k st : Nat) : (s.logCommand d op k st).reads = s.reads := rfl
@[simp] theorem Dev.logCommand_draws (s : Dev) (d : CmdDesc) (op k st : Nat) : (s.logCommand d op k st).draws = s.draws := rfl
@[simp] theorem Dev.logCommand_reg (s : Dev) (d : CmdDesc) (op k st : Nat) (at_ : Nat) : (s.logCommand d op k st).reg at_ = s.reg at_ := rfl
@[simp] theorem Dev.logCommand_rb (s : Dev) (d : CmdDesc) (op k st : Nat) (at_ j : Nat) : (s.logCommand d op k st).rb at_ j = s.rb at_ j := rfl
@[simp] theorem Dev.logCommand_rf (s : Dev) (d : CmdDesc) (op k st : Nat) (at_ p q : Nat) : (s.logCommand d op k st).rf at_ p q = s.rf at_ p q := rfl
@[simp] theorem Dev.logCommand_word (s : Dev) (d : CmdDesc) (op k st : Nat) (at_ : Nat) : (s.logCommand d op k st).word at_ = s.word at_ := rfl

@[simp] theorem Dev.ringFault_variant (s : Dev) (h r : Nat) (dma : Bool) : (s.ringFault h r dma).variant = s.variant := rfl
@[simp] theorem Dev.ringFault_regs (s : Dev) (h r : Nat) (dma : Bool) : (s.ringFault h r dma).regs = s.regs := rfl
@[simp] theorem Dev.ringFault_words (s : Dev) (h r : Nat) (dma : Bool) : (s.ringFault h r dma).words = s.words := rfl
@[simp] theorem Dev.ringFault_lower (s : Dev) (h r : Nat) (dma : Bool) : (s.ringFault h r dma).lower = s.lower := rfl
@[simp] theorem Dev.ringFault_clocks (s : Dev) (h r : Nat) (dma : Bool) : (s.ringFault h r dma).clocks = s.clocks := rfl
@[simp] theorem Dev.ringFault_cam (s : Dev) (h r : Nat) (dma : Bool) : (s.ringFault h r dma).cam = s.cam := rfl
@[simp] theorem Dev.ringFault_audit (s : Dev) (h r : Nat) (dma : Bool) : (s.ringFault h r dma).audit = s.audit := rfl
@[simp] theorem Dev.ringFault_burl (s : Dev) (h r : Nat) (dma : Bool) : (s.ringFault h r dma).burl = s.burl := rfl
@[simp] theorem Dev.ringFault_ports (s : Dev) (h r : Nat) (dma : Bool) : (s.ringFault h r dma).ports = s.ports := rfl
@[simp] theorem Dev.ringFault_polls (s : Dev) (h r : Nat) (dma : Bool) : (s.ringFault h r dma).polls = s.polls := rfl
@[simp] theorem Dev.ringFault_rx (s : Dev) (h r : Nat) (dma : Bool) : (s.ringFault h r dma).rx = s.rx := rfl
@[simp] theorem Dev.ringFault_passed (s : Dev) (h r : Nat) (dma : Bool) : (s.ringFault h r dma).passed = s.passed := rfl
@[simp] theorem Dev.ringFault_groves (s : Dev) (h r : Nat) (dma : Bool) : (s.ringFault h r dma).groves = s.groves := rfl
@[simp] theorem Dev.ringFault_trunk (s : Dev) (h r : Nat) (dma : Bool) : (s.ringFault h r dma).trunk = s.trunk := rfl
@[simp] theorem Dev.ringFault_crown (s : Dev) (h r : Nat) (dma : Bool) : (s.ringFault h r dma).crown = s.crown := rfl
@[simp] theorem Dev.ringFault_bark (s : Dev) (h r : Nat) (dma : Bool) : (s.ringFault h r dma).bark = s.bark := rfl
@[simp] theorem Dev.ringFault_slowq (s : Dev) (h r : Nat) (dma : Bool) : (s.ringFault h r dma).slowq = s.slowq := rfl
@[simp] theorem Dev.ringFault_decap (s : Dev) (h r : Nat) (dma : Bool) : (s.ringFault h r dma).decap = s.decap := rfl
@[simp] theorem Dev.ringFault_out (s : Dev) (h r : Nat) (dma : Bool) : (s.ringFault h r dma).out = s.out := rfl
@[simp] theorem Dev.ringFault_roots (s : Dev) (h r : Nat) (dma : Bool) : (s.ringFault h r dma).roots = s.roots := rfl
@[simp] theorem Dev.ringFault_tap (s : Dev) (h r : Nat) (dma : Bool) : (s.ringFault h r dma).tap = s.tap := rfl
@[simp] theorem Dev.ringFault_canopy (s : Dev) (h r : Nat) (dma : Bool) : (s.ringFault h r dma).canopy = s.canopy := rfl
@[simp] theorem Dev.ringFault_ras (s : Dev) (h r : Nat) (dma : Bool) : (s.ringFault h r dma).ras = s.ras := rfl
@[simp] theorem Dev.ringFault_sap (s : Dev) (h r : Nat) (dma : Bool) : (s.ringFault h r dma).sap = s.sap := rfl
@[simp] theorem Dev.ringFault_upd (s : Dev) (h r : Nat) (dma : Bool) : (s.ringFault h r dma).upd = s.upd := rfl
@[simp] theorem Dev.ringFault_reads (s : Dev) (h r : Nat) (dma : Bool) : (s.ringFault h r dma).reads = s.reads := rfl
@[simp] theorem Dev.ringFault_draws (s : Dev) (h r : Nat) (dma : Bool) : (s.ringFault h r dma).draws = s.draws := rfl
@[simp] theorem Dev.ringFault_reg (s : Dev) (h r : Nat) (dma : Bool) (at_ : Nat) : (s.ringFault h r dma).reg at_ = s.reg at_ := rfl
@[simp] theorem Dev.ringFault_rb (s : Dev) (h r : Nat) (dma : Bool) (at_ j : Nat) : (s.ringFault h r dma).rb at_ j = s.rb at_ j := rfl
@[simp] theorem Dev.ringFault_rf (s : Dev) (h r : Nat) (dma : Bool) (at_ p q : Nat) : (s.ringFault h r dma).rf at_ p q = s.rf at_ p q := rfl
@[simp] theorem Dev.ringFault_word (s : Dev) (h r : Nat) (dma : Bool) (at_ : Nat) : (s.ringFault h r dma).word at_ = s.word at_ := rfl

@[simp] theorem Dev.dmaFail_variant (s : Dev) (h : Nat) : (s.dmaFail h).variant = s.variant := rfl
@[simp] theorem Dev.dmaFail_regs (s : Dev) (h : Nat) : (s.dmaFail h).regs = s.regs := rfl
@[simp] theorem Dev.dmaFail_words (s : Dev) (h : Nat) : (s.dmaFail h).words = s.words := rfl
@[simp] theorem Dev.dmaFail_lower (s : Dev) (h : Nat) : (s.dmaFail h).lower = s.lower := rfl
@[simp] theorem Dev.dmaFail_clocks (s : Dev) (h : Nat) : (s.dmaFail h).clocks = s.clocks := rfl
@[simp] theorem Dev.dmaFail_cam (s : Dev) (h : Nat) : (s.dmaFail h).cam = s.cam := rfl
@[simp] theorem Dev.dmaFail_audit (s : Dev) (h : Nat) : (s.dmaFail h).audit = s.audit := rfl
@[simp] theorem Dev.dmaFail_burl (s : Dev) (h : Nat) : (s.dmaFail h).burl = s.burl := rfl
@[simp] theorem Dev.dmaFail_ports (s : Dev) (h : Nat) : (s.dmaFail h).ports = s.ports := rfl
@[simp] theorem Dev.dmaFail_polls (s : Dev) (h : Nat) : (s.dmaFail h).polls = s.polls := rfl
@[simp] theorem Dev.dmaFail_rx (s : Dev) (h : Nat) : (s.dmaFail h).rx = s.rx := rfl
@[simp] theorem Dev.dmaFail_passed (s : Dev) (h : Nat) : (s.dmaFail h).passed = s.passed := rfl
@[simp] theorem Dev.dmaFail_groves (s : Dev) (h : Nat) : (s.dmaFail h).groves = s.groves := rfl
@[simp] theorem Dev.dmaFail_trunk (s : Dev) (h : Nat) : (s.dmaFail h).trunk = s.trunk := rfl
@[simp] theorem Dev.dmaFail_crown (s : Dev) (h : Nat) : (s.dmaFail h).crown = s.crown := rfl
@[simp] theorem Dev.dmaFail_bark (s : Dev) (h : Nat) : (s.dmaFail h).bark = s.bark := rfl
@[simp] theorem Dev.dmaFail_slowq (s : Dev) (h : Nat) : (s.dmaFail h).slowq = s.slowq := rfl
@[simp] theorem Dev.dmaFail_decap (s : Dev) (h : Nat) : (s.dmaFail h).decap = s.decap := rfl
@[simp] theorem Dev.dmaFail_out (s : Dev) (h : Nat) : (s.dmaFail h).out = s.out := rfl
@[simp] theorem Dev.dmaFail_roots (s : Dev) (h : Nat) : (s.dmaFail h).roots = s.roots := rfl
@[simp] theorem Dev.dmaFail_tap (s : Dev) (h : Nat) : (s.dmaFail h).tap = s.tap := rfl
@[simp] theorem Dev.dmaFail_canopy (s : Dev) (h : Nat) : (s.dmaFail h).canopy = s.canopy := rfl
@[simp] theorem Dev.dmaFail_ras (s : Dev) (h : Nat) : (s.dmaFail h).ras = s.ras := rfl
@[simp] theorem Dev.dmaFail_sap (s : Dev) (h : Nat) : (s.dmaFail h).sap = s.sap := rfl
@[simp] theorem Dev.dmaFail_upd (s : Dev) (h : Nat) : (s.dmaFail h).upd = s.upd := rfl
@[simp] theorem Dev.dmaFail_reads (s : Dev) (h : Nat) : (s.dmaFail h).reads = s.reads := rfl
@[simp] theorem Dev.dmaFail_draws (s : Dev) (h : Nat) : (s.dmaFail h).draws = s.draws := rfl
@[simp] theorem Dev.dmaFail_reg (s : Dev) (h : Nat) (at_ : Nat) : (s.dmaFail h).reg at_ = s.reg at_ := rfl
@[simp] theorem Dev.dmaFail_rb (s : Dev) (h : Nat) (at_ j : Nat) : (s.dmaFail h).rb at_ j = s.rb at_ j := rfl
@[simp] theorem Dev.dmaFail_rf (s : Dev) (h : Nat) (at_ p q : Nat) : (s.dmaFail h).rf at_ p q = s.rf at_ p q := rfl
@[simp] theorem Dev.dmaFail_word (s : Dev) (h : Nat) (at_ : Nat) : (s.dmaFail h).word at_ = s.word at_ := rfl

@[simp] theorem Dev.hold_variant (s : Dev) (x : HeldAccess) : (s.hold x).variant = s.variant := rfl
@[simp] theorem Dev.hold_regs (s : Dev) (x : HeldAccess) : (s.hold x).regs = s.regs := rfl
@[simp] theorem Dev.hold_words (s : Dev) (x : HeldAccess) : (s.hold x).words = s.words := rfl
@[simp] theorem Dev.hold_lower (s : Dev) (x : HeldAccess) : (s.hold x).lower = s.lower := rfl
@[simp] theorem Dev.hold_basjo (s : Dev) (x : HeldAccess) : (s.hold x).basjo = s.basjo := rfl
@[simp] theorem Dev.hold_cam (s : Dev) (x : HeldAccess) : (s.hold x).cam = s.cam := rfl
@[simp] theorem Dev.hold_audit (s : Dev) (x : HeldAccess) : (s.hold x).audit = s.audit := rfl
@[simp] theorem Dev.hold_burl (s : Dev) (x : HeldAccess) : (s.hold x).burl = s.burl := rfl
@[simp] theorem Dev.hold_ports (s : Dev) (x : HeldAccess) : (s.hold x).ports = s.ports := rfl
@[simp] theorem Dev.hold_polls (s : Dev) (x : HeldAccess) : (s.hold x).polls = s.polls := rfl
@[simp] theorem Dev.hold_rx (s : Dev) (x : HeldAccess) : (s.hold x).rx = s.rx := rfl
@[simp] theorem Dev.hold_passed (s : Dev) (x : HeldAccess) : (s.hold x).passed = s.passed := rfl
@[simp] theorem Dev.hold_groves (s : Dev) (x : HeldAccess) : (s.hold x).groves = s.groves := rfl
@[simp] theorem Dev.hold_trunk (s : Dev) (x : HeldAccess) : (s.hold x).trunk = s.trunk := rfl
@[simp] theorem Dev.hold_crown (s : Dev) (x : HeldAccess) : (s.hold x).crown = s.crown := rfl
@[simp] theorem Dev.hold_bark (s : Dev) (x : HeldAccess) : (s.hold x).bark = s.bark := rfl
@[simp] theorem Dev.hold_slowq (s : Dev) (x : HeldAccess) : (s.hold x).slowq = s.slowq := rfl
@[simp] theorem Dev.hold_decap (s : Dev) (x : HeldAccess) : (s.hold x).decap = s.decap := rfl
@[simp] theorem Dev.hold_out (s : Dev) (x : HeldAccess) : (s.hold x).out = s.out := rfl
@[simp] theorem Dev.hold_roots (s : Dev) (x : HeldAccess) : (s.hold x).roots = s.roots := rfl
@[simp] theorem Dev.hold_tap (s : Dev) (x : HeldAccess) : (s.hold x).tap = s.tap := rfl
@[simp] theorem Dev.hold_canopy (s : Dev) (x : HeldAccess) : (s.hold x).canopy = s.canopy := rfl
@[simp] theorem Dev.hold_ras (s : Dev) (x : HeldAccess) : (s.hold x).ras = s.ras := rfl
@[simp] theorem Dev.hold_sap (s : Dev) (x : HeldAccess) : (s.hold x).sap = s.sap := rfl
@[simp] theorem Dev.hold_upd (s : Dev) (x : HeldAccess) : (s.hold x).upd = s.upd := rfl
@[simp] theorem Dev.hold_reads (s : Dev) (x : HeldAccess) : (s.hold x).reads = s.reads := rfl
@[simp] theorem Dev.hold_draws (s : Dev) (x : HeldAccess) : (s.hold x).draws = s.draws := rfl
@[simp] theorem Dev.hold_reg (s : Dev) (x : HeldAccess) (at_ : Nat) : (s.hold x).reg at_ = s.reg at_ := rfl
@[simp] theorem Dev.hold_rb (s : Dev) (x : HeldAccess) (at_ j : Nat) : (s.hold x).rb at_ j = s.rb at_ j := rfl
@[simp] theorem Dev.hold_rf (s : Dev) (x : HeldAccess) (at_ p q : Nat) : (s.hold x).rf at_ p q = s.rf at_ p q := rfl
@[simp] theorem Dev.hold_word (s : Dev) (x : HeldAccess) (at_ : Nat) : (s.hold x).word at_ = s.word at_ := rfl

@[simp] theorem Dev.readGives_variant (s : Dev) (o : Nat) (v : Word) : (s.readGives o v).variant = s.variant := rfl
@[simp] theorem Dev.readGives_regs (s : Dev) (o : Nat) (v : Word) : (s.readGives o v).regs = s.regs := rfl
@[simp] theorem Dev.readGives_words (s : Dev) (o : Nat) (v : Word) : (s.readGives o v).words = s.words := rfl
@[simp] theorem Dev.readGives_lower (s : Dev) (o : Nat) (v : Word) : (s.readGives o v).lower = s.lower := rfl
@[simp] theorem Dev.readGives_clocks (s : Dev) (o : Nat) (v : Word) : (s.readGives o v).clocks = s.clocks := rfl
@[simp] theorem Dev.readGives_basjo (s : Dev) (o : Nat) (v : Word) : (s.readGives o v).basjo = s.basjo := rfl
@[simp] theorem Dev.readGives_cam (s : Dev) (o : Nat) (v : Word) : (s.readGives o v).cam = s.cam := rfl
@[simp] theorem Dev.readGives_audit (s : Dev) (o : Nat) (v : Word) : (s.readGives o v).audit = s.audit := rfl
@[simp] theorem Dev.readGives_burl (s : Dev) (o : Nat) (v : Word) : (s.readGives o v).burl = s.burl := rfl
@[simp] theorem Dev.readGives_ports (s : Dev) (o : Nat) (v : Word) : (s.readGives o v).ports = s.ports := rfl
@[simp] theorem Dev.readGives_polls (s : Dev) (o : Nat) (v : Word) : (s.readGives o v).polls = s.polls := rfl
@[simp] theorem Dev.readGives_rx (s : Dev) (o : Nat) (v : Word) : (s.readGives o v).rx = s.rx := rfl
@[simp] theorem Dev.readGives_passed (s : Dev) (o : Nat) (v : Word) : (s.readGives o v).passed = s.passed := rfl
@[simp] theorem Dev.readGives_groves (s : Dev) (o : Nat) (v : Word) : (s.readGives o v).groves = s.groves := rfl
@[simp] theorem Dev.readGives_trunk (s : Dev) (o : Nat) (v : Word) : (s.readGives o v).trunk = s.trunk := rfl
@[simp] theorem Dev.readGives_crown (s : Dev) (o : Nat) (v : Word) : (s.readGives o v).crown = s.crown := rfl
@[simp] theorem Dev.readGives_bark (s : Dev) (o : Nat) (v : Word) : (s.readGives o v).bark = s.bark := rfl
@[simp] theorem Dev.readGives_slowq (s : Dev) (o : Nat) (v : Word) : (s.readGives o v).slowq = s.slowq := rfl
@[simp] theorem Dev.readGives_decap (s : Dev) (o : Nat) (v : Word) : (s.readGives o v).decap = s.decap := rfl
@[simp] theorem Dev.readGives_out (s : Dev) (o : Nat) (v : Word) : (s.readGives o v).out = s.out := rfl
@[simp] theorem Dev.readGives_roots (s : Dev) (o : Nat) (v : Word) : (s.readGives o v).roots = s.roots := rfl
@[simp] theorem Dev.readGives_tap (s : Dev) (o : Nat) (v : Word) : (s.readGives o v).tap = s.tap := rfl
@[simp] theorem Dev.readGives_canopy (s : Dev) (o : Nat) (v : Word) : (s.readGives o v).canopy = s.canopy := rfl
@[simp] theorem Dev.readGives_ras (s : Dev) (o : Nat) (v : Word) : (s.readGives o v).ras = s.ras := rfl
@[simp] theorem Dev.readGives_sap (s : Dev) (o : Nat) (v : Word) : (s.readGives o v).sap = s.sap := rfl
@[simp] theorem Dev.readGives_upd (s : Dev) (o : Nat) (v : Word) : (s.readGives o v).upd = s.upd := rfl
@[simp] theorem Dev.readGives_draws (s : Dev) (o : Nat) (v : Word) : (s.readGives o v).draws = s.draws := rfl
@[simp] theorem Dev.readGives_reg (s : Dev) (o : Nat) (v : Word) (at_ : Nat) : (s.readGives o v).reg at_ = s.reg at_ := rfl
@[simp] theorem Dev.readGives_rb (s : Dev) (o : Nat) (v : Word) (at_ j : Nat) : (s.readGives o v).rb at_ j = s.rb at_ j := rfl
@[simp] theorem Dev.readGives_rf (s : Dev) (o : Nat) (v : Word) (at_ p q : Nat) : (s.readGives o v).rf at_ p q = s.rf at_ p q := rfl
@[simp] theorem Dev.readGives_word (s : Dev) (o : Nat) (v : Word) (at_ : Nat) : (s.readGives o v).word at_ = s.word at_ := rfl

@[simp] theorem Dev.kick_variant (s : Dev) (w : Nat) : (s.kick w).variant = s.variant := rfl
@[simp] theorem Dev.kick_regs (s : Dev) (w : Nat) : (s.kick w).regs = s.regs := rfl
@[simp] theorem Dev.kick_words (s : Dev) (w : Nat) : (s.kick w).words = s.words := rfl
@[simp] theorem Dev.kick_lower (s : Dev) (w : Nat) : (s.kick w).lower = s.lower := rfl
@[simp] theorem Dev.kick_clocks (s : Dev) (w : Nat) : (s.kick w).clocks = s.clocks := rfl
@[simp] theorem Dev.kick_basjo (s : Dev) (w : Nat) : (s.kick w).basjo = s.basjo := rfl
@[simp] theorem Dev.kick_cam (s : Dev) (w : Nat) : (s.kick w).cam = s.cam := rfl
@[simp] theorem Dev.kick_audit (s : Dev) (w : Nat) : (s.kick w).audit = s.audit := rfl
@[simp] theorem Dev.kick_burl (s : Dev) (w : Nat) : (s.kick w).burl = s.burl := rfl
@[simp] theorem Dev.kick_ports (s : Dev) (w : Nat) : (s.kick w).ports = s.ports := rfl
@[simp] theorem Dev.kick_polls (s : Dev) (w : Nat) : (s.kick w).polls = s.polls := rfl
@[simp] theorem Dev.kick_rx (s : Dev) (w : Nat) : (s.kick w).rx = s.rx := rfl
@[simp] theorem Dev.kick_passed (s : Dev) (w : Nat) : (s.kick w).passed = s.passed := rfl
@[simp] theorem Dev.kick_groves (s : Dev) (w : Nat) : (s.kick w).groves = s.groves := rfl
@[simp] theorem Dev.kick_trunk (s : Dev) (w : Nat) : (s.kick w).trunk = s.trunk := rfl
@[simp] theorem Dev.kick_crown (s : Dev) (w : Nat) : (s.kick w).crown = s.crown := rfl
@[simp] theorem Dev.kick_bark (s : Dev) (w : Nat) : (s.kick w).bark = s.bark := rfl
@[simp] theorem Dev.kick_slowq (s : Dev) (w : Nat) : (s.kick w).slowq = s.slowq := rfl
@[simp] theorem Dev.kick_decap (s : Dev) (w : Nat) : (s.kick w).decap = s.decap := rfl
@[simp] theorem Dev.kick_out (s : Dev) (w : Nat) : (s.kick w).out = s.out := rfl
@[simp] theorem Dev.kick_roots (s : Dev) (w : Nat) : (s.kick w).roots = s.roots := rfl
@[simp] theorem Dev.kick_tap (s : Dev) (w : Nat) : (s.kick w).tap = s.tap := rfl
@[simp] theorem Dev.kick_ras (s : Dev) (w : Nat) : (s.kick w).ras = s.ras := rfl
@[simp] theorem Dev.kick_sap (s : Dev) (w : Nat) : (s.kick w).sap = s.sap := rfl
@[simp] theorem Dev.kick_upd (s : Dev) (w : Nat) : (s.kick w).upd = s.upd := rfl
@[simp] theorem Dev.kick_reads (s : Dev) (w : Nat) : (s.kick w).reads = s.reads := rfl
@[simp] theorem Dev.kick_draws (s : Dev) (w : Nat) : (s.kick w).draws = s.draws := rfl
@[simp] theorem Dev.kick_reg (s : Dev) (w : Nat) (at_ : Nat) : (s.kick w).reg at_ = s.reg at_ := rfl
@[simp] theorem Dev.kick_rb (s : Dev) (w : Nat) (at_ j : Nat) : (s.kick w).rb at_ j = s.rb at_ j := rfl
@[simp] theorem Dev.kick_rf (s : Dev) (w : Nat) (at_ p q : Nat) : (s.kick w).rf at_ p q = s.rf at_ p q := rfl
@[simp] theorem Dev.kick_word (s : Dev) (w : Nat) (at_ : Nat) : (s.kick w).word at_ = s.word at_ := rfl

/-! ## Operations that act by cases -/

@[simp] theorem Dev.countDenied_variant (s : Dev) (o : Nat) : (s.countDenied o).variant = s.variant := by unfold Dev.countDenied; split <;> rfl
@[simp] theorem Dev.countDenied_regs (s : Dev) (o : Nat) : (s.countDenied o).regs = s.regs := by unfold Dev.countDenied; split <;> rfl
@[simp] theorem Dev.countDenied_words (s : Dev) (o : Nat) : (s.countDenied o).words = s.words := by unfold Dev.countDenied; split <;> rfl
@[simp] theorem Dev.countDenied_lower (s : Dev) (o : Nat) : (s.countDenied o).lower = s.lower := by unfold Dev.countDenied; split <;> rfl
@[simp] theorem Dev.countDenied_clocks (s : Dev) (o : Nat) : (s.countDenied o).clocks = s.clocks := by unfold Dev.countDenied; split <;> rfl
@[simp] theorem Dev.countDenied_cam (s : Dev) (o : Nat) : (s.countDenied o).cam = s.cam := by unfold Dev.countDenied; split <;> rfl
@[simp] theorem Dev.countDenied_audit (s : Dev) (o : Nat) : (s.countDenied o).audit = s.audit := by unfold Dev.countDenied; split <;> rfl
@[simp] theorem Dev.countDenied_burl (s : Dev) (o : Nat) : (s.countDenied o).burl = s.burl := by unfold Dev.countDenied; split <;> rfl
@[simp] theorem Dev.countDenied_ports (s : Dev) (o : Nat) : (s.countDenied o).ports = s.ports := by unfold Dev.countDenied; split <;> rfl
@[simp] theorem Dev.countDenied_polls (s : Dev) (o : Nat) : (s.countDenied o).polls = s.polls := by unfold Dev.countDenied; split <;> rfl
@[simp] theorem Dev.countDenied_rx (s : Dev) (o : Nat) : (s.countDenied o).rx = s.rx := by unfold Dev.countDenied; split <;> rfl
@[simp] theorem Dev.countDenied_passed (s : Dev) (o : Nat) : (s.countDenied o).passed = s.passed := by unfold Dev.countDenied; split <;> rfl
@[simp] theorem Dev.countDenied_groves (s : Dev) (o : Nat) : (s.countDenied o).groves = s.groves := by unfold Dev.countDenied; split <;> rfl
@[simp] theorem Dev.countDenied_trunk (s : Dev) (o : Nat) : (s.countDenied o).trunk = s.trunk := by unfold Dev.countDenied; split <;> rfl
@[simp] theorem Dev.countDenied_crown (s : Dev) (o : Nat) : (s.countDenied o).crown = s.crown := by unfold Dev.countDenied; split <;> rfl
@[simp] theorem Dev.countDenied_bark (s : Dev) (o : Nat) : (s.countDenied o).bark = s.bark := by unfold Dev.countDenied; split <;> rfl
@[simp] theorem Dev.countDenied_slowq (s : Dev) (o : Nat) : (s.countDenied o).slowq = s.slowq := by unfold Dev.countDenied; split <;> rfl
@[simp] theorem Dev.countDenied_decap (s : Dev) (o : Nat) : (s.countDenied o).decap = s.decap := by unfold Dev.countDenied; split <;> rfl
@[simp] theorem Dev.countDenied_out (s : Dev) (o : Nat) : (s.countDenied o).out = s.out := by unfold Dev.countDenied; split <;> rfl
@[simp] theorem Dev.countDenied_roots (s : Dev) (o : Nat) : (s.countDenied o).roots = s.roots := by unfold Dev.countDenied; split <;> rfl
@[simp] theorem Dev.countDenied_tap (s : Dev) (o : Nat) : (s.countDenied o).tap = s.tap := by unfold Dev.countDenied; split <;> rfl
@[simp] theorem Dev.countDenied_canopy (s : Dev) (o : Nat) : (s.countDenied o).canopy = s.canopy := by unfold Dev.countDenied; split <;> rfl
@[simp] theorem Dev.countDenied_ras (s : Dev) (o : Nat) : (s.countDenied o).ras = s.ras := by unfold Dev.countDenied; split <;> rfl
@[simp] theorem Dev.countDenied_sap (s : Dev) (o : Nat) : (s.countDenied o).sap = s.sap := by unfold Dev.countDenied; split <;> rfl
@[simp] theorem Dev.countDenied_upd (s : Dev) (o : Nat) : (s.countDenied o).upd = s.upd := by unfold Dev.countDenied; split <;> rfl
@[simp] theorem Dev.countDenied_reads (s : Dev) (o : Nat) : (s.countDenied o).reads = s.reads := by unfold Dev.countDenied; split <;> rfl
@[simp] theorem Dev.countDenied_draws (s : Dev) (o : Nat) : (s.countDenied o).draws = s.draws := by unfold Dev.countDenied; split <;> rfl
@[simp] theorem Dev.countDenied_reg (s : Dev) (o : Nat) (at_ : Nat) : (s.countDenied o).reg at_ = s.reg at_ := by simp [Dev.reg]
@[simp] theorem Dev.countDenied_rb (s : Dev) (o : Nat) (at_ j : Nat) : (s.countDenied o).rb at_ j = s.rb at_ j := by simp [Dev.rb]
@[simp] theorem Dev.countDenied_rf (s : Dev) (o : Nat) (at_ p q : Nat) : (s.countDenied o).rf at_ p q = s.rf at_ p q := by simp [Dev.rf]
@[simp] theorem Dev.countDenied_word (s : Dev) (o : Nat) (at_ : Nat) : (s.countDenied o).word at_ = s.word at_ := by simp [Dev.word]

@[simp] theorem Dev.denied_variant (s : Dev) (o cl u op tg : Nat) (x y : List Byte) : (s.denied o cl u op tg x y).variant = s.variant := by simp [Dev.denied]
@[simp] theorem Dev.denied_regs (s : Dev) (o cl u op tg : Nat) (x y : List Byte) : (s.denied o cl u op tg x y).regs = s.regs := by simp [Dev.denied]
@[simp] theorem Dev.denied_words (s : Dev) (o cl u op tg : Nat) (x y : List Byte) : (s.denied o cl u op tg x y).words = s.words := by simp [Dev.denied]
@[simp] theorem Dev.denied_lower (s : Dev) (o cl u op tg : Nat) (x y : List Byte) : (s.denied o cl u op tg x y).lower = s.lower := by simp [Dev.denied]
@[simp] theorem Dev.denied_clocks (s : Dev) (o cl u op tg : Nat) (x y : List Byte) : (s.denied o cl u op tg x y).clocks = s.clocks := by simp [Dev.denied]
@[simp] theorem Dev.denied_cam (s : Dev) (o cl u op tg : Nat) (x y : List Byte) : (s.denied o cl u op tg x y).cam = s.cam := by simp [Dev.denied]
@[simp] theorem Dev.denied_burl (s : Dev) (o cl u op tg : Nat) (x y : List Byte) : (s.denied o cl u op tg x y).burl = s.burl := by simp [Dev.denied]
@[simp] theorem Dev.denied_ports (s : Dev) (o cl u op tg : Nat) (x y : List Byte) : (s.denied o cl u op tg x y).ports = s.ports := by simp [Dev.denied]
@[simp] theorem Dev.denied_polls (s : Dev) (o cl u op tg : Nat) (x y : List Byte) : (s.denied o cl u op tg x y).polls = s.polls := by simp [Dev.denied]
@[simp] theorem Dev.denied_rx (s : Dev) (o cl u op tg : Nat) (x y : List Byte) : (s.denied o cl u op tg x y).rx = s.rx := by simp [Dev.denied]
@[simp] theorem Dev.denied_passed (s : Dev) (o cl u op tg : Nat) (x y : List Byte) : (s.denied o cl u op tg x y).passed = s.passed := by simp [Dev.denied]
@[simp] theorem Dev.denied_groves (s : Dev) (o cl u op tg : Nat) (x y : List Byte) : (s.denied o cl u op tg x y).groves = s.groves := by simp [Dev.denied]
@[simp] theorem Dev.denied_trunk (s : Dev) (o cl u op tg : Nat) (x y : List Byte) : (s.denied o cl u op tg x y).trunk = s.trunk := by simp [Dev.denied]
@[simp] theorem Dev.denied_crown (s : Dev) (o cl u op tg : Nat) (x y : List Byte) : (s.denied o cl u op tg x y).crown = s.crown := by simp [Dev.denied]
@[simp] theorem Dev.denied_bark (s : Dev) (o cl u op tg : Nat) (x y : List Byte) : (s.denied o cl u op tg x y).bark = s.bark := by simp [Dev.denied]
@[simp] theorem Dev.denied_slowq (s : Dev) (o cl u op tg : Nat) (x y : List Byte) : (s.denied o cl u op tg x y).slowq = s.slowq := by simp [Dev.denied]
@[simp] theorem Dev.denied_decap (s : Dev) (o cl u op tg : Nat) (x y : List Byte) : (s.denied o cl u op tg x y).decap = s.decap := by simp [Dev.denied]
@[simp] theorem Dev.denied_out (s : Dev) (o cl u op tg : Nat) (x y : List Byte) : (s.denied o cl u op tg x y).out = s.out := by simp [Dev.denied]
@[simp] theorem Dev.denied_roots (s : Dev) (o cl u op tg : Nat) (x y : List Byte) : (s.denied o cl u op tg x y).roots = s.roots := by simp [Dev.denied]
@[simp] theorem Dev.denied_tap (s : Dev) (o cl u op tg : Nat) (x y : List Byte) : (s.denied o cl u op tg x y).tap = s.tap := by simp [Dev.denied]
@[simp] theorem Dev.denied_canopy (s : Dev) (o cl u op tg : Nat) (x y : List Byte) : (s.denied o cl u op tg x y).canopy = s.canopy := by simp [Dev.denied]
@[simp] theorem Dev.denied_ras (s : Dev) (o cl u op tg : Nat) (x y : List Byte) : (s.denied o cl u op tg x y).ras = s.ras := by simp [Dev.denied]
@[simp] theorem Dev.denied_sap (s : Dev) (o cl u op tg : Nat) (x y : List Byte) : (s.denied o cl u op tg x y).sap = s.sap := by simp [Dev.denied]
@[simp] theorem Dev.denied_upd (s : Dev) (o cl u op tg : Nat) (x y : List Byte) : (s.denied o cl u op tg x y).upd = s.upd := by simp [Dev.denied]
@[simp] theorem Dev.denied_reads (s : Dev) (o cl u op tg : Nat) (x y : List Byte) : (s.denied o cl u op tg x y).reads = s.reads := by simp [Dev.denied]
@[simp] theorem Dev.denied_draws (s : Dev) (o cl u op tg : Nat) (x y : List Byte) : (s.denied o cl u op tg x y).draws = s.draws := by simp [Dev.denied]
@[simp] theorem Dev.denied_reg (s : Dev) (o cl u op tg : Nat) (x y : List Byte) (at_ : Nat) : (s.denied o cl u op tg x y).reg at_ = s.reg at_ := by simp [Dev.reg]
@[simp] theorem Dev.denied_rb (s : Dev) (o cl u op tg : Nat) (x y : List Byte) (at_ j : Nat) : (s.denied o cl u op tg x y).rb at_ j = s.rb at_ j := by simp [Dev.rb]
@[simp] theorem Dev.denied_rf (s : Dev) (o cl u op tg : Nat) (x y : List Byte) (at_ p q : Nat) : (s.denied o cl u op tg x y).rf at_ p q = s.rf at_ p q := by simp [Dev.rf]
@[simp] theorem Dev.denied_word (s : Dev) (o cl u op tg : Nat) (x y : List Byte) (at_ : Nat) : (s.denied o cl u op tg x y).word at_ = s.word at_ := by simp [Dev.word]

@[simp] theorem Dev.raiseOther_variant (s : Dev) (h cls cause x y : Nat) : (s.raiseOther h cls cause x y).variant = s.variant := by unfold Dev.raiseOther; split <;> rfl
@[simp] theorem Dev.raiseOther_regs (s : Dev) (h cls cause x y : Nat) : (s.raiseOther h cls cause x y).regs = s.regs := by unfold Dev.raiseOther; split <;> rfl
@[simp] theorem Dev.raiseOther_words (s : Dev) (h cls cause x y : Nat) : (s.raiseOther h cls cause x y).words = s.words := by unfold Dev.raiseOther; split <;> rfl
@[simp] theorem Dev.raiseOther_lower (s : Dev) (h cls cause x y : Nat) : (s.raiseOther h cls cause x y).lower = s.lower := by unfold Dev.raiseOther; split <;> rfl
@[simp] theorem Dev.raiseOther_clocks (s : Dev) (h cls cause x y : Nat) : (s.raiseOther h cls cause x y).clocks = s.clocks := by unfold Dev.raiseOther; split <;> rfl
@[simp] theorem Dev.raiseOther_cam (s : Dev) (h cls cause x y : Nat) : (s.raiseOther h cls cause x y).cam = s.cam := by unfold Dev.raiseOther; split <;> rfl
@[simp] theorem Dev.raiseOther_audit (s : Dev) (h cls cause x y : Nat) : (s.raiseOther h cls cause x y).audit = s.audit := by unfold Dev.raiseOther; split <;> rfl
@[simp] theorem Dev.raiseOther_burl (s : Dev) (h cls cause x y : Nat) : (s.raiseOther h cls cause x y).burl = s.burl := by unfold Dev.raiseOther; split <;> rfl
@[simp] theorem Dev.raiseOther_ports (s : Dev) (h cls cause x y : Nat) : (s.raiseOther h cls cause x y).ports = s.ports := by unfold Dev.raiseOther; split <;> rfl
@[simp] theorem Dev.raiseOther_polls (s : Dev) (h cls cause x y : Nat) : (s.raiseOther h cls cause x y).polls = s.polls := by unfold Dev.raiseOther; split <;> rfl
@[simp] theorem Dev.raiseOther_rx (s : Dev) (h cls cause x y : Nat) : (s.raiseOther h cls cause x y).rx = s.rx := by unfold Dev.raiseOther; split <;> rfl
@[simp] theorem Dev.raiseOther_passed (s : Dev) (h cls cause x y : Nat) : (s.raiseOther h cls cause x y).passed = s.passed := by unfold Dev.raiseOther; split <;> rfl
@[simp] theorem Dev.raiseOther_groves (s : Dev) (h cls cause x y : Nat) : (s.raiseOther h cls cause x y).groves = s.groves := by unfold Dev.raiseOther; split <;> rfl
@[simp] theorem Dev.raiseOther_trunk (s : Dev) (h cls cause x y : Nat) : (s.raiseOther h cls cause x y).trunk = s.trunk := by unfold Dev.raiseOther; split <;> rfl
@[simp] theorem Dev.raiseOther_crown (s : Dev) (h cls cause x y : Nat) : (s.raiseOther h cls cause x y).crown = s.crown := by unfold Dev.raiseOther; split <;> rfl
@[simp] theorem Dev.raiseOther_bark (s : Dev) (h cls cause x y : Nat) : (s.raiseOther h cls cause x y).bark = s.bark := by unfold Dev.raiseOther; split <;> rfl
@[simp] theorem Dev.raiseOther_slowq (s : Dev) (h cls cause x y : Nat) : (s.raiseOther h cls cause x y).slowq = s.slowq := by unfold Dev.raiseOther; split <;> rfl
@[simp] theorem Dev.raiseOther_decap (s : Dev) (h cls cause x y : Nat) : (s.raiseOther h cls cause x y).decap = s.decap := by unfold Dev.raiseOther; split <;> rfl
@[simp] theorem Dev.raiseOther_out (s : Dev) (h cls cause x y : Nat) : (s.raiseOther h cls cause x y).out = s.out := by unfold Dev.raiseOther; split <;> rfl
@[simp] theorem Dev.raiseOther_roots (s : Dev) (h cls cause x y : Nat) : (s.raiseOther h cls cause x y).roots = s.roots := by unfold Dev.raiseOther; split <;> rfl
@[simp] theorem Dev.raiseOther_tap (s : Dev) (h cls cause x y : Nat) : (s.raiseOther h cls cause x y).tap = s.tap := by unfold Dev.raiseOther; split <;> rfl
@[simp] theorem Dev.raiseOther_canopy (s : Dev) (h cls cause x y : Nat) : (s.raiseOther h cls cause x y).canopy = s.canopy := by unfold Dev.raiseOther; split <;> rfl
@[simp] theorem Dev.raiseOther_ras (s : Dev) (h cls cause x y : Nat) : (s.raiseOther h cls cause x y).ras = s.ras := by unfold Dev.raiseOther; split <;> rfl
@[simp] theorem Dev.raiseOther_sap (s : Dev) (h cls cause x y : Nat) : (s.raiseOther h cls cause x y).sap = s.sap := by unfold Dev.raiseOther; split <;> rfl
@[simp] theorem Dev.raiseOther_upd (s : Dev) (h cls cause x y : Nat) : (s.raiseOther h cls cause x y).upd = s.upd := by unfold Dev.raiseOther; split <;> rfl
@[simp] theorem Dev.raiseOther_reads (s : Dev) (h cls cause x y : Nat) : (s.raiseOther h cls cause x y).reads = s.reads := by unfold Dev.raiseOther; split <;> rfl
@[simp] theorem Dev.raiseOther_draws (s : Dev) (h cls cause x y : Nat) : (s.raiseOther h cls cause x y).draws = s.draws := by unfold Dev.raiseOther; split <;> rfl
@[simp] theorem Dev.raiseOther_reg (s : Dev) (h cls cause x y : Nat) (at_ : Nat) : (s.raiseOther h cls cause x y).reg at_ = s.reg at_ := by simp [Dev.reg]
@[simp] theorem Dev.raiseOther_rb (s : Dev) (h cls cause x y : Nat) (at_ j : Nat) : (s.raiseOther h cls cause x y).rb at_ j = s.rb at_ j := by simp [Dev.rb]
@[simp] theorem Dev.raiseOther_rf (s : Dev) (h cls cause x y : Nat) (at_ p q : Nat) : (s.raiseOther h cls cause x y).rf at_ p q = s.rf at_ p q := by simp [Dev.rf]
@[simp] theorem Dev.raiseOther_word (s : Dev) (h cls cause x y : Nat) (at_ : Nat) : (s.raiseOther h cls cause x y).word at_ = s.word at_ := by simp [Dev.word]

@[simp] theorem Dev.raiseRated_variant (s : Dev) (cls cause cl u sub iv : Nat) (pa pb : Nat → Nat) : (s.raiseRated cls cause cl u sub iv pa pb).variant = s.variant := by unfold Dev.raiseRated Dev.rated; dsimp only; split <;> first | rfl | (split <;> rfl)
@[simp] theorem Dev.raiseRated_regs (s : Dev) (cls cause cl u sub iv : Nat) (pa pb : Nat → Nat) : (s.raiseRated cls cause cl u sub iv pa pb).regs = s.regs := by unfold Dev.raiseRated Dev.rated; dsimp only; split <;> first | rfl | (split <;> rfl)
@[simp] theorem Dev.raiseRated_words (s : Dev) (cls cause cl u sub iv : Nat) (pa pb : Nat → Nat) : (s.raiseRated cls cause cl u sub iv pa pb).words = s.words := by unfold Dev.raiseRated Dev.rated; dsimp only; split <;> first | rfl | (split <;> rfl)
@[simp] theorem Dev.raiseRated_lower (s : Dev) (cls cause cl u sub iv : Nat) (pa pb : Nat → Nat) : (s.raiseRated cls cause cl u sub iv pa pb).lower = s.lower := by unfold Dev.raiseRated Dev.rated; dsimp only; split <;> first | rfl | (split <;> rfl)
@[simp] theorem Dev.raiseRated_clocks (s : Dev) (cls cause cl u sub iv : Nat) (pa pb : Nat → Nat) : (s.raiseRated cls cause cl u sub iv pa pb).clocks = s.clocks := by unfold Dev.raiseRated Dev.rated; dsimp only; split <;> first | rfl | (split <;> rfl)
@[simp] theorem Dev.raiseRated_cam (s : Dev) (cls cause cl u sub iv : Nat) (pa pb : Nat → Nat) : (s.raiseRated cls cause cl u sub iv pa pb).cam = s.cam := by unfold Dev.raiseRated Dev.rated; dsimp only; split <;> first | rfl | (split <;> rfl)
@[simp] theorem Dev.raiseRated_audit (s : Dev) (cls cause cl u sub iv : Nat) (pa pb : Nat → Nat) : (s.raiseRated cls cause cl u sub iv pa pb).audit = s.audit := by unfold Dev.raiseRated Dev.rated; dsimp only; split <;> first | rfl | (split <;> rfl)
@[simp] theorem Dev.raiseRated_burl (s : Dev) (cls cause cl u sub iv : Nat) (pa pb : Nat → Nat) : (s.raiseRated cls cause cl u sub iv pa pb).burl = s.burl := by unfold Dev.raiseRated Dev.rated; dsimp only; split <;> first | rfl | (split <;> rfl)
@[simp] theorem Dev.raiseRated_ports (s : Dev) (cls cause cl u sub iv : Nat) (pa pb : Nat → Nat) : (s.raiseRated cls cause cl u sub iv pa pb).ports = s.ports := by unfold Dev.raiseRated Dev.rated; dsimp only; split <;> first | rfl | (split <;> rfl)
@[simp] theorem Dev.raiseRated_polls (s : Dev) (cls cause cl u sub iv : Nat) (pa pb : Nat → Nat) : (s.raiseRated cls cause cl u sub iv pa pb).polls = s.polls := by unfold Dev.raiseRated Dev.rated; dsimp only; split <;> first | rfl | (split <;> rfl)
@[simp] theorem Dev.raiseRated_rx (s : Dev) (cls cause cl u sub iv : Nat) (pa pb : Nat → Nat) : (s.raiseRated cls cause cl u sub iv pa pb).rx = s.rx := by unfold Dev.raiseRated Dev.rated; dsimp only; split <;> first | rfl | (split <;> rfl)
@[simp] theorem Dev.raiseRated_passed (s : Dev) (cls cause cl u sub iv : Nat) (pa pb : Nat → Nat) : (s.raiseRated cls cause cl u sub iv pa pb).passed = s.passed := by unfold Dev.raiseRated Dev.rated; dsimp only; split <;> first | rfl | (split <;> rfl)
@[simp] theorem Dev.raiseRated_groves (s : Dev) (cls cause cl u sub iv : Nat) (pa pb : Nat → Nat) : (s.raiseRated cls cause cl u sub iv pa pb).groves = s.groves := by unfold Dev.raiseRated Dev.rated; dsimp only; split <;> first | rfl | (split <;> rfl)
@[simp] theorem Dev.raiseRated_trunk (s : Dev) (cls cause cl u sub iv : Nat) (pa pb : Nat → Nat) : (s.raiseRated cls cause cl u sub iv pa pb).trunk = s.trunk := by unfold Dev.raiseRated Dev.rated; dsimp only; split <;> first | rfl | (split <;> rfl)
@[simp] theorem Dev.raiseRated_crown (s : Dev) (cls cause cl u sub iv : Nat) (pa pb : Nat → Nat) : (s.raiseRated cls cause cl u sub iv pa pb).crown = s.crown := by unfold Dev.raiseRated Dev.rated; dsimp only; split <;> first | rfl | (split <;> rfl)
@[simp] theorem Dev.raiseRated_bark (s : Dev) (cls cause cl u sub iv : Nat) (pa pb : Nat → Nat) : (s.raiseRated cls cause cl u sub iv pa pb).bark = s.bark := by unfold Dev.raiseRated Dev.rated; dsimp only; split <;> first | rfl | (split <;> rfl)
@[simp] theorem Dev.raiseRated_slowq (s : Dev) (cls cause cl u sub iv : Nat) (pa pb : Nat → Nat) : (s.raiseRated cls cause cl u sub iv pa pb).slowq = s.slowq := by unfold Dev.raiseRated Dev.rated; dsimp only; split <;> first | rfl | (split <;> rfl)
@[simp] theorem Dev.raiseRated_decap (s : Dev) (cls cause cl u sub iv : Nat) (pa pb : Nat → Nat) : (s.raiseRated cls cause cl u sub iv pa pb).decap = s.decap := by unfold Dev.raiseRated Dev.rated; dsimp only; split <;> first | rfl | (split <;> rfl)
@[simp] theorem Dev.raiseRated_out (s : Dev) (cls cause cl u sub iv : Nat) (pa pb : Nat → Nat) : (s.raiseRated cls cause cl u sub iv pa pb).out = s.out := by unfold Dev.raiseRated Dev.rated; dsimp only; split <;> first | rfl | (split <;> rfl)
@[simp] theorem Dev.raiseRated_roots (s : Dev) (cls cause cl u sub iv : Nat) (pa pb : Nat → Nat) : (s.raiseRated cls cause cl u sub iv pa pb).roots = s.roots := by unfold Dev.raiseRated Dev.rated; dsimp only; split <;> first | rfl | (split <;> rfl)
@[simp] theorem Dev.raiseRated_tap (s : Dev) (cls cause cl u sub iv : Nat) (pa pb : Nat → Nat) : (s.raiseRated cls cause cl u sub iv pa pb).tap = s.tap := by unfold Dev.raiseRated Dev.rated; dsimp only; split <;> first | rfl | (split <;> rfl)
@[simp] theorem Dev.raiseRated_canopy (s : Dev) (cls cause cl u sub iv : Nat) (pa pb : Nat → Nat) : (s.raiseRated cls cause cl u sub iv pa pb).canopy = s.canopy := by unfold Dev.raiseRated Dev.rated; dsimp only; split <;> first | rfl | (split <;> rfl)
@[simp] theorem Dev.raiseRated_ras (s : Dev) (cls cause cl u sub iv : Nat) (pa pb : Nat → Nat) : (s.raiseRated cls cause cl u sub iv pa pb).ras = s.ras := by unfold Dev.raiseRated Dev.rated; dsimp only; split <;> first | rfl | (split <;> rfl)
@[simp] theorem Dev.raiseRated_sap (s : Dev) (cls cause cl u sub iv : Nat) (pa pb : Nat → Nat) : (s.raiseRated cls cause cl u sub iv pa pb).sap = s.sap := by unfold Dev.raiseRated Dev.rated; dsimp only; split <;> first | rfl | (split <;> rfl)
@[simp] theorem Dev.raiseRated_upd (s : Dev) (cls cause cl u sub iv : Nat) (pa pb : Nat → Nat) : (s.raiseRated cls cause cl u sub iv pa pb).upd = s.upd := by unfold Dev.raiseRated Dev.rated; dsimp only; split <;> first | rfl | (split <;> rfl)
@[simp] theorem Dev.raiseRated_reads (s : Dev) (cls cause cl u sub iv : Nat) (pa pb : Nat → Nat) : (s.raiseRated cls cause cl u sub iv pa pb).reads = s.reads := by unfold Dev.raiseRated Dev.rated; dsimp only; split <;> first | rfl | (split <;> rfl)
@[simp] theorem Dev.raiseRated_draws (s : Dev) (cls cause cl u sub iv : Nat) (pa pb : Nat → Nat) : (s.raiseRated cls cause cl u sub iv pa pb).draws = s.draws := by unfold Dev.raiseRated Dev.rated; dsimp only; split <;> first | rfl | (split <;> rfl)
@[simp] theorem Dev.raiseRated_reg (s : Dev) (cls cause cl u sub iv : Nat) (pa pb : Nat → Nat) (at_ : Nat) : (s.raiseRated cls cause cl u sub iv pa pb).reg at_ = s.reg at_ := by simp [Dev.reg]
@[simp] theorem Dev.raiseRated_rb (s : Dev) (cls cause cl u sub iv : Nat) (pa pb : Nat → Nat) (at_ j : Nat) : (s.raiseRated cls cause cl u sub iv pa pb).rb at_ j = s.rb at_ j := by simp [Dev.rb]
@[simp] theorem Dev.raiseRated_rf (s : Dev) (cls cause cl u sub iv : Nat) (pa pb : Nat → Nat) (at_ p q : Nat) : (s.raiseRated cls cause cl u sub iv pa pb).rf at_ p q = s.rf at_ p q := by simp [Dev.rf]
@[simp] theorem Dev.raiseRated_word (s : Dev) (cls cause cl u sub iv : Nat) (pa pb : Nat → Nat) (at_ : Nat) : (s.raiseRated cls cause cl u sub iv pa pb).word at_ = s.word at_ := by simp [Dev.word]

@[simp] theorem Dev.rxDrop_variant (s : Dev) (h t cause : Nat) : (s.rxDrop h t cause).variant = s.variant := by unfold Dev.rxDrop Dev.rated; dsimp only; repeat (first | rfl | (split <;> try simp))
@[simp] theorem Dev.rxDrop_regs (s : Dev) (h t cause : Nat) : (s.rxDrop h t cause).regs = s.regs := by unfold Dev.rxDrop Dev.rated; dsimp only; repeat (first | rfl | (split <;> try simp))
@[simp] theorem Dev.rxDrop_words (s : Dev) (h t cause : Nat) : (s.rxDrop h t cause).words = s.words := by unfold Dev.rxDrop Dev.rated; dsimp only; repeat (first | rfl | (split <;> try simp))
@[simp] theorem Dev.rxDrop_lower (s : Dev) (h t cause : Nat) : (s.rxDrop h t cause).lower = s.lower := by unfold Dev.rxDrop Dev.rated; dsimp only; repeat (first | rfl | (split <;> try simp))
@[simp] theorem Dev.rxDrop_clocks (s : Dev) (h t cause : Nat) : (s.rxDrop h t cause).clocks = s.clocks := by unfold Dev.rxDrop Dev.rated; dsimp only; repeat (first | rfl | (split <;> try simp))
@[simp] theorem Dev.rxDrop_cam (s : Dev) (h t cause : Nat) : (s.rxDrop h t cause).cam = s.cam := by unfold Dev.rxDrop Dev.rated; dsimp only; repeat (first | rfl | (split <;> try simp))
@[simp] theorem Dev.rxDrop_audit (s : Dev) (h t cause : Nat) : (s.rxDrop h t cause).audit = s.audit := by unfold Dev.rxDrop Dev.rated; dsimp only; repeat (first | rfl | (split <;> try simp))
@[simp] theorem Dev.rxDrop_burl (s : Dev) (h t cause : Nat) : (s.rxDrop h t cause).burl = s.burl := by unfold Dev.rxDrop Dev.rated; dsimp only; repeat (first | rfl | (split <;> try simp))
@[simp] theorem Dev.rxDrop_ports (s : Dev) (h t cause : Nat) : (s.rxDrop h t cause).ports = s.ports := by unfold Dev.rxDrop Dev.rated; dsimp only; repeat (first | rfl | (split <;> try simp))
@[simp] theorem Dev.rxDrop_polls (s : Dev) (h t cause : Nat) : (s.rxDrop h t cause).polls = s.polls := by unfold Dev.rxDrop Dev.rated; dsimp only; repeat (first | rfl | (split <;> try simp))
@[simp] theorem Dev.rxDrop_rx (s : Dev) (h t cause : Nat) : (s.rxDrop h t cause).rx = s.rx := by unfold Dev.rxDrop Dev.rated; dsimp only; repeat (first | rfl | (split <;> try simp))
@[simp] theorem Dev.rxDrop_passed (s : Dev) (h t cause : Nat) : (s.rxDrop h t cause).passed = s.passed := by unfold Dev.rxDrop Dev.rated; dsimp only; repeat (first | rfl | (split <;> try simp))
@[simp] theorem Dev.rxDrop_groves (s : Dev) (h t cause : Nat) : (s.rxDrop h t cause).groves = s.groves := by unfold Dev.rxDrop Dev.rated; dsimp only; repeat (first | rfl | (split <;> try simp))
@[simp] theorem Dev.rxDrop_trunk (s : Dev) (h t cause : Nat) : (s.rxDrop h t cause).trunk = s.trunk := by unfold Dev.rxDrop Dev.rated; dsimp only; repeat (first | rfl | (split <;> try simp))
@[simp] theorem Dev.rxDrop_crown (s : Dev) (h t cause : Nat) : (s.rxDrop h t cause).crown = s.crown := by unfold Dev.rxDrop Dev.rated; dsimp only; repeat (first | rfl | (split <;> try simp))
@[simp] theorem Dev.rxDrop_bark (s : Dev) (h t cause : Nat) : (s.rxDrop h t cause).bark = s.bark := by unfold Dev.rxDrop Dev.rated; dsimp only; repeat (first | rfl | (split <;> try simp))
@[simp] theorem Dev.rxDrop_slowq (s : Dev) (h t cause : Nat) : (s.rxDrop h t cause).slowq = s.slowq := by unfold Dev.rxDrop Dev.rated; dsimp only; repeat (first | rfl | (split <;> try simp))
@[simp] theorem Dev.rxDrop_decap (s : Dev) (h t cause : Nat) : (s.rxDrop h t cause).decap = s.decap := by unfold Dev.rxDrop Dev.rated; dsimp only; repeat (first | rfl | (split <;> try simp))
@[simp] theorem Dev.rxDrop_out (s : Dev) (h t cause : Nat) : (s.rxDrop h t cause).out = s.out := by unfold Dev.rxDrop Dev.rated; dsimp only; repeat (first | rfl | (split <;> try simp))
@[simp] theorem Dev.rxDrop_roots (s : Dev) (h t cause : Nat) : (s.rxDrop h t cause).roots = s.roots := by unfold Dev.rxDrop Dev.rated; dsimp only; repeat (first | rfl | (split <;> try simp))
@[simp] theorem Dev.rxDrop_tap (s : Dev) (h t cause : Nat) : (s.rxDrop h t cause).tap = s.tap := by unfold Dev.rxDrop Dev.rated; dsimp only; repeat (first | rfl | (split <;> try simp))
@[simp] theorem Dev.rxDrop_canopy (s : Dev) (h t cause : Nat) : (s.rxDrop h t cause).canopy = s.canopy := by unfold Dev.rxDrop Dev.rated; dsimp only; repeat (first | rfl | (split <;> try simp))
@[simp] theorem Dev.rxDrop_ras (s : Dev) (h t cause : Nat) : (s.rxDrop h t cause).ras = s.ras := by unfold Dev.rxDrop Dev.rated; dsimp only; repeat (first | rfl | (split <;> try simp))
@[simp] theorem Dev.rxDrop_sap (s : Dev) (h t cause : Nat) : (s.rxDrop h t cause).sap = s.sap := by unfold Dev.rxDrop Dev.rated; dsimp only; repeat (first | rfl | (split <;> try simp))
@[simp] theorem Dev.rxDrop_upd (s : Dev) (h t cause : Nat) : (s.rxDrop h t cause).upd = s.upd := by unfold Dev.rxDrop Dev.rated; dsimp only; repeat (first | rfl | (split <;> try simp))
@[simp] theorem Dev.rxDrop_reads (s : Dev) (h t cause : Nat) : (s.rxDrop h t cause).reads = s.reads := by unfold Dev.rxDrop Dev.rated; dsimp only; repeat (first | rfl | (split <;> try simp))
@[simp] theorem Dev.rxDrop_draws (s : Dev) (h t cause : Nat) : (s.rxDrop h t cause).draws = s.draws := by unfold Dev.rxDrop Dev.rated; dsimp only; repeat (first | rfl | (split <;> try simp))
@[simp] theorem Dev.rxDrop_reg (s : Dev) (h t cause : Nat) (at_ : Nat) : (s.rxDrop h t cause).reg at_ = s.reg at_ := by simp [Dev.reg]
@[simp] theorem Dev.rxDrop_rb (s : Dev) (h t cause : Nat) (at_ j : Nat) : (s.rxDrop h t cause).rb at_ j = s.rb at_ j := by simp [Dev.rb]
@[simp] theorem Dev.rxDrop_rf (s : Dev) (h t cause : Nat) (at_ p q : Nat) : (s.rxDrop h t cause).rf at_ p q = s.rf at_ p q := by simp [Dev.rf]
@[simp] theorem Dev.rxDrop_word (s : Dev) (h t cause : Nat) (at_ : Nat) : (s.rxDrop h t cause).word at_ = s.word at_ := by simp [Dev.word]

@[simp] theorem Dev.finish_variant (s : Dev) (d : CmdDesc) (st x y : Nat) : (s.finish d st x y).variant = s.variant := by unfold Dev.finish; dsimp only; repeat (first | rfl | split)
@[simp] theorem Dev.finish_regs (s : Dev) (d : CmdDesc) (st x y : Nat) : (s.finish d st x y).regs = s.regs := by unfold Dev.finish; dsimp only; repeat (first | rfl | split)
@[simp] theorem Dev.finish_words (s : Dev) (d : CmdDesc) (st x y : Nat) : (s.finish d st x y).words = s.words := by unfold Dev.finish; dsimp only; repeat (first | rfl | split)
@[simp] theorem Dev.finish_lower (s : Dev) (d : CmdDesc) (st x y : Nat) : (s.finish d st x y).lower = s.lower := by unfold Dev.finish; dsimp only; repeat (first | rfl | split)
@[simp] theorem Dev.finish_clocks (s : Dev) (d : CmdDesc) (st x y : Nat) : (s.finish d st x y).clocks = s.clocks := by unfold Dev.finish; dsimp only; repeat (first | rfl | split)
@[simp] theorem Dev.finish_cam (s : Dev) (d : CmdDesc) (st x y : Nat) : (s.finish d st x y).cam = s.cam := by unfold Dev.finish; dsimp only; repeat (first | rfl | split)
@[simp] theorem Dev.finish_audit (s : Dev) (d : CmdDesc) (st x y : Nat) : (s.finish d st x y).audit = s.audit := by unfold Dev.finish; dsimp only; repeat (first | rfl | split)
@[simp] theorem Dev.finish_burl (s : Dev) (d : CmdDesc) (st x y : Nat) : (s.finish d st x y).burl = s.burl := by unfold Dev.finish; dsimp only; repeat (first | rfl | split)
@[simp] theorem Dev.finish_ports (s : Dev) (d : CmdDesc) (st x y : Nat) : (s.finish d st x y).ports = s.ports := by unfold Dev.finish; dsimp only; repeat (first | rfl | split)
@[simp] theorem Dev.finish_polls (s : Dev) (d : CmdDesc) (st x y : Nat) : (s.finish d st x y).polls = s.polls := by unfold Dev.finish; dsimp only; repeat (first | rfl | split)
@[simp] theorem Dev.finish_rx (s : Dev) (d : CmdDesc) (st x y : Nat) : (s.finish d st x y).rx = s.rx := by unfold Dev.finish; dsimp only; repeat (first | rfl | split)
@[simp] theorem Dev.finish_passed (s : Dev) (d : CmdDesc) (st x y : Nat) : (s.finish d st x y).passed = s.passed := by unfold Dev.finish; dsimp only; repeat (first | rfl | split)
@[simp] theorem Dev.finish_groves (s : Dev) (d : CmdDesc) (st x y : Nat) : (s.finish d st x y).groves = s.groves := by unfold Dev.finish; dsimp only; repeat (first | rfl | split)
@[simp] theorem Dev.finish_trunk (s : Dev) (d : CmdDesc) (st x y : Nat) : (s.finish d st x y).trunk = s.trunk := by unfold Dev.finish; dsimp only; repeat (first | rfl | split)
@[simp] theorem Dev.finish_crown (s : Dev) (d : CmdDesc) (st x y : Nat) : (s.finish d st x y).crown = s.crown := by unfold Dev.finish; dsimp only; repeat (first | rfl | split)
@[simp] theorem Dev.finish_bark (s : Dev) (d : CmdDesc) (st x y : Nat) : (s.finish d st x y).bark = s.bark := by unfold Dev.finish; dsimp only; repeat (first | rfl | split)
@[simp] theorem Dev.finish_slowq (s : Dev) (d : CmdDesc) (st x y : Nat) : (s.finish d st x y).slowq = s.slowq := by unfold Dev.finish; dsimp only; repeat (first | rfl | split)
@[simp] theorem Dev.finish_decap (s : Dev) (d : CmdDesc) (st x y : Nat) : (s.finish d st x y).decap = s.decap := by unfold Dev.finish; dsimp only; repeat (first | rfl | split)
@[simp] theorem Dev.finish_out (s : Dev) (d : CmdDesc) (st x y : Nat) : (s.finish d st x y).out = s.out := by unfold Dev.finish; dsimp only; repeat (first | rfl | split)
@[simp] theorem Dev.finish_roots (s : Dev) (d : CmdDesc) (st x y : Nat) : (s.finish d st x y).roots = s.roots := by unfold Dev.finish; dsimp only; repeat (first | rfl | split)
@[simp] theorem Dev.finish_tap (s : Dev) (d : CmdDesc) (st x y : Nat) : (s.finish d st x y).tap = s.tap := by unfold Dev.finish; dsimp only; repeat (first | rfl | split)
@[simp] theorem Dev.finish_canopy (s : Dev) (d : CmdDesc) (st x y : Nat) : (s.finish d st x y).canopy = s.canopy := by unfold Dev.finish; dsimp only; repeat (first | rfl | split)
@[simp] theorem Dev.finish_ras (s : Dev) (d : CmdDesc) (st x y : Nat) : (s.finish d st x y).ras = s.ras := by unfold Dev.finish; dsimp only; repeat (first | rfl | split)
@[simp] theorem Dev.finish_sap (s : Dev) (d : CmdDesc) (st x y : Nat) : (s.finish d st x y).sap = s.sap := by unfold Dev.finish; dsimp only; repeat (first | rfl | split)
@[simp] theorem Dev.finish_upd (s : Dev) (d : CmdDesc) (st x y : Nat) : (s.finish d st x y).upd = s.upd := by unfold Dev.finish; dsimp only; repeat (first | rfl | split)
@[simp] theorem Dev.finish_reads (s : Dev) (d : CmdDesc) (st x y : Nat) : (s.finish d st x y).reads = s.reads := by unfold Dev.finish; dsimp only; repeat (first | rfl | split)
@[simp] theorem Dev.finish_draws (s : Dev) (d : CmdDesc) (st x y : Nat) : (s.finish d st x y).draws = s.draws := by unfold Dev.finish; dsimp only; repeat (first | rfl | split)
@[simp] theorem Dev.finish_reg (s : Dev) (d : CmdDesc) (st x y : Nat) (at_ : Nat) : (s.finish d st x y).reg at_ = s.reg at_ := by simp [Dev.reg]
@[simp] theorem Dev.finish_rb (s : Dev) (d : CmdDesc) (st x y : Nat) (at_ j : Nat) : (s.finish d st x y).rb at_ j = s.rb at_ j := by simp [Dev.rb]
@[simp] theorem Dev.finish_rf (s : Dev) (d : CmdDesc) (st x y : Nat) (at_ p q : Nat) : (s.finish d st x y).rf at_ p q = s.rf at_ p q := by simp [Dev.rf]
@[simp] theorem Dev.finish_word (s : Dev) (d : CmdDesc) (st x y : Nat) (at_ : Nat) : (s.finish d st x y).word at_ = s.word at_ := by simp [Dev.word]

@[simp] theorem Dev.complete_variant (s : Dev) (d : CmdDesc) (op : Nat) (k : Option Nat) (st x y : Nat) : (s.complete d op k st x y).variant = s.variant := by unfold Dev.complete; dsimp only; split <;> (try split) <;> simp
@[simp] theorem Dev.complete_regs (s : Dev) (d : CmdDesc) (op : Nat) (k : Option Nat) (st x y : Nat) : (s.complete d op k st x y).regs = s.regs := by unfold Dev.complete; dsimp only; split <;> (try split) <;> simp
@[simp] theorem Dev.complete_words (s : Dev) (d : CmdDesc) (op : Nat) (k : Option Nat) (st x y : Nat) : (s.complete d op k st x y).words = s.words := by unfold Dev.complete; dsimp only; split <;> (try split) <;> simp
@[simp] theorem Dev.complete_lower (s : Dev) (d : CmdDesc) (op : Nat) (k : Option Nat) (st x y : Nat) : (s.complete d op k st x y).lower = s.lower := by unfold Dev.complete; dsimp only; split <;> (try split) <;> simp
@[simp] theorem Dev.complete_clocks (s : Dev) (d : CmdDesc) (op : Nat) (k : Option Nat) (st x y : Nat) : (s.complete d op k st x y).clocks = s.clocks := by unfold Dev.complete; dsimp only; split <;> (try split) <;> simp
@[simp] theorem Dev.complete_cam (s : Dev) (d : CmdDesc) (op : Nat) (k : Option Nat) (st x y : Nat) : (s.complete d op k st x y).cam = s.cam := by unfold Dev.complete; dsimp only; split <;> (try split) <;> simp
@[simp] theorem Dev.complete_burl (s : Dev) (d : CmdDesc) (op : Nat) (k : Option Nat) (st x y : Nat) : (s.complete d op k st x y).burl = s.burl := by unfold Dev.complete; dsimp only; split <;> (try split) <;> simp
@[simp] theorem Dev.complete_ports (s : Dev) (d : CmdDesc) (op : Nat) (k : Option Nat) (st x y : Nat) : (s.complete d op k st x y).ports = s.ports := by unfold Dev.complete; dsimp only; split <;> (try split) <;> simp
@[simp] theorem Dev.complete_polls (s : Dev) (d : CmdDesc) (op : Nat) (k : Option Nat) (st x y : Nat) : (s.complete d op k st x y).polls = s.polls := by unfold Dev.complete; dsimp only; split <;> (try split) <;> simp
@[simp] theorem Dev.complete_rx (s : Dev) (d : CmdDesc) (op : Nat) (k : Option Nat) (st x y : Nat) : (s.complete d op k st x y).rx = s.rx := by unfold Dev.complete; dsimp only; split <;> (try split) <;> simp
@[simp] theorem Dev.complete_passed (s : Dev) (d : CmdDesc) (op : Nat) (k : Option Nat) (st x y : Nat) : (s.complete d op k st x y).passed = s.passed := by unfold Dev.complete; dsimp only; split <;> (try split) <;> simp
@[simp] theorem Dev.complete_groves (s : Dev) (d : CmdDesc) (op : Nat) (k : Option Nat) (st x y : Nat) : (s.complete d op k st x y).groves = s.groves := by unfold Dev.complete; dsimp only; split <;> (try split) <;> simp
@[simp] theorem Dev.complete_trunk (s : Dev) (d : CmdDesc) (op : Nat) (k : Option Nat) (st x y : Nat) : (s.complete d op k st x y).trunk = s.trunk := by unfold Dev.complete; dsimp only; split <;> (try split) <;> simp
@[simp] theorem Dev.complete_crown (s : Dev) (d : CmdDesc) (op : Nat) (k : Option Nat) (st x y : Nat) : (s.complete d op k st x y).crown = s.crown := by unfold Dev.complete; dsimp only; split <;> (try split) <;> simp
@[simp] theorem Dev.complete_bark (s : Dev) (d : CmdDesc) (op : Nat) (k : Option Nat) (st x y : Nat) : (s.complete d op k st x y).bark = s.bark := by unfold Dev.complete; dsimp only; split <;> (try split) <;> simp
@[simp] theorem Dev.complete_slowq (s : Dev) (d : CmdDesc) (op : Nat) (k : Option Nat) (st x y : Nat) : (s.complete d op k st x y).slowq = s.slowq := by unfold Dev.complete; dsimp only; split <;> (try split) <;> simp
@[simp] theorem Dev.complete_decap (s : Dev) (d : CmdDesc) (op : Nat) (k : Option Nat) (st x y : Nat) : (s.complete d op k st x y).decap = s.decap := by unfold Dev.complete; dsimp only; split <;> (try split) <;> simp
@[simp] theorem Dev.complete_out (s : Dev) (d : CmdDesc) (op : Nat) (k : Option Nat) (st x y : Nat) : (s.complete d op k st x y).out = s.out := by unfold Dev.complete; dsimp only; split <;> (try split) <;> simp
@[simp] theorem Dev.complete_roots (s : Dev) (d : CmdDesc) (op : Nat) (k : Option Nat) (st x y : Nat) : (s.complete d op k st x y).roots = s.roots := by unfold Dev.complete; dsimp only; split <;> (try split) <;> simp
@[simp] theorem Dev.complete_tap (s : Dev) (d : CmdDesc) (op : Nat) (k : Option Nat) (st x y : Nat) : (s.complete d op k st x y).tap = s.tap := by unfold Dev.complete; dsimp only; split <;> (try split) <;> simp
@[simp] theorem Dev.complete_canopy (s : Dev) (d : CmdDesc) (op : Nat) (k : Option Nat) (st x y : Nat) : (s.complete d op k st x y).canopy = s.canopy := by unfold Dev.complete; dsimp only; split <;> (try split) <;> simp
@[simp] theorem Dev.complete_ras (s : Dev) (d : CmdDesc) (op : Nat) (k : Option Nat) (st x y : Nat) : (s.complete d op k st x y).ras = s.ras := by unfold Dev.complete; dsimp only; split <;> (try split) <;> simp
@[simp] theorem Dev.complete_sap (s : Dev) (d : CmdDesc) (op : Nat) (k : Option Nat) (st x y : Nat) : (s.complete d op k st x y).sap = s.sap := by unfold Dev.complete; dsimp only; split <;> (try split) <;> simp
@[simp] theorem Dev.complete_upd (s : Dev) (d : CmdDesc) (op : Nat) (k : Option Nat) (st x y : Nat) : (s.complete d op k st x y).upd = s.upd := by unfold Dev.complete; dsimp only; split <;> (try split) <;> simp
@[simp] theorem Dev.complete_reads (s : Dev) (d : CmdDesc) (op : Nat) (k : Option Nat) (st x y : Nat) : (s.complete d op k st x y).reads = s.reads := by unfold Dev.complete; dsimp only; split <;> (try split) <;> simp
@[simp] theorem Dev.complete_draws (s : Dev) (d : CmdDesc) (op : Nat) (k : Option Nat) (st x y : Nat) : (s.complete d op k st x y).draws = s.draws := by unfold Dev.complete; dsimp only; split <;> (try split) <;> simp
@[simp] theorem Dev.complete_reg (s : Dev) (d : CmdDesc) (op : Nat) (k : Option Nat) (st x y : Nat) (at_ : Nat) : (s.complete d op k st x y).reg at_ = s.reg at_ := by simp [Dev.reg]
@[simp] theorem Dev.complete_rb (s : Dev) (d : CmdDesc) (op : Nat) (k : Option Nat) (st x y : Nat) (at_ j : Nat) : (s.complete d op k st x y).rb at_ j = s.rb at_ j := by simp [Dev.rb]
@[simp] theorem Dev.complete_rf (s : Dev) (d : CmdDesc) (op : Nat) (k : Option Nat) (st x y : Nat) (at_ p q : Nat) : (s.complete d op k st x y).rf at_ p q = s.rf at_ p q := by simp [Dev.rf]
@[simp] theorem Dev.complete_word (s : Dev) (d : CmdDesc) (op : Nat) (k : Option Nat) (st x y : Nat) (at_ : Nat) : (s.complete d op k st x y).word at_ = s.word at_ := by simp [Dev.word]

end Sys2Proof.Machine
end

