-- ==== Sys2Proof/Laws/Store.lean ====
section
/-! SUPPORT. The laws of a sparse table: a read after a write, and that every operation keeps the canonical form. -/
namespace Sys2Proof

variable {α : Type}

/-- A key below every key of a table. -/
def Store.below (k : Nat) (m : Store α) : Prop := ∀ e ∈ m, k < e.1

theorem Store.wf_cons [DecidableEq α] (d : Nat → α) (k : Nat) (v : α) (m : Store α) :
    Store.wf d ((k, v) :: m) = true ↔ v ≠ d k ∧ m.below k ∧ Store.wf d m = true := by
  induction m generalizing k v with
  | nil => simp [Store.wf, Store.below]
  | cons e r ih =>
    obtain ⟨k', v'⟩ := e
    simp only [Store.wf, Bool.and_eq_true, decide_eq_true_eq, ih k' v', Store.below, List.forall_mem_cons]
    constructor
    · rintro ⟨⟨h1, h2⟩, h3, h4, h5⟩
      exact ⟨h1, ⟨h2, fun e he => Nat.lt_trans h2 (h4 e he)⟩, h3, h4, h5⟩
    · rintro ⟨h1, ⟨h2, _⟩, h3, h4, h5⟩
      exact ⟨⟨h1, h2⟩, h3, h4, h5⟩

@[simp] theorem Store.wf_nil [DecidableEq α] (d : Nat → α) : Store.wf d ([] : Store α) = true := rfl

@[simp] theorem Store.get_nil (d : α) (k : Nat) : Store.get d [] k = d := rfl

theorem Store.get_drop_same (d : α) (m : Store α) (k : Nat) : Store.get d (m.drop k) k = d := by
  induction m with
  | nil => rfl
  | cons e r ih =>
    obtain ⟨k', v'⟩ := e
    by_cases h : k' = k
    · simpa [Store.drop, h] using ih
    · have hk : k ≠ k' := fun e => h e.symm
      simpa [Store.drop, h, Store.get, hk] using ih

theorem Store.get_drop_ne (d : α) (m : Store α) {k j : Nat} (hj : j ≠ k) : Store.get d (m.drop k) j = Store.get d m j := by
  induction m with
  | nil => rfl
  | cons e r ih =>
    obtain ⟨k', v'⟩ := e
    by_cases h : k' = k
    · subst h
      simpa [Store.drop, Store.get, hj] using ih
    · have ih' : Store.get d (List.filter (fun e => e.1 != k) r) j = Store.get d r j := ih
      simp [Store.drop, h, Store.get, ih']

theorem Store.get_ins_same (d : α) (m : Store α) (k : Nat) (v : α) (hk : ∀ e ∈ m, e.1 ≠ k) : Store.get d (m.ins k v) k = v := by
  induction m with
  | nil => simp [Store.ins, Store.get]
  | cons e r ih =>
    obtain ⟨k', v'⟩ := e
    have hne : k ≠ k' := fun h => hk (k', v') (by simp) h.symm
    have ih' := ih (fun e he => hk e (List.mem_cons_of_mem _ he))
    by_cases h : k < k'
    · simp [Store.ins, h, Store.get]
    · simp [Store.ins, h, Store.get, hne, ih']

theorem Store.get_ins_ne (d : α) (m : Store α) (k : Nat) (v : α) {j : Nat} (hj : j ≠ k) : Store.get d (m.ins k v) j = Store.get d m j := by
  induction m with
  | nil => simp [Store.ins, Store.get, hj]
  | cons e r ih =>
    obtain ⟨k', v'⟩ := e
    by_cases h : k < k'
    · simp [Store.ins, h, Store.get, hj]
    · simp [Store.ins, h, Store.get, ih]

/-- A read after a write to the same key gives the value written. -/
@[simp] theorem Store.get_put_same [DecidableEq α] (d : α) (m : Store α) (k : Nat) (v : α) : Store.get d (Store.put d m k v) k = v := by
  unfold Store.put
  split
  · next h => rw [Store.get_drop_same, h]
  · refine Store.get_ins_same d _ k v (fun e he => ?_)
    simpa using (List.mem_filter.mp he).2

/-- A write leaves every other key alone. -/
theorem Store.get_put_ne [DecidableEq α] (d d' : α) (m : Store α) {k j : Nat} (v : α) (hj : j ≠ k) :
    Store.get d' (Store.put d m k v) j = Store.get d' m j := by
  unfold Store.put
  split
  · exact Store.get_drop_ne d' m hj
  · rw [Store.get_ins_ne d' _ k v hj, Store.get_drop_ne d' m hj]

/-- Filtering keeps the canonical form. -/
theorem Store.wf_filter [DecidableEq α] (d : Nat → α) (p : Nat × α → Bool) (m : Store α) (h : Store.wf d m = true) :
    Store.wf d (m.filter p) = true := by
  induction m with
  | nil => rfl
  | cons e r ih =>
    obtain ⟨k, v⟩ := e
    obtain ⟨h1, h2, h3⟩ := (Store.wf_cons d k v r).mp h
    by_cases hp : p (k, v) = true
    · rw [List.filter_cons_of_pos hp, Store.wf_cons]
      exact ⟨h1, fun e he => h2 e (List.mem_filter.mp he).1, ih h3⟩
    · rw [List.filter_cons_of_neg hp]
      exact ih h3

theorem Store.wf_keep [DecidableEq α] (d : Nat → α) (p : Nat → α → Bool) (m : Store α) (h : Store.wf d m = true) :
    Store.wf d (m.keep p) = true := Store.wf_filter d _ m h

theorem Store.below_ins {j k : Nat} (m : Store α) (v : α) (hm : m.below j) (hk : j < k) : (m.ins k v).below j := by
  induction m with
  | nil => intro e he; simp [Store.ins] at he; simpa [he] using hk
  | cons e r ih =>
    obtain ⟨k', v'⟩ := e
    have hr : Store.below j r := fun e he => hm e (List.mem_cons_of_mem _ he)
    intro e he
    by_cases h : k < k'
    · simp only [Store.ins, h, if_true] at he
      rcases List.mem_cons.mp he with rfl | he
      · exact hk
      · exact hm e he
    · simp only [Store.ins, h, if_false] at he
      rcases List.mem_cons.mp he with rfl | he
      · exact hm _ (by simp)
      · exact ih hr e he

theorem Store.wf_ins [DecidableEq α] (d : Nat → α) (m : Store α) (k : Nat) (v : α) (hv : v ≠ d k) (hk : ∀ e ∈ m, e.1 ≠ k)
    (h : Store.wf d m = true) : Store.wf d (m.ins k v) = true := by
  induction m with
  | nil => simpa [Store.ins, Store.wf] using hv
  | cons e r ih =>
    obtain ⟨k', v'⟩ := e
    obtain ⟨h1, h2, h3⟩ := (Store.wf_cons d k' v' r).mp h
    by_cases hlt : k < k'
    · simp only [Store.ins, hlt, if_true]
      rw [Store.wf_cons]
      refine ⟨hv, fun e he => ?_, h⟩
      rcases List.mem_cons.mp he with rfl | he
      · exact hlt
      · exact Nat.lt_trans hlt (h2 e he)
    · simp only [Store.ins, hlt, if_false]
      rw [Store.wf_cons]
      have hne : k' ≠ k := hk (k', v') (by simp)
      exact ⟨h1, Store.below_ins r v h2 (by omega), ih (fun e he => hk e (List.mem_cons_of_mem _ he)) h3⟩

/-- A write keeps the canonical form. -/
theorem Store.wf_put [DecidableEq α] (d : Nat → α) (m : Store α) (k : Nat) (v : α) (h : Store.wf d m = true) :
    Store.wf d (Store.put (d k) m k v) = true := by
  have hd := Store.wf_filter d (fun e => e.1 != k) m h
  unfold Store.put
  split
  · exact hd
  · next hv => exact Store.wf_ins d _ k v hv (fun e he => by simpa using (List.mem_filter.mp he).2) hd

end Sys2Proof
end

