-- ==== Sys2Proof/Laws/Regs.lean ====
section
/-! SUPPORT. Registers, their bits and their fields: what a read gives after a write. -/
namespace Sys2Proof.Machine

/-! ## Words -/

theorem fldMask_getLsbD (n hi lo i : Nat) :
    (fldMask n hi lo).getLsbD i = (decide (i < n) && (decide (lo ≤ i) && decide (i - lo < hi + 1 - lo))) := by
  unfold fldMask
  rw [BitVec.getLsbD_ofNat, Nat.testBit_mul_two_pow, Nat.testBit_two_pow_sub_one]

theorem setFld_getLsbD {n : Nat} (w : BitVec n) (hi lo v i : Nat) (hi' : i < n) :
    (setFld w hi lo v).getLsbD i = if lo ≤ i ∧ i ≤ hi then v.testBit (i - lo) else w.getLsbD i := by
  unfold setFld
  simp only [BitVec.getLsbD_or, BitVec.getLsbD_and, BitVec.getLsbD_not, fldMask_getLsbD, BitVec.getLsbD_ofNat, Nat.testBit_mul_two_pow]
  by_cases h : lo ≤ i ∧ i ≤ hi
  · have : i - lo < hi + 1 - lo := by omega
    simp [h, hi', this]
  · by_cases h1 : lo ≤ i
    · have : ¬ (i - lo < hi + 1 - lo) := by omega
      have h2 : ¬ i ≤ hi := fun e => h ⟨h1, e⟩
      simp [h1, h2, hi', this]
    · simp [h1, hi']

theorem fld_testBit {n : Nat} (w : BitVec n) (hi lo j : Nat) :
    (fld w hi lo).testBit j = (decide (j < hi + 1 - lo) && w.getLsbD (j + lo)) := by
  unfold fld
  rw [Nat.testBit_mod_two_pow, Nat.testBit_div_two_pow, BitVec.getLsbD]

theorem fld_setFld_same {n : Nat} (w : BitVec n) (hi lo v : Nat) (hn : hi < n) :
    fld (setFld w hi lo v) hi lo = v % 2 ^ (hi + 1 - lo) := by
  apply Nat.eq_of_testBit_eq
  intro j
  rw [fld_testBit, Nat.testBit_mod_two_pow]
  by_cases hj : j < hi + 1 - lo
  · rw [setFld_getLsbD w hi lo v (j + lo) (by omega)]
    have : lo ≤ j + lo ∧ j + lo ≤ hi := by omega
    simp [hj, this]
  · simp [hj]

theorem fld_setFld_out {n : Nat} (w : BitVec n) (hi lo v p q : Nat) (hd : p < lo ∨ hi < q) (hp : p < n) :
    fld (setFld w hi lo v) p q = fld w p q := by
  apply Nat.eq_of_testBit_eq
  intro j
  rw [fld_testBit, fld_testBit]
  by_cases hj : j < p + 1 - q
  · rw [setFld_getLsbD w hi lo v (j + q) (by omega)]
    have : ¬ (lo ≤ j + q ∧ j + q ≤ hi) := by omega
    simp [this]
  · simp [hj]

theorem bit_setFld_out {n : Nat} (w : BitVec n) (hi lo v i : Nat) (hd : i < lo ∨ hi < i) (hi' : i < n) :
    bit (setFld w hi lo v) i = bit w i := by
  have : ¬ (lo ≤ i ∧ i ≤ hi) := by omega
  simp [bit, setFld_getLsbD w hi lo v i hi', this]

theorem bit_setFld_in {n : Nat} (w : BitVec n) (hi lo v i : Nat) (hd : lo ≤ i ∧ i ≤ hi) (hi' : i < n) :
    bit (setFld w hi lo v) i = v.testBit (i - lo) := by
  simp [bit, setFld_getLsbD w hi lo v i hi', hd]

theorem bit_setBit_same {n : Nat} (w : BitVec n) (i : Nat) (v : Bool) (hi : i < n) : bit (setBit w i v) i = v := by
  unfold setBit
  rw [bit_setFld_in w i i v.toNat i (by omega) hi]
  cases v <;> simp

theorem bit_setBit_ne {n : Nat} (w : BitVec n) (i j : Nat) (v : Bool) (hj : j < n) (h : j ≠ i) : bit (setBit w i v) j = bit w j :=
  bit_setFld_out w i i v.toNat j (by omega) hj

theorem fld_setBit_out {n : Nat} (w : BitVec n) (i : Nat) (v : Bool) (p q : Nat) (h : p < i ∨ i < q) (hp : p < n) :
    fld (setBit w i v) p q = fld w p q :=
  fld_setFld_out w i i v.toNat p q h hp

/-! ## Registers of the main die -/

@[simp] theorem Dev.reg_setReg_same (s : Dev) (a : Nat) (v : Word) : (s.setReg a v).reg a = v := by simp [Dev.reg, Dev.setReg]

theorem Dev.reg_setReg_ne (s : Dev) {a r : Nat} (v : Word) (h : r ≠ a) : (s.setReg a v).reg r = s.reg r := by
  simp [Dev.reg, Dev.setReg, Store.get_put_ne _ _ _ _ h]

theorem Dev.reg_setReg (s : Dev) (a r : Nat) (v : Word) : (s.setReg a v).reg r = if r = a then v else s.reg r := by
  split
  · next h => subst h; simp
  · next h => exact Dev.reg_setReg_ne s v h

theorem Dev.reg_setRf (s : Dev) (a hi lo v r : Nat) :
    (s.setRf a hi lo v).reg r = if r = a then setFld (s.reg a) hi lo v else s.reg r := Dev.reg_setReg s a r _

theorem Dev.reg_setRb (s : Dev) (a i r : Nat) (v : Bool) :
    (s.setRb a i v).reg r = if r = a then setBit (s.reg a) i v else s.reg r := Dev.reg_setReg s a r _

theorem Dev.reg_count (s : Dev) (a k r : Nat) :
    (s.count a k).reg r = if r = a then satAdd (s.reg a) k else s.reg r := Dev.reg_setReg s a r _

theorem Dev.rb_setReg_ne (s : Dev) {a r : Nat} (v : Word) (i : Nat) (h : r ≠ a) : (s.setReg a v).rb r i = s.rb r i := by
  simp [Dev.rb, Dev.reg_setReg_ne s v h]

theorem Dev.rf_setReg_ne (s : Dev) {a r : Nat} (v : Word) (p q : Nat) (h : r ≠ a) : (s.setReg a v).rf r p q = s.rf r p q := by
  simp [Dev.rf, Dev.reg_setReg_ne s v h]

theorem Dev.rb_setRb_same (s : Dev) (a i : Nat) (v : Bool) (h : i < 32) : (s.setRb a i v).rb a i = v := by
  simp [Dev.rb, Dev.reg_setRb, bit_setBit_same _ _ _ h]

theorem Dev.rb_setRb (s : Dev) (a i r j : Nat) (v : Bool) (hj : j < 32) :
    (s.setRb a i v).rb r j = if r = a ∧ j = i then v else s.rb r j := by
  by_cases h : r = a
  · subst h
    by_cases h2 : j = i
    · subst h2; simp [Dev.rb_setRb_same _ _ _ _ hj]
    · simp [Dev.rb, Dev.reg_setRb, h2, bit_setBit_ne _ _ _ _ hj h2]
  · simp [Dev.rb, Dev.reg_setRb, h]

theorem Dev.rf_setRf_same (s : Dev) (a hi lo v : Nat) (hn : hi < 32) :
    (s.setRf a hi lo v).rf a hi lo = v % 2 ^ (hi + 1 - lo) := by
  simp [Dev.rf, Dev.reg_setRf, fld_setFld_same _ _ _ _ hn]

theorem Dev.rf_setRf_out (s : Dev) (a hi lo v r p q : Nat) (hp : p < 32) (hd : r ≠ a ∨ p < lo ∨ hi < q) :
    (s.setRf a hi lo v).rf r p q = s.rf r p q := by
  by_cases hr : r = a
  · subst hr
    have hd' : p < lo ∨ hi < q := by simpa using hd
    simp [Dev.rf, Dev.reg_setRf, fld_setFld_out _ _ _ _ _ _ hd' hp]
  · simp [Dev.rf, Dev.reg_setRf, hr]

theorem Dev.rb_setRf_out (s : Dev) (a hi lo v r j : Nat) (hj : j < 32) (hd : r ≠ a ∨ j < lo ∨ hi < j) :
    (s.setRf a hi lo v).rb r j = s.rb r j := by
  by_cases hr : r = a
  · subst hr
    have hd' : j < lo ∨ hi < j := by simpa using hd
    simp [Dev.rb, Dev.reg_setRf, bit_setFld_out _ _ _ _ _ hd' hj]
  · simp [Dev.rb, Dev.reg_setRf, hr]

theorem Dev.rf_setRb_out (s : Dev) (a i : Nat) (v : Bool) (r p q : Nat) (hp : p < 32) (hd : r ≠ a ∨ p < i ∨ i < q) :
    (s.setRb a i v).rf r p q = s.rf r p q := by
  by_cases hr : r = a
  · subst hr
    have hd' : p < i ∨ i < q := by simpa using hd
    simp [Dev.rf, Dev.reg_setRb, fld_setBit_out _ _ _ _ _ hd' hp]
  · simp [Dev.rf, Dev.reg_setRb, hr]

theorem Dev.rf_lt (s : Dev) (a hi lo : Nat) : s.rf a hi lo < 2 ^ (hi + 1 - lo) := Nat.mod_lt _ (Nat.two_pow_pos _)

/-! ## Table words -/

@[simp] theorem Dev.word_setWord_same (s : Dev) (a : Nat) (v : DWord) : (s.setWord a v).word a = v := by simp [Dev.word, Dev.setWord]

theorem Dev.word_setWord (s : Dev) (a r : Nat) (v : DWord) : (s.setWord a v).word r = if r = a then v else s.word r := by
  by_cases h : r = a
  · subst h; simp
  · simp [Dev.word, Dev.setWord, Store.get_put_ne _ _ _ _ h, h]

/-! ## Registers of Basjo -/

@[simp] theorem Basjo.reg_setReg_same (b : Basjo) (a : Nat) (v : Word) : (b.setReg a v).reg a = v := by simp [Basjo.reg, Basjo.setReg]

theorem Basjo.reg_setReg (b : Basjo) (a r : Nat) (v : Word) : (b.setReg a v).reg r = if r = a then v else b.reg r := by
  by_cases h : r = a
  · subst h; simp
  · simp [Basjo.reg, Basjo.setReg, Store.get_put_ne _ _ _ _ h, h]

theorem Basjo.reg_setRf (b : Basjo) (a hi lo v r : Nat) :
    (b.setRf a hi lo v).reg r = if r = a then setFld (b.reg a) hi lo v else b.reg r := Basjo.reg_setReg b a r _

theorem Basjo.reg_count (b : Basjo) (a k r : Nat) :
    (b.count a k).reg r = if r = a then satAdd (b.reg a) k else b.reg r := Basjo.reg_setReg b a r _

/-! ## Outcomes -/

theorem State.onDev_runs (s : State) (f : Dev → Dev) (h : s.dev.runs = true) : s.onDev f = .next { s with dev := f s.dev } := by
  simp [State.onDev, h]

theorem State.onDev_stopped (s : State) (f : Dev → Dev) (h : s.dev.runs = false) : s.onDev f = .next s := by
  simp [State.onDev, h]

end Sys2Proof.Machine
end

