-- ==== Sys2Proof/Laws/Events.lean ====
section
/-! SUPPORT. What an event record changes: one lemma that says it for every operation that raises or logs. -/
namespace Sys2Proof.Machine

/-! ## Addresses -/

theorem ringReg_inj {h r h' r' o o' : Nat} (hr : r < 128) (hr' : r' < 128) (ho : o < 0x40) (ho' : o' < 0x40)
    (e : ringReg h r o = ringReg h' r' o') : h = h' ∧ r = r' ∧ o = o' := by
  simp only [ringReg, hostReg] at e
  omega

theorem ringReg_ne_hostReg {h r h' o o' : Nat} (hr : r < 128) (ho : o < 0x40) (ho' : o' < 0x1000) : ringReg h r o ≠ hostReg h' o' := by
  simp only [ringReg, hostReg]
  omega

/-! ## What stays the same under event records -/

theorem Basjo.not_eventReg_ring (b : Basjo) {h r o : Nat} (hr : r < 128) (ho : o < 0x18) : ¬ b.eventReg (ringReg h r o) := by
  rintro ⟨h', r', hr', e | ⟨_, e | e⟩⟩
  · exact ringReg_ne_hostReg hr (by omega) (by omega) e
  · have := (ringReg_inj hr hr' (by omega) (by omega) e).2.2; omega
  · have := (ringReg_inj hr hr' (by omega) (by omega) e).2.2; omega

theorem Basjo.eventsOnly.ringReg_low {b b' : Basjo} (e : b.eventsOnly b') {h r o : Nat} (hr : r < 128) (ho : o < 0x18) :
    b'.reg (ringReg h r o) = b.reg (ringReg h r o) := e.regs _ (b.not_eventReg_ring hr ho)

theorem Basjo.eventsOnly.ringType {b b' : Basjo} (e : b.eventsOnly b') {h r : Nat} (hr : r < 128) : b'.ringType h r = b.ringType h r := by
  simp only [Basjo.ringType, Basjo.rf, e.ringReg_low hr (show 0x10 < 0x18 by omega)]

theorem Basjo.eventsOnly.eventReg {b b' : Basjo} (e : b.eventsOnly b') (a : Nat) : b'.eventReg a ↔ b.eventReg a := by
  constructor <;> rintro ⟨h, r, hr, x⟩ <;> refine ⟨h, r, hr, ?_⟩ <;> simpa [e.ringType hr] using x

theorem Basjo.eventsOnly.eventByte {b b' : Basjo} (e : b.eventsOnly b') (h addr : Nat) : b'.eventByte h addr ↔ b.eventByte h addr := by
  have key : ∀ r, r < 128 → ∀ idx, b'.entryAddr h r 32 idx = b.entryAddr h r 32 idx := by
    intro r hr idx
    simp only [Basjo.entryAddr, Basjo.ringBase, Basjo.ringSize, Basjo.rf, e.ringReg_low hr (show 0 < 0x18 by omega),
      e.ringReg_low hr (show 4 < 0x18 by omega), e.ringReg_low hr (show 0x10 < 0x18 by omega)]
  constructor <;> rintro ⟨r, hr, ht, x⟩ <;> refine ⟨r, hr, ?_, ?_⟩
  · rwa [e.ringType hr] at ht
  · simpa [key r hr, e.ringReg_low hr (show 8 < 0x18 by omega), e.ringReg_low hr (show 0xC < 0x18 by omega)] using x
  · rwa [e.ringType hr]
  · simpa [key r hr, e.ringReg_low hr (show 8 < 0x18 by omega), e.ringReg_low hr (show 0xC < 0x18 by omega)] using x

theorem Basjo.eventsOnly.refl (b : Basjo) : b.eventsOnly b :=
  ⟨fun _ _ => rfl, rfl, rfl, rfl, rfl, fun _ _ _ _ => rfl, fun _ _ _ _ => rfl⟩

theorem Basjo.eventsOnly.trans {b b' b'' : Basjo} (e : b.eventsOnly b') (e' : b'.eventsOnly b'') : b.eventsOnly b'' where
  regs a ha := by rw [e'.regs a (by rwa [e.eventReg]), e.regs a ha]
  msix := e'.msix.trans e.msix
  dead := e'.dead.trans e.dead
  up := e'.up.trans e.up
  order := e'.order.trans e.order
  rings h r hr ht := by rw [e'.rings h r hr (by rwa [e.ringType hr]), e.rings h r hr ht]
  mem h addr hl hb := by rw [e'.mem h addr hl (by rwa [e.eventByte]), e.mem h addr hl hb]

/-! ## Host memory -/

theorem memWidth_le (h : Nat) : 2 ^ memWidth h ≤ 2 ^ 64 := Nat.pow_le_pow_right (by omega) (by unfold memWidth; split <;> omega)

theorem memWidth_host (h : Fin 2) : memWidth h.val = 64 := by
  unfold memWidth; split <;> omega

theorem Basjo.octet_foldl (l : List (Byte × Nat)) (m : Store Byte) (h addr h' x : Nat) (hx : x < 2 ^ 64)
    (hn : h' = h → ∀ e ∈ l, x ≠ (addr + e.2) % 2 ^ memWidth h) :
    Store.get 0 (l.foldl (fun m e => if inCheckpoints h (addr + e.2) then m
      else Store.put 0 m (h * 2 ^ 64 + (addr + e.2) % 2 ^ memWidth h) e.1) m) (h' * 2 ^ 64 + x) = Store.get 0 m (h' * 2 ^ 64 + x) := by
  induction l generalizing m with
  | nil => rfl
  | cons e r ih =>
    rw [List.foldl_cons, ih _ (fun hh e he => hn hh e (List.mem_cons_of_mem _ he))]
    split
    · rfl
    · refine Store.get_put_ne _ _ _ _ ?_
      have h2 : (addr + e.2) % 2 ^ memWidth h < 2 ^ 64 := Nat.lt_of_lt_of_le (Nat.mod_lt _ (Nat.two_pow_pos _)) (memWidth_le h)
      intro he
      have hh : h' = h := by omega
      have := hn hh e (by simp)
      subst hh
      omega

/-- A store of octets leaves every other octet of host memory alone. -/
theorem Basjo.octet_store (b : Basjo) (h addr : Nat) (l : List Byte) (h' x : Nat) (hx : x < 2 ^ 64)
    (hn : h' = h → ∀ k, k < l.length → x ≠ (addr + k) % 2 ^ memWidth h) : (b.store h addr l).octet h' x = b.octet h' x := by
  unfold Basjo.octet Basjo.store
  refine Basjo.octet_foldl _ _ _ _ _ _ hx (fun hh e he => ?_)
  have := List.snd_lt_of_mem_zipIdx he
  exact hn hh e.2 (by simpa using this)

@[simp] theorem Basjo.store_reg (b : Basjo) (h addr : Nat) (l : List Byte) (a : Nat) : (b.store h addr l).reg a = b.reg a := rfl
@[simp] theorem Basjo.store_ring (b : Basjo) (h addr : Nat) (l : List Byte) (h' r : Nat) : (b.store h addr l).ring h' r = b.ring h' r := rfl
@[simp] theorem Basjo.store_msix (b : Basjo) (h addr : Nat) (l : List Byte) : (b.store h addr l).msix = b.msix := rfl
@[simp] theorem Basjo.store_up (b : Basjo) (h addr : Nat) (l : List Byte) : (b.store h addr l).up = b.up := rfl
@[simp] theorem Basjo.store_dead (b : Basjo) (h addr : Nat) (l : List Byte) : (b.store h addr l).dead = b.dead := rfl
@[simp] theorem leBytes_length (k v : Nat) : (leBytes k v).length = k := by
  induction k generalizing v with
  | zero => rfl
  | succ k ih => simp [leBytes, ih]

/-! ## The steps of a record -/

/-- A change to the parts of the host interface that event records may always change. -/
theorem Basjo.eventsOnly.of_same {b b' : Basjo} (h1 : b'.regs = b.regs) (h2 : b'.msix = b.msix) (h3 : b'.dead = b.dead) (h6 : b'.up = b.up) (h7 : b'.order = b.order)
    (h4 : b'.rings = b.rings) (h5 : b'.mem = b.mem) : b.eventsOnly b' where
  regs a _ := by simp [Basjo.reg, h1]
  msix := h2
  dead := h3
  up := h6
  order := h7
  rings h r _ _ := by simp [Basjo.ring, h4]
  mem h addr _ _ := by simp [Basjo.octet, h5]

theorem Basjo.fire_eventsOnly (b : Basjo) (h v : Nat) : b.eventsOnly (b.fire h v) := by
  unfold Basjo.fire
  dsimp only
  split
  · exact .of_same rfl rfl rfl rfl rfl rfl rfl
  · split <;> exact .of_same rfl rfl rfl rfl rfl rfl rfl

theorem Basjo.signal_eventsOnly (b : Basjo) (now h v : Nat) : b.eventsOnly (b.signal now h v) := by
  unfold Basjo.signal
  dsimp only
  split
  · exact Basjo.fire_eventsOnly _ _ _
  · exact .of_same rfl rfl rfl rfl rfl rfl rfl

theorem Basjo.setRing_eventsOnly (b : Basjo) (h r : Nat) (x : RingRun) (hr : r < 128) (ht : b.ringType h r = 4) : b.eventsOnly (b.setRing h r x) where
  regs _ _ := rfl
  msix := rfl
  dead := rfl
  up := rfl
  order := rfl
  rings h' r' hr' ht' := by
    have hne : 128 * h' + r' ≠ 128 * h + r := by
      intro e
      have : h' = h ∧ r' = r := by omega
      rw [this.1, this.2] at ht'
      exact ht' ht
    exact Store.get_put_ne _ _ _ _ hne
  mem _ _ _ _ := rfl

theorem Basjo.setReg_eventsOnly (b : Basjo) (a : Nat) (v : Word) (ha : b.eventReg a) : b.eventsOnly (b.setReg a v) where
  regs a' ha' := by
    rw [Basjo.reg_setReg, if_neg]
    intro e
    exact ha' (e ▸ ha)
  msix := rfl
  dead := rfl
  up := rfl
  order := rfl
  rings _ _ _ _ := rfl
  mem _ _ _ _ := rfl

theorem Basjo.advance_eventsOnly (b : Basjo) (h r k : Nat) (hr : r < 128) (ht : b.ringType h r = 4) : b.eventsOnly (b.advance h r k) := by
  have e1 := b.setReg_eventsOnly (ringReg h r 0x18) (b.devIdx h r + BitVec.ofNat 32 k) ⟨h, r, hr, .inr ⟨ht, .inl rfl⟩⟩
  refine e1.trans ⟨fun _ _ => rfl, rfl, rfl, rfl, rfl, fun _ _ _ _ => rfl, fun h' x hx hb => ?_⟩
  refine Basjo.octet_store (b.setReg (ringReg h r 0x18) (b.devIdx h r + BitVec.ofNat 32 k)) h
    ((b.reg (ringReg h r 8)).toNat + 2 ^ 32 * (b.reg (ringReg h r 0xC)).toNat) _ h' x hx ?_
  rintro rfl j hj e
  refine hb ⟨r, hr, (e1.ringType hr).trans ht, .inr ⟨j, by simpa using hj, ?_⟩⟩
  rw [e1.ringReg_low hr (show 8 < 0x18 by omega), e1.ringReg_low hr (show 0xC < 0x18 by omega)]
  exact e

theorem Basjo.store_entry_eventsOnly (b : Basjo) (h r : Nat) (idx : Word) (l : List Byte) (hl : l.length = 32) (hr : r < 128)
    (ht : b.ringType h r = 4) : b.eventsOnly (b.store h (b.entryAddr h r 32 idx) l) := by
  refine ⟨fun _ _ => rfl, rfl, rfl, rfl, rfl, fun _ _ _ _ => rfl, fun h' x hx hb => ?_⟩
  refine Basjo.octet_store _ _ _ _ _ _ hx ?_
  rintro rfl k hk e
  exact hb ⟨r, hr, ht, .inl ⟨idx, k, by omega, e⟩⟩

/-- An event queue that records may be written to: a pop queue, or a ring of type EVT. -/
def Basjo.evtOk (b : Basjo) (h : Nat) : EvtQueue → Prop
  | .ring r => b.ringType h r = 4
  | .pop _ => True

theorem Basjo.eventsOnly.evtOk {b b' : Basjo} (e : b.eventsOnly b') {h : Nat} {q : EvtQueue} (hq : b.evtOk h q) : b'.evtOk h q := by
  cases q with
  | ring r => simpa [Basjo.evtOk, e.ringType r.isLt] using hq
  | pop _ => trivial

theorem Basjo.putRec_eventsOnly (b : Basjo) (now h : Nat) (q : EvtQueue) (x : Rec) (hq : b.evtOk h q) : b.eventsOnly (b.putRec now h q x) := by
  cases q with
  | ring r =>
    have e1 := b.store_entry_eventsOnly h r (b.devIdx h r) (leBytes 32 (x.pack (b.ring h r).seq).toNat) (leBytes_length _ _) r.isLt hq
    have e2 := e1.trans (Basjo.advance_eventsOnly _ h r 1 r.isLt (by rw [e1.ringType r.isLt]; exact hq))
    have e3 := e2.trans (Basjo.setRing_eventsOnly _ h r { b.ring h r with seq := (b.ring h r).seq + 1 } r.isLt (by rw [e2.ringType r.isLt]; exact hq))
    exact e3.trans (Basjo.signal_eventsOnly _ _ _ _)
  | pop n =>
    refine Basjo.eventsOnly.trans ?_ (Basjo.signal_eventsOnly _ _ _ _)
    exact .of_same rfl rfl rfl rfl rfl rfl rfl

theorem Basjo.clearLost_eventsOnly (b : Basjo) (h : Nat) (q : EvtQueue) (hq : b.evtOk h q) : b.eventsOnly (b.clearLost h q) := by
  cases q with
  | ring r => exact b.setRing_eventsOnly h r _ r.isLt hq
  | pop n => exact .of_same rfl rfl rfl rfl rfl rfl rfl

theorem Basjo.loseRec_eventsOnly (b : Basjo) (h : Nat) (q : EvtQueue) (hq : b.evtOk h q) : b.eventsOnly (b.loseRec h q) := by
  cases q with
  | ring r =>
    have e := b.setRing_eventsOnly h r { b.ring h r with seq := (b.ring h r).seq + 1, lostSince := satAdd (b.ring h r).lostSince 1 } r.isLt hq
    refine e.trans (Basjo.setReg_eventsOnly _ _ _ ?_)
    exact ⟨h, r, r.isLt, .inr ⟨by rw [e.ringType r.isLt]; exact hq, .inr rfl⟩⟩
  | pop n => exact .of_same rfl rfl rfl rfl rfl rfl rfl

theorem Basjo.overflow_eventsOnly (b : Basjo) (now h : Nat) (q : EvtQueue) (sec ns : Nat) (hq : b.evtOk h q) :
    b.eventsOnly (b.overflow now h q sec ns) := by
  unfold Basjo.overflow
  split
  · exact .refl b
  · exact (b.putRec_eventsOnly now h q _ hq).trans
      (Basjo.clearLost_eventsOnly _ h q ((b.putRec_eventsOnly now h q _ hq).evtOk hq))

/-- A record delivered to a host port changes what event records may change and nothing else. -/
theorem Basjo.deliver_eventsOnly (b : Basjo) (now h : Nat) (x : Rec) : b.eventsOnly (b.deliver now h x) := by
  unfold Basjo.deliver
  dsimp only
  split
  · exact .refl b
  · have main : ∀ q : EvtQueue, b.evtOk h q → b.eventsOnly
        (if (b.overflow now h q x.sec x.ns).evtFull h q then (b.overflow now h q x.sec x.ns).loseRec h q
          else (b.overflow now h q x.sec x.ns).putRec now h q x) := by
      intro q hq
      have e := b.overflow_eventsOnly now h q x.sec x.ns hq
      split
      · exact e.trans (Basjo.loseRec_eventsOnly _ h q (e.evtOk hq))
      · exact e.trans (Basjo.putRec_eventsOnly _ now h q x (e.evtOk hq))
    split
    · refine Basjo.eventsOnly.trans (b' := _) ?_ (Basjo.setReg_eventsOnly _ _ _ ⟨h, 0, by omega, .inl rfl⟩)
      split
      · next hq =>
        simp only [Bool.and_eq_true, decide_eq_true_eq] at hq
        refine b.setRing_eventsOnly h _ _ ?_ hq.2
        exact Nat.lt_of_lt_of_le (Nat.mod_lt _ (Nat.two_pow_pos _)) (by decide)
      · exact .refl b
    · next hrun =>
      by_cases hp : bit (b.reg (hostReg h (0x100 + 4 * x.cls))) 30 = true
      · simp only [hp, if_true]
        exact main (.pop _) trivial
      · simp only [hp]
        refine main (.ring _) ?_
        have hr := hrun
        simp only [hp, Bool.not_false, Bool.true_and, Bool.not_eq_true', Bool.not_eq_false] at hr
        simp only [Basjo.ringRuns, Bool.and_eq_true, decide_eq_true_eq] at hr
        have ht := hr.1.1.2
        simp only [Basjo.evtOk]
        have hf : ((BitVec.toFin ((b.reg (hostReg h (0x100 + 4 * x.cls))).extractLsb' 0 7) : Fin 128) : Nat)
            = fld (b.reg (hostReg h (0x100 + 4 * x.cls))) 6 0 := by
          simp [fld]
        exact hf ▸ ht

/-! ## The operations of the main die -/

theorem Dev.raiseAt_eventsOnly (s : Dev) (h cls cause cl u x y : Nat) : s.basjo.eventsOnly (s.raiseAt h cls cause cl u x y).basjo :=
  Basjo.deliver_eventsOnly _ _ _ _

theorem Dev.raiseStamped_eventsOnly (s : Dev) (cls cause cl u x y raw : Nat) :
    s.basjo.eventsOnly (s.raiseStamped cls cause cl u x y raw).basjo := by
  have : ∀ (l : List Nat) (b : Basjo), b.eventsOnly (l.foldl (fun z h => z.deliver s.now h (s.mkRec cls cause cl u x y raw)) b) := by
    intro l
    induction l with
    | nil => exact .refl
    | cons h r ih => exact fun b => (Basjo.deliver_eventsOnly _ _ _ _).trans (ih _)
  exact this _ _

theorem Dev.raise_eventsOnly (s : Dev) (cls cause cl u x y : Nat) : s.basjo.eventsOnly (s.raise cls cause cl u x y).basjo :=
  s.raiseStamped_eventsOnly cls cause cl u x y s.now

theorem Dev.raiseOther_eventsOnly (s : Dev) (h cls cause x y : Nat) : s.basjo.eventsOnly (s.raiseOther h cls cause x y).basjo := by
  unfold Dev.raiseOther
  split
  · exact s.raiseAt_eventsOnly _ _ _ _ _ _ _
  · exact .refl _

theorem Dev.raiseRated_eventsOnly (s : Dev) (cls cause cl u sub iv : Nat) (pa pb : Nat → Nat) :
    s.basjo.eventsOnly (s.raiseRated cls cause cl u sub iv pa pb).basjo := by
  unfold Dev.raiseRated Dev.rated
  dsimp only
  generalize Store.get RateRec.idle s.basjo.rate (rateKey cls cause cl u sub) = r
  cases r.last with
  | none =>
    refine Basjo.eventsOnly.trans (b' := _) ?_ (Dev.raise_eventsOnly _ _ _ _ _ _ _)
    exact .of_same rfl rfl rfl rfl rfl rfl rfl
  | some t =>
    dsimp only
    split
    · refine Basjo.eventsOnly.trans (b' := _) ?_ (Dev.raise_eventsOnly _ _ _ _ _ _ _)
      exact .of_same rfl rfl rfl rfl rfl rfl rfl
    · exact .of_same rfl rfl rfl rfl rfl rfl rfl

theorem Dev.logRaw_eventsOnly (s : Dev) (o k cl u op tg : Nat) (x y : DWord) : s.basjo.eventsOnly (s.logRaw o k cl u op tg x y).basjo := by
  unfold Dev.logRaw
  exact Dev.raise_eventsOnly _ _ _ _ _ _ _

theorem Dev.log_eventsOnly (s : Dev) (o k cl u op tg : Nat) (x y : List Byte) : s.basjo.eventsOnly (s.log o k cl u op tg x y).basjo :=
  s.logRaw_eventsOnly _ _ _ _ _ _ _ _

theorem Dev.logHw_eventsOnly (s : Dev) (k cl u x y : Nat) : s.basjo.eventsOnly (s.logHw k cl u x y).basjo := s.log_eventsOnly _ _ _ _ _ _ _ _

end Sys2Proof.Machine
end

