-- ==== Sys2Proof/Laws/Access.lean ====
section
/-! SUPPORT. What an access or a ring's command does once it goes through, said once. -/
namespace Sys2Proof.Machine

/-- An access that goes through changes nothing before the register it names. -/
theorem Dev.admit_of_opens (s : Dev) (a : Acc) (addr : Nat) (cfg : Bool) (old new : List Byte) (h : s.opens a addr = true) :
    s.passAccess a addr true cfg old new = (s, true) := by
  unfold Dev.opens at h
  unfold Dev.passAccess
  cases hb : blockOf addr with
  | none => simp [hb] at h
  | some b =>
    simp only [hb, Bool.and_eq_true, Bool.not_eq_true'] at h
    obtain ⟨⟨⟨⟨h1, h2⟩, h3⟩, h4⟩, h5⟩ := h
    simp [h1, h2, h3, h4, h5]

/-- An accepted write of a field logs the change and has the field's effect. -/
theorem Dev.writeField_of_opens (s : Dev) (a : Acc) (addr : Nat) (new : Word) (f : Dev → Dev) (h : s.opens a addr = true) :
    ∃ x y, s.writeField a addr new f =
      f ((s.log a.origin kRegister (unitOf addr).1 (unitOf addr).2 0 addr x y).demand (unitOf addr).1 (unitOf addr).2) := by
  refine ⟨leBytes 4 (if blockOf addr = some 1 then s.basjo.reg addr else s.reg addr).toNat, leBytes 4 new.toNat, ?_⟩
  unfold Dev.writeField
  simp [Dev.admit_of_opens s a addr _ _ _ h]

/-- An accepted write of bits that act in their unit's domain, while its clock runs. -/
theorem Dev.writeOwn_of_opens (s : Dev) (a : Acc) (addr : Nat) (new : Word) (f : Dev → Dev) (h : s.opens a addr = true)
    (hc : s.clockOff (unitOf addr).1 (unitOf addr).2 = false) :
    ∃ x y, s.writeOwn a addr new f = f (s.log a.origin kRegister (unitOf addr).1 (unitOf addr).2 0 addr x y) := by
  refine ⟨leBytes 4 (s.reg addr).toNat, leBytes 4 new.toNat, ?_⟩
  have hk : ∀ (o k cl u op tg : Nat) (x y : List Byte), (s.log o k cl u op tg x y).clockOff (unitOf addr).1 (unitOf addr).2 = false := by
    intro o k cl u op tg x y
    have hu : ∀ u, (s.log o k cl u op tg x y).basjo.linkUp = s.basjo.linkUp := fun u => by
      funext p; simp only [Basjo.linkUp, (s.log_eventsOnly o k cl u op tg x y).up]
    rw [← hc]
    simp only [Dev.clockOff, Dev.clockStopped, Dev.disabledBranch, Dev.holders, hu, Dev.log_clocks, Dev.log_rb]
    rfl
  unfold Dev.writeOwn
  simp [Dev.admit_of_opens s a addr _ _ _ h, hk]

theorem Dev.writeEn_of_opens (s : Dev) (a : Acc) (addr : Nat) (en : Bool) (f : Dev → Dev) (h : s.opens a addr = true) :
    ∃ x y, s.writeEn a addr en f =
      f ((s.log a.origin kRegister (unitOf addr).1 (unitOf addr).2 0 addr x y).demand (unitOf addr).1 (unitOf addr).2) :=
  Dev.writeField_of_opens s a addr _ f h

theorem State.opens_runs (s : State) (a : Acc) (addr : Nat) (h : s.opens a addr = true) : s.dev.runs = true ∧ s.dev.opens a addr = true := by
  simpa [State.opens] using h

/-- A command that starts and passes the checks of R68 does its own part. -/
theorem Dev.command_of_starts (s : State) (d : CmdDesc) (cl un op : Nat) (mask : List Nat) (cok uok : Nat → Bool)
    (kind : Option Nat) (body : Dev → CmdRes) (h : s.starts d cl un op mask = true) (hc : cok cl = true) (hu : uok un = true) :
    s.dev.runs = true ∧ s.dev.command d cok uok op mask kind body =
      match body (s.dev.demand cl un) with
      | .done s' st a b => s'.complete d op kind st a b
      | .wait s' => s'.onBasjo (fun x => x.setRing d.host.val d.ring.val
          { x.ring d.host.val d.ring.val with running := some ⟨d, op, s.dev.now⟩, waiting := none }) := by
  simp only [State.starts, Bool.and_eq_true, decide_eq_true_eq, Bool.not_eq_true'] at h
  obtain ⟨⟨⟨⟨⟨⟨⟨⟨⟨⟨⟨⟨⟨⟨⟨⟨h1, h2⟩, hre⟩, -⟩, h3⟩, h4⟩, h5⟩, h6⟩, hop⟩, hw⟩, hb⟩, hq⟩, h7⟩, h8⟩, h9⟩, h10⟩, h11⟩ := h
  subst h5 h6 hop
  have hk : s.dev.cmdCheck d true mask = none := by
    simp [Dev.cmdCheck, h7, h8, h9, h10, h11]
  refine ⟨h1, ?_⟩
  unfold Dev.command
  simp only [h2, hre, h3, h4, hc, hu, hb, hw, hq, Bool.and_true, decide_true, hk, Bool.not_true, Bool.or_false, Bool.and_false,
    Bool.false_eq_true, if_false] <;> rfl

end Sys2Proof.Machine
end

