-- ==== Sys2Proof/Laws/Command.lean ====
section
/-! SUPPORT. What the completion of a ring's command changes in the host interface. -/
namespace Sys2Proof.Machine

theorem Basjo.not_eventReg_idx (b : Basjo) {h r : Nat} (hr : r < 128) (ht : b.ringType h r ≠ 4) : ¬ b.eventReg (ringReg h r 0x18) := by
  rintro ⟨h', r', hr', e | ⟨ht', e | e⟩⟩
  · exact ringReg_ne_hostReg hr (by omega) (by omega) e
  · obtain ⟨rfl, rfl, -⟩ := ringReg_inj hr hr' (by omega) (by omega) e
    exact ht ht'
  · have := (ringReg_inj hr hr' (by omega) (by omega) e).2.2; omega

theorem Basjo.not_eventReg_status (b : Basjo) {h r : Nat} (hr : r < 128) : ¬ b.eventReg (ringReg h r 0x1C) := by
  rintro ⟨h', r', hr', e | ⟨_, e | e⟩⟩
  · exact ringReg_ne_hostReg hr (by omega) (by omega) e
  · have := (ringReg_inj hr hr' (by omega) (by omega) e).2.2; omega
  · have := (ringReg_inj hr hr' (by omega) (by omega) e).2.2; omega

/-- Event records leave a ring of another type as it was. -/
theorem Basjo.eventsOnly.devIdx {b b' : Basjo} (e : b.eventsOnly b') {h r : Nat} (hr : r < 128) (ht : b.ringType h r ≠ 4) :
    b'.devIdx h r = b.devIdx h r := e.regs _ (b.not_eventReg_idx hr ht)

theorem Basjo.eventsOnly.hostIdx {b b' : Basjo} (e : b.eventsOnly b') {h r : Nat} (hr : r < 128) :
    b'.hostIdx h r = b.hostIdx h r := e.ringReg_low hr (by omega)

theorem Basjo.eventsOnly.ringActive {b b' : Basjo} (e : b.eventsOnly b') {h r : Nat} (hr : r < 128) :
    b'.ringActive h r = b.ringActive h r := by
  simp only [Basjo.ringActive, Basjo.rb, e.regs _ (b.not_eventReg_status hr)]

theorem Basjo.eventsOnly.entryAddr {b b' : Basjo} (e : b.eventsOnly b') {h r : Nat} (hr : r < 128) (sz : Nat) (idx : Word) :
    b'.entryAddr h r sz idx = b.entryAddr h r sz idx := by
  simp only [Basjo.entryAddr, Basjo.ringBase, Basjo.ringSize, Basjo.rf, e.ringReg_low hr (show 0 < 0x18 by omega),
    e.ringReg_low hr (show 4 < 0x18 by omega), e.ringReg_low hr (show 0x10 < 0x18 by omega)]

theorem Basjo.eventsOnly.writeBack {b b' : Basjo} (e : b.eventsOnly b') {h r : Nat} (hr : r < 128) :
    (b'.reg (ringReg h r 8)).toNat + 2 ^ 32 * (b'.reg (ringReg h r 0xC)).toNat =
      (b.reg (ringReg h r 8)).toNat + 2 ^ 32 * (b.reg (ringReg h r 0xC)).toNat := by
  rw [e.ringReg_low hr (show 8 < 0x18 by omega), e.ringReg_low hr (show 0xC < 0x18 by omega)]

/-- Event records before a completion. -/
theorem Basjo.eventsOnly.trans_done {b b' b'' : Basjo} {d : CmdDesc} (e : b.eventsOnly b') (ht : b.ringType d.host.val d.ring.val ≠ 4)
    (f : b'.doneOnly d b'') : b.doneOnly d b'' where
  regs a ha hn := by rw [f.regs a (by rwa [e.eventReg]) hn, e.regs a ha]
  idx := by rw [f.idx, e.devIdx d.ring.isLt ht]
  ended := f.ended
  msix := f.msix.trans e.msix
  dead := f.dead.trans e.dead
  up := f.up.trans e.up
  order := f.order.trans e.order
  rings h r hr hq hn := by rw [f.rings h r hr (by rwa [e.ringType hr]) hn, e.rings h r hr hq]
  mem h addr hl hb hn := by
    rw [f.mem h addr hl (by rwa [e.eventByte]) (fun hh k => ?_), e.mem h addr hl hb]
    rw [e.devIdx d.ring.isLt ht, e.entryAddr d.ring.isLt, e.writeBack d.ring.isLt]
    exact hn hh k

/-- Event records after a completion. -/
theorem Basjo.doneOnly.trans_events {b b' b'' : Basjo} {d : CmdDesc} (f : b.doneOnly d b') (ht : b.ringType d.host.val d.ring.val ≠ 4)
    (e : b'.eventsOnly b'') : b.doneOnly d b'' := by
  have hr := d.ring.isLt
  have low : ∀ h r o, r < 128 → o < 0x18 → b'.reg (ringReg h r o) = b.reg (ringReg h r o) := fun h r o hr' ho =>
    f.regs _ (b.not_eventReg_ring hr' ho) (fun e => by have := (ringReg_inj hr' hr (by omega) (by omega) e).2.2; omega)
  have hty : ∀ h r, r < 128 → b'.ringType h r = b.ringType h r := fun h r hr' => by
    simp only [Basjo.ringType, Basjo.rf, low h r 0x10 hr' (by omega)]
  have hev : ∀ a, b'.eventReg a ↔ b.eventReg a := fun a => by
    constructor <;> rintro ⟨h, r, hr', x⟩ <;> refine ⟨h, r, hr', ?_⟩ <;> simpa [hty h r hr'] using x
  have hby : ∀ h addr, b'.eventByte h addr ↔ b.eventByte h addr := fun h addr => by
    have key : ∀ r, r < 128 → ∀ idx, b'.entryAddr h r 32 idx = b.entryAddr h r 32 idx := fun r hr' idx => by
      simp only [Basjo.entryAddr, Basjo.ringBase, Basjo.ringSize, Basjo.rf, low h r 0 hr' (by omega), low h r 4 hr' (by omega),
        low h r 0x10 hr' (by omega)]
    constructor <;> rintro ⟨r, hr', ht', x⟩ <;> refine ⟨r, hr', ?_, ?_⟩
    · rwa [hty h r hr'] at ht'
    · simpa [key r hr', low h r 8 hr' (by omega), low h r 0xC hr' (by omega)] using x
    · rwa [hty h r hr']
    · simpa [key r hr', low h r 8 hr' (by omega), low h r 0xC hr' (by omega)] using x
  have ht' : b'.ringType d.host.val d.ring.val ≠ 4 := by rwa [hty _ _ hr]
  refine ⟨fun a ha hn => ?_, ?_, ?_, e.msix.trans f.msix, e.dead.trans f.dead, e.up.trans f.up, e.order.trans f.order,
    fun h r hr' hq hn => ?_, fun h addr hl hb hn => ?_⟩
  · rw [e.regs a (by rwa [hev]), f.regs a ha hn]
  · rw [e.devIdx hr ht', f.idx]
  · rw [e.rings _ _ hr ht', f.ended]
  · rw [e.rings h r hr' (by rwa [hty h r hr']), f.rings h r hr' hq hn]
  · rw [e.mem h addr hl (by rwa [hby]), f.mem h addr hl hb hn]

/-- The completion of a command on a CMD ring that is active (R55, R68). -/
theorem Dev.finish_doneOnly (s : Dev) (d : CmdDesc) (st x y : Nat) (ht : s.basjo.ringType d.host.val d.ring.val ≠ 4)
    (ha : s.basjo.ringActive d.host.val d.ring.val = true) (hw : d.writeErr = false) : s.basjo.doneOnly d (s.finish d st x y).basjo := by
  have hr := d.ring.isLt
  have core : ∀ l : List Byte, l.length = 16 → s.basjo.doneOnly d
      (((s.basjo.store d.host.val (s.basjo.entryAddr d.host.val d.ring.val 64 (s.basjo.devIdx d.host.val d.ring.val) + 48) l).advance
        d.host.val d.ring.val 1).setRing d.host.val d.ring.val { s.basjo.ring d.host.val d.ring.val with running := none, waiting := none }) := by
    intro l hl
    refine ⟨fun a _ hn => ?_, ?_, ?_, rfl, rfl, rfl, rfl, fun h r hr' _ hn => ?_, fun h addr hx _ hn => ?_⟩
    · exact (Basjo.reg_setReg _ _ _ _).trans (if_neg hn)
    · exact Basjo.reg_setReg_same _ _ _
    · exact congrArg RingRun.running (Store.get_put_same _ _ _ _)
    · exact Store.get_put_ne _ _ _ _ (by omega)
    · refine (Basjo.octet_store _ d.host.val _ _ h addr hx (fun hh k hk => ?_)).trans
        (Basjo.octet_store _ d.host.val _ _ h addr hx (fun hh k hk => ?_))
      · rw [memWidth_host]; exact (hn hh k).2 (by simpa using hk)
      · rw [memWidth_host]; exact (hn hh k).1 (by omega)
  unfold Dev.finish
  simp only [ha, hw, Bool.not_true, Bool.false_eq_true, if_false]
  split
  · exact core _ (by simp)
  · refine Basjo.doneOnly.trans_events (b' := _) ?_ ht (Dev.raiseAt_eventsOnly _ _ _ _ _ _ _ _)
    exact core (leBytes 8 (x % 2 ^ 32 * 2 ^ 32 + 256 + st) ++ leBytes 8 y) (by simp)

/-- A completed command, logged or not. -/
theorem Dev.complete_doneOnly (s : Dev) (d : CmdDesc) (op : Nat) (kind : Option Nat) (st x y : Nat)
    (ht : s.basjo.ringType d.host.val d.ring.val ≠ 4) (ha : s.basjo.ringActive d.host.val d.ring.val = true)
    (hw : d.writeErr = false) : s.basjo.doneOnly d (s.complete d op kind st x y).basjo := by
  have hr := d.ring.isLt
  have logged : ∀ (k o c u p g : Nat) (v w : DWord), s.basjo.doneOnly d ((s.logRaw o k c u p g v w).finish d st x y).basjo := by
    intro k o c u p g v w
    have e := s.logRaw_eventsOnly o k c u p g v w
    exact e.trans_done ht (Dev.finish_doneOnly _ d st x y (by rwa [e.ringType hr]) (by rwa [e.ringActive hr]) hw)
  unfold Dev.complete
  cases kind with
  | none => exact s.finish_doneOnly d st x y ht ha hw
  | some k =>
    dsimp only
    split
    · exact logged _ _ _ _ _ _ _ _
    · exact s.finish_doneOnly d st x y ht ha hw

/-- A command that starts stands in an active CMD ring. -/
theorem State.starts_ring (s : State) (d : CmdDesc) (cl un op : Nat) (mask : List Nat) (h : s.starts d cl un op mask = true) :
    s.dev.basjo.ringType d.host.val d.ring.val = 3 ∧ s.dev.basjo.ringActive d.host.val d.ring.val = true := by
  simp only [State.starts, Bool.and_eq_true, Dev.cmdReady, decide_eq_true_eq] at h
  obtain ⟨⟨⟨⟨⟨⟨⟨⟨⟨⟨⟨⟨⟨⟨⟨⟨-, h2⟩, -⟩, -⟩, -⟩, -⟩, -⟩, -⟩, -⟩, -⟩, -⟩, -⟩, -⟩, -⟩, -⟩, -⟩, -⟩ := h
  exact ⟨h2.1.1.1.1.1, h2.1.1.1.1.2⟩

end Sys2Proof.Machine
end

