-- ==== Sys2Proof/Tests/Slice0.lean ====
section
/-! SUPPORT. Tests: the spec's worked examples, one ill-formed term for each reason, and for every clause of a statement with
hypotheses a concrete state and operands that meet them all. Expected values stand in the spec, or in the published vectors of
the algorithms it names. -/

open Sys2Proof Sys2Proof.Machine

set_option maxRecDepth 100000
namespace Sys2Proof.Tests

/-! ## Small states -/

/-- A state whose main die differs from the one after reset. -/
def start (f : Dev → Dev) : State := { State.reset with dev := f State.reset.dev }
/-- Host 0 as an agent, outside steward context. -/
def cpu : Acc := ⟨1, false⟩
/-- Canopy as an agent: pair A. -/
def coreA : Acc := ⟨3, false⟩
/-- The BASJO block with one register written. -/
def bset (a : Nat) (v : Nat) (s : Dev) : Dev := s.onBasjo (·.setReg a (BitVec.ofNat 32 v))
/-- A register written. -/
def rset (a : Nat) (v : Nat) (s : Dev) : Dev := s.setReg a (BitVec.ofNat 32 v)
/-- Ring 0 of host port 0 runs as a ring of a type, with one entry outstanding for the device. -/
def ring (ty : Nat) (s : Dev) : Dev :=
  bset (ringReg 0 0 0x14) 1 (bset (ringReg 0 0 0x1C) 16 (bset (ringReg 0 0 0x10) (0x80060000 + ty) (bset (hostReg 0 0) 1 s)))
/-- A command descriptor of TAG 7 with NOTIFY, for an operation, a cluster, a unit and five parameter words. -/
def cmdOp (op cl un : BitVec 8) (p8 p16 p24 p32 p40 : BitVec 64) : CmdDesc :=
  ⟨0, 0, BitVec.ofNat 64 (0x700000000 + 0x1000000 + op.toNat * 0x10000 + un.toNat * 256 + cl.toNat), p8, p16, p24, p32, p40, false, false⟩
/-- A host port with a frame chosen for it and a receive ring with one buffer posted. -/
def rxState : State := start fun d =>
  bset (hostReg 0 0x300) 0x80000000 { (ring 2 d).onBasjo (fun b => b.setRing 0 0 { RingRun.idle with posted := [⟨0, 2048⟩, ⟨4096, 2048⟩] }) with
    crown := { d.crown with tx := [(36, some ⟨288, 0, 1, 0, List.replicate 64 0, 64, false, false, false, 0, 0, 0⟩)] }
    trunk := { d.trunk with frames := [(1, some ⟨0, List.replicate 64 0, 64, 0, none, 0, none, none, 1, true, 0, 0, none, 1, 1, [⟨0, 1, []⟩], false⟩)] } }
/-- The link of host port 0 is up. -/
def linked (s : Dev) : Dev := s.onBasjo fun b => { b with up := [(0, true)] }
/-- A table word written. -/
def wset (a : Nat) (v : Nat) (s : Dev) : Dev := s.setWord a (BitVec.ofNat 64 v)
/-- A forwarding entry of station 5 in VLAN 1. -/
def station (dest age stamp : Nat) (hold : Bool) (holdEnd moves : Nat) : FdbEntry := ⟨false, false, 1, 5, holdEnd, 0, moves, hold, age, 0, dest, stamp, false⟩
/-- A replica holds station 5 in its way-0 bucket. -/
def learned (g : Nat) (e : FdbEntry) (s : Dev) : Dev := { s with groves := { s.groves with fdb := s.groves.fdb.put none (262144 * g + (s.fdbBuckets 1 5).1) (some e) } }
/-- A stored frame of 64 octets, referenced once. -/
def frame64 : Stored := ⟨0, List.replicate 64 0, 64, 0, none, 0, none, none, 1, true, 0, 0, none, 1, 1, [⟨0, 1, []⟩], false⟩
/-- Queue 0 holds descriptors, and frame 1 is stored. -/
def queued (ds : List Desc) (timer : Option Nat) (f : Stored) (s : Dev) : Dev :=
  { s with trunk := { s.trunk with frames := [(1, some f)], queues := [(0, ⟨ds, timer⟩)] } }
/-- Raw time. -/
def atRaw (r : Nat) (s : Dev) : Dev := { s with cam := { s.cam with raw := r } }
/-- Port 0 with gates enabled and one entry of 400 ticks in its administrative bank. -/
def gated (s : Dev) : Dev := wset (gclAddr 0 0) 0xFF00000190 (rset (crownReg 0 0x1C) 400 (rset (crownReg 0 0x18) 1 (rset (crownReg 0 0x10) 0x80000000 s)))
/-- A pending change of port 0's gate list. -/
def gatePend (cct : Int) (s : Dev) : Dev := (gated s).setGate 0 ⟨[], 0, some ⟨cct, 1, 400, 3, none⟩, false⟩
/-- External memory is ready, with 2 GiB. -/
def xmem (s : Dev) : Dev := rset (trunkReg 0x8008) 2048 (rset (trunkReg 0x8004) 0x80000002 (rset (trunkReg 0x8000) 0x80000000 s))
/-- A connection in slot 0 of the table, last used at ms 0 under GEN 0. -/
def conn0 (za zb rule : Nat) : Conn := ⟨0, false, false, 1, za, zb, 1, 80, 90, 1, 2, 0, 0, rule, 1, 1⟩
/-- Slot 0 of the table holds a connection. -/
def connected (c : Conn) (s : Dev) : Dev := rset (barkReg 0x14) 1 { s with bark := { s.bark with conns := [(0, some c)] } }
/-- CAN channel 1 runs. -/
def canUp (s : Dev) : Dev := rset (barkReg 0x1404) 0 (rset (canReg 1 0x10) 0x05000000 (rset (canReg 1 0) 0x80000000 s))
/-- A classical frame with identifier 5 and one octet. -/
def canMsg : CanFrame := ⟨.classical, false, false, false, false, 5, 0, 0, false, 0, [7]⟩
/-- LIN channel 1 runs; it commands its bus if so told. -/
def linUp (cmd : Bool) (s : Dev) : Dev := rset (linReg 1 0) (if cmd then 0xC0004B00 else 0x80004B00) s
/-- A key slot written. -/
def keyed (n : Nat) (k : KeySlot) (s : Dev) : Dev := { s with burl := { s.burl with slots := s.burl.slots.put .empty n k } }
/-- A LIVE key of a usage, usable by every origin, its own root. -/
def key (usage : Nat) (k256 : Bool) (octets : BitVec 256) : KeySlot := { KeySlot.empty with state := 1, usage := usage, key256 := k256, owner := 2047, parent := 0x3FC, key := octets }
/-- Secure channel 0 of port 0 and secure association 0. -/
def secured (tx : Bool) (sas : Store (Option Nat)) (sa : Store (Option SecAssoc)) (s : Dev) : Dev :=
  { s with burl := { s.burl with scs := [(0, some ⟨tx, false, true, none, 0, sas, 9⟩)], sas := sa } }
/-- A state whose Heartwood runs and otherwise differs from the one after reset. -/
def hw (f : Heart → Heart) : State := { State.reset with heart := f { Heart.reset with on := true } }
/-- The mailbox holds a request with a length of parameters, in words. -/
def mbox (op plen : Nat) (ws : List Nat) (h : Heart) : Heart :=
  ws.zipIdx.foldl (fun (h : Heart) (e : Nat × Nat) => h.setReg (0x104 + 4 * e.2) (BitVec.ofNat 32 e.1))
    ((h.setReg 0xA4 1).setReg 0x100 (BitVec.ofNat 32 (plen * 65536 + op)))
/-- A stored batch with one record. -/
def batch (n : Nat) (closed : Bool) (trailer : Option (List (BitVec 8))) : HwBatch := ⟨n, n, [0], 0, closed, [], 0, (0, 0, 0), trailer, false⟩
/-- Heartwood is calibrated in a pulse mode, with 8,000 pulses and 20,000 counts per km, on a source. -/
def calibrated (mode src : Nat) (h : Heart) : Heart := ({ h with cal := ⟨8000, 20000, 20, 100, mode⟩ } : Heart).setReg 0x80 (BitVec.ofNat 32 (1 + 256 * src))
/-- The frame that carries bits 16 to 495. -/
def hsl (body : Nat) : BitVec 512 :=
  BitVec.ofNat 512 (descramble (0xF628 * 2 ^ 496 + body * 2 ^ 16 + crcForward 16 0x1021 0xFFFF (beBytes 60 body)))
/-- Link 0 is in frame, with its frames ending where the periods end. -/
def framed (h : Heart) : Heart := { h with link0 := { HwLink.reset with state := 2, pos := 512, dataBits := 401 }, link0Seen := true }
/-- Asleep in a mode with PWR_REQ low long enough, and wake source k enabled. -/
def rw (k mode : Nat) : State := start fun d => rset 0x20 mode (rset (tapReg 0x38) 1 (rset (tapReg 0x30) (2 ^ k)
  { d with tap := { d.tap with asleep := true, powerLow := true }, cam := { d.cam with raw := 2 ^ 50, coarse := 5 } }))
/-- Waking from a mode, with the mode before sleep. -/
def wakes (mode held : Nat) : State :=
  start fun d => rset (burlReg 0x4000) 2 (rset 0x20 mode { d with
    tap := { d.tap with asleep := true, waking := true, heldMode := held }, cam := { d.cam with raw := 2 ^ 50, anchor := some (0, 0) } })

/-- The state a command leaves. -/
def after (c : Instr) (s : State) : State := match exec c s with | .next t => t | _ => s
/-- A state with one command waiting. -/
def waits (c : Instr) (s : State) : State := { s with pending := [c] }

/-! ## Worked examples of the spec -/

/-- Ring 20 of H0 as 02_basjo's example of a full event ring has it: 64 entries, host index 0x1000, device index 0x1040. -/
def ring20 (seq lost : Nat) : State := start fun d =>
  (bset (hostReg 0 0x144) 0x80000014 (bset (ringReg 0 20 8) 0x8000 (bset (ringReg 0 20 0x14) 0x1000 (bset (ringReg 0 20 0x18) 0x1040 (bset (ringReg 0 20 0x1C) 16
    (bset (ringReg 0 20 0x10) 0x80060004 (bset (hostReg 0 0) 1 d))))))).onBasjo
      fun b => b.setRing 0 20 { RingRun.idle with seq := BitVec.ofNat 32 seq, lostSince := BitVec.ofNat 32 lost }

/-- Step 1: the record takes SEQ 0xFFFFFFFF and is discarded, LOST = 1. -/
theorem test_full_ring_loses : (((ring20 0xFFFFFFFF 0).dev.raise 17 1 0x10 0 0 0).basjo.ring 0 20).seq = 0 ∧
    ((ring20 0xFFFFFFFF 0).dev.raise 17 1 0x10 0 0 0).basjo.reg (ringReg 0 20 0x20) = 1 := by decide
/-- Step 3: the doorbell 0x100A is accepted. -/
theorem test_doorbell_evt : (after (.doorbellWrite 0 20 0x100A []) (ring20 4 5)).dev.basjo.hostIdx 0 20 = 0x100A := by decide
/-- Step 4: EVENT_OVERFLOW at entry 0 with SEQ 4, payload A 5 and payload B 20; the device index becomes 0x1041. -/
theorem test_overflow_record : let b := (after (.eventOverflow 0 (.ring 20)) { ring20 4 5 with dev := bset (ringReg 0 20 0x14) 0x100A (ring20 4 5).dev }).dev.basjo
    b.devIdx 0 20 = 0x1041 ∧ b.octet 0 0 = 4 ∧ b.octet 0 20 = 5 ∧ b.octet 0 24 = 20 ∧ (b.ring 0 20).seq = 5 := by decide

/-- 08_cambium's switchover: OFF of 3,200 ns slews at 50 ppm to 2,700 ns after 10 ms and to 0 after 64 ms. -/
theorem test_slew : let d := (start fun d => rset (camReg 0x208) 50 { d with cam := { d.cam with off := 3200 * 65536, offAt := 0 } }).dev
    d.offAt (10 * msRaw) = 2700 * 65536 ∧ d.offAt (40 * msRaw) = 1200 * 65536 ∧ d.offAt (64 * msRaw) = 0 := by decide

/-- 21_register_block_index's addresses of one queue: its QCTL, its CIR and its gate entry 10. -/
theorem test_queue_addresses : queueReg 43 0 = 0x310AC0 ∧ crownQ 5 3 4 = 0x3451C4 ∧ gclAddr 5 10 = 0x36A850 ∧
    blockOf 0x3451C4 = some 8 ∧ blockOf 0x36A850 = some 8 ∧ blockOf 0x310AC0 = some 7 := by decide

/-- 00_scope's decoding of an SLP-T72-C: its capability registers, and 18 Ethernet ports. -/
theorem test_variant_c : regReset .c 0x10 = 0x04D00003 ∧ regReset .c 0x1C = 0xF0F00FF3 ∧
    ((List.range 36).filter (portPresent .c)).length = 18 ∧ [32, 33, 34, 35, 37].all (fun p => !portPresent .c p) = true := by decide

/-- 05_grove's learning race: payload A of the move from P5 to P14. -/
theorem test_move_payload : movePayload 5 14 = 0x50E := by decide

/-- 13_heartwood's broken pulse wire, step 2: 120 pulses and 444 link counts. -/
def brokenWire : State := hw fun h => { calibrated 0 0 h with
  time := 1001000001, cum := 812345700650, nextSeq := 60002, subA := [120, 0, 0, 0, 0, 0, 0, 0, 0, 0]
  wt := ⟨none, some (5000, 1001000000), true⟩, link0Seen := true
  link0 := { HwLink.reset with state := 2, out := false, good := 2000, fresh := false, sub := [444, 0, 0, 0, 0, 0, 0, 0, 0, 0] }
  batches := [⟨700, 60000, [0, 0], 1000000000, false, [], 0, (0, 0, 0), none, false⟩], nextBatch := 701 }
theorem test_broken_wire : let h := (after .hwSecondEnd brokenWire).heart
    h.cum = 812345722850 ∧ h.nextSeq = 60004 ∧ (h.batches.all fun b => b.closed && b.number = 700 && b.recs.length = 4) = true := by decide
theorem test_broken_wire_record : let r := ((after .hwSecondEnd brokenWire).heart.batches.headD ⟨0, 0, [], 0, false, [], 0, (0, 0, 0), none, false⟩).recs.getD 2 0
    fld r 223 192 = 22200 ∧ fld r 335 320 = 0x000C ∧ fld r 351 336 = 7992 ∧ fld r 399 384 = 0x78 ∧ fld r 319 272 = 812345722 ∧ fld r 63 0 = 60002 := by decide

/-- 14_heartwood's justified frame: WPTR goes back by the data bits of the frame before, modulo 128. -/
theorem test_wptr : [45, 28, 11, 122].map (fun w => (w + 4 * 128 - 401) % 128) = [28, 11, 122, 105] := by decide

/-- 12_burl and 11_burl count on published vectors: SHA-512 of "abc" begins DDAF35A1, the CRC-32 of "123456789" is CBF43926. -/
theorem test_digests : (sha512 (ascii "abc")).take 4 = [0xDD, 0xAF, 0x35, 0xA1] ∧ crc32 (ascii "123456789") = 0xCBF43926 ∧
    crc32c (ascii "123456789") = 0xE3069283 := by decide
/-- AES-128 of FIPS 197, appendix C.1. -/
theorem test_aes : (aes ((List.range 16).map (BitVec.ofNat 8)) ((List.range 16).map fun k => BitVec.ofNat 8 (17 * k))).take 4 =
    [0x69, 0xC4, 0xE0, 0xD8] := by decide

/-! ## Terms that spell no event -/

theorem test_wf_register : (Instr.registerWrite cpu 2 (some 0)).illFormed = some .unalignedRegister := by decide
theorem test_wf_lower : (Instr.tableWordLowerWrite cpu 4 0).illFormed = some .wrongHalf := by decide
theorem test_wf_upper : (Instr.tableWordUpperWrite cpu 8 0).illFormed = some .wrongHalf := by decide
theorem test_wf_bar0 : (Instr.bar0UnsupportedAccess 0 8 4).illFormed = some .supportedAccess := by decide
theorem test_wf_frame : (Instr.heartbeatFrameRx []).illFormed = some .emptyFrame := by decide
theorem test_wf_can : (Instr.canFrameRx 1 { canMsg with id := 2048 } 0).illFormed = some .badCan := by decide
theorem test_wf_lin : (Instr.linResponseRx 1 5 (List.replicate 9 0) 0 .none 0).illFormed = some .longLin := by decide
theorem test_wf_size : (Instr.sapwoodTransfer coreA 0x580080 none 3 false false).illFormed = some .badSize := by decide
theorem test_wf_request : (Instr.getStatus (.issue coreA [])).illFormed = some .badRequest := by decide
theorem test_wf_part : (Instr.correctedError (.other 0x99 0)).illFormed = some .unknownPart := by decide
theorem test_wf_good : (Instr.registerWrite cpu 0x50 (some 0)).wellFormed = true ∧ (Instr.getStatus .serve).wellFormed = true := by decide

/-! ## Witnesses of the statements' hypotheses: witness_<statement>_<clause> -/

theorem witness_StepTakesFront_1 : ((waits .avgUpdate State.reset).pending = .avgUpdate :: []) := by decide
theorem witness_StepTakesFront_3 : (State.reset.pending = []) := by decide
theorem witness_DiesActApart_1 : (heartwoodRow .hwSecondEnd = true) ∧ (exec .hwSecondEnd State.reset = .next State.reset) := ⟨by
    decide, rfl⟩
theorem witness_DiesActApart_2 : (heartwoodRow .avgUpdate = false) ∧ (crossingRow .avgUpdate = false) ∧ (exec .avgUpdate State.reset
    = .next (after .avgUpdate State.reset)) := ⟨by decide, by decide, rfl⟩
theorem witness_DiesActApart_3 : (resetRow .vaonLoss = true) ∧ (exec .vaonLoss State.reset = .next (after .vaonLoss State.reset)) :=
    ⟨by decide, rfl⟩
theorem witness_DiesActApart_4 : ((start fun d => { d with tap := { d.tap with asleep := true } }).dev.runs = false) ∧ (offRow
    .avgUpdate = false) ∧ (heartwoodRow .avgUpdate = false) ∧ (crossingRow .avgUpdate = false) ∧ (exec .avgUpdate (start fun d =>
    { d with tap := { d.tap with asleep := true } }) = .next (start fun d => { d with tap := { d.tap with asleep := true } })) :=
    ⟨by decide, by decide, by decide, by decide, rfl⟩
theorem witness_StoresStayCanonical_1 : ((start (keyed 3 (key 1 false 5))).dev.canonical = true) ∧ (step (waits .avgUpdate (start
    (keyed 3 (key 1 false 5)))) = .next (after .avgUpdate (start (keyed 3 (key 1 false 5))))) := ⟨by decide, rfl⟩
theorem witness_SafeEndsOnlyByReset_1 : ((start (rset (rasReg 0) 0x80000006)).dev.safe = true) ∧ (resetRow (.safeReq cpu) = false) ∧
    ((start (rset (rasReg 0) 0x80000006)).dev.tokenInRange) ∧ (exec (.safeReq cpu) (start (rset (rasReg 0) 0x80000006)) = .next
    (after (.safeReq cpu) (start (rset (rasReg 0) 0x80000006)))) := ⟨by decide, by decide, (fun _ h => nomatch h), rfl⟩
theorem witness_HeartwoodKeepsItsRecords_1 : ((hw fun h =>
    { h with batches := [⟨0, 0, [0], 0, false, [], 0, (0, 0, 0), none, false⟩], nextSeq := 1, nextBatch := 1 }).heart.Sound) ∧ (step
    (waits .hwSecondEnd (hw fun h =>
    { h with batches := [⟨0, 0, [0], 0, false, [], 0, (0, 0, 0), none, false⟩], nextSeq := 1, nextBatch := 1 })) = .next (after
    .hwSecondEnd (hw fun h =>
    { h with batches := [⟨0, 0, [0], 0, false, [], 0, (0, 0, 0), none, false⟩], nextSeq := 1, nextBatch := 1 }))) := ⟨⟨rfl, rfl,
    rfl, ⟨⟨by decide, fun k h => by simp only [List.length_singleton, Nat.lt_one_iff] at h; subst h; rfl⟩, rfl, rfl⟩, by decide,
    rfl, rfl, rfl⟩, rfl⟩
theorem witness_RecordsEnterTheChain_2 : (step (waits .hwSecondEnd (hw id)) = .next (after .hwSecondEnd (hw id))) := rfl
theorem witness_RecordsEnterTheChain_3 : (heartPresent (hw id).dev.variant = true) ∧ ((hw id).heart.on = true) ∧ ((hw
    id).heart.calNext = []) := by decide
theorem witness_AccessesLand_1 : (State.reset.opens cpu (0x400020 : BitVec 32).toNat = true) ∧ (regRow (0x400020 : BitVec 32).toNat
    = some ((regRow 0x400020).getD (row1 "" 0 0))) ∧ (blockOf (0x400020 : BitVec 32).toNat = some 10) ∧ (wordMask (0x400020 : BitVec
    32).toNat = none) ∧ (wordMask ((0x400020 : BitVec 32).toNat - 4) = none) ∧ (((regRow 0x400020).getD (row1 "" 0 0)).rw ≠ 0) ∧
    (((regRow 0x400020).getD (row1 "" 0 0)).w1c = 0) := by decide
theorem witness_AccessesLand_2 : ((start (rset 0x400020 9)).dev.runs = true) ∧ (blockOf (0x400020 : BitVec 32).toNat = some 10) ∧
    (wordMask (0x400020 : BitVec 32).toNat = none) ∧ (wordMask ((0x400020 : BitVec 32).toNat - 4) = none) ∧ (reaches cpu.origin.val
    10 = true) ∧ ((start (rset 0x400020 9)).dev.permitted 1 cpu.origin.val 10 = true) ∧ ((start (rset 0x400020 9)).clocked (0x400020
    : BitVec 32).toNat = true) := by decide
theorem witness_AccessesLand_3 : ((start (rset (rasReg 0x1034) 0)).dev.runs = true) ∧ (blockOf (0x400020 : BitVec 32).toNat = some
    10) ∧ (wordMask (0x400020 : BitVec 32).toNat = none) ∧ (wordMask ((0x400020 : BitVec 32).toNat - 4) = none) ∧ (reaches
    coreA.origin.val 10 = true) ∧ ((start (rset (rasReg 0x1034) 0)).dev.permitted 1 coreA.origin.val 10 = false) ∧ (3 ≤
    coreA.origin.val) := by decide
theorem witness_AccessesLand_4 : ((start (rset (rasReg 0x1014) 0)).dev.runs = true) ∧ (blockOf (0x400020 : BitVec 32).toNat = some
    10) ∧ (wordMask (0x400020 : BitVec 32).toNat = none) ∧ (wordMask ((0x400020 : BitVec 32).toNat - 4) = none) ∧ (reaches
    cpu.origin.val 10 = true) ∧ (cpu.origin.val = (0 : Fin 2).val + 1) ∧ ((start (rset (rasReg 0x1014) 0)).dev.permitted 1
    cpu.origin.val 10 = false) := by decide
theorem witness_AccessesLand_5 : (State.reset.opens cpu (0x320008 : BitVec 32).toNat = true) ∧ ((wordMask (0x320008 : BitVec
    32).toNat).isSome = true) := by decide
theorem witness_AccessesLand_6 : ((0x32000C : BitVec 32).toNat = 0x320008 + 4) ∧ ((start fun d =>
    { d with lower := [(1, some (0x320008, 5))] }).opens cpu 0x320008 = true) ∧ (wordMask 0x320008 = some ((wordMask 0x320008).getD
    0)) ∧ (((wordMask 0x320008).getD 0) ≠ 0) ∧ (0x320008 < 0x1000000 ∨ meets (start fun d =>
    { d with lower := [(1, some (0x320008, 5))] }).dev.protectedExtents ((0x320008 - 0x1000000) / 8) 1 = false) ∧ (0x320008 <
    0x368000 ∨ 0x37A000 ≤ 0x320008 ∨ ((start fun d => { d with lower := [(1, some (0x320008, 5))] }).dev.gate ((0x320008 - 0x368000)
    / 0x800)).pending = none) ∧ ((start fun d => { d with lower := [(1, some (0x320008, 5))] }).clocked 0x320008 = true) ∧ ((start
    fun d => { d with lower := [(1, some (0x320008, 5))] }).dev.lower.get none cpu.origin.val = some (0x320008, (5 : BitVec 32))) :=
    by decide
theorem witness_AccessesLand_7 : ((0x100000C : BitVec 32).toNat = 0x1000008 + 4) ∧ ((start fun d => rset (verReg 0 8) 17 (rset
    (verReg 0 0) 1 { d with lower := [(1, some (0x1000008, 5))] })).opens cpu 0x1000008 = true) ∧ (0x1000000 ≤ 0x1000008) ∧
    (wordMask 0x1000008 = some 0xFFFFFFFFFFFFFFFF) ∧ (meets (start fun d => rset (verReg 0 8) 17 (rset (verReg 0 0) 1
    { d with lower := [(1, some (0x1000008, 5))] })).dev.protectedExtents ((0x1000008 - 0x1000000) / 8) 1 = true) ∧ ((start fun d =>
    rset (verReg 0 8) 17 (rset (verReg 0 0) 1 { d with lower := [(1, some (0x1000008, 5))] })).clocked 0x1000008 = true) ∧ ((start
    fun d => rset (verReg 0 8) 17 (rset (verReg 0 0) 1 { d with lower := [(1, some (0x1000008, 5))] })).dev.lower.get none
    cpu.origin.val = some (0x1000008, (5 : BitVec 32))) := by decide
theorem witness_AccessesLand_8 : (State.reset.opens cpu (rlAddr (3 : Fin 4096).val) = true) ∧ (State.reset.clocked (rlAddr (3 : Fin
    4096).val) = true) ∧ (State.reset.dev.lower.get none cpu.origin.val = none) := by decide
theorem witness_AccessesLand_9 : ((start fun d =>
    { d with clocks := { d.clocks with stopped := [0x3002], held := [⟨cpu, 0x400000, some 0x40000000, 0, false, 0x30, 2⟩, ⟨cpu, 0x400020, none, 0, false, 0x30, 0⟩] } }).dev.runs
    = true) ∧ ((start fun d =>
    { d with clocks := { d.clocks with stopped := [0x3002], held := [⟨cpu, 0x400000, some 0x40000000, 0, false, 0x30, 2⟩, ⟨cpu, 0x400020, none, 0, false, 0x30, 0⟩] } }).dev.disabledBranch
    (0x30 : BitVec 8).toNat (2 : BitVec 8).toNat = false) ∧ ((start fun d =>
    { d with clocks := { d.clocks with stopped := [0x3002], held := [⟨cpu, 0x400000, some 0x40000000, 0, false, 0x30, 2⟩, ⟨cpu, 0x400020, none, 0, false, 0x30, 0⟩] } }).dev.unitPowered
    (0x30 : BitVec 8).toNat (2 : BitVec 8).toNat = true) := by decide
theorem witness_AccessesLand_10 : ((start fun d =>
    { d with clocks := { d.clocks with held := [⟨cpu, 0x400000, some 0x40000000, 0, false, 0x30, 2⟩] } }).dev.runs = true) ∧ ((start
    fun d => { d with clocks := { d.clocks with held := [⟨cpu, 0x400000, some 0x40000000, 0, false, 0x30, 2⟩] } }).dev.clocks.held =
    [(⟨cpu, 0x400000, some 0x40000000, 0, false, 0x30, 2⟩ : HeldAccess)]) ∧ ((⟨cpu, 0x400000, some 0x40000000, 0, false, 0x30, 2⟩ :
    HeldAccess).cluster = 0x30) ∧ ((⟨cpu, 0x400000, some 0x40000000, 0, false, 0x30, 2⟩ : HeldAccess).unit = (2 : BitVec 8).toNat) ∧
    ((⟨cpu, 0x400000, some 0x40000000, 0, false, 0x30, 2⟩ : HeldAccess).isWord = false) ∧ ((⟨cpu, 0x400000, some 0x40000000, 0,
    false, 0x30, 2⟩ : HeldAccess).value = some (0x40000000 : Word)) ∧ (regRow (⟨cpu, 0x400000, some 0x40000000, 0, false, 0x30, 2⟩ :
    HeldAccess).addr = some ((regRow 0x400000).getD (row1 "" 0 0))) ∧ (blockOf (⟨cpu, 0x400000, some 0x40000000, 0, false, 0x30, 2⟩
    : HeldAccess).addr = some 10) := by decide
theorem witness_AccessesLand_11 : (¬ ((4 = 4 ∨ 4 = 8) ∧ (2 : BitVec 26).toNat % 4 = 0)) := by decide
theorem witness_RingsRise_1 : ((start fun d => bset (hostReg 0 0) 1 (bset (ringReg 0 0 0x10) 0x60003 d)).opens cpu (ringReg (0 : Fin
    2).val (0 : Fin 128).val 0x10) = true) ∧ ((start fun d => bset (hostReg 0 0) 1 (bset (ringReg 0 0 0x10) 0x60003
    d)).dev.basjo.ringEnabled (0 : Fin 2).val (0 : Fin 128).val = false) ∧ ((start fun d => bset (hostReg 0 0) 1 (bset (ringReg 0 0
    0x10) 0x60003 d)).dev.basjo.ringValid (0 : Fin 2).val (0 : Fin 128).val = true) := by decide
theorem witness_RingsRise_2 : (State.reset.opens cpu (ringReg (0 : Fin 2).val (0 : Fin 128).val 0x10) = true) ∧
    (State.reset.dev.basjo.ringEnabled (0 : Fin 2).val (0 : Fin 128).val = false) ∧ (State.reset.dev.basjo.ringValid (0 : Fin 2).val
    (0 : Fin 128).val = false) := by decide
theorem witness_RingsRise_3 : ((start (ring 3)).opens cpu (ringReg (0 : Fin 2).val (0 : Fin 128).val 0x10) = true) ∧ ((start (ring
    3)).dev.basjo.ringEnabled (0 : Fin 2).val (0 : Fin 128).val = true) := by decide
theorem witness_RingsRise_4 : ((start (ring 3)).opens cpu (ringReg (0 : Fin 2).val (0 : Fin 128).val 0x10) = true) := by decide
theorem witness_RingsRise_5 : ((start fun d => bset (ringReg 0 0 0x1C) 16 (bset (ringReg 0 0 0x10) 0x60003 d)).dev.runs = true) ∧
    ((start fun d => bset (ringReg 0 0 0x1C) 16 (bset (ringReg 0 0 0x10) 0x60003 d)).dev.basjo.ringActive (0 : Fin 2).val (0 : Fin
    128).val = true) ∧ ((start fun d => bset (ringReg 0 0 0x1C) 16 (bset (ringReg 0 0 0x10) 0x60003 d)).dev.basjo.ringEnabled (0 :
    Fin 2).val (0 : Fin 128).val = false) ∧ ((start fun d => bset (ringReg 0 0 0x1C) 16 (bset (ringReg 0 0 0x10) 0x60003
    d)).dev.ringDone (0 : Fin 2).val (0 : Fin 128).val = true) := by decide
theorem witness_DoorbellMovesIndex_1 : ((start (ring 3)).dev.runs = true) ∧ ((hostPorts (start (ring 3)).dev.variant).contains (0 :
    Fin 2).val = true) ∧ ((start (ring 3)).dev.permitted 0 ((0 : Fin 2).val + 1) 1 = true) ∧ ((start (ring 3)).dev.basjo.ringEnabled
    (0 : Fin 2).val (0 : Fin 128).val = true) ∧ ((start (ring 3)).dev.basjo.ringType (0 : Fin 2).val (0 : Fin 128).val ≠ 2) ∧
    ((start (ring 3)).dev.basjo.ringType (0 : Fin 2).val (0 : Fin 128).val ≠ 4) ∧ (dist32 ((start (ring 3)).dev.basjo.hostIdx (0 :
    Fin 2).val (0 : Fin 128).val) (2 : BitVec 32) ≤ (start (ring 3)).dev.basjo.ringSize (0 : Fin 2).val (0 : Fin 128).val) ∧ (dist32
    ((start (ring 3)).dev.basjo.devIdx (0 : Fin 2).val (0 : Fin 128).val) (2 : BitVec 32) ≤ (start (ring 3)).dev.basjo.ringSize (0 :
    Fin 2).val (0 : Fin 128).val) := by decide
theorem witness_DoorbellMovesIndex_2 : ((start (ring 2)).dev.runs = true) ∧ ((hostPorts (start (ring 2)).dev.variant).contains (0 :
    Fin 2).val = true) ∧ ((start (ring 2)).dev.permitted 0 ((0 : Fin 2).val + 1) 1 = true) ∧ ((start (ring 2)).dev.basjo.ringEnabled
    (0 : Fin 2).val (0 : Fin 128).val = true) ∧ ((start (ring 2)).dev.basjo.ringType (0 : Fin 2).val (0 : Fin 128).val = 2) ∧ ((2 :
    BitVec 32) ≠ (start (ring 2)).dev.basjo.hostIdx (0 : Fin 2).val (0 : Fin 128).val) ∧ (dist32 ((start (ring 2)).dev.basjo.hostIdx
    (0 : Fin 2).val (0 : Fin 128).val) (2 : BitVec 32) ≤ (start (ring 2)).dev.basjo.ringSize (0 : Fin 2).val (0 : Fin 128).val) ∧
    (dist32 ((start (ring 2)).dev.basjo.devIdx (0 : Fin 2).val (0 : Fin 128).val) (2 : BitVec 32) ≤ (start (ring
    2)).dev.basjo.ringSize (0 : Fin 2).val (0 : Fin 128).val) := by decide
theorem witness_DoorbellMovesIndex_3 : ((start fun d => bset (ringReg 0 0 0x18) 9 (bset (ringReg 0 0 0x14) 3 (ring 4 d))).dev.runs =
    true) ∧ ((hostPorts (start fun d => bset (ringReg 0 0 0x18) 9 (bset (ringReg 0 0 0x14) 3 (ring 4 d))).dev.variant).contains (0 :
    Fin 2).val = true) ∧ ((start fun d => bset (ringReg 0 0 0x18) 9 (bset (ringReg 0 0 0x14) 3 (ring 4 d))).dev.permitted 0 ((0 :
    Fin 2).val + 1) 1 = true) ∧ ((start fun d => bset (ringReg 0 0 0x18) 9 (bset (ringReg 0 0 0x14) 3 (ring 4
    d))).dev.basjo.ringEnabled (0 : Fin 2).val (0 : Fin 128).val = true) ∧ ((start fun d => bset (ringReg 0 0 0x18) 9 (bset (ringReg
    0 0 0x14) 3 (ring 4 d))).dev.basjo.ringType (0 : Fin 2).val (0 : Fin 128).val = 4) ∧ (dist32 ((start fun d => bset (ringReg 0 0
    0x18) 9 (bset (ringReg 0 0 0x14) 3 (ring 4 d))).dev.basjo.hostIdx (0 : Fin 2).val (0 : Fin 128).val) (9 : BitVec 32) ≤ dist32
    ((start fun d => bset (ringReg 0 0 0x18) 9 (bset (ringReg 0 0 0x14) 3 (ring 4 d))).dev.basjo.hostIdx (0 : Fin 2).val (0 : Fin
    128).val) ((start fun d => bset (ringReg 0 0 0x18) 9 (bset (ringReg 0 0 0x14) 3 (ring 4 d))).dev.basjo.devIdx (0 : Fin 2).val (0
    : Fin 128).val)) := by decide
theorem witness_DoorbellMovesIndex_4 : ((start (ring 3)).dev.runs = true) ∧ ((hostPorts (start (ring 3)).dev.variant).contains (0 :
    Fin 2).val = true) ∧ ((start (ring 3)).dev.permitted 0 ((0 : Fin 2).val + 1) 1 = true) ∧ ((start (ring 3)).dev.basjo.ringEnabled
    (0 : Fin 2).val (0 : Fin 128).val = true) ∧ ((200 : BitVec 32) ≠ (start (ring 3)).dev.basjo.hostIdx (0 : Fin 2).val (0 : Fin
    128).val) ∧ ((((start (ring 3)).dev.basjo.ringType (0 : Fin 2).val (0 : Fin 128).val ≠ 4 ∧ ((start (ring 3)).dev.basjo.ringSize
    (0 : Fin 2).val (0 : Fin 128).val < dist32 ((start (ring 3)).dev.basjo.hostIdx (0 : Fin 2).val (0 : Fin 128).val) (200 : BitVec
    32) ∨ (start (ring 3)).dev.basjo.ringSize (0 : Fin 2).val (0 : Fin 128).val < dist32 ((start (ring 3)).dev.basjo.devIdx (0 : Fin
    2).val (0 : Fin 128).val) (200 : BitVec 32))) ∨ ((start (ring 3)).dev.basjo.ringType (0 : Fin 2).val (0 : Fin 128).val = 4 ∧
    dist32 ((start (ring 3)).dev.basjo.hostIdx (0 : Fin 2).val (0 : Fin 128).val) ((start (ring 3)).dev.basjo.devIdx (0 : Fin 2).val
    (0 : Fin 128).val) < dist32 ((start (ring 3)).dev.basjo.hostIdx (0 : Fin 2).val (0 : Fin 128).val) (200 : BitVec 32)))) := by
    decide
theorem witness_DoorbellMovesIndex_5 : ((start (ring 3)).dev.runs = true) ∧ ((hostPorts (start (ring 3)).dev.variant).contains (0 :
    Fin 2).val = true) ∧ ((start (ring 3)).dev.permitted 0 ((0 : Fin 2).val + 1) 1 = true) ∧ ((1 : BitVec 32) = (start (ring
    3)).dev.basjo.hostIdx (0 : Fin 2).val (0 : Fin 128).val) := by decide
theorem witness_DoorbellMovesIndex_6 : (State.reset.dev.runs = true) ∧ ((hostPorts State.reset.dev.variant).contains (0 : Fin 2).val
    = true) ∧ (State.reset.dev.permitted 0 ((0 : Fin 2).val + 1) 1 = true) ∧ (State.reset.dev.basjo.ringEnabled (0 : Fin 2).val (0 :
    Fin 128).val = false) := by decide
theorem witness_DoorbellMovesIndex_7 : ((start (rset (rasReg 0x1010) 0)).dev.runs = true) ∧ ((hostPorts (start (rset (rasReg 0x1010)
    0)).dev.variant).contains (0 : Fin 2).val = true) ∧ ((start (rset (rasReg 0x1010) 0)).dev.permitted 0 ((0 : Fin 2).val + 1) 1 =
    false) := by decide
theorem witness_DoorbellMovesIndex_8 : ((start (ring 3)).dev.runs = true) ∧ ((start (ring 3)).dev.basjo.ringEnabled (0 : Fin 2).val
    (0 : Fin 128).val = true) ∧ ((start (ring 3)).dev.basjo.ringType (0 : Fin 2).val (0 : Fin 128).val ≠ 2) ∧ ((3 : BitVec 32) ≠
    (start (ring 3)).dev.basjo.hostIdx (0 : Fin 2).val (0 : Fin 128).val) ∧ ((3 : BitVec 32) ≠ (2 : BitVec 32)) ∧ (exec
    (.doorbellWrite (0 : Fin 2) (0 : Fin 128) (2 : BitVec 32) []) (start (ring 3)) = .next (start (fun d => (ring 3 d).onBasjo (fun
    b => b.setReg (ringReg 0 0 0x14) 2)))) ∧ ((start (ring 3)).dev.basjo.doorbellOk (0 : Fin 2).val (0 : Fin 128).val (2 : BitVec
    32) = true) ∧ ((start (ring 3)).dev.basjo.doorbellOk (0 : Fin 2).val (0 : Fin 128).val (3 : BitVec 32) = true) ∧ ((start (fun d
    => (ring 3 d).onBasjo (fun b => b.setReg (ringReg 0 0 0x14) 2))).dev.basjo.doorbellOk (0 : Fin 2).val (0 : Fin 128).val (3 :
    BitVec 32) = true) := ⟨by decide, by decide, by decide, by decide, by decide, rfl, by decide, by decide, by decide⟩
theorem witness_TransmitRingsRead_1 : ((start (ring 1)).dev.runs = true) ∧ ((start (ring 1)).dev.basjo.ringRuns (0 : Fin 2).val (0 :
    Fin 128).val 1 = true) ∧ (((start (ring 1)).dev.basjo.ring (0 : Fin 2).val (0 : Fin 128).val).descs = []) ∧ (((start (ring
    1)).dev.basjo.ring (0 : Fin 2).val (0 : Fin 128).val).rejecting = false) ∧ (dist32 ((start (ring 1)).dev.basjo.devIdx (0 : Fin
    2).val (0 : Fin 128).val) ((start (ring 1)).dev.basjo.hostIdx (0 : Fin 2).val (0 : Fin 128).val) ≠ 0) ∧ ((start (ring
    1)).dev.turnsLeft (0 : Fin 2).val (0 : Fin 128).val = true) ∧ ((start (ring 1)).dev.heldWrite ((0 : Fin 2).val + 1) = false) ∧
    (TxDesc.malformed (⟨0, 64, 0, 0⟩ : TxDesc) = false) ∧ ((start (ring 1)).dev.basjo.ringSize (0 : Fin 2).val (0 : Fin 128).val ≥
    2) := by decide
theorem witness_TransmitRingsRead_2 : ((start fun d => rset (sptReg 0 0xC) 1 (rset (sptReg 0 0) 0x80060000 d)).dev.runs = true) ∧
    ((start fun d => rset (sptReg 0 0xC) 1 (rset (sptReg 0 0) 0x80060000 d)).dev.txRuns (.canopy (0 : Fin 4)) = true) ∧ (((start fun
    d => rset (sptReg 0 0xC) 1 (rset (sptReg 0 0) 0x80060000 d)).dev.basjo.ring 2 (0 : Fin 4).val).descs = []) ∧ (((start fun d =>
    rset (sptReg 0 0xC) 1 (rset (sptReg 0 0) 0x80060000 d)).dev.basjo.ring 2 (0 : Fin 4).val).rejecting = false) ∧ (dist32 ((start
    fun d => rset (sptReg 0 0xC) 1 (rset (sptReg 0 0) 0x80060000 d)).dev.reg (sptReg (0 : Fin 4).val 0x10)) ((start fun d => rset
    (sptReg 0 0xC) 1 (rset (sptReg 0 0) 0x80060000 d)).dev.reg (sptReg (0 : Fin 4).val 0xC)) ≠ 0) ∧ ((start fun d => rset (sptReg 0
    0xC) 1 (rset (sptReg 0 0) 0x80060000 d)).dev.heldWrite 11 = false) ∧ (TxDesc.malformed (⟨0, 64, 0, 0⟩ : TxDesc) = false) ∧
    ((start fun d => rset (sptReg 0 0xC) 1 (rset (sptReg 0 0) 0x80060000 d)).dev.rf (sptReg (0 : Fin 4).val 0) 20 16 ≥ 1) := by
    decide
theorem witness_TransmitRingsRead_3 : ((start fun d => (bset (ringReg 0 0 0x14) 2 (ring 1 d)).onBasjo (fun b => b.setRing 0 0
    { RingRun.idle with descs := [⟨0, 64, 0, 0⟩], stamp := 7, order := 3 })).dev.runs = true) ∧ ((start fun d => (bset (ringReg 0 0
    0x14) 2 (ring 1 d)).onBasjo (fun b => b.setRing 0 0
    { RingRun.idle with descs := [⟨0, 64, 0, 0⟩], stamp := 7, order := 3 })).dev.txDrains (.host (0 : Fin 2) (0 : Fin 128)) = true)
    ∧ (((start fun d => (bset (ringReg 0 0 0x14) 2 (ring 1 d)).onBasjo (fun b => b.setRing 0 0
    { RingRun.idle with descs := [⟨0, 64, 0, 0⟩], stamp := 7, order := 3 })).dev.basjo.ring (0 : Fin 2).val (0 : Fin 128).val).descs
    = ([⟨0, 64, 0, 0⟩] : List TxDesc)) ∧ (([⟨0, 64, 0, 0⟩] : List TxDesc) ≠ []) ∧ (([⟨0, 64, 0, 0⟩] : List TxDesc).all (fun x =>
    !TxDesc.eop x) = true) ∧ (((start fun d => (bset (ringReg 0 0 0x14) 2 (ring 1 d)).onBasjo (fun b => b.setRing 0 0
    { RingRun.idle with descs := [⟨0, 64, 0, 0⟩], stamp := 7, order := 3 })).dev.basjo.ring (0 : Fin 2).val (0 : Fin
    128).val).rejecting = false) ∧ (([⟨0, 64, 0, 0⟩] : List TxDesc).length < dist32 ((start fun d => (bset (ringReg 0 0 0x14) 2
    (ring 1 d)).onBasjo (fun b => b.setRing 0 0
    { RingRun.idle with descs := [⟨0, 64, 0, 0⟩], stamp := 7, order := 3 })).dev.basjo.devIdx (0 : Fin 2).val (0 : Fin 128).val)
    ((start fun d => (bset (ringReg 0 0 0x14) 2 (ring 1 d)).onBasjo (fun b => b.setRing 0 0
    { RingRun.idle with descs := [⟨0, 64, 0, 0⟩], stamp := 7, order := 3 })).dev.basjo.hostIdx (0 : Fin 2).val (0 : Fin 128).val)) ∧
    ((start fun d => (bset (ringReg 0 0 0x14) 2 (ring 1 d)).onBasjo (fun b => b.setRing 0 0
    { RingRun.idle with descs := [⟨0, 64, 0, 0⟩], stamp := 7, order := 3 })).dev.heldWrite ((0 : Fin 2).val + 1) = false) ∧
    (TxDesc.malformed (⟨0, 0x10000 + 64, 0, 0⟩ : TxDesc) = false) ∧ (([⟨0, 64, 0, 0⟩] : List TxDesc).length < 63) ∧ (([⟨0, 64, 0,
    0⟩] : List TxDesc).length + 1 < (start fun d => (bset (ringReg 0 0 0x14) 2 (ring 1 d)).onBasjo (fun b => b.setRing 0 0
    { RingRun.idle with descs := [⟨0, 64, 0, 0⟩], stamp := 7, order := 3 })).dev.basjo.ringSize (0 : Fin 2).val (0 : Fin 128).val)
    := by decide
theorem witness_TransmitRingsRead_4 : ((start (ring 1)).dev.runs = true) ∧ ((start (ring 1)).dev.basjo.ringRuns (0 : Fin 2).val (0 :
    Fin 128).val 1 = true) ∧ (((start (ring 1)).dev.basjo.ring (0 : Fin 2).val (0 : Fin 128).val).descs = []) ∧ (((start (ring
    1)).dev.basjo.ring (0 : Fin 2).val (0 : Fin 128).val).rejecting = false) ∧ (dist32 ((start (ring 1)).dev.basjo.devIdx (0 : Fin
    2).val (0 : Fin 128).val) ((start (ring 1)).dev.basjo.hostIdx (0 : Fin 2).val (0 : Fin 128).val) ≠ 0) ∧ ((start (ring
    1)).dev.turnsLeft (0 : Fin 2).val (0 : Fin 128).val = true) ∧ ((start (ring 1)).dev.heldWrite ((0 : Fin 2).val + 1) = false) :=
    by decide
theorem witness_TransmitRingsRead_5 : ((start (ring 1)).dev.runs = true) ∧ ((start (ring 1)).dev.basjo.ringRuns (0 : Fin 2).val (0 :
    Fin 128).val 1 = true) ∧ (((start (ring 1)).dev.basjo.ring (0 : Fin 2).val (0 : Fin 128).val).descs = []) ∧ (((start (ring
    1)).dev.basjo.ring (0 : Fin 2).val (0 : Fin 128).val).rejecting = false) ∧ (dist32 ((start (ring 1)).dev.basjo.devIdx (0 : Fin
    2).val (0 : Fin 128).val) ((start (ring 1)).dev.basjo.hostIdx (0 : Fin 2).val (0 : Fin 128).val) ≠ 0) ∧ ((start (ring
    1)).dev.turnsLeft (0 : Fin 2).val (0 : Fin 128).val = true) ∧ ((start (ring 1)).dev.heldWrite ((0 : Fin 2).val + 1) = false) ∧
    (TxDesc.malformed (⟨0, 0x40000, 0, 0⟩ : TxDesc) = true) := by decide
theorem witness_TransmitRingsRead_6 : ((start fun d => (ring 1 d).onBasjo (fun b => b.setRing 0 0
    { RingRun.idle with rejecting := true })).dev.runs = true) ∧ ((start fun d => (ring 1 d).onBasjo (fun b => b.setRing 0 0
    { RingRun.idle with rejecting := true })).dev.txDrains (.host (0 : Fin 2) (0 : Fin 128)) = true) ∧ (((start fun d => (ring 1
    d).onBasjo (fun b => b.setRing 0 0 { RingRun.idle with rejecting := true })).dev.basjo.ring (0 : Fin 2).val (0 : Fin
    128).val).descs = []) ∧ (((start fun d => (ring 1 d).onBasjo (fun b => b.setRing 0 0
    { RingRun.idle with rejecting := true })).dev.basjo.ring (0 : Fin 2).val (0 : Fin 128).val).rejecting = true) ∧ (dist32 ((start
    fun d => (ring 1 d).onBasjo (fun b => b.setRing 0 0 { RingRun.idle with rejecting := true })).dev.basjo.devIdx (0 : Fin 2).val
    (0 : Fin 128).val) ((start fun d => (ring 1 d).onBasjo (fun b => b.setRing 0 0
    { RingRun.idle with rejecting := true })).dev.basjo.hostIdx (0 : Fin 2).val (0 : Fin 128).val) ≠ 0) ∧ ((start fun d => (ring 1
    d).onBasjo (fun b => b.setRing 0 0 { RingRun.idle with rejecting := true })).dev.heldWrite ((0 : Fin 2).val + 1) = false) ∧
    (TxDesc.malformed (⟨0, 0x10000 + 64, 0, 0⟩ : TxDesc) = false) := by decide
theorem witness_TransmitRingsRead_7 : ((start fun d => (ring 1 d).onBasjo (fun b => b.setRing 0 0
    { RingRun.idle with descs := [⟨0, 0x10000 + 4, 0, 0⟩], stamp := 7, order := 3 })).dev.runs = true) ∧ ((start fun d => (ring 1
    d).onBasjo (fun b => b.setRing 0 0
    { RingRun.idle with descs := [⟨0, 0x10000 + 4, 0, 0⟩], stamp := 7, order := 3 })).dev.txDrains (.host (0 : Fin 2) (0 : Fin 128))
    = true) ∧ (((start fun d => (ring 1 d).onBasjo (fun b => b.setRing 0 0
    { RingRun.idle with descs := [⟨0, 0x10000 + 4, 0, 0⟩], stamp := 7, order := 3 })).dev.basjo.ring (0 : Fin 2).val (0 : Fin
    128).val).descs = ([] : List TxDesc) ++ [(⟨0, 0x10000 + 4, 0, 0⟩ : TxDesc)]) ∧ (TxDesc.eop (⟨0, 0x10000 + 4, 0, 0⟩ : TxDesc) =
    true) ∧ (txReject (.host (0 : Fin 2) (0 : Fin 128)) (([] : List TxDesc) ++ [(⟨0, 0x10000 + 4, 0, 0⟩ : TxDesc)]) = some 3) ∧ (3 <
    256) ∧ (([] : List TxDesc).length + 1 ≤ (start fun d => (ring 1 d).onBasjo (fun b => b.setRing 0 0
    { RingRun.idle with descs := [⟨0, 0x10000 + 4, 0, 0⟩], stamp := 7, order := 3 })).dev.basjo.ringSize (0 : Fin 2).val (0 : Fin
    128).val) := by decide
theorem witness_TransmitRingsRead_8 : ((start fun d => (ring 1 d).onBasjo (fun b => b.setRing 0 0
    { RingRun.idle with descs := [⟨0, 0x10000 + 64, 0, 0⟩], stamp := 7, order := 3 })).dev.runs = true) ∧ ((start fun d => (ring 1
    d).onBasjo (fun b => b.setRing 0 0
    { RingRun.idle with descs := [⟨0, 0x10000 + 64, 0, 0⟩], stamp := 7, order := 3 })).dev.txDrains (.host (0 : Fin 2) (0 : Fin
    128)) = true) ∧ (((start fun d => (ring 1 d).onBasjo (fun b => b.setRing 0 0
    { RingRun.idle with descs := [⟨0, 0x10000 + 64, 0, 0⟩], stamp := 7, order := 3 })).dev.basjo.ring (0 : Fin 2).val (0 : Fin
    128).val).descs = ([] : List TxDesc) ++ [(⟨0, 0x10000 + 64, 0, 0⟩ : TxDesc)]) ∧ (TxDesc.eop (⟨0, 0x10000 + 64, 0, 0⟩ : TxDesc) =
    true) ∧ (txReject (.host (0 : Fin 2) (0 : Fin 128)) (([] : List TxDesc) ++ [(⟨0, 0x10000 + 64, 0, 0⟩ : TxDesc)]) = none) ∧ (([]
    : List (BitVec 8)).length ≠ ((([] : List TxDesc) ++ [(⟨0, 0x10000 + 64, 0, 0⟩ : TxDesc)]).foldl (fun n x => n + TxDesc.length x)
    0)) ∧ (([] : List TxDesc).length + 1 ≤ (start fun d => (ring 1 d).onBasjo (fun b => b.setRing 0 0
    { RingRun.idle with descs := [⟨0, 0x10000 + 64, 0, 0⟩], stamp := 7, order := 3 })).dev.basjo.ringSize (0 : Fin 2).val (0 : Fin
    128).val) := by decide
theorem witness_TransmitRingsRead_9 : ((start fun d => (ring 1 d).onBasjo (fun b => b.setRing 0 0
    { RingRun.idle with descs := [⟨0, 0x10000 + 64, 0, 0⟩], stamp := 7, order := 3 })).dev.runs = true) ∧ ((start fun d => (ring 1
    d).onBasjo (fun b => b.setRing 0 0
    { RingRun.idle with descs := [⟨0, 0x10000 + 64, 0, 0⟩], stamp := 7, order := 3 })).dev.txDrains (.host (0 : Fin 2) (0 : Fin
    128)) = true) ∧ (((start fun d => (ring 1 d).onBasjo (fun b => b.setRing 0 0
    { RingRun.idle with descs := [⟨0, 0x10000 + 64, 0, 0⟩], stamp := 7, order := 3 })).dev.basjo.ring (0 : Fin 2).val (0 : Fin
    128).val).descs = ([] : List TxDesc) ++ [(⟨0, 0x10000 + 64, 0, 0⟩ : TxDesc)]) ∧ (TxDesc.eop (⟨0, 0x10000 + 64, 0, 0⟩ : TxDesc) =
    true) ∧ (txReject (.host (0 : Fin 2) (0 : Fin 128)) (([] : List TxDesc) ++ [(⟨0, 0x10000 + 64, 0, 0⟩ : TxDesc)]) = none) ∧
    ((start fun d => (ring 1 d).onBasjo (fun b => b.setRing 0 0
    { RingRun.idle with descs := [⟨0, 0x10000 + 64, 0, 0⟩], stamp := 7, order := 3 })).dev.rxOf (36 + (0 : Fin 2).val) = none) ∧
    ((start fun d => (ring 1 d).onBasjo (fun b => b.setRing 0 0
    { RingRun.idle with descs := [⟨0, 0x10000 + 64, 0, 0⟩], stamp := 7, order := 3 })).dev.canTake (36 + (0 : Fin 2).val) (cellsOf
    ((([] : List TxDesc) ++ [(⟨0, 0x10000 + 64, 0, 0⟩ : TxDesc)]).foldl (fun n x => n + TxDesc.length x) 0)) = true) ∧ ((start fun d
    => (ring 1 d).onBasjo (fun b => b.setRing 0 0
    { RingRun.idle with descs := [⟨0, 0x10000 + 64, 0, 0⟩], stamp := 7, order := 3 })).dev.txBehind (.host (0 : Fin 2) (0 : Fin
    128)) = false) ∧ ((List.replicate 64 (0 : BitVec 8)).length = ((([] : List TxDesc) ++ [(⟨0, 0x10000 + 64, 0, 0⟩ :
    TxDesc)]).foldl (fun n x => n + TxDesc.length x) 0)) ∧ (([] : List TxDesc).length + 1 ≤ (start fun d => (ring 1 d).onBasjo (fun
    b => b.setRing 0 0 { RingRun.idle with descs := [⟨0, 0x10000 + 64, 0, 0⟩], stamp := 7, order := 3 })).dev.basjo.ringSize (0 :
    Fin 2).val (0 : Fin 128).val) := by decide
theorem witness_TransmitRingsRead_10 : ((start fun d => (ring 1 d).onBasjo (fun b => b.setRing 0 0
    { RingRun.idle with descs := [⟨0, 0x10000 + 4, 0, 0⟩], stamp := 7, order := 3 })).dev.runs = true) ∧ ((start fun d => (ring 1
    d).onBasjo (fun b => b.setRing 0 0
    { RingRun.idle with descs := [⟨0, 0x10000 + 4, 0, 0⟩], stamp := 7, order := 3 })).dev.txDrains (.host (0 : Fin 2) (0 : Fin 128))
    = true) ∧ (((start fun d => (ring 1 d).onBasjo (fun b => b.setRing 0 0
    { RingRun.idle with descs := [⟨0, 0x10000 + 4, 0, 0⟩], stamp := 7, order := 3 })).dev.basjo.ring (0 : Fin 2).val (0 : Fin
    128).val).descs = ([] : List TxDesc) ++ [(⟨0, 0x10000 + 4, 0, 0⟩ : TxDesc)]) ∧ (TxDesc.eop (⟨0, 0x10000 + 4, 0, 0⟩ : TxDesc) =
    true) ∧ (txReject (.host (0 : Fin 2) (0 : Fin 128)) (([] : List TxDesc) ++ [(⟨0, 0x10000 + 4, 0, 0⟩ : TxDesc)]) = some 3) := by
    decide
theorem witness_ReceiveRingsFill_1 : (rxState.dev.runs = true) ∧ (rxState.dev.chosenRing (0 : Fin 2).val = some ((⟨288, 0, 1, 0,
    List.replicate 64 0, 64, false, false, false, 0, 0, 0⟩ : TxRun), 0, 0)) ∧ (rxState.dev.basjo.rb (hostReg (0 : Fin 2).val (0x300
    + 4 * 0)) 31 = true) ∧ (rxState.dev.basjo.ringActive (0 : Fin 2).val 0 = true) ∧ (rxState.dev.basjo.ringType (0 : Fin 2).val 0 =
    2) ∧ ((rxState.dev.basjo.ring (0 : Fin 2).val 0).stopped = false) ∧ ((rxState.dev.basjo.ring (0 : Fin 2).val 0).posted ≠ []) ∧
    (rxState.dev.heldWrite ((0 : Fin 2).val + 1) = false) ∧ (rxState.dev.stored (⟨288, 0, 1, 0, List.replicate 64 0, 64, false,
    false, false, 0, 0, 0⟩ : TxRun).frame = some (⟨0, List.replicate 64 0, 64, 0, none, 0, none, none, 1, true, 0, 0, none, 1, 1,
    [⟨0, 1, []⟩], false⟩ : Stored)) ∧ (fillBufs 256 (⟨288, 0, 1, 0, List.replicate 64 0, 64, false, false, false, 0, 0, 0⟩ :
    TxRun).octets.length (rxState.dev.basjo.ring (0 : Fin 2).val 0).posted = .fits [((⟨0, 2048⟩ : RxBuf), 64)]) := by decide
theorem witness_ReceiveRingsFill_2 :
    ({ rxState with dev := bset (ringReg 0 0 8) 0x200000 (bset (ringReg 0 0 0) 0x100000 rxState.dev) }.dev.runs = true) ∧
    ({ rxState with dev := bset (ringReg 0 0 8) 0x200000 (bset (ringReg 0 0 0) 0x100000 rxState.dev) }.dev.chosenRing (0 : Fin
    2).val = some ((⟨288, 0, 1, 0, List.replicate 64 0, 64, false, false, false, 0, 0, 0⟩ : TxRun), 0, 0)) ∧
    ({ rxState with dev := bset (ringReg 0 0 8) 0x200000 (bset (ringReg 0 0 0) 0x100000 rxState.dev) }.dev.basjo.rb (hostReg (0 :
    Fin 2).val (0x300 + 4 * 0)) 31 = true) ∧
    ({ rxState with dev := bset (ringReg 0 0 8) 0x200000 (bset (ringReg 0 0 0) 0x100000 rxState.dev) }.dev.basjo.ringActive (0 : Fin
    2).val 0 = true) ∧
    ({ rxState with dev := bset (ringReg 0 0 8) 0x200000 (bset (ringReg 0 0 0) 0x100000 rxState.dev) }.dev.basjo.ringType (0 : Fin
    2).val 0 = 2) ∧
    (({ rxState with dev := bset (ringReg 0 0 8) 0x200000 (bset (ringReg 0 0 0) 0x100000 rxState.dev) }.dev.basjo.ring (0 : Fin
    2).val 0).stopped = false) ∧
    (({ rxState with dev := bset (ringReg 0 0 8) 0x200000 (bset (ringReg 0 0 0) 0x100000 rxState.dev) }.dev.basjo.ring (0 : Fin
    2).val 0).posted ≠ []) ∧
    ({ rxState with dev := bset (ringReg 0 0 8) 0x200000 (bset (ringReg 0 0 0) 0x100000 rxState.dev) }.dev.heldWrite ((0 : Fin
    2).val + 1) = false) ∧
    ({ rxState with dev := bset (ringReg 0 0 8) 0x200000 (bset (ringReg 0 0 0) 0x100000 rxState.dev) }.dev.stored (⟨288, 0, 1, 0,
    List.replicate 64 0, 64, false, false, false, 0, 0, 0⟩ : TxRun).frame = some (⟨0, List.replicate 64 0, 64, 0, none, 0, none,
    none, 1, true, 0, 0, none, 1, 1, [⟨0, 1, []⟩], false⟩ : Stored)) ∧
    (({ rxState with dev := bset (ringReg 0 0 8) 0x200000 (bset (ringReg 0 0 0) 0x100000 rxState.dev) }.dev.basjo.ring (0 : Fin
    2).val 0).posted = (⟨0, 2048⟩ : RxBuf) :: ([⟨4096, 2048⟩] : List RxBuf)) ∧ ((⟨0, 2048⟩ : RxBuf).addr.toNat % 64 = 0) ∧ ((⟨0,
    2048⟩ : RxBuf).len.toNat % 64 = 0) ∧ (256 ≤ (⟨0, 2048⟩ : RxBuf).len.toNat) ∧ ((⟨0, 2048⟩ : RxBuf).len.toNat ≤ 16384) ∧ ((⟨288,
    0, 1, 0, List.replicate 64 0, 64, false, false, false, 0, 0, 0⟩ : TxRun).octets.length ≤ (⟨0, 2048⟩ : RxBuf).len.toNat) ∧
    ((⟨288, 0, 1, 0, List.replicate 64 0, 64, false, false, false, 0, 0, 0⟩ : TxRun).octets ≠ []) ∧ (5 < (⟨288, 0, 1, 0,
    List.replicate 64 0, 64, false, false, false, 0, 0, 0⟩ : TxRun).octets.length) ∧ ((⟨0, 2048⟩ : RxBuf).addr.toNat + 16384 ≤
    { rxState with dev := bset (ringReg 0 0 8) 0x200000 (bset (ringReg 0 0 0) 0x100000 rxState.dev) }.dev.basjo.entryAddr (0 : Fin
    2).val 0 32 ({ rxState with dev := bset (ringReg 0 0 8) 0x200000 (bset (ringReg 0 0 0) 0x100000 rxState.dev) }.dev.basjo.devIdx
    (0 : Fin 2).val 0)) ∧
    ({ rxState with dev := bset (ringReg 0 0 8) 0x200000 (bset (ringReg 0 0 0) 0x100000 rxState.dev) }.dev.basjo.entryAddr (0 : Fin
    2).val 0 32 ({ rxState with dev := bset (ringReg 0 0 8) 0x200000 (bset (ringReg 0 0 0) 0x100000 rxState.dev) }.dev.basjo.devIdx
    (0 : Fin 2).val 0) + 32 < 2 ^ 64) ∧
    ({ rxState with dev := bset (ringReg 0 0 8) 0x200000 (bset (ringReg 0 0 0) 0x100000 rxState.dev) }.dev.basjo.entryAddr (0 : Fin
    2).val 0 32 ({ rxState with dev := bset (ringReg 0 0 8) 0x200000 (bset (ringReg 0 0 0) 0x100000 rxState.dev) }.dev.basjo.devIdx
    (0 : Fin 2).val 0) + 32 ≤
    ({ rxState with dev := bset (ringReg 0 0 8) 0x200000 (bset (ringReg 0 0 0) 0x100000 rxState.dev) }.dev.basjo.reg (ringReg (0 :
    Fin 2).val 0 8)).toNat + 2 ^ 32 *
    ({ rxState with dev := bset (ringReg 0 0 8) 0x200000 (bset (ringReg 0 0 0) 0x100000 rxState.dev) }.dev.basjo.reg (ringReg (0 :
    Fin 2).val 0 0xC)).toNat) ∧
    (({ rxState with dev := bset (ringReg 0 0 8) 0x200000 (bset (ringReg 0 0 0) 0x100000 rxState.dev) }.dev.basjo.reg (ringReg (0 :
    Fin 2).val 0 8)).toNat + 2 ^ 32 *
    ({ rxState with dev := bset (ringReg 0 0 8) 0x200000 (bset (ringReg 0 0 0) 0x100000 rxState.dev) }.dev.basjo.reg (ringReg (0 :
    Fin 2).val 0 0xC)).toNat + 4 < 2 ^ 64) := by decide
theorem witness_ReceiveRingsFill_3 : ({ rxState with dev := rxState.dev.onBasjo (fun b => b.setRing 0 0 RingRun.idle) }.dev.runs =
    true) ∧ ({ rxState with dev := rxState.dev.onBasjo (fun b => b.setRing 0 0 RingRun.idle) }.dev.chosenRing (0 : Fin 2).val = some
    ((⟨288, 0, 1, 0, List.replicate 64 0, 64, false, false, false, 0, 0, 0⟩ : TxRun), 0, 0)) ∧
    ({ rxState with dev := rxState.dev.onBasjo (fun b => b.setRing 0 0 RingRun.idle) }.dev.basjo.rb (hostReg (0 : Fin 2).val (0x300
    + 4 * 0)) 31 = true) ∧ ({ rxState with dev := rxState.dev.onBasjo (fun b => b.setRing 0 0 RingRun.idle) }.dev.basjo.ringActive
    (0 : Fin 2).val 0 = true) ∧
    ({ rxState with dev := rxState.dev.onBasjo (fun b => b.setRing 0 0 RingRun.idle) }.dev.basjo.ringType (0 : Fin 2).val 0 = 2) ∧
    (({ rxState with dev := rxState.dev.onBasjo (fun b => b.setRing 0 0 RingRun.idle) }.dev.basjo.ring (0 : Fin 2).val 0).stopped =
    false) ∧ (({ rxState with dev := rxState.dev.onBasjo (fun b => b.setRing 0 0 RingRun.idle) }.dev.basjo.ring (0 : Fin 2).val
    0).posted = []) ∧ ({ rxState with dev := rxState.dev.onBasjo (fun b => b.setRing 0 0 RingRun.idle) }.dev.tap.modeCmd = none) :=
    by decide
theorem witness_ReceiveRingsFill_4 : (rxState.dev.runs = true) ∧ (rxState.dev.chosenRing (0 : Fin 2).val = some ((⟨288, 0, 1, 0,
    List.replicate 64 0, 64, false, false, false, 0, 0, 0⟩ : TxRun), 0, 0)) ∧ (rxState.dev.basjo.rb (hostReg (0 : Fin 2).val (0x300
    + 4 * 0)) 31 = true) ∧ (rxState.dev.basjo.ringActive (0 : Fin 2).val 0 = true) ∧ (rxState.dev.basjo.ringType (0 : Fin 2).val 0 =
    2) ∧ ((rxState.dev.basjo.ring (0 : Fin 2).val 0).stopped = false) ∧ ((rxState.dev.basjo.ring (0 : Fin 2).val 0).posted ≠ []) ∧
    (rxState.dev.heldWrite ((0 : Fin 2).val + 1) = false) := by decide
theorem witness_ReceiveRingsFill_5 :
    ({ rxState with dev := rxState.dev.onBasjo (fun b => b.setRing 0 0 { RingRun.idle with posted := [⟨1, 2048⟩] }) }.dev.runs =
    true) ∧
    ({ rxState with dev := rxState.dev.onBasjo (fun b => b.setRing 0 0 { RingRun.idle with posted := [⟨1, 2048⟩] }) }.dev.chosenRing
    (0 : Fin 2).val = some ((⟨288, 0, 1, 0, List.replicate 64 0, 64, false, false, false, 0, 0, 0⟩ : TxRun), 0, 0)) ∧
    ({ rxState with dev := rxState.dev.onBasjo (fun b => b.setRing 0 0 { RingRun.idle with posted := [⟨1, 2048⟩] }) }.dev.basjo.rb
    (hostReg (0 : Fin 2).val (0x300 + 4 * 0)) 31 = true) ∧
    ({ rxState with dev := rxState.dev.onBasjo (fun b => b.setRing 0 0 { RingRun.idle with posted := [⟨1, 2048⟩] }) }.dev.basjo.ringActive
    (0 : Fin 2).val 0 = true) ∧
    ({ rxState with dev := rxState.dev.onBasjo (fun b => b.setRing 0 0 { RingRun.idle with posted := [⟨1, 2048⟩] }) }.dev.basjo.ringType
    (0 : Fin 2).val 0 = 2) ∧
    (({ rxState with dev := rxState.dev.onBasjo (fun b => b.setRing 0 0 { RingRun.idle with posted := [⟨1, 2048⟩] }) }.dev.basjo.ring
    (0 : Fin 2).val 0).stopped = false) ∧
    (({ rxState with dev := rxState.dev.onBasjo (fun b => b.setRing 0 0 { RingRun.idle with posted := [⟨1, 2048⟩] }) }.dev.basjo.ring
    (0 : Fin 2).val 0).posted ≠ []) ∧
    ({ rxState with dev := rxState.dev.onBasjo (fun b => b.setRing 0 0 { RingRun.idle with posted := [⟨1, 2048⟩] }) }.dev.heldWrite
    ((0 : Fin 2).val + 1) = false) ∧ (fillBufs 256 (⟨288, 0, 1, 0, List.replicate 64 0, 64, false, false, false, 0, 0, 0⟩ :
    TxRun).octets.length
    ({ rxState with dev := rxState.dev.onBasjo (fun b => b.setRing 0 0 { RingRun.idle with posted := [⟨1, 2048⟩] }) }.dev.basjo.ring
    (0 : Fin 2).val 0).posted = .bad) ∧ (0 < 128) := by decide
theorem witness_ReceiveRingsFill_6 : (rxState.dev.runs = true) ∧ (rxState.dev.chosenRing (0 : Fin 2).val = some ((⟨288, 0, 1, 0,
    List.replicate 64 0, 64, false, false, false, 0, 0, 0⟩ : TxRun), 0, 0)) ∧ (rxState.dev.basjo.rb (hostReg (0 : Fin 2).val (0x300
    + 4 * 0)) 31 = true) ∧ (rxState.dev.basjo.ringActive (0 : Fin 2).val 0 = true) ∧ (rxState.dev.basjo.ringType (0 : Fin 2).val 0 =
    2) ∧ ((rxState.dev.basjo.ring (0 : Fin 2).val 0).stopped = false) ∧ ((rxState.dev.basjo.ring (0 : Fin 2).val 0).posted ≠ []) ∧
    (rxState.dev.heldWrite ((0 : Fin 2).val + 1) = false) ∧ (rxState.dev.stored (⟨288, 0, 1, 0, List.replicate 64 0, 64, false,
    false, false, 0, 0, 0⟩ : TxRun).frame = some (⟨0, List.replicate 64 0, 64, 0, none, 0, none, none, 1, true, 0, 0, none, 1, 1,
    [⟨0, 1, []⟩], false⟩ : Stored)) ∧ (fillBufs 256 (⟨288, 0, 1, 0, List.replicate 64 0, 64, false, false, false, 0, 0, 0⟩ :
    TxRun).octets.length (rxState.dev.basjo.ring (0 : Fin 2).val 0).posted = .fits [((⟨0, 2048⟩ : RxBuf), 64)]) ∧ (0 < 128) := by
    decide
theorem witness_ReceiveRingsFill_7 : (rxState.dev.runs = true) ∧ (rxState.dev.chosenRing (0 : Fin 2).val = some ((⟨288, 0, 1, 0,
    List.replicate 64 0, 64, false, false, false, 0, 0, 0⟩ : TxRun), 0, 0)) ∧ (rxState.dev.basjo.rb (hostReg (0 : Fin 2).val (0x300
    + 4 * 0)) 31 = true) ∧ (rxState.dev.basjo.ringActive (0 : Fin 2).val 0 = true) ∧ (rxState.dev.basjo.ringType (0 : Fin 2).val 0 =
    2) ∧ ((rxState.dev.basjo.ring (0 : Fin 2).val 0).stopped = false) ∧ ((rxState.dev.basjo.ring (0 : Fin 2).val 0).posted ≠ []) ∧
    (rxState.dev.heldWrite ((0 : Fin 2).val + 1) = false) ∧ (rxState.dev.stored (⟨288, 0, 1, 0, List.replicate 64 0, 64, false,
    false, false, 0, 0, 0⟩ : TxRun).frame = some (⟨0, List.replicate 64 0, 64, 0, none, 0, none, none, 1, true, 0, 0, none, 1, 1,
    [⟨0, 1, []⟩], false⟩ : Stored)) ∧ (fillBufs 256 (⟨288, 0, 1, 0, List.replicate 64 0, 64, false, false, false, 0, 0, 0⟩ :
    TxRun).octets.length (rxState.dev.basjo.ring (0 : Fin 2).val 0).posted = .fits [((⟨0, 2048⟩ : RxBuf), 64)]) ∧ (0 < 128) := by
    decide
theorem witness_EventsSignal_1 : ((start fun d => d.onBasjo fun b => { b with pops := [(0, ⟨[], 5, 2⟩)] }).dev.runs = true) ∧
    ((start fun d => d.onBasjo fun b => { b with pops := [(0, ⟨[], 5, 2⟩)] }).dev.basjo.evtLost (0 : Fin 2).val (.pop (0 : Fin 4)) ≠
    0) ∧ ((start fun d => d.onBasjo fun b => { b with pops := [(0, ⟨[], 5, 2⟩)] }).dev.basjo.evtFull (0 : Fin 2).val (.pop (0 : Fin
    4)) = false) := by decide
theorem witness_EventsSignal_2 : ((start fun d => (bset (ringReg 0 0 8) 0x9000 (bset (ringReg 0 0 0x14) 0 (ring 4 d))).onBasjo fun b
    => b.setRing 0 0 { RingRun.idle with lostSince := 2 }).dev.runs = true) ∧ ((start fun d => (bset (ringReg 0 0 8) 0x9000 (bset
    (ringReg 0 0 0x14) 0 (ring 4 d))).onBasjo fun b => b.setRing 0 0 { RingRun.idle with lostSince := 2 }).dev.basjo.evtLost (0 :
    Fin 2).val (.ring (0 : Fin 128)) ≠ 0) ∧ ((start fun d => (bset (ringReg 0 0 8) 0x9000 (bset (ringReg 0 0 0x14) 0 (ring 4
    d))).onBasjo fun b => b.setRing 0 0 { RingRun.idle with lostSince := 2 }).dev.basjo.evtFull (0 : Fin 2).val (.ring (0 : Fin
    128)) = false) ∧ ((start fun d => (bset (ringReg 0 0 8) 0x9000 (bset (ringReg 0 0 0x14) 0 (ring 4 d))).onBasjo fun b =>
    b.setRing 0 0 { RingRun.idle with lostSince := 2 }).dev.basjo.ringRuns (0 : Fin 2).val (0 : Fin 128).val 4 = true) := by decide
theorem witness_EventsSignal_3 : (State.reset.dev.runs = true) ∧ ((State.reset.dev.basjo.evtLost (0 : Fin 2).val (.pop 0 : EvtQueue)
    = 0 ∨ State.reset.dev.basjo.evtFull (0 : Fin 2).val (.pop 0 : EvtQueue) = true)) := by decide
theorem witness_EventsSignal_4 : ((start fun d => bset (hostReg 0 0x200) 0x101
    { linked (d.onBasjo fun b => { b with vecs := [(0, ⟨0, 0, false, false, 1, 0⟩)], msix := [(0, ⟨true, false⟩)] }) with cam := { d.cam with raw := 1000000 } }).dev.runs
    = true) ∧ ((start fun d => bset (hostReg 0 0x200) 0x101
    { linked (d.onBasjo fun b => { b with vecs := [(0, ⟨0, 0, false, false, 1, 0⟩)], msix := [(0, ⟨true, false⟩)] }) with cam := { d.cam with raw := 1000000 } }).dev.basjo.rf
    (hostReg (0 : Fin 2).val (0x200 + 4 * (0 : Fin 64).val)) 23 8 ≠ 0) ∧ (((start fun d => bset (hostReg 0 0x200) 0x101
    { linked (d.onBasjo fun b => { b with vecs := [(0, ⟨0, 0, false, false, 1, 0⟩)], msix := [(0, ⟨true, false⟩)] }) with cam := { d.cam with raw := 1000000 } }).dev.basjo.vec
    (0 : Fin 2).val (0 : Fin 64).val).count ≠ 0) ∧ (((start fun d => bset (hostReg 0 0x200) 0x101
    { linked (d.onBasjo fun b => { b with vecs := [(0, ⟨0, 0, false, false, 1, 0⟩)], msix := [(0, ⟨true, false⟩)] }) with cam := { d.cam with raw := 1000000 } }).dev.basjo.vec
    (0 : Fin 2).val (0 : Fin 64).val).since + (start fun d => bset (hostReg 0 0x200) 0x101
    { linked (d.onBasjo fun b => { b with vecs := [(0, ⟨0, 0, false, false, 1, 0⟩)], msix := [(0, ⟨true, false⟩)] }) with cam := { d.cam with raw := 1000000 } }).dev.basjo.rf
    (hostReg (0 : Fin 2).val (0x200 + 4 * (0 : Fin 64).val)) 23 8 * usRaw ≤ (start fun d => bset (hostReg 0 0x200) 0x101
    { linked (d.onBasjo fun b => { b with vecs := [(0, ⟨0, 0, false, false, 1, 0⟩)], msix := [(0, ⟨true, false⟩)] }) with cam := { d.cam with raw := 1000000 } }).dev.now)
    := by decide
theorem witness_EventsSignal_5 : ((start fun d => bset (hostReg 0 0x200) 0x101
    { linked (d.onBasjo fun b => { b with vecs := [(0, ⟨0, 0, false, false, 1, 0⟩)], msix := [(0, ⟨true, false⟩)] }) with cam := { d.cam with raw := 1000 } }).dev.runs
    = true) ∧ (((start fun d => bset (hostReg 0 0x200) 0x101
    { linked (d.onBasjo fun b => { b with vecs := [(0, ⟨0, 0, false, false, 1, 0⟩)], msix := [(0, ⟨true, false⟩)] }) with cam := { d.cam with raw := 1000 } }).dev.basjo.rf
    (hostReg (0 : Fin 2).val (0x200 + 4 * (0 : Fin 64).val)) 23 8 = 0 ∨ ((start fun d => bset (hostReg 0 0x200) 0x101
    { linked (d.onBasjo fun b => { b with vecs := [(0, ⟨0, 0, false, false, 1, 0⟩)], msix := [(0, ⟨true, false⟩)] }) with cam := { d.cam with raw := 1000 } }).dev.basjo.vec
    (0 : Fin 2).val (0 : Fin 64).val).count = 0 ∨ (start fun d => bset (hostReg 0 0x200) 0x101
    { linked (d.onBasjo fun b => { b with vecs := [(0, ⟨0, 0, false, false, 1, 0⟩)], msix := [(0, ⟨true, false⟩)] }) with cam := { d.cam with raw := 1000 } }).dev.now
    < ((start fun d => bset (hostReg 0 0x200) 0x101
    { linked (d.onBasjo fun b => { b with vecs := [(0, ⟨0, 0, false, false, 1, 0⟩)], msix := [(0, ⟨true, false⟩)] }) with cam := { d.cam with raw := 1000 } }).dev.basjo.vec
    (0 : Fin 2).val (0 : Fin 64).val).since + (start fun d => bset (hostReg 0 0x200) 0x101
    { linked (d.onBasjo fun b => { b with vecs := [(0, ⟨0, 0, false, false, 1, 0⟩)], msix := [(0, ⟨true, false⟩)] }) with cam := { d.cam with raw := 1000 } }).dev.basjo.rf
    (hostReg (0 : Fin 2).val (0x200 + 4 * (0 : Fin 64).val)) 23 8 * usRaw)) := by decide
theorem witness_EventsSignal_6 : ((start fun d => linked (d.onBasjo fun b =>
    { b with vecs := [(0, ⟨0, 0, true, true, 0, 0⟩), (1, ⟨0, 0, false, true, 0, 0⟩)] })).dev.runs = true) ∧ ((hostPorts (start fun d
    => linked (d.onBasjo fun b =>
    { b with vecs := [(0, ⟨0, 0, true, true, 0, 0⟩), (1, ⟨0, 0, false, true, 0, 0⟩)] })).dev.variant).contains (0 : Fin 2).val =
    true) ∧ ((true && !false && (start fun d => linked (d.onBasjo fun b =>
    { b with vecs := [(0, ⟨0, 0, true, true, 0, 0⟩), (1, ⟨0, 0, false, true, 0, 0⟩)] })).dev.basjo.linkUp (0 : Fin 2).val) = true)
    := by decide
theorem witness_EventsSignal_7 : ((start fun d => linked (d.onBasjo fun b =>
    { b with vecs := [(0, ⟨0, 0, true, true, 0, 0⟩), (1, ⟨0, 0, false, true, 0, 0⟩)] })).dev.runs = true) ∧ ((hostPorts (start fun d
    => linked (d.onBasjo fun b =>
    { b with vecs := [(0, ⟨0, 0, true, true, 0, 0⟩), (1, ⟨0, 0, false, true, 0, 0⟩)] })).dev.variant).contains (0 : Fin 2).val =
    true) ∧ ((false && !false && (start fun d => linked (d.onBasjo fun b =>
    { b with vecs := [(0, ⟨0, 0, true, true, 0, 0⟩), (1, ⟨0, 0, false, true, 0, 0⟩)] })).dev.basjo.linkUp (0 : Fin 2).val) = false)
    := by decide
theorem witness_EventsSignal_8 : ((start fun d => { d with variant := .c }).dev.runs = true) ∧ ((hostPorts (start fun d =>
    { d with variant := .c }).dev.variant).contains (1 : Fin 2).val = false) := by decide
theorem witness_EventsSignal_9 : ((start fun d => linked (d.onBasjo fun b => { b with pops := [(0, ⟨[77], 5, 0⟩)] })).dev.runs =
    true) ∧ ((hostPorts (start fun d => linked (d.onBasjo fun b => { b with pops := [(0, ⟨[77], 5, 0⟩)] })).dev.variant).contains (0
    : Fin 2).val = true) ∧ (reaches cpu.origin.val 1 = true) ∧ ((start fun d => linked (d.onBasjo fun b =>
    { b with pops := [(0, ⟨[77], 5, 0⟩)] })).dev.permitted 1 cpu.origin.val 1 = true) ∧ ((start fun d => linked (d.onBasjo fun b =>
    { b with pops := [(0, ⟨[77], 5, 0⟩)] })).dev.unitPowered 1 (0 : Fin 2).val = true) ∧ ((start fun d => linked (d.onBasjo fun b =>
    { b with pops := [(0, ⟨[77], 5, 0⟩)] })).dev.clockOff 1 (0 : Fin 2).val = false) ∧ (((start fun d => linked (d.onBasjo fun b =>
    { b with pops := [(0, ⟨[77], 5, 0⟩)] })).dev.basjo.pops.get .idle (4 * (0 : Fin 2).val + (0 : Fin 4).val)).recs = (77 : BitVec
    256) :: ([] : List (BitVec 256))) := by decide
theorem witness_EventsSignal_10 : ((start linked).dev.runs = true) ∧ ((hostPorts (start linked).dev.variant).contains (0 : Fin
    2).val = true) ∧ (reaches cpu.origin.val 1 = true) ∧ ((start linked).dev.permitted 1 cpu.origin.val 1 = true) ∧ ((start
    linked).dev.unitPowered 1 (0 : Fin 2).val = true) ∧ ((start linked).dev.clockOff 1 (0 : Fin 2).val = false) ∧ (((start
    linked).dev.basjo.pops.get .idle (4 * (0 : Fin 2).val + (0 : Fin 4).val)).recs = []) := by decide
theorem witness_EventsSignal_11 : (State.reset.dev.runs = true) ∧ ((hostPorts State.reset.dev.variant).contains (0 : Fin 2).val =
    true) ∧ (reaches cpu.origin.val 1 = true) ∧ (State.reset.dev.permitted 1 cpu.origin.val 1 = true) ∧ (State.reset.dev.unitPowered
    1 (0 : Fin 2).val = true) ∧ (State.reset.dev.clockOff 1 (0 : Fin 2).val = true) := by decide
theorem witness_EventsSignal_12 : ((start fun d => rset (rasReg 0x1034) 0 (linked d)).dev.runs = true) ∧ ((hostPorts (start fun d =>
    rset (rasReg 0x1034) 0 (linked d)).dev.variant).contains (0 : Fin 2).val = true) ∧ (reaches coreA.origin.val 1 = true) ∧ ((start
    fun d => rset (rasReg 0x1034) 0 (linked d)).dev.permitted 1 coreA.origin.val 1 = false) ∧ (3 ≤ coreA.origin.val) := by decide
theorem witness_HostLinksMove_1 : (State.reset.dev.runs = true) ∧ ((hostPorts State.reset.dev.variant).contains (0 : Fin 2).val =
    true) ∧ (State.reset.dev.portPowered (36 + (0 : Fin 2).val) = true) ∧ (State.reset.dev.basjo.linkUp (0 : Fin 2).val = false) ∧
    (1 ≤ (4 : Fin 5).val) ∧ ((4 : Fin 5).val ≤ (pcieEndpoint (0 : Fin 2).val).linkGen) ∧ ((pcieEndpoint (0 : Fin
    2).val).linkWidths.contains (4 : Fin 5).val = true) := by decide
theorem witness_HostLinksMove_2 : ((start fun d => linked (bset (hostReg 0 4) 1 d)).dev.runs = true) ∧ ((start fun d => linked (bset
    (hostReg 0 4) 1 d)).dev.basjo.linkUp (0 : Fin 2).val = true) := by decide
theorem witness_HostLinksMove_3 : (State.reset.dev.runs = true) ∧ (State.reset.dev.basjo.linkUp (0 : Fin 2).val = false) ∧
    (State.reset.dev.tap.modeCmd = none) := by decide
theorem witness_HostLinksMove_4 : ((start fun d => linked (ring 3 d)).dev.runs = true) ∧ ((hostPorts (start fun d => linked (ring 3
    d)).dev.variant).contains (0 : Fin 2).val = true) := by decide
theorem witness_HostLinksMove_5 : ((start fun d => d.onBasjo (fun b => { b with up := [(1, true)] })).dev.runs = true) ∧ ((hostPorts
    (start fun d => d.onBasjo (fun b => { b with up := [(1, true)] })).dev.variant).contains (0 : Fin 2).val = true) ∧ ((hostPorts
    (start fun d => d.onBasjo (fun b => { b with up := [(1, true)] })).dev.variant).contains (1 - (0 : Fin 2).val) = true) ∧ ((start
    fun d => d.onBasjo (fun b => { b with up := [(1, true)] })).dev.basjo.linkUp (1 - (0 : Fin 2).val) = true) := by decide
theorem witness_HostLinksMove_6 : ((start fun d => bset (ringReg 0 0 0x14) 0 (bset (ringReg 0 0 0x18) 3 (ring 4 d))).dev.runs =
    true) ∧ ((hostPorts (start fun d => bset (ringReg 0 0 0x14) 0 (bset (ringReg 0 0 0x18) 3 (ring 4 d))).dev.variant).contains (0 :
    Fin 2).val = true) ∧ ((start fun d => bset (ringReg 0 0 0x14) 0 (bset (ringReg 0 0 0x18) 3 (ring 4 d))).dev.basjo.ringRuns (0 :
    Fin 2).val (0 : Fin 128).val 4 = true) ∧ (dist32 ((start fun d => bset (ringReg 0 0 0x14) 0 (bset (ringReg 0 0 0x18) 3 (ring 4
    d))).dev.basjo.hostIdx (0 : Fin 2).val (0 : Fin 128).val) ((start fun d => bset (ringReg 0 0 0x14) 0 (bset (ringReg 0 0 0x18) 3
    (ring 4 d))).dev.basjo.devIdx (0 : Fin 2).val (0 : Fin 128).val) ≠ 0) := by decide
theorem witness_HostLinksMove_7 : (State.reset.dev.runs = true) := by decide
theorem witness_PortsEnableAndDrain_1 : ((start (rset (portReg 0 0) 0x10640)).opens cpu (portReg (0 : Fin 36).val 0) = true) ∧ ((0 :
    Fin 36).val < 28) ∧ ((start (rset (portReg 0 0) 0x10640)).dev.portEn (0 : Fin 36).val = false) ∧ ((start (rset (portReg 0 0)
    0x10640)).dev.sending (0 : Fin 36).val = false) ∧ (pcsOk (0 : Fin 36).val ((start (rset (portReg 0 0) 0x10640)).dev.pcsType (0 :
    Fin 36).val) = true) ∧ ((start (rset (portReg 0 0) 0x10640)).dev.draining (0 : Fin 36).val = false) ∧ ((start (rset (portReg 0
    0) 0x10640)).dev.plcaOk (0 : Fin 36).val = true) ∧ (((start (rset (portReg 0 0) 0x10640)).dev.portPowered (0 : Fin 36).val &&
    !(start (rset (portReg 0 0) 0x10640)).dev.portWaits (0 : Fin 36).val) = true) := by decide
theorem witness_PortsEnableAndDrain_2 : ((start (rset (portReg 28 0x30) 0x80000003 ∘ rset (portReg 28 0) 0x60640)).opens cpu
    (portReg (28 : Fin 36).val 0) = true) ∧ (28 ≤ (28 : Fin 36).val) ∧ ((start (rset (portReg 28 0x30) 0x80000003 ∘ rset (portReg 28
    0) 0x60640)).dev.portEn (28 : Fin 36).val = false) ∧ ((start (rset (portReg 28 0x30) 0x80000003 ∘ rset (portReg 28 0)
    0x60640)).dev.portLock (28 : Fin 36).val = false) ∧ ((start (rset (portReg 28 0x30) 0x80000003 ∘ rset (portReg 28 0)
    0x60640)).dev.sending (28 : Fin 36).val = false) ∧ (pcsOk (28 : Fin 36).val ((start (rset (portReg 28 0x30) 0x80000003 ∘ rset
    (portReg 28 0) 0x60640)).dev.pcsType (28 : Fin 36).val) = true) ∧ ((start (rset (portReg 28 0x30) 0x80000003 ∘ rset (portReg 28
    0) 0x60640)).dev.draining (28 : Fin 36).val = false) ∧ ((start (rset (portReg 28 0x30) 0x80000003 ∘ rset (portReg 28 0)
    0x60640)).dev.plcaOk (28 : Fin 36).val = true) ∧ (((start (rset (portReg 28 0x30) 0x80000003 ∘ rset (portReg 28 0)
    0x60640)).dev.portPowered (28 : Fin 36).val && !(start (rset (portReg 28 0x30) 0x80000003 ∘ rset (portReg 28 0)
    0x60640)).dev.portWaits (28 : Fin 36).val) = true) := by decide
theorem witness_PortsEnableAndDrain_3 : ((start fun d =>
    { rset (portReg 21 0) 0x40640 d with tap := { d.tap with copying := [portGrove d.variant 21] } }).opens cpu (portReg (21 : Fin
    36).val 0) = true) ∧ ((start fun d =>
    { rset (portReg 21 0) 0x40640 d with tap := { d.tap with copying := [portGrove d.variant 21] } }).dev.portEn (21 : Fin 36).val =
    false) ∧ (pcsOk (21 : Fin 36).val ((start fun d =>
    { rset (portReg 21 0) 0x40640 d with tap := { d.tap with copying := [portGrove d.variant 21] } }).dev.pcsType (21 : Fin 36).val)
    = true) ∧ ((start fun d =>
    { rset (portReg 21 0) 0x40640 d with tap := { d.tap with copying := [portGrove d.variant 21] } }).dev.draining (21 : Fin 36).val
    = false) ∧ ((start fun d =>
    { rset (portReg 21 0) 0x40640 d with tap := { d.tap with copying := [portGrove d.variant 21] } }).dev.plcaOk (21 : Fin 36).val =
    true) ∧ ((start fun d =>
    { rset (portReg 21 0) 0x40640 d with tap := { d.tap with copying := [portGrove d.variant 21] } }).dev.portWaits (21 : Fin
    36).val = true) := by decide
theorem witness_PortsEnableAndDrain_4 : ((start fun d => rset (tapReg 0x64) 0 (rset 0x20 3 (rset (portReg 21 0) 0x40640
    d))).dev.runs = true) ∧ ((start fun d => rset (tapReg 0x64) 0 (rset 0x20 3 (rset (portReg 21 0) 0x40640 d))).dev.permitted 0
    cpu.origin.val 2 = true) ∧ (reaches cpu.origin.val 2 = true) ∧ (addrPresent (start fun d => rset (tapReg 0x64) 0 (rset 0x20 3
    (rset (portReg 21 0) 0x40640 d))).dev.variant (start fun d => rset (tapReg 0x64) 0 (rset 0x20 3 (rset (portReg 21 0) 0x40640
    d))).dev.split (portReg (21 : Fin 36).val 0) = true) ∧ ((start fun d => rset (tapReg 0x64) 0 (rset 0x20 3 (rset (portReg 21 0)
    0x40640 d))).dev.portEn (21 : Fin 36).val = false) ∧ (pcsOk (21 : Fin 36).val ((start fun d => rset (tapReg 0x64) 0 (rset 0x20 3
    (rset (portReg 21 0) 0x40640 d))).dev.pcsType (21 : Fin 36).val) = true) ∧ ((start fun d => rset (tapReg 0x64) 0 (rset 0x20 3
    (rset (portReg 21 0) 0x40640 d))).dev.draining (21 : Fin 36).val = false) ∧ ((start fun d => rset (tapReg 0x64) 0 (rset 0x20 3
    (rset (portReg 21 0) 0x40640 d))).dev.plcaOk (21 : Fin 36).val = true) ∧ ((start fun d => rset (tapReg 0x64) 0 (rset 0x20 3
    (rset (portReg 21 0) 0x40640 d))).dev.portPowered (21 : Fin 36).val = false) := by decide
theorem witness_PortsEnableAndDrain_5 : ((start (rset (portReg 0 0) 0)).opens cpu (portReg (0 : Fin 36).val 0) = true) ∧ ((start
    (rset (portReg 0 0) 0)).dev.portEn (0 : Fin 36).val = false) ∧ (pcsOk (0 : Fin 36).val ((start (rset (portReg 0 0)
    0)).dev.pcsType (0 : Fin 36).val) = false ∨ (start (rset (portReg 0 0) 0)).dev.draining (0 : Fin 36).val = true ∨ (start (rset
    (portReg 0 0) 0)).dev.plcaOk (0 : Fin 36).val = false) := by decide
theorem witness_PortsEnableAndDrain_6 : ((start fun d => (rset (portReg 0 4) 0x12 (rset (portReg 0 0) 0x80010640 (d)))).opens cpu
    (portReg (0 : Fin 36).val 0) = true) ∧ ((start fun d => (rset (portReg 0 4) 0x12 (rset (portReg 0 0) 0x80010640
    (d)))).dev.portEn (0 : Fin 36).val = true) := by decide
theorem witness_PortsEnableAndDrain_7 : ((start fun d => (rset (portReg 0 4) 0x12 (rset (portReg 0 0) 0x80010640
    ({ d with crown := { d.crown with tx := [(0, some ⟨0, 0, 1, 0, [], 64, false, false, false, 0, 0, 0⟩)] } })))).opens cpu
    (portReg (0 : Fin 36).val 0) = true) ∧ ((start fun d => (rset (portReg 0 4) 0x12 (rset (portReg 0 0) 0x80010640
    ({ d with crown := { d.crown with tx := [(0, some ⟨0, 0, 1, 0, [], 64, false, false, false, 0, 0, 0⟩)] } })))).dev.portEn (0 :
    Fin 36).val = true) ∧ (((start fun d => (rset (portReg 0 4) 0x12 (rset (portReg 0 0) 0x80010640
    ({ d with crown := { d.crown with tx := [(0, some ⟨0, 0, 1, 0, [], 64, false, false, false, 0, 0, 0⟩)] } })))).dev.crown.tx.get
    none (0 : Fin 36).val).isSome = true) := by decide
theorem witness_PortsEnableAndDrain_8 : ((start fun d => (rset (portReg 0 4) 0x12 (rset (portReg 0 0) 0x80010640 (d)))).opens cpu
    (portReg (0 : Fin 36).val 0) = true) ∧ ((start fun d => (rset (portReg 0 4) 0x12 (rset (portReg 0 0) 0x80010640
    (d)))).dev.portEn (0 : Fin 36).val = true) ∧ ((start fun d => (rset (portReg 0 4) 0x12 (rset (portReg 0 0) 0x80010640
    (d)))).dev.sending (0 : Fin 36).val = false) := by decide
theorem witness_PortsEnableAndDrain_9 : (State.reset.opens cpu (portReg (0 : Fin 36).val 0) = true) ∧ (State.reset.dev.portEn (0 :
    Fin 36).val = false) := by decide
theorem witness_PortsEnableAndDrain_10 : ((start (rset (portReg 0 4) 0x22)).dev.runs = true) ∧ ((start (rset (portReg 0 4)
    0x22)).dev.draining (0 : Fin 36).val = true) ∧ ((start (rset (portReg 0 4) 0x22)).dev.sending (0 : Fin 36).val = false) ∧
    ((start (rset (portReg 0 4) 0x22)).dev.portEn (0 : Fin 36).val = false) := by decide
theorem witness_PortsEnableAndDrain_11 : ((start (rset (portReg 0 0x120) 4 ∘ rset (portReg 0 0) 0x80010640)).opens cpu (portReg (0 :
    Fin 36).val 0) = true) ∧ ((start (rset (portReg 0 0x120) 4 ∘ rset (portReg 0 0) 0x80010640)).clocked (portReg (0 : Fin 36).val
    0) = true) := by decide
theorem witness_LinksFollowLock_1 : ((start fun d => rset (portReg 0 4) 1 (rset (portReg 0 4) 0x12 (rset (portReg 0 0) 0x80010640
    (d)))).dev.runs = true) ∧ ((0 : Fin 36).val < 28) ∧ ((start fun d => rset (portReg 0 4) 1 (rset (portReg 0 4) 0x12 (rset
    (portReg 0 0) 0x80010640 (d)))).dev.portEn (0 : Fin 36).val = true) ∧ ((start fun d => rset (portReg 0 4) 1 (rset (portReg 0 4)
    0x12 (rset (portReg 0 0) 0x80010640 (d)))).dev.portLock (0 : Fin 36).val = false) := by decide
theorem witness_LinksFollowLock_2 : ((start fun d => (rset (portReg 0 4) 0x12 (rset (portReg 0 0) 0x80010640 (d)))).dev.runs = true)
    ∧ ((0 : Fin 36).val < 28) ∧ ((start fun d => (rset (portReg 0 4) 0x12 (rset (portReg 0 0) 0x80010640 (d)))).dev.portLock (0 :
    Fin 36).val = true) := by decide
theorem witness_LinksFollowLock_3 : ((start fun d =>
    { rset (portReg 0 4) 0x11 (rset (portReg 0 4) 0x12 (rset (portReg 0 0) 0x80010640 (d))) with cam := { d.cam with raw := 30000000000 } }).dev.runs
    = true) ∧ ((start fun d =>
    { rset (portReg 0 4) 0x11 (rset (portReg 0 4) 0x12 (rset (portReg 0 0) 0x80010640 (d))) with cam := { d.cam with raw := 30000000000 } }).dev.portLink
    (0 : Fin 36).val = 1) ∧ ((start fun d =>
    { rset (portReg 0 4) 0x11 (rset (portReg 0 4) 0x12 (rset (portReg 0 0) 0x80010640 (d))) with cam := { d.cam with raw := 30000000000 } }).dev.portLock
    (0 : Fin 36).val = true) ∧ (((start fun d =>
    { rset (portReg 0 4) 0x11 (rset (portReg 0 4) 0x12 (rset (portReg 0 0) 0x80010640 (d))) with cam := { d.cam with raw := 30000000000 } }).dev.port
    (0 : Fin 36).val).lockAt + (start fun d =>
    { rset (portReg 0 4) 0x11 (rset (portReg 0 4) 0x12 (rset (portReg 0 0) 0x80010640 (d))) with cam := { d.cam with raw := 30000000000 } }).dev.rf
    (portReg (0 : Fin 36).val 0xC) 23 16 * msRaw ≤ (start fun d =>
    { rset (portReg 0 4) 0x11 (rset (portReg 0 4) 0x12 (rset (portReg 0 0) 0x80010640 (d))) with cam := { d.cam with raw := 30000000000 } }).dev.now)
    := by decide
theorem witness_LinksFollowLock_4 : ((start fun d => rset (portReg 0 4) 0x11 (rset (portReg 0 4) 0x12 (rset (portReg 0 0) 0x80010640
    (d)))).dev.runs = true) ∧ ((start fun d => rset (portReg 0 4) 0x11 (rset (portReg 0 4) 0x12 (rset (portReg 0 0) 0x80010640
    (d)))).dev.portLink (0 : Fin 36).val = 1) ∧ ((start fun d => rset (portReg 0 4) 0x11 (rset (portReg 0 4) 0x12 (rset (portReg 0
    0) 0x80010640 (d)))).dev.portLock (0 : Fin 36).val = false ∨ (start fun d => rset (portReg 0 4) 0x11 (rset (portReg 0 4) 0x12
    (rset (portReg 0 0) 0x80010640 (d)))).dev.now < ((start fun d => rset (portReg 0 4) 0x11 (rset (portReg 0 4) 0x12 (rset (portReg
    0 0) 0x80010640 (d)))).dev.port (0 : Fin 36).val).lockAt + (start fun d => rset (portReg 0 4) 0x11 (rset (portReg 0 4) 0x12
    (rset (portReg 0 0) 0x80010640 (d)))).dev.rf (portReg (0 : Fin 36).val 0xC) 23 16 * msRaw) := by decide
theorem witness_LinksFollowLock_5 : ((start fun d =>
    { rset (portReg 0 4) 2 (rset (portReg 0 4) 0x12 (rset (portReg 0 0) 0x80010640 (d))) with cam := { d.cam with raw := 30000000000 } }).dev.runs
    = true) ∧ ((start fun d =>
    { rset (portReg 0 4) 2 (rset (portReg 0 4) 0x12 (rset (portReg 0 0) 0x80010640 (d))) with cam := { d.cam with raw := 30000000000 } }).dev.portLink
    (0 : Fin 36).val = 2) ∧ ((start fun d =>
    { rset (portReg 0 4) 2 (rset (portReg 0 4) 0x12 (rset (portReg 0 0) 0x80010640 (d))) with cam := { d.cam with raw := 30000000000 } }).dev.portLock
    (0 : Fin 36).val = false) ∧ (((start fun d =>
    { rset (portReg 0 4) 2 (rset (portReg 0 4) 0x12 (rset (portReg 0 0) 0x80010640 (d))) with cam := { d.cam with raw := 30000000000 } }).dev.port
    (0 : Fin 36).val).lockAt + (start fun d =>
    { rset (portReg 0 4) 2 (rset (portReg 0 4) 0x12 (rset (portReg 0 0) 0x80010640 (d))) with cam := { d.cam with raw := 30000000000 } }).dev.rf
    (portReg (0 : Fin 36).val 0xC) 11 0 * usRaw ≤ (start fun d =>
    { rset (portReg 0 4) 2 (rset (portReg 0 4) 0x12 (rset (portReg 0 0) 0x80010640 (d))) with cam := { d.cam with raw := 30000000000 } }).dev.now)
    := by decide
theorem witness_LinksFollowLock_6 : ((start fun d => (rset (portReg 0 4) 0x12 (rset (portReg 0 0) 0x80010640 (d)))).dev.runs = true)
    ∧ ((0 : Fin 36).val < 28) ∧ (portPresent (start fun d => (rset (portReg 0 4) 0x12 (rset (portReg 0 0) 0x80010640
    (d)))).dev.variant (0 : Fin 36).val = true) ∧ ((start fun d => (rset (portReg 0 4) 0x12 (rset (portReg 0 0) 0x80010640
    (d)))).dev.portEn (0 : Fin 36).val = true) ∧ ((start fun d => (rset (portReg 0 4) 0x12 (rset (portReg 0 0) 0x80010640
    (d)))).dev.portPowered (0 : Fin 36).val = true) ∧ (SerdesKind.pllUnlock ≠ .elastic) := by decide
theorem witness_LinksFollowLock_7 : ((start fun d =>
    { (rset (portReg 0 4) 0x12 (rset (portReg 0 0) 0x80010640 (d))) with rx := [(0, some ⟨0, [], 64, 0, 0, none, 1, [⟨0, 1, []⟩], 0, 0, false, .plain, none, false⟩)] }).dev.runs
    = true) ∧ ((0 : Fin 36).val < 28) ∧ (portPresent (start fun d =>
    { (rset (portReg 0 4) 0x12 (rset (portReg 0 0) 0x80010640 (d))) with rx := [(0, some ⟨0, [], 64, 0, 0, none, 1, [⟨0, 1, []⟩], 0, 0, false, .plain, none, false⟩)] }).dev.variant
    (0 : Fin 36).val = true) ∧ ((start fun d =>
    { (rset (portReg 0 4) 0x12 (rset (portReg 0 0) 0x80010640 (d))) with rx := [(0, some ⟨0, [], 64, 0, 0, none, 1, [⟨0, 1, []⟩], 0, 0, false, .plain, none, false⟩)] }).dev.portEn
    (0 : Fin 36).val = true) ∧ ((start fun d =>
    { (rset (portReg 0 4) 0x12 (rset (portReg 0 0) 0x80010640 (d))) with rx := [(0, some ⟨0, [], 64, 0, 0, none, 1, [⟨0, 1, []⟩], 0, 0, false, .plain, none, false⟩)] }).dev.portPowered
    (0 : Fin 36).val = true) := by decide
theorem witness_LinksFollowLock_8 : ((start fun d => rset (portReg 28 0x30) 0x80000102 (rset (portReg 28 0) 0x80060640 d)).dev.runs
    = true) ∧ (portPresent (start fun d => rset (portReg 28 0x30) 0x80000102 (rset (portReg 28 0) 0x80060640 d)).dev.variant (28 :
    Fin 36).val = true) ∧ ((start fun d => rset (portReg 28 0x30) 0x80000102 (rset (portReg 28 0) 0x80060640 d)).dev.portEn (28 :
    Fin 36).val = true) ∧ ((start fun d => rset (portReg 28 0x30) 0x80000102 (rset (portReg 28 0) 0x80060640 d)).dev.portPowered (28
    : Fin 36).val = true) ∧ ((start fun d => rset (portReg 28 0x30) 0x80000102 (rset (portReg 28 0) 0x80060640 d)).dev.plcaFollower
    (28 : Fin 36).val = true) := by decide
theorem witness_LinksFollowLock_9 : ((start fun d => rset (portReg 28 0x30) 0x80000002 (rset (portReg 28 0) 0x80060640 d)).dev.runs
    = true) ∧ (portPresent (start fun d => rset (portReg 28 0x30) 0x80000002 (rset (portReg 28 0) 0x80060640 d)).dev.variant (28 :
    Fin 36).val = true) ∧ ((start fun d => rset (portReg 28 0x30) 0x80000002 (rset (portReg 28 0) 0x80060640 d)).dev.portEn (28 :
    Fin 36).val = true) ∧ ((start fun d => rset (portReg 28 0x30) 0x80000002 (rset (portReg 28 0) 0x80060640 d)).dev.portPowered (28
    : Fin 36).val = true) ∧ ((start fun d => rset (portReg 28 0x30) 0x80000002 (rset (portReg 28 0) 0x80060640 d)).dev.plcaCoord (28
    : Fin 36).val = true) := by decide
theorem witness_LinksFollowLock_10 : ((start fun d =>
    { rset (portReg 28 0x38) 2 (rset (portReg 28 0x30) 0x80000102 (rset (portReg 28 0) 0x80060640 d)) with cam := { d.cam with raw := 10000000000000 } }).dev.runs
    = true) ∧ ((start fun d =>
    { rset (portReg 28 0x38) 2 (rset (portReg 28 0x30) 0x80000102 (rset (portReg 28 0) 0x80060640 d)) with cam := { d.cam with raw := 10000000000000 } }).dev.plcaFollower
    (28 : Fin 36).val = true) ∧ ((start fun d =>
    { rset (portReg 28 0x38) 2 (rset (portReg 28 0x30) 0x80000102 (rset (portReg 28 0) 0x80060640 d)) with cam := { d.cam with raw := 10000000000000 } }).dev.rb
    (portReg (28 : Fin 36).val 0x38) 1 = true) ∧ (((start fun d =>
    { rset (portReg 28 0x38) 2 (rset (portReg 28 0x30) 0x80000102 (rset (portReg 28 0) 0x80060640 d)) with cam := { d.cam with raw := 10000000000000 } }).dev.port
    (28 : Fin 36).val).beaconAt + max 1 ((start fun d =>
    { rset (portReg 28 0x38) 2 (rset (portReg 28 0x30) 0x80000102 (rset (portReg 28 0) 0x80060640 d)) with cam := { d.cam with raw := 10000000000000 } }).dev.rf
    (portReg (28 : Fin 36).val 0x34) 31 16) * 100 * usRaw ≤ (start fun d =>
    { rset (portReg 28 0x38) 2 (rset (portReg 28 0x30) 0x80000102 (rset (portReg 28 0) 0x80060640 d)) with cam := { d.cam with raw := 10000000000000 } }).dev.now)
    := by decide
theorem witness_LinksFollowLock_11 : ((start fun d => rset (portReg 28 0x38) 2 (rset (portReg 28 0x30) 0x80000102 (rset (portReg 28
    0) 0x80060640 d))).dev.runs = true) ∧ ((start fun d => rset (portReg 28 0x38) 2 (rset (portReg 28 0x30) 0x80000102 (rset
    (portReg 28 0) 0x80060640 d))).dev.plcaFollower (28 : Fin 36).val = true) ∧ ((start fun d => rset (portReg 28 0x38) 2 (rset
    (portReg 28 0x30) 0x80000102 (rset (portReg 28 0) 0x80060640 d))).dev.rb (portReg (28 : Fin 36).val 0x38) 1 = true) ∧ ((start
    fun d => rset (portReg 28 0x38) 2 (rset (portReg 28 0x30) 0x80000102 (rset (portReg 28 0) 0x80060640 d))).dev.now < ((start fun
    d => rset (portReg 28 0x38) 2 (rset (portReg 28 0x30) 0x80000102 (rset (portReg 28 0) 0x80060640 d))).dev.port (28 : Fin
    36).val).beaconAt + max 1 ((start fun d => rset (portReg 28 0x38) 2 (rset (portReg 28 0x30) 0x80000102 (rset (portReg 28 0)
    0x80060640 d))).dev.rf (portReg (28 : Fin 36).val 0x34) 31 16) * 100 * usRaw) := by decide
theorem witness_PreemptionVerifies_1 : ((start fun d =>
    { rset (portReg 0 0x24) 2 { d with ports := [(0, { PortRun.idle with attempts := 1 })] } with cam := { d.cam with raw := 30000000000 } }).dev.runs
    = true) ∧ ((0 : Fin 36).val < 20) ∧ ((start fun d =>
    { rset (portReg 0 0x24) 2 { d with ports := [(0, { PortRun.idle with attempts := 1 })] } with cam := { d.cam with raw := 30000000000 } }).dev.rf
    (portReg (0 : Fin 36).val 0x24) 2 0 = 2) ∧ (((start fun d =>
    { rset (portReg 0 0x24) 2 { d with ports := [(0, { PortRun.idle with attempts := 1 })] } with cam := { d.cam with raw := 30000000000 } }).dev.port
    (0 : Fin 36).val).verifyAt + max 1 ((start fun d =>
    { rset (portReg 0 0x24) 2 { d with ports := [(0, { PortRun.idle with attempts := 1 })] } with cam := { d.cam with raw := 30000000000 } }).dev.rf
    (portReg (0 : Fin 36).val 0x20) 23 16) * msRaw ≤ (start fun d =>
    { rset (portReg 0 0x24) 2 { d with ports := [(0, { PortRun.idle with attempts := 1 })] } with cam := { d.cam with raw := 30000000000 } }).dev.now)
    ∧ (((start fun d =>
    { rset (portReg 0 0x24) 2 { d with ports := [(0, { PortRun.idle with attempts := 1 })] } with cam := { d.cam with raw := 30000000000 } }).dev.port
    (0 : Fin 36).val).attempts < 3) := by decide
theorem witness_PreemptionVerifies_2 : ((start fun d =>
    { rset (portReg 0 0x24) 2 { d with ports := [(0, { PortRun.idle with attempts := 3 })] } with cam := { d.cam with raw := 30000000000 } }).dev.runs
    = true) ∧ ((0 : Fin 36).val < 20) ∧ ((start fun d =>
    { rset (portReg 0 0x24) 2 { d with ports := [(0, { PortRun.idle with attempts := 3 })] } with cam := { d.cam with raw := 30000000000 } }).dev.rf
    (portReg (0 : Fin 36).val 0x24) 2 0 = 2) ∧ (((start fun d =>
    { rset (portReg 0 0x24) 2 { d with ports := [(0, { PortRun.idle with attempts := 3 })] } with cam := { d.cam with raw := 30000000000 } }).dev.port
    (0 : Fin 36).val).verifyAt + max 1 ((start fun d =>
    { rset (portReg 0 0x24) 2 { d with ports := [(0, { PortRun.idle with attempts := 3 })] } with cam := { d.cam with raw := 30000000000 } }).dev.rf
    (portReg (0 : Fin 36).val 0x20) 23 16) * msRaw ≤ (start fun d =>
    { rset (portReg 0 0x24) 2 { d with ports := [(0, { PortRun.idle with attempts := 3 })] } with cam := { d.cam with raw := 30000000000 } }).dev.now)
    ∧ (3 ≤ ((start fun d =>
    { rset (portReg 0 0x24) 2 { d with ports := [(0, { PortRun.idle with attempts := 3 })] } with cam := { d.cam with raw := 30000000000 } }).dev.port
    (0 : Fin 36).val).attempts) := by decide
theorem witness_PreemptionVerifies_3 : ((start (rset (portReg 0 0x24) 2)).dev.runs = true) ∧ ((0 : Fin 36).val < 20) ∧ ((start (rset
    (portReg 0 0x24) 2)).dev.rf (portReg (0 : Fin 36).val 0x24) 2 0 = 2) ∧ ((start (rset (portReg 0 0x24) 2)).dev.now < ((start
    (rset (portReg 0 0x24) 2)).dev.port (0 : Fin 36).val).verifyAt + max 1 ((start (rset (portReg 0 0x24) 2)).dev.rf (portReg (0 :
    Fin 36).val 0x20) 23 16) * msRaw) := by decide
theorem witness_PreemptionVerifies_4 : ((start fun d => rset (portReg 0 0x24) 2 (rset (portReg 0 0x20) 0x40000000 (rset (portReg 0
    4) 0x12 (rset (portReg 0 0) 0x80010640 (d))))).dev.runs = true) ∧ (portPresent (start fun d => rset (portReg 0 0x24) 2 (rset
    (portReg 0 0x20) 0x40000000 (rset (portReg 0 4) 0x12 (rset (portReg 0 0) 0x80010640 (d))))).dev.variant (0 : Fin 36).val = true)
    ∧ ((start fun d => rset (portReg 0 0x24) 2 (rset (portReg 0 0x20) 0x40000000 (rset (portReg 0 4) 0x12 (rset (portReg 0 0)
    0x80010640 (d))))).dev.portPowered (0 : Fin 36).val = true) ∧ ((start fun d => rset (portReg 0 0x24) 2 (rset (portReg 0 0x20)
    0x40000000 (rset (portReg 0 4) 0x12 (rset (portReg 0 0) 0x80010640 (d))))).dev.portUp (0 : Fin 36).val = true) ∧ ((start fun d
    => rset (portReg 0 0x24) 2 (rset (portReg 0 0x20) 0x40000000 (rset (portReg 0 4) 0x12 (rset (portReg 0 0) 0x80010640
    (d))))).dev.rxOf (0 : Fin 36).val = none) ∧ ((0 : Fin 36).val < 20) ∧ ((start fun d => rset (portReg 0 0x24) 2 (rset (portReg 0
    0x20) 0x40000000 (rset (portReg 0 4) 0x12 (rset (portReg 0 0) 0x80010640 (d))))).dev.rb (portReg (0 : Fin 36).val 0x20) 30 =
    true) ∧ ((start fun d => rset (portReg 0 0x24) 2 (rset (portReg 0 0x20) 0x40000000 (rset (portReg 0 4) 0x12 (rset (portReg 0 0)
    0x80010640 (d))))).dev.rf (portReg (0 : Fin 36).val 0x24) 2 0 = 2) := by decide
theorem witness_PreemptionVerifies_5 : ((start fun d => rset (portReg 0 0x24) 2 (rset (portReg 0 4) 0x12 (rset (portReg 0 0)
    0x80010640 (d)))).dev.runs = true) ∧ (portPresent (start fun d => rset (portReg 0 0x24) 2 (rset (portReg 0 4) 0x12 (rset
    (portReg 0 0) 0x80010640 (d)))).dev.variant (0 : Fin 36).val = true) ∧ ((start fun d => rset (portReg 0 0x24) 2 (rset (portReg 0
    4) 0x12 (rset (portReg 0 0) 0x80010640 (d)))).dev.portPowered (0 : Fin 36).val = true) ∧ ((start fun d => rset (portReg 0 0x24)
    2 (rset (portReg 0 4) 0x12 (rset (portReg 0 0) 0x80010640 (d)))).dev.portUp (0 : Fin 36).val = true) ∧ ((start fun d => rset
    (portReg 0 0x24) 2 (rset (portReg 0 4) 0x12 (rset (portReg 0 0) 0x80010640 (d)))).dev.rxOf (0 : Fin 36).val = none) ∧ ((0 : Fin
    36).val < 20) ∧ ((start fun d => rset (portReg 0 0x24) 2 (rset (portReg 0 4) 0x12 (rset (portReg 0 0) 0x80010640 (d)))).dev.rb
    (portReg (0 : Fin 36).val 0x20) 30 = false) := by decide
theorem witness_PreemptionVerifies_6 : ((start fun d => rset (portReg 0 0x20) 0x40000000 (rset (portReg 0 4) 0x12 (rset (portReg 0
    0) 0x80010640 (d)))).dev.runs = true) ∧ (portPresent (start fun d => rset (portReg 0 0x20) 0x40000000 (rset (portReg 0 4) 0x12
    (rset (portReg 0 0) 0x80010640 (d)))).dev.variant (0 : Fin 36).val = true) ∧ ((start fun d => rset (portReg 0 0x20) 0x40000000
    (rset (portReg 0 4) 0x12 (rset (portReg 0 0) 0x80010640 (d)))).dev.portPowered (0 : Fin 36).val = true) ∧ ((start fun d => rset
    (portReg 0 0x20) 0x40000000 (rset (portReg 0 4) 0x12 (rset (portReg 0 0) 0x80010640 (d)))).dev.portUp (0 : Fin 36).val = true) ∧
    ((start fun d => rset (portReg 0 0x20) 0x40000000 (rset (portReg 0 4) 0x12 (rset (portReg 0 0) 0x80010640 (d)))).dev.rxOf (0 :
    Fin 36).val = none) ∧ ((0 : Fin 36).val < 20) ∧ ((start fun d => rset (portReg 0 0x20) 0x40000000 (rset (portReg 0 4) 0x12 (rset
    (portReg 0 0) 0x80010640 (d)))).dev.rb (portReg (0 : Fin 36).val 0x20) 30 = true) ∧ ((⟨.verify, 0, [], 0, false, true⟩ :
    Fragment).smd = .verify) := by decide
theorem witness_PreemptionVerifies_7 : ((start fun d => (rset (portReg 0 4) 0x12 (rset (portReg 0 0) 0x80010640 (d)))).dev.runs =
    true) ∧ (portPresent (start fun d => (rset (portReg 0 4) 0x12 (rset (portReg 0 0) 0x80010640 (d)))).dev.variant (0 : Fin 36).val
    = true) ∧ ((start fun d => (rset (portReg 0 4) 0x12 (rset (portReg 0 0) 0x80010640 (d)))).dev.portPowered (0 : Fin 36).val =
    true) ∧ ((start fun d => (rset (portReg 0 4) 0x12 (rset (portReg 0 0) 0x80010640 (d)))).dev.portUp (0 : Fin 36).val = true) ∧
    ((start fun d => (rset (portReg 0 4) 0x12 (rset (portReg 0 0) 0x80010640 (d)))).dev.rxOf (0 : Fin 36).val = none) ∧ ((0 : Fin
    36).val < 20) ∧ ((start fun d => (rset (portReg 0 4) 0x12 (rset (portReg 0 0) 0x80010640 (d)))).dev.rb (portReg (0 : Fin 36).val
    0x20) 30 = false) := by decide
theorem witness_PreemptionVerifies_8 : ((start fun d => rset (portReg 0 0x20) 0x40000000 (rset (portReg 0 4) 0x12 (rset (portReg 0
    0) 0x80010640 (d)))).dev.runs = true) ∧ (portPresent (start fun d => rset (portReg 0 0x20) 0x40000000 (rset (portReg 0 4) 0x12
    (rset (portReg 0 0) 0x80010640 (d)))).dev.variant (0 : Fin 36).val = true) ∧ ((start fun d => rset (portReg 0 0x20) 0x40000000
    (rset (portReg 0 4) 0x12 (rset (portReg 0 0) 0x80010640 (d)))).dev.portPowered (0 : Fin 36).val = true) ∧ ((start fun d => rset
    (portReg 0 0x20) 0x40000000 (rset (portReg 0 4) 0x12 (rset (portReg 0 0) 0x80010640 (d)))).dev.portUp (0 : Fin 36).val = true) ∧
    ((start fun d => rset (portReg 0 0x20) 0x40000000 (rset (portReg 0 4) 0x12 (rset (portReg 0 0) 0x80010640 (d)))).dev.rxOf (0 :
    Fin 36).val = none) ∧ ((0 : Fin 36).val < 20) ∧ ((start fun d => rset (portReg 0 0x20) 0x40000000 (rset (portReg 0 4) 0x12 (rset
    (portReg 0 0) 0x80010640 (d)))).dev.rb (portReg (0 : Fin 36).val 0x20) 30 = true) ∧ ((⟨.start 1, 0, [1, 2], 0, false, true⟩ :
    Fragment).smd = .start (1 : Fin 4)) ∧ ((⟨.start 1, 0, [1, 2], 0, false, true⟩ : Fragment).final = false) ∧ ((⟨.start 1, 0, [1,
    2], 0, false, true⟩ : Fragment).crcOk = true) ∧ (((start fun d => rset (portReg 0 0x20) 0x40000000 (rset (portReg 0 4) 0x12
    (rset (portReg 0 0) 0x80010640 (d)))).dev.port (0 : Fin 36).val).reasm = none) ∧ ((⟨.start 1, 0, [1, 2], 0, false, true⟩ :
    Fragment).octets.length ≤ (start fun d => rset (portReg 0 0x20) 0x40000000 (rset (portReg 0 4) 0x12 (rset (portReg 0 0)
    0x80010640 (d)))).dev.rf (portReg (0 : Fin 36).val 0) 15 0) ∧ ((start fun d => rset (portReg 0 0x20) 0x40000000 (rset (portReg 0
    4) 0x12 (rset (portReg 0 0) 0x80010640 (d)))).dev.canTake (0 : Fin 36).val (cellsOf (⟨.start 1, 0, [1, 2], 0, false, true⟩ :
    Fragment).octets.length) = true) := by decide
theorem witness_PreemptionVerifies_9 : ((start fun d => (fun d =>
    { d with ports := [(0, { PortRun.idle with reasm := some ⟨[1], 1, 0, 9, 1, [⟨0, 1, []⟩], 0, none, false⟩ })] }) <| rset (portReg
    0 0x20) 0x40000000 (rset (portReg 0 4) 0x12 (rset (portReg 0 0) 0x80010640 (d)))).dev.runs = true) ∧ (portPresent (start fun d
    => (fun d => { d with ports := [(0, { PortRun.idle with reasm := some ⟨[1], 1, 0, 9, 1, [⟨0, 1, []⟩], 0, none, false⟩ })] }) <|
    rset (portReg 0 0x20) 0x40000000 (rset (portReg 0 4) 0x12 (rset (portReg 0 0) 0x80010640 (d)))).dev.variant (0 : Fin 36).val =
    true) ∧ ((start fun d => (fun d =>
    { d with ports := [(0, { PortRun.idle with reasm := some ⟨[1], 1, 0, 9, 1, [⟨0, 1, []⟩], 0, none, false⟩ })] }) <| rset (portReg
    0 0x20) 0x40000000 (rset (portReg 0 4) 0x12 (rset (portReg 0 0) 0x80010640 (d)))).dev.portPowered (0 : Fin 36).val = true) ∧
    ((start fun d => (fun d =>
    { d with ports := [(0, { PortRun.idle with reasm := some ⟨[1], 1, 0, 9, 1, [⟨0, 1, []⟩], 0, none, false⟩ })] }) <| rset (portReg
    0 0x20) 0x40000000 (rset (portReg 0 4) 0x12 (rset (portReg 0 0) 0x80010640 (d)))).dev.portUp (0 : Fin 36).val = true) ∧ ((start
    fun d => (fun d =>
    { d with ports := [(0, { PortRun.idle with reasm := some ⟨[1], 1, 0, 9, 1, [⟨0, 1, []⟩], 0, none, false⟩ })] }) <| rset (portReg
    0 0x20) 0x40000000 (rset (portReg 0 4) 0x12 (rset (portReg 0 0) 0x80010640 (d)))).dev.rxOf (0 : Fin 36).val = none) ∧ ((0 : Fin
    36).val < 20) ∧ ((start fun d => (fun d =>
    { d with ports := [(0, { PortRun.idle with reasm := some ⟨[1], 1, 0, 9, 1, [⟨0, 1, []⟩], 0, none, false⟩ })] }) <| rset (portReg
    0 0x20) 0x40000000 (rset (portReg 0 4) 0x12 (rset (portReg 0 0) 0x80010640 (d)))).dev.rb (portReg (0 : Fin 36).val 0x20) 30 =
    true) ∧ ((⟨.cont 1, 0, [2], 0, false, true⟩ : Fragment).smd = .cont (1 : Fin 4)) ∧ (((start fun d => (fun d =>
    { d with ports := [(0, { PortRun.idle with reasm := some ⟨[1], 1, 0, 9, 1, [⟨0, 1, []⟩], 0, none, false⟩ })] }) <| rset (portReg
    0 0x20) 0x40000000 (rset (portReg 0 4) 0x12 (rset (portReg 0 0) 0x80010640 (d)))).dev.port (0 : Fin 36).val).reasm = some (⟨[1],
    1, 0, 9, 1, [⟨0, 1, []⟩], 0, none, false⟩ : Reasm)) ∧ ((⟨[1], 1, 0, 9, 1, [⟨0, 1, []⟩], 0, none, false⟩ : Reasm).count = (1 :
    Fin 4).val) ∧ ((⟨[1], 1, 0, 9, 1, [⟨0, 1, []⟩], 0, none, false⟩ : Reasm).next = (⟨.cont 1, 0, [2], 0, false, true⟩ :
    Fragment).fragCount.val) ∧ ((⟨[1], 1, 0, 9, 1, [⟨0, 1, []⟩], 0, none, false⟩ : Reasm).dropped = false) ∧ ((⟨.cont 1, 0, [2], 0,
    false, true⟩ : Fragment).final = false) ∧ ((⟨.cont 1, 0, [2], 0, false, true⟩ : Fragment).crcOk = true) ∧ ((⟨[1], 1, 0, 9, 1,
    [⟨0, 1, []⟩], 0, none, false⟩ : Reasm).octets.length + (⟨.cont 1, 0, [2], 0, false, true⟩ : Fragment).octets.length ≤ (start fun
    d => (fun d => { d with ports := [(0, { PortRun.idle with reasm := some ⟨[1], 1, 0, 9, 1, [⟨0, 1, []⟩], 0, none, false⟩ })] })
    <| rset (portReg 0 0x20) 0x40000000 (rset (portReg 0 4) 0x12 (rset (portReg 0 0) 0x80010640 (d)))).dev.rf (portReg (0 : Fin
    36).val 0) 15 0) ∧ ((start fun d => (fun d =>
    { d with ports := [(0, { PortRun.idle with reasm := some ⟨[1], 1, 0, 9, 1, [⟨0, 1, []⟩], 0, none, false⟩ })] }) <| rset (portReg
    0 0x20) 0x40000000 (rset (portReg 0 4) 0x12 (rset (portReg 0 0) 0x80010640 (d)))).dev.canTake (0 : Fin 36).val (cellsOf ((⟨[1],
    1, 0, 9, 1, [⟨0, 1, []⟩], 0, none, false⟩ : Reasm).octets.length + (⟨.cont 1, 0, [2], 0, false, true⟩ : Fragment).octets.length)
    - (⟨[1], 1, 0, 9, 1, [⟨0, 1, []⟩], 0, none, false⟩ : Reasm).cells) = true) := by decide
theorem witness_PreemptionVerifies_10 : ((start fun d => rset (portReg 0 0x20) 0x40000000 (rset (portReg 0 4) 0x12 (rset (portReg 0
    0) 0x80010640 (d)))).dev.runs = true) ∧ (portPresent (start fun d => rset (portReg 0 0x20) 0x40000000 (rset (portReg 0 4) 0x12
    (rset (portReg 0 0) 0x80010640 (d)))).dev.variant (0 : Fin 36).val = true) ∧ ((start fun d => rset (portReg 0 0x20) 0x40000000
    (rset (portReg 0 4) 0x12 (rset (portReg 0 0) 0x80010640 (d)))).dev.portPowered (0 : Fin 36).val = true) ∧ ((start fun d => rset
    (portReg 0 0x20) 0x40000000 (rset (portReg 0 4) 0x12 (rset (portReg 0 0) 0x80010640 (d)))).dev.portUp (0 : Fin 36).val = true) ∧
    ((start fun d => rset (portReg 0 0x20) 0x40000000 (rset (portReg 0 4) 0x12 (rset (portReg 0 0) 0x80010640 (d)))).dev.rxOf (0 :
    Fin 36).val = none) ∧ ((0 : Fin 36).val < 20) ∧ ((start fun d => rset (portReg 0 0x20) 0x40000000 (rset (portReg 0 4) 0x12 (rset
    (portReg 0 0) 0x80010640 (d)))).dev.rb (portReg (0 : Fin 36).val 0x20) 30 = true) ∧ ((⟨.cont 1, 0, [2], 0, false, true⟩ :
    Fragment).smd = .cont (1 : Fin 4)) ∧ (((start fun d => rset (portReg 0 0x20) 0x40000000 (rset (portReg 0 4) 0x12 (rset (portReg
    0 0) 0x80010640 (d)))).dev.port (0 : Fin 36).val).reasm = none) := by decide
theorem witness_MdioAndLinkQuality_1 : ((start fun d => rset (mdioReg 1 0) 0x80000040 (ring 3 d)).starts (cmdOp 1 2 41 0x101 0 0 0
    0) 2 (40 + (1 : Fin 4).val) 1 [0x1F1F, 0, 0, 0, 0] = true) ∧ ((start fun d => rset (mdioReg 1 0) 0x80000040 (ring 3 d)).dev.rb
    (mdioReg (1 : Fin 4).val 0) 31 = true) := by decide
theorem witness_MdioAndLinkQuality_2 : ((start fun d => rset (mdioReg 1 0) 0x80000040 (ring 3 d)).starts (cmdOp 2 2 41 0x500000101 0
    0 0 0) 2 (40 + (1 : Fin 4).val) 2 [0xFFFF00001F1F, 0, 0, 0, 0] = true) ∧ ((start fun d => rset (mdioReg 1 0) 0x80000040 (ring 3
    d)).dev.rb (mdioReg (1 : Fin 4).val 0) 31 = true) := by decide
theorem witness_MdioAndLinkQuality_3 : ((start fun d => rset (mdioReg 1 0) 0x80000040 (ring 3 d)).starts (cmdOp 3 2 41 0x70101 0 0 0
    0) 2 (40 + (1 : Fin 4).val) 3 [0xFFFF1F1F, 0, 0, 0, 0] = true) ∧ ((start fun d => rset (mdioReg 1 0) 0x80000040 (ring 3
    d)).dev.rb (mdioReg (1 : Fin 4).val 0) 31 = true) := by decide
theorem witness_MdioAndLinkQuality_4 : ((start fun d => rset (mdioReg 1 0) 0x80000040 (ring 3 d)).starts (cmdOp 4 2 41 0x500070101 0
    0 0 0) 2 (40 + (1 : Fin 4).val) 4 [0xFFFFFFFF1F1F, 0, 0, 0, 0] = true) ∧ ((start fun d => rset (mdioReg 1 0) 0x80000040 (ring 3
    d)).dev.rb (mdioReg (1 : Fin 4).val 0) 31 = true) := by decide
theorem witness_MdioAndLinkQuality_5 : ((start fun d => rset (mdioReg 1 0) 0x40 (ring 3 d)).starts (cmdOp 1 2 41 0x101 0 0 0 0) 2
    (40 + (1 : Fin 4).val) 1 [0x1F1F, 0, 0, 0, 0] = true) ∧ ((start fun d => rset (mdioReg 1 0) 0x40 (ring 3 d)).dev.rb (mdioReg (1
    : Fin 4).val 0) 31 = false) := by decide
theorem witness_MdioAndLinkQuality_6 : ((start fun d => rset (mdioReg 1 0x14) 0xFF (rset (mdioReg 1 0x10) 0x80000000 (rset (mdioReg
    1 0) 0x80000040 d))).dev.runs = true) ∧ ((start fun d => rset (mdioReg 1 0x14) 0xFF (rset (mdioReg 1 0x10) 0x80000000 (rset
    (mdioReg 1 0) 0x80000040 d))).dev.rb (mdioReg (1 : Fin 4).val 0) 31 = true) ∧ ((start fun d => rset (mdioReg 1 0x14) 0xFF (rset
    (mdioReg 1 0x10) 0x80000000 (rset (mdioReg 1 0) 0x80000040 d))).dev.rb (mdioReg (1 : Fin 4).val (0x10 + 0x10 * (0 : Fin 8).val))
    31 = true) ∧ ((start fun d => rset (mdioReg 1 0x14) 0xFF (rset (mdioReg 1 0x10) 0x80000000 (rset (mdioReg 1 0) 0x80000040
    d))).dev.pollDue (1 : Fin 4).val (0 : Fin 8).val = true) ∧ ((⟨5, true⟩ : PhyReply).ack = true) ∧ ((((start fun d => rset
    (mdioReg 1 0x14) 0xFF (rset (mdioReg 1 0x10) 0x80000000 (rset (mdioReg 1 0) 0x80000040 d))).dev.reg (mdioReg (1 : Fin 4).val
    (0x18 + 0x10 * (0 : Fin 8).val)) ^^^ BitVec.ofNat 32 (⟨5, true⟩ : PhyReply).data.toNat) &&& ((start fun d => rset (mdioReg 1
    0x14) 0xFF (rset (mdioReg 1 0x10) 0x80000000 (rset (mdioReg 1 0) 0x80000040 d))).dev.reg (mdioReg (1 : Fin 4).val (0x14 + 0x10 *
    (0 : Fin 8).val)) &&& 0xFFFF)) ≠ 0 ∨ (start fun d => rset (mdioReg 1 0x14) 0xFF (rset (mdioReg 1 0x10) 0x80000000 (rset (mdioReg
    1 0) 0x80000040 d))).dev.rb (mdioReg (1 : Fin 4).val (0x18 + 0x10 * (0 : Fin 8).val)) 16 = false) := by decide
theorem witness_MdioAndLinkQuality_7 : ((start fun d => rset (mdioReg 1 0x18) 0x10005 <| rset (mdioReg 1 0x14) 0xFF (rset (mdioReg 1
    0x10) 0x80000000 (rset (mdioReg 1 0) 0x80000040 d))).dev.runs = true) ∧ ((start fun d => rset (mdioReg 1 0x18) 0x10005 <| rset
    (mdioReg 1 0x14) 0xFF (rset (mdioReg 1 0x10) 0x80000000 (rset (mdioReg 1 0) 0x80000040 d))).dev.rb (mdioReg (1 : Fin 4).val 0)
    31 = true) ∧ ((start fun d => rset (mdioReg 1 0x18) 0x10005 <| rset (mdioReg 1 0x14) 0xFF (rset (mdioReg 1 0x10) 0x80000000
    (rset (mdioReg 1 0) 0x80000040 d))).dev.rb (mdioReg (1 : Fin 4).val (0x10 + 0x10 * (0 : Fin 8).val)) 31 = true) ∧ ((start fun d
    => rset (mdioReg 1 0x18) 0x10005 <| rset (mdioReg 1 0x14) 0xFF (rset (mdioReg 1 0x10) 0x80000000 (rset (mdioReg 1 0) 0x80000040
    d))).dev.pollDue (1 : Fin 4).val (0 : Fin 8).val = true) ∧ ((⟨5, true⟩ : PhyReply).ack = true) ∧ ((((start fun d => rset
    (mdioReg 1 0x18) 0x10005 <| rset (mdioReg 1 0x14) 0xFF (rset (mdioReg 1 0x10) 0x80000000 (rset (mdioReg 1 0) 0x80000040
    d))).dev.reg (mdioReg (1 : Fin 4).val (0x18 + 0x10 * (0 : Fin 8).val)) ^^^ BitVec.ofNat 32 (⟨5, true⟩ : PhyReply).data.toNat)
    &&& ((start fun d => rset (mdioReg 1 0x18) 0x10005 <| rset (mdioReg 1 0x14) 0xFF (rset (mdioReg 1 0x10) 0x80000000 (rset
    (mdioReg 1 0) 0x80000040 d))).dev.reg (mdioReg (1 : Fin 4).val (0x14 + 0x10 * (0 : Fin 8).val)) &&& 0xFFFF)) = 0) ∧ ((start fun
    d => rset (mdioReg 1 0x18) 0x10005 <| rset (mdioReg 1 0x14) 0xFF (rset (mdioReg 1 0x10) 0x80000000 (rset (mdioReg 1 0)
    0x80000040 d))).dev.rb (mdioReg (1 : Fin 4).val (0x18 + 0x10 * (0 : Fin 8).val)) 16 = true) := by decide
theorem witness_MdioAndLinkQuality_8 : ((start fun d => rset (mdioReg 1 0x14) 0xFF (rset (mdioReg 1 0x10) 0x80000000 (rset (mdioReg
    1 0) 0x80000040 d))).dev.runs = true) ∧ ((start fun d => rset (mdioReg 1 0x14) 0xFF (rset (mdioReg 1 0x10) 0x80000000 (rset
    (mdioReg 1 0) 0x80000040 d))).dev.rb (mdioReg (1 : Fin 4).val 0) 31 = true) ∧ ((start fun d => rset (mdioReg 1 0x14) 0xFF (rset
    (mdioReg 1 0x10) 0x80000000 (rset (mdioReg 1 0) 0x80000040 d))).dev.rb (mdioReg (1 : Fin 4).val (0x10 + 0x10 * (0 : Fin 8).val))
    31 = true) ∧ ((start fun d => rset (mdioReg 1 0x14) 0xFF (rset (mdioReg 1 0x10) 0x80000000 (rset (mdioReg 1 0) 0x80000040
    d))).dev.pollDue (1 : Fin 4).val (0 : Fin 8).val = true) ∧ ((⟨0, false⟩ : PhyReply).ack = false) := by decide
theorem witness_MdioAndLinkQuality_9 : ((start fun d => atRaw (256 * 400000000) (rset (portReg 0 4) 0x12 (rset (portReg 0 0)
    0x80010640 (d)))).dev.runs = true) ∧ ((start fun d => atRaw (256 * 400000000) (rset (portReg 0 4) 0x12 (rset (portReg 0 0)
    0x80010640 (d)))).dev.portEn (0 : Fin 36).val = true) ∧ ((start fun d => atRaw (256 * 400000000) (rset (portReg 0 4) 0x12 (rset
    (portReg 0 0) 0x80010640 (d)))).dev.portPowered (0 : Fin 36).val = true) ∧ (((start fun d => atRaw (256 * 400000000) (rset
    (portReg 0 4) 0x12 (rset (portReg 0 0) 0x80010640 (d)))).dev.port (0 : Fin 36).val).second < (start fun d => atRaw (256 *
    400000000) (rset (portReg 0 4) 0x12 (rset (portReg 0 0) 0x80010640 (d)))).dev.lqNow) ∧ (((start fun d => atRaw (256 * 400000000)
    (rset (portReg 0 4) 0x12 (rset (portReg 0 0) 0x80010640 (d)))).dev.port (0 : Fin 36).val).whole = false) := by decide
theorem witness_MdioAndLinkQuality_10 : ((start fun d => atRaw (256 * 400000000) (rset (portReg 0 4) 0x12 (rset (portReg 0 0)
    0x80010640 ({ d with ports := [(0, { PortRun.idle with whole := true, errs := 3, good := 10 })] })))).dev.runs = true) ∧ ((start
    fun d => atRaw (256 * 400000000) (rset (portReg 0 4) 0x12 (rset (portReg 0 0) 0x80010640
    ({ d with ports := [(0, { PortRun.idle with whole := true, errs := 3, good := 10 })] })))).dev.portEn (0 : Fin 36).val = true) ∧
    ((start fun d => atRaw (256 * 400000000) (rset (portReg 0 4) 0x12 (rset (portReg 0 0) 0x80010640
    ({ d with ports := [(0, { PortRun.idle with whole := true, errs := 3, good := 10 })] })))).dev.portPowered (0 : Fin 36).val =
    true) ∧ (((start fun d => atRaw (256 * 400000000) (rset (portReg 0 4) 0x12 (rset (portReg 0 0) 0x80010640
    ({ d with ports := [(0, { PortRun.idle with whole := true, errs := 3, good := 10 })] })))).dev.port (0 : Fin 36).val).second <
    (start fun d => atRaw (256 * 400000000) (rset (portReg 0 4) 0x12 (rset (portReg 0 0) 0x80010640
    ({ d with ports := [(0, { PortRun.idle with whole := true, errs := 3, good := 10 })] })))).dev.lqNow) ∧ (((start fun d => atRaw
    (256 * 400000000) (rset (portReg 0 4) 0x12 (rset (portReg 0 0) 0x80010640
    ({ d with ports := [(0, { PortRun.idle with whole := true, errs := 3, good := 10 })] })))).dev.port (0 : Fin 36).val).whole =
    true) ∧ (((start fun d => atRaw (256 * 400000000) (rset (portReg 0 4) 0x12 (rset (portReg 0 0) 0x80010640
    ({ d with ports := [(0, { PortRun.idle with whole := true, errs := 3, good := 10 })] })))).dev.port (0 : Fin
    36).val).seconds.length < 9) ∧ ((start fun d => atRaw (256 * 400000000) (rset (portReg 0 4) 0x12 (rset (portReg 0 0) 0x80010640
    ({ d with ports := [(0, { PortRun.idle with whole := true, errs := 3, good := 10 })] })))).dev.rf (portReg (0 : Fin 36).val
    0x44) 7 4 < 9) := by decide
theorem witness_MdioAndLinkQuality_11 : ((start fun d => (rset (portReg 0 4) 0x12 (rset (portReg 0 0) 0x80010640 (d)))).dev.runs =
    true) ∧ ((start fun d => (rset (portReg 0 4) 0x12 (rset (portReg 0 0) 0x80010640 (d)))).dev.portEn (0 : Fin 36).val = true) ∧
    ((start fun d => (rset (portReg 0 4) 0x12 (rset (portReg 0 0) 0x80010640 (d)))).dev.portPowered (0 : Fin 36).val = true) ∧
    ((start fun d => (rset (portReg 0 4) 0x12 (rset (portReg 0 0) 0x80010640 (d)))).dev.lqNow ≤ ((start fun d => (rset (portReg 0 4)
    0x12 (rset (portReg 0 0) 0x80010640 (d)))).dev.port (0 : Fin 36).val).second) := by decide
theorem witness_FramesEnterAndEnd_1 : ((start fun d => (rset (portReg 0 4) 0x12 (rset (portReg 0 0) 0x80010640 (d)))).dev.runs =
    true) ∧ (portPresent (start fun d => (rset (portReg 0 4) 0x12 (rset (portReg 0 0) 0x80010640 (d)))).dev.variant (0 : Fin 36).val
    = true) ∧ ((start fun d => (rset (portReg 0 4) 0x12 (rset (portReg 0 0) 0x80010640 (d)))).dev.portPowered (0 : Fin 36).val =
    true) ∧ ((start fun d => (rset (portReg 0 4) 0x12 (rset (portReg 0 0) 0x80010640 (d)))).dev.portUp (0 : Fin 36).val = true) ∧
    ((start fun d => (rset (portReg 0 4) 0x12 (rset (portReg 0 0) 0x80010640 (d)))).dev.rxOf (0 : Fin 36).val = none) ∧
    ((List.replicate 60 (0 : BitVec 8)).length + 4 ≤ (start fun d => (rset (portReg 0 4) 0x12 (rset (portReg 0 0) 0x80010640
    (d)))).dev.rf (portReg (0 : Fin 36).val 0) 15 0) ∧ ((start fun d => (rset (portReg 0 4) 0x12 (rset (portReg 0 0) 0x80010640
    (d)))).dev.canTake (0 : Fin 36).val (cellsOf ((List.replicate 60 (0 : BitVec 8)).length + 4)) = true) ∧ ((start fun d => (rset
    (portReg 0 4) 0x12 (rset (portReg 0 0) 0x80010640 (d)))).dev.rb (macsecReg (0 : Fin 36).val 0) 30 = false) := by decide
theorem witness_FramesEnterAndEnd_2 : ((start fun d => rset (portReg 0 0) 0x80010040 (rset (portReg 0 4) 0x12 (rset (portReg 0 0)
    0x80010640 (d)))).dev.runs = true) ∧ (portPresent (start fun d => rset (portReg 0 0) 0x80010040 (rset (portReg 0 4) 0x12 (rset
    (portReg 0 0) 0x80010640 (d)))).dev.variant (0 : Fin 36).val = true) ∧ ((start fun d => rset (portReg 0 0) 0x80010040 (rset
    (portReg 0 4) 0x12 (rset (portReg 0 0) 0x80010640 (d)))).dev.portPowered (0 : Fin 36).val = true) ∧ ((start fun d => rset
    (portReg 0 0) 0x80010040 (rset (portReg 0 4) 0x12 (rset (portReg 0 0) 0x80010640 (d)))).dev.portUp (0 : Fin 36).val = true) ∧
    ((start fun d => rset (portReg 0 0) 0x80010040 (rset (portReg 0 4) 0x12 (rset (portReg 0 0) 0x80010640 (d)))).dev.rxOf (0 : Fin
    36).val = none) ∧ ((start fun d => rset (portReg 0 0) 0x80010040 (rset (portReg 0 4) 0x12 (rset (portReg 0 0) 0x80010640
    (d)))).dev.rf (portReg (0 : Fin 36).val 0) 15 0 < (List.replicate 70 (0 : BitVec 8)).length + 4) ∧ ((start fun d => rset
    (portReg 0 0) 0x80010040 (rset (portReg 0 4) 0x12 (rset (portReg 0 0) 0x80010640 (d)))).dev.canTake (0 : Fin 36).val (cellsOf
    ((start fun d => rset (portReg 0 0) 0x80010040 (rset (portReg 0 4) 0x12 (rset (portReg 0 0) 0x80010640 (d)))).dev.rf (portReg (0
    : Fin 36).val 0) 15 0)) = true) ∧ ((start fun d => rset (portReg 0 0) 0x80010040 (rset (portReg 0 4) 0x12 (rset (portReg 0 0)
    0x80010640 (d)))).dev.rb (macsecReg (0 : Fin 36).val 0) 30 = false) := by decide
theorem witness_FramesEnterAndEnd_3 : ((start fun d => rset (trunkReg 0) 0 (rset (portReg 0 4) 0x12 (rset (portReg 0 0) 0x80010640
    (d)))).dev.runs = true) ∧ (portPresent (start fun d => rset (trunkReg 0) 0 (rset (portReg 0 4) 0x12 (rset (portReg 0 0)
    0x80010640 (d)))).dev.variant (0 : Fin 36).val = true) ∧ ((start fun d => rset (trunkReg 0) 0 (rset (portReg 0 4) 0x12 (rset
    (portReg 0 0) 0x80010640 (d)))).dev.portPowered (0 : Fin 36).val = true) ∧ ((start fun d => rset (trunkReg 0) 0 (rset (portReg 0
    4) 0x12 (rset (portReg 0 0) 0x80010640 (d)))).dev.portUp (0 : Fin 36).val = true) ∧ ((start fun d => rset (trunkReg 0) 0 (rset
    (portReg 0 4) 0x12 (rset (portReg 0 0) 0x80010640 (d)))).dev.rxOf (0 : Fin 36).val = none) ∧ ((start fun d => rset (trunkReg 0)
    0 (rset (portReg 0 4) 0x12 (rset (portReg 0 0) 0x80010640 (d)))).dev.rb (macsecReg (0 : Fin 36).val 0) 30 = false) ∧ ((start fun
    d => rset (trunkReg 0) 0 (rset (portReg 0 4) 0x12 (rset (portReg 0 0) 0x80010640 (d)))).dev.canTake (0 : Fin 36).val (cellsOf
    (if (start fun d => rset (trunkReg 0) 0 (rset (portReg 0 4) 0x12 (rset (portReg 0 0) 0x80010640 (d)))).dev.rf (portReg (0 : Fin
    36).val 0) 15 0 < (List.replicate 60 (0 : BitVec 8)).length + 4 then (start fun d => rset (trunkReg 0) 0 (rset (portReg 0 4)
    0x12 (rset (portReg 0 0) 0x80010640 (d)))).dev.rf (portReg (0 : Fin 36).val 0) 15 0 else (List.replicate 60 (0 : BitVec
    8)).length + 4)) = false) := by decide
theorem witness_FramesEnterAndEnd_4 : (State.reset.dev.runs = true) ∧ (State.reset.dev.portUp (0 : Fin 36).val = false) := by decide
theorem witness_FramesEnterAndEnd_5 : ((start fun d =>
    { d with rx := [(0, some (⟨0, List.replicate 60 0, 64, 0, 0, none, 1, [⟨0, 1, []⟩], 0, 0, false, .plain, none, false⟩ : RxFrame))] }).dev.runs
    = true) ∧ ((0 : Fin 40).val ≠ 39) ∧ ((start fun d =>
    { d with rx := [(0, some (⟨0, List.replicate 60 0, 64, 0, 0, none, 1, [⟨0, 1, []⟩], 0, 0, false, .plain, none, false⟩ : RxFrame))] }).dev.endedOf
    (0 : Fin 40).val = []) ∧ ((start fun d =>
    { d with rx := [(0, some (⟨0, List.replicate 60 0, 64, 0, 0, none, 1, [⟨0, 1, []⟩], 0, 0, false, .plain, none, false⟩ : RxFrame))] }).dev.rxOf
    (0 : Fin 40).val = some (⟨0, List.replicate 60 0, 64, 0, 0, none, 1, [⟨0, 1, []⟩], 0, 0, false, .plain, none, false⟩ : RxFrame))
    ∧ ((⟨0, List.replicate 60 0, 64, 0, 0, none, 1, [⟨0, 1, []⟩], 0, 0, false, .plain, none, false⟩ : RxFrame).verdict = none) := by
    decide
theorem witness_FramesEnterAndEnd_6 : ((start fun d =>
    { d with rx := [(0, some (⟨0, List.replicate 60 0, 64, 0, 0, none, 1, [⟨0, 1, []⟩], 0, 0, false, .plain, some (Verdict.start []), false⟩ : RxFrame))] }).dev.runs
    = true) ∧ ((0 : Fin 40).val < 36) ∧ ((start fun d =>
    { d with rx := [(0, some (⟨0, List.replicate 60 0, 64, 0, 0, none, 1, [⟨0, 1, []⟩], 0, 0, false, .plain, some (Verdict.start []), false⟩ : RxFrame))] }).dev.endedOf
    (0 : Fin 40).val = []) ∧ ((start fun d =>
    { d with rx := [(0, some (⟨0, List.replicate 60 0, 64, 0, 0, none, 1, [⟨0, 1, []⟩], 0, 0, false, .plain, some (Verdict.start []), false⟩ : RxFrame))] }).dev.rxOf
    (0 : Fin 40).val = some (⟨0, List.replicate 60 0, 64, 0, 0, none, 1, [⟨0, 1, []⟩], 0, 0, false, .plain, some (Verdict.start []),
    false⟩ : RxFrame)) ∧ ((⟨0, List.replicate 60 0, 64, 0, 0, none, 1, [⟨0, 1, []⟩], 0, 0, false, .plain, some (Verdict.start []),
    false⟩ : RxFrame).verdict.isSome = true) ∧ ((⟨0, List.replicate 60 0, 64, 0, 0, none, 1, [⟨0, 1, []⟩], 0, 0, false, .plain, some
    (Verdict.start []), false⟩ : RxFrame).oversize = false) ∧ (64 ≤ (⟨0, List.replicate 60 0, 64, 0, 0, none, 1, [⟨0, 1, []⟩], 0, 0,
    false, .plain, some (Verdict.start []), false⟩ : RxFrame).len) := by decide
theorem witness_FramesEnterAndEnd_7 : ((start fun d =>
    { d with rx := [(0, some (⟨0, List.replicate 60 0, 64, 0, 0, none, 1, [⟨0, 1, []⟩], 0, 0, false, .plain, some (Verdict.start []), true⟩ : RxFrame))] }).dev.runs
    = true) ∧ ((0 : Fin 40).val < 36) ∧ ((start fun d =>
    { d with rx := [(0, some (⟨0, List.replicate 60 0, 64, 0, 0, none, 1, [⟨0, 1, []⟩], 0, 0, false, .plain, some (Verdict.start []), true⟩ : RxFrame))] }).dev.endedOf
    (0 : Fin 40).val = []) ∧ ((start fun d =>
    { d with rx := [(0, some (⟨0, List.replicate 60 0, 64, 0, 0, none, 1, [⟨0, 1, []⟩], 0, 0, false, .plain, some (Verdict.start []), true⟩ : RxFrame))] }).dev.rxOf
    (0 : Fin 40).val = some (⟨0, List.replicate 60 0, 64, 0, 0, none, 1, [⟨0, 1, []⟩], 0, 0, false, .plain, some (Verdict.start []),
    true⟩ : RxFrame)) ∧ ((⟨0, List.replicate 60 0, 64, 0, 0, none, 1, [⟨0, 1, []⟩], 0, 0, false, .plain, some (Verdict.start []),
    true⟩ : RxFrame).verdict.isSome = true) ∧ ((⟨0, List.replicate 60 0, 64, 0, 0, none, 1, [⟨0, 1, []⟩], 0, 0, false, .plain, some
    (Verdict.start []), true⟩ : RxFrame).sec = .plain) ∧ ((⟨0, List.replicate 60 0, 64, 0, 0, none, 1, [⟨0, 1, []⟩], 0, 0, false,
    .plain, some (Verdict.start []), true⟩ : RxFrame).faultAt true false = none) ∧ ((start fun d =>
    { d with rx := [(0, some (⟨0, List.replicate 60 0, 64, 0, 0, none, 1, [⟨0, 1, []⟩], 0, 0, false, .plain, some (Verdict.start []), true⟩ : RxFrame))] }).dev.isHeartbeat
    (⟨0, List.replicate 60 0, 64, 0, 0, none, 1, [⟨0, 1, []⟩], 0, 0, false, .plain, some (Verdict.start []), true⟩ : RxFrame) =
    false) ∧ ((start fun d =>
    { d with rx := [(0, some (⟨0, List.replicate 60 0, 64, 0, 0, none, 1, [⟨0, 1, []⟩], 0, 0, false, .plain, some (Verdict.start []), true⟩ : RxFrame))] }).dev.safe
    = false) ∧ ((⟨0, List.replicate 60 0, 64, 0, 0, none, 1, [⟨0, 1, []⟩], 0, 0, false, .plain, some (Verdict.start []), true⟩ :
    RxFrame).waiting = true) := by decide
theorem witness_FramesEnterAndEnd_8 : ((start fun d =>
    { d with rx := [(0, some (⟨0, List.replicate 60 0, 64, 0, 0, none, 1, [⟨0, 1, []⟩], 0, 0, false, .plain, some (Verdict.start []), true⟩ : RxFrame))] }).dev.runs
    = true) ∧ ((start fun d =>
    { d with rx := [(0, some (⟨0, List.replicate 60 0, 64, 0, 0, none, 1, [⟨0, 1, []⟩], 0, 0, false, .plain, some (Verdict.start []), true⟩ : RxFrame))] }).dev.passed.findIdx?
    (fun y => y.waiting && y.inPort = (0 : Fin 40).val) = none) ∧ ((start fun d =>
    { d with rx := [(0, some (⟨0, List.replicate 60 0, 64, 0, 0, none, 1, [⟨0, 1, []⟩], 0, 0, false, .plain, some (Verdict.start []), true⟩ : RxFrame))] }).dev.endedOf
    (0 : Fin 40).val = []) ∧ ((start fun d =>
    { d with rx := [(0, some (⟨0, List.replicate 60 0, 64, 0, 0, none, 1, [⟨0, 1, []⟩], 0, 0, false, .plain, some (Verdict.start []), true⟩ : RxFrame))] }).dev.rxOf
    (0 : Fin 40).val = some (⟨0, List.replicate 60 0, 64, 0, 0, none, 1, [⟨0, 1, []⟩], 0, 0, false, .plain, some (Verdict.start []),
    true⟩ : RxFrame)) ∧ ((⟨0, List.replicate 60 0, 64, 0, 0, none, 1, [⟨0, 1, []⟩], 0, 0, false, .plain, some (Verdict.start []),
    true⟩ : RxFrame).waiting = true) ∧ ((⟨0, List.replicate 60 0, 64, 0, 0, none, 1, [⟨0, 1, []⟩], 0, 0, false, .plain, some
    (Verdict.start []), true⟩ : RxFrame).verdict.isSome = true) := by decide
theorem witness_FramesEnterAndEnd_9 : ((start fun d =>
    { d with passed := [(⟨0, List.replicate 60 0, 64, 0, 0, none, 1, [⟨0, 1, []⟩], 0, 0, false, .plain, some (Verdict.start []), false⟩ : RxFrame)] }).dev.runs
    = true) ∧ (nextPassed [] (start fun d =>
    { d with passed := [(⟨0, List.replicate 60 0, 64, 0, 0, none, 1, [⟨0, 1, []⟩], 0, 0, false, .plain, some (Verdict.start []), false⟩ : RxFrame)] }).dev.passed
    = some 0) ∧ ((start fun d =>
    { d with passed := [(⟨0, List.replicate 60 0, 64, 0, 0, none, 1, [⟨0, 1, []⟩], 0, 0, false, .plain, some (Verdict.start []), false⟩ : RxFrame)] }).dev.passed[0]?
    = some (⟨0, List.replicate 60 0, 64, 0, 0, none, 1, [⟨0, 1, []⟩], 0, 0, false, .plain, some (Verdict.start []), false⟩ :
    RxFrame)) ∧ ((⟨0, List.replicate 60 0, 64, 0, 0, none, 1, [⟨0, 1, []⟩], 0, 0, false, .plain, some (Verdict.start []), false⟩ :
    RxFrame).verdict = some (Verdict.start [])) := by decide
theorem witness_FramesEnterAndEnd_10 : ((start fun d =>
    { d with passed := [(⟨0, List.replicate 60 0, 64, 0, 0, none, 1, [⟨0, 1, []⟩], 0, 0, false, .plain, some { (Verdict.start []) with bitmap := 8 }, false⟩ : RxFrame)] }).dev.runs
    = true) ∧ (nextPassed [] (start fun d =>
    { d with passed := [(⟨0, List.replicate 60 0, 64, 0, 0, none, 1, [⟨0, 1, []⟩], 0, 0, false, .plain, some { (Verdict.start []) with bitmap := 8 }, false⟩ : RxFrame)] }).dev.passed
    = some 0) ∧ ((start fun d =>
    { d with passed := [(⟨0, List.replicate 60 0, 64, 0, 0, none, 1, [⟨0, 1, []⟩], 0, 0, false, .plain, some { (Verdict.start []) with bitmap := 8 }, false⟩ : RxFrame)] }).dev.passed[0]?
    = some (⟨0, List.replicate 60 0, 64, 0, 0, none, 1, [⟨0, 1, []⟩], 0, 0, false, .plain, some
    { (Verdict.start []) with bitmap := 8 }, false⟩ : RxFrame)) ∧ ((⟨0, List.replicate 60 0, 64, 0, 0, none, 1, [⟨0, 1, []⟩], 0, 0,
    false, .plain, some { (Verdict.start []) with bitmap := 8 }, false⟩ : RxFrame).verdict = some
    { (Verdict.start []) with bitmap := 8 }) ∧ ((⟨0, List.replicate 60 0, 64, 0, 0, none, 1, [⟨0, 1, []⟩], 0, 0, false, .plain, some
    { (Verdict.start []) with bitmap := 8 }, false⟩ : RxFrame).sec = .plain) ∧ ({ (Verdict.start []) with bitmap := 8 }.bitmap = 2 ^
    (3 : Fin 36).val) ∧ ({ (Verdict.start []) with bitmap := 8 }.tc < 8) ∧ ({ (Verdict.start []) with bitmap := 8 }.mirror = none) ∧
    ({ (Verdict.start []) with bitmap := 8 }.divert = none) ∧ ({ (Verdict.start []) with bitmap := 8 }.colour < 3) ∧ ((start fun d
    =>
    { d with passed := [(⟨0, List.replicate 60 0, 64, 0, 0, none, 1, [⟨0, 1, []⟩], 0, 0, false, .plain, some { (Verdict.start []) with bitmap := 8 }, false⟩ : RxFrame)] }).dev.rb
    (trunkReg 0x30) 31 = false) ∧ ((start fun d =>
    { d with passed := [(⟨0, List.replicate 60 0, 64, 0, 0, none, 1, [⟨0, 1, []⟩], 0, 0, false, .plain, some { (Verdict.start []) with bitmap := 8 }, false⟩ : RxFrame)] }).dev.rf
    (queueReg (queueOf (3 : Fin 36).val { (Verdict.start []) with bitmap := 8 }.tc) 0xC) 15 0 < (start fun d =>
    { d with passed := [(⟨0, List.replicate 60 0, 64, 0, 0, none, 1, [⟨0, 1, []⟩], 0, 0, false, .plain, some { (Verdict.start []) with bitmap := 8 }, false⟩ : RxFrame)] }).dev.rf
    (queueReg (queueOf (3 : Fin 36).val { (Verdict.start []) with bitmap := 8 }.tc) 4) 30 16) ∧ ((start fun d =>
    { d with passed := [(⟨0, List.replicate 60 0, 64, 0, 0, none, 1, [⟨0, 1, []⟩], 0, 0, false, .plain, some { (Verdict.start []) with bitmap := 8 }, false⟩ : RxFrame)] }).dev.rf
    (queueReg (queueOf (3 : Fin 36).val { (Verdict.start []) with bitmap := 8 }.tc) 8) 22 0 + cellsOf (⟨0, List.replicate 60 0, 64,
    0, 0, none, 1, [⟨0, 1, []⟩], 0, 0, false, .plain, some { (Verdict.start []) with bitmap := 8 }, false⟩ : RxFrame).len ≤ (start
    fun d =>
    { d with passed := [(⟨0, List.replicate 60 0, 64, 0, 0, none, 1, [⟨0, 1, []⟩], 0, 0, false, .plain, some { (Verdict.start []) with bitmap := 8 }, false⟩ : RxFrame)] }).dev.rf
    (queueReg (queueOf (3 : Fin 36).val { (Verdict.start []) with bitmap := 8 }.tc) 4) 15 0 * 64) ∧ ((start fun d =>
    { d with passed := [(⟨0, List.replicate 60 0, 64, 0, 0, none, 1, [⟨0, 1, []⟩], 0, 0, false, .plain, some { (Verdict.start []) with bitmap := 8 }, false⟩ : RxFrame)] }).dev.rf
    (trunkReg (0x2000 + 0x10 * (start fun d =>
    { d with passed := [(⟨0, List.replicate 60 0, 64, 0, 0, none, 1, [⟨0, 1, []⟩], 0, 0, false, .plain, some { (Verdict.start []) with bitmap := 8 }, false⟩ : RxFrame)] }).dev.rf
    (queueReg (queueOf (3 : Fin 36).val { (Verdict.start []) with bitmap := 8 }.tc) 0) 27 24 + 4 *
    { (Verdict.start []) with bitmap := 8 }.colour)) 15 0 = 0xFFFF) ∧ ((start fun d =>
    { d with passed := [(⟨0, List.replicate 60 0, 64, 0, 0, none, 1, [⟨0, 1, []⟩], 0, 0, false, .plain, some { (Verdict.start []) with bitmap := 8 }, false⟩ : RxFrame)] }).dev.rf
    (trunkReg 4) 17 0 ≠ 0) ∧ (((start fun d =>
    { d with passed := [(⟨0, List.replicate 60 0, 64, 0, 0, none, 1, [⟨0, 1, []⟩], 0, 0, false, .plain, some { (Verdict.start []) with bitmap := 8 }, false⟩ : RxFrame)] }).dev.tq
    (queueOf (3 : Fin 36).val { (Verdict.start []) with bitmap := 8 }.tc)).descs.all (fun x => x.loc = .chip) = true) := by decide
theorem witness_CrownSends_1 : ((start fun d => (rset (portReg 0 4) 0x12 (rset (portReg 0 0) 0x80010640
    ({ d with trunk := { d.trunk with frames := [(1, some (⟨1, List.replicate 64 0, 64, 0, none, 0, none, none, 1, true, 0, 0, none, 1, 1, [⟨0, 1, []⟩], false⟩ : Stored))], queues := [(0, ⟨[⟨0, 1, 0, .chip, false, 0⟩], none⟩)] } })))).dev.runs
    = true) ∧ (portPresent (start fun d => (rset (portReg 0 4) 0x12 (rset (portReg 0 0) 0x80010640
    ({ d with trunk := { d.trunk with frames := [(1, some (⟨1, List.replicate 64 0, 64, 0, none, 0, none, none, 1, true, 0, 0, none, 1, 1, [⟨0, 1, []⟩], false⟩ : Stored))], queues := [(0, ⟨[⟨0, 1, 0, .chip, false, 0⟩], none⟩)] } })))).dev.variant
    (0 : Fin 38).val = true) ∧ ((start fun d => (rset (portReg 0 4) 0x12 (rset (portReg 0 0) 0x80010640
    ({ d with trunk := { d.trunk with frames := [(1, some (⟨1, List.replicate 64 0, 64, 0, none, 0, none, none, 1, true, 0, 0, none, 1, 1, [⟨0, 1, []⟩], false⟩ : Stored))], queues := [(0, ⟨[⟨0, 1, 0, .chip, false, 0⟩], none⟩)] } })))).dev.crown.tx.get
    none (0 : Fin 38).val = none) ∧ ((0 : Fin 38).val < 36) ∧ ((start fun d => (rset (portReg 0 4) 0x12 (rset (portReg 0 0)
    0x80010640
    ({ d with trunk := { d.trunk with frames := [(1, some (⟨1, List.replicate 64 0, 64, 0, none, 0, none, none, 1, true, 0, 0, none, 1, 1, [⟨0, 1, []⟩], false⟩ : Stored))], queues := [(0, ⟨[⟨0, 1, 0, .chip, false, 0⟩], none⟩)] } })))).dev.txQuiet
    (0 : Fin 38).val = false) ∧ (((start fun d => (rset (portReg 0 4) 0x12 (rset (portReg 0 0) 0x80010640
    ({ d with trunk := { d.trunk with frames := [(1, some (⟨1, List.replicate 64 0, 64, 0, none, 0, none, none, 1, true, 0, 0, none, 1, 1, [⟨0, 1, []⟩], false⟩ : Stored))], queues := [(0, ⟨[⟨0, 1, 0, .chip, false, 0⟩], none⟩)] } })))).dev.heads
    (0 : Fin 38).val).find? ((start fun d => (rset (portReg 0 4) 0x12 (rset (portReg 0 0) 0x80010640
    ({ d with trunk := { d.trunk with frames := [(1, some (⟨1, List.replicate 64 0, 64, 0, none, 0, none, none, 1, true, 0, 0, none, 1, 1, [⟨0, 1, []⟩], false⟩ : Stored))], queues := [(0, ⟨[⟨0, 1, 0, .chip, false, 0⟩], none⟩)] } })))).dev.oversize
    (0 : Fin 38).val) = none) ∧ ((start fun d => (rset (portReg 0 4) 0x12 (rset (portReg 0 0) 0x80010640
    ({ d with trunk := { d.trunk with frames := [(1, some (⟨1, List.replicate 64 0, 64, 0, none, 0, none, none, 1, true, 0, 0, none, 1, 1, [⟨0, 1, []⟩], false⟩ : Stored))], queues := [(0, ⟨[⟨0, 1, 0, .chip, false, 0⟩], none⟩)] } })))).dev.nextHead
    (0 : Fin 38).val = some (((start fun d => (rset (portReg 0 4) 0x12 (rset (portReg 0 0) 0x80010640
    ({ d with trunk := { d.trunk with frames := [(1, some (⟨1, List.replicate 64 0, 64, 0, none, 0, none, none, 1, true, 0, 0, none, 1, 1, [⟨0, 1, []⟩], false⟩ : Stored))], queues := [(0, ⟨[⟨0, 1, 0, .chip, false, 0⟩], none⟩)] } })))).dev.heads
    0).headD ⟨0, 0, ⟨0, 0, 0, .chip, false, 0⟩, (⟨1, List.replicate 64 0, 64, 0, none, 0, none, none, 1, true, 0, 0, none, 1, 1,
    [⟨0, 1, []⟩], false⟩ : Stored), [], 0⟩)) ∧ (((start fun d => (rset (portReg 0 4) 0x12 (rset (portReg 0 0) 0x80010640
    ({ d with trunk := { d.trunk with frames := [(1, some (⟨1, List.replicate 64 0, 64, 0, none, 0, none, none, 1, true, 0, 0, none, 1, 1, [⟨0, 1, []⟩], false⟩ : Stored))], queues := [(0, ⟨[⟨0, 1, 0, .chip, false, 0⟩], none⟩)] } })))).dev.dropChecked
    (0 : Fin 38).val (((start fun d => (rset (portReg 0 4) 0x12 (rset (portReg 0 0) 0x80010640
    ({ d with trunk := { d.trunk with frames := [(1, some (⟨1, List.replicate 64 0, 64, 0, none, 0, none, none, 1, true, 0, 0, none, 1, 1, [⟨0, 1, []⟩], false⟩ : Stored))], queues := [(0, ⟨[⟨0, 1, 0, .chip, false, 0⟩], none⟩)] } })))).dev.heads
    0).headD ⟨0, 0, ⟨0, 0, 0, .chip, false, 0⟩, (⟨1, List.replicate 64 0, 64, 0, none, 0, none, none, 1, true, 0, 0, none, 1, 1,
    [⟨0, 1, []⟩], false⟩ : Stored), [], 0⟩)).isNone = true) ∧ ((start fun d => (rset (portReg 0 4) 0x12 (rset (portReg 0 0)
    0x80010640
    ({ d with trunk := { d.trunk with frames := [(1, some (⟨1, List.replicate 64 0, 64, 0, none, 0, none, none, 1, true, 0, 0, none, 1, 1, [⟨0, 1, []⟩], false⟩ : Stored))], queues := [(0, ⟨[⟨0, 1, 0, .chip, false, 0⟩], none⟩)] } })))).dev.rb
    (macsecReg (0 : Fin 38).val 0) 31 = false) := by decide
theorem witness_CrownSends_2 : ((start fun d => (rset (crownReg 36 0x60) 0 (bset (hostReg 0 0x300) 0x80000000
    { ((ring 2 d).onBasjo (fun b => b.setRing 0 0 { RingRun.idle with posted := [⟨0, 2048⟩] })) with trunk := { d.trunk with frames := [(1, some (⟨1, List.replicate 64 0, 64, 0, none, 0, none, none, 1, true, 0, 0, none, 1, 1, [⟨0, 1, []⟩], false⟩ : Stored))], queues := [(288, ⟨[⟨0, 1, 0, .chip, false, 0⟩], none⟩)] } }))).dev.runs
    = true) ∧ (portPresent (start fun d => (rset (crownReg 36 0x60) 0 (bset (hostReg 0 0x300) 0x80000000
    { ((ring 2 d).onBasjo (fun b => b.setRing 0 0 { RingRun.idle with posted := [⟨0, 2048⟩] })) with trunk := { d.trunk with frames := [(1, some (⟨1, List.replicate 64 0, 64, 0, none, 0, none, none, 1, true, 0, 0, none, 1, 1, [⟨0, 1, []⟩], false⟩ : Stored))], queues := [(288, ⟨[⟨0, 1, 0, .chip, false, 0⟩], none⟩)] } }))).dev.variant
    (36 : Fin 38).val = true) ∧ ((start fun d => (rset (crownReg 36 0x60) 0 (bset (hostReg 0 0x300) 0x80000000
    { ((ring 2 d).onBasjo (fun b => b.setRing 0 0 { RingRun.idle with posted := [⟨0, 2048⟩] })) with trunk := { d.trunk with frames := [(1, some (⟨1, List.replicate 64 0, 64, 0, none, 0, none, none, 1, true, 0, 0, none, 1, 1, [⟨0, 1, []⟩], false⟩ : Stored))], queues := [(288, ⟨[⟨0, 1, 0, .chip, false, 0⟩], none⟩)] } }))).dev.crown.tx.get
    none (36 : Fin 38).val = none) ∧ (36 ≤ (36 : Fin 38).val) ∧ ((((start fun d => (rset (crownReg 36 0x60) 0 (bset (hostReg 0
    0x300) 0x80000000
    { ((ring 2 d).onBasjo (fun b => b.setRing 0 0 { RingRun.idle with posted := [⟨0, 2048⟩] })) with trunk := { d.trunk with frames := [(1, some (⟨1, List.replicate 64 0, 64, 0, none, 0, none, none, 1, true, 0, 0, none, 1, 1, [⟨0, 1, []⟩], false⟩ : Stored))], queues := [(288, ⟨[⟨0, 1, 0, .chip, false, 0⟩], none⟩)] } }))).dev.heads
    36).headD ⟨288, 0, ⟨0, 0, 0, .chip, false, 0⟩, (⟨1, List.replicate 64 0, 64, 0, none, 0, none, none, 1, true, 0, 0, none, 1, 1,
    [⟨0, 1, []⟩], false⟩ : Stored), [], 0⟩).f.spoiled = false) ∧ ((((start fun d => (rset (crownReg 36 0x60) 0 (bset (hostReg 0
    0x300) 0x80000000
    { ((ring 2 d).onBasjo (fun b => b.setRing 0 0 { RingRun.idle with posted := [⟨0, 2048⟩] })) with trunk := { d.trunk with frames := [(1, some (⟨1, List.replicate 64 0, 64, 0, none, 0, none, none, 1, true, 0, 0, none, 1, 1, [⟨0, 1, []⟩], false⟩ : Stored))], queues := [(288, ⟨[⟨0, 1, 0, .chip, false, 0⟩], none⟩)] } }))).dev.heads
    (36 : Fin 38).val).all (fun x => match (start fun d => (rset (crownReg 36 0x60) 0 (bset (hostReg 0 0x300) 0x80000000
    { ((ring 2 d).onBasjo (fun b => b.setRing 0 0 { RingRun.idle with posted := [⟨0, 2048⟩] })) with trunk := { d.trunk with frames := [(1, some (⟨1, List.replicate 64 0, 64, 0, none, 0, none, none, 1, true, 0, 0, none, 1, 1, [⟨0, 1, []⟩], false⟩ : Stored))], queues := [(288, ⟨[⟨0, 1, 0, .chip, false, 0⟩], none⟩)] } }))).dev.ringFill
    ((36 : Fin 38).val - 36) x with | some (_, .bad) => false | _ => true)) = true) ∧ (((start fun d => (rset (crownReg 36 0x60) 0
    (bset (hostReg 0 0x300) 0x80000000
    { ((ring 2 d).onBasjo (fun b => b.setRing 0 0 { RingRun.idle with posted := [⟨0, 2048⟩] })) with trunk := { d.trunk with frames := [(1, some (⟨1, List.replicate 64 0, 64, 0, none, 0, none, none, 1, true, 0, 0, none, 1, 1, [⟨0, 1, []⟩], false⟩ : Stored))], queues := [(288, ⟨[⟨0, 1, 0, .chip, false, 0⟩], none⟩)] } }))).dev.heads
    (36 : Fin 38).val).find? ((start fun d => (rset (crownReg 36 0x60) 0 (bset (hostReg 0 0x300) 0x80000000
    { ((ring 2 d).onBasjo (fun b => b.setRing 0 0 { RingRun.idle with posted := [⟨0, 2048⟩] })) with trunk := { d.trunk with frames := [(1, some (⟨1, List.replicate 64 0, 64, 0, none, 0, none, none, 1, true, 0, 0, none, 1, 1, [⟨0, 1, []⟩], false⟩ : Stored))], queues := [(288, ⟨[⟨0, 1, 0, .chip, false, 0⟩], none⟩)] } }))).dev.oversize
    (36 : Fin 38).val) = none) ∧ ((start fun d => (rset (crownReg 36 0x60) 0 (bset (hostReg 0 0x300) 0x80000000
    { ((ring 2 d).onBasjo (fun b => b.setRing 0 0 { RingRun.idle with posted := [⟨0, 2048⟩] })) with trunk := { d.trunk with frames := [(1, some (⟨1, List.replicate 64 0, 64, 0, none, 0, none, none, 1, true, 0, 0, none, 1, 1, [⟨0, 1, []⟩], false⟩ : Stored))], queues := [(288, ⟨[⟨0, 1, 0, .chip, false, 0⟩], none⟩)] } }))).dev.nextHead
    (36 : Fin 38).val = some (((start fun d => (rset (crownReg 36 0x60) 0 (bset (hostReg 0 0x300) 0x80000000
    { ((ring 2 d).onBasjo (fun b => b.setRing 0 0 { RingRun.idle with posted := [⟨0, 2048⟩] })) with trunk := { d.trunk with frames := [(1, some (⟨1, List.replicate 64 0, 64, 0, none, 0, none, none, 1, true, 0, 0, none, 1, 1, [⟨0, 1, []⟩], false⟩ : Stored))], queues := [(288, ⟨[⟨0, 1, 0, .chip, false, 0⟩], none⟩)] } }))).dev.heads
    36).headD ⟨288, 0, ⟨0, 0, 0, .chip, false, 0⟩, (⟨1, List.replicate 64 0, 64, 0, none, 0, none, none, 1, true, 0, 0, none, 1, 1,
    [⟨0, 1, []⟩], false⟩ : Stored), [], 0⟩)) ∧ (((start fun d => (rset (crownReg 36 0x60) 0 (bset (hostReg 0 0x300) 0x80000000
    { ((ring 2 d).onBasjo (fun b => b.setRing 0 0 { RingRun.idle with posted := [⟨0, 2048⟩] })) with trunk := { d.trunk with frames := [(1, some (⟨1, List.replicate 64 0, 64, 0, none, 0, none, none, 1, true, 0, 0, none, 1, 1, [⟨0, 1, []⟩], false⟩ : Stored))], queues := [(288, ⟨[⟨0, 1, 0, .chip, false, 0⟩], none⟩)] } }))).dev.dropChecked
    (36 : Fin 38).val (((start fun d => (rset (crownReg 36 0x60) 0 (bset (hostReg 0 0x300) 0x80000000
    { ((ring 2 d).onBasjo (fun b => b.setRing 0 0 { RingRun.idle with posted := [⟨0, 2048⟩] })) with trunk := { d.trunk with frames := [(1, some (⟨1, List.replicate 64 0, 64, 0, none, 0, none, none, 1, true, 0, 0, none, 1, 1, [⟨0, 1, []⟩], false⟩ : Stored))], queues := [(288, ⟨[⟨0, 1, 0, .chip, false, 0⟩], none⟩)] } }))).dev.heads
    36).headD ⟨288, 0, ⟨0, 0, 0, .chip, false, 0⟩, (⟨1, List.replicate 64 0, 64, 0, none, 0, none, none, 1, true, 0, 0, none, 1, 1,
    [⟨0, 1, []⟩], false⟩ : Stored), [], 0⟩)).isNone = true) := by decide
theorem witness_CrownSends_3 : ((start fun d => (rset (portReg 0 4) 0x12 (rset (portReg 0 0) 0x80010640
    ({ d with trunk := { d.trunk with frames := [(1, some (⟨1, List.replicate 64 0, 64, 0, none, 0, none, none, 1, true, 0, 0, none, 1, 1, [⟨0, 1, []⟩], false⟩ : Stored))], queues := [(0, ⟨[⟨0, 1, 0, .chip, false, 0⟩], none⟩)] } })))).dev.runs
    = true) ∧ (portPresent (start fun d => (rset (portReg 0 4) 0x12 (rset (portReg 0 0) 0x80010640
    ({ d with trunk := { d.trunk with frames := [(1, some (⟨1, List.replicate 64 0, 64, 0, none, 0, none, none, 1, true, 0, 0, none, 1, 1, [⟨0, 1, []⟩], false⟩ : Stored))], queues := [(0, ⟨[⟨0, 1, 0, .chip, false, 0⟩], none⟩)] } })))).dev.variant
    (0 : Fin 38).val = true) ∧ ((start fun d => (rset (portReg 0 4) 0x12 (rset (portReg 0 0) 0x80010640
    ({ d with trunk := { d.trunk with frames := [(1, some (⟨1, List.replicate 64 0, 64, 0, none, 0, none, none, 1, true, 0, 0, none, 1, 1, [⟨0, 1, []⟩], false⟩ : Stored))], queues := [(0, ⟨[⟨0, 1, 0, .chip, false, 0⟩], none⟩)] } })))).dev.crown.tx.get
    none (0 : Fin 38).val = none) ∧ ((0 : Fin 38).val < 36) ∧ ((start fun d => (rset (portReg 0 4) 0x12 (rset (portReg 0 0)
    0x80010640
    ({ d with trunk := { d.trunk with frames := [(1, some (⟨1, List.replicate 64 0, 64, 0, none, 0, none, none, 1, true, 0, 0, none, 1, 1, [⟨0, 1, []⟩], false⟩ : Stored))], queues := [(0, ⟨[⟨0, 1, 0, .chip, false, 0⟩], none⟩)] } })))).dev.txQuiet
    (0 : Fin 38).val = false) ∧ (((start fun d => (rset (portReg 0 4) 0x12 (rset (portReg 0 0) 0x80010640
    ({ d with trunk := { d.trunk with frames := [(1, some (⟨1, List.replicate 64 0, 64, 0, none, 0, none, none, 1, true, 0, 0, none, 1, 1, [⟨0, 1, []⟩], false⟩ : Stored))], queues := [(0, ⟨[⟨0, 1, 0, .chip, false, 0⟩], none⟩)] } })))).dev.heads
    (0 : Fin 38).val).find? ((start fun d => (rset (portReg 0 4) 0x12 (rset (portReg 0 0) 0x80010640
    ({ d with trunk := { d.trunk with frames := [(1, some (⟨1, List.replicate 64 0, 64, 0, none, 0, none, none, 1, true, 0, 0, none, 1, 1, [⟨0, 1, []⟩], false⟩ : Stored))], queues := [(0, ⟨[⟨0, 1, 0, .chip, false, 0⟩], none⟩)] } })))).dev.oversize
    (0 : Fin 38).val) = none) ∧ ((start fun d => (rset (portReg 0 4) 0x12 (rset (portReg 0 0) 0x80010640
    ({ d with trunk := { d.trunk with frames := [(1, some (⟨1, List.replicate 64 0, 64, 0, none, 0, none, none, 1, true, 0, 0, none, 1, 1, [⟨0, 1, []⟩], false⟩ : Stored))], queues := [(0, ⟨[⟨0, 1, 0, .chip, false, 0⟩], none⟩)] } })))).dev.nextHead
    (0 : Fin 38).val = some (((start fun d => (rset (portReg 0 4) 0x12 (rset (portReg 0 0) 0x80010640
    ({ d with trunk := { d.trunk with frames := [(1, some (⟨1, List.replicate 64 0, 64, 0, none, 0, none, none, 1, true, 0, 0, none, 1, 1, [⟨0, 1, []⟩], false⟩ : Stored))], queues := [(0, ⟨[⟨0, 1, 0, .chip, false, 0⟩], none⟩)] } })))).dev.heads
    0).headD ⟨0, 0, ⟨0, 0, 0, .chip, false, 0⟩, (⟨1, List.replicate 64 0, 64, 0, none, 0, none, none, 1, true, 0, 0, none, 1, 1,
    [⟨0, 1, []⟩], false⟩ : Stored), [], 0⟩)) ∧ (((start fun d => (rset (portReg 0 4) 0x12 (rset (portReg 0 0) 0x80010640
    ({ d with trunk := { d.trunk with frames := [(1, some (⟨1, List.replicate 64 0, 64, 0, none, 0, none, none, 1, true, 0, 0, none, 1, 1, [⟨0, 1, []⟩], false⟩ : Stored))], queues := [(0, ⟨[⟨0, 1, 0, .chip, false, 0⟩], none⟩)] } })))).dev.dropChecked
    (0 : Fin 38).val (((start fun d => (rset (portReg 0 4) 0x12 (rset (portReg 0 0) 0x80010640
    ({ d with trunk := { d.trunk with frames := [(1, some (⟨1, List.replicate 64 0, 64, 0, none, 0, none, none, 1, true, 0, 0, none, 1, 1, [⟨0, 1, []⟩], false⟩ : Stored))], queues := [(0, ⟨[⟨0, 1, 0, .chip, false, 0⟩], none⟩)] } })))).dev.heads
    0).headD ⟨0, 0, ⟨0, 0, 0, .chip, false, 0⟩, (⟨1, List.replicate 64 0, 64, 0, none, 0, none, none, 1, true, 0, 0, none, 1, 1,
    [⟨0, 1, []⟩], false⟩ : Stored), [], 0⟩)).isNone = true) ∧ ((start fun d => (rset (portReg 0 4) 0x12 (rset (portReg 0 0)
    0x80010640
    ({ d with trunk := { d.trunk with frames := [(1, some (⟨1, List.replicate 64 0, 64, 0, none, 0, none, none, 1, true, 0, 0, none, 1, 1, [⟨0, 1, []⟩], false⟩ : Stored))], queues := [(0, ⟨[⟨0, 1, 0, .chip, false, 0⟩], none⟩)] } })))).dev.rb
    (macsecReg (0 : Fin 38).val 0) 31 = false) ∧ ((start fun d => (rset (portReg 0 4) 0x12 (rset (portReg 0 0) 0x80010640
    ({ d with trunk := { d.trunk with frames := [(1, some (⟨1, List.replicate 64 0, 64, 0, none, 0, none, none, 1, true, 0, 0, none, 1, 1, [⟨0, 1, []⟩], false⟩ : Stored))], queues := [(0, ⟨[⟨0, 1, 0, .chip, false, 0⟩], none⟩)] } })))).dev.bankHolds
    (0 : Fin 18).val = true) := by decide
theorem witness_CrownSends_4 : ((start fun d => rset (portReg 0 0) 0x10640
    { d with trunk := { d.trunk with frames := [(1, some (⟨1, List.replicate 64 0, 64, 0, none, 0, none, none, 1, true, 0, 0, none, 1, 1, [⟨0, 1, []⟩], false⟩ : Stored))], queues := [(0, ⟨[⟨0, 1, 0, .chip, false, 0⟩], none⟩)] } }).dev.runs
    = true) ∧ ((0 : Fin 38).val < 36) ∧ (portPresent (start fun d => rset (portReg 0 0) 0x10640
    { d with trunk := { d.trunk with frames := [(1, some (⟨1, List.replicate 64 0, 64, 0, none, 0, none, none, 1, true, 0, 0, none, 1, 1, [⟨0, 1, []⟩], false⟩ : Stored))], queues := [(0, ⟨[⟨0, 1, 0, .chip, false, 0⟩], none⟩)] } }).dev.variant
    (0 : Fin 38).val = true) ∧ ((start fun d => rset (portReg 0 0) 0x10640
    { d with trunk := { d.trunk with frames := [(1, some (⟨1, List.replicate 64 0, 64, 0, none, 0, none, none, 1, true, 0, 0, none, 1, 1, [⟨0, 1, []⟩], false⟩ : Stored))], queues := [(0, ⟨[⟨0, 1, 0, .chip, false, 0⟩], none⟩)] } }).dev.txQuiet
    (0 : Fin 38).val = false) ∧ ((start fun d => rset (portReg 0 0) 0x10640
    { d with trunk := { d.trunk with frames := [(1, some (⟨1, List.replicate 64 0, 64, 0, none, 0, none, none, 1, true, 0, 0, none, 1, 1, [⟨0, 1, []⟩], false⟩ : Stored))], queues := [(0, ⟨[⟨0, 1, 0, .chip, false, 0⟩], none⟩)] } }).dev.crown.tx.get
    none (0 : Fin 38).val = none) ∧ ((start fun d => rset (portReg 0 0) 0x10640
    { d with trunk := { d.trunk with frames := [(1, some (⟨1, List.replicate 64 0, 64, 0, none, 0, none, none, 1, true, 0, 0, none, 1, 1, [⟨0, 1, []⟩], false⟩ : Stored))], queues := [(0, ⟨[⟨0, 1, 0, .chip, false, 0⟩], none⟩)] } }).dev.crown.paused.get
    none (0 : Fin 38).val = none) ∧ ((start fun d => rset (portReg 0 0) 0x10640
    { d with trunk := { d.trunk with frames := [(1, some (⟨1, List.replicate 64 0, 64, 0, none, 0, none, none, 1, true, 0, 0, none, 1, 1, [⟨0, 1, []⟩], false⟩ : Stored))], queues := [(0, ⟨[⟨0, 1, 0, .chip, false, 0⟩], none⟩)] } }).dev.heads
    (0 : Fin 38).val = [(((start fun d => rset (portReg 0 0) 0x10640
    { d with trunk := { d.trunk with frames := [(1, some (⟨1, List.replicate 64 0, 64, 0, none, 0, none, none, 1, true, 0, 0, none, 1, 1, [⟨0, 1, []⟩], false⟩ : Stored))], queues := [(0, ⟨[⟨0, 1, 0, .chip, false, 0⟩], none⟩)] } }).dev.heads
    0).headD ⟨0, 0, ⟨0, 0, 0, .chip, false, 0⟩, (⟨1, List.replicate 64 0, 64, 0, none, 0, none, none, 1, true, 0, 0, none, 1, 1,
    [⟨0, 1, []⟩], false⟩ : Stored), [], 0⟩)]) ∧ ((start fun d => rset (portReg 0 0) 0x10640
    { d with trunk := { d.trunk with frames := [(1, some (⟨1, List.replicate 64 0, 64, 0, none, 0, none, none, 1, true, 0, 0, none, 1, 1, [⟨0, 1, []⟩], false⟩ : Stored))], queues := [(0, ⟨[⟨0, 1, 0, .chip, false, 0⟩], none⟩)] } }).dev.oversize
    (0 : Fin 38).val (((start fun d => rset (portReg 0 0) 0x10640
    { d with trunk := { d.trunk with frames := [(1, some (⟨1, List.replicate 64 0, 64, 0, none, 0, none, none, 1, true, 0, 0, none, 1, 1, [⟨0, 1, []⟩], false⟩ : Stored))], queues := [(0, ⟨[⟨0, 1, 0, .chip, false, 0⟩], none⟩)] } }).dev.heads
    0).headD ⟨0, 0, ⟨0, 0, 0, .chip, false, 0⟩, (⟨1, List.replicate 64 0, 64, 0, none, 0, none, none, 1, true, 0, 0, none, 1, 1,
    [⟨0, 1, []⟩], false⟩ : Stored), [], 0⟩) = false) ∧ ((start fun d => rset (portReg 0 0) 0x10640
    { d with trunk := { d.trunk with frames := [(1, some (⟨1, List.replicate 64 0, 64, 0, none, 0, none, none, 1, true, 0, 0, none, 1, 1, [⟨0, 1, []⟩], false⟩ : Stored))], queues := [(0, ⟨[⟨0, 1, 0, .chip, false, 0⟩], none⟩)] } }).dev.eligible
    (0 : Fin 38).val [(((start fun d => rset (portReg 0 0) 0x10640
    { d with trunk := { d.trunk with frames := [(1, some (⟨1, List.replicate 64 0, 64, 0, none, 0, none, none, 1, true, 0, 0, none, 1, 1, [⟨0, 1, []⟩], false⟩ : Stored))], queues := [(0, ⟨[⟨0, 1, 0, .chip, false, 0⟩], none⟩)] } }).dev.heads
    0).headD ⟨0, 0, ⟨0, 0, 0, .chip, false, 0⟩, (⟨1, List.replicate 64 0, 64, 0, none, 0, none, none, 1, true, 0, 0, none, 1, 1,
    [⟨0, 1, []⟩], false⟩ : Stored), [], 0⟩)] (((start fun d => rset (portReg 0 0) 0x10640
    { d with trunk := { d.trunk with frames := [(1, some (⟨1, List.replicate 64 0, 64, 0, none, 0, none, none, 1, true, 0, 0, none, 1, 1, [⟨0, 1, []⟩], false⟩ : Stored))], queues := [(0, ⟨[⟨0, 1, 0, .chip, false, 0⟩], none⟩)] } }).dev.heads
    0).headD ⟨0, 0, ⟨0, 0, 0, .chip, false, 0⟩, (⟨1, List.replicate 64 0, 64, 0, none, 0, none, none, 1, true, 0, 0, none, 1, 1,
    [⟨0, 1, []⟩], false⟩ : Stored), [], 0⟩) = true) ∧ ((start fun d => rset (portReg 0 0) 0x10640
    { d with trunk := { d.trunk with frames := [(1, some (⟨1, List.replicate 64 0, 64, 0, none, 0, none, none, 1, true, 0, 0, none, 1, 1, [⟨0, 1, []⟩], false⟩ : Stored))], queues := [(0, ⟨[⟨0, 1, 0, .chip, false, 0⟩], none⟩)] } }).dev.mayStart
    (0 : Fin 38).val (((start fun d => rset (portReg 0 0) 0x10640
    { d with trunk := { d.trunk with frames := [(1, some (⟨1, List.replicate 64 0, 64, 0, none, 0, none, none, 1, true, 0, 0, none, 1, 1, [⟨0, 1, []⟩], false⟩ : Stored))], queues := [(0, ⟨[⟨0, 1, 0, .chip, false, 0⟩], none⟩)] } }).dev.heads
    0).headD ⟨0, 0, ⟨0, 0, 0, .chip, false, 0⟩, (⟨1, List.replicate 64 0, 64, 0, none, 0, none, none, 1, true, 0, 0, none, 1, 1,
    [⟨0, 1, []⟩], false⟩ : Stored), [], 0⟩) = true) ∧ (((start fun d => rset (portReg 0 0) 0x10640
    { d with trunk := { d.trunk with frames := [(1, some (⟨1, List.replicate 64 0, 64, 0, none, 0, none, none, 1, true, 0, 0, none, 1, 1, [⟨0, 1, []⟩], false⟩ : Stored))], queues := [(0, ⟨[⟨0, 1, 0, .chip, false, 0⟩], none⟩)] } }).dev.tq
    (((start fun d => rset (portReg 0 0) 0x10640
    { d with trunk := { d.trunk with frames := [(1, some (⟨1, List.replicate 64 0, 64, 0, none, 0, none, none, 1, true, 0, 0, none, 1, 1, [⟨0, 1, []⟩], false⟩ : Stored))], queues := [(0, ⟨[⟨0, 1, 0, .chip, false, 0⟩], none⟩)] } }).dev.heads
    0).headD ⟨0, 0, ⟨0, 0, 0, .chip, false, 0⟩, (⟨1, List.replicate 64 0, 64, 0, none, 0, none, none, 1, true, 0, 0, none, 1, 1,
    [⟨0, 1, []⟩], false⟩ : Stored), [], 0⟩).q).descs = [(((start fun d => rset (portReg 0 0) 0x10640
    { d with trunk := { d.trunk with frames := [(1, some (⟨1, List.replicate 64 0, 64, 0, none, 0, none, none, 1, true, 0, 0, none, 1, 1, [⟨0, 1, []⟩], false⟩ : Stored))], queues := [(0, ⟨[⟨0, 1, 0, .chip, false, 0⟩], none⟩)] } }).dev.heads
    0).headD ⟨0, 0, ⟨0, 0, 0, .chip, false, 0⟩, (⟨1, List.replicate 64 0, 64, 0, none, 0, none, none, 1, true, 0, 0, none, 1, 1,
    [⟨0, 1, []⟩], false⟩ : Stored), [], 0⟩).d]) ∧ ((start fun d => rset (portReg 0 0) 0x10640
    { d with trunk := { d.trunk with frames := [(1, some (⟨1, List.replicate 64 0, 64, 0, none, 0, none, none, 1, true, 0, 0, none, 1, 1, [⟨0, 1, []⟩], false⟩ : Stored))], queues := [(0, ⟨[⟨0, 1, 0, .chip, false, 0⟩], none⟩)] } }).dev.portUp
    (0 : Fin 38).val = false) ∧ ((start fun d => rset (portReg 0 0) 0x10640
    { d with trunk := { d.trunk with frames := [(1, some (⟨1, List.replicate 64 0, 64, 0, none, 0, none, none, 1, true, 0, 0, none, 1, 1, [⟨0, 1, []⟩], false⟩ : Stored))], queues := [(0, ⟨[⟨0, 1, 0, .chip, false, 0⟩], none⟩)] } }).dev.rb
    (macsecReg (0 : Fin 38).val 0) 31 = false) := by decide
theorem witness_CrownSends_5 : (State.reset.dev.runs = true) ∧ (State.reset.dev.heads (0 : Fin 38).val = []) ∧
    (State.reset.dev.crown.tx.get none (0 : Fin 38).val = none) ∧ (State.reset.dev.crown.paused.get none (0 : Fin 38).val = none) :=
    by decide
theorem witness_CrownSends_6 : ((start fun d => (rset (portReg 0 4) 0x12 (rset (portReg 0 0) 0x80010640
    ({ d with crown := { d.crown with tx := [(0, some (⟨0, 0, 1, 0, [1, 2], 64, false, false, false, 0, 0, 0⟩ : TxRun))] } })))).dev.runs
    = true) ∧ ((start fun d => (rset (portReg 0 4) 0x12 (rset (portReg 0 0) 0x80010640
    ({ d with crown := { d.crown with tx := [(0, some (⟨0, 0, 1, 0, [1, 2], 64, false, false, false, 0, 0, 0⟩ : TxRun))] } })))).dev.crown.tx.get
    none (0 : Fin 36).val = some (⟨0, 0, 1, 0, [1, 2], 64, false, false, false, 0, 0, 0⟩ : TxRun)) ∧ ((0 : Fin 36).val < 28) := by
    decide
theorem witness_CrownSends_7 : ((start fun d => (rset (portReg 28 4) 0x12 (rset (portReg 28 0) 0x80010640
    ({ d with crown := { d.crown with tx := [(28, some (⟨0, 0, 1, 0, [1, 2], 64, false, false, false, 0, 0, 0⟩ : TxRun))] } })))).dev.runs
    = true) ∧ ((start fun d => (rset (portReg 28 4) 0x12 (rset (portReg 28 0) 0x80010640
    ({ d with crown := { d.crown with tx := [(28, some (⟨0, 0, 1, 0, [1, 2], 64, false, false, false, 0, 0, 0⟩ : TxRun))] } })))).dev.crown.tx.get
    none (28 : Fin 36).val = some (⟨0, 0, 1, 0, [1, 2], 64, false, false, false, 0, 0, 0⟩ : TxRun)) ∧ (28 ≤ (28 : Fin 36).val) := by
    decide
theorem witness_CrownSends_8 : (State.reset.dev.runs = true) ∧ (State.reset.dev.crown.tx.get none (0 : Fin 36).val = none) ∧
    (State.reset.dev.tap.modeCmd = none) := by decide
theorem witness_CrownSends_9 : ((start fun d =>
    { d with trunk := { d.trunk with frames := [(1, some { (⟨1, List.replicate 64 0, 64, 0, none, 0, none, none, 1, true, 0, 0, none, 1, 1, [⟨0, 1, []⟩], false⟩ : Stored) with launch := some 5 })], queues := [(0, ⟨[⟨0, 1, 0, .chip, false, 0⟩], none⟩)] } }).dev.runs
    = true) ∧ (portPresent (start fun d =>
    { d with trunk := { d.trunk with frames := [(1, some { (⟨1, List.replicate 64 0, 64, 0, none, 0, none, none, 1, true, 0, 0, none, 1, 1, [⟨0, 1, []⟩], false⟩ : Stored) with launch := some 5 })], queues := [(0, ⟨[⟨0, 1, 0, .chip, false, 0⟩], none⟩)] } }).dev.variant
    (0 : Fin 36).val = true) ∧ ((start fun d =>
    { d with trunk := { d.trunk with frames := [(1, some { (⟨1, List.replicate 64 0, 64, 0, none, 0, none, none, 1, true, 0, 0, none, 1, 1, [⟨0, 1, []⟩], false⟩ : Stored) with launch := some 5 })], queues := [(0, ⟨[⟨0, 1, 0, .chip, false, 0⟩], none⟩)] } }).dev.head
    (queueOf (0 : Fin 36).val (0 : Fin 8).val) = some (⟨0, 1, 0, .chip, false, 0⟩ : Desc)) ∧ ((start fun d =>
    { d with trunk := { d.trunk with frames := [(1, some { (⟨1, List.replicate 64 0, 64, 0, none, 0, none, none, 1, true, 0, 0, none, 1, 1, [⟨0, 1, []⟩], false⟩ : Stored) with launch := some 5 })], queues := [(0, ⟨[⟨0, 1, 0, .chip, false, 0⟩], none⟩)] } }).dev.stored
    (⟨0, 1, 0, .chip, false, 0⟩ : Desc).frame = some
    { (⟨1, List.replicate 64 0, 64, 0, none, 0, none, none, 1, true, 0, 0, none, 1, 1, [⟨0, 1, []⟩], false⟩ : Stored) with launch := some 5 })
    ∧
    ({ (⟨1, List.replicate 64 0, 64, 0, none, 0, none, none, 1, true, 0, 0, none, 1, 1, [⟨0, 1, []⟩], false⟩ : Stored) with launch := some 5 }.launch.isSome
    = true) := by decide
theorem witness_CrownSends_10 : (State.reset.dev.runs = true) ∧ (State.reset.dev.head (queueOf (0 : Fin 36).val (0 : Fin 8).val) =
    none) := by decide
theorem witness_ShapersAndSamples_1 : (State.reset.opens cpu (crownQ (0 : Fin 38).val (2 : Fin 32).val (shaperOff ShaperReg.cir)) =
    true) ∧ (36 ≤ (0 : Fin 38).val ∨ (2 : Fin 32).val < 8) ∧ (ShaperReg.cir = .cir ∨ ShaperReg.cir = .pir) ∧ (fld (1000 : BitVec 32)
    21 0 ≤ 3125000) := by decide
theorem witness_ShapersAndSamples_2 : (State.reset.opens cpu (crownQ (0 : Fin 38).val (2 : Fin 32).val (shaperOff ShaperReg.cir)) =
    true) ∧ (36 ≤ (0 : Fin 38).val ∨ (2 : Fin 32).val < 8) ∧ (ShaperReg.cir = .cir ∨ ShaperReg.cir = .pir) ∧ (3125000 < fld (3125001
    : BitVec 32) 21 0) := by decide
theorem witness_ShapersAndSamples_3 : (State.reset.opens cpu (crownQ (37 : Fin 38).val (31 : Fin 32).val (shaperOff ShaperReg.pbs))
    = true) ∧ (36 ≤ (37 : Fin 38).val ∨ (31 : Fin 32).val < 8) ∧ (ShaperReg.pbs = .cbs ∨ ShaperReg.pbs = .pbs) ∧ (fld (1 : BitVec
    32) 23 0 ≠ 0) := by decide
theorem witness_ShapersAndSamples_4 : (State.reset.opens cpu (crownQ (0 : Fin 38).val (2 : Fin 32).val 0) = true) ∧ (36 ≤ (0 : Fin
    38).val ∨ (2 : Fin 32).val < 8) := by decide
theorem witness_ShapersAndSamples_5 : ((start fun d => atRaw (2 ^ 32) (rset (crownReg 0 0x50) 0x80000002 d)).dev.runs = true) ∧
    (portPresent (start fun d => atRaw (2 ^ 32) (rset (crownReg 0 0x50) 0x80000002 d)).dev.variant (0 : Fin 38).val = true) ∧
    ((start fun d => atRaw (2 ^ 32) (rset (crownReg 0 0x50) 0x80000002 d)).dev.rb (crownReg (0 : Fin 38).val 0x50) 31 = true) ∧
    ((start fun d => atRaw (2 ^ 32) (rset (crownReg 0 0x50) 0x80000002 d)).dev.crown.sampleAt.get 0 (0 : Fin 38).val / (start fun d
    => atRaw (2 ^ 32) (rset (crownReg 0 0x50) 0x80000002 d)).dev.samplePeriod (0 : Fin 38).val < (start fun d => atRaw (2 ^ 32)
    (rset (crownReg 0 0x50) 0x80000002 d)).dev.tick / (start fun d => atRaw (2 ^ 32) (rset (crownReg 0 0x50) 0x80000002
    d)).dev.samplePeriod (0 : Fin 38).val) := by decide
theorem witness_ShapersAndSamples_6 : (State.reset.dev.runs = true) ∧ (State.reset.dev.rb (crownReg (0 : Fin 38).val 0x50) 31 =
    false ∨ State.reset.dev.tick / State.reset.dev.samplePeriod (0 : Fin 38).val ≤ State.reset.dev.crown.sampleAt.get 0 (0 : Fin
    38).val / State.reset.dev.samplePeriod (0 : Fin 38).val) := by decide
theorem witness_ShapersAndSamples_7 : (State.reset.opens cpu (crownReg (0 : Fin 38).val 0x50) = true) ∧ (State.reset.dev.rb
    (crownReg (0 : Fin 38).val 0x50) 31 = false) := by decide
theorem witness_ShapersAndSamples_8 : ((start (ring 3)).starts (cmdOp 1 0x21 0 0x1000 0 0 0 0) 0x21 (0 : Fin 38).val 1 [all64, 0x1F,
    0, 0, 0] = true) ∧ ((cmdOp 1 0x21 0 0x1000 0 0 0 0).p8.toNat % 8 = 0) ∧ (36 ≤ (0 : Fin 38).val ∨ fld (cmdOp 1 0x21 0 0x1000 0 0
    0 0).p16 4 0 ≤ 7) := by decide
theorem witness_ShapersAndSamples_9 : ((start (ring 3)).starts (cmdOp 1 0x21 0 0x1004 0 0 0 0) 0x21 (0 : Fin 38).val 1 [all64, 0x1F,
    0, 0, 0] = true) ∧ ((cmdOp 1 0x21 0 0x1004 0 0 0 0).p8.toNat % 8 ≠ 0 ∨ ((0 : Fin 38).val < 36 ∧ 7 < fld (cmdOp 1 0x21 0 0x1004 0
    0 0 0).p16 4 0)) := by decide
theorem witness_RuleVersionsCommit_1 : ((start (ring 3)).starts (cmdOp 1 0x10 0xFF 0 0x200000005 0 0 0) 0x10 0xFF 1 [all64,
    0x1FFFFF000FFFFF, 0, 0, 0] = true) ∧ (fld (cmdOp 1 0x10 0xFF 0 0x200000005 0 0 0).p8 2 0 = 0) ∧ (fld (cmdOp 1 0x10 0xFF 0
    0x200000005 0 0 0).p16 52 32 ≠ 0) ∧ (fld (cmdOp 1 0x10 0xFF 0 0x200000005 0 0 0).p16 19 0 + fld (cmdOp 1 0x10 0xFF 0 0x200000005
    0 0 0).p16 52 32 ≤ 1048576) ∧ (meets (start (ring 3)).dev.protectedExtents (fld (cmdOp 1 0x10 0xFF 0 0x200000005 0 0 0).p16 19
    0) (fld (cmdOp 1 0x10 0xFF 0 0x200000005 0 0 0).p16 52 32) = false) ∧ ((⟨List.replicate 16 7, false⟩ : HostData).err = false) ∧
    ((⟨List.replicate 16 7, false⟩ : HostData).octets.length = 8 * fld (cmdOp 1 0x10 0xFF 0 0x200000005 0 0 0).p16 52 32) := by
    decide
theorem witness_RuleVersionsCommit_2 : ((start fun d => rset (verReg 0 8) 17 (rset (verReg 0 0) 1 (ring 3 d))).starts (cmdOp 1 0x10
    0xFF 0 0x200000005 0 0 0) 0x10 0xFF 1 [all64, 0x1FFFFF000FFFFF, 0, 0, 0] = true) ∧ (fld (cmdOp 1 0x10 0xFF 0 0x200000005 0 0
    0).p8 2 0 = 0) ∧ (fld (cmdOp 1 0x10 0xFF 0 0x200000005 0 0 0).p16 52 32 ≠ 0) ∧ (fld (cmdOp 1 0x10 0xFF 0 0x200000005 0 0 0).p16
    19 0 + fld (cmdOp 1 0x10 0xFF 0 0x200000005 0 0 0).p16 52 32 ≤ 1048576) ∧ (meets (start fun d => rset (verReg 0 8) 17 (rset
    (verReg 0 0) 1 (ring 3 d))).dev.protectedExtents (fld (cmdOp 1 0x10 0xFF 0 0x200000005 0 0 0).p16 19 0) (fld (cmdOp 1 0x10 0xFF
    0 0x200000005 0 0 0).p16 52 32) = true) := by decide
theorem witness_RuleVersionsCommit_3 : ((start fun d => wset (boughAddr 0) 0xF000000000000000 (ring 3 d)).starts (cmdOp 2 0x10 0xFF
    0 0x1100000000 5 7 0) 0x10 0xFF 2 [0xFFFFF, 0x1FFFFF000FFFFF, 0xFFFFFFFF, 0xFFFFFFFF, 0] = true) ∧ (fld (cmdOp 2 0x10 0xFF 0
    0x1100000000 5 7 0).p16 19 0 + fld (cmdOp 2 0x10 0xFF 0 0x1100000000 5 7 0).p16 52 32 ≤ 1048576) ∧ (17 ≤ fld (cmdOp 2 0x10 0xFF
    0 0x1100000000 5 7 0).p16 52 32) ∧ (Extent.has (fld (cmdOp 2 0x10 0xFF 0 0x1100000000 5 7 0).p16 19 0, fld (cmdOp 2 0x10 0xFF 0
    0x1100000000 5 7 0).p16 52 32) (fld (cmdOp 2 0x10 0xFF 0 0x1100000000 5 7 0).p8 19 0) 17 = true) ∧ (meets (start fun d => wset
    (boughAddr 0) 0xF000000000000000 (ring 3 d)).dev.protectedExtents (fld (cmdOp 2 0x10 0xFF 0 0x1100000000 5 7 0).p16 19 0) (fld
    (cmdOp 2 0x10 0xFF 0 0x1100000000 5 7 0).p16 52 32) = false) ∧ ((start fun d => wset (boughAddr 0) 0xF000000000000000 (ring 3
    d)).dev.badHeader (fld (cmdOp 2 0x10 0xFF 0 0x1100000000 5 7 0).p8 19 0) (fld (cmdOp 2 0x10 0xFF 0 0x1100000000 5 7 0).p16 19 0,
    fld (cmdOp 2 0x10 0xFF 0 0x1100000000 5 7 0).p16 52 32) = none) ∧ ((start fun d => wset (boughAddr 0) 0xF000000000000000 (ring 3
    d)).dev.freeSlot = some 0) := by decide
theorem witness_RuleVersionsCommit_4 : ((start fun d => rset (verReg 0 8) 17 (rset (verReg 0 0) 1 (ring 3 d))).starts (cmdOp 2 0x10
    0xFF 0 0x1100000000 5 7 0) 0x10 0xFF 2 [0xFFFFF, 0x1FFFFF000FFFFF, 0xFFFFFFFF, 0xFFFFFFFF, 0] = true) ∧ (fld (cmdOp 2 0x10 0xFF
    0 0x1100000000 5 7 0).p16 19 0 + fld (cmdOp 2 0x10 0xFF 0 0x1100000000 5 7 0).p16 52 32 ≤ 1048576) ∧ (17 ≤ fld (cmdOp 2 0x10
    0xFF 0 0x1100000000 5 7 0).p16 52 32) ∧ (Extent.has (fld (cmdOp 2 0x10 0xFF 0 0x1100000000 5 7 0).p16 19 0, fld (cmdOp 2 0x10
    0xFF 0 0x1100000000 5 7 0).p16 52 32) (fld (cmdOp 2 0x10 0xFF 0 0x1100000000 5 7 0).p8 19 0) 17 = true) ∧ (meets (start fun d =>
    rset (verReg 0 8) 17 (rset (verReg 0 0) 1 (ring 3 d))).dev.protectedExtents (fld (cmdOp 2 0x10 0xFF 0 0x1100000000 5 7 0).p16 19
    0) (fld (cmdOp 2 0x10 0xFF 0 0x1100000000 5 7 0).p16 52 32) = true) := by decide
theorem witness_RuleVersionsCommit_5 : ((start (ring 3)).starts (cmdOp 2 0x10 0xFF 0 0x1100000000 5 7 0) 0x10 0xFF 2 [0xFFFFF,
    0x1FFFFF000FFFFF, 0xFFFFFFFF, 0xFFFFFFFF, 0] = true) ∧ (fld (cmdOp 2 0x10 0xFF 0 0x1100000000 5 7 0).p16 19 0 + fld (cmdOp 2
    0x10 0xFF 0 0x1100000000 5 7 0).p16 52 32 ≤ 1048576) ∧ (17 ≤ fld (cmdOp 2 0x10 0xFF 0 0x1100000000 5 7 0).p16 52 32) ∧
    (Extent.has (fld (cmdOp 2 0x10 0xFF 0 0x1100000000 5 7 0).p16 19 0, fld (cmdOp 2 0x10 0xFF 0 0x1100000000 5 7 0).p16 52 32) (fld
    (cmdOp 2 0x10 0xFF 0 0x1100000000 5 7 0).p8 19 0) 17 = true) ∧ (meets (start (ring 3)).dev.protectedExtents (fld (cmdOp 2 0x10
    0xFF 0 0x1100000000 5 7 0).p16 19 0) (fld (cmdOp 2 0x10 0xFF 0 0x1100000000 5 7 0).p16 52 32) = false) ∧ ((start (ring
    3)).dev.badHeader (fld (cmdOp 2 0x10 0xFF 0 0x1100000000 5 7 0).p8 19 0) (fld (cmdOp 2 0x10 0xFF 0 0x1100000000 5 7 0).p16 19 0,
    fld (cmdOp 2 0x10 0xFF 0 0x1100000000 5 7 0).p16 52 32) = some 0) := by decide
theorem witness_RuleVersionsCommit_6 : ((start fun d =>
    { { ring 3 d with basjo := (ring 3 d).basjo.setRing 0 0 { RingRun.idle with running := some ⟨(cmdOp 2 0x10 0xFF 0 0x1100000000 5 7 0), 2, 0⟩ } } with groves := { d.groves with commit := some ⟨(cmdOp 2 0x10 0xFF 0 0x1100000000 5 7 0), 0, 17, 0, 0, 0, 0, none⟩ } }).dev.runs
    = true) ∧ ((start fun d =>
    { { ring 3 d with basjo := (ring 3 d).basjo.setRing 0 0 { RingRun.idle with running := some ⟨(cmdOp 2 0x10 0xFF 0 0x1100000000 5 7 0), 2, 0⟩ } } with groves := { d.groves with commit := some ⟨(cmdOp 2 0x10 0xFF 0 0x1100000000 5 7 0), 0, 17, 0, 0, 0, 0, none⟩ } }).dev.groves.commit
    = some (⟨(cmdOp 2 0x10 0xFF 0 0x1100000000 5 7 0), 0, 17, 0, 0, 0, 0, none⟩ : CommitRun)) ∧ ((⟨(cmdOp 2 0x10 0xFF 0 0x1100000000
    5 7 0), 0, 17, 0, 0, 0, 0, none⟩ : CommitRun).token = none) ∧ ((⟨(cmdOp 2 0x10 0xFF 0 0x1100000000 5 7 0), 0, 17, 0, 0, 0, 0,
    none⟩ : CommitRun).since + (⟨(cmdOp 2 0x10 0xFF 0 0x1100000000 5 7 0), 0, 17, 0, 0, 0, 0, none⟩ : CommitRun).timeout * usRaw ≤
    (start fun d =>
    { { ring 3 d with basjo := (ring 3 d).basjo.setRing 0 0 { RingRun.idle with running := some ⟨(cmdOp 2 0x10 0xFF 0 0x1100000000 5 7 0), 2, 0⟩ } } with groves := { d.groves with commit := some ⟨(cmdOp 2 0x10 0xFF 0 0x1100000000 5 7 0), 0, 17, 0, 0, 0, 0, none⟩ } }).dev.now)
    ∧ ((start fun d =>
    { { ring 3 d with basjo := (ring 3 d).basjo.setRing 0 0 { RingRun.idle with running := some ⟨(cmdOp 2 0x10 0xFF 0 0x1100000000 5 7 0), 2, 0⟩ } } with groves := { d.groves with commit := some ⟨(cmdOp 2 0x10 0xFF 0 0x1100000000 5 7 0), 0, 17, 0, 0, 0, 0, none⟩ } }).dev.basjo.ringType
    (⟨(cmdOp 2 0x10 0xFF 0 0x1100000000 5 7 0), 0, 17, 0, 0, 0, 0, none⟩ : CommitRun).desc.host.val (⟨(cmdOp 2 0x10 0xFF 0
    0x1100000000 5 7 0), 0, 17, 0, 0, 0, 0, none⟩ : CommitRun).desc.ring.val = 3) ∧ ((start fun d =>
    { { ring 3 d with basjo := (ring 3 d).basjo.setRing 0 0 { RingRun.idle with running := some ⟨(cmdOp 2 0x10 0xFF 0 0x1100000000 5 7 0), 2, 0⟩ } } with groves := { d.groves with commit := some ⟨(cmdOp 2 0x10 0xFF 0 0x1100000000 5 7 0), 0, 17, 0, 0, 0, 0, none⟩ } }).dev.basjo.ringActive
    (⟨(cmdOp 2 0x10 0xFF 0 0x1100000000 5 7 0), 0, 17, 0, 0, 0, 0, none⟩ : CommitRun).desc.host.val (⟨(cmdOp 2 0x10 0xFF 0
    0x1100000000 5 7 0), 0, 17, 0, 0, 0, 0, none⟩ : CommitRun).desc.ring.val = true) ∧ (((start fun d =>
    { { ring 3 d with basjo := (ring 3 d).basjo.setRing 0 0 { RingRun.idle with running := some ⟨(cmdOp 2 0x10 0xFF 0 0x1100000000 5 7 0), 2, 0⟩ } } with groves := { d.groves with commit := some ⟨(cmdOp 2 0x10 0xFF 0 0x1100000000 5 7 0), 0, 17, 0, 0, 0, 0, none⟩ } }).dev.basjo.ring
    (⟨(cmdOp 2 0x10 0xFF 0 0x1100000000 5 7 0), 0, 17, 0, 0, 0, 0, none⟩ : CommitRun).desc.host.val (⟨(cmdOp 2 0x10 0xFF 0
    0x1100000000 5 7 0), 0, 17, 0, 0, 0, 0, none⟩ : CommitRun).desc.ring.val).running = some ⟨(⟨(cmdOp 2 0x10 0xFF 0 0x1100000000 5
    7 0), 0, 17, 0, 0, 0, 0, none⟩ : CommitRun).desc, 2, 0⟩) ∧ ((⟨(cmdOp 2 0x10 0xFF 0 0x1100000000 5 7 0), 0, 17, 0, 0, 0, 0, none⟩
    : CommitRun).desc.writeErr = false) := by decide
theorem witness_RuleVersionsCommit_7 : ((start fun d =>
    { { ring 3 d with basjo := (ring 3 d).basjo.setRing 0 0 { RingRun.idle with running := some ⟨(cmdOp 2 0x10 0xFF 0 0x1100000000 5 7 0), 2, 0⟩ } } with groves := { d.groves with commit := some ⟨(cmdOp 2 0x10 0xFF 0 0x1100000000 5 7 0), 0, 17, 0, 0, 0, 5, none⟩ } }).dev.runs
    = true) ∧ ((start fun d =>
    { { ring 3 d with basjo := (ring 3 d).basjo.setRing 0 0 { RingRun.idle with running := some ⟨(cmdOp 2 0x10 0xFF 0 0x1100000000 5 7 0), 2, 0⟩ } } with groves := { d.groves with commit := some ⟨(cmdOp 2 0x10 0xFF 0 0x1100000000 5 7 0), 0, 17, 0, 0, 0, 5, none⟩ } }).dev.groves.commit
    = some (⟨(cmdOp 2 0x10 0xFF 0 0x1100000000 5 7 0), 0, 17, 0, 0, 0, 5, none⟩ : CommitRun)) ∧ ((start fun d =>
    { { ring 3 d with basjo := (ring 3 d).basjo.setRing 0 0 { RingRun.idle with running := some ⟨(cmdOp 2 0x10 0xFF 0 0x1100000000 5 7 0), 2, 0⟩ } } with groves := { d.groves with commit := some ⟨(cmdOp 2 0x10 0xFF 0 0x1100000000 5 7 0), 0, 17, 0, 0, 0, 5, none⟩ } }).dev.now
    < (⟨(cmdOp 2 0x10 0xFF 0 0x1100000000 5 7 0), 0, 17, 0, 0, 0, 5, none⟩ : CommitRun).since + (⟨(cmdOp 2 0x10 0xFF 0 0x1100000000
    5 7 0), 0, 17, 0, 0, 0, 5, none⟩ : CommitRun).timeout * usRaw ∨ (⟨(cmdOp 2 0x10 0xFF 0 0x1100000000 5 7 0), 0, 17, 0, 0, 0, 5,
    none⟩ : CommitRun).token.isSome = true) := by decide
theorem witness_RuleVersionsCommit_8 : ((start fun d =>
    { rset (verReg 0 0) 1 (atRaw 16640 { ring 3 d with basjo := (ring 3 d).basjo.setRing 0 0 { RingRun.idle with running := some ⟨(cmdOp 2 0x10 0xFF 0 0x1100000000 5 7 0), 2, 0⟩ } }) with groves := { d.groves with commit := some ⟨(cmdOp 2 0x10 0xFF 0 0x1100000000 5 7 0), 0, 17, 0, 0, 0, 0, some (1, 64)⟩ } }).dev.runs
    = true) ∧ ((start fun d =>
    { rset (verReg 0 0) 1 (atRaw 16640 { ring 3 d with basjo := (ring 3 d).basjo.setRing 0 0 { RingRun.idle with running := some ⟨(cmdOp 2 0x10 0xFF 0 0x1100000000 5 7 0), 2, 0⟩ } }) with groves := { d.groves with commit := some ⟨(cmdOp 2 0x10 0xFF 0 0x1100000000 5 7 0), 0, 17, 0, 0, 0, 0, some (1, 64)⟩ } }).dev.groves.commit
    = some (⟨(cmdOp 2 0x10 0xFF 0 0x1100000000 5 7 0), 0, 17, 0, 0, 0, 0, some (1, 64)⟩ : CommitRun)) ∧ ((⟨(cmdOp 2 0x10 0xFF 0
    0x1100000000 5 7 0), 0, 17, 0, 0, 0, 0, some (1, 64)⟩ : CommitRun).token = some (1, 64)) ∧ (64 ≤ (start fun d =>
    { rset (verReg 0 0) 1 (atRaw 16640 { ring 3 d with basjo := (ring 3 d).basjo.setRing 0 0 { RingRun.idle with running := some ⟨(cmdOp 2 0x10 0xFF 0 0x1100000000 5 7 0), 2, 0⟩ } }) with groves := { d.groves with commit := some ⟨(cmdOp 2 0x10 0xFF 0 0x1100000000 5 7 0), 0, 17, 0, 0, 0, 0, some (1, 64)⟩ } }).dev.tick)
    ∧ (1 < 4) ∧ ((start fun d =>
    { rset (verReg 0 0) 1 (atRaw 16640 { ring 3 d with basjo := (ring 3 d).basjo.setRing 0 0 { RingRun.idle with running := some ⟨(cmdOp 2 0x10 0xFF 0 0x1100000000 5 7 0), 2, 0⟩ } }) with groves := { d.groves with commit := some ⟨(cmdOp 2 0x10 0xFF 0 0x1100000000 5 7 0), 0, 17, 0, 0, 0, 0, some (1, 64)⟩ } }).dev.basjo.ringType
    (⟨(cmdOp 2 0x10 0xFF 0 0x1100000000 5 7 0), 0, 17, 0, 0, 0, 0, some (1, 64)⟩ : CommitRun).desc.host.val (⟨(cmdOp 2 0x10 0xFF 0
    0x1100000000 5 7 0), 0, 17, 0, 0, 0, 0, some (1, 64)⟩ : CommitRun).desc.ring.val = 3) ∧ ((start fun d =>
    { rset (verReg 0 0) 1 (atRaw 16640 { ring 3 d with basjo := (ring 3 d).basjo.setRing 0 0 { RingRun.idle with running := some ⟨(cmdOp 2 0x10 0xFF 0 0x1100000000 5 7 0), 2, 0⟩ } }) with groves := { d.groves with commit := some ⟨(cmdOp 2 0x10 0xFF 0 0x1100000000 5 7 0), 0, 17, 0, 0, 0, 0, some (1, 64)⟩ } }).dev.basjo.ringActive
    (⟨(cmdOp 2 0x10 0xFF 0 0x1100000000 5 7 0), 0, 17, 0, 0, 0, 0, some (1, 64)⟩ : CommitRun).desc.host.val (⟨(cmdOp 2 0x10 0xFF 0
    0x1100000000 5 7 0), 0, 17, 0, 0, 0, 0, some (1, 64)⟩ : CommitRun).desc.ring.val = true) ∧ (((start fun d =>
    { rset (verReg 0 0) 1 (atRaw 16640 { ring 3 d with basjo := (ring 3 d).basjo.setRing 0 0 { RingRun.idle with running := some ⟨(cmdOp 2 0x10 0xFF 0 0x1100000000 5 7 0), 2, 0⟩ } }) with groves := { d.groves with commit := some ⟨(cmdOp 2 0x10 0xFF 0 0x1100000000 5 7 0), 0, 17, 0, 0, 0, 0, some (1, 64)⟩ } }).dev.basjo.ring
    (⟨(cmdOp 2 0x10 0xFF 0 0x1100000000 5 7 0), 0, 17, 0, 0, 0, 0, some (1, 64)⟩ : CommitRun).desc.host.val (⟨(cmdOp 2 0x10 0xFF 0
    0x1100000000 5 7 0), 0, 17, 0, 0, 0, 0, some (1, 64)⟩ : CommitRun).desc.ring.val).running = some ⟨(⟨(cmdOp 2 0x10 0xFF 0
    0x1100000000 5 7 0), 0, 17, 0, 0, 0, 0, some (1, 64)⟩ : CommitRun).desc, 2, 0⟩) ∧ ((⟨(cmdOp 2 0x10 0xFF 0 0x1100000000 5 7 0),
    0, 17, 0, 0, 0, 0, some (1, 64)⟩ : CommitRun).desc.writeErr = false) := by decide
theorem witness_RuleVersionsCommit_9 : ((start fun d =>
    { { ring 3 d with basjo := (ring 3 d).basjo.setRing 0 0 { RingRun.idle with running := some ⟨(cmdOp 2 0x10 0xFF 0 0x1100000000 5 7 0), 2, 0⟩ } } with groves := { d.groves with commit := some ⟨(cmdOp 2 0x10 0xFF 0 0x1100000000 5 7 0), 0, 17, 0, 0, 0, 0, some (1, 64)⟩ } }).dev.runs
    = true) ∧ ((start fun d =>
    { { ring 3 d with basjo := (ring 3 d).basjo.setRing 0 0 { RingRun.idle with running := some ⟨(cmdOp 2 0x10 0xFF 0 0x1100000000 5 7 0), 2, 0⟩ } } with groves := { d.groves with commit := some ⟨(cmdOp 2 0x10 0xFF 0 0x1100000000 5 7 0), 0, 17, 0, 0, 0, 0, some (1, 64)⟩ } }).dev.groves.commit
    = some (⟨(cmdOp 2 0x10 0xFF 0 0x1100000000 5 7 0), 0, 17, 0, 0, 0, 0, some (1, 64)⟩ : CommitRun)) ∧ ((⟨(cmdOp 2 0x10 0xFF 0
    0x1100000000 5 7 0), 0, 17, 0, 0, 0, 0, some (1, 64)⟩ : CommitRun).token = some (1, 64)) ∧ ((start fun d =>
    { { ring 3 d with basjo := (ring 3 d).basjo.setRing 0 0 { RingRun.idle with running := some ⟨(cmdOp 2 0x10 0xFF 0 0x1100000000 5 7 0), 2, 0⟩ } } with groves := { d.groves with commit := some ⟨(cmdOp 2 0x10 0xFF 0 0x1100000000 5 7 0), 0, 17, 0, 0, 0, 0, some (1, 64)⟩ } }).dev.tick
    < 64) := by decide
theorem witness_RuleVersionsCommit_10 : ((start (rset (verReg 1 0) 2)).dev.runs = true) ∧ ((start (rset (verReg 1 0)
    2)).dev.verState (1 : Fin 4).val = 2) ∧ ((start (rset (verReg 1 0) 2)).dev.rf (verReg (1 : Fin 4).val 0x14) 23 0 = 0) := by
    decide
theorem witness_RuleVersionsCommit_11 : (State.reset.dev.runs = true) ∧ (State.reset.dev.verState (1 : Fin 4).val ≠ 2 ∨
    State.reset.dev.rf (verReg (1 : Fin 4).val 0x14) 23 0 ≠ 0) := by decide
theorem witness_ReplicasLearn_1 : ((start fun d =>
    { d with groves := { (d).groves with out := [(0, [⟨false, 1, 5, 9, 3, 2, 77⟩])] } }).dev.runs = true) ∧ ((start fun d =>
    { d with groves := { (d).groves with out := [(0, [⟨false, 1, 5, 9, 3, 2, 77⟩])] } }).dev.grovePowered (1 : Fin 4).val = true) ∧
    ((start fun d => { d with groves := { (d).groves with out := [(0, [⟨false, 1, 5, 9, 3, 2, 77⟩])] } }).dev.outgoing ((start fun d
    => { d with groves := { (d).groves with out := [(0, [⟨false, 1, 5, 9, 3, 2, 77⟩])] } }).dev.prevGrove (1 : Fin 4).val) =
    (⟨false, 1, 5, 9, 3, 2, 77⟩ : LearnMsg) :: ([] : List LearnMsg)) ∧ ((⟨false, 1, 5, 9, 3, 2, 77⟩ : LearnMsg).hold = false) ∧
    ((start fun d => { d with groves := { (d).groves with out := [(0, [⟨false, 1, 5, 9, 3, 2, 77⟩])] } }).dev.fdbFind (1 : Fin
    4).val (⟨false, 1, 5, 9, 3, 2, 77⟩ : LearnMsg).vid (⟨false, 1, 5, 9, 3, 2, 77⟩ : LearnMsg).mac = none) ∧ (((start fun d =>
    { d with groves := { (d).groves with out := [(0, [⟨false, 1, 5, 9, 3, 2, 77⟩])] } }).dev.freeIn (1 : Fin 4).val ((start fun d =>
    { d with groves := { (d).groves with out := [(0, [⟨false, 1, 5, 9, 3, 2, 77⟩])] } }).dev.fdbBuckets (⟨false, 1, 5, 9, 3, 2, 77⟩
    : LearnMsg).vid (⟨false, 1, 5, 9, 3, 2, 77⟩ : LearnMsg).mac).1).isSome = true) := by decide
theorem witness_ReplicasLearn_2 : ((start fun d =>
    { (learned 1 (station 4 0 20 false 0 0) d) with groves := { ((learned 1 (station 4 0 20 false 0 0) d)).groves with out := [(0, [⟨false, 1, 5, 9, 3, 2, 77⟩])] } }).dev.runs
    = true) ∧ ((start fun d =>
    { (learned 1 (station 4 0 20 false 0 0) d) with groves := { ((learned 1 (station 4 0 20 false 0 0) d)).groves with out := [(0, [⟨false, 1, 5, 9, 3, 2, 77⟩])] } }).dev.grovePowered
    (1 : Fin 4).val = true) ∧ ((start fun d =>
    { (learned 1 (station 4 0 20 false 0 0) d) with groves := { ((learned 1 (station 4 0 20 false 0 0) d)).groves with out := [(0, [⟨false, 1, 5, 9, 3, 2, 77⟩])] } }).dev.outgoing
    ((start fun d =>
    { (learned 1 (station 4 0 20 false 0 0) d) with groves := { ((learned 1 (station 4 0 20 false 0 0) d)).groves with out := [(0, [⟨false, 1, 5, 9, 3, 2, 77⟩])] } }).dev.prevGrove
    (1 : Fin 4).val) = (⟨false, 1, 5, 9, 3, 2, 77⟩ : LearnMsg) :: ([] : List LearnMsg)) ∧ ((⟨false, 1, 5, 9, 3, 2, 77⟩ :
    LearnMsg).hold = false) ∧ ((start fun d =>
    { (learned 1 (station 4 0 20 false 0 0) d) with groves := { ((learned 1 (station 4 0 20 false 0 0) d)).groves with out := [(0, [⟨false, 1, 5, 9, 3, 2, 77⟩])] } }).dev.fdbFind
    (1 : Fin 4).val (⟨false, 1, 5, 9, 3, 2, 77⟩ : LearnMsg).vid (⟨false, 1, 5, 9, 3, 2, 77⟩ : LearnMsg).mac = some
    ((State.reset.dev.fdbBuckets 1 5).1)) ∧ ((start fun d =>
    { (learned 1 (station 4 0 20 false 0 0) d) with groves := { ((learned 1 (station 4 0 20 false 0 0) d)).groves with out := [(0, [⟨false, 1, 5, 9, 3, 2, 77⟩])] } }).dev.fdbAt
    (1 : Fin 4).val ((State.reset.dev.fdbBuckets 1 5).1) = some (station 4 0 20 false 0 0)) ∧ ((station 4 0 20 false 0 0).isStatic =
    false) ∧ ((station 4 0 20 false 0 0).group = false) ∧ ((station 4 0 20 false 0 0).hold = false) ∧ ((⟨false, 1, 5, 9, 3, 2, 77⟩ :
    LearnMsg).stamp < (station 4 0 20 false 0 0).stamp) := by decide
theorem witness_ReplicasLearn_3 : ((start fun d =>
    { (learned 1 (station 4 0 5 false 0 0) d) with groves := { ((learned 1 (station 4 0 5 false 0 0) d)).groves with out := [(0, [⟨false, 1, 5, 9, 3, 2, 77⟩])] } }).dev.runs
    = true) ∧ ((start fun d =>
    { (learned 1 (station 4 0 5 false 0 0) d) with groves := { ((learned 1 (station 4 0 5 false 0 0) d)).groves with out := [(0, [⟨false, 1, 5, 9, 3, 2, 77⟩])] } }).dev.grovePowered
    (1 : Fin 4).val = true) ∧ ((start fun d =>
    { (learned 1 (station 4 0 5 false 0 0) d) with groves := { ((learned 1 (station 4 0 5 false 0 0) d)).groves with out := [(0, [⟨false, 1, 5, 9, 3, 2, 77⟩])] } }).dev.outgoing
    ((start fun d =>
    { (learned 1 (station 4 0 5 false 0 0) d) with groves := { ((learned 1 (station 4 0 5 false 0 0) d)).groves with out := [(0, [⟨false, 1, 5, 9, 3, 2, 77⟩])] } }).dev.prevGrove
    (1 : Fin 4).val) = (⟨false, 1, 5, 9, 3, 2, 77⟩ : LearnMsg) :: ([] : List LearnMsg)) ∧ ((1 : Fin 4) ≠ 0) ∧ ((⟨false, 1, 5, 9, 3,
    2, 77⟩ : LearnMsg).hold = false) ∧ ((start fun d =>
    { (learned 1 (station 4 0 5 false 0 0) d) with groves := { ((learned 1 (station 4 0 5 false 0 0) d)).groves with out := [(0, [⟨false, 1, 5, 9, 3, 2, 77⟩])] } }).dev.fdbFind
    (1 : Fin 4).val (⟨false, 1, 5, 9, 3, 2, 77⟩ : LearnMsg).vid (⟨false, 1, 5, 9, 3, 2, 77⟩ : LearnMsg).mac = some
    ((State.reset.dev.fdbBuckets 1 5).1)) ∧ ((start fun d =>
    { (learned 1 (station 4 0 5 false 0 0) d) with groves := { ((learned 1 (station 4 0 5 false 0 0) d)).groves with out := [(0, [⟨false, 1, 5, 9, 3, 2, 77⟩])] } }).dev.fdbAt
    (1 : Fin 4).val ((State.reset.dev.fdbBuckets 1 5).1) = some (station 4 0 5 false 0 0)) ∧ ((station 4 0 5 false 0 0).isStatic =
    false) ∧ ((station 4 0 5 false 0 0).group = false) ∧ ((station 4 0 5 false 0 0).hold = false) ∧ ((station 4 0 5 false 0 0).stamp
    < (⟨false, 1, 5, 9, 3, 2, 77⟩ : LearnMsg).stamp) := by decide
theorem witness_ReplicasLearn_4 : ((start fun d =>
    { (learned 1 (station 4 0 20 false 0 0) d) with groves := { ((learned 1 (station 4 0 20 false 0 0) d)).groves with out := [(0, [⟨true, 1, 5, 9, 3, 2, 77⟩])] } }).dev.runs
    = true) ∧ ((start fun d =>
    { (learned 1 (station 4 0 20 false 0 0) d) with groves := { ((learned 1 (station 4 0 20 false 0 0) d)).groves with out := [(0, [⟨true, 1, 5, 9, 3, 2, 77⟩])] } }).dev.grovePowered
    (1 : Fin 4).val = true) ∧ ((start fun d =>
    { (learned 1 (station 4 0 20 false 0 0) d) with groves := { ((learned 1 (station 4 0 20 false 0 0) d)).groves with out := [(0, [⟨true, 1, 5, 9, 3, 2, 77⟩])] } }).dev.outgoing
    ((start fun d =>
    { (learned 1 (station 4 0 20 false 0 0) d) with groves := { ((learned 1 (station 4 0 20 false 0 0) d)).groves with out := [(0, [⟨true, 1, 5, 9, 3, 2, 77⟩])] } }).dev.prevGrove
    (1 : Fin 4).val) = (⟨true, 1, 5, 9, 3, 2, 77⟩ : LearnMsg) :: ([] : List LearnMsg)) ∧ ((⟨true, 1, 5, 9, 3, 2, 77⟩ :
    LearnMsg).hold = true) ∧ ((start fun d =>
    { (learned 1 (station 4 0 20 false 0 0) d) with groves := { ((learned 1 (station 4 0 20 false 0 0) d)).groves with out := [(0, [⟨true, 1, 5, 9, 3, 2, 77⟩])] } }).dev.fdbFind
    (1 : Fin 4).val (⟨true, 1, 5, 9, 3, 2, 77⟩ : LearnMsg).vid (⟨true, 1, 5, 9, 3, 2, 77⟩ : LearnMsg).mac = some
    ((State.reset.dev.fdbBuckets 1 5).1)) ∧ ((start fun d =>
    { (learned 1 (station 4 0 20 false 0 0) d) with groves := { ((learned 1 (station 4 0 20 false 0 0) d)).groves with out := [(0, [⟨true, 1, 5, 9, 3, 2, 77⟩])] } }).dev.fdbAt
    (1 : Fin 4).val ((State.reset.dev.fdbBuckets 1 5).1) = some (station 4 0 20 false 0 0)) := by decide
theorem witness_ReplicasLearn_5 : ((start fun d =>
    { d with groves := { d.groves with fdb := [(131072, some (station 4 0 20 false 0 0))] } }).dev.runs = true) ∧ ((start fun d =>
    { d with groves := { d.groves with fdb := [(131072, some (station 4 0 20 false 0 0))] } }).dev.fdbAt (0 : Fin 4).val (fdbStash +
    (0 : Fin 64).val) = some (station 4 0 20 false 0 0)) ∧ ((∀ i : Fin 64, i < (0 : Fin 64) → (start fun d =>
    { d with groves := { d.groves with fdb := [(131072, some (station 4 0 20 false 0 0))] } }).dev.fdbAt (0 : Fin 4).val (fdbStash +
    i.val) = none)) ∧ ((start fun d =>
    { d with groves := { d.groves with fdb := [(131072, some (station 4 0 20 false 0 0))] } }).dev.freeIn (0 : Fin 4).val ((start
    fun d => { d with groves := { d.groves with fdb := [(131072, some (station 4 0 20 false 0 0))] } }).dev.fdbBuckets (station 4 0
    20 false 0 0).vid (station 4 0 20 false 0 0).mac).1 = some ((State.reset.dev.fdbBuckets 1 5).1)) := by decide
theorem witness_ReplicasLearn_6 : ((start fun d => learned 1 (station 4 2 20 false 0 0)
    { d with cam := { d.cam with raw := 0 } , groves := { d.groves with aged := 9 } }).dev.runs = true) ∧ ((start fun d => learned 1
    (station 4 2 20 false 0 0) { d with cam := { d.cam with raw := 0 } , groves := { d.groves with aged := 9 } }).dev.groves.fdb.wf
    (fun _ => none) = true) ∧ (((start fun d => learned 1 (station 4 2 20 false 0 0)
    { d with cam := { d.cam with raw := 0 } , groves := { d.groves with aged := 9 } }).dev.rf 0x221008 15 0 * 250 * msRaw) ≠ 0) ∧
    ((start fun d => learned 1 (station 4 2 20 false 0 0)
    { d with cam := { d.cam with raw := 0 } , groves := { d.groves with aged := 9 } }).dev.now % ((start fun d => learned 1 (station
    4 2 20 false 0 0) { d with cam := { d.cam with raw := 0 } , groves := { d.groves with aged := 9 } }).dev.rf 0x221008 15 0 * 250
    * msRaw) < 256) ∧ ((start fun d => learned 1 (station 4 2 20 false 0 0)
    { d with cam := { d.cam with raw := 0 } , groves := { d.groves with aged := 9 } }).dev.groves.aged ≠ (start fun d => learned 1
    (station 4 2 20 false 0 0) { d with cam := { d.cam with raw := 0 } , groves := { d.groves with aged := 9 } }).dev.tick + 1) ∧
    (grovePresent (start fun d => learned 1 (station 4 2 20 false 0 0)
    { d with cam := { d.cam with raw := 0 } , groves := { d.groves with aged := 9 } }).dev.variant (1 : Fin 4).val = true) ∧
    (((State.reset.dev.fdbBuckets 1 5).1) < fdbSlots) ∧ (((State.reset.dev.fdbBuckets 1 5).1) ∉ ((([] : List (Fin 4 × Fin
    131136)).filter (fun x => x.1.val = (1 : Fin 4).val)).map (fun x => x.2.val))) ∧ ((start fun d => learned 1 (station 4 2 20
    false 0 0) { d with cam := { d.cam with raw := 0 } , groves := { d.groves with aged := 9 } }).dev.fdbAt (1 : Fin 4).val
    ((State.reset.dev.fdbBuckets 1 5).1) = some (station 4 2 20 false 0 0)) ∧ ((station 4 2 20 false 0 0).hold = false) ∧ ((station
    4 2 20 false 0 0).isStatic = false) := by decide
theorem witness_ReplicasLearn_7 : ((start fun d => learned 1 (station 4 2 20 false 0 0)
    { d with cam := { d.cam with raw := 0 } , groves := { d.groves with aged := 9 } }).dev.runs = true) ∧ ((start fun d => learned 1
    (station 4 2 20 false 0 0) { d with cam := { d.cam with raw := 0 } , groves := { d.groves with aged := 9 } }).dev.groves.fdb.wf
    (fun _ => none) = true) ∧ (((start fun d => learned 1 (station 4 2 20 false 0 0)
    { d with cam := { d.cam with raw := 0 } , groves := { d.groves with aged := 9 } }).dev.rf 0x221008 15 0 * 250 * msRaw) ≠ 0) ∧
    ((start fun d => learned 1 (station 4 2 20 false 0 0)
    { d with cam := { d.cam with raw := 0 } , groves := { d.groves with aged := 9 } }).dev.now % ((start fun d => learned 1 (station
    4 2 20 false 0 0) { d with cam := { d.cam with raw := 0 } , groves := { d.groves with aged := 9 } }).dev.rf 0x221008 15 0 * 250
    * msRaw) < 256) ∧ ((start fun d => learned 1 (station 4 2 20 false 0 0)
    { d with cam := { d.cam with raw := 0 } , groves := { d.groves with aged := 9 } }).dev.groves.aged ≠ (start fun d => learned 1
    (station 4 2 20 false 0 0) { d with cam := { d.cam with raw := 0 } , groves := { d.groves with aged := 9 } }).dev.tick + 1) ∧
    (grovePresent (start fun d => learned 1 (station 4 2 20 false 0 0)
    { d with cam := { d.cam with raw := 0 } , groves := { d.groves with aged := 9 } }).dev.variant (1 : Fin 4).val = true) ∧ (7 ∈
    ((([(1, 7)] : List (Fin 4 × Fin 131136)).filter (fun x => x.1.val = (1 : Fin 4).val)).map (fun x => x.2.val))) := by decide
theorem witness_ReplicasLearn_8 : ((start (rset 0x221008 0)).dev.runs = true) ∧ (((start (rset 0x221008 0)).dev.rf 0x221008 15 0 *
    250 * msRaw) = 0 ∨ 256 ≤ (start (rset 0x221008 0)).dev.now % ((start (rset 0x221008 0)).dev.rf 0x221008 15 0 * 250 * msRaw) ∨
    (start (rset 0x221008 0)).dev.groves.aged = (start (rset 0x221008 0)).dev.tick + 1) := by decide
theorem witness_ReplicasLearn_9 : ((start fun d => learned 0 (station 4 2 20 false 0 3) (rset 0x22100C 3 d)).dev.runs = true) ∧
    (((State.reset.dev.fdbBuckets 1 5).1) < fdbSlots) ∧ ((start fun d => learned 0 (station 4 2 20 false 0 3) (rset 0x22100C 3
    d)).dev.fdbAt 0 ((State.reset.dev.fdbBuckets 1 5).1) = some (station 4 2 20 false 0 3)) ∧ ((station 4 2 20 false 0 3).hold =
    false) ∧ ((station 4 2 20 false 0 3).moves ≠ 0) ∧ ((start fun d => learned 0 (station 4 2 20 false 0 3) (rset 0x22100C 3
    d)).dev.rf 0x22100C 30 16 ≤ ((start fun d => learned 0 (station 4 2 20 false 0 3) (rset 0x22100C 3 d)).dev.ms16 + 65536 -
    (station 4 2 20 false 0 3).winStart) % 65536) := by decide
theorem witness_ReplicasLearn_10 : ((start fun d => learned 1 (station 4 2 20 true 0 3) d).dev.runs = true) ∧ ((1 : Fin 4) ≠ 0) ∧
    (((State.reset.dev.fdbBuckets 1 5).1) < fdbSlots) ∧ ((start fun d => learned 1 (station 4 2 20 true 0 3) d).dev.fdbAt (1 : Fin
    4).val ((State.reset.dev.fdbBuckets 1 5).1) = some (station 4 2 20 true 0 3)) ∧ ((start fun d => learned 1 (station 4 2 20 true
    0 3) d).dev.holdOver (station 4 2 20 true 0 3) = true) := by decide
theorem witness_ReplicasLearn_11 : ((start fun d => learned 1 (station 4 2 20 true 0 3) d).dev.runs = true) ∧ ((start fun d =>
    learned 1 (station 4 2 20 true 0 3) d).dev.fdbFind (1 : Fin 4).val (1 : BitVec 12).toNat (5 : BitVec 48).toNat = some
    ((State.reset.dev.fdbBuckets 1 5).1)) ∧ ((start fun d => learned 1 (station 4 2 20 true 0 3) d).dev.fdbAt (1 : Fin 4).val
    ((State.reset.dev.fdbBuckets 1 5).1) = some (station 4 2 20 true 0 3)) ∧ ((start fun d => learned 1 (station 4 2 20 true 0 3)
    d).dev.holdOver (station 4 2 20 true 0 3) = true) := by decide
theorem witness_ReplicasLearn_12 : ((start fun d => learned 1 (station 4 2 20 true 9 3) d).dev.runs = true) ∧ ((start fun d =>
    learned 1 (station 4 2 20 true 9 3) d).dev.fdbFind (1 : Fin 4).val (1 : BitVec 12).toNat (5 : BitVec 48).toNat = some
    ((State.reset.dev.fdbBuckets 1 5).1)) ∧ ((start fun d => learned 1 (station 4 2 20 true 9 3) d).dev.fdbAt (1 : Fin 4).val
    ((State.reset.dev.fdbBuckets 1 5).1) = some (station 4 2 20 true 9 3)) ∧ ((start fun d => learned 1 (station 4 2 20 true 9 3)
    d).dev.holdOver (station 4 2 20 true 9 3) = false) := by decide
theorem witness_ForwardingCommands_1 : ((start (ring 3)).starts (cmdOp 0x10 0x10 17 0x1000000000005 0x100000004 0 0 0) 0x10 17 0x10
    [0x0FFFFFFFFFFFFFFF, 0x100003FFF, 0, 0, 0] = true) ∧ ((bit (cmdOp 0x10 0x10 17 0x1000000000005 0x100000004 0 0 0).p16 13 = true
    ∨ (bit (cmdOp 0x10 0x10 17 0x1000000000005 0x100000004 0 0 0).p8 40 = false ∧ fld (cmdOp 0x10 0x10 17 0x1000000000005
    0x100000004 0 0 0).p16 12 0 ≤ 39 ∧ portPresent (start (ring 3)).dev.variant (fld (cmdOp 0x10 0x10 17 0x1000000000005 0x100000004
    0 0 0).p16 12 0) = true))) ∧ ((∀ g ∈ groveList (start (ring 3)).dev.variant, ((start (ring 3)).dev.fdbFind g (fld (cmdOp 0x10
    0x10 17 0x1000000000005 0x100000004 0 0 0).p8 59 48) (fld (cmdOp 0x10 0x10 17 0x1000000000005 0x100000004 0 0 0).p8 47
    0)).isSome = true ∨ ((start (ring 3)).dev.freeIn g ((start (ring 3)).dev.fdbBuckets (fld (cmdOp 0x10 0x10 17 0x1000000000005
    0x100000004 0 0 0).p8 59 48) (fld (cmdOp 0x10 0x10 17 0x1000000000005 0x100000004 0 0 0).p8 47 0)).1).isSome = true)) := by
    decide
theorem witness_ForwardingCommands_2 : ((start (ring 3)).starts (cmdOp 0x10 0x10 17 0x1000000000005 0x100000028 0 0 0) 0x10 17 0x10
    [0x0FFFFFFFFFFFFFFF, 0x100003FFF, 0, 0, 0] = true) ∧ (bit (cmdOp 0x10 0x10 17 0x1000000000005 0x100000028 0 0 0).p16 13 = false)
    ∧ (bit (cmdOp 0x10 0x10 17 0x1000000000005 0x100000028 0 0 0).p8 40 = true ∨ 39 < fld (cmdOp 0x10 0x10 17 0x1000000000005
    0x100000028 0 0 0).p16 12 0 ∨ portPresent (start (ring 3)).dev.variant (fld (cmdOp 0x10 0x10 17 0x1000000000005 0x100000028 0 0
    0).p16 12 0) = false) := by decide
theorem witness_ForwardingCommands_3 : ((start fun d => learned 0 (station 4 0 20 false 0 0) (ring 3 d)).starts (cmdOp 0x11 0x10 17
    0x1000000000005 0 0 0 0) 0x10 17 0x11 [0x0FFFFFFFFFFFFFFF, 0, 0, 0, 0] = true) ∧ ((groveList (start fun d => learned 0 (station
    4 0 20 false 0 0) (ring 3 d)).dev.variant).any (fun g => ((start fun d => learned 0 (station 4 0 20 false 0 0) (ring 3
    d)).dev.fdbFind g (fld (cmdOp 0x11 0x10 17 0x1000000000005 0 0 0 0).p8 59 48) (fld (cmdOp 0x11 0x10 17 0x1000000000005 0 0 0
    0).p8 47 0)).isSome) = true) := by decide
theorem witness_ForwardingCommands_4 : ((start (ring 3)).starts (cmdOp 0x11 0x10 17 0x1000000000005 0 0 0 0) 0x10 17 0x11
    [0x0FFFFFFFFFFFFFFF, 0, 0, 0, 0] = true) ∧ ((groveList (start (ring 3)).dev.variant).any (fun g => ((start (ring 3)).dev.fdbFind
    g (fld (cmdOp 0x11 0x10 17 0x1000000000005 0 0 0 0).p8 59 48) (fld (cmdOp 0x11 0x10 17 0x1000000000005 0 0 0 0).p8 47
    0)).isSome) = false) := by decide
theorem witness_ForwardingCommands_5 : ((start fun d => learned 0 (station 4 0 20 false 0 0) (ring 3 d)).starts (cmdOp 0x12 0x10 17
    0 0 0 0 0) 0x10 17 0x12 [0x0001013F10000FFF, 0, 0, 0, 0] = true) ∧ ((start fun d => learned 0 (station 4 0 20 false 0 0) (ring 3
    d)).dev.groves.fdb.wf (fun _ => none) = true) := by decide
theorem witness_ForwardingCommands_6 : ((start fun d => learned 1 (station 4 0 20 false 0 0) (ring 3 d)).starts (cmdOp 0x13 0x11 17
    0x1000000000005 0 0 0 0) (0x10 + (1 : Fin 4).val) 17 0x13 [0x0FFFFFFFFFFFFFFF, 0, 0, 0, 0] = true) ∧ ((start fun d => learned 1
    (station 4 0 20 false 0 0) (ring 3 d)).dev.fdbLookup (1 : Fin 4).val (fld (cmdOp 0x13 0x11 17 0x1000000000005 0 0 0 0).p8 59 48)
    (fld (cmdOp 0x13 0x11 17 0x1000000000005 0 0 0 0).p8 47 0) = some (station 4 0 20 false 0 0)) := by decide
theorem witness_ForwardingCommands_7 : ((start (ring 3)).starts (cmdOp 0x13 0x11 17 0x1000000000005 0 0 0 0) (0x10 + (1 : Fin
    4).val) 17 0x13 [0x0FFFFFFFFFFFFFFF, 0, 0, 0, 0] = true) ∧ ((start (ring 3)).dev.fdbLookup (1 : Fin 4).val (fld (cmdOp 0x13 0x11
    17 0x1000000000005 0 0 0 0).p8 59 48) (fld (cmdOp 0x13 0x11 17 0x1000000000005 0 0 0 0).p8 47 0) = none) := by decide
theorem witness_ForwardingCommands_8 : ((start fun d => learned 1 (station 4 0 20 false 0 0) (ring 3 d)).starts (cmdOp 0x14 0x11 17
    0x1000 4 0 0 0) (0x10 + (1 : Fin 4).val) 17 0x14 [all64, 0x3FFFF, 0, 0, 0] = true) ∧ (fld (cmdOp 0x14 0x11 17 0x1000 4 0 0 0).p8
    2 0 = 0) ∧ (fld (cmdOp 0x14 0x11 17 0x1000 4 0 0 0).p16 17 0 ≠ 0) ∧ (fld (cmdOp 0x14 0x11 17 0x1000 4 0 0 0).p16 17 0 ≤ 131136)
    := by decide
theorem witness_ForwardingCommands_9 : ((start (ring 3)).starts (cmdOp 0x20 0x10 18 5 0x100000001 0x6400000064 1 0) 0x10 18 0x20
    [0x3FFF, 0x003FFFFF003FFFFF, 0x00FFFFFF00FFFFFF, 7, 0] = true) ∧ ((bit (cmdOp 0x20 0x10 18 5 0x100000001 0x6400000064 1 0).p32 0
    = false ∨ (1 ≤ fld (cmdOp 0x20 0x10 18 5 0x100000001 0x6400000064 1 0).p16 21 0 ∧ fld (cmdOp 0x20 0x10 18 5 0x100000001
    0x6400000064 1 0).p16 53 32 ≤ 3125000 ∧ fld (cmdOp 0x20 0x10 18 5 0x100000001 0x6400000064 1 0).p16 21 0 ≤ fld (cmdOp 0x20 0x10
    18 5 0x100000001 0x6400000064 1 0).p16 53 32 ∧ 1 ≤ fld (cmdOp 0x20 0x10 18 5 0x100000001 0x6400000064 1 0).p24 23 0 ∧ 1 ≤ fld
    (cmdOp 0x20 0x10 18 5 0x100000001 0x6400000064 1 0).p24 55 32))) := by decide
theorem witness_ForwardingCommands_10 : ((start (ring 3)).starts (cmdOp 0x20 0x10 18 5 0 0x6400000064 1 0) 0x10 18 0x20 [0x3FFF,
    0x003FFFFF003FFFFF, 0x00FFFFFF00FFFFFF, 7, 0] = true) ∧ (bit (cmdOp 0x20 0x10 18 5 0 0x6400000064 1 0).p32 0 = true) ∧ (¬ (1 ≤
    fld (cmdOp 0x20 0x10 18 5 0 0x6400000064 1 0).p16 21 0 ∧ fld (cmdOp 0x20 0x10 18 5 0 0x6400000064 1 0).p16 53 32 ≤ 3125000 ∧ fld
    (cmdOp 0x20 0x10 18 5 0 0x6400000064 1 0).p16 21 0 ≤ fld (cmdOp 0x20 0x10 18 5 0 0x6400000064 1 0).p16 53 32 ∧ 1 ≤ fld (cmdOp
    0x20 0x10 18 5 0 0x6400000064 1 0).p24 23 0 ∧ 1 ≤ fld (cmdOp 0x20 0x10 18 5 0 0x6400000064 1 0).p24 55 32)) := by decide
theorem witness_ForwardingCommands_11 : ((start (ring 3)).starts (cmdOp 0x21 0x11 18 5 0 0 0 0) (0x10 + (1 : Fin 4).val) 18 0x21
    [0x13FFF, 0, 0, 0, 0] = true) ∧ (bit (cmdOp 0x21 0x11 18 5 0 0 0 0).p8 16 = false) := by decide
theorem witness_ForwardingCommands_12 : ((start (ring 3)).starts (cmdOp 0x21 0x11 18 0x10005 0 0 0 0) (0x10 + (1 : Fin 4).val) 18
    0x21 [0x13FFF, 0, 0, 0, 0] = true) ∧ (bit (cmdOp 0x21 0x11 18 0x10005 0 0 0 0).p8 16 = true) := by decide
theorem witness_BuffersAndMemories_1 : (State.reset.opens cpu (trunkReg 0x8000) = true) ∧ (State.reset.dev.rb (trunkReg 0x8000) 31 =
    false) ∧ (2048 ≤ State.reset.dev.xmemCapacity) ∧ (State.reset.dev.xmemCapacity ≤ 8192) := by decide
theorem witness_BuffersAndMemories_2 : ((start (rset (trunkReg 0x8000) 0x41)).opens cpu (trunkReg 0x8000) = true) ∧ ((start (rset
    (trunkReg 0x8000) 0x41)).dev.rb (trunkReg 0x8000) 31 = false) ∧ ((start (rset (trunkReg 0x8000) 0x41)).dev.xmemCapacity < 2048 ∨
    8192 < (start (rset (trunkReg 0x8000) 0x41)).dev.xmemCapacity) := by decide
theorem witness_BuffersAndMemories_3 : ((start xmem).opens cpu (trunkReg 0x8000) = true) ∧ ((start xmem).dev.rb (trunkReg 0x8000) 31
    = true) ∧ ((start xmem).dev.rb (trunkReg 0x30) 31 = false) ∧ ((start xmem).dev.rb (barkReg 0) 31 = false) ∧ ((start xmem).dev.rb
    (tapReg 0x80) 31 = false) := by decide
theorem witness_BuffersAndMemories_4 : ((start fun d => rset (trunkReg 0x30) 0x80000010 (xmem d)).opens cpu (trunkReg 0x8000) =
    true) ∧ ((start fun d => rset (trunkReg 0x30) 0x80000010 (xmem d)).dev.rb (trunkReg 0x8000) 31 = true) ∧ ((start fun d => rset
    (trunkReg 0x30) 0x80000010 (xmem d)).dev.rb (trunkReg 0x30) 31 = true ∨ (start fun d => rset (trunkReg 0x30) 0x80000010 (xmem
    d)).dev.rb (barkReg 0) 31 = true ∨ (start fun d => rset (trunkReg 0x30) 0x80000010 (xmem d)).dev.rb (tapReg 0x80) 31 = true) :=
    by decide
theorem witness_BuffersAndMemories_5 : ((start (fun d => rset (trunkReg 0x8004) 1 (rset (trunkReg 0x8000) 0x80000000 d))).dev.runs =
    true) ∧ ((start (fun d => rset (trunkReg 0x8004) 1 (rset (trunkReg 0x8000) 0x80000000 d))).dev.rb (trunkReg 0x8000) 31 = true) ∧
    ((start (fun d => rset (trunkReg 0x8004) 1 (rset (trunkReg 0x8000) 0x80000000 d))).dev.rf (trunkReg 0x8004) 1 0 = 1) := by
    decide
theorem witness_BuffersAndMemories_6 : ((start (fun d => rset (trunkReg 0x8004) 1 (rset (trunkReg 0x8000) 0x80000000 d))).dev.runs =
    true) ∧ ((start (fun d => rset (trunkReg 0x8004) 1 (rset (trunkReg 0x8000) 0x80000000 d))).dev.rb (trunkReg 0x8000) 31 = true) ∧
    ((start (fun d => rset (trunkReg 0x8004) 1 (rset (trunkReg 0x8000) 0x80000000 d))).dev.rf (trunkReg 0x8004) 1 0 = 1) := by
    decide
theorem witness_BuffersAndMemories_7 : ((start xmem).dev.runs = true) ∧ ((start xmem).dev.xmemReady = true) ∧ ((start xmem).dev.rf
    (trunkReg 0x8004) 1 0 = 2) := by decide
theorem witness_BuffersAndMemories_8 : ((start fun d => rset (trunkReg 0x34) 0x40000000 (rset (trunkReg 0x30) 16 (xmem d))).opens
    cpu (trunkReg 0x30) = true) ∧ ((start fun d => rset (trunkReg 0x34) 0x40000000 (rset (trunkReg 0x30) 16 (xmem d))).dev.rb
    (trunkReg 0x30) 31 = false) ∧ ((start fun d => rset (trunkReg 0x34) 0x40000000 (rset (trunkReg 0x30) 16 (xmem d))).dev.xmemReady
    = true) ∧ (1 ≤ (start fun d => rset (trunkReg 0x34) 0x40000000 (rset (trunkReg 0x30) 16 (xmem d))).dev.rf (trunkReg 0x30) 10 0)
    ∧ ((start fun d => rset (trunkReg 0x34) 0x40000000 (rset (trunkReg 0x30) 16 (xmem d))).dev.rf (trunkReg 0x30) 10 0 ≤ 1024) ∧
    ((start fun d => rset (trunkReg 0x34) 0x40000000 (rset (trunkReg 0x30) 16 (xmem d))).dev.ovfRegion.1 + (start fun d => rset
    (trunkReg 0x34) 0x40000000 (rset (trunkReg 0x30) 16 (xmem d))).dev.ovfRegion.2 ≤ (start fun d => rset (trunkReg 0x34) 0x40000000
    (rset (trunkReg 0x30) 16 (xmem d))).dev.xmemSize) ∧ (overlaps (start fun d => rset (trunkReg 0x34) 0x40000000 (rset (trunkReg
    0x30) 16 (xmem d))).dev.ovfRegion (start fun d => rset (trunkReg 0x34) 0x40000000 (rset (trunkReg 0x30) 16 (xmem
    d))).dev.ctRegion = false) ∧ ((start fun d => rset (trunkReg 0x34) 0x40000000 (rset (trunkReg 0x30) 16 (xmem d))).dev.rb (tapReg
    0x80) 31 = false ∨ overlaps (start fun d => rset (trunkReg 0x34) 0x40000000 (rset (trunkReg 0x30) 16 (xmem d))).dev.ovfRegion
    (start fun d => rset (trunkReg 0x34) 0x40000000 (rset (trunkReg 0x30) 16 (xmem d))).dev.saveRegion = false) := by decide
theorem witness_BuffersAndMemories_9 : (State.reset.opens cpu (trunkReg 0x30) = true) ∧ (State.reset.dev.rb (trunkReg 0x30) 31 =
    false) ∧ (State.reset.dev.xmemReady = false) := by decide
theorem witness_BuffersAndMemories_10 : ((start (rset (trunkReg 0x30) 0x80000010)).opens cpu (trunkReg 0x30) = true) := by decide
theorem witness_FramesSpillAndFill_1 : ((start (queued [⟨0, 1, 0, .spilling, false, 0⟩] none frame64)).dev.runs = true) ∧ (((start
    (queued [⟨0, 1, 0, .spilling, false, 0⟩] none frame64)).dev.tq (0 : Fin 352).val).descs.find? (fun y => decide (y.loc =
    .spilling)) = some (⟨0, 1, 0, .spilling, false, 0⟩ : Desc)) ∧ ((none : Option (Fin 18)).all (fun b => !(start (queued [⟨0, 1, 0,
    .spilling, false, 0⟩] none frame64)).dev.bankHolds b.val) = true) := by decide
theorem witness_FramesSpillAndFill_2 : ((start (queued [⟨0, 1, 0, .spilling, false, 0⟩] none frame64)).dev.runs = true) ∧ (((start
    (queued [⟨0, 1, 0, .spilling, false, 0⟩] none frame64)).dev.tq (0 : Fin 352).val).descs.find? (fun y => decide (y.loc =
    .spilling)) = some (⟨0, 1, 0, .spilling, false, 0⟩ : Desc)) ∧ (((start (queued [⟨0, 1, 0, .spilling, false, 0⟩] none
    frame64)).dev.stored (⟨0, 1, 0, .spilling, false, 0⟩ : Desc).frame).isSome = true) ∧ ((start (queued [⟨0, 1, 0, .spilling,
    false, 0⟩] none frame64)).dev.bankHolds (0 : Fin 18).val = true) := by decide
theorem witness_FramesSpillAndFill_3 : ((start fun d => rset (queueReg 0 0) 0 (queued [⟨0, 1, 0, .ovf, false, 0⟩] none frame64
    d)).dev.runs = true) ∧ (((start fun d => rset (queueReg 0 0) 0 (queued [⟨0, 1, 0, .ovf, false, 0⟩] none frame64 d)).dev.tq (0 :
    Fin 352).val).descs.find? (fun y => decide (y.loc = .ovf)) = some (⟨0, 1, 0, .ovf, false, 0⟩ : Desc)) ∧ ((start fun d => rset
    (queueReg 0 0) 0 (queued [⟨0, 1, 0, .ovf, false, 0⟩] none frame64 d)).dev.rf (trunkReg 0x1C) 16 0 ≤ (start fun d => rset
    (queueReg 0 0) 0 (queued [⟨0, 1, 0, .ovf, false, 0⟩] none frame64 d)).dev.freeCells) ∧ ((start fun d => rset (queueReg 0 0) 0
    (queued [⟨0, 1, 0, .ovf, false, 0⟩] none frame64 d)).dev.rf (queueReg (0 : Fin 352).val 0) 15 0 = 0 ∨ (start fun d => rset
    (queueReg 0 0) 0 (queued [⟨0, 1, 0, .ovf, false, 0⟩] none frame64 d)).dev.chipCells (0 : Fin 352).val < (start fun d => rset
    (queueReg 0 0) 0 (queued [⟨0, 1, 0, .ovf, false, 0⟩] none frame64 d)).dev.rf (queueReg (0 : Fin 352).val 0) 15 0) ∧ (((start fun
    d => rset (queueReg 0 0) 0 (queued [⟨0, 1, 0, .ovf, false, 0⟩] none frame64 d)).dev.tq (0 : Fin 352).val).descs.countP (fun y =>
    decide (y.loc = .filling)) < 8) ∧ ((start fun d => rset (queueReg 0 0) 0 (queued [⟨0, 1, 0, .ovf, false, 0⟩] none frame64
    d)).dev.trunk.queues.foldl (fun n e => n + e.2.descs.countP (fun y => decide (y.loc = .filling))) 0 < 256) ∧ ((start fun d =>
    rset (queueReg 0 0) 0 (queued [⟨0, 1, 0, .ovf, false, 0⟩] none frame64 d)).dev.reseqOcc (queuePort (0 : Fin 352).val) < 256) ∧
    (octetsIn (recent (start fun d => rset (queueReg 0 0) 0 (queued [⟨0, 1, 0, .ovf, false, 0⟩] none frame64 d)).dev.now (start fun
    d => rset (queueReg 0 0) 0 (queued [⟨0, 1, 0, .ovf, false, 0⟩] none frame64 d)).dev.trunk.fills) + (start fun d => rset
    (queueReg 0 0) 0 (queued [⟨0, 1, 0, .ovf, false, 0⟩] none frame64 d)).dev.descLen (⟨0, 1, 0, .ovf, false, 0⟩ : Desc) ≤ 150000)
    := by decide
theorem witness_FramesSpillAndFill_4 : ((start (queued [⟨0, 1, 0, .filling, false, 0⟩] none frame64)).dev.runs = true) ∧ (((start
    (queued [⟨0, 1, 0, .filling, false, 0⟩] none frame64)).dev.tq (0 : Fin 352).val).descs.find? (fun y => decide (y.seq = (0 :
    BitVec 16)) && decide (y.loc = .filling)) = some (⟨0, 1, 0, .filling, false, 0⟩ : Desc)) ∧ (seqAfter ((start (queued [⟨0, 1, 0,
    .filling, false, 0⟩] none frame64)).dev.nextSeq (0 : Fin 352).val) (0 : BitVec 16) = false) ∧ ((start (queued [⟨0, 1, 0,
    .filling, false, 0⟩] none frame64)).dev.fillRoom (0 : Fin 352).val (⟨0, 1, 0, .filling, false, 0⟩ : Desc) = true) := by decide
theorem witness_FramesSpillAndFill_5 : ((start fun d => rset (trunkReg 0) 0 (queued [⟨0, 1, 0, .filling, false, 0⟩] none frame64
    d)).dev.runs = true) ∧ (((start fun d => rset (trunkReg 0) 0 (queued [⟨0, 1, 0, .filling, false, 0⟩] none frame64 d)).dev.tq (0
    : Fin 352).val).descs.find? (fun y => decide (y.seq = (0 : BitVec 16)) && decide (y.loc = .filling)) = some (⟨0, 1, 0, .filling,
    false, 0⟩ : Desc)) ∧ (seqAfter ((start fun d => rset (trunkReg 0) 0 (queued [⟨0, 1, 0, .filling, false, 0⟩] none frame64
    d)).dev.nextSeq (0 : Fin 352).val) (0 : BitVec 16) = false) ∧ ((start fun d => rset (trunkReg 0) 0 (queued [⟨0, 1, 0, .filling,
    false, 0⟩] none frame64 d)).dev.fillRoom (0 : Fin 352).val (⟨0, 1, 0, .filling, false, 0⟩ : Desc) = false) := by decide
theorem witness_FramesSpillAndFill_6 : ((start (queued [⟨0, 1, 0, .filling, false, 0⟩] none frame64)).dev.runs = true) ∧ (((start
    (queued [⟨0, 1, 0, .filling, false, 0⟩] none frame64)).dev.tq (0 : Fin 352).val).descs.find? (fun y => decide (y.seq = (0 :
    BitVec 16)) && decide (y.loc = .filling)) = some (⟨0, 1, 0, .filling, false, 0⟩ : Desc)) := by decide
theorem witness_FramesSpillAndFill_7 : ((start fun d => atRaw 1000000000 (queued [⟨3, 1, 0, .chip, false, 0⟩] (some 0) frame64
    d)).dev.runs = true) ∧ (((start fun d => atRaw 1000000000 (queued [⟨3, 1, 0, .chip, false, 0⟩] (some 0) frame64 d)).dev.tq (0 :
    Fin 352).val).timer = some 0) ∧ (0 + (start fun d => atRaw 1000000000 (queued [⟨3, 1, 0, .chip, false, 0⟩] (some 0) frame64
    d)).dev.rf (trunkReg 0x20) 9 0 * usRaw ≤ (start fun d => atRaw 1000000000 (queued [⟨3, 1, 0, .chip, false, 0⟩] (some 0) frame64
    d)).dev.now) := by decide
theorem witness_FramesSpillAndFill_8 : (State.reset.dev.runs = true) ∧ ((State.reset.dev.tq (0 : Fin 352).val).timer = none) := by
    decide
theorem witness_FramesSpillAndFill_9 : ((start (rset (queueReg 0 8) 9)).dev.runs = true) ∧ ((start (rset (queueReg 0 8)
    9)).dev.trunk.avgUs ≤ (start (rset (queueReg 0 8) 9)).dev.now / usRaw) := by decide
theorem witness_FramesSpillAndFill_10 : ((start fun d => { d with trunk := { d.trunk with avgUs := 1 } }).dev.runs = true) ∧ ((start
    fun d => { d with trunk := { d.trunk with avgUs := 1 } }).dev.now / usRaw < (start fun d =>
    { d with trunk := { d.trunk with avgUs := 1 } }).dev.trunk.avgUs) := by decide
theorem witness_FramesSpillAndFill_11 : ((start fun d => atRaw 10000 (wset (streamAddr 0) 0x8000000000000001 (queued [⟨0, 1, 0,
    .chip, false, 0⟩] none { frame64 with stream := some 0 } d))).dev.runs = true) ∧ ((start fun d => atRaw 10000 (wset (streamAddr
    0) 0x8000000000000001 (queued [⟨0, 1, 0, .chip, false, 0⟩] none { frame64 with stream := some 0 } d))).dev.trunk.staleUs ≤
    (start fun d => atRaw 10000 (wset (streamAddr 0) 0x8000000000000001 (queued [⟨0, 1, 0, .chip, false, 0⟩] none
    { frame64 with stream := some 0 } d))).dev.now / usRaw) ∧ ((start fun d => atRaw 10000 (wset (streamAddr 0) 0x8000000000000001
    (queued [⟨0, 1, 0, .chip, false, 0⟩] none { frame64 with stream := some 0 } d))).dev.trunk.queues.map (·.1) = [(0 : Fin
    352).val]) ∧ ((start fun d => atRaw 10000 (wset (streamAddr 0) 0x8000000000000001 (queued [⟨0, 1, 0, .chip, false, 0⟩] none
    { frame64 with stream := some 0 } d))).dev.head (0 : Fin 352).val = some (⟨0, 1, 0, .chip, false, 0⟩ : Desc)) ∧ ((start fun d =>
    atRaw 10000 (wset (streamAddr 0) 0x8000000000000001 (queued [⟨0, 1, 0, .chip, false, 0⟩] none { frame64 with stream := some 0 }
    d))).dev.stored (⟨0, 1, 0, .chip, false, 0⟩ : Desc).frame = some { frame64 with stream := some 0 }) ∧ ((start fun d => atRaw
    10000 (wset (streamAddr 0) 0x8000000000000001 (queued [⟨0, 1, 0, .chip, false, 0⟩] none { frame64 with stream := some 0 }
    d))).dev.stale { frame64 with stream := some 0 } = true) := by decide
theorem witness_FramesSpillAndFill_12 : ((start (queued [⟨0, 1, 0, .chip, false, 0⟩] none frame64)).dev.runs = true) ∧ ((start
    (queued [⟨0, 1, 0, .chip, false, 0⟩] none frame64)).dev.trunk.staleUs ≤ (start (queued [⟨0, 1, 0, .chip, false, 0⟩] none
    frame64)).dev.now / usRaw) ∧ ((∀ e ∈ (start (queued [⟨0, 1, 0, .chip, false, 0⟩] none frame64)).dev.trunk.queues, ∀ x ∈ (start
    (queued [⟨0, 1, 0, .chip, false, 0⟩] none frame64)).dev.head e.1, ∀ f ∈ (start (queued [⟨0, 1, 0, .chip, false, 0⟩] none
    frame64)).dev.stored x.frame, (start (queued [⟨0, 1, 0, .chip, false, 0⟩] none frame64)).dev.stale f = false)) := by decide
theorem witness_GateListsCommitAndSwap_1 : ((start gated).opens cpu (crownReg (0 : Fin 36).val 0x10) = true) ∧ ((start
    gated).clocked (crownReg (0 : Fin 36).val 0x10) = true) ∧ (((start gated).dev.gate (0 : Fin 36).val).pending = none) ∧ ((start
    gated).dev.adminOk (0 : Fin 36).val = true) := by decide
theorem witness_GateListsCommitAndSwap_2 : (State.reset.opens cpu (crownReg (0 : Fin 36).val 0x10) = true) ∧ (State.reset.clocked
    (crownReg (0 : Fin 36).val 0x10) = true) ∧ ((State.reset.dev.gate (0 : Fin 36).val).pending = none) ∧ (State.reset.dev.adminOk
    (0 : Fin 36).val = false) := by decide
theorem witness_GateListsCommitAndSwap_3 : ((start (gatePend 5000)).opens cpu (crownReg (0 : Fin 36).val 0x10) = true) ∧ ((start
    (gatePend 5000)).clocked (crownReg (0 : Fin 36).val 0x10) = true) ∧ (((start (gatePend 5000)).dev.gate (0 : Fin 36).val).pending
    = some (⟨5000, 1, 400, 3, none⟩ : GatePending)) := by decide
theorem witness_GateListsCommitAndSwap_4 : ((start (gatePend 5000)).opens cpu (crownReg (0 : Fin 36).val 0x10) = true) ∧ ((start
    (gatePend 5000)).clocked (crownReg (0 : Fin 36).val 0x10) = true) ∧ (((start (gatePend 5000)).dev.gate (0 : Fin 36).val).pending
    = some (⟨5000, 1, 400, 3, none⟩ : GatePending)) ∧ ((start (gatePend 5000)).dev.wt < (⟨5000, 1, 400, 3, none⟩ : GatePending).cct)
    := by decide
theorem witness_GateListsCommitAndSwap_5 : ((start (gatePend 0)).opens cpu (crownReg (0 : Fin 36).val 0x10) = true) ∧ ((start
    (gatePend 0)).clocked (crownReg (0 : Fin 36).val 0x10) = true) ∧ (((start (gatePend 0)).dev.gate (0 : Fin 36).val).pending =
    some (⟨0, 1, 400, 3, none⟩ : GatePending)) ∧ ((⟨0, 1, 400, 3, none⟩ : GatePending).cct ≤ (start (gatePend 0)).dev.wt) := by
    decide
theorem witness_GateListsCommitAndSwap_6 : ((start (gatePend 0)).dev.runs = true) ∧ (((start (gatePend 0)).dev.gate (0 : Fin
    36).val).pending = some (⟨0, 1, 400, 3, none⟩ : GatePending)) ∧ ((⟨0, 1, 400, 3, none⟩ : GatePending).cct ≤ (start (gatePend
    0)).dev.wt) := by decide
theorem witness_GateListsCommitAndSwap_7 : ((start (gatePend 5000)).dev.runs = true) ∧ (((start (gatePend 5000)).dev.gate (0 : Fin
    36).val).pending = some (⟨5000, 1, 400, 3, none⟩ : GatePending)) ∧ ((start (gatePend 5000)).dev.wt < (⟨5000, 1, 400, 3, none⟩ :
    GatePending).cct) := by decide
theorem witness_GateListsCommitAndSwap_8 : ((start (gatePend 5000)).opens cpu (crownReg (0 : Fin 36).val 0x10) = true) ∧ ((start
    (gatePend 5000)).dev.rb (crownReg (0 : Fin 36).val 0x10) 31 = true) := by decide
theorem witness_GateListsCommitAndSwap_9 : ((start gated).dev.runs = true) ∧ (portPresent (start gated).dev.variant (0 : Fin 36).val
    = true) := by decide
theorem witness_TimeAdvances_1 : ((start fun d => (rset (camReg 0) 1 d)).dev.runs = true) ∧ ((start fun d => (rset (camReg 0) 1
    d)).dev.pllLock = true) ∧ ((start fun d => (rset (camReg 0) 1 d)).dev.cam.timeOff = false) := by decide
theorem witness_TimeAdvances_2 : ((start (rset (camReg 0) 2)).dev.runs = true) ∧ ((start (rset (camReg 0) 2)).dev.pllLock = false)
    := by decide
theorem witness_TimeAdvances_3 : ((start (rset (camReg 0) 2)).dev.cam.timeOff = false) := by decide
theorem witness_TimeAdvances_4 : ((start fun d =>
    { d with cam := { d.cam with timeOff := true, anchor := some (5, 1), coarse := 3 } }).dev.cam.timeOff = true) ∧ ((start fun d =>
    { d with cam := { d.cam with timeOff := true, anchor := some (5, 1), coarse := 3 } }).dev.cam.anchor = some ((5, 1) : Nat ×
    Nat)) := by decide
theorem witness_TimeAdvances_5 : ((start fun d =>
    { (rset (camReg 0) 1 d) with cam := { d.cam with timeOff := true, anchor := some (5, 1), coarse := 3 } }).dev.runs = true) ∧
    ((start fun d =>
    { (rset (camReg 0) 1 d) with cam := { d.cam with timeOff := true, anchor := some (5, 1), coarse := 3 } }).dev.cam.timeOff =
    true) ∧ ((start fun d =>
    { (rset (camReg 0) 1 d) with cam := { d.cam with timeOff := true, anchor := some (5, 1), coarse := 3 } }).dev.cam.anchor = some
    ((5, 1) : Nat × Nat)) ∧ (3 ≤ (start fun d =>
    { (rset (camReg 0) 1 d) with cam := { d.cam with timeOff := true, anchor := some (5, 1), coarse := 3 } }).dev.mode) ∧ ((start
    fun d => { (rset (camReg 0) 1 d) with cam := { d.cam with timeOff := true, anchor := some (5, 1), coarse := 3 } }).dev.pllLock =
    true) ∧ (((5, 1) : Nat × Nat).2 + 2 ≤ (start fun d =>
    { (rset (camReg 0) 1 d) with cam := { d.cam with timeOff := true, anchor := some (5, 1), coarse := 3 } }).dev.cam.coarse) := by
    decide
theorem witness_TimeAdvances_6 : (State.reset.dev.runs = true) ∧ (State.reset.dev.cam.timeOff = false) := by decide
theorem witness_TimeAdvances_7 : ((start (rset (camReg 0x204) 4)).opens cpu (camReg 0x200) = true) ∧ ((start (rset (camReg 0x204)
    4)).clocked (camReg 0x200) = true) ∧ ((start (rset (camReg 0x204) 4)).dev.wtLive = true) ∧ ((start (rset (camReg 0x204)
    4)).dev.offOk ((start (rset (camReg 0x204) 4)).dev.wt - (start (rset (camReg 0x204) 4)).dev.domTime (1 - (start (rset (camReg
    0x204) 4)).dev.sel) (start (rset (camReg 0x204) 4)).dev.now) = true) := by decide
theorem witness_TimeAdvances_8 : ((start fun d => rset (domReg 1 0x50) 5 (rset (camReg 0x204) 4 d)).opens cpu (camReg 0x200) = true)
    ∧ ((start fun d => rset (domReg 1 0x50) 5 (rset (camReg 0x204) 4 d)).clocked (camReg 0x200) = true) ∧ ((start fun d => rset
    (domReg 1 0x50) 5 (rset (camReg 0x204) 4 d)).dev.wtLive = true) ∧ ((start fun d => rset (domReg 1 0x50) 5 (rset (camReg 0x204) 4
    d)).dev.offOk ((start fun d => rset (domReg 1 0x50) 5 (rset (camReg 0x204) 4 d)).dev.wt - (start fun d => rset (domReg 1 0x50) 5
    (rset (camReg 0x204) 4 d)).dev.domTime (1 - (start fun d => rset (domReg 1 0x50) 5 (rset (camReg 0x204) 4 d)).dev.sel) (start
    fun d => rset (domReg 1 0x50) 5 (rset (camReg 0x204) 4 d)).dev.now) = false) := by decide
theorem witness_TimeAdvances_9 : (State.reset.opens cpu (camReg 0x200) = true) ∧ (State.reset.clocked (camReg 0x200) = true) ∧
    (State.reset.dev.wtLive = false) := by decide
theorem witness_TimeAdvances_10 : ((start (rset (camReg 0x204) 6)).dev.runs = true) ∧ ((start (rset (camReg 0x204) 6)).dev.rb
    (camReg 0x204) 1 = true) ∧ ((start (rset (camReg 0x204) 6)).dev.offAt (start (rset (camReg 0x204) 6)).dev.now = 0) := by decide
theorem witness_TimeAdvances_11 : ((start fun d => { d with cam := { d.cam with off := 2 ^ 40 } }).dev.runs = true) ∧ ((start fun d
    => { d with cam := { d.cam with off := 2 ^ 40 } }).dev.offAt (start fun d =>
    { d with cam := { d.cam with off := 2 ^ 40 } }).dev.now ≠ 0) := by decide
theorem witness_DomainsLockAndCommit_1 : (State.reset.opens cpu (domReg (0 : Fin 2).val 0) = true) ∧ (State.reset.dev.rb (domReg (0
    : Fin 2).val 0) 31 = false) ∧ (State.reset.dev.domState (0 : Fin 2).val = 0) := by decide
theorem witness_DomainsLockAndCommit_2 : ((start fun d => (rset (domReg 0 4) 2 (rset (domReg 0 0) 0xC0000000 (d)))).opens cpu
    (domReg (0 : Fin 2).val 0) = true) ∧ ((start fun d => (rset (domReg 0 4) 2 (rset (domReg 0 0) 0xC0000000 (d)))).dev.rb (domReg
    (0 : Fin 2).val 0) 31 = true) ∧ ((start fun d => (rset (domReg 0 4) 2 (rset (domReg 0 0) 0xC0000000 (d)))).dev.domState (0 : Fin
    2).val ≠ 0) := by decide
theorem witness_DomainsLockAndCommit_3 : ((start fun d => rset (domReg 0 0x20) 5 (rset (domReg 0 4) 1 (rset (domReg 0 0) 0xC0000000
    (d)))).opens cpu (domReg (0 : Fin 2).val 0) = true) ∧ ((start fun d => rset (domReg 0 0x20) 5 (rset (domReg 0 4) 1 (rset (domReg
    0 0) 0xC0000000 (d)))).clocked (domReg (0 : Fin 2).val 0) = true) ∧ (((start fun d => rset (domReg 0 0x20) 5 (rset (domReg 0 4)
    1 (rset (domReg 0 0) 0xC0000000 (d)))).dev.triple (domReg (0 : Fin 2).val 0x10)).br ≤ (start fun d => rset (domReg 0 0x20) 5
    (rset (domReg 0 4) 1 (rset (domReg 0 0) 0xC0000000 (d)))).dev.now) ∧ ((start fun d => rset (domReg 0 0x20) 5 (rset (domReg 0 4)
    1 (rset (domReg 0 0) 0xC0000000 (d)))).dev.rf (domReg (0 : Fin 2).val 0x24) 29 0 ≤ 999999999) ∧ ((start fun d => rset (domReg 0
    0x20) 5 (rset (domReg 0 4) 1 (rset (domReg 0 0) 0xC0000000 (d)))).dev.domState (0 : Fin 2).val ≠ 0) ∧ (((start fun d => rset
    (domReg 0 0x20) 5 (rset (domReg 0 4) 1 (rset (domReg 0 0) 0xC0000000 (d)))).dev.wtLive && decide ((start fun d => rset (domReg 0
    0x20) 5 (rset (domReg 0 4) 1 (rset (domReg 0 0) 0xC0000000 (d)))).dev.sel = (0 : Fin 2).val)) = false) := by decide
theorem witness_DomainsLockAndCommit_4 : ((start fun d => rset (camReg 0x204) 4 (rset (domReg 0 4) 2 (rset (domReg 0 0) 0xC0000000
    (d)))).opens cpu (domReg (0 : Fin 2).val 0) = true) ∧ ((start fun d => rset (camReg 0x204) 4 (rset (domReg 0 4) 2 (rset (domReg
    0 0) 0xC0000000 (d)))).clocked (domReg (0 : Fin 2).val 0) = true) ∧ ((start fun d => rset (camReg 0x204) 4 (rset (domReg 0 4) 2
    (rset (domReg 0 0) 0xC0000000 (d)))).dev.rf (domReg (0 : Fin 2).val 0x24) 29 0 ≤ 999999999) ∧ (((start fun d => rset (camReg
    0x204) 4 (rset (domReg 0 4) 2 (rset (domReg 0 0) 0xC0000000 (d)))).dev.triple (domReg (0 : Fin 2).val 0x10)).br ≤ (start fun d
    => rset (camReg 0x204) 4 (rset (domReg 0 4) 2 (rset (domReg 0 0) 0xC0000000 (d)))).dev.now) ∧ ((start fun d => rset (camReg
    0x204) 4 (rset (domReg 0 4) 2 (rset (domReg 0 0) 0xC0000000 (d)))).dev.domState (0 : Fin 2).val ≠ 0) ∧ ((start fun d => rset
    (camReg 0x204) 4 (rset (domReg 0 4) 2 (rset (domReg 0 0) 0xC0000000 (d)))).dev.wtLive = true) ∧ ((start fun d => rset (camReg
    0x204) 4 (rset (domReg 0 4) 2 (rset (domReg 0 0) 0xC0000000 (d)))).dev.sel = (0 : Fin 2).val) ∧ ((start fun d => rset (camReg
    0x204) 4 (rset (domReg 0 4) 2 (rset (domReg 0 0) 0xC0000000 (d)))).dev.offOk ((start fun d => rset (camReg 0x204) 4 (rset
    (domReg 0 4) 2 (rset (domReg 0 0) 0xC0000000 (d)))).dev.offAt (start fun d => rset (camReg 0x204) 4 (rset (domReg 0 4) 2 (rset
    (domReg 0 0) 0xC0000000 (d)))).dev.now + (start fun d => rset (camReg 0x204) 4 (rset (domReg 0 4) 2 (rset (domReg 0 0)
    0xC0000000 (d)))).dev.domTime (0 : Fin 2).val (start fun d => rset (camReg 0x204) 4 (rset (domReg 0 4) 2 (rset (domReg 0 0)
    0xC0000000 (d)))).dev.now - ((start fun d => rset (camReg 0x204) 4 (rset (domReg 0 4) 2 (rset (domReg 0 0) 0xC0000000
    (d)))).dev.triple (domReg (0 : Fin 2).val 0x10)).time (start fun d => rset (camReg 0x204) 4 (rset (domReg 0 4) 2 (rset (domReg 0
    0) 0xC0000000 (d)))).dev.now) = true) := by decide
theorem witness_DomainsLockAndCommit_5 : (State.reset.opens cpu (domReg (0 : Fin 2).val 0) = true) ∧ (State.reset.clocked (domReg (0
    : Fin 2).val 0) = true) ∧ ((State.reset.dev.now < (State.reset.dev.triple (domReg (0 : Fin 2).val 0x10)).br ∨ 999999999 <
    State.reset.dev.rf (domReg (0 : Fin 2).val 0x24) 29 0 ∨ State.reset.dev.domState (0 : Fin 2).val = 0)) := by decide
theorem witness_DomainsLockAndCommit_6 : ((start fun d => (rset (domReg 0 4) 1 (rset (domReg 0 0) 0xC0000000 (d)))).opens cpu
    (domReg (0 : Fin 2).val 0) = true) ∧ ((start fun d => (rset (domReg 0 4) 1 (rset (domReg 0 0) 0xC0000000 (d)))).clocked (domReg
    (0 : Fin 2).val 0) = true) ∧ (((start fun d => (rset (domReg 0 4) 1 (rset (domReg 0 0) 0xC0000000 (d)))).dev.domState (0 : Fin
    2).val = 1 ∨ (start fun d => (rset (domReg 0 4) 1 (rset (domReg 0 0) 0xC0000000 (d)))).dev.domState (0 : Fin 2).val = 3)) ∧
    (((start fun d => (rset (domReg 0 4) 1 (rset (domReg 0 0) 0xC0000000 (d)))).dev.rb (domReg (0 : Fin 2).val 0) 30 = true ∨ (start
    fun d => (rset (domReg 0 4) 1 (rset (domReg 0 0) 0xC0000000 (d)))).dev.rb (domReg (0 : Fin 2).val 4) 3 = true)) := by decide
theorem witness_DomainsLockAndCommit_7 : (State.reset.opens cpu (domReg (0 : Fin 2).val 0) = true) ∧ (State.reset.clocked (domReg (0
    : Fin 2).val 0) = true) ∧ ((State.reset.dev.domState (0 : Fin 2).val ≠ 1 ∧ State.reset.dev.domState (0 : Fin 2).val ≠ 3) ∨
    (State.reset.dev.rb (domReg (0 : Fin 2).val 0) 30 = false ∧ State.reset.dev.rb (domReg (0 : Fin 2).val 4) 3 = false)) := by
    decide
theorem witness_DomainsLockAndCommit_8 : ((start fun d => (rset (domReg 0 4) 3 (rset (domReg 0 0) 0xC0000000 (d)))).opens cpu
    (domReg (0 : Fin 2).val 0) = true) ∧ ((start fun d => (rset (domReg 0 4) 3 (rset (domReg 0 0) 0xC0000000 (d)))).clocked (domReg
    (0 : Fin 2).val 0) = true) ∧ (2 ≤ (start fun d => (rset (domReg 0 4) 3 (rset (domReg 0 0) 0xC0000000 (d)))).dev.domState (0 :
    Fin 2).val) := by decide
theorem witness_DomainsLockAndCommit_9 : ((start fun d => (rset (domReg 0 4) 2 (rset (domReg 0 0) 0xC0000000 (d)))).opens cpu
    (domReg (0 : Fin 2).val 0) = true) ∧ ((start fun d => (rset (domReg 0 4) 2 (rset (domReg 0 0) 0xC0000000 (d)))).clocked (domReg
    (0 : Fin 2).val 0) = true) ∧ (2 ≤ (start fun d => (rset (domReg 0 4) 2 (rset (domReg 0 0) 0xC0000000 (d)))).dev.domState (0 :
    Fin 2).val) := by decide
theorem witness_DomainsLockAndCommit_10 : ((start fun d => atRaw 1000000000000
    { (rset (domReg 0 4) 10 (rset (domReg 0 0) 0x80000000 d)) with cam := { d.cam with sync := [(0, some 0)] } }).dev.runs = true) ∧
    ((start fun d => atRaw 1000000000000
    { (rset (domReg 0 4) 10 (rset (domReg 0 0) 0x80000000 d)) with cam := { d.cam with sync := [(0, some 0)] } }).dev.cam.sync.get
    none (0 : Fin 2).val = some 0) ∧ (0 + (start fun d => atRaw 1000000000000
    { (rset (domReg 0 4) 10 (rset (domReg 0 0) 0x80000000 d)) with cam := { d.cam with sync := [(0, some 0)] } }).dev.rf (domReg (0
    : Fin 2).val 8) 15 0 * msRaw ≤ (start fun d => atRaw 1000000000000
    { (rset (domReg 0 4) 10 (rset (domReg 0 0) 0x80000000 d)) with cam := { d.cam with sync := [(0, some 0)] } }).dev.now) ∧ ((start
    fun d => atRaw 1000000000000
    { (rset (domReg 0 4) 10 (rset (domReg 0 0) 0x80000000 d)) with cam := { d.cam with sync := [(0, some 0)] } }).dev.domState (0 :
    Fin 2).val = 2) ∧ ((start fun d => atRaw 1000000000000
    { (rset (domReg 0 4) 10 (rset (domReg 0 0) 0x80000000 d)) with cam := { d.cam with sync := [(0, some 0)] } }).dev.rb (domReg (0
    : Fin 2).val 0) 30 = false) ∧ (((start fun d => atRaw 1000000000000
    { (rset (domReg 0 4) 10 (rset (domReg 0 0) 0x80000000 d)) with cam := { d.cam with sync := [(0, some 0)] } }).dev.sel ≠ (0 : Fin
    2).val ∨ (start fun d => atRaw 1000000000000
    { (rset (domReg 0 4) 10 (rset (domReg 0 0) 0x80000000 d)) with cam := { d.cam with sync := [(0, some 0)] } }).dev.rb (camReg
    0x200) 1 = false)) := by decide
theorem witness_DomainsLockAndCommit_11 : (State.reset.dev.runs = true) ∧ (State.reset.dev.cam.sync.get none (0 : Fin 2).val = none)
    := by decide
theorem witness_SnapshotsAndEdges_1 : ((start (atRaw 1000)).opens cpu (camReg 0x10) = true) ∧ ((start (atRaw 1000)).clocked (camReg
    0x10) = true) := by decide
theorem witness_SnapshotsAndEdges_2 : ((start (rset (camReg 0x508) 3)).opens cpu (camReg 0x50C) = true) ∧ (((2 : BitVec 32) - (start
    (rset (camReg 0x508) 3)).dev.reg (camReg 0x50C)).toNat ≤ (start (rset (camReg 0x508) 3)).dev.txtsHeld) := by decide
theorem witness_SnapshotsAndEdges_3 : ((start (rset (camReg 0x508) 3)).opens cpu (camReg 0x50C) = true) ∧ ((start (rset (camReg
    0x508) 3)).dev.txtsHeld < ((4 : BitVec 32) - (start (rset (camReg 0x508) 3)).dev.reg (camReg 0x50C)).toNat) := by decide
theorem witness_SnapshotsAndEdges_4 : ((start (rset (capReg 1 0) 0x80000001)).dev.runs = true) ∧ ((start (rset (capReg 1 0)
    0x80000001)).dev.rb (capReg (1 : Fin 4).val 0) 31 = true) ∧ ((start (rset (capReg 1 0) 0x80000001)).dev.rb (capReg (1 : Fin
    4).val 0) (if true then 0 else 1) = true) ∧ (((start (rset (capReg 1 0) 0x80000001)).dev.cam.capLast.get none (1 : Fin
    4).val).all (fun x => decide (x + usRaw ≤ (start (rset (capReg 1 0) 0x80000001)).dev.now)) = true) := by decide
theorem witness_SnapshotsAndEdges_5 : ((start fun d =>
    { rset (capReg 1 0) 0x80000001 d with cam := { d.cam with capLast := [(1, some 0)] } }).dev.runs = true) ∧ ((start fun d =>
    { rset (capReg 1 0) 0x80000001 d with cam := { d.cam with capLast := [(1, some 0)] } }).dev.rb (capReg (1 : Fin 4).val 0) 31 =
    true) ∧ ((start fun d => { rset (capReg 1 0) 0x80000001 d with cam := { d.cam with capLast := [(1, some 0)] } }).dev.rb (capReg
    (1 : Fin 4).val 0) (if true then 0 else 1) = true) ∧ ((start fun d =>
    { rset (capReg 1 0) 0x80000001 d with cam := { d.cam with capLast := [(1, some 0)] } }).dev.cam.capLast.get none (1 : Fin 4).val
    = some 0) ∧ ((start fun d => { rset (capReg 1 0) 0x80000001 d with cam := { d.cam with capLast := [(1, some 0)] } }).dev.now < 0
    + usRaw) := by decide
theorem witness_SnapshotsAndEdges_6 : (State.reset.dev.runs = true) ∧ (State.reset.dev.rb (capReg (1 : Fin 4).val 0) 31 = false ∨
    State.reset.dev.rb (capReg (1 : Fin 4).val 0) (if true then 0 else 1) = false) := by decide
theorem witness_SnapshotsAndEdges_7 : ((start fun d => rset (ppsReg 0 8) 100 (rset (ppsReg 0 4) 1000 d)).opens cpu (ppsReg (0 : Fin
    4).val 0) = true) ∧ ((start fun d => rset (ppsReg 0 8) 100 (rset (ppsReg 0 4) 1000 d)).dev.rb (ppsReg (0 : Fin 4).val 0) 31 =
    false) ∧ ((100 ≤ ((start fun d => rset (ppsReg 0 8) 100 (rset (ppsReg 0 4) 1000 d)).dev.reg (ppsReg (0 : Fin 4).val 4)).toNat ∧
    ((start fun d => rset (ppsReg 0 8) 100 (rset (ppsReg 0 4) 1000 d)).dev.reg (ppsReg (0 : Fin 4).val 4)).toNat ≤ 4000000000 ∧ 10 ≤
    ((start fun d => rset (ppsReg 0 8) 100 (rset (ppsReg 0 4) 1000 d)).dev.reg (ppsReg (0 : Fin 4).val 8)).toNat ∧ ((start fun d =>
    rset (ppsReg 0 8) 100 (rset (ppsReg 0 4) 1000 d)).dev.reg (ppsReg (0 : Fin 4).val 8)).toNat + 10 ≤ ((start fun d => rset (ppsReg
    0 8) 100 (rset (ppsReg 0 4) 1000 d)).dev.reg (ppsReg (0 : Fin 4).val 4)).toNat ∧ (start fun d => rset (ppsReg 0 8) 100 (rset
    (ppsReg 0 4) 1000 d)).dev.rf (ppsReg (0 : Fin 4).val 0xC) 29 0 ≤ 999999999)) := by decide
theorem witness_SnapshotsAndEdges_8 : ((start fun d => rset (ppsReg 0 8) 5 d).opens cpu (ppsReg (0 : Fin 4).val 0) = true) ∧ ((start
    fun d => rset (ppsReg 0 8) 5 d).dev.rb (ppsReg (0 : Fin 4).val 0) 31 = false) ∧ (¬ (100 ≤ ((start fun d => rset (ppsReg 0 8) 5
    d).dev.reg (ppsReg (0 : Fin 4).val 4)).toNat ∧ ((start fun d => rset (ppsReg 0 8) 5 d).dev.reg (ppsReg (0 : Fin 4).val 4)).toNat
    ≤ 4000000000 ∧ 10 ≤ ((start fun d => rset (ppsReg 0 8) 5 d).dev.reg (ppsReg (0 : Fin 4).val 8)).toNat ∧ ((start fun d => rset
    (ppsReg 0 8) 5 d).dev.reg (ppsReg (0 : Fin 4).val 8)).toNat + 10 ≤ ((start fun d => rset (ppsReg 0 8) 5 d).dev.reg (ppsReg (0 :
    Fin 4).val 4)).toNat ∧ (start fun d => rset (ppsReg 0 8) 5 d).dev.rf (ppsReg (0 : Fin 4).val 0xC) 29 0 ≤ 999999999)) := by
    decide
theorem witness_SnapshotsAndEdges_9 : ((start (rset (ppsReg 0 0) 0x80000000)).opens cpu (ppsReg (0 : Fin 4).val 0) = true) ∧ ((start
    (rset (ppsReg 0 0) 0x80000000)).dev.rb (ppsReg (0 : Fin 4).val 0) 31 = true) := by decide
theorem witness_SnapshotsAndEdges_10 : ((start fun d => { d with cam := { d.cam with pps := [(0, some (0, false))] } }).dev.runs =
    true) ∧ ((start fun d => { d with cam := { d.cam with pps := [(0, some (0, false))] } }).dev.pps (0 : Fin 4).val = some ((0 :
    Int), false)) ∧ ((0 : Int) ≤ (start fun d => { d with cam := { d.cam with pps := [(0, some (0, false))] } }).dev.wt) ∧ ((start
    fun d => { d with cam := { d.cam with pps := [(0, some (0, false))] } }).dev.cam.timeOff = false) := by decide
theorem witness_SnapshotsAndEdges_11 : ((start fun d =>
    { d with cam := { d.cam with pps := [(0, some (2 ^ 60, false))] } }).dev.runs = true) ∧ ((start fun d =>
    { d with cam := { d.cam with pps := [(0, some (2 ^ 60, false))] } }).dev.pps (0 : Fin 4).val = some ((2 ^ 60 : Int), false)) ∧
    ((start fun d => { d with cam := { d.cam with pps := [(0, some (2 ^ 60, false))] } }).dev.wt < (2 ^ 60 : Int)) := by decide
theorem witness_SnapshotsAndEdges_12 : (State.reset.dev.runs = true) ∧ (State.reset.dev.cam.wireHigh ≠ decide (nsOf
    State.reset.dev.wt < 500000000)) := by decide
theorem witness_SnapshotsAndEdges_13 : ((start fun d => { d with cam := { d.cam with wireHigh := true } }).dev.runs = true) ∧
    ((start fun d => { d with cam := { d.cam with wireHigh := true } }).dev.cam.wireHigh = decide (nsOf (start fun d =>
    { d with cam := { d.cam with wireHigh := true } }).dev.wt < 500000000)) := by decide
theorem witness_ConnectionTableRuns_1 : ((start fun d => rset (trunkReg 0x34) 0x70000000 (rset (barkReg 0) 0xA0000 (xmem d))).opens
    cpu (barkReg 0) = true) ∧ ((start fun d => rset (trunkReg 0x34) 0x70000000 (rset (barkReg 0) 0xA0000 (xmem d))).dev.rb (barkReg
    0) 31 = false) ∧ ((start fun d => rset (trunkReg 0x34) 0x70000000 (rset (barkReg 0) 0xA0000 (xmem d))).dev.xmemReady = true) ∧
    (10 ≤ (start fun d => rset (trunkReg 0x34) 0x70000000 (rset (barkReg 0) 0xA0000 (xmem d))).dev.rf (barkReg 0) 20 16) ∧ ((start
    fun d => rset (trunkReg 0x34) 0x70000000 (rset (barkReg 0) 0xA0000 (xmem d))).dev.rf (barkReg 0) 20 16 ≤ 22) ∧ ((start fun d =>
    rset (trunkReg 0x34) 0x70000000 (rset (barkReg 0) 0xA0000 (xmem d))).dev.ctRegion.1 + (start fun d => rset (trunkReg 0x34)
    0x70000000 (rset (barkReg 0) 0xA0000 (xmem d))).dev.ctRegion.2 ≤ (start fun d => rset (trunkReg 0x34) 0x70000000 (rset (barkReg
    0) 0xA0000 (xmem d))).dev.xmemSize) ∧ (overlaps (start fun d => rset (trunkReg 0x34) 0x70000000 (rset (barkReg 0) 0xA0000 (xmem
    d))).dev.ctRegion (start fun d => rset (trunkReg 0x34) 0x70000000 (rset (barkReg 0) 0xA0000 (xmem d))).dev.ovfRegion = false) ∧
    (((start fun d => rset (trunkReg 0x34) 0x70000000 (rset (barkReg 0) 0xA0000 (xmem d))).dev.rb (tapReg 0x80) 31 && overlaps
    (start fun d => rset (trunkReg 0x34) 0x70000000 (rset (barkReg 0) 0xA0000 (xmem d))).dev.ctRegion (start fun d => rset (trunkReg
    0x34) 0x70000000 (rset (barkReg 0) 0xA0000 (xmem d))).dev.saveRegion) = false) ∧ ((start fun d => rset (trunkReg 0x34)
    0x70000000 (rset (barkReg 0) 0xA0000 (xmem d))).dev.rf (barkReg 0x14) 25 0 = 0) := by decide
theorem witness_ConnectionTableRuns_2 : (State.reset.opens cpu (barkReg 0) = true) ∧ (State.reset.dev.rb (barkReg 0) 31 = false) ∧
    ((State.reset.dev.xmemReady = false ∨ State.reset.dev.rf (barkReg 0) 20 16 < 10 ∨ 22 < State.reset.dev.rf (barkReg 0) 20 16 ∨
    State.reset.dev.xmemSize < State.reset.dev.ctRegion.1 + State.reset.dev.ctRegion.2 ∨ overlaps State.reset.dev.ctRegion
    State.reset.dev.ovfRegion = true ∨ (State.reset.dev.rb (tapReg 0x80) 31 && overlaps State.reset.dev.ctRegion
    State.reset.dev.saveRegion) = true ∨ State.reset.dev.rf (barkReg 0x14) 25 0 ≠ 0)) := by decide
theorem witness_ConnectionTableRuns_3 : ((start (rset (barkReg 0) 0x800A0000)).opens cpu (barkReg 0) = true) ∧ ((start (rset
    (barkReg 0) 0x800A0000)).dev.rb (barkReg 0) 31 = true) ∧ ((start (rset (barkReg 0) 0x800A0000)).dev.rf (barkReg 0x14) 25 0 = 0)
    := by decide
theorem witness_ConnectionTableRuns_4 : ((start (rset (barkReg 0x14) 3 ∘ rset (barkReg 0) 0x800A0000)).opens cpu (barkReg 0) = true)
    ∧ ((start (rset (barkReg 0x14) 3 ∘ rset (barkReg 0) 0x800A0000)).dev.rb (barkReg 0) 31 = true) ∧ ((start (rset (barkReg 0x14) 3
    ∘ rset (barkReg 0) 0x800A0000)).dev.rf (barkReg 0x14) 25 0 ≠ 0) := by decide
theorem witness_ConnectionTableRuns_5 : ((start fun d =>
    { rset (barkReg 4) 4 (rset (barkReg 0) 0x800A0000 d) with bark := { d.bark with conns := [] } }).dev.runs = true) ∧ ((start fun
    d => { rset (barkReg 4) 4 (rset (barkReg 0) 0x800A0000 d) with bark := { d.bark with conns := [] } }).dev.rb (barkReg 4) 2 =
    true) ∧ ((start fun d =>
    { rset (barkReg 4) 4 (rset (barkReg 0) 0x800A0000 d) with bark := { d.bark with conns := [] } }).dev.bark.conns = []) := by
    decide
theorem witness_ConnectionTableRuns_6 : (State.reset.dev.runs = true) ∧ (State.reset.dev.rb (barkReg 4) 2 = false) := by decide
theorem witness_ConnectionTableRuns_7 : (State.reset.opens cpu (barkReg 0x10) = true) ∧ (State.reset.dev.rf (barkReg 0x14) 25 0 = 0)
    := by decide
theorem witness_ConnectionTableRuns_8 : ((start (rset (barkReg 0x14) 1)).opens cpu (barkReg 0x10) = true) ∧ ((start (rset (barkReg
    0x14) 1)).dev.rf (barkReg 0x14) 25 0 ≠ 0) := by decide
theorem witness_ConnectionTableRuns_9 : ((start fun d => connected (conn0 1 2 7) (rset (barkReg 4) 0x1000000 d)).dev.runs = true) ∧
    ((start fun d => connected (conn0 1 2 7) (rset (barkReg 4) 0x1000000 d)).dev.bark.conns.wf (fun _ => none) = true) ∧ ((start fun
    d => connected (conn0 1 2 7) (rset (barkReg 4) 0x1000000 d)).dev.bark.flushing = none) ∧ ((start fun d => connected (conn0 1 2
    7) (rset (barkReg 4) 0x1000000 d)).dev.bark.genDue = false) := by decide
theorem witness_ConnectionTableRuns_10 : ((start fun d => connected (conn0 1 2 7)
    { d with bark := { d.bark with genDue := true, sweeps := 65535 } }).dev.runs = true) ∧ ((start fun d => connected (conn0 1 2 7)
    { d with bark := { d.bark with genDue := true, sweeps := 65535 } }).dev.bark.conns.wf (fun _ => none) = true) ∧ ((start fun d =>
    connected (conn0 1 2 7) { d with bark := { d.bark with genDue := true, sweeps := 65535 } }).dev.bark.genDue = true) ∧ (2 ^
    (start fun d => connected (conn0 1 2 7) { d with bark := { d.bark with genDue := true, sweeps := 65535 } }).dev.bucketBits ≤
    (start fun d => connected (conn0 1 2 7) { d with bark := { d.bark with genDue := true, sweeps := 65535 } }).dev.bark.sweeps + 1)
    := by decide
theorem witness_ConnectionTableRuns_11 : ((start fun d =>
    { { ring 3 d with basjo := (ring 3 d).basjo.setRing 0 0 { RingRun.idle with running := some ⟨(cmdOp 1 0x30 2 0x1000000000000 0 0 0 0), 1, 0⟩ } } with bark := { d.bark with flushing := some (cmdOp 1 0x30 2 0x1000000000000 0 0 0 0), sweeps := 65535 } }).dev.runs
    = true) ∧ ((start fun d =>
    { { ring 3 d with basjo := (ring 3 d).basjo.setRing 0 0 { RingRun.idle with running := some ⟨(cmdOp 1 0x30 2 0x1000000000000 0 0 0 0), 1, 0⟩ } } with bark := { d.bark with flushing := some (cmdOp 1 0x30 2 0x1000000000000 0 0 0 0), sweeps := 65535 } }).dev.bark.conns.wf
    (fun _ => none) = true) ∧ ((start fun d =>
    { { ring 3 d with basjo := (ring 3 d).basjo.setRing 0 0 { RingRun.idle with running := some ⟨(cmdOp 1 0x30 2 0x1000000000000 0 0 0 0), 1, 0⟩ } } with bark := { d.bark with flushing := some (cmdOp 1 0x30 2 0x1000000000000 0 0 0 0), sweeps := 65535 } }).dev.bark.genDue
    = false) ∧ ((start fun d =>
    { { ring 3 d with basjo := (ring 3 d).basjo.setRing 0 0 { RingRun.idle with running := some ⟨(cmdOp 1 0x30 2 0x1000000000000 0 0 0 0), 1, 0⟩ } } with bark := { d.bark with flushing := some (cmdOp 1 0x30 2 0x1000000000000 0 0 0 0), sweeps := 65535 } }).dev.bark.flushing
    = some (cmdOp 1 0x30 2 0x1000000000000 0 0 0 0)) ∧ (2 ^ (start fun d =>
    { { ring 3 d with basjo := (ring 3 d).basjo.setRing 0 0 { RingRun.idle with running := some ⟨(cmdOp 1 0x30 2 0x1000000000000 0 0 0 0), 1, 0⟩ } } with bark := { d.bark with flushing := some (cmdOp 1 0x30 2 0x1000000000000 0 0 0 0), sweeps := 65535 } }).dev.bucketBits
    ≤ (start fun d =>
    { { ring 3 d with basjo := (ring 3 d).basjo.setRing 0 0 { RingRun.idle with running := some ⟨(cmdOp 1 0x30 2 0x1000000000000 0 0 0 0), 1, 0⟩ } } with bark := { d.bark with flushing := some (cmdOp 1 0x30 2 0x1000000000000 0 0 0 0), sweeps := 65535 } }).dev.bark.sweeps
    + 1) ∧ ((start fun d =>
    { { ring 3 d with basjo := (ring 3 d).basjo.setRing 0 0 { RingRun.idle with running := some ⟨(cmdOp 1 0x30 2 0x1000000000000 0 0 0 0), 1, 0⟩ } } with bark := { d.bark with flushing := some (cmdOp 1 0x30 2 0x1000000000000 0 0 0 0), sweeps := 65535 } }).dev.basjo.ringType
    (cmdOp 1 0x30 2 0x1000000000000 0 0 0 0).host.val (cmdOp 1 0x30 2 0x1000000000000 0 0 0 0).ring.val = 3) ∧ ((start fun d =>
    { { ring 3 d with basjo := (ring 3 d).basjo.setRing 0 0 { RingRun.idle with running := some ⟨(cmdOp 1 0x30 2 0x1000000000000 0 0 0 0), 1, 0⟩ } } with bark := { d.bark with flushing := some (cmdOp 1 0x30 2 0x1000000000000 0 0 0 0), sweeps := 65535 } }).dev.basjo.ringActive
    (cmdOp 1 0x30 2 0x1000000000000 0 0 0 0).host.val (cmdOp 1 0x30 2 0x1000000000000 0 0 0 0).ring.val = true) ∧ (((start fun d =>
    { { ring 3 d with basjo := (ring 3 d).basjo.setRing 0 0 { RingRun.idle with running := some ⟨(cmdOp 1 0x30 2 0x1000000000000 0 0 0 0), 1, 0⟩ } } with bark := { d.bark with flushing := some (cmdOp 1 0x30 2 0x1000000000000 0 0 0 0), sweeps := 65535 } }).dev.basjo.ring
    (cmdOp 1 0x30 2 0x1000000000000 0 0 0 0).host.val (cmdOp 1 0x30 2 0x1000000000000 0 0 0 0).ring.val).running = some ⟨(cmdOp 1
    0x30 2 0x1000000000000 0 0 0 0), 1, 0⟩) ∧ ((cmdOp 1 0x30 2 0x1000000000000 0 0 0 0).writeErr = false) := by decide
theorem witness_ConnectionTableRuns_12 : ((start fun d => { ring 3 d with bark := { d.bark with sweeps := 65536 } }).starts (cmdOp 1
    0x30 2 0x1000000000000 0 0 0 0) 0x30 2 1 [0x0001013F3F01FFFF, 0, 0, 0, 0] = true) ∧ (bit (cmdOp 1 0x30 2 0x1000000000000 0 0 0
    0).p8 48 = true) ∧ (bit (cmdOp 1 0x30 2 0x1000000000000 0 0 0 0).p8 40 = false) ∧ (bit (cmdOp 1 0x30 2 0x1000000000000 0 0 0
    0).p8 16 = false) ∧ ((start fun d => { ring 3 d with bark := { d.bark with sweeps := 65536 } }).dev.passDone = true) := by
    decide
theorem witness_ConnectionTableRuns_13 : ((start fun d => { ring 3 d with bark := { d.bark with sweeps := 5 } }).starts (cmdOp 1
    0x30 2 0x1000000000000 0 0 0 0) 0x30 2 1 [0x0001013F3F01FFFF, 0, 0, 0, 0] = true) ∧ (bit (cmdOp 1 0x30 2 0x1000000000000 0 0 0
    0).p8 48 = true) ∧ (bit (cmdOp 1 0x30 2 0x1000000000000 0 0 0 0).p8 40 = false) ∧ (bit (cmdOp 1 0x30 2 0x1000000000000 0 0 0
    0).p8 16 = false) ∧ ((start fun d => { ring 3 d with bark := { d.bark with sweeps := 5 } }).dev.passDone = false) := by decide
theorem witness_ConnectionTableRuns_14 : ((start fun d => connected (conn0 1 2 7) (ring 3 d)).starts (cmdOp 1 0x30 2 0x10102000000 0
    0 0 0) 0x30 2 1 [0x0001013F3F01FFFF, 0, 0, 0, 0] = true) ∧ ((start fun d => connected (conn0 1 2 7) (ring 3
    d)).dev.bark.conns.wf (fun _ => none) = true) ∧ (bit (cmdOp 1 0x30 2 0x10102000000 0 0 0 0).p8 48 = false) ∧ (bit (cmdOp 1 0x30
    2 0x10102000000 0 0 0 0).p8 40 = true) ∧ (bit (cmdOp 1 0x30 2 0x10102000000 0 0 0 0).p8 16 = false) := by decide
theorem witness_ConnectionTableRuns_15 : ((start fun d => connected (conn0 1 2 7) (ring 3 d)).starts (cmdOp 1 0x30 2 0x10007 0 0 0
    0) 0x30 2 1 [0x0001013F3F01FFFF, 0, 0, 0, 0] = true) ∧ ((start fun d => connected (conn0 1 2 7) (ring 3 d)).dev.bark.conns.wf
    (fun _ => none) = true) ∧ (bit (cmdOp 1 0x30 2 0x10007 0 0 0 0).p8 48 = false) ∧ (bit (cmdOp 1 0x30 2 0x10007 0 0 0 0).p8 40 =
    false) ∧ (bit (cmdOp 1 0x30 2 0x10007 0 0 0 0).p8 16 = true) := by decide
theorem witness_ConnectionTableRuns_16 : ((start (ring 3)).starts (cmdOp 1 0x30 2 0 0 0 0 0) 0x30 2 1 [0x0001013F3F01FFFF, 0, 0, 0,
    0] = true) ∧ ((bit (cmdOp 1 0x30 2 0 0 0 0 0).p8 48).toNat + (bit (cmdOp 1 0x30 2 0 0 0 0 0).p8 40).toNat + (bit (cmdOp 1 0x30 2
    0 0 0 0 0).p8 16).toNat ≠ 1) := by decide
theorem witness_ConnectionTableRuns_17 : ((start fun d => connected (conn0 1 2 7) (ring 3 d)).starts (cmdOp 2 0x30 2 0x1000 4 0 0 0)
    0x30 2 2 [all64, 0x3FFFFFF, 0, 0, 0] = true) ∧ (fld (cmdOp 2 0x30 2 0x1000 4 0 0 0).p8 2 0 = 0) ∧ (fld (cmdOp 2 0x30 2 0x1000 4
    0 0 0).p16 25 0 ≠ 0) ∧ (fld (cmdOp 2 0x30 2 0x1000 4 0 0 0).p16 25 0 ≤ 33554432) := by decide
theorem witness_ConnectionTableRuns_18 : ((start fun d =>
    { d with bark := { d.bark with anomaly := [(1, ⟨9, 1, 1, false, false⟩)] } }).dev.runs = true) ∧ ((start fun d =>
    { d with bark := { d.bark with anomaly := [(1, ⟨9, 1, 1, false, false⟩)] } }).dev.bark.anomaly.wf (fun _ => ⟨0, 0, 0, false,
    false⟩) = true) := by decide
theorem witness_CanChannelsRun_1 : ((start (rset (canReg 1 0x10) 0xFF000000)).opens cpu (canReg (1 : Fin 24).val 0) = true) ∧
    ((start (rset (canReg 1 0x10) 0xFF000000)).dev.rb (canReg (1 : Fin 24).val 0) 31 = false) ∧ ((start (rset (canReg 1 0x10)
    0xFF000000)).dev.canTimingOk (1 : Fin 24).val = true) := by decide
theorem witness_CanChannelsRun_2 : ((start (rset (canReg 1 0x10) 0)).opens cpu (canReg (1 : Fin 24).val 0) = true) ∧ ((start (rset
    (canReg 1 0x10) 0)).dev.rb (canReg (1 : Fin 24).val 0) 31 = false) ∧ ((start (rset (canReg 1 0x10) 0)).dev.canTimingOk (1 : Fin
    24).val = false) := by decide
theorem witness_CanChannelsRun_3 : ((start canUp).opens cpu (canReg (1 : Fin 24).val 0) = true) ∧ ((start canUp).dev.rb (canReg (1 :
    Fin 24).val 0) 31 = true) ∧ ((start canUp).dev.canEnding (1 : Fin 24).val = none) := by decide
theorem witness_CanChannelsRun_4 : ((start canUp).dev.runs = true) ∧ ((start canUp).dev.canOn (1 : Fin 24).val = true) ∧ ((start
    canUp).dev.canFmtOn (1 : Fin 24).val canMsg.fmt = true) ∧ ((start canUp).dev.safe = false) ∧ ((∀ k : Fin 64, ((start
    canUp).dev.rb (srcReg k.val 0) 31 && (start canUp).dev.srcIs 2 (1 : Fin 24).val k.val) = false)) ∧ ((start canUp).dev.rb
    (barkReg (0x1400 + 4 * (1 : Fin 24).val)) 31 = false) ∧ ((start canUp).dev.diagPairs = []) ∧ ((start canUp).dev.lookupRoute ⟨(1
    : Fin 24).val, 0, (start canUp).dev.canZone (1 : Fin 24).val, (start canUp).dev.now - (0 : BitVec 32).toNat, false, canMsg⟩ =
    none) := by decide
theorem witness_CanChannelsRun_5 : ((start fun d => rset (zpReg 0 0) 0x80000000 (rset (canReg 2 0x24) 0 (rset (canReg 2 0)
    0x80000000 (rset (rootsReg 0x1040) 0x9FFFFFFF
    { canUp d with roots := { d.roots with routes := [(8 * d.routeBucket (routeKey 1 0 0 false 5), some (routeKey 1 0 0 false 5, 0x0000040000000000, 0))] } })))).dev.runs
    = true) ∧ ((start fun d => rset (zpReg 0 0) 0x80000000 (rset (canReg 2 0x24) 0 (rset (canReg 2 0) 0x80000000 (rset (rootsReg
    0x1040) 0x9FFFFFFF
    { canUp d with roots := { d.roots with routes := [(8 * d.routeBucket (routeKey 1 0 0 false 5), some (routeKey 1 0 0 false 5, 0x0000040000000000, 0))] } })))).dev.canOn
    (1 : Fin 24).val = true) ∧ ((start fun d => rset (zpReg 0 0) 0x80000000 (rset (canReg 2 0x24) 0 (rset (canReg 2 0) 0x80000000
    (rset (rootsReg 0x1040) 0x9FFFFFFF
    { canUp d with roots := { d.roots with routes := [(8 * d.routeBucket (routeKey 1 0 0 false 5), some (routeKey 1 0 0 false 5, 0x0000040000000000, 0))] } })))).dev.canFmtOn
    (1 : Fin 24).val canMsg.fmt = true) ∧ ((start fun d => rset (zpReg 0 0) 0x80000000 (rset (canReg 2 0x24) 0 (rset (canReg 2 0)
    0x80000000 (rset (rootsReg 0x1040) 0x9FFFFFFF
    { canUp d with roots := { d.roots with routes := [(8 * d.routeBucket (routeKey 1 0 0 false 5), some (routeKey 1 0 0 false 5, 0x0000040000000000, 0))] } })))).dev.safe
    = false) ∧ ((∀ k : Fin 64, ((start fun d => rset (zpReg 0 0) 0x80000000 (rset (canReg 2 0x24) 0 (rset (canReg 2 0) 0x80000000
    (rset (rootsReg 0x1040) 0x9FFFFFFF
    { canUp d with roots := { d.roots with routes := [(8 * d.routeBucket (routeKey 1 0 0 false 5), some (routeKey 1 0 0 false 5, 0x0000040000000000, 0))] } })))).dev.rb
    (srcReg k.val 0) 31 && (start fun d => rset (zpReg 0 0) 0x80000000 (rset (canReg 2 0x24) 0 (rset (canReg 2 0) 0x80000000 (rset
    (rootsReg 0x1040) 0x9FFFFFFF
    { canUp d with roots := { d.roots with routes := [(8 * d.routeBucket (routeKey 1 0 0 false 5), some (routeKey 1 0 0 false 5, 0x0000040000000000, 0))] } })))).dev.srcIs
    2 (1 : Fin 24).val k.val) = false)) ∧ ((start fun d => rset (zpReg 0 0) 0x80000000 (rset (canReg 2 0x24) 0 (rset (canReg 2 0)
    0x80000000 (rset (rootsReg 0x1040) 0x9FFFFFFF
    { canUp d with roots := { d.roots with routes := [(8 * d.routeBucket (routeKey 1 0 0 false 5), some (routeKey 1 0 0 false 5, 0x0000040000000000, 0))] } })))).dev.rb
    (barkReg (0x1400 + 4 * (1 : Fin 24).val)) 31 = false) ∧ ((start fun d => rset (zpReg 0 0) 0x80000000 (rset (canReg 2 0x24) 0
    (rset (canReg 2 0) 0x80000000 (rset (rootsReg 0x1040) 0x9FFFFFFF
    { canUp d with roots := { d.roots with routes := [(8 * d.routeBucket (routeKey 1 0 0 false 5), some (routeKey 1 0 0 false 5, 0x0000040000000000, 0))] } })))).dev.diagPairs
    = []) ∧ ((start fun d => rset (zpReg 0 0) 0x80000000 (rset (canReg 2 0x24) 0 (rset (canReg 2 0) 0x80000000 (rset (rootsReg
    0x1040) 0x9FFFFFFF
    { canUp d with roots := { d.roots with routes := [(8 * d.routeBucket (routeKey 1 0 0 false 5), some (routeKey 1 0 0 false 5, 0x0000040000000000, 0))] } })))).dev.lookupRoute
    ⟨(1 : Fin 24).val, 0, (start fun d => rset (zpReg 0 0) 0x80000000 (rset (canReg 2 0x24) 0 (rset (canReg 2 0) 0x80000000 (rset
    (rootsReg 0x1040) 0x9FFFFFFF
    { canUp d with roots := { d.roots with routes := [(8 * d.routeBucket (routeKey 1 0 0 false 5), some (routeKey 1 0 0 false 5, 0x0000040000000000, 0))] } })))).dev.canZone
    (1 : Fin 24).val, (start fun d => rset (zpReg 0 0) 0x80000000 (rset (canReg 2 0x24) 0 (rset (canReg 2 0) 0x80000000 (rset
    (rootsReg 0x1040) 0x9FFFFFFF
    { canUp d with roots := { d.roots with routes := [(8 * d.routeBucket (routeKey 1 0 0 false 5), some (routeKey 1 0 0 false 5, 0x0000040000000000, 0))] } })))).dev.now
    - (0 : BitVec 32).toNat, false, canMsg⟩ = some ((routeKey 1 0 0 false 5, 0x0000040000000000, 0) : DWord × DWord × DWord)) ∧ (bit
    ((routeKey 1 0 0 false 5, 0x0000040000000000, 0) : DWord × DWord × DWord).2.2 63 = false) ∧ (bit ((routeKey 1 0 0 false 5,
    0x0000040000000000, 0) : DWord × DWord × DWord).2.2 47 = false) ∧ (bit ((routeKey 1 0 0 false 5, 0x0000040000000000, 0) : DWord
    × DWord × DWord).2.1 23 = false) ∧ (bitsOf 24 (fld ((routeKey 1 0 0 false 5, 0x0000040000000000, 0) : DWord × DWord × DWord).2.1
    63 40) = [(2 : Fin 24).val]) ∧ (fld ((routeKey 1 0 0 false 5, 0x0000040000000000, 0) : DWord × DWord × DWord).2.1 39 24 = 0) ∧
    ((2 : Fin 24) ≠ (1 : Fin 24)) ∧ ((start fun d => rset (zpReg 0 0) 0x80000000 (rset (canReg 2 0x24) 0 (rset (canReg 2 0)
    0x80000000 (rset (rootsReg 0x1040) 0x9FFFFFFF
    { canUp d with roots := { d.roots with routes := [(8 * d.routeBucket (routeKey 1 0 0 false 5), some (routeKey 1 0 0 false 5, 0x0000040000000000, 0))] } })))).dev.allow
    ((start fun d => rset (zpReg 0 0) 0x80000000 (rset (canReg 2 0x24) 0 (rset (canReg 2 0) 0x80000000 (rset (rootsReg 0x1040)
    0x9FFFFFFF
    { canUp d with roots := { d.roots with routes := [(8 * d.routeBucket (routeKey 1 0 0 false 5), some (routeKey 1 0 0 false 5, 0x0000040000000000, 0))] } })))).dev.canZone
    (1 : Fin 24).val) ((start fun d => rset (zpReg 0 0) 0x80000000 (rset (canReg 2 0x24) 0 (rset (canReg 2 0) 0x80000000 (rset
    (rootsReg 0x1040) 0x9FFFFFFF
    { canUp d with roots := { d.roots with routes := [(8 * d.routeBucket (routeKey 1 0 0 false 5), some (routeKey 1 0 0 false 5, 0x0000040000000000, 0))] } })))).dev.canZone
    (2 : Fin 24).val) = true) ∧ ((start fun d => rset (zpReg 0 0) 0x80000000 (rset (canReg 2 0x24) 0 (rset (canReg 2 0) 0x80000000
    (rset (rootsReg 0x1040) 0x9FFFFFFF
    { canUp d with roots := { d.roots with routes := [(8 * d.routeBucket (routeKey 1 0 0 false 5), some (routeKey 1 0 0 false 5, 0x0000040000000000, 0))] } })))).dev.canOn
    (2 : Fin 24).val = true) ∧ ((start fun d => rset (zpReg 0 0) 0x80000000 (rset (canReg 2 0x24) 0 (rset (canReg 2 0) 0x80000000
    (rset (rootsReg 0x1040) 0x9FFFFFFF
    { canUp d with roots := { d.roots with routes := [(8 * d.routeBucket (routeKey 1 0 0 false 5), some (routeKey 1 0 0 false 5, 0x0000040000000000, 0))] } })))).dev.canFmtOn
    (2 : Fin 24).val canMsg.fmt = true) ∧ (canLengthOk canMsg.fmt canMsg.data.length = true) ∧ ((start fun d => rset (zpReg 0 0)
    0x80000000 (rset (canReg 2 0x24) 0 (rset (canReg 2 0) 0x80000000 (rset (rootsReg 0x1040) 0x9FFFFFFF
    { canUp d with roots := { d.roots with routes := [(8 * d.routeBucket (routeKey 1 0 0 false 5), some (routeKey 1 0 0 false 5, 0x0000040000000000, 0))] } })))).dev.rf
    (canReg (2 : Fin 24).val 0x24) 15 0 = 0) ∧ (((start fun d => rset (zpReg 0 0) 0x80000000 (rset (canReg 2 0x24) 0 (rset (canReg 2
    0) 0x80000000 (rset (rootsReg 0x1040) 0x9FFFFFFF
    { canUp d with roots := { d.roots with routes := [(8 * d.routeBucket (routeKey 1 0 0 false 5), some (routeKey 1 0 0 false 5, 0x0000040000000000, 0))] } })))).dev.canQueue
    (2 : Fin 24).val).length < 64) := by decide
theorem witness_CanChannelsRun_6 : (State.reset.dev.runs = true) ∧ (State.reset.dev.canOn (1 : Fin 24).val = false) := by decide
theorem witness_CanChannelsRun_7 : ((start fun d => rset (canReg 1 0x24) 0
    { canUp d with roots := { d.roots with canq := [(1, [⟨canMsg, 0⟩])] } }).dev.runs = true) ∧ ((start fun d => rset (canReg 1
    0x24) 0 { canUp d with roots := { d.roots with canq := [(1, [⟨canMsg, 0⟩])] } }).dev.canOn (1 : Fin 24).val = true) ∧ ((start
    fun d => rset (canReg 1 0x24) 0 { canUp d with roots := { d.roots with canq := [(1, [⟨canMsg, 0⟩])] } }).dev.canEnding (1 : Fin
    24).val = none) ∧ ((start fun d => rset (canReg 1 0x24) 0
    { canUp d with roots := { d.roots with canq := [(1, [⟨canMsg, 0⟩])] } }).dev.rb (canReg (1 : Fin 24).val 0) 28 = false) ∧
    ((start fun d => rset (canReg 1 0x24) 0 { canUp d with roots := { d.roots with canq := [(1, [⟨canMsg, 0⟩])] } }).dev.redListen
    (1 : Fin 24).val = false) ∧ ((start fun d => rset (canReg 1 0x24) 0
    { canUp d with roots := { d.roots with canq := [(1, [⟨canMsg, 0⟩])] } }).dev.rf (canReg (1 : Fin 24).val 0x24) 15 0 = 0) ∧
    (canBest ((start fun d => rset (canReg 1 0x24) 0
    { canUp d with roots := { d.roots with canq := [(1, [⟨canMsg, 0⟩])] } }).dev.canQueue (1 : Fin 24).val) = some (0, canMsg)) :=
    by decide
theorem witness_CanChannelsRun_8 : (State.reset.dev.runs = true) ∧ (State.reset.dev.canOn (1 : Fin 24).val = false ∨
    State.reset.dev.canEnding (1 : Fin 24).val = none ∧ (State.reset.dev.rb (canReg (1 : Fin 24).val 0) 28 = true ∨
    State.reset.dev.redListen (1 : Fin 24).val = true)) ∧ (State.reset.dev.tap.modeCmd = none) := by decide
theorem witness_CanChannelsRun_9 : ((start fun d =>
    { canUp d with roots := { d.roots with canq := [(1, [⟨canMsg, 0⟩])], ending := [(1, some ⟨canMsg, 0⟩)] } }).dev.runs = true) ∧
    ((start fun d =>
    { canUp d with roots := { d.roots with canq := [(1, [⟨canMsg, 0⟩])], ending := [(1, some ⟨canMsg, 0⟩)] } }).dev.canOn (1 : Fin
    24).val = true) ∧ ((start fun d =>
    { canUp d with roots := { d.roots with canq := [(1, [⟨canMsg, 0⟩])], ending := [(1, some ⟨canMsg, 0⟩)] } }).dev.canEnding (1 :
    Fin 24).val = some (⟨canMsg, 0⟩ : CanWait)) := by decide
theorem witness_CanChannelsRun_10 : ((start canUp).dev.runs = true) ∧ ((start canUp).dev.canOn (1 : Fin 24).val = true) ∧ ((⟨130, 3,
    true, none⟩ : CanError).txCount.toNat ≤ 255) ∧ ((⟨130, 3, true, none⟩ : CanError).inRx = true ∨ (⟨130, 3, true, none⟩ :
    CanError).edge = none ∧ (start canUp).dev.canEnding (1 : Fin 24).val = none) := by decide
theorem witness_CanChannelsRun_11 : ((start canUp).dev.runs = true) ∧ ((start canUp).dev.canOn (1 : Fin 24).val = true) ∧ ((⟨256, 3,
    false, none⟩ : CanError).inRx = false) ∧ ((⟨256, 3, false, none⟩ : CanError).edge = none) ∧ ((start canUp).dev.canEnding (1 :
    Fin 24).val = none) ∧ (255 < (⟨256, 3, false, none⟩ : CanError).txCount.toNat) := by decide
theorem witness_CanChannelsRun_12 : ((start fun d => rset (canReg 1 0x1C) 0x80000000
    { canUp d with roots := { d.roots with canq := [(1, [⟨{ canMsg with fmt := .fd }, 0⟩])] } }).dev.runs = true) ∧ ((start fun d =>
    rset (canReg 1 0x1C) 0x80000000
    { canUp d with roots := { d.roots with canq := [(1, [⟨{ canMsg with fmt := .fd }, 0⟩])] } }).dev.canOn (1 : Fin 24).val = true)
    ∧ ((⟨8, 3, false, some 7⟩ : CanError).inRx = false) ∧ ((⟨8, 3, false, some 7⟩ : CanError).edge = some (7 : BitVec 7)) ∧ ((start
    fun d => rset (canReg 1 0x1C) 0x80000000
    { canUp d with roots := { d.roots with canq := [(1, [⟨{ canMsg with fmt := .fd }, 0⟩])] } }).dev.canEnding (1 : Fin 24).val =
    none) ∧ (canBest ((start fun d => rset (canReg 1 0x1C) 0x80000000
    { canUp d with roots := { d.roots with canq := [(1, [⟨{ canMsg with fmt := .fd }, 0⟩])] } }).dev.canQueue (1 : Fin 24).val) =
    some (0, { canMsg with fmt := .fd })) ∧ (((start fun d => rset (canReg 1 0x1C) 0x80000000
    { canUp d with roots := { d.roots with canq := [(1, [⟨{ canMsg with fmt := .fd }, 0⟩])] } }).dev.canSample (1 : Fin 24).val
    { canMsg with fmt := .fd } (7 : BitVec 7).toNat).isSome = true) ∧ ((⟨8, 3, false, some 7⟩ : CanError).txCount.toNat ≤ 255) := by
    decide
theorem witness_CanChannelsRun_13 : ((start fun d => rset (canReg 1 4) 2 (canUp d)).opens cpu (canReg (1 : Fin 24).val 0) = true) ∧
    ((start fun d => rset (canReg 1 4) 2 (canUp d)).clocked (canReg (1 : Fin 24).val 0) = true) ∧ ((start fun d => rset (canReg 1 4)
    2 (canUp d)).dev.rf (canReg (1 : Fin 24).val 4) 1 0 = 2) := by decide
theorem witness_CanChannelsRun_14 : ((start canUp).opens cpu (canReg (1 : Fin 24).val 0) = true) ∧ ((start canUp).clocked (canReg (1
    : Fin 24).val 0) = true) ∧ ((start canUp).dev.rf (canReg (1 : Fin 24).val 4) 1 0 ≠ 2) := by decide
theorem witness_CanChannelsRun_15 : ((start fun d => rset (canReg 1 4) 2
    { canUp d with roots := { d.roots with errs := [(1, ⟨256, 0, true⟩)] } }).dev.runs = true) ∧ ((start fun d => rset (canReg 1 4)
    2 { canUp d with roots := { d.roots with errs := [(1, ⟨256, 0, true⟩)] } }).dev.rf (canReg (1 : Fin 24).val 4) 1 0 = 2) ∧
    (((start fun d => rset (canReg 1 4) 2 { canUp d with roots := { d.roots with errs := [(1, ⟨256, 0, true⟩)] } }).dev.canErrs (1 :
    Fin 24).val).recovering = true) ∧ ((start fun d => rset (canReg 1 4) 2
    { canUp d with roots := { d.roots with errs := [(1, ⟨256, 0, true⟩)] } }).dev.rb (canReg (1 : Fin 24).val 0) 31 = true) := by
    decide
theorem witness_CanChannelsRun_16 : (State.reset.dev.runs = true) ∧ (State.reset.dev.rf (canReg (1 : Fin 24).val 4) 1 0 ≠ 2 ∨
    (State.reset.dev.canErrs (1 : Fin 24).val).recovering = false) := by decide
theorem witness_LinChannelsRun_1 : ((start (rset (linReg 1 0) 0x4B00)).opens cpu (linReg (1 : Fin 16).val 0) = true) ∧ ((start (rset
    (linReg 1 0) 0x4B00)).dev.rb (linReg (1 : Fin 16).val 0) 31 = false) ∧ (1000 ≤ (start (rset (linReg 1 0) 0x4B00)).dev.rf (linReg
    (1 : Fin 16).val 0) 15 0) ∧ ((start (rset (linReg 1 0) 0x4B00)).dev.rf (linReg (1 : Fin 16).val 0) 15 0 ≤ 20000) ∧ ((start (rset
    (linReg 1 0) 0x4B00)).dev.rb (linReg (1 : Fin 16).val 0) 30 = false ∨ ((∀ k < (start (rset (linReg 1 0) 0x4B00)).dev.schedLen (1
    : Fin 16).val 0, schedOk ((start (rset (linReg 1 0) 0x4B00)).dev.reg (schedReg (1 : Fin 16).val 0 k)) = true) ∧ (∀ k < (start
    (rset (linReg 1 0) 0x4B00)).dev.schedLen (1 : Fin 16).val 1, schedOk ((start (rset (linReg 1 0) 0x4B00)).dev.reg (schedReg (1 :
    Fin 16).val 1 k)) = true))) := by decide
theorem witness_LinChannelsRun_2 : ((start (rset (linReg 1 0) 0xFFFF)).opens cpu (linReg (1 : Fin 16).val 0) = true) ∧ ((start (rset
    (linReg 1 0) 0xFFFF)).dev.rb (linReg (1 : Fin 16).val 0) 31 = false) ∧ (((start (rset (linReg 1 0) 0xFFFF)).dev.rf (linReg (1 :
    Fin 16).val 0) 15 0 < 1000 ∨ 20000 < (start (rset (linReg 1 0) 0xFFFF)).dev.rf (linReg (1 : Fin 16).val 0) 15 0)) := by decide
theorem witness_LinChannelsRun_3 : ((start (linUp true)).opens cpu (linReg (1 : Fin 16).val 0) = true) ∧ ((start (linUp
    true)).dev.rb (linReg (1 : Fin 16).val 0) 31 = true) := by decide
theorem witness_LinChannelsRun_4 : ((start (linUp true)).opens cpu (linReg (1 : Fin 16).val 8) = true) ∧ ((start (linUp
    true)).dev.rb (linReg (1 : Fin 16).val 8) 31 = !true) := by decide
theorem witness_LinChannelsRun_5 : ((start fun d => rset (fbufReg 1 5 8) 0x80000000 (rset (schedReg 1 0 0) 0x0405000A (rset (linReg
    1 8) 0x80000100 (linUp true d)))).dev.runs = true) ∧ ((start fun d => rset (fbufReg 1 5 8) 0x80000000 (rset (schedReg 1 0 0)
    0x0405000A (rset (linReg 1 8) 0x80000100 (linUp true d)))).dev.linCommands (1 : Fin 16).val = true) ∧ ((start fun d => rset
    (fbufReg 1 5 8) 0x80000000 (rset (schedReg 1 0 0) 0x0405000A (rset (linReg 1 8) 0x80000100 (linUp true d)))).dev.rb (linReg (1 :
    Fin 16).val 8) 31 = true) ∧ ((start fun d => rset (fbufReg 1 5 8) 0x80000000 (rset (schedReg 1 0 0) 0x0405000A (rset (linReg 1
    8) 0x80000100 (linUp true d)))).dev.safe = false) ∧ ((start fun d => rset (fbufReg 1 5 8) 0x80000000 (rset (schedReg 1 0 0)
    0x0405000A (rset (linReg 1 8) 0x80000100 (linUp true d)))).dev.linRun (1 : Fin 16).val = LinRun.idle) ∧ (0 < (start fun d =>
    rset (fbufReg 1 5 8) 0x80000000 (rset (schedReg 1 0 0) 0x0405000A (rset (linReg 1 8) 0x80000100 (linUp true d)))).dev.schedLen
    (1 : Fin 16).val ((start fun d => rset (fbufReg 1 5 8) 0x80000000 (rset (schedReg 1 0 0) 0x0405000A (rset (linReg 1 8)
    0x80000100 (linUp true d)))).dev.rf (linReg (1 : Fin 16).val 4) 0 0)) ∧ (fld ((start fun d => rset (fbufReg 1 5 8) 0x80000000
    (rset (schedReg 1 0 0) 0x0405000A (rset (linReg 1 8) 0x80000100 (linUp true d)))).dev.reg (schedReg (1 : Fin 16).val ((start fun
    d => rset (fbufReg 1 5 8) 0x80000000 (rset (schedReg 1 0 0) 0x0405000A (rset (linReg 1 8) 0x80000100 (linUp true d)))).dev.rf
    (linReg (1 : Fin 16).val 4) 0 0) 0)) 31 30 = 0) ∧ ((start fun d => rset (fbufReg 1 5 8) 0x80000000 (rset (schedReg 1 0 0)
    0x0405000A (rset (linReg 1 8) 0x80000100 (linUp true d)))).dev.rb (fbufReg (1 : Fin 16).val (fld ((start fun d => rset (fbufReg
    1 5 8) 0x80000000 (rset (schedReg 1 0 0) 0x0405000A (rset (linReg 1 8) 0x80000100 (linUp true d)))).dev.reg (schedReg (1 : Fin
    16).val ((start fun d => rset (fbufReg 1 5 8) 0x80000000 (rset (schedReg 1 0 0) 0x0405000A (rset (linReg 1 8) 0x80000100 (linUp
    true d)))).dev.rf (linReg (1 : Fin 16).val 4) 0 0) 0)) 21 16) 8) 31 = true) := by decide
theorem witness_LinChannelsRun_6 : ((start fun d => rset (schedReg 1 0 0) 0x0405000A (rset (linReg 1 8) 0x80000100 (linUp true
    d))).dev.runs = true) ∧ ((start fun d => rset (schedReg 1 0 0) 0x0405000A (rset (linReg 1 8) 0x80000100 (linUp true
    d))).dev.linCommands (1 : Fin 16).val = true) ∧ ((start fun d => rset (schedReg 1 0 0) 0x0405000A (rset (linReg 1 8) 0x80000100
    (linUp true d))).dev.rb (linReg (1 : Fin 16).val 8) 31 = true) ∧ ((start fun d => rset (schedReg 1 0 0) 0x0405000A (rset (linReg
    1 8) 0x80000100 (linUp true d))).dev.safe = false) ∧ ((start fun d => rset (schedReg 1 0 0) 0x0405000A (rset (linReg 1 8)
    0x80000100 (linUp true d))).dev.linRun (1 : Fin 16).val = LinRun.idle) ∧ (0 < (start fun d => rset (schedReg 1 0 0) 0x0405000A
    (rset (linReg 1 8) 0x80000100 (linUp true d))).dev.schedLen (1 : Fin 16).val ((start fun d => rset (schedReg 1 0 0) 0x0405000A
    (rset (linReg 1 8) 0x80000100 (linUp true d))).dev.rf (linReg (1 : Fin 16).val 4) 0 0)) ∧ (fld ((start fun d => rset (schedReg 1
    0 0) 0x0405000A (rset (linReg 1 8) 0x80000100 (linUp true d))).dev.reg (schedReg (1 : Fin 16).val ((start fun d => rset
    (schedReg 1 0 0) 0x0405000A (rset (linReg 1 8) 0x80000100 (linUp true d))).dev.rf (linReg (1 : Fin 16).val 4) 0 0) 0)) 31 30 =
    0) ∧ ((start fun d => rset (schedReg 1 0 0) 0x0405000A (rset (linReg 1 8) 0x80000100 (linUp true d))).dev.rb (fbufReg (1 : Fin
    16).val (fld ((start fun d => rset (schedReg 1 0 0) 0x0405000A (rset (linReg 1 8) 0x80000100 (linUp true d))).dev.reg (schedReg
    (1 : Fin 16).val ((start fun d => rset (schedReg 1 0 0) 0x0405000A (rset (linReg 1 8) 0x80000100 (linUp true d))).dev.rf (linReg
    (1 : Fin 16).val 4) 0 0) 0)) 21 16) 8) 31 = false) := by decide
theorem witness_LinChannelsRun_7 : ((start fun d => rset (schedReg 1 0 0) 0x4405000A (rset (linReg 1 8) 0x80000100 (linUp true
    d))).dev.runs = true) ∧ ((start fun d => rset (schedReg 1 0 0) 0x4405000A (rset (linReg 1 8) 0x80000100 (linUp true
    d))).dev.linCommands (1 : Fin 16).val = true) ∧ ((start fun d => rset (schedReg 1 0 0) 0x4405000A (rset (linReg 1 8) 0x80000100
    (linUp true d))).dev.rb (linReg (1 : Fin 16).val 8) 31 = true) ∧ ((start fun d => rset (schedReg 1 0 0) 0x4405000A (rset (linReg
    1 8) 0x80000100 (linUp true d))).dev.safe = false) ∧ ((start fun d => rset (schedReg 1 0 0) 0x4405000A (rset (linReg 1 8)
    0x80000100 (linUp true d))).dev.linRun (1 : Fin 16).val = LinRun.idle) ∧ (0 < (start fun d => rset (schedReg 1 0 0) 0x4405000A
    (rset (linReg 1 8) 0x80000100 (linUp true d))).dev.schedLen (1 : Fin 16).val ((start fun d => rset (schedReg 1 0 0) 0x4405000A
    (rset (linReg 1 8) 0x80000100 (linUp true d))).dev.rf (linReg (1 : Fin 16).val 4) 0 0)) ∧ (fld ((start fun d => rset (schedReg 1
    0 0) 0x4405000A (rset (linReg 1 8) 0x80000100 (linUp true d))).dev.reg (schedReg (1 : Fin 16).val ((start fun d => rset
    (schedReg 1 0 0) 0x4405000A (rset (linReg 1 8) 0x80000100 (linUp true d))).dev.rf (linReg (1 : Fin 16).val 4) 0 0) 0)) 31 30 ≠
    0) := by decide
theorem witness_LinChannelsRun_8 : (State.reset.dev.runs = true) ∧ (State.reset.dev.linCommands (1 : Fin 16).val = false ∨
    State.reset.dev.rb (linReg (1 : Fin 16).val 8) 31 = false ∨ State.reset.dev.safe = true) := by decide
theorem witness_LinChannelsRun_9 : ((start (linUp true)).opens cpu (linReg (1 : Fin 16).val 8) = true) ∧ ((start (linUp
    true)).clocked (linReg (1 : Fin 16).val 8) = true) := by decide
theorem witness_LinChannelsRun_10 : ((start fun d => rset (fbufReg 1 5 8) 0xC0020000 (linUp false d)).dev.runs = true) ∧ ((start fun
    d => rset (fbufReg 1 5 8) 0xC0020000 (linUp false d)).dev.linOn (1 : Fin 16).val = true) ∧ ((start fun d => rset (fbufReg 1 5 8)
    0xC0020000 (linUp false d)).dev.linCommands (1 : Fin 16).val = false) ∧ ((start fun d => rset (fbufReg 1 5 8) 0xC0020000 (linUp
    false d)).dev.rb (fbufReg (1 : Fin 16).val (5 : BitVec 6).toNat 8) 31 = true) ∧ ((start fun d => rset (fbufReg 1 5 8) 0xC0020000
    (linUp false d)).dev.rb (fbufReg (1 : Fin 16).val (5 : BitVec 6).toNat 8) 30 = true) ∧ ((start fun d => rset (fbufReg 1 5 8)
    0xC0020000 (linUp false d)).dev.safe = false) := by decide
theorem witness_LinChannelsRun_11 : ((start (linUp false)).dev.runs = true) ∧ ((start (linUp false)).dev.linOn (1 : Fin 16).val =
    true) ∧ ((start (linUp false)).dev.linCommands (1 : Fin 16).val = true ∨ (start (linUp false)).dev.rb (fbufReg (1 : Fin 16).val
    (5 : BitVec 6).toNat 8) 31 = false ∨ (start (linUp false)).dev.rb (fbufReg (1 : Fin 16).val (5 : BitVec 6).toNat 8) 30 = false ∨
    (start (linUp false)).dev.safe = true) := by decide
theorem witness_LinChannelsRun_12 : ((start (linUp false)).dev.runs = true) ∧ ((start (linUp false)).dev.linOn (1 : Fin 16).val =
    true) := by decide
theorem witness_LinChannelsRun_13 : ((start (linUp false)).dev.runs = true) ∧ ((start (linUp false)).dev.linOn (1 : Fin 16).val =
    true) ∧ ((start (linUp false)).dev.safe = false) ∧ (([1, 2] : List (BitVec 8)).length ≤ 8) ∧ (((start (linUp false)).dev.linRun
    (1 : Fin 16).val).waiting = []) ∧ ((0xFC : BitVec 8).toNat = linChecksum ((start (linUp false)).dev.rb (fbufReg (1 : Fin 16).val
    (5 : BitVec 6).toNat 8) 29) (5 : BitVec 6).toNat ([1, 2] : List (BitVec 8))) ∧ ((∀ k : Fin 64, ((start (linUp false)).dev.rb
    (srcReg k.val 0) 31 && (start (linUp false)).dev.srcIs 3 (1 : Fin 16).val k.val) = false)) ∧ ((start (linUp
    false)).dev.lookupRoute ⟨32 + (1 : Fin 16).val, 0, (start (linUp false)).dev.linZone (1 : Fin 16).val, (start (linUp
    false)).dev.now - (0 : BitVec 32).toNat, true, linFrame (5 : BitVec 6).toNat (([1, 2] : List (BitVec 8)).take 8)⟩ = none) := by
    decide
theorem witness_LinChannelsRun_14 : ((start (linUp false)).dev.runs = true) ∧ ((start (linUp false)).dev.linOn (1 : Fin 16).val =
    true) ∧ (((start (linUp false)).dev.linRun (1 : Fin 16).val).waiting = []) ∧ ((0xFB : BitVec 8).toNat ≠ linChecksum ((start
    (linUp false)).dev.rb (fbufReg (1 : Fin 16).val (5 : BitVec 6).toNat 8) 29) (5 : BitVec 6).toNat (([1, 2] : List (BitVec
    8)).take 8)) := by decide
theorem witness_LinChannelsRun_15 : ((start fun d =>
    { linUp true d with roots := { d.roots with lin := [(1, { LinRun.idle with waiting := [⟨5, 0, false⟩] })] } }).dev.runs = true)
    ∧ (((start fun d =>
    { linUp true d with roots := { d.roots with lin := [(1, { LinRun.idle with waiting := [⟨5, 0, false⟩] })] } }).dev.linRun (1 :
    Fin 16).val).waiting = (⟨5, 0, false⟩ : LinWait) :: ([] : List LinWait)) ∧ ((⟨5, 0, false⟩ : LinWait).till ≤ (start fun d =>
    { linUp true d with roots := { d.roots with lin := [(1, { LinRun.idle with waiting := [⟨5, 0, false⟩] })] } }).dev.now) := by
    decide
theorem witness_LinChannelsRun_16 : (State.reset.dev.runs = true) ∧ ((State.reset.dev.linRun (1 : Fin 16).val).waiting = []) := by
    decide
theorem witness_GatewayTablesFollowCommands_1 : ((start fun d => rset (rootsReg 0x1040) 0x9FFFFFFF (ring 3 d)).starts (cmdOp 1 0x31
    64 0x8200000000000005 0x0000040000000000 0 0 0) 0x31 64 1 [0xFFFF80001FFFFFFF, 0xFFFFFFFFFFFFC000, 0x87FF87FF00000000, 0, 0] =
    true) ∧ (bit (cmdOp 1 0x31 64 0x8200000000000005 0x0000040000000000 0 0 0).p8 63 = true) ∧ ((start fun d => rset (rootsReg
    0x1040) 0x9FFFFFFF (ring 3 d)).dev.srcListed (fld (cmdOp 1 0x31 64 0x8200000000000005 0x0000040000000000 0 0 0).p8 62 57) =
    true) ∧ ((fld (cmdOp 1 0x31 64 0x8200000000000005 0x0000040000000000 0 0 0).p8 62 57 = 24 ∨ fld (cmdOp 1 0x31 64
    0x8200000000000005 0x0000040000000000 0 0 0).p8 56 52 = 0)) ∧ (fld (cmdOp 1 0x31 64 0x8200000000000005 0x0000040000000000 0 0
    0).p8 28 0 &&& (start fun d => rset (rootsReg 0x1040) 0x9FFFFFFF (ring 3 d)).dev.rf (rootsReg (0x1000 + 0x40 * fld (cmdOp 1 0x31
    64 0x8200000000000005 0x0000040000000000 0 0 0).p8 62 57 + 4 * fld (cmdOp 1 0x31 64 0x8200000000000005 0x0000040000000000 0 0
    0).p8 51 48)) 28 0 = fld (cmdOp 1 0x31 64 0x8200000000000005 0x0000040000000000 0 0 0).p8 28 0) ∧ (((start fun d => rset
    (rootsReg 0x1040) 0x9FFFFFFF (ring 3 d)).dev.findRoute (cmdOp 1 0x31 64 0x8200000000000005 0x0000040000000000 0 0 0).p8 = some
    (8 * State.reset.dev.routeBucket 0x8200000000000005) ∨ ((start fun d => rset (rootsReg 0x1040) 0x9FFFFFFF (ring 3
    d)).dev.findRoute (cmdOp 1 0x31 64 0x8200000000000005 0x0000040000000000 0 0 0).p8 = none ∧ ((List.range 8).map (8 * (start fun
    d => rset (rootsReg 0x1040) 0x9FFFFFFF (ring 3 d)).dev.routeBucket (cmdOp 1 0x31 64 0x8200000000000005 0x0000040000000000 0 0
    0).p8 + ·)).find? (fun j => ((start fun d => rset (rootsReg 0x1040) 0x9FFFFFFF (ring 3 d)).dev.route j).isNone) = some (8 *
    State.reset.dev.routeBucket 0x8200000000000005)))) := by decide
theorem witness_GatewayTablesFollowCommands_2 : ((start fun d => rset (rootsReg 0x1040) 0x9FFFFFFF
    { ring 3 d with roots := { d.roots with routes := (List.range 8).map (fun k => (8 * d.routeBucket 0x8200000000000005 + k, some (1, 0, 0))) } }).starts
    (cmdOp 1 0x31 64 0x8200000000000005 0x0000040000000000 0 0 0) 0x31 64 1 [0xFFFF80001FFFFFFF, 0xFFFFFFFFFFFFC000,
    0x87FF87FF00000000, 0, 0] = true) ∧ (bit (cmdOp 1 0x31 64 0x8200000000000005 0x0000040000000000 0 0 0).p8 63 = true) ∧ ((start
    fun d => rset (rootsReg 0x1040) 0x9FFFFFFF
    { ring 3 d with roots := { d.roots with routes := (List.range 8).map (fun k => (8 * d.routeBucket 0x8200000000000005 + k, some (1, 0, 0))) } }).dev.srcListed
    (fld (cmdOp 1 0x31 64 0x8200000000000005 0x0000040000000000 0 0 0).p8 62 57) = true) ∧ ((fld (cmdOp 1 0x31 64 0x8200000000000005
    0x0000040000000000 0 0 0).p8 62 57 = 24 ∨ fld (cmdOp 1 0x31 64 0x8200000000000005 0x0000040000000000 0 0 0).p8 56 52 = 0)) ∧
    (fld (cmdOp 1 0x31 64 0x8200000000000005 0x0000040000000000 0 0 0).p8 28 0 &&& (start fun d => rset (rootsReg 0x1040) 0x9FFFFFFF
    { ring 3 d with roots := { d.roots with routes := (List.range 8).map (fun k => (8 * d.routeBucket 0x8200000000000005 + k, some (1, 0, 0))) } }).dev.rf
    (rootsReg (0x1000 + 0x40 * fld (cmdOp 1 0x31 64 0x8200000000000005 0x0000040000000000 0 0 0).p8 62 57 + 4 * fld (cmdOp 1 0x31 64
    0x8200000000000005 0x0000040000000000 0 0 0).p8 51 48)) 28 0 = fld (cmdOp 1 0x31 64 0x8200000000000005 0x0000040000000000 0 0
    0).p8 28 0) ∧ ((start fun d => rset (rootsReg 0x1040) 0x9FFFFFFF
    { ring 3 d with roots := { d.roots with routes := (List.range 8).map (fun k => (8 * d.routeBucket 0x8200000000000005 + k, some (1, 0, 0))) } }).dev.findRoute
    (cmdOp 1 0x31 64 0x8200000000000005 0x0000040000000000 0 0 0).p8 = none) ∧ (((List.range 8).map (8 * (start fun d => rset
    (rootsReg 0x1040) 0x9FFFFFFF
    { ring 3 d with roots := { d.roots with routes := (List.range 8).map (fun k => (8 * d.routeBucket 0x8200000000000005 + k, some (1, 0, 0))) } }).dev.routeBucket
    (cmdOp 1 0x31 64 0x8200000000000005 0x0000040000000000 0 0 0).p8 + ·)).find? (fun j => ((start fun d => rset (rootsReg 0x1040)
    0x9FFFFFFF
    { ring 3 d with roots := { d.roots with routes := (List.range 8).map (fun k => (8 * d.routeBucket 0x8200000000000005 + k, some (1, 0, 0))) } }).dev.route
    j).isNone) = none) := by decide
theorem witness_GatewayTablesFollowCommands_3 : ((start (ring 3)).starts (cmdOp 1 0x31 64 5 0x0000040000000000 0 0 0) 0x31 64 1
    [0xFFFF80001FFFFFFF, 0xFFFFFFFFFFFFC000, 0x87FF87FF00000000, 0, 0] = true) ∧ (bit (cmdOp 1 0x31 64 5 0x0000040000000000 0 0
    0).p8 63 = false ∨ (start (ring 3)).dev.srcListed (fld (cmdOp 1 0x31 64 5 0x0000040000000000 0 0 0).p8 62 57) = false ∨ (fld
    (cmdOp 1 0x31 64 5 0x0000040000000000 0 0 0).p8 62 57 ≠ 24 ∧ fld (cmdOp 1 0x31 64 5 0x0000040000000000 0 0 0).p8 56 52 ≠ 0)) :=
    by decide
theorem witness_GatewayTablesFollowCommands_4 : ((start fun d =>
    { ring 3 d with roots := { d.roots with routes := [(8 * d.routeBucket 0x8210000000000005, some (0x8210000000000005, 0x0000040000000000, 0))] } }).starts
    (cmdOp 2 0x31 64 0x8210000000000005 0 0 0 0) 0x31 64 2 [0xFFFF80001FFFFFFF, 0, 0, 0, 0] = true) ∧ ((start fun d =>
    { ring 3 d with roots := { d.roots with routes := [(8 * d.routeBucket 0x8210000000000005, some (0x8210000000000005, 0x0000040000000000, 0))] } }).dev.findRoute
    (cmdOp 2 0x31 64 0x8210000000000005 0 0 0 0).p8 = some (8 * State.reset.dev.routeBucket 0x8210000000000005)) := by decide
theorem witness_GatewayTablesFollowCommands_5 : ((start (ring 3)).starts (cmdOp 2 0x31 64 0x8210000000000005 0 0 0 0) 0x31 64 2
    [0xFFFF80001FFFFFFF, 0, 0, 0, 0] = true) ∧ ((start (ring 3)).dev.findRoute (cmdOp 2 0x31 64 0x8210000000000005 0 0 0 0).p8 =
    none) := by decide
theorem witness_GatewayTablesFollowCommands_6 : ((start fun d =>
    { ring 3 d with roots := { d.roots with routes := [(8 * d.routeBucket 0x8210000000000005, some (0x8210000000000005, 0x0000040000000000, 0))] } }).starts
    (cmdOp 3 0x31 64 0x8210000000000005 0 0 0 0) 0x31 64 3 [0xFFFF80001FFFFFFF, 0, 0, 0, 0] = true) ∧ (((start fun d =>
    { ring 3 d with roots := { d.roots with routes := [(8 * d.routeBucket 0x8210000000000005, some (0x8210000000000005, 0x0000040000000000, 0))] } }).dev.findRoute
    (cmdOp 3 0x31 64 0x8210000000000005 0 0 0 0).p8).bind (start fun d =>
    { ring 3 d with roots := { d.roots with routes := [(8 * d.routeBucket 0x8210000000000005, some (0x8210000000000005, 0x0000040000000000, 0))] } }).dev.route
    = some ((0x8210000000000005, 0x0000040000000000, 0) : DWord × DWord × DWord)) := by decide
theorem witness_GatewayTablesFollowCommands_7 : ((start (ring 3)).starts (cmdOp 3 0x31 64 0x8210000000000005 0 0 0 0) 0x31 64 3
    [0xFFFF80001FFFFFFF, 0, 0, 0, 0] = true) ∧ ((start (ring 3)).dev.findRoute (cmdOp 3 0x31 64 0x8210000000000005 0 0 0 0).p8 =
    none) := by decide
theorem witness_GatewayTablesFollowCommands_8 : ((start fun d =>
    { ring 3 d with roots := { d.roots with routes := [(8 * d.routeBucket 0x8210000000000005, some (0x8210000000000005, 0x0000040000000000, 0))] } }).starts
    (cmdOp 4 0x31 64 0x41 0 0 0 0) 0x31 64 4 [0x7F, 0, 0, 0, 0] = true) ∧ ((start fun d =>
    { ring 3 d with roots := { d.roots with routes := [(8 * d.routeBucket 0x8210000000000005, some (0x8210000000000005, 0x0000040000000000, 0))] } }).dev.roots.routes.wf
    (fun _ => none) = true) := by decide
theorem witness_GatewayTablesFollowCommands_9 : ((start (ring 3)).starts (cmdOp 1 0x31 66 5 0xC050086220000000 7 0 0) 0x31 66 1
    [0x7FF, 0xFFFFFFFFFC000000, all64, 0xFFFFFFFF00000000, 0] = true) ∧ ((⟨true, 5, 4, 4, 1, 8, 7, 0, 0, false⟩ : AuthEntry) = ⟨bit
    (cmdOp 1 0x31 66 5 0xC050086220000000 7 0 0).p16 62, fld (cmdOp 1 0x31 66 5 0xC050086220000000 7 0 0).p16 61 52, fld (cmdOp 1
    0x31 66 5 0xC050086220000000 7 0 0).p16 51 41, fld (cmdOp 1 0x31 66 5 0xC050086220000000 7 0 0).p16 40 37 + 1, fld (cmdOp 1 0x31
    66 5 0xC050086220000000 7 0 0).p16 36 33, fld (cmdOp 1 0x31 66 5 0xC050086220000000 7 0 0).p16 32 26, (cmdOp 1 0x31 66 5
    0xC050086220000000 7 0 0).p24.toNat, fld (cmdOp 1 0x31 66 5 0xC050086220000000 7 0 0).p32 63 32, 0, false⟩) ∧ ((⟨true, 5, 4, 4,
    1, 8, 7, 0, 0, false⟩ : AuthEntry).slot ≤ 575) ∧ ((⟨true, 5, 4, 4, 1, 8, 7, 0, 0, false⟩ : AuthEntry).authLen ≤ 2043) ∧ ((⟨true,
    5, 4, 4, 1, 8, 7, 0, 0, false⟩ : AuthEntry).fvTx ≤ 8) ∧ (8 ≤ (⟨true, 5, 4, 4, 1, 8, 7, 0, 0, false⟩ : AuthEntry).fvWidth) ∧
    ((⟨true, 5, 4, 4, 1, 8, 7, 0, 0, false⟩ : AuthEntry).fvWidth ≤ 64) ∧ ((⟨true, 5, 4, 4, 1, 8, 7, 0, 0, false⟩ : AuthEntry).fv ≤ 2
    ^ (⟨true, 5, 4, 4, 1, 8, 7, 0, 0, false⟩ : AuthEntry).fvWidth - 1) ∧ (((start (ring 3)).dev.auth (fld (cmdOp 1 0x31 66 5
    0xC050086220000000 7 0 0).p8 10 0)).all (fun x => !(decide (x.slot = (⟨true, 5, 4, 4, 1, 8, 7, 0, 0, false⟩ : AuthEntry).slot)
    && decide ((⟨true, 5, 4, 4, 1, 8, 7, 0, 0, false⟩ : AuthEntry).fv < x.fv))) = true) := by decide
theorem witness_GatewayTablesFollowCommands_10 : ((start fun d =>
    { ring 3 d with roots := { d.roots with auth := [(5, some ⟨true, 5, 4, 4, 1, 8, 9, 0, 0, false⟩)] } }).starts (cmdOp 1 0x31 66 5
    0xC050086220000000 7 0 0) 0x31 66 1 [0x7FF, 0xFFFFFFFFFC000000, all64, 0xFFFFFFFF00000000, 0] = true) ∧ ((⟨true, 5, 4, 4, 1, 8,
    7, 0, 0, false⟩ : AuthEntry) = ⟨bit (cmdOp 1 0x31 66 5 0xC050086220000000 7 0 0).p16 62, fld (cmdOp 1 0x31 66 5
    0xC050086220000000 7 0 0).p16 61 52, fld (cmdOp 1 0x31 66 5 0xC050086220000000 7 0 0).p16 51 41, fld (cmdOp 1 0x31 66 5
    0xC050086220000000 7 0 0).p16 40 37 + 1, fld (cmdOp 1 0x31 66 5 0xC050086220000000 7 0 0).p16 36 33, fld (cmdOp 1 0x31 66 5
    0xC050086220000000 7 0 0).p16 32 26, (cmdOp 1 0x31 66 5 0xC050086220000000 7 0 0).p24.toNat, fld (cmdOp 1 0x31 66 5
    0xC050086220000000 7 0 0).p32 63 32, 0, false⟩) ∧ ((⟨true, 5, 4, 4, 1, 8, 7, 0, 0, false⟩ : AuthEntry).slot ≤ 575) ∧ ((⟨true, 5,
    4, 4, 1, 8, 7, 0, 0, false⟩ : AuthEntry).authLen ≤ 2043) ∧ ((⟨true, 5, 4, 4, 1, 8, 7, 0, 0, false⟩ : AuthEntry).fvTx ≤ 8) ∧ (8 ≤
    (⟨true, 5, 4, 4, 1, 8, 7, 0, 0, false⟩ : AuthEntry).fvWidth) ∧ ((⟨true, 5, 4, 4, 1, 8, 7, 0, 0, false⟩ : AuthEntry).fvWidth ≤
    64) ∧ ((⟨true, 5, 4, 4, 1, 8, 7, 0, 0, false⟩ : AuthEntry).fv ≤ 2 ^ (⟨true, 5, 4, 4, 1, 8, 7, 0, 0, false⟩ : AuthEntry).fvWidth
    - 1) ∧ ((start fun d =>
    { ring 3 d with roots := { d.roots with auth := [(5, some ⟨true, 5, 4, 4, 1, 8, 9, 0, 0, false⟩)] } }).dev.auth (fld (cmdOp 1
    0x31 66 5 0xC050086220000000 7 0 0).p8 10 0) = some (⟨true, 5, 4, 4, 1, 8, 9, 0, 0, false⟩ : AuthEntry)) ∧ ((⟨true, 5, 4, 4, 1,
    8, 9, 0, 0, false⟩ : AuthEntry).slot = (⟨true, 5, 4, 4, 1, 8, 7, 0, 0, false⟩ : AuthEntry).slot) ∧ ((⟨true, 5, 4, 4, 1, 8, 7, 0,
    0, false⟩ : AuthEntry).fv < (⟨true, 5, 4, 4, 1, 8, 9, 0, 0, false⟩ : AuthEntry).fv) := by decide
theorem witness_GatewayTablesFollowCommands_11 : ((start (ring 3)).starts (cmdOp 1 0x31 66 5 0xC050086000000000 7 0 0) 0x31 66 1
    [0x7FF, 0xFFFFFFFFFC000000, all64, 0xFFFFFFFF00000000, 0] = true) ∧ ((⟨true, 5, 4, 4, 0, 0, 7, 0, 0, false⟩ : AuthEntry) = ⟨bit
    (cmdOp 1 0x31 66 5 0xC050086000000000 7 0 0).p16 62, fld (cmdOp 1 0x31 66 5 0xC050086000000000 7 0 0).p16 61 52, fld (cmdOp 1
    0x31 66 5 0xC050086000000000 7 0 0).p16 51 41, fld (cmdOp 1 0x31 66 5 0xC050086000000000 7 0 0).p16 40 37 + 1, fld (cmdOp 1 0x31
    66 5 0xC050086000000000 7 0 0).p16 36 33, fld (cmdOp 1 0x31 66 5 0xC050086000000000 7 0 0).p16 32 26, (cmdOp 1 0x31 66 5
    0xC050086000000000 7 0 0).p24.toNat, fld (cmdOp 1 0x31 66 5 0xC050086000000000 7 0 0).p32 63 32, 0, false⟩) ∧ (575 < (⟨true, 5,
    4, 4, 0, 0, 7, 0, 0, false⟩ : AuthEntry).slot ∨ 2043 < (⟨true, 5, 4, 4, 0, 0, 7, 0, 0, false⟩ : AuthEntry).authLen ∨ 8 < (⟨true,
    5, 4, 4, 0, 0, 7, 0, 0, false⟩ : AuthEntry).fvTx ∨ (⟨true, 5, 4, 4, 0, 0, 7, 0, 0, false⟩ : AuthEntry).fvWidth < 8 ∨ 64 <
    (⟨true, 5, 4, 4, 0, 0, 7, 0, 0, false⟩ : AuthEntry).fvWidth ∨ 2 ^ (⟨true, 5, 4, 4, 0, 0, 7, 0, 0, false⟩ : AuthEntry).fvWidth -
    1 < (⟨true, 5, 4, 4, 0, 0, 7, 0, 0, false⟩ : AuthEntry).fv) := by decide
theorem witness_GatewayTablesFollowCommands_12 : ((start fun d =>
    { ring 3 d with roots := { d.roots with auth := [(5, some (⟨true, 5, 4, 4, 1, 8, 7, 0, 3, false⟩ : AuthEntry))] } }).starts
    (cmdOp 2 0x31 66 5 0 0 0 0) 0x31 66 2 [0x7FF, 0, 0, 0, 0] = true) ∧ ((start fun d =>
    { ring 3 d with roots := { d.roots with auth := [(5, some (⟨true, 5, 4, 4, 1, 8, 7, 0, 3, false⟩ : AuthEntry))] } }).dev.auth
    (fld (cmdOp 2 0x31 66 5 0 0 0 0).p8 10 0) = some (⟨true, 5, 4, 4, 1, 8, 7, 0, 3, false⟩ : AuthEntry)) := by decide
theorem witness_GatewayTablesFollowCommands_13 : ((start (ring 3)).starts (cmdOp 2 0x31 66 5 0 0 0 0) 0x31 66 2 [0x7FF, 0, 0, 0, 0]
    = true) ∧ ((start (ring 3)).dev.auth (fld (cmdOp 2 0x31 66 5 0 0 0 0).p8 10 0) = none) := by decide
theorem witness_GatewayTablesFollowCommands_14 : ((start fun d =>
    { ring 3 d with roots := { d.roots with auth := [(5, some (⟨true, 5, 4, 4, 1, 8, 7, 0, 3, false⟩ : AuthEntry))] } }).starts
    (cmdOp 3 0x31 66 5 0 0 0 0) 0x31 66 3 [0x7FF, 0, 0, 0, 0] = true) := by decide
theorem witness_GatewayTablesFollowCommands_15 : ((start fun d =>
    { d with rx := [(39, some ⟨39, [], 64, 0, 0, none, 0, [], 0, 0, false, .plain, none, false⟩)], roots := { d.roots with batches := [(3, some ⟨[1], 2, 0⟩)] } }).dev.runs
    = true) ∧ ((start fun d =>
    { d with rx := [(39, some ⟨39, [], 64, 0, 0, none, 0, [], 0, 0, false, .plain, none, false⟩)], roots := { d.roots with batches := [(3, some ⟨[1], 2, 0⟩)] } }).dev.batch
    (3 : Fin 256).val = some (⟨[1], 2, 0⟩ : Batch)) ∧ ((⟨[1], 2, 0⟩ : Batch).since + (start fun d =>
    { d with rx := [(39, some ⟨39, [], 64, 0, 0, none, 0, [], 0, 0, false, .plain, none, false⟩)], roots := { d.roots with batches := [(3, some ⟨[1], 2, 0⟩)] } }).dev.rf
    (encReg (3 : Fin 256).val 4) 9 0 * usRaw ≤ (start fun d =>
    { d with rx := [(39, some ⟨39, [], 64, 0, 0, none, 0, [], 0, 0, false, .plain, none, false⟩)], roots := { d.roots with batches := [(3, some ⟨[1], 2, 0⟩)] } }).dev.now)
    ∧ ((start fun d =>
    { d with rx := [(39, some ⟨39, [], 64, 0, 0, none, 0, [], 0, 0, false, .plain, none, false⟩)], roots := { d.roots with batches := [(3, some ⟨[1], 2, 0⟩)] } }).dev.roots.closed.length
    < 64) ∧ (((start fun d =>
    { d with rx := [(39, some ⟨39, [], 64, 0, 0, none, 0, [], 0, 0, false, .plain, none, false⟩)], roots := { d.roots with batches := [(3, some ⟨[1], 2, 0⟩)] } }).dev.rxOf
    39).isSome = true) := by decide
theorem witness_GatewayTablesFollowCommands_16 : ((start fun d => rset (encReg 3 4) 9
    { d with roots := { d.roots with batches := [(3, some ⟨[1], 2, 0⟩)] } }).dev.runs = true) ∧ ((start fun d => rset (encReg 3 4) 9
    { d with roots := { d.roots with batches := [(3, some ⟨[1], 2, 0⟩)] } }).dev.batch (3 : Fin 256).val = some (⟨[1], 2, 0⟩ :
    Batch)) ∧ ((start fun d => rset (encReg 3 4) 9 { d with roots := { d.roots with batches := [(3, some ⟨[1], 2, 0⟩)] } }).dev.now
    < (⟨[1], 2, 0⟩ : Batch).since + (start fun d => rset (encReg 3 4) 9
    { d with roots := { d.roots with batches := [(3, some ⟨[1], 2, 0⟩)] } }).dev.rf (encReg (3 : Fin 256).val 4) 9 0 * usRaw) := by
    decide
theorem witness_GatewayTablesFollowCommands_17 : ((start (rset (encReg 3 0x1C) 5)).opens cpu (encReg (3 : Fin 256).val 0) = true) ∧
    ((start (rset (encReg 3 0x1C) 5)).dev.rb (encReg (3 : Fin 256).val 0) 31 = false) := by decide
theorem witness_GatewayTablesFollowCommands_18 : ((start fun d => rset (encReg 3 0) 0x80000000
    { d with rx := [(39, some ⟨39, [], 64, 0, 0, none, 0, [], 0, 0, false, .plain, none, false⟩)], roots := { d.roots with batches := [(3, some ⟨[1], 2, 0⟩)] } }).opens
    cpu (encReg (3 : Fin 256).val 0) = true) ∧ ((start fun d => rset (encReg 3 0) 0x80000000
    { d with rx := [(39, some ⟨39, [], 64, 0, 0, none, 0, [], 0, 0, false, .plain, none, false⟩)], roots := { d.roots with batches := [(3, some ⟨[1], 2, 0⟩)] } }).dev.rb
    (encReg (3 : Fin 256).val 0) 31 = true) ∧ ((start fun d => rset (encReg 3 0) 0x80000000
    { d with rx := [(39, some ⟨39, [], 64, 0, 0, none, 0, [], 0, 0, false, .plain, none, false⟩)], roots := { d.roots with batches := [(3, some ⟨[1], 2, 0⟩)] } }).dev.roots.closed.length
    < 64) ∧ (((start fun d => rset (encReg 3 0) 0x80000000
    { d with rx := [(39, some ⟨39, [], 64, 0, 0, none, 0, [], 0, 0, false, .plain, none, false⟩)], roots := { d.roots with batches := [(3, some ⟨[1], 2, 0⟩)] } }).dev.rxOf
    39).isSome = true) := by decide
theorem witness_GatewayTablesFollowCommands_19 : ((start fun d => queued [] none frame64 { d with decap := [1] }).dev.runs = true) ∧
    ((none : Option (Fin 18)).all (fun b => !(start fun d => queued [] none frame64 { d with decap := [1] }).dev.bankHolds b.val) =
    true) ∧ ((start fun d => queued [] none frame64 { d with decap := [1] }).dev.decap = 1 :: ([] : List Nat)) ∧ ((start fun d =>
    queued [] none frame64 { d with decap := [1] }).dev.stored 1 = some frame64) ∧ ((State.reset.dev.edit 39 frame64) = (start fun d
    => queued [] none frame64 { d with decap := [1] }).dev.edit 39 frame64) ∧ (beAt (State.reset.dev.edit 39 frame64) (14 + 4 *
    (vlanTags (State.reset.dev.edit 39 frame64)).1 - 2) 2 ≠ 0x22F0) := by decide
theorem witness_GatewayTablesFollowCommands_20 : ((start fun d => rset (barkReg 0x1460) 0 (queued [] none
    { frame64 with octets := zeros 12 ++ [0x22, 0xF0, 0x82, 0x80, 12] ++ zeros 9 ++ [4, 3, 0xC0, 1, 0, 0, 0, 5, 7, 0, 0, 0] }
    { d with decap := [1] })).dev.runs = true) ∧ ((none : Option (Fin 18)).all (fun b => !(start fun d => rset (barkReg 0x1460) 0
    (queued [] none
    { frame64 with octets := zeros 12 ++ [0x22, 0xF0, 0x82, 0x80, 12] ++ zeros 9 ++ [4, 3, 0xC0, 1, 0, 0, 0, 5, 7, 0, 0, 0] }
    { d with decap := [1] })).dev.bankHolds b.val) = true) ∧ ((start fun d => rset (barkReg 0x1460) 0 (queued [] none
    { frame64 with octets := zeros 12 ++ [0x22, 0xF0, 0x82, 0x80, 12] ++ zeros 9 ++ [4, 3, 0xC0, 1, 0, 0, 0, 5, 7, 0, 0, 0] }
    { d with decap := [1] })).dev.decap = 1 :: ([] : List Nat)) ∧ ((start fun d => rset (barkReg 0x1460) 0 (queued [] none
    { frame64 with octets := zeros 12 ++ [0x22, 0xF0, 0x82, 0x80, 12] ++ zeros 9 ++ [4, 3, 0xC0, 1, 0, 0, 0, 5, 7, 0, 0, 0] }
    { d with decap := [1] })).dev.stored 1 = some
    ({ frame64 with octets := zeros 12 ++ [0x22, 0xF0, 0x82, 0x80, 12] ++ zeros 9 ++ [4, 3, 0xC0, 1, 0, 0, 0, 5, 7, 0, 0, 0] } :
    Stored)) ∧ ((State.reset.dev.edit 39
    { frame64 with octets := zeros 12 ++ [0x22, 0xF0, 0x82, 0x80, 12] ++ zeros 9 ++ [4, 3, 0xC0, 1, 0, 0, 0, 5, 7, 0, 0, 0] }) =
    (start fun d => rset (barkReg 0x1460) 0 (queued [] none
    { frame64 with octets := zeros 12 ++ [0x22, 0xF0, 0x82, 0x80, 12] ++ zeros 9 ++ [4, 3, 0xC0, 1, 0, 0, 0, 5, 7, 0, 0, 0] }
    { d with decap := [1] })).dev.edit 39
    ({ frame64 with octets := zeros 12 ++ [0x22, 0xF0, 0x82, 0x80, 12] ++ zeros 9 ++ [4, 3, 0xC0, 1, 0, 0, 0, 5, 7, 0, 0, 0] } :
    Stored)) ∧ (18 = 14 + 4 * (vlanTags (State.reset.dev.edit 39
    { frame64 with octets := zeros 12 ++ [0x22, 0xF0, 0x82, 0x80, 12] ++ zeros 9 ++ [4, 3, 0xC0, 1, 0, 0, 0, 5, 7, 0, 0, 0] })).1) ∧
    (beAt (State.reset.dev.edit 39
    { frame64 with octets := zeros 12 ++ [0x22, 0xF0, 0x82, 0x80, 12] ++ zeros 9 ++ [4, 3, 0xC0, 1, 0, 0, 0, 5, 7, 0, 0, 0] }) (18 -
    2) 2 = 0x22F0) ∧ (((State.reset.dev.edit 39
    { frame64 with octets := zeros 12 ++ [0x22, 0xF0, 0x82, 0x80, 12] ++ zeros 9 ++ [4, 3, 0xC0, 1, 0, 0, 0, 5, 7, 0, 0, 0] }).drop
    18).getD 0 0 = (0x82 : BitVec 8)) ∧ (12 + beAt ((State.reset.dev.edit 39
    { frame64 with octets := zeros 12 ++ [0x22, 0xF0, 0x82, 0x80, 12] ++ zeros 9 ++ [4, 3, 0xC0, 1, 0, 0, 0, 5, 7, 0, 0, 0] }).drop
    18) 1 2 % 2048 ≤ ((State.reset.dev.edit 39
    { frame64 with octets := zeros 12 ++ [0x22, 0xF0, 0x82, 0x80, 12] ++ zeros 9 ++ [4, 3, 0xC0, 1, 0, 0, 0, 5, 7, 0, 0, 0] }).drop
    18).length) ∧ (([4, 3, 0xC0, 1, 0, 0, 0, 5, 7, 0, 0, 0] : List (BitVec 8)) = (((State.reset.dev.edit 39
    { frame64 with octets := zeros 12 ++ [0x22, 0xF0, 0x82, 0x80, 12] ++ zeros 9 ++ [4, 3, 0xC0, 1, 0, 0, 0, 5, 7, 0, 0, 0] }).drop
    18).drop 12).take (beAt ((State.reset.dev.edit 39
    { frame64 with octets := zeros 12 ++ [0x22, 0xF0, 0x82, 0x80, 12] ++ zeros 9 ++ [4, 3, 0xC0, 1, 0, 0, 0, 5, 7, 0, 0, 0] }).drop
    18) 1 2 % 2048)) ∧ (([4, 3, 0xC0, 1, 0, 0, 0, 5, 7, 0, 0, 0] : List (BitVec 8)) ≠ []) ∧ (beAt ([4, 3, 0xC0, 1, 0, 0, 0, 5, 7, 0,
    0, 0] : List (BitVec 8)) 0 2 % 512 * 4 = ([4, 3, 0xC0, 1, 0, 0, 0, 5, 7, 0, 0, 0] : List (BitVec 8)).length) ∧ (acfFrame ([4, 3,
    0xC0, 1, 0, 0, 0, 5, 7, 0, 0, 0] : List (BitVec 8)) = some (1, false, (⟨.classical, false, false, false, false, 5, 0, 0, false,
    0, [7]⟩ : CanFrame))) ∧ ((start fun d => rset (barkReg 0x1460) 0 (queued [] none
    { frame64 with octets := zeros 12 ++ [0x22, 0xF0, 0x82, 0x80, 12] ++ zeros 9 ++ [4, 3, 0xC0, 1, 0, 0, 0, 5, 7, 0, 0, 0] }
    { d with decap := [1] })).dev.rb (barkReg (0x1400 + 4 * 24)) 31 = false) ∧ ((start fun d => rset (barkReg 0x1460) 0 (queued []
    none { frame64 with octets := zeros 12 ++ [0x22, 0xF0, 0x82, 0x80, 12] ++ zeros 9 ++ [4, 3, 0xC0, 1, 0, 0, 0, 5, 7, 0, 0, 0] }
    { d with decap := [1] })).dev.lookupRoute ⟨24, 1,
    ({ frame64 with octets := zeros 12 ++ [0x22, 0xF0, 0x82, 0x80, 12] ++ zeros 9 ++ [4, 3, 0xC0, 1, 0, 0, 0, 5, 7, 0, 0, 0] } :
    Stored).zone, (start fun d => rset (barkReg 0x1460) 0 (queued [] none
    { frame64 with octets := zeros 12 ++ [0x22, 0xF0, 0x82, 0x80, 12] ++ zeros 9 ++ [4, 3, 0xC0, 1, 0, 0, 0, 5, 7, 0, 0, 0] }
    { d with decap := [1] })).dev.now, false, (⟨.classical, false, false, false, false, 5, 0, 0, false, 0, [7]⟩ : CanFrame)⟩ = none)
    := by decide
theorem witness_GatewayTablesFollowCommands_21 : ((start fun d => queued [] none frame64 { d with decap := [1] }).dev.runs = true) ∧
    ((start fun d => queued [] none frame64 { d with decap := [1] }).dev.decap = 1 :: ([] : List Nat)) ∧ ((start fun d => queued []
    none frame64 { d with decap := [1] }).dev.stored 1 = some frame64) ∧ ((start fun d => queued [] none frame64
    { d with decap := [1] }).dev.bankHolds (0 : Fin 18).val = true) := by decide
theorem witness_GatewayTablesFollowCommands_22 : (State.reset.dev.runs = true) ∧ (State.reset.dev.decap = []) := by decide
theorem witness_KeysEnterSlots_1 : ((start (ring 3)).starts (cmdOp 0x20 0x40 16 0x7FF01400 1 2 0 0) 0x40 (bankUnit (fld (cmdOp 0x20
    0x40 16 0x7FF01400 1 2 0 0).p8 19 10)) 0x20 [0xFFFFFFFF7FFFFC31, all64, all64, all64, all64] = true) ∧ ((start (ring
    3)).dev.lifeCycle ≠ 4) ∧ (fld (cmdOp 0x20 0x40 16 0x7FF01400 1 2 0 0).p8 19 10 ≤ 575) ∧ (((start (ring 3)).dev.slot (fld (cmdOp
    0x20 0x40 16 0x7FF01400 1 2 0 0).p8 19 10)).state ≠ 3) ∧ ((((start (ring 3)).dev.slot (fld (cmdOp 0x20 0x40 16 0x7FF01400 1 2 0
    0).p8 19 10)).state = 1 → ((start (ring 3)).dev.slot (fld (cmdOp 0x20 0x40 16 0x7FF01400 1 2 0 0).p8 19 10)).owner.testBit
    (cmdOp 0x20 0x40 16 0x7FF01400 1 2 0 0).origin = true)) ∧ ((start (ring 3)).dev.inUse (fld (cmdOp 0x20 0x40 16 0x7FF01400 1 2 0
    0).p8 19 10) = false) ∧ (fld (cmdOp 0x20 0x40 16 0x7FF01400 1 2 0 0).p8 19 10 < 512) ∧ ((((start (ring 3)).dev.slot (fld (cmdOp
    0x20 0x40 16 0x7FF01400 1 2 0 0).p8 19 10)).state = 1 → ((start (ring 3)).dev.slot (fld (cmdOp 0x20 0x40 16 0x7FF01400 1 2 0
    0).p8 19 10)).gen ≠ 0xFFFFFFFF)) ∧ ((bit (cmdOp 0x20 0x40 16 0x7FF01400 1 2 0 0).p8 0 = true ∨ ((cmdOp 0x20 0x40 16 0x7FF01400 1
    2 0 0).p32 = 0 ∧ (cmdOp 0x20 0x40 16 0x7FF01400 1 2 0 0).p40 = 0))) := by decide
theorem witness_KeysEnterSlots_2 : ((start fun d =>
    { rset (burlReg 0x4000) 2 (ring 3 d) with burl := { d.burl with liveRoot := some 1 } }).starts (cmdOp 0x21 0x40 16 0x7FF017FE 1
    2 0 1) 0x40 (bankUnit (fld (cmdOp 0x21 0x40 16 0x7FF017FE 1 2 0 1).p8 19 10)) 0x21 [0xFFFFFFFF7FFFFFFF, all64, all64, all64,
    0xFFFFFFFF00000311] = true) ∧ ((start fun d =>
    { rset (burlReg 0x4000) 2 (ring 3 d) with burl := { d.burl with liveRoot := some 1 } }).dev.lifeCycle ≠ 4) ∧ (fld (cmdOp 0x21
    0x40 16 0x7FF017FE 1 2 0 1).p8 19 10 ≤ 575) ∧ (((start fun d =>
    { rset (burlReg 0x4000) 2 (ring 3 d) with burl := { d.burl with liveRoot := some 1 } }).dev.slot (fld (cmdOp 0x21 0x40 16
    0x7FF017FE 1 2 0 1).p8 19 10)).state ≠ 3) ∧ ((((start fun d =>
    { rset (burlReg 0x4000) 2 (ring 3 d) with burl := { d.burl with liveRoot := some 1 } }).dev.slot (fld (cmdOp 0x21 0x40 16
    0x7FF017FE 1 2 0 1).p8 19 10)).state = 1 → ((start fun d =>
    { rset (burlReg 0x4000) 2 (ring 3 d) with burl := { d.burl with liveRoot := some 1 } }).dev.slot (fld (cmdOp 0x21 0x40 16
    0x7FF017FE 1 2 0 1).p8 19 10)).owner.testBit (cmdOp 0x21 0x40 16 0x7FF017FE 1 2 0 1).origin = true)) ∧ ((start fun d =>
    { rset (burlReg 0x4000) 2 (ring 3 d) with burl := { d.burl with liveRoot := some 1 } }).dev.inUse (fld (cmdOp 0x21 0x40 16
    0x7FF017FE 1 2 0 1).p8 19 10) = false) ∧ (fld (cmdOp 0x21 0x40 16 0x7FF017FE 1 2 0 1).p8 19 10 < 512) ∧ ((((start fun d =>
    { rset (burlReg 0x4000) 2 (ring 3 d) with burl := { d.burl with liveRoot := some 1 } }).dev.slot (fld (cmdOp 0x21 0x40 16
    0x7FF017FE 1 2 0 1).p8 19 10)).state = 1 → ((start fun d =>
    { rset (burlReg 0x4000) 2 (ring 3 d) with burl := { d.burl with liveRoot := some 1 } }).dev.slot (fld (cmdOp 0x21 0x40 16
    0x7FF017FE 1 2 0 1).p8 19 10)).gen ≠ 0xFFFFFFFF)) ∧ (fld (cmdOp 0x21 0x40 16 0x7FF017FE 1 2 0 1).p8 9 0 = 0x3FD + 1) ∧ ((start
    fun d => { rset (burlReg 0x4000) 2 (ring 3 d) with burl := { d.burl with liveRoot := some 1 } }).dev.rootOk 1 = true) := by
    decide
theorem witness_KeysEnterSlots_3 : ((start fun d => keyed 7 (key 3 true 77) (ring 3 d)).starts (cmdOp 0x21 0x40 16 0x7FF01407 1 2 0
    1) 0x40 (bankUnit (fld (cmdOp 0x21 0x40 16 0x7FF01407 1 2 0 1).p8 19 10)) 0x21 [0xFFFFFFFF7FFFFFFF, all64, all64, all64,
    0xFFFFFFFF00000311] = true) ∧ ((start fun d => keyed 7 (key 3 true 77) (ring 3 d)).dev.lifeCycle ≠ 4) ∧ (fld (cmdOp 0x21 0x40 16
    0x7FF01407 1 2 0 1).p8 19 10 ≤ 575) ∧ (((start fun d => keyed 7 (key 3 true 77) (ring 3 d)).dev.slot (fld (cmdOp 0x21 0x40 16
    0x7FF01407 1 2 0 1).p8 19 10)).state ≠ 3) ∧ ((((start fun d => keyed 7 (key 3 true 77) (ring 3 d)).dev.slot (fld (cmdOp 0x21
    0x40 16 0x7FF01407 1 2 0 1).p8 19 10)).state = 1 → ((start fun d => keyed 7 (key 3 true 77) (ring 3 d)).dev.slot (fld (cmdOp
    0x21 0x40 16 0x7FF01407 1 2 0 1).p8 19 10)).owner.testBit (cmdOp 0x21 0x40 16 0x7FF01407 1 2 0 1).origin = true)) ∧ ((start fun
    d => keyed 7 (key 3 true 77) (ring 3 d)).dev.inUse (fld (cmdOp 0x21 0x40 16 0x7FF01407 1 2 0 1).p8 19 10) = false) ∧ (fld (cmdOp
    0x21 0x40 16 0x7FF01407 1 2 0 1).p8 19 10 < 512) ∧ ((((start fun d => keyed 7 (key 3 true 77) (ring 3 d)).dev.slot (fld (cmdOp
    0x21 0x40 16 0x7FF01407 1 2 0 1).p8 19 10)).state = 1 → ((start fun d => keyed 7 (key 3 true 77) (ring 3 d)).dev.slot (fld
    (cmdOp 0x21 0x40 16 0x7FF01407 1 2 0 1).p8 19 10)).gen ≠ 0xFFFFFFFF)) ∧ (fld (cmdOp 0x21 0x40 16 0x7FF01407 1 2 0 1).p8 9 0 ≤
    575) ∧ ((start fun d => keyed 7 (key 3 true 77) (ring 3 d)).dev.mayUse (fld (cmdOp 0x21 0x40 16 0x7FF01407 1 2 0 1).p8 9 0)
    uDerive 10 = true) ∧ (((start fun d => keyed 7 (key 3 true 77) (ring 3 d)).dev.slot (fld (cmdOp 0x21 0x40 16 0x7FF01407 1 2 0
    1).p8 9 0)).key256 = true) ∧ (((start fun d => keyed 7 (key 3 true 77) (ring 3 d)).dev.slot (fld (cmdOp 0x21 0x40 16 0x7FF01407
    1 2 0 1).p8 9 0)).depth < 7) := by decide
theorem witness_KeysEnterSlots_4 : ((start fun d => keyed 7 (key 2 true
    0x000102030405060708090A0B0C0D0E0F101112131415161718191A1B1C1D1E1F) (ring 3 d)).starts (cmdOp 0x22 0x40 16 0x7FF01407 0x1000 0 0
    0) 0x40 (bankUnit (fld (cmdOp 0x22 0x40 16 0x7FF01407 0x1000 0 0 0).p8 19 10)) 0x22 [0xFFFFFFFF7FFFFFFF, all64,
    0xFFFFFFFF00000031, 0, 0] = true) ∧ ((start fun d => keyed 7 (key 2 true
    0x000102030405060708090A0B0C0D0E0F101112131415161718191A1B1C1D1E1F) (ring 3 d)).dev.lifeCycle ≠ 4) ∧ (fld (cmdOp 0x22 0x40 16
    0x7FF01407 0x1000 0 0 0).p8 19 10 ≤ 575) ∧ (((start fun d => keyed 7 (key 2 true
    0x000102030405060708090A0B0C0D0E0F101112131415161718191A1B1C1D1E1F) (ring 3 d)).dev.slot (fld (cmdOp 0x22 0x40 16 0x7FF01407
    0x1000 0 0 0).p8 19 10)).state ≠ 3) ∧ ((((start fun d => keyed 7 (key 2 true
    0x000102030405060708090A0B0C0D0E0F101112131415161718191A1B1C1D1E1F) (ring 3 d)).dev.slot (fld (cmdOp 0x22 0x40 16 0x7FF01407
    0x1000 0 0 0).p8 19 10)).state = 1 → ((start fun d => keyed 7 (key 2 true
    0x000102030405060708090A0B0C0D0E0F101112131415161718191A1B1C1D1E1F) (ring 3 d)).dev.slot (fld (cmdOp 0x22 0x40 16 0x7FF01407
    0x1000 0 0 0).p8 19 10)).owner.testBit (cmdOp 0x22 0x40 16 0x7FF01407 0x1000 0 0 0).origin = true)) ∧ ((start fun d => keyed 7
    (key 2 true 0x000102030405060708090A0B0C0D0E0F101112131415161718191A1B1C1D1E1F) (ring 3 d)).dev.inUse (fld (cmdOp 0x22 0x40 16
    0x7FF01407 0x1000 0 0 0).p8 19 10) = false) ∧ (fld (cmdOp 0x22 0x40 16 0x7FF01407 0x1000 0 0 0).p8 19 10 < 512) ∧ ((((start fun
    d => keyed 7 (key 2 true 0x000102030405060708090A0B0C0D0E0F101112131415161718191A1B1C1D1E1F) (ring 3 d)).dev.slot (fld (cmdOp
    0x22 0x40 16 0x7FF01407 0x1000 0 0 0).p8 19 10)).state = 1 → ((start fun d => keyed 7 (key 2 true
    0x000102030405060708090A0B0C0D0E0F101112131415161718191A1B1C1D1E1F) (ring 3 d)).dev.slot (fld (cmdOp 0x22 0x40 16 0x7FF01407
    0x1000 0 0 0).p8 19 10)).gen ≠ 0xFFFFFFFF)) ∧ (fld (cmdOp 0x22 0x40 16 0x7FF01407 0x1000 0 0 0).p8 9 0 ≤ 575) ∧ ((start fun d =>
    keyed 7 (key 2 true 0x000102030405060708090A0B0C0D0E0F101112131415161718191A1B1C1D1E1F) (ring 3 d)).dev.mayUse (fld (cmdOp 0x22
    0x40 16 0x7FF01407 0x1000 0 0 0).p8 9 0) uWrap 10 = true) ∧ (((start fun d => keyed 7 (key 2 true
    0x000102030405060708090A0B0C0D0E0F101112131415161718191A1B1C1D1E1F) (ring 3 d)).dev.slot (fld (cmdOp 0x22 0x40 16 0x7FF01407
    0x1000 0 0 0).p8 9 0)).depth < 7) ∧ ((⟨[0x64, 0xE8, 0xC3, 0xF9, 0xCE, 0x0F, 0x5B, 0xA2, 0x63, 0xE9, 0x77, 0x79, 0x05, 0x81,
    0x8A, 0x2A, 0x93, 0xC8, 0x19, 0x1E, 0x7D, 0x6E, 0x8A, 0xE7], false⟩ : HostData).err = false) ∧ ((if bit (cmdOp 0x22 0x40 16
    0x7FF01407 0x1000 0 0 0).p24 0 then 40 else 24) ≤ (⟨[0x64, 0xE8, 0xC3, 0xF9, 0xCE, 0x0F, 0x5B, 0xA2, 0x63, 0xE9, 0x77, 0x79,
    0x05, 0x81, 0x8A, 0x2A, 0x93, 0xC8, 0x19, 0x1E, 0x7D, 0x6E, 0x8A, 0xE7], false⟩ : HostData).octets.length) ∧
    (Sys2Proof.Machine.keyUnwrap ((start fun d => keyed 7 (key 2 true
    0x000102030405060708090A0B0C0D0E0F101112131415161718191A1B1C1D1E1F) (ring 3 d)).dev.slot (fld (cmdOp 0x22 0x40 16 0x7FF01407
    0x1000 0 0 0).p8 9 0)).octets ((⟨[0x64, 0xE8, 0xC3, 0xF9, 0xCE, 0x0F, 0x5B, 0xA2, 0x63, 0xE9, 0x77, 0x79, 0x05, 0x81, 0x8A,
    0x2A, 0x93, 0xC8, 0x19, 0x1E, 0x7D, 0x6E, 0x8A, 0xE7], false⟩ : HostData).octets.take (if bit (cmdOp 0x22 0x40 16 0x7FF01407
    0x1000 0 0 0).p24 0 then 40 else 24)) = some ([0x00, 0x11, 0x22, 0x33, 0x44, 0x55, 0x66, 0x77, 0x88, 0x99, 0xAA, 0xBB, 0xCC,
    0xDD, 0xEE, 0xFF] : List (BitVec 8))) := ⟨by decide, by decide, by decide, by decide, by decide, by decide, by decide, by
    decide, by decide, by decide, by decide, by decide, by decide, by decide +kernel⟩
theorem witness_KeysEnterSlots_5 : ((start (ring 3)).starts (cmdOp 0x20 0x40 16 0x7FF01400 1 2 3 0) 0x40 (bankUnit (fld (cmdOp 0x20
    0x40 16 0x7FF01400 1 2 3 0).p8 19 10)) 0x20 [0xFFFFFFFF7FFFFC31, all64, all64, all64, all64] = true) ∧ ((start (ring
    3)).dev.lifeCycle ≠ 4) ∧ ((bit (cmdOp 0x20 0x40 16 0x7FF01400 1 2 3 0).p8 0 = false ∧ ((cmdOp 0x20 0x40 16 0x7FF01400 1 2 3
    0).p32 ≠ 0 ∨ (cmdOp 0x20 0x40 16 0x7FF01400 1 2 3 0).p40 ≠ 0))) := by decide
theorem witness_KeysEnterSlots_6 : ((start (ring 3)).starts (cmdOp 0x20 0x40 24 0x7FF80000 1 2 0 0) 0x40 (bankUnit (fld (cmdOp 0x20
    0x40 24 0x7FF80000 1 2 0 0).p8 19 10)) 0x20 [0xFFFFFFFF7FFFFC31, all64, all64, all64, all64] = true) ∧ ((start (ring
    3)).dev.lifeCycle ≠ 4) ∧ (fld (cmdOp 0x20 0x40 24 0x7FF80000 1 2 0 0).p8 19 10 ≤ 575) ∧ (((start (ring 3)).dev.slot (fld (cmdOp
    0x20 0x40 24 0x7FF80000 1 2 0 0).p8 19 10)).state ≠ 3) ∧ ((((start (ring 3)).dev.slot (fld (cmdOp 0x20 0x40 24 0x7FF80000 1 2 0
    0).p8 19 10)).state = 1 → ((start (ring 3)).dev.slot (fld (cmdOp 0x20 0x40 24 0x7FF80000 1 2 0 0).p8 19 10)).owner.testBit
    (cmdOp 0x20 0x40 24 0x7FF80000 1 2 0 0).origin = true)) ∧ ((start (ring 3)).dev.inUse (fld (cmdOp 0x20 0x40 24 0x7FF80000 1 2 0
    0).p8 19 10) = false) ∧ (512 ≤ fld (cmdOp 0x20 0x40 24 0x7FF80000 1 2 0 0).p8 19 10) ∧ ((bit (cmdOp 0x20 0x40 24 0x7FF80000 1 2
    0 0).p8 0 = true ∨ ((cmdOp 0x20 0x40 24 0x7FF80000 1 2 0 0).p32 = 0 ∧ (cmdOp 0x20 0x40 24 0x7FF80000 1 2 0 0).p40 = 0))) := by
    decide
theorem witness_KeysEnterSlots_7 : ((start fun d => keyed 7 (key 2 true
    0x000102030405060708090A0B0C0D0E0F101112131415161718191A1B1C1D1E1F) (ring 3 d)).starts (cmdOp 0x22 0x40 16 0x7FF01407 0x1000 0 0
    0) 0x40 (bankUnit (fld (cmdOp 0x22 0x40 16 0x7FF01407 0x1000 0 0 0).p8 19 10)) 0x22 [0xFFFFFFFF7FFFFFFF, all64,
    0xFFFFFFFF00000031, 0, 0] = true) ∧ ((start fun d => keyed 7 (key 2 true
    0x000102030405060708090A0B0C0D0E0F101112131415161718191A1B1C1D1E1F) (ring 3 d)).dev.lifeCycle ≠ 4) ∧ (fld (cmdOp 0x22 0x40 16
    0x7FF01407 0x1000 0 0 0).p8 19 10 ≤ 575) ∧ (((start fun d => keyed 7 (key 2 true
    0x000102030405060708090A0B0C0D0E0F101112131415161718191A1B1C1D1E1F) (ring 3 d)).dev.slot (fld (cmdOp 0x22 0x40 16 0x7FF01407
    0x1000 0 0 0).p8 19 10)).state ≠ 3) ∧ ((((start fun d => keyed 7 (key 2 true
    0x000102030405060708090A0B0C0D0E0F101112131415161718191A1B1C1D1E1F) (ring 3 d)).dev.slot (fld (cmdOp 0x22 0x40 16 0x7FF01407
    0x1000 0 0 0).p8 19 10)).state = 1 → ((start fun d => keyed 7 (key 2 true
    0x000102030405060708090A0B0C0D0E0F101112131415161718191A1B1C1D1E1F) (ring 3 d)).dev.slot (fld (cmdOp 0x22 0x40 16 0x7FF01407
    0x1000 0 0 0).p8 19 10)).owner.testBit (cmdOp 0x22 0x40 16 0x7FF01407 0x1000 0 0 0).origin = true)) ∧ ((start fun d => keyed 7
    (key 2 true 0x000102030405060708090A0B0C0D0E0F101112131415161718191A1B1C1D1E1F) (ring 3 d)).dev.inUse (fld (cmdOp 0x22 0x40 16
    0x7FF01407 0x1000 0 0 0).p8 19 10) = false) ∧ (fld (cmdOp 0x22 0x40 16 0x7FF01407 0x1000 0 0 0).p8 19 10 < 512) ∧ ((((start fun
    d => keyed 7 (key 2 true 0x000102030405060708090A0B0C0D0E0F101112131415161718191A1B1C1D1E1F) (ring 3 d)).dev.slot (fld (cmdOp
    0x22 0x40 16 0x7FF01407 0x1000 0 0 0).p8 19 10)).state = 1 → ((start fun d => keyed 7 (key 2 true
    0x000102030405060708090A0B0C0D0E0F101112131415161718191A1B1C1D1E1F) (ring 3 d)).dev.slot (fld (cmdOp 0x22 0x40 16 0x7FF01407
    0x1000 0 0 0).p8 19 10)).gen ≠ 0xFFFFFFFF)) ∧ (fld (cmdOp 0x22 0x40 16 0x7FF01407 0x1000 0 0 0).p8 9 0 ≤ 575) ∧ ((start fun d =>
    keyed 7 (key 2 true 0x000102030405060708090A0B0C0D0E0F101112131415161718191A1B1C1D1E1F) (ring 3 d)).dev.mayUse (fld (cmdOp 0x22
    0x40 16 0x7FF01407 0x1000 0 0 0).p8 9 0) uWrap 10 = true) ∧ (((start fun d => keyed 7 (key 2 true
    0x000102030405060708090A0B0C0D0E0F101112131415161718191A1B1C1D1E1F) (ring 3 d)).dev.slot (fld (cmdOp 0x22 0x40 16 0x7FF01407
    0x1000 0 0 0).p8 9 0)).depth < 7) ∧ ((⟨List.replicate 24 0, false⟩ : HostData).err = false) ∧ ((if bit (cmdOp 0x22 0x40 16
    0x7FF01407 0x1000 0 0 0).p24 0 then 40 else 24) ≤ (⟨List.replicate 24 0, false⟩ : HostData).octets.length) ∧
    (Sys2Proof.Machine.keyUnwrap ((start fun d => keyed 7 (key 2 true
    0x000102030405060708090A0B0C0D0E0F101112131415161718191A1B1C1D1E1F) (ring 3 d)).dev.slot (fld (cmdOp 0x22 0x40 16 0x7FF01407
    0x1000 0 0 0).p8 9 0)).octets ((⟨List.replicate 24 0, false⟩ : HostData).octets.take (if bit (cmdOp 0x22 0x40 16 0x7FF01407
    0x1000 0 0 0).p24 0 then 40 else 24)) = none) := ⟨by decide, by decide, by decide, by decide, by decide, by decide, by decide,
    by decide, by decide, by decide, by decide, by decide, by decide, by decide +kernel⟩
theorem witness_KeysLeaveSlots_1 : ((start fun d => keyed 5 (key 0 true 77) (ring 3 d)).starts (cmdOp 0x23 0x40 16 0x1400 0 0 0 0)
    0x40 (bankUnit (fld (cmdOp 0x23 0x40 16 0x1400 0 0 0 0).p8 19 10)) 0x23 [0xFFC00, 0, 0, 0, 0] = true) ∧ ((start fun d => keyed 5
    (key 0 true 77) (ring 3 d)).dev.lifeCycle ≠ 4) ∧ (fld (cmdOp 0x23 0x40 16 0x1400 0 0 0 0).p8 19 10 ≤ 575) ∧ (((start fun d =>
    keyed 5 (key 0 true 77) (ring 3 d)).dev.slot (fld (cmdOp 0x23 0x40 16 0x1400 0 0 0 0).p8 19 10)).state ≠ 3) ∧ ((((start fun d =>
    keyed 5 (key 0 true 77) (ring 3 d)).dev.slot (fld (cmdOp 0x23 0x40 16 0x1400 0 0 0 0).p8 19 10)).state = 1 → ((start fun d =>
    keyed 5 (key 0 true 77) (ring 3 d)).dev.slot (fld (cmdOp 0x23 0x40 16 0x1400 0 0 0 0).p8 19 10)).owner.testBit (cmdOp 0x23 0x40
    16 0x1400 0 0 0 0).origin = true)) ∧ ((start fun d => keyed 5 (key 0 true 77) (ring 3 d)).dev.inUse (fld (cmdOp 0x23 0x40 16
    0x1400 0 0 0 0).p8 19 10) = false) ∧ (((start fun d => keyed 5 (key 0 true 77) (ring 3 d)).dev.slot (fld (cmdOp 0x23 0x40 16
    0x1400 0 0 0 0).p8 19 10)).state ≠ 0) ∧ (((start fun d => keyed 5 (key 0 true 77) (ring 3 d)).dev.slot (fld (cmdOp 0x23 0x40 16
    0x1400 0 0 0 0).p8 19 10)).gen ≠ 0xFFFFFFFF) := by decide
theorem witness_KeysLeaveSlots_2 : ((start fun d => (keyed 5 (key 0 true 77) (ring 3 d)).beginUse .can 5).starts (cmdOp 0x23 0x40 16
    0x1400 0 0 0 0) 0x40 (bankUnit (fld (cmdOp 0x23 0x40 16 0x1400 0 0 0 0).p8 19 10)) 0x23 [0xFFC00, 0, 0, 0, 0] = true) ∧ ((start
    fun d => (keyed 5 (key 0 true 77) (ring 3 d)).beginUse .can 5).dev.lifeCycle ≠ 4) ∧ (fld (cmdOp 0x23 0x40 16 0x1400 0 0 0 0).p8
    19 10 ≤ 575) ∧ (((start fun d => (keyed 5 (key 0 true 77) (ring 3 d)).beginUse .can 5).dev.slot (fld (cmdOp 0x23 0x40 16 0x1400
    0 0 0 0).p8 19 10)).state ≠ 3) ∧ ((((start fun d => (keyed 5 (key 0 true 77) (ring 3 d)).beginUse .can 5).dev.slot (fld (cmdOp
    0x23 0x40 16 0x1400 0 0 0 0).p8 19 10)).state = 1 → ((start fun d => (keyed 5 (key 0 true 77) (ring 3 d)).beginUse .can
    5).dev.slot (fld (cmdOp 0x23 0x40 16 0x1400 0 0 0 0).p8 19 10)).owner.testBit (cmdOp 0x23 0x40 16 0x1400 0 0 0 0).origin =
    true)) ∧ ((start fun d => (keyed 5 (key 0 true 77) (ring 3 d)).beginUse .can 5).dev.inUse (fld (cmdOp 0x23 0x40 16 0x1400 0 0 0
    0).p8 19 10) = true) ∧ (((start fun d => (keyed 5 (key 0 true 77) (ring 3 d)).beginUse .can 5).dev.slot (fld (cmdOp 0x23 0x40 16
    0x1400 0 0 0 0).p8 19 10)).state ≠ 0) ∧ (((start fun d => (keyed 5 (key 0 true 77) (ring 3 d)).beginUse .can 5).dev.slot (fld
    (cmdOp 0x23 0x40 16 0x1400 0 0 0 0).p8 19 10)).gen ≠ 0xFFFFFFFF) := by decide
theorem witness_KeysLeaveSlots_3 : ((start fun d => keyed 5 (key 0 true 77) (ring 3 d)).starts (cmdOp 0x24 0x40 16 0x1400 0 0 0 0)
    0x40 (bankUnit (fld (cmdOp 0x24 0x40 16 0x1400 0 0 0 0).p8 19 10)) 0x24 [0xFFC00, 0, 0, 0, 0] = true) ∧ ((start fun d => keyed 5
    (key 0 true 77) (ring 3 d)).dev.lifeCycle ≠ 4) ∧ (fld (cmdOp 0x24 0x40 16 0x1400 0 0 0 0).p8 19 10 ≤ 575) ∧ (((start fun d =>
    keyed 5 (key 0 true 77) (ring 3 d)).dev.slot (fld (cmdOp 0x24 0x40 16 0x1400 0 0 0 0).p8 19 10)).state ≠ 3) ∧ ((((start fun d =>
    keyed 5 (key 0 true 77) (ring 3 d)).dev.slot (fld (cmdOp 0x24 0x40 16 0x1400 0 0 0 0).p8 19 10)).state = 1 → ((start fun d =>
    keyed 5 (key 0 true 77) (ring 3 d)).dev.slot (fld (cmdOp 0x24 0x40 16 0x1400 0 0 0 0).p8 19 10)).owner.testBit (cmdOp 0x24 0x40
    16 0x1400 0 0 0 0).origin = true)) ∧ ((start fun d => keyed 5 (key 0 true 77) (ring 3 d)).dev.inUse (fld (cmdOp 0x24 0x40 16
    0x1400 0 0 0 0).p8 19 10) = false) ∧ (((start fun d => keyed 5 (key 0 true 77) (ring 3 d)).dev.slot (fld (cmdOp 0x24 0x40 16
    0x1400 0 0 0 0).p8 19 10)).state ≠ 0) ∧ (((start fun d => keyed 5 (key 0 true 77) (ring 3 d)).dev.slot (fld (cmdOp 0x24 0x40 16
    0x1400 0 0 0 0).p8 19 10)).gen ≠ 0xFFFFFFFF) := by decide
theorem witness_KeysLeaveSlots_4 : ((start fun d => keyed 5 (key 0 true 77) (ring 3 d)).starts (cmdOp 0x25 0x40 16 0x1400 0 0 0 0)
    0x40 (bankUnit (fld (cmdOp 0x25 0x40 16 0x1400 0 0 0 0).p8 19 10)) 0x25 [0xFFC00, 0, 0, 0, 0] = true) ∧ ((start fun d => keyed 5
    (key 0 true 77) (ring 3 d)).dev.lifeCycle ≠ 4) ∧ (fld (cmdOp 0x25 0x40 16 0x1400 0 0 0 0).p8 19 10 ≤ 575) ∧ (((start fun d =>
    keyed 5 (key 0 true 77) (ring 3 d)).dev.slot (fld (cmdOp 0x25 0x40 16 0x1400 0 0 0 0).p8 19 10)).state ≠ 3) ∧ ((((start fun d =>
    keyed 5 (key 0 true 77) (ring 3 d)).dev.slot (fld (cmdOp 0x25 0x40 16 0x1400 0 0 0 0).p8 19 10)).state = 1 → ((start fun d =>
    keyed 5 (key 0 true 77) (ring 3 d)).dev.slot (fld (cmdOp 0x25 0x40 16 0x1400 0 0 0 0).p8 19 10)).owner.testBit (cmdOp 0x25 0x40
    16 0x1400 0 0 0 0).origin = true)) ∧ ((start fun d => keyed 5 (key 0 true 77) (ring 3 d)).dev.inUse (fld (cmdOp 0x25 0x40 16
    0x1400 0 0 0 0).p8 19 10) = false) := by decide
theorem witness_KeysLeaveSlots_5 : ((start fun d => keyed 5 (key 0 true 77) (ring 3 d)).starts (cmdOp 0x26 0x40 16 0x1400 0 0 0 0)
    0x40 (bankUnit (fld (cmdOp 0x26 0x40 16 0x1400 0 0 0 0).p8 19 10)) 0x26 [0xFFC00, 0, 0, 0, 0] = true) ∧ ((start fun d => keyed 5
    (key 0 true 77) (ring 3 d)).dev.lifeCycle ≠ 4) ∧ (fld (cmdOp 0x26 0x40 16 0x1400 0 0 0 0).p8 19 10 ≤ 575) ∧ (((start fun d =>
    keyed 5 (key 0 true 77) (ring 3 d)).dev.slot (fld (cmdOp 0x26 0x40 16 0x1400 0 0 0 0).p8 19 10)).state ≠ 3) ∧ ((((start fun d =>
    keyed 5 (key 0 true 77) (ring 3 d)).dev.slot (fld (cmdOp 0x26 0x40 16 0x1400 0 0 0 0).p8 19 10)).state = 1 → ((start fun d =>
    keyed 5 (key 0 true 77) (ring 3 d)).dev.slot (fld (cmdOp 0x26 0x40 16 0x1400 0 0 0 0).p8 19 10)).owner.testBit (cmdOp 0x26 0x40
    16 0x1400 0 0 0 0).origin = true)) := by decide
theorem witness_KeysLeaveSlots_6 : ((start fun d =>
    { { ring 3 d with basjo := (ring 3 d).basjo.setRing 0 0 { RingRun.idle with running := some ⟨(cmdOp 0x23 0x40 16 0x1400 0 0 0 0), 0x23, 0⟩ } } with burl := { d.burl with changes := [⟨5, 1, (cmdOp 0x23 0x40 16 0x1400 0 0 0 0), 0x23, 2⟩] } }).dev.runs
    = true) ∧ ((start fun d =>
    { { ring 3 d with basjo := (ring 3 d).basjo.setRing 0 0 { RingRun.idle with running := some ⟨(cmdOp 0x23 0x40 16 0x1400 0 0 0 0), 0x23, 0⟩ } } with burl := { d.burl with changes := [⟨5, 1, (cmdOp 0x23 0x40 16 0x1400 0 0 0 0), 0x23, 2⟩] } }).dev.burl.changes.find?
    (fun y => decide (y.slot = (5 : Fin 576).val)) = some (⟨5, 1, (cmdOp 0x23 0x40 16 0x1400 0 0 0 0), 0x23, 2⟩ : KeyChange)) ∧
    ((start fun d =>
    { { ring 3 d with basjo := (ring 3 d).basjo.setRing 0 0 { RingRun.idle with running := some ⟨(cmdOp 0x23 0x40 16 0x1400 0 0 0 0), 0x23, 0⟩ } } with burl := { d.burl with changes := [⟨5, 1, (cmdOp 0x23 0x40 16 0x1400 0 0 0 0), 0x23, 2⟩] } }).dev.usesNow.any
    (fun u => decide (u.serial < (⟨5, 1, (cmdOp 0x23 0x40 16 0x1400 0 0 0 0), 0x23, 2⟩ : KeyChange).serial) && u.chain.contains (5 :
    Fin 576).val) = false) ∧ ((⟨5, 1, (cmdOp 0x23 0x40 16 0x1400 0 0 0 0), 0x23, 2⟩ : KeyChange).desc.writeErr = false) ∧ ((start
    fun d =>
    { { ring 3 d with basjo := (ring 3 d).basjo.setRing 0 0 { RingRun.idle with running := some ⟨(cmdOp 0x23 0x40 16 0x1400 0 0 0 0), 0x23, 0⟩ } } with burl := { d.burl with changes := [⟨5, 1, (cmdOp 0x23 0x40 16 0x1400 0 0 0 0), 0x23, 2⟩] } }).dev.basjo.ringType
    (⟨5, 1, (cmdOp 0x23 0x40 16 0x1400 0 0 0 0), 0x23, 2⟩ : KeyChange).desc.host.val (⟨5, 1, (cmdOp 0x23 0x40 16 0x1400 0 0 0 0),
    0x23, 2⟩ : KeyChange).desc.ring.val = 3) ∧ ((start fun d =>
    { { ring 3 d with basjo := (ring 3 d).basjo.setRing 0 0 { RingRun.idle with running := some ⟨(cmdOp 0x23 0x40 16 0x1400 0 0 0 0), 0x23, 0⟩ } } with burl := { d.burl with changes := [⟨5, 1, (cmdOp 0x23 0x40 16 0x1400 0 0 0 0), 0x23, 2⟩] } }).dev.basjo.ringActive
    (⟨5, 1, (cmdOp 0x23 0x40 16 0x1400 0 0 0 0), 0x23, 2⟩ : KeyChange).desc.host.val (⟨5, 1, (cmdOp 0x23 0x40 16 0x1400 0 0 0 0),
    0x23, 2⟩ : KeyChange).desc.ring.val = true) ∧ (((start fun d =>
    { { ring 3 d with basjo := (ring 3 d).basjo.setRing 0 0 { RingRun.idle with running := some ⟨(cmdOp 0x23 0x40 16 0x1400 0 0 0 0), 0x23, 0⟩ } } with burl := { d.burl with changes := [⟨5, 1, (cmdOp 0x23 0x40 16 0x1400 0 0 0 0), 0x23, 2⟩] } }).dev.basjo.ring
    (⟨5, 1, (cmdOp 0x23 0x40 16 0x1400 0 0 0 0), 0x23, 2⟩ : KeyChange).desc.host.val (⟨5, 1, (cmdOp 0x23 0x40 16 0x1400 0 0 0 0),
    0x23, 2⟩ : KeyChange).desc.ring.val).running = some ⟨(⟨5, 1, (cmdOp 0x23 0x40 16 0x1400 0 0 0 0), 0x23, 2⟩ : KeyChange).desc,
    (⟨5, 1, (cmdOp 0x23 0x40 16 0x1400 0 0 0 0), 0x23, 2⟩ : KeyChange).op, 0⟩) := by decide
theorem witness_KeysLeaveSlots_7 : ((start fun d => keyed 5 { key 0 true 77 with parent := 9 } (ring 3 d)).dev.runs = true) ∧
    ((start fun d => keyed 5 { key 0 true 77 with parent := 9 } (ring 3 d)).dev.burl.slots.wf (fun _ => .empty) = true) := by decide
theorem witness_KeysLeaveSlots_8 : ((start (ring 3)).starts (cmdOp 0x23 0x40 16 0x1400 0 0 0 0) 0x40 (bankUnit (fld (cmdOp 0x23 0x40
    16 0x1400 0 0 0 0).p8 19 10)) 0x23 [0xFFC00, 0, 0, 0, 0] = true) ∧ ((start (ring 3)).dev.lifeCycle ≠ 4) ∧ (fld (cmdOp 0x23 0x40
    16 0x1400 0 0 0 0).p8 19 10 ≤ 575) ∧ (((start (ring 3)).dev.slot (fld (cmdOp 0x23 0x40 16 0x1400 0 0 0 0).p8 19 10)).state ≠ 3)
    ∧ (((start (ring 3)).dev.slot (fld (cmdOp 0x23 0x40 16 0x1400 0 0 0 0).p8 19 10)).state = 0) := by decide
theorem witness_KeysLeaveSlots_9 : ((start fun d => keyed 5 { key 0 true 77 with owner := 0 } (ring 3 d)).starts (cmdOp 0x25 0x40 16
    0x1400 0 0 0 0) 0x40 (bankUnit (fld (cmdOp 0x25 0x40 16 0x1400 0 0 0 0).p8 19 10)) 0x25 [0xFFC00, 0, 0, 0, 0] = true) ∧ ((start
    fun d => keyed 5 { key 0 true 77 with owner := 0 } (ring 3 d)).dev.lifeCycle ≠ 4) ∧ (fld (cmdOp 0x25 0x40 16 0x1400 0 0 0 0).p8
    19 10 ≤ 575) ∧ (((start fun d => keyed 5 { key 0 true 77 with owner := 0 } (ring 3 d)).dev.slot (fld (cmdOp 0x25 0x40 16 0x1400
    0 0 0 0).p8 19 10)).state = 1) ∧ (((start fun d => keyed 5 { key 0 true 77 with owner := 0 } (ring 3 d)).dev.slot (fld (cmdOp
    0x25 0x40 16 0x1400 0 0 0 0).p8 19 10)).owner.testBit (cmdOp 0x25 0x40 16 0x1400 0 0 0 0).origin = false) := by decide
theorem witness_KeysLeaveSlots_10 : ((start fun d => rset (burlReg 0x4000) 4 (ring 3 d)).starts (cmdOp 0x26 0x40 16 0x1400 0 0 0 0)
    0x40 (cmdOp 0x26 0x40 16 0x1400 0 0 0 0).un 0x26 [0xFFC00, 0, 0, 0, 0] = true) ∧ (16 ≤ (cmdOp 0x26 0x40 16 0x1400 0 0 0 0).un) ∧
    ((cmdOp 0x26 0x40 16 0x1400 0 0 0 0).un < 25) ∧ ((start fun d => rset (burlReg 0x4000) 4 (ring 3 d)).dev.lifeCycle = 4) := by
    decide
theorem witness_KeysLeaveSlots_11 : (State.reset.dev.runs = true) ∧ (State.reset.dev.burl.changes.find? (fun y => decide (y.slot =
    (5 : Fin 576).val)) = none) := by decide
theorem witness_BurlServices_1 : ((start fun d => rset (burlReg 0x4000) 2 (ring 3 d)).starts (cmdOp 0x7F 0x40 0xFF 0 0 0 0 0) 0x40
    (cmdOp 0x7F 0x40 0xFF 0 0 0 0 0).un (cmdOp 0x7F 0x40 0xFF 0 0 0 0 0).op [all64, all64, all64, all64, all64] = true) ∧ ((unitOps
    (cmdOp 0x7F 0x40 0xFF 0 0 0 0 0).cl (cmdOp 0x7F 0x40 0xFF 0 0 0 0 0).un).contains (cmdOp 0x7F 0x40 0xFF 0 0 0 0 0).op = false) ∧
    (lcMay (start fun d => rset (burlReg 0x4000) 2 (ring 3 d)).dev.lifeCycle (3 : Fin 5).val = true) := by decide
theorem witness_BurlServices_2 : ((start (ring 3)).starts (cmdOp 0x38 0x40 33 0x1000 100 0 0 0) 0x40 33 0x38 [all64, 0x1FFF, 0, 0,
    0] = true) ∧ (fld (cmdOp 0x38 0x40 33 0x1000 100 0 0 0).p16 12 0 ≠ 0) ∧ (fld (cmdOp 0x38 0x40 33 0x1000 100 0 0 0).p16 12 0 ≤
    4096) ∧ ((start (ring 3)).dev.rngFailed = false) := by decide
theorem witness_BurlServices_3 : (State.reset.dev.runs = true) := by decide
theorem witness_BurlServices_4 : ((start (ring 3)).starts (cmdOp 0x30 0x40 32 0x1000 0 0 0 0) 0x40 32 0x30 [all64, 0, 0, 0, 0] =
    true) ∧ ((start (ring 3)).dev.idSeeds = some ((start (ring 3)).dev.idSeeds.getD ([], []))) := ⟨by decide, rfl⟩
theorem witness_BurlServices_5 : ((start (ring 3)).starts (cmdOp 0x31 0x40 32 0x1000 0 0 0 0) 0x40 32 0x31 [all64, all64, all64,
    all64, all64] = true) ∧ ((start (ring 3)).dev.idSeeds = some ((start (ring 3)).dev.idSeeds.getD ([], []))) ∧ ((start (ring
    3)).dev.rngFailed = false) := ⟨by decide, rfl, by decide⟩
theorem witness_BurlServices_6 : ((start (ring 3)).starts (cmdOp 0x32 0x40 32 0x1000 0 0 0 0) 0x40 32 0x32 [all64, 0x1FFFF, 0, 0, 0]
    = true) ∧ (fld (cmdOp 0x32 0x40 32 0x1000 0 0 0 0).p16 16 0 ≤ 65536) ∧ ((⟨List.replicate 5357 0, false⟩ : HostData).err = false)
    ∧ (5357 + fld (cmdOp 0x32 0x40 32 0x1000 0 0 0 0).p16 16 0 ≤ (⟨List.replicate 5357 0, false⟩ : HostData).octets.length) ∧
    ((edVerify ((List.replicate 5357 (0 : BitVec 8)).take 32) (((List.replicate 5357 (0 : BitVec 8)).drop 1984).take 64)
    (((List.replicate 5357 (0 : BitVec 8)).drop 5357).take 0) && mldsaVerify (((List.replicate 5357 (0 : BitVec 8)).drop 32).take
    1952) (((List.replicate 5357 (0 : BitVec 8)).drop 2048).take 3309) (((List.replicate 5357 (0 : BitVec 8)).drop 5357).take 0)) =
    (edVerify ((⟨List.replicate 5357 0, false⟩ : HostData).octets.take 32) (((⟨List.replicate 5357 0, false⟩ : HostData).octets.drop
    1984).take 64) (((⟨List.replicate 5357 0, false⟩ : HostData).octets.drop 5357).take (fld (cmdOp 0x32 0x40 32 0x1000 0 0 0 0).p16
    16 0)) && mldsaVerify (((⟨List.replicate 5357 0, false⟩ : HostData).octets.drop 32).take 1952) (((⟨List.replicate 5357 0, false⟩
    : HostData).octets.drop 2048).take 3309) (((⟨List.replicate 5357 0, false⟩ : HostData).octets.drop 5357).take (fld (cmdOp 0x32
    0x40 32 0x1000 0 0 0 0).p16 16 0)))) := ⟨by decide, by decide, by decide, by decide, rfl⟩
theorem witness_BurlServices_7 : ((start (keyed 5 (key 0 true 77))).dev.runs = true) := by decide
theorem witness_BurlServices_8 : ((start fun d => rset (burlReg 0x4000) 2 (ring 3 d)).starts (cmdOp 0x7F 0x40 0xFF 0 0 0 0 0) 0x40
    (cmdOp 0x7F 0x40 0xFF 0 0 0 0 0).un (cmdOp 0x7F 0x40 0xFF 0 0 0 0 0).op [all64, all64, all64, all64, all64] = true) ∧ ((unitOps
    (cmdOp 0x7F 0x40 0xFF 0 0 0 0 0).cl (cmdOp 0x7F 0x40 0xFF 0 0 0 0 0).un).contains (cmdOp 0x7F 0x40 0xFF 0 0 0 0 0).op = false) ∧
    (lcMay (start fun d => rset (burlReg 0x4000) 2 (ring 3 d)).dev.lifeCycle (1 : Fin 5).val = false) := by decide
theorem witness_BurlServices_9 : ((start (ring 3)).starts (cmdOp 0x38 0x40 33 0x1000 0 0 0 0) 0x40 33 0x38 [all64, 0x1FFF, 0, 0, 0]
    = true) ∧ (fld (cmdOp 0x38 0x40 33 0x1000 0 0 0 0).p16 12 0 = 0 ∨ 4096 < fld (cmdOp 0x38 0x40 33 0x1000 0 0 0 0).p16 12 0) := by
    decide
theorem witness_BurlServices_10 : ((start fun d => rset (burlReg 0x4018) 4 (ring 3 d)).starts (cmdOp 0x38 0x40 33 0x1000 9 0 0 0)
    0x40 33 0x38 [all64, 0x1FFF, 0, 0, 0] = true) ∧ (fld (cmdOp 0x38 0x40 33 0x1000 9 0 0 0).p16 12 0 ≠ 0) ∧ (fld (cmdOp 0x38 0x40
    33 0x1000 9 0 0 0).p16 12 0 ≤ 4096) ∧ ((start fun d => rset (burlReg 0x4018) 4 (ring 3 d)).dev.rngFailed = true) := by decide
theorem witness_BurlServices_11 : ((start fun d => { ring 3 d with burl := { d.burl with liveRoot := none } }).starts (cmdOp 0x30
    0x40 32 0x1000 0 0 0 0) 0x40 32 0x30 [all64, 0, 0, 0, 0] = true) ∧ ((start fun d =>
    { ring 3 d with burl := { d.burl with liveRoot := none } }).dev.idSeeds = none) := by decide
theorem witness_BurlServices_12 : ((start fun d => keyed 5 (key 0 true 77)
    { d with tap := { d.tap with asleep := true } }).dev.tap.asleep = true) ∧ ((start fun d => keyed 5 (key 0 true 77)
    { d with tap := { d.tap with asleep := true } }).dev.mode ≠ 0) ∧ ((start fun d => keyed 5 (key 0 true 77)
    { d with tap := { d.tap with asleep := true } }).dev.tap.powerLow = false) ∧ ((3 : Fin 5) ≠ 1) ∧ ((3 : Fin 5) ≠ 2) := by decide
theorem witness_BurlServices_13 : ((start fun d => keyed 5 (key 0 true 77)
    { d with tap := { d.tap with asleep := true } }).dev.tap.asleep = true) ∧ ((start fun d => keyed 5 (key 0 true 77)
    { d with tap := { d.tap with asleep := true } }).dev.mode = 0 ∨ (1 : Fin 5) = 1 ∨ (1 : Fin 5) = 2) := by decide
theorem witness_MacsecTablesFollowCommands_1 : ((start (ring 3)).starts (cmdOp 0x10 0x40 34 0x10000 9 0 0 0) 0x40 34 0x10
    [0x3F000311FF, all64, 0, 0, 0] = true) ∧ (fld (cmdOp 0x10 0x40 34 0x10000 9 0 0 0).p8 37 32 ≤ 35) ∧ (portPresent (start (ring
    3)).dev.variant (fld (cmdOp 0x10 0x40 34 0x10000 9 0 0 0).p8 37 32) = true) ∧ ((start (ring 3)).dev.sc (fld (cmdOp 0x10 0x40 34
    0x10000 9 0 0 0).p8 8 0) = none) ∧ ((bit (cmdOp 0x10 0x40 34 0x10000 9 0 0 0).p8 16 = true → (start (ring 3)).dev.txSc (fld
    (cmdOp 0x10 0x40 34 0x10000 9 0 0 0).p8 37 32) = none)) ∧ ((bit (cmdOp 0x10 0x40 34 0x10000 9 0 0 0).p8 16 = false → ((start
    (ring 3)).dev.rxScs (fld (cmdOp 0x10 0x40 34 0x10000 9 0 0 0).p8 37 32)).any (fun e => decide (e.2.sci = (cmdOp 0x10 0x40 34
    0x10000 9 0 0 0).p16)) = false)) := by decide
theorem witness_MacsecTablesFollowCommands_2 : ((start fun d => secured true [] [] (ring 3 d)).starts (cmdOp 0x11 0x40 34 0 0 0 0 0)
    0x40 34 0x11 [0x1FF, 0, 0, 0, 0] = true) ∧ ((start fun d => secured true [] [] (ring 3 d)).dev.sc (fld (cmdOp 0x11 0x40 34 0 0 0
    0 0).p8 8 0) = some (⟨true, false, true, none, 0, [], 9⟩ : SecChannel)) ∧ ((⟨true, false, true, none, 0, [], 9⟩ :
    SecChannel).sas = []) ∧ (((⟨true, false, true, none, 0, [], 9⟩ : SecChannel).tx = false ∨ (start fun d => secured true [] []
    (ring 3 d)).dev.rb (macsecReg (⟨true, false, true, none, 0, [], 9⟩ : SecChannel).port 0) 31 = false)) := by decide
theorem witness_MacsecTablesFollowCommands_3 : ((start fun d => keyed 5 (key 0 true 77) (secured true [] [] (ring 3 d))).starts
    (cmdOp 0x12 0x40 34 0x50000000000 1 0 0 0) 0x40 34 0x12 [0x3FF0301FF03FF, all64, all64, all64, 0] = true) ∧ ((start fun d =>
    keyed 5 (key 0 true 77) (secured true [] [] (ring 3 d))).dev.sc (fld (cmdOp 0x12 0x40 34 0x50000000000 1 0 0 0).p8 24 16) = some
    (⟨true, false, true, none, 0, [], 9⟩ : SecChannel)) ∧ ((cmdOp 0x12 0x40 34 0x50000000000 1 0 0 0).p16.toNat ≠ 0) ∧ ((cmdOp 0x12
    0x40 34 0x50000000000 1 0 0 0).p16.toNat < pnMax (⟨true, false, true, none, 0, [], 9⟩ : SecChannel).xpn) ∧ (((⟨true, false,
    true, none, 0, [], 9⟩ : SecChannel).xpn = true ∨ ((cmdOp 0x12 0x40 34 0x50000000000 1 0 0 0).p24 = 0 ∧ (cmdOp 0x12 0x40 34
    0x50000000000 1 0 0 0).p32 = 0))) ∧ (fld (cmdOp 0x12 0x40 34 0x50000000000 1 0 0 0).p8 49 40 ≤ 575) ∧ ((start fun d => keyed 5
    (key 0 true 77) (secured true [] [] (ring 3 d))).dev.sa (fld (cmdOp 0x12 0x40 34 0x50000000000 1 0 0 0).p8 9 0) = none) ∧
    ((⟨true, false, true, none, 0, [], 9⟩ : SecChannel).sas.get none (fld (cmdOp 0x12 0x40 34 0x50000000000 1 0 0 0).p8 33 32) =
    none) ∧ ((start fun d => keyed 5 (key 0 true 77) (secured true [] [] (ring 3 d))).dev.mayUse (fld (cmdOp 0x12 0x40 34
    0x50000000000 1 0 0 0).p8 49 40) (if (⟨true, false, true, none, 0, [], 9⟩ : SecChannel).tx then uEncrypt else uDecrypt) 10 =
    true) := by decide
theorem witness_MacsecTablesFollowCommands_4 : ((start fun d => secured true [(0, some 0)] [] (ring 3 d)).starts (cmdOp 0x13 0x40 34
    0 0 0 0 0) 0x40 34 0x13 [0x3000001FF, 0, 0, 0, 0] = true) ∧ ((start fun d => secured true [(0, some 0)] [] (ring 3 d)).dev.sc
    (fld (cmdOp 0x13 0x40 34 0 0 0 0 0).p8 8 0) = some (⟨true, false, true, none, 0, [(0, some 0)], 9⟩ : SecChannel)) ∧ ((⟨true,
    false, true, none, 0, [(0, some 0)], 9⟩ : SecChannel).tx = true) ∧ (((⟨true, false, true, none, 0, [(0, some 0)], 9⟩ :
    SecChannel).sas.get none (fld (cmdOp 0x13 0x40 34 0 0 0 0 0).p8 33 32)).isSome = true) := by decide
theorem witness_MacsecTablesFollowCommands_5 : ((start fun d => secured true [(0, some 0)] [(0, some ⟨5, 0, 0, false, 0, 1, 0, 3⟩)]
    (ring 3 d)).starts (cmdOp 0x14 0x40 34 0 0 0 0 0) 0x40 34 0x14 [0x3FF, 0, 0, 0, 0] = true) ∧ ((start fun d => secured true [(0,
    some 0)] [(0, some ⟨5, 0, 0, false, 0, 1, 0, 3⟩)] (ring 3 d)).dev.sa (fld (cmdOp 0x14 0x40 34 0 0 0 0 0).p8 9 0) = some (⟨5, 0,
    0, false, 0, 1, 0, 3⟩ : SecAssoc)) ∧ ((start fun d => secured true [(0, some 0)] [(0, some ⟨5, 0, 0, false, 0, 1, 0, 3⟩)] (ring
    3 d)).dev.sc (⟨5, 0, 0, false, 0, 1, 0, 3⟩ : SecAssoc).sc = some (⟨true, false, true, none, 0, [(0, some 0)], 9⟩ : SecChannel))
    ∧ ((start fun d => secured true [(0, some 0)] [(0, some ⟨5, 0, 0, false, 0, 1, 0, 3⟩)] (ring 3 d)).dev.saIdle (fld (cmdOp 0x14
    0x40 34 0 0 0 0 0).p8 9 0) = true) := by decide
theorem witness_MacsecTablesFollowCommands_6 : ((start fun d => secured true [(0, some 0)] [(0, some ⟨5, 0, 0, false, 0, 1, 0, 3⟩)]
    (ring 3 d)).starts (cmdOp 0x15 0x40 34 0 0 0 0 0) 0x40 34 0x15 [0x3FF, 0, 0, 0, 0] = true) ∧ ((start fun d => secured true [(0,
    some 0)] [(0, some ⟨5, 0, 0, false, 0, 1, 0, 3⟩)] (ring 3 d)).dev.sa (fld (cmdOp 0x15 0x40 34 0 0 0 0 0).p8 9 0) = some (⟨5, 0,
    0, false, 0, 1, 0, 3⟩ : SecAssoc)) := by decide
theorem witness_MacsecTablesFollowCommands_7 : ((start fun d => (secured true [(0, some 0)] [(0, some ⟨5, 0, 0, false, 0, 1, 0, 3⟩)]
    (ring 3 d)).beginUse (.rx 3) 5 (some 0)).starts (cmdOp 0x14 0x40 34 0 0 0 0 0) 0x40 34 0x14 [0x3FF, 0, 0, 0, 0] = true) ∧
    ((start fun d => (secured true [(0, some 0)] [(0, some ⟨5, 0, 0, false, 0, 1, 0, 3⟩)] (ring 3 d)).beginUse (.rx 3) 5 (some
    0)).dev.sa (fld (cmdOp 0x14 0x40 34 0 0 0 0 0).p8 9 0) = some (⟨5, 0, 0, false, 0, 1, 0, 3⟩ : SecAssoc)) ∧ ((start fun d =>
    (secured true [(0, some 0)] [(0, some ⟨5, 0, 0, false, 0, 1, 0, 3⟩)] (ring 3 d)).beginUse (.rx 3) 5 (some 0)).dev.sc (⟨5, 0, 0,
    false, 0, 1, 0, 3⟩ : SecAssoc).sc = some (⟨true, false, true, none, 0, [(0, some 0)], 9⟩ : SecChannel)) ∧ ((start fun d =>
    (secured true [(0, some 0)] [(0, some ⟨5, 0, 0, false, 0, 1, 0, 3⟩)] (ring 3 d)).beginUse (.rx 3) 5 (some 0)).dev.saIdle (fld
    (cmdOp 0x14 0x40 34 0 0 0 0 0).p8 9 0) = false) := by decide
theorem witness_MacsecTablesFollowCommands_8 : ((start (ring 3)).starts (cmdOp 0x14 0x40 34 0 0 0 0 0) 0x40 34 0x14 [0x3FF, 0, 0, 0,
    0] = true) ∧ ((start (ring 3)).dev.sa (fld (cmdOp 0x14 0x40 34 0 0 0 0 0).p8 9 0) = none) := by decide
theorem witness_MacsecTablesFollowCommands_9 : ((start (ring 3)).starts (cmdOp 0x10 0x40 34 0x2400010000 9 0 0 0) 0x40 34 0x10
    [0x3F000311FF, all64, 0, 0, 0] = true) ∧ (35 < fld (cmdOp 0x10 0x40 34 0x2400010000 9 0 0 0).p8 37 32 ∨ portPresent (start (ring
    3)).dev.variant (fld (cmdOp 0x10 0x40 34 0x2400010000 9 0 0 0).p8 37 32) = false) := by decide
theorem witness_MacsecTablesFollowCommands_10 : ((start fun d => keyed 5 (key 0 true 77) (secured true [] [] (ring 3 d))).starts
    (cmdOp 0x12 0x40 34 0x50000000000 0 0 0 0) 0x40 34 0x12 [0x3FF0301FF03FF, all64, all64, all64, 0] = true) ∧ ((start fun d =>
    keyed 5 (key 0 true 77) (secured true [] [] (ring 3 d))).dev.sc (fld (cmdOp 0x12 0x40 34 0x50000000000 0 0 0 0).p8 24 16) = some
    (⟨true, false, true, none, 0, [], 9⟩ : SecChannel)) ∧ ((cmdOp 0x12 0x40 34 0x50000000000 0 0 0 0).p16.toNat = 0 ∨ pnMax (⟨true,
    false, true, none, 0, [], 9⟩ : SecChannel).xpn ≤ (cmdOp 0x12 0x40 34 0x50000000000 0 0 0 0).p16.toNat) := by decide
theorem witness_CipherJobsRun_1 : ((start fun d => keyed 5 (key 0 false 0) (ring 3 d)).starts (cmdOp 1 0x40 0xFF 0x1000 0x2000
    0xF0005 0 0) 0x40 0xFF 1 [all64, all64, 0xFFFFFFFFFF0F03FF, all64, 0xFFFFFFFF] = true) ∧ (fld (cmdOp 1 0x40 0xFF 0x1000 0x2000
    0xF0005 0 0).p24 9 0 ≤ 575) ∧ (Job.lengthsOk .gcmEnc (fld (cmdOp 1 0x40 0xFF 0x1000 0x2000 0xF0005 0 0).p24 39 24) (fld (cmdOp 1
    0x40 0xFF 0x1000 0x2000 0xF0005 0 0).p24 19 16) = true) ∧ ((start fun d => keyed 5 (key 0 false 0) (ring 3 d)).dev.mayUse (fld
    (cmdOp 1 0x40 0xFF 0x1000 0x2000 0xF0005 0 0).p24 9 0) uEncrypt (cmdOp 1 0x40 0xFF 0x1000 0x2000 0xF0005 0 0).origin = true) ∧
    ((⟨[], false⟩ : HostData).err = false) ∧ ((cmdOp 1 0x40 0xFF 0x1000 0x2000 0xF0005 0 0).p32 = 0) ∧ ((cmdOp 1 0x40 0xFF 0x1000
    0x2000 0xF0005 0 0).p40 = 0) ∧ (((start fun d => keyed 5 (key 0 false 0) (ring 3 d)).dev.slot (fld (cmdOp 1 0x40 0xFF 0x1000
    0x2000 0xF0005 0 0).p24 9 0)).invocation ≠ 2 ^ 64 - 1) ∧ (fld (cmdOp 1 0x40 0xFF 0x1000 0x2000 0xF0005 0 0).p24 39 24 + fld
    (cmdOp 1 0x40 0xFF 0x1000 0x2000 0xF0005 0 0).p24 63 40 + 0 ≤ (⟨[], false⟩ : HostData).octets.length) ∧ (Job.output .gcmEnc
    ((start fun d => keyed 5 (key 0 false 0) (ring 3 d)).dev.slot (fld (cmdOp 1 0x40 0xFF 0x1000 0x2000 0xF0005 0 0).p24 9
    0)).octets (beBytes 4 ((start fun d => keyed 5 (key 0 false 0) (ring 3 d)).dev.slot (fld (cmdOp 1 0x40 0xFF 0x1000 0x2000
    0xF0005 0 0).p24 9 0)).nonceFixed.toNat ++ beBytes 8 ((start fun d => keyed 5 (key 0 false 0) (ring 3 d)).dev.slot (fld (cmdOp 1
    0x40 0xFF 0x1000 0x2000 0xF0005 0 0).p24 9 0)).invocation) ((⟨[], false⟩ : HostData).octets.take (fld (cmdOp 1 0x40 0xFF 0x1000
    0x2000 0xF0005 0 0).p24 39 24)) (((⟨[], false⟩ : HostData).octets.drop (fld (cmdOp 1 0x40 0xFF 0x1000 0x2000 0xF0005 0 0).p24 39
    24)).take (fld (cmdOp 1 0x40 0xFF 0x1000 0x2000 0xF0005 0 0).p24 63 40)) (((⟨[], false⟩ : HostData).octets.drop (fld (cmdOp 1
    0x40 0xFF 0x1000 0x2000 0xF0005 0 0).p24 39 24 + fld (cmdOp 1 0x40 0xFF 0x1000 0x2000 0xF0005 0 0).p24 63 40)).take (fld (cmdOp
    1 0x40 0xFF 0x1000 0x2000 0xF0005 0 0).p24 19 16 + 1)) (fld (cmdOp 1 0x40 0xFF 0x1000 0x2000 0xF0005 0 0).p24 19 16 + 1) = some
    ((gcmTag (key 0 false 0).octets (beBytes 4 0 ++ beBytes 8 0) [] []).take 16)) := by decide
theorem witness_CipherJobsRun_2 : ((start fun d => keyed 5 (key 1 false 0) (ring 3 d)).starts (cmdOp 2 0x40 0xFF 0x1000 0x2000
    0xF0005 0 0) 0x40 0xFF 2 [all64, all64, 0xFFFFFFFFFF0F03FF, all64, 0xFFFFFFFF] = true) ∧ (fld (cmdOp 2 0x40 0xFF 0x1000 0x2000
    0xF0005 0 0).p24 9 0 ≤ 575) ∧ (Job.lengthsOk .gcmDec (fld (cmdOp 2 0x40 0xFF 0x1000 0x2000 0xF0005 0 0).p24 39 24) (fld (cmdOp 2
    0x40 0xFF 0x1000 0x2000 0xF0005 0 0).p24 19 16) = true) ∧ ((start fun d => keyed 5 (key 1 false 0) (ring 3 d)).dev.mayUse (fld
    (cmdOp 2 0x40 0xFF 0x1000 0x2000 0xF0005 0 0).p24 9 0) uDecrypt (cmdOp 2 0x40 0xFF 0x1000 0x2000 0xF0005 0 0).origin = true) ∧
    ((⟨[0x58, 0xE2, 0xFC, 0xCE, 0xFA, 0x7E, 0x30, 0x61, 0x36, 0x7F, 0x1D, 0x57, 0xA4, 0xE7, 0x45, 0x5A], false⟩ : HostData).err =
    false) ∧ (fld (cmdOp 2 0x40 0xFF 0x1000 0x2000 0xF0005 0 0).p24 63 40 ≤ 65536) ∧ (fld (cmdOp 2 0x40 0xFF 0x1000 0x2000 0xF0005 0
    0).p24 39 24 + fld (cmdOp 2 0x40 0xFF 0x1000 0x2000 0xF0005 0 0).p24 63 40 + fld (cmdOp 2 0x40 0xFF 0x1000 0x2000 0xF0005 0
    0).p24 19 16 + 1 ≤ (⟨[0x58, 0xE2, 0xFC, 0xCE, 0xFA, 0x7E, 0x30, 0x61, 0x36, 0x7F, 0x1D, 0x57, 0xA4, 0xE7, 0x45, 0x5A], false⟩ :
    HostData).octets.length) ∧ (Job.output .gcmDec ((start fun d => keyed 5 (key 1 false 0) (ring 3 d)).dev.slot (fld (cmdOp 2 0x40
    0xFF 0x1000 0x2000 0xF0005 0 0).p24 9 0)).octets (beBytes 4 (fld (cmdOp 2 0x40 0xFF 0x1000 0x2000 0xF0005 0 0).p40 31 0) ++
    beBytes 8 (cmdOp 2 0x40 0xFF 0x1000 0x2000 0xF0005 0 0).p32.toNat) ((⟨[0x58, 0xE2, 0xFC, 0xCE, 0xFA, 0x7E, 0x30, 0x61, 0x36,
    0x7F, 0x1D, 0x57, 0xA4, 0xE7, 0x45, 0x5A], false⟩ : HostData).octets.take (fld (cmdOp 2 0x40 0xFF 0x1000 0x2000 0xF0005 0 0).p24
    39 24)) (((⟨[0x58, 0xE2, 0xFC, 0xCE, 0xFA, 0x7E, 0x30, 0x61, 0x36, 0x7F, 0x1D, 0x57, 0xA4, 0xE7, 0x45, 0x5A], false⟩ :
    HostData).octets.drop (fld (cmdOp 2 0x40 0xFF 0x1000 0x2000 0xF0005 0 0).p24 39 24)).take (fld (cmdOp 2 0x40 0xFF 0x1000 0x2000
    0xF0005 0 0).p24 63 40)) (((⟨[0x58, 0xE2, 0xFC, 0xCE, 0xFA, 0x7E, 0x30, 0x61, 0x36, 0x7F, 0x1D, 0x57, 0xA4, 0xE7, 0x45, 0x5A],
    false⟩ : HostData).octets.drop (fld (cmdOp 2 0x40 0xFF 0x1000 0x2000 0xF0005 0 0).p24 39 24 + fld (cmdOp 2 0x40 0xFF 0x1000
    0x2000 0xF0005 0 0).p24 63 40)).take (fld (cmdOp 2 0x40 0xFF 0x1000 0x2000 0xF0005 0 0).p24 19 16 + 1)) (fld (cmdOp 2 0x40 0xFF
    0x1000 0x2000 0xF0005 0 0).p24 19 16 + 1) = some ([] : List (BitVec 8))) := by decide
theorem witness_CipherJobsRun_3 : ((start fun d => keyed 5 (key 0 false 0) (ring 3 d)).starts (cmdOp 3 0x40 0xFF 0x1000 0x2000 0x5 0
    0) 0x40 0xFF 3 [all64, all64, 0xFFFFFFFFFF0F03FF, all64, 0xFFFFFFFF] = true) ∧ (fld (cmdOp 3 0x40 0xFF 0x1000 0x2000 0x5 0
    0).p24 9 0 ≤ 575) ∧ (Job.lengthsOk .ctrEnc (fld (cmdOp 3 0x40 0xFF 0x1000 0x2000 0x5 0 0).p24 39 24) (fld (cmdOp 3 0x40 0xFF
    0x1000 0x2000 0x5 0 0).p24 19 16) = true) ∧ ((start fun d => keyed 5 (key 0 false 0) (ring 3 d)).dev.mayUse (fld (cmdOp 3 0x40
    0xFF 0x1000 0x2000 0x5 0 0).p24 9 0) uEncrypt (cmdOp 3 0x40 0xFF 0x1000 0x2000 0x5 0 0).origin = true) ∧ ((⟨[], false⟩ :
    HostData).err = false) ∧ ((cmdOp 3 0x40 0xFF 0x1000 0x2000 0x5 0 0).p32 = 0) ∧ ((cmdOp 3 0x40 0xFF 0x1000 0x2000 0x5 0 0).p40 =
    0) ∧ (((start fun d => keyed 5 (key 0 false 0) (ring 3 d)).dev.slot (fld (cmdOp 3 0x40 0xFF 0x1000 0x2000 0x5 0 0).p24 9
    0)).invocation ≠ 2 ^ 64 - 1) ∧ (fld (cmdOp 3 0x40 0xFF 0x1000 0x2000 0x5 0 0).p24 39 24 + fld (cmdOp 3 0x40 0xFF 0x1000 0x2000
    0x5 0 0).p24 63 40 + 0 ≤ (⟨[], false⟩ : HostData).octets.length) ∧ (Job.output .ctrEnc ((start fun d => keyed 5 (key 0 false 0)
    (ring 3 d)).dev.slot (fld (cmdOp 3 0x40 0xFF 0x1000 0x2000 0x5 0 0).p24 9 0)).octets (beBytes 4 ((start fun d => keyed 5 (key 0
    false 0) (ring 3 d)).dev.slot (fld (cmdOp 3 0x40 0xFF 0x1000 0x2000 0x5 0 0).p24 9 0)).nonceFixed.toNat ++ beBytes 8 ((start fun
    d => keyed 5 (key 0 false 0) (ring 3 d)).dev.slot (fld (cmdOp 3 0x40 0xFF 0x1000 0x2000 0x5 0 0).p24 9 0)).invocation) ((⟨[],
    false⟩ : HostData).octets.take (fld (cmdOp 3 0x40 0xFF 0x1000 0x2000 0x5 0 0).p24 39 24)) (((⟨[], false⟩ : HostData).octets.drop
    (fld (cmdOp 3 0x40 0xFF 0x1000 0x2000 0x5 0 0).p24 39 24)).take (fld (cmdOp 3 0x40 0xFF 0x1000 0x2000 0x5 0 0).p24 63 40))
    (((⟨[], false⟩ : HostData).octets.drop (fld (cmdOp 3 0x40 0xFF 0x1000 0x2000 0x5 0 0).p24 39 24 + fld (cmdOp 3 0x40 0xFF 0x1000
    0x2000 0x5 0 0).p24 63 40)).take (fld (cmdOp 3 0x40 0xFF 0x1000 0x2000 0x5 0 0).p24 19 16 + 1)) (fld (cmdOp 3 0x40 0xFF 0x1000
    0x2000 0x5 0 0).p24 19 16 + 1) = some ([] : List (BitVec 8))) := by decide
theorem witness_CipherJobsRun_4 : ((start fun d => keyed 5 (key 1 false 0) (ring 3 d)).starts (cmdOp 4 0x40 0xFF 0x1000 0x2000 0x5 0
    0) 0x40 0xFF 4 [all64, all64, 0xFFFFFFFFFF0F03FF, all64, 0xFFFFFFFF] = true) ∧ (fld (cmdOp 4 0x40 0xFF 0x1000 0x2000 0x5 0
    0).p24 9 0 ≤ 575) ∧ (Job.lengthsOk .ctrDec (fld (cmdOp 4 0x40 0xFF 0x1000 0x2000 0x5 0 0).p24 39 24) (fld (cmdOp 4 0x40 0xFF
    0x1000 0x2000 0x5 0 0).p24 19 16) = true) ∧ ((start fun d => keyed 5 (key 1 false 0) (ring 3 d)).dev.mayUse (fld (cmdOp 4 0x40
    0xFF 0x1000 0x2000 0x5 0 0).p24 9 0) uDecrypt (cmdOp 4 0x40 0xFF 0x1000 0x2000 0x5 0 0).origin = true) ∧ ((⟨[], false⟩ :
    HostData).err = false) ∧ (fld (cmdOp 4 0x40 0xFF 0x1000 0x2000 0x5 0 0).p24 39 24 + fld (cmdOp 4 0x40 0xFF 0x1000 0x2000 0x5 0
    0).p24 63 40 + 0 ≤ (⟨[], false⟩ : HostData).octets.length) ∧ (Job.output .ctrDec ((start fun d => keyed 5 (key 1 false 0) (ring
    3 d)).dev.slot (fld (cmdOp 4 0x40 0xFF 0x1000 0x2000 0x5 0 0).p24 9 0)).octets (beBytes 4 (fld (cmdOp 4 0x40 0xFF 0x1000 0x2000
    0x5 0 0).p40 31 0) ++ beBytes 8 (cmdOp 4 0x40 0xFF 0x1000 0x2000 0x5 0 0).p32.toNat) ((⟨[], false⟩ : HostData).octets.take (fld
    (cmdOp 4 0x40 0xFF 0x1000 0x2000 0x5 0 0).p24 39 24)) (((⟨[], false⟩ : HostData).octets.drop (fld (cmdOp 4 0x40 0xFF 0x1000
    0x2000 0x5 0 0).p24 39 24)).take (fld (cmdOp 4 0x40 0xFF 0x1000 0x2000 0x5 0 0).p24 63 40)) (((⟨[], false⟩ :
    HostData).octets.drop (fld (cmdOp 4 0x40 0xFF 0x1000 0x2000 0x5 0 0).p24 39 24 + fld (cmdOp 4 0x40 0xFF 0x1000 0x2000 0x5 0
    0).p24 63 40)).take (fld (cmdOp 4 0x40 0xFF 0x1000 0x2000 0x5 0 0).p24 19 16 + 1)) (fld (cmdOp 4 0x40 0xFF 0x1000 0x2000 0x5 0
    0).p24 19 16 + 1) = some ([] : List (BitVec 8))) := by decide
theorem witness_CipherJobsRun_5 : ((start fun d => keyed 5 (key 0 false (0x2B7E151628AED2A6ABF7158809CF4F3C * 2 ^ 128)) (ring 3
    d)).starts (cmdOp 5 0x40 0xFF 0x1000 0x2000 0xF0005 0 0) 0x40 0xFF 5 [all64, all64, 0xFFFFFFFFFF0F03FF, all64, 0xFFFFFFFF] =
    true) ∧ (fld (cmdOp 5 0x40 0xFF 0x1000 0x2000 0xF0005 0 0).p24 9 0 ≤ 575) ∧ (Job.lengthsOk .cmacGen (fld (cmdOp 5 0x40 0xFF
    0x1000 0x2000 0xF0005 0 0).p24 39 24) (fld (cmdOp 5 0x40 0xFF 0x1000 0x2000 0xF0005 0 0).p24 19 16) = true) ∧ ((start fun d =>
    keyed 5 (key 0 false (0x2B7E151628AED2A6ABF7158809CF4F3C * 2 ^ 128)) (ring 3 d)).dev.mayUse (fld (cmdOp 5 0x40 0xFF 0x1000
    0x2000 0xF0005 0 0).p24 9 0) uEncrypt (cmdOp 5 0x40 0xFF 0x1000 0x2000 0xF0005 0 0).origin = true) ∧ ((⟨[], false⟩ :
    HostData).err = false) ∧ ((cmdOp 5 0x40 0xFF 0x1000 0x2000 0xF0005 0 0).p32 = 0) ∧ ((cmdOp 5 0x40 0xFF 0x1000 0x2000 0xF0005 0
    0).p40 = 0) ∧ (fld (cmdOp 5 0x40 0xFF 0x1000 0x2000 0xF0005 0 0).p24 39 24 + fld (cmdOp 5 0x40 0xFF 0x1000 0x2000 0xF0005 0
    0).p24 63 40 + 0 ≤ (⟨[], false⟩ : HostData).octets.length) ∧ (Job.output .cmacGen ((start fun d => keyed 5 (key 0 false
    (0x2B7E151628AED2A6ABF7158809CF4F3C * 2 ^ 128)) (ring 3 d)).dev.slot (fld (cmdOp 5 0x40 0xFF 0x1000 0x2000 0xF0005 0 0).p24 9
    0)).octets (beBytes 4 (fld (cmdOp 5 0x40 0xFF 0x1000 0x2000 0xF0005 0 0).p40 31 0) ++ beBytes 8 (cmdOp 5 0x40 0xFF 0x1000 0x2000
    0xF0005 0 0).p32.toNat) ((⟨[], false⟩ : HostData).octets.take (fld (cmdOp 5 0x40 0xFF 0x1000 0x2000 0xF0005 0 0).p24 39 24))
    (((⟨[], false⟩ : HostData).octets.drop (fld (cmdOp 5 0x40 0xFF 0x1000 0x2000 0xF0005 0 0).p24 39 24)).take (fld (cmdOp 5 0x40
    0xFF 0x1000 0x2000 0xF0005 0 0).p24 63 40)) (((⟨[], false⟩ : HostData).octets.drop (fld (cmdOp 5 0x40 0xFF 0x1000 0x2000 0xF0005
    0 0).p24 39 24 + fld (cmdOp 5 0x40 0xFF 0x1000 0x2000 0xF0005 0 0).p24 63 40)).take (fld (cmdOp 5 0x40 0xFF 0x1000 0x2000
    0xF0005 0 0).p24 19 16 + 1)) (fld (cmdOp 5 0x40 0xFF 0x1000 0x2000 0xF0005 0 0).p24 19 16 + 1) = some ([0xBB, 0x1D, 0x69, 0x29,
    0xE9, 0x59, 0x37, 0x28, 0x7F, 0xA3, 0x7D, 0x12, 0x9B, 0x75, 0x67, 0x46] : List (BitVec 8))) := by decide
theorem witness_CipherJobsRun_6 : ((start fun d => keyed 5 (key 1 false (0x2B7E151628AED2A6ABF7158809CF4F3C * 2 ^ 128)) (ring 3
    d)).starts (cmdOp 6 0x40 0xFF 0x1000 0x2000 0xF0005 0 0) 0x40 0xFF 6 [all64, all64, 0xFFFFFFFFFF0F03FF, all64, 0xFFFFFFFF] =
    true) ∧ (fld (cmdOp 6 0x40 0xFF 0x1000 0x2000 0xF0005 0 0).p24 9 0 ≤ 575) ∧ (Job.lengthsOk .cmacVer (fld (cmdOp 6 0x40 0xFF
    0x1000 0x2000 0xF0005 0 0).p24 39 24) (fld (cmdOp 6 0x40 0xFF 0x1000 0x2000 0xF0005 0 0).p24 19 16) = true) ∧ ((start fun d =>
    keyed 5 (key 1 false (0x2B7E151628AED2A6ABF7158809CF4F3C * 2 ^ 128)) (ring 3 d)).dev.mayUse (fld (cmdOp 6 0x40 0xFF 0x1000
    0x2000 0xF0005 0 0).p24 9 0) uDecrypt (cmdOp 6 0x40 0xFF 0x1000 0x2000 0xF0005 0 0).origin = true) ∧ ((⟨[0xBB, 0x1D, 0x69, 0x29,
    0xE9, 0x59, 0x37, 0x28, 0x7F, 0xA3, 0x7D, 0x12, 0x9B, 0x75, 0x67, 0x46], false⟩ : HostData).err = false) ∧ ((cmdOp 6 0x40 0xFF
    0x1000 0x2000 0xF0005 0 0).p32 = 0) ∧ ((cmdOp 6 0x40 0xFF 0x1000 0x2000 0xF0005 0 0).p40 = 0) ∧ (fld (cmdOp 6 0x40 0xFF 0x1000
    0x2000 0xF0005 0 0).p24 39 24 + fld (cmdOp 6 0x40 0xFF 0x1000 0x2000 0xF0005 0 0).p24 63 40 + fld (cmdOp 6 0x40 0xFF 0x1000
    0x2000 0xF0005 0 0).p24 19 16 + 1 ≤ (⟨[0xBB, 0x1D, 0x69, 0x29, 0xE9, 0x59, 0x37, 0x28, 0x7F, 0xA3, 0x7D, 0x12, 0x9B, 0x75, 0x67,
    0x46], false⟩ : HostData).octets.length) ∧ (Job.output .cmacVer ((start fun d => keyed 5 (key 1 false
    (0x2B7E151628AED2A6ABF7158809CF4F3C * 2 ^ 128)) (ring 3 d)).dev.slot (fld (cmdOp 6 0x40 0xFF 0x1000 0x2000 0xF0005 0 0).p24 9
    0)).octets (beBytes 4 (fld (cmdOp 6 0x40 0xFF 0x1000 0x2000 0xF0005 0 0).p40 31 0) ++ beBytes 8 (cmdOp 6 0x40 0xFF 0x1000 0x2000
    0xF0005 0 0).p32.toNat) ((⟨[0xBB, 0x1D, 0x69, 0x29, 0xE9, 0x59, 0x37, 0x28, 0x7F, 0xA3, 0x7D, 0x12, 0x9B, 0x75, 0x67, 0x46],
    false⟩ : HostData).octets.take (fld (cmdOp 6 0x40 0xFF 0x1000 0x2000 0xF0005 0 0).p24 39 24)) (((⟨[0xBB, 0x1D, 0x69, 0x29, 0xE9,
    0x59, 0x37, 0x28, 0x7F, 0xA3, 0x7D, 0x12, 0x9B, 0x75, 0x67, 0x46], false⟩ : HostData).octets.drop (fld (cmdOp 6 0x40 0xFF 0x1000
    0x2000 0xF0005 0 0).p24 39 24)).take (fld (cmdOp 6 0x40 0xFF 0x1000 0x2000 0xF0005 0 0).p24 63 40)) (((⟨[0xBB, 0x1D, 0x69, 0x29,
    0xE9, 0x59, 0x37, 0x28, 0x7F, 0xA3, 0x7D, 0x12, 0x9B, 0x75, 0x67, 0x46], false⟩ : HostData).octets.drop (fld (cmdOp 6 0x40 0xFF
    0x1000 0x2000 0xF0005 0 0).p24 39 24 + fld (cmdOp 6 0x40 0xFF 0x1000 0x2000 0xF0005 0 0).p24 63 40)).take (fld (cmdOp 6 0x40
    0xFF 0x1000 0x2000 0xF0005 0 0).p24 19 16 + 1)) (fld (cmdOp 6 0x40 0xFF 0x1000 0x2000 0xF0005 0 0).p24 19 16 + 1) = some ([] :
    List (BitVec 8))) := by decide
theorem witness_CipherJobsRun_7 : ((start fun d => keyed 5 (key 1 false 0) (ring 3 d)).starts (cmdOp 2 0x40 0xFF 0x1000 0x2000
    0xF0005 0 0) 0x40 0xFF 2 [all64, all64, 0xFFFFFFFFFF0F03FF, all64, 0xFFFFFFFF] = true) ∧ (fld (cmdOp 2 0x40 0xFF 0x1000 0x2000
    0xF0005 0 0).p24 9 0 ≤ 575) ∧ (Job.lengthsOk .gcmDec (fld (cmdOp 2 0x40 0xFF 0x1000 0x2000 0xF0005 0 0).p24 39 24) (fld (cmdOp 2
    0x40 0xFF 0x1000 0x2000 0xF0005 0 0).p24 19 16) = true) ∧ (fld (cmdOp 2 0x40 0xFF 0x1000 0x2000 0xF0005 0 0).p24 63 40 ≤ 65536)
    ∧ ((start fun d => keyed 5 (key 1 false 0) (ring 3 d)).dev.mayUse (fld (cmdOp 2 0x40 0xFF 0x1000 0x2000 0xF0005 0 0).p24 9 0)
    uDecrypt (cmdOp 2 0x40 0xFF 0x1000 0x2000 0xF0005 0 0).origin = true) ∧ ((⟨List.replicate 16 0, false⟩ : HostData).err = false)
    ∧ (fld (cmdOp 2 0x40 0xFF 0x1000 0x2000 0xF0005 0 0).p24 39 24 + fld (cmdOp 2 0x40 0xFF 0x1000 0x2000 0xF0005 0 0).p24 63 40 +
    fld (cmdOp 2 0x40 0xFF 0x1000 0x2000 0xF0005 0 0).p24 19 16 + 1 ≤ (⟨List.replicate 16 0, false⟩ : HostData).octets.length) ∧
    (Job.output .gcmDec ((start fun d => keyed 5 (key 1 false 0) (ring 3 d)).dev.slot (fld (cmdOp 2 0x40 0xFF 0x1000 0x2000 0xF0005
    0 0).p24 9 0)).octets (beBytes 4 (fld (cmdOp 2 0x40 0xFF 0x1000 0x2000 0xF0005 0 0).p40 31 0) ++ beBytes 8 (cmdOp 2 0x40 0xFF
    0x1000 0x2000 0xF0005 0 0).p32.toNat) ((⟨List.replicate 16 0, false⟩ : HostData).octets.take (fld (cmdOp 2 0x40 0xFF 0x1000
    0x2000 0xF0005 0 0).p24 39 24)) (((⟨List.replicate 16 0, false⟩ : HostData).octets.drop (fld (cmdOp 2 0x40 0xFF 0x1000 0x2000
    0xF0005 0 0).p24 39 24)).take (fld (cmdOp 2 0x40 0xFF 0x1000 0x2000 0xF0005 0 0).p24 63 40)) (((⟨List.replicate 16 0, false⟩ :
    HostData).octets.drop (fld (cmdOp 2 0x40 0xFF 0x1000 0x2000 0xF0005 0 0).p24 39 24 + fld (cmdOp 2 0x40 0xFF 0x1000 0x2000
    0xF0005 0 0).p24 63 40)).take (fld (cmdOp 2 0x40 0xFF 0x1000 0x2000 0xF0005 0 0).p24 19 16 + 1)) (fld (cmdOp 2 0x40 0xFF 0x1000
    0x2000 0xF0005 0 0).p24 19 16 + 1) = none) := by decide
theorem witness_CipherJobsRun_8 : ((start (ring 3)).starts (cmdOp 4 0x40 0xFF 0x1000 0x2000 0xF0005 0 0) 0x40 0xFF 4 [all64, all64,
    0xFFFFFFFFFF0F03FF, all64, 0xFFFFFFFF] = true) ∧ (575 < fld (cmdOp 4 0x40 0xFF 0x1000 0x2000 0xF0005 0 0).p24 9 0 ∨
    Job.lengthsOk .ctrDec (fld (cmdOp 4 0x40 0xFF 0x1000 0x2000 0xF0005 0 0).p24 39 24) (fld (cmdOp 4 0x40 0xFF 0x1000 0x2000
    0xF0005 0 0).p24 19 16) = false) := by decide
theorem witness_CipherJobsRun_9 : ((start (ring 3)).starts (cmdOp 4 0x40 0xFF 0x1000 0x2000 0x00005 0 0) 0x40 0xFF 4 [all64, all64,
    0xFFFFFFFFFF0F03FF, all64, 0xFFFFFFFF] = true) ∧ (fld (cmdOp 4 0x40 0xFF 0x1000 0x2000 0x00005 0 0).p24 9 0 ≤ 575) ∧
    (Job.lengthsOk .ctrDec (fld (cmdOp 4 0x40 0xFF 0x1000 0x2000 0x00005 0 0).p24 39 24) (fld (cmdOp 4 0x40 0xFF 0x1000 0x2000
    0x00005 0 0).p24 19 16) = true) ∧ (((start (ring 3)).dev.slot (fld (cmdOp 4 0x40 0xFF 0x1000 0x2000 0x00005 0 0).p24 9 0)).state
    ≠ 1) := by decide
theorem witness_CipherJobsRun_10 : ((start fun d => keyed 5 (key 1 false 0) (ring 3 d)).starts (cmdOp 4 0x40 0xFF 0x1000 0x2000 0x5
    0 0) 0x40 0xFF 4 [all64, all64, 0xFFFFFFFFFF0F03FF, all64, 0xFFFFFFFF] = true) ∧ (fld (cmdOp 4 0x40 0xFF 0x1000 0x2000 0x5 0
    0).p24 9 0 ≤ 575) ∧ (Job.lengthsOk .ctrDec (fld (cmdOp 4 0x40 0xFF 0x1000 0x2000 0x5 0 0).p24 39 24) (fld (cmdOp 4 0x40 0xFF
    0x1000 0x2000 0x5 0 0).p24 19 16) = true) ∧ ((start fun d => keyed 5 (key 1 false 0) (ring 3 d)).dev.mayUse (fld (cmdOp 4 0x40
    0xFF 0x1000 0x2000 0x5 0 0).p24 9 0) uDecrypt (cmdOp 4 0x40 0xFF 0x1000 0x2000 0x5 0 0).origin = true) := by decide
theorem witness_MailboxAnswersStatusAndRecords_1 : ((hw fun h => mbox 1 0 [] { h with batches := [batch 3 false none] }).asks 1 0 =
    true) ∧ ((hw fun h => mbox 1 0 [] { h with batches := [batch 3 false none] }).heart.batches.getLast? = some (batch 3 false
    none)) ∧ ((batch 3 false none).closed = false) := by decide
theorem witness_MailboxAnswersStatusAndRecords_2 : ((hw (mbox 1 0 [])).asks 1 0 = true) ∧ ((hw (mbox 1 0 [])).heart.batches = []) :=
    by decide
theorem witness_MailboxAnswersStatusAndRecords_3 : ((hw id).hwOn = true) ∧ ((hw id).dev.rb (sapReg 4) 0 = false) ∧ ((hw id).opens
    coreA 0x5800A0 = true) ∧ ((hw id).heart.busy = false) ∧ (([5] : List (BitVec 32)).length ≤ 63) ∧ (fld (0 : BitVec 32) 31 16 = 0)
    := by decide
theorem witness_MailboxAnswersStatusAndRecords_4 : ((hw fun h => mbox 2 9 [3, 0, 0]
    { h with batches := [batch 3 true (some [7])] }).asks 2 9 = true) ∧ ((hw fun h => mbox 2 9 [3, 0, 0]
    { h with batches := [batch 3 true (some [7])] }).heart.batches.find? (fun x => x.number = (prm (hw fun h => mbox 2 9 [3, 0, 0]
    { h with batches := [batch 3 true (some [7])] }).heart.params 0 8)) = some (batch 3 true (some [7]))) ∧ ((batch 3 true (some
    [7])).closed = true) ∧ ((batch 3 true (some [7])).trailer = some ([7] : List (BitVec 8))) ∧ (4096 * (prm (hw fun h => mbox 2 9
    [3, 0, 0] { h with batches := [batch 3 true (some [7])] }).heart.params 8 1) < 64 * (batch 3 true (some [7])).recs.length + ([7]
    : List (BitVec 8)).length) := by decide
theorem witness_MailboxAnswersStatusAndRecords_5 : ((hw fun h => mbox 3 8 [3, 0]
    { h with batches := [batch 3 true (some [7])], nextBatch := 4 }).asks 3 8 = true) ∧ ((prm (hw fun h => mbox 3 8 [3, 0]
    { h with batches := [batch 3 true (some [7])], nextBatch := 4 }).heart.params 0 8) < (hw fun h => mbox 3 8 [3, 0]
    { h with batches := [batch 3 true (some [7])], nextBatch := 4 }).heart.nextBatch) ∧ ((hw fun h => mbox 3 8 [3, 0]
    { h with batches := [batch 3 true (some [7])], nextBatch := 4 }).heart.batches.all (fun b => b.closed || decide (b.number ≠ (prm
    (hw fun h => mbox 3 8 [3, 0] { h with batches := [batch 3 true (some [7])], nextBatch := 4 }).heart.params 0 8))) = true) := by
    decide
theorem witness_MailboxAnswersStatusAndRecords_6 : ((hw (mbox 4 0 [])).asks 4 0 = true) ∧ ((hw (mbox 4 0 [])).heart.keys = true) :=
    by decide
theorem witness_MailboxAnswersStatusAndRecords_7 : ((hw (mbox 5 9 [3, 0, 1])).asks 5 9 = true) ∧ (((prm (hw (mbox 5 9 [3, 0,
    1])).heart.params 8 1)).testBit 0 = true) ∧ ((hw (mbox 5 9 [3, 0, 1])).heart.time ≤ (400000 : BitVec 64).toNat) ∧ ((400000 :
    BitVec 64).toNat < (hw (mbox 5 9 [3, 0, 1])).heart.secondEndAt) := by decide
theorem witness_MailboxAnswersStatusAndRecords_8 : ((hw fun h => mbox 5 9 [3, 0, 0] (h.setReg 0x80 0x20)).asks 5 9 = true) ∧ (((prm
    (hw fun h => mbox 5 9 [3, 0, 0] (h.setReg 0x80 0x20)).heart.params 8 1)).testBit 0 = false) ∧ ((hw fun h => mbox 5 9 [3, 0, 0]
    (h.setReg 0x80 0x20)).heart.time ≤ (400000 : BitVec 64).toNat) ∧ ((400000 : BitVec 64).toNat < (hw fun h => mbox 5 9 [3, 0, 0]
    (h.setReg 0x80 0x20)).heart.secondEndAt) ∧ ((hw fun h => mbox 5 9 [3, 0, 0] (h.setReg 0x80 0x20)).heart.rb 0x80 5 = true) := by
    decide
theorem witness_MailboxAnswersStatusAndRecords_9 : ((hw fun h => mbox 6 2 [0] { h with evlog := [[9]] }).asks 6 2 = true) ∧ ((hw fun
    h => mbox 6 2 [0] { h with evlog := [[9]] }).heart.evlog[(prm (hw fun h => mbox 6 2 [0] { h with evlog := [[9]] }).heart.params
    0 2)]? = some ([9] : List (BitVec 8))) := by decide
theorem witness_MailboxAnswersStatusAndRecords_10 : ((hw fun h => mbox 12 0 [] (calibrated 2 0 h)).asks 12 0 = true) ∧ ((hw fun h =>
    mbox 12 0 [] (calibrated 2 0 h)).heart.cal.mode = 2) := by decide
theorem witness_MailboxAnswersStatusAndRecords_11 : ((hw fun h => mbox 12 0 [] (calibrated 1 0 h)).asks 12 0 = true) ∧ ((hw fun h =>
    mbox 12 0 [] (calibrated 1 0 h)).heart.cal.mode ≠ 2) := by decide
theorem witness_MailboxAnswersStatusAndRecords_12 : ((hw fun h => mbox 1 0 [] { h with batches := [batch 3 true none] }).asks 1 0 =
    true) ∧ ((hw fun h => mbox 1 0 [] { h with batches := [batch 3 true none] }).heart.batches.getLast? = some (batch 3 true none))
    ∧ ((batch 3 true none).closed = true) := by decide
theorem witness_MailboxAnswersStatusAndRecords_13 : ((hw id).heart.busy = false) := by decide
theorem witness_MailboxAnswersStatusAndRecords_14 : ((hw (mbox 2 9 [])).hwOn = true) ∧ ((hw (mbox 2 9 [])).dev.rb (sapReg 4) 0 =
    false) ∧ ((hw (mbox 2 9 [])).opens coreA 0x5800A0 = true) ∧ ((hw (mbox 2 9 [])).heart.busy = true) := by decide
theorem witness_MailboxAnswersStatusAndRecords_15 : ({ (hw id) with dev := (rset (sapReg 4) 1 State.reset.dev) }.hwOn = true) ∧
    ({ (hw id) with dev := (rset (sapReg 4) 1 State.reset.dev) }.dev.rb (sapReg 4) 0 = true) ∧
    ({ (hw id) with dev := (rset (sapReg 4) 1 State.reset.dev) }.opens coreA 0x5800A0 = true) := by decide
theorem witness_MailboxAnswersStatusAndRecords_16 : ((hw fun h => mbox 2 9 [3, 0, 0] { h with nextBatch := 9 }).asks 2 9 = true) ∧
    ((hw fun h => mbox 2 9 [3, 0, 0] { h with nextBatch := 9 }).heart.batches.find? (fun x => x.number = (prm (hw fun h => mbox 2 9
    [3, 0, 0] { h with nextBatch := 9 }).heart.params 0 8)) = none) ∧ ((prm (hw fun h => mbox 2 9 [3, 0, 0]
    { h with nextBatch := 9 }).heart.params 0 8) < (hw fun h => mbox 2 9 [3, 0, 0] { h with nextBatch := 9 }).heart.nextBatch) := by
    decide
theorem witness_MailboxAnswersStatusAndRecords_17 : ((hw fun h => mbox 2 9 [3, 0, 0] { h with batches := [batch 3 true none] }).asks
    2 9 = true) ∧ ((hw fun h => mbox 2 9 [3, 0, 0] { h with batches := [batch 3 true none] }).heart.batches.find? (fun x => x.number
    = (prm (hw fun h => mbox 2 9 [3, 0, 0] { h with batches := [batch 3 true none] }).heart.params 0 8)) = some (batch 3 true none))
    ∧ ((batch 3 true none).closed = true) ∧ ((batch 3 true none).trailer = none) := by decide
theorem witness_MailboxAnswersStatusAndRecords_18 : ((hw (mbox 3 8 [3, 0])).asks 3 8 = true) ∧ ((hw (mbox 3 8 [3,
    0])).heart.nextBatch ≤ (prm (hw (mbox 3 8 [3, 0])).heart.params 0 8)) := by decide
theorem witness_MailboxAnswersStatusAndRecords_19 : ((hw (mbox 6 2 [0])).asks 6 2 = true) ∧ ((hw (mbox 6 2 [0])).heart.evlog.length
    ≤ (prm (hw (mbox 6 2 [0])).heart.params 0 2)) := by decide
theorem witness_MailboxStagesCalibratesAndActivates_1 : ((hw (mbox 7 8 [100, 7])).asks 7 8 = true) ∧ (4 ≤ 8) ∧ (8 ≤ 252) ∧ ((prm (hw
    (mbox 7 8 [100, 7])).heart.params 0 4) + (8 - 4) ≤ 65536) := by decide
theorem witness_MailboxStagesCalibratesAndActivates_3 : ((hw (mbox 9 8 [100, 7])).asks 9 8 = true) ∧ ((prm (hw (mbox 9 8 [100,
    7])).heart.params 0 4) + (prm (hw (mbox 9 8 [100, 7])).heart.params 4 4) ≤ 917504) ∧ ((prm (hw (mbox 9 8 [100, 7])).heart.params
    4 4) ≤ 65536) := by decide
theorem witness_MailboxStagesCalibratesAndActivates_5 : ((hw (mbox 11 32 [])).asks 11 32 = true) := by decide
theorem witness_MailboxStagesCalibratesAndActivates_6 : ((hw fun h => mbox 13 64 [] { h with checked := some 8192 }).asks 13 64 =
    true) ∧ ((hw fun h => mbox 13 64 [] { h with checked := some 8192 }).heart.checked = some 8192) := by decide
theorem witness_MailboxStagesCalibratesAndActivates_7 : ((hw fun h => mbox 14 64 []
    { h with prepared := some (List.replicate 64 0), checked := some 0 }).asks 14 64 = true) ∧ ((hw fun h => mbox 14 64 []
    { h with prepared := some (List.replicate 64 0), checked := some 0 }).heart.prepared = some ((hw fun h => mbox 14 64 []
    { h with prepared := some (List.replicate 64 0), checked := some 0 }).heart.params.take 64)) ∧ ((hw fun h => mbox 14 64 []
    { h with prepared := some (List.replicate 64 0), checked := some 0 }).heart.checked = some 0) ∧ ((hw fun h => mbox 14 64 []
    { h with prepared := some (List.replicate 64 0), checked := some 0 }).heart.rb 0x80 15 = false) ∧ (((hw fun h => mbox 14 64 []
    { h with prepared := some (List.replicate 64 0), checked := some 0 }).heart.reg 0x84).toNat < 0xFFFFFFFF) ∧ ((hw fun h => mbox
    14 64 [] { h with prepared := some (List.replicate 64 0), checked := some 0 }).heart.rf 0x8C 10 0 < 1024) ∧ (([] : List (BitVec
    8)) = (hw fun h => mbox 14 64 [] { h with prepared := some (List.replicate 64 0), checked := some 0 }).heart.inactive 0) := by
    decide
theorem witness_MailboxStagesCalibratesAndActivates_8 : ((hw (mbox 7 3 [100, 7])).asks 7 3 = true) ∧ (3 < 4 ∨ 252 < 3) := by decide
theorem witness_MailboxStagesCalibratesAndActivates_9 : ((hw fun h => mbox 8 4 [9] (h.setReg 0x80 0x8000)).asks 8 4 = true) ∧ ((hw
    fun h => mbox 8 4 [9] (h.setReg 0x80 0x8000)).heart.rb 0x80 15 = true) := by decide
theorem witness_MailboxStagesCalibratesAndActivates_10 : ((hw (mbox 9 8 [917504, 7])).asks 9 8 = true) ∧ (917504 < (prm (hw (mbox 9
    8 [917504, 7])).heart.params 0 4) + (prm (hw (mbox 9 8 [917504, 7])).heart.params 4 4) ∨ 65536 < (prm (hw (mbox 9 8 [917504,
    7])).heart.params 4 4)) := by decide
theorem witness_MailboxStagesCalibratesAndActivates_11 : ((hw (mbox 13 64 [])).asks 13 64 = true) ∧ ((hw (mbox 13 64
    [])).heart.checked = none) := by decide
theorem witness_MailboxStagesCalibratesAndActivates_12 : ((hw fun h => mbox 14 64 []
    { h with prepared := some (List.replicate 64 0) }).asks 14 64 = true) ∧ ((hw fun h => mbox 14 64 []
    { h with prepared := some (List.replicate 64 0) }).heart.prepared = some ((hw fun h => mbox 14 64 []
    { h with prepared := some (List.replicate 64 0) }).heart.params.take 64)) ∧ ((hw fun h => mbox 14 64 []
    { h with prepared := some (List.replicate 64 0) }).heart.checked = none) := by decide
theorem witness_MailboxStagesCalibratesAndActivates_13 : ((hw (mbox 14 64 [])).asks 14 64 = true) ∧ ((hw (mbox 14 64
    [])).heart.prepared = none) ∧ ((hw (mbox 14 64 [])).heart.committed ≠ some ((hw (mbox 14 64 [])).heart.params.take 64)) := by
    decide
theorem witness_HeartwoodMeasuresEverySecond_1 : ((hw fun h =>
    { calibrated 0 1 h with subA := [178, 0, 0, 0, 0, 0, 0, 0, 0, 0] }).hwOn = true) ∧ ((hw fun h =>
    { calibrated 0 1 h with subA := [178, 0, 0, 0, 0, 0, 0, 0, 0, 0] }).heart.source = 1) ∧ ((hw fun h =>
    { calibrated 0 1 h with subA := [178, 0, 0, 0, 0, 0, 0, 0, 0, 0] }).heart.cal.kPulse ≠ 0) ∧ ((hw fun h =>
    { calibrated 0 1 h with subA := [178, 0, 0, 0, 0, 0, 0, 0, 0, 0] }).heart.calNext = []) ∧ ((hw fun h =>
    { calibrated 0 1 h with subA := [178, 0, 0, 0, 0, 0, 0, 0, 0, 0] }).heart.subA.length = 10) ∧ ((hw fun h =>
    { calibrated 0 1 h with subA := [178, 0, 0, 0, 0, 0, 0, 0, 0, 0] }).heart.uncal = false) ∧ ((hw fun h =>
    { calibrated 0 1 h with subA := [178, 0, 0, 0, 0, 0, 0, 0, 0, 0] }).heart.cal.mode ≠ 2) ∧ (((hw fun h =>
    { calibrated 0 1 h with subA := [178, 0, 0, 0, 0, 0, 0, 0, 0, 0] }).heart.subA.foldl (· + ·) 0) ≤ 25000) ∧ ((hw fun h =>
    { calibrated 0 1 h with subA := [178, 0, 0, 0, 0, 0, 0, 0, 0, 0] }).heart.pulsesB ≤ 25000) ∧ ((hw fun h =>
    { calibrated 0 1 h with subA := [178, 0, 0, 0, 0, 0, 0, 0, 0, 0] }).heart.glitches ≤ 100) ∧ (((hw fun h =>
    { calibrated 0 1 h with subA := [178, 0, 0, 0, 0, 0, 0, 0, 0, 0] }).heart.cal.mode = 1 → ((hw fun h =>
    { calibrated 0 1 h with subA := [178, 0, 0, 0, 0, 0, 0, 0, 0, 0] }).heart.subA.foldl (· + ·) 0) ≤ (hw fun h =>
    { calibrated 0 1 h with subA := [178, 0, 0, 0, 0, 0, 0, 0, 0, 0] }).heart.pulsesB + 1 ∧ (hw fun h =>
    { calibrated 0 1 h with subA := [178, 0, 0, 0, 0, 0, 0, 0, 0, 0] }).heart.pulsesB ≤ ((hw fun h =>
    { calibrated 0 1 h with subA := [178, 0, 0, 0, 0, 0, 0, 0, 0, 0] }).heart.subA.foldl (· + ·) 0) + 1)) := by decide
theorem witness_HeartwoodMeasuresEverySecond_2 : ((hw id).hwOn = true) ∧ (((hw id).heart.source = 3 ∨ (hw id).heart.uncal = true))
    := by decide
theorem witness_HeartwoodMeasuresEverySecond_3 : ((hw fun h =>
    { calibrated 0 0 h with link0 := { HwLink.reset with good := 2000, state := 2, out := false, sub := [500, 0, 0, 0, 0, 0, 0, 0, 0, 0] } }).hwOn
    = true) ∧ ((hw fun h =>
    { calibrated 0 0 h with link0 := { HwLink.reset with good := 2000, state := 2, out := false, sub := [500, 0, 0, 0, 0, 0, 0, 0, 0, 0] } }).heart.source
    = 0) ∧ ((hw fun h =>
    { calibrated 0 0 h with link0 := { HwLink.reset with good := 2000, state := 2, out := false, sub := [500, 0, 0, 0, 0, 0, 0, 0, 0, 0] } }).heart.cal.kHsl
    ≠ 0) ∧ ((hw fun h =>
    { calibrated 0 0 h with link0 := { HwLink.reset with good := 2000, state := 2, out := false, sub := [500, 0, 0, 0, 0, 0, 0, 0, 0, 0] } }).heart.calNext
    = []) ∧ ((hw fun h =>
    { calibrated 0 0 h with link0 := { HwLink.reset with good := 2000, state := 2, out := false, sub := [500, 0, 0, 0, 0, 0, 0, 0, 0, 0] } }).heart.uncal
    = false) ∧ (((hw fun h =>
    { calibrated 0 0 h with link0 := { HwLink.reset with good := 2000, state := 2, out := false, sub := [500, 0, 0, 0, 0, 0, 0, 0, 0, 0] } }).heart.link0.outTo
    (hw fun h =>
    { calibrated 0 0 h with link0 := { HwLink.reset with good := 2000, state := 2, out := false, sub := [500, 0, 0, 0, 0, 0, 0, 0, 0, 0] } }).heart.secondEndAt).sesNow
    = false) := by decide
theorem witness_HeartwoodInputsAndSupplies_1 : ((hw id).hwOn = true) ∧ ((hw id).heart.cal.mode ≠ 2) ∧ ((hw id).heart.time ≤ (400000
    : BitVec 64).toNat) ∧ ((400000 : BitVec 64).toNat < (hw id).heart.secondEndAt) := by decide
theorem witness_HeartwoodInputsAndSupplies_2 : ((hw (calibrated 1 0)).hwOn = true) ∧ ((hw (calibrated 1 0)).heart.cal.mode = 1) ∧
    ((hw (calibrated 1 0)).heart.time ≤ (400000 : BitVec 64).toNat) ∧ ((400000 : BitVec 64).toNat < (hw (calibrated 1
    0)).heart.secondEndAt) := by decide
theorem witness_HeartwoodInputsAndSupplies_3 : ((hw id).hwOn = true) ∧ ((hw id).heart.cal.mode ≠ 2) ∧ ((false = true → (hw
    id).heart.cal.mode = 1)) ∧ ((hw id).heart.time ≤ (400000 : BitVec 64).toNat) ∧ ((400000 : BitVec 64).toNat < (hw
    id).heart.secondEndAt) := by decide
theorem witness_HeartwoodInputsAndSupplies_4 : (heartPresent State.reset.dev.variant = true) ∧ (State.reset.heart.on = false) := by
    decide
theorem witness_HeartwoodInputsAndSupplies_5 : (heartPresent
    { State.reset with heart := { calibrated 0 3 Heart.reset with heldSource := 1, asleep := 5 } }.dev.variant = true) ∧
    ({ State.reset with heart := { calibrated 0 3 Heart.reset with heldSource := 1, asleep := 5 } }.heart.on = false) ∧
    ({ State.reset with heart := { calibrated 0 3 Heart.reset with heldSource := 1, asleep := 5 } }.heart.uncal = false) ∧
    ({ State.reset with heart := { calibrated 0 3 Heart.reset with heldSource := 1, asleep := 5 } }.heart.heldSource = 1) ∧
    ({ State.reset with heart := { calibrated 0 3 Heart.reset with heldSource := 1, asleep := 5 } }.heart.cal.kPulse ≠ 0) := by
    decide
theorem witness_HeartwoodInputsAndSupplies_6 : (heartPresent State.reset.dev.variant = true) ∧ (State.reset.heart.on = false) := by
    decide
theorem witness_HeartwoodInputsAndSupplies_7 : (heartPresent (hw id).dev.variant = true) ∧ ((hw id).heart.on = true) := by decide
theorem witness_HeartwoodInputsAndSupplies_8 : ((hw fun h => { h with wt := ⟨some (9, 100), none, false⟩ }).hwOn = true) ∧ ((hw fun
    h => { h with wt := ⟨some (9, 100), none, false⟩ }).heart.time ≤ (400000 : BitVec 64).toNat) ∧ ((400000 : BitVec 64).toNat < (hw
    fun h => { h with wt := ⟨some (9, 100), none, false⟩ }).heart.secondEndAt) ∧ ((hw fun h =>
    { h with wt := ⟨some (9, 100), none, false⟩ }).heart.wt.edge = none) ∧ ((hw fun h =>
    { h with wt := ⟨some (9, 100), none, false⟩ }).heart.wt.msg = some (9, 100)) ∧ ((400000 : BitVec 64).toNat ≤ 100 + 1100000) :=
    by decide
theorem witness_HeartwoodInputsAndSupplies_9 : ((hw fun h => { h with time := 1100000, wt := ⟨none, some (9, 400000), false⟩ }).hwOn
    = true) ∧ ((hw fun h => { h with time := 1100000, wt := ⟨none, some (9, 400000), false⟩ }).heart.time ≤ (1400000 : BitVec
    64).toNat) ∧ ((1400000 : BitVec 64).toNat < (hw fun h =>
    { h with time := 1100000, wt := ⟨none, some (9, 400000), false⟩ }).heart.secondEndAt) ∧ ((hw fun h =>
    { h with time := 1100000, wt := ⟨none, some (9, 400000), false⟩ }).heart.wt.edge = some (9, 400000)) ∧ (400000 + 998000 ≤
    (1400000 : BitVec 64).toNat) ∧ ((1400000 : BitVec 64).toNat ≤ 400000 + 1002000) ∧ ((hw fun h =>
    { h with time := 1100000, wt := ⟨none, some (9, 400000), false⟩ }).heart.rb 0x80 5 = false) := by decide
theorem witness_HeartwoodInputsAndSupplies_10 : ((hw fun h => ({ h with time := 1100000, wt := ⟨none, some (9, 400000), true⟩ } :
    Heart).setReg 0x80 0x21).hwOn = true) ∧ ((hw fun h => ({ h with time := 1100000, wt := ⟨none, some (9, 400000), true⟩ } :
    Heart).setReg 0x80 0x21).heart.time ≤ (1300000 : BitVec 64).toNat) ∧ ((1300000 : BitVec 64).toNat < (hw fun h =>
    ({ h with time := 1100000, wt := ⟨none, some (9, 400000), true⟩ } : Heart).setReg 0x80 0x21).heart.secondEndAt) ∧ ((hw fun h =>
    ({ h with time := 1100000, wt := ⟨none, some (9, 400000), true⟩ } : Heart).setReg 0x80 0x21).heart.wt.edge = some (9, 400000)) ∧
    (((1300000 : BitVec 64).toNat < 400000 + 998000 ∨ 400000 + 1002000 < (1300000 : BitVec 64).toNat)) ∧ ((hw fun h =>
    ({ h with time := 1100000, wt := ⟨none, some (9, 400000), true⟩ } : Heart).setReg 0x80 0x21).heart.wt.msg = none) ∧ ((hw fun h
    => ({ h with time := 1100000, wt := ⟨none, some (9, 400000), true⟩ } : Heart).setReg 0x80 0x21).heart.rb 0x80 5 = true) := by
    decide
theorem witness_HeartwoodInputsAndSupplies_11 : ((hw id).hwOn = true) ∧ ((hw id).heart.rb 0x80 13 = false) := by decide
theorem witness_HeartwoodInputsAndSupplies_12 : (heartPresent (hw id).dev.variant = true) ∧ ((hw id).heart.rb 0x80 14 = false) := by
    decide
theorem witness_HeartwoodInputsAndSupplies_13 : ((hw id).hwOn = true) := by decide
theorem witness_HeartwoodInputsAndSupplies_14 : ((hw fun h => { h with time := 2000000 }).hwOn = true) ∧ ((hw fun h =>
    { h with time := 2000000 }).heart.link0Seen = false) ∧ ((hw fun h => { h with time := 2000000 }).heart.startDue = false) ∧ ((hw
    fun h => { h with time := 2000000 }).heart.time ≤ (hw fun h => { h with time := 2000000 }).heart.started + 2000000) ∧ ((hw fun h
    => { h with time := 2000000 }).heart.started + 2000000 < (hw fun h => { h with time := 2000000 }).heart.secondEndAt) ∧ ((hw fun
    h => { h with time := 2000000 }).heart.source = 3) ∧ ((hw fun h => { h with time := 2000000 }).heart.cal.mode ≠ 2) := by decide
theorem witness_HeartwoodInputsAndSupplies_15 : ((hw fun h => { h with batches := [batch 3 true none] }).hwOn = true) ∧ ((hw fun h
    => { h with batches := [batch 3 true none] }).heart.batches.find? (fun x => x.closed && x.trailer.isNone) = some (batch 3 true
    none)) ∧ ((hw fun h => { h with batches := [batch 3 true none] }).heart.slotsUsed + 55 ≤ 32768) ∧ ((hw fun h =>
    { h with batches := [batch 3 true none] }).heart.keys = true) := by decide
theorem witness_HeartwoodInputsAndSupplies_16 : ((hw id).hwOn = true) ∧ ((hw id).heart.batches.find? (fun x => x.closed &&
    x.trailer.isNone) = none) := by decide
theorem witness_HeartwoodInputsAndSupplies_17 : (heartPresent (start fun d => { d with variant := .s }).dev.variant = false) := by
    decide
theorem witness_HeartwoodInputsAndSupplies_18 : (heartPresent State.reset.dev.variant = true) ∧ (State.reset.heart.on = false) := by
    decide
theorem witness_SensorLinkAlignsAndDelivers_1 : ((hw id).hwOn = true) ∧ ((hw id).heart.link0.state ≠ 2) ∧ ((List.range 512).all (fun
    p => !posScores (hw id).heart.link0.prev.toNat (0 : BitVec 512).toNat (p + 1) || decide ((hw id).heart.link0.scores.get 0 (p +
    1) < 2)) = true) ∧ ((hw id).heart.time ≤ (400000 : BitVec 64).toNat) ∧ ((400000 : BitVec 64).toNat < (hw id).heart.secondEndAt)
    := by decide
theorem witness_SensorLinkAlignsAndDelivers_2 : ((hw fun h => { h with link0 := { HwLink.reset with scores := [(512, 2)] } }).hwOn =
    true) ∧ ((hw fun h => { h with link0 := { HwLink.reset with scores := [(512, 2)] } }).heart.link0.state ≠ 2) ∧ (1 ≤ 512) ∧ (512
    ≤ 512) ∧ (posScores (hw fun h => { h with link0 := { HwLink.reset with scores := [(512, 2)] } }).heart.link0.prev.toNat (hsl
    0).toNat 512 = true) ∧ (2 ≤ (hw fun h => { h with link0 := { HwLink.reset with scores := [(512, 2)] } }).heart.link0.scores.get
    0 512) ∧ ((List.range (512 - 1)).all (fun q => !posScores (hw fun h =>
    { h with link0 := { HwLink.reset with scores := [(512, 2)] } }).heart.link0.prev.toNat (hsl 0).toNat (q + 1) || decide ((hw fun
    h => { h with link0 := { HwLink.reset with scores := [(512, 2)] } }).heart.link0.scores.get 0 (q + 1) < 2)) = true) ∧ ((hw fun h
    => { h with link0 := { HwLink.reset with scores := [(512, 2)] } }).heart.time ≤ (400000 : BitVec 64).toNat) ∧ ((400000 : BitVec
    64).toNat < (hw fun h => { h with link0 := { HwLink.reset with scores := [(512, 2)] } }).heart.secondEndAt) := by decide
theorem witness_SensorLinkAlignsAndDelivers_3 : ((hw framed).hwOn = true) ∧ ((hw framed).heart.link0.state = 2) ∧ (frameBits
    (frameAt (hw framed).heart.link0.prev.toNat (hsl 0).toNat (hw framed).heart.link0.pos) 0 15 = 0xF628) ∧ (hslCrcOk (descramble
    (frameAt (hw framed).heart.link0.prev.toNat (hsl 0).toNat (hw framed).heart.link0.pos)) = true) ∧ ((hw framed).heart.time ≤
    (400000 : BitVec 64).toNat) ∧ ((400000 : BitVec 64).toNat < (hw framed).heart.secondEndAt) := by decide
theorem witness_SensorLinkAlignsAndDelivers_4 : ((hw fun h => { framed h with link0 := { (framed h).link0 with badFaw := 3 } }).hwOn
    = true) ∧ ((hw fun h => { framed h with link0 := { (framed h).link0 with badFaw := 3 } }).heart.link0.state = 2) ∧ (frameBits
    (frameAt (hw fun h => { framed h with link0 := { (framed h).link0 with badFaw := 3 } }).heart.link0.prev.toNat (0 : BitVec
    512).toNat (hw fun h => { framed h with link0 := { (framed h).link0 with badFaw := 3 } }).heart.link0.pos) 0 15 ≠ 0xF628) ∧
    (hslCrcOk (descramble (frameAt (hw fun h =>
    { framed h with link0 := { (framed h).link0 with badFaw := 3 } }).heart.link0.prev.toNat (0 : BitVec 512).toNat (hw fun h =>
    { framed h with link0 := { (framed h).link0 with badFaw := 3 } }).heart.link0.pos)) = false) ∧ ((hw fun h =>
    { framed h with link0 := { (framed h).link0 with badFaw := 3 } }).heart.link0.badFaw = 3) ∧ ((hw fun h =>
    { framed h with link0 := { (framed h).link0 with badFaw := 3 } }).heart.time ≤ (400000 : BitVec 64).toNat) ∧ ((400000 : BitVec
    64).toNat < (hw fun h => { framed h with link0 := { (framed h).link0 with badFaw := 3 } }).heart.secondEndAt) := by decide
theorem witness_SensorLinkAlignsAndDelivers_5 : ((hw fun h =>
    { framed (calibrated 0 1 h) with link0 := { (framed h).link0 with req := some (0x5A, 0, 2) } }).hwOn = true) ∧ ((hw fun h =>
    { framed (calibrated 0 1 h) with link0 := { (framed h).link0 with req := some (0x5A, 0, 2) } }).heart.link0.state = 2) ∧
    (frameBits (frameAt (hw fun h =>
    { framed (calibrated 0 1 h) with link0 := { (framed h).link0 with req := some (0x5A, 0, 2) } }).heart.link0.prev.toNat (hsl
    (0x5A * 2 ^ 456)).toNat (hw fun h =>
    { framed (calibrated 0 1 h) with link0 := { (framed h).link0 with req := some (0x5A, 0, 2) } }).heart.link0.pos) 0 15 = 0xF628)
    ∧ (hslCrcOk (descramble (frameAt (hw fun h =>
    { framed (calibrated 0 1 h) with link0 := { (framed h).link0 with req := some (0x5A, 0, 2) } }).heart.link0.prev.toNat (hsl
    (0x5A * 2 ^ 456)).toNat (hw fun h =>
    { framed (calibrated 0 1 h) with link0 := { (framed h).link0 with req := some (0x5A, 0, 2) } }).heart.link0.pos)) = true) ∧
    (frameBits (descramble (frameAt (hw fun h =>
    { framed (calibrated 0 1 h) with link0 := { (framed h).link0 with req := some (0x5A, 0, 2) } }).heart.link0.prev.toNat (hsl
    (0x5A * 2 ^ 456)).toNat (hw fun h =>
    { framed (calibrated 0 1 h) with link0 := { (framed h).link0 with req := some (0x5A, 0, 2) } }).heart.link0.pos)) 32 39 = 0x5A)
    ∧ (frameBits (descramble (frameAt (hw fun h =>
    { framed (calibrated 0 1 h) with link0 := { (framed h).link0 with req := some (0x5A, 0, 2) } }).heart.link0.prev.toNat (hsl
    (0x5A * 2 ^ 456)).toNat (hw fun h =>
    { framed (calibrated 0 1 h) with link0 := { (framed h).link0 with req := some (0x5A, 0, 2) } }).heart.link0.pos)) 40 47 = 0) ∧
    (0 ≤ 2) ∧ ((0 = 1 → (hw fun h =>
    { framed (calibrated 0 1 h) with link0 := { (framed h).link0 with req := some (0x5A, 0, 2) } }).heart.cal.mode ≠ 2)) ∧ ((0 = 2 →
    (hw fun h => { framed (calibrated 0 1 h) with link0 := { (framed h).link0 with req := some (0x5A, 0, 2) } }).heart.cal.mode =
    2)) ∧ ((hw fun h =>
    { framed (calibrated 0 1 h) with link0 := { (framed h).link0 with req := some (0x5A, 0, 2) } }).heart.link0.req = some (0x5A, 0,
    2)) ∧ (0 ≠ (hw fun h =>
    { framed (calibrated 0 1 h) with link0 := { (framed h).link0 with req := some (0x5A, 0, 2) } }).heart.source) ∧ ((hw fun h =>
    { framed (calibrated 0 1 h) with link0 := { (framed h).link0 with req := some (0x5A, 0, 2) } }).heart.time ≤ (400000 : BitVec
    64).toNat) ∧ ((400000 : BitVec 64).toNat < (hw fun h =>
    { framed (calibrated 0 1 h) with link0 := { (framed h).link0 with req := some (0x5A, 0, 2) } }).heart.secondEndAt) := by decide
theorem witness_SapwoodTransfersRun_1 : (State.reset.dev.runs = true) ∧ (heartPresent State.reset.dev.variant = true) ∧ (blockOf
    (0x580104 : BitVec 32).toNat = some 13) ∧ (reaches coreA.origin 13 = true) ∧ (State.reset.dev.permitted (if (some 7 : Option
    (BitVec 32)).isSome then 0 else 1) coreA.origin 13 = true) ∧ (4 = 4) ∧ ((0x580104 : BitVec 32).toNat % 4 = 0) ∧
    (State.reset.dev.linkDown = false) := by decide
theorem witness_SapwoodTransfersRun_2 : (State.reset.dev.runs = true) ∧ (heartPresent State.reset.dev.variant = true) ∧ (blockOf
    (0x580104 : BitVec 32).toNat = some 13) ∧ (reaches coreA.origin 13 = true) ∧ (State.reset.dev.permitted (if (some 7 : Option
    (BitVec 32)).isSome then 0 else 1) coreA.origin 13 = true) ∧ (4 = 4) ∧ ((0x580104 : BitVec 32).toNat % 4 = 0) ∧
    (State.reset.dev.linkDown = false) := by decide
theorem witness_SapwoodTransfersRun_3 : (State.reset.dev.runs = true) ∧ (heartPresent State.reset.dev.variant = true) ∧ (blockOf
    (0x580104 : BitVec 32).toNat = some 13) ∧ (reaches coreA.origin 13 = true) ∧ (State.reset.dev.permitted (if (some 7 : Option
    (BitVec 32)).isSome then 0 else 1) coreA.origin 13 = true) ∧ ((4 ≠ 4 ∨ (0x580104 : BitVec 32).toNat % 4 ≠ 0 ∨ true = true)) :=
    by decide
theorem witness_SapwoodTransfersRun_4 : ((start (rset (sapReg 4) 1)).dev.runs = true) ∧ (heartPresent (start (rset (sapReg 4)
    1)).dev.variant = true) ∧ (blockOf (0x580104 : BitVec 32).toNat = some 13) ∧ (reaches coreA.origin 13 = true) ∧ ((start (rset
    (sapReg 4) 1)).dev.permitted (if (some 7 : Option (BitVec 32)).isSome then 0 else 1) coreA.origin 13 = true) ∧ (4 = 4) ∧
    ((0x580104 : BitVec 32).toNat % 4 = 0) ∧ ((start (rset (sapReg 4) 1)).dev.linkDown = true) := by decide
theorem witness_SapwoodTransfersRun_5 :
    ({ (start fun d => atRaw (2 ^ 40) { d with sap := { d.sap with queue := [⟨coreA, 0x580104, some 7, 0, true⟩] } }) with heart := { Heart.reset with on := true } }.dev.runs
    = true) ∧
    ({ (start fun d => atRaw (2 ^ 40) { d with sap := { d.sap with queue := [⟨coreA, 0x580104, some 7, 0, true⟩] } }) with heart := { Heart.reset with on := true } }.heart.on
    = true) ∧
    ({ (start fun d => atRaw (2 ^ 40) { d with sap := { d.sap with queue := [⟨coreA, 0x580104, some 7, 0, true⟩] } }) with heart := { Heart.reset with on := true } }.dev.sap.queue
    = ⟨coreA, 0x580104, some (7 : BitVec 32), 0, true⟩ :: ([] : List SapXfer)) ∧ (0x580100 ≤ 0x580104) ∧ (0x580104 < 0x580200) ∧
    ({ (start fun d => atRaw (2 ^ 40) { d with sap := { d.sap with queue := [⟨coreA, 0x580104, some 7, 0, true⟩] } }) with heart := { Heart.reset with on := true } }.heart.busy
    = false) := by decide
theorem witness_SapwoodTransfersRun_6 :
    ({ (start fun d => { d with sap := { d.sap with queue := [⟨coreA, 0x580080, none, 0, true⟩] } }) with heart := { Heart.reset with on := true } }.dev.runs
    = true) ∧
    ({ (start fun d => { d with sap := { d.sap with queue := [⟨coreA, 0x580080, none, 0, true⟩] } }) with heart := { Heart.reset with on := true } }.heart.on
    = true) ∧
    ({ (start fun d => { d with sap := { d.sap with queue := [⟨coreA, 0x580080, none, 0, true⟩] } }) with heart := { Heart.reset with on := true } }.dev.sap.queue
    = ⟨coreA, 0x580080, none, 0, true⟩ :: ([] : List SapXfer)) ∧ (0x580000 ≤ 0x580080) := by decide
theorem witness_SapwoodTransfersRun_7 : ((start fun d => atRaw (2 ^ 40)
    { d with sap := { d.sap with queue := [⟨coreA, 0x580104, some 7, 0, true⟩] } }).dev.runs = true) ∧ ((start fun d => atRaw (2 ^
    40) { d with sap := { d.sap with queue := [⟨coreA, 0x580104, some 7, 0, true⟩] } }).dev.sap.queue = (⟨coreA, 0x580104, some 7,
    0, true⟩ : SapXfer) :: ([] : List SapXfer)) ∧ ((start fun d => atRaw (2 ^ 40)
    { d with sap := { d.sap with queue := [⟨coreA, 0x580104, some 7, 0, true⟩] } }).dev.now ≥ (⟨coreA, 0x580104, some 7, 0, true⟩ :
    SapXfer).since + (start fun d => atRaw (2 ^ 40)
    { d with sap := { d.sap with queue := [⟨coreA, 0x580104, some 7, 0, true⟩] } }).dev.rf (sapReg 8) 9 0 * usRaw) ∧ ((start fun d
    => atRaw (2 ^ 40) { d with sap := { d.sap with queue := [⟨coreA, 0x580104, some 7, 0, true⟩] } }).dev.sap.timeouts < 2) := by
    decide
theorem witness_SapwoodTransfersRun_8 : ((start fun d => atRaw (2 ^ 40)
    { d with sap := { d.sap with queue := [⟨coreA, 0x580104, some 7, 0, true⟩], timeouts := 2 } }).dev.runs = true) ∧ ((start fun d
    => atRaw (2 ^ 40) { d with sap := { d.sap with queue := [⟨coreA, 0x580104, some 7, 0, true⟩], timeouts := 2 } }).dev.sap.queue =
    (⟨coreA, 0x580104, some 7, 0, true⟩ : SapXfer) :: ([] : List SapXfer)) ∧ ((start fun d => atRaw (2 ^ 40)
    { d with sap := { d.sap with queue := [⟨coreA, 0x580104, some 7, 0, true⟩], timeouts := 2 } }).dev.now ≥ (⟨coreA, 0x580104, some
    7, 0, true⟩ : SapXfer).since + (start fun d => atRaw (2 ^ 40)
    { d with sap := { d.sap with queue := [⟨coreA, 0x580104, some 7, 0, true⟩], timeouts := 2 } }).dev.rf (sapReg 8) 9 0 * usRaw) ∧
    ((start fun d => atRaw (2 ^ 40)
    { d with sap := { d.sap with queue := [⟨coreA, 0x580104, some 7, 0, true⟩], timeouts := 2 } }).dev.sap.timeouts = 2) := by
    decide
theorem witness_SapwoodTransfersRun_9 : ((start (rset (sapReg 4) 3)).opens coreA (sapReg 0) = true) ∧ ((start (rset (sapReg 4)
    3)).dev.sap.rst = false) ∧ ((start (rset (sapReg 4) 3)).dev.rb (sapReg 4) 1 = true) ∧ ((start (rset (sapReg 4) 3)).clocked
    (sapReg 0) = true) := by decide
theorem witness_SapwoodTransfersRun_10 : ((start (rset (sapReg 4) 1)).opens coreA (sapReg 0) = true) ∧ ((start (rset (sapReg 4)
    1)).dev.sap.rst = true ∨ (start (rset (sapReg 4) 1)).dev.rb (sapReg 4) 1 = false) ∧ ((start (rset (sapReg 4) 1)).clocked (sapReg
    0) = true) := by decide
theorem witness_SapwoodTransfersRun_11 : (State.reset.dev.runs = true) ∧ (State.reset.dev.sap.queue = []) := by decide
theorem witness_SapwoodTransfersRun_12 : ((start fun d =>
    { d with sap := { d.sap with queue := [⟨coreA, 0x580104, some 7, 0, true⟩] } }).dev.runs = true) ∧ ((start fun d =>
    { d with sap := { d.sap with queue := [⟨coreA, 0x580104, some 7, 0, true⟩] } }).dev.sap.queue = (⟨coreA, 0x580104, some 7, 0,
    true⟩ : SapXfer) :: ([] : List SapXfer)) ∧ ((start fun d =>
    { d with sap := { d.sap with queue := [⟨coreA, 0x580104, some 7, 0, true⟩] } }).dev.now < (⟨coreA, 0x580104, some 7, 0, true⟩ :
    SapXfer).since + (start fun d => { d with sap := { d.sap with queue := [⟨coreA, 0x580104, some 7, 0, true⟩] } }).dev.rf (sapReg
    8) 9 0 * usRaw) := by decide
theorem witness_SapwoodTransfersRun_13 : (State.reset.dev.runs = true) ∧ (State.reset.dev.sap.queue = []) := by decide
theorem witness_SapwoodSemaphoresWiresAndNotices_1 : (State.reset.dev.runs = true) ∧ (heartPresent State.reset.dev.variant = true) ∧
    (reaches coreA.origin 14 = true) ∧ (State.reset.dev.permitted 1 coreA.origin 14 = true) ∧ (State.reset.dev.rb (sapReg (0x100 + 4
    * (3 : Fin 16).val)) 0 = false) := by decide
theorem witness_SapwoodSemaphoresWiresAndNotices_2 : ((start (rset (sapReg 0x10C) 0x51)).dev.runs = true) ∧ (heartPresent (start
    (rset (sapReg 0x10C) 0x51)).dev.variant = true) ∧ (reaches coreA.origin 14 = true) ∧ ((start (rset (sapReg 0x10C)
    0x51)).dev.permitted 1 coreA.origin 14 = true) ∧ ((start (rset (sapReg 0x10C) 0x51)).dev.rb (sapReg (0x100 + 4 * (3 : Fin
    16).val)) 0 = true) := by decide
theorem witness_SapwoodSemaphoresWiresAndNotices_3 : ((start (rset (sapReg 0x10C) 0x31)).opens coreA (sapReg (0x100 + 4 * (3 : Fin
    16).val)) = true) ∧ ((start (rset (sapReg 0x10C) 0x31)).dev.rb (sapReg (0x100 + 4 * (3 : Fin 16).val)) 0 = true) ∧ ((start (rset
    (sapReg 0x10C) 0x31)).dev.rf (sapReg (0x100 + 4 * (3 : Fin 16).val)) 7 4 = coreA.origin) := by decide
theorem witness_SapwoodSemaphoresWiresAndNotices_4 : ((start (rset (sapReg 0x10C) 0x41)).opens coreA (sapReg (0x100 + 4 * (3 : Fin
    16).val)) = true) ∧ (¬ ((start (rset (sapReg 0x10C) 0x41)).dev.rb (sapReg (0x100 + 4 * (3 : Fin 16).val)) 0 = true ∧ (start
    (rset (sapReg 0x10C) 0x41)).dev.rf (sapReg (0x100 + 4 * (3 : Fin 16).val)) 7 4 = coreA.origin)) := by decide
theorem witness_SapwoodSemaphoresWiresAndNotices_5 : ((start (atRaw (2 ^ 50))).dev.runs = true) ∧ (heartPresent (start (atRaw (2 ^
    50))).dev.variant = true) ∧ ((start (atRaw (2 ^ 50))).dev.sap.silent = false) ∧ ((start (atRaw (2 ^ 50))).dev.sap.beat + 5 *
    msRaw ≤ (start (atRaw (2 ^ 50))).dev.now) := by decide
theorem witness_SapwoodSemaphoresWiresAndNotices_6 : ((start fun d => { d with sap := { d.sap with silent := true } }).dev.runs =
    true) ∧ (heartPresent (start fun d => { d with sap := { d.sap with silent := true } }).dev.variant = true) := by decide
theorem witness_SapwoodSemaphoresWiresAndNotices_7 : (State.reset.dev.runs = true) ∧ (heartPresent State.reset.dev.variant = true) ∧
    ((1 : Fin 8).val < 3) := by decide
theorem witness_SapwoodSemaphoresWiresAndNotices_8 : ((hw fun h => { h with notices := [⟨52, 1, 1, 0, 0⟩] }).dev.runs = true) ∧
    (heartPresent (hw fun h => { h with notices := [⟨52, 1, 1, 0, 0⟩] }).dev.variant = true) ∧ ((hw fun h =>
    { h with notices := [⟨52, 1, 1, 0, 0⟩] }).heart.on = true) ∧ ((hw fun h =>
    { h with notices := [⟨52, 1, 1, 0, 0⟩] }).heart.notices = (⟨52, 1, 1, 0, 0⟩ : HwNotice) :: ([] : List HwNotice)) := by decide
theorem witness_SapwoodSemaphoresWiresAndNotices_9 : ((start (rset (sapReg 0x10C) 0x71)).dev.runs = true) ∧ (heartPresent (start
    (rset (sapReg 0x10C) 0x71)).dev.variant = true) ∧ ((start (rset (sapReg 0x10C) 0x71)).dev.linkDown = false) := by decide
theorem witness_SapwoodSemaphoresWiresAndNotices_10 : (heartPresent (start fun d =>
    { d with sap := { d.sap with rst := true } }).dev.variant = true) ∧ ((false = false ∨ (start fun d =>
    { d with sap := { d.sap with rst := true } }).dev.runs = false)) := by decide
theorem witness_SapwoodSemaphoresWiresAndNotices_11 : ((start fun d => { d with sap := { d.sap with silent := true } }).dev.runs =
    true) ∧ (heartPresent (start fun d => { d with sap := { d.sap with silent := true } }).dev.variant = true) ∧ ((start fun d =>
    { d with sap := { d.sap with silent := true } }).dev.sap.silent = true ∨ (start fun d =>
    { d with sap := { d.sap with silent := true } }).dev.now < (start fun d =>
    { d with sap := { d.sap with silent := true } }).dev.sap.beat + 5 * msRaw) := by decide
theorem witness_SapwoodSemaphoresWiresAndNotices_12 : (State.reset.dev.runs = true) ∧ (3 ≤ (5 : Fin 8).val) := by decide
theorem witness_SapwoodSemaphoresWiresAndNotices_13 : ((hw id).dev.runs = true) ∧ ((hw id).heart.notices = []) := by decide
theorem witness_CanopyPairsAndRings_1 : (State.reset.opens coreA (pairReg (0 : Fin 3).val 4) = true) ∧ (State.reset.clocked (pairReg
    (0 : Fin 3).val 4) = true) ∧ (State.reset.dev.split = false) ∧ (State.reset.dev.pairState (0 : Fin 3).val = 1) ∧
    (State.reset.dev.pairOrigin (0 : Fin 3).val = coreA.origin) := by decide
theorem witness_CanopyPairsAndRings_2 : (State.reset.opens coreA (pairReg (0 : Fin 3).val 4) = true) ∧ (State.reset.clocked (pairReg
    (0 : Fin 3).val 4) = true) ∧ (State.reset.dev.split = false) ∧ (State.reset.dev.pairState (0 : Fin 3).val = 1) ∧
    (State.reset.dev.pairOrigin (0 : Fin 3).val = coreA.origin) ∧ ((0 : Fin 3) ≠ 2) ∧ (State.reset.dev.pairState 2 = 3) := by decide
theorem witness_CanopyPairsAndRings_3 : (State.reset.dev.runs = true) ∧ (State.reset.dev.split = false) ∧ (State.reset.dev.pairState
    (0 : Fin 3).val = 1) ∧ ((State.reset.dev.inWindow (0 : Fin 3).val).length < 3) := by decide
theorem witness_CanopyPairsAndRings_4 : ((start fun d => d.setPair 0 ⟨[0, 0], 0, false⟩).dev.runs = true) ∧ ((start fun d =>
    d.setPair 0 ⟨[0, 0], 0, false⟩).dev.split = false) ∧ ((start fun d => d.setPair 0 ⟨[0, 0], 0, false⟩).dev.pairState (0 : Fin
    3).val = 1) ∧ (((start fun d => d.setPair 0 ⟨[0, 0], 0, false⟩).dev.inWindow (0 : Fin 3).val).length ≥ 3) ∧ ((0 : Fin 3) ≠ 2) ∧
    ((start fun d => d.setPair 0 ⟨[0, 0], 0, false⟩).dev.pairState 2 = 3) := by decide
theorem witness_CanopyPairsAndRings_5 : ((start fun d => (rset (pairReg 2 0) 0x40 d).setPair 0 ⟨[0, 0], 0, false⟩).dev.runs = true)
    ∧ ((start fun d => (rset (pairReg 2 0) 0x40 d).setPair 0 ⟨[0, 0], 0, false⟩).dev.split = false) ∧ ((start fun d => (rset
    (pairReg 2 0) 0x40 d).setPair 0 ⟨[0, 0], 0, false⟩).dev.pairState (0 : Fin 3).val = 1) ∧ (((start fun d => (rset (pairReg 2 0)
    0x40 d).setPair 0 ⟨[0, 0], 0, false⟩).dev.inWindow (0 : Fin 3).val).length ≥ 3) ∧ (((0 : Fin 3) = 2 ∨ (start fun d => (rset
    (pairReg 2 0) 0x40 d).setPair 0 ⟨[0, 0], 0, false⟩).dev.pairState 2 ≠ 3)) := by decide
theorem witness_CanopyPairsAndRings_6 : ((start (rset (pairReg 0 0) 0x3020)).dev.runs = true) ∧ ((start (rset (pairReg 0 0)
    0x3020)).dev.pairState (0 : Fin 3).val = 2) := by decide
theorem witness_CanopyPairsAndRings_7 : (State.reset.opens coreA (wdtKickReg (0 : Fin 7).val) = true) ∧ (coreA.origin ≠ 0) ∧
    (State.reset.dev.wdtOrigin (0 : Fin 7).val = coreA.origin) := by decide
theorem witness_CanopyPairsAndRings_8 : ((start fun d => atRaw (2 ^ 40) (rset (wdtCtl 0) 0x80000001 d)).dev.runs = true) ∧ ((start
    fun d => atRaw (2 ^ 40) (rset (wdtCtl 0) 0x80000001 d)).dev.wdtOrigin (0 : Fin 7).val ≠ 0) ∧ ((start fun d => atRaw (2 ^ 40)
    (rset (wdtCtl 0) 0x80000001 d)).dev.rb (wdtCtl (0 : Fin 7).val) 31 = true) ∧ ((start fun d => atRaw (2 ^ 40) (rset (wdtCtl 0)
    0x80000001 d)).dev.canopy.kicks.get 0 (0 : Fin 7).val + (start fun d => atRaw (2 ^ 40) (rset (wdtCtl 0) 0x80000001 d)).dev.rf
    (wdtCtl (0 : Fin 7).val) 19 0 * usRaw ≤ (start fun d => atRaw (2 ^ 40) (rset (wdtCtl 0) 0x80000001 d)).dev.now) := by decide
theorem witness_CanopyPairsAndRings_9 : ((start fun d => atRaw (2 ^ 50) (rset (canopyReg 8) 1 d)).dev.runs = true) ∧ ((start fun d
    => atRaw (2 ^ 50) (rset (canopyReg 8) 1 d)).dev.split = false) ∧ ((start fun d => atRaw (2 ^ 50) (rset (canopyReg 8) 1
    d)).dev.rf (canopyReg 8) 23 0 ≠ 0) ∧ ((start fun d => atRaw (2 ^ 50) (rset (canopyReg 8) 1 d)).dev.pairOrigin (0 : Fin 3).val ≠
    0) ∧ (((start fun d => atRaw (2 ^ 50) (rset (canopyReg 8) 1 d)).dev.pair (0 : Fin 3).val).overdue = false) ∧ (((start fun d =>
    atRaw (2 ^ 50) (rset (canopyReg 8) 1 d)).dev.pair (0 : Fin 3).val).ckptAt + (start fun d => atRaw (2 ^ 50) (rset (canopyReg 8) 1
    d)).dev.rf (canopyReg 8) 23 0 * msRaw ≤ (start fun d => atRaw (2 ^ 50) (rset (canopyReg 8) 1 d)).dev.now) := by decide
theorem witness_CanopyPairsAndRings_10 : (State.reset.opens cpu (pairReg (0 : Fin 3).val 4) = true) ∧ (State.reset.dev.split = true
    ∨ State.reset.dev.pairState (0 : Fin 3).val ≠ 1 ∨ State.reset.dev.pairOrigin (0 : Fin 3).val ≠ cpu.origin) := by decide
theorem witness_CanopyPairsAndRings_11 : ((start (rset (pairReg 2 0) 0x3000)).dev.runs = true) ∧ ((start (rset (pairReg 2 0)
    0x3000)).dev.pairState (2 : Fin 3).val = 0) := by decide
theorem witness_CanopyPairsAndRings_12 : ((start fun d =>
    { rset (pairReg 0 0) 0x3020 d with canopy := { d.canopy with irqs := [("CANOPY_SPQ", 3)] } }).dev.runs = true) ∧ ((start fun d
    => { rset (pairReg 0 0) 0x3020 d with canopy := { d.canopy with irqs := [("CANOPY_SPQ", 3)] } }).dev.pairState (0 : Fin 3).val =
    0 ∨ (start fun d => { rset (pairReg 0 0) 0x3020 d with canopy := { d.canopy with irqs := [("CANOPY_SPQ", 3)] } }).dev.pairState
    (0 : Fin 3).val = 2) ∧ (∀ j : Fin 3, j ≠ (0 : Fin 3) → (start fun d =>
    { rset (pairReg 0 0) 0x3020 d with canopy := { d.canopy with irqs := [("CANOPY_SPQ", 3)] } }).dev.pairState j.val ≠ 0 ∧ (start
    fun d => { rset (pairReg 0 0) 0x3020 d with canopy := { d.canopy with irqs := [("CANOPY_SPQ", 3)] } }).dev.pairState j.val ≠ 2)
    ∧ ((start fun d => { rset (pairReg 0 0) 0x3020 d with canopy := { d.canopy with irqs := [("CANOPY_SPQ", 3)] } }).dev.canopy.irqs
    = [("CANOPY_SPQ", 3)]) := by decide
theorem witness_CanopyPairsAndRings_13 : ((start (rset (pairReg 0 0) 0x3020)).dev.runs = true) ∧ ((start (rset (pairReg 0 0)
    0x3020)).dev.split = true ∨ (start (rset (pairReg 0 0) 0x3020)).dev.pairState (0 : Fin 3).val ≠ 1) := by decide
theorem witness_CanopyPairsAndRings_14 : (State.reset.dev.runs = true) ∧ (State.reset.dev.split = false) ∧
    (State.reset.dev.pairState (0 : Fin 3).val = 1) ∧ ((0 : Fin 3) ≠ 2) ∧ (State.reset.dev.pairState 2 = 3) := by decide
theorem witness_CanopyPairsAndRings_15 : (State.reset.opens coreA (pairReg (0 : Fin 3).val 4) = true) ∧ (State.reset.clocked
    (pairReg (0 : Fin 3).val 4) = true) ∧ (State.reset.dev.split = false) ∧ (State.reset.dev.pairState (0 : Fin 3).val = 1) ∧
    (State.reset.dev.pairOrigin (0 : Fin 3).val = coreA.origin) ∧ ((State.reset.dev.inWindow (0 : Fin 3).val).length < 3) := by
    decide
theorem witness_CanopyPairsAndRings_16 : (State.reset.opens cpu (wdtKickReg (0 : Fin 7).val) = true) ∧ (State.reset.dev.wdtOrigin (0
    : Fin 7).val ≠ cpu.origin) := by decide
theorem witness_CanopyPairsAndRings_17 : (State.reset.dev.runs = true) ∧ (State.reset.dev.wdtOrigin (4 : Fin 7).val = 0 ∨
    State.reset.dev.rb (wdtCtl (4 : Fin 7).val) 31 = false ∨ State.reset.dev.now < State.reset.dev.canopy.kicks.get 0 (4 : Fin
    7).val + State.reset.dev.rf (wdtCtl (4 : Fin 7).val) 19 0 * usRaw) := by decide
theorem witness_CanopyPairsAndRings_18 : ((start (rset (spqReg 1 0) 0x80060000)).opens coreA (spqReg (1 : Fin 16).val 0xC) = true) ∧
    ((start (rset (spqReg 1 0) 0x80060000)).dev.rb (spqReg (1 : Fin 16).val 0) 31 = true) ∧ (dist32 ((start (rset (spqReg 1 0)
    0x80060000)).dev.reg (spqReg (1 : Fin 16).val 0xC)) (2 : BitVec 32) ≤ 2 ^ (start (rset (spqReg 1 0) 0x80060000)).dev.rf (spqReg
    (1 : Fin 16).val 0) 20 16) ∧ (dist32 ((start (rset (spqReg 1 0) 0x80060000)).dev.reg (spqReg (1 : Fin 16).val 0x10)) (2 : BitVec
    32) ≤ 2 ^ (start (rset (spqReg 1 0) 0x80060000)).dev.rf (spqReg (1 : Fin 16).val 0) 20 16) := by decide
theorem witness_CanopyPairsAndRings_19 : ((start (rset (spqReg 1 0) 0x80060000)).opens coreA (spqReg (1 : Fin 16).val 0xC) = true) ∧
    (¬ ((start (rset (spqReg 1 0) 0x80060000)).dev.rb (spqReg (1 : Fin 16).val 0) 31 = true ∧ dist32 ((start (rset (spqReg 1 0)
    0x80060000)).dev.reg (spqReg (1 : Fin 16).val 0xC)) (99 : BitVec 32) ≤ 2 ^ (start (rset (spqReg 1 0) 0x80060000)).dev.rf (spqReg
    (1 : Fin 16).val 0) 20 16 ∧ dist32 ((start (rset (spqReg 1 0) 0x80060000)).dev.reg (spqReg (1 : Fin 16).val 0x10)) (99 : BitVec
    32) ≤ 2 ^ (start (rset (spqReg 1 0) 0x80060000)).dev.rf (spqReg (1 : Fin 16).val 0) 20 16)) := by decide
theorem witness_CanopyPairsAndRings_20 : ((start (rset (sptReg 1 0) 0x80060000)).opens coreA (sptReg (1 : Fin 4).val 0xC) = true) ∧
    ((start (rset (sptReg 1 0) 0x80060000)).dev.rb (sptReg (1 : Fin 4).val 0) 31 = true) ∧ (dist32 ((start (rset (sptReg 1 0)
    0x80060000)).dev.reg (sptReg (1 : Fin 4).val 0xC)) (2 : BitVec 32) ≤ 2 ^ (start (rset (sptReg 1 0) 0x80060000)).dev.rf (sptReg
    (1 : Fin 4).val 0) 20 16) ∧ (dist32 ((start (rset (sptReg 1 0) 0x80060000)).dev.reg (sptReg (1 : Fin 4).val 0x10)) (2 : BitVec
    32) ≤ 2 ^ (start (rset (sptReg 1 0) 0x80060000)).dev.rf (sptReg (1 : Fin 4).val 0) 20 16) := by decide
theorem witness_CanopyPairsAndRings_21 : ((start fun d =>
    { rset (spqReg 1 0xC) 2 (rset (spqReg 1 0) 0x80060000 d) with slowq := [(1, [1])], trunk := { d.trunk with frames := [(1, some frame64)] } }).dev.runs
    = true) ∧ ((start fun d =>
    { rset (spqReg 1 0xC) 2 (rset (spqReg 1 0) 0x80060000 d) with slowq := [(1, [1])], trunk := { d.trunk with frames := [(1, some frame64)] } }).dev.slowHeld
    (1 : Fin 16).val = 1 :: ([] : List Nat)) ∧ ((start fun d =>
    { rset (spqReg 1 0xC) 2 (rset (spqReg 1 0) 0x80060000 d) with slowq := [(1, [1])], trunk := { d.trunk with frames := [(1, some frame64)] } }).dev.rb
    (spqReg (1 : Fin 16).val 0) 31 = true) ∧ (((start fun d =>
    { rset (spqReg 1 0xC) 2 (rset (spqReg 1 0) 0x80060000 d) with slowq := [(1, [1])], trunk := { d.trunk with frames := [(1, some frame64)] } }).dev.basjo.ring
    2 (8 + (1 : Fin 16).val)).stopped = false) ∧ (dist32 ((start fun d =>
    { rset (spqReg 1 0xC) 2 (rset (spqReg 1 0) 0x80060000 d) with slowq := [(1, [1])], trunk := { d.trunk with frames := [(1, some frame64)] } }).dev.reg
    (spqReg (1 : Fin 16).val 0x10)) ((start fun d =>
    { rset (spqReg 1 0xC) 2 (rset (spqReg 1 0) 0x80060000 d) with slowq := [(1, [1])], trunk := { d.trunk with frames := [(1, some frame64)] } }).dev.reg
    (spqReg (1 : Fin 16).val 0xC)) ≠ 0) ∧ ((start fun d =>
    { rset (spqReg 1 0xC) 2 (rset (spqReg 1 0) 0x80060000 d) with slowq := [(1, [1])], trunk := { d.trunk with frames := [(1, some frame64)] } }).dev.stored
    1 = some frame64) ∧ ((some 17 : Option (Fin 18)).all (fun b => !(start fun d =>
    { rset (spqReg 1 0xC) 2 (rset (spqReg 1 0) 0x80060000 d) with slowq := [(1, [1])], trunk := { d.trunk with frames := [(1, some frame64)] } }).dev.bankHolds
    b.val) = true) ∧ (fillBufs 1024 ((start fun d =>
    { rset (spqReg 1 0xC) 2 (rset (spqReg 1 0) 0x80060000 d) with slowq := [(1, [1])], trunk := { d.trunk with frames := [(1, some frame64)] } }).dev.edit
    38 frame64).length (([⟨128, 2048⟩] : List RxBuf).take (dist32 ((start fun d =>
    { rset (spqReg 1 0xC) 2 (rset (spqReg 1 0) 0x80060000 d) with slowq := [(1, [1])], trunk := { d.trunk with frames := [(1, some frame64)] } }).dev.reg
    (spqReg (1 : Fin 16).val 0x10)) ((start fun d =>
    { rset (spqReg 1 0xC) 2 (rset (spqReg 1 0) 0x80060000 d) with slowq := [(1, [1])], trunk := { d.trunk with frames := [(1, some frame64)] } }).dev.reg
    (spqReg (1 : Fin 16).val 0xC)))) = .fits ([(⟨128, 2048⟩, 68)] : List (RxBuf × Nat))) := by decide
theorem witness_CanopyPairsAndRings_22 : ((start fun d =>
    { rset (spqReg 1 0xC) 2 (rset (spqReg 1 0) 0x80060000 d) with slowq := [(1, [1])], trunk := { d.trunk with frames := [(1, some frame64)] } }).dev.runs
    = true) ∧ ((start fun d =>
    { rset (spqReg 1 0xC) 2 (rset (spqReg 1 0) 0x80060000 d) with slowq := [(1, [1])], trunk := { d.trunk with frames := [(1, some frame64)] } }).dev.slowHeld
    (1 : Fin 16).val = 1 :: ([] : List Nat)) ∧ ((start fun d =>
    { rset (spqReg 1 0xC) 2 (rset (spqReg 1 0) 0x80060000 d) with slowq := [(1, [1])], trunk := { d.trunk with frames := [(1, some frame64)] } }).dev.rb
    (spqReg (1 : Fin 16).val 0) 31 = true) ∧ (((start fun d =>
    { rset (spqReg 1 0xC) 2 (rset (spqReg 1 0) 0x80060000 d) with slowq := [(1, [1])], trunk := { d.trunk with frames := [(1, some frame64)] } }).dev.basjo.ring
    2 (8 + (1 : Fin 16).val)).stopped = false) ∧ (dist32 ((start fun d =>
    { rset (spqReg 1 0xC) 2 (rset (spqReg 1 0) 0x80060000 d) with slowq := [(1, [1])], trunk := { d.trunk with frames := [(1, some frame64)] } }).dev.reg
    (spqReg (1 : Fin 16).val 0x10)) ((start fun d =>
    { rset (spqReg 1 0xC) 2 (rset (spqReg 1 0) 0x80060000 d) with slowq := [(1, [1])], trunk := { d.trunk with frames := [(1, some frame64)] } }).dev.reg
    (spqReg (1 : Fin 16).val 0xC)) ≠ 0) ∧ ((start fun d =>
    { rset (spqReg 1 0xC) 2 (rset (spqReg 1 0) 0x80060000 d) with slowq := [(1, [1])], trunk := { d.trunk with frames := [(1, some frame64)] } }).dev.stored
    1 = some frame64) ∧ ((start fun d =>
    { rset (spqReg 1 0xC) 2 (rset (spqReg 1 0) 0x80060000 d) with slowq := [(1, [1])], trunk := { d.trunk with frames := [(1, some frame64)] } }).dev.bankHolds
    (0 : Fin 18).val = true) := by decide
theorem witness_CanopyPairsAndRings_23 : ((start (rset (sptReg 1 0) 0x80060000)).opens coreA (sptReg (1 : Fin 4).val 0xC) = true) ∧
    (¬ ((start (rset (sptReg 1 0) 0x80060000)).dev.rb (sptReg (1 : Fin 4).val 0) 31 = true ∧ dist32 ((start (rset (sptReg 1 0)
    0x80060000)).dev.reg (sptReg (1 : Fin 4).val 0xC)) (99 : BitVec 32) ≤ 2 ^ (start (rset (sptReg 1 0) 0x80060000)).dev.rf (sptReg
    (1 : Fin 4).val 0) 20 16 ∧ dist32 ((start (rset (sptReg 1 0) 0x80060000)).dev.reg (sptReg (1 : Fin 4).val 0x10)) (99 : BitVec
    32) ≤ 2 ^ (start (rset (sptReg 1 0) 0x80060000)).dev.rf (sptReg (1 : Fin 4).val 0) 20 16)) := by decide
theorem witness_CanopyPairsAndRings_24 : ((start fun d =>
    { rset (spqReg 1 0xC) 2 (rset (spqReg 1 0) 0x80060000 d) with slowq := [(1, [1])], trunk := { d.trunk with frames := [(1, some frame64)] } }).dev.runs
    = true) ∧ ((start fun d =>
    { rset (spqReg 1 0xC) 2 (rset (spqReg 1 0) 0x80060000 d) with slowq := [(1, [1])], trunk := { d.trunk with frames := [(1, some frame64)] } }).dev.slowHeld
    (1 : Fin 16).val = 1 :: ([] : List Nat)) ∧ ((start fun d =>
    { rset (spqReg 1 0xC) 2 (rset (spqReg 1 0) 0x80060000 d) with slowq := [(1, [1])], trunk := { d.trunk with frames := [(1, some frame64)] } }).dev.rb
    (spqReg (1 : Fin 16).val 0) 31 = true) ∧ (((start fun d =>
    { rset (spqReg 1 0xC) 2 (rset (spqReg 1 0) 0x80060000 d) with slowq := [(1, [1])], trunk := { d.trunk with frames := [(1, some frame64)] } }).dev.basjo.ring
    2 (8 + (1 : Fin 16).val)).stopped = false) ∧ (dist32 ((start fun d =>
    { rset (spqReg 1 0xC) 2 (rset (spqReg 1 0) 0x80060000 d) with slowq := [(1, [1])], trunk := { d.trunk with frames := [(1, some frame64)] } }).dev.reg
    (spqReg (1 : Fin 16).val 0x10)) ((start fun d =>
    { rset (spqReg 1 0xC) 2 (rset (spqReg 1 0) 0x80060000 d) with slowq := [(1, [1])], trunk := { d.trunk with frames := [(1, some frame64)] } }).dev.reg
    (spqReg (1 : Fin 16).val 0xC)) ≠ 0) ∧ ((start fun d =>
    { rset (spqReg 1 0xC) 2 (rset (spqReg 1 0) 0x80060000 d) with slowq := [(1, [1])], trunk := { d.trunk with frames := [(1, some frame64)] } }).dev.stored
    1 = some frame64) ∧ ((some 17 : Option (Fin 18)).all (fun b => !(start fun d =>
    { rset (spqReg 1 0xC) 2 (rset (spqReg 1 0) 0x80060000 d) with slowq := [(1, [1])], trunk := { d.trunk with frames := [(1, some frame64)] } }).dev.bankHolds
    b.val) = true) ∧ (fillBufs 1024 ((start fun d =>
    { rset (spqReg 1 0xC) 2 (rset (spqReg 1 0) 0x80060000 d) with slowq := [(1, [1])], trunk := { d.trunk with frames := [(1, some frame64)] } }).dev.edit
    38 frame64).length (([⟨128, 0⟩] : List RxBuf).take (dist32 ((start fun d =>
    { rset (spqReg 1 0xC) 2 (rset (spqReg 1 0) 0x80060000 d) with slowq := [(1, [1])], trunk := { d.trunk with frames := [(1, some frame64)] } }).dev.reg
    (spqReg (1 : Fin 16).val 0x10)) ((start fun d =>
    { rset (spqReg 1 0xC) 2 (rset (spqReg 1 0) 0x80060000 d) with slowq := [(1, [1])], trunk := { d.trunk with frames := [(1, some frame64)] } }).dev.reg
    (spqReg (1 : Fin 16).val 0xC)))) = .bad) := by decide
theorem witness_CanopyPairsAndRings_25 : ((start fun d =>
    { rset (spqReg 1 0xC) 2 (rset (spqReg 1 0) 0x80060000 d) with slowq := [(1, [1])], trunk := { d.trunk with frames := [(1, some frame64)] } }).dev.runs
    = true) ∧ ((start fun d =>
    { rset (spqReg 1 0xC) 2 (rset (spqReg 1 0) 0x80060000 d) with slowq := [(1, [1])], trunk := { d.trunk with frames := [(1, some frame64)] } }).dev.slowHeld
    (1 : Fin 16).val = 1 :: ([] : List Nat)) ∧ ((start fun d =>
    { rset (spqReg 1 0xC) 2 (rset (spqReg 1 0) 0x80060000 d) with slowq := [(1, [1])], trunk := { d.trunk with frames := [(1, some frame64)] } }).dev.rb
    (spqReg (1 : Fin 16).val 0) 31 = true) ∧ (((start fun d =>
    { rset (spqReg 1 0xC) 2 (rset (spqReg 1 0) 0x80060000 d) with slowq := [(1, [1])], trunk := { d.trunk with frames := [(1, some frame64)] } }).dev.basjo.ring
    2 (8 + (1 : Fin 16).val)).stopped = false) ∧ (dist32 ((start fun d =>
    { rset (spqReg 1 0xC) 2 (rset (spqReg 1 0) 0x80060000 d) with slowq := [(1, [1])], trunk := { d.trunk with frames := [(1, some frame64)] } }).dev.reg
    (spqReg (1 : Fin 16).val 0x10)) ((start fun d =>
    { rset (spqReg 1 0xC) 2 (rset (spqReg 1 0) 0x80060000 d) with slowq := [(1, [1])], trunk := { d.trunk with frames := [(1, some frame64)] } }).dev.reg
    (spqReg (1 : Fin 16).val 0xC)) ≠ 0) ∧ ((start fun d =>
    { rset (spqReg 1 0xC) 2 (rset (spqReg 1 0) 0x80060000 d) with slowq := [(1, [1])], trunk := { d.trunk with frames := [(1, some frame64)] } }).dev.stored
    1 = some frame64) ∧ ((some 17 : Option (Fin 18)).all (fun b => !(start fun d =>
    { rset (spqReg 1 0xC) 2 (rset (spqReg 1 0) 0x80060000 d) with slowq := [(1, [1])], trunk := { d.trunk with frames := [(1, some frame64)] } }).dev.bankHolds
    b.val) = true) ∧ (fillBufs 1024 ((start fun d =>
    { rset (spqReg 1 0xC) 2 (rset (spqReg 1 0) 0x80060000 d) with slowq := [(1, [1])], trunk := { d.trunk with frames := [(1, some frame64)] } }).dev.edit
    38 frame64).length (([] : List RxBuf).take (dist32 ((start fun d =>
    { rset (spqReg 1 0xC) 2 (rset (spqReg 1 0) 0x80060000 d) with slowq := [(1, [1])], trunk := { d.trunk with frames := [(1, some frame64)] } }).dev.reg
    (spqReg (1 : Fin 16).val 0x10)) ((start fun d =>
    { rset (spqReg 1 0xC) 2 (rset (spqReg 1 0) 0x80060000 d) with slowq := [(1, [1])], trunk := { d.trunk with frames := [(1, some frame64)] } }).dev.reg
    (spqReg (1 : Fin 16).val 0xC)))) = .short) := by decide
theorem witness_CanopyPairsAndRings_26 : ((start fun d =>
    { rset (spqReg 1 0xC) 2 (rset (spqReg 1 0) 0x80060000 d) with slowq := [(1, [1])], trunk := { d.trunk with frames := [(1, some frame64)] } }).dev.runs
    = true) ∧ ((start fun d =>
    { rset (spqReg 1 0xC) 2 (rset (spqReg 1 0) 0x80060000 d) with slowq := [(1, [1])], trunk := { d.trunk with frames := [(1, some frame64)] } }).dev.slowHeld
    (1 : Fin 16).val = 1 :: ([] : List Nat)) ∧ ((start fun d =>
    { rset (spqReg 1 0xC) 2 (rset (spqReg 1 0) 0x80060000 d) with slowq := [(1, [1])], trunk := { d.trunk with frames := [(1, some frame64)] } }).dev.rb
    (spqReg (1 : Fin 16).val 0) 31 = true) ∧ (((start fun d =>
    { rset (spqReg 1 0xC) 2 (rset (spqReg 1 0) 0x80060000 d) with slowq := [(1, [1])], trunk := { d.trunk with frames := [(1, some frame64)] } }).dev.basjo.ring
    2 (8 + (1 : Fin 16).val)).stopped = false) ∧ (dist32 ((start fun d =>
    { rset (spqReg 1 0xC) 2 (rset (spqReg 1 0) 0x80060000 d) with slowq := [(1, [1])], trunk := { d.trunk with frames := [(1, some frame64)] } }).dev.reg
    (spqReg (1 : Fin 16).val 0x10)) ((start fun d =>
    { rset (spqReg 1 0xC) 2 (rset (spqReg 1 0) 0x80060000 d) with slowq := [(1, [1])], trunk := { d.trunk with frames := [(1, some frame64)] } }).dev.reg
    (spqReg (1 : Fin 16).val 0xC)) ≠ 0) ∧ ((start fun d =>
    { rset (spqReg 1 0xC) 2 (rset (spqReg 1 0) 0x80060000 d) with slowq := [(1, [1])], trunk := { d.trunk with frames := [(1, some frame64)] } }).dev.stored
    1 = some frame64) ∧ ((some 17 : Option (Fin 18)).all (fun b => !(start fun d =>
    { rset (spqReg 1 0xC) 2 (rset (spqReg 1 0) 0x80060000 d) with slowq := [(1, [1])], trunk := { d.trunk with frames := [(1, some frame64)] } }).dev.bankHolds
    b.val) = true) := by decide
theorem witness_ModesChangeByCommand_1 : ((start (ring 3)).starts (cmdOp 1 0 0 5 0 0 0 0) 0 0 1 [7, 0, 0, 0, 0] = true) ∧ (modeMay
    (start (ring 3)).dev.mode (fld (cmdOp 1 0 0 5 0 0 0 0).p8 2 0) = true) ∧ (((start (ring 3)).dev.moveMode (cmdOp 1 0 0 5 0 0 0
    0).origin (fld (cmdOp 1 0 0 5 0 0 0 0).p8 2 0)).tap.copying = []) := by decide
theorem witness_ModesChangeByCommand_2 : ((start (ring 3)).starts (cmdOp 1 0 0 2 0 0 0 0) 0 0 1 [7, 0, 0, 0, 0] = true) ∧ (modeMay
    (start (ring 3)).dev.mode (fld (cmdOp 1 0 0 2 0 0 0 0).p8 2 0) = false) := by decide
theorem witness_ModesChangeByCommand_3 : ((start fun d =>
    { learned 0 (station 3 0 0 false 0 0) d with tap := { d.tap with copying := [1] } }).dev.runs = true) ∧ ((start fun d =>
    { learned 0 (station 3 0 0 false 0 0) d with tap := { d.tap with copying := [1] } }).dev.tap.copying = [(1 : Fin 4).val]) ∧ ((1
    : Fin 4) ≠ 0) ∧ ((start fun d =>
    { learned 0 (station 3 0 0 false 0 0) d with tap := { d.tap with copying := [1] } }).dev.tap.modeCmd = none) ∧ ((start fun d =>
    { learned 0 (station 3 0 0 false 0 0) d with tap := { d.tap with copying := [1] } }).dev.groves.fdb.wf (fun _ => none)) := by
    decide
theorem witness_ModesChangeByCommand_4 : ((start fun d => rset (tapReg 0x60) 0 (rset 0x20 3 (ring 3 d))).starts (cmdOp 1 0 0 4 0 0 0
    0) 0 0 1 [7, 0, 0, 0, 0] = true) ∧ (modeMay (start fun d => rset (tapReg 0x60) 0 (rset 0x20 3 (ring 3 d))).dev.mode (fld (cmdOp
    1 0 0 4 0 0 0 0).p8 2 0) = true) ∧ (((start fun d => rset (tapReg 0x60) 0 (rset 0x20 3 (ring 3 d))).dev.moveMode (cmdOp 1 0 0 4
    0 0 0 0).origin (fld (cmdOp 1 0 0 4 0 0 0 0).p8 2 0)).tap.copying ≠ []) := by decide
theorem witness_ModesChangeByCommand_5 : ((start fun d =>
    { d with tap := { d.tap with copying := [1], modeCmd := some (cmdOp 1 0 0 5 0 0 0 0, 4) } }).dev.runs = true) ∧ ((start fun d =>
    { d with tap := { d.tap with copying := [1], modeCmd := some (cmdOp 1 0 0 5 0 0 0 0, 4) } }).dev.tap.copying = [(1 : Fin
    4).val]) ∧ ((start fun d =>
    { d with tap := { d.tap with copying := [1], modeCmd := some (cmdOp 1 0 0 5 0 0 0 0, 4) } }).dev.tap.modeCmd = some ((cmdOp 1 0
    0 5 0 0 0 0), 4)) ∧ (((List.range 38).all (fun n => (start fun d =>
    { d with tap := { d.tap with copying := [1], modeCmd := some (cmdOp 1 0 0 5 0 0 0 0, 4) } }).dev.portPowered n || (((start fun d
    => { d with tap := { d.tap with copying := [1], modeCmd := some (cmdOp 1 0 0 5 0 0 0 0, 4) } }).dev.crown.tx.get none n).isNone
    && ((start fun d =>
    { d with tap := { d.tap with copying := [1], modeCmd := some (cmdOp 1 0 0 5 0 0 0 0, 4) } }).dev.crown.paused.get none
    n).isNone))) = true) ∧ (((List.range 4).all (fun j => (start fun d =>
    { d with tap := { d.tap with copying := [1], modeCmd := some (cmdOp 1 0 0 5 0 0 0 0, 4) } }).dev.grovePowered j || !(start fun d
    => { d with tap := { d.tap with copying := [1], modeCmd := some (cmdOp 1 0 0 5 0 0 0 0, 4) } }).dev.groveBusy j)) = true) ∧
    (((List.range 24).all (fun n => (start fun d =>
    { d with tap := { d.tap with copying := [1], modeCmd := some (cmdOp 1 0 0 5 0 0 0 0, 4) } }).dev.canPowered n || ((start fun d
    => { d with tap := { d.tap with copying := [1], modeCmd := some (cmdOp 1 0 0 5 0 0 0 0, 4) } }).dev.roots.ending.get none
    n).isNone)) = true) := by decide
theorem witness_ModesChangeByCommand_6 : ((start fun d => rset (tapReg 0x64) 0xFFFFFFFE (rset (tapReg 0x68) 0xF (rset (tapReg 0x6C)
    0xFFFFFF (rset (tapReg 0x60) 0xE (rset 0x20 3
    { d with tap := { d.tap with modeCmd := some (cmdOp 1 0 0 5 0 0 0 0, 3) }, crown := { d.crown with tx := [(0, some (⟨0, 0, 1, 0, List.replicate 64 0, 64, false, false, false, 0, 0, 0⟩ : TxRun))] } }))))).dev.runs
    = true) ∧ ((start fun d => rset (tapReg 0x64) 0xFFFFFFFE (rset (tapReg 0x68) 0xF (rset (tapReg 0x6C) 0xFFFFFF (rset (tapReg
    0x60) 0xE (rset 0x20 3
    { d with tap := { d.tap with modeCmd := some (cmdOp 1 0 0 5 0 0 0 0, 3) }, crown := { d.crown with tx := [(0, some (⟨0, 0, 1, 0, List.replicate 64 0, 64, false, false, false, 0, 0, 0⟩ : TxRun))] } }))))).dev.tap.copying
    = []) ∧ ((start fun d => rset (tapReg 0x64) 0xFFFFFFFE (rset (tapReg 0x68) 0xF (rset (tapReg 0x6C) 0xFFFFFF (rset (tapReg 0x60)
    0xE (rset 0x20 3
    { d with tap := { d.tap with modeCmd := some (cmdOp 1 0 0 5 0 0 0 0, 3) }, crown := { d.crown with tx := [(0, some (⟨0, 0, 1, 0, List.replicate 64 0, 64, false, false, false, 0, 0, 0⟩ : TxRun))] } }))))).dev.tap.modeCmd
    = some ((cmdOp 1 0 0 5 0 0 0 0), 3)) ∧ ((start fun d => rset (tapReg 0x64) 0xFFFFFFFE (rset (tapReg 0x68) 0xF (rset (tapReg
    0x6C) 0xFFFFFF (rset (tapReg 0x60) 0xE (rset 0x20 3
    { d with tap := { d.tap with modeCmd := some (cmdOp 1 0 0 5 0 0 0 0, 3) }, crown := { d.crown with tx := [(0, some (⟨0, 0, 1, 0, List.replicate 64 0, 64, false, false, false, 0, 0, 0⟩ : TxRun))] } }))))).dev.crown.tx.get
    none (0 : Fin 36).val = some (⟨0, 0, 1, 0, List.replicate 64 0, 64, false, false, false, 0, 0, 0⟩ : TxRun)) ∧ ((start fun d =>
    rset (tapReg 0x64) 0xFFFFFFFE (rset (tapReg 0x68) 0xF (rset (tapReg 0x6C) 0xFFFFFF (rset (tapReg 0x60) 0xE (rset 0x20 3
    { d with tap := { d.tap with modeCmd := some (cmdOp 1 0 0 5 0 0 0 0, 3) }, crown := { d.crown with tx := [(0, some (⟨0, 0, 1, 0, List.replicate 64 0, 64, false, false, false, 0, 0, 0⟩ : TxRun))] } }))))).dev.crown.paused.get
    none (0 : Fin 36).val = none) ∧ (((List.range 38).all (fun n => n = (0 : Fin 36).val || (start fun d => rset (tapReg 0x64)
    0xFFFFFFFE (rset (tapReg 0x68) 0xF (rset (tapReg 0x6C) 0xFFFFFF (rset (tapReg 0x60) 0xE (rset 0x20 3
    { d with tap := { d.tap with modeCmd := some (cmdOp 1 0 0 5 0 0 0 0, 3) }, crown := { d.crown with tx := [(0, some (⟨0, 0, 1, 0, List.replicate 64 0, 64, false, false, false, 0, 0, 0⟩ : TxRun))] } }))))).dev.portPowered
    n || (((start fun d => rset (tapReg 0x64) 0xFFFFFFFE (rset (tapReg 0x68) 0xF (rset (tapReg 0x6C) 0xFFFFFF (rset (tapReg 0x60)
    0xE (rset 0x20 3
    { d with tap := { d.tap with modeCmd := some (cmdOp 1 0 0 5 0 0 0 0, 3) }, crown := { d.crown with tx := [(0, some (⟨0, 0, 1, 0, List.replicate 64 0, 64, false, false, false, 0, 0, 0⟩ : TxRun))] } }))))).dev.crown.tx.get
    none n).isNone && ((start fun d => rset (tapReg 0x64) 0xFFFFFFFE (rset (tapReg 0x68) 0xF (rset (tapReg 0x6C) 0xFFFFFF (rset
    (tapReg 0x60) 0xE (rset 0x20 3
    { d with tap := { d.tap with modeCmd := some (cmdOp 1 0 0 5 0 0 0 0, 3) }, crown := { d.crown with tx := [(0, some (⟨0, 0, 1, 0, List.replicate 64 0, 64, false, false, false, 0, 0, 0⟩ : TxRun))] } }))))).dev.crown.paused.get
    none n).isNone))) = true) ∧ (((List.range 4).all (fun j => (start fun d => rset (tapReg 0x64) 0xFFFFFFFE (rset (tapReg 0x68) 0xF
    (rset (tapReg 0x6C) 0xFFFFFF (rset (tapReg 0x60) 0xE (rset 0x20 3
    { d with tap := { d.tap with modeCmd := some (cmdOp 1 0 0 5 0 0 0 0, 3) }, crown := { d.crown with tx := [(0, some (⟨0, 0, 1, 0, List.replicate 64 0, 64, false, false, false, 0, 0, 0⟩ : TxRun))] } }))))).dev.grovePowered
    j || !(start fun d => rset (tapReg 0x64) 0xFFFFFFFE (rset (tapReg 0x68) 0xF (rset (tapReg 0x6C) 0xFFFFFF (rset (tapReg 0x60) 0xE
    (rset 0x20 3
    { d with tap := { d.tap with modeCmd := some (cmdOp 1 0 0 5 0 0 0 0, 3) }, crown := { d.crown with tx := [(0, some (⟨0, 0, 1, 0, List.replicate 64 0, 64, false, false, false, 0, 0, 0⟩ : TxRun))] } }))))).dev.groveBusy
    j)) = true) ∧ (((List.range 24).all (fun n => (start fun d => rset (tapReg 0x64) 0xFFFFFFFE (rset (tapReg 0x68) 0xF (rset
    (tapReg 0x6C) 0xFFFFFF (rset (tapReg 0x60) 0xE (rset 0x20 3
    { d with tap := { d.tap with modeCmd := some (cmdOp 1 0 0 5 0 0 0 0, 3) }, crown := { d.crown with tx := [(0, some (⟨0, 0, 1, 0, List.replicate 64 0, 64, false, false, false, 0, 0, 0⟩ : TxRun))] } }))))).dev.canPowered
    n || ((start fun d => rset (tapReg 0x64) 0xFFFFFFFE (rset (tapReg 0x68) 0xF (rset (tapReg 0x6C) 0xFFFFFF (rset (tapReg 0x60) 0xE
    (rset 0x20 3
    { d with tap := { d.tap with modeCmd := some (cmdOp 1 0 0 5 0 0 0 0, 3) }, crown := { d.crown with tx := [(0, some (⟨0, 0, 1, 0, List.replicate 64 0, 64, false, false, false, 0, 0, 0⟩ : TxRun))] } }))))).dev.roots.ending.get
    none n).isNone)) = true) := by decide
theorem witness_ModesChangeByCommand_7 : ((start id).dev.runs = true) ∧ ((start id).dev.tap.copying.contains (1 : Fin 4).val =
    false) := by decide
theorem witness_WakeSourcesLatchAndWake_1 : ((rw 2 1).dev.rb (updReg 4) 30 = false) ∧ ((rw 2 1).dev.mayWake (2 : Fin 8).val = true)
    ∧ ((rw 2 1).dev.tap.asleep = true) ∧ ((rw 2 1).dev.tap.powerLow = true) ∧ ((rw 2 1).dev.mode ≠ 0) ∧ ((rw 2 1).dev.offLong =
    true) ∧ (true = !(rw 2 1).dev.rb (tapReg (0x100 + 0x20 * (2 : Fin 8).val)) 0) ∧ ((rw 2 1).dev.rf (tapReg (0x100 + 0x20 * (2 :
    Fin 8).val)) 31 24 ≤ 255) := by decide
theorem witness_WakeSourcesLatchAndWake_2 : ((rw 10 2).dev.rb (updReg 4) 30 = false) ∧ ((rw 10 2).dev.mayWake (8 + (2 : Fin 8).val)
    = true) ∧ ((rw 10 2).dev.tap.asleep = true) ∧ ((rw 10 2).dev.tap.powerLow = true) ∧ ((rw 10 2).dev.mode = 2) ∧ ((rw 10
    2).dev.offLong = true) := by decide
theorem witness_WakeSourcesLatchAndWake_3 : ((rw 16 1).dev.rb (updReg 4) 30 = false) ∧ ((rw 16 1).dev.mayWake 16 = true) ∧ ((rw 16
    1).dev.tap.asleep = true) ∧ ((rw 16 1).dev.tap.powerLow = true) ∧ ((rw 16 1).dev.mode ≠ 0) ∧ ((rw 16 1).dev.offLong = true) :=
    by decide
theorem witness_WakeSourcesLatchAndWake_4 : ((rw 17 1).dev.rb (updReg 4) 30 = false) ∧ ((rw 17 1).dev.mayWake 17 = true) ∧ ((rw 17
    1).dev.tap.asleep = true) ∧ ((rw 17 1).dev.tap.powerLow = true) ∧ ((rw 17 1).dev.mode ≠ 0) ∧ ((rw 17 1).dev.offLong = true) ∧
    ((rw 17 1).dev.reg (tapReg 0x38) ≠ 0) ∧ ((rw 17 1).dev.tap.commitCoarse + ((rw 17 1).dev.reg (tapReg 0x38)).toNat ≤ (rw 17
    1).dev.cam.coarse) := by decide
theorem witness_WakeSourcesLatchAndWake_5 : (true = !(start (rset (tapReg 0x30) 4)).dev.rb (tapReg (0x100 + 0x20 * (2 : Fin 8).val))
    0) ∧ ((start (rset (tapReg 0x30) 4)).dev.rf (tapReg (0x100 + 0x20 * (2 : Fin 8).val)) 31 24 ≤ 255) ∧ ((start (rset (tapReg 0x30)
    4)).dev.rb (updReg 4) 30 = false) ∧ ((start (rset (tapReg 0x30) 4)).dev.mayWake (2 : Fin 8).val = true) ∧ ((start (rset (tapReg
    0x30) 4)).dev.tap.asleep = false) ∧ ((start (rset (tapReg 0x30) 4)).dev.bstate = 0) := by decide
theorem witness_WakeSourcesLatchAndWake_6 : (true = !(start fun d => rset (tapReg 0) 0x20000 (rset (tapReg 0x30) 4 d)).dev.rb
    (tapReg (0x100 + 0x20 * (2 : Fin 8).val)) 0) ∧ ((start fun d => rset (tapReg 0) 0x20000 (rset (tapReg 0x30) 4 d)).dev.rf (tapReg
    (0x100 + 0x20 * (2 : Fin 8).val)) 31 24 ≤ 255) ∧ ((start fun d => rset (tapReg 0) 0x20000 (rset (tapReg 0x30) 4 d)).dev.rb
    (updReg 4) 30 = false) ∧ ((start fun d => rset (tapReg 0) 0x20000 (rset (tapReg 0x30) 4 d)).dev.mayWake (2 : Fin 8).val = true)
    ∧ ((start fun d => rset (tapReg 0) 0x20000 (rset (tapReg 0x30) 4 d)).dev.tap.asleep = false) ∧ ((start fun d => rset (tapReg 0)
    0x20000 (rset (tapReg 0x30) 4 d)).dev.bstate = 2) := by decide
theorem witness_WakeSourcesLatchAndWake_7 : ((start fun d => atRaw (2 ^ 50) (rset (tapReg 0x34) 4
    { d with tap := { d.tap with asleep := true, powerLow := true } })).dev.rb (updReg 4) 30 = false) ∧ ((start fun d => atRaw (2 ^
    50) (rset (tapReg 0x34) 4 { d with tap := { d.tap with asleep := true, powerLow := true } })).dev.tap.asleep = true) ∧ ((start
    fun d => atRaw (2 ^ 50) (rset (tapReg 0x34) 4
    { d with tap := { d.tap with asleep := true, powerLow := true } })).dev.tap.powerLow = true) ∧ ((start fun d => atRaw (2 ^ 50)
    (rset (tapReg 0x34) 4 { d with tap := { d.tap with asleep := true, powerLow := true } })).dev.offLong = true) ∧ ((start fun d =>
    atRaw (2 ^ 50) (rset (tapReg 0x34) 4 { d with tap := { d.tap with asleep := true, powerLow := true } })).dev.reg (tapReg 0x34) ≠
    0) := by decide
theorem witness_WakeSourcesLatchAndWake_8 : (true = !(start fun d => rset 0x20 1 (rset (tapReg 0x30) 4 (rset (tapReg 0xC) 100
    { d with tap := { d.tap with asleep := true, powerLow := true } }))).dev.rb (tapReg (0x100 + 0x20 * (2 : Fin 8).val)) 0) ∧
    ((start fun d => rset 0x20 1 (rset (tapReg 0x30) 4 (rset (tapReg 0xC) 100
    { d with tap := { d.tap with asleep := true, powerLow := true } }))).dev.rf (tapReg (0x100 + 0x20 * (2 : Fin 8).val)) 31 24 ≤
    255) ∧ ((start fun d => rset 0x20 1 (rset (tapReg 0x30) 4 (rset (tapReg 0xC) 100
    { d with tap := { d.tap with asleep := true, powerLow := true } }))).dev.rb (updReg 4) 30 = false) ∧ ((start fun d => rset 0x20
    1 (rset (tapReg 0x30) 4 (rset (tapReg 0xC) 100 { d with tap := { d.tap with asleep := true, powerLow := true } }))).dev.mayWake
    (2 : Fin 8).val = true) ∧ ((start fun d => rset 0x20 1 (rset (tapReg 0x30) 4 (rset (tapReg 0xC) 100
    { d with tap := { d.tap with asleep := true, powerLow := true } }))).dev.mode ≠ 0) ∧ ((start fun d => rset 0x20 1 (rset (tapReg
    0x30) 4 (rset (tapReg 0xC) 100 { d with tap := { d.tap with asleep := true, powerLow := true } }))).dev.tap.asleep = true) ∧
    ((start fun d => rset 0x20 1 (rset (tapReg 0x30) 4 (rset (tapReg 0xC) 100
    { d with tap := { d.tap with asleep := true, powerLow := true } }))).dev.tap.powerLow = true) ∧ ((start fun d => rset 0x20 1
    (rset (tapReg 0x30) 4 (rset (tapReg 0xC) 100 { d with tap := { d.tap with asleep := true, powerLow := true } }))).dev.offLong =
    false) := by decide
theorem witness_WakeSourcesLatchAndWake_9 : (true = !(start fun d => rset (tapReg 0) 0x10000 (rset (tapReg 0x30) 4 d)).dev.rb
    (tapReg (0x100 + 0x20 * (2 : Fin 8).val)) 0) ∧ ((start fun d => rset (tapReg 0) 0x10000 (rset (tapReg 0x30) 4 d)).dev.rf (tapReg
    (0x100 + 0x20 * (2 : Fin 8).val)) 31 24 ≤ 255) ∧ ((start fun d => rset (tapReg 0) 0x10000 (rset (tapReg 0x30) 4 d)).dev.rb
    (updReg 4) 30 = false) ∧ ((start fun d => rset (tapReg 0) 0x10000 (rset (tapReg 0x30) 4 d)).dev.mayWake (2 : Fin 8).val = true)
    ∧ ((start fun d => rset (tapReg 0) 0x10000 (rset (tapReg 0x30) 4 d)).dev.tap.asleep = false) ∧ ((start fun d => rset (tapReg 0)
    0x10000 (rset (tapReg 0x30) 4 d)).dev.bstate = 1) ∧ ((start fun d => rset (tapReg 0) 0x10000 (rset (tapReg 0x30) 4
    d)).dev.votesHeld = (start fun d => rset (tapReg 0) 0x10000 (rset (tapReg 0x30) 4 d)).dev.votes) ∧ (¬ ((start fun d => rset
    (tapReg 0) 0x10000 (rset (tapReg 0x30) 4 d)).dev.rb (tapReg 4) 31 = true ∧ ((start fun d => rset (tapReg 0) 0x10000 (rset
    (tapReg 0x30) 4 d)).dev.mode = 3 ∨ (start fun d => rset (tapReg 0) 0x10000 (rset (tapReg 0x30) 4 d)).dev.mode = 4) ∧ (start fun
    d => rset (tapReg 0) 0x10000 (rset (tapReg 0x30) 4 d)).dev.votes = 0)) := by decide
theorem witness_WakeSourcesLatchAndWake_10 : (true = !(start fun d => rset (tapReg 0) 0x10000 (rset (tapReg 4) 0x80000001 (rset
    (tapReg 0x30) 4 d))).dev.rb (tapReg (0x100 + 0x20 * (2 : Fin 8).val)) 0) ∧ ((start fun d => rset (tapReg 0) 0x10000 (rset
    (tapReg 4) 0x80000001 (rset (tapReg 0x30) 4 d))).dev.rf (tapReg (0x100 + 0x20 * (2 : Fin 8).val)) 31 24 ≤ 255) ∧ ((start fun d
    => rset (tapReg 0) 0x10000 (rset (tapReg 4) 0x80000001 (rset (tapReg 0x30) 4 d))).dev.rb (updReg 4) 30 = false) ∧ ((start fun d
    => rset (tapReg 0) 0x10000 (rset (tapReg 4) 0x80000001 (rset (tapReg 0x30) 4 d))).dev.mayWake (2 : Fin 8).val = true) ∧ ((start
    fun d => rset (tapReg 0) 0x10000 (rset (tapReg 4) 0x80000001 (rset (tapReg 0x30) 4 d))).dev.tap.asleep = false) ∧ ((start fun d
    => rset (tapReg 0) 0x10000 (rset (tapReg 4) 0x80000001 (rset (tapReg 0x30) 4 d))).dev.bstate = 1) ∧ ((start fun d => rset
    (tapReg 0) 0x10000 (rset (tapReg 4) 0x80000001 (rset (tapReg 0x30) 4 d))).dev.votesHeld = 0) ∧ ((start fun d => rset (tapReg 0)
    0x10000 (rset (tapReg 4) 0x80000001 (rset (tapReg 0x30) 4 d))).dev.votes = 0) ∧ ((start fun d => rset (tapReg 0) 0x10000 (rset
    (tapReg 4) 0x80000001 (rset (tapReg 0x30) 4 d))).dev.rb (tapReg 4) 31 = true) ∧ ((start fun d => rset (tapReg 0) 0x10000 (rset
    (tapReg 4) 0x80000001 (rset (tapReg 0x30) 4 d))).dev.mode = 3 ∨ (start fun d => rset (tapReg 0) 0x10000 (rset (tapReg 4)
    0x80000001 (rset (tapReg 0x30) 4 d))).dev.mode = 4) := by decide
theorem witness_WakeSourcesLatchAndWake_11 : ((start (rset (tapReg 0x30) 4)).dev.rb (updReg 4) 30 = false) ∧ (false = (start (rset
    (tapReg 0x30) 4)).dev.rb (tapReg (0x100 + 0x20 * (2 : Fin 8).val)) 0 ∨ 255 < (start (rset (tapReg 0x30) 4)).dev.rf (tapReg
    (0x100 + 0x20 * (2 : Fin 8).val)) 31 24) := by decide
theorem witness_WakeSourcesLatchAndWake_12 : (true = !(start (rset (tapReg 0x30) 0)).dev.rb (tapReg (0x100 + 0x20 * (2 : Fin
    8).val)) 0) ∧ ((start (rset (tapReg 0x30) 0)).dev.rf (tapReg (0x100 + 0x20 * (2 : Fin 8).val)) 31 24 ≤ 255) ∧ ((start (rset
    (tapReg 0x30) 0)).dev.rb (updReg 4) 30 = false) ∧ ((start (rset (tapReg 0x30) 0)).dev.mayWake (2 : Fin 8).val = false) := by
    decide
theorem witness_WakeSourcesLatchAndWake_13 : ((rw 10 1).dev.rb (updReg 4) 30 = false) ∧ ((rw 10 1).dev.tap.asleep = true) ∧ ((rw 10
    1).dev.mode = 1) := by decide
theorem witness_WakeSourcesLatchAndWake_14 : (State.reset.dev.rb (updReg 4) 30 = false) ∧ (State.reset.dev.reg (tapReg 0x38) = 0 ∨
    State.reset.dev.cam.coarse < State.reset.dev.tap.commitCoarse + (State.reset.dev.reg (tapReg 0x38)).toNat) := by decide
theorem witness_WakeSourcesLatchAndWake_15 : (State.reset.dev.rb (updReg 4) 30 = false) ∧ (State.reset.dev.reg (tapReg 0x34) = 0) :=
    by decide
theorem witness_WakeSourcesLatchAndWake_16 : ((start fun d => { d with tap := { d.tap with validating := [(2, 0)] } }).dev.runs =
    true) ∧ ((start fun d => { d with tap := { d.tap with validating := [(2, 0)] } }).dev.tap.validating.find? (fun e => e.1 = (2 :
    Fin 16).val) = some ((2 : Fin 16).val, 0)) ∧ (0 ≤ (start fun d =>
    { d with tap := { d.tap with validating := [(2, 0)] } }).dev.now) ∧ ((start fun d =>
    { d with tap := { d.tap with validating := [(2, 0)] } }).dev.rf (tapReg 0x40) 3 0 = 0) := by decide
theorem witness_WakeSourcesLatchAndWake_17 : ((start fun d => rset (tapReg 0x40) 1
    { d with tap := { d.tap with validating := [(2, 0)] } }).dev.runs = true) ∧ ((start fun d => rset (tapReg 0x40) 1
    { d with tap := { d.tap with validating := [(2, 0)] } }).dev.tap.validating.find? (fun e => e.1 = (2 : Fin 16).val) = some ((2 :
    Fin 16).val, 0)) ∧ (0 ≤ (start fun d => rset (tapReg 0x40) 1 { d with tap := { d.tap with validating := [(2, 0)] } }).dev.now) ∧
    ((start fun d => rset (tapReg 0x40) 1 { d with tap := { d.tap with validating := [(2, 0)] } }).dev.rf (tapReg 0x40) 3 0 = 1) :=
    by decide
theorem witness_WakeSourcesLatchAndWake_18 : ((start (rset (tapReg 0x44) 4)).opens coreA (tapReg 0x44) = true) ∧ ((start (rset
    (tapReg 0x44) 4)).clocked (tapReg 0x44) = true) := by decide
theorem witness_WakeSourcesLatchAndWake_19 : ((start (rset (tapReg 0x208) 4)).opens coreA (tapReg 0x48) = true) ∧ ((start (rset
    (tapReg 0x208) 4)).clocked (tapReg 0x48) = true) := by decide
theorem witness_WakeSourcesLatchAndWake_20 : ((start id).dev.runs = true) ∧ (((start id).dev.tap.validating.find? (fun e => e.1 = (2
    : Fin 16).val)).all (fun e => decide ((start id).dev.now < e.2)) = true) := by decide
theorem witness_BallotRunsTowardSleep_1 : ((start fun d => rset (tapReg 0) 0x10000 (rset (tapReg 4) 0x80000001 (rset (srcReg 1 0)
    0x9C000000 d))).opens coreA (srcReg (1 : Fin 64).val 0) = true) ∧ ((start fun d => rset (tapReg 0) 0x10000 (rset (tapReg 4)
    0x80000001 (rset (srcReg 1 0) 0x9C000000 d))).dev.rf (srcReg (1 : Fin 64).val 0) 30 28 = 1) ∧ (3 ≤ coreA.origin) ∧ (coreA.origin
    ≤ 6) ∧ ((start fun d => rset (tapReg 0) 0x10000 (rset (tapReg 4) 0x80000001 (rset (srcReg 1 0) 0x9C000000 d))).dev.rb (srcReg (1
    : Fin 64).val 0) 31 = true) ∧ ((start fun d => rset (tapReg 0) 0x10000 (rset (tapReg 4) 0x80000001 (rset (srcReg 1 0) 0x9C000000
    d))).dev.bstate = 1) ∧ ((start fun d => rset (tapReg 0) 0x10000 (rset (tapReg 4) 0x80000001 (rset (srcReg 1 0) 0x9C000000
    d))).dev.rb (tapReg 4) 31 = true) ∧ (((start fun d => rset (tapReg 0) 0x10000 (rset (tapReg 4) 0x80000001 (rset (srcReg 1 0)
    0x9C000000 d))).dev.mode = 3 ∨ (start fun d => rset (tapReg 0) 0x10000 (rset (tapReg 4) 0x80000001 (rset (srcReg 1 0) 0x9C000000
    d))).dev.mode = 4)) ∧ ((start fun d => rset (tapReg 0) 0x10000 (rset (tapReg 4) 0x80000001 (rset (srcReg 1 0) 0x9C000000
    d))).dev.votesHeld = 0) ∧ ((start fun d => rset (tapReg 0) 0x10000 (rset (tapReg 4) 0x80000001 (rset (srcReg 1 0) 0x9C000000
    d))).dev.rb (srcReg (1 : Fin 64).val 0) 27 = true) ∧ ((start fun d => rset (tapReg 0) 0x10000 (rset (tapReg 4) 0x80000001 (rset
    (srcReg 1 0) 0x9C000000 d))).dev.votes = 0) := by decide
theorem witness_BallotRunsTowardSleep_2 : ((start fun d => rset (tapReg 0x10) 2 (rset (tapReg 4) 0x80000001 (rset (srcReg 1 0)
    0x90000000 d))).opens coreA (srcReg (1 : Fin 64).val 0) = true) ∧ ((start fun d => rset (tapReg 0x10) 2 (rset (tapReg 4)
    0x80000001 (rset (srcReg 1 0) 0x90000000 d))).dev.rf (srcReg (1 : Fin 64).val 0) 30 28 = 1) ∧ (3 ≤ coreA.origin) ∧ (coreA.origin
    ≤ 6) ∧ ((start fun d => rset (tapReg 0x10) 2 (rset (tapReg 4) 0x80000001 (rset (srcReg 1 0) 0x90000000 d))).dev.rb (srcReg (1 :
    Fin 64).val 0) 31 = true) ∧ ((start fun d => rset (tapReg 0x10) 2 (rset (tapReg 4) 0x80000001 (rset (srcReg 1 0) 0x90000000
    d))).dev.bstate = 0) ∧ ((start fun d => rset (tapReg 0x10) 2 (rset (tapReg 4) 0x80000001 (rset (srcReg 1 0) 0x90000000
    d))).dev.rb (tapReg 4) 31 = true) ∧ (((start fun d => rset (tapReg 0x10) 2 (rset (tapReg 4) 0x80000001 (rset (srcReg 1 0)
    0x90000000 d))).dev.mode = 3 ∨ (start fun d => rset (tapReg 0x10) 2 (rset (tapReg 4) 0x80000001 (rset (srcReg 1 0) 0x90000000
    d))).dev.mode = 4)) ∧ ((start fun d => rset (tapReg 0x10) 2 (rset (tapReg 4) 0x80000001 (rset (srcReg 1 0) 0x90000000
    d))).dev.votesHeld = 2 ^ (1 : Fin 64).val) ∧ ((start fun d => rset (tapReg 0x10) 2 (rset (tapReg 4) 0x80000001 (rset (srcReg 1
    0) 0x90000000 d))).dev.rb (srcReg (1 : Fin 64).val 0) 27 = false) ∧ ((start fun d => rset (tapReg 0x10) 2 (rset (tapReg 4)
    0x80000001 (rset (srcReg 1 0) 0x90000000 d))).dev.votes = 2 ^ (1 : Fin 64).val) := by decide
theorem witness_BallotRunsTowardSleep_3 : ((start fun d => { d with tap := { d.tap with nm := [(1, some 0)] } }).dev.runs = true) ∧
    ((start fun d => { d with tap := { d.tap with nm := [(1, some 0)] } }).dev.tap.nm.get none (1 : Fin 64).val = some 0) ∧ (0 +
    (start fun d => { d with tap := { d.tap with nm := [(1, some 0)] } }).dev.rf (srcReg (1 : Fin 64).val 0) 15 0 * msRaw ≤ (start
    fun d => { d with tap := { d.tap with nm := [(1, some 0)] } }).dev.now) := by decide
theorem witness_BallotRunsTowardSleep_4 : ((start fun d => rset (tapReg 0) 0x10000 (atRaw (2 ^ 60)
    { d with tap := { d.tap with clean := true } })).dev.runs = true) ∧ ((start fun d => rset (tapReg 0) 0x10000 (atRaw (2 ^ 60)
    { d with tap := { d.tap with clean := true } })).dev.bstate = 1) ∧ ((start fun d => rset (tapReg 0) 0x10000 (atRaw (2 ^ 60)
    { d with tap := { d.tap with clean := true } })).dev.votesHeld = 0) ∧ ((start fun d => rset (tapReg 0) 0x10000 (atRaw (2 ^ 60)
    { d with tap := { d.tap with clean := true } })).dev.needsClean = true → (start fun d => rset (tapReg 0) 0x10000 (atRaw (2 ^ 60)
    { d with tap := { d.tap with clean := true } })).dev.tap.clean = true) ∧ ((start fun d => rset (tapReg 0) 0x10000 (atRaw (2 ^
    60) { d with tap := { d.tap with clean := true } })).dev.tap.since + (start fun d => rset (tapReg 0) 0x10000 (atRaw (2 ^ 60)
    { d with tap := { d.tap with clean := true } })).dev.rf (tapReg 4) 15 0 * msRaw ≤ (start fun d => rset (tapReg 0) 0x10000 (atRaw
    (2 ^ 60) { d with tap := { d.tap with clean := true } })).dev.now) := by decide
theorem witness_BallotRunsTowardSleep_5 : ((start (rset (tapReg 0) 0x20000)).opens coreA (tapReg 8) = true) ∧ ((start (rset (tapReg
    0) 0x20000)).dev.bstate = 2) ∧ ((start (rset (tapReg 0) 0x20000)).clocked (tapReg 8) = true) := by decide
theorem witness_BallotRunsTowardSleep_6 : ((start fun d => atRaw (2 ^ 50) (rset (tapReg 0) 0x20000 d)).dev.runs = true) ∧ ((start
    fun d => atRaw (2 ^ 50) (rset (tapReg 0) 0x20000 d)).dev.bstate = 2) ∧ ((start fun d => atRaw (2 ^ 50) (rset (tapReg 0) 0x20000
    d)).dev.tap.since + 250 * msRaw ≤ (start fun d => atRaw (2 ^ 50) (rset (tapReg 0) 0x20000 d)).dev.now) := by decide
theorem witness_BallotRunsTowardSleep_7 : ((start fun d => rset (tapReg 0) 0x30000 (rset (tapReg 4) 0x10000 d)).dev.runs = true) ∧
    ((start fun d => rset (tapReg 0) 0x30000 (rset (tapReg 4) 0x10000 d)).dev.bstate = 3) ∧ ((start fun d => rset (tapReg 0) 0x30000
    (rset (tapReg 4) 0x10000 d)).dev.mode = 3 ∨ (start fun d => rset (tapReg 0) 0x30000 (rset (tapReg 4) 0x10000 d)).dev.mode = 4) ∧
    ((start fun d => rset (tapReg 0) 0x30000 (rset (tapReg 4) 0x10000 d)).dev.ballotTarget = 1) := by decide
theorem witness_BallotRunsTowardSleep_8 : ((start fun d => rset (tapReg 0) 0x30000 (rset (tapReg 4) 0x20000 d)).dev.runs = true) ∧
    ((start fun d => rset (tapReg 0) 0x30000 (rset (tapReg 4) 0x20000 d)).dev.bstate = 3) ∧ ((start fun d => rset (tapReg 0) 0x30000
    (rset (tapReg 4) 0x20000 d)).dev.mode = 3 ∨ (start fun d => rset (tapReg 0) 0x30000 (rset (tapReg 4) 0x20000 d)).dev.mode = 4) ∧
    ((start fun d => rset (tapReg 0) 0x30000 (rset (tapReg 4) 0x20000 d)).dev.ballotTarget = 2) := by decide
theorem witness_BallotRunsTowardSleep_9 : ((start fun d => rset (tapReg 0) 0x10000 (rset (tapReg 4) 0x20000 (rset (barkReg 0)
    0x80000000 { d with bark := { d.bark with cache := [(3, [⟨24, 1, true⟩])] } }))).dev.runs = true) ∧ ((start fun d => rset
    (tapReg 0) 0x10000 (rset (tapReg 4) 0x20000 (rset (barkReg 0) 0x80000000
    { d with bark := { d.bark with cache := [(3, [⟨24, 1, true⟩])] } }))).dev.bstate = 1) ∧ ((start fun d => rset (tapReg 0) 0x10000
    (rset (tapReg 4) 0x20000 (rset (barkReg 0) 0x80000000
    { d with bark := { d.bark with cache := [(3, [⟨24, 1, true⟩])] } }))).dev.needsClean = true) := by decide
theorem witness_BallotRunsTowardSleep_10 : ((start fun d => rset (tapReg 0x84) 0x40000000 (xmem d)).opens coreA (tapReg 0x80) =
    true) ∧ ((start fun d => rset (tapReg 0x84) 0x40000000 (xmem d)).dev.rb (tapReg 0x80) 31 = false) ∧ ((start fun d => rset
    (tapReg 0x84) 0x40000000 (xmem d)).clocked (tapReg 0x80) = true) ∧ ((start fun d => rset (tapReg 0x84) 0x40000000 (xmem
    d)).dev.xmemReady = true) ∧ ((start fun d => rset (tapReg 0x84) 0x40000000 (xmem d)).dev.saveRegion.1 + (start fun d => rset
    (tapReg 0x84) 0x40000000 (xmem d)).dev.saveRegion.2 ≤ (start fun d => rset (tapReg 0x84) 0x40000000 (xmem d)).dev.xmemSize) ∧
    (overlaps (start fun d => rset (tapReg 0x84) 0x40000000 (xmem d)).dev.saveRegion (start fun d => rset (tapReg 0x84) 0x40000000
    (xmem d)).dev.ovfRegion = false) ∧ (overlaps (start fun d => rset (tapReg 0x84) 0x40000000 (xmem d)).dev.saveRegion (start fun d
    => rset (tapReg 0x84) 0x40000000 (xmem d)).dev.ctRegion = false) := by decide
theorem witness_BallotRunsTowardSleep_11 : ((start fun d => atRaw (2 ^ 60) (rset (tapReg 0x28) 1
    { d with tap := { d.tap with sole := some (3, 0) } })).dev.runs = true) ∧ ((start fun d => atRaw (2 ^ 60) (rset (tapReg 0x28) 1
    { d with tap := { d.tap with sole := some (3, 0) } })).dev.tap.sole = some (3, 0)) ∧ ((start fun d => atRaw (2 ^ 60) (rset
    (tapReg 0x28) 1 { d with tap := { d.tap with sole := some (3, 0) } })).dev.tap.soleRaised = false) ∧ ((start fun d => atRaw (2 ^
    60) (rset (tapReg 0x28) 1 { d with tap := { d.tap with sole := some (3, 0) } })).dev.rf (tapReg 0x28) 15 0 ≠ 0) ∧ (0 + (start
    fun d => atRaw (2 ^ 60) (rset (tapReg 0x28) 1 { d with tap := { d.tap with sole := some (3, 0) } })).dev.rf (tapReg 0x28) 15 0 *
    (1000 * msRaw) ≤ (start fun d => atRaw (2 ^ 60) (rset (tapReg 0x28) 1
    { d with tap := { d.tap with sole := some (3, 0) } })).dev.now) := by decide
theorem witness_BallotRunsTowardSleep_12 : ((start (rset (srcReg 1 0) 0x9C000000)).opens cpu (srcReg (1 : Fin 64).val 0) = true) ∧
    ((start (rset (srcReg 1 0) 0x9C000000)).dev.rf (srcReg (1 : Fin 64).val 0) 30 28 = 1) ∧ (cpu.origin ≤ 2) := by decide
theorem witness_BallotRunsTowardSleep_13 : ((start id).dev.runs = true) ∧ ((start id).dev.tap.nm.get none (1 : Fin 64).val = none)
    := by decide
theorem witness_BallotRunsTowardSleep_14 : ((start id).dev.runs = true) ∧ ((start id).dev.bstate ≠ 1 ∨ (start id).dev.votesHeld ≠ 0
    ∨ (start id).dev.needsClean = true ∧ (start id).dev.tap.clean = false ∨ (start id).dev.now < (start id).dev.tap.since + (start
    id).dev.rf (tapReg 4) 15 0 * msRaw) := by decide
theorem witness_BallotRunsTowardSleep_15 : ((start id).opens coreA (tapReg 8) = true) ∧ ((start id).dev.bstate ≠ 2) ∧ ((start
    id).clocked (tapReg 8) = true) := by decide
theorem witness_BallotRunsTowardSleep_16 : ((start id).dev.runs = true) ∧ ((start id).dev.bstate ≠ 2 ∨ (start id).dev.now < (start
    id).dev.tap.since + 250 * msRaw) := by decide
theorem witness_BallotRunsTowardSleep_17 : ((start id).dev.runs = true) ∧ ((start id).dev.bstate ≠ 3 ∨ (start id).dev.mode ≠ 3 ∧
    (start id).dev.mode ≠ 4) := by decide
theorem witness_BallotRunsTowardSleep_18 : ((start id).dev.runs = true) ∧ ((start id).dev.bstate ≠ 1 ∨ (start id).dev.needsClean =
    false) := by decide
theorem witness_BallotRunsTowardSleep_19 : ((start id).opens coreA (tapReg 0x80) = true) ∧ ((start id).dev.rb (tapReg 0x80) 31 =
    false) ∧ ((start id).dev.xmemReady = false ∨ (start id).dev.xmemSize < (start id).dev.saveRegion.1 + (start id).dev.saveRegion.2
    ∨ overlaps (start id).dev.saveRegion (start id).dev.ovfRegion = true ∨ overlaps (start id).dev.saveRegion (start
    id).dev.ctRegion = true) := by decide
theorem witness_BallotRunsTowardSleep_20 : ((start (rset (tapReg 0x80) 0x80000000)).opens coreA (tapReg 0x80) = true) ∧ ((start
    (rset (tapReg 0x80) 0x80000000)).dev.rb (tapReg 0x80) 31 = true) ∧ ((start (rset (tapReg 0x80) 0x80000000)).clocked (tapReg
    0x80) = true) := by decide
theorem witness_BallotRunsTowardSleep_21 : ((start id).dev.runs = true) ∧ ((start id).dev.tap.sole = none ∨ (start id).dev.rf
    (tapReg 0x28) 15 0 = 0 ∨ (start id).dev.tap.soleRaised = true) := by decide
theorem witness_ColdResetsAndLosses_1 : ((start fun d => learned 0 (station 3 0 0 false 0 0) (rset (burlReg 0x4000) 2 (rset 0x220004
    5 (ring 3 d)))).dev.tap.asleep = false) ∧ ((⟨true, true, true, true, (0, 0)⟩ : BootResult).pufOk = true) ∧ ((⟨true, true, true,
    true, (0, 0)⟩ : BootResult).entropyOk = true) ∧ ((start fun d => learned 0 (station 3 0 0 false 0 0) (rset (burlReg 0x4000) 2
    (rset 0x220004 5 (ring 3 d)))).dev.burl.fuseTamper = false) ∧ ((start fun d => learned 0 (station 3 0 0 false 0 0) (rset
    (burlReg 0x4000) 2 (rset 0x220004 5 (ring 3 d)))).dev.burl.tamperLatch = 0) ∧ (1 ≤ (start fun d => learned 0 (station 3 0 0
    false 0 0) (rset (burlReg 0x4000) 2 (rset 0x220004 5 (ring 3 d)))).dev.burl.fuseLife) ∧ ((start fun d => learned 0 (station 3 0
    0 false 0 0) (rset (burlReg 0x4000) 2 (rset 0x220004 5 (ring 3 d)))).dev.burl.fuseLife ≤ 3) ∧ ((start fun d => learned 0
    (station 3 0 0 false 0 0) (rset (burlReg 0x4000) 2 (rset 0x220004 5 (ring 3 d)))).dev.burl.fuseRoots = true) ∧ ((((start fun d
    => learned 0 (station 3 0 0 false 0 0) (rset (burlReg 0x4000) 2 (rset 0x220004 5 (ring 3 d)))).dev.reg (rasReg 0x10)).setWidth
    16 : BitVec 16).toInt ≤ 8 * ((fld (regReset (start fun d => learned 0 (station 3 0 0 false 0 0) (rset (burlReg 0x4000) 2 (rset
    0x220004 5 (ring 3 d)))).dev.variant (rasReg 0x14)) 7 0 : Int) - 10)) := by decide
theorem witness_ColdResetsAndLosses_2 : ((start fun d => learned 0 (station 3 0 0 false 0 0) (rset (burlReg 0x4000) 2 (rset 0x220004
    5 (ring 3 d)))).dev.tap.asleep = false) ∧ ((⟨true, true, true, true, (0, 0)⟩ : BootResult).pufOk = true) ∧ ((⟨true, true, true,
    true, (0, 0)⟩ : BootResult).entropyOk = true) ∧ ((start fun d => learned 0 (station 3 0 0 false 0 0) (rset (burlReg 0x4000) 2
    (rset 0x220004 5 (ring 3 d)))).dev.burl.fuseTamper = false) ∧ ((start fun d => learned 0 (station 3 0 0 false 0 0) (rset
    (burlReg 0x4000) 2 (rset 0x220004 5 (ring 3 d)))).dev.burl.tamperLatch = 0) ∧ (1 ≤ (start fun d => learned 0 (station 3 0 0
    false 0 0) (rset (burlReg 0x4000) 2 (rset 0x220004 5 (ring 3 d)))).dev.burl.fuseLife) ∧ ((start fun d => learned 0 (station 3 0
    0 false 0 0) (rset (burlReg 0x4000) 2 (rset 0x220004 5 (ring 3 d)))).dev.burl.fuseLife ≤ 3) ∧ ((start fun d => learned 0
    (station 3 0 0 false 0 0) (rset (burlReg 0x4000) 2 (rset 0x220004 5 (ring 3 d)))).dev.burl.fuseRoots = true) ∧ ((((start fun d
    => learned 0 (station 3 0 0 false 0 0) (rset (burlReg 0x4000) 2 (rset 0x220004 5 (ring 3 d)))).dev.reg (rasReg 0x10)).setWidth
    16 : BitVec 16).toInt ≤ 8 * ((fld (regReset (start fun d => learned 0 (station 3 0 0 false 0 0) (rset (burlReg 0x4000) 2 (rset
    0x220004 5 (ring 3 d)))).dev.variant (rasReg 0x14)) 7 0 : Int) - 10)) := by decide
theorem witness_ColdResetsAndLosses_3 : ((start fun d => learned 0 (station 3 0 0 false 0 0) (rset (burlReg 0x4000) 2 (rset 0x220004
    5 (ring 3 d)))).dev.tap.asleep = false) ∧ ((⟨true, true, true, true, (0, 0)⟩ : BootResult).pufOk = true) ∧ ((⟨true, true, true,
    true, (0, 0)⟩ : BootResult).entropyOk = true) ∧ ((start fun d => learned 0 (station 3 0 0 false 0 0) (rset (burlReg 0x4000) 2
    (rset 0x220004 5 (ring 3 d)))).dev.burl.fuseTamper = false) ∧ ((start fun d => learned 0 (station 3 0 0 false 0 0) (rset
    (burlReg 0x4000) 2 (rset 0x220004 5 (ring 3 d)))).dev.burl.tamperLatch = 0) ∧ (1 ≤ (start fun d => learned 0 (station 3 0 0
    false 0 0) (rset (burlReg 0x4000) 2 (rset 0x220004 5 (ring 3 d)))).dev.burl.fuseLife) ∧ ((start fun d => learned 0 (station 3 0
    0 false 0 0) (rset (burlReg 0x4000) 2 (rset 0x220004 5 (ring 3 d)))).dev.burl.fuseLife ≤ 3) ∧ ((start fun d => learned 0
    (station 3 0 0 false 0 0) (rset (burlReg 0x4000) 2 (rset 0x220004 5 (ring 3 d)))).dev.burl.fuseRoots = true) ∧ ((((start fun d
    => learned 0 (station 3 0 0 false 0 0) (rset (burlReg 0x4000) 2 (rset 0x220004 5 (ring 3 d)))).dev.reg (rasReg 0x10)).setWidth
    16 : BitVec 16).toInt ≤ 8 * ((fld (regReset (start fun d => learned 0 (station 3 0 0 false 0 0) (rset (burlReg 0x4000) 2 (rset
    0x220004 5 (ring 3 d)))).dev.variant (rasReg 0x14)) 7 0 : Int) - 10)) := by decide
theorem witness_ColdResetsAndLosses_4 : True := by decide
theorem witness_ColdResetsAndLosses_5 : ((after .vaonLoss State.reset).dev.tap.asleep = true) ∧ ((after .vaonLoss
    State.reset).dev.tap.waking = true) ∧ ((after .vaonLoss State.reset).dev.mode = 0) ∧ ((after .vaonLoss
    State.reset).dev.cam.anchor.isNone = true) ∧ ((after .vaonLoss State.reset).dev.cam.epochRows < 1024) ∧ ((⟨true, true, true,
    true, (0, 0)⟩ : BootResult).pufOk = true) ∧ ((⟨true, true, true, true, (0, 0)⟩ : BootResult).entropyOk = true) := by decide
theorem witness_ColdResetsAndLosses_6 : ((start fun d => { d with tap := { d.tap with asleep := true } }).dev.tap.asleep = true) :=
    by decide
theorem witness_ColdResetsAndLosses_7 : ((start fun d => { d with tap := { d.tap with asleep := true } }).dev.tap.asleep = true) :=
    by decide
theorem witness_WarmResetAndWake_1 : ((start fun d => learned 0 (station 3 0 0 false 0 0) (rset (burlReg 0x4000) 2 (rset 0x220004 5
    (ring 3 d)))).dev.tap.asleep = false) ∧ ((start fun d => learned 0 (station 3 0 0 false 0 0) (rset (burlReg 0x4000) 2 (rset
    0x220004 5 (ring 3 d)))).dev.rb (updReg 4) 30 = false) ∧ ((start fun d => learned 0 (station 3 0 0 false 0 0) (rset (burlReg
    0x4000) 2 (rset 0x220004 5 (ring 3 d)))).dev.upd.unstarted = false) ∧ ((start fun d => learned 0 (station 3 0 0 false 0 0) (rset
    (burlReg 0x4000) 2 (rset 0x220004 5 (ring 3 d)))).dev.manifestSlot = (start fun d => learned 0 (station 3 0 0 false 0 0) (rset
    (burlReg 0x4000) 2 (rset 0x220004 5 (ring 3 d)))).dev.runSlot) ∧ ((⟨true, true, true, true, (0, 0)⟩ : BootResult).sramOk = true)
    ∧ ((start fun d => learned 0 (station 3 0 0 false 0 0) (rset (burlReg 0x4000) 2 (rset 0x220004 5 (ring 3 d)))).dev.lifeCycle ≠
    4) ∧ ((((start fun d => learned 0 (station 3 0 0 false 0 0) (rset (burlReg 0x4000) 2 (rset 0x220004 5 (ring 3 d)))).dev.reg
    (rasReg 0x10)).setWidth 16 : BitVec 16).toInt ≤ 8 * ((fld (regReset (start fun d => learned 0 (station 3 0 0 false 0 0) (rset
    (burlReg 0x4000) 2 (rset 0x220004 5 (ring 3 d)))).dev.variant (rasReg 0x14)) 7 0 : Int) - 10)) := by decide
theorem witness_WarmResetAndWake_2 : ((wakes 1 0).dev.tap.asleep = true) ∧ ((wakes 1 0).dev.tap.waking = true) ∧ ((wakes 1
    0).dev.mode = 1) ∧ ((wakes 1 0).dev.cam.anchor.isSome = true) ∧ ((⟨true, true, true, true, (0, 0)⟩ : BootResult).pufOk = true) ∧
    ((⟨true, true, true, true, (0, 0)⟩ : BootResult).entropyOk = true) ∧ ((wakes 1 0).dev.burl.fuseTamper = false) ∧ ((wakes 1
    0).dev.burl.tamperLatch = 0) ∧ (1 ≤ (wakes 1 0).dev.burl.fuseLife) ∧ ((wakes 1 0).dev.burl.fuseLife ≤ 3) ∧ ((wakes 1
    0).dev.burl.fuseRoots = true) ∧ ((((wakes 1 0).dev.reg (rasReg 0x10)).setWidth 16 : BitVec 16).toInt ≤ 8 * ((fld (regReset
    (wakes 1 0).dev.variant (rasReg 0x14)) 7 0 : Int) - 10)) := by decide
theorem witness_WarmResetAndWake_3 : ((wakes 2 4).dev.tap.asleep = true) ∧ ((wakes 2 4).dev.tap.waking = true) ∧ ((wakes 2
    4).dev.mode = 2) ∧ ((wakes 2 4).dev.tap.saved = false) ∧ ((wakes 2 4).dev.burl.tamperLatch = 0) ∧ ((wakes 2 4).dev.tap.heldMode
    ≠ 2) := by decide
theorem witness_WarmResetAndWake_4 : ((start fun d =>
    { (wakes 2 4).dev with tap := { (wakes 2 4).dev.tap with saved := true } }).dev.tap.asleep = true) ∧ ((start fun d =>
    { (wakes 2 4).dev with tap := { (wakes 2 4).dev.tap with saved := true } }).dev.tap.waking = true) ∧ ((start fun d =>
    { (wakes 2 4).dev with tap := { (wakes 2 4).dev.tap with saved := true } }).dev.mode = 2) ∧ (RestoreCheck.badMac ≠ .good) ∧
    ((start fun d => { (wakes 2 4).dev with tap := { (wakes 2 4).dev.tap with saved := true } }).dev.tap.saved = true ∨
    RestoreCheck.badMac = .retention) ∧ ((start fun d =>
    { (wakes 2 4).dev with tap := { (wakes 2 4).dev.tap with saved := true } }).dev.cam.anchor.isSome = true) ∧ ((⟨true, true, true,
    true, (0, 0)⟩ : BootResult).pufOk = true) ∧ ((⟨true, true, true, true, (0, 0)⟩ : BootResult).entropyOk = true) ∧ ((start fun d
    => { (wakes 2 4).dev with tap := { (wakes 2 4).dev.tap with saved := true } }).dev.burl.fuseTamper = false) ∧ ((start fun d =>
    { (wakes 2 4).dev with tap := { (wakes 2 4).dev.tap with saved := true } }).dev.burl.tamperLatch = 0) ∧ (1 ≤ (start fun d =>
    { (wakes 2 4).dev with tap := { (wakes 2 4).dev.tap with saved := true } }).dev.burl.fuseLife) ∧ ((start fun d =>
    { (wakes 2 4).dev with tap := { (wakes 2 4).dev.tap with saved := true } }).dev.burl.fuseLife ≤ 3) ∧ ((start fun d =>
    { (wakes 2 4).dev with tap := { (wakes 2 4).dev.tap with saved := true } }).dev.burl.fuseRoots = true) ∧ ((((start fun d =>
    { (wakes 2 4).dev with tap := { (wakes 2 4).dev.tap with saved := true } }).dev.reg (rasReg 0x10)).setWidth 16 : BitVec
    16).toInt ≤ 8 * ((fld (regReset (start fun d =>
    { (wakes 2 4).dev with tap := { (wakes 2 4).dev.tap with saved := true } }).dev.variant (rasReg 0x14)) 7 0 : Int) - 10)) := by
    decide
theorem witness_WarmResetAndWake_5 : ((start fun d =>
    { (wakes 2 4).dev with tap := { (wakes 2 4).dev.tap with saved := true }, groves := { d.groves with fdb := [(7, some { station 3 0 0 false 0 0 with isStatic := true })] } }).dev.tap.asleep
    = true) ∧ ((start fun d =>
    { (wakes 2 4).dev with tap := { (wakes 2 4).dev.tap with saved := true }, groves := { d.groves with fdb := [(7, some { station 3 0 0 false 0 0 with isStatic := true })] } }).dev.tap.waking
    = true) ∧ ((start fun d =>
    { (wakes 2 4).dev with tap := { (wakes 2 4).dev.tap with saved := true }, groves := { d.groves with fdb := [(7, some { station 3 0 0 false 0 0 with isStatic := true })] } }).dev.mode
    = 2) ∧ ((start fun d =>
    { (wakes 2 4).dev with tap := { (wakes 2 4).dev.tap with saved := true }, groves := { d.groves with fdb := [(7, some { station 3 0 0 false 0 0 with isStatic := true })] } }).dev.tap.saved
    = true) ∧ ((start fun d =>
    { (wakes 2 4).dev with tap := { (wakes 2 4).dev.tap with saved := true }, groves := { d.groves with fdb := [(7, some { station 3 0 0 false 0 0 with isStatic := true })] } }).dev.burl.tamperLatch
    = 0) ∧ ((start fun d =>
    { (wakes 2 4).dev with tap := { (wakes 2 4).dev.tap with saved := true }, groves := { d.groves with fdb := [(7, some { station 3 0 0 false 0 0 with isStatic := true })] } }).dev.tap.heldMode
    ≠ 2) ∧ ((start fun d =>
    { (wakes 2 4).dev with tap := { (wakes 2 4).dev.tap with saved := true }, groves := { d.groves with fdb := [(7, some { station 3 0 0 false 0 0 with isStatic := true })] } }).dev.groves.fdb.wf
    (fun _ => none) = true) ∧ ((start fun d =>
    { (wakes 2 4).dev with tap := { (wakes 2 4).dev.tap with saved := true }, groves := { d.groves with fdb := [(7, some { station 3 0 0 false 0 0 with isStatic := true })] } }).dev.groves.fdb.get
    none 7 = some { station 3 0 0 false 0 0 with isStatic := true }) ∧ ({ station 3 0 0 false 0 0 with isStatic := true }.isStatic =
    true) := by decide
theorem witness_WarmResetAndWake_6 : ((start id).dev.tap.asleep = false ∨ (start id).dev.tap.waking = false) := by decide
theorem witness_WarmResetAndWake_7 : ((start fun d => { d with tap := { d.tap with asleep := true } }).dev.tap.asleep = true) := by
    decide
theorem witness_SoftResetsAndClockHolds_1 : ((start (ring 3)).starts (cmdOp 3 0 0 0x3000 0 0 0 0) 0 0 3 [0xFFFF, 0, 0, 0, 0] = true)
    ∧ ((fld (cmdOp 3 0 0 0x3000 0 0 0 0).p8 15 8) = 0x30) ∧ ((fld (cmdOp 3 0 0 0x3000 0 0 0 0).p8 7 0) = 0) ∧ ((start (ring
    3)).dev.softBusy (cmdOp 3 0 0 0x3000 0 0 0 0) = false) ∧ ((start (ring 3)).dev.safe = false) := by decide
theorem witness_SoftResetsAndClockHolds_2 : ((start (ring 3)).starts (cmdOp 3 0 0 0x3102 0 0 0 0) 0 0 3 [0xFFFF, 0, 0, 0, 0] = true)
    ∧ ((fld (cmdOp 3 0 0 0x3102 0 0 0 0).p8 15 8) = 0x31) ∧ ((fld (cmdOp 3 0 0 0x3102 0 0 0 0).p8 7 0) < 24) ∧ (canPresent (start
    (ring 3)).dev.variant (fld (cmdOp 3 0 0 0x3102 0 0 0 0).p8 7 0) = true) ∧ ((start (ring 3)).dev.softBusy (cmdOp 3 0 0 0x3102 0 0
    0 0) = false) ∧ ((start (ring 3)).dev.safe = false) := by decide
theorem witness_SoftResetsAndClockHolds_3 : ((start fun d => rset 0x20 6 (rset (rasReg 0) 0x80000006 (ring 3 d))).starts (cmdOp 3 0
    0 0x3000 0 0 0 0) 0 0 3 [0xFFFF, 0, 0, 0, 0] = true) ∧ (unitPresent (start fun d => rset 0x20 6 (rset (rasReg 0) 0x80000006
    (ring 3 d))).dev.variant (start fun d => rset 0x20 6 (rset (rasReg 0) 0x80000006 (ring 3 d))).dev.split (fld (cmdOp 3 0 0 0x3000
    0 0 0 0).p8 15 8) (fld (cmdOp 3 0 0 0x3000 0 0 0 0).p8 7 0) = true) ∧ ([0, 0x61, 0x50, 0x60].contains (fld (cmdOp 3 0 0 0x3000 0
    0 0 0).p8 15 8) = false) ∧ ((fld (cmdOp 3 0 0 0x3000 0 0 0 0).p8 15 8) ≠ 0x22) ∧ ((start fun d => rset 0x20 6 (rset (rasReg 0)
    0x80000006 (ring 3 d))).dev.safe = true) := by decide
theorem witness_SoftResetsAndClockHolds_4 : ((start fun d => { d with clocks := { d.clocks with sel := [(1, 0x3000)] } }).opens cpu
    0x4C = true) ∧ ((start fun d => { d with clocks := { d.clocks with sel := [(1, 0x3000)] } }).dev.clocks.sel.get 0 cpu.origin.val
    = BitVec.ofNat 16 (256 * 0x30 + 0)) ∧ (0x30 < 256) ∧ (0 < 255) ∧ (unitPresent (start fun d =>
    { d with clocks := { d.clocks with sel := [(1, 0x3000)] } }).dev.variant (start fun d =>
    { d with clocks := { d.clocks with sel := [(1, 0x3000)] } }).dev.split 0x30 0 = true) := by decide
theorem witness_SoftResetsAndClockHolds_5 : ((start fun d =>
    { d with clocks := { d.clocks with sel := [(1, 0x3000)], holders := [(0x3000, 2)] } }).opens cpu 0x4C = true) ∧ ((start fun d =>
    { d with clocks := { d.clocks with sel := [(1, 0x3000)], holders := [(0x3000, 2)] } }).dev.clocks.sel.get 0 cpu.origin.val =
    BitVec.ofNat 16 (256 * 0x30 + 0)) ∧ (0x30 < 256) ∧ (0 < 255) ∧ (unitPresent (start fun d =>
    { d with clocks := { d.clocks with sel := [(1, 0x3000)], holders := [(0x3000, 2)] } }).dev.variant (start fun d =>
    { d with clocks := { d.clocks with sel := [(1, 0x3000)], holders := [(0x3000, 2)] } }).dev.split 0x30 0 = true) := by decide
theorem witness_SoftResetsAndClockHolds_6 : ((start (rset 0x50 5)).dev.runs = true) ∧ ((2 : BitVec 8) ≠ 0xFF) ∧ (unitPresent (start
    (rset 0x50 5)).dev.variant (start (rset 0x50 5)).dev.split (0x30 : BitVec 8).toNat (2 : BitVec 8).toNat = true) ∧ ((start (rset
    0x50 5)).dev.unitPowered (0x30 : BitVec 8).toNat (2 : BitVec 8).toNat = true) ∧ ((start (rset 0x50 5)).dev.gateable (0x30 :
    BitVec 8).toNat (2 : BitVec 8).toNat = true) ∧ ((start (rset 0x50 5)).dev.holders (0x30 : BitVec 8).toNat (2 : BitVec 8).toNat =
    0) ∧ ((start (rset 0x50 5)).dev.rf 0x50 19 0 ≠ 0) := by decide
theorem witness_SoftResetsAndClockHolds_7 : ((start fun d =>
    { ring 3 d with basjo := (ring 3 d).basjo.setRing 0 1 { RingRun.idle with running := some ⟨(cmdOp 1 0x30 2 0x1000000000000 0 0 0 0), 1, 0⟩ } }).starts
    (cmdOp 3 0 0 0x3002 0 0 0 0) 0 0 3 [0xFFFF, 0, 0, 0, 0] = true) ∧ ((start fun d =>
    { ring 3 d with basjo := (ring 3 d).basjo.setRing 0 1 { RingRun.idle with running := some ⟨(cmdOp 1 0x30 2 0x1000000000000 0 0 0 0), 1, 0⟩ } }).dev.softBusy
    (cmdOp 3 0 0 0x3002 0 0 0 0) = true) ∧ (unitPresent (start fun d =>
    { ring 3 d with basjo := (ring 3 d).basjo.setRing 0 1 { RingRun.idle with running := some ⟨(cmdOp 1 0x30 2 0x1000000000000 0 0 0 0), 1, 0⟩ } }).dev.variant
    (start fun d =>
    { ring 3 d with basjo := (ring 3 d).basjo.setRing 0 1 { RingRun.idle with running := some ⟨(cmdOp 1 0x30 2 0x1000000000000 0 0 0 0), 1, 0⟩ } }).dev.split
    (fld (cmdOp 3 0 0 0x3002 0 0 0 0).p8 15 8) (fld (cmdOp 3 0 0 0x3002 0 0 0 0).p8 7 0) = true) ∧ ([0, 0x61, 0x50, 0x60].contains
    (fld (cmdOp 3 0 0 0x3002 0 0 0 0).p8 15 8) = false) ∧ (¬ ((fld (cmdOp 3 0 0 0x3002 0 0 0 0).p8 15 8) = 0x22 ∧ (fld (cmdOp 3 0 0
    0x3002 0 0 0 0).p8 7 0) = 0)) ∧ ((start fun d =>
    { ring 3 d with basjo := (ring 3 d).basjo.setRing 0 1 { RingRun.idle with running := some ⟨(cmdOp 1 0x30 2 0x1000000000000 0 0 0 0), 1, 0⟩ } }).dev.safe
    = false) := by decide
theorem witness_SoftResetsAndClockHolds_8 : ((start (ring 3)).starts (cmdOp 3 0 0 0x3044 0 0 0 0) 0 0 3 [0xFFFF, 0, 0, 0, 0] = true)
    ∧ (unitPresent (start (ring 3)).dev.variant (start (ring 3)).dev.split (fld (cmdOp 3 0 0 0x3044 0 0 0 0).p8 15 8) (fld (cmdOp 3
    0 0 0x3044 0 0 0 0).p8 7 0) = false) := by decide
theorem witness_SoftResetsAndClockHolds_9 : ((start (ring 3)).starts (cmdOp 3 0 0 0x6100 0 0 0 0) 0 0 3 [0xFFFF, 0, 0, 0, 0] = true)
    ∧ (unitPresent (start (ring 3)).dev.variant (start (ring 3)).dev.split (fld (cmdOp 3 0 0 0x6100 0 0 0 0).p8 15 8) (fld (cmdOp 3
    0 0 0x6100 0 0 0 0).p8 7 0) = true) ∧ ([0, 0x61, 0x50, 0x60].contains (fld (cmdOp 3 0 0 0x6100 0 0 0 0).p8 15 8) = true) := by
    decide
theorem witness_SoftResetsAndClockHolds_10 : (State.reset.dev.runs = true) ∧ (State.reset.dev.holders (0x70 : BitVec 8).toNat (0 :
    BitVec 8).toNat ≠ 0 ∨ State.reset.dev.gateable (0x70 : BitVec 8).toNat (0 : BitVec 8).toNat = false ∨ State.reset.dev.rf 0x50 19
    0 = 0) := by decide
theorem witness_SafeIsEntered_1 : ((start fun d =>
    { d with decap := [1], trunk := { d.trunk with frames := [(1, some frame64)] } }).opens coreA (rasReg 8) = true) ∧ ((start fun d
    => { d with decap := [1], trunk := { d.trunk with frames := [(1, some frame64)] } }).clocked (rasReg 8) = true) ∧ ((start fun d
    => { d with decap := [1], trunk := { d.trunk with frames := [(1, some frame64)] } }).dev.safe = false) := by decide
theorem witness_SafeIsEntered_2 : (State.reset.dev.runs = true) ∧ (State.reset.dev.safe = false) ∧ (8 * (State.reset.dev.rf (rasReg
    0x14) 7 0 : Int) ≤ (0x600 : BitVec 16).toInt) := by decide
theorem witness_SafeIsEntered_3 : (State.reset.dev.runs = true) ∧ ((0x10 : BitVec 16).toInt < 8 * (State.reset.dev.rf (rasReg 0x14)
    7 0 : Int)) := by decide
theorem witness_SafeIsEntered_4 : (State.reset.dev.runs = true) ∧ (State.reset.dev.safe = false) ∧ (controlState (0x20 : BitVec
    8).toNat (0 : BitVec 8).toNat = true) ∧ (unitPresent State.reset.dev.variant State.reset.dev.split (0x20 : BitVec 8).toNat (0 :
    BitVec 8).toNat = true) := by decide
theorem witness_SafeIsEntered_5 : ((start fun d => atRaw (2 ^ 60) (rset (camReg 0x204) 4 (rset (camReg 0x210) 1 (gated
    d)))).dev.runs = true) ∧ ((start fun d => atRaw (2 ^ 60) (rset (camReg 0x204) 4 (rset (camReg 0x210) 1 (gated d)))).dev.bothLost
    = false) ∧ ((start fun d => atRaw (2 ^ 60) (rset (camReg 0x204) 4 (rset (camReg 0x210) 1 (gated d)))).dev.bothLostNow = true) ∧
    ((start fun d => atRaw (2 ^ 60) (rset (camReg 0x204) 4 (rset (camReg 0x210) 1 (gated d)))).dev.safe = false) ∧ ((List.range
    36).any (fun n => (start fun d => atRaw (2 ^ 60) (rset (camReg 0x204) 4 (rset (camReg 0x210) 1 (gated d)))).dev.rb (crownReg n
    0x10) 31) = true) := by decide
theorem witness_SafeIsEntered_6 : ((start fun d => atRaw (2 ^ 60) (rset (camReg 0x204) 4 (rset (camReg 0x210) 1 d))).dev.runs =
    true) ∧ ((start fun d => atRaw (2 ^ 60) (rset (camReg 0x204) 4 (rset (camReg 0x210) 1 d))).dev.bothLost = false) ∧ ((start fun d
    => atRaw (2 ^ 60) (rset (camReg 0x204) 4 (rset (camReg 0x210) 1 d))).dev.bothLostNow = true) ∧ ((List.range 36).any (fun n =>
    (start fun d => atRaw (2 ^ 60) (rset (camReg 0x204) 4 (rset (camReg 0x210) 1 d))).dev.rb (crownReg n 0x10) 31) = false) := by
    decide
theorem witness_SafeIsEntered_7 : ((start fun d => rset 0x20 6 (rset (rasReg 0) 0x80000006 d)).opens coreA (rasReg 8) = true) ∧
    ((start fun d => rset 0x20 6 (rset (rasReg 0) 0x80000006 d)).clocked (rasReg 8) = true) ∧ ((start fun d => rset 0x20 6 (rset
    (rasReg 0) 0x80000006 d)).dev.safe = true) := by decide
theorem witness_SafeIsEntered_8 : (State.reset.dev.runs = true) ∧ (controlState (0x70 : BitVec 8).toNat (0 : BitVec 8).toNat = false
    ∨ unitPresent State.reset.dev.variant State.reset.dev.split (0x70 : BitVec 8).toNat (0 : BitVec 8).toNat = false) := by decide
theorem witness_SafeIsEntered_9 : ((start (rset (camReg 0x204) 8)).dev.runs = true) ∧ ((start (rset (camReg 0x204) 8)).dev.bothLost
    = true ∨ (start (rset (camReg 0x204) 8)).dev.bothLostNow = false) := by decide
theorem witness_ErrorsAreCountedAndSparesServe_1 : ((start (rset (rasReg 0x34) 0x100010)).dev.runs = true) ∧ (unitPresent (start
    (rset (rasReg 0x34) 0x100010)).dev.variant (start (rset (rasReg 0x34) 0x100010)).dev.split (0x10 + (0 : Fin 4).val) (2 : Fin
    9).val = true) ∧ (((start (rset (rasReg 0x34) 0x100010)).dev.rasUnit (0x10 + (0 : Fin 4).val) (2 : Fin 9).val).win + 1 < (start
    (rset (rasReg 0x34) 0x100010)).dev.retireAt 1) ∧ ((((start (rset (rasReg 0x34) 0x100010)).dev.rasUnit (0x10 + (0 : Fin 4).val)
    (2 : Fin 9).val).warned = true ∨ ((start (rset (rasReg 0x34) 0x100010)).dev.rasUnit (0x10 + (0 : Fin 4).val) (2 : Fin
    9).val).win + 1 < (start (rset (rasReg 0x34) 0x100010)).dev.warnAt 1)) := by decide
theorem witness_ErrorsAreCountedAndSparesServe_2 : ((start (rset (rasReg 0x34) 0x100001)).dev.runs = true) ∧ (unitPresent (start
    (rset (rasReg 0x34) 0x100001)).dev.variant (start (rset (rasReg 0x34) 0x100001)).dev.split (0x10 + (0 : Fin 4).val) (2 : Fin
    9).val = true) ∧ ((2 : Fin 9) ≠ 8) ∧ (((start (rset (rasReg 0x34) 0x100001)).dev.rasUnit (0x10 + (0 : Fin 4).val) (2 : Fin
    9).val).win + 1 ≥ (start (rset (rasReg 0x34) 0x100001)).dev.retireAt 1) ∧ ((((start (rset (rasReg 0x34) 0x100001)).dev.rasUnit
    (0x10 + (0 : Fin 4).val) (2 : Fin 9).val).warned = true ∨ ((start (rset (rasReg 0x34) 0x100001)).dev.rasUnit (0x10 + (0 : Fin
    4).val) (2 : Fin 9).val).win + 1 < (start (rset (rasReg 0x34) 0x100001)).dev.warnAt 1)) ∧ (((start (rset (rasReg 0x34)
    0x100001)).dev.rasUnit (0x10 + (0 : Fin 4).val) (2 : Fin 9).val).retired = false) ∧ (((start (rset (rasReg 0x34)
    0x100001)).dev.rasUnit (0x10 + (0 : Fin 4).val) 8).other = none) ∧ (((start (rset (rasReg 0x34) 0x100001)).dev.rasUnit (0x10 +
    (0 : Fin 4).val) 8).retired = false) := by decide
theorem witness_ErrorsAreCountedAndSparesServe_3 : ((start (rset (pairReg 0 0) 0x3011)).dev.runs = true) ∧ ((start (rset (pairReg 0
    0) 0x3011)).dev.split = false) ∧ ((start (rset (pairReg 0 0) 0x3011)).dev.ras.scrubAt.all (fun t => decide (t / (start (rset
    (pairReg 0 0) 0x3011)).dev.scrubPeriod < (start (rset (pairReg 0 0) 0x3011)).dev.now / (start (rset (pairReg 0 0)
    0x3011)).dev.scrubPeriod)) = true) := by decide
theorem witness_ErrorsAreCountedAndSparesServe_4 : (State.reset.dev.runs = true) ∧ (State.reset.dev.split = false) ∧
    (State.reset.dev.ras.scrubAt.all (fun t => decide (t / State.reset.dev.scrubPeriod < State.reset.dev.now /
    State.reset.dev.scrubPeriod)) = true) := by decide
theorem witness_ErrorsAreCountedAndSparesServe_5 : ((start fun d =>
    { d with trunk := { d.trunk with retiring := [⟨true, 5, 5⟩], spareBanks := 1 } }).dev.runs = true) ∧ ((start fun d =>
    { d with trunk := { d.trunk with retiring := [⟨true, 5, 5⟩], spareBanks := 1 } }).dev.trunk.retiring = ⟨true, 5, 5⟩ :: ([] :
    List Retire)) ∧ ((([] : List Retire) = [] ∨ (([] : List Retire).head?.map (·.spare)) = some true)) := by decide
theorem witness_ErrorsAreCountedAndSparesServe_6 : ((start fun d =>
    { atRaw (2 ^ 60) d with ras := { d.ras with units := [(0x6000, { RasUnit.idle with win := 3, total := 9 })] } }).dev.runs =
    true) ∧ ((start fun d =>
    { atRaw (2 ^ 60) d with ras := { d.ras with units := [(0x6000, { RasUnit.idle with win := 3, total := 9 })] } }).dev.windowNow ≠
    (start fun d =>
    { atRaw (2 ^ 60) d with ras := { d.ras with units := [(0x6000, { RasUnit.idle with win := 3, total := 9 })] } }).dev.ras.window)
    := by decide
theorem witness_ErrorsAreCountedAndSparesServe_7 : ((start (keyed 5 (key 1 false 0))).dev.runs = true) ∧ ((start (keyed 5 (key 1
    false 0))).dev.ras.scrubAt.all (fun t => decide (t / (start (keyed 5 (key 1 false 0))).dev.scrubPeriod < (start (keyed 5 (key 1
    false 0))).dev.now / (start (keyed 5 (key 1 false 0))).dev.scrubPeriod)) = true) ∧ ((start (keyed 5 (key 1 false
    0))).dev.rasUnit 0x40 (16 + (0 : Fin 8).val) = .idle) ∧ ((start (keyed 5 (key 1 false 0))).dev.rasUnit 0x40 24 = .idle) ∧
    (((start (keyed 5 (key 1 false 0))).dev.slot (64 * (0 : Fin 8).val + (5 : Fin 64).val)).state = 1) := by decide
theorem witness_ErrorsAreCountedAndSparesServe_8 : ((start (rset (rasReg 0x30) 0x100001)).dev.runs = true) ∧ ((start (rset (rasReg
    0x30) 0x100001)).dev.ras.banks.get 0 (3 : Fin 18).val + 1 ≥ (start (rset (rasReg 0x30) 0x100001)).dev.retireAt 0) ∧ ((start
    (rset (rasReg 0x30) 0x100001)).dev.bankServes (3 : Fin 18).val = true) ∧ ((start (rset (rasReg 0x30)
    0x100001)).dev.trunk.spareBanks ≠ 0) := by decide
theorem witness_ErrorsAreCountedAndSparesServe_9 : ((start (rset (canopyReg 0) 3)).dev.runs = true) ∧ ((start (rset (canopyReg 0)
    3)).dev.hasPart (.checkpointBuffer 1) = false) := by decide
theorem witness_ErrorsAreCountedAndSparesServe_10 : ((start fun d => { d with ras := { d.ras with scrubAt := some 0 } }).dev.runs =
    true) ∧ ((start fun d => { d with ras := { d.ras with scrubAt := some 0 } }).dev.ras.scrubAt = some (start fun d =>
    { d with ras := { d.ras with scrubAt := some 0 } }).dev.now) := by decide
theorem witness_ErrorsAreCountedAndSparesServe_11 : (State.reset.dev.runs = true) ∧ (State.reset.dev.trunk.retiring = []) := by
    decide
theorem witness_ErrorsAreCountedAndSparesServe_12 : (State.reset.dev.runs = true) ∧ (State.reset.dev.windowNow =
    State.reset.dev.ras.window) := by decide
theorem witness_PairRolesAndHeartbeats_1 : (State.reset.opens coreA (rasReg 0x200) = true) := by decide
theorem witness_PairRolesAndHeartbeats_2 : ((start fun d => rset (portReg 1 0) 0x80000000 (rset (portReg 1 4) 0x12 (rset (rasReg
    0x200) 0x80010000 d))).dev.runs = true) ∧ ((start fun d => rset (portReg 1 0) 0x80000000 (rset (portReg 1 4) 0x12 (rset (rasReg
    0x200) 0x80010000 d))).dev.redOn = true) ∧ ((start fun d => rset (portReg 1 0) 0x80000000 (rset (portReg 1 4) 0x12 (rset (rasReg
    0x200) 0x80010000 d))).dev.safe = false) ∧ ((start fun d => rset (portReg 1 0) 0x80000000 (rset (portReg 1 4) 0x12 (rset (rasReg
    0x200) 0x80010000 d))).dev.ras.beatAt.all (fun t => decide (t + msRaw ≤ (start fun d => rset (portReg 1 0) 0x80000000 (rset
    (portReg 1 4) 0x12 (rset (rasReg 0x200) 0x80010000 d))).dev.now)) = true) ∧ (portPresent (start fun d => rset (portReg 1 0)
    0x80000000 (rset (portReg 1 4) 0x12 (rset (rasReg 0x200) 0x80010000 d))).dev.variant (start fun d => rset (portReg 1 0)
    0x80000000 (rset (portReg 1 4) 0x12 (rset (rasReg 0x200) 0x80010000 d))).dev.hbPort = true) ∧ ((start fun d => rset (portReg 1
    0) 0x80000000 (rset (portReg 1 4) 0x12 (rset (rasReg 0x200) 0x80010000 d))).dev.portPowered (start fun d => rset (portReg 1 0)
    0x80000000 (rset (portReg 1 4) 0x12 (rset (rasReg 0x200) 0x80010000 d))).dev.hbPort = true) ∧ ((start fun d => rset (portReg 1
    0) 0x80000000 (rset (portReg 1 4) 0x12 (rset (rasReg 0x200) 0x80010000 d))).dev.portUp (start fun d => rset (portReg 1 0)
    0x80000000 (rset (portReg 1 4) 0x12 (rset (rasReg 0x200) 0x80010000 d))).dev.hbPort = true) := by decide
theorem witness_PairRolesAndHeartbeats_3 : ((start (rset (rasReg 0x200) 0x80010000)).dev.runs = true) ∧ ((start (rset (rasReg 0x200)
    0x80010000)).dev.redOn = true) ∧ ((start (rset (rasReg 0x200) 0x80010000)).dev.rb (rasReg 0x204) 0 = false) := by decide
theorem witness_PairRolesAndHeartbeats_4 : ((start (rset (rasReg 0x200) 0x80010000)).dev.runs = true) ∧ ((start (rset (rasReg 0x200)
    0x80010000)).dev.redOn = true) ∧ (beAt (List.replicate 12 0 ++ [0x88, 0xB5, 0x54, 0x4C, 0x48, 0x42, 1] : List (BitVec 8)) 12 2 =
    0x88B5) ∧ (((List.replicate 12 0 ++ [0x88, 0xB5, 0x54, 0x4C, 0x48, 0x42, 1] : List (BitVec 8)).drop 14).take 4 = ascii "TLHB") ∧
    ((start (rset (rasReg 0x200) 0x80010000)).dev.rb (rasReg 0x204) 1 = false) ∧ ((start (rset (rasReg 0x200)
    0x80010000)).dev.active = false) := by decide
theorem witness_PairRolesAndHeartbeats_5 : ((start fun d => rset (rasReg 0x204) 0x80000002 (rset (rasReg 0x200) 0x80010000
    d)).dev.runs = true) ∧ ((start fun d => rset (rasReg 0x204) 0x80000002 (rset (rasReg 0x200) 0x80010000 d)).dev.redOn = true) ∧
    (beAt (List.replicate 12 0 ++ [0x88, 0xB5, 0x54, 0x4C, 0x48, 0x42, 1, 9] : List (BitVec 8)) 12 2 = 0x88B5) ∧ (((List.replicate
    12 0 ++ [0x88, 0xB5, 0x54, 0x4C, 0x48, 0x42, 1, 9] : List (BitVec 8)).drop 14).take 4 = ascii "TLHB") ∧ ((start fun d => rset
    (rasReg 0x204) 0x80000002 (rset (rasReg 0x200) 0x80010000 d)).dev.rb (rasReg 0x204) 1 = true) ∧ ((start fun d => rset (rasReg
    0x204) 0x80000002 (rset (rasReg 0x200) 0x80010000 d)).dev.active = true) ∧ (beAt (List.replicate 12 0 ++ [0x88, 0xB5, 0x54,
    0x4C, 0x48, 0x42, 1, 9] : List (BitVec 8)) 18 1 = 1) ∧ (beAt (List.replicate 12 0 ++ [0x88, 0xB5, 0x54, 0x4C, 0x48, 0x42, 1, 9]
    : List (BitVec 8)) 19 1 > (start fun d => rset (rasReg 0x204) 0x80000002 (rset (rasReg 0x200) 0x80010000 d)).dev.rf (rasReg
    0x218) 7 0) := by decide
theorem witness_PairRolesAndHeartbeats_6 : ((start fun d => atRaw (2 ^ 60) (rset (rasReg 0x204) 3 (rset (rasReg 0x200) 0x80010000
    d))).dev.runs = true) ∧ ((start fun d => atRaw (2 ^ 60) (rset (rasReg 0x204) 3 (rset (rasReg 0x200) 0x80010000 d))).dev.redOn =
    true) ∧ ((start fun d => atRaw (2 ^ 60) (rset (rasReg 0x204) 3 (rset (rasReg 0x200) 0x80010000 d))).dev.rb (rasReg 0x204)
    true.toNat = true) ∧ ((if true then (start fun d => atRaw (2 ^ 60) (rset (rasReg 0x204) 3 (rset (rasReg 0x200) 0x80010000
    d))).dev.ras.frameAt else (start fun d => atRaw (2 ^ 60) (rset (rasReg 0x204) 3 (rset (rasReg 0x200) 0x80010000
    d))).dev.ras.edgeAt) + 2 * msRaw ≤ (start fun d => atRaw (2 ^ 60) (rset (rasReg 0x204) 3 (rset (rasReg 0x200) 0x80010000
    d))).dev.now) := by decide
theorem witness_PairRolesAndHeartbeats_7 : ((start (rset (rasReg 0x200) 0x80010000)).dev.runs = true) ∧ ((start (rset (rasReg 0x200)
    0x80010000)).dev.ras.proof = none) ∧ ((start (rset (rasReg 0x200) 0x80010000)).dev.redOn = true) ∧ ((start (rset (rasReg 0x200)
    0x80010000)).dev.active = false) ∧ ((start (rset (rasReg 0x200) 0x80010000)).dev.rb (rasReg 0x204) 0 = false) ∧ ((start (rset
    (rasReg 0x200) 0x80010000)).dev.rb (rasReg 0x204) 1 = false) ∧ (max (start (rset (rasReg 0x200) 0x80010000)).dev.ras.edgeAt
    (start (rset (rasReg 0x200) 0x80010000)).dev.ras.frameAt + (start (rset (rasReg 0x200) 0x80010000)).dev.rf (rasReg 0x200) 15 0 *
    usRaw ≤ (start (rset (rasReg 0x200) 0x80010000)).dev.now) := by decide
theorem witness_PairRolesAndHeartbeats_8 : ((start fun d => rset (rasReg 0x200) 0x80010000 (ring 3 d)).starts (cmdOp 1 0x70 0 0xFF 0
    0 0 0) 0x70 0 1 [0xFFFFFFFFF, 0, 0, 0, 0] = true) ∧ ((start fun d => rset (rasReg 0x200) 0x80010000 (ring 3 d)).dev.redOn =
    true) ∧ ((start fun d => rset (rasReg 0x200) 0x80010000 (ring 3 d)).dev.active = false) ∧ ((start fun d => rset (rasReg 0x200)
    0x80010000 (ring 3 d)).dev.ras.proof = none) ∧ ((fld (cmdOp 1 0x70 0 0xFF 0 0 0 0).p8 35 0 &&& presentPorts (start fun d => rset
    (rasReg 0x200) 0x80010000 (ring 3 d)).dev.variant) ≠ 0) := by decide
theorem witness_PairRolesAndHeartbeats_9 : ((start fun d => rset (canReg 1 0) 0x82000000 (rset (rasReg 0x204) 0x80000000 (rset
    (rasReg 0x200) 0x80010000 (rset (rasReg 0x210) 2 d)))).opens coreA (rasReg 0x200) = true) ∧ ((start fun d => rset (canReg 1 0)
    0x82000000 (rset (rasReg 0x204) 0x80000000 (rset (rasReg 0x200) 0x80010000 (rset (rasReg 0x210) 2 d)))).dev.redOn = true) ∧
    ((start fun d => rset (canReg 1 0) 0x82000000 (rset (rasReg 0x204) 0x80000000 (rset (rasReg 0x200) 0x80010000 (rset (rasReg
    0x210) 2 d)))).dev.active = true) ∧ (canPresent (start fun d => rset (canReg 1 0) 0x82000000 (rset (rasReg 0x204) 0x80000000
    (rset (rasReg 0x200) 0x80010000 (rset (rasReg 0x210) 2 d)))).dev.variant (1 : Fin 24).val = true) ∧ ((start fun d => rset
    (canReg 1 0) 0x82000000 (rset (rasReg 0x204) 0x80000000 (rset (rasReg 0x200) 0x80010000 (rset (rasReg 0x210) 2 d)))).dev.rb
    (rasReg 0x210) (1 : Fin 24).val = true) ∧ ((start fun d => rset (canReg 1 0) 0x82000000 (rset (rasReg 0x204) 0x80000000 (rset
    (rasReg 0x200) 0x80010000 (rset (rasReg 0x210) 2 d)))).dev.canQueue (1 : Fin 24).val = []) := by decide
theorem witness_PairRolesAndHeartbeats_10 : ((start (rset (rasReg 0x200) 0x80010000)).dev.runs = true) ∧ ((start (rset (rasReg
    0x200) 0x80010000)).dev.redOn = true) ∧ ((start (rset (rasReg 0x200) 0x80010000)).dev.safe = false) ∧ ((start (rset (rasReg
    0x200) 0x80010000)).dev.ras.beatAt.all (fun t => decide (t + msRaw ≤ (start (rset (rasReg 0x200) 0x80010000)).dev.now)) = true)
    ∧ ((start (rset (rasReg 0x200) 0x80010000)).dev.portUp (start (rset (rasReg 0x200) 0x80010000)).dev.hbPort = false) := by decide
theorem witness_PairRolesAndHeartbeats_11 : ((start id).dev.runs = true) ∧ ((start id).dev.redOn = false ∨ (start id).dev.ras.beatAt
    = some (start id).dev.now) := by decide
theorem witness_PairRolesAndHeartbeats_12 : ((start id).dev.runs = true) ∧ ((start id).dev.redOn = false) := by decide
theorem witness_PairRolesAndHeartbeats_13 : ((start id).dev.runs = true) ∧ ((start id).dev.redOn = false) := by decide
theorem witness_PairRolesAndHeartbeats_14 : ((start id).dev.runs = true) ∧ ((start id).dev.rb (rasReg 0x204) true.toNat = false ∨
    (start id).dev.now < (if true then (start id).dev.ras.frameAt else (start id).dev.ras.edgeAt) + 2 * msRaw) := by decide
theorem witness_PairRolesAndHeartbeats_15 : ((start (rset (rasReg 0x204) 0x80000000)).dev.runs = true) ∧ ((start (rset (rasReg
    0x204) 0x80000000)).dev.active = true ∨ (start (rset (rasReg 0x204) 0x80000000)).dev.rb (rasReg 0x204) 0 = true ∨ (start (rset
    (rasReg 0x204) 0x80000000)).dev.rb (rasReg 0x204) 1 = true) := by decide
theorem witness_PairRolesAndHeartbeats_16 : ((start (ring 3)).starts (cmdOp 1 0x70 0 0xFF 0 0 0 0) 0x70 0 1 [0xFFFFFFFFF, 0, 0, 0,
    0] = true) ∧ ((start (ring 3)).dev.ras.proof = none) ∧ (ProofStep.starts = .starts) ∧ ((start (ring 3)).dev.redOn = false ∨
    (start (ring 3)).dev.active = true) := by decide
theorem witness_PairRolesAndHeartbeats_17 : ((start fun d => rset (rasReg 0x200) 0x80010000 (ring 3 d)).starts (cmdOp 1 0x70 0 0 0 0
    0 0) 0x70 0 1 [0xFFFFFFFFF, 0, 0, 0, 0] = true) ∧ ((start fun d => rset (rasReg 0x200) 0x80010000 (ring 3 d)).dev.redOn = true)
    ∧ ((start fun d => rset (rasReg 0x200) 0x80010000 (ring 3 d)).dev.active = false) ∧ ((start fun d => rset (rasReg 0x200)
    0x80010000 (ring 3 d)).dev.ras.proof = none) ∧ ((fld (cmdOp 1 0x70 0 0 0 0 0 0).p8 35 0 &&& presentPorts (start fun d => rset
    (rasReg 0x200) 0x80010000 (ring 3 d)).dev.variant) = 0) := by decide
theorem witness_PairRolesAndHeartbeats_18 : ((start fun d =>
    { rset (rasReg 0x204) 0x100 (rset (rasReg 0x200) 0x80010000 ((ring 3 d).onBasjo (fun b => b.setRing 0 0 { RingRun.idle with running := some ⟨(cmdOp 1 0x70 0 0xFF 0 0 0 0), 1, 0⟩ }))) with ras := { d.ras with proof := some ⟨(cmdOp 1 0x70 0 0xFF 0 0 0 0), [3, 5], 0⟩ } }).dev.runs
    = true) ∧ ((start fun d =>
    { rset (rasReg 0x204) 0x100 (rset (rasReg 0x200) 0x80010000 ((ring 3 d).onBasjo (fun b => b.setRing 0 0 { RingRun.idle with running := some ⟨(cmdOp 1 0x70 0 0xFF 0 0 0 0), 1, 0⟩ }))) with ras := { d.ras with proof := some ⟨(cmdOp 1 0x70 0 0xFF 0 0 0 0), [3, 5], 0⟩ } }).dev.ras.proof
    = some (⟨(cmdOp 1 0x70 0 0xFF 0 0 0 0), [3, 5], 0⟩ : ProofRun)) ∧ (CmdDesc.sameWords (⟨(cmdOp 1 0x70 0 0xFF 0 0 0 0), [3, 5], 0⟩
    : ProofRun).desc (cmdOp 1 0x70 0 0xFF 0 0 0 0) = true) ∧ ((⟨(cmdOp 1 0x70 0 0xFF 0 0 0 0), [3, 5], 0⟩ : ProofRun).left = 3 :: 5
    :: ([] : List Nat)) ∧ (3 < 36) ∧ ((start fun d =>
    { rset (rasReg 0x204) 0x100 (rset (rasReg 0x200) 0x80010000 ((ring 3 d).onBasjo (fun b => b.setRing 0 0 { RingRun.idle with running := some ⟨(cmdOp 1 0x70 0 0xFF 0 0 0 0), 1, 0⟩ }))) with ras := { d.ras with proof := some ⟨(cmdOp 1 0x70 0 0xFF 0 0 0 0), [3, 5], 0⟩ } }).dev.rb
    (macsecReg 3 0) 31 = false) := by decide
theorem witness_PairRolesAndHeartbeats_19 : ((start fun d =>
    { rset (rasReg 0x204) 0x100 (rset (rasReg 0x200) 0x80010000 ((ring 3 d).onBasjo (fun b => b.setRing 0 0 { RingRun.idle with running := some ⟨(cmdOp 1 0x70 0 0xFF 0 0 0 0), 1, 0⟩ }))) with ras := { d.ras with proof := some ⟨(cmdOp 1 0x70 0 0xFF 0 0 0 0), [5], 8⟩ } }).dev.runs
    = true) ∧ ((start fun d =>
    { rset (rasReg 0x204) 0x100 (rset (rasReg 0x200) 0x80010000 ((ring 3 d).onBasjo (fun b => b.setRing 0 0 { RingRun.idle with running := some ⟨(cmdOp 1 0x70 0 0xFF 0 0 0 0), 1, 0⟩ }))) with ras := { d.ras with proof := some ⟨(cmdOp 1 0x70 0 0xFF 0 0 0 0), [5], 8⟩ } }).dev.ras.proof
    = some (⟨(cmdOp 1 0x70 0 0xFF 0 0 0 0), [5], 8⟩ : ProofRun)) ∧ (CmdDesc.sameWords (⟨(cmdOp 1 0x70 0 0xFF 0 0 0 0), [5], 8⟩ :
    ProofRun).desc (cmdOp 1 0x70 0 0xFF 0 0 0 0) = true) ∧ ((⟨(cmdOp 1 0x70 0 0xFF 0 0 0 0), [5], 8⟩ : ProofRun).left = [5]) ∧ (5 <
    36) ∧ ((start fun d =>
    { rset (rasReg 0x204) 0x100 (rset (rasReg 0x200) 0x80010000 ((ring 3 d).onBasjo (fun b => b.setRing 0 0 { RingRun.idle with running := some ⟨(cmdOp 1 0x70 0 0xFF 0 0 0 0), 1, 0⟩ }))) with ras := { d.ras with proof := some ⟨(cmdOp 1 0x70 0 0xFF 0 0 0 0), [5], 8⟩ } }).dev.rb
    (macsecReg 5 0) 31 = false) ∧ ((start fun d =>
    { rset (rasReg 0x204) 0x100 (rset (rasReg 0x200) 0x80010000 ((ring 3 d).onBasjo (fun b => b.setRing 0 0 { RingRun.idle with running := some ⟨(cmdOp 1 0x70 0 0xFF 0 0 0 0), 1, 0⟩ }))) with ras := { d.ras with proof := some ⟨(cmdOp 1 0x70 0 0xFF 0 0 0 0), [5], 8⟩ } }).dev.basjo.ringType
    (⟨(cmdOp 1 0x70 0 0xFF 0 0 0 0), [5], 8⟩ : ProofRun).desc.host.val (⟨(cmdOp 1 0x70 0 0xFF 0 0 0 0), [5], 8⟩ :
    ProofRun).desc.ring.val = 3) ∧ ((start fun d =>
    { rset (rasReg 0x204) 0x100 (rset (rasReg 0x200) 0x80010000 ((ring 3 d).onBasjo (fun b => b.setRing 0 0 { RingRun.idle with running := some ⟨(cmdOp 1 0x70 0 0xFF 0 0 0 0), 1, 0⟩ }))) with ras := { d.ras with proof := some ⟨(cmdOp 1 0x70 0 0xFF 0 0 0 0), [5], 8⟩ } }).dev.basjo.ringActive
    (⟨(cmdOp 1 0x70 0 0xFF 0 0 0 0), [5], 8⟩ : ProofRun).desc.host.val (⟨(cmdOp 1 0x70 0 0xFF 0 0 0 0), [5], 8⟩ :
    ProofRun).desc.ring.val = true) ∧ (((start fun d =>
    { rset (rasReg 0x204) 0x100 (rset (rasReg 0x200) 0x80010000 ((ring 3 d).onBasjo (fun b => b.setRing 0 0 { RingRun.idle with running := some ⟨(cmdOp 1 0x70 0 0xFF 0 0 0 0), 1, 0⟩ }))) with ras := { d.ras with proof := some ⟨(cmdOp 1 0x70 0 0xFF 0 0 0 0), [5], 8⟩ } }).dev.basjo.ring
    (⟨(cmdOp 1 0x70 0 0xFF 0 0 0 0), [5], 8⟩ : ProofRun).desc.host.val (⟨(cmdOp 1 0x70 0 0xFF 0 0 0 0), [5], 8⟩ :
    ProofRun).desc.ring.val).running = some ⟨(⟨(cmdOp 1 0x70 0 0xFF 0 0 0 0), [5], 8⟩ : ProofRun).desc, 1, 0⟩) ∧ ((⟨(cmdOp 1 0x70 0
    0xFF 0 0 0 0), [5], 8⟩ : ProofRun).desc.writeErr = false) := by decide
theorem witness_PairRolesAndHeartbeats_20 : ((start fun d =>
    { rset (rasReg 0x204) 0x100 (rset (rasReg 0x200) 0x80010000 ((ring 3 d).onBasjo (fun b => b.setRing 0 0 { RingRun.idle with running := some ⟨(cmdOp 1 0x70 0 0xFF 0 0 0 0), 1, 0⟩ }))) with ras := { d.ras with proof := some ⟨(cmdOp 1 0x70 0 0xFF 0 0 0 0), [5], 8⟩ } }).dev.runs
    = true) ∧ ((start fun d =>
    { rset (rasReg 0x204) 0x100 (rset (rasReg 0x200) 0x80010000 ((ring 3 d).onBasjo (fun b => b.setRing 0 0 { RingRun.idle with running := some ⟨(cmdOp 1 0x70 0 0xFF 0 0 0 0), 1, 0⟩ }))) with ras := { d.ras with proof := some ⟨(cmdOp 1 0x70 0 0xFF 0 0 0 0), [5], 8⟩ } }).dev.ras.proof
    = some (⟨(cmdOp 1 0x70 0 0xFF 0 0 0 0), [5], 8⟩ : ProofRun)) ∧ ((start fun d =>
    { rset (rasReg 0x204) 0x100 (rset (rasReg 0x200) 0x80010000 ((ring 3 d).onBasjo (fun b => b.setRing 0 0 { RingRun.idle with running := some ⟨(cmdOp 1 0x70 0 0xFF 0 0 0 0), 1, 0⟩ }))) with ras := { d.ras with proof := some ⟨(cmdOp 1 0x70 0 0xFF 0 0 0 0), [5], 8⟩ } }).dev.redOn
    = true) ∧ ((start fun d =>
    { rset (rasReg 0x204) 0x100 (rset (rasReg 0x200) 0x80010000 ((ring 3 d).onBasjo (fun b => b.setRing 0 0 { RingRun.idle with running := some ⟨(cmdOp 1 0x70 0 0xFF 0 0 0 0), 1, 0⟩ }))) with ras := { d.ras with proof := some ⟨(cmdOp 1 0x70 0 0xFF 0 0 0 0), [5], 8⟩ } }).dev.active
    = false) ∧ ((start fun d =>
    { rset (rasReg 0x204) 0x100 (rset (rasReg 0x200) 0x80010000 ((ring 3 d).onBasjo (fun b => b.setRing 0 0 { RingRun.idle with running := some ⟨(cmdOp 1 0x70 0 0xFF 0 0 0 0), 1, 0⟩ }))) with ras := { d.ras with proof := some ⟨(cmdOp 1 0x70 0 0xFF 0 0 0 0), [5], 8⟩ } }).dev.rb
    (rasReg 0x204) 0 = false) ∧ ((start fun d =>
    { rset (rasReg 0x204) 0x100 (rset (rasReg 0x200) 0x80010000 ((ring 3 d).onBasjo (fun b => b.setRing 0 0 { RingRun.idle with running := some ⟨(cmdOp 1 0x70 0 0xFF 0 0 0 0), 1, 0⟩ }))) with ras := { d.ras with proof := some ⟨(cmdOp 1 0x70 0 0xFF 0 0 0 0), [5], 8⟩ } }).dev.rb
    (rasReg 0x204) 1 = false) ∧ (max (start fun d =>
    { rset (rasReg 0x204) 0x100 (rset (rasReg 0x200) 0x80010000 ((ring 3 d).onBasjo (fun b => b.setRing 0 0 { RingRun.idle with running := some ⟨(cmdOp 1 0x70 0 0xFF 0 0 0 0), 1, 0⟩ }))) with ras := { d.ras with proof := some ⟨(cmdOp 1 0x70 0 0xFF 0 0 0 0), [5], 8⟩ } }).dev.ras.edgeAt
    (start fun d =>
    { rset (rasReg 0x204) 0x100 (rset (rasReg 0x200) 0x80010000 ((ring 3 d).onBasjo (fun b => b.setRing 0 0 { RingRun.idle with running := some ⟨(cmdOp 1 0x70 0 0xFF 0 0 0 0), 1, 0⟩ }))) with ras := { d.ras with proof := some ⟨(cmdOp 1 0x70 0 0xFF 0 0 0 0), [5], 8⟩ } }).dev.ras.frameAt
    + (start fun d =>
    { rset (rasReg 0x204) 0x100 (rset (rasReg 0x200) 0x80010000 ((ring 3 d).onBasjo (fun b => b.setRing 0 0 { RingRun.idle with running := some ⟨(cmdOp 1 0x70 0 0xFF 0 0 0 0), 1, 0⟩ }))) with ras := { d.ras with proof := some ⟨(cmdOp 1 0x70 0 0xFF 0 0 0 0), [5], 8⟩ } }).dev.rf
    (rasReg 0x200) 15 0 * usRaw ≤ (start fun d =>
    { rset (rasReg 0x204) 0x100 (rset (rasReg 0x200) 0x80010000 ((ring 3 d).onBasjo (fun b => b.setRing 0 0 { RingRun.idle with running := some ⟨(cmdOp 1 0x70 0 0xFF 0 0 0 0), 1, 0⟩ }))) with ras := { d.ras with proof := some ⟨(cmdOp 1 0x70 0 0xFF 0 0 0 0), [5], 8⟩ } }).dev.now)
    ∧ ((start fun d =>
    { rset (rasReg 0x204) 0x100 (rset (rasReg 0x200) 0x80010000 ((ring 3 d).onBasjo (fun b => b.setRing 0 0 { RingRun.idle with running := some ⟨(cmdOp 1 0x70 0 0xFF 0 0 0 0), 1, 0⟩ }))) with ras := { d.ras with proof := some ⟨(cmdOp 1 0x70 0 0xFF 0 0 0 0), [5], 8⟩ } }).dev.basjo.ringType
    (⟨(cmdOp 1 0x70 0 0xFF 0 0 0 0), [5], 8⟩ : ProofRun).desc.host.val (⟨(cmdOp 1 0x70 0 0xFF 0 0 0 0), [5], 8⟩ :
    ProofRun).desc.ring.val = 3) ∧ ((start fun d =>
    { rset (rasReg 0x204) 0x100 (rset (rasReg 0x200) 0x80010000 ((ring 3 d).onBasjo (fun b => b.setRing 0 0 { RingRun.idle with running := some ⟨(cmdOp 1 0x70 0 0xFF 0 0 0 0), 1, 0⟩ }))) with ras := { d.ras with proof := some ⟨(cmdOp 1 0x70 0 0xFF 0 0 0 0), [5], 8⟩ } }).dev.basjo.ringActive
    (⟨(cmdOp 1 0x70 0 0xFF 0 0 0 0), [5], 8⟩ : ProofRun).desc.host.val (⟨(cmdOp 1 0x70 0 0xFF 0 0 0 0), [5], 8⟩ :
    ProofRun).desc.ring.val = true) ∧ (((start fun d =>
    { rset (rasReg 0x204) 0x100 (rset (rasReg 0x200) 0x80010000 ((ring 3 d).onBasjo (fun b => b.setRing 0 0 { RingRun.idle with running := some ⟨(cmdOp 1 0x70 0 0xFF 0 0 0 0), 1, 0⟩ }))) with ras := { d.ras with proof := some ⟨(cmdOp 1 0x70 0 0xFF 0 0 0 0), [5], 8⟩ } }).dev.basjo.ring
    (⟨(cmdOp 1 0x70 0 0xFF 0 0 0 0), [5], 8⟩ : ProofRun).desc.host.val (⟨(cmdOp 1 0x70 0 0xFF 0 0 0 0), [5], 8⟩ :
    ProofRun).desc.ring.val).running = some ⟨(⟨(cmdOp 1 0x70 0 0xFF 0 0 0 0), [5], 8⟩ : ProofRun).desc, 1, 0⟩) ∧ ((⟨(cmdOp 1 0x70 0
    0xFF 0 0 0 0), [5], 8⟩ : ProofRun).desc.writeErr = false) := by decide
theorem witness_MatrixAndAuditCommands_1 : (State.reset.dev.runs = true) ∧ (reaches (⟨3, true⟩ : Acc).origin 17 = true) ∧
    (State.reset.dev.permitted 0 (⟨3, true⟩ : Acc).origin 17 = true) ∧ (matrixWriter (⟨3, true⟩ : Acc) = true) := by decide
theorem witness_MatrixAndAuditCommands_2 : (State.reset.dev.runs = true) ∧ (reaches coreA.origin 17 = true) ∧
    (State.reset.dev.permitted 0 coreA.origin 17 = true) ∧ (matrixWriter coreA = false) := by decide
theorem witness_MatrixAndAuditCommands_3 : ((start fun d =>
    { ring 3 d with audit := { d.audit with entries := [⟨0, 0, 0, 0, 0, 0, 0⟩], next := 1 } }).starts (cmdOp 1 0x71 0 0x1000 0 1 0
    0) 0x71 0 1 [all64, 0xFFFFFFFF, 0x7FFF, 0, 0] = true) ∧ (1 ≤ fld (cmdOp 1 0x71 0 0x1000 0 1 0 0).p24 14 0) ∧ (fld (cmdOp 1 0x71
    0 0x1000 0 1 0 0).p24 14 0 ≤ 16384) ∧ (0 = (BitVec.ofNat 32 (fld (cmdOp 1 0x71 0 0x1000 0 1 0 0).p16 31 0) - (start fun d =>
    { ring 3 d with audit := { d.audit with entries := [⟨0, 0, 0, 0, 0, 0, 0⟩], next := 1 } }).dev.audit.oldest).toNat) ∧ (0 <
    (start fun d =>
    { ring 3 d with audit := { d.audit with entries := [⟨0, 0, 0, 0, 0, 0, 0⟩], next := 1 } }).dev.audit.entries.length) := by
    decide
theorem witness_MatrixAndAuditCommands_4 : ((start (ring 3)).starts (cmdOp 2 0x71 0 0x1000 0 0 0 0) 0x71 0 2 [all64, all64, all64,
    all64, all64] = true) ∧ ((start (ring 3)).dev.idSeeds = some ((start (ring 3)).dev.idSeeds.getD ([], []))) ∧ ((start (ring
    3)).dev.rngFailed = false) := ⟨by decide, rfl, by decide⟩
theorem witness_MatrixAndAuditCommands_5 : ((start (ring 3)).starts (cmdOp 3 0x71 0 0x1000 0 0 0 0) 0x71 0 3 [all64, 0x7FFF, all64,
    all64, 0] = true) ∧ ((start (ring 3)).dev.auditKey = some ((start (ring 3)).dev.auditKey.getD [])) ∧ ((⟨[], false⟩ :
    HostData).err = false) ∧ (64 * fld (cmdOp 3 0x71 0 0x1000 0 0 0 0).p16 14 0 ≤ (⟨[], false⟩ : HostData).octets.length) ∧ ((none :
    Option Nat) = badEntry ((start (ring 3)).dev.auditKey.getD []) (⟨[], false⟩ : HostData).octets (fld (cmdOp 3 0x71 0 0x1000 0 0 0
    0).p16 14 0) (BitVec.ofNat 128 ((cmdOp 3 0x71 0 0x1000 0 0 0 0).p24.toNat * 2 ^ 64 + (cmdOp 3 0x71 0 0x1000 0 0 0
    0).p32.toNat))) := ⟨by decide, rfl, by decide, by decide, rfl⟩
theorem witness_MatrixAndAuditCommands_6 : (State.reset.dev.runs = true) ∧ (reaches (⟨7, false⟩ : Acc).origin 17 = false) := by
    decide
theorem witness_MatrixAndAuditCommands_7 : ((start (ring 3)).starts (cmdOp 1 0x71 0 0x1000 0 0 0 0) 0x71 0 1 [all64, 0xFFFFFFFF,
    0x7FFF, 0, 0] = true) ∧ (fld (cmdOp 1 0x71 0 0x1000 0 0 0 0).p24 14 0 = 0 ∨ 16384 < fld (cmdOp 1 0x71 0 0x1000 0 0 0 0).p24 14
    0) := by decide
theorem witness_MatrixAndAuditCommands_8 : ((start (ring 3)).starts (cmdOp 1 0x71 0 0x1000 99999 1 0 0) 0x71 0 1 [all64, 0xFFFFFFFF,
    0x7FFF, 0, 0] = true) ∧ (1 ≤ fld (cmdOp 1 0x71 0 0x1000 99999 1 0 0).p24 14 0) ∧ (fld (cmdOp 1 0x71 0 0x1000 99999 1 0 0).p24 14
    0 ≤ 16384) ∧ ((start (ring 3)).dev.audit.entries.length ≤ (BitVec.ofNat 32 (fld (cmdOp 1 0x71 0 0x1000 99999 1 0 0).p16 31 0) -
    (start (ring 3)).dev.audit.oldest).toNat) := by decide
theorem witness_MatrixAndAuditCommands_9 : ((start fun d => { ring 3 d with burl := { d.burl with liveRoot := none } }).starts
    (cmdOp 2 0x71 0 0x1000 0 0 0 0) 0x71 0 2 [all64, all64, all64, all64, all64] = true) ∧ ((start fun d =>
    { ring 3 d with burl := { d.burl with liveRoot := none } }).dev.idSeeds = none) := by decide
theorem witness_UpdateCommandsRun_1 : ((start (ring 3)).starts (cmdOp 1 0x72 0 0x1000 0x1000000000000001 0 0 0) 0x72 0 1 [all64,
    0xFF00FFFF00001FFF, 0, 0, 0] = true) ∧ (writableKind (fld (cmdOp 1 0x72 0 0x1000 0x1000000000000001 0 0 0).p16 63 56) = true) ∧
    (1 ≤ fld (cmdOp 1 0x72 0 0x1000 0x1000000000000001 0 0 0).p16 12 0) ∧ (fld (cmdOp 1 0x72 0 0x1000 0x1000000000000001 0 0 0).p16
    12 0 ≤ 4096) ∧ ((cmdOp 1 0x72 0 0x1000 0x1000000000000001 0 0 0).p8.toNat % 8 = 0) ∧ ((start (ring 3)).dev.slotLocked (fld
    (cmdOp 1 0x72 0 0x1000 0x1000000000000001 0 0 0).p16 63 56) = false) ∧ ((⟨List.replicate 4096 0, false⟩ : HostData).err = false)
    ∧ (4096 * fld (cmdOp 1 0x72 0 0x1000 0x1000000000000001 0 0 0).p16 12 0 ≤ (⟨List.replicate 4096 0, false⟩ :
    HostData).octets.length) ∧ (fld (cmdOp 1 0x72 0 0x1000 0x1000000000000001 0 0 0).p16 47 32 + fld (cmdOp 1 0x72 0 0x1000
    0x1000000000000001 0 0 0).p16 12 0 ≤ Config.slotBlocks (fld (cmdOp 1 0x72 0 0x1000 0x1000000000000001 0 0 0).p16 63 56)) ∧ (0 <
    fld (cmdOp 1 0x72 0 0x1000 0x1000000000000001 0 0 0).p16 12 0) := ⟨by decide, by decide, by decide, by decide, by decide, by
    decide, by decide, by decide, Nat.le_add_left _ _, by decide⟩
theorem witness_UpdateCommandsRun_2 : ((start fun d =>
    { ring 3 d with upd := { d.upd with flash := [((2 * 16 + 1) * 2 ^ 20, some (List.replicate 4096 (0 : BitVec 8)))] } }).starts
    (cmdOp 2 0x72 0 0x10 0 0 0 0) 0x72 0 2 [0xFF, 0, 0, 0, 0] = true) ∧ (partKind (fld (cmdOp 2 0x72 0 0x10 0 0 0 0).p8 7 0) = true)
    ∧ (((start fun d =>
    { ring 3 d with upd := { d.upd with flash := [((2 * 16 + 1) * 2 ^ 20, some (List.replicate 4096 (0 : BitVec 8)))] } }).dev.block
    (slotBase (fld (cmdOp 2 0x72 0 0x10 0 0 0 0).p8 7 0) ((start fun d =>
    { ring 3 d with upd := { d.upd with flash := [((2 * 16 + 1) * 2 ^ 20, some (List.replicate 4096 (0 : BitVec 8)))] } }).dev.inactiveSlot
    (fld (cmdOp 2 0x72 0 0x10 0 0 0 0).p8 7 0)))).isEmpty = false) := by decide
theorem witness_UpdateCommandsRun_3 : ((start fun d =>
    { ring 3 d with upd := { d.upd with flash := [((2 * 0 + 1) * 2 ^ 20, some (List.replicate 4096 (0 : BitVec 8)))] } }).starts
    (cmdOp 2 0x72 0 0 0 0 0 0) 0x72 0 2 [0xFF, 0, 0, 0, 0] = true) ∧ ((fld (cmdOp 2 0x72 0 0 0 0 0 0).p8 7 0) = 0) ∧ ((start fun d
    =>
    { ring 3 d with upd := { d.upd with flash := [((2 * 0 + 1) * 2 ^ 20, some (List.replicate 4096 (0 : BitVec 8)))] } }).dev.slotLocked
    0 = false) ∧ (((start fun d =>
    { ring 3 d with upd := { d.upd with flash := [((2 * 0 + 1) * 2 ^ 20, some (List.replicate 4096 (0 : BitVec 8)))] } }).dev.block
    (slotBase 0 ((start fun d =>
    { ring 3 d with upd := { d.upd with flash := [((2 * 0 + 1) * 2 ^ 20, some (List.replicate 4096 (0 : BitVec 8)))] } }).dev.inactiveSlot
    0))).isEmpty = false) := by decide
theorem witness_UpdateCommandsRun_4 : ((start fun d =>
    { ring 3 d with upd := { d.upd with flash := [((2 * 16 + 1) * 2 ^ 20, some (List.replicate 4096 (0 : BitVec 8)))] } }).starts
    (cmdOp 3 0x72 0 0x10 0 0 0 0) 0x72 0 3 [0xFF, 0, 0, 0, 0] = true) ∧ (partKind (fld (cmdOp 3 0x72 0 0x10 0 0 0 0).p8 7 0) = true)
    ∧ ((start fun d =>
    { ring 3 d with upd := { d.upd with flash := [((2 * 16 + 1) * 2 ^ 20, some (List.replicate 4096 (0 : BitVec 8)))] } }).dev.updPhase
    ≠ 4) ∧ (((fld (cmdOp 3 0x72 0 0x10 0 0 0 0).p8 7 0) ≠ 0x10 → (start fun d =>
    { ring 3 d with upd := { d.upd with flash := [((2 * 16 + 1) * 2 ^ 20, some (List.replicate 4096 (0 : BitVec 8)))] } }).dev.mode
    = 5)) ∧ (((start fun d =>
    { ring 3 d with upd := { d.upd with flash := [((2 * 16 + 1) * 2 ^ 20, some (List.replicate 4096 (0 : BitVec 8)))] } }).dev.block
    (slotBase (fld (cmdOp 3 0x72 0 0x10 0 0 0 0).p8 7 0) ((start fun d =>
    { ring 3 d with upd := { d.upd with flash := [((2 * 16 + 1) * 2 ^ 20, some (List.replicate 4096 (0 : BitVec 8)))] } }).dev.inactiveSlot
    (fld (cmdOp 3 0x72 0 0x10 0 0 0 0).p8 7 0)))).isEmpty = false) := by decide
theorem witness_UpdateCommandsRun_5 : ((start fun d =>
    { ring 3 d with upd := { d.upd with flash := [((2 * 0 + 1) * 2 ^ 20, some (List.replicate 4096 (0 : BitVec 8)))] } }).starts
    (cmdOp 4 0x72 0 0 0 0 0 0) 0x72 0 4 noParams = true) ∧ ((start fun d =>
    { ring 3 d with upd := { d.upd with flash := [((2 * 0 + 1) * 2 ^ 20, some (List.replicate 4096 (0 : BitVec 8)))] } }).dev.updPhase
    ≠ 4) ∧ ((start fun d =>
    { ring 3 d with upd := { d.upd with flash := [((2 * 0 + 1) * 2 ^ 20, some (List.replicate 4096 (0 : BitVec 8)))] } }).dev.inactiveSlot
    0 ≠ (start fun d =>
    { ring 3 d with upd := { d.upd with flash := [((2 * 0 + 1) * 2 ^ 20, some (List.replicate 4096 (0 : BitVec 8)))] } }).dev.runSlot)
    ∧ ((start fun d =>
    { ring 3 d with upd := { d.upd with flash := [((2 * 0 + 1) * 2 ^ 20, some (List.replicate 4096 (0 : BitVec 8)))] } }).dev.journalNext
    < 256) ∧ (((start fun d =>
    { ring 3 d with upd := { d.upd with flash := [((2 * 0 + 1) * 2 ^ 20, some (List.replicate 4096 (0 : BitVec 8)))] } }).dev.block
    (slotBase 0 ((start fun d =>
    { ring 3 d with upd := { d.upd with flash := [((2 * 0 + 1) * 2 ^ 20, some (List.replicate 4096 (0 : BitVec 8)))] } }).dev.inactiveSlot
    0))).isEmpty = false) ∧ ((start fun d =>
    { ring 3 d with upd := { d.upd with flash := [((2 * 0 + 1) * 2 ^ 20, some (List.replicate 4096 (0 : BitVec 8)))] } }).dev.upd.journalSpares
    + 1 ≤ 32) := by decide
theorem witness_UpdateCommandsRun_6 : ((start (rset (updReg 0) 0x4010000)).opens coreA (updReg 0x14) = true) ∧ ((start (rset (updReg
    0) 0x4010000)).clocked (updReg 0x14) = true) ∧ ((start (rset (updReg 0) 0x4010000)).dev.rb (updReg 0) 16 = true) := by decide
theorem witness_UpdateCommandsRun_7 : ((start (ring 3)).starts (cmdOp 1 0x72 0 0x1000 0x1000000000000000 0 0 0) 0x72 0 1 [all64,
    0xFF00FFFF00001FFF, 0, 0, 0] = true) ∧ (writableKind (fld (cmdOp 1 0x72 0 0x1000 0x1000000000000000 0 0 0).p16 63 56) = false ∨
    fld (cmdOp 1 0x72 0 0x1000 0x1000000000000000 0 0 0).p16 12 0 = 0 ∨ 4096 < fld (cmdOp 1 0x72 0 0x1000 0x1000000000000000 0 0
    0).p16 12 0 ∨ (cmdOp 1 0x72 0 0x1000 0x1000000000000000 0 0 0).p8.toNat % 8 ≠ 0) := by decide
theorem witness_UpdateCommandsRun_8 : ((start fun d => rset (updReg 0) 0x4000000 (ring 3 d)).starts (cmdOp 1 0x72 0 0x1000 1 0 0 0)
    0x72 0 1 [all64, 0xFF00FFFF00001FFF, 0, 0, 0] = true) ∧ (writableKind (fld (cmdOp 1 0x72 0 0x1000 1 0 0 0).p16 63 56) = true) ∧
    (1 ≤ fld (cmdOp 1 0x72 0 0x1000 1 0 0 0).p16 12 0) ∧ (fld (cmdOp 1 0x72 0 0x1000 1 0 0 0).p16 12 0 ≤ 4096) ∧ ((cmdOp 1 0x72 0
    0x1000 1 0 0 0).p8.toNat % 8 = 0) ∧ ((start fun d => rset (updReg 0) 0x4000000 (ring 3 d)).dev.slotLocked (fld (cmdOp 1 0x72 0
    0x1000 1 0 0 0).p16 63 56) = true) := by decide
theorem witness_UpdateCommandsRun_9 : ((start (ring 3)).starts (cmdOp 2 0x72 0 0x77 0 0 0 0) 0x72 0 2 [0xFF, 0, 0, 0, 0] = true) ∧
    (writableKind (fld (cmdOp 2 0x72 0 0x77 0 0 0 0).p8 7 0) = false) := by decide
theorem witness_UpdateCommandsRun_10 : ((start fun d =>
    { ring 3 d with upd := { d.upd with flash := [(33 * 2 ^ 20, some [])] } }).starts (cmdOp 2 0x72 0 0x10 0 0 0 0) 0x72 0 2 [0xFF,
    0, 0, 0, 0] = true) ∧ (partKind (fld (cmdOp 2 0x72 0 0x10 0 0 0 0).p8 7 0) = true) ∧ (((start fun d =>
    { ring 3 d with upd := { d.upd with flash := [(33 * 2 ^ 20, some [])] } }).dev.block (slotBase (fld (cmdOp 2 0x72 0 0x10 0 0 0
    0).p8 7 0) ((start fun d => { ring 3 d with upd := { d.upd with flash := [(33 * 2 ^ 20, some [])] } }).dev.inactiveSlot (fld
    (cmdOp 2 0x72 0 0x10 0 0 0 0).p8 7 0)))).isEmpty = true) := by decide
theorem witness_UpdateCommandsRun_11 : ((start (ring 3)).starts (cmdOp 3 0x72 0 0x11 0 0 0 0) 0x72 0 3 [0xFF, 0, 0, 0, 0] = true) ∧
    (partKind (fld (cmdOp 3 0x72 0 0x11 0 0 0 0).p8 7 0) = true) ∧ ((start (ring 3)).dev.updPhase = 4 ∨ ((fld (cmdOp 3 0x72 0 0x11 0
    0 0 0).p8 7 0) ≠ 0x10 ∧ (start (ring 3)).dev.mode ≠ 5)) := by decide
theorem witness_UpdateCommandsRun_12 : ((start fun d => rset (updReg 0) 0x4000000 (ring 3 d)).starts (cmdOp 4 0x72 0 0 0 0 0 0) 0x72
    0 4 noParams = true) ∧ ((start fun d => rset (updReg 0) 0x4000000 (ring 3 d)).dev.updPhase = 4) := by decide
theorem witness_UpdateCommandsRun_13 : ((start fun d =>
    { ring 3 d with upd := { d.upd with journal := (List.range 256).map (fun j => (j, ((⟨1, 0⟩ : JRow), JRow.blank))) } }).starts
    (cmdOp 4 0x72 0 0 0 0 0 0) 0x72 0 4 noParams = true) ∧ ((start fun d =>
    { ring 3 d with upd := { d.upd with journal := (List.range 256).map (fun j => (j, ((⟨1, 0⟩ : JRow), JRow.blank))) } }).dev.updPhase
    ≠ 4) ∧ ((start fun d =>
    { ring 3 d with upd := { d.upd with journal := (List.range 256).map (fun j => (j, ((⟨1, 0⟩ : JRow), JRow.blank))) } }).dev.inactiveSlot
    0 ≠ (start fun d =>
    { ring 3 d with upd := { d.upd with journal := (List.range 256).map (fun j => (j, ((⟨1, 0⟩ : JRow), JRow.blank))) } }).dev.runSlot)
    ∧ ((start fun d =>
    { ring 3 d with upd := { d.upd with journal := (List.range 256).map (fun j => (j, ((⟨1, 0⟩ : JRow), JRow.blank))) } }).dev.journalNext
    = 256) := by decide
theorem witness_UpdateCommandsRun_14 : ((start (ring 3)).starts (cmdOp 4 0x72 0 0 0 0 0 0) 0x72 0 4 noParams = true) ∧ ((start (ring
    3)).dev.updPhase ≠ 4) ∧ ((start (ring 3)).dev.inactiveSlot 0 ≠ (start (ring 3)).dev.runSlot) ∧ ((start (ring 3)).dev.journalNext
    < 256) := by decide
theorem witness_UpdateCommandsRun_15 : ((start fun d =>
    { ring 3 d with upd := { d.upd with flash := [((2 * 0 + 1) * 2 ^ 20, some (List.replicate 4096 (0 : BitVec 8)))] } }).starts
    (cmdOp 4 0x72 0 0 0 0 0 0) 0x72 0 4 noParams = true) ∧ ((start fun d =>
    { ring 3 d with upd := { d.upd with flash := [((2 * 0 + 1) * 2 ^ 20, some (List.replicate 4096 (0 : BitVec 8)))] } }).dev.updPhase
    ≠ 4) ∧ ((start fun d =>
    { ring 3 d with upd := { d.upd with flash := [((2 * 0 + 1) * 2 ^ 20, some (List.replicate 4096 (0 : BitVec 8)))] } }).dev.inactiveSlot
    0 ≠ (start fun d =>
    { ring 3 d with upd := { d.upd with flash := [((2 * 0 + 1) * 2 ^ 20, some (List.replicate 4096 (0 : BitVec 8)))] } }).dev.runSlot)
    ∧ ((start fun d =>
    { ring 3 d with upd := { d.upd with flash := [((2 * 0 + 1) * 2 ^ 20, some (List.replicate 4096 (0 : BitVec 8)))] } }).dev.journalNext
    < 256) ∧ (((start fun d =>
    { ring 3 d with upd := { d.upd with flash := [((2 * 0 + 1) * 2 ^ 20, some (List.replicate 4096 (0 : BitVec 8)))] } }).dev.block
    (slotBase 0 ((start fun d =>
    { ring 3 d with upd := { d.upd with flash := [((2 * 0 + 1) * 2 ^ 20, some (List.replicate 4096 (0 : BitVec 8)))] } }).dev.inactiveSlot
    0))).isEmpty = false) ∧ (32 < (start fun d =>
    { ring 3 d with upd := { d.upd with flash := [((2 * 0 + 1) * 2 ^ 20, some (List.replicate 4096 (0 : BitVec 8)))] } }).dev.upd.journalSpares
    + 33) := by decide
theorem witness_UpdateCommandsRun_16 : ((start id).opens coreA (updReg 0x14) = true) ∧ ((start id).clocked (updReg 0x14) = true) ∧
    ((start id).dev.rb (updReg 0) 16 = false) := by decide
theorem witness_ReservationsStayWithinTheBuffer_1 : (State.reset.opens cpu (trunkReg (0x1000 + 0x20 * (3 : Fin 40).val)) = true) ∧
    (rsvPorts.foldl (fun x k => if k = (3 : Fin 40).val then x else x + State.reset.dev.rsv k) 0 + fld (100 : BitVec 32) 16 0 ≤
    49152) := by decide
theorem witness_ReservationsStayWithinTheBuffer_2 : (State.reset.opens cpu (trunkReg (0x1000 + 0x20 * (3 : Fin 40).val)) = true) ∧
    (49152 < rsvPorts.foldl (fun x k => if k = (3 : Fin 40).val then x else x + State.reset.dev.rsv k) 0 + fld (0x1FFFF : BitVec 32)
    16 0) := by decide
theorem witness_ReservationsStayWithinTheBuffer_3 : ((rsvPorts.foldl (fun x k => x + State.reset.dev.rsv k) 0 ≤ 49152)) ∧ (exec
    (.rsvWrite cpu (3 : Fin 40) (100 : BitVec 32)) State.reset = .next (after (.rsvWrite cpu 3 100) State.reset)) := ⟨by decide,
    rfl⟩
theorem witness_SeedWaitsForEmptyReplicas_1 : (State.reset.opens cpu 0x221004 = true) ∧ ((groveList State.reset.dev.variant).all
    (fun k => decide (State.reset.dev.rf (groveReg k 0x200) 17 0 = 0)) = true) := by decide
theorem witness_SeedWaitsForEmptyReplicas_2 : ((start (rset (groveReg 0 0x200) 3)).opens cpu 0x221004 = true) ∧ ((groveList (start
    (rset (groveReg 0 0x200) 3)).dev.variant).all (fun k => decide ((start (rset (groveReg 0 0x200) 3)).dev.rf (groveReg k 0x200) 17
    0 = 0)) = false) := by decide

/-! ## Witnesses that hold data no computation can give -/

/-- A buffer that holds octets from an offset on. -/
def holding (off : Nat) : List (BitVec 8) → Store (BitVec 8)
  | [] => []
  | b :: l => (off, b) :: holding (off + 1) l

theorem holding_get (l : List (BitVec 8)) : ∀ off k, Store.get 0 (holding off l) (off + k) = l.getD k 0 := by
  induction l with
  | nil => intro off k; simp [holding, Store.get]
  | cons b l ih =>
    intro off k
    cases k with
    | zero => simp [holding, Store.get]
    | succ k =>
      have h := ih (off + 1) k
      simp only [holding, Store.get, show off + (k + 1) ≠ off by omega, if_false]
      rw [show off + (k + 1) = off + 1 + k by omega, h]; simp

theorem holding_octets (off : Nat) (l : List (BitVec 8)) : getOctets (holding off l) off l.length = l := by
  apply List.ext_getElem
  · simp [getOctets]
  · intro i h1 h2
    simp only [getOctets, List.getElem_map, List.getElem_range]
    rw [holding_get, List.getD_eq_getElem?_getD, List.getElem?_eq_getElem h2]; rfl

/-- A calibration message for this Heartwood, of CAL_SEQ 1. -/
def calMsg : List (BitVec 8) :=
  ascii "TLTRCAL1" ++ hwUidBytes ++ [1, 0, 0, 0] ++ [0xE8, 3, 0, 0] ++ [0xE8, 3, 0, 0] ++ [20, 0] ++ zeros 3423

theorem calMsg_length : calMsg.length = 3453 := by
  simp only [calMsg, List.length_append, zeros, List.length_replicate]; rfl

/-- Heartwood with that message staged and a CALIBRATE request for its length. -/
def calState : State := hw fun h => { mbox 8 4 [3453] h with staging := holding 0 calMsg }

theorem calState_staged : getOctets calState.heart.staging 0 (prm calState.heart.params 0 4) = calMsg := by
  have h : prm calState.heart.params 0 4 = 3453 := by decide
  rw [h, ← calMsg_length]; exact holding_octets 0 calMsg

theorem witness_MailboxStagesCalibratesAndActivates_2 : ∃ (s : State) (ok : Bool), s.asks 8 4 = true ∧ prm s.heart.params 0 4 ≤ 65536 ∧
    s.heart.rb 0x80 15 = false ∧ s.heart.calNext = [] ∧
    s.heart.rf 0x8C 10 0 + calEntries (getOctets s.heart.staging 0 (prm s.heart.params 0 4)) ≤ 1024 ∧
    (s.heart.reg 0x88).toNat < 0xFFFFFFFF ∧
    ((getOctets s.heart.staging 0 (prm s.heart.params 0 4)).drop 8).take 8 = hwUidBytes ∧
    msgNat (getOctets s.heart.staging 0 (prm s.heart.params 0 4)) 16 4 = (s.heart.reg 0x88).toNat + 1 ∧
    calInRange (getOctets s.heart.staging 0 (prm s.heart.params 0 4)) = true ∧
    ((msgNat (getOctets s.heart.staging 0 (prm s.heart.params 0 4)) 33 1).testBit 0 = false ∨
      (keyUnwrap Config.transportKey (((getOctets s.heart.staging 0 (prm s.heart.params 0 4)).drop 40).take 40)).isSome = true) ∧
    ok = s.heart.calVerified (getOctets s.heart.staging 0 (prm s.heart.params 0 4)) := by
  refine ⟨calState, _, by decide, by decide, by decide, by decide, ?_, by decide, ?_, ?_, ?_, .inl ?_, rfl⟩
  · rw [calState_staged]; decide
  · rw [calState_staged]; rfl
  · rw [calState_staged]; decide
  · rw [calState_staged]; simp only [calInRange, calMsg_length]; decide
  · rw [calState_staged]; decide

/-- A round, a block and the whole hash keep the number of words. -/
theorem shaRound_length (v : List (BitVec 64)) (k : BitVec 64 × BitVec 64) : (shaRound v k).length = v.length := by
  unfold shaRound; split <;> rfl
theorem shaRounds_length (l : List (BitVec 64 × BitVec 64)) : ∀ v : List (BitVec 64), (l.foldl shaRound v).length = v.length := by
  induction l with
  | nil => intro v; rfl
  | cons k l ih => intro v; rw [List.foldl_cons, ih, shaRound_length]
theorem shaBlocks_length (l : List (List Byte)) : ∀ h : List (BitVec 64), (l.foldl shaBlock h).length = h.length := by
  induction l with
  | nil => intro h; rfl
  | cons b l ih => intro h; rw [List.foldl_cons, ih]; simp [shaBlock, shaRounds_length]
theorem flatMap_words (l : List (BitVec 64)) : (l.flatMap fun w => beBytes 8 w.toNat).length = 8 * l.length := by
  induction l with
  | nil => rfl
  | cons w l ih => simp only [List.flatMap_cons, List.length_append, List.length_cons, ih]; simp [beBytes, leBytes]; omega
theorem sha512_length (m : List Byte) : (sha512 m).length = 64 := by
  simp only [sha512, flatMap_words, shaBlocks_length]; rfl

/-- A Heartwood image with a body of one block of zeros. -/
def bareImage : List (BitVec 8) := ascii "TLTRIMG1" ++ [3] ++ zeros 3 ++ [1] ++ zeros 115 ++ sha512 (zeros 4092) ++ zeros 12096

theorem bareImage_length : bareImage.length = 12288 := by
  simp only [bareImage, List.length_append, zeros, List.length_replicate, sha512_length]; rfl

theorem bareImage_blocks : msgNat bareImage 12 2 = 1 := by decide

theorem bareImage_digest : (bareImage.drop 128).take 64 = sha512 (zeros 4092) := by
  have h : (ascii "TLTRIMG1" ++ [3] ++ zeros 3 ++ [1] ++ zeros 115 : List (BitVec 8)).length = 128 := by decide
  rw [bareImage, List.append_assoc, List.drop_append, List.drop_eq_nil_of_le (Nat.le_of_eq h), h, List.nil_append, Nat.sub_self,
    List.drop_zero, List.take_append, List.take_of_length_le (Nat.le_of_eq (sha512_length _)), sha512_length, Nat.sub_self,
    List.take_zero, List.append_nil]

theorem bareImage_tail : bareImage.drop 4096 = zeros 8192 := by
  have h : (ascii "TLTRIMG1" ++ [3] ++ zeros 3 ++ [1] ++ zeros 115 ++ sha512 (zeros 4092)).length = 192 := by
    rw [List.length_append, sha512_length]; rfl
  rw [bareImage, List.drop_append, List.drop_eq_nil_of_le (by rw [h]; decide), h, List.nil_append, zeros, List.drop_replicate]; rfl

theorem chunks_cons (n k : Nat) (l : List (BitVec 8)) (h : l ≠ []) : chunks n (k + 1) l = l.take n :: chunks n k (l.drop n) := by
  cases l with
  | nil => exact absurd rfl h
  | cons _ _ => rfl

theorem bareImage_body : imageBody bareImage = zeros 4092 := by
  rw [imageBody, bareImage_tail, bareImage_blocks, zeros, List.take_replicate, blocks, List.length_replicate]
  rw [show min (4096 * 1) 8192 = 4095 + 1 from rfl, chunks_cons 4096 4095 _ (by rw [List.replicate_succ]; exact List.cons_ne_nil _ _),
    List.drop_replicate, List.take_replicate, show 4095 + 1 - 4096 = 0 from rfl, List.replicate_zero]
  have e : chunks 4096 4095 ([] : List (BitVec 8)) = [] := rfl
  rw [e, List.flatMap_cons, List.flatMap_nil, List.append_nil, List.take_replicate]; rfl

/-- Heartwood with that image in the inactive slot and an IMAGE_CHECK request for its length. -/
def imageState : State := hw fun h => { mbox 10 4 [12288] h with image := holding (2 ^ 20) bareImage }

theorem imageState_held : imageState.heart.inactive (prm imageState.heart.params 0 4) = bareImage := by
  have h : prm imageState.heart.params 0 4 = 12288 := by decide
  have hs : imageState.heart.slot = 0 := by decide
  rw [h, Heart.inactive, hs, ← bareImage_length]; exact holding_octets (2 ^ 20) bareImage

theorem witness_MailboxStagesCalibratesAndActivates_4 : ∃ (s : State) (img : List (BitVec 8)) (ok : Bool), s.asks 10 4 = true ∧
    prm s.heart.params 0 4 ≤ 917504 ∧ img = s.heart.inactive (prm s.heart.params 0 4) ∧ img.take 8 = ascii "TLTRIMG1" ∧
    msgNat img 8 1 = 3 ∧ msgNat img 12 2 ≠ 0 ∧ ((msgNat img 9 1).testBit 0 = false ∨ (img.drop 24).take 8 = hwUidBytes) ∧ imageWhole img = true ∧
    (s.heart.reg 0x14).toNat ≤ msgNat img 11 1 ∧ s.heart.rb 0x80 15 = false ∧ (s.heart.reg 0x84).toNat < 0xFFFFFFFF ∧
    ok = (vendorSigned (img.take 4096) (img.drop (prm s.heart.params 0 4 - 4096)) &&
      Config.authorityVerify (s.heart.authority.getD Config.authorityKeys) img) := by
  refine ⟨imageState, bareImage, _, by decide, by decide, imageState_held.symm, by decide, by decide, by decide, .inl (by decide), ?_, by decide,
    by decide, by decide, rfl⟩
  rw [imageWhole, bareImage_length, bareImage_body, bareImage_digest, bareImage_blocks]; simp

theorem witness_SensorLinkAlignsAndDelivers_6 : ∃ (h : Heart) (l : HwLink) (v : Nat) (k : List (BitVec 8)),
    h.keys = true ∧ h.pairing = some k ∧ l.wseq = some v ∧ l.fresh = false :=
  ⟨{ Heart.reset with pairing := some (zeros 16) }, { HwLink.reset with wseq := some 5, fresh := false }, 5, zeros 16, rfl, rfl, rfl, rfl⟩

end Sys2Proof.Tests
end

section
/-! SUPPORT. What the lower half of a table word leaves alone. -/
namespace Sys2Proof.Machine

/-- What a write meets before the register it names leaves the clocks as they are: it is no demand (R503) by itself. -/
@[simp] theorem Dev.passAccess_clocks (s : Dev) (a : Acc) (addr : Nat) (assigned cfg : Bool) (old new : List Byte) :
    (s.passAccess a addr assigned cfg old new).1.clocks = s.clocks := by
  unfold Dev.passAccess
  split
  · rfl
  · dsimp only
    split
    · rfl
    · split
      · exact Dev.denied_clocks ..
      · split
        · rfl
        · split <;> rfl

/-- A write of the lower half of a table word is no demand for the unit of the word. -/
@[simp] theorem Dev.writeLower_clocks (s : Dev) (acc : Acc) (w : Nat) (v : Word) : (s.writeLower acc w v).clocks = s.clocks := by
  unfold Dev.writeLower
  dsimp only
  split
  · exact Dev.passAccess_clocks ..
  · exact Dev.passAccess_clocks ..

theorem exec_tableWordLowerWrite (s : State) (a : Acc) (addr value : BitVec 32) (h : s.dev.runs = true) :
    exec (.tableWordLowerWrite a addr value) s = .next { s with dev := s.dev.writeLower a addr.toNat value } :=
  s.onDev_runs (·.writeLower a addr.toNat value) h

end Sys2Proof.Machine
end

section
/-! SUPPORT. The refutation of `AccessesLand`. -/
namespace Sys2Proof.Machine

/-- Host 0 as an agent. -/
def lowerHalfWriter : Acc := ⟨1, false⟩

/-- The device some time after reset: unit 0 of Bark, which holds the rate limiters, has had no demand for CLK_IDLE (R503). -/
def barkIdle : State := { State.reset with dev := State.reset.dev.clkIdle 0x30 0 }

/-- A command leads from reset to that state. -/
theorem exec_clkIdleExpiry_reset : exec (.clkIdleExpiry 0x30 0) State.reset = .next barkIdle :=
  State.reset.onDev_runs (·.clkIdle 0x30 0) (by decide)

/-- The branch of the unit of RL[0] is stopped there, and demand for it would start it. -/
theorem barkIdle_demand_clocks :
    barkIdle.dev.clocks ≠ (barkIdle.dev.demand (unitOf (rlAddr 0)).1 (unitOf (rlAddr 0)).2).clocks := by decide

/-- Refutes O8: the clause on the lower half of a table word has the clocks change by demand for the unit of the word, and the
model changes nothing but the half held (R17). Host 0 writes the lower half of RL[0] while unit 0 of Bark is stopped for idleness:
its branch stays stopped. -/
theorem not_accessesLand : ¬ Obligations.AccessesLand := by
  unfold Obligations.AccessesLand
  rintro ⟨-, -, -, -, lowerHalf, -⟩
  obtain ⟨t, ht, -, -, -, hclocks⟩ := lowerHalf barkIdle lowerHalfWriter 0x410000 0 (by decide) (by decide)
  have hexec := exec_tableWordLowerWrite barkIdle lowerHalfWriter 0x410000 0 (by decide)
  injection hexec.symm.trans ht with htarget
  subst htarget
  have hsame := Dev.writeLower_clocks barkIdle.dev lowerHalfWriter 0x410000 0
  exact barkIdle_demand_clocks (hsame.symm.trans hclocks)

end Sys2Proof.Machine
end

section
/-! SUPPORT. Frames of the shared operations of the main die, and how frames are put together. -/
namespace Sys2Proof.Machine

theorem Part.same_trans {s t u : Dev} {p : Part} (h : p.same s t) (h' : p.same t u) : p.same s u := by
  cases p <;> exact Eq.trans h' h

theorem Dev.keeps.trans {s t u : Dev} {l : List Part} (h : s.keeps l t) (h' : t.keeps l u) : s.keeps l u :=
  fun p hp => Part.same_trans (h p hp) (h' p hp)

theorem Dev.keeps.mono {s t : Dev} {l l' : List Part} (h : s.keeps l t) (hl : l ⊆ l') : s.keeps l' t :=
  fun p hp => h p (fun e => hp (hl e))

theorem Dev.onBasjo_keeps (s : Dev) (f : Basjo → Basjo) : s.keeps [.basjo] (s.onBasjo f) := by
  intro p hp
  cases p with
  | basjo => exact absurd (List.mem_singleton_self _) hp
  | _ => rfl

theorem Dev.readGives_keeps (s : Dev) (o : Nat) (v : Word) : s.keeps [.reads] (s.readGives o v) := by
  intro p hp
  cases p with
  | reads => exact absurd (List.mem_singleton_self _) hp
  | _ => rfl

theorem Dev.hold_keeps (s : Dev) (x : HeldAccess) : s.keeps [.clocks] (s.hold x) := by
  intro p hp
  cases p with
  | clocks => exact absurd (List.mem_singleton_self _) hp
  | _ => rfl

theorem Dev.log_keeps (s : Dev) (o k cl u op tg : Nat) (x y : List Byte) : s.keeps [.basjo, .audit] (s.log o k cl u op tg x y) := by
  intro p hp
  cases p with
  | basjo | audit => exact absurd (by decide) hp
  | _ => rfl

theorem Dev.readGives_get (s : Dev) (o : Nat) (v : Word) : (s.readGives o v).reads.get 0 o = v := Store.get_put_same _ _ _ _

end Sys2Proof.Machine
end

section
/-! SUPPORT. Vectors: what sending one changes, and what sending every pending one changes (R74, R75, R79). -/
namespace Sys2Proof.Machine

/-- A message of a host port can leave: MSI-X is enabled, the function is not masked and the link is up. -/
def Basjo.sends (b : Basjo) (h : Nat) : Bool := (b.msixFn h).enable && !(b.msixFn h).mask && b.linkUp h

/-- Only vectors and messages differ. -/
def Basjo.vecsOnly (b b' : Basjo) : Prop := b' = { b with vecs := b'.vecs, msgs := b'.msgs }

theorem Basjo.fire_vecsOnly (b : Basjo) (h v : Nat) : b.vecsOnly (b.fire h v) := by
  unfold Basjo.vecsOnly Basjo.fire
  dsimp only
  split
  · rfl
  · split <;> rfl

theorem Basjo.signal_vecsOnly (b : Basjo) (now h v : Nat) : b.vecsOnly (b.signal now h v) := by
  unfold Basjo.signal
  dsimp only
  split
  · exact b.fire_vecsOnly h v
  · rfl

@[simp] theorem Basjo.setVec_vec_same (b : Basjo) (h v : Nat) (x : Vector) : (b.setVec h v x).vec h v = x := Store.get_put_same _ _ _ _

theorem Basjo.setVec_vec_ne (b : Basjo) (h : Nat) {v k : Nat} (x : Vector) (hk : k ≠ v) : (b.setVec h v x).vec h k = b.vec h k :=
  Store.get_put_ne _ _ _ _ (by omega)

/-- With MSI-X disabled or the link down a vector that sends tells nothing (R74, R79). -/
theorem Basjo.fire_of_silent (b : Basjo) (h v : Nat) (hs : ((b.msixFn h).enable && b.linkUp h) = false) :
    b.fire h v = b.setVec h v { b.vec h v with count := 0, since := 0 } :=
  if_pos (by rw [← Bool.not_and, hs]; rfl)

/-- A masked vector that sends becomes pending. -/
theorem Basjo.fire_of_masked (b : Basjo) (h v : Nat) (hs : ((b.msixFn h).enable && b.linkUp h) = true)
    (hm : ((b.vec h v).masked || (b.msixFn h).mask) = true) :
    b.fire h v = b.setVec h v { b.vec h v with count := 0, since := 0, pending := true } :=
  (if_neg (by rw [← Bool.not_and, hs]; decide)).trans (if_pos hm)

/-- An unmasked vector that sends gives its message. -/
theorem Basjo.fire_of_unmasked (b : Basjo) (h v : Nat) (hs : ((b.msixFn h).enable && b.linkUp h) = true)
    (hm : ((b.vec h v).masked || (b.msixFn h).mask) = false) :
    b.fire h v = { b.setVec h v { b.vec h v with count := 0, since := 0, pending := false } with msgs := (h, v) :: b.msgs } :=
  (if_neg (by rw [← Bool.not_and, hs]; decide)).trans (if_neg (by rw [← Bool.not_eq_true] at hm; exact hm))

/-- A vector that sends: its count clears, and its pending bit tells whether a mask held the message. -/
theorem Basjo.fire_vec (b : Basjo) (h v : Nat) : (b.fire h v).vec h v = { b.vec h v with
    count := 0, since := 0
    pending := if (b.msixFn h).enable && b.linkUp h then (b.vec h v).masked || (b.msixFn h).mask else (b.vec h v).pending } := by
  cases hs : (b.msixFn h).enable && b.linkUp h
  · rw [b.fire_of_silent h v hs]; simp
  · cases hm : (b.vec h v).masked || (b.msixFn h).mask
    · rw [b.fire_of_unmasked h v hs hm]; exact b.setVec_vec_same h v _
    · rw [b.fire_of_masked h v hs hm]; simp

theorem Basjo.fire_msgs (b : Basjo) (h v : Nat) : (b.fire h v).msgs =
    if ((b.msixFn h).enable && b.linkUp h) && !((b.vec h v).masked || (b.msixFn h).mask) then (h, v) :: b.msgs else b.msgs := by
  cases hs : (b.msixFn h).enable && b.linkUp h
  · rw [b.fire_of_silent h v hs]; rfl
  · cases hm : (b.vec h v).masked || (b.msixFn h).mask
    · rw [b.fire_of_unmasked h v hs hm]; rfl
    · rw [b.fire_of_masked h v hs hm]; rfl

theorem Basjo.fire_vecs_ne (b : Basjo) (h v : Nat) {k : Nat} (hk : k ≠ 64 * h + v) :
    (b.fire h v).vecs.get .idle k = b.vecs.get .idle k := by
  unfold Basjo.fire
  dsimp only
  split
  · exact Store.get_put_ne _ _ _ _ hk
  · split <;> exact Store.get_put_ne _ _ _ _ hk

/-! ## Pending vectors that send -/

theorem Basjo.sendPending_vecsOnly (b : Basjo) (h v : Nat) : b.vecsOnly (b.sendPending h v) := by
  unfold Basjo.vecsOnly Basjo.sendPending
  dsimp only
  split <;> rfl

theorem Basjo.vecsOnly.trans {b b' b'' : Basjo} (e : b.vecsOnly b') (e' : b'.vecsOnly b'') : b.vecsOnly b'' := by
  unfold Basjo.vecsOnly at e'
  rw [e] at e'
  exact e'

theorem Basjo.vecsOnly.sends {b b' : Basjo} (e : b.vecsOnly b') (h : Nat) : b'.sends h = b.sends h := by rw [e]; rfl

theorem Basjo.sendPending_eq (b : Basjo) (h v : Nat) : b.sendPending h v =
    if (b.vec h v).pending && !(b.vec h v).masked && b.sends h then
      { b.setVec h v { b.vec h v with pending := false } with msgs := (h, v) :: b.msgs } else b := by
  simp only [Basjo.sendPending, Basjo.sends, Bool.and_assoc]

theorem Basjo.sendPending_of_not_sends (b : Basjo) (h v : Nat) (hs : b.sends h = false) : b.sendPending h v = b := by
  rw [b.sendPending_eq, hs, Bool.and_false]; rfl

theorem Basjo.sendPending_vec_ne (b : Basjo) (h : Nat) {v k : Nat} (hk : k ≠ v) : (b.sendPending h v).vec h k = b.vec h k := by
  rw [b.sendPending_eq]
  split
  · exact b.setVec_vec_ne h _ hk
  · rfl

/-- Where messages can leave, an unmasked vector is pending no more. -/
theorem Basjo.sendPending_vec_same (b : Basjo) (h v : Nat) (hs : b.sends h = true) : (b.sendPending h v).vec h v =
    if (b.vec h v).masked = false then { b.vec h v with pending := false } else b.vec h v := by
  rw [b.sendPending_eq, hs, Bool.and_true]
  cases hm : (b.vec h v).masked
  · cases hp : (b.vec h v).pending
    · exact congrArg (fun p => { b.vec h v with pending := p }) hp
    · exact b.setVec_vec_same h v _
  · rw [Bool.not_true, Bool.and_false]; rfl

theorem Basjo.sendPending_msgs_subset (b : Basjo) (h v : Nat) : b.msgs ⊆ (b.sendPending h v).msgs := by
  rw [b.sendPending_eq]
  split
  · exact List.subset_cons_self _ _
  · exact List.Subset.refl _

theorem Basjo.mem_sendPending_msgs (b : Basjo) (h v : Nat) (hs : b.sends h = true) (hp : (b.vec h v).pending = true)
    (hm : (b.vec h v).masked = false) : (h, v) ∈ (b.sendPending h v).msgs := by
  rw [b.sendPending_eq, hp, hm, hs]
  exact List.mem_cons_self

/-- Every vector of a list that is pending sends. -/
def Basjo.sendAll (b : Basjo) (h : Nat) (l : List Nat) : Basjo := l.foldl (fun b k => b.sendPending h k) b

theorem Basjo.sendAll_vecsOnly (l : List Nat) (b : Basjo) (h : Nat) : b.vecsOnly (b.sendAll h l) := by
  induction l generalizing b with
  | nil => rfl
  | cons v r ih => exact (b.sendPending_vecsOnly h v).trans (ih _)

theorem Basjo.sendAll_msixFn (l : List Nat) (b : Basjo) (h : Nat) : (b.sendAll h l).msixFn = b.msixFn := by
  rw [Basjo.sendAll_vecsOnly l b h]
  rfl

theorem Basjo.sendAll_of_not_sends (l : List Nat) (b : Basjo) (h : Nat) (hs : b.sends h = false) : b.sendAll h l = b := by
  induction l with
  | nil => rfl
  | cons v r ih => rw [Basjo.sendAll, List.foldl_cons, b.sendPending_of_not_sends h v hs]; exact ih

theorem Basjo.sendAll_vec (l : List Nat) (b : Basjo) (h k : Nat) (hs : b.sends h = true) : (b.sendAll h l).vec h k =
    if k ∈ l ∧ (b.vec h k).masked = false then { b.vec h k with pending := false } else b.vec h k := by
  induction l generalizing b with
  | nil => simp [Basjo.sendAll]
  | cons v r ih =>
    have hr := ih (b.sendPending h v) (((b.sendPending_vecsOnly h v).sends h).trans hs)
    rw [Basjo.sendAll, List.foldl_cons]
    refine hr.trans ?_
    by_cases hk : k = v
    · subst hk
      rw [b.sendPending_vec_same h k hs]
      cases hm : (b.vec h k).masked <;> simp [hm]
    · simp [b.sendPending_vec_ne h hk, hk]

theorem Basjo.sendAll_msgs_subset (l : List Nat) (b : Basjo) (h : Nat) : b.msgs ⊆ (b.sendAll h l).msgs := by
  induction l generalizing b with
  | nil => exact List.Subset.refl _
  | cons v r ih => exact List.Subset.trans (b.sendPending_msgs_subset h v) (ih _)

theorem Basjo.mem_sendAll_msgs (l : List Nat) (b : Basjo) (h k : Nat) (hs : b.sends h = true) (hk : k ∈ l)
    (hp : (b.vec h k).pending = true) (hm : (b.vec h k).masked = false) : (h, k) ∈ (b.sendAll h l).msgs := by
  induction l generalizing b with
  | nil => exact absurd hk List.not_mem_nil
  | cons v r ih =>
    by_cases e : k = v
    · subst e
      exact Basjo.sendAll_msgs_subset r _ h (b.mem_sendPending_msgs h k hs hp hm)
    · have hv := b.sendPending_vec_ne h e
      refine ih (b.sendPending h v) (((b.sendPending_vecsOnly h v).sends h).trans hs) ?_ (by rwa [hv]) (by rwa [hv])
      exact (List.mem_cons.mp hk).resolve_left e

end Sys2Proof.Machine
end

section
/-! SUPPORT. Event queues: what a record written into one leaves there, in host memory and in the other queues (R70 to R78). -/
namespace Sys2Proof.Machine

/-! ## Host memory -/

theorem Store.get_foldl_octets (l : List Byte) (m : Store Byte) (h : Fin 2) (addr n k : Nat) (hl : n + l.length ≤ 2 ^ 64)
    (hk : k < l.length) :
    Store.get 0 ((l.zipIdx n).foldl (fun m e => if inCheckpoints h.val (addr + e.2) then m
      else Store.put 0 m (h.val * 2 ^ 64 + (addr + e.2) % 2 ^ memWidth h.val) e.1) m) (h.val * 2 ^ 64 + (addr + (n + k)) % 2 ^ 64) =
      l.getD k 0 := by
  induction l generalizing m n k with
  | nil => exact absurd hk (Nat.not_lt_zero _)
  | cons b r ih =>
    rw [List.zipIdx_cons, List.foldl_cons]
    rw [List.length_cons] at hl hk
    cases k with
    | zero =>
      have hc : inCheckpoints h.val (addr + n) = false := by
        have : h.val ≠ 2 := by omega
        simp [inCheckpoints, this]
      rw [Basjo.octet_foldl _ _ _ _ _ _ (Nat.mod_lt _ (by decide)) (fun _ e he => ?_)]
      · simp [hc, memWidth_host h]
      · have hlo := List.le_snd_of_mem_zipIdx he
        have hhi := List.snd_lt_add_of_mem_zipIdx he
        rw [memWidth_host h]
        omega
    | succ k =>
      have hr := ih (if inCheckpoints h.val (addr + n) then m
        else Store.put 0 m (h.val * 2 ^ 64 + (addr + n) % 2 ^ memWidth h.val) b) (n + 1) k (by omega) (by omega)
      rw [show n + (k + 1) = n + 1 + k by omega]
      exact hr

/-- A string of octets stored in host memory stands there. -/
theorem Basjo.octet_store_same (b : Basjo) (h : Fin 2) (addr : Nat) (l : List Byte) (k : Nat) (hl : l.length ≤ 2 ^ 64)
    (hk : k < l.length) : (b.store h.val addr l).octet h.val ((addr + k) % 2 ^ 64) = l.getD k 0 := by
  have hs := Store.get_foldl_octets l b.mem h addr 0 k (by omega) hk
  rwa [Nat.zero_add] at hs

/-! ## A record in an EVT ring -/

theorem Basjo.setRing_ring_same (b : Basjo) (h r : Nat) (x : RingRun) : (b.setRing h r x).ring h r = x := Store.get_put_same _ _ _ _

theorem Basjo.putRec_ring_ring (b : Basjo) (now h : Nat) (r : Fin 128) (x : Rec) :
    (b.putRec now h (.ring r) x).ring h r = { b.ring h r with seq := (b.ring h r).seq + 1 } := by
  unfold Basjo.putRec
  dsimp only
  rw [Basjo.signal_vecsOnly _ now h x.cls]
  exact Basjo.setRing_ring_same _ _ _ _

theorem Basjo.putRec_ring_devIdx (b : Basjo) (now h : Nat) (r : Fin 128) (x : Rec) :
    (b.putRec now h (.ring r) x).devIdx h r = b.devIdx h r + 1 := by
  unfold Basjo.putRec
  dsimp only
  rw [Basjo.signal_vecsOnly _ now h x.cls]
  exact Basjo.reg_setReg_same _ _ _

/-- The advance of a device index writes host memory nowhere but at the written-back index (R55). -/
theorem Basjo.advance_octet (b : Basjo) (h : Fin 2) (r n a : Nat) (ha : a < 2 ^ 64)
    (hw : ∀ j < 4, a ≠ ((b.reg (ringReg h r 8)).toNat + 2 ^ 32 * (b.reg (ringReg h r 0xC)).toNat + j) % 2 ^ 64) :
    (b.advance h r n).octet h a = b.octet h a := by
  unfold Basjo.advance
  dsimp only
  rw [Basjo.octet_store _ h.val _ _ h.val a ha (fun _ j hj => ?_)]
  · rfl
  · rw [memWidth_host h]
    exact hw j (by rwa [leBytes_length] at hj)

/-- The octets of a record stand at the entry the device index named, but where the written-back index overlies them. -/
theorem Basjo.putRec_ring_octet (b : Basjo) (now : Nat) (h : Fin 2) (r : Fin 128) (x : Rec) (k : Nat) (hk : k < 32)
    (hw : ∀ j < 4, (b.entryAddr h r 32 (b.devIdx h r) + k) % 2 ^ 64 ≠
      ((b.reg (ringReg h r 8)).toNat + 2 ^ 32 * (b.reg (ringReg h r 0xC)).toNat + j) % 2 ^ 64) :
    (b.putRec now h (.ring r) x).octet h ((b.entryAddr h r 32 (b.devIdx h r) + k) % 2 ^ 64) =
      (leBytes 32 (x.pack (b.ring h r).seq).toNat).getD k 0 := by
  have hlen := leBytes_length 32 (x.pack (b.ring h r).seq).toNat
  have entry := b.octet_store_same h (b.entryAddr h r 32 (b.devIdx h r)) (leBytes 32 (x.pack (b.ring h r).seq).toNat) k
    (by rw [hlen]; decide) (by rwa [hlen])
  refine Eq.trans ?_ entry
  refine Eq.trans ?_ (Basjo.advance_octet _ h r 1 _ (Nat.mod_lt _ (by decide)) hw)
  unfold Basjo.putRec
  dsimp only
  rw [Basjo.signal_vecsOnly _ now h x.cls]
  rfl

/-- How EVENT_OVERFLOW names an event queue in its payload B (R77). -/
def overflowCode : EvtQueue → Nat
  | .ring r => r.val
  | .pop n => 0x80 + n.val

/-- EVENT_OVERFLOW on an event queue that lost records and has room (R77). -/
theorem Basjo.overflow_of_room (b : Basjo) (now h : Nat) (q : EvtQueue) (sec ns : Nat) (hl : b.evtLost h q ≠ 0)
    (hf : b.evtFull h q = false) : b.overflow now h q sec ns =
      (b.putRec now h q ⟨7, 1, 1, h, sec, ns, (b.evtLost h q).toNat, overflowCode q⟩).clearLost h q := by
  unfold Basjo.overflow
  rw [if_neg (not_or.mpr ⟨hl, by rw [hf]; decide⟩)]
  cases q <;> rfl

theorem Basjo.overflow_of_none (b : Basjo) (now h : Nat) (q : EvtQueue) (sec ns : Nat) (hq : b.evtLost h q = 0 ∨ b.evtFull h q = true) :
    b.overflow now h q sec ns = b := if_pos hq

/-! ## Pop queues -/

/-- Every pop queue still begins with the records it held. -/
def Basjo.popsGrow (b b' : Basjo) : Prop := ∀ k, (b.pops.get .idle k).recs <+: (b'.pops.get .idle k).recs

theorem Basjo.popsGrow.of_eq {b b' : Basjo} (e : b'.pops = b.pops) : b.popsGrow b' :=
  fun k => ⟨[], by rw [e, List.append_nil]⟩

theorem Basjo.popsGrow.trans {b b' b'' : Basjo} (e : b.popsGrow b') (e' : b'.popsGrow b'') : b.popsGrow b'' :=
  fun k => (e k).trans (e' k)

theorem Basjo.popsGrow.put (b : Basjo) (k : Nat) (q : PopQueue) (hq : (b.pops.get .idle k).recs <+: q.recs) :
    b.popsGrow { b with pops := b.pops.put .idle k q } := by
  intro j
  by_cases hj : j = k
  · subst hj; simpa using hq
  · simp [Store.get_put_ne _ _ _ _ hj]

theorem Basjo.putRec_popsGrow (b : Basjo) (now h : Nat) (q : EvtQueue) (x : Rec) : b.popsGrow (b.putRec now h q x) := by
  unfold Basjo.putRec
  cases q with
  | ring r => exact .of_eq (by dsimp only; rw [Basjo.signal_vecsOnly _ now h x.cls]; rfl)
  | pop n =>
    dsimp only
    exact (Basjo.popsGrow.put b _ _ ⟨[_], rfl⟩).trans (.of_eq (by rw [Basjo.signal_vecsOnly _ now h x.cls]))

theorem Basjo.loseRec_popsGrow (b : Basjo) (h : Nat) (q : EvtQueue) : b.popsGrow (b.loseRec h q) := by
  cases q with
  | ring r => exact .of_eq rfl
  | pop n => exact .put b _ _ ⟨[], List.append_nil _⟩

theorem Basjo.clearLost_popsGrow (b : Basjo) (h : Nat) (q : EvtQueue) : b.popsGrow (b.clearLost h q) := by
  cases q with
  | ring r => exact .of_eq rfl
  | pop n => exact .put b _ _ ⟨[], List.append_nil _⟩

theorem Basjo.overflow_popsGrow (b : Basjo) (now h : Nat) (q : EvtQueue) (sec ns : Nat) : b.popsGrow (b.overflow now h q sec ns) := by
  unfold Basjo.overflow
  split
  · exact .of_eq rfl
  · exact (b.putRec_popsGrow now h q _).trans (Basjo.clearLost_popsGrow _ h q)

theorem Basjo.deliver_popsGrow (b : Basjo) (now h : Nat) (x : Rec) : b.popsGrow (b.deliver now h x) := by
  unfold Basjo.deliver
  dsimp only
  split
  · exact .of_eq rfl
  · generalize (if bit (b.reg (hostReg h (0x100 + 4 * x.cls))) 30 = true then EvtQueue.pop _ else EvtQueue.ring _) = q
    split
    · refine .of_eq ?_
      split <;> rfl
    · have e := b.overflow_popsGrow now h q x.sec x.ns
      split
      · exact e.trans (Basjo.loseRec_popsGrow _ h q)
      · exact e.trans (Basjo.putRec_popsGrow _ now h q x)

theorem Dev.raise_popsGrow (s : Dev) (cls cause cl u x y : Nat) : s.basjo.popsGrow (s.raise cls cause cl u x y).basjo := by
  have fold : ∀ (l : List Nat) (b : Basjo),
      b.popsGrow (l.foldl (fun z h => z.deliver s.now h (s.mkRec cls cause cl u x y s.now)) b) := by
    intro l
    induction l with
    | nil => exact fun b => .of_eq rfl
    | cons h r ih => exact fun b => (b.deliver_popsGrow _ _ _).trans (ih _)
  exact fold _ _

theorem Dev.log_popsGrow (s : Dev) (o k cl u op tg : Nat) (x y : List Byte) : s.basjo.popsGrow (s.log o k cl u op tg x y).basjo :=
  Dev.raise_popsGrow _ _ _ _ _ _ _

/-! ## The latch of a pop queue -/

theorem Basjo.reg_foldl_setReg_ne (l : List Nat) (at_ : Nat → Nat) (v : Nat → Word) (b : Basjo) (a : Nat) (ha : ∀ k ∈ l, a ≠ at_ k) :
    (l.foldl (fun (b : Basjo) k => b.setReg (at_ k) (v k)) b).reg a = b.reg a := by
  induction l generalizing b with
  | nil => rfl
  | cons k r ih =>
    rw [List.foldl_cons, ih _ (fun j hj => ha j (List.mem_cons_of_mem _ hj)), Basjo.reg_setReg, if_neg (ha k List.mem_cons_self)]

theorem Basjo.reg_foldl_setReg_mem (l : List Nat) (at_ : Nat → Nat) (hat : Function.Injective at_) (v : Nat → Word) (b : Basjo)
    (k : Nat) (hk : k ∈ l) : (l.foldl (fun (b : Basjo) k => b.setReg (at_ k) (v k)) b).reg (at_ k) = v k := by
  induction l generalizing b with
  | nil => exact absurd hk List.not_mem_nil
  | cons j r ih =>
    by_cases hr : k ∈ r
    · exact ih _ hr
    · obtain rfl : k = j := (List.mem_cons.mp hk).resolve_right hr
      rw [List.foldl_cons, Basjo.reg_foldl_setReg_ne r at_ v _ _ (fun i hi e => hr (by rwa [hat e])), Basjo.reg_setReg_same]

theorem Basjo.foldl_setReg_eq (l : List Nat) (at_ : Nat → Nat) (v : Nat → Word) (b : Basjo) :
    l.foldl (fun (b : Basjo) k => b.setReg (at_ k) (v k)) b =
      { b with regs := (l.foldl (fun (b : Basjo) k => b.setReg (at_ k) (v k)) b).regs } := by
  induction l generalizing b with
  | nil => rfl
  | cons k r ih => exact ih (b.setReg (at_ k) (v k))

/-- The head record of pop queue `n` has moved to its latch, and `r` are left (R78). -/
def Basjo.popHead (b : Basjo) (h n : Nat) (x : BitVec 256) (r : List (BitVec 256)) : Basjo :=
  (List.range 8).foldl (fun (b : Basjo) k => b.setReg (hostReg h (0x440 + 0x20 * n + 4 * k)) (x.extractLsb' (32 * k) 32))
    { b with pops := b.pops.put .idle (4 * h + n) { b.pops.get .idle (4 * h + n) with recs := r } }

theorem Basjo.popHead_frame (b : Basjo) (h n : Nat) (x : BitVec 256) (r : List (BitVec 256)) :
    b.popHead h n x r = { b with
      regs := (b.popHead h n x r).regs
      pops := b.pops.put .idle (4 * h + n) { b.pops.get .idle (4 * h + n) with recs := r } } :=
  Basjo.foldl_setReg_eq _ _ _ _

theorem Basjo.popHead_pops_same (b : Basjo) (h n : Nat) (x : BitVec 256) (r : List (BitVec 256)) :
    (b.popHead h n x r).pops.get .idle (4 * h + n) = { b.pops.get .idle (4 * h + n) with recs := r } := by
  rw [Basjo.popHead_frame, Store.get_put_same]

theorem Basjo.popHead_pops_ne (b : Basjo) (h n : Nat) (x : BitVec 256) (r : List (BitVec 256)) {y : Nat} (hy : y ≠ 4 * h + n) :
    (b.popHead h n x r).pops.get .idle y = b.pops.get .idle y := by
  rw [Basjo.popHead_frame, Store.get_put_ne _ _ _ _ hy]

theorem Basjo.popHead_latch (b : Basjo) (h n : Nat) (x : BitVec 256) (r : List (BitVec 256)) (k : Fin 8) :
    (b.popHead h n x r).reg (hostReg h (0x440 + 0x20 * n + 4 * k.val)) = x.extractLsb' (32 * k.val) 32 :=
  Basjo.reg_foldl_setReg_mem (List.range 8) (fun k => hostReg h (0x440 + 0x20 * n + 4 * k)) (fun i j e => by simp only [hostReg] at e; omega)
    (fun k => x.extractLsb' (32 * k) 32) _ k.val (List.mem_range.mpr k.isLt)

theorem Basjo.popHead_reg_out (b : Basjo) (h n : Nat) (x : BitVec 256) (r : List (BitVec 256)) (y : Nat)
    (hy : ¬ (hostReg h (0x440 + 0x20 * n) ≤ y ∧ y < hostReg h (0x460 + 0x20 * n))) : (b.popHead h n x r).reg y = b.reg y := by
  refine Basjo.reg_foldl_setReg_ne (List.range 8) (fun k => hostReg h (0x440 + 0x20 * n + 4 * k))
    (fun k => x.extractLsb' (32 * k) 32) _ y (fun k hk e => hy ?_)
  rw [List.mem_range] at hk
  simp only [hostReg] at e ⊢
  omega

theorem Dev.popRec_of_cons (s : Dev) (o h n : Nat) (x : BitVec 256) (r : List (BitVec 256))
    (hq : (s.basjo.pops.get .idle (4 * h + n)).recs = x :: r) :
    s.popRec o h n = (s.onBasjo (·.popHead h n x r)).readGives o (BitVec.ofNat 32 (2 ^ 31 + r.length)) := by
  unfold Dev.popRec
  simp only [hq]
  rfl

theorem Dev.popRec_of_nil (s : Dev) (o h n : Nat) (hq : (s.basjo.pops.get .idle (4 * h + n)).recs = []) :
    s.popRec o h n = s.readGives o 0 := by
  unfold Dev.popRec
  simp only [hq]

end Sys2Proof.Machine
end

section
/-! SUPPORT. What EVENT_OVERFLOW, MSIX_UNMASK and a read of EVT_POP come to (R20, R46, R47, R74, R77, R78). -/
namespace Sys2Proof.Machine

/-! ## EVENT_OVERFLOW -/

theorem Dev.evtOverflow_pop (s : Dev) (h : Nat) (n : Fin 4) : s.evtOverflow h (.pop n) =
    s.onBasjo (fun b => b.overflow s.now h (.pop n) (secOf s.wt) (nsOf s.wt)) := rfl

theorem Dev.evtOverflow_ring (s : Dev) (h : Nat) (r : Fin 128) (hr : s.basjo.ringRuns h r.val 4 = true) : s.evtOverflow h (.ring r) =
    s.onBasjo (fun b => b.overflow s.now h (.ring r) (secOf s.wt) (nsOf s.wt)) := if_pos hr

theorem Dev.evtOverflow_of_none (s : Dev) (h : Nat) (q : EvtQueue) (hq : s.basjo.evtLost h q = 0 ∨ s.basjo.evtFull h q = true) :
    s.evtOverflow h q = s := by
  have same : s.onBasjo (fun b => b.overflow s.now h q (secOf s.wt) (nsOf s.wt)) = s :=
    congrArg (fun b => { s with basjo := b }) (s.basjo.overflow_of_none s.now h q _ _ hq)
  unfold Dev.evtOverflow
  rw [same]
  exact ite_self _

theorem Basjo.overflow_pop_pops (b : Basjo) (now h : Nat) (n : Fin 4) (sec ns : Nat) (hl : b.evtLost h (.pop n) ≠ 0)
    (hf : b.evtFull h (.pop n) = false) : (b.overflow now h (.pop n) sec ns).pops.get .idle (4 * h + n.val) =
      ⟨(b.pops.get .idle (4 * h + n.val)).recs ++ [Rec.pack ⟨7, 1, 1, h, sec, ns,
          (b.pops.get .idle (4 * h + n.val)).lostSince.toNat, 0x80 + n.val⟩ (b.pops.get .idle (4 * h + n.val)).seq],
        (b.pops.get .idle (4 * h + n.val)).seq + 1, 0⟩ := by
  rw [b.overflow_of_room now h _ sec ns hl hf]
  unfold Basjo.clearLost Basjo.putRec
  dsimp only
  rw [Basjo.signal_vecsOnly _ now h 7, Store.get_put_same, Store.get_put_same]
  rfl

theorem Basjo.overflow_pop_pops_ne (b : Basjo) (now h : Nat) (n : Fin 4) (sec ns : Nat) (hl : b.evtLost h (.pop n) ≠ 0)
    (hf : b.evtFull h (.pop n) = false) {k : Nat} (hk : k ≠ 4 * h + n.val) :
    (b.overflow now h (.pop n) sec ns).pops.get .idle k = b.pops.get .idle k := by
  rw [b.overflow_of_room now h _ sec ns hl hf]
  unfold Basjo.clearLost Basjo.putRec
  dsimp only
  rw [Basjo.signal_vecsOnly _ now h 7, Store.get_put_ne _ _ _ _ hk, Store.get_put_ne _ _ _ _ hk]

theorem Basjo.overflow_pop_frame (b : Basjo) (now h : Nat) (n : Fin 4) (sec ns : Nat) : b.overflow now h (.pop n) sec ns = { b with
    pops := (b.overflow now h (.pop n) sec ns).pops
    vecs := (b.overflow now h (.pop n) sec ns).vecs
    msgs := (b.overflow now h (.pop n) sec ns).msgs } := by
  unfold Basjo.overflow
  split
  · rfl
  · unfold Basjo.clearLost Basjo.putRec
    dsimp only
    rw [Basjo.signal_vecsOnly _ now h 7]

section
variable (b : Basjo) (now : Nat) (h : Fin 2) (r : Fin 128) (sec ns : Nat) (hl : b.evtLost h.val (.ring r) ≠ 0)
  (hf : b.evtFull h.val (.ring r) = false)
include hl hf

theorem Basjo.overflow_ring_ring : (b.overflow now h.val (.ring r) sec ns).ring h.val r.val =
    { b.ring h.val r.val with lostSince := 0, seq := (b.ring h.val r.val).seq + 1 } := by
  rw [b.overflow_of_room now h _ sec ns hl hf]
  unfold Basjo.clearLost
  dsimp only
  rw [Basjo.setRing_ring_same, Basjo.putRec_ring_ring]

theorem Basjo.overflow_ring_devIdx : (b.overflow now h.val (.ring r) sec ns).devIdx h.val r.val = b.devIdx h.val r.val + 1 := by
  rw [b.overflow_of_room now h _ sec ns hl hf]
  exact b.putRec_ring_devIdx now h.val r _

theorem Basjo.overflow_ring_octet (k : Nat) (hk : k < 32)
    (hw : ∀ j < 4, (b.entryAddr h.val r.val 32 (b.devIdx h.val r.val) + k) % 2 ^ 64 ≠
      ((b.reg (ringReg h.val r.val 8)).toNat + 2 ^ 32 * (b.reg (ringReg h.val r.val 0xC)).toNat + j) % 2 ^ 64) :
    (b.overflow now h.val (.ring r) sec ns).octet h.val ((b.entryAddr h.val r.val 32 (b.devIdx h.val r.val) + k) % 2 ^ 64) =
      (leBytes 32 (Rec.pack ⟨7, 1, 1, h.val, sec, ns, (b.evtLost h.val (.ring r)).toNat, r.val⟩
        (b.ring h.val r.val).seq).toNat).getD k 0 := by
  rw [b.overflow_of_room now h _ sec ns hl hf]
  exact b.putRec_ring_octet now h r _ k hk hw

end

/-- A ring that runs as an EVT ring may take records. -/
theorem Basjo.evtOk_of_ringRuns (b : Basjo) (h : Nat) (r : Fin 128) (hr : b.ringRuns h r.val 4 = true) : b.evtOk h (.ring r) := by
  simp only [Basjo.ringRuns, Bool.and_eq_true, decide_eq_true_eq] at hr
  obtain ⟨⟨⟨-, type⟩, -⟩, -⟩ := hr
  exact type

/-! ## MSIX_UNMASK -/

/-- The host interface with a table entry written unmasked and the capability as the driver leaves it. -/
def Basjo.setEntry (b : Basjo) (h v : Nat) (addr : DWord) (data : Word) (enable fnMask : Bool) : Basjo :=
  { b.setVec h v { b.vec h v with addr := addr, data := data, masked := false } with
    msix := b.msix.put ⟨false, false⟩ h ⟨enable, fnMask⟩ }

theorem Dev.unmask_of_present (s : Dev) (h v : Nat) (addr : DWord) (data : Word) (en fm : Bool)
    (hp : (hostPorts s.variant).contains h = true) : s.unmask h v addr data en fm =
      s.onBasjo (fun b => (b.setEntry h v addr data en fm).sendAll h (List.range 64)) :=
  if_neg (by rw [hp]; decide)

theorem Dev.unmask_of_absent (s : Dev) (h v : Nat) (addr : DWord) (data : Word) (en fm : Bool)
    (hp : (hostPorts s.variant).contains h = false) : s.unmask h v addr data en fm = s :=
  if_pos (by rw [hp]; decide)

@[simp] theorem Basjo.setEntry_vec_same (b : Basjo) (h v : Nat) (addr : DWord) (data : Word) (en fm : Bool) :
    (b.setEntry h v addr data en fm).vec h v = { b.vec h v with addr := addr, data := data, masked := false } :=
  b.setVec_vec_same h v _

theorem Basjo.setEntry_vec_ne (b : Basjo) (h : Nat) {v k : Nat} (addr : DWord) (data : Word) (en fm : Bool) (hk : k ≠ v) :
    (b.setEntry h v addr data en fm).vec h k = b.vec h k := b.setVec_vec_ne h _ hk

@[simp] theorem Basjo.setEntry_msixFn (b : Basjo) (h v : Nat) (addr : DWord) (data : Word) (en fm : Bool) :
    (b.setEntry h v addr data en fm).msixFn h = ⟨en, fm⟩ := Store.get_put_same _ _ _ _

theorem Basjo.setEntry_sends (b : Basjo) (h v : Nat) (addr : DWord) (data : Word) (en fm : Bool) :
    (b.setEntry h v addr data en fm).sends h = (en && !fm && b.linkUp h) := by
  rw [Basjo.sends, Basjo.setEntry_msixFn]
  rfl

theorem Basjo.sendAll_setEntry_frame (b : Basjo) (h v : Nat) (addr : DWord) (data : Word) (en fm : Bool) (l : List Nat) :
    (b.setEntry h v addr data en fm).sendAll h l = { b with
      vecs := ((b.setEntry h v addr data en fm).sendAll h l).vecs
      msix := ((b.setEntry h v addr data en fm).sendAll h l).msix
      msgs := ((b.setEntry h v addr data en fm).sendAll h l).msgs } := by
  rw [Basjo.sendAll_vecsOnly l _ h]
  rfl

/-- Where no message can leave, the table entry and the capability are all that changes. -/
theorem Dev.unmask_of_silent (s : Dev) (h v : Nat) (addr : DWord) (data : Word) (en fm : Bool)
    (hp : (hostPorts s.variant).contains h = true) (hs : (en && !fm && s.basjo.linkUp h) = false) :
    s.unmask h v addr data en fm = s.onBasjo (·.setEntry h v addr data en fm) :=
  (s.unmask_of_present h v addr data en fm hp).trans (congrArg (fun b => { s with basjo := b })
    (Basjo.sendAll_of_not_sends _ _ _ ((s.basjo.setEntry_sends h v addr data en fm).trans hs)))

/-! ### What every pending vector's message leaves -/

section
variable (b : Basjo) (h : Fin 2) (v : Fin 64) (addr : DWord) (data : Word) (en fm : Bool)

/-- The host interface after MSIX_UNMASK, where messages can leave. -/
abbrev Basjo.unmasked : Basjo := (b.setEntry h.val v.val addr data en fm).sendAll h.val (List.range 64)

variable (hs : (en && !fm && b.linkUp h.val) = true)
include hs

theorem Basjo.unmasked_vec_same : (b.unmasked h v addr data en fm).vec h.val v.val =
    { b.vec h.val v.val with addr := addr, data := data, masked := false, pending := false } := by
  rw [Basjo.unmasked, Basjo.sendAll_vec _ _ _ _ ((b.setEntry_sends ..).trans hs), Basjo.setEntry_vec_same]
  exact if_pos ⟨List.mem_range.mpr v.isLt, rfl⟩

theorem Basjo.unmasked_vec_ne {k : Fin 64} (hk : k ≠ v) : (b.unmasked h v addr data en fm).vec h.val k.val =
    if (b.vec h.val k.val).masked then b.vec h.val k.val else { b.vec h.val k.val with pending := false } := by
  rw [Basjo.unmasked, Basjo.sendAll_vec _ _ _ _ ((b.setEntry_sends ..).trans hs),
    b.setEntry_vec_ne h.val addr data en fm (fun e => hk (Fin.ext e))]
  have hmem := List.mem_range.mpr k.isLt
  cases hm : (b.vec h.val k.val).masked <;> simp [hmem]

theorem Basjo.unmasked_msgs_same (hp : (b.vec h.val v.val).pending = true) :
    (h.val, v.val) ∈ (b.unmasked h v addr data en fm).msgs :=
  Basjo.mem_sendAll_msgs _ _ _ _ ((b.setEntry_sends ..).trans hs) (List.mem_range.mpr v.isLt)
    (by rw [Basjo.setEntry_vec_same]; exact hp) (by rw [Basjo.setEntry_vec_same])

theorem Basjo.unmasked_msgs_ne {k : Fin 64} (hk : k ≠ v) (hp : (b.vec h.val k.val).pending = true)
    (hm : (b.vec h.val k.val).masked = false) : (h.val, k.val) ∈ (b.unmasked h v addr data en fm).msgs := by
  have same := b.setEntry_vec_ne h.val addr data en fm (fun e => hk (Fin.ext e) : k.val ≠ v.val)
  exact Basjo.mem_sendAll_msgs _ _ _ _ ((b.setEntry_sends ..).trans hs) (List.mem_range.mpr k.isLt)
    (by rwa [same]) (by rwa [same])

theorem Basjo.unmasked_msixFn : (b.unmasked h v addr data en fm).msixFn h.val = ⟨true, false⟩ := by
  simp only [Bool.and_eq_true, Bool.not_eq_true'] at hs
  obtain ⟨⟨rfl, rfl⟩, -⟩ := hs
  rw [Basjo.unmasked, Basjo.sendAll_msixFn]
  exact b.setEntry_msixFn ..

end

/-! ## EVT_POP -/

theorem Dev.evtPop_of_permitted (s : Dev) (a : Acc) (h n : Nat) (hp : (hostPorts s.variant).contains h = true)
    (hre : reaches a.origin.val 1 = true) (hm : s.permitted 1 a.origin.val 1 = true) (hu : s.unitPowered 1 h = true) :
    s.evtPop a h n = if s.clockOff 1 h then s.hold ⟨a, hostReg h (0x400 + 4 * n), none, 0, false, 1, h⟩
      else s.popRec a.origin.val h n := by
  unfold Dev.evtPop
  simp only [hp, hre, hm, hu, Bool.not_true, Bool.or_self, Bool.and_true, Bool.false_eq_true, if_false]

theorem Dev.evtPop_of_denied (s : Dev) (a : Acc) (h n : Nat) (hp : (hostPorts s.variant).contains h = true)
    (hre : reaches a.origin.val 1 = true) (hm : s.permitted 1 a.origin.val 1 = false) :
    s.evtPop a h n = (s.denied a.origin.val 1 h 0 (hostReg h (0x400 + 4 * n)) [] []).readGives a.origin.val 0 := by
  unfold Dev.evtPop
  simp only [hp, hre, hm, Bool.not_true, Bool.not_false, Bool.or_self, Bool.false_eq_true, if_false, if_true]

theorem Dev.evtPop_of_head (s : Dev) (a : Acc) (h n : Nat) (hp : (hostPorts s.variant).contains h = true)
    (hre : reaches a.origin.val 1 = true) (hm : s.permitted 1 a.origin.val 1 = true) (hu : s.unitPowered 1 h = true)
    (hc : s.clockOff 1 h = false) : s.evtPop a h n = s.popRec a.origin.val h n :=
  (s.evtPop_of_permitted a h n hp hre hm hu).trans (if_neg (by rw [hc]; decide))

/-- Only a host's denials are counted (R46). -/
theorem Dev.denied_of_agent (s : Dev) (o cl u op tg : Nat) (x y : List Byte) (ho : 3 ≤ o) :
    s.denied o cl u op tg x y = s.log o kDenied cl u op tg x y := by
  unfold Dev.denied Dev.countDenied
  rw [if_neg (by omega)]

/-- The latch of a pop queue is no register that an event record changes. -/
theorem Basjo.not_eventReg_latch (b : Basjo) (h : Nat) (n : Fin 4) (k : Fin 8) :
    ¬ b.eventReg (hostReg h (0x440 + 0x20 * n.val + 4 * k.val)) := by
  rintro ⟨h', r, hr, e | ⟨-, e | e⟩⟩
  · simp only [hostReg] at e; omega
  · exact ringReg_ne_hostReg hr (by decide) (by omega) e.symm
  · exact ringReg_ne_hostReg hr (by decide) (by omega) e.symm

end Sys2Proof.Machine
end

section
/-! SUPPORT. The statement that events signal. -/
namespace Sys2Proof.Machine

section
variable {s : State} {d : Dev} {P : State → Prop}

theorem Completes.eventOverflow {h : Fin 2} {q : EvtQueue} (hr : s.dev.runs = true) (hd : s.dev.evtOverflow h q = d)
    (hp : P { s with dev := d }) : Completes (.eventOverflow h q) s P :=
  ⟨_, s.onDev_runs (·.evtOverflow h.val q) hr, by rw [hd]; exact hp⟩

theorem Completes.vecCoalTimerExpiry {h : Fin 2} {v : Fin 64} (hr : s.dev.runs = true) (hd : s.dev.vecTimer h v = d)
    (hp : P { s with dev := d }) : Completes (.vecCoalTimerExpiry h v) s P :=
  ⟨_, s.onDev_runs (·.vecTimer h.val v.val) hr, by rw [hd]; exact hp⟩

theorem Completes.msixUnmask {h : Fin 2} {v : Fin 64} {addr : BitVec 64} {data : BitVec 32} {en fm : Bool} (hr : s.dev.runs = true)
    (hd : s.dev.unmask h v addr data en fm = d) (hp : P { s with dev := d }) : Completes (.msixUnmask h v addr data en fm) s P :=
  ⟨_, s.onDev_runs (·.unmask h.val v.val addr data en fm) hr, by rw [hd]; exact hp⟩

theorem Completes.evtPop {a : Acc} {h : Fin 2} {n : Fin 4} (hr : s.dev.runs = true) (hd : s.dev.evtPop a h n = d)
    (hp : P { s with dev := d }) : Completes (.evtPop a h n) s P :=
  ⟨_, s.onDev_runs (·.evtPop a h.val n.val) hr, by rw [hd]; exact hp⟩

end

/-- Settles O13, command by command: EVENT_OVERFLOW, VEC_COAL_TIMER_EXPIRY, MSIX_UNMASK and EVT_POP. -/
theorem eventsSignal : Obligations.EventsSignal := by
  unfold Obligations.EventsSignal
  refine ⟨?_, ?_, ?_, ?_, ?_, ?_, ?_, ?_, ?_, ?_, ?_, ?_⟩
  · -- EVENT_OVERFLOW on a pop queue
    intro s h n hr hl hf
    let b := s.dev.basjo
    exact .eventOverflow hr (s.dev.evtOverflow_pop h n) ⟨b.overflow_pop_pops _ _ n _ _ hl hf,
      fun k hk => b.overflow_pop_pops_ne _ _ n _ _ hl hf hk, b.overflow_pop_frame _ _ n _ _, s.dev.onBasjo_keeps _, rfl, rfl⟩
  · -- EVENT_OVERFLOW on an EVT ring
    intro s h r hr hl hf hruns
    refine .eventOverflow hr (s.dev.evtOverflow_ring h r hruns) ?_
    let b := s.dev.basjo
    exact ⟨b.overflow_ring_ring _ h r _ _ hl hf, b.overflow_ring_devIdx _ h r _ _ hl hf,
      fun k hk hw => b.overflow_ring_octet _ h r _ _ hl hf k hk hw, ⟨(s.dev.onBasjo_keeps _).mono (by decide), rfl, rfl⟩,
      fun _ _ => rfl, b.overflow_eventsOnly _ h _ _ _ (b.evtOk_of_ringRuns h r hruns)⟩
  · -- EVENT_OVERFLOW with nothing lost, or no room
    intro s h q hr hq
    exact .eventOverflow hr (s.dev.evtOverflow_of_none h q hq) rfl
  · -- VEC_COAL_TIMER_EXPIRY that is due
    intro s h v hr ht hc hs
    let b := s.dev.basjo
    have fires : s.dev.vecTimer h v = s.dev.onBasjo (fun b => b.fire h v) := if_neg (by omega)
    exact .vecCoalTimerExpiry hr fires ⟨b.fire_vec h v, b.fire_msgs h v, fun k hk => b.fire_vecs_ne h v hk,
      b.fire_vecsOnly h v, s.dev.onBasjo_keeps _, rfl, rfl⟩
  · -- VEC_COAL_TIMER_EXPIRY that is not
    intro s h v hr hn
    exact .vecCoalTimerExpiry hr (if_pos hn) rfl
  · -- MSIX_UNMASK where messages can leave
    intro s h v addr data en fm hr hp hs
    let b := s.dev.basjo
    refine .msixUnmask hr (s.dev.unmask_of_present h v addr data en fm hp) ?_
    dsimp only [Dev.onBasjo]
    exact ⟨b.unmasked_vec_same h v addr data en fm hs,
      fun k hk => b.unmasked_vec_ne h v addr data en fm hs hk, fun hq => b.unmasked_msgs_same h v addr data en fm hs hq,
      fun k hk hq hm => b.unmasked_msgs_ne h v addr data en fm hs hk hq hm, b.unmasked_msixFn h v addr data en fm hs,
      b.sendAll_setEntry_frame h v addr data en fm _, s.dev.onBasjo_keeps (·.unmasked h v addr data en fm), rfl, rfl⟩
  · -- MSIX_UNMASK where none can
    intro s h v addr data en fm hr hp hs
    let b := s.dev.basjo
    exact .msixUnmask hr (s.dev.unmask_of_silent h v addr data en fm hp hs) ⟨b.setEntry_vec_same h v addr data en fm,
      b.setEntry_msixFn h v addr data en fm, fun k hk => Store.get_put_ne _ _ _ _ hk, rfl, s.dev.onBasjo_keeps _, rfl, rfl⟩
  · -- MSIX_UNMASK of an absent port
    intro s h v addr data en fm hr hp
    exact .msixUnmask hr (s.dev.unmask_of_absent h v addr data en fm hp) rfl
  · -- EVT_POP of a queue that holds a record
    intro s a h n x r hr hp hre hm hu hc hq
    let b := s.dev.basjo
    have pops := (s.dev.evtPop_of_head a h n hp hre hm hu hc).trans (s.dev.popRec_of_cons a.origin h n x r hq)
    have frame : b.popHead h n x r = { b with regs := (b.popHead h n x r).regs, pops := (b.popHead h n x r).pops } := by
      rw [Basjo.popHead_frame]
    exact .evtPop hr pops ⟨b.popHead_pops_same h n x r, Dev.readGives_get _ _ _, b.popHead_latch h n x r,
      fun y hy => b.popHead_pops_ne h n x r hy, b.popHead_reg_out h n x r, frame,
      ((s.dev.onBasjo_keeps _).mono (by decide)).trans ((Dev.readGives_keeps _ _ _).mono (by decide)), rfl, rfl⟩
  · -- EVT_POP of an empty queue
    intro s a h n hr hp hre hm hu hc hq
    have pops := (s.dev.evtPop_of_head a h n hp hre hm hu hc).trans (s.dev.popRec_of_nil a.origin h n hq)
    exact .evtPop hr pops ⟨Dev.readGives_get _ _ _, s.dev.readGives_keeps _ _, rfl, rfl⟩
  · -- EVT_POP while the port's clock is stopped
    intro s a h n hr hp hre hm hu hc
    exact .evtPop hr ((s.dev.evtPop_of_permitted a h n hp hre hm hu).trans (if_pos hc)) ⟨rfl, s.dev.hold_keeps _, rfl, rfl⟩
  · -- EVT_POP the matrix forbids
    intro s a h n hr hp hre hm ho
    have denies := s.dev.evtPop_of_denied a h n hp hre hm
    rw [Dev.denied_of_agent _ _ _ _ _ _ _ _ ho] at denies
    refine .evtPop hr denies ?_
    have logged := s.dev.log_eventsOnly a.origin kDenied 1 h 0 (hostReg h (0x400 + 4 * n)) [] []
    refine ⟨Dev.readGives_get _ _ _, List.isPrefixOf_iff_prefix.mpr (s.dev.log_popsGrow _ _ _ _ _ _ _ _ _),
      fun k => logged.regs _ (s.dev.basjo.not_eventReg_latch h n k), ⟨?_, rfl, rfl⟩, fun _ _ => ?_, logged⟩
    · exact ((s.dev.log_keeps _ _ _ _ _ _ _ _).mono (by decide)).trans ((Dev.readGives_keeps _ _ _).mono (by decide))
    · rw [Dev.readGives_reg, Dev.log_reg]

end Sys2Proof.Machine
end

section
/-! SUPPORT. The refutation of `RingsRise`. -/
namespace Sys2Proof.Machine

/-- A frame of 64 octets that entered at port 0, referenced once and held in one cell. -/
def shortFrame : Stored := ⟨0, List.replicate 64 0, 64, 0, none, 0, none, none, 1, true, 0, 0, none, 1, 1, [⟨0, 1, []⟩], false⟩

/-- Host port 0 with its rings running, and ring 0 of it an active receive ring of 64 entries that takes its queue 0. -/
def receiveHost : Basjo :=
  ((((State.reset.dev.basjo.setReg (hostReg 0 0) 1).setReg (hostReg 0 0x300) 0x80000000).setReg (ringReg 0 0 0x10) 0x80060002).setReg
    (ringReg 0 0 0x1C) 0x10)

/-- A frame heads queue 0 of host port 0, whose receive ring has no buffer posted. -/
def frameWaits : State := { State.reset with dev := { State.reset.dev with
  basjo := receiveHost
  trunk := { State.reset.dev.trunk with frames := [(1, some shortFrame)], queues := [(288, ⟨[⟨0, 1, 0, .chip, false, 0⟩], none⟩)] } } }

/-- The driver has posted a buffer for it. -/
def bufferPosted : State := { frameWaits with dev := frameWaits.dev.doorbell 0 0 1 [⟨0, 2048⟩] }

/-- A doorbell leads from the one to the other. -/
theorem exec_doorbellWrite_frameWaits : exec (.doorbellWrite 0 0 1 [⟨0, 2048⟩]) frameWaits = .next bufferPosted :=
  frameWaits.onDev_runs (·.doorbell 0 0 1 [⟨0, 2048⟩]) (by decide)

/-- Host 0 as an agent. -/
def ringDriver : Acc := ⟨1, false⟩

/-- Crown's note whether a queue was eligible when its port was last looked at (R228). -/
def Dev.notedEligible (s : Dev) (q : Nat) : Option Bool := (s.crown.queues.get none q).map (·.was)

set_option maxRecDepth 8000 in
theorem bufferPosted_notedEligible : bufferPosted.dev.notedEligible 288 = some true := by decide

/-- The main die after RING_DISABLE of ring 0 of host port 0. -/
def Dev.ringZeroOff (s : Dev) : Dev :=
  s.writeField ringDriver (ringReg 0 0 0x10) (setBit (s.basjo.reg (ringReg 0 0 0x10)) 31 false)
    (fun x => (x.onBasjo (fun b => b.setRf (ringReg 0 0 0x10) 31 31 0)).noteEligible 36)

set_option maxRecDepth 8000 in
theorem bufferPosted_opens : bufferPosted.opens ringDriver (ringReg 0 0 0x10) = true := by decide

theorem exec_ringDisable_bufferPosted :
    exec (.ringDisable ringDriver 0 0) bufferPosted = .next { bufferPosted with dev := bufferPosted.dev.ringZeroOff } :=
  bufferPosted.onDev_runs Dev.ringZeroOff (bufferPosted.opens_runs _ _ bufferPosted_opens).1

set_option maxRecDepth 8000 in
/-- The ring no longer runs, so the queue that waits for it is no longer eligible (R65, R226). -/
theorem bufferPosted_ringZeroOff_notedEligible : bufferPosted.dev.ringZeroOff.notedEligible 288 = some false := by decide

/-- Refutes O9: the clause on RING_DISABLE has Crown stay as it was, and the model notes there at once which queues of the port are
still eligible (R226, R228). A frame heads queue 0 of host port 0 with a buffer posted for it; the driver disables the ring, and
the queue, eligible until then, is noted as eligible no more. -/
theorem not_ringsRise : ¬ Obligations.RingsRise := by
  unfold Obligations.RingsRise
  rintro ⟨-, -, -, disable, -⟩
  obtain ⟨t, ht, -, -, -, -, ⟨hkeeps, -⟩, -⟩ := disable bufferPosted ringDriver 0 0 bufferPosted_opens
  injection exec_ringDisable_bufferPosted.symm.trans ht with htarget
  subst htarget
  have hcrown : bufferPosted.dev.ringZeroOff.crown = bufferPosted.dev.crown := hkeeps .crown (by decide)
  have hsame : bufferPosted.dev.ringZeroOff.notedEligible 288 = bufferPosted.dev.notedEligible 288 := by
    rw [Dev.notedEligible, Dev.notedEligible, hcrown]
  rw [bufferPosted_ringZeroOff_notedEligible, bufferPosted_notedEligible] at hsame
  exact absurd hsame (by decide)

end Sys2Proof.Machine
end

section
/-! SUPPORT. The refutation of `ReceiveRingsFill`. -/
namespace Sys2Proof.Machine

/-- The frame Crown chose for host port 0. -/
def chosenFrame : TxRun := ⟨288, 0, 1, 0, List.replicate 64 0, 64, false, false, false, 0, 0, 0⟩

/-- A frame is chosen for host port 0, whose receive ring holds one buffer. The Trunk is under buffer pressure, one cell short of
PRESS_EXIT, and BUFFER_PRESSURE is routed to pop queue 0 of the port (R72, R215). -/
def underPressure : State := { State.reset with dev := { State.reset.dev.setRf (trunkReg 0) 16 0 16383 with
  basjo := (receiveHost.setRing 0 0 { RingRun.idle with posted := [⟨0, 2048⟩] }).setReg (hostReg 0 (0x100 + 4 * 22)) 0xC0000000
  crown := { State.reset.dev.crown with tx := [(36, some chosenFrame)] }
  trunk := { State.reset.dev.trunk with frames := [(1, some shortFrame)], press := true } } }

theorem exec_rxFrameWrite_underPressure : exec (.rxFrameWrite 0 false false false) underPressure =
    .next { underPressure with dev := (underPressure.dev.rxFrameWrite 0 false false false).modeDone } :=
  underPressure.onDev_runs (fun x => (x.rxFrameWrite 0 false false false).modeDone) (by decide)

set_option maxRecDepth 8000 in
/-- The cell the frame gives back ends the pressure, and the record of it stands in the pop queue. -/
theorem underPressure_pops :
    (underPressure.dev.rxFrameWrite 0 false false false).modeDone.basjo.pops ≠ underPressure.dev.basjo.pops := by decide

theorem Basjo.writeFrame_pops (h : Nat) (at_ : Nat → Nat) (meta_ ts last n : Nat) (l : List (RxBuf × Nat)) (b : Basjo) (i : Nat)
    (o : List Byte) : (b.writeFrame h at_ meta_ ts last n i l o).pops = b.pops := by
  induction l generalizing b i o with
  | nil => rfl
  | cons e r ih => exact ih _ _ _

theorem Basjo.written_pops (b : Basjo) (h : Nat) (at_ : Nat → Nat) (meta_ ts last n : Nat) (l : List (RxBuf × Nat)) (o : List Byte)
    (r k : Nat) (x : RingRun) : (((b.writeFrame h at_ meta_ ts last n 0 l o).advance h r k).setRing h r x).pops = b.pops :=
  Basjo.writeFrame_pops ..

/-- Refutes O12: the first clause says what the host interface is after the write, to the last field, and leaves out the records that
giving the frame's cells back may raise. Here they end the buffer pressure: BUFFER_PRESSURE cause 0x002 (R215) goes to a pop queue of the
port. -/
theorem not_receiveRingsFill : ¬ Obligations.ReceiveRingsFill := by
  unfold Obligations.ReceiveRingsFill
  rintro ⟨written, -⟩
  obtain ⟨t, ht, -, -, hbasjo, -⟩ := written underPressure 0 chosenFrame 0 0 [(⟨0, 2048⟩, 64)] shortFrame (by decide) (by decide)
    (by decide) (by decide) (by decide) (by decide) (by decide) (by decide) (by decide) (by decide)
  injection exec_rxFrameWrite_underPressure.symm.trans ht with htarget
  subst htarget
  dsimp only at hbasjo
  exact underPressure_pops ((congrArg Basjo.pops hbasjo).trans (Basjo.written_pops ..))

end Sys2Proof.Machine
end

section
/-! SUPPORT. Event records and host ports: where a class is not routed no record goes (R72), and a ring that does not run takes none. -/
namespace Sys2Proof.Machine

/-! ## A record stays at its host port -/

/-- Only vectors and pop queues of host port `h` differ, as far as vectors and pop queues go. -/
def Basjo.queuesAt (b : Basjo) (h : Nat) (b' : Basjo) : Prop :=
  (∀ k, k / 64 ≠ h → b'.vecs.get .idle k = b.vecs.get .idle k) ∧ ∀ k, k / 4 ≠ h → b'.pops.get .idle k = b.pops.get .idle k

theorem Basjo.queuesAt.of_eq {b b' : Basjo} {h : Nat} (hv : b'.vecs = b.vecs) (hp : b'.pops = b.pops) : b.queuesAt h b' :=
  ⟨fun _ _ => by rw [hv], fun _ _ => by rw [hp]⟩

theorem Basjo.queuesAt.trans {b b' b'' : Basjo} {h : Nat} (e : b.queuesAt h b') (e' : b'.queuesAt h b'') : b.queuesAt h b'' :=
  ⟨fun k hk => (e'.1 k hk).trans (e.1 k hk), fun k hk => (e'.2 k hk).trans (e.2 k hk)⟩

theorem Basjo.queuesAt.put_pop (b : Basjo) (h : Nat) (n : Fin 4) (q : PopQueue) :
    b.queuesAt h { b with pops := b.pops.put .idle (4 * h + n.val) q } :=
  ⟨fun _ _ => rfl, fun _ hk => Store.get_put_ne _ _ _ _ (by omega)⟩

theorem Basjo.signal_queuesAt (b : Basjo) (now h v : Nat) (hv : v < 64) : b.queuesAt h (b.signal now h v) := by
  refine ⟨fun k hk => ?_, fun k _ => by rw [b.signal_vecsOnly now h v]⟩
  have hne : k ≠ 64 * h + v := by omega
  unfold Basjo.signal
  dsimp only
  split
  · exact b.fire_vecs_ne h v hne
  · exact Store.get_put_ne _ _ _ _ hne

theorem Basjo.putRec_queuesAt (b : Basjo) (now h : Nat) (q : EvtQueue) (x : Rec) (hx : x.cls < 64) :
    b.queuesAt h (b.putRec now h q x) := by
  cases q with
  | ring r => exact (Basjo.queuesAt.of_eq rfl rfl).trans (Basjo.signal_queuesAt _ now h x.cls hx)
  | pop n => exact (Basjo.queuesAt.put_pop b h n _).trans (Basjo.signal_queuesAt _ now h x.cls hx)

theorem Basjo.loseRec_queuesAt (b : Basjo) (h : Nat) (q : EvtQueue) : b.queuesAt h (b.loseRec h q) := by
  cases q with
  | ring r => exact .of_eq rfl rfl
  | pop n => exact .put_pop b h n _

theorem Basjo.clearLost_queuesAt (b : Basjo) (h : Nat) (q : EvtQueue) : b.queuesAt h (b.clearLost h q) := by
  cases q with
  | ring r => exact .of_eq rfl rfl
  | pop n => exact .put_pop b h n _

theorem Basjo.overflow_queuesAt (b : Basjo) (now h : Nat) (q : EvtQueue) (sec ns : Nat) : b.queuesAt h (b.overflow now h q sec ns) := by
  unfold Basjo.overflow
  split
  · exact .of_eq rfl rfl
  · exact (b.putRec_queuesAt now h q _ (by decide : 7 < 64)).trans (Basjo.clearLost_queuesAt _ h q)

/-- What comes of a record delivered to a host port (R72, R76, R77): its class is not routed; or it is routed to a ring that does not
run, and is counted, taking a SEQ of the ring where it is enabled; or it meets its queue, after the records lost before it. -/
theorem Basjo.deliver_cases (b : Basjo) (now h : Nat) (x : Rec) :
    (bit (b.reg (hostReg h (0x100 + 4 * x.cls))) 31 = false ∧ b.deliver now h x = b) ∨
    (∃ n : Fin 128, b.deliver now h x = b.count (hostReg h 0x20) ∨
      b.deliver now h x = (b.setRing h n { b.ring h n with seq := (b.ring h n).seq + 1 }).count (hostReg h 0x20)) ∨
    (∃ q, (∀ n : Fin 128, q = .ring n → b.ringRuns h n 4 = true) ∧
      (b.deliver now h x = (b.overflow now h q x.sec x.ns).loseRec h q ∨
        b.deliver now h x = (b.overflow now h q x.sec x.ns).putRec now h q x)) := by
  generalize hw : b.reg (hostReg h (0x100 + 4 * x.cls)) = w
  have hn : (BitVec.toFin (w.extractLsb' 0 7) : Fin 128).val = fld w 6 0 := by simp [fld]
  unfold Basjo.deliver
  simp only [hw]
  by_cases h31 : bit w 31 = true
  · rw [if_neg (by rw [h31]; decide)]
    by_cases h30 : bit w 30 = true
    · rw [if_neg (by rw [h30]; simp)]
      refine .inr (.inr ⟨.pop (BitVec.toFin (w.extractLsb' 8 2)), fun n e => EvtQueue.noConfusion e, ?_⟩)
      rw [if_pos h30]
      split
      · exact .inl rfl
      · exact .inr rfl
    · by_cases hr : b.ringRuns h (fld w 6 0) 4 = true
      · rw [if_neg (by rw [hr]; simp)]
        refine .inr (.inr ⟨.ring (BitVec.toFin (w.extractLsb' 0 7)), fun n e => ?_, ?_⟩)
        · injection e with e
          rw [← e, hn]
          exact hr
        · rw [if_neg h30]
          split
          · exact .inl rfl
          · exact .inr rfl
      · rw [if_pos (by simp [h30, hr])]
        refine .inr (.inl ⟨BitVec.toFin (w.extractLsb' 0 7), ?_⟩)
        rw [hn]
        split
        · exact .inr rfl
        · exact .inl rfl
  · exact .inl ⟨by simpa using h31, if_pos (by simpa using h31)⟩

theorem Basjo.deliver_queuesAt (b : Basjo) (now h : Nat) (x : Rec) (hx : x.cls < 64) : b.queuesAt h (b.deliver now h x) := by
  obtain ⟨-, e⟩ | ⟨n, e | e⟩ | ⟨q, -, e | e⟩ := b.deliver_cases now h x <;> rw [e]
  · exact .of_eq rfl rfl
  · exact .of_eq rfl rfl
  · exact .of_eq rfl rfl
  · exact (b.overflow_queuesAt now h q x.sec x.ns).trans (Basjo.loseRec_queuesAt _ h q)
  · exact (b.overflow_queuesAt now h q x.sec x.ns).trans (Basjo.putRec_queuesAt _ now h q x hx)

/-! ## A ring that does not run -/

/-- Ring `r` of host port `h` and its device index are as they were. -/
def Basjo.ringSame (b : Basjo) (h r : Nat) (b' : Basjo) : Prop := b'.ring h r = b.ring h r ∧ b'.devIdx h r = b.devIdx h r

theorem Basjo.ringSame.trans {b b' b'' : Basjo} {h r : Nat} (e : b.ringSame h r b') (e' : b'.ringSame h r b'') : b.ringSame h r b'' :=
  ⟨e'.1.trans e.1, e'.2.trans e.2⟩

theorem Basjo.putRec_ringSame (b : Basjo) (now h r : Nat) (q : EvtQueue) (x : Rec) (hq : ∀ n : Fin 128, q = .ring n → n.val ≠ r) :
    b.ringSame h r (b.putRec now h q x) := by
  unfold Basjo.putRec
  cases q with
  | ring n =>
    have hn := hq n rfl
    dsimp only
    rw [Basjo.signal_vecsOnly _ now h x.cls]
    refine ⟨Store.get_put_ne _ _ _ _ (by omega), ?_⟩
    refine (Basjo.reg_setReg _ _ _ _).trans (if_neg ?_)
    simp only [ringReg, hostReg]
    omega
  | pop n =>
    dsimp only
    rw [Basjo.signal_vecsOnly _ now h x.cls]
    exact ⟨rfl, rfl⟩

theorem Basjo.loseRec_ringSame (b : Basjo) (h r : Nat) (q : EvtQueue) (hq : ∀ n : Fin 128, q = .ring n → n.val ≠ r) (hr : r < 128) :
    b.ringSame h r (b.loseRec h q) := by
  cases q with
  | ring n =>
    have hn := hq n rfl
    refine ⟨Store.get_put_ne _ _ _ _ (by omega), (Basjo.reg_count _ _ _ _).trans (if_neg (fun e => hn ?_))⟩
    exact (ringReg_inj hr n.isLt (by decide) (by decide) e).2.1.symm
  | pop n => exact ⟨rfl, rfl⟩

theorem Basjo.clearLost_ringSame (b : Basjo) (h r : Nat) (q : EvtQueue) (hq : ∀ n : Fin 128, q = .ring n → n.val ≠ r) :
    b.ringSame h r (b.clearLost h q) := by
  cases q with
  | ring n =>
    have hn := hq n rfl
    exact ⟨Store.get_put_ne _ _ _ _ (by omega), rfl⟩
  | pop n => exact ⟨rfl, rfl⟩

theorem Basjo.overflow_ringSame (b : Basjo) (now h r : Nat) (q : EvtQueue) (sec ns : Nat)
    (hq : ∀ n : Fin 128, q = .ring n → n.val ≠ r) : b.ringSame h r (b.overflow now h q sec ns) := by
  unfold Basjo.overflow
  split
  · exact ⟨rfl, rfl⟩
  · exact (b.putRec_ringSame now h r q _ hq).trans (Basjo.clearLost_ringSame _ h r q hq)

/-- A ring stopped at an entry (R57) stays stopped at it, whatever records come to its port. -/
theorem Basjo.deliver_stopped (b : Basjo) (now h r : Nat) (x : Rec) (hr : r < 128) (hs : (b.ring h r).stopped = true) :
    ((b.deliver now h x).ring h r).stopped = true ∧ (b.deliver now h x).devIdx h r = b.devIdx h r := by
  have counted : ∀ b' : Basjo, (b'.count (hostReg h 0x20)).devIdx h r = b'.devIdx h r := fun b' =>
    (b'.reg_count _ _ _).trans (if_neg (ringReg_ne_hostReg hr (by decide) (by decide)))
  have other : ∀ q : EvtQueue, (∀ n : Fin 128, q = .ring n → b.ringRuns h n 4 = true) → ∀ n : Fin 128, q = .ring n → n.val ≠ r := by
    rintro q hq n e rfl
    have runs := hq n e
    rw [Basjo.ringRuns, hs, Bool.not_true, Bool.and_false] at runs
    exact Bool.noConfusion runs
  obtain ⟨-, e⟩ | ⟨n, e | e⟩ | ⟨q, hq, e | e⟩ := b.deliver_cases now h x <;> rw [e]
  · exact ⟨hs, rfl⟩
  · exact ⟨hs, counted b⟩
  · refine ⟨?_, counted _⟩
    by_cases hn : n.val = r
    · subst hn
      exact (congrArg RingRun.stopped (b.setRing_ring_same h n.val _)).trans hs
    · exact (congrArg RingRun.stopped (Store.get_put_ne _ _ _ _ (by omega))).trans hs
  · obtain ⟨hring, hidx⟩ := (b.overflow_ringSame now h r q x.sec x.ns (other q hq)).trans
      (Basjo.loseRec_ringSame _ h r q (other q hq) hr)
    exact ⟨by rw [hring]; exact hs, hidx⟩
  · obtain ⟨hring, hidx⟩ := (b.overflow_ringSame now h r q x.sec x.ns (other q hq)).trans
      (Basjo.putRec_ringSame _ now h r q x (other q hq))
    exact ⟨by rw [hring]; exact hs, hidx⟩

end Sys2Proof.Machine
end

section
/-! SUPPORT. Event records, and the end of a command, start no ring and tell nothing to a host port that has reset. -/
namespace Sys2Proof.Machine

/-! ## Registers of a port -/

theorem hostReg_inj {h h' o o' : Nat} (ho : o < 0x10000) (ho' : o' < 0x10000) (e : hostReg h o = hostReg h' o') : h = h' ∧ o = o' := by
  simp only [hostReg] at e
  omega

theorem Basjo.not_eventReg_hostReg (b : Basjo) {h o : Nat} (ho : o < 0x1000) (hne : o ≠ 0x20) : ¬ b.eventReg (hostReg h o) := by
  rintro ⟨h', r, hr, e | ⟨-, e | e⟩⟩
  · exact hne (hostReg_inj (by omega) (by decide) e).2
  · exact ringReg_ne_hostReg hr (by decide) ho e.symm
  · exact ringReg_ne_hostReg hr (by decide) ho e.symm

/-- No event class is routed at host port `h` (R72). -/
def Basjo.unrouted (b : Basjo) (h : Nat) : Prop := ∀ c < 64, bit (b.reg (hostReg h (0x100 + 4 * c))) 31 = false

/-- No ring of host port `h` is enabled or active. -/
def Basjo.ringsOff (b : Basjo) (h : Nat) : Prop := ∀ r < 128, b.ringEnabled h r = false ∧ b.ringActive h r = false

/-- The vectors and pop queues of host port `h` are as they were. -/
def Basjo.queuesSame (b : Basjo) (h : Nat) (b' : Basjo) : Prop :=
  (∀ v < 64, b'.vec h v = b.vec h v) ∧ ∀ n < 4, b'.pops.get .idle (4 * h + n) = b.pops.get .idle (4 * h + n)

theorem Basjo.queuesSame.of_eq {b b' : Basjo} {h : Nat} (hv : b'.vecs = b.vecs) (hp : b'.pops = b.pops) : b.queuesSame h b' :=
  ⟨fun v _ => by rw [Basjo.vec, hv]; rfl, fun n _ => by rw [hp]⟩

theorem Basjo.queuesSame.trans {b b' b'' : Basjo} {h : Nat} (e : b.queuesSame h b') (e' : b'.queuesSame h b'') : b.queuesSame h b'' :=
  ⟨fun v hv => (e'.1 v hv).trans (e.1 v hv), fun n hn => (e'.2 n hn).trans (e.2 n hn)⟩

/-! ## Event records -/

/-- The host interface changed by event records, none of which went to a port that routes no class. -/
structure Basjo.recordsOnly (b b' : Basjo) : Prop where
  events : b.eventsOnly b'
  silent : ∀ h, b.unrouted h → b.queuesSame h b'

theorem Basjo.eventsOnly.unrouted {b b' : Basjo} (e : b.eventsOnly b') {h : Nat} (hu : b.unrouted h) : b'.unrouted h := fun c hc => by
  rw [e.regs _ (b.not_eventReg_hostReg (by omega) (by omega))]
  exact hu c hc

theorem Basjo.eventsOnly.ringEnabled {b b' : Basjo} (e : b.eventsOnly b') {h r : Nat} (hr : r < 128) :
    b'.ringEnabled h r = b.ringEnabled h r := by
  simp only [Basjo.ringEnabled, Basjo.rb, e.ringReg_low hr (show 0x10 < 0x18 by decide)]

theorem Basjo.recordsOnly.refl (b : Basjo) : b.recordsOnly b := ⟨.refl b, fun _ _ => .of_eq rfl rfl⟩

theorem Basjo.recordsOnly.trans {b b' b'' : Basjo} (e : b.recordsOnly b') (e' : b'.recordsOnly b'') : b.recordsOnly b'' :=
  ⟨e.events.trans e'.events, fun h hu => (e.silent h hu).trans (e'.silent h (e.events.unrouted hu))⟩

theorem Basjo.deliver_recordsOnly (b : Basjo) (now h : Nat) (x : Rec) (hx : x.cls < 64) : b.recordsOnly (b.deliver now h x) := by
  refine ⟨b.deliver_eventsOnly now h x, fun p hu => ?_⟩
  by_cases hp : p = h
  · subst hp
    have none : b.deliver now p x = b := if_pos (by rw [hu x.cls hx]; decide)
    rw [none]
    exact .of_eq rfl rfl
  · obtain ⟨hvecs, hpops⟩ := b.deliver_queuesAt now h x hx
    exact ⟨fun v hv => hvecs _ (by omega), fun n hn => hpops _ (by omega)⟩

theorem Dev.raiseAt_recordsOnly (s : Dev) (h cls cause cl u x y : Nat) (hc : cls < 64) :
    s.basjo.recordsOnly (s.raiseAt h cls cause cl u x y).basjo := Basjo.deliver_recordsOnly _ _ _ _ hc

theorem Dev.raise_recordsOnly (s : Dev) (cls cause cl u x y : Nat) (hc : cls < 64) :
    s.basjo.recordsOnly (s.raise cls cause cl u x y).basjo := by
  have fold : ∀ (l : List Nat) (b : Basjo),
      b.recordsOnly (l.foldl (fun z h => z.deliver s.now h (s.mkRec cls cause cl u x y s.now)) b) := by
    intro l
    induction l with
    | nil => exact .refl
    | cons h r ih => exact fun b => (b.deliver_recordsOnly _ _ _ hc).trans (ih _)
  exact fold _ _

theorem Dev.raiseOther_recordsOnly (s : Dev) (h cls cause x y : Nat) (hc : cls < 64) :
    s.basjo.recordsOnly (s.raiseOther h cls cause x y).basjo := by
  unfold Dev.raiseOther
  split
  · exact s.raiseAt_recordsOnly _ _ _ _ _ _ _ hc
  · exact .refl _

theorem Dev.logRaw_recordsOnly (s : Dev) (o k cl u op tg : Nat) (x y : DWord) : s.basjo.recordsOnly (s.logRaw o k cl u op tg x y).basjo :=
  Dev.raise_recordsOnly _ _ _ _ _ _ _ (by decide)

theorem Dev.logHw_recordsOnly (s : Dev) (k cl u x y : Nat) : s.basjo.recordsOnly (s.logHw k cl u x y).basjo :=
  s.logRaw_recordsOnly _ _ _ _ _ _ _ _

/-! ## What starts no ring -/

/-- No ring of a host port starts, nothing is told to a port that routes no class and has no ring on, and below its rings no
register of a port changes but the counters named. -/
structure Basjo.startsNothing (counters : List Nat) (b b' : Basjo) : Prop where
  regs : ∀ h o, o < 0x1000 → o ∉ counters → b'.reg (hostReg h o) = b.reg (hostReg h o)
  up : b'.up = b.up
  dead : b'.dead = b.dead
  msix : b'.msix = b.msix
  unrouted : ∀ h, b.unrouted h → b'.unrouted h
  ringsOff : ∀ h, b.ringsOff h → b'.ringsOff h
  silent : ∀ h, b.unrouted h → b.ringsOff h → b.queuesSame h b'

section
variable {l l' : List Nat} {b b' b'' : Basjo}

theorem Basjo.startsNothing.refl (b : Basjo) : Basjo.startsNothing l b b :=
  ⟨fun _ _ _ _ => rfl, rfl, rfl, rfl, fun _ => id, fun _ => id, fun _ _ _ => .of_eq rfl rfl⟩

theorem Basjo.startsNothing.trans (e : Basjo.startsNothing l b b') (e' : Basjo.startsNothing l b' b'') : Basjo.startsNothing l b b'' where
  regs h o ho hl := (e'.regs h o ho hl).trans (e.regs h o ho hl)
  up := e'.up.trans e.up
  dead := e'.dead.trans e.dead
  msix := e'.msix.trans e.msix
  unrouted h hu := e'.unrouted h (e.unrouted h hu)
  ringsOff h hr := e'.ringsOff h (e.ringsOff h hr)
  silent h hu hr := (e.silent h hu hr).trans (e'.silent h (e.unrouted h hu) (e.ringsOff h hr))

theorem Basjo.startsNothing.mono (e : Basjo.startsNothing l b b') (hl : l ⊆ l') : Basjo.startsNothing l' b b' :=
  { e with regs := fun h o ho hn => e.regs h o ho (fun hm => hn (hl hm)) }

theorem Basjo.recordsOnly.startsNothing (e : b.recordsOnly b') (hl : 0x20 ∈ l) : Basjo.startsNothing l b b' where
  regs h o ho ho' := e.events.regs _ (b.not_eventReg_hostReg ho (fun h => ho' (h ▸ hl)))
  up := e.events.up
  dead := e.events.dead
  msix := e.events.msix
  unrouted _ hu := e.events.unrouted hu
  ringsOff h hr r hlt := by rw [e.events.ringEnabled hlt, e.events.ringActive hlt]; exact hr r hlt
  silent h hu _ := e.silent h hu

/-- Beside the registers, only what a ring or host memory holds, or the rate of a record, has changed. -/
theorem Basjo.startsNothing.of_regs (h1 : b'.regs = b.regs) (h2 : b'.up = b.up) (h3 : b'.dead = b.dead) (h4 : b'.msix = b.msix)
    (h5 : b'.vecs = b.vecs) (h6 : b'.pops = b.pops) : Basjo.startsNothing l b b' := by
  have hreg : b'.reg = b.reg := by funext a; rw [Basjo.reg, h1]; rfl
  exact ⟨fun _ _ _ _ => by rw [hreg], h2, h3, h4, fun h hu c hc => by rw [hreg]; exact hu c hc,
    fun h hr r hlt => by
      simp only [Basjo.ringEnabled, Basjo.ringActive, Basjo.rb, hreg]
      exact hr r hlt,
    fun _ _ _ => .of_eq h5 h6⟩

theorem Basjo.setRing_startsNothing (b : Basjo) (h r : Nat) (v : RingRun) : Basjo.startsNothing l b (b.setRing h r v) :=
  .of_regs rfl rfl rfl rfl rfl rfl

/-- A counter of a port is written. -/
theorem Basjo.setReg_counter_startsNothing (b : Basjo) (h o : Nat) (w : Word) (ho : o < 0x100) :
    Basjo.startsNothing [o] b (b.setReg (hostReg h o) w) where
  regs h' o' ho' hl := (b.reg_setReg _ _ w).trans (if_neg (fun e => hl (by rw [(hostReg_inj (by omega) (by omega) e).2]; simp)))
  up := rfl
  dead := rfl
  msix := rfl
  unrouted h' hu c hc := by
    rw [Basjo.reg_setReg, if_neg (fun e => by have := (hostReg_inj (by omega) (by omega) e).2; omega)]
    exact hu c hc
  ringsOff h' hr r hlt := by
    simp only [Basjo.ringEnabled, Basjo.ringActive, Basjo.rb, Basjo.reg_setReg, ringReg_ne_hostReg hlt (show 0x10 < 0x40 by decide)
      (show o < 0x1000 by omega), ringReg_ne_hostReg hlt (show 0x1C < 0x40 by decide) (show o < 0x1000 by omega), if_false]
    exact hr r hlt
  silent _ _ _ := .of_eq rfl rfl

/-- A register of a ring is written, but not its ENABLE, and ACTIVE does not rise. -/
theorem Basjo.setReg_ring_startsNothing (b : Basjo) (h r o : Nat) (w : Word) (hr : r < 128) (ho : o < 0x40) (hen : o ≠ 0x10)
    (hact : o = 0x1C → bit w 4 = true → b.ringActive h r = true) : Basjo.startsNothing l b (b.setReg (ringReg h r o) w) where
  regs h' o' ho' _ := (b.reg_setReg _ _ w).trans (if_neg (ringReg_ne_hostReg hr ho ho').symm)
  up := rfl
  dead := rfl
  msix := rfl
  unrouted h' hu c hc := by
    rw [Basjo.reg_setReg, if_neg (ringReg_ne_hostReg hr ho (by omega)).symm]
    exact hu c hc
  ringsOff h' hoff r' hlt := by
    obtain ⟨henabled, hactive⟩ := hoff r' hlt
    constructor
    · rw [Basjo.ringEnabled, Basjo.rb, Basjo.reg_setReg, if_neg (fun e => hen (ringReg_inj hlt hr (by decide) ho e).2.2.symm)]
      exact henabled
    · rw [Basjo.ringActive, Basjo.rb, Basjo.reg_setReg]
      split
      · next e =>
        obtain ⟨rfl, rfl, rfl⟩ := ringReg_inj hlt hr (by decide) ho e
        rw [Bool.eq_false_iff]
        exact fun hw => absurd (hact rfl hw) (by rw [hactive]; decide)
      · exact hactive
  silent _ _ _ := .of_eq rfl rfl

end

/-! ## Ring faults and the end of a command -/

/-- What a fault leaves in the host interface before it is told (R57): the failed access counted, the cause in the status of the ring,
and the ring stopped at its entry. -/
def Basjo.faulted (b : Basjo) (h r : Nat) (dma : Bool) : Basjo :=
  let b := if dma then b.count (hostReg h 0x1C) else b
  ((b.setRf (ringReg h r 0x1C) dma.toNat dma.toNat 1).setRing h r
    { b.ring h r with stopped := true, running := none, waiting := none, descs := [], rejecting := false }).setActive h r false

theorem Dev.ringFault_eq (s : Dev) (h r : Nat) (dma : Bool) : s.ringFault h r dma =
    (s.onBasjo (·.faulted h r dma)).raiseAt h 2 (1 + dma.toNat) 1 h r ((s.basjo.faulted h r dma).devIdx h r).toNat := rfl

theorem bit_setActive_false (w : Word) : bit (setFld w 4 4 0) 4 = false := by
  rw [bit_setFld_in w 4 4 0 4 (by decide) (by decide)]; rfl

theorem Basjo.faulted_startsNothing (b : Basjo) (h r : Nat) (dma : Bool) (hr : r < 128) :
    Basjo.startsNothing [0x1C] b (b.faulted h r dma) := by
  have counted : Basjo.startsNothing [0x1C] b (if dma then b.count (hostReg h 0x1C) else b) := by
    split
    · exact b.setReg_counter_startsNothing h 0x1C _ (by decide)
    · exact .refl b
  refine counted.trans ?_
  unfold Basjo.faulted
  generalize (if dma then b.count (hostReg h 0x1C) else b) = b'
  have status := b'.setReg_ring_startsNothing (l := [0x1C]) h r 0x1C (setFld (b'.reg (ringReg h r 0x1C)) dma.toNat dma.toNat 1) hr
    (by decide) (by decide) (fun _ hw => by
      rw [bit_setFld_out _ _ _ _ _ (by cases dma <;> decide) (by decide)] at hw
      exact hw)
  refine status.trans (Basjo.startsNothing.trans (Basjo.setRing_startsNothing _ h r _)
    (Basjo.setReg_ring_startsNothing _ h r 0x1C (setFld _ 4 4 0) hr (by decide) (by decide) (fun _ hw => ?_)))
  rw [bit_setActive_false] at hw
  exact Bool.noConfusion hw

/-- A port that routes no class is told nothing of a fault either. -/
theorem Dev.ringFault_startsNothing (s : Dev) (h r : Nat) (dma : Bool) (hr : r < 128) :
    Basjo.startsNothing [0x1C, 0x20] s.basjo (s.ringFault h r dma).basjo := by
  have told := (s.onBasjo (·.faulted h r dma)).raiseAt_recordsOnly h 2 (1 + dma.toNat) 1 h r
    ((s.basjo.faulted h r dma).devIdx h r).toNat (by decide)
  exact ((s.basjo.faulted_startsNothing h r dma hr).mono (by simp)).trans (told.startsNothing (by simp))

theorem Dev.finish_startsNothing (s : Dev) (d : CmdDesc) (st x y : Nat) :
    Basjo.startsNothing [0x1C, 0x20] s.basjo (s.finish d st x y).basjo := by
  have hr := d.ring.isLt
  unfold Dev.finish
  dsimp only
  split
  · exact .of_regs rfl rfl rfl rfl rfl rfl
  · split
    · exact s.ringFault_startsNothing _ _ _ hr
    · have wrote : ∀ (m : Store Byte) (w : Word) (v : RingRun), Basjo.startsNothing [0x1C, 0x20] s.basjo
          (({ s.basjo.setReg (ringReg d.host.val d.ring.val 0x18) w with mem := m } : Basjo).setRing d.host.val d.ring.val v) :=
        fun m w v => (s.basjo.setReg_ring_startsNothing d.host.val d.ring.val 0x18 w hr (by decide) (by decide)
          (fun e => absurd e (by decide))).trans (.of_regs rfl rfl rfl rfl rfl rfl)
      split
      · exact wrote _ _ _
      · refine Basjo.startsNothing.trans ?_ (Basjo.recordsOnly.startsNothing (Dev.raiseAt_recordsOnly _ _ _ _ _ _ _ _ ?_) (by simp))
        · exact wrote _ _ _
        · split <;> decide

theorem Dev.complete_startsNothing (s : Dev) (d : CmdDesc) (op : Nat) (kind : Option Nat) (st x y : Nat) :
    Basjo.startsNothing [0x1C, 0x20] s.basjo (s.complete d op kind st x y).basjo := by
  unfold Dev.complete
  cases kind with
  | none => exact s.finish_startsNothing d st x y
  | some k =>
    dsimp only
    split
    · exact ((s.logRaw_recordsOnly _ _ _ _ _ _ _ _).startsNothing (by simp)).trans (Dev.finish_startsNothing _ d st x y)
    · exact s.finish_startsNothing d st x y

theorem Dev.completeLate_startsNothing (s : Dev) (d : CmdDesc) (op : Nat) (kind : Option Nat) (st x y : Nat) :
    Basjo.startsNothing [0x1C, 0x20] s.basjo (s.completeLate d op kind st x y).basjo := by
  unfold Dev.completeLate
  dsimp only
  split
  · exact s.complete_startsNothing d op kind st x y
  · cases kind with
    | none => exact .refl _
    | some k =>
      dsimp only
      split
      · exact (s.logRaw_recordsOnly _ _ _ _ _ _ _ _).startsNothing (by simp)
      · exact .refl _

/-! ## MODE_SET -/

theorem Dev.modeDone_of_none (s : Dev) (h : s.tap.modeCmd = none) : s.modeDone = s := by
  unfold Dev.modeDone
  rw [h]

theorem Dev.completeLate_crown (s : Dev) (d : CmdDesc) (op : Nat) (kind : Option Nat) (st x y : Nat) :
    (s.completeLate d op kind st x y).crown = s.crown := by
  unfold Dev.completeLate
  dsimp only
  split
  · exact Dev.complete_crown ..
  · cases kind with
    | none => rfl
    | some k => dsimp only; split <;> rfl

/-- The completion of a MODE_SET that waited starts no ring. -/
theorem Dev.modeDone_startsNothing (s : Dev) : Basjo.startsNothing [0x1C, 0x20] s.basjo s.modeDone.basjo := by
  unfold Dev.modeDone
  split
  · exact .refl _
  · split
    · exact .refl _
    · exact Dev.completeLate_startsNothing (s.onTapState _) _ _ _ _ _ _

theorem Dev.modeDone_crown (s : Dev) : s.modeDone.crown = s.crown := by
  unfold Dev.modeDone
  split
  · rfl
  · split
    · rfl
    · exact Dev.completeLate_crown ..

end Sys2Proof.Machine
end

section
/-! SUPPORT. What a frame given up, and the sleep ballot, leave alone (R190, R192, R215, R490 to R496). -/
namespace Sys2Proof.Machine

/-! ## Frames -/

theorem Dev.keeps.refl (s : Dev) (l : List Part) : s.keeps l s := fun p _ => by cases p <;> exact rfl

theorem Dev.setReg_keeps (s : Dev) (a : Nat) (v : Word) : s.keeps [.regs] (s.setReg a v) := by
  intro p hp
  cases p with
  | regs => exact absurd (List.mem_singleton_self _) hp
  | _ => rfl

theorem Dev.onTapState_keeps (s : Dev) (f : Tap → Tap) : s.keeps [.tap] (s.onTapState f) := by
  intro p hp
  cases p with
  | tap => exact absurd (List.mem_singleton_self _) hp
  | _ => rfl

theorem Dev.withTrunk_keeps (s : Dev) (k : Trunk) : s.keeps [.trunk] { s with trunk := k } := by
  intro p hp
  cases p with
  | trunk => exact absurd (List.mem_singleton_self _) hp
  | _ => rfl

theorem Dev.withCrown_keeps (s : Dev) (k : Crown) : s.keeps [.crown] { s with crown := k } := by
  intro p hp
  cases p with
  | crown => exact absurd (List.mem_singleton_self _) hp
  | _ => rfl

theorem Dev.dropHolds_keeps (s : Dev) (o : Nat) : s.keeps [.clocks] (s.dropHolds o) := by
  intro p hp
  cases p with
  | clocks => exact absurd (List.mem_singleton_self _) hp
  | _ => rfl

/-- Beside the named parts of the main die, only event records change the host interface. -/
structure Dev.tells (parts : List Part) (s t : Dev) : Prop where
  parts : s.keeps (.basjo :: parts) t
  records : s.basjo.recordsOnly t.basjo

section
variable {l l' : List Part} {s t u : Dev}

theorem Dev.tells.refl (s : Dev) : Dev.tells l s s := ⟨.refl s _, .refl _⟩

theorem Dev.tells.trans (h : Dev.tells l s t) (h' : Dev.tells l t u) : Dev.tells l s u :=
  ⟨h.parts.trans h'.parts, h.records.trans h'.records⟩

theorem Dev.tells.mono (h : Dev.tells l s t) (hl : l ⊆ l') : Dev.tells l' s t :=
  ⟨h.parts.mono (List.cons_subset_cons _ hl), h.records⟩

/-- A change of parts that are not the host interface. -/
theorem Dev.tells.of_keeps (h : s.keeps l t) (hb : t.basjo = s.basjo) : Dev.tells l s t :=
  ⟨h.mono (List.subset_cons_self _ _), by rw [hb]; exact .refl _⟩

theorem Dev.raise_tells (s : Dev) (cls cause cl u x y : Nat) (hc : cls < 64) : Dev.tells l s (s.raise cls cause cl u x y) :=
  ⟨(s.onBasjo_keeps _).mono (by simp), s.raise_recordsOnly _ _ _ _ _ _ hc⟩

theorem Dev.raiseAt_keeps (s : Dev) (h cls cause cl u x y : Nat) : s.keeps [.basjo] (s.raiseAt h cls cause cl u x y) :=
  s.onBasjo_keeps _

theorem Dev.raiseOther_tells (s : Dev) (h cls cause x y : Nat) (hc : cls < 64) : Dev.tells l s (s.raiseOther h cls cause x y) := by
  refine ⟨?_, s.raiseOther_recordsOnly _ _ _ _ _ hc⟩
  unfold Dev.raiseOther
  split
  · exact (s.raiseAt_keeps _ _ _ _ _ _ _).mono (by simp)
  · exact .refl s _

theorem Dev.logHw_tells (s : Dev) (k cl u x y : Nat) (hl : .audit ∈ l) : Dev.tells l s (s.logHw k cl u x y) :=
  ⟨(s.log_keeps _ _ _ _ _ _ _ _).mono (by simpa using hl), s.logHw_recordsOnly _ _ _ _ _⟩

theorem Dev.setReg_tells (s : Dev) (a : Nat) (v : Word) (hl : .regs ∈ l) : Dev.tells l s (s.setReg a v) :=
  (Dev.tells.of_keeps (s.setReg_keeps a v) rfl).mono (by simpa using hl)

end

/-! ## A frame given up (R190, R192) -/

/-- The two halves of BUFFER_PRESSURE (R215): causes 1 and 2, of the cells, and causes 3 and 4, of the descriptors. -/
def Dev.cellPressure (s : Dev) : Dev :=
  if !s.trunk.press && s.freeCells < s.rf (trunkReg 0x10) 16 0
  then ({ s with trunk := { s.trunk with press := true } } : Dev).raise 22 1 0x20 0 s.freeCells s.fullestPort
  else if s.trunk.press && s.freeCells ≥ s.rf (trunkReg 0x14) 16 0
  then ({ s with trunk := { s.trunk with press := false } } : Dev).raise 22 2 0x20 0 s.freeCells 0 else s

def Dev.descPressure (s : Dev) : Dev :=
  let desc := s.rf (trunkReg 4) 17 0
  let th := s.rf (trunkReg 0x18) 17 0
  if !s.trunk.descPress && desc < th
  then ({ s with trunk := { s.trunk with descPress := true } } : Dev).raise 22 3 0x20 1 desc s.fullestQueue
  else if s.trunk.descPress && (desc ≥ 2 * th || desc ≥ 131072)
  then ({ s with trunk := { s.trunk with descPress := false } } : Dev).raise 22 4 0x20 1 desc 0 else s

theorem Dev.pressure_eq (s : Dev) : s.pressure = s.cellPressure.descPressure := rfl

theorem Dev.withTrunk_raise_tells (s : Dev) (k : Trunk) (cause u y z : Nat) :
    Dev.tells [.trunk] s (({ s with trunk := k } : Dev).raise 22 cause 0x20 u y z) :=
  Dev.tells.trans (.of_keeps (s.withTrunk_keeps k) rfl) (Dev.raise_tells _ _ _ _ _ _ _ (by decide))

theorem Dev.pressure_tells (s : Dev) : Dev.tells [.trunk] s s.pressure := by
  rw [Dev.pressure_eq]
  refine Dev.tells.trans (t := s.cellPressure) ?_ ?_
  · unfold Dev.cellPressure
    split
    · exact s.withTrunk_raise_tells _ _ _ _ _
    · split
      · exact s.withTrunk_raise_tells _ _ _ _ _
      · exact .refl s
  · generalize s.cellPressure = x
    unfold Dev.descPressure
    dsimp only
    split
    · exact x.withTrunk_raise_tells _ _ _ _ _
    · split
      · exact x.withTrunk_raise_tells _ _ _ _ _
      · exact .refl x

theorem Dev.banksGo_tells (s : Dev) : Dev.tells [.regs, .trunk] s s.banksGo := by
  unfold Dev.banksGo
  split
  · exact .refl s
  · refine Dev.tells.trans ?_ (Dev.setReg_tells _ _ _ (by simp))
    exact .of_keeps ((s.withTrunk_keeps _).mono (by simp)) rfl

theorem Dev.giveCells_tells (s : Dev) (p n : Nat) : Dev.tells [.regs, .trunk] s (s.giveCells p n) :=
  have gauges : Dev.tells [.regs, .trunk] s ((s.setRf (trunkReg 0) 16 0 (s.freeCells + n)).setRf (trunkReg (0x1008 + 0x20 * p)) 16 0
      (s.usedCells p - n)) := (s.setReg_tells _ _ (by decide)).trans (Dev.setReg_tells _ _ _ (by decide))
  (gauges.trans (Dev.banksGo_tells _)).trans ((Dev.pressure_tells _).mono (by simp))

theorem Dev.leaveVersion_tells (s : Dev) (tag : Option Nat) : Dev.tells [.regs, .trunk] s (s.leaveVersion tag) := by
  cases tag with
  | none => exact .refl s
  | some v => exact s.setReg_tells _ _ (by simp)

theorem Dev.setStored_tells (s : Dev) (id : Nat) (f : Option Stored) : Dev.tells [.regs, .trunk] s (s.setStored id f) :=
  Dev.tells.of_keeps ((s.withTrunk_keeps _).mono (by simp)) rfl

/-- A frame given up changes the Trunk's gauges and the count of its version, and may end a pressure. -/
theorem Dev.release_tells (s : Dev) (id : Nat) : Dev.tells [.regs, .trunk] s (s.release id) := by
  unfold Dev.release
  split
  · exact .refl s
  · split
    · exact ((s.setStored_tells _ _).trans (Dev.giveCells_tells _ _ _)).trans (Dev.leaveVersion_tells _ _)
    · exact s.setStored_tells _ _

/-! ## A frame dropped for a host (R73) -/

/-- An occurrence under an interval is counted, or its record is raised. -/
theorem Dev.rated_cases (s : Dev) (key iv : Nat) (f : Nat → Dev → Dev) : ∃ m : Store RateRec,
    s.rated key iv f = s.onBasjo (fun b => { b with rate := m }) ∨ ∃ n, s.rated key iv f = f n (s.onBasjo (fun b => { b with rate := m })) := by
  unfold Dev.rated
  dsimp only
  generalize Store.get RateRec.idle s.basjo.rate key = r
  cases r.last with
  | none => exact ⟨_, .inr ⟨_, if_pos rfl⟩⟩
  | some t =>
    dsimp only
    split
    · exact ⟨_, .inr ⟨_, rfl⟩⟩
    · exact ⟨_, .inl rfl⟩

/-- A frame dropped for a link that is down is counted, and told to the other host port or counted under its interval. -/
theorem Dev.rxDrop_cases (s : Dev) (h t : Nat) : ∃ m : Store RateRec,
    s.rxDrop h t 1 = s.onBasjo (fun b => { b.count (hostReg h 0x18) with rate := m }) ∨
      ∃ n, s.rxDrop h t 1 = (s.onBasjo (fun b => { b.count (hostReg h 0x18) with rate := m })).raiseOther h 3 1 t n :=
  (s.onBasjo (fun b => b.count (hostReg h 0x18))).rated_cases _ _ (fun n s => s.raiseOther h 3 1 t n)

theorem Dev.rxDrop_startsNothing (s : Dev) (h t : Nat) : Basjo.startsNothing [0x18, 0x20] s.basjo (s.rxDrop h t 1).basjo := by
  have counted : ∀ m, Basjo.startsNothing [0x18, 0x20] s.basjo { s.basjo.count (hostReg h 0x18) with rate := m } := fun m =>
    ((s.basjo.setReg_counter_startsNothing h 0x18 _ (by decide)).mono (by simp)).trans (.of_regs rfl rfl rfl rfl rfl rfl)
  obtain ⟨m, e | ⟨n, e⟩⟩ := s.rxDrop_cases h t <;> rw [e]
  · exact counted m
  · refine Basjo.startsNothing.trans ?_ ((Dev.raiseOther_recordsOnly _ h 3 1 t n (by decide)).startsNothing (by simp))
    exact counted m

theorem Dev.rxDrop_keeps (s : Dev) (h t : Nat) : s.keeps [.basjo] (s.rxDrop h t 1) := by
  obtain ⟨m, e | ⟨n, e⟩⟩ := s.rxDrop_cases h t <;> rw [e]
  · exact s.onBasjo_keeps _
  · exact (s.onBasjo_keeps _).trans (Dev.raiseOther_tells (l := []) _ _ _ _ _ _ (by decide)).parts

/-! ## The sleep ballot (R490 to R496) -/

/-- What the sleep ballot changes: its registers, its own state but the MODE_SET that waits, and event records. -/
structure Dev.ballotOnly (s t : Dev) : Prop where
  tells : Dev.tells [.regs, .tap] s t
  regs : ∀ a, ballotReg a = false → t.reg a = s.reg a
  modeCmd : t.tap.modeCmd = s.tap.modeCmd

theorem Dev.ballotOnly.refl (s : Dev) : s.ballotOnly s := ⟨.refl s, fun _ _ => rfl, rfl⟩

theorem Dev.ballotOnly.trans {s t u : Dev} (h : s.ballotOnly t) (h' : t.ballotOnly u) : s.ballotOnly u :=
  ⟨h.tells.trans h'.tells, fun a ha => (h'.regs a ha).trans (h.regs a ha), h'.modeCmd.trans h.modeCmd⟩

theorem Dev.setReg_ballotOnly (s : Dev) (a : Nat) (v : Word) (ha : ballotReg a = true) : s.ballotOnly (s.setReg a v) :=
  ⟨s.setReg_tells a v (by simp), fun r hr => s.reg_setReg_ne v (fun e => by rw [e, ha] at hr; exact Bool.noConfusion hr), rfl⟩

theorem Dev.onTapState_ballotOnly (s : Dev) (f : Tap → Tap) (hf : (f s.tap).modeCmd = s.tap.modeCmd) : s.ballotOnly (s.onTapState f) :=
  ⟨(Dev.tells.of_keeps (s.onTapState_keeps f) rfl).mono (by simp), fun _ _ => rfl, hf⟩

theorem Dev.wakeSleep_ballotOnly (s : Dev) (cause a b : Nat) : s.ballotOnly (s.wakeSleep cause a b) :=
  ⟨s.raise_tells _ _ _ _ _ _ (by decide), fun _ _ => rfl, rfl⟩

theorem ballotReg_srcReg {k : Nat} (hk : k < 64) : ballotReg (srcReg k 0) = true := by
  unfold ballotReg
  rw [Bool.or_eq_true]
  exact .inr (List.any_eq_true.mpr ⟨k, List.mem_range.mpr hk, decide_eq_true rfl⟩)

theorem Dev.storeVotes_ballotOnly (s : Dev) (old new : Nat) : s.ballotOnly (s.storeVotes old new) := by
  have turned : ∀ (l : List Nat), (∀ k ∈ l, k < 64) → ∀ x : Dev,
      x.ballotOnly (l.foldl (fun (s : Dev) k => s.setRb (srcReg k 0) 26 (!new.testBit k)) x) := by
    intro l
    induction l with
    | nil => exact fun _ => .refl
    | cons k r ih =>
      exact fun hl x => (x.setReg_ballotOnly _ _ (ballotReg_srcReg (hl k List.mem_cons_self))).trans
        (ih (fun j hj => hl j (List.mem_cons_of_mem _ hj)) _)
  have below : ∀ k ∈ bitsOf 64 (old ^^^ new), k < 64 := fun k hk => List.mem_range.mp (List.mem_filter.mp hk).1
  exact (((turned _ below s).trans (Dev.setReg_ballotOnly _ _ _ (by decide))).trans (Dev.setReg_ballotOnly _ _ _ (by decide))).trans
    (Dev.setReg_ballotOnly _ _ _ (by decide))

theorem Dev.trackSole_ballotOnly (s : Dev) (new : Nat) : s.ballotOnly (s.trackSole new) := by
  unfold Dev.trackSole
  split
  · split
    · exact .refl s
    · exact s.onTapState_ballotOnly _ rfl
  · split
    · exact .refl s
    · exact s.onTapState_ballotOnly _ rfl

theorem Dev.startCounting_ballotOnly (s : Dev) (turned : Nat) (sole : Option (Nat × Nat)) : s.ballotOnly (s.startCounting turned sole) := by
  unfold Dev.startCounting
  exact ((((s.setReg_ballotOnly _ _ (by decide)).trans (Dev.setReg_ballotOnly _ _ _ (by decide))).trans
    (Dev.onTapState_ballotOnly _ _ rfl)).trans (Dev.setReg_ballotOnly _ _ _ (by decide))).trans (Dev.wakeSleep_ballotOnly _ _ _ _)

theorem Dev.ballotAbort_ballotOnly (s : Dev) (a : Nat) : s.ballotOnly (s.ballotAbort a) :=
  (s.setReg_ballotOnly _ _ (by decide)).trans (Dev.wakeSleep_ballotOnly _ _ _ _)

theorem Dev.ballot_ballotOnly (s : Dev) : s.ballotOnly s.ballot := by
  have voted : s.ballotOnly ((if s.votesHeld = s.votes then s else s.storeVotes s.votesHeld s.votes).trackSole s.votes) := by
    refine Dev.ballotOnly.trans ?_ (Dev.trackSole_ballotOnly _ _)
    split
    · exact .refl s
    · exact s.storeVotes_ballotOnly _ _
  refine voted.trans ?_
  unfold Dev.ballot
  dsimp only
  generalize (if s.votesHeld = s.votes then s else s.storeVotes s.votesHeld s.votes).trackSole s.votes = x
  split
  · split
    · exact x.startCounting_ballotOnly _ _
    · exact .refl x
  · split
    · exact x.setReg_ballotOnly _ _ (by decide)
    · split
      · exact x.ballotAbort_ballotOnly _
      · exact .refl x
  · split
    · exact .refl x
    · exact x.setReg_ballotOnly _ _ (by decide)

end Sys2Proof.Machine
end

section
/-! SUPPORT. A host port that stops: no ring of it is on, and the frame chosen for it is gone (R79). -/
namespace Sys2Proof.Machine

/-! ## Every ring of a port stops (R79, step 1) -/

/-- Ring `r` of host port `h` stops, and what it held is gone. -/
def Basjo.stopRing (b : Basjo) (h r : Nat) : Basjo :=
  let b := if b.ringEnabled h r then b.setRf (ringReg h r 0x10) 31 31 0 else b
  (if b.ringActive h r then b.setActive h r false else b).setRing h r .idle

/-- What a vector has counted is gone. -/
def Basjo.clearCount (b : Basjo) (h v : Nat) : Basjo :=
  if (b.vec h v).count = 0 then b else b.setVec h v { b.vec h v with count := 0, since := 0 }

def Basjo.stopRings (b : Basjo) (h : Nat) (l : List Nat) : Basjo := l.foldl (fun b r => b.stopRing h r) b
def Basjo.clearCounts (b : Basjo) (h : Nat) (l : List Nat) : Basjo := l.foldl (fun b v => b.clearCount h v) b

/-- Host port `h` drops what is chosen for it. -/
def Basjo.drops (b : Basjo) (h : Nat) : Basjo := { b with dead := b.dead.put false h true }

@[simp] theorem Basjo.drops_reg (b : Basjo) (h a : Nat) : (b.drops h).reg a = b.reg a := rfl

/-- Host port `h` has stopped, and drops what is chosen for it. -/
def Basjo.stopPort (b : Basjo) (h : Nat) : Basjo := ((b.stopRings h (List.range 128)).clearCounts h (List.range 64)).drops h

/-- Only registers, rings and vectors differ. -/
def Basjo.stopsOnly (b b' : Basjo) : Prop := b' = { b with regs := b'.regs, rings := b'.rings, vecs := b'.vecs }

theorem Basjo.stopsOnly.trans {b b' b'' : Basjo} (e : b.stopsOnly b') (e' : b'.stopsOnly b'') : b.stopsOnly b'' :=
  Eq.trans e' (by rw [e])

theorem Basjo.stopsOnly.foldl (f : Basjo → Nat → Basjo) (hf : ∀ (b : Basjo) k, b.stopsOnly (f b k)) (l : List Nat) (b : Basjo) :
    b.stopsOnly (l.foldl f b) := by
  induction l generalizing b with
  | nil => rfl
  | cons k l ih => exact (hf b k).trans (ih (f b k))

theorem Basjo.stopRing_stopsOnly (b : Basjo) (h r : Nat) : b.stopsOnly (b.stopRing h r) := by
  unfold Basjo.stopRing
  dsimp only
  split <;> split <;> rfl

theorem Basjo.clearCount_stopsOnly (b : Basjo) (h v : Nat) : b.stopsOnly (b.clearCount h v) := by
  unfold Basjo.clearCount
  split <;> rfl

theorem Basjo.stopRing_reg (b : Basjo) (h r a : Nat) (ha : a ≠ ringReg h r 0x10) (ha' : a ≠ ringReg h r 0x1C) :
    (b.stopRing h r).reg a = b.reg a := by
  have enable : (if b.ringEnabled h r then b.setRf (ringReg h r 0x10) 31 31 0 else b).reg a = b.reg a := by
    split
    · exact (b.reg_setRf _ _ _ _ _).trans (if_neg ha)
    · rfl
  refine Eq.trans ?_ enable
  unfold Basjo.stopRing
  dsimp only
  generalize (if b.ringEnabled h r then b.setRf (ringReg h r 0x10) 31 31 0 else b) = b'
  split
  · exact (b'.reg_setRf _ _ _ _ _).trans (if_neg ha')
  · rfl

/-- A ring that is off, or that stops, is off. -/
theorem Basjo.stopRing_off (b : Basjo) (h k r : Nat) (hk : k < 128) (hr : r < 128)
    (hoff : r = k ∨ (b.ringEnabled h r = false ∧ b.ringActive h r = false)) :
    (b.stopRing h k).ringEnabled h r = false ∧ (b.stopRing h k).ringActive h r = false := by
  by_cases e : r = k
  · subst e
    have apart : ringReg h r 0x10 ≠ ringReg h r 0x1C := fun e => absurd (ringReg_inj hr hr (by decide) (by decide) e).2.2 (by decide)
    have enable : (if b.ringEnabled h r then b.setRf (ringReg h r 0x10) 31 31 0 else b).ringEnabled h r = false := by
      split
      · rw [Basjo.ringEnabled, Basjo.rb, Basjo.reg_setRf, if_pos rfl, bit_setFld_in _ _ _ _ _ (by decide) (by decide)]
        rfl
      · next off => exact Bool.eq_false_iff.mpr off
    unfold Basjo.stopRing
    dsimp only
    generalize (if b.ringEnabled h r then b.setRf (ringReg h r 0x10) 31 31 0 else b) = b' at enable ⊢
    split
    · refine ⟨(congrArg (bit · 31) ((b'.reg_setRf _ _ _ _ _).trans (if_neg apart))).trans enable, ?_⟩
      exact (congrArg (bit · 4) ((b'.reg_setRf _ _ _ _ _).trans (if_pos rfl))).trans (bit_setActive_false _)
    · next off => exact ⟨enable, (Bool.eq_false_iff.mpr off : b'.ringActive h r = false)⟩
  · have same : ∀ o < 0x40, (b.stopRing h k).reg (ringReg h r o) = b.reg (ringReg h r o) := fun o ho =>
      b.stopRing_reg h k _ (fun x => e (ringReg_inj hr hk ho (by decide) x).2.1) (fun x => e (ringReg_inj hr hk ho (by decide) x).2.1)
    simp only [Basjo.ringEnabled, Basjo.ringActive, Basjo.rb, same 0x10 (by decide), same 0x1C (by decide)]
    exact hoff.resolve_left e

theorem Basjo.stopRings_off (l : List Nat) (b : Basjo) (h r : Nat) (hl : ∀ k ∈ l, k < 128) (hr : r < 128)
    (hoff : r ∈ l ∨ (b.ringEnabled h r = false ∧ b.ringActive h r = false)) :
    (b.stopRings h l).ringEnabled h r = false ∧ (b.stopRings h l).ringActive h r = false := by
  induction l generalizing b with
  | nil => exact hoff.resolve_left List.not_mem_nil
  | cons k l ih =>
    refine ih (b.stopRing h k) (fun j hj => hl j (List.mem_cons_of_mem _ hj)) ?_
    have head := b.stopRing_off h k r (hl k List.mem_cons_self) hr
    rcases hoff with hmem | hoff
    · rcases List.mem_cons.mp hmem with rfl | hmem
      · exact .inr (head (.inl rfl))
      · exact .inl hmem
    · exact .inr (head (.inr hoff))

theorem Basjo.stopRings_reg_hostReg (l : List Nat) (b : Basjo) (h h' o : Nat) (hl : ∀ k ∈ l, k < 128) (ho : o < 0x1000) :
    (b.stopRings h l).reg (hostReg h' o) = b.reg (hostReg h' o) := by
  induction l generalizing b with
  | nil => rfl
  | cons k l ih =>
    have hk := hl k List.mem_cons_self
    exact (ih (b.stopRing h k) (fun j hj => hl j (List.mem_cons_of_mem _ hj))).trans (b.stopRing_reg h k _
      (ringReg_ne_hostReg hk (by decide) ho).symm (ringReg_ne_hostReg hk (by decide) ho).symm)

theorem Basjo.stopsOnly.drops {b b' : Basjo} (e : b.stopsOnly b') (h : Nat) : b'.drops h =
    { b with regs := (b'.drops h).regs, rings := (b'.drops h).rings, vecs := (b'.drops h).vecs, dead := b.dead.put false h true } := by
  rw [e]
  rfl

theorem Basjo.stopPort_frame (b : Basjo) (h : Nat) : b.stopPort h = { b with
    regs := (b.stopPort h).regs
    rings := (b.stopPort h).rings
    vecs := (b.stopPort h).vecs
    dead := b.dead.put false h true } :=
  ((Basjo.stopsOnly.foldl _ (fun b r => b.stopRing_stopsOnly h r) _ b).trans
    (Basjo.stopsOnly.foldl _ (fun b v => b.clearCount_stopsOnly h v) _ _)).drops h

theorem Basjo.clearCounts_reg (l : List Nat) (b : Basjo) (h a : Nat) : (b.clearCounts h l).reg a = b.reg a := by
  induction l generalizing b with
  | nil => rfl
  | cons v l ih =>
    refine (ih (b.clearCount h v)).trans ?_
    unfold Basjo.clearCount
    split <;> rfl

theorem Basjo.stopPort_reg (b : Basjo) (h a : Nat) : (b.stopPort h).reg a = (b.stopRings h (List.range 128)).reg a := by
  rw [Basjo.stopPort, Basjo.drops_reg, Basjo.clearCounts_reg]

theorem Basjo.stopPort_reg_hostReg (b : Basjo) (h h' o : Nat) (ho : o < 0x1000) :
    (b.stopPort h).reg (hostReg h' o) = b.reg (hostReg h' o) :=
  (b.stopPort_reg h _).trans (b.stopRings_reg_hostReg _ h h' o (fun _ => List.mem_range.mp) ho)

/-- No ring of a port is on, and what is chosen for it is dropped (R79). -/
def Basjo.halted (b : Basjo) (h : Nat) : Prop := b.ringsOff h ∧ b.dead.get false h = true

theorem Basjo.stopPort_halted (b : Basjo) (h : Nat) : (b.stopPort h).halted h := by
  refine ⟨fun r hr => ?_, by rw [b.stopPort_frame h, Store.get_put_same]⟩
  have off := Basjo.stopRings_off (List.range 128) b h r (fun _ => List.mem_range.mp) hr (.inl (List.mem_range.mpr hr))
  simpa only [Basjo.ringEnabled, Basjo.ringActive, Basjo.rb, Basjo.stopPort_reg] using off

theorem Basjo.startsNothing.halted {l : List Nat} {b b' : Basjo} (e : Basjo.startsNothing l b b') {h : Nat} (hb : b.halted h) :
    b'.halted h := ⟨e.ringsOff h hb.1, by rw [e.dead]; exact hb.2⟩

theorem Basjo.startsNothing.linkUp {l : List Nat} {b b' : Basjo} (e : Basjo.startsNothing l b b') (h : Nat) :
    b'.linkUp h = b.linkUp h := by rw [Basjo.linkUp, e.up]; rfl

theorem Basjo.stopPort_linkUp (b : Basjo) (h h' : Nat) : (b.stopPort h).linkUp h' = b.linkUp h' := by
  have up : (b.stopPort h).up = b.up := by rw [b.stopPort_frame h]
  rw [Basjo.linkUp, up]
  rfl

theorem Dev.stopHost_eq (s : Dev) (h : Nat) : s.stopHost h = match (s.onBasjo (·.stopPort h)).chosenRing h with
    | none => s.onBasjo (·.stopPort h)
    | some (x, t, _) => (({ s.onBasjo (·.stopPort h) with crown := { s.crown with tx := s.crown.tx.put none (36 + h) none } } : Dev).release
        x.frame).rxDrop h t 1 := rfl

/-- With no frame chosen for it, a port that stops changes nothing but the host interface. -/
theorem Dev.stopHost_of_none (s : Dev) (h : Nat) (hc : s.crown.tx.get none (36 + h) = none) :
    s.stopHost h = s.onBasjo (·.stopPort h) := by
  have unchosen : (s.onBasjo (·.stopPort h)).chosenRing h = none := congrArg (Option.map _) hc
  rw [Dev.stopHost_eq, unchosen]

/-- The frame chosen for a port that stops is given up and dropped. -/
theorem Dev.stopHost_of_chosen (s : Dev) (h : Nat) (x : TxRun) (hc : s.crown.tx.get none (36 + h) = some x) :
    s.stopHost h = (({ s.onBasjo (·.stopPort h) with crown := { s.crown with tx := s.crown.tx.put none (36 + h) none } } : Dev).release
      x.frame).rxDrop h (queueNo x.queue) 1 := by
  have chosen : (s.onBasjo (·.stopPort h)).chosenRing h = some (x, _, _) := congrArg (Option.map _) hc
  rw [Dev.stopHost_eq, chosen]

/-- A chosen frame that is given up and dropped starts nothing. -/
theorem Dev.givenUp_startsNothing (s : Dev) (k : Crown) (id h t : Nat) :
    Basjo.startsNothing [0x18, 0x20] s.basjo ((({ s with crown := k } : Dev).release id).rxDrop h t 1).basjo :=
  ((Dev.release_tells { s with crown := k } id).records.startsNothing (by simp)).trans (Dev.rxDrop_startsNothing _ h t)

theorem Dev.stopHost_startsNothing (s : Dev) (h : Nat) : Basjo.startsNothing [0x18, 0x20] (s.basjo.stopPort h) (s.stopHost h).basjo := by
  cases hc : s.crown.tx.get none (36 + h) with
  | none =>
    rw [s.stopHost_of_none h hc]
    exact .refl _
  | some x =>
    rw [s.stopHost_of_chosen h x hc]
    exact Dev.givenUp_startsNothing (s.onBasjo (·.stopPort h)) _ _ _ _

theorem Dev.stopHost_keeps (s : Dev) (h : Nat) : s.keeps [.regs, .basjo, .crown, .trunk] (s.stopHost h) := by
  have stopped : s.keeps [.regs, .basjo, .crown, .trunk] (s.onBasjo (·.stopPort h)) := (s.onBasjo_keeps _).mono (by simp)
  cases hc : s.crown.tx.get none (36 + h) with
  | none => rwa [s.stopHost_of_none h hc]
  | some x =>
    rw [s.stopHost_of_chosen h x hc]
    refine (((stopped.trans ?_).trans ((Dev.release_tells _ x.frame).parts.mono ?_))).trans ((Dev.rxDrop_keeps _ h _).mono ?_)
    · exact (Dev.withCrown_keeps _ _).mono (by simp)
    · simp
    · simp

/-- The frame being written for the port is gone. -/
theorem Dev.stopHost_tx (s : Dev) (h : Nat) : (s.stopHost h).crown.tx.get none (36 + h) = none := by
  cases hc : s.crown.tx.get none (36 + h) with
  | none => rwa [s.stopHost_of_none h hc]
  | some x =>
    have kept := (Dev.release_tells { s.onBasjo (·.stopPort h) with crown := { s.crown with tx := s.crown.tx.put none (36 + h) none } }
      x.frame).parts .crown (by decide)
    rw [s.stopHost_of_chosen h x hc, Dev.rxDrop_crown, kept, Store.get_put_same]

end Sys2Proof.Machine
end

section
/-! SUPPORT. A host port that rises, falls or is reset, and a write of an event record that failed (R41, R57, R72, R73, R79). -/
namespace Sys2Proof.Machine

/-! ## A register below the rings is written -/

/-- Every ring register that says what a ring is, and where it stands in memory, is as it was. -/
def Basjo.ringsPlaced (b b' : Basjo) : Prop := ∀ h r o, r < 128 → o < 0x18 → b'.reg (ringReg h r o) = b.reg (ringReg h r o)

theorem Basjo.ringsPlaced.ringType {b b' : Basjo} (e : b.ringsPlaced b') {h r : Nat} (hr : r < 128) : b'.ringType h r = b.ringType h r := by
  simp only [Basjo.ringType, Basjo.rf, e h r 0x10 hr (by decide)]

theorem Basjo.ringsPlaced.eventReg {b b' : Basjo} (e : b.ringsPlaced b') {a : Nat} (ha : b'.eventReg a) : b.eventReg a := by
  obtain ⟨h, r, hr, x⟩ := ha
  exact ⟨h, r, hr, by rwa [e.ringType hr] at x⟩

theorem Basjo.ringsPlaced.eventByte {b b' : Basjo} (e : b.ringsPlaced b') {h addr : Nat} (ha : b'.eventByte h addr) : b.eventByte h addr := by
  obtain ⟨r, hr, ht, x⟩ := ha
  have entry : ∀ idx, b'.entryAddr h r 32 idx = b.entryAddr h r 32 idx := fun idx => by
    simp only [Basjo.entryAddr, Basjo.ringBase, Basjo.ringSize, Basjo.rf, e h r 0 hr (by decide), e h r 4 hr (by decide),
      e h r 0x10 hr (by decide)]
  rw [e.ringType hr] at ht
  simp only [entry, e h r 8 hr (by decide), e h r 0xC hr (by decide)] at x
  exact ⟨r, hr, ht, x⟩

/-- HOST_STATUS of a host port is written, and its link with it (R41). -/
def Basjo.setLink (b : Basjo) (h : Nat) (w : Word) (up : Bool) : Basjo := { b.setReg (hostReg h 4) w with up := b.up.put false h up }

theorem Basjo.setLink_reg (b : Basjo) (h : Nat) (w : Word) (up : Bool) (a : Nat) :
    (b.setLink h w up).reg a = if a = hostReg h 4 then w else b.reg a := b.reg_setReg _ _ _

theorem Basjo.setLink_linkUp (b : Basjo) (h : Nat) (w : Word) (up : Bool) : (b.setLink h w up).linkUp h = up := Store.get_put_same _ _ _ _

theorem Basjo.setLink_linkUp_ne (b : Basjo) {h h' : Nat} (w : Word) (up : Bool) (hne : h' ≠ h) :
    (b.setLink h w up).linkUp h' = b.linkUp h' := Store.get_put_ne _ _ _ _ hne

theorem Basjo.setLink_ringsPlaced (b : Basjo) (h : Nat) (w : Word) (up : Bool) : b.ringsPlaced (b.setLink h w up) := fun h' r o hr ho => by
  rw [b.setLink_reg, if_neg (ringReg_ne_hostReg hr (by omega) (by decide))]

/-- Event records after a change of the link. -/
theorem Basjo.ringOnly_of_setLink {b b' : Basjo} {h : Nat} {w : Word} {up : Bool} (e : (b.setLink h w up).eventsOnly b') :
    b.ringOnly 2 0 [hostReg h 4] { b' with up := b.up } where
  regs a ha hn := by
    refine (e.regs a (fun x => ha ((b.setLink_ringsPlaced h w up).eventReg x))).trans ?_
    rw [b.setLink_reg, if_neg (by simpa using hn)]
  rings h' r' hr ht _ := e.rings h' r' hr (by rwa [(b.setLink_ringsPlaced h w up).ringType hr])
  msix := e.msix
  up := rfl
  mem h' addr hl hb := e.mem h' addr hl (fun x => hb ((b.setLink_ringsPlaced h w up).eventByte x))

/-! ## The link comes up (R41, R73) -/

section
variable {s : Dev} {h gen width : Nat} (present : (hostPorts s.variant).contains h = true) (powered : s.portPowered (36 + h) = true)
  (down : s.basjo.linkUp h = false) (low : 1 ≤ gen) (high : gen ≤ (pcieEndpoint h).linkGen)
  (fits : (pcieEndpoint h).linkWidths.contains width = true)
include present powered down low high fits

theorem Dev.hostUp_of_trains : s.hostUp h gen width =
    (let t := (s.onBasjo (·.setLink h (BitVec.ofNat 32 (1 + 2 * gen + 16 * width)) true)).raiseOther h 6 1 0 0
     if gen < 4 ∨ width < 4 then t.raiseOther h 6 3 0 0 else t).ballot :=
  if_neg (by rw [present, powered, down, fits]; simp [low, high])

/-- Beside the link, what comes up changes the sleep ballot and event records. -/
theorem Dev.hostUp_ballotOnly :
    (s.onBasjo (·.setLink h (BitVec.ofNat 32 (1 + 2 * gen + 16 * width)) true)).ballotOnly (s.hostUp h gen width) := by
  rw [Dev.hostUp_of_trains present powered down low high fits]
  generalize s.onBasjo (·.setLink h (BitVec.ofNat 32 (1 + 2 * gen + 16 * width)) true) = x
  have told : ∀ (y : Dev) (cause : Nat), y.ballotOnly (y.raiseOther h 6 cause 0 0) := fun y cause =>
    ⟨y.raiseOther_tells h 6 cause 0 0 (by decide), fun _ _ => by rw [Dev.raiseOther_reg], by rw [Dev.raiseOther_tap]⟩
  refine Dev.ballotOnly.trans ?_ (Dev.ballot_ballotOnly _)
  dsimp only
  split
  · exact (told x 1).trans (told _ 3)
  · exact told x 1

end

/-! ## The link goes down (R79) -/

theorem Dev.hostDown_of_up (s : Dev) (h : Nat) (hup : s.basjo.linkUp h = true) :
    s.hostDown h = ((((s.onBasjo (·.setLink h 0 false)).stopHost h).raiseOther h 6 2 0 0).logHw kHardware 1 h).ballot :=
  if_neg (by simp [hup])

theorem Dev.hostDown_of_down (s : Dev) (h : Nat) (hup : s.basjo.linkUp h = false) : s.hostDown h = s := if_pos (by simp [hup])

/-- A host port is told of on the other one, and logged. -/
theorem Dev.raiseOther_logHw_tells (s : Dev) (h cause : Nat) :
    Dev.tells [.audit] s ((s.raiseOther h 6 cause 0 0).logHw kHardware 1 h) :=
  (s.raiseOther_tells h 6 cause 0 0 (by decide)).trans (Dev.logHw_tells _ _ _ _ _ _ (by decide))

theorem Dev.hostDown_startsNothing (s : Dev) (h : Nat) (hup : s.basjo.linkUp h = true) :
    Basjo.startsNothing [0x18, 0x20] ((s.basjo.setLink h 0 false).stopPort h) (s.hostDown h).basjo := by
  rw [s.hostDown_of_up h hup]
  have stopped := Dev.stopHost_startsNothing (s.onBasjo (·.setLink h 0 false)) h
  generalize (s.onBasjo (·.setLink h 0 false)).stopHost h = x at stopped ⊢
  refine (stopped.trans ((x.raiseOther_logHw_tells h 2).records.startsNothing (by decide))).trans ?_
  exact (Dev.ballot_ballotOnly _).tells.records.startsNothing (by decide)

theorem Dev.hostDown_tx (s : Dev) (h : Nat) (hup : s.basjo.linkUp h = true) : (s.hostDown h).crown.tx.get none (36 + h) = none := by
  have kept := (Dev.ballot_ballotOnly ((((s.onBasjo (·.setLink h 0 false)).stopHost h).raiseOther h 6 2 0 0).logHw kHardware 1 h)).tells.parts
    .crown (by decide)
  rw [s.hostDown_of_up h hup, kept, Dev.logHw_crown, Dev.raiseOther_crown]
  exact Dev.stopHost_tx _ h

theorem Dev.hostDown_keeps (s : Dev) (h : Nat) (hup : s.basjo.linkUp h = true) :
    s.keeps [.regs, .basjo, .audit, .crown, .trunk, .tap] (s.hostDown h) := by
  rw [s.hostDown_of_up h hup]
  have stopped : s.keeps [.regs, .basjo, .audit, .crown, .trunk, .tap] ((s.onBasjo (·.setLink h 0 false)).stopHost h) :=
    ((s.onBasjo_keeps _).mono (by simp)).trans ((Dev.stopHost_keeps _ h).mono (by simp))
  refine (stopped.trans ((Dev.raiseOther_logHw_tells _ h 2).parts.mono (by simp))).trans ?_
  exact (Dev.ballot_ballotOnly _).tells.parts.mono (by simp)

theorem Dev.hostDown_modeCmd (s : Dev) (h : Nat) : (s.hostDown h).tap.modeCmd = s.tap.modeCmd := by
  cases hup : s.basjo.linkUp h with
  | false => rw [s.hostDown_of_down h hup]
  | true =>
    have kept := (s.onBasjo (·.setLink h 0 false)).stopHost_keeps h .tap (by decide)
    rw [s.hostDown_of_up h hup, (Dev.ballot_ballotOnly _).modeCmd, Dev.logHw_tap, Dev.raiseOther_tap, kept]
    rfl

end Sys2Proof.Machine
end

section
/-! SUPPORT. A Function Level Reset of a host port (R79). -/
namespace Sys2Proof.Machine

/-! ## Reset values of a host port -/

theorem Store.get_keep {α : Type} (d : α) (p : Nat → Bool) (m : Store α) (k : Nat) :
    Store.get d (m.keep (fun j _ => p j)) k = if p k then Store.get d m k else d := by
  induction m with
  | nil => simp [Store.keep]
  | cons e m ih =>
    obtain ⟨j, v⟩ := e
    have cut : Store.keep (fun j _ => p j) ((j, v) :: m) =
        if p j then (j, v) :: Store.keep (fun j _ => p j) m else Store.keep (fun j _ => p j) m := List.filter_cons
    rw [cut]
    by_cases hj : k = j
    · subst hj
      split
      · next hp => simp [Store.get]
      · next hp => rw [ih, if_neg hp]
    · split <;> simpa [Store.get, hj] using ih

theorem regResetSpecial_basjo {a : Nat} (lo : 0x10000 ≤ a) (hi : a < 0x100000) : regResetSpecial .m a = none := by
  unfold regResetSpecial burlReg tapReg
  repeat rw [if_neg (by omega)]

/-- No register of a host port resets with bit 4 or bit 31 set. -/
theorem regReset_basjo_bit {a : Nat} (lo : 0x10000 ≤ a) (hi : a < 0x100000) :
    bit (regReset .m a) 4 = false ∧ bit (regReset .m a) 31 = false := by
  have low : ∀ r ∈ basjoRows, bit (BitVec.ofNat 32 r.reset) 4 = false ∧ bit (BitVec.ofNat 32 r.reset) 31 = false := by decide
  have row : regRow a = basjoRows.find? (fun r => r.holds a) := by
    have block : blockOf a = some 1 := (if_neg (by omega)).trans (if_pos hi)
    rw [regRow, rowsAt, block]
    rfl
  unfold regReset
  rw [regResetSpecial_basjo lo hi]
  dsimp only
  rw [row]
  cases hfind : basjoRows.find? (fun r => r.holds a) with
  | none => decide
  | some r => exact low r (List.mem_of_find?_eq_some hfind)

/-! ## A port at its reset values -/

/-- The registers of a host port but RX_DROP_CNT return to their reset values, its queues empty, and its vectors and MSI-X
capability reset (R79). -/
def Basjo.resetPort (b : Basjo) (h : Nat) : Basjo := { b with
  regs := b.regs.keep (fun k _ => !(hostReg h 0 ≤ k && k < hostReg h 0x10000) || k = hostReg h 0x18)
  pops := b.pops.keep (fun k _ => k / 4 ≠ h)
  vecs := b.vecs.keep (fun k _ => k / 64 ≠ h)
  msix := b.msix.put ⟨false, false⟩ h ⟨false, false⟩ }

theorem Basjo.resetPort_reg (b : Basjo) (h a : Nat) : (b.resetPort h).reg a =
    if !(hostReg h 0 ≤ a && a < hostReg h 0x10000) || a = hostReg h 0x18 then b.reg a else regReset .m a :=
  Store.get_keep _ (fun k => !(hostReg h 0 ≤ k && k < hostReg h 0x10000) || k = hostReg h 0x18) _ _

theorem Basjo.resetPort_reg_rxDrop (b : Basjo) (h : Nat) : (b.resetPort h).reg (hostReg h 0x18) = b.reg (hostReg h 0x18) := by
  rw [b.resetPort_reg, if_pos (by simp)]

theorem Basjo.resetPort_reg_bit (b : Basjo) {h o : Nat} (hh : h < 2) (ho : o < 0x10000) (hne : o ≠ 0x18) :
    bit ((b.resetPort h).reg (hostReg h o)) 4 = false ∧ bit ((b.resetPort h).reg (hostReg h o)) 31 = false := by
  rw [b.resetPort_reg, if_neg (by simp only [hostReg]; grind)]
  exact regReset_basjo_bit (by simp only [hostReg]; omega) (by simp only [hostReg]; omega)

theorem Basjo.resetPort_unrouted (b : Basjo) {h : Nat} (hh : h < 2) : (b.resetPort h).unrouted h := fun c hc =>
  (b.resetPort_reg_bit hh (by omega) (by omega)).2

theorem Basjo.resetPort_ringsOff (b : Basjo) {h : Nat} (hh : h < 2) : (b.resetPort h).ringsOff h := fun r hr =>
  ⟨(b.resetPort_reg_bit hh (show 0x1000 + 0x40 * r + 0x10 < 0x10000 by omega) (by omega)).2,
    (b.resetPort_reg_bit hh (show 0x1000 + 0x40 * r + 0x1C < 0x10000 by omega) (by omega)).1⟩

theorem Basjo.resetPort_vec (b : Basjo) (h v : Nat) (hv : v < 64) : (b.resetPort h).vec h v = .idle := by
  refine (Store.get_keep _ (fun k => decide (k / 64 ≠ h)) b.vecs _).trans (if_neg ?_)
  simp only [decide_eq_true_eq]
  omega

theorem Basjo.resetPort_pop (b : Basjo) (h n : Nat) (hn : n < 4) : (b.resetPort h).pops.get .idle (4 * h + n) = .idle := by
  refine (Store.get_keep _ (fun k => decide (k / 4 ≠ h)) b.pops _).trans (if_neg ?_)
  simp only [decide_eq_true_eq]
  omega

theorem Basjo.resetPort_msixFn (b : Basjo) (h : Nat) : (b.resetPort h).msixFn h = ⟨false, false⟩ := by
  simp only [Basjo.msixFn, Basjo.resetPort, Store.get_put_same]

/-- Every vector and pop queue of a host port is idle, and so is its MSI-X capability. -/
structure Basjo.idleAt (b : Basjo) (h : Nat) : Prop where
  msix : b.msixFn h = ⟨false, false⟩
  vecs : ∀ v < 64, b.vec h v = .idle
  pops : ∀ n < 4, b.pops.get .idle (4 * h + n) = .idle

/-- What starts nothing leaves a port that has reset idle. -/
theorem Basjo.startsNothing.idleAt {l : List Nat} {b b' : Basjo} {h : Nat} (hh : h < 2)
    (e : Basjo.startsNothing l (b.resetPort h) b') : b'.idleAt h := by
  obtain ⟨vecs, pops⟩ := e.silent h (b.resetPort_unrouted hh) (b.resetPort_ringsOff hh)
  exact ⟨(congrArg (Store.get _ · h) e.msix).trans (b.resetPort_msixFn h), fun v hv => (vecs v hv).trans (b.resetPort_vec h v hv),
    fun n hn => (pops n hn).trans (b.resetPort_pop h n hn)⟩

/-! ## The reset -/

theorem Dev.hostReset_of_present (s : Dev) (h : Nat) (hp : (hostPorts s.variant).contains h = true) : s.hostReset h =
    (((((s.stopHost h).onBasjo (·.resetPort h)).dropHolds (h + 1)).raiseOther h 6 4 0 0).logHw kHardware 1 h) :=
  if_neg (by rw [hp]; decide)

section
variable {s : Dev} {h : Nat} (present : (hostPorts s.variant).contains h = true)
include present

theorem Dev.hostReset_startsNothing : Basjo.startsNothing [0x20] ((s.stopHost h).basjo.resetPort h) (s.hostReset h).basjo := by
  rw [s.hostReset_of_present h present]
  exact (Dev.raiseOther_logHw_tells (((s.stopHost h).onBasjo (·.resetPort h)).dropHolds (h + 1)) h 4).records.startsNothing (by decide)

theorem Dev.hostReset_keeps : s.keeps [.regs, .basjo, .audit, .crown, .trunk, .clocks] (s.hostReset h) := by
  rw [s.hostReset_of_present h present]
  have stopped : s.keeps [.regs, .basjo, .audit, .crown, .trunk, .clocks] (s.stopHost h) := (s.stopHost_keeps h).mono (by simp)
  generalize s.stopHost h = x at stopped ⊢
  refine ((stopped.trans ((x.onBasjo_keeps (·.resetPort h)).mono (by simp))).trans ((Dev.dropHolds_keeps _ (h + 1)).mono (by simp))).trans ?_
  exact (Dev.raiseOther_logHw_tells _ h 4).parts.mono (by simp)

theorem Dev.hostReset_modeCmd : (s.hostReset h).tap.modeCmd = s.tap.modeCmd :=
  congrArg Tap.modeCmd (Dev.hostReset_keeps present .tap (by decide))

end

/-- RX_DROP_CNT moves only for a frame the port drops itself (R73). -/
theorem Dev.stopHost_resetPort_rxDrop (s : Dev) (h : Nat) (hc : s.crown.tx.get none (36 + h) = none) :
    ((s.stopHost h).basjo.resetPort h).reg (hostReg h 0x18) = s.basjo.reg (hostReg h 0x18) := by
  rw [Basjo.resetPort_reg_rxDrop, s.stopHost_of_none h hc]
  exact s.basjo.stopPort_reg_hostReg h h 0x18 (by decide)

theorem Dev.stopHost_linkUp (s : Dev) (h h' : Nat) : (s.stopHost h).basjo.linkUp h' = s.basjo.linkUp h' := by
  rw [(s.stopHost_startsNothing h).linkUp, Basjo.stopPort_linkUp]

/-- No frame is told to a port that has stopped. -/
theorem Dev.stopHost_dead (s : Dev) (h : Nat) : (s.stopHost h).hostDead h = true :=
  ((s.stopHost_startsNothing h).halted (s.basjo.stopPort_halted h)).2

end Sys2Proof.Machine
end

section
/-! SUPPORT. The write of an event record that failed (R57), and the statement that host links move. -/
namespace Sys2Proof.Machine

/-! ## A failed access stops a ring at its entry (R57) -/

section
variable (b : Basjo) (h r : Nat)

theorem Basjo.faulted_reg (hr : r < 128) (a : Nat) : (b.faulted h r true).reg a =
    if a = ringReg h r 0x1C then setFld (setFld (b.reg (ringReg h r 0x1C)) 1 1 1) 4 4 0
    else if a = hostReg h 0x1C then satAdd (b.reg (hostReg h 0x1C)) 1 else b.reg a := by
  have apart : ringReg h r 0x1C ≠ hostReg h 0x1C := ringReg_ne_hostReg hr (by decide) (by decide)
  have ringLeft : ∀ (c : Basjo) (v : RingRun) (a : Nat), (c.setRing h r v).reg a = c.reg a := fun _ _ _ => rfl
  unfold Basjo.faulted Basjo.setActive
  simp only [if_true, Bool.toNat_true, Bool.toNat_false, Basjo.reg_setRf, ringLeft, Basjo.reg_count, if_neg apart]
  split <;> rfl

theorem Basjo.faulted_stopped : ((b.faulted h r true).ring h r).stopped = true := by
  unfold Basjo.faulted Basjo.setActive
  exact congrArg RingRun.stopped (Basjo.setRing_ring_same _ h r _)

theorem Basjo.faulted_devIdx (hr : r < 128) : (b.faulted h r true).devIdx h r = b.devIdx h r := by
  refine (b.faulted_reg h r hr _).trans ?_
  rw [if_neg (fun e => absurd (ringReg_inj hr hr (by decide) (by decide) e).2.2 (by decide)),
    if_neg (ringReg_ne_hostReg hr (by decide) (by decide))]
  rfl

theorem Basjo.faulted_errors (hr : r < 128) : (b.faulted h r true).reg (hostReg h 0x1C) = satAdd (b.reg (hostReg h 0x1C)) 1 := by
  rw [b.faulted_reg h r hr, if_neg (ringReg_ne_hostReg hr (by decide) (by decide)).symm, if_pos rfl]

theorem Basjo.faulted_active (hr : r < 128) : (b.faulted h r true).ringActive h r = false := by
  rw [Basjo.ringActive, Basjo.rb, b.faulted_reg h r hr, if_pos rfl]
  exact bit_setActive_false _

theorem Basjo.faulted_cause (hr : r < 128) : (b.faulted h r true).rb (ringReg h r 0x1C) 1 = true := by
  rw [Basjo.rb, b.faulted_reg h r hr, if_pos rfl, bit_setFld_out _ _ _ _ _ (by decide) (by decide),
    bit_setFld_in _ _ _ _ _ (by decide) (by decide)]
  rfl

/-- The entry the last record took is not consumed, and the ring stops at it (R57). -/
def Basjo.evtFaulted : Basjo := (b.setReg (ringReg h r 0x18) (b.devIdx h r - 1)).faulted h r true

theorem Basjo.evtFaulted_devIdx (hr : r < 128) : (b.evtFaulted h r).devIdx h r = b.devIdx h r - 1 :=
  (Basjo.faulted_devIdx _ h r hr).trans (b.reg_setReg_same _ _)

theorem Basjo.evtFaulted_errors (hr : r < 128) : (b.evtFaulted h r).reg (hostReg h 0x1C) = satAdd (b.reg (hostReg h 0x1C)) 1 := by
  rw [Basjo.evtFaulted, Basjo.faulted_errors _ h r hr, Basjo.reg_setReg, if_neg (ringReg_ne_hostReg hr (by decide) (by decide)).symm]

end

/-- Where a write for an EVT ring that runs failed, the ring stands at the entry the record took, stopped, with what a fault leaves
there; and the failure is told. -/
theorem Dev.evtFault_of_runs (s : Dev) (h r : Nat) (hruns : s.basjo.ringRuns h r 4 = true)
    (hd : dist32 (s.basjo.hostIdx h r) (s.basjo.devIdx h r) ≠ 0) :
    s.evtFault h r = (s.onBasjo (·.evtFaulted h r)).raiseAt h 2 2 1 h r ((s.basjo.evtFaulted h r).devIdx h r).toNat := by
  have faults : s.evtFault h r = (s.onBasjo (fun b => b.setReg (ringReg h r 0x18) (b.devIdx h r - 1))).ringFault h r true :=
    if_neg (by simp [hruns, hd])
  rw [faults, Dev.ringFault_eq]
  rfl

/-! ## The commands -/

section
variable {s : State} {h : Fin 2} {P : State → Prop}

theorem Completes.hostLinkUp {gen width : Fin 5} (hr : s.dev.runs = true) (hp : P { s with dev := s.dev.hostUp h gen width }) :
    Completes (.hostLinkUp h gen width) s P := ⟨_, s.onDev_runs (·.hostUp h.val gen.val width.val) hr, hp⟩

theorem Completes.hostLinkDown (hr : s.dev.runs = true) (hp : P { s with dev := (s.dev.hostDown h).modeDone }) :
    Completes (.hostLinkDown h) s P := ⟨_, s.onDev_runs (fun x => (x.hostDown h.val).modeDone) hr, hp⟩

theorem Completes.functionLevelReset (hr : s.dev.runs = true) (hp : P { s with dev := (s.dev.hostReset h).modeDone }) :
    Completes (.functionLevelReset h) s P := ⟨_, s.onDev_runs (fun x => (x.hostReset h.val).modeDone) hr, hp⟩

/-- A report by AER is told on the other host port. -/
theorem Completes.aerReport (hr : s.dev.runs = true) (present : (hostPorts s.dev.variant).contains h.val = true)
    (hp : P { s with dev := s.dev.raiseOther h 6 5 0 0 }) : Completes (.aerUncorrectable h none true) s P :=
  ⟨_, s.onDev_runs (fun x => if !(hostPorts x.variant).contains h.val then x else x.raiseOther h 6 5 0 0) hr, by
    rwa [if_neg (by rw [present]; decide)]⟩

/-- A failed write for an EVT ring, which AER does not report. -/
theorem Completes.aerWriteFailed {r : Fin 128} (hr : s.dev.runs = true) (present : (hostPorts s.dev.variant).contains h.val = true)
    (hp : P { s with dev := s.dev.evtFault h r }) : Completes (.aerUncorrectable h (some r) false) s P :=
  ⟨_, s.onDev_runs (fun x => if !(hostPorts x.variant).contains h.val then x else x.evtFault h r) hr, by
    rwa [if_neg (by rw [present]; decide)]⟩

/-- Neither a report by AER nor a failed write. -/
theorem Completes.aerNothing (hr : s.dev.runs = true) (hp : P s) : Completes (.aerUncorrectable h none false) s P :=
  ⟨_, s.onDev_runs (fun x => if !(hostPorts x.variant).contains h.val then x else x) hr, by rwa [ite_self]⟩

end

/-- Settles O14, command by command: HOST_LINK_UP, HOST_LINK_DOWN, FUNCTION_LEVEL_RESET and AER_UNCORRECTABLE. -/
theorem hostLinksMove : Obligations.HostLinksMove := by
  unfold Obligations.HostLinksMove
  refine ⟨?_, ?_, ?_, ?_, ?_, ?_, ?_⟩
  · -- HOST_LINK_UP
    intro s h gen width hr present powered down low high fits
    refine .hostLinkUp hr ?_
    obtain ⟨⟨parts, ⟨events, -⟩⟩, regs, -⟩ := Dev.hostUp_ballotOnly present powered down low high fits
    have linked : ∀ p, (s.dev.hostUp h gen width).basjo.linkUp p =
        (s.dev.basjo.setLink h (BitVec.ofNat 32 (1 + 2 * gen + 16 * width)) true).linkUp p := fun p => congrArg (Store.get _ · p) events.up
    refine ⟨?_, ?_, ?_, events.dead, regs, ⟨((s.dev.onBasjo_keeps _).mono (by simp)).trans (parts.mono (by simp)), rfl, rfl⟩,
      Basjo.ringOnly_of_setLink events⟩
    · exact (events.regs _ (Basjo.not_eventReg_hostReg _ (by decide) (by decide))).trans
        ((Basjo.setLink_reg _ _ _ _ _).trans (if_pos rfl))
    · exact (linked h).trans (Basjo.setLink_linkUp _ _ _ _)
    · exact (linked (1 - h)).trans (Basjo.setLink_linkUp_ne _ _ _ (by omega))
  · -- HOST_LINK_DOWN of a port that is up
    intro s h hr up
    refine .hostLinkDown hr ?_
    have nothing : Basjo.startsNothing [0x18, 0x1C, 0x20] ((s.dev.basjo.setLink h 0 false).stopPort h) (s.dev.hostDown h).modeDone.basjo :=
      ((s.dev.hostDown_startsNothing h up).mono (by simp)).trans ((Dev.modeDone_startsNothing _).mono (by simp))
    obtain ⟨off, dead⟩ := nothing.halted (Basjo.stopPort_halted _ h)
    refine ⟨?_, ?_, dead, ?_, fun r => off r r.isLt, fun unset => ?_⟩
    · refine (nothing.regs h 4 (by decide) (by decide)).trans ((Basjo.stopPort_reg_hostReg _ h h 4 (by decide)).trans ?_)
      exact (Basjo.setLink_reg _ _ _ _ _).trans (if_pos rfl)
    · exact (nothing.linkUp h).trans ((Basjo.stopPort_linkUp _ h h).trans (Basjo.setLink_linkUp _ _ _ _))
    · exact (congrArg (fun k : Crown => k.tx.get none (36 + h.val)) (Dev.modeDone_crown _)).trans (s.dev.hostDown_tx h up)
    · rw [Dev.modeDone_of_none _ ((s.dev.hostDown_modeCmd h).trans unset)]
      exact ⟨s.dev.hostDown_keeps h up, rfl, rfl⟩
  · -- HOST_LINK_DOWN of a port that is down
    intro s h hr down unset
    refine .hostLinkDown hr ?_
    rw [s.dev.hostDown_of_down h down, s.dev.modeDone_of_none unset]
  · -- FUNCTION_LEVEL_RESET
    intro s h hr present
    refine .functionLevelReset hr ?_
    have nothing : Basjo.startsNothing [0x1C, 0x20] ((s.dev.stopHost h).basjo.resetPort h) (s.dev.hostReset h).modeDone.basjo :=
      ((Dev.hostReset_startsNothing present).mono (by simp)).trans (Dev.modeDone_startsNothing _)
    obtain ⟨msix, vecs, pops⟩ := nothing.idleAt h.isLt
    refine ⟨fun r => nothing.ringsOff h (Basjo.resetPort_ringsOff _ h.isLt) r r.isLt, ?_, fun unchosen => ?_, msix,
      fun v => vecs v v.isLt, fun n => pops n n.isLt, ?_, fun unset => ?_⟩
    · exact (congrArg (Store.get _ · h.val) nothing.dead).trans (s.dev.stopHost_dead h)
    · exact (nothing.regs h 0x18 (by decide) (by decide)).trans (s.dev.stopHost_resetPort_rxDrop h unchosen)
    · exact (nothing.linkUp h).trans (s.dev.stopHost_linkUp h h)
    · rw [Dev.modeDone_of_none _ ((Dev.hostReset_modeCmd present).trans unset)]
      exact ⟨Dev.hostReset_keeps present, rfl, rfl⟩
  · -- AER_UNCORRECTABLE reported
    intro s h hr present other up
    have told : s.dev.raiseOther h 6 5 0 0 = s.dev.raiseAt (1 - h.val) 6 5 1 h.val 0 0 := if_pos (by rw [other, up]; simp [h.isLt])
    refine .aerReport hr present ?_
    rw [told]
    exact ⟨rfl, ⟨(s.dev.raiseAt_keeps _ _ _ _ _ _ _).mono (by simp), rfl, rfl⟩, fun _ _ => rfl, s.dev.raiseAt_eventsOnly _ _ _ _ _ _ _⟩
  · -- AER_UNCORRECTABLE with a failed write
    intro s h r hr present runs room
    have hlt := r.isLt
    refine .aerWriteFailed hr present ?_
    rw [s.dev.evtFault_of_runs h r runs room]
    have told := (s.dev.onBasjo (·.evtFaulted h r)).raiseAt_eventsOnly h 2 2 1 h r ((s.dev.basjo.evtFaulted h r).devIdx h r).toNat
    obtain ⟨stopped, idx⟩ := (s.dev.basjo.evtFaulted h r).deliver_stopped s.dev.now h r
      ((s.dev.onBasjo (·.evtFaulted h r)).mkRec 2 2 1 h r ((s.dev.basjo.evtFaulted h r).devIdx h r).toNat s.dev.now) hlt
      (Basjo.faulted_stopped _ h r)
    refine ⟨stopped, ?_, idx.trans (s.dev.basjo.evtFaulted_devIdx h r hlt), ?_, ?_,
      (s.dev.onBasjo_keeps _).trans (Dev.raiseAt_keeps _ _ _ _ _ _ _ _), rfl, rfl⟩
    · exact (told.ringActive hlt).trans (Basjo.faulted_active _ h r hlt)
    · exact (congrArg (bit · 1) (told.regs _ (Basjo.not_eventReg_status _ hlt))).trans (Basjo.faulted_cause _ h r hlt)
    · exact (told.regs _ (Basjo.not_eventReg_hostReg _ (by decide) (by decide))).trans (s.dev.basjo.evtFaulted_errors h r hlt)
  · -- AER_UNCORRECTABLE with neither
    intro s h hr
    exact .aerNothing hr rfl

end Sys2Proof.Machine
end

section
/-! SUPPORT. The refutation of `PortsEnableAndDrain`. -/
namespace Sys2Proof.Machine

/-- Host 0 as an agent. -/
def portDriver : Acc := ⟨1, false⟩

/-- The device in PARTIAL mode with P21 disabled and without power, and the clock branch of P21 among the stopped ones. -/
def portBranchStopped : State := { State.reset with dev :=
  { ((State.reset.dev.setReg (portReg 21 0) 0x40640).setReg 0x20 3).setReg (tapReg 0x64) 0 with
    clocks := { State.reset.dev.clocks with stopped := [0x215] } } }

/-- The main die after PORT_ENABLE of P21. -/
def Dev.enableP21 (s : Dev) : Dev := s.writeEn portDriver (portReg 21 0) true (·.portEnable 21)

theorem exec_portEnable_portBranchStopped : exec (.portEnable portDriver 21) portBranchStopped =
    .next { portBranchStopped with dev := portBranchStopped.dev.enableP21 } :=
  portBranchStopped.onDev_runs Dev.enableP21 (by decide)

/-- The write is demand for P21, and takes its branch off the stopped ones (R503). -/
theorem portBranchStopped_enableP21_clocks : portBranchStopped.dev.enableP21.clocks ≠ portBranchStopped.dev.clocks := by decide

/-- Refutes O15: the clause on a port without power leaves the clocks out of what may change, where every other accepted write of the
statement lists them. The write is demand for the port's unit (R503), so it takes the port's branch off the list of the stopped ones
where it stands there. The statement speaks of every state; CLK_IDLE_EXPIRY itself puts no port's branch on that list (R502). -/
theorem not_portsEnableAndDrain : ¬ Obligations.PortsEnableAndDrain := by
  unfold Obligations.PortsEnableAndDrain
  rintro ⟨-, -, -, unpowered, -⟩
  obtain ⟨t, ht, -, -, ⟨hkeeps, -⟩, -, -⟩ := unpowered portBranchStopped portDriver 21 (by decide) (by decide) (by decide) (by decide)
    (by decide) (by decide) (by decide) (by decide) (by decide)
  injection exec_portEnable_portBranchStopped.symm.trans ht with htarget
  subst htarget
  exact portBranchStopped_enableP21_clocks (hkeeps .clocks (by decide))

end Sys2Proof.Machine
end

section
/-! SUPPORT. The refutation of `LinksFollowLock`. -/
namespace Sys2Proof.Machine

/-- A frame in reception on P0, in one cell, under its key. -/
def securedFrame : RxFrame := ⟨0, [], 64, 0, 0, none, 1, [⟨0, 1, []⟩], 7, 0, false, .plain, none, false⟩

/-- The command SA_CLEAR of SA 0. -/
def clearSaZero : CmdDesc := ⟨0, 0, 0x701142240, 0, 0, 0, 0, 0, false, false⟩

/-- P0 is enabled with lock and receives a frame under SA 0, for which an SA_CLEAR of that SA waits (R366). -/
def clearWaits : State := { State.reset with dev :=
  { (State.reset.dev.setReg (portReg 0 0) 0x80010640).setReg (portReg 0 4) 0x12 with
    rx := [(0, some securedFrame)]
    burl := { State.reset.dev.burl with
      sas := [(0, some ⟨0, 0, 0, false, 0, 1, 0, 0⟩)]
      uses := [⟨.rx securedFrame.no, 0, 0, [0], some 0, none⟩]
      clears := [⟨[0], clearSaZero, 0x14⟩] } } }

theorem exec_lockLost_clearWaits : exec (.lockLost 0) clearWaits = .next { clearWaits with dev := clearWaits.dev.lockDown 0 } :=
  clearWaits.onDev_runs (fun x => if (0 : Fin 36).val < 28 then x.lockDown 0 else x) (by decide)

/-- The frame that is aborted was the last issued under the SA: SA_CLEAR completes, and takes an entry of the change log (R536). -/
theorem clearWaits_lockDown_seq : (clearWaits.dev.lockDown 0).audit.next ≠ clearWaits.dev.audit.next := by decide

/-- Refutes O16: the clause on LOCK_LOST has the change log stay as it was. The frame in reception that the loss of lock aborts may be
the last under an SA that an SA_CLEAR waits for (R366); the command then completes and is logged (R536). -/
theorem not_linksFollowLock : ¬ Obligations.LinksFollowLock := by
  unfold Obligations.LinksFollowLock
  rintro ⟨-, lost, -⟩
  obtain ⟨t, ht, -, -, -, -, -, -, -, -, -, ⟨hkeeps, -⟩⟩ := lost clearWaits 0 (by decide) (by decide) (by decide)
  injection exec_lockLost_clearWaits.symm.trans ht with htarget
  subst htarget
  exact clearWaits_lockDown_seq (congrArg Audit.next (hkeeps .audit (by decide)))

end Sys2Proof.Machine
end

section
/-! SUPPORT. Commands that answer at once, and the answer their driver finds (R55, R68). -/
namespace Sys2Proof.Machine

/-- A command that acts on the main die where it runs, and the main die runs. -/
theorem Completes.of_onDev {i : Instr} {s : State} {P : State → Prop} {f : Dev → Dev} (meaning : exec i s = s.onDev f)
    (hr : s.dev.runs = true) (hp : P { s with dev := f s.dev }) : Completes i s P :=
  ⟨_, meaning.trans (s.onDev_runs f hr), hp⟩

/-- A command of a ring that starts and answers at once. -/
theorem Completes.of_command {i : Instr} {s : State} {P : State → Prop} {d : CmdDesc} {cl un op : Nat} {mask : List Nat}
    {clOk unOk : Nat → Bool} {kind : Option Nat} {body : Dev → CmdRes} {t : Dev} {st x y : Nat}
    (meaning : exec i s = s.onDev (fun z => z.command d clOk unOk op mask kind body)) (starts : s.starts d cl un op mask = true)
    (hcl : clOk cl = true) (hun : unOk un = true) (answer : body (s.dev.demand cl un) = .done t st x y)
    (hp : P { s with dev := t.complete d op kind st x y }) : Completes i s P := by
  obtain ⟨hr, ran⟩ := Dev.command_of_starts s d cl un op mask clOk unOk kind body starts hcl hun
  refine .of_onDev meaning hr ?_
  rwa [ran, answer]

/-! ## What the end of a command leaves alone -/

theorem Dev.finish_keeps (s : Dev) (d : CmdDesc) (st x y : Nat) : s.keeps [.basjo] (s.finish d st x y) := by
  unfold Dev.finish
  dsimp only
  split
  · exact s.onBasjo_keeps _
  · split
    · exact (s.onBasjo_keeps _).trans (Dev.raiseAt_keeps _ _ _ _ _ _ _ _)
    · split
      · exact s.onBasjo_keeps _
      · exact (s.onBasjo_keeps _).trans (Dev.raiseAt_keeps _ _ _ _ _ _ _ _)

theorem Dev.logCommand_keeps (s : Dev) (d : CmdDesc) (op kind st : Nat) : s.keeps [.basjo, .audit] (s.logCommand d op kind st) := by
  intro p hp
  cases p with
  | basjo | audit => exact absurd (by decide) hp
  | _ => rfl

theorem Dev.complete_keeps (s : Dev) (d : CmdDesc) (op : Nat) (kind : Option Nat) (st x y : Nat) :
    s.keeps [.basjo, .audit] (s.complete d op kind st x y) := by
  unfold Dev.complete
  cases kind with
  | none => exact (s.finish_keeps d st x y).mono (by simp)
  | some k =>
    dsimp only
    split
    · exact (s.logCommand_keeps d op k st).trans ((Dev.finish_keeps _ d st x y).mono (by simp))
    · exact (s.finish_keeps d st x y).mono (by simp)

/-! ## The answer -/

/-- The octets that event records may change are the same where the registers of the rings up to HOST_IDX are. -/
theorem Basjo.eventByte_congr {b b' : Basjo} (low : ∀ h r o, r < 128 → o < 0x18 → b'.reg (ringReg h r o) = b.reg (ringReg h r o))
    (h addr : Nat) : b'.eventByte h addr ↔ b.eventByte h addr := by
  have type : ∀ r < 128, b'.ringType h r = b.ringType h r := fun r hr => by
    simp only [Basjo.ringType, Basjo.rf, low h r 0x10 hr (by decide)]
  have entry : ∀ r < 128, ∀ idx, b'.entryAddr h r 32 idx = b.entryAddr h r 32 idx := fun r hr idx => by
    simp only [Basjo.entryAddr, Basjo.ringBase, Basjo.ringSize, Basjo.rf, low h r 0 hr (by decide), low h r 4 hr (by decide),
      low h r 0x10 hr (by decide)]
  unfold Basjo.eventByte
  refine exists_congr fun r => and_congr_right fun hr => ?_
  simp only [type r hr, entry r hr, low h r 8 hr (by decide), low h r 0xC hr (by decide)]

/-- An answer stands where the device index of the ring and the registers of its entries said before event records. -/
theorem Basjo.eventsOnly.answers {b b' b'' : Basjo} {d : CmdDesc} {st x y : Nat} (e : b.eventsOnly b')
    (ht : b.ringType d.host.val d.ring.val ≠ 4) (a : b'.answers d st x y b'') : b.answers d st x y b'' := by
  unfold Basjo.answers at a ⊢
  rw [e.entryAddr d.ring.isLt, e.devIdx d.ring.isLt ht, e.writeBack d.ring.isLt] at a
  exact fun k hk hev => a k hk (fun h => hev ((e.eventByte _ _).mp h))

/-- The host interface after the end of a command, before the record that tells of it. -/
def Basjo.answered (b : Basjo) (d : CmdDesc) (l : List Byte) : Basjo :=
  ((b.store d.host.val (b.entryAddr d.host.val d.ring.val 64 (b.devIdx d.host.val d.ring.val) + 48) l).advance
    d.host.val d.ring.val 1).setRing d.host.val d.ring.val { b.ring d.host.val d.ring.val with running := none, waiting := none }

theorem Basjo.answered_octet (b : Basjo) (d : CmdDesc) (l : List Byte) (hl : l.length = 16) (k : Nat) (hk : k < 16)
    (hw : ∀ j < 4, (b.entryAddr d.host.val d.ring.val 64 (b.devIdx d.host.val d.ring.val) + 48 + k) % 2 ^ 64 ≠
      ((b.reg (ringReg d.host.val d.ring.val 8)).toNat + 2 ^ 32 * (b.reg (ringReg d.host.val d.ring.val 0xC)).toNat + j) % 2 ^ 64) :
    (b.answered d l).octet d.host.val ((b.entryAddr d.host.val d.ring.val 64 (b.devIdx d.host.val d.ring.val) + 48 + k) % 2 ^ 64) =
      l.getD k 0 :=
  ((b.store d.host.val (b.entryAddr d.host.val d.ring.val 64 (b.devIdx d.host.val d.ring.val) + 48) l).advance_octet d.host d.ring.val 1 _
    (Nat.mod_lt _ (by decide)) hw).trans
    (b.octet_store_same d.host _ l k (by rw [hl]; decide) (by rwa [hl]))

theorem Basjo.answered_low (b : Basjo) (d : CmdDesc) (l : List Byte) (h r o : Nat) (hr : r < 128) (ho : o < 0x18) :
    (b.answered d l).reg (ringReg h r o) = b.reg (ringReg h r o) :=
  (Basjo.reg_setReg _ _ _ _).trans (if_neg (fun e => by
    have := (ringReg_inj hr d.ring.isLt (by omega) (by decide) e).2.2
    omega))

/-- The driver of a command that ends on a ring that runs is answered (R68). -/
theorem Dev.finish_answers (s : Dev) (d : CmdDesc) (st x y : Nat) (ha : s.basjo.ringActive d.host.val d.ring.val = true)
    (hw : d.writeErr = false) : s.basjo.answers d st x y (s.finish d st x y).basjo := by
  have told : (s.basjo.answered d (leBytes 8 (x % 2 ^ 32 * 2 ^ 32 + 256 + st) ++ leBytes 8 y)).eventsOnly (s.finish d st x y).basjo := by
    unfold Dev.finish
    simp only [ha, hw, Bool.not_true, Bool.false_eq_true, if_false]
    split
    · exact .refl _
    · exact (s.onBasjo (·.answered d _)).raiseAt_eventsOnly _ _ _ _ _ _ _
  intro k hk hev hback
  refine (told.mem _ _ (Nat.mod_lt _ (by decide)) (fun h => hev ?_)).trans (s.basjo.answered_octet d _ (by simp) k hk hback)
  exact (Basjo.eventByte_congr (s.basjo.answered_low d _) _ _).mp h

theorem Dev.complete_answers (s : Dev) (d : CmdDesc) (op : Nat) (kind : Option Nat) (st x y : Nat)
    (ht : s.basjo.ringType d.host.val d.ring.val ≠ 4) (ha : s.basjo.ringActive d.host.val d.ring.val = true)
    (hw : d.writeErr = false) : s.basjo.answers d st x y (s.complete d op kind st x y).basjo := by
  unfold Dev.complete
  cases kind with
  | none => exact s.finish_answers d st x y ha hw
  | some k =>
    dsimp only
    split
    · have logged := s.logRaw_eventsOnly d.origin k d.cl d.un op (d.tag * 2 ^ 16 + st) 0 (hash8 d.logOctets)
      exact logged.answers ht (Dev.finish_answers _ d st x y ((logged.ringActive d.ring.isLt).trans ha) hw)
    · exact s.finish_answers d st x y ha hw

theorem State.starts_writes {s : State} {d : CmdDesc} {cl un op : Nat} {mask : List Nat} (h : s.starts d cl un op mask = true) :
    d.writeErr = false := by
  simp only [State.starts, Bool.and_eq_true, Bool.not_eq_true'] at h
  obtain ⟨⟨⟨⟨⟨⟨⟨⟨⟨⟨⟨⟨⟨⟨-, hw⟩, -⟩, -⟩, -⟩, -⟩, -⟩, -⟩, -⟩, -⟩, -⟩, -⟩, -⟩, -⟩, -⟩ := h
  exact hw

theorem Dev.demand_keeps (s : Dev) (c u : Nat) : s.keeps [.clocks] (s.demand c u) := by
  intro p hp
  cases p with
  | clocks => exact absurd (List.mem_singleton_self _) hp
  | _ => rfl

/-- A command that answers at once, and of the main die changes no more than what has left it: its frame, and its answer. -/
theorem State.completes_of_starts {s : State} {d : CmdDesc} {cl un op : Nat} {mask : List Nat} (starts : s.starts d cl un op mask = true)
    {l : List Part} {t : Dev} (did : (s.dev.demand cl un).keeps l t) (hl : l ⊆ [.out]) (kind : Option Nat)
    (st x y : Nat) : s.completes d l [] { s with dev := t.complete d op kind st x y } ∧
      s.dev.basjo.answers d st x y (t.complete d op kind st x y).basjo := by
  obtain ⟨type, active⟩ := s.starts_ring d cl un op mask starts
  have type4 : s.dev.basjo.ringType d.host.val d.ring.val ≠ 4 := by rw [type]; decide
  have writes := State.starts_writes starts
  have same : t.basjo = s.dev.basjo := did.mono hl .basjo (by decide)
  have kept : s.dev.keeps (.regs :: .basjo :: .audit :: .clocks :: l) (t.complete d op kind st x y) :=
    (((s.dev.demand_keeps cl un).mono (by simp)).trans (did.mono (fun p hp => by simp [hp]))).trans
      ((t.complete_keeps d op kind st x y).mono (by simp))
  have regs : ∀ a, (t.complete d op kind st x y).reg a = s.dev.reg a := fun a => by
    rw [Dev.complete_reg, Dev.reg, did.mono hl .regs (by decide), did.mono hl .variant (by decide)]
    rfl
  refine ⟨⟨⟨kept, rfl, rfl⟩, fun a _ => regs a, ?_⟩, ?_⟩
  · rw [← same] at type4 active ⊢
    exact t.complete_doneOnly d op kind st x y type4 active writes
  · rw [← same] at type4 active ⊢
    exact t.complete_answers d op kind st x y type4 active writes

end Sys2Proof.Machine
end

section
/-! SUPPORT. What a command that tells of itself changes in the main die, put together from its steps. -/
namespace Sys2Proof.Machine

/-- Beside event records only the named parts and the named registers of the main die change. -/
structure Dev.changes (parts : List Part) (regs : List Nat) (s t : Dev) : Prop where
  parts : s.keeps (.regs :: .basjo :: parts) t
  regs : s.regsKeep regs t
  events : s.basjo.eventsOnly t.basjo

section
variable {l l' : List Part} {w w' : List Nat} {s t u : Dev}

theorem Dev.changes.refl (s : Dev) : Dev.changes l w s s := ⟨.refl s _, fun _ _ => rfl, .refl _⟩

theorem Dev.changes.trans (h : Dev.changes l w s t) (h' : Dev.changes l w t u) : Dev.changes l w s u :=
  ⟨h.parts.trans h'.parts, fun a ha => (h'.regs a ha).trans (h.regs a ha), h.events.trans h'.events⟩

theorem Dev.changes.mono (h : Dev.changes l w s t) (hl : l ⊆ l') (hw : w ⊆ w') : Dev.changes l' w' s t :=
  ⟨h.parts.mono (List.cons_subset_cons _ (List.cons_subset_cons _ hl)), fun a ha => h.regs a (fun hm => ha (hw hm)), h.events⟩

/-- A change of parts that are neither the registers nor the host interface. -/
theorem Dev.changes.of_keeps (h : s.keeps l t) (hr : t.reg = s.reg) (hb : t.basjo = s.basjo) : Dev.changes l w s t :=
  ⟨h.mono (by simp), fun a _ => congrFun hr a, hb ▸ .refl _⟩

theorem Dev.changes.part (h : Dev.changes l w s t) {p : Part} (hp : p ∉ .regs :: .basjo :: l) : p.same s t := h.parts p hp

/-- The frame of a command, from the frame of what it does to the main die. -/
theorem Dev.changes.ofState {s : State} (h : Dev.changes l w s.dev t) : s.changes l w { s with dev := t } :=
  ⟨⟨h.parts.mono (List.cons_subset_cons _ (List.cons_subset_cons _ (List.subset_cons_self _ _))), rfl, rfl⟩, h.regs, h.events⟩

/-- The write of a register; a field, a bit and a counter are written by one too. -/
theorem Dev.setReg_changes (s : Dev) (a : Nat) (v : Word) (ha : a ∈ w) : Dev.changes l w s (s.setReg a v) :=
  ⟨(s.setReg_keeps a v).mono (by simp), fun _ hr => s.reg_setReg_ne v (fun e => hr (e ▸ ha)), .refl _⟩

theorem Dev.setPort_keeps (s : Dev) (n : Nat) (x : PortRun) : s.keeps [.ports] (s.setPort n x) := by
  intro p hp
  cases p with
  | ports => exact absurd (List.mem_singleton_self _) hp
  | _ => rfl

theorem Dev.setPort_changes (s : Dev) (n : Nat) (x : PortRun) (hl : .ports ∈ l) : Dev.changes l w s (s.setPort n x) :=
  .of_keeps ((s.setPort_keeps n x).mono (by simpa using hl)) rfl rfl

theorem Dev.raise_changes (s : Dev) (cls cause cl un x y : Nat) : Dev.changes l w s (s.raise cls cause cl un x y) :=
  ⟨(s.onBasjo_keeps _).mono (by simp), fun _ _ => rfl, s.raise_eventsOnly _ _ _ _ _ _⟩

theorem Dev.raiseRated_changes (s : Dev) (cls cause cl un sub iv : Nat) (pa pb : Nat → Nat) :
    Dev.changes l w s (s.raiseRated cls cause cl un sub iv pa pb) := by
  have kept : s.keeps [.basjo] (s.raiseRated cls cause cl un sub iv pa pb) := by
    unfold Dev.raiseRated
    obtain ⟨m, e | ⟨n, e⟩⟩ := s.rated_cases (rateKey cls cause cl un sub) iv (fun n s => s.raise cls cause cl un (pa n) (pb n)) <;> rw [e]
    · exact s.onBasjo_keeps _
    · exact (s.onBasjo_keeps _).trans (Dev.onBasjo_keeps _ _)
  exact ⟨kept.mono (by simp), fun a _ => s.raiseRated_reg _ _ _ _ _ _ _ _ a, s.raiseRated_eventsOnly _ _ _ _ _ _ _ _⟩

end

/-! ## What a port holds beside its registers -/

@[simp] theorem Dev.port_setPort_same (s : Dev) (n : Nat) (x : PortRun) : (s.setPort n x).port n = x := Store.get_put_same _ _ _ _

theorem Dev.changes.port {l : List Part} {w : List Nat} {s t : Dev} (h : Dev.changes l w s t) (hl : .ports ∉ l) (n : Nat) :
    t.port n = s.port n :=
  congrArg (Store.get PortRun.idle · n) (h.part (p := .ports) (by simpa using hl))

end Sys2Proof.Machine
end

section
/-! SUPPORT. MDIO commands and polls (R103 to R105), the end of a link-quality second (R107 to R111), and the statement on both. -/
namespace Sys2Proof.Machine

/-! ## MDIO commands -/

section
variable {s : Dev} {d : CmdDesc} {phy : PhyReply} (m : Fin 4) (hd : d.un = 40 + m.val)
include hd

theorem Dev.mdioRead_of_enabled (on : s.rb (mdioReg m.val 0) 31 = true) : s.mdioRead d phy =
    .done s (if phy.ack then stOk else 0x40) (if phy.ack then phy.data.toNat else 0xFFFF) 0 := by
  unfold Dev.mdioRead
  rw [hd, Nat.add_sub_cancel_left, if_neg (by rw [on]; decide)]
  cases phy.ack <;> rfl

theorem Dev.mdioRead_of_off (off : s.rb (mdioReg m.val 0) 31 = false) : s.mdioRead d phy = .done s stWrongMode 0 0 := by
  unfold Dev.mdioRead
  rw [hd, Nat.add_sub_cancel_left]
  exact if_pos (by rw [off]; decide)

theorem Dev.mdioWrite_of_enabled (on : s.rb (mdioReg m.val 0) 31 = true) (reg : Nat) : s.mdioWrite d reg =
    .done { s with out := .mdio m.val (fld d.p8 4 0) (fld d.p8 12 8) reg (fld d.p8 47 32) :: s.out } stOk 0 0 := by
  unfold Dev.mdioWrite
  rw [hd, Nat.add_sub_cancel_left]
  exact if_neg (by rw [on]; decide)

end

theorem isMdio_master (m : Fin 4) : isMdio (40 + m.val) = true := by
  unfold isMdio
  rw [Bool.and_eq_true, decide_eq_true_eq, decide_eq_true_eq]
  omega

theorem State.starts_unit {s : State} {d : CmdDesc} {cl un op : Nat} {mask : List Nat} (h : s.starts d cl un op mask = true) :
    d.un = un := by
  simp only [State.starts, Bool.and_eq_true, decide_eq_true_eq] at h
  obtain ⟨⟨⟨⟨⟨⟨⟨⟨⟨⟨-, hun⟩, -⟩, -⟩, -⟩, -⟩, -⟩, -⟩, -⟩, -⟩, -⟩ := h
  exact hun

section
variable {i : Instr} {s : State} {d : CmdDesc} {m : Fin 4} {phy : PhyReply} {op mask : Nat} {l : List Part} {t : Dev} {st x y : Nat}

/-- An MDIO command that answers at once has its frame and its answer. -/
theorem Completes.ofMdio {kind : Option Nat} {body : Dev → CmdRes}
    (meaning : exec i s = s.onDev (fun z => z.mdioCommand d op mask kind body))
    (starts : s.starts d 2 (40 + m.val) op [mask, 0, 0, 0, 0] = true)
    (answer : body (s.dev.demand 2 (40 + m.val)) = .done t st x y) (did : (s.dev.demand 2 (40 + m.val)).keeps l t) (hl : l ⊆ [.out]) :
    Completes i s (fun u => u.dev.out = t.out ∧ s.completes d l [] u ∧ s.dev.basjo.answers d st x y u.dev.basjo) :=
  .of_command meaning starts rfl (isMdio_master m) answer
    ⟨Dev.complete_out _ _ _ _ _ _ _, State.completes_of_starts starts did hl kind st x y⟩

/-- An MDIO read, which leaves nothing. -/
theorem Completes.ofMdioRead (meaning : exec i s = s.onDev (fun z => z.mdioCommand d op mask none (·.mdioRead d phy)))
    (starts : s.starts d 2 (40 + m.val) op [mask, 0, 0, 0, 0] = true)
    (answer : (s.dev.demand 2 (40 + m.val)).mdioRead d phy = .done (s.dev.demand 2 (40 + m.val)) st x y) :
    Completes i s (fun u => s.completes d [] [] u ∧ s.dev.basjo.answers d st x y u.dev.basjo) := by
  obtain ⟨u, ran, -, frame⟩ := Completes.ofMdio meaning starts answer (.refl _ []) (by simp)
  exact ⟨u, ran, frame⟩

/-- An MDIO write, which leaves on the bus. -/
theorem Completes.ofMdioWrite {reg : Nat} (meaning : exec i s = s.onDev (fun z => z.mdioCommand d op mask (some kCommand) (·.mdioWrite d reg)))
    (starts : s.starts d 2 (40 + m.val) op [mask, 0, 0, 0, 0] = true) (on : s.dev.rb (mdioReg m.val 0) 31 = true) :
    Completes i s (fun u => u.dev.out = .mdio m.val (fld d.p8 4 0) (fld d.p8 12 8) reg (fld d.p8 47 32) :: s.dev.out ∧
      s.completes d [.out] [] u ∧ s.dev.basjo.answers d stOk 0 0 u.dev.basjo) := by
  refine .ofMdio meaning starts (Dev.mdioWrite_of_enabled (s := s.dev.demand 2 (40 + m.val)) m (State.starts_unit starts) on reg) (fun p hp => ?_) (by simp)
  cases p with
  | out => exact absurd (List.mem_singleton_self _) hp
  | _ => rfl

end

/-! ## Polls -/

/-- A poll slot is read now. -/
def Dev.pollRead (s : Dev) (m k : Nat) : Dev := { s with polls := s.polls.put none (8 * m + k) (some s.now) }

theorem Dev.pollRead_keeps (s : Dev) (m k : Nat) : s.keeps [.polls] (s.pollRead m k) := by
  intro p hp
  cases p with
  | polls => exact absurd (List.mem_singleton_self _) hp
  | _ => rfl

theorem ballotReg_mdioReg {m o : Nat} (hm : m < 4) (ho : o < 0x100) : ballotReg (mdioReg m o) = false := by
  have low : mdioReg m o < 0x680000 := by simp only [mdioReg]; omega
  have above : ∀ a ∈ [tapReg 0, tapReg 0x10, tapReg 0x14, tapReg 0x20, tapReg 0x24, tapReg 0x34], 0x680000 ≤ a := by decide
  rw [ballotReg, Bool.or_eq_false_iff]
  constructor
  · rw [← Bool.not_eq_true, List.contains_iff_mem]
    exact fun hmem => absurd (above _ hmem) (by omega)
  · rw [List.any_eq_false]
    intro k _ e
    have := of_decide_eq_true e
    simp only [srcReg, tapReg] at this
    omega

/-- A poll that stores a value, tells of it or not, and lets the ballot act: `y` is the state in which it does. -/
theorem Dev.pollStores {s y : Dev} {m k v : Nat} {w : Word} (hm : m < 4) (hv : v < 0x100)
    (told : Dev.changes [] [] ((s.pollRead m k).setReg (mdioReg m v) w) y) :
    y.ballot.reg (mdioReg m v) = w ∧ y.ballot.polls = s.polls.put none (8 * m + k) (some s.now) ∧
      s.keeps [.regs, .basjo, .polls, .tap] y.ballot ∧
      (∀ a, (decide (a = mdioReg m v) || ballotReg a) = false → y.ballot.reg a = s.reg a) ∧ s.basjo.eventsOnly y.ballot.basjo := by
  obtain ⟨⟨ballotParts, ballotRecords⟩, ballotRegs, -⟩ := y.ballot_ballotOnly
  refine ⟨?_, ?_, ?_, fun a ha => ?_, told.events.trans ballotRecords.events⟩
  · rw [ballotRegs _ (ballotReg_mdioReg hm hv), told.regs _ (by simp), Dev.reg_setReg_same]
  · exact (ballotParts .polls (by decide)).trans (told.part (p := .polls) (by decide))
  · exact (((s.pollRead_keeps m k).mono (by simp)).trans (((Dev.setReg_keeps _ _ _).mono (by simp)).trans
      (told.parts.mono (by simp)))).trans (ballotParts.mono (by simp))
  · simp only [Bool.or_eq_false_iff, decide_eq_false_iff_not] at ha
    rw [ballotRegs a ha.2, told.regs a (by simp), Dev.reg_setReg_ne _ _ ha.1]
    rfl

section
variable {s : Dev} {m k : Nat} {phy : PhyReply} (on : s.rb (mdioReg m 0) 31 = true)
  (slot : s.rb (mdioReg m (0x10 + 0x10 * k)) 31 = true) (due : s.pollDue m k = true)
include on slot due

/-- A slot that is due is read. -/
theorem Dev.mdioPoll_of_due : s.mdioPoll m k phy =
    if phy.ack = false then
      (((s.pollRead m k).setRb (mdioReg m (0x18 + 0x10 * k)) 16 false).raise 12 2 2 (40 + m) (k * 65536 + 0xFFFF) 0).ballot
    else if ((s.reg (mdioReg m (0x18 + 0x10 * k)) ^^^ BitVec.ofNat 32 phy.data.toNat) &&&
        (s.reg (mdioReg m (0x14 + 0x10 * k)) &&& 0xFFFF)) ≠ 0 then
      (((s.pollRead m k).setReg (mdioReg m (0x18 + 0x10 * k)) (BitVec.ofNat 32 (65536 + phy.data.toNat))).raise 12 1 2 (40 + m)
        (k * 65536 + phy.data.toNat) 0).ballot
    else if s.rb (mdioReg m (0x18 + 0x10 * k)) 16 then s.pollRead m k
    else ((s.pollRead m k).setReg (mdioReg m (0x18 + 0x10 * k)) (BitVec.ofNat 32 (65536 + phy.data.toNat))).ballot := by
  unfold Dev.mdioPoll
  dsimp only
  rw [if_neg (by rw [on, slot, due]; decide)]
  cases phy.ack <;> rfl

end

/-! ## Link-quality seconds -/

/-- The second in progress is a severely errored one: an instant of it passed without lock, or a hundredth of its frames were
errored (R108). -/
def PortRun.severe (r : PortRun) : Bool := r.noLock || (r.errs > 0 && r.errs * 100 ≥ r.errs + r.good)

/-- The second in progress as it joins those not yet counted (R110), under a state of availability. -/
def PortRun.ended (r : PortRun) (unavail : Bool) : LqSecond :=
  ⟨r.second, r.errs, r.severe || r.errs > 0 || r.lost, r.severe, unavail⟩

/-- The port at the start of the next second. -/
def Dev.nextSecond (s : Dev) (n : Nat) : PortRun :=
  { s.port n with errs := 0, good := 0, lost := false, noLock := !s.portLock n, whole := true, second := (s.port n).second + 1 }

/-- The run of seconds against the state of availability (R109). -/
def Dev.lqRun (s : Dev) (n : Nat) : Nat :=
  if (s.port n).severe ≠ s.rb (portReg n 0x44) 0 then s.rf (portReg n 0x44) 7 4 + 1 else 0

section
variable {s : Dev} {n : Nat} (en : s.portEn n = true) (power : s.portPowered n = true)
include en power

theorem Dev.lqEnd_of_later (later : s.lqNow ≤ (s.port n).second) : s.lqEnd n = s := by
  unfold Dev.lqEnd
  exact if_pos (by rw [en, power]; simpa using later)

theorem Dev.lqEnd_of_part (past : (s.port n).second < s.lqNow) (part : (s.port n).whole = false) :
    s.lqEnd n = s.setPort n (s.nextSecond n) := by
  unfold Dev.lqEnd
  dsimp only
  rw [if_neg (by rw [en, power]; simpa using past), if_pos (by rw [part]; decide)]
  rfl

theorem Dev.lqEnd_of_whole (past : (s.port n).second < s.lqNow) (whole : (s.port n).whole = true)
    (few : (s.port n).seconds.length < 9) (short : s.rf (portReg n 0x44) 7 4 < 9) :
    s.lqEnd n = (s.setReg (portReg n 0x44) (BitVec.ofNat 32 (s.lqRun n * 16 + (s.port n).severe.toNat * 2 +
      (s.rb (portReg n 0x44) 0).toNat))).setPort n
        { s.nextSecond n with seconds := (s.port n).seconds ++ [(s.port n).ended (s.rb (portReg n 0x44) 0)] } := by
  have undeclared : decide (s.lqRun n ≥ 10) = false := by
    rw [decide_eq_false_iff_not, Dev.lqRun]
    split <;> omega
  unfold Dev.lqRun PortRun.severe at undeclared
  unfold Dev.lqEnd
  dsimp only
  rw [if_neg (by rw [en, power]; simpa using past), if_neg (by rw [whole]; decide)]
  simp only [undeclared, Bool.false_eq_true, if_false, Bool.xor_false]
  cases hl : (s.port n).seconds with
  | nil => rfl
  | cons z rest =>
    rw [hl] at few
    exact if_neg (by simp only [List.cons_append, List.length_cons, List.length_append, List.length_nil] at few ⊢; omega)

end

/-! ## The statement -/

/-- Settles O18, command by command: the MDIO commands, MDIO_POLL by what the PHY answers, and LQ_SECOND_END by how the port spent the
second. -/
theorem mdioAndLinkQuality : Obligations.MdioAndLinkQuality := by
  unfold Obligations.MdioAndLinkQuality
  refine ⟨?_, ?_, ?_, ?_, ?_, ?_, ?_, ?_, ?_, ?_, ?_⟩
  · -- C22_READ
    intro s d m phy starts on
    exact .ofMdioRead rfl starts (Dev.mdioRead_of_enabled m (State.starts_unit starts) on)
  · -- C22_WRITE
    intro s d m starts on
    exact .ofMdioWrite rfl starts on
  · -- C45_READ
    intro s d m phy starts on
    exact .ofMdioRead rfl starts (Dev.mdioRead_of_enabled m (State.starts_unit starts) on)
  · -- C45_WRITE
    intro s d m starts on
    exact .ofMdioWrite rfl starts on
  · -- C22_READ on a master that is off
    intro s d m phy starts off
    exact .ofMdioRead rfl starts (Dev.mdioRead_of_off m (State.starts_unit starts) off)
  · -- MDIO_POLL that stores a value
    intro s m k phy hr on slot due ack differs
    refine .of_onDev (f := fun x => x.mdioPoll m.val k.val phy) rfl hr ?_
    have low : 0x18 + 0x10 * k.val < 0x100 := by omega
    rw [Dev.mdioPoll_of_due on slot due, if_neg (by rw [ack]; decide)]
    split
    · obtain ⟨val, polls, parts, regs, events⟩ := Dev.pollStores m.isLt low (Dev.raise_changes _ 12 1 2 (40 + m.val) _ 0)
      exact ⟨val, polls, ⟨parts.mono (by simp), rfl, rfl⟩, regs, events⟩
    · next same =>
      obtain ⟨val, polls, parts, regs, events⟩ := Dev.pollStores m.isLt low (.refl _)
      rw [if_neg (by rw [differs.resolve_left same]; decide)]
      exact ⟨val, polls, ⟨parts.mono (by simp), rfl, rfl⟩, regs, events⟩
  · -- MDIO_POLL that finds the value held
    intro s m k phy hr on slot due ack same valid
    refine .of_onDev (f := fun x => x.mdioPoll m.val k.val phy) rfl hr ?_
    rw [Dev.mdioPoll_of_due on slot due, if_neg (by rw [ack]; decide), if_neg (not_not_intro same), if_pos valid]
    exact ⟨rfl, s.dev.pollRead_keeps m k, rfl, rfl⟩
  · -- MDIO_POLL without an answer
    intro s m k phy hr on slot due ack
    refine .of_onDev (f := fun x => x.mdioPoll m.val k.val phy) rfl hr ?_
    rw [Dev.mdioPoll_of_due on slot due, if_pos ack]
    obtain ⟨val, polls, parts, regs, events⟩ := Dev.pollStores m.isLt (show 0x18 + 0x10 * k.val < 0x100 by omega)
      (Dev.raise_changes _ 12 2 2 (40 + m.val) _ 0)
    exact ⟨val, polls, ⟨parts.mono (by simp), rfl, rfl⟩, regs, events⟩
  · -- LQ_SECOND_END of a second not spent whole in service
    intro s n hr en power past part
    refine .of_onDev (f := fun x => x.lqEnd n.val) rfl hr ?_
    rw [Dev.lqEnd_of_part en power past part]
    exact ⟨Dev.port_setPort_same _ _ _, s.dev.setPort_keeps _ _, rfl, rfl⟩
  · -- LQ_SECOND_END of a whole one
    intro s n hr en power past whole few short
    refine .of_onDev (f := fun x => x.lqEnd n.val) rfl hr ?_
    rw [Dev.lqEnd_of_whole en power past whole few short]
    exact ⟨Dev.port_setPort_same _ _ _, s.dev.reg_setReg_same _ _,
      ⟨((s.dev.setReg_keeps _ _).mono (by simp)).trans ((Dev.setPort_keeps _ _ _).mono (by simp)), rfl, rfl⟩,
      fun a ha => s.dev.reg_setReg_ne _ (by simpa using ha)⟩
  · -- LQ_SECOND_END before the second has ended
    intro s n hr en power later
    refine .of_onDev (f := fun x => x.lqEnd n.val) rfl hr ?_
    rw [Dev.lqEnd_of_later en power later]

end Sys2Proof.Machine
end

section
/-! SUPPORT. The verify protocol of a preempting port (R96, R97). -/
namespace Sys2Proof.Machine

theorem portReg_ne {n o o' : Nat} (h : o ≠ o') : portReg n o ≠ portReg n o' := fun e => h (Nat.add_left_cancel e)

theorem Dev.withOut_keeps (s : Dev) (l : List Output) : s.keeps [.out] { s with out := l } := by
  intro p hp
  cases p with
  | out => exact absurd (List.mem_singleton_self _) hp
  | _ => rfl

/-- The verify protocol enters a state, and TX_ACTIVE follows it (R96). -/
def Dev.verifyEnters (s : Dev) (n v : Nat) : Dev := (s.setRf (portReg n 0x24) 2 0 v).preemptUpdate n

section
variable {s : Dev} {n v : Nat} (preempts : n < 20)
include preempts

theorem Dev.verifyEnters_eq : s.verifyEnters n v = (s.setRf (portReg n 0x24) 2 0 v).setRb (portReg n 0x24) 3
    (s.rb (portReg n 0x20) 31 && decide (s.portLink n = 2) && (!s.rb (portReg n 0x20) 29 || decide (v % 8 = 3))) := by
  have entered : (s.setRf (portReg n 0x24) 2 0 v).rf (portReg n 0x24) 2 0 = v % 8 := s.rf_setRf_same _ _ _ _ (by decide)
  unfold Dev.verifyEnters Dev.preemptUpdate Dev.portLink
  rw [if_neg (by simpa [hasPreempt] using preempts), s.rb_setRf_out _ _ _ _ _ _ (by decide) (.inl (portReg_ne (by decide))),
    s.rb_setRf_out _ _ _ _ _ _ (by decide) (.inl (portReg_ne (by decide))),
    s.rf_setRf_out _ _ _ _ _ _ _ (by decide) (.inl (portReg_ne (by decide))), entered]

theorem Dev.verifyEnters_state (hv : v < 8) : (s.verifyEnters n v).rf (portReg n 0x24) 2 0 = v := by
  rw [Dev.verifyEnters_eq preempts, Dev.rf_setRb_out _ _ _ _ _ _ _ (by decide) (.inr (.inl (by decide))),
    s.rf_setRf_same _ _ _ _ (by decide)]
  exact Nat.mod_eq_of_lt hv

theorem Dev.verifyEnters_active (hv : v < 8) : (s.verifyEnters n v).rb (portReg n 0x24) 3 =
    (s.rb (portReg n 0x20) 31 && decide (s.portLink n = 2) && (!s.rb (portReg n 0x20) 29 || decide (v = 3))) := by
  rw [Dev.verifyEnters_eq preempts, Dev.rb_setRb_same _ _ _ _ (by decide), Nat.mod_eq_of_lt hv]

theorem Dev.verifyEnters_keeps : s.keeps [.regs] (s.verifyEnters n v) :=
  Dev.verifyEnters_eq (s := s) (v := v) preempts ▸ (s.setReg_keeps _ _).trans (Dev.setReg_keeps _ _ _)

theorem Dev.verifyEnters_changes {l : List Part} : Dev.changes l [portReg n 0x24] s (s.verifyEnters n v) :=
  Dev.verifyEnters_eq (s := s) (v := v) preempts ▸ (s.setReg_changes _ _ (by simp)).trans (Dev.setReg_changes _ _ _ (by simp))

/-! ## PREEMPT_VERIFY_TIMER -/

omit preempts in
theorem Dev.verifyTimer_of_early (early : s.now < (s.port n).verifyAt + max 1 (s.rf (portReg n 0x20) 23 16) * msRaw) :
    s.verifyTimer n = s := by
  unfold Dev.verifyTimer
  exact if_pos (by simp [early])

/-- VERIFY_TIME has passed while the port verifies. -/
theorem Dev.verifyTimer_of_passed (verifying : s.rf (portReg n 0x24) 2 0 = 2)
    (passed : (s.port n).verifyAt + max 1 (s.rf (portReg n 0x20) 23 16) * msRaw ≤ s.now) : s.verifyTimer n =
      if (s.port n).attempts < 3 then s.sendVerify n ((s.port n).attempts + 1)
      else (s.verifyEnters n 4).raiseRated 14 4 2 n 0 msRaw (fun c => c) (fun _ => 0) := by
  unfold Dev.verifyTimer
  exact if_neg (by simpa [hasPreempt, verifying, preempts] using passed)

end

theorem Dev.sendVerify_keeps (s : Dev) (n k : Nat) : s.keeps [.ports, .out] (s.sendVerify n k) :=
  ((s.setPort_keeps n _).mono (by simp)).trans ((Dev.withOut_keeps _ _).mono (by simp))

/-! ## What a preempting port takes in -/

/-- A reassembly error with no frame in reassembly is counted, and told (R98). -/
theorem Dev.asmErr_of_free (s : Dev) (n cause : Nat) (free : (s.port n).reasm = none) : s.asmErr n cause =
    (s.count (portReg n 0x144)).raiseRated 14 cause 2 n 0 msRaw (fun c => c) (fun _ => 0) := by
  have kept : s.dropReasm n = s := by
    unfold Dev.dropReasm
    rw [free]
  rw [Dev.asmErr, kept]

theorem Dev.endRx_of_none (s : Dev) (n : Nat) (quiet : s.rxOf n = none) : s.endRx n = s := by
  unfold Dev.endRx
  rw [quiet]

section
variable {s : Dev} {n : Nat} (present : portPresent s.variant n = true) (power : s.portPowered n = true) (up : s.portUp n = true)
  (quiet : s.rxOf n = none)
include present power up quiet

/-- With reassembly off what arrives for it is discarded and counted (R98). -/
theorem Dev.verifyResponse_of_off (off : s.rb (portReg n 0x20) 30 = false) : s.verifyResponse n = s.count (portReg n 0x144) := by
  unfold Dev.verifyResponse
  rw [if_neg (by rw [present, power, up]; decide), s.endRx_of_none n quiet]
  exact if_pos (by simp [off])

theorem Dev.verifyResponse_of_verifying (preempts : n < 20) (on : s.rb (portReg n 0x20) 30 = true)
    (verifying : s.rf (portReg n 0x24) 2 0 = 2) : s.verifyResponse n = s.verifyEnters n 3 := by
  unfold Dev.verifyResponse
  rw [if_neg (by rw [present, power, up]; decide), s.endRx_of_none n quiet]
  exact (if_neg (by simp [hasPreempt, preempts, on])).trans (if_pos verifying)

theorem Dev.fragment_of_off (off : s.rb (portReg n 0x20) 30 = false) (f : Fragment) : s.fragment n f = s.count (portReg n 0x144) := by
  unfold Dev.fragment
  rw [if_neg (by rw [present, power, up]; decide), s.endRx_of_none n quiet]
  exact if_pos (by simp [off])

/-- The stamp of a fragment that arrives now. -/
def Dev.fragStamp (s : Dev) (n : Nat) (f : Fragment) : Nat :=
  ((s.tick * 256 + f.frac.toNat : Int) + s.adj (portReg n 0x10)).toNat

section
variable (preempts : n < 20) (on : s.rb (portReg n 0x20) 30 = true)
include preempts on

theorem Dev.fragment_of_verify {f : Fragment} (smd : f.smd = .verify) : s.fragment n f = { s with out := .mpacket n true :: s.out } := by
  unfold Dev.fragment
  rw [if_neg (by rw [present, power, up]; decide), if_neg (by simp [hasPreempt, preempts, on]), s.endRx_of_none n quiet, smd]

/-- A first fragment, with no other frame in reassembly. -/
theorem Dev.fragment_of_start {f : Fragment} {k : Fin 4} (smd : f.smd = .start k) (free : (s.port n).reasm = none) : s.fragment n f =
    (s.count (portReg n 0x140)).newChain.2.addFragment n
      ⟨[], k.val, 0, s.fragStamp n f, 0, [], s.trunk.nextChain, none, false⟩ f := by
  unfold Dev.fragment
  rw [if_neg (by rw [present, power, up]; decide), if_neg (by simp [hasPreempt, preempts, on]), s.endRx_of_none n quiet, smd]
  dsimp only
  rw [if_neg (by rw [show ((s.count (portReg n 0x140)).port n).reasm = none from free]; decide)]
  have adj : (s.count (portReg n 0x140)).adj (portReg n 0x10) = s.adj (portReg n 0x10) :=
    congrArg (signed 24) (s.rf_setReg_ne _ _ _ (portReg_ne (by decide)))
  rw [adj]
  rfl

theorem Dev.fragment_of_cont {f : Fragment} {k : Fin 4} {r : Reasm} (smd : f.smd = .cont k) (held : (s.port n).reasm = some r)
    (count : r.count = k.val) (next : r.next = f.fragCount.val) : s.fragment n f =
    (s.count (portReg n 0x140)).addFragment n { r with next := (r.next + 1) % 4 } f := by
  unfold Dev.fragment
  rw [if_neg (by rw [present, power, up]; decide), if_neg (by simp [hasPreempt, preempts, on]), s.endRx_of_none n quiet, smd]
  dsimp only
  rw [show ((s.count (portReg n 0x140)).port n).reasm = some r from held]
  exact if_neg (by simp [count, next])

theorem Dev.fragment_of_lone_cont {f : Fragment} {k : Fin 4} (smd : f.smd = .cont k) (free : (s.port n).reasm = none) : s.fragment n f =
    ((s.count (portReg n 0x140)).count (portReg n 0x144)).raiseRated 14 1 2 n 0 msRaw (fun c => c) (fun _ => 0) := by
  unfold Dev.fragment
  rw [if_neg (by rw [present, power, up]; decide), if_neg (by simp [hasPreempt, preempts, on]), s.endRx_of_none n quiet, smd]
  dsimp only
  rw [show ((s.count (portReg n 0x140)).port n).reasm = none from free]
  exact Dev.asmErr_of_free _ n 1 free

end

end

end Sys2Proof.Machine
end

section
/-! SUPPORT. The reassembly of preempted frames (R98, R99, R186), and the statement on preemption. -/
namespace Sys2Proof.Machine

/-! ## What a fragment may change beside its port -/

/-- The Trunk but its marks of pressure and the next number of a run of cells. -/
def Trunk.gaugedTo (k k' : Trunk) : Prop := k' = { k with press := k'.press, descPress := k'.descPress, nextChain := k'.nextChain }

theorem Trunk.gaugedTo.trans {k k' k'' : Trunk} (h : k.gaugedTo k') (h' : k'.gaugedTo k'') : k.gaugedTo k'' := by
  unfold Trunk.gaugedTo at *
  rw [h', h]

/-- Burl but the uses of keys in progress and their serial number. -/
def Burl.usedTo (b b' : Burl) : Prop := b' = { b with uses := b'.uses, serial := b'.serial }

theorem Burl.usedTo.trans {b b' b'' : Burl} (h : b.usedTo b') (h' : b'.usedTo b'') : b.usedTo b'' := by
  unfold Burl.usedTo at *
  rw [h', h]

/-! ## Cells -/

theorem Dev.cellPressure_trunk (s : Dev) : s.trunk.gaugedTo s.cellPressure.trunk := by
  unfold Dev.cellPressure
  split
  · exact rfl
  · split <;> exact rfl

theorem Dev.descPressure_trunk (s : Dev) : s.trunk.gaugedTo s.descPressure.trunk := by
  unfold Dev.descPressure
  dsimp only
  split
  · exact rfl
  · split <;> exact rfl

theorem Dev.pressure_trunk (s : Dev) : s.trunk.gaugedTo s.pressure.trunk := s.cellPressure_trunk.trans s.cellPressure.descPressure_trunk

theorem Dev.pressure_changes (s : Dev) {w : List Nat} : Dev.changes [.trunk] w s s.pressure := by
  obtain ⟨parts, records⟩ := s.pressure_tells
  refine ⟨parts.mono (by simp), fun a _ => ?_, records.events⟩
  rw [Dev.reg, parts .regs (by decide), parts .variant (by decide)]
  rfl

theorem portReg_ne_trunkReg {n o o' : Nat} (hn : n < 36) (ho : o < 0x1000) : portReg n o ≠ trunkReg o' := by
  simp only [portReg, trunkReg]
  omega

/-- The gauges that cells taken for ingress port `p` move (R186). -/
abbrev cellGauges (p : Nat) : List Nat := [trunkReg 0, trunkReg (0x1008 + 0x20 * p)]

theorem Dev.takeCells_changes (s : Dev) (p k : Nat) : Dev.changes [.trunk] (cellGauges p) s (s.takeCells p k) :=
  ((s.setReg_changes _ _ (by simp)).trans (Dev.setReg_changes _ _ _ (by simp))).trans (Dev.pressure_changes _)

theorem Dev.takeCells_trunk (s : Dev) (p k : Nat) : s.trunk.gaugedTo (s.takeCells p k).trunk := Dev.pressure_trunk _

/-- Whether cells can be taken rests on the Trunk's registers, the banks lost and the chains that frames hold. -/
theorem Dev.canTake_congr {s t : Dev} (regs : ∀ o, t.reg (trunkReg o) = s.reg (trunkReg o)) (leaving : t.trunk.leaving = s.trunk.leaving)
    (chains : t.chains = s.chains) (p k : Nat) : t.canTake p k = s.canTake p k := by
  have fields : ∀ o, t.rf (trunkReg o) 16 0 = s.rf (trunkReg o) 16 0 := fun o => congrArg (fld · 16 0) (regs o)
  have free : t.freeCells = s.freeCells := fields 0
  have used : t.usedCells = s.usedCells := funext fun _ => fields _
  have reserved : t.rsv = s.rsv := funext fun _ => fields _
  have live : t.liveIn = s.liveIn := by funext place; rw [Dev.liveIn, chains, Dev.liveIn]
  have idle : t.idleLost = s.idleLost := by rw [Dev.idleLost, leaving, live, Dev.idleLost]
  have shared : t.sharedFree = s.sharedFree := by rw [Dev.sharedFree, free, used, reserved, Dev.sharedFree]
  unfold Dev.canTake
  rw [free, used, reserved, idle, shared, fields]

/-! ## The key of a frame in reassembly -/

theorem Dev.withBurl_keeps (s : Dev) (b : Burl) : s.keeps [.burl] { s with burl := b } := by
  intro p hp
  cases p with
  | burl => exact absurd (List.mem_singleton_self _) hp
  | _ => rfl

/-- Deciding a frame begins the use of a key, or changes nothing (R359). -/
theorem Dev.secOpen_state (s : Dev) (p no : Nat) (o : List Byte) : (s.secOpen p no o).2 = s ∨
    ∃ slot sa, (s.secOpen p no o).2 = s.beginUse (.rx no) slot sa := by
  unfold Dev.secOpen
  extract_lets et tci pnLow rx channel
  clear_value channel
  split
  · exact .inl rfl
  · split
    · exact .inl rfl
    · split
      · exact .inl rfl
      · split
        · exact .inl rfl
        · split
          · exact .inl rfl
          · split
            · exact .inl rfl
            · extract_lets hi pn
              split
              · exact .inl rfl
              · split
                · exact .inl rfl
                · exact .inr ⟨_, _, rfl⟩

theorem Dev.openReasm_state (s : Dev) (n : Nat) (r : Reasm) :
    ∃ b, (s.openReasm n r).2 = { s with burl := b } ∧ s.burl.usedTo b := by
  unfold Dev.openReasm
  split
  · exact ⟨s.burl, rfl, rfl⟩
  · rcases s.secOpen_state n r.no r.octets with same | ⟨slot, sa, begun⟩
    · exact ⟨s.burl, same, rfl⟩
    · exact ⟨_, begun, rfl⟩

theorem Dev.openReasm_frame (s : Dev) (n : Nat) (r : Reasm) : ∃ sec, (s.openReasm n r).1 = { r with sec := sec } := by
  unfold Dev.openReasm
  split
  · exact ⟨r.sec, rfl⟩
  · exact ⟨_, rfl⟩

/-! ## A frame in reassembly grows -/

/-- What the statement tells of a frame in reassembly: its octets, its counts, its stamp and the cells it holds. -/
def Reasm.shape (r : Reasm) : List Byte × Nat × Nat × Nat × Nat × Bool := (r.octets, r.count, r.next, r.stamp, r.cells, r.dropped)

/-- The frame `r` in reassembly on port `n` has taken the cells its octets need. -/
structure Dev.grown (n : Nat) (r : Reasm) (s t : Dev) : Prop where
  reasm : (t.port n).reasm.map Reasm.shape =
    some (r.octets, r.count, r.next, r.stamp, r.cells + (cellsOf r.octets.length - r.cells), false)
  frame : Dev.changes [.ports, .trunk, .burl] (cellGauges n) s t
  trunk : s.trunk.gaugedTo t.trunk
  burl : s.burl.usedTo t.burl

theorem Dev.growReasm_grows {s : Dev} {n : Nat} {r : Reasm} (followed : r.dropped = false)
    (short : r.octets.length ≤ s.rf (portReg n 0) 15 0) (room : s.canTake n (cellsOf r.octets.length - r.cells) = true) :
    Dev.grown n r s (s.growReasm n r) := by
  have grows : s.growReasm n r = ((s.newRun (cellsOf r.octets.length - r.cells)).2.setPort n
      { s.port n with reasm := some { r with
        cells := r.cells + (cellsOf r.octets.length - r.cells)
        chain := r.chain ++ [(s.newRun (cellsOf r.octets.length - r.cells)).1] } }).takeCells n (cellsOf r.octets.length - r.cells) := by
    unfold Dev.growReasm
    dsimp only
    rw [if_neg (by rw [followed]; decide), if_neg (Nat.not_lt.mpr short), if_pos room]
    rfl
  rw [grows]
  have run : Dev.changes [.ports, .trunk, .burl] (cellGauges n) s (s.newRun (cellsOf r.octets.length - r.cells)).2 :=
    .of_keeps ((s.withTrunk_keeps _).mono (by simp)) rfl rfl
  have took := Dev.takeCells_changes
  refine ⟨?_, ?_, ?_, ?_⟩
  · rw [(took _ n _).port (by decide), Dev.port_setPort_same, ← followed]
    rfl
  · exact (run.trans (Dev.setPort_changes _ _ _ (by simp))).trans ((took _ n _).mono (by simp) (List.Subset.refl _))
  · exact Trunk.gaugedTo.trans (k' := { s.trunk with nextChain := s.trunk.nextChain + 1 }) rfl (Dev.takeCells_trunk _ n _)
  · rw [Burl.usedTo, (took _ n _).part (p := .burl) (by decide)]
    rfl

/-- A frame in reassembly with the octets of one more fragment. -/
def Reasm.extended (r : Reasm) (o : List Byte) : Reasm := { r with octets := r.octets ++ o }

/-- A fragment that is intact and not the last joins the frame `r` in reassembly, with its cells. -/
theorem Dev.addFragment_grows {s : Dev} {n : Nat} {r : Reasm} {f : Fragment} (more : f.final = false) (intact : f.crcOk = true)
    (followed : r.dropped = false) (short : r.octets.length + f.octets.length ≤ s.rf (portReg n 0) 15 0)
    (room : s.canTake n (cellsOf (r.octets.length + f.octets.length) - r.cells) = true) :
    Dev.grown n (r.extended f.octets) s (s.addFragment n r f) := by
  rw [← List.length_append] at short room
  obtain ⟨b, state, used⟩ := s.openReasm_state n (r.extended f.octets)
  obtain ⟨sec, frame⟩ := s.openReasm_frame n (r.extended f.octets)
  have adds : s.addFragment n r f = ({ s with burl := b } : Dev).growReasm n { r.extended f.octets with sec := sec } := by
    rw [← state, ← frame]
    unfold Dev.addFragment
    dsimp only
    rw [if_neg (by rw [intact]; decide), if_neg (by rw [more]; decide)]
    rfl
  obtain ⟨reasm, grew, trunk, burl⟩ :=
    Dev.growReasm_grows (s := { s with burl := b }) (n := n) (r := { r.extended f.octets with sec := sec }) followed short room
  rw [adds]
  have keyed : Dev.changes [.ports, .trunk, .burl] (cellGauges n) s { s with burl := b } :=
    .of_keeps ((s.withBurl_keeps b).mono (by simp)) rfl rfl
  exact ⟨reasm, keyed.trans grew, trunk, used.trans burl⟩

/-! ## The fragments of the statement -/

/-- A fragment that brings a frame in reassembly to `r` is counted (R98), and grows it. -/
theorem Dev.grown.counted {s x t : Dev} {n : Nat} {r : Reasm} (h : Dev.grown n r x t)
    (started : Dev.changes [.trunk] [] (s.count (portReg n 0x140)) x) (trunk : s.trunk.gaugedTo x.trunk) (hn : n < 36) :
    t.reg (portReg n 0x140) = satAdd (s.reg (portReg n 0x140)) 1 ∧
      Dev.changes [.ports, .trunk, .burl] [portReg n 0x140, trunkReg 0, trunkReg (0x1008 + 0x20 * n)] s t ∧
      s.trunk.gaugedTo t.trunk ∧ s.burl.usedTo t.burl := by
  have before : Dev.changes [.trunk] [portReg n 0x140] s x :=
    (s.setReg_changes _ _ (by simp)).trans (started.mono (by simp) (by simp))
  refine ⟨?_, (before.mono (by simp) (by simp)).trans (h.frame.mono (by simp) (by simp)), trunk.trans h.trunk, ?_⟩
  · have apart : portReg n 0x140 ∉ cellGauges n :=
      List.not_mem_cons_of_ne_of_not_mem (portReg_ne_trunkReg hn (by decide))
        (List.not_mem_cons_of_ne_of_not_mem (portReg_ne_trunkReg hn (by decide)) List.not_mem_nil)
    rw [h.frame.regs _ apart, started.regs _ (by simp), Dev.reg_count, if_pos rfl]
  · have same : x.burl = s.burl := before.part (p := .burl) (by decide)
    exact same ▸ h.burl

/-- A port with cells to take has them after a fragment is counted, and the next number of a run is taken. -/
theorem Dev.canTake_counted {s : Dev} {n : Nat} (hn : n < 36) (k : Trunk) (leaving : k.leaving = s.trunk.leaving)
    (frames : k.frames = s.trunk.frames) (m : Nat) :
    ({ s.count (portReg n 0x140) with trunk := k } : Dev).canTake n m = s.canTake n m := by
  refine Dev.canTake_congr (s := s) (t := { s.count (portReg n 0x140) with trunk := k })
    (fun o => s.reg_setReg_ne _ (portReg_ne_trunkReg hn (by decide)).symm) leaving ?_ n m
  unfold Dev.chains
  dsimp only
  rw [frames]
  rfl

/-! ## The statement -/

/-- Settles O17, command by command: PREEMPT_VERIFY_TIMER, PREEMPT_VERIFY_RESPONSE, and PREEMPT_FRAGMENT_RX by the kind of fragment. -/
theorem preemptionVerifies : Obligations.PreemptionVerifies := by
  unfold Obligations.PreemptionVerifies
  refine ⟨?_, ?_, ?_, ?_, ?_, ?_, ?_, ?_, ?_, ?_⟩
  · -- PREEMPT_VERIFY_TIMER with fewer than three sent
    intro s n hr preempts verifying passed few
    refine .of_onDev (f := fun x => x.verifyTimer n.val) rfl hr ?_
    rw [Dev.verifyTimer_of_passed preempts verifying passed, if_pos few]
    exact ⟨rfl, Dev.port_setPort_same _ _ _, s.dev.sendVerify_keeps _ _, rfl, rfl⟩
  · -- PREEMPT_VERIFY_TIMER after the third
    intro s n hr preempts verifying passed spent
    refine .of_onDev (f := fun x => x.verifyTimer n.val) rfl hr ?_
    rw [Dev.verifyTimer_of_passed preempts verifying passed, if_neg (Nat.not_lt.mpr spent)]
    refine ⟨?_, ?_, ((Dev.verifyEnters_changes preempts).trans (Dev.raiseRated_changes _ _ _ _ _ _ _ _ _)).ofState⟩
    · dsimp only
      rw [Dev.raiseRated_rf, Dev.verifyEnters_state preempts (by decide)]
    · dsimp only
      rw [Dev.raiseRated_rb, Dev.verifyEnters_active preempts (by decide), show decide ((4 : Nat) = 3) = false from rfl, Bool.or_false]
  · -- PREEMPT_VERIFY_TIMER before VERIFY_TIME has passed
    intro s n hr preempts verifying early
    refine .of_onDev (f := fun x => x.verifyTimer n.val) rfl hr ?_
    rw [Dev.verifyTimer_of_early early]
  · -- PREEMPT_VERIFY_RESPONSE while verifying
    intro s n hr present power up quiet preempts on verifying
    refine .of_onDev (f := fun x => x.verifyResponse n.val) rfl hr ?_
    rw [Dev.verifyResponse_of_verifying present power up quiet preempts on verifying]
    refine ⟨Dev.verifyEnters_state preempts (by decide), ?_, ⟨Dev.verifyEnters_keeps preempts, rfl, rfl⟩,
      (Dev.verifyEnters_changes (l := []) preempts).regs⟩
    have link : s.dev.portLink n.val = 2 := of_decide_eq_true (Bool.and_eq_true_iff.mp up).2
    rw [Dev.verifyEnters_active preempts (by decide), link]
    simp
  · -- PREEMPT_VERIFY_RESPONSE with reassembly off
    intro s n hr present power up quiet preempts off
    refine .of_onDev (f := fun x => x.verifyResponse n.val) rfl hr ?_
    rw [Dev.verifyResponse_of_off present power up quiet off]
    exact ⟨s.dev.reg_setReg_same _ _, ⟨s.dev.setReg_keeps _ _, rfl, rfl⟩, (s.dev.setReg_changes (l := []) _ _ (by simp)).regs⟩
  · -- a verify mPacket
    intro s n frag hr present power up quiet preempts on smd
    refine .of_onDev (f := fun x => x.fragment n.val frag) rfl hr ?_
    rw [Dev.fragment_of_verify present power up quiet preempts on smd]
    exact ⟨rfl, s.dev.withOut_keeps _, rfl, rfl⟩
  · -- a fragment with reassembly off
    intro s n frag hr present power up quiet preempts off
    refine .of_onDev (f := fun x => x.fragment n.val frag) rfl hr ?_
    rw [Dev.fragment_of_off present power up quiet off]
    exact ⟨s.dev.reg_setReg_same _ _, ⟨s.dev.setReg_keeps _ _, rfl, rfl⟩, (s.dev.setReg_changes (l := []) _ _ (by simp)).regs⟩
  · -- the first fragment of a frame
    intro s n frag k hr present power up quiet preempts on smd more intact free short room
    refine .of_onDev (f := fun x => x.fragment n.val frag) rfl hr ?_
    rw [Dev.fragment_of_start present power up quiet preempts on smd free]
    have maxLen : (s.dev.count (portReg n.val 0x140)).rf (portReg n.val 0) 15 0 = s.dev.rf (portReg n.val 0) 15 0 :=
      s.dev.rf_setReg_ne _ _ _ (portReg_ne (by decide))
    have grown := Dev.addFragment_grows (s := (s.dev.count (portReg n.val 0x140)).newChain.2) (n := n.val)
      (r := ⟨[], k.val, 0, s.dev.fragStamp n.val frag, 0, [], s.dev.trunk.nextChain, none, false⟩) more intact rfl
      (by rw [List.length_nil, Nat.zero_add]; exact Nat.le_trans short (Nat.le_of_eq maxLen.symm)) (by
        refine (Dev.canTake_counted n.isLt _ rfl rfl _).trans ?_
        simpa using room)
    obtain ⟨counted, frame, trunk, burl⟩ := grown.counted (.of_keeps (Dev.withTrunk_keeps _ _) rfl rfl) rfl n.isLt
    refine ⟨grown.reasm.trans ?_, counted, frame.ofState, trunk, burl⟩
    simp [Reasm.extended, Dev.fragStamp]
  · -- a fragment that continues the frame in reassembly
    intro s n frag k r hr present power up quiet preempts on smd held count next followed more intact short room
    refine .of_onDev (f := fun x => x.fragment n.val frag) rfl hr ?_
    rw [Dev.fragment_of_cont present power up quiet preempts on smd held count next]
    have maxLen : (s.dev.count (portReg n.val 0x140)).rf (portReg n.val 0) 15 0 = s.dev.rf (portReg n.val 0) 15 0 :=
      s.dev.rf_setReg_ne _ _ _ (portReg_ne (by decide))
    have grown := Dev.addFragment_grows (s := s.dev.count (portReg n.val 0x140)) (n := n.val)
      (r := { r with next := (r.next + 1) % 4 }) more intact followed (Nat.le_trans short (Nat.le_of_eq maxLen.symm))
      ((Dev.canTake_counted n.isLt s.dev.trunk rfl rfl _).trans room)
    obtain ⟨counted, frame, trunk, burl⟩ := grown.counted (.refl _) rfl n.isLt
    refine ⟨grown.reasm.trans ?_, counted, frame.ofState, trunk, burl⟩
    simp [Reasm.extended]
  · -- a fragment with no frame in reassembly
    intro s n frag k hr present power up quiet preempts on smd free
    refine .of_onDev (f := fun x => x.fragment n.val frag) rfl hr ?_
    rw [Dev.fragment_of_lone_cont present power up quiet preempts on smd free]
    refine ⟨?_, ?_, (((s.dev.setReg_changes _ _ (by simp)).trans (Dev.setReg_changes _ _ _ (by simp))).trans
      (Dev.raiseRated_changes _ _ _ _ _ _ _ _ _)).ofState⟩
    · dsimp only
      rw [Dev.raiseRated_reg, Dev.reg_count, if_neg (portReg_ne (by decide)), Dev.reg_count, if_pos rfl]
    · dsimp only
      rw [Dev.raiseRated_reg, Dev.reg_count, if_pos rfl, Dev.reg_count, if_neg (portReg_ne (by decide))]

end Sys2Proof.Machine
end

section
/-! SUPPORT. The refutation of `RuleVersionsCommit`. -/
namespace Sys2Proof.Machine

/-- A COMMIT on ring 1 of host port 0, of words 17 to 33 with the header at word 17. -/
def firstCommit : CmdDesc := ⟨0, 1, 0x02FF10, 17, 0x1100000011, 0, 0, 0, false, false⟩

/-- A COMMIT on ring 0 of host port 0, of words 0 to 16 with the header at word 0. -/
def secondCommit : CmdDesc := ⟨0, 0, 0x02FF10, 0, 0x1100000000, 0, 0, 0, false, false⟩

/-- An active CMD ring of 64 entries with one entry for the device. -/
def Basjo.withCommand (b : Basjo) (h r : Nat) : Basjo :=
  ((b.setReg (ringReg h r 0x10) 0x80060003).setReg (ringReg h r 0x14) 1).setReg (ringReg h r 0x1C) 0x10

/-- The first COMMIT runs with the token for slot 0, and cycle T has come; the header of the second stands in Bough memory. -/
def firstRuns : State := { State.reset with dev := { State.reset.dev.setWord (boughAddr 0) 0xF000000000000000 with
  basjo := ((((State.reset.dev.basjo.setReg (hostReg 0 0) 1).withCommand 0 0).withCommand 0 1).setRing 0 1
    { RingRun.idle with running := some ⟨firstCommit, 2, 0⟩ })
  cam := { State.reset.dev.cam with raw := 64 * 256 }
  groves := { State.reset.dev.groves with commit := some ⟨firstCommit, 17, 17, 17, 0, 0, 0, some (0, 64)⟩ } } }

/-- The main die after the row COMMIT with the second COMMIT. -/
def Dev.secondCommitRow (s : Dev) : Dev :=
  s.groveCommand secondCommit 0xFF 2 [0xFFFFF, 0x1FFFFF000FFFFF, 0xFFFFFFFF, 0xFFFFFFFF, 0] (·.commitCmd secondCommit) (some kRuleVersion)

theorem exec_secondCommit (s : State) (hr : s.dev.runs = true) :
    exec (.commit secondCommit) s = .next { s with dev := s.dev.secondCommitRow } := s.onDev_runs Dev.secondCommitRow hr

/-- The second COMMIT has met the first at their unit, and waits (R67). -/
def secondWaits : State := { firstRuns with dev := firstRuns.dev.secondCommitRow }

theorem exec_secondCommit_firstRuns : exec (.commit secondCommit) firstRuns = .next secondWaits :=
  exec_secondCommit firstRuns (by decide)

/-- The first COMMIT has taken effect and completed (R140), and the unit is free. -/
def firstDone : State := { secondWaits with dev := secondWaits.dev.commitToken }

theorem exec_commitToken_secondWaits : exec .commitToken secondWaits = .next firstDone :=
  secondWaits.onDev_runs Dev.commitToken (by decide)

set_option maxRecDepth 8000 in
/-- The second COMMIT may start now. -/
theorem firstDone_starts :
    firstDone.starts secondCommit 0x10 0xFF 2 [0xFFFFF, 0x1FFFFF000FFFFF, 0xFFFFFFFF, 0xFFFFFFFF, 0] = true := by decide

/-- Its ring still holds it as the command that waits. -/
theorem firstDone_waits : (firstDone.dev.basjo.ring 0 0).waiting.isSome = true := by decide

set_option maxRecDepth 8000 in
/-- Once it has started it waits no more. -/
theorem firstDone_secondCommitRow_waits : (firstDone.dev.secondCommitRow.basjo.ring 0 0).waiting.isSome = false := by decide

/-- Refutes O22: the clause on a COMMIT that runs on has its ring change in the command that runs and in nothing else, and the model
also ends its wait there. A COMMIT on ring 0 arrives while one on ring 1 runs, and waits for the unit (R67); the first takes effect
(R140), the second starts, and ring 0, which held it as the command that waits, holds none. -/
theorem not_ruleVersionsCommit : ¬ Obligations.RuleVersionsCommit := by
  unfold Obligations.RuleVersionsCommit
  rintro ⟨-, -, runsOn, -⟩
  obtain ⟨t, ht, -, hbasjo, -⟩ := runsOn firstDone secondCommit 1 firstDone_starts (by decide) (by decide) (by decide) (by decide)
    (by decide) (by decide)
  injection (exec_secondCommit firstDone (by decide)).symm.trans ht with htarget
  subst htarget
  have hwaits : (firstDone.dev.secondCommitRow.basjo.ring 0 0).waiting = (firstDone.dev.basjo.ring 0 0).waiting :=
    (congrArg (fun b => (b.ring 0 0).waiting) hbasjo).trans (congrArg RingRun.waiting (Basjo.setRing_ring_same _ 0 0 _))
  have ended := firstDone_secondCommitRow_waits
  rw [hwaits, firstDone_waits] at ended
  exact absurd ended (by decide)

end Sys2Proof.Machine
end

section
/-! SUPPORT. A write that goes through, as a step of the main die: what it changes before its own effect, and what a refused one changes. -/
namespace Sys2Proof.Machine

/-- What stands when a write reaches the register it names: it is logged (R536), and is demand for the unit (R503). -/
def Dev.accepted (s : Dev) (a : Acc) (addr : Nat) (old new : List Byte) : Dev :=
  (s.log a.origin kRegister (unitOf addr).1 (unitOf addr).2 0 addr old new).demand (unitOf addr).1 (unitOf addr).2

theorem Dev.accepted_changes (s : Dev) (a : Acc) (addr : Nat) (old new : List Byte) :
    Dev.changes [.audit, .clocks] [] s (s.accepted a addr old new) :=
  ⟨((s.log_keeps _ _ _ _ _ _ old new).mono (by simp)).trans ((Dev.demand_keeps _ _ _).mono (by simp)), fun _ _ => rfl,
    s.log_eventsOnly _ _ _ _ _ _ old new⟩

/-- The frame of a write that goes through, from the frame of its effect. -/
theorem State.writes_of_accepted {s : State} {a : Acc} {addr : Nat} {old new : List Byte} {l : List Part} {w : List Nat} {t : Dev}
    (hl : .clocks ∉ l) (effect : Dev.changes l w (s.dev.accepted a addr old new) t) : s.writes addr l w { s with dev := t } where
  frame :=
    have all : Dev.changes (.audit :: .clocks :: l) w s.dev t :=
      ((s.dev.accepted_changes a addr old new).mono (by simp) (by simp)).trans (effect.mono (by simp) (List.Subset.refl w))
    ⟨⟨all.parts, rfl, rfl⟩, all.regs, all.events⟩
  clocks := effect.part (p := .clocks) (by simpa using hl)

/-- A write of a field that goes through has its effect on what stands then. -/
theorem Completes.of_writeField {i : Instr} {s : State} {P : State → Prop} {a : Acc} {addr : Nat} {new : Word} {f : Dev → Dev}
    (meaning : exec i s = s.onDev (fun d => d.writeField a addr new f)) (opens : s.opens a addr = true)
    (hp : ∀ x y, P { s with dev := f (s.dev.accepted a addr x y) }) : Completes i s P := by
  obtain ⟨hr, ho⟩ := s.opens_runs a addr opens
  obtain ⟨x, y, written⟩ := Dev.writeField_of_opens s.dev a addr new f ho
  exact .of_onDev meaning hr (by rw [written]; exact hp x y)

/-- Of the registers, what a write meets before the one it names moves the count of accesses to unpowered units alone (R506). -/
theorem Dev.passAccess_reg (s : Dev) (a : Acc) (addr : Nat) (assigned cfg : Bool) (old new : List Byte) {r : Nat} (hr : r ≠ 0x54) :
    (s.passAccess a addr assigned cfg old new).1.reg r = s.reg r := by
  unfold Dev.passAccess
  split
  · rfl
  · dsimp only
    split
    · rfl
    · split
      · exact Dev.denied_reg ..
      · split
        · rfl
        · split
          · exact (s.reg_count _ _ _).trans (if_neg hr)
          · rfl

/-- A write of a field ends where it is refused, or has its effect; either way no register has moved before but that count. -/
theorem Dev.writeField_cases (s : Dev) (a : Acc) (addr : Nat) (new : Word) (f : Dev → Dev) :
    ∃ d : Dev, (∀ r, r ≠ 0x54 → d.reg r = s.reg r) ∧ (s.writeField a addr new f = d ∨ s.writeField a addr new f = f d) := by
  have kept := fun old new r (hr : r ≠ 0x54) => s.passAccess_reg a addr true true old new hr
  unfold Dev.writeField
  dsimp only
  split
  all_goals
    split
    · exact ⟨_, kept _ _, .inl rfl⟩
    · refine ⟨_, fun r hr => ?_, .inr rfl⟩
      exact kept _ _ r hr

end Sys2Proof.Machine
end

section
/-! SUPPORT. The reservations of the ingress ports (R187), and the statement on them. -/
namespace Sys2Proof.Machine

/-! ## Sums of reservations -/

/-- The sum of all RSV, and the sum of those of the other ports. -/
def Dev.rsvTotal (s : Dev) : Nat := rsvPorts.foldl (fun x k => x + s.rsv k) 0
def Dev.rsvOthers (s : Dev) (p : Nat) : Nat := rsvPorts.foldl (fun x k => if k = p then x else x + s.rsv k) 0

/-- A sum over a list without repetition is the sum over the others, and the summand of the one. -/
theorem foldl_add_eq_others (f : Nat → Nat) (p : Nat) (l : List Nat) (a : Nat) (nodup : l.Nodup) (hp : p ∈ l) :
    l.foldl (fun x k => x + f k) a = l.foldl (fun x k => if k = p then x else x + f k) a + f p := by
  induction l generalizing a with
  | nil => exact absurd hp List.not_mem_nil
  | cons k r ih =>
    obtain ⟨hk, hr⟩ := List.nodup_cons.mp nodup
    by_cases e : k = p
    · subst e
      have others : r.foldl (fun x j => if j = k then x else x + f j) a = r.foldl (fun x j => x + f j) a :=
        List.foldl_rel (r := Eq) rfl (fun j hj x y e => e ▸ if_neg (fun h : j = k => hk (h ▸ hj)))
      have shift : r.foldl (fun x j => x + f j) (a + f k) = r.foldl (fun x j => x + f j) a + f k :=
        List.foldl_hom (· + f k) (fun x j => Nat.add_right_comm x (f k) (f j))
      simp [others, shift]
    · have rest := ih (a + f k) hr ((List.mem_cons.mp hp).resolve_left (fun h => e h.symm))
      simpa [e] using rest

theorem Dev.rsvTotal_eq (s : Dev) (p : Fin 40) : s.rsvTotal = s.rsvOthers p.val + s.rsv p.val :=
  foldl_add_eq_others s.rsv p.val rsvPorts 0 List.nodup_range (List.mem_range.mpr p.isLt)

theorem Dev.rsvTotal_congr {s t : Dev} (h : ∀ k, t.rsv k = s.rsv k) : t.rsvTotal = s.rsvTotal := by
  simp only [Dev.rsvTotal, h]

theorem Dev.rsvOthers_congr {s t : Dev} {p : Nat} (h : ∀ k, k ≠ p → t.rsv k = s.rsv k) : t.rsvOthers p = s.rsvOthers p := by
  have summand : (fun x k => if k = p then x else x + t.rsv k) = fun x k => if k = p then x else x + s.rsv k := by
    funext x k
    by_cases e : k = p
    · rw [if_pos e, if_pos e]
    · rw [if_neg e, if_neg e, h k e]
  rw [Dev.rsvOthers, summand, Dev.rsvOthers]

/-! ## The write of a reservation -/

/-- RSV[p]. -/
abbrev rsvReg (p : Nat) : Nat := trunkReg (0x1000 + 0x20 * p)

theorem Dev.rsvWrite_of_fits (s : Dev) (p v : Nat) (fits : s.rsvOthers p + v ≤ 49152) : s.rsvWrite p v = s.setRf (rsvReg p) 16 0 v :=
  if_neg (Nat.not_lt.mpr fits)

theorem Dev.rsvWrite_of_exceeds (s : Dev) (p v : Nat) (exceeds : 49152 < s.rsvOthers p + v) :
    s.rsvWrite p v = s.setRb (trunkReg 0xC) 0 true :=
  if_pos exceeds

theorem Dev.rsv_setRf_same (s : Dev) (p v : Nat) : (s.setRf (rsvReg p) 16 0 v).rsv p = v % 2 ^ 17 :=
  s.rf_setRf_same _ 16 0 v (by decide)

theorem Dev.rsv_setRf_ne (s : Dev) (v : Nat) {p k : Nat} (hk : k ≠ p) : (s.setRf (rsvReg p) 16 0 v).rsv k = s.rsv k :=
  s.rf_setRf_out _ 16 0 v _ 16 0 (by decide) (.inl (by simp only [rsvReg, trunkReg]; omega))

theorem Dev.rsv_setErr (s : Dev) (k : Nat) : (s.setRb (trunkReg 0xC) 0 true).rsv k = s.rsv k :=
  s.rf_setRb_out _ 0 true _ 16 0 (by decide) (.inl (by simp only [trunkReg]; omega))

/-- A write of a reservation keeps the sum within the buffer: the one it stores fits, and one it ignores leaves the sum. -/
theorem Dev.rsvWrite_total (s : Dev) (p : Fin 40) (v : Nat) (within : s.rsvTotal ≤ 49152) : (s.rsvWrite p.val v).rsvTotal ≤ 49152 := by
  by_cases fits : s.rsvOthers p.val + v ≤ 49152
  · rw [s.rsvWrite_of_fits p.val v fits, Dev.rsvTotal_eq _ p, Dev.rsvOthers_congr (fun _ hk => s.rsv_setRf_ne v hk), s.rsv_setRf_same]
    exact Nat.le_trans (Nat.add_le_add_left (Nat.mod_le v _) _) fits
  · rw [s.rsvWrite_of_exceeds p.val v (Nat.lt_of_not_le fits), Dev.rsvTotal_congr s.rsv_setErr]
    exact within

/-- The meaning of RSV_WRITE on the main die. -/
def Dev.rsvWriteRow (s : Dev) (a : Acc) (p : Fin 40) (value : Word) : Dev :=
  s.writeField a (rsvReg p.val) (value &&& 0x1FFFF) (fun d => d.rsvWrite p.val (fld value 16 0))

/-- Accepted or refused, the write keeps the sum: a refused one moves no reservation. -/
theorem Dev.rsvWriteRow_total (s : Dev) (a : Acc) (p : Fin 40) (value : Word) (within : s.rsvTotal ≤ 49152) :
    (s.rsvWriteRow a p value).rsvTotal ≤ 49152 := by
  obtain ⟨d, regs, ends⟩ := s.writeField_cases a (rsvReg p.val) (value &&& 0x1FFFF) (fun d => d.rsvWrite p.val (fld value 16 0))
  have before : d.rsvTotal ≤ 49152 := by
    rwa [Dev.rsvTotal_congr (s := s) (fun k => congrArg (fld · 16 0) (regs _ (by simp only [trunkReg]; omega)))]
  rcases ends with refused | accepted
  · rw [Dev.rsvWriteRow, refused]; exact before
  · rw [Dev.rsvWriteRow, accepted]; exact d.rsvWrite_total p _ before

theorem exec_rsvWrite (s : State) (a : Acc) (p : Fin 40) (value : Word) :
    exec (.rsvWrite a p value) s = s.onDev (fun d => d.rsvWriteRow a p value) := rfl

/-- Settles O59: what the write finds, and what it leaves, are the reservations of the state before; the sum splits into the
reservation written and the others. -/
theorem reservationsStayWithinTheBuffer : Obligations.ReservationsStayWithinTheBuffer := by
  unfold Obligations.ReservationsStayWithinTheBuffer
  refine ⟨fun s a p value opens fits => ?_, fun s a p value opens exceeds => ?_, fun s t a p value within ran => ?_⟩
  · refine .of_writeField (exec_rsvWrite s a p value) opens (fun x y => ?_)
    dsimp only
    rw [Dev.rsvWrite_of_fits (s.dev.accepted a _ x y) p.val _ fits]
    refine ⟨?_, State.writes_of_accepted (by simp) (Dev.setReg_changes _ _ _ (by simp))⟩
    exact (Dev.rsv_setRf_same _ _ _).trans (Nat.mod_eq_of_lt (Nat.mod_lt _ (by decide)))
  · refine .of_writeField (exec_rsvWrite s a p value) opens (fun x y => ?_)
    dsimp only
    rw [Dev.rsvWrite_of_exceeds (s.dev.accepted a _ x y) p.val _ exceeds]
    exact ⟨Dev.rsv_setErr _ _, Dev.rb_setRb_same _ _ _ _ (by decide),
      State.writes_of_accepted (by simp) (Dev.setReg_changes _ _ _ (by simp))⟩
  · rw [exec_rsvWrite] at ran
    by_cases runs : s.dev.runs = true
    · rw [s.onDev_runs _ runs] at ran
      injection ran with ran
      subst ran
      exact s.dev.rsvWriteRow_total a p value within
    · rw [s.onDev_stopped _ (by simpa using runs)] at ran
      injection ran with ran
      subst ran
      exact within

end Sys2Proof.Machine
end

section
/-! SUPPORT. The refutation of `BuffersAndMemories`. -/
namespace Sys2Proof.Machine

/-- A training that succeeds puts the capacity in XMEM_SIZE, a field of 14 bits. -/
theorem Dev.xmemInitDone_size (s : Dev) (en : s.rb (trunkReg 0x8000) 31 = true) (init : s.rf (trunkReg 0x8004) 1 0 = 1) :
    (s.xmemInitDone true).rf (trunkReg 0x8008) 13 0 = s.xmemCapacity % 2 ^ 14 := by
  have due : (!(s.rb (trunkReg 0x8000) 31 && decide (s.rf (trunkReg 0x8004) 1 0 = 1))) = false := by rw [en, init]; rfl
  unfold Dev.xmemInitDone
  rw [if_neg (by rw [due]; decide), if_pos rfl]
  exact (Dev.rf_setReg_ne _ _ 13 0 (by decide)).trans (Dev.rf_setRf_same _ _ 13 0 _ (by decide))

theorem exec_xmemInitDone (s : State) (ok : Bool) (runs : s.dev.runs = true) :
    exec (.xmemInitDone ok) s = .next { s with dev := s.dev.xmemInitDone ok } :=
  s.onDev_runs (·.xmemInitDone ok) runs

/-- External memory initialises with RANKS 1 and DENSITY 4 in XMEM_CTL: two ranks of dies of 4 GiB on two channels. -/
def sixteenGib : State := { State.reset with dev :=
  (State.reset.dev.setReg (trunkReg 0x8000) 0x80000041).setReg (trunkReg 0x8004) 1 }

theorem sixteenGib_capacity : sixteenGib.dev.xmemCapacity = 2 ^ 14 := by decide

/-- Refutes O25: the clause on a training that succeeds has XMEM_SIZE take the capacity of XMEM_CTL, and does not ask that it be one
of the 2 to 8 GiB with which EN rises (R199). At 16 GiB, which XMEM_CTL can spell, the 14 bits of the field read 0. -/
theorem not_buffersAndMemories : ¬ Obligations.BuffersAndMemories := by
  unfold Obligations.BuffersAndMemories
  rintro ⟨-, -, -, -, trained, -⟩
  have en : sixteenGib.dev.rb (trunkReg 0x8000) 31 = true := by decide
  have init : sixteenGib.dev.rf (trunkReg 0x8004) 1 0 = 1 := by decide
  obtain ⟨t, ht, -, -, size, -⟩ := trained sixteenGib (by decide) en init
  injection (exec_xmemInitDone sixteenGib true (by decide)).symm.trans ht with htarget
  subst htarget
  have found := sixteenGib.dev.xmemInitDone_size en init
  rw [sixteenGib_capacity] at found size
  exact absurd (found.symm.trans size) (by decide)

end Sys2Proof.Machine
end

section
/-! SUPPORT. The refutation of `FramesSpillAndFill`. -/
namespace Sys2Proof.Machine

/-- A frame of stream 0 in one cell, held for an ingress port 1,921. R186's run of registers, carried on past its 40 ports, would have
USED of that port at the count of stale frames of queue 0. -/
def straySource : Stored := { shortFrame with inPort := 0x781, stream := some 0 }

/-- The descriptor of that frame, at the head of queue 0. -/
def strayHead : Desc := ⟨0, 1, 0, .chip, false, 0⟩

/-- That frame heads queue 0, stale under a deadline of one tick (R212, R213), after five stale frames of the queue have been dropped. -/
def strayWaits : State := { State.reset with dev :=
  { (State.reset.dev.setReg (queueReg 0 0x28) 5).setWord (streamAddr 0) 0x8000000000000001 with
    cam := { State.reset.dev.cam with raw := 10000 }
    trunk := { State.reset.dev.trunk with frames := [(1, some straySource)], queues := [(0, ⟨[strayHead], none⟩)] } } }

theorem exec_staleScan (s : State) (runs : s.dev.runs = true) : exec .staleScan s = .next { s with dev := s.dev.staleScan } :=
  s.onDev_runs (·.staleScan) runs

/-- The cell the frame gives back is taken off the register that then counts the frame. -/
theorem strayWaits_count : strayWaits.dev.staleScan.reg (queueReg 0 0x28) = 5 := by decide

/-- Refutes O26: the clause on a scan that drops a stale head has the count of its queue move by one, and does not ask that the
frame's ingress port be one of the 40 (R186). The cells of a frame of port 1,921 return to a USED that lies on that count. -/
theorem not_framesSpillAndFill : ¬ Obligations.FramesSpillAndFill := by
  unfold Obligations.FramesSpillAndFill
  rintro ⟨-, -, -, -, -, -, -, -, -, -, dropped, -⟩
  obtain ⟨t, ht, -, count, -⟩ := dropped strayWaits 0 strayHead straySource (by decide) (by decide) (by decide) (by decide) (by decide)
    (by decide)
  injection (exec_staleScan strayWaits (by decide)).symm.trans ht with htarget
  subst htarget
  exact absurd (strayWaits_count.symm.trans count) (by decide)

end Sys2Proof.Machine
end

section
/-! SUPPORT. The refutation of `ShapersAndSamples`. -/
namespace Sys2Proof.Machine

/-- The octets of a sample as QSAMPLE_READ writes them (R248). -/
def QSample.written (x : QSample) : List Byte := leBytes 8 x.tick ++ leBytes 4 x.octets ++ leBytes 4 x.frames ++ leBytes 4 x.age ++ zeros 4

theorem QSample.written_length (x : QSample) : x.written.length = 24 := by simp [QSample.written, zeros]

/-- Octet `j` of sample `i` of a history of equal samples. -/
theorem QSample.getD_flatMap_written (x : QSample) (n i j : Nat) (hi : i < n) (hj : j < 24) :
    ((List.replicate n x).flatMap QSample.written).getD (24 * i + j) 0 = x.written.getD j 0 := by
  induction n generalizing i with
  | zero => exact absurd hi (Nat.not_lt_zero _)
  | succ n ih =>
    rw [List.replicate_succ, List.flatMap_cons]
    cases i with
    | zero =>
      rw [Nat.mul_zero, Nat.zero_add, List.getD_eq_getElem?_getD, List.getElem?_append_left (by rwa [x.written_length]),
        ← List.getD_eq_getElem?_getD]
    | succ i =>
      rw [List.getD_eq_getElem?_getD, List.getElem?_append_right (by rw [x.written_length]; omega), x.written_length,
        show 24 * (i + 1) + j - 24 = 24 * i + j by omega, ← List.getD_eq_getElem?_getD]
      exact ih i (by omega)

theorem QSample.flatMap_written_length (x : QSample) (n : Nat) : ((List.replicate n x).flatMap QSample.written).length = n * 24 := by
  simp [List.length_flatMap, x.written_length]

/-- A sample of an empty queue at tick 1. -/
def firstSample : QSample := ⟨1, 0, 0, 0⟩

theorem Dev.qhist_setHist_same (s : Dev) (q : Nat) (h : QHist) : (s.setHist q h).qhist q = h := Store.get_put_same _ _ _ _

/-- A CMD ring of host 0 with one entry for the device, and queue 0 of P0 with a history of 2^60 such samples: 24 octets of each are more
than the 2^64 octets that host memory can address. -/
def endlessHistory : State := { State.reset with dev :=
  (State.reset.dev.onBasjo fun b => (b.setReg (hostReg 0 0) 1).withCommand 0 0).setHist 0 (⟨List.replicate (2 ^ 60) firstSample, []⟩) }

/-- QSAMPLE_READ of queue 0 of P0 to host address 0x1000. -/
def endlessRead : CmdDesc := ⟨0, 0, 0x010021, 0x1000, 0, 0, 0, 0, false, false⟩

set_option maxRecDepth 8000 in
theorem endlessHistory_starts : endlessHistory.starts endlessRead 0x21 (0 : Fin 38).val 1 [all64, 0x1F, 0, 0, 0] = true := by decide

theorem endlessHistory_last : (endlessHistory.dev.qhist (queueOf (0 : Fin 38).val (fld endlessRead.p16 4 0))).last.reverse =
    List.replicate (2 ^ 60) firstSample := by
  have held : endlessHistory.dev.qhist 0 = ⟨List.replicate (2 ^ 60) firstSample, []⟩ := Dev.qhist_setHist_same _ _ _
  exact (congrArg (fun h => h.last.reverse) held).trans List.reverse_replicate

set_option maxRecDepth 8000 in
theorem endlessHistory_eventByte (addr : Nat) : ¬ endlessHistory.dev.basjo.eventByte 0 addr := by
  have types : ∀ r : Fin 128, endlessHistory.dev.basjo.ringType 0 r.val ≠ 4 := by decide
  rintro ⟨r, hr, type, -⟩
  exact types ⟨r, hr⟩ type

theorem endlessHistory_clear : endlessHistory.dev.basjo.clear endlessRead 0x1000 := by
  have entry : endlessHistory.dev.basjo.entryAddr 0 0 64 (endlessHistory.dev.basjo.devIdx 0 0) = 0 := by decide
  have back : (endlessHistory.dev.basjo.reg (ringReg 0 0 8)).toNat + 2 ^ 32 * (endlessHistory.dev.basjo.reg (ringReg 0 0 0xC)).toNat = 0 := by
    decide
  intro k
  simp only [endlessRead, Fin.val_zero]
  rw [entry, back]
  omega

/-- The octets of that read, 2^64 apart, are written to the same address, and differ. -/
theorem endlessRead_octets_differ : ((List.replicate (2 ^ 60) firstSample).flatMap QSample.written).getD 0 0 ≠
    ((List.replicate (2 ^ 60) firstSample).flatMap QSample.written).getD (2 ^ 64) 0 := by
  rw [firstSample.getD_flatMap_written (2 ^ 60) 0 0 (by decide) (by decide),
    show 2 ^ 64 = 24 * 768614336404564650 + 16 from rfl, firstSample.getD_flatMap_written _ _ 16 (by decide) (by decide)]
  decide

/-- Refutes O21: the clause on QSAMPLE_READ has every octet of the samples stand in host memory, and does not ask that a queue hold at
most its last 64 (R247). A history of 2^60 samples has more octets than there are addresses: two that differ would stand at one. -/
theorem not_shapersAndSamples : ¬ Obligations.ShapersAndSamples := by
  unfold Obligations.ShapersAndSamples
  rintro ⟨-, -, -, -, -, -, -, read, -⟩
  obtain ⟨t, -, written, -, -⟩ := read endlessHistory endlessRead 0 endlessHistory_starts (by decide) (by decide)
  rw [endlessHistory_last] at written
  have stands : ∀ k < 2 ^ 60 * 24, (0x1000 + k) % 2 ^ 64 = 0x1000 → t.dev.basjo.octet 0 0x1000 =
      ((List.replicate (2 ^ 60) firstSample).flatMap QSample.written).getD k 0 := fun k hk wraps => by
    have octet := written.data k (Nat.lt_of_lt_of_eq hk (firstSample.flatMap_written_length _).symm)
    rw [show (endlessRead.p8.toNat + k) % 2 ^ 64 = 0x1000 from wraps] at octet
    exact octet (endlessHistory_eventByte _) endlessHistory_clear
  exact endlessRead_octets_differ ((stands 0 (by decide) (by decide)).symm.trans (stands (2 ^ 64) (by decide) (by decide)))

end Sys2Proof.Machine
end

section
/-! SUPPORT. Writes of single bits that go through, as steps of the main die, and what follows a change of a port's gates: credit,
preemption and eligibility (R228, R231, R233, R235, R237). -/
namespace Sys2Proof.Machine

/-! ## Writes of single bits -/

/-- The same device with other events told and another change log. -/
def Dev.logged (s : Dev) (b : Basjo) (c : Audit) : Dev := { s with basjo := b, audit := c }

/-- A write of a bit that goes through has its effect on what stands once it is logged (R536). -/
theorem Completes.of_writeBit {i : Instr} {s : State} {P : State → Prop} {a : Acc} {addr k : Nat} {f : Dev → Dev}
    (meaning : exec i s = s.onDev (fun d => d.writeBit a addr k f)) (opens : s.opens a addr = true) (clocked : s.clocked addr = true)
    (hp : ∀ b c, Dev.changes [.audit] [] s.dev (s.dev.logged b c) → P { s with dev := f (s.dev.logged b c) }) : Completes i s P := by
  obtain ⟨hr, ho⟩ := s.opens_runs a addr opens
  have runs : s.dev.clockOff (unitOf addr).1 (unitOf addr).2 = false := by simpa [State.clocked] using clocked
  obtain ⟨x, y, written⟩ := Dev.writeOwn_of_opens s.dev a addr (setBit (s.dev.reg addr) k true) f ho runs
  refine .of_onDev meaning hr ?_
  rw [Dev.writeBit, written]
  exact hp _ _ ⟨(s.dev.log_keeps _ _ _ _ _ _ x y).mono (by simp), fun _ _ => rfl, s.dev.log_eventsOnly _ _ _ _ _ _ x y⟩

/-- A write of an enable bit that goes through has its effect on what stands then. -/
theorem Completes.of_writeEn {i : Instr} {s : State} {P : State → Prop} {a : Acc} {addr : Nat} {en : Bool} {f : Dev → Dev}
    (meaning : exec i s = s.onDev (fun d => d.writeEn a addr en f)) (opens : s.opens a addr = true)
    (hp : ∀ x y, P { s with dev := f (s.dev.accepted a addr x y) }) : Completes i s P := by
  obtain ⟨hr, ho⟩ := s.opens_runs a addr opens
  obtain ⟨x, y, written⟩ := Dev.writeEn_of_opens s.dev a addr en f ho
  exact .of_onDev meaning hr (by rw [written]; exact hp x y)

/-- The frame of a command that is logged, from the frame of what it does to the main die. -/
theorem Dev.changes.ofLogged {s : State} {t : Dev} {l : List Part} {w : List Nat} (h : Dev.changes (.audit :: l) w s.dev t) :
    s.changes l w { s with dev := t } :=
  ⟨⟨h.parts, rfl, rfl⟩, h.regs, h.events⟩

theorem Dev.withCrown_changes (s : Dev) (k : Crown) {l : List Part} {w : List Nat} (hl : .crown ∈ l) :
    Dev.changes l w s { s with crown := k } :=
  .of_keeps ((s.withCrown_keeps k).mono (by simpa using hl)) rfl rfl

theorem Dev.gate_setGate_same (s : Dev) (n : Nat) (g : GateRun) : (s.setGate n g).gate n = g := Store.get_put_same _ _ _ _

/-! ## What Crown moves when the gates change -/

/-- The same device with other buckets, tags and credits. -/
def Dev.withQueues (s : Dev) (q : Store (Option CrownQueue)) : Dev := { s with crown := { s.crown with queues := q } }

theorem Dev.foldl_withQueues {f : Dev → Nat → Dev} (hf : ∀ s k, ∃ q, f s k = s.withQueues q) (l : List Nat) (s : Dev) :
    ∃ q, l.foldl f s = s.withQueues q := by
  induction l generalizing s with
  | nil => exact ⟨s.crown.queues, rfl⟩
  | cons k r ih =>
    obtain ⟨q, step⟩ := hf s k
    obtain ⟨q', rest⟩ := ih (f s k)
    exact ⟨q', by rw [List.foldl_cons, rest, step]; rfl⟩

theorem Dev.creditTouch_queues (s : Dev) (q : Nat) : ∃ x, s.creditTouch q = s.withQueues x := by
  unfold Dev.creditTouch
  split
  · exact ⟨_, rfl⟩
  · exact ⟨s.crown.queues, rfl⟩

theorem Dev.creditPort_queues (s : Dev) (n : Nat) : ∃ x, s.creditPort n = s.withQueues x := by
  unfold Dev.creditPort
  split
  · exact Dev.foldl_withQueues (fun s t => s.creditTouch_queues (8 * n + t)) _ s
  · exact ⟨s.crown.queues, rfl⟩

theorem Dev.noteEligible_queues (s : Dev) (p : Nat) : ∃ x, s.noteEligible p = s.withQueues x := by
  unfold Dev.noteEligible
  refine Dev.foldl_withQueues (fun s q => ?_) _ s
  dsimp only
  split
  · exact ⟨s.crown.queues, rfl⟩
  · exact ⟨_, rfl⟩

/-- Crown's queues and the frames it sends have moved on, with the count of preemptions of a port, and nothing else. -/
structure Dev.sendsOn (n : Nat) (s t : Dev) : Prop where
  parts : s.keeps [.crown, .regs] t
  regs : s.regsKeep [portReg n 0x14C] t
  crown : t.crown = { s.crown with queues := t.crown.queues, tx := t.crown.tx, paused := t.crown.paused }

section
variable {n : Nat} {s t u : Dev}

theorem Dev.sendsOn.refl (s : Dev) : Dev.sendsOn n s s := ⟨.refl s _, fun _ _ => rfl, rfl⟩

theorem Dev.sendsOn.trans (h : Dev.sendsOn n s t) (h' : Dev.sendsOn n t u) : Dev.sendsOn n s u :=
  ⟨h.parts.trans h'.parts, fun a ha => (h'.regs a ha).trans (h.regs a ha), by rw [h'.crown, h.crown]⟩

theorem Dev.sendsOn.gate (h : Dev.sendsOn n s t) (k : Nat) : t.gate k = s.gate k := by rw [Dev.gate, h.crown, Dev.gate]

end

theorem Dev.withQueues_sendsOn (s : Dev) (n : Nat) (q : Store (Option CrownQueue)) : Dev.sendsOn n s (s.withQueues q) :=
  ⟨(s.withCrown_keeps _).mono (by simp), fun _ _ => rfl, rfl⟩

theorem Dev.creditPort_sendsOn (s : Dev) (n k : Nat) : Dev.sendsOn n s (s.creditPort k) := by
  obtain ⟨q, e⟩ := s.creditPort_queues k
  exact e ▸ s.withQueues_sendsOn n q

theorem Dev.noteEligible_sendsOn (s : Dev) (n k : Nat) : Dev.sendsOn n s (s.noteEligible k) := by
  obtain ⟨q, e⟩ := s.noteEligible_queues k
  exact e ▸ s.withQueues_sendsOn n q

theorem Dev.count_sendsOn (s : Dev) (n : Nat) : Dev.sendsOn n s (s.count (portReg n 0x14C)) :=
  ⟨(s.setReg_keeps _ _).mono (by simp), fun _ ha => s.reg_setReg_ne _ (by simpa using ha), rfl⟩

theorem Dev.preempt_sendsOn (s : Dev) (n k : Nat) : Dev.sendsOn n s (s.preempt n k) := by
  unfold Dev.preempt
  split
  · exact .refl s
  · next x _ =>
    dsimp only
    refine (s.creditPort_sendsOn n n).trans (.trans (t := if x.preempted then s.creditPort n else (s.creditPort n).count (portReg n 0x14C)) ?_
      ⟨(Dev.withCrown_keeps _ _).mono (by simp), fun _ _ => rfl, rfl⟩)
    split
    · exact .refl _
    · exact Dev.count_sendsOn _ n

theorem Dev.preemptDue_sendsOn (s : Dev) (n : Nat) : Dev.sendsOn n s (s.preemptDue n) := by
  unfold Dev.preemptDue
  split
  · exact .refl s
  · dsimp only
    split
    · exact .refl s
    · split
      · exact s.preempt_sendsOn n _
      · exact .refl s

/-! ## The gate states in force -/

/-- GATE_STATUS of a port once it shows the gate states in force and their entry (R233). -/
def Dev.gateStatus (s : Dev) (n : Nat) : Word :=
  setFld (setFld (s.reg (crownReg n 0x14)) 31 24 (s.gates n s.wt)) 16 8 ((s.gateEntry n s.wt).1.elim 0 (fun e => e.1))

theorem Dev.gateStatus_states (s : Dev) (n : Nat) : fld (s.gateStatus n) 31 24 = s.gates n s.wt % 256 :=
  (fld_setFld_out _ 16 8 _ 31 24 (.inr (by decide)) (by decide)).trans (fld_setFld_same _ 31 24 _ (by decide))

theorem Dev.gateStatus_entry (s : Dev) (n : Nat) :
    fld (s.gateStatus n) 16 8 = (s.gateEntry n s.wt).1.elim 0 (fun e => e.1) % 512 :=
  fld_setFld_same _ 16 8 _ (by decide)

theorem Dev.gateStatus_low (s : Dev) (n : Nat) {p q : Nat} (hp : p < 8) : fld (s.gateStatus n) p q = s.rf (crownReg n 0x14) p q :=
  (fld_setFld_out _ 16 8 _ p q (.inl hp) (by omega)).trans (fld_setFld_out _ 31 24 _ p q (.inl (by omega)) (by omega))

theorem Dev.gateStatus_bit (s : Dev) (n : Nat) {j : Nat} (hj : j < 8) : bit (s.gateStatus n) j = s.rb (crownReg n 0x14) j :=
  (bit_setFld_out _ 16 8 _ j (.inl hj) (by omega)).trans (bit_setFld_out _ 31 24 _ j (.inl (by omega)) (by omega))

/-- A change of the gates of a port has taken effect: its status shows them, a hold follows them, and Crown's queues and the frames it
sends have moved on (R233, R235, R237). -/
structure Dev.gatesShown (n : Nat) (s t : Dev) : Prop where
  parts : s.keeps [.crown, .regs] t
  regs : s.regsKeep [portReg n 0x14C, crownReg n 0x14] t
  status : t.reg (crownReg n 0x14) = s.gateStatus n
  gate : t.gate n = { s.gate n with held := (t.gate n).held }
  crown : t.crown = { s.crown with gates := t.crown.gates, queues := t.crown.queues, tx := t.crown.tx, paused := t.crown.paused }

theorem Dev.gatesShown.changes {n : Nat} {s t : Dev} (h : Dev.gatesShown n s t) :
    Dev.changes [.crown] [portReg n 0x14C, crownReg n 0x14] s t :=
  ⟨h.parts.mono (by simp), h.regs, by rw [show t.basjo = s.basjo from h.parts .basjo (by decide)]; exact .refl _⟩

section
variable {n : Nat} {s t : Dev} (h : Dev.gatesShown n s t)
include h

theorem Dev.gatesShown.word (a : Nat) : t.word a = s.word a := by
  have words : t.words = s.words := h.parts .words (by decide)
  have variant : t.variant = s.variant := h.parts .variant (by decide)
  rw [Dev.word, words, variant, Dev.word]

theorem Dev.gatesShown.statusBit {j : Nat} (hj : j < 8) : t.rb (crownReg n 0x14) j = s.rb (crownReg n 0x14) j := by
  rw [Dev.rb, h.status, s.gateStatus_bit n hj]

theorem Dev.gatesShown.regOf {o : Nat} (ho : o ≠ 0x14) : t.reg (crownReg n o) = s.reg (crownReg n o) :=
  h.regs _ (by simp only [List.mem_cons, List.not_mem_nil, or_false, crownReg, portReg]; omega)

end

/-- GATE_STATUS is written in two fields, and the hold in the gate list machine. -/
theorem Dev.gateApply_eq (s : Dev) (n : Nat) : ∃ q held, s.gateApply n =
    (((((s.withQueues q).setRf (crownReg n 0x14) 31 24 (s.gates n s.wt)).setRf (crownReg n 0x14) 16 8
      ((s.gateEntry n s.wt).1.elim 0 (fun e => e.1))).setGate n { s.gate n with held := held }).preemptDue n).noteEligible n := by
  obtain ⟨q, credit⟩ := s.creditPort_queues n
  unfold Dev.gateApply
  rw [credit]
  dsimp only
  rw [show (s.withQueues q).gateEntry n (s.withQueues q).wt = s.gateEntry n s.wt from rfl,
    show (s.withQueues q).gates n (s.withQueues q).wt = s.gates n s.wt from rfl]
  cases (s.gateEntry n s.wt).1 with
  | none => exact ⟨q, _, rfl⟩
  | some e => exact ⟨q, _, rfl⟩

theorem Dev.gateApply_shown (s : Dev) (n : Nat) : Dev.gatesShown n s (s.gateApply n) := by
  obtain ⟨q, held, e⟩ := s.gateApply_eq n
  rw [e]
  generalize hz : (((s.withQueues q).setRf (crownReg n 0x14) 31 24 (s.gates n s.wt)).setRf (crownReg n 0x14) 16 8
      ((s.gateEntry n s.wt).1.elim 0 (fun e => e.1))).setGate n { s.gate n with held := held } = z
  have after : Dev.sendsOn n z ((z.preemptDue n).noteEligible n) := (z.preemptDue_sendsOn n).trans (Dev.noteEligible_sendsOn _ n n)
  have parts : s.keeps [.crown, .regs] z := by
    subst hz
    exact (((s.withCrown_keeps _).mono (by simp)).trans ((Dev.setReg_keeps _ _ _).mono (by simp))).trans
      (((Dev.setReg_keeps _ _ _).mono (by simp)).trans ((Dev.withCrown_keeps _ _).mono (by simp)))
  have regs : ∀ a, z.reg a = if a = crownReg n 0x14 then s.gateStatus n else s.reg a := fun a => by
    subst hz
    by_cases h : a = crownReg n 0x14
    · rw [if_pos h, h, Dev.setGate_reg, Dev.reg_setRf, if_pos rfl, Dev.reg_setRf, if_pos rfl]; rfl
    · rw [if_neg h, Dev.setGate_reg, Dev.reg_setRf, if_neg h, Dev.reg_setRf, if_neg h]; rfl
  have gate : z.gate n = { s.gate n with held := held } := hz ▸ Dev.gate_setGate_same _ _ _
  have crown : z.crown = { s.crown with gates := z.crown.gates, queues := z.crown.queues } := hz ▸ rfl
  refine ⟨parts.trans after.parts, fun a ha => ?_, ?_, ?_, ?_⟩
  · obtain ⟨port, status⟩ : a ≠ portReg n 0x14C ∧ a ≠ crownReg n 0x14 := by simpa using ha
    rw [after.regs a (by simpa using port), regs, if_neg status]
  · rw [after.regs _ (by simp only [List.mem_singleton, crownReg, portReg]; omega), regs, if_pos rfl]
  · rw [after.gate, gate]
  · rw [after.crown, crown]

end Sys2Proof.Machine
end

section
/-! SUPPORT. Gate lists: what a commit, a cancel, a swap and the fall of EN do (R238 to R243), and the statement on them. -/
namespace Sys2Proof.Machine

/-! ## Commits (R238, R242) -/

/-- A commit stands: it is pending, and its change time shows. -/
def Dev.awaitChange (s : Dev) (n : Nat) (p : GatePending) : Dev :=
  ((((s.setGate n { s.gate n with pending := some p }).setRb (crownReg n 0x14) 1 true).setReg (crownReg n 0x44)
    (BitVec.ofNat 32 (nsOf p.cct))).setReg (crownReg n 0x48) (BitVec.ofNat 32 (secOf p.cct))).setReg (crownReg n 0x4C)
    (BitVec.ofNat 32 (secOf p.cct / 2 ^ 32 % 65536))

section
variable {s : Dev} {n : Nat}

theorem Dev.gateCommit_of_pending {p : GatePending} (pending : (s.gate n).pending = some p) :
    s.gateCommit n = (s.setRb (crownReg n 0x14) 3 true).gateErr n 3 :=
  if_pos (by rw [pending]; rfl)

theorem Dev.gateCommit_of_invalid (free : (s.gate n).pending = none) (invalid : s.adminOk n = false) :
    s.gateCommit n = (s.setRb (crownReg n 0x14) 2 true).gateErr n 1 :=
  (if_neg (by rw [free]; decide)).trans (if_pos (by rw [invalid]; rfl))

theorem Dev.gateCommit_of_valid (free : (s.gate n).pending = none) (valid : s.adminOk n = true) : s.gateCommit n =
    s.awaitChange n ⟨(s.changeTime n).1, s.rf (crownReg n 0x18) 8 0, (s.reg (crownReg n 0x1C)).toNat, (s.changeTime n).2.1,
      (s.changeTime n).2.2⟩ :=
  (if_neg (by rw [free]; decide)).trans (if_neg (by rw [valid]; decide))

theorem Dev.setRb_gateErr_reg (s : Dev) (n j cause : Nat) :
    ((s.setRb (crownReg n 0x14) j true).gateErr n cause).reg (crownReg n 0x14) = setBit (s.reg (crownReg n 0x14)) j true :=
  s.reg_setReg_same _ _

/-- An error bit of GATE_STATUS is set and told, and nothing else changes. -/
theorem Dev.setRb_gateErr_changes (s : Dev) (n j cause : Nat) {l : List Part} :
    Dev.changes l [crownReg n 0x14] s ((s.setRb (crownReg n 0x14) j true).gateErr n cause) :=
  (s.setReg_changes _ _ (by simp)).trans (Dev.raise_changes _ _ _ _ _ _ _)

theorem Dev.awaitChange_reg (s : Dev) (n : Nat) (p : GatePending) (a : Nat) : (s.awaitChange n p).reg a =
    if a = crownReg n 0x4C then BitVec.ofNat 32 (secOf p.cct / 2 ^ 32 % 65536)
    else if a = crownReg n 0x48 then BitVec.ofNat 32 (secOf p.cct)
    else if a = crownReg n 0x44 then BitVec.ofNat 32 (nsOf p.cct)
    else if a = crownReg n 0x14 then setBit (s.reg (crownReg n 0x14)) 1 true else s.reg a := by
  simp only [Dev.awaitChange, Dev.reg_setReg, Dev.reg_setRb, Dev.setGate_reg]

theorem Dev.awaitChange_status (s : Dev) (n : Nat) (p : GatePending) :
    (s.awaitChange n p).reg (crownReg n 0x14) = setBit (s.reg (crownReg n 0x14)) 1 true := by simp [Dev.awaitChange_reg]

theorem Dev.awaitChange_ns (s : Dev) (n : Nat) (p : GatePending) :
    (s.awaitChange n p).reg (crownReg n 0x44) = BitVec.ofNat 32 (nsOf p.cct) := by simp [Dev.awaitChange_reg]

theorem Dev.awaitChange_sec (s : Dev) (n : Nat) (p : GatePending) :
    (s.awaitChange n p).reg (crownReg n 0x48) = BitVec.ofNat 32 (secOf p.cct) := by simp [Dev.awaitChange_reg]

theorem Dev.awaitChange_secHigh (s : Dev) (n : Nat) (p : GatePending) :
    (s.awaitChange n p).reg (crownReg n 0x4C) = BitVec.ofNat 32 (secOf p.cct / 2 ^ 32 % 65536) := by simp [Dev.awaitChange_reg]

theorem Dev.awaitChange_changes (s : Dev) (n : Nat) (p : GatePending) {l : List Part} (hl : .crown ∈ l) :
    Dev.changes l [crownReg n 0x14, crownReg n 0x44, crownReg n 0x48, crownReg n 0x4C] s (s.awaitChange n p) :=
  ((((s.withCrown_changes _ hl).trans (Dev.setReg_changes _ _ _ (by simp))).trans (Dev.setReg_changes _ _ _ (by simp))).trans
    (Dev.setReg_changes _ _ _ (by simp))).trans (Dev.setReg_changes _ _ _ (by simp))

/-! ## Cancels (R242) -/

theorem Dev.gateCancel_of_early {p : GatePending} (pending : (s.gate n).pending = some p) (early : s.wt < p.cct) :
    s.gateCancel n = (s.setGate n { s.gate n with pending := none }).setRb (crownReg n 0x14) 1 false := by
  unfold Dev.gateCancel
  rw [pending]
  exact if_neg (by omega)

theorem Dev.gateCancel_of_due {p : GatePending} (pending : (s.gate n).pending = some p) (due : p.cct ≤ s.wt) : s.gateCancel n = s := by
  unfold Dev.gateCancel
  rw [pending]
  exact if_pos due

/-! ## Swaps (R242) -/

theorem Dev.foldl_setWord_eq (l : List Nat) (at_ : Nat → Nat) (v : Nat → DWord) (s : Dev) :
    l.foldl (fun (s : Dev) k => s.setWord (at_ k) (v k)) s =
      { s with words := (l.foldl (fun (s : Dev) k => s.setWord (at_ k) (v k)) s).words } := by
  induction l generalizing s with
  | nil => rfl
  | cons k r ih => exact ih (s.setWord (at_ k) (v k))

theorem Dev.word_foldl_setWord_ne (l : List Nat) (at_ : Nat → Nat) (v : Nat → DWord) (s : Dev) (a : Nat) (ha : ∀ k ∈ l, a ≠ at_ k) :
    (l.foldl (fun (s : Dev) k => s.setWord (at_ k) (v k)) s).word a = s.word a := by
  induction l generalizing s with
  | nil => rfl
  | cons k r ih =>
    rw [List.foldl_cons, ih _ (fun j hj => ha j (List.mem_cons_of_mem _ hj)), Dev.word_setWord, if_neg (ha k List.mem_cons_self)]

theorem Dev.word_foldl_setWord_mem (l : List Nat) (at_ : Nat → Nat) (hat : Function.Injective at_) (v : Nat → DWord) (s : Dev)
    (k : Nat) (hk : k ∈ l) : (l.foldl (fun (s : Dev) k => s.setWord (at_ k) (v k)) s).word (at_ k) = v k := by
  induction l generalizing s with
  | nil => exact absurd hk List.not_mem_nil
  | cons j r ih =>
    by_cases hr : k ∈ r
    · exact ih _ hr
    · obtain rfl : k = j := (List.mem_cons.mp hk).resolve_right hr
      rw [List.foldl_cons, Dev.word_foldl_setWord_ne r at_ v _ _ (fun i hi e => hr (by rwa [hat e])), Dev.word_setWord_same]

/-- A bank of entries has taken the place of the administrative bank of a port. -/
def Dev.loadBank (s : Dev) (n : Nat) (bank : List DWord) : Dev :=
  (List.range 256).foldl (fun (s : Dev) k => s.setWord (gclAddr n k) (bank.getD k 0)) s

theorem Dev.loadBank_eq (s : Dev) (n : Nat) (bank : List DWord) : s.loadBank n bank = { s with words := (s.loadBank n bank).words } :=
  Dev.foldl_setWord_eq _ _ _ _

theorem Dev.withWords_changes (s : Dev) (x : Store DWord) {l : List Part} {w : List Nat} (hl : .words ∈ l) :
    Dev.changes l w s { s with words := x } := by
  refine .of_keeps (fun p hp => ?_) rfl rfl
  cases p with
  | words => exact absurd hl hp
  | _ => rfl

theorem Dev.loadBank_crown (s : Dev) (n : Nat) (bank : List DWord) : (s.loadBank n bank).crown = s.crown := by rw [s.loadBank_eq n bank]

theorem Dev.loadBank_changes (s : Dev) (n : Nat) (bank : List DWord) {l : List Part} {w : List Nat} (hl : .words ∈ l) :
    Dev.changes l w s (s.loadBank n bank) := by
  rw [s.loadBank_eq n bank]
  exact s.withWords_changes _ hl

theorem gclAddr_injective (n : Nat) : Function.Injective (gclAddr n) := fun i j h => by
  simp only [gclAddr] at h
  omega

theorem Dev.loadBank_word (s : Dev) (n : Nat) (bank : List DWord) (k : Fin 256) :
    (s.loadBank n bank).word (gclAddr n k.val) = bank.getD k.val 0 :=
  Dev.word_foldl_setWord_mem _ (gclAddr n) (gclAddr_injective n) (bank.getD · 0) s k.val (List.mem_range.mpr k.isLt)

theorem Dev.loadBank_word_out (s : Dev) (n : Nat) (bank : List DWord) {x : Nat} (hx : ¬ (gclAddr n 0 ≤ x ∧ x < gclAddr n 256)) :
    (s.loadBank n bank).word x = s.word x :=
  Dev.word_foldl_setWord_ne _ (gclAddr n) (bank.getD · 0) s x (fun k hk => by
    have := List.mem_range.mp hk
    simp only [gclAddr] at hx ⊢
    omega)

/-- The new list of a change is in force, with its length, cycle and base shown, and no change is pending. -/
def Dev.putList (s : Dev) (n : Nat) (p : GatePending) (g : GateRun) : Dev :=
  (((((((s.setGate n g).setRb (crownReg n 0x14) 1 false).setRb (crownReg n 0x14) 0 true).setReg (crownReg n 0x30)
    (BitVec.ofNat 32 p.len)).setReg (crownReg n 0x34) (BitVec.ofNat 32 p.cycle)).setReg (crownReg n 0x38)
    (BitVec.ofNat 32 (nsOf p.cct))).setReg (crownReg n 0x3C) (BitVec.ofNat 32 (secOf p.cct))).setReg (crownReg n 0x40)
    (BitVec.ofNat 32 (secOf p.cct / 2 ^ 32 % 65536))

theorem Dev.reg_setRb_setRb (s : Dev) (a i k r : Nat) (v w : Bool) :
    ((s.setRb a i v).setRb a k w).reg r = if r = a then setBit (setBit (s.reg a) i v) k w else s.reg r := by
  by_cases h : r = a
  · rw [if_pos h, Dev.reg_setRb, if_pos h, Dev.reg_setRb, if_pos rfl]
  · rw [if_neg h, Dev.reg_setRb, if_neg h, Dev.reg_setRb, if_neg h]

theorem Dev.putList_reg (s : Dev) (n : Nat) (p : GatePending) (g : GateRun) (a : Nat) : (s.putList n p g).reg a =
    if a = crownReg n 0x40 then BitVec.ofNat 32 (secOf p.cct / 2 ^ 32 % 65536)
    else if a = crownReg n 0x3C then BitVec.ofNat 32 (secOf p.cct)
    else if a = crownReg n 0x38 then BitVec.ofNat 32 (nsOf p.cct)
    else if a = crownReg n 0x34 then BitVec.ofNat 32 p.cycle
    else if a = crownReg n 0x30 then BitVec.ofNat 32 p.len
    else if a = crownReg n 0x14 then setBit (setBit (s.reg (crownReg n 0x14)) 1 false) 0 true else s.reg a := by
  simp only [Dev.putList, Dev.reg_setReg, Dev.reg_setRb_setRb, Dev.setGate_reg]

section
variable (s : Dev) (n : Nat) (p : GatePending) (g : GateRun)

theorem Dev.putList_gate : (s.putList n p g).gate n = g := by
  simp only [Dev.putList, Dev.gate, Dev.setReg_crown, Dev.setRb_crown]
  exact Dev.gate_setGate_same s n g

theorem Dev.putList_word (a : Nat) : (s.putList n p g).word a = s.word a := rfl
theorem Dev.putList_crown : (s.putList n p g).crown = { s.crown with gates := (s.putList n p g).crown.gates } := rfl

theorem Dev.putList_status :
    (s.putList n p g).reg (crownReg n 0x14) = setBit (setBit (s.reg (crownReg n 0x14)) 1 false) 0 true := by simp [Dev.putList_reg]

theorem Dev.putList_config : (s.putList n p g).rb (crownReg n 0x14) 0 = true := by
  rw [Dev.rb, Dev.putList_status]
  exact bit_setBit_same _ _ _ (by decide)

theorem Dev.putList_change : (s.putList n p g).rb (crownReg n 0x14) 1 = false := by
  rw [Dev.rb, Dev.putList_status]
  exact (bit_setBit_ne _ _ _ _ (by decide) (by decide)).trans (bit_setBit_same _ _ _ (by decide))

theorem Dev.putList_len : (s.putList n p g).reg (crownReg n 0x30) = BitVec.ofNat 32 p.len := by simp [Dev.putList_reg]
theorem Dev.putList_cycle : (s.putList n p g).reg (crownReg n 0x34) = BitVec.ofNat 32 p.cycle := by simp [Dev.putList_reg]
theorem Dev.putList_ns : (s.putList n p g).reg (crownReg n 0x38) = BitVec.ofNat 32 (nsOf p.cct) := by simp [Dev.putList_reg]
theorem Dev.putList_sec : (s.putList n p g).reg (crownReg n 0x3C) = BitVec.ofNat 32 (secOf p.cct) := by simp [Dev.putList_reg]

end

theorem Dev.putList_changes (s : Dev) (n : Nat) (p : GatePending) (g : GateRun) {l : List Part} (hl : .crown ∈ l) :
    Dev.changes l [crownReg n 0x14, crownReg n 0x30, crownReg n 0x34, crownReg n 0x38, crownReg n 0x3C, crownReg n 0x40] s
      (s.putList n p g) :=
  (((((((s.withCrown_changes _ hl).trans (Dev.setReg_changes _ _ _ (by simp))).trans (Dev.setReg_changes _ _ _ (by simp))).trans
    (Dev.setReg_changes _ _ _ (by simp))).trans (Dev.setReg_changes _ _ _ (by simp))).trans (Dev.setReg_changes _ _ _ (by simp))).trans
    (Dev.setReg_changes _ _ _ (by simp))).trans (Dev.setReg_changes _ _ _ (by simp))

theorem Dev.gateSwap_of_early {p : GatePending} (pending : (s.gate n).pending = some p) (early : s.wt < p.cct) : s.gateSwap n = s := by
  unfold Dev.gateSwap
  rw [pending]
  exact if_pos early

/-- The banks of a port have exchanged roles, and the list of a change is in force. -/
def Dev.swapLists (s : Dev) (n : Nat) (p : GatePending) : Dev :=
  (s.loadBank n (s.gate n).bank).putList n p { s.gate n with bank := s.adminBank n 256, base := p.cct, pending := none }

theorem Dev.swapLists_gate (s : Dev) (n : Nat) (p : GatePending) :
    (s.swapLists n p).gate n = { s.gate n with bank := s.adminBank n 256, base := p.cct, pending := none } :=
  Dev.putList_gate _ _ _ _

theorem Dev.swapLists_word (s : Dev) (n : Nat) (p : GatePending) (k : Fin 256) :
    (s.swapLists n p).word (gclAddr n k.val) = (s.gate n).bank.getD k.val 0 :=
  (Dev.putList_word _ _ _ _ _).trans (s.loadBank_word n _ k)

theorem Dev.swapLists_word_out (s : Dev) (n : Nat) (p : GatePending) {x : Nat} (hx : ¬ (gclAddr n 0 ≤ x ∧ x < gclAddr n 256)) :
    (s.swapLists n p).word x = s.word x :=
  (Dev.putList_word _ _ _ _ _).trans (s.loadBank_word_out n _ hx)

theorem Dev.swapLists_crown (s : Dev) (n : Nat) (p : GatePending) :
    (s.swapLists n p).crown = { s.crown with gates := (s.swapLists n p).crown.gates } := by
  rw [Dev.swapLists, Dev.putList_crown, Dev.loadBank_crown]

theorem Dev.swapLists_changes (s : Dev) (n : Nat) (p : GatePending) :
    Dev.changes [.crown, .words] [crownReg n 0x14, crownReg n 0x30, crownReg n 0x34, crownReg n 0x38, crownReg n 0x3C, crownReg n 0x40] s
      (s.swapLists n p) :=
  (s.loadBank_changes n _ (by simp)).trans (Dev.putList_changes _ n p _ (by simp))

theorem Dev.gateSwap_of_due {p : GatePending} (pending : (s.gate n).pending = some p) (due : p.cct ≤ s.wt) : ∃ q, s.gateSwap n =
    (((s.withQueues q).swapLists n p).gateApply n).raise 25 p.cause 0x21 n p.len p.cycle := by
  obtain ⟨q, credit⟩ := s.creditPort_queues n
  refine ⟨q, ?_⟩
  unfold Dev.gateSwap
  rw [pending, credit]
  exact if_neg (by omega)

/-- A pending change has taken effect at its change time (R242). -/
structure Dev.swapped (n : Nat) (p : GatePending) (s t : Dev) : Prop where
  bank : (t.gate n).bank = s.adminBank n 256
  base : (t.gate n).base = p.cct
  free : (t.gate n).pending = none
  words : ∀ k : Fin 256, t.word (gclAddr n k.val) = (s.gate n).bank.getD k.val 0
  outside : ∀ x, ¬ (gclAddr n 0 ≤ x ∧ x < gclAddr n 256) → t.word x = s.word x
  config : t.rb (crownReg n 0x14) 0 = true
  change : t.rb (crownReg n 0x14) 1 = false
  len : t.reg (crownReg n 0x30) = BitVec.ofNat 32 p.len
  cycle : t.reg (crownReg n 0x34) = BitVec.ofNat 32 p.cycle
  ns : t.reg (crownReg n 0x38) = BitVec.ofNat 32 (nsOf p.cct)
  sec : t.reg (crownReg n 0x3C) = BitVec.ofNat 32 (secOf p.cct)
  changes : Dev.changes [.crown, .words] [portReg n 0x14C, crownReg n 0x14, crownReg n 0x30, crownReg n 0x34, crownReg n 0x38,
    crownReg n 0x3C, crownReg n 0x40] s t
  crown : t.crown = { s.crown with gates := t.crown.gates, queues := t.crown.queues, tx := t.crown.tx, paused := t.crown.paused }

/-- The swap at the change time; the lists are exchanged before the gates of the new one show. -/
theorem Dev.gateSwap_swapped {p : GatePending} (pending : (s.gate n).pending = some p) (due : p.cct ≤ s.wt) :
    Dev.swapped n p s (s.gateSwap n) := by
  obtain ⟨q, swap⟩ := Dev.gateSwap_of_due pending due
  rw [swap]
  have shown := ((s.withQueues q).swapLists n p).gateApply_shown n
  have gate := (s.withQueues q).swapLists_gate n p
  have word : ∀ x, (((s.withQueues q).swapLists n p).gateApply n).word x = ((s.withQueues q).swapLists n p).word x := shown.word
  refine ⟨?_, ?_, ?_, fun k => ?_, fun x hx => ?_, ?_, ?_, ?_, ?_, ?_, ?_, ?_, ?_⟩
  · exact (congrArg GateRun.bank shown.gate).trans (congrArg GateRun.bank gate)
  · exact (congrArg GateRun.base shown.gate).trans (congrArg GateRun.base gate)
  · exact (congrArg GateRun.pending shown.gate).trans (congrArg GateRun.pending gate)
  · exact (word _).trans ((s.withQueues q).swapLists_word n p k)
  · exact (word _).trans ((s.withQueues q).swapLists_word_out n p hx)
  · exact (shown.statusBit (by decide)).trans (Dev.putList_config _ _ _ _)
  · exact (shown.statusBit (by decide)).trans (Dev.putList_change _ _ _ _)
  · exact (shown.regOf (by decide)).trans (Dev.putList_len _ _ _ _)
  · exact (shown.regOf (by decide)).trans (Dev.putList_cycle _ _ _ _)
  · exact (shown.regOf (by decide)).trans (Dev.putList_ns _ _ _ _)
  · exact (shown.regOf (by decide)).trans (Dev.putList_sec _ _ _ _)
  · exact (((s.withCrown_changes _ (by simp)).trans (((s.withQueues q).swapLists_changes n p).mono (by simp) (by simp))).trans
      (shown.changes.mono (by simp) (by simp))).trans (Dev.raise_changes _ _ _ _ _ _ _)
  · rw [Dev.raise_crown, shown.crown, Dev.swapLists_crown]
    rfl

/-! ## The fall of EN (R242) -/

/-- EN is clear, and neither a change nor a list is in force. -/
def Dev.dropLists (s : Dev) (n : Nat) : Dev :=
  ((s.setRb (crownReg n 0x10) 31 false).setGate n { s.gate n with pending := none }).setRf (crownReg n 0x14) 1 0 0

theorem Dev.dropLists_reg (s : Dev) (n : Nat) {a : Nat} (status : a ≠ crownReg n 0x14) : (s.dropLists n).reg a =
    if a = crownReg n 0x10 then setBit (s.reg (crownReg n 0x10)) 31 false else s.reg a := by
  rw [Dev.dropLists, Dev.reg_setRf, if_neg status, Dev.setGate_reg, Dev.reg_setRb]

theorem Dev.dropLists_changes (s : Dev) (n : Nat) {l : List Part} (hl : .crown ∈ l) :
    Dev.changes l [crownReg n 0x10, crownReg n 0x14] s (s.dropLists n) :=
  ((s.setReg_changes _ _ (by simp)).trans (Dev.withCrown_changes _ _ hl)).trans (Dev.setReg_changes _ _ _ (by simp))

theorem Dev.gateDisable_of_on (on : s.rb (crownReg n 0x10) 31 = true) : ∃ q, s.gateDisable n = ((s.withQueues q).dropLists n).gateApply n := by
  obtain ⟨q, credit⟩ := s.creditPort_queues n
  refine ⟨q, ?_⟩
  unfold Dev.gateDisable
  rw [credit]
  exact if_neg (by rw [on]; decide)

/-- Without EN, and out of SAFE, every gate is open (R233). -/
theorem Dev.gates_of_off (outOfSafe : s.safe = false) (off : s.rb (crownReg n 0x10) 31 = false) (t : Int) : s.gates n t = 0xFF := by
  simp [Dev.gates, Dev.gateEntry, outOfSafe, off]

/-- EN of a port has fallen (R242). -/
structure Dev.disabled (n : Nat) (s t : Dev) : Prop where
  ctl : t.reg (crownReg n 0x10) = setBit (s.reg (crownReg n 0x10)) 31 false
  free : (t.gate n).pending = none
  lists : t.rf (crownReg n 0x14) 1 0 = 0
  opened : s.safe = false → t.rf (crownReg n 0x14) 31 24 = 0xFF
  changes : Dev.changes [.crown] [crownReg n 0x10, portReg n 0x14C, crownReg n 0x14] s t
  crown : t.crown = { s.crown with gates := t.crown.gates, queues := t.crown.queues, tx := t.crown.tx, paused := t.crown.paused }

theorem Dev.dropLists_ctl (s : Dev) (n : Nat) : (s.dropLists n).reg (crownReg n 0x10) = setBit (s.reg (crownReg n 0x10)) 31 false := by
  rw [s.dropLists_reg n (by simp only [crownReg]; omega), if_pos rfl]

theorem Dev.dropLists_lists (s : Dev) (n : Nat) : (s.dropLists n).rf (crownReg n 0x14) 1 0 = 0 :=
  Dev.rf_setRf_same _ _ _ _ _ (by decide)

theorem Dev.dropLists_gate (s : Dev) (n : Nat) : (s.dropLists n).gate n = { s.gate n with pending := none } := by
  rw [Dev.dropLists, Dev.gate, Dev.setRf_crown]
  exact Dev.gate_setGate_same _ n _

theorem Dev.dropLists_crown (s : Dev) (n : Nat) : (s.dropLists n).crown = { s.crown with gates := (s.dropLists n).crown.gates } := rfl

theorem Dev.dropLists_safe (s : Dev) (n : Nat) : (s.dropLists n).safe = s.safe := by
  have far : rasReg 0 ≠ crownReg n 0x10 ∧ rasReg 0 ≠ crownReg n 0x14 := by
    simp only [rasReg, crownReg]
    omega
  rw [Dev.safe, Dev.rb, s.dropLists_reg n far.2, if_neg far.1]
  rfl

theorem Dev.dropLists_gates (s : Dev) (n : Nat) (safe : s.safe = false) (t : Int) : (s.dropLists n).gates n t = 0xFF := by
  refine Dev.gates_of_off ((s.dropLists_safe n).trans safe) ?_ t
  rw [Dev.rb, Dev.dropLists_ctl]
  exact bit_setBit_same _ _ _ (by decide)

/-- The fall of EN; the lists are dropped before the gates show that none is in force. -/
theorem Dev.gateDisable_disabled (on : s.rb (crownReg n 0x10) 31 = true) : Dev.disabled n s (s.gateDisable n) := by
  obtain ⟨q, falls⟩ := Dev.gateDisable_of_on on
  rw [falls]
  have shown := ((s.withQueues q).dropLists n).gateApply_shown n
  refine ⟨?_, ?_, ?_, fun safe => ?_, ?_, ?_⟩
  · exact (shown.regOf (by decide)).trans ((s.withQueues q).dropLists_ctl n)
  · rw [shown.gate, Dev.dropLists_gate]
  · rw [Dev.rf, shown.status, Dev.gateStatus_low _ _ (by decide)]
    exact (s.withQueues q).dropLists_lists n
  · rw [Dev.rf, shown.status, Dev.gateStatus_states, Dev.dropLists_gates (s.withQueues q) n safe]
  · exact ((s.withCrown_changes _ (by simp)).trans (((s.withQueues q).dropLists_changes n (l := [.crown]) (by simp)).mono (by simp) (by simp))).trans
      (shown.changes.mono (by simp) (by simp))
  · rw [shown.crown, Dev.dropLists_crown]
    rfl

/-! ## Entry boundaries (R233) -/

theorem Dev.gateBoundary_of_present (present : portPresent s.variant n = true) : s.gateBoundary n = s.gateApply n :=
  if_neg (by rw [present]; decide)

end

/-! ## The commands -/

/-- Settles O27, command by command: GATE_COMMIT, GATE_CANCEL, GATE_LIST_SWAP, GATE_DISABLE and GATE_ENTRY_BOUNDARY. -/
theorem gateListsCommitAndSwap : Obligations.GateListsCommitAndSwap := by
  unfold Obligations.GateListsCommitAndSwap
  refine ⟨?_, ?_, ?_, ?_, ?_, ?_, ?_, ?_, ?_⟩
  · -- GATE_COMMIT of a valid list
    intro s a n opens clocked free valid
    refine .of_writeBit (f := (·.gateCommit n.val)) rfl opens clocked (fun b c logged => ?_)
    dsimp only
    rw [Dev.gateCommit_of_valid (s := s.dev.logged b c) free valid]
    refine ⟨Dev.gate_setGate_same _ _ _, ?_, ?_, ?_, ?_, ?_, rfl⟩
    · exact Dev.awaitChange_status _ _ _
    · exact Dev.awaitChange_ns _ _ _
    · exact Dev.awaitChange_sec _ _ _
    · exact Dev.awaitChange_secHigh _ _ _
    · exact Dev.changes.ofLogged ((logged.mono (by simp) (by simp)).trans (Dev.awaitChange_changes _ _ _ (by simp)))
  · -- GATE_COMMIT of an invalid list
    intro s a n opens clocked free invalid
    refine .of_writeBit (f := (·.gateCommit n.val)) rfl opens clocked (fun b c logged => ?_)
    dsimp only
    rw [Dev.gateCommit_of_invalid (s := s.dev.logged b c) free invalid]
    exact ⟨Dev.setRb_gateErr_reg _ _ _ _,
      Dev.changes.ofLogged ((logged.mono (by simp) (by simp)).trans (Dev.setRb_gateErr_changes _ _ _ _))⟩
  · -- GATE_COMMIT with a change pending
    intro s a n p opens clocked pending
    refine .of_writeBit (f := (·.gateCommit n.val)) rfl opens clocked (fun b c logged => ?_)
    dsimp only
    rw [Dev.gateCommit_of_pending (s := s.dev.logged b c) pending]
    exact ⟨Dev.setRb_gateErr_reg _ _ _ _,
      Dev.changes.ofLogged ((logged.mono (by simp) (by simp)).trans (Dev.setRb_gateErr_changes _ _ _ _))⟩
  · -- GATE_CANCEL before the change time
    intro s a n p opens clocked pending early
    refine .of_writeBit (f := (·.gateCancel n.val)) rfl opens clocked (fun b c logged => ?_)
    dsimp only
    rw [Dev.gateCancel_of_early (s := s.dev.logged b c) pending early]
    exact ⟨Dev.gate_setGate_same _ _ _, Dev.reg_setReg_same _ _ _,
      Dev.changes.ofLogged ((logged.mono (by simp) (by simp)).trans
        ((Dev.withCrown_changes _ _ (by simp)).trans (Dev.setReg_changes _ _ _ (by simp)))), rfl⟩
  · -- GATE_CANCEL from the change time on
    intro s a n p opens clocked pending due
    refine .of_writeBit (f := (·.gateCancel n.val)) rfl opens clocked (fun b c logged => ?_)
    dsimp only
    rw [Dev.gateCancel_of_due (s := s.dev.logged b c) pending due]
    exact ⟨rfl, logged.ofLogged⟩
  · -- GATE_LIST_SWAP at or after the change time
    intro s n p hr pending due
    refine .of_onDev (f := (·.gateSwap n.val)) rfl hr ?_
    have swapped := Dev.gateSwap_swapped pending due
    exact ⟨swapped.bank, swapped.base, swapped.free, swapped.words, swapped.outside, swapped.config, swapped.change, swapped.len,
      swapped.cycle, swapped.ns, swapped.sec, swapped.changes.ofState, swapped.crown⟩
  · -- GATE_LIST_SWAP before it
    intro s n p hr pending early
    refine .of_onDev (f := (·.gateSwap n.val)) rfl hr ?_
    rw [Dev.gateSwap_of_early pending early]
  · -- GATE_DISABLE
    intro s a n opens on
    refine .of_writeEn (f := (·.gateDisable n.val)) rfl opens (fun x y => ?_)
    have disabled := Dev.gateDisable_disabled (s := s.dev.accepted a (crownReg n.val 0x10) x y) (n := n.val) on
    exact ⟨disabled.ctl, disabled.free, disabled.lists, disabled.opened, State.writes_of_accepted (by simp) disabled.changes, disabled.crown⟩
  · -- GATE_ENTRY_BOUNDARY
    intro s n hr present
    refine .of_onDev (f := (·.gateBoundary n.val)) rfl hr ?_
    dsimp only
    rw [Dev.gateBoundary_of_present present]
    have shown := s.dev.gateApply_shown n.val
    refine ⟨?_, ?_, ?_, ?_, ⟨shown.parts, rfl, rfl⟩, shown.regs, shown.crown⟩
    · rw [Dev.rf, shown.status, Dev.gateStatus_states]
    · rw [Dev.rf, shown.status, Dev.gateStatus_entry]
    · rw [shown.gate]
    · rw [shown.gate]

end Sys2Proof.Machine
end

section
/-! SUPPORT. The refutation of `ConnectionTableRuns`. -/
namespace Sys2Proof.Machine

/-- A table that comes on has yet to report CLEAN (R492). -/
theorem Dev.ctEnable_clean_of_rises (s : Dev) (off : s.rb (barkReg 0) 31 = false) (on : (s.ctEnable true).rb (barkReg 0) 31 = true) :
    (s.ctEnable true).tap.clean = false := by
  have rises : ¬ true = s.rb (barkReg 0) 31 := by rw [off]; decide
  unfold Dev.ctEnable at on ⊢
  dsimp only at on ⊢
  rw [if_neg rises, if_pos rfl] at on ⊢
  split at on
  case isTrue taken => rw [if_pos taken]; rfl
  case isFalse =>
    rw [Dev.rb_setRb _ _ _ _ _ _ (by decide), if_neg (by decide), off] at on
    cases on

theorem exec_ctEnable_clean_of_rises {s t : State} {a : Acc} (opens : s.opens a (barkReg 0) = true)
    (off : s.dev.rb (barkReg 0) 31 = false) (step : exec (.ctEnable a true) s = .next t) (on : t.dev.rb (barkReg 0) 31 = true) :
    t.dev.tap.clean = false := by
  obtain ⟨runs, writable⟩ := s.opens_runs _ _ opens
  obtain ⟨x, y, written⟩ := Dev.writeEn_of_opens s.dev a (barkReg 0) true (·.ctEnable true) writable
  injection (s.onDev_runs (·.writeEn a (barkReg 0) true (·.ctEnable true)) runs).symm.trans step with target
  subst target
  dsimp only at on ⊢
  rw [written] at on ⊢
  exact Dev.ctEnable_clean_of_rises _ off on

/-- External memory of 2 GiB is ready, with the connection table on at its address 0, empty, in 1,024 buckets, and the overflow region
above it. The ballot counts toward STANDBY. -/
def tableCounts : State := { State.reset with dev :=
  ((((((State.reset.dev.setReg (trunkReg 0x8000) 0x80000000).setReg (trunkReg 0x8004) 0x80000002).setReg (trunkReg 0x8008) 2048).setReg
    (trunkReg 0x34) 0x70000000).setReg (barkReg 0) 0x800A0000).setRf (tapReg 0) 18 16 1).setReg (tapReg 4) 0x80020001 }

/-- Bark has then reported CLEAN (R492). -/
def tableClean : State := { tableCounts with dev := { tableCounts.dev with tap := { tableCounts.dev.tap with clean := true } } }

theorem exec_barkClean_tableCounts : exec .barkClean tableCounts = .next tableClean := rfl

/-- Host 0 as an agent. -/
def tableOwner : Acc := ⟨1, false⟩

/-- And the table, still empty, has been turned off. -/
def tableOff : State := { tableClean with dev := tableClean.dev.writeEn tableOwner (barkReg 0) false (·.ctEnable false) }

theorem exec_ctEnable_tableClean : exec (.ctEnable tableOwner false) tableClean = .next tableOff :=
  tableClean.onDev_runs (·.writeEn tableOwner (barkReg 0) false (·.ctEnable false)) (by decide)

theorem tableOff_clean : tableOff.dev.tap.clean = true := by decide

set_option maxRecDepth 8000 in
theorem tableOff_opens : tableOff.opens tableOwner (barkReg 0) = true := by decide

/-- Refutes O31: the clause on CT_ENABLE to 1 has Taproot stay as it was, and the model takes back there the CLEAN that Bark reported
(R492). While a ballot counts toward STANDBY Bark reports CLEAN, and the empty table is turned off; turned on again, it is clean no
more. -/
theorem not_connectionTableRuns : ¬ Obligations.ConnectionTableRuns := by
  unfold Obligations.ConnectionTableRuns
  rintro ⟨enabled, -⟩
  have off : tableOff.dev.rb (barkReg 0) 31 = false := by decide
  obtain ⟨t, step, on, -, -, ⟨⟨⟨keeps, -⟩, -, -⟩, -⟩⟩ := enabled tableOff tableOwner tableOff_opens off (by decide) (by decide)
    (by decide) (by decide) (by decide) (by decide) (by decide)
  have kept : t.dev.tap = tableOff.dev.tap := keeps .tap (by decide)
  have unclean := exec_ctEnable_clean_of_rises tableOff_opens off step on
  rw [kept, tableOff_clean] at unclean
  cases unclean

end Sys2Proof.Machine
end

section
/-! SUPPORT. The refutation of `LinChannelsRun`. -/
namespace Sys2Proof.Machine

/-- LIN channel 0 is on its bus, and source 0 of the ballot is that channel's NM_LIN source for identifier 0, not enabled. -/
def sourceDisabled : State := { State.reset with dev :=
  (State.reset.dev.setReg (linReg 0 0) 0x80000000).setReg (srcReg 0 0) 0x30000000 }

theorem exec_linResponseRx (s : State) (l : Fin 16) (id : BitVec 6) (data : List (BitVec 8)) (cksum : BitVec 8) (err : Option LinErr)
    (since : BitVec 32) (runs : s.dev.runs = true) : exec (.linResponseRx l id data cksum err since) s =
      .next { s with dev := s.dev.linResponse l.val id.toNat data cksum.toNat err since.toNat } :=
  s.onDev_runs (·.linResponse l.val id.toNat data cksum.toNat err since.toNat) runs

set_option maxRecDepth 8000 in
/-- The timer of source 0 has started, though the source is not enabled (R490). -/
theorem sourceDisabled_timer : (sourceDisabled.dev.linResponse 0 0 [] 0xFF none 0).tap.nm.get none 0 = some 0 := by decide

set_option maxRecDepth 8000 in
/-- Refutes O33: the clause on a response that no source names asks of the sources that are enabled alone, and has Taproot change in
nothing but the wakes under validation. A disabled NM_LIN source of the channel and the identifier runs its timer all the same (R490). -/
theorem not_linChannelsRun : ¬ Obligations.LinChannelsRun := by
  unfold Obligations.LinChannelsRun
  rintro ⟨-, -, -, -, -, -, -, -, -, -, -, -, response, -⟩
  have runs : sourceDisabled.dev.runs = true := by decide
  obtain ⟨t, step, -, -, -, -, -, -, tap⟩ := response sourceDisabled 0 0 [] 0xFF 0 runs (by decide) (by decide) (by decide) (by decide)
    (by decide) (by decide) (by decide)
  injection (exec_linResponseRx sourceDisabled 0 0 [] 0xFF none 0 runs).symm.trans step with target
  have kept : t.dev.tap.nm = [] := by rw [tap]; rfl
  have timer := sourceDisabled_timer
  rw [← target] at kept
  rw [show (sourceDisabled.dev.linResponse 0 0 [] 0xFF none 0).tap.nm = [] from kept] at timer
  cases timer

end Sys2Proof.Machine
end

section
/-! SUPPORT. Commands of a ring that answer at once and change tables of Roots: their frame, and the answer their driver finds (R68). -/
namespace Sys2Proof.Machine

section
variable {s : State} {d : CmdDesc} {cl un op : Nat} {mask : List Nat} {l : List Part} {w : List Nat} {t : Dev}

/-- A command that answers at once: its frame and its answer, from the frame of its own part. -/
theorem State.completes_of_changes (starts : s.starts d cl un op mask = true) (did : Dev.changes l w (s.dev.demand cl un) t)
    (kind : Option Nat) (st x y : Nat) : s.completes d l w { s with dev := t.complete d op kind st x y } ∧
      s.dev.basjo.answers d st x y (t.complete d op kind st x y).basjo := by
  obtain ⟨type, active⟩ := s.starts_ring d cl un op mask starts
  have events : s.dev.basjo.eventsOnly t.basjo := did.events
  have ring : s.dev.basjo.ringType d.host.val d.ring.val ≠ 4 := by rw [type]; decide
  have ring' : t.basjo.ringType d.host.val d.ring.val ≠ 4 := by rwa [events.ringType d.ring.isLt]
  have active' := (events.ringActive d.ring.isLt).trans active
  have writes := State.starts_writes starts
  have kept : s.dev.keeps (.regs :: .basjo :: .audit :: .clocks :: l) (t.complete d op kind st x y) :=
    (((s.dev.demand_keeps cl un).mono (by simp)).trans (did.parts.mono (List.cons_subset_cons _ (List.cons_subset_cons _ fun p hp => by simp [hp])))).trans
      ((t.complete_keeps d op kind st x y).mono (by simp))
  exact ⟨⟨⟨kept, rfl, rfl⟩, fun a ha => (t.complete_reg d op kind st x y a).trans (did.regs a ha),
    events.trans_done ring (t.complete_doneOnly d op kind st x y ring' active' writes)⟩,
    events.answers ring (t.complete_answers d op kind st x y ring' active' writes)⟩

/-- The completion of a command that starts and answers at once leaves the tables of Roots as its own part did. -/
theorem Completes.of_answer {i : Instr} {P : State → Prop} {kind : Option Nat} {body : Dev → CmdRes} {st x y : Nat}
    (meaning : exec i s = s.onDev (fun z => z.command d (isOne cl) (isOne un) op mask kind body))
    (starts : s.starts d cl un op mask = true) (answer : body (s.dev.demand cl un) = .done t st x y)
    (did : Dev.changes l w (s.dev.demand cl un) t)
    (hp : ∀ u : Dev, u.roots = t.roots → s.completes d l w { s with dev := u } → s.dev.basjo.answers d st x y u.basjo →
      P { s with dev := u }) : Completes i s P := by
  obtain ⟨frame, told⟩ := State.completes_of_changes starts did kind st x y
  exact .of_command meaning starts (decide_eq_true rfl) (decide_eq_true rfl) answer (hp _ (t.complete_roots d op kind st x y) frame told)

/-- A command that answers at once and changes nothing. -/
theorem Completes.of_reply {i : Instr} {kind : Option Nat} {body : Dev → CmdRes} {st x y : Nat}
    (meaning : exec i s = s.onDev (fun z => z.command d (isOne cl) (isOne un) op mask kind body))
    (starts : s.starts d cl un op mask = true) (answer : body (s.dev.demand cl un) = .done (s.dev.demand cl un) st x y) :
    Completes i s (fun t => s.completes d [] [] t ∧ s.dev.basjo.answers d st x y t.dev.basjo) :=
  .of_answer meaning starts answer (.refl _) (fun _ _ frame told => ⟨frame, told⟩)

end

/-! ## The stores of Roots -/

theorem Dev.onRoots_keeps (s : Dev) (f : Roots → Roots) : s.keeps [.roots] (s.onRoots f) := by
  intro p hp
  cases p with
  | roots => exact absurd (List.mem_singleton_self _) hp
  | _ => rfl

theorem Dev.onRoots_changes (s : Dev) (f : Roots → Roots) {l : List Part} {w : List Nat} (hl : .roots ∈ l) :
    Dev.changes l w s (s.onRoots f) :=
  .of_keeps ((s.onRoots_keeps f).mono (by simpa using hl)) rfl rfl

end Sys2Proof.Machine
end

section
/-! SUPPORT. The routing table under its commands (R331 to R334). -/
namespace Sys2Proof.Machine

/-- The words of an entry of the routing table. -/
abbrev Route := DWord × DWord × DWord

theorem Dev.route_congr {s t : Dev} (h : t.roots = s.roots) (k : Nat) : t.route k = s.route k := by rw [Dev.route, h]; rfl

section
variable (s : Dev) (i : Nat) (v : Option Route)

theorem Dev.route_setRoute_same : (s.setRoute i v).route i = v := Store.get_put_same _ _ _ _

theorem Dev.route_setRoute_ne {k : Nat} (hk : k ≠ i) : (s.setRoute i v).route k = s.route k := Store.get_put_ne _ _ _ _ hk

theorem Dev.setRoute_roots : (s.setRoute i v).roots = { s.roots with routes := (s.setRoute i v).roots.routes } := rfl

theorem Dev.setRoute_changes : Dev.changes [.roots] [rootsReg 4] s (s.setRoute i v) :=
  (s.onRoots_changes _ (by simp)).trans (Dev.setReg_changes _ _ _ (by simp))

end

/-! ## ROUTE_ADD -/

/-- What an entry must be to be added (R334): VALID, from a listed source, with BUS 0 from a channel, and with no bit of its identifier
outside the mask of its profile. -/
structure Dev.routeFits (s : Dev) (d : CmdDesc) : Prop where
  valid : bit d.p8 63 = true
  listed : s.srcListed (fld d.p8 62 57) = true
  bus : fld d.p8 62 57 = 24 ∨ fld d.p8 56 52 = 0
  masked : fld d.p8 28 0 &&& s.rf (rootsReg (0x1000 + 0x40 * fld d.p8 62 57 + 4 * fld d.p8 51 48)) 28 0 = fld d.p8 28 0

section
variable {s : Dev} {d : CmdDesc}

theorem Dev.routeAdd_of_invalid
    (invalid : bit d.p8 63 = false ∨ s.srcListed (fld d.p8 62 57) = false ∨ (fld d.p8 62 57 ≠ 24 ∧ fld d.p8 56 52 ≠ 0)) :
    s.routeAdd d = .done s stBadParam 0 0 := by
  unfold Dev.routeAdd
  dsimp only
  rw [if_pos]
  · rfl
  · obtain h | h | ⟨h, h'⟩ := invalid
    · simp [h]
    · simp [h]
    · simp [h, h']

theorem Dev.routeFits.passes (fits : s.routeFits d) : ¬ (!bit d.p8 63 || !s.srcListed (fld d.p8 62 57) ||
    (fld d.p8 62 57 ≠ 24 && fld d.p8 56 52 ≠ 0) || fld d.p8 28 0 &&&
      s.rf (rootsReg (0x1000 + 0x40 * fld d.p8 62 57 + 4 * fld d.p8 51 48)) 28 0 ≠ fld d.p8 28 0) = true := by
  obtain ⟨valid, listed, bus, masked⟩ := fits
  have channel : (decide (fld d.p8 62 57 ≠ 24) && decide (fld d.p8 56 52 ≠ 0)) = false := by
    obtain h | h := bus <;> simp [h]
  rw [channel]
  simp [valid, listed, masked]

theorem Dev.routeAdd_of_place {i : Nat} (fits : s.routeFits d) (place : s.findRoute d.p8 = some i ∨ (s.findRoute d.p8 = none ∧
      ((List.range 8).map (8 * s.routeBucket d.p8 + ·)).find? (fun j => (s.route j).isNone) = some i)) :
    s.routeAdd d = .done (s.setRoute i (some (d.p8, s.presentDests d.p16, d.p24))) stOk 0 0 := by
  unfold Dev.routeAdd
  dsimp only
  rw [if_neg fits.passes]
  obtain found | ⟨absent, free⟩ := place
  · simp only [found]
  · simp only [absent, free]

theorem Dev.routeAdd_of_full (fits : s.routeFits d) (absent : s.findRoute d.p8 = none)
    (full : ((List.range 8).map (8 * s.routeBucket d.p8 + ·)).find? (fun j => (s.route j).isNone) = none) :
    s.routeAdd d = .done s stFull 0 0 := by
  unfold Dev.routeAdd
  dsimp only
  rw [if_neg fits.passes]
  simp only [absent, full]
  rfl

/-! ## ROUTE_DEL and ROUTE_READ -/

theorem Dev.routeDel_of_found {i : Nat} (found : s.findRoute d.p8 = some i) : s.routeDel d = .done (s.setRoute i none) stOk 0 0 := by
  simp only [Dev.routeDel, found]

theorem Dev.routeDel_of_absent (absent : s.findRoute d.p8 = none) : s.routeDel d = .done s stNotFound 0 0 := by
  simp only [Dev.routeDel, absent, CmdRes.fail]

theorem Dev.routeRead_of_found {r : Route} (found : (s.findRoute d.p8).bind s.route = some r) :
    s.routeRead d = .done s stOk (fld r.2.2 63 32) r.2.1.toNat := by
  simp only [Dev.routeRead, found]

theorem Dev.routeRead_of_absent (absent : s.findRoute d.p8 = none) : s.routeRead d = .done s stNotFound 0 0 := by
  simp only [Dev.routeRead, absent, Option.bind_none, CmdRes.fail]

end

/-! ## ROUTE_FLUSH -/

theorem Store.get_of_below {α : Type} (d : α) {m : Store α} {k : Nat} (below : m.below k) : Store.get d m k = d := by
  induction m with
  | nil => rfl
  | cons e m ih =>
    obtain ⟨j, v⟩ := e
    have after : k ≠ j := Nat.ne_of_lt (below (j, v) (by simp))
    rw [Store.get, if_neg after]
    exact ih (fun e he => below e (List.mem_cons_of_mem _ he))

/-- What is kept of a canonical table by a test of its values: a value that fails the test reads as an unlisted one. -/
theorem Store.get_keep_of_wf {α : Type} [DecidableEq α] (d : α) (q : α → Bool) {m : Store α} (wf : m.wf (fun _ => d) = true) (k : Nat) :
    Store.get d (m.keep (fun _ v => q v)) k = if q (Store.get d m k) then Store.get d m k else d := by
  induction m with
  | nil => exact (ite_self d).symm
  | cons e m ih =>
    obtain ⟨j, v⟩ := e
    obtain ⟨-, below, wf'⟩ := (Store.wf_cons _ j v m).mp wf
    have cut : Store.keep (fun _ v => q v) ((j, v) :: m) =
        if q v then (j, v) :: Store.keep (fun _ v => q v) m else Store.keep (fun _ v => q v) m := List.filter_cons
    rw [cut]
    by_cases hj : k = j
    · subst hj
      split
      · next hq => simp [Store.get, hq]
      · next hq => simp [ih wf', Store.get_of_below d below, Store.get, hq]
    · split <;> simpa [Store.get, hj] using ih wf'

theorem Store.ne_of_mem_wf {α : Type} [DecidableEq α] {d : α} {m : Store α} (wf : m.wf (fun _ => d) = true) {e : Nat × α} (he : e ∈ m) :
    e.2 ≠ d := by
  induction m with
  | nil => cases he
  | cons e' m ih =>
    obtain ⟨differs, -, wf'⟩ := (Store.wf_cons _ e'.1 e'.2 m).mp wf
    obtain rfl | he := List.mem_cons.mp he
    · exact differs
    · exact ih wf' he

/-- What ROUTE_FLUSH selects: every entry, or those of a source. -/
def routeGoes (d : CmdDesc) (r : Option Route) : Bool := !bit d.p8 6 || r.any (fun r => decide (fld r.1 62 57 = fld d.p8 5 0))

/-- What ROUTE_FLUSH leaves. -/
def Dev.routesKept (s : Dev) (d : CmdDesc) : Dev :=
  (s.onRoots (fun r => { r with routes := r.routes.keep (fun _ r => !routeGoes d r) })).setReg (rootsReg 4)
    (BitVec.ofNat 32 (s.roots.routes.keep (fun _ r => !routeGoes d r)).length)

theorem Dev.routesKept_changes (s : Dev) (d : CmdDesc) : Dev.changes [.roots] [rootsReg 4] s (s.routesKept d) :=
  (s.onRoots_changes _ (by simp)).trans (Dev.setReg_changes _ _ _ (by simp))

theorem Dev.routeFlush_eq (s : Dev) (d : CmdDesc) :
    s.routeFlush d = .done (s.routesKept d) stOk (s.roots.routes.countP (fun e => routeGoes d e.2)) 0 := by
  have selects : (fun r : Option Route => !bit d.p8 6 || match r with | some r => decide (fld r.1 62 57 = fld d.p8 5 0) | none => false) =
      routeGoes d := by
    funext r
    cases r <;> rfl
  unfold Dev.routesKept
  rw [← selects]
  rfl

/-- In a canonical table the entries that ROUTE_FLUSH selects are removed, and no other. -/
theorem Dev.routesKept_route {s : Dev} (d : CmdDesc) (wf : s.roots.routes.wf (fun _ => none) = true) (k : Nat) :
    (s.routesKept d).route k = (s.route k).filter (fun r => bit d.p8 6 && decide (fld r.1 62 57 ≠ fld d.p8 5 0)) := by
  have left : (s.routesKept d).route k = if !routeGoes d (s.route k) then s.route k else none :=
    Store.get_keep_of_wf none (fun r => !routeGoes d r) wf k
  rw [left]
  cases s.route k with
  | none => exact ite_self none
  | some r => simp [routeGoes, Option.filter]

/-- In a canonical table every entry selected counts. -/
theorem countP_routeGoes {m : Store (Option Route)} (d : CmdDesc) (wf : m.wf (fun _ => none) = true) : m.countP (fun e => routeGoes d e.2) =
    m.countP (fun e => e.2.any (fun r => !bit d.p8 6 || decide (fld r.1 62 57 = fld d.p8 5 0))) := by
  refine List.countP_congr fun e he => ?_
  obtain ⟨r, hr⟩ := Option.ne_none_iff_exists'.mp (Store.ne_of_mem_wf wf he)
  simp [routeGoes, hr]

end Sys2Proof.Machine
end

section
/-! SUPPORT. The entries of authenticated CAN under their commands (R341, R347). -/
namespace Sys2Proof.Machine

theorem Dev.auth_congr {s t : Dev} (h : t.roots = s.roots) (k : Nat) : t.auth k = s.auth k := by rw [Dev.auth, h]; rfl

section
variable (s : Dev) (i : Nat) (v : Option AuthEntry)

theorem Dev.auth_setAuth_same : (s.setAuth i v).auth i = v := Store.get_put_same _ _ _ _

theorem Dev.auth_setAuth_ne {k : Nat} (hk : k ≠ i) : (s.setAuth i v).auth k = s.auth k := Store.get_put_ne _ _ _ _ hk

theorem Dev.setAuth_changes : Dev.changes [.roots] [] s (s.setAuth i v) := s.onRoots_changes _ (by simp)

end

/-- The entry that AUTH_SET spells (R347); its FAILS starts at 0 (log entry 38). -/
def authSpelt (d : CmdDesc) : AuthEntry :=
  ⟨bit d.p16 62, fld d.p16 61 52, fld d.p16 51 41, fld d.p16 40 37 + 1, fld d.p16 36 33, fld d.p16 32 26, d.p24.toNat, fld d.p32 63 32, 0,
    false⟩

/-- What AUTH_SET refuses. -/
def AuthEntry.outOfRange (e : AuthEntry) : Prop :=
  575 < e.slot ∨ 2043 < e.authLen ∨ 8 < e.fvTx ∨ e.fvWidth < 8 ∨ 64 < e.fvWidth ∨ 2 ^ e.fvWidth - 1 < e.fv

theorem AuthEntry.inRange {e : AuthEntry} (slot : e.slot ≤ 575) (authLen : e.authLen ≤ 2043) (fvTx : e.fvTx ≤ 8) (low : 8 ≤ e.fvWidth)
    (high : e.fvWidth ≤ 64) (fv : e.fv ≤ 2 ^ e.fvWidth - 1) : ¬ e.outOfRange := by
  unfold AuthEntry.outOfRange
  omega

section
variable {s : Dev} {d : CmdDesc}

theorem Dev.authSet_of_outOfRange (out : (authSpelt d).outOfRange) : s.authSet d = .done s stBadParam 0 0 := by
  unfold Dev.authSet
  exact if_pos out

theorem Dev.authSet_of_lower (inRange : ¬ (authSpelt d).outOfRange) {x : AuthEntry} (held : s.auth (fld d.p8 10 0) = some x)
    (key : x.slot = (authSpelt d).slot) (lower : (authSpelt d).fv < x.fv) : s.authSet d = .done s 0x40 0 0 := by
  refine (if_neg inRange).trans ?_
  simp only [held]
  exact if_pos (by rw [Bool.and_eq_true]; exact ⟨decide_eq_true key, decide_eq_true lower⟩)

theorem Dev.authSet_of_fresh (inRange : ¬ (authSpelt d).outOfRange)
    (fresh : (s.auth (fld d.p8 10 0)).all (fun x => !(decide (x.slot = (authSpelt d).slot) && decide ((authSpelt d).fv < x.fv))) = true) :
    s.authSet d = .done (s.setAuth (fld d.p8 10 0) (if bit d.p16 63 then some (authSpelt d) else none)) stOk 0 0 := by
  refine (if_neg inRange).trans ?_
  cases held : s.auth (fld d.p8 10 0) with
  | none => rfl
  | some x =>
    rw [held, Option.all_some, Bool.not_eq_true'] at fresh
    simp only []
    exact if_neg (by rw [Bool.not_eq_true]; exact fresh)

theorem Dev.authRead_of_used {e : AuthEntry} (used : s.auth (fld d.p8 10 0) = some e) :
    s.authRead d = .done s stOk e.fails.toNat e.fv := by
  simp only [Dev.authRead, used]

theorem Dev.authRead_of_empty (empty : s.auth (fld d.p8 10 0) = none) : s.authRead d = .done s stNotFound 0 0 := by
  simp only [Dev.authRead, empty, CmdRes.fail]

end

end Sys2Proof.Machine
end

section
/-! SUPPORT. Batches of the encapsulation streams: how one closes, by its hold time and by the fall of EN (R335, R338). -/
namespace Sys2Proof.Machine

theorem Dev.batch_setBatch_same (s : Dev) (st : Nat) (b : Option Batch) : (s.setBatch st b).batch st = b := Store.get_put_same _ _ _ _

theorem Dev.batch_setBatch_ne (s : Dev) (b : Option Batch) {st k : Nat} (hk : k ≠ st) : (s.setBatch st b).batch k = s.batch k :=
  Store.get_put_ne _ _ _ _ hk

theorem Dev.offerRoots_of_busy {s : Dev} (busy : (s.rxOf 39).isSome = true) : s.offerRoots = s := by
  unfold Dev.offerRoots
  split
  · rfl
  · exact if_pos (by rw [busy]; rfl)

/-- The octets of the frame that a batch makes (R335), with the next sequence number. -/
def Dev.encFrame (s : Dev) (st : Nat) (b : Batch) : List Byte :=
  let o := s.encHeader st b.octets.length (s.rf (encReg st 0x1C) 7 0) ++ b.octets
  o ++ zeros (60 - o.length)

/-- A batch that has closed: its frame waits for P39 behind the others. -/
def Dev.batchClosed (s : Dev) (st : Nat) (b : Batch) : Dev :=
  ((s.setBatch st none).setRf (encReg st 0x1C) 7 0 (s.rf (encReg st 0x1C) 7 0 + 1)).onRoots
    (fun r => { r with closed := r.closed ++ [(b.group, s.encFrame st b)] })

section
variable {s : Dev} {st : Nat} {b : Batch}

theorem Dev.closeBatch_of_none (idle : s.batch st = none) : s.closeBatch st = s := by
  unfold Dev.closeBatch
  rw [idle]

theorem Dev.closeBatch_of_room (opened : s.batch st = some b) (room : s.roots.closed.length < 64) (busy : (s.rxOf 39).isSome = true) :
    s.closeBatch st = s.batchClosed st b := by
  unfold Dev.closeBatch
  rw [opened]
  exact (if_neg (Nat.not_le.mpr room)).trans (Dev.offerRoots_of_busy (s := s.batchClosed st b) busy)

end

section
variable (s : Dev) (st : Nat) (b : Batch)

theorem Dev.batchClosed_changes : Dev.changes [.roots] [encReg st 0x1C] s (s.batchClosed st b) :=
  ((s.onRoots_changes _ (by simp)).trans (Dev.setReg_changes _ _ _ (by simp))).trans (Dev.onRoots_changes _ _ (by simp))

theorem Dev.batchClosed_batch_same : (s.batchClosed st b).batch st = none := s.batch_setBatch_same st none

theorem Dev.batchClosed_batch_ne {k : Nat} (hk : k ≠ st) : (s.batchClosed st b).batch k = s.batch k := s.batch_setBatch_ne none hk

theorem Dev.batchClosed_seq : (s.batchClosed st b).rf (encReg st 0x1C) 7 0 = (s.rf (encReg st 0x1C) 7 0 + 1) % 256 :=
  (s.setBatch st none).rf_setRf_same _ _ _ _ (by decide)

theorem Dev.batchClosed_closed : (s.batchClosed st b).roots.closed = s.roots.closed ++ [(b.group, s.encFrame st b)] := rfl

theorem Dev.batchClosed_roots : (s.batchClosed st b).roots =
    { s.roots with batches := (s.batchClosed st b).roots.batches, closed := (s.batchClosed st b).roots.closed } := rfl

end

/-- What closing a stream's batch, if one is open, comes to where there is room behind P39 (R338). -/
structure Dev.closes (st : Nat) (s t : Dev) : Prop where
  idle : t.batch st = none
  groups : t.roots.closed.map (·.1) = s.roots.closed.map (·.1) ++ (s.batch st).toList.map (·.group)
  changes : Dev.changes [.roots] [encReg st 0x1C] s t
  roots : t.roots = { s.roots with batches := t.roots.batches, closed := t.roots.closed }

theorem Dev.closeBatch_closes {s : Dev} (st : Nat) (room : s.roots.closed.length < 64) (busy : (s.rxOf 39).isSome = true) :
    Dev.closes st s (s.closeBatch st) := by
  cases opened : s.batch st with
  | none =>
    rw [Dev.closeBatch_of_none opened]
    exact ⟨opened, by simp [opened], .refl s, rfl⟩
  | some b =>
    rw [Dev.closeBatch_of_room opened room busy]
    exact ⟨s.batchClosed_batch_same st b, by simp [opened, Dev.batchClosed_closed], s.batchClosed_changes st b, rfl⟩

/-! ## ENC_BATCH_HOLD_EXPIRY -/

/-- What the end of a hold time has for effect. -/
def Dev.holdExpiry (s : Dev) (st : Nat) : Dev :=
  match s.batch st with
  | some b => if s.now ≥ b.since + s.rf (encReg st 4) 9 0 * usRaw then s.closeBatch st else s
  | none => s

theorem exec_encBatchHoldExpiry (st : Fin 256) (s : State) : exec (.encBatchHoldExpiry st) s = s.onDev (·.holdExpiry st.val) := rfl

theorem Dev.holdExpiry_of_open {s : Dev} {st : Nat} {b : Batch} (opened : s.batch st = some b) : s.holdExpiry st =
    if s.now ≥ b.since + s.rf (encReg st 4) 9 0 * usRaw then s.closeBatch st else s := by
  simp only [Dev.holdExpiry, opened]

/-! ## ENC_DISABLE -/

/-- What a write of EN has for effect. -/
def Dev.encWrite (s : Dev) (st : Nat) (en : Bool) : Dev :=
  if en = s.rb (encReg st 0) 31 then s
  else if en then (s.setRb (encReg st 0) 31 true).setRf (encReg st 0x1C) 7 0 0
  else (s.closeBatch st).setRb (encReg st 0) 31 false

theorem exec_encDisable (a : Acc) (st : Fin 256) (en : Bool) (s : State) :
    exec (.encDisable a st en) s = s.onDev (fun x => x.writeEn a (encReg st.val 0) en (·.encWrite st.val en)) := rfl

section
variable {s : Dev} {st : Nat}

theorem Dev.encWrite_of_rise (off : s.rb (encReg st 0) 31 = false) :
    s.encWrite st true = (s.setRb (encReg st 0) 31 true).setRf (encReg st 0x1C) 7 0 0 := by
  unfold Dev.encWrite
  rw [off]
  rfl

theorem Dev.encWrite_of_fall (on : s.rb (encReg st 0) 31 = true) :
    s.encWrite st false = (s.closeBatch st).setRb (encReg st 0) 31 false := by
  unfold Dev.encWrite
  rw [on]
  rfl

theorem encReg_ctl_ne_seq (st : Nat) : encReg st 0 ≠ encReg st 0x1C := by
  simp only [encReg, rootsReg]
  omega

theorem Dev.encWrite_rise_changes (off : s.rb (encReg st 0) 31 = false) {l : List Part} :
    Dev.changes l [encReg st 0, encReg st 0x1C] s (s.encWrite st true) := by
  rw [Dev.encWrite_of_rise off]
  exact (s.setReg_changes _ _ (by simp)).trans (Dev.setReg_changes _ _ _ (by simp))

theorem Dev.encWrite_rise_ctl (off : s.rb (encReg st 0) 31 = false) :
    (s.encWrite st true).reg (encReg st 0) = setBit (s.reg (encReg st 0)) 31 true := by
  rw [Dev.encWrite_of_rise off, Dev.reg_setRf, if_neg (encReg_ctl_ne_seq st), Dev.reg_setRb, if_pos rfl]

theorem Dev.encWrite_rise_seq (off : s.rb (encReg st 0) 31 = false) : (s.encWrite st true).rf (encReg st 0x1C) 7 0 = 0 := by
  rw [Dev.encWrite_of_rise off]
  exact Dev.rf_setRf_same _ _ _ _ _ (by decide)

theorem Dev.closes.disabled {t : Dev} (closed : Dev.closes st s t) :
    (t.setRb (encReg st 0) 31 false).reg (encReg st 0) = setBit (s.reg (encReg st 0)) 31 false ∧
      Dev.changes [.roots] [encReg st 0, encReg st 0x1C] s (t.setRb (encReg st 0) 31 false) := by
  refine ⟨?_, (closed.changes.mono (by simp) (by simp)).trans (t.setReg_changes _ _ (by simp))⟩
  rw [Dev.reg_setRb, if_pos rfl, closed.changes.regs _ (by simp)]

end

end Sys2Proof.Machine
end

section
/-! SUPPORT. What giving up a frame, and an uncorrectable error in a bank, leave of the other frames and of the registers (R184, R185,
R190, R526). -/
namespace Sys2Proof.Machine

/-! ## Frames stored and queues -/

/-- The frames stored and the queues are as they were. -/
structure Trunk.sameFrames (k k' : Trunk) : Prop where
  frames : k'.frames = k.frames
  queues : k'.queues = k.queues

theorem Trunk.sameFrames.trans {k k' k'' : Trunk} (h : k.sameFrames k') (h' : k'.sameFrames k'') : k.sameFrames k'' :=
  ⟨h'.frames.trans h.frames, h'.queues.trans h.queues⟩

section
variable {k : Trunk} {s : Dev} (same : k.sameFrames s.trunk)
include same

theorem Dev.pressure_sameFrames : k.sameFrames s.pressure.trunk := by
  have gauged := s.pressure_trunk
  unfold Trunk.gaugedTo at gauged
  rw [gauged]
  exact same.trans ⟨rfl, rfl⟩

theorem Dev.banksGo_sameFrames : k.sameFrames s.banksGo.trunk := by
  unfold Dev.banksGo
  split
  · exact same
  · exact same.trans ⟨rfl, rfl⟩

theorem Dev.giveCells_sameFrames (p n : Nat) : k.sameFrames (s.giveCells p n).trunk := by
  unfold Dev.giveCells
  exact Dev.pressure_sameFrames (Dev.banksGo_sameFrames same)

theorem Dev.giveDesc_sameFrames : k.sameFrames s.giveDesc.trunk := by
  unfold Dev.giveDesc
  exact Dev.pressure_sameFrames same

end

theorem Dev.leaveVersion_trunk (s : Dev) (tag : Option Nat) : (s.leaveVersion tag).trunk = s.trunk := by cases tag <;> rfl

theorem Trunk.sameFrames.stored {s t : Dev} (h : s.trunk.sameFrames t.trunk) (id : Nat) : t.stored id = s.stored id := by
  rw [Dev.stored, h.frames]
  rfl

theorem Trunk.sameFrames.refl (k : Trunk) : k.sameFrames k := ⟨rfl, rfl⟩

theorem Dev.stored_setStored_same (s : Dev) (id : Nat) (f : Option Stored) : (s.setStored id f).stored id = f := Store.get_put_same _ _ _ _

section
variable {s : Dev} {id : Nat} {f : Stored}

/-- A frame given up is gone with its last reference (R192). -/
theorem Dev.release_stored (held : s.stored id = some f) :
    (s.release id).stored id = if f.refs ≤ 1 then none else some { f with refs := f.refs - 1 } := by
  unfold Dev.release
  rw [held]
  dsimp only
  split
  · refine (congrArg (fun k : Trunk => k.frames.get none id) (Dev.leaveVersion_trunk _ _)).trans ?_
    exact ((Dev.giveCells_sameFrames (.refl _) _ _).stored id).trans (s.stored_setStored_same id none)
  · exact s.stored_setStored_same id _

theorem Dev.release_queues (s : Dev) (id : Nat) : (s.release id).trunk.queues = s.trunk.queues := by
  unfold Dev.release
  split
  · rfl
  · split
    · rw [Dev.leaveVersion_trunk]
      exact (Dev.giveCells_sameFrames (.refl (s.setStored id none).trunk) _ _).queues
    · rfl

end

/-! ## Registers -/

section
variable {l : List Part} {w : List Nat}

theorem Dev.withTrunk_changes (s : Dev) (k : Trunk) (hl : .trunk ∈ l) : Dev.changes l w s { s with trunk := k } :=
  .of_keeps ((s.withTrunk_keeps k).mono (by simpa using hl)) rfl rfl

theorem Dev.banksGo_changes (s : Dev) (hl : .trunk ∈ l) (hw : trunkReg 0 ∈ w) : Dev.changes l w s s.banksGo := by
  unfold Dev.banksGo
  split
  · exact .refl s
  · exact (s.withTrunk_changes _ hl).trans (Dev.setReg_changes _ _ _ hw)

theorem Dev.giveCells_changes (s : Dev) (p n : Nat) : Dev.changes [.trunk] (cellGauges p) s (s.giveCells p n) :=
  (((s.setReg_changes _ _ (by simp)).trans (Dev.setReg_changes _ _ _ (by simp))).trans
    (Dev.banksGo_changes _ (by simp) (by simp))).trans (Dev.pressure_changes _)

theorem Dev.giveDesc_changes (s : Dev) : Dev.changes [.trunk] [trunkReg 4] s s.giveDesc :=
  (s.setReg_changes _ _ (by simp)).trans (Dev.pressure_changes _)

theorem Dev.leaveVersion_changes (s : Dev) (tag : Option Nat) : Dev.changes l [verReg (tag.getD 0) 0x14] s (s.leaveVersion tag) := by
  cases tag with
  | none => exact .refl s
  | some v => exact s.setReg_changes _ _ (by simp)

/-- The gauges that move when a frame's descriptor and the frame are given up (R190, R35). -/
def frameGauges (f : Stored) : List Nat := trunkReg 4 :: verReg (f.tag.getD 0) 0x14 :: cellGauges f.inPort

theorem Dev.release_changes {s : Dev} {id : Nat} {f : Stored} (held : s.stored id = some f) :
    Dev.changes [.trunk] (frameGauges f) s (s.release id) := by
  unfold Dev.release
  rw [held]
  dsimp only
  split
  · exact ((s.withTrunk_changes _ (by simp)).trans ((Dev.giveCells_changes _ _ _).mono (by simp) (by simp [frameGauges]))).trans
      ((Dev.leaveVersion_changes _ _).mono (List.Subset.refl _) (by simp [frameGauges]))
  · exact s.withTrunk_changes _ (by simp)

theorem rootsReg_not_frameGauge (f : Stored) {o : Nat} (ho : o = 0x10 ∨ o = 0x20) : rootsReg o ∉ frameGauges f := by
  simp only [frameGauges, cellGauges, rootsReg, trunkReg, verReg, List.mem_cons, List.not_mem_nil, or_false]
  omega

theorem spoiledCount_not_frameGauge (f : Stored) : trunkReg 0x48 ∉ frameGauges f := by
  simp only [frameGauges, cellGauges, trunkReg, verReg, List.mem_cons, List.not_mem_nil, or_false]
  omega

/-! ## An uncorrectable error in cell data (R184, R185, R526) -/

theorem Dev.withRas_keeps (s : Dev) (x : Ras) : s.keeps [.ras] { s with ras := x } := by
  intro p hp
  cases p with
  | ras => exact absurd (List.mem_singleton_self _) hp
  | _ => rfl

theorem Dev.withRas_changes (s : Dev) (x : Ras) (hl : .ras ∈ l) : Dev.changes l w s { s with ras := x } :=
  .of_keeps ((s.withRas_keeps x).mono (by simpa using hl)) rfl rfl

theorem Dev.spareEvent_changes (s : Dev) (cause c u x : Nat) (hl : .audit ∈ l) : Dev.changes l w s (s.spareEvent cause c u x) := by
  refine (s.raise_changes 57 cause c u x s.tick).trans ⟨?_, fun _ _ => Dev.logHw_reg .., Dev.logHw_eventsOnly _ _ _ _ _ _⟩
  exact (Dev.log_keeps _ _ _ _ _ _ _ _ _).mono (by simpa using hl)

/-- A bank that can no longer be taken: the capacity has fallen and its place is on the list of those lost. -/
def Dev.bankOut (s : Dev) (x : Retire) : Dev :=
  let s := s.setRf (trunkReg 8) 16 0 (s.rf (trunkReg 8) 16 0 - 4096)
  { s with trunk := { s.trunk with leaving := s.trunk.leaving ++ [x], lost := s.trunk.lost ++ [x.place] } }

theorem Dev.bankLost_eq (s : Dev) (x : Retire) : s.bankLost x = (s.bankOut x).banksGo.pressure.spareEvent 3 0x20 0 0 := by
  unfold Dev.bankLost Dev.bankOut
  rfl

theorem Dev.bankLost_changes (s : Dev) (x : Retire) (audit : .audit ∈ l) (trunk : .trunk ∈ l) :
    Dev.changes l [trunkReg 0, trunkReg 8] s (s.bankLost x) := by
  rw [Dev.bankLost_eq]
  have out : Dev.changes l [trunkReg 0, trunkReg 8] s (s.bankOut x) :=
    (s.setReg_changes (trunkReg 8) _ (by simp)).trans (Dev.withTrunk_changes _ _ trunk)
  exact ((out.trans (Dev.banksGo_changes _ trunk (by simp))).trans
    ((Dev.pressure_changes _).mono (by simpa using trunk) (List.Subset.refl _))).trans (Dev.spareEvent_changes _ _ _ _ _ audit)

theorem Dev.bankLost_sameFrames (s : Dev) (x : Retire) : s.trunk.sameFrames (s.bankLost x).trunk :=
  have out : s.trunk.sameFrames (s.bankOut x).trunk := ⟨rfl, rfl⟩
  Dev.pressure_sameFrames (Dev.banksGo_sameFrames out)

/-- A bank is marked as out of service. -/
def Dev.bankMarked (s : Dev) (b : Nat) : Dev := { s with ras := { s.ras with banksOut := s.ras.banksOut + 2 ^ b } }

theorem Dev.bankMarked_changes (s : Dev) (b : Nat) (hl : .ras ∈ l) : Dev.changes l w s (s.bankMarked b) := s.withRas_changes _ hl

/-- A bank to retire does not serve, waits for its copy, or is lost. -/
theorem Dev.retireBank_cases (s : Dev) (b : Nat) : s.retireBank b = s ∨
    (∃ k, s.trunk.sameFrames k ∧ s.retireBank b = { s.bankMarked b with trunk := k }) ∨ ∃ x, s.retireBank b = (s.bankMarked b).bankLost x := by
  unfold Dev.retireBank
  split
  · exact .inl rfl
  · dsimp only
    split
    · exact .inr (.inl ⟨_, by constructor <;> rfl, rfl⟩)
    · split
      · exact .inr (.inr ⟨_, rfl⟩)
      · exact .inr (.inl ⟨_, by constructor <;> rfl, rfl⟩)

theorem Dev.retireBank_changes (s : Dev) (b : Nat) :
    Dev.changes [.audit, .trunk, .ras] [trunkReg 0, trunkReg 8] s (s.retireBank b) := by
  obtain e | ⟨k, -, e⟩ | ⟨x, e⟩ := s.retireBank_cases b <;> rw [e]
  · exact .refl s
  · exact (s.bankMarked_changes b (by simp)).trans (Dev.withTrunk_changes _ k (by simp))
  · exact (s.bankMarked_changes b (by simp)).trans (Dev.bankLost_changes _ x (by simp) (by simp))

theorem Dev.retireBank_sameFrames (s : Dev) (b : Nat) : s.trunk.sameFrames (s.retireBank b).trunk := by
  obtain e | ⟨k, same, e⟩ | ⟨x, e⟩ := s.retireBank_cases b <;> rw [e]
  · exact .refl _
  · exact same
  · exact (s.bankMarked b).bankLost_sameFrames x

theorem Dev.cellError_changes (s : Dev) (b : Nat) : Dev.changes [.audit, .trunk, .ras] [trunkReg 0, trunkReg 8] s (s.cellError b) :=
  ((s.withRas_changes _ (by simp)).trans (Dev.raise_changes _ _ _ _ _ _ _)).trans (Dev.retireBank_changes _ _)

theorem Dev.cellError_sameFrames (s : Dev) (b : Nat) : s.trunk.sameFrames (s.cellError b).trunk :=
  ((s.countUe 0x20 0).eccTrend 2 0x20 0).retireBank_sameFrames b

end

end Sys2Proof.Machine
end

section
/-! SUPPORT. The decapsulator: the frame it takes, its one message, and how it gives the frame back (R340, R185). -/
namespace Sys2Proof.Machine

section
variable {l : List Part} {w : List Nat}

/-- The frame at the head of P39 is taken, and the others stay. -/
def Dev.decapRest (s : Dev) (r : List Nat) : Dev := { s with decap := r }

theorem Dev.decapRest_changes (s : Dev) (r : List Nat) (hl : .decap ∈ l) : Dev.changes l w s (s.decapRest r) := by
  refine .of_keeps (l := l) (fun p hp => ?_) rfl rfl
  cases p with
  | decap => exact absurd hl hp
  | _ => rfl

/-! ## A frame given back -/

section
variable {s : Dev} {id : Nat} {f : Stored} (held : s.stored id = some f)
include held

theorem Dev.giveDesc_stored : s.giveDesc.stored id = some f := ((Dev.giveDesc_sameFrames (.refl _)).stored id).trans held

theorem Dev.giveBack_changes : Dev.changes [.trunk] (frameGauges f) s (s.giveDesc.release id) :=
  (s.giveDesc_changes.mono (List.Subset.refl _) (by simp [frameGauges])).trans (Dev.release_changes (Dev.giveDesc_stored held))

theorem Dev.giveBack_stored :
    (s.giveDesc.release id).stored id = if f.refs ≤ 1 then none else some { f with refs := f.refs - 1 } :=
  Dev.release_stored (Dev.giveDesc_stored held)

end

theorem Dev.giveBack_queues (s : Dev) (id : Nat) : (s.giveDesc.release id).trunk.queues = s.trunk.queues :=
  (s.giveDesc.release_queues id).trans (Dev.giveDesc_sameFrames (.refl _)).queues

/-- What stands when the frame at the head of P39 is given back: the rest of the queue, the frames, and what the taking changed. -/
structure Dev.servedFrame (id : Nat) (r : List Nat) (f : Stored) (w : List Nat) (s t : Dev) : Prop where
  decap : t.decap = r
  queues : t.trunk.queues = s.trunk.queues
  stored : t.stored id = if f.refs ≤ 1 then none else some { f with refs := f.refs - 1 }
  changes : Dev.changes [.decap, .trunk] (w ++ frameGauges f) s t

section
variable {s x : Dev} {id : Nat} {r : List Nat} {f : Stored} (held : s.stored id = some f) (took : Dev.changes [] w (s.decapRest r) x)
include held took

theorem Dev.changes.stored_decap : x.stored id = some f :=
  (congrArg (fun k : Trunk => k.frames.get none id) (took.part (p := .trunk) (by simp))).trans held

theorem Dev.giveBack_servedFrame : Dev.servedFrame id r f w s (x.giveDesc.release id) where
  decap := ((Dev.giveBack_changes (took.stored_decap held)).part (p := .decap) (by simp)).trans (took.part (p := .decap) (by simp))
  queues := (x.giveBack_queues id).trans (congrArg Trunk.queues (took.part (p := .trunk) (by simp)))
  stored := Dev.giveBack_stored (took.stored_decap held)
  changes := ((s.decapRest_changes r (by simp)).trans (took.mono (by simp) (List.subset_append_left _ _))).trans
    ((Dev.giveBack_changes (took.stored_decap held)).mono (by simp) (List.subset_append_right _ _))

theorem Dev.giveBack_reg {a : Nat} (ha : a ∉ frameGauges f) : (x.giveDesc.release id).reg a = x.reg a :=
  (Dev.giveBack_changes (took.stored_decap held)).regs a ha

end

theorem Dev.servedFrame.keeps {s : State} {t : Dev} {id : Nat} {r : List Nat} {f : Stored} (h : Dev.servedFrame id r f w s.dev t) :
    s.keeps [.regs, .basjo, .audit, .decap, .trunk] { s with dev := t } :=
  h.changes.ofState.parts

/-! ## What the decapsulator finds in a frame -/

/-- The messages of a frame pass the gateway; a frame of no messages is counted. -/
def Dev.decapTake (s : Dev) (f : Stored) : Dev :=
  let all := s.edit 39 f
  let at_ := 14 + 4 * (vlanTags all).1
  let o := all.drop at_
  let len := beAt o 1 2 % 2048
  if beAt all (at_ - 2) 2 ≠ 0x22F0 ∨ o.getD 0 0 ≠ 0x82 ∨ 12 + len > o.length then s.decapErr 1
  else s.decapMessages f.zone len ((o.drop 12).take len)

theorem Dev.decapErr_changes (s : Dev) (cause : Nat) : Dev.changes l [rootsReg 0x20] s (s.decapErr cause) := by
  unfold Dev.decapErr Dev.acfErr
  exact (s.setReg_changes cDecapErr _ (by simp [cDecapErr])).trans (Dev.raiseRated_changes _ _ _ _ _ _ _ _ _)

theorem Dev.decapErr_reg (s : Dev) (cause : Nat) : (s.decapErr cause).reg (rootsReg 0x20) = satAdd (s.reg (rootsReg 0x20)) 1 := by
  unfold Dev.decapErr Dev.acfErr
  rw [Dev.raiseRated_reg, Dev.reg_count, if_pos rfl]

theorem Dev.routeMiss_changes (s : Dev) (m : Msg) : Dev.changes l [rootsReg 0x10] s (s.routeMiss m) :=
  (s.setReg_changes _ _ (by simp)).trans (Dev.raiseRated_changes _ _ _ _ _ _ _ _ _)

theorem Dev.routeMiss_reg (s : Dev) (m : Msg) : (s.routeMiss m).reg (rootsReg 0x10) = satAdd (s.reg (rootsReg 0x10)) 1 :=
  (Dev.raiseRated_reg _ _ _ _ _ _ _ _ _ _).trans ((s.reg_count _ _ _).trans (if_pos rfl))

theorem Dev.decapTake_of_otherType {s : Dev} {f : Stored}
    (other : beAt (s.edit 39 f) (14 + 4 * (vlanTags (s.edit 39 f)).1 - 2) 2 ≠ 0x22F0) : s.decapTake f = s.decapErr 1 :=
  if_pos (.inl other)

section
variable {s : Dev} {m : Msg}

theorem Dev.canFilter_of_unfiltered (off : s.rb (barkReg (0x1400 + 4 * m.src)) 31 = false) : s.canFilter m = (s, true) := by
  unfold Dev.canFilter
  exact if_pos (by rw [off]; simp)

theorem Dev.udsCheck_of_notChannel (other : 24 ≤ m.src) : s.udsCheck m = (s, true) := if_pos other

/-- A message of no channel that the filter lets pass and no entry of the table matches is a miss (R333). -/
theorem Dev.gateway_of_unrouted (other : 24 ≤ m.src) (off : s.rb (barkReg (0x1400 + 4 * m.src)) 31 = false)
    (unrouted : s.lookupRoute m = none) : s.gateway m = s.routeMiss m := by
  unfold Dev.gateway
  rw [Dev.canFilter_of_unfiltered off]
  dsimp only
  rw [Dev.udsCheck_of_notChannel other]
  dsimp only
  rw [unrouted]

theorem Dev.decapMessages_nil (s : Dev) (zone k : Nat) : s.decapMessages zone k [] = s := by cases k <;> rfl

/-- A frame of one message sends it through the gateway, as of source 24. -/
theorem Dev.decapMessages_of_single {zone k bus : Nat} {lin : Bool} {c : CanFrame} {msg : List Byte} (some_ : msg ≠ [])
    (whole : beAt msg 0 2 % 512 * 4 = msg.length) (spells : acfFrame msg = some (bus, lin, c)) :
    s.decapMessages zone (k + 1) msg = s.gateway ⟨24, bus, zone, s.now, lin, c⟩ := by
  cases msg with
  | nil => exact absurd rfl some_
  | cons x y =>
    unfold Dev.decapMessages
    dsimp only
    rw [whole, if_neg (by simp), List.take_length, List.drop_length, spells, Dev.decapMessages_nil]

end

theorem Dev.decapTake_of_single {s : Dev} {f : Stored} {at_ bus : Nat} {lin : Bool} {msg : List Byte} {c : CanFrame}
    (tags : at_ = 14 + 4 * (vlanTags (s.edit 39 f)).1) (type : beAt (s.edit 39 f) (at_ - 2) 2 = 0x22F0)
    (subtype : ((s.edit 39 f).drop at_).getD 0 0 = (0x82 : Byte))
    (fits : 12 + beAt ((s.edit 39 f).drop at_) 1 2 % 2048 ≤ ((s.edit 39 f).drop at_).length)
    (body : msg = (((s.edit 39 f).drop at_).drop 12).take (beAt ((s.edit 39 f).drop at_) 1 2 % 2048)) (some_ : msg ≠ [])
    (whole : beAt msg 0 2 % 512 * 4 = msg.length) (spells : acfFrame msg = some (bus, lin, c)) :
    s.decapTake f = s.gateway ⟨24, bus, f.zone, s.now, lin, c⟩ := by
  subst tags
  obtain ⟨k, long⟩ : ∃ k, beAt ((s.edit 39 f).drop (14 + 4 * (vlanTags (s.edit 39 f)).1)) 1 2 % 2048 = k + 1 :=
    Nat.exists_eq_succ_of_ne_zero (fun zero => some_ (by rw [body, zero, List.take_zero]))
  unfold Dev.decapTake
  dsimp only
  rw [if_neg (by rw [type, subtype]; simpa using fits), ← body, long]
  exact Dev.decapMessages_of_single some_ whole spells

theorem Dev.decapNext_of_frame {s : Dev} {id : Nat} {r : List Nat} {f : Stored} (queue : s.decap = id :: r) (held : s.stored id = some f) :
    s.decapNext = ((s.decapRest r).decapTake f).giveDesc.release id := by
  have held' : ({ s with decap := r } : Dev).stored id = some f := held
  unfold Dev.decapNext
  rw [queue]
  dsimp only
  rw [held']
  rfl

/-! ## DECAP_FRAME -/

/-- What DECAP_FRAME does. -/
def Dev.decapRead (s : Dev) (ue : Option (Fin 18)) : Dev :=
  match ue, s.decap with
  | some b, id :: rest => if s.bankHolds b.val then (s.decapRest rest).dropRead id b.val else s.decapNext
  | _, _ => s.decapNext

theorem exec_decapFrame (ue : Option (Fin 18)) (s : State) : exec (.decapFrame ue) s = s.onDev (·.decapRead ue) := rfl

section
variable {s : Dev}

theorem Dev.decapRead_of_sound {ue : Option (Fin 18)} (sound : ue.all (fun b => !s.bankHolds b.val) = true) :
    s.decapRead ue = s.decapNext := by
  unfold Dev.decapRead
  split
  · next b id rest queue =>
    rw [Option.all_some, Bool.not_eq_true'] at sound
    rw [sound]
    rfl
  · rfl

theorem Dev.decapRead_of_spoiled {b : Fin 18} {id : Nat} {r : List Nat} (queue : s.decap = id :: r) (holds : s.bankHolds b.val = true) :
    s.decapRead (some b) = (s.decapRest r).dropRead id b.val := by
  unfold Dev.decapRead
  rw [queue]
  exact if_pos holds

theorem Dev.decapRead_of_empty (ue : Option (Fin 18)) (empty : s.decap = []) : s.decapRead ue = s := by
  have idle : s.decapNext = s := by
    unfold Dev.decapNext
    rw [empty]
  unfold Dev.decapRead
  rw [empty]
  cases ue <;> exact idle

/-! ## The frame the decapsulator serves -/

section
variable {id : Nat} {r : List Nat} {f : Stored} (queue : s.decap = id :: r) (held : s.stored id = some f)
include queue held

theorem Dev.decapNext_of_otherType (other : beAt (s.edit 39 f) (14 + 4 * (vlanTags (s.edit 39 f)).1 - 2) 2 ≠ 0x22F0) :
    Dev.servedFrame id r f [rootsReg 0x20] s s.decapNext ∧ s.decapNext.reg (rootsReg 0x20) = satAdd (s.reg (rootsReg 0x20)) 1 := by
  have took : Dev.changes [] _ (s.decapRest r) _ := (s.decapRest r).decapErr_changes 1
  rw [Dev.decapNext_of_frame queue held, Dev.decapTake_of_otherType (s := s.decapRest r) other]
  exact ⟨Dev.giveBack_servedFrame held took,
    (Dev.giveBack_reg held took (rootsReg_not_frameGauge f (.inr rfl))).trans ((s.decapRest r).decapErr_reg 1)⟩

/-- The message of a frame that holds one, with no route, is a miss (R333). -/
theorem Dev.decapNext_of_unrouted {m : Msg} (single : (s.decapRest r).decapTake f = (s.decapRest r).gateway m) (other : 24 ≤ m.src)
    (off : s.rb (barkReg (0x1400 + 4 * m.src)) 31 = false) (unrouted : s.lookupRoute m = none) :
    Dev.servedFrame id r f [rootsReg 0x10] s s.decapNext ∧ s.decapNext.reg (rootsReg 0x10) = satAdd (s.reg (rootsReg 0x10)) 1 ∧
      s.decapNext.reg (rootsReg 0x20) = s.reg (rootsReg 0x20) := by
  have took : Dev.changes [] _ (s.decapRest r) _ := (s.decapRest r).routeMiss_changes m
  rw [Dev.decapNext_of_frame queue held, single, Dev.gateway_of_unrouted (s := s.decapRest r) other off unrouted]
  exact ⟨Dev.giveBack_servedFrame held took,
    (Dev.giveBack_reg held took (rootsReg_not_frameGauge f (.inl rfl))).trans ((s.decapRest r).routeMiss_reg m),
    (Dev.giveBack_reg held took (rootsReg_not_frameGauge f (.inr rfl))).trans (took.regs _ (by decide))⟩

end

/-! ## A frame with a word in uncorrectable error -/

theorem Dev.cellError_reg_spoiled (s : Dev) (b : Nat) : (s.cellError b).reg (trunkReg 0x48) = s.reg (trunkReg 0x48) :=
  (s.cellError_changes b).regs _ (by decide)

section
variable {id : Nat} {r : List Nat} {f : Stored} (held : s.stored id = some f) (b : Nat)
include held

theorem Dev.dropRead_changes : Dev.changes [.decap, .audit, .trunk, .ras] (trunkReg 0x48 :: trunkReg 0 :: trunkReg 8 :: frameGauges f) s
    ((s.decapRest r).dropRead id b) := by
  have back : Dev.changes [.decap, .audit, .trunk, .ras] _ s _ := ((s.decapRest_changes r (by simp)).trans
    ((Dev.giveBack_changes (s := s.decapRest r) held).mono (by simp) (List.subset_append_right [trunkReg 0x48, trunkReg 0, trunkReg 8] _)))
  unfold Dev.dropRead
  exact (back.trans (Dev.setReg_changes _ (trunkReg 0x48) _ (by simp))).trans ((Dev.cellError_changes _ b).mono (by simp) (by simp))

theorem Dev.dropRead_reg : ((s.decapRest r).dropRead id b).reg (trunkReg 0x48) = satAdd (s.reg (trunkReg 0x48)) 1 := by
  have back := (Dev.giveBack_changes (s := s.decapRest r) held).regs _ (spoiledCount_not_frameGauge f)
  unfold Dev.dropRead
  rw [Dev.cellError_reg_spoiled, Dev.reg_count, if_pos rfl, back]
  rfl

theorem Dev.dropRead_stored :
    ((s.decapRest r).dropRead id b).stored id = if f.refs ≤ 1 then none else some { f with refs := f.refs - 1 } :=
  ((Dev.cellError_sameFrames (((s.decapRest r).giveDesc.release id).count (trunkReg 0x48)) b).stored id).trans
    (Dev.giveBack_stored (s := s.decapRest r) held)

theorem Dev.dropRead_decap : ((s.decapRest r).dropRead id b).decap = r :=
  ((Dev.cellError_changes (((s.decapRest r).giveDesc.release id).count (trunkReg 0x48)) b).part (p := .decap) (by simp)).trans
    ((Dev.giveBack_changes (s := s.decapRest r) held).part (p := .decap) (by simp))

end

end

end

end Sys2Proof.Machine
end

section
/-! SUPPORT. The statement on the gateway's tables, batches and decapsulator (R331 to R347). -/
namespace Sys2Proof.Machine

/-- Settles O34, command by command: each answers by the equation of its part (`Dev.routeAdd_of_place`, `Dev.authSet_of_fresh` and their
like), a batch closes into a frame of its stream (`Dev.batchClosed`), and the decapsulator's frame is given back with what its message
changed (`Dev.giveBack_servedFrame`). -/
theorem gatewayTablesFollowCommands : Obligations.GatewayTablesFollowCommands := by
  unfold Obligations.GatewayTablesFollowCommands
  refine ⟨?_, ?_, ?_, ?_, ?_, ?_, ?_, ?_, ?_, ?_, ?_, ?_, ?_, ?_, ?_, ?_, ?_, ?_, ?_, ?_, ?_, ?_⟩
  · -- ROUTE_ADD into a slot
    intro s d i starts valid listed bus masked place
    have fits : (s.dev.demand 0x31 64).routeFits d := ⟨valid, listed, bus, masked⟩
    refine .of_answer rfl starts (Dev.routeAdd_of_place fits place) (Dev.setRoute_changes _ _ _) (fun u roots frame told => ?_)
    exact ⟨(Dev.route_congr roots i).trans (Dev.route_setRoute_same _ _ _), frame, told,
      fun k hk => (Dev.route_congr roots k).trans (Dev.route_setRoute_ne _ _ _ hk), roots ▸ Dev.setRoute_roots _ _ _⟩
  · -- ROUTE_ADD into a full bucket
    intro s d starts valid listed bus masked absent full
    have fits : (s.dev.demand 0x31 64).routeFits d := ⟨valid, listed, bus, masked⟩
    exact .of_reply rfl starts (Dev.routeAdd_of_full fits absent full)
  · -- ROUTE_ADD of an entry that is none
    intro s d starts invalid
    exact .of_reply rfl starts (Dev.routeAdd_of_invalid invalid)
  · -- ROUTE_DEL of a key that is there
    intro s d i starts found
    refine .of_answer rfl starts (Dev.routeDel_of_found found) (Dev.setRoute_changes _ _ _) (fun u roots frame told => ?_)
    exact ⟨(Dev.route_congr roots i).trans (Dev.route_setRoute_same _ _ _), frame, told,
      fun k hk => (Dev.route_congr roots k).trans (Dev.route_setRoute_ne _ _ _ hk), roots ▸ Dev.setRoute_roots _ _ _⟩
  · -- ROUTE_DEL of another
    intro s d starts absent
    exact .of_reply rfl starts (Dev.routeDel_of_absent absent)
  · -- ROUTE_READ of a key that is there
    intro s d r starts found
    exact .of_reply rfl starts (Dev.routeRead_of_found found)
  · -- ROUTE_READ of another
    intro s d starts absent
    exact .of_reply rfl starts (Dev.routeRead_of_absent absent)
  · -- ROUTE_FLUSH
    intro s d starts wf
    refine .of_answer rfl starts (Dev.routeFlush_eq _ d) (Dev.routesKept_changes _ d) (fun u roots frame told => ?_)
    exact ⟨fun k => (Dev.route_congr roots k).trans (Dev.routesKept_route d wf k), frame, by rw [roots]; rfl,
      countP_routeGoes d wf ▸ told⟩
  · -- AUTH_SET that stores or empties
    intro s d e starts spelt slot authLen fvTx low high fv fresh
    subst spelt
    have inRange : ¬ (authSpelt d).outOfRange := AuthEntry.inRange slot authLen fvTx low high fv
    refine .of_answer rfl starts (Dev.authSet_of_fresh inRange fresh) (Dev.setAuth_changes _ _ _) (fun u roots frame told => ?_)
    exact ⟨(Dev.auth_congr roots _).trans (Dev.auth_setAuth_same _ _ _), frame, told,
      fun k hk => (Dev.auth_congr roots k).trans (Dev.auth_setAuth_ne _ _ _ hk), by rw [roots]; rfl⟩
  · -- AUTH_SET of a lower freshness value
    intro s d e x starts spelt slot authLen fvTx low high fv held key lower
    subst spelt
    have inRange : ¬ (authSpelt d).outOfRange := AuthEntry.inRange slot authLen fvTx low high fv
    exact .of_reply rfl starts (Dev.authSet_of_lower inRange held key lower)
  · -- AUTH_SET out of range
    intro s d e starts spelt out
    subst spelt
    exact .of_reply rfl starts (Dev.authSet_of_outOfRange out)
  · -- AUTH_READ of an entry in use
    intro s d e starts used
    exact .of_reply rfl starts (Dev.authRead_of_used used)
  · -- AUTH_READ of an empty one
    intro s d starts empty
    exact .of_reply rfl starts (Dev.authRead_of_empty empty)
  · -- AUTH_CLEAR
    intro s d starts
    refine .of_answer rfl starts rfl (Dev.setAuth_changes _ (fld d.p8 10 0) none) (fun u roots frame told => ?_)
    exact ⟨(Dev.auth_congr roots _).trans (Dev.auth_setAuth_same _ _ _), frame, told,
      fun k hk => (Dev.auth_congr roots k).trans (Dev.auth_setAuth_ne _ _ _ hk), by rw [roots]; rfl⟩
  · -- ENC_BATCH_HOLD_EXPIRY of a batch that is due
    intro s st b hr opened due room busy
    have closes : s.dev.holdExpiry st.val = s.dev.batchClosed st.val b :=
      (Dev.holdExpiry_of_open opened).trans ((if_pos due).trans (Dev.closeBatch_of_room opened room busy))
    refine .of_onDev (exec_encBatchHoldExpiry st s) hr ?_
    rw [closes]
    exact ⟨Dev.batchClosed_batch_same _ _ _, Dev.batchClosed_seq _ _ _, Dev.batchClosed_closed _ _ _, (Dev.batchClosed_changes _ _ _).ofState,
      Dev.batchClosed_roots _ _ _, fun k _ hk => Dev.batchClosed_batch_ne _ _ _ hk⟩
  · -- ENC_BATCH_HOLD_EXPIRY too early
    intro s st b hr opened early
    refine .of_onDev (exec_encBatchHoldExpiry st s) hr ?_
    rw [Dev.holdExpiry_of_open opened, if_neg (Nat.not_le.mpr early)]
  · -- ENC_DISABLE that sets EN
    intro s a st opens off
    refine .of_writeEn (exec_encDisable a st true s) opens (fun x y => ?_)
    have off' : (s.dev.accepted a (encReg st.val 0) x y).rb (encReg st.val 0) 31 = false := off
    exact ⟨Dev.encWrite_rise_ctl off', Dev.encWrite_rise_seq off', State.writes_of_accepted (by simp) (Dev.encWrite_rise_changes off')⟩
  · -- ENC_DISABLE that clears it
    intro s a st opens on room busy
    refine .of_writeEn (exec_encDisable a st false s) opens (fun x y => ?_)
    have on' : (s.dev.accepted a (encReg st.val 0) x y).rb (encReg st.val 0) 31 = true := on
    have closed := Dev.closeBatch_closes (s := s.dev.accepted a (encReg st.val 0) x y) st.val room busy
    obtain ⟨ctl, frame⟩ := closed.disabled
    rw [Dev.encWrite_of_fall on']
    exact ⟨ctl, closed.idle, closed.groups, State.writes_of_accepted (by simp) frame, closed.roots⟩
  · -- DECAP_FRAME of a frame that is none of messages
    intro s id r f o ue hr sound queue held edited other
    subst edited
    obtain ⟨served, counted⟩ := Dev.decapNext_of_otherType queue held other
    refine .of_onDev (exec_decapFrame ue s) hr ?_
    rw [Dev.decapRead_of_sound sound]
    exact ⟨served.decap, counted, served.queues, served.stored, served.keeps, served.changes.events⟩
  · -- DECAP_FRAME of a frame of one message without a route
    intro s id r f o at_ bus lin msg c ue hr sound queue held edited tags type subtype fits body some_ whole spells off unrouted
    subst edited
    obtain ⟨served, missed, same⟩ := Dev.decapNext_of_unrouted queue held
      (Dev.decapTake_of_single (s := s.dev.decapRest r) tags type subtype fits body some_ whole spells) (Nat.le_refl 24) off unrouted
    refine .of_onDev (exec_decapFrame ue s) hr ?_
    rw [Dev.decapRead_of_sound sound]
    exact ⟨served.decap, missed, same, served.queues, served.keeps, served.changes.events⟩
  · -- DECAP_FRAME of a frame with a word in uncorrectable error
    intro s id r f b hr queue held holds
    have frame := Dev.dropRead_changes (r := r) held b.val
    refine .of_onDev (exec_decapFrame (some b) s) hr ?_
    rw [Dev.decapRead_of_spoiled queue holds]
    exact ⟨Dev.dropRead_decap held b.val, Dev.dropRead_reg held b.val, Dev.dropRead_stored held b.val,
      frame.part (p := .roots) (by simp), frame.parts.mono (by simp), rfl, rfl⟩
  · -- DECAP_FRAME with no frame
    intro s ue hr empty
    refine .of_onDev (exec_decapFrame ue s) hr ?_
    rw [Dev.decapRead_of_empty ue empty]

end Sys2Proof.Machine
end

section
/-! SUPPORT. The state after reset: what its registers, table words and stores read, and the statement on them (R592). -/
namespace Sys2Proof.Machine

-- The kernel's evaluations here run one after the other, which bounds the memory they take together.
set_option Elab.async false

/-! ## What reset leaves in each store -/

/-- Every register of the main die but RNG_STATUS reads its reset value (log entry 3). -/
theorem Dev.reg_resetOf (v : Variant) (a : Nat) : (Dev.resetOf v).reg a = if a = burlReg 0x4018 then 3 else regReset v a := rfl

theorem Dev.canonical_resetOf (v : Variant) : (Dev.resetOf v).canonical = true := by cases v <;> decide +kernel

theorem Heart.sound_reset : Heart.reset.Sound where
  regs := rfl
  staging := rfl
  image := rfl
  batches := trivial
  notices := Nat.zero_le _
  subA := rfl
  sub0 := rfl
  sub1 := rfl

theorem Dev.tokenInRange_resetOf (v : Variant) : (Dev.resetOf v).tokenInRange := fun _ held => nomatch held

/-! ## The values of R592, instance by instance -/

theorem Dev.resetOf_port (v : Variant) (n : Fin 36) :
    (Dev.resetOf v).reg (portReg n.val 0) = 0x800 ∧ (Dev.resetOf v).reg (portReg n.val 4) = 0x40 ∧ (Dev.resetOf v).reg (portReg n.val 0xC) = 0xA0000 := by
  cases v <;> revert n <;> decide +kernel

theorem Dev.resetOf_queue (v : Variant) (n : Fin 36) (c : Fin 8) :
    (Dev.resetOf v).reg (queueReg (8 * n.val + c.val) 0) = if c.val < 4 then 0x80090200 else 0x90200 := by
  cases v <;> revert n c <;> decide +kernel

theorem Dev.resetOf_hostQueue (v : Variant) (h : Fin 2) (c : Fin 32) : (Dev.resetOf v).reg (queueReg (288 + 32 * h.val + c.val) 0) = 0x80090200 := by
  cases v <;> revert h c <;> decide +kernel

theorem Dev.resetOf_gate (v : Variant) (n : Fin 36) : (Dev.resetOf v).reg (crownReg n.val 0x14) = 0xFF000000 := by
  cases v <;> revert n <;> decide +kernel

theorem Dev.resetOf_crownQueue (v : Variant) (n : Fin 36) (c : Fin 8) : (Dev.resetOf v).reg (crownQ n.val c.val 0) = 0x40000001 := by
  cases v <;> revert n c <;> decide +kernel

theorem Dev.resetOf_map (v : Variant) (n : Fin 40) : (Dev.resetOf v).reg (0x37C000 + 4 * n.val) = 0xFAC681 := by
  cases v <;> revert n <;> decide +kernel

theorem Dev.resetOf_can (v : Variant) (n : Fin 24) : (Dev.resetOf v).reg (canReg n.val 0) = 0x0A800000 := by
  cases v <;> revert n <;> decide +kernel

theorem Dev.resetOf_grove (v : Variant) (g : Fin 4) : (Dev.resetOf v).reg (groveReg g.val 0) = 0xFF := by
  cases v <;> revert g <;> decide +kernel

theorem Dev.resetOf_matrix (v : Variant) (o : Fin 7) (w : Fin 3) : (Dev.resetOf v).reg (rasReg (0x1000 + 16 * o.val + 4 * w.val)) = 0x1FFFFF := by
  cases v <;> revert o w <;> decide +kernel

theorem Dev.resetOf_extmem (v : Variant) (present : extmemPresent v = true) : (Dev.resetOf v).reg (trunkReg 0x30) = 0x400 := by
  cases v <;> revert present <;> decide +kernel

/-! ## The statement -/

/-- Settles O2: the registers of R592 family by family, then the stores, the invariants and the variant of `State.reset`. -/
theorem resetHoldsTheListedValues : Obligations.ResetHoldsTheListedValues := by
  unfold Obligations.ResetHoldsTheListedValues
  refine ⟨fun v => ?_, fun v a => ⟨Dev.reg_resetOf v a, rfl, rfl, rfl, rfl⟩,
    fun v => ⟨Dev.canonical_resetOf v, Heart.sound_reset, Dev.tokenInRange_resetOf v, rfl, rfl, rfl⟩, rfl⟩
  refine ⟨?_, ?_, ?_, ?_, ?_, ?_, fun n _ => Dev.resetOf_port v n, fun g _ => Dev.resetOf_grove v g, ?_, ?_, ?_, ?_,
    fun n c _ => Dev.resetOf_queue v n c, fun h c _ => Dev.resetOf_hostQueue v h c,
    fun present => Dev.resetOf_extmem v present, fun n _ => ⟨Dev.resetOf_gate v n, Dev.resetOf_crownQueue v n⟩, fun n _ => Dev.resetOf_map v n, ?_,
    fun n _ => Dev.resetOf_can v n, ?_, ?_, ?_, ?_, ?_, ?_, ?_, ?_, ?_,
    fun o w => Dev.resetOf_matrix v o w⟩
  all_goals cases v <;> decide +kernel

end Sys2Proof.Machine
end

section
/-! SUPPORT. The refutation of `DiesActApart`. -/
namespace Sys2Proof.Machine

/-- The device with its core off, while Heartwood has its supply. -/
def coreOffHeartOn : State :=
  { State.reset with
    dev := { State.reset.dev with tap := { State.reset.dev.tap with asleep := true } }
    heart := { State.reset.heart with on := true } }

/-- A read of CLK_STATUS there notes that Heartwood's clocks run, though nothing answers it (R507). -/
theorem coreOffHeartOn_read : exec (.registerWrite ⟨1, false⟩ 0x40 none) coreOffHeartOn =
    .next { coreOffHeartOn with dev := coreOffHeartOn.dev.setRb 0x40 12 true } := rfl

/-- Refutes O3: the last clause has no row but those it lists change anything while the core is off, and a read of CLK_STATUS, whose
row it does not list, has the model note there whether Heartwood's clocks run. -/
theorem not_diesActApart : ¬ Obligations.DiesActApart := by
  unfold Obligations.DiesActApart
  rintro ⟨-, -, -, off⟩
  have same := off _ _ _ (by decide) (by decide) (by decide) (by decide) coreOffHeartOn_read
  exact absurd (congrArg (fun t : State => t.dev.rb 0x40 12) same) (by decide)

end Sys2Proof.Machine
end

section
/-! SUPPORT. Records of a die whose time has passed 2^64 microseconds, and the refutations of `HeartwoodMeasuresEverySecond` and of
`HeartwoodInputsAndSupplies`: the octets of HW_TIME in a record are eight (R405, R419), and the model's time is any number. -/
namespace Sys2Proof.Machine

-- The kernel's evaluations here run one after the other, which bounds the memory they take together.
set_option Elab.async false

/-! ## The end of a second -/

/-- A calibrated die that measures the pulse input, at second 2^200. -/
def lateSecond : State := { State.reset with heart :=
  { Heart.reset with on := true, cal := { Heart.reset.cal with kPulse := 1 }, time := 2 ^ 200 * 1000000, regs := [(0x80, 0x100)] } }

/-- The time overflows into the type of the record its second writes, the only one. -/
theorem lateSecond_types :
    (lateSecond.heart.secondEnd false).batches.all (fun b => b.recs.all (fun r => fld r 271 264 ≠ 1)) = true := by decide +kernel

theorem lateSecond_secondEnd : exec .hwSecondEnd lateSecond = .next { lateSecond with heart := lateSecond.heart.secondEnd false } := rfl

/-- No record of a store whose records all pass a test fails it. -/
theorem Heart.holds_of_all {h : Heart} {p : BitVec 512 → Bool} (all : h.batches.all (fun b => b.recs.all p) = true) {r : BitVec 512}
    (held : h.holds r) : p r = true := by
  obtain ⟨b, hb, hr⟩ := held
  exact List.all_eq_true.mp (List.all_eq_true.mp all b hb) r hr

/-- Refutes O42: the first clause has the second's record carry type 1, and sets no bound on the time. At second 2^200 the time overflows
its eight octets into the type. -/
theorem not_heartwoodMeasuresEverySecond : ¬ Obligations.HeartwoodMeasuresEverySecond := by
  unfold Obligations.HeartwoodMeasuresEverySecond
  rintro ⟨pulses, -⟩
  obtain ⟨t, step, ⟨r, held, -, -, type, -⟩, -⟩ := pulses lateSecond (by decide) (by decide) (by decide) rfl rfl (by decide) (by decide)
    (by decide) (by decide) (by decide) (by decide)
  injection lateSecond_secondEnd.symm.trans step with target
  rw [← target] at held
  exact of_decide_eq_true (Heart.holds_of_all lateSecond_types held) type

/-! ## The start -/

/-- A calibrated die without power, which slept on the pulse input, at 2^200 microseconds. -/
def lateSleep : State := { State.reset with heart :=
  { Heart.reset with heldSource := 1, cal := { Heart.reset.cal with kPulse := 1 }, time := 2 ^ 200, regs := [(0x80, 0x300)] } }

theorem lateSleep_types :
    (lateSleep.heart.powerRise false false 0).batches.all (fun b => b.recs.all (fun r => fld r 271 264 ≠ 3)) = true := by decide +kernel

theorem lateSleep_rise : exec (.vddHwRise false 0) lateSleep = .next { lateSleep with heart := lateSleep.heart.powerRise false false 0 } := rfl

/-- Refutes O43: the clause on VDD_HW_RISE of a die that slept on the pulse input has the START record carry type 3, and sets no bound on
the time. At 2^200 microseconds the time overflows its eight octets into the type. -/
theorem not_heartwoodInputsAndSupplies : ¬ Obligations.HeartwoodInputsAndSupplies := by
  unfold Obligations.HeartwoodInputsAndSupplies
  rintro ⟨-, -, -, -, start, -⟩
  obtain ⟨t, step, ⟨r, held, type, -⟩, -⟩ := start lateSleep 0 (by decide) rfl (by decide) rfl (by decide)
  injection lateSleep_rise.symm.trans step with target
  rw [← target] at held
  exact of_decide_eq_true (Heart.holds_of_all lateSleep_types held) type

end Sys2Proof.Machine
end

section
/-! SUPPORT. Commands of Burl that waited for their unit and then run on, and the refutations of `KeysLeaveSlots` and of
`MacsecTablesFollowCommands`. -/
namespace Sys2Proof.Machine

-- The kernel's evaluations here run one after the other, which bounds the memory they take together.
set_option Elab.async false

/-- The device with one command on ring 0 of host port 0, which has waited for its unit since raw time 0. -/
def State.withWaiting (d : CmdDesc) : State := { State.reset with dev := { State.reset.dev with
  basjo := ((State.reset.dev.basjo.setReg (hostReg 0 0) 1).withCommand 0 0).setRing 0 0 { RingRun.idle with waiting := some ⟨d, 0, 0⟩ } } }

/-! ## KEY_ERASE -/

/-- KEY_ERASE of slot 0, on ring 0 of host port 0. -/
def eraseDesc : CmdDesc := ⟨0, 0, 0x231040, 0, 0, 0, 0, 0, false, false⟩

/-- Slot 0 holds a key of host port 0 that the engine uses, and KEY_ERASE of it has waited for the bank. -/
def eraseInUse : State := { State.withWaiting eraseDesc with dev := { (State.withWaiting eraseDesc).dev with
  burl := { State.reset.dev.burl with
    slots := [(0, { KeySlot.empty with state := 1, owner := 2, parent := 0x3FC })]
    uses := [⟨.can, 0, 0, [0], none, none⟩], serial := 1 } } }

def Dev.eraseRow (s : Dev) : Dev := s.keyCommand eraseDesc 0x23 [0xFFC00, 0, 0, 0, 0] (some kKey) (·.keyErase eraseDesc)

theorem exec_eraseDesc (s : State) (hr : s.dev.runs = true) : exec (.keyErase eraseDesc) s = .next { s with dev := s.dev.eraseRow } :=
  s.onDev_runs Dev.eraseRow hr

set_option maxRecDepth 8000 in
theorem eraseInUse_starts : eraseInUse.starts eraseDesc 0x40 (bankUnit (fld eraseDesc.p8 19 10)) 0x23 [0xFFC00, 0, 0, 0, 0] = true := by
  decide +kernel

theorem eraseInUse_waiting : ((eraseInUse.dev.eraseRow.basjo).ring 0 0).waiting = none := by decide +kernel

/-- Refutes O36: the clause on KEY_ERASE with a use in progress has the ring keep all but the command that runs. A command that waited for
its unit (R67) waits no longer once it runs. -/
theorem not_keysLeaveSlots : ¬ Obligations.KeysLeaveSlots := by
  unfold Obligations.KeysLeaveSlots
  rintro ⟨-, inUse, -⟩
  obtain ⟨t, step, -, -, ring, -⟩ := inUse eraseInUse eraseDesc eraseInUse_starts (by decide +kernel) (by decide) (by decide +kernel)
    (fun _ => by decide +kernel) (by decide +kernel) (by decide +kernel) (by decide +kernel)
  injection (exec_eraseDesc eraseInUse (by decide +kernel)).symm.trans step with target
  have waits := congrArg (fun b : Basjo => (b.ring 0 0).waiting) ring
  rw [← target] at waits
  exact absurd (waits.symm.trans eraseInUse_waiting) (by decide +kernel)

/-! ## SA_CLEAR -/

/-- SA_CLEAR of association 0, on ring 0 of host port 0. -/
def clearDesc : CmdDesc := ⟨0, 0, 0x142240, 0, 0, 0, 0, 0, false, false⟩

/-- Channel 0 of P0 with association 0 alone, without a key. -/
def soleChannel : SecChannel := ⟨true, false, false, none, 0, [(0, some 0)], 0⟩
def soleAssoc : SecAssoc := ⟨0, 0, 0, false, 0, 1, 0, 0⟩

/-- A frame in reception was issued under association 0, and SA_CLEAR of it has waited for the unit. -/
def clearInPipe : State := { State.withWaiting clearDesc with dev := { (State.withWaiting clearDesc).dev with
  burl := { State.reset.dev.burl with
    scs := [(0, some soleChannel)], sas := [(0, some soleAssoc)], uses := [⟨.rx 1, 0, 0, [0], some 0, none⟩], serial := 1 } } }

def Dev.clearRow (s : Dev) : Dev := s.secCommand clearDesc 0x14 [0x3FF, 0, 0, 0, 0] (some kCommand) (·.saClear clearDesc)

theorem exec_clearDesc (s : State) (hr : s.dev.runs = true) : exec (.saClear clearDesc) s = .next { s with dev := s.dev.clearRow } :=
  s.onDev_runs Dev.clearRow hr

set_option maxRecDepth 8000 in
theorem clearInPipe_starts : clearInPipe.starts clearDesc 0x40 34 0x14 [0x3FF, 0, 0, 0, 0] = true := by decide +kernel

theorem clearInPipe_waiting : ((clearInPipe.dev.clearRow.basjo).ring 0 0).waiting = none := by decide +kernel

/-- Refutes O38: the clause on SA_CLEAR of an association under which a frame is in a pipe has the ring keep all but the command that runs.
A command that waited for its unit (R67) waits no longer once it runs. -/
theorem not_macsecTablesFollowCommands : ¬ Obligations.MacsecTablesFollowCommands := by
  unfold Obligations.MacsecTablesFollowCommands
  rintro ⟨-, -, -, -, -, -, inPipe, -⟩
  obtain ⟨t, step, -, -, -, ring, -⟩ := inPipe clearInPipe clearDesc soleAssoc soleChannel clearInPipe_starts (by decide +kernel)
    (by decide +kernel) (by decide +kernel)
  injection (exec_clearDesc clearInPipe (by decide +kernel)).symm.trans step with target
  have waits := congrArg (fun b : Basjo => (b.ring 0 0).waiting) ring
  rw [← target] at waits
  exact absurd (waits.symm.trans clearInPipe_waiting) (by decide +kernel)

end Sys2Proof.Machine
end

section
/-! SUPPORT. The refutations of `BurlServices` and of `CipherJobsRun`. -/
namespace Sys2Proof.Machine

-- The kernel's evaluations here run one after the other, which bounds the memory they take together.
set_option Elab.async false

/-! ## The tamper line -/

/-- A frame whose reception ended on P0 under a MACsec key context. -/
def inPipeFrame : RxFrame := ⟨0, [], 64, 0, 0, none, 1, [⟨0, 1, []⟩], 7, 0, false, .pass 0 1 0 0 true, none, false⟩

/-- Its verdict is due, in SAFE. -/
def pipeDue : State := { State.reset with dev := { State.reset.dev.setReg (rasReg 0) 0x80000000 with ended := [(0, [inPipeFrame])] } }

theorem exec_tamperLine_awake (s : State) (src : Fin 5) (awake : s.dev.tap.asleep = false) :
    exec (.tamperLine src) s = .next { s with dev := s.dev.tamper src.val } := by
  simp only [exec, execTamperLine, State.onTap, awake, Bool.not_false, if_true]

/-- After the line of source 0. -/
def pipeTampered : State := { pipeDue with dev := pipeDue.dev.tamper 0 }

theorem exec_tamperLine_pipeDue : exec (.tamperLine 0) pipeDue = .next pipeTampered :=
  exec_tamperLine_awake pipeDue 0 (by decide +kernel)

theorem pipeTampered_ended : (pipeTampered.dev.endedOf 0).isEmpty = true := by decide +kernel

theorem Dev.keeps.endedOf_eq {s t : Dev} {parts : List Part} (h : s.keeps parts t) (kept : Part.ended ∉ parts) (p : Nat) :
    t.endedOf p = s.endedOf p := by
  have same : t.ended = s.ended := h .ended kept
  rw [Dev.endedOf, same, Dev.endedOf]

/-- Refutes O37: the clause on TAMPER_LINE has the frames whose verdict is due stay as they are. Those under a MACsec key context are
discarded (R372). -/
theorem not_burlServices : ¬ Obligations.BurlServices := by
  unfold Obligations.BurlServices
  rintro ⟨-, -, -, -, -, -, tamper, -⟩
  obtain ⟨t, step, -, -, -, -, -, -, -, keeps⟩ := tamper pipeDue 0 (by decide +kernel)
  injection exec_tamperLine_pipeDue.symm.trans step with target
  have kept := keeps.1.endedOf_eq (by decide) 0
  have due : (pipeDue.dev.endedOf 0).isEmpty = true := by
    rw [← kept, ← target]
    exact pipeTampered_ended
  exact absurd due (by decide)

/-! ## A job that runs -/

/-- CTR_DECRYPT under slot 600, which is none, on ring 0 of host port 0. -/
def ctrDesc : CmdDesc := ⟨0, 0, 0x04FF40, 0, 0, 600, 0, 0, false, false⟩

/-- The command at the head of ring 0 is that of the job that runs, and the ring does not run it. -/
def jobRuns : State := { State.reset with dev := { State.reset.dev with
  basjo := (State.reset.dev.basjo.setReg (hostReg 0 0) 1).withCommand 0 0
  burl := { State.reset.dev.burl with job := some ⟨ctrDesc, 4, 0, [], [], 0, 0⟩ } } }

def Dev.ctrRow (s : Dev) : Dev := s.jobCommand ctrDesc ⟨[], false⟩ .whole 4 .ctrDec

theorem exec_ctrDesc (s : State) (hr : s.dev.runs = true) :
    exec (.ctrDecrypt ctrDesc ⟨[], false⟩ .whole) s = .next { s with dev := s.dev.ctrRow } := s.onDev_runs Dev.ctrRow hr

set_option maxRecDepth 8000 in
theorem jobRuns_starts :
    jobRuns.starts ctrDesc 0x40 0xFF 4 [all64, all64, 0xFFFFFFFFFF0F03FF, all64, 0xFFFFFFFF] = true := by decide +kernel

/-- The row ends the job; the ring has no command that could complete with it. -/
theorem jobRuns_devIdx : jobRuns.dev.ctrRow.basjo.devIdx 0 0 = 0 := by decide +kernel

/-- Refutes O39: the clause on parameters out of range has the command of its row start and complete. Where the job that runs is of the
same descriptor, the row ends that job (R370), and no command of the ring completes. -/
theorem not_cipherJobsRun : ¬ Obligations.CipherJobsRun := by
  unfold Obligations.CipherJobsRun
  rintro ⟨-, -, -, -, -, -, -, badParam, -⟩
  obtain ⟨t, step, completes, -⟩ := badParam jobRuns ctrDesc ⟨[], false⟩ .whole jobRuns_starts (Or.inl (by decide))
  injection (exec_ctrDesc jobRuns (by decide +kernel)).symm.trans step with target
  have idx := completes.host.idx
  rw [← target] at idx
  exact absurd (jobRuns_devIdx.symm.trans idx) (by decide +kernel)

end Sys2Proof.Machine
end

section
/-! SUPPORT. The refutation of `ColdResetsAndLosses`. -/
namespace Sys2Proof.Machine

-- The kernel's evaluations here run one after the other, which bounds the memory they take together.
set_option Elab.async false

/-- Octet 0 of the shared SRAM, the third memory of the host interface, is 1. -/
def sramHeld : State := { State.reset with dev := { State.reset.dev with basjo := { State.reset.dev.basjo with mem := [(2 ^ 65, 1)] } } }

/-- After the loss of VAON. -/
def sramLost : State := { sramHeld with dev := sramHeld.dev.vaonLost, heart := { sramHeld.heart with
  mainSafe := sramHeld.heart.mainSafe || (sramHeld.heart.on && sramHeld.dev.safe) } }

theorem exec_vaonLoss_sramHeld : exec .vaonLoss sramHeld = .next sramLost := rfl

theorem sramLost_mem : sramLost.dev.basjo.mem = [] := by decide +kernel

/-- Refutes O51: the clause on VAON_LOSS has every memory of the host interface stay as it was, the shared SRAM among them. The SRAM loses its
content (R486). -/
theorem not_coldResetsAndLosses : ¬ Obligations.ColdResetsAndLosses := by
  unfold Obligations.ColdResetsAndLosses
  rintro ⟨-, -, -, loss, -⟩
  obtain ⟨t, step, -, -, -, -, -, -, -, -, -, -, -, -, -, -, -, mem, -⟩ := loss sramHeld
  injection exec_vaonLoss_sramHeld.symm.trans step with target
  rw [← target, sramLost_mem] at mem
  exact absurd mem (by decide)

end Sys2Proof.Machine
end

section
/-! SUPPORT. The refutation of `SoftResetsAndClockHolds`. -/
namespace Sys2Proof.Machine

-- The kernel's evaluations here run one after the other, which bounds the memory they take together.
set_option Elab.async false

/-- SOFT_RESET of Bark's unit 0, on ring 0 of host port 0. -/
def barkResetDesc : CmdDesc := ⟨0, 0, 0x030000, 0x3000, 0, 0, 0, 0, false, false⟩

/-- The store lists register 0x340000 twice, first with its reset value. -/
def twiceListed : State := { State.reset with dev := { State.reset.dev with
  basjo := (State.reset.dev.basjo.setReg (hostReg 0 0) 1).withCommand 0 0
  regs := [(0x340000, regReset .m 0x340000), (0x340000, regReset .m 0x340000 + 1)] } }

def Dev.barkResetRow (s : Dev) : Dev :=
  if s.softWaits barkResetDesc then s
  else s.command barkResetDesc (isOne 0) (isOne 0) 3 [0xFFFF, 0, 0, 0, 0] (some kCommand) (·.softReset barkResetDesc)

theorem exec_barkResetDesc (s : State) (hr : s.dev.runs = true) :
    exec (.softReset barkResetDesc) s = .next { s with dev := s.dev.barkResetRow } := s.onDev_runs Dev.barkResetRow hr

set_option maxRecDepth 8000 in
theorem twiceListed_starts : twiceListed.starts barkResetDesc 0 0 3 [0xFFFF, 0, 0, 0, 0] = true := by decide +kernel

/-- The reset drops the first entry, which reads as an unlisted register does, and shows the second. -/
theorem twiceListed_reset_reg : twiceListed.dev.barkResetRow.reg 0x340000 = regReset .m 0x340000 + 1 := by decide +kernel

/-- Refutes O53: the clause on Bark's unit 0 has every register outside it read as it did, and does not ask that the store of registers is
canonical. Of a register it lists twice the reset may drop the entry that was read. -/
theorem not_softResetsAndClockHolds : ¬ Obligations.SoftResetsAndClockHolds := by
  unfold Obligations.SoftResetsAndClockHolds
  rintro ⟨bark, -⟩
  obtain ⟨t, step, -, -, outside, -⟩ := bark twiceListed barkResetDesc twiceListed_starts (by decide) (by decide) (by decide +kernel)
    (by decide +kernel)
  injection (exec_barkResetDesc twiceListed (by decide +kernel)).symm.trans step with target
  have kept := outside 0x340000 (Or.inl (by decide))
  rw [← target] at kept
  exact absurd (twiceListed_reset_reg.symm.trans kept) (by decide +kernel)

end Sys2Proof.Machine
end

section
/-! SUPPORT. Commands that write octets to their host's memory and answer at once. -/
namespace Sys2Proof.Machine

/-- A command that stored octets and then completed has written them. -/
theorem Basjo.doneOnly.wrote {b b' : Basjo} {d : CmdDesc} {at_ : Nat} {l : List Byte} (done : (b.store d.host.val at_ l).doneOnly d b')
    (short : l.length ≤ 2 ^ 64) : b.wrote d at_ l b' where
  regs := done.regs
  msix := done.msix
  dead := done.dead
  up := done.up
  idx := done.idx
  ended := done.ended
  data k hk event clear :=
    (done.mem _ _ (Nat.mod_lt _ (by decide)) event fun _ => clear).trans (b.octet_store_same d.host at_ l k short hk)
  rest h addr low event clear := by
    refine (done.mem h addr low event fun same => (clear same).1).trans (b.octet_store _ _ _ _ _ low fun same k hk => ?_)
    rw [memWidth_host]
    exact (clear same).2 k hk

/-- A command that starts, stores octets and answers at once. -/
theorem Completes.of_hostWrite {i : Instr} {s : State} {P : State → Prop} {d : CmdDesc} {cl un op : Nat} {mask : List Nat}
    {body : Dev → CmdRes} {v : Dev} {at_ : Nat} {l : List Byte} {st x y : Nat}
    (meaning : exec i s = s.onDev (fun z => z.command d (isOne cl) (isOne un) op mask none body))
    (starts : s.starts d cl un op mask = true) (answer : body (s.dev.demand cl un) = .done (v.hostWrite d.host.val at_ l) st x y)
    (same : v.basjo = s.dev.basjo) (short : l.length ≤ 2 ^ 64)
    (hp : ∀ u : Dev, v.keeps [.basjo] u → s.dev.basjo.wrote d at_ l u.basjo → s.dev.basjo.answers d st x y u.basjo →
      P { s with dev := u }) : Completes i s P := by
  refine .of_command meaning starts (decide_eq_true rfl) (decide_eq_true rfl) answer (hp _ ?_ ?_ ?_)
  · exact (v.onBasjo_keeps _).trans (Dev.finish_keeps _ d st x y)
  all_goals
    obtain ⟨type, active⟩ := s.starts_ring d cl un op mask starts
    have writes := State.starts_writes starts
    have type4 : s.dev.basjo.ringType d.host.val d.ring.val ≠ 4 := by rw [type]; decide
    rw [← same] at type4 active ⊢
  · exact ((v.hostWrite d.host.val at_ l).finish_doneOnly d st x y type4 active writes).wrote short
  · exact (v.hostWrite d.host.val at_ l).finish_answers d st x y active writes

end Sys2Proof.Machine
end

section
/-! SUPPORT. The lengths of signatures, of entries of the change log and of the structures that AUDIT_SEAL signs. -/
namespace Sys2Proof.Machine

theorem List.length_flatMap_le {α β : Type} (f : α → List β) (n : Nat) (l : List α) (each : ∀ a ∈ l, (f a).length ≤ n) :
    (l.flatMap f).length ≤ l.length * n := by
  induction l with
  | nil => simp
  | cons a l ih =>
    rw [List.flatMap_cons, List.length_append, List.length_cons, Nat.succ_mul, Nat.add_comm]
    exact Nat.add_le_add (ih fun b hb => each b (List.mem_cons_of_mem _ hb)) (each a List.mem_cons_self)

theorem packBits_length (w : Nat) (l : List Nat) : (packBits w l).length = (w * l.length + 7) / 8 := leBytes_length _ _

theorem packHint_length (h : List (List Bool)) : (packHint h).length ≤ h.length * 256 + 61 := by
  have all : (h.map (fun p => (List.range 256).filter (fun j => p.getD j false))).flatten.length ≤ h.length * 256 := by
    rw [← List.flatMap_def]
    exact List.length_flatMap_le _ 256 h fun p _ => (List.length_filter_le _ _).trans (List.length_range ▸ Nat.le_refl _)
  unfold packHint
  simp only [List.length_map, List.length_append, List.length_replicate, List.length_range]
  omega

theorem shake256_length (m : List Byte) (n : Nat) : (shake256 m n).length ≤ n := List.length_take_le _ _

theorem expandMask_length (rho : List Byte) (kappa : Nat) : (expandMask rho kappa).length = 5 := by
  rw [expandMask, List.length_map, List.length_range]

theorem length_of_mem_expandMask {rho : List Byte} {kappa : Nat} {p : Poly} (hp : p ∈ expandMask rho kappa) : p.length = 256 := by
  obtain ⟨r, -, rfl⟩ := List.mem_map.mp hp
  rw [List.length_map, unpackBits, List.length_map, List.length_range]

theorem polyAdd_length_le (a b : Poly) : (polyAdd a b).length ≤ a.length := by
  rw [polyAdd, List.length_zipWith]
  exact Nat.min_le_left _ _

theorem packBits_polyAdd_length (y z : Poly) (f : Nat → Nat) (hy : y.length = 256) : (packBits 20 ((polyAdd y z).map f)).length ≤ 640 := by
  have := polyAdd_length_le y z
  rw [packBits_length, List.length_map]
  omega

theorem exists_of_mem_zipWith {α β γ : Type} {f : α → β → γ} {l : List α} {l' : List β} {c : γ} (hc : c ∈ List.zipWith f l l') :
    ∃ a ∈ l, ∃ b, f a b = c := by
  obtain ⟨i, hi, rfl⟩ := List.mem_iff_getElem.mp hc
  exact ⟨_, List.getElem_mem _, _, List.getElem_zipWith.symm⟩

/-- Of an attempt that is not rejected, the three parts are short. -/
theorem mlAttempt_length {k : MlKey} {a : List (List Poly)} {mu rho sig : List Byte} {kappa : Nat}
    (made : mlAttempt k a mu rho kappa = some sig) : sig.length ≤ 48 + 5 * 640 + (a.length * 256 + 61) := by
  unfold mlAttempt at made
  dsimp only at made
  split at made
  · cases made
  · obtain rfl := Option.some.inj made
    rw [List.length_append, List.length_append]
    refine Nat.add_le_add (Nat.add_le_add (shake256_length _ _) ?_) ?_
    · refine (List.length_flatMap_le _ 640 _ fun p hp => ?_).trans (Nat.mul_le_mul_right 640 ?_)
      · obtain ⟨y, hy, z, rfl⟩ := exists_of_mem_zipWith hp
        exact packBits_polyAdd_length y _ _ (length_of_mem_expandMask hy)
      · rw [List.length_zipWith, expandMask_length]
        exact Nat.min_le_left _ _
    · refine (packHint_length _).trans ?_
      simp only [List.length_zipWith, List.length_map]
      omega

theorem mlLoop_length (k : MlKey) (a : List (List Poly)) (mu rho : List Byte) (n kappa : Nat) :
    (mlLoop k a mu rho n kappa).length ≤ 48 + 5 * 640 + (a.length * 256 + 61) := by
  induction n generalizing kappa with
  | zero =>
    rw [mlLoop, zeros, List.length_replicate]
    omega
  | succ n ih =>
    rw [mlLoop]
    split
    · next sig made => exact mlAttempt_length made
    · exact ih _

theorem mldsaSign_length (seed msg rnd : List Byte) : (mldsaSign seed msg rnd).length ≤ 48 + 5 * 640 + (6 * 256 + 61) := by
  unfold mldsaSign
  refine (mlLoop_length _ _ _ _ _ _).trans ?_
  rw [expandA, List.length_map, List.length_range]

theorem edSign_length (seed msg : List Byte) : (edSign seed msg).length ≤ 64 := by
  unfold edSign
  dsimp only
  rw [List.length_append, leBytes_length, EdPoint.octets, leBytes_length]

theorem signBoth_length (ed ml : List Byte) (n : Nat) (msg : List Byte) : (signBoth ed ml n msg).length ≤ 5000 := by
  have e := edSign_length ed msg
  have m := mldsaSign_length ml msg ((leBytes 64 (Config.draw n).toNat).take 32)
  rw [signBoth, List.length_append]
  omega

theorem Dev.sealHead_length (s : Dev) (d : CmdDesc) : (s.sealHead d).length ≤ 200 := by
  have octets : d.octets.length ≤ d.params.length * 8 := List.length_flatMap_le _ 8 d.params fun w _ => (leBytes_length 8 w.toNat).le
  have params : d.params.length = 5 := rfl
  have magic : (ascii "TLTRAUD1").length = 8 := by decide
  simp only [Dev.sealHead, Dev.attestHead, List.length_append, leBytes_length, List.length_drop, zeros, List.length_replicate,
    List.length_cons, List.length_nil, magic]
  omega

theorem AuditEntry.octets_length (e : AuditEntry) : e.octets.length = 64 := by
  simp [AuditEntry.octets, AuditEntry.body, leBytes_length]

end Sys2Proof.Machine
end

section
/-! SUPPORT. The origin access matrix and the commands of the change log, and the statement on both (R534, R535, R538, R540). -/
namespace Sys2Proof.Machine

/-! ## The matrix -/

theorem Dev.log_audit_next (s : Dev) (o k cl u op tg : Nat) (x y : List Byte) : (s.log o k cl u op tg x y).audit.next = s.audit.next + 1 :=
  rfl

theorem Dev.log_changes (s : Dev) (o k cl u op tg : Nat) (x y : List Byte) {l : List Part} {w : List Nat} (hl : .audit ∈ l) :
    Dev.changes l w s (s.log o k cl u op tg x y) :=
  ⟨(s.log_keeps o k cl u op tg x y).mono (by simp [hl]), fun _ _ => rfl, s.log_eventsOnly _ _ _ _ _ _ _ _⟩

theorem matrixReg_ne_denied (which : MatrixReg) (o : Fin 16) : matrixReg which o.val ≠ rasReg 0x1400 := by
  have := o.isLt
  cases which <;> simp only [matrixReg, rasReg] <;> omega

section
variable {s : Dev} {a : Acc} {addr : Nat} {value : Word}

theorem Dev.matrixWrite_of_unreached (reach : reaches a.origin 17 = false) : s.matrixWrite a addr value = s := by
  unfold Dev.matrixWrite
  rw [reach]
  rfl

theorem Dev.matrixWrite_of_writer (reach : reaches a.origin 17 = true) (permit : s.permitted 0 a.origin 17 = true)
    (writer : matrixWriter a = true) : s.matrixWrite a addr value =
      (s.log a.origin kProtection 0x70 0 0 addr (leBytes 4 (s.reg addr).toNat) (leBytes 4 value.toNat)).setReg addr (value &&& 0x1FFFFF) := by
  unfold Dev.matrixWrite
  rw [reach, permit, writer]
  rfl

theorem Dev.matrixWrite_of_other (reach : reaches a.origin 17 = true) (permit : s.permitted 0 a.origin 17 = true)
    (other : matrixWriter a = false) : s.matrixWrite a addr value =
      (s.count (rasReg 0x1400)).log a.origin kDenied 0x70 0 0 addr (leBytes 4 (s.reg addr).toNat) (leBytes 4 value.toNat) := by
  have permit' : (s.count (rasReg 0x1400)).permitted 0 a.origin 17 = true := by
    have := a.origin.isLt
    rw [← permit, Dev.permitted, Dev.permitted, Dev.rb, Dev.reg_count, if_neg (by unfold rasReg; omega)]
    rfl
  unfold Dev.matrixWrite
  simp only [reach, other, permit', Bool.not_true, Bool.not_false, Bool.false_eq_true, if_false, if_true]

end

/-! ## The change-log commands -/

section
variable {s : Dev} {d : CmdDesc}

theorem Dev.auditDump_of_bad (bad : fld d.p24 14 0 = 0 ∨ 16384 < fld d.p24 14 0) : s.auditDump d false = .done s stBadParam 0 0 :=
  if_pos bad

theorem Dev.auditDump_of_absent (some_ : 1 ≤ fld d.p24 14 0) (fits : fld d.p24 14 0 ≤ 16384)
    (absent : s.audit.entries.length ≤ (BitVec.ofNat 32 (fld d.p16 31 0) - s.audit.oldest).toNat) :
    s.auditDump d false = .done s stNotFound 0 0 :=
  (if_neg (by omega)).trans (if_pos absent)

theorem Dev.auditDump_of_held (some_ : 1 ≤ fld d.p24 14 0) (fits : fld d.p24 14 0 ≤ 16384)
    (held : (BitVec.ofNat 32 (fld d.p16 31 0) - s.audit.oldest).toNat < s.audit.entries.length) :
    s.auditDump d false = .done (s.hostWrite d.host.val d.p8.toNat
      (((s.audit.entries.reverse.drop (BitVec.ofNat 32 (fld d.p16 31 0) - s.audit.oldest).toNat).take (fld d.p24 14 0)).flatMap
        AuditEntry.octets)) stOk
      ((s.audit.entries.reverse.drop (BitVec.ofNat 32 (fld d.p16 31 0) - s.audit.oldest).toNat).take (fld d.p24 14 0)).length 0 := by
  unfold Dev.auditDump
  dsimp only
  rw [if_neg (by omega), if_neg (by omega)]
  rfl

theorem dumped_length (l : List AuditEntry) (n : Nat) (fits : n ≤ 16384) : ((l.take n).flatMap AuditEntry.octets).length ≤ 2 ^ 64 := by
  refine (List.length_flatMap_le _ 64 _ fun e _ => e.octets_length.le).trans ?_
  have := List.length_take_le n l
  omega

/-- A signed structure: what is written, and what is left of the generator. -/
theorem Dev.signTo_of_seeds {x : List Byte × List Byte} (seeds : s.idSeeds = some x) (works : s.rngFailed = false) (head : List Byte) :
    s.signTo d false head = .done (({ s.generate1 with draws := s.draws + 1 } : Dev).hostWrite d.host.val d.p8.toNat
      (head ++ signBoth x.1 x.2 s.draws head)) stOk 0 0 := by
  simp only [Dev.signTo, seeds, works, Bool.false_eq_true, if_false]

theorem Dev.signTo_of_none (none_ : s.idSeeds = none) (head : List Byte) : s.signTo d false head = .done s 0x40 0 0 := by
  simp only [Dev.signTo, none_, CmdRes.fail]

theorem Dev.signed_keeps (s : Dev) : s.keeps [.burl, .draws] { s.generate1 with draws := s.draws + 1 } := by
  intro p hp
  cases p with
  | burl | draws => exact absurd (by decide) hp
  | _ => rfl

theorem Dev.slots_of_signed {u : Dev} (kept : ({ s.generate1 with draws := s.draws + 1 } : Dev).keeps [.basjo] u) :
    u.burl.slots = s.burl.slots := by
  have same : u.burl = s.generate1.burl := kept .burl (by decide)
  rw [same, Dev.generate1]

theorem Dev.auditVerify_eq {mem : HostData} {key : List Byte} {r : Option Nat} (root : s.auditKey = some key) (read : mem.err = false)
    (whole : 64 * fld d.p16 14 0 ≤ mem.octets.length)
    (found : r = badEntry key mem.octets (fld d.p16 14 0) (BitVec.ofNat 128 (d.p24.toNat * 2 ^ 64 + d.p32.toNat))) :
    s.auditVerify d mem = .done s (if r.isSome then stAuthFail else stOk) (r.getD 0) 0 := by
  subst found
  unfold Dev.auditVerify
  simp only [root]
  have reads : ¬ (mem.err = true ∨ mem.octets.length < 64 * fld d.p16 14 0) := by
    rintro (err | short)
    · exact Bool.noConfusion (read.symm.trans err)
    · exact absurd whole (by omega)
  rw [if_neg reads]
  split
  · next h => rw [h]; rfl
  · next h => rw [h]; rfl

end

/-- Settles O57: the matrix by the three cases of its write, each command of the change log by the result of its own part. -/
theorem matrixAndAuditCommands : Obligations.MatrixAndAuditCommands := by
  unfold Obligations.MatrixAndAuditCommands
  refine ⟨fun s a which o value hr reach permit writer => ?_, fun s a which o value hr reach permit other => ?_,
    fun s d k starts some_ fits hk held => ?_, fun s d x starts seeds works => ?_, fun s d mem key r starts root read whole found => ?_,
    fun s a which o value hr reach => ?_, fun s d starts bad => ?_, fun s d starts some_ fits absent => ?_, fun s d starts none_ => ?_⟩
  · refine .of_onDev (f := (·.matrixWrite a (matrixReg which o.val) value)) rfl hr ?_
    dsimp only
    rw [Dev.matrixWrite_of_writer reach permit writer]
    have did := (s.dev.log_changes a.origin kProtection 0x70 0 0 (matrixReg which o.val) (leBytes 4 (s.dev.reg (matrixReg which o.val)).toNat)
      (leBytes 4 value.toNat) (List.mem_singleton_self _)).trans
      (Dev.setReg_changes (l := [.audit]) (w := [matrixReg which o.val]) _ _ (value &&& 0x1FFFFF) (List.mem_singleton_self _))
    exact ⟨Dev.reg_setReg_same _ _ _, rfl, ⟨did.parts.mono (by decide), rfl, rfl⟩, did.regs, did.events⟩
  · refine .of_onDev (f := (·.matrixWrite a (matrixReg which o.val) value)) rfl hr ?_
    dsimp only
    rw [Dev.matrixWrite_of_other reach permit other]
    have did := (Dev.setReg_changes (l := [.audit]) (w := [rasReg 0x1400]) s.dev _ (satAdd (s.dev.reg (rasReg 0x1400)) 1)
      (List.mem_singleton_self _)).trans
      (Dev.log_changes _ a.origin kDenied 0x70 0 0 (matrixReg which o.val) (leBytes 4 (s.dev.reg (matrixReg which o.val)).toNat)
        (leBytes 4 value.toNat) (List.mem_singleton_self _))
    exact ⟨did.regs _ (by simpa using matrixReg_ne_denied which o), (Dev.log_reg _ _ _ _ _ _ _ _ _ _).trans (Dev.reg_setReg_same _ _ _), rfl, ⟨did.parts.mono (by decide), rfl, rfl⟩,
      did.regs, did.events⟩
  · subst hk
    exact .of_hostWrite rfl starts (Dev.auditDump_of_held some_ fits held) rfl (dumped_length _ _ fits) fun u kept wrote told =>
      ⟨wrote, ⟨((s.dev.demand_keeps 0x71 0).mono (by decide)).trans (kept.mono (by decide)), rfl, rfl⟩, told⟩
  · refine .of_hostWrite rfl starts (Dev.signTo_of_seeds (s := s.dev.demand 0x71 0) seeds works _) rfl ?_ fun u kept wrote told =>
      ⟨wrote, ⟨((s.dev.demand_keeps 0x71 0).mono (by decide)).trans (((Dev.signed_keeps _).mono (by decide)).trans (kept.mono (by decide))),
        rfl, rfl⟩, Dev.slots_of_signed (s := s.dev.demand 0x71 0) kept, told⟩
    have head := (s.dev.demand 0x71 0).sealHead_length d
    have sig := signBoth_length x.1 x.2 (s.dev.demand 0x71 0).draws ((s.dev.demand 0x71 0).sealHead d)
    rw [List.length_append]
    omega
  · exact .of_reply rfl starts (Dev.auditVerify_eq (s := s.dev.demand 0x71 0) root read whole found)
  · refine .of_onDev (f := (·.matrixWrite a (matrixReg which o.val) value)) rfl hr ?_
    rw [Dev.matrixWrite_of_unreached reach]
  · obtain ⟨t, step, frame, told⟩ := Completes.of_reply (i := .auditDump d false) rfl starts (Dev.auditDump_of_bad bad)
    exact ⟨t, step, told, frame⟩
  · obtain ⟨t, step, frame, told⟩ := Completes.of_reply (i := .auditDump d false) rfl starts
      (Dev.auditDump_of_absent (s := s.dev.demand 0x71 0) some_ fits absent)
    exact ⟨t, step, told, frame⟩
  · obtain ⟨t, step, frame, told⟩ := Completes.of_reply (i := .auditSeal d false) rfl starts
      (Dev.signTo_of_none (s := s.dev.demand 0x71 0) none_ _)
    exact ⟨t, step, told, frame⟩

end Sys2Proof.Machine
end

section
/-! SUPPORT. Commands of the key store that change a slot no use keeps (R380, R381, R387 to R391), and the statement on those that write a
key. -/
namespace Sys2Proof.Machine

/-! ## A change of a slot -/

section
variable (s : Dev) (n : Nat) (k : KeySlot)

theorem Dev.setSlot_burl : (s.setSlot n k).burl = { s.burl with slots := s.burl.slots.put .empty n k } := rfl

theorem Dev.slot_setSlot_same : (s.setSlot n k).slot n = k := Store.get_put_same _ _ _ _

theorem Dev.slot_setSlot_ne {m : Nat} (hm : m ≠ n) : (s.setSlot n k).slot m = s.slot m := Store.get_put_ne _ _ _ _ hm

theorem Dev.setSlot_changes : Dev.changes [.burl] [burlReg 0x4014] s (s.setSlot n k) := by
  have slots : Dev.changes [.burl] [burlReg 0x4014] s { s with burl := { s.burl with slots := s.burl.slots.put .empty n k } } := by
    refine .of_keeps (fun p hp => ?_) rfl rfl
    cases p with
    | burl => exact absurd (List.mem_singleton_self _) hp
    | _ => rfl
  exact slots.trans (Dev.setReg_changes _ _ _ (List.mem_singleton_self _))

theorem Dev.keyChange_of_idle (d : CmdDesc) (op cause : Nat) (idle : s.inUse n = false) :
    s.keyChange d op cause n k = .done ((s.setSlot n k).keyEvent cause n) stOk k.gen.toNat 0 := by
  unfold Dev.keyChange
  rw [idle]
  rfl

end

/-- The checks every key-store command meets pass: its slot exists and is not RETIRED, and its origin owns it where it is LIVE. -/
structure Dev.mayChange (s : Dev) (d : CmdDesc) : Prop where
  slot : fld d.p8 19 10 ≤ 575
  kept : (s.slot (fld d.p8 19 10)).state ≠ 3
  owned : (s.slot (fld d.p8 19 10)).state = 1 → (s.slot (fld d.p8 19 10)).owner.testBit d.origin = true

theorem Dev.mayChange.keyBody {s : Dev} {d : CmdDesc} (may : s.mayChange d) (bank : d.un = bankUnit (fld d.p8 19 10))
    (f : Nat → KeySlot → CmdRes) : s.keyBody d f = f (fld d.p8 19 10) (s.slot (fld d.p8 19 10)) := by
  obtain ⟨slot, kept, owned⟩ := may
  unfold Dev.keyBody
  dsimp only
  rw [if_neg (by omega), if_neg, if_neg kept]
  rintro ⟨live, foreign⟩
  rw [owned live] at foreign
  exact Bool.noConfusion foreign

/-! ## Its commands -/

section
variable {s : State} {d : CmdDesc} {i : Instr} {op : Nat} {mask : List Nat} {kind : Option Nat} {body : Dev → CmdRes}

/-- Before decommissioning a command of the key store does its own part (R386). -/
theorem Dev.lives {r : CmdRes} (life : s.dev.lifeCycle ≠ 4) {un : Nat} (does : body (s.dev.demand 0x40 un) = r) :
    (if (s.dev.demand 0x40 un).lifeCycle = 4 then CmdRes.fail (s.dev.demand 0x40 un) stWrongMode else body (s.dev.demand 0x40 un)) = r :=
  (if_neg life).trans does

/-- A command of the key store that starts before decommissioning and changes a slot no use keeps. -/
theorem Completes.of_keyChange {k : KeySlot} {cause : Nat}
    (meaning : exec i s = s.onDev (fun x => x.keyCommand d op mask kind body))
    (starts : s.starts d 0x40 (bankUnit (fld d.p8 19 10)) op mask = true) (life : s.dev.lifeCycle ≠ 4)
    (idle : s.dev.inUse (fld d.p8 19 10) = false)
    (does : body (s.dev.demand 0x40 (bankUnit (fld d.p8 19 10))) =
      (s.dev.demand 0x40 (bankUnit (fld d.p8 19 10))).keyChange d op cause (fld d.p8 19 10) k) :
    Completes i s (fun t => t.dev.slot (fld d.p8 19 10) = k ∧ s.completes d [.burl] [burlReg 0x4014] t ∧
      s.dev.basjo.answers d stOk (t.dev.slot (fld d.p8 19 10)).gen.toNat 0 t.dev.basjo ∧
      (∀ m, m ≠ fld d.p8 19 10 → t.dev.slot m = s.dev.slot m) ∧ t.dev.burl = { s.dev.burl with slots := t.dev.burl.slots }) := by
  have answer := Dev.lives life (does.trans (Dev.keyChange_of_idle _ _ k d op cause idle))
  have did := ((s.dev.demand 0x40 (bankUnit (fld d.p8 19 10))).setSlot_changes (fld d.p8 19 10) k).trans
    (Dev.raise_changes _ 48 cause 0x40 (((s.dev.demand 0x40 (bankUnit (fld d.p8 19 10))).setSlot (fld d.p8 19 10) k).eventBank (fld d.p8 19 10))
      (fld d.p8 19 10) (((s.dev.demand 0x40 (bankUnit (fld d.p8 19 10))).setSlot (fld d.p8 19 10) k).slot (fld d.p8 19 10)).gen.toNat)
  obtain ⟨frame, told⟩ := State.completes_of_changes starts did kind stOk k.gen.toNat 0
  refine .of_command meaning starts (decide_eq_true rfl) rfl answer ?_
  have burl : ((((s.dev.demand 0x40 (bankUnit (fld d.p8 19 10))).setSlot (fld d.p8 19 10) k).keyEvent cause (fld d.p8 19 10)).complete d op
      kind stOk k.gen.toNat 0).burl = { s.dev.burl with slots := s.dev.burl.slots.put .empty (fld d.p8 19 10) k } :=
    Dev.complete_burl _ _ _ _ _ _ _
  have same : Dev.slot ((((s.dev.demand 0x40 (bankUnit (fld d.p8 19 10))).setSlot (fld d.p8 19 10) k).keyEvent cause
      (fld d.p8 19 10)).complete d op kind stOk k.gen.toNat 0) (fld d.p8 19 10) = k := by
    rw [Dev.slot, burl]
    exact Store.get_put_same _ _ _ _
  refine ⟨same, frame, by rw [same]; exact told, fun m hm => ?_, by rw [burl]⟩
  rw [Dev.slot, burl]
  exact Store.get_put_ne _ _ _ _ hm

/-- One that changes nothing. -/
theorem Completes.of_keyRefusal {st : Nat}
    (meaning : exec i s = s.onDev (fun x => x.keyCommand d op mask kind body))
    (starts : s.starts d 0x40 (bankUnit (fld d.p8 19 10)) op mask = true) (life : s.dev.lifeCycle ≠ 4)
    (does : body (s.dev.demand 0x40 (bankUnit (fld d.p8 19 10))) = .done (s.dev.demand 0x40 (bankUnit (fld d.p8 19 10))) st 0 0) :
    Completes i s (fun t => s.completes d [] [] t ∧ s.dev.basjo.answers d st 0 0 t.dev.basjo) :=
  .of_command meaning starts (decide_eq_true rfl) rfl (Dev.lives life does) (State.completes_of_changes starts (.refl _) kind st 0 0)

end

/-! ## A key is written -/

/-- The generation of a slot a key is written into (R380). -/
def KeySlot.nextGen (k : KeySlot) : Word := if k.state = 1 then k.gen + 1 else k.gen

section
variable {s : Dev} {d : CmdDesc}

theorem Dev.keyWrite_of_room {op n : Nat} {k new : KeySlot} (low : n < 512) (room : k.state = 1 → k.gen ≠ 0xFFFFFFFF) :
    s.keyWrite d op n k new = s.keyChange d op 1 n { new with gen := k.nextGen } :=
  (if_neg (by omega)).trans (if_neg fun ⟨live, full⟩ => room live full)

variable (may : s.mayChange d) (bank : d.un = bankUnit (fld d.p8 19 10))
include may bank

theorem Dev.keyLoad_of_may (whole : bit d.p8 0 = true ∨ (d.p32 = 0 ∧ d.p40 = 0)) : s.keyLoad d =
    s.keyWrite d 0x20 (fld d.p8 19 10) (s.slot (fld d.p8 19 10))
      (newKey d (fld d.p8 5 4) (bit d.p8 0) ((d.octets.drop 8).take (if bit d.p8 0 then 32 else 16))) := by
  unfold Dev.keyLoad
  dsimp only
  rw [if_neg, may.keyBody bank]
  obtain long | ⟨p32, p40⟩ := whole
  · simp [long]
  · simp [p32, p40]

section
variable (low : fld d.p8 19 10 < 512)
include low

theorem Dev.keyDerive_of_root {n : Nat} (root : fld d.p8 9 0 = 0x3FD + n) (live : s.rootOk n = true) : s.keyDerive d =
    s.keyWrite d 0x21 (fld d.p8 19 10) (s.slot (fld d.p8 19 10))
      { newKey d (fld d.p40 9 8) (bit d.p40 0) (kdf (rootBytes n) ((d.octets.drop 8).take 16) (kdfContext s.lifeCycle (fld d.p40 9 8)
          (fld d.p8 30 20) (bit d.p40 0) (bit d.p40 4) ((d.octets.drop 24).take 8)) (if bit d.p40 0 then 32 else 16)) with
        depth := 0, parent := fld d.p8 9 0, parentGen := 0, source := 1, tag := BitVec.ofNat 32 (fld d.p40 63 32) } := by
  have index : fld d.p8 9 0 - 0x3FD = n := by omega
  unfold Dev.keyDerive
  dsimp only
  rw [if_neg (by omega), may.keyBody bank, if_neg (by omega), if_pos (by omega), index, if_pos live]

theorem Dev.keyDerive_of_slot (parent : fld d.p8 9 0 ≤ 575) (use : s.mayUse (fld d.p8 9 0) uDerive 10 = true)
    (long : (s.slot (fld d.p8 9 0)).key256 = true) (depth : (s.slot (fld d.p8 9 0)).depth < 7) : s.keyDerive d =
    s.keyWrite d 0x21 (fld d.p8 19 10) (s.slot (fld d.p8 19 10))
      { newKey d (fld d.p40 9 8) (bit d.p40 0) (kdf (s.slot (fld d.p8 9 0)).octets ((d.octets.drop 8).take 16)
          (kdfContext s.lifeCycle (fld d.p40 9 8) (fld d.p8 30 20) (bit d.p40 0) (bit d.p40 4) ((d.octets.drop 24).take 8))
          (if bit d.p40 0 then 32 else 16)) with
        depth := (s.slot (fld d.p8 9 0)).depth + 1, parent := fld d.p8 9 0, parentGen := (s.slot (fld d.p8 9 0)).gen, source := 1
        tag := BitVec.ofNat 32 (fld d.p40 63 32) } := by
  unfold Dev.keyDerive
  dsimp only
  rw [if_neg (by omega), may.keyBody bank, if_neg (by omega), if_neg (by omega), if_neg (by simp [use, long]), if_neg (by omega)]

variable (room : (s.slot (fld d.p8 19 10)).state = 1 → (s.slot (fld d.p8 19 10)).gen ≠ 0xFFFFFFFF) (parent : fld d.p8 9 0 ≤ 575)
  (use : s.mayUse (fld d.p8 9 0) uWrap 10 = true) (depth : (s.slot (fld d.p8 9 0)).depth < 7) {mem : HostData} (read : mem.err = false)
  (whole : (if bit d.p24 0 then 40 else 24) ≤ mem.octets.length)
include room parent use depth read whole

theorem Dev.keyUnwrapCmd_of_good {o : List Byte}
    (good : keyUnwrap (s.slot (fld d.p8 9 0)).octets (mem.octets.take (if bit d.p24 0 then 40 else 24)) = some o) : s.keyUnwrapCmd d mem =
    s.keyWrite d 0x22 (fld d.p8 19 10) (s.slot (fld d.p8 19 10)) { newKey d (fld d.p24 5 4) (bit d.p24 0) o with
      depth := (s.slot (fld d.p8 9 0)).depth + 1, parent := fld d.p8 9 0, parentGen := (s.slot (fld d.p8 9 0)).gen, source := 2
      tag := BitVec.ofNat 32 (fld d.p24 63 32) } := by
  unfold Dev.keyUnwrapCmd
  dsimp only
  rw [if_neg (by omega), may.keyBody bank, if_neg (by omega), if_neg (by simp [use]), if_neg (by omega), if_neg fun ⟨live, full⟩ => room live full,
    if_neg (by rw [read]; simpa using whole), good]

theorem Dev.keyUnwrapCmd_of_bad
    (bad : keyUnwrap (s.slot (fld d.p8 9 0)).octets (mem.octets.take (if bit d.p24 0 then 40 else 24)) = none) :
    s.keyUnwrapCmd d mem = .done s stAuthFail 0 0 := by
  unfold Dev.keyUnwrapCmd
  dsimp only
  rw [if_neg (by omega), may.keyBody bank, if_neg (by omega), if_neg (by simp [use]), if_neg (by omega), if_neg fun ⟨live, full⟩ => room live full,
    if_neg (by rw [read]; simpa using whole), bad]
  rfl

end

end

/-- Settles O35: each command's own part is a change of its slot, or a refusal. -/
theorem keysEnterSlots : Obligations.KeysEnterSlots := by
  unfold Obligations.KeysEnterSlots
  refine ⟨fun s d starts life slot kept owned idle low room whole => ?_,
    fun s d n starts life slot kept owned idle low room root live => ?_,
    fun s d starts life slot kept owned idle low room parent use long depth => ?_,
    fun s d mem o starts life slot kept owned idle low room parent use depth read whole good => ?_,
    fun s d starts life short => ?_, fun s d starts life slot kept owned idle high whole => ?_,
    fun s d mem starts life slot kept owned idle low room parent use depth read whole bad => ?_⟩
  · exact .of_keyChange rfl starts life idle ((Dev.keyLoad_of_may (s := s.dev.demand 0x40 _) ⟨slot, kept, owned⟩ (State.starts_unit starts)
      whole).trans (Dev.keyWrite_of_room low room))
  · exact .of_keyChange rfl starts life idle ((Dev.keyDerive_of_root (s := s.dev.demand 0x40 _) ⟨slot, kept, owned⟩
      (State.starts_unit starts) low root live).trans (Dev.keyWrite_of_room low room))
  · exact .of_keyChange rfl starts life idle ((Dev.keyDerive_of_slot (s := s.dev.demand 0x40 _) ⟨slot, kept, owned⟩
      (State.starts_unit starts) low parent use long depth).trans (Dev.keyWrite_of_room low room))
  · exact .of_keyChange rfl starts life idle ((Dev.keyUnwrapCmd_of_good (s := s.dev.demand 0x40 _) ⟨slot, kept, owned⟩
      (State.starts_unit starts) low room parent use depth read whole good).trans (Dev.keyWrite_of_room low room))
  · refine .of_keyRefusal rfl starts life (if_pos ?_)
    simpa using short
  · exact .of_keyRefusal rfl starts life ((Dev.keyLoad_of_may (s := s.dev.demand 0x40 _) ⟨slot, kept, owned⟩ (State.starts_unit starts)
      whole).trans (if_pos high))
  · exact .of_keyRefusal rfl starts life (Dev.keyUnwrapCmd_of_bad (s := s.dev.demand 0x40 _) ⟨slot, kept, owned⟩ (State.starts_unit starts)
      low room parent use depth read whole bad)

end Sys2Proof.Machine
end

section
/-! SUPPORT. The bridge Sapwood: what its operations change (R446 to R455), and the statement on its semaphores, wires and notices. -/
namespace Sys2Proof.Machine

/-! ## The bridge's operations -/

section
variable (s : Dev) {l : List Part} {w : List Nat}

theorem Dev.onSap_changes (f : Sap → Sap) (hl : .sap ∈ l) : Dev.changes l w s (s.onSap f) := by
  refine .of_keeps (fun p hp => ?_) rfl rfl
  cases p with
  | sap => exact absurd hl hp
  | _ => rfl

theorem Dev.sapFault_changes (cause : Nat) : Dev.changes l w s (s.sapFault cause) := Dev.raiseRated_changes ..

@[simp] theorem Dev.sapFault_reg (cause a : Nat) : (s.sapFault cause).reg a = s.reg a := s.raiseRated_reg _ _ _ _ _ _ _ _ a

theorem Dev.sapFault_sap (cause : Nat) : (s.sapFault cause).sap = s.sap :=
  (Dev.sapFault_changes s (l := []) (w := []) cause).part (p := .sap) (by decide)

theorem Dev.declareDown_changes (hl : .sap ∈ l) (hw : sapReg 4 ∈ w) : Dev.changes l w s s.declareDown :=
  ((Dev.setReg_changes s _ _ hw).trans (Dev.onSap_changes _ _ hl)).trans (Dev.sapFault_changes _ 3)

theorem Dev.declareDown_reg (a : Nat) : s.declareDown.reg a = if a = sapReg 4 then setBit (s.reg (sapReg 4)) 0 true else s.reg a :=
  (Dev.sapFault_reg _ 3 a).trans (s.reg_setRb (sapReg 4) 0 a true)

theorem Dev.declareDown_linkDown : s.declareDown.linkDown = true := by
  rw [Dev.linkDown, Dev.rb, s.declareDown_reg, if_pos rfl, bit_setBit_same _ _ _ (by decide)]

theorem Dev.declareDown_sap : s.declareDown.sap = { s.sap with
    queue := [], timeouts := 0, failed := (s.sap.queue.getLast?).elim s.sap.failed (·.addr)
    last := if s.sap.queue.isEmpty then s.sap.last else some ⟨false, false, 0⟩ } := Dev.sapFault_sap _ 3

end

/-! ## Semaphores -/

/-- The register of semaphore `i`. -/
abbrev semReg (i : Nat) : Nat := sapReg (0x100 + 4 * i)

/-- A semaphore is taken by an origin. -/
def Dev.semOwned (s : Dev) (o i : Nat) : Bool := s.rb (semReg i) 0 && s.rf (semReg i) 7 4 = o

/-- One semaphore is freed where the origin owns it. -/
def Dev.freeSem (o : Nat) (s : Dev) (i : Nat) : Dev := if s.semOwned o i then s.setReg (semReg i) 0 else s

theorem Dev.freeSems_eq (s : Dev) (o : Nat) : s.freeSems o = (List.range 16).foldl (Dev.freeSem o) s := by
  unfold Dev.freeSems Dev.freeSem Dev.semOwned
  simp only [Bool.and_eq_true, decide_eq_true_eq]

theorem Dev.freeSem_reg_ne (s : Dev) (o : Nat) {i a : Nat} (h : a ≠ semReg i) : (s.freeSem o i).reg a = s.reg a := by
  unfold Dev.freeSem
  split
  · exact s.reg_setReg_ne 0 h
  · rfl

theorem Dev.freeSem_semOwned_ne (s : Dev) (o : Nat) {i j : Nat} (h : j ≠ i) : (s.freeSem o i).semOwned o j = s.semOwned o j := by
  have ne : semReg j ≠ semReg i := by unfold semReg sapReg; omega
  unfold Dev.semOwned Dev.rb Dev.rf
  rw [s.freeSem_reg_ne o ne]

theorem Dev.freeSem_changes (s : Dev) (o i : Nat) {l : List Part} {w : List Nat} (hw : semReg i ∈ w) :
    Dev.changes l w s (s.freeSem o i) := by
  unfold Dev.freeSem
  split
  · exact Dev.setReg_changes _ _ _ hw
  · exact .refl _

/-- What freeing semaphores one after the other changes, and what a semaphore among them reads after it. -/
theorem Dev.freeSem_foldl (o : Nat) (l : List Nat) (each : l.Nodup) (s : Dev) :
    Dev.changes [] (l.map semReg) s (l.foldl (Dev.freeSem o) s) ∧
      ∀ i ∈ l, (l.foldl (Dev.freeSem o) s).reg (semReg i) = if s.semOwned o i then 0 else s.reg (semReg i) := by
  induction l generalizing s with
  | nil => exact ⟨.refl _, fun i hi => absurd hi List.not_mem_nil⟩
  | cons j l ih =>
    obtain ⟨fresh, each⟩ := List.nodup_cons.mp each
    obtain ⟨frame, reads⟩ := ih each (s.freeSem o j)
    refine ⟨(s.freeSem_changes o j List.mem_cons_self).trans (frame.mono (List.Subset.refl _) (List.subset_cons_self _ _)), fun i hi => ?_⟩
    rw [List.foldl_cons]
    obtain rfl | hi := List.mem_cons.mp hi
    · have out : semReg i ∉ l.map semReg := fun h => by
        obtain ⟨k, hk, e⟩ := List.mem_map.mp h
        have : k = i := by unfold semReg sapReg at e; omega
        exact fresh (this ▸ hk)
      rw [frame.regs _ out, Dev.freeSem]
      split
      · exact Dev.reg_setReg_same _ _ _
      · rfl
    · have ne : i ≠ j := fun e => fresh (e ▸ hi)
      rw [reads i hi, s.freeSem_semOwned_ne o ne, s.freeSem_reg_ne o (by unfold semReg sapReg; omega)]

theorem Dev.freeSems_changes (s : Dev) (o : Nat) : Dev.changes [] ((List.range 16).map semReg) s (s.freeSems o) := by
  rw [s.freeSems_eq]
  exact (Dev.freeSem_foldl o _ List.nodup_range s).1

theorem Dev.freeSems_reg (s : Dev) (o : Nat) {i : Nat} (hi : i < 16) :
    (s.freeSems o).reg (semReg i) = if s.semOwned o i then 0 else s.reg (semReg i) := by
  rw [s.freeSems_eq]
  exact (Dev.freeSem_foldl o _ List.nodup_range s).2 i (List.mem_range.mpr hi)

/-! ## Interrupts to Canopy -/

theorem Dev.irqWaits_congr {s t : Dev} (same : ∀ k, t.reg (pairReg k 0) = s.reg (pairReg k 0)) (name : String) (n : Nat) :
    t.irqWaits name n = s.irqWaits name n := by
  simp only [Dev.irqWaits, same]

theorem Dev.canopyIrq_keeps (s : Dev) (name : String) (n : Nat) : s.keeps [.out, .canopy] (s.canopyIrq name n) := by
  unfold Dev.canopyIrq
  intro p hp
  cases p with
  | out | canopy => exact absurd (by decide) hp
  | _ => split <;> rfl

/-! ## Rows that act on both dies -/

/-- A row that acts on both dies is complete in one step. -/
theorem Completes.of_onBoth {i : Instr} {s : State} {P : State → Prop} {f : Dev → Heart → Dev × Heart} {d : Dev} {h : Heart}
    (meaning : exec i s = s.onBoth f) (does : f s.dev s.heart = (d, h)) (hp : P { s with dev := d, heart := h }) : Completes i s P := by
  refine ⟨_, meaning, ?_⟩
  rw [does]
  exact hp

/-! ## The statement -/

theorem Dev.semRead_eq {s : Dev} {a : Acc} (present : heartPresent s.variant = true) (reach : reaches a.origin 14 = true)
    (permit : s.permitted 1 a.origin 14 = true) (i : Nat) : s.semRead a i =
      (if s.rb (semReg i) 0 then s else s.setReg (semReg i) (BitVec.ofNat 32 (a.origin.val * 16 + 1))).readGives a.origin.val
        (s.reg (semReg i)) := by
  unfold Dev.semRead
  simp only [present, reach, permit, Bool.not_true, Bool.or_self, Bool.false_eq_true, if_false]
  rfl

/-- The notice registers hold the four words of a notice. -/
theorem Dev.noticeWords_reg (s : Dev) (f : Nat → Word) {k : Nat} (hk : k < 4) :
    ((List.range 4).foldl (fun (d : Dev) k => d.setReg (sapReg (0x40 + 4 * k)) (f k)) s).reg (sapReg (0x40 + 4 * k)) = f k := by
  have last : ∀ (d : Dev) (a b : Nat) (v : Word), b ≠ a → (d.setReg a v).reg b = d.reg b := fun d a b v => d.reg_setReg_ne v
  obtain rfl | rfl | rfl | rfl : k = 0 ∨ k = 1 ∨ k = 2 ∨ k = 3 := by omega
  · exact ((((last _ _ _ _ (by decide)).trans (last _ _ _ _ (by decide))).trans (last _ _ _ _ (by decide))).trans (Dev.reg_setReg_same _ _ _))
  · exact (((last _ _ _ _ (by decide)).trans (last _ _ _ _ (by decide))).trans (Dev.reg_setReg_same _ _ _))
  · exact ((last _ _ _ _ (by decide)).trans (Dev.reg_setReg_same _ _ _))
  · exact Dev.reg_setReg_same _ _ _

theorem Dev.noticeWords_changes (s : Dev) (f : Nat → Word) : Dev.changes [] [sapReg 0x40, sapReg 0x44, sapReg 0x48, sapReg 0x4C] s
    ((List.range 4).foldl (fun (d : Dev) k => d.setReg (sapReg (0x40 + 4 * k)) (f k)) s) :=
  (((Dev.setReg_changes _ _ _ (by simp)).trans (Dev.setReg_changes _ _ _ (by simp))).trans (Dev.setReg_changes _ _ _ (by simp))).trans
    (Dev.setReg_changes _ _ _ (by simp))

/-- The four words of a notice, and its record. -/
def noticeWords (x : HwNotice) (k : Nat) : Word := Config.noticeWord k x.cls x.cause x.unit x.a x.b
def Dev.noticeRaised (s : Dev) (x : HwNotice) : Dev :=
  ((List.range 4).foldl (fun (d : Dev) k => d.setReg (sapReg (0x40 + 4 * k)) (noticeWords x k)) s).raise x.cls x.cause 0x50 x.unit x.a x.b

/-- The line to Heartwood high frees its semaphores and, where the link stands, takes it down. -/
theorem Dev.linkDown_freeSems (s : Dev) (o : Nat) : (s.freeSems o).linkDown = s.linkDown := by
  have ne : sapReg 4 ∉ (List.range 16).map semReg := by decide
  simp only [Dev.linkDown, Dev.rb, (s.freeSems_changes o).regs _ ne]

theorem Dev.freeSems_sap (s : Dev) (o : Nat) : (s.freeSems o).sap = s.sap := (s.freeSems_changes o).part (p := .sap) (by decide)

theorem Dev.setRb_changes (s : Dev) (a i : Nat) (v : Bool) {l : List Part} {w : List Nat} (ha : a ∈ w) : Dev.changes l w s (s.setRb a i v) :=
  Dev.setReg_changes _ _ _ ha

theorem Dev.changes.count (s : Dev) (a : Nat) {l : List Part} {w : List Nat} (ha : a ∈ w) : Dev.changes l w s (s.count a) :=
  Dev.setReg_changes _ _ _ ha

/-! ## Wires -/

/-- An edge of wire `n` of IRQ_H2M is pending, and is told to Canopy where it is enabled. -/
def Dev.irqH2m (s : Dev) (n : Nat) : Dev :=
  if (s.setRb (sapReg 0x24) n true).rb (sapReg 0x28) n then (s.setRb (sapReg 0x24) n true).canopyIrq "CANOPY_SAPWOOD" n
  else s.setRb (sapReg 0x24) n true

section
variable {s : Dev} {n : Nat}

theorem Dev.pended_rb : (s.setRb (sapReg 0x24) n true).rb (sapReg 0x28) n = s.rb (sapReg 0x28) n := Dev.rb_setReg_ne s _ n (by decide)

theorem Dev.pended_irqWaits (name : String) (k : Nat) : (s.setRb (sapReg 0x24) n true).irqWaits name k = s.irqWaits name k :=
  Dev.irqWaits_congr (fun j => s.reg_setReg_ne _ (by unfold pairReg canopyReg sapReg; omega)) name k

theorem Dev.irqH2m_keeps (s : Dev) (n : Nat) : s.keeps [.regs, .out, .canopy] (s.irqH2m n) := by
  have pended : s.keeps [.regs, .out, .canopy] (s.setRb (sapReg 0x24) n true) := (s.setReg_keeps _ _).mono (by decide)
  unfold Dev.irqH2m
  split
  · exact pended.trans ((Dev.canopyIrq_keeps _ _ _).mono (by decide))
  · exact pended

theorem Dev.irqH2m_reg_eq (s : Dev) (n a : Nat) : (s.irqH2m n).reg a = (s.setRb (sapReg 0x24) n true).reg a := by
  unfold Dev.irqH2m Dev.canopyIrq
  split
  · split <;> rfl
  · rfl

theorem Dev.irqH2m_reg (s : Dev) (n : Nat) : (s.irqH2m n).reg (sapReg 0x24) = setBit (s.reg (sapReg 0x24)) n true :=
  (s.irqH2m_reg_eq n _).trans (Dev.reg_setReg_same _ _ _)

theorem Dev.irqH2m_reg_ne {a : Nat} (ha : a ≠ sapReg 0x24) : (s.irqH2m n).reg a = s.reg a :=
  (s.irqH2m_reg_eq n a).trans (Dev.reg_setReg_ne s _ ha)

theorem Dev.irqH2m_now (on : s.rb (sapReg 0x28) n = true) (now : s.irqWaits "CANOPY_SAPWOOD" n = false) :
    (s.irqH2m n).out = .irq "CANOPY_SAPWOOD" n :: s.out ∧ (s.irqH2m n).canopy = s.canopy := by
  rw [Dev.irqH2m, Dev.pended_rb, if_pos on, Dev.canopyIrq, Dev.pended_irqWaits, now]
  exact ⟨rfl, rfl⟩

theorem Dev.irqH2m_later (on : s.rb (sapReg 0x28) n = true) (later : s.irqWaits "CANOPY_SAPWOOD" n = true) :
    (s.irqH2m n).out = s.out ∧ (s.irqH2m n).canopy = { s.canopy with irqs := s.canopy.irqs ++ [("CANOPY_SAPWOOD", n)] } := by
  rw [Dev.irqH2m, Dev.pended_rb, if_pos on, Dev.canopyIrq, Dev.pended_irqWaits, later]
  exact ⟨rfl, rfl⟩

theorem Dev.irqH2m_off (off : s.rb (sapReg 0x28) n = false) : (s.irqH2m n).out = s.out ∧ (s.irqH2m n).canopy = s.canopy := by
  rw [Dev.irqH2m, Dev.pended_rb, off]
  exact ⟨rfl, rfl⟩

end

/-! ## The line HW_RST -/

/-- The line is high: Heartwood's semaphores are free. -/
def Dev.resetHigh (s : Dev) : Dev := (s.onSap (fun x => { x with rst := true })).freeSems 7

theorem Dev.onSap_keeps (s : Dev) (f : Sap → Sap) : s.keeps [.sap] (s.onSap f) := by
  intro p hp
  cases p with
  | sap => exact absurd (List.mem_singleton_self _) hp
  | _ => rfl

theorem Dev.resetHigh_sap (s : Dev) : s.resetHigh.sap = { s.sap with rst := true } := Dev.freeSems_sap _ 7

theorem Dev.resetHigh_declareDown_reg (s : Dev) {i : Nat} (hi : i < 16) :
    s.resetHigh.declareDown.reg (semReg i) = if s.semOwned 7 i then 0 else s.reg (semReg i) := by
  rw [Dev.declareDown_reg, if_neg (by unfold semReg sapReg; omega), Dev.resetHigh, Dev.freeSems_reg _ 7 hi]
  rfl

theorem exec_hwRstChange_high {s : State} (hr : s.dev.runs = true) (present : heartPresent s.dev.variant = true) (up : s.dev.linkDown = false) :
    exec (.hwRstChange true) s = .next { s with dev := s.dev.resetHigh.declareDown } := by
  have runs : (s.dev.onSap (fun x => { x with rst := true })).runs = true := hr
  have stands : s.dev.resetHigh.linkDown = false := ((s.dev.onSap _).linkDown_freeSems 7).trans up
  refine (execHwRstChange.eq_1 true s).trans ?_
  rw [State.onTap, if_neg (by simp [present])]
  simp only [runs, Bool.not_true, Bool.or_self, Bool.false_eq_true, if_false]
  rw [show (s.dev.onSap (fun x => { x with rst := true })).freeSems 7 = s.dev.resetHigh from rfl, stands, if_neg Bool.false_ne_true]

theorem exec_hwRstChange_idle {s : State} {high : Bool} (present : heartPresent s.dev.variant = true)
    (idle : high = false ∨ s.dev.runs = false) :
    exec (.hwRstChange high) s = .next { s with dev := s.dev.onSap (fun x => { x with rst := high }) } := by
  have runs : (s.dev.onSap (fun x => { x with rst := high })).runs = s.dev.runs := rfl
  refine (execHwRstChange.eq_1 high s).trans ?_
  rw [State.onTap, if_neg (by simp [present])]
  dsimp only
  rw [runs, if_pos (by obtain h | h := idle <;> simp [h])]

/-- Settles O46: each row's meaning under its premises, with the frames of the bridge's operations. -/
theorem sapwoodSemaphoresWiresAndNotices : Obligations.SapwoodSemaphoresWiresAndNotices := by
  unfold Obligations.SapwoodSemaphoresWiresAndNotices
  refine ⟨fun s a n hr present reach permit free => ?_, fun s a n hr present reach permit taken => ?_, fun s a n opens taken own => ?_,
    fun s a n value opens foreign => ?_, fun s hr present heard late => ?_, fun s hr present => ?_, fun s n hr present low => ?_,
    fun s x r hr present on notices => ?_, fun s hr present up => ?_, fun s high present idle => ?_, fun s hr present early => ?_,
    fun s n hr high => ?_, fun s hr none_ => ?_⟩
  · refine .of_onDev (f := (·.semRead a n.val)) rfl hr ?_
    have did := Dev.setReg_changes (l := []) s.dev (semReg n.val) (BitVec.ofNat 32 (a.origin.val * 16 + 1)) (List.mem_singleton_self _)
    rw [Dev.semRead_eq present reach permit, free, if_neg Bool.false_ne_true]
    exact ⟨(Dev.readGives_reg _ _ _ _).trans (Dev.reg_setReg_same _ _ _), rfl, ⟨((s.dev.setReg_keeps _ _).mono (by decide)).trans ((Dev.readGives_keeps _ _ _).mono (by decide)),
      rfl, rfl⟩, did.regs⟩
  · refine .of_onDev (f := (·.semRead a n.val)) rfl hr ?_
    rw [Dev.semRead_eq present reach permit, taken, if_pos rfl]
    exact ⟨rfl, Dev.readGives_keeps _ _ _, rfl, rfl⟩
  · obtain ⟨hr, ho⟩ := s.opens_runs a _ opens
    refine .of_onDev (execSemWrite.eq_1 a n 0 s) hr ?_
    simp only [Dev.admit_of_opens _ _ _ _ _ _ ho, taken, own, Bool.not_true, Bool.false_eq_true, if_false, decide_true, Bool.and_self, if_true]
    exact ⟨Dev.reg_setReg_same _ _ _, ⟨s.dev.setReg_keeps _ _, rfl, rfl⟩,
      (Dev.setReg_changes (l := []) s.dev _ 0 (List.mem_singleton_self _)).regs⟩
  · obtain ⟨hr, ho⟩ := s.opens_runs a _ opens
    have other : (s.dev.rb (semReg n.val) 0 && decide (s.dev.rf (semReg n.val) 7 4 = a.origin)) = false := by
      simpa only [Bool.and_eq_false_iff, decide_eq_false_iff_not, not_and_or, Bool.not_eq_true] using foreign
    refine .of_onDev (execSemWrite.eq_1 a n value s) hr ?_
    simp only [Dev.admit_of_opens _ _ _ _ _ _ ho, other, Bool.not_true, Bool.false_eq_true, if_false]
    exact ⟨(Dev.sapFault_reg _ _ _).trans (Dev.reg_setReg_same _ _ _),
      ((Dev.changes.count s.dev _ (List.mem_singleton_self _)).trans (Dev.sapFault_changes _ 6)).ofState⟩
  · refine .of_onDev (execHeartbeatTimeout.eq_1 s) hr ?_
    rw [if_neg (by simp [present, heard, late])]
    exact ⟨((Dev.sapFault_reg _ _ _).trans (Dev.onSap_reg _ _ _)).trans (Dev.reg_setReg_same _ _ _), Dev.sapFault_sap _ 4,
      (((s.dev.setRb_changes _ 1 false (List.mem_singleton_self _)).trans (Dev.onSap_changes _ _ (List.mem_singleton_self _))).trans
        (Dev.sapFault_changes _ 4)).ofState⟩
  · refine .of_onDev (execHeartbeatResume.eq_1 s) hr ?_
    have did : Dev.changes [.sap] [sapReg 4] s.dev _ := (s.dev.setRb_changes (sapReg 4) 1 true (List.mem_singleton_self _)).trans
      (Dev.onSap_changes _ (fun x => { x with silent := false, beat := s.dev.now }) (List.mem_singleton_self _))
    rw [if_neg (by simp [present])]
    dsimp only
    split
    · exact ⟨((Dev.sapFault_reg _ _ _).trans (Dev.onSap_reg _ _ _)).trans (Dev.reg_setReg_same _ _ _), Dev.sapFault_sap _ 5, (did.trans (Dev.sapFault_changes _ 5)).ofState⟩
    · exact ⟨(Dev.onSap_reg _ _ _).trans (Dev.reg_setReg_same _ _ _), rfl, did.ofState⟩
  · refine .of_onDev (execIrqH2mEdge.eq_1 n s) hr ?_
    rw [if_neg (by simp [present, low])]
    exact ⟨Dev.irqH2m_reg .., fun ⟨on, now⟩ => Dev.irqH2m_now on now, fun ⟨on, later⟩ => Dev.irqH2m_later on later, Dev.irqH2m_off,
      ⟨Dev.irqH2m_keeps _ _, rfl, rfl⟩, fun a ha => Dev.irqH2m_reg_ne (by simpa using ha)⟩
  · have did := (s.dev.noticeWords_changes (noticeWords x)).trans (Dev.raise_changes _ x.cls x.cause 0x50 x.unit x.a x.b)
    refine .of_onBoth (execNoticeGo.eq_1 s) (d := s.dev.noticeRaised x) (h := { s.heart with notices := r }) ?_
      ⟨rfl, fun k hk => s.dev.noticeWords_reg (noticeWords x) hk, did.parts, rfl, did.regs, did.events⟩
    rw [if_neg (by simp [hr, present, on]), notices]
    rfl
  · refine ⟨_, exec_hwRstChange_high hr present up, s.dev.resetHigh.declareDown_linkDown, ?_, fun n => ?_, ?_⟩
    · rw [Dev.declareDown_sap, Dev.resetHigh_sap]
    · rw [Dev.resetHigh_declareDown_reg s.dev n.isLt, Dev.semOwned]
      exact ⟨fun ⟨taken, own⟩ => if_pos (by simp [taken, own]), fun free => if_neg (by simpa using free)⟩
    · exact (((s.dev.onSap_changes _ (List.mem_singleton_self _)).trans ((s.dev.onSap _).freeSems_changes 7 |>.mono (List.nil_subset _)
        (List.subset_cons_self _ _))).trans (Dev.declareDown_changes _ (List.mem_singleton_self _) List.mem_cons_self)).ofState
  · exact ⟨_, exec_hwRstChange_idle present idle, rfl, (s.dev.onSap_keeps _), rfl, rfl⟩
  · refine .of_onDev (execHeartbeatTimeout.eq_1 s) hr ?_
    rw [if_pos (by simpa [present] using early)]
  · refine .of_onDev (execIrqH2mEdge.eq_1 n s) hr ?_
    rw [if_pos (by simp [high])]
  · refine .of_onBoth (execNoticeGo.eq_1 s) (d := s.dev) (h := s.heart) ?_ rfl
    simp only [none_]
    split <;> rfl

end Sys2Proof.Machine
end

section
/-! SUPPORT. Transfers across Sapwood (R446 to R450), and the statement on them. -/
namespace Sys2Proof.Machine

/-! ## The registers of Heartwood -/

theorem Heart.reg_setReg_same (h : Heart) (off : Nat) (v : Word) : (h.setReg off v).reg off = v := Store.get_put_same _ _ _ _

theorem Heart.reg_setReg_ne (h : Heart) {off r : Nat} (v : Word) (hr : r ≠ off) : (h.setReg off v).reg r = h.reg r :=
  Store.get_put_ne _ _ _ _ hr

theorem Heart.setReg_eq (h : Heart) (off : Nat) (v : Word) : h.setReg off v = { h with regs := (h.setReg off v).regs } := rfl

/-! ## How a transfer ends -/

section
variable (s : Dev) {l : List Part} {w : List Nat}

theorem Dev.sapError_changes (addr : Nat) (backoff : Bool) (hl : .sap ∈ l) : Dev.changes l w s (s.sapError addr backoff) :=
  s.onSap_changes _ hl

@[simp] theorem Dev.sapError_reg (addr : Nat) (backoff : Bool) (a : Nat) : (s.sapError addr backoff).reg a = s.reg a := rfl

theorem Dev.readGives_changes (o : Nat) (v : Word) (hl : .reads ∈ l) : Dev.changes l w s (s.readGives o v) :=
  .of_keeps ((s.readGives_keeps o v).mono (by simpa using hl)) rfl rfl

theorem Dev.draw_changes (hl : .draws ∈ l) : Dev.changes l w s { s with draws := s.draws + 1 } := by
  refine .of_keeps (fun p hp => ?_) rfl rfl
  cases p with
  | draws => exact absurd hl hp
  | _ => rfl

theorem Dev.tellRequest_changes (hl : .out ∈ l) : Dev.changes l w s { s with out := .irq "IRQ_H2M" 0 :: s.out } := by
  refine .of_keeps (fun p hp => ?_) rfl rfl
  cases p with
  | out => exact absurd hl hp
  | _ => rfl

end

/-- A transfer that meets a crossing is counted and ends with an error (R449). -/
def Dev.backedOff (s : Dev) (addr : Nat) : Dev :=
  ((s.count (sapReg 0x10)).setRf (sapReg 4) 8 4 (min (s.rf (sapReg 4) 8 4 + 1) 31)).sapError addr true

theorem Dev.backedOff_changes (s : Dev) (addr : Nat) : Dev.changes [.sap] [sapReg 4, sapReg 0x10] s (s.backedOff addr) :=
  ((Dev.changes.count s _ (by simp)).trans (Dev.setReg_changes _ _ _ (by simp))).trans
    (Dev.sapError_changes _ addr true (List.mem_singleton_self _))

theorem Dev.backedOff_count (s : Dev) (addr : Nat) : (s.backedOff addr).reg (sapReg 0x10) = satAdd (s.reg (sapReg 0x10)) 1 :=
  by rw [Dev.backedOff, Dev.sapError_reg, Dev.reg_setRf, if_neg (by decide), Dev.reg_count, if_pos rfl]

theorem Dev.backedOff_run (s : Dev) (addr : Nat) : (s.backedOff addr).rf (sapReg 4) 8 4 = min (s.rf (sapReg 4) 8 4 + 1) 31 := by
  rw [Dev.backedOff, Dev.rf, Dev.sapError_reg, ← Dev.rf, Dev.rf_setRf_same _ _ _ _ _ (by decide)]
  exact Nat.mod_eq_of_lt (by omega)

/-- The oldest transfer is over time: it is counted and ends with an error, `tell` says whether the request it carried has completed
at once (R447). -/
def Dev.timedOut (s : Dev) (x : SapXfer) (r : List SapXfer) (tell : Bool) : Dev :=
  let d := (({ s with draws := s.draws + 1 } : Dev).count (sapReg 0x14)).sapError x.addr false
  let d := if tell then { d with out := .irq "IRQ_H2M" 0 :: d.out } else d
  let d := if x.data.isNone && x.live then d.readGives x.acc.origin.val 0 else d
  d.onSap (fun y => { y with queue := r, timeouts := s.sap.timeouts + 1 })

section
variable (s : Dev) (x : SapXfer) (r : List SapXfer) (tell : Bool)

theorem Dev.timedOut_changes : Dev.changes [.sap, .draws, .reads, .out] [sapReg 0x14] s (s.timedOut x r tell) := by
  have counted := ((s.draw_changes (l := [.sap, .draws, .reads, .out]) (w := [sapReg 0x14]) (by simp)).trans
    (Dev.changes.count _ (sapReg 0x14) (by simp))).trans (Dev.sapError_changes _ x.addr false (by simp))
  unfold Dev.timedOut
  dsimp only
  refine (counted.trans ?_).trans (Dev.onSap_changes _ _ (by simp))
  cases tell <;> cases x.data.isNone && x.live
  · exact .refl _
  · exact Dev.readGives_changes _ _ _ (by simp)
  · exact Dev.tellRequest_changes _ (by simp)
  · exact (Dev.tellRequest_changes _ (by simp)).trans (Dev.readGives_changes _ _ _ (by simp))

theorem Dev.timedOut_keeps : s.keeps [.regs, .sap, .draws, .reads, .out] (s.timedOut x r tell) := by
  intro p hp
  unfold Dev.timedOut
  dsimp only
  cases p with
  | regs | sap | draws | reads | out => exact absurd (by decide) hp
  | _ => cases tell <;> cases x.data.isNone && x.live <;> rfl

theorem Dev.timedOut_sap : (s.timedOut x r tell).sap =
    { s.sap with queue := r, timeouts := s.sap.timeouts + 1, last := some ⟨false, false, 0⟩, failed := x.addr } := by
  unfold Dev.timedOut
  cases tell <;> cases x.data.isNone && x.live <;> rfl

theorem Dev.timedOut_count : (s.timedOut x r tell).reg (sapReg 0x14) = satAdd (s.reg (sapReg 0x14)) 1 := by
  refine Eq.trans ?_ (s.reg_setReg_same (sapReg 0x14) (satAdd (s.reg (sapReg 0x14)) 1))
  unfold Dev.timedOut
  cases tell <;> cases x.data.isNone && x.live <;> rfl

theorem Dev.timedOut_reads (reads : x.data.isNone = true ∧ x.live = true) :
    (s.timedOut x r tell).reads = s.reads.put 0 x.acc.origin.val 0 := by
  unfold Dev.timedOut
  rw [reads.1, reads.2]
  cases tell <;> rfl

theorem Dev.timedOut_reads_keep (none_ : ¬ (x.data.isNone = true ∧ x.live = true)) : (s.timedOut x r tell).reads = s.reads := by
  unfold Dev.timedOut
  rw [← Bool.and_eq_true, Bool.not_eq_true] at none_
  rw [none_]
  cases tell <;> rfl

theorem Dev.timedOut_out : (s.timedOut x r tell).out = if tell then .irq "IRQ_H2M" 0 :: s.out else s.out := by
  unfold Dev.timedOut
  cases tell <;> cases x.data.isNone && x.live <;> rfl

end

/-- What the end of the oldest transfer without error leaves of the bridge. -/
def Dev.transferDone (s : Dev) (r : List SapXfer) (v : Word) : Dev := (s.onSap (fun y => { y with queue := r })).sapOk v

section
variable (s : Dev) (r : List SapXfer) (v : Word)

theorem Dev.transferDone_sap : (s.transferDone r v).sap = { s.sap with queue := r, timeouts := 0, last := some ⟨true, false, v⟩ } := rfl

theorem Dev.transferDone_run : (s.transferDone r v).rf (sapReg 4) 8 4 = 0 := Dev.rf_setRf_same _ (sapReg 4) 8 4 0 (by decide)

theorem Dev.transferDone_keeps : s.keeps [.regs, .sap] (s.transferDone r v) :=
  ((s.onSap_keeps _).mono (by decide)).trans (((Dev.onSap_keeps _ _).mono (by decide)).trans ((Dev.setReg_keeps _ _ _).mono (by decide)))

theorem Dev.transferDone_regsKeep : s.regsKeep [sapReg 4] (s.transferDone r v) := fun _ ha =>
  Dev.reg_setReg_ne _ _ (List.ne_of_not_mem_cons ha)

variable (o : Nat)

theorem Dev.transferRead_reads : ((s.transferDone r v).readGives o v).reads = s.reads.put 0 o v := rfl

theorem Dev.transferRead_keeps : s.keeps [.regs, .sap, .reads] ((s.transferDone r v).readGives o v) :=
  ((s.transferDone_keeps r v).mono (by decide)).trans ((Dev.readGives_keeps _ _ _).mono (by decide))

theorem Dev.transferRead_regsKeep : s.regsKeep [sapReg 4] ((s.transferDone r v).readGives o v) := fun a ha =>
  (Dev.readGives_reg _ _ _ _).trans (s.transferDone_regsKeep r v a ha)

end

/-! ## The three rows -/

/-- What SAP_TIMEOUT does with the oldest transfer that is over time, by whether Heartwood had performed it. -/
theorem exec_sapTimeout {s : State} {x : SapXfer} {r : List SapXfer} (hr : s.dev.runs = true) (queue : s.dev.sap.queue = x :: r)
    (late : s.dev.now ≥ x.since + s.dev.rf (sapReg 8) 9 0 * usRaw) : ∃ done : Bool,
      exec .sapTimeout s = .next { s with
        dev := if s.dev.sap.timeouts + 1 ≥ 3 then (s.dev.timedOut x r (done && x.completes s.heart)).declareDown
          else s.dev.timedOut x r (done && x.completes s.heart)
        heart := if done then (x.perform s.heart).1 else s.heart } := by
  refine ⟨s.heart.on && (Config.freeValue (1000 + s.dev.draws)).getLsbD 0, (execSapTimeout.eq_1 s).trans ?_⟩
  unfold State.onBoth
  dsimp only
  rw [hr, queue]
  dsimp only
  rw [if_neg (by decide), if_neg (Nat.not_lt.mpr late)]
  rfl

theorem exec_sapwoodTransferDone {s : State} {x : SapXfer} {r : List SapXfer} (hr : s.dev.runs = true) (on : s.heart.on = true)
    (queue : s.dev.sap.queue = x :: r) (quiet : x.completes s.heart = false) :
    exec .sapwoodTransferDone s = .next { s with
      dev := if x.data.isNone && x.live
        then (s.dev.transferDone r (x.perform s.heart).2).readGives x.acc.origin.val (x.perform s.heart).2
        else s.dev.transferDone r (x.perform s.heart).2
      heart := (x.perform s.heart).1 } := by
  refine (execSapwoodTransferDone.eq_1 s).trans ?_
  unfold State.onBoth
  dsimp only
  rw [hr, on, queue]
  dsimp only
  rw [quiet, if_neg (by decide)]
  rfl

section
variable {s : Dev} {h : Heart} {a : Acc} {addr size : Nat} {data : Option Word} {atomic crossed : Bool}
variable (present : heartPresent s.variant = true) (block : blockOf addr = some 13) (reach : reaches a.origin 13 = true)
  (permit : s.permitted (if data.isSome then 0 else 1) a.origin 13 = true)
include present block reach permit

theorem Dev.sapTransfer_of_bad (bad : size ≠ 4 ∨ addr % 4 ≠ 0 ∨ atomic = true) :
    s.sapTransfer h a addr data size atomic crossed = (s.count (sapReg 0x18)).sapError addr false := by
  unfold Dev.sapTransfer
  dsimp only
  rw [if_neg (by simp [present, block, reach]), permit, if_neg (by decide), if_pos bad]

variable (word : size = 4) (aligned : addr % 4 = 0)
include word aligned

theorem Dev.sapTransfer_of_down (down : s.linkDown = true) :
    s.sapTransfer h a addr data size false crossed = s.sapError addr false := by
  unfold Dev.sapTransfer
  dsimp only
  rw [if_neg (by simp [present, block, reach]), permit, if_neg (by decide), if_neg (by simp [word, aligned]), if_pos down]

theorem Dev.sapTransfer_of_crossed (up : s.linkDown = false) : s.sapTransfer h a addr data size false true =
    if min (s.rf (sapReg 4) 8 4 + 1) 31 = 16 then (s.backedOff addr).sapFault 1 else s.backedOff addr := by
  unfold Dev.sapTransfer
  dsimp only
  rw [if_neg (by simp [present, block, reach]), permit, if_neg (by decide), if_neg (by simp [word, aligned]), up,
    if_neg Bool.false_ne_true, if_pos rfl]
  rfl

/-- A transfer that is carried waits; a write that may start a request has been logged. -/
theorem Dev.sapTransfer_of_carried (up : s.linkDown = false) : ∃ d : Dev, Dev.changes [.audit] [] s d ∧ d.sap = s.sap ∧
    s.sapTransfer h a addr data size false false =
      d.onSap (fun x => { x with queue := x.queue ++ [⟨a, addr, data, s.now, true⟩] }) := by
  unfold Dev.sapTransfer
  dsimp only
  rw [if_neg (by simp [present, block, reach]), permit, if_neg (by decide), if_neg (by simp [word, aligned]), up,
    if_neg Bool.false_ne_true, if_neg Bool.false_ne_true]
  cases data with
  | none => exact ⟨s, .refl _, rfl, rfl⟩
  | some v =>
    dsimp only
    split
    · exact ⟨_, s.log_changes _ _ _ _ _ _ _ _ (List.mem_singleton_self _), rfl, rfl⟩
    · exact ⟨s, .refl _, rfl, rfl⟩

end

/-! ## The statement -/

theorem SapXfer.completes_of_ne {x : SapXfer} (h : Heart) (other : x.addr ≠ 0x5800A0 ∨ x.data = none) : x.completes h = false := by
  unfold SapXfer.completes
  obtain ne | none_ := other
  · simp [ne]
  · simp [none_]

theorem Heart.mbWrite_request {h : Heart} {off : Nat} {v : Word} (low : 0x100 ≤ off) (high : off < 0x200) (idle : h.busy = false) :
    h.mbWrite off v = h.setReg off v := by
  unfold Heart.mbWrite
  rw [if_pos ⟨low, high⟩, idle, if_neg Bool.false_ne_true]

/-- Whether a transfer that is over time told of a request, and what it may have done to Heartwood. -/
theorem Dev.timedOut_told (s : Dev) (x : SapXfer) (r : List SapXfer) (done : Bool) (h : Heart) :
    (s.timedOut x r (done && x.completes h)).out = s.out ∨
      (s.timedOut x r (done && x.completes h)).out = .irq "IRQ_H2M" 0 :: s.out ∧ x.completes h = true := by
  rw [Dev.timedOut_out]
  split
  · next told => exact .inr ⟨rfl, (Bool.and_eq_true _ _ ▸ told).2⟩
  · exact .inl rfl

theorem SapXfer.performed (x : SapXfer) (h : Heart) (done : Bool) :
    (if done then (x.perform h).1 else h) = h ∨ (if done then (x.perform h).1 else h) = (x.perform h).1 := by
  cases done
  · exact .inl rfl
  · exact .inr rfl

theorem exec_sapTimeout_idle {s : State} (idle : s.dev.sap.queue = [] ∨
    ∃ x r, s.dev.sap.queue = x :: r ∧ s.dev.now < x.since + s.dev.rf (sapReg 8) 9 0 * usRaw) : exec .sapTimeout s = .next s := by
  refine (execSapTimeout.eq_1 s).trans ?_
  unfold State.onBoth
  obtain none_ | ⟨x, r, queue, early⟩ := idle
  · dsimp only
    rw [none_]
    dsimp only
    split <;> rfl
  · dsimp only
    rw [queue]
    dsimp only
    rw [if_pos early]
    split <;> rfl

/-- Settles O45: the acceptance of a transfer by the cases of `sapTransfer`, its end by what `transferDone` and `timedOut` leave. -/
theorem sapwoodTransfersRun : Obligations.SapwoodTransfersRun := by
  unfold Obligations.SapwoodTransfersRun
  refine ⟨fun s a addr data size hr present block reach permit word aligned up => ?_,
    fun s a addr data size hr present block reach permit word aligned up => ?_,
    fun s a addr data size atomic crossed hr present block reach permit bad => ?_,
    fun s a addr data size crossed hr present block reach permit word aligned down => ?_,
    fun s a addr c v live r hr on queue low high idle => ?_, fun s a addr c live r hr on queue low => ?_,
    fun s x r hr queue late few => ?_, fun s x r hr queue late third => ?_, fun s a opens rst beats clocked => ?_,
    fun s a opens silent clocked => ?_, fun s hr none_ => ?_, fun s x r hr queue early => ?_, fun s hr none_ => ?_⟩
  · refine .of_onDev (f := fun d => d.sapTransfer s.heart a addr.toNat data size false false) rfl hr ?_
    obtain ⟨d, did, sap, eq⟩ := Dev.sapTransfer_of_carried (h := s.heart) present block reach permit word aligned up
    dsimp only
    rw [eq]
    exact ⟨by rw [← sap]; rfl, ((did.mono (l' := [.audit, .sap]) (by decide) (List.Subset.refl _)).trans
      (d.onSap_changes _ (by decide))).ofLogged⟩
  · refine .of_onDev (f := fun d => d.sapTransfer s.heart a addr.toNat data size false true) rfl hr ?_
    dsimp only
    rw [Dev.sapTransfer_of_crossed present block reach permit word aligned up]
    have did := s.dev.backedOff_changes addr.toNat
    have count := s.dev.backedOff_count addr.toNat
    have run := s.dev.backedOff_run addr.toNat
    have sap : (s.dev.backedOff addr.toNat).sap = { s.dev.sap with last := some ⟨false, true, 0⟩, failed := addr.toNat } := rfl
    split
    · refine ⟨(Dev.sapFault_sap _ 1).trans sap, (Dev.sapFault_reg _ 1 _).trans count, ?_, (did.trans (Dev.sapFault_changes _ 1)).ofState⟩
      rw [Dev.rf, Dev.sapFault_reg]
      exact run
    · exact ⟨sap, count, run, did.ofState⟩
  · refine .of_onDev (f := fun d => d.sapTransfer s.heart a addr.toNat data size atomic crossed) rfl hr ?_
    dsimp only
    rw [Dev.sapTransfer_of_bad present block reach permit bad]
    exact ⟨rfl, (Dev.sapError_reg _ _ _ _).trans (Dev.reg_setReg_same _ _ _), ((Dev.changes.count s.dev _ (List.mem_singleton_self _)).trans
      (Dev.sapError_changes _ _ _ (List.mem_singleton_self _))).ofState⟩
  · refine .of_onDev (f := fun d => d.sapTransfer s.heart a addr.toNat data size false crossed) rfl hr ?_
    dsimp only
    rw [Dev.sapTransfer_of_down present block reach permit word aligned down]
    exact ⟨rfl, (s.dev.sapError_changes _ _ (List.mem_singleton_self _)).ofState⟩
  · have quiet := SapXfer.completes_of_ne (x := ⟨a, addr, some v, c, live⟩) s.heart (.inl (by dsimp only; omega))
    refine ⟨_, exec_sapwoodTransferDone hr on queue quiet, ?_⟩
    have write : (SapXfer.perform ⟨a, addr, some v, c, live⟩ s.heart) = (s.heart.setReg (addr - 0x580000) v, 0) := by
      rw [← Heart.mbWrite_request (by omega) (by omega) idle]
      rfl
    rw [write, if_neg (by simp)]
    dsimp only
    exact ⟨Heart.reg_setReg_same _ _ _, s.dev.transferDone_sap r 0, s.dev.transferDone_run r 0, Heart.setReg_eq _ _ _, fun off ne => Heart.reg_setReg_ne _ _ ne,
      s.dev.transferDone_keeps r 0, rfl, s.dev.transferDone_regsKeep r 0⟩
  · have quiet := SapXfer.completes_of_ne (x := ⟨a, addr, none, c, live⟩) s.heart (.inr rfl)
    refine ⟨_, exec_sapwoodTransferDone hr on queue quiet, ?_⟩
    have read : SapXfer.perform ⟨a, addr, none, c, live⟩ s.heart = (s.heart, s.heart.mbRead (addr - 0x580000)) := rfl
    rw [read]
    have done := s.dev.transferDone_keeps r (s.heart.mbRead (addr - 0x580000))
    cases live with
    | false =>
      rw [if_neg (by decide)]
      dsimp only
      exact ⟨rfl, s.dev.transferDone_run r _, rfl, ⟨done.mono (by decide), rfl, rfl⟩, s.dev.transferDone_regsKeep r _⟩
    | true =>
      dsimp only
      rw [if_pos rfl, if_pos (by decide)]
      exact ⟨(Dev.readGives_sap _ _ _).trans (s.dev.transferDone_sap r _), (Dev.readGives_rf _ _ _ _ _ _).trans (s.dev.transferDone_run r _),
        s.dev.transferRead_reads r _ _, ⟨s.dev.transferRead_keeps r _ _, rfl, rfl⟩, s.dev.transferRead_regsKeep r _ _⟩
  · obtain ⟨done, step⟩ := exec_sapTimeout hr queue late
    refine ⟨_, step, ?_⟩
    rw [if_neg (by omega)]
    exact ⟨s.dev.timedOut_sap x r _, s.dev.timedOut_count x r _, s.dev.timedOut_reads x r _, s.dev.timedOut_reads_keep x r _,
      s.dev.timedOut_told x r done s.heart, x.performed s.heart done, s.dev.timedOut_keeps x r _, rfl, (s.dev.timedOut_changes x r _).regs⟩
  · obtain ⟨done, step⟩ := exec_sapTimeout hr queue late
    refine ⟨_, step, ?_⟩
    rw [if_pos (by omega)]
    have down := Dev.declareDown_changes (s.dev.timedOut x r (done && x.completes s.heart)) (l := [.audit, .sap, .draws, .reads, .out])
      (w := [sapReg 4, sapReg 0x14]) (by decide) (by decide)
    have same : ∀ p : Part, p ∉ [.regs, .basjo, .sap] → p.same (s.dev.timedOut x r (done && x.completes s.heart))
        (s.dev.timedOut x r (done && x.completes s.heart)).declareDown := fun p hp =>
      (Dev.declareDown_changes _ (l := [.sap]) (w := [sapReg 4]) (by decide) (by decide)).part hp
    have did := ((s.dev.timedOut_changes x r (done && x.completes s.heart)).mono (by decide) (by decide)).trans down
    refine ⟨Dev.declareDown_linkDown _, ?_, ?_, fun reads => (same .reads (by decide)).trans (s.dev.timedOut_reads x r _ reads),
      fun none_ => (same .reads (by decide)).trans (s.dev.timedOut_reads_keep x r _ none_), ?_, x.performed s.heart done,
      did.parts.mono (by decide), rfl, did.regs, did.events⟩
    · rw [Dev.declareDown_sap, Dev.timedOut_sap]
      dsimp only
      split <;> rfl
    · rw [Dev.declareDown_reg, if_neg (by decide)]
      exact s.dev.timedOut_count x r _
    · have out : (s.dev.timedOut x r (done && x.completes s.heart)).declareDown.out = _ := same .out (by decide)
      rw [out]
      exact s.dev.timedOut_told x r done s.heart
  · refine .of_writeBit rfl opens clocked fun b c logged => ?_
    have reg : (s.dev.logged b c).reg (sapReg 4) = s.dev.reg (sapReg 4) := logged.regs _ List.not_mem_nil
    have retried : (!(s.dev.logged b c).sap.rst && (s.dev.logged b c).rb (sapReg 4) 1) = true := by
      rw [Dev.rb, reg, ← Dev.rb, beats, show (s.dev.logged b c).sap.rst = false from rst]
      rfl
    dsimp only
    rw [if_pos retried]
    refine ⟨Dev.rb_setRb_same _ _ _ _ (by decide), ?_, ((logged.mono (List.Subset.refl _) (List.nil_subset _)).trans
      (Dev.setRb_changes _ _ 0 false (List.mem_singleton_self _))).ofLogged⟩
    rw [Dev.rf_setRb_out _ _ _ _ _ _ _ (by decide) (by decide), Dev.rf, reg, Dev.rf]
  · refine .of_writeBit rfl opens clocked fun b c logged => ?_
    have reg : (s.dev.logged b c).reg (sapReg 4) = s.dev.reg (sapReg 4) := logged.regs _ List.not_mem_nil
    have idle : ¬ (!(s.dev.logged b c).sap.rst && (s.dev.logged b c).rb (sapReg 4) 1) = true := by
      rw [Dev.rb, reg, ← Dev.rb, show (s.dev.logged b c).sap.rst = s.dev.sap.rst from rfl]
      obtain rst | lost := silent
      · simp [rst]
      · simp [lost]
    rw [if_neg idle]
    exact logged.ofLogged
  · exact ⟨s, exec_sapTimeout_idle (.inl none_), rfl⟩
  · exact ⟨s, exec_sapTimeout_idle (.inr ⟨x, r, queue, early⟩), rfl⟩
  · refine .of_onBoth (execSapwoodTransferDone.eq_1 s) (d := s.dev) (h := s.heart) ?_ rfl
    simp only [none_]
    split <;> rfl

end Sys2Proof.Machine
end

section
/-! SUPPORT. Octets as words, and the octets of a word. -/
namespace Sys2Proof.Machine

theorem leNat_lt (l : List Byte) : leNat l < 256 ^ l.length := by
  induction l with
  | nil => simp [leNat]
  | cons b l ih =>
    have := b.isLt
    rw [leNat, List.length_cons, Nat.pow_succ]
    omega

theorem leBytes_leNat (l : List Byte) : leBytes l.length (leNat l) = l := by
  induction l with
  | nil => rfl
  | cons b l ih =>
    rw [List.length_cons, leBytes, leNat, show (b.toNat + 256 * leNat l) / 256 = leNat l by have := b.isLt; omega, ih]
    congr 1
    apply BitVec.eq_of_toNat_eq
    have := b.isLt
    rw [BitVec.toNat_ofNat]
    omega

theorem leNat_leBytes (k v : Nat) : leNat (leBytes k v) = v % 256 ^ k := by
  induction k generalizing v with
  | zero => simp [leBytes, leNat, Nat.mod_one]
  | succ k ih =>
    rw [leBytes, leNat, ih, BitVec.toNat_ofNat, show (256 : Nat) ^ (k + 1) = 256 * 256 ^ k from Nat.pow_succ', Nat.mod_mul]

theorem getD_leBytes (k v j : Nat) (hj : j < k) : (leBytes k v).getD j 0 = BitVec.ofNat 8 (v / 256 ^ j) := by
  induction k generalizing v j with
  | zero => omega
  | succ k ih =>
    cases j with
    | zero => simp [leBytes]
    | succ j => rw [leBytes, List.getD_cons_succ, ih _ _ (by omega), Nat.pow_succ', Nat.div_div_eq_div_mul]

theorem getD_eq_octet (l : List Byte) (j : Nat) (hj : j < l.length) : l.getD j 0 = BitVec.ofNat 8 (leNat l / 256 ^ j) := by
  conv => lhs; rw [← leBytes_leNat l]
  exact getD_leBytes _ _ _ hj

/-! ## Blocks -/

theorem chunks_of_le {n : Nat} (hn : 0 < n) (l : List Byte) (x y : Nat) (hx : l.length ≤ x) (hy : l.length ≤ y) :
    chunks n x l = chunks n y l := by
  induction x generalizing y l with
  | zero =>
    obtain rfl := List.eq_nil_of_length_eq_zero (Nat.le_zero.mp hx)
    cases y <;> rfl
  | succ x ih =>
    cases y with
    | zero =>
      obtain rfl := List.eq_nil_of_length_eq_zero (Nat.le_zero.mp hy)
      rfl
    | succ y =>
      cases l with
      | nil => rfl
      | cons b l =>
        have shorter : ((b :: l).drop n).length ≤ l.length := by
          rw [List.length_drop, List.length_cons]
          omega
        rw [List.length_cons] at hx hy
        rw [chunks, chunks, ih _ y (by omega) (by omega)]
        all_goals exact List.cons_ne_nil _ _

@[simp] theorem asWords_nil : asWords [] = [] := rfl

theorem asWords_of_ne_nil {l : List Byte} (some_ : l ≠ []) : asWords l = BitVec.ofNat 32 (leNat (l.take 4)) :: asWords (l.drop 4) := by
  cases l with
  | nil => exact absurd rfl some_
  | cons b l =>
    have shorter : ((b :: l).drop 4).length ≤ l.length := by
      rw [List.length_drop, List.length_cons]
      omega
    rw [asWords, asWords, blocks, blocks, List.length_cons, chunks, List.map_cons, chunks_of_le (by decide) _ _ _ shorter (Nat.le_refl _)]
    exact List.cons_ne_nil _ _

/-- Octets come off four at a time. -/
theorem List.four_induction {P : List Byte → Prop} (nil : P []) (step : ∀ l, l ≠ [] → P (l.drop 4) → P l) (l : List Byte) : P l := by
  generalize hn : l.length = n
  induction n using Nat.strong_induction_on generalizing l with
  | _ n ih =>
    cases l with
    | nil => exact nil
    | cons b l =>
      refine step _ (List.cons_ne_nil _ _) (ih _ ?_ _ rfl)
      rw [List.length_drop]
      rw [List.length_cons] at hn ⊢
      omega

theorem asWords_length (l : List Byte) : (asWords l).length = (l.length + 3) / 4 := by
  induction l using List.four_induction with
  | nil => rfl
  | step l some_ ih =>
    have := List.length_pos_iff.mpr some_
    rw [asWords_of_ne_nil some_, List.length_cons, ih, List.length_drop]
    omega

/-- An octet of a word of four octets. -/
theorem octet_word (l : List Byte) (j : Nat) (hj : j < l.length) (four : l.length ≤ 4) :
    ((BitVec.ofNat 32 (leNat l)) >>> (8 * j)).setWidth 8 = l.getD j 0 := by
  have lt : leNat l < 2 ^ 32 := (leNat_lt l).trans_le (Nat.pow_le_pow_right (n := 256) (by decide) four)
  rw [getD_eq_octet l j hj]
  apply BitVec.eq_of_toNat_eq
  rw [BitVec.toNat_setWidth, BitVec.toNat_ushiftRight, BitVec.toNat_ofNat, BitVec.toNat_ofNat, Nat.mod_eq_of_lt lt,
    Nat.shiftRight_eq_div_pow, Nat.pow_mul]

theorem octet_asWords (l : List Byte) (k : Nat) (hk : k < l.length) :
    ((asWords l).getD (k / 4) 0 >>> (8 * (k % 4))).setWidth 8 = l.getD k 0 := by
  induction l using List.four_induction generalizing k with
  | nil => exact absurd hk (by simp)
  | step l some_ ih =>
    rw [asWords_of_ne_nil some_]
    by_cases first : k < 4
    · rw [Nat.div_eq_of_lt first, Nat.mod_eq_of_lt first, List.getD_cons_zero, octet_word _ _ (by rw [List.length_take]; omega)
        (List.length_take_le _ _)]
      simp only [List.getD_eq_getElem?_getD, List.getElem?_take, if_pos first]
    · have rest := ih (k - 4) (by rw [List.length_drop]; omega)
      obtain ⟨j, rfl⟩ : ∃ j, k = j + 4 := ⟨k - 4, by omega⟩
      rw [Nat.add_sub_cancel] at rest
      rw [Nat.add_div_right _ (by decide), Nat.add_mod_right, List.getD_cons_succ, rest]
      simp only [List.getD_eq_getElem?_getD, List.getElem?_drop, Nat.add_comm]

/-- Whole words hold the octets they were made of. -/
theorem flatMap_asWords (l : List Byte) (whole : l.length % 4 = 0) : (asWords l).flatMap (fun w => leBytes 4 w.toNat) = l := by
  induction l using List.four_induction with
  | nil => rfl
  | step l some_ ih =>
    have := List.length_pos_iff.mpr some_
    have four : (l.take 4).length = 4 := by rw [List.length_take]; omega
    have lt : leNat (l.take 4) < 2 ^ 32 := (leNat_lt (l.take 4)).trans_eq (by rw [four]; rfl)
    rw [asWords_of_ne_nil some_, List.flatMap_cons, ih (by rw [List.length_drop]; omega), BitVec.toNat_ofNat, Nat.mod_eq_of_lt lt]
    conv => lhs; lhs; lhs; rw [← four]
    rw [leBytes_leNat, List.take_append_drop]

end Sys2Proof.Machine
end

section
/-! SUPPORT. Heartwood's registers, its mailbox, and how a request is served (R406 to R408). -/
namespace Sys2Proof.Machine

/-! ## Registers -/

section
variable (h : Heart)

theorem Heart.reg_setReg (off r : Nat) (v : Word) : (h.setReg off v).reg r = if r = off then v else h.reg r := by
  split
  · next e => rw [e, h.reg_setReg_same]
  · next ne => exact h.reg_setReg_ne v ne

theorem Heart.reg_setRb (off i : Nat) (v : Bool) (r : Nat) : (h.setRb off i v).reg r = if r = off then setBit (h.reg off) i v else h.reg r :=
  h.reg_setReg off r _

/-- Writes that leave every register but those named. -/
def Heart.regsKeep (written : List Nat) (h h' : Heart) : Prop := ∀ off, off ∉ written → h'.reg off = h.reg off

/-- Only registers have changed. -/
def Heart.regsOnly (h h' : Heart) : Prop := h' = { h with regs := h'.regs }

theorem Heart.regsOnly.trans {h h' h'' : Heart} (a : h.regsOnly h') (b : h'.regsOnly h'') : h.regsOnly h'' := by
  unfold Heart.regsOnly at *
  rw [b, a]

theorem Heart.setReg_regsOnly (off : Nat) (v : Word) : h.regsOnly (h.setReg off v) := rfl

end

/-! ## Words -/

section
variable (h : Heart) (off : Nat)

theorem Heart.putWords_nil : h.putWords off [] = h := rfl

theorem Heart.putWords_cons (w : Word) (l : List Word) : h.putWords off (w :: l) = (h.setReg off w).putWords (off + 4) l := by
  have shift : ∀ (l : List Word) (n : Nat) (h : Heart),
      (l.zipIdx (n + 1)).foldl (fun (h : Heart) (e : Word × Nat) => h.setReg (off + 4 * e.2) e.1) h =
        (l.zipIdx n).foldl (fun (h : Heart) (e : Word × Nat) => h.setReg (off + 4 + 4 * e.2) e.1) h := by
    intro l
    induction l with
    | nil => exact fun _ _ => rfl
    | cons w l ih =>
      intro n h
      rw [List.zipIdx_cons, List.zipIdx_cons, List.foldl_cons, List.foldl_cons, ih,
        show off + 4 * (n + 1) = off + 4 + 4 * n by omega]
  exact shift l 0 (h.setReg off w)

theorem Heart.putWords_regsOnly (l : List Word) : h.regsOnly (h.putWords off l) := by
  induction l generalizing h off with
  | nil => rfl
  | cons w l ih =>
    rw [h.putWords_cons]
    exact (h.setReg_regsOnly off w).trans (ih _ _)

theorem Heart.reg_putWords_out (l : List Word) {r : Nat} (out : ∀ k, k < l.length → r ≠ off + 4 * k) :
    (h.putWords off l).reg r = h.reg r := by
  induction l generalizing h off with
  | nil => rfl
  | cons w l ih =>
    rw [List.length_cons] at out
    rw [h.putWords_cons, ih _ _ fun k hk => by have := out (k + 1) (by omega); omega, h.reg_setReg_ne w (by simpa using out 0 (by omega))]

theorem Heart.reg_putWords_in (l : List Word) (k : Nat) (hk : k < l.length) : (h.putWords off l).reg (off + 4 * k) = l.getD k 0 := by
  induction l generalizing h off k with
  | nil => exact absurd hk (by simp)
  | cons w l ih =>
    rw [h.putWords_cons]
    cases k with
    | zero =>
      rw [Heart.reg_putWords_out _ _ _ (fun _ _ => by omega), Nat.mul_zero, Nat.add_zero, h.reg_setReg_same, List.getD_cons_zero]
    | succ k =>
      have := ih (h.setReg off w) (off + 4) k (by simpa using hk)
      rw [show off + 4 * (k + 1) = off + 4 + 4 * k by omega, this, List.getD_cons_succ]

end

/-! ## Requests -/

theorem length_flatMap_words (l : List Nat) (f : Nat → Nat) : (l.flatMap fun k => leBytes 4 (f k)).length = l.length * 4 := by
  induction l with
  | nil => rfl
  | cons k l ih => rw [List.flatMap_cons, List.length_append, ih, leBytes_length, List.length_cons]; omega

theorem Heart.request_length (h : Heart) : h.request.length = 256 := length_flatMap_words _ _

theorem Heart.params_length (h : Heart) {n : Nat} (plen : leNat ((h.request.drop 2).take 2) = n) : h.params.length = min n 252 := by
  rw [Heart.params, plen, List.length_take, List.length_drop, h.request_length]

theorem Heart.complete_regsOnly (h : Heart) (code : Nat) (l : List Byte) : h.regsOnly (h.complete code l) :=
  (h.putWords_regsOnly _ _).trans (Heart.setReg_regsOnly _ _ _)

/-- A request's completion answers, whatever its own part has done to other registers. -/
theorem Heart.complete_answers {h h' : Heart} {code : Nat} {written : List Nat} (known : code < 256) (kept : Heart.regsKeep written h h')
    (status : 0xA4 ∉ written) (l : List Byte) : h.answers written code l (h'.complete code l) where
  status := by
    rw [Heart.complete, Heart.reg_setReg_same, Nat.mod_eq_of_lt known, Heart.rb, kept _ status, ← Heart.rb]
  octets k hk := by
    have length := asWords_length l
    rw [Heart.rspOctet, Heart.complete, Heart.reg_setReg_ne _ _ (by omega), Heart.reg_putWords_in _ _ _ _ (by omega), octet_asWords l k hk]
  regs off ne out unwritten := by
    have length := asWords_length l
    rw [Heart.complete, Heart.reg_setReg_ne _ _ ne, Heart.reg_putWords_out _ _ _ (fun _ _ => by omega), kept off unwritten]

/-- A request that Heartwood runs: it does its own part and completes. -/
theorem Heart.runRequest_of_runs {h h' : Heart} {op code : Nat} {lenOk : Nat → Bool} {body : Heart → List Byte → MbRes} {l : List Byte}
    (may : (!h.rb 0x80 14 || [1, 2, 3, 6].contains op) = true) (length : lenOk (leNat ((h.request.drop 2).take 2)) = true)
    (does : body h h.params = (h', code, l)) : h.runRequest op lenOk body = h'.complete code l := by
  have runs : ¬ (h.rb 0x80 14 && !([1, 2, 3, 6].contains op)) = true := by
    revert may
    cases h.rb 0x80 14 <;> cases [1, 2, 3, 6].contains op <;> decide
  unfold Heart.runRequest
  dsimp only
  rw [if_neg runs, length, if_neg (by decide)]
  rw [Heart.params] at does
  rw [does]

theorem Heart.runRequest_of_badLength {h : Heart} {op : Nat} {lenOk : Nat → Bool} {body : Heart → List Byte → MbRes}
    (may : (!h.rb 0x80 14 || [1, 2, 3, 6].contains op) = true) (length : lenOk (leNat ((h.request.drop 2).take 2)) = false) :
    h.runRequest op lenOk body = h.complete stBadParam [] := by
  have runs : ¬ (h.rb 0x80 14 && !([1, 2, 3, 6].contains op)) = true := by
    revert may
    cases h.rb 0x80 14 <;> cases [1, 2, 3, 6].contains op <;> decide
  unfold Heart.runRequest
  dsimp only
  rw [if_neg runs, length, if_pos (by decide)]

/-- The state in which a request has been served. -/
def State.afterServe (s : State) (h : Heart) : State := { s with dev := { s.dev with out := .irq "IRQ_H2M" 0 :: s.dev.out }, heart := h }

theorem State.served_afterServe (s : State) (h : Heart) : s.served (s.afterServe h) := ⟨rfl, rfl⟩

section
variable {i : Instr} {s : State} {op n code : Nat} {lenOk : Nat → Bool} {body : Heart → List Byte → MbRes}
variable (meaning : exec i s = s.mailbox .serve op lenOk body) (asks : s.asks op n = true)
include meaning asks

/-- The request that the mailbox holds is served. -/
theorem exec_serve : exec i s = .next (s.afterServe (s.heart.runRequest op lenOk body)) := by
  simp only [State.asks, Bool.and_eq_true, decide_eq_true_eq] at asks
  obtain ⟨⟨⟨⟨⟨present, on⟩, busy⟩, holds⟩, -⟩, -⟩ := asks
  rw [meaning, State.mailbox, State.onBoth]
  dsimp only
  rw [if_neg (by simp [present, on]), if_pos (by simp [busy, holds])]
  rfl

theorem Completes.of_serve {P : State → Prop} {h' : Heart} {l : List Byte} (length : lenOk n = true)
    (does : body s.heart s.heart.params = (h', code, l)) (hp : P (s.afterServe (h'.complete code l))) : Completes i s P := by
  refine ⟨_, exec_serve meaning asks, ?_⟩
  simp only [State.asks, Bool.and_eq_true, decide_eq_true_eq] at asks
  obtain ⟨⟨-, plen⟩, may⟩ := asks
  rw [Heart.runRequest_of_runs may (plen ▸ length) does]
  exact hp

/-- One that may have written registers of its own. -/
theorem Completes.of_mailDone {P : State → Prop} {h' : Heart} {written : List Nat} (length : lenOk n = true) (known : code < 256)
    (does : body s.heart s.heart.params = (h', code, [])) (kept : Heart.regsKeep written s.heart h') (status : 0xA4 ∉ written)
    (hp : ∀ h'' : Heart, s.heart.answers written code [] h'' → h'.regsOnly h'' →
      (∀ off, off ≠ 0xA4 → h''.reg off = h'.reg off) → P (s.afterServe h'')) : Completes i s P :=
  .of_serve meaning asks length does (hp _ (Heart.complete_answers known kept status []) (h'.complete_regsOnly _ _) fun off ne =>
    (Heart.complete_answers (h := h') (h' := h') known (fun _ _ => rfl) List.not_mem_nil []).regs off ne
      (by dsimp only [List.length_nil]; omega) List.not_mem_nil)

/-- One that changes nothing of Heartwood but its answer. -/
theorem Completes.of_mailReply {l : List Byte} (length : lenOk n = true) (known : code < 256)
    (does : body s.heart s.heart.params = (s.heart, code, l)) :
    Completes i s (fun t => s.heart.answers [] code l t.heart ∧ t.heart = { s.heart with regs := t.heart.regs } ∧ s.served t) :=
  .of_serve meaning asks length does ⟨Heart.complete_answers known (fun _ _ => rfl) List.not_mem_nil l, s.heart.complete_regsOnly code l,
    s.served_afterServe _⟩

theorem Completes.of_badLength (length : lenOk n = false) :
    Completes i s (fun t => s.heart.answers [] stBadParam [] t.heart ∧ t.heart = { s.heart with regs := t.heart.regs } ∧ s.served t) := by
  refine ⟨_, exec_serve meaning asks, ?_⟩
  simp only [State.asks, Bool.and_eq_true, decide_eq_true_eq] at asks
  obtain ⟨⟨-, plen⟩, may⟩ := asks
  rw [Heart.runRequest_of_badLength may (plen ▸ length)]
  exact ⟨Heart.complete_answers (by decide) (fun _ _ => rfl) List.not_mem_nil [], s.heart.complete_regsOnly _ _, s.served_afterServe _⟩

end

end Sys2Proof.Machine
end

section
/-! SUPPORT. The requests from GET_STATUS to READ_EVLOG, and the statement on them (R408, R418, R425, R441). -/
namespace Sys2Proof.Machine

theorem length_records (l : List (BitVec 512)) : (l.flatMap fun r => leBytes 64 r.toNat).length = 64 * l.length := by
  induction l with
  | nil => rfl
  | cons r l ih => rw [List.flatMap_cons, List.length_append, ih, leBytes_length, List.length_cons]; omega

section
variable {h : Heart} {p : List Byte} {b : HwBatch}

theorem Heart.readBatch_of_missing (missing : h.batches.find? (fun x => x.number = prm p 0 8) = none) (old : prm p 0 8 < h.nextBatch) :
    h.readBatch p = (h, 0x40, []) := by
  unfold Heart.readBatch
  dsimp only
  rw [missing, if_pos old]

variable (found : h.batches.find? (fun x => x.number = prm p 0 8) = some b) (closed : b.closed = true)
include found closed

theorem Heart.readBatch_of_unsigned (unsigned : b.trailer = none) : h.readBatch p = (h, 0x41, []) := by
  unfold Heart.readBatch
  dsimp only
  rw [found]
  dsimp only
  rw [closed, if_neg (by decide), unsigned]
  rfl

theorem Heart.readBatch_of_signed {tr : List Byte} (signed : b.trailer = some tr) (part : 4096 * prm p 8 1 < 64 * b.recs.length + tr.length) :
    h.readBatch p = (h, stOk, ((b.recs.flatMap (fun r => leBytes 64 r.toNat) ++ tr).drop (4096 * prm p 8 1)).take 4096) := by
  have octets : b.octets = b.recs.flatMap (fun r => leBytes 64 r.toNat) ++ tr := by rw [HwBatch.octets, signed]; rfl
  have some_ : ¬ ((b.octets.drop (4096 * prm p 8 1)).take 4096).isEmpty = true := by
    rw [List.isEmpty_iff_length_eq_zero, octets, List.length_take, List.length_drop, List.length_append, length_records]
    omega
  unfold Heart.readBatch
  dsimp only
  rw [found]
  dsimp only
  rw [closed, if_neg (by decide), signed, Option.isNone_some, if_neg (by decide), if_neg some_, octets]

end

theorem Heart.ackBatch_of_closed {h : Heart} {p : List Byte} (old : prm p 0 8 < h.nextBatch)
    (closed : h.batches.all (fun b => b.closed || decide (b.number ≠ prm p 0 8)) = true) :
    h.ackBatch p = ({ h with batches := h.batches.map fun b => if b.number ≤ prm p 0 8 then { b with acked := true } else b }, stOk, []) := by
  unfold Heart.ackBatch
  dsimp only
  rw [if_neg]
  rw [Bool.or_eq_true, decide_eq_true_eq, List.any_eq_true]
  rintro (late | ⟨b, hb, isOpen⟩)
  · omega
  · have := List.all_eq_true.mp closed b hb
    revert this isOpen
    cases b.closed <;> simp

theorem Heart.ackBatch_of_late {h : Heart} {p : List Byte} (late : h.nextBatch ≤ prm p 0 8) : h.ackBatch p = (h, stNotFound, []) := by
  unfold Heart.ackBatch
  dsimp only
  rw [if_pos (by simp [late])]

theorem Heart.timeMsgReq_of_live {h : Heart} {p : List Byte} (live : (prm p 8 1).testBit 0 = true) :
    h.timeMsgReq p = ({ h with wt := { h.wt with msg := some (prm p 0 8, h.time) } }, stOk, []) := by
  unfold Heart.timeMsgReq Heart.timeMsg
  rw [live, if_pos rfl]

theorem Heart.at_of_within {h : Heart} {t : Nat} (since : h.time ≤ t) (before : t < h.secondEndAt) : h.at_ t = { h with time := t } :=
  if_pos ⟨since, before⟩

theorem Heart.wtLost_of_valid {h : Heart} (valid : h.rb 0x80 5 = true) :
    h.wtLost = (({ h with wt := { h.wt with edge := none, valid := false } } : Heart).setRb 0x80 5 false).event 7 0 := if_pos valid

/-- TIME_MSG without LIVE ends working time that was valid, with its event. -/
def Heart.notLive (h : Heart) (t : Nat) : Heart :=
  (({ h with time := t, wt := ⟨none, none, false⟩ } : Heart).setRb 0x80 5 false).event 7 0

theorem Heart.timeMsgReq_of_not_live {h : Heart} {p : List Byte} {t : Nat} (live : (prm p 8 1).testBit 0 = false) (valid : h.rb 0x80 5 = true) :
    ({ h with time := t } : Heart).timeMsgReq p = (h.notLive t, stOk, []) := by
  unfold Heart.timeMsgReq Heart.timeMsg
  rw [live, if_neg (by decide)]
  exact congrArg (fun x => ((x, stOk, []) : MbRes))
    (Heart.wtLost_of_valid (h := { h with time := t, wt := { h.wt with msg := none } }) valid)

theorem Heart.notLive_regsKeep (h : Heart) (t : Nat) : Heart.regsKeep [0x80] h (h.notLive t) := fun _ ho =>
  Heart.reg_setReg_ne _ _ (List.ne_of_not_mem_cons ho)

/-! ## A request that is issued -/

/-- The length field of a request (R407). -/
theorem Heart.request_plen (h : Heart) : leNat ((h.request.drop 2).take 2) = fld (h.reg 0x100) 31 16 := by
  have first : (h.request.drop 2).take 2 = (leBytes 4 (h.reg 0x100).toNat).drop 2 := rfl
  rw [first]
  show leNat (leBytes 2 ((h.reg 0x100).toNat / 256 / 256)) = _
  rw [leNat_leBytes, Nat.div_div_eq_div_mul]
  rfl

theorem bit_of_toNat {w : Word} {n : Nat} (i : Nat) (value : w.toNat = n) : bit w i = n.testBit i := by
  rw [bit, BitVec.getLsbD, value]

/-- MB_STATUS after a request has completed (R407). -/
theorem Heart.complete_status (h : Heart) {code : Nat} {l : List Byte} (known : code < 256) (short : l.length < 65536) :
    ((h.complete code l).reg 0xA4).toNat = code * 2 ^ 24 + l.length * 256 + (h.rb 0xA4 2).toNat * 4 + 2 := by
  have overrun := (h.rb 0xA4 2).toNat_le
  rw [Heart.complete, Heart.reg_setReg_same, BitVec.toNat_ofNat, Nat.mod_eq_of_lt known, Nat.mod_eq_of_lt (by omega)]

/-- What an issued request that reaches the bridge does: the link, the mailbox and then the request itself decide. -/
def State.issued (s : State) (a : Acc) (req : List Word) (op : Nat) (lenOk : Nat → Bool) (body : Heart → List Byte → MbRes) : Dev × Heart :=
  if s.dev.linkDown then (s.dev.sapError 0x5800A0 false, s.heart)
  else if s.heart.busy then ((s.dev.logMail a.origin 0x5800A0 0 1).sapOk 0, s.heart.setRb 0xA4 2 true)
  else
    let words := match req.take 64 with
      | w :: r => setFld w 7 0 op :: r
      | [] => [BitVec.ofNat 32 op]
    let d := words.zipIdx.foldl (fun (d : Dev) (e : Word × Nat) =>
      d.logMail a.origin (0x580100 + 4 * e.2) (s.heart.reg (0x100 + 4 * e.2)) e.1) s.dev
    let d := (d.logMail a.origin 0x5800A0 0 1).sapOk 0
    ({ d with out := .irq "IRQ_H2M" 0 :: d.out }, (s.heart.putWords 0x100 words).runRequest op lenOk body)

section
variable {i : Instr} {s : State} {a : Acc} {op : Nat} {lenOk : Nat → Bool} {body : Heart → List Byte → MbRes} {req : List Word}
variable (meaning : exec i s = s.mailbox (.issue a req) op lenOk body) (present : s.hwOn = true) (opens : s.opens a 0x5800A0 = true)
include meaning present opens

theorem exec_issue : exec i s = .next { s with dev := (s.issued a req op lenOk body).1, heart := (s.issued a req op lenOk body).2 } := by
  obtain ⟨hr, ho⟩ := s.opens_runs a _ opens
  have hw : (heartPresent s.dev.variant && s.heart.on) = true := present
  simp only [Bool.and_eq_true] at hw
  rw [meaning]
  unfold State.mailbox State.onBoth
  dsimp only
  rw [if_neg (by simp [hw.1, hw.2]), hr, if_neg (by decide), Dev.admit_of_opens _ _ _ _ _ _ ho]
  rfl

theorem exec_issue_down (down : s.dev.linkDown = true) : exec i s = .next { s with dev := s.dev.sapError 0x5800A0 false } := by
  have issued : s.issued a req op lenOk body = (s.dev.sapError 0x5800A0 false, s.heart) := if_pos down
  rw [exec_issue meaning present opens, issued]

theorem exec_issue_busy (up : s.dev.linkDown = false) (busy : s.heart.busy = true) : exec i s =
    .next { s with dev := (s.dev.logMail a.origin 0x5800A0 0 1).sapOk 0, heart := s.heart.setRb 0xA4 2 true } := by
  have issued : s.issued a req op lenOk body = ((s.dev.logMail a.origin 0x5800A0 0 1).sapOk 0, s.heart.setRb 0xA4 2 true) :=
    (if_neg (by simp [up])).trans (if_pos busy)
  rw [exec_issue meaning present opens, issued]

end

theorem Dev.logMails_changes (o : Nat) (at_ : Nat → Nat) (old : Nat → Word) (l : List (Word × Nat)) (d : Dev) :
    Dev.changes [.audit] [] d (l.foldl (fun (d : Dev) (e : Word × Nat) => d.logMail o (at_ e.2) (old e.2) e.1) d) := by
  induction l generalizing d with
  | nil => exact .refl _
  | cons e l ih => exact (Dev.log_changes d _ _ _ _ _ _ _ _ (List.mem_singleton_self _)).trans (ih _)

theorem Dev.sapOk_changes (s : Dev) (v : Word) {l : List Part} {w : List Nat} (hl : .sap ∈ l) (hw : sapReg 4 ∈ w) :
    Dev.changes l w s (s.sapOk v) := (s.onSap_changes _ hl).trans (Dev.setReg_changes _ _ _ hw)

/-- What the bridge has carried without error, after something was logged. -/
theorem Dev.changes.carried {s d : Dev} (logged : Dev.changes [.audit] [] s d) :
    Dev.changes [.audit, .sap] [sapReg 4] s (d.sapOk 0) ∧
      (d.sapOk 0).sap = { s.sap with timeouts := 0, last := some ⟨true, false, 0⟩ } := by
  have sap : d.sap = s.sap := logged.part (p := .sap) (by decide)
  refine ⟨(logged.mono (by decide) (List.nil_subset _)).trans (d.sapOk_changes 0 (by decide) (by decide)), ?_⟩
  rw [← sap]
  rfl

/-- MB_STATUS of a request that completed with OK and 32 octets, whether or not OVERRUN stands. -/
theorem Heart.status_of_32 {h : Heart} {o : Bool} (status : (h.reg 0xA4).toNat = stOk * 2 ^ 24 + 32 * 256 + o.toNat * 4 + 2) :
    h.busy = false ∧ h.rb 0xA4 1 = true ∧ fld (h.reg 0xA4) 31 24 = stOk ∧ fld (h.reg 0xA4) 23 8 = 32 := by
  rw [Heart.busy, Heart.rb, Heart.rb, bit_of_toNat 0 status, bit_of_toNat 1 status, fld, fld, status]
  cases o <;> decide

/-- A request of 64 words at most is written to MB_REQ with its OP and runs; what it writes is logged, and the bridge has carried
it. -/
theorem exec_issue_starts {i : Instr} {s : State} {a : Acc} {op : Nat} {lenOk : Nat → Bool} {body : Heart → List Byte → MbRes} {w : Word}
    {ws : List Word} (meaning : exec i s = s.mailbox (.issue a (w :: ws)) op lenOk body) (present : s.hwOn = true)
    (opens : s.opens a 0x5800A0 = true) (up : s.dev.linkDown = false) (idle : s.heart.busy = false) (short : ws.length ≤ 63) :
    ∃ d : Dev, Dev.changes [.audit] [] s.dev d ∧ exec i s = .next { s with
      dev := { d.sapOk 0 with out := .irq "IRQ_H2M" 0 :: s.dev.out }
      heart := (s.heart.putWords 0x100 (setFld w 7 0 op :: ws)).runRequest op lenOk body } := by
  have words : (w :: ws).take 64 = w :: ws := List.take_of_length_le (by rw [List.length_cons]; omega)
  have logged := (Dev.logMails_changes a.origin (fun k => 0x580100 + 4 * k) (fun k => s.heart.reg (0x100 + 4 * k))
    (setFld w 7 0 op :: ws).zipIdx s.dev).trans (Dev.log_changes _ a.origin kRegister 0x50 0 0 0x5800A0 (leBytes 4 (0 : Word).toNat)
      (leBytes 4 (1 : Word).toNat) (List.mem_singleton_self _))
  refine ⟨_, logged, ?_⟩
  rw [exec_issue meaning present opens, State.issued, if_neg (by simp [up]), if_neg (by simp [idle]), words]
  rw [← show _ = s.dev.out from logged.part (p := .out) (by decide)]
  rfl

/-! ## The statement -/

theorem Heart.getStatus_of_open {h : Heart} {p : List Byte} {b : HwBatch} (last : h.batches.getLast? = some b) (isOpen : b.closed = false) :
    h.getStatus p = (h, stOk, leBytes 4 (h.reg 0x80).toNat ++ leBytes 8 h.nextSeq ++ leBytes 8 h.cum ++ leBytes 8 b.firstSeq
      ++ leBytes 4 (h.reg 0x88).toNat) := by
  unfold Heart.getStatus
  rw [last]
  dsimp only
  rw [isOpen, if_neg Bool.false_ne_true]

theorem Heart.getStatus_of_none_open {h : Heart} {p : List Byte} (none_ : ∀ b, h.batches.getLast? = some b → b.closed = true) :
    h.getStatus p = (h, stOk, leBytes 4 (h.reg 0x80).toNat ++ leBytes 8 h.nextSeq ++ leBytes 8 h.cum ++ leBytes 8 h.nextSeq
      ++ leBytes 4 (h.reg 0x88).toNat) := by
  unfold Heart.getStatus
  cases last : h.batches.getLast? with
  | none => rfl
  | some b =>
    dsimp only
    rw [none_ b last, if_pos rfl]

/-- GET_STATUS changes nothing and answers 32 octets, the next SEQ from octet 4 on. -/
theorem Heart.getStatus_answers (h : Heart) (p : List Byte) : ∃ l, h.getStatus p = (h, stOk, l) ∧ l.length = 32 ∧
    l.getD 4 0 = BitVec.ofNat 8 h.nextSeq := by
  refine ⟨_, rfl, ?_, ?_⟩
  · simp only [List.length_append, leBytes_length]
  · rfl

/-- GET_LINK. -/
theorem Heart.getLink_eq (h : Heart) (p : List Byte) :
    h.getLink p = (h, stOk, h.link0.octets ++ if h.cal.mode = 2 then h.link1.octets else zeros 32) := rfl

/-- Settles O40: each request by what its own part answers, an issued one by what the bridge and the mailbox do with it. -/
theorem mailboxAnswersStatusAndRecords : Obligations.MailboxAnswersStatusAndRecords := by
  unfold Obligations.MailboxAnswersStatusAndRecords
  refine ⟨fun s b asks last isOpen => ?_, fun s asks none_ => ?_, fun s a w ws present up opens idle short bare => ?_,
    fun s b tr asks found closed signed part => ?_, fun s asks old closed => ?_, fun s asks keys => ?_,
    fun s w asks live since before => ?_, fun s w asks live since before valid => ?_, fun s e asks held => ?_, fun s asks mode => ?_,
    fun s asks mode => ?_, fun s b asks last closed => ?_, fun s idle => ?_, fun s a ws present up opens busy => ?_,
    fun s a ws present down opens => ?_, fun s asks missing old => ?_, fun s b asks found closed unsigned => ?_, fun s asks late => ?_,
    fun s asks beyond => ?_⟩
  · exact .of_mailReply rfl asks rfl (by decide) (Heart.getStatus_of_open last isOpen)
  · exact .of_mailReply rfl asks rfl (by decide) (Heart.getStatus_of_none_open fun b last => by simp [none_] at last)
  · obtain ⟨d, logged, step⟩ := exec_issue_starts (i := .getStatus (.issue a (w :: ws))) rfl present opens up idle short
    have word : (s.heart.putWords 0x100 (setFld w 7 0 1 :: ws)).reg 0x100 = setFld w 7 0 1 :=
      Heart.reg_putWords_in s.heart 0x100 (setFld w 7 0 1 :: ws) 0 (Nat.zero_lt_succ _)
    have words : ∀ k, k < ws.length → (s.heart.putWords 0x100 (setFld w 7 0 1 :: ws)).reg (0x104 + 4 * k) = ws.getD k 0 := fun k hk => by
      have := Heart.reg_putWords_in s.heart 0x100 (setFld w 7 0 1 :: ws) (k + 1) (Nat.succ_lt_succ hk)
      rwa [List.getD_cons_succ, show 0x100 + 4 * (k + 1) = 0x104 + 4 * k by omega] at this
    have plen : leNat (((s.heart.putWords 0x100 (setFld w 7 0 1 :: ws)).request.drop 2).take 2) = 0 := by
      rw [Heart.request_plen, word, fld_setFld_out _ _ _ _ _ _ (.inr (by decide)) (by decide), bare]
    have started := s.heart.putWords_regsOnly 0x100 (setFld w 7 0 1 :: ws)
    generalize s.heart.putWords 0x100 (setFld w 7 0 1 :: ws) = h at step word words plen started
    obtain ⟨l, does, length, octet⟩ := h.getStatus_answers h.params
    have told : h.answers [] stOk l (h.complete stOk l) := Heart.complete_answers (by decide) (fun _ _ => rfl) List.not_mem_nil l
    have status := h.complete_status (code := stOk) (l := l) (by decide) (by omega)
    rw [Heart.runRequest_of_runs (by simp) (by rw [plen]; rfl) does] at step
    obtain ⟨carried, sap⟩ := logged.carried
    obtain ⟨idle', done, code, octets⟩ := (h.complete stOk l).status_of_32 (length ▸ status)
    exact ⟨_, step, idle', done, (told.regs 0x100 (by decide) (by omega) List.not_mem_nil).trans word,
      fun k hk => (told.regs _ (by omega) (by omega) List.not_mem_nil).trans (words k hk), code, octets,
      (told.octets 4 (by omega)).trans (octet.trans (by rw [started])),
      (carried.parts.mono (by decide)).trans ((Dev.withOut_keeps _ _).mono (by decide)), carried.regs, carried.events, rfl, sap, rfl,
      started.trans (h.complete_regsOnly stOk l)⟩
  · exact .of_mailReply rfl asks rfl (by decide) (Heart.readBatch_of_signed found closed signed part)
  · exact .of_mailDone rfl asks rfl (by decide) (Heart.ackBatch_of_closed old closed) (fun _ _ => rfl) List.not_mem_nil
      fun h told only _ => ⟨told, only, s.served_afterServe h⟩
  · refine .of_mailReply rfl asks rfl (by decide) ?_
    rw [Heart.getPubkey, keys, if_pos rfl]
  · have does := Heart.timeMsgReq_of_live (h := { s.heart with time := w.toNat }) live
    rw [← Heart.at_of_within since before] at does
    exact .of_mailDone (i := .timeMsg .serve w) rfl asks rfl (by decide) does (fun _ _ => by rw [Heart.at_of_within since before]; rfl) List.not_mem_nil
      fun h told only _ => ⟨told, by rw [Heart.at_of_within since before] at only; exact only, s.served_afterServe h⟩
  · have does := Heart.timeMsgReq_of_not_live (t := w.toNat) live valid
    rw [← Heart.at_of_within since before] at does
    exact .of_mailDone (i := .timeMsg .serve w) rfl asks rfl (by decide) does (s.heart.notLive_regsKeep _) (by decide)
      fun h told only regs => ⟨told, (regs 0x80 (by decide)).trans (Heart.reg_setReg_same _ _ _), only, s.served_afterServe h⟩
  · refine .of_mailReply rfl asks rfl (by decide) ?_
    rw [Heart.readEvlog, held]
  · refine .of_mailReply rfl asks rfl (by decide) ?_
    rw [Heart.getLink_eq, if_pos mode]
  · refine .of_mailReply rfl asks rfl (by decide) ?_
    rw [Heart.getLink_eq, if_neg mode]
    rfl
  · refine .of_mailReply rfl asks rfl (by decide) (Heart.getStatus_of_none_open fun b' last' => ?_)
    obtain rfl := Option.some.inj (last.symm.trans last')
    exact closed
  · refine .of_onBoth (execGetStatus.eq_1 .serve s) (d := s.dev) (h := s.heart) ?_ rfl
    dsimp only
    rw [idle]
    split <;> rfl
  · obtain ⟨carried, sap⟩ := (s.dev.log_changes a.origin kRegister 0x50 0 0 0x5800A0 (leBytes 4 (0 : Word).toNat) (leBytes 4 (1 : Word).toNat)
      (List.mem_singleton_self _)).carried
    exact ⟨_, exec_issue_busy rfl present opens up busy, Heart.reg_setReg_same _ _ _, carried.parts.mono (by decide), carried.regs,
      carried.events, rfl, sap, rfl⟩
  · exact ⟨_, exec_issue_down rfl present opens down, rfl, rfl, ⟨(s.dev.onSap_keeps _).mono (by decide), rfl, rfl⟩, .refl _⟩
  · exact .of_mailReply rfl asks rfl (by decide) (Heart.readBatch_of_missing missing old)
  · exact .of_mailReply rfl asks rfl (by decide) (Heart.readBatch_of_unsigned found closed unsigned)
  · exact .of_mailReply rfl asks rfl (by decide) (Heart.ackBatch_of_late late)
  · refine .of_mailReply rfl asks rfl (by decide) ?_
    rw [Heart.readEvlog, List.getElem?_eq_none beyond]

end Sys2Proof.Machine
end

section
/-! SUPPORT. The requests from STAGE_WRITE to HW_COMMIT, and the statement on them (R408, R409, R424, R425, R545, R562). -/
namespace Sys2Proof.Machine

/-! ## Octets in a buffer -/

theorem Store.get_put {α : Type} [DecidableEq α] (d : α) (m : Store α) (k j : Nat) (v : α) :
    Store.get d (Store.put d m k v) j = if j = k then v else Store.get d m j := by
  split
  · next e => rw [e, Store.get_put_same]
  · next ne => exact Store.get_put_ne _ _ _ _ ne

theorem putOctets_cons (st : Store Byte) (off : Nat) (b : Byte) (l : List Byte) :
    putOctets st off (b :: l) = putOctets (st.put 0 off b) (off + 1) l := by
  have shift : ∀ (l : List Byte) (n : Nat) (st : Store Byte),
      (l.zipIdx (n + 1)).foldl (fun (st : Store Byte) (e : Byte × Nat) => st.put 0 (off + e.2) e.1) st =
        (l.zipIdx n).foldl (fun (st : Store Byte) (e : Byte × Nat) => st.put 0 (off + 1 + e.2) e.1) st := by
    intro l
    induction l with
    | nil => exact fun _ _ => rfl
    | cons b l ih =>
      intro n st
      rw [List.zipIdx_cons, List.zipIdx_cons, List.foldl_cons, List.foldl_cons, ih, show off + (n + 1) = off + 1 + n by omega]
  exact shift l 0 (st.put 0 off b)

theorem get_putOctets (st : Store Byte) (off : Nat) (l : List Byte) (k : Nat) :
    (putOctets st off l).get 0 k = if off ≤ k ∧ k < off + l.length then l.getD (k - off) 0 else st.get 0 k := by
  induction l generalizing st off with
  | nil => rw [if_neg (by rw [List.length_nil]; omega)]; rfl
  | cons b l ih =>
    rw [putOctets_cons, ih, Store.get_put, List.length_cons]
    by_cases here : k = off
    · rw [if_neg (by omega), if_pos here, if_pos (by omega), here, Nat.sub_self, List.getD_cons_zero]
    · rw [if_neg here]
      by_cases inside : off + 1 ≤ k ∧ k < off + 1 + l.length
      · rw [if_pos inside, if_pos (by omega), show k - off = k - (off + 1) + 1 by omega, List.getD_cons_succ]
      · rw [if_neg inside, if_neg (by omega)]

@[simp] theorem getOctets_length (st : Store Byte) (off n : Nat) : (getOctets st off n).length = n := by simp [getOctets]

theorem getD_getOctets (st : Store Byte) (off n i : Nat) (hi : i < n) : (getOctets st off n).getD i 0 = st.get 0 (off + i) := by
  simp [getOctets, List.getD_eq_getElem?_getD, hi]

/-! ## Staging, calibration and images -/

section
variable {h : Heart} {p : List Byte}

theorem Heart.stageWrite_of_fits (fits : prm p 0 4 + (p.length - 4) ≤ 65536) :
    h.stageWrite p = ({ h with staging := putOctets h.staging (prm p 0 4) (p.drop 4) }, stOk, []) := by
  unfold Heart.stageWrite
  dsimp only
  rw [if_neg (by rw [List.length_drop]; omega)]

theorem Heart.imageWrite_of_fits (fits : prm p 0 4 + prm p 4 4 ≤ 917504) (short : prm p 4 4 ≤ 65536) :
    h.imageWrite p = ({ h with
      image := putOctets h.image ((1 - h.slot) * 2 ^ 20 + prm p 0 4) (getOctets h.staging 0 (prm p 4 4)), checked := none }, stOk, []) := by
  unfold Heart.imageWrite hwSlotSize
  dsimp only
  rw [if_neg (by simp; omega)]

theorem Heart.imageWrite_of_beyond (beyond : 917504 < prm p 0 4 + prm p 4 4 ∨ 65536 < prm p 4 4) : h.imageWrite p = (h, stBadParam, []) := by
  unfold Heart.imageWrite hwSlotSize
  dsimp only
  rw [if_pos (by simpa using beyond)]

theorem Heart.calibrate_of_full (full : h.rb 0x80 15 = true) : h.calibrate p = (h, stExhausted, []) := by
  unfold Heart.calibrate
  dsimp only
  rw [if_pos (by simp [full])]

/-- A staged message that is for this Heartwood, the next one, and in range is accepted where its signatures verify. -/
theorem Heart.calibrate_of_acceptable {m : List Byte} (fits : prm p 0 4 ≤ 65536) (staged : getOctets h.staging 0 (prm p 0 4) = m)
    (room : h.rb 0x80 15 = false) (first : h.calNext = []) (entries : h.rf 0x8C 10 0 + calEntries m ≤ 1024)
    (more : (h.reg 0x88).toNat < 0xFFFFFFFF) (mine : (m.drop 8).take 8 = hwUidBytes) (next : msgNat m 16 4 = (h.reg 0x88).toNat + 1)
    (inRange : calInRange m = true)
    (unwraps : (msgNat m 33 1).testBit 0 = false ∨ (keyUnwrap Config.transportKey ((m.drop 40).take 40)).isSome = true) :
    h.calibrate p = ({ h with calNext := if h.calVerified m then [m] else [] }, if h.calVerified m then stOk else stAuthFail, []) := by
  have entries' : h.rf 0x8C 10 0 + 0 + calEntries m ≤ 1024 := entries
  have wraps : ¬ ((msgNat m 33 1).testBit 0 && (keyUnwrap Config.transportKey ((m.drop 40).take 40)).isNone) = true := by
    obtain off | on := unwraps
    · simp [off]
    · rw [Option.isSome_iff_ne_none] at on
      simp [on]
  unfold Heart.calibrate
  dsimp only
  rw [Nat.min_eq_left fits, staged, first, List.length_nil, List.foldl_nil, room, if_neg (by simp; omega), if_neg (by simp [mine, next]), inRange,
    if_neg (by decide)]
  cases verified : h.calVerified m with
  | false => simp [← first]
  | true => rw [if_neg (by decide), if_neg wraps]; rfl

theorem Heart.imageCheck_of_acceptable {img : List Byte} (fits : prm p 0 4 ≤ 917504) (held : img = h.inactive (prm p 0 4))
    (magic : img.take 8 = ascii "TLTRIMG1") (kind : msgNat img 8 1 = 3) (body : msgNat img 12 2 ≠ 0)
    (mine : (msgNat img 9 1).testBit 0 = false ∨ (img.drop 24).take 8 = hwUidBytes) (whole : imageWhole img = true)
    (secure : (h.reg 0x14).toNat ≤ msgNat img 11 1) (room : h.rb 0x80 15 = false) (more : (h.reg 0x84).toNat < 0xFFFFFFFF) {ok : Bool}
    (verified : ok = (vendorSigned (img.take 4096) (img.drop (prm p 0 4 - 4096)) &&
      Config.authorityVerify (h.authority.getD Config.authorityKeys) img)) :
    h.imageCheck p = ({ h with checked := if ok then some (prm p 0 4) else h.checked }, if ok then stOk else stAuthFail, []) := by
  have unit : msgNat img 9 1 % 2 = 1 → (img.drop 24).take 8 = hwUidBytes := by
    obtain any_ | own := mine
    · simp only [Nat.testBit_zero, decide_eq_false_iff_not] at any_
      exact fun odd => absurd odd any_
    · exact fun _ => own
  unfold Heart.imageCheck hwSlotSize
  dsimp only
  rw [if_neg (by omega), ← held, if_neg (by simpa [magic, kind, body] using unit), whole, Bool.true_and, ← verified]
  cases ok with
  | false => rfl
  | true => rw [if_neg (by decide), if_neg (by omega), if_neg (by simp [room]; omega)]; rfl

theorem Heart.prepare_of_checked {n : Nat} (checked : h.checked = some n) :
    h.prepare p = ({ h with prepared := some (p.take 64) }, stOk, []) := by
  unfold Heart.prepare
  rw [checked]

theorem Heart.prepare_of_unchecked (unchecked : h.checked = none) : h.prepare p = (h, stNotFound, []) := by
  unfold Heart.prepare
  rw [unchecked]

end

/-! ## An image comes into force -/

theorem shaBlock_length (v : List (BitVec 64)) (block : List Byte) : (shaBlock v block).length = v.length := by
  have round : ∀ (u : List (BitVec 64)) k, (shaRound u k).length = u.length := fun u k => by unfold shaRound; split <;> rfl
  have rounds : ∀ (l : List (BitVec 64 × BitVec 64)) (u : List (BitVec 64)), (l.foldl shaRound u).length = u.length := fun l => by
    induction l with
    | nil => exact fun _ => rfl
    | cons k l ih => exact fun u => (ih _).trans (round u k)
  rw [shaBlock, List.length_zipWith, rounds, Nat.min_self]

/-- A digest is 64 octets long. -/
theorem length_sha512 (m : List Byte) : (sha512 m).length = 64 := by
  have state : ∀ (l : List (List Byte)) (v : List (BitVec 64)), (l.foldl shaBlock v).length = v.length := fun l => by
    induction l with
    | nil => exact fun _ => rfl
    | cons b l ih => exact fun v => (ih _).trans (shaBlock_length v b)
  have octets : ∀ v : List (BitVec 64), (v.flatMap fun w => beBytes 8 w.toNat).length = v.length * 8 := fun v => by
    rw [List.length_flatMap, List.sum_eq_card_nsmul _ 8, List.length_map, smul_eq_mul]
    intro n hn
    obtain ⟨w, -, rfl⟩ := List.mem_map.mp hn
    rw [beBytes, List.length_reverse, leBytes_length]
  rw [sha512, octets, state]
  rfl

section
variable (h : Heart)

/-- The event log takes an entry (R425). -/
theorem Heart.logEntry_of_room (kind val : Nat) (old new : List Byte) (room : h.rf 0x8C 10 0 < 1024) : ∃ e,
    h.logEntry kind val old new = (({ h with evlog := h.evlog ++ [e] } : Heart).setReg 0x8C (BitVec.ofNat 32 (h.rf 0x8C 10 0 + 1))).setRb 0x80 15
      (h.rf 0x8C 10 0 + 1 = 1024) := by
  unfold Heart.logEntry
  dsimp only
  rw [if_neg (by omega)]
  exact ⟨_, rfl⟩

/-- The registers that show the running image (R406). -/
def Heart.showImage (img : List Byte) : Heart :=
  (((h.putWords 0x40 (asWords (sha512 img))).putWords 0 ((List.range 4).map (fun k => Config.imageWord (leNat (sha512 img)) k))).setReg 0x10
    (BitVec.ofNat 32 (msgNat img 20 4))).setReg 0x14 (BitVec.ofNat 32 (msgNat img 11 1))

variable (img : List Byte)

theorem Heart.showImage_regsOnly : h.regsOnly (h.showImage img) :=
  (((h.putWords_regsOnly _ _).trans (Heart.putWords_regsOnly _ _ _)).trans (Heart.setReg_regsOnly _ _ _)).trans (Heart.setReg_regsOnly _ _ _)

theorem sha512_words_length : (asWords (sha512 img)).length = 16 := by rw [asWords_length, length_sha512]

theorem Heart.showImage_reg_out {off : Nat} (out : off ∉ [0, 4, 8, 12, 0x10, 0x14]) (sum : ∀ k, k < 16 → off ≠ 0x40 + 4 * k) :
    (h.showImage img).reg off = h.reg off := by
  have length := sha512_words_length img
  simp only [List.mem_cons, List.not_mem_nil, or_false, not_or] at out
  obtain ⟨_, _, _, _, version, security⟩ := out
  rw [Heart.showImage, Heart.reg_setReg_ne _ _ security, Heart.reg_setReg_ne _ _ version,
    Heart.reg_putWords_out _ _ _ fun k hk => by rw [List.length_map, List.length_range] at hk; omega,
    Heart.reg_putWords_out _ _ _ (length ▸ sum)]

theorem Heart.showImage_checksum (k : Nat) (hk : k < 16) : (h.showImage img).reg (0x40 + 4 * k) = (asWords (sha512 img)).getD k 0 := by
  have length := sha512_words_length img
  rw [Heart.showImage, Heart.reg_setReg_ne _ _ (by omega), Heart.reg_setReg_ne _ _ (by omega),
    Heart.reg_putWords_out _ _ _ fun k hk => by rw [List.length_map, List.length_range] at hk; omega, Heart.reg_putWords_in _ _ _ _ (by omega)]

theorem Heart.showImage_version : (h.showImage img).reg 0x10 = BitVec.ofNat 32 (msgNat img 20 4) :=
  (Heart.reg_setReg_ne _ _ (by decide)).trans (Heart.reg_setReg_same _ _ _)

theorem Heart.showImage_security : (h.showImage img).reg 0x14 = BitVec.ofNat 32 (msgNat img 11 1) := Heart.reg_setReg_same _ _ _

end

/-- The checksum that the last running image left is read from its 16 words. -/
theorem Heart.lrChecksum_of_words {h : Heart} {l : List Byte} (length : l.length = 64)
    (words : ∀ k, k < 16 → h.reg (0x40 + 4 * k) = (asWords l).getD k 0) : h.lrChecksum = l := by
  have count : (asWords l).length = 16 := by rw [asWords_length, length]
  have each : (List.range 16).map (fun k => (asWords l).getD k 0) = asWords l := by
    refine List.ext_getElem (by simp [count]) fun k hk _ => ?_
    have hk : k < (asWords l).length := by simpa [count] using hk
    simp [List.getD_eq_getElem?_getD, hk]
  calc h.lrChecksum
    _ = ((List.range 16).map (fun k => (asWords l).getD k 0)).flatMap (fun w => leBytes 4 w.toNat) := by
      rw [Heart.lrChecksum, List.flatMap_map]
      exact List.flatMap_congr fun k hk => by rw [words k (List.mem_range.mp hk)]
    _ = l := by rw [each, flatMap_asWords l (by rw [length])]

/-- A second image has been counted and logged (R424, R425). -/
def Heart.countImage (h : Heart) (e : List Byte) : Heart :=
  (((({ h with evlog := h.evlog ++ [e] } : Heart).setReg 0x84 (BitVec.ofNat 32 ((h.reg 0x84).toNat + 1))).setReg 0x8C
    (BitVec.ofNat 32 (h.rf 0x8C 10 0 + 1))).setRb 0x80 15 (h.rf 0x8C 10 0 + 1 = 1024)).event 5 ((h.reg 0x84).toNat + 1)

theorem Heart.countImage_reg_out (h : Heart) (e : List Byte) {off : Nat} (out : off ≠ 0x80 ∧ off ≠ 0x84 ∧ off ≠ 0x8C) :
    (h.countImage e).reg off = h.reg off :=
  ((Heart.reg_setReg_ne _ _ out.1).trans (Heart.reg_setReg_ne _ _ out.2.2)).trans (Heart.reg_setReg_ne _ _ out.2.1)

theorem Heart.countImage_count (h : Heart) (e : List Byte) : (h.countImage e).reg 0x84 = BitVec.ofNat 32 ((h.reg 0x84).toNat + 1) :=
  ((Heart.reg_setReg_ne _ _ (by decide)).trans (Heart.reg_setReg_ne _ _ (by decide))).trans (Heart.reg_setReg_same _ _ _)

theorem Heart.countImage_entries (h : Heart) (e : List Byte) : (h.countImage e).reg 0x8C = BitVec.ofNat 32 (h.rf 0x8C 10 0 + 1) :=
  (Heart.reg_setReg_ne _ _ (by decide)).trans (Heart.reg_setReg_same _ _ _)

/-- The activation of an image: it is counted and logged, shown, and runs from its slot. -/
theorem Heart.activate_of_room {h : Heart} {len : Nat} (room : h.rf 0x8C 10 0 < 1024) : ∃ e, h.activate len =
    ({ (h.countImage e).showImage (h.inactive len) with prepared := none, checked := none } : Heart).setReg 0x18 (BitVec.ofNat 32 (1 - h.slot)) := by
  have kept : (h.setReg 0x84 (BitVec.ofNat 32 ((h.reg 0x84).toNat + 1))).rf 0x8C 10 0 = h.rf 0x8C 10 0 := by
    rw [Heart.rf, h.reg_setReg_ne _ (by decide), ← Heart.rf]
  obtain ⟨e, logged⟩ := (h.setReg 0x84 (BitVec.ofNat 32 ((h.reg 0x84).toNat + 1))).logEntry_of_room 3 ((h.reg 0x84).toNat + 1) h.lrChecksum
    (sha512 (h.inactive len)) (kept ▸ room)
  have img : (h.setReg 0x84 (BitVec.ofNat 32 ((h.reg 0x84).toNat + 1))).inactive len = h.inactive len := by
    rw [Heart.inactive, Heart.slot, Heart.rf, h.reg_setReg_ne _ (by decide)]
    rfl
  have slot : ((h.countImage e).showImage (h.inactive len)).slot = h.slot := by
    rw [Heart.slot, Heart.rf, Heart.showImage_reg_out _ _ (by decide) (fun _ _ => by omega), h.countImage_reg_out e (by decide), ← Heart.rf, ← Heart.slot]
  refine ⟨e, ?_⟩
  rw [← slot]
  unfold Heart.activate
  dsimp only
  rw [logged, kept]
  rfl

/-! ## The statement -/

section
variable {h : Heart} {p : List Byte}

theorem Heart.commit_of_pending {len : Nat} (prepared : h.prepared = some (p.take 64)) (checked : h.checked = some len)
    (room : h.rb 0x80 15 = false) (more : (h.reg 0x84).toNat < 0xFFFFFFFF) :
    h.commit p = ({ h.activate len with committed := some (p.take 64) }, stOk, []) := by
  unfold Heart.commit
  dsimp only
  rw [if_neg (by simp [prepared]), checked]
  dsimp only
  rw [if_neg (by simp [room]; omega)]

theorem Heart.commit_of_unchecked (prepared : h.prepared = some (p.take 64)) (unchecked : h.checked = none) :
    h.commit p = (h, stNotFound, []) := by
  unfold Heart.commit
  dsimp only
  rw [if_neg (by simp [prepared]), unchecked]

theorem Heart.commit_of_nothing (nothing : h.prepared = none) (other : h.committed ≠ some (p.take 64)) :
    h.commit p = (h, stNotFound, []) := by
  unfold Heart.commit
  dsimp only
  rw [if_pos (by simp [nothing]), if_neg other]

end

/-- Heartwood with a new image in force. -/
def Heart.inForce (h : Heart) (e img d : List Byte) : Heart :=
  { ({ (h.countImage e).showImage img with prepared := none, checked := none } : Heart).setReg 0x18 (BitVec.ofNat 32 (1 - h.slot)) with
    committed := some d }

section
variable (h : Heart) (e img d : List Byte)

theorem Heart.inForce_eq : h.inForce e img d = { h with
    regs := (h.inForce e img d).regs, prepared := none, checked := none, committed := some d
    events := h.events ++ [(5, (h.reg 0x84).toNat + 1)], evlog := h.evlog ++ [e] } := by
  have shown := (h.countImage e).showImage_regsOnly img
  unfold Heart.inForce
  rw [shown]
  rfl

theorem Heart.reg_withCommitted (c : Option (List Byte)) (off : Nat) : ({ h with committed := c } : Heart).reg off = h.reg off := rfl

theorem Heart.reg_withChecked (c : Option (List Byte)) (n : Option Nat) (off : Nat) :
    ({ h with prepared := c, checked := n } : Heart).reg off = h.reg off := rfl

theorem Heart.inForce_slot : (h.inForce e img d).reg 0x18 = BitVec.ofNat 32 (1 - h.slot) := by
  rw [Heart.inForce, Heart.reg_withCommitted, Heart.reg_setReg_same]

theorem Heart.inForce_reg {off : Nat} (ne : off ≠ 0x18) : (h.inForce e img d).reg off = ((h.countImage e).showImage img).reg off := by
  rw [Heart.inForce, Heart.reg_withCommitted, Heart.reg_setReg_ne _ _ ne, Heart.reg_withChecked]

theorem Heart.inForce_regsKeep :
    Heart.regsKeep ([0, 4, 8, 12, 0x10, 0x14, 0x18, 0x80, 0x84, 0x8C] ++ (List.range 16).map (fun k => 0x40 + 4 * k)) h (h.inForce e img d) := by
  intro off ho
  simp only [List.mem_append, List.mem_cons, List.not_mem_nil, or_false, not_or, List.mem_map, List.mem_range, not_exists, not_and] at ho
  obtain ⟨⟨_, _, _, _, _, _, slot, status, count, entries⟩, sum⟩ := ho
  rw [h.inForce_reg e img d slot, Heart.showImage_reg_out _ _ (by simp [*]) fun k hk same => sum k hk same.symm,
    h.countImage_reg_out e ⟨status, count, entries⟩]

theorem Heart.inForce_checksum : (h.inForce e img d).lrChecksum = sha512 img :=
  Heart.lrChecksum_of_words (length_sha512 img) fun k hk => (h.inForce_reg e img d (by omega)).trans (Heart.showImage_checksum _ img k hk)

theorem Heart.inForce_entries (room : h.rf 0x8C 10 0 < 1024) : (h.inForce e img d).rf 0x8C 10 0 = h.rf 0x8C 10 0 + 1 := by
  rw [Heart.rf, h.inForce_reg e img d (by decide), Heart.showImage_reg_out _ _ (by decide) (fun _ _ => by omega), h.countImage_entries, fld,
    BitVec.toNat_ofNat]
  omega

theorem Heart.inForce_count : (h.inForce e img d).reg 0x84 = h.reg 0x84 + 1 := by
  rw [h.inForce_reg e img d (by decide), Heart.showImage_reg_out _ _ (by decide) (fun _ _ => by omega), h.countImage_count]
  exact BitVec.eq_of_toNat_eq (by simp)

end

/-- Settles O41: each request by what its own part answers; HW_COMMIT by the registers and the log that the image it puts into force
leaves. -/
theorem mailboxStagesCalibratesAndActivates : Obligations.MailboxStagesCalibratesAndActivates := by
  unfold Obligations.MailboxStagesCalibratesAndActivates
  refine ⟨fun s n asks some_ most fits => ?_, fun s ok asks fits room first entries more mine next inRange unwraps verified => ?_,
    fun s asks fits short => ?_, fun s img ok asks fits held magic kind body mine whole secure room more verified => ?_, fun s asks => ?_,
    fun s len asks checked => ?_, fun s len img asks prepared checked room more entries held => ?_, fun s n asks other => ?_,
    fun s asks full => ?_, fun s asks beyond => ?_, fun s asks unchecked => ?_, fun s asks prepared unchecked => ?_,
    fun s asks nothing other => ?_⟩
  · have length : s.heart.params.length = n := by
      simp only [State.asks, Bool.and_eq_true, decide_eq_true_eq] at asks
      obtain ⟨⟨-, plen⟩, -⟩ := asks
      rw [Heart.params_length _ plen, Nat.min_eq_left most]
    refine .of_mailDone rfl asks (by simp [some_, most]) (by decide) (Heart.stageWrite_of_fits (by omega)) (fun _ _ => rfl) List.not_mem_nil
      fun h told only _ => ?_
    have staged : h.staging = putOctets s.heart.staging (prm s.heart.params 0 4) (s.heart.params.drop 4) := congrArg Heart.staging only
    have same : h = { s.heart with regs := h.regs, staging := h.staging } := by rw [staged]; exact only
    refine ⟨told, fun k => ?_, same, s.served_afterServe h⟩
    rw [State.afterServe, staged, get_putOctets, List.length_drop, length]
    simp only [List.getD_eq_getElem?_getD, List.getElem?_drop]
  · subst verified
    exact .of_mailDone rfl asks rfl (by split <;> decide)
      (Heart.calibrate_of_acceptable fits rfl room first entries more mine next inRange unwraps) (fun _ _ => rfl) List.not_mem_nil
      fun h told only _ => ⟨told, only, s.served_afterServe h⟩
  · refine .of_mailDone rfl asks rfl (by decide) (Heart.imageWrite_of_fits fits short) (fun _ _ => rfl) List.not_mem_nil
      fun h told only _ => ?_
    have image : h.image = putOctets s.heart.image ((1 - s.heart.slot) * 2 ^ 20 + prm s.heart.params 0 4)
      (getOctets s.heart.staging 0 (prm s.heart.params 4 4)) := congrArg Heart.image only
    have same : h = { s.heart with regs := h.regs, image := h.image, checked := none } := by rw [image]; exact only
    refine ⟨told, fun k => ?_, same, s.served_afterServe h⟩
    rw [State.afterServe, image, get_putOctets, getOctets_length]
    split
    · next inside => rw [getD_getOctets _ _ _ _ (by omega), Nat.zero_add]
    · rfl
  · exact .of_mailDone rfl asks rfl (by split <;> decide)
      (Heart.imageCheck_of_acceptable fits held magic kind body mine whole secure room more verified) (fun _ _ => rfl) List.not_mem_nil
      fun h told only _ => ⟨told, only, s.served_afterServe h⟩
  · exact .of_mailReply rfl asks rfl (by decide) rfl
  · exact .of_mailDone rfl asks rfl (by decide) (Heart.prepare_of_checked checked) (fun _ _ => rfl) List.not_mem_nil
      fun h told only _ => ⟨told, only, s.served_afterServe h⟩
  · subst held
    obtain ⟨e, active⟩ := Heart.activate_of_room (len := len) entries
    have does := Heart.commit_of_pending prepared checked room more
    rw [active] at does
    refine .of_mailDone rfl asks rfl (by decide) (h' := s.heart.inForce e (s.heart.inactive len) (s.heart.params.take 64)) does
      (s.heart.inForce_regsKeep _ _ _) (by decide) fun h told only regs => ?_
    have rf : h.rf 0x8C 10 0 = (s.heart.inForce e (s.heart.inactive len) (s.heart.params.take 64)).rf 0x8C 10 0 := by
      rw [Heart.rf, regs _ (by decide), Heart.rf]
    have sum : h.lrChecksum = (s.heart.inForce e (s.heart.inactive len) (s.heart.params.take 64)).lrChecksum :=
      List.flatMap_congr fun k hk => by rw [regs _ (by have := List.mem_range.mp hk; omega)]
    have same := Eq.trans only (congrArg (fun x : Heart => { x with regs := h.regs }) (s.heart.inForce_eq e (s.heart.inactive len) (s.heart.params.take 64)))
    have log : h.evlog = s.heart.evlog ++ [e] := congrArg Heart.evlog same
    have kept : h = { s.heart with
        regs := h.regs, prepared := none, checked := none, committed := some (s.heart.params.take 64)
        events := s.heart.events ++ [(5, (s.heart.reg 0x84).toNat + 1)], evlog := h.evlog } := by rw [log]; exact same
    exact ⟨told, (regs _ (by decide)).trans (s.heart.inForce_count _ _ _), (regs _ (by decide)).trans (s.heart.inForce_slot _ _ _),
      sum.trans (s.heart.inForce_checksum _ _ _),
      (regs _ (by decide)).trans ((s.heart.inForce_reg _ _ _ (by decide)).trans (Heart.showImage_version _ _)),
      (regs _ (by decide)).trans ((s.heart.inForce_reg _ _ _ (by decide)).trans (Heart.showImage_security _ _)),
      rf.trans (s.heart.inForce_entries _ _ _ entries), (congrArg List.length log).trans (by simp), kept,
      s.served_afterServe h⟩
  · exact .of_badLength rfl asks (by simp; omega)
  · exact .of_mailReply rfl asks rfl (by decide) (Heart.calibrate_of_full full)
  · exact .of_mailReply rfl asks rfl (by decide) (Heart.imageWrite_of_beyond beyond)
  · exact .of_mailReply rfl asks rfl (by decide) (Heart.prepare_of_unchecked unchecked)
  · exact .of_mailReply rfl asks rfl (by decide) (Heart.commit_of_unchecked prepared unchecked)
  · exact .of_mailReply rfl asks rfl (by decide) (Heart.commit_of_nothing nothing other)

end Sys2Proof.Machine
end

section
/-! SUPPORT. Batches in sequence (R419, R422). -/
namespace Sys2Proof.Machine

theorem inSequence.tail {b : HwBatch} {l : List HwBatch} {seq num : Nat} (run : inSequence (b :: l) seq num) : inSequence l seq num := by
  cases l with
  | nil => trivial
  | cons c l => exact run.2.2.2.2

/-- What SEQ and BATCH_SEQ say of a batch stays, and a closed batch stays closed. -/
structure HwBatch.sameRun (b b' : HwBatch) : Prop where
  firstSeq : b'.firstSeq = b.firstSeq
  recs : b'.recs = b.recs
  number : b'.number = b.number
  closed : b.closed = true → b'.closed = true

theorem HwBatch.sameRun.runsOn {b b' : HwBatch} (same : b.sameRun b') (run : b.runsOn) : b'.runsOn := by
  obtain ⟨some_, each⟩ := run
  unfold HwBatch.runsOn
  simp only [same.recs, same.firstSeq]
  exact ⟨some_, each⟩

theorem inSequence.map {f : HwBatch → HwBatch} (same : ∀ b : HwBatch, b.sameRun (f b)) {l : List HwBatch} {seq num : Nat} (run : inSequence l seq num) :
    inSequence (l.map f) seq num := by
  induction l with
  | nil => trivial
  | cons b l ih =>
    cases l with
    | nil =>
      obtain ⟨runs, seq_, num_⟩ := run
      exact ⟨(same b).runsOn runs, by rw [(same b).firstSeq, (same b).recs, seq_], by rw [(same b).number, num_]⟩
    | cons c l =>
      obtain ⟨runs, closed, seq_, num_, rest⟩ := run
      exact ⟨(same b).runsOn runs, (same b).closed closed, by rw [(same b).firstSeq, (same b).recs, (same c).firstSeq, seq_],
        by rw [(same b).number, (same c).number, num_], ih rest⟩

/-- A record with the next SEQ. -/
def hasSeq (r : BitVec 512) (seq : Nat) : Prop := r.toNat % 2 ^ 64 = seq % 2 ^ 64

theorem HwBatch.runsOn_single {b : HwBatch} {r : BitVec 512} (recs : b.recs = [r]) (next : hasSeq r b.firstSeq) : b.runsOn := by
  unfold HwBatch.runsOn
  simp only [recs]
  refine ⟨by simp, fun k hk => ?_⟩
  obtain rfl : k = 0 := by simpa using hk
  exact next

theorem HwBatch.runsOn_append {b : HwBatch} {r : BitVec 512} (run : b.runsOn) (next : hasSeq r (b.firstSeq + b.recs.length)) :
    ({ b with recs := b.recs ++ [r] } : HwBatch).runsOn := by
  obtain ⟨some_, each⟩ := run
  refine ⟨by simp, fun k hk => ?_⟩
  dsimp only at hk ⊢
  rw [List.length_append, List.length_singleton] at hk
  by_cases old : k < b.recs.length
  · rw [List.getElem_append_left old]
    exact each k old
  · obtain rfl : k = b.recs.length := by omega
    rw [List.getElem_append_right (Nat.le_refl _), List.getElem_singleton]
    exact next

/-- A record opens a batch where none is open. -/
theorem inSequence.opened {l : List HwBatch} {seq num : Nat} (run : inSequence l seq num) (closed : ∀ b, l.getLast? = some b → b.closed = true)
    {fresh : HwBatch} {r : BitVec 512} (number : fresh.number = num) (first : fresh.firstSeq = seq) (recs : fresh.recs = [r]) (next : hasSeq r seq) :
    inSequence (l ++ [fresh]) (seq + 1) (num + 1) := by
  have single : inSequence [fresh] (seq + 1) (num + 1) :=
    ⟨HwBatch.runsOn_single recs (first ▸ next), by rw [first, recs, List.length_singleton], by rw [number]⟩
  induction l with
  | nil => exact single
  | cons b l ih =>
    cases l with
    | nil =>
      obtain ⟨runs, seq_, num_⟩ := run
      exact ⟨runs, closed b rfl, by rw [seq_, first], by rw [num_, number], single⟩
    | cons c l =>
      obtain ⟨runs, shut, seq_, num_, rest⟩ := run
      exact ⟨runs, shut, seq_, num_, ih rest fun x hx => closed x (by rw [List.getLast?_cons_cons]; exact hx)⟩

/-- A batch that is open takes a record. -/
def HwBatch.extend (r : BitVec 512) (b : HwBatch) : HwBatch := if b.closed then b else { b with recs := b.recs ++ [r] }

theorem HwBatch.extend_of_closed {r : BitVec 512} {b : HwBatch} (closed : b.closed = true) : b.extend r = b := if_pos closed

theorem HwBatch.extend_of_open {r : BitVec 512} {b : HwBatch} (isOpen : b.closed = false) : b.extend r = { b with recs := b.recs ++ [r] } :=
  if_neg (by simp [isOpen])

theorem HwBatch.extend_fixed (r : BitVec 512) (b : HwBatch) : (b.extend r).firstSeq = b.firstSeq ∧ (b.extend r).number = b.number := by
  unfold HwBatch.extend
  split <;> exact ⟨rfl, rfl⟩

/-- A record enters the open batch, which is the last. -/
theorem inSequence.extended {l : List HwBatch} {seq num : Nat} (run : inSequence l seq num) {b : HwBatch} (last : l.getLast? = some b)
    (isOpen : b.closed = false) {r : BitVec 512} (next : hasSeq r seq) : inSequence (l.map (HwBatch.extend r)) (seq + 1) num := by
  induction l with
  | nil => exact absurd last (by simp)
  | cons x l ih =>
    cases l with
    | nil =>
      obtain ⟨runs, seq_, num_⟩ := run
      obtain rfl : x = b := by simpa using last
      rw [List.map_singleton, HwBatch.extend_of_open isOpen]
      refine ⟨HwBatch.runsOn_append runs (seq_ ▸ next), ?_, num_⟩
      dsimp only
      rw [List.length_append, List.length_singleton, ← Nat.add_assoc, seq_]
    | cons c l =>
      obtain ⟨runs, shut, seq_, num_, rest⟩ := run
      obtain ⟨first, number⟩ := c.extend_fixed r
      rw [List.map_cons, List.map_cons, HwBatch.extend_of_closed shut]
      exact ⟨runs, shut, by rw [first, seq_], by rw [number, num_], ih rest (by rwa [List.getLast?_cons_cons] at last)⟩

end Sys2Proof.Machine
end

section
/-! SUPPORT. What every function of Heartwood keeps: its invariant, and the records it writes (R421). -/
namespace Sys2Proof.Machine

/-! ## Steps that write no record -/

/-- The counts of 100 ms stay ten. -/
def Heart.tens (h : Heart) : Prop := h.subA.length = 10 ∧ h.link0.sub.length = 10 ∧ h.link1.sub.length = 10

/-- A change that leaves records, chain and batches, and keeps the rest of the invariant. -/
structure Heart.quiet (h h' : Heart) : Prop where
  seq : h'.nextSeq = h.nextSeq
  chain : h'.chain = h.chain
  batches : h'.batches = h.batches
  number : h'.nextBatch = h.nextBatch
  regs : h.regs.wf heartReset = true → h'.regs.wf heartReset = true
  staging : h.staging.wf (fun _ => 0) = true → h'.staging.wf (fun _ => 0) = true
  image : h.image.wf (fun _ => 0) = true → h'.image.wf (fun _ => 0) = true
  notices : h.notices.length ≤ 64 → h'.notices.length ≤ 64
  tens : h.tens → h'.tens

/-- A change that writes records in order, if any, and keeps the invariant. -/
structure Heart.evolves (h h' : Heart) : Prop where
  sound : h.Sound → h'.Sound
  wrote : ∃ l, h.wroteRecords l h'

section
variable {h h' h'' : Heart}

theorem Heart.quiet.refl (h : Heart) : h.quiet h := ⟨rfl, rfl, rfl, rfl, id, id, id, id, id⟩

theorem Heart.quiet.trans (a : h.quiet h') (b : h'.quiet h'') : h.quiet h'' where
  seq := b.seq.trans a.seq
  chain := b.chain.trans a.chain
  batches := b.batches.trans a.batches
  number := b.number.trans a.number
  regs w := b.regs (a.regs w)
  staging w := b.staging (a.staging w)
  image w := b.image (a.image w)
  notices w := b.notices (a.notices w)
  tens w := b.tens (a.tens w)

theorem Heart.wroteRecords.refl (h : Heart) : h.wroteRecords [] h := ⟨rfl, rfl, fun _ => .inl⟩

theorem Heart.chainNow_of_chain (same : h'.chain = h.chain) : h'.chainNow = h.chainNow := by rw [Heart.chainNow, same, Heart.chainNow]

theorem Heart.wroteRecords.trans {l l' : List (BitVec 512)} (a : h.wroteRecords l h') (b : h'.wroteRecords l' h'') :
    h.wroteRecords (l ++ l') h'' where
  seq := by rw [b.seq, a.seq, List.length_append, Nat.add_assoc]
  chain := by
    rw [b.chain]
    cases l with
    | nil =>
      have same : h'.chain = h.chain := a.chain
      rw [List.nil_append, Heart.chainNow_of_chain same, same]
    | cons r l =>
      have now : h'.chainNow = chained h.chainNow (r :: l) := by rw [Heart.chainNow, a.chain]; rfl
      cases l' with
      | nil => rw [List.append_nil]; exact a.chain
      | cons r' l' =>
        rw [now, chained, chained, ← List.foldl_append]
        rfl
  store r held := (b.store r held).elim (fun old => (a.store r old).imp_right fun m => List.mem_append_left _ m)
    fun m => .inr (List.mem_append_right _ m)

theorem Heart.evolves.refl (h : Heart) : h.evolves h := ⟨id, [], .refl h⟩

theorem Heart.evolves.trans (a : h.evolves h') (b : h'.evolves h'') : h.evolves h'' := by
  obtain ⟨sound, l, wrote⟩ := a
  obtain ⟨sound', l', wrote'⟩ := b
  exact ⟨fun w => sound' (sound w), l ++ l', wrote.trans wrote'⟩

theorem Heart.quiet.evolves (q : h.quiet h') : h.evolves h' where
  sound w :=
    have tens := q.tens ⟨w.subA, w.sub0, w.sub1⟩
    { regs := q.regs w.regs, staging := q.staging w.staging, image := q.image w.image
      batches := by rw [q.batches, q.seq, q.number]; exact w.batches
      notices := q.notices w.notices, subA := tens.1, sub0 := tens.2.1, sub1 := tens.2.2 }
  wrote := ⟨[], q.seq, q.chain, fun r held => .inl (by unfold Heart.holds at *; rwa [q.batches] at held)⟩

/-- Batches that are dropped from the front, or changed in what the sequence does not speak of, leave the records as they were. -/
theorem Heart.evolves.of_batches {l : List HwBatch} (run : inSequence h.batches h.nextSeq h.nextBatch → inSequence l h.nextSeq h.nextBatch)
    (held : ∀ b ∈ l, ∀ r ∈ b.recs, h.holds r) : h.evolves { h with batches := l } where
  sound w := ⟨w.regs, w.staging, w.image, run w.batches, w.notices, w.subA, w.sub0, w.sub1⟩
  wrote := ⟨[], rfl, rfl, fun r ⟨b, hb, hr⟩ => .inl (held b hb r hr)⟩

theorem Heart.evolves.of_map {f : HwBatch → HwBatch} (same : ∀ b : HwBatch, b.sameRun (f b)) : h.evolves { h with batches := h.batches.map f } :=
  .of_batches (·.map same) fun b hb r hr => by
    obtain ⟨c, hc, rfl⟩ := List.mem_map.mp hb
    exact ⟨c, hc, (same c).recs ▸ hr⟩

end

/-! ## Registers, notices and events -/

section
variable (h : Heart)

theorem Heart.setReg_quiet (off : Nat) (v : Word) : h.quiet (h.setReg off v) where
  seq := rfl
  chain := rfl
  batches := rfl
  number := rfl
  regs w := Store.wf_put heartReset _ _ _ w
  staging := id
  image := id
  notices := id
  tens := id

theorem Heart.setRb_quiet (off i : Nat) (v : Bool) : h.quiet (h.setRb off i v) := h.setReg_quiet _ _

theorem Heart.count_quiet (off : Nat) : h.quiet (h.count off) := h.setReg_quiet _ _

theorem Heart.setSource_quiet (n : Nat) : h.quiet (h.setSource n) := h.setReg_quiet _ _

theorem Heart.event_quiet (code param : Nat) : h.quiet (h.event code param) := ⟨rfl, rfl, rfl, rfl, id, id, id, id, id⟩

theorem Heart.pulseAlarm_quiet (cause : Nat) : h.quiet (h.pulseAlarm cause) :=
  ((h.event_quiet 1 cause).trans (Heart.event_quiet _ 2 cause)).trans (Heart.setRb_quiet _ _ _ _)

theorem Heart.notice_quiet (n : HwNotice) : h.quiet (h.notice n) where
  seq := rfl
  chain := rfl
  batches := rfl
  number := rfl
  regs := id
  staging := id
  image := id
  notices _ := by
    rw [Heart.notice]
    dsimp only
    rw [List.length_drop]
    omega
  tens := id

theorem Heart.at_quiet (t : Nat) : h.quiet (h.at_ t) := by
  unfold Heart.at_
  split
  · exact ⟨rfl, rfl, rfl, rfl, id, id, id, id, id⟩
  · exact .refl h

/-! ## Working time -/

theorem Heart.withWt_quiet (w : HwTime) : h.quiet { h with wt := w } := ⟨rfl, rfl, rfl, rfl, id, id, id, id, id⟩

theorem Heart.wtLost_quiet : h.quiet h.wtLost := by
  unfold Heart.wtLost
  extract_lets src lost
  have lose : h.quiet lost := h.withWt_quiet _
  split
  · exact (lose.trans (Heart.setRb_quiet _ _ _ _)).trans (Heart.event_quiet _ _ _)
  · exact lose

theorem Heart.timeMsg_quiet (sec : Nat) (live : Bool) : h.quiet (h.timeMsg sec live) := by
  unfold Heart.timeMsg
  split
  · exact h.withWt_quiet _
  · exact (h.withWt_quiet _).trans (Heart.wtLost_quiet _)

theorem Heart.wtFirst_quiet : h.quiet h.wtFirst := by
  unfold Heart.wtFirst
  split
  · split <;> exact h.withWt_quiet _
  · exact h.withWt_quiet _

theorem Heart.timeEdge_quiet : h.quiet h.timeEdge := by
  unfold Heart.timeEdge
  split
  · exact h.wtFirst_quiet
  · split
    · extract_lets edge
      have next : h.quiet edge := h.withWt_quiet _
      split
      · exact next
      · exact (next.trans (Heart.setRb_quiet _ _ _ _)).trans (Heart.event_quiet _ _ _)
    · exact (h.wtLost_quiet.trans (Heart.withWt_quiet _ _)).trans (Heart.wtFirst_quiet _)

theorem Heart.wtCheck_quiet : h.quiet h.wtCheck := by
  unfold Heart.wtCheck
  split
  · split
    · exact h.wtLost_quiet
    · exact .refl h
  · exact .refl h

end

/-! ## Records -/

section
variable (h : Heart)

theorem Heart.freeOldest_evolves : h.evolves h.freeOldest := by
  unfold Heart.freeOldest
  split
  · next b r batches =>
    split
    · exact .refl h
    · extract_lets freed
      have free : h.evolves freed := .of_batches (fun run => by rw [batches] at run; exact run.tail)
        fun c hc x hx => ⟨c, batches ▸ List.mem_cons_of_mem _ hc, hx⟩
      split
      · exact free
      · exact free.trans (((freed.count_quiet _).trans (Heart.event_quiet _ _ _)).trans (Heart.pulseAlarm_quiet _ _)).evolves
  · exact .refl h

theorem Heart.makeRoom_evolves (n k : Nat) : h.evolves (h.makeRoom n k) := by
  induction k generalizing h with
  | zero => exact .refl h
  | succ k ih =>
    rw [Heart.makeRoom]
    split
    · exact .refl h
    · exact h.freeOldest_evolves.trans (ih _)

theorem Heart.freeOldest_seq : h.freeOldest.nextSeq = h.nextSeq := by
  unfold Heart.freeOldest
  split
  · split
    · rfl
    · extract_lets
      split <;> rfl
  · rfl

theorem Heart.makeRoom_seq (n k : Nat) : (h.makeRoom n k).nextSeq = h.nextSeq := by
  induction k generalizing h with
  | zero => rfl
  | succ k ih =>
    rw [Heart.makeRoom]
    split
    · rfl
    · rw [ih, h.freeOldest_seq]

/-- A record carries the next SEQ (R419). -/
theorem Heart.recordOf_hasSeq (ty event param : Nat) (r : HwSecondRec) : hasSeq (h.recordOf ty event param r) h.nextSeq := by
  unfold hasSeq Heart.recordOf
  dsimp only
  rw [List.foldr_cons, BitVec.toNat_ofNat, Nat.mod_mod_of_dvd _ (Nat.pow_dvd_pow 2 (by decide)), Nat.add_mul_mod_self_left, Nat.mod_mod]

/-- Whether the last batch is open. -/
def Heart.openNow (h : Heart) : Bool := match h.batches.getLast? with | some b => !b.closed | none => false

/-- The record enters the open batch, or opens one, where there is room. -/
def Heart.store (h : Heart) (rec_ : BitVec 512) : Heart :=
  { h with
    batches := if h.openNow then h.batches.map (HwBatch.extend rec_)
      else h.batches ++ [⟨h.nextBatch, h.nextSeq, [rec_], (h.time - 1) / hwSecond * hwSecond, false, [], 0, (0, 0, 0), none, false⟩]
    chain := some (sha512 (h.chainNow ++ leBytes 64 rec_.toNat)), nextSeq := h.nextSeq + 1, stored := h.time
    nextBatch := if h.openNow then h.nextBatch else h.nextBatch + 1 }

theorem Heart.putRecord_eq (ty event param : Nat) (r : HwSecondRec) :
    h.putRecord ty event param r = (h.makeRoom 1 2).store (h.recordOf ty event param r) := rfl

theorem Heart.store_sound {rec_ : BitVec 512} (next : hasSeq rec_ h.nextSeq) (w : h.Sound) : (h.store rec_).Sound := by
  refine ⟨w.regs, w.staging, w.image, ?_, w.notices, w.subA, w.sub0, w.sub1⟩
  have run := w.batches
  cases last : h.batches.getLast? with
  | none =>
    have shut : h.openNow = false := by rw [Heart.openNow, last]
    rw [Heart.store, shut]
    exact run.opened (by simp [last]) rfl rfl rfl next
  | some b =>
    cases closed : b.closed with
    | false =>
      have isOpen : h.openNow = true := by rw [Heart.openNow, last]; dsimp only; rw [closed]; rfl
      rw [Heart.store, isOpen]
      exact run.extended last closed next
    | true =>
      have shut : h.openNow = false := by rw [Heart.openNow, last]; dsimp only; rw [closed]; rfl
      rw [Heart.store, shut]
      exact run.opened (fun c hc => by rw [last] at hc; exact Option.some.inj hc ▸ closed) rfl rfl rfl next

theorem HwBatch.mem_extend {r x : BitVec 512} {b : HwBatch} (hx : x ∈ (b.extend r).recs) : x ∈ b.recs ∨ x = r := by
  unfold HwBatch.extend at hx
  split at hx
  · exact .inl hx
  · simpa using hx

theorem Heart.store_wrote (rec_ : BitVec 512) : h.wroteRecords [rec_] (h.store rec_) where
  seq := rfl
  chain := rfl
  store x held := by
    obtain ⟨b, hb, hx⟩ := held
    rw [Heart.store] at hb
    dsimp only at hb
    split at hb
    · obtain ⟨c, hc, rfl⟩ := List.mem_map.mp hb
      exact (HwBatch.mem_extend hx).imp (fun old => ⟨c, hc, old⟩) fun e => List.mem_singleton.mpr e
    · obtain hb | hb := List.mem_append.mp hb
      · exact .inl ⟨b, hb, hx⟩
      · obtain rfl := List.mem_singleton.mp hb
        exact .inr hx

theorem Heart.putRecord_evolves (ty event param : Nat) (r : HwSecondRec) : h.evolves (h.putRecord ty event param r) := by
  rw [h.putRecord_eq]
  refine (h.makeRoom_evolves 1 2).trans ⟨Heart.store_sound _ ?_, _, Heart.store_wrote _ _⟩
  rw [h.makeRoom_seq]
  exact h.recordOf_hasSeq ty event param r

theorem Heart.putEvents_evolves (r : HwSecondRec) (l : List (Nat × Nat)) : h.evolves (h.putEvents r l) := by
  induction l generalizing h with
  | nil => exact .refl h
  | cons e l ih =>
    obtain ⟨code, param⟩ := e
    unfold Heart.putEvents
    extract_lets seq put told
    have puts : h.evolves put := h.putRecord_evolves _ _ _ _
    refine Heart.evolves.trans ?_ (ih told)
    unfold told
    split
    · exact puts.trans (put.notice_quiet _).evolves
    · exact puts

theorem Heart.closeBatch_evolves : h.evolves h.closeBatch := by
  refine .of_map fun b => ?_
  split
  · exact ⟨rfl, rfl, rfl, fun _ => rfl⟩
  · exact ⟨rfl, rfl, rfl, id⟩

theorem Heart.signBatch_evolves : h.evolves h.signBatch := by
  unfold Heart.signBatch
  split
  · exact .refl h
  · next b _ =>
    extract_lets room sigs signed shown
    have signs : h.evolves signed := (h.makeRoom_evolves 55 64).trans (.of_map fun x => by
      split
      · exact ⟨rfl, rfl, rfl, id⟩
      · exact ⟨rfl, rfl, rfl, id⟩)
    refine (signs.trans ?_).trans (shown.notice_quiet _).evolves
    unfold shown
    split
    · exact ((signed.setReg_quiet _ _).trans (Heart.setReg_quiet _ _ _)).evolves
    · exact .refl signed

end

end Sys2Proof.Machine
end

section
/-! SUPPORT. What the events of Heartwood keep: its seconds, supplies, pulses, tamper, mailbox and sensor link. -/
namespace Sys2Proof.Machine

/-! ## A second -/

theorem HwLink.outTo_sub (l : HwLink) (t : Nat) : (l.outTo t).sub = l.sub := by
  unfold HwLink.outTo
  split <;> rfl

theorem HwLink.secondEnd_sub (l : HwLink) (k : Nat) : (l.secondEnd k).1.sub = List.replicate 10 0 := rfl

section
variable (h : Heart)

theorem Heart.withLinks_quiet {a b : HwLink} (ha : a.sub.length = 10 ∨ a.sub.length = h.link0.sub.length)
    (hb : b.sub.length = 10 ∨ b.sub.length = h.link1.sub.length) : h.quiet { h with link0 := a, link1 := b } where
  seq := rfl
  chain := rfl
  batches := rfl
  number := rfl
  regs := id
  staging := id
  image := id
  notices := id
  tens w := ⟨w.1, ha.elim id (·.trans w.2.1), hb.elim id (·.trans w.2.2)⟩

theorem Heart.withLink0_quiet {a : HwLink} (ha : a.sub.length = 10 ∨ a.sub.length = h.link0.sub.length) : h.quiet { h with link0 := a } :=
  h.withLinks_quiet ha (.inr rfl)

theorem Heart.withLink1_quiet {b : HwLink} (hb : b.sub.length = 10 ∨ b.sub.length = h.link1.sub.length) : h.quiet { h with link1 := b } :=
  h.withLinks_quiet (.inr rfl) hb

theorem Heart.logEntry_quiet (kind val : Nat) (old new : List Byte) : h.quiet (h.logEntry kind val old new) := by
  unfold Heart.logEntry
  extract_lets n
  split
  · exact .refl h
  · next head digest logged _ =>
    have log : h.quiet logged := ⟨rfl, rfl, rfl, rfl, id, id, id, id, id⟩
    exact (log.trans (Heart.setReg_quiet _ _ _)).trans (Heart.setRb_quiet _ _ _ _)

/-- A message is applied: its parameters, its authority keys and its pairing key (R409). -/
theorem Heart.applyCal_quiet (m : List Byte) : h.quiet (h.applyCal m) := by
  unfold Heart.applyCal
  extract_lets seq opts cal old changed shown logged new was keyed held
  have change : h.quiet changed := by
    have links : h.quiet { h with link1 := if cal.mode = h.cal.mode then h.link1 else h.link1.restart h.time } := by
      refine h.withLink1_quiet ?_
      split
      · exact .inr rfl
      · exact .inl rfl
    exact links.trans ⟨rfl, rfl, rfl, rfl, id, id, id, id, id⟩
  have log : h.quiet logged := ((change.trans ((changed.setReg_quiet _ _).trans (Heart.setRb_quiet _ _ _ _))).trans
    (Heart.event_quiet _ _ _)).trans (Heart.logEntry_quiet _ _ _ _ _)
  have key : h.quiet keyed := by
    unfold keyed
    split
    · have renew : logged.quiet { logged with authority := some new } := ⟨rfl, rfl, rfl, rfl, id, id, id, id, id⟩
      exact ((log.trans renew).trans (Heart.event_quiet _ _ _)).trans (Heart.logEntry_quiet _ _ _ _ _)
    · exact log
  split
  · split
    · extract_lets paired
      have pair : keyed.quiet paired := ⟨rfl, rfl, rfl, rfl, id, id, id, id, id⟩
      exact (key.trans pair).trans (Heart.logEntry_quiet _ _ _ _ _)
    · exact key
  · exact key

theorem Heart.applyCals_quiet (l : List (List Byte)) : h.quiet (l.foldl (fun (h : Heart) m => h.applyCal m) h) := by
  induction l generalizing h with
  | nil => exact .refl h
  | cons m l ih => exact (h.applyCal_quiet m).trans (ih _)

/-- The second up to its records: time and working time, the links' periods, the distance and the alarms. -/
def Heart.measured (h : Heart) (cum rem rem0 rem1 : Nat) (alarms : BitVec 8) (alarm doubt : Bool) : Heart :=
  let h := ({ h with time := h.secondEndAt } : Heart).wtCheck
  let h := { h with link0 := h.link0.outTo h.time, link1 := h.link1.outTo h.time }
  let h := { h with cum := cum, alarms := alarms, events := [], remPulse := rem, remLink0 := rem0, remLink1 := rem1 }
  (h.setRb 0x80 6 alarm).setRb 0x80 7 doubt

/-- The links' seconds, and the start of the next second. -/
def Heart.nextSecond (h : Heart) (mode : Nat) : Heart :=
  let k := h.time / hwSecond - 1
  let e0 := h.link0.secondEnd k
  let h := { h with link0 := e0.1 }
  let h := if e0.2 then h.linkNotice (if e0.1.unavail then 3 else 4) 0 else h
  let e1 := h.link1.secondEnd k
  let h := if mode ≠ 2 then h else
    let h := { h with link1 := e1.1 }
    if e1.2 then h.linkNotice (if e1.1.unavail then 3 else 4) 1 else h
  let h := match h.nextSource with
    | some (_, x) => if x = h.source then h else (h.setSource x).event 3 x
    | none => h
  let h := { h with nextSource := none, subA := List.replicate 10 0, pulsesB := 0, glitches := 0, mainSafe := false }
  let l := h.calNext
  l.foldl (fun (h : Heart) m => h.applyCal m) { h with calNext := [] }

/-- The end of a second: it is measured, its records are written and the next begins. -/
theorem Heart.secondEnd_eq (safe : Bool) : ∃ cum rem rem0 rem1 alarms alarm doubt mode r l, h.secondEnd safe =
    ((((h.measured cum rem rem0 rem1 alarms alarm doubt).putRecord 1 0 0 r).putEvents r l).closeBatch).nextSecond mode :=
  ⟨_, _, _, _, _, _, _, _, _, _, rfl⟩

theorem Heart.measured_quiet (cum rem rem0 rem1 : Nat) (alarms : BitVec 8) (alarm doubt : Bool) :
    h.quiet (h.measured cum rem rem0 rem1 alarms alarm doubt) := by
  unfold Heart.measured
  extract_lets timed linked counted
  have begins : h.quiet { h with time := h.secondEndAt } := ⟨rfl, rfl, rfl, rfl, id, id, id, id, id⟩
  have time : h.quiet timed := begins.trans (Heart.wtCheck_quiet _)
  have link : h.quiet linked := time.trans (timed.withLinks_quiet (.inr (by rw [HwLink.outTo_sub])) (.inr (by rw [HwLink.outTo_sub])))
  have count : linked.quiet counted := ⟨rfl, rfl, rfl, rfl, id, id, id, id, id⟩
  exact ((link.trans count).trans (Heart.setRb_quiet _ _ _ _)).trans (Heart.setRb_quiet _ _ _ _)

theorem Heart.linkNotice_quiet (cause a : Nat) : h.quiet (h.linkNotice cause a) := h.notice_quiet _

theorem Heart.nextSecond_quiet (mode : Nat) : h.quiet (h.nextSecond mode) := by
  unfold Heart.nextSecond
  extract_lets k e0 ended0 told0 e1 ended1 told1 sourced cleared l
  have end0 : h.quiet ended0 := h.withLink0_quiet (.inl rfl)
  have tell0 : h.quiet told0 := by
    unfold told0
    split
    · exact end0.trans (ended0.linkNotice_quiet _ _)
    · exact end0
  have end1 : h.quiet ended1 := tell0.trans (told0.withLink1_quiet (.inl rfl))
  have tell1 : h.quiet told1 := by
    unfold told1
    split
    · exact tell0
    · split
      · exact end1.trans (ended1.linkNotice_quiet _ _)
      · exact end1
  have source : h.quiet sourced := by
    unfold sourced
    split
    · split
      · exact tell1
      · exact tell1.trans ((told1.setSource_quiet _).trans (Heart.event_quiet _ _ _))
    · exact tell1
  have clear : sourced.quiet cleared := ⟨rfl, rfl, rfl, rfl, id, id, id, id, fun w => ⟨rfl, w.2.1, w.2.2⟩⟩
  have none_ : cleared.quiet { cleared with calNext := [] } := ⟨rfl, rfl, rfl, rfl, id, id, id, id, id⟩
  exact ((source.trans clear).trans none_).trans (Heart.applyCals_quiet _ _)

theorem Heart.secondEnd_evolves (safe : Bool) : h.evolves (h.secondEnd safe) := by
  obtain ⟨cum, rem, rem0, rem1, alarms, alarm, doubt, mode, r, l, ends⟩ := h.secondEnd_eq safe
  rw [ends]
  exact ((((h.measured_quiet cum rem rem0 rem1 alarms alarm doubt).evolves.trans (Heart.putRecord_evolves _ _ _ _ _)).trans
    (Heart.putEvents_evolves _ _ _)).trans (Heart.closeBatch_evolves _)).trans (Heart.nextSecond_quiet _ _).evolves

end

end Sys2Proof.Machine
end

section
/-! SUPPORT. What the supplies, inputs, mailbox and sensor link of Heartwood keep, and the statements on its invariant and its records
(R419 to R427). -/
namespace Sys2Proof.Machine

/-! ## Supplies, pulses and tamper -/

section
variable (h : Heart)

theorem Heart.powerLoss_quiet : h.quiet h.powerLoss := by
  unfold Heart.powerLoss
  split
  · exact .refl h
  · extract_lets lost off kept
    have lose : h.quiet lost := h.wtLost_quiet
    have cut : lost.quiet off := ⟨rfl, rfl, rfl, rfl, id, fun _ => rfl, id, id, fun _ => ⟨rfl, rfl, rfl⟩⟩
    have keep : off.quiet kept := ⟨rfl, rfl, rfl, rfl, fun w => Store.wf_keep heartReset (fun a _ => !(0xA0 ≤ a)) off.regs w, id, id, id, id⟩
    exact (((lose.trans cut).trans keep).trans (Heart.setRb_quiet _ _ _ _)).trans (Heart.setRb_quiet _ _ _ _)

theorem Heart.powerRise_evolves (safe vaonLost : Bool) (t : Nat) : h.evolves (h.powerRise safe vaonLost t) := by
  unfold Heart.powerRise
  split
  · exact .refl h
  · extract_lets time started shown n p valid gapped counted flags r
    have start : h.quiet started := ⟨rfl, rfl, rfl, rfl, id, id, id, id, fun w => ⟨w.1, rfl, rfl⟩⟩
    have show_ : h.quiet shown := (start.trans (started.setSource_quiet 3)).trans (Heart.setRb_quiet _ _ _ _)
    have gap : h.quiet gapped := by
      unfold gapped
      split
      · exact show_.trans ((shown.count_quiet _).trans (Heart.pulseAlarm_quiet _ _))
      · exact show_
    have count : h.quiet counted := by
      unfold counted
      split
      · exact gap.trans ⟨rfl, rfl, rfl, rfl, id, id, id, id, id⟩
      · exact gap
    have awake : counted.quiet { counted with asleep := 0 } := ⟨rfl, rfl, rfl, rfl, id, id, id, id, id⟩
    exact (count.trans awake).evolves.trans (Heart.putRecord_evolves _ _ _ _ _)

theorem addSub_length (l : List Nat) (i n : Nat) : (addSub l i n).length = l.length := List.length_set

theorem Heart.pulse_quiet (pinB short : Bool) (t : Nat) : h.quiet (h.pulse pinB short t) := by
  unfold Heart.pulse
  split
  · split
    · exact .refl h
    · exact ⟨rfl, rfl, rfl, rfl, id, id, id, id, id⟩
  · extract_lets now
    have time : h.quiet now := h.at_quiet t
    clear_value now
    split
    · exact time
    · split
      · exact time.trans ⟨rfl, rfl, rfl, rfl, id, id, id, id, id⟩
      · split
        · exact time.trans ⟨rfl, rfl, rfl, rfl, id, id, id, id, id⟩
        · exact time.trans ⟨rfl, rfl, rfl, rfl, id, id, id, id, fun w => ⟨(addSub_length _ _ _).trans w.1, w.2⟩⟩

theorem Heart.tampered_quiet : h.quiet h.tampered := by
  unfold Heart.tampered
  split
  · exact .refl h
  · extract_lets gone
    have go : h.quiet gone := ⟨rfl, rfl, rfl, rfl, id, id, id, id, id⟩
    exact ((go.trans (Heart.setRb_quiet _ _ _ _)).trans (Heart.setRb_quiet _ _ _ _)).trans (Heart.event_quiet _ _ _)

theorem Heart.mainTamper_quiet : h.quiet h.mainTamper := by
  unfold Heart.mainTamper
  split
  · exact .refl h
  · exact ((h.setRb_quiet _ _ _).trans (Heart.event_quiet _ _ _)).trans (Heart.pulseAlarm_quiet _ _)

/-- A die that has started without a source takes the one it has (R445). -/
def Heart.takeSource (h : Heart) : Heart :=
  if h.source ≠ 3 then h
  else if h.cal.mode ≠ 2 then h.setSource 1
  else if h.link1.state = 2 then h.setSource 2 else h

theorem Heart.startTimeout_eq : h.startTimeout =
    if h.link0Seen || h.startDue || h.secondEndAt ≤ h.started + 2000000 then h
    else ({ h.at_ (h.started + 2000000) with startDue := true } : Heart).takeSource := rfl

theorem Heart.takeSource_quiet : h.quiet h.takeSource := by
  unfold Heart.takeSource
  split
  · exact .refl h
  · split
    · exact h.setSource_quiet 1
    · split
      · exact h.setSource_quiet 2
      · exact .refl h

theorem Heart.startTimeout_quiet : h.quiet h.startTimeout := by
  rw [h.startTimeout_eq]
  split
  · exact .refl h
  · have due : (h.at_ (h.started + 2000000)).quiet { h.at_ (h.started + 2000000) with startDue := true } :=
      ⟨rfl, rfl, rfl, rfl, id, id, id, id, id⟩
    exact ((h.at_quiet _).trans due).trans (Heart.takeSource_quiet _)

/-! ## The mailbox -/

theorem Heart.putWords_quiet (off : Nat) (l : List Word) : h.quiet (h.putWords off l) := by
  induction l generalizing h off with
  | nil => exact .refl h
  | cons w l ih =>
    rw [h.putWords_cons]
    exact (h.setReg_quiet _ _).trans (ih _ _)

theorem Heart.complete_quiet (code : Nat) (l : List Byte) : h.quiet (h.complete code l) :=
  (h.putWords_quiet _ _).trans (Heart.setReg_quiet _ _ _)

theorem Heart.mbWrite_quiet (off : Nat) (v : Word) : h.quiet (h.mbWrite off v) := by
  unfold Heart.mbWrite
  split
  · split
    · exact .refl h
    · exact h.setReg_quiet _ _
  · split
    · split
      · exact .refl h
      · split
        · exact h.setRb_quiet _ _ _
        · split
          · exact h.setRb_quiet _ _ _
          · exact h.complete_quiet _ _
    · split
      · exact h.setReg_quiet _ _
      · exact .refl h

theorem Heart.perform_quiet (x : SapXfer) : h.quiet (x.perform h).1 := by
  unfold SapXfer.perform
  extract_lets off
  clear_value off
  split
  · exact h.mbWrite_quiet _ _
  · exact .refl h

theorem wf_putOctets (st : Store Byte) (off : Nat) (l : List Byte) (wf : st.wf (fun _ => 0) = true) :
    (putOctets st off l).wf (fun _ => 0) = true := by
  induction l generalizing st off with
  | nil => exact wf
  | cons b l ih =>
    rw [putOctets_cons]
    exact ih _ _ (Store.wf_put (fun _ => (0 : Byte)) _ _ _ wf)

variable (p : List Byte)

theorem Heart.ackBatch_evolves : h.evolves (h.ackBatch p).1 := by
  unfold Heart.ackBatch
  extract_lets n notClosed
  split
  · exact .refl h
  · exact .of_map fun b => by
      split
      · exact ⟨rfl, rfl, rfl, id⟩
      · exact ⟨rfl, rfl, rfl, id⟩

theorem Heart.readBatch_fst : (h.readBatch p).1 = h := by
  unfold Heart.readBatch
  dsimp only
  split
  · rfl
  · split
    · rfl
    · split
      · rfl
      · split <;> rfl

theorem Heart.readEvlog_fst : (h.readEvlog p).1 = h := by
  unfold Heart.readEvlog
  split <;> rfl

theorem Heart.stageWrite_quiet : h.quiet (h.stageWrite p).1 := by
  unfold Heart.stageWrite
  dsimp only
  split
  · exact .refl h
  · exact ⟨rfl, rfl, rfl, rfl, id, wf_putOctets _ _ _, id, id, id⟩

theorem Heart.calibrate_quiet : h.quiet (h.calibrate p).1 := by
  unfold Heart.calibrate
  extract_lets len m seq room
  split
  · exact .refl h
  · split
    · exact .refl h
    · split
      · exact .refl h
      · split
        · exact .refl h
        · split
          · exact .refl h
          · exact ⟨rfl, rfl, rfl, rfl, id, id, id, id, id⟩

theorem Heart.imageWrite_quiet : h.quiet (h.imageWrite p).1 := by
  unfold Heart.imageWrite
  dsimp only
  split
  · exact .refl h
  · exact ⟨rfl, rfl, rfl, rfl, id, id, wf_putOctets _ _ _, id, id⟩

theorem Heart.imageCheck_quiet : h.quiet (h.imageCheck p).1 := by
  unfold Heart.imageCheck
  extract_lets len img unitOk
  split
  · exact .refl h
  · split
    · exact .refl h
    · split
      · exact .refl h
      · split
        · exact .refl h
        · split
          · exact .refl h
          · exact ⟨rfl, rfl, rfl, rfl, id, id, id, id, id⟩

theorem Heart.prepare_quiet : h.quiet (h.prepare p).1 := by
  unfold Heart.prepare
  split
  · exact .refl h
  · exact ⟨rfl, rfl, rfl, rfl, id, id, id, id, id⟩

theorem Heart.withCommitted_quiet (c : Option (List Byte)) : h.quiet { h with committed := c } := ⟨rfl, rfl, rfl, rfl, id, id, id, id, id⟩

theorem Heart.withoutImage_quiet : h.quiet { h with prepared := none, checked := none } := ⟨rfl, rfl, rfl, rfl, id, id, id, id, id⟩

theorem Heart.showImage_quiet (img : List Byte) : h.quiet (h.showImage img) :=
  (((h.putWords_quiet _ _).trans (Heart.putWords_quiet _ _ _)).trans (Heart.setReg_quiet _ _ _)).trans (Heart.setReg_quiet _ _ _)

/-- The activation of an image, by its four parts: count and log, show, forget the check, run. -/
theorem Heart.activate_eq (len : Nat) : ∃ count n old sum slot, h.activate len =
    ({ (((h.setReg 0x84 count).logEntry 3 n old sum).event 5 n).showImage (h.inactive len) with prepared := none, checked := none }
      : Heart).setReg 0x18 slot := ⟨_, _, _, _, _, rfl⟩

theorem Heart.activate_quiet (len : Nat) : h.quiet (h.activate len) := by
  obtain ⟨count, n, old, sum, slot, active⟩ := h.activate_eq len
  rw [active]
  exact (((((h.setReg_quiet _ _).trans (Heart.logEntry_quiet _ _ _ _ _)).trans (Heart.event_quiet _ _ _)).trans
    (Heart.showImage_quiet _ _)).trans (Heart.withoutImage_quiet _)).trans (Heart.setReg_quiet _ _ _)

theorem Heart.commit_quiet : h.quiet (h.commit p).1 := by
  unfold Heart.commit
  extract_lets d
  split
  · exact .refl h
  · split
    · exact .refl h
    · next len _ =>
      split
      · exact .refl h
      · exact (h.activate_quiet len).trans (Heart.withCommitted_quiet _ _)

variable {op : Nat} {lenOk : Nat → Bool} {body : Heart → List Byte → MbRes}

theorem Heart.runRequest_evolves (does : ∀ (h : Heart) p, h.evolves (body h p).1) : h.evolves (h.runRequest op lenOk body) := by
  unfold Heart.runRequest
  extract_lets r plen x
  refine Heart.evolves.trans ?_ (Heart.complete_quiet _ _ _).evolves
  unfold x
  split
  · exact .refl h
  · split
    · exact .refl h
    · exact does _ _

end

end Sys2Proof.Machine
end

section
/-! SUPPORT. What a frame of the sensor link does to Heartwood (R429 to R445), and that no frame writes a record. -/
namespace Sys2Proof.Machine

/-! ## The sensor link -/

section
variable (h : Heart)

/-- A link whose counts of 100 ms are as many as another's. -/
def HwLink.sameSub (l l' : HwLink) : Prop := l'.sub.length = l.sub.length
def HwLink.sameSubOf {α : Type} (l : HwLink) (x : HwLink × α) : Prop := l.sameSub x.1

section
variable {α : Type} {l a b : HwLink}

theorem HwLink.sameSub.trans (ha : l.sameSub a) (hb : a.sameSub b) : l.sameSub b := Eq.trans hb ha

theorem HwLink.sameSub.of {x : α} (ha : l.sameSub a) : l.sameSubOf (a, x) := ha

theorem HwLink.sameSubOf.fst {x : HwLink × α} (hx : l.sameSubOf x) : l.sameSub x.1 := hx

theorem HwLink.sameSub.ite {c : Prop} [Decidable c] (ha : l.sameSub a) (hb : l.sameSub b) : l.sameSub (if c then a else b) := by
  split
  · exact ha
  · exact hb

theorem HwLink.sameSubOf.ite {c : Prop} [Decidable c] {x y : HwLink × α} (hx : l.sameSubOf x) (hy : l.sameSubOf y) :
    l.sameSubOf (if c then x else y) := by
  split
  · exact hx
  · exact hy

theorem HwLink.sameSub.counted (good crcFail errored : Nat) (ha : l.sameSub a) :
    l.sameSub { a with good := good, crcFail := crcFail, errored := errored } := ha

theorem HwLink.sameSub.asked (req : Option (Nat × Nat × Nat)) (ha : l.sameSub a) : l.sameSub { a with req := req } := ha

theorem HwLink.sameSub.rejected (n : Word) (ha : l.sameSub a) : l.sameSub { a with reqRej := n } := ha

theorem HwLink.sameSub.lost (t : Nat) (n : Word) (ha : l.sameSub a) :
    l.sameSub { a with state := 0, scores := [], out := true, outAt := t, oofDecl := n } := ha

theorem HwLink.sameSub.hunting (prev : BitVec 512) (scores : Store Nat) (ha : l.sameSub a) :
    l.sameSub { a with prev := prev, scores := scores, out := true } := ha

theorem HwLink.sameSub.inFrame (pos fseq wptr bits : Nat) (ha : l.sameSub a) : l.sameSub { a with
    state := 2, pos := pos, scores := [], badFaw := 0, fseq := fseq, wptr := wptr, dataBits := bits, word := none, fresh := true } := ha

theorem HwLink.sameSub.outOfFrame (n : Nat) (ha : l.sameSub a) : l.sameSub { a with state := n } := ha

end

theorem Heart.word_sub (l : HwLink) (w : Nat) : l.sameSubOf (h.word l w) := by
  unfold Heart.word
  extract_lets plain reject
  clear_value plain
  cases plain with
  | none => exact rfl
  | some x => exact HwLink.sameSubOf.ite (HwLink.sameSub.of (addSub_length _ _ _)) rfl

theorem Heart.dataBits_sub (bits : List Nat) (skip : Nat) (x : HwLink × Nat) : x.1.sameSubOf (h.dataBits skip x bits) := by
  induction bits generalizing skip x with
  | nil => rw [Heart.dataBits]; exact rfl
  | cons b bits ih =>
    obtain ⟨l, bad⟩ := x
    unfold Heart.dataBits
    split
    · split
      · exact ih _ _
      · split
        · exact ih _ _
        · exact ih _ _
    · split
      · exact ih _ _
      · next n v _ _ =>
        have word := (h.word_sub { l with word := some (0, 0) } (2 * v + b)).fst
        exact HwLink.sameSub.trans word (ih _ (_, _))

theorem Heart.inFrame_sub (l : HwLink) (cur : BitVec 512) : l.sameSubOf (h.inFrame l cur) := by
  unfold Heart.inFrame
  extract_lets raw f crc faw wantF wantW gotF gotW sq1 sq2 badW badReq taken d ended errored counted run asked wrong ask told
  have take : l.sameSub taken := rfl
  have data : taken.sameSubOf d := h.dataBits_sub (dataOf f) taken.wptr (taken, 0)
  have ends : taken.sameSub ended := data.fst
  have count : l.sameSub counted := (take.trans ends).counted _ _ _
  have asks : l.sameSub asked := (count.asked _).ite count
  clear_value ask asked
  have tell : l.sameSub told := by
    unfold told
    split
    · exact asks.rejected _
    · exact asks
  clear_value told
  exact (tell.lost _ _).of.ite tell.of

/-- The positions of a frame that score, each with its count of times. -/
def HwLink.hits (l : HwLink) (cur : BitVec 512) : Store Nat :=
  (((List.range 512).map (· + 1)).filter (fun p => posScores l.prev.toNat cur.toNat p)).map fun p => (p, l.scores.get 0 p + 1)

/-- A link after a period out of frame: its scores, and the position that has scored a third time. -/
def HwLink.searched (l : HwLink) (cur : BitVec 512) (hits : Store Nat) : HwLink := { l with prev := cur, scores := hits, out := true }
def HwLink.settled (l : HwLink) (hits : Store Nat) (f : Nat → Nat) : Option (Nat × Nat) → HwLink
  | some (p, _) => { l with
      state := 2, pos := p, scores := [], badFaw := 0, fseq := frameBits (f p) 16 23, wptr := frameBits (f p) 56 62,
      dataBits := dataCount (jcOf (f p)), word := none, fresh := true }
  | none => { l with state := if hits.isEmpty then 0 else 1 }

/-- A function on links that searches as R436 says. The predicate keeps the kernel from running the search of 512 positions where it
unfolds `HwLink.hunt`. -/
def HwLink.searches (f : HwLink → BitVec 512 → Nat → HwLink) : Prop :=
  ∀ (l : HwLink) cur t best, ((l.outTo t).hits cur).find? (fun e => e.2 ≥ 3) = best →
    f l cur t = ((l.outTo t).searched cur ((l.outTo t).hits cur)).settled ((l.outTo t).hits cur)
      (fun p => descramble (frameAt (l.outTo t).prev.toNat cur.toNat p)) best

theorem HwLink.searches_hunt : HwLink.searches HwLink.hunt := by
  delta HwLink.hunt
  unfold HwLink.searches
  intro l cur t best found
  beta_reduce
  extract_lets timed prev hits sc scored
  have same : sc = (l.outTo t).hits cur := rfl
  rw [same, found]
  cases best with
  | none => rfl
  | some b => rfl

/-- The frame that stands at a position, descrambled. -/
def HwLink.frameOf (l : HwLink) (cur : BitVec 512) (p : Nat) : Nat := descramble (frameAt l.prev.toNat cur.toNat p)

theorem HwLink.hunt_eq (l : HwLink) (cur : BitVec 512) (t : Nat) : ∃ best, ((l.outTo t).hits cur).find? (fun e => e.2 ≥ 3) = best ∧
    l.hunt cur t = ((l.outTo t).searched cur ((l.outTo t).hits cur)).settled ((l.outTo t).hits cur) ((l.outTo t).frameOf cur) best :=
  ⟨_, rfl, HwLink.searches_hunt l cur t _ rfl⟩

theorem HwLink.settled_sub (l : HwLink) (hits : Store Nat) (f : Nat → Nat) (best : Option (Nat × Nat)) : l.sameSub (l.settled hits f best) := by
  cases best with
  | none => exact rfl
  | some b => exact rfl

theorem HwLink.hunt_sub (l : HwLink) (cur : BitVec 512) (t : Nat) : l.sameSub (l.hunt cur t) := by
  obtain ⟨best, -, hunt⟩ := l.hunt_eq cur t
  rw [hunt]
  have time : l.sameSub (l.outTo t) := congrArg List.length (l.outTo_sub t)
  exact (time.hunting _ _).trans (HwLink.settled_sub _ _ _ _)

/-- The link that a frame is for. -/
def Heart.linkOf (n : Nat) : HwLink := if n = 0 then h.link0 else h.link1
def Heart.setLink (n : Nat) (l : HwLink) : Heart := if n = 0 then { h with link0 := l } else { h with link1 := l }

theorem Heart.setLink_quiet {n : Nat} {l : HwLink} (same : (h.linkOf n).sameSub l) : h.quiet (h.setLink n l) := by
  unfold Heart.linkOf at same
  unfold Heart.setLink
  split
  · next first =>
    rw [if_pos first] at same
    exact h.withLink0_quiet (.inr same)
  · next second =>
    rw [if_neg second] at same
    exact h.withLink1_quiet (.inr same)

/-- A link that has come into frame: it is told, and may be the source of a start (R445). -/
def Heart.cameInFrame (n : Nat) : Heart :=
  let h := h.linkNotice 1 n
  if n = 0 then
    let h := if h.source = 3 && !h.link0Seen then h.setSource 0 else h
    { h with link0Seen := true }
  else if h.startDue && h.source = 3 then h.setSource 2 else h

/-- A switching request that a frame carries (R443, R444). -/
def Heart.asked (n : Nat) (ask : Option (Bool × Nat)) : Heart :=
  match ask with
  | none => h
  | some (false, _) => h.linkNotice 6 n
  | some (true, x) =>
    let blocked : Bool := match h.nextSource with | some (0, _) => n ≠ 0 | _ => false
    if x = h.source then h
    else (if blocked then h else { h with nextSource := some (n, x) }).linkNotice 5 (n + 256 * x)

/-- What a link that was in frame tells: that it has lost frame, and the request. -/
def Heart.toldOfFrame (n state : Nat) (ask : Option (Bool × Nat)) : Heart := (if state = 2 then h else h.linkNotice 2 n).asked n ask

/-- A frame out of frame is hunted in; one in frame is taken. -/
def Heart.framed (n : Nat) (l hunted : HwLink) (taken : HwLink × Option (Bool × Nat)) : Heart :=
  if l.state ≠ 2 then (if hunted.state ≠ 2 then h.setLink n hunted else (h.setLink n hunted).cameInFrame n)
  else (h.setLink n taken.1).toldOfFrame n taken.1.state taken.2

/-- A function that takes frames as R436 to R445 say; a predicate for the reason of `HwLink.searches`. -/
def Heart.takesFrames (f : Heart → Nat → BitVec 512 → Nat → Heart) : Prop :=
  ∀ (h : Heart) n bits t g l hunted taken, h.at_ t = g → g.linkOf n = l → l.hunt bits g.time = hunted → g.inFrame l bits = taken →
    f h n bits t = if n = 1 ∧ h.cal.mode ≠ 2 then h else g.framed n l hunted taken

theorem Heart.takesFrames_hslFrame : Heart.takesFrames Heart.hslFrame := by
  delta Heart.hslFrame
  unfold Heart.takesFrames
  intro h n bits t g l hunted taken time link hunt take
  unfold Heart.linkOf at link
  simp only [time, link, hunt, take]
  split
  · rfl
  · unfold Heart.framed
    split
    · rfl
    · obtain ⟨l', ask⟩ := taken
      rcases ask with _ | ⟨_ | _, x⟩
      · rfl
      · rfl
      · rfl

theorem Heart.hslFrame_eq (n : Nat) (bits : BitVec 512) (t : Nat) : h.hslFrame n bits t =
    if n = 1 ∧ h.cal.mode ≠ 2 then h
    else (h.at_ t).framed n ((h.at_ t).linkOf n) (((h.at_ t).linkOf n).hunt bits (h.at_ t).time)
      ((h.at_ t).inFrame ((h.at_ t).linkOf n) bits) :=
  Heart.takesFrames_hslFrame h n bits t _ _ _ _ rfl rfl rfl rfl

theorem Heart.cameInFrame_quiet (n : Nat) : h.quiet (h.cameInFrame n) := by
  unfold Heart.cameInFrame
  extract_lets told sourced
  have tell : h.quiet told := h.linkNotice_quiet _ _
  have source : h.quiet sourced := by
    unfold sourced
    split
    · exact tell.trans (told.setSource_quiet _)
    · exact tell
  have seen : sourced.quiet { sourced with link0Seen := true } := ⟨rfl, rfl, rfl, rfl, id, id, id, id, id⟩
  clear_value sourced told
  split
  · exact source.trans seen
  · split
    · exact tell.trans (told.setSource_quiet _)
    · exact tell

theorem Heart.asked_quiet (n : Nat) (ask : Option (Bool × Nat)) : h.quiet (h.asked n ask) := by
  unfold Heart.asked
  split
  · exact .refl h
  · exact h.linkNotice_quiet _ _
  · next x =>
    extract_lets blocked
    have next_ : h.quiet (if blocked then h else { h with nextSource := some (n, x) }) := by
      split
      · exact .refl h
      · exact ⟨rfl, rfl, rfl, rfl, id, id, id, id, id⟩
    clear_value blocked
    split
    · exact .refl h
    · exact next_.trans (Heart.linkNotice_quiet _ _ _)

theorem Heart.toldOfFrame_quiet (n state : Nat) (ask : Option (Bool × Nat)) : h.quiet (h.toldOfFrame n state ask) := by
  unfold Heart.toldOfFrame
  split
  · exact h.asked_quiet _ _
  · exact (h.linkNotice_quiet _ _).trans (Heart.asked_quiet _ _ _)

theorem Heart.framed_quiet {n : Nat} {l hunted : HwLink} {taken : HwLink × Option (Bool × Nat)} (link : h.linkOf n = l)
    (hunts : l.sameSub hunted) (takes : l.sameSubOf taken) : h.quiet (h.framed n l hunted taken) := by
  subst link
  unfold Heart.framed
  split
  · split
    · exact h.setLink_quiet hunts
    · exact (h.setLink_quiet hunts).trans (Heart.cameInFrame_quiet _ _)
  · exact (h.setLink_quiet takes).trans (Heart.toldOfFrame_quiet _ _ _ _)

theorem Heart.hslFrame_quiet (n : Nat) (bits : BitVec 512) (t : Nat) : h.quiet (h.hslFrame n bits t) := by
  rw [h.hslFrame_eq]
  split
  · exact .refl h
  · exact (h.at_quiet t).trans ((h.at_ t).framed_quiet rfl (HwLink.hunt_sub _ _ _) (Heart.inFrame_sub _ _ _))

end

end Sys2Proof.Machine
end

section
/-! SUPPORT. How Heartwood evolves over every row, and the statements on its invariant and its records (R419 to R427). -/
namespace Sys2Proof.Machine

/-! ## Every row -/

/-- The rows that may change Heartwood. -/
def heartRow (c : Instr) : Bool := heartwoodRow c || crossingRow c

/-- Every other row acts on the main die alone. -/
theorem exec_mainRow (c : Instr) (s : State) (main : heartRow c = false) : ∃ d, exec c s = .next { s with dev := d } := by
  cases c with
  | hwSecondEnd | batchSigned | pulseAccepted | vddHwRise | vddHwLoss | hwTimeEdge | mainTamper | hwTampered | hwLockstepMismatch
  | sourceStartTimeout | hslFrame | getStatus | readBatch | ackBatch | getPubkey | timeMsg | readEvlog | stageWrite | calibrate | imageWrite
  | imageCheck | hwAttest | getLink | hwPrepare | hwCommit | sapwoodTransferDone | sapTimeout | noticeGo | porstN | warmN | brownout
  | referenceClockStop | vaonLoss => cases main
  | _ => exact ⟨_, rfl⟩

/-- Heartwood after a step has evolved from Heartwood before it. -/
def State.evolves (s : State) (o : Host.Outcome State Fault Refusal) : Prop := ∀ t, o = .next t → s.heart.evolves t.heart

section
variable (s : State)

theorem State.evolves_next {t : State} (h : s.heart.evolves t.heart) : s.evolves (.next t) := fun _ e => by
  injection e with e
  exact e ▸ h

theorem State.evolves_onHwAlways {f : Heart → Heart} (hf : s.heart.evolves (f s.heart)) : s.evolves (s.onHwAlways f) :=
  s.evolves_next (by dsimp only; split; exacts [hf, .refl _])

theorem State.evolves_onHw {f : Heart → Heart} (hf : s.heart.evolves (f s.heart)) : s.evolves (s.onHw f) :=
  s.evolves_next (by dsimp only; split; exacts [hf, .refl _])

theorem State.evolves_onReset (f : Dev → Dev) : s.evolves (s.onReset f) :=
  s.evolves_next (Heart.quiet.evolves ⟨rfl, rfl, rfl, rfl, id, id, id, id, id⟩)

theorem State.evolves_mailbox (m : MbCall) {op : Nat} {lenOk : Nat → Bool} {body : Heart → List Byte → MbRes}
    (does : ∀ (h : Heart) p, h.evolves (body h p).1) : s.evolves (s.mailbox m op lenOk body) := by
  refine s.evolves_next ?_
  dsimp only
  split
  · exact .refl _
  · split
    · split
      · exact s.heart.runRequest_evolves does
      · exact .refl _
    · split
      · exact .refl _
      · split
        · exact .refl _
        · split
          · exact .refl _
          · split
            · exact (s.heart.setRb_quiet _ _ _).evolves
            · exact (s.heart.putWords_quiet _ _).evolves.trans (Heart.runRequest_evolves _ does)

theorem State.evolves_sapwoodTransferDone : s.evolves (execSapwoodTransferDone s) := by
  refine s.evolves_next ?_
  dsimp only
  split
  · exact .refl _
  · split
    · exact .refl _
    · exact (s.heart.perform_quiet _).evolves

theorem State.evolves_sapTimeout : s.evolves (execSapTimeout s) := by
  refine s.evolves_next ?_
  dsimp only
  split
  · exact .refl _
  · split
    · exact .refl _
    · split
      · exact .refl _
      · dsimp only
        split
        · exact (s.heart.perform_quiet _).evolves
        · exact .refl _

theorem State.evolves_noticeGo : s.evolves (execNoticeGo s) := by
  refine s.evolves_next ?_
  dsimp only
  split
  · exact .refl _
  · split
    · exact .refl _
    · next n r notices =>
      have told : s.heart.notices.length ≤ 64 → r.length ≤ 64 := fun w => by
        rw [notices, List.length_cons] at w
        omega
      exact Heart.quiet.evolves ⟨rfl, rfl, rfl, rfl, id, id, id, told, id⟩

theorem exec_evolves (c : Instr) : s.evolves (exec c s) := by
  cases main : heartRow c with
  | false =>
    obtain ⟨d, step⟩ := exec_mainRow c s main
    rw [step]
    exact s.evolves_next (.refl _)
  | true =>
    cases c with
    | hwSecondEnd => exact s.evolves_onHw (f := (·.secondEnd s.dev.safe)) (s.heart.secondEnd_evolves _)
    | batchSigned => exact s.evolves_onHw (f := Heart.signBatch) s.heart.signBatch_evolves
    | pulseAccepted pinB short t =>
      exact s.evolves_onHwAlways (f := (·.pulse pinB short t.toNat)) (s.heart.pulse_quiet _ _ _).evolves
    | vddHwRise lost t => exact s.evolves_onHwAlways (f := (·.powerRise s.dev.safe lost t.toNat)) (s.heart.powerRise_evolves _ _ _)
    | vddHwLoss => exact s.evolves_onHwAlways (f := Heart.powerLoss) s.heart.powerLoss_quiet.evolves
    | hwTimeEdge t =>
      exact s.evolves_onHw (f := fun h => (h.at_ t.toNat).timeEdge) ((s.heart.at_quiet _).trans (Heart.timeEdge_quiet _)).evolves
    | mainTamper => exact s.evolves_onHw (f := Heart.mainTamper) s.heart.mainTamper_quiet.evolves
    | hwTampered => exact s.evolves_onHwAlways (f := Heart.tampered) s.heart.tampered_quiet.evolves
    | hwLockstepMismatch => exact s.evolves_onHw (f := fun h => h.setRb 0x80 0 true) (s.heart.setRb_quiet _ _ _).evolves
    | sourceStartTimeout => exact s.evolves_onHw (f := Heart.startTimeout) s.heart.startTimeout_quiet.evolves
    | hslFrame link bits t => exact s.evolves_onHw (f := (·.hslFrame link.val bits t.toNat)) (s.heart.hslFrame_quiet _ _ _).evolves
    | getStatus m => exact s.evolves_mailbox m fun h _ => .refl h
    | readBatch m => exact s.evolves_mailbox m fun h p => by rw [h.readBatch_fst p]; exact .refl h
    | ackBatch m => exact s.evolves_mailbox m Heart.ackBatch_evolves
    | getPubkey m => exact s.evolves_mailbox m fun h _ => .refl h
    | timeMsg m t =>
      exact s.evolves_mailbox m (body := fun h p => (h.at_ t.toNat).timeMsgReq p) fun h p =>
        ((h.at_quiet _).trans (Heart.timeMsg_quiet _ _ _)).evolves
    | readEvlog m => exact s.evolves_mailbox m fun h p => by rw [h.readEvlog_fst p]; exact .refl h
    | stageWrite m => exact s.evolves_mailbox m fun h p => (h.stageWrite_quiet p).evolves
    | calibrate m => exact s.evolves_mailbox m fun h p => (h.calibrate_quiet p).evolves
    | imageWrite m => exact s.evolves_mailbox m fun h p => (h.imageWrite_quiet p).evolves
    | imageCheck m => exact s.evolves_mailbox m fun h p => (h.imageCheck_quiet p).evolves
    | hwAttest m => exact s.evolves_mailbox m fun h _ => .refl h
    | getLink m => exact s.evolves_mailbox m fun h _ => .refl h
    | hwPrepare m => exact s.evolves_mailbox m fun h p => (h.prepare_quiet p).evolves
    | hwCommit m => exact s.evolves_mailbox m fun h p => (h.commit_quiet p).evolves
    | sapwoodTransferDone => exact s.evolves_sapwoodTransferDone
    | sapTimeout => exact s.evolves_sapTimeout
    | noticeGo => exact s.evolves_noticeGo
    | porstN strap boot => exact s.evolves_onReset (fun d => d.porstPins.porst boot strap)
    | warmN boot => exact s.evolves_onReset (fun d => if d.tap.asleep then d else d.mainRst.warm boot)
    | brownout boot => exact s.evolves_onReset (fun d => if d.tap.asleep then d else d.porstPins.cold boot d.split)
    | referenceClockStop boot => exact s.evolves_onReset (fun d => if d.tap.asleep then d else d.porstPins.cold boot d.split)
    | vaonLoss => exact s.evolves_onReset Dev.vaonLost
    | _ => cases main

theorem step_evolves : s.evolves (step s) := by
  unfold step
  split
  · exact s.evolves_next (.refl _)
  · exact exec_evolves _ _

end

/-- Records have been written, at least one. -/
def Heart.wroteSome (h h' : Heart) : Prop := ∃ l, l ≠ [] ∧ h.wroteRecords l h'

section
variable {h h' h'' : Heart}

theorem Heart.evolves.then_wrote (a : h.evolves h') (b : h'.wroteSome h'') : h.wroteSome h'' := by
  obtain ⟨l, wrote⟩ := a.wrote
  obtain ⟨l', some_, wrote'⟩ := b
  exact ⟨l ++ l', List.append_ne_nil_of_right_ne_nil _ some_, wrote.trans wrote'⟩

theorem Heart.wroteSome.trans (a : h.wroteSome h') (b : h'.evolves h'') : h.wroteSome h'' := by
  obtain ⟨l, some_, wrote⟩ := a
  obtain ⟨l', wrote'⟩ := b.wrote
  exact ⟨l ++ l', List.append_ne_nil_of_left_ne_nil some_ _, wrote.trans wrote'⟩

theorem Heart.wroteSome.nextSeq (a : h.wroteSome h') : h.nextSeq < h'.nextSeq := by
  obtain ⟨l, some_, wrote⟩ := a
  have many := List.length_pos_iff.mpr some_
  have seq := wrote.seq
  omega

theorem Heart.wroteSome.chain (a : h.wroteSome h') : h'.chain.isSome = true := by
  obtain ⟨l, some_, wrote⟩ := a
  rw [wrote.chain, if_neg (by simpa using some_)]
  rfl

end

theorem Heart.putRecord_wroteSome (h : Heart) (ty event param : Nat) (r : HwSecondRec) : h.wroteSome (h.putRecord ty event param r) := by
  rw [h.putRecord_eq]
  exact (h.makeRoom_evolves 1 2).then_wrote ⟨_, List.cons_ne_nil _ _, Heart.store_wrote _ _⟩

theorem Heart.secondEnd_wroteSome (h : Heart) (safe : Bool) : h.wroteSome (h.secondEnd safe) := by
  obtain ⟨cum, rem, rem0, rem1, alarms, alarm, doubt, mode, r, l, ends⟩ := h.secondEnd_eq safe
  rw [ends]
  exact (((h.measured_quiet cum rem rem0 rem1 alarms alarm doubt).evolves.then_wrote (Heart.putRecord_wroteSome _ _ _ _ _)).trans
    (Heart.putEvents_evolves _ _ _)).trans ((Heart.closeBatch_evolves _).trans (Heart.nextSecond_quiet _ _).evolves)

/-- Settles O6: every function of Heartwood evolves, and what evolves keeps the invariant. -/
theorem heartwoodKeepsItsRecords : Obligations.HeartwoodKeepsItsRecords := by
  unfold Obligations.HeartwoodKeepsItsRecords
  intro s t sound next
  exact (step_evolves s t next).sound sound

/-- Settles O7: every function of Heartwood evolves, so that a step adds a run of records; the end of a second adds one at least. -/
theorem recordsEnterTheChain : Obligations.RecordsEnterTheChain := by
  unfold Obligations.RecordsEnterTheChain
  refine ⟨⟨rfl, rfl, fun h none_ => by rw [Heart.chainNow, none_, Option.getD_none, hwUidBytes]⟩, fun s t next => (step_evolves s t next).wrote, ?_⟩
  intro s present on _
  have wrote := s.heart.secondEnd_wroteSome s.dev.safe
  have hwOn : s.hwOn = true := by rw [State.hwOn, present, on]; rfl
  have step : exec .hwSecondEnd s = .next { s with heart := s.heart.secondEnd s.dev.safe } := by
    change Host.Outcome.next { s with heart := if s.hwOn then s.heart.secondEnd s.dev.safe else s.heart } = _
    rw [hwOn, if_pos rfl]
  exact ⟨_, step, wrote.nextSeq, wrote.chain, rfl⟩

end Sys2Proof.Machine
end

section
/-! SUPPORT. A frame period of a sensor link, case by case (R429 to R445). -/
namespace Sys2Proof.Machine

/-! ## What the words of a frame change -/

/-- A link whose words have run on, and nothing else of it. -/
def HwLink.onlyWords (l l' : HwLink) : Prop := l' =
  { l with word := l'.word, fresh := l'.fresh, wseq := l'.wseq, count := l'.count, sstat := l'.sstat, sub := l'.sub, wordRej := l'.wordRej }
def HwLink.onlyWordsOf {α : Type} (l : HwLink) (x : HwLink × α) : Prop := l.onlyWords x.1

section
variable {α : Type} {l a b : HwLink}

theorem HwLink.onlyWords.trans (ha : l.onlyWords a) (hb : a.onlyWords b) : l.onlyWords b := by
  unfold HwLink.onlyWords at *
  rw [hb, ha]

theorem HwLink.onlyWordsOf.ite {c : Prop} [Decidable c] {x y : HwLink × α} (hx : l.onlyWordsOf x) (hy : l.onlyWordsOf y) :
    l.onlyWordsOf (if c then x else y) := by
  split
  · exact hx
  · exact hy

theorem HwLink.onlyWordsOf.fst {x : HwLink × α} (hx : l.onlyWordsOf x) : l.onlyWords x.1 := hx

end

/-- What the word decrypted to `x` makes of its link. -/
def Heart.wordOf (h : Heart) (l : HwLink) (x : Nat) (order : Bool) : HwLink × Bool :=
  if x % 256 = 0xA5 && order then
    ({ l with
        wseq := some (x / 2 ^ 64), count := some (x / 2 ^ 24 % 2 ^ 40), sstat := BitVec.ofNat 16 (x / 256), fresh := false
        sub := addSub l.sub (subOf h.time) ((x / 2 ^ 24 % 2 ^ 40 + 2 ^ 40
          - l.count.getD ((Config.freeValue (2 ^ 64 * 5 + h.time)).toNat % 2 ^ 40)) % 2 ^ 40) }, true)
  else ({ l with wordRej := satAdd l.wordRej 1, fresh := false }, false)

section
variable (h : Heart)

theorem Heart.word_onlyWords (l : HwLink) (w : Nat) : l.onlyWordsOf (h.word l w) := by
  unfold Heart.word
  extract_lets plain reject
  clear_value plain
  cases plain with
  | none => exact rfl
  | some x => exact HwLink.onlyWordsOf.ite rfl rfl

theorem Heart.dataBits_onlyWords (bits : List Nat) (skip : Nat) (x : HwLink × Nat) : x.1.onlyWordsOf (h.dataBits skip x bits) := by
  induction bits generalizing skip x with
  | nil => rw [Heart.dataBits]; exact rfl
  | cons b bits ih =>
    obtain ⟨l, bad⟩ := x
    have began (w : Nat × Nat) : l.onlyWords { l with word := some w } := rfl
    unfold Heart.dataBits
    split
    · split
      · exact ih _ _
      · split
        · exact (began _).trans (ih _ (_, _))
        · exact (began _).trans (ih _ (_, _))
    · split
      · exact (began _).trans (ih _ (_, _))
      · next n v _ _ =>
        have word := (h.word_onlyWords { l with word := some (0, 0) } (2 * v + b)).fst
        exact ((began (0, 0)).trans word).trans (ih _ (_, _))

theorem Heart.word_keyed {l : HwLink} {w v : Nat} {k : List Byte} (keys : h.keys = true) (paired : h.pairing = some k) (wseq : l.wseq = some v)
    (old : l.fresh = false) : h.word l w =
      h.wordOf l (beNat (aesRoundsInv (aesRoundKeys k) (beBytes 16 w))) (decide (beNat (aesRoundsInv (aesRoundKeys k) (beBytes 16 w)) / 2 ^ 64 = v + 1)) := by
  unfold Heart.word Heart.wordOf
  rw [keys, paired]
  simp only [if_true, Option.map_some]
  generalize beNat (aesRoundsInv (aesRoundKeys k) (beBytes 16 w)) = x
  simp only [wseq, old]
  rfl

/-! ## A frame in frame -/

/-- A link whose frame has come: the frame is held, and its FSEQ, word pointer and alignment word are taken. -/
def HwLink.came (l : HwLink) (cur : BitVec 512) (f : Nat) (crc faw badW : Bool) : HwLink :=
  { l with
    prev := cur, fseq := if crc then frameBits f 16 23 else (l.fseq + 1) % 256
    wptr := if crc then frameBits f 56 62 else (l.wptr + 4 * 128 - l.dataBits) % 128, dataBits := dataCount (jcOf f)
    word := if badW then none else l.word, badFaw := if faw then 0 else l.badFaw + 1 }

def HwLink.withReq (l : HwLink) (req : Option (Nat × Nat × Nat)) : HwLink := { l with req := req }

def HwLink.tally (l : HwLink) (crc errored : Bool) : HwLink :=
  { l with good := l.good + crc.toNat, crcFail := l.crcFail + (!crc).toNat, errored := l.errored + errored.toNat }

/-- The times a request has come in a row. -/
def HwLink.runOf (req : Option (Nat × Nat × Nat)) (sq1 sq2 : Nat) : Nat :=
  match req with
  | some (a, b, n) => if a = sq1 ∧ b = sq2 then n + 1 else 1
  | none => 1

/-- What becomes of a request that has come `run` times in a row. -/
def Heart.requestOf (crc : Bool) (sq1 sq2 run : Nat) : Option (Bool × Nat) :=
  let wrong : Bool := sq2 = 1 && h.cal.mode = 2 || sq2 = 2 && h.cal.mode ≠ 2
  if crc && sq1 = 0x5A && sq2 ≤ 2 && (wrong || run = 3) then some (!wrong, sq2) else none

def HwLink.refused (l : HwLink) (ask : Option (Bool × Nat)) : HwLink :=
  match ask with
  | some (false, _) => { l with reqRej := satAdd l.reqRej 1 }
  | _ => l

/-- The loss of frame after four alignment words missing in a row (R437). -/
def HwLink.lostAfterFour (l : HwLink) (t : Nat) : HwLink :=
  if l.badFaw ≥ 4 then { l with state := 0, scores := [], out := true, outAt := t, oofDecl := satAdd l.oofDecl 1 } else l

def Heart.answered (l : HwLink) (crc errored : Bool) (sq1 sq2 : Nat) : HwLink × Option (Bool × Nat) :=
  let l := l.tally crc errored
  let run := HwLink.runOf l.req sq1 sq2
  let l := if crc then l.withReq (some (sq1, sq2, run)) else l
  let ask := h.requestOf crc sq1 sq2 run
  ((l.refused ask).lostAfterFour h.time, ask)

theorem Heart.answered_of {l counted asked : HwLink} {crc errored : Bool} {sq1 sq2 run : Nat} {ask : Option (Bool × Nat)}
    (count : counted = l.tally crc errored) (runs : run = HwLink.runOf counted.req sq1 sq2)
    (askeds : asked = if crc then { counted with req := some (sq1, sq2, run) } else counted) (asks : ask = h.requestOf crc sq1 sq2 run) :
    h.answered l crc errored sq1 sq2 = ((asked.refused ask).lostAfterFour h.time, ask) := by
  subst count runs askeds asks
  rfl

theorem HwLink.lostAfterFour_eq {l : HwLink} {t : Nat} {ask : Option (Bool × Nat)} : (l.lostAfterFour t, ask) =
    if l.badFaw ≥ 4 then ({ l with state := 0, scores := [], out := true, outAt := t, oofDecl := satAdd l.oofDecl 1 }, ask) else (l, ask) := by
  unfold HwLink.lostAfterFour
  split <;> rfl

/-- A frame in frame is taken, its words run, and its request is answered. -/
theorem Heart.inFrame_eq (l : HwLink) (cur : BitVec 512) {raw : Nat} (hraw : frameAt l.prev.toNat cur.toNat l.pos = raw) {crc faw : Bool}
    (hcrc : hslCrcOk (descramble raw) = crc) (hfaw : decide (frameBits raw 0 15 = 0xF628) = faw) :
    ∃ (d : HwLink) (badW errored : Bool), (l.came cur (descramble raw) crc faw badW).onlyWords d ∧ (crc = false → errored = true) ∧
      h.inFrame l cur = h.answered d crc errored (frameBits (descramble raw) 32 39) (frameBits (descramble raw) 40 47) := by
  subst hraw
  unfold Heart.inFrame
  extract_lets raw f crc' faw' wantF wantW gotF gotW sq1 sq2 badW badReq taken d ended errored counted run asked wrong ask told
  have crcs : crc' = crc := hcrc
  have faws : faw' = faw := hfaw
  have came : taken = l.came cur f crc' faw' badW := rfl
  have data : taken.onlyWordsOf d := h.dataBits_onlyWords (dataOf f) taken.wptr (taken, 0)
  have words : taken.onlyWords ended := data.fst
  have errs : crc' = false → errored = true := fun bad => by
    unfold errored
    rw [bad]
    rfl
  rw [came, crcs, faws] at words
  rw [crcs] at errs
  have count : counted = ended.tally crc' errored := rfl
  have runs (req : Option (Nat × Nat × Nat)) (hreq : counted.req = req) : run = HwLink.runOf req sq1 sq2 := by
    unfold run
    rw [hreq]
    cases req <;> rfl
  have asks : ask = h.requestOf crc' sq1 sq2 run := rfl
  have askeds : asked = if crc' then { counted with req := some (sq1, sq2, run) } else counted := rfl
  have tell (a : Option (Bool × Nat)) (ha : ask = a) : told = asked.refused a := by
    unfold told
    rw [ha]
    rcases a with _ | ⟨_ | _, x⟩ <;> rfl
  have answer := h.answered_of count (runs _ rfl) askeds asks
  rw [← tell _ rfl, crcs] at answer
  exact ⟨ended, badW, errored, words, errs, HwLink.lostAfterFour_eq.symm.trans answer.symm⟩

/-- What words, requests and their counts leave alone of a link. -/
structure HwLink.sameFrame (l l' : HwLink) : Prop where
  state : l'.state = l.state
  prev : l'.prev = l.prev
  pos : l'.pos = l.pos
  badFaw : l'.badFaw = l.badFaw
  fseq : l'.fseq = l.fseq
  wptr : l'.wptr = l.wptr
  good : l'.good = l.good
  crcFail : l'.crcFail = l.crcFail
  errored : l'.errored = l.errored
  oofDecl : l'.oofDecl = l.oofDecl

section
variable {l l' l'' : HwLink}

theorem HwLink.sameFrame.trans (a : l.sameFrame l') (b : l'.sameFrame l'') : l.sameFrame l'' where
  state := b.state.trans a.state
  prev := b.prev.trans a.prev
  pos := b.pos.trans a.pos
  badFaw := b.badFaw.trans a.badFaw
  fseq := b.fseq.trans a.fseq
  wptr := b.wptr.trans a.wptr
  good := b.good.trans a.good
  crcFail := b.crcFail.trans a.crcFail
  errored := b.errored.trans a.errored
  oofDecl := b.oofDecl.trans a.oofDecl

theorem HwLink.onlyWords.sameFrame (w : l.onlyWords l') : l.sameFrame l' := by
  rw [w]
  exact ⟨rfl, rfl, rfl, rfl, rfl, rfl, rfl, rfl, rfl, rfl⟩

theorem HwLink.onlyWords.req (w : l.onlyWords l') : l'.req = l.req := by rw [w]

theorem HwLink.onlyWords.reqRej (w : l.onlyWords l') : l'.reqRej = l.reqRej := by rw [w]

theorem HwLink.sameFrame_asked (req : Option (Nat × Nat × Nat)) : l.sameFrame (l.withReq req) :=
  ⟨rfl, rfl, rfl, rfl, rfl, rfl, rfl, rfl, rfl, rfl⟩

theorem HwLink.sameFrame_refused (ask : Option (Bool × Nat)) : l.sameFrame (l.refused ask) := by
  rcases ask with _ | ⟨_ | _, x⟩ <;> exact ⟨rfl, rfl, rfl, rfl, rfl, rfl, rfl, rfl, rfl, rfl⟩

theorem HwLink.lostAfterFour_of_fewer (few : l.badFaw < 4) (t : Nat) : l.lostAfterFour t = l := if_neg (Nat.not_le.mpr few)

theorem HwLink.lostAfterFour_of_four (four : 4 ≤ l.badFaw) (t : Nat) :
    l.lostAfterFour t = { l with state := 0, scores := [], out := true, outAt := t, oofDecl := satAdd l.oofDecl 1 } := if_pos four

end

section
variable (h : Heart) {l : HwLink} {cur : BitVec 512} {raw : Nat}

/-- A good frame with the alignment word is taken, and answers the request it completes. -/
theorem Heart.inFrame_good (hraw : frameAt l.prev.toNat cur.toNat l.pos = raw) (crc : hslCrcOk (descramble raw) = true)
    (faw : frameBits raw 0 15 = 0xF628) : ∃ l' ask, h.inFrame l cur = (l', ask) ∧
      ask = h.requestOf true (frameBits (descramble raw) 32 39) (frameBits (descramble raw) 40 47)
        (HwLink.runOf l.req (frameBits (descramble raw) 32 39) (frameBits (descramble raw) 40 47)) ∧
      l'.state = l.state ∧ l'.good = l.good + 1 ∧ l'.crcFail = l.crcFail ∧ l'.fseq = frameBits (descramble raw) 16 23 ∧
      l'.wptr = frameBits (descramble raw) 56 62 ∧ l'.badFaw = 0 ∧ l'.pos = l.pos ∧ l'.prev = cur ∧
      (∀ x, ask = some (true, x) → l'.reqRej = l.reqRej) := by
  obtain ⟨d, badW, errored, words, -, took⟩ := h.inFrame_eq l cur hraw crc (decide_eq_true faw)
  rw [took]
  have runs : (d.tally true errored).req = l.req := words.req
  have noneLost (ask : Option (Bool × Nat)) (req : Option (Nat × Nat × Nat)) :
      (((d.tally true errored).withReq req).refused ask).badFaw < 4 := by
    rw [(HwLink.sameFrame_refused _).badFaw]
    exact words.sameFrame.badFaw ▸ (by decide : 0 < 4)
  unfold Heart.answered
  dsimp only
  rw [if_pos rfl, runs, HwLink.lostAfterFour_of_fewer (noneLost _ _)]
  generalize h.requestOf true _ _ _ = ask
  have same (req : Option (Nat × Nat × Nat)) := (HwLink.sameFrame_asked (l := d.tally true errored) req).trans (HwLink.sameFrame_refused ask)
  have came := words.sameFrame
  refine ⟨_, _, rfl, rfl, (same _).state.trans came.state, (same _).good.trans (congrArg (· + 1) came.good), (same _).crcFail.trans came.crcFail,
    (same _).fseq.trans came.fseq, (same _).wptr.trans came.wptr, (same _).badFaw.trans came.badFaw, (same _).pos.trans came.pos,
    (same _).prev.trans came.prev, fun x accepted => ?_⟩
  subst accepted
  exact words.reqRej

/-- The fourth frame in a row without alignment word, and with a bad CRC, loses frame. -/
theorem Heart.inFrame_lost (hraw : frameAt l.prev.toNat cur.toNat l.pos = raw) (crc : hslCrcOk (descramble raw) = false)
    (faw : frameBits raw 0 15 ≠ 0xF628) (three : l.badFaw = 3) : ∃ l', h.inFrame l cur = (l', none) ∧ l'.state = 0 ∧
      l'.crcFail = l.crcFail + 1 ∧ l'.errored = l.errored + 1 ∧ l'.oofDecl = satAdd l.oofDecl 1 ∧ l'.out = true := by
  obtain ⟨d, badW, errored, words, errs, took⟩ := h.inFrame_eq l cur hraw crc (decide_eq_false faw)
  rw [took, errs rfl]
  have came := words.sameFrame
  have four : 4 ≤ (d.tally false true).badFaw := by
    have bad : d.badFaw = l.badFaw + 1 := came.badFaw
    change 4 ≤ d.badFaw
    omega
  have unasked (sq1 sq2 run : Nat) : h.requestOf false sq1 sq2 run = none := by
    unfold Heart.requestOf
    simp
  unfold Heart.answered
  dsimp only
  rw [if_neg (by decide), unasked]
  change ∃ l', ((d.tally false true).lostAfterFour h.time, none) = _ ∧ _
  rw [HwLink.lostAfterFour_of_four four]
  exact ⟨_, rfl, rfl, congrArg (· + 1) came.crcFail, congrArg (· + 1) came.errored, congrArg (satAdd · 1) came.oofDecl, rfl⟩

end

end

/-! ## The search for a position -/

section
variable (score : Nat → Bool) (val : Nat → Nat)

theorem Store.get_scored (L : List Nat) (k : Nat) :
    Store.get 0 ((L.filter score).map fun p => (p, val p)) k = if k ∈ L ∧ score k = true then val k else 0 := by
  induction L with
  | nil => simp
  | cons a L ih =>
    rw [List.filter_cons]
    cases hit : score a with
    | true =>
      rw [if_pos rfl, List.map_cons, Store.get, ih]
      by_cases here : k = a
      · subst here
        rw [if_pos rfl, if_pos ⟨List.mem_cons_self, hit⟩]
      · rw [if_neg here]
        simp [here]
    | false =>
      rw [if_neg (by decide), ih]
      by_cases here : k = a
      · subst here
        simp [hit]
      · simp [here]

theorem find_scored_none {n : Nat} (below : (List.range n).all (fun p => !score (p + 1) || decide (val (p + 1) < 2)) = true) :
    ((((List.range n).map (· + 1)).filter score).map fun p => (p, val p + 1)).find? (fun e => e.2 ≥ 3) = none := by
  rw [List.find?_eq_none]
  intro e he
  obtain ⟨p, hp, rfl⟩ := List.mem_map.mp he
  obtain ⟨hp, hit⟩ := List.mem_filter.mp hp
  obtain ⟨q, hq, rfl⟩ := List.mem_map.mp hp
  have small := List.all_eq_true.mp below q hq
  simp only [hit, Bool.not_true, Bool.false_or, decide_eq_true_eq] at small
  simpa using small

theorem find_scored_some {n p : Nat} (low : 1 ≤ p) (high : p ≤ n) (hit : score p = true) (twice : 2 ≤ val p)
    (below : (List.range (p - 1)).all (fun q => !score (q + 1) || decide (val (q + 1) < 2)) = true) :
    ((((List.range n).map (· + 1)).filter score).map fun p => (p, val p + 1)).find? (fun e => e.2 ≥ 3) = some (p, val p + 1) := by
  have back : p - 1 + 1 = p := by omega
  have first : (List.range n).find? (fun q => decide (score (q + 1) = true ∧ decide (val (q + 1) + 1 ≥ 3) = true)) = some (p - 1) := by
    rw [List.find?_range_eq_some]
    refine ⟨by simpa [back, hit] using twice, List.mem_range.mpr (by omega), fun q hq => ?_⟩
    have small := List.all_eq_true.mp below q (List.mem_range.mpr hq)
    cases hs : score (q + 1) with
    | false => rfl
    | true =>
      simp only [hs, Bool.not_true, Bool.false_or, decide_eq_true_eq] at small
      simpa using small
  rw [List.find?_map, List.find?_filter, List.find?_map]
  change Option.map _ (Option.map _ ((List.range n).find? fun q => decide (score (q + 1) = true ∧ decide (val (q + 1) + 1 ≥ 3) = true))) = _
  rw [first, Option.map_some, Option.map_some, back]

end

section
variable (l : HwLink) (cur : BitVec 512) (t : Nat)

theorem HwLink.hits_get (p : Nat) (low : 1 ≤ p) (high : p ≤ 512) :
    (l.hits cur).get 0 p = if posScores l.prev.toNat cur.toNat p then l.scores.get 0 p + 1 else 0 := by
  have inRange : p ∈ (List.range 512).map (· + 1) := List.mem_map.mpr ⟨p - 1, List.mem_range.mpr (by omega), by omega⟩
  unfold HwLink.hits
  rw [Store.get_scored]
  simp only [inRange, true_and]

/-- Out of frame, the time without frame is counted and the position stands as it did. -/
theorem HwLink.outTo_of_out {l : HwLink} (out : l.state ≠ 2) (t : Nat) :
    l.outTo t = { l with oof := l.oof + (t - l.outAt) / 500, outAt := l.outAt + (t - l.outAt) / 500 * 500 } := if_neg out

theorem HwLink.hits_outTo {l : HwLink} (out : l.state ≠ 2) (t : Nat) : (l.outTo t).hits cur = l.hits cur := by
  rw [HwLink.outTo_of_out out]
  rfl

/-- The link after a search that finds nothing, and after one that finds position `p`. -/
theorem HwLink.settled_none {hits : Store Nat} (f : Nat → Nat) : ∃ st, st ≠ 2 ∧ (l.searched cur hits).settled hits f none =
    { l with state := st, prev := cur, scores := hits, out := true } := by
  refine ⟨if hits.isEmpty then 0 else 1, ?_, rfl⟩
  split <;> decide

theorem HwLink.settled_some {hits : Store Nat} (f : Nat → Nat) (p n : Nat) : ∃ l', (l.searched cur hits).settled hits f (some (p, n)) = l' ∧
    l'.state = 2 ∧ l'.pos = p ∧ l'.badFaw = 0 ∧ l'.fseq = frameBits (f p) 16 23 ∧ l'.fresh = true := ⟨_, rfl, rfl, rfl, rfl, rfl, rfl⟩

/-- No position has scored a third time. -/
theorem HwLink.hunt_goesOn {l : HwLink} (out : l.state ≠ 2) (below : (List.range 512).all
    (fun p => !posScores l.prev.toNat cur.toNat (p + 1) || decide (l.scores.get 0 (p + 1) < 2)) = true) :
    ∃ (st : Nat) (hits : Store Nat), st ≠ 2 ∧
      (∀ p, 1 ≤ p → p ≤ 512 → hits.get 0 p = if posScores l.prev.toNat cur.toNat p then l.scores.get 0 p + 1 else 0) ∧
      l.hunt cur t = { l with
        state := st, prev := cur, scores := hits, out := true
        oof := l.oof + (t - l.outAt) / 500, outAt := l.outAt + (t - l.outAt) / 500 * 500 } := by
  obtain ⟨best, found, hunt⟩ := l.hunt_eq cur t
  rw [HwLink.hits_outTo cur out] at found hunt
  have none_ : (l.hits cur).find? (fun e => e.2 ≥ 3) = none := find_scored_none _ _ below
  rw [← found, none_, HwLink.outTo_of_out out] at hunt
  obtain ⟨st, outside, settled⟩ := HwLink.settled_none
    ({ l with oof := l.oof + (t - l.outAt) / 500, outAt := l.outAt + (t - l.outAt) / 500 * 500 } : HwLink) cur (hits := l.hits cur) _
  exact ⟨st, l.hits cur, outside, fun p low high => l.hits_get cur p low high, hunt.trans settled⟩

/-- Position `p` is the first that has scored a third time. -/
theorem HwLink.hunt_locks {l : HwLink} (out : l.state ≠ 2) {p : Nat} (low : 1 ≤ p) (high : p ≤ 512)
    (hit : posScores l.prev.toNat cur.toNat p = true) (twice : 2 ≤ l.scores.get 0 p) (below : (List.range (p - 1)).all
    (fun q => !posScores l.prev.toNat cur.toNat (q + 1) || decide (l.scores.get 0 (q + 1) < 2)) = true) :
    ∃ l', l.hunt cur t = l' ∧ l'.state = 2 ∧ l'.pos = p ∧ l'.badFaw = 0 ∧
      l'.fseq = frameBits (descramble (frameAt l.prev.toNat cur.toNat p)) 16 23 ∧ l'.fresh = true := by
  obtain ⟨best, found, hunt⟩ := l.hunt_eq cur t
  rw [HwLink.hits_outTo cur out] at found hunt
  have some_ : (l.hits cur).find? (fun e => e.2 ≥ 3) = some (p, l.scores.get 0 p + 1) := find_scored_some _ _ low high hit twice below
  obtain ⟨l', settled, state, pos, badFaw, fseq, fresh⟩ :=
    (l.outTo t).settled_some cur (hits := l.hits cur) ((l.outTo t).frameOf cur) p (l.scores.get 0 p + 1)
  have prev : (l.outTo t).prev = l.prev := by rw [HwLink.outTo_of_out out]
  rw [HwLink.frameOf, prev] at fseq
  exact ⟨l', by rw [hunt, ← found, some_, settled], state, pos, badFaw, fseq, fresh⟩

end

end Sys2Proof.Machine
end

section
/-! SUPPORT. What a frame of link 0 makes of Heartwood, and the statement on the sensor link. -/
namespace Sys2Proof.Machine

section
variable (h : Heart)

/-- Heartwood with the link of a frame, at its time. -/
def Heart.atFrame (w : Nat) (l : HwLink) : Heart := { h with time := w, link0 := l }

/-- A frame has changed link 0, what it tells and what it selects, and of the registers the status alone. -/
structure Heart.framedTo (h h' : Heart) : Prop where
  eq : h' = { h with
    regs := h'.regs, link0 := h'.link0, notices := h'.notices, link0Seen := h'.link0Seen, nextSource := h'.nextSource }
  regs : ∀ off, off ≠ 0x80 → h'.reg off = h.reg off

theorem Heart.hslFrame_zero {bits : BitVec 512} {w : Nat} (now : h.time ≤ w) (before : w < h.secondEndAt) :
    h.hslFrame 0 bits w = ({ h with time := w } : Heart).framed 0 h.link0 (h.link0.hunt bits w)
      (({ h with time := w } : Heart).inFrame h.link0 bits) := by
  have at_ : h.at_ w = { h with time := w } := if_pos ⟨now, before⟩
  rw [h.hslFrame_eq, if_neg (fun c => Nat.zero_ne_one c.1), at_]
  rfl

variable {h}

theorem Heart.hslFrame_hunting {bits : BitVec 512} {w : Nat} (now : h.time ≤ w) (before : w < h.secondEndAt) (out : h.link0.state ≠ 2)
    {l : HwLink} (hunt : h.link0.hunt bits w = l) (still : l.state ≠ 2) : h.hslFrame 0 bits w = h.atFrame w l := by
  rw [h.hslFrame_zero now before, hunt, Heart.framed, if_pos out, if_pos still]
  rfl

theorem Heart.hslFrame_locked {bits : BitVec 512} {w : Nat} (now : h.time ≤ w) (before : w < h.secondEndAt) (out : h.link0.state ≠ 2)
    {l : HwLink} (hunt : h.link0.hunt bits w = l) (locked : l.state = 2) : h.hslFrame 0 bits w = (h.atFrame w l).cameInFrame 0 := by
  rw [h.hslFrame_zero now before, hunt, Heart.framed, if_pos out, if_neg (fun c => c locked)]
  rfl

theorem Heart.hslFrame_inFrame {bits : BitVec 512} {w : Nat} (now : h.time ≤ w) (before : w < h.secondEndAt) (inside : h.link0.state = 2)
    {l : HwLink} {ask : Option (Bool × Nat)} (took : ({ h with time := w } : Heart).inFrame h.link0 bits = (l, ask)) :
    h.hslFrame 0 bits w = (h.atFrame w l).toldOfFrame 0 l.state ask := by
  rw [h.hslFrame_zero now before, took, Heart.framed, if_neg (fun c => c inside)]
  rfl

theorem Heart.framedTo_atFrame (w : Nat) (l : HwLink) : ({ h with time := w } : Heart).framedTo (h.atFrame w l) := ⟨rfl, fun _ _ => rfl⟩

theorem Heart.framedTo.trans {h' h'' : Heart} (a : h.framedTo h') (b : h'.framedTo h'') : h.framedTo h'' where
  eq := by rw [b.eq, a.eq]
  regs off ho := (b.regs off ho).trans (a.regs off ho)

theorem Heart.framedTo_linkNotice (cause a : Nat) : h.framedTo (h.linkNotice cause a) := ⟨rfl, fun _ _ => rfl⟩

theorem Heart.framedTo_setSource (n : Nat) : h.framedTo (h.setSource n) := ⟨rfl, fun _ ho => Heart.reg_setReg_ne _ _ ho⟩

theorem Heart.framedTo_seen : h.framedTo { h with link0Seen := true } := ⟨rfl, fun _ _ => rfl⟩

theorem Heart.framedTo_selected (x : Option (Nat × Nat)) : h.framedTo { h with nextSource := x } := ⟨rfl, fun _ _ => rfl⟩

theorem Heart.asked_zero (x : Nat) (other : x ≠ h.source) :
    h.asked 0 (some (true, x)) = ({ h with nextSource := some (0, x) } : Heart).linkNotice 5 (256 * x) := by
  unfold Heart.asked
  extract_lets blocked
  have free : blocked = false := by
    unfold blocked
    rcases h.nextSource with _ | ⟨_ | n, y⟩ <;> rfl
  refine (if_neg other).trans ?_
  rw [free, Nat.zero_add]
  rfl

theorem HwLink.runOf_again (a b n : Nat) : HwLink.runOf (some (a, b, n)) a b = n + 1 := if_pos ⟨rfl, rfl⟩

/-- A third request in a row for a source that the mode allows is accepted (R443). -/
theorem Heart.requestOf_accepted {x : Nat} (small : x ≤ 2) (notOne : x = 1 → h.cal.mode ≠ 2) (notTwo : x = 2 → h.cal.mode = 2) :
    h.requestOf true 0x5A x 3 = some (true, x) := by
  have right : (decide (x = 1) && decide (h.cal.mode = 2) || decide (x = 2) && decide (h.cal.mode ≠ 2)) = false := by
    rcases Nat.lt_or_ge x 1 with zero | some_
    · obtain rfl : x = 0 := by omega
      rfl
    · rcases Nat.lt_or_ge x 2 with one | two
      · obtain rfl : x = 1 := by omega
        simpa using notOne rfl
      · obtain rfl : x = 2 := by omega
        simpa using notTwo rfl
  unfold Heart.requestOf
  rw [right]
  simp [small]

/-- A request over link 0 selects a source for the next second, and no other register than the status changes. -/
theorem Heart.framedTo_asked (ask : Option (Bool × Nat)) : h.framedTo (h.asked 0 ask) ∧ (h.asked 0 ask).source = h.source ∧
    (h.asked 0 ask).link0 = h.link0 := by
  rcases ask with _ | ⟨_ | _, x⟩
  · exact ⟨⟨rfl, fun _ _ => rfl⟩, rfl, rfl⟩
  · exact ⟨h.framedTo_linkNotice _ _, rfl, rfl⟩
  · by_cases same : x = h.source
    · have kept : h.asked 0 (some (true, x)) = h := if_pos same
      rw [kept]
      exact ⟨⟨rfl, fun _ _ => rfl⟩, rfl, rfl⟩
    · rw [Heart.asked_zero x same]
      exact ⟨(Heart.framedTo_selected _).trans (Heart.framedTo_linkNotice _ _), rfl, rfl⟩

theorem Heart.source_setSource (n : Nat) (small : n < 4) : (h.setSource n).source = n := by
  unfold Heart.source Heart.setSource Heart.rf Heart.setRf
  rw [Heart.reg_setReg_same, fld_setFld_same _ _ _ _ (by decide)]
  exact Nat.mod_eq_of_lt small

theorem Heart.cameInFrame_zero : h.cameInFrame 0 =
    { (if h.source = 3 ∧ h.link0Seen = false then (h.linkNotice 1 0).setSource 0 else h.linkNotice 1 0) with link0Seen := true } := by
  unfold Heart.cameInFrame
  extract_lets told sourced
  have source : sourced = if h.source = 3 ∧ h.link0Seen = false then (h.linkNotice 1 0).setSource 0 else h.linkNotice 1 0 := by
    have same : (told.source = 3 && !told.link0Seen) = decide (h.source = 3 ∧ h.link0Seen = false) := by
      change (decide (h.source = 3) && !h.link0Seen) = _
      cases h.link0Seen <;> simp
    unfold sourced
    rw [same]
    simp only [decide_eq_true_eq]
    rfl
  rw [if_pos rfl, source]

theorem Heart.framedTo_cameInFrame : h.framedTo (h.cameInFrame 0) := by
  rw [Heart.cameInFrame_zero]
  refine Heart.framedTo.trans ?_ Heart.framedTo_seen
  split
  · exact (h.framedTo_linkNotice _ _).trans (Heart.framedTo_setSource _)
  · exact h.framedTo_linkNotice _ _

theorem Heart.cameInFrame_zero_rest : (h.cameInFrame 0).link0 = h.link0 ∧ (h.cameInFrame 0).link0Seen = true ∧
    (h.cameInFrame 0).notices = (h.linkNotice 1 0).notices ∧ (h.cameInFrame 0).nextSource = h.nextSource ∧
    (h.cameInFrame 0).source = if h.source = 3 ∧ h.link0Seen = false then 0 else h.source := by
  rw [Heart.cameInFrame_zero]
  split
  · exact ⟨rfl, rfl, rfl, rfl, Heart.source_setSource 0 (by decide)⟩
  · exact ⟨rfl, rfl, rfl, rfl, rfl⟩

theorem Heart.linkNotice_notices (cause a : Nat) : (h.linkNotice cause a).notices =
    (h.notices ++ [(⟨53, 3, cause, a, h.time⟩ : HwNotice)]).drop (h.notices.length + 1 - 64) := by
  change (h.notices ++ [_]).drop ((h.notices ++ [_]).length - 64) = _
  rw [List.length_append, List.length_singleton]

end

theorem completes_hslFrame {s : State} {bits : BitVec 512} {w : BitVec 64} {P : State → Prop} (on : s.hwOn = true) {h' : Heart}
    (frame : s.heart.hslFrame 0 bits w.toNat = h') (holds : P { s with heart := h' }) : Completes (.hslFrame 0 bits w) s P := by
  refine ⟨_, ?_, holds⟩
  subst frame
  change Host.Outcome.next { s with heart := if s.hwOn then s.heart.hslFrame 0 bits w.toNat else s.heart } = _
  rw [on, if_pos rfl]

/-- Settles O44: the search, the frame in frame and the word, each by the lemma that says what it makes of its link. -/
theorem sensorLinkAlignsAndDelivers : Obligations.SensorLinkAlignsAndDelivers := by
  unfold Obligations.SensorLinkAlignsAndDelivers
  refine ⟨?goesOn, ?locks, ?good, ?lost, ?asks, ?word⟩
  case goesOn =>
    intro s bits w on out below now before
    obtain ⟨st, hits, outside, get, hunt⟩ := HwLink.hunt_goesOn bits w.toNat out below
    refine completes_hslFrame on (Heart.hslFrame_hunting now before out hunt outside) ?_
    exact ⟨outside, rfl, rfl, rfl, rfl, get, rfl, fun _ _ => rfl, ⟨rfl, rfl⟩, rfl, rfl, rfl, rfl⟩
  case locks =>
    intro s bits w p on out low high hit twice below now before
    obtain ⟨l, hunt, state, pos, badFaw, fseq, fresh⟩ := HwLink.hunt_locks bits w.toNat out low high hit twice below
    refine completes_hslFrame on (Heart.hslFrame_locked now before out hunt state) ?_
    obtain ⟨link, seen, notices, next, source⟩ := Heart.cameInFrame_zero_rest (h := s.heart.atFrame w.toNat l)
    have all := (s.heart.framedTo_atFrame w.toNat l).trans Heart.framedTo_cameInFrame
    exact ⟨(congrArg HwLink.state link).trans state, (congrArg HwLink.pos link).trans pos, (congrArg HwLink.badFaw link).trans badFaw,
      (congrArg HwLink.fseq link).trans fseq, (congrArg HwLink.fresh link).trans fresh, seen, notices.trans (Heart.linkNotice_notices _ _),
      source, all.eq, all.regs, ⟨rfl, rfl⟩, next⟩
  case good =>
    intro s bits w on inside faw crc now before
    obtain ⟨l, ask, took, -, state, good, crcFail, fseq, wptr, badFaw, pos, prev, -⟩ :=
      ({ s.heart with time := w.toNat } : Heart).inFrame_good rfl crc faw
    have told : (s.heart.atFrame w.toNat l).toldOfFrame 0 l.state ask = (s.heart.atFrame w.toNat l).asked 0 ask := by
      rw [Heart.toldOfFrame, if_pos (state.trans inside)]
    refine completes_hslFrame on ((Heart.hslFrame_inFrame now before inside took).trans told) ?_
    obtain ⟨framed, source, link⟩ := Heart.framedTo_asked (h := s.heart.atFrame w.toNat l) ask
    have all := (s.heart.framedTo_atFrame w.toNat l).trans framed
    exact ⟨(congrArg HwLink.state link).trans (state.trans inside), (congrArg HwLink.good link).trans good,
      (congrArg HwLink.crcFail link).trans crcFail, (congrArg HwLink.fseq link).trans fseq, (congrArg HwLink.wptr link).trans wptr,
      (congrArg HwLink.badFaw link).trans badFaw, (congrArg HwLink.pos link).trans pos, (congrArg HwLink.prev link).trans prev,
      source, all.eq, all.regs, rfl, rfl⟩
  case lost =>
    intro s bits w on inside faw crc three now before
    obtain ⟨l, took, state, crcFail, errored, oofDecl, out⟩ := ({ s.heart with time := w.toNat } : Heart).inFrame_lost rfl crc faw three
    have told : (s.heart.atFrame w.toNat l).toldOfFrame 0 l.state none = (s.heart.atFrame w.toNat l).linkNotice 2 0 := by
      rw [Heart.toldOfFrame, state]
      rfl
    refine completes_hslFrame on ((Heart.hslFrame_inFrame now before inside took).trans told) ?_
    have all := (s.heart.framedTo_atFrame w.toNat l).trans (Heart.framedTo_linkNotice 2 0)
    exact ⟨state, crcFail, errored, oofDecl, out, Heart.linkNotice_notices _ _, rfl, all.eq, all.regs, ⟨rfl, rfl⟩, rfl⟩
  case asks =>
    intro s bits w x on inside faw crc key code small notOne notTwo twice other now before
    obtain ⟨l, ask, took, asks, state, -, -, -, -, -, -, -, rej⟩ :=
      ({ s.heart with time := w.toNat } : Heart).inFrame_good rfl crc faw
    have accepted : ask = some (true, x) := by
      rw [asks, key, code, twice, HwLink.runOf_again]
      exact Heart.requestOf_accepted small notOne notTwo
    subst accepted
    have told : (s.heart.atFrame w.toNat l).toldOfFrame 0 l.state (some (true, x)) =
        ({ s.heart.atFrame w.toNat l with nextSource := some (0, x) } : Heart).linkNotice 5 (256 * x) := by
      rw [Heart.toldOfFrame, if_pos (state.trans inside), Heart.asked_zero (h := s.heart.atFrame w.toNat l) x other]
    refine completes_hslFrame on ((Heart.hslFrame_inFrame now before inside took).trans told) ?_
    have all := ((s.heart.framedTo_atFrame w.toNat l).trans (Heart.framedTo_selected (some (0, x)))).trans (Heart.framedTo_linkNotice 5 (256 * x))
    exact ⟨rfl, Heart.linkNotice_notices _ _, rfl, rej x rfl, all.eq, all.regs, rfl, rfl⟩
  case word =>
    intro h l w v k keys paired wseq old
    rw [h.word_keyed keys paired wseq old]
    generalize beNat (aesRoundsInv (aesRoundKeys k) (beBytes 16 w)) = x
    unfold Heart.wordOf
    refine ⟨fun ⟨marked, next⟩ => ?_, fun wrong => ?_⟩
    · rw [if_pos (by rw [marked, next]; simp)]
      exact ⟨rfl, congrArg some next, rfl, rfl⟩
    · rw [if_neg (fun c => wrong (by simpa using c))]
      exact ⟨rfl, rfl⟩

end Sys2Proof.Machine
end

section
/-! SUPPORT. Two properties that operations of the main die keep, in one walk: that its stores are canonical, and that it is in SAFE with
the commit's token in range (R144, R519). -/
namespace Sys2Proof.Machine

/-- The property: canonical stores, or SAFE. -/
def Basjo.Steady (c : Bool) (b : Basjo) : Prop := c = true → b.regs.wf (regReset .m) = true ∧ b.mem.wf (fun _ => 0) = true
def Burl.Steady (c : Bool) (b : Burl) : Prop := c = true → b.slots.wf (fun _ => KeySlot.empty) = true
def commitInRange (c : Option CommitRun) : Prop := ∀ x, c = some x → ∀ v cycle, x.token = some (v, cycle) → v < 4
def Groves.Steady (c : Bool) (g : Groves) : Prop :=
  match c with
  | true => g.fdb.wf (fun _ => none) = true
  | false => commitInRange g.commit
def Dev.regsSteady (c : Bool) (v : Variant) (regs : Store Word) (words : Store DWord) : Prop :=
  match c with
  | true => regs.wf (regReset v) = true ∧ words.wf (wordReset v) = true
  | false => bit (regs.get (regReset v (rasReg 0)) (rasReg 0)) 31 = true

structure Dev.Steady (c : Bool) (s : Dev) : Prop where
  regs : Dev.regsSteady c s.variant s.regs s.words
  basjo : s.basjo.Steady c
  groves : s.groves.Steady c
  burl : s.burl.Steady c

theorem Dev.steady_true_iff (s : Dev) : s.Steady true ↔ s.canonical = true := by
  unfold Dev.canonical
  simp only [Bool.and_eq_true]
  constructor
  · intro ⟨⟨regs, words⟩, b, g, u⟩
    obtain ⟨bregs, mem⟩ := b rfl
    exact ⟨⟨⟨⟨⟨regs, words⟩, bregs⟩, mem⟩, g⟩, u rfl⟩
  · intro ⟨⟨⟨⟨⟨regs, words⟩, bregs⟩, mem⟩, g⟩, u⟩
    exact ⟨⟨regs, words⟩, fun _ => ⟨bregs, mem⟩, g, fun _ => u⟩

theorem Dev.steady_false_iff (s : Dev) : s.Steady false ↔ s.safe = true ∧ s.tokenInRange :=
  ⟨fun h => ⟨h.regs, h.groves⟩, fun h => ⟨h.1, nofun, h.2, nofun⟩⟩

section
variable {c : Bool}

/-! ## The host interface -/

section
variable {b : Basjo} (ok : b.Steady c)
include ok

theorem Basjo.Steady.setReg {a v} : (b.setReg a v).Steady c := fun e => ⟨Store.wf_put _ _ _ _ (ok e).1, (ok e).2⟩

theorem Basjo.Steady.setRf {a hi lo v} : (b.setRf a hi lo v).Steady c := ok.setReg

theorem Basjo.Steady.count {a k} : (b.count a k).Steady c := ok.setReg

/-- A change of what the property does not speak of. -/
theorem Basjo.Steady.mk {rings pops vecs msix msgs rate dead up order arrivals} :
    (Basjo.mk b.regs rings pops vecs msix b.mem msgs rate dead up order arrivals).Steady c := ok

end

/-! ## Forwarding and keys -/

theorem Groves.Steady.mk {g : Groves} (ok : g.Steady c) {victim out aged meters meterRuns slow} :
    (Groves.mk g.fdb victim out aged g.commit meters meterRuns slow).Steady c := by
  cases c <;> exact ok

theorem Burl.Steady.mk {b : Burl} (ok : b.Steady c) {liveRoot uses serial changes reclaims job scs sas clears generates rootTries fuseLife
    fuseTamper fuseRoots tamperLatch tamperAt} :
    (Burl.mk b.slots liveRoot uses serial changes reclaims job scs sas clears generates rootTries fuseLife fuseTamper fuseRoots tamperLatch
      tamperAt).Steady c := ok

/-- A saturating sum is not smaller: a word from 2^31 on stays there. -/
theorem bit_satAdd (w : Word) (k : Nat) (top : bit w 31 = true) : bit (satAdd w k) 31 = true := by
  have size := w.isLt
  have big : 2 ^ 31 ≤ w.toNat := by
    have msb : w.msb = true := by rw [BitVec.msb_eq_getLsbD_last]; exact top
    exact BitVec.le_toNat_of_msb_true msb
  have sum : (satAdd w k).toNat = min (w.toNat + k) (2 ^ 32 - 1) := by
    unfold satAdd
    rw [BitVec.toNat_ofNat, Nat.mod_eq_of_lt (by omega)]
  have msb : (satAdd w k).msb = true := by
    rw [BitVec.msb_eq_decide, decide_eq_true_eq, sum]
    omega
  rw [BitVec.msb_eq_getLsbD_last] at msb
  exact msb

/-! ## The main die -/

section
variable {s : Dev} (ok : s.Steady c)
include ok

section
variable {lower clocks cam audit ports polls rx ended passed trunk crown bark slowq decap out roots tap canopy ras sap upd reads draws}

theorem Dev.Steady.mk_basjo_groves_burl {b : Basjo} (hb : b.Steady c) {g : Groves} (hg : g.Steady c) {u : Burl} (hu : u.Steady c) :
    (Dev.mk s.variant s.regs s.words lower clocks b cam audit u ports polls rx ended passed g trunk crown bark slowq decap out roots tap canopy
      ras sap upd reads draws).Steady c := ⟨ok.regs, hb, hg, hu⟩

/-- A change of what neither property speaks of. -/
theorem Dev.Steady.mk_rest :
    (Dev.mk s.variant s.regs s.words lower clocks s.basjo cam audit s.burl ports polls rx ended passed s.groves trunk crown bark slowq decap out
      roots tap canopy ras sap upd reads draws).Steady c := ok.mk_basjo_groves_burl ok.basjo ok.groves ok.burl

theorem Dev.Steady.mk_basjo {b : Basjo} (hb : b.Steady c) :
    (Dev.mk s.variant s.regs s.words lower clocks b cam audit s.burl ports polls rx ended passed s.groves trunk crown bark slowq decap out
      roots tap canopy ras sap upd reads draws).Steady c := ok.mk_basjo_groves_burl hb ok.groves ok.burl

theorem Dev.Steady.mk_basjo_burl {b : Basjo} (hb : b.Steady c) {u : Burl} (hu : u.Steady c) :
    (Dev.mk s.variant s.regs s.words lower clocks b cam audit u ports polls rx ended passed s.groves trunk crown bark slowq decap out
      roots tap canopy ras sap upd reads draws).Steady c := ok.mk_basjo_groves_burl hb ok.groves hu

theorem Dev.Steady.mk_groves {g : Groves} (hg : g.Steady c) :
    (Dev.mk s.variant s.regs s.words lower clocks s.basjo cam audit s.burl ports polls rx ended passed g trunk crown bark slowq decap out
      roots tap canopy ras sap upd reads draws).Steady c := ok.mk_basjo_groves_burl ok.basjo hg ok.burl

theorem Dev.Steady.mk_burl {u : Burl} (hu : u.Steady c) :
    (Dev.mk s.variant s.regs s.words lower clocks s.basjo cam audit u ports polls rx ended passed s.groves trunk crown bark slowq decap out
      roots tap canopy ras sap upd reads draws).Steady c := ok.mk_basjo_groves_burl ok.basjo ok.groves hu

end

theorem Dev.Steady.setReg {a v} (other : a ≠ 0x700000) : (s.setReg a v).Steady c := by
  refine ⟨?_, ok.basjo, ok.groves, ok.burl⟩
  have regs := ok.regs
  cases c with
  | true => exact ⟨Store.wf_put _ _ _ _ regs.1, regs.2⟩
  | false =>
    unfold Dev.regsSteady at *
    rw [← regs]
    exact congrArg (bit · 31) (Store.get_put_ne _ _ _ _ (Ne.symm other))

omit ok in
theorem Dev.Steady.setReg_true {s : Dev} (ok : s.Steady true) {a v} : (s.setReg a v).Steady true :=
  ⟨⟨Store.wf_put _ _ _ _ ok.regs.1, ok.regs.2⟩, ok.basjo, ok.groves, ok.burl⟩

/-- A value that keeps bit 31 may be stored anywhere. -/
theorem Dev.Steady.setReg_of_bit {a v} (top : bit (s.reg a) 31 = true → bit v 31 = true) : (s.setReg a v).Steady c := by
  by_cases same : a = rasReg 0
  · subst same
    refine ⟨?_, ok.basjo, ok.groves, ok.burl⟩
    have regs := ok.regs
    cases c with
    | true => exact ⟨Store.wf_put _ _ _ _ regs.1, regs.2⟩
    | false =>
      unfold Dev.regsSteady at *
      exact (congrArg (bit · 31) (Store.get_put_same _ _ _ _)).trans (top regs)
  · exact ok.setReg same

theorem Dev.Steady.setRf {a hi lo v} (low : hi < 31) : (s.setRf a hi lo v).Steady c :=
  ok.setReg_of_bit fun top => by rwa [bit_setFld_out _ _ _ _ _ (.inr low) (by decide)]

theorem Dev.Steady.setRf_of_ne {a hi lo v} (other : a ≠ 0x700000) : (s.setRf a hi lo v).Steady c := ok.setReg other

theorem Dev.Steady.setRb {a i v} (low : i < 31) : (s.setRb a i v).Steady c := ok.setRf low

theorem Dev.Steady.setRb_of_ne {a i v} (other : a ≠ 0x700000) : (s.setRb a i v).Steady c := ok.setReg other

theorem Dev.Steady.setRb_true {a i} : (s.setRb a i true).Steady c :=
  ok.setReg_of_bit fun top => by
    by_cases same : i = 31
    · subst same
      exact bit_setBit_same _ _ _ (by decide)
    · rwa [bit_setBit_ne _ _ _ _ (by decide) (Ne.symm same)]

theorem Dev.Steady.count {a k} : (s.count a k).Steady c := ok.setReg_of_bit fun top => bit_satAdd _ k top

theorem Dev.Steady.count64 {a k} (low : a ≠ 0x700000) (high : a + 4 ≠ 0x700000) : (s.count64 a k).Steady c := (ok.setReg low).setReg high

theorem Dev.Steady.setWord {a v} : (s.setWord a v).Steady c := by
  refine ⟨?_, ok.basjo, ok.groves, ok.burl⟩
  have regs := ok.regs
  cases c with
  | true => exact ⟨regs.1, Store.wf_put _ _ _ _ regs.2⟩
  | false => exact regs

theorem Dev.Steady.resetRegs {lo hi} (other : 0x700000 < lo ∨ hi ≤ 0x700000) : (s.resetRegs lo hi).Steady c := by
  refine ⟨?_, ok.basjo, ok.groves, ok.burl⟩
  have regs := ok.regs
  cases c with
  | true => exact ⟨Store.wf_keep (regReset s.variant) (fun k _ => !(lo ≤ k && k < hi)) _ regs.1, regs.2⟩
  | false =>
    have kept : (!(lo ≤ 0x700000 && 0x700000 < hi)) = true := by
      simp only [Bool.not_eq_true', Bool.and_eq_false_iff, decide_eq_false_iff_not]
      omega
    unfold Dev.regsSteady at *
    rw [← regs]
    exact congrArg (bit · 31) ((Store.get_keep _ (fun k => !(lo ≤ k && k < hi)) _ _).trans (if_pos kept))

theorem Dev.Steady.onBasjo {f : Basjo → Basjo} (hf : (f s.basjo).Steady c) : (s.onBasjo f).Steady c := ok.mk_basjo hf

end

/-! ## Choices, runs over lists, and parts of pairs -/

theorem ite_steady {p : Prop} {inst : Decidable p} {a b : Dev} (ha : a.Steady c) (hb : b.Steady c) : (if p then a else b).Steady c := by
  split
  · exact ha
  · exact hb

theorem Basjo.ite_steady {p : Prop} {inst : Decidable p} {a b : Basjo} (ha : a.Steady c) (hb : b.Steady c) :
    (if p then a else b).Steady c := by
  split
  · exact ha
  · exact hb

section
variable {α β : Type}

theorem Dev.Steady.foldl {f : Dev → α → Dev} (each : ∀ s x, s.Steady c → (f s x).Steady c) {s : Dev} (ok : s.Steady c) {l : List α} :
    (l.foldl f s).Steady c := by
  induction l generalizing s with
  | nil => exact ok
  | cons x l ih => exact ih (each s x ok)

theorem Dev.Steady.foldl_mem {f : Dev → α → Dev} {l : List α} (each : ∀ s x, x ∈ l → s.Steady c → (f s x).Steady c) {s : Dev}
    (ok : s.Steady c) : (l.foldl f s).Steady c := by
  induction l generalizing s with
  | nil => exact ok
  | cons x l ih => exact ih (fun s y mem => each s y (List.mem_cons_of_mem _ mem)) (each s x List.mem_cons_self ok)

theorem Basjo.Steady.foldl {f : Basjo → α → Basjo} (each : ∀ b x, b.Steady c → (f b x).Steady c) {b : Basjo} (ok : b.Steady c) {l : List α} :
    (l.foldl f b).Steady c := by
  induction l generalizing b with
  | nil => exact ok
  | cons x l ih => exact ih (each b x ok)

theorem Dev.Steady.foldl_fst {f : Dev × β → α → Dev × β} (each : ∀ p x, p.1.Steady c → (f p x).1.Steady c) {p : Dev × β} (ok : p.1.Steady c)
    {l : List α} : (l.foldl f p).1.Steady c := by
  induction l generalizing p with
  | nil => exact ok
  | cons x l ih => exact ih (each p x ok)

theorem Dev.Steady.foldl_snd {f : β × Dev → α → β × Dev} (each : ∀ p x, p.2.Steady c → (f p x).2.Steady c) {p : β × Dev} (ok : p.2.Steady c)
    {l : List α} : (l.foldl f p).2.Steady c := by
  induction l generalizing p with
  | nil => exact ok
  | cons x l ih => exact ih (each p x ok)

theorem of_ite_some {p : Prop} {inst : Decidable p} {a b : Option α} {t : α} (eq : (if p then a else b) = some t) :
    a = some t ∨ b = some t := by
  split at eq
  · exact .inl eq
  · exact .inr eq

theorem of_fst {p : Dev × β} {s : Dev} {x : β} (ok : p.1.Steady c) (pair : p = (s, x)) : s.Steady c := by
  subst pair
  exact ok

theorem of_snd {p : β × Dev} {s : Dev} {x : β} (ok : p.2.Steady c) (pair : p = (x, s)) : s.Steady c := by
  subst pair
  exact ok

end

end

/-! ## Commands -/

/-- What a command's own part leaves. -/
def CmdRes.Steady (c : Bool) : CmdRes → Prop
  | .done s _ _ _ => s.Steady c
  | .wait s => s.Steady c

section
variable {c : Bool}

section
variable {s : Dev} (ok : s.Steady c)
include ok

theorem Dev.Steady.done {status a b} : (CmdRes.done s status a b).Steady c := ok

theorem Dev.Steady.wait : (CmdRes.wait s).Steady c := ok

end

theorem CmdRes.Steady.of_done {r : CmdRes} (ok : r.Steady c) {s status a b} (done : r = .done s status a b) : s.Steady c := by
  subst done
  exact ok

theorem CmdRes.Steady.of_wait {r : CmdRes} (ok : r.Steady c) {s} (wait : r = .wait s) : s.Steady c := by
  subst wait
  exact ok

theorem CmdRes.ite_steady {p : Prop} {inst : Decidable p} {a b : CmdRes} (ha : a.Steady c) (hb : b.Steady c) :
    (if p then a else b).Steady c := by
  split
  · exact ha
  · exact hb

end

/-! ## Addresses -/

section
variable {off : Nat}

theorem portReg_spares (n : Nat) (inside : off % 0x1000 ≠ 0) : portReg n off ≠ 0x700000 := by
  unfold portReg
  omega

theorem mdioReg_spares (m : Nat) (inside : off % 0x100 ≠ 0) : mdioReg m off ≠ 0x700000 := by
  unfold mdioReg
  omega

theorem groveReg_spares (g : Nat) (inside : off % 0x40000 ≠ 0) : groveReg g off ≠ 0x700000 := by
  unfold groveReg
  omega

theorem queueReg_spares (q : Nat) (inside : off % 0x40 ≠ 0) : queueReg q off ≠ 0x700000 := by
  unfold queueReg
  omega

theorem crownReg_spares (n : Nat) (inside : off % 0x1000 ≠ 0) : crownReg n off ≠ 0x700000 := by
  unfold crownReg
  omega

theorem crownQ_spares (n t : Nat) (inside : off % 0x40 ≠ 0) : crownQ n t off ≠ 0x700000 := by
  unfold crownQ crownReg
  omega

theorem cq_spares (q : Nat) (inside : off % 0x40 ≠ 0) : cq q off ≠ 0x700000 := by
  unfold cq crownQ crownReg
  omega

theorem domReg_spares (d : Nat) (inside : off % 0x80 ≠ 0) : domReg d off ≠ 0x700000 := by
  unfold domReg camReg
  omega

theorem capReg_spares (k : Nat) (inside : off % 0x20 ≠ 0) : capReg k off ≠ 0x700000 := by
  unfold capReg camReg
  omega

theorem ppsReg_spares (k : Nat) (inside : off % 0x20 ≠ 0) : ppsReg k off ≠ 0x700000 := by
  unfold ppsReg camReg
  omega

theorem canReg_spares (n : Nat) (inside : off % 0x800 ≠ 0) : canReg n off ≠ 0x700000 := by
  unfold canReg
  omega

theorem linReg_spares (l : Nat) (inside : off % 0x400 ≠ 0) : linReg l off ≠ 0x700000 := by
  unfold linReg
  omega

theorem encReg_spares (s : Nat) (inside : off % 0x20 ≠ 0) : encReg s off ≠ 0x700000 := by
  unfold encReg rootsReg
  omega

theorem fbufReg_spares (l id : Nat) (inside : off % 0x10 ≠ 0) : fbufReg l id off ≠ 0x700000 := by
  unfold fbufReg rootsReg
  omega

theorem macsecReg_spares (n : Nat) (inside : off % 0x40 ≠ 0) : macsecReg n off ≠ 0x700000 := by
  unfold macsecReg burlReg
  omega

theorem pairReg_spares (k : Nat) (inside : off % 0x40 ≠ 0) : pairReg k off ≠ 0x700000 := by
  unfold pairReg canopyReg
  omega

theorem coreWdt_spares (n : Nat) (inside : off % 0x20 ≠ 0) : coreWdt n off ≠ 0x700000 := by
  unfold coreWdt canopyReg
  omega

theorem spqReg_spares (c : Nat) (inside : off % 0x40 ≠ 0) : spqReg c off ≠ 0x700000 := by
  unfold spqReg canopyReg
  omega

theorem sptReg_spares (r : Nat) (inside : off % 0x40 ≠ 0) : sptReg r off ≠ 0x700000 := by
  unfold sptReg canopyReg
  omega

theorem srcReg_spares (k : Nat) (inside : off % 0x10 ≠ 0) : srcReg k off ≠ 0x700000 := by
  unfold srcReg tapReg
  omega

theorem verReg_spares (v : Nat) (inside : off % 0x20 ≠ 0) : verReg v off ≠ 0x700000 := by
  unfold verReg
  omega

theorem slowReg_spares (g c : Nat) (inside : off % 0x10 ≠ 0) : slowReg g c off ≠ 0x700000 := by
  unfold slowReg groveReg
  omega

theorem wakeReg_spares (k : Nat) (inside : off % 0x20 ≠ 0) : wakeReg k off ≠ 0x700000 := by
  unfold wakeReg tapReg
  omega

theorem domTable_apart {d k : Nat} (entry : k < 9) : domReg d (0x40 + 4 * k) ≠ 0x700000 := by
  unfold domReg camReg
  omega

theorem fbufReg_apart {l id : Nat} (small : l < 16) (buffer : id < 64) (inside : off < 0x10) : fbufReg l id off ≠ 0x700000 := by
  unfold fbufReg rootsReg
  omega

theorem pairReg_apart {k : Nat} (small : k < 3) (inside : off < 0x40) : pairReg k off ≠ 0x700000 := by
  unfold pairReg canopyReg
  omega

theorem verReg_apart {v : Nat} (small : v < 4) (inside : off < 0x20) : verReg v off ≠ 0x700000 := by
  unfold verReg
  omega

theorem queueNo_lt (q : Nat) : queueNo q < 32 := by
  unfold queueNo
  split <;> omega

theorem cq_apart {q : Nat} (inside : off < 0x40) : cq q off ≠ 0x700000 := by
  have port : queuePort q ≤ 37 := by
    unfold queuePort
    split
    · omega
    · split <;> omega
  have queue := queueNo_lt q
  unfold cq crownQ crownReg
  omega

end

theorem cNoBuf_spares (n : Nat) : cNoBuf n ≠ 0x700000 := by
  unfold cNoBuf trunkReg
  omega

theorem Dev.Steady.countPort {c : Bool} {s : Dev} (ok : s.Steady c) {n off k} (inside : off % 0x1000 ≠ 0 ∧ off % 0x1000 < 0xFFC) :
    (s.count64 (portReg n off) k).Steady c := by
  obtain ⟨first, last⟩ := inside
  exact ok.count64 (portReg_spares n first) (by unfold portReg; omega)

end Sys2Proof.Machine
end

section
/-! SUPPORT. The operations of the state keep what the main die keeps. -/
namespace Sys2Proof.Machine

section
variable {way : Bool}

theorem Dev.Steady.resetOf {v : Variant} : (Dev.resetOf v).Steady true := by
  refine ⟨⟨?_, Store.wf_nil _⟩, fun _ => ⟨Store.wf_nil _, Store.wf_nil _⟩, Store.wf_nil (fun _ => none), fun _ => Store.wf_nil _⟩
  cases v with
  | m => decide
  | s => decide
  | c => decide

end

end Sys2Proof.Machine
end

section
/-! SUPPORT. The operations of the named operations keep what the main die keeps. -/
namespace Sys2Proof.Machine

section
variable {way : Bool}

theorem Dev.Steady.draw {s : Dev} (ok : s.Steady way) : s.draw.2.Steady way := by
  unfold Dev.draw
  exact ok.mk_rest

theorem Dev.Steady.drawBytes {s : Dev} {n} (ok : s.Steady way) : (s.drawBytes n).2.Steady way := by
  unfold Dev.drawBytes
  exact ok.mk_rest

theorem Dev.Steady.canopyIrq {s : Dev} {name n} (ok : s.Steady way) : (s.canopyIrq name n).Steady way := by
  unfold Dev.canopyIrq
  exact ite_steady ok.mk_rest ok.mk_rest

theorem Dev.Steady.irqsDue {s : Dev} (ok : s.Steady way) : s.irqsDue.Steady way := by
  unfold Dev.irqsDue
  extract_lets l src
  exact Dev.Steady.foldl (fun _ _ ok1 => ok1.canopyIrq) ok.mk_rest

end

end Sys2Proof.Machine
end

section
/-! SUPPORT. The operations of the event records keep what the main die keeps. -/
namespace Sys2Proof.Machine

section
variable {way : Bool}

theorem Basjo.Steady.store {b : Basjo} {h addr l} (ok : b.Steady way) : (b.store h addr l).Steady way := by
  have kept (l : List (Byte × Nat)) (m : Store Byte) (wf : m.wf (fun _ => 0) = true) : (l.foldl (fun m e =>
      if inCheckpoints h (addr + e.2) then m else m.put 0 (h * 2 ^ 64 + (addr + e.2) % 2 ^ memWidth h) e.1) m).wf (fun _ => 0) = true := by
    induction l generalizing m with
    | nil => exact wf
    | cons e l ih =>
      refine ih _ ?_
      beta_reduce
      split
      · exact wf
      · exact Store.wf_put _ _ _ _ wf
  exact fun e => ⟨(ok e).1, kept _ _ (ok e).2⟩

theorem Basjo.Steady.setRing {b : Basjo} {h r v} (ok : b.Steady way) : (b.setRing h r v).Steady way := by
  unfold Basjo.setRing
  exact ok.mk

theorem Basjo.Steady.advance {b : Basjo} {h r k} (ok : b.Steady way) : (b.advance h r k).Steady way := by
  unfold Basjo.advance
  extract_lets i
  exact ok.setReg.store

theorem Basjo.Steady.setVec {b : Basjo} {h v x} (ok : b.Steady way) : (b.setVec h v x).Steady way := by
  unfold Basjo.setVec
  exact ok.mk

theorem Basjo.Steady.fire {b : Basjo} {h v} (ok : b.Steady way) : (b.fire h v).Steady way := by
  unfold Basjo.fire
  extract_lets src x f src1
  have ok1 : src1.Steady way := ok.setVec
  exact Basjo.ite_steady ok.setVec (Basjo.ite_steady ok.setVec ok1.mk)

theorem Basjo.Steady.signal {b : Basjo} {now h v} (ok : b.Steady way) : (b.signal now h v).Steady way := by
  unfold Basjo.signal
  extract_lets x n
  exact Basjo.ite_steady ok.fire ok.setVec

theorem Basjo.Steady.putRec {b : Basjo} {now h q r} (ok : b.Steady way) : (b.putRec now h q r).Steady way := by
  unfold Basjo.putRec
  split
  · extract_lets x
    exact ok.store.advance.setRing.signal
  · extract_lets p
    exact ok.mk.signal

theorem Basjo.Steady.loseRec {b : Basjo} {h x2} (ok : b.Steady way) : (b.loseRec h x2).Steady way := by
  unfold Basjo.loseRec
  split
  · extract_lets x
    exact ok.setRing.count
  · extract_lets p
    exact ok.mk

theorem Basjo.Steady.clearLost {b : Basjo} {h x2} (ok : b.Steady way) : (b.clearLost h x2).Steady way := by
  unfold Basjo.clearLost
  split
  · exact ok.setRing
  · extract_lets p
    exact ok.mk

theorem Basjo.Steady.overflow {b : Basjo} {now h q sec ns} (ok : b.Steady way) : (b.overflow now h q sec ns).Steady way := by
  unfold Basjo.overflow
  exact Basjo.ite_steady ok ok.putRec.clearLost

theorem Basjo.Steady.deliver {b : Basjo} {now h r} (ok : b.Steady way) : (b.deliver now h r).Steady way := by
  unfold Basjo.deliver
  extract_lets route q n x b1
  have ok1 : b1.Steady way := ok.overflow
  split
  · exact ok
  · exact Basjo.ite_steady ((Basjo.ite_steady ok.setRing ok).count) (Basjo.ite_steady ok1.loseRec ok1.putRec)

theorem Dev.Steady.raiseAt {s : Dev} {h cls cause cluster unit a b} (ok : s.Steady way) :
    (s.raiseAt h cls cause cluster unit a b).Steady way := by
  unfold Dev.raiseAt
  exact ok.onBasjo ok.basjo.deliver

theorem Dev.Steady.raiseStamped {s : Dev} {cls cause cluster unit a b raw} (ok : s.Steady way) :
    (s.raiseStamped cls cause cluster unit a b raw).Steady way := by
  unfold Dev.raiseStamped
  exact ok.onBasjo (Basjo.Steady.foldl (fun _ _ ok1 => ok1.deliver) ok.basjo)

theorem Dev.Steady.raise {s : Dev} {cls cause cluster unit a b} (ok : s.Steady way) : (s.raise cls cause cluster unit a b).Steady way := by
  unfold Dev.raise
  exact ok.raiseStamped

theorem Dev.Steady.raiseOther {s : Dev} {h cls cause a b} (ok : s.Steady way) : (s.raiseOther h cls cause a b).Steady way := by
  unfold Dev.raiseOther
  exact ite_steady ok.raiseAt ok

theorem Dev.Steady.rated {s : Dev} {key interval} {f : ℕ → Dev → Dev} (ok : s.Steady way)
    (hf : ∀ z0 z1, z1.Steady way → (f z0 z1).Steady way) : (s.rated key interval f).Steady way := by
  unfold Dev.rated
  extract_lets r due
  exact ite_steady (hf _ _ (ok.onBasjo ok.basjo.mk)) (ok.onBasjo ok.basjo.mk)

theorem Dev.Steady.raiseRated {s : Dev} {cls cause cluster unit sub interval pa pb} (ok : s.Steady way) :
    (s.raiseRated cls cause cluster unit sub interval pa pb).Steady way := by
  unfold Dev.raiseRated
  exact ok.rated (fun _ _ ok1 => ok1.raise)

theorem Dev.Steady.rxDrop {s : Dev} {h t cause} (ok : s.Steady way) : (s.rxDrop h t cause).Steady way := by
  unfold Dev.rxDrop
  extract_lets s1
  have ok1 : s1.Steady way := ite_steady (ok.onBasjo ok.basjo.count) ok
  exact ok1.rated (fun _ _ ok2 => ite_steady ok2.raiseOther ok2.raiseAt)

end

end Sys2Proof.Machine
end

section
/-! SUPPORT. The operations of the change log and of accesses keep what the main die keeps. -/
namespace Sys2Proof.Machine

section
variable {way : Bool}

theorem Dev.Steady.auditEvent {s : Dev} {kind target e} (ok : s.Steady way) : (s.auditEvent kind target e).Steady way := by
  unfold Dev.auditEvent
  exact ok.raise

theorem Dev.Steady.logRaw {s : Dev} {origin kind cluster unit op target old new} (ok : s.Steady way) :
    (s.logRaw origin kind cluster unit op target old new).Steady way := by
  unfold Dev.logRaw
  extract_lets e
  exact ok.mk_rest.auditEvent

theorem Dev.Steady.log {s : Dev} {origin kind cluster unit op target old new} (ok : s.Steady way) :
    (s.log origin kind cluster unit op target old new).Steady way := by
  unfold Dev.log
  exact ok.logRaw

theorem Dev.Steady.logHw {s : Dev} {kind cluster unit old new} (ok : s.Steady way) : (s.logHw kind cluster unit old new).Steady way := by
  unfold Dev.logHw
  exact ok.log

theorem Dev.Steady.readGives {s : Dev} {o v} (ok : s.Steady way) : (s.readGives o v).Steady way := by
  unfold Dev.readGives
  exact ok.mk_rest

theorem Dev.Steady.hold {s : Dev} {x} (ok : s.Steady way) : (s.hold x).Steady way := by
  unfold Dev.hold
  exact ok.mk_rest

theorem Dev.Steady.dropHolds {s : Dev} {o} (ok : s.Steady way) : (s.dropHolds o).Steady way := by
  unfold Dev.dropHolds
  exact ok.mk_rest

theorem Dev.Steady.demand {s : Dev} {c u} (ok : s.Steady way) : (s.demand c u).Steady way := by
  unfold Dev.demand
  exact ok.mk_rest

theorem Dev.Steady.demandCluster {s : Dev} {c} (ok : s.Steady way) : (s.demandCluster c).Steady way := by
  unfold Dev.demandCluster
  exact ok.mk_rest

theorem Dev.Steady.countDenied {s : Dev} {o} (ok : s.Steady way) : (s.countDenied o).Steady way := by
  unfold Dev.countDenied
  exact ite_steady (ok.onBasjo ok.basjo.count) ok

theorem Dev.Steady.denied {s : Dev} {o cluster unit op target old new} (ok : s.Steady way) :
    (s.denied o cluster unit op target old new).Steady way := by
  unfold Dev.denied
  exact ok.countDenied.log

theorem Dev.Steady.passAccess {s : Dev} {a addr assigned cfg old new} (ok : s.Steady way) :
    (s.passAccess a addr assigned cfg old new).1.Steady way := by
  unfold Dev.passAccess
  split
  · exact ok
  · extract_lets cu
    split
    · exact ok
    · split
      · exact ok.denied
      · split
        · exact ok
        · split
          · exact ok.count
          · exact ok

theorem Dev.Steady.writeField {s : Dev} {a addr new} {f : Dev → Dev} (ok : s.Steady way) (hf : ∀ z0, z0.Steady way → (f z0).Steady way) :
    (s.writeField a addr new f).Steady way := by
  unfold Dev.writeField
  extract_lets read old p cu
  have ok1 : p.1.Steady way := ok.passAccess
  exact ite_steady ok1 (hf _ ok1.log.demand)

theorem Dev.Steady.writeOwn {s : Dev} {a addr new} {f : Dev → Dev} (ok : s.Steady way) (hf : ∀ z0, z0.Steady way → (f z0).Steady way) :
    (s.writeOwn a addr new f).Steady way := by
  unfold Dev.writeOwn
  extract_lets old p cu s1
  have ok1 : p.1.Steady way := ok.passAccess
  have ok2 : s1.Steady way := ok1.log
  exact ite_steady ok1 (ite_steady ok2.hold (hf _ ok2))

end

end Sys2Proof.Machine
end

section
/-! SUPPORT. The operations of the counts of RAS keep what the main die keeps. -/
namespace Sys2Proof.Machine

section
variable {way : Bool}

theorem Dev.Steady.spareEvent {s : Dev} {cause cl un a} (ok : s.Steady way) : (s.spareEvent cause cl un a).Steady way := by
  unfold Dev.spareEvent
  exact ok.raise.logHw

theorem Dev.Steady.setRasUnit {s : Dev} {c u x} (ok : s.Steady way) : (s.setRasUnit c u x).Steady way := by
  unfold Dev.setRasUnit
  exact ok.mk_rest

theorem Dev.Steady.dropUnit {s : Dev} {c u} (ok : s.Steady way) : (s.dropUnit c u).Steady way := by
  unfold Dev.dropUnit
  exact ok.setRasUnit

theorem Dev.Steady.swapUnits {s : Dev} {c u sp} (ok : s.Steady way) : (s.swapUnits c u sp).Steady way := by
  unfold Dev.swapUnits
  exact ok.setRasUnit.setRasUnit

theorem Dev.Steady.eccTrend {s : Dev} {cause c u} (ok : s.Steady way) : (s.eccTrend cause c u).Steady way := by
  unfold Dev.eccTrend
  exact ok.raise

theorem Dev.Steady.countCe {s : Dev} {c u} (ok : s.Steady way) : (s.countCe c u).Steady way := by
  unfold Dev.countCe
  extract_lets x s1 src
  have ok1 : s1.Steady way := ok.setRasUnit
  split
  · exact ok1
  · exact ite_steady ok1 ok1.setRasUnit.eccTrend

theorem Dev.Steady.countUe {s : Dev} {c u} (ok : s.Steady way) : (s.countUe c u).Steady way := by
  unfold Dev.countUe
  extract_lets x
  exact ok.setRasUnit

theorem Dev.Steady.retireRow {s : Dev} {g key} (ok : s.Steady way) : (s.retireRow g key).Steady way := by
  unfold Dev.retireRow
  extract_lets n src
  exact ite_steady ok.mk_rest.spareEvent ok.spareEvent

theorem Dev.Steady.countRow {s : Dev} {g key} (ok : s.Steady way) : (s.countRow g key).Steady way := by
  unfold Dev.countRow
  extract_lets n src s1
  have ok1 : s1.Steady way := ok.mk_rest.countCe
  exact ite_steady ok1.retireRow ok1

end

end Sys2Proof.Machine
end

section
/-! SUPPORT. The operations of the commands of a CMD ring keep what the main die keeps. -/
namespace Sys2Proof.Machine

section
variable {way : Bool}

theorem Dev.Steady.fail {s : Dev} {status} (ok : s.Steady way) : (CmdRes.fail s status).Steady way := by
  unfold CmdRes.fail
  exact ok.done

theorem Basjo.Steady.setActive {b : Basjo} {h r v} (ok : b.Steady way) : (b.setActive h r v).Steady way := by
  unfold Basjo.setActive
  exact ok.setRf

theorem Dev.Steady.ringFault {s : Dev} {h r dma} (ok : s.Steady way) : (s.ringFault h r dma).Steady way := by
  unfold Dev.ringFault
  extract_lets s1
  have ok1 : s1.Steady way := ok.onBasjo ((((Basjo.ite_steady ok.basjo.count ok.basjo).setRf).setRing).setActive)
  exact ok1.raiseAt

theorem Dev.Steady.finish {s : Dev} {d status a b} (ok : s.Steady way) : (s.finish d status a b).Steady way := by
  unfold Dev.finish
  extract_lets h r s1
  have ok1 : s1.Steady way := ok.onBasjo ok.basjo.store.advance.setRing
  exact ite_steady (ok.onBasjo ok.basjo.setRing) (ite_steady ok.ringFault (ite_steady ok1 ok1.raiseAt))

theorem Dev.Steady.logCommand {s : Dev} {d op kind status} (ok : s.Steady way) : (s.logCommand d op kind status).Steady way := by
  unfold Dev.logCommand
  exact ok.logRaw

theorem Dev.Steady.complete {s : Dev} {d op kind status a b} (ok : s.Steady way) : (s.complete d op kind status a b).Steady way := by
  unfold Dev.complete
  extract_lets s1
  have ok1 : s1.Steady way := by
    unfold s1
    split
    · exact ite_steady ok.logCommand ok
    · exact ok
  exact ok1.finish

theorem Dev.Steady.waitUnit {s : Dev} {d} (ok : s.Steady way) : (s.waitUnit d).Steady way := by
  unfold Dev.waitUnit
  exact ite_steady ok (ok.onBasjo ok.basjo.setRing.mk)

theorem Dev.Steady.command {s : Dev} {d clusterOk unitOk op mask kind} {body : Dev → CmdRes} (ok : s.Steady way)
    (hbody : ∀ z0, z0.Steady way → (body z0).Steady way) : (s.command d clusterOk unitOk op mask kind body).Steady way := by
  unfold Dev.command
  extract_lets mine
  split
  · exact ok
  · split
    · exact ok.ringFault
    · split
      · exact ok
      · split
        · exact ok.finish
        · split
          · exact ok.waitUnit
          · split
            · extract_lets s1
              have ok1 : s1.Steady way := ite_steady ok.countDenied.logCommand ok
              exact ok1.finish
            · split
              · exact ((hbody _ ok.demand).of_done ‹_›).complete
              · exact ((hbody _ ok.demand).of_wait ‹_›).onBasjo ((((hbody _ ok.demand).of_wait ‹_›).basjo).setRing)

theorem Dev.Steady.completeLate {s : Dev} {d op kind status a b} (ok : s.Steady way) : (s.completeLate d op kind status a b).Steady way := by
  unfold Dev.completeLate
  extract_lets mine
  split
  · exact ok.complete
  · split
    · exact ite_steady ok.logCommand ok
    · exact ok

theorem Dev.Steady.dmaFail {s : Dev} {h} (ok : s.Steady way) : (s.dmaFail h).Steady way := by
  unfold Dev.dmaFail
  exact ok.onBasjo ok.basjo.count

end

end Sys2Proof.Machine
end

section
/-! SUPPORT. The operations of the gate lists keep what the main die keeps. -/
namespace Sys2Proof.Machine

section
variable {way : Bool}

theorem Dev.Steady.setGate {s : Dev} {n g} (ok : s.Steady way) : (s.setGate n g).Steady way := by
  unfold Dev.setGate
  exact ok.mk_rest

theorem Dev.Steady.setCq {s : Dev} {q v} (ok : s.Steady way) : (s.setCq q v).Steady way := by
  unfold Dev.setCq
  exact ok.mk_rest

theorem Dev.Steady.creditTouch {s : Dev} {q} (ok : s.Steady way) : (s.creditTouch q).Steady way := by
  unfold Dev.creditTouch
  exact ite_steady ok.setCq ok

theorem Dev.Steady.creditPort {s : Dev} {n} (ok : s.Steady way) : (s.creditPort n).Steady way := by
  unfold Dev.creditPort
  exact ite_steady (Dev.Steady.foldl (fun _ _ ok1 => ok1.creditTouch) ok) ok

end

end Sys2Proof.Machine
end

section
/-! SUPPORT. The operations of the Trunk keep what the main die keeps. -/
namespace Sys2Proof.Machine

section
variable {way : Bool}

theorem Dev.Steady.banksGo {s : Dev} (ok : s.Steady way) : s.banksGo.Steady way := by
  unfold Dev.banksGo
  split
  · exact ok
  · extract_lets gone src
    exact ok.mk_rest.setRf (by decide)

theorem Dev.Steady.pressure {s : Dev} (ok : s.Steady way) : s.pressure.Steady way := by
  unfold Dev.pressure
  extract_lets free src s1 desc th src1
  have ok1 : s1.Steady way := ite_steady ok.mk_rest.raise (ite_steady ok.mk_rest.raise ok)
  exact ite_steady ok1.mk_rest.raise (ite_steady ok1.mk_rest.raise ok1)

theorem Dev.Steady.ovfPressure {s : Dev} (ok : s.Steady way) : s.ovfPressure.Steady way := by
  unfold Dev.ovfPressure
  extract_lets used src
  exact ite_steady ok.mk_rest.raise (ite_steady ok.mk_rest ok)

theorem Dev.Steady.takeCells {s : Dev} {p n} (ok : s.Steady way) : (s.takeCells p n).Steady way := by
  unfold Dev.takeCells
  exact ((ok.setRf (by decide)).setRf (by decide)).pressure

theorem Dev.Steady.giveCells {s : Dev} {p n} (ok : s.Steady way) : (s.giveCells p n).Steady way := by
  unfold Dev.giveCells
  exact (((ok.setRf (by decide)).setRf (by decide)).banksGo).pressure

theorem Dev.Steady.newChain {s : Dev} (ok : s.Steady way) : s.newChain.2.Steady way := by
  unfold Dev.newChain
  exact ok.mk_rest

theorem Dev.Steady.newRun {s : Dev} {n} (ok : s.Steady way) : (s.newRun n).2.Steady way := by
  unfold Dev.newRun
  extract_lets c
  have ok1 : c.2.Steady way := ok.newChain
  exact ok1

theorem Dev.Steady.takeDesc {s : Dev} (ok : s.Steady way) : s.takeDesc.Steady way := by
  unfold Dev.takeDesc
  exact (ok.setRf (by decide)).pressure

theorem Dev.Steady.giveDesc {s : Dev} (ok : s.Steady way) : s.giveDesc.Steady way := by
  unfold Dev.giveDesc
  exact (ok.setRf (by decide)).pressure

theorem Dev.Steady.takeExt {s : Dev} {n} (ok : s.Steady way) : (s.takeExt n).Steady way := by
  unfold Dev.takeExt
  exact (ok.setRf (by decide)).ovfPressure

theorem Dev.Steady.giveExt {s : Dev} {n} (ok : s.Steady way) : (s.giveExt n).Steady way := by
  unfold Dev.giveExt
  exact (ok.setRf (by decide)).ovfPressure

theorem Dev.Steady.enterVersion {s : Dev} {v} (ok : s.Steady way) : (s.enterVersion v).Steady way := by
  unfold Dev.enterVersion
  exact ok.setRf (by decide)

theorem Dev.Steady.leaveVersion {s : Dev} {tag} (ok : s.Steady way) : (s.leaveVersion tag).Steady way := by
  unfold Dev.leaveVersion
  split
  · exact ok.setRf (by decide)
  · exact ok

theorem Dev.Steady.setStored {s : Dev} {id f} (ok : s.Steady way) : (s.setStored id f).Steady way := by
  unfold Dev.setStored
  exact ok.mk_rest

theorem Dev.Steady.release {s : Dev} {id} (ok : s.Steady way) : (s.release id).Steady way := by
  unfold Dev.release
  split
  · exact ok
  · exact ite_steady ok.setStored.giveCells.leaveVersion ok.setStored

theorem Dev.Steady.setTq {s : Dev} {q v} (ok : s.Steady way) : (s.setTq q v).Steady way := by
  unfold Dev.setTq
  exact ok.mk_rest

theorem Dev.Steady.settle {s : Dev} {q} (ok : s.Steady way) : (s.settle q).Steady way := by
  unfold Dev.settle
  extract_lets x n back s1 x1 y s2 blocked s3 s4 s5
  have ok1 : s1.Steady way := by
    unfold s1
    clear_value back
    split
    · exact ok.setTq.giveExt
    · exact ok
  have ok2 : s2.Steady way := ite_steady ok1.setCq ok1
  have ok3 : s3.Steady way := ok2.setTq
  have ok4 : s4.Steady way := ok3.setRf (by decide)
  have ok5 : s5.Steady way := ok4.setRf (by decide)
  exact ok5.setRf (by decide)

theorem Dev.Steady.setNext {s : Dev} {q n} (ok : s.Steady way) : (s.setNext q n).Steady way := by
  unfold Dev.setNext
  exact ok.setRf_of_ne (queueReg_spares _ (by decide))

theorem Dev.Steady.unqueue {s : Dev} {q seq} (ok : s.Steady way) : (s.unqueue q seq).Steady way := by
  unfold Dev.unqueue
  extract_lets s1 x ds s2 s3
  have ok1 : s1.Steady way := ok.creditTouch
  have ok2 : s2.Steady way := ok1.setTq
  have ok3 : s3.Steady way := ite_steady ok2.setNext ok2
  exact ok3.settle

theorem Dev.Steady.takeHead {s : Dev} {q d} (ok : s.Steady way) : (s.takeHead q d).Steady way := by
  unfold Dev.takeHead
  exact ok.unqueue.giveDesc

theorem Dev.Steady.dropHead {s : Dev} {q d counter} (ok : s.Steady way) : (s.dropHead q d counter).Steady way := by
  unfold Dev.dropHead
  exact ok.takeHead.release.count

theorem Dev.Steady.redAdmits {s : Dev} {q colour} (ok : s.Steady way) : (s.redAdmits q colour).2.Steady way := by
  unfold Dev.redAdmits
  extract_lets k th mn mx avg d s1 maxp
  have ok1 : d.2.Steady way := ok.draw
  have ok2 : s1.Steady way := ok1
  split
  · exact ok2
  · split
    · exact ok2
    · exact ok2

theorem Dev.Steady.avgUpdate {s : Dev} (ok : s.Steady way) : s.avgUpdate.Steady way := by
  unfold Dev.avgUpdate
  split
  · exact ok
  · exact Dev.Steady.foldl (fun _ _ ok2 => ok2.setReg (queueReg_spares _ (by decide))) ok.mk_rest

theorem Dev.Steady.admitTarget {s : Dev} {id f q reason} (ok : s.Steady way) : (s.admitTarget id f q reason).Steady way := by
  unfold Dev.admitTarget
  extract_lets cells r s1 seq s2 x s3 s4 s5
  have ok1 : r.2.Steady way := ok.redAdmits
  have ok2 : s1.Steady way := ok1
  have ok3 : s2.Steady way := ok2.demand.creditTouch
  have ok4 : s3.Steady way := ok3.setTq
  have ok5 : s4.Steady way := ok4.setRf (by decide)
  have ok6 : s5.Steady way := ok5.setStored
  exact ite_steady ok.count (ite_steady ok2.count (ite_steady ok2.count ok6.takeDesc.settle))

theorem Dev.Steady.maybeSpill {s : Dev} {id q} (ok : s.Steady way) : (s.maybeSpill id q).Steady way := by
  unfold Dev.maybeSpill
  split
  · exact ok
  · extract_lets w eligible depth wanted done need s1 x e s2 src
    have ok1 : s1.Steady way := ok.creditTouch
    have ok2 : e.2.Steady way := ok1.newChain
    have ok3 : s2.Steady way := ok2.setTq
    exact ite_steady ok (ite_steady ok.count (ite_steady ok.count ok3.mk_rest.takeExt.settle))

theorem Dev.Steady.admitTargets {s : Dev} {id targets} (ok : s.Steady way) : (s.admitTargets id targets).Steady way := by
  unfold Dev.admitTargets
  split
  · exact ok
  · extract_lets targets1 s1 s2
    have ok1 : s1.Steady way := Dev.Steady.foldl (fun _ _ ok2 => ok2.admitTarget) ok
    have ok3 : s2.Steady way := ok1.release
    exact Dev.Steady.foldl (fun _ _ ok4 => ite_steady ok4.maybeSpill ok4) ok3

theorem Dev.Steady.spillComplete {s : Dev} {q bad} (ok : s.Steady way) : (s.spillComplete q bad).Steady way := by
  unfold Dev.spillComplete
  split
  · exact ok
  · extract_lets x s1 s2
    have ok1 : s1.Steady way := ok.setTq
    have ok2 : s2.Steady way := by
      unfold s2
      split
      · exact ok1.setStored.giveCells
      · exact ok1
    exact (ok2.giveDesc.count.setRf (by decide)).settle

theorem Dev.Steady.fillIssue {s : Dev} {q} (ok : s.Steady way) : (s.fillIssue q).Steady way := by
  unfold Dev.fillIssue
  extract_lets x out depth done
  split
  · exact ok
  · extract_lets good s1 src
    have ok1 : s1.Steady way := ok.setTq
    exact ite_steady ok ok1.mk_rest

theorem Dev.Steady.fillComplete {s : Dev} {q seq ue} (ok : s.Steady way) : (s.fillComplete q seq ue).Steady way := by
  unfold Dev.fillComplete
  split
  · exact ok
  · extract_lets len s1 c s2 x s3 s4
    have ok1 : s1.Steady way := ok.giveExt.setRf (by decide)
    have ok2 : c.2.Steady way := ok1.newRun
    have ok3 : s2.Steady way := ok2.creditTouch
    have ok4 : s3.Steady way := ok3.setTq
    have ok5 : s4.Steady way := by
      unfold s4
      split
      · exact ok4.setStored.takeCells
      · exact ok4
    split
    · exact ok
    · split
      · exact ok1.unqueue.release.count.raiseRated
      · exact ite_steady ok1.unqueue.release.count.raiseRated ok5.takeDesc.settle

theorem Dev.Steady.reseqTimeout {s : Dev} {q} (ok : s.Steady way) : (s.reseqTimeout q).Steady way := by
  unfold Dev.reseqTimeout
  split
  · exact ok
  · split
    · exact ok
    · extract_lets s1 n k s2 key r due total
      have ok1 : s1.Steady way := ok.creditTouch
      have ok2 : s2.Steady way := ok1.setNext.count.settle
      exact ite_steady ((ok2.onBasjo ok2.basjo.mk).raise) (ok2.onBasjo ok2.basjo.mk)

theorem Dev.Steady.dropStale {s : Dev} {q d f cause} (ok : s.Steady way) : (s.dropStale q d f cause).Steady way := by
  unfold Dev.dropStale
  exact ok.dropHead.raiseRated

theorem Dev.Steady.staleScan {s : Dev} (ok : s.Steady way) : s.staleScan.Steady way := by
  unfold Dev.staleScan
  split
  · exact ok
  · refine Dev.Steady.foldl (fun _ _ ok2 => ?_) ok.mk_rest
    split
    · split
      · exact ite_steady ok2.dropStale ok2
      · exact ok2
    · exact ok2

theorem Dev.Steady.xmemEnable {s : Dev} {en} (ok : s.Steady way) : (s.xmemEnable en).Steady way := by
  unfold Dev.xmemEnable
  extract_lets on
  split
  · exact ok
  · split
    · exact ite_steady (ok.setRb_true.setRf (by decide)) ok.setRb_true
    · exact ite_steady ok.setRb_true (((ok.setRb_of_ne (by decide)).setReg (by decide)).setReg (by decide))

theorem Dev.Steady.xmemInitDone {s : Dev} {good} (ok : s.Steady way) : (s.xmemInitDone good).Steady way := by
  unfold Dev.xmemInitDone
  split
  · exact ok
  · split
    · exact ((ok.setRb_true.setRf (by decide)).setRf (by decide)).count
    · extract_lets s1
      have ok1 : s1.Steady way := (ok.setRb_true.setRf (by decide)).setRb_of_ne (by decide)
      exact ok1.raise

theorem Dev.Steady.ovfEnable {s : Dev} {en} (ok : s.Steady way) : (s.ovfEnable en).Steady way := by
  unfold Dev.ovfEnable
  exact ite_steady (ok.setRb_of_ne (by decide)) (ite_steady ok (ite_steady ok.setRb_true ok.setRb_true))

theorem Dev.Steady.rsvWrite {s : Dev} {p v} (ok : s.Steady way) : (s.rsvWrite p v).Steady way := by
  unfold Dev.rsvWrite
  extract_lets others
  exact ite_steady ok.setRb_true (ok.setRf (by decide))

theorem Dev.Steady.writeEn {d : Dev} {a addr en} {f : Dev → Dev} (ok : d.Steady way) (hf : ∀ z0, z0.Steady way → (f z0).Steady way) :
    (d.writeEn a addr en f).Steady way := by
  unfold Dev.writeEn
  exact ok.writeField (fun _ ok1 => hf _ ok1)

end

end Sys2Proof.Machine
end

section
/-! SUPPORT. The operations of Bough memory and of rule versions keep what the main die keeps. -/
namespace Sys2Proof.Machine

section
variable {way : Bool}

theorem Dev.Steady.writeBough {s : Dev} {w v} (ok : s.Steady way) : (s.writeBough w v).Steady way := by
  unfold Dev.writeBough
  exact ok.setWord

theorem Dev.Steady.loadWords {s : Dev} {a l n} (ok : s.Steady way) : (s.loadWords a l n).Steady way := by
  induction n generalizing s a l with
  | zero =>
    unfold Dev.loadWords
    exact ok
  | succ n ih =>
    unfold Dev.loadWords
    exact ih ok.writeBough

theorem Dev.Steady.boughLoad {s : Dev} {d mem} (ok : s.Steady way) : (s.boughLoad d mem).Steady way := by
  unfold Dev.boughLoad
  extract_lets count dst n s1
  have ok1 : s1.Steady way := ok.loadWords.dmaFail
  split
  · exact ok.fail
  · split
    · exact ok.count.fail
    · exact CmdRes.ite_steady ((ite_steady ok1 ok1.logCommand).fail) ok.loadWords.done

/-- A commit that is to be begun has no token, or one for a version slot. -/
theorem Groves.Steady.setCommit {g : Groves} {x victim out aged meters meterRuns slow} (ok : g.Steady way)
    (range : way = false → commitInRange x) : (Groves.mk g.fdb victim out aged x meters meterRuns slow).Steady way := by
  cases way with
  | true => exact ok
  | false => exact range rfl

theorem commitInRange_none : commitInRange none := nofun

theorem commitInRange_waits {x : CommitRun} (waits : x.token = none) : commitInRange (some x) := by
  rintro _ ⟨⟩ v cycle token
  rw [waits] at token
  cases token

theorem commitInRange_token {x : CommitRun} {v t : Nat} (token : x.token = some (v, t)) (small : v < 4) : commitInRange (some x) := by
  rintro _ ⟨⟩ w cycle given
  rw [token] at given
  cases given
  exact small

theorem Dev.Steady.commitCmd {s : Dev} {d} (ok : s.Steady way) : (s.commitCmd d).Steady way := by
  unfold Dev.commitCmd
  extract_lets hdr e run
  have begins {x} (range : commitInRange x) : ({ s with groves := { s.groves with commit := x } } : Dev).Steady way :=
    ok.mk_groves (ok.groves.setCommit fun _ => range)
  split
  · exact ok.fail
  · split
    · exact ok.fail
    · split
      · exact ok.done
      · split
        · next v free =>
          have small : v < 4 := List.mem_range.mp (List.mem_of_find?_eq_some free)
          exact (begins (commitInRange_token rfl small)).wait
        · exact CmdRes.ite_steady ok.fail (begins (commitInRange_waits rfl)).wait

theorem Dev.Steady.commitTimeout {s : Dev} (ok : s.Steady way) : (s.commitTimeout).Steady way := by
  unfold Dev.commitTimeout
  have ends : ({ s with groves := { s.groves with commit := none } } : Dev).Steady way :=
    ok.mk_groves (ok.groves.setCommit fun _ => commitInRange_none)
  split
  · exact ite_steady ends.completeLate ok
  · exact ok

/-- The registers of the version slot a commit goes to. -/
theorem Dev.Steady.setVersion {s : Dev} {v off x} (ok : s.Steady way) (small : way = false → v < 4) (inside : off < 0x20) :
    (s.setReg (verReg v off) x).Steady way := by
  cases way with
  | true => exact ok.setReg_true
  | false => exact ok.setReg (verReg_apart (small rfl) inside)

theorem Dev.Steady.commitToken {s : Dev} (ok : s.Steady way) : (s.commitToken).Steady way := by
  unfold Dev.commitToken
  split
  · next x running =>
    split
    · next v t token =>
      extract_lets old src s1 s2 s3 a
      have small : way = false → v < 4 := by
        rintro rfl
        exact ok.groves x running v t token
      have ok1 : s1.Steady way := ok.mk_groves (ok.groves.setCommit fun _ => commitInRange_none)
      have ok2 : s2.Steady way := by
        unfold s2
        clear_value old
        split
        · exact ok1.setRf (by decide)
        · exact ok1
      have ok3 : s3.Steady way := ((((ok2.setVersion small (by decide)).setVersion small (by decide)).setVersion small (by decide)).setVersion
        small (by decide)).setVersion small (by decide)
      exact ite_steady ok ok3.completeLate.raise
    · exact ok
  · exact ok

theorem Dev.Steady.versionRetire {s : Dev} {v} (ok : s.Steady way) (small : v < 4) : (s.versionRetire v).Steady way := by
  unfold Dev.versionRetire
  extract_lets label s1 src
  have ok1 : s1.Steady way := (ok.setReg (verReg_apart small (by decide))).logHw.raise
  split
  · exact ok
  · split
    · next x _ => exact ite_steady (ok1.mk_groves (ok1.groves.setCommit fun _ => commitInRange_token rfl small)) ok1
    · exact ok1

theorem Dev.Steady.groveCommand {s : Dev} {d unit op mask} {body : Dev → CmdRes} {kind} (ok : s.Steady way)
    (hbody : ∀ z0, z0.Steady way → (body z0).Steady way) : (s.groveCommand d unit op mask body kind).Steady way := by
  unfold Dev.groveCommand
  exact ok.command (fun _ ok1 => hbody _ ok1)

end

end Sys2Proof.Machine
end

section
/-! SUPPORT. The operations of the forwarding database keep what the main die keeps. -/
namespace Sys2Proof.Machine

section
variable {way : Bool}

theorem Groves.Steady.setFdb {g : Groves} {k x victim out aged meters meterRuns slow} (ok : g.Steady way) :
    (Groves.mk (g.fdb.put none k x) victim out aged g.commit meters meterRuns slow).Steady way := by
  cases way with
  | true => exact Store.wf_put (fun _ => none) _ _ _ ok
  | false => exact ok

theorem Dev.Steady.setFdb {s : Dev} {g i e} (ok : s.Steady way) : (s.setFdb g i e).Steady way := by
  unfold Dev.setFdb
  extract_lets was is src s1 s2
  have ok1 : s1.Steady way := ok.mk_groves ok.groves.setFdb
  have ok2 : s2.Steady way := ok1.setRf (by decide)
  exact ite_steady (ok2.setRf (by decide)) ok2

theorem Dev.Steady.meetHold {s : Dev} {g i} (ok : s.Steady way) : (s.meetHold g i).Steady way := by
  unfold Dev.meetHold
  split
  · exact ite_steady ok (ite_steady ok.setFdb.raise ok.setFdb)
  · exact ok

theorem Dev.Steady.parityFound {s : Dev} {g cause l} (ok : s.Steady way) : (s.parityFound g cause l).Steady way := by
  unfold Dev.parityFound
  split
  · exact ok
  · extract_lets s1 key r
    have ok3 : s1.Steady way := (Dev.Steady.foldl (fun _ _ ok4 => ok4.setFdb.countRow) ok).count
    exact (ok3.onBasjo ok3.basjo.mk).raiseRated

theorem Dev.Steady.fdbMeet {s : Dev} {g vid mac bad} (ok : s.Steady way) : (s.fdbMeet g vid mac bad).2.Steady way := by
  unfold Dev.fdbMeet
  split
  · exact ok
  · split
    · extract_lets s1
      have ok1 : s1.Steady way := ite_steady ok.meetHold ok
      exact ok1
    · exact ok

theorem Dev.Steady.relocate {s : Dev} {g l f} (ok : s.Steady way) : (s.relocate g l f).1.Steady way := by
  induction l generalizing s f with
  | nil =>
    unfold Dev.relocate
    exact ok
  | cons v l ih =>
    unfold Dev.relocate
    exact ih ok.setFdb.setFdb.count

theorem Dev.Steady.makeRoom {s : Dev} {g vid mac} (ok : s.Steady way) : (s.makeRoom g vid mac).1.Steady way := by
  unfold Dev.makeRoom
  extract_lets b c src s1
  have ok1 : src.Steady way := ok.groves
  have ok2 : s1.Steady way := ok.mk_groves ok1.mk
  split
  · exact ok
  · split
    · exact ok
    · split
      · extract_lets r
        have ok3 : r.1.Steady way := ok2.relocate
        exact ok3
      · exact ok2

theorem Dev.Steady.learnEvent {s : Dev} {g cause e} (ok : s.Steady way) : (s.learnEvent g cause e).Steady way := by
  unfold Dev.learnEvent
  exact ite_steady ok.raise ok

theorem Dev.Steady.insert {s : Dev} {g e local_} (ok : s.Steady way) : (s.insert g e local_).1.Steady way := by
  unfold Dev.insert
  extract_lets r
  have ok1 : r.1.Steady way := ok.makeRoom
  split
  · exact ok1.setFdb.learnEvent
  · dsimp only
    exact ok1.count.raiseRated

theorem Dev.Steady.stashRelocate {s : Dev} {g} (ok : s.Steady way) : (s.stashRelocate g).Steady way := by
  unfold Dev.stashRelocate
  extract_lets target
  split
  · split
    · exact ok.setFdb.setFdb
    · exact ok
  · exact ok

theorem Dev.Steady.setOutgoing {s : Dev} {g l} (ok : s.Steady way) : (s.setOutgoing g l).Steady way := by
  unfold Dev.setOutgoing
  exact ok.mk_groves ok.groves.mk

theorem Dev.Steady.sendOwn {s : Dev} {g m} (ok : s.Steady way) : (s.sendOwn g m).Steady way := by
  unfold Dev.sendOwn
  exact ite_steady ok ok.setOutgoing

theorem Dev.Steady.dampen {s : Dev} {i old} (ok : s.Steady way) : (s.dampen i old).Steady way := by
  unfold Dev.dampen
  split
  · exact ite_steady ok (ite_steady ok.setFdb ok.setFdb.sendOwn.raise)
  · exact ok

theorem Dev.Steady.applyLearn {s : Dev} {g m local_} (ok : s.Steady way) : (s.applyLearn g m local_).1.Steady way := by
  unfold Dev.applyLearn
  split
  · extract_lets r
    have ok1 : r.1.Steady way := ok.insert
    exact ok1
  · extract_lets s1 s2
    have ok2 : s1.Steady way := ok.meetHold
    have ok3 : s2.Steady way := ok2.count
    split
    · exact ok2
    · split
      · exact ok2
      · split
        · split
          · exact ok3.setFdb.raise
          · exact ok3
        · split
          · extract_lets s3 s4
            have ok4 : s3.Steady way := ok2.setFdb
            have ok5 : s4.Steady way := ok4.count
            split
            · exact ok4
            · split
              · exact ok5.raise.dampen
              · exact ok5
          · exact ok2.count

theorem Dev.Steady.sourceLearn {s : Dev} {g vid mac port stamp l} (ok : s.Steady way) :
    (s.sourceLearn g vid mac port stamp l).Steady way := by
  unfold Dev.sourceLearn
  extract_lets m r
  have ok1 : r.1.Steady way := ok.applyLearn
  split
  · exact ok
  · exact ok.count.raiseRated
  · exact ite_steady ok1 (ite_steady ok.count ok1.sendOwn)

theorem Dev.Steady.forwardMsg {s : Dev} {g m} (ok : s.Steady way) : (s.forwardMsg g m).Steady way := by
  unfold Dev.forwardMsg
  exact ite_steady ok ok.setOutgoing

theorem Dev.Steady.takeMsg {s : Dev} {g hold} (ok : s.Steady way) : ∀ t, (s.takeMsg g hold) = some t → t.2.Steady way := by
  unfold Dev.takeMsg
  extract_lets p
  intro t taken
  split at taken
  · split at taken
    · cases taken
      exact ok.setOutgoing
    · cases taken
  · cases taken

theorem Dev.Steady.applyHold {s : Dev} {g m} (ok : s.Steady way) : (s.applyHold g m).Steady way := by
  unfold Dev.applyHold
  split
  · split
    · exact ok.setFdb
    · exact ok
  · exact ok.insert

theorem Dev.Steady.ageScan {s : Dev} {g bad} (ok : s.Steady way) : (s.ageScan g bad).Steady way := by
  unfold Dev.ageScan
  extract_lets s1
  have ok1 : s1.Steady way := ok.parityFound
  refine Dev.Steady.foldl (fun _ _ ok2 => ?_) ok1
  extract_lets s2
  have ok3 : s2.Steady way := ok2.meetHold
  split
  · exact ite_steady ok3 (ite_steady ok3.setFdb.count.learnEvent ok3.setFdb)
  · exact ok3

theorem Dev.Steady.ageingTick {s : Dev} {bad} (ok : s.Steady way) : (s.ageingTick bad).Steady way := by
  unfold Dev.ageingTick
  extract_lets p src
  have ok1 : src.Steady way := ok.groves
  exact ite_steady ok (Dev.Steady.foldl (fun _ _ ok2 => ok2.ageScan) (ok.mk_groves ok1.mk))

theorem Dev.Steady.dampSweep {s : Dev} {g} (ok : s.Steady way) : (s.dampSweep g).Steady way := by
  unfold Dev.dampSweep
  refine Dev.Steady.foldl (fun _ _ ok1 => ?_) ok
  extract_lets s1
  have ok2 : s1.Steady way := ok1.meetHold
  split
  · exact ite_steady ok2.setFdb ok2
  · exact ok2

theorem Dev.Steady.fdbRemove {s : Dev} {g vid mac} (ok : s.Steady way) : (s.fdbRemove g vid mac).Steady way := by
  unfold Dev.fdbRemove
  split
  · exact ok.setFdb
  · exact ok

theorem Dev.Steady.fdbInstall {s : Dev} {g e} (ok : s.Steady way) : (s.fdbInstall g e).1.Steady way := by
  unfold Dev.fdbInstall
  split
  · exact ok.setFdb
  · exact ok.insert

theorem Dev.Steady.fdbAdd {s : Dev} {d} (ok : s.Steady way) : (s.fdbAdd d).Steady way := by
  unfold Dev.fdbAdd
  extract_lets vid mac group dest e r had s1
  have ok1 : r.1.Steady way := by
    refine Dev.Steady.foldl_fst (fun _ _ ok2 => ?_) ok
    extract_lets x
    have ok3 : x.1.Steady way := ok2.fdbInstall
    exact ok3
  have ok4 : s1.Steady way := Dev.Steady.foldl (fun _ _ ok5 => ok5.fdbRemove) ok1
  exact CmdRes.ite_steady ok.fail (CmdRes.ite_steady ok1.done ((ite_steady ok4.logCommand ok4).fail))

theorem Dev.Steady.fdbDel {s : Dev} {d} (ok : s.Steady way) : (s.fdbDel d).Steady way := by
  unfold Dev.fdbDel
  extract_lets vid mac
  exact CmdRes.ite_steady ok.fail ((Dev.Steady.foldl (fun _ _ ok1 => ok1.fdbRemove) ok).done)

theorem Dev.Steady.fdbFlush {s : Dev} {d} (ok : s.Steady way) : (s.fdbFlush d).Steady way := by
  unfold Dev.fdbFlush
  extract_lets hits r
  have ok1 : r.1.Steady way := by
    refine Dev.Steady.foldl_fst (fun _ _ ok2 => ?_) ok
    refine Dev.Steady.foldl_fst (fun _ _ ok3 => ?_) ok2
    split
    · split
      · exact ok3.setFdb
      · exact ok3
    · exact ok3
  exact ok1.done

theorem Dev.Steady.fdbRead {s : Dev} {d} (ok : s.Steady way) : (s.fdbRead d).Steady way := by
  unfold Dev.fdbRead
  split
  · exact ok.fail
  · exact ok.done

theorem Dev.Steady.hostWrite {s : Dev} {h addr l} (ok : s.Steady way) : (s.hostWrite h addr l).Steady way := by
  unfold Dev.hostWrite
  exact ok.onBasjo ok.basjo.store

theorem Dev.Steady.fdbDump {s : Dev} {d err} (ok : s.Steady way) : (s.fdbDump d err).Steady way := by
  unfold Dev.fdbDump
  extract_lets n g es
  exact CmdRes.ite_steady ok.fail (CmdRes.ite_steady ok.dmaFail.fail ok.hostWrite.done)

end

end Sys2Proof.Machine
end

section
/-! SUPPORT. The operations of the token buckets keep what the main die keeps. -/
namespace Sys2Proof.Machine

section
variable {way : Bool}

theorem Dev.Steady.setMeterRun {s : Dev} {g m r} (ok : s.Steady way) : (s.setMeterRun g m r).Steady way := by
  unfold Dev.setMeterRun
  exact ok.mk_groves ok.groves.mk

theorem Dev.Steady.meterDebit {s : Dev} {g m colour len} (ok : s.Steady way) : (s.meterDebit g m colour len).Steady way := by
  unfold Dev.meterDebit
  extract_lets r
  exact ok.setMeterRun

theorem Dev.Steady.meterSet {s : Dev} {d} (ok : s.Steady way) : (s.meterSet d).Steady way := by
  unfold Dev.meterSet
  extract_lets x rate m src s1
  have ok1 : src.Steady way := ok.groves
  have ok2 : s1.Steady way := ok.mk_groves ok1.mk
  exact CmdRes.ite_steady ok.fail ((Dev.Steady.foldl (fun _ _ ok3 => ok3.setMeterRun) ok2).done)

theorem Dev.Steady.meterRead {s : Dev} {d} (ok : s.Steady way) : (s.meterRead d).Steady way := by
  unfold Dev.meterRead
  extract_lets r
  exact CmdRes.ite_steady ok.done ok.done

theorem Dev.Steady.slowFill {s : Dev} {g c} (ok : s.Steady way) : (s.slowFill g c).Steady way := by
  unfold Dev.slowFill
  exact ok.mk_groves ok.groves.mk

theorem Dev.Steady.slowDrop {s : Dev} {g c p} (ok : s.Steady way) : (s.slowDrop g c p).Steady way := by
  unfold Dev.slowDrop
  exact ok.count.raiseRated

theorem Dev.Steady.slowPolice {s : Dev} {g c p} (ok : s.Steady way) : (s.slowPolice g c p).1.Steady way := by
  unfold Dev.slowPolice
  extract_lets t src
  have ok1 : src.Steady way := ok.groves
  split
  · exact (ok.mk_groves ok1.mk).count
  · exact ok.slowDrop

end

end Sys2Proof.Machine
end

section
/-! SUPPORT. The operations of the key slots keep what the main die keeps. -/
namespace Sys2Proof.Machine

section
variable {way : Bool}

theorem Burl.Steady.setSlot {b : Burl} {n k liveRoot uses serial changes reclaims job scs sas clears generates rootTries fuseLife fuseTamper
    fuseRoots tamperLatch tamperAt} (ok : b.Steady way) : (Burl.mk (b.slots.put .empty n k) liveRoot uses serial changes reclaims job scs sas
      clears generates rootTries fuseLife fuseTamper fuseRoots tamperLatch tamperAt).Steady way :=
  fun e => Store.wf_put (fun _ => KeySlot.empty) _ _ _ (ok e)

theorem Dev.Steady.setSlot {s : Dev} {n k} (ok : s.Steady way) : (s.setSlot n k).Steady way := by
  unfold Dev.setSlot
  extract_lets live was src s1
  have ok1 : s1.Steady way := ok.mk_burl ok.burl.setSlot
  exact ok1.setReg (by decide)

theorem Dev.Steady.keyEvent {s : Dev} {cause n} (ok : s.Steady way) : (s.keyEvent cause n).Steady way := by
  unfold Dev.keyEvent
  exact ok.raise

theorem Dev.Steady.hwSlot {s : Dev} {n k} (ok : s.Steady way) : (s.hwSlot n k).Steady way := by
  unfold Dev.hwSlot
  exact ok.log.setSlot

theorem Dev.Steady.reclaim {s : Dev} {n} (ok : s.Steady way) : (s.reclaim n).Steady way := by
  unfold Dev.reclaim
  exact ok.hwSlot.count.raiseRated

theorem Dev.Steady.reclaimIfOrphan {s : Dev} {n} (ok : s.Steady way) : (s.reclaimIfOrphan n).Steady way := by
  unfold Dev.reclaimIfOrphan
  exact ite_steady ok.reclaim ok

theorem Dev.Steady.refuseUse {s : Dev} {n} (ok : s.Steady way) : (s.refuseUse n).Steady way := by
  unfold Dev.refuseUse
  exact ok.count.reclaimIfOrphan

theorem Dev.Steady.beginUse {s : Dev} {owner n sa ends} (ok : s.Steady way) : (s.beginUse owner n sa ends).Steady way := by
  unfold Dev.beginUse
  exact ok.mk_burl ok.burl.mk

theorem Dev.Steady.saCleared {s : Dev} (ok : s.Steady way) : s.saCleared.Steady way := by
  unfold Dev.saCleared
  exact Dev.Steady.foldl (fun _ _ ok1 => ite_steady ((ok1.mk_burl ok1.burl.mk).completeLate) ok1) ok

theorem Dev.Steady.endUse {s : Dev} {owner} (ok : s.Steady way) : (s.endUse owner).Steady way := by
  unfold Dev.endUse
  exact (ok.mk_burl ok.burl.mk).saCleared

end

end Sys2Proof.Machine
end

section
/-! SUPPORT. The operations of Bark keep what the main die keeps. -/
namespace Sys2Proof.Machine

section
variable {way : Bool}

theorem Dev.Steady.setAnomaly {s : Dev} {z a} (ok : s.Steady way) : (s.setAnomaly z a).Steady way := by
  unfold Dev.setAnomaly
  extract_lets th deny new up1 up2 start a1 src s1 s2
  have ok1 : s1.Steady way := ok.mk_rest
  have ok2 : s2.Steady way := ite_steady ok1.raise ok1
  exact ite_steady ok2.raise ok2

theorem Dev.Steady.countDeny {s : Dev} {z} (ok : s.Steady way) : (s.countDeny z).Steady way := by
  unfold Dev.countDeny
  extract_lets a
  exact ok.setAnomaly

theorem Dev.Steady.countInsert {s : Dev} {z} (ok : s.Steady way) : (s.countInsert z).Steady way := by
  unfold Dev.countInsert
  extract_lets a
  exact ok.setAnomaly

theorem Dev.Steady.setConn {s : Dev} {i c} (ok : s.Steady way) : (s.setConn i c).Steady way := by
  unfold Dev.setConn
  exact ok.mk_rest

theorem Dev.Steady.connPressure {s : Dev} (ok : s.Steady way) : s.connPressure.Steady way := by
  unfold Dev.connPressure
  extract_lets used cap src
  exact ite_steady ok.mk_rest.raise (ite_steady ok.mk_rest.raise ok)

theorem Dev.Steady.connGauge {s : Dev} {c up} (ok : s.Steady way) : (s.connGauge c up).Steady way := by
  unfold Dev.connGauge
  extract_lets n z add
  exact ((ok.setRf (by decide)).setRf (by decide)).connPressure

theorem Dev.Steady.diagEvent {s : Dev} {cause c} (ok : s.Steady way) : (s.diagEvent cause c).Steady way := by
  unfold Dev.diagEvent
  exact ite_steady ok.raise ok.raise

theorem Dev.Steady.setCacheSet {s : Dev} {i l} (ok : s.Steady way) : (s.setCacheSet i l).Steady way := by
  unfold Dev.setCacheSet
  exact ok.mk_rest

theorem Dev.Steady.uncache {s : Dev} {i} (ok : s.Steady way) : (s.uncache i).Steady way := by
  unfold Dev.uncache
  exact ok.setCacheSet

theorem Dev.Steady.touchCache {s : Dev} {i dirty} (ok : s.Steady way) : (s.touchCache i dirty).Steady way := by
  unfold Dev.touchCache
  split
  · exact ok
  · extract_lets was
    exact ok.setCacheSet

theorem Dev.Steady.removeConn {s : Dev} {i} (ok : s.Steady way) : (s.removeConn i).Steady way := by
  unfold Dev.removeConn
  split
  · exact ok
  · extract_lets s1
    have ok1 : s1.Steady way := ok.uncache.setConn.connGauge
    exact ite_steady ok1.diagEvent (ite_steady ok1.diagEvent ok1)

theorem Dev.Steady.cacheError {s : Dev} {bucket slot} (ok : s.Steady way) : (s.cacheError bucket slot).Steady way := by
  unfold Dev.cacheError
  split
  · exact ok
  · extract_lets s1
    have ok1 : s1.Steady way := ite_steady ok.removeConn ok.uncache
    exact ok1.count.raiseRated.countUe.eccTrend

theorem Dev.Steady.tableError {s : Dev} {bucket slots} (ok : s.Steady way) : (s.tableError bucket slots).Steady way := by
  unfold Dev.tableError
  extract_lets hit s1
  have ok1 : s1.Steady way := Dev.Steady.foldl (fun _ _ ok2 => ok2.removeConn) ok
  exact ok1.count.raiseRated.countUe.eccTrend

theorem Dev.Steady.insertFailed {s : Dev} {cause zs zd} (ok : s.Steady way) : (s.insertFailed cause zs zd).Steady way := by
  unfold Dev.insertFailed
  exact ok.count.raiseRated

theorem Dev.Steady.insertConn {s : Dev} {bucket c} (ok : s.Steady way) : (s.insertConn bucket c).1.Steady way := by
  unfold Dev.insertConn
  extract_lets quota queue src s1
  have ok1 : s1.Steady way := ok.mk_rest
  split
  · exact ok.insertFailed
  · split
    · exact ok1.insertFailed
    · split
      · exact ok1.insertFailed
      · extract_lets s2 s3 s4 s5
        have ok2 : s2.Steady way := ok1.removeConn
        have ok3 : s3.Steady way := by
          unfold s3
          split
          · exact ok2.removeConn
          · split
            · split
              · exact ite_steady ok2.removeConn ok2
              · exact ok2
            · exact ok2
        have ok4 : s4.Steady way := ok3.setConn.touchCache.connGauge.count
        have ok5 : s5.Steady way := ok4.countInsert
        exact ite_steady ok5.diagEvent ok5

theorem Dev.Steady.connUpdate {s : Dev} {i fromA key vid} (ok : s.Steady way) : (s.connUpdate i fromA key vid).Steady way := by
  unfold Dev.connUpdate
  split
  · exact ok
  · exact ite_steady ok (ite_steady ok.setConn.touchCache.diagEvent ok.setConn.touchCache)

theorem Dev.Steady.limiterDebit {s : Dev} {i len} (ok : s.Steady way) : (s.limiterDebit i len).Steady way := by
  unfold Dev.limiterDebit
  exact ok.mk_rest

theorem Dev.Steady.logCandidate {s : Dev} {id cls cause b} (ok : s.Steady way) : (s.logCandidate id cls cause b).Steady way := by
  unfold Dev.logCandidate
  extract_lets r due src a
  exact ite_steady ok.mk_rest ok.mk_rest.raise

theorem Dev.Steady.barkLog {s : Dev} {cause v} (ok : s.Steady way) : (s.barkLog cause v).Steady way := by
  unfold Dev.barkLog
  exact ok.logCandidate

theorem Dev.Steady.ctEnable {s : Dev} {en} (ok : s.Steady way) : (s.ctEnable en).Steady way := by
  unfold Dev.ctEnable
  extract_lets on used r n src src1 s1
  have ok1 : s1.Steady way := ok.mk_rest
  split
  · exact ok
  · split
    · exact ite_steady ok1.setRb_true.setRb_true ok.setRb_true
    · exact ite_steady (((ok.setRb_of_ne (by decide)).setRb (by decide)).setReg (by decide)) ok.setRb_true

theorem Dev.Steady.bumpGen {s : Dev} (ok : s.Steady way) : s.bumpGen.Steady way := by
  unfold Dev.bumpGen
  extract_lets s1 src
  have ok1 : s1.Steady way := ok.setRf_of_ne (by decide)
  exact ok1.mk_rest

theorem Dev.Steady.genWake {s : Dev} {slept} (ok : s.Steady way) : (s.genWake slept).Steady way := by
  unfold Dev.genWake
  exact ite_steady ok (ite_steady ok.bumpGen ok.mk_rest)

theorem Dev.Steady.connFlush {s : Dev} {d} (ok : s.Steady way) : (s.connFlush d).Steady way := by
  unfold Dev.connFlush
  extract_lets all pair rule src hits gone
  split
  · exact ok.fail
  · split
    · exact CmdRes.ite_steady ok.bumpGen.done ok.mk_rest.setRb_true.wait
    · exact (Dev.Steady.foldl (fun _ _ ok3 => ok3.removeConn) ok).done

theorem Dev.Steady.ctInitDone {s : Dev} (ok : s.Steady way) : s.ctInitDone.Steady way := by
  unfold Dev.ctInitDone
  split
  · exact ok
  · extract_lets s1
    have ok2 : s1.Steady way := Dev.Steady.foldl (fun _ _ ok3 => ok3.removeConn) ok
    exact ((ok2.setRb (by decide)).setReg (by decide)).connPressure

theorem Dev.Steady.connSweep {s : Dev} (ok : s.Steady way) : s.connSweep.Steady way := by
  unfold Dev.connSweep
  extract_lets bucket s1 src s2 src1 src2
  have ok1 : s1.Steady way := by
    refine Dev.Steady.foldl (fun _ _ ok2 => ?_) ok
    split
    · exact ite_steady ok2.removeConn ok2
    · exact ok2
  have ok3 : s2.Steady way := ok1.mk_rest
  have ok4 : src1.Steady way := ok3.bumpGen
  split
  · exact ok3
  · split
    · exact ok4.mk_rest
    · split
      · exact (ok4.mk_rest.setRb (by decide)).completeLate
      · exact ok3

theorem Dev.Steady.connDump {s : Dev} {d err} (ok : s.Steady way) : (s.connDump d err).Steady way := by
  unfold Dev.connDump
  extract_lets n l
  exact CmdRes.ite_steady ok.fail (CmdRes.ite_steady ok.dmaFail.fail ok.hostWrite.done)

end

end Sys2Proof.Machine
end

section
/-! SUPPORT. The operations of the sleep ballot keep what the main die keeps. -/
namespace Sys2Proof.Machine

section
variable {way : Bool}

theorem Dev.Steady.onTapState {s : Dev} {f} (ok : s.Steady way) : (s.onTapState f).Steady way := by
  unfold Dev.onTapState
  exact ok.mk_rest

theorem Dev.Steady.setBstate {s : Dev} {b} (ok : s.Steady way) : (s.setBstate b).Steady way := by
  unfold Dev.setBstate
  exact ok.setRf (by decide)

theorem Dev.Steady.wakeSleep {s : Dev} {cause a b} (ok : s.Steady way) : (s.wakeSleep cause a b).Steady way := by
  unfold Dev.wakeSleep
  exact ok.raise

theorem Dev.Steady.changeMode {s : Dev} {origin new} (ok : s.Steady way) : (s.changeMode origin new).Steady way := by
  unfold Dev.changeMode
  extract_lets old s1
  have ok1 : s1.Steady way := ok.setReg (by decide)
  exact ok1.log.wakeSleep

theorem Dev.Steady.storeVotes {s : Dev} {old new} (ok : s.Steady way) : (s.storeVotes old new).Steady way := by
  unfold Dev.storeVotes
  extract_lets s1
  have ok1 : s1.Steady way := Dev.Steady.foldl (fun _ _ ok2 => ok2.setRb (by decide)) ok
  exact ((ok1.setReg (by decide)).setReg (by decide)).setRf (by decide)

theorem Dev.Steady.ballotAbort {s : Dev} {a} (ok : s.Steady way) : (s.ballotAbort a).Steady way := by
  unfold Dev.ballotAbort
  exact ok.setBstate.wakeSleep

theorem Dev.Steady.startCounting {s : Dev} {turned sole} (ok : s.Steady way) : (s.startCounting turned sole).Steady way := by
  unfold Dev.startCounting
  extract_lets src ms s1 s2
  have ok1 : s1.Steady way := (ok.setReg (by decide)).setReg (by decide)
  have ok2 : s2.Steady way := ok1.onTapState
  exact ok2.setBstate.wakeSleep

theorem Dev.Steady.trackSole {s : Dev} {new} (ok : s.Steady way) : (s.trackSole new).Steady way := by
  unfold Dev.trackSole
  split
  · exact ite_steady ok ok.onTapState
  · exact ite_steady ok ok.onTapState

theorem Dev.Steady.ballot {s : Dev} (ok : s.Steady way) : s.ballot.Steady way := by
  unfold Dev.ballot
  extract_lets old new sole s1 rose runs
  have ok1 : s1.Steady way := (ite_steady ok ok.storeVotes).trackSole
  split
  · exact ite_steady ok1.startCounting ok1
  · exact ite_steady ok1.setBstate (ite_steady ok1.ballotAbort ok1)
  · exact ite_steady ok1 ok1.setRb_true

theorem Dev.Steady.nmRestart {s : Dev} {hit} (ok : s.Steady way) : (s.nmRestart hit).Steady way := by
  unfold Dev.nmRestart
  extract_lets l
  exact ite_steady ok ok.onTapState.ballot

theorem Dev.Steady.confirmWake {s : Dev} {inMap} (ok : s.Steady way) : (s.confirmWake inMap).Steady way := by
  unfold Dev.confirmWake
  exact ite_steady ok.onTapState ok

theorem Dev.Steady.wakeFrame {s : Dev} {p udp} (ok : s.Steady way) : (s.wakeFrame p udp).Steady way := by
  unfold Dev.wakeFrame
  extract_lets s1
  have ok1 : s1.Steady way := ok.confirmWake
  split
  · exact ok1.nmRestart
  · exact ok1

theorem Dev.Steady.wakeCan {s : Dev} {c ide id} (ok : s.Steady way) : (s.wakeCan c ide id).Steady way := by
  unfold Dev.wakeCan
  extract_lets s1
  have ok1 : s1.Steady way := ok.confirmWake
  exact ok1.nmRestart

theorem Dev.Steady.wakeLin {s : Dev} {l id} (ok : s.Steady way) : (s.wakeLin l id).Steady way := by
  unfold Dev.wakeLin
  extract_lets s1
  have ok1 : s1.Steady way := ok.confirmWake
  exact ok1.nmRestart

end

end Sys2Proof.Machine
end

section
/-! SUPPORT. The operations of Cambium keep what the main die keeps. -/
namespace Sys2Proof.Machine

section
variable {way : Bool}

theorem Dev.Steady.onCam {s : Dev} {f} (ok : s.Steady way) : (s.onCam f).Steady way := by
  unfold Dev.onCam
  exact ok.mk_rest

theorem Dev.Steady.writeBit {s : Dev} {a addr i} {f : Dev → Dev} (ok : s.Steady way) (hf : ∀ z0, z0.Steady way → (f z0).Steady way) :
    (s.writeBit a addr i f).Steady way := by
  unfold Dev.writeBit
  exact ok.writeOwn (fun _ ok1 => hf _ ok1)

theorem Dev.Steady.pin {s : Dev} {name level} (ok : s.Steady way) : (s.pin name level).Steady way := by
  unfold Dev.pin
  exact ok.mk_rest

theorem Dev.Steady.timeEvent {s : Dev} {unit cause a b} (ok : s.Steady way) : (s.timeEvent unit cause a b).Steady way := by
  unfold Dev.timeEvent
  exact ok.raise

theorem Dev.Steady.switchEvent {s : Dev} {cause} (ok : s.Steady way) : (s.switchEvent cause).Steady way := by
  unfold Dev.switchEvent
  exact ok.raise

theorem Dev.Steady.coarseEdge {s : Dev} (ok : s.Steady way) : s.coarseEdge.Steady way := by
  unfold Dev.coarseEdge
  extract_lets c n r r1 s1
  have ok1 : s1.Steady way := ite_steady (ok.setRb (by decide)) ok
  exact ite_steady ok.onCam ok1.onCam

theorem Dev.Steady.pllLoss {s : Dev} (ok : s.Steady way) : s.pllLoss.Steady way := by
  unfold Dev.pllLoss
  exact ite_steady ok ((((ok.setRb (by decide)).setRb_true).onCam).timeEvent)

theorem Dev.Steady.pllRelock {s : Dev} (ok : s.Steady way) : s.pllRelock.Steady way := by
  unfold Dev.pllRelock
  exact ite_steady ok ok.setRb_true.onCam.timeEvent

theorem Dev.Steady.rawReseed {s : Dev} (ok : s.Steady way) : s.rawReseed.Steady way := by
  unfold Dev.rawReseed
  split
  · exact ok
  · exact ite_steady ok ok.onCam.timeEvent

theorem Dev.Steady.setPps {s : Dev} {k v} (ok : s.Steady way) : (s.setPps k v).Steady way := by
  unfold Dev.setPps
  exact ok.onCam

theorem Dev.Steady.ppsPin {s : Dev} {k level} (ok : s.Steady way) : (s.ppsPin k level).Steady way := by
  unfold Dev.ppsPin
  exact ite_steady ok ok.pin

theorem Dev.Steady.ppsLow {s : Dev} (ok : s.Steady way) : s.ppsLow.Steady way := by
  unfold Dev.ppsLow
  refine Dev.Steady.foldl (fun _ _ ok1 => ?_) ok
  split
  · exact ok1.ppsPin.setPps
  · exact ok1

theorem Dev.Steady.ppsResume {s : Dev} (ok : s.Steady way) : s.ppsResume.Steady way := by
  unfold Dev.ppsResume
  refine Dev.Steady.foldl (fun _ _ ok1 => ?_) ok
  split
  · exact ite_steady ok1 ok1.setPps
  · exact ok1

theorem Dev.Steady.timeStop {s : Dev} (ok : s.Steady way) : s.timeStop.Steady way := by
  unfold Dev.timeStop
  exact ok.ppsLow.onCam

theorem Dev.Steady.timeResume {s : Dev} (ok : s.Steady way) : s.timeResume.Steady way := by
  unfold Dev.timeResume
  extract_lets x
  have ok1 : x.Steady way := ok.rawReseed
  exact ite_steady ok1.ppsResume ok1

theorem Dev.Steady.ppsEnable {s : Dev} {k en} (ok : s.Steady way) (small : k < 4) : (s.ppsEnable k en).Steady way := by
  unfold Dev.ppsEnable
  have other : ppsReg k 0 ≠ 0x700000 := by
    unfold ppsReg camReg
    omega
  split
  · exact ok
  · split
    · extract_lets s1
      have ok1 : s1.Steady way := by
        unfold s1
        split
        · exact ok.ppsPin
        · exact ok
      exact (ok1.setRb_of_ne other).setPps
    · extract_lets p w
      exact ite_steady ok.setRb_true.setPps ok.setRb_true

theorem Dev.Steady.ppsEdge {s : Dev} {k} (ok : s.Steady way) : (s.ppsEdge k).Steady way := by
  unfold Dev.ppsEdge
  split
  · exact ok
  · exact ite_steady ok ok.setPps.ppsPin

theorem Dev.Steady.ppsRecompute {s : Dev} (ok : s.Steady way) : s.ppsRecompute.Steady way := by
  unfold Dev.ppsRecompute
  split
  · exact ok
  · refine Dev.Steady.foldl (fun _ _ ok2 => ?_) ok
    split
    · exact (ite_steady ok2.ppsPin ok2).setPps
    · exact ok2

theorem Dev.Steady.setOff {s : Dev} {off} (ok : s.Steady way) : (s.setOff off).Steady way := by
  unfold Dev.setOff
  exact ok.onCam.setRb (by decide)

theorem Dev.Steady.liveCheck {s : Dev} (ok : s.Steady way) : s.liveCheck.Steady way := by
  unfold Dev.liveCheck
  exact ite_steady ok ok.setRb_true.onCam.setOff

theorem Dev.Steady.bothLostFall {s : Dev} (ok : s.Steady way) : s.bothLostFall.Steady way := by
  unfold Dev.bothLostFall
  exact ite_steady ((ok.setRb (by decide)).timeEvent) ok

theorem Dev.Steady.bothLostRise {s : Dev} (ok : s.Steady way) : s.bothLostRise.Steady way := by
  unfold Dev.bothLostRise
  exact ite_steady ok.setRb_true.timeEvent ok

theorem Dev.Steady.wtSwitch {s : Dev} {cause} (ok : s.Steady way) : (s.wtSwitch cause).Steady way := by
  unfold Dev.wtSwitch
  extract_lets n off
  split
  · exact (((ok.setRf (by decide)).ppsRecompute).switchEvent).liveCheck
  · exact ite_steady ok.switchEvent (((ok.setRf (by decide)).setOff).switchEvent)

theorem Dev.Steady.slewComplete {s : Dev} (ok : s.Steady way) : s.slewComplete.Steady way := by
  unfold Dev.slewComplete
  exact ite_steady ok.setOff.switchEvent ok

theorem Dev.Steady.setDom {s : Dev} {d st hw} (ok : s.Steady way) : (s.setDom d st hw).Steady way := by
  unfold Dev.setDom
  extract_lets old s1 s2 s3
  have ok1 : s1.Steady way := ok.setRf (by decide)
  have ok2 : s2.Steady way := ite_steady ok1.onCam ok1
  have ok3 : s3.Steady way := ok2.timeEvent
  exact ite_steady ok ok3.bothLostFall

theorem Dev.Steady.syncTimer {s : Dev} {d on} (ok : s.Steady way) : (s.syncTimer d on).Steady way := by
  unfold Dev.syncTimer
  exact ok.onCam.setRb (by decide)

theorem Dev.Steady.syncReceipt {s : Dev} {p etype ptp} (ok : s.Steady way) : (s.syncReceipt p etype ptp).Steady way := by
  unfold Dev.syncReceipt
  exact ite_steady ok (Dev.Steady.foldl (fun _ _ ok1 => ite_steady ok1.syncTimer ok1) ok)

theorem Dev.Steady.domEnable {s : Dev} {d en} (ok : s.Steady way) (small : d < 2) : (s.domEnable d en).Steady way := by
  unfold Dev.domEnable
  have other : domReg d 0 ≠ 0x700000 := by
    unfold domReg camReg
    omega
  split
  · exact ok
  · exact ite_steady ok.setRb_true.setDom ((ok.setRb_of_ne other).syncTimer).setDom

theorem Dev.Steady.domCommit {s : Dev} {d} (ok : s.Steady way) : (s.domCommit d).Steady way := by
  unfold Dev.domCommit
  extract_lets t refuse live off s1
  have ok1 : s1.Steady way := Dev.Steady.foldl_mem (fun _ k mem ok2 => ok2.setReg (domTable_apart (List.mem_range.mp mem))) ok
  split
  · exact ok.setRb_true
  · split
    · exact ok.setRb_true.switchEvent
    · exact ite_steady ok1.setOff.switchEvent (ite_steady ok1.ppsRecompute ok1)

theorem Dev.Steady.domLock {s : Dev} {d} (ok : s.Steady way) : (s.domLock d).Steady way := by
  unfold Dev.domLock
  exact ite_steady ok.setDom.liveCheck ok

theorem Dev.Steady.domUnlock {s : Dev} {d} (ok : s.Steady way) : (s.domUnlock d).Steady way := by
  unfold Dev.domUnlock
  exact ite_steady ok.setDom ok

theorem Dev.Steady.syncExpiry {s : Dev} {d} (ok : s.Steady way) : (s.syncExpiry d).Steady way := by
  unfold Dev.syncExpiry
  split
  · exact ok
  · split
    · exact ok
    · extract_lets s1 s2
      have ok1 : s1.Steady way := ok.syncTimer
      have ok2 : s2.Steady way := ok1.setDom
      exact ite_steady ok1 (ite_steady ok2.wtSwitch ok2)

theorem Dev.Steady.putTime {s : Dev} {at_ t} (ok : s.Steady way) (low : at_ < 0x6FFFF0) : (s.putTime at_ t).Steady way := by
  unfold Dev.putTime
  exact (((ok.setReg (by omega)).setReg (by omega)).setReg (by omega)).setReg (by omega)

theorem Dev.Steady.snap {s : Dev} (ok : s.Steady way) : s.snap.Steady way := by
  unfold Dev.snap
  extract_lets s1 s2
  have ok1 : s1.Steady way := ((ok.setReg (by decide)).setReg (by decide)).setReg (by decide)
  have ok2 : s2.Steady way := ((ok1.putTime (by decide)).putTime (by decide)).putTime (by decide)
  exact ok2.setRf_of_ne (by decide)

theorem Dev.Steady.txts {s : Dev} {p etype ptp stamp} (ok : s.Steady way) : (s.txts p etype ptp stamp).Steady way := by
  unfold Dev.txts
  extract_lets ty wr i s1 s2
  have ok1 : s1.Steady way := ok.setWord
  have ok2 : s2.Steady way := ok1.setWord
  exact ite_steady ok (ite_steady ok.count.raiseRated (ok2.setReg (by decide)))

theorem Dev.Steady.capEdge {s : Dev} {k rising} (ok : s.Steady way) : (s.capEdge k rising).Steady way := by
  unfold Dev.capEdge
  split
  · split
    · exact ok
    · extract_lets recent s1 s2 s3
      have ok1 : s1.Steady way := ok.onCam
      have ok2 : s2.Steady way := ((ok1.setReg (capReg_spares _ (by decide))).setReg (capReg_spares _ (by decide))).setReg
        (capReg_spares _ (by decide))
      have ok3 : s3.Steady way := ok2.count
      exact ite_steady ok.count (ite_steady ok3 ok3.raiseRated)
  · split
    · exact ok
    · extract_lets recent s1 s2 s3
      have ok4 : s1.Steady way := ok.onCam
      have ok5 : s2.Steady way := ((ok4.setReg (capReg_spares _ (by decide))).setReg (capReg_spares _ (by decide))).setReg
        (capReg_spares _ (by decide))
      have ok6 : s3.Steady way := ok5.count
      exact ite_steady ok.count (ite_steady ok6 ok6.raiseRated)

theorem Dev.Steady.timeWire {s : Dev} (ok : s.Steady way) : s.timeWire.Steady way := by
  unfold Dev.timeWire
  extract_lets high
  exact ite_steady ok ok.onCam.pin

theorem Dev.Steady.txtsRd {s : Dev} {v} (ok : s.Steady way) : (s.txtsRd v).Steady way := by
  unfold Dev.txtsRd
  exact ite_steady (ok.setReg (by decide)) ok

end

end Sys2Proof.Machine
end

section
/-! SUPPORT. The operations of MACsec keep what the main die keeps. -/
namespace Sys2Proof.Machine

section
variable {way : Bool}

theorem Dev.Steady.setSc {s : Dev} {c v} (ok : s.Steady way) : (s.setSc c v).Steady way := by
  unfold Dev.setSc
  exact ok.mk_burl ok.burl.mk

theorem Dev.Steady.setSa {s : Dev} {a v} (ok : s.Steady way) : (s.setSa a v).Steady way := by
  unfold Dev.setSa
  exact ok.mk_burl ok.burl.mk

theorem Dev.Steady.secOpen {s : Dev} {p n o} (ok : s.Steady way) : (s.secOpen p n o).2.Steady way := by
  unfold Dev.secOpen
  extract_lets et tci pnLow rx sc
  clear_value sc
  split
  · exact ok
  · split
    · exact ok
    · split
      · exact ok
      · split
        · exact ok
        · split
          · exact ok
          · split
            · exact ok
            · extract_lets hi pn
              split
              · exact ok
              · split
                · exact ok
                · exact ok.beginUse

theorem Dev.Steady.secRx {s : Dev} {p n o} (ok : s.Steady way) : (s.secRx p n o).2.2.Steady way := by
  unfold Dev.secRx
  extract_lets x y
  have ok1 : x.2.Steady way := ok.secOpen
  exact ok1

theorem Dev.Steady.authFail {s : Dev} {cause p sa} (ok : s.Steady way) : (s.authFail cause p sa).Steady way := by
  unfold Dev.authFail
  exact ok.raiseRated

theorem Dev.Steady.secEnd {s : Dev} {p n x} (ok : s.Steady way) : (s.secEnd p n x).1.Steady way := by
  unfold Dev.secEnd
  split
  · exact ok
  · extract_lets s1
    have ok1 : s1.Steady way := by
      refine (Dev.Steady.endUse ?_).count
      split
      · exact ok.refuseUse
      · exact ok
    dsimp only
    exact ok1.authFail
  · extract_lets s1 s2
    have ok2 : s1.Steady way := ok.endUse
    have ok3 : s2.Steady way := ok2.count
    split
    · dsimp only
      exact ok2.count.authFail
    · split
      · exact ok3.setSa
      · exact ok3

theorem Dev.Steady.pnEvent {s : Dev} {cause sa p pn} (ok : s.Steady way) : (s.pnEvent cause sa p pn).Steady way := by
  unfold Dev.pnEvent
  exact ok.raise

theorem Dev.Steady.secTx {s : Dev} {p inPort use o} (ok : s.Steady way) : (s.secTx p inPort use o).2.Steady way := by
  unfold Dev.secTx
  split
  · exact ok
  · split
    · exact ok.count
    · extract_lets drop body gap
      split
      · exact ok
      · split
        · exact ok
        · split
          · exact ok
          · split
            · exact ok
            · split
              · exact ok
              · split
                · exact ok.refuseUse
                · extract_lets key tci head nonce ct out pn top s1 s2
                  have ok1 : s1.Steady way := ok.beginUse.setSa.count
                  have ok2 : s2.Steady way := ite_steady ok1.pnEvent ok1
                  exact ite_steady ok2.pnEvent ok2

theorem Dev.Steady.saDrop {s : Dev} {i} (ok : s.Steady way) : (s.saDrop i).Steady way := by
  unfold Dev.saDrop
  split
  · exact ok
  · extract_lets s1
    have ok1 : s1.Steady way := by
      unfold s1
      split
      · exact ok.setSc
      · exact ok
    exact ite_steady ok1.setSa ok1

theorem Dev.Steady.saDropped {s : Dev} {d op l} (ok : s.Steady way) : (s.saDropped d op l).Steady way := by
  unfold Dev.saDropped
  exact CmdRes.ite_steady ok.done ((ok.mk_burl ok.burl.mk).wait)

theorem Dev.Steady.scSet {s : Dev} {d} (ok : s.Steady way) : (s.scSet d).Steady way := by
  unfold Dev.scSet
  extract_lets p c tx mapped second
  exact CmdRes.ite_steady ok.fail (CmdRes.ite_steady ok.fail (CmdRes.ite_steady ok.fail ok.setSc.done))

theorem Dev.Steady.scClear {s : Dev} {d} (ok : s.Steady way) : (s.scClear d).Steady way := by
  unfold Dev.scClear
  extract_lets c
  split
  · exact ok.fail
  · exact CmdRes.ite_steady ok.fail (((Dev.Steady.foldl (fun _ _ ok1 => ok1.saDrop) ok).setSc).saDropped)

theorem Dev.Steady.saInstall {s : Dev} {d} (ok : s.Steady way) : (s.saInstall d).Steady way := by
  unfold Dev.saInstall
  extract_lets slot an c i pn a
  split
  · exact ok.fail
  · split
    · exact ok.fail
    · exact CmdRes.ite_steady ok.fail (CmdRes.ite_steady ok.refuseUse.fail ok.setSa.setSc.done)

theorem Dev.Steady.saSelect {s : Dev} {d} (ok : s.Steady way) : (s.saSelect d).Steady way := by
  unfold Dev.saSelect
  extract_lets an c
  split
  · exact ok.fail
  · exact CmdRes.ite_steady ok.setSc.done ok.fail

theorem Dev.Steady.saClear {s : Dev} {d} (ok : s.Steady way) : (s.saClear d).Steady way := by
  unfold Dev.saClear
  extract_lets i
  exact CmdRes.ite_steady ok.fail ok.saDrop.saDropped

theorem Dev.Steady.saRead {s : Dev} {d} (ok : s.Steady way) : (s.saRead d).Steady way := by
  unfold Dev.saRead
  split
  · exact ok.fail
  · exact ok.done

theorem Dev.Steady.secCommand {s : Dev} {d op mask kind} {body : Dev → CmdRes} (ok : s.Steady way)
    (hbody : ∀ z0, z0.Steady way → (body z0).Steady way) : (s.secCommand d op mask kind body).Steady way := by
  unfold Dev.secCommand
  exact ok.command (fun _ ok1 => hbody _ ok1)

end

end Sys2Proof.Machine
end

section
/-! SUPPORT. The operations of the path of a frame keep what the main die keeps. -/
namespace Sys2Proof.Machine

section
variable {way : Bool}

theorem Dev.Steady.setPort {s : Dev} {p r} (ok : s.Steady way) : (s.setPort p r).Steady way := by
  unfold Dev.setPort
  exact ok.mk_rest

theorem Dev.Steady.setRx {s : Dev} {p f} (ok : s.Steady way) : (s.setRx p f).Steady way := by
  unfold Dev.setRx
  exact ok.mk_rest

theorem Dev.Steady.modeDone {s : Dev} (ok : s.Steady way) : s.modeDone.Steady way := by
  unfold Dev.modeDone
  split
  · exact ok
  · exact ite_steady ok ok.onTapState.completeLate

theorem Dev.Steady.stage45 {s : Dev} {f v lookup hit bad} (ok : s.Steady way) : (s.stage45 f v lookup hit bad).2.Steady way := by
  unfold Dev.stage45
  extract_lets g v1 da sa looks d v2 learns a read
  have ok1 : d.2.Steady way := by
    unfold d
    split
    · exact ok.fdbMeet
    · exact ok
  have ok2 : a.2.Steady way := by
    unfold a
    split
    · exact ok1.fdbMeet
    · exact ok1
  exact ok2.parityFound

theorem Dev.Steady.stages {s : Dev} {f ue bad lost} (ok : s.Steady way) : (s.stages f ue bad lost).2.1.Steady way := by
  unfold Dev.stages
  extract_lets f1 r v s1 go b lost1 m inCache
  have ok1 : s1.Steady way := by
    unfold s1
    split
    · exact ok.enterVersion
    · exact ok
  split
  · exact ok
  · split
    · exact ok1.stage45
    · split
      · exact (Dev.Steady.foldl (fun _ _ ok2 => ok2.cacheError) ok1).stage45
      · split
        · exact ok1.stage45
        · split
          · exact ok1
          · exact ok1

theorem Dev.Steady.setEnded {s : Dev} {p l} (ok : s.Steady way) : (s.setEnded p l).Steady way := by
  unfold Dev.setEnded
  exact ok.mk_rest

theorem Dev.Steady.endRx {s : Dev} {p} (ok : s.Steady way) : (s.endRx p).Steady way := by
  unfold Dev.endRx
  split
  · exact ok.setRx.setEnded
  · exact ok

theorem Dev.Steady.parserRun {s : Dev} {p ue bad lost} (ok : s.Steady way) : (s.parserRun p ue bad lost).1.Steady way := by
  unfold Dev.parserRun
  split
  · split
    · extract_lets r
      exact ok.stages.setEnded
    · exact ok
  · split
    · split
      · exact ok
      · extract_lets r
        exact ok.stages.setRx
    · exact ok

theorem Dev.Steady.takeRx {s : Dev} {p} (ok : s.Steady way) : (s.takeRx p).2.Steady way := by
  unfold Dev.takeRx
  split
  · exact ok.setEnded
  · exact ok.setRx

theorem Dev.Steady.parserStart {s : Dev} {p} (ok : s.Steady way) : (s.parserStart p).Steady way := by
  unfold Dev.parserStart
  exact ok.parserRun

theorem Dev.Steady.discard {s : Dev} {f} (ok : s.Steady way) : (s.discard f).Steady way := by
  unfold Dev.discard
  extract_lets s1
  have ok1 : s1.Steady way := ok.giveCells
  exact ok1.leaveVersion

theorem Dev.Steady.abortRx {s : Dev} {p} (ok : s.Steady way) : (s.abortRx p).Steady way := by
  unfold Dev.abortRx
  split
  · exact ok.setRx.discard.endUse.count
  · exact ok

theorem Dev.Steady.passEffects {s : Dev} {f v} (ok : s.Steady way) : (s.passEffects f v).1.Steady way := by
  unfold Dev.passEffects
  extract_lets g s1 s2 s3 s4 b src r s5 v1 s6 s7 s8 s9 s10 s11 s12 s13
  have ok1 : s1.Steady way := ite_steady ok.count ok
  have ok2 : s2.Steady way := ite_steady ok1.count (ite_steady ok1.count ok1)
  have ok3 : s3.Steady way := ite_steady ok2.count ok2
  have ok4 : s4.Steady way := ok3.count
  have ok5 : r.1.Steady way := by
    unfold r
    split
    · exact ok4
    · exact ok4.connUpdate
    · extract_lets c r1
      have ok6 : r1.1.Steady way := ok4.insertConn
      split
      · exact ok4.connUpdate
      · split
        · exact ok6
        · exact ok6
  have ok7 : s5.Steady way := ok5
  have ok8 : s6.Steady way := by
    unfold s6
    split
    · exact ok7.meterDebit
    · exact ok7
  have ok9 : s7.Steady way := by
    unfold s7
    split
    · split
      · exact ok8.raiseRated
      · exact ok8
    · exact ok8
  have ok10 : s8.Steady way := ite_steady ok9.limiterDebit ok9
  have ok11 : s9.Steady way := by
    unfold s9
    split
    · exact ok10.count
    · exact ok10
  have ok12 : s10.Steady way := ite_steady ok11.raiseRated ok11
  have ok13 : s11.Steady way := ite_steady ok12.barkLog.countDeny (ite_steady ok12.barkLog ok12)
  have ok14 : s12.Steady way := ite_steady ok13 ok13.sourceLearn
  have ok15 : s13.Steady way := ite_steady ok14.count ok14
  split
  · exact ok15
  · split
    · exact ok15.slowDrop
    · extract_lets r1
      have ok16 : r1.1.Steady way := ok15.slowPolice
      exact ok16

theorem Dev.Steady.pass {s : Dev} {f} (ok : s.Steady way) : (s.pass f).1.Steady way := by
  unfold Dev.pass
  split
  · exact ok
  · extract_lets r
    have ok1 : r.1.Steady way := ok.passEffects
    split
    · exact ok1
    · exact ok1.discard

theorem Dev.Steady.lqFrame {s : Dev} {p bad} (ok : s.Steady way) : (s.lqFrame p bad).Steady way := by
  unfold Dev.lqFrame
  extract_lets r
  exact ok.setPort

theorem Dev.Steady.frameEnd {s : Dev} {p fcsOk pcsErr} (ok : s.Steady way) : (s.frameEnd p fcsOk pcsErr).Steady way := by
  unfold Dev.frameEnd
  split
  · exact ok
  · extract_lets eth r s1 s2 s3 s4 q src
    have ok1 : r.1.Steady way := (of_snd ok.parserStart.takeRx ‹_›).secEnd
    have ok2 : s1.Steady way := ok1
    have ok3 : s2.Steady way := ite_steady (((ok2.countPort (by decide)).countPort (by decide)).lqFrame) ok2
    have ok4 : s3.Steady way := ok3.wakeFrame
    have ok5 : s4.Steady way := ok4.syncReceipt
    have ok6 : q.1.Steady way := ok5.slowPolice
    have ok7 : src.Steady way := ok6
    split
    · extract_lets s5
      have ok8 : s5.Steady way := (((of_snd ok.parserStart.takeRx ‹_›).discard).endUse).count
      exact ite_steady ok8.lqFrame ok8
    · split
      · exact ok1.discard
      · split
        · exact ok1.discard.count
        · split
          · exact ok5.discard
          · split
            · split
              · exact ok5.discard.count
              · extract_lets v
                exact ite_steady (ite_steady ok7.mk_rest ok6.discard) ok5.mk_rest
            · split
              · exact ok5.mk_rest
              · split
                · exact (of_fst ok5.pass ‹_›).mk_rest
                · exact of_fst ok5.pass ‹_›

theorem Dev.Steady.bucketDone {s : Dev} {p ue bad} (ok : s.Steady way) : (s.bucketDone p ue bad).Steady way := by
  unfold Dev.bucketDone
  extract_lets done
  have dones (f : RxFrame) : (done s f).1.Steady way := by
    unfold done
    split
    · exact ok
    · extract_lets b s1 m r
      have ok1 : s1.Steady way := ite_steady ok ok.tableError
      have ok2 : r.2.Steady way := by
        refine Dev.Steady.stage45 ?_
        clear_value m
        split
        · exact ok1.touchCache
        · exact ok1
      exact ok2
  split
  · split
    · next f _ =>
      extract_lets r
      have ok1 := (dones f).pass (f := r.2)
      split
      · exact (of_fst ok1 ‹_›).mk_rest
      · exact ((of_fst ok1 ‹_›).mk_rest).banksGo
    · exact ok
  · split
    · split
      · exact (dones _).setEnded
      · exact ok
    · split
      · exact ite_steady (dones _).setRx ok
      · exact ok

theorem Dev.Steady.toSlow {s : Dev} {id f c} (ok : s.Steady way) : (s.toSlow id f c).Steady way := by
  unfold Dev.toSlow
  extract_lets q cells s1 src
  have ok1 : s1.Steady way := ok.setStored
  have ok2 : src.Steady way := ok1.takeDesc
  exact ite_steady ok.count.raiseRated ok2.mk_rest.count

theorem Dev.Steady.toRoots {s : Dev} {id} (ok : s.Steady way) : (s.toRoots id).Steady way := by
  unfold Dev.toRoots
  exact ite_steady ok.count ok.setStored.takeDesc.mk_rest

theorem Dev.Steady.enqueue {s : Dev} {f} (ok : s.Steady way) : (s.enqueue f).Steady way := by
  unfold Dev.enqueue
  split
  · exact ok
  · extract_lets id x src s1 ports s2 s3 s4
    have ok1 : s1.Steady way := ok.mk_rest
    have ok2 : s2.Steady way := by
      unfold s2
      split
      · exact ok1.toSlow
      · exact ok1
    have ok3 : s3.Steady way := ite_steady ok2.toSlow ok2
    have ok4 : s4.Steady way := ite_steady ok3.toRoots ok3
    exact ok4.admitTargets

theorem Dev.Steady.enqueueNext {s : Dev} (ok : s.Steady way) : s.enqueueNext.Steady way := by
  unfold Dev.enqueueNext
  split
  · split
    · exact ok.mk_rest.enqueue
    · exact ok
  · exact ok

theorem Dev.Steady.tryReceive {s : Dev} {p octets len stamp group launch oversize held} (ok : s.Steady way) :
    ∀ t, (s.tryReceive p octets len stamp group launch oversize held) = some t → t.Steady way := by
  unfold Dev.tryReceive
  extract_lets first sec had cells x run frame x1 x2
  have ok1 : first.2.Steady way := by
    unfold first
    split
    · exact ok
    · exact ok.newChain
  have ok2 : sec.2.2.Steady way := by
    unfold sec
    split
    · exact ok1
    · split
      · exact ok1
      · exact ok1.secRx
  have ok3 : x.Steady way := ok2.demandCluster.demandCluster.demandCluster
  have ok4 : run.2.Steady way := ok3.newRun
  have ok5 : x1.Steady way := ok4.setRx
  have ok6 : x2.Steady way := ite_steady ok5.giveCells ok5.takeCells
  intro t taken
  split at taken
  · cases taken
  · cases taken
    exact ite_steady ok6.setRx.giveCells ok6

theorem Dev.Steady.receive {s : Dev} {p octets len stamp group launch} (ok : s.Steady way) :
    (s.receive p octets len stamp group launch).Steady way := by
  unfold Dev.receive
  unfold Option.getD
  split
  · exact ok.tryReceive _ ‹_›
  · exact ok

theorem Dev.Steady.frameStart {s : Dev} {n octets frac ownTo} (ok : s.Steady way) : (s.frameStart n octets frac ownTo).Steady way := by
  unfold Dev.frameStart
  split
  · exact ok
  · extract_lets s1 s2 len tooLong stamp
    have ok1 : s1.Steady way := ok.endRx
    have ok2 : s2.Steady way := ite_steady ok1.raiseRated ok1
    split
    · exact ok2.tryReceive _ ‹_›
    · exact ok2.count

theorem Dev.Steady.offerRoots {s : Dev} (ok : s.Steady way) : s.offerRoots.Steady way := by
  unfold Dev.offerRoots
  split
  · exact ok
  · exact ite_steady ok ok.mk_rest.receive

end

end Sys2Proof.Machine
end

section
/-! SUPPORT. The operations of the Ethernet ports keep what the main die keeps. -/
namespace Sys2Proof.Machine

section
variable {way : Bool}

theorem Dev.Steady.preempt {s : Dev} {p sent} (ok : s.Steady way) : (s.preempt p sent).Steady way := by
  unfold Dev.preempt
  split
  · exact ok
  · extract_lets s1 s2 src
    have ok1 : s1.Steady way := ok.creditPort
    have ok2 : s2.Steady way := ite_steady ok1 ok1.count
    exact ok2.mk_rest

theorem Dev.Steady.resume {s : Dev} {p} (ok : s.Steady way) : (s.resume p).Steady way := by
  unfold Dev.resume
  split
  · exact ok
  · extract_lets s1 src
    have ok1 : s1.Steady way := ok.creditPort.count
    exact ok1.mk_rest

theorem Dev.Steady.finishPaused {s : Dev} {n} (ok : s.Steady way) : (s.finishPaused n).Steady way := by
  unfold Dev.finishPaused
  exact ite_steady ok.resume ok

theorem Dev.Steady.quietBit {s : Dev} {n} (ok : s.Steady way) : (s.quietBit n).Steady way := by
  unfold Dev.quietBit
  extract_lets s1
  have ok1 : s1.Steady way := ok.finishPaused
  exact ok1.setRb (by decide)

theorem Dev.Steady.portSafe {s : Dev} {n} (ok : s.Steady way) : (s.portSafe n).Steady way := by
  unfold Dev.portSafe
  exact ok.raise

theorem Dev.Steady.preemptUpdate {s : Dev} {n} (ok : s.Steady way) : (s.preemptUpdate n).Steady way := by
  unfold Dev.preemptUpdate
  exact ite_steady ok (ok.setRb (by decide))

theorem Dev.Steady.sendVerify {s : Dev} {n k} (ok : s.Steady way) : (s.sendVerify n k).Steady way := by
  unfold Dev.sendVerify
  extract_lets src src1
  have ok1 : src1.Steady way := ok.setPort
  exact ok1.mk_rest

theorem Dev.Steady.verifyLink {s : Dev} {n} (ok : s.Steady way) : (s.verifyLink n).Steady way := by
  unfold Dev.verifyLink
  split
  · exact ok
  · extract_lets s1
    have ok1 : s1.Steady way := by
      unfold s1
      split
      · exact ok.setRf (by decide)
      · exact ite_steady ((ok.setRf (by decide)).sendVerify) (ok.setRf (by decide))
    exact ok1.preemptUpdate

theorem Dev.Steady.verifyTimer {s : Dev} {n} (ok : s.Steady way) : (s.verifyTimer n).Steady way := by
  unfold Dev.verifyTimer
  extract_lets r
  exact ite_steady ok (ite_steady ok.sendVerify (((ok.setRf (by decide)).preemptUpdate).raiseRated))

theorem Dev.Steady.verifyResponse {s : Dev} {n} (ok : s.Steady way) : (s.verifyResponse n).Steady way := by
  unfold Dev.verifyResponse
  split
  · exact ok
  · extract_lets s1
    have ok1 : s1.Steady way := ok.endRx
    exact ite_steady ok1.count (ite_steady ((ok1.setRf (by decide)).preemptUpdate) ok1)

theorem Dev.Steady.setLink {s : Dev} {n v} (ok : s.Steady way) : (s.setLink n v).Steady way := by
  unfold Dev.setLink
  extract_lets old s1
  have ok1 : s1.Steady way := (ok.setRf (by decide)).raise
  exact ite_steady ok ok1.verifyLink

theorem Dev.Steady.dropReasm {s : Dev} {n} (ok : s.Steady way) : (s.dropReasm n).Steady way := by
  unfold Dev.dropReasm
  split
  · exact ok.setPort.endUse.giveCells
  · exact ok

theorem Dev.Steady.abortReasm {s : Dev} {n} (ok : s.Steady way) : (s.abortReasm n).Steady way := by
  unfold Dev.abortReasm
  exact ite_steady ok.dropReasm.count ok

theorem Dev.Steady.abortAll {s : Dev} {n} (ok : s.Steady way) : (s.abortAll n).Steady way := by
  unfold Dev.abortAll
  exact ok.abortRx.abortReasm

theorem Dev.Steady.lockUp {s : Dev} {n} (ok : s.Steady way) : (s.lockUp n).Steady way := by
  unfold Dev.lockUp
  exact ite_steady ok (ite_steady ok.setRb_true.setPort.mk_rest.setLink ok.setRb_true.setPort.mk_rest)

theorem Dev.Steady.lockFalls {s : Dev} {n} (ok : s.Steady way) : (s.lockFalls n).Steady way := by
  unfold Dev.lockFalls
  exact ite_steady ok (((ok.setRb (by decide)).setPort).count)

theorem Dev.Steady.lockDown {s : Dev} {n} (ok : s.Steady way) : (s.lockDown n).Steady way := by
  unfold Dev.lockDown
  exact ite_steady ok (ite_steady ok.lockFalls.abortAll.setLink ok.lockFalls.abortAll)

theorem Dev.Steady.linkUpExpiry {s : Dev} {n} (ok : s.Steady way) : (s.linkUpExpiry n).Steady way := by
  unfold Dev.linkUpExpiry
  exact ite_steady ok.setLink ok

theorem Dev.Steady.linkDownExpiry {s : Dev} {n} (ok : s.Steady way) : (s.linkDownExpiry n).Steady way := by
  unfold Dev.linkDownExpiry
  exact ite_steady ok.setLink ok

theorem Dev.Steady.lqCount {s : Dev} {n x} (ok : s.Steady way) : (s.lqCount n x).Steady way := by
  unfold Dev.lqCount
  extract_lets s1 s2 s3 s4
  have ok1 : s1.Steady way := ok.count
  have ok2 : s2.Steady way := ok1.count
  have ok3 : s3.Steady way := ite_steady ok1 (ite_steady ok2.raise ok2)
  have ok4 : s4.Steady way := ok3.count
  exact ite_steady ok1.count (ite_steady ok3 (ite_steady ok4.raise ok4))

theorem Dev.Steady.lqSettle {s : Dev} {n} (ok : s.Steady way) : (s.lqSettle n).Steady way := by
  unfold Dev.lqSettle
  extract_lets r
  exact (Dev.Steady.foldl (fun _ _ ok1 => ok1.lqCount) ok).setPort

theorem Dev.Steady.lqEnd {s : Dev} {n} (ok : s.Steady way) : (s.lqEnd n).Steady way := by
  unfold Dev.lqEnd
  extract_lets r next k ses unavail x l run declared l1 st s1 s2
  have ok1 : s1.Steady way := ok.setReg (portReg_spares _ (by decide))
  have ok2 : s2.Steady way := ite_steady ok1.raise ok1
  split
  · exact ok
  · split
    · exact ok.setPort
    · clear_value l1
      split
      · exact ite_steady ok2.lqCount.setPort ok2.setPort
      · exact ok2

theorem Dev.Steady.plcaFault {s : Dev} {n cause} (ok : s.Steady way) : (s.plcaFault n cause).Steady way := by
  unfold Dev.plcaFault
  exact ok.raiseRated

theorem Dev.Steady.beaconLost {s : Dev} {n} (ok : s.Steady way) : (s.beaconLost n).Steady way := by
  unfold Dev.beaconLost
  exact ite_steady (((ok.setRb (by decide)).count).plcaFault) ok

theorem Dev.Steady.plcaStart {s : Dev} {n} (ok : s.Steady way) : (s.plcaStart n).Steady way := by
  unfold Dev.plcaStart
  split
  · exact ok
  · extract_lets s1 s2
    have ok1 : s1.Steady way := ok.setReg (portReg_spares _ (by decide))
    have ok2 : s2.Steady way := ite_steady ok1.mk_rest ok1
    exact ite_steady ok2 ok2.lockUp

theorem Dev.Steady.portUpFrom {s : Dev} {n} (ok : s.Steady way) : (s.portUpFrom n).Steady way := by
  unfold Dev.portUpFrom
  extract_lets src s1
  have ok1 : s1.Steady way := ok.setPort
  exact (((ok1.setReg (portReg_spares _ (by decide))).setLink).quietBit).plcaStart

theorem Dev.Steady.portEnable {s : Dev} {n} (ok : s.Steady way) : (s.portEnable n).Steady way := by
  unfold Dev.portEnable
  split
  · exact ok
  · split
    · exact ok.setRb_true
    · extract_lets s1 s2
      have ok1 : s1.Steady way := ok.setRb_true
      have ok2 : s2.Steady way := ite_steady ok1.portUpFrom ok1
      exact ite_steady ok2.portSafe ok2

theorem Dev.Steady.portStop {s : Dev} {n} (ok : s.Steady way) : (s.portStop n).Steady way := by
  unfold Dev.portStop
  extract_lets s1
  have ok1 : s1.Steady way := ok.abortAll.lqSettle.lockFalls.beaconLost
  exact ite_steady (ok1.setReg (portReg_spares _ (by decide))) ok1

theorem Dev.Steady.drained {s : Dev} {n} (ok : s.Steady way) : (s.drained n).Steady way := by
  unfold Dev.drained
  exact ((ok.setRb (by decide)).setLink).quietBit

theorem Dev.Steady.portDisable {s : Dev} {n} (ok : s.Steady way) (small : n < 36) : (s.portDisable n).Steady way := by
  unfold Dev.portDisable
  have other : portReg n 0 ≠ 0x700000 := by
    unfold portReg
    omega
  split
  · exact ok
  · extract_lets s1 s2
    have ok1 : s1.Steady way := ok.portStop.setRb_of_ne other
    have ok2 : s2.Steady way := ok1.setRb_true.finishPaused
    exact ite_steady ok1.drained (ite_steady ok2.setLink ok2)

theorem Dev.Steady.drainDone {s : Dev} {n} (ok : s.Steady way) : (s.drainDone n).Steady way := by
  unfold Dev.drainDone
  exact ite_steady ok.drained ok

theorem Dev.Steady.cntClr {s : Dev} {n} (ok : s.Steady way) : (s.cntClr n).Steady way := by
  unfold Dev.cntClr
  exact ok.resetRegs (by unfold portReg; omega)

theorem Dev.Steady.serdesFault {s : Dev} {n k} (ok : s.Steady way) : (s.serdesFault n k).Steady way := by
  unfold Dev.serdesFault
  split
  · exact ok
  · refine Dev.Steady.raiseRated ?_
    split
    · exact ok.abortAll
    · exact ok

theorem Dev.Steady.asmErr {s : Dev} {n cause} (ok : s.Steady way) : (s.asmErr n cause).Steady way := by
  unfold Dev.asmErr
  exact ok.dropReasm.count.raiseRated

theorem Dev.Steady.reassembled {s : Dev} {n r} (ok : s.Steady way) : (s.reassembled n r).Steady way := by
  unfold Dev.reassembled
  extract_lets src s1 len gone
  have ok1 : s1.Steady way := ok.setPort
  split
  · exact ok1
  · split
    · exact ok1.endUse.giveCells.count
    · split
      · exact ite_steady ((ok1.tryReceive _ ‹_›).frameEnd) ((ok1.tryReceive _ ‹_›).endRx)
      · exact ok1.endUse.giveCells.count

theorem Dev.Steady.growReasm {s : Dev} {n r} (ok : s.Steady way) : (s.growReasm n r).Steady way := by
  unfold Dev.growReasm
  extract_lets put more run
  have ok1 : run.2.Steady way := ok.newRun
  split
  · exact ok.setPort
  · split
    · exact ok.setPort.giveCells
    · exact ite_steady ok1.setPort.takeCells ok.setPort.endUse.giveCells.count

theorem Dev.Steady.openReasm {s : Dev} {n r} (ok : s.Steady way) : (s.openReasm n r).2.Steady way := by
  unfold Dev.openReasm
  split
  · exact ok
  · extract_lets x
    have ok1 : x.2.Steady way := ok.secOpen
    exact ok1

theorem Dev.Steady.addFragment {s : Dev} {n r f} (ok : s.Steady way) : (s.addFragment n r f).Steady way := by
  unfold Dev.addFragment
  extract_lets all x
  have ok1 : x.2.Steady way := ok.openReasm
  exact ite_steady ok.asmErr (ite_steady ok1.reassembled ok1.growReasm)

theorem Dev.Steady.fragment {s : Dev} {n f} (ok : s.Steady way) : (s.fragment n f).Steady way := by
  unfold Dev.fragment
  split
  · exact ok
  · split
    · exact ok.endRx.count
    · extract_lets s1 s2 s3 c
      have ok1 : s1.Steady way := ok.endRx
      have ok2 : s2.Steady way := ok1.count
      have ok3 : s3.Steady way := ite_steady ok2.asmErr ok2
      have ok4 : c.2.Steady way := ok3.newChain
      split
      · exact ok1.mk_rest
      · exact ok4.addFragment
      · split
        · exact ok2.asmErr
        · exact ite_steady ok2.asmErr ok2.addFragment

theorem Dev.Steady.beaconRx {s : Dev} {n} (ok : s.Steady way) : (s.beaconRx n).Steady way := by
  unfold Dev.beaconRx
  exact ite_steady ok (ite_steady ok.plcaFault (ite_steady ok.setPort.setRb_true.lockUp ok))

theorem Dev.Steady.beaconTimeout {s : Dev} {n} (ok : s.Steady way) : (s.beaconTimeout n).Steady way := by
  unfold Dev.beaconTimeout
  exact ite_steady ok ok.beaconLost.lockDown

theorem Dev.Steady.mdioRead {s : Dev} {d phy} (ok : s.Steady way) : (s.mdioRead d phy).Steady way := by
  unfold Dev.mdioRead
  exact CmdRes.ite_steady ok.fail (CmdRes.ite_steady ok.done ok.done)

theorem Dev.Steady.mdioWrite {s : Dev} {d reg} (ok : s.Steady way) : (s.mdioWrite d reg).Steady way := by
  unfold Dev.mdioWrite
  exact CmdRes.ite_steady ok.fail ok.mk_rest.done

theorem Dev.Steady.mdioCommand {s : Dev} {d op mask kind} {body : Dev → CmdRes} (ok : s.Steady way)
    (hbody : ∀ z0, z0.Steady way → (body z0).Steady way) : (s.mdioCommand d op mask kind body).Steady way := by
  unfold Dev.mdioCommand
  exact ok.command (fun _ ok1 => hbody _ ok1)

theorem Dev.Steady.mdioPoll {s : Dev} {m k phy} (ok : s.Steady way) : (s.mdioPoll m k phy).Steady way := by
  unfold Dev.mdioPoll
  extract_lets val s1 put
  have ok1 : s1.Steady way := ok.mk_rest
  have other : val ≠ 0x700000 := by
    unfold val mdioReg
    omega
  split
  · exact ok
  · split
    · exact ((ok1.setRb (by decide)).raise).ballot
    · exact ite_steady ((ok1.setReg other).raise).ballot (ite_steady ok1 (ok1.setReg other).ballot)

end

end Sys2Proof.Machine
end

section
/-! SUPPORT. The operations of Crown keep what the main die keeps. -/
namespace Sys2Proof.Machine

section
variable {way : Bool}

theorem Dev.Steady.probeRings {s : Dev} {p} (ok : s.Steady way) : (s.probeRings p).Steady way := by
  unfold Dev.probeRings
  split
  · exact ok
  · refine Dev.Steady.foldl (fun _ _ ok2 => ?_) ok
    split
    · exact ok2.ringFault
    · exact ok2

theorem Dev.Steady.noteEligible {s : Dev} {p} (ok : s.Steady way) : (s.noteEligible p).Steady way := by
  unfold Dev.noteEligible
  extract_lets hs el
  exact Dev.Steady.foldl (fun _ _ ok1 => ite_steady ok1 ok1.setCq) ok

theorem Dev.Steady.charge {s : Dev} {p h} (ok : s.Steady way) : (s.charge p h).Steady way := by
  unfold Dev.charge
  extract_lets x cost x1 src s1
  have ok1 : s1.Steady way := ok.mk_rest
  exact ite_steady ok.setCq ok1.setCq

theorem Dev.Steady.gateErr {s : Dev} {p cause} (ok : s.Steady way) : (s.gateErr p cause).Steady way := by
  unfold Dev.gateErr
  exact ok.raise

theorem Dev.Steady.dropOversize {s : Dev} {p h} (ok : s.Steady way) : (s.dropOversize p h).Steady way := by
  unfold Dev.dropOversize
  exact ok.dropHead.raiseRated

theorem Dev.Steady.launchLate {s : Dev} {p h late} (ok : s.Steady way) : (s.launchLate p h late).Steady way := by
  unfold Dev.launchLate
  exact ite_steady ok (ok.rated (fun _ _ ok1 => ok1.raiseAt))

theorem Dev.Steady.dropChecked {s : Dev} {p h} (ok : s.Steady way) : ∀ t, (s.dropChecked p h) = some t → t.Steady way := by
  unfold Dev.dropChecked
  extract_lets late
  intro t dropped
  rcases of_ite_some dropped with dropped | dropped
  · cases dropped
    exact ok.dropHead
  rcases of_ite_some dropped with dropped | dropped
  · cases dropped
    exact ok.takeHead.release.rxDrop
  rcases of_ite_some dropped with dropped | dropped
  · cases dropped
    exact ok.dropStale
  rcases of_ite_some dropped with dropped | dropped
  · cases dropped
    exact ok.dropHead.launchLate
  rcases of_ite_some dropped with dropped | dropped
  · cases dropped
    exact ok.dropHead
  · cases dropped

theorem Dev.Steady.preemptDue {s : Dev} {p} (ok : s.Steady way) : (s.preemptDue p).Steady way := by
  unfold Dev.preemptDue
  split
  · exact ok
  · extract_lets closed
    split
    · exact ok
    · split
      · exact ok.preempt
      · exact ok

theorem Dev.Steady.startTx {s : Dev} {p h wire} (ok : s.Steady way) : (s.startTx p h wire).Steady way := by
  unfold Dev.startTx
  extract_lets s1 pre stamp s2 s3 s4 wire1 s5 s6 s7 src s8
  have ok1 : s1.Steady way := ok.creditPort
  have ok2 : s2.Steady way := by
    unfold s2
    split
    · exact ok1.preempt
    · exact ok1
  have ok3 : s3.Steady way := ok2.takeHead
  have ok4 : s4.Steady way := ite_steady ok3.count ok3
  have ok5 : s5.Steady way := ite_steady ok4.count ok4
  have ok6 : s6.Steady way := ite_steady ok5.count ok5
  have ok7 : s7.Steady way := ite_steady ok6.count ok6
  have ok8 : s8.Steady way := ok7.mk_rest
  exact ite_steady ok8.txts ok8

theorem Dev.Steady.select {s : Dev} {p n} (ok : s.Steady way) : (s.select p n).Steady way := by
  induction n generalizing s with
  | zero =>
    unfold Dev.select
    exact ok
  | succ n ih =>
    unfold Dev.select
    split
    · exact ih ok.dropOversize
    · extract_lets s1 hs el express busy
      have ok1 : s1.Steady way := ok.noteEligible
      split
      · exact ite_steady ok1.resume ok1
      · next h _ =>
        extract_lets s2
        have ok2 : s2.Steady way := ok1.charge
        have sent (n : Nat) (u : UseOwner) (o : List Byte) :
            (if p < 36 then s2.secTx p n u o else (.plain, s2)).2.Steady way := by
          split
          · exact ok2.secTx
          · exact ok2
        split
        · exact ok1
        · split
          · exact ih (ok2.dropChecked _ ‹_›)
          · split
            · exact ih (of_snd (sent _ _ _) ‹_›).dropHead
            · exact (of_snd (sent _ _ _) ‹_›).startTx.noteEligible
            · exact (of_snd (sent _ _ _) ‹_›).startTx.noteEligible

theorem Dev.Steady.unchoose {s : Dev} {h} (ok : s.Steady way) : (s.unchoose h).Steady way := by
  unfold Dev.unchoose
  split
  · exact ok
  · extract_lets b src s1 q s2
    have ok2 : s1.Steady way := ok.mk_rest
    have ok3 : s2.Steady way := ok2.setTq.setNext
    exact ite_steady ok ok3.takeDesc.settle.noteEligible

theorem Dev.Steady.crownSelect {s : Dev} {p} (ok : s.Steady way) : (s.crownSelect p).Steady way := by
  unfold Dev.crownSelect
  split
  · exact ok
  · extract_lets s1 s2 busy
    have ok1 : s1.Steady way := ok.preemptDue.probeRings
    have ok2 : s2.Steady way := ite_steady ok1 ok1.unchoose
    exact ite_steady ok2 ok2.select

theorem Dev.Steady.txComplete {s : Dev} {p coll} (ok : s.Steady way) : (s.txComplete p coll).Steady way := by
  unfold Dev.txComplete
  split
  · exact ok
  · extract_lets s1 src s2 s3 s4
    have ok1 : s1.Steady way := ok.creditPort
    have ok2 : s2.Steady way := ok1.mk_rest
    have ok3 : s3.Steady way := (ok2.release.endUse.countPort (by decide)).countPort (by decide)
    have ok4 : s4.Steady way := ite_steady ok3.count ok3
    exact ok4.quietBit.noteEligible

theorem Dev.Steady.resetBuckets {s : Dev} {q} (ok : s.Steady way) : (s.resetBuckets q).Steady way := by
  unfold Dev.resetBuckets
  extract_lets x full b
  exact ok.setCq

theorem Dev.Steady.shaperWrite {s : Dev} {q r v} (ok : s.Steady way) : (s.shaperWrite q r v).Steady way := by
  unfold Dev.shaperWrite
  extract_lets s1 old want mode s2
  have ok1 : s1.Steady way := ok.creditTouch
  have ok2 : s2.Steady way := ok1.setReg (cq_apart (by decide))
  split
  · exact ite_steady ok2 ok2.resetBuckets
  · exact ite_steady ok1 ((ok1.setReg (cq_apart (by decide))).resetBuckets)
  · exact ite_steady ok1 ((ok1.setReg (cq_apart (by decide))).resetBuckets)
  · exact ite_steady ok1 ((ok1.setReg (cq_apart (by decide))).resetBuckets)
  · exact ite_steady ok1 ((ok1.setReg (cq_apart (by decide))).resetBuckets)

theorem Dev.Steady.setHist {s : Dev} {q h} (ok : s.Steady way) : (s.setHist q h).Steady way := by
  unfold Dev.setHist
  exact ok.mk_rest

theorem Dev.Steady.sampleQueue {s : Dev} {p q} (ok : s.Steady way) : (s.sampleQueue p q).Steady way := by
  unfold Dev.sampleQueue
  extract_lets h x win last put o f a s1 s2
  have puts {s : Dev} {a v} (ok : s.Steady way) (other : a ≠ 0x700000) : (put s a v).Steady way := ok.setReg other
  have ok1 : s1.Steady way := puts (puts (puts ok.setHist (cq_apart (by decide))) (cq_apart (by decide))) (cq_apart (by decide))
  have ok2 : s2.Steady way := puts (puts (puts ok1 (cq_apart (by decide))) (cq_apart (by decide))) (cq_apart (by decide))
  have last_apart : crownReg p (0xA00 + 4 * queueNo q) ≠ 0x700000 := by
    have := queueNo_lt q
    unfold crownReg
    omega
  split
  · exact ok.setHist
  · exact puts (puts (puts ok2 (cq_apart (by decide))) (cq_apart (by decide))) last_apart

theorem Dev.Steady.sampleTick {s : Dev} {p} (ok : s.Steady way) : (s.sampleTick p).Steady way := by
  unfold Dev.sampleTick
  split
  · exact ok
  · extract_lets src s1 ends s2 oct best
    have ok3 : s1.Steady way := ok.mk_rest
    have ok4 : s2.Steady way := Dev.Steady.foldl (fun _ _ ok5 => ok5.sampleQueue) ok3
    exact ite_steady ok4 ok4.raise

theorem Dev.Steady.clearSamples {s : Dev} {p} (ok : s.Steady way) : (s.clearSamples p).Steady way := by
  unfold Dev.clearSamples
  exact Dev.Steady.foldl (fun _ _ ok1 => ok1.setHist) ok.mk_rest

theorem Dev.Steady.sampleEnable {s : Dev} {p} (ok : s.Steady way) : (s.sampleEnable p).Steady way := by
  unfold Dev.sampleEnable
  exact ite_steady ok ok.setRb_true.clearSamples

theorem Dev.Steady.qsampleRead {s : Dev} {d err} (ok : s.Steady way) : (s.qsampleRead d err).Steady way := by
  unfold Dev.qsampleRead
  extract_lets t l o
  exact CmdRes.ite_steady ok.fail (CmdRes.ite_steady ok.dmaFail.done ok.hostWrite.done)

end

end Sys2Proof.Machine
end

section
/-! SUPPORT. The operations of the host interface keep what the main die keeps. -/
namespace Sys2Proof.Machine

section
variable {way : Bool}

theorem Dev.Steady.ringOn {s : Dev} {h r} (ok : s.Steady way) : (s.ringOn h r).Steady way := by
  unfold Dev.ringOn
  extract_lets b
  split
  · exact ok
  · split
    · exact ok.onBasjo ok.basjo.setRf
    · exact (ok.onBasjo ok.basjo.setRf.setReg.setReg.setReg.setRing.setActive.mk).noteEligible

theorem Dev.Steady.ringStop {s : Dev} {h r} (ok : s.Steady way) : (s.ringStop h r).Steady way := by
  unfold Dev.ringStop
  extract_lets b
  exact ite_steady ok (((ok.onBasjo ok.basjo.setRing.setActive).unchoose).noteEligible)

theorem Dev.Steady.doorbell {s : Dev} {h r v posted} (ok : s.Steady way) : (s.doorbell h r v posted).Steady way := by
  unfold Dev.doorbell
  extract_lets b s1
  have ok2 : s1.Steady way := ok.onBasjo ok.basjo.setRf.count
  split
  · exact ok
  · split
    · exact ok.denied
    · split
      · exact ok
      · split
        · exact (ok.onBasjo ((Basjo.ite_steady ok.basjo.setRing ok.basjo).setReg)).noteEligible
        · exact ok2.raiseAt

theorem Dev.Steady.setTxRing {s : Dev} {src x} (ok : s.Steady way) : (s.setTxRing src x).Steady way := by
  unfold Dev.setTxRing
  exact ok.onBasjo ok.basjo.setRing

theorem Dev.Steady.txFault {s : Dev} {src dma} (ok : s.Steady way) : (s.txFault src dma).Steady way := by
  unfold Dev.txFault
  split
  · exact ok.ringFault
  · exact ok.onBasjo ok.basjo.setRing

theorem Dev.Steady.txWriteBack {s : Dev} {src n st} (ok : s.Steady way) : (s.txWriteBack src n st).Steady way := by
  unfold Dev.txWriteBack
  extract_lets dev at_ mem s1 i
  have ok1 : mem.Steady way := Basjo.Steady.foldl (fun _ _ ok2 => ok2.store) ok.basjo
  have ok3 : s1.Steady way := ok.mk_basjo ok1
  split
  · exact ok3.onBasjo ok3.basjo.advance
  · exact (ok3.setReg (sptReg_spares _ (by decide))).onBasjo (((ok3.setReg (sptReg_spares _ (by decide))).basjo).store)

theorem Dev.Steady.takeTurn {s : Dev} {h r} (ok : s.Steady way) : ∀ t, (s.takeTurn h r) = some t → t.Steady way := by
  unfold Dev.takeTurn
  extract_lets use
  have uses {s : Dev} (ok : s.Steady way) : (use s).Steady way := ok.onBasjo ok.basjo.setRing
  intro t taken
  split at taken
  · cases taken
    exact uses ok
  · split at taken
    · cases taken
    · cases taken
      exact uses (ok.onBasjo (Basjo.Steady.foldl (fun _ _ ok1 => Basjo.ite_steady ok1 ok1.setRing) ok.basjo))

theorem Dev.Steady.txAccept {s : Dev} {src d wbErr} (ok : s.Steady way) : (s.txAccept src d wbErr).Steady way := by
  unfold Dev.txAccept
  extract_lets x rejected ds x1 full
  split
  · exact ite_steady ok.txFault ok.txWriteBack.setTxRing
  · split
    · exact ite_steady ok.txFault ok.txWriteBack.setTxRing
    · exact (ite_steady (ok.onBasjo ok.basjo.mk) ok).setTxRing

theorem Dev.Steady.txDescRead {s : Dev} {src d err wbErr} (ok : s.Steady way) : (s.txDescRead src d err wbErr).Steady way := by
  unfold Dev.txDescRead
  extract_lets x first whole
  refine ite_steady ok ?_
  split
  · exact ok
  · next t taken =>
    have ok1 : t.Steady way := by
      rcases of_ite_some taken with taken | kept
      · split at taken
        · exact ok.takeTurn _ taken
        · cases taken
          exact ok
      · cases kept
        exact ok
    exact ite_steady ok1.txFault (ite_steady ok1.txFault ok1.txAccept)

theorem Dev.Steady.txFrameDone {s : Dev} {src octets err wbErr} (ok : s.Steady way) : (s.txFrameDone src octets err wbErr).Steady way := by
  unfold Dev.txFrameDone
  extract_lets x whole total end_ h p group
  have ends {s : Dev} {st} (ok : s.Steady way) : (end_ s st).Steady way :=
    ite_steady ok.setTxRing.txFault ok.txWriteBack.setTxRing
  split
  · exact ok
  · split
    · exact ends ok
    · split
      · refine ends ?_
        split
        · exact ok.onBasjo ok.basjo.count
        · exact ok
      · exact ite_steady ok (ends ok.receive)

theorem Basjo.Steady.writeFrame {b : Basjo} {h at_ meta_ ts last n i l o} (ok : b.Steady way) :
    (b.writeFrame h at_ meta_ ts last n i l o).Steady way := by
  induction l generalizing b i o with
  | nil =>
    unfold Basjo.writeFrame
    exact ok
  | cons x l ih =>
    unfold Basjo.writeFrame
    exact ih ok.store.store

theorem Dev.Steady.rxFrameWrite {s : Dev} {h descErr dataErr wbErr} (ok : s.Steady way) :
    (s.rxFrameWrite h descErr dataErr wbErr).Steady way := by
  unfold Dev.rxFrameWrite
  split
  · exact ok
  · extract_lets b bufs done dev at_
    split
    · exact ok
    · split
      · exact ok.ringFault.unchoose
      · split
        · exact ok
        · exact ok.ringFault.unchoose
        · exact ok
        · split
          · exact ok.ringFault.mk_rest.release.noteEligible.rxDrop
          · split
            · exact ok.ringFault.count.mk_rest.release.noteEligible
            · extract_lets wt
              exact (((ok.count.onBasjo ok.count.basjo.writeFrame.advance.setRing).mk_rest).release).noteEligible

theorem Dev.Steady.vecTimer {s : Dev} {h v} (ok : s.Steady way) : (s.vecTimer h v).Steady way := by
  unfold Dev.vecTimer
  extract_lets t x
  exact ite_steady ok (ok.onBasjo ok.basjo.fire)

theorem Basjo.Steady.sendPending {b : Basjo} {h v} (ok : b.Steady way) : (b.sendPending h v).Steady way := by
  unfold Basjo.sendPending
  extract_lets x f src
  have ok1 : src.Steady way := ok.setVec
  exact Basjo.ite_steady ok1.mk ok

theorem Dev.Steady.unmask {s : Dev} {h v addr data enable fnMask} (ok : s.Steady way) :
    (s.unmask h v addr data enable fnMask).Steady way := by
  unfold Dev.unmask
  split
  · exact ok
  · exact ok.onBasjo (Basjo.Steady.foldl (fun _ _ ok2 => ok2.sendPending) ok.basjo.setVec.mk)

theorem Dev.Steady.popRec {s : Dev} {o h n} (ok : s.Steady way) : (s.popRec o h n).Steady way := by
  unfold Dev.popRec
  extract_lets q
  split
  · exact ok.readGives
  · exact (ok.onBasjo (Basjo.Steady.foldl (fun _ _ ok1 => ok1.setReg) ok.basjo.mk)).readGives

theorem Dev.Steady.evtPop {s : Dev} {acc h n} (ok : s.Steady way) : (s.evtPop acc h n).Steady way := by
  unfold Dev.evtPop
  extract_lets o r
  split
  · exact ok.readGives
  · exact ite_steady ok.denied.readGives (ite_steady ok.hold (ite_steady ok.count.readGives ok.popRec))

theorem Dev.Steady.evtOverflow {s : Dev} {h q} (ok : s.Steady way) : (s.evtOverflow h q).Steady way := by
  unfold Dev.evtOverflow
  extract_lets open_
  exact ite_steady (ok.onBasjo ok.basjo.overflow) ok

theorem Dev.Steady.stopHost {s : Dev} {h} (ok : s.Steady way) : (s.stopHost h).Steady way := by
  unfold Dev.stopHost
  extract_lets s1 src
  have ok1 : s1.Steady way := ok.onBasjo ((Basjo.Steady.foldl (fun _ _ ok3 => Basjo.ite_steady ok3 ok3.setVec)
    (Basjo.Steady.foldl (fun _ _ ok2 => (Basjo.ite_steady ((Basjo.ite_steady ok2.setRf ok2).setActive)
    (Basjo.ite_steady ok2.setRf ok2)).setRing) ok.basjo)).mk)
  split
  · exact ok1
  · exact ok1.mk_rest.release.rxDrop

theorem Dev.Steady.hostDown {s : Dev} {h} (ok : s.Steady way) : (s.hostDown h).Steady way := by
  unfold Dev.hostDown
  exact ite_steady ok (((((ok.onBasjo ok.basjo.setReg.mk).stopHost).raiseOther).logHw).ballot)

theorem Dev.Steady.hostUp {s : Dev} {h gen width} (ok : s.Steady way) : (s.hostUp h gen width).Steady way := by
  unfold Dev.hostUp
  split
  · exact ok
  · extract_lets s1
    have ok1 : s1.Steady way := (ok.onBasjo ok.basjo.setReg.mk).raiseOther
    exact (ite_steady ok1.raiseOther ok1).ballot

theorem Basjo.Steady.hostReset {b : Basjo} {keeps : Nat → Word → Bool} {rings pops vecs msix msgs rate dead up order arrivals}
    (ok : b.Steady way) : (Basjo.mk (b.regs.keep keeps) rings pops vecs msix b.mem msgs rate dead up order arrivals).Steady way :=
  fun e => ⟨Store.wf_keep _ _ _ (ok e).1, (ok e).2⟩

theorem Dev.Steady.hostReset {s : Dev} {h} (ok : s.Steady way) : (s.hostReset h).Steady way := by
  unfold Dev.hostReset
  extract_lets s1
  have ok1 : s1.Steady way := ok.stopHost.onBasjo ok.stopHost.basjo.hostReset
  exact ite_steady ok ok1.dropHolds.raiseOther.logHw

theorem Dev.Steady.evtFault {s : Dev} {h r} (ok : s.Steady way) : (s.evtFault h r).Steady way := by
  unfold Dev.evtFault
  exact ite_steady ok ((ok.onBasjo ok.basjo.setReg).ringFault)

end

end Sys2Proof.Machine
end

section
/-! SUPPORT. The operations of the CAN channels keep what the main die keeps. -/
namespace Sys2Proof.Machine

section
variable {way : Bool}

theorem Dev.Steady.onRoots {s : Dev} {f} (ok : s.Steady way) : (s.onRoots f).Steady way := by
  unfold Dev.onRoots
  exact ok.mk_rest

theorem Dev.Steady.setCanQueue {s : Dev} {n l} (ok : s.Steady way) : (s.setCanQueue n l).Steady way := by
  unfold Dev.setCanQueue
  exact ok.onRoots.setRf (by decide)

theorem Dev.Steady.canEvent {s : Dev} {n cls cause} (ok : s.Steady way) : (s.canEvent n cls cause).Steady way := by
  unfold Dev.canEvent
  extract_lets e
  exact ok.raiseRated

theorem Dev.Steady.setCanErrs {s : Dev} {n e} (ok : s.Steady way) : (s.setCanErrs n e).Steady way := by
  unfold Dev.setCanErrs
  extract_lets s1 old new s2
  have ok1 : s1.Steady way := ok.onRoots.setReg (canReg_spares _ (by decide))
  have ok2 : s2.Steady way := ok1.setRf (by decide)
  exact ite_steady ok1 (ite_steady ok2 ok2.canEvent)

theorem Dev.Steady.canQuiet {s : Dev} {n} (ok : s.Steady way) : (s.canQuiet n).Steady way := by
  unfold Dev.canQuiet
  extract_lets s1 s2
  have ok1 : s1.Steady way := ok.onRoots
  have ok2 : s2.Steady way := ite_steady ok1.pin ok1
  exact ite_steady (ok2.setRb_true.setRb (by decide)) ok2

theorem Dev.Steady.canEnded {s : Dev} {n} (ok : s.Steady way) : (s.canEnded n).Steady way := by
  unfold Dev.canEnded
  exact ite_steady ok.canQuiet ok

theorem Dev.Steady.canFlush {s : Dev} {n} (ok : s.Steady way) : (s.canFlush n).Steady way := by
  unfold Dev.canFlush
  exact ok.count.setCanQueue.canEnded

theorem Dev.Steady.canEnable {s : Dev} {n en} (ok : s.Steady way) (small : n < 24) : (s.canEnable n en).Steady way := by
  unfold Dev.canEnable
  have other : canReg n 0 ≠ 0x700000 := by
    unfold canReg
    omega
  split
  · exact ok
  · split
    · exact ite_steady ((ok.setRb_true.setRf (by decide)).setCanErrs) ok.setRb_true
    · exact (ok.setRb_of_ne other).canFlush

theorem Dev.Steady.canAge {s : Dev} {n} (ok : s.Steady way) : (s.canAge n).Steady way := by
  unfold Dev.canAge
  extract_lets age q kept
  exact ite_steady ok ok.count.setCanQueue

theorem Dev.Steady.canOffer {s : Dev} {n f} (ok : s.Steady way) : (s.canOffer n f).Steady way := by
  unfold Dev.canOffer
  exact ite_steady ok.count (ite_steady ok.count (ite_steady ok.canAge.count ok.canAge.setCanQueue))

theorem Dev.Steady.canHold {s : Dev} {n quiet} (ok : s.Steady way) : (s.canHold n quiet).Steady way := by
  unfold Dev.canHold
  split
  · exact ite_steady (ite_steady ok ok.canQuiet) ok.onRoots
  · exact ok.canQuiet

theorem Dev.Steady.redCan {s : Dev} {was : Dev} (ok : s.Steady way) : (s.redCan was).Steady way := by
  unfold Dev.redCan
  exact Dev.Steady.foldl (fun _ _ ok1 => ite_steady ok1 (ite_steady ok1.canHold (ite_steady ok1.onRoots.pin ok1.onRoots))) ok

theorem Dev.Steady.canEdge {s : Dev} {n f delay} (ok : s.Steady way) : (s.canEdge n f delay).Steady way := by
  unfold Dev.canEdge
  exact ite_steady (ok.setRf (by decide)) ok

theorem Dev.Steady.canSent {s : Dev} {n i f delay} (ok : s.Steady way) : (s.canSent n i f delay).Steady way := by
  unfold Dev.canSent
  extract_lets e s1 s2
  have ok1 : s1.Steady way := ok.setCanQueue.count.setCanErrs
  have ok2 : s2.Steady way := ok1.canEdge
  exact ok2.mk_rest

theorem Dev.Steady.canTxDone {s : Dev} {n delay} (ok : s.Steady way) : (s.canTxDone n delay).Steady way := by
  unfold Dev.canTxDone
  split
  · exact ok
  · split
    · exact ok.canSent.canQuiet
    · split
      · exact ok
      · extract_lets s1
        have ok1 : s1.Steady way := ok.canAge
        split
        · exact ok1
        · exact ok1.canSent

theorem Dev.Steady.canError {s : Dev} {n x} (ok : s.Steady way) : (s.canError n x).Steady way := by
  unfold Dev.canError
  split
  · exact ok
  · extract_lets s1 s2 s3
    have ok1 : s1.Steady way := by
      unfold s1
      split
      · exact ok.count
      · refine Dev.Steady.canEnded ?_
        split
        · exact ok.canEdge
        · exact ok
    have ok2 : s2.Steady way := ok1.setCanErrs
    have ok3 : s3.Steady way := (((ok2.setRf (by decide)).count).canFlush).canEvent
    exact ite_steady ok2 ok3.onRoots

theorem Dev.Steady.boRecover {s : Dev} {n} (ok : s.Steady way) : (s.boRecover n).Steady way := by
  unfold Dev.boRecover
  exact ite_steady ok ok.onRoots

theorem Dev.Steady.canRecovered {s : Dev} {n} (ok : s.Steady way) : (s.canRecovered n).Steady way := by
  unfold Dev.canRecovered
  exact ite_steady ok (((ok.setRf (by decide)).setCanErrs).canEvent)

end

end Sys2Proof.Machine
end

section
/-! SUPPORT. The operations of the gate control lists keep what the main die keeps. -/
namespace Sys2Proof.Machine

section
variable {way : Bool}

theorem Dev.Steady.gateApply {s : Dev} {n} (ok : s.Steady way) : (s.gateApply n).Steady way := by
  unfold Dev.gateApply
  extract_lets s1 e s2 s3 active held src
  have ok1 : s1.Steady way := ok.creditPort
  have ok2 : s2.Steady way := ok1.setRf_of_ne (crownReg_spares _ (by decide))
  have ok3 : s3.Steady way := ok2.setRf (by decide)
  exact ok3.setGate.preemptDue.noteEligible

theorem Dev.Steady.gateBoundary {s : Dev} {n} (ok : s.Steady way) : (s.gateBoundary n).Steady way := by
  unfold Dev.gateBoundary
  exact ite_steady ok ok.gateApply

theorem Dev.Steady.gateCommit {s : Dev} {n} (ok : s.Steady way) : (s.gateCommit n).Steady way := by
  unfold Dev.gateCommit
  split
  · exact ok.setRb_true.gateErr
  · split
    · exact ok.setRb_true.gateErr
    · extract_lets x p src s1 s2
      have ok1 : s1.Steady way := ok.setGate.setRb_true
      have ok2 : s2.Steady way := ok1.setReg (crownReg_spares _ (by decide))
      exact (ok2.setReg (crownReg_spares _ (by decide))).setReg (crownReg_spares _ (by decide))

theorem Dev.Steady.gateCancel {s : Dev} {n} (ok : s.Steady way) : (s.gateCancel n).Steady way := by
  unfold Dev.gateCancel
  split
  · exact ite_steady ok (ok.setGate.setRb (by decide))
  · exact ok

theorem Dev.Steady.gateSwap {s : Dev} {n} (ok : s.Steady way) : (s.gateSwap n).Steady way := by
  unfold Dev.gateSwap
  split
  · exact ok
  · split
    · exact ok
    · extract_lets s1 g new s2 s3 s4 s5 s6 s7
      have ok2 : s1.Steady way := ok.creditPort
      have ok3 : s2.Steady way := Dev.Steady.foldl (fun _ _ ok4 => ok4.setWord) ok2
      have ok5 : s3.Steady way := ok3.setGate
      have ok6 : s4.Steady way := (ok5.setRb (by decide)).setRb_true
      have ok7 : s5.Steady way := (ok6.setReg (crownReg_spares _ (by decide))).setReg (crownReg_spares _ (by decide))
      have ok8 : s6.Steady way := (ok7.setReg (crownReg_spares _ (by decide))).setReg (crownReg_spares _ (by decide))
      have ok9 : s7.Steady way := ok8.setReg (crownReg_spares _ (by decide))
      exact ok9.gateApply.raise

theorem Dev.Steady.gateDisable {s : Dev} {n} (ok : s.Steady way) : (s.gateDisable n).Steady way := by
  unfold Dev.gateDisable
  split
  · exact ok
  · extract_lets s1 src s2
    have ok1 : s1.Steady way := ok.creditPort.setRb_of_ne (crownReg_spares _ (by decide))
    have ok2 : s2.Steady way := ok1.setGate.setRf (by decide)
    exact ok2.gateApply

end

end Sys2Proof.Machine
end

section
/-! SUPPORT. The operations of the gateway keep what the main die keeps. -/
namespace Sys2Proof.Machine

section
variable {way : Bool}

theorem Dev.Steady.canDeny {s : Dev} {m counter cause ch entry} (ok : s.Steady way) : (s.canDeny m counter cause ch entry).Steady way := by
  unfold Dev.canDeny
  exact ok.count.raiseRated.countDeny

theorem Dev.Steady.canFilter {s : Dev} {m} (ok : s.Steady way) : (s.canFilter m).1.Steady way := by
  unfold Dev.canFilter
  extract_lets ch cf l src
  split
  · exact ok
  · split
    · split
      · exact ok
      · exact ok.canDeny
    · extract_lets w k r n
      split
      · exact ok.canDeny
      · split
        · exact ok.canDeny
        · split
          · exact ok.canDeny
          · exact ok.mk_rest

theorem Dev.Steady.diagTouch {s : Dev} {i request} (ok : s.Steady way) : (s.diagTouch i request).Steady way := by
  unfold Dev.diagTouch
  split
  · exact ok
  · extract_lets c' s1
    have ok1 : s1.Steady way := ok.setConn.touchCache
    exact ite_steady ok1.diagEvent ok1

theorem Dev.Steady.udsRequest {s : Dev} {p} (ok : s.Steady way) : (s.udsRequest p).1.Steady way := by
  unfold Dev.udsRequest
  split
  · exact ok.diagTouch
  · extract_lets a b r
    have ok1 : r.1.Steady way := ok.insertConn
    split
    · exact ok1
    · exact ok1.count.logCandidate.countDeny

theorem Dev.Steady.udsCheck {s : Dev} {m} (ok : s.Steady way) : (s.udsCheck m).1.Steady way := by
  unfold Dev.udsCheck
  split
  · exact ok
  · extract_lets ps qs rs
    split
    · refine Dev.Steady.foldl_fst (fun _ _ ok1 => ?_) ok
      extract_lets x
      have ok2 : x.1.Steady way := ok1.udsRequest
      exact ok2
    · split
      · exact ok
      · split
        · exact ok.canDeny
        · exact Dev.Steady.foldl (fun _ _ ok3 => ok3.diagTouch) ok

theorem Dev.Steady.setRoute {s : Dev} {i v} (ok : s.Steady way) : (s.setRoute i v).Steady way := by
  unfold Dev.setRoute
  extract_lets s1
  have ok1 : s1.Steady way := ok.onRoots
  exact ok1.setReg (by decide)

theorem Dev.Steady.routeMiss {s : Dev} {m} (ok : s.Steady way) : (s.routeMiss m).Steady way := by
  unfold Dev.routeMiss
  exact ok.count.raiseRated

theorem Dev.Steady.setAuth {s : Dev} {i e} (ok : s.Steady way) : (s.setAuth i e).Steady way := by
  unfold Dev.setAuth
  exact ok.onRoots

theorem Dev.Steady.authRecord {s : Dev} {m i cause} (ok : s.Steady way) : (s.authRecord m i cause).Steady way := by
  unfold Dev.authRecord
  exact ok.raiseRated

theorem Dev.Steady.authCount {s : Dev} {i} (ok : s.Steady way) : (s.authCount i).Steady way := by
  unfold Dev.authCount
  refine Dev.Steady.count ?_
  split
  · exact ok.setAuth
  · exact ok

theorem Dev.Steady.authFailed {s : Dev} {m i cause} (ok : s.Steady way) : (s.authFailed m i cause).Steady way := by
  unfold Dev.authFailed
  exact ok.authCount.authRecord

theorem Dev.Steady.authExhausted {s : Dev} {i e} (ok : s.Steady way) : (s.authExhausted i e).Steady way := by
  unfold Dev.authExhausted
  exact ite_steady ok ok.setAuth.raise

theorem Dev.Steady.authEnter {s : Dev} {slot} (ok : s.Steady way) : ∀ t, (s.authEnter slot) = some t → t.Steady way := by
  unfold Dev.authEnter
  extract_lets l till
  intro t taken
  split at taken
  · cases taken
  · cases taken
    exact ok.onRoots.beginUse

theorem Dev.Steady.authDrop {s : Dev} {m i} (ok : s.Steady way) : (s.authDrop m i).Steady way := by
  unfold Dev.authDrop
  exact ok.count.authRecord

theorem Dev.Steady.verify {s : Dev} {m i} (ok : s.Steady way) : (s.verify m i).1.Steady way := by
  unfold Dev.verify
  split
  · exact ok.authFailed
  · split
    · exact ok.authExhausted.authCount
    · split
      · exact ok.refuseUse.authFailed
      · split
        · exact ok.authDrop
        · extract_lets d c
          split
          · exact (ok.authEnter _ ‹_›).authFailed
          · split
            · exact (ok.authEnter _ ‹_›).authFailed
            · split
              · exact (ok.authEnter _ ‹_›).authFailed
              · exact (ok.authEnter _ ‹_›).setAuth

theorem Dev.Steady.generate {s : Dev} {m i} (ok : s.Steady way) : (s.generate m i).1.Steady way := by
  unfold Dev.generate
  split
  · exact ok.authRecord
  · split
    · exact ok.authExhausted
    · split
      · exact ok.refuseUse.authRecord
      · split
        · exact ok.authDrop
        · split
          · exact (ok.authEnter _ ‹_›).authRecord
          · extract_lets fv a o src
            exact (ok.authEnter _ ‹_›).setAuth

theorem Dev.Steady.allowedDests {s : Dev} {m n mask own zone} (ok : s.Steady way) : (s.allowedDests m n mask own zone).1.Steady way := by
  unfold Dev.allowedDests
  extract_lets all kept
  exact ok.count

theorem Dev.Steady.linDeliver {s : Dev} {l f} (ok : s.Steady way) (small : l < 16) : (s.linDeliver l f).Steady way := by
  unfold Dev.linDeliver
  extract_lets id d o
  have buffer : id < 64 := Nat.mod_lt _ (by decide)
  exact ((ok.setReg (fbufReg_apart small buffer (by decide))).setReg (fbufReg_apart small buffer (by decide))).setRf (by decide)

theorem Dev.Steady.acfErr {s : Dev} {cause} (ok : s.Steady way) : (s.acfErr cause).Steady way := by
  unfold Dev.acfErr
  exact ok.raiseRated

theorem Dev.Steady.setBatch {s : Dev} {st b} (ok : s.Steady way) : (s.setBatch st b).Steady way := by
  unfold Dev.setBatch
  exact ok.onRoots

theorem Dev.Steady.closeBatch {s : Dev} {st} (ok : s.Steady way) : (s.closeBatch st).Steady way := by
  unfold Dev.closeBatch
  split
  · exact ok
  · extract_lets s1 seq o o1 s2
    have ok1 : s1.Steady way := ok.setBatch
    have ok2 : s2.Steady way := (ok1.setRf (by decide)).onRoots
    exact ite_steady ok1.count.acfErr ok2.offerRoots

theorem Dev.Steady.encapsulate {s : Dev} {m st brief} (ok : s.Steady way) : (s.encapsulate m st brief).Steady way := by
  unfold Dev.encapsulate
  split
  · exact ok.count.acfErr
  · split
    · exact ok
    · extract_lets o hdr most full s1 s2
      have ok1 : s1.Steady way := ite_steady ok.closeBatch ok
      have ok2 : s2.Steady way := by
        unfold s2
        split
        · exact ok1.setBatch
        · exact ok1.setBatch
      exact ite_steady ok.count.acfErr (ite_steady ok2.closeBatch ok2)

theorem mem_allowedDests {s : Dev} {m n mask own zone x} (mem : x ∈ (s.allowedDests m n mask own zone).2) : x < n :=
  List.mem_range.mp (List.mem_filter.mp (List.mem_filter.mp (List.mem_filter.mp mem).1).1).1

theorem Dev.Steady.deliver {s : Dev} {m r} (ok : s.Steady way) : (s.deliver m r).Steady way := by
  unfold Dev.deliver
  extract_lets cans s1 g s2 lins s3
  have ok1 : cans.1.Steady way := ok.allowedDests
  have ok2 : s1.Steady way := ok1
  have ok3 : g.1.Steady way := by
    unfold g
    split
    · exact ok2.generate
    · exact ok2
  have ok4 : s2.Steady way := by
    unfold s2
    split
    · exact Dev.Steady.foldl (fun _ _ ok5 => ok5.canOffer) ok3
    · exact ok3
  have ok6 : lins.1.Steady way := ok4.allowedDests
  have ok7 : s3.Steady way := Dev.Steady.foldl_mem (fun _ _ mem ok8 => ok8.linDeliver (mem_allowedDests mem)) ok6
  exact ite_steady ok4 (ite_steady ok7.encapsulate ok7)

theorem Dev.Steady.gateway {s : Dev} {m} (ok : s.Steady way) : (s.gateway m).Steady way := by
  unfold Dev.gateway
  split
  · exact of_fst ok.canFilter ‹_›
  · split
    · exact of_fst ((of_fst ok.canFilter ‹_›).udsCheck) ‹_›
    · split
      · exact (of_fst ((of_fst ok.canFilter ‹_›).udsCheck) ‹_›).routeMiss
      · split
        · exact (of_fst ((of_fst ok.canFilter ‹_›).udsCheck) ‹_›).deliver
        · split
          · exact of_fst ((of_fst ((of_fst ok.canFilter ‹_›).udsCheck) ‹_›).verify) ‹_›
          · exact (of_fst ((of_fst ((of_fst ok.canFilter ‹_›).udsCheck) ‹_›).verify) ‹_›).deliver

theorem Dev.Steady.canRx {s : Dev} {n f sinceSof} (ok : s.Steady way) : (s.canRx n f sinceSof).Steady way := by
  unfold Dev.canRx
  split
  · exact ok
  · split
    · exact ite_steady ok.canEvent ok.count.setCanErrs
    · extract_lets s1 s2
      have ok1 : s1.Steady way := ok.count.setCanErrs
      have ok2 : s2.Steady way := ok1.wakeCan
      exact ite_steady ok2 ok2.gateway

theorem Dev.Steady.decapErr {s : Dev} {cause} (ok : s.Steady way) : (s.decapErr cause).Steady way := by
  unfold Dev.decapErr
  exact ok.count.acfErr

theorem Dev.Steady.decapMessages {s : Dev} {zone n o} (ok : s.Steady way) : (s.decapMessages zone n o).Steady way := by
  induction n generalizing s o with
  | zero =>
    unfold Dev.decapMessages
    exact ok
  | succ n ih =>
    cases o with
    | nil =>
      unfold Dev.decapMessages
      exact ok
    | cons b o =>
      unfold Dev.decapMessages
      extract_lets len s1
      have ok1 : s1.Steady way := by
        unfold s1
        split
        · exact ok.gateway
        · exact ok.decapErr
      exact ite_steady ok.decapErr (ih ok1)

theorem Dev.Steady.decapNext {s : Dev} (ok : s.Steady way) : s.decapNext.Steady way := by
  unfold Dev.decapNext
  split
  · exact ok
  · extract_lets s1
    have ok1 : s1.Steady way := ok.mk_rest
    split
    · exact ok1
    · extract_lets all at_ o len s2
      have ok2 : s2.Steady way := ite_steady ok1.decapErr ok1.decapMessages
      exact ok2.giveDesc.release

theorem Dev.Steady.routeAdd {s : Dev} {d} (ok : s.Steady way) : (s.routeAdd d).Steady way := by
  unfold Dev.routeAdd
  extract_lets src mask r
  split
  · exact ok.fail
  · split
    · exact ok.setRoute.done
    · split
      · exact ok.setRoute.done
      · exact ok.fail

theorem Dev.Steady.routeDel {s : Dev} {d} (ok : s.Steady way) : (s.routeDel d).Steady way := by
  unfold Dev.routeDel
  split
  · exact ok.setRoute.done
  · exact ok.fail

theorem Dev.Steady.routeRead {s : Dev} {d} (ok : s.Steady way) : (s.routeRead d).Steady way := by
  unfold Dev.routeRead
  split
  · exact ok.done
  · exact ok.fail

theorem Dev.Steady.routeFlush {s : Dev} {d} (ok : s.Steady way) : (s.routeFlush d).Steady way := by
  unfold Dev.routeFlush
  extract_lets goes n s1
  have ok1 : s1.Steady way := ok.onRoots
  exact (ok1.setReg (by decide)).done

theorem Dev.Steady.authSet {s : Dev} {d} (ok : s.Steady way) : (s.authSet d).Steady way := by
  unfold Dev.authSet
  extract_lets w e i lower
  exact CmdRes.ite_steady ok.fail (CmdRes.ite_steady ok.fail ok.setAuth.done)

theorem Dev.Steady.authRead {s : Dev} {d} (ok : s.Steady way) : (s.authRead d).Steady way := by
  unfold Dev.authRead
  split
  · exact ok.done
  · exact ok.fail

end

end Sys2Proof.Machine
end

section
/-! SUPPORT. The operations of the LIN channels keep what the main die keeps. -/
namespace Sys2Proof.Machine

section
variable {way : Bool}

theorem Dev.Steady.setLinRun {s : Dev} {l r} (ok : s.Steady way) : (s.setLinRun l r).Steady way := by
  unfold Dev.setLinRun
  exact ok.onRoots

theorem Dev.Steady.linEnable {s : Dev} {l en} (ok : s.Steady way) (small : l < 16) : (s.linEnable l en).Steady way := by
  unfold Dev.linEnable
  have other : linReg l 0 ≠ 0x700000 := by
    unfold linReg
    omega
  split
  · exact ok
  · split
    · exact (ok.setRb_of_ne other).setLinRun
    · extract_lets baud table
      exact ite_steady ok.setRb_true ok.setRb_true

theorem Dev.Steady.linError {s : Dev} {l id cause} (ok : s.Steady way) : (s.linError l id cause).Steady way := by
  unfold Dev.linError
  exact ok.count.raiseRated

theorem Dev.Steady.linHead {s : Dev} {l id} (ok : s.Steady way) : (s.linHead l id).Steady way := by
  unfold Dev.linHead
  exact ok.mk_rest

theorem Dev.Steady.linSend {s : Dev} {l id n enh} (ok : s.Steady way) : (s.linSend l id n enh).Steady way := by
  unfold Dev.linSend
  extract_lets d
  exact ok.mk_rest.count

theorem Dev.Steady.linSched {s : Dev} {l cause} (ok : s.Steady way) : (s.linSched l cause).Steady way := by
  unfold Dev.linSched
  exact ok.raise

theorem Dev.Steady.linRunWrite {s : Dev} {l run} (ok : s.Steady way) : (s.linRunWrite l run).Steady way := by
  unfold Dev.linRunWrite
  exact ite_steady ok ((ok.setRb_of_ne (linReg_spares _ (by decide))).setLinRun)

theorem Dev.Steady.linSwitch {s : Dev} {l} (ok : s.Steady way) : (s.linSwitch l).Steady way := by
  unfold Dev.linSwitch
  exact ok.setLinRun

theorem Dev.Steady.linSlot {s : Dev} {l} (ok : s.Steady way) : (s.linSlot l).Steady way := by
  unfold Dev.linSlot
  extract_lets r due sel wraps t k s1 s2 w id n s3 go
  have ok1 : s1.Steady way := ite_steady ((ok.setRf (by decide)).linSched) ok
  have ok2 : s2.Steady way := ite_steady ok1.linSched ok1
  have ok3 : s3.Steady way := ok2.setRf (by decide)
  split
  · exact ok
  · exact ite_steady (ite_steady ok3.linSend.setLinRun ok3.count.setLinRun) ok3.linHead.setLinRun

theorem Dev.Steady.linHeader {s : Dev} {l id err} (ok : s.Steady way) : (s.linHeader l id err).Steady way := by
  unfold Dev.linHeader
  split
  · exact ok
  · split
    · exact ok.linError
    · extract_lets f
      exact ite_steady ok.linSend ok

theorem Dev.Steady.linResponse {s : Dev} {l id data cksum err sinceBreak} (ok : s.Steady way) (small : l < 16) :
    (s.linResponse l id data cksum err sinceBreak).Steady way := by
  unfold Dev.linResponse
  split
  · exact ok
  · extract_lets r mine enh s1 f s2 s3
    have ok1 : s1.Steady way := by
      unfold s1
      clear_value mine
      split
      · exact ok.setLinRun
      · exact ok
    have ok2 : s2.Steady way := ok1.count.wakeLin
    have ok3 : s3.Steady way := (ok2.linDeliver small).setRb_true
    split
    · exact ok1.linError
    · exact ite_steady ok1.linError (ite_steady ok3 ok3.gateway)

theorem Dev.Steady.linNoResponse {s : Dev} {l} (ok : s.Steady way) : (s.linNoResponse l).Steady way := by
  unfold Dev.linNoResponse
  extract_lets r
  split
  · exact ok.setLinRun.linError
  · exact ok

end

end Sys2Proof.Machine
end

section
/-! SUPPORT. The operations of the powered units keep what the main die keeps. -/
namespace Sys2Proof.Machine

section
variable {way : Bool}

theorem Dev.Steady.portStart {s : Dev} {n} (ok : s.Steady way) : (s.portStart n).Steady way := by
  unfold Dev.portStart
  exact ite_steady ok.portUpFrom ok

theorem Dev.Steady.canPin {s : Dev} {n} (ok : s.Steady way) : (s.canPin n).Steady way := by
  unfold Dev.canPin
  exact ite_steady ok ok.pin

theorem Dev.Steady.portPowerOff {s : Dev} {n} (ok : s.Steady way) : (s.portPowerOff n).Steady way := by
  unfold Dev.portPowerOff
  exact ite_steady ok.portStop.setLink ok

theorem Dev.Steady.powerDiff {s : Dev} {old : Dev} (ok : s.Steady way) : (s.powerDiff old).Steady way := by
  unfold Dev.powerDiff
  extract_lets up s1 s2 s3 s4 s5
  have ok1 : s1.Steady way := ok.onTapState
  have ok2 : s2.Steady way := Dev.Steady.foldl (fun _ _ ok3 => ite_steady ok3 (ite_steady ok3.portPowerOff (ite_steady ok3.portStart ok3)))
    ok1
  have ok4 : s3.Steady way := Dev.Steady.foldl (fun _ _ ok5 => ite_steady ok5.hostDown ok5) ok2
  have ok6 : s4.Steady way := Dev.Steady.foldl (fun _ _ ok7 => ite_steady ok7.canFlush (ite_steady ok7.canPin ok7)) ok4
  have ok8 : s5.Steady way := Dev.Steady.foldl (fun _ _ ok9 => ite_steady ok9.pin ok9) ok6
  exact ok8.ballot

end

end Sys2Proof.Machine
end

section
/-! SUPPORT. The operations of SAFE keep what the main die keeps. -/
namespace Sys2Proof.Machine

section
variable {way : Bool}

theorem Dev.Steady.safeEvent {s : Dev} {cause a} (ok : s.Steady way) : (s.safeEvent cause a).Steady way := by
  unfold Dev.safeEvent
  exact ok.raise

theorem Dev.Steady.dropDesc {s : Dev} {q x} (ok : s.Steady way) : (s.dropDesc q x).Steady way := by
  unfold Dev.dropDesc
  extract_lets d s1 s2
  have ok1 : s1.Steady way := ite_steady ok ok.giveExt
  have ok2 : s2.Steady way := ite_steady (ok1.setRf (by decide)) ok1.giveDesc
  exact ok2.unqueue.release

theorem Dev.Steady.flushQueue {s : Dev} {q} (ok : s.Steady way) : (s.flushQueue q).Steady way := by
  unfold Dev.flushQueue
  exact Dev.Steady.foldl (fun _ _ ok1 => ok1.dropDesc.count) ok

theorem Dev.Steady.flushDecap {s : Dev} (ok : s.Steady way) : s.flushDecap.Steady way := by
  unfold Dev.flushDecap
  exact Dev.Steady.foldl (fun _ _ ok1 => ok1.giveDesc.release.count) ok.mk_rest

theorem Dev.Steady.flushPassed {s : Dev} (ok : s.Steady way) : s.flushPassed.Steady way := by
  unfold Dev.flushPassed
  extract_lets l
  refine Dev.Steady.foldl (fun _ _ ok1 => ?_) ok.mk_rest
  split
  · exact ok1.discard.count
  · extract_lets v
    exact ite_steady ok1.discard.count ok1.mk_rest

theorem Dev.Steady.safeOutputs {s : Dev} (ok : s.Steady way) : s.safeOutputs.Steady way := by
  unfold Dev.safeOutputs
  extract_lets ports s1 s2 s3 s4 s5
  have ok1 : s1.Steady way := Dev.Steady.foldl (fun _ _ ok2 => ite_steady ok2.quietBit.portSafe ok2.quietBit) ok
  have ok3 : s2.Steady way := Dev.Steady.foldl (fun _ _ ok4 => ok4.gateApply) ok1
  have ok5 : s3.Steady way := ((Dev.Steady.foldl (fun _ _ ok6 => ok6.flushQueue) ok3).flushDecap).flushPassed
  have ok7 : s4.Steady way := Dev.Steady.foldl (fun _ _ ok8 => ok8.canHold) ok5
  have ok9 : s5.Steady way := Dev.Steady.foldl (fun _ _ ok10 => ((ite_steady ok10 ok10.pin).linRunWrite).setRb_true) ok7
  exact ((Dev.Steady.foldl (fun _ _ ok11 => ok11.pin) ok9).pin).pin

/-- SAFE is entered by storing bit 31. -/
theorem Dev.Steady.setReg_safe {s : Dev} {v} (ok : s.Steady way) (outside : s.safe = false) : (s.setReg (rasReg 0) v).Steady way := by
  cases way with
  | true => exact ok.setReg_true
  | false =>
    have inside : s.safe = true := ok.regs
    rw [outside] at inside
    cases inside

theorem Dev.Steady.enterSafe {s : Dev} {cause cl un} (ok : s.Steady way) : (s.enterSafe cause cl un).Steady way := by
  unfold Dev.enterSafe
  split
  · exact ok.safeEvent
  · next outside =>
    extract_lets s1 s2 s3 s4
    have ok1 : s1.Steady way := ok.setReg_safe (Bool.eq_false_iff.mpr outside)
    have ok2 : s2.Steady way := ok1.changeMode.logHw.powerDiff
    have ok3 : s3.Steady way := ok2.safeOutputs.safeEvent
    have ok4 : s4.Steady way := ok3.canopyIrq
    exact (ite_steady ok4.setBstate ok4).ballot

end

end Sys2Proof.Machine
end

section
/-! SUPPORT. The operations of the key store and the life cycle keep what the main die keeps. -/
namespace Sys2Proof.Machine

section
variable {way : Bool}

theorem Dev.Steady.keyChange {s : Dev} {d op cause n k} (ok : s.Steady way) : (s.keyChange d op cause n k).Steady way := by
  unfold Dev.keyChange
  extract_lets busy s1 src
  have ok1 : s1.Steady way := ok.setSlot
  have ok2 : src.Steady way := ok1.burl
  exact CmdRes.ite_steady ((ok1.mk_burl ok2.mk).wait) ok1.keyEvent.done

theorem Dev.Steady.slotLost {s : Dev} {n} (ok : s.Steady way) : (s.slotLost n).Steady way := by
  unfold Dev.slotLost
  exact ok.count.keyEvent

theorem Dev.Steady.slotError {s : Dev} {n} (ok : s.Steady way) : (s.slotError n).Steady way := by
  unfold Dev.slotError
  exact ite_steady ok (ite_steady (ok.hwSlot.mk_burl ok.hwSlot.burl.mk) ok.hwSlot.slotLost)

theorem Dev.Steady.usesEnded {s : Dev} {n} (ok : s.Steady way) : (s.usesEnded n).Steady way := by
  unfold Dev.usesEnded
  extract_lets due src s1 src1 s2
  have ok1 : src.Steady way := ok.burl
  have ok2 : s1.Steady way := Dev.Steady.foldl (fun _ _ ok3 => ok3.slotLost) (ok.mk_burl ok1.mk)
  have ok4 : src1.Steady way := ok2.burl
  have ok5 : s2.Steady way := ok2.mk_burl ok4.mk
  split
  · exact ok2
  · exact ite_steady ok2 ok5.keyEvent.completeLate

theorem Dev.Steady.keyBody {s : Dev} {d} {f : ℕ → KeySlot → CmdRes} (ok : s.Steady way) (hf : ∀ z0 z1, (f z0 z1).Steady way) :
    (s.keyBody d f).Steady way := by
  unfold Dev.keyBody
  extract_lets n k
  exact CmdRes.ite_steady ok.fail (CmdRes.ite_steady ok.fail (CmdRes.ite_steady ok.fail (hf _ _)))

theorem Dev.Steady.keyWrite {s : Dev} {d op n k new} (ok : s.Steady way) : (s.keyWrite d op n k new).Steady way := by
  unfold Dev.keyWrite
  exact CmdRes.ite_steady ok.fail (CmdRes.ite_steady ok.fail ok.keyChange)

theorem Dev.Steady.keyLoad {s : Dev} {d} (ok : s.Steady way) : (s.keyLoad d).Steady way := by
  unfold Dev.keyLoad
  extract_lets key256
  exact CmdRes.ite_steady ok.fail (ok.keyBody (fun _ _ => ok.keyWrite))

theorem Dev.Steady.keyDerive {s : Dev} {d} (ok : s.Steady way) : (s.keyDerive d).Steady way := by
  unfold Dev.keyDerive
  extract_lets p key256 usage ctx x
  split
  · exact ok.fail
  · refine ok.keyBody (fun _ _ => ?_)
    extract_lets make
    split
    · exact ok.fail
    · split
      · exact CmdRes.ite_steady ok.keyWrite ok.refuseUse.fail
      · exact CmdRes.ite_steady ((ite_steady ok ok.refuseUse).fail) (CmdRes.ite_steady ok.fail ok.keyWrite)

theorem Dev.Steady.keyUnwrapCmd {s : Dev} {d mem} (ok : s.Steady way) : (s.keyUnwrapCmd d mem).Steady way := by
  unfold Dev.keyUnwrapCmd
  extract_lets p key256 len x
  split
  · exact ok.fail
  · refine ok.keyBody (fun _ _ => ?_)
    split
    · exact ok.fail
    · split
      · exact ok.refuseUse.fail
      · split
        · exact ok.fail
        · split
          · exact ok.fail
          · split
            · exact ok.dmaFail.fail
            · split
              · exact ok.fail
              · exact ok.keyWrite

theorem Dev.Steady.keyErase {s : Dev} {d} (ok : s.Steady way) : (s.keyErase d).Steady way := by
  unfold Dev.keyErase
  exact ok.keyBody (fun _ _ => CmdRes.ite_steady ok.fail (CmdRes.ite_steady ok.fail ok.keyChange))

theorem Dev.Steady.keyInvalidate {s : Dev} {d} (ok : s.Steady way) : (s.keyInvalidate d).Steady way := by
  unfold Dev.keyInvalidate
  exact ok.keyBody (fun _ _ => CmdRes.ite_steady ok.fail (CmdRes.ite_steady ok.fail ok.keyChange))

theorem Dev.Steady.keyRetire {s : Dev} {d} (ok : s.Steady way) : (s.keyRetire d).Steady way := by
  unfold Dev.keyRetire
  exact ok.keyBody (fun _ _ => ok.keyChange)

theorem Dev.Steady.keyInfo {s : Dev} {d} (ok : s.Steady way) : (s.keyInfo d).Steady way := by
  unfold Dev.keyInfo
  exact ok.keyBody (fun _ _ => ok.done)

theorem Dev.Steady.keyCommand {s : Dev} {d op mask kind} {body : Dev → CmdRes} (ok : s.Steady way)
    (hbody : ∀ z0, z0.Steady way → (body z0).Steady way) : (s.keyCommand d op mask kind body).Steady way := by
  unfold Dev.keyCommand
  exact ok.command (fun _ ok1 => CmdRes.ite_steady ok1.fail (hbody _ ok1))

theorem Dev.Steady.orphanSweep {s : Dev} (ok : s.Steady way) : s.orphanSweep.Steady way := by
  unfold Dev.orphanSweep
  extract_lets l s1
  have ok1 : s1.Steady way := Dev.Steady.foldl (fun _ _ ok2 => ok2.hwSlot.count) ok
  refine Dev.Steady.foldl (fun _ _ ok3 => ?_) ok1
  split
  · exact ok3
  · extract_lets key more s2
    have ok4 : s2.Steady way := ok3.onBasjo ok3.basjo.mk
    exact ok4.raiseRated

theorem Dev.Steady.dropRoot {s : Dev} (ok : s.Steady way) : s.dropRoot.Steady way := by
  unfold Dev.dropRoot
  exact (ok.mk_burl ok.burl.mk).setRf (by decide)

theorem Dev.Steady.zeroise {s : Dev} (ok : s.Steady way) : (s.zeroise).Steady way := by
  unfold Dev.zeroise
  exact (ok.mk_burl fun _ => Store.wf_nil _).setReg (by decide)

theorem Dev.Steady.setLife {s : Dev} {n} (ok : s.Steady way) : (s.setLife n).Steady way := by
  unfold Dev.setLife
  exact (ok.mk_burl ok.burl.mk).setRf (by decide)

theorem Dev.Steady.lcAdvance {s : Dev} {target} (ok : s.Steady way) : (s.lcAdvance target).Steady way := by
  unfold Dev.lcAdvance
  exact CmdRes.ite_steady ok.fail (((ite_steady ok.setLife.dropRoot.zeroise ok.setLife.dropRoot).raise).done)

theorem Dev.Steady.generate1 {s : Dev} (ok : s.Steady way) : s.generate1.Steady way := by
  unfold Dev.generate1
  exact ok.mk_burl ok.burl.mk

theorem Dev.Steady.rngRead {s : Dev} {d err} (ok : s.Steady way) : (s.rngRead d err).Steady way := by
  unfold Dev.rngRead
  extract_lets n r
  have ok1 : r.2.Steady way := ok.generate1.drawBytes
  split
  · exact ok.fail
  · exact CmdRes.ite_steady ok.fail (CmdRes.ite_steady ok1.dmaFail.fail ok1.hostWrite.done)

theorem Dev.Steady.rngFails {s : Dev} {status} (ok : s.Steady way) : (s.rngFails status).Steady way := by
  unfold Dev.rngFails
  exact ((ok.setReg (by decide)).count).raise

theorem Dev.Steady.rngStart {s : Dev} {good} (ok : s.Steady way) : (s.rngStart good).Steady way := by
  unfold Dev.rngStart
  extract_lets src s1
  have ok1 : src.Steady way := ok.burl
  have ok2 : s1.Steady way := ok.mk_burl ok1.mk
  exact ite_steady (ok2.setReg (by decide)) ok2.rngFails

theorem Dev.Steady.signTo {s : Dev} {d err head} (ok : s.Steady way) : (s.signTo d err head).Steady way := by
  unfold Dev.signTo
  split
  · exact ok.fail
  · split
    · exact ok.fail
    · extract_lets out src s1
      have ok1 : src.Steady way := ok.generate1
      have ok2 : s1.Steady way := ok1.mk_rest
      exact CmdRes.ite_steady ok2.dmaFail.fail ok2.hostWrite.done

theorem Dev.Steady.idPubkey {s : Dev} {d err} (ok : s.Steady way) : (s.idPubkey d err).Steady way := by
  unfold Dev.idPubkey
  split
  · exact ok.fail
  · exact CmdRes.ite_steady ok.dmaFail.fail ok.hostWrite.done

theorem Dev.Steady.sigVerify {s : Dev} {d mem} (ok : s.Steady way) : (s.sigVerify d mem).Steady way := by
  unfold Dev.sigVerify
  extract_lets n o at_ msg
  split
  · exact ok.fail
  · exact CmdRes.ite_steady ok.dmaFail.fail (CmdRes.ite_steady ok.done ok.count.fail)

theorem Dev.Steady.sigCommand {s : Dev} {d op mask} {body : Dev → CmdRes} (ok : s.Steady way)
    (hbody : ∀ z0, z0.Steady way → (body z0).Steady way) : (s.sigCommand d op mask body).Steady way := by
  unfold Dev.sigCommand
  exact ok.command (fun _ ok1 => hbody _ ok1)

theorem Dev.Steady.dropSecured {s : Dev} {p off} (ok : s.Steady way) : (s.dropSecured p off).Steady way := by
  unfold Dev.dropSecured
  extract_lets tell s1 gone s2 s3 src
  have tells {s : Dev} {n} (ok : s.Steady way) : (tell s n).Steady way := by
    unfold tell
    split
    · exact ok.count
    · exact ok
  have ok1 : s1.Steady way := by
    unfold s1
    split
    · exact ite_steady (tells ok.setRx.discard.endUse) ok
    · exact ok
  have ok2 : s2.Steady way := Dev.Steady.foldl (fun _ _ ok3 => ok3.discard.endUse) ok1.setEnded
  have ok4 : s3.Steady way := tells ok2
  split
  · split
    · exact ite_steady ok4 (tells ok4.setPort.endUse.giveCells)
    · exact ok4
  · exact ok4

theorem Dev.Steady.tamperFrames {s : Dev} (ok : s.Steady way) : s.tamperFrames.Steady way := by
  unfold Dev.tamperFrames
  extract_lets s1
  have ok1 : s1.Steady way := Dev.Steady.foldl (fun _ _ ok2 => ok2.dropSecured) ok
  exact Dev.Steady.foldl (fun _ _ ok3 => ok3.mk_rest.count) ok1

theorem Dev.Steady.tamperLatch {s : Dev} {src} (ok : s.Steady way) : (s.tamperLatch src).Steady way := by
  unfold Dev.tamperLatch
  extract_lets m src1
  have ok1 : src1.Steady way := ok.burl
  exact (ok.mk_burl ok1.mk).setReg (by decide)

theorem Dev.Steady.decommission {s : Dev} (ok : s.Steady way) : s.decommission.Steady way := by
  unfold Dev.decommission
  exact ((ok.mk_burl ok.burl.mk).setRb_true).setLife

theorem Dev.Steady.jobTampered {s : Dev} (ok : s.Steady way) : s.jobTampered.Steady way := by
  unfold Dev.jobTampered
  split
  · exact (((ok.mk_burl ok.burl.mk).setRb (by decide)).count).completeLate
  · exact ok

theorem Dev.Steady.tamperZeroise {s : Dev} (ok : s.Steady way) : s.tamperZeroise.Steady way := by
  unfold Dev.tamperZeroise
  exact ok.log.zeroise

theorem Dev.Steady.tamper {s : Dev} {src} (ok : s.Steady way) : (s.tamper src).Steady way := by
  unfold Dev.tamper
  extract_lets s1 waiting src1 s2 s3 s4
  have ok1 : s1.Steady way := ok.tamperFrames.dropRoot.tamperZeroise
  have ok2 : src1.Steady way := ok1.burl
  have ok3 : s2.Steady way := ((ok1.mk_burl ok2.mk).saCleared).jobTampered
  have ok4 : s3.Steady way := Dev.Steady.foldl (fun _ _ ok5 => ok5.logCommand.completeLate) ok3
  have ok6 : s4.Steady way := ok4.tamperLatch.decommission
  exact ok6.raise.enterSafe

end

end Sys2Proof.Machine
end

section
/-! SUPPORT. The operations of Heartwood's mailbox, as the main die sees it, keep what the main die keeps. -/
namespace Sys2Proof.Machine

section
variable {way : Bool}

theorem Dev.Steady.onSap {s : Dev} {f} (ok : s.Steady way) : (s.onSap f).Steady way := by
  unfold Dev.onSap
  exact ok.mk_rest

theorem Dev.Steady.sapError {s : Dev} {addr backoff} (ok : s.Steady way) : (s.sapError addr backoff).Steady way := by
  unfold Dev.sapError
  exact ok.onSap

theorem Dev.Steady.sapOk {s : Dev} {v} (ok : s.Steady way) : (s.sapOk v).Steady way := by
  unfold Dev.sapOk
  exact ok.onSap.setRf (by decide)

theorem Dev.Steady.logMail {s : Dev} {o addr old new} (ok : s.Steady way) : (s.logMail o addr old new).Steady way := by
  unfold Dev.logMail
  exact ok.log

end

end Sys2Proof.Machine
end

section
/-! SUPPORT. The operations of Sapwood keep what the main die keeps. -/
namespace Sys2Proof.Machine

section
variable {way : Bool}

theorem Dev.Steady.sapFault {s : Dev} {cause} (ok : s.Steady way) : (s.sapFault cause).Steady way := by
  unfold Dev.sapFault
  exact ok.raiseRated

theorem Dev.Steady.declareDown {s : Dev} (ok : s.Steady way) : s.declareDown.Steady way := by
  unfold Dev.declareDown
  extract_lets failed last s1
  have ok1 : s1.Steady way := ok.setRb_true.onSap
  exact ok1.sapFault

theorem Dev.Steady.bridgeUp {s : Dev} (ok : s.Steady way) : s.bridgeUp.Steady way := by
  unfold Dev.bridgeUp
  extract_lets s1
  have ok1 : s1.Steady way := ok.onSap
  exact ite_steady ok1.declareDown ok1

theorem Dev.Steady.freeSems {s : Dev} {o} (ok : s.Steady way) : (s.freeSems o).Steady way := by
  unfold Dev.freeSems
  exact Dev.Steady.foldl_mem (fun _ i mem ok1 => ite_steady (ok1.setReg (by
    have := List.mem_range.mp mem
    unfold sapReg
    omega)) ok1) ok

theorem Dev.Steady.sapTransfer {s : Dev} {h a addr data size atomic crossed} (ok : s.Steady way) :
    (s.sapTransfer h a addr data size atomic crossed).Steady way := by
  unfold Dev.sapTransfer
  split
  · exact ok
  · extract_lets off old which run s1 s2
    have ok1 : s1.Steady way := (ok.count.setRf (by decide)).sapError
    have ok2 : s2.Steady way := by
      unfold s2
      split
      · exact ite_steady ok.logMail ok
      · exact ok
    split
    · exact ok.denied
    · split
      · exact ok.count.sapError
      · exact ite_steady ok.sapError (ite_steady (ite_steady ok1.sapFault ok1) ok2.onSap)

theorem Dev.Steady.semRead {d : Dev} {a i} (ok : d.Steady way) (small : i < 16) : (d.semRead a i).Steady way := by
  unfold Dev.semRead
  extract_lets r v
  have other : r ≠ 0x700000 := by
    unfold r sapReg
    omega
  split
  · exact ok.readGives
  · exact ite_steady ok.denied.readGives ((ite_steady ok (ok.setReg other)).readGives)

end

end Sys2Proof.Machine
end

section
/-! SUPPORT. The operations of Canopy keep what the main die keeps. -/
namespace Sys2Proof.Machine

section
variable {way : Bool}

theorem Dev.Steady.setPairState {s : Dev} {k v} (ok : s.Steady way) : (s.setPairState k v).Steady way := by
  unfold Dev.setPairState
  exact ok.setRf (by decide)

theorem Dev.Steady.setPair {s : Dev} {k p} (ok : s.Steady way) : (s.setPair k p).Steady way := by
  unfold Dev.setPair
  exact ok.mk_rest

theorem Dev.Steady.mismatchEvent {s : Dev} {cause unit addr} (ok : s.Steady way) : (s.mismatchEvent cause unit addr).Steady way := by
  unfold Dev.mismatchEvent
  exact ok.raise

theorem Dev.Steady.abandon {s : Dev} {o} (ok : s.Steady way) : (s.abandon o).Steady way := by
  unfold Dev.abandon
  exact ok.mk_rest

theorem Dev.Steady.coreReset {s : Dev} {o} (ok : s.Steady way) : (s.coreReset o).Steady way := by
  unfold Dev.coreReset
  exact ok.freeSems.abandon.dropHolds

theorem Dev.Steady.retirePair {s : Dev} {k} (ok : s.Steady way) (small : k < 3) : (s.retirePair k).Steady way := by
  unfold Dev.retirePair
  extract_lets w s1 s2 s3 s4
  have ok1 : s1.Steady way := ok.coreReset
  have ok2 : s2.Steady way := ok1.setReg (pairReg_apart small (by decide))
  have ok3 : s3.Steady way := ok2.demand
  have ok4 : s4.Steady way := ok3.setReg (by decide)
  exact ite_steady ok4.setPair.swapUnits.spareEvent.irqsDue ok3.dropUnit.spareEvent.irqsDue.enterSafe

theorem Dev.Steady.recoverPair {s : Dev} {k addr cause} (ok : s.Steady way) (small : k < 3) : (s.recoverPair k addr cause).Steady way := by
  unfold Dev.recoverPair
  extract_lets l src s1 s2 s3 s4
  have ok1 : s1.Steady way := ok.count.setPair
  have ok2 : s2.Steady way := ok1.setRf (by decide)
  have ok3 : s3.Steady way := by
    unfold s3
    split
    · exact ok2.mismatchEvent
    · exact ok2
  have ok4 : s4.Steady way := ite_steady ok3.mismatchEvent ok3
  exact ite_steady (ok3.mismatchEvent.retirePair small) ok4.coreReset.setPairState

theorem Dev.Steady.latentFault {s : Dev} {k} (ok : s.Steady way) (small : k < 3) : (s.latentFault k).Steady way := by
  unfold Dev.latentFault
  exact ok.count.setRb_true.mismatchEvent.retirePair small

theorem Dev.Steady.checkpoint {s : Dev} {k outcome} (ok : s.Steady way) (small : k < 3) : (s.checkpoint k outcome).Steady way := by
  unfold Dev.checkpoint
  split
  · exact ok.setRb_true.count.setPair
  · exact ok.recoverPair small
  · exact ok.latentFault small

theorem Dev.Steady.kick {s : Dev} {w} (ok : s.Steady way) : (s.kick w).Steady way := by
  unfold Dev.kick
  exact ok.mk_rest

theorem Dev.Steady.spqDeliver {s : Dev} {c bufs fail} (ok : s.Steady way) : (s.spqDeliver c bufs fail).Steady way := by
  unfold Dev.spqDeliver
  split
  · exact ok
  · extract_lets x dev left size base at_
    split
    · exact ok
    · split
      · exact ok.onBasjo ok.basjo.setRing
      · split
        · exact ok
        · extract_lets o
          split
          · exact ok
          · exact ok.onBasjo ok.basjo.setRing
          · extract_lets next l s1 src s2
            have ok1 : s1.Steady way := ok.onBasjo ok.basjo.writeFrame.store
            have ok2 : src.Steady way := ok1.setReg (spqReg_spares _ (by decide))
            have ok3 : s2.Steady way := ok2.mk_rest.giveDesc.release
            exact ok3.canopyIrq

theorem Dev.Steady.postIdx {s : Dev} {ctl host dev v} (ok : s.Steady way) (other : host ≠ 0x700000) :
    (s.postIdx ctl host dev v).Steady way := by
  unfold Dev.postIdx
  extract_lets size
  exact ite_steady (ok.setReg other) ok

end

end Sys2Proof.Machine
end

section
/-! SUPPORT. The operations of the cipher jobs keep what the main die keeps. -/
namespace Sys2Proof.Machine

section
variable {way : Bool}

theorem Dev.Steady.jobEnds {s : Dev} {d out n ra rb} (ok : s.Steady way) : (s.jobEnds d out n ra rb).Steady way := by
  unfold Dev.jobEnds
  split
  · exact ok.hostWrite.count.done
  · exact ok.count.raiseRated.done

theorem Dev.Steady.jobOut {s : Dev} {d mem e j key nonce ra rb} (ok : s.Steady way) : (s.jobOut d mem e j key nonce ra rb).Steady way := by
  unfold Dev.jobOut
  extract_lets text aad tagLen n short out write
  have writes {s : Dev} {m} (ok : s.Steady way) : (write s m).Steady way := by
    unfold write
    clear_value out
    split
    · exact ok.hostWrite
    · exact ok
  split
  · exact ok.wait
  · exact (writes ok).count.tamper.done
  · exact CmdRes.ite_steady (writes ok).dmaFail.done ok.jobEnds
  · exact CmdRes.ite_steady ok.dmaFail.done ok.jobEnds

theorem Dev.Steady.job {s : Dev} {d mem e j} (ok : s.Steady way) : (s.job d mem e j).Steady way := by
  unfold Dev.job
  extract_lets text aad tagM1 n k nonce s1 ra rb s2 src
  have ok1 : s1.Steady way := ite_steady ok.setSlot ok
  have ok2 : s2.Steady way := ok1.beginUse.setRb_true
  have ok3 : src.Steady way := ok2.burl
  split
  · exact ok.fail
  · split
    · exact ok.fail
    · split
      · exact ok.refuseUse.fail
      · split
        · exact ok.fail
        · split
          · exact (ok2.mk_burl ok3.mk).wait
          · exact ok1.jobOut

theorem Dev.Steady.jobFinish {s : Dev} {r mem e j} (ok : s.Steady way) : (s.jobFinish r mem e j).Steady way := by
  unfold Dev.jobFinish
  extract_lets src s1
  have ok1 : src.Steady way := ok.burl
  have ok2 : s1.Steady way := ((ok.mk_burl ok1.mk).setRb (by decide)).endUse
  split
  · exact (ok2.jobOut.of_done ‹_›).completeLate
  · exact ok2.jobOut.of_wait ‹_›

theorem Dev.Steady.jobCommand {s : Dev} {d mem e op j} (ok : s.Steady way) : (s.jobCommand d mem e op j).Steady way := by
  unfold Dev.jobCommand
  split
  · exact ok.jobFinish
  · exact ok.command (fun _ ok1 => ok1.job)

end

end Sys2Proof.Machine
end

section
/-! SUPPORT. The operations of RAS keep what the main die keeps. -/
namespace Sys2Proof.Machine

section
variable {way : Bool}

theorem Dev.Steady.retireSlots {s : Dev} {bank} (ok : s.Steady way) : (s.retireSlots bank).Steady way := by
  unfold Dev.retireSlots
  exact Dev.Steady.foldl (fun _ _ ok1 => ok1.hwSlot) ok

theorem Dev.Steady.retireUnit {s : Dev} {c u k} (ok : s.Steady way) (own : (serveBit c u).1 ≠ 0x700000) :
    (s.retireUnit c u k).Steady way := by
  unfold Dev.retireUnit
  extract_lets x sp spare b s1 s2
  have ok1 : s1.Steady way := ok.swapUnits
  have ok2 : s2.Steady way := (ok.dropUnit.setRb_of_ne own).spareEvent
  split
  · exact ok
  · exact ite_steady ((ok1.setRb_of_ne own).setRb_true).spareEvent (ite_steady ok2.retireSlots ok2)

theorem Dev.Steady.bankLost {s : Dev} {x} (ok : s.Steady way) : (s.bankLost x).Steady way := by
  unfold Dev.bankLost
  extract_lets s1 src
  have ok1 : s1.Steady way := ok.setRf (by decide)
  exact ok1.mk_rest.banksGo.pressure.spareEvent

theorem Dev.Steady.retireBank {s : Dev} {b} (ok : s.Steady way) : (s.retireBank b).Steady way := by
  unfold Dev.retireBank
  split
  · exact ok
  · extract_lets src s1 t x
    have ok1 : s1.Steady way := ok.mk_rest
    exact ite_steady ok1.mk_rest (ite_steady ok1.bankLost ok1.mk_rest)

theorem Dev.Steady.bankNext {s : Dev} {l} (ok : s.Steady way) : (s.bankNext l).Steady way := by
  induction l generalizing s with
  | nil =>
    unfold Dev.bankNext
    exact ok.mk_rest
  | cons x l ih =>
    unfold Dev.bankNext
    exact ite_steady ok.mk_rest (ih ok.bankLost)

theorem Dev.Steady.bankCopied {s : Dev} (ok : s.Steady way) : s.bankCopied.Steady way := by
  unfold Dev.bankCopied
  split
  · extract_lets t b
    exact ok.mk_rest.spareEvent.bankNext
  · exact ok

theorem Dev.Steady.retireIfDue {s : Dev} {c u k} (ok : s.Steady way) (own : (serveBit c u).1 ≠ 0x700000) :
    (s.retireIfDue c u k).Steady way := by
  unfold Dev.retireIfDue
  exact ite_steady (ok.retireUnit own) ok

theorem serveBit_walkEngine_apart (g : Fin 4) (e : Fin 9) :
    (serveBit (EccPart.unitOf (.walkEngine g e)).1 (EccPart.unitOf (.walkEngine g e)).2).1 ≠ 0x700000 := by
  revert g e
  decide

theorem serveBit_burl_apart (u : Nat) : (serveBit 0x40 u).1 ≠ 0x700000 := by
  unfold serveBit
  rw [if_pos rfl]
  split
  · exact (by decide : burlReg 0 ≠ 0x700000)
  · exact (by decide : burlReg 0x4010 ≠ 0x700000)

theorem Dev.Steady.corrected {s : Dev} {x} (ok : s.Steady way) : (s.corrected x).Steady way := by
  unfold Dev.corrected
  extract_lets cu src
  split
  · exact ok
  · split
    · extract_lets n s1
      have ok1 : s1.Steady way := ok.mk_rest.countCe
      exact ite_steady ok1.retireBank ok1
    · exact ok.count.countRow
    · exact ok.countCe.retireIfDue (serveBit_walkEngine_apart _ _)
    · exact ok.countCe.retireIfDue (serveBit_burl_apart _)
    · exact ok.countCe.retireIfDue (serveBit_burl_apart _)
    · exact ok.countCe

theorem Dev.Steady.controlError {s : Dev} {c u} (ok : s.Steady way) : (s.controlError c u).Steady way := by
  unfold Dev.controlError
  exact ite_steady ok ok.countUe.eccTrend.enterSafe

theorem Dev.Steady.boughError {s : Dev} {g row} (ok : s.Steady way) : (s.boughError g row).Steady way := by
  unfold Dev.boughError
  exact ok.count.countUe.eccTrend.retireRow

theorem Dev.Steady.uncorrected {s : Dev} {x} (ok : s.Steady way) : (s.uncorrected x).Steady way := by
  unfold Dev.uncorrected
  extract_lets cu
  split
  · exact ok
  · split
    · exact ok
    · exact ok.corrected
    · exact ok.boughError
    · exact ok.countUe.retireUnit (serveBit_burl_apart _)
    · extract_lets n
      exact ok.countUe.eccTrend.slotError.retireUnit (serveBit_burl_apart _)
    · exact ((ok.setRb (by decide)).countUe).eccTrend
    · exact ok.countUe.eccTrend
    · exact ok.cacheError
    · exact ok.controlError
    · exact ok.controlError

theorem Dev.Steady.scrub {s : Dev} {found} (ok : s.Steady way) : (s.scrub found).Steady way := by
  unfold Dev.scrub
  split
  · exact ok
  · refine Dev.Steady.foldl (fun _ _ ok2 => ?_) ok.mk_rest
    split
    · exact ok2
    · exact ite_steady ok2.uncorrected ok2.corrected

theorem Dev.Steady.cellError {s : Dev} {b} (ok : s.Steady way) : (s.cellError b).Steady way := by
  unfold Dev.cellError
  exact ok.countUe.eccTrend.retireBank

theorem Dev.Steady.spoil {s : Dev} {p b x} (ok : s.Steady way) : (s.spoil p b x).Steady way := by
  unfold Dev.spoil
  exact ok.mk_rest.count.cellError

theorem Dev.Steady.dropSpoiled {s : Dev} {p} (ok : s.Steady way) : (s.dropSpoiled p).Steady way := by
  unfold Dev.dropSpoiled
  split
  · exact ite_steady ok.mk_rest.release.noteEligible ok
  · exact ok

theorem Dev.Steady.dropRead {s : Dev} {id b} (ok : s.Steady way) : (s.dropRead id b).Steady way := by
  unfold Dev.dropRead
  exact ok.giveDesc.release.count.cellError

end

end Sys2Proof.Machine
end

section
/-! SUPPORT. The operations of the ACTIVE and STANDBY pair keep what the main die keeps. -/
namespace Sys2Proof.Machine

section
variable {way : Bool}

theorem Dev.Steady.quietPorts {s : Dev} (ok : s.Steady way) : s.quietPorts.Steady way := by
  unfold Dev.quietPorts
  exact Dev.Steady.foldl (fun _ _ ok1 => ok1.quietBit) ok

theorem Dev.Steady.setRole {s : Dev} {on} (ok : s.Steady way) : (s.setRole on).Steady way := by
  unfold Dev.setRole
  exact ((ok.setRb_of_ne (by decide)).quietPorts).redCan

theorem Dev.Steady.setGm {s : Dev} {on} (ok : s.Steady way) : (s.setGm on).Steady way := by
  unfold Dev.setGm
  exact Dev.Steady.foldl (fun _ _ ok1 => ite_steady ok1 (ite_steady ((ok1.setRb (by decide)).syncTimer) (ok1.setRb (by decide)))) ok

theorem Dev.Steady.sendHeartbeat {s : Dev} (ok : s.Steady way) : s.sendHeartbeat.Steady way := by
  unfold Dev.sendHeartbeat
  split
  · exact ok
  · extract_lets src s1 s2 p f sent
    have ok1 : s1.Steady way := ok.mk_rest
    have ok2 : s2.Steady way := ok1.pin.pin
    split
    · exact ok2
    · split
      · exact (((of_snd ok2.secTx ‹_›).mk_rest).countPort (by decide)).countPort (by decide)
      · exact ((((of_snd ok2.secTx ‹_›).mk_rest).countPort (by decide)).countPort (by decide)).endUse
      · exact (of_snd ok2.secTx ‹_›).count

theorem Dev.Steady.pathUp {s : Dev} {path} (ok : s.Steady way) : (s.pathUp path).Steady way := by
  unfold Dev.pathUp
  exact ite_steady ok ok.setRb_true.safeEvent

theorem Dev.Steady.meetPartner {s : Dev} {f} (ok : s.Steady way) : (s.meetPartner f).Steady way := by
  unfold Dev.meetPartner
  extract_lets prio uid mine
  exact ite_steady ok.setRole.setGm.safeEvent.logHw ok

theorem Dev.Steady.proofFrames {s : Dev} {p} (ok : s.Steady way) : (s.proofFrames p).Steady way := by
  unfold Dev.proofFrames
  refine Dev.Steady.foldl (fun _ _ ok1 => Dev.Steady.foldl (fun _ _ ok2 => ?_) ok1) ok
  extract_lets sent
  split
  · exact ((of_snd ok2.secTx ‹_›).countPort (by decide)).countPort (by decide)
  · exact (((of_snd ok2.secTx ‹_›).countPort (by decide)).countPort (by decide)).endUse
  · exact (of_snd ok2.secTx ‹_›).count

theorem Dev.Steady.proofEnds {s : Dev} {st} (ok : s.Steady way) : (s.proofEnds st).Steady way := by
  unfold Dev.proofEnds
  split
  · exact ok
  · extract_lets src s1
    have ok1 : s1.Steady way := ok.mk_rest.setRb (by decide)
    exact ok1.quietPorts.completeLate

theorem Dev.Steady.proofNext {s : Dev} {failed} (ok : s.Steady way) : (s.proofNext failed).Steady way := by
  unfold Dev.proofNext
  split
  · split
    · extract_lets s1 src s2
      have ok1 : s1.Steady way := ok.proofFrames
      have ok2 : s2.Steady way := ok1.mk_rest.quietPorts
      exact ite_steady ok2.proofEnds ok2
    · exact ok.proofEnds
  · exact ok

theorem Dev.Steady.proofTest {s : Dev} {d} (ok : s.Steady way) : (s.proofTest d).Steady way := by
  unfold Dev.proofTest
  extract_lets mask src
  exact CmdRes.ite_steady ok.fail (CmdRes.ite_steady ok.done ok.mk_rest.setRb_true.quietPorts.wait)

theorem Dev.Steady.takeOver {s : Dev} (ok : s.Steady way) : s.takeOver.Steady way := by
  unfold Dev.takeOver
  exact ite_steady ok ok.proofEnds.setRole.setGm.safeEvent.logHw

theorem Dev.Steady.matrixWrite {s : Dev} {a addr value} (ok : s.Steady way) (other : addr ≠ 0x700000) :
    (s.matrixWrite a addr value).Steady way := by
  unfold Dev.matrixWrite
  extract_lets old new s1
  have ok1 : s1.Steady way := ok.count
  split
  · exact ok
  · exact ite_steady (ite_steady ok1.log ok1.denied) (ite_steady ok.denied (ok.log.setReg other))

theorem Dev.Steady.auditDump {s : Dev} {d err} (ok : s.Steady way) : (s.auditDump d err).Steady way := by
  unfold Dev.auditDump
  extract_lets n k l
  split
  · exact ok.fail
  · exact CmdRes.ite_steady ok.fail (CmdRes.ite_steady ok.dmaFail.fail ok.hostWrite.done)

theorem Dev.Steady.auditVerify {s : Dev} {d mem} (ok : s.Steady way) : (s.auditVerify d mem).Steady way := by
  unfold Dev.auditVerify
  extract_lets n
  split
  · exact ok.fail
  · split
    · exact ok.dmaFail.fail
    · split
      · exact ok.done
      · exact ok.done

theorem Dev.Steady.auditCommand {s : Dev} {d op mask} {body : Dev → CmdRes} (ok : s.Steady way)
    (hbody : ∀ z0, z0.Steady way → (body z0).Steady way) : (s.auditCommand d op mask body).Steady way := by
  unfold Dev.auditCommand
  exact ok.command (fun _ ok1 => hbody _ ok1)

end

end Sys2Proof.Machine
end

section
/-! SUPPORT. The operations of updates keep what the main die keeps. -/
namespace Sys2Proof.Machine

section
variable {way : Bool}

theorem Dev.Steady.onUpd {s : Dev} {f} (ok : s.Steady way) : (s.onUpd f).Steady way := by
  unfold Dev.onUpd
  exact ok.mk_rest

theorem Dev.Steady.switchSlot {s : Dev} {kind slot} (ok : s.Steady way) : (s.switchSlot kind slot).Steady way := by
  unfold Dev.switchSlot
  extract_lets s1 n d
  have ok1 : s1.Steady way := ok.setRf_of_ne (by decide)
  exact ok1.onUpd

theorem Dev.Steady.putOctets {s : Dev} {at_ o} (ok : s.Steady way) (high : 0x700000 < at_) : (s.putOctets at_ o).Steady way := by
  unfold Dev.putOctets
  exact Dev.Steady.foldl (fun _ _ ok1 => ok1.setReg (by omega)) ok

theorem Dev.Steady.setRunning {s : Dev} {st} (ok : s.Steady way) : (s.setRunning st).Steady way := by
  unfold Dev.setRunning
  extract_lets s1 s2
  have ok1 : s1.Steady way := ok.onUpd
  have ok2 : s2.Steady way := Dev.Steady.foldl (fun _ _ ok3 => ok3.setReg (by unfold updReg; omega)) ok1
  exact ok2.putOctets (by decide)

theorem Dev.Steady.setPhase {s : Dev} {n} (ok : s.Steady way) : (s.setPhase n).Steady way := by
  unfold Dev.setPhase
  exact ok.setRf (by decide)

theorem Dev.Steady.cutIn {s : Dev} {n} (ok : s.Steady way) : (s.cutIn n).Steady way := by
  unfold Dev.cutIn
  exact ok.setPhase.setRb_true

theorem Dev.Steady.updEvent {s : Dev} {cause a b} (ok : s.Steady way) : (s.updEvent cause a b).Steady way := by
  unfold Dev.updEvent
  exact ok.raise

theorem Dev.Steady.logFirmware {s : Dev} {origin new} (ok : s.Steady way) : (s.logFirmware origin new).Steady way := by
  unfold Dev.logFirmware
  exact ok.log

theorem Dev.Steady.setEntry {s : Dev} {j e} (ok : s.Steady way) : (s.setEntry j e).Steady way := by
  unfold Dev.setEntry
  extract_lets s1
  have ok1 : s1.Steady way := ok.onUpd
  exact ok1.setReg (by decide)

theorem Dev.Steady.program {s : Dev} {base i l} (ok : s.Steady way) : (s.program base i l).1.Steady way := by
  induction l generalizing s i with
  | nil =>
    unfold Dev.program
    exact ok
  | cons b l ih =>
    unfold Dev.program
    extract_lets s1
    have ok1 : s1.Steady way := ok.onUpd
    split
    · exact ih ok1
    · exact ok1

theorem Dev.Steady.imgWrite {s : Dev} {d mem} (ok : s.Steady way) : (s.imgWrite d mem).Steady way := by
  unfold Dev.imgWrite
  extract_lets kind first n
  split
  · exact ok.fail
  · split
    · exact ok.fail
    · split
      · exact ok.fail
      · split
        · exact ok.dmaFail.fail
        · split
          · exact (of_fst ok.program ‹_›).done
          · exact ((of_fst ok.program ‹_›).logCommand).done

theorem Dev.Steady.imgVerify {s : Dev} {d} (ok : s.Steady way) : (s.imgVerify d).Steady way := by
  unfold Dev.imgVerify
  extract_lets kind slot h c
  split
  · exact ok.fail
  · exact CmdRes.ite_steady ok.fail (CmdRes.ite_steady ok.fail (CmdRes.ite_steady ok.fail ok.done))

theorem Dev.Steady.startImage {s : Dev} {kind} (ok : s.Steady way) : (s.startImage kind).Steady way := by
  unfold Dev.startImage
  split
  · exact Dev.Steady.foldl (fun _ _ ok4 => ite_steady ok4 (((ite_steady (ok4.setRb (by decide)) ok4).coreReset).kick)) ok
  · split
    · exact Dev.Steady.foldl (fun _ _ ok7 => ite_steady ok7.linRunWrite.linRunWrite ok7) ok
    · split
      · refine Dev.Steady.foldl (fun _ _ ok9 => ?_) ok
        extract_lets n s1 s2 src s3
        have ok10 : s1.Steady way := ite_steady (ok9.setReg (portReg_spares _ (by decide))) ok9
        have ok11 : s2.Steady way := ok10.abortAll.setLink
        have ok12 : s3.Steady way := ok11.setPort
        exact ite_steady (ite_steady ok12.setLink ok12) ok10
      · exact ok

theorem Dev.Steady.imgActivate {s : Dev} {d} (ok : s.Steady way) : (s.imgActivate d).Steady way := by
  unfold Dev.imgActivate
  extract_lets kind slot base h refuse c st s1
  have ok1 : s1.Steady way := ok.switchSlot.setRunning.startImage
  split
  · exact ok.fail
  · split
    · exact ok.fail
    · split
      · exact ok.fail
      · split
        · exact ok.updEvent.done
        · split
          · exact ok.updEvent.done
          · split
            · exact ok.updEvent.done
            · exact ok1.updEvent.done

theorem Dev.Steady.journalRows {s : Dev} {fails} (ok : s.Steady way) : (s.journalRows fails).1.Steady way := by
  unfold Dev.journalRows
  extract_lets n
  dsimp only
  exact ok.onUpd

theorem Dev.Steady.manifestActivate {s : Dev} {d cut rowFails} (ok : s.Steady way) : (s.manifestActivate d cut rowFails).Steady way := by
  unfold Dev.manifestActivate
  extract_lets slot h j refuse s1 c l svn hw digest prep s2 r s3 s4
  have ok1 : s1.Steady way := ok.logFirmware
  have ok2 : s2.Steady way := ok1.logFirmware
  have ok3 : r.1.Steady way := ok2.journalRows
  have ok4 : s3.Steady way := ok3.setEntry.logFirmware
  have ok5 : s4.Steady way := ok4.onUpd.setPhase.logFirmware
  split
  · exact ok.fail
  · split
    · exact ok.fail
    · split
      · exact ok1.cutIn.wait
      · split
        · exact ok.updEvent.done
        · split
          · exact ok.updEvent.done
          · split
            · exact ok2.setEntry.cutIn.wait
            · exact ok2.setEntry.cutIn.wait
            · exact ok2.setEntry.logFirmware.cutIn.wait
            · exact CmdRes.ite_steady ok3.setEntry.updEvent.done ok5.updEvent.done

theorem Dev.Steady.updCommand {s : Dev} {d op mask kind} {body : Dev → CmdRes} (ok : s.Steady way)
    (hbody : ∀ z0, z0.Steady way → (body z0).Steady way) : (s.updCommand d op mask kind body).Steady way := by
  unfold Dev.updCommand
  exact ok.command (fun _ ok1 => hbody _ ok1)

theorem Dev.Steady.hwDone {s : Dev} (ok : s.Steady way) : s.hwDone.Steady way := by
  unfold Dev.hwDone
  exact ite_steady ok (((ok.onUpd.setRb (by decide)).setPhase).updEvent)

theorem Dev.Steady.raiseSvn {s : Dev} {j fs burl fails} (ok : s.Steady way) : (s.raiseSvn j fs burl fails).Steady way := by
  unfold Dev.raiseSvn
  extract_lets x y s1 s2 s3
  have ok1 : s1.Steady way := ok.onUpd
  have ok2 : s2.Steady way := ite_steady ok1 ok1.updEvent
  have ok3 : s3.Steady way := ite_steady ok2 ok2.updEvent
  exact ok3.setReg (by decide)

theorem Dev.Steady.bootJournal {s : Dev} {r} (ok : s.Steady way) : (s.bootJournal r).Steady way := by
  unfold Dev.bootJournal
  extract_lets n s1 s2
  have ok1 : s1.Steady way := Dev.Steady.foldl (fun _ _ ok2 => ok2.updEvent) ok
  have ok3 : s2.Steady way := ok1.onUpd.setReg (by decide)
  split
  · exact ok3.raiseSvn
  · exact ok3.raiseSvn

theorem Dev.Steady.bootShort {s : Dev} {r} (ok : s.Steady way) : (s.bootShort r).Steady way := by
  unfold Dev.bootShort
  extract_lets s1 s2
  have ok1 : s1.Steady way := ok.bootJournal
  have ok2 : s2.Steady way := ok1.setRb_of_ne (by decide)
  exact ite_steady ok2 ok2.setPhase

theorem Dev.Steady.halt {s : Dev} {kind code} (ok : s.Steady way) : (s.halt kind code).Steady way := by
  unfold Dev.halt
  exact (ok.setReg (by decide)).pin

theorem Dev.Steady.bootPart {s : Dev} {k} (ok : s.Steady way) : (s.bootPart k).Steady way := by
  unfold Dev.bootPart
  split
  · exact ok
  · extract_lets active
    split
    · exact ok.halt
    · extract_lets s1 s2
      have ok1 : s1.Steady way := ite_steady ok.setRb_true.updEvent ok
      have ok2 : s2.Steady way := by
        unfold s2
        split
        · exact Dev.Steady.foldl (fun _ _ ok5 => ite_steady (ok5.setReg (portReg_spares _ (by decide))) ok5) ok1
        · exact ok1
      exact ok2.setRunning

theorem bootRecordHolds_apart {a : Nat} (held : bootRecordHolds a = true) : a ≠ 0x700000 := by
  rintro rfl
  exact absurd held (by decide)

theorem Dev.Steady.loadRecord {s : Dev} {e} (ok : s.Steady way) : (s.loadRecord e).Steady way := by
  unfold Dev.loadRecord
  extract_lets a c
  split
  · exact ok
  · next held =>
    simp only [Bool.or_eq_true, Bool.not_eq_true', not_or, Bool.not_eq_false] at held
    split
    · exact ok.setWord
    · exact ok.setReg (bootRecordHolds_apart held.1)

theorem Dev.Steady.startRecord {s : Dev} {e} (ok : s.Steady way) : (s.startRecord e).Steady way := by
  unfold Dev.startRecord
  extract_lets a n s1 l s2
  split
  · exact ok
  · split
    · have ok1 : s1.Steady way := ok.canEnable (by omega)
      exact ite_steady ((ok1.setRb (by decide)).pin) ok1
    · split
      · have ok2 : s2.Steady way := ok.linEnable (by omega)
        exact ite_steady ok2.pin ok2
      · exact ok

theorem Dev.Steady.runRecord {s : Dev} {e} (ok : s.Steady way) : (s.runRecord e).Steady way := by
  unfold Dev.runRecord
  extract_lets a
  exact ite_steady ok.linRunWrite ok

theorem Dev.Steady.loadRoute {s : Dev} {r} (ok : s.Steady way) : (s.loadRoute r).Steady way := by
  unfold Dev.loadRoute
  split
  · exact ok
  · split
    · exact ok.setRoute
    · exact ok

theorem Dev.Steady.minimalRoots {s : Dev} {body} (ok : s.Steady way) : (s.minimalRoots body).Steady way := by
  unfold Dev.minimalRoots
  extract_lets l
  exact Dev.Steady.foldl (fun _ _ ok4 => ok4.loadRoute) (Dev.Steady.foldl (fun _ _ ok3 => ok3.runRecord)
    (Dev.Steady.foldl (fun _ _ ok2 => ok2.startRecord) (Dev.Steady.foldl (fun _ _ ok1 => ok1.loadRecord) ok)))

theorem Dev.Steady.bootRecord {s : Dev} {slot} (ok : s.Steady way) : (s.bootRecord slot).Steady way := by
  unfold Dev.bootRecord
  extract_lets base
  split
  · exact ok.minimalRoots
  · exact ok

theorem Dev.Steady.bootDir {s : Dev} {n} (ok : s.Steady way) : (s.bootDir n).Steady way := by
  unfold Dev.bootDir
  exact ok.setReg (by decide)

theorem Dev.Steady.bootManifest {s : Dev} (ok : s.Steady way) : s.bootManifest.Steady way := by
  unfold Dev.bootManifest
  extract_lets active e
  split
  · exact ok.halt
  · extract_lets s1 phase pending s2 s3
    have ok1 : s1.Steady way := ite_steady ok.setRb_true.updEvent ok.onUpd
    have ok2 : s2.Steady way := ok1.setReg (by decide)
    have ok3 : s3.Steady way := ok2.setRunning.bootRecord
    exact Dev.Steady.foldl (fun _ _ ok4 => ok4.bootPart) ok3

theorem Dev.Steady.bootImages {s : Dev} {r} (ok : s.Steady way) : (s.bootImages r).Steady way := by
  unfold Dev.bootImages
  extract_lets s1 s2
  have ok1 : s1.Steady way := ok.bootJournal
  have ok2 : s2.Steady way := (ok1.setReg (by decide)).setRunning
  split
  · exact ok2.halt
  · exact ok2.bootDir.bootManifest

end

end Sys2Proof.Machine
end

section
/-! SUPPORT. The operations of resets and boots keep what the main die keeps. -/
namespace Sys2Proof.Machine

section
variable {way : Bool}

theorem Basjo.Steady.dropSram {b : Basjo} (ok : b.Steady way) : (b.dropSram).Steady way := by
  unfold Basjo.dropSram
  exact fun e => ⟨(ok e).1, Store.wf_keep (fun _ => 0) (fun k _ => k < 2 ^ 65) _ (ok e).2⟩

theorem Store.below_mapRegs {v : Variant} {f : Nat → Word → Word} {k : Nat} {m : Store Word} (below : m.below k) :
    Store.below k (mapRegs v f m) := by
  intro e mem
  unfold mapRegs at mem
  obtain ⟨x, old, new⟩ := List.mem_filterMap.mp mem
  split at new
  · cases new
  · cases new
    exact below x old

theorem Store.wf_mapRegs {v : Variant} {f : Nat → Word → Word} {m : Store Word} (wf : m.wf (regReset v) = true) :
    Store.wf (regReset v) (mapRegs v f m) = true := by
  induction m with
  | nil => rfl
  | cons e m ih =>
    obtain ⟨k, x⟩ := e
    obtain ⟨-, below, rest⟩ := (Store.wf_cons _ _ _ _).mp wf
    unfold mapRegs
    rw [List.filterMap_cons]
    dsimp only
    split
    · next reset =>
      split at reset
      · exact ih rest
      · cases reset
    · next kept =>
      split at kept
      · cases kept
      · next other =>
        cases kept
        exact (Store.wf_cons _ _ _ _).mpr ⟨other, Store.below_mapRegs below, ih rest⟩

theorem Dev.Steady.cleared {s : Dev} {f} (ok : s.Steady true) : (s.cleared f).Steady true := by
  obtain ⟨⟨regs, -⟩, basjo, -, burl⟩ := ok
  obtain ⟨bregs, mem⟩ := basjo rfl
  exact ⟨⟨Store.wf_mapRegs regs, Store.wf_nil _⟩, fun _ => ⟨Store.wf_mapRegs bregs, mem⟩, Store.wf_nil (fun _ => none),
    fun _ => Store.wf_filter _ _ _ (burl rfl)⟩

theorem Dev.Steady.epochRegs {s : Dev} (ok : s.Steady way) : s.epochRegs.Steady way := by
  unfold Dev.epochRegs
  exact ((ok.setReg (by decide)).setReg (by decide)).setRb (by decide)

theorem Dev.Steady.bootRoots {s : Dev} {r} (ok : s.Steady way) : (s.bootRoots r).Steady way := by
  unfold Dev.bootRoots
  extract_lets b tampered life create made live s1 s2
  have ok1 : s1.Steady way := ok.mk_burl fun e => by
    split
    · exact Store.wf_nil _
    · exact ok.burl e
  exact (ok1.setReg (by decide)).setReg (by decide)

theorem Dev.Steady.bootLog {s : Dev} (ok : s.Steady way) : s.bootLog.Steady way := by
  unfold Dev.bootLog
  extract_lets epoch
  exact ok.mk_rest.auditEvent

theorem Dev.Steady.bootReports {s : Dev} {r} (ok : s.Steady way) : (s.bootReports r).Steady way := by
  unfold Dev.bootReports
  extract_lets s1
  have ok1 : s1.Steady way := ite_steady ok.raise (ite_steady ok ok.raise)
  exact ok1.rngStart

theorem Dev.Steady.raiseHeld {s : Dev} (ok : s.Steady way) : s.raiseHeld.Steady way := by
  unfold Dev.raiseHeld
  extract_lets l src
  exact Dev.Steady.foldl (fun _ _ ok1 => ok1.raise) ok.mk_rest

theorem Dev.Steady.enterMode {s : Dev} {old new} (ok : s.Steady way) : (s.enterMode old new).Steady way := by
  unfold Dev.enterMode
  exact ite_steady (ok.setReg (by decide)) ((ok.setReg (by decide)).changeMode)

theorem Dev.Steady.bootSafe {s : Dev} (ok : s.Steady way) : s.bootSafe.Steady way := by
  unfold Dev.bootSafe
  extract_lets temp s1
  have ok1 : s1.Steady way := ite_steady ok.enterSafe ok
  exact ite_steady ok1.enterSafe ok1

theorem Dev.Steady.bootEnd {s : Dev} {old new} (ok : s.Steady way) : (s.bootEnd old new).Steady way := by
  unfold Dev.bootEnd
  exact ite_steady (ok.setReg (by decide)) ok.bridgeUp.enterMode.bootSafe.raiseHeld

theorem Dev.Steady.pairTest {s : Dev} {good} (ok : s.Steady way) : (s.pairTest good).Steady way := by
  unfold Dev.pairTest
  split
  · exact ok
  · exact Dev.Steady.foldl (fun _ _ ok2 => ite_steady ok2 ((ok2.setRf (by decide)).dropUnit)) ok

theorem Dev.Steady.bootSplit {s : Dev} {fuse strap} (ok : s.Steady way) : (s.bootSplit fuse strap).Steady way := by
  unfold Dev.bootSplit
  split
  · exact Dev.Steady.foldl_mem (fun _ _ mem ok2 => (ok2.setReg (pairReg_apart (List.mem_range.mp mem) (by decide))).setReg
      (pairReg_apart (List.mem_range.mp mem) (by decide))) (ok.setReg (by decide))
  · exact ok.setReg (by decide)

theorem Dev.Steady.startCanopy {s : Dev} (ok : s.Steady way) : s.startCanopy.Steady way := by
  unfold Dev.startCanopy
  extract_lets s1
  have ok1 : s1.Steady way := Dev.Steady.foldl (fun _ _ ok2 => ok2.setPair) ok
  exact Dev.Steady.foldl (fun _ _ ok3 => ok3.kick) ok1

theorem Dev.Steady.bootFull {s : Dev} {r old strap fuse} (ok : s.Steady way) : (s.bootFull r old strap fuse).Steady way := by
  unfold Dev.bootFull
  extract_lets s1 s2 s3
  have ok1 : s1.Steady way := ok.bootSplit.pairTest.startCanopy.epochRegs.bootRoots.bootLog
  have ok2 : s2.Steady way := ok1.bootReports
  have ok3 : s3.Steady way := ite_steady ok2 ok2.bootImages
  exact ok3.bootEnd

theorem Dev.Steady.pinsFollow {x : Dev} {s : Dev} (ok : x.Steady way) : (x.pinsFollow s).Steady way := by
  unfold Dev.pinsFollow
  split
  · exact ok
  · extract_lets x1 x2
    have ok6 : x1.Steady way := Dev.Steady.foldl (fun _ _ ok7 => ok7.pin) ok
    have ok8 : x2.Steady way := Dev.Steady.foldl (fun _ _ ok9 => ok9.pin) ok6
    split
    · exact ok8
    · refine Dev.Steady.foldl (fun _ _ ok11 => ?_) ok8
      split
      · exact ok11.pin
      · exact ok11

theorem Dev.Steady.cold {s : Dev} {r strap} (ok : s.Steady true) : (s.cold r strap).Steady true := by
  unfold Dev.cold
  extract_lets old fuse safe x src x1 x2 x3
  have ok1 : x.Steady true := ok.cleared
  have ok2 : x1.Steady true := ok1.mk_rest
  have ok3 : x2.Steady true := (ite_steady ok2.pin ok2).pinsFollow
  have ok4 : x3.Steady true := ok3.onBasjo ok3.basjo.dropSram
  exact ok4.bootFull

theorem Dev.Steady.coldEpoch {s : Dev} {r strap} (ok : s.Steady true) : (s.coldEpoch r strap).Steady true := by
  unfold Dev.coldEpoch
  extract_lets old fuse frozen x src src1 x1 x2 x3 x4 x5
  have ok1 : x.Steady true := ok.cleared
  have ok2 : src1.Steady true := ok1.burl
  have ok3 : x1.Steady true := ok1.mk_burl ok2.mk
  have ok4 : x2.Steady true :=
    (((((((ok3.onBasjo ok3.basjo.dropSram).pinsFollow).bootSplit).pairTest).startCanopy).epochRegs).bootRoots).bootLog
  have ok5 : x3.Steady true := ok4.logHw.timeEvent
  have ok6 : x4.Steady true := ok5.bootReports
  have ok7 : x5.Steady true := ite_steady ok6 ok6.bootImages
  exact ok7.bootEnd

theorem Dev.Steady.warm {s : Dev} {r} (ok : s.Steady true) : (s.warm r).Steady true := by
  unfold Dev.warm
  extract_lets old safe halted x src src1 src2 src3 src4 x1 x2 x3 short x4
  have ok1 : x.Steady true := ok.cleared
  have ok2 : src1.Steady true := ok.burl
  have ok3 : x1.Steady true := ok1.mk_burl ok2.mk
  have ok4 : x2.Steady true := ok3.ppsResume.startCanopy.pairTest
  have ok5 : x3.Steady true := (ite_steady ok4.pin ok4).pinsFollow
  have ok6 : x4.Steady true := ite_steady ok5 (ite_steady ok5.bootShort ok5.bootImages)
  exact ok6.bootEnd

end

end Sys2Proof.Machine
end

section
/-! SUPPORT. The operations of Taproot keep what the main die keeps. -/
namespace Sys2Proof.Machine

section
variable {way : Bool}

theorem Dev.Steady.moveMode {s : Dev} {origin target} (ok : s.Steady way) : (s.moveMode origin target).Steady way := by
  unfold Dev.moveMode
  extract_lets x
  have ok1 : x.Steady way := ok.changeMode
  exact (ite_steady ok1.setBstate ok1).powerDiff

theorem Dev.Steady.modeSet {s : Dev} {d} (ok : s.Steady way) : (s.modeSet d).Steady way := by
  unfold Dev.modeSet
  extract_lets t s1
  have ok1 : s1.Steady way := ok.moveMode
  exact CmdRes.ite_steady ok.fail (CmdRes.ite_steady ok1.done ok1.onTapState.wait)

theorem Dev.Steady.latchWake {s : Dev} {k} (ok : s.Steady way) : (s.latchWake k).Steady way := by
  unfold Dev.latchWake
  exact ok.setRb_true

theorem Dev.Steady.holdRec {s : Dev} {cls cause a b} (ok : s.Steady way) : (s.holdRec cls cause a b).Steady way := by
  unfold Dev.holdRec
  exact ok.onTapState

theorem Dev.Steady.commitPoint {s : Dev} (ok : s.Steady way) : s.commitPoint.Steady way := by
  unfold Dev.commitPoint
  split
  · exact ok
  · extract_lets s1 s2 s3 s4
    have ok1 : s1.Steady way := ok.setBstate.setReg (by decide)
    have ok2 : s2.Steady way := (ok1.setReg (by decide)).setReg (by decide)
    have ok3 : s3.Steady way := ok2.onTapState
    have ok4 : s4.Steady way := ok3.holdRec
    exact ok4.canopyIrq

theorem Dev.Steady.sleepAck {s : Dev} (ok : s.Steady way) : s.sleepAck.Steady way := by
  unfold Dev.sleepAck
  exact ite_steady ok.setBstate ok

theorem Dev.Steady.standbyPins {s : Dev} (ok : s.Steady way) : s.standbyPins.Steady way := by
  unfold Dev.standbyPins
  extract_lets s1
  have ok1 : s1.Steady way := Dev.Steady.foldl (fun _ _ ok2 => ok2.pin) ok
  exact Dev.Steady.foldl (fun _ _ ok3 => ok3.pin) ok1

theorem Dev.Steady.ackTimeout {s : Dev} (ok : s.Steady way) : s.ackTimeout.Steady way := by
  unfold Dev.ackTimeout
  split
  · exact ok
  · extract_lets s1
    have ok2 : s1.Steady way := Dev.Steady.foldl (fun _ _ ok3 => ok3.pin) ok.standbyPins
    exact ok2.setRb_true.holdRec.setBstate

theorem Dev.Steady.fallAsleep {s : Dev} (ok : s.Steady way) : s.fallAsleep.Steady way := by
  unfold Dev.fallAsleep
  split
  · exact ok
  · extract_lets standby saved src s1 s2 s3 s4 s5 s6
    have ok5 : src.Steady way := ok.generate1.generate1
    have ok6 : s1.Steady way := ite_steady ok5.mk_rest ok
    have ok7 : s2.Steady way := Dev.Steady.foldl (fun _ _ ok8 => ite_steady ok8.lqSettle ok8) ok6
    have ok9 : s3.Steady way := ite_steady ((ok7.setRf (by decide)).setRb_of_ne (by decide)) ok7
    have ok10 : s4.Steady way := ok9.standbyPins.changeMode.timeStop
    have ok11 : s5.Steady way := ok10.onTapState
    have ok12 : s6.Steady way := ok11.pin
    exact ite_steady ok12 ok12.pin

theorem Dev.Steady.powerRises {s : Dev} (ok : s.Steady way) : s.powerRises.Steady way := by
  unfold Dev.powerRises
  extract_lets s1
  have ok1 : s1.Steady way := ok.onTapState
  exact ok1.pin.pin

theorem Dev.Steady.wakeRequest {s : Dev} {k} (ok : s.Steady way) : (s.wakeRequest k).Steady way := by
  unfold Dev.wakeRequest
  split
  · exact ok
  · split
    · split
      · exact ok
      · exact ite_steady (ite_steady ok.latchWake.powerRises ok.latchWake) (ite_steady ok.latchWake ok)
    · extract_lets s1
      have ok1 : s1.Steady way := ok.wakeSleep
      exact ite_steady ok1.latchWake (ite_steady ok1.ballotAbort.ballot ok1)

theorem Dev.Steady.keepVersions {x : Dev} {s : Dev} (ok : x.Steady way) : (x.keepVersions s).Steady way := by
  unfold Dev.keepVersions
  exact Dev.Steady.foldl_mem (fun _ n mem ok1 => ite_steady (Dev.Steady.foldl_mem (fun _ k word ok2 => ok2.setReg (by
    have := List.mem_range.mp mem
    have := List.mem_range.mp word
    omega)) ok1) ok1) ok

theorem Dev.Steady.wakeRecords {s : Dev} {rise} (ok : s.Steady way) : (s.wakeRecords rise).Steady way := by
  unfold Dev.wakeRecords
  extract_lets why l old
  exact ok.onTapState.wakeSleep

theorem Dev.Steady.wakePins {s : Dev} (ok : s.Steady way) : s.wakePins.Steady way := by
  unfold Dev.wakePins
  extract_lets s1
  have ok1 : s1.Steady way := Dev.Steady.foldl (fun _ _ ok2 => ite_steady ok2 ok2.pin) ok
  exact Dev.Steady.foldl (fun _ _ ok3 => ite_steady ok3.pin ok3) ok1

theorem Dev.Steady.standbyWake {s : Dev} {boot saved} (ok : s.Steady true) : (s.standbyWake boot saved).Steady true := by
  unfold Dev.standbyWake
  extract_lets z table x1 clocks cam burl crown bark roots tap canopy ras sap x2 x3 x4 x5 x6 x7 x8
  have ok1 : x1.Steady true := ok.cleared
  have words : Store.wf (wordReset s.variant) (if saved = true then s.words.filter (fun e => s.savedWord e.1) else []) = true := by
    split
    · exact Store.wf_filter _ _ _ ok.regs.2
    · exact Store.wf_nil _
  have ok2 : x2.Steady true := ⟨⟨ok1.regs.1, words⟩, ok1.basjo.dropSram, ok1.groves, fun _ => ok.burl rfl⟩
  have ok3 : x3.Steady true := ite_steady ok2.genWake ok2
  have ok4 : x4.Steady true := ite_steady ok3.keepVersions ok3
  have ok5 : x5.Steady true := ite_steady (Dev.Steady.foldl (fun _ _ ok6 => ok6.setFdb) ok4) ok4
  have ok6 : x6.Steady true := (ok5.setReg (by decide)).startCanopy.enterMode
  have ok7 : x7.Steady true := ite_steady ((ok6.setRf (by decide)).setRb_true) ok6
  have ok8 : x8.Steady true := Dev.Steady.foldl (fun _ _ ok9 => ite_steady ok9.portStart ok9) ok7
  exact ok8.wakePins.raiseHeld.wakeRecords.rngStart.bridgeUp.ballot

theorem Dev.Steady.coldWake {s : Dev} {boot} (ok : s.Steady true) : (s.coldWake boot).Steady true := by
  unfold Dev.coldWake
  extract_lets rise x
  have ok1 : x.Steady true := ok.cold.onTapState
  exact ite_steady ok.coldEpoch (ite_steady ok1 ok1.wakeRecords)

theorem Dev.Steady.powerGood {s : Dev} {restore boot} (ok : s.Steady true) : (s.powerGood restore boot).Steady true := by
  unfold Dev.powerGood
  split
  · exact ok
  · split
    · exact ok.coldWake
    · split
      · exact ok.standbyWake
      · exact ok.standbyWake
      · exact ok.standbyWake
      · exact ok.coldWake.raise

theorem Dev.Steady.saveEnable {s : Dev} {en} (ok : s.Steady way) : (s.saveEnable en).Steady way := by
  unfold Dev.saveEnable
  extract_lets r
  split
  · exact ok
  · exact ite_steady (ok.setRb_of_ne (by decide)) (ite_steady ok.setRb_true ok.setRb_true)

theorem Dev.Steady.falseWake {s : Dev} {cause k b} (ok : s.Steady way) : (s.falseWake cause k b).Steady way := by
  unfold Dev.falseWake
  exact ite_steady ok.holdRec ok.raise

theorem Dev.Steady.falseWindow {s : Dev} {k} (ok : s.Steady way) : (s.falseWindow k).Steady way := by
  unfold Dev.falseWindow
  extract_lets n w e s1
  have ok1 : s1.Steady way := ok.onTapState
  exact ite_steady ok (ite_steady ok1.setRb_true.falseWake ok1)

end

end Sys2Proof.Machine
end

section
/-! SUPPORT. The operations of clock holds and resets keep what the main die keeps. -/
namespace Sys2Proof.Machine

section
variable {way : Bool}

theorem Dev.Steady.clkHold {s : Dev} {a hold} (ok : s.Steady way) : (s.clkHold a hold).Steady way := by
  unfold Dev.clkHold
  extract_lets sel c u m old new p s1 m1 src s2
  have ok1 : p.1.Steady way := ok.passAccess
  have ok2 : s1.Steady way := ok1.log
  have ok3 : s2.Steady way := ok2.mk_rest
  exact ite_steady ok1 (ite_steady ok2 (ite_steady ok3 (ite_steady ok3.demandCluster ok3.demand)))

theorem Dev.Steady.clkIdle {s : Dev} {c u} (ok : s.Steady way) : (s.clkIdle c u).Steady way := by
  unfold Dev.clkIdle
  exact ite_steady ok ok.mk_rest

theorem Dev.Steady.porst {s : Dev} {boot strap} (ok : s.Steady true) : (s.porst boot strap).Steady true := by
  unfold Dev.porst
  exact ite_steady ok.coldEpoch ok.cold

theorem Dev.Steady.mainRst {s : Dev} (ok : s.Steady way) : s.mainRst.Steady way := by
  unfold Dev.mainRst
  exact ok.pin.pin

theorem Dev.Steady.porstPins {s : Dev} (ok : s.Steady way) : s.porstPins.Steady way := by
  unfold Dev.porstPins
  exact ok.mainRst.pin.pin

theorem Dev.Steady.vaonLost {s : Dev} (ok : s.Steady true) : s.vaonLost.Steady true := by
  unfold Dev.vaonLost
  extract_lets z x src src1 src2 x1
  have ok2 : x.Steady true := ok.cleared
  have ok3 : src1.Steady true := ok2.burl
  have ok4 : x1.Steady true := ok2.mk_basjo_burl ok2.basjo.dropSram ok3.mk
  exact (((ite_steady ok4.pin ok4).pinsFollow).setReg (by decide)).setReg (by decide)

theorem Dev.Steady.dropRx {s : Dev} {p} (ok : s.Steady way) : (s.dropRx p).Steady way := by
  unfold Dev.dropRx
  extract_lets gone l
  exact Dev.Steady.foldl (fun _ _ ok1 => ite_steady ok1.discard.endUse.count ok1.discard.endUse) ok.setRx.setEnded

theorem Dev.Steady.dropPassed {s : Dev} {test} (ok : s.Steady way) : (s.dropPassed test).Steady way := by
  unfold Dev.dropPassed
  extract_lets l
  exact Dev.Steady.foldl (fun _ _ ok1 => ite_steady ok1.discard ok1) ok.mk_rest

theorem Dev.Steady.dropQueued {s : Dev} {q test} (ok : s.Steady way) : (s.dropQueued q test).Steady way := by
  unfold Dev.dropQueued
  exact Dev.Steady.foldl (fun _ _ ok1 => ok1.dropDesc) ok

theorem Dev.Steady.dropSlow {s : Dev} (ok : s.Steady way) : s.dropSlow.Steady way := by
  unfold Dev.dropSlow
  extract_lets l
  exact Dev.Steady.foldl (fun _ _ ok1 => ok1.giveDesc.release) ok.mk_rest

theorem Basjo.Steady.skipRec {b : Basjo} {h cls} (ok : b.Steady way) : (b.skipRec h cls).Steady way := by
  unfold Basjo.skipRec
  extract_lets route n k src src1
  exact Basjo.ite_steady ok (Basjo.ite_steady ok.mk (Basjo.ite_steady ok.setRing ok))

theorem Dev.Steady.dropEvents {s : Dev} {c u} (ok : s.Steady way) : (s.dropEvents c u).Steady way := by
  unfold Dev.dropEvents
  extract_lets hit
  exact ok.onBasjo ((Basjo.Steady.foldl (fun _ _ ok1 => Basjo.Steady.foldl (fun _ _ ok2 => ok2.skipRec) ok1) ok.basjo).mk)

theorem Dev.Steady.softRegs {s : Dev} {c u} (ok : s.Steady true) : (s.softRegs c u).Steady true := by
  unfold Dev.softRegs
  extract_lets f
  exact ⟨⟨Store.wf_mapRegs ok.regs.1, ok.regs.2⟩, ok.basjo, ok.groves, ok.burl⟩

theorem Basjo.Steady.softRegs {b : Basjo} {f rings pops vecs msix msgs rate dead up order arrivals} (ok : b.Steady way) :
    (Basjo.mk (mapRegs .m f b.regs) rings pops vecs msix b.mem msgs rate dead up order arrivals).Steady way :=
  fun e => ⟨Store.wf_mapRegs (ok e).1, (ok e).2⟩

theorem Dev.Steady.softHost {s : Dev} {h d} (ok : s.Steady way) : (s.softHost h d).Steady way := by
  unfold Dev.softHost
  extract_lets src s1 own
  have ok1 : s1.Steady way := by
    unfold s1
    split
    · exact ok.mk_rest.release
    · exact ok
  exact ok1.onBasjo (Basjo.Steady.foldl (fun _ _ ok2 => Basjo.ite_steady ok2.setActive ok2) ok1.basjo.softRegs)

theorem Dev.Steady.softPort {s : Dev} {n} (ok : s.Steady true) : (s.softPort n).Steady true := by
  unfold Dev.softPort
  split
  · exact ok
  · extract_lets s1 src s2
    have ok1 : s1.Steady true := (ok.abortAll.setRb (by decide)).setRb (by decide)
    have ok2 : s2.Steady true := ok1.softRegs.setPort
    exact ite_steady ok2.portUpFrom ok2

theorem Dev.Steady.softGrove {s : Dev} {g u} (ok : s.Steady true) : (s.softGrove g u).Steady true := by
  unfold Dev.softGrove
  extract_lets all s1 src s2 s3 s4
  have ok1 : s1.Steady true := ite_steady ((Dev.Steady.foldl (fun _ _ ok2 => ite_steady ok2.dropRx ok2) ok).dropPassed) ok
  have ok3 : src.Steady true := ok1.groves
  have ok4 : s2.Steady true := ite_steady (ok1.mk_groves ok3.mk) ok1
  have ok5 : s3.Steady true := ite_steady (Dev.Steady.foldl (fun _ _ ok6 => ok6.slowFill) ok4) ok4
  have ok7 : s4.Steady true := ite_steady ok5.setOutgoing ok5
  exact ok7.softRegs

theorem Dev.Steady.softTrunk {s : Dev} {u} (ok : s.Steady true) : (s.softTrunk u).Steady true := by
  unfold Dev.softTrunk
  extract_lets test s1 s2
  have ok1 : s1.Steady true := Dev.Steady.foldl (fun _ _ ok2 => ok2.dropQueued) ok
  have ok3 : s2.Steady true := ite_steady ok1 (((Dev.Steady.foldl (fun _ _ ok4 => ok4.dropRx) ok1).dropPassed).dropSlow)
  exact ok3.softRegs

theorem Dev.Steady.softCrown {s : Dev} {n} (ok : s.Steady true) : (s.softCrown n).Steady true := by
  unfold Dev.softCrown
  split
  · exact ok
  · extract_lets s1 mine src s2 s3 s4
    have ok5 : s1.Steady true := Dev.Steady.foldl (fun _ _ ok6 => ok6.dropQueued) ok
    have ok7 : s2.Steady true := ok5.mk_rest
    have ok8 : s3.Steady true := ok7.softRegs
    have ok9 : s4.Steady true := Dev.Steady.foldl (fun _ _ ok10 => ite_steady ok10.setCq ok10) ok8
    exact ite_steady ok9.gateApply ok9

theorem Dev.Steady.softCambium {s : Dev} {u} (ok : s.Steady true) : (s.softCambium u).Steady true := by
  unfold Dev.softCambium
  extract_lets all s1 s2
  have ok1 : s1.Steady true := by
    refine Dev.Steady.foldl (fun _ _ ok2 => ?_) ok
    split
    · exact ok2
    · extract_lets s3
      have ok3 : s3.Steady true := by
        unfold s3
        split
        · exact ok2.ppsPin
        · exact ok2
      exact ok3.setPps
  have ok4 : s2.Steady true := Dev.Steady.foldl (fun _ _ ok5 => ite_steady ok5.onCam ok5) ok1
  exact ok4.softRegs

theorem Dev.Steady.loseCache {s : Dev} (ok : s.Steady way) : s.loseCache.Steady way := by
  unfold Dev.loseCache
  refine Dev.Steady.foldl (fun _ _ ok1 => ?_) ok
  split
  · exact ok1.setConn.connGauge
  · exact ok1

theorem Dev.Steady.softBark {s : Dev} {u} (ok : s.Steady true) : (s.softBark u).Steady true := by
  unfold Dev.softBark
  extract_lets all src s1 src1 src2 s2 s3 src3 s4
  have ok1 : s1.Steady true := ite_steady ok.mk_rest ok
  have ok2 : src1.Steady true := ok1.loseCache
  have ok3 : s2.Steady true := ite_steady ok2.mk_rest.dropPassed ok1
  have ok4 : s3.Steady true := by
    unfold s3
    split
    · refine Dev.Steady.foldl (fun _ _ ok7 => ?_) ok3
      split
      · exact ite_steady ok7.dropRx ok7
      · exact ok7
    · exact ok3
  have ok8 : s4.Steady true := ite_steady ok4.mk_rest ok4
  exact ok8.softRegs

theorem Dev.Steady.softRoots {s : Dev} {u} (ok : s.Steady true) : (s.softRoots u).Steady true := by
  unfold Dev.softRoots
  extract_lets all can lin s1
  have ok1 : s1.Steady true := ok.onRoots
  exact ok1.softRegs

theorem Dev.Steady.softPipes {s : Dev} (ok : s.Steady way) : s.softPipes.Steady way := by
  unfold Dev.softPipes
  refine Dev.Steady.foldl (fun _ _ ok1 => ?_) ok
  split
  · split
    · exact ok1.dropRx
    · exact ok1
  · exact ok1

theorem Dev.Steady.softBurl {s : Dev} {u} (ok : s.Steady true) : (s.softBurl u).Steady true := by
  unfold Dev.softBurl
  extract_lets all s1 src s2 good s3
  have ok1 : s1.Steady true := ite_steady ok.softPipes ok
  have ok2 : src.Steady true := ok1.burl
  have ok3 : s2.Steady true := ite_steady (ok1.mk_burl ok2.mk) ok1
  have ok4 : s3.Steady true := ite_steady ok3.mk_rest.rngStart ok3
  exact ok4.softRegs

theorem Dev.Steady.onRas {s : Dev} {f} (ok : s.Steady way) : (s.onRas f).Steady way := by
  unfold Dev.onRas
  exact ok.mk_rest

theorem Dev.Steady.softTarget {s : Dev} {d c u} (ok : s.Steady true) : (s.softTarget d c u).Steady true := by
  unfold Dev.softTarget
  extract_lets all s1 s2
  have ok1 : s1.Steady true := ite_steady ok.demandCluster ok.demand
  have ok2 : s2.Steady true := by
    unfold s2
    exact ite_steady (Dev.Steady.foldl (fun _ _ ok3 => ite_steady ok3.softHost ok3) ok1)
      (ite_steady (Dev.Steady.foldl (fun _ _ ok3 => ite_steady ok3.softPort ok3)
        (Dev.Steady.foldl (fun _ _ ok3 => ite_steady ok3.softRegs ok3) ok1))
      (ite_steady ok1.softGrove (ite_steady ok1.softTrunk
      (ite_steady (Dev.Steady.foldl (fun _ _ ok3 => ite_steady ok3.softCrown ok3) ok1)
      (ite_steady ok1.softCambium (ite_steady ok1.softBark (ite_steady ok1.softRoots (ite_steady ok1.softBurl
      (ite_steady ok1.onSap.softRegs.bridgeUp (ite_steady ok1.onRas.softRegs.quietPorts ok1.softRegs))))))))))
  exact ok2.dropEvents

theorem Dev.Steady.softReset {s : Dev} {d} (ok : s.Steady way) : (s.softReset d).Steady way := by
  unfold Dev.softReset
  split
  · exact ok.fail
  · next open_ =>
    cases way with
    | true => exact ok.softTarget.done
    | false =>
      have inside : s.safe = true := ok.regs
      unfold Dev.softFault at open_
      rw [if_pos inside] at open_
      extract_lets at open_
      split at open_
      · cases open_
      · split at open_
        · cases open_
        · cases open_

end

end Sys2Proof.Machine
end

section
/-! SUPPORT. The operations of register writes keep what the main die keeps. -/
namespace Sys2Proof.Machine

section
variable {way : Bool}

/-- What is stored in the register of SAFE is what it holds. -/
theorem Dev.Steady.setAnyReg {s : Dev} {a v} (ok : s.Steady way) (kept : a = 0x700000 → v = s.reg a) : (s.setAnyReg a v).Steady way := by
  unfold Dev.setAnyReg
  split
  · exact ok.onBasjo ok.basjo.setReg
  · by_cases same : a = 0x700000
    · rw [kept same]
      exact ok.setReg_of_bit id
    · exact ok.setReg same

/-- The register of SAFE is written by no access (R519). -/
theorem regRow_safeStatus {r : RegRow} (row : regRow 0x700000 = some r) : r.rw = 0 ∧ r.w1c = 0 := by
  have none_written : ∀ x ∈ regRow 0x700000, x.rw = 0 ∧ x.w1c = 0 := by decide
  exact none_written r row

theorem Dev.Steady.beforeWrite {s : Dev} {a new} (ok : s.Steady way) : (s.beforeWrite a new).Steady way := by
  unfold Dev.beforeWrite
  exact ite_steady ok.setOff (ite_steady ok.gateDisable ok)

theorem Dev.Steady.ringsEnabled {s : Dev} {h} (ok : s.Steady way) : (s.ringsEnabled h).Steady way := by
  unfold Dev.ringsEnabled
  exact ok.onBasjo (Basjo.Steady.foldl (fun _ _ ok1 => Basjo.ite_steady ok1.setActive ok1) ok.basjo)

theorem Dev.Steady.sramRing {s : Dev} {base r} (ok : s.Steady way) (low : base < 0x6FFFF0) : (s.sramRing base r).Steady way := by
  unfold Dev.sramRing
  have ok1 := (ok.setReg (a := base + 0xC) (v := 0) (by omega)).setReg (a := base + 0x10) (v := 0) (by omega)
  exact ok1.onBasjo ok1.basjo.setRing

theorem Dev.Steady.afterWrite {s : Dev} {was : Dev} {a old new v} (ok : s.Steady way) : (s.afterWrite was a old new v).Steady way := by
  unfold Dev.afterWrite
  extract_lets rises h n o n1 s1 l src src1
  have ok1 : s1.Steady way := ite_steady ok.boRecover ok
  split
  · split
    · exact (ite_steady ok.ringsEnabled ok).noteEligible
    · exact ite_steady ok.unchoose.noteEligible ok
  · exact ite_steady ((ite_steady ok (ok.setRf (by decide))).preemptUpdate) ok
  · exact ite_steady ok.slowFill ok
  · exact ite_steady ok.slowFill ok
  · exact ite_steady ok.slowFill ok
  · exact ite_steady ok.slowFill ok
  · exact ite_steady ok.pressure ok
  · exact ite_steady ok.gateApply (ite_steady ok.clearSamples ok)
  · exact ite_steady ok.bothLostFall (ite_steady ok.syncTimer (ite_steady ok.syncTimer ok))
  · exact ite_steady (ite_steady ok1 ok1.pin) (ite_steady (ite_steady ok ok.pin) ok)
  · exact ite_steady ok.setRb_true ok
  · split
    · exact ok.pin
    · exact ite_steady (Dev.Steady.foldl (fun _ _ ok3 => ite_steady ok3.canopyIrq ok3) ok) ok
  · split
    · exact ok
    · refine ite_steady ok.kick (ite_steady ok.kick ?_)
      split
      · exact ok.sramRing (by omega)
      · split
        · exact ok.sramRing (by omega)
        · exact ok
  · split
    · exact (ite_steady ok ok.mk_rest).ballot
    · exact ite_steady ok.ballot (ite_steady ok.powerDiff ok)
  · split
    · exact ((ite_steady ok.mk_rest ok).quietPorts).redCan
    · exact ite_steady ok.redCan (ite_steady ok.quietPorts ok)
  · exact ok

theorem apart_of_row {a n base : Nat} {r : RegRow} (row : regRow a = some r) (empty : ∀ k < n, regRow (base + k) = none) :
    a < base ∨ base + n ≤ a := by
  by_contra near
  have none_there := empty (a - base) (by omega)
  rw [show base + (a - base) = a by omega, row] at none_there
  cases none_there

theorem Dev.Steady.clearBits {s : Dev} {r a v} (ok : s.Steady way) (row : regRow a = some r) : (s.clearBits r a v).Steady way := by
  unfold Dev.clearBits
  extract_lets s1
  have ok1 : s1.Steady way := ok.setAnyReg fun same => by
    subst same
    obtain ⟨-, kept⟩ := regRow_safeStatus row
    rw [kept, BitVec.and_zero, BitVec.not_zero, BitVec.and_allOnes]
    rfl
  have can := apart_of_row (n := 0x20) (base := 0x6FFEE1) row (by decide)
  have lin := apart_of_row (n := 0x18) (base := 0x6FFCE9) row (by decide)
  exact ite_steady (ok1.resetRegs (by omega)) (ite_steady (ok1.resetRegs (by omega)) ok1)

theorem Dev.Steady.clearPart {s : Dev} {acc r a v} (ok : s.Steady way) (row : regRow a = some r) : (s.clearPart acc r a v).Steady way := by
  unfold Dev.clearPart
  extract_lets cu
  exact ite_steady ok (ite_steady ok.hold (ok.clearBits row))

theorem Dev.Steady.storePart {s : Dev} {acc r a v} (ok : s.Steady way) (row : regRow a = some r) : (s.storePart acc r a v).Steady way := by
  unfold Dev.storePart
  split
  · exact ok
  · next written =>
    refine (ok.log.beforeWrite.setAnyReg fun same => ?_).afterWrite
    subst same
    exact absurd (regRow_safeStatus row).1 written

theorem Dev.Steady.demandAccess {s : Dev} {was : Dev} {a} (ok : s.Steady way) : (s.demandAccess was a).Steady way := by
  unfold Dev.demandAccess
  extract_lets cu
  exact ite_steady ok.demand ok

theorem Dev.Steady.writeClkSel {s : Dev} {acc v} (ok : s.Steady way) : (s.writeClkSel acc v).Steady way := by
  unfold Dev.writeClkSel
  extract_lets o old new p s1 src
  have ok1 : p.1.Steady way := ok.passAccess
  have ok2 : s1.Steady way := ok1.log
  exact ite_steady ok1 ok2.mk_rest

theorem Dev.Steady.writeReg {s : Dev} {acc a v} (ok : s.Steady way) : (s.writeReg acc a v).Steady way := by
  unfold Dev.writeReg
  split
  · exact ok.writeClkSel
  · extract_lets old p
    have ok1 : p.1.Steady way := ok.passAccess
    split
    · exact ite_steady ok1.setRb_true.gateErr ((ok1.storePart ‹_›).clearPart ‹_›).demandAccess
    · exact ok1

theorem Dev.Steady.storeWord {s : Dev} {acc w v} (ok : s.Steady way) : (s.storeWord acc w v).Steady way := by
  unfold Dev.storeWord
  split
  · exact ok
  · exact ok
  · extract_lets cu n old new s1 src
    have ok1 : s1.Steady way := ok.log.setWord
    exact ite_steady ok.count (ite_steady ok.setRb_true.gateErr (ite_steady ok1.mk_rest ok1))

theorem Dev.Steady.writeLower {s : Dev} {acc w v} (ok : s.Steady way) : (s.writeLower acc w v).Steady way := by
  unfold Dev.writeLower
  extract_lets p src
  have ok1 : p.1.Steady way := ok.passAccess
  have ok2 : src.Steady way := ok1
  exact ite_steady ok1 ok2.mk_rest

theorem Dev.Steady.writeUpper {s : Dev} {acc w v} (ok : s.Steady way) : (s.writeUpper acc w v).Steady way := by
  unfold Dev.writeUpper
  extract_lets o low all p src s1 cu
  have ok1 : p.1.Steady way := ok.passAccess
  have ok2 : src.Steady way := ok1
  have ok3 : s1.Steady way := ok2.mk_rest
  split
  · exact ok1
  · split
    · exact ok3.hold
    · exact ite_steady ok3.hold ok3.storeWord

theorem Dev.Steady.write {s : Dev} {acc a v} (ok : s.Steady way) : (s.write acc a v).Steady way := by
  unfold Dev.write
  exact ite_steady ok.writeLower (ite_steady ok.writeUpper ok.writeReg)

end

end Sys2Proof.Machine
end

section
/-! SUPPORT. The operations of reads keep what the main die keeps. -/
namespace Sys2Proof.Machine

section
variable {way : Bool}

theorem Dev.Steady.readWord {s : Dev} {a v} (ok : s.Steady way) : (s.readWord a v).2.Steady way := by
  unfold Dev.readWord
  extract_lets cu
  split
  · exact ok
  · exact ok.count

theorem Dev.Steady.readReg {s : Dev} {acc a} (ok : s.Steady way) : (s.readReg acc a).2.Steady way := by
  unfold Dev.readReg
  split
  · exact ok
  · extract_lets cu
    split
    · exact ok
    · split
      · exact ok.denied
      · split
        · exact ok.readWord
        · split
          · exact ok.readWord
          · split
            · exact ok.readWord
            · split
              · exact ok
              · exact ok.count

theorem Dev.Steady.demandRead {s : Dev} {acc a} (ok : s.Steady way) : (s.demandRead acc a).Steady way := by
  unfold Dev.demandRead
  extract_lets cu
  split
  · exact ite_steady ok.demand ok
  · exact ok

theorem Dev.Steady.read {s : Dev} {acc a} (ok : s.Steady way) : (s.read acc a).Steady way := by
  unfold Dev.read
  extract_lets h p
  have ok1 : p.2.Steady way := ok.readReg
  split
  · exact ok.evtPop
  · split
    · exact ok.semRead (by unfold sapReg at *; omega)
    · split
      · exact ok.hold
      · exact ok1.readGives.demandRead

theorem Dev.Steady.strobe {s : Dev} {a v} (ok : s.Steady way) : (s.strobe a v).Steady way := by
  unfold Dev.strobe
  split
  · exact ite_steady ok.cntClr ok
  · extract_lets n s1
    have ok1 : s1.Steady way := ite_steady ok.gateCommit ok
    exact ite_steady ok (ite_steady ok1.gateCancel ok1)
  · exact ite_steady ok.boRecover (ite_steady ok.linSwitch ok)
  · exact ok

theorem Dev.Steady.performHeld {s : Dev} {x} (ok : s.Steady way) : (s.performHeld x).Steady way := by
  unfold Dev.performHeld
  extract_lets on h p
  have ok1 : p.2.Steady way := ok.readReg
  split
  · exact ite_steady ok.popRec ok1.readGives
  · split
    · exact ok.count
    · split
      · exact ok.storeWord
      · split
        · exact (ok.clearBits ‹_›).strobe
        · exact ok

theorem Dev.Steady.release_ {s : Dev} {c u} (ok : s.Steady way) : (s.release_ c u).Steady way := by
  unfold Dev.release_
  exact ite_steady ok (Dev.Steady.foldl (fun _ _ ok1 => ok1.performHeld) ok.mk_rest.demand)

theorem Dev.Steady.bar2Write {s : Dev} {h off v} (ok : s.Steady way) : (s.bar2Write h off v).Steady way := by
  unfold Dev.bar2Write
  exact ite_steady (ite_steady ok.doorbell ok) (ite_steady (ok.onBasjo ok.basjo.setVec.sendPending) ok)

theorem Dev.Steady.bar2Read {s : Dev} {h off} (ok : s.Steady way) : (s.bar2Read h off).2.Steady way := by
  unfold Dev.bar2Read
  extract_lets b
  split
  · exact ok.mk_rest
  · split
    · exact ok
    · split
      · exact ok
      · exact ok

theorem Dev.Steady.pciRead {s : Dev} {h off} (ok : s.Steady way) : (s.pciRead h off).2.Steady way := by
  unfold Dev.pciRead
  extract_lets e
  split
  · exact ok
  · split
    · exact ok
    · exact ok.mk_rest

theorem Dev.Steady.portAccess {s : Dev} {acc a data} (ok : s.Steady way) : (s.portAccess acc a data).Steady way := by
  unfold Dev.portAccess
  extract_lets o p
  have ok1 : p.2.Steady way := by
    unfold p
    split
    · exact ok.pciRead
    · exact ok.bar2Read
  split
  · exact ok
  · split
    · exact ite_steady ok ok.bar2Write
    · exact ok1.readGives

theorem Dev.Steady.sapWires {s : Dev} {h} (ok : s.Steady way) : (s.sapWires h).Steady way := by
  unfold Dev.sapWires
  exact (ok.setRb (by decide)).setRf (by decide)

theorem Dev.Steady.seesHeart {s : Dev} {h a} (ok : s.Steady way) : (s.seesHeart h a).Steady way := by
  unfold Dev.seesHeart
  exact ite_steady ok.sapWires (ite_steady (ok.setRb (by decide)) ok)

theorem Dev.Steady.access {s : Dev} {heart acc a data} (ok : s.Steady way) : (s.access heart acc a data).Steady way := by
  unfold Dev.access
  split
  · exact ok.portAccess
  · split
    · exact ok.sapTransfer
    · split
      · exact ok.write
      · exact ok.seesHeart.read

theorem Dev.Steady.haltedRead {s : Dev} {acc a} (ok : s.Steady way) : (s.haltedRead acc a).Steady way := by
  unfold Dev.haltedRead
  exact ite_steady ok.read ok

end

end Sys2Proof.Machine
end

section
/-! SUPPORT. What the rows of the table do with a property that operations of the main die keep. -/
namespace Sys2Proof.Machine

/-- Where a command leads, the main die keeps the property. -/
def Leads (way : Bool) (r : Host.Outcome State Fault Refusal) : Prop := ∀ t, r = .next t → t.dev.Steady way

section
variable {way : Bool} {s : State}

theorem leads_next {t : State} (ok : t.dev.Steady way) : Leads way (.next t) := by
  rintro _ ⟨⟩
  exact ok

section
variable (ok : s.dev.Steady way) {f : Dev → Dev}
include ok

theorem Dev.Steady.onTap (hf : ∀ x, x.Steady way → (f x).Steady way) : Leads way (s.onTap f) := leads_next (hf _ ok)

theorem Dev.Steady.onAwakeTap (hf : ∀ x, x.Steady way → (f x).Steady way) : Leads way (s.onAwakeTap f) :=
  ok.onTap fun _ ok => ite_steady ok (hf _ ok)

theorem Dev.Steady.onDev (hf : ∀ x, x.Steady way → (f x).Steady way) : Leads way (s.onDev f) := leads_next (ite_steady (hf _ ok) ok)

theorem Dev.Steady.onSettling (hf : ∀ x, x.Steady way → (f x).Steady way) : Leads way (s.onSettling f) :=
  ok.onDev fun _ ok => (hf _ ok).modeDone

theorem Dev.Steady.onReset (hf : ∀ x, x.Steady way → (f x).Steady way) : Leads way (s.onReset f) := leads_next (hf _ ok)

theorem Dev.Steady.onBoth {f : Dev → Heart → Dev × Heart} (hf : ∀ x h, x.Steady way → (f x h).1.Steady way) : Leads way (s.onBoth f) :=
  leads_next (hf _ _ ok)

theorem Dev.Steady.onHeart {f : Dev → Heart → Heart} : Leads way (s.onHeart f) := leads_next ok

theorem Dev.Steady.onHwAlways {f : Heart → Heart} : Leads way (s.onHwAlways f) := leads_next ok

theorem Dev.Steady.onHw {f : Heart → Heart} : Leads way (s.onHw f) := leads_next ok

theorem Dev.Steady.mailbox {m : MbCall} {op : Nat} {lenOk : Nat → Bool} {body : Heart → List Byte → MbRes} :
    Leads way (s.mailbox m op lenOk body) := by
  refine ok.onBoth fun d h ok1 => ?_
  split
  · exact ok1
  · split
    · split
      · exact ok1.mk_rest
      · exact ok1
    · next a req =>
      split
      · exact ok1
      · extract_lets p words d1 d2
        have ok2 : p.1.Steady way := ok1.passAccess
        have ok3 : d1.Steady way := Dev.Steady.foldl (fun _ _ ok4 => ok4.logMail) ok2
        have ok4 : d2.Steady way := ok3.logMail.sapOk
        split
        · exact ok2
        · split
          · exact ok2.sapError
          · split
            · exact ok2.logMail.sapOk
            · exact ok4.mk_rest

end

theorem execRegisterWrite_steady {a addr data} (ok : s.dev.Steady way) : Leads way (execRegisterWrite a addr data s) :=
  ok.onTap fun _ ok1 => ite_steady ok1.access (ite_steady ok1.seesHeart.haltedRead ok1)

theorem execHeldAccessRelease_steady {cluster unit} (ok : s.dev.Steady way) : Leads way (execHeldAccessRelease cluster unit s) :=
  ok.onDev fun _ ok1 => ok1.release_

theorem execTableWordLowerWrite_steady {a addr value} (ok : s.dev.Steady way) : Leads way (execTableWordLowerWrite a addr value s) :=
  ok.onDev fun _ ok1 => ok1.writeLower

theorem execTableWordUpperWrite_steady {a addr value} (ok : s.dev.Steady way) : Leads way (execTableWordUpperWrite a addr value s) :=
  ok.onDev fun _ ok1 => ite_steady ok1 ok1.writeUpper

theorem execDoorbellWrite_steady {h r value posted} (ok : s.dev.Steady way) : Leads way (execDoorbellWrite h r value posted s) :=
  ok.onDev fun _ ok1 => ok1.doorbell

theorem execRingEnable_steady {a h r} (ok : s.dev.Steady way) : Leads way (execRingEnable a h r s) :=
  ok.onDev fun _ ok1 => ok1.writeField (fun _ ok2 => ok2.ringOn)

theorem execRingDisable_steady {a h r} (ok : s.dev.Steady way) : Leads way (execRingDisable a h r s) :=
  ok.onDev fun _ ok1 => ok1.writeField (fun _ ok2 => (ok2.onBasjo ok2.basjo.setRf).noteEligible)

theorem execRingStopped_steady {h r} (ok : s.dev.Steady way) : Leads way (execRingStopped h r s) := ok.onDev fun _ ok1 => ok1.ringStop

theorem execTxDescriptorRead_steady {src desc err wbErr} (ok : s.dev.Steady way) : Leads way (execTxDescriptorRead src desc err wbErr s) :=
  ok.onDev fun _ ok1 => ok1.txDescRead

theorem execTxFrameReadDone_steady {src octets err wbErr} (ok : s.dev.Steady way) : Leads way (execTxFrameReadDone src octets err wbErr s) :=
  ok.onDev fun _ ok1 => ok1.txFrameDone

theorem execRxFrameWrite_steady {h descErr dataErr wbErr} (ok : s.dev.Steady way) : Leads way (execRxFrameWrite h descErr dataErr wbErr s) :=
  ok.onSettling fun _ ok1 => ok1.rxFrameWrite

theorem execEventOverflow_steady {h q} (ok : s.dev.Steady way) : Leads way (execEventOverflow h q s) :=
  ok.onDev fun _ ok1 => ok1.evtOverflow

theorem execVecCoalTimerExpiry_steady {h v} (ok : s.dev.Steady way) : Leads way (execVecCoalTimerExpiry h v s) :=
  ok.onDev fun _ ok1 => ok1.vecTimer

theorem execMsixUnmask_steady {h v addr data enable fnMask} (ok : s.dev.Steady way) :
    Leads way (execMsixUnmask h v addr data enable fnMask s) :=
  ok.onDev fun _ ok1 => ok1.unmask

theorem execEvtPop_steady {a h n} (ok : s.dev.Steady way) : Leads way (execEvtPop a h n s) := ok.onDev fun _ ok1 => ok1.evtPop

theorem execHostLinkUp_steady {h gen width} (ok : s.dev.Steady way) : Leads way (execHostLinkUp h gen width s) :=
  ok.onDev fun _ ok1 => ok1.hostUp

theorem execHostLinkDown_steady {h} (ok : s.dev.Steady way) : Leads way (execHostLinkDown h s) := ok.onSettling fun _ ok1 => ok1.hostDown

theorem execFunctionLevelReset_steady {h} (ok : s.dev.Steady way) : Leads way (execFunctionLevelReset h s) :=
  ok.onSettling fun _ ok1 => ok1.hostReset

theorem execAerUncorrectable_steady {h evt aer} (ok : s.dev.Steady way) : Leads way (execAerUncorrectable h evt aer s) := by
  refine ok.onDev fun _ ok1 => ?_
  split
  · exact ok1
  · extract_lets x1
    have ok2 : x1.Steady way := by
      unfold x1
      split
      · exact ok1.evtFault
      · exact ok1
    exact ite_steady ok2.raiseOther ok2

theorem execPortEnable_steady {a n} (ok : s.dev.Steady way) : Leads way (execPortEnable a n s) :=
  ok.onDev fun _ ok1 => ok1.writeEn (fun _ ok2 => ok2.portEnable)

theorem execPortDisable_steady {a n} (ok : s.dev.Steady way) : Leads way (execPortDisable a n s) :=
  ok.onDev fun _ ok1 => ok1.writeEn (fun _ ok2 => ok2.portDisable n.isLt)

theorem execPortDrainDone_steady {n} (ok : s.dev.Steady way) : Leads way (execPortDrainDone n s) := ok.onDev fun _ ok1 => ok1.drainDone

theorem execCntClr_steady {a n} (ok : s.dev.Steady way) : Leads way (execCntClr a n s) :=
  ok.onDev fun _ ok1 => ok1.writeBit (fun _ ok2 => ok2.cntClr)

theorem execLockGained_steady {n} (ok : s.dev.Steady way) : Leads way (execLockGained n s) :=
  ok.onDev fun _ ok1 => ite_steady ok1.lockUp ok1

theorem execLockLost_steady {n} (ok : s.dev.Steady way) : Leads way (execLockLost n s) :=
  ok.onDev fun _ ok1 => ite_steady ok1.lockDown ok1

theorem execLinkUpDebounceExpiry_steady {n} (ok : s.dev.Steady way) : Leads way (execLinkUpDebounceExpiry n s) :=
  ok.onDev fun _ ok1 => ok1.linkUpExpiry

theorem execLinkDownDebounceExpiry_steady {n} (ok : s.dev.Steady way) : Leads way (execLinkDownDebounceExpiry n s) :=
  ok.onDev fun _ ok1 => ok1.linkDownExpiry

theorem execSerdesFault_steady {n kind} (ok : s.dev.Steady way) : Leads way (execSerdesFault n kind s) :=
  ok.onDev fun _ ok1 => ok1.serdesFault

theorem execFrameRxStart_steady {n octets frac ownTo} (ok : s.dev.Steady way) : Leads way (execFrameRxStart n octets frac ownTo s) :=
  ok.onDev fun _ ok1 => ok1.frameStart

theorem execParserStart_steady {p ue bad lost} (ok : s.dev.Steady way) : Leads way (execParserStart p ue bad lost s) := by
  refine ok.onDev fun _ ok1 => ?_
  extract_lets x1 r
  have ok2 : x1.Steady way := ite_steady ok1.offerRoots ok1
  have ok3 : r.1.Steady way := ok2.parserRun
  split
  · exact ok3.boughError
  · exact ok3

theorem execFrameRxEnd_steady {p fcsOk pcsErr} (ok : s.dev.Steady way) : Leads way (execFrameRxEnd p fcsOk pcsErr s) := by
  refine ok.onSettling fun _ ok1 => ?_
  extract_lets x1
  have ok2 : x1.Steady way := (ite_steady ok1.offerRoots ok1).frameEnd
  exact ite_steady ok2.offerRoots ok2

theorem execCrownSelect_steady {p ue} (ok : s.dev.Steady way) : Leads way (execCrownSelect p ue s) := by
  refine ok.onSettling fun _ ok1 => ?_
  extract_lets x
  have ok2 : x.Steady way := ok1.crownSelect
  refine Dev.Steady.dropSpoiled ?_
  split
  · exact ite_steady ok2 ok2.spoil
  · exact ok2

theorem execTransmissionComplete_steady {p coll} (ok : s.dev.Steady way) : Leads way (execTransmissionComplete p coll s) :=
  ok.onSettling fun _ ok1 => ok1.txComplete

theorem execPreemptVerifyTimer_steady {n} (ok : s.dev.Steady way) : Leads way (execPreemptVerifyTimer n s) :=
  ok.onDev fun _ ok1 => ok1.verifyTimer

theorem execPreemptVerifyResponse_steady {n} (ok : s.dev.Steady way) : Leads way (execPreemptVerifyResponse n s) :=
  ok.onDev fun _ ok1 => ok1.verifyResponse

theorem execPreemptFragmentRx_steady {n frag} (ok : s.dev.Steady way) : Leads way (execPreemptFragmentRx n frag s) :=
  ok.onDev fun _ ok1 => ok1.fragment

theorem execBeaconRx_steady {n} (ok : s.dev.Steady way) : Leads way (execBeaconRx n s) := ok.onDev fun _ ok1 => ok1.beaconRx

theorem execBeaconTimeout_steady {n} (ok : s.dev.Steady way) : Leads way (execBeaconTimeout n s) :=
  ok.onDev fun _ ok1 => ok1.beaconTimeout

theorem execC22Read_steady {d phy} (ok : s.dev.Steady way) : Leads way (execC22Read d phy s) :=
  ok.onDev fun _ ok1 => ok1.mdioCommand (fun _ ok2 => ok2.mdioRead)

theorem execC22Write_steady {d} (ok : s.dev.Steady way) : Leads way (execC22Write d s) :=
  ok.onDev fun _ ok1 => ok1.mdioCommand (fun _ ok2 => ok2.mdioWrite)

theorem execC45Read_steady {d phy} (ok : s.dev.Steady way) : Leads way (execC45Read d phy s) :=
  ok.onDev fun _ ok1 => ok1.mdioCommand (fun _ ok2 => ok2.mdioRead)

theorem execC45Write_steady {d} (ok : s.dev.Steady way) : Leads way (execC45Write d s) :=
  ok.onDev fun _ ok1 => ok1.mdioCommand (fun _ ok2 => ok2.mdioWrite)

theorem execMdioPoll_steady {m k phy} (ok : s.dev.Steady way) : Leads way (execMdioPoll m k phy s) := ok.onDev fun _ ok1 => ok1.mdioPoll

theorem execLqSecondEnd_steady {n} (ok : s.dev.Steady way) : Leads way (execLqSecondEnd n s) := ok.onDev fun _ ok1 => ok1.lqEnd

theorem execBoughLoad_steady {d mem} (ok : s.dev.Steady way) : Leads way (execBoughLoad d mem s) :=
  ok.onDev fun _ ok1 => ok1.groveCommand (fun _ ok2 => ok2.boughLoad)

theorem execCommit_steady {d} (ok : s.dev.Steady way) : Leads way (execCommit d s) :=
  ok.onDev fun _ ok1 => ok1.groveCommand (fun _ ok2 => ok2.commitCmd)

theorem execVersionRetire_steady {v} (ok : s.dev.Steady way) : Leads way (execVersionRetire v s) :=
  ok.onDev fun _ ok1 => ok1.versionRetire v.isLt

theorem execFdbSeedWrite_steady {a value} (ok : s.dev.Steady way) : Leads way (execFdbSeedWrite a value s) :=
  ok.onDev fun _ ok1 => ite_steady (ok1.writeField (fun _ ok2 => ok2.setReg (by decide))) ok1.passAccess

theorem execLearningMessageRx_steady {g} (ok : s.dev.Steady way) : Leads way (execLearningMessageRx g s) := by
  refine ok.onDev fun _ ok1 => ?_
  split
  · exact ok1
  · split
    · next r taken =>
      have ok2 : r.2.Steady way := ok1.takeMsg _ taken
      extract_lets x
      have ok3 : x.Steady way := ok2.applyLearn
      exact ite_steady ok1 ok3.forwardMsg
    · exact ok1

theorem execHoldMessageRx_steady {g} (ok : s.dev.Steady way) : Leads way (execHoldMessageRx g s) := by
  refine ok.onDev fun _ ok1 => ?_
  split
  · exact ok1
  · split
    · next r taken =>
      have ok2 : r.2.Steady way := ok1.takeMsg _ taken
      exact ok2.applyHold.forwardMsg
    · exact ok1

theorem execStashRelocate_steady {g} (ok : s.dev.Steady way) : Leads way (execStashRelocate g s) :=
  ok.onDev fun _ ok1 => ok1.stashRelocate

theorem execAgeingTick_steady {bad} (ok : s.dev.Steady way) : Leads way (execAgeingTick bad s) := ok.onDev fun _ ok1 => ok1.ageingTick

theorem execDampeningSweep_steady {g} (ok : s.dev.Steady way) : Leads way (execDampeningSweep g s) := ok.onDev fun _ ok1 => ok1.dampSweep

theorem execHoldEndReached_steady {g vid mac} (ok : s.dev.Steady way) : Leads way (execHoldEndReached g vid mac s) := by
  refine ok.onDev fun _ ok1 => ?_
  split
  · exact ok1.meetHold
  · exact ok1

theorem execFdbAdd_steady {d} (ok : s.dev.Steady way) : Leads way (execFdbAdd d s) :=
  ok.onDev fun _ ok1 => ok1.groveCommand (fun _ ok2 => ok2.fdbAdd)

theorem execFdbDel_steady {d} (ok : s.dev.Steady way) : Leads way (execFdbDel d s) :=
  ok.onDev fun _ ok1 => ok1.groveCommand (fun _ ok2 => ok2.fdbDel)

theorem execFdbFlush_steady {d} (ok : s.dev.Steady way) : Leads way (execFdbFlush d s) :=
  ok.onDev fun _ ok1 => ok1.groveCommand (fun _ ok2 => ok2.fdbFlush)

theorem execFdbRead_steady {d} (ok : s.dev.Steady way) : Leads way (execFdbRead d s) :=
  ok.onDev fun _ ok1 => ok1.command (fun _ ok2 => ok2.fdbRead)

theorem execFdbDump_steady {d err} (ok : s.dev.Steady way) : Leads way (execFdbDump d err s) :=
  ok.onDev fun _ ok1 => ok1.command (fun _ ok2 => ok2.fdbDump)

theorem execMeterSet_steady {d} (ok : s.dev.Steady way) : Leads way (execMeterSet d s) :=
  ok.onDev fun _ ok1 => ok1.groveCommand (fun _ ok2 => ok2.meterSet)

theorem execMeterRead_steady {d} (ok : s.dev.Steady way) : Leads way (execMeterRead d s) :=
  ok.onDev fun _ ok1 => ok1.command (fun _ ok2 => ok2.meterRead)

theorem execRsvWrite_steady {a p value} (ok : s.dev.Steady way) : Leads way (execRsvWrite a p value s) :=
  ok.onDev fun _ ok1 => ok1.writeField (fun _ ok2 => ok2.rsvWrite)

theorem execXmemEnable_steady {a en} (ok : s.dev.Steady way) : Leads way (execXmemEnable a en s) :=
  ok.onDev fun _ ok1 => ok1.writeEn (fun _ ok2 => ok2.xmemEnable)

theorem execXmemInitDone_steady {good} (ok : s.dev.Steady way) : Leads way (execXmemInitDone good s) :=
  ok.onDev fun _ ok1 => ok1.xmemInitDone

theorem execOvfEnable_steady {a en} (ok : s.dev.Steady way) : Leads way (execOvfEnable a en s) :=
  ok.onDev fun _ ok1 => ok1.writeEn (fun _ ok2 => ok2.ovfEnable)

theorem execSpillComplete_steady {q ue} (ok : s.dev.Steady way) : Leads way (execSpillComplete q ue s) := by
  refine ok.onDev fun _ ok1 => ?_
  split
  · exact ite_steady ok1.spillComplete.cellError ok1.spillComplete
  · exact ok1.spillComplete

theorem execFillReadIssue_steady {q} (ok : s.dev.Steady way) : Leads way (execFillReadIssue q s) := ok.onDev fun _ ok1 => ok1.fillIssue

theorem execFillReadComplete_steady {q seq ue} (ok : s.dev.Steady way) : Leads way (execFillReadComplete q seq ue s) :=
  ok.onDev fun _ ok1 => ok1.fillComplete

theorem execReseqTimeout_steady {q} (ok : s.dev.Steady way) : Leads way (execReseqTimeout q s) := ok.onDev fun _ ok1 => ok1.reseqTimeout

theorem execGateEntryBoundary_steady {n} (ok : s.dev.Steady way) : Leads way (execGateEntryBoundary n s) :=
  ok.onDev fun _ ok1 => ok1.gateBoundary

theorem execGateCommit_steady {a n} (ok : s.dev.Steady way) : Leads way (execGateCommit a n s) :=
  ok.onDev fun _ ok1 => ok1.writeBit (fun _ ok2 => ok2.gateCommit)

theorem execGateCancel_steady {a n} (ok : s.dev.Steady way) : Leads way (execGateCancel a n s) :=
  ok.onDev fun _ ok1 => ok1.writeBit (fun _ ok2 => ok2.gateCancel)

theorem execGateListSwap_steady {n} (ok : s.dev.Steady way) : Leads way (execGateListSwap n s) := ok.onDev fun _ ok1 => ok1.gateSwap

theorem execGateDisable_steady {a n} (ok : s.dev.Steady way) : Leads way (execGateDisable a n s) :=
  ok.onDev fun _ ok1 => ok1.writeEn (fun _ ok2 => ok2.gateDisable)

theorem execLaunchTimeReached_steady {n t} (ok : s.dev.Steady way) : Leads way (execLaunchTimeReached n t s) :=
  ok.onDev fun _ ok1 => ite_steady ok1.noteEligible ok1

theorem execShaperParamWrite_steady {a p t reg value} (ok : s.dev.Steady way) : Leads way (execShaperParamWrite a p t reg value s) :=
  ok.onDev fun _ ok1 => ite_steady ok1 (ok1.writeField (fun _ ok2 => ok2.shaperWrite))

theorem execQueueSampleTick_steady {p} (ok : s.dev.Steady way) : Leads way (execQueueSampleTick p s) :=
  ok.onDev fun _ ok1 => ok1.sampleTick

theorem execSampleEnable_steady {a p} (ok : s.dev.Steady way) : Leads way (execSampleEnable a p s) :=
  ok.onDev fun _ ok1 => ok1.writeEn (fun _ ok2 => ok2.sampleEnable)

theorem execQsampleRead_steady {d err} (ok : s.dev.Steady way) : Leads way (execQsampleRead d err s) :=
  ok.onDev fun _ ok1 => ok1.command (fun _ ok2 => ok2.qsampleRead)

theorem execDomEnable_steady {a d en} (ok : s.dev.Steady way) : Leads way (execDomEnable a d en s) :=
  ok.onDev fun _ ok1 => ok1.writeEn (fun _ ok2 => ok2.domEnable d.isLt)

theorem execDomCommit_steady {a d} (ok : s.dev.Steady way) : Leads way (execDomCommit a d s) :=
  ok.onDev fun _ ok1 => ok1.writeBit (fun _ ok2 => ok2.domCommit)

theorem execDomLock_steady {a d unlock} (ok : s.dev.Steady way) : Leads way (execDomLock a d unlock s) :=
  ok.onDev fun _ ok1 => ok1.writeOwn (fun _ ok2 => ite_steady ok2.domUnlock ok2.domLock)

theorem execDomUnlock_steady {a d} (ok : s.dev.Steady way) : Leads way (execDomUnlock a d s) :=
  ok.onDev fun _ ok1 => ok1.writeBit (fun _ ok2 => ok2.domUnlock)

theorem execSyncTimerExpiry_steady {d} (ok : s.dev.Steady way) : Leads way (execSyncTimerExpiry d s) :=
  ok.onDev fun _ ok1 => ok1.syncExpiry

theorem execWtSwitch_steady {a} (ok : s.dev.Steady way) : Leads way (execWtSwitch a s) :=
  ok.onDev fun _ ok1 => ok1.writeBit (fun _ ok2 => ok2.wtSwitch)

theorem execSnap_steady {a} (ok : s.dev.Steady way) : Leads way (execSnap a s) :=
  ok.onDev fun _ ok1 => ok1.writeBit (fun _ ok2 => ok2.snap)

theorem execTxtsRdWrite_steady {a value} (ok : s.dev.Steady way) : Leads way (execTxtsRdWrite a value s) :=
  ok.onDev fun _ ok1 => ok1.writeField (fun _ ok2 => ok2.txtsRd)

theorem execCapInEdge_steady {k rising} (ok : s.dev.Steady way) : Leads way (execCapInEdge k rising s) :=
  ok.onDev fun _ ok1 => ok1.capEdge

theorem execPpsEnable_steady {a k en} (ok : s.dev.Steady way) : Leads way (execPpsEnable a k en s) :=
  ok.onDev fun _ ok1 => ok1.writeEn (fun _ ok2 => ok2.ppsEnable k.isLt)

theorem execPpsEdge_steady {k} (ok : s.dev.Steady way) : Leads way (execPpsEdge k s) := ok.onDev fun _ ok1 => ok1.ppsEdge

theorem execCtEnable_steady {a en} (ok : s.dev.Steady way) : Leads way (execCtEnable a en s) :=
  ok.onDev fun _ ok1 => ok1.writeEn (fun _ ok2 => ok2.ctEnable)

theorem execCtSeedWrite_steady {a value} (ok : s.dev.Steady way) : Leads way (execCtSeedWrite a value s) :=
  ok.onDev fun _ ok1 => ite_steady (ok1.writeField (fun _ ok2 => ok2.setReg (by decide))) ok1.passAccess

theorem execBucketReadComplete_steady {p ue bad} (ok : s.dev.Steady way) : Leads way (execBucketReadComplete p ue bad s) :=
  ok.onSettling fun _ ok1 => ok1.bucketDone

theorem execRlWrite_steady {a i value} (ok : s.dev.Steady way) : Leads way (execRlWrite a i value s) :=
  ok.onDev fun _ ok1 => ok1.writeUpper

theorem execConnFlush_steady {d} (ok : s.dev.Steady way) : Leads way (execConnFlush d s) :=
  ok.onDev fun _ ok1 => ok1.command (fun _ ok2 => ok2.connFlush)

theorem execConnDump_steady {d err} (ok : s.dev.Steady way) : Leads way (execConnDump d err s) :=
  ok.onDev fun _ ok1 => ok1.command (fun _ ok2 => ok2.connDump)

theorem execCanEnable_steady {a n en} (ok : s.dev.Steady way) : Leads way (execCanEnable a n en s) :=
  ok.onSettling fun _ ok1 => ok1.writeEn (fun _ ok2 => ok2.canEnable n.isLt)

theorem execCanFrameRx_steady {n frame sinceSof} (ok : s.dev.Steady way) : Leads way (execCanFrameRx n frame sinceSof s) :=
  ok.onDev fun _ ok1 => ok1.canRx

theorem execCanFrameTxDone_steady {n loopDelay} (ok : s.dev.Steady way) : Leads way (execCanFrameTxDone n loopDelay s) :=
  ok.onSettling fun _ ok1 => ok1.canTxDone

theorem execCanBusError_steady {n err} (ok : s.dev.Steady way) : Leads way (execCanBusError n err s) :=
  ok.onSettling fun _ ok1 => ok1.canError

theorem execBoRecover_steady {a n} (ok : s.dev.Steady way) : Leads way (execBoRecover a n s) :=
  ok.onDev fun _ ok1 => ok1.writeBit (fun _ ok2 => ok2.boRecover)

theorem execBusOffRecovered_steady {n} (ok : s.dev.Steady way) : Leads way (execBusOffRecovered n s) :=
  ok.onDev fun _ ok1 => ok1.canRecovered

theorem execLinEnable_steady {a l en} (ok : s.dev.Steady way) : Leads way (execLinEnable a l en s) :=
  ok.onDev fun _ ok1 => ok1.writeEn (fun _ ok2 => ok2.linEnable l.isLt)

theorem execLinSchedRun_steady {a l run} (ok : s.dev.Steady way) : Leads way (execLinSchedRun a l run s) :=
  ok.onDev fun _ ok1 => ok1.writeEn (fun _ ok2 => ok2.linRunWrite)

theorem execLinSlotStart_steady {l} (ok : s.dev.Steady way) : Leads way (execLinSlotStart l s) := ok.onDev fun _ ok1 => ok1.linSlot

theorem execLinSchedSwitch_steady {a l} (ok : s.dev.Steady way) : Leads way (execLinSchedSwitch a l s) :=
  ok.onDev fun _ ok1 => ok1.writeBit (fun _ ok2 => ok2.linSwitch)

theorem execLinHeaderRx_steady {l id err} (ok : s.dev.Steady way) : Leads way (execLinHeaderRx l id err s) :=
  ok.onDev fun _ ok1 => ok1.linHeader

theorem execLinResponseRx_steady {l id data cksum err sinceBreak} (ok : s.dev.Steady way) :
    Leads way (execLinResponseRx l id data cksum err sinceBreak s) :=
  ok.onDev fun _ ok1 => ok1.linResponse l.isLt

theorem execLinResponseTimeout_steady {l} (ok : s.dev.Steady way) : Leads way (execLinResponseTimeout l s) :=
  ok.onDev fun _ ok1 => ok1.linNoResponse

theorem execRouteAdd_steady {d} (ok : s.dev.Steady way) : Leads way (execRouteAdd d s) :=
  ok.onDev fun _ ok1 => ok1.command (fun _ ok2 => ok2.routeAdd)

theorem execRouteDel_steady {d} (ok : s.dev.Steady way) : Leads way (execRouteDel d s) :=
  ok.onDev fun _ ok1 => ok1.command (fun _ ok2 => ok2.routeDel)

theorem execRouteRead_steady {d} (ok : s.dev.Steady way) : Leads way (execRouteRead d s) :=
  ok.onDev fun _ ok1 => ok1.command (fun _ ok2 => ok2.routeRead)

theorem execRouteFlush_steady {d} (ok : s.dev.Steady way) : Leads way (execRouteFlush d s) :=
  ok.onDev fun _ ok1 => ok1.command (fun _ ok2 => ok2.routeFlush)

theorem execEncBatchHoldExpiry_steady {st} (ok : s.dev.Steady way) : Leads way (execEncBatchHoldExpiry st s) := by
  refine ok.onDev fun _ ok1 => ?_
  split
  · exact ite_steady ok1.closeBatch ok1
  · exact ok1

theorem execEncDisable_steady {a st en} (ok : s.dev.Steady way) : Leads way (execEncDisable a st en s) := by
  refine ok.onDev fun _ ok1 => ok1.writeEn (fun _ ok2 => ?_)
  have other : encReg st.val 0 ≠ 0x700000 := by
    have := st.isLt
    unfold encReg rootsReg
    omega
  split
  · exact ok2
  · exact ite_steady (ok2.setRb_true.setRf (by decide)) (ok2.closeBatch.setRb_of_ne other)

theorem execDecapFrame_steady {ue} (ok : s.dev.Steady way) : Leads way (execDecapFrame ue s) := by
  refine ok.onDev fun _ ok1 => ?_
  split
  · exact ite_steady ok1.mk_rest.dropRead ok1.decapNext
  · exact ok1.decapNext

theorem execAuthSet_steady {d} (ok : s.dev.Steady way) : Leads way (execAuthSet d s) :=
  ok.onDev fun _ ok1 => ok1.command (fun _ ok2 => ok2.authSet)

theorem execAuthRead_steady {d} (ok : s.dev.Steady way) : Leads way (execAuthRead d s) :=
  ok.onDev fun _ ok1 => ok1.command (fun _ ok2 => ok2.authRead)

theorem execAuthClear_steady {d} (ok : s.dev.Steady way) : Leads way (execAuthClear d s) :=
  ok.onDev fun _ ok1 => ok1.command (fun _ ok2 => ok2.setAuth.done)

theorem execScSet_steady {d} (ok : s.dev.Steady way) : Leads way (execScSet d s) :=
  ok.onDev fun _ ok1 => ok1.secCommand (fun _ ok2 => ok2.scSet)

theorem execScClear_steady {d} (ok : s.dev.Steady way) : Leads way (execScClear d s) :=
  ok.onDev fun _ ok1 => ok1.secCommand (fun _ ok2 => ok2.scClear)

theorem execSaInstall_steady {d} (ok : s.dev.Steady way) : Leads way (execSaInstall d s) :=
  ok.onDev fun _ ok1 => ok1.secCommand (fun _ ok2 => ok2.saInstall)

theorem execSaSelect_steady {d} (ok : s.dev.Steady way) : Leads way (execSaSelect d s) :=
  ok.onDev fun _ ok1 => ok1.secCommand (fun _ ok2 => ok2.saSelect)

theorem execSaClear_steady {d} (ok : s.dev.Steady way) : Leads way (execSaClear d s) :=
  ok.onDev fun _ ok1 => ok1.secCommand (fun _ ok2 => ok2.saClear)

theorem execSaRead_steady {d} (ok : s.dev.Steady way) : Leads way (execSaRead d s) :=
  ok.onDev fun _ ok1 => ok1.secCommand (fun _ ok2 => ok2.saRead)

theorem execGcmEncrypt_steady {d mem e} (ok : s.dev.Steady way) : Leads way (execGcmEncrypt d mem e s) :=
  ok.onDev fun _ ok1 => ok1.jobCommand

theorem execGcmDecrypt_steady {d mem e} (ok : s.dev.Steady way) : Leads way (execGcmDecrypt d mem e s) :=
  ok.onDev fun _ ok1 => ok1.jobCommand

theorem execCtrEncrypt_steady {d mem e} (ok : s.dev.Steady way) : Leads way (execCtrEncrypt d mem e s) :=
  ok.onDev fun _ ok1 => ok1.jobCommand

theorem execCtrDecrypt_steady {d mem e} (ok : s.dev.Steady way) : Leads way (execCtrDecrypt d mem e s) :=
  ok.onDev fun _ ok1 => ok1.jobCommand

theorem execCmacGenerate_steady {d mem e} (ok : s.dev.Steady way) : Leads way (execCmacGenerate d mem e s) :=
  ok.onDev fun _ ok1 => ok1.jobCommand

theorem execCmacVerify_steady {d mem e} (ok : s.dev.Steady way) : Leads way (execCmacVerify d mem e s) :=
  ok.onDev fun _ ok1 => ok1.jobCommand

theorem execKeyLoad_steady {d} (ok : s.dev.Steady way) : Leads way (execKeyLoad d s) :=
  ok.onDev fun _ ok1 => ok1.keyCommand (fun _ ok2 => ok2.keyLoad)

theorem execKeyDerive_steady {d} (ok : s.dev.Steady way) : Leads way (execKeyDerive d s) :=
  ok.onDev fun _ ok1 => ok1.keyCommand (fun _ ok2 => ok2.keyDerive)

theorem execKeyUnwrap_steady {d mem} (ok : s.dev.Steady way) : Leads way (execKeyUnwrap d mem s) :=
  ok.onDev fun _ ok1 => ok1.keyCommand (fun _ ok2 => ok2.keyUnwrapCmd)

theorem execKeyErase_steady {d} (ok : s.dev.Steady way) : Leads way (execKeyErase d s) :=
  ok.onDev fun _ ok1 => ok1.keyCommand (fun _ ok2 => ok2.keyErase)

theorem execKeyInvalidate_steady {d} (ok : s.dev.Steady way) : Leads way (execKeyInvalidate d s) :=
  ok.onDev fun _ ok1 => ok1.keyCommand (fun _ ok2 => ok2.keyInvalidate)

theorem execKeyRetire_steady {d} (ok : s.dev.Steady way) : Leads way (execKeyRetire d s) :=
  ok.onDev fun _ ok1 => ok1.keyCommand (fun _ ok2 => ok2.keyRetire)

theorem execKeyInfo_steady {d} (ok : s.dev.Steady way) : Leads way (execKeyInfo d s) :=
  ok.onDev fun _ ok1 => ok1.keyCommand (fun _ ok2 => ok2.keyInfo)

theorem execKeyOldUsesEnded_steady {slot} (ok : s.dev.Steady way) : Leads way (execKeyOldUsesEnded slot s) :=
  ok.onDev fun _ ok1 => ok1.usesEnded

theorem execLcAdvance_steady {d target} (ok : s.dev.Steady way) : Leads way (execLcAdvance d target s) :=
  ok.onDev fun _ ok1 => ite_steady ok1 (ok1.command (fun _ ok2 => ok2.lcAdvance))

theorem execRngRead_steady {d err} (ok : s.dev.Steady way) : Leads way (execRngRead d err s) :=
  ok.onDev fun _ ok1 => ok1.command (fun _ ok2 => ok2.rngRead)

theorem execIdPubkey_steady {d err} (ok : s.dev.Steady way) : Leads way (execIdPubkey d err s) :=
  ok.onDev fun _ ok1 => ok1.sigCommand (fun _ ok2 => ok2.idPubkey)

theorem execAttest_steady {d err} (ok : s.dev.Steady way) : Leads way (execAttest d err s) :=
  ok.onDev fun _ ok1 => ok1.sigCommand (fun _ ok2 => ok2.signTo)

theorem execSigVerify_steady {d mem} (ok : s.dev.Steady way) : Leads way (execSigVerify d mem s) :=
  ok.onDev fun _ ok1 => ok1.sigCommand (fun _ ok2 => ok2.sigVerify)

theorem execTamperLine_steady {src} (ok : s.dev.Steady way) : Leads way (execTamperLine src s) := by
  refine ok.onTap fun _ ok1 => ?_
  split
  · exact ok1.tamper
  · exact ite_steady ok1 (ite_steady ok1.zeroise.tamperLatch.powerRises ok1.zeroise.tamperLatch)

theorem execGetStatus_steady {m} (ok : s.dev.Steady way) : Leads way (execGetStatus m s) := ok.mailbox

theorem execReadBatch_steady {m} (ok : s.dev.Steady way) : Leads way (execReadBatch m s) := ok.mailbox

theorem execAckBatch_steady {m} (ok : s.dev.Steady way) : Leads way (execAckBatch m s) := ok.mailbox

theorem execGetPubkey_steady {m} (ok : s.dev.Steady way) : Leads way (execGetPubkey m s) := ok.mailbox

theorem execTimeMsg_steady {m hwTime} (ok : s.dev.Steady way) : Leads way (execTimeMsg m hwTime s) := ok.mailbox

theorem execReadEvlog_steady {m} (ok : s.dev.Steady way) : Leads way (execReadEvlog m s) := ok.mailbox

theorem execStageWrite_steady {m} (ok : s.dev.Steady way) : Leads way (execStageWrite m s) := ok.mailbox

theorem execCalibrate_steady {m} (ok : s.dev.Steady way) : Leads way (execCalibrate m s) := ok.mailbox

theorem execImageWrite_steady {m} (ok : s.dev.Steady way) : Leads way (execImageWrite m s) := ok.mailbox

theorem execImageCheck_steady {m} (ok : s.dev.Steady way) : Leads way (execImageCheck m s) := ok.mailbox

theorem execHwAttest_steady {m} (ok : s.dev.Steady way) : Leads way (execHwAttest m s) := ok.mailbox

theorem execGetLink_steady {m} (ok : s.dev.Steady way) : Leads way (execGetLink m s) := ok.mailbox

theorem execHwPrepare_steady {m} (ok : s.dev.Steady way) : Leads way (execHwPrepare m s) := ok.mailbox

theorem execHwCommit_steady {m} (ok : s.dev.Steady way) : Leads way (execHwCommit m s) := ok.mailbox

theorem execPulseAccepted_steady {pinB shortPhase hwTime} (ok : s.dev.Steady way) : Leads way (execPulseAccepted pinB shortPhase hwTime s) :=
  ok.onHwAlways

theorem execVddHwRise_steady {vaonLost hwTime} (ok : s.dev.Steady way) : Leads way (execVddHwRise vaonLost hwTime s) := ok.onHwAlways

theorem execHwTimeEdge_steady {hwTime} (ok : s.dev.Steady way) : Leads way (execHwTimeEdge hwTime s) := ok.onHw

theorem execHslFrame_steady {link bits hwTime} (ok : s.dev.Steady way) : Leads way (execHslFrame link bits hwTime s) := ok.onHw

theorem execSapwoodTransfer_steady {a addr data size atomic crossed} (ok : s.dev.Steady way) :
    Leads way (execSapwoodTransfer a addr data size atomic crossed s) :=
  ok.onDev fun _ ok1 => ok1.sapTransfer

theorem execRetry_steady {a} (ok : s.dev.Steady way) : Leads way (execRetry a s) :=
  ok.onDev fun _ ok1 => ok1.writeBit (fun _ ok2 => ite_steady (ok2.setRb (by decide)) ok2)

theorem execSemRead_steady {a i} (ok : s.dev.Steady way) : Leads way (execSemRead a i s) :=
  ok.onDev fun _ ok1 => ok1.semRead i.isLt

theorem execSemWrite_steady {a i value} (ok : s.dev.Steady way) : Leads way (execSemWrite a i value s) := by
  refine ok.onDev fun _ ok1 => ?_
  extract_lets r p d1
  have ok2 : p.1.Steady way := ok1.passAccess
  have ok3 : d1.Steady way := ok2
  have other : r ≠ 0x700000 := by
    have := i.isLt
    unfold r sapReg
    omega
  exact ite_steady ok2 (ite_steady (ite_steady (ok3.setReg other) ok3) ok3.count.sapFault)

theorem execIrqH2mEdge_steady {n} (ok : s.dev.Steady way) : Leads way (execIrqH2mEdge n s) :=
  ok.onDev fun _ ok1 => ite_steady ok1 (ite_steady ok1.setRb_true.canopyIrq ok1.setRb_true)

theorem execHwRstChange_steady {high} (ok : s.dev.Steady way) : Leads way (execHwRstChange high s) :=
  ok.onTap fun _ ok1 => ite_steady ok1 (ite_steady ok1.onSap (ite_steady ok1.onSap.freeSems ok1.onSap.freeSems.declareDown))

theorem execCheckpoint_steady {a k outcome} (ok : s.dev.Steady way) : Leads way (execCheckpoint a k outcome s) :=
  ok.onDev fun _ ok1 => ite_steady ok1.passAccess (ok1.writeBit (fun _ ok2 => ok2.checkpoint k.isLt))

theorem execLockstepMismatch_steady {k addr latent} (ok : s.dev.Steady way) : Leads way (execLockstepMismatch k addr latent s) :=
  ok.onDev fun _ ok1 => ite_steady ok1 (ite_steady (ok1.latentFault k.isLt) (ok1.recoverPair k.isLt))

theorem execPairResumed_steady {k} (ok : s.dev.Steady way) : Leads way (execPairResumed k s) := by
  refine ok.onDev fun _ ok1 => ?_
  split
  · exact ok1.setPairState.count.irqsDue
  · exact ok1.setPairState.irqsDue
  · exact ok1

theorem execWdtKick_steady {a w} (ok : s.dev.Steady way) : Leads way (execWdtKick a w s) :=
  ok.onDev fun _ ok1 => ite_steady ok1.passAccess.kick ok1.passAccess

theorem execWatchdogExpiry_steady {w} (ok : s.dev.Steady way) : Leads way (execWatchdogExpiry w s) :=
  ok.onDev fun _ ok1 => ite_steady ok1 (((((ite_steady (ok1.setRb (by decide)) ok1).coreReset).count).kick).mismatchEvent)

theorem execCkptOverdue_steady {k} (ok : s.dev.Steady way) : Leads way (execCkptOverdue k s) :=
  ok.onDev fun _ ok1 => ite_steady ok1 ok1.setPair.mismatchEvent

theorem execSpqDeliver_steady {c bufs fail ue} (ok : s.dev.Steady way) : Leads way (execSpqDeliver c bufs fail ue s) := by
  refine ok.onDev fun _ ok1 => ?_
  split
  · exact ite_steady ok1.mk_rest.dropRead ok1.spqDeliver
  · exact ok1.spqDeliver

theorem execSpqHostIdxWrite_steady {a c value} (ok : s.dev.Steady way) : Leads way (execSpqHostIdxWrite a c value s) :=
  ok.onDev fun _ ok1 => ok1.writeField (fun _ ok2 => ok2.postIdx (spqReg_spares _ (by decide)))

theorem execSptHostIdxWrite_steady {a r value} (ok : s.dev.Steady way) : Leads way (execSptHostIdxWrite a r value s) :=
  ok.onDev fun _ ok1 => ok1.writeField (fun _ ok2 => ok2.postIdx (sptReg_spares _ (by decide)))

theorem execModeSet_steady {d} (ok : s.dev.Steady way) : Leads way (execModeSet d s) :=
  ok.onDev fun _ ok1 => ok1.command (fun _ ok2 => ok2.modeSet)

theorem Store.wf_append {α : Type} [DecidableEq α] {d : Nat → α} {a b : Store α} (wa : a.wf d = true) (wb : b.wf d = true)
    (rising : ∀ x ∈ a, ∀ y ∈ b, x.1 < y.1) : Store.wf d (a ++ b) = true := by
  induction a with
  | nil => exact wb
  | cons e a ih =>
    obtain ⟨k, v⟩ := e
    obtain ⟨other, below, rest⟩ := (Store.wf_cons _ _ _ _).mp wa
    refine (Store.wf_cons _ _ _ _).mpr ⟨other, fun y mem => ?_, ih rest fun x hx => rising x (List.mem_cons_of_mem _ hx)⟩
    rcases List.mem_append.mp mem with ina | inb
    · exact below y ina
    · exact rising _ List.mem_cons_self y inb

theorem Store.wf_shift {α : Type} [DecidableEq α] {d : α} {m : Store α} (n : Nat) (wf : m.wf (fun _ => d) = true) :
    Store.wf (fun _ => d) (m.map fun e => (e.1 + n, e.2)) = true := by
  induction m with
  | nil => rfl
  | cons e m ih =>
    obtain ⟨k, v⟩ := e
    obtain ⟨other, below, rest⟩ := (Store.wf_cons _ _ _ _).mp wf
    refine (Store.wf_cons _ _ _ _).mpr ⟨other, fun y mem => ?_, ih rest⟩
    obtain ⟨x, old, rfl⟩ := List.mem_map.mp mem
    exact Nat.add_lt_add_right (below x old) n

/-- The entries of Grove 0 copied to another Grove stand between those of the Groves before it and after it (R481). -/
theorem Store.wf_groveCopy {α : Type} [DecidableEq α] {d : α} {m : Store α} (g : Nat) (wf : m.wf (fun _ => d) = true) :
    Store.wf (fun _ => d) ((m.filter fun e => e.1 / 262144 ≠ g).filter (fun e => e.1 / 262144 < g)
      ++ (m.filter fun e => e.1 / 262144 = 0).map (fun e => (e.1 + 262144 * g, e.2))
      ++ (m.filter fun e => e.1 / 262144 ≠ g).filter (fun e => e.1 / 262144 > g)) = true := by
  refine Store.wf_append (Store.wf_append (Store.wf_filter _ _ _ (Store.wf_filter _ _ _ wf)) (Store.wf_shift _ (Store.wf_filter _ _ _ wf)) ?_)
    (Store.wf_filter _ _ _ (Store.wf_filter _ _ _ wf)) ?_
  · intro x inx y iny
    have lower := (List.mem_filter.mp inx).2
    obtain ⟨e, -, rfl⟩ := List.mem_map.mp iny
    rw [decide_eq_true_eq] at lower
    dsimp only
    omega
  · intro x inx y iny
    have upper := (List.mem_filter.mp iny).2
    rw [decide_eq_true_eq] at upper
    rcases List.mem_append.mp inx with before | copied
    · have lower := (List.mem_filter.mp before).2
      rw [decide_eq_true_eq] at lower
      omega
    · obtain ⟨e, ine, rfl⟩ := List.mem_map.mp copied
      have first := (List.mem_filter.mp ine).2
      rw [decide_eq_true_eq] at first
      dsimp only
      omega

theorem Groves.Steady.copied {g : Groves} {n : Nat} (ok : g.Steady way) : ({ g with
    fdb := (g.fdb.filter fun e => e.1 / 262144 ≠ n).filter (fun e => e.1 / 262144 < n)
      ++ (g.fdb.filter fun e => e.1 / 262144 = 0).map (fun e => (e.1 + 262144 * n, e.2))
      ++ (g.fdb.filter fun e => e.1 / 262144 ≠ n).filter (fun e => e.1 / 262144 > n) } : Groves).Steady way := by
  cases way with
  | true => exact Store.wf_groveCopy n ok
  | false => exact ok

theorem execGroveCopyDone_steady {g} (ok : s.dev.Steady way) : Leads way (execGroveCopyDone g s) := by
  refine ok.onDev fun _ ok1 => ?_
  split
  · exact ok1
  · extract_lets own copy below above groves x1 x2 x3 x4
    have ok2 : x1.Steady way := ok1.mk_groves ok1.groves.copied
    have ok3 : x2.Steady way := (ok2.setReg (groveReg_spares _ (by decide))).setReg (groveReg_spares _ (by decide))
    have ok4 : x3.Steady way := ok3.onTapState
    have ok5 : x4.Steady way := Dev.Steady.foldl (fun _ _ ok6 => ite_steady ok6.portStart ok6) ok4
    exact ok5.modeDone

theorem execWakePinRequest_steady {k high edges} (ok : s.dev.Steady way) : Leads way (execWakePinRequest k high edges s) :=
  ok.onAwakeTap fun _ ok1 => ite_steady ok1.wakeRequest ok1

theorem execT1sCarrierWake_steady {i} (ok : s.dev.Steady way) : Leads way (execT1sCarrierWake i s) :=
  ok.onAwakeTap fun _ ok1 => ok1.wakeRequest

theorem execBallotVoteChange_steady {a k ready} (ok : s.dev.Steady way) : Leads way (execBallotVoteChange a k ready s) :=
  ok.onDev fun _ ok1 => ite_steady ok1.passAccess (ok1.writeField (fun _ ok2 => (ok2.setRb (by decide)).ballot))

theorem execNmTimerExpiry_steady {k} (ok : s.dev.Steady way) : Leads way (execNmTimerExpiry k s) := by
  refine ok.onDev fun _ ok1 => ?_
  split
  · exact ok1
  · exact ite_steady ok1 ok1.onTapState.ballot

theorem execSleepAck_steady {a} (ok : s.dev.Steady way) : Leads way (execSleepAck a s) :=
  ok.onDev fun _ ok1 => ok1.writeBit (fun _ ok2 => ok2.sleepAck)

theorem execPwrGoodRise_steady {restore boot} (ok : s.dev.Steady true) : Leads true (execPwrGoodRise restore boot s) :=
  ok.onTap fun _ ok1 => ok1.powerGood

theorem execSaveEnable_steady {a en} (ok : s.dev.Steady way) : Leads way (execSaveEnable a en s) :=
  ok.onDev fun _ ok1 => ok1.writeEn (fun _ ok2 => ok2.saveEnable)

theorem execTValidExpiry_steady {k} (ok : s.dev.Steady way) : Leads way (execTValidExpiry k s) := by
  refine ok.onAwakeTap fun _ ok1 => ?_
  split
  · exact ok1
  · exact ite_steady ok1 (((ok1.onTapState.setReg (by unfold tapReg; omega)).falseWake).falseWindow)

theorem execFwMaskedClear_steady {a value} (ok : s.dev.Steady way) : Leads way (execFwMaskedClear a value s) :=
  ok.onDev fun _ ok1 => ite_steady (ok1.passAccess.setReg (by decide)) ok1.passAccess

theorem execFwClr_steady {a} (ok : s.dev.Steady way) : Leads way (execFwClr a s) :=
  ok.onDev fun _ ok1 => ok1.writeBit (fun _ ok2 => ok2.resetRegs (by decide))

theorem execClkHold_steady {a hold} (ok : s.dev.Steady way) : Leads way (execClkHold a hold s) := ok.onDev fun _ ok1 => ok1.clkHold

theorem execClkIdleExpiry_steady {cluster unit} (ok : s.dev.Steady way) : Leads way (execClkIdleExpiry cluster unit s) :=
  ok.onDev fun _ ok1 => ok1.clkIdle

theorem execPorstN_steady {splitStrap boot} (ok : s.dev.Steady true) : Leads true (execPorstN splitStrap boot s) :=
  ok.onReset fun _ ok1 => ok1.porstPins.porst

theorem execWarmN_steady {boot} (ok : s.dev.Steady true) : Leads true (execWarmN boot s) :=
  ok.onReset fun _ ok1 => ite_steady ok1 ok1.mainRst.warm

theorem execBrownout_steady {boot} (ok : s.dev.Steady true) : Leads true (execBrownout boot s) :=
  ok.onReset fun _ ok1 => ite_steady ok1 ok1.porstPins.cold

theorem execSoftReset_steady {d} (ok : s.dev.Steady way) : Leads way (execSoftReset d s) :=
  ok.onDev fun _ ok1 => ite_steady ok1 (ok1.command (fun _ ok2 => ok2.softReset))

theorem execSafeReq_steady {a} (ok : s.dev.Steady way) : Leads way (execSafeReq a s) :=
  ok.onDev fun _ ok1 => ok1.writeBit (fun _ ok2 => ok2.enterSafe)

theorem execTempShutdown_steady {temp} (ok : s.dev.Steady way) : Leads way (execTempShutdown temp s) :=
  ok.onDev fun _ ok1 => ite_steady ((ok1.setRf (by decide)).enterSafe) (ok1.setRf (by decide))

theorem execUncorrectableControlError_steady {cluster unit} (ok : s.dev.Steady way) :
    Leads way (execUncorrectableControlError cluster unit s) :=
  ok.onDev fun _ ok1 => ok1.controlError

theorem execScrubPass_steady {found} (ok : s.dev.Steady way) : Leads way (execScrubPass found s) := ok.onDev fun _ ok1 => ok1.scrub

theorem execCorrectedError_steady {part} (ok : s.dev.Steady way) : Leads way (execCorrectedError part s) :=
  ok.onDev fun _ ok1 => ok1.corrected

theorem execRoleSet_steady {a active} (ok : s.dev.Steady way) : Leads way (execRoleSet a active s) :=
  ok.onDev fun _ ok1 => ok1.writeField (fun _ ok2 => (ok2.setRb (by decide)).setRole)

theorem execHeartbeatFrameRx_steady {octets} (ok : s.dev.Steady way) : Leads way (execHeartbeatFrameRx octets s) :=
  ok.onDev fun _ ok1 => ite_steady ok1 ok1.mk_rest.pathUp.meetPartner

theorem execHbPathSilent_steady {framePath} (ok : s.dev.Steady way) : Leads way (execHbPathSilent framePath s) :=
  ok.onDev fun _ ok1 => ite_steady ok1 ((ok1.setRb_of_ne (by decide)).safeEvent)

theorem execProofTest_steady {d x} (ok : s.dev.Steady way) : Leads way (execProofTest d x s) := by
  refine ok.onDev fun _ ok1 => ?_
  split
  · exact ite_steady ok1.proofNext ok1
  · exact ok1.command (fun _ ok2 => ok2.proofTest)

theorem matrixReg_apart (which : MatrixReg) (o : Nat) : matrixReg which o ≠ 0x700000 := by
  unfold matrixReg rasReg
  omega

theorem execMatrixWrite_steady {a which o value} (ok : s.dev.Steady way) : Leads way (execMatrixWrite a which o value s) :=
  ok.onDev fun _ ok1 => ok1.matrixWrite (matrixReg_apart _ _)

theorem execAuditDump_steady {d err} (ok : s.dev.Steady way) : Leads way (execAuditDump d err s) :=
  ok.onDev fun _ ok1 => ok1.auditCommand (fun _ ok2 => ok2.auditDump)

theorem execAuditSeal_steady {d err} (ok : s.dev.Steady way) : Leads way (execAuditSeal d err s) :=
  ok.onDev fun _ ok1 => ok1.auditCommand (fun _ ok2 => ok2.signTo)

theorem execAuditVerify_steady {d mem} (ok : s.dev.Steady way) : Leads way (execAuditVerify d mem s) :=
  ok.onDev fun _ ok1 => ok1.auditCommand (fun _ ok2 => ok2.auditVerify)

theorem execImgWrite_steady {d mem} (ok : s.dev.Steady way) : Leads way (execImgWrite d mem s) :=
  ok.onDev fun _ ok1 => ok1.updCommand (fun _ ok2 => ok2.imgWrite)

theorem execImgVerify_steady {d} (ok : s.dev.Steady way) : Leads way (execImgVerify d s) :=
  ok.onDev fun _ ok1 => ok1.updCommand (fun _ ok2 => ok2.imgVerify)

theorem execImgActivate_steady {d} (ok : s.dev.Steady way) : Leads way (execImgActivate d s) :=
  ok.onDev fun _ ok1 => ok1.updCommand (fun _ ok2 => ok2.imgActivate)

theorem execManifestActivate_steady {d cut rowFails} (ok : s.dev.Steady way) : Leads way (execManifestActivate d cut rowFails s) :=
  ok.onDev fun _ ok1 => ok1.updCommand (fun _ ok2 => ok2.manifestActivate)

theorem execUpdHwDone_steady {a} (ok : s.dev.Steady way) : Leads way (execUpdHwDone a s) :=
  ok.onDev fun _ ok1 => ok1.writeBit (fun _ ok2 => ok2.hwDone)

theorem execReferenceClockStop_steady {boot} (ok : s.dev.Steady true) : Leads true (execReferenceClockStop boot s) :=
  ok.onReset fun _ ok1 => ite_steady ok1 ok1.porstPins.cold

theorem execFrameEnqueue_steady (ok : s.dev.Steady way) : Leads way (execFrameEnqueue s) := ok.onDev fun _ ok1 => ok1.enqueueNext

theorem execCommitTimeout_steady (ok : s.dev.Steady way) : Leads way (execCommitTimeout s) := ok.onDev fun _ ok1 => ok1.commitTimeout

theorem execCommitToken_steady (ok : s.dev.Steady way) : Leads way (execCommitToken s) := ok.onDev fun _ ok1 => ok1.commitToken

theorem execXmemPeriodicTraining_steady (ok : s.dev.Steady way) : Leads way (execXmemPeriodicTraining s) :=
  ok.onDev fun _ ok1 => ite_steady ok1.count ok1

theorem execAvgUpdate_steady (ok : s.dev.Steady way) : Leads way (execAvgUpdate s) := ok.onDev fun _ ok1 => ok1.avgUpdate

theorem execStaleScan_steady (ok : s.dev.Steady way) : Leads way (execStaleScan s) := ok.onDev fun _ ok1 => ok1.staleScan

theorem execBankRetireCopyDone_steady (ok : s.dev.Steady way) : Leads way (execBankRetireCopyDone s) :=
  ok.onDev fun _ ok1 => ok1.bankCopied

theorem execTimePllLockLoss_steady (ok : s.dev.Steady way) : Leads way (execTimePllLockLoss s) := ok.onDev fun _ ok1 => ok1.pllLoss

theorem execTimePllRelock_steady (ok : s.dev.Steady way) : Leads way (execTimePllRelock s) := ok.onDev fun _ ok1 => ok1.pllRelock

theorem execRawReseed_steady (ok : s.dev.Steady way) : Leads way (execRawReseed s) := ok.onDev fun _ ok1 => ok1.timeResume

theorem execSlewComplete_steady (ok : s.dev.Steady way) : Leads way (execSlewComplete s) := ok.onDev fun _ ok1 => ok1.slewComplete

theorem execBothLostRise_steady (ok : s.dev.Steady way) : Leads way (execBothLostRise s) :=
  ok.onDev fun _ ok1 => ite_steady ok1.bothLostRise.enterSafe ok1.bothLostRise

theorem execTimeWireEdge_steady (ok : s.dev.Steady way) : Leads way (execTimeWireEdge s) := ok.onDev fun _ ok1 => ok1.timeWire

theorem execCtInitDone_steady (ok : s.dev.Steady way) : Leads way (execCtInitDone s) := ok.onDev fun _ ok1 => ok1.ctInitDone

theorem execConnSweep_steady (ok : s.dev.Steady way) : Leads way (execConnSweep s) := ok.onDev fun _ ok1 => ok1.connSweep

theorem execAnomalyWindowStart_steady (ok : s.dev.Steady way) : Leads way (execAnomalyWindowStart s) := ok.onDev fun _ ok1 => ok1.mk_rest

theorem execOrphanSweep_steady (ok : s.dev.Steady way) : Leads way (execOrphanSweep s) := ok.onDev fun _ ok1 => ok1.orphanSweep

theorem execRngHealthFailure_steady (ok : s.dev.Steady way) : Leads way (execRngHealthFailure s) := ok.onDev fun _ ok1 => ok1.rngFails

theorem execHwSecondEnd_steady (ok : s.dev.Steady way) : Leads way (execHwSecondEnd s) := ok.onHw

theorem execBatchSigned_steady (ok : s.dev.Steady way) : Leads way (execBatchSigned s) := ok.onHw

theorem execMainTamper_steady (ok : s.dev.Steady way) : Leads way (execMainTamper s) := ok.onHw

theorem execHwTampered_steady (ok : s.dev.Steady way) : Leads way (execHwTampered s) := ok.onHwAlways

theorem execHwLockstepMismatch_steady (ok : s.dev.Steady way) : Leads way (execHwLockstepMismatch s) := ok.onHw

theorem execSourceStartTimeout_steady (ok : s.dev.Steady way) : Leads way (execSourceStartTimeout s) := ok.onHw

theorem execSapwoodTransferDone_steady (ok : s.dev.Steady way) : Leads way (execSapwoodTransferDone s) := by
  refine ok.onBoth fun _ _ ok1 => ?_
  split
  · exact ok1
  · split
    · exact ok1
    · extract_lets p d1 d2
      have ok2 : d1.Steady way := ok1.onSap.sapOk
      have ok3 : d2.Steady way := ite_steady ok2.mk_rest ok2
      exact ite_steady ok3.readGives ok3

theorem execSapTimeout_steady (ok : s.dev.Steady way) : Leads way (execSapTimeout s) := by
  refine ok.onBoth fun _ _ ok1 => ?_
  split
  · exact ok1
  · split
    · exact ok1
    · split
      · exact ok1
      · extract_lets done n d1 d2 d3 h1 d4
        have ok2 : d1.Steady way := ok1.mk_rest.count.sapError
        have ok3 : d2.Steady way := ite_steady ok2.mk_rest ok2
        have ok4 : d3.Steady way := ite_steady ok3.readGives ok3
        have ok5 : d4.Steady way := ok4.onSap
        exact ite_steady ok5.declareDown ok5

theorem execHeartbeatTimeout_steady (ok : s.dev.Steady way) : Leads way (execHeartbeatTimeout s) :=
  ok.onDev fun _ ok1 => ite_steady ok1 (((ok1.setRb (by decide)).onSap).sapFault)

theorem execHeartbeatResume_steady (ok : s.dev.Steady way) : Leads way (execHeartbeatResume s) :=
  ok.onDev fun _ ok1 => ite_steady ok1 (ite_steady ok1.setRb_true.onSap.sapFault ok1.setRb_true.onSap)

theorem execNoticeGo_steady (ok : s.dev.Steady way) : Leads way (execNoticeGo s) := by
  refine ok.onBoth fun _ _ ok1 => ?_
  split
  · exact ok1
  · split
    · exact ok1
    · extract_lets d1
      have ok2 : d1.Steady way := Dev.Steady.foldl_mem (fun _ k mem ok3 => ok3.setReg (by
        have := List.mem_range.mp mem
        unfold sapReg
        omega)) ok1
      exact ok2.raise

theorem execPulseFirstEdgeWake_steady (ok : s.dev.Steady way) : Leads way (execPulseFirstEdgeWake s) :=
  ok.onAwakeTap fun _ ok1 => ok1.wakeRequest

theorem execTimerWakeExpiry_steady (ok : s.dev.Steady way) : Leads way (execTimerWakeExpiry s) :=
  ok.onAwakeTap fun _ ok1 => ite_steady ok1 ok1.wakeRequest

theorem execBallotDelayExpiry_steady (ok : s.dev.Steady way) : Leads way (execBallotDelayExpiry s) :=
  ok.onDev fun _ ok1 => ok1.commitPoint

theorem execSleepAckTimeout_steady (ok : s.dev.Steady way) : Leads way (execSleepAckTimeout s) := ok.onDev fun _ ok1 => ok1.ackTimeout

theorem execSaveDone_steady (ok : s.dev.Steady way) : Leads way (execSaveDone s) := ok.onDev fun _ ok1 => ok1.fallAsleep

theorem execPwrOffMinExpiry_steady (ok : s.dev.Steady way) : Leads way (execPwrOffMinExpiry s) :=
  ok.onAwakeTap fun _ ok1 => ite_steady ok1.powerRises ok1

theorem execKeeperThreshold_steady (ok : s.dev.Steady way) : Leads way (execKeeperThreshold s) := by
  refine ok.onDev fun _ ok1 => ?_
  extract_lets th
  split
  · exact ok1
  · exact ite_steady ok1 ok1.onTapState.wakeSleep

theorem execRasWindowEnd_steady (ok : s.dev.Steady way) : Leads way (execRasWindowEnd s) :=
  ok.onDev fun _ ok1 => ite_steady ok1 ok1.mk_rest

theorem execHeartbeatSend_steady (ok : s.dev.Steady way) : Leads way (execHeartbeatSend s) := ok.onDev fun _ ok1 => ok1.sendHeartbeat

theorem execHbInEdge_steady (ok : s.dev.Steady way) : Leads way (execHbInEdge s) :=
  ok.onDev fun _ ok1 => ite_steady ok1 ok1.mk_rest.pathUp

theorem execPartnerFailed_steady (ok : s.dev.Steady way) : Leads way (execPartnerFailed s) := ok.onDev fun _ ok1 => ok1.takeOver

theorem execVaonLoss_steady (ok : s.dev.Steady true) : Leads true (execVaonLoss s) := ok.onReset fun _ ok1 => ok1.vaonLost

theorem execCoarseEdge_steady (ok : s.dev.Steady way) : Leads way (execCoarseEdge s) := ok.onTap fun _ ok1 => ok1.coarseEdge

theorem execVddHwLoss_steady (ok : s.dev.Steady way) : Leads way (execVddHwLoss s) := ok.onHwAlways

theorem execBarkClean_steady (ok : s.dev.Steady way) : Leads way (execBarkClean s) := ok.onDev fun _ ok1 => ite_steady ok1.mk_rest ok1

/-- Every row keeps what the main die keeps; the resets and losses of supply keep its stores canonical. -/
theorem exec_steady (i : Instr) (ok : s.dev.Steady way) (plain : resetRow i = false ∨ way = true) : Leads way (exec i s) := by
  cases i with
  | registerWrite a addr data => exact execRegisterWrite_steady ok
  | heldAccessRelease cluster unit => exact execHeldAccessRelease_steady ok
  | bar0UnsupportedAccess h off size => exact leads_next ok
  | tableWordLowerWrite a addr value => exact execTableWordLowerWrite_steady ok
  | tableWordUpperWrite a addr value => exact execTableWordUpperWrite_steady ok
  | doorbellWrite h r value posted => exact execDoorbellWrite_steady ok
  | ringEnable a h r => exact execRingEnable_steady ok
  | ringDisable a h r => exact execRingDisable_steady ok
  | ringStopped h r => exact execRingStopped_steady ok
  | txDescriptorRead src desc err wbErr => exact execTxDescriptorRead_steady ok
  | txFrameReadDone src octets err wbErr => exact execTxFrameReadDone_steady ok
  | rxFrameWrite h descErr dataErr wbErr => exact execRxFrameWrite_steady ok
  | eventOverflow h q => exact execEventOverflow_steady ok
  | vecCoalTimerExpiry h v => exact execVecCoalTimerExpiry_steady ok
  | msixUnmask h v addr data enable fnMask => exact execMsixUnmask_steady ok
  | evtPop a h n => exact execEvtPop_steady ok
  | hostLinkUp h gen width => exact execHostLinkUp_steady ok
  | hostLinkDown h => exact execHostLinkDown_steady ok
  | functionLevelReset h => exact execFunctionLevelReset_steady ok
  | aerUncorrectable h evt aer => exact execAerUncorrectable_steady ok
  | portEnable a n => exact execPortEnable_steady ok
  | portDisable a n => exact execPortDisable_steady ok
  | portDrainDone n => exact execPortDrainDone_steady ok
  | cntClr a n => exact execCntClr_steady ok
  | lockGained n => exact execLockGained_steady ok
  | lockLost n => exact execLockLost_steady ok
  | linkUpDebounceExpiry n => exact execLinkUpDebounceExpiry_steady ok
  | linkDownDebounceExpiry n => exact execLinkDownDebounceExpiry_steady ok
  | serdesFault n kind => exact execSerdesFault_steady ok
  | frameRxStart n octets frac ownTo => exact execFrameRxStart_steady ok
  | parserStart p ue bad lost => exact execParserStart_steady ok
  | frameRxEnd p fcsOk pcsErr => exact execFrameRxEnd_steady ok
  | crownSelect p ue => exact execCrownSelect_steady ok
  | transmissionComplete p coll => exact execTransmissionComplete_steady ok
  | preemptVerifyTimer n => exact execPreemptVerifyTimer_steady ok
  | preemptVerifyResponse n => exact execPreemptVerifyResponse_steady ok
  | preemptFragmentRx n frag => exact execPreemptFragmentRx_steady ok
  | beaconRx n => exact execBeaconRx_steady ok
  | beaconTimeout n => exact execBeaconTimeout_steady ok
  | c22Read d phy => exact execC22Read_steady ok
  | c22Write d => exact execC22Write_steady ok
  | c45Read d phy => exact execC45Read_steady ok
  | c45Write d => exact execC45Write_steady ok
  | mdioPoll m k phy => exact execMdioPoll_steady ok
  | lqSecondEnd n => exact execLqSecondEnd_steady ok
  | boughLoad d mem => exact execBoughLoad_steady ok
  | commit d => exact execCommit_steady ok
  | versionRetire v => exact execVersionRetire_steady ok
  | fdbSeedWrite a value => exact execFdbSeedWrite_steady ok
  | learningMessageRx g => exact execLearningMessageRx_steady ok
  | holdMessageRx g => exact execHoldMessageRx_steady ok
  | stashRelocate g => exact execStashRelocate_steady ok
  | ageingTick bad => exact execAgeingTick_steady ok
  | dampeningSweep g => exact execDampeningSweep_steady ok
  | holdEndReached g vid mac => exact execHoldEndReached_steady ok
  | fdbAdd d => exact execFdbAdd_steady ok
  | fdbDel d => exact execFdbDel_steady ok
  | fdbFlush d => exact execFdbFlush_steady ok
  | fdbRead d => exact execFdbRead_steady ok
  | fdbDump d err => exact execFdbDump_steady ok
  | meterSet d => exact execMeterSet_steady ok
  | meterRead d => exact execMeterRead_steady ok
  | rsvWrite a p value => exact execRsvWrite_steady ok
  | xmemEnable a en => exact execXmemEnable_steady ok
  | xmemInitDone good => exact execXmemInitDone_steady ok
  | ovfEnable a en => exact execOvfEnable_steady ok
  | spillComplete q ue => exact execSpillComplete_steady ok
  | fillReadIssue q => exact execFillReadIssue_steady ok
  | fillReadComplete q seq ue => exact execFillReadComplete_steady ok
  | reseqTimeout q => exact execReseqTimeout_steady ok
  | gateEntryBoundary n => exact execGateEntryBoundary_steady ok
  | gateCommit a n => exact execGateCommit_steady ok
  | gateCancel a n => exact execGateCancel_steady ok
  | gateListSwap n => exact execGateListSwap_steady ok
  | gateDisable a n => exact execGateDisable_steady ok
  | launchTimeReached n t => exact execLaunchTimeReached_steady ok
  | shaperParamWrite a p t reg value => exact execShaperParamWrite_steady ok
  | queueSampleTick p => exact execQueueSampleTick_steady ok
  | sampleEnable a p => exact execSampleEnable_steady ok
  | qsampleRead d err => exact execQsampleRead_steady ok
  | domEnable a d en => exact execDomEnable_steady ok
  | domCommit a d => exact execDomCommit_steady ok
  | domLock a d unlock => exact execDomLock_steady ok
  | domUnlock a d => exact execDomUnlock_steady ok
  | syncTimerExpiry d => exact execSyncTimerExpiry_steady ok
  | wtSwitch a => exact execWtSwitch_steady ok
  | snap a => exact execSnap_steady ok
  | txtsRdWrite a value => exact execTxtsRdWrite_steady ok
  | capInEdge k rising => exact execCapInEdge_steady ok
  | ppsEnable a k en => exact execPpsEnable_steady ok
  | ppsEdge k => exact execPpsEdge_steady ok
  | ctEnable a en => exact execCtEnable_steady ok
  | ctSeedWrite a value => exact execCtSeedWrite_steady ok
  | bucketReadComplete p ue bad => exact execBucketReadComplete_steady ok
  | rlWrite a i value => exact execRlWrite_steady ok
  | connFlush d => exact execConnFlush_steady ok
  | connDump d err => exact execConnDump_steady ok
  | canEnable a n en => exact execCanEnable_steady ok
  | canFrameRx n frame sinceSof => exact execCanFrameRx_steady ok
  | canFrameTxDone n loopDelay => exact execCanFrameTxDone_steady ok
  | canBusError n err => exact execCanBusError_steady ok
  | boRecover a n => exact execBoRecover_steady ok
  | busOffRecovered n => exact execBusOffRecovered_steady ok
  | linEnable a l en => exact execLinEnable_steady ok
  | linSchedRun a l run => exact execLinSchedRun_steady ok
  | linSlotStart l => exact execLinSlotStart_steady ok
  | linSchedSwitch a l => exact execLinSchedSwitch_steady ok
  | linHeaderRx l id err => exact execLinHeaderRx_steady ok
  | linResponseRx l id data cksum err sinceBreak => exact execLinResponseRx_steady ok
  | linResponseTimeout l => exact execLinResponseTimeout_steady ok
  | routeAdd d => exact execRouteAdd_steady ok
  | routeDel d => exact execRouteDel_steady ok
  | routeRead d => exact execRouteRead_steady ok
  | routeFlush d => exact execRouteFlush_steady ok
  | encBatchHoldExpiry st => exact execEncBatchHoldExpiry_steady ok
  | encDisable a st en => exact execEncDisable_steady ok
  | decapFrame ue => exact execDecapFrame_steady ok
  | authSet d => exact execAuthSet_steady ok
  | authRead d => exact execAuthRead_steady ok
  | authClear d => exact execAuthClear_steady ok
  | scSet d => exact execScSet_steady ok
  | scClear d => exact execScClear_steady ok
  | saInstall d => exact execSaInstall_steady ok
  | saSelect d => exact execSaSelect_steady ok
  | saClear d => exact execSaClear_steady ok
  | saRead d => exact execSaRead_steady ok
  | gcmEncrypt d mem e => exact execGcmEncrypt_steady ok
  | gcmDecrypt d mem e => exact execGcmDecrypt_steady ok
  | ctrEncrypt d mem e => exact execCtrEncrypt_steady ok
  | ctrDecrypt d mem e => exact execCtrDecrypt_steady ok
  | cmacGenerate d mem e => exact execCmacGenerate_steady ok
  | cmacVerify d mem e => exact execCmacVerify_steady ok
  | keyLoad d => exact execKeyLoad_steady ok
  | keyDerive d => exact execKeyDerive_steady ok
  | keyUnwrap d mem => exact execKeyUnwrap_steady ok
  | keyErase d => exact execKeyErase_steady ok
  | keyInvalidate d => exact execKeyInvalidate_steady ok
  | keyRetire d => exact execKeyRetire_steady ok
  | keyInfo d => exact execKeyInfo_steady ok
  | keyOldUsesEnded slot => exact execKeyOldUsesEnded_steady ok
  | lcAdvance d target => exact execLcAdvance_steady ok
  | rngRead d err => exact execRngRead_steady ok
  | idPubkey d err => exact execIdPubkey_steady ok
  | attest d err => exact execAttest_steady ok
  | sigVerify d mem => exact execSigVerify_steady ok
  | tamperLine src => exact execTamperLine_steady ok
  | getStatus m => exact execGetStatus_steady ok
  | readBatch m => exact execReadBatch_steady ok
  | ackBatch m => exact execAckBatch_steady ok
  | getPubkey m => exact execGetPubkey_steady ok
  | timeMsg m hwTime => exact execTimeMsg_steady ok
  | readEvlog m => exact execReadEvlog_steady ok
  | stageWrite m => exact execStageWrite_steady ok
  | calibrate m => exact execCalibrate_steady ok
  | imageWrite m => exact execImageWrite_steady ok
  | imageCheck m => exact execImageCheck_steady ok
  | hwAttest m => exact execHwAttest_steady ok
  | getLink m => exact execGetLink_steady ok
  | hwPrepare m => exact execHwPrepare_steady ok
  | hwCommit m => exact execHwCommit_steady ok
  | pulseAccepted pinB shortPhase hwTime => exact execPulseAccepted_steady ok
  | vddHwRise vaonLost hwTime => exact execVddHwRise_steady ok
  | hwTimeEdge hwTime => exact execHwTimeEdge_steady ok
  | hslFrame link bits hwTime => exact execHslFrame_steady ok
  | sapwoodTransfer a addr data size atomic crossed => exact execSapwoodTransfer_steady ok
  | retry a => exact execRetry_steady ok
  | semRead a i => exact execSemRead_steady ok
  | semWrite a i value => exact execSemWrite_steady ok
  | irqH2mEdge n => exact execIrqH2mEdge_steady ok
  | hwRstChange high => exact execHwRstChange_steady ok
  | checkpoint a k outcome => exact execCheckpoint_steady ok
  | lockstepMismatch k addr latent => exact execLockstepMismatch_steady ok
  | pairResumed k => exact execPairResumed_steady ok
  | wdtKick a w => exact execWdtKick_steady ok
  | watchdogExpiry w => exact execWatchdogExpiry_steady ok
  | ckptOverdue k => exact execCkptOverdue_steady ok
  | spqDeliver c bufs fail ue => exact execSpqDeliver_steady ok
  | spqHostIdxWrite a c value => exact execSpqHostIdxWrite_steady ok
  | sptHostIdxWrite a r value => exact execSptHostIdxWrite_steady ok
  | modeSet d => exact execModeSet_steady ok
  | groveCopyDone g => exact execGroveCopyDone_steady ok
  | wakePinRequest k high edges => exact execWakePinRequest_steady ok
  | t1sCarrierWake i => exact execT1sCarrierWake_steady ok
  | ballotVoteChange a k ready => exact execBallotVoteChange_steady ok
  | nmTimerExpiry k => exact execNmTimerExpiry_steady ok
  | sleepAck a => exact execSleepAck_steady ok
  | pwrGoodRise restore boot => cases plain.resolve_left nofun; exact execPwrGoodRise_steady ok
  | saveEnable a en => exact execSaveEnable_steady ok
  | tValidExpiry k => exact execTValidExpiry_steady ok
  | fwMaskedClear a value => exact execFwMaskedClear_steady ok
  | fwClr a => exact execFwClr_steady ok
  | clkHold a hold => exact execClkHold_steady ok
  | clkIdleExpiry cluster unit => exact execClkIdleExpiry_steady ok
  | porstN splitStrap boot => cases plain.resolve_left nofun; exact execPorstN_steady ok
  | warmN boot => cases plain.resolve_left nofun; exact execWarmN_steady ok
  | brownout boot => cases plain.resolve_left nofun; exact execBrownout_steady ok
  | softReset d => exact execSoftReset_steady ok
  | safeReq a => exact execSafeReq_steady ok
  | tempShutdown temp => exact execTempShutdown_steady ok
  | uncorrectableControlError cluster unit => exact execUncorrectableControlError_steady ok
  | scrubPass found => exact execScrubPass_steady ok
  | correctedError part => exact execCorrectedError_steady ok
  | roleSet a active => exact execRoleSet_steady ok
  | heartbeatFrameRx octets => exact execHeartbeatFrameRx_steady ok
  | hbPathSilent framePath => exact execHbPathSilent_steady ok
  | proofTest d x => exact execProofTest_steady ok
  | matrixWrite a which o value => exact execMatrixWrite_steady ok
  | auditDump d err => exact execAuditDump_steady ok
  | auditSeal d err => exact execAuditSeal_steady ok
  | auditVerify d mem => exact execAuditVerify_steady ok
  | imgWrite d mem => exact execImgWrite_steady ok
  | imgVerify d => exact execImgVerify_steady ok
  | imgActivate d => exact execImgActivate_steady ok
  | manifestActivate d cut rowFails => exact execManifestActivate_steady ok
  | updHwDone a => exact execUpdHwDone_steady ok
  | referenceClockStop boot => cases plain.resolve_left nofun; exact execReferenceClockStop_steady ok
  | frameEnqueue => exact execFrameEnqueue_steady ok
  | commitTimeout => exact execCommitTimeout_steady ok
  | commitToken => exact execCommitToken_steady ok
  | xmemPeriodicTraining => exact execXmemPeriodicTraining_steady ok
  | avgUpdate => exact execAvgUpdate_steady ok
  | staleScan => exact execStaleScan_steady ok
  | bankRetireCopyDone => exact execBankRetireCopyDone_steady ok
  | timePllLockLoss => exact execTimePllLockLoss_steady ok
  | timePllRelock => exact execTimePllRelock_steady ok
  | rawReseed => exact execRawReseed_steady ok
  | slewComplete => exact execSlewComplete_steady ok
  | bothLostRise => exact execBothLostRise_steady ok
  | timeWireEdge => exact execTimeWireEdge_steady ok
  | ctInitDone => exact execCtInitDone_steady ok
  | connSweep => exact execConnSweep_steady ok
  | anomalyWindowStart => exact execAnomalyWindowStart_steady ok
  | orphanSweep => exact execOrphanSweep_steady ok
  | rngHealthFailure => exact execRngHealthFailure_steady ok
  | hwSecondEnd => exact execHwSecondEnd_steady ok
  | batchSigned => exact execBatchSigned_steady ok
  | mainTamper => exact execMainTamper_steady ok
  | hwTampered => exact execHwTampered_steady ok
  | hwLockstepMismatch => exact execHwLockstepMismatch_steady ok
  | sourceStartTimeout => exact execSourceStartTimeout_steady ok
  | sapwoodTransferDone => exact execSapwoodTransferDone_steady ok
  | sapTimeout => exact execSapTimeout_steady ok
  | heartbeatTimeout => exact execHeartbeatTimeout_steady ok
  | heartbeatResume => exact execHeartbeatResume_steady ok
  | noticeGo => exact execNoticeGo_steady ok
  | pulseFirstEdgeWake => exact execPulseFirstEdgeWake_steady ok
  | timerWakeExpiry => exact execTimerWakeExpiry_steady ok
  | ballotDelayExpiry => exact execBallotDelayExpiry_steady ok
  | sleepAckTimeout => exact execSleepAckTimeout_steady ok
  | saveDone => exact execSaveDone_steady ok
  | pwrOffMinExpiry => exact execPwrOffMinExpiry_steady ok
  | keeperThreshold => exact execKeeperThreshold_steady ok
  | rasWindowEnd => exact execRasWindowEnd_steady ok
  | heartbeatSend => exact execHeartbeatSend_steady ok
  | hbInEdge => exact execHbInEdge_steady ok
  | partnerFailed => exact execPartnerFailed_steady ok
  | vaonLoss => cases plain.resolve_left nofun; exact execVaonLoss_steady ok
  | coarseEdge => exact execCoarseEdge_steady ok
  | vddHwLoss => exact execVddHwLoss_steady ok
  | barkClean => exact execBarkClean_steady ok

end

end Sys2Proof.Machine
end

section
/-! SUPPORT. The stores stay canonical, and SAFE ends only by a reset or a loss of supply. -/
namespace Sys2Proof.Machine

theorem State.idle_steady {way : Bool} {s : State} (ok : s.dev.Steady way) : s.idle.dev.Steady way := by
  unfold State.idle Dev.timeCycle
  exact ite_steady ok.onCam ok

theorem step_steady {s : State} (ok : s.dev.Steady true) : Leads true (step s) := by
  unfold step
  split
  · exact leads_next (State.idle_steady ok)
  · exact exec_steady (s := { s with pending := _ }) _ ok (.inr rfl)

/-- Settles O4: every row keeps the property that the stores are canonical, operation by operation. -/
theorem storesStayCanonical : Obligations.StoresStayCanonical := by
  unfold Obligations.StoresStayCanonical
  intro s t canonical next
  exact (Dev.steady_true_iff _).mp (step_steady ((Dev.steady_true_iff _).mpr canonical) t next)

/-- Settles O5: outside the resets no operation stores a value without bit 31 in the register of SAFE, and the token of a commit is
given for one of the four version slots. -/
theorem safeEndsOnlyByReset : Obligations.SafeEndsOnlyByReset := by
  unfold Obligations.SafeEndsOnlyByReset
  intro c s t plain safe range next
  exact (Dev.steady_false_iff _).mp (exec_steady c ((Dev.steady_false_iff _).mpr ⟨safe, range⟩) (.inl plain) t next)

end Sys2Proof.Machine
end
